-- ==== Sys2Proof/Word.lean ====
section
/-! DEFINITION. The word and byte types of the CP9840 (R13, R14) and the sparse map that State uses for
sparse data by key: registers, table words, counters. -/

namespace Sys2Proof

/-- A 32-bit register or table word (R13). -/
abbrev Word := BitVec 32

/-- One byte of a line, halyard, TMC, host or flash format (R14). -/
abbrev Byte := BitVec 8

/-- Bytes of a format, byte 0 first (R14). -/
abbrev Bytes := List Byte

/-- Sparse data by key: strictly rising keys, no entry equal to what an unlisted key reads as. -/
abbrev Sparse (α : Type) := List (Nat × α)

end Sys2Proof
end

