-- ==== Sys2Proof/Syntax.lean ====
section
/-! DEFINITION. The commands of the CP9840: one constructor of `Instr` per row of spec/opcode_table.json, in the
table's order, with the operands the row's event carries. Every row of the table has `fields: []`, so the operands
are the model's own reading of the row's requirement: what the outside world brings with the event. -/

namespace Sys2Proof

/-- Tree A or tree B (R16). -/
inductive Tree where
  | a
  | b
  deriving DecidableEq, Repr

/-- Receivers A0 and A1 on tree A, B0 and B1 on tree B (R16). -/
inductive Rx where
  | a0
  | a1
  | b0
  | b1
  deriving DecidableEq, Repr

/-- The six OFE management interfaces of R595, by the page that carries their registers (R119): OFEA0 to OFEB1 on the
RX pages, OFETA and OFETB on the TX pages. -/
inductive Ofe where
  | a0
  | a1
  | b0
  | b1
  | ta
  | tb
  deriving DecidableEq, Repr

/-- The two accessors of a page: the host over BAR0, the control cores over the core window (R61). -/
inductive Window where
  | host
  | core
  deriving DecidableEq, Repr

/-- The four alias views of a page (Table 2.3). -/
inductive View where
  | normal
  | set
  | clear
  | toggle
  deriving DecidableEq, Repr

/-- One 32-bit write: accessor, alias view, byte enables (R41) and value. -/
structure Access where
  win : Window
  view : View
  be : BitVec 4
  val : Word
  deriving DecidableEq, Repr

/-- What one acquisition phase found (Table 3.3, R114). -/
inductive AcqResult where
  /-- Gain settled: gain code and ADC RMS level in % of full scale. -/
  | gain (code level : Nat)
  /-- Clock locked: offset in 0.001 ppm. -/
  | clock (ofs : Int)
  /-- Dispersion found, in ps/nm. -/
  | dispersion (cd : Int)
  /-- Polarisation equalizer converged. -/
  | polarisation
  /-- Carrier offset found, in kHz. -/
  | carrier (khz : Int)
  /-- The pilot grid stands: the first pilots of a frame with counter `fc`, each as the levels at the four input pairs. -/
  | pilot (fc : Nat) (syms : List (List Int))
  deriving DecidableEq, Repr

/-- A codeword at the LDPC decoder: its n hard-decided bits as they come from the input pairs, two of each pair in a symbol,
scrambled, in codeword order; and what the decoder's decisions on the corrected and descrambled bits would be after one
iteration, two, and so on (R84, R114, R124). -/
structure RxCodeword where
  received : List Bool
  steps : List (List Bool)
  deriving DecidableEq, Repr

/-- What the window checker or the OFE shows of a transmitter (Table 3.8). -/
inductive RogueSign where
  /-- The gate pad or DAC data outside the windows; `dac` says that the DAC data is non-zero. -/
  | outside (dac : Bool)
  /-- The pads of PREP and GATE read back so for 4 sym. -/
  | pads (prep gate : Bool)
  /-- The third poll in a row of the OFE's monitor above −30 dBm. -/
  | light
  /-- TXx_FLT# low for 1 ms. -/
  | fault
  deriving DecidableEq, Repr

/-- A frame as the classifier receives it (R288): the id under which the buffer manager holds it, source kind (0 UNI, 1
line, 2 host) and number, the ring of a host frame (0 to 31 of its function, 32 the cores' ring), the tenant and service a
line or host frame carries, its bytes from the destination address on, its length with the FCS, and the launch tag of a host or
core frame (R409). -/
structure InFrame where
  id : Nat
  srcKind : Nat
  srcNum : Nat
  ring : Nat := 0
  tenant : Nat
  service : Nat
  bytes : Bytes
  length : Nat
  tag : Option Nat
  deriving DecidableEq, Repr

/-- A frame whose first byte reaches the buffer manager (R325): its id, source, the tenant whose quota it is charged
to, the source rate in Gb/s, its bytes, and how many of them have arrived. -/
structure AdmitReq where
  id : Nat
  srcKind : Nat
  srcNum : Nat
  tenant : Nat
  rate : Nat
  bytes : Bytes
  arrived : Nat
  deriving DecidableEq, Repr

/-- What a memory error hit (R324): a cell of the frame whose copy is being read at an egress port, or for an upstream list; a
link entry of a frame; a descriptor; or an error that was corrected (R356; log entry 118). -/
inductive MemErr where
  /-- A cell of frame `id`; `port` is the UNI port reading it, where one is. -/
  | cell (id : Nat) (port : Option Nat)
  /-- A link entry of frame `id`. -/
  | entry (id : Nat)
  /-- Descriptor `d`. -/
  | desc (d : Nat)
  /-- A correctable error. -/
  | corrected
  deriving DecidableEq, Repr

/-- How a core reaches an address (R482). -/
inductive CoreUse where
  | fetch
  | load
  | store
  deriving DecidableEq, Repr

/-- What becomes of a core's access to memory: an uncorrectable error of its SRAM, with the trap's cause and address; a
correctable one; or the access itself, judged against Table 15.1 and the core's PMP entries (R481 to R483). -/
inductive CoreAccess where
  | uncorrectable (cause : Nat) (addr : Nat)
  | corrected
  | access (use : CoreUse) (addr : Nat)
  deriving DecidableEq, Repr

/-- A TMC message as its fragment brings it (R196). The frame counter of its tag is the one that the framer had when the
fragment's header began (R141). -/
structure TmcIn where
  bytes : Bytes
  deriving DecidableEq, Repr
/-- How a UNI port comes up (R421, R426, R427): whether auto-negotiation completed, whether the partner advertised EEE, and
for each lane of the port, from lane p on: the logical lane seen, the polarity inversion applied, and the frequency offset
in 0.1 ppm. -/
structure LinkUpInfo where
  anDone : Bool
  eee : Bool
  lanes : List (Nat × Bool × Int)
  deriving DecidableEq, Repr

/-- A configuration write of the host to a function (R452 to R459, R466 to R473). -/
inductive CfgWrite where
  /-- Bus Master Enable. -/
  | busMaster (on : Bool)
  /-- VF Enable and NumVFs of the SR-IOV capability (PF 0 only). -/
  | vf (enable : Bool) (num : Nat)
  /-- The power state: D3hot, or D0. -/
  | power (d3 : Bool)
  /-- MSI-X Enable and Function Mask. -/
  | msix (enable mask : Bool)
  /-- PME_En. -/
  | pmeEn (on : Bool)
  /-- Software clears PME_Status. -/
  | pmeStatusClear
  /-- Hardware Autonomous Width Disable in Link Control. -/
  | widthDisable (on : Bool)
  /-- ASPM L1 enabled in Link Control. -/
  | aspmL1 (on : Bool)
  /-- A base address: of PF 0's BAR0/1 (0) or BAR2/3 (1), or of the VF BAR0/1 of its SR-IOV capability (2) (Table 14.2). -/
  | bar (n addr : Nat)
  /-- Status bits of the function's AER registers cleared by writing 1: uncorrectable, correctable. -/
  | aerClear (uncorrectable correctable : Nat)
  deriving DecidableEq, Repr

/-- A transmit descriptor entry, decoded (Table 14.5). -/
structure TxEntry where
  addr : Nat
  len : Nat
  first : Bool
  last : Bool
  irq : Bool
  tag : Nat
  cookie : Nat
  deriving DecidableEq, Repr

/-- What the completions of a segment's reads bring (R461, R462): its bytes, or the cause of the fault: 1 UR, 2 CA, 3
poisoned. -/
inductive SegCompletion where
  | data (bytes : Bytes)
  | fault (cause : Nat)
  deriving DecidableEq, Repr

/-- What the Lehr engine reads at a re-plan (R573, R575): per region, in the order of Table 1.4, temperature in 0.1 °C,
canary margin in ps and ring-oscillator shift in 0.01 %; and the transmit power that the OFE of tree A and of tree B
reports, in 0.1 dBm. -/
structure LehrReadings where
  sensors : List (Int × Int × Nat)
  monitorA : Int
  monitorB : Int
  deriving DecidableEq, Repr

/-- The commands, one per row of the operation table. -/
inductive Instr where
  /-- REGISTER_WRITE (R41, R46): `hi` is the upper half of an aligned 64-bit access, its byte enables and its value. -/
  | registerWrite (page : Nat) (off : Nat) (acc : Access) (hi : Option (BitVec 4 × Word))
  /-- DARK_PAGE_ACCESS (R44). -/
  | darkPageAccess (page : Nat) (isWrite : Bool)
  /-- LATCHING_READ (R41, R42): `wide` is an aligned 64-bit access. -/
  | latchingRead (page : Nat) (off : Nat) (wide : Bool)
  /-- RWT_VOTED_READ (R56). -/
  | rwtVotedRead (page : Nat) (off : Nat)
  /-- SYS_DARK_ACCESS_CLEAR (R45). -/
  | sysDarkAccessClear
  /-- CFG_STATUS_CLEAR (R48). -/
  | cfgStatusClear (page : Nat)
  /-- TRIPLE_STATUS_CLEAR (R48). -/
  | tripleStatusClear (page : Nat)
  /-- SOFT_RESET (R49). -/
  | softReset (page : Nat)
  /-- SOFT_RESET_COMPLETE (R49). -/
  | softResetComplete (page : Nat)
  /-- PENNANT_EVENT (R51). -/
  | pennantEvent (page : Nat) (bit : Nat)
  /-- PENNANT_ADVANCE (R51). -/
  | pennantAdvance (page : Nat)
  /-- PENNANT_CLEAR (R52). -/
  | pennantClear (page : Nat) (v : Word)
  /-- PENNANT_MASK_WRITE (R53). -/
  | pennantMaskWrite (page : Nat) (acc : Access)
  /-- TRIPLE_SCRUB (R56). -/
  | tripleScrub
  /-- INDIRECT_DATA_WRITE (R58). -/
  | indirectDataWrite (win : Window) (page : Nat) (v : Word)
  /-- INDIRECT_DATA_READ (R58). -/
  | indirectDataRead (win : Window) (page : Nat)
  /-- INDIRECT_ADDR_WRITE (R60). -/
  | indirectAddrWrite (win : Window) (page : Nat) (ctrl : Bool) (acc : Access)
  /-- SNAP_ARM (R66). -/
  | snapArm
  /-- SNAP_CANCEL (R66). -/
  | snapCancel
  /-- SNAP_ARM_NOW (R68). -/
  | snapArmNow
  /-- SNAP_CTRL_MULTI (R603). -/
  | snapCtrlMulti (v : Word)
  /-- SNAP_CAPTURE (R63). -/
  | snapCapture
  /-- SNAP_LATE_FIRE (R64). -/
  | snapLateFire
  /-- SNAP_UNIT_MISSING (R65). -/
  | snapUnitMissing (unit : Nat)
  /-- SNAP_COMPLETE (R67). -/
  | snapComplete
  /-- RX_ENABLE (R86). -/
  | rxEnable (r : Rx)
  /-- RX_DISABLE (R91). -/
  | rxDisable (r : Rx)
  /-- SIG_PRESENT (R86). -/
  | sigPresent (r : Rx)
  /-- SIG_LOST (R87). -/
  | sigLost (r : Rx)
  /-- ACQ_PHASE_COMPLETE (R86). -/
  | acqPhaseComplete (r : Rx) (res : AcqResult)
  /-- ACQ_TIMEOUT (R87). -/
  | acqTimeout (r : Rx)
  /-- LOCK_LOST (R88). -/
  | lockLost (r : Rx)
  /-- PHASE_SLIP (R89). -/
  | phaseSlip (r : Rx)
  /-- CODEWORD_DECODE (R84). -/
  | codewordDecode (r : Rx) (cw : RxCodeword)
  /-- FOM_WINDOW_END (R92). -/
  | fomWindowEnd (r : Rx) (fom : Nat)
  /-- RX_LANE_ADAPT (R93): a lane's equalizer, or its skew trim, takes a value. -/
  | rxLaneAdapt (r : Rx) (lane : Nat) (skew : Bool) (value : Nat)
  /-- TX_DISABLE (R120). -/
  | txDisable (t : Tree)
  /-- TX_PREP_ASSERT (R99). -/
  | txPrepAssert (t : Tree)
  /-- TX_GATE_ASSERT (R99). -/
  | txGateAssert (t : Tree)
  /-- BURST_START (R95). -/
  | burstStart (t : Tree)
  /-- TX_GATE_DEASSERT (R99). -/
  | txGateDeassert (t : Tree)
  /-- BURST_END (R99). -/
  | burstEnd (t : Tree)
  /-- TX_PREP_DEASSERT (R99). -/
  | txPrepDeassert (t : Tree)
  /-- TX_LASER_POLICY_WRITE (R106). -/
  | txLaserPolicyWrite (t : Tree) (acc : Access)
  /-- TX_CLOCK_MISSING (R107). -/
  | txClockMissing (t : Tree)
  /-- FORCE_RELEASE (R108). -/
  | forceRelease (t : Tree)
  /-- ROGUE_POWER_POLL (R110). -/
  | roguePowerPoll (t : Tree) (dbm10 : Int)
  /-- ROGUE_EVENT (R111). -/
  | rogueEvent (t : Tree) (sign : RogueSign)
  /-- OFE_I2C_GO (R119). -/
  | ofeI2cGo (o : Ofe) (v : Word)
  /-- OFE_I2C_DONE (R119). -/
  | ofeI2cDone (o : Ofe) (ack : Bool) (rdata : Nat)
  /-- OFE_I2C_TIMEOUT (R119). -/
  | ofeI2cTimeout (o : Ofe)
  /-- OFE_INT (R121): the INT# pin asserts, or deasserts. -/
  | ofeInt (o : Ofe) (on : Bool)
  /-- OFE_PRESENT_CHANGE (R117). -/
  | ofePresentChange (o : Ofe) (present : Bool)
  /-- FRM_ENABLE (R149). -/
  | frmEnable (r : Rx)
  /-- FRM_DISABLE (R152). -/
  | frmDisable (r : Rx)
  /-- ALIGN_CODEWORD (R139): the bits as they come from the input pairs. -/
  | alignCodeword (r : Rx) (bits : List Bool)
  /-- FRAME_HEADER (R140). -/
  | frameHeader (r : Rx)
  /-- GRANT_ENTRY (R248). -/
  | grantEntry (r : Rx) (bytes : Bytes)
  /-- FRAGMENT_HEADER (R142): eight bytes at offset `pos` of the frame's fragment area. -/
  | fragmentHeader (r : Rx) (pos : Nat) (bytes : Bytes)
  /-- FRAGMENT_RECEIVE (R137). -/
  | fragmentReceive (r : Rx) (payload : Bytes)
  /-- LOS_CLEAR (R149). -/
  | losClear (r : Rx)
  /-- LOF_DECLARE (R149). -/
  | lofDeclare (r : Rx)
  /-- LOF_CLEAR (R149). -/
  | lofClear (r : Rx)
  /-- DEFECT_WINDOW_END (R149). -/
  | defectWindowEnd (r : Rx)
  /-- PM_SECOND (R156). -/
  | pmSecond (r : Rx)
  /-- PM_BIN_EDGE (R155). -/
  | pmBinEdge (day : Bool)
  /-- PM_BIN_FINAL (R156). -/
  | pmBinFinal (r : Rx) (day : Bool) (slot : Nat)
  /-- PM_DISABLE (R159). -/
  | pmDisable
  /-- HAL_DISABLE (R186). -/
  | halDisable (t : Tree)
  /-- HAL_PREAMBLE_DETECT (R172). -/
  | halPreambleDetect (t : Tree) (gain : Nat)
  /-- HAL_SYNC_FOUND (R172). -/
  | halSyncFound (t : Tree) (fc : Nat) (ofs : Nat)
  /-- HAL_SYNC_MISS (R172). -/
  | halSyncMiss (t : Tree)
  /-- HAL_HEADER (R168). -/
  | halHeader (t : Tree) (syms : List Nat)
  /-- HAL_FRAME_END (R170). -/
  | halFrameEnd (t : Tree) (syms : List Nat) (level : Nat)
  /-- HAL_AGC_TIMEOUT (R172). -/
  | halAgcTimeout (t : Tree)
  /-- HAL_RX_ACTIVE_LOST (R173). -/
  | halRxActiveLost (t : Tree)
  /-- HAL_RX_SYNC_TIMEOUT (R175). -/
  | halRxSyncTimeout (t : Tree)
  /-- BEACON (R202). -/
  | beacon (t : Tree) (payload : Bytes)
  /-- RANGE_REQUEST (R202). -/
  | rangeRequest (t : Tree) (payload : Bytes)
  /-- WAKE (R211). -/
  | wake (t : Tree) (payload : Bytes)
  /-- NOTICE_ACK (R213). -/
  | noticeAck (t : Tree) (payload : Bytes)
  /-- HAL_SUBMIT (R176). -/
  | halSubmit (t : Tree) (slot : Nat)
  /-- HAL_CANCEL (R186). -/
  | halCancel (t : Tree) (slot : Nat)
  /-- HAL_COMMIT (R179). -/
  | halCommit (t : Tree) (slot : Nat)
  /-- HAL_TX_START (R177). -/
  | halTxStart (t : Tree) (slot : Nat)
  /-- HAL_TX_END (R177). -/
  | halTxEnd (t : Tree) (slot : Nat)
  /-- ACT_DISABLE (R218). -/
  | actDisable (t : Tree)
  /-- LISTENING_ENTRY (R192). -/
  | listeningEntry (t : Tree)
  /-- ACT_MODE_WRITE (R193). -/
  | actModeWrite (t : Tree) (acc : Access)
  /-- RELEASE_QUARANTINE (R217). -/
  | releaseQuarantine (t : Tree)
  /-- ACT_DEACTIVATE_CMD (R192). -/
  | actDeactivateCmd (t : Tree)
  /-- HAIL_TIMEOUT (R192). -/
  | hailTimeout (t : Tree)
  /-- RANGE_TIMEOUT (R192). -/
  | rangeTimeout (t : Tree)
  /-- WARM_RETURN (R210). -/
  | warmReturn (t : Tree) (counter : Nat) (elapsedFrames : Nat) (serials : List (Option (Bytes × Bytes)))
  /-- WARM_WINDOW_EXPIRE (R210). -/
  | warmWindowExpire (t : Tree)
  /-- EQD_APPLY (R203). -/
  | eqdApply (t : Tree)
  /-- MAX_PARK_EXPIRE (R211). -/
  | maxParkExpire (t : Tree)
  /-- GASP_WAIT_EXPIRE (R213). -/
  | gaspWaitExpire (t : Tree)
  /-- NOTICE_RETRY (R213). -/
  | noticeRetry (t : Tree)
  /-- TMC_RESPONSE_EXPIRE (R198). -/
  | tmcResponseExpire (t : Tree) (slot : Nat)
  /-- REGISTER (R202). -/
  | register (t : Tree) (m : TmcIn)
  /-- RANGE_CONFIRM (R202). -/
  | rangeConfirm (t : Tree) (m : TmcIn)
  /-- ADJUST (R203). -/
  | adjust (t : Tree) (m : TmcIn)
  /-- DEACTIVATE (R192). -/
  | deactivate (t : Tree) (m : TmcIn)
  /-- DISABLE (R217). -/
  | disable (t : Tree) (m : TmcIn)
  /-- ENABLE (R217). -/
  | enable (t : Tree) (m : TmcIn)
  /-- PARK (R211). -/
  | park (t : Tree) (m : TmcIn)
  /-- STATUS_REQUEST (R200). -/
  | statusRequest (t : Tree) (m : TmcIn)
  /-- TENANT_PROVISION (R205). -/
  | tenantProvision (t : Tree) (m : TmcIn)
  /-- TENANT_REMOVE (R207). -/
  | tenantRemove (t : Tree) (m : TmcIn)
  /-- ALLOC_ASSIGN (R208). -/
  | allocAssign (t : Tree) (m : TmcIn)
  /-- ALLOC_RELEASE (R271). -/
  | allocRelease (t : Tree) (m : TmcIn)
  /-- TMC_UNKNOWN_TYPE (R200). -/
  | tmcUnknownType (t : Tree) (m : TmcIn)
  /-- TMC_HEAD_END_RESPONSE (R200). -/
  | tmcHeadEndResponse (t : Tree) (m : TmcIn)
  /-- PRIMARY_CLAIM (R240). -/
  | primaryClaim (t : Tree) (m : TmcIn)
  /-- PROTECT_SET (R224). -/
  | protectSet (t : Tree) (m : TmcIn)
  /-- KEY_INIT (R370). -/
  | keyInit (t : Tree) (m : TmcIn)
  /-- KEY_CONFIRM (R370). -/
  | keyConfirm (t : Tree) (m : TmcIn)
  /-- TENANT_KEY (R372). -/
  | tenantKey (t : Tree) (m : TmcIn)
  /-- TIME_BIND (R394). -/
  | timeBind (t : Tree) (m : TmcIn)
  /-- TIME_QUALITY (R394). -/
  | timeQuality (t : Tree) (m : TmcIn)
  /-- UPSTREAM_NEED (R267). -/
  | upstreamNeed (t : Tree)
  /-- DUAL_DISABLE (R231). -/
  | dualDisable
  /-- MERGE_FRAGMENT (R232). -/
  | mergeFragment (r : Rx)
  /-- DUAL_UNPROTECTED (R230). -/
  | dualUnprotected (r : Rx)
  /-- DUAL_BREAK_MARKER (R230). -/
  | dualBreakMarker (r : Rx)
  /-- MERGE_IDLE_RESET (R233). -/
  | mergeIdleReset (stream : Nat)
  /-- DUAL_FLUSH (R233). -/
  | dualFlush
  /-- DUAL_SKEW_UPDATE (R236). -/
  | dualSkewUpdate
  /-- COPY_WITHDRAW (R239). -/
  | copyWithdraw (t : Tree)
  /-- SEL_WTR_EXPIRE (R237). -/
  | selWtrExpire
  /-- CLAIM_CONFLICT_SEND (R241). -/
  | claimConflictSend
  /-- GRT_DISABLE (R276). -/
  | grtDisable (t : Tree)
  /-- GRANT_SELECT (R252). -/
  | grantSelect (t : Tree)
  /-- SCHED_TICK (R259). -/
  | schedTick
  /-- USCH_AGE_SWEEP (R263). -/
  | uschAgeSweep
  /-- USCH_DISABLE (R280). -/
  | uschDisable
  /-- TMC_SEND_SUBMIT (R268). -/
  | tmcSendSubmit (t : Tree) (entry : Nat) (len : Nat) (cls : Nat) (addr : Nat)
  /-- BULK_DRAW_BACK (R345). -/
  | bulkDrawBack (q : Nat)
  /-- POL_DISABLE (R274). -/
  | polDisable
  /-- CLS_DISABLE (R289). -/
  | clsDisable
  /-- FRAME_CLASSIFY (R293). -/
  | frameClassify (f : InFrame) (saturated : Bool)
  /-- FOLLOW_TIMEOUT (R303). -/
  | followTimeout (idx : Nat)
  /-- FLOW_AGE_SWEEP (R308). -/
  | flowAgeSweep
  /-- FLOW_DISABLE (R314). -/
  | flowDisable
  /-- FLOW_INSERT (R309). -/
  | flowInsert
  /-- FLOW_DELETE (R309). -/
  | flowDelete
  /-- FLOW_FIND (R309). -/
  | flowFind
  /-- FLOW_CMD_DONE (R309). -/
  | flowCmdDone
  /-- FRAME_ADMIT_START (R325). -/
  | frameAdmitStart (f : AdmitReq)
  /-- COPY_DECIDE (R327). -/
  | copyDecide (id : Nat)
  /-- FRAME_ADMIT_END (R325). -/
  | frameAdmitEnd (id : Nat) (err : Bool) (poolEmpty : Bool)
  /-- BACKLOG_SPILL (R344). -/
  | backlogSpill (q : Nat)
  /-- MEM_UNCORRECTABLE (R324). -/
  | memUncorrectable (what : MemErr)
  /-- DSCH_SELECT (R336). -/
  | dschSelect (port : Nat)
  /-- UNI_TX_COMPLETE (R328). -/
  | uniTxComplete (port : Nat)
  /-- DSCH_AGE_SWEEP (R338). -/
  | dschAgeSweep
  /-- PORT_FLUSH (R339). -/
  | portFlush (port : Nat)
  /-- SAMPLE_DELIVER (R341). -/
  | sampleDeliver (bufs : List Bytes)
  /-- DSCH_DISABLE (R354). -/
  | dschDisable
  /-- STO_DISABLE (R351). -/
  | stoDisable
  /-- SWC_DISABLE (R353). -/
  | swcDisable
  /-- MIR_DISABLE (R355). -/
  | mirDisable
  /-- XTR_DISABLE (R352). -/
  | xtrDisable
  /-- XTR_SEGMENT_WRITE (R347). -/
  | xtrSegmentWrite (seg : Nat) (w0 : Word) (w1 : Word) (w2 : Word) (w3 : Word)
  /-- TIER_READ_FAIL (R346). -/
  | tierReadFail (q : Nat) (whole : Bool)
  /-- AUDIT_EVAL (R349). -/
  | auditEval
  /-- AUDIT_SWEEP_START (R350). -/
  | auditSweepStart
  /-- AUDIT_SWEEP_DONE (R350). -/
  | auditSweepDone
  /-- AUDIT_STATUS_CLEAR (R351). -/
  | auditStatusClear
  /-- LSEC_DECRYPT (R363). -/
  | lsecDecrypt (r : Rx)
  /-- KEY_SWITCH (R362). -/
  | keySwitch (ctx : Nat)
  /-- LSEC_DISABLE (R383). -/
  | lsecDisable
  /-- CCRY_START (R374). -/
  | ccryStart (slot : Nat)
  /-- CCRY_ABORT (R387). -/
  | ccryAbort (slot : Nat)
  /-- CCRY_EXPORT (R376). -/
  | ccryExport (slot : Nat) (wrapped : Bool)
  /-- CCRY_IMPORT (R376). -/
  | ccryImport (slot : Nat)
  /-- CCRY_JOB_DONE (R374). -/
  | ccryJobDone (slot : Nat)
  /-- CCRY_DISABLE (R386). -/
  | ccryDisable
  /-- KST_COMMIT (R381). -/
  | kstCommit
  /-- KST_COMMIT_DONE (R381). -/
  | kstCommitDone (ok : Bool)
  /-- KST_GENKEY (R382). -/
  | kstGenkey
  /-- KST_GENKEY_DONE (R382). -/
  | kstGenkeyDone
  /-- KST_DISABLE (R388). -/
  | kstDisable
  /-- TIME_SET_CMD (R398). -/
  | timeSetCmd
  /-- TIME_SET_APPLY (R398). -/
  | timeSetApply (r : Rx)
  /-- TIME_CLEAR_HOST (R398). -/
  | timeClearHost
  /-- TIME_ENABLE (R403). -/
  | timeEnable
  /-- TIME_CAL_DONE (R403). -/
  | timeCalDone
  /-- TIME_DISABLE (R411). -/
  | timeDisable
  /-- PPS_EDGE (R404). -/
  | ppsEdge
  /-- PPS_FALL (R404). -/
  | ppsFall
  /-- LAUNCH_ELIGIBLE (R409). -/
  | launchEligible (port : Nat) (tag : Nat)
  /-- PORT_CFG_WRITE (R418). -/
  | portCfgWrite (port : Nat) (acc : Access)
  /-- AN_FAILED (R421). -/
  | anFailed (port : Nat)
  /-- CDR_LOCK (R423). -/
  | cdrLock (lane : Nat)
  /-- CDR_LOCK_LOST (R423). -/
  | cdrLockLost (lane : Nat)
  /-- LINK_UP (R421). -/
  | linkUp (port : Nat) (up : LinkUpInfo)
  /-- LINK_DOWN (R422). -/
  | linkDown (port : Nat)
  /-- LANE_FOM_WINDOW (R424). -/
  | laneFomWindow (lane : Nat) (fom : Nat)
  /-- LANE_ADAPT (R425). -/
  | laneAdapt (lane : Nat)
  /-- PRBS_LOCK (R430). -/
  | prbsLock (lane : Nat) (levels : List Int)
  /-- PRBS_LOCK_LOST (R430). -/
  | prbsLockLost (lane : Nat) (levels : List Int)
  /-- PRBS_INVERT (R430). -/
  | prbsInvert (lane : Nat)
  /-- LANE_INJECT (R431). -/
  | laneInject (lane : Nat)
  /-- LANE_INJECT_PERIODIC (R431). -/
  | laneInjectPeriodic (lane : Nat)
  /-- LANE_DISABLE (R446). -/
  | laneDisable
  /-- UNI_FRAME_RECEIVE (R434). -/
  | uniFrameReceive (port : Nat) (bytes : Bytes) (fcsErr : Bool) (corrected : Nat) (uncorrectable : Nat)
  /-- PAUSE_RECEIVE (R437). -/
  | pauseReceive (port : Nat) (bytes : Bytes)
  /-- PAUSE_EXPIRE (R437). -/
  | pauseExpire (port : Nat) (prio : Nat)
  /-- PFC_REFRESH (R436). -/
  | pfcRefresh (port : Nat) (prio : Nat)
  /-- LPI_ENTER (R439). -/
  | lpiEnter (port : Nat)
  /-- LPI_EXIT (R439). -/
  | lpiExit (port : Nat)
  /-- UNIQ_DISABLE (R442). -/
  | uniqDisable (q : Nat)
  /-- PERST_ASSERT (R450). -/
  | perstAssert
  /-- PERST_DEASSERT (R449). -/
  | perstDeassert (strap : Bool)
  /-- PCIE_CONFIG_WRITE (R455). -/
  | pcieConfigWrite (fn : Nat) (w : CfgWrite)
  /-- MSIX_UNMASK (R459). -/
  | msixUnmask (fn : Nat) (vec : Option Nat)
  /-- FUNCTION_LEVEL_RESET (R466). -/
  | functionLevelReset (fn : Nat)
  /-- FLR_COMPLETE (R466). -/
  | flrComplete (fn : Nat)
  /-- RING_TAIL_WRITE (R461). -/
  | ringTailWrite (fn : Nat) (rx : Bool) (k : Nat) (tail : Nat)
  /-- RING_DISABLE (R457). -/
  | ringDisable (fn : Nat) (rx : Bool) (k : Nat)
  /-- RING_DRAINED (R457). -/
  | ringDrained (fn : Nat) (rx : Bool) (k : Nat)
  /-- RING_RESTART (R462). -/
  | ringRestart (fn : Nat) (k : Nat)
  /-- RING_SKIP (R462). -/
  | ringSkip (fn : Nat) (k : Nat)
  /-- FUNC_STATUS_CLEAR (R456). -/
  | funcStatusClear (fn : Nat)
  /-- DMA_TX_FRAME (R461). -/
  | dmaTxFrame (fn : Nat) (k : Nat) (entries : List Bytes)
  /-- DMA_SEG_COMPLETE (R461). -/
  | dmaSegComplete (fn : Nat) (k : Nat) (c : SegCompletion)
  /-- DMA_RX_WRITE (R464). -/
  | dmaRxWrite (fn : Nat) (cls : Nat) (bufs : List Bytes)
  /-- MSIX_MODERATION (R465). -/
  | msixModeration (fn : Nat) (rx : Bool) (k : Nat)
  /-- DMA_DISABLE (R479). -/
  | dmaDisable
  /-- L1_ENTRY (R467). -/
  | l1Entry (idle : Nat)
  /-- L1_EXIT (R467). -/
  | l1Exit
  /-- WAKE_CAUSE_LATCH (R469). -/
  | wakeCauseLatch (cause : Nat) (fn : Nat)
  /-- PME_SEND (R471). -/
  | pmeSend
  /-- WAKE_CAUSE_CLEAR (R471). -/
  | wakeCauseClear (bits : Nat)
  /-- NARROW_REQUEST (R472). -/
  | narrowRequest (util : Nat) (ms : Nat)
  /-- NARROW_WITHDRAW (R473). -/
  | narrowWithdraw (width : Nat) (rate : Nat)
  /-- NARROW_RETRY (R473). -/
  | narrowRetry (util : Nat) (ms : Nat)
  /-- CXL_ENUMERATE (R475). -/
  | cxlEnumerate
  /-- CXL_ENUM_DONE (R475). -/
  | cxlEnumDone (res : Nat) (capacity : Nat) (speed : Nat) (width : Nat)
  /-- CXL_LINK_DOWN (R476). -/
  | cxlLinkDown
  /-- HIF_DISABLE (R475). -/
  | hifDisable
  /-- TASK_DISPATCH (R489). -/
  | taskDispatch (core : Nat) (task : Nat)
  /-- SLOT_PREFETCH (R489). -/
  | slotPrefetch (core : Nat) (task : Nat)
  /-- TASK_PREEMPT (R489). -/
  | taskPreempt (core : Nat) (task : Nat)
  /-- TASK_END (R484). -/
  | taskEnd (core : Nat)
  /-- TASK_SETFLAG (R486). -/
  | taskSetflag (core : Nat) (task : Nat) (flag : Nat)
  /-- TASK_FLOW (R491). -/
  | taskFlow (core : Nat) (flow : Nat) (held : Bool)
  /-- TSK_TIMER_EXPIRE (R488). -/
  | tskTimerExpire (timer : Nat)
  /-- TSK_SET (R522). -/
  | tskSet (task : Nat) (flag : Nat)
  /-- DISPATCH_LATE (R493). -/
  | dispatchLate (task : Nat)
  /-- WDOG_KICK (R496). -/
  | wdogKick (core : Nat)
  /-- WATCHDOG_EXPIRE (R496). -/
  | watchdogExpire (core : Nat)
  /-- CORE_RELEASE (R496). -/
  | coreRelease (mask : Nat)
  /-- SRAM_UNCORRECTABLE (R483). -/
  | sramUncorrectable (core : Nat) (what : CoreAccess)
  /-- CORE_RING_TAIL (R494). -/
  | coreRingTail (ring : Nat) (tail : Nat)
  /-- CORE_DISABLE (R519). -/
  | coreDisable
  /-- TSK_DISABLE (R522). -/
  | tskDisable
  /-- FLASH_READ (R499). -/
  | flashRead (win : Window)
  /-- FLASH_PROGRAM (R499). -/
  | flashProgram (win : Window) (fromStage : Bool)
  /-- FLASH_ERASE (R511). -/
  | flashErase (win : Window)
  /-- PAGE_LOAD (R508). -/
  | pageLoad (win : Window)
  /-- FLASH_OP_DONE (R499). -/
  | flashOpDone (ok : Bool)
  /-- FLASH_ERASE_DONE (R511). -/
  | flashEraseDone (blank : Bool)
  /-- FLSH_DISABLE (R525). -/
  | flshDisable
  /-- BOOT (R505). -/
  | boot (suspended : Bool) (bad : List Nat)
  /-- BOOT_CONFIRM (R506). -/
  | bootConfirm
  /-- BOOT_RETRY (R506). -/
  | bootRetry
  /-- PUNTY_ARM (R517). -/
  | puntyArm (handover : Nat)
  /-- PUNTY_LOAD (R517). -/
  | puntyLoad
  /-- PUNTY_READY (R517). -/
  | puntyReady
  /-- PUNTY_COMMIT (R517). -/
  | puntyCommit
  /-- PUNTY_FLIP (R517). -/
  | puntyFlip
  /-- PUNTY_ABORT (R518). -/
  | puntyAbort
  /-- PUNTY_FREEZE_TIMEOUT (R518). -/
  | puntyFreezeTimeout
  /-- DOMAIN_IDLE_EXPIRE (R530). -/
  | domainIdleExpire (d : Nat) (refusal : Option (Nat × Nat))
  /-- DOMAIN_ENTRY_DONE (R530). -/
  | domainEntryDone (d : Nat)
  /-- DOMAIN_WAKE (R531). -/
  | domainWake (d : Nat) (src : Nat)
  /-- KEEP_POLICY_WRITE (R529). -/
  | keepPolicyWrite (hi : Bool) (acc : Access)
  /-- DOMAIN_RESTORE_DONE (R537). -/
  | domainRestoreDone (d : Nat)
  /-- CLOCK_GATE_END (R538). -/
  | clockGateEnd (cand : Nat) (count : Nat)
  /-- HOSTREF_LOST (R539). -/
  | hostrefLost
  /-- CLOCK_WTR_EXPIRE (R541). -/
  | clockWtrExpire (cand : Nat)
  /-- CLK_FORCE (R542). -/
  | clkForce (code : Nat)
  /-- CLOCK_LOSS_RESET (R544). -/
  | clockLossReset
  /-- CLOCK_EDGE_MISSING (R545). -/
  | clockEdgeMissing (which : Nat)
  /-- KOSC_TRIM (R546). -/
  | koscTrim (count : Nat)
  /-- SUPPLY_WARNING (R549). -/
  | supplyWarning (rails : Nat)
  /-- SUPPLY_WARNING_CLEAR (R549). -/
  | supplyWarningClear
  /-- VKEEP_WARNING (R550). -/
  | vkeepWarning
  /-- MAIN_RAIL_RESET (R551). -/
  | mainRailReset (rails : Nat)
  /-- MAIN_RAIL_RELEASE (R551). -/
  | mainRailRelease
  /-- VKEEP_RESET (R551). -/
  | vkeepReset
  /-- VKEEP_POWER_UP (R380). -/
  | vkeepPowerUp (ramOk : Bool)
  /-- PSRC_DEBOUNCE (R552). -/
  | psrcDebounce (main : Bool) (level : Bool)
  /-- HOLDOFF_EXPIRE (R553). -/
  | holdoffExpire
  /-- MAINS_STABLE (R553). -/
  | mainsStable
  /-- UNIT_CONTAIN (R561). -/
  | unitContain (page : Nat) (unit : Nat)
  /-- REGION_CONTAIN (R561). -/
  | regionContain (region : Nat) (cause : Nat)
  /-- THERMAL_LIMIT (R562). -/
  | thermalLimit (region : Nat)
  /-- THERMAL_RELEASE (R561). -/
  | thermalRelease (region : Nat)
  /-- SYS_REGION_RELEASE (R563). -/
  | sysRegionRelease (mask : Nat)
  /-- FLIT_CRC_FAIL (R567). -/
  | flitCrcFail (link : Nat) (back : Bool) (flit : Bytes)
  /-- LINK_RETRAIN (R567). -/
  | linkRetrain (link : Nat) (ok : Bool)
  /-- D2D_RETRAIN_RETRY (R567). -/
  | d2dRetrainRetry (link : Nat) (ok : Bool)
  /-- D2D_LINK_UP (R561). -/
  | d2dLinkUp (link : Nat)
  /-- PIN_SHORT (R571). -/
  | pinShort (pin : Nat)
  /-- PIN_OPEN_TEST (R572). -/
  | pinOpenTest (pin : Nat) (followsUp : Bool) (followsDown : Bool) (changed : Bool)
  /-- PIN_RELEASE (R573). -/
  | pinRelease (pin : Nat) (stillFaulty : Bool)
  /-- REPLAN (R574). -/
  | replan (r : LehrReadings)
  /-- LEHR_REPLAN_NOW (R574). -/
  | lehrReplanNow (r : LehrReadings)
  /-- REPLAN_DEFERRED_START (R574). -/
  | replanDeferredStart (r : LehrReadings)
  /-- AVS_WRITE_DONE (R576). -/
  | avsWriteDone (rail : Nat) (ack : Bool)
  /-- SYS_RST (R590). -/
  | sysRst (widthNs : Nat)
  /-- TAP_RESET (R601). -/
  | tapReset
  /-- BYPASS (R600). -/
  | bypass
  /-- SAMPLE_PRELOAD (R600). -/
  | samplePreload (load : Option (List Bool))
  /-- IDCODE (R600). -/
  | idcode
  /-- EXTEST (R601). -/
  | extest
  /-- CLAMP (R601). -/
  | clamp
  /-- HIGHZ (R601). -/
  | highz
  /-- REMOTE_FAULT (R422). -/
  | remoteFault (port : Nat) (on : Bool)
  /-- LPI_RX (R439). -/
  | lpiRx (port : Nat) (on : Bool)
  /-- COMPLETION_TIMEOUT (R462). -/
  | completionTimeout (fn : Nat) (k : Nat)
  /-- PCIE_LINK_DOWN (R470). -/
  | pcieLinkDown (l2 : Bool)
  /-- PCIE_RECOVERY (R478). -/
  | pcieRecovery (width : Nat) (rate : Nat) (errors : Nat)
  /-- CXL_DEVICE_ERROR (R476). -/
  | cxlDeviceError
  deriving DecidableEq, Repr

end Sys2Proof
end

