-- ==== Sys2Proof/Config.lean ====
section
/-! DEFINITION. What the spec leaves open as values: constants with no body, so that nothing can be proved of them
beyond their type. Each is named in a log entry. -/

namespace Sys2Proof

/-- A free value of any width, by the index the state holds: a value the spec leaves undefined. -/
opaque Config.free : Nat → Nat

/-- The random octets of the security region's generator, by index. -/
opaque Config.random : Nat → Byte

/-- The 256-bit device-unique key of the boot root of trust, which nothing can read (R378), by byte. -/
opaque Config.deviceKey : Nat → Byte

/-- The least launch, in 0.1 dBm, that the OFE of tree 0 or 1 advertises in its CMIS pages (R105). -/
opaque Config.ofeLaunchMin : Nat → Int

/-- The greatest launch, in 0.1 dBm, that the OFE of tree 0 or 1 advertises (R105). -/
opaque Config.ofeLaunchMax : Nat → Int

/-- Where in a core's local SRAM the area of its slot 0 or 1 begins (R489). -/
opaque Config.slotArea : Nat → Nat

/-- Where in shared SRAM the page directory of half 0 or 1 has its place (R507). -/
opaque Config.dirPlace : Nat → Nat

/-- The level of symbol `k` of SSPRQ, which 802.3 Clause 120 gives and the spec does not write out (R429). -/
opaque Config.ssprqLevel : Nat → Int

end Sys2Proof
end

