-- ==== Sys2Proof/Machine/Fields.lean ====
section
/-! DEFINITION. The fields of the registers of every page, as the register tables of the spec give them: offset
within the view, highest and lowest bit. Written from the register tables; one constant per field. -/

namespace Sys2Proof.Machine

/-- A field of a register: byte offset of the register within the view, highest bit, lowest bit (R12). -/
structure Fld where
  off : Nat
  hi : Nat
  lo : Nat
  deriving DecidableEq, Repr

/-! Page block SYS. -/

/-- SYS_REGION_STATE.line_a, RO (R26). -/
def SYS.regionStateLineA : Fld := ⟨0x030, 1, 0⟩
/-- SYS_REGION_STATE.line_b, RO (R26). -/
def SYS.regionStateLineB : Fld := ⟨0x030, 3, 2⟩
/-- SYS_REGION_STATE.store, RO (R26). -/
def SYS.regionStateStore : Fld := ⟨0x030, 5, 4⟩
/-- SYS_REGION_STATE.switch, RO (R26). -/
def SYS.regionStateSwitch : Fld := ⟨0x030, 7, 6⟩
/-- SYS_REGION_STATE.uni, RO (R26). -/
def SYS.regionStateUni : Fld := ⟨0x030, 9, 8⟩
/-- SYS_REGION_STATE.host, RO (R26). -/
def SYS.regionStateHost : Fld := ⟨0x030, 11, 10⟩
/-- SYS_REGION_STATE.core, RO (R26). -/
def SYS.regionStateCore : Fld := ⟨0x030, 13, 12⟩
/-- SYS_REGION_STATE.security, RO (R26). -/
def SYS.regionStateSecurity : Fld := ⟨0x030, 15, 14⟩
/-- SYS_REGION_STATE.keeper, RO (R26). -/
def SYS.regionStateKeeper : Fld := ⟨0x030, 17, 16⟩
/-- SYS_DIE_READY.die_ready, RO (R26). -/
def SYS.dieReadyDieReady : Fld := ⟨0x034, 4, 0⟩
/-- SYS_DARK_ACCESS.count, RO (R45). -/
def SYS.darkAccessCount : Fld := ⟨0x038, 15, 0⟩
/-- SYS_DARK_ACCESS.last_page, RO (R45). -/
def SYS.darkAccessLastPage : Fld := ⟨0x038, 21, 16⟩
/-- SYS_DARK_ACCESS.last_was_write, RO (R45). -/
def SYS.darkAccessLastWasWrite : Fld := ⟨0x038, 22, 22⟩
/-- SYS_DARK_ACCESS.clear, WO (R45). -/
def SYS.darkAccessClear : Fld := ⟨0x038, 31, 31⟩
/-- SYS_REGION_RELEASE.release, WO (R563). -/
def SYS.regionReleaseRelease : Fld := ⟨0x03C, 8, 0⟩
/-- SYS_CONTAIN_LAST.region, RO (R563). -/
def SYS.containLastRegion : Fld := ⟨0x040, 3, 0⟩
/-- SYS_CONTAIN_LAST.cause, RO (R563). -/
def SYS.containLastCause : Fld := ⟨0x040, 5, 4⟩

/-! Page block HDR. -/

/-- PAGE_ID.page, RO (R48). -/
def HDR.pageIdPage : Fld := ⟨0x000, 7, 0⟩
/-- PAGE_ID.instance, RO (R48). -/
def HDR.pageIdInstance : Fld := ⟨0x000, 15, 8⟩
/-- PAGE_ID.block_code, RO (R48). -/
def HDR.pageIdBlockCode : Fld := ⟨0x000, 23, 16⟩
/-- PAGE_ID.version, RO (R48). -/
def HDR.pageIdVersion : Fld := ⟨0x000, 31, 24⟩
/-- PAGE_CAPS.indirect, RO (R48). -/
def HDR.pageCapsIndirect : Fld := ⟨0x004, 0, 0⟩
/-- PAGE_CAPS.triple, RO (R48). -/
def HDR.pageCapsTriple : Fld := ⟨0x004, 1, 1⟩
/-- PAGE_CAPS.more_pennants, RO (R48). -/
def HDR.pageCapsMorePennants : Fld := ⟨0x004, 2, 2⟩
/-- PAGE_CAPS.table_count, RO (R48). -/
def HDR.pageCapsTableCount : Fld := ⟨0x004, 15, 8⟩
/-- PAGE_CAPS.block_caps, RO (R48). -/
def HDR.pageCapsBlockCaps : Fld := ⟨0x004, 31, 16⟩
/-- PAGE_CTRL.enable, RW (R48). -/
def HDR.pageCtrlEnable : Fld := ⟨0x008, 0, 0⟩
/-- PAGE_CTRL.soft_reset, RW (R48). -/
def HDR.pageCtrlSoftReset : Fld := ⟨0x008, 1, 1⟩
/-- PAGE_CFG_STATUS.ignored, RO (R48). -/
def HDR.pageCfgStatusIgnored : Fld := ⟨0x00C, 0, 0⟩
/-- PAGE_CFG_STATUS.ignored_count, RO (R48). -/
def HDR.pageCfgStatusIgnoredCount : Fld := ⟨0x00C, 7, 1⟩
/-- PAGE_CFG_STATUS.ignored_offset, RO (R48). -/
def HDR.pageCfgStatusIgnoredOffset : Fld := ⟨0x00C, 17, 8⟩
/-- PAGE_CFG_STATUS.ignored_cause, RO (R48). -/
def HDR.pageCfgStatusIgnoredCause : Fld := ⟨0x00C, 19, 18⟩
/-- PAGE_CFG_STATUS.stale_count, RO (R48). -/
def HDR.pageCfgStatusStaleCount : Fld := ⟨0x00C, 27, 20⟩
/-- PAGE_CFG_STATUS.clear, WO (R48). -/
def HDR.pageCfgStatusClear : Fld := ⟨0x00C, 31, 31⟩
/-- PENNANT.events, PSQ (R48). -/
def HDR.pennantEvents : Fld := ⟨0x010, 23, 0⟩
/-- PENNANT.sequence, PSQ (R48). -/
def HDR.pennantSequence : Fld := ⟨0x010, 31, 24⟩
/-- PENNANT_MASK.mask, RW (R48). -/
def HDR.pennantMaskMask : Fld := ⟨0x014, 23, 0⟩
/-- PENNANT_ROUTE.vector, RW (R48). -/
def HDR.pennantRouteVector : Fld := ⟨0x018, 10, 0⟩
/-- PENNANT_ROUTE.route_enable, RW (R48). -/
def HDR.pennantRouteRouteEnable : Fld := ⟨0x018, 31, 31⟩
/-- INDIRECT_ADDR.entry, RW (R48). -/
def HDR.indirectAddrEntry : Fld := ⟨0x01C, 23, 0⟩
/-- INDIRECT_ADDR.word, RW (R48). -/
def HDR.indirectAddrWord : Fld := ⟨0x01C, 28, 24⟩
/-- INDIRECT_DATA.data, RW (R48). -/
def HDR.indirectDataData : Fld := ⟨0x020, 31, 0⟩
/-- INDIRECT_CTRL.table, RW (R48). -/
def HDR.indirectCtrlTable : Fld := ⟨0x024, 7, 0⟩
/-- INDIRECT_CTRL.stride, RW (R48). -/
def HDR.indirectCtrlStride : Fld := ⟨0x024, 15, 8⟩
/-- INDIRECT_CTRL.width, RO (R48). -/
def HDR.indirectCtrlWidth : Fld := ⟨0x024, 21, 16⟩
/-- TRIPLE_STATUS.disagree_count, RO (R48). -/
def HDR.tripleStatusDisagreeCount : Fld := ⟨0x028, 15, 0⟩
/-- TRIPLE_STATUS.disagree_offset, RO (R48). -/
def HDR.tripleStatusDisagreeOffset : Fld := ⟨0x028, 25, 16⟩
/-- TRIPLE_STATUS.no_majority, RO (R48). -/
def HDR.tripleStatusNoMajority : Fld := ⟨0x028, 26, 26⟩
/-- TRIPLE_STATUS.clear, WO (R48). -/
def HDR.tripleStatusClear : Fld := ⟨0x028, 31, 31⟩

/-! Page block CNT. -/

/-- CNT_SNAP_CTRL.arm, WO (R69). -/
def CNT.snapCtrlArm : Fld := ⟨0x030, 0, 0⟩
/-- CNT_SNAP_CTRL.cancel, WO (R69). -/
def CNT.snapCtrlCancel : Fld := ⟨0x030, 1, 1⟩
/-- CNT_SNAP_CTRL.arm_now, WO (R69). -/
def CNT.snapCtrlArmNow : Fld := ⟨0x030, 2, 2⟩
/-- CNT_SNAP_STATUS.state, RO (R69). -/
def CNT.snapStatusState : Fld := ⟨0x034, 1, 0⟩
/-- CNT_SNAP_STATUS.last_arm_result, RO (R69). -/
def CNT.snapStatusLastArmResult : Fld := ⟨0x034, 3, 2⟩
/-- CNT_SNAP_STATUS.current_bank, RO (R69). -/
def CNT.snapStatusCurrentBank : Fld := ⟨0x034, 4, 4⟩
/-- CNT_SNAP_STATUS.last_late, RO (R69). -/
def CNT.snapStatusLastLate : Fld := ⟨0x034, 5, 5⟩
/-- CNT_SNAP_STATUS.last_incomplete, RO (R69). -/
def CNT.snapStatusLastIncomplete : Fld := ⟨0x034, 6, 6⟩
/-- CNT_SNAP_STATUS.last_unsync, RO (R69). -/
def CNT.snapStatusLastUnsync : Fld := ⟨0x034, 7, 7⟩
/-- CNT_SNAP_STATUS.snap_count, RO (R69). -/
def CNT.snapStatusSnapCount : Fld := ⟨0x034, 31, 16⟩
/-- CNT_BANK_LOCK.lock, RW (R69). -/
def CNT.bankLockLock : Fld := ⟨0x038, 1, 0⟩
/-- CNT_TOTAL.counter_total, RO (R69). -/
def CNT.totalCounterTotal : Fld := ⟨0x03C, 31, 0⟩
/-- CNT_SNAP_TARGET.target_frac, RW (R69). -/
def CNT.snapTargetTargetFrac : Fld := ⟨0x040, 31, 0⟩
/-- CNT_SNAP_TARGET.target_ns, RW (R69). -/
def CNT.snapTargetTargetNs : Fld := ⟨0x044, 31, 0⟩
/-- CNT_SNAP_TARGET.target_sec_lo, RW (R69). -/
def CNT.snapTargetTargetSecLo : Fld := ⟨0x048, 31, 0⟩
/-- CNT_SNAP_TARGET.target_sec_hi, RW (R69). -/
def CNT.snapTargetTargetSecHi : Fld := ⟨0x04C, 31, 0⟩
/-- CNT_SNAP_ACTUAL.actual_frac, RO (R69). -/
def CNT.snapActualActualFrac : Fld := ⟨0x050, 31, 0⟩
/-- CNT_SNAP_ACTUAL.actual_ns, RO (R69). -/
def CNT.snapActualActualNs : Fld := ⟨0x054, 31, 0⟩
/-- CNT_SNAP_ACTUAL.actual_sec_lo, RO (R69). -/
def CNT.snapActualActualSecLo : Fld := ⟨0x058, 31, 0⟩
/-- CNT_SNAP_ACTUAL.actual_sec_hi, RO (R69). -/
def CNT.snapActualActualSecHi : Fld := ⟨0x05C, 31, 0⟩

/-! Page block RX. -/

/-- RX_CFG.channel, RWE (R118). -/
def RX.cfgChannel : Fld := ⟨0x030, 15, 0⟩
/-- RX_CFG.cd_max, RWE (R118). -/
def RX.cfgCdMax : Fld := ⟨0x030, 31, 16⟩
/-- RX_ACQ.timeout, RWE (R118). -/
def RX.acqTimeout : Fld := ⟨0x034, 15, 0⟩
/-- RX_FEC_CTRL.max_iter, RW (R118). -/
def RX.fecCtrlMaxIter : Fld := ⟨0x038, 4, 0⟩
/-- RX_FEC_CTRL.early_stop, RW (R118). -/
def RX.fecCtrlEarlyStop : Fld := ⟨0x038, 8, 8⟩
/-- RX_LANE_FIX.order, RO (R118). -/
def RX.laneFixOrder : Fld := ⟨0x03C, 4, 0⟩
/-- RX_LANE_FIX.signs, RO (R118). -/
def RX.laneFixSigns : Fld := ⟨0x03C, 8, 5⟩
/-- RX_LANE_FIX.forced_order, RWE (R118). -/
def RX.laneFixForcedOrder : Fld := ⟨0x03C, 20, 16⟩
/-- RX_LANE_FIX.forced_signs, RWE (R118). -/
def RX.laneFixForcedSigns : Fld := ⟨0x03C, 24, 21⟩
/-- RX_LANE_FIX.use_forced, RWE (R118). -/
def RX.laneFixUseForced : Fld := ⟨0x03C, 31, 31⟩
/-- RX_STATUS.acq_state, RO (R118). -/
def RX.statusAcqState : Fld := ⟨0x040, 2, 0⟩
/-- RX_STATUS.sig_present, RO (R118). -/
def RX.statusSigPresent : Fld := ⟨0x040, 3, 3⟩
/-- RX_STATUS.clk_lock, RO (R118). -/
def RX.statusClkLock : Fld := ⟨0x040, 4, 4⟩
/-- RX_FOM.fom, RO (R118). -/
def RX.fomFom : Fld := ⟨0x044, 15, 0⟩
/-- RX_FOM.margin, RO (R118). -/
def RX.fomMargin : Fld := ⟨0x044, 31, 16⟩
/-- RX_FOM_REF.ref, RO (R118). -/
def RX.fomRefRef : Fld := ⟨0x048, 15, 0⟩
/-- RX_FOM_ALARM.threshold, RW (R118). -/
def RX.fomAlarmThreshold : Fld := ⟨0x04C, 15, 0⟩
/-- RX_CD_EST.cd_est, RO (R118). -/
def RX.cdEstCdEst : Fld := ⟨0x050, 15, 0⟩
/-- RX_FREQ_OFS.freq_ofs, RO (R118). -/
def RX.freqOfsFreqOfs : Fld := ⟨0x054, 31, 0⟩
/-- RX_CLK_OFS.clk_ofs, RO (R118). -/
def RX.clkOfsClkOfs : Fld := ⟨0x058, 31, 0⟩
/-- RX_ITER.iter_mean, RO (R118). -/
def RX.iterIterMean : Fld := ⟨0x05C, 15, 0⟩
/-- RX_ITER.gain, RO (R118). -/
def RX.iterGain : Fld := ⟨0x05C, 23, 16⟩
/-- RX_ITER.level, RO (R118). -/
def RX.iterLevel : Fld := ⟨0x05C, 31, 24⟩

/-! Page block OFE. -/

/-- OFE_I2C_CMD.addr, RW (R119). -/
def OFE.i2cCmdAddr : Fld := ⟨0x060, 7, 0⟩
/-- OFE_I2C_CMD.cmis_page, RW (R119). -/
def OFE.i2cCmdCmisPage : Fld := ⟨0x060, 15, 8⟩
/-- OFE_I2C_CMD.wdata, RW (R119). -/
def OFE.i2cCmdWdata : Fld := ⟨0x060, 23, 16⟩
/-- OFE_I2C_CMD.write, RW (R119). -/
def OFE.i2cCmdWrite : Fld := ⟨0x060, 24, 24⟩
/-- OFE_I2C_CMD.go, WO (R119). -/
def OFE.i2cCmdGo : Fld := ⟨0x060, 25, 25⟩
/-- OFE_I2C_STATUS.rdata, RO (R119). -/
def OFE.i2cStatusRdata : Fld := ⟨0x064, 7, 0⟩
/-- OFE_I2C_STATUS.busy, RO (R119). -/
def OFE.i2cStatusBusy : Fld := ⟨0x064, 8, 8⟩
/-- OFE_I2C_STATUS.nack, RO (R119). -/
def OFE.i2cStatusNack : Fld := ⟨0x064, 9, 9⟩
/-- OFE_I2C_STATUS.timeout, RO (R119). -/
def OFE.i2cStatusTimeout : Fld := ⟨0x064, 10, 10⟩
/-- OFE_PINS.present, RO (R119). -/
def OFE.pinsPresent : Fld := ⟨0x068, 0, 0⟩
/-- OFE_PINS.int, RO (R119). -/
def OFE.pinsInt : Fld := ⟨0x068, 1, 1⟩
/-- OFE_PINS.reset_assert, RW (R119). -/
def OFE.pinsResetAssert : Fld := ⟨0x068, 2, 2⟩
/-- OFE_PINS.lpmode, RW (R119). -/
def OFE.pinsLpmode : Fld := ⟨0x068, 3, 3⟩

/-! Page block TX. -/

/-- TX_CFG.channel, RWE (R120). -/
def TX.cfgChannel : Fld := ⟨0x030, 15, 0⟩
/-- TX_CFG.gate_adv, RWE (R120). -/
def TX.cfgGateAdv : Fld := ⟨0x030, 23, 16⟩
/-- TX_PREP.lead, RWE (R120). -/
def TX.prepLead : Fld := ⟨0x034, 23, 0⟩
/-- TX_PREP_HOLD.hold, RWE (R120). -/
def TX.prepHoldHold : Fld := ⟨0x038, 23, 0⟩
/-- TX_LASER_POLICY.policy, RWT (R120). -/
def TX.laserPolicyPolicy : Fld := ⟨0x03C, 1, 0⟩
/-- TX_LAUNCH.target, RW (R120). -/
def TX.launchTarget : Fld := ⟨0x040, 11, 0⟩
/-- TX_LAUNCH.launch_max, RW (R120). -/
def TX.launchLaunchMax : Fld := ⟨0x040, 27, 16⟩
/-- TX_LAUNCH_STATUS.applied, RO (R120). -/
def TX.launchStatusApplied : Fld := ⟨0x044, 11, 0⟩
/-- TX_LAUNCH_STATUS.lehr_trim, RO (R120). -/
def TX.launchStatusLehrTrim : Fld := ⟨0x044, 23, 16⟩
/-- TX_LAUNCH_STATUS.clamped, RO (R120). -/
def TX.launchStatusClamped : Fld := ⟨0x044, 24, 24⟩
/-- TX_LAUNCH_STATUS.out_of_range, RO (R120). -/
def TX.launchStatusOutOfRange : Fld := ⟨0x044, 25, 25⟩
/-- TX_LANE_FIX.order, RWE (R120). -/
def TX.laneFixOrder : Fld := ⟨0x048, 4, 0⟩
/-- TX_LANE_FIX.signs, RWE (R120). -/
def TX.laneFixSigns : Fld := ⟨0x048, 8, 5⟩
/-- TX_STATUS.gate_drive, RO (R120). -/
def TX.statusGateDrive : Fld := ⟨0x04C, 0, 0⟩
/-- TX_STATUS.gate_readback, RO (R120). -/
def TX.statusGateReadback : Fld := ⟨0x04C, 1, 1⟩
/-- TX_STATUS.prep_drive, RO (R120). -/
def TX.statusPrepDrive : Fld := ⟨0x04C, 2, 2⟩
/-- TX_STATUS.prep_readback, RO (R120). -/
def TX.statusPrepReadback : Fld := ⟨0x04C, 3, 3⟩
/-- TX_STATUS.clock_ok, RO (R120). -/
def TX.statusClockOk : Fld := ⟨0x04C, 4, 4⟩
/-- TX_STATUS.forced_off, RO (R120). -/
def TX.statusForcedOff : Fld := ⟨0x04C, 5, 5⟩
/-- TX_STATUS.rogue_latched, RO (R120). -/
def TX.statusRogueLatched : Fld := ⟨0x04C, 6, 6⟩
/-- TX_STATUS.rogue_cause, RO (R120). -/
def TX.statusRogueCause : Fld := ⟨0x04C, 9, 7⟩
/-- TX_STATUS.effective_policy, RO (R120). -/
def TX.statusEffectivePolicy : Fld := ⟨0x04C, 11, 10⟩
/-- TX_FORCE_RELEASE.release, WO (R120). -/
def TX.forceReleaseRelease : Fld := ⟨0x050, 0, 0⟩
/-- TX_FREQ_REPORT.freq_report, RW (R120). -/
def TX.freqReportFreqReport : Fld := ⟨0x054, 31, 0⟩

/-! Page block FRM. -/

/-- FRM_ALIGN.accept_weight, RWE (R152). -/
def FRM.alignAcceptWeight : Fld := ⟨0x030, 12, 0⟩
/-- FRM_ALIGN.reject_weight, RWE (R152). -/
def FRM.alignRejectWeight : Fld := ⟨0x030, 28, 16⟩
/-- FRM_HUNT_CNT.align_confirm, RWE (R152). -/
def FRM.huntCntAlignConfirm : Fld := ⟨0x034, 7, 0⟩
/-- FRM_HUNT_CNT.align_lose, RWE (R152). -/
def FRM.huntCntAlignLose : Fld := ⟨0x034, 15, 8⟩
/-- FRM_HUNT_CNT.hdr_confirm, RWE (R152). -/
def FRM.huntCntHdrConfirm : Fld := ⟨0x034, 19, 16⟩
/-- FRM_HUNT_CNT.hdr_lose, RWE (R152). -/
def FRM.huntCntHdrLose : Fld := ⟨0x034, 23, 20⟩
/-- FRM_HUNT_CNT.frag_confirm, RWE (R152). -/
def FRM.huntCntFragConfirm : Fld := ⟨0x034, 27, 24⟩
/-- FRM_STATE.align_state, RO (R152). -/
def FRM.stateAlignState : Fld := ⟨0x038, 1, 0⟩
/-- FRM_STATE.hdr_state, RO (R152). -/
def FRM.stateHdrState : Fld := ⟨0x038, 3, 2⟩
/-- FRM_STATE.frag_state, RO (R152). -/
def FRM.stateFragState : Fld := ⟨0x038, 5, 4⟩
/-- FRM_STATE.control, RO (R152). -/
def FRM.stateControl : Fld := ⟨0x038, 6, 6⟩
/-- FRM_STATE.wl_index, RO (R152). -/
def FRM.stateWlIndex : Fld := ⟨0x038, 7, 7⟩
/-- FRM_STATE.gm_present, RO (R152). -/
def FRM.stateGmPresent : Fld := ⟨0x038, 8, 8⟩
/-- FRM_FC.fc_lo, RO (R152). -/
def FRM.fcFcLo : Fld := ⟨0x03C, 31, 0⟩
/-- FRM_FC_HI.fc_hi, RO (R152). -/
def FRM.fcHiFcHi : Fld := ⟨0x040, 15, 0⟩
/-- FRM_HE_ID.he_lo, RO (R152). -/
def FRM.heIdHeLo : Fld := ⟨0x044, 31, 0⟩
/-- FRM_HE_ID.he_hi, RO (R152). -/
def FRM.heIdHeHi : Fld := ⟨0x048, 15, 0⟩
/-- FRM_TREE_ID.tree_id, RO (R152). -/
def FRM.treeIdTreeId : Fld := ⟨0x04C, 31, 0⟩
/-- FRM_DEFECT.los, RO (R152). -/
def FRM.defectLos : Fld := ⟨0x050, 0, 0⟩
/-- FRM_DEFECT.lof, RO (R152). -/
def FRM.defectLof : Fld := ⟨0x050, 1, 1⟩
/-- FRM_DEFECT.sd, RO (R152). -/
def FRM.defectSd : Fld := ⟨0x050, 2, 2⟩
/-- FRM_DEFECT.sf, RO (R152). -/
def FRM.defectSf : Fld := ⟨0x050, 3, 3⟩
/-- FRM_DEF_CFG.window, RWE (R152). -/
def FRM.defCfgWindow : Fld := ⟨0x054, 1, 0⟩
/-- FRM_DEF_CFG.sd_set_win, RWE (R152). -/
def FRM.defCfgSdSetWin : Fld := ⟨0x054, 7, 4⟩
/-- FRM_DEF_CFG.sd_clear_win, RWE (R152). -/
def FRM.defCfgSdClearWin : Fld := ⟨0x054, 11, 8⟩
/-- FRM_DEF_CFG.sf_set_win, RWE (R152). -/
def FRM.defCfgSfSetWin : Fld := ⟨0x054, 15, 12⟩
/-- FRM_DEF_CFG.sf_clear_win, RWE (R152). -/
def FRM.defCfgSfClearWin : Fld := ⟨0x054, 19, 16⟩
/-- FRM_DEF_TIME.los_clear, RWE (R152). -/
def FRM.defTimeLosClear : Fld := ⟨0x058, 7, 0⟩
/-- FRM_DEF_TIME.lof_set, RWE (R152). -/
def FRM.defTimeLofSet : Fld := ⟨0x058, 15, 8⟩
/-- FRM_DEF_TIME.lof_clear, RWE (R152). -/
def FRM.defTimeLofClear : Fld := ⟨0x058, 23, 16⟩
/-- FRM_SD_SET.sd_set, RW (R152). -/
def FRM.sdSetSdSet : Fld := ⟨0x05C, 31, 0⟩
/-- FRM_SD_CLEAR.sd_clear, RW (R152). -/
def FRM.sdClearSdClear : Fld := ⟨0x060, 31, 0⟩
/-- FRM_SF_SET.sf_set, RW (R152). -/
def FRM.sfSetSfSet : Fld := ⟨0x064, 31, 0⟩
/-- FRM_SF_CLEAR.sf_clear, RW (R152). -/
def FRM.sfClearSfClear : Fld := ⟨0x068, 31, 0⟩
/-- FRM_BER_LAST.ber_last, RO (R152). -/
def FRM.berLastBerLast : Fld := ⟨0x06C, 31, 0⟩
/-- FRM_UNC_LAST.unc_last, RO (R152). -/
def FRM.uncLastUncLast : Fld := ⟨0x070, 31, 0⟩

/-! Page block PM. -/

/-- PM_STATUS.slot_15, RO (R159). -/
def PM.statusSlot15 : Fld := ⟨0x030, 5, 0⟩
/-- PM_STATUS.slot_day, RO (R159). -/
def PM.statusSlotDay : Fld := ⟨0x030, 6, 6⟩
/-- PM_STATUS.time_valid, RO (R159). -/
def PM.statusTimeValid : Fld := ⟨0x030, 7, 7⟩
/-- PM_STATUS.seq_15, RO (R159). -/
def PM.statusSeq15 : Fld := ⟨0x030, 31, 16⟩
/-- PM_DAY_STATUS.seq_day, RO (R159). -/
def PM.dayStatusSeqDay : Fld := ⟨0x034, 15, 0⟩

/-! Page block HAL. -/

/-- HAL_CFG.dn_offset, RWE (R186). -/
def HAL.cfgDnOffset : Fld := ⟨0x030, 8, 0⟩
/-- HAL_CFG.up_offset, RW (R186). -/
def HAL.cfgUpOffset : Fld := ⟨0x030, 24, 16⟩
/-- HAL_RX_CFG.sync_timeout, RWE (R186). -/
def HAL.rxCfgSyncTimeout : Fld := ⟨0x034, 3, 0⟩
/-- HAL_RX_CFG.det_thresh, RWE (R186). -/
def HAL.rxCfgDetThresh : Fld := ⟨0x034, 15, 8⟩
/-- HAL_TX_PWR.atten, RW (R186). -/
def HAL.txPwrAtten : Fld := ⟨0x038, 8, 0⟩
/-- HAL_TX_CFG.retry_max, RW (R186). -/
def HAL.txCfgRetryMax : Fld := ⟨0x03C, 3, 0⟩
/-- HAL_STATUS.rx_sync, RO (R186). -/
def HAL.statusRxSync : Fld := ⟨0x040, 0, 0⟩
/-- HAL_STATUS.rx_source, RO (R186). -/
def HAL.statusRxSource : Fld := ⟨0x040, 1, 1⟩
/-- HAL_STATUS.rx_active, RO (R186). -/
def HAL.statusRxActive : Fld := ⟨0x040, 2, 2⟩
/-- HAL_STATUS.agc_frozen, RO (R186). -/
def HAL.statusAgcFrozen : Fld := ⟨0x040, 3, 3⟩
/-- HAL_STATUS.tx_on, RO (R186). -/
def HAL.statusTxOn : Fld := ⟨0x040, 4, 4⟩
/-- HAL_STATUS.agc_gain, RO (R186). -/
def HAL.statusAgcGain : Fld := ⟨0x040, 15, 8⟩
/-- HAL_STATUS.level, RO (R186). -/
def HAL.statusLevel : Fld := ⟨0x040, 23, 16⟩
/-- HAL_RX_PTR.wr, RO (R186). -/
def HAL.rxPtrWr : Fld := ⟨0x044, 3, 0⟩
/-- HAL_RX_PTR.rd, RW (R186). -/
def HAL.rxPtrRd : Fld := ⟨0x044, 11, 8⟩
/-- HAL_TX_CMD.slot, WO (R186). -/
def HAL.txCmdSlot : Fld := ⟨0x048, 1, 0⟩
/-- HAL_TX_CMD.submit, WO (R186). -/
def HAL.txCmdSubmit : Fld := ⟨0x048, 8, 8⟩
/-- HAL_TX_CMD.cancel, WO (R186). -/
def HAL.txCmdCancel : Fld := ⟨0x048, 9, 9⟩
/-- HAL_TX_STATUS.state, RO (R186). -/
def HAL.txStatusState : Fld := ⟨0x04C, 7, 0⟩
/-- HAL_TX_STATUS.result, RO (R186). -/
def HAL.txStatusResult : Fld := ⟨0x04C, 15, 8⟩
/-- HAL_TX_STATUS.last_slot, RO (R186). -/
def HAL.txStatusLastSlot : Fld := ⟨0x04C, 21, 16⟩
/-- HAL_TERM.terminal_id, RW (R186). -/
def HAL.termTerminalId : Fld := ⟨0x050, 15, 0⟩
/-- HAL_TERM.id_valid, RW (R186). -/
def HAL.termIdValid : Fld := ⟨0x050, 16, 16⟩
/-- HAL_SERIAL.serial_lo, RWE (R186). -/
def HAL.serialSerialLo : Fld := ⟨0x054, 31, 0⟩
/-- HAL_SERIAL.serial_hi, RWE (R186). -/
def HAL.serialSerialHi : Fld := ⟨0x058, 31, 0⟩

/-! Page block ACT. -/

/-- ACT_MODE.mode, RWT (R218). -/
def ACT.modeMode : Fld := ⟨0x030, 2, 0⟩
/-- ACT_STATUS.registered, RO (R218). -/
def ACT.statusRegistered : Fld := ⟨0x034, 0, 0⟩
/-- ACT_STATUS.keyed, RO (R218). -/
def ACT.statusKeyed : Fld := ⟨0x034, 1, 1⟩
/-- ACT_STATUS.on_battery, RO (R218). -/
def ACT.statusOnBattery : Fld := ⟨0x034, 2, 2⟩
/-- ACT_STATUS.shed, RO (R218). -/
def ACT.statusShed : Fld := ⟨0x034, 3, 3⟩
/-- ACT_STATUS.lifeline_substituted, RO (R218). -/
def ACT.statusLifelineSubstituted : Fld := ⟨0x034, 4, 4⟩
/-- ACT_STATUS.control_wl, RO (R218). -/
def ACT.statusControlWl : Fld := ⟨0x034, 5, 5⟩
/-- ACT_STATUS.control_known, RO (R218). -/
def ACT.statusControlKnown : Fld := ⟨0x034, 6, 6⟩
/-- ACT_STATUS.warm_pending, RO (R218). -/
def ACT.statusWarmPending : Fld := ⟨0x034, 7, 7⟩
/-- ACT_STATUS.terminal_id, RO (R218). -/
def ACT.statusTerminalId : Fld := ⟨0x034, 31, 16⟩
/-- ACT_CFG.auto_hail, RWE (R218). -/
def ACT.cfgAutoHail : Fld := ⟨0x038, 0, 0⟩
/-- ACT_CFG.lifeline_keep, RWE (R218). -/
def ACT.cfgLifelineKeep : Fld := ⟨0x038, 1, 1⟩
/-- ACT_CFG.warm_enable, RWE (R218). -/
def ACT.cfgWarmEnable : Fld := ⟨0x038, 2, 2⟩
/-- ACT_TIMER_A.warm_window, RWE (R218). -/
def ACT.timerAWarmWindow : Fld := ⟨0x03C, 15, 0⟩
/-- ACT_TIMER_A.hail_timeout, RWE (R218). -/
def ACT.timerAHailTimeout : Fld := ⟨0x03C, 31, 16⟩
/-- ACT_TIMER_B.range_timeout, RWE (R218). -/
def ACT.timerBRangeTimeout : Fld := ⟨0x040, 15, 0⟩
/-- ACT_TIMER_B.gasp_wait, RWE (R218). -/
def ACT.timerBGaspWait : Fld := ⟨0x040, 31, 16⟩
/-- ACT_TIMER_C.notice_retry, RWE (R218). -/
def ACT.timerCNoticeRetry : Fld := ⟨0x044, 15, 0⟩
/-- ACT_TIMER_C.notice_retries, RWE (R218). -/
def ACT.timerCNoticeRetries : Fld := ⟨0x044, 23, 16⟩
/-- ACT_TIMER_C.warm_tol, RWE (R218). -/
def ACT.timerCWarmTol : Fld := ⟨0x044, 31, 24⟩
/-- ACT_PARK.check_interval, RO (R218). -/
def ACT.parkCheckInterval : Fld := ⟨0x048, 15, 0⟩
/-- ACT_PARK_MAX.max_park, RO (R218). -/
def ACT.parkMaxMaxPark : Fld := ⟨0x04C, 31, 0⟩
/-- ACT_EQD.eqd, RO (R218). -/
def ACT.eqdEqd : Fld := ⟨0x050, 23, 0⟩
/-- ACT_EQD_PENDING.eqd, RO (R218). -/
def ACT.eqdPendingEqd : Fld := ⟨0x054, 23, 0⟩
/-- ACT_EQD_PENDING.pending, RO (R218). -/
def ACT.eqdPendingPending : Fld := ⟨0x054, 31, 31⟩
/-- ACT_APPLY_FC.apply_fc, RO (R218). -/
def ACT.applyFcApplyFc : Fld := ⟨0x058, 31, 0⟩
/-- ACT_MGMT.alloc_id, RO (R218). -/
def ACT.mgmtAllocId : Fld := ⟨0x05C, 15, 0⟩
/-- ACT_MGMT.valid, RO (R218). -/
def ACT.mgmtValid : Fld := ⟨0x05C, 16, 16⟩
/-- ACT_WARM.result, RO (R218). -/
def ACT.warmResult : Fld := ⟨0x060, 2, 0⟩
/-- ACT_WARM.deviation, RO (R218). -/
def ACT.warmDeviation : Fld := ⟨0x060, 31, 16⟩
/-- ACT_QUAR.cause, RO (R218). -/
def ACT.quarCause : Fld := ⟨0x064, 2, 0⟩
/-- ACT_QUAR.reason, RO (R218). -/
def ACT.quarReason : Fld := ⟨0x064, 15, 8⟩
/-- ACT_QUAR.rogue_cause, RO (R218). -/
def ACT.quarRogueCause : Fld := ⟨0x064, 18, 16⟩
/-- ACT_CMD.release_quarantine, WO (R218). -/
def ACT.cmdReleaseQuarantine : Fld := ⟨0x068, 0, 0⟩
/-- ACT_CMD.deactivate, WO (R218). -/
def ACT.cmdDeactivate : Fld := ⟨0x068, 1, 1⟩
/-- ACT_USE.tenants, RO (R218). -/
def ACT.useTenants : Fld := ⟨0x06C, 8, 0⟩
/-- ACT_USE.allocations, RO (R218). -/
def ACT.useAllocations : Fld := ⟨0x06C, 26, 16⟩
/-- ACT_NOTICE.notice_id, RO (R218). -/
def ACT.noticeNoticeId : Fld := ⟨0x070, 15, 0⟩
/-- ACT_NOTICE.cause, RO (R218). -/
def ACT.noticeCause : Fld := ⟨0x070, 17, 16⟩
/-- ACT_NOTICE.acked, RO (R218). -/
def ACT.noticeAcked : Fld := ⟨0x070, 18, 18⟩
/-- ACT_NOTICE.via_tmc, RO (R218). -/
def ACT.noticeViaTmc : Fld := ⟨0x070, 19, 19⟩
/-- ACT_NOTICE.via_halyard, RO (R218). -/
def ACT.noticeViaHalyard : Fld := ⟨0x070, 20, 20⟩
/-- ACT_TENANT_EN0.tenant_en, RWT (R218). -/
def ACT.tenantEn0TenantEn : Fld := ⟨0x074, 31, 0⟩
/-- ACT_TENANT_EN1.tenant_en, RWT (R218). -/
def ACT.tenantEn1TenantEn : Fld := ⟨0x078, 31, 0⟩
/-- ACT_TENANT_EN2.tenant_en, RWT (R218). -/
def ACT.tenantEn2TenantEn : Fld := ⟨0x07C, 31, 0⟩
/-- ACT_TENANT_EN3.tenant_en, RWT (R218). -/
def ACT.tenantEn3TenantEn : Fld := ⟨0x080, 31, 0⟩
/-- ACT_TENANT_EN4.tenant_en, RWT (R218). -/
def ACT.tenantEn4TenantEn : Fld := ⟨0x084, 31, 0⟩
/-- ACT_TENANT_EN5.tenant_en, RWT (R218). -/
def ACT.tenantEn5TenantEn : Fld := ⟨0x088, 31, 0⟩
/-- ACT_TENANT_EN6.tenant_en, RWT (R218). -/
def ACT.tenantEn6TenantEn : Fld := ⟨0x08C, 31, 0⟩
/-- ACT_TENANT_EN7.tenant_en, RWT (R218). -/
def ACT.tenantEn7TenantEn : Fld := ⟨0x090, 31, 0⟩

/-! Page block DUAL. -/

/-- DUAL_CFG.history, RWE (R244). -/
def DUAL.cfgHistory : Fld := ⟨0x030, 2, 0⟩
/-- DUAL_CFG.stale_limit, RWE (R244). -/
def DUAL.cfgStaleLimit : Fld := ⟨0x030, 7, 4⟩
/-- DUAL_CFG.idle_reset, RWE (R244). -/
def DUAL.cfgIdleReset : Fld := ⟨0x030, 31, 16⟩
/-- DUAL_SEL.wtr, RW (R244). -/
def DUAL.selWtr : Fld := ⟨0x034, 15, 0⟩
/-- DUAL_SEL.revertive, RW (R244). -/
def DUAL.selRevertive : Fld := ⟨0x034, 16, 16⟩
/-- DUAL_SKEW_CFG.skew_alarm, RW (R244). -/
def DUAL.skewCfgSkewAlarm : Fld := ⟨0x038, 15, 0⟩
/-- DUAL_ROLE.primary, RO (R244). -/
def DUAL.rolePrimary : Fld := ⟨0x03C, 1, 0⟩
/-- DUAL_ROLE.conflict, RO (R244). -/
def DUAL.roleConflict : Fld := ⟨0x03C, 2, 2⟩
/-- DUAL_ROLE.sel_tree, RO (R244). -/
def DUAL.roleSelTree : Fld := ⟨0x03C, 3, 3⟩
/-- DUAL_ROLE.carry_a, RO (R244). -/
def DUAL.roleCarryA : Fld := ⟨0x03C, 4, 4⟩
/-- DUAL_ROLE.carry_b, RO (R244). -/
def DUAL.roleCarryB : Fld := ⟨0x03C, 5, 5⟩
/-- DUAL_CLAIM_A.epoch_lo, RO (R244). -/
def DUAL.claimAEpochLo : Fld := ⟨0x040, 31, 0⟩
/-- DUAL_CLAIM_A.epoch_hi, RO (R244). -/
def DUAL.claimAEpochHi : Fld := ⟨0x044, 31, 0⟩
/-- DUAL_CLAIM_A_HE.he_lo, RO (R244). -/
def DUAL.claimAHeHeLo : Fld := ⟨0x048, 31, 0⟩
/-- DUAL_CLAIM_A_HE.he_hi, RO (R244). -/
def DUAL.claimAHeHeHi : Fld := ⟨0x04C, 15, 0⟩
/-- DUAL_CLAIM_A_HE.standing, RO (R244). -/
def DUAL.claimAHeStanding : Fld := ⟨0x04C, 16, 16⟩
/-- DUAL_CLAIM_A_HE.eligible, RO (R244). -/
def DUAL.claimAHeEligible : Fld := ⟨0x04C, 17, 17⟩
/-- DUAL_SKEW.skew_max, RO (R244). -/
def DUAL.skewSkewMax : Fld := ⟨0x060, 15, 0⟩
/-- DUAL_SKEW.lead, RO (R244). -/
def DUAL.skewLead : Fld := ⟨0x060, 16, 16⟩
/-- DUAL_SKEW.lead_valid, RO (R244). -/
def DUAL.skewLeadValid : Fld := ⟨0x060, 17, 17⟩
/-- DUAL_CMD.flush, WO (R244). -/
def DUAL.cmdFlush : Fld := ⟨0x064, 0, 0⟩
/-- DUAL_CLAIM_B.epoch_lo, RO (R244). -/
def DUAL.claimBEpochLo : Fld := ⟨0x050, 31, 0⟩
/-- DUAL_CLAIM_B.epoch_hi, RO (R244). -/
def DUAL.claimBEpochHi : Fld := ⟨0x054, 31, 0⟩
/-- DUAL_CLAIM_B_HE.he_lo, RO (R244). -/
def DUAL.claimBHeHeLo : Fld := ⟨0x058, 31, 0⟩
/-- DUAL_CLAIM_B_HE.he_hi, RO (R244). -/
def DUAL.claimBHeHeHi : Fld := ⟨0x05C, 15, 0⟩
/-- DUAL_CLAIM_B_HE.standing, RO (R244). -/
def DUAL.claimBHeStanding : Fld := ⟨0x05C, 16, 16⟩
/-- DUAL_CLAIM_B_HE.eligible, RO (R244). -/
def DUAL.claimBHeEligible : Fld := ⟨0x05C, 17, 17⟩

/-! Page block GRT. -/

/-- GRT_CFG.lead, RWE (R276). -/
def GRT.cfgLead : Fld := ⟨0x030, 7, 0⟩
/-- GRT_CFG.frag_min, RWE (R276). -/
def GRT.cfgFragMin : Fld := ⟨0x030, 23, 16⟩
/-- GRT_STATUS.pending, RO (R276). -/
def GRT.statusPending : Fld := ⟨0x034, 10, 0⟩
/-- GRT_STATUS.tmc_queued, RO (R276). -/
def GRT.statusTmcQueued : Fld := ⟨0x034, 22, 16⟩
/-- GRT_LAST.last_fc, RO (R276). -/
def GRT.lastLastFc : Fld := ⟨0x038, 31, 0⟩

/-! Page block USCH. -/

/-- USCH_CFG.promo_ceiling, RWE (R280). -/
def USCH.cfgPromoCeiling : Fld := ⟨0x030, 2, 0⟩
/-- USCH_NEED_BYTES.need_bytes, RW (R280). -/
def USCH.needBytesNeedBytes : Fld := ⟨0x034, 31, 0⟩
/-- USCH_NEED_AGE.need_age, RW (R280). -/
def USCH.needAgeNeedAge : Fld := ⟨0x038, 15, 0⟩
/-- USCH_BULK.hbm_high, RWE (R280). -/
def USCH.bulkHbmHigh : Fld := ⟨0x03C, 15, 0⟩
/-- USCH_BULK.hbm_low, RWE (R280). -/
def USCH.bulkHbmLow : Fld := ⟨0x03C, 31, 16⟩
/-- USCH_STATUS.promoted, RO (R280). -/
def USCH.statusPromoted : Fld := ⟨0x040, 12, 0⟩
/-- USCH_STATUS.tick_free, RO (R280). -/
def USCH.statusTickFree : Fld := ⟨0x040, 13, 13⟩
/-- USCH_STATUS.xtier_available, RO (R280). -/
def USCH.statusXtierAvailable : Fld := ⟨0x040, 14, 14⟩

/-! Page block CLS. -/

/-- CLS_CFG.tpid_alt, RWE (R310). -/
def CLS.cfgTpidAlt : Fld := ⟨0x030, 15, 0⟩
/-- CLS_CFG.dei_colour, RWE (R310). -/
def CLS.cfgDeiColour : Fld := ⟨0x030, 16, 16⟩
/-- CLS_CFG.follow_enable, RWE (R310). -/
def CLS.cfgFollowEnable : Fld := ⟨0x030, 17, 17⟩
/-- CLS_HASH_SEED.seed, RWE (R310). -/
def CLS.hashSeedSeed : Fld := ⟨0x034, 31, 0⟩
/-- CLS_FRAG_CFG.timeout, RWE (R310). -/
def CLS.fragCfgTimeout : Fld := ⟨0x038, 9, 0⟩
/-- CLS_DEFAULT.default_uni, RW (R310). -/
def CLS.defaultDefaultUni : Fld := ⟨0x03C, 12, 0⟩
/-- CLS_DEFAULT.default_line, RW (R310). -/
def CLS.defaultDefaultLine : Fld := ⟨0x03C, 28, 16⟩
/-- CLS_DEFAULT_HOST.default_host, RW (R310). -/
def CLS.defaultHostDefaultHost : Fld := ⟨0x040, 12, 0⟩
/-- CLS_STATUS.follow_used, RO (R310). -/
def CLS.statusFollowUsed : Fld := ⟨0x044, 14, 0⟩

/-! Page block FLOW. -/

/-- FLOW_CFG.flow_enable, RWE (R314). -/
def FLOW.cfgFlowEnable : Fld := ⟨0x030, 2, 0⟩
/-- FLOW_STATUS.used, RO (R314). -/
def FLOW.statusUsed : Fld := ⟨0x034, 18, 0⟩
/-- FLOW_STATUS.full, RO (R314). -/
def FLOW.statusFull : Fld := ⟨0x034, 19, 19⟩
/-- FLOW_AGE_CFG.sweep, RWE (R314). -/
def FLOW.ageCfgSweep : Fld := ⟨0x038, 15, 0⟩
/-- FLOW_CMD.op, WO (R314). -/
def FLOW.cmdOp : Fld := ⟨0x03C, 1, 0⟩
/-- FLOW_CMD_STATUS.busy, RO (R314). -/
def FLOW.cmdStatusBusy : Fld := ⟨0x040, 0, 0⟩
/-- FLOW_CMD_STATUS.result, RO (R314). -/
def FLOW.cmdStatusResult : Fld := ⟨0x040, 3, 1⟩
/-- FLOW_CMD_STATUS.index, RO (R314). -/
def FLOW.cmdStatusIndex : Fld := ⟨0x040, 31, 14⟩

/-! Page block STO. -/

/-- STO_CULLET_LEVEL.level, RO (R351). -/
def STO.culletLevelLevel : Fld := ⟨0x030, 27, 0⟩
/-- STO_CULLET_LOW.low, RW (R351). -/
def STO.culletLowLow : Fld := ⟨0x034, 27, 0⟩
/-- STO_DESC_FREE.free, RO (R351). -/
def STO.descFreeFree : Fld := ⟨0x038, 27, 0⟩
/-- STO_RETIRED.retired, RO (R351). -/
def STO.retiredRetired : Fld := ⟨0x03C, 27, 0⟩
/-- STO_AUDIT_CFG.sweep, RW (R351). -/
def STO.auditCfgSweep : Fld := ⟨0x040, 7, 0⟩
/-- STO_AUDIT_STATUS.failed, RO (R351). -/
def STO.auditStatusFailed : Fld := ⟨0x044, 8, 0⟩
/-- STO_AUDIT_STATUS.clear, WO (R351). -/
def STO.auditStatusClear : Fld := ⟨0x044, 31, 31⟩
/-- STO_AUDIT_LAST.eq, RO (R351). -/
def STO.auditLastEq : Fld := ⟨0x048, 3, 0⟩
/-- STO_AUDIT_LAST.delta, RO (R351). -/
def STO.auditLastDelta : Fld := ⟨0x048, 31, 4⟩
/-- STO_SWEEP_STATUS.sweeps, RO (R351). -/
def STO.sweepStatusSweeps : Fld := ⟨0x04C, 15, 0⟩
/-- STO_SWEEP_STATUS.sweeping, RO (R351). -/
def STO.sweepStatusSweeping : Fld := ⟨0x04C, 16, 16⟩

/-! Page block XTR. -/

/-- XTR_STATUS.available, RO (R352). -/
def XTR.statusAvailable : Fld := ⟨0x030, 0, 0⟩
/-- XTR_STATUS.cxl_up, RO (R352). -/
def XTR.statusCxlUp : Fld := ⟨0x030, 1, 1⟩
/-- XTR_EXTENTS_USED.used, RO (R352). -/
def XTR.extentsUsedUsed : Fld := ⟨0x034, 30, 0⟩
/-- XTR_EXTENTS_MAPPED.mapped, RO (R352). -/
def XTR.extentsMappedMapped : Fld := ⟨0x038, 30, 0⟩
/-- XTR_STRANDED.stranded, RO (R352). -/
def XTR.strandedStranded : Fld := ⟨0x03C, 30, 0⟩

/-! Page block DSCH. -/

/-- DSCH_HOST_RATE.host_rate, RW (R354). -/
def DSCH.hostRateHostRate : Fld := ⟨0x030, 22, 0⟩
/-- DSCH_STATUS.tick_free, RO (R354). -/
def DSCH.statusTickFree : Fld := ⟨0x034, 0, 0⟩

/-! Page block LSEC. -/

/-- LSEC_STATUS.gcm_contexts, RO (R383). -/
def LSEC.statusGcmContexts : Fld := ⟨0x030, 10, 0⟩
/-- LSEC_STATUS.contained, RO (R383). -/
def LSEC.statusContained : Fld := ⟨0x030, 26, 16⟩
/-- LSEC_FAIL_LAST.context, RO (R383). -/
def LSEC.failLastContext : Fld := ⟨0x034, 9, 0⟩

/-! Page block CCRY. -/

/-- CCRY_CFG.clear_export, RWE (R386). -/
def CCRY.cfgClearExport : Fld := ⟨0x030, 0, 0⟩
/-- CCRY_STATUS.busy, RO (R386). -/
def CCRY.statusBusy : Fld := ⟨0x034, 7, 0⟩
/-- CCRY_STATUS.suspended, RO (R386). -/
def CCRY.statusSuspended : Fld := ⟨0x034, 15, 8⟩
/-- CCRY_STATUS.keystore_ready, RO (R386). -/
def CCRY.statusKeystoreReady : Fld := ⟨0x034, 16, 16⟩
/-- CCRY_CMD.slot, WO (R386). -/
def CCRY.cmdSlot : Fld := ⟨0x038, 2, 0⟩
/-- CCRY_CMD.start, WO (R386). -/
def CCRY.cmdStart : Fld := ⟨0x038, 3, 3⟩
/-- CCRY_CMD.abort, WO (R386). -/
def CCRY.cmdAbort : Fld := ⟨0x038, 4, 4⟩
/-- CCRY_CMD.export, WO (R386). -/
def CCRY.cmdExport : Fld := ⟨0x038, 5, 5⟩
/-- CCRY_CMD.import, WO (R386). -/
def CCRY.cmdImport : Fld := ⟨0x038, 6, 6⟩
/-- CCRY_CMD.wrapped, WO (R386). -/
def CCRY.cmdWrapped : Fld := ⟨0x038, 7, 7⟩
/-- CCRY_XFER.addr, RW (R386). -/
def CCRY.xferAddr : Fld := ⟨0x03C, 22, 0⟩

/-! Page block KST. -/

/-- KST_STATUS.state, RO (R388). -/
def KST.statusState : Fld := ⟨0x030, 1, 0⟩
/-- KST_STATUS.fallback, RO (R388). -/
def KST.statusFallback : Fld := ⟨0x030, 2, 2⟩
/-- KST_STATUS.torn_found, RO (R388). -/
def KST.statusTornFound : Fld := ⟨0x030, 3, 3⟩
/-- KST_STATUS.busy, RO (R388). -/
def KST.statusBusy : Fld := ⟨0x030, 4, 4⟩
/-- KST_STATUS.last_result, RO (R388). -/
def KST.statusLastResult : Fld := ⟨0x030, 7, 5⟩
/-- KST_GEN.generation, RO (R388). -/
def KST.genGeneration : Fld := ⟨0x034, 31, 0⟩
/-- KST_CMD.commit, WO (R388). -/
def KST.cmdCommit : Fld := ⟨0x038, 0, 0⟩
/-- KST_CMD.genkey, WO (R388). -/
def KST.cmdGenkey : Fld := ⟨0x038, 1, 1⟩

/-! Page block TIME. -/

/-- TIME_NOW_FRAC.now_frac, RO (R411). -/
def TIME.nowFracNowFrac : Fld := ⟨0x030, 31, 0⟩
/-- TIME_NOW_NS.now_ns, RO (R411). -/
def TIME.nowNsNowNs : Fld := ⟨0x034, 31, 0⟩
/-- TIME_NOW_SEC_LO.now_sec_lo, RO (R411). -/
def TIME.nowSecLoNowSecLo : Fld := ⟨0x038, 31, 0⟩
/-- TIME_NOW_SEC_HI.now_sec_hi, RO (R411). -/
def TIME.nowSecHiNowSecHi : Fld := ⟨0x03C, 31, 0⟩
/-- TIME_STATUS.valid, RO (R411). -/
def TIME.statusValid : Fld := ⟨0x040, 0, 0⟩
/-- TIME_STATUS.source, RO (R411). -/
def TIME.statusSource : Fld := ⟨0x040, 2, 1⟩
/-- TIME_STATUS.bound_a, RO (R411). -/
def TIME.statusBoundA : Fld := ⟨0x040, 3, 3⟩
/-- TIME_STATUS.bound_b, RO (R411). -/
def TIME.statusBoundB : Fld := ⟨0x040, 4, 4⟩
/-- TIME_STATUS.freq_valid, RO (R411). -/
def TIME.statusFreqValid : Fld := ⟨0x040, 5, 5⟩
/-- TIME_STATUS.cal_done, RO (R411). -/
def TIME.statusCalDone : Fld := ⟨0x040, 6, 6⟩
/-- TIME_STATUS.host_bound, RO (R411). -/
def TIME.statusHostBound : Fld := ⟨0x040, 7, 7⟩
/-- TIME_CFG.pps_enable, RWE (R411). -/
def TIME.cfgPpsEnable : Fld := ⟨0x044, 0, 0⟩
/-- TIME_CFG.fout_enable, RWE (R411). -/
def TIME.cfgFoutEnable : Fld := ⟨0x044, 1, 1⟩
/-- TIME_CFG.fout_sel, RWE (R411). -/
def TIME.cfgFoutSel : Fld := ⟨0x044, 3, 2⟩
/-- TIME_CFG.set_tree, RWE (R411). -/
def TIME.cfgSetTree : Fld := ⟨0x044, 4, 4⟩
/-- TIME_CFG.pps_width, RWE (R411). -/
def TIME.cfgPpsWidth : Fld := ⟨0x044, 31, 16⟩
/-- TIME_ASYM_A.asym_a, RW (R411). -/
def TIME.asymAAsymA : Fld := ⟨0x048, 31, 0⟩
/-- TIME_ASYM_B.asym_b, RW (R411). -/
def TIME.asymBAsymB : Fld := ⟨0x04C, 31, 0⟩
/-- TIME_PPS_OFS.pps_ofs, RW (R411). -/
def TIME.ppsOfsPpsOfs : Fld := ⟨0x050, 31, 0⟩
/-- TIME_STEP_LAST.step, RO (R411). -/
def TIME.stepLastStep : Fld := ⟨0x054, 31, 0⟩
/-- TIME_SET.set_frac, RW (R411). -/
def TIME.setSetFrac : Fld := ⟨0x058, 31, 0⟩
/-- TIME_SET.set_ns, RW (R411). -/
def TIME.setSetNs : Fld := ⟨0x05C, 31, 0⟩
/-- TIME_SET.set_sec_lo, RW (R411). -/
def TIME.setSetSecLo : Fld := ⟨0x060, 31, 0⟩
/-- TIME_SET.set_sec_hi, RW (R411). -/
def TIME.setSetSecHi : Fld := ⟨0x064, 31, 0⟩
/-- TIME_CMD.set, WO (R411). -/
def TIME.cmdSet : Fld := ⟨0x068, 0, 0⟩
/-- TIME_CMD.clear_host, WO (R411). -/
def TIME.cmdClearHost : Fld := ⟨0x068, 1, 1⟩
/-- TIME_LAUNCH_CFG.late_tol, RWE (R411). -/
def TIME.launchCfgLateTol : Fld := ⟨0x06C, 15, 0⟩
/-- TIME_LAUNCH_CFG.lead, RWE (R411). -/
def TIME.launchCfgLead : Fld := ⟨0x06C, 31, 16⟩
/-- TIME_PTP.domain, RWE (R411). -/
def TIME.ptpDomain : Fld := ⟨0x070, 7, 0⟩
/-- TIME_PTP.l2, RWE (R411). -/
def TIME.ptpL2 : Fld := ⟨0x070, 8, 8⟩
/-- TIME_PTP.udp4, RWE (R411). -/
def TIME.ptpUdp4 : Fld := ⟨0x070, 9, 9⟩
/-- TIME_PTP.udp6, RWE (R411). -/
def TIME.ptpUdp6 : Fld := ⟨0x070, 10, 10⟩
/-- TIME_STAMP_PTR.wr, RO (R411). -/
def TIME.stampPtrWr : Fld := ⟨0x074, 10, 0⟩
/-- TIME_STAMP_PTR.rd, RW (R411). -/
def TIME.stampPtrRd : Fld := ⟨0x074, 26, 16⟩

/-! Page block UNIQ. -/

/-- UNIQ_PORT_CFG.enable, RW (R442). -/
def UNIQ.portCfgEnable : Fld := ⟨0x000, 0, 0⟩
/-- UNIQ_PORT_CFG.mode, RW (R442). -/
def UNIQ.portCfgMode : Fld := ⟨0x000, 3, 1⟩
/-- UNIQ_PORT_CFG.medium, RW (R442). -/
def UNIQ.portCfgMedium : Fld := ⟨0x000, 5, 4⟩
/-- UNIQ_PORT_CFG.an_enable, RW (R442). -/
def UNIQ.portCfgAnEnable : Fld := ⟨0x000, 6, 6⟩
/-- UNIQ_PORT_CFG.tx_reverse, RW (R442). -/
def UNIQ.portCfgTxReverse : Fld := ⟨0x000, 7, 7⟩
/-- UNIQ_PORT_CFG.lifeline_port, RW (R442). -/
def UNIQ.portCfgLifelinePort : Fld := ⟨0x000, 8, 8⟩
/-- UNIQ_PORT_CFG.default_prio, RW (R442). -/
def UNIQ.portCfgDefaultPrio : Fld := ⟨0x000, 11, 9⟩
/-- UNIQ_PORT_LEN.max_len, RW (R442). -/
def UNIQ.portLenMaxLen : Fld := ⟨0x004, 13, 0⟩
/-- UNIQ_PORT_FC.fc_mode, RW (R442). -/
def UNIQ.portFcFcMode : Fld := ⟨0x008, 1, 0⟩
/-- UNIQ_PORT_FC.pfc_enable, RW (R442). -/
def UNIQ.portFcPfcEnable : Fld := ⟨0x008, 15, 8⟩
/-- UNIQ_PORT_FC.quanta, RW (R442). -/
def UNIQ.portFcQuanta : Fld := ⟨0x008, 31, 16⟩
/-- UNIQ_PORT_LPI.lpi_enable, RW (R442). -/
def UNIQ.portLpiLpiEnable : Fld := ⟨0x00C, 0, 0⟩
/-- UNIQ_PORT_LPI.tw, RW (R442). -/
def UNIQ.portLpiTw : Fld := ⟨0x00C, 15, 8⟩
/-- UNIQ_PORT_LPI.idle, RW (R442). -/
def UNIQ.portLpiIdle : Fld := ⟨0x00C, 31, 16⟩
/-- UNIQ_PORT_STATUS.link_up, RO (R442). -/
def UNIQ.portStatusLinkUp : Fld := ⟨0x010, 0, 0⟩
/-- UNIQ_PORT_STATUS.an_done, RO (R442). -/
def UNIQ.portStatusAnDone : Fld := ⟨0x010, 1, 1⟩
/-- UNIQ_PORT_STATUS.pcs_lock, RO (R442). -/
def UNIQ.portStatusPcsLock : Fld := ⟨0x010, 2, 2⟩
/-- UNIQ_PORT_STATUS.local_fault, RO (R442). -/
def UNIQ.portStatusLocalFault : Fld := ⟨0x010, 3, 3⟩
/-- UNIQ_PORT_STATUS.remote_fault, RO (R442). -/
def UNIQ.portStatusRemoteFault : Fld := ⟨0x010, 4, 4⟩
/-- UNIQ_PORT_STATUS.lpi_tx, RO (R442). -/
def UNIQ.portStatusLpiTx : Fld := ⟨0x010, 5, 5⟩
/-- UNIQ_PORT_STATUS.lpi_rx, RO (R442). -/
def UNIQ.portStatusLpiRx : Fld := ⟨0x010, 6, 6⟩
/-- UNIQ_PORT_STATUS.held, RO (R442). -/
def UNIQ.portStatusHeld : Fld := ⟨0x010, 7, 7⟩
/-- UNIQ_PORT_STATUS.effective_enable, RO (R442). -/
def UNIQ.portStatusEffectiveEnable : Fld := ⟨0x010, 8, 8⟩
/-- UNIQ_PORT_STATUS.absorbed, RO (R442). -/
def UNIQ.portStatusAbsorbed : Fld := ⟨0x010, 9, 9⟩
/-- UNIQ_PORT_STATUS.paused_rx, RO (R442). -/
def UNIQ.portStatusPausedRx : Fld := ⟨0x010, 23, 16⟩
/-- UNIQ_PORT_STATUS.xoff_tx, RO (R442). -/
def UNIQ.portStatusXoffTx : Fld := ⟨0x010, 31, 24⟩

/-! Page block LANE. -/

/-- LANE_CDR_LOCK.cdr_lock, RO (R446). -/
def LANE.cdrLockCdrLock : Fld := ⟨0x030, 15, 0⟩
/-- LANE_PRBS_LOCK.prbs_lock, RO (R446). -/
def LANE.prbsLockPrbsLock : Fld := ⟨0x034, 15, 0⟩
/-- LANE_INJECT.lane, WO (R446). -/
def LANE.injectLane : Fld := ⟨0x038, 3, 0⟩
/-- LANE_INJECT.inject, WO (R446). -/
def LANE.injectInject : Fld := ⟨0x038, 4, 4⟩
/-- LANE_FOM_ALARM.threshold, RW (R446). -/
def LANE.fomAlarmThreshold : Fld := ⟨0x03C, 15, 0⟩
/-- LANE_FOM_REF.ref, RO (R446). -/
def LANE.fomRefRef : Fld := ⟨0x040, 15, 0⟩

/-! Page block RING. -/

/-- RING_DESC_BASE.desc_base_lo, RW (R456). -/
def RING.descBaseDescBaseLo : Fld := ⟨0x000, 31, 0⟩
/-- RING_DESC_BASE.desc_base_hi, RW (R456). -/
def RING.descBaseDescBaseHi : Fld := ⟨0x004, 31, 0⟩
/-- RING_CPL_BASE.cpl_base_lo, RW (R456). -/
def RING.cplBaseCplBaseLo : Fld := ⟨0x008, 31, 0⟩
/-- RING_CPL_BASE.cpl_base_hi, RW (R456). -/
def RING.cplBaseCplBaseHi : Fld := ⟨0x00C, 31, 0⟩
/-- RING_CFG.enable, RW (R456). -/
def RING.cfgEnable : Fld := ⟨0x010, 0, 0⟩
/-- RING_CFG.stop_on_fault, RW (R456). -/
def RING.cfgStopOnFault : Fld := ⟨0x010, 1, 1⟩
/-- RING_CFG.log2_size, RW (R456). -/
def RING.cfgLog2Size : Fld := ⟨0x010, 5, 2⟩
/-- RING_CFG.buf_units, RW (R456). -/
def RING.cfgBufUnits : Fld := ⟨0x010, 13, 8⟩
/-- RING_CFG.vector, RW (R456). -/
def RING.cfgVector : Fld := ⟨0x010, 23, 16⟩
/-- RING_CFG.moderation, RW (R456). -/
def RING.cfgModeration : Fld := ⟨0x010, 31, 24⟩
/-- RING_TAIL.tail, RW (R456). -/
def RING.tailTail : Fld := ⟨0x014, 15, 0⟩
/-- RING_HEAD.head, RO (R456). -/
def RING.headHead : Fld := ⟨0x018, 15, 0⟩
/-- RING_CTRL.state, RO (R456). -/
def RING.ctrlState : Fld := ⟨0x01C, 1, 0⟩
/-- RING_CTRL.restart, WO (R456). -/
def RING.ctrlRestart : Fld := ⟨0x01C, 8, 8⟩
/-- RING_CTRL.skip, WO (R456). -/
def RING.ctrlSkip : Fld := ⟨0x01C, 9, 9⟩

/-! Page block HIF. -/

/-- HIF_FORM.form, RO (R477). -/
def HIF.formForm : Fld := ⟨0x030, 0, 0⟩
/-- HIF_LINK_STATUS.speed, RO (R477). -/
def HIF.linkStatusSpeed : Fld := ⟨0x034, 2, 0⟩
/-- HIF_LINK_STATUS.width, RO (R477). -/
def HIF.linkStatusWidth : Fld := ⟨0x034, 6, 3⟩
/-- HIF_LINK_STATUS.pm_state, RO (R477). -/
def HIF.linkStatusPmState : Fld := ⟨0x034, 9, 7⟩
/-- HIF_LINK_STATUS.dl_up, RO (R477). -/
def HIF.linkStatusDlUp : Fld := ⟨0x034, 10, 10⟩
/-- HIF_LINK_CFG.auto_narrow, RW (R477). -/
def HIF.linkCfgAutoNarrow : Fld := ⟨0x038, 0, 0⟩
/-- HIF_LINK_CFG.narrow_width, RW (R477). -/
def HIF.linkCfgNarrowWidth : Fld := ⟨0x038, 3, 1⟩
/-- HIF_LINK_CFG.narrow_util, RW (R477). -/
def HIF.linkCfgNarrowUtil : Fld := ⟨0x038, 15, 8⟩
/-- HIF_LINK_CFG.narrow_idle, RW (R477). -/
def HIF.linkCfgNarrowIdle : Fld := ⟨0x038, 31, 16⟩
/-- HIF_ASPM.l1_idle, RW (R477). -/
def HIF.aspmL1Idle : Fld := ⟨0x03C, 15, 0⟩
/-- HIF_LTR.snoop, RW (R477). -/
def HIF.ltrSnoop : Fld := ⟨0x040, 15, 0⟩
/-- HIF_LTR.no_snoop, RW (R477). -/
def HIF.ltrNoSnoop : Fld := ⟨0x040, 31, 16⟩
/-- HIF_WAKE_CAUSE.host_traffic, RO (R477). -/
def HIF.wakeCauseHostTraffic : Fld := ⟨0x044, 0, 0⟩
/-- HIF_WAKE_CAUSE.pennant, RO (R477). -/
def HIF.wakeCausePennant : Fld := ⟨0x044, 1, 1⟩
/-- HIF_WAKE_CAUSE.keeper, RO (R477). -/
def HIF.wakeCauseKeeper : Fld := ⟨0x044, 2, 2⟩
/-- HIF_WAKE_CAUSE.clear, WO (R477). -/
def HIF.wakeCauseClear : Fld := ⟨0x044, 10, 8⟩
/-- HIF_WAKE_CAUSE.wake_asserted, RO (R477). -/
def HIF.wakeCauseWakeAsserted : Fld := ⟨0x044, 11, 11⟩
/-- HIF_CXL_STATUS.link_up, RO (R477). -/
def HIF.cxlStatusLinkUp : Fld := ⟨0x048, 0, 0⟩
/-- HIF_CXL_STATUS.mem_enabled, RO (R477). -/
def HIF.cxlStatusMemEnabled : Fld := ⟨0x048, 1, 1⟩
/-- HIF_CXL_STATUS.hdm_committed, RO (R477). -/
def HIF.cxlStatusHdmCommitted : Fld := ⟨0x048, 2, 2⟩
/-- HIF_CXL_STATUS.speed, RO (R477). -/
def HIF.cxlStatusSpeed : Fld := ⟨0x048, 5, 3⟩
/-- HIF_CXL_STATUS.width, RO (R477). -/
def HIF.cxlStatusWidth : Fld := ⟨0x048, 9, 6⟩
/-- HIF_CXL_STATUS.enum_result, RO (R477). -/
def HIF.cxlStatusEnumResult : Fld := ⟨0x048, 12, 10⟩
/-- HIF_CXL_CAP.capacity, RO (R477). -/
def HIF.cxlCapCapacity : Fld := ⟨0x04C, 31, 0⟩
/-- HIF_CXL_HPA.hpa_lo, RWE (R477). -/
def HIF.cxlHpaHpaLo : Fld := ⟨0x050, 31, 0⟩
/-- HIF_CXL_HPA.hpa_hi, RWE (R477). -/
def HIF.cxlHpaHpaHi : Fld := ⟨0x054, 31, 0⟩
/-- HIF_CXL_MMIO.mmio_lo, RWE (R477). -/
def HIF.cxlMmioMmioLo : Fld := ⟨0x058, 31, 0⟩
/-- HIF_CXL_MMIO.mmio_hi, RWE (R477). -/
def HIF.cxlMmioMmioHi : Fld := ⟨0x05C, 31, 0⟩

/-! Page block DMA. -/

/-- DMA_STATUS.tx_running, RO (R479). -/
def DMA.statusTxRunning : Fld := ⟨0x030, 10, 0⟩
/-- DMA_STATUS.rx_running, RO (R479). -/
def DMA.statusRxRunning : Fld := ⟨0x030, 26, 16⟩
/-- DMA_FAULT_LAST.ring, RO (R479). -/
def DMA.faultLastRing : Fld := ⟨0x034, 9, 0⟩
/-- DMA_FAULT_LAST.segment, RO (R479). -/
def DMA.faultLastSegment : Fld := ⟨0x034, 13, 10⟩
/-- DMA_FAULT_LAST.cause, RO (R479). -/
def DMA.faultLastCause : Fld := ⟨0x034, 16, 14⟩

/-! Page block CORE. -/

/-- CORE_STATE.running, RO (R519). -/
def CORE.stateRunning : Fld := ⟨0x030, 15, 0⟩
/-- CORE_STATE.contained, RO (R519). -/
def CORE.stateContained : Fld := ⟨0x030, 31, 16⟩
/-- CORE_WDOG.timeout, RWE (R519). -/
def CORE.wdogTimeout : Fld := ⟨0x034, 15, 0⟩
/-- CORE_RELEASE.release, WO (R519). -/
def CORE.releaseRelease : Fld := ⟨0x038, 15, 0⟩
/-- CORE_PUNTY.state, RO (R519). -/
def CORE.puntyState : Fld := ⟨0x03C, 2, 0⟩
/-- CORE_PUNTY.active_half, RO (R519). -/
def CORE.puntyActiveHalf : Fld := ⟨0x03C, 3, 3⟩
/-- CORE_PUNTY.abort_cause, RO (R519). -/
def CORE.puntyAbortCause : Fld := ⟨0x03C, 10, 8⟩
/-- CORE_PUNTY_CMD.arm, WO (R519). -/
def CORE.puntyCmdArm : Fld := ⟨0x040, 0, 0⟩
/-- CORE_PUNTY_CMD.ready, WO (R519). -/
def CORE.puntyCmdReady : Fld := ⟨0x040, 1, 1⟩
/-- CORE_PUNTY_CMD.commit, WO (R519). -/
def CORE.puntyCmdCommit : Fld := ⟨0x040, 2, 2⟩
/-- CORE_PUNTY_CMD.abort, WO (R519). -/
def CORE.puntyCmdAbort : Fld := ⟨0x040, 3, 3⟩
/-- CORE_PUNTY_LIMIT.freeze_max, RWE (R519). -/
def CORE.puntyLimitFreezeMax : Fld := ⟨0x044, 15, 0⟩
/-- CORE_HANDOVER.handover, RO (R519). -/
def CORE.handoverHandover : Fld := ⟨0x048, 22, 0⟩

/-! Page block TSK. -/

/-- TSK_STATUS.ready, RO (R522). -/
def TSK.statusReady : Fld := ⟨0x030, 10, 0⟩
/-- TSK_STATUS.running, RO (R522). -/
def TSK.statusRunning : Fld := ⟨0x030, 26, 16⟩
/-- TSK_CFG.late_us, RWE (R522). -/
def TSK.cfgLateUs : Fld := ⟨0x034, 15, 0⟩
/-- TSK_SET.task, WO (R522). -/
def TSK.setTask : Fld := ⟨0x038, 9, 0⟩
/-- TSK_SET.flag, WO (R522). -/
def TSK.setFlag : Fld := ⟨0x038, 14, 10⟩
/-- TSK_FLOWS.held, RO (R522). -/
def TSK.flowsHeld : Fld := ⟨0x03C, 16, 0⟩

/-! Page block FLSH. -/

/-- FLSH_STATUS.busy, RO (R525). -/
def FLSH.statusBusy : Fld := ⟨0x030, 0, 0⟩
/-- FLSH_STATUS.erase_active, RO (R525). -/
def FLSH.statusEraseActive : Fld := ⟨0x030, 1, 1⟩
/-- FLSH_STATUS.erase_suspended, RO (R525). -/
def FLSH.statusEraseSuspended : Fld := ⟨0x030, 2, 2⟩
/-- FLSH_STATUS.octal, RO (R525). -/
def FLSH.statusOctal : Fld := ⟨0x030, 3, 3⟩
/-- FLSH_STATUS.open_entries, RO (R525). -/
def FLSH.statusOpenEntries : Fld := ⟨0x030, 9, 4⟩
/-- FLSH_STATUS.last_result, RO (R525). -/
def FLSH.statusLastResult : Fld := ⟨0x030, 12, 10⟩
/-- FLSH_IMAGE.version, RO (R525). -/
def FLSH.imageVersion : Fld := ⟨0x034, 31, 0⟩
/-- FLSH_CMD.op, WO (R525). -/
def FLSH.cmdOp : Fld := ⟨0x038, 2, 0⟩
/-- FLSH_CMD.from_stage, WO (R525). -/
def FLSH.cmdFromStage : Fld := ⟨0x038, 3, 3⟩
/-- FLSH_ADDR.addr, RW (R525). -/
def FLSH.addrAddr : Fld := ⟨0x03C, 31, 0⟩
/-- FLSH_LEN.len, RW (R525). -/
def FLSH.lenLen : Fld := ⟨0x040, 23, 0⟩
/-- FLSH_SRAM.sram, RW (R525). -/
def FLSH.sramSram : Fld := ⟨0x044, 22, 0⟩
/-- FLSH_BOOT.slot, RO (R525). -/
def FLSH.bootSlot : Fld := ⟨0x048, 1, 0⟩
/-- FLSH_BOOT.trial, RO (R525). -/
def FLSH.bootTrial : Fld := ⟨0x048, 2, 2⟩
/-- FLSH_BOOT.trial_count, RO (R525). -/
def FLSH.bootTrialCount : Fld := ⟨0x048, 4, 3⟩
/-- FLSH_BOOT.result, RO (R525). -/
def FLSH.bootResult : Fld := ⟨0x048, 7, 5⟩
/-- FLSH_BOOT_CMD.confirm, WO (R525). -/
def FLSH.bootCmdConfirm : Fld := ⟨0x04C, 0, 0⟩
/-- FLSH_BOOT_CMD.retry, WO (R525). -/
def FLSH.bootCmdRetry : Fld := ⟨0x04C, 1, 1⟩

/-! Page block KEEP. -/

/-- KEEP_POLICY0.policy_lo, RWT (R555). -/
def KEEP.policy0PolicyLo : Fld := ⟨0x030, 31, 0⟩
/-- KEEP_POLICY1.policy_hi, RWT (R555). -/
def KEEP.policy1PolicyHi : Fld := ⟨0x034, 19, 0⟩
/-- KEEP_STATE0.state_lo, RO (R555). -/
def KEEP.state0StateLo : Fld := ⟨0x038, 31, 0⟩
/-- KEEP_STATE1.state_hi, RO (R555). -/
def KEEP.state1StateHi : Fld := ⟨0x03C, 19, 0⟩
/-- KEEP_WAKE.wake, WO (R555). -/
def KEEP.wakeWake : Fld := ⟨0x040, 25, 0⟩
/-- KEEP_REFUSE_LAST.domain, RO (R555). -/
def KEEP.refuseLastDomain : Fld := ⟨0x044, 4, 0⟩
/-- KEEP_REFUSE_LAST.page, RO (R555). -/
def KEEP.refuseLastPage : Fld := ⟨0x044, 10, 5⟩
/-- KEEP_REFUSE_LAST.reason, RO (R555). -/
def KEEP.refuseLastReason : Fld := ⟨0x044, 14, 11⟩
/-- KEEP_ABORT_LAST.domain, RO (R555). -/
def KEEP.abortLastDomain : Fld := ⟨0x048, 4, 0⟩
/-- KEEP_ABORT_LAST.page, RO (R555). -/
def KEEP.abortLastPage : Fld := ⟨0x048, 10, 5⟩
/-- KEEP_SHED.line_a, RO (R555). -/
def KEEP.shedLineA : Fld := ⟨0x04C, 0, 0⟩
/-- KEEP_SHED.line_b, RO (R555). -/
def KEEP.shedLineB : Fld := ⟨0x04C, 1, 1⟩
/-- KEEP_RAM_STATUS.valid, RO (R555). -/
def KEEP.ramStatusValid : Fld := ⟨0x050, 0, 0⟩

/-! Page block CLK. -/

/-- CLK_STATUS.part_source, RO (R557). -/
def CLK.statusPartSource : Fld := ⟨0x030, 2, 0⟩
/-- CLK_STATUS.tree_a, RO (R557). -/
def CLK.statusTreeA : Fld := ⟨0x030, 6, 4⟩
/-- CLK_STATUS.tree_b, RO (R557). -/
def CLK.statusTreeB : Fld := ⟨0x030, 10, 8⟩
/-- CLK_STATUS.good, RO (R557). -/
def CLK.statusGood : Fld := ⟨0x030, 20, 16⟩
/-- CLK_STATUS.kosc_trimmed, RO (R557). -/
def CLK.statusKoscTrimmed : Fld := ⟨0x030, 24, 24⟩
/-- CLK_STATUS.forced, RO (R557). -/
def CLK.statusForced : Fld := ⟨0x030, 25, 25⟩
/-- CLK_STATUS.frozen_a, RO (R557). -/
def CLK.statusFrozenA : Fld := ⟨0x030, 26, 26⟩
/-- CLK_STATUS.frozen_b, RO (R557). -/
def CLK.statusFrozenB : Fld := ⟨0x030, 27, 27⟩
/-- CLK_SEL.force, RW (R557). -/
def CLK.selForce : Fld := ⟨0x034, 2, 0⟩
/-- CLK_JUDGE.tol, RWE (R557). -/
def CLK.judgeTol : Fld := ⟨0x038, 9, 0⟩
/-- CLK_JUDGE.good_count, RWE (R557). -/
def CLK.judgeGoodCount : Fld := ⟨0x038, 15, 12⟩
/-- CLK_JUDGE.untrimmed_tol, RWE (R557). -/
def CLK.judgeUntrimmedTol : Fld := ⟨0x038, 23, 16⟩
/-- CLK_WTR.wtr, RW (R557). -/
def CLK.wtrWtr : Fld := ⟨0x03C, 15, 0⟩
/-- CLK_KOSC_CFG.trim_sf, RWE (R557). -/
def CLK.koscCfgTrimSf : Fld := ⟨0x040, 7, 0⟩
/-- CLK_KOSC_STATUS.code, RO (R557). -/
def CLK.koscStatusCode : Fld := ⟨0x044, 11, 0⟩
/-- CLK_KOSC_STATUS.error, RO (R557). -/
def CLK.koscStatusError : Fld := ⟨0x044, 31, 16⟩
/-- CLK_REFUSED_LAST.source, RO (R557). -/
def CLK.refusedLastSource : Fld := ⟨0x048, 2, 0⟩
/-- CLK_REFUSED_LAST.reason, RO (R557). -/
def CLK.refusedLastReason : Fld := ⟨0x048, 5, 4⟩

/-! Page block SUP. -/

/-- SUP_STATUS.supply_warning, RO (R559). -/
def SUP.statusSupplyWarning : Fld := ⟨0x030, 0, 0⟩
/-- SUP_STATUS.vkeep_warning, RO (R559). -/
def SUP.statusVkeepWarning : Fld := ⟨0x030, 1, 1⟩
/-- SUP_STATUS.battery, RO (R559). -/
def SUP.statusBattery : Fld := ⟨0x030, 2, 2⟩
/-- SUP_STATUS.mains_stable, RO (R559). -/
def SUP.statusMainsStable : Fld := ⟨0x030, 3, 3⟩
/-- SUP_STATUS.psrc_main, RO (R559). -/
def SUP.statusPsrcMain : Fld := ⟨0x030, 4, 4⟩
/-- SUP_STATUS.psrc_batt, RO (R559). -/
def SUP.statusPsrcBatt : Fld := ⟨0x030, 5, 5⟩
/-- SUP_STATUS.pfail, RO (R559). -/
def SUP.statusPfail : Fld := ⟨0x030, 6, 6⟩
/-- SUP_STATUS.below_warning, RO (R559). -/
def SUP.statusBelowWarning : Fld := ⟨0x030, 14, 8⟩
/-- SUP_PSRC_CFG.debounce, RWE (R559). -/
def SUP.psrcCfgDebounce : Fld := ⟨0x034, 7, 0⟩
/-- SUP_PSRC_CFG.holdoff, RWE (R559). -/
def SUP.psrcCfgHoldoff : Fld := ⟨0x034, 15, 8⟩
/-- SUP_PSRC_CFG.stable, RWE (R559). -/
def SUP.psrcCfgStable : Fld := ⟨0x034, 31, 16⟩
/-- SUP_LAST_RESET.rails, RO (R559). -/
def SUP.lastResetRails : Fld := ⟨0x038, 6, 0⟩

/-! Page block LEHR. -/

/-- LEHR_CFG.offset, RW (R577). -/
def LEHR.cfgOffset : Fld := ⟨0x030, 16, 0⟩
/-- LEHR_CFG.hold, RW (R577). -/
def LEHR.cfgHold : Fld := ⟨0x030, 17, 17⟩
/-- LEHR_CFG.avs_enable, RWE (R577). -/
def LEHR.cfgAvsEnable : Fld := ⟨0x030, 18, 18⟩
/-- LEHR_MARGIN.margin_target, RW (R577). -/
def LEHR.marginMarginTarget : Fld := ⟨0x034, 7, 0⟩
/-- LEHR_MARGIN.hysteresis, RW (R577). -/
def LEHR.marginHysteresis : Fld := ⟨0x034, 15, 8⟩
/-- LEHR_STATUS.running, RO (R577). -/
def LEHR.statusRunning : Fld := ⟨0x038, 0, 0⟩
/-- LEHR_STATUS.deferred, RO (R577). -/
def LEHR.statusDeferred : Fld := ⟨0x038, 1, 1⟩
/-- LEHR_STATUS.avs_ok, RO (R577). -/
def LEHR.statusAvsOk : Fld := ⟨0x038, 2, 2⟩
/-- LEHR_STATUS.core_derate, RO (R577). -/
def LEHR.statusCoreDerate : Fld := ⟨0x038, 4, 3⟩
/-- LEHR_AVS.vdd_l, RO (R577). -/
def LEHR.avsVddL : Fld := ⟨0x03C, 9, 0⟩
/-- LEHR_AVS.vdd_s, RO (R577). -/
def LEHR.avsVddS : Fld := ⟨0x03C, 25, 16⟩
/-- LEHR_CMD.replan_now, WO (R577). -/
def LEHR.cmdReplanNow : Fld := ⟨0x040, 0, 0⟩

/-! Page block D2D. -/

/-- D2D_STATUS.up, RO (R579). -/
def D2D.statusUp : Fld := ⟨0x030, 2, 0⟩
/-- D2D_CFG.retry_max, RWE (R579). -/
def D2D.cfgRetryMax : Fld := ⟨0x034, 3, 0⟩
/-- D2D_CFG.retrain_max, RWE (R579). -/
def D2D.cfgRetrainMax : Fld := ⟨0x034, 7, 4⟩
/-- D2D_LAST.link, RO (R579). -/
def D2D.lastLink : Fld := ⟨0x038, 1, 0⟩
/-- D2D_LAST.event, RO (R579). -/
def D2D.lastEvent : Fld := ⟨0x038, 3, 2⟩

/-! Page block PIN. -/

/-- PIN_CFG.open_period, RWE (R581). -/
def PIN.cfgOpenPeriod : Fld := ⟨0x030, 15, 0⟩
/-- PIN_CFG.open_enable, RWE (R581). -/
def PIN.cfgOpenEnable : Fld := ⟨0x030, 16, 16⟩
/-- PIN_CFG.short_enable, RWE (R581). -/
def PIN.cfgShortEnable : Fld := ⟨0x030, 17, 17⟩
/-- PIN_STATUS.faulted, RO (R581). -/
def PIN.statusFaulted : Fld := ⟨0x034, 8, 0⟩
/-- PIN_RELEASE.pin, WO (R581). -/
def PIN.releasePin : Fld := ⟨0x038, 8, 0⟩
/-- PIN_RELEASE.go, WO (R581). -/
def PIN.releaseGo : Fld := ⟨0x038, 9, 9⟩

/-! Page block POL. -/

/-- POL_VALID.valid_count, RO (R284). -/
def POL.validValidCount : Fld := ⟨0x030, 13, 0⟩

/-! Page block SWC. -/

/-- SWC_MTU.mtu, RWE (R353). -/
def SWC.mtuMtu : Fld := ⟨0x030, 13, 0⟩

/-! Page block MIR. -/

/-- MIR_QLIMIT.qlimit, RW (R355). -/
def MIR.qlimitQlimit : Fld := ⟨0x030, 27, 0⟩

end Sys2Proof.Machine
end

