-- ==== Sys2Proof/Machine/Bits.lean ====
section
/-! DEFINITION. Bit fields of words, signed readings, byte order: the helpers every page uses (R12 to R14). -/

namespace Sys2Proof.Machine

/-- The bits of a word that a field covers. -/
def Fld.mask (f : Fld) : Word := BitVec.ofNat 32 ((2 ^ (f.hi + 1 - f.lo) - 1) * 2 ^ f.lo)

/-- The value of a field in a word. -/
def Fld.get (f : Fld) (w : Word) : Nat := (w >>> f.lo).toNat % 2 ^ (f.hi + 1 - f.lo)

/-- A word with a field set to a value, reduced modulo the field's width; every other bit is kept. -/
def Fld.put (f : Fld) (v : Nat) (w : Word) : Word :=
  (w &&& ~~~ f.mask) ||| ((BitVec.ofNat 32 v <<< f.lo) &&& f.mask)

/-- Bits [hi:lo] of a number. -/
def bitsOf (n hi lo : Nat) : Nat := n / 2 ^ lo % 2 ^ (hi + 1 - lo)

/-- Bit `b` of a number. -/
def bitOf (n b : Nat) : Bool := n.testBit b

/-- 1 for true. -/
def b2n (b : Bool) : Nat := if b then 1 else 0

/-- An `n`-bit field read as a signed number. -/
def signed (n v : Nat) : Int := if v < 2 ^ (n - 1) then (v : Int) else (v : Int) - 2 ^ n

/-- A number as an `n`-bit two's-complement field. -/
def unsigned (n : Nat) (v : Int) : Nat := (v % 2 ^ n).toNat

/-- `v` held within `lo` to `hi`. -/
def clampInt (lo hi v : Int) : Int := if v < lo then lo else if hi < v then hi else v

/-- Addition that stops at `top`. -/
def satAdd (top a b : Nat) : Nat := if top < a + b then top else a + b

/-- A big-endian number from bytes, byte 0 most significant (R14). -/
def beNat : Bytes → Nat
  | bs => bs.foldl (fun a b => a * 256 + b.toNat) 0

/-- `n` bytes of a number, most significant first (R14). -/
def natBE : Nat → Nat → Bytes
  | 0, _ => []
  | n + 1, v => BitVec.ofNat 8 (v / 256 ^ n) :: natBE n v

/-- Little-endian bytes of a number, and the number of little-endian bytes. -/
def natLE (n v : Nat) : Bytes := (natBE n v).reverse
def leNat (bs : Bytes) : Nat := beNat bs.reverse

/-- Bytes `at` to `at + len − 1` of a format as a number; missing bytes read 0. -/
def fieldAt (bs : Bytes) (pos len : Nat) : Nat :=
  beNat (((bs.drop pos).take len) ++ List.replicate (len - ((bs.drop pos).take len).length) 0#8)

/-- Byte `i` of a format; a missing byte reads 0. -/
def byteAt (bs : Bytes) (i : Nat) : Nat := ((bs[i]?).getD 0#8).toNat

/-- The bits of a byte, most significant first (R14). -/
def byteBits (b : Byte) : List Bool := (List.range 8).map (fun i => b.getLsbD (7 - i))

/-- The bits of a format in line order (R14). -/
def bitsOfBytes (bs : Bytes) : List Bool := bs.flatMap byteBits

/-- A number from bits, first bit most significant. -/
def bitsNat (bs : List Bool) : Nat := bs.foldl (fun a b => a * 2 + b2n b) 0

/-- Words of a table entry from bytes, byte 0 in word 0 [31:24]. -/
def wordsBE (n : Nat) (bs : Bytes) : List Word :=
  (List.range n).map (fun i => BitVec.ofNat 32 (fieldAt bs (4 * i) 4))

/-- The bytes of words, byte 0 in word 0 [31:24]. -/
def bytesBE (ws : List Word) : Bytes := ws.flatMap (fun w => natBE 4 w.toNat)

/-- CRC over bits, most significant bit first: polynomial of degree `n`, register `r`. -/
def crcBits (n poly : Nat) : List Bool → Nat → Nat
  | [], r => r
  | b :: bs, r =>
    let top := (r / 2 ^ (n - 1) % 2 == 1) != b
    let r' := r * 2 % 2 ^ n
    crcBits n poly bs (if top then r' ^^^ poly else r')

/-- CRC over bytes, each byte most significant bit first. -/
def crcMSB (n poly init : Nat) (bs : Bytes) : Nat := crcBits n poly (bitsOfBytes bs) init

end Sys2Proof.Machine
end

