-- ==== Sys2Proof/Machine/Sparse.lean ====
section
/-! DEFINITION. Sparse data by key, in one canonical form: keys strictly rising, no entry equal to the default the
key has. Registers, table words and counters are kept so. -/

namespace Sys2Proof.Machine

/-- What key `k` holds: its entry, or `none` where it is not listed. -/
def Sparse.find? {α : Type} : Sparse α → Nat → Option α
  | [], _ => none
  | (k', v) :: m, k => if k' = k then some v else Sparse.find? m k

/-- What key `k` reads as, `d` being what an unlisted `k` reads as. -/
def Sparse.get {α : Type} (d : α) (m : Sparse α) (k : Nat) : α :=
  (Sparse.find? m k).getD d

/-- The map without key `k`. -/
def Sparse.del {α : Type} (k : Nat) : Sparse α → Sparse α
  | [] => []
  | e :: m => if e.1 = k then Sparse.del k m else e :: Sparse.del k m

/-- An entry put before the first larger key. -/
def Sparse.ins {α : Type} (k : Nat) (v : α) : Sparse α → Sparse α
  | [] => [(k, v)]
  | e :: m => if k < e.1 then (k, v) :: e :: m else e :: Sparse.ins k v m

/-- Key `k` set to `v`; storing the default `d` removes the entry. -/
def Sparse.put {α : Type} [DecidableEq α] (d : α) (k : Nat) (v : α) (m : Sparse α) : Sparse α :=
  if v = d then Sparse.del k m else Sparse.ins k v (Sparse.del k m)

/-- Every key of `m` is at least `lo` and the keys rise strictly. -/
def Sparse.rising {α : Type} : Nat → Sparse α → Bool
  | _, [] => true
  | lo, (k, _) :: m => decide (lo ≤ k) && Sparse.rising (k + 1) m

/-- No entry of `m` equals the default of its key. -/
def Sparse.lean {α : Type} [DecidableEq α] (d : Nat → α) : Sparse α → Bool
  | [] => true
  | (k, v) :: m => decide (v ≠ d k) && Sparse.lean d m

/-- The canonical form: equal maps are equal data. -/
def Sparse.wf {α : Type} [DecidableEq α] (d : Nat → α) (m : Sparse α) : Bool :=
  Sparse.rising 0 m && Sparse.lean d m

/-- The sum of `f` over the listed entries. -/
def Sparse.sumBy {α : Type} (f : α → Nat) : Sparse α → Nat
  | [] => 0
  | (_, v) :: m => f v + Sparse.sumBy f m

/-- The keys listed. -/
def Sparse.keys {α : Type} (m : Sparse α) : List Nat := m.map Prod.fst

end Sys2Proof.Machine
end

