-- ==== Sys2Proof/Machine/RegMap.lean ====
section
/-! DEFINITION. The pages (Table 2.1), the blocks, and for every register of a block its reset value and which of
its bits each access code of Table 0.3 covers, as the register tables of the spec give them. -/

namespace Sys2Proof.Machine

/-- The blocks that own pages or register windows. -/
inductive Blk where
  | sys
  | keep
  | clk
  | sup
  | lehr
  | time
  | rx
  | tx
  | frm
  | hal
  | act
  | dual
  | grt
  | usch
  | pol
  | lsec
  | sto
  | xtr
  | swc
  | dsch
  | mir
  | cls
  | flow
  | uniq
  | lane
  | hif
  | dma
  | core
  | tsk
  | ccry
  | kst
  | flsh
  | cnt
  | pm
  | d2d
  | pin
  | ring
  deriving DecidableEq, Repr

/-- A register of a block: byte offset, reset value, and the bits under each access code
of Table 0.3. -/
structure RegInfo where
  off : Nat
  reset : Nat
  rw : Nat
  rwe : Nat
  rwt : Nat
  wo : Nat
  deriving DecidableEq, Repr

/-- The registers of the common page header (Table 2.4). -/
def HDR.regs : List RegInfo := [
  ⟨0x000, 0x01010000, 0x00000000, 0x00000000, 0x00000000, 0x00000000⟩,
  ⟨0x004, 0x00000000, 0x00000000, 0x00000000, 0x00000000, 0x00000000⟩,
  ⟨0x008, 0x00000000, 0x00000003, 0x00000000, 0x00000000, 0x00000000⟩,
  ⟨0x00C, 0x00000000, 0x00000000, 0x00000000, 0x00000000, 0x80000000⟩,
  ⟨0x010, 0x00000000, 0x00000000, 0x00000000, 0x00000000, 0x00000000⟩,
  ⟨0x014, 0x00000000, 0x00FFFFFF, 0x00000000, 0x00000000, 0x00000000⟩,
  ⟨0x018, 0x00000000, 0x800007FF, 0x00000000, 0x00000000, 0x00000000⟩,
  ⟨0x01C, 0x00000000, 0x1FFFFFFF, 0x00000000, 0x00000000, 0x00000000⟩,
  ⟨0x020, 0x00000000, 0xFFFFFFFF, 0x00000000, 0x00000000, 0x00000000⟩,
  ⟨0x024, 0x00000100, 0x0000FFFF, 0x00000000, 0x00000000, 0x00000000⟩,
  ⟨0x028, 0x00000000, 0x00000000, 0x00000000, 0x00000000, 0x80000000⟩]

/-- The registers of block SYS. -/
def SYS.regs : List RegInfo := [
  ⟨0x030, 0x00000000, 0x00000000, 0x00000000, 0x00000000, 0x00000000⟩,
  ⟨0x034, 0x00000000, 0x00000000, 0x00000000, 0x00000000, 0x00000000⟩,
  ⟨0x038, 0x00000000, 0x00000000, 0x00000000, 0x00000000, 0x80000000⟩,
  ⟨0x03C, 0x00000000, 0x00000000, 0x00000000, 0x00000000, 0x000001FF⟩,
  ⟨0x040, 0x00000000, 0x00000000, 0x00000000, 0x00000000, 0x00000000⟩]

/-- The registers of block KEEP. -/
def KEEP.regs : List RegInfo := [
  ⟨0x030, 0x00000000, 0x00000000, 0x00000000, 0xFFFFFFFF, 0x00000000⟩,
  ⟨0x034, 0x00000000, 0x00000000, 0x00000000, 0x000FFFFF, 0x00000000⟩,
  ⟨0x038, 0x00000000, 0x00000000, 0x00000000, 0x00000000, 0x00000000⟩,
  ⟨0x03C, 0x00000000, 0x00000000, 0x00000000, 0x00000000, 0x00000000⟩,
  ⟨0x040, 0x00000000, 0x00000000, 0x00000000, 0x00000000, 0x03FFFFFF⟩,
  ⟨0x044, 0x00000000, 0x00000000, 0x00000000, 0x00000000, 0x00000000⟩,
  ⟨0x048, 0x00000000, 0x00000000, 0x00000000, 0x00000000, 0x00000000⟩,
  ⟨0x04C, 0x00000000, 0x00000000, 0x00000000, 0x00000000, 0x00000000⟩,
  ⟨0x050, 0x00000000, 0x00000000, 0x00000000, 0x00000000, 0x00000000⟩]

/-- The registers of block CLK. -/
def CLK.regs : List RegInfo := [
  ⟨0x030, 0x00000000, 0x00000000, 0x00000000, 0x00000000, 0x00000000⟩,
  ⟨0x034, 0x00000000, 0x00000007, 0x00000000, 0x00000000, 0x00000000⟩,
  ⟨0x038, 0x002840FA, 0x00000000, 0x00FFF3FF, 0x00000000, 0x00000000⟩,
  ⟨0x03C, 0x0000000A, 0x0000FFFF, 0x00000000, 0x00000000, 0x00000000⟩,
  ⟨0x040, 0x00000010, 0x00000000, 0x000000FF, 0x00000000, 0x00000000⟩,
  ⟨0x044, 0x00000000, 0x00000000, 0x00000000, 0x00000000, 0x00000000⟩,
  ⟨0x048, 0x00000000, 0x00000000, 0x00000000, 0x00000000, 0x00000000⟩]

/-- The registers of block SUP. -/
def SUP.regs : List RegInfo := [
  ⟨0x030, 0x00000000, 0x00000000, 0x00000000, 0x00000000, 0x00000000⟩,
  ⟨0x034, 0x07D03202, 0x00000000, 0xFFFFFFFF, 0x00000000, 0x00000000⟩,
  ⟨0x038, 0x00000000, 0x00000000, 0x00000000, 0x00000000, 0x00000000⟩]

/-- The registers of block LEHR. -/
def LEHR.regs : List RegInfo := [
  ⟨0x030, 0x00041C20, 0x0003FFFF, 0x00040000, 0x00000000, 0x00000000⟩,
  ⟨0x034, 0x00000A28, 0x0000FFFF, 0x00000000, 0x00000000, 0x00000000⟩,
  ⟨0x038, 0x00000000, 0x00000000, 0x00000000, 0x00000000, 0x00000000⟩,
  ⟨0x03C, 0x02EE02EE, 0x00000000, 0x00000000, 0x00000000, 0x00000000⟩,
  ⟨0x040, 0x00000000, 0x00000000, 0x00000000, 0x00000000, 0x00000001⟩]

/-- The registers of block TIME. -/
def TIME.regs : List RegInfo := [
  ⟨0x030, 0x00000000, 0x00000000, 0x00000000, 0x00000000, 0x00000000⟩,
  ⟨0x034, 0x00000000, 0x00000000, 0x00000000, 0x00000000, 0x00000000⟩,
  ⟨0x038, 0x00000000, 0x00000000, 0x00000000, 0x00000000, 0x00000000⟩,
  ⟨0x03C, 0x00000000, 0x00000000, 0x00000000, 0x00000000, 0x00000000⟩,
  ⟨0x040, 0x00000000, 0x00000000, 0x00000000, 0x00000000, 0x00000000⟩,
  ⟨0x044, 0x00640000, 0x00000000, 0xFFFF001F, 0x00000000, 0x00000000⟩,
  ⟨0x048, 0x00000000, 0xFFFFFFFF, 0x00000000, 0x00000000, 0x00000000⟩,
  ⟨0x04C, 0x00000000, 0xFFFFFFFF, 0x00000000, 0x00000000, 0x00000000⟩,
  ⟨0x050, 0x00000000, 0xFFFFFFFF, 0x00000000, 0x00000000, 0x00000000⟩,
  ⟨0x054, 0x00000000, 0x00000000, 0x00000000, 0x00000000, 0x00000000⟩,
  ⟨0x058, 0x00000000, 0xFFFFFFFF, 0x00000000, 0x00000000, 0x00000000⟩,
  ⟨0x05C, 0x00000000, 0xFFFFFFFF, 0x00000000, 0x00000000, 0x00000000⟩,
  ⟨0x060, 0x00000000, 0xFFFFFFFF, 0x00000000, 0x00000000, 0x00000000⟩,
  ⟨0x064, 0x00000000, 0xFFFFFFFF, 0x00000000, 0x00000000, 0x00000000⟩,
  ⟨0x068, 0x00000000, 0x00000000, 0x00000000, 0x00000000, 0x00000003⟩,
  ⟨0x06C, 0x00140064, 0x00000000, 0xFFFFFFFF, 0x00000000, 0x00000000⟩,
  ⟨0x070, 0x00000118, 0x00000000, 0x000007FF, 0x00000000, 0x00000000⟩,
  ⟨0x074, 0x00000000, 0x07FF0000, 0x00000000, 0x00000000, 0x00000000⟩]

/-- The registers of block RX. -/
def RX.regs : List RegInfo := [
  ⟨0x030, 0x07D00000, 0x00000000, 0xFFFFFFFF, 0x00000000, 0x00000000⟩,
  ⟨0x034, 0x00000064, 0x00000000, 0x0000FFFF, 0x00000000, 0x00000000⟩,
  ⟨0x038, 0x00000110, 0x0000011F, 0x00000000, 0x00000000, 0x00000000⟩,
  ⟨0x03C, 0x00000000, 0x00000000, 0x81FF0000, 0x00000000, 0x00000000⟩,
  ⟨0x040, 0x00000000, 0x00000000, 0x00000000, 0x00000000, 0x00000000⟩,
  ⟨0x044, 0x80000000, 0x00000000, 0x00000000, 0x00000000, 0x00000000⟩,
  ⟨0x048, 0x00000F00, 0x00000000, 0x00000000, 0x00000000, 0x00000000⟩,
  ⟨0x04C, 0x00000100, 0x0000FFFF, 0x00000000, 0x00000000, 0x00000000⟩,
  ⟨0x050, 0x00000000, 0x00000000, 0x00000000, 0x00000000, 0x00000000⟩,
  ⟨0x054, 0x00000000, 0x00000000, 0x00000000, 0x00000000, 0x00000000⟩,
  ⟨0x058, 0x00000000, 0x00000000, 0x00000000, 0x00000000, 0x00000000⟩,
  ⟨0x05C, 0x00000000, 0x00000000, 0x00000000, 0x00000000, 0x00000000⟩,
  ⟨0x060, 0x00000000, 0x01FFFFFF, 0x00000000, 0x00000000, 0x02000000⟩,
  ⟨0x064, 0x00000000, 0x00000000, 0x00000000, 0x00000000, 0x00000000⟩,
  ⟨0x068, 0x00000004, 0x0000000C, 0x00000000, 0x00000000, 0x00000000⟩]

/-- The registers of block TX. -/
def TX.regs : List RegInfo := [
  ⟨0x030, 0x0000FFB2, 0x00000000, 0x00FFFFFF, 0x00000000, 0x00000000⟩,
  ⟨0x034, 0x0000F300, 0x00000000, 0x00FFFFFF, 0x00000000, 0x00000000⟩,
  ⟨0x038, 0x0000F300, 0x00000000, 0x00FFFFFF, 0x00000000, 0x00000000⟩,
  ⟨0x03C, 0x00000000, 0x00000000, 0x00000000, 0x00000003, 0x00000000⟩,
  ⟨0x040, 0x003C001E, 0x0FFF0FFF, 0x00000000, 0x00000000, 0x00000000⟩,
  ⟨0x044, 0x00000000, 0x00000000, 0x00000000, 0x00000000, 0x00000000⟩,
  ⟨0x048, 0x00000000, 0x00000000, 0x000001FF, 0x00000000, 0x00000000⟩,
  ⟨0x04C, 0x00000000, 0x00000000, 0x00000000, 0x00000000, 0x00000000⟩,
  ⟨0x050, 0x00000000, 0x00000000, 0x00000000, 0x00000000, 0x00000001⟩,
  ⟨0x054, 0x00000000, 0xFFFFFFFF, 0x00000000, 0x00000000, 0x00000000⟩]

/-- The registers of block FRM. -/
def FRM.regs : List RegInfo := [
  ⟨0x030, 0x06C00510, 0x00000000, 0x1FFF1FFF, 0x00000000, 0x00000000⟩,
  ⟨0x034, 0x02424008, 0x00000000, 0x0FFFFFFF, 0x00000000, 0x00000000⟩,
  ⟨0x038, 0x00000000, 0x00000000, 0x00000000, 0x00000000, 0x00000000⟩,
  ⟨0x03C, 0x00000000, 0x00000000, 0x00000000, 0x00000000, 0x00000000⟩,
  ⟨0x040, 0x00000000, 0x00000000, 0x00000000, 0x00000000, 0x00000000⟩,
  ⟨0x044, 0x00000000, 0x00000000, 0x00000000, 0x00000000, 0x00000000⟩,
  ⟨0x048, 0x00000000, 0x00000000, 0x00000000, 0x00000000, 0x00000000⟩,
  ⟨0x04C, 0x00000000, 0x00000000, 0x00000000, 0x00000000, 0x00000000⟩,
  ⟨0x050, 0x00000000, 0x00000000, 0x00000000, 0x00000000, 0x00000000⟩,
  ⟨0x054, 0x000A1A32, 0x00000000, 0x000FFFF3, 0x00000000, 0x00000000⟩,
  ⟨0x058, 0x00080408, 0x00000000, 0x00FFFFFF, 0x00000000, 0x00000000⟩,
  ⟨0x05C, 0x00F42400, 0xFFFFFFFF, 0x00000000, 0x00000000, 0x00000000⟩,
  ⟨0x060, 0x00B71B00, 0xFFFFFFFF, 0x00000000, 0x00000000, 0x00000000⟩,
  ⟨0x064, 0x000186A0, 0xFFFFFFFF, 0x00000000, 0x00000000, 0x00000000⟩,
  ⟨0x068, 0x00002710, 0xFFFFFFFF, 0x00000000, 0x00000000, 0x00000000⟩,
  ⟨0x06C, 0x00000000, 0x00000000, 0x00000000, 0x00000000, 0x00000000⟩,
  ⟨0x070, 0x00000000, 0x00000000, 0x00000000, 0x00000000, 0x00000000⟩]

/-- The registers of block HAL. -/
def HAL.regs : List RegInfo := [
  ⟨0x030, 0x00400040, 0x01FF0000, 0x000001FF, 0x00000000, 0x00000000⟩,
  ⟨0x034, 0x00003003, 0x00000000, 0x0000FF0F, 0x00000000, 0x00000000⟩,
  ⟨0x038, 0x0000012C, 0x000001FF, 0x00000000, 0x00000000, 0x00000000⟩,
  ⟨0x03C, 0x00000003, 0x0000000F, 0x00000000, 0x00000000, 0x00000000⟩,
  ⟨0x040, 0x00000000, 0x00000000, 0x00000000, 0x00000000, 0x00000000⟩,
  ⟨0x044, 0x00000000, 0x00000F00, 0x00000000, 0x00000000, 0x00000000⟩,
  ⟨0x048, 0x00000000, 0x00000000, 0x00000000, 0x00000000, 0x00000303⟩,
  ⟨0x04C, 0x00000000, 0x00000000, 0x00000000, 0x00000000, 0x00000000⟩,
  ⟨0x050, 0x00000000, 0x0001FFFF, 0x00000000, 0x00000000, 0x00000000⟩,
  ⟨0x054, 0x00000000, 0x00000000, 0xFFFFFFFF, 0x00000000, 0x00000000⟩,
  ⟨0x058, 0x00000000, 0x00000000, 0xFFFFFFFF, 0x00000000, 0x00000000⟩]

/-- The registers of block ACT. -/
def ACT.regs : List RegInfo := [
  ⟨0x030, 0x00000000, 0x00000000, 0x00000000, 0x00000007, 0x00000000⟩,
  ⟨0x034, 0x00000000, 0x00000000, 0x00000000, 0x00000000, 0x00000000⟩,
  ⟨0x038, 0x00000007, 0x00000000, 0x00000007, 0x00000000, 0x00000000⟩,
  ⟨0x03C, 0x012C00C8, 0x00000000, 0xFFFFFFFF, 0x00000000, 0x00000000⟩,
  ⟨0x040, 0x00140064, 0x00000000, 0xFFFFFFFF, 0x00000000, 0x00000000⟩,
  ⟨0x044, 0x5008000A, 0x00000000, 0xFFFFFFFF, 0x00000000, 0x00000000⟩,
  ⟨0x048, 0x00000000, 0x00000000, 0x00000000, 0x00000000, 0x00000000⟩,
  ⟨0x04C, 0x00000000, 0x00000000, 0x00000000, 0x00000000, 0x00000000⟩,
  ⟨0x050, 0x00000000, 0x00000000, 0x00000000, 0x00000000, 0x00000000⟩,
  ⟨0x054, 0x00000000, 0x00000000, 0x00000000, 0x00000000, 0x00000000⟩,
  ⟨0x058, 0x00000000, 0x00000000, 0x00000000, 0x00000000, 0x00000000⟩,
  ⟨0x05C, 0x00000000, 0x00000000, 0x00000000, 0x00000000, 0x00000000⟩,
  ⟨0x060, 0x00000000, 0x00000000, 0x00000000, 0x00000000, 0x00000000⟩,
  ⟨0x064, 0x00000000, 0x00000000, 0x00000000, 0x00000000, 0x00000000⟩,
  ⟨0x068, 0x00000000, 0x00000000, 0x00000000, 0x00000000, 0x00000003⟩,
  ⟨0x06C, 0x00000000, 0x00000000, 0x00000000, 0x00000000, 0x00000000⟩,
  ⟨0x070, 0x00000000, 0x00000000, 0x00000000, 0x00000000, 0x00000000⟩,
  ⟨0x074, 0x00000000, 0x00000000, 0x00000000, 0xFFFFFFFF, 0x00000000⟩,
  ⟨0x078, 0x00000000, 0x00000000, 0x00000000, 0xFFFFFFFF, 0x00000000⟩,
  ⟨0x07C, 0x00000000, 0x00000000, 0x00000000, 0xFFFFFFFF, 0x00000000⟩,
  ⟨0x080, 0x00000000, 0x00000000, 0x00000000, 0xFFFFFFFF, 0x00000000⟩,
  ⟨0x084, 0x00000000, 0x00000000, 0x00000000, 0xFFFFFFFF, 0x00000000⟩,
  ⟨0x088, 0x00000000, 0x00000000, 0x00000000, 0xFFFFFFFF, 0x00000000⟩,
  ⟨0x08C, 0x00000000, 0x00000000, 0x00000000, 0xFFFFFFFF, 0x00000000⟩,
  ⟨0x090, 0x00000000, 0x00000000, 0x00000000, 0xFFFFFFFF, 0x00000000⟩]

/-- The registers of block DUAL. -/
def DUAL.regs : List RegInfo := [
  ⟨0x030, 0x03E80083, 0x00000000, 0xFFFF00F7, 0x00000000, 0x00000000⟩,
  ⟨0x034, 0x00010064, 0x0001FFFF, 0x00000000, 0x00000000, 0x00000000⟩,
  ⟨0x038, 0x0000012C, 0x0000FFFF, 0x00000000, 0x00000000, 0x00000000⟩,
  ⟨0x03C, 0x00000000, 0x00000000, 0x00000000, 0x00000000, 0x00000000⟩,
  ⟨0x040, 0x00000000, 0x00000000, 0x00000000, 0x00000000, 0x00000000⟩,
  ⟨0x044, 0x00000000, 0x00000000, 0x00000000, 0x00000000, 0x00000000⟩,
  ⟨0x048, 0x00000000, 0x00000000, 0x00000000, 0x00000000, 0x00000000⟩,
  ⟨0x04C, 0x00000000, 0x00000000, 0x00000000, 0x00000000, 0x00000000⟩,
  ⟨0x050, 0x00000000, 0x00000000, 0x00000000, 0x00000000, 0x00000000⟩,
  ⟨0x054, 0x00000000, 0x00000000, 0x00000000, 0x00000000, 0x00000000⟩,
  ⟨0x058, 0x00000000, 0x00000000, 0x00000000, 0x00000000, 0x00000000⟩,
  ⟨0x05C, 0x00000000, 0x00000000, 0x00000000, 0x00000000, 0x00000000⟩,
  ⟨0x060, 0x00000000, 0x00000000, 0x00000000, 0x00000000, 0x00000000⟩,
  ⟨0x064, 0x00000000, 0x00000000, 0x00000000, 0x00000000, 0x00000001⟩]

/-- The registers of block GRT. -/
def GRT.regs : List RegInfo := [
  ⟨0x030, 0x0040001E, 0x00000000, 0x00FF00FF, 0x00000000, 0x00000000⟩,
  ⟨0x034, 0x00000000, 0x00000000, 0x00000000, 0x00000000, 0x00000000⟩,
  ⟨0x038, 0x00000000, 0x00000000, 0x00000000, 0x00000000, 0x00000000⟩]

/-- The registers of block USCH. -/
def USCH.regs : List RegInfo := [
  ⟨0x030, 0x00000001, 0x00000000, 0x00000007, 0x00000000, 0x00000000⟩,
  ⟨0x034, 0x00010000, 0xFFFFFFFF, 0x00000000, 0x00000000, 0x00000000⟩,
  ⟨0x038, 0x00000008, 0x0000FFFF, 0x00000000, 0x00000000, 0x00000000⟩,
  ⟨0x03C, 0x00100040, 0x00000000, 0xFFFFFFFF, 0x00000000, 0x00000000⟩,
  ⟨0x040, 0x00000000, 0x00000000, 0x00000000, 0x00000000, 0x00000000⟩]

/-- The registers of block POL. -/
def POL.regs : List RegInfo := [
  ⟨0x030, 0x00000000, 0x00000000, 0x00000000, 0x00000000, 0x00000000⟩]

/-- The registers of block LSEC. -/
def LSEC.regs : List RegInfo := [
  ⟨0x030, 0x00000000, 0x00000000, 0x00000000, 0x00000000, 0x00000000⟩,
  ⟨0x034, 0x00000000, 0x00000000, 0x00000000, 0x00000000, 0x00000000⟩]

/-- The registers of block STO. -/
def STO.regs : List RegInfo := [
  ⟨0x030, 0x0A000000, 0x00000000, 0x00000000, 0x00000000, 0x00000000⟩,
  ⟨0x034, 0x00100000, 0x0FFFFFFF, 0x00000000, 0x00000000, 0x00000000⟩,
  ⟨0x038, 0x0A000000, 0x00000000, 0x00000000, 0x00000000, 0x00000000⟩,
  ⟨0x03C, 0x00000000, 0x00000000, 0x00000000, 0x00000000, 0x00000000⟩,
  ⟨0x040, 0x0000000A, 0x000000FF, 0x00000000, 0x00000000, 0x00000000⟩,
  ⟨0x044, 0x00000000, 0x00000000, 0x00000000, 0x00000000, 0x80000000⟩,
  ⟨0x048, 0x00000000, 0x00000000, 0x00000000, 0x00000000, 0x00000000⟩,
  ⟨0x04C, 0x00000000, 0x00000000, 0x00000000, 0x00000000, 0x00000000⟩]

/-- The registers of block XTR. -/
def XTR.regs : List RegInfo := [
  ⟨0x030, 0x00000000, 0x00000000, 0x00000000, 0x00000000, 0x00000000⟩,
  ⟨0x034, 0x00000000, 0x00000000, 0x00000000, 0x00000000, 0x00000000⟩,
  ⟨0x038, 0x00000000, 0x00000000, 0x00000000, 0x00000000, 0x00000000⟩,
  ⟨0x03C, 0x00000000, 0x00000000, 0x00000000, 0x00000000, 0x00000000⟩]

/-- The registers of block SWC. -/
def SWC.regs : List RegInfo := [
  ⟨0x030, 0x00002400, 0x00000000, 0x00003FFF, 0x00000000, 0x00000000⟩]

/-- The registers of block DSCH. -/
def DSCH.regs : List RegInfo := [
  ⟨0x030, 0x00000000, 0x007FFFFF, 0x00000000, 0x00000000, 0x00000000⟩,
  ⟨0x034, 0x00000000, 0x00000000, 0x00000000, 0x00000000, 0x00000000⟩]

/-- The registers of block MIR. -/
def MIR.regs : List RegInfo := [
  ⟨0x030, 0x00001000, 0x0FFFFFFF, 0x00000000, 0x00000000, 0x00000000⟩]

/-- The registers of block CLS. -/
def CLS.regs : List RegInfo := [
  ⟨0x030, 0x00029100, 0x00000000, 0x0003FFFF, 0x00000000, 0x00000000⟩,
  ⟨0x034, 0xFFFFFFFF, 0x00000000, 0xFFFFFFFF, 0x00000000, 0x00000000⟩,
  ⟨0x038, 0x00000064, 0x00000000, 0x000003FF, 0x00000000, 0x00000000⟩,
  ⟨0x03C, 0x00000000, 0x1FFF1FFF, 0x00000000, 0x00000000, 0x00000000⟩,
  ⟨0x040, 0x00000000, 0x00001FFF, 0x00000000, 0x00000000, 0x00000000⟩,
  ⟨0x044, 0x00000000, 0x00000000, 0x00000000, 0x00000000, 0x00000000⟩]

/-- The registers of block FLOW. -/
def FLOW.regs : List RegInfo := [
  ⟨0x030, 0x00000007, 0x00000000, 0x00000007, 0x00000000, 0x00000000⟩,
  ⟨0x034, 0x00000000, 0x00000000, 0x00000000, 0x00000000, 0x00000000⟩,
  ⟨0x038, 0x000003E8, 0x00000000, 0x0000FFFF, 0x00000000, 0x00000000⟩,
  ⟨0x03C, 0x00000000, 0x00000000, 0x00000000, 0x00000000, 0x00000003⟩,
  ⟨0x040, 0x00000000, 0x00000000, 0x00000000, 0x00000000, 0x00000000⟩]

/-- The registers of block UNIQ. -/
def UNIQ.regs : List RegInfo := [
  ⟨0x000, 0x00000000, 0x00000FFF, 0x00000000, 0x00000000, 0x00000000⟩,
  ⟨0x004, 0x00002400, 0x00003FFF, 0x00000000, 0x00000000, 0x00000000⟩,
  ⟨0x008, 0xFFFFFF00, 0xFFFFFF03, 0x00000000, 0x00000000, 0x00000000⟩,
  ⟨0x00C, 0x00643C00, 0xFFFFFF01, 0x00000000, 0x00000000, 0x00000000⟩,
  ⟨0x010, 0x00000000, 0x00000000, 0x00000000, 0x00000000, 0x00000000⟩]

/-- The registers of block LANE. -/
def LANE.regs : List RegInfo := [
  ⟨0x030, 0x00000000, 0x00000000, 0x00000000, 0x00000000, 0x00000000⟩,
  ⟨0x034, 0x00000000, 0x00000000, 0x00000000, 0x00000000, 0x00000000⟩,
  ⟨0x038, 0x00000000, 0x00000000, 0x00000000, 0x00000000, 0x0000001F⟩,
  ⟨0x03C, 0x00000100, 0x0000FFFF, 0x00000000, 0x00000000, 0x00000000⟩,
  ⟨0x040, 0x00001280, 0x00000000, 0x00000000, 0x00000000, 0x00000000⟩]

/-- The registers of block HIF. -/
def HIF.regs : List RegInfo := [
  ⟨0x030, 0x00000000, 0x00000000, 0x00000000, 0x00000000, 0x00000000⟩,
  ⟨0x034, 0x00000000, 0x00000000, 0x00000000, 0x00000000, 0x00000000⟩,
  ⟨0x038, 0x03E80A02, 0xFFFFFF0F, 0x00000000, 0x00000000, 0x00000000⟩,
  ⟨0x03C, 0x00000010, 0x0000FFFF, 0x00000000, 0x00000000, 0x00000000⟩,
  ⟨0x040, 0x88648864, 0xFFFFFFFF, 0x00000000, 0x00000000, 0x00000000⟩,
  ⟨0x044, 0x00000000, 0x00000000, 0x00000000, 0x00000000, 0x00000700⟩,
  ⟨0x048, 0x00000000, 0x00000000, 0x00000000, 0x00000000, 0x00000000⟩,
  ⟨0x04C, 0x00000000, 0x00000000, 0x00000000, 0x00000000, 0x00000000⟩,
  ⟨0x050, 0x00000000, 0x00000000, 0xFFFFFFFF, 0x00000000, 0x00000000⟩,
  ⟨0x054, 0x00000010, 0x00000000, 0xFFFFFFFF, 0x00000000, 0x00000000⟩,
  ⟨0x058, 0xF0000000, 0x00000000, 0xFFFFFFFF, 0x00000000, 0x00000000⟩,
  ⟨0x05C, 0x0000000F, 0x00000000, 0xFFFFFFFF, 0x00000000, 0x00000000⟩]

/-- The registers of block DMA. -/
def DMA.regs : List RegInfo := [
  ⟨0x030, 0x00000000, 0x00000000, 0x00000000, 0x00000000, 0x00000000⟩,
  ⟨0x034, 0x00000000, 0x00000000, 0x00000000, 0x00000000, 0x00000000⟩]

/-- The registers of block CORE. -/
def CORE.regs : List RegInfo := [
  ⟨0x030, 0x00000000, 0x00000000, 0x00000000, 0x00000000, 0x00000000⟩,
  ⟨0x034, 0x00000064, 0x00000000, 0x0000FFFF, 0x00000000, 0x00000000⟩,
  ⟨0x038, 0x00000000, 0x00000000, 0x00000000, 0x00000000, 0x0000FFFF⟩,
  ⟨0x03C, 0x00000000, 0x00000000, 0x00000000, 0x00000000, 0x00000000⟩,
  ⟨0x040, 0x00000000, 0x00000000, 0x00000000, 0x00000000, 0x0000000F⟩,
  ⟨0x044, 0x000007D0, 0x00000000, 0x0000FFFF, 0x00000000, 0x00000000⟩,
  ⟨0x048, 0x00000000, 0x00000000, 0x00000000, 0x00000000, 0x00000000⟩]

/-- The registers of block TSK. -/
def TSK.regs : List RegInfo := [
  ⟨0x030, 0x00000000, 0x00000000, 0x00000000, 0x00000000, 0x00000000⟩,
  ⟨0x034, 0x000003E8, 0x00000000, 0x0000FFFF, 0x00000000, 0x00000000⟩,
  ⟨0x038, 0x00000000, 0x00000000, 0x00000000, 0x00000000, 0x00007FFF⟩,
  ⟨0x03C, 0x00000000, 0x00000000, 0x00000000, 0x00000000, 0x00000000⟩]

/-- The registers of block CCRY. -/
def CCRY.regs : List RegInfo := [
  ⟨0x030, 0x00000000, 0x00000000, 0x00000001, 0x00000000, 0x00000000⟩,
  ⟨0x034, 0x00000000, 0x00000000, 0x00000000, 0x00000000, 0x00000000⟩,
  ⟨0x038, 0x00000000, 0x00000000, 0x00000000, 0x00000000, 0x000000FF⟩,
  ⟨0x03C, 0x00000000, 0x007FFFFF, 0x00000000, 0x00000000, 0x00000000⟩]

/-- The registers of block KST. -/
def KST.regs : List RegInfo := [
  ⟨0x030, 0x00000000, 0x00000000, 0x00000000, 0x00000000, 0x00000000⟩,
  ⟨0x034, 0x00000000, 0x00000000, 0x00000000, 0x00000000, 0x00000000⟩,
  ⟨0x038, 0x00000000, 0x00000000, 0x00000000, 0x00000000, 0x00000003⟩]

/-- The registers of block FLSH. -/
def FLSH.regs : List RegInfo := [
  ⟨0x030, 0x00000000, 0x00000000, 0x00000000, 0x00000000, 0x00000000⟩,
  ⟨0x034, 0x00000000, 0x00000000, 0x00000000, 0x00000000, 0x00000000⟩,
  ⟨0x038, 0x00000000, 0x00000000, 0x00000000, 0x00000000, 0x0000000F⟩,
  ⟨0x03C, 0x00000000, 0xFFFFFFFF, 0x00000000, 0x00000000, 0x00000000⟩,
  ⟨0x040, 0x00000000, 0x00FFFFFF, 0x00000000, 0x00000000, 0x00000000⟩,
  ⟨0x044, 0x00000000, 0x007FFFFF, 0x00000000, 0x00000000, 0x00000000⟩,
  ⟨0x048, 0x00000000, 0x00000000, 0x00000000, 0x00000000, 0x00000000⟩,
  ⟨0x04C, 0x00000000, 0x00000000, 0x00000000, 0x00000000, 0x00000003⟩]

/-- The registers of block CNT. -/
def CNT.regs : List RegInfo := [
  ⟨0x030, 0x00000000, 0x00000000, 0x00000000, 0x00000000, 0x00000007⟩,
  ⟨0x034, 0x00000000, 0x00000000, 0x00000000, 0x00000000, 0x00000000⟩,
  ⟨0x038, 0x00000000, 0x00000003, 0x00000000, 0x00000000, 0x00000000⟩,
  ⟨0x03C, 0x00005E00, 0x00000000, 0x00000000, 0x00000000, 0x00000000⟩,
  ⟨0x040, 0x00000000, 0xFFFFFFFF, 0x00000000, 0x00000000, 0x00000000⟩,
  ⟨0x044, 0x00000000, 0xFFFFFFFF, 0x00000000, 0x00000000, 0x00000000⟩,
  ⟨0x048, 0x00000000, 0xFFFFFFFF, 0x00000000, 0x00000000, 0x00000000⟩,
  ⟨0x04C, 0x00000000, 0xFFFFFFFF, 0x00000000, 0x00000000, 0x00000000⟩,
  ⟨0x050, 0x00000000, 0x00000000, 0x00000000, 0x00000000, 0x00000000⟩,
  ⟨0x054, 0x00000000, 0x00000000, 0x00000000, 0x00000000, 0x00000000⟩,
  ⟨0x058, 0x00000000, 0x00000000, 0x00000000, 0x00000000, 0x00000000⟩,
  ⟨0x05C, 0x00000000, 0x00000000, 0x00000000, 0x00000000, 0x00000000⟩]

/-- The registers of block PM. -/
def PM.regs : List RegInfo := [
  ⟨0x030, 0x00000000, 0x00000000, 0x00000000, 0x00000000, 0x00000000⟩,
  ⟨0x034, 0x00000000, 0x00000000, 0x00000000, 0x00000000, 0x00000000⟩]

/-- The registers of block D2D. -/
def D2D.regs : List RegInfo := [
  ⟨0x030, 0x00000000, 0x00000000, 0x00000000, 0x00000000, 0x00000000⟩,
  ⟨0x034, 0x00000038, 0x00000000, 0x000000FF, 0x00000000, 0x00000000⟩,
  ⟨0x038, 0x00000000, 0x00000000, 0x00000000, 0x00000000, 0x00000000⟩]

/-- The registers of block PIN. -/
def PIN.regs : List RegInfo := [
  ⟨0x030, 0x000303E8, 0x00000000, 0x0003FFFF, 0x00000000, 0x00000000⟩,
  ⟨0x034, 0x00000000, 0x00000000, 0x00000000, 0x00000000, 0x00000000⟩,
  ⟨0x038, 0x00000000, 0x00000000, 0x00000000, 0x00000000, 0x000003FF⟩]

/-- The registers of block RING. -/
def RING.regs : List RegInfo := [
  ⟨0x000, 0x00000000, 0xFFFFFFFF, 0x00000000, 0x00000000, 0x00000000⟩,
  ⟨0x004, 0x00000000, 0xFFFFFFFF, 0x00000000, 0x00000000, 0x00000000⟩,
  ⟨0x008, 0x00000000, 0xFFFFFFFF, 0x00000000, 0x00000000, 0x00000000⟩,
  ⟨0x00C, 0x00000000, 0xFFFFFFFF, 0x00000000, 0x00000000, 0x00000000⟩,
  ⟨0x010, 0x00000018, 0xFFFF3F3F, 0x00000000, 0x00000000, 0x00000000⟩,
  ⟨0x014, 0x00000000, 0x0000FFFF, 0x00000000, 0x00000000, 0x00000000⟩,
  ⟨0x018, 0x00000000, 0x00000000, 0x00000000, 0x00000000, 0x00000000⟩,
  ⟨0x01C, 0x00000000, 0x00000000, 0x00000000, 0x00000000, 0x00000300⟩]


/-! Pages. -/

/-- Page numbers of Table 2.1. -/
abbrev pgSYS : Nat := 0x00
abbrev pgKEEP : Nat := 0x01
abbrev pgCLK : Nat := 0x02
abbrev pgSUP : Nat := 0x03
abbrev pgLEHR : Nat := 0x04
abbrev pgTIME : Nat := 0x05
abbrev pgDUAL : Nat := 0x14
abbrev pgUSCH : Nat := 0x17
abbrev pgPOL : Nat := 0x18
abbrev pgLSEC : Nat := 0x19
abbrev pgSTO : Nat := 0x1A
abbrev pgXTR : Nat := 0x1B
abbrev pgSWC : Nat := 0x1C
abbrev pgDSCH : Nat := 0x1D
abbrev pgMIR : Nat := 0x1E
abbrev pgCLS : Nat := 0x1F
abbrev pgFLOW : Nat := 0x20
abbrev pgLANE : Nat := 0x25
abbrev pgHIF : Nat := 0x26
abbrev pgDMA : Nat := 0x27
abbrev pgCORE : Nat := 0x28
abbrev pgTSK : Nat := 0x29
abbrev pgCCRY : Nat := 0x2A
abbrev pgKST : Nat := 0x2B
abbrev pgFLSH : Nat := 0x2C
abbrev pgCNT : Nat := 0x2D
abbrev pgPM : Nat := 0x2E
abbrev pgD2D : Nat := 0x2F
abbrev pgPIN : Nat := 0x30

/-- Instance numbers of the receivers and framers (Table 2.1). -/
def rxIx : Rx → Nat
  | .a0 => 0
  | .a1 => 1
  | .b0 => 2
  | .b1 => 3

/-- Instance numbers of the per-tree blocks (Table 2.1). -/
def treeIx : Tree → Nat
  | .a => 0
  | .b => 1

/-- Pages RXA0 to RXB1. -/
def pgRX (r : Rx) : Nat := 0x06 + rxIx r
/-- Pages TXA and TXB. -/
def pgTX (t : Tree) : Nat := 0x0A + treeIx t
/-- Pages FRMA0 to FRMB1. -/
def pgFRM (r : Rx) : Nat := 0x0C + rxIx r
/-- Pages HALA and HALB. -/
def pgHAL (t : Tree) : Nat := 0x10 + treeIx t
/-- Pages ACTA and ACTB. -/
def pgACT (t : Tree) : Nat := 0x12 + treeIx t
/-- Pages GRTA and GRTB. -/
def pgGRT (t : Tree) : Nat := 0x15 + treeIx t
/-- Pages UNIQ0 to UNIQ3; port p is slot p mod 4 of page ⌊p/4⌋. -/
def pgUNIQ (port : Nat) : Nat := 0x21 + port / 4 % 4
/-- The OFE registers stand on each RX page and on each TX page (R119). -/
def pgOFE : Ofe → Nat
  | .a0 => 0x06
  | .a1 => 0x07
  | .b0 => 0x08
  | .b1 => 0x09
  | .ta => 0x0A
  | .tb => 0x0B

/-- The number o of an OFE, by which its pins are indexed (R595), and the OFE of a number. -/
def ofeIx : Ofe → Nat
  | .a0 => 0
  | .a1 => 1
  | .b0 => 2
  | .b1 => 3
  | .ta => 4
  | .tb => 5
def ofeOf (o : Nat) : Ofe :=
  match o with
  | 0 => .a0
  | 1 => .a1
  | 2 => .b0
  | 3 => .b1
  | 4 => .ta
  | _ => .tb

/-- The tree a receiver is on (R16). -/
def rxTree : Rx → Tree
  | .a0 => .a
  | .a1 => .a
  | .b0 => .b
  | .b1 => .b

/-- The tree an OFE serves. -/
def ofeTree : Ofe → Tree
  | .a0 => .a
  | .a1 => .a
  | .b0 => .b
  | .b1 => .b
  | .ta => .a
  | .tb => .b

/-- The pin of a tree's TXx_FLT# (R595). -/
def pinFlt : Tree → Nat
  | .a => 38
  | .b => 41

/-- The other tree. -/
def otherTree : Tree → Tree
  | .a => .b
  | .b => .a

/-- The receiver of a tree on wavelength 0 or 1. -/
def treeRx : Tree → Nat → Rx
  | .a, 0 => .a0
  | .a, _ => .a1
  | .b, 0 => .b0
  | .b, _ => .b1

/-- The pseudo-page that holds what the core window keeps apart from the host window: INDIRECT_ADDR, INDIRECT_DATA
and INDIRECT_CTRL of page `p` (R61), and the FLSH command registers (R525). -/
def corePage (p : Nat) : Nat := 64 + p

/-- The pseudo-page that holds the ring blocks, FUNC_ID and FUNC_STATUS of the window of function `fn` (R456). -/
def fnPage (fn : Nat) : Nat := 256 + fn

/-- One row of Table 2.1: page, block, block code, instance, die (0 L, 1 S, 2 K), region (Table 1.3, in its order). -/
structure PageInfo where
  page : Nat
  blk : Blk
  code : Nat
  inst : Nat
  die : Nat
  region : Nat
  deriving DecidableEq, Repr

/-- Table 2.1. -/
def pageTable : List PageInfo := [
  ⟨0x00, .sys, 0x01, 0, 1, 5⟩,
  ⟨0x01, .keep, 0x02, 0, 2, 8⟩,
  ⟨0x02, .clk, 0x03, 0, 2, 8⟩,
  ⟨0x03, .sup, 0x04, 0, 2, 8⟩,
  ⟨0x04, .lehr, 0x05, 0, 2, 8⟩,
  ⟨0x05, .time, 0x06, 0, 1, 5⟩,
  ⟨0x06, .rx, 0x07, 0, 0, 0⟩,
  ⟨0x07, .rx, 0x07, 1, 0, 0⟩,
  ⟨0x08, .rx, 0x07, 2, 0, 1⟩,
  ⟨0x09, .rx, 0x07, 3, 0, 1⟩,
  ⟨0x0A, .tx, 0x08, 0, 0, 0⟩,
  ⟨0x0B, .tx, 0x08, 1, 0, 1⟩,
  ⟨0x0C, .frm, 0x09, 0, 0, 0⟩,
  ⟨0x0D, .frm, 0x09, 1, 0, 0⟩,
  ⟨0x0E, .frm, 0x09, 2, 0, 1⟩,
  ⟨0x0F, .frm, 0x09, 3, 0, 1⟩,
  ⟨0x10, .hal, 0x0A, 0, 0, 0⟩,
  ⟨0x11, .hal, 0x0A, 1, 0, 1⟩,
  ⟨0x12, .act, 0x0B, 0, 0, 0⟩,
  ⟨0x13, .act, 0x0B, 1, 0, 1⟩,
  ⟨0x14, .dual, 0x0C, 0, 1, 3⟩,
  ⟨0x15, .grt, 0x0D, 0, 0, 0⟩,
  ⟨0x16, .grt, 0x0D, 1, 0, 1⟩,
  ⟨0x17, .usch, 0x0E, 0, 1, 3⟩,
  ⟨0x18, .pol, 0x0F, 0, 1, 3⟩,
  ⟨0x19, .lsec, 0x10, 0, 1, 7⟩,
  ⟨0x1A, .sto, 0x11, 0, 1, 2⟩,
  ⟨0x1B, .xtr, 0x12, 0, 1, 2⟩,
  ⟨0x1C, .swc, 0x13, 0, 1, 3⟩,
  ⟨0x1D, .dsch, 0x14, 0, 1, 3⟩,
  ⟨0x1E, .mir, 0x15, 0, 1, 3⟩,
  ⟨0x1F, .cls, 0x16, 0, 1, 3⟩,
  ⟨0x20, .flow, 0x17, 0, 1, 3⟩,
  ⟨0x21, .uniq, 0x18, 0, 1, 4⟩,
  ⟨0x22, .uniq, 0x18, 1, 1, 4⟩,
  ⟨0x23, .uniq, 0x18, 2, 1, 4⟩,
  ⟨0x24, .uniq, 0x18, 3, 1, 4⟩,
  ⟨0x25, .lane, 0x19, 0, 1, 4⟩,
  ⟨0x26, .hif, 0x1A, 0, 1, 5⟩,
  ⟨0x27, .dma, 0x1B, 0, 1, 5⟩,
  ⟨0x28, .core, 0x1C, 0, 1, 6⟩,
  ⟨0x29, .tsk, 0x1D, 0, 1, 6⟩,
  ⟨0x2A, .ccry, 0x1E, 0, 1, 7⟩,
  ⟨0x2B, .kst, 0x1F, 0, 2, 8⟩,
  ⟨0x2C, .flsh, 0x20, 0, 1, 6⟩,
  ⟨0x2D, .cnt, 0x21, 0, 1, 5⟩,
  ⟨0x2E, .pm, 0x22, 0, 1, 5⟩,
  ⟨0x2F, .d2d, 0x23, 0, 1, 5⟩,
  ⟨0x30, .pin, 0x24, 0, 1, 5⟩]

/-- The row of Table 2.1 of a page. -/
def pageInfo (p : Nat) : Option PageInfo := pageTable.find? (fun i => i.page == p)

/-- Registers of a block placed at a base offset (slot blocks, ring blocks). -/
def shiftRegs (base : Nat) (rs : List RegInfo) : List RegInfo :=
  rs.map (fun r => { r with off := r.off + base })

/-- The block-specific registers of a block (without the common header). -/
def blockRegs : Blk → List RegInfo
  | .sys => SYS.regs
  | .keep => KEEP.regs
  | .clk => CLK.regs
  | .sup => SUP.regs
  | .lehr => LEHR.regs
  | .time => TIME.regs
  | .rx => RX.regs
  | .tx => TX.regs ++ RX.regs.drop 12
  | .frm => FRM.regs
  | .hal => HAL.regs
  | .act => ACT.regs
  | .dual => DUAL.regs
  | .grt => GRT.regs
  | .usch => USCH.regs
  | .pol => POL.regs
  | .lsec => LSEC.regs
  | .sto => STO.regs
  | .xtr => XTR.regs
  | .swc => SWC.regs
  | .dsch => DSCH.regs
  | .mir => MIR.regs
  | .cls => CLS.regs
  | .flow => FLOW.regs
  | .uniq => shiftRegs 0x30 UNIQ.regs ++ shiftRegs 0x50 UNIQ.regs ++ shiftRegs 0x70 UNIQ.regs ++ shiftRegs 0x90 UNIQ.regs
  | .lane => LANE.regs
  | .hif => HIF.regs
  | .dma => DMA.regs
  | .core => CORE.regs
  | .tsk => TSK.regs
  | .ccry => CCRY.regs
  | .kst => KST.regs
  | .flsh => FLSH.regs
  | .cnt => CNT.regs
  | .pm => PM.regs
  | .d2d => D2D.regs
  | .pin => PIN.regs
  | .ring => RING.regs

/-- The registers of a ring block at block offset 0 stand in the function window at 0x20 × k, transmit rings first,
and receive rings from 0x400 (Table 14.3). -/
def ringBase (rx : Bool) (k : Nat) : Nat := (if rx then 0x400 else 0) + 0x20 * k

/-- The registers of a page, header and block. -/
def pageRegs (p : Nat) : List RegInfo :=
  match pageInfo p with
  | some i => HDR.regs ++ blockRegs i.blk
  | none =>
    if 64 ≤ p ∧ p < 128 then
      (HDR.regs ++ FLSH.regs).filter (fun r => r.off ≥ 0x01C && r.off ≠ 0x028)
    else []

/-- The register at byte offset `off` of page `p`. A function window's ring block is found by its place in the
block. -/
def regInfo (p off : Nat) : Option RegInfo :=
  if 256 ≤ p then
    if off < 0x800 then RING.regs.find? (fun r => r.off == off % 0x20) else none
  else (pageRegs p).find? (fun r => r.off == off)

/-- Number of indirect tables of each block (PAGE_CAPS.table_count). -/
def tableCount : Blk → Nat
  | .cnt => 5
  | .tx => 1
  | .clk => 1
  | .sup => 1
  | .d2d => 1
  | .flsh => 2
  | .pm => 4
  | .hal => 2
  | .act => 3
  | .dual => 2
  | .grt => 2
  | .usch => 3
  | .pol => 2
  | .cls => 5
  | .flow => 3
  | .swc => 4
  | .dsch => 3
  | .mir => 1
  | .xtr => 1
  | .lsec => 3
  | .kst => 3
  | .time => 4
  | .uniq => 2
  | .lane => 2
  | .dma => 2
  | .hif => 1
  | .core => 2
  | .tsk => 4
  | .keep => 2
  | .ccry => 2
  | .pin => 1
  | .lehr => 2
  | .sto => 1
  | _ => 0

/-- Does the block have RWT fields (PAGE_CAPS.triple)? -/
def hasTriple : Blk → Bool
  | .tx => true
  | .act => true
  | .keep => true
  | .lsec => true
  | _ => false

/-- PAGE_CAPS of a block (Table 2.4): indirect, triple, table_count; block_caps reads 0 (the spec gives no block's
capability bits). DESIGN CHOICE for block_caps, log entry 12. -/
def capsOf (b : Blk) : Nat :=
  (if tableCount b = 0 then 0 else 1) + (if hasTriple b then 2 else 0) + tableCount b * 256

/-- The value a register holds at reset of the part: the reset column of its table; PAGE_ID and PAGE_CAPS by page
(R48); ACTB_CFG as its table states for tree B. -/
def regReset (p off : Nat) : Word :=
  match pageInfo p with
  | some i =>
    if off = 0x000 then BitVec.ofNat 32 (p + i.inst * 0x100 + i.code * 0x10000 + 0x01000000)
    else if off = 0x004 then BitVec.ofNat 32 (capsOf i.blk)
    else if off = 0x008 ∧ p = pgSYS then 1#32
    else if off = 0x038 ∧ p = 0x13 then 5#32
    else match regInfo p off with
      | some r => BitVec.ofNat 32 r.reset
      | none => 0#32
  | none =>
    match regInfo p off with
    | some r => BitVec.ofNat 32 r.reset
    | none => 0#32

/-- The key under which State holds a register. -/
def regKey (p off : Nat) : Nat := p * 1024 + off / 4

/-- What a register no write has changed reads as, by key. -/
def regDef (k : Nat) : Word := regReset (k / 1024) (k % 1024 * 4)

/-- The RWT registers by page and offset: the width in bits of the fields that are voted one by one (R56), and the
safe value of such a field (Table 2.7). -/
def rwtVote (p off : Nat) : Option (Nat × Nat × Nat) :=
  match (pageInfo p).map PageInfo.blk with
  | some .tx => if off = 0x03C then some (2, 0, 1) else none
  | some .act => if off = 0x030 then some (3, 7, 1) else if 0x074 ≤ off ∧ off ≤ 0x090 then some (1, 0, 32) else none
  | some .keep => if off = 0x030 then some (2, 0, 16) else if off = 0x034 then some (2, 0, 10) else none
  | _ => none

end Sys2Proof.Machine
end

