-- ==== Sys2Proof/Machine/TableMap.lean ====
section
/-! DEFINITION. The indirect tables of every page: sizes, who writes them, which bits of which words are writable,
reset contents, and the key under which State holds a table word (R58, and the table rule of each chapter). -/

namespace Sys2Proof.Machine

/-- An indirect table: number of entries, words per entry, and whether the host window and the core window commit
entries to it. -/
structure TableInfo where
  entries : Nat
  width : Nat
  host : Bool
  core : Bool
  deriving DecidableEq, Repr

/-- The tables of each block, in table order. A table the host writes is written by the core window too (R61). -/
def blockTables : Blk → List TableInfo
  | .cnt => [⟨24064, 3, false, false⟩, ⟨24064, 3, false, false⟩, ⟨384, 1, false, false⟩, ⟨384, 1, false, false⟩,
      ⟨384, 1, false, false⟩]
  | .tx => [⟨4, 1, true, true⟩]
  | .pm => [⟨132, 21, false, false⟩, ⟨8, 21, false, false⟩, ⟨12, 2, true, true⟩, ⟨12, 2, true, true⟩]
  | .hal => [⟨4, 21, true, true⟩, ⟨8, 21, false, false⟩]
  | .act => [⟨256, 4, false, true⟩, ⟨1024, 2, false, true⟩, ⟨1, 8, false, true⟩]
  | .dual => [⟨4096, 1, true, true⟩, ⟨4096, 2, false, false⟩]
  | .grt => [⟨1024, 4, false, false⟩, ⟨64, 2, false, true⟩]
  | .usch => [⟨4096, 4, true, true⟩, ⟨256, 2, true, true⟩, ⟨4096, 4, false, false⟩]
  | .pol => [⟨8192, 4, true, true⟩, ⟨8192, 2, false, false⟩]
  | .cls => [⟨8192, 32, true, true⟩, ⟨8192, 4, true, true⟩, ⟨256, 2, true, true⟩, ⟨1024, 9, true, true⟩,
      ⟨16384, 12, false, false⟩]
  | .flow => [⟨262144, 20, false, false⟩, ⟨1, 20, true, true⟩, ⟨8, 1, true, true⟩]
  | .sto => [⟨256, 2, true, true⟩]
  | .xtr => [⟨65536, 4, true, true⟩]
  | .swc => [⟨73730, 3, true, true⟩, ⟨24, 2, true, true⟩, ⟨8192, 1, true, true⟩, ⟨256, 1, true, true⟩]
  | .dsch => [⟨69634, 1, true, true⟩, ⟨4352, 3, true, true⟩, ⟨69634, 2, false, false⟩]
  | .mir => [⟨3, 2, true, true⟩]
  | .lsec => [⟨1024, 2, false, true⟩, ⟨2048, 12, false, true⟩, ⟨1024, 4, false, false⟩]
  | .ccry => [⟨8, 8, false, true⟩, ⟨16, 8, true, true⟩]
  | .kst => [⟨96, 16, false, true⟩, ⟨96, 16, false, false⟩, ⟨1, 25, false, false⟩]
  | .time => [⟨16, 3, true, true⟩, ⟨1024, 5, false, false⟩, ⟨4096, 4, true, true⟩, ⟨2, 6, false, false⟩]
  | .uniq => [⟨32, 2, true, true⟩, ⟨4, 2, true, true⟩]
  | .lane => [⟨16, 1, true, true⟩, ⟨16, 4, false, false⟩]
  | .hif => [⟨256, 1, true, true⟩]
  | .dma => [⟨256, 2, true, true⟩, ⟨2048, 2, false, false⟩]
  | .core => [⟨16, 8, false, false⟩, ⟨4, 4, false, true⟩]
  | .tsk => [⟨1024, 4, false, true⟩, ⟨1024, 4, false, false⟩, ⟨2048, 1, false, true⟩, ⟨16, 2, false, true⟩]
  | .flsh => [⟨60, 4, false, false⟩, ⟨1024, 1, true, true⟩]
  | .keep => [⟨26, 1, true, true⟩, ⟨16384, 1, false, true⟩]
  | .clk => [⟨5, 2, false, false⟩]
  | .sup => [⟨7, 1, false, false⟩]
  | .lehr => [⟨9, 3, false, false⟩, ⟨32, 4, false, false⟩]
  | .d2d => [⟨24, 4, false, false⟩]
  | .pin => [⟨512, 1, true, true⟩]
  | _ => []

/-- The table selected by number `t` on page `p`, where the page implements it. -/
def tableInfo (p t : Nat) : Option TableInfo :=
  match pageInfo p with
  | some i => (blockTables i.blk)[t]?
  | none => none

/-- The writable bits of word `w` of an entry of table `t`: every layout's reserved and RO bits are left out (R15). -/
def tableMask (b : Blk) (t w : Nat) : Nat :=
  match b, t, w with
  | .tx, 0, _ => 0x8000FF01
  | .hal, 0, 0 => 0x007FFFFF
  | .hal, 0, 2 => 0x00FFFFFF
  | .act, 0, 0 => 0x0003FFFF
  | .act, 0, 3 => 0
  | .act, 1, 0 => 0x0003FFFF
  | .act, 1, 1 => 0xFFFF00FF
  | .act, 2, 5 => 0xFF03FFFF
  | .act, 2, 6 => 0
  | .act, 2, 7 => 0
  | .dual, 0, _ => 0x7
  | .grt, 1, 0 => 0x7FFF
  | .usch, 0, 0 => 0xFF0F
  | .usch, 0, 2 => 0x7FFFFF
  | .usch, 0, 3 => 0xFFFFFF
  | .usch, 1, 0 => 0x7FFFFF
  | .usch, 1, _ => 0xFFFFFF
  | .pol, 0, 0 => 0x7
  | .pol, 0, 1 => 0x7FFFFF
  | .pol, 0, 2 => 0x7FFFFF
  | .cls, 0, 0 => 0x1FFFFFFF
  | .cls, 0, 31 => 0x1FFFFFFF
  | .cls, 1, 0 => 0x7FF
  | .cls, 1, 1 => 0x0FFF0FFF
  | .cls, 1, 2 => 0x3FFF3FFF
  | .cls, 1, 3 => 0xFF
  | .cls, 2, 0 => 0x7
  | .cls, 3, 0 => 0x00FFFF7F
  | .flow, 1, 0 => 0x0FFFFF3F
  | .flow, 1, 10 => 0x3FFF1FFF
  | .flow, 1, 17 => 0
  | .flow, 1, 18 => 0
  | .flow, 1, 19 => 0
  | .sto, 0, 0 => 0x0FFFFFFF
  | .sto, 0, _ => 0
  | .xtr, 0, 0 => 0x3
  | .xtr, 0, 1 => 0xFFFF
  | .xtr, 0, 2 => 0xFFE00000
  | .swc, 0, 0 => 0x7FFFFFFF
  | .swc, 0, _ => 0
  | .swc, 1, 0 => 0xFF01
  | .swc, 2, _ => 0x7FFFF
  | .swc, 3, _ => 0x1
  | .dsch, 0, _ => 0xFFFFFF07
  | .dsch, 1, 0 => 0xFF00
  | .dsch, 1, 1 => 0x7FFFFF
  | .dsch, 1, _ => 0xFFFFFF
  | .mir, 0, 0 => 0xFF1FFFFF
  | .mir, 0, _ => 0
  | .lsec, 0, 0 => 0xF
  | .lsec, 1, 0 => 0x1
  | .lsec, 1, 3 => 0
  | .ccry, 0, 0 => 0x1FFF
  | .ccry, 0, 4 => 0xFFFF
  | .ccry, 0, 6 => 0
  | .ccry, 0, 7 => 0
  | .time, 0, 0 => 0x1
  | .time, 2, 0 => 0x1
  | .uniq, 0, 1 => 0
  | .uniq, 1, _ => 0xFFFFFF
  | .lane, 0, _ => 0x7FFFF
  | .hif, 0, _ => 0x0FFF07FF
  | .dma, 0, 0 => 0x803F03FF
  | .dma, 0, _ => 0x003F03FF
  | .core, 1, 0 => 0x7FFFFF
  | .core, 1, 1 => 0x1FFF
  | .core, 1, 2 => 0xFFFF
  | .core, 1, _ => 0
  | .tsk, 0, 0 => 0x00FFFF7F
  | .tsk, 0, 3 => 0xFF81FFFF
  | .tsk, 2, _ => 0xFFFF
  | .tsk, 3, 0 => 0x3FFFFFF
  | .tsk, 3, _ => 0
  | .keep, 0, _ => 0xFFFF
  | .pin, 0, _ => 0xC
  | _, _, _ => 0xFFFFFFFF

/-- The reset word of PIN table 0 entry `i` (Table 18.5): [0] output, [1] open_drain, [2] test_enable, [3]
safe_value. The PSRC_MAIN, PSRC_BATT and PFAIL# entries have no safe value of their own (R572); 0 is read. -/
def pinReset (i : Nat) : Nat :=
  if i < 36 then
    match i % 6 with
    | 0 => 0x3
    | 1 => 0x3
    | 2 => 0xC
    | 3 => 0xC
    | _ => 0xB
  else if i ≤ 41 then (if i % 3 = 2 then 0x4 else 0x1)
  else if i = 42 then 0xB
  else if i = 43 then 0x4
  else if i = 44 then 0x3
  else if i = 45 then 0x1
  else if i = 46 then 0x0
  else if i ≤ 50 then 0x1
  else if i = 51 then 0x0
  else if i ≤ 62 then 0x1
  else if i = 63 then 0x0
  else if i ≤ 66 then 0x4
  else if i = 67 then 0xC
  else 0x0

/-- The reset contents of a table word, as the table's chapter states them; 0 elsewhere. -/
def tableReset (p t e w : Nat) : Word :=
  match (pageInfo p).map PageInfo.blk, t, w with
  | some .keep, 0, 0 => 0x20#32
  | some .lsec, 0, 0 => 0xC#32
  | some .dma, 0, _ => BitVec.ofNat 32 (4 * e + 4 * 2 ^ 16)
  | some .hif, 0, 0 =>
    BitVec.ofNat 32 (if e = 0 then 256 * 2 ^ 16 else (256 + 7 * (e - 1)) + 7 * 2 ^ 16)
  | some .pin, 0, 0 => BitVec.ofNat 32 (pinReset e)
  | _, _, _ => 0#32

/-- The key under which State holds word `w` of entry `e` of table `t` of page `p`. -/
def tblKey (p t e w : Nat) : Nat := ((p * 8 + t) * 0x40000 + e) * 32 + w

/-- What a table word no write has changed reads as, by key. -/
def tblDef (k : Nat) : Word :=
  tableReset (k / 0x4000000) (k / 0x800000 % 8) (k / 32 % 0x40000) (k % 32)

/-- The chapter's PENNANT bits of a page, by the first page of each block: how many there are (Tables 3.13, 4.16, 5.11, 6.11,
7.6, 12.8, 16.9 to 16.11, R278, R282, R285, R312, R316, R349 to R355, R385 to R388, R444, R448, R478, R480, R521, R524, R527,
R578 to R581). -/
def pennantTops : List (Nat × Nat) :=
  [(0x01, 8), (0x02, 9), (0x03, 9), (0x04, 6), (0x05, 11), (0x06, 12), (0x0A, 9), (0x0C, 18), (0x10, 12), (0x12, 20), (0x14, 10),
   (0x15, 6), (0x17, 7), (0x18, 2), (0x19, 5), (0x1A, 6), (0x1B, 4), (0x1C, 4), (0x1D, 3), (0x1E, 2), (0x1F, 5), (0x20, 5),
   (0x21, 14), (0x25, 7), (0x26, 14), (0x27, 5), (0x28, 7), (0x29, 3), (0x2A, 4), (0x2B, 6), (0x2C, 8), (0x2D, 3), (0x2E, 12),
   (0x2F, 6), (0x30, 4)]

/-- Is a bit of a page's pennant one that is not reserved: one of its chapter's, or one of Table 2.6? Bit 3 of PM is
reserved. -/
def pennantBitOk (page bit : Nat) : Bool :=
  (decide (20 ≤ bit) && decide (bit < 24)) ||
    (match (pennantTops.filter (fun x => decide (x.1 ≤ page))).getLast? with
     | some x => decide (bit < x.2) && !(page == 0x2E && bit == 3)
     | none => false)

end Sys2Proof.Machine
end

