-- ==== Sys2Proof/Machine/State.lean ====
section
/-! DEFINITION. The state of the CP9840: the registers of every page, the words of every indirect table, counters and
snapshot banks, and beside them what the rules name and no register holds (timers, queues, contexts, forces). Plain
data throughout. The queue `pending` of waiting commands stands last. -/

namespace Sys2Proof.Machine

/-- Why a step stops with a fault. The model stops no command with a fault: every command of the table has an
effect. This constructor is raised by nobody; a run never meets it (safe). -/
inductive Fault where
  /-- Raised by no meaning. Safe. -/
  | none
  deriving DecidableEq, Repr

/-- Why a command is refused. -/
inductive Refusal where
  /-- A command whose meaning the model does not give, by its mnemonic. Raised only by an arm of the dispatch that
  names it. Safe: the machine stops. -/
  | notModelled (mnemonic : String)
  deriving DecidableEq, Repr

/-- One value per tree. -/
structure PerTree (α : Type) where
  a : α
  b : α
  deriving DecidableEq, Repr

/-- One value per receiver. -/
structure PerRx (α : Type) where
  a0 : α
  a1 : α
  b0 : α
  b1 : α
  deriving DecidableEq, Repr

/-- The value of tree `t`. -/
def PerTree.get {α : Type} (p : PerTree α) : Tree → α
  | .a => p.a
  | .b => p.b

/-- The value of tree `t` changed by `f`. -/
def PerTree.mod {α : Type} (p : PerTree α) (t : Tree) (f : α → α) : PerTree α :=
  match t with
  | .a => { p with a := f p.a }
  | .b => { p with b := f p.b }

/-- The value of receiver `r`. -/
def PerRx.get {α : Type} (p : PerRx α) : Rx → α
  | .a0 => p.a0
  | .a1 => p.a1
  | .b0 => p.b0
  | .b1 => p.b1

/-- The value of receiver `r` changed by `f`. -/
def PerRx.mod {α : Type} (p : PerRx α) (r : Rx) (f : α → α) : PerRx α :=
  match r with
  | .a0 => { p with a0 := f p.a0 }
  | .a1 => { p with a1 := f p.a1 }
  | .b0 => { p with b0 := f p.b0 }
  | .b1 => { p with b1 := f p.b1 }

/-- The sequencing of one page's pennant (R51): the 1 µs hold after an advance, an advance pending in it, and whether
an unmasked occurrence is counted in that pending advance. -/
structure PennSt where
  hold : Bool := false
  pend : Bool := false
  unmasked : Bool := false
  deriving DecidableEq, Repr

/-- One indirect window of one page (R58): the words staged for the entry being written, by word; the holding buffer of
the last entry whose word 0 was read, and that entry by table and index. -/
structure IndWin where
  staged : Sparse (Option Word) := []
  holding : List Word := []
  held : Option (Nat × Nat) := none
  deriving DecidableEq, Repr


/-- A modulation symbol at the DACs: its four components as levels of Table 3.2, and whether they are multiplied by the root of
5, which brings a QPSK symbol to the RMS power of DP-16QAM (R95). -/
structure Sym where
  xi : Int := 0
  xq : Int := 0
  yi : Int := 0
  yq : Int := 0
  root5 : Bool := false
  deriving DecidableEq, Repr

/-- A chirp symbol (R164): an up-chirp of a value, or the down-chirp of the sync. -/
inductive Chirp where
  | up (value : Nat)
  | down
  deriving DecidableEq, Repr

/-- What a UNI lane transmits (R428, R432, R446): electrical idle, its received data retimed, a test pattern, or the data of a
port's logical lane. -/
inductive LaneSource where
  | idle
  | echo
  | pattern (code : Nat)
  | port (port logical : Nat)
  deriving DecidableEq, Repr

/-- What the part sends to the outside. -/
inductive Emission where
  /-- The symbols of a burst as they left a transmitter's DACs, from T0 on (R95). -/
  | burst (t : Tree) (syms : List Sym)
  /-- The chirp symbols of a halyard frame as they leave a transmitter, whose lanes stand in this order with these signs
  (R115, R167). -/
  | halyard (t : Tree) (chirps : List Chirp) (order signs : Nat)
  /-- The symbols that Continuous test has sent while it was in effect (R106). -/
  | continuousTest (t : Tree) (syms : List Sym)
  /-- A transmitter's OFE set through CMIS: its channel, and its fine-tune correction in kHz (R102). -/
  | ofeTune (t : Tree) (channel fineTune : Int)
  /-- An MSI-X message of a function: function, function-local vector, address and data of its table entry (R459). -/
  | msix (fn vec : Nat) (addrLo addrHi data : Word)
  /-- A UNI port ends a frame it is sending with the complement of its FCS (R334). -/
  | uniAbort (port frame : Nat)
  /-- A UNI port that is to negotiate sends its Clause 73 base page: the mode, the RS-FEC requirement and the EEE ability (R419). -/
  | anPage (port mode : Nat) (rsFec eee : Bool)
  /-- A UNI port begins, or ceases, to send remote fault ordered sets: it shows a local fault (R419; log entry 134). -/
  | uniFault (port : Nat) (on : Bool)
  /-- The first levels of a test pattern that a UNI lane's generator begins to send (R429). -/
  | lanePattern (lane code : Nat) (levels : List Int)
  /-- A UNI port has sent a frame, its FCS at its end (R328, R433). -/
  | uniFrame (port : Nat) (bytes : Bytes)
  /-- A UNI port sends a PAUSE (priority none) or PFC frame with a quanta (R436). -/
  | uniPause (port : Nat) (prio : Option Nat) (quanta : Nat)
  /-- One transmitted bit of a UNI lane is inverted: of what the lane sends, whether its pair is inverted, and how many bits lie
  between such errors, 0 for a single one (R431). -/
  | laneError (lane : Nat) (data : LaneSource) (txInvert : Bool) (every : Nat)
  /-- Bytes written to host memory by a function (R460, R464). -/
  | hostWrite (fn addr : Nat) (bytes : Bytes)
  /-- A read of host memory issued by a function: address and length (R461). -/
  | hostRead (fn addr len : Nat)
  /-- A PM_PME message of a function (R471). -/
  | pmPme (fn : Nat)
  /-- A width change of the host link requested, in lanes; 0 asks for the full width (R472). -/
  | widthRequest (lanes : Nat)
  /-- ASPM L1 entry requested (with the LTR values), or its exit (R467). -/
  | l1 (entry : Bool) (ltr : Word)
  /-- An AVSBus Vout write: rail 0 for VDD_S, 1 for VDD_L, and the voltage in mV (R576). -/
  | avsWrite (rail mv : Nat)
  /-- The low-speed pins driven from boundary cells; the pins in high impedance (R601). -/
  | pinsDriven (cells : List Bool)
  | pinsHighZ
  deriving DecidableEq, Repr

/-- The register storage. -/
structure RegFile where
  /-- Registers, by page and offset; copy 0 of an RWT register (R56). A register not listed holds its reset value. -/
  regs : Sparse Word := []
  /-- Copy 1 of the RWT registers. -/
  copy1 : Sparse Word := []
  /-- Copy 2 of the RWT registers. -/
  copy2 : Sparse Word := []
  /-- Holding copies of the upper words of 64- and 128-bit quantities, by register (R42). -/
  latches : Sparse (Option Word) := []
  /-- Host-written lower words of such quantities that wait for the highest (R42). -/
  staged : Sparse (Option Word) := []
  deriving DecidableEq, Repr

/-- Counts, by counter index in the order of Table 2.11 (R62, R71). -/
structure Counts where
  live : Sparse Nat := []
  bank0 : Sparse Nat := []
  bank1 : Sparse Nat := []
  /-- Counts flushed to backing when a unit's domain left the on state (R65). -/
  backing : Sparse (Option Nat) := []
  /-- The last counts of contained units, as they stood at the containment (R65). -/
  last : Sparse (Option Nat) := []
  deriving DecidableEq, Repr

/-- A receiver beyond its registers (R84 to R93, R114). -/
structure RxSt where
  /-- The RMS level at the ADCs is above 10 % of full scale, whether or not the receiver is enabled (R86). -/
  signal : Bool := false
  /-- sig_present has fallen since the acquisition in progress started (R87). -/
  fell : Bool := false
  /-- The iteration limit in force; a written max_iter waits for the next codeword boundary (R84, R93). -/
  iterLimit : Nat := 16
  /-- The lane correction found by the previous acquisition, if there was one (R114). -/
  prevFix : Option (Nat × Nat) := none
  /-- The margin stands at or above where fom_alarm may be raised again (R93). -/
  alarmArmed : Bool := true
  /-- The lane correction applied to the four input pairs: order index and signs (R114). -/
  fix : Nat × Nat := (0, 0)
  /-- Equalizer and skew setting of each input lane, and when one was last changed in service (R93). -/
  lanes : List (Nat × Nat) := List.replicate 4 (0, 0)
  adaptAt : Option Nat := none
  /-- Iterations run and codewords decoded since the last window's end (RX_ITER). -/
  iterSum : Nat := 0
  iterCount : Nat := 0
  /-- When the receiver locked, for the consecutive frames of LOS's clearing (R149). -/
  lockedAt : Nat := 0
  deriving DecidableEq, Repr

/-- A burst on the pins: grant index in the pending table, start and end on the transmit timeline in sym, profile,
codewords and pad symbols it holds (R95, R97). -/
structure Burst where
  entry : Nat
  t0 : Nat
  e : Nat
  qam : Bool
  codewords : Nat
  pad : Nat
  deriving DecidableEq, Repr

/-- A transmitter beyond its registers. -/
structure TxSt where
  /-- The burst in progress. -/
  burst : Option Burst := none
  /-- The force of a missing clock edge or a withdrawn clock (R107). -/
  clockForce : Bool := false
  /-- The force of a rogue event (R111). -/
  rogueForce : Bool := false
  /-- When TX_STATUS.clock_ok last became 1 (R108). -/
  clockOkSince : Nat := 0
  /-- Consecutive transmit-power polls above −30 dBm with the gate low (Table 3.8). -/
  hotPolls : Nat := 0
  /-- TX_LAUNCH and Lehr trim values by the time from which they apply, newest first (R104). -/
  launches : List (Nat × Word × Nat) := []
  /-- The window checker's copy of granted and halyard windows (R110). -/
  windows : List (Nat × Nat) := []
  /-- The halyard frame being sent, by its transmit slot. -/
  halSlot : Option Nat := none
  /-- A Lehr trim that waits for the tree to enter Operational (R576). -/
  trimDue : Option Int := none
  /-- The end E or H of the last burst or halyard frame (R99, R177). -/
  lastEnd : Nat := 0
  /-- Channel and fine-tune correction, in kHz, that the OFE is set to, and a correction and a lane order and signs that wait for
  the time between bursts (R102, R202). -/
  channel : Int := 0
  fineTune : Int := 0
  tuneDue : Option Int := none
  laneDue : Option (Nat × Nat) := none
  /-- When Continuous test came into effect (R106). -/
  contFrom : Option Nat := none
  deriving DecidableEq, Repr

/-- A fragment whose payload is in progress: its header, corrected; the counter of the frame in which the header began, and
whether that frame's map is on the wrong wavelength (R133, R141); and, counting a receiver's information bytes codeword after
codeword, where its payload begins and where that frame ends (R84, R137). -/
structure FragCur where
  hdr : Bytes
  fc : Nat
  wrong : Bool
  start : Nat
  frameEnd : Nat
  deriving DecidableEq, Repr

/-- A framer beyond its registers (R139 to R151, R156). -/
structure FrmSt where
  /-- Consecutive codewords at or below accept_weight in PRESYNC; above reject_weight in SYNC (R139). -/
  alignRun : Nat := 0
  alignBad : Nat := 0
  /-- The counter predicted for the next header, consecutive confirming headers, consecutive failures (R140). -/
  predicted : Nat := 0
  hdrRun : Nat := 0
  hdrBad : Nat := 0
  /-- A new counter sequence seen in SYNC: the next counter it would have, and how many headers agreed (R141). -/
  newSeq : Option (Nat × Nat) := none
  /-- Identifiers, counter and control bit of the last valid header (R141, R204). -/
  lastId : Option (Nat × Nat) := none
  lastFc : Nat := 0
  /-- Counter of the last valid header with control 1 (R204). -/
  controlFc : Nat := 0
  lastControl : Option Bool := none
  /-- Confirming fragment headers in PRESYNC (R142). -/
  fragRun : Nat := 0
  /-- The frame in progress: did its header hold, its own counter, when it reached the balls, does it deliver its map,
  and is its map on the wrong wavelength (R130, R133, R134, R141). -/
  frameOk : Bool := false
  frameFc : Nat := 0
  tF : Nat := 0
  mapOk : Bool := false
  mapWrong : Bool := false
  /-- Its header's gm_entries, and the entries of its map still to come (R127). -/
  entries : Nat := 0
  entriesLeft : Nat := 0
  /-- Where the next fragment header is expected, as an offset in the frame's fragment area (R142). -/
  next : Nat := 0
  /-- The fragment whose payload is in progress (R144). -/
  cur : Option FragCur := none
  /-- The information bytes of the codeword decoded last (R82, R84). -/
  block : Bytes := []
  /-- Codewords decoded; the number of the one that began the frame in progress; those of the last 2,400 that were delivered as
  uncorrectable (R84, R137). -/
  cwCount : Nat := 0
  frameCw : Nat := 0
  badCws : List Nat := []
  /-- When LOS cleared or the page began to run, and when the header machine reached SYNC (R149). -/
  lofFrom : Nat := 0
  syncAt : Nat := 0
  /-- Codewords, corrected bits and uncorrectable codewords of the current defect window; runs of windows; is a window
  being evaluated (R149, R150). -/
  winCw : Nat := 0
  winCorr : Nat := 0
  winUnc : Nat := 0
  sdSetRun : Nat := 0
  sdClrRun : Nat := 0
  sfSetRun : Nat := 0
  sfClrRun : Nat := 0
  winOpen : Bool := false
  /-- A thresholds write waits for the next window boundary: the four thresholds in force (R152). -/
  thr : Nat × Nat × Nat × Nat := (16000000, 12000000, 100000, 10000)
  /-- The superframe in progress for the performance bins: codewords, corrected bits, uncorrectable codewords, header
  failures, hcs failures, and whether LOS, LOF, SD, SF stood at any time (R156). -/
  secCw : Nat := 0
  secCorr : Nat := 0
  secUnc : Nat := 0
  secHdr : Nat := 0
  secHcs : Nat := 0
  secLos : Bool := false
  secLof : Bool := false
  secSd : Bool := false
  secSf : Bool := false
  /-- The page was disabled at some time of the superframe. -/
  secOff : Bool := false
  deriving DecidableEq, Repr

/-- The performance bins beyond the PM tables. -/
structure PmSt where
  /-- Per framer: the last seconds not yet settled, newest first: was it an ES, an SES, and the 15-minute and day slots
  that hold it; and whether time is unavailable (R156). -/
  recent : PerRx (List (Bool × Bool × Nat × Nat)) := ⟨[], [], [], []⟩
  unavailable : PerRx Bool := ⟨false, false, false, false⟩
  /-- Edges taken, as seconds over 900 and over 86,400 (R155, R157). -/
  edge15 : Nat := 0
  edgeDay : Nat := 0
  /-- Per framer: the slots, 15-minute and day, in which its superframe in progress began (R155). -/
  began : PerRx (Nat × Nat) := ⟨(0, 0), (0, 0), (0, 0), (0, 0)⟩
  deriving DecidableEq, Repr

/-- One PCIe function beyond its window's registers (R453 to R466). -/
structure FnSt where
  /-- Bus Master Enable. -/
  busMaster : Bool := false
  /-- In D3hot. -/
  d3 : Bool := false
  /-- MSI-X Enable and Function Mask. -/
  msixEnable : Bool := false
  fnMask : Bool := false
  /-- In Function Level Reset (R466). -/
  flr : Bool := false
  /-- The vector allocation in force, base and count, once an entry of HIF table 0 has taken effect; `none` is the
  reset allocation (R458). -/
  alloc : Option (Nat × Nat) := none
  /-- PME_En of the function's power management capability. -/
  pmeEn : Bool := false
  /-- PME_Status, and whether a PM_PME has been sent since it was set (R469, R471). -/
  pmeStatus : Bool := false
  pmeSent : Bool := false
  /-- FUNC_STATUS.ignored (R456). -/
  ignored : Nat := 0
  /-- The uncorrectable and correctable error status registers of its AER capability (R452, R462; log entry 137). -/
  aerUnc : Nat := 0
  aerCor : Nat := 0
  deriving DecidableEq, Repr

/-- The host interface beyond its registers. -/
structure HifSt where
  /-- Functions, by number. -/
  fns : Sparse FnSt := []
  /-- VF Enable and NumVFs (R453). -/
  vfEnable : Bool := false
  numVfs : Nat := 0
  /-- MSI-X table words, four per function and vector; an unlisted control word has its mask bit set. -/
  msixTab : Sparse Word := []
  /-- MSI-X pending bits, by function and vector (R459). -/
  pba : Sparse Bool := []
  /-- PERST# is asserted (R450); CXL_PERST# is held asserted (R475). -/
  perst : Bool := false
  cxlPerst : Bool := true
  /-- Hardware Autonomous Width Disable; ASPM L1 enabled; a width request in progress; the link was narrowed; a withdrawn
  request waits for its retry (R467, R472, R473). -/
  widthDisable : Bool := false
  aspmL1 : Bool := false
  narrowing : Bool := false
  narrowed : Bool := false
  retryDue : Bool := false
  /-- The CXL root trains and enumerates; the window that the device's decoder was committed to, its base and its bytes, and where
  its BAR was placed (R475). -/
  enumerating : Bool := false
  cxlWindow : Nat × Nat := (0, 0)
  cxlBar : Nat := 0
  /-- The base addresses of PF 0's BAR0/1 and BAR2/3, and of the VF BAR0/1 (R454). -/
  pfBar0 : Nat := 0
  pfBar2 : Nat := 0
  vfBar : Nat := 0
  /-- The causes latched in the wake latch, each with the function that it concerns (R469, R470). -/
  latched : List (Nat × Nat) := []
  deriving DecidableEq, Repr

/-- A transmit frame that a ring's engine reads: its entries, the segment read next, the bytes read, the frame's id in
the store, the ring index of its first entry (R461). -/
structure TxJob where
  entries : List TxEntry
  seg : Nat := 0
  bytes : Bytes := []
  id : Nat := 0
  admitted : Bool := false
  deriving DecidableEq, Repr

/-- A host ring beyond its registers (R456 to R465). -/
structure RingSt where
  /-- The transmit frame in progress. -/
  job : Option TxJob := none
  /-- Entries and completion of the frame at which the ring stopped on a fault. -/
  stopped : Option TxJob := none
  /-- Completions written. -/
  completions : Nat := 0
  /-- A moderation interval runs; a message is held back in it (R465). -/
  interval : Bool := false
  held : Bool := false
  deriving DecidableEq, Repr

/-- The DMA engine beyond its registers and tables: rings, by 64 × function + 32 for receive + ring; and the host queues
whose head copy waits for buffers (R463). -/
structure DmaSt where
  rings : Sparse RingSt := []
  starved : Sparse Bool := []
  deriving DecidableEq, Repr

/-- A locked checker (R430): the last 31 bits of its own sequence, newest first, and its place in a pattern that no shift register
makes; the bits of the present 1,024 that it has checked, and the errors in them. -/
structure Checker where
  hist : List Bool := []
  pos : Nat := 0
  bits : Nat := 0
  errs : Nat := 0
  deriving DecidableEq, Repr

/-- The UNI ports and lanes beyond their registers and tables. -/
structure UniSt where
  /-- Per lane, the logical lane and polarity at the previous link up (R426, R427). -/
  seen : Sparse (Option (Nat × Bool)) := []
  /-- The partner advertised EEE, by port (R439). -/
  eee : Sparse Bool := []
  /-- The lanes whose fom_alarm has been raised and whose margin has not risen 0.5 dB above the threshold (R424). -/
  alarmed : Sparse Bool := []
  /-- Changes of each lane's receive equalizer, and when the last was made, plus 1 (R425). -/
  eqSteps : Sparse Nat := []
  eqLast : Sparse Nat := []
  /-- The lanes that have still to adapt fully: in link training, or in acquisition (R425). -/
  adaptDue : Sparse Bool := []
  /-- The checkers of the lanes that have PRBS lock (R430). -/
  checkers : Sparse Checker := []
  /-- PAUSE and PFC frames that wait for a frame boundary, oldest first: port, priority entry, and whether it is an XOFF; when an
  XOFF of an entry was last sent, by 8 × port + entry (R436). -/
  ctrl : List (Nat × Nat × Bool) := []
  ctrlAt : Sparse Nat := []
  /-- When a priority's pause ends, by 8 × port + priority; and the words of the class map in force since the last received pause
  frame, by port (R437, R443). -/
  pauseUntil : Sparse Nat := []
  classMap : Sparse (Nat × Nat) := []
  /-- The frames handed on whose MAC reports an ingress error at their end (R325 step 7, R434). -/
  errored : List Nat := []
  deriving DecidableEq, Repr

/-- What the classifier gave a frame (R293 to R301): the action's index and words as read, the rule or default that
gave it, the frame's tenant and service, its colour, its symmetric hash. -/
structure Classified where
  action : Nat
  act : List Word
  tenant : Nat
  service : Nat
  colour : Nat
  hash : Nat
  deriving DecidableEq, Repr

/-- A descriptor: one copy of a frame in one list (R322), with what the sampler and the launch rules add. -/
structure Copy where
  frame : Nat
  /-- The descriptor that represents it, by number (R322, R323). -/
  desc : Nat := 0
  queue : Nat
  length : Nat
  colour : Nat := 0
  cutThrough : Bool := false
  sample : Bool := false
  prot : Bool := false
  tree : Nat := 0
  pinned : Bool := false
  tenant : Nat := 0
  service : Nat := 0
  /-- The frame's service (R298), which a receive completion shows (Table 14.5). -/
  frameService : Nat := 0
  tick : Nat := 0
  hash : Nat := 0
  sequence : Nat := 0
  offset : Nat := 0
  action : Nat := 0
  srcKind : Nat := 0
  srcNum : Nat := 0
  /-- The sampler, its sequence, and the network time at admission completion (R341). -/
  sampler : Nat := 0
  sampleSeq : Nat := 0
  sec : Nat := 0
  ns : Nat := 0
  /-- The launch tag of a host or core frame (R409). -/
  tag : Option Nat := none
  /-- The place in the order of admissions (R255). -/
  order : Nat := 0
  /-- Transmission on a UNI port has started (R334). -/
  started : Bool := false
  deriving DecidableEq, Repr

/-- A pool of cells or of descriptors (R323), by number: the caches, one per pseudo-channel, newest first; what was returned
to the stack beyond them, top first; how many rounds of each pseudo-channel have left the stack for the first time; and the
pseudo-channel that the next run is drawn from first (log entry 20). -/
structure Pool where
  caches : Sparse (List Nat) := []
  stack : List Nat := []
  fresh : Sparse Nat := []
  next : Nat := 0
  deriving DecidableEq, Repr

/-- A frame in the store: the cells drawn and held, head cell first, and how many descriptors reference it (R321, R328). -/
structure Frame where
  srcKind : Nat
  srcNum : Nat
  tenant : Nat
  rate : Nat
  bytes : Bytes
  cells : List Nat
  refs : Nat := 0
  ended : Bool := false
  /-- An uncorrectable cell: every later read of the frame drops the copy (R324). -/
  bad : Bool := false
  tag : Option Nat := none
  decided : Bool := false
  /-- How a frame that waits for its action ended: 0 well, 1 with an ingress error, 2 with the pool empty. -/
  endWith : Nat := 0
  /-- A copy of the duplicated frame has been delivered (R227). -/
  delivered : Bool := false
  /-- Bytes written so far (R333), and the priority entry its cells are held under at its UNI port (R435). -/
  arrived : Nat := 0
  prio : Nat := 0
  /-- Admitted copies that join their lists at frame end (R325 step 8). -/
  waiting : List Copy := []
  /-- How many frames had started admission before it (R330). -/
  born : Nat := 0
  /-- Upstream queues whose copy is dropped while its last fragment stands in a selected grant (R270). -/
  lost : List Nat := []
  deriving DecidableEq, Repr

/-- The buffer manager, switch core, downstream scheduler and samplers beyond their registers and tables. -/
structure StoSt where
  frames : Sparse (Option Frame) := []
  /-- The Cullet pool of free cells and the pool of free descriptors (R323); the retired cells (R324). -/
  cullet : Pool := {}
  descs : Pool := {}
  retired : List Nat := []
  /-- The cells that a line frame's fragments hold until it starts admission, by frame id, with the tenant (R230). -/
  lineCells : Sparse (Nat × List Nat) := []
  /-- Frames that have started admission; and the SWC table words written since, each with how many had started before and
  what it held (R330). -/
  started : Nat := 0
  changes : List (Nat × Nat × Word) := []
  /-- The lists of copies by admission queue (R326): four per queue, 0 the shared or downstream list, 1 and 2 the lists
  of trees A and B, 3 the backlog list. Head first. -/
  lists : Sparse (List Copy) := []
  /-- Bytes held per admission queue. -/
  qbytes : Sparse Nat := []
  /-- What each egress port is sending. -/
  sending : Sparse (Option Copy) := []
  /-- Frames counted by each sampler since its entry was written (R340). -/
  offered : Sparse Nat := []
  /-- Deficits of the downstream rounds: tenant nodes and queues, and where each round stands (R336). -/
  nodeDeficit : Sparse Int := []
  queueDeficit : Sparse Int := []
  /-- Entries of DSCH tables 0 and 1 in force, by queue, by node and word (R337). -/
  activeQueue : Sparse Word := []
  activeNode : Sparse Word := []
  /-- Tokens of the tenant-node shapers and of the host port, in bytes, signed (R337). -/
  nodeTokens : Sparse Int := []
  hostTokens : Int := 16384
  /-- The bytes that each UNI port is sending of its copy (R408). -/
  sendBytes : Sparse Bytes := []
  /-- The tenant node, by port, and the queue, by node and level, whose turn stands in the rounds of R336, plus 1. -/
  nodeTurn : Sparse Nat := []
  queueTurn : Sparse Nat := []
  /-- The queues whose launch copies each UNI port has selected and holds until their times (R409). -/
  pinned : Sparse (List Nat) := []
  /-- Cells that lost link entries have cut off, by the tenant they are charged to, until a sweep reclaims them (R324). -/
  lost : Sparse (List Nat) := []
  /-- The audit bitmap: the cells that the last sweep left unmarked (R350). -/
  unmarked : List Nat := []
  /-- Upstream copies that the store has dropped for a memory error or a reset: a running total of audit equation A6. -/
  upLost : Int := 0
  /-- Copies that have joined downstream lists, and that have left them: the running totals of A6 for that scheduler. -/
  downIn : Nat := 0
  downOut : Nat := 0
  /-- How many copies have been admitted: the next copy's place in the order. -/
  nextOrder : Nat := 0
  /-- The next id of a frame that no command names: one drawn back from the tier, sent by DMA or by the cores. -/
  nextId : Nat := 281474976710656
  /-- The die-to-die links whose A7 failed at the last evaluation (R568). -/
  a7Failed : Sparse Bool := []
  /-- When each audit equation last raised audit_fail, plus 1 (R349). -/
  auditRaised : Sparse Nat := []
  deriving DecidableEq, Repr

/-- Frames handed to the classifier, in order (R287). -/
structure ClsSt where
  handed : List InFrame := []
  /-- What became of each classified frame until its copies are decided, by frame id: dropped, or its action. -/
  acts : Sparse (Option (Option Classified)) := []
  /-- When each follow entry was last used (R303). -/
  uses : Sparse Nat := []
  deriving DecidableEq, Repr

/-- The flow table beyond its tables: the result and index that the command in progress will report (R309), and when
each entry was last hit (R308). -/
structure FlowSt where
  result : Nat := 0
  index : Nat := 0
  hits : Sparse Nat := []
  /-- When the ager's last sweep began, plus 1 (R308). -/
  swept : Nat := 0
  deriving DecidableEq, Repr

/-- A record of an extent: a descriptor's image and its frame's bytes (R343). -/
structure TierRec where
  copy : Copy
  rate : Nat
  bytes : Bytes
  deriving DecidableEq, Repr

/-- An extent in a queue's chain, by its number, with its records in admission order (R343). -/
structure Extent where
  id : Nat
  recs : List TierRec := []
  deriving DecidableEq, Repr

/-- The extended tier: each queue's chain of extents, head first, and the stranded extents (R342 to R346). -/
structure XtrSt where
  tier : Sparse (List Extent) := []
  stranded : Sparse Bool := []
  deriving DecidableEq, Repr

/-- The upstream scheduler beyond its registers and tables. -/
structure UschSt where
  /-- The scheduler tick count, modulo 2^32 (R322); the 125 µs edge of network time that has had its tick, and when the last tick
  stood (R259, R260, R400). -/
  ticks : Nat := 0
  tickEdge : Nat := 0
  tickAt : Nat := 0
  /-- Entries of tables 0 and 1 in force, by queue and word, by tenant and word: written entries take effect at the
  next tick (R261). -/
  activeQ : Sparse Word := []
  activeT : Sparse Word := []
  /-- Tokens of the service and tenant shapers, in bytes (R259). -/
  queueTokens : Sparse Int := []
  tenantTokens : Sparse Int := []
  /-- Deficits by tree and queue, and where the round of each tree, allocation and level stands (R258). -/
  deficits : Sparse Int := []
  pointers : Sparse Nat := []
  /-- upstream_need stands raised for the tree (R267). -/
  needA : Bool := false
  needB : Bool := false
  /-- bulk_unavailable has been raised (R265). -/
  bulkNoted : Bool := false
  deriving DecidableEq, Repr

/-- One fragment placed in a grant's stream: a service queue's item, from `offset`, `len` plaintext bytes, whether it is
the frame's last, the fragment sequence it was given, and its key slot and packet number where its context is in GCM mode. -/
structure Placed where
  copy : Copy
  offset : Nat
  len : Nat
  last : Bool
  seq : Nat := 0
  key : Option (Nat × Nat) := none
  deriving DecidableEq, Repr

/-- What a grant carries once it is selected (R252, R270): frames' fragments and TMC send queue entries. -/
structure Content where
  placed : List Placed := []
  tmc : List Nat := []
  idleBytes : Nat := 0
  report : Option Bytes := none
  profile : Word := 0#32
  stream : Bytes := []
  codewords : Nat := 0
  pad : Nat := 0
  deriving DecidableEq, Repr

/-- One grant processor beyond its registers and tables. -/
structure GrtSt where
  /-- T0 and E, in sym, of the grants of the pending table, and the frame counter of their map, by index (R250). -/
  spans : Sparse (Nat × Nat × Nat) := []
  /-- The content of selected grants, by index. -/
  content : Sparse (Option Content) := []
  /-- Submission order and time of the TMC send queue's entries, and their bytes, by entry (R268, R269). -/
  tmcOrder : Sparse (Option (Nat × Nat)) := []
  tmcNext : Nat := 0
  /-- Entries of the send queue that have turned a submission away: they read state refused (R268). -/
  tmcRefused : List Nat := []
  /-- Next fragment sequences of the tree, by stream (R228). -/
  fragSeq : Sparse Nat := []
  deriving DecidableEq, Repr

/-- The policers beyond their tables. -/
structure PolSt where
  /-- Fractions of a token, in units of 1/125000 byte, committed and peak, and the time in ns of the last update, by
  policer (R273). -/
  fracC : Sparse Nat := []
  fracP : Sparse Nat := []
  lastNs : Sparse Nat := []
  deriving DecidableEq, Repr

/-- Line security beyond its tables (R360 to R364). Slots are numbered 2c + s. -/
structure LsecSt where
  /-- Upstream, packet numbers used of a slot; downstream, the highest received. -/
  pn : Sparse Nat := []
  /-- Packet numbers received of a slot within the 256 below its highest. -/
  seen : Sparse (List Nat) := []
  /-- Copies 1 and 2 of each context's selector; copy 0 stands in LSEC table 0 (R362). -/
  sel1 : Sparse Nat := []
  sel2 : Sparse Nat := []
  deriving DecidableEq, Repr

/-- A halyard frame queued, committed or on the pins (R176 to R181). Times in thousandths of a sym, since a chirp symbol is
509,607.936 sym. -/
structure HalJob where
  slot : Nat
  kind : Nat
  plen : Nat
  priority : Nat
  /-- 0 free, 1 timed, 2 slotted. -/
  timing : Nat
  payload : Bytes
  /-- The reference point of a timed or slotted frame. -/
  ref : Option Nat := none
  /-- When frame F reaches the balls, in sym; F's counter [31:0], and the sym from t_F to the reference point but for EqD. -/
  tF : Nat := 0
  fc : Nat := 0
  after : Nat := 0
  /-- The preamble start P, once committed. -/
  start : Option Nat := none
  aborts : Nat := 0
  onPins : Bool := false
  /-- T0 of a grant that cuts the frame on the pins short (R180). -/
  cut : Option Nat := none
  /-- Its window in the window checker (R177). -/
  window : Nat × Nat := (0, 0)
  /-- up_offset and halyard launch taken at commitment and start. -/
  upOffset : Nat := 0
  launch : Int := 0
  deriving DecidableEq, Repr

/-- A halyard frame being received: its reference point, and its header's type and plen once decoded (R172). -/
structure HalRx where
  fc : Nat := 0
  ofs : Nat := 0
  header : Option (Nat × Nat) := none
  deriving DecidableEq, Repr

/-- A halyard unit beyond its registers and tables. -/
structure HalSt where
  /-- Transmit jobs in submission order. -/
  jobs : List HalJob := []
  /-- The frame in progress while the AGC is frozen. -/
  rx : Option HalRx := none
  /-- atten and the terms of the halyard reference by the time from which they apply, newest first (R184): atten in 0.1 dB and
  the halyard reference in 0.1 dBm. -/
  levels : List (Nat × Nat × Int) := []
  deriving DecidableEq, Repr

/-- A downstream data fragment that a framer has delivered (R137): its receiver, the counter of the frame in which its header
began, its header as corrected, its payload, the cells that hold it. -/
structure LineFrag where
  r : Rx
  fc : Nat
  hdr : Bytes
  payload : Bytes
  cells : List Nat
  /-- A break marker in the fragments' order, which has no header, payload or cells (R144). -/
  mark : Bool := false
  deriving DecidableEq, Repr

/-- The dual-homing unit beyond its registers and tables (R229 to R241). -/
structure DualSt where
  /-- Fragments that wait for the unit, in the order of their delivery, and those it has passed on, which wait for line
  security (R229, R232). -/
  inbox : List LineFrag := []
  passed : List LineFrag := []
  /-- Per stream, sequences of the window not yet accepted: the 0 bits of its history (R231). -/
  gaps : Sparse (List Nat) := []
  /-- Per stream, accepted sequences and when, newest first (R236). -/
  accepts : Sparse (List (Nat × Nat)) := []
  /-- Per receiver and stream, the last sequence of an unprotected frame in progress (R230). -/
  progress : Sparse (Option Nat) := []
  /-- Per receiver and stream, the plaintext of the frame in progress, the cells that hold it, and whether a fragment of it was dropped. -/
  parts : Sparse Bytes := []
  partCells : Sparse (List Nat) := []
  broken : Sparse Bool := []
  /-- The superframe in progress: largest skew in sym, whether a duplicate was seen, accepts per tree (R236). -/
  skew : Nat := 0
  skewSeen : Bool := false
  acceptsA : Nat := 0
  acceptsB : Nat := 0
  /-- The conflict as last reported: winner, winner's and loser's epochs (R241). -/
  conflict : Option (Tree × Nat × Nat) := none
  /-- A CLAIM_CONFLICT is due on each tree; one has been sent on it in this superframe. -/
  conflictDue : PerTree Bool := ⟨false, false⟩
  conflictSent : PerTree Bool := ⟨false, false⟩
  deriving DecidableEq, Repr

/-- A snapshot whose time has come: whether it is late, the network time of the capture in units of 2^−32/243 ns, and what
every counter is captured as (R63, R64). -/
structure SnapDue where
  late : Bool
  instant : Nat
  counts : Sparse Nat
  flags : Sparse Nat
  deriving DecidableEq, Repr

/-- A snapshot's capture in progress (R63 to R68). -/
structure SnapSt where
  /-- The armed target, in ns. -/
  target : Nat := 0
  /-- The armed snapshot's time has come; its capture waits for SNAP_CAPTURE or SNAP_LATE_FIRE. -/
  due : Option SnapDue := none
  /-- What the bank being written held before. -/
  prev : Sparse Nat := []
  deriving DecidableEq, Repr

/-- A TIME_BIND a front holds (R393, R395): F_b, T_b in units of 2^−32 ns, teq in sym, w, asym_he in 2^−16 ns. -/
structure Binding where
  fb : Nat
  tb : Nat
  teq : Nat
  w : Nat
  asym : Int
  deriving DecidableEq, Repr

/-- A time front: the binding held, and the value in force since the last frame start of its control receiver: the time
at t_F and t_F itself. Times in units of 2^−32/243 ns (log entry 1). -/
structure FrontSt where
  held : Option Binding := none
  value : Option (Nat × Nat) := none
  deriving DecidableEq, Repr

/-- The time engine beyond its registers and tables (R390 to R411). -/
structure TimeSt where
  /-- The counter, in units of 2^−32/243 ns, so that a sym is a whole number of them (R391). -/
  val : Nat := 0
  /-- A source has given a value since reset (R399). -/
  acquired : Bool := false
  fronts : PerTree FrontSt := ⟨{}, {}⟩
  /-- TIME_CMD.set has been taken and waits for a frame start (R398). -/
  setPending : Bool := false
  /-- The receiver of the host binding in force. -/
  host : Option Rx := none
  /-- The ball TIME_PPS, and the last whole second, as TIME_PPS_OFS moves it, that its edges have reached: no edge of one
  second rises twice (R400, R404). -/
  pps : Bool := false
  ppsDone : Int := 0
  /-- When TIME_PPS rose (R404). -/
  ppsAt : Nat := 0
  /-- The frequency in Hz that the ball TIME_FOUT carries, 0 while it is low; the clock it is derived from, by its code as a
  clock candidate; and, while time is valid, a network time at which it rises (R405). -/
  fout : Nat := 0
  foutSource : Nat := 0
  foutEdge : Option Int := none
  /-- A start's latency measurement is in progress (R403). -/
  calibrating : Bool := false
  /-- Launch copies that have become eligible, by port and tag (R409). -/
  eligible : List (Nat × Nat) := []
  deriving DecidableEq, Repr

/-- A notice of a tree that awaits its acknowledgement (R213). -/
structure Notice where
  id : Nat
  /-- 1 dying gasp, 2 on battery, 3 restored. -/
  cause : Nat
  fc : Nat
  retries : Nat := 0
  acked : Bool := false
  /-- Its first transmission on the tree has ended. -/
  sent : Bool := false
  /-- It waits for a management burst within gasp_wait. -/
  waiting : Bool := true
  /-- It waits for the first transmission of the preceding on-battery notice, `after`, to end. -/
  held : Bool := false
  after : Nat := 0
  deriving DecidableEq, Repr

/-- A tree-mode machine beyond its registers and tables (R192 to R217). -/
structure ActSt where
  /-- The previous request of each type: type, transaction, when, the stored response (R198). -/
  requests : List (Nat × Nat × Nat × Option Bytes) := []
  /-- Notices created on the tree, newest first. -/
  notices : List Notice := []
  /-- Frame counter [31:0] of the frame in which the header of the TMC fragment received last began; and, for each message that
  the receive ring has taken and firmware has not yet handled, that counter of its own fragment (R141, R367). -/
  tmcFc : Nat := 0
  inbox : List (Nat × Bytes) := []
  /-- A WAKE has arrived: the next frame finds the tree in Operational (R211). -/
  wakeDue : Bool := false
  /-- Nonces of the key exchange in progress (R370). -/
  nonce : Option Bytes := none
  /-- Upstream requests the terminal has sent: type and transaction. -/
  sentReqs : List (Nat × Nat) := []
  nextTransaction : Nat := 0
  /-- A RANGE_CONFIRM's EqD awaits its application; the pending EqD counts as late (R202, R203). -/
  confirmed : Bool := false
  lateEqd : Bool := false
  /-- A RANGE_REQUEST has arrived in this Hailing; the superframe of the last BEACON answered (R202). -/
  ranged : Bool := false
  beaconSf : Option Nat := none
  deriving DecidableEq, Repr

/-- The keystore's nonvolatile memory and what is in progress on it (R377 to R382). -/
structure KstSt where
  /-- Slots 0 and 1 by word, byte 0 of a word in [31:24]; an unlisted word is erased, all ones. -/
  slot0 : Sparse Word := []
  slot1 : Sparse Word := []
  /-- The commit word, erased at first. -/
  commitWord : Nat := 0xFFFFFFFFFFFFFFFF
  /-- 0 nothing, 1 an update, 2 a key generation in progress. -/
  job : Nat := 0
  deriving DecidableEq, Repr

/-- The context of a job of the control crypto engine (R374, Table 11.6): what it started with, and its progress. -/
structure CcryJob where
  op : Nat := 0
  keystore : Bool := false
  index : Nat := 0
  /-- The volatile key it uses. -/
  key : Bytes := []
  /-- Input and AAD bytes processed. -/
  processed : Nat := 0
  aad : Nat := 0
  /-- GCM counter block or CMAC running block, GHASH accumulator, SHA-384 state, partial block. -/
  block : Bytes := []
  hash : Nat := 0
  sha : List (BitVec 64) := []
  part : Bytes := []
  /-- Bytes of the present input taken, and bytes of output written for it. -/
  pos : Nat := 0
  outPos : Nat := 0
  deriving DecidableEq, Repr

/-- The control crypto engine beyond its tables. -/
structure CcrySt where
  jobs : Sparse CcryJob := []
  deriving DecidableEq, Repr

/-- The task scheduler beyond TSK tables. -/
structure TskSt where
  /-- Tasks in state ready (or waiting for their flow), in the order in which they became ready (R489, R491). -/
  ready : List Nat := []
  /-- When each of them became ready, and those already counted as late (R493). -/
  since : Sparse Nat := []
  late : List Nat := []
  /-- When each timer last started its period (R488). -/
  timers : Sparse Nat := []
  deriving DecidableEq, Repr

/-- One direction of a die-to-die link (R567): a flit with another sequence than the expected is discarded. -/
structure LinkSt where
  /-- The sequence that the receiver expects. -/
  expected : Nat := 0
  /-- How many times in a row the expected flit has failed. -/
  fails : Nat := 0
  /-- The sequence last acknowledged to the sender. -/
  acked : Option Nat := none
  deriving DecidableEq, Repr

/-- Containment, and the die-to-die links (R23, R561 to R568). -/
structure RelSt where
  /-- One direction of a link, by 2 × link + direction (R566, R567). -/
  links : Sparse LinkSt := []
  /-- Units contained, by 65,536 × page + unit (R23). -/
  contained : Sparse Bool := []
  /-- The cause of each region's containment, 0 for none (R563). -/
  cause : Sparse Nat := []
  /-- Both links of the K-die have been lost and neither has trained since; no link counts as lost before the host can first read
  (R26). -/
  kLost : Bool := false
  deriving DecidableEq, Repr

/-- The Lehr engine (R574 to R576): a re-plan in progress, the voltage changes it has still to write, raises before and lowers
after the rest of the plan, as rail and mV; the readings while the rest is due; the rails that stood at 850 mV at its start. -/
structure LehrSt where
  active : Bool := false
  raises : List (Nat × Nat) := []
  lowers : List (Nat × Nat) := []
  readings : Option LehrReadings := none
  deep : List Nat := []
  /-- The rest of the plan has been applied; its lowers remain. -/
  settled : Bool := false
  /-- The next entry of the re-plan record; the rail that last derated the cores; the lanes' equalizer steps taken as their
  start point. -/
  next : Nat := 0
  derateRail : Option Nat := none
  laneStart : Sparse Nat := []
  /-- When the last re-plan fell due, and at which network-time second (R574). -/
  last : Nat := 0
  lastSec : Option Nat := none
  deriving DecidableEq, Repr

/-- The test access port (R600, R601): the instruction in force (1 BYPASS, 2 SAMPLE/PRELOAD, 3 EXTEST, 4 IDCODE, 5 CLAMP,
6 HIGHZ), the data register selected by BYPASS or IDCODE, and the boundary register. -/
structure TapSt where
  instr : Nat := 4
  dr : Word := 0x198405AF
  boundary : List Bool := []
  deriving DecidableEq, Repr
/-- The clock judge and safe forcing beyond their registers and tables (R538 to R546). -/
structure ClkSt where
  /-- When each candidate was last judged good, by code. -/
  since : Sparse Nat := []
  /-- A clock-loss reset, a main-rail reset holds regions in reset (R544, R551). -/
  lossHeld : Bool := false
  railHeld : Bool := false
  /-- The S-die outputs of Table 16.5 are forced. -/
  safeOut : Bool := false
  /-- The TAP's instruction holds the regions; the regions wait for a good clock candidate after a release (R588, R601). -/
  tapHeld : Bool := false
  clockWait : Bool := false
  /-- The release that ends a main-rail reset has still to be raised. -/
  railDue : Bool := false
  /-- The trim window in progress is broken: SYNC was lost, or the source changed (R546). -/
  trimBroken : Bool := false
  deriving DecidableEq, Repr

/-- The supply and power-source logic beyond its registers (R549 to R554). -/
structure SupSt where
  /-- The hold-off runs; a stability judgement runs. -/
  holdoff : Bool := false
  judging : Bool := false
  deriving DecidableEq, Repr

/-- A domain's saved image (R536): the registers, by register key, and the table words, by table word key; whether its
CRC fits. -/
structure SaveArea where
  regs : List (Nat × Word) := []
  words : List (Nat × Word) := []
  ok : Bool := true
  deriving DecidableEq, Repr

/-- The Keeper's power control beyond its registers and tables (R528 to R537). -/
structure KeepSt where
  /-- The state a domain in transition enters: 1 retention, 2 off. -/
  entering : Sparse Nat := []
  /-- A restore is in progress from retention (1) or off (2), by domain. -/
  restoring : Sparse Nat := []
  /-- Saved images, by domain. -/
  saves : Sparse (Option SaveArea) := []
  deriving DecidableEq, Repr

/-- A task on a core: its number, the TASK_FLAGS snapshot of its dispatch (R484, R486), and when it was dispatched. -/
structure TaskRun where
  task : Nat
  flags : Word
  since : Nat
  deriving DecidableEq, Repr

/-- A filled slot of a core: the task, and which of the two reserved areas of the core's local SRAM holds the copy of its
descriptor and of the first 256 bytes at its context address (R489). -/
structure SlotFill where
  task : Nat
  area : Nat
  deriving DecidableEq, Repr

/-- One PMP entry of a core: the range it covers, what it permits, and whether it is locked until the core is next reset (R481,
R505). -/
structure Pmp where
  base : Nat
  len : Nat
  read : Bool
  write : Bool
  exec : Bool
  locked : Bool
  deriving DecidableEq, Repr

/-- One control core beyond CORE table 0 (R481 to R496): the running task, the pre-empted ones, innermost first, the slots,
when its watchdog last restarted; its PMP entries, at most 16, whether it is in user mode, and the entry address at which the
ROM released it. -/
structure CoreRun where
  run : Option TaskRun := none
  stack : List TaskRun := []
  slots : List SlotFill := []
  kick : Nat := 0
  pmp : List Pmp := []
  user : Bool := false
  entry : Option Nat := none
  deriving DecidableEq, Repr

/-- A range that a boot record was loaded to: the record's core mask, the address and the length. -/
structure Loaded where
  mask : Nat
  addr : Nat
  len : Nat
  deriving DecidableEq, Repr

/-- The control cores and their scheduler beyond registers and tables. -/
structure CoreSt where
  cores : Sparse CoreRun := []
  /-- The task that holds each atomic flow (R491). -/
  flows : Sparse (Option Nat) := []
  /-- Local SRAM, by core × 2^18 + address within it. -/
  lsram : Sparse Byte := []
  /-- The bank of TSK tables 0 and 2 that is not in force, by entry × 4 + word, by entry (R516). -/
  otherTasks : Sparse Word := []
  otherRoutes : Sparse Word := []
  /-- Completions written on each core ring (R460, R494). -/
  completions : Sparse Nat := []
  /-- Is a half of the cores held in reset? -/
  held0 : Bool := true
  held1 : Bool := true
  /-- Core 0 stays in the ROM for want of an image (R506 step 5). -/
  noImage : Bool := false
  /-- The image that a Punty transfer has loaded into the other half: its slot and image_version (R517). -/
  parison : Option (Nat × Nat) := none
  /-- The page directories of the images of half 0 and half 1, in locked SRAM (R507, R508). -/
  dir0 : Bytes := []
  dir1 : Bytes := []
  /-- The ranges that the load in progress has filled (R505 step 5, R507). -/
  loaded : List Loaded := []
  deriving DecidableEq, Repr

/-- A flash command: its window, operation (1 read, 2 program, 3 erase, 4 page load), and its parameters as they stood
when it was written (R499, Table 15.14). -/
structure FlashCmd where
  win : Window
  op : Nat
  fromStage : Bool
  addr : Nat
  len : Nat
  sram : Nat
  deriving DecidableEq, Repr

/-- The flash controller, the external flash and the erase journal (R497 to R512). -/
structure FlshSt where
  /-- The flash's bytes that do not read as erased. -/
  mem : Sparse (Option Byte) := []
  /-- Sectors whose contents are not known, an erase having been started and not checked: the index, plus 1, of the free value
  that stands for them. -/
  unknown : Sparse Nat := []
  /-- The erase journal, by entry × 4 + word; an unlisted word is erased (R510). -/
  journal : Sparse Word := []
  /-- Commands that wait, one per window at most; the read, program or page load in progress; the erase in progress, and
  whether it is suspended. -/
  waiting : List FlashCmd := []
  cur : Option FlashCmd := none
  erase : Option FlashCmd := none
  suspended : Bool := false
  /-- last_result of the host window and of the core window. -/
  result0 : Nat := 0
  result1 : Nat := 0
  /-- 8D-8D-8D is in use. -/
  octal : Bool := false
  deriving DecidableEq, Repr

/-- The machine's state. -/
structure State where
  /-- The registers of every page and function window. -/
  rf : RegFile := {}
  /-- Indirect table words; a word not listed holds its reset contents (R58). -/
  tables : Sparse Word := []
  /-- The host's and the core's indirect window of each page (R58, R61). -/
  wins : Sparse IndWin := []
  /-- Counters, snapshot banks and counter backing (R62, R65). -/
  cnt : Counts := {}
  /-- Pennant sequencing, by page (R51). -/
  penn : Sparse PennSt := []
  /-- When an event raised at most once per ms was last raised, plus 1, by page and bit (0: never). -/
  limited : Sparse Nat := []
  /-- What the part has sent, newest first: messages, frames, pin and supply commands. The model's own record. -/
  out : List Emission := []
  /-- The model's own timeline, in sym: it orders the durations a command judges. -/
  now : Nat := 0
  /-- The value the last read returned. The model's own record. -/
  readData : Word := 0
  /-- What the upper half of the last 64-bit read returned (R41). The model's own record. -/
  readHigh : Word := 0
  /-- The index of the next free value (Config). The model's own counter. -/
  freeIx : Nat := 0
  /-- The receivers. -/
  rx : PerRx RxSt := ⟨{}, {}, {}, {}⟩
  /-- The transmitters. -/
  tx : PerTree TxSt := ⟨{}, {}⟩
  /-- The host interface. -/
  hif : HifSt := {}
  /-- The DMA engine. -/
  dma : DmaSt := {}
  /-- The UNI ports and lanes. -/
  uni : UniSt := {}
  /-- The task scheduler. -/
  tsk : TskSt := {}
  /-- The store, the switch core and the downstream scheduler. -/
  sto : StoSt := {}
  /-- The extended tier. -/
  xtr : XtrSt := {}
  /-- The classifier. -/
  cls : ClsSt := {}
  /-- The flow table's command. -/
  flow : FlowSt := {}
  /-- The upstream scheduler. -/
  usch : UschSt := {}
  /-- The grant processors. -/
  grt : PerTree GrtSt := ⟨{}, {}⟩
  /-- The policers. -/
  pol : PolSt := {}
  /-- The framers. -/
  frm : PerRx FrmSt := ⟨{}, {}, {}, {}⟩
  /-- The performance bins. -/
  pm : PmSt := {}
  /-- Line security. -/
  lsec : LsecSt := {}
  /-- Containment and the reliability machinery. -/
  rel : RelSt := {}
  /-- The halyard units. -/
  hal : PerTree HalSt := ⟨{}, {}⟩
  /-- The shared SRAM of the control cores, by byte address within it; a byte nothing has written reads 0. -/
  sram : Sparse Byte := []
  /-- The dual-homing unit. -/
  dual : DualSt := {}
  /-- A snapshot in progress. -/
  snap : SnapSt := {}
  /-- The time engine and its fronts. -/
  time : TimeSt := {}
  /-- The tree-mode machines. -/
  act : PerTree ActSt := ⟨{}, {}⟩
  /-- The next notice_id, one part-wide 16-bit counter (R213). -/
  noticeNext : Nat := 0
  /-- The control crypto engine. -/
  ccry : CcrySt := {}
  /-- The keystore. -/
  kst : KstSt := {}
  /-- The clock judge and safe forcing. -/
  clk : ClkSt := {}
  /-- The Lehr engine. -/
  lehr : LehrSt := {}
  /-- The test access port. -/
  tap : TapSt := {}
  /-- The supply and power-source logic. -/
  sup : SupSt := {}
  /-- The Keeper's power control. -/
  keep : KeepSt := {}
  /-- The control cores. -/
  core : CoreSt := {}
  /-- The flash controller, the flash and the erase journal. -/
  flsh : FlshSt := {}
  /-- The commands that wait, first in, first out. -/
  pending : List Instr := []
  deriving DecidableEq, Repr

/-- The machine right after reset: every register at the reset value of its register table (a register no write has
changed is not listed), every table at its reset contents, every counter and bank 0, nothing queued, and everything
else at the value its field names (log entry 2). Each line region starts frozen, CLK_STATUS.frozen_a and frozen_b (R543); the
force on its transmitter shows in TX_STATUS once the region runs and its page is no longer dark (R107, R120). -/
def State.reset : State :=
  { rf := { regs := [(2060, 0x0C000000#32)] }
    tx := ⟨{ clockForce := true }, { clockForce := true }⟩ }

end Sys2Proof.Machine
end

