-- ==== Sys2Proof/Machine/Updates.lean ====
section
/-! DEFINITION. One named update per field of State. -/

namespace Sys2Proof.Machine

/-- The `rf` field changed by `f`. -/
def State.modRf (s : State) (f : RegFile → RegFile) : State := { s with rf := f s.rf }

/-- The `tables` field changed by `f`. -/
def State.modTables (s : State) (f : Sparse Word → Sparse Word) : State := { s with tables := f s.tables }

/-- The `wins` field changed by `f`. -/
def State.modWins (s : State) (f : Sparse IndWin → Sparse IndWin) : State := { s with wins := f s.wins }

/-- The `cnt` field changed by `f`. -/
def State.modCnt (s : State) (f : Counts → Counts) : State := { s with cnt := f s.cnt }

/-- The `penn` field changed by `f`. -/
def State.modPenn (s : State) (f : Sparse PennSt → Sparse PennSt) : State := { s with penn := f s.penn }

/-- The `limited` field changed by `f`. -/
def State.modLimited (s : State) (f : Sparse Nat → Sparse Nat) : State := { s with limited := f s.limited }

/-- The `out` field changed by `f`. -/
def State.modOut (s : State) (f : List Emission → List Emission) : State := { s with out := f s.out }

/-- The `now` field changed by `f`. -/
def State.modNow (s : State) (f : Nat → Nat) : State := { s with now := f s.now }

/-- The `readData` field changed by `f`. -/
def State.modReadData (s : State) (f : Word → Word) : State := { s with readData := f s.readData }

/-- The `readHigh` field changed by `f`. -/
def State.modReadHigh (s : State) (f : Word → Word) : State := { s with readHigh := f s.readHigh }

/-- The `freeIx` field changed by `f`. -/
def State.modFreeIx (s : State) (f : Nat → Nat) : State := { s with freeIx := f s.freeIx }

/-- The `rx` field changed by `f`. -/
def State.modRx (s : State) (f : PerRx RxSt → PerRx RxSt) : State := { s with rx := f s.rx }

/-- The `tx` field changed by `f`. -/
def State.modTx (s : State) (f : PerTree TxSt → PerTree TxSt) : State := { s with tx := f s.tx }

/-- The `hif` field changed by `f`. -/
def State.modHif (s : State) (f : HifSt → HifSt) : State := { s with hif := f s.hif }

/-- The `dma` field changed by `f`. -/
def State.modDma (s : State) (f : DmaSt → DmaSt) : State := { s with dma := f s.dma }

/-- The `uni` field changed by `f`. -/
def State.modUni (s : State) (f : UniSt → UniSt) : State := { s with uni := f s.uni }

/-- The `tsk` field changed by `f`. -/
def State.modTsk (s : State) (f : TskSt → TskSt) : State := { s with tsk := f s.tsk }

/-- The `sto` field changed by `f`. -/
def State.modSto (s : State) (f : StoSt → StoSt) : State := { s with sto := f s.sto }

/-- The `xtr` field changed by `f`. -/
def State.modXtr (s : State) (f : XtrSt → XtrSt) : State := { s with xtr := f s.xtr }

/-- The `cls` field changed by `f`. -/
def State.modCls (s : State) (f : ClsSt → ClsSt) : State := { s with cls := f s.cls }

/-- The `flow` field changed by `f`. -/
def State.modFlow (s : State) (f : FlowSt → FlowSt) : State := { s with flow := f s.flow }

/-- The `usch` field changed by `f`. -/
def State.modUsch (s : State) (f : UschSt → UschSt) : State := { s with usch := f s.usch }

/-- The `grt` field changed by `f`. -/
def State.modGrt (s : State) (f : PerTree GrtSt → PerTree GrtSt) : State := { s with grt := f s.grt }

/-- The `pol` field changed by `f`. -/
def State.modPol (s : State) (f : PolSt → PolSt) : State := { s with pol := f s.pol }

/-- The `frm` field changed by `f`. -/
def State.modFrm (s : State) (f : PerRx FrmSt → PerRx FrmSt) : State := { s with frm := f s.frm }

/-- The `pm` field changed by `f`. -/
def State.modPm (s : State) (f : PmSt → PmSt) : State := { s with pm := f s.pm }

/-- The `lsec` field changed by `f`. -/
def State.modLsec (s : State) (f : LsecSt → LsecSt) : State := { s with lsec := f s.lsec }

/-- The `rel` field changed by `f`. -/
def State.modRel (s : State) (f : RelSt → RelSt) : State := { s with rel := f s.rel }

/-- The `hal` field changed by `f`. -/
def State.modHal (s : State) (f : PerTree HalSt → PerTree HalSt) : State := { s with hal := f s.hal }

/-- The `sram` field changed by `f`. -/
def State.modSram (s : State) (f : Sparse Byte → Sparse Byte) : State := { s with sram := f s.sram }

/-- The `dual` field changed by `f`. -/
def State.modDual (s : State) (f : DualSt → DualSt) : State := { s with dual := f s.dual }

/-- The `snap` field changed by `f`. -/
def State.modSnap (s : State) (f : SnapSt → SnapSt) : State := { s with snap := f s.snap }

/-- The `time` field changed by `f`. -/
def State.modTime (s : State) (f : TimeSt → TimeSt) : State := { s with time := f s.time }

/-- The `act` field changed by `f`. -/
def State.modAct (s : State) (f : PerTree ActSt → PerTree ActSt) : State := { s with act := f s.act }

/-- The `noticeNext` field changed by `f`. -/
def State.modNoticeNext (s : State) (f : Nat → Nat) : State := { s with noticeNext := f s.noticeNext }

/-- The `ccry` field changed by `f`. -/
def State.modCcry (s : State) (f : CcrySt → CcrySt) : State := { s with ccry := f s.ccry }

/-- The `kst` field changed by `f`. -/
def State.modKst (s : State) (f : KstSt → KstSt) : State := { s with kst := f s.kst }

/-- The `clk` field changed by `f`. -/
def State.modClk (s : State) (f : ClkSt → ClkSt) : State := { s with clk := f s.clk }

/-- The `lehr` field changed by `f`. -/
def State.modLehr (s : State) (f : LehrSt → LehrSt) : State := { s with lehr := f s.lehr }

/-- The `tap` field changed by `f`. -/
def State.modTap (s : State) (f : TapSt → TapSt) : State := { s with tap := f s.tap }

/-- The `sup` field changed by `f`. -/
def State.modSup (s : State) (f : SupSt → SupSt) : State := { s with sup := f s.sup }

/-- The `keep` field changed by `f`. -/
def State.modKeep (s : State) (f : KeepSt → KeepSt) : State := { s with keep := f s.keep }

/-- The `core` field changed by `f`. -/
def State.modCore (s : State) (f : CoreSt → CoreSt) : State := { s with core := f s.core }

/-- The `flsh` field changed by `f`. -/
def State.modFlsh (s : State) (f : FlshSt → FlshSt) : State := { s with flsh := f s.flsh }

/-- The `pending` field changed by `f`. -/
def State.modPending (s : State) (f : List Instr → List Instr) : State := { s with pending := f s.pending }

end Sys2Proof.Machine
end

