-- ==== Sys2Proof/Machine/Ops.lean ====
section
/-! DEFINITION. The named operations over registers, tables and counters that every meaning is written with. -/

namespace Sys2Proof.Machine

/-- `f` applied where `c` holds. -/
def State.iff (c : Bool) (f : State → State) (s : State) : State := if c then f s else s

/-! Registers. -/

/-- Copy `c` (0, 1 or 2) of a register. -/
def State.copy (s : State) (c p off : Nat) : Word :=
  let k := regKey p off
  match c with
  | 0 => Sparse.get (regDef k) s.rf.regs k
  | 1 => Sparse.get (regDef k) s.rf.copy1 k
  | _ => Sparse.get (regDef k) s.rf.copy2 k

/-- Do three copies of a field all differ (R57)? -/
def noMajority (a b c : Nat) : Bool := a != b && b != c && a != c

/-- The value a field of three copies has: the majority, or the safe value where all three differ (R56, R57). With
two equal copies the bitwise majority is their value. -/
def voteField (safe a b c : Nat) : Nat :=
  if a = b ∨ a = c then a else if b = c then b else safe

/-- The vote of three copies of a register, field by field: `n` fields of `w` bits from bit 0. -/
def voteWord (w safe n : Nat) (a b c : Word) : Word :=
  (List.range n).foldl (fun acc i =>
    let f : Fld := ⟨0, w * (i + 1) - 1, w * i⟩
    f.put (voteField safe (f.get a) (f.get b) (f.get c)) acc) 0#32

/-- What a register holds: the voted value of an RWT register, the stored value of any other (R56). -/
def State.reg (s : State) (p off : Nat) : Word :=
  match rwtVote p off with
  | none => s.copy 0 p off
  | some (w, safe, n) =>
    if s.copy 0 p off = s.copy 1 p off ∧ s.copy 0 p off = s.copy 2 p off then s.copy 0 p off
    else voteWord w safe n (s.copy 0 p off) (s.copy 1 p off) (s.copy 2 p off)

/-- A register set to a value, all three copies of an RWT register at once (R56). -/
def State.putReg (p off : Nat) (v : Word) (s : State) : State :=
  let k := regKey p off
  s.modRf (fun r =>
    if (rwtVote p off).isSome then
      { r with regs := Sparse.put (regDef k) k v r.regs, copy1 := Sparse.put (regDef k) k v r.copy1,
               copy2 := Sparse.put (regDef k) k v r.copy2 }
    else { r with regs := Sparse.put (regDef k) k v r.regs })

/-- A register field. -/
def State.fld (s : State) (p : Nat) (f : Fld) : Nat := f.get (s.reg p f.off)

/-- A register field as a flag. -/
def State.flag (s : State) (p : Nat) (f : Fld) : Bool := s.fld p f != 0

/-- A register field as a signed number. -/
def State.sfld (s : State) (p : Nat) (f : Fld) : Int := signed (f.hi + 1 - f.lo) (s.fld p f)

/-- A register field set to a value; the register's other bits are kept. -/
def State.setFld (p : Nat) (f : Fld) (v : Nat) (s : State) : State :=
  s.putReg p f.off (f.put v (s.reg p f.off))

/-- A signed register field set to a value. -/
def State.setSFld (p : Nat) (f : Fld) (v : Int) (s : State) : State :=
  s.setFld p f (unsigned (f.hi + 1 - f.lo) v)

/-- A register back at its reset value. -/
def State.resetReg (p off : Nat) (s : State) : State := s.putReg p off (regReset p off)

/-- PAGE_CTRL.enable of a page. -/
def State.enabled (s : State) (p : Nat) : Bool := s.flag p HDR.pageCtrlEnable

/-! Table words. -/

/-- Word `w` of entry `e` of table `t` of page `p`. -/
def State.tw (s : State) (p t e w : Nat) : Word :=
  Sparse.get (tblDef (tblKey p t e w)) s.tables (tblKey p t e w)

/-- A table word set to a value. -/
def State.putTw (p t e w : Nat) (v : Word) (s : State) : State :=
  s.modTables (Sparse.put (tblDef (tblKey p t e w)) (tblKey p t e w) v)

/-- Bits [hi:lo] of a table word. -/
def State.tf (s : State) (p t e w hi lo : Nat) : Nat := Fld.get ⟨0, hi, lo⟩ (s.tw p t e w)

/-- Bits [hi:lo] of a table word set to a value. -/
def State.setTf (p t e w hi lo v : Nat) (s : State) : State :=
  s.putTw p t e w (Fld.put ⟨0, hi, lo⟩ v (s.tw p t e w))

/-- A bit of a table word as a flag. -/
def State.tb (s : State) (p t e w b : Nat) : Bool := s.tf p t e w b b != 0

/-- Is an input pin open (R572)? It then takes its safe value, and no event at its pad acts. -/
def State.padOpen (s : State) (i : Nat) : Bool := s.tb pgPIN 0 i 0 5

/-- The words of an entry. -/
def State.entry (s : State) (p t e width : Nat) : List Word := (List.range width).map (s.tw p t e)

/-- An entry's words set from word `w` on. -/
def State.putEntry (p t e : Nat) : Nat → List Word → State → State
  | _, [], s => s
  | w, v :: vs, s => State.putEntry p t e (w + 1) vs (s.putTw p t e w v)

/-- The entries of a table that hold anything but their reset contents, rising. -/
def State.tblEntries (s : State) (p t : Nat) : List Nat :=
  (((Sparse.keys s.tables).filter (fun k => k / 0x800000 == p * 8 + t)).map (fun k => k / 32 % 0x40000)).eraseDups

/-- Every word of a table back at its reset contents. -/
def State.resetTable (p t : Nat) (s : State) : State :=
  s.modTables (fun m => m.filter (fun kv => kv.1 / 0x800000 ≠ p * 8 + t))

/-- Every table of a page back at its reset contents. -/
def State.resetTables (p : Nat) (s : State) : State :=
  s.modTables (fun m => m.filter (fun kv => kv.1 / 0x4000000 ≠ p))

/-! Counters (R62, R71). -/

/-- First counter of the unit of receiver `r`. -/
def cuRX (r : Rx) : Nat := 6 * rxIx r
def cuTX (t : Tree) : Nat := 24 + 7 * treeIx t
def cuFRM (r : Rx) : Nat := 38 + 16 * rxIx r
def cuPM : Nat := 102
def cuHAL (t : Tree) : Nat := 120 + 12 * treeIx t
def cuACT (t : Tree) : Nat := 144 + 20 * treeIx t
def cuDUAL : Nat := 184
def cuGRT (t : Tree) : Nat := 202 + 17 * treeIx t
def cuUSCH : Nat := 236
/-- Three counters per upstream queue (Table 2.12). -/
def cuQueue (q : Nat) : Nat := 246 + 3 * q
def cuPOL : Nat := 12534
def cuCLS : Nat := 12544
def cuFLOW : Nat := 12560
def cuSTO : Nat := 12570
def cuXTR : Nat := 12582
def cuSWC : Nat := 12590
def cuDSCH : Nat := 12605
/-- Two counters per tenant and class pair (Table 2.12). -/
def cuPair (pair : Nat) : Nat := 12612 + 2 * pair
def cuMIR : Nat := 20804
def cuLSEC : Nat := 20809
/-- Two counters per security context (Table 2.12). -/
def cuCtx (c : Nat) : Nat := 20820 + 2 * c
def cuCCRY : Nat := 22868
def cuKST : Nat := 22875
def cuTIME : Nat := 22880
/-- Ingress stamps of port `p`; one-step insertions stand 16 further on (Table 2.12). -/
def cuTimePort (p : Nat) : Nat := 22894 + p
def cuUNIQ (port : Nat) : Nat := 22926 + 18 * port
def cuLANE : Nat := 23214
def cuHIF : Nat := 23246
def cuDMA : Nat := 23262
/-- Two counters per host function (Table 2.12). -/
def cuFn (f : Nat) : Nat := 23273 + 2 * f
def cuCORE : Nat := 23785
/-- CORE unit 1. -/
def cuCORE1 : Nat := 23849
def cuTSK : Nat := 23858
def cuFLSH : Nat := 23867
def cuKEEP : Nat := 23882
def cuCLK : Nat := 23988
def cuSUP : Nat := 23996
def cuLEHR : Nat := 24005
def cuD2D : Nat := 24012
def cuPIN : Nat := 24027
def cuSYS : Nat := 24032
def cuCNT : Nat := 24048

/-- Is the counter a 72-bit byte counter? FRM 14, queue bytes, GRT 10 and 11, USCH 5 and 7, POL 4 and 6 to 9, pair bytes,
CCRY 6, UNIQ 1 and 3, and those that Table 10.16 and the LSEC, DMA and FLSH lists mark. -/
def wideCounter (i : Nat) : Bool :=
  if i < 246 then (38 ≤ i && i < 102 && (i - 38) % 16 == 14) || (202 ≤ i && i < 236 && ((i - 202) % 17 == 10 || (i - 202) % 17 == 11)) || i == 241 || i == 243
  else if i < 12534 then (i - 246) % 3 == 1
  else if i < 12544 then i == 12538 || i ≥ 12540
  else if 12612 ≤ i && i < 20804 then (i - 12612) % 2 == 1
  else if i == 22874 then true
  else if 22926 ≤ i && i < 23214 then (i - 22926) % 18 == 1 || (i - 22926) % 18 == 3
  else wideExtra.contains i
where
  /-- XTR 4 and 5, SWC 14, DSCH 3 and 5, MIR 4, LSEC 9 and 10, DMA 1 and 7, FLSH 12 and 13. -/
  wideExtra : List Nat := [12586, 12587, 12604, 12608, 12610, 20808, 20818, 20819, 23263, 23269, 23879, 23880]

/-- The modulus a counter wraps at (R62). -/
def counterMod (i : Nat) : Nat := if wideCounter i then 2 ^ 72 else 2 ^ 64

/-- A live count. -/
def State.counter (s : State) (i : Nat) : Nat := Sparse.get 0 s.cnt.live i

/-- `n` added to counter `i`, modulo its width (R62). -/
def State.countBy (i n : Nat) (s : State) : State :=
  s.modCnt (fun c => { c with live := Sparse.put 0 i ((Sparse.get 0 c.live i + n) % counterMod i) c.live })

/-- Counter `i` advanced by 1. -/
def State.count (i : Nat) (s : State) : State := s.countBy i 1

/-! Outputs and free values. -/

/-- Something sent. -/
def State.emit (e : Emission) (s : State) : State := s.modOut (e :: ·)

/-- The next free value, below `m`. -/
def State.freeVal (s : State) (m : Nat) : Nat := Config.free s.freeIx % m

/-- The next free value is used up. -/
def State.useFree (s : State) : State := s.modFreeIx (· + 1)

/-- The place the hardware chooses among those free: a free value (log entry 37). The caller uses the free value up. -/
def State.pick (l : List Nat) (s : State) : Option Nat := l[s.freeVal l.length]?

/-- Sym in a millisecond and in a microsecond, rounded down where it is no whole number (R7, R8). -/
def symPerMs : Nat := 31104000
def symPerUs : Nat := 31104

end Sys2Proof.Machine
end

