-- ==== Sys2Proof/Machine/Flags.lean ====
section
/-! DEFINITION. Pennants (R51 to R55), the interrupt messages they send (R53, R458, R459), the task flags they set
(R487), and the record of ignored writes (R50). -/

namespace Sys2Proof.Machine

/-! Functions and their vectors. -/

/-- What a function reads as before anything changed it. -/
def State.fn (s : State) (f : Nat) : FnSt := Sparse.get {} s.hif.fns f

/-- Function `f` changed by `g`. -/
def State.modFn (f : Nat) (g : FnSt → FnSt) (s : State) : State :=
  s.modHif (fun h => { h with fns := Sparse.put {} f (g (Sparse.get {} h.fns f)) h.fns })

/-- PF 0 exists; VF n exists while VF Enable is 1 and n ≤ NumVFs (R453). -/
def State.fnExists (s : State) (f : Nat) : Bool :=
  f == 0 || (s.hif.vfEnable && decide (f ≤ s.hif.numVfs) && decide (f ≤ 255))

/-- Base and count of a function's vectors at reset (R458). -/
def resetVectors (f : Nat) : Nat × Nat := if f = 0 then (0, 256) else (256 + 7 * (f - 1), 7)

/-- Base and count of a function's vectors in force. -/
def State.vectors (s : State) (f : Nat) : Nat × Nat := ((s.fn f).alloc).getD (resetVectors f)

/-- The first function of a list that owns vector `v`. -/
def State.ownerIn (s : State) (v : Nat) : List Nat → Option Nat
  | [] => none
  | f :: fs =>
    if (s.vectors f).1 ≤ v ∧ v < (s.vectors f).1 + (s.vectors f).2 then some f else s.ownerIn v fs

/-- The function that owns vector `v`: at reset by arithmetic, otherwise the function whose range holds it (R458). -/
def State.vectorOwner (s : State) (v : Nat) : Option Nat :=
  s.ownerIn v (Sparse.keys s.hif.fns ++ [if v < 256 then 0 else (v - 256) / 7 + 1])

/-- The key of a function's vector. -/
def vecKey (f v : Nat) : Nat := f * 2048 + v

/-- Word `w` of the MSI-X table entry of function `f`, vector `v`; the control word's mask bit is set until it is
written (PRESUMED from the PCI Express MSI-X capability, log entry 13). -/
def State.msixWord (s : State) (f v w : Nat) : Word :=
  Sparse.get (if w = 3 then 1#32 else 0#32) s.hif.msixTab (vecKey f v * 4 + w)

/-- The message of function `f`, vector `v`: sent, or kept pending while masked (R459). -/
def State.sendOwned (f v : Nat) (s : State) : State :=
  if (s.msixWord f v 3).getLsbD 0 || (s.fn f).fnMask then
    s.modHif (fun h => { h with pba := Sparse.put false (vecKey f v) true h.pba })
  else
    (s.emit (.msix f v (s.msixWord f v 0) (s.msixWord f v 1) (s.msixWord f v 2))).count (cuHIF + 10)

/-- Is a message for function `f` dropped (R459)? -/
def State.dropsMsix (s : State) (f : Nat) : Bool :=
  !s.fnExists f || !(s.fn f).msixEnable || (s.fn f).flr

/-! Task flags. -/

/-- Does the wait condition of task `k` hold (R485)? -/
def State.taskWaitHolds (s : State) (k : Nat) : Bool :=
  let flags := s.tw pgTSK 1 k 0
  let mask := s.tw pgTSK 0 k 1
  if s.tb pgTSK 0 k 0 5 then decide (flags &&& mask = mask) && decide (mask ≠ 0#32)
  else decide (flags &&& mask ≠ 0#32)

/-- Does another task hold the flow that task `k` names (R491)? -/
def State.flowBlocked (s : State) (k : Nat) : Bool :=
  s.tb pgTSK 0 k 3 16 && (match Sparse.get none s.core.flows (s.tf pgTSK 0 k 3 15 0) with
    | some h => h != k
    | none => false)

/-- A waiting task whose descriptor is valid and whose wait condition holds becomes ready, behind the tasks already
ready, or waits for its flow; a ready task whose condition no longer holds waits again (R485, R491). -/
def State.judgeTask (k : Nat) (s : State) : State :=
  let st := s.tf pgTSK 1 k 1 2 0
  let ok := s.tb pgTSK 0 k 0 0 && s.taskWaitHolds k
  if st = 0 ∧ ok then
    let held := s.flowBlocked k
    ((s.setTf pgTSK 1 k 1 2 0 (if held then 5 else 1)).modTsk (fun t => { t with
      ready := t.ready ++ [k], since := Sparse.put 0 k s.now t.since, late := t.late.filter (· ≠ k) })).iff held
      (State.count (cuTSK + 8))
  else if (st = 1 ∨ st = 5) ∧ ok = false then
    (s.setTf pgTSK 1 k 1 2 0 0).modTsk (fun t => { t with ready := t.ready.filter (· ≠ k) })
  else s

/-- Flag `b` of task `k` set, and the task judged (R485, R486). -/
def State.setTaskFlag (k b : Nat) (s : State) : State :=
  (s.putTw pgTSK 1 k 0 (s.tw pgTSK 1 k 0 ||| (1#32 <<< b))).judgeTask k

/-- An event of source `e` sets the flag its route entry names (R487). -/
def State.routeEvent (e : Nat) (s : State) : State :=
  if s.tb pgTSK 2 e 0 15 then
    (s.setTaskFlag (s.tf pgTSK 2 e 0 9 0) (s.tf pgTSK 2 e 0 14 10)).count (cuTSK + 3)
  else s

/-! Pennants. -/

/-- The sequencing of a page's pennant. -/
def State.pennant (s : State) (p : Nat) : PennSt := Sparse.get {} s.penn p

/-- The sequencing of a page's pennant set. -/
def State.putPennant (p : Nat) (x : PennSt) (s : State) : State := s.modPenn (Sparse.put {} p x)

/-- The sequence of a pennant advances by 1, modulo 256 (R51). -/
def State.advanceSeq (p : Nat) (s : State) : State :=
  s.setFld p HDR.pennantSequence (s.fld p HDR.pennantSequence + 1)

/-- The event bit is set, and the event's source sets its task flag (R51, R487). -/
def State.setEvent (p b : Nat) (s : State) : State :=
  (s.setFld p ⟨0x010, b, b⟩ 1).routeEvent (32 * p + b)

/-- Is event bit `b` of page `p` unmasked at this instant (R53)? -/
def State.unmasked (s : State) (p b : Nat) : Bool := s.fld p ⟨0x014, b, b⟩ == 0

/-- One occurrence of event `b` of page `p` without its message: the bit, and the sequence now or at the end of the
1 µs hold (R51). -/
def State.occur (p b : Nat) (s : State) : State :=
  let u := s.unmasked p b
  let x := s.pennant p
  let s := s.setEvent p b
  if x.hold then s.putPennant p { x with pend := true, unmasked := x.unmasked || u }
  else (s.advanceSeq p).putPennant p { hold := true }

/-- Does an occurrence of event `b` of page `p` send a message at once (R53)? -/
def State.sendsNow (s : State) (p b : Nat) : Bool :=
  s.unmasked p b && !(s.pennant p).hold && s.flag p HDR.pennantRouteRouteEnable

/-- The key of an event of a page. -/
def eventKey (p b : Nat) : Nat := p * 32 + b

/-- May event `b` of page `p`, raised at most once per ms, be raised now? -/
def State.mayRaise (s : State) (p b : Nat) : Bool :=
  let last := Sparse.get 0 s.limited (eventKey p b)
  last == 0 || decide (last - 1 + symPerMs ≤ s.now)

/-- The time of a raise is noted. -/
def State.noteRaise (p b : Nat) (s : State) : State :=
  s.modLimited (Sparse.put 0 (eventKey p b) (s.now + 1))

/-- A message on part-wide vector `v`: sent by its owner, or dropped, counted and reported by msix_dropped (R459).
msix_dropped sends its own message at most once, because it is raised at most once per ms. -/
def State.sendVector (v : Nat) (s : State) : State :=
  match s.vectorOwner v with
  | some f =>
    if s.dropsMsix f then dropped s else s.sendOwned f (v - (s.vectors f).1)
  | none => dropped s
where
  /-- The message of msix_dropped itself, without a further report. -/
  own (s : State) : State :=
    match s.vectorOwner (s.fld pgHIF HDR.pennantRouteVector) with
    | some f =>
      if s.dropsMsix f then s.count (cuHIF + 11)
      else s.sendOwned f (s.fld pgHIF HDR.pennantRouteVector - (s.vectors f).1)
    | none => s.count (cuHIF + 11)
  /-- A dropped message. -/
  dropped (s : State) : State :=
    let s := s.count (cuHIF + 11)
    if s.mayRaise pgHIF 8 then
      let now := s.sendsNow pgHIF 8
      let s := (s.noteRaise pgHIF 8).occur pgHIF 8
      if now then own s else s
    else s

/-- A message on the vector of a page's pennant, while its route is enabled (R53). -/
def State.sendPennant (p : Nat) (s : State) : State :=
  if s.flag p HDR.pennantRouteRouteEnable then s.sendVector (s.fld p HDR.pennantRouteVector) else s

/-- An event of a page: its bit, its sequence, its task flag, and its message (R51, R53, R487). -/
def State.raise (p b : Nat) (s : State) : State :=
  let now := s.sendsNow p b
  let s := s.occur p b
  if now then s.sendPennant p else s

/-- An event raised at most once per ms. -/
def State.raiseMs (p b : Nat) (s : State) : State :=
  if s.mayRaise p b then (s.noteRaise p b).raise p b else s

/-- The end of the 1 µs hold: a pending advance takes place, and a new hold begins with it (R51, R53). -/
def State.pennantHoldEnd (p : Nat) (s : State) : State :=
  let x := s.pennant p
  if x.hold then
    if x.pend then
      ((s.advanceSeq p).putPennant p { hold := true }).iff x.unmasked (State.sendPennant p)
    else s.putPennant p {}
  else s

/-! Ignored writes. -/

/-- An ignored write of page `p` at `off` with its cause: PAGE_CFG_STATUS, PENNANT bit 23, SYS index 1 (R50). -/
def State.ignored (p off cause : Nat) (s : State) : State :=
  let s := s.setFld p HDR.pageCfgStatusIgnored 1
  let s := s.setFld p HDR.pageCfgStatusIgnoredCount (satAdd 127 (s.fld p HDR.pageCfgStatusIgnoredCount) 1)
  let s := s.setFld p HDR.pageCfgStatusIgnoredOffset (off / 4)
  let s := s.setFld p HDR.pageCfgStatusIgnoredCause cause
  (s.count (cuSYS + 1)).raise p 23

/-- A stale pennant clear of page `p` (R52). -/
def State.stale (p : Nat) (s : State) : State :=
  (s.setFld p HDR.pageCfgStatusStaleCount (satAdd 255 (s.fld p HDR.pageCfgStatusStaleCount) 1)).count (cuSYS + 2)

end Sys2Proof.Machine
end

