-- ==== Sys2Proof/Machine/Operands.lean ====
section
/-! DEFINITION. The forms of a register access: dark pages (R44, R45), the alias views (R46), which writes are ignored
and with which cause (R41, R48 to R50), multi-word quantities (R42). -/

namespace Sys2Proof.Machine

/-! Dark pages. -/

/-- The power domain that holds instance `i` of a block (Table 16.1). -/
def blkDomain (b : Blk) (i : Nat) : Option Nat :=
  match b with
  | .rx => some (if i < 2 then i else 5 + (i - 2))
  | .frm => some (if i < 2 then i else 5 + (i - 2))
  | .tx => some (2 + 5 * i)
  | .hal => some (3 + 5 * i)
  | .act => some (4 + 5 * i)
  | .grt => some (4 + 5 * i)
  | .sto => some 10
  | .xtr => some 10
  | .cls => some 13
  | .flow => some 13
  | .pol => some 13
  | .swc => some 14
  | .dsch => some 14
  | .mir => some 14
  | .usch => some 14
  | .dual => some 14
  | .uniq => some (15 + i)
  | .lane => some 15
  | .lsec => some 24
  | .ccry => some 25
  | _ => none

/-- The power domain that holds a page's registers (Table 16.1); CORE, TSK and FLSH stand in no cluster's domain, and
the Keeper's pages in none. -/
def pageDomain (p : Nat) : Option Nat :=
  match pageInfo p with
  | none => none
  | some i => blkDomain i.blk i.inst

/-- The state of a power domain: 0 on, 1 retention, 2 off, 3 in transition (KEEP_STATE0, KEEP_STATE1). -/
def State.domState (s : State) (d : Nat) : Nat :=
  if d < 16 then s.fld pgKEEP ⟨0x038, 2 * d + 1, 2 * d⟩ else s.fld pgKEEP ⟨0x03C, 2 * (d - 16) + 1, 2 * (d - 16)⟩

/-- The state of a power domain set. -/
def State.setDomState (d v : Nat) (s : State) : State :=
  if d < 16 then s.setFld pgKEEP ⟨0x038, 2 * d + 1, 2 * d⟩ v
  else s.setFld pgKEEP ⟨0x03C, 2 * (d - 16) + 1, 2 * (d - 16)⟩ v

/-- Is the domain on? -/
def State.domOn (s : State) (d : Nat) : Bool := s.domState d == 0

/-- The state of a region: 0 running, 1 held in reset, 2 contained, 3 every domain off (Table 1.4). -/
def State.region (s : State) (r : Nat) : Nat := s.fld pgSYS ⟨0x030, 2 * r + 1, 2 * r⟩

/-- The state of a region set. -/
def State.setRegion (r v : Nat) (s : State) : State := s.setFld pgSYS ⟨0x030, 2 * r + 1, 2 * r⟩ v

/-- Is the line region of tree `t` frozen (R543)? -/
def State.frozen (s : State) : Tree → Bool
  | .a => s.flag pgCLK CLK.statusFrozenA
  | .b => s.flag pgCLK CLK.statusFrozenB

/-- Is die-to-die link `l` up: 0 L–S, 1 S–K, 2 L–K? -/
def State.linkUp (s : State) (l : Nat) : Bool := s.flag pgD2D ⟨0x030, l, l⟩

/-- Can an access from the S-die reach the die: 0 L, 1 S, 2 K? The K-die is dark while S–K or L–K is down (R567). -/
def State.dieReachable (s : State) (die : Nat) : Bool :=
  match die with
  | 0 => s.linkUp 0
  | 1 => true
  | _ => s.linkUp 1 && s.linkUp 2

/-- Is the block of page `p` powered, out of reset and clocked? A contained region is held in reset (R561); a frozen line
region stops all but its receivers (R543). -/
def State.alive (s : State) (p : Nat) : Bool :=
  match pageInfo p with
  | none => true
  | some i =>
    (match pageDomain p with | some d => s.domOn d | none => true) && s.region i.region == 0 &&
    !(i.region == 0 && i.blk != .rx && s.frozen .a) && !(i.region == 1 && i.blk != .rx && s.frozen .b)

/-- Is unit `u` of page `p` contained (R23)? -/
def State.unitContained (s : State) (p u : Nat) : Bool := Sparse.get false s.rel.contained (p * 65536 + u)

/-- Is the block of page `p` at work: alive, enabled, not contained? -/
def State.works (s : State) (p : Nat) : Bool := s.alive p && s.enabled p && !s.unitContained p 0

/-- Does firmware act: with CORE PAGE_CTRL.enable 0 every core is halted, and the transitions that firmware makes do not take
place (R519)? -/
def State.firmware (s : State) : Bool := s.works pgCORE

/-- Is page `p` dark (R44)? -/
def State.dark (s : State) (p : Nat) : Bool :=
  match pageInfo p with
  | none => false
  | some i => !s.alive p || !s.dieReachable i.die

/-- One access to a dark page (R44, R45). -/
def State.darkAccess (p : Nat) (isWrite : Bool) (s : State) : State :=
  let s := s.setFld pgSYS SYS.darkAccessCount (satAdd 65535 (s.fld pgSYS SYS.darkAccessCount) 1)
  let s := s.setFld pgSYS SYS.darkAccessLastPage p
  let s := s.setFld pgSYS SYS.darkAccessLastWasWrite (b2n isWrite)
  s.count cuSYS

/-! Views. -/

/-- What a write of `v` through a view makes of `old` (Table 2.3). -/
def viewApply : View → Word → Word → Word
  | .normal, _, v => v
  | .set, old, v => old ||| v
  | .clear, old, v => old &&& ~~~ v
  | .toggle, old, v => old ^^^ v

/-- What becomes of a write. -/
inductive Verdict where
  /-- The page is dark: counted, not recorded. -/
  | dark
  /-- Nothing stands at the offset. -/
  | reserved
  /-- Ignored and recorded with the cause of Table 2.5. -/
  | ignored (cause : Nat)
  /-- It takes effect. -/
  | apply
  deriving DecidableEq, Repr

/-- The bits of a register that a write in the current state can reach, commands apart. -/
def State.writable (s : State) (p : Nat) (r : RegInfo) : Word :=
  BitVec.ofNat 32 r.rw ||| BitVec.ofNat 32 r.rwt ||| (if s.enabled p then 0#32 else BitVec.ofNat 32 r.rwe)

/-- What becomes of a write of page `p` at `off`, with the causes in the order 0b11, 0b10, 0b00, 0b01 (R50). -/
def State.judge (s : State) (p off : Nat) (acc : Access) : Verdict :=
  if s.dark p then .dark
  else if s.flag p HDR.pageCtrlSoftReset && p != pgSYS then .ignored 3
  else if acc.be ≠ 15#4 then .ignored 2
  else match regInfo p off with
    | none => .reserved
    | some r =>
      if off = 0x010 then (if acc.view = .normal then .apply else .ignored 1)
      else if off = 0x008 ∧ p = pgSYS then .ignored 1
      else if r.rwe ≠ 0 ∧ s.enabled p ∧ r.rw = 0 ∧ r.rwt = 0 ∧ r.wo = 0 then .ignored 0
      else if r.rw = 0 ∧ r.rwe = 0 ∧ r.rwt = 0 ∧ r.wo = 0 then .ignored 1
      else if r.rw = 0 ∧ r.rwe = 0 ∧ r.rwt = 0 ∧ acc.view ≠ .normal then .ignored 1
      else .apply

/-- A write that takes effect does `f`; one that does not leaves its trace (R44, R50). -/
def State.guarded (p off : Nat) (acc : Access) (f : State → State) (s : State) : State :=
  match s.judge p off acc with
  | .dark => s.darkAccess p true
  | .reserved => s
  | .ignored c => s.ignored p off c
  | .apply => f s

/-- The plain access of a command bit: host window, Normal view, every byte enable. -/
def cmdAccess (v : Word) : Access := ⟨.host, .normal, 15#4, v⟩

/-- The same from the core window. -/
def coreAccess (v : Word) : Access := ⟨.core, .normal, 15#4, v⟩

/-- The value a write gives a register: the reachable bits take the view's result, the others stay (R15, R46, R47). -/
def State.writeValue (s : State) (p off : Nat) (acc : Access) (r : RegInfo) : Word :=
  let old := s.reg p off
  let m := s.writable p r
  (old &&& ~~~ m) ||| (viewApply acc.view old acc.val &&& m)

/-- The bits that a write touches: all bits in the Normal view, and the bits written as 1 in the others (R47). -/
def touchedBits (acc : Access) : Word := if acc.view = .normal then BitVec.allOnes 32 else acc.val

/-- A register written as Table 2.3 says. Where it also holds RWE bits and the page is enabled, those bits are not written;
where it also holds WO bits, a view other than Normal does not command them. Either is recorded where the write touches
such bits, with cause 0b00 before 0b01 (R50). -/
def State.writePlain (p off : Nat) (acc : Access) (s : State) : State :=
  match regInfo p off with
  | none => s
  | some r =>
    let t := touchedBits acc
    let c0 := s.enabled p && t &&& BitVec.ofNat 32 r.rwe != 0#32
    let c1 := acc.view != .normal && t &&& BitVec.ofNat 32 r.wo != 0#32
    let s := s.putReg p off (s.writeValue p off acc r)
    if c0 then s.ignored p off 0 else s.iff c1 (State.ignored p off 1)

/-- The value of a command register's write: the written bits under WO (Table 2.3). -/
def commandBits (acc : Access) : Word := if acc.view = .normal then acc.val else 0#32

/-! Multi-word quantities (R42). -/

/-- A host-written quantity of `n` words from `base`: word `i` waits until the highest is written; all then take effect
together. -/
def State.stageWord (p base n i : Nat) (v : Word) (s : State) : State :=
  if i + 1 < n then s.modRf (fun r => { r with staged := Sparse.put none (regKey p (base + 4 * i)) (some v) r.staged })
  else (commit n (s.putReg p (base + 4 * i) v))
where
  /-- The staged lower words take effect. -/
  commit : Nat → State → State
  | 0, s => s
  | j + 1, s =>
    let k := regKey p (base + 4 * j)
    let s := match Sparse.get none s.rf.staged k with
      | some w => (s.putReg p (base + 4 * j) w).modRf (fun r => { r with staged := Sparse.put none k none r.staged })
      | none => s
    commit j s

/-- The word a read of a staged quantity's register would be given by a view: staged, or held. -/
def State.stagedOrHeld (s : State) (p off : Nat) : Word :=
  match Sparse.get none s.rf.staged (regKey p off) with
  | some w => w
  | none => s.reg p off

/-! Soft reset (R49). -/

/-- Every RW, RWE and RWT register of the page back at its reset value; RO registers are live and stay. -/
def State.resetPageRegs (p : Nat) (s : State) : State :=
  (pageRegs p).foldl (fun s r =>
    if r.rw ≠ 0 ∨ r.rwe ≠ 0 ∨ r.rwt ≠ 0 then
      let m := BitVec.ofNat 32 r.rw ||| BitVec.ofNat 32 r.rwe ||| BitVec.ofNat 32 r.rwt
      s.putReg p r.off ((s.reg p r.off &&& ~~~ m) ||| (regReset p r.off &&& m))
    else s) s

end Sys2Proof.Machine
end

