-- ==== Sys2Proof/Machine/LineOps.lean ====
section
/-! DEFINITION. What belongs to one receiver or one transmitter alone (chapter 3): acquisition, tracking, the figure of
merit, the effective laser policy, the pins, the launch power, the LDPC code and the burst arithmetic. -/

namespace Sys2Proof.Machine

/-! The code (R82, R83) and the mapping. -/

/-- The shift of the circulant at block row `i`, block column `j`, for circulant size `z`; `none` where the block is
zero (R83). -/
def ldpcShift (z i j : Nat) : Option Nat :=
  if j < 60 then (if (i + j) % 3 = 0 then some ((7 * i * j + 13 * i + 3 * j) % z) else none)
  else if j = 60 then (if i = 0 then some 1 else if i = 5 then some 0 else if i = 11 then some 1 else none)
  else if j = 60 + i ∨ j = 61 + i then (if j ≤ 71 then some 0 else none)
  else none

/-- The parity of check row `r` of block row `i` over a codeword given as one list per block column: the identity with
its columns shifted right by s has its 1 of row r in column (r + s) mod z. -/
def ldpcCheck (z i r : Nat) (cols : List (List Bool)) : Bool :=
  (List.range 72).foldl (fun acc j =>
    match ldpcShift z i j with
    | none => acc
    | some sh => acc != ((cols.getD j []).getD ((r + sh) % z) false)) false

/-- The block columns of a codeword. -/
def ldpcColumns (z : Nat) (bits : List Bool) : List (List Bool) :=
  (List.range 72).map (fun j => (bits.drop (j * z)).take z)

/-- Is the syndrome of a word of 72 z bits zero (R84)? -/
def syndromeZero (z : Nat) (bits : List Bool) : Bool :=
  let cols := ldpcColumns z bits
  (List.range 12).all (fun i => (List.range z).all (fun r => !ldpcCheck z i r cols))

/-- Circulant size downstream and upstream (R82). -/
def ldpcZDown : Nat := 360
def ldpcZUp : Nat := 120

/-- Pilot symbols of a payload of `p` sym (R80). -/
def pilotsIn (p : Nat) : Nat := p / 64

/-- Data symbols of an upstream codeword (R83). -/
def codewordSym (qam : Bool) : Nat := if qam then 1080 else 2160

/-- Codewords and pad symbols of a burst of `len` sym (R80, R95, R97). -/
def burstFill (len : Nat) (qam : Bool) : Nat × Nat :=
  let p := len - 832
  let d := p - pilotsIn p
  (d / codewordSym qam, d % codewordSym qam)

/-- The least grant, in blocks, that carries a codeword (R98). -/
def shortGrantBlocks (qam : Bool) : Nat := if qam then 121 else 190

/-! Receivers. -/

/-- A receiver's state. -/
def State.rxs (s : State) (r : Rx) : RxSt := s.rx.get r

/-- A receiver's state changed. -/
def State.modRxs (r : Rx) (f : RxSt → RxSt) (s : State) : State := s.modRx (fun p => p.mod r f)

/-- A channel number is permitted downstream (Table 3.1). -/
def downChannelOk (n : Int) : Bool := decide (-36 ≤ n) && decide (n ≤ 59)

/-- A channel number is permitted upstream (Table 3.1). -/
def upChannelOk (n : Int) : Bool := decide (-142 ≤ n) && decide (n ≤ -46)

/-- May an enabled receiver leave idle (R75, R117)? -/
def State.rxConfigOk (s : State) (r : Rx) : Bool :=
  downChannelOk (s.sfld (pgRX r) RX.cfgChannel) && s.flag (pgRX r) OFE.pinsPresent

/-- The receiver's acquisition state: 0 idle to 7 locked. -/
def State.acq (s : State) (r : Rx) : Nat := s.fld (pgRX r) RX.statusAcqState

/-- Is the receiver locked? -/
def State.locked (s : State) (r : Rx) : Bool := s.acq r == 7

/-- The figure of merit before the first window after a lock (R92). -/
def State.clearFom (r : Rx) (s : State) : State :=
  (s.setFld (pgRX r) RX.fomFom 0).setFld (pgRX r) RX.fomMargin 0x8000

/-- An acquisition starts: gain phase, counted (R86, RX index 4). -/
def State.startAcq (r : Rx) (s : State) : State :=
  ((((s.setFld (pgRX r) RX.statusAcqState 1).setFld (pgRX r) RX.statusClkLock 0).clearFom r).count (cuRX r + 4)).modRxs r
    (fun x => { x with fell := false, adaptAt := none, iterSum := 0, iterCount := 0 })

/-- The receiver begins to run: sig_present takes the measured value at once (R86). -/
def State.rxBegin (r : Rx) (s : State) : State :=
  if s.rxConfigOk r then
    let sig := (s.rxs r).signal
    ((s.setFld (pgRX r) RX.statusSigPresent (b2n sig)).startAcq r).iff sig (State.raise (pgRX r) 0)
  else s.raise (pgRX r) 9

/-- Every figure of a stopped receiver (R91). -/
def State.rxStopFigures (r : Rx) (s : State) : State :=
  let p := pgRX r
  let s := (((s.setFld p RX.statusAcqState 0).setFld p RX.statusSigPresent 0).setFld p RX.statusClkLock 0).clearFom r
  let s := (s.setFld p RX.cdEstCdEst 0).setFld p RX.freqOfsFreqOfs 0
  let s := (s.setFld p RX.clkOfsClkOfs 0).setFld p RX.iterIterMean 0
  ((s.setFld p RX.iterGain 0).setFld p RX.iterLevel 0).modRxs r (fun x => { x with alarmArmed := true })

/-- The FOM reference of an iteration limit; between listed values the next lower listed one (Table 3.4). -/
def fomRef (n : Nat) : Nat :=
  if n < 2 then 0x1200 else if n < 4 then 0x1100 else if n < 8 then 0x1033 else if n < 12 then 0x0F66
  else if n < 16 then 0x0F1A else if n < 24 then 0x0F00 else 0x0EE6

/-- A written max_iter and its reference take effect (R84, R93). -/
def State.applyMaxIter (r : Rx) (s : State) : State :=
  let n := s.fld (pgRX r) RX.fecCtrlMaxIter
  (s.modRxs r (fun x => { x with iterLimit := n })).setFld (pgRX r) RX.fomRefRef (fomRef n)

/-- The mean of the iterations since the last window's end, in 1/256; with no codeword it is not stated: a free value. -/
def State.iterMean (s : State) (r : Rx) : Nat :=
  let x := s.rxs r
  if x.iterCount = 0 then s.freeVal 65536 else min 65535 (256 * x.iterSum / x.iterCount)

/-- The end of a window: FOM, margin, mean iterations, and the fom_alarm judgement against the reference in force (R92,
R93). -/
def State.fomWindow (r : Rx) (fom : Nat) (s : State) : State :=
  let p := pgRX r
  let iterMean := s.iterMean r
  let s := (s.iff ((s.rxs r).iterCount == 0) State.useFree).modRxs r (fun x => { x with iterSum := 0, iterCount := 0 })
  let f := min fom 10240
  let m : Int := clampInt (-32768) 32767 ((f : Int) - (s.fld p RX.fomRefRef : Int))
  let thr := s.sfld p RX.fomAlarmThreshold
  let armed := (s.rxs r).alarmArmed
  let s := ((s.setFld p RX.fomFom f).setSFld p RX.fomMargin m).setFld p RX.iterIterMean iterMean
  if m < thr then
    (s.modRxs r (fun x => { x with alarmArmed := false })).iff armed (State.raise p 5)
  else if thr + 128 ≤ m then s.modRxs r (fun x => { x with alarmArmed := true })
  else s

/-- The lane correction that stands after the pilot phase: forced values where use_forced is 1, and no search; else the search's,
which RX_LANE_FIX shows. A search result that differs from the one before raises lane_fix_changed; the first has none before it
and raises nothing (DESIGN CHOICE, log entry 106). -/
def State.laneFix (r : Rx) (order signs : Nat) (s : State) : State :=
  let p := pgRX r
  if s.flag p RX.laneFixUseForced then
    s.modRxs r (fun x => { x with fix := (s.fld p RX.laneFixForcedOrder, s.fld p RX.laneFixForcedSigns) })
  else
    let changed := match (s.rxs r).prevFix with
      | none => false
      | some x => x != (order, signs)
    (((s.setFld p RX.laneFixOrder order).setFld p RX.laneFixSigns signs).modRxs r
      (fun x => { x with fix := (order, signs), prevFix := some (order, signs) })).iff changed (State.raise p 6)

/-! Transmitters. -/

/-- A transmitter's state. -/
def State.txs (s : State) (t : Tree) : TxSt := s.tx.get t

/-- A transmitter's state changed. -/
def State.modTxs (t : Tree) (f : TxSt → TxSt) (s : State) : State := s.modTx (fun p => p.mod t f)

/-- The tree's mode (Table 6.1). -/
def State.mode (s : State) (t : Tree) : Nat := s.fld (pgACT t) ACT.modeMode

/-- The laser ceiling of a mode (Table 6.1), as a policy value. -/
def modeCeiling (m : Nat) : Nat := if m = 2 then 2 else if 3 ≤ m ∧ m ≤ 6 then 1 else 0

/-- The order Off < Halyard only < Normal (R106). -/
def policyRank (p : Nat) : Nat := if p = 1 then 2 else if p = 2 then 1 else 0

/-- Is candidate clock `k` (1 to 4 the receivers, 5 the host reference) judged good? -/
def State.clkGood (s : State) (k : Nat) : Bool := s.flag pgCLK ⟨0x030, 16 + k - 1, 16 + k - 1⟩

/-- Is a receiver clock of the tree judged good? -/
def State.treeClockGood (s : State) : Tree → Bool
  | .a => s.clkGood 1 || s.clkGood 2
  | .b => s.clkGood 3 || s.clkGood 4

/-- Is a force in place (R107, R111)? -/
def State.forced (s : State) (t : Tree) : Bool := (s.txs t).clockForce || (s.txs t).rogueForce

/-- Does the transmitter stay idle (R75, R117)? -/
def State.txConfigOk (s : State) (t : Tree) : Bool :=
  upChannelOk (s.sfld (pgTX t) TX.cfgChannel) && s.flag (pgTX t) OFE.pinsPresent

/-- The effective policy (R106). -/
def State.policyNow (s : State) (t : Tree) : Nat :=
  let p := s.fld (pgTX t) TX.laserPolicyPolicy
  if s.forced t || !s.works (pgTX t) || !s.txConfigOk t then 0
  else if p = 3 then
    (if !s.enabled (pgACT t) && s.mode t == 0 && s.treeClockGood t then 3 else 0)
  else if policyRank p ≤ policyRank (modeCeiling (s.mode t)) then p
  else modeCeiling (s.mode t)

/-- TX_STATUS.effective_policy. -/
def State.effPolicy (s : State) (t : Tree) : Nat := s.fld (pgTX t) TX.statusEffectivePolicy

/-- May a granted burst be sent? -/
def State.burstsAllowed (s : State) (t : Tree) : Bool := s.effPolicy t == 1

/-- May a halyard frame be sent? -/
def State.halyardAllowed (s : State) (t : Tree) : Bool := s.effPolicy t == 1 || s.effPolicy t == 2

/-- TXx_PREP driven; the pad follows its drive. -/
def State.drivePrep (t : Tree) (on : Bool) (s : State) : State :=
  (s.setFld (pgTX t) TX.statusPrepDrive (b2n on)).setFld (pgTX t) TX.statusPrepReadback (b2n on)

/-- TXx_GATE driven; the pad follows its drive. -/
def State.driveGate (t : Tree) (on : Bool) (s : State) : State :=
  (s.setFld (pgTX t) TX.statusGateDrive (b2n on)).setFld (pgTX t) TX.statusGateReadback (b2n on)

/-- Both pins low. -/
def State.pinsLow (t : Tree) (s : State) : State := (s.driveGate t false).drivePrep t false

/-- TX_STATUS.forced_off follows the two forces. -/
def State.showForce (t : Tree) (s : State) : State :=
  s.setFld (pgTX t) TX.statusForcedOff (b2n (s.forced t))

/-- The profile word `i` of the transmitter's table 0 (R94). -/
def State.profile (s : State) (t : Tree) (i : Nat) : Word := s.tw (pgTX t) 0 i 0

/-- Is the profile valid? -/
def profileValid (w : Word) : Bool := w.getLsbD 31

/-- Is the profile DP-16QAM? -/
def profileQam (w : Word) : Bool := w.getLsbD 0

/-- The profile's launch offset, in 0.1 dB. -/
def profileOffset (w : Word) : Int := signed 8 (bitsOf w.toNat 15 8)

/-- TX_LAUNCH and the Lehr trim in force for a burst that starts at `t0`: the newest written at least 1 ms before
(R104). -/
def State.launchFor (s : State) (t : Tree) (t0 : Nat) : Word × Nat :=
  match (s.txs t).launches.find? (fun x => decide (x.1 ≤ t0)) with
  | some x => x.2
  | none => (regReset (pgTX t) 0x040, 0)

/-- TX_LAUNCH or the trim has a new value, in force 1 ms from now (R104). -/
def State.noteLaunch (t : Tree) (s : State) : State :=
  s.modTxs t (fun x => { x with
    launches := (s.now + symPerMs, s.reg (pgTX t) 0x040, s.fld (pgTX t) TX.launchStatusLehrTrim) :: x.launches })

/-- The values that a restored page holds are in force as they stand. -/
def State.launchRestored (t : Tree) (s : State) : State :=
  s.modTxs t (fun x => { x with launches := [(0, s.reg (pgTX t) 0x040, s.fld (pgTX t) TX.launchStatusLehrTrim)] })

/-- The sum of R103 before its clamp, and launch_max. -/
def State.launchSum (s : State) (t : Tree) (w : Word) (t0 : Nat) : Int × Int :=
  let l := s.launchFor t t0
  (signed 12 (TX.launchTarget.get l.1) + profileOffset w + signed 8 l.2, signed 12 (TX.launchLaunchMax.get l.1))

/-- The applied launch of a burst (R103). -/
def State.appliedLaunch (s : State) (t : Tree) (w : Word) (t0 : Nat) : Int :=
  let x := s.launchSum t w t0
  if x.2 < x.1 then x.2 else x.1

/-- Does the applied launch lie outside the range the OFE advertises (R105)? -/
def launchOutOfRange (t : Tree) (v : Int) : Bool :=
  decide (v < Config.ofeLaunchMin (treeIx t)) || decide (Config.ofeLaunchMax (treeIx t) < v)

/-- The applied launch of a burst that starts: TX_LAUNCH_STATUS, and launch_clamped where the clamp acts (R103). -/
def State.applyLaunch (t : Tree) (w : Word) (t0 : Nat) (s : State) : State :=
  let x := s.launchSum t w t0
  let clamped := decide (x.2 < x.1)
  ((s.setSFld (pgTX t) TX.launchStatusApplied (s.appliedLaunch t w t0)).setFld (pgTX t) TX.launchStatusClamped
    (b2n clamped)).iff clamped (State.raise (pgTX t) 3)

/-- A launch outside the OFE's range at a grant's selection: out_of_range is set and raised; within it, cleared
(R105). -/
def State.judgeLaunch (t : Tree) (v : Int) (s : State) : State :=
  let o := launchOutOfRange t v
  (s.setFld (pgTX t) TX.launchStatusOutOfRange (b2n o)).iff o (State.raise (pgTX t) 4)

end Sys2Proof.Machine
end

