-- ==== Sys2Proof/Machine/Formats.lean ====
section
/-! DEFINITION. The line formats to the bit (chapter 4): scrambling, CRC-16, frame headers, grant map entries, fragment
headers, burst headers, queue reports. -/

namespace Sys2Proof.Machine

/-- The scrambler's next `n` bits from the 31 bits before, newest first: s_k = s_(k−28) XOR s_(k−31) (R124). -/
def scrambleSeq : Nat → List Bool → List Bool
  | 0, _ => []
  | n + 1, h =>
    let b := (h.getD 27 true) != (h.getD 30 true)
    b :: scrambleSeq n (b :: h.take 30)

/-- A codeword scrambled, or descrambled (R124). -/
def scramble (bits : List Bool) : List Bool :=
  List.zipWith (· != ·) bits (scrambleSeq bits.length (List.replicate 31 true))

/-- CRC-16 of the line formats (R125). -/
def crc16 (bs : Bytes) : Nat := crcMSB 16 0x1021 0xFFFF bs

/-- Bytes followed by their CRC-16. -/
def withCrc (bs : Bytes) : Bytes := bs ++ natBE 2 (crc16 bs)

/-- A frame header's fields (Table 4.2). -/
structure FrameHdr where
  fsw : Nat
  counter : Nat
  headEnd : Nat
  treeId : Nat
  version : Nat
  control : Bool
  wl : Nat
  gmPresent : Bool
  entries : Nat
  firstFrag : Nat
  hecOk : Bool
  deriving DecidableEq, Repr

/-- A frame header read from its 32 bytes (R128). -/
def frameHdr (bs : Bytes) : FrameHdr :=
  { fsw := fieldAt bs 0 4, counter := fieldAt bs 4 6, headEnd := fieldAt bs 10 6, treeId := fieldAt bs 16 4,
    version := byteAt bs 20 / 16, control := (byteAt bs 20).testBit 3, wl := bitsOf (byteAt bs 20) 2 2,
    gmPresent := (byteAt bs 21).testBit 7, entries := fieldAt bs 22 2, firstFrag := fieldAt bs 24 3,
    hecOk := fieldAt bs 30 2 == crc16 (bs.take 30) }

/-- Is the header valid (R129)? -/
def FrameHdr.valid (h : FrameHdr) : Bool :=
  h.fsw == 0x7E1DC4A9 && h.hecOk && h.version == 1 && decide (h.entries ≤ 8192) &&
    (h.gmPresent || h.entries == 0) && (h.control || !h.gmPresent)

/-- The bytes of the fragment area of a frame with `n` grant map entries (Table 4.1). -/
def fragArea (n : Nat) : Nat := 3240000 - 32 - 12 * n

/-- The offset of the first fragment header, where one begins in the frame (R128, R129). -/
def FrameHdr.first (h : FrameHdr) : Option Nat := if h.firstFrag < fragArea h.entries then some h.firstFrag else none

/-- A grant map entry (Table 4.3). -/
structure GrantEntry where
  alloc : Nat
  start : Nat
  length : Nat
  profile : Nat
  qr : Bool
  crcOk : Bool
  deriving DecidableEq, Repr

/-- A grant map entry read from its 12 bytes (R131). -/
def grantEntry (bs : Bytes) : GrantEntry :=
  { alloc := fieldAt bs 0 2, start := fieldAt bs 2 3, length := fieldAt bs 5 3, profile := byteAt bs 8 / 64,
    qr := (byteAt bs 8).testBit 5, crcOk := fieldAt bs 10 2 == crc16 (bs.take 10) }

/-- Is the entry accepted (R132)? -/
def GrantEntry.accepted (g : GrantEntry) : Bool :=
  g.crcOk && decide (1 ≤ g.length) && decide (g.start + g.length ≤ 243000)

/-- T0 and E of a grant of the frame that reached the balls at `tF` (R134). -/
def grantSpan (tF eqd start length : Nat) : Nat × Nat :=
  let t0 := tF + 7776000 + eqd + 16 * start
  (t0, t0 + 16 * length)

/-- A fragment header (Table 4.4). -/
structure FragHdr where
  tenant : Nat
  sequence : Nat
  /-- 0 idle, 1 data, 2 TMC, 3 reserved. -/
  kind : Nat
  length : Nat
  last : Bool
  prot : Bool
  service : Nat
  deriving DecidableEq, Repr

/-- The first six bytes of a fragment header. -/
def FragHdr.body (h : FragHdr) : Bytes :=
  natBE 1 h.tenant ++ natBE 2 h.sequence ++ natBE 2 (h.kind * 2 ^ 14 + h.length) ++
    natBE 1 (b2n h.last * 128 + b2n h.prot * 64 + h.service * 4)

/-- A fragment header's eight bytes (R135). -/
def FragHdr.bytes (h : FragHdr) : Bytes := withCrc h.body

/-- A fragment header read from its bytes. -/
def fragHdr (bs : Bytes) : FragHdr :=
  let tl := fieldAt bs 3 2
  { tenant := byteAt bs 0, sequence := fieldAt bs 1 2, kind := tl / 2 ^ 14, length := tl % 2 ^ 14,
    last := (byteAt bs 5).testBit 7, prot := (byteAt bs 5).testBit 6, service := bitsOf (byteAt bs 5) 5 2 }

/-- Does the hcs fit? -/
def hcsOk (bs : Bytes) : Bool := fieldAt bs 6 2 == crc16 (bs.take 6)

/-- Bytes with bit `i` of line order inverted. -/
def flipBit (i : Nat) (bs : Bytes) : Bytes :=
  bs.mapIdx (fun j b => if j = i / 8 then b ^^^ (1#8 <<< (7 - i % 8)) else b)

/-- The header with one bit in error corrected by its hcs, where exactly one inversion makes it fit (R143). -/
def correctHdr (bs : Bytes) : Option Bytes :=
  match (List.range 64).filter (fun i => hcsOk (flipBit i bs)) with
  | [i] => some (flipBit i bs)
  | _ => none

/-- The burst header (Table 4.9). -/
def burstHeader (terminal fc : Nat) (warning battery : Bool) : Bytes :=
  withCrc (natBE 2 terminal ++ natBE 6 fc ++ natBE 1 (b2n warning * 128 + b2n battery * 64) ++ natBE 1 0)

/-- The allocation header (Table 4.10). -/
def allocHeader (alloc payload : Nat) (qr : Bool) : Bytes :=
  withCrc (natBE 2 alloc ++ natBE 3 payload ++ natBE 1 (b2n qr * 128))

/-- The queue report (Table 4.11). -/
def queueReport (backlog deferred age : Nat) (urgent : Bool) : Bytes :=
  withCrc (natBE 4 (min backlog 0xFFFFFFFF) ++ natBE 4 (min deferred 0xFFFFFFFF) ++ natBE 2 (min age 65535) ++
    natBE 1 (b2n urgent * 128) ++ natBE 3 0)

/-- The idle fragments that fill `n` bytes, the longest first, and what is left under 8 bytes is 0x00 (R136, R145). -/
def idleFill : Nat → Nat → Bytes
  | 0, n => List.replicate n 0#8
  | f + 1, n =>
    if n < 8 then List.replicate n 0#8
    else
      let len := min (n - 8) 16383
      let rest := n - 8 - len
      (FragHdr.bytes ⟨0, 0, 0, len, false, false, 0⟩ ++ List.replicate len 0#8) ++ idleFill f rest

/-- Bytes that `idleFill` counts as idle fragments: all but the final 0x00 bytes. -/
def idleBytes : Nat → Nat → Nat
  | 0, _ => 0
  | f + 1, n => if n < 8 then 0 else 8 + min (n - 8) 16383 + idleBytes f (n - 8 - min (n - 8) 16383)

end Sys2Proof.Machine
end

