-- ==== Sys2Proof/Machine/LineCode.lean ====
section
/-! DEFINITION. The coding of the lines to the symbol (chapter 3): bits onto symbols, pilots, the upstream code, the parts of a
burst, the order and signs of the lanes. -/

namespace Sys2Proof.Machine

/-! Bits onto symbols (R77). -/

/-- Levels of a 2-bit pair in DP-16QAM, first bit first (Table 3.2). -/
def qamLevel (b0 b1 : Bool) : Int :=
  match b0, b1 with
  | false, false => -3
  | false, true => -1
  | true, true => 1
  | true, false => 3

/-- Level of a bit in DP-QPSK (Table 3.2). -/
def qpskLevel (b : Bool) : Int := if b then -1 else 1

/-- The levels of a run of bits, in codeword order. -/
def qamLevels : List Bool → List Int
  | b0 :: b1 :: bs => qamLevel b0 b1 :: qamLevels bs
  | _ => []
def bitLevels (qam : Bool) (bits : List Bool) : List Int := if qam then qamLevels bits else bits.map qpskLevel

/-- Levels four at a time, in the order X-I, X-Q, Y-I, Y-Q. -/
def levelSyms (root5 : Bool) : List Int → List Sym
  | a :: b :: c :: d :: ls => { xi := a, xq := b, yi := c, yq := d, root5 := root5 } :: levelSyms root5 ls
  | _ => []

/-- The bits of some bytes, each byte's most significant bit first, and back. -/
def bytesBits (bs : Bytes) : List Bool := bs.flatMap (fun b => (List.range 8).map (fun i => b.getLsbD (7 - i)))
def bitsByte (bits : List Bool) : Nat := bits.foldl (fun n b => 2 * n + b2n b) 0
def bitsBytes (n : Nat) (bits : List Bool) : Bytes :=
  (List.range n).map (fun i => BitVec.ofNat 8 (bitsByte ((bits.drop (8 * i)).take 8)))

/-! Generators. -/

/-- The next `n` bits of the sequence s_k = s_(k−a) XOR s_(k−b) from the bits before, newest first. The PRBS x^b + x^a + 1 with
all ones is taken to begin with the bit after b ones (log entry 104). -/
def prbs (a b : Nat) : Nat → List Bool → List Bool
  | 0, _ => []
  | n + 1, h =>
    let x := h.getD (a - 1) true != h.getD (b - 1) true
    x :: prbs a b n (x :: h.take (b - 1))

/-- The pilot generator's first `n` bits after its reset, x^23 + x^18 + 1 (R79). -/
def pilotBits (n : Nat) : List Bool := prbs 18 23 n (List.replicate 23 true)

/-- QPSK symbols of a run of bits at amplitude `amp`. -/
def qpskSyms (amp : Int) (root5 : Bool) (bits : List Bool) : List Sym :=
  levelSyms root5 (bits.map (fun b => amp * qpskLevel b))

/-- The pilots of a downstream frame's stretch of 7 frames: the first `n` after the reset at a frame whose counter is a multiple
of 7, at the corners ±3 (R79). -/
def downPilots (n : Nat) : List Sym := qpskSyms 3 false (pilotBits (4 * n))

/-- A frame of 125 µs, in sym: its data symbols. -/
def frameSym : Nat := 3888000

/-- How many pilots of the stretch come before the frame with counter `fc`: one after every 63 data symbols (R78, R79). -/
def firstPilot (fc : Nat) : Nat := fc % 7 * frameSym / 63

/-- The first `n` pilots of the frame with counter `fc` (R79). -/
def framePilots (fc n : Nat) : List Sym := (downPilots (firstPilot fc + n)).drop (firstPilot fc)

/-- The first `n` symbols of Continuous test: DP-QPSK from the pilot generator, which is taken to start from its reset (Table 3.7;
log entry 122). -/
def contSyms (n : Nat) : List Sym := qpskSyms 1 false (pilotBits (4 * n))

/-! The upstream code (R82, R83). -/

/-- Two bit strings added. -/
def xorBits (a b : List Bool) : List Bool := List.zipWith (· != ·) a b

/-- The twelve parity blocks of some information columns. Column 60 has shifts 1, 0 and 1 in rows 0, 5 and 11, so the sum of all
rows gives its block; each later block follows from the row above it. -/
def ldpcParity (z : Nat) (cols : List (List Bool)) : List (List Bool) :=
  let lam := fun (i : Nat) => (List.range z).map (fun r => ldpcCheck z i r cols)
  let p0 := (List.range 12).foldl (fun acc i => xorBits acc (lam i)) (List.replicate z false)
  let p1 := xorBits (lam 0) (p0.rotateLeft 1)
  let step := fun (acc : List Bool × List (List Bool)) (i : Nat) =>
    let p := xorBits (lam i) acc.1
    let p := if i = 5 then xorBits p p0 else p
    (p, acc.2 ++ [p])
  p0 :: p1 :: (((List.range 10).map (· + 1)).foldl step (p1, [])).2

/-- A codeword: 60 z information bits, then their 12 z parity bits (R82). -/
def ldpcEncode (z : Nat) (info : List Bool) : List Bool :=
  info ++ (ldpcParity z ((List.range 60).map (fun j => (info.drop (j * z)).take z))).flatten

/-- The scrambled codewords of an upstream information stream, 900 bytes each (R82, R124). -/
def upCodewords : Nat → Bytes → List Bool
  | 0, _ => []
  | n + 1, bs => scramble (ldpcEncode ldpcZUp (bytesBits (bs.take 900))) ++ upCodewords n (bs.drop 900)

/-! A burst (R80, R95 to R97). -/

/-- The DAC output zero. -/
def zeroSym : Sym := { xi := 0 }

/-- The delimiter word W (R96). -/
def delimiterW : BitVec 64 := 0xB1E429D76C0F583A#64

/-- The delimiter words of X-I, X-Q, Y-I, Y-Q; complemented in a DP-16QAM burst (R96). -/
def delimiterWords (qam : Bool) : List (BitVec 64) :=
  [0, 16, 32, 48].map (fun n => let w := delimiterW.rotateLeft n; if qam then ~~~ w else w)

/-- The delimiter's 64 symbols, each word most significant bit first. -/
def delimiterSyms (qam : Bool) : List Sym :=
  (List.range 64).flatMap (fun i => levelSyms qam ((delimiterWords qam).map (fun w => qpskLevel (w.getLsbD (63 - i)))))

/-- The tone: X +A and −A by turns with A = 1 + j, Y +B and −B with B = 1 − j (Table 3.5). -/
def toneSyms (root5 : Bool) (n : Nat) : List Sym :=
  (List.range n).map (fun i => let k : Int := if i % 2 = 0 then 1 else -1; ⟨k, k, k, -k, root5⟩)

/-- The training symbols: QPSK from x^11 + x^9 + 1, seed all ones, four bits a symbol. -/
def trainingSyms (root5 : Bool) (n : Nat) : List Sym := qpskSyms 1 root5 (prbs 9 11 (4 * n) (List.replicate 11 true))

/-- `n` payload symbols from index `i` on: at i mod 64 = 63 a pilot, else the next data symbol, and once these are used up a pad
symbol, which the pilot generator continues (R80, R97). -/
def payloadSyms : Nat → Nat → List Sym → List Sym → List Sym
  | 0, _, _, _ => []
  | n + 1, i, data, pilots =>
    match i % 64 == 63, data with
    | false, d :: ds => d :: payloadSyms n (i + 1) ds pilots
    | _, _ => pilots.headD zeroSym :: payloadSyms n (i + 1) data pilots.tail

/-- The symbols of a burst of `len` sym with `n` codewords of an information stream (Table 3.5). -/
def burstSyms (len n : Nat) (qam : Bool) (stream : Bytes) : List Sym :=
  let p := len - 832
  let data := levelSyms false (bitLevels qam (upCodewords n stream))
  List.replicate 256 zeroSym ++ toneSyms qam 256 ++ trainingSyms qam 256 ++ delimiterSyms qam ++
    payloadSyms p 0 data (qpskSyms (if qam then 3 else 1) false (pilotBits (4 * p)))

/-! Orders and signs of lanes (R114, R115). -/

/-- The k-th permutation of 0 to 3 in lexicographic order: what feeds, or is fed by, lanes XI, XQ, YI and YQ in turn. An index
of 24 to 31 names none and acts as 0 (log entry 105). -/
def laneOrder (k : Nat) : List Nat :=
  let k := if k < 24 then k else 0
  let pick := fun (l : List Nat) (i : Nat) => (l.getD i 0, l.eraseIdx i)
  let a := pick [0, 1, 2, 3] (k / 6)
  let b := pick a.2 (k % 6 / 2)
  let c := pick b.2 (k % 2)
  [a.1, b.1, c.1, c.2.headD 0]

/-- A symbol's components by lane. -/
def Sym.lanes (y : Sym) : List Int := [y.xi, y.xq, y.yi, y.yq]

/-- A symbol at the pin pairs: lane m goes, inverted where sign bit m is set, to the pair that the order lists at m. -/
def Sym.atPins (order signs : Nat) (y : Sym) : Sym :=
  let o := laneOrder order
  let v := y.lanes.mapIdx (fun m x => if signs.testBit m then -x else x)
  let pin := fun (k : Nat) => v.getD (o.idxOf k) 0
  { y with xi := pin 0, xq := pin 1, yi := pin 2, yq := pin 3 }

/-- What a receiver makes of what its four input pairs carry: logical lane m takes the pair that the order lists at m, inverted
where sign bit m is set (R114). -/
def fromPairs (order signs : Nat) (v : List Int) : List Int :=
  (laneOrder order).mapIdx (fun m k => let x := v.getD k 0; if signs.testBit m then -x else x)

/-- The correction that turns what the pairs carry into the pilots of frame `fc`: the only one of the 384 that does (R114). -/
def findLanes (fc : Nat) (syms : List (List Int)) : Option (Nat × Nat) :=
  let want := (framePilots fc syms.length).map Sym.lanes
  match ((List.range 384).map (fun k => (k / 16, k % 16))).filter (fun f => syms.map (fromPairs f.1 f.2) == want) with
  | [f] => some f
  | _ => none

/-- The corrected bits of a downstream run: a symbol carries two bits of each pair, and inverting a level of Table 3.2 inverts its
first bit (R77, R114). -/
def pairBits (order signs : Nat) : List Bool → List Bool
  | a0 :: a1 :: b0 :: b1 :: c0 :: c1 :: d0 :: d1 :: bs =>
    let v := [(a0, a1), (b0, b1), (c0, c1), (d0, d1)]
    ((laneOrder order).mapIdx (fun m k =>
      let x := v.getD k (false, false)
      [x.1 != signs.testBit m, x.2])).flatten ++ pairBits order signs bs
  | _ => []

end Sys2Proof.Machine
end

