-- ==== Sys2Proof/Machine/Aes.lean ====
section
/-! DEFINITION. AES with 256-bit keys (FIPS 197) and its modes as R373 names them: GCM with a 96-bit IV and a 16-byte
tag (SP 800-38D), CMAC (SP 800-38B), key wrap (RFC 3394). -/

namespace Sys2Proof.Machine

/-! The cipher. -/

/-- Multiplication by x in GF(2^8). -/
def gfDouble (b : Byte) : Byte := (b <<< 1) ^^^ (if b.getLsbD 7 then 0x1B#8 else 0#8)

/-- Multiplication in GF(2^8) over the low `n` bits of `c`. -/
def gfMul : Nat → Byte → Byte → Byte
  | 0, _, _ => 0#8
  | n + 1, b, c => (if c.getLsbD 0 then b else 0#8) ^^^ gfMul n (gfDouble b) (c >>> 1)

/-- The product in GF(2^8). -/
def gf (b c : Byte) : Byte := gfMul 8 b c

/-- The inverse in GF(2^8): the 254th power. -/
def gfInv (b : Byte) : Byte :=
  let b2 := gf b b
  let b3 := gf b2 b
  let b6 := gf b3 b3
  let b12 := gf b6 b6
  let b15 := gf b12 b3
  let b30 := gf b15 b15
  let b60 := gf b30 b30
  let b120 := gf b60 b60
  let b126 := gf b120 b6
  let b127 := gf b126 b
  gf b127 b127

/-- The S-box. -/
def sbox (b : Byte) : Byte :=
  let i := gfInv b
  i ^^^ i.rotateLeft 1 ^^^ i.rotateLeft 2 ^^^ i.rotateLeft 3 ^^^ i.rotateLeft 4 ^^^ 0x63#8

/-- The inverse S-box. -/
def sboxInv (b : Byte) : Byte := gfInv (b.rotateLeft 1 ^^^ b.rotateLeft 3 ^^^ b.rotateLeft 6 ^^^ 0x05#8)

/-- Bytes of two lists combined by exclusive or. -/
def xorBytes (a b : Bytes) : Bytes := List.zipWith (· ^^^ ·) a b

/-- The next `n` words of the key schedule from number `i`, newest first. -/
def aesExpand : Nat → Nat → Byte → List Bytes → List Bytes
  | 0, _, _, ws => ws
  | n + 1, i, rcon, ws =>
    let t := ws.getD 0 []
    let u := if i % 8 = 0 then xorBytes ((t.drop 1 ++ t.take 1).map sbox) [rcon, 0#8, 0#8, 0#8]
      else if i % 8 = 4 then t.map sbox else t
    aesExpand n (i + 1) (if i % 8 = 0 then gfDouble rcon else rcon) (xorBytes (ws.getD 7 []) u :: ws)

/-- The 60 words of the key schedule. -/
def aesSchedule (key : Bytes) : List Bytes :=
  (aesExpand 52 8 1#8 ((List.range 8).map (fun i => (key.drop (4 * i)).take 4)).reverse).reverse

/-- Round key `r`. -/
def aesRoundKey (ws : List Bytes) (r : Nat) : Bytes := ((ws.drop (4 * r)).take 4).flatten

/-- Rows shifted left by their number, or right. -/
def shiftRows (left : Bool) (s : Bytes) : Bytes :=
  (List.range 16).map (fun k =>
    let r := k % 4
    let c := if left then (k / 4 + r) % 4 else (k / 4 + 4 - r) % 4
    s.getD (4 * c + r) 0#8)

/-- One column multiplied by the circulant of `m`. -/
def mixColumn (m : Bytes) (col : Bytes) : Bytes :=
  (List.range 4).map (fun r => (List.range 4).foldl (fun acc c =>
    acc ^^^ gf (m.getD ((c + 4 - r) % 4) 0#8) (col.getD c 0#8)) 0#8)

/-- The four columns mixed. -/
def mixColumns (m s : Bytes) : Bytes := (List.range 4).flatMap (fun c => mixColumn m ((s.drop (4 * c)).take 4))

/-- Rounds `r` to 13 and the last. -/
def aesRounds (ws : List Bytes) : Nat → Nat → Bytes → Bytes
  | 0, r, s => xorBytes (shiftRows true (s.map sbox)) (aesRoundKey ws r)
  | n + 1, r, s =>
    aesRounds ws n (r + 1)
      (xorBytes (mixColumns [2#8, 3#8, 1#8, 1#8] (shiftRows true (s.map sbox))) (aesRoundKey ws r))

/-- A block enciphered under a key schedule. -/
def aesBlock (ws : List Bytes) (b : Bytes) : Bytes := aesRounds ws 13 1 (xorBytes b (aesRoundKey ws 0))

/-- The inverse rounds from `r` down. -/
def aesInvRounds (ws : List Bytes) : Nat → Bytes → Bytes
  | 0, s => xorBytes ((shiftRows false s).map sboxInv) (aesRoundKey ws 0)
  | r + 1, s =>
    aesInvRounds ws r
      (mixColumns [14#8, 11#8, 13#8, 9#8] (xorBytes ((shiftRows false s).map sboxInv) (aesRoundKey ws (r + 1))))

/-- A block deciphered under a key schedule. -/
def aesInvBlock (ws : List Bytes) (b : Bytes) : Bytes := aesInvRounds ws 13 (xorBytes b (aesRoundKey ws 14))

/-! Modes. -/

/-- The blocks of at most 16 bytes of a string, at most `n`. -/
def blocks16 : Nat → Bytes → List Bytes
  | 0, _ => []
  | n + 1, m => if m.isEmpty then [] else m.take 16 :: blocks16 n (m.drop 16)

/-- A string's blocks. -/
def blocksOf (m : Bytes) : List Bytes := blocks16 (m.length / 16 + 1) m

/-- A block filled with zeros to 16 bytes. -/
def pad16 (b : Bytes) : Bytes := b ++ List.replicate (16 - b.length) 0#8

/-- Multiplication in GCM's GF(2^128) over the `n` bits of `x` from the most significant, `v` the running multiple. -/
def ghashMul : Nat → BitVec 128 → BitVec 128 → BitVec 128
  | 0, _, _ => 0#128
  | n + 1, x, v =>
    (if x.getLsbD 127 then v else 0#128) ^^^
      ghashMul n (x <<< 1) ((v >>> 1) ^^^ (if v.getLsbD 0 then 0xE1#128 <<< 120 else 0#128))

/-- A block as a 128-bit number. -/
def block128 (b : Bytes) : BitVec 128 := BitVec.ofNat 128 (beNat (pad16 b))

/-- GHASH continued over blocks. -/
def ghash (h y : BitVec 128) (bs : List Bytes) : BitVec 128 :=
  bs.foldl (fun y b => ghashMul 128 (y ^^^ block128 b) h) y

/-- Counter mode from counter block `c` on. -/
def ctrMode (ws : List Bytes) : Nat → Bytes → List Bytes → Bytes
  | _, _, [] => []
  | c, iv, b :: bs => xorBytes b (aesBlock ws (iv ++ natBE 4 c)) ++ ctrMode ws (c + 1) iv bs

/-- The GCM tag of a ciphertext. -/
def gcmTag (ws : List Bytes) (iv aad ct : Bytes) : Bytes :=
  let h := block128 (aesBlock ws (List.replicate 16 0#8))
  let y := ghash h 0#128 (blocksOf aad ++ blocksOf ct ++ [natBE 8 (8 * aad.length) ++ natBE 8 (8 * ct.length)])
  xorBytes (natBE 16 y.toNat) (aesBlock ws (iv ++ natBE 4 1))

/-- GCM encryption: ciphertext and tag. -/
def gcmSeal (key iv aad pt : Bytes) : Bytes × Bytes :=
  let ws := aesSchedule key
  let ct := ctrMode ws 2 iv (blocksOf pt)
  (ct, gcmTag ws iv aad ct)

/-- GCM decryption: the plaintext, or none where the tag does not verify. -/
def gcmOpen (key iv aad ct tag : Bytes) : Option Bytes :=
  let ws := aesSchedule key
  if gcmTag ws iv aad ct = tag then some (ctrMode ws 2 iv (blocksOf ct)) else none

/-- Doubling in CMAC's GF(2^128). -/
def cmacDouble (b : BitVec 128) : BitVec 128 := (b <<< 1) ^^^ (if b.getLsbD 127 then 0x87#128 else 0#128)

/-- CMAC over the blocks that remain, `c` being the running block. -/
def cmacChain (ws : List Bytes) (k1 k2 : Bytes) : Bytes → List Bytes → Bytes
  | c, [] => aesBlock ws (xorBytes (xorBytes c (pad16 [0x80#8])) k2)
  | c, [b] =>
    if b.length = 16 then aesBlock ws (xorBytes (xorBytes c b) k1)
    else aesBlock ws (xorBytes (xorBytes c (pad16 (b ++ [0x80#8]))) k2)
  | c, b :: bs => cmacChain ws k1 k2 (aesBlock ws (xorBytes c b)) bs

/-- AES-CMAC. -/
def cmac (key m : Bytes) : Bytes :=
  let ws := aesSchedule key
  let l := block128 (aesBlock ws (List.replicate 16 0#8))
  let k1 := cmacDouble l
  cmacChain ws (natBE 16 k1.toNat) (natBE 16 (cmacDouble k1).toNat) (List.replicate 16 0#8) (blocksOf m)

/-- The 8-byte words of a string, at most `n`. -/
def words8 : Nat → Bytes → List Bytes
  | 0, _ => []
  | n + 1, m => if m.isEmpty then [] else m.take 8 :: words8 n (m.drop 8)

/-- One pass of key wrap over the registers: A, the step number, the registers wrapped so far. -/
def wrapPass (ws : List Bytes) : Bytes → Nat → List Bytes → Bytes × List Bytes
  | a, _, [] => (a, [])
  | a, t, r :: rs =>
    let b := aesBlock ws (a ++ r)
    let x := wrapPass ws (xorBytes (b.take 8) (natBE 8 t)) (t + 1) rs
    (x.1, b.drop 8 :: x.2)

/-- One pass of key unwrap, registers last first. -/
def unwrapPass (ws : List Bytes) : Bytes → Nat → List Bytes → Bytes × List Bytes
  | a, _, [] => (a, [])
  | a, t, r :: rs =>
    let b := aesInvBlock ws (xorBytes a (natBE 8 t) ++ r)
    let x := unwrapPass ws (b.take 8) (t - 1) rs
    (x.1, b.drop 8 :: x.2)

/-- AES key wrap. -/
def keyWrap (key pt : Bytes) : Bytes :=
  let ws := aesSchedule key
  let rs := words8 (pt.length / 8 + 1) pt
  let x := (List.range 6).foldl (fun x j => wrapPass ws x.1 (rs.length * j + 1) x.2) (List.replicate 8 0xA6#8, rs)
  x.1 ++ x.2.flatten

/-- AES key unwrap: none where the integrity check fails. -/
def keyUnwrap (key ct : Bytes) : Option Bytes :=
  let ws := aesSchedule key
  let rs := (words8 (ct.length / 8 + 1) (ct.drop 8)).reverse
  let x := (List.range 6).reverse.foldl (fun x j =>
    let y := unwrapPass ws x.1 (rs.length * (j + 1)) x.2
    (y.1, y.2)) (ct.take 8, rs)
  if x.1 = List.replicate 8 0xA6#8 then some x.2.reverse.flatten else none

end Sys2Proof.Machine
end

