-- ==== Sys2Proof/Machine/LsecOps.lean ====
section
/-! DEFINITION. Line security (R357 to R365): contexts, key slots, selectors, and the two directions. -/

namespace Sys2Proof.Machine

/-- Counter `a` is later than `f`, compared modulo 2^32 (R203, R360). -/
def laterFc (a f : Nat) : Bool :=
  let d := (a + 2 ^ 32 - f % 2 ^ 32) % 2 ^ 32
  d != 0 && decide (d < 2 ^ 31)

/-- Counter `a` is at or before `f` (R360). -/
def atOrBeforeFc (a f : Nat) : Bool := !laterFc a f

/-! Key slots. -/

/-- Is slot `k` of context `c` valid? -/
def State.slotValid (s : State) (c k : Nat) : Bool := s.tb pgLSEC 1 (2 * c + k) 0 0

/-- activate_fc, salt and key of a slot. -/
def State.slotActivate (s : State) (c k : Nat) : Nat := (s.tw pgLSEC 1 (2 * c + k) 1).toNat
def State.slotSalt (s : State) (c k : Nat) : Bytes := natBE 4 (s.tw pgLSEC 1 (2 * c + k) 2).toNat
def State.slotKey (s : State) (c k : Nat) : Bytes := bytesBE ((List.range 8).map (fun w => s.tw pgLSEC 1 (2 * c + k) (4 + w)))

/-- Packet numbers used of a slot, or the highest received. -/
def State.slotPn (s : State) (c k : Nat) : Nat := Sparse.get 0 s.lsec.pn (2 * c + k)

/-- Is a context an upstream one? -/
def ctxUp (c : Nat) : Bool := c / 256 % 2 == 1

/-- Is slot `k` of context `c` in force for frame counter `f` (R360, R364)? An upstream slot whose next PN would be
2^64 − 1 is not. -/
def State.slotInForce (s : State) (c f k : Nat) : Bool :=
  s.slotValid c k && atOrBeforeFc (s.slotActivate c k) f && (!ctxUp c || decide (s.slotPn c k + 1 < 2 ^ 64 - 1)) &&
    !(s.slotValid c (1 - k) && atOrBeforeFc (s.slotActivate c (1 - k)) f &&
      laterFc (s.slotActivate c (1 - k)) (s.slotActivate c k))

/-- The slot in force for frame counter `f`. -/
def State.slotFor (s : State) (c f : Nat) : Option Nat :=
  if s.slotInForce c f 0 then some 0 else if s.slotInForce c f 1 then some 1 else none

/-- A context is contained (R563). -/
def State.ctxContained (s : State) (c : Nat) : Bool := s.tb pgLSEC 0 c 0 1

/-- Is a context in GCM mode? -/
def State.ctxGcm (s : State) (c : Nat) : Bool := s.tb pgLSEC 0 c 0 0

/-- A context's mode set, with LSEC_STATUS.gcm_contexts. -/
def State.setCtxGcm (c : Nat) (on : Bool) (s : State) : State :=
  let n := s.fld pgLSEC LSEC.statusGcmContexts
  let was := s.ctxGcm c
  let s := s.setTf pgLSEC 0 c 0 0 0 (b2n on)
  if on && !was then s.setFld pgLSEC LSEC.statusGcmContexts (n + 1)
  else if was && !on then s.setFld pgLSEC LSEC.statusGcmContexts (n - 1)
  else s

/-- A context's selector: the vote of its three copies, safe value none; 0b10 acts as 0b11 (R362). -/
def State.selector (s : State) (c : Nat) : Nat :=
  let v := voteField 3 (s.tf pgLSEC 0 c 0 3 2) (Sparse.get 3 s.lsec.sel1 c) (Sparse.get 3 s.lsec.sel2 c)
  if v = 2 then 3 else v

/-- A context's selector rewritten in all three copies. -/
def State.setSelector (c v : Nat) (s : State) : State :=
  (s.setTf pgLSEC 0 c 0 3 2 v).modLsec (fun l => { l with sel1 := Sparse.put 3 c v l.sel1, sel2 := Sparse.put 3 c v l.sel2 })

/-- LSEC table 2 words 0 and 1: the highest PN received, or the next PN, of a slot (R384). -/
def State.showPn (c k : Nat) (s : State) : State :=
  let n := if ctxUp c then s.slotPn c k + 1 else s.slotPn c k
  (s.putTw pgLSEC 2 c 0 (BitVec.ofNat 32 n)).putTw pgLSEC 2 c 1 (BitVec.ofNat 32 (n / 2 ^ 32))

/-- The PN state of a slot starts empty (R363, R364). -/
def State.clearPn (c k : Nat) (s : State) : State :=
  s.modLsec (fun l => { l with pn := Sparse.put 0 (2 * c + k) 0 l.pn, seen := Sparse.put [] (2 * c + k) [] l.seen })

/-- A slot invalidated, its key gone. -/
def State.dropSlot (c k : Nat) (s : State) : State := (s.putEntry pgLSEC 1 (2 * c + k) 0 (List.replicate 12 0#32)).clearPn c k

/-- A context back in clear mode with no key (R365). -/
def State.clearCtx (c : Nat) (s : State) : State := (((s.dropSlot c 0).dropSlot c 1).setSelector c 3).setCtxGcm c false

/-- Every context of a tree back in clear mode with no key: the contexts that hold anything (R365). -/
def State.clearTreeKeys (t : Tree) (s : State) : State :=
  let live := (s.tblEntries pgLSEC 0) ++ (s.tblEntries pgLSEC 1).map (· / 2)
  ((live.eraseDups).filter (fun c => c / 512 == treeIx t)).foldl (fun s c => s.clearCtx c) s

/-- The contexts downstream and upstream of a tenant on a tree (R357). -/
def downCtx (t : Tree) (tenant : Nat) : Nat := 512 * treeIx t + tenant
def upCtx (t : Tree) (tenant : Nat) : Nat := 512 * treeIx t + 256 + tenant

/-- A tenant's two contexts on a tree cleared (R365). -/
def State.clearTenantKeys (t : Tree) (n : Nat) (s : State) : State := (s.clearCtx (downCtx t n)).clearCtx (upCtx t n)

/-- A frame start at which another slot than the selected one comes into force: the selector, the record, the count,
the pennant, and GCM mode with the first slot (R362). `fc` is the current frame counter of the control receiver. -/
def State.keySwitch (c fc : Nat) (s : State) : State :=
  match s.slotFor c fc with
  | some k =>
    if s.selector c = k then s
    else
      let s := ((s.setSelector c k).putTw pgLSEC 0 c 1 (BitVec.ofNat 32 fc)).count (cuLSEC + 8)
      ((s.setCtxGcm c true).showPn c k).raiseMs pgLSEC 3
  | none => if s.selector c = 3 then s else s.setSelector c 3

/-- Any slot valid: the domain that holds the keys refuses its idle timer (R365). -/
def State.anySlotValid (s : State) : Bool := (s.tblEntries pgLSEC 1).any (fun e => s.tb pgLSEC 1 e 0 0)

/-! Management keys (R366, R367). -/

/-- Management key `k` of a tree: 0 K_mgmt_dn, 1 K_mgmt_up, 2 K_wrap, and 3 to 5 the pending ones. -/
def State.mgmtKey (s : State) (t : Tree) (k : Nat) : Bytes :=
  bytesBE ((List.range 8).map (s.tw pgCCRY 1 (8 * treeIx t + k)))

/-- A management key loaded. -/
def State.putMgmtKey (t : Tree) (k : Nat) (key : Bytes) (s : State) : State :=
  s.putEntry pgCCRY 1 (8 * treeIx t + k) 0 (wordsBE 8 key)

/-- The TMC tag of a message under a key, the frame counter being `fc` (R367). -/
def tmcTag (key : Bytes) (fc : Nat) (msg : Bytes) : Bytes := cmac key (natBE 4 fc ++ msg)

/-! Fragments (R358, R363, R364). -/

/-- The additional authenticated data: header bytes 0 to 5 and the PN. -/
def fragAad (hdr : Bytes) (pn : Nat) : Bytes := hdr.take 6 ++ natBE 8 pn

/-- The secured payload of a fragment: PN, ciphertext, tag. `hdr` is its header as sent. -/
def State.sealFragment (s : State) (c k pn : Nat) (hdr pt : Bytes) : Bytes :=
  let x := gcmSeal (s.slotKey c k) (s.slotSalt c k ++ natBE 8 pn) (fragAad hdr pn) pt
  natBE 8 pn ++ x.1 ++ x.2

/-- The next PN of an upstream context's slot is taken; a slot whose PNs are then used up is no longer in force, and the context has
no key (R362, R364). -/
def State.takePn (c k : Nat) (s : State) : State :=
  let s := (s.modLsec (fun l => { l with pn := Sparse.put 0 (2 * c + k) (Sparse.get 0 l.pn (2 * c + k) + 1) l.pn })).showPn c k
  s.iff (s.selector c == k && decide (2 ^ 64 - 1 ≤ s.slotPn c k + 1)) (State.setSelector c 3)

/-- Does a PN repeat, or stand too far behind (R363)? -/
def State.replayed (s : State) (c k pn : Nat) : Bool :=
  let hi := s.slotPn c k
  pn == 0 || decide (pn + 256 ≤ hi) || (Sparse.get [] s.lsec.seen (2 * c + k)).contains pn

/-- A received PN recorded (R363). -/
def State.recordPn (c k pn : Nat) (s : State) : State :=
  let hi := max pn (s.slotPn c k)
  (s.modLsec (fun l => { l with
    pn := Sparse.put 0 (2 * c + k) hi l.pn
    seen := Sparse.put [] (2 * c + k)
      (pn :: (Sparse.get [] l.seen (2 * c + k)).filter (fun x => decide (hi < x + 256))) l.seen })).showPn c k

/-- A table 2 count of a context, saturating. -/
def State.ctxCount (c w : Nat) (s : State) : State :=
  s.putTw pgLSEC 2 c w (BitVec.ofNat 32 (satAdd 0xFFFFFFFF (s.tw pgLSEC 2 c w).toNat 1))

/-- Line security of one downstream data fragment of context `c`: the plaintext where it passes (R363, R383), with the
context's own counts (Table 2.12). -/
def State.lsecDown (c fc : Nat) (hdr payload : Bytes) (s : State) : State × Option Bytes :=
  let x := judge s
  (x.1.count (cuCtx c + (if x.2.isSome then 0 else 1)), x.2)
where
  /-- The first matching row of R363. -/
  judge (s : State) : State × Option Bytes :=
    if s.ctxContained c then (s.count (cuLSEC + 7), none)
    else if !s.ctxGcm c then (s, some payload)
    else if !s.works pgLSEC then (s.count (cuLSEC + 7), none)
    else match s.slotFor c fc with
      | none => ((s.count (cuLSEC + 2)).raiseMs pgLSEC 2, none)
      | some k =>
        if payload.length < 25 then (s.count (cuLSEC + 3), none)
        else
          let pn := fieldAt payload 0 8
          let ct := (payload.drop 8).take (payload.length - 24)
          if s.replayed c k pn then (((s.count (cuLSEC + 4)).ctxCount c 3).raiseMs pgLSEC 1, none)
          else match gcmOpen (s.slotKey c k) (s.slotSalt c k ++ natBE 8 pn) (fragAad hdr pn) ct
              (payload.drop (payload.length - 16)) with
            | none =>
              ((((s.count (cuLSEC + 5)).ctxCount c 2).setFld pgLSEC LSEC.failLastContext c).raiseMs pgLSEC 0, none)
            | some pt => (((s.count cuLSEC).countBy (cuLSEC + 9) pt.length).recordPn c k pn, some pt)

/-- May an upstream queue of context `c` be sent at frame counter `f` (R364, R383)? -/
def State.upKeyOk (s : State) (c f : Nat) : Bool :=
  !s.ctxContained c && (!s.ctxGcm c || (s.works pgLSEC && (s.slotFor c f).isSome))

end Sys2Proof.Machine
end

