-- ==== Sys2Proof/Machine/PolOps.lean ====
section
/-! DEFINITION. The policers (R272 to R275). -/

namespace Sys2Proof.Machine

/-- Word `w` of a policer's entry. -/
def State.polWord (s : State) (k w : Nat) : Nat := (s.tw pgPOL 0 k w).toNat

/-- Is the entry applied: CIR within PIR, both buckets set (R273)? -/
def State.polUsable (s : State) (k : Nat) : Bool :=
  decide (bitsOf (s.polWord k 1) 22 0 ≤ bitsOf (s.polWord k 2) 22 0) && bitsOf (s.polWord k 3) 15 0 != 0 &&
    bitsOf (s.polWord k 3) 31 16 != 0

/-- A bucket after `dt` ns at `rate` units of 64 kb/s: whole tokens, the fraction in 1/125000 byte, tokens added and
tokens clipped at `size` bytes (R273, R275). -/
def bucketAdd (tokens frac rate size dt : Nat) : Nat × Nat × Nat × Nat :=
  let total := frac + rate * dt
  let add := total / 125000
  let t := tokens + add
  if size ≤ t then (size, 0, add, t - size) else (t, total % 125000, add, 0)

/-- The model's timeline in ns, for the policers' clock. -/
def State.nowNs (s : State) : Nat := s.now * 125 / 3888

/-- The two buckets of a policer, committed and peak, brought up to a time in ns (R273). -/
def State.polBuckets (s : State) (k ns : Nat) : (Nat × Nat × Nat × Nat) × (Nat × Nat × Nat × Nat) :=
  let dt := ns - Sparse.get 0 s.pol.lastNs k
  (bucketAdd (s.tw pgPOL 1 k 0).toNat (Sparse.get 0 s.pol.fracC k) (bitsOf (s.polWord k 1) 22 0)
    (256 * bitsOf (s.polWord k 3) 15 0) dt,
   bucketAdd (s.tw pgPOL 1 k 1).toNat (Sparse.get 0 s.pol.fracP k) (bitsOf (s.polWord k 2) 22 0)
    (256 * bitsOf (s.polWord k 3) 31 16) dt)

/-- A policer brought up to a time in ns (R273). -/
def State.polUpdate (k ns : Nat) (s : State) : State :=
  let (c, p) := s.polBuckets k ns
  let s := (s.putTw pgPOL 1 k 0 (BitVec.ofNat 32 c.1)).putTw pgPOL 1 k 1 (BitVec.ofNat 32 p.1)
  let s := (s.countBy (cuPOL + 6) (c.2.2.1 + p.2.2.1)).countBy (cuPOL + 8) (c.2.2.2 + p.2.2.2)
  s.modPol (fun x => { x with
    fracC := Sparse.put 0 k c.2.1 x.fracC, fracP := Sparse.put 0 k p.2.1 x.fracP,
    lastNs := Sparse.put 0 k ns x.lastNs })

/-- Is policer `k` applied: the page enabled, the entry valid and usable (R273, R274)? -/
def State.polApplies (s : State) (k : Nat) : Bool := s.works pgPOL && s.tb pgPOL 0 k 0 0 && s.polUsable k

/-- A policer's tokens now (POL table 1): those of a policer in use run on in continuous time (R273). -/
def State.polTokens (s : State) (e k : Nat) : Nat :=
  if s.polApplies e then (if k = 0 then (s.polBuckets e s.nowNs).1.1 else (s.polBuckets e s.nowNs).2.1)
  else (s.tw pgPOL 1 e k).toNat

/-- What the policers in use have added and clipped by now beyond what their counters hold, so that a capture fits the tokens
read at that time (R275). -/
def State.polAccrued (s : State) (i : Nat) : Nat :=
  if i = cuPOL + 6 ∨ i = cuPOL + 8 then
    ((s.tblEntries pgPOL 0).filter s.polApplies).foldl (fun n k =>
      let (c, p) := s.polBuckets k s.nowNs
      n + (if i = cuPOL + 6 then c.2.2.1 + p.2.2.1 else c.2.2.2 + p.2.2.2)) 0
  else 0

/-- One policer meters a frame of `len` bytes of input colour `col` (0 green, 1 yellow, 2 red): the two-rate
three-colour marker of RFC 2698 in the subset of R273. The answer is the result's colour and whether it is dropped. -/
def State.polMeter (k len col : Nat) (s : State) : State × Nat × Bool :=
  let s := s.polUpdate k s.nowNs
  let aware := s.tb pgPOL 0 k 0 1
  let tc := (s.tw pgPOL 1 k 0).toNat
  let tp := (s.tw pgPOL 1 k 1).toNat
  let in_ := if aware then col else 0
  if in_ = 2 ∨ tp < len then
    (s, 2, s.tb pgPOL 0 k 0 2)
  else if in_ = 1 ∨ tc < len then
    ((s.putTw pgPOL 1 k 1 (BitVec.ofNat 32 (tp - len))).countBy (cuPOL + 7) len, 1, false)
  else
    (((s.putTw pgPOL 1 k 1 (BitVec.ofNat 32 (tp - len))).putTw pgPOL 1 k 0 (BitVec.ofNat 32 (tc - len))).countBy
      (cuPOL + 7) (2 * len), 0, false)

end Sys2Proof.Machine
end

