-- ==== Sys2Proof/Machine/PortOps.lean ====
section
/-! DEFINITION. UNI ports as the store sees them (R415 to R418, R435 to R443): modes, absorption, effective enable, held
bytes, PAUSE and PFC; and when a host function is enabled (R455). -/

namespace Sys2Proof.Machine

/-! Slots. -/

/-- A register field of port `p`'s slot block (Table 13.5). -/
def slotFld (p : Nat) (f : Fld) : Fld := ⟨0x030 + 0x20 * (p % 4) + f.off, f.hi, f.lo⟩
def State.pf (s : State) (p : Nat) (f : Fld) : Nat := s.fld (pgUNIQ p) (slotFld p f)
def State.pflag (s : State) (p : Nat) (f : Fld) : Bool := s.pf p f != 0
def State.setPf (p : Nat) (f : Fld) (v : Nat) (s : State) : State := s.setFld (pgUNIQ p) (slotFld p f) v

/-- The first counter of port `p`'s unit. -/
def cuPort (p : Nat) : Nat := cuUNIQ p

/-- Lanes of a mode (Table 13.1). -/
def modeLanes : Nat → Nat
  | 1 => 1
  | 2 => 2
  | 3 => 4
  | 4 => 8
  | _ => 0

/-- Rate of a mode in Gb/s. -/
def modeRate (m : Nat) : Nat := 100 * modeLanes m

/-- Is a mode legal for a port number (Table 13.1)? -/
def modeLegal (p m : Nat) : Bool :=
  m == 0 || (decide (m ≤ 4) && p % modeLanes m == 0)

/-- Does port `k`, by its configured mode `m`, use lane `p` and stand below it? -/
def absorbs (k m p : Nat) : Bool := modeLegal k m && decide (k < p) && decide (p < k + modeLanes m)

/-- The configured mode of a port. -/
def State.portMode (s : State) (p : Nat) : Nat := s.pf p UNIQ.portCfgMode

/-- Is a port absorbed (R417)? A port that is itself absorbed uses no lane. -/
def State.absorbedAmong (s : State) (p : Nat) : Nat → Bool
  | 0 => false
  | n + 1 => s.absorbedAmong p n || (absorbs n (s.portMode n) p && !s.absorbedAmong n n)
def State.absorbed (s : State) (p : Nat) : Bool := s.absorbedAmong p (min p 16)

/-- Is any tree in Lifeline? -/
def State.anyLifeline (s : State) : Bool :=
  s.fld (pgACT .a) ACT.modeMode == 6 || s.fld (pgACT .b) ACT.modeMode == 6

/-- Is a port held (R441)? -/
def State.portHeld (s : State) (p : Nat) : Bool := s.anyLifeline && !s.pflag p UNIQ.portCfgLifelinePort

/-- The effective enable as the configuration gives it now (R441, R442, R446). -/
def State.portOnNow (s : State) (p : Nat) : Bool :=
  s.works (pgUNIQ p) && s.pflag p UNIQ.portCfgEnable && s.portMode p != 0 && modeLegal p (s.portMode p) &&
    !s.absorbed p && !s.portHeld p && !s.unitContained (pgUNIQ p) (p % 4 + 1)

/-- The effective enable (UNIQ_PORT_STATUS). -/
def State.portOn (s : State) (p : Nat) : Bool := s.portOnNow p

/-- Is the port's link up; may it start a copy (R422)? -/
def State.portLink (s : State) (p : Nat) : Bool := s.pflag p UNIQ.portStatusLinkUp
def State.portServes (s : State) (p : Nat) : Bool :=
  s.portOn p && s.portLink p && !s.pflag p UNIQ.portStatusRemoteFault

/-! Lanes (LANE tables 0 and 1). -/

/-- Configuration of a lane; codes beyond the defined ones act as 0 (Table 13.9). -/
def State.laneCfg (s : State) (l hi lo : Nat) : Nat := s.tf pgLANE 0 l 0 hi lo
def State.laneGen (s : State) (l : Nat) : Nat := let v := s.laneCfg l 7 4; if v ≤ 10 then v else 0
def State.laneCheck (s : State) (l : Nat) : Nat := let v := s.laneCfg l 11 8; if v ≤ 10 then v else 0
def State.laneLoop (s : State) (l : Nat) : Nat := let v := s.laneCfg l 13 12; if v = 3 then 0 else v

/-- The lanes of a port. -/
def State.portLanes (s : State) (p : Nat) : List Nat := (List.range (modeLanes (s.portMode p))).map (· + p)

/-- Does a port run over its internal path: near-end loopback on every lane (R432)? -/
def State.portLooped (s : State) (p : Nat) : Bool :=
  !(s.portLanes p).isEmpty && (s.portLanes p).all (fun l => s.laneLoop l == 1)

/-- Is the port's link held down by a generator or a far-end loopback on one of its lanes (R432)? -/
def State.laneBlocked (s : State) (p : Nat) : Bool := (s.portLanes p).any (fun l => s.laneGen l != 0 || s.laneLoop l == 2)

/-- Does a lane work: the LANE page enabled, the lane's own quad on (R446, Table 16.1)? -/
def State.laneWorks (s : State) (l : Nat) : Bool :=
  s.enabled pgLANE && !s.unitContained pgLANE 0 && s.domOn (15 + l / 4) &&
    (match pageInfo pgLANE with | some i => s.region i.region == 0 | none => true)

/-- Do the lanes of a port work? -/
def State.lanesWork (s : State) (p : Nat) : Bool := (s.portLanes p).all s.laneWorks

/-- A lane begins, or ends, its full adaptation; table 1 shows it while adaptation is not frozen (R425, Table 13.9). -/
def State.setAdapting (l : Nat) (on : Bool) (s : State) : State :=
  (s.modUni (fun u => { u with adaptDue := Sparse.put false l on u.adaptDue })).setTf pgLANE 1 l 0 3 3
    (b2n (on && s.laneCfg l 3 3 == 0))

/-! Link bring-up (R419, R421). -/

/-- Is the medium KR or CR: 0b11 acts as C2M? -/
def State.backplane (s : State) (p : Nat) : Bool :=
  let m := s.pf p UNIQ.portCfgMedium
  m == 1 || m == 2

/-- A port's negotiation begins, or begins again: its base page is sent (R419, R421). -/
def State.anBegin (p : Nat) (s : State) : State :=
  s.iff (s.portOn p && s.lanesWork p && s.backplane p && s.pflag p UNIQ.portCfgAnEnable)
    (State.emit (.anPage p (s.portMode p) true true))

/-- A port's local fault set or cleared, with the ordered sets that it sends (R419). -/
def State.setFault (p : Nat) (on : Bool) (s : State) : State :=
  (s.iff (s.pflag p UNIQ.portStatusLocalFault != on) (State.emit (.uniFault p on))).setPf p UNIQ.portStatusLocalFault (b2n on)

/-! Frames handed on with an error (R434). -/

/-- A frame handed to the classifier; `err` says that it ends with an ingress error, which its admission's end takes up. -/
def State.handUni (p : Nat) (bs : Bytes) (err : Bool) (s : State) : State :=
  let f : InFrame := { id := s.sto.nextId, srcKind := 0, srcNum := p, tenant := 0, service := 0, bytes := bs,
                       length := bs.length + 4, tag := none }
  let s := s.iff err (fun s => s.modUni (fun u => { u with errored := u.errored ++ [f.id] }))
  (s.modSto (fun x => { x with nextId := x.nextId + 1 })).modCls (fun x => { x with handed := x.handed ++ [f] })

/-- UNIQ_PORT_LEN.max_len: values below 64 act as 64. -/
def State.maxLen (s : State) (p : Nat) : Nat := max 64 (s.pf p UNIQ.portLenMaxLen)

/-- A frame that ends with an FCS error (R434). -/
def State.uniBadFcs (p : Nat) (bs : Bytes) (s : State) : State :=
  ((s.count (cuPort p + 4)).raiseMs (pgUNIQ p) 8).handUni p bs true

/-- A frame that a port in near-end loopback has ended with an inverted FCS comes back to its receiver (R432, R434). -/
def State.uniAborted (p : Nat) (bs : Bytes) (s : State) : State :=
  if !s.portOn p then s.count (cuPort p + 16)
  else if bs.length + 4 < 64 then s.count (cuPort p + 5)
  else if s.maxLen p < bs.length + 4 then (s.count (cuPort p + 6)).handUni p (bs.take (s.maxLen p)) true
  else s.uniBadFcs p bs

/-! Pausing (R435 to R437). -/

/-- The priority a downstream class maps to at a port: by the class map (UNIQ table 1) as the last received pause frame found
it (R443). -/
def State.classPrio (s : State) (p cls : Nat) : Nat :=
  let m : Nat × Nat := Sparse.get (0, 0) s.uni.classMap p
  bitsOf (if cls / 8 % 2 = 0 then m.1 else m.2) (3 * (cls % 8) + 2) (3 * (cls % 8))

/-- Is a class paused at a port? -/
def State.classPaused (s : State) (p cls : Nat) : Bool :=
  (s.pf p UNIQ.portStatusPausedRx).testBit (s.classPrio p cls)

/-- The flow control mode in force: 3 acts as off. -/
def State.fcMode (s : State) (p : Nat) : Nat :=
  let m := s.pf p UNIQ.portFcFcMode
  if m = 3 then 0 else m

/-- Held bytes of a port at a priority entry, in cells (R435): with fc_mode 1 every priority counts in entry 0. -/
def State.heldCells (s : State) (p n : Nat) : Nat :=
  Sparse.sumBy (fun f => match f with
    | some f => if f.srcKind = 0 ∧ f.srcNum = p ∧ (if s.fcMode p = 1 then 0 else f.prio) = n then f.cells.length else 0
    | none => 0) s.sto.frames

/-- A priority's pause set or ended. -/
def State.setPaused (p n : Nat) (on : Bool) (s : State) : State :=
  let v := s.pf p UNIQ.portStatusPausedRx
  s.setPf p UNIQ.portStatusPausedRx (if v.testBit n = on then v else v ^^^ 2 ^ n)

/-- The time that quanta last at a port's rate, in sym: 512 bit times each (R437). -/
def State.quantaSym (s : State) (p q : Nat) : Nat := q * 512 * 31104 / (1000 * modeRate (s.portMode p))

/-- A pause frame is honoured: counted, with the class map that applies from it (R437, R443); `ps` are the priorities it names and
their quanta. -/
def State.pauseTake (p : Nat) (ps : List (Nat × Nat)) (s : State) : State :=
  let map := ((s.tw (pgUNIQ p) 1 (p % 4) 0).toNat, (s.tw (pgUNIQ p) 1 (p % 4) 1).toNat)
  let s := ps.foldl (fun s x => (s.setPaused p x.1 (x.2 != 0)).modUni (fun u => { u with
    pauseUntil := Sparse.put 0 (8 * p + x.1) (s.now + s.quantaSym p x.2) u.pauseUntil })) s
  let s := s.modUni (fun u => { u with classMap := Sparse.put (0, 0) p map u.classMap })
  (s.count (cuPort p + 8)).iff (ps.any (fun x => x.2 != 0)) (State.raiseMs (pgUNIQ p) 10)

/-- A MAC control frame consumed: PAUSE under fc_mode 1, PFC under fc_mode 2, every other discarded. -/
def State.macControl (p : Nat) (bs : Bytes) (s : State) : State :=
  let op := fieldAt bs 14 2
  if op = 1 ∧ s.fcMode p = 1 then
    s.pauseTake p ((List.range 8).map (fun n => (n, fieldAt bs 16 2)))
  else if op = 0x0101 ∧ s.fcMode p = 2 then
    let named := (List.range 8).filter (fun n => (fieldAt bs 16 2).testBit n && (s.pf p UNIQ.portFcPfcEnable).testBit n)
    s.pauseTake p (named.map (fun n => (n, fieldAt bs (18 + 2 * n) 2)))
  else s.count (cuPort p + 17)

/-- The bytes of a PAUSE or PFC frame without its FCS: opcode, and the quanta of every priority or of one (R437). -/
def pauseFrame (prio : Option Nat) (quanta : Nat) : Bytes :=
  natBE 6 0x0180C2000001 ++ natBE 6 0 ++ natBE 2 0x8808 ++
    (match prio with
     | none => natBE 2 1 ++ natBE 2 quanta ++ List.replicate 42 0#8
     | some n => natBE 2 0x0101 ++ natBE 2 (2 ^ n) ++ List.replicate (2 * n) 0#8 ++ natBE 2 quanta ++
         List.replicate (40 - 2 * n) 0#8)

/-- One PAUSE or PFC frame of a priority entry sent, an XOFF or quanta 0; a port in near-end loopback receives it (R432, R436). -/
def State.sendPause (p n : Nat) (xoff : Bool) (s : State) : State :=
  let tx := s.pf p UNIQ.portStatusXoffTx
  let prio := if s.fcMode p = 1 then none else some n
  let quanta := if xoff then s.pf p UNIQ.portFcQuanta else 0
  let s := (s.emit (.uniPause p prio quanta)).setPf p UNIQ.portStatusXoffTx (if tx.testBit n = xoff then tx else tx ^^^ 2 ^ n)
  let s := ((s.setPf p UNIQ.portStatusLpiTx 0).count (cuPort p + 9)).iff (xoff && !tx.testBit n) (State.raiseMs (pgUNIQ p) 9)
  let s := s.iff xoff (fun s => s.modUni (fun u => { u with ctrlAt := Sparse.put 0 (8 * p + n) s.now u.ctrlAt }))
  s.iff (s.portLooped p) (State.macControl p (pauseFrame prio quanta))

/-- The PAUSE and PFC frames that wait at a port, sent at a frame boundary. -/
def State.pauseSend (p : Nat) (s : State) : State :=
  let due := s.uni.ctrl.filter (fun x => x.1 == p)
  let s := s.modUni (fun u => { u with ctrl := u.ctrl.filter (fun x => x.1 != p) })
  if s.portOn p && s.portLink p then due.foldl (fun s x => s.sendPause p x.2.1 x.2.2) s else s

/-- They go at once while the port sends nothing and holds no launch copy. -/
def State.pauseFlush (p : Nat) (s : State) : State :=
  s.iff ((Sparse.get none s.sto.sending p).isNone && (Sparse.get [] s.sto.pinned p).isEmpty) (State.pauseSend p)

/-- A PAUSE or PFC frame due at a port. -/
def State.pauseAsk (p n : Nat) (xoff : Bool) (s : State) : State :=
  (s.modUni (fun u => { u with ctrl := u.ctrl ++ [(p, n, xoff)] })).pauseFlush p

/-- The frames of a priority entry that wait; has the entry asked for a stop, in them or, with none, in what was sent? -/
def State.pausesDue (s : State) (p n : Nat) : List (Nat × Nat × Bool) := s.uni.ctrl.filter (fun x => x.1 == p && x.2.1 == n)
def State.xoffAsked (s : State) (p n : Nat) : Bool :=
  match (s.pausesDue p n).getLast? with
  | some x => x.2.2
  | none => (s.pf p UNIQ.portStatusXoffTx).testBit n

/-- xon and xoff of a priority entry, in 4 KiB; is the entry in use: by fc_mode, pfc_enable and its watermarks (R436)? -/
def State.xonMark (s : State) (p n : Nat) : Nat := s.tf (pgUNIQ p) 0 (8 * (p % 4) + n) 0 31 16
def State.xoffMark (s : State) (p n : Nat) : Nat := s.tf (pgUNIQ p) 0 (8 * (p % 4) + n) 0 15 0
def State.pauses (s : State) (p n : Nat) : Bool :=
  ((s.fcMode p == 1 && n == 0) || (s.fcMode p == 2 && (s.pf p UNIQ.portFcPfcEnable).testBit n)) &&
    s.xoffMark p n != 0 && decide (s.xonMark p n < s.xoffMark p n) && s.portOn p && s.portLink p

/-- One priority entry of a port judged: held bytes shown, XOFF due when they reach xoff, quanta 0 when they fall below
xon (R436). A port in LPI leaves it for the frame (R439). -/
def State.pfcEntry (p n : Nat) (s : State) : State :=
  let held := s.heldCells p n
  let s := s.setTf (pgUNIQ p) 0 (8 * (p % 4) + n) 1 27 0 held
  if !s.pauses p n then s
  else if !s.xoffAsked p n && decide (16 * s.xoffMark p n ≤ held) then s.pauseAsk p n true
  else if s.xoffAsked p n && decide (held < 16 * s.xonMark p n) then s.pauseAsk p n false
  else s

/-- An XOFF sent again: half of its quanta's duration has passed, and the held bytes stay at or above xon (R436). -/
def State.xoffAgain (p n : Nat) (s : State) : State :=
  let n := if s.fcMode p = 1 then 0 else n
  s.iff (s.pauses p n && (s.pf p UNIQ.portStatusXoffTx).testBit n && (s.pausesDue p n).isEmpty &&
      decide (16 * s.xonMark p n ≤ s.heldCells p n) &&
      decide (2 * Sparse.get 0 s.uni.ctrlAt (8 * p + n) + s.quantaSym p (s.pf p UNIQ.portFcQuanta) ≤ 2 * s.now))
    (State.pauseAsk p n true)

/-- Every priority entry of a port judged. -/
def State.pfcJudge (p : Nat) (s : State) : State := (List.range 8).foldl (fun s n => s.pfcEntry p n) s

/-- The priority entries judged of the port that a frame came from, where it came from one. -/
def State.pfcFor (f : Frame) (s : State) : State := if f.srcKind = 0 then s.pfcJudge (f.srcNum % 16) else s

/-! Host functions (R455). -/

/-- Is function `f` enabled? -/
def State.fnEnabled (s : State) (f : Nat) : Bool :=
  s.fnExists f && (s.fn f).busMaster && !(s.fn f).flr && s.tb pgDMA 0 f 0 31 && s.alive pgDMA && !s.hif.perst &&
    !s.unitContained pgDMA (f + 1)

/-- Is function `f` in D0, so that its queues are served? -/
def State.fnServed (s : State) (f : Nat) : Bool := s.fnEnabled f && !(s.fn f).d3 && s.works pgDMA

end Sys2Proof.Machine
end

