-- ==== Sys2Proof/Machine/StoreOps.lean ====
section
/-! DEFINITION. Cells, references, copies and lists of the central store (R318 to R334), which the switch, the
schedulers and the line share. -/

namespace Sys2Proof.Machine

/-! The address map (R319, R320). -/

/-- Cells in the store; descriptors, as many. -/
def totalCells : Nat := 167772160

/-- The extent number and the segment number of a store address (R319). -/
def storeExtent (a : Nat) : Nat := a / 2 ^ 21
def storeSegment (a : Nat) : Nat := a / 2 ^ 36

/-- What a store address names (R319, Table 10.2): a byte of a cell, of a cell's link entry, of a descriptor, of an entry
of the Cullet stack, of the extent bitmap, of a segment's directory entry, of counter backing, of the PM bins, of the audit
bitmap; a reserved address; one that nothing backs; a byte of an extent of the extended tier. -/
inductive StoreArea where
  | cell (c ofs : Nat)
  | link (c ofs : Nat)
  | desc (d ofs : Nat)
  | cullet (i ofs : Nat)
  | extentBitmap (ofs : Nat)
  | segment (g ofs : Nat)
  | counters (ofs : Nat)
  | bins (ofs : Nat)
  | auditBitmap (ofs : Nat)
  | reserved
  | notBacked
  | tier (e ofs : Nat)
  deriving DecidableEq, Repr

/-- The area of a store address, 52 bits wide. -/
def storeArea (a : Nat) : StoreArea :=
  if 1 ≤ storeSegment a then .tier (storeExtent a) (a % 2 ^ 21)
  else if a < 0xA00000000 then .cell (a / 256) (a % 256)
  else if a < 0xA50000000 then .link ((a - 0xA00000000) / 8) (a % 8)
  else if a < 0xB90000000 then .desc ((a - 0xA50000000) / 32) (a % 32)
  else if a < 0xBB8000000 then .cullet ((a - 0xB90000000) / 4) (a % 4)
  else if a < 0xBC8000000 then .extentBitmap (a - 0xBB8000000)
  else if a < 0xBC8100000 then .segment ((a - 0xBC8000000) / 16) (a % 16)
  else if a < 0xBCA100000 then .counters (a - 0xBC8100000)
  else if a < 0xBCB100000 then .bins (a - 0xBCA100000)
  else if a < 0xBCC500000 then .auditBitmap (a - 0xBCB100000)
  else if a < 0xC00000000 then .reserved
  else .notBacked

/-- The store address of cell `c`, of its link entry, of descriptor `d` (Table 10.2). -/
def cellAddress (c : Nat) : Nat := c * 256
def linkAddress (c : Nat) : Nat := 0xA00000000 + c * 8
def descAddress (d : Nat) : Nat := 0xA50000000 + d * 32

/-- The pseudo-channel of a cell (R320), and the stack it is in. -/
def cellChannel (c : Nat) : Nat := c % 64
def cellStack (c : Nat) : Nat := if cellChannel c < 32 then 0 else 1

/-- Cells of a frame of `n` bytes; the 32-byte sectors of its cell `i` that it occupies (R320). -/
def cellsOf (n : Nat) : Nat := (n + 255) / 256
def cellFill (n i : Nat) : Nat := min 256 (n - 256 * i)
def cellSectors (n i : Nat) : Nat := (cellFill n i + 31) / 32

/-! Pools (R323). -/

/-- The next item of a pseudo-channel that has never left the stack, the retired ones passed over. -/
def Pool.freshItem (bad : List Nat) (p : Pool) (ch : Nat) : Option Nat :=
  ((List.range (bad.length + 1)).map (fun i => 64 * (Sparse.get 0 p.fresh ch + i) + ch)).find? (fun c =>
    !bad.contains c && decide (c < totalCells))

/-- An item drawn from a pseudo-channel: from its cache, else from the stack. -/
def Pool.pop (bad : List Nat) (ch : Nat) (p : Pool) : Option (Nat × Pool) :=
  match Sparse.get [] p.caches ch with
  | c :: cs => some (c, { p with caches := Sparse.put [] ch cs p.caches })
  | [] =>
    match p.stack.find? (fun c => c % 64 == ch) with
    | some c => some (c, { p with stack := p.stack.erase c })
    | none => (p.freshItem bad ch).map (fun c => (c, { p with fresh := Sparse.put 0 ch (c / 64 + 1) p.fresh }))

/-- An item drawn from pseudo-channel `ch`, or from the first one after it that has any, of `n`. -/
def Pool.popFrom (bad : List Nat) : Nat → Nat → Pool → Option (Nat × Pool)
  | 0, _, _ => none
  | n + 1, ch, p =>
    match p.pop bad (ch % 64) with
    | some x => some x
    | none => Pool.popFrom bad n (ch + 1) p

/-- `n` items drawn from consecutive pseudo-channels from `ch` on (R320): fewer where the pool holds no more. -/
def Pool.draw (bad : List Nat) : Nat → Nat → Pool → List Nat × Pool
  | 0, ch, p => ([], { p with next := ch % 64 })
  | n + 1, ch, p =>
    match p.popFrom bad 64 ch with
    | some (c, q) => let x := Pool.draw bad n (c + 1) q; (c :: x.1, x.2)
    | none => ([], { p with next := ch % 64 })

/-- An item returned: it enters the cache of its pseudo-channel; what a full cache of 1,024 held longest goes to the
stack. -/
def Pool.give (c : Nat) (p : Pool) : Pool :=
  let l := c :: Sparse.get [] p.caches (c % 64)
  { p with caches := Sparse.put [] (c % 64) (l.take 1024) p.caches, stack := l.drop 1024 ++ p.stack }

/-! Link entries and descriptors as words (R321, R322). -/

/-- The words of a descriptor at head cell `hc`, next descriptor `nx`, `tail` for the last of its list (Table 10.4). -/
def descriptorWords (c : Copy) (hc nx : Nat) (tail : Bool) : List Word :=
  [hc, nx + b2n tail * 2 ^ 28,
   c.length + c.colour * 2 ^ 14 + b2n c.cutThrough * 2 ^ 16 + b2n c.sample * 2 ^ 17 + b2n c.prot * 2 ^ 18 +
     c.tree * 2 ^ 19 + b2n c.pinned * 2 ^ 20,
   c.queue + c.tenant * 2 ^ 17 + c.service * 2 ^ 25, c.tick, c.hash, c.sequence + c.offset * 2 ^ 16,
   c.action + c.srcKind * 2 ^ 13 + c.srcNum * 2 ^ 15].map (BitVec.ofNat 32)

/-- A cell link entry's words (Table 10.3). -/
def linkWords (next : Nat) (last : Bool) (bytes refcount : Nat) (retired : Bool) : List Word :=
  [next + b2n last * 2 ^ 28, (bytes - 1) + refcount * 2 ^ 8 + b2n retired * 2 ^ 24].map (BitVec.ofNat 32)

/-! Frames. -/

/-- The frame held under an id. -/
def State.frame (s : State) (id : Nat) : Option Frame := Sparse.get none s.sto.frames id

/-- The frame held under an id set. -/
def State.putFrame (id : Nat) (f : Option Frame) (s : State) : State :=
  s.modSto (fun x => { x with frames := Sparse.put none id f x.frames })

/-- The frame held under an id changed, where there is one. -/
def State.modFrame (id : Nat) (g : Frame → Frame) (s : State) : State :=
  match s.frame id with
  | some f => s.putFrame id (some (g f))
  | none => s

/-- Free cells. -/
def State.freeCells (s : State) : Nat := s.fld pgSTO STO.culletLevelLevel

/-- Free descriptors. -/
def State.freeDescs (s : State) : Nat := s.fld pgSTO STO.descFreeFree

/-- The cells that are drawn next, `n` of them, for a frame that holds `held`: from the pseudo-channel after its last one
(R320). -/
def State.drawRun (s : State) (held : List Nat) (n : Nat) : List Nat × Pool :=
  s.sto.cullet.draw s.sto.retired n (match held.getLast? with
    | some c => c + 1
    | none => s.sto.cullet.next)
def State.nextCells (s : State) (held : List Nat) (n : Nat) : List Nat := (s.drawRun held n).1

/-- `n` cells drawn for a frame that holds `held`, and charged to a tenant; cullet_low is raised when the level falls below
STO_CULLET_LOW (R323, R325). -/
def State.drawCells (tenant : Nat) (held : List Nat) (n : Nat) (s : State) : State :=
  let x := s.drawRun held n
  let k := x.1.length
  let old := s.freeCells
  let low := s.fld pgSTO STO.culletLowLow
  let s := (s.modSto (fun y => { y with cullet := x.2 })).setFld pgSTO STO.culletLevelLevel (old - k)
  let s := s.setTf pgSTO 0 tenant 1 27 0 (s.tf pgSTO 0 tenant 1 27 0 + k)
  (s.countBy cuSTO k).iff (decide (low ≤ old) && decide (old - k < low)) (State.raise pgSTO 0)

/-- Cells returned to the pool, the tenant's charge falling by as many (R328). -/
def State.returnCells (tenant : Nat) (cells : List Nat) (s : State) : State :=
  let s := s.modSto (fun x => { x with cullet := cells.foldl (fun p c => p.give c) x.cullet })
  let s := s.setFld pgSTO STO.culletLevelLevel (s.freeCells + cells.length)
  let s := s.setTf pgSTO 0 tenant 1 27 0 (s.tf pgSTO 0 tenant 1 27 0 - cells.length)
  s.countBy (cuSTO + 1) cells.length

/-- A frame leaves the store: its cells return. -/
def State.freeFrame (id : Nat) (s : State) : State :=
  match s.frame id with
  | some f => ((s.returnCells f.tenant f.cells).putFrame id none).pfcFor f
  | none => s

/-- The descriptor that is taken next. -/
def State.descRun (s : State) : List Nat × Pool := s.sto.descs.draw [] 1 s.sto.descs.next
def State.nextDesc (s : State) : Nat := s.descRun.1.headD 0

/-- A descriptor taken: one reference more on the frame (R328). -/
def State.takeRef (id : Nat) (s : State) : State :=
  ((s.modSto (fun x => { x with descs := s.descRun.2 })).setFld pgSTO STO.descFreeFree (s.freeDescs - 1)).modFrame id
    (fun f => { f with refs := f.refs + 1 })

/-- A copy's reference released, its descriptor freed; with none left on its frame, every cell of the frame returns
(R328). -/
def State.releaseRef (c : Copy) (s : State) : State :=
  let s := (s.modSto (fun x => { x with descs := x.descs.give c.desc })).setFld pgSTO STO.descFreeFree (s.freeDescs + 1)
  match s.frame c.frame with
  | some f =>
    if f.refs ≤ 1 then (s.putFrame c.frame (some { f with refs := 0 })).freeFrame c.frame
    else s.putFrame c.frame (some { f with refs := f.refs - 1 })
  | none => s

/-! Lists. -/

/-- The key of list `which` of an admission queue: 0 shared or downstream, 1 and 2 trees A and B, 3 backlog. -/
def listKey (queue which : Nat) : Nat := queue * 4 + which

/-- A list of copies, head first. -/
def State.list (s : State) (k : Nat) : List Copy := Sparse.get [] s.sto.lists k

/-- A list set. -/
def State.putList (k : Nat) (l : List Copy) (s : State) : State :=
  s.modSto (fun x => { x with lists := Sparse.put [] k l x.lists })

/-- A copy joined to the end of a list. -/
def State.appendCopy (k : Nat) (c : Copy) (s : State) : State := s.putList k (s.list k ++ [c])

/-- Bytes held in an admission queue. -/
def State.queueBytes (s : State) (q : Nat) : Nat := Sparse.get 0 s.sto.qbytes q

/-- Copies in the four lists of an admission queue. -/
def State.queueCopies (s : State) (q : Nat) : List Copy :=
  s.list (listKey q 0) ++ s.list (listKey q 1) ++ s.list (listKey q 2) ++ s.list (listKey q 3)

/-- The first downstream admission queue, and how many admission queues there are (R326). -/
def downBase : Nat := 4096

/-- Bytes of an admission queue set, with the views of SWC table 0 word 1, DSCH table 2 and USCH table 2 that show
them in 256 B units (or bytes, upstream). -/
def State.setQueueBytes (q n : Nat) (s : State) : State :=
  let s := s.modSto (fun x => { x with qbytes := Sparse.put 0 q n x.qbytes })
  let s := s.setTf pgSWC 0 q 1 27 0 ((n + 255) / 256)
  if q < downBase then s.putTw pgUSCH 2 q 0 (BitVec.ofNat 32 (min n 0xFFFFFFFF))
  else s.setTf pgDSCH 2 (q - downBase) 0 27 0 ((n + 255) / 256)

/-- The view of how many copies a queue's lists hold. -/
def State.showCopies (q : Nat) (s : State) : State :=
  let n := (s.queueCopies q).length
  if q < downBase then s.setTf pgUSCH 2 q 1 23 0 n
  else s.setTf pgDSCH 2 (q - downBase) 1 31 16 (min n 65535)

/-- The scheduler tick count (R322). -/
def State.ticks (s : State) : Nat := s.usch.ticks

/-- The age of a copy in ticks (R322). -/
def State.copyAge (s : State) (c : Copy) : Nat := (s.ticks + 2 ^ 32 - c.tick) % 2 ^ 32

/-! Entries in force (R261). -/

/-- Word `w` of the entry of USCH table 0 in force for queue `q`. -/
def State.qparam (s : State) (q w : Nat) : Nat := (Sparse.get 0#32 s.usch.activeQ (q * 4 + w)).toNat

/-- Word `w` of the entry of USCH table 1 in force for a tenant. -/
def State.tparam (s : State) (n w : Nat) : Nat := (Sparse.get 0#32 s.usch.activeT (n * 2 + w)).toNat

def State.baseLevel (s : State) (q : Nat) : Nat := bitsOf (s.qparam q 0) 2 0
def State.isBulk (s : State) (q : Nat) : Bool := (s.qparam q 0).testBit 3
def State.weight (s : State) (q : Nat) : Nat := max 1 (bitsOf (s.qparam q 0) 15 8)
def State.urgThresh (s : State) (q : Nat) : Nat := bitsOf (s.qparam q 1) 15 0
def State.ageLimit (s : State) (q : Nat) : Nat := bitsOf (s.qparam q 1) 31 16

/-! Items. -/

/-- The list of tree `t` of an upstream queue. -/
def treeList (t : Tree) (q : Nat) : Nat := listKey q (1 + treeIx t)

/-- The older of two items by admission order. -/
def olderCopy : Option Copy → Option Copy → Option Copy
  | some a, some b => if b.order < a.order then some b else some a
  | some a, none => some a
  | none, b => b

/-- The next item of a queue for a tree, with the key of its list (R255): a pinned remainder; else the older of the
heads of the tree's list and the shared list. -/
def State.nextItem (s : State) (t : Tree) (q : Nat) : Option (Nat × Copy) :=
  let own := s.list (treeList t q)
  match own.find? (fun c => c.pinned) with
  | some c => some (treeList t q, c)
  | none =>
    match own.head?, (s.list (listKey q 0)).head? with
    | some a, some b => if b.order < a.order then some (listKey q 0, b) else some (treeList t q, a)
    | some a, none => some (treeList t q, a)
    | none, some b => some (listKey q 0, b)
    | none, none => none

/-- The head item of a queue: its oldest by admission, over the shared list, both tree lists and the pinned
remainders (R263). -/
def State.headItem (s : State) (q : Nat) : Option (Nat × Copy) :=
  [listKey q 0, listKey q 1, listKey q 2].foldl (fun acc k =>
    (s.list k).foldl (fun acc c =>
      match acc with
      | some (_, b) => if c.order < b.order then some (k, c) else acc
      | none => some (k, c)) acc) none

/-- The age of a queue's head item, 0 for an empty queue. -/
def State.headAge (s : State) (q : Nat) : Nat :=
  match s.headItem q with
  | some (_, c) => s.copyAge c
  | none => 0

/-- Is a queue promoted now? -/
def State.promoted (s : State) (q : Nat) : Bool := s.tb pgUSCH 2 q 3 16

/-- Should a queue be promoted (R262)? -/
def State.shouldPromote (s : State) (q : Nat) : Bool :=
  (s.headItem q).isSome && s.urgThresh q != 0 && !s.isBulk q && decide (s.urgThresh q ≤ s.headAge q) &&
    decide (s.fld pgUSCH USCH.cfgPromoCeiling < s.baseLevel q)

/-- The promotion of a queue judged (R262). -/
def State.judgePromotion (q : Nat) (s : State) : State :=
  let was := s.promoted q
  let now := s.shouldPromote q
  let s := s.setTf pgUSCH 2 q 3 16 16 (b2n now)
  if now && !was then
    ((s.setFld pgUSCH USCH.statusPromoted (s.fld pgUSCH USCH.statusPromoted + 1)).count (cuUSCH + 3)).raiseMs pgUSCH 0
  else if was && !now then s.setFld pgUSCH USCH.statusPromoted (s.fld pgUSCH USCH.statusPromoted - 1)
  else s

/-- The views of a queue: head age, pins, frames (USCH table 2). -/
def State.showQueue (q : Nat) (s : State) : State :=
  let s := s.setTf pgUSCH 2 q 3 15 0 (min (s.headAge q) 65535)
  let s := s.setTf pgUSCH 2 q 3 17 17 (b2n ((s.list (listKey q 1)).any (fun c => c.pinned)))
  let s := s.setTf pgUSCH 2 q 3 18 18 (b2n ((s.list (listKey q 2)).any (fun c => c.pinned)))
  s.showCopies q

/-- The key of a queue's deficit on a tree. -/
def deficitKey (t : Tree) (q : Nat) : Nat := q * 2 + treeIx t

/-- A queue's deficit on a tree. -/
def State.deficit (s : State) (t : Tree) (q : Nat) : Int := Sparse.get 0 s.usch.deficits (deficitKey t q)

/-- A queue's deficit on a tree set. -/
def State.setDeficit (t : Tree) (q : Nat) (d : Int) (s : State) : State :=
  s.modUsch (fun u => { u with deficits := Sparse.put 0 (deficitKey t q) d u.deficits })

/-! Lists changed. -/

/-- The deficits of an upstream queue whose lists are empty for a tree are 0 (R258 step 4). -/
def State.settleUp (q : Nat) (s : State) : State :=
  (s.iff (s.nextItem .a q).isNone (State.setDeficit .a q 0)).iff (s.nextItem .b q).isNone (State.setDeficit .b q 0)

/-- A downstream queue's head copy. -/
def State.downHead (s : State) (q : Nat) : Option Copy := (s.list (listKey q 0)).head?

/-- The tenant node and the class of a downstream queue (R336, Table 10.5). -/
def nodeOf (q : Nat) : Nat := (q - downBase) / 16
def classOf (q : Nat) : Nat := (q - downBase) % 16

/-- The admission queues among `ok` that hold a copy, rising. -/
def State.queuesWith (s : State) (ok : Nat → Bool) : List Nat :=
  ((Sparse.keys s.sto.lists).filter (fun k => decide (k % 4 = 0) && decide (downBase ≤ k / 4) && ok (k / 4))).map (· / 4)

/-- The deficits of a downstream queue and of a tenant node that have emptied are 0 (R258 step 4, R336). -/
def State.settleDown (q : Nat) (s : State) : State :=
  let s := s.iff (s.downHead q).isNone (fun s => s.modSto (fun x => { x with
    queueDeficit := Sparse.put 0 q 0 x.queueDeficit }))
  s.iff (s.queuesWith (fun r => nodeOf r == nodeOf q)).isEmpty (fun s => s.modSto (fun x => { x with
    nodeDeficit := Sparse.put 0 (nodeOf q) 0 x.nodeDeficit }))

/-- What follows at once when a queue has lost a copy: its deficits, and upstream its promotion and its views. -/
def State.settleQueue (q : Nat) (s : State) : State :=
  if q < downBase then ((s.settleUp q).judgePromotion q).showQueue q
  else ((s.modSto (fun x => { x with downOut := x.downOut + 1 })).settleDown q).showCopies q

/-- A copy taken off a list: the list, the queue's bytes and views. The reference stays held. -/
def State.unlinkCopy (k : Nat) (c : Copy) (s : State) : State :=
  ((s.putList k ((s.list k).erase c)).setQueueBytes c.queue (s.queueBytes c.queue - c.length)).settleQueue c.queue

/-- What an egress port is sending. -/
def State.sendingOn (s : State) (port : Nat) : Option Copy := Sparse.get none s.sto.sending port

/-- What an egress port is sending set. -/
def State.putSending (port : Nat) (c : Option Copy) (s : State) : State :=
  s.modSto (fun x => { x with sending := Sparse.put none port c x.sending })

/-- A UNI port cuts short what it is sending: it ends the frame with the complement of its FCS (R334). -/
def State.cutCopy (port : Nat) (c : Copy) (s : State) : State :=
  let sent := Sparse.get [] s.sto.sendBytes port
  let s := (s.putSending port none).modSto (fun x => { x with sendBytes := Sparse.put [] port [] x.sendBytes })
  let s := (s.emit (.uniAbort port c.frame)).count (cuPort port + 14)
  (s.iff (s.portLooped port) (State.uniAborted port sent)).pauseFlush port

/-- A started copy aborted on its UNI port (R334). -/
def State.abortCopy (port : Nat) (c : Copy) (s : State) : State :=
  (((s.cutCopy port c).count (cuSWC + 11)).raise pgSWC 2).releaseRef c

/-- The key of what is being handed to function `f` from its queue of class `c`. -/
def handKey (f c : Nat) : Nat := 32 + 16 * f + c

/-! Duplicated frames (R227). -/

/-- Is another copy of a duplicated frame still queued, waiting for its frame's end, or in a grant's content? -/
def State.otherCopy (s : State) (c : Copy) : Bool :=
  let other := fun (d : Copy) => d.prot && d.frame == c.frame && d.tree != c.tree
  let inGrant := fun (g : GrtSt) => g.content.any (fun kv => match kv.2 with
    | some x => x.placed.any (fun p => other p.copy)
    | none => false)
  (s.list (listKey c.queue 1) ++ s.list (listKey c.queue 2)).any other || inGrant s.grt.a || inGrant s.grt.b ||
    (match s.frame c.frame with
     | some f => f.waiting.any other
     | none => false)

/-- Has a copy of the frame been delivered? -/
def State.frameDelivered (s : State) (id : Nat) : Bool :=
  match s.frame id with
  | some f => f.delivered
  | none => false

/-- A protected copy ends unsent: withdrawn at DUAL index 12 where another copy has been sent or is still queued, else
counted by its cause. The copy is off its list already; its reference is released. -/
def State.endProtected (c : Copy) (cause : State → State) (s : State) : State :=
  let w := s.frameDelivered c.frame || s.otherCopy c
  ((if w then s.count (cuDUAL + 12) else cause s)).releaseRef c

/-- A drop counted at `counter`; of an upstream copy that the store drops, in the running total of A6 too. -/
def State.countDrop (counter : Nat) (c : Copy) (s : State) : State :=
  let up := decide (c.queue < downBase) && (counter == cuSTO + 9 || counter == cuSTO + 11)
  (s.count counter).iff up (fun s => s.modSto (fun x => { x with upLost := x.upLost + 1 }))

/-- A copy ends by a cause of the store or the switch: counted, a protected one by R227, its reference released. -/
def State.endCopy (counter : Nat) (c : Copy) (s : State) : State :=
  if c.prot then s.endProtected c (State.countDrop counter c) else (s.countDrop counter c).releaseRef c

/-- A copy that waits for its frame's end, taken off already, ends: its bytes leave its queue, and it is counted. It has
entered no scheduler, so that A6 has no term for it: one that is withdrawn is taken out of its running total. A sample copy is
not counted in SWC indices 1 to 8 (R340): for want of cells it counts at SWC 12 (log entry 39). -/
def State.endWaiting (counter : Nat) (c : Copy) (s : State) : State :=
  let s := s.setQueueBytes c.queue (s.queueBytes c.queue - c.length)
  let w := c.prot && (s.frameDelivered c.frame || s.otherCopy c)
  let counter := if c.sample = true ∧ counter = cuSWC + 4 then cuSWC + 12 else counter
  (if w then (s.count (cuDUAL + 12)).modSto (fun x => { x with upLost := x.upLost - 1 }) else s.count counter).releaseRef c

/-- The copies among `ok` of frame `id` that wait for its end, dropped. -/
def State.dropWaitingOf (ok : Copy → Bool) (id counter : Nat) (s : State) : State :=
  match s.frame id with
  | some f =>
    let gone := f.waiting.filter ok
    gone.foldl (fun s c => (s.modFrame id (fun g => { g with waiting := g.waiting.erase c })).endWaiting counter c) s
  | none => s

/-- Is an admission queue in the queue group that unit `u` of page `p` is: 32 upstream queues, or the downstream queues of 32
pairs of tenant and class on every port (log entry 15)? -/
def inGroup (p u q : Nat) : Bool :=
  if q < downBase then p == pgUSCH && u == q / 32 + 1
  else p == pgDSCH && decide (q < downBase + 69632) && u == (q - downBase) % 4096 / 32 + 1

/-- Is the queue group of an admission queue contained (R23)? -/
def State.groupHeld (s : State) (q : Nat) : Bool :=
  s.rel.contained.any (fun x => x.2 && inGroup (x.1 / 65536) (x.1 % 65536) q)

/-- A copy whose bytes are in its queue joins the end of a downstream list; a contained queue group drops it (R23). -/
def State.joinDown (c : Copy) (s : State) : State :=
  if s.groupHeld c.queue then (s.setQueueBytes c.queue (s.queueBytes c.queue - c.length)).endCopy (cuDSCH + 6) c
  else ((s.appendCopy (listKey c.queue 0) c).modSto (fun x => { x with downIn := x.downIn + 1 })).showCopies c.queue

/-- Every copy among `ok` dropped that a port is sending or that is on its way to a host function: on a UNI port it is aborted,
and the abort is its one drop counter (R324, R325, R334), but for a reset of the store, which counts every copy (R351). -/
def State.dropSending (ok : Copy → Bool) (counter : Nat) (s : State) : State :=
  (s.sto.sending.filter (fun x => match x.2 with | some c => ok c | none => false)).foldl (fun s x =>
    match x.2 with
    | some c =>
      if 32 ≤ x.1 then (s.putSending x.1 none).endCopy counter c
      else if counter = cuSTO + 11 then (s.cutCopy x.1 c).endCopy counter c
      else s.abortCopy x.1 c
    | none => s) s

/-- Every copy among `ok` that is in a list dropped. -/
def State.dropListed (ok : Copy → Bool) (counter : Nat) (s : State) : State :=
  (Sparse.keys s.sto.lists).foldl (fun s k =>
    ((s.list k).filter ok).foldl (fun s c => (s.unlinkCopy k c).endCopy counter c) s) s

/-- Every copy of frame `id` dropped, wherever it is: on a port, in a list, waiting for frame end. -/
def State.dropFrameCopies (id counter : Nat) (s : State) : State :=
  let s := s.dropSending (fun c => c.frame == id) counter
  (s.dropListed (fun c => c.frame == id) counter).dropWaitingOf (fun _ => true) id counter

/-- Every copy that waits for its frame's end among those of queues `ok`, dropped. -/
def State.dropWaiting (ok : Nat → Bool) (counter : Copy → Nat) (s : State) : State :=
  (Sparse.keys s.sto.frames).foldl (fun s id =>
    match s.frame id with
    | some f => (f.waiting.filter (fun c => ok c.queue)).foldl (fun s c =>
        (s.modFrame id (fun g => { g with waiting := g.waiting.erase c })).endWaiting (counter c) c) s
    | none => s) s

/-! UNI links (R422, R441). -/

/-- A frame that a MAC is receiving ends with an ingress error (R325 step 7): at once where its copies are decided, else when
they are. -/
def State.ingressError (id : Nat) (s : State) : State :=
  match s.frame id with
  | some f =>
    if f.decided then s.dropFrameCopies id (cuSWC + 12)
    else s.putFrame id (some { f with ended := true, arrived := f.bytes.length, endWith := 1 })
  | none => s

/-- A port's link falls (R422). -/
def State.linkFall (p : Nat) (s : State) : State :=
  if !s.portLink p then s
  else
    let s := (((s.setPf p UNIQ.portStatusLinkUp 0).setPf p UNIQ.portStatusAnDone 0).setPf p UNIQ.portStatusPcsLock 0).setPf p
      UNIQ.portStatusRemoteFault 0
    let s := (((s.setPf p UNIQ.portStatusLpiTx 0).setPf p UNIQ.portStatusLpiRx 0).setPf p UNIQ.portStatusPausedRx 0).setPf p
      UNIQ.portStatusXoffTx 0
    let s := s.modUni (fun u => { u with ctrl := u.ctrl.filter (fun x => x.1 != p) })
    let s := match s.sendingOn p with
      | some c => s.abortCopy p c
      | none => s
    let s := (s.sto.frames.filter (fun x => match x.2 with
        | some f => f.srcKind == 0 && f.srcNum == p && !f.ended
        | none => false)).foldl (fun s x => s.ingressError x.1) s
    let s := (s.portLanes p).foldl (fun s l => s.setAdapting l true) s
    ((s.raise (pgUNIQ p) (4 + p % 4)).count (cuPort p + 15)).anBegin p

/-- A port's status follows its configuration, the LANE page and the trees' modes: absorbed, held, effective_enable; a port that
is no longer enabled loses its link (R417, R441). -/
def State.refreshPort (p : Nat) (s : State) : State :=
  let held := s.portHeld p
  let newly := held && !s.pflag p UNIQ.portStatusHeld
  let on := s.portOnNow p
  let begins := on && !s.pflag p UNIQ.portStatusEffectiveEnable
  let s := ((s.setPf p UNIQ.portStatusAbsorbed (b2n (s.absorbed p))).setPf p UNIQ.portStatusHeld (b2n held)).setPf p
    UNIQ.portStatusEffectiveEnable (b2n on)
  let s := s.iff newly (State.raise (pgUNIQ p) 11)
  (s.iff begins (State.anBegin p)).iff (!on || !s.lanesWork p) (State.linkFall p)
def State.refreshPorts (s : State) : State := (List.range 16).foldl (fun s p => s.refreshPort p) s

/-- Does a read of a frame meet its uncorrectable cell (R324)? -/
def State.frameBad (s : State) (id : Nat) : Bool :=
  match s.frame id with
  | some f => f.bad
  | none => false

/-! Link entries and descriptors that the store holds (R321, R322). -/

/-- The link entry of a cell that a frame holds or that is retired; a free cell's is not stated. -/
def State.linkEntry (s : State) (c : Nat) : Option (List Word) :=
  if s.sto.retired.contains c then some (linkWords 0 false 1 0 true)
  else (s.sto.frames.filterMap (fun x => x.2)).findSome? (fun f =>
    (f.cells.idxOf? c).map (fun i =>
      linkWords (f.cells[i + 1]?.getD 0) (i + 1 == f.cells.length && f.ended)
        (max 1 (cellFill (if f.ended then f.bytes.length else f.arrived) i)) (if i = 0 then f.refs else 0) false))

/-- The words of the descriptor at place `i` of a list: the head cell of its frame, the descriptor behind it. -/
def State.descriptorAt (s : State) (l : List Copy) (i : Nat) : Option (List Word) :=
  (l[i]?).map (fun c =>
    let head := match s.frame c.frame with | some f => f.cells.headD 0 | none => 0
    descriptorWords c head (match l[i + 1]? with | some d => d.desc | none => 0) (l[i + 1]?).isNone)

/-- The sum of the head-cell refcounts, which a sweep finds (R350). -/
def State.refSum (s : State) : Nat := Sparse.sumBy (fun x => match x with | some f => f.refs | none => 0) s.sto.frames

/-- The bytes of a copy. -/
def State.copyBytes (s : State) (c : Copy) : Bytes :=
  match s.frame c.frame with
  | some f => f.bytes.take c.length
  | none => []

end Sys2Proof.Machine
end

