-- ==== Sys2Proof/Machine/UschOps.lean ====
section
/-! DEFINITION. The upstream scheduler: queues, their items, ages, promotion, shapers, and the fill of a grant's stream
(R254 to R270). -/

namespace Sys2Proof.Machine

/-! Allocations and queues. -/

/-- ACT table 1 of a tree: alloc_id, valid, management, tenant and services of local allocation `a`. -/
def State.allocId (s : State) (t : Tree) (a : Nat) : Nat := s.tf (pgACT t) 1 a 0 15 0
def State.allocValid (s : State) (t : Tree) (a : Nat) : Bool := s.tb (pgACT t) 1 a 0 16
def State.allocMgmt (s : State) (t : Tree) (a : Nat) : Bool := s.tb (pgACT t) 1 a 0 17
def State.allocTenant (s : State) (t : Tree) (a : Nat) : Nat := s.tf (pgACT t) 1 a 1 7 0
def State.allocServices (s : State) (t : Tree) (a : Nat) : Nat := s.tf (pgACT t) 1 a 1 31 16

/-- The valid local indices of a tree. -/
def State.allocs (s : State) (t : Tree) : List Nat := (s.tblEntries (pgACT t) 1).filter (s.allocValid t)

/-- The local index an alloc_id is bound to on a tree (R248). -/
def State.localIndex (s : State) (t : Tree) (id : Nat) : Option Nat :=
  (s.allocs t).find? (fun a => s.allocId t a == id)

/-- The service queues of an allocation, in service order (R255). -/
def State.allocQueues (s : State) (t : Tree) (a : Nat) : List Nat :=
  ((List.range 16).filter (fun v => (s.allocServices t a).testBit v)).map (fun v => 16 * s.allocTenant t a + v)

/-- Is tenant `n` enabled on the tree (ACT_TENANT_EN)? -/
def State.tenantEnabled (s : State) (t : Tree) (n : Nat) : Bool :=
  s.flag (pgACT t) ⟨0x074 + 4 * (n / 32), n % 32, n % 32⟩

/-- Does tree `t` serve queue `q` by some allocation? -/
def State.treeServes (s : State) (t : Tree) (q : Nat) : Bool :=
  (s.allocs t).any (fun a => !s.allocMgmt t a && (s.allocQueues t a).contains q)

/-- Payload bytes as sent: 24 more when the queue's context is in GCM mode (R256). -/
def State.asSent (s : State) (t : Tree) (q n : Nat) : Nat := if s.ctxGcm (upCtx t (q / 16)) then n + 24 else n

/-! Shapers (R259 to R261). -/

/-- A burst size below 16,384 bytes acts as 16,384 (R259). -/
def burstSize (n : Nat) : Int := max (n : Int) 16384

/-- Tokens after a tick: clipped to the burst, then refilled (R259, R261). -/
def refill (tokens : Int) (rate burst : Nat) : Int :=
  min (min tokens (burstSize burst) + rate) (burstSize burst)

/-- Has the queue's service shaper tokens, or none set (R257, R259)? -/
def State.queueShaperOk (s : State) (q : Nat) : Bool :=
  s.qparam q 2 == 0 || decide (0 < Sparse.get 0 s.usch.queueTokens q)

/-- Has the tenant's shaper tokens, or none set? -/
def State.tenantShaperOk (s : State) (n : Nat) : Bool :=
  s.tparam n 0 == 0 || decide (0 < Sparse.get 0 s.usch.tenantTokens n)

/-- A placed payload debits both shapers, each where it has a rate (R259). -/
def State.debitShapers (q n : Nat) (s : State) : State :=
  s.modUsch (fun u => { u with
    queueTokens := if s.qparam q 2 = 0 then u.queueTokens
      else Sparse.put 0 q (Sparse.get 0 u.queueTokens q - n) u.queueTokens
    tenantTokens := if s.tparam (q / 16) 0 = 0 then u.tenantTokens
      else Sparse.put 0 (q / 16) (Sparse.get 0 u.tenantTokens (q / 16) - n) u.tenantTokens })

/-- An item discarded by age (R263). -/
def State.discardAge (k : Nat) (c : Copy) (s : State) : State :=
  let s := s.unlinkCopy k c
  let cause := fun (s : State) =>
    let whole := c.length + c.offset
    let s := (s.count (cuUSCH + 4)).countBy (cuUSCH + 5) whole
    (s.count (cuQueue c.queue + 2)).raiseMs pgUSCH 1
  if c.prot then s.endProtected c cause else (cause s).releaseRef c

/-- Head items that have reached the age limit go, at most `n` of them (R263). -/
def State.discardAged (q : Nat) : Nat → State → State
  | 0, s => s
  | n + 1, s =>
    match s.headItem q with
    | some (k, c) =>
      if s.ageLimit q ≠ 0 ∧ s.isBulk q = false ∧ s.ageLimit q ≤ s.copyAge c then
        State.discardAged q n (s.discardAge k c)
      else s
    | none => s

/-- A queue examined: aged, then judged for promotion, then shown (R262, R263). -/
def State.examine (q : Nat) (s : State) : State :=
  ((s.discardAged q (s.queueCopies q).length).judgePromotion q).showQueue q

/-- The upstream queues that hold anything or stand promoted. -/
def State.liveQueues (s : State) : List Nat :=
  (((Sparse.keys s.sto.lists).filter (fun k => k < 4 * downBase)).map (· / 4) ++
    (s.tblEntries pgUSCH 2).filter s.promoted).eraseDups

/-- The effective level of a queue: bulk below level 7, promoted one level up (R258, R262). -/
def State.effLevel (s : State) (q : Nat) : Nat :=
  if s.isBulk q then 8 else if s.promoted q then s.baseLevel q - 1 else s.baseLevel q

/-! The fill (R256 to R258). -/

/-- The least fragment split off (GRT_CFG.frag_min; below 16 acts as 16). -/
def State.fragMin (s : State) (t : Tree) : Nat := max 16 (s.fld (pgGRT t) GRT.cfgFragMin)

/-- Is a queue eligible for a burst of a grant of frame `fc` (R257, R351, R364)? -/
def State.eligible (s : State) (t : Tree) (fc : Nat) (passed : List Nat) (q : Nat) : Bool :=
  s.works pgUSCH && s.works pgSTO && (s.nextItem t q).isSome && s.queueShaperOk q && s.tenantShaperOk (q / 16) &&
    s.tenantEnabled t (q / 16) && s.upKeyOk (upCtx t (q / 16)) fc && !passed.contains q

/-- The fragment sequence of a copy's next fragment: a protected frame's own, else the stream's next on the tree (R226,
R228). -/
def State.fragSequence (s : State) (t : Tree) (c : Copy) : Nat :=
  if c.prot then c.sequence else Sparse.get 0 (s.grt.get t).fragSeq c.queue

/-- A fragment of a copy given its sequence, and its key slot and packet number where its context is in GCM mode (R228,
R364). -/
def State.tag (t : Tree) (fc : Nat) (c : Copy) (offset len : Nat) (last : Bool) (s : State) : State × Placed :=
  let n := s.fragSequence t c
  let s := if c.prot then s else s.modGrt (fun g => g.mod t (fun x => { x with
    fragSeq := Sparse.put 0 c.queue ((n + 1) % 65536) x.fragSeq }))
  let ctx := upCtx t (c.queue / 16)
  match (if s.ctxGcm ctx then s.slotFor ctx fc else none) with
  | some k => (s.takePn ctx k, ⟨c, offset, len, last, n, some (k, s.slotPn ctx k + 1)⟩)
  | none => (s, ⟨c, offset, len, last, n, none⟩)

/-- A fill in progress: the state, the bytes left, what is placed (newest first), the queues passed over. -/
structure Fill where
  s : State
  space : Nat
  placed : List Placed
  passed : List Nat

/-- The most payload bytes of a fragment, the 14 bits of its length field (R135, R358). -/
def fragMax : Nat := 16383

/-- One item of queue `q` placed, if its deficit and the space allow: whole, or split (R256); one that meets
an uncorrectable cell is dropped (R324). An item that is too long for one secured fragment does not fit whole: a load-shared one is
split at the longest fragment (DEDUCED, log entry 133). `none` ends the queue's turn. -/
def Fill.placeOne (t : Tree) (fc q : Nat) (f : Fill) : Option Fill :=
  let s := f.s
  match s.nextItem t q with
  | none => none
  | some (k, c) =>
    let remain := c.length
    let sent := s.asSent t q remain
    if s.frameBad c.frame then some { f with s := (s.unlinkCopy k c).endCopy (cuSTO + 9) c }
    else if 8 + sent ≤ f.space ∧ sent ≤ fragMax then
      if (sent : Int) ≤ s.deficit t q then
        let s := ((s.setDeficit t q (s.deficit t q - sent)).unlinkCopy k c).debitShapers q sent
        let x := s.tag t fc c c.offset remain true
        some { f with s := x.1, space := f.space - 8 - sent, placed := x.2 :: f.placed }
      else none
    else if c.prot then some { f with passed := q :: f.passed }
    else
      let excess := sent - remain
      if 8 + excess + s.fragMin t ≤ f.space then
        let part := min (f.space - 8) fragMax - excess
        if ((part + excess : Nat) : Int) ≤ s.deficit t q then
          let rest := { c with pinned := true, tree := treeIx t, offset := c.offset + part, length := c.length - part }
          let s := (s.setDeficit t q (s.deficit t q - (part + excess))).putList k ((s.list k).erase c)
          let s := ((s.putList (treeList t q) (rest :: s.list (treeList t q))).setQueueBytes q
            (s.queueBytes q - part)).settleQueue q
          let s := s.debitShapers q (part + excess)
          let x := (s.count (cuUSCH + 2)).tag t fc c c.offset part false
          some { f with s := x.1, space := f.space - 8 - (part + excess), placed := x.2 :: f.placed }
        else none
      else some { f with passed := q :: f.passed }

/-- One turn of a queue: items placed while they may be, at most `n` (R258 step 3). -/
def Fill.turn (t : Tree) (fc q : Nat) : Nat → Fill → Fill
  | 0, f => f
  | n + 1, f =>
    if f.s.eligible t fc f.passed q then
      match f.placeOne t fc q with
      | some f' => Fill.turn t fc q n f'
      | none => f
    else f

/-- The first queue of a ring at or after where the round stands. -/
def ringNext (stand : Nat) (ring : List Nat) : Option Nat :=
  match ring.find? (fun q => decide (stand ≤ q)) with
  | some q => some q
  | none => ring.head?

/-- The key of a round: tree, allocation, level. -/
def roundKey (t : Tree) (a level : Nat) : Nat := (a * 16 + level) * 2 + treeIx t

/-- One service-level selection and its turn; `none` when the stream is full or no queue is eligible (R258). -/
def Fill.step (t : Tree) (a fc : Nat) (qs : List Nat) (f : Fill) : Option Fill :=
  let el := qs.filter (f.s.eligible t fc f.passed)
  if f.space < 8 + f.s.fragMin t then none
  else
    match el.map f.s.effLevel with
    | [] => none
    | l :: ls =>
      let level := ls.foldl min l
      let ring := el.filter (fun q => f.s.effLevel q == level)
      let key := roundKey t a level
      match ringNext (Sparse.get 0 f.s.usch.pointers key) ring with
      | none => none
      | some q =>
        let s := f.s.setDeficit t q (f.s.deficit t q + 256 * f.s.weight q)
        let g := Fill.turn t fc q (f.space / 8 + 1) { f with s := s }
        some { g with s := g.s.modUsch (fun u => { u with pointers := Sparse.put 0 key (q + 1) u.pointers }) }

/-- Selections repeated until the stream is full or no queue is eligible, at most `n` (R258). -/
def Fill.run (t : Tree) (a fc : Nat) (qs : List Nat) : Nat → Fill → Fill
  | 0, f => f
  | n + 1, f =>
    match f.step t a fc qs with
    | some g => Fill.run t a fc qs n g
    | none => f

/-- The stream of a grant of allocation `a` filled within `space` bytes: what is placed, in order, and the space left
(R252 step 4). Every queue of the allocation is examined first; a queue with an item and no key for the grant's frame is
counted once (R364). -/
def State.fillStream (t : Tree) (a fc space : Nat) (s : State) : State × List Placed × Nat :=
  let qs := s.allocQueues t a
  let s := qs.foldl (fun s q => s.examine q) s
  let keyless := qs.filter (fun q => (s.nextItem t q).isSome && s.ctxGcm (upCtx t (q / 16)) &&
    (s.slotFor (upCtx t (q / 16)) fc).isNone)
  let s := s.countBy (cuLSEC + 6) keyless.length
  let f := Fill.run t a fc qs (1100 * (space / 8 + 2)) ⟨s, space, [], []⟩
  (qs.foldl (fun s q => (s.judgePromotion q).showQueue q) f.s, f.placed.reverse, f.space)

/-! Queue reports (R266). -/

/-- Bytes of a queue in HBM that are available to a tree: the shared, own and backlog lists. -/
def State.availBytes (s : State) (t : Tree) (q : Nat) : Nat :=
  (s.list (listKey q 0) ++ s.list (treeList t q) ++ s.list (listKey q 3)).foldl (fun n c => n + c.length) 0

/-- Bytes of a record: the descriptor image and the frame, padded to 64 bytes (R343). -/
def TierRec.size (r : TierRec) : Nat := (32 + r.bytes.length + 63) / 64 * 64

/-- The bytes that a queue's records take in the extended tier (R343). -/
def State.tierBytes (s : State) (q : Nat) : Nat :=
  (Sparse.get [] s.xtr.tier q).foldl (fun n e => n + e.recs.foldl (fun n r => n + r.size) 0) 0

/-- The values of a queue report: backlog, deferred, hol_age, urgent (R266). The tier bytes of the bulk queues are the bytes
that their records take, summed before they are rounded up to 2 MiB (log entry 98). -/
def State.reportValues (s : State) (t : Tree) (a : Nat) : Nat × Nat × Nat × Bool :=
  let qs := s.allocQueues t a
  (qs.foldl (fun n q => n + s.availBytes t q) 0,
   ((qs.filter s.isBulk).foldl (fun n q => n + s.tierBytes q) 0 + (2 ^ 21 - 1)) / 2 ^ 21,
   (qs.filter (fun q => !s.isBulk q)).foldl (fun n q => max n (s.headAge q)) 0,
   qs.any s.promoted)

/-! The tick (R259 to R261, R337). -/

/-- Written entries take effect and every shaper is refilled, that of an entry rewritten to all 0 too; the tick count advances
(R259, R261, R337). -/
def State.schedTick (s : State) : State :=
  let words := fun (p t e w : Nat) => s.tw p t e w
  let put := fun (n : Nat) (p t : Nat) (m : Sparse Word) =>
    (s.tblEntries p t).foldl (fun m e => (List.range n).foldl (fun m w => Sparse.put 0#32 (e * 4 + w) (words p t e w) m) m) m
  let put2 := fun (p t : Nat) (m : Sparse Word) =>
    (s.tblEntries p t).foldl (fun m e => (List.range 2).foldl (fun m w => Sparse.put 0#32 (e * 2 + w) (words p t e w) m) m) m
  let aq := put 4 pgUSCH 0 []
  let at_ := put2 pgUSCH 1 []
  let dq := put 1 pgDSCH 0 []
  let dn := put 3 pgDSCH 1 []
  let touched := fun (p t : Nat) (m : Sparse Int) => (s.tblEntries p t ++ Sparse.keys m).eraseDups
  let fillq := fun (m : Sparse Int) => (touched pgUSCH 0 m).foldl (fun m q =>
    Sparse.put 0 q (refill (Sparse.get 0 m q) (s.tf pgUSCH 0 q 2 22 0) (s.tf pgUSCH 0 q 3 23 0)) m) m
  let fillt := fun (m : Sparse Int) => (touched pgUSCH 1 m).foldl (fun m n =>
    Sparse.put 0 n (refill (Sparse.get 0 m n) (s.tf pgUSCH 1 n 0 22 0) (s.tf pgUSCH 1 n 1 23 0)) m) m
  let filln := fun (m : Sparse Int) => (touched pgDSCH 1 m).foldl (fun m n =>
    Sparse.put 0 n (refill (Sparse.get 0 m n) (s.tf pgDSCH 1 n 1 22 0) (s.tf pgDSCH 1 n 2 23 0)) m) m
  let rate := s.fld pgDSCH DSCH.hostRateHostRate
  let s := s.modUsch (fun u => { u with
    ticks := (u.ticks + 1) % 2 ^ 32, activeQ := aq, activeT := at_,
    queueTokens := fillq u.queueTokens, tenantTokens := fillt u.tenantTokens })
  s.modSto (fun x => { x with
    activeQueue := dq, activeNode := dn, nodeTokens := filln x.nodeTokens,
    hostTokens := min (min x.hostTokens 16384 + rate) 16384 })

end Sys2Proof.Machine
end

