-- ==== Sys2Proof/Machine/GrtOps.lean ====
section
/-! DEFINITION. One grant processor (R248 to R253, R268 to R271, R276): the pending table, acceptance, the selection
instant, and what becomes of selected content. -/

namespace Sys2Proof.Machine

/-- A grant processor's state. -/
def State.grts (s : State) (t : Tree) : GrtSt := s.grt.get t

/-- A grant processor's state changed. -/
def State.modGrts (t : Tree) (f : GrtSt → GrtSt) (s : State) : State := s.modGrt (fun p => p.mod t f)

/-! The pending table. -/

/-- Fields of the grant at index `i` of the pending table (Table 8.5). -/
def State.pendAlloc (s : State) (t : Tree) (i : Nat) : Nat := s.tf (pgGRT t) 0 i 0 15 0
def State.pendLocal (s : State) (t : Tree) (i : Nat) : Nat := s.tf (pgGRT t) 0 i 0 25 16
def State.pendValid (s : State) (t : Tree) (i : Nat) : Bool := s.tb (pgGRT t) 0 i 0 26
def State.pendStart (s : State) (t : Tree) (i : Nat) : Nat := s.tf (pgGRT t) 0 i 2 17 0
def State.pendLength (s : State) (t : Tree) (i : Nat) : Nat := s.tf (pgGRT t) 0 i 3 17 0
def State.pendProfile (s : State) (t : Tree) (i : Nat) : Nat := s.tf (pgGRT t) 0 i 3 19 18
def State.pendQr (s : State) (t : Tree) (i : Nat) : Bool := s.tb (pgGRT t) 0 i 3 20

/-- 0 waiting, 1 selected, 2 on the pins. -/
def State.pendState (s : State) (t : Tree) (i : Nat) : Nat := s.tf (pgGRT t) 0 i 3 22 21

/-- The grants in the pending table. -/
def State.pendings (s : State) (t : Tree) : List Nat := (s.tblEntries (pgGRT t) 0).filter (s.pendValid t)

/-- T0, E and the map's frame counter of a pending grant. -/
def State.pendSpan (s : State) (t : Tree) (i : Nat) : Nat × Nat × Nat := Sparse.get (0, 0, 0) (s.grts t).spans i
def State.pendT0 (s : State) (t : Tree) (i : Nat) : Nat := (s.pendSpan t i).1
def State.pendE (s : State) (t : Tree) (i : Nat) : Nat := (s.pendSpan t i).2.1
def State.pendFc (s : State) (t : Tree) (i : Nat) : Nat := (s.pendSpan t i).2.2

/-- GRT_STATUS.pending follows the table. -/
def State.showPending (t : Tree) (s : State) : State := s.setFld (pgGRT t) GRT.statusPending (s.pendings t).length

/-- A grant leaves the pending table. -/
def State.removeGrant (t : Tree) (i : Nat) (s : State) : State :=
  ((s.putEntry (pgGRT t) 0 i 0 (List.replicate 4 0#32)).modGrts t (fun g => { g with
    spans := Sparse.put (0, 0, 0) i (0, 0, 0) g.spans, content := Sparse.put none i none g.content })).showPending t

/-- An index of the pending table that holds no grant. -/
def State.freePending (s : State) (t : Tree) : Option Nat :=
  s.pick ((List.range 1024).filter (fun i => !s.pendValid t i))

/-- A grant enters the pending table (R249, R251). -/
def State.enterGrant (t : Tree) (i a fc : Nat) (g : GrantEntry) (span : Nat × Nat) (s : State) : State :=
  let s := s.putEntry (pgGRT t) 0 i 0 ([g.alloc + a * 2 ^ 16 + 2 ^ 26, fc, g.start,
    g.length + g.profile * 2 ^ 18 + b2n g.qr * 2 ^ 20].map (BitVec.ofNat 32))
  ((s.modGrts t (fun x => { x with spans := Sparse.put (0, 0, 0) i (span.1, span.2, fc) x.spans })).showPending t).count
    (cuGRT t + 2)

/-- Does the mode let a grant to local allocation `a` be used (Table 8.1)? -/
def State.grantUsed (s : State) (t : Tree) (a : Nat) : Bool :=
  match s.mode t with
  | 3 => s.allocMgmt t a
  | 4 => true
  | 5 => true
  | 6 => s.allocMgmt t a || s.tb (pgACT t) 0 (s.allocTenant t a) 0 1
  | _ => false

/-- Do two spans overlap? Spans that only touch do not (R250). -/
def spansOverlap (a b : Nat × Nat) : Bool := decide (a.1 < b.2) && decide (b.1 < a.2)

/-- Does a span overlap a pending grant's? -/
def State.overlapsPending (s : State) (t : Tree) (span : Nat × Nat) : Bool :=
  (s.pendings t).any (fun i => spansOverlap span (s.pendT0 t i, s.pendE t i))

/-- An accepted grant map entry reaches the grant processor: the index it takes, or none where it is discarded or
suppressed (R248 to R251, R276). The filters act in the order of R251. -/
def State.grantReceive (t : Tree) (g : GrantEntry) (fc : Nat) (span : Nat × Nat) (s : State) : State × Option Nat :=
  let cu := cuGRT t
  let s := s.count cu
  if !s.works (pgGRT t) then (s.count (cu + 1), none)
  else
    let s := s.setFld (pgGRT t) GRT.lastLastFc fc
    match s.localIndex t g.alloc with
    | none => (s.count (cu + 1), none)
    | some a =>
      if !s.grantUsed t a then ((s.count (cu + 4)).raiseMs (pgGRT t) 0, none)
      else if s.overlapsPending t span then ((s.count (cu + 5)).raiseMs (pgGRT t) 2, none)
      else match s.freePending t with
        | none => ((s.count (cu + 6)).raise (pgGRT t) 1, none)
        | some i => (s.useFree.enterGrant t i a fc g span, some i)

/-! The TMC send queue (R268, R269). -/

/-- State, class and length of a send queue entry; a length field of 0 stands for 2,048 bytes (R138; log entry 112). -/
def State.tmcState (s : State) (t : Tree) (e : Nat) : Nat := s.tf (pgGRT t) 1 e 0 14 13
def State.tmcClass (s : State) (t : Tree) (e : Nat) : Nat := s.tf (pgGRT t) 1 e 0 12 11
def State.tmcLength (s : State) (t : Tree) (e : Nat) : Nat :=
  if s.tf (pgGRT t) 1 e 0 10 0 = 0 then 2048 else s.tf (pgGRT t) 1 e 0 10 0
def State.tmcAddr (s : State) (t : Tree) (e : Nat) : Nat := (s.tw (pgGRT t) 1 e 1).toNat

/-- Submission order and time of a queued entry. -/
def State.tmcOrder (s : State) (t : Tree) (e : Nat) : Nat × Nat := (Sparse.get none (s.grts t).tmcOrder e).getD (0, 0)

/-- The queued entries, by class and then submission order. -/
def State.tmcQueued (s : State) (t : Tree) : List Nat :=
  let q := (s.tblEntries (pgGRT t) 1).filter (fun e => s.tmcState t e == 1)
  (List.range 4).flatMap (fun c =>
    (q.filter (fun e => s.tmcClass t e == c)).mergeSort (fun a b => decide ((s.tmcOrder t a).1 ≤ (s.tmcOrder t b).1)))

/-- GRT_STATUS.tmc_queued follows the queue. -/
def State.showTmc (t : Tree) (s : State) : State := s.setFld (pgGRT t) GRT.statusTmcQueued (s.tmcQueued t).length

/-- An entry's state set; a free entry is cleared. -/
def State.setTmcState (t : Tree) (e st : Nat) (s : State) : State :=
  let s := if st = 0 then s.putEntry (pgGRT t) 1 e 0 [0#32, 0#32] else s.setTf (pgGRT t) 1 e 0 14 13 st
  let s := if st = 1 then s else s.modGrts t (fun g => { g with
    tmcOrder := Sparse.put none e none g.tmcOrder, tmcRefused := g.tmcRefused.filter (· ≠ e) })
  s.showTmc t

/-- A message submitted into entry `e`: queued, or refused where that entry is taken, which the entry's state then shows
(R268; log entry 113). -/
def State.tmcSubmit (t : Tree) (e len cls addr : Nat) (s : State) : State :=
  if s.tmcState t e = 1 ∨ s.tmcState t e = 2 then s.modGrts t (fun g => { g with tmcRefused := e :: g.tmcRefused.filter (· ≠ e) })
  else
    let n := (s.grts t).tmcNext
    let s := s.putEntry (pgGRT t) 1 e 0 ([len % 2 ^ 11 + cls % 4 * 2 ^ 11 + 2 ^ 13, addr].map (BitVec.ofNat 32))
    (s.modGrts t (fun g => { g with
      tmcOrder := Sparse.put none e (some (n, s.now)) g.tmcOrder, tmcNext := g.tmcNext + 1,
      tmcRefused := g.tmcRefused.filter (· ≠ e) })).showTmc t

/-- The first entry of the send queue that is free or was refused. -/
def State.tmcFree (s : State) (t : Tree) : Option Nat :=
  (List.range 64).find? (fun e => s.tmcState t e == 0 || s.tmcState t e == 3)

/-- The entries that fit, in order, until the first that does not, and the bytes they take (R268). -/
def takeWhole (len : Nat → Nat) : List Nat → Nat → List Nat × Nat
  | [], _ => ([], 0)
  | e :: es, space =>
    if 8 + len e ≤ space then
      let x := takeWhole len es (space - 8 - len e)
      (e :: x.1, 8 + len e + x.2)
    else ([], 0)

/-- The queue report of a management allocation (R269). -/
def State.tmcReport (s : State) (t : Tree) : Bytes :=
  let q := s.tmcQueued t
  let age := q.foldl (fun n e => max n ((s.now - (s.tmcOrder t e).2) / 3888000)) 0
  queueReport (q.foldl (fun n e => n + s.tmcLength t e) 0) 0 age (q.any (fun e => s.tmcClass t e == 0))

/-! The selection instant (R252, R253). -/

/-- GRT_CFG.lead in sym; a value outside 20 to 100 µs acts as 30 (R276). -/
def State.grantLead (s : State) (t : Tree) : Nat :=
  let l := s.fld (pgGRT t) GRT.cfgLead
  symPerUs * (if 20 ≤ l ∧ l ≤ 100 then l else 30)

/-- The waiting grant of the tree with the earliest T0. -/
def State.nextWaiting (s : State) (t : Tree) (st : Nat) : Option Nat :=
  ((s.pendings t).filter (fun i => s.pendState t i == st)).foldl (fun acc i =>
    match acc with
    | none => some i
    | some j => if s.pendT0 t i < s.pendT0 t j then some i else some j) none

/-- The selected grant whose T0 comes first, of a list. -/
def State.firstSelected (s : State) (t : Tree) : List Nat → Option Nat
  | [] => none
  | i :: is =>
    match s.firstSelected t is with
    | some j => if s.pendState t i = 1 ∧ s.pendT0 t i ≤ s.pendT0 t j then some i else some j
    | none => if s.pendState t i = 1 then some i else none

/-- The selected grant that starts next. -/
def State.nextBurst (s : State) (t : Tree) : Option Nat := s.firstSelected t (s.pendings t)

/-- Why a grant ends at S with no content, if it does: 0 suppressed by the transmitter, 1 too short (R252 step 1). -/
def State.endsAtS (s : State) (t : Tree) (i : Nat) : Option Nat :=
  let w := s.profile t (s.pendProfile t i)
  if !profileValid w then some 0
  else if s.pendLength t i < shortGrantBlocks (profileQam w) then some 1
  else if launchOutOfRange t (s.appliedLaunch t w (s.pendT0 t i)) then some 0
  else if s.forced t || !s.burstsAllowed t then some 0
  else none

/-- The information bytes of one placed fragment: its header, then its payload as sent (R135, R358). -/
def State.placedBytes (s : State) (t : Tree) (p : Placed) : Bytes :=
  let n := if p.key.isSome then p.len + 24 else p.len
  let h : FragHdr := ⟨p.copy.queue / 16, p.seq, 1, n, p.last, p.copy.prot, p.copy.queue % 16⟩
  let pt := ((match s.frame p.copy.frame with | some f => f.bytes | none => []).drop p.offset).take p.len
  h.bytes ++ (match p.key with
    | some (k, pn) => s.sealFragment (upCtx t (p.copy.queue / 16)) k pn h.body pt
    | none => pt)

/-- Shared SRAM of the control cores, `n` bytes from `addr`. -/
def State.sramBytes (s : State) (addr n : Nat) : Bytes := (List.range n).map (fun i => Sparse.get 0#8 s.sram (addr + i))

/-- A TMC message as its burst of frame `fc` sends it: with auth 1 its last 16 bytes are the tag under K_mgmt_up
(R199, R367). -/
def State.tmcMessage (s : State) (t : Tree) (fc e : Nat) : Bytes :=
  let m := s.sramBytes (s.tmcAddr t e) (s.tmcLength t e)
  if (byteAt m 3).testBit 7 then
    let body := m.take (m.length - 16)
    body ++ tmcTag (s.mgmtKey t 1) fc body
  else m

/-- The bytes of TMC fragments (R138). -/
def State.tmcBytes (s : State) (t : Tree) (fc : Nat) (es : List Nat) : Bytes :=
  es.flatMap (fun e => (⟨0, 0, 2, s.tmcLength t e, true, false, 0⟩ : FragHdr).bytes ++ s.tmcMessage t fc e)

/-- The stream of a burst put together (R145): headers, report, fragments, idle fill. -/
def State.burstStream (s : State) (t : Tree) (i cap : Nat) (report : Option Bytes) (frags : Bytes) : Bytes :=
  let rep := report.getD []
  let head := burstHeader (s.fld (pgHAL t) HAL.termTerminalId) (s.pendFc t i) (s.flag pgSUP SUP.statusSupplyWarning)
    (s.flag pgSUP SUP.statusBattery)
  let body := allocHeader (s.pendAlloc t i) (rep.length + frags.length) report.isSome ++ rep ++ frags
  head ++ body ++ idleFill (cap / 8 + 1) (cap - head.length - body.length)

/-- A grant selected with content: the fill, the report after it, the stream (R252 steps 2 to 6). -/
def State.selectContent (t : Tree) (i : Nat) (s : State) : State :=
  let a := s.pendLocal t i
  let w := s.profile t (s.pendProfile t i)
  let x := burstFill (16 * s.pendLength t i) (profileQam w)
  let cap := 900 * x.1
  let qr := s.pendQr t i
  let space := cap - 20 - (if qr then 16 else 0)
  if s.allocMgmt t a then
    let y := takeWhole (s.tmcLength t) (s.tmcQueued t) space
    let bytes := s.tmcBytes t (s.pendFc t i) y.1
    let s := y.1.foldl (fun s e => s.setTmcState t e 2) s
    let rep := if qr then some (s.tmcReport t) else none
    keep s t i { tmc := y.1, idleBytes := idleBytes (cap / 8 + 1) (space - y.2), report := rep, profile := w,
                 stream := s.burstStream t i cap rep bytes, codewords := x.1, pad := x.2 }
  else
    let y := if s.tenantEnabled t (s.allocTenant t a) then s.fillStream t a (s.pendFc t i) space
      else (s.count (cuGRT t + 15), [], space)
    let v := y.1.reportValues t a
    let rep := if qr then some (queueReport v.1 v.2.1 v.2.2.1 v.2.2.2) else none
    let bytes := y.2.1.flatMap (y.1.placedBytes t)
    let sealed := y.2.1.filter (fun p => p.key.isSome)
    let s := y.2.1.foldl (fun s p => s.count (cuCtx (upCtx t (p.copy.queue / 16)))) y.1
    let s := (s.countBy (cuLSEC + 1) sealed.length).countBy (cuLSEC + 10) (sealed.foldl (fun n p => n + p.len) 0)
    keep s t i { placed := y.2.1, idleBytes := idleBytes (cap / 8 + 1) y.2.2, report := rep, profile := w,
                 stream := s.burstStream t i cap rep bytes, codewords := x.1, pad := x.2 }
where
  /-- The content held until the burst ends. -/
  keep (s : State) (t : Tree) (i : Nat) (c : Content) : State :=
    ((s.modGrts t (fun g => { g with content := Sparse.put none i (some c) g.content })).setTf (pgGRT t) 0 i 3 22 21
      1).count (cuGRT t + 3)

/-- The content of a selected grant. -/
def State.contentOf (s : State) (t : Tree) (i : Nat) : Content := (Sparse.get none (s.grts t).content i).getD {}

/-! Outcomes (R251, R270). -/

/-- Every pinned remainder of a frame on a tree's list of its queue taken off, its reference released. -/
def State.dropRemainders (t : Tree) (c : Copy) (s : State) : State :=
  ((s.list (treeList t c.queue)).filter (fun d => d.frame == c.frame && d.pinned && !d.prot)).foldl (fun s d =>
    (s.unlinkCopy (treeList t c.queue) d).releaseRef d) s

/-- Are two copies the same copy of a frame? -/
def sameCopy (c d : Copy) : Bool := c.frame == d.frame && c.queue == d.queue

/-- Does the last fragment of a copy stand in a selected grant of a tree? -/
def State.lastPlaced (s : State) (t : Tree) (c : Copy) : Bool :=
  (s.grts t).content.any (fun x => match x.2 with
    | some y => y.placed.any (fun p => p.last && sameCopy p.copy c)
    | none => false)

/-- Has a load-shared copy already been dropped, its last fragment on its way (R270)? -/
def State.copyLost (s : State) (c : Copy) : Bool :=
  match s.frame c.frame with
  | some f => f.lost.contains c.queue
  | none => false

/-- Does a load-shared copy still hold its reference: as a pinned remainder, or by its last fragment in a selected grant? -/
def State.copyAlive (s : State) (t : Tree) (c : Copy) : Bool :=
  !s.copyLost c && (s.lastPlaced t c || (s.list (treeList t c.queue)).any (fun d => sameCopy d c && d.pinned && !d.prot))

/-- A load-shared copy with a fragment in content that is lost is dropped whole, counted once (R270). `here` says that its last
fragment is in that content. -/
def State.loseCopy (t : Tree) (c : Copy) (here : Bool) (s : State) : State :=
  let s := (s.iff (s.copyAlive t c) (State.count (cuGRT t + 8))).dropRemainders t c
  if here then s.releaseRef c
  else s.iff (s.lastPlaced t c) (State.modFrame c.frame (fun f => { f with lost := c.queue :: f.lost }))

/-- The copies of some fragments, one of each. -/
def copiesOf (ps : List Placed) : List Copy :=
  ps.foldl (fun l p => if l.any (sameCopy p.copy) then l else l ++ [p.copy]) []

/-- The content of a truncated or late-suppressed grant ends: load-shared frames dropped whole and counted once each,
protected copies per R227, TMC messages lost (R270). -/
def State.loseContent (t : Tree) (c : Content) (s : State) : State :=
  let shared := c.placed.filter (fun p => !p.copy.prot)
  let s := (copiesOf shared).foldl (fun s d => s.loseCopy t d (shared.any (fun p => p.last && sameCopy p.copy d))) s
  let s := (c.placed.filter (fun p => p.copy.prot)).foldl (fun s p => s.endProtected p.copy (State.count (cuGRT t + 8))) s
  let s := s.iff (!c.placed.isEmpty) (State.raise (pgGRT t) 3)
  let s := c.tmc.foldl (fun s e => s.setTmcState t e 0) s
  (s.countBy (cuGRT t + 13) c.tmc.length).iff (!c.tmc.isEmpty) (State.raise (pgGRT t) 4)

/-- A frame's last fragment has left in a burst that was sent: it is complete, unless its copy was dropped before (R227, R270,
R283, R328). -/
def State.copySent (c : Copy) (s : State) : State :=
  let n := c.length + c.offset
  if !c.prot && s.copyLost c then s.releaseRef c
  else
    let s := (s.modFrame c.frame (fun f => { f with delivered := true })).releaseRef c
    let s := (s.count (cuUSCH + 1)).countBy (cuUSCH + 7) n
    (s.count (cuQueue c.queue)).countBy (cuQueue c.queue + 1) n

/-- The content of a burst that was sent: the counters of R279, and each frame it completed returns. -/
def State.sendContent (t : Tree) (c : Content) (s : State) : State :=
  let cu := cuGRT t
  let s := (s.countBy (cu + 9) c.placed.length).countBy (cu + 10) (c.placed.foldl (fun n p => n + p.len) 0)
  let s := (s.countBy (cu + 11) c.idleBytes).countBy (cu + 12) c.tmc.length
  let s := s.countBy (cu + 14) (b2n c.report.isSome)
  let s := (c.placed.filter (fun p => p.last)).foldl (fun s p => s.copySent p.copy) s
  c.tmc.foldl (fun s e => s.setTmcState t e 0) s

/-- A grant suppressed by the grant processor at or after its S, or by the transmitter after S (R251, R270, R271). -/
def State.suppressLate (t : Tree) (i : Nat) (s : State) : State :=
  (((s.loseContent t (s.contentOf t i)).count (cuGRT t + 7)).raiseMs (pgGRT t) 0).removeGrant t i

/-- Grants whose S has not passed, suppressed because the page is disabled (R276). -/
def State.suppressWaiting (t : Tree) (s : State) : State :=
  ((s.pendings t).filter (fun i => s.pendState t i == 0)).foldl (fun s i =>
    ((s.count (cuGRT t + 16)).raiseMs (pgGRT t) 0).removeGrant t i) s

/-- The restart of a frozen region: every pending grant whose S has passed is suppressed (R543 item 5). -/
def State.suppressPassed (t : Tree) (s : State) : State :=
  ((s.pendings t).filter (fun i => decide (s.pendT0 t i ≤ s.now + s.grantLead t))).foldl (fun s i => s.suppressLate t i) s

end Sys2Proof.Machine
end

