-- ==== Sys2Proof/Machine/HalOps.lean ====
section
/-! DEFINITION. One halyard unit (R162 to R187): the chirp's numbers, frames and messages, reception, and the transmit
slots. -/

namespace Sys2Proof.Machine

/-! Numbers and formats (R162 to R169). -/

/-- A chirp symbol, and the preamble's length up to the reference point, in thousandths of a sym (R162, R177). -/
def chirpMilli : Nat := 509607936
def toRefMilli : Nat := 8 * chirpMilli

/-- Gray code: the symbol sent for twelve bits `d`, and the bits recovered from a symbol (R166). -/
def graySymbol : Nat → Nat → Nat
  | 0, d => d
  | n + 1, d => graySymbol n (d ^^^ (d >>> (2 ^ n)))
def symbolFor (d : Nat) : Nat := graySymbol 4 d
def grayBits (s : Nat) : Nat := s ^^^ (s >>> 1)

/-- Twelve-bit groups of some bytes, first bit first, three bytes to two groups; and the bytes of some groups. -/
def twelves : Bytes → List Nat
  | a :: b :: c :: bs => (a.toNat * 16 + b.toNat / 16) :: (b.toNat % 16 * 256 + c.toNat) :: twelves bs
  | _ => []
def twelvesBytes : List Nat → Bytes
  | x :: y :: ds => natBE 3 (x % 4096 * 4096 + y % 4096) ++ twelvesBytes ds
  | _ => []

/-- The bytes that some received symbols carry (R166). -/
def symsBytes (syms : List Nat) : Bytes := twelvesBytes (syms.map grayBits)

/-- The header check: CRC-8 with x^8 + x^2 + x + 1 over header bits [23:8] (R168). -/
def crc8 (bs : Bytes) : Nat := crcMSB 8 0x07 0 bs

/-- A halyard header of three bytes: type, plen; none where it is not valid (R168). -/
def halHeader (bs : Bytes) : Option (Nat × Nat) :=
  let h := fieldAt bs 0 3
  let plen := bitsOf h 17 12
  if crc8 (bs.take 2) = h % 256 ∧ plen % 2 = 0 ∧ plen ≤ 48 then some (bitsOf h 23 18, plen) else none

/-- The header bytes of a frame. -/
def halHeaderBytes (kind plen : Nat) : Bytes :=
  let b := natBE 2 (kind * 2 ^ 10 + plen * 2 ^ 4)
  b ++ natBE 1 (crc8 b)

/-- plen of each message type, and whether the type is a downstream one (Table 5.4). -/
def halPlen (kind : Nat) : Nat :=
  match kind with
  | 0x01 => 12
  | 0x02 => 12
  | 0x03 => 4
  | 0x04 => 4
  | 0x21 => 12
  | 0x22 => 8
  | 0x23 => 8
  | 0x24 => 4
  | _ => 0

/-- A downstream message type with its fixed plen (R170). -/
def halDownOk (kind plen : Nat) : Bool := decide (1 ≤ kind) && decide (kind ≤ 4) && plen == halPlen kind

/-! State. -/

/-- A halyard unit's state. -/
def State.hals (s : State) (t : Tree) : HalSt := s.hal.get t

/-- A halyard unit's state changed. -/
def State.modHals (t : Tree) (f : HalSt → HalSt) (s : State) : State := s.modHal (fun p => p.mod t f)

/-- An offset of R165 within ±128 steps. -/
def offsetOk (n : Int) : Bool := decide (-128 ≤ n) && decide (n ≤ 128)

/-- Are both offsets in range (R165)? -/
def State.halOffsetsOk (s : State) (t : Tree) : Bool :=
  offsetOk (s.sfld (pgHAL t) HAL.cfgDnOffset) && offsetOk (s.sfld (pgHAL t) HAL.cfgUpOffset)

/-- Is the unit at work: enabled and not idle? -/
def State.halWorks (s : State) (t : Tree) : Bool := s.works (pgHAL t) && s.halOffsetsOk t

/-- The receiver the halyard is taken from: the tree's first whose framer shows hdr_state SYNC and control 1 (R171). -/
def State.halSource (s : State) (t : Tree) : Option Rx :=
  [treeRx t 0, treeRx t 1].find? (fun r => s.fld (pgFRM r) FRM.stateHdrState == 2 && s.flag (pgFRM r) FRM.stateControl)

/-- The receiver HAL_STATUS.rx_source names. -/
def State.halReceiver (s : State) (t : Tree) : Rx := treeRx t (s.fld (pgHAL t) HAL.statusRxSource)

/-- The tree's serial (HAL_SERIAL). -/
def State.serial (s : State) (t : Tree) : Nat :=
  (s.reg (pgHAL t) 0x054).toNat + (s.reg (pgHAL t) 0x058).toNat * 2 ^ 32

/-! Reception. -/

/-- The AGC released. -/
def State.halRelease (t : Tree) (s : State) : State :=
  (s.setFld (pgHAL t) HAL.statusAgcFrozen 0).modHals t (fun h => { h with rx := none })

/-- rx_sync set or cleared; each change raises its bit (R175). -/
def State.halSync (t : Tree) (on : Bool) (s : State) : State :=
  if s.flag (pgHAL t) HAL.statusRxSync = on then s
  else (s.setFld (pgHAL t) HAL.statusRxSync (b2n on)).raise (pgHAL t) (if on then 1 else 2)

/-- A preamble detected: the AGC frozen (R172). -/
def State.halDetect (t : Tree) (gain : Nat) (s : State) : State :=
  if s.halWorks t && s.flag (pgHAL t) HAL.statusRxActive && !s.flag (pgHAL t) HAL.statusAgcFrozen then
    let s := (s.count (cuHAL t)).setFld (pgHAL t) HAL.statusAgcFrozen 1
    (s.setFld (pgHAL t) HAL.statusAgcGain gain).modHals t (fun h => { h with rx := some {} })
  else s

/-- A header failure: the AGC released and the failure counted (R172). -/
def State.halHeaderFail (t : Tree) (s : State) : State :=
  if (s.hals t).rx.isSome then (s.halRelease t).count (cuHAL t + 1) else s

/-- Is an accepted frame addressed to this terminal (R170)? -/
def State.halAddressed (s : State) (t : Tree) (kind : Nat) (payload : Bytes) : Bool :=
  let own := s.flag (pgHAL t) HAL.termIdValid && fieldAt payload 0 2 == s.fld (pgHAL t) HAL.termTerminalId
  match kind with
  | 1 => true
  | 2 => fieldAt payload 0 8 == s.serial t
  | 3 => own || fieldAt payload 0 2 == 0xFFFF
  | _ => own

/-- An accepted and addressed frame stored in the receive ring, or dropped where it is full (R174). -/
def State.halStore (t : Tree) (kind plen level fc ofs : Nat) (payload : Bytes) (s : State) : State :=
  let p := pgHAL t
  let wr := s.fld p HAL.rxPtrWr
  if (wr + 16 - s.fld p HAL.rxPtrRd) % 16 ≥ 8 then (s.count (cuHAL t + 6)).raise p 4
  else
    let s := s.putEntry p 1 (wr % 8) 0 ([kind + plen * 2 ^ 6 + level * 2 ^ 12, fc, ofs % 2 ^ 22].map (BitVec.ofNat 32) ++
      wordsBE 18 payload)
    let s := ((s.setFld p HAL.rxPtrWr (wr + 1)).count (cuHAL t + 3)).raise p 0
    if kind = 2 then s.raise p 6 else if kind = 3 then s.raise p 5 else s

/-- A received frame ends: `syms` are its header, payload and check symbols (R166, R170, R172, R174, R175). -/
def State.halFrameEnd (t : Tree) (syms : List Nat) (level : Nat) (s : State) : State :=
  let bytes := symsBytes syms
  match (s.hals t).rx with
  | some ⟨fc, ofs, some (kind, plen)⟩ =>
    let s := s.halRelease t
    let n := plen * 3 / 2
    let payload := (bytes.drop 3).take n
    if fieldAt bytes (3 + n) 2 ≠ crc16 (bytes.take (3 + n)) then (s.count (cuHAL t + 2)).raiseMs (pgHAL t) 3
    else if !halDownOk kind plen then s.count (cuHAL t + 5)
    else
      let s := (s.setFld (pgHAL t) HAL.statusLevel level).halSync t true
      if s.halAddressed t kind payload then s.halStore t kind plen (level % 256) fc ofs payload
      else s.count (cuHAL t + 4)
  | _ => s

/-! Transmit slots. -/

/-- State and result of a transmit slot (HAL_TX_STATUS). -/
def halStateFld (slot : Nat) : Fld := ⟨0x04C, 2 * slot + 1, 2 * slot⟩
def halResultFld (slot : Nat) : Fld := ⟨0x04C, 2 * slot + 9, 2 * slot + 8⟩

/-- A job of a slot. -/
def State.halJob (s : State) (t : Tree) (slot : Nat) : Option HalJob := (s.hals t).jobs.find? (fun j => j.slot == slot)

/-- The job of a slot changed. -/
def State.modHalJob (t : Tree) (slot : Nat) (f : HalJob → HalJob) (s : State) : State :=
  s.modHals t (fun h => { h with jobs := h.jobs.map (fun j => if j.slot = slot then f j else j) })

/-- The chirp symbols of a frame: preamble, sync, header, payload, and the check with its 8 bits of 0 (R166 to R168). A submitted
plen that is odd, above 48 or not its type's is sent as it stands, with 3/2 as many payload bytes, in whole groups of three bytes
(DESIGN CHOICE, log entry 126). -/
def HalJob.chirps (j : HalJob) : List Chirp :=
  let body := halHeaderBytes j.kind j.plen ++ j.payload
  List.replicate 8 (.up 0) ++ [.down, .down] ++
    (twelves (body ++ natBE 2 (crc16 body) ++ natBE 1 0)).map (fun d => .up (symbolFor d))

/-- The end H of a committed frame, in thousandths of a sym. -/
def HalJob.finish (j : HalJob) : Nat := j.start.getD 0 + (14 + j.plen) * chirpMilli

/-- Thousandths of a sym to whole sym, nearest. -/
def nearestSym (m : Nat) : Nat := (m + 500) / 1000

/-- TX_PREP.lead and TX_CFG.gate_adv, in sym. -/
def State.prepLead (s : State) (t : Tree) : Nat := s.fld (pgTX t) TX.prepLead
def State.gateAdv (s : State) (t : Tree) : Nat := s.fld (pgTX t) TX.cfgGateAdv

/-- Does a selected grant start where the burst or the halyard frame on the pins ends, so that the gate stays asserted: at the
burst's E, or with a window that meets the frame's (R100, R177, R180)? -/
def State.grantFollows (s : State) (t : Tree) : Bool :=
  match (s.txs t).burst, s.nextBurst t with
  | some b, some i => s.pendT0 t i == b.e
  | none, some i =>
    (s.hals t).jobs.any (fun j => j.onPins && decide (s.pendT0 t i ≤ nearestSym j.finish + s.gateAdv t))
  | _, none => false

/-- The halyard frame leaves the pins: tx_on 0; what was sent of it is what left. Where no burst is on the pins, a frame sent
whole leaves PREP asserted for the hold, and GATE where a grant follows; one stopped leaves both low (R177, R180, R182). -/
def State.halUnpin (t : Tree) (j : HalJob) (whole : Bool) (s : State) : State :=
  let sent := if whole then j.chirps else j.chirps.take ((1000 * s.now - j.start.getD 0) / chirpMilli)
  let follows := s.grantFollows t
  let p := pgTX t
  let s := (s.emit (.halyard t sent (s.fld p TX.laneFixOrder) (s.fld p TX.laneFixSigns))).setFld (pgHAL t) HAL.statusTxOn 0
  let s := s.modTxs t (fun x => { x with halSlot := none, lastEnd := if whole then nearestSym j.finish else s.now })
  s.iff (s.txs t).burst.isNone (if whole then State.iff (!follows) (State.driveGate t false) else State.pinsLow t)

/-- A slot ends: 0 sent, 1 failed, 2 cancelled, 3 refused. The checker's window of a committed frame that ends unsent stands to its H
(DESIGN CHOICE, log entry 127); only a grant cuts it short (R180). -/
def State.halDone (t : Tree) (slot result : Nat) (s : State) : State :=
  let s := match s.halJob t slot with
    | some j => s.iff j.onPins (State.halUnpin t j (result == 0))
    | none => s
  let s := s.modHals t (fun h => { h with jobs := h.jobs.filter (fun j => j.slot ≠ slot) })
  let s := (s.setFld (pgHAL t) (halStateFld slot) 3).setFld (pgHAL t) (halResultFld slot) result
  match result with
  | 0 => (s.count (cuHAL t + 7)).raise (pgHAL t) 7
  | 1 => (s.count (cuHAL t + 9)).raise (pgHAL t) 8
  | 2 => s
  | _ => (s.count (cuHAL t + 10)).raise (pgHAL t) 9

/-- A frame aborted: queued again where it is free-timed and may be, else failed (R180). -/
def State.halAbort (t : Tree) (j : HalJob) (s : State) : State :=
  let s := (s.count (cuHAL t + 8)).raise (pgHAL t) 10
  if j.timing ≠ 0 ∨ s.fld (pgHAL t) HAL.txCfgRetryMax ≤ j.aborts + 1 then s.halDone t j.slot 1
  else
    let s := s.iff j.onPins (State.halUnpin t j false)
    (s.modHalJob t j.slot (fun x => { x with
      start := none, onPins := false, cut := none, aborts := x.aborts + 1 })).setFld (pgHAL t) (halStateFld j.slot) 1

/-- A committed frame's window in the window checker ends at `e`, or, with `e` at or before its start, is gone (R180). -/
def State.cutWindow (t : Tree) (w : Nat × Nat) (e : Nat) (s : State) : State :=
  let cut (vs : List (Nat × Nat)) := (vs.map (fun v => if v = w then (v.1, min v.2 e) else v)).filter (fun v => v.1 < v.2)
  s.modTxs t (fun x => { x with windows := cut x.windows })

/-- A grant accepted after a frame is committed aborts it when its T0 falls before H; a frame on the pins goes on until
T0, where its window ends (R180). -/
def State.halGrantAccepted (t : Tree) (t0 : Nat) (s : State) : State :=
  (s.hals t).jobs.foldl (fun s j =>
    if j.start.isSome ∧ 1000 * t0 < j.finish then
      (if j.onPins then
        let e := min t0 (j.cut.getD t0)
        (s.cutWindow t j.window e).modHalJob t j.slot (fun x => { x with cut := some e, window := (x.window.1, min x.window.2 e) })
       else (s.cutWindow t j.window 0).halAbort t j)
    else s) s

/-- A burst starts: the frame that its grant cut short ends here (R180). -/
def State.halCutNow (t : Tree) (s : State) : State :=
  (s.hals t).jobs.foldl (fun s j => if j.onPins ∧ j.cut.isSome then s.halAbort t j else s) s

/-- The EqD that applies to downstream frame `fc` (R203). -/
def State.eqdFor (s : State) (t : Tree) (fc : Nat) : Nat :=
  if s.flag (pgACT t) ACT.eqdPendingPending && atOrBeforeFc (s.fld (pgACT t) ACT.applyFcApplyFc) fc then
    s.fld (pgACT t) ACT.eqdPendingEqd
  else s.fld (pgACT t) ACT.eqdEqd

/-- When the first frame after now whose counter equals `fcRef` reaches the balls (R176). -/
def State.frameTime (s : State) (r : Rx) (fcRef : Nat) : Nat :=
  let cur := (s.reg (pgFRM r) 0x03C).toNat
  let d := (fcRef + 2 ^ 32 - cur) % 2 ^ 32
  (s.frm.get r).tF + (if d = 0 then 2 ^ 32 else d) * 3888000

/-- A job queued. -/
def State.halQueue (t : Tree) (slot : Nat) (j : HalJob) (s : State) : State :=
  (s.modHals t (fun h => { h with jobs := h.jobs ++ [j] })).setFld (pgHAL t) (halStateFld slot) 1

/-- The reference point of a timed or slotted job, in thousandths of a sym, with the EqD that applies to its frame F (R176). -/
def State.halRef (s : State) (t : Tree) (j : HalJob) : Nat := 1000 * (j.tF + j.after + s.eqdFor t j.fc)

/-- A slot submitted: read, and queued or ended at once (R176, R181, R182, R186, R187). Where several refusals meet, an idle unit
comes first, then a timing of 0b11, then a policy or force, then rx_active (DESIGN CHOICE, log entry 109). -/
def State.halSubmit (t : Tree) (slot : Nat) (s : State) : State :=
  let p := pgHAL t
  let w0 := (s.tw p 0 slot 0).toNat
  let timing := bitsOf w0 15 14
  let kind := bitsOf w0 5 0
  let plen := bitsOf w0 11 6
  if !s.halWorks t then s.halDone t slot 2
  else if timing = 3 then (s.halDone t slot 1).raise p 11
  else if !(s.halyardAllowed t && !s.forced t) then s.halDone t slot 3
  else
    let s := if kind = 0x23 then (s.hals t).jobs.foldl (fun s j =>
      if j.onPins then s.halAbort t j else s.halDone t j.slot 2) s else s
    let j : HalJob := { slot := slot, kind := kind, plen := plen, priority := bitsOf w0 13 12, timing := timing,
                        payload := (bytesBE ((List.range 18).map (fun i => s.tw p 0 slot (3 + i)))).take (plen * 3 / 2) }
    if timing = 0 then s.halQueue t slot j
    else if !s.flag p HAL.statusRxActive then s.halDone t slot 1
    else
      let slots := max 1 (min 64 (bitsOf w0 22 16))
      let k := if timing = 2 then s.freeVal slots else 0
      let s := if timing = 2 then (s.useFree).setFld p HAL.txStatusLastSlot k else s
      let fc := (s.tw p 0 slot 1).toNat
      let tF := s.frameTime (s.halReceiver t) fc
      let j := { j with tF := tF, fc := fc, after := 7776000 + 16 * bitsOf (s.tw p 0 slot 2).toNat 23 0 + k * 38880000 }
      if s.halRef t j < toRefMilli + 1000 * (s.now + 311040) then s.halDone t slot 1
      else s.halQueue t slot { j with ref := some (s.halRef t j) }

/-- The span of a frame that starts at `p`: P − 256 − PREP lead to H, in thousandths of a sym (R179). -/
def State.halSpan (s : State) (t : Tree) (p plen : Nat) : Nat × Nat :=
  (p - 1000 * (256 + s.prepLead t), p + (14 + plen) * chirpMilli)

/-- The window of a committed frame: P − 256 − gate_adv to H (R177). -/
def State.halWindow (s : State) (t : Tree) (p plen : Nat) : Nat × Nat :=
  (p - 1000 * (256 + s.gateAdv t), p + (14 + plen) * chirpMilli)

/-- A timed or slotted job takes the reference point that its frame's EqD gives it; a committed one moves with its window. -/
def State.halMove (t : Tree) (j : HalJob) (s : State) : State :=
  let r := s.halRef t j
  if j.start.isNone then s.modHalJob t j.slot (fun x => { x with ref := some r })
  else
    let w := s.halWindow t (r - toRefMilli) j.plen
    let win := (nearestSym w.1, nearestSym w.2)
    (s.modHalJob t j.slot (fun x => { x with ref := some r, start := some (r - toRefMilli), window := win })).modTxs t
      (fun x => { x with windows := x.windows.map (fun v => if v = j.window then win else v) })

/-- The EqD has changed: jobs whose frame F has not arrived move with it (R134, R176, R203). -/
def State.halRetime (t : Tree) (s : State) : State :=
  ((s.hals t).jobs.filter (fun j => j.ref.isSome && !j.onPins && decide (s.now < j.tF))).foldl (fun s j => s.halMove t j) s

/-- Is a span clear of the pending grants and of the windows of other committed frames (R179)? -/
def State.halClear (s : State) (t : Tree) (slot : Nat) (span : Nat × Nat) : Bool :=
  (s.pendings t).all (fun i => !spansOverlap span (1000 * (s.pendT0 t i - s.prepLead t), 1000 * s.pendE t i)) &&
  (s.hals t).jobs.all (fun j => match j.start with
    | some q => j.slot == slot || !spansOverlap span (s.halWindow t q j.plen)
    | none => true)

/-- Is job `k` served before job `j`: a NOTICE first, then the lower priority value, and within one priority free-timed jobs
in submission order, `earlier` saying that `k` was submitted first (R179, R181)? -/
def halFirst (earlier : Bool) (k j : HalJob) : Bool :=
  let notice := fun (x : HalJob) => x.kind == 0x23
  let order := earlier && k.timing == 0 && j.timing == 0
  if notice k != notice j then notice k
  else if notice k then order
  else decide (k.priority < j.priority) || (k.priority == j.priority && order)

/-- Is it a queued job's turn: no other job that waits is served before it? -/
def State.halTurn (s : State) (t : Tree) (j : HalJob) : Bool :=
  let jobs := (s.hals t).jobs
  let before := jobs.takeWhile (fun k => k.slot != j.slot)
  jobs.all (fun k => k.slot == j.slot || k.start.isSome || k.onPins || !halFirst (before.contains k) k j)

/-- A queued frame committed in its turn where its span is clear; a timed or slotted one that is not clear, or whose start has
passed, fails, and any other waits (R179). -/
def State.halCommit (t : Tree) (slot : Nat) (s : State) : State :=
  match s.halJob t slot with
  | none => s
  | some j =>
    if j.start.isSome ∨ j.onPins then s
    else
      let p := match j.ref with
        | some r => r - toRefMilli
        | none => 1000 * (s.now + 256 + s.prepLead t)
      let clear := s.halClear t slot (s.halSpan t p j.plen)
      let turn := s.halTurn t j
      if clear && turn then
        let w := s.halWindow t p j.plen
        let win := (nearestSym w.1, nearestSym w.2)
        (s.modHalJob t slot (fun x => { x with
          start := some p, window := win, upOffset := s.fld (pgHAL t) HAL.cfgUpOffset })).modTxs t
          (fun x => { x with windows := win :: x.windows })
      else if j.ref.isSome && (turn || decide (p < 1000 * s.now)) then s.halDone t slot 1
      else s

/-- The halyard reference, in 0.1 dBm (R183). -/
def State.halReference (s : State) (t : Tree) : Int :=
  let target := s.sfld (pgTX t) TX.launchTarget + s.sfld (pgTX t) TX.launchStatusLehrTrim
  let top := s.sfld (pgTX t) TX.launchLaunchMax
  let ws := ((List.range 4).map (s.profile t)).filter profileValid
  match ws.map (fun w => min (target + profileOffset w) top) with
  | [] => min target top
  | v :: vs => vs.foldl min v

/-- atten as applied, in 0.1 dB (R184). -/
def State.halAtten (s : State) (t : Tree) : Nat := max 240 (min 400 (s.fld (pgHAL t) HAL.txPwrAtten))

/-- atten or a term of the halyard reference has changed, in force 1 ms from now (R184). -/
def State.noteHalLevel (t : Tree) (s : State) : State :=
  s.modHals t (fun h => { h with levels := (s.now + symPerMs, s.halAtten t, s.halReference t) :: h.levels })

/-- What the registers of a restored page hold is in force as it stands. -/
def State.halLevelRestored (t : Tree) (s : State) : State :=
  s.modHals t (fun h => { h with levels := [(0, s.halAtten t, s.halReference t)] })

/-- The halyard launch of a frame that starts now: the newest values in force (R183, R184). -/
def State.halLaunch (s : State) (t : Tree) : Int :=
  match (s.hals t).levels.find? (fun x => decide (x.1 ≤ s.now)) with
  | some x => x.2.2 - x.2.1
  | none => 30 - 300

/-- A committed frame's first chip leaves the DAC: the slot is on the pins, PREP and GATE high; refused where the policy or a force
no longer permits it as it starts (R177, R182; DESIGN CHOICE, log entry 128). -/
def State.halStart (t : Tree) (slot : Nat) (s : State) : State :=
  match s.halJob t slot with
  | none => s
  | some j =>
    if j.start.isNone ∨ j.onPins then s
    else if !(s.halyardAllowed t && !s.forced t) then s.halDone t slot 3
    else
      let s := s.modHalJob t slot (fun x => { x with onPins := true, launch := s.halLaunch t })
      let s := (s.setFld (pgHAL t) (halStateFld slot) 2).setFld (pgHAL t) HAL.statusTxOn 1
      ((s.modTxs t (fun x => { x with halSlot := some slot })).drivePrep t true).driveGate t true

/-- The last chip of a frame leaves: the slot ends as sent (R177). A frame that a grant cut short ends as aborted. -/
def State.halEnd (t : Tree) (slot : Nat) (s : State) : State :=
  match s.halJob t slot with
  | none => s
  | some j => if !j.onPins then s else if j.cut.isSome then s.halAbort t j else s.halDone t slot 0

/-- The frame on the pins stopped and refused without retry (R182). -/
def State.halRefusePins (t : Tree) (s : State) : State :=
  match (s.hals t).jobs.find? (fun j => j.onPins) with
  | some j => s.halDone t j.slot 3
  | none => s

/-- Every slot not on the pins cancelled (R186). -/
def State.halCancelAll (t : Tree) (s : State) : State :=
  ((s.hals t).jobs.filter (fun j => !j.onPins)).foldl (fun s j => s.halDone t j.slot 2) s

/-- A queued or committed slot cancelled (R186). -/
def State.halCancel (t : Tree) (slot : Nat) (s : State) : State :=
  match s.halJob t slot with
  | some j => if j.onPins then s else s.halDone t slot 2
  | none => s

/-- rx_active falls: the frame in progress discarded, rx_sync cleared, timed frames whose frame F has not arrived fail
(R171, R173, R175, R176). -/
def State.halInactive (t : Tree) (s : State) : State :=
  let s := (s.halHeaderFail t).halRelease t
  let s := (s.setFld (pgHAL t) HAL.statusRxActive 0).halSync t false
  ((s.hals t).jobs.filter (fun j => j.ref.isSome && !j.onPins && decide (s.now < j.tF))).foldl
    (fun s j => s.halDone t j.slot 1) s

/-- rx_active and rx_source judged (R171). -/
def State.halJudge (t : Tree) (s : State) : State :=
  match (if s.halWorks t then s.halSource t else none) with
  | some r =>
    (s.setFld (pgHAL t) HAL.statusRxActive 1).setFld (pgHAL t) HAL.statusRxSource (rxIx r % 2)
  | none => if s.flag (pgHAL t) HAL.statusRxActive then s.halInactive t else s

/-- What disabling the page does: the frame on the pins is refused, queued slots are cancelled, reception stops (R186). A frame
being received is discarded and counted as a header failure, as where rx_active falls (DESIGN CHOICE, log entry 110). -/
def State.halStop (t : Tree) (s : State) : State := (((s.halRefusePins t).halCancelAll t).halInactive t)

/-- An offset has been written (R165, R186): `was` says whether both were in range before. A unit that becomes idle stops
receiving, cancels what is not on the pins and raises config_invalid; one that no longer is runs again. -/
def State.halOffsetJudge (t : Tree) (was : Bool) (s : State) : State :=
  if s.halOffsetsOk t then s.halJudge t
  else
    let s := s.raise (pgHAL t) 11
    s.iff (was && s.works (pgHAL t)) (fun s => (s.halCancelAll t).halInactive t)

/-- The first slot that is empty or done. -/
def State.halFreeSlot (s : State) (t : Tree) : Option Nat :=
  (List.range 4).find? (fun k => s.fld (pgHAL t) (halStateFld k) == 0 || s.fld (pgHAL t) (halStateFld k) == 3)

/-- The slot that firmware writes a message into: a free one, or, for a NOTICE, one whose frame its submission cancels
(R181). -/
def State.halSlotFor (s : State) (t : Tree) (kind : Nat) : Option Nat :=
  match s.halFreeSlot t with
  | some k => some k
  | none => if kind = 0x23 then ((s.hals t).jobs.find? (fun j => !j.onPins)).map HalJob.slot else none

/-- Firmware writes a message into its slot and submits it: type, timing, fc_ref, offset, slots, payload. Without a slot nothing
is submitted. -/
def State.halSend (t : Tree) (kind timing fcRef offset slots : Nat) (payload : Bytes) (s : State) : State :=
  match s.halSlotFor t kind with
  | none => s
  | some k =>
    let w0 := kind + halPlen kind * 2 ^ 6 + timing * 2 ^ 14 + slots * 2 ^ 16
    let s := s.iff (s.halJob t k).isSome (State.halDone t k 2)
    (s.putEntry (pgHAL t) 0 k 0 ([w0, fcRef, offset].map (BitVec.ofNat 32) ++ wordsBE 18 payload)).halSubmit t k

/-- A WAKE_REQUEST (R211). -/
def State.wakeRequest (t : Tree) (cause seq : Nat) (s : State) : State :=
  s.halSend t 0x24 0 0 0 0 (natBE 2 (s.fld (pgHAL t) HAL.termTerminalId) ++ natBE 1 cause ++ natBE 1 0 ++ natBE 2 seq)

end Sys2Proof.Machine
end

