-- ==== Sys2Proof/Machine/SnapOps.lean ====
section
/-! DEFINITION. Counter units and snapshots (R62 to R72). -/

namespace Sys2Proof.Machine

/-! The unit directory (Tables 2.9 and 2.11). -/

/-- A counter unit: its first counter, how many it has, the page of its block. -/
structure CUnit where
  first : Nat
  count : Nat
  page : Nat
  deriving DecidableEq, Repr

/-- One row of Table 2.11: its pages (one per unit, or one for all), how many units, counters per unit. -/
def unitRows : List (List Nat × Nat × Nat) :=
  [([0x06, 0x07, 0x08, 0x09], 4, 6), ([0x0A, 0x0B], 2, 7), ([0x0C, 0x0D, 0x0E, 0x0F], 4, 16), ([0x2E], 1, 18),
   ([0x10, 0x11], 2, 12), ([0x12, 0x13], 2, 20), ([0x14], 1, 18), ([0x15, 0x16], 2, 17), ([0x17], 1, 10)] ++
  [([0x17], 128, 96), ([0x18], 1, 10), ([0x1F], 1, 16), ([0x20], 1, 10), ([0x1A], 1, 12), ([0x1B], 1, 8),
   ([0x1C], 1, 15), ([0x1D], 1, 7), ([0x1D], 128, 64), ([0x1E], 1, 5), ([0x19], 1, 11), ([0x19], 32, 64)] ++
  [([0x2A], 1, 7), ([0x2B], 1, 5), ([0x05], 1, 14), ([0x05], 2, 16), ([0x21], 4, 18), ([0x22], 4, 18), ([0x23], 4, 18),
   ([0x24], 4, 18), ([0x25], 1, 32), ([0x26], 1, 16), ([0x27], 1, 11), ([0x27], 32, 16), ([0x28], 1, 64),
   ([0x28], 1, 9)] ++
  [([0x29], 1, 9), ([0x2C], 1, 15), ([0x01], 1, 106), ([0x02], 1, 8), ([0x03], 1, 9), ([0x04], 1, 7), ([0x2F], 1, 15),
   ([0x30], 1, 5), ([0x00], 1, 16), ([0x2D], 1, 16)]

/-- The units of rows, the first counter being `c`. -/
def unitsFrom : Nat → List (List Nat × Nat × Nat) → List CUnit
  | _, [] => []
  | c, (ps, n, k) :: rows =>
    (List.range n).map (fun i => ⟨c + i * k, k, ps.getD i (ps.getD 0 0)⟩) ++ unitsFrom (c + n * k) rows

/-- The 384 counter units in order. -/
def counterUnits : List CUnit := unitsFrom 0 unitRows

/-- The directory word of a unit (CNT table 2). -/
def CUnit.word (u : CUnit) : Word := BitVec.ofNat 32 (u.first + u.count * 2 ^ 16 + u.page * 2 ^ 24)

/-! Capture. -/

/-- CNT_SNAP_STATUS.state: 0 idle, 1 armed, 2 capturing. -/
def State.snapState (s : State) : Nat := s.fld pgCNT CNT.snapStatusState

/-- The bank a snapshot writes: the one that is not current. -/
def State.snapBank (s : State) : Nat := 1 - s.fld pgCNT CNT.snapStatusCurrentBank

/-- A bank's values. -/
def State.bank (s : State) (b : Nat) : Sparse Nat := if b = 0 then s.cnt.bank0 else s.cnt.bank1

/-- A bank set. -/
def State.setBank (b : Nat) (m : Sparse Nat) (s : State) : State :=
  s.modCnt (fun c => if b = 0 then { c with bank0 := m } else { c with bank1 := m })

/-! Units that do not capture live counts (R65). -/

/-- The counters, as runs of first and number, that the containment of unit `u` of page `p` holds: every unit of the page
for 0; else those of the queue group, tenant-class group, port, context, function, core or counter unit that `u` names
(log entry 15). -/
def unitRuns (p u : Nat) : List (Nat × Nat) :=
  if u = 0 then (counterUnits.filter (fun c => c.page == p)).map (fun c => (c.first, c.count))
  else match (pageInfo p).map PageInfo.blk with
    | some .usch => if u ≤ 128 then [(cuQueue (32 * (u - 1)), 96)] else []
    | some .dsch => if u ≤ 128 then [(cuPair (32 * (u - 1)), 64)] else []
    | some .lsec => if u ≤ 1024 then [(cuCtx (u - 1), 2)] else []
    | some .uniq => if u ≤ 4 then [(cuUNIQ (4 * (p - pgUNIQ 0) + (u - 1)), 18)] else []
    | some .dma => if u ≤ 256 then [(cuFn (u - 1), 2)] else []
    | some .core => if u ≤ 16 then [(cuCORE + 4 * (u - 1), 4)] else []
    | some .cnt => (match counterUnits[u - 1]? with
      | some c => [(c.first, c.count)]
      | none => [])
    | _ => []

/-- Does a run hold counter `i`? -/
def inRun (i : Nat) (x : Nat × Nat) : Bool := decide (x.1 ≤ i) && decide (i < x.1 + x.2)

/-- The counters of a region's pages. -/
def regionRuns (r : Nat) : List (Nat × Nat) :=
  (counterUnits.filter (fun c => match pageInfo c.page with
    | some i => i.region == r
    | none => false)).map (fun c => (c.first, c.count))

/-- Does some containment, of a unit or of a region, hold counter `i`? -/
def State.counterHeld (s : State) (i : Nat) : Bool :=
  s.rel.contained.any (fun x => x.2 && (unitRuns (x.1 / 65536) (x.1 % 65536)).any (inRun i)) ||
    s.rel.cause.any (fun x => x.2 != 0 && (regionRuns x.1).any (inRun i))

/-- The counters of runs keep the counts they have now as their last, where they do not keep some already. -/
def State.keepLast (runs : List (Nat × Nat)) (s : State) : State :=
  s.modCnt (fun c => { c with last := runs.foldl (fun m x => (List.range x.2).foldl (fun m k =>
    if (Sparse.get none m (x.1 + k)).isSome then m
    else Sparse.put none (x.1 + k) (some (Sparse.get 0 c.live (x.1 + k))) m) m) c.last })

/-- Last counts are kept only while a containment holds their counter. -/
def State.freeLast (s : State) : State :=
  s.modCnt (fun c => { c with last := c.last.filter (fun x => s.counterHeld x.1) })

/-- Unit `u` of page `p` contained (R23, R561): counted and raised once. -/
def State.noteContain (p u : Nat) (s : State) : State :=
  if s.unitContained p u then s
  else
    let s := (s.keepLast (unitRuns p u)).modRel (fun r => { r with
      contained := Sparse.put false (p * 65536 + u) true r.contained })
    (s.count (cuSYS + 5)).raise p 20

/-- Does a unit report, for one of its counters, a count flushed to backing; a last count (R65)? -/
def State.unitFlushed (s : State) (u : CUnit) : Bool := s.cnt.backing.any (fun x => x.2.isSome && inRun x.1 (u.first, u.count))
def State.unitHeld (s : State) (u : CUnit) : Bool := s.cnt.last.any (fun x => x.2.isSome && inRun x.1 (u.first, u.count))

/-- What counter `i` is captured as (R65): the count flushed to backing, the last count of a contained unit, or the live
count. -/
def State.captureValue (s : State) (i : Nat) : Nat :=
  match Sparse.get none s.cnt.backing i, Sparse.get none s.cnt.last i with
  | some v, _ => v
  | none, some v => v
  | none, none => (s.counter i + s.polAccrued i) % counterMod i

/-- What every counter is captured as. -/
def State.captured (s : State) : Sparse Nat :=
  (Sparse.keys s.cnt.live ++ Sparse.keys s.cnt.backing ++ Sparse.keys s.cnt.last ++ [cuPOL + 6, cuPOL + 8]).foldl (fun m i =>
    Sparse.put 0 i (s.captureValue i) m) []

/-- The unit flags of a capture: [0] flushed, [1] contained (CNT tables 3 and 4). -/
def State.unitFlags (s : State) (u : CUnit) : Nat := b2n (s.unitFlushed u) + 2 * b2n (s.unitHeld u)

/-- The flags of every unit as its counts are taken. -/
def State.capturedFlags (s : State) : Sparse Nat :=
  (List.range 384).foldl (fun m k => match counterUnits[k]? with
    | some u => Sparse.put 0 k (s.unitFlags u) m
    | none => m) []

/-- Every unit's counts and flags go into the bank that is not current (R63, R65). -/
def State.capture (counts flags : Sparse Nat) (s : State) : State :=
  let b := s.snapBank
  let old := s.bank b
  (List.range 384).foldl (fun s k => s.putTw pgCNT (3 + b) k 0 (BitVec.ofNat 32 (Sparse.get 0 flags k)))
    ((s.setBank b counts).modSnap (fun x => { x with prev := old, due := none }))

/-- Units of network time: 243 · 2^32 to the nanosecond, so that a sym is a whole number of them (R391, log entry 1). -/
def unitsPerNs : Nat := 243 * 2 ^ 32

/-- A network time in units as frac, ns, sec words of a 128-bit register block at `off` (Table 12.1). -/
def State.putTime (p off v : Nat) (s : State) : State :=
  let ns := v / unitsPerNs
  let sec := ns / 10 ^ 9
  let s := (s.putReg p off (BitVec.ofNat 32 (v / 243))).putReg p (off + 4) (BitVec.ofNat 32 (ns % 10 ^ 9))
  (s.putReg p (off + 8) (BitVec.ofNat 32 sec)).putReg p (off + 12) (BitVec.ofNat 32 (sec / 2 ^ 32))

/-- A snapshot begins to capture: late, unsynchronised, the instant it records, and what every counter is captured as
and every unit's flags (R63, R64, R65, R68). -/
def State.snapCapture (late unsync : Bool) (instant : Nat) (counts flags : Sparse Nat) (s : State) : State :=
  let s := ((s.setFld pgCNT CNT.snapStatusState 2).setFld pgCNT CNT.snapStatusLastLate (b2n late)).setFld pgCNT
    CNT.snapStatusLastUnsync (b2n unsync)
  (s.putTime pgCNT 0x050 instant).capture counts flags

/-- The armed snapshot's time has come (R63, R64): every unit's counts and flags are taken now. One whose time has come already
stays as it is. -/
def State.snapReach (late : Bool) (instant : Nat) (s : State) : State :=
  if s.snapState = 1 ∧ s.snap.due.isNone = true then
    s.modSnap (fun x => { x with due := some ⟨late, instant, s.captured, s.capturedFlags⟩ })
  else s

/-- The armed snapshot captures with what was taken when its time came. -/
def State.snapFire (s : State) : State :=
  match s.snap.due with
  | some d => s.snapCapture d.late false d.instant d.counts d.flags
  | none => s

/-- CNT_SNAP_TARGET in ns; nanoseconds beyond a second carry into the seconds (R69). -/
def State.snapTarget (s : State) : Nat :=
  ((s.reg pgCNT 0x048).toNat + (s.reg pgCNT 0x04C).toNat * 2 ^ 32) * 10 ^ 9 + (s.reg pgCNT 0x044).toNat

/-- An arm refused: result, counter (R66). -/
def State.snapRefuse (result idx : Nat) (s : State) : State :=
  (s.setFld pgCNT CNT.snapStatusLastArmResult result).count (cuCNT + idx)

/-- Is the bank a snapshot would write locked? -/
def State.snapLocked (s : State) : Bool := bitOf (s.fld pgCNT CNT.bankLockLock) s.snapBank

/-- A snapshot marked complete (R67). -/
def State.snapComplete (s : State) : State :=
  let late := s.flag pgCNT CNT.snapStatusLastLate
  let b := s.snapBank
  let missing := (List.range 384).any (fun k => s.tb pgCNT (3 + b) k 0 2)
  let s := (s.setFld pgCNT CNT.snapStatusState 0).setFld pgCNT CNT.snapStatusCurrentBank b
  let s := (s.setFld pgCNT CNT.snapStatusSnapCount (s.fld pgCNT CNT.snapStatusSnapCount + 1)).setFld pgCNT
    CNT.snapStatusLastIncomplete (b2n missing)
  let s := ((s.modSnap (fun x => { x with prev := [] })).count (cuCNT + 4)).raise pgCNT 0
  let s := s.iff missing (fun s => (s.count (cuCNT + 6)).raise pgCNT 1)
  s.iff late (fun s => (s.count (cuCNT + 5)).raise pgCNT 2)

/-- A unit that has not confirmed: its flag, and its bank entries as they were (R65). -/
def State.snapMissing (k : Nat) (s : State) : State :=
  match counterUnits[k]? with
  | none => s
  | some u =>
    let b := s.snapBank
    let m := (List.range u.count).foldl (fun m i =>
      Sparse.put 0 (u.first + i) (Sparse.get 0 s.snap.prev (u.first + i)) m) (s.bank b)
    (s.setBank b m).setTf pgCNT (3 + b) k 0 2 2 1

end Sys2Proof.Machine
end

