-- ==== Sys2Proof/Machine/PmOps.lean ====
section
/-! DEFINITION. The performance bins (R155 to R161). -/

namespace Sys2Proof.Machine

/-- The counter's nanoseconds, and its seconds. -/
def State.timeNs (s : State) : Nat := s.time.val / unitsPerNs
def State.timeSec (s : State) : Nat := s.timeNs / 10 ^ 9

/-- Is network time valid? -/
def State.timeValid (s : State) : Bool := s.flag pgTIME TIME.statusValid

/-! Bins. -/

/-- The bin table of a kind, and its slots. -/
def pmTab (day : Bool) : Nat := b2n day
def pmSlots (day : Bool) : Nat := if day then 2 else 33

/-- The entry of framer `r`'s bin in a slot. -/
def pmEntry (r : Rx) (day : Bool) (slot : Nat) : Nat := rxIx r * pmSlots day + slot

/-- The current slot, and the current bin's sequence. -/
def State.pmSlot (s : State) (day : Bool) : Nat :=
  if day then s.fld pgPM PM.statusSlotDay else s.fld pgPM PM.statusSlot15
def State.pmSeq (s : State) (day : Bool) : Nat :=
  if day then s.fld pgPM PM.dayStatusSeqDay else s.fld pgPM PM.statusSeq15

/-- The four receivers. -/
def allRx : List Rx := [.a0, .a1, .b0, .b1]

/-- A flag of a bin set. -/
def State.pmMark (r : Rx) (day : Bool) (slot b : Nat) (s : State) : State :=
  s.setTf pgPM (pmTab day) (pmEntry r day slot) 0 b b 1

/-- A flag set in every current bin. -/
def State.pmMarkAll (b : Nat) (s : State) : State :=
  allRx.foldl (fun s r => (s.pmMark r false (s.pmSlot false) b).pmMark r true (s.pmSlot true) b) s

/-- A 64-bit quantity of a table, low word first. -/
def State.pmGet64 (s : State) (t e w : Nat) : Nat := (s.tw pgPM t e w).toNat + (s.tw pgPM t e (w + 1)).toNat * 2 ^ 32

/-- `n` added to a 64-bit quantity of a bin. -/
def State.pmAdd64 (t e w n : Nat) (s : State) : State :=
  let v := s.pmGet64 t e w + n
  (s.putTw pgPM t e w (BitVec.ofNat 32 v)).putTw pgPM t e (w + 1) (BitVec.ofNat 32 (v / 2 ^ 32))

/-- `n` added to a saturating 32-bit quantity of a bin. -/
def State.pmAdd32 (t e w : Nat) (n : Int) (s : State) : State :=
  s.putTw pgPM t e w (BitVec.ofNat 32 (clampInt 0 0xFFFFFFFF ((s.tw pgPM t e w).toNat + n)).toNat)

/-- Parameter `k` of a bin: 0 to 4 of 64 bits, 5 to 11 of 32 (Table 4.20). -/
def State.pmParam (s : State) (t e k : Nat) : Nat :=
  if k < 5 then s.pmGet64 t e (3 + 2 * k) else (s.tw pgPM t e (8 + k)).toNat

/-- May the bin of a slot still be adjusted: current, or closed and not final (R156)? -/
def State.pmOpen (s : State) (r : Rx) (day : Bool) (slot : Nat) : Bool :=
  slot == s.pmSlot day || s.tb pgPM (pmTab day) (pmEntry r day slot) 0 3

/-- Threshold-crossing alerts of framer `r`'s current bin (R158). -/
def State.pmAlerts (r : Rx) (day : Bool) (s : State) : State :=
  let t := pmTab day
  (List.range 12).foldl (fun s k =>
    let e := pmEntry r day (s.pmSlot day)
    let thr := s.pmGet64 (2 + t) k 0
    if thr ≠ 0 ∧ thr ≤ s.pmParam t e k ∧ s.tb pgPM t e 20 k = false then
      ((s.setTf pgPM t e 20 k k 1).count (cuPM + 4 * rxIx r + 2 + t)).raise pgPM (4 + 4 * t + rxIx r)
    else s) s

/-- Words of a bin that count seconds: ES, SES, UAS (Table 4.20). -/
def pmES : Nat := 13
def pmSES : Nat := 14
def pmUAS : Nat := 15

/-- A second moved between the counts of a bin that is not final (R156). -/
def State.pmMove (r : Rx) (day : Bool) (slot : Nat) (es ses uas : Int) (s : State) : State :=
  if s.pmOpen r day slot then
    let t := pmTab day
    let e := pmEntry r day slot
    ((s.pmAdd32 t e pmES es).pmAdd32 t e pmSES ses).pmAdd32 t e pmUAS uas
  else s

/-- A second of framer `r` judged: counted as ES and SES, or as unavailable, with the seconds that the judgement
reclassifies (R156). -/
def State.pmJudge (r : Rx) (es ses : Bool) (slot15 slotDay : Nat) (s : State) : State :=
  let run := (es, ses, slot15, slotDay) :: s.pm.recent.get r
  let ie : Int := b2n es
  let is : Int := b2n ses
  let both := fun (f : Bool → Nat → State → State) (x : Bool × Bool × Nat × Nat) (s : State) =>
    f true x.2.2.2 (f false x.2.2.1 s)
  let setRun := fun (l : List (Bool × Bool × Nat × Nat)) (s : State) =>
    s.modPm (fun p => { p with recent := p.recent.mod r (fun _ => l) })
  if s.pm.unavailable.get r then
    let s := both (fun d k => State.pmMove r d k 0 0 1) (es, ses, slot15, slotDay) s
    if ses then setRun [] s
    else if run.length < 10 then setRun run s
    else
      let s := run.foldl (fun s x => both (fun d k => State.pmMove r d k (b2n x.1) 0 (-1)) x s) s
      setRun [] (s.modPm (fun p => { p with unavailable := p.unavailable.mod r (fun _ => false) }))
  else
    let s := both (fun d k => State.pmMove r d k ie is 0) (es, ses, slot15, slotDay) s
    if !ses then setRun [] s
    else if run.length < 10 then setRun run s
    else
      let s := run.foldl (fun s x => both (fun d k => State.pmMove r d k (-(b2n x.1 : Int)) (-1) 1) x s) s
      setRun [] (s.modPm (fun p => { p with unavailable := p.unavailable.mod r (fun _ => true) }))

/-- What one bin takes of a superframe: its parameters and flags (R155, R157, Table 4.20). -/
def State.pmTake (r : Rx) (day : Bool) (slot hcs : Nat) (s : State) : State :=
  let f := s.frm.get r
  let t := pmTab day
  let e := pmEntry r day slot
  let s := ((s.pmAdd64 t e 3 f.secCw).pmAdd64 t e 5 f.secCorr).pmAdd64 t e 7 f.secUnc
  let s := (s.pmAdd64 t e 9 f.secHdr).pmAdd64 t e 11 hcs
  let s := (s.pmAdd32 t e 16 (b2n f.secLos)).pmAdd32 t e 17 (b2n f.secLof)
  let s := (s.pmAdd32 t e 18 (b2n f.secSd)).pmAdd32 t e 19 (b2n f.secSf)
  ((s.pmMark r day slot 0).iff (!s.timeValid) (State.pmMark r day slot 1)).iff f.secOff (State.pmMark r day slot 2)

/-- Is a second an SES: an uncorrectable ratio of 10^−3 or more, or LOS or LOF at any time (R156)? A second without a
codeword and without a defect has no ratio: the answer is then `free` (log entry 30). -/
def secSes (f : FrmSt) (free : Bool) : Bool :=
  f.secLos || f.secLof || (if f.secCw = 0 then free else decide (f.secCw ≤ 1000 * f.secUnc))

/-- The counts of a superframe start again. -/
def State.pmRestart (r : Rx) (s : State) : State :=
  let d := fun (f : Fld) => s.flag (pgFRM r) f
  let on := s.enabled (pgFRM r)
  (s.modFrm (fun p => p.mod r (fun f => { f with
    secCw := 0, secCorr := 0, secUnc := 0, secHdr := 0, secHcs := 0, secLos := d FRM.defectLos,
    secLof := d FRM.defectLof, secSd := d FRM.defectSd, secSf := d FRM.defectSf, secOff := !on }))).modPm (fun p =>
      { p with began := p.began.mod r (fun _ => (s.pmSlot false, s.pmSlot true)) })

/-- The end of a superframe of framer `r` (R155 to R159). -/
def State.pmSecond (r : Rx) (s : State) : State :=
  if s.works pgPM then
    let f := s.frm.get r
    let b := s.pm.began.get r
    let free := s.freeVal 2 == 1
    let ses := secSes f free
    let es := decide (0 < f.secUnc) || f.secLos || f.secLof
    let s := s.iff (f.secCw == 0 && !f.secLos && !f.secLof) State.useFree
    let s := (s.pmTake r false b.1 f.secHcs).pmTake r true b.2 f.secHcs
    let s := s.pmJudge r es ses b.1 b.2
    ((s.pmAlerts r false).pmAlerts r true).pmRestart r
  else s.pmRestart r

/-! Edges. -/

/-- Seconds between edges. -/
def pmPeriod (day : Bool) : Nat := if day then 86400 else 900

/-- Edges taken of a kind. -/
def State.pmTaken (s : State) (day : Bool) : Nat := if day then s.pm.edgeDay else s.pm.edge15

/-- Edges that network time has passed and that are not taken. -/
def State.pmDue (s : State) (day : Bool) : Nat := s.timeSec / pmPeriod day - s.pmTaken day

/-- One framer's bin closed: open for adjustment, with its skipped edges, 255 where they are more (log entry 111), and partial where
the page is disabled; counted (R155 to R157, R159). -/
def State.pmCloseBin (r : Rx) (day : Bool) (skipped : Nat) (s : State) : State :=
  let t := pmTab day
  let e := pmEntry r day (s.pmSlot day)
  let s := ((s.setTf pgPM t e 0 3 3 1).setTf pgPM t e 0 15 8 (min 255 skipped)).iff (!s.works pgPM)
    (State.pmMark r day (s.pmSlot day) 2)
  let s := (s.count (cuPM + 4 * rxIx r + t)).iff (s.tb pgPM t e 0 1) (State.count (cuPM + 16))
  s.iff (skipped != 0) (State.count (cuPM + 17))

/-- One framer's next bin opened at `sec` in slot `k` (R155). -/
def State.pmOpenBin (r : Rx) (day : Bool) (k seq sec : Nat) (s : State) : State :=
  let part := b2n (!s.works pgPM)
  s.putEntry pgPM (pmTab day) (pmEntry r day k) 0 ([1 + part * 4 + seq * 2 ^ 16, sec, sec / 2 ^ 32].map (BitVec.ofNat 32) ++
    List.replicate 18 0#32)

/-- An edge: every framer's current bin closes and the next slot becomes current (R155, R157). -/
def State.pmEdge (day : Bool) (skipped : Nat) (s : State) : State :=
  let old := s.pmSlot day
  let k := (old + 1) % pmSlots day
  let seq := (s.pmSeq day + 1) % 65536
  let sec := s.timeSec / pmPeriod day * pmPeriod day
  let s := allRx.foldl (fun s r => s.pmCloseBin r day skipped) s
  let bad := skipped != 0 || allRx.any (fun r => s.tb pgPM (pmTab day) (pmEntry r day old) 0 1)
  let s := allRx.foldl (fun s r => s.pmOpenBin r day k seq sec) s
  let s := if day then (s.setFld pgPM PM.statusSlotDay k).setFld pgPM PM.dayStatusSeqDay seq
    else (s.setFld pgPM PM.statusSlot15 k).setFld pgPM PM.statusSeq15 seq
  let s := s.modPm (fun p => if day then { p with edgeDay := s.timeSec / 86400 } else { p with edge15 := s.timeSec / 900 })
  (s.raise pgPM (b2n day)).iff bad (State.raise pgPM 2)

/-- Edges that were passed while time was invalid, or by a forward step: one close with skipped set (R157, R400). -/
def State.pmPassed (day : Bool) (s : State) : State :=
  if s.pmDue day = 0 then s else s.pmEdge day (s.pmDue day)

/-- An edge reached by the running counter (R155); more than one due at once counts as skipped. -/
def State.pmBinEdge (day : Bool) (s : State) : State :=
  if s.timeValid = false ∨ s.pmDue day = 0 then s
  else s.pmEdge day (if s.pmDue day = 1 then 0 else s.pmDue day)

/-- A closed bin becomes final (R156). -/
def State.pmFinal (r : Rx) (day : Bool) (slot : Nat) (s : State) : State :=
  if slot < pmSlots day ∧ slot ≠ s.pmSlot day then s.setTf pgPM (pmTab day) (pmEntry r day slot) 0 3 3 0 else s

end Sys2Proof.Machine
end

