-- ==== Sys2Proof/Machine/TimeOps.lean ====
section
/-! DEFINITION. The time fronts and the time engine (R390 to R411). -/

namespace Sys2Proof.Machine

/-- Units of network time per sym (R391): 125/3,888 ns. -/
def symUnits : Nat := 125 * 2 ^ 28

/-- The counter wraps with its seconds (Table 12.1). -/
def timeMod : Nat := 2 ^ 64 * 10 ^ 9 * unitsPerNs

/-- TIME_NOW shows the counter (R392). -/
def State.showTime (s : State) : State :=
  s.putTime pgTIME 0x030 s.time.val

/-- The counter set. -/
def State.timeMove (v : Nat) (s : State) : State := (s.modTime (fun x => { x with val := v % timeMod })).showTime

/-! Fronts. -/

/-- Is header sync reached on a receiver? -/
def State.hdrSync (s : State) (r : Rx) : Bool := s.fld (pgFRM r) FRM.stateHdrState == 2

/-- The receiver of a tree whose wl_index equals the registered control_wl; where both do, as before a first valid header,
one that has header sync, else the first (log entry 35). -/
def State.registeredControl (s : State) (t : Tree) : Option Rx :=
  let rs := [treeRx t 0, treeRx t 1].filter (fun r =>
    s.fld (pgFRM r) FRM.stateWlIndex == s.fld (pgACT t) ACT.statusControlWl)
  match rs.find? (fun r => s.hdrSync r) with
  | some r => some r
  | none => rs.head?

/-- Is the tree registered? -/
def State.registered (s : State) (t : Tree) : Bool := s.flag (pgACT t) ACT.statusRegistered

/-- The control receiver of a tree (R191): by registration, else the first that shows hdr_state SYNC and control 1. -/
def State.controlRx (s : State) (t : Tree) : Option Rx :=
  if s.registered t then s.registeredControl t else s.halSource t

/-- Is a mode one that carries: Operational, Parked or Lifeline? -/
def carryMode (m : Nat) : Bool := decide (4 ≤ m) && decide (m ≤ 6)

/-- A front. -/
def State.front (s : State) (t : Tree) : FrontSt := s.time.fronts.get t

/-- A front changed; TIME_STATUS.bound_a and bound_b follow. -/
def State.modFront (t : Tree) (f : FrontSt → FrontSt) (s : State) : State :=
  let s := s.modTime (fun x => { x with fronts := x.fronts.mod t f })
  s.setFld pgTIME (match t with | .a => TIME.statusBoundA | .b => TIME.statusBoundB) (b2n (s.front t).held.isSome)

/-- Does a front contribute (R396)? -/
def State.frontContributes (s : State) (t : Tree) : Bool :=
  (s.front t).held.isSome && (s.front t).value.isSome && carryMode (s.mode t) &&
    (match s.controlRx t with
     | some r => s.hdrSync r
     | none => false)

/-- A front's value now, in units. -/
def State.frontNow (s : State) (t : Tree) : Nat :=
  match (s.front t).value with
  | some (v, at0) => (v + (s.now - at0) * symUnits) % timeMod
  | none => 0

/-- A quotient rounded to the nearest. -/
def roundDiv (n : Int) (d : Nat) : Int := (2 * n + d) / (2 * d)

/-- The downstream delay of a binding, in 2^−16 ns (R395). -/
def downDelay (b : Binding) (eqd : Nat) : Int :=
  roundDiv ((b.w : Int) * ((b.teq : Int) - eqd) * 125 * 2 ^ 16) (3888 * 2 ^ 32)

/-- The time at t_F of frame `fc`, in units (R395); `asym` is TIME_ASYM_x. -/
def boundTime (b : Binding) (eqd fc : Nat) (asym : Int) : Nat :=
  let d := signed 48 ((fc + 2 ^ 48 - b.fb % 2 ^ 48) % 2 ^ 48)
  let t : Int := (b.tb : Int) * 243 + d * 125000 * unitsPerNs + (downDelay b eqd + b.asym + asym) * (2 ^ 16 * 243)
  (t % timeMod).toNat

/-- TIME_ASYM_x of a tree. -/
def State.timeAsym (s : State) : Tree → Int
  | .a => s.sfld pgTIME TIME.asymAAsymA
  | .b => s.sfld pgTIME TIME.asymBAsymB

/-! Launch entries (R409, R410). -/

/-- TIME_LAUNCH_CFG.lead in ns; 0 acts as 1 µs. -/
def State.launchLead (s : State) : Nat := 1000 * max 1 (min 1000 (s.fld pgTIME TIME.launchCfgLead))

/-- Is a launch entry armed, and its time in ns? -/
def State.launchArmed (s : State) (e : Nat) : Bool := s.tb pgTIME 2 e 0 0
def State.launchTime (s : State) (e : Nat) : Nat :=
  ((s.tw pgTIME 2 e 2).toNat + (s.tw pgTIME 2 e 3).toNat * 2 ^ 32) * 10 ^ 9 + (s.tw pgTIME 2 e 1).toNat

/-- An armed entry is within its lead. -/
def State.launchDue (s : State) (e : Nat) : Bool := s.launchArmed e && decide (s.launchTime e ≤ s.timeNs + s.launchLead)

/-- Which launch copies are eligible, judged against the counter; while time is invalid none becomes so (R401). -/
def State.launchJudge (s : State) : State :=
  let es := (s.tblEntries pgTIME 2).filter (fun e =>
    s.launchDue e && (s.timeValid || s.time.eligible.contains (e / 256, e % 256)))
  s.modTime (fun x => { x with eligible := es.map (fun e => (e / 256, e % 256)) })

/-! Outputs. -/

/-- Is any receiver clock judged good? -/
def State.anyRxClock (s : State) : Bool := s.clkGood 1 || s.clkGood 2 || s.clkGood 3 || s.clkGood 4

/-- The frequency that TIME_CFG.fout_sel names, in Hz; 0b11 acts as 0b00 (Table 12.6). -/
def State.foutHz (s : State) : Nat :=
  match s.fld pgTIME TIME.cfgFoutSel with
  | 1 => 25000000
  | 2 => 125000000
  | _ => 10000000

/-- TIME_PPS_OFS in units, and a second in units. -/
def State.ppsOfs (s : State) : Int := s.sfld pgTIME TIME.ppsOfsPpsOfs * (2 ^ 16 * 243)
def secondUnits : Nat := 10 ^ 9 * unitsPerNs

/-- Whole seconds of the 1PPS output, less TIME_PPS_OFS, that a value in units has reached (R404). -/
def State.ppsSecond (s : State) (v : Nat) : Int := ((v : Int) + s.ppsOfs) / (secondUnits : Nat)

/-- The network time of the 1PPS edge of the last second reached, in units (R404). -/
def State.ppsTime (s : State) : Int := s.ppsSecond s.time.val * (secondUnits : Nat) - s.ppsOfs

/-- The clock that TIME_FOUT is derived from: while time is valid the time source's control receiver, else the clock that the
judge has chosen (R405). -/
def State.foutClock (s : State) : Nat :=
  let rx := match s.fld pgTIME TIME.statusSource with
    | 1 => s.controlRx .a
    | 2 => s.controlRx .b
    | 3 => s.time.host
    | _ => none
  match rx with
  | some r => if s.timeValid then rxIx r + 1 else s.fld pgCLK CLK.statusPartSource
  | none => s.fld pgCLK CLK.statusPartSource

/-- TIME_FOUT's source, and one of its rising edges: it stands with the 1PPS edge while time is valid (R405). -/
def State.foutAlign (s : State) : State :=
  s.modTime (fun x => { x with
    foutSource := if x.fout = 0 then 0 else s.foutClock
    foutEdge := if x.fout = 0 ∨ s.timeValid = false then none else some s.ppsTime })

/-- TIME_FOUT judged: driven, free of phase relation, or squelched (R405, R411). -/
def State.foutJudge (s : State) : State :=
  let want := s.works pgTIME && s.flag pgTIME TIME.cfgFoutEnable
  let on := want && s.anyRxClock
  let squelch := s.time.fout != 0 && want && !s.anyRxClock
  let s := (s.modTime (fun x => { x with fout := if on then s.foutHz else 0 })).setFld pgTIME TIME.statusFreqValid (b2n (on && !s.timeValid))
  s.foutAlign.iff squelch (State.raise pgTIME 9)

/-- The seconds reached by now have had their edge, with which TIME_FOUT rises. -/
def State.ppsMark (s : State) : State := (s.modTime (fun x => { x with ppsDone := s.ppsSecond s.time.val })).foutAlign

/-- The counter has reached a second that has had no edge. -/
def State.ppsDue (s : State) : Bool := decide (s.time.ppsDone < s.ppsSecond s.time.val)

/-- The last second reached has its edge: TIME_PPS rises where it is driven, counted (R400, R404). -/
def State.ppsRise (s : State) : State :=
  if s.ppsDue then
    s.ppsMark.iff (s.works pgTIME && s.flag pgTIME TIME.cfgPpsEnable) (fun s =>
      (s.modTime (fun x => { x with pps := true, ppsAt := s.now })).count (cuTIME + 12))
  else s

/-- How long TIME_PPS stays high, in sym: TIME_CFG.pps_width ms, where 0 acts as 1 and more than 500 as 500 (R404, Table 12.6). -/
def State.ppsWidth (s : State) : Nat := symPerMs * max 1 (min 500 (s.fld pgTIME TIME.cfgPpsWidth))

/-- TIME_PPS low. -/
def State.ppsLow (s : State) : State := s.modTime (fun x => { x with pps := false })

/-- TIME_PPS falls once it has been high for its width (R404). -/
def State.ppsFall (s : State) : State := s.iff (s.time.pps && decide (s.time.ppsAt + s.ppsWidth ≤ s.now)) State.ppsLow

/-! The counter moved by its source (R399, R400). -/

/-- Has the counter reached the armed snapshot's target? -/
def State.targetReached (s : State) : Bool := decide (s.snap.target * unitsPerNs ≤ s.time.val)

/-- Time is valid anew: an armed snapshot whose target has passed takes its late capture now, at this network time (R64). -/
def State.snapResume (s : State) : State := s.iff s.targetReached (State.snapReach true s.time.val)

/-- The actions scheduled at network times that a step can pass (R400): an armed launch entry comes within its lead, the armed
snapshot, the 15-minute and day edges, the 1PPS edge. -/
inductive TimedAct where
  | launch (entry : Nat)
  | snapshot
  | edge (day : Bool)
  | second

/-- A launch copy becomes eligible (R409). -/
def State.launchReach (e : Nat) (s : State) : State :=
  s.iff (s.launchDue e && !s.time.eligible.contains (e / 256, e % 256)) (fun s =>
    s.modTime (fun x => { x with eligible := x.eligible ++ [(e / 256, e % 256)] }))

/-- The actions that the counter has reached or passed, each with its network time in units. With `resume` time was invalid
before: launches are judged as time becomes valid. -/
def State.timedActs (s : State) (resume : Bool) : List (Int × TimedAct) :=
  let launches := if resume then [] else (s.tblEntries pgTIME 2).filter s.launchDue
  let lead : Int := s.launchLead
  let per := fun (day : Bool) => s.timeSec / pmPeriod day * pmPeriod day * secondUnits
  launches.map (fun e => (((s.launchTime e : Int) - lead) * (unitsPerNs : Nat), TimedAct.launch e)) ++
    [(((s.snap.target * unitsPerNs : Nat) : Int), TimedAct.snapshot), ((per false : Nat), .edge false),
     ((per true : Nat), .edge true), (s.ppsTime, .second)]

/-- One such action fires, if it is pending. A snapshot whose target passed while time was invalid waits for SNAP_LATE_FIRE
(R64). -/
def State.timedFire (resume : Bool) (s : State) : TimedAct → State
  | .launch e => s.launchReach e
  | .snapshot =>
    if resume then s.snapResume
    else s.iff (s.snapState == 1 && s.targetReached) (fun s => (s.snapReach false (s.snap.target * unitsPerNs)).snapFire)
  | .edge day => s.pmPassed day
  | .second => s.ppsRise

/-- A timed action put among others in the order of the times; of two at one time the one put in first fires last. -/
def inTimeOrder (a : Int × TimedAct) : List (Int × TimedAct) → List (Int × TimedAct)
  | [] => [a]
  | b :: l => if a.1 ≤ b.1 then a :: b :: l else b :: inTimeOrder a l

/-- What a step of the counter passes fires, once and in the order of the times (R400). -/
def State.timePassed (resume : Bool) (s : State) : State :=
  ((s.timedActs resume).foldr inTimeOrder []).foldl (fun s a => s.timedFire resume a.2) s

/-- The scheduler tick stands at the 125 µs edges of network time: edges in units, as a count since zero, that the counter has
reached. -/
def tickUnits : Nat := 125000 * unitsPerNs
def State.tickEdgeNow (s : State) : Nat := s.time.val / tickUnits

/-- After a step the tick realigns to the next edge after the new value (R400). -/
def State.tickAlign (s : State) : State := s.modUsch (fun u => { u with tickEdge := s.tickEdgeNow })

/-- Is a scheduler tick due: an edge of network time has been reached that has had none; while time is invalid, 125 µs since the
last (R259, R260)? -/
def State.tickDue (s : State) : Bool :=
  if s.timeValid then
    let d := (s.tickEdgeNow + timeMod / tickUnits - s.usch.tickEdge) % (timeMod / tickUnits)
    decide (0 < d) && decide (d < timeMod / tickUnits / 2)
  else decide (s.usch.tickAt + frameSym ≤ s.now)

/-- A due tick is taken: one for each edge, or for each 125 µs of the free-running tick. -/
def State.tickTake (s : State) : State :=
  if s.timeValid then s.modUsch (fun u => { u with tickEdge := (u.tickEdge + 1) % (timeMod / tickUnits), tickAt := s.now })
  else s.modUsch (fun u => { u with tickAt := u.tickAt + frameSym })

/-- The source gives a value: an acquisition, a step, or a smaller difference (R399). With `resume` time was invalid
before: what passed meanwhile is handled as for time becoming valid; a snapshot then waits for SNAP_LATE_FIRE (R64), and the
step it is has the 1PPS edge of the last second passed. An acquisition passes no second. The bins that were current while time was
invalid are suspect before they close (R157). -/
def State.timeApply (v : Nat) (resume : Bool) (s : State) : State :=
  let old := s.time.val
  let s := s.iff (!s.timeValid) (State.pmMarkAll 1)
  if !s.time.acquired then
    (((s.modTime (fun x => { x with acquired := true })).timeMove v).tickAlign.ppsMark).timePassed true
  else
    let d : Int := (v : Int) - old
    let s := s.timeMove v
    let s := if d.natAbs < unitsPerNs then s
      else ((s.setSFld pgTIME TIME.stepLastStep (clampInt (-0x80000000) 0x7FFFFFFF (d.tdiv unitsPerNs))).count
        (cuTIME + 3)).raise pgTIME 3
    let s := s.iff (resume || decide (unitsPerNs ≤ d.natAbs)) State.tickAlign
    if resume then s.timePassed true
    else if 0 < d then s.timePassed false
    else s.launchJudge

/-! The source (R397, R401). -/

/-- The code of a tree as a source. -/
def treeSource : Tree → Nat
  | .a => 1
  | .b => 2

/-- DUAL_ROLE.primary as a tree; A where there is none. -/
def State.homeTree (s : State) : Tree := if s.fld pgDUAL DUAL.rolePrimary = 2 then .b else .a

/-- Does the part run on a receiver clock? The time engine runs only then (R28, R540). -/
def State.partOnRx (s : State) : Bool :=
  decide (1 ≤ s.fld pgCLK CLK.statusPartSource) && decide (s.fld pgCLK CLK.statusPartSource ≤ 4)

/-- The source by R397: 0 none, 1 tree A, 2 tree B, 3 host. -/
def State.timeSourceNow (s : State) : Nat :=
  let h := s.homeTree
  if !s.works pgTIME || !s.partOnRx then 0
  else if s.frontContributes h then treeSource h
  else if s.frontContributes (otherTree h) then treeSource (otherTree h)
  else if s.time.host.isSome then 3
  else 0

/-- The host binding ended. -/
def State.hostEnd (s : State) : State :=
  (s.modTime (fun x => { x with host := none })).setFld pgTIME TIME.statusHostBound 0

/-- The ticks run free while network time is invalid (R260, R337). -/
def State.showTick (s : State) : State :=
  (s.setFld pgUSCH USCH.statusTickFree (b2n !s.timeValid)).setFld pgDSCH DSCH.statusTickFree (b2n !s.timeValid)

/-- TIME_STATUS.valid, and PM_STATUS.time_valid with it. -/
def State.setTimeValid (on : Bool) (s : State) : State :=
  let s := (s.setFld pgTIME TIME.statusValid (b2n on)).setFld pgPM PM.statusTimeValid (b2n on)
  s.showTick

/-- Time becomes invalid (R401, R157). -/
def State.timeLost (s : State) : State :=
  (((s.setTimeValid false).raise pgTIME 1).count (cuTIME + 13)).ppsLow.pmMarkAll 1

/-- Does the host binding end: a front contributes, or its receiver has left hdr_state SYNC (R398)? -/
def State.hostOver (s : State) : Bool :=
  match s.time.host with
  | some r => s.frontContributes .a || s.frontContributes .b || !s.hdrSync r
  | none => false

/-- The source judged again (R397 to R401). -/
def State.timeJudge (s : State) : State :=
  let s := s.iff s.hostOver State.hostEnd
  let old := s.fld pgTIME TIME.statusSource
  let src := s.timeSourceNow
  let was := s.timeValid
  let s := s.setFld pgTIME TIME.statusSource src
  let s := s.iff (old != src) (fun s => (s.count (cuTIME + 2)).raise pgTIME 2)
  let s :=
    if src = 0 then s.iff was State.timeLost
    else
      let s := if src = old ∨ src = 3 then s else s.timeApply (s.frontNow (if src = 1 then .a else .b)) (!was)
      s.iff (!was) (fun s => ((s.setTimeValid true).launchJudge).raise pgTIME 0)
  s.foutJudge

/-- A frame of a tree's control receiver starts: the front's value, and where that front is the source its value applies
(R395, R399). `fc` is the frame's counter. -/
def State.frontFrame (t : Tree) (fc : Nat) (s : State) : State :=
  match (s.front t).held with
  | none => s
  | some b =>
    let v := boundTime b (s.eqdFor t fc) fc (s.timeAsym t)
    let s := s.modFront t (fun f => { f with value := some (v, s.now) })
    let old := s.fld pgTIME TIME.statusSource
    let s := s.timeJudge
    if old = treeSource t ∧ s.fld pgTIME TIME.statusSource = treeSource t then s.timeApply v false else s

/-- A front stops being bound (R396). -/
def State.frontForget (t : Tree) (s : State) : State := s.modFront t (fun _ => {})

/-! Host binding (R398). -/

/-- TIME_SET in ns and frac, as units; a set_ns of a second or more carries. -/
def State.timeSetValue (s : State) : Nat :=
  (((s.reg pgTIME 0x060).toNat + (s.reg pgTIME 0x064).toNat * 2 ^ 32) * 10 ^ 9 + (s.reg pgTIME 0x05C).toNat) * unitsPerNs +
    (s.reg pgTIME 0x058).toNat * 243

/-- The receiver a host binding would use: the first of tree set_tree in hdr_state SYNC with control 1. -/
def State.hostReceiver (s : State) : Option Rx :=
  s.halSource (if s.flag pgTIME TIME.cfgSetTree then .b else .a)

/-- TIME_CMD.set (R398). -/
def State.timeSetCmd (s : State) : State :=
  match s.hostReceiver with
  | some _ => s.modTime (fun x => { x with setPending := true })
  | none => s.ignored pgTIME 0x068 1

/-- A frame start of the host binding's receiver: the counter takes TIME_SET (R398). While a front contributes it stays
the source (R397), so the binding ends as it begins. -/
def State.timeSetApply (r : Rx) (s : State) : State :=
  if s.time.setPending && s.works pgTIME && s.hostReceiver == some r then
    let s := s.modTime (fun x => { x with setPending := false })
    if s.frontContributes .a || s.frontContributes .b then s
    else
      let was := s.timeValid
      let s := (s.modTime (fun x => { x with host := some r })).setFld pgTIME TIME.statusHostBound 1
      (s.timeApply s.timeSetValue (!was)).timeJudge
  else s

/-- TIME_CMD.clear_host (R398). -/
def State.timeClearHost (s : State) : State := s.hostEnd.timeJudge

/-! Enable and disable (R403, R411). -/

/-- A start of the time engine. -/
def State.timeStart (s : State) : State := (s.modTime (fun x => { x with calibrating := true })).timeJudge

/-- The latency measurement completes. -/
def State.timeCalDone (s : State) : State :=
  if s.time.calibrating && s.works pgTIME then
    (s.modTime (fun x => { x with calibrating := false })).setFld pgTIME TIME.statusCalDone 1
  else s

/-- The page disabled. -/
def State.timeStop (s : State) : State :=
  ((s.modTime (fun x => { x with calibrating := false })).setFld pgTIME TIME.statusCalDone 0).timeJudge

end Sys2Proof.Machine
end

