-- ==== Sys2Proof/Machine/DualOps.lean ====
section
/-! DEFINITION. The dual-homing unit (R222 to R247): what a tree carries, the merge, skew, sel_tree, claims and the
primary role. -/

namespace Sys2Proof.Machine

/-! Carrying and serving (R224, R225). -/

/-- Is tenant `n` attached on the tree (ACT table 0)? -/
def State.attached (s : State) (t : Tree) (n : Nat) : Bool := s.tb (pgACT t) 0 n 0 0

/-- Does the tree carry the tenant? -/
def State.carriesTenant (s : State) (t : Tree) (n : Nat) : Bool :=
  s.attached t n && (s.mode t == 4 || s.mode t == 5 || (s.mode t == 6 && s.tb (pgACT t) 0 n 0 1))

/-- Does the tree serve the stream? -/
def State.servesStream (s : State) (t : Tree) (q : Nat) : Bool := s.carriesTenant t (q / 16) && s.treeServes t q

/-- A stream's policy (R222): up_dup, and selected mode; a dn_mode of 2 or 3 acts as first-copy. -/
def State.upDup (s : State) (q : Nat) : Bool := s.tb pgDUAL 0 q 0 0
def State.dnSelected (s : State) (q : Nat) : Bool := s.tf pgDUAL 0 q 0 2 1 == 1

/-! Merge contexts (R231 to R233). -/

/-- W of DUAL_CFG.history. -/
def State.mergeWindow (s : State) : Nat :=
  match s.fld pgDUAL DUAL.cfgHistory with
  | 0 => 256
  | 1 => 512
  | 2 => 1024
  | 4 => 4096
  | _ => 2048

/-- A context's fields (DUAL table 1). -/
def State.ctxHi (s : State) (q : Nat) : Nat := s.tf pgDUAL 1 q 0 15 0
def State.ctxValid (s : State) (q : Nat) : Bool := s.tb pgDUAL 1 q 0 16
def State.ctxStale (s : State) (q : Nat) : Nat := s.tf pgDUAL 1 q 0 20 17

/-- The sequences of a stream's window not accepted yet. -/
def State.gaps (s : State) (q : Nat) : List Nat := Sparse.get [] s.dual.gaps q

/-- A context set: hi, stale run, gaps. -/
def State.putMerge (q hi stale : Nat) (gaps : List Nat) (s : State) : State :=
  let s := ((s.setTf pgDUAL 1 q 0 15 0 hi).setTf pgDUAL 1 q 0 16 16 1).setTf pgDUAL 1 q 0 20 17 (min stale 15)
  s.modDual (fun d => { d with gaps := Sparse.put [] q gaps d.gaps })

/-- A context invalidated; its gaps are not counted (R233). When its sequences were accepted is still known, for the skew of their
duplicates (R236). -/
def State.dropMerge (q : Nat) (s : State) : State :=
  (s.setTf pgDUAL 1 q 0 20 0 0).modDual (fun d => { d with gaps := Sparse.put [] q [] d.gaps })

/-- Every context invalidated. -/
def State.flushMerge (s : State) : State :=
  ((s.tblEntries pgDUAL 1).filter s.ctxValid).foldl (fun s q => s.dropMerge q) s

/-- The contexts of a tenant attached on neither tree are invalid (R233). -/
def State.dropTenantMerge (n : Nat) (s : State) : State :=
  if s.attached .a n || s.attached .b n then s
  else ((List.range 16).map (· + 16 * n)).foldl (fun s q =>
    (s.iff (s.ctxValid q) (State.dropMerge q)).modDual (fun d => { d with accepts := Sparse.put [] q [] d.accepts })) s

/-- A fragment accepted from tree `t`: counted, and noted for the skew (R233, R236). -/
def State.mergeAccept (t : Tree) (q seq : Nat) (s : State) : State :=
  (s.count cuDUAL).modDual (fun d => { d with
    accepts := Sparse.put [] q (((seq, s.now) :: Sparse.get [] d.accepts q).take 4096) d.accepts
    acceptsA := d.acceptsA + b2n (t == .a), acceptsB := d.acceptsB + b2n (t == .b) })

/-- A duplicate: counted, its skew noted (R236). -/
def State.mergeDup (q seq : Nat) (s : State) : State :=
  let at0 := (Sparse.get [] s.dual.accepts q).find? (fun x => x.1 == seq)
  (s.count (cuDUAL + 1)).modDual (fun d => { d with
    skewSeen := true
    skew := match at0 with
      | some x => max d.skew (s.now - x.2)
      | none => d.skew })

/-- The distance of sequence `x` behind `hi`. -/
def seqBehind (hi x : Nat) : Nat := (hi + 65536 - x) % 65536

/-- The gaps of a window after hi advances by `d`: those that stay, and how many leave, the sequences passed over
included. -/
def advanceGaps (w hi d : Nat) (gaps : List Nat) : List Nat × Nat :=
  let stay := gaps.filter (fun x => decide (seqBehind hi x + d < w))
  let fresh := min (d - 1) (w - 1)
  let added := (List.range fresh).map (fun i => (hi + d - 1 - i) % 65536)
  (added ++ stay, (gaps.length - stay.length) + (d - 1 - fresh))

/-- The merge of a protected fragment of stream `q` from tree `t`, and whether it is accepted (R232). -/
def State.merge (t : Tree) (q seq : Nat) (last : Bool) (s : State) : State × Bool :=
  if !last then (s.count (cuDUAL + 9), false)
  else if s.dnSelected q && s.fld pgDUAL DUAL.roleSelTree != treeIx t then (s.count (cuDUAL + 10), false)
  else if !s.ctxValid q then ((s.putMerge q seq 0 []).mergeAccept t q seq, true)
  else
    let w := s.mergeWindow
    let hi := s.ctxHi q
    let d := (seq + 65536 - hi) % 65536
    if d = 0 then ((s.putMerge q hi 0 (s.gaps q)).mergeDup q seq, false)
    else if d < 32768 then
      let g := advanceGaps w hi d (s.gaps q)
      (((s.countBy (cuDUAL + 4) g.2).putMerge q seq 0 g.1).mergeAccept t q seq, true)
    else if 65536 - d < w then
      if (s.gaps q).contains seq then
        (((s.putMerge q hi 0 ((s.gaps q).filter (· ≠ seq))).mergeAccept t q seq).count (cuDUAL + 2), true)
      else ((s.putMerge q hi 0 (s.gaps q)).mergeDup q seq, false)
    else
      let stale := s.ctxStale q + 1
      if max 1 (s.fld pgDUAL DUAL.cfgStaleLimit) ≤ stale then
        ((((s.putMerge q seq 0 []).count (cuDUAL + 5)).mergeAccept t q seq).raiseMs pgDUAL 5, true)
      else (((s.putMerge q hi stale (s.gaps q)).count (cuDUAL + 3)).raiseMs pgDUAL 6, false)

/-! Fragments and the cells that hold them (R230, R232; log entry 91). -/

/-- The key of a reassembly context; the tenant of a context. -/
def partKey (r : Rx) (q : Nat) : Nat := rxIx r * 4096 + q
def partTenant (k : Nat) : Nat := k % 4096 / 16

/-- A fragment's header, stream, context and tenant. -/
def LineFrag.head (f : LineFrag) : FragHdr := fragHdr f.hdr
def LineFrag.stream (f : LineFrag) : Nat := 16 * f.head.tenant + f.head.service
def LineFrag.key (f : LineFrag) : Nat := partKey f.r f.stream

/-- The cells of the frame in progress of a context. -/
def State.partCells (s : State) (k : Nat) : List Nat := Sparse.get [] s.dual.partCells k

/-- A data fragment delivered by a framer: cells are drawn for it, and it waits for the unit. -/
def State.receiveLine (r : Rx) (fc : Nat) (hdr payload : Bytes) (s : State) : State :=
  let f : LineFrag := { r := r, fc := fc, hdr := hdr, payload := payload, cells := [] }
  let held := if f.head.prot then [] else s.partCells f.key
  let cells := s.nextCells held (cellsOf payload.length)
  (s.drawCells f.head.tenant held cells.length).modDual (fun d => { d with inbox := d.inbox ++ [{ f with cells := cells }] })

/-- A break marker sent behind the fragments delivered before it (R144). -/
def State.sendMark (r : Rx) (s : State) : State :=
  s.modDual (fun d => { d with inbox := d.inbox ++ [⟨r, 0, [], [], [], true⟩] })

/-- The oldest fragment of a receiver that waits for the unit; for line security. -/
def State.lineNext (s : State) (r : Rx) : Option LineFrag := s.dual.inbox.find? (fun f => f.r == r)
def State.linePassed (s : State) (r : Rx) : Option LineFrag := s.dual.passed.find? (fun f => f.r == r)

/-- A fragment's cells returned. -/
def State.freeLine (f : LineFrag) (s : State) : State := s.returnCells f.head.tenant f.cells

/-- A fragment taken out of the unit's inbox: passed on to line security, or dropped. -/
def State.passLine (f : LineFrag) (accept : Bool) (s : State) : State :=
  let s := s.modDual (fun d => { d with inbox := d.inbox.erase f })
  if accept then s.modDual (fun d => { d with passed := d.passed ++ [f] }) else s.freeLine f

/-! Unprotected frames (R230). -/

/-- The sequence of the last fragment of the frame in progress. -/
def State.progress (s : State) (r : Rx) (q : Nat) : Option Nat := Sparse.get none s.dual.progress (partKey r q)

/-- A reassembly context cleared, or standing at a sequence. -/
def State.setProgress (k : Nat) (p : Option Nat) (s : State) : State :=
  s.modDual (fun d => { d with progress := Sparse.put none k p d.progress })

/-- The plaintext of a context gone, and the note of its cells. -/
def State.clearParts (k : Nat) (s : State) : State :=
  s.modDual (fun d => { d with parts := Sparse.put [] k [] d.parts, partCells := Sparse.put [] k [] d.partCells,
                               broken := Sparse.put false k false d.broken })

/-- The plaintext of a context discarded; its cells return. -/
def State.dropPlain (k : Nat) (s : State) : State := (s.returnCells (partTenant k) (s.partCells k)).clearParts k

/-- The unprotected fragments of a context that wait for line security, in order. -/
def State.passedOf (s : State) (k : Nat) : List LineFrag := s.dual.passed.filter (fun f => f.key == k && !f.head.prot)

/-- A fragment that waits for line security dropped; its cells return. -/
def State.dropPassed (f : LineFrag) (s : State) : State :=
  (s.modDual (fun d => { d with passed := d.passed.erase f })).freeLine f

/-- The frame in progress of a context discarded: its fragments that wait for line security, which stand behind the last one of
any earlier frame, and, where no earlier frame waits there, its plaintext. -/
def State.dropParts (k : Nat) (s : State) : State :=
  let wait := s.passedOf k
  let whole := wait.any (fun f => f.head.last)
  let s := (wait.reverse.takeWhile (fun f => !f.head.last)).foldl (fun s f => s.dropPassed f) s
  s.iff (!whole) (State.dropPlain k)

/-- Everything that a context holds discarded. -/
def State.dropContext (k : Nat) (s : State) : State :=
  ((s.passedOf k).foldl (fun s f => s.dropPassed f) s).dropPlain k

/-- An unprotected fragment passes, its sequence checked. -/
def State.unprotected (f : LineFrag) (s : State) : State :=
  let k := f.key
  let seq := f.head.sequence
  let brk := match Sparse.get none s.dual.progress k with
    | some p => seq != (p + 1) % 65536
    | none => false
  let s := s.iff brk (fun s => (s.count (cuDUAL + 7)).dropParts k)
  ((s.setProgress k (if f.head.last then none else some seq)).count (cuDUAL + 6)).passLine f true

/-- A break marker of a receiver arrives: every frame in progress from it is discarded (R144, R230). -/
def State.breakMarker (r : Rx) (s : State) : State :=
  ((Sparse.keys s.dual.progress).filter (fun k => k / 4096 == rxIx r)).foldl (fun s k =>
    ((s.setProgress k none).dropParts k).count (cuDUAL + 8)) s

/-- Every fragment and partial frame dropped, a fragment at `frag`, a frame in reassembly once at `frame`. -/
def State.dropLine (frag frame : Nat) (s : State) : State :=
  let keys := (Sparse.keys s.dual.progress ++ Sparse.keys s.dual.parts ++
    (s.dual.passed.filter (fun f => !f.head.prot)).map LineFrag.key).eraseDups
  let s := keys.foldl (fun s k => ((s.setProgress k none).dropContext k).count frame) s
  let rest := (s.dual.inbox ++ s.dual.passed).filter (fun f => !f.mark)
  rest.foldl (fun s f => (s.freeLine f).count frag) (s.modDual (fun d => { d with inbox := [], passed := [] }))

/-- What the unit holds dropped: fragments at DUAL 17, frames in reassembly at DUAL 8 (R49, R230, R231). -/
def State.dropDual (s : State) : State := s.dropLine (cuDUAL + 17) (cuDUAL + 8)

/-! Skew (R236). -/

/-- The end of a superframe: DUAL_SKEW, and skew_alarm. -/
def State.skewUpdate (s : State) : State :=
  let d := s.dual
  let us := min 65535 (d.skew / symPerUs)
  let s := (s.setFld pgDUAL DUAL.skewSkewMax us).setFld pgDUAL DUAL.skewLead (b2n (decide (d.acceptsA < d.acceptsB)))
  let s := s.setFld pgDUAL DUAL.skewLeadValid (b2n d.skewSeen)
  let s := s.modDual (fun x => { x with skew := 0, skewSeen := false, acceptsA := 0, acceptsB := 0,
                                        conflictSent := ⟨false, false⟩ })
  s.iff (decide (s.fld pgDUAL DUAL.skewCfgSkewAlarm < us)) (State.raise pgDUAL 4)

/-! sel_tree (R237). -/

/-- Is the tree carrying (DUAL_ROLE.carry_a, carry_b)? -/
def State.carrying (s : State) (t : Tree) : Bool := carryMode (s.mode t)

/-- Does a framer of the tree declare SF? -/
def State.treeSf (s : State) (t : Tree) : Bool :=
  s.flag (pgFRM (treeRx t 0)) FRM.defectSf || s.flag (pgFRM (treeRx t 1)) FRM.defectSf

/-- Does the tree qualify as the home tree? -/
def State.qualifies (s : State) (t : Tree) : Bool := s.carrying t && !s.treeSf t

/-- sel_tree. -/
def State.selTree (s : State) : Tree := if s.flag pgDUAL DUAL.roleSelTree then .b else .a

/-- sel_tree set; a change is counted and raised. -/
def State.setSel (t : Tree) (s : State) : State :=
  if s.selTree = t then s
  else ((s.setFld pgDUAL DUAL.roleSelTree (treeIx t)).count (cuDUAL + 16)).raise pgDUAL 3

/-- sel_tree judged; `now` takes the home tree without the wait to restore. -/
def State.selJudge (now : Bool) (s : State) : State :=
  let h := s.homeTree
  let o := otherTree h
  if s.selTree = h then
    (if s.qualifies h then s else if s.carrying o then s.setSel o else s)
  else if s.qualifies h && (now || !s.carrying o) then s.setSel h
  else s

/-- The wait to restore has passed (R237 step 4). -/
def State.selRestore (s : State) : State :=
  if s.flag pgDUAL DUAL.selRevertive && s.qualifies s.homeTree then s.setSel s.homeTree else s

/-! Claims (R240, R241). -/

/-- The claim registers of a tree. -/
def claimOff : Tree → Nat
  | .a => 0x040
  | .b => 0x050

/-- Epoch and head_end_id of a tree's claim; does it stand? -/
def State.claimEpoch (s : State) (t : Tree) : Nat :=
  (s.reg pgDUAL (claimOff t)).toNat + (s.reg pgDUAL (claimOff t + 4)).toNat * 2 ^ 32
def State.claimHe (s : State) (t : Tree) : Nat :=
  (s.reg pgDUAL (claimOff t + 8)).toNat + s.fld pgDUAL ⟨claimOff t + 12, 15, 0⟩ * 2 ^ 32
def State.claimStands (s : State) (t : Tree) : Bool := s.flag pgDUAL ⟨claimOff t + 12, 16, 16⟩

/-- Is the claim eligible? -/
def State.claimEligible (s : State) (t : Tree) : Bool := s.claimStands t && s.carrying t

/-- A claim set; epoch 0 withdraws it. -/
def State.putClaim (t : Tree) (epoch he : Nat) (s : State) : State :=
  let on := epoch != 0
  let he := if on then he else 0
  let o := claimOff t
  let s := (s.putReg pgDUAL o (BitVec.ofNat 32 epoch)).putReg pgDUAL (o + 4) (BitVec.ofNat 32 (epoch / 2 ^ 32))
  let s := (s.putReg pgDUAL (o + 8) (BitVec.ofNat 32 he)).setFld pgDUAL ⟨o + 12, 15, 0⟩ (he / 2 ^ 32)
  s.setFld pgDUAL ⟨o + 12, 16, 16⟩ (b2n on)

/-- The primary tree by R240: 0 none, 1 A, 2 B. -/
def State.primaryNow (s : State) : Nat :=
  let a := s.claimEligible .a
  let b := s.claimEligible .b
  if a && b then
    if s.claimEpoch .a < s.claimEpoch .b then 2
    else if s.claimEpoch .b < s.claimEpoch .a then 1
    else if s.claimHe .b < s.claimHe .a then 2
    else 1
  else if a then 1
  else if b then 2
  else 0

/-- The conflict that exists, if one does (R241). -/
def State.conflictNow (s : State) : Option (Tree × Nat × Nat) :=
  if s.claimEligible .a && s.claimEligible .b && s.claimHe .a != s.claimHe .b then
    some (if s.primaryNow = 2 then .b else .a, s.claimEpoch .a, s.claimEpoch .b)
  else none

/-- The conflict judged: a new or changed one is raised, counted, and due on each tree. -/
def State.conflictJudge (s : State) : State :=
  let c := s.conflictNow
  if c = s.dual.conflict then s
  else
    let s := s.setFld pgDUAL DUAL.roleConflict (b2n c.isSome)
    let s := s.modDual (fun d => { d with conflict := c, conflictDue := ⟨c.isSome, c.isSome⟩ })
    s.iff c.isSome (fun s => (s.raise pgDUAL 1).count (cuDUAL + 15))

/-- A tree's carry bit and eligibility follow its mode; a change of carry is raised (R239). -/
def State.carryJudge (t : Tree) (s : State) : State :=
  let f := match t with
    | .a => DUAL.roleCarryA
    | .b => DUAL.roleCarryB
  let was := s.flag pgDUAL f
  let on := s.carrying t
  let s := (s.setFld pgDUAL f (b2n on)).setFld pgDUAL ⟨claimOff t + 12, 17, 17⟩ (b2n (s.claimEligible t))
  s.iff (was != on) (State.raise pgDUAL 8)

/-- Everything the unit judges at a change of mode, claim or defect: carry bits, the primary role, the conflict,
sel_tree, and the time source that follows the role (R237 to R242, R397). -/
def State.dualJudge (s : State) : State :=
  let s := (s.carryJudge .a).carryJudge .b
  let home := s.homeTree
  let old := s.fld pgDUAL DUAL.rolePrimary
  let p := s.primaryNow
  let s := s.setFld pgDUAL DUAL.rolePrimary p
  let s := s.iff (old != p) (State.raise pgDUAL 0)
  let s := s.conflictJudge
  (s.selJudge (s.homeTree != home)).timeJudge

/-- Every queued copy of the tree of a tenant the tree no longer carries is withdrawn (R227, R239). -/
def State.withdrawCopies (t : Tree) (s : State) : State :=
  ((Sparse.keys s.sto.lists).filter (fun k => k % 4 == 1 + treeIx t && k / 4 < downBase)).foldl (fun s k =>
    if s.carriesTenant t (k / 4 / 16) then s
    else ((s.list k).filter (fun c => c.prot)).foldl (fun s c =>
      (s.unlinkCopy k c).endProtected c (State.count (cuDUAL + 13))) s) s

/-- The policy of a stream set; a change of the merge mode invalidates its context (R222, R223). -/
def State.setStreamPolicy (q : Nat) (w : Word) (s : State) : State :=
  let was := s.dnSelected q
  let s := s.putTw pgDUAL 0 q 0 (w &&& 7#32)
  let s := s.iff (s.dnSelected q != was) (State.dropMerge q)
  s.iff (w.getLsbD 2) (State.raise pgDUAL 9)

end Sys2Proof.Machine
end

