-- ==== Sys2Proof/Machine/FrmOps.lean ====
section
/-! DEFINITION. One framer (R126 to R154): the three machines, the frame in progress, defects. What a framer's state does
to the rest of the part is composed by the family files. -/

namespace Sys2Proof.Machine

/-- A framer's state, and its change. -/
def State.frms (s : State) (r : Rx) : FrmSt := s.frm.get r
def State.modFrms (r : Rx) (f : FrmSt → FrmSt) (s : State) : State := s.modFrm (fun p => p.mod r f)

/-- A count field of 0 acts as 1. -/
def State.frmCount (s : State) (r : Rx) (f : Fld) : Nat := max 1 (s.fld (pgFRM r) f)

/-- accept_weight and reject_weight in force: both defaults where they are not in order (R152). -/
def State.alignWeights (s : State) (r : Rx) : Nat × Nat :=
  let a := s.fld (pgFRM r) FRM.alignAcceptWeight
  let b := s.fld (pgFRM r) FRM.alignRejectWeight
  if b ≤ a then (1296, 1728) else (a, b)

/-- Is FRM_ALIGN out of order? -/
def State.alignBadCfg (s : State) (r : Rx) : Bool :=
  decide (s.fld (pgFRM r) FRM.alignRejectWeight ≤ s.fld (pgFRM r) FRM.alignAcceptWeight)

/-- States of the three machines: 0 HUNT, 1 PRESYNC, 2 SYNC. -/
def State.alignSt (s : State) (r : Rx) : Nat := s.fld (pgFRM r) FRM.stateAlignState
def State.hdrSt (s : State) (r : Rx) : Nat := s.fld (pgFRM r) FRM.stateHdrState
def State.fragSt (s : State) (r : Rx) : Nat := s.fld (pgFRM r) FRM.stateFragState

/-- Defects declared. -/
def State.los (s : State) (r : Rx) : Bool := s.flag (pgFRM r) FRM.defectLos
def State.lof (s : State) (r : Rx) : Bool := s.flag (pgFRM r) FRM.defectLof

/-! Defects (R149 to R151). -/

/-- SD and SF cleared, their clearings raised, and no window under evaluation (R150). -/
def State.clearSdSf (r : Rx) (s : State) : State :=
  let p := pgFRM r
  let sd := s.flag p FRM.defectSd
  let sf := s.flag p FRM.defectSf
  let s := ((s.setFld p FRM.defectSd 0).setFld p FRM.defectSf 0).modFrms r (fun f => { f with
    winOpen := false, winCw := 0, winCorr := 0, winUnc := 0, sdSetRun := 0, sdClrRun := 0, sfSetRun := 0, sfClrRun := 0 })
  (s.iff sd (State.raise p 10)).iff sf (State.raise p 12)

/-- LOS declared; a declared LOF is suppressed, not cleared (R149, R150). -/
def State.losDeclare (r : Rx) (s : State) : State :=
  if s.los r || !s.works (pgFRM r) then s
  else
    let p := pgFRM r
    let s := ((s.setFld p FRM.defectLos 1).setFld p FRM.defectLof 0).modFrms r (fun f => { f with secLos := true })
    (s.raise p 5).clearSdSf r

/-- LOF declared, unless LOS is (R149, R150). -/
def State.lofDeclare (r : Rx) (s : State) : State :=
  if s.los r || s.lof r || !s.works (pgFRM r) then s
  else
    let p := pgFRM r
    let s := (s.setFld p FRM.defectLof 1).modFrms r (fun f => { f with secLof := true })
    (s.raise p 7).clearSdSf r

/-! Leaving SYNC (R139, R144). -/

/-- The fragment machine placed in HUNT with no fragment in progress. -/
def State.fragIdle (r : Rx) (s : State) : State :=
  (s.setFld (pgFRM r) FRM.stateFragState 0).modFrms r (fun f => { f with fragRun := 0, cur := none })

/-- The fragment machine goes to HUNT; from SYNC that is a delineation break: counted, and a break marker sent (R144). -/
def State.fragHunt (r : Rx) (s : State) : State :=
  let was := s.fragSt r
  (s.fragIdle r).iff (was == 2) (fun s => ((s.count (cuFRM r + 15)).raise (pgFRM r) 4).sendMark r)

/-! Frames elapsed. -/

/-- Have `n` frames, at least one, passed since `at0`? -/
def State.framesPassed (s : State) (at0 n : Nat) : Bool := decide (at0 + max 1 n * frameSym ≤ s.now)

/-- The header machine goes to HUNT, the fragment machine with it; leaving SYNC is raised and declares LOF. -/
def State.hdrHunt (r : Rx) (s : State) : State :=
  let was := s.hdrSt r
  let s := (s.setFld (pgFRM r) FRM.stateHdrState 0).modFrms r (fun f => { f with
    hdrRun := 0, hdrBad := 0, newSeq := none, frameOk := false, mapOk := false })
  let s := s.iff (was == 2) (State.raise (pgFRM r) 3)
  (s.fragHunt r).iff (was == 2) (State.lofDeclare r)

/-- The alignment machine goes to HUNT, and the later machines with it. -/
def State.alignHunt (r : Rx) (s : State) : State :=
  let was := s.alignSt r
  let s := (s.setFld (pgFRM r) FRM.stateAlignState 0).modFrms r (fun f => { f with alignRun := 0, alignBad := 0 })
  let s := s.iff (was == 2) (State.raise (pgFRM r) 1)
  (s.hdrHunt r).iff (was == 2) (State.lofDeclare r)

/-- The receiver has left locked: LOS, and every machine in HUNT for want of codewords (R149). -/
def State.frmUnlocked (r : Rx) (s : State) : State := if s.works (pgFRM r) then (s.losDeclare r).alignHunt r else s

/-! Codewords (R139). -/

/-- The syndrome weight of a codeword on hard decisions, corrected and descrambled. -/
def syndromeWeight (bits : List Bool) : Nat :=
  let cols := ldpcColumns ldpcZDown bits
  (List.range 12).foldl (fun n i => (List.range ldpcZDown).foldl (fun n k =>
    n + b2n (ldpcCheck ldpcZDown i k cols)) n) 0

/-- A codeword of weight `w` at the alignment machine (Table 4.5). -/
def State.alignStep (r : Rx) (w : Nat) (s : State) : State :=
  let p := pgFRM r
  let a := s.alignWeights r
  let f := s.frms r
  match s.alignSt r with
  | 0 =>
    if w ≤ a.1 then (s.setFld p FRM.stateAlignState 1).modFrms r (fun f => { f with alignRun := 0 }) else s
  | 1 =>
    if a.2 < w then s.alignHunt r
    else if w ≤ a.1 then
      (if s.frmCount r FRM.huntCntAlignConfirm ≤ f.alignRun + 1 then
        ((s.setFld p FRM.stateAlignState 2).modFrms r (fun f => { f with alignRun := 0, alignBad := 0 })).raise p 0
      else s.modFrms r (fun f => { f with alignRun := f.alignRun + 1 }))
    else s.modFrms r (fun f => { f with alignRun := 0 })
  | _ =>
    if a.2 < w then
      (if s.frmCount r FRM.huntCntAlignLose ≤ f.alignBad + 1 then s.alignHunt r
       else s.modFrms r (fun f => { f with alignBad := f.alignBad + 1 }))
    else s.modFrms r (fun f => { f with alignBad := 0 })

/-! Headers (R129 to R133, R140 to R142). -/

/-- The frame counter shown (FRM_FC). -/
def State.showFc (r : Rx) (fc : Nat) (s : State) : State :=
  (s.setFld (pgFRM r) FRM.fcFcLo fc).setFld (pgFRM r) FRM.fcHiFcHi (fc / 2 ^ 32)
def State.frmFc (s : State) (r : Rx) : Nat := s.fld (pgFRM r) FRM.fcFcLo + s.fld (pgFRM r) FRM.fcHiFcHi * 2 ^ 32

/-- FRM_HE_ID and FRM_TREE_ID. -/
def State.frmHeId (s : State) (r : Rx) : Nat := s.fld (pgFRM r) FRM.heIdHeLo + s.fld (pgFRM r) FRM.heIdHeHi * 2 ^ 32
def State.frmTreeId (s : State) (r : Rx) : Nat := s.fld (pgFRM r) FRM.treeIdTreeId

/-- What a valid header shows: identifiers, control, wl_index, gm_present, with identity_change and role_change (R141,
R153). -/
def State.showHeader (r : Rx) (h : FrameHdr) (s : State) : State :=
  let p := pgFRM r
  let f := s.frms r
  let idNew := match f.lastId with
    | some x => x != (h.headEnd, h.treeId)
    | none => false
  let ctlNew := match f.lastControl with
    | some x => x != h.control
    | none => false
  let s := (s.setFld p FRM.heIdHeLo h.headEnd).setFld p FRM.heIdHeHi (h.headEnd / 2 ^ 32)
  let s := (s.setFld p FRM.treeIdTreeId h.treeId).setFld p FRM.stateControl (b2n h.control)
  let s := (s.setFld p FRM.stateWlIndex h.wl).setFld p FRM.stateGmPresent (b2n h.gmPresent)
  let s := s.modFrms r (fun f => { f with
    lastId := some (h.headEnd, h.treeId), lastControl := some h.control, lastFc := h.counter
    controlFc := if h.control then h.counter else f.controlFc })
  (s.iff idNew (State.raise p 14)).iff ctlNew (State.raise p 15)

/-- A codeword's bits as received: corrected for the input pairs and descrambled (R114, R124). -/
def State.rxBits (s : State) (r : Rx) (bits : List Bool) : List Bool :=
  scramble (pairBits (s.rxs r).fix.1 (s.rxs r).fix.2 bits)

/-- Is a map of the frame on the wrong wavelength (R133)? -/
def State.mapWrong (s : State) (r : Rx) (h : FrameHdr) : Bool :=
  let t := rxTree r
  h.gmPresent && s.registered t && h.control && h.wl != s.fld (pgACT t) ACT.statusControlWl

/-- In Parked, is a frame with counter `fc` no check frame, so that the fragment machine is held in HUNT (R211)? -/
def State.fragHeld (s : State) (r : Rx) (fc : Nat) : Bool :=
  s.mode (rxTree r) == 5 && fc % max 1 (s.fld (pgACT (rxTree r)) ACT.parkCheckInterval) != 0

/-- The fragment machine at a frame with a valid header: held in HUNT between check frames, which is no break; else
first_frag places it in SYNC at that offset (R142, R211). -/
def State.frameFrag (r : Rx) (h : FrameHdr) (s : State) : State :=
  if s.fragHeld r h.counter then s.fragIdle r
  else match h.first, s.fragSt r == 2 with
    | some o, false =>
      (s.setFld (pgFRM r) FRM.stateFragState 2).modFrms r (fun f => { f with fragRun := 0, next := o, cur := none })
    | _, _ => s

/-- A valid header begins a frame, whose own counter is the header's (R141). -/
def State.beginFrame (r : Rx) (h : FrameHdr) (s : State) : State :=
  let wrong := s.mapWrong r h
  let map := h.gmPresent && !wrong && !s.fragHeld r h.counter
  let s := (s.count (cuFRM r)).showHeader r h
  let s := s.modFrms r (fun f => { f with
    frameOk := true, frameFc := h.counter, frameCw := f.cwCount - 1, tF := s.now, mapWrong := wrong, mapOk := map
    next := f.next - fragArea f.entries, entries := h.entries, entriesLeft := if map then h.entries else 0 })
  (s.iff wrong (fun s => (s.count (cuFRM r + 6)).raiseMs (pgFRM r) 16)).frameFrag r h

/-- A frame whose header failed or is only predicted (R130, R140): it delivers no entries, and the fragment machine leaves
SYNC; where Parked holds it in HUNT, that is no break (R142, R211). Its entries are taken as none, so that a machine in PRESYNC
looks for its next header past the 32 header bytes (log entry 123). -/
def State.flywheelFrame (r : Rx) (s : State) : State :=
  let held := s.fragHeld r (s.frms r).predicted
  let s := (s.count (cuFRM r + 1)).count (cuFRM r + 2)
  let s := s.modFrms r (fun f => { f with
    frameOk := false, mapOk := false, mapWrong := false, frameFc := f.predicted, frameCw := f.cwCount - 1, tF := s.now
    next := f.next - fragArea f.entries, entries := 0, entriesLeft := 0, secHdr := f.secHdr + 1 })
  if held then s.fragIdle r else if s.fragSt r = 2 then s.fragHunt r else s

/-- The next header is predicted one frame on (R140). -/
def nextCounter (fc : Nat) : Nat := (fc + 1) % 2 ^ 48

/-- The machine enters PRESYNC with a header as the base of prediction. -/
def State.hdrPresync (r : Rx) (h : FrameHdr) (s : State) : State :=
  let s := (s.setFld (pgFRM r) FRM.stateHdrState 1).modFrms r (fun f => { f with
    predicted := nextCounter h.counter, hdrRun := 0, hdrBad := 0, newSeq := none })
  (s.showFc r h.counter).beginFrame r h

/-- A valid header in SYNC whose counter is not the predicted one (R141). The first header of a new sequence has nothing to
agree with and does not count toward hdr_confirm: the new counter is adopted after hdr_confirm further headers that agree
(DESIGN CHOICE, log entry 100). -/
def State.counterBreak (r : Rx) (h : FrameHdr) (s : State) : State :=
  let f := s.frms r
  let s := s.count (cuFRM r + 3)
  let n := match f.newSeq with
    | some (c, n) => if c = h.counter then n + 1 else 0
    | none => 0
  if s.frmCount r FRM.huntCntHdrConfirm ≤ n then
    ((s.modFrms r (fun f => { f with newSeq := none, predicted := nextCounter h.counter })).showFc r h.counter).raise
      (pgFRM r) 13
  else (s.modFrms r (fun f => { f with
    newSeq := some (nextCounter h.counter, n), predicted := nextCounter f.predicted })).showFc r f.predicted

/-- The header machine at a codeword start that carries, or is predicted to carry, a header (Table 4.6). -/
def State.headerStep (r : Rx) (h : FrameHdr) (s : State) : State :=
  let f := s.frms r
  match s.hdrSt r with
  | 0 => if h.valid then s.hdrPresync r h else s
  | 1 =>
    if !h.valid then (s.flywheelFrame r).hdrHunt r
    else if h.counter ≠ f.predicted then s.hdrPresync r h
    else
      let s := (s.modFrms r (fun f => { f with predicted := nextCounter h.counter, hdrRun := f.hdrRun + 1 })).showFc r h.counter
      let s := if s.frmCount r FRM.huntCntHdrConfirm ≤ f.hdrRun + 1 then
        ((s.setFld (pgFRM r) FRM.stateHdrState 2).modFrms r (fun f => { f with syncAt := s.now })).raise (pgFRM r) 2 else s
      s.beginFrame r h
  | _ =>
    if !h.valid then
      let s := s.flywheelFrame r
      if s.frmCount r FRM.huntCntHdrLose ≤ f.hdrBad + 1 then s.hdrHunt r
      else (s.showFc r f.predicted).modFrms r (fun f => { f with
        hdrBad := f.hdrBad + 1, predicted := nextCounter f.predicted })
    else
      let s := s.modFrms r (fun f => { f with hdrBad := 0 })
      let s := if h.counter = f.predicted then
          (s.modFrms r (fun f => { f with newSeq := none, predicted := nextCounter h.counter })).showFc r h.counter
        else s.counterBreak r h
      s.beginFrame r h

/-! Fragments (R137, R138, R142, R143). -/

/-- Where the header after one at `pos` is expected. -/
def nextHdr (pos : Nat) (hdr : Bytes) : Nat := pos + 8 + (fragHdr hdr).length

/-- Where the fragment area of the frame in progress begins, counting the receiver's information bytes. -/
def FrmSt.areaAt (f : FrmSt) : Nat := 2700 * f.frameCw + (3240000 - fragArea f.entries)

/-- A fragment's payload begins: its header, and what is kept of the frame in which the header began (R133, R141). -/
def State.fragBegin (r : Rx) (pos : Nat) (hdr : Bytes) (s : State) : State :=
  s.modFrms r (fun f => { f with
    fragRun := 0, next := nextHdr pos hdr
    cur := some { hdr := hdr, fc := f.frameFc, wrong := f.mapWrong, start := f.areaAt + pos + 8,
                  frameEnd := 2700 * f.frameCw + 3240000 } })

/-- Has the payload of a fragment, of `n` bytes, a byte in an uncorrectable codeword: in those to its frame's end, or in those of
the next frame's fragment area, which it goes on in (R137)? -/
def FrmSt.payloadBad (f : FrmSt) (c : FragCur) (n : Nat) : Bool :=
  let hit := fun (a b : Nat) => f.badCws.any (fun k => decide (a / 2700 ≤ k) && decide (2700 * k < b))
  let e := c.start + n
  decide (0 < n) && (hit c.start (min e c.frameEnd) ||
    (decide (c.frameEnd < e) && hit (f.areaAt + (c.start - c.frameEnd)) (f.areaAt + (e - c.frameEnd))))

/-- Eight bytes at offset `pos` of the fragment area, at the fragment machine (Table 4.7): in HUNT any window is tested, after
that only the expected position carries a header. -/
def State.fragStep (r : Rx) (pos : Nat) (bs : Bytes) (s : State) : State :=
  let p := pgFRM r
  let f := s.frms r
  let ok := hcsOk bs
  let bad := fun (s : State) => (s.count (cuFRM r + 10)).modFrms r (fun f => { f with secHcs := f.secHcs + 1 })
  if s.fragHeld r f.frameFc then s
  else if s.fragSt r = 0 then
    (if ok then (s.setFld p FRM.stateFragState 1).modFrms r (fun f => { f with fragRun := 0, next := nextHdr pos bs })
     else s)
  else if pos ≠ f.next then s
  else if s.fragSt r = 1 then
    (if !ok then (bad s).fragHunt r
     else if s.frmCount r FRM.huntCntFragConfirm ≤ f.fragRun + 1 then
      (s.setFld p FRM.stateFragState 2).fragBegin r pos bs
     else s.modFrms r (fun f => { f with fragRun := f.fragRun + 1, next := nextHdr pos bs }))
  else if ok then s.fragBegin r pos bs
  else match correctHdr bs with
    | some c => (s.count (cuFRM r + 11)).fragBegin r pos c
    | none => (bad s).fragHunt r

/-- What becomes of a received fragment: nothing more, the dual-homing unit, or the TMC ring, with its header, the frame
counter of its header's frame, and its payload. -/
inductive FragFate where
  | none
  | data (fc : Nat) (hdr payload : Bytes)
  | tmc (fc : Nat) (payload : Bytes)
  deriving DecidableEq, Repr

/-- Does the framer deliver: enabled and at work, no LOS, no LOF (R151)? -/
def State.frmDelivers (s : State) (r : Rx) : Bool := s.works (pgFRM r) && !s.los r && !s.lof r

/-- The payload of the fragment in progress is whole: the fragment is counted, and dropped or passed on (R133, R136 to R138).
A fragment that fits two rows counts in one: an idle one at 9 and a malformed one at 13, whatever its payload (DESIGN CHOICE,
log entry 101). While LOS or LOF stands no fragment is counted, whatever its kind, and no grant entry either (DESIGN CHOICE, log
entry 124). -/
def State.fragReceive (r : Rx) (payload : Bytes) (s : State) : State × FragFate :=
  match s.frmDelivers r && s.fragSt r == 2, (s.frms r).cur with
  | true, some c =>
    let cu := cuFRM r
    let h := fragHdr c.hdr
    let bad := (s.frms r).payloadBad c h.length
    let s := s.modFrms r (fun f => { f with cur := none })
    if h.kind = 0 then (s.count (cu + 9), .none)
    else if h.kind = 3 ∨ (h.kind = 1 ∧ h.length = 0) then (s.count (cu + 13), .none)
    else if h.kind = 1 then
      (if bad then (s.count (cu + 12), .none)
       else ((s.count (cu + 7)).countBy (cu + 14) h.length, .data c.fc c.hdr (payload.take h.length)))
    else if h.last = false ∨ h.length = 0 ∨ 2048 < h.length ∨ s.flag (pgFRM r) FRM.stateControl = false ∨
        c.wrong = true then (s.count (cu + 13), .none)
    else if bad then (s.count (cu + 12), .none)
    else (s.count (cu + 8), .tmc c.fc (payload.take h.length))
  | _, _ => (s, .none)

/-! Windows (R149, R150). -/

/-- A ratio in units of 10^−9, saturating; with no codeword it is not stated: a free value (log entry 31). -/
def State.ratio (s : State) (num den : Nat) : Nat :=
  if den = 0 then s.freeVal (2 ^ 32) else min 0xFFFFFFFF (num * 10 ^ 9 / den)

/-- One of SD and SF judged at the end of a window: declared after `setN` windows at or above `setThr`, cleared after
`clrN` windows below `clrThr`. Answers the runs and whether it stands. -/
def judgeDefect (on : Bool) (ratio setThr clrThr setN clrN setRun clrRun : Nat) : Bool × Nat × Nat :=
  if on then
    (if ratio < clrThr then (if clrN ≤ clrRun + 1 then (false, 0, 0) else (true, 0, clrRun + 1)) else (true, 0, 0))
  else if setThr ≤ ratio then (if setN ≤ setRun + 1 then (true, 0, 0) else (false, setRun + 1, 0))
  else (false, 0, 0)

/-- A defect bit set or cleared, each change raised. -/
def State.putDefect (r : Rx) (f : Fld) (setBit clrBit : Nat) (on : Bool) (s : State) : State :=
  let was := s.flag (pgFRM r) f
  let s := (s.setFld (pgFRM r) f (b2n on)).iff (on && !was) (State.raise (pgFRM r) setBit)
  s.iff (was && !on) (State.raise (pgFRM r) clrBit)

/-- A new window starts with the thresholds as written (R152). -/
def State.openWindow (r : Rx) (s : State) : State :=
  let p := pgFRM r
  s.modFrms r (fun f => { f with
    winOpen := true, winCw := 0, winCorr := 0, winUnc := 0
    thr := (s.fld p FRM.sdSetSdSet, s.fld p FRM.sdClearSdClear, s.fld p FRM.sfSetSfSet, s.fld p FRM.sfClearSfClear) })

/-- The end of a defect window: ratios, SD and SF, and the next window (R149). -/
def State.windowEnd (r : Rx) (s : State) : State :=
  let p := pgFRM r
  let f := s.frms r
  let good := f.winCw - f.winUnc
  let ber := s.ratio f.winCorr (25920 * good)
  let s := s.iff (good == 0) State.useFree
  let unc := s.ratio f.winUnc f.winCw
  let s := s.iff (f.winCw == 0) State.useFree
  let s := (s.setFld p FRM.berLastBerLast ber).setFld p FRM.uncLastUncLast unc
  let n := s.frmCount r
  let sd := judgeDefect (s.flag p FRM.defectSd) ber f.thr.1 f.thr.2.1 (n FRM.defCfgSdSetWin) (n FRM.defCfgSdClearWin)
    f.sdSetRun f.sdClrRun
  let sf := judgeDefect (s.flag p FRM.defectSf) unc f.thr.2.2.1 f.thr.2.2.2 (n FRM.defCfgSfSetWin)
    (n FRM.defCfgSfClearWin) f.sfSetRun f.sfClrRun
  let s := (s.putDefect r FRM.defectSd 9 10 sd.1).putDefect r FRM.defectSf 11 12 sf.1
  let s := s.modFrms r (fun f => { f with
    sdSetRun := sd.2.1, sdClrRun := sd.2.2, sfSetRun := sf.2.1, sfClrRun := sf.2.2
    secSd := f.secSd || sd.1, secSf := f.secSf || sf.1 })
  s.openWindow r

/-- A window that is open as the tree enters Parked is dropped, SD and SF not being evaluated there (R211). -/
def State.closeWindow (r : Rx) (s : State) : State :=
  s.modFrms r (fun f => { f with winOpen := false, winCw := 0, winCorr := 0, winUnc := 0 })

/-- The frames of a window (FRM_DEF_CFG.window). -/
def State.windowFrames (s : State) (r : Rx) : Nat := 8 * 10 ^ s.fld (pgFRM r) FRM.defCfgWindow

/-- A window boundary, at a frame whose counter is a multiple of the window's length: an open window ends; without one, and with
no LOS, no LOF and the tree not in Parked, one opens (R149, R150, R211). -/
def State.windowBoundary (r : Rx) (s : State) : State :=
  if !s.frmDelivers r || s.mode (rxTree r) == 5 || (s.frms r).frameFc % s.windowFrames r != 0 then s
  else if (s.frms r).winOpen then s.windowEnd r
  else s.openWindow r

/-- A decoded codeword: its information bytes, with the flag of an uncorrectable one; and, noted for the window and the second,
its bits corrected, or that it is uncorrectable (R84). -/
def State.noteCodeword (r : Rx) (corrected : Nat) (unc : Bool) (block : Bytes) (s : State) : State :=
  if !s.works (pgFRM r) then s
  else s.modFrms r (fun f =>
    let c := if unc then 0 else corrected
    { f with
      winCw := f.winCw + b2n f.winOpen, winCorr := f.winCorr + (if f.winOpen then c else 0)
      winUnc := f.winUnc + b2n (f.winOpen && unc)
      block := block, cwCount := f.cwCount + 1
      badCws := (if unc then [f.cwCount] else []) ++ f.badCws.filter (fun k => decide (f.cwCount < k + 2400))
      secCw := f.secCw + 1, secCorr := f.secCorr + c, secUnc := f.secUnc + b2n unc })

/-! Enable and disable (R149, R152). -/

/-- The page begins to run: machines in HUNT; LOS at once where the receiver is not locked. A FRM_ALIGN out of order raises
config_invalid here, as its values come into use, and not at its write (DESIGN CHOICE, log entry 125). -/
def State.frmStart (r : Rx) (s : State) : State :=
  let s := s.modFrms r (fun f => { f with alignRun := 0, alignBad := 0, lofFrom := s.now })
  (s.iff (s.alignBadCfg r) (State.raise (pgFRM r) 17)).iff (!s.locked r) (State.losDeclare r)

/-- The page stops: every machine in HUNT, a machine that was in SYNC raising its loss and the fragment machine its
break (R144), one break marker sent, FRM_DEFECT 0, nothing delivered. The clearing of FRM_DEFECT is the page's, and raises no
clearing bit. -/
def State.frmStop (r : Rx) (s : State) : State :=
  let broke := s.fragSt r == 2
  let s := ((s.alignHunt r).iff (!broke) (State.sendMark r)).putReg (pgFRM r) 0x050 0#32
  s.modFrms r (fun f => { f with
    winOpen := false, sdSetRun := 0, sdClrRun := 0, sfSetRun := 0, sfClrRun := 0, secOff := true })

end Sys2Proof.Machine
end

