-- ==== Sys2Proof/Machine/P384.lean ====
section
/-! DEFINITION. The curve P-384: key pairs, ECDSA over 48-byte digests (FIPS 186-5), ECDH (SP 800-56A), as R373 names
them, and the little of X.509 DER that R370 reads. -/

namespace Sys2Proof.Machine

/-- The field prime. -/
def p384P : Nat := 2 ^ 384 - 2 ^ 128 - 2 ^ 96 + 2 ^ 32 - 1

/-- The order of the base point. -/
def p384N : Nat :=
  0xFFFFFFFFFFFFFFFFFFFFFFFFFFFFFFFFFFFFFFFFFFFFFFFFC7634D81F4372DDF581A0DB248B0A77AECEC196ACCC52973

/-- The curve's coefficient b; a is −3. -/
def p384B : Nat :=
  0xB3312FA7E23EE7E4988E056BE3F82D19181D9C6EFE8141120314088F5013875AC656398D8A2ED19D2A85C8EDD3EC2AEF

/-- A point, or none for the point at infinity. -/
abbrev Point := Option (Nat × Nat)

/-- The base point. -/
def p384G : Point :=
  some (0xAA87CA22BE8B05378EB1C71EF320AD746E1D3B628BA79B9859F741E082542A385502F25DBF55296C3A545E3872760AB7,
    0x3617DE4A96262C6F5D9E98BF9292DC29F8F41DBD289A147CE9DA3113B5F0B8C00A60B1CE1D7E819D7A431D7C90EA0E5F)

/-- x to the power e modulo m, over the `n` low bits of e. -/
def powMod (m : Nat) : Nat → Nat → Nat → Nat
  | 0, _, _ => 1 % m
  | n + 1, x, e =>
    let r := powMod m n (x * x % m) (e / 2)
    if e % 2 = 1 then x * r % m else r

/-- The inverse modulo a prime of 384 bits. -/
def invMod (m x : Nat) : Nat := powMod m 384 (x % m) (m - 2)

/-- The sum of two points. -/
def ecAdd (p q : Point) : Point :=
  match p, q with
  | none, _ => q
  | _, none => p
  | some (x1, y1), some (x2, y2) =>
    let m := p384P
    if x1 = x2 ∧ (y1 + y2) % m = 0 then none
    else
      let l := if x1 = x2 then (3 * x1 * x1 + m - 3) * invMod m (2 * y1) % m
        else (y2 + m - y1) * invMod m (x2 + m - x1) % m
      let x3 := (l * l + 2 * m - x1 - x2) % m
      some (x3, (l * (x1 + m - x3) + m - y1) % m)

/-- A multiple of a point, over the `n` low bits of `k`. -/
def ecMul : Nat → Nat → Point → Point
  | 0, _, _ => none
  | n + 1, k, p =>
    let r := ecMul n (k / 2) (ecAdd p p)
    if k % 2 = 1 then ecAdd p r else r

/-- Is the pair a point of the curve (point validation)? -/
def onCurve (x y : Nat) : Bool :=
  decide (x < p384P) && decide (y < p384P) &&
    (y * y % p384P == (x * x * x + (p384P - 3) * x + p384B) % p384P)

/-- An uncompressed point of 97 bytes (R368). -/
def pointBytes : Point → Bytes
  | none => List.replicate 97 0#8
  | some (x, y) => [4#8] ++ natBE 48 x ++ natBE 48 y

/-- An uncompressed point read and validated. -/
def readPoint (bs : Bytes) : Point :=
  let x := fieldAt bs 1 48
  let y := fieldAt bs 49 48
  if bs.length = 97 ∧ byteAt bs 0 = 4 ∧ onCurve x y = true then some (x, y) else none

/-- The public key of a private key. -/
def publicKey (d : Nat) : Point := ecMul 384 d p384G

/-- A private key, or a nonce k, from 48 octets: 1 to n − 1. -/
def scalarOf (bs : Bytes) : Nat := beNat bs % (p384N - 1) + 1

/-- An ECDSA signature r, s of a digest under `d` with nonce `k`; 96 bytes. -/
def ecdsaSign (d k : Nat) (digest : Bytes) : Bytes :=
  let r := match ecMul 384 k p384G with
    | some (x, _) => x % p384N
    | none => 0
  let s := invMod p384N k * ((beNat digest + r * d) % p384N) % p384N
  natBE 48 r ++ natBE 48 s

/-- Does an ECDSA signature verify? -/
def ecdsaVerify (q : Point) (digest sig : Bytes) : Bool :=
  let r := fieldAt sig 0 48
  let s := fieldAt sig 48 48
  if sig.length ≠ 96 ∨ r = 0 ∨ p384N ≤ r ∨ s = 0 ∨ p384N ≤ s ∨ q = none then false
  else
    let w := invMod p384N s
    match ecAdd (ecMul 384 (beNat digest * w % p384N) p384G) (ecMul 384 (r * w % p384N) q) with
    | none => false
    | some (x, _) => x % p384N == r

/-- The X coordinate of an ECDH result. -/
def ecdhX (d : Nat) (q : Point) : Bytes :=
  match ecMul 384 d q with
  | some (x, _) => natBE 48 x
  | none => List.replicate 48 0#8

/-! X.509 DER (R370). -/

/-- A DER element at the head of a string: its tag, its contents, the whole element, what follows. -/
def derHead (bs : Bytes) : Option (Nat × Bytes × Bytes × Bytes) :=
  let t := byteAt bs 0
  let l := byteAt bs 1
  let k := if l < 128 then 0 else l - 128
  let len := if l < 128 then l else fieldAt bs 2 k
  let n := 2 + k
  if bs.length < n + len ∨ 3 < k ∨ l = 128 then none
  else some (t, (bs.drop n).take len, bs.take (n + len), bs.drop (n + len))

/-- The elements of a constructed element's contents, at most `n`: tag, contents, whole. -/
def derItems : Nat → Bytes → List (Nat × Bytes × Bytes)
  | 0, _ => []
  | n + 1, bs =>
    match derHead bs with
    | some (t, c, w, rest) => (t, c, w) :: derItems n rest
    | none => []

/-- The contents of the attribute value that follows the object identifier `oid` in a Name: sets of sequences. -/
def derAttribute (oid : Bytes) (name : Bytes) : Option Bytes :=
  ((derItems 64 name).findSome? (fun rdn =>
    (derItems 8 rdn.2.1).findSome? (fun attr =>
      match derItems 4 attr.2.1 with
      | (0x06, o, _) :: (_, v, _) :: _ => if o = oid then some v else none
      | _ => none)))

/-- An integer's contents as 48 bytes. -/
def derScalar (c : Bytes) : Bytes := natBE 48 (beNat c)

/-- What R370 reads of a certificate: the subject's serialNumber, the public key's 97 bytes, the signed part, and the
signature r, s. -/
structure Certificate where
  serial : Bytes
  key : Bytes
  signed : Bytes
  sig : Bytes
  deriving DecidableEq, Repr

/-- The elements of a certificate's signed part after its optional version. -/
def certFields (tbs : Bytes) : List (Nat × Bytes × Bytes) :=
  match derItems 16 tbs with
  | (0xA0, _, _) :: rest => rest
  | l => l

/-- A certificate parsed: Certificate is a sequence of the signed part, the algorithm, and the signature; the signed
part holds serial number, algorithm, issuer, validity, subject, public key. -/
def readCertificate (bs : Bytes) : Option Certificate :=
  match derHead bs with
  | some (0x30, body, _, _) =>
    match derItems 4 body with
    | (0x30, tbs, whole) :: _ :: (0x03, sg, _) :: _ =>
      match certFields tbs with
      | _ :: _ :: _ :: _ :: (0x30, subject, _) :: (0x30, spki, _) :: _ =>
        match derAttribute [0x55#8, 0x04#8, 0x05#8] subject, derItems 4 spki, derHead (sg.drop 1) with
        | some serial, _ :: (0x03, key, _) :: _, some (0x30, rs, _, _) =>
          match derItems 4 rs with
          | (0x02, r, _) :: (0x02, s, _) :: _ =>
            some ⟨serial, key.drop 1, whole, derScalar r ++ derScalar s⟩
          | _ => none
        | _, _, _ => none
      | _ => none
    | _ => none
  | _ => none

/-- A hexadecimal digit. -/
def hexDigit (b : Byte) : Option Nat :=
  let n := b.toNat
  if 48 ≤ n ∧ n ≤ 57 then some (n - 48)
  else if 65 ≤ n ∧ n ≤ 70 then some (n - 55)
  else if 97 ≤ n ∧ n ≤ 102 then some (n - 87)
  else none

/-- Twelve hexadecimal digits read as a number (R370). -/
def hexNumber (bs : Bytes) : Option Nat :=
  if bs.length = 12 then bs.foldl (fun a b => match a, hexDigit b with
    | some x, some d => some (x * 16 + d)
    | _, _ => none) (some 0) else none

end Sys2Proof.Machine
end

