-- ==== Sys2Proof/Machine/KstOps.lean ====
section
/-! DEFINITION. The keystore (R377 to R382) and the random-bit generator. -/

namespace Sys2Proof.Machine

/-- The next `n` random bytes, and the state without them. -/
def State.randomBytes (n : Nat) (s : State) : State × Bytes :=
  (s.modFreeIx (· + n), (List.range n).map (fun i => Config.random (s.freeIx + i)))

/-- What an erased word reads (R377). -/
def erasedWord : Word := 0xFFFFFFFF#32

/-- Words of a slot (R377): 6 KiB. -/
def kstWords : Nat := 1536

/-- A slot's words. -/
def State.kstSlot (s : State) (n : Nat) : Sparse Word := if n = 0 then s.kst.slot0 else s.kst.slot1

/-- A slot's words set. -/
def State.putKstSlot (n : Nat) (m : Sparse Word) (s : State) : State :=
  s.modKst (fun k => if n = 0 then { k with slot0 := m } else { k with slot1 := m })

/-- `len` bytes of a slot from `off`, both multiples of 4 or not. -/
def State.kstBytes (s : State) (n off len : Nat) : Bytes :=
  (List.range len).map (fun i =>
    BitVec.ofNat 8 ((Sparse.get erasedWord (s.kstSlot n) ((off + i) / 4)).toNat / 256 ^ (3 - (off + i) % 4)))

/-- The active slot, if there is one (KST_STATUS.state). -/
def State.kstActive (s : State) : Option Nat :=
  match s.fld pgKST KST.statusState with
  | 1 => some 0
  | 2 => some 1
  | _ => none

/-- `len` bytes of the active slot; zeros where the keystore is empty (R380). -/
def State.kstField (s : State) (off len : Nat) : Bytes :=
  match s.kstActive with
  | some n => s.kstBytes n off len
  | none => List.replicate len 0#8

/-- The device-unique key. -/
def deviceKeyBytes : Bytes := (List.range 32).map Config.deviceKey

/-- Does a slot's CMAC fit (R378)? -/
def State.kstFits (s : State) (n : Nat) : Bool :=
  s.kstBytes n 0x17F0 16 == cmac deviceKeyBytes (s.kstBytes n 0 0x17F0)

/-- A slot's generation. -/
def State.kstGen (s : State) (n : Nat) : Nat := beNat (s.kstBytes n 0 4)

/-- The commit word that names a slot and generation (R379). -/
def commitWordOf (slot gen : Nat) : Nat :=
  let b := natBE 1 0xA5 ++ natBE 1 slot ++ natBE 4 gen
  beNat (b ++ natBE 2 (crcMSB 16 0x1021 0xFFFF b))

/-- The slot and generation a commit word names, where it is valid. -/
def readCommitWord (w : Nat) : Option (Nat × Nat) :=
  let slot := bitsOf w 55 48
  let gen := bitsOf w 47 16
  if slot ≤ 1 ∧ w = commitWordOf slot gen then some (slot, gen) else none

/-- CCRY_STATUS.keystore_ready: an active slot, reachable over the S–K link. -/
def State.showKeystore (s : State) : State :=
  s.setFld pgCCRY CCRY.statusKeystoreReady (b2n (s.kstActive.isSome && s.linkUp 1))

/-- A slot made active. -/
def State.kstActivate (n : Nat) (s : State) : State :=
  (((s.setFld pgKST KST.statusState (n + 1)).putReg pgKST 0x034 (BitVec.ofNat 32 (s.kstGen n)))).showKeystore

/-- The keystore's choice at a power-up of VKEEP (R380). -/
def State.kstPowerUp (s : State) : State :=
  let s := (s.modKst (fun k => { k with job := 0 })).putReg pgKST 0x030 0#32
  let named := match readCommitWord s.kst.commitWord with
    | some (n, g) => if s.kstFits n && s.kstGen n == g then some n else none
    | none => none
  let other := match readCommitWord s.kst.commitWord with
    | some (n, _) => if s.kstFits (1 - n) then some (1 - n) else none
    | none => if s.kstFits 0 then some 0 else if s.kstFits 1 then some 1 else none
  let s := match named, other with
    | some n, _ => s.kstActivate n
    | none, some n => (((s.kstActivate n).setFld pgKST KST.statusFallback 1).count (cuKST + 3)).raise pgKST 2
    | none, none => ((s.putReg pgKST 0x034 0#32).showKeystore).raise pgKST 4
  let torn := (List.range 2).filter (fun n => s.kstActive != some n && !(s.kstSlot n).isEmpty && !s.kstFits n)
  let s := s.countBy (cuKST + 4) torn.length
  s.iff (!torn.isEmpty) (fun s => (s.setFld pgKST KST.statusTornFound 1).raise pgKST 3)

/-! Updates (R381, R382). -/

/-- Is a word of the staging table in the private-key field? -/
def kstSecretKey (i : Nat) : Bool := decide (0x430 ≤ 4 * i) && decide (4 * i < 0x460)

/-- Is a word of a slot secret: the device private key, the export KEK, the image key (R378)? -/
def kstSecret (i : Nat) : Bool := decide (0x430 ≤ 4 * i) && decide (4 * i < 0x4A0)

/-- A word of the staging table. -/
def State.kstStage (s : State) (i : Nat) : Word := s.tw pgKST 0 (i / 16) (i % 16)

/-- A slot written from staging, with a generation, and CMAC words. -/
def State.kstWrite (n gen : Nat) (tag : Bytes → Bytes) (s : State) : State :=
  let ws := BitVec.ofNat 32 gen :: (List.range 1531).map (fun i => s.kstStage (i + 1))
  let all := ws ++ wordsBE 4 (tag (bytesBE ws))
  s.putKstSlot n ((List.range kstWords).foldl (fun m i => Sparse.put erasedWord i (all.getD i 0#32) m) [])

/-- The slot an update writes: the one that is not active. -/
def State.kstTarget (s : State) : Nat := match s.kstActive with
  | some n => 1 - n
  | none => 0

/-- KST_CMD.commit: refused while the VKEEP warning is active, ignored while the keystore is busy (R381). -/
def State.kstCommit (s : State) : State :=
  if s.flag pgSUP SUP.statusVkeepWarning then (s.setFld pgKST KST.statusLastResult 4).count (cuKST + 2)
  else if s.kst.job ≠ 0 then s.ignored pgKST 0x038 1
  else ((s.modKst (fun k => { k with job := 1 })).setFld pgKST KST.statusBusy 1).putKstSlot s.kstTarget []

/-- The keystore is free again. -/
def State.kstIdle (s : State) : State := (s.modKst (fun k => { k with job := 0 })).setFld pgKST KST.statusBusy 0

/-- An update stopped by the VKEEP warning: the slot being written is torn, its CMAC field not written whole: a free
value (R381, log entry 32). -/
def State.kstAbort (s : State) : State :=
  if s.kst.job = 1 then
    let v := s.freeVal (2 ^ 128)
    let s := (s.useFree).kstWrite s.kstTarget ((s.reg pgKST 0x034).toNat + 1) (fun _ => natBE 16 v)
    ((s.kstIdle).setFld pgKST KST.statusLastResult 3).count (cuKST + 2)
  else s

/-- An update written and read back: committed, or failed its check (R381 steps 4 to 7); what a slot that fails its check
holds in its CMAC field is a free value (log entry 32). -/
def State.kstCommitDone (ok : Bool) (s : State) : State :=
  if s.kst.job ≠ 1 then s
  else if s.flag pgSUP SUP.statusVkeepWarning then s.kstAbort
  else
    let n := s.kstTarget
    let gen := ((s.reg pgKST 0x034).toNat + 1) % 2 ^ 32
    if ok then
      let s := (s.kstWrite n gen (cmac deviceKeyBytes)).kstIdle
      let s := (s.modKst (fun k => { k with commitWord := commitWordOf n gen })).kstActivate n
      ((s.setFld pgKST KST.statusLastResult 1).count cuKST).raise pgKST 0
    else
      let v := s.freeVal (2 ^ 128)
      let s := ((s.useFree).kstWrite n gen (fun _ => natBE 16 v)).kstIdle
      ((s.setFld pgKST KST.statusLastResult 2).count (cuKST + 1)).raise pgKST 1

/-- KST_CMD.genkey. -/
def State.kstGenkey (s : State) : State :=
  if s.kst.job ≠ 0 then s.ignored pgKST 0x038 1
  else (s.modKst (fun k => { k with job := 2 })).setFld pgKST KST.statusBusy 1

/-- A key pair stands: d in the staging table's private-key field, Q in table 2 (R382). -/
def State.putKeyPair (d : Nat) (s : State) : State :=
  let s := (List.range 12).foldl (fun s i =>
    s.putTw pgKST 0 ((0x430 / 4 + i) / 16) ((0x430 / 4 + i) % 16) (BitVec.ofNat 32 (fieldAt (natBE 48 d) (4 * i) 4))) s
  s.putEntry pgKST 2 0 0 (wordsBE 25 (pointBytes (publicKey d)))

/-- The key generation completes. -/
def State.kstGenkeyDone (s : State) : State :=
  if s.kst.job ≠ 2 then s
  else
    let x := s.randomBytes 48
    ((x.1.kstIdle).putKeyPair (scalarOf x.2)).raise pgKST 5

/-! The Burgee and the trust anchors (Table 11.8, Table 6.7). -/

/-- serial and certificate of the active slot's Burgee, and the device private key. -/
def State.burgeeSerial (s : State) : Nat := beNat (s.kstField 0x008 8)
def State.burgeeCert (s : State) : Bytes := s.kstField (0x008 + 32) (beNat (s.kstField (0x008 + 10) 2))
def State.deviceKey (s : State) : Nat := beNat (s.kstField 0x430 48)

/-- The trust anchors in use. -/
def State.trustAnchors (s : State) : List Bytes :=
  (List.range (min 4 (beNat (s.kstField 0x4D0 1)))).map (fun i => s.kstField (0x4E0 + 97 * i) 97)

end Sys2Proof.Machine
end

