-- ==== Sys2Proof/Machine/TxOps.lean ====
section
/-! DEFINITION. What a change of the effective policy or a force does to a transmitter, its burst, its grants and its
halyard frame (R106 to R111, R182, R270). -/

namespace Sys2Proof.Machine

/-! What leaves the DACs. -/

/-- The symbols of a burst on the pins, in the order and signs of TX_LANE_FIX (R95, R115). -/
def State.burstImage (s : State) (t : Tree) (b : Burst) : List Sym :=
  (burstSyms (b.e - b.t0) b.codewords b.qam (s.contentOf t b.entry).stream).map
    (Sym.atPins (s.fld (pgTX t) TX.laneFixOrder) (s.fld (pgTX t) TX.laneFixSigns))

/-- Between bursts, the OFE's channel and fine frequency take what waits for them: a change is written through CMIS (R102). -/
def State.tune (t : Tree) (s : State) : State :=
  if (s.txs t).burst.isSome then s
  else
    let x := s.txs t
    let ch := s.sfld (pgTX t) TX.cfgChannel
    let fine := x.tuneDue.getD x.fineTune
    (s.modTxs t (fun x => { x with channel := ch, fineTune := fine, tuneDue := none })).iff
      (ch != x.channel || fine != x.fineTune) (State.emit (.ofeTune t ch fine))

/-- A carrier offset reported by the head end, in kHz: TX_FREQ_REPORT takes it, and the correction by as much waits for the time
between bursts (R102; log entry 108). -/
def State.reportFreq (t : Tree) (bytes : Nat) (s : State) : State :=
  (s.putReg (pgTX t) 0x054 (BitVec.ofNat 32 bytes)).modTxs t (fun x => { x with tuneDue := some (x.fineTune - signed 32 bytes) })

/-- A burst on the pins truncated: counted, its content lost, the gate low (R109, R270). -/
def State.truncate (t : Tree) (s : State) : State :=
  match (s.txs t).burst with
  | none => s
  | some b =>
    let s := s.emit (.burst t ((s.burstImage t b).take (s.now - b.t0)))
    let s := ((s.modTxs t (fun x => { x with burst := none, lastEnd := s.now })).count (cuTX t + 5)).raise (pgTX t) 5
    (((s.loseContent t (s.contentOf t b.entry)).removeGrant t b.entry).driveGate t false).tune t

/-- Grants whose content is selected and whose T0 has not come, suppressed by the transmitter (R109, R251). -/
def State.suppressSelected (t : Tree) (s : State) : State :=
  ((s.pendings t).filter (fun i => s.pendState t i == 1)).foldl (fun s i =>
    (s.suppressLate t i).count (cuTX t + 3)) s

/-- Continuous test comes into effect, or ends with what it has sent: the pilot generator's symbols, in the order and signs of
TX_LANE_FIX (R106, R115). -/
def State.contBegin (t : Tree) (s : State) : State := s.modTxs t (fun x => { x with contFrom := some s.now })
def State.contEnd (t : Tree) (s : State) : State :=
  match (s.txs t).contFrom with
  | none => s
  | some a =>
    let syms := (contSyms (s.now - a)).map (Sym.atPins (s.fld (pgTX t) TX.laneFixOrder) (s.fld (pgTX t) TX.laneFixSigns))
    (s.emit (.continuousTest t syms)).modTxs t (fun x => { x with contFrom := none })

/-- The pins of a policy (Table 3.7): Off holds both low, Continuous test holds the gate high, and PREP with it (DESIGN CHOICE, log
entry 122), and otherwise a gate with no burst or halyard frame is low. -/
def State.policyPins (t : Tree) (s : State) : State :=
  let e := s.effPolicy t
  if e = 0 then s.pinsLow t
  else if e = 3 then ((s.contBegin t).drivePrep t true).driveGate t true
  else if (s.txs t).burst.isSome ∨ (s.txs t).halSlot.isSome then s
  else if (s.hals t).jobs.any (fun j => j.start.isSome) then s.driveGate t false
  else if e = 2 then s.pinsLow t
  else s

/-- The effective policy judged again (R106), with what its change ends (R109, R182). -/
def State.policyJudge (t : Tree) (s : State) : State :=
  let old := s.effPolicy t
  let e := s.policyNow t
  let s := s.setFld (pgTX t) TX.statusEffectivePolicy e
  if old = e then s
  else
    let s := (s.contEnd t).iff (e != 1) (fun s => (s.truncate t).suppressSelected t)
    (s.iff (e != 1 && e != 2) (State.halRefusePins t)).policyPins t

/-- A lane order and signs that wait are written once no burst is on the pins, where they differ from TX_LANE_FIX: with the page
disabled for that write (R202 step 7). -/
def State.laneIdle (t : Tree) (s : State) : State :=
  match (s.txs t).laneDue, (s.txs t).burst with
  | some (o, g), none =>
    let p := pgTX t
    let s := s.modTxs t (fun x => { x with laneDue := none })
    if s.fld p TX.laneFixOrder = o ∧ s.fld p TX.laneFixSigns = g then s
    else
      let on := s.enabled p
      let s := (s.setFld p HDR.pageCtrlEnable 0).policyJudge t
      let s := (s.setFld p TX.laneFixOrder o).setFld p TX.laneFixSigns g
      (s.setFld p HDR.pageCtrlEnable (b2n on)).policyJudge t
  | _, _ => s

/-- The effective policy judged again; a burst that this ends makes way for what waits for the time between bursts. -/
def State.refreshPolicy (t : Tree) (s : State) : State := (s.policyJudge t).laneIdle t

/-- The time between bursts: the OFE's frequency and a lane order and signs take what waits for them (R102, R202). -/
def State.betweenBursts (t : Tree) (s : State) : State := (s.tune t).laneIdle t

/-- A transmitter begins to run, or its OFE comes or goes: config_invalid where it must stay idle (R75, R117). Its OFE takes the
channel (R102). -/
def State.txBegin (t : Tree) (s : State) : State :=
  ((s.iff (s.works (pgTX t) && !s.txConfigOk t) (State.raise (pgTX t) 6)).refreshPolicy t).tune t

/-- A force entered: TX_STATUS, forced_off, the policy Off at once (R107, R111, R545). -/
def State.enterForce (t : Tree) (s : State) : State :=
  (((s.showForce t).raise (pgTX t) 0).refreshPolicy t).pinsLow t

/-- The force of a missing clock, with the Keeper's own count and pennant (R107, R545). -/
def State.clockForce (t : Tree) (s : State) : State :=
  if (s.txs t).clockForce then s.setFld (pgTX t) TX.statusClockOk 0
  else
    let s := (s.modTxs t (fun x => { x with clockForce := true })).setFld (pgTX t) TX.statusClockOk 0
    (((s.enterForce t).count (cuCLK + 4)).raise pgCLK 6)

/-- The transmitter's clock is present again (R108). -/
def State.txClockBack (t : Tree) (s : State) : State :=
  if s.flag (pgTX t) TX.statusClockOk then s
  else (s.setFld (pgTX t) TX.statusClockOk 1).modTxs t (fun x => { x with clockOkSince := s.now })

/-- The rogue force and its latch cleared, as the tree leaves Quarantine (R111, R217). -/
def State.clearRogue (t : Tree) (s : State) : State :=
  let s := s.modTxs t (fun x => { x with rogueForce := false, hotPolls := 0 })
  ((s.setFld (pgTX t) TX.statusRogueLatched 0).showForce t).refreshPolicy t

/-- Windows of the checker that have passed are dropped (R110). -/
def State.pruneWindows (t : Tree) (s : State) : State :=
  s.modTxs t (fun x => { x with windows := x.windows.filter (fun w => decide (s.now ≤ w.2 + 16)) })

end Sys2Proof.Machine
end

