-- ==== Sys2Proof/Machine/XtrOps.lean ====
section
/-! DEFINITION. The extended tier (R264, R265, R342 to R347): extents, spill, draw-back, losses. -/

namespace Sys2Proof.Machine

/-! Segments and extents (R342). -/

/-- Is a segment valid; draining; how many of its extents are usable? -/
def State.segValid (s : State) (g : Nat) : Bool := g != 0 && s.tb pgXTR 0 g 0 0
def State.segDraining (s : State) (g : Nat) : Bool := s.tb pgXTR 0 g 0 1
def State.segUsable (s : State) (g : Nat) : Nat :=
  let n := s.tf pgXTR 0 g 1 15 0
  if n = 0 then 32768 else min n 32768

/-- The valid segments. -/
def State.segments (s : State) : List Nat := (s.tblEntries pgXTR 0).filter s.segValid

/-- The chain of a queue. -/
def State.tier (s : State) (q : Nat) : List Extent := Sparse.get [] s.xtr.tier q

/-- The extents whose bit is set: in chains, and stranded. -/
def State.extentsInUse (s : State) : List Nat :=
  s.xtr.tier.flatMap (fun x => x.2.map Extent.id) ++ Sparse.keys s.xtr.stranded

/-- Is any extent of a segment in use? -/
def State.segInUse (s : State) (g : Nat) : Bool := s.extentsInUse.any (fun e => e / 32768 == g)

/-- An allocatable extent. -/
def State.freeExtent (s : State) : Option Nat :=
  let used := s.extentsInUse
  s.pick ((s.segments.filter (fun g => !s.segDraining g)).flatMap (fun g =>
    ((List.range (s.segUsable g)).map (fun i => 32768 * g + i)).filter (fun e => !used.contains e)))

/-- The CXL host-physical address of an extent (R342). -/
def State.extentAddress (s : State) (e : Nat) : Nat :=
  let g := e / 32768
  (s.tw pgXTR 0 g 2).toNat / 2 ^ 21 * 2 ^ 21 + (s.tw pgXTR 0 g 3).toNat * 2 ^ 32 + e % 32768 * 2 ^ 21

/-- Is the tier available: XTR enabled, the CXL link up, a segment valid? -/
def State.tierUp (s : State) : Bool := s.works pgXTR && s.flag pgXTR XTR.statusCxlUp && !s.segments.isEmpty

/-- XTR_STATUS, the extent counts, and USCH_STATUS.xtier_available follow. -/
def State.showTier (s : State) : State :=
  let up := b2n s.tierUp
  let s := (s.setFld pgXTR XTR.statusAvailable up).setFld pgUSCH USCH.statusXtierAvailable up
  let s := s.setFld pgXTR XTR.extentsUsedUsed s.extentsInUse.length
  let s := s.setFld pgXTR XTR.extentsMappedMapped (s.segments.foldl (fun n g => n + s.segUsable g) 0)
  s.setFld pgXTR XTR.strandedStranded (Sparse.keys s.xtr.stranded).length

/-- A queue's chain set, with USCH table 2 word 2: its extents of 2 MiB. -/
def State.putTier (q : Nat) (c : List Extent) (s : State) : State :=
  ((s.modXtr (fun x => { x with tier := Sparse.put [] q c x.tier })).putTw pgUSCH 2 q 2
    (BitVec.ofNat 32 c.length)).showTier

/-- Bytes used of an extent, its header copies included. -/
def Extent.used (e : Extent) : Nat := e.recs.foldl (fun n r => n + r.size) 128

/-- hbm_high and hbm_low in bytes; both at their defaults where they are not in order (Table 8.7). -/
def State.bulkMarks (s : State) : Nat × Nat :=
  let hi := s.fld pgUSCH USCH.bulkHbmHigh
  let lo := s.fld pgUSCH USCH.bulkHbmLow
  if hi ≤ lo then (64 * 65536, 16 * 65536) else (hi * 65536, lo * 65536)

/-! Spill (R344). -/

/-- The chain of a queue with a record appended: to the tail extent where it fits, else to a new one; none where no
extent is allocatable. The number says how many extents were allocated. -/
def State.appendRecord (s : State) (q : Nat) (r : TierRec) : Option (List Extent × Nat) :=
  let c := s.tier q
  match c.getLast? with
  | some e =>
    if e.used + r.size ≤ 2097152 then some (c.dropLast ++ [{ e with recs := e.recs ++ [r] }], 0)
    else s.freeExtent.map (fun n => (c ++ [⟨n, [r]⟩], 1))
  | none => s.freeExtent.map (fun n => ([⟨n, [r]⟩], 1))

/-- The record of a copy. -/
def State.recordOf (s : State) (c : Copy) : TierRec :=
  match s.frame c.frame with
  | some f => ⟨c, f.rate, f.bytes⟩
  | none => ⟨c, 0, []⟩

/-- A copy that is in no list written to the tier: its record, and its reference released. -/
def State.spillCopy (q : Nat) (c : Copy) (s : State) : Option State :=
  let r := s.recordOf c
  match s.appendRecord q r with
  | none => none
  | some (chain, n) =>
    let s := s.iff (n != 0) State.useFree
    let s := ((s.putTier q chain).countBy cuXTR n).count (cuXTR + 2)
    let s := ((s.countBy (cuXTR + 4) r.size).count (cuUSCH + 8)).raiseMs pgUSCH 4
    some (((s.setQueueBytes q (s.queueBytes q - c.length)).releaseRef c).showQueue q)

/-- Does a newly admitted frame of a bulk queue go to the tier? -/
def State.spills (s : State) (q len : Nat) : Bool :=
  s.isBulk q && s.tierUp &&
    (!(s.tier q).isEmpty || !(s.list (listKey q 3)).isEmpty || decide (s.bulkMarks.1 < s.queueBytes q - len))

/-- The backlog list joins the end of the served list where the tier part is empty. -/
def State.joinBacklog (q : Nat) (s : State) : State :=
  if (s.tier q).isEmpty then
    (s.putList (listKey q 0) (s.list (listKey q 0) ++ s.list (listKey q 3))).putList (listKey q 3) []
  else s

/-- An admitted copy, its bytes already held in the queue, joins its queue's shared list: directly, or into the tier, or
behind the backlog. -/
def State.joinShared (q : Nat) (c : Copy) (s : State) : State :=
  let s := s.count cuUSCH
  if s.groupHeld q then (s.setQueueBytes q (s.queueBytes q - c.length)).endCopy (cuUSCH + 6) c
  else if s.frameBad c.frame then (s.setQueueBytes q (s.queueBytes q - c.length)).endCopy (cuSTO + 9) c
  else if s.spills q c.length then
    let backlog := !(s.list (listKey q 3)).isEmpty
    match (if backlog then none else s.spillCopy q c) with
    | some s => s
    | none =>
      let s := (s.appendCopy (listKey q 3) c).count (cuXTR + 7)
      ((s.raiseMs pgXTR 2).joinBacklog q).showQueue q
  else (s.appendCopy (listKey q 0) c).showQueue q

/-- Backlog frames spilled in order while extents are allocatable, at most `n`; one whose read meets an uncorrectable cell is
dropped (R324). -/
def State.spillBacklog (q : Nat) : Nat → State → State
  | 0, s => s
  | n + 1, s =>
    match s.list (listKey q 3) with
    | [] => s
    | c :: cs =>
      if s.frameBad c.frame then
        State.spillBacklog q n (((s.putList (listKey q 3) cs).setQueueBytes q (s.queueBytes q - c.length)).endCopy (cuSTO + 9) c)
      else match (s.putList (listKey q 3) cs).spillCopy q c with
      | some s => State.spillBacklog q n s
      | none => s

/-- Backlog frames of a queue spilled as extents become free; the backlog joins where the tier part is empty. -/
def State.backlogStep (q : Nat) (s : State) : State :=
  let s := if s.tierUp then State.spillBacklog q (s.list (listKey q 3)).length s else s
  (s.joinBacklog q).showQueue q

/-! Draw-back (R345). -/

/-- Bytes of a queue's served list. -/
def State.servedBytes (s : State) (q : Nat) : Nat := (s.list (listKey q 0)).foldl (fun n c => n + c.length) 0

/-- The head record of a chain taken off: the record, the chain without it, extents freed. -/
def takeRecord : List Extent → Option (TierRec × List Extent × Nat)
  | [] => none
  | e :: es =>
    match e.recs with
    | [] => none
    | [r] => some (r, es, 1)
    | r :: rs => some (r, { e with recs := rs } :: es, 0)

/-- One record drawn back into new cells and a new descriptor, at the end of the served list; none where there are not enough
of them. -/
def State.drawOne (q : Nat) (s : State) : Option State :=
  match takeRecord (s.tier q) with
  | none => none
  | some (r, chain, freed) =>
    let id := s.sto.nextId
    let n := cellsOf r.bytes.length
    if s.freeCells < n ∨ s.freeDescs = 0 then none
    else
    let f : Frame := { srcKind := r.copy.srcKind, srcNum := r.copy.srcNum, tenant := r.copy.tenant, rate := r.rate,
                       bytes := r.bytes, cells := s.nextCells [] n, ended := true, decided := true,
                       arrived := r.bytes.length }
    let s := ((s.modSto (fun x => { x with nextId := x.nextId + 1 })).putTier q chain).countBy (cuXTR + 1) freed
    let c := { r.copy with frame := id, desc := s.nextDesc }
    let s := ((s.drawCells r.copy.tenant [] n).putFrame id (some f)).takeRef id
    let s := ((s.count (cuXTR + 3)).countBy (cuXTR + 5) r.size).count (cuUSCH + 9)
    some ((s.appendCopy (listKey q 0) c).setQueueBytes q (s.queueBytes q + c.length))

/-- Records of a queue's tier part. -/
def State.tierCount (s : State) (q : Nat) : Nat := (s.tier q).foldl (fun n e => n + e.recs.length) 0

/-- A queue's tier part dropped at USCH 6, its extents freed (R271). -/
def State.releaseTier (q : Nat) (s : State) : State :=
  let n := (s.tier q).length
  ((s.countBy (cuUSCH + 6) (s.tierCount q)).countBy (cuXTR + 1) n).putTier q []

/-! Losses (R346, R347). -/

/-- The head record of a queue's tier part lost. -/
def State.loseRecord (q : Nat) (s : State) : State :=
  match takeRecord (s.tier q) with
  | none => s
  | some (_, chain, freed) =>
    ((((s.putTier q chain).countBy (cuXTR + 1) freed).count (cuXTR + 6)).raise pgXTR 0).backlogStep q

/-- The rest of a queue's tier part lost, its extents stranded; the backlog joins the served list. -/
def State.loseChain (q : Nat) (s : State) : State :=
  let c := s.tier q
  if c.isEmpty then s
  else
    let s := s.countBy (cuXTR + 6) (s.tierCount q)
    let s := s.modXtr (fun x => { x with stranded := c.foldl (fun m e => Sparse.put false e.id true m) x.stranded })
    (((s.putTier q []).raise pgXTR 0).joinBacklog q).showQueue q

/-- Does an extent lie outside the window that the CXL device's decoder is committed to (R475)? -/
def State.extentOutside (s : State) (e : Nat) : Bool :=
  let a := s.extentAddress e
  let w := s.hif.cxlWindow
  decide (a < w.1) || decide (w.1 + w.2 < a + 2 ^ 21)

/-- Does the head extent of a queue's chain lie outside the committed window, so that reads of its header and records end with
an error (R346, R475)? -/
def State.headOutside (s : State) (q : Nat) : Bool :=
  match s.tier q with
  | e :: _ => s.extentOutside e.id
  | [] => false

/-- Records drawn back while the served list is short, the pool is not low, and the tier answers; at most `n`. An extent outside
the committed window loses the rest of the chain. -/
def State.drawBack (q : Nat) : Nat → State → State
  | 0, s => s
  | n + 1, s =>
    if s.tierUp && decide (s.servedBytes q < s.bulkMarks.2) && decide (s.fld pgSTO STO.culletLowLow ≤ s.freeCells) then
      if s.headOutside q then s.loseChain q
      else match s.drawOne q with
      | some s => State.drawBack q n s
      | none => s
    else s

/-- Every queue's tier part lost, every extent freed; the event raises tier_loss. -/
def State.loseRecords (s : State) : State :=
  let qs := Sparse.keys s.xtr.tier
  let s := s.countBy (cuXTR + 1) s.extentsInUse.length
  let s := qs.foldl (fun s q => (s.countBy (cuXTR + 6) (s.tierCount q)).putTier q []) s
  let s := ((s.modXtr (fun x => { x with stranded := [] })).showTier).raise pgXTR 0
  qs.foldl (fun s q => s.backlogStep q) s

/-- The CXL link lost (R346). -/
def State.loseTier (s : State) : State := ((s.setFld pgXTR XTR.statusCxlUp 0).loseRecords).raise pgXTR 1

/-- A segment's records and stranded extents lost as its valid bit is cleared. -/
def State.loseSegment (g : Nat) (s : State) : State :=
  let mine := fun (e : Nat) => e / 32768 == g
  let qs := (s.xtr.tier.filter (fun x => x.2.any (fun e => mine e.id))).map (·.1)
  let s := s.countBy (cuXTR + 1) (s.extentsInUse.filter mine).length
  let s := s.modXtr (fun x => { x with stranded := x.stranded.filter (fun y => !mine y.1) })
  let s := qs.foldl (fun s q =>
    let gone := (s.tier q).filter (fun e => mine e.id)
    let s := s.countBy (cuXTR + 6) (gone.foldl (fun n e => n + e.recs.length) 0)
    (s.putTier q ((s.tier q).filter (fun e => !mine e.id))).joinBacklog q) s
  (s.iff (!qs.isEmpty) (State.raise pgXTR 0)).showTier

/-- The header of extent `i` of a queue's chain (Table 10.7): the next extent, the queue, its records, the bytes used. -/
def extentHeader (q : Nat) (es : List Extent) (i : Nat) : Bytes :=
  match es[i]? with
  | some e =>
    natLE 4 (match es[i + 1]? with | some x => x.id | none => 0) ++ natLE 2 (q % 4096) ++ natLE 4 e.recs.length ++
      natLE 4 e.used ++ List.replicate 50 0#8
  | none => []

/-- A record: the descriptor image, the frame's bytes, the padding (R343; the order of bytes is log entry 99). -/
def TierRec.layout (r : TierRec) : Bytes :=
  let bs := (descriptorWords r.copy 0 0 false).flatMap (fun w => natLE 4 w.toNat) ++ r.bytes
  bs ++ List.replicate (r.size - bs.length) 0#8

/-- The bytes of extent `i` of a queue's chain as far as they are used: its header twice, then its records (Table 10.7). -/
def extentBytes (q : Nat) (es : List Extent) (i : Nat) : Bytes :=
  extentHeader q es i ++ extentHeader q es i ++ (match es[i]? with | some e => e.recs.flatMap TierRec.layout | none => [])

/-- A segment entry written (R347). Entry 0, and a change of the base or the usable count of a segment in use, are
ignored with cause 0b01. -/
def State.segWrite (g : Nat) (ws : List Word) (s : State) : State :=
  let w := fun (i : Nat) => (ws[i]?.getD 0#32) &&& BitVec.ofNat 32 (tableMask .xtr 0 i)
  let moved := s.segInUse g && [1, 2, 3].any (fun i => w i != s.tw pgXTR 0 g i)
  if g = 0 ∨ moved = true then s.ignored pgXTR 0x020 1
  else
    let was := s.segValid g
    let s := s.putEntry pgXTR 0 g 0 ([0, 1, 2, 3].map w)
    (s.iff (was && !s.segValid g) (State.loseSegment g)).showTier

end Sys2Proof.Machine
end

