-- ==== Sys2Proof/Machine/ActOps.lean ====
section
/-! DEFINITION. One tree-mode machine's registration, tenants and allocations, and one transition of its mode (R190 to R194,
R205 to R208, R271). -/

namespace Sys2Proof.Machine

/-- The entry of KEEP table 1 that begins a tree's quarantine record: 16 bytes each of the 32 that Table 16.3 gives them. Bit 31
says that the record is present, [15:8] is the DISABLE reason, [2:0] the cause (log entry 120). -/
def quarEntry (t : Tree) : Nat := 0x20 + 4 * treeIx t

/-- A tree-mode machine's state, and its change. -/
def State.acts (s : State) (t : Tree) : ActSt := s.act.get t
def State.modActs (t : Tree) (f : ActSt → ActSt) (s : State) : State := s.modAct (fun p => p.mod t f)

/-- Is a mode a registered one: Ranging, Operational, Parked, Lifeline (R192)? -/
def registeredMode (m : Nat) : Bool := decide (3 ≤ m) && decide (m ≤ 6)

/-! The tree record (Table 6.7). -/

/-- The tree record's 32 bytes. -/
def State.treeRecord (s : State) (t : Tree) : Bytes := bytesBE (s.entry (pgACT t) 2 0 8)

/-- Bytes of the tree record set from `pos`. -/
def State.setRecord (t : Tree) (pos : Nat) (bs : Bytes) (s : State) : State :=
  let old := s.treeRecord t
  s.putEntry (pgACT t) 2 0 0 (wordsBE 8 (old.take pos ++ bs ++ old.drop (pos + bs.length)))

/-- head_end_id, tree_id, FC_dark of the tree record, and its flags byte. -/
def State.recordHe (s : State) (t : Tree) : Nat := fieldAt (s.treeRecord t) 0 6
def State.recordTree (s : State) (t : Tree) : Nat := fieldAt (s.treeRecord t) 6 4
def State.recordFcDark (s : State) (t : Tree) : Nat := fieldAt (s.treeRecord t) 12 6

/-! Tenants and allocations (R205 to R208, R271). -/

/-- The tenant an admission queue belongs to (R17, Table 10.5); none for the cores and the sampler. -/
def queueTenant (q : Nat) : Option Nat :=
  if q < downBase then some (q / 16)
  else
    let d := q - downBase
    if d < 65536 then some (d / 16 % 256) else if d < 69632 then some ((d - 65536) / 16) else none

/-- Does the store report every queue of the tenant empty (R206)? -/
def State.tenantEmpty (s : State) (n : Nat) : Bool :=
  (Sparse.keys s.sto.lists).all (fun k => queueTenant (k / 4) != some n) &&
    (Sparse.keys s.sto.qbytes).all (fun q => queueTenant q != some n)

/-- Is a tenant number free (R206)? -/
def State.tenantFree (s : State) (n : Nat) : Bool := !s.attached .a n && !s.attached .b n && s.tenantEmpty n

/-- The uid an attached tenant has on a tree (ACT table 0). -/
def State.tenantUid (s : State) (t : Tree) (n : Nat) : Nat :=
  (s.tw (pgACT t) 0 n 1).toNat + (s.tw (pgACT t) 0 n 2).toNat * 2 ^ 32

/-- The number of an attached tenant_uid on a tree, and on either tree. -/
def State.tenantOn (s : State) (t : Tree) (uid : Nat) : Option Nat :=
  (s.tblEntries (pgACT t) 0).find? (fun n => s.attached t n && s.tenantUid t n == uid)
def State.tenantNumber (s : State) (uid : Nat) : Option Nat :=
  match s.tenantOn .a uid with
  | some n => some n
  | none => s.tenantOn .b uid

/-- Is a local index bound on either tree (R208)? -/
def State.localBound (s : State) (a : Nat) : Bool := s.allocValid .a a || s.allocValid .b a

/-- The lowest free local index. -/
def State.localFree (s : State) : Option Nat := (List.range 1024).find? (fun a => !s.localBound a)

/-- Part-wide tenant numbers and local allocations in use: ACT_USE of both trees (R206, R218). -/
def State.tenantsUsed (s : State) : Nat := ((List.range 256).filter (fun n => !s.tenantFree n)).length
def State.allocsUsed (s : State) : Nat := ((List.range 1024).filter s.localBound).length

/-- A tenant's enabled services: the OR over both trees (R205). -/
def State.tenantServices (s : State) (n : Nat) : Nat :=
  let on := fun (t : Tree) => if s.attached t n then s.tf (pgACT t) 0 n 0 17 2 else 0
  on .a ||| on .b

/-- A tenant's bit of ACT_TENANT_EN. -/
def tenantEnFld (n : Nat) : Fld := ⟨0x074 + 4 * (n / 32 % 8), n % 32, n % 32⟩

/-- The copies of a list dropped as a released allocation drops them (R271): protected ones withdrawn, others counted at
USCH 6. -/
def State.releaseList (k : Nat) (s : State) : State :=
  (s.list k).foldl (fun s c =>
    if c.prot then (s.unlinkCopy k c).endProtected c (State.count (cuUSCH + 6)) else (s.unlinkCopy k c).endCopy (cuUSCH + 6) c) s

/-- The shared list of a queue emptied: its served list, its tier part, its backlog (R271, R344). -/
def State.releaseShared (q : Nat) (s : State) : State :=
  (((s.iff (!(s.tier q).isEmpty) (State.releaseTier q)).releaseList (listKey q 3)).releaseList (listKey q 0))

/-- A local allocation released: its lists on the tree emptied, and the shared lists that no allocation of the other tree
serves (R271). -/
def State.releaseAlloc (t : Tree) (a : Nat) (s : State) : State :=
  let qs := if s.allocMgmt t a then [] else s.allocQueues t a
  let s := qs.foldl (fun s q =>
    let s := s.releaseList (treeList t q)
    (s.iff (!s.treeServes (otherTree t) q) (State.releaseShared q)).showQueue q) s
  s.putEntry (pgACT t) 1 a 0 [0#32, 0#32]

/-- A tenant detached from a tree: its allocations released, its enable bit cleared, its attachment and line keys gone
(R207, R365). -/
def State.detachTenant (t : Tree) (n : Nat) (s : State) : State :=
  let s := ((s.allocs t).filter (fun a => !s.allocMgmt t a && s.allocTenant t a == n)).foldl (fun s a => s.releaseAlloc t a) s
  let s := (s.setFld (pgACT t) (tenantEnFld n) 0).putEntry (pgACT t) 0 n 0 (List.replicate 4 0#32)
  (s.clearTenantKeys t n).dropTenantMerge n

/-- A tenant attached to a tree, or its flag and services updated (R205). -/
def State.attachTenant (t : Tree) (n uid services : Nat) (lifeline : Bool) (s : State) : State :=
  let new := !s.attached t n
  let s := s.putEntry (pgACT t) 0 n 0 ([1 + b2n lifeline * 2 + services * 4, uid, uid / 2 ^ 32].map (BitVec.ofNat 32))
  s.iff new (State.setFld (pgACT t) (tenantEnFld n) 1)

/-- A local index bound. -/
def State.bindAlloc (t : Tree) (a id tenant services : Nat) (mgmt : Bool) (s : State) : State :=
  s.putEntry (pgACT t) 1 a 0 ([id + 2 ^ 16 + b2n mgmt * 2 ^ 17, tenant + services * 2 ^ 16].map (BitVec.ofNat 32))

/-! Registration (R194, R191). -/

/-- ACT_STATUS.control_wl and control_known (R191). -/
def State.showControl (t : Tree) (s : State) : State :=
  let c := s.controlRx t
  let wl := if s.registered t then s.fld (pgACT t) ACT.statusControlWl
    else match c with
      | some r => s.fld (pgFRM r) FRM.stateWlIndex
      | none => 0
  (s.setFld (pgACT t) ACT.statusControlKnown (b2n c.isSome)).setFld (pgACT t) ACT.statusControlWl wl

/-- The tree's management keys gone. -/
def State.dropMgmtKeys (t : Tree) (s : State) : State :=
  ((List.range 6).foldl (fun s k => s.putMgmtKey t k []) s).modActs t (fun a => { a with nonce := none })

/-- Registration forgotten, in the order of R194, with what follows it (R240, R365, R396). -/
def State.forget (t : Tree) (s : State) : State :=
  if !s.registered t then s
  else
    let p := pgACT t
    let s := s.setFld (pgHAL t) HAL.termIdValid 0
    let s := (((s.setFld p ACT.eqdEqd 0).setFld p ACT.eqdPendingEqd 0).setFld p ACT.eqdPendingPending 0).halRetime t
    let s := s.setFld p ACT.mgmtValid 0
    let s := (s.allocs t).foldl (fun s a => s.releaseAlloc t a) s
    let s := ((s.tblEntries p 0).filter (s.attached t)).foldl (fun s n => s.detachTenant t n) s
    let s := ((s.setFld p ACT.statusRegistered 0).setFld p ACT.statusKeyed 0).setFld p ACT.statusWarmPending 0
    let s := s.setRecord t 21 [BitVec.ofNat 8 (byteAt (s.treeRecord t) 21 / 2 * 2)]
    let s := ((s.raise p 3).clearTreeKeys t).dropMgmtKeys t
    let s := (s.frontForget t).putClaim t 0 0
    ((s.modActs t (fun a => { a with confirmed := false })).showControl t).dualJudge

/-! Modes (R192, R193, R209, R212). -/

/-- The payload receiver of a tree in Parked or Lifeline, where its control receiver is known. -/
def State.heldRx (s : State) (t : Tree) : Option Rx :=
  if s.mode t = 5 ∨ s.mode t = 6 then
    match s.controlRx t with
    | some r => some (if r = treeRx t 0 then treeRx t 1 else treeRx t 0)
    | none => none
  else none

/-- Is a receiver stopped as a payload receiver (R211, Table 6.1)? -/
def State.rxHeld (s : State) (r : Rx) : Bool := s.heldRx (rxTree r) == some r

/-- The payload receiver stops, or runs again, where the mode has changed which one it is. -/
def State.holdJudge (t : Tree) (old : Option Rx) (s : State) : State :=
  let new := s.heldRx t
  if new = old then s
  else
    let s := match old with
      | some r => s.iff (s.works (pgRX r)) (State.rxBegin r)
      | none => s
    match new with
    | some r => s.iff (s.works (pgRX r)) (fun s => ((s.iff (s.locked r) (State.raise (pgRX r) 3)).rxStopFigures r).frmUnlocked r)
    | none => s

/-- Entry to Dark (R192, R209): the record, then the warm window or forgetting. With `keep`, a disable or a freeze,
registration is kept and the warm window runs whatever warm_enable holds (R218, R543). -/
def State.darkEntry (keep : Bool) (t : Tree) (s : State) : State :=
  let p := pgACT t
  let fc := match s.controlRx t with
    | some r => (s.frms r).controlFc
    | none => s.recordFcDark t
  let s := (s.count (cuACT t + 1)).raise p 1
  let s := s.setRecord t 12 (natBE 6 fc ++ natBE 3 (s.fld p ACT.eqdEqd))
  if !s.registered t then s
  else if s.flag p ACT.statusShed then s.forget t
  else if s.flag p ACT.cfgWarmEnable || keep then s.setFld p ACT.statusWarmPending 1
  else (s.setFld p ACT.warmResult 6).forget t

/-- The upstream need of a tree noted as raised, or its condition false again, as when the tree leaves Parked (R267). -/
def State.setNeed (t : Tree) (on : Bool) (s : State) : State :=
  s.modUsch (fun u => match t with | .a => { u with needA := on } | .b => { u with needB := on })

/-- One transition, with what it raises and does (Table 6.2); the clocks follow in `modeStep`. -/
def State.modeCore (keep : Bool) (t : Tree) (m : Nat) (s : State) : State :=
  let p := pgACT t
  let old := s.mode t
  if old = m then s
  else
    let held := s.heldRx t
    let s := ((s.setFld p ACT.modeMode m).count (cuACT t)).raise p 0
    let s := (s.iff (m == 7) (State.raise p 6)).iff (old == 7) (State.raise p 7)
    let s := (s.iff (m == 6) (State.raise p 8)).iff (old == 6 && m == 4) (State.raise p 9)
    let s := (s.iff (m == 5) (State.raise p 10)).iff (old == 5 && m == 4) (State.raise p 11)
    let s := s.iff (old == 5) (State.setNeed t false)
    let s := s.iff (m == 5) (fun s => (s.closeWindow (treeRx t 0)).closeWindow (treeRx t 1))
    let s := s.iff (m == 0) (State.darkEntry keep t)
    let s := s.iff (m == 1 && registeredMode old) (State.forget t)
    let s := s.modActs t (fun a => { a with ranged := false, confirmed := a.confirmed && m == 3, wakeDue := false })
    ((((s.holdJudge t held).refreshPolicy t).dualJudge).showControl t).iff (m == 6 || old == 6) State.refreshPorts

/-- A tree whose region freezes goes to Dark and keeps its registration (R543). -/
def State.darkKeep (t : Tree) (s : State) : State :=
  if s.mode t = 0 ∨ s.mode t = 7 then s else s.modeCore true t 0

end Sys2Proof.Machine
end

