-- ==== Sys2Proof/Machine/ClkOps.lean ====
section
/-! DEFINITION. The clock judge and what a change of clock does (R90, R538 to R546). -/

namespace Sys2Proof.Machine

/-! Candidates: 1 to 4 the receivers, 5 the host reference. -/

/-- The receiver of a candidate. -/
def candRx : Nat → Option Rx
  | 1 => some .a0
  | 2 => some .a1
  | 3 => some .b0
  | 4 => some .b1
  | _ => none

/-- The candidate of a receiver. -/
def rxCand (r : Rx) : Nat := 1 + rxIx r

/-- Is a candidate offered? A receiver offers its clock while it is locked (R90). -/
def State.clkOffered (s : State) (k : Nat) : Bool :=
  match candRx k with
  | some r => s.locked r
  | none => k == 5

/-- The expected count of a gate (Table 16.4). -/
def gateExpected (k : Nat) : Nat := if k = 5 then 3125000 else 4860000

/-- Is a gate's count in window (R538)? -/
def State.gateInWindow (s : State) (k count : Nat) : Bool :=
  let e := gateExpected k
  let d := if e ≤ count then count - e else e - count
  let ppm := if s.flag pgCLK CLK.statusKoscTrimmed then s.fld pgCLK CLK.judgeTol
    else 1000 * s.fld pgCLK CLK.judgeUntrimmedTol
  decide (d * 1000000 ≤ e * ppm)

/-- Consecutive gates in window of a candidate (CLK table 0). -/
def State.gateRun (s : State) (k : Nat) : Nat := s.tf pgCLK 0 (k - 1) 1 20 17

/-- CLK_STATUS.good and CLK table 0 take a judgement. -/
def State.setClkGood (k : Nat) (on : Bool) (s : State) : State :=
  let s := (s.setFld pgCLK ⟨0x030, 16 + k - 1, 16 + k - 1⟩ (b2n on)).setTf pgCLK 0 (k - 1) 1 16 16 (b2n on)
  s.iff on (fun s => s.modClk (fun c => { c with since := Sparse.put 0 k s.now c.since }))

/-! Choice (R540, R541). -/

/-- The candidates of a tree in the order of R540. -/
def State.treeOrder (s : State) (t : Tree) : List Nat :=
  let a := rxCand (treeRx t 0)
  let b := rxCand (treeRx t 1)
  match s.controlRx t with
  | some r => if r = treeRx t 0 then [a, b] else [b, a]
  | none => [a, b]

/-- CLK_STATUS.tree_a, tree_b. -/
def treeClkFld : Tree → Fld
  | .a => CLK.statusTreeA
  | .b => CLK.statusTreeB
def State.treeClk (s : State) (t : Tree) : Nat := s.fld pgCLK (treeClkFld t)

/-- Has a candidate been good for CLK_WTR.wtr: by the timeline, or because its expiry says so? -/
def State.clkWaited (s : State) (expired : Option Nat) (k : Nat) : Bool :=
  expired == some k ||
    decide (Sparse.get 0 s.clk.since k + s.fld pgCLK CLK.wtrWtr * 100 * symPerMs ≤ s.now)

/-- The source taken from an order, `cur` being in use: none in use or lost, the highest good one at once; otherwise a
higher one only after its wait (R541). -/
def State.clkChoose (s : State) (expired : Option Nat) (order : List Nat) (cur : Nat) : Nat :=
  let good := order.filter s.clkGood
  if !good.contains cur then good.headD 0
  else match (good.takeWhile (· ≠ cur)).find? (s.clkWaited expired) with
    | some k => k
    | none => cur

/-- The order of the part clock: the primary tree's clock, the other tree's, the host reference (R540). -/
def State.partOrder (s : State) : List Nat :=
  let h := s.homeTree
  ([s.treeClk h, s.treeClk (otherTree h)].filter (· ≠ 0)) ++ [5]

/-- The part clock's source. -/
def State.partClk (s : State) : Nat := s.fld pgCLK CLK.statusPartSource

/-- May a trim window be taken: the part clock is a receiver whose framer shows header SYNC (R546)? -/
def State.trimSource (s : State) : Bool :=
  match candRx s.partClk with
  | some r => s.hdrSync r
  | none => false

/-- The trim window in progress is broken (R546 step 4). -/
def State.breakTrim (s : State) : State := s.modClk (fun c => { c with trimBroken := true })

/-! What follows a choice. -/

/-- A line region freezes (R543 items 1 to 4, 6). One that starts frozen is not counted. -/
def State.freeze (t : Tree) (s : State) : State :=
  let s := ((s.setFld pgCLK (match t with | .a => CLK.statusFrozenA | .b => CLK.statusFrozenB) 1).count (cuCLK + 6)).raise
    pgCLK 7
  (s.clockForce t).darkKeep t

/-- A framer restarts from HUNT; its LOS stands again where its receiver is not locked (R149, R543 item 5). -/
def State.frmRestart (r : Rx) (s : State) : State :=
  if s.works (pgFRM r) then (s.alignHunt r).iff (!s.locked r) (State.losDeclare r) else s

/-- A tree's framers have restarted: its halyard source, its control receiver and dual homing follow (R171, R191). -/
def State.framersMoved (t : Tree) (s : State) : State := ((s.halJudge t).showControl t).dualJudge

/-- A line region restarts (R543 item 5). -/
def State.unfreeze (t : Tree) (s : State) : State :=
  let s := s.setFld pgCLK (match t with | .a => CLK.statusFrozenA | .b => CLK.statusFrozenB) 0
  let s := ((s.frmRestart (treeRx t 0)).frmRestart (treeRx t 1)).framersMoved t
  ((s.suppressPassed t).showForce t).refreshPolicy t

/-- A tree clock changes (R541): counted and raised; without one the transmitter is forced (R107). -/
def State.moveTreeClk (t : Tree) (new : Nat) (s : State) : State :=
  let old := s.treeClk t
  if old = new then s
  else
    let s := ((s.setFld pgCLK (treeClkFld t) new).count (cuCLK + 1)).raise pgCLK 0
    let s := s.iff (old != 0 && !s.clkGood old) (State.raise pgCLK 1)
    if new = 0 then s.clockForce t else s.txClockBack t

/-- The part clock changes (R541); the time engine judges its source again (R28). -/
def State.movePartClk (new : Nat) (s : State) : State :=
  let old := s.partClk
  if old = new then s
  else
    let s := (((s.setFld pgCLK CLK.statusPartSource new).count cuCLK).raise pgCLK 0).breakTrim
    let s := s.iff (old != 0 && !s.clkGood old) (State.raise pgCLK 1)
    (s.iff (new == 0) (State.raise pgCLK 2)).timeJudge

/-- A forced source that is no longer good gives way (R542). -/
def State.forceLost (s : State) : State :=
  let f := s.fld pgCLK CLK.selForce
  if s.flag pgCLK CLK.statusForced && !s.clkGood f then
    ((s.setFld pgCLK CLK.selForce 0).setFld pgCLK CLK.statusForced 0).raise pgCLK 4
  else s

/-- Frozen regions judged: a line region with no tree clock, on no receiver clock, is frozen (R543). -/
def State.freezeJudge (t : Tree) (s : State) : State :=
  let want := s.treeClk t == 0 && !s.partOnRx
  if want && !s.frozen t then s.freeze t
  else if !want && s.frozen t then s.unfreeze t
  else s

/-- Is CLKREQ# kept asserted (R468)? -/
def State.clkreqKept (s : State) : Bool :=
  !s.anyRxClock || (s.flag pgHIF HIF.formForm && s.flag pgHIF HIF.cxlStatusLinkUp)

/-- While CLKREQ# is kept asserted the host link is in no substate of L1: pm_state shows L1 (R468). -/
def State.linkPmJudge (s : State) : State :=
  let pm := s.fld pgHIF HIF.linkStatusPmState
  s.iff (s.clkreqKept && (pm == 2 || pm == 3)) (State.setFld pgHIF HIF.linkStatusPmState 1)

/-- The clocks judged again (R540 to R543): `expired` is a candidate whose wait to restore has just passed. The S-die
regions that a clock-loss reset holds are released once a candidate is good (R544). Continuous test follows the candidates that
are good (R106). -/
def State.clkJudgeWith (expired : Option Nat) (s : State) : State :=
  let s := s.moveTreeClk .a (s.clkChoose expired (s.treeOrder .a) (s.treeClk .a))
  let s := s.moveTreeClk .b (s.clkChoose expired (s.treeOrder .b) (s.treeClk .b))
  let s := s.forceLost
  let part := if s.flag pgCLK CLK.statusForced then s.fld pgCLK CLK.selForce
    else s.clkChoose expired s.partOrder s.partClk
  let s := s.movePartClk part
  let s := (s.freezeJudge .a).freezeJudge .b
  let s := s.iff (s.treeClk .a != 0) (State.txClockBack .a)
  let s := (s.iff (s.treeClk .b != 0) (State.txClockBack .b)).foutJudge
  ((s.refreshPolicy .a).refreshPolicy .b).linkPmJudge

/-- The clocks judged again. -/
def State.clkJudge (s : State) : State := s.clkJudgeWith none

/-- A candidate's offer withdrawn, or its edges gone: not good at once, and a fall is counted (R539). -/
def State.clkLose (k : Nat) (s : State) : State :=
  let was := s.clkGood k
  let s := (s.setTf pgCLK 0 (k - 1) 1 20 17 0).setClkGood k false
  if was then (s.count (cuCLK + 2)).clkJudge else s

/-- A gate of 1,024 K-oscillator cycles ends with a count (R538, R539, R558). -/
def State.gateEnd (k count : Nat) (s : State) : State :=
  let e := gateExpected k
  let ofs := clampInt (-32768) 32767 (roundDiv (((count : Int) - e) * 10000000) e)
  let s := (s.putTw pgCLK 0 (k - 1) 0 (BitVec.ofNat 32 count)).setTf pgCLK 0 (k - 1) 1 15 0 (unsigned 16 ofs)
  if s.gateInWindow k count then
    let run := min 15 (s.gateRun k + 1)
    let s := s.setTf pgCLK 0 (k - 1) 1 20 17 run
    if !s.clkGood k && decide (max 1 (s.fld pgCLK CLK.judgeGoodCount) ≤ run) then (s.setClkGood k true).clkJudge
    else s
  else s.clkLose k

/-- After a change of a tree's mode or of the primary role: a receiver that is no longer locked withdraws its offer (R90), and
the clocks are judged again (R242, R541). -/
def State.clkFollow (s : State) : State :=
  ([1, 2, 3, 4].foldl (fun s k => s.iff (s.clkGood k && !s.clkOffered k) (State.clkLose k)) s).clkJudge

end Sys2Proof.Machine
end

