-- ==== Sys2Proof/Machine/ModeOps.lean ====
section
/-! DEFINITION. One tree-mode machine (R190 to R221): its modes, EqD, notices, the terminal-management channel (R196 to R201),
and what a change of a receiver or framer does to its tree. -/

namespace Sys2Proof.Machine

/-- One transition (Table 6.2), and the clocks after it. -/
def State.modeStep (t : Tree) (m : Nat) (s : State) : State := if s.mode t = m then s else (s.modeCore false t m).clkFollow

/-- Is the tree kept on battery (R212)? -/
def State.keptOnBattery (s : State) (t : Tree) : Bool :=
  s.flag pgSUP SUP.statusBattery &&
    (s.flag (pgACT t) ACT.cfgLifelineKeep || s.flag (pgACT t) ACT.statusLifelineSubstituted)

/-- The Lehr trim of a transmitter set (R103, R104). -/
def State.setTrim (t : Tree) (v : Int) (s : State) : State :=
  (((s.setSFld (pgTX t) TX.launchStatusLehrTrim v).modTxs t (fun x => { x with trimDue := none })).noteLaunch t).noteHalLevel t

/-- The mode set: a tree that reaches Operational takes a trim that waited for it (R576), and while it is kept on battery
enters Lifeline at once (R193). -/
def State.setMode (t : Tree) (m : Nat) (s : State) : State :=
  let s := s.modeStep t m
  let s := match s.mode t == 4, (s.txs t).trimDue with
    | true, some v => s.setTrim t v
    | _, _ => s
  if s.mode t = 4 ∧ s.keptOnBattery t = true then s.modeStep t 6 else s

/-- Hardware's transition to Dark: from every mode but Quarantine (R192). -/
def State.enterDark (t : Tree) (s : State) : State :=
  if s.mode t = 0 ∨ s.mode t = 7 then s else s.setMode t 0

/-- A tree whose page is disabled goes to Dark and keeps its registration (R218). In Dark already, the laser policy is judged
again, since Continuous test asks whether the page is enabled (R106). -/
def State.enterDarkKeep (t : Tree) (s : State) : State :=
  if s.mode t = 0 ∨ s.mode t = 7 then s.refreshPolicy t else (s.darkKeep t).clkFollow

/-- May a write take mode `old` to `new` (Table 6.2, R193)? -/
def modeWriteOk (old new : Nat) : Bool :=
  if new = 7 then true
  else if old = 7 then false
  else if new = 0 then true
  else match old, new with
    | 0, 1 => true
    | 1, 2 => true
    | 1, 3 => true
    | 2, 1 => true
    | 2, 3 => true
    | 3, 4 => true
    | 3, 1 => true
    | 4, 5 => true
    | 4, 6 => true
    | 4, 1 => true
    | 5, 4 => true
    | 5, 6 => true
    | 5, 1 => true
    | 6, 4 => true
    | 6, 1 => true
    | _, _ => false

/-- The keep RAM record of Quarantine takes the cause and the DISABLE reason that ACT_QUAR shows (R217). -/
def State.recordQuarantine (t : Tree) (s : State) : State :=
  let p := pgACT t
  s.putTw pgKEEP 1 (quarEntry t) 0 (BitVec.ofNat 32 (2 ^ 31 + s.fld p ACT.quarReason * 2 ^ 8 + s.fld p ACT.quarCause))

/-- Entry to Quarantine with a cause and, for a DISABLE, its reason; the keep RAM record (R193, R217). A later rogue event
or lost majority leaves the cause of a DISABLE. -/
def State.quarantine (t : Tree) (cause reason : Nat) (s : State) : State :=
  let p := pgACT t
  let keep := cause != 1 && s.mode t == 7 && s.fld p ACT.quarCause == 1
  let s := s.iff (!keep) (fun s =>
    (s.setFld p ACT.quarCause cause).setFld p ACT.quarReason (if cause = 1 then reason else s.fld p ACT.quarReason))
  (s.recordQuarantine t).setMode t 7

/-- Quarantine left: force, latch, registration and record cleared, then Listening (R217). ACT_QUAR.cause is then none;
rogue_cause and the last DISABLE's reason stay. -/
def State.leaveQuarantine (t : Tree) (s : State) : State :=
  let s := (s.setFld (pgACT t) ACT.quarCause 0).putTw pgKEEP 1 (quarEntry t) 0 0#32
  ((s.clearRogue t).forget t).setMode t 1

/-- The ACT page does its work: enabled, alive. -/
def State.actWorks (s : State) (t : Tree) : Bool := s.works (pgACT t)

/-! EqD (R203). -/

/-- An EqD made pending at apply_fc; one less than two frames ahead of the carrying frame applies from the second frame
after it, and its application counts as late. -/
def State.setEqdPending (t : Tree) (eqd apply carried : Nat) (s : State) : State :=
  let d := (apply + 2 ^ 32 - carried % 2 ^ 32) % 2 ^ 32
  let late := decide (2 ^ 31 ≤ d) || decide (d < 2)
  let s := (s.setFld (pgACT t) ACT.eqdPendingEqd eqd).setFld (pgACT t) ACT.eqdPendingPending 1
  let s := s.setFld (pgACT t) ACT.applyFcApplyFc (if late then carried + 2 else apply)
  (s.modActs t (fun a => { a with lateEqd := late })).halRetime t

/-- The pending EqD applies: ACT_EQD, the tree record, and, after a RANGE_CONFIRM, Operational (R202, R203). -/
def State.applyEqd (t : Tree) (s : State) : State :=
  let p := pgACT t
  let e := s.fld p ACT.eqdPendingEqd
  let s := ((s.setFld p ACT.eqdEqd e).setFld p ACT.eqdPendingEqd 0).setFld p ACT.eqdPendingPending 0
  let s := (s.setRecord t 18 (natBE 3 e)).raise p 12
  let s := s.iff (s.acts t).lateEqd (State.count (cuACT t + 19))
  let go := s.mode t == 3 && (s.acts t).confirmed && s.firmware
  (s.modActs t (fun a => { a with confirmed := a.confirmed && !s.firmware, lateEqd := false })).iff go (State.setMode t 4)

/-- The frame counter [31:0] of the tree's control receiver. -/
def State.treeFc (s : State) (t : Tree) : Nat :=
  match s.controlRx t with
  | some r => s.fld (pgFRM r) FRM.fcFcLo
  | none => 0

/-! TMC messages (R196 to R201). -/

/-- The frame counter of a message in hand: that of the oldest fragment with its bytes which firmware has not handled, or, where
none stands in the ring, of the fragment received last (R141, R367; log entry 103). -/
def State.tmcFcOf (s : State) (t : Tree) (m : TmcIn) : Nat :=
  match (s.acts t).inbox.find? (fun x => x.2 == m.bytes) with
  | some x => x.1
  | none => (s.acts t).tmcFc

/-- Firmware takes a message from its ring: it, and none after it with the same bytes. -/
def State.tmcTake (t : Tree) (m : TmcIn) (s : State) : State :=
  s.modActs t (fun a => { a with inbox := a.inbox.eraseP (fun x => x.2 == m.bytes) })

/-- A TMC message's parts. -/
structure TmcMsg where
  term : Nat
  kind : Nat
  auth : Bool
  response : Bool
  trans : Nat
  body : Bytes
  /-- What the tag covers, and the tag. -/
  covered : Bytes
  tag : Bytes
  lengthOk : Bool
  deriving DecidableEq, Repr

/-- A message read from its bytes (Table 6.4). -/
def tmcMsg (bs : Bytes) : TmcMsg :=
  let auth := (byteAt bs 3).testBit 7
  let n := fieldAt bs 6 2
  { term := fieldAt bs 0 2, kind := byteAt bs 2, auth := auth, response := (byteAt bs 3).testBit 6,
    trans := fieldAt bs 4 2, body := (bs.drop 8).take n, covered := bs.take (8 + n),
    tag := (bs.drop (8 + n)).take 16, lengthOk := decide (bs.length = 8 + n + (if auth then 16 else 0)) }

/-- A message's eight header bytes. -/
def tmcHeader (term kind : Nat) (auth response : Bool) (trans len : Nat) : Bytes :=
  natBE 2 term ++ natBE 1 kind ++ natBE 1 (b2n auth * 128 + b2n response * 64) ++ natBE 2 trans ++ natBE 2 len

/-- Is a message addressed to this terminal (R197)? -/
def State.tmcAddressed (s : State) (t : Tree) (x : TmcMsg) : Bool :=
  (s.flag (pgHAL t) HAL.termIdValid && x.term == s.fld (pgHAL t) HAL.termTerminalId) || x.term == 0xFFFF ||
    (x.term == 0xFFFE && fieldAt x.body 0 8 == s.serial t)

/-- Is the tree keyed? -/
def State.keyed (s : State) (t : Tree) : Bool := s.flag (pgACT t) ACT.statusKeyed

/-- The types that need no auth: REGISTER, DISABLE, ENABLE and the key exchange (R199). -/
def tmcNoAuth (kind : Nat) : Bool := kind == 1 || kind == 5 || kind == 6 || kind / 16 == 3

/-- Types sent by serial (Table 6.5). -/
def tmcBySerial (kind : Nat) : Bool := kind == 1 || kind == 5 || kind == 6

/-- Types that have no response: DEACTIVATE, DISABLE, ENABLE (Table 6.5). -/
def tmcSilent (kind : Nat) : Bool := decide (4 ≤ kind) && decide (kind ≤ 6)

/-- The defined types (Tables 6.5, 7.3, 11.2, 12.2). -/
def tmcDefined (kind : Nat) : Bool :=
  [0x01, 0x02, 0x03, 0x04, 0x05, 0x06, 0x07, 0x08, 0x10, 0x11, 0x12, 0x13, 0x20, 0x21, 0x30, 0x31, 0x32, 0x40, 0x41, 0x42,
   0x50, 0x51].contains kind

/-- Modes in which a type is accepted (the same tables). -/
def tmcAccepted (kind m : Nat) : Bool :=
  match kind with
  | 0x01 => m == 2
  | 0x02 => m == 3
  | 0x03 => m == 4 || m == 6
  | 0x04 => registeredMode m
  | 0x05 => m != 0
  | 0x06 => m == 7
  | 0x07 => m == 4
  | 0x08 => registeredMode m
  | 0x10 => m == 4 || m == 6
  | 0x11 => m == 4 || m == 6
  | 0x12 => m == 4 || m == 6
  | 0x13 => m == 4 || m == 6
  | 0x30 => registeredMode m
  | 0x31 => registeredMode m
  | 0x32 => carryMode m
  | 0x40 => carryMode m
  | 0x42 => m == 4 || m == 6
  | 0x50 => carryMode m
  | 0x51 => carryMode m
  | _ => false

/-- A body length a type allows (the same tables). -/
def tmcBodyOk (kind : Nat) (b : Bytes) : Bool :=
  match kind with
  | 0x01 => b.length == 24
  | 0x02 => b.length == 16
  | 0x03 => b.length == 14
  | 0x04 => b.length == 4
  | 0x05 => b.length == 12
  | 0x06 => b.length == 8
  | 0x07 => b.length == 6
  | 0x08 => b.length == 0
  | 0x10 => b.length == 12
  | 0x11 => b.length == 8
  | 0x12 => b.length == 12
  | 0x13 => b.length == 2
  | 0x30 => b.length == 115 + fieldAt b 113 2 + 96 && decide (1 ≤ fieldAt b 113 2) && decide (fieldAt b 113 2 ≤ 1024)
  | 0x31 => b.length == 16
  | 0x32 => b.length == 60
  | 0x40 => b.length == 16
  | 0x42 => b.length == 12
  | 0x50 => b.length == 36
  | 0x51 => b.length == 22
  | _ => true

/-- Where firmware places the message of a tree's send queue entry in shared SRAM (log entry 33). -/
def tmcSlotAddr (t : Tree) (e : Nat) : Nat := 0x7C0000 + (treeIx t * 64 + e) * 2048

/-- Bytes written to shared SRAM. -/
def State.putSram : Nat → Bytes → State → State
  | _, [], s => s
  | a, b :: bs, s => State.putSram (a + 1) bs (s.modSram (Sparse.put 0#8 a b))

/-- A message placed and submitted to the send queue; none where the queue is full. -/
def State.tmcQueue (t : Tree) (cls : Nat) (bytes : Bytes) (s : State) : State × Bool :=
  match s.tmcFree t with
  | some e => ((s.putSram (tmcSlotAddr t e) bytes).tmcSubmit t e bytes.length cls (tmcSlotAddr t e), true)
  | none => (s, false)

/-- A whole upstream message: header, body, and room for the tag that its burst computes. -/
def State.tmcBuild (s : State) (t : Tree) (kind trans : Nat) (auth response : Bool) (body : Bytes) : Bytes :=
  tmcHeader (s.fld (pgHAL t) HAL.termTerminalId) kind auth response trans body.length ++ body ++
    (if auth then List.replicate 16 0#8 else [])

/-- The terminal's own request: auth once keyed (R199). -/
def State.tmcRequest (t : Tree) (kind trans cls : Nat) (body : Bytes) (s : State) : State :=
  let s := (s.tmcQueue t cls (s.tmcBuild t kind trans (s.keyed t) false body)).1
  s.modActs t (fun a => { a with sentReqs := (kind, trans) :: a.sentReqs })

/-- Does a response path exist: a management allocation in a registered mode (R198, R200)? -/
def State.tmcPath (s : State) (t : Tree) : Bool := s.flag (pgACT t) ACT.mgmtValid && registeredMode (s.mode t)

/-- A response queued; one that the full queue refuses is counted as discarded unsent (R198). -/
def State.tmcReply (t : Tree) (bytes : Bytes) (s : State) : State :=
  let x := s.tmcQueue t 2 bytes
  if x.2 then x.1 else x.1.count (cuACT t + 12)

/-- The response kept for a repeat of the request (R198). -/
def State.tmcRemember (t : Tree) (kind trans : Nat) (resp : Option Bytes) (s : State) : State :=
  s.modActs t (fun a => { a with
    requests := (kind, trans, s.now, resp) :: a.requests.filter (fun r => r.1 != kind) })

/-- A request answered: code, then `rest`, with auth as given. -/
def State.tmcAnswer (t : Tree) (x : TmcMsg) (auth : Bool) (code : Nat) (rest : Bytes) (s : State) : State :=
  let bytes := s.tmcBuild t x.kind x.trans auth true (natBE 1 code ++ rest)
  (s.tmcReply t bytes).tmcRemember t x.kind x.trans (some bytes)

/-- What a request's execution answers: nothing, a refusal that is only counted, or a code with what follows it. -/
inductive Reply where
  | silent
  | refused
  | code (c : Nat) (rest : Bytes)
  /-- As `code`, without auth. -/
  | plain (c : Nat) (rest : Bytes)
  deriving DecidableEq, Repr

/-- Is a request a repeat of the previous one of its type within 1 s (R198)? -/
def State.tmcRepeat (s : State) (t : Tree) (x : TmcMsg) : Option (Option Bytes) :=
  match (s.acts t).requests.find? (fun r => r.1 == x.kind) with
  | some (_, tr, at0, resp) => if tr = x.trans ∧ s.now < at0 + 1000 * symPerMs then some resp else none
  | none => none

/-- Does a keyed tree drop the request for its authentication (R199)? A KEY_CONFIRM is judged by R370. -/
def State.tmcAuthBad (s : State) (t : Tree) (fc : Nat) (x : TmcMsg) : Bool :=
  s.keyed t && x.kind != 0x31 &&
    (if x.auth then x.tag != tmcTag (s.mgmtKey t 0) fc x.covered else !tmcNoAuth x.kind)

/-- A downstream request received: address, authentication, repeat, length, mode, and then its execution (R197 to
R200). -/
def State.tmcReceive (t : Tree) (m : TmcIn) (run : TmcMsg → State → State × Reply) (s : State) : State :=
  let x := tmcMsg m.bytes
  let cu := cuACT t
  let fc := s.tmcFcOf t m
  let s := s.iff s.firmware (State.tmcTake t m)
  if !s.firmware || !s.actWorks t || x.response then s
  else if !s.tmcAddressed t x then s.count (cu + 10)
  else
    let s := s.count (cu + 6)
    if s.tmcAuthBad t fc x then (s.count (cu + 9)).raiseMs (pgACT t) 17
    else match s.tmcRepeat t x with
      | some resp =>
        let s := (s.count (cu + 8)).tmcRemember t x.kind x.trans resp
        match resp with
        | some b => s.tmcReply t b
        | none => s
      | none =>
        let path := s.tmcPath t
        let s := s.tmcRemember t x.kind x.trans none
        let rest := if x.kind = 0x10 then natBE 1 0 else []
        let deny := fun (c : Nat) (s : State) => if path then s.tmcAnswer t x (s.keyed t) c rest else s.count (cu + 10)
        if !x.lengthOk then deny 1 s
        else if !tmcDefined x.kind then deny 2 s
        else if !tmcAccepted x.kind (s.mode t) then
          (if tmcBySerial x.kind then s.count (cu + 10) else deny 3 s)
        else if !tmcBodyOk x.kind x.body then (if tmcSilent x.kind then s.count (cu + 10) else deny 1 s)
        else
          let y := run x s
          match y.2 with
          | .silent => y.1.count (cu + 7)
          | .refused => y.1.count (cu + 10)
          | .code c rest => (y.1.iff (c == 0) (State.count (cu + 7))).tmcAnswer t x (y.1.keyed t) c rest
          | .plain c rest => y.1.tmcAnswer t x false c rest

/-- A row's own message: a request of another type is not this event. -/
def State.tmcKind (t : Tree) (m : TmcIn) (kind : Nat) (run : TmcMsg → State → State × Reply) (s : State) : State :=
  if (tmcMsg m.bytes).kind = kind then s.tmcReceive t m run else s

/-! Notices (R213 to R215). -/

/-- May a tree send notices? -/
def State.noticeOk (s : State) (t : Tree) : Bool := registeredMode (s.mode t) && !s.flag (pgACT t) ACT.statusShed

/-- ACT_NOTICE shows the latest notice. -/
def State.showNotice (t : Tree) (s : State) : State :=
  match (s.acts t).notices.head? with
  | some n =>
    let p := pgACT t
    ((s.setFld p ACT.noticeNoticeId n.id).setFld p ACT.noticeCause n.cause).setFld p ACT.noticeAcked (b2n n.acked)
  | none => s

/-- The notices of a tree changed. -/
def State.modNotice (t : Tree) (id : Nat) (f : Notice → Notice) (s : State) : State :=
  (s.modActs t (fun a => { a with notices := a.notices.map (fun n => if n.id = id then f n else n) })).showNotice t

/-- A notice submitted as a TMC NOTICE at the head of the management allocation. -/
def State.sendNotice (t : Tree) (n : Notice) (s : State) : State :=
  let body := natBE 2 n.id ++ natBE 1 n.cause ++ natBE 1 0 ++ natBE 4 n.fc
  (s.tmcRequest t 0x20 n.id 0 body).modNotice t n.id (fun n => { n with waiting := true, held := false })

/-- A notice that has been held goes once the on-battery notice before it has had its first transmission. -/
def State.releaseHeld (t : Tree) (s : State) : State :=
  let waits := fun (i : Nat) => (s.acts t).notices.any (fun n => n.id == i && !n.sent)
  ((s.acts t).notices.filter (fun n => n.held && !waits n.after)).foldl (fun s n => s.sendNotice t n) s

/-- The first transmission of a notice has ended. -/
def State.noticeSent (t : Tree) (id : Nat) (s : State) : State :=
  (s.modNotice t id (fun n => { n with sent := true, waiting := false })).releaseHeld t

/-- Is nothing left to do for a notice: sent, and acknowledged, a dying gasp, or with its retries used up? -/
def State.noticeOver (s : State) (t : Tree) (n : Notice) : Bool :=
  n.sent && (n.acked || n.cause == 1 || decide (s.fld (pgACT t) ACT.timerCNoticeRetries < n.retries))

/-- A notice created on both trees with one id (R213): held on a tree where the on-battery notice just before a restored one
has not been sent; a tree that cannot send a dying gasp is counted (R215). Notices that are over are kept no longer. -/
def State.createNotice (cause : Nat) (s : State) : State :=
  let id := s.noticeNext
  let s := s.modNoticeNext (fun n => (n + 1) % 65536)
  [Tree.a, Tree.b].foldl (fun s t =>
    if s.noticeOk t then
      let before := if cause = 3 then (s.acts t).notices.find? (fun n => n.cause == 2) else none
      let hold := before.any (fun n => !n.sent)
      let n : Notice := { id := id, cause := cause, fc := s.treeFc t, held := hold, waiting := !hold,
                          after := (before.map Notice.id).getD 0 }
      let s := (s.modActs t (fun a => { a with notices := n :: a.notices.filter (fun n => !s.noticeOver t n) })).showNotice t
      let s := (s.setFld (pgACT t) ACT.noticeViaTmc 0).setFld (pgACT t) ACT.noticeViaHalyard 0
      s.iff (!hold) (State.sendNotice t n)
    else s.iff (cause == 1) (State.count (cuACT t + 17))) s

/-- A notice acknowledged. -/
def State.ackNotice (t : Tree) (id : Nat) (s : State) : State :=
  if (s.acts t).notices.any (fun n => n.id == id && !n.acked) then
    (s.modNotice t id (fun n => { n with acked := true, waiting := false })).raise (pgACT t) 16
  else s

/-- TMC messages that a burst has sent: responses counted, notices shown and raised (R198, R215). -/
def State.tmcSent (t : Tree) (es : List Nat) (s : State) : State :=
  es.foldl (fun s e =>
    match s.tmcClass t e with
    | 2 => s.count (cuACT t + 11)
    | 0 =>
      let id := fieldAt (s.sramBytes (s.tmcAddr t e) 8) 4 2
      let s := (s.count (cuACT t + 15)).raise (pgACT t) 15
      (s.iff (s.fld (pgACT t) ACT.noticeNoticeId == id) (State.setFld (pgACT t) ACT.noticeViaTmc 1)).noticeSent t id
    | _ => s) s

/-- A management burst has started: the notices in it no longer wait for one (R213). -/
def State.noticeBurst (t : Tree) (es : List Nat) (s : State) : State :=
  (es.filter (fun e => s.tmcClass t e == 0)).foldl (fun s e =>
    s.modNotice t (fieldAt (s.sramBytes (s.tmcAddr t e) 8) 4 2) (fun n => { n with waiting := false })) s

/-- gasp_wait has passed: the notices still waiting go as halyard NOTICEs too (R213). -/
def State.gaspWait (t : Tree) (s : State) : State :=
  if !s.noticeOk t then s
  else ((s.acts t).notices.filter (fun n => n.waiting && !n.acked && !n.held)).foldl (fun s n =>
    (s.modNotice t n.id (fun n => { n with waiting := false })).halSend t 0x23 0 0 0 0
      (natBE 2 (s.fld (pgHAL t) HAL.termTerminalId) ++ natBE 2 n.id ++ natBE 1 n.cause ++ natBE 1 0 ++ natBE 4 n.fc ++
        natBE 2 0)) s

/-- notice_retry has passed: unacknowledged notices but dying gasps go again, or are counted after the last retry
(R213). -/
def State.noticeRetry (t : Tree) (s : State) : State :=
  if !s.noticeOk t then s
  else
    let again := (s.acts t).notices.filter (fun n => !n.acked && !n.held && n.cause != 1 &&
      decide (n.retries ≤ s.fld (pgACT t) ACT.timerCNoticeRetries))
    again.foldl (fun s n =>
      if n.retries < s.fld (pgACT t) ACT.timerCNoticeRetries then
        (s.modNotice t n.id (fun n => { n with retries := n.retries + 1 })).sendNotice t n
      else (s.modNotice t n.id (fun n => { n with retries := n.retries + 1 })).count (cuACT t + 17)) s

/-- A halyard NOTICE has left the pins whole (R215). -/
def State.halNoticeSent (t : Tree) (payload : Bytes) (s : State) : State :=
  let id := fieldAt payload 2 2
  let s := (s.count (cuACT t + 16)).raise (pgACT t) 15
  (s.iff (s.fld (pgACT t) ACT.noticeNoticeId == id) (State.setFld (pgACT t) ACT.noticeViaHalyard 1)).noticeSent t id

/-! Battery and mains (R212, R214). -/

/-- Every tree's answer to battery: kept trees enter Lifeline, the others are shed; the first shed candidate is kept where
no kept tree is in Operational or Parked. -/
def State.onBattery (s : State) : State :=
  let live := fun (t : Tree) => s.mode t == 4 || s.mode t == 5
  let keep := fun (t : Tree) => s.flag (pgACT t) ACT.cfgLifelineKeep
  let sub : Option Tree :=
    if [Tree.a, Tree.b].any (fun t => keep t && live t) then none
    else [Tree.a, Tree.b].find? (fun t => live t && !keep t)
  let s := match sub with
    | some t => s.setFld (pgACT t) ACT.statusLifelineSubstituted 1
    | none => s
  let s := [Tree.a, Tree.b].foldl (fun s t =>
    if keep t || sub == some t then s.iff (live t && s.firmware) (State.setMode t 6)
    else ((s.setFld (pgACT t) ACT.statusShed 1).enterDark t).forget t) s
  s.createNotice 2

/-- Mains stable: Lifeline trees enter Operational, shed trees rejoin through Dark (R212, R214). ACT_STATUS.lifeline_substituted is
cleared here (DESIGN CHOICE, log entry 129). -/
def State.onMains (s : State) : State :=
  let s := [Tree.a, Tree.b].foldl (fun s t =>
    let s := s.setFld (pgACT t) ACT.statusLifelineSubstituted 0
    (s.setFld (pgACT t) ACT.statusShed 0).iff (s.mode t == 6 && s.firmware) (State.setMode t 4)) s
  s.createNotice 3

/-- The cores run again after CORE was disabled: firmware makes the transitions whose triggers stand, Operational after an applied
RANGE_CONFIRM, Lifeline on battery and Operational once mains is back (R519; log entry 140). -/
def State.firmwareBack (t : Tree) (s : State) : State :=
  let s := s.iff (s.mode t == 3 && (s.acts t).confirmed && !s.flag (pgACT t) ACT.eqdPendingPending) (fun s =>
    (s.modActs t (fun a => { a with confirmed := false })).setMode t 4)
  let s := s.iff ((s.mode t == 4 || s.mode t == 5) && s.keptOnBattery t) (State.setMode t 6)
  s.iff (s.mode t == 6 && !s.flag pgSUP SUP.statusBattery) (State.setMode t 4)

/-! Page enables (R46, R50). -/

/-- A write of 1 to PAGE_CTRL.enable: a disabled page starts. -/
def State.pageOn (p : Nat) (start : State → State) (s : State) : State :=
  s.guarded p 0x008 (cmdAccess 1#32) (fun s => if s.enabled p then s else start (s.setFld p HDR.pageCtrlEnable 1))

/-- A write of 0 to PAGE_CTRL.enable: an enabled page stops. -/
def State.pageOff (p : Nat) (stop : State → State) (s : State) : State :=
  s.guarded p 0x008 (cmdAccess 0#32) (fun s => if s.enabled p then stop (s.setFld p HDR.pageCtrlEnable 0) else s)

/-! Rogue events (R110, R111). -/

/-- A rogue event: the force, the latch, the cause, Quarantine. -/
def State.rogueEvent (t : Tree) (cause : Nat) (s : State) : State :=
  let p := pgTX t
  let new := !(s.txs t).rogueForce
  let s := (s.modTxs t (fun x => { x with rogueForce := true })).setFld p TX.statusRogueLatched 1
  let s := ((s.setFld p TX.statusRogueCause cause).count (cuTX t + 6)).raise p 1
  let s := (s.iff new (State.enterForce t)).pinsLow t
  s.quarantine t 2 0

/-! What a change of a receiver or framer does to its tree. -/

/-- Is a framer's defect or loss of SYNC standing (Table 6.2)? -/
def State.frmBad (s : State) (r : Rx) : Bool := s.los r || s.lof r || !s.hdrSync r

/-- The tree after a change of its framers: a control framer that has just gone bad takes the tree to Dark (R192); the
halyard source, the control receiver, the dual-homing unit, the time engine and the clocks follow. `old` is the
state before the change. -/
def State.lineJudge (t : Tree) (old s : State) : State :=
  let bad := match old.controlRx t with
    | some r =>
      (s.los r && !old.los r) || (s.lof r && !old.lof r) || (!s.hdrSync r && old.hdrSync r)
    | none => false
  let s := (s.iff (old.trimSource && !s.trimSource) State.breakTrim).iff (bad && s.actWorks t) (State.enterDark t)
  ((s.halJudge t).showControl t).dualJudge.clkJudge

/-- `f`, and what follows from it for a receiver's tree. -/
def State.lineDo (r : Rx) (f : State → State) (s : State) : State := State.lineJudge (rxTree r) s (f s)

end Sys2Proof.Machine
end

