-- ==== Sys2Proof/Machine/CcryOps.lean ====
section
/-! DEFINITION. The control crypto engine (R373 to R376, R386, R387): jobs, pre-emption, suspension, records. Where a job's
AAD, tag, signature and scalar stand in shared SRAM is the model's choice (log entry 46). -/

namespace Sys2Proof.Machine

/-! Job descriptors (CCRY table 0). -/

def State.jobOp (s : State) (k : Nat) : Nat := s.tf pgCCRY 0 k 0 4 0
def State.jobKeystore (s : State) (k : Nat) : Bool := s.tb pgCCRY 0 k 0 5
def State.jobKey (s : State) (k : Nat) : Nat := s.tf pgCCRY 0 k 0 9 6
def State.jobPriority (s : State) (k : Nat) : Nat := s.tf pgCCRY 0 k 0 11 10
def State.jobFinal (s : State) (k : Nat) : Bool := s.tb pgCCRY 0 k 0 12
def State.jobIn (s : State) (k : Nat) : Nat := (s.tw pgCCRY 0 k 1).toNat
def State.jobLen (s : State) (k : Nat) : Nat := (s.tw pgCCRY 0 k 2).toNat
def State.jobOut (s : State) (k : Nat) : Nat := (s.tw pgCCRY 0 k 3).toNat
def State.jobAad (s : State) (k : Nat) : Nat := s.tf pgCCRY 0 k 4 15 0
def State.jobAux (s : State) (k : Nat) : Nat := (s.tw pgCCRY 0 k 5).toNat

/-- State of a slot: 0 free, 1 queued, 2 running, 3 suspended, 4 done, 5 error. -/
def State.jobState (s : State) (k : Nat) : Nat := s.tf pgCCRY 0 k 6 2 0

/-- The job held in a slot. -/
def State.job (s : State) (k : Nat) : CcryJob := Sparse.get {} s.ccry.jobs k
def State.putJob (k : Nat) (j : CcryJob) (s : State) : State :=
  s.modCcry (fun c => { c with jobs := Sparse.put {} k j c.jobs })

/-- CCRY_STATUS.busy and suspended follow the slots. -/
def State.showJobs (s : State) : State :=
  let bits := fun (ok : Nat → Bool) => (List.range 8).foldl (fun n k => n + b2n (ok (s.jobState k)) * 2 ^ k) 0
  (s.setFld pgCCRY CCRY.statusBusy (bits (fun x => decide (1 ≤ x) && decide (x ≤ 3)))).setFld pgCCRY CCRY.statusSuspended
    (bits (fun x => x == 3))

/-- A slot's state set. -/
def State.setJobState (k v : Nat) (s : State) : State := (s.setTf pgCCRY 0 k 6 2 0 v).showJobs

/-! Ends. -/

/-- A job ends with an error. -/
def State.jobError (k code : Nat) (s : State) : State :=
  let s := ((s.setTf pgCCRY 0 k 6 15 8 code).setJobState k 5).count (cuCCRY + 1)
  ((s.iff (code == 1 || code == 3) (State.count (cuCCRY + 5))).raise pgCCRY 1).routeEvent (1588 + k)

/-- A job ends well. -/
def State.jobDone (k : Nat) (s : State) : State :=
  (((s.setJobState k 4).count cuCCRY).raise pgCCRY 0).routeEvent (1588 + k)

/-! Keys (R375). -/

/-- Does an operation use a key; does its datapath do symmetric work; is it suspendable (Table 11.5)? -/
def opKeyed (op : Nat) : Bool := decide (1 ≤ op) && decide (op ≤ 6)
def opSymmetric (op : Nat) : Bool := decide (op < 8) || decide (0x0B < op)
def opSuspends (op : Nat) : Bool := (decide (1 ≤ op) && decide (op ≤ 4)) || op == 7

/-- May a job use its key: a keystore key by its one use, while the keystore's keys are available; a signature only with the
device private key? -/
def State.jobKeyOk (s : State) (op : Nat) (keystore : Bool) (index : Nat) : Bool :=
  if keystore then
    s.flag pgCCRY CCRY.statusKeystoreReady && ((index == 1 && op == 2) || (index == 2 && op == 8))
  else op != 8

/-- A volatile key, and the key that a job uses. -/
def State.volatileKey (s : State) (i : Nat) : Bytes := bytesBE ((List.range 8).map (s.tw pgCCRY 1 i))
def State.keyOf (s : State) (j : CcryJob) : Bytes := if j.keystore then s.kstField 0x480 32 else j.key

/-! Addresses. -/

/-- Bytes of shared SRAM. -/
def sramSize : Nat := 8388608

/-- Bytes of output and of auxiliary data of an operation on `len` bytes. -/
def opOut (op len : Nat) : Nat :=
  match op with
  | 1 => len + 16
  | 2 => len
  | 3 => 16
  | 5 => len + 8
  | 6 => len - 8
  | 7 => 48
  | 8 => 96
  | 10 => 48
  | _ => 0
def opAux (op : Nat) : Nat :=
  match op with
  | 1 => 12
  | 2 => 32
  | 4 => 16
  | 9 => 97
  | 10 => 97
  | _ => 0

/-- Do input, output and auxiliary data lie in shared SRAM? -/
def State.jobInRange (s : State) (k : Nat) : Bool :=
  let op := s.jobOp k
  decide (s.jobIn k + s.jobAad k + s.jobLen k ≤ sramSize) && decide (s.jobOut k + opOut op (s.jobLen k) ≤ sramSize) &&
    decide (s.jobAux k + opAux op ≤ sramSize)

/-- The volatile keys are lost: no tree's keys are in force (R366). -/
def State.keysLost (s : State) : State := (s.setFld (pgACT .a) ACT.statusKeyed 0).setFld (pgACT .b) ACT.statusKeyed 0

/-! Progress. -/

/-- The next GCM counter block. -/
def gcmCounter (b : Bytes) (n : Nat) : Bytes := b.take 12 ++ natBE 4 (fieldAt b 12 4 + n)

/-- The hash key of GCM under a schedule. -/
def gcmH (ws : List Bytes) : BitVec 128 := block128 (aesBlock ws (List.replicate 16 0#8))

/-- Input blocks taken into a suspendable job: the job, and what it puts out. -/
def CcryJob.absorb (j : CcryJob) (key : Bytes) (blocks : List Bytes) : CcryJob × Bytes :=
  match j.op with
  | 7 => ({ j with sha := blocks.foldl shaCompress j.sha }, [])
  | 3 | 4 =>
    let ws := aesSchedule key
    ({ j with block := blocks.foldl (fun c b => aesBlock ws (xorBytes c b)) j.block }, [])
  | _ =>
    let ws := aesSchedule key
    let out := ctrMode ws (fieldAt j.block 12 4) (j.block.take 12) blocks
    let ct := if j.op = 1 then blocksOf out else blocks
    ({ j with block := gcmCounter j.block blocks.length,
              hash := (ghash (gcmH ws) (BitVec.ofNat 128 j.hash) ct).toNat }, out)

/-- Whole blocks of at most `n` blocks of `w` bytes. -/
def chunks (w : Nat) : Nat → Bytes → List Bytes
  | 0, _ => []
  | n + 1, m => if m.isEmpty then [] else m.take w :: chunks w n (m.drop w)

/-- How many bytes of `n` a job takes as whole blocks now: CMAC keeps back its last block (R374). -/
def CcryJob.whole (j : CcryJob) (n : Nat) : Nat :=
  match j.op with
  | 7 => n / 128 * 128
  | 3 | 4 => (n - 1) / 16 * 16
  | _ => n / 16 * 16

/-- `n` more bytes of the present input taken; the output written. -/
def State.feed (k n : Nat) (s : State) : State :=
  let j := s.job k
  let start := s.jobIn k + (if j.op ≤ 2 then s.jobAad k else 0)
  let data := j.part ++ s.sramBytes (start + j.pos) n
  let w := j.whole data.length
  let width := if j.op = 7 then 128 else 16
  let x := j.absorb (s.keyOf j) (chunks width (w / width) (data.take w))
  let s := s.putSram (s.jobOut k + j.outPos) x.2
  let s := s.putJob k { x.1 with part := data.drop w, processed := j.processed + n, pos := j.pos + n,
                                 outPos := j.outPos + x.2.length }
  (s.putTw pgCCRY 0 k 7 (BitVec.ofNat 32 (j.processed + n))).countBy (cuCCRY + 6) n

/-- Input bytes not taken yet. -/
def State.jobLeft (s : State) (k : Nat) : Nat := s.jobLen k - (s.job k).pos

/-! The datapaths (R374). -/

/-- The job running on the symmetric or the public-key datapath. -/
def State.running (s : State) (sym : Bool) : Option Nat :=
  (List.range 8).find? (fun k => s.jobState k == 2 && opSymmetric (s.job k).op == sym)

/-- The queued job that a datapath takes next: the highest priority, slots in ascending order within it. -/
def State.nextJob (s : State) (sym : Bool) : Option Nat :=
  ((List.range 8).filter (fun k => s.jobState k == 1 && opSymmetric (s.job k).op == sym)).foldl (fun b k =>
    match b with
    | some m => if s.jobPriority k < s.jobPriority m then some k else b
    | none => some k) none

/-- A running job stopped at a 16-byte boundary as queued, its progress kept. How far it has come is a free value. -/
def State.stopJob (k : Nat) (s : State) : State :=
  let n := 16 * s.freeVal (s.jobLeft k / 16 + 1)
  (s.useFree.iff (opSuspends (s.job k).op) (State.feed k n)).setJobState k 1

/-- A datapath judged: an idle one takes the next job; a symmetric one that runs a suspendable job gives way to a higher
priority. -/
def State.dispatchPath (sym : Bool) (s : State) : State :=
  match s.nextJob sym, s.running sym with
  | none, _ => s
  | some k, none => s.setJobState k 2
  | some k, some r =>
    if opSuspends (s.job r).op && decide (s.jobPriority k < s.jobPriority r) then
      (((s.stopJob r).count (cuCCRY + 2)).raiseMs pgCCRY 2).setJobState k 2
    else s

/-- Both datapaths judged, while the page lets jobs start. -/
def State.dispatchJobs (s : State) : State :=
  if s.works pgCCRY then (s.dispatchPath true).dispatchPath false else s

/-! Commands. -/

/-- A job's context as it starts: the counter block after the tag's, or zeros; the initial hash value. -/
def State.freshJob (s : State) (k : Nat) : CcryJob :=
  let op := s.jobOp k
  let iv := s.sramBytes (s.jobAux k) 12 ++ natBE 4 2
  { op := op, keystore := s.jobKeystore k, index := s.jobKey k,
    key := if s.jobKeystore k || !opKeyed op then [] else s.volatileKey (s.jobKey k),
    block := if op ≤ 2 then iv else List.replicate 16 0#8, sha := if op = 7 then sha384Init else [] }

/-- The AAD of a GCM job hashed as its first input starts: it stands before the input. -/
def State.takeAad (k : Nat) (s : State) : State :=
  let j := s.job k
  if 2 < j.op ∨ j.op = 0 ∨ s.jobAad k = 0 then s
  else
    let bs := s.sramBytes (s.jobIn k) (s.jobAad k)
    s.putJob k { j with aad := s.jobAad k, hash := (ghash (gcmH (aesSchedule (s.keyOf j))) 0#128 (blocksOf bs)).toNat }

/-- CCRY_CMD.start: a slot without a job queues its descriptor's; a suspended one goes on with new input; a queued or running
one stays as it is. An operation or a length that the spec gives no result ends with a free error code (log entry 46). -/
def State.ccryStart (k : Nat) (s : State) : State :=
  match s.jobState k with
  | 1 => s
  | 2 => s
  | 3 =>
    let j := s.job k
    if (j.keystore || j.op == 8) && !s.jobKeyOk j.op j.keystore j.index then s.jobError k 5
    else if !s.jobInRange k then s.jobError k 6
    else ((s.putJob k { s.job k with pos := 0, outPos := 0 }).setJobState k 1).dispatchJobs
  | _ =>
    let op := s.jobOp k
    let s := (s.setTf pgCCRY 0 k 6 15 8 0).putTw pgCCRY 0 k 7 0#32
    let s := s.putJob k (s.freshJob k)
    let kw := (op == 5 || op == 6) && (decide (s.jobLen k < 16) || decide (4096 < s.jobLen k) || s.jobLen k % 8 != 0)
    if op = 0 ∨ 0x0B < op ∨ kw = true then s.useFree.jobError k (s.freeVal 256)
    else if (s.jobKeystore k || op == 8) && !s.jobKeyOk op (s.jobKeystore k) (s.jobKey k) then s.jobError k 5
    else if !s.jobInRange k then s.jobError k 6
    else ((s.takeAad k).setJobState k 1).dispatchJobs

/-- CCRY_CMD.abort: a queued, running or suspended job ends with error 0x09. -/
def State.ccryAbort (k : Nat) (s : State) : State :=
  if 1 ≤ s.jobState k ∧ s.jobState k ≤ 3 then (s.jobError k 9).dispatchJobs else s

/-- The end of a suspendable job with final 1: its last block, and the output or the check. -/
def State.finishJob (k : Nat) (s : State) : State :=
  let j := s.job k
  match j.op with
  | 7 =>
    let pad := j.part ++ [0x80#8] ++ List.replicate ((128 - (j.part.length + 17) % 128) % 128) 0#8 ++ natBE 16 (8 * j.processed)
    (s.putSram (s.jobOut k) (shaDigest (shaBlocks (pad.length / 128) j.sha pad))).jobDone k
  | 3 | 4 =>
    let ws := aesSchedule (s.keyOf j)
    let k1 := cmacDouble (gcmH ws)
    let tag := cmacChain ws (natBE 16 k1.toNat) (natBE 16 (cmacDouble k1).toNat) j.block
      (if j.part.isEmpty then [] else [j.part])
    if j.op = 3 then (s.putSram (s.jobOut k) tag).jobDone k
    else if tag = s.sramBytes (s.jobAux k) 16 then s.jobDone k
    else s.jobError k 1
  | _ =>
    let ws := aesSchedule (s.keyOf j)
    let x := j.absorb (s.keyOf j) (if j.part.isEmpty then [] else [j.part])
    let lens := natBE 8 (8 * j.aad) ++ natBE 8 (8 * j.processed)
    let y := ghash (gcmH ws) (BitVec.ofNat 128 x.1.hash) [lens]
    let tag := xorBytes (natBE 16 y.toNat) (aesBlock ws (j.block.take 12 ++ natBE 4 1))
    let s := s.putSram (s.jobOut k + j.outPos) x.2
    let n := j.outPos + x.2.length
    if j.op = 1 then (s.putSram (s.jobOut k + n) tag).jobDone k
    else if tag = s.sramBytes (s.jobAux k + 16) 16 then s.jobDone k
    else (s.putSram (s.jobOut k) (List.replicate n 0#8)).jobError k 1

/-- The end of a job that is not suspendable. -/
def State.finishWhole (k : Nat) (s : State) : State :=
  let j := s.job k
  let input := s.sramBytes (s.jobIn k) (s.jobLen k)
  let aux := s.sramBytes (s.jobAux k) 97
  let s := (s.countBy (cuCCRY + 6) input.length).putTw pgCCRY 0 k 7 (BitVec.ofNat 32 input.length)
  match j.op with
  | 5 => (s.putSram (s.jobOut k) (keyWrap (s.keyOf j) input)).jobDone k
  | 6 =>
    match keyUnwrap (s.keyOf j) input with
    | some pt => (s.putSram (s.jobOut k) pt).jobDone k
    | none => s.jobError k 2
  | 8 =>
    let x := s.randomBytes 48
    (x.1.putSram (s.jobOut k) (ecdsaSign s.deviceKey (scalarOf x.2) (input.take 48))).jobDone k
  | 9 =>
    match readPoint aux with
    | none => s.jobError k 4
    | q => if ecdsaVerify q (input.take 48) ((input.drop 48).take 96) then s.jobDone k else s.jobError k 3
  | 10 =>
    match readPoint aux with
    | none => s.jobError k 4
    | q => (s.putSram (s.jobOut k) (ecdhX (beNat (input.take 48)) q)).jobDone k
  | _ =>
    let x := s.randomBytes 48
    (x.1.putKeyPair (scalarOf x.2)).jobDone k

/-- CCRY_JOB_DONE's effect: the running job of a slot comes to the end of its input. -/
def State.ccryDone (k : Nat) (s : State) : State :=
  if s.jobState k ≠ 2 then s
  else
    let s := if opSuspends (s.job k).op then
        let s := s.feed k (s.jobLeft k)
        if s.jobFinal k then s.finishJob k else s.setJobState k 3
      else s.finishWhole k
    s.dispatchJobs

/-- The page disabled: running jobs stop as queued. -/
def State.ccryStop (s : State) : State :=
  (List.range 8).foldl (fun s k => if s.jobState k = 2 then s.stopJob k else s) s

/-! Records (R376). -/

/-- The address of CCRY_XFER: a multiple of 8. -/
def State.xferAddr (s : State) : Nat := s.fld pgCCRY CCRY.xferAddr / 8 * 8

/-- A context record in clear form (Table 11.6). -/
def CcryJob.record (j : CcryJob) (wrapped : Bool) : Bytes :=
  let fill := fun (n : Nat) (bs : Bytes) => bs.take n ++ List.replicate (n - bs.length) 0#8
  natBE 4 0x54435458 ++ natBE 1 1 ++ natBE 1 j.op ++ natBE 1 (b2n wrapped + 2 * b2n j.keystore) ++
    natBE 1 (if j.keystore then j.index else 0xFF) ++ natBE 8 j.processed ++ natBE 8 j.aad ++ fill 16 j.block ++
    natBE 16 j.hash ++ fill 64 (j.sha.flatMap (fun w => natBE 8 w.toNat)) ++ fill 128 j.part ++ natBE 2 j.part.length ++
    List.replicate 6 0#8 ++ fill 32 j.key ++ List.replicate 32 0#8

/-- A job read from a record in clear form. -/
def readRecord (bs : Bytes) : CcryJob :=
  let op := byteAt bs 5
  let keystore := (byteAt bs 6).testBit 1
  { op := op, keystore := keystore, index := if keystore then byteAt bs 7 else 0,
    key := if keystore || !opKeyed op then [] else (bs.drop 256).take 32,
    processed := fieldAt bs 8 8, aad := fieldAt bs 16 8, block := (bs.drop 24).take 16, hash := fieldAt bs 40 16,
    sha := if op = 7 then (List.range 8).map (fun i => BitVec.ofNat 64 (fieldAt bs (56 + 8 * i) 8)) else [],
    part := (bs.drop 120).take (min 128 (fieldAt bs 248 2)) }

/-- An export refused: its error shown, the slot as it was. -/
def State.exportRefused (k code : Nat) (s : State) : State := (s.setTf pgCCRY 0 k 6 15 8 code).raise pgCCRY 1

/-- CCRY_CMD.export: the context of a suspended slot written to shared SRAM. -/
def State.ccryExport (k : Nat) (wrapped : Bool) (s : State) : State :=
  if s.jobState k ≠ 3 then s
  else
    let j := s.job k
    if wrapped then
      (if !s.flag pgCCRY CCRY.statusKeystoreReady then s.exportRefused k 5
       else
        let r := j.record true
        (s.putSram s.xferAddr (r.take 8 ++ keyWrap (s.kstField 0x460 32) (r.drop 8))).count (cuCCRY + 3))
    else if j.keystore || (opKeyed j.op && !s.flag pgCCRY CCRY.cfgClearExport) then s.exportRefused k 8
    else (s.putSram s.xferAddr (j.record false)).count (cuCCRY + 3)

/-- CCRY_CMD.import: a record restored into a slot that holds no job, as suspended. -/
def State.ccryImport (k : Nat) (s : State) : State :=
  if 1 ≤ s.jobState k ∧ s.jobState k ≤ 3 then s
  else
    let head := s.sramBytes s.xferAddr 8
    let body : Option Bytes :=
      if (byteAt head 6).testBit 0 then
        (if s.flag pgCCRY CCRY.statusKeystoreReady then keyUnwrap (s.kstField 0x460 32) (s.sramBytes (s.xferAddr + 8) 320)
         else none)
      else some (s.sramBytes (s.xferAddr + 8) 312)
    match body with
    | some b =>
      if fieldAt head 0 4 = 0x54435458 ∧ byteAt head 4 = 1 then
        let j := readRecord (head ++ b)
        ((((s.putJob k j).setTf pgCCRY 0 k 6 15 8 0).putTw pgCCRY 0 k 7 (BitVec.ofNat 32 j.processed)).setJobState k 3).count
          (cuCCRY + 4)
      else s.jobError k 7
    | none => s.jobError k 7

end Sys2Proof.Machine
end

