-- ==== Sys2Proof/Machine/Parse.lean ====
section
/-! DEFINITION. The parser, the rule key and the symmetric hash (R290 to R292, R295, R301). -/

namespace Sys2Proof.Machine

/-- What the parser finds in a frame. Fields not reached read 0 (R291). -/
structure Parsed where
  da : Nat := 0
  sa : Nat := 0
  oVid : Nat := 0
  oPcp : Nat := 0
  oDei : Bool := false
  oPresent : Bool := false
  iVid : Nat := 0
  iPcp : Nat := 0
  iPresent : Bool := false
  ethertype : Nat := 0
  /-- Were the EtherType, and a whole IP header, reached? -/
  typed : Bool := false
  ip : Bool := false
  /-- 0 none, 1 IPv4, 2 IPv6, 3 other. -/
  l3 : Nat := 0
  l3Off : Option Nat := none
  /-- 0 unfragmented, 1 first fragment, 2 later fragment. -/
  frag : Nat := 0
  moreFrag : Bool := false
  ident : Nat := 0
  dscp : Nat := 0
  proto : Nat := 0
  ipSrc : Nat := 0
  ipDst : Nat := 0
  l4 : Bool := false
  l4Src : Nat := 0
  l4Dst : Nat := 0
  tcpFlags : Nat := 0
  payOff : Option Nat := none
  err : Bool := false
  deriving DecidableEq, Repr

/-- Does a header of `len` bytes at `pos` end beyond byte 192 or beyond the frame (R291)? -/
def headerBad (bs : Bytes) (pos len : Nat) : Bool := decide (192 < pos + len) || decide (bs.length < pos + len)

/-- The L4 header at `pos` (R290, R292). -/
def parseL4 (bs : Bytes) (pos : Nat) (x : Parsed) : Parsed :=
  if x.proto = 6 then
    let len := byteAt bs (pos + 12) / 16 * 4
    if headerBad bs pos (max 20 len) then { x with err := true }
    else { x with l4 := true, l4Src := fieldAt bs pos 2, l4Dst := fieldAt bs (pos + 2) 2,
                  tcpFlags := byteAt bs (pos + 13) % 64, payOff := some (pos + max 20 len) }
  else if x.proto = 17 ∨ x.proto = 132 then
    let len := if x.proto = 17 then 8 else 12
    if headerBad bs pos len then { x with err := true }
    else { x with l4 := true, l4Src := fieldAt bs pos 2, l4Dst := fieldAt bs (pos + 2) 2, payOff := some (pos + len) }
  else if x.proto = 1 ∨ x.proto = 58 then
    if headerBad bs pos 8 then { x with err := true }
    else { x with l4 := true, l4Src := byteAt bs pos * 256 + byteAt bs (pos + 1), payOff := some (pos + 8) }
  else x

/-- The IPv4 header at `pos`. -/
def parseV4 (bs : Bytes) (pos : Nat) (x : Parsed) : Parsed :=
  let len := max 20 (byteAt bs pos % 16 * 4)
  let x := { x with l3 := 1, l3Off := some pos }
  if headerBad bs pos len then { x with err := true }
  else
    let fo := fieldAt bs (pos + 6) 2
    let off := fo % 8192
    let mf := fo.testBit 13
    let x := { x with
      ip := true, dscp := byteAt bs (pos + 1) / 4, ident := fieldAt bs (pos + 4) 2, proto := byteAt bs (pos + 9),
      ipSrc := fieldAt bs (pos + 12) 4, ipDst := fieldAt bs (pos + 16) 4, moreFrag := mf,
      frag := if off ≠ 0 then 2 else if mf then 1 else 0 }
    if off ≠ 0 then x else parseL4 bs (pos + len) x

/-- The chain of IPv6 extension headers from `pos`, at most `n` more of them (R290). -/
def parseExt (bs : Bytes) : Nat → Nat → Parsed → Parsed
  | 0, pos, x => if x.frag = 2 then x else parseL4 bs pos x
  | n + 1, pos, x =>
    if x.proto = 0 ∨ x.proto = 43 ∨ x.proto = 60 then
      let len := (byteAt bs (pos + 1) + 1) * 8
      if headerBad bs pos len then { x with err := true }
      else parseExt bs n (pos + len) { x with proto := byteAt bs pos }
    else if x.proto = 44 then
      if headerBad bs pos 8 then { x with err := true }
      else
        let fo := fieldAt bs (pos + 2) 2
        let off := fo / 8
        let mf := fo.testBit 0
        let x := { x with proto := byteAt bs pos, ident := fieldAt bs (pos + 4) 4, moreFrag := mf,
                          frag := if off ≠ 0 then 2 else if mf then 1 else 0 }
        if off ≠ 0 then x else parseExt bs n (pos + 8) x
    else if x.frag = 2 then x else parseL4 bs pos x

/-- The IPv6 header at `pos`. -/
def parseV6 (bs : Bytes) (pos : Nat) (x : Parsed) : Parsed :=
  let x := { x with l3 := 2, l3Off := some pos }
  if headerBad bs pos 40 then { x with err := true }
  else
    parseExt bs 4 (pos + 40) { x with
      ip := true, dscp := fieldAt bs pos 2 / 64 % 64, proto := byteAt bs (pos + 6),
      ipSrc := fieldAt bs (pos + 8) 16, ipDst := fieldAt bs (pos + 24) 16 }

/-- After the tags: the EtherType at `pos` and what it names. -/
def parseType (bs : Bytes) (pos : Nat) (x : Parsed) : Parsed :=
  if headerBad bs pos 2 then { x with err := true }
  else
    let et := fieldAt bs pos 2
    let x := { x with ethertype := et, typed := true }
    if et = 0x0800 then parseV4 bs (pos + 2) x
    else if et = 0x86DD then parseV6 bs (pos + 2) x
    else { x with l3 := if et < 0x0600 then 0 else 3, l3Off := some (pos + 2) }

/-- Is the EtherType a recognised VLAN TPID (R290)? -/
def isTpid (alt et : Nat) : Bool := et == 0x8100 || et == 0x88A8 || et == alt

/-- A frame parsed (R290, R291), `alt` being CLS_CFG.tpid_alt. -/
def parseFrame (alt : Nat) (frame : Bytes) : Parsed :=
  let bs := frame.take 448
  if bs.length < 14 then { err := true }
  else
    let x : Parsed := { da := fieldAt bs 0 6, sa := fieldAt bs 6 6 }
    if isTpid alt (fieldAt bs 12 2) then
      if headerBad bs 12 6 then { x with err := true }
      else
        let t := fieldAt bs 14 2
        let x := { x with oPresent := true, oVid := t % 4096, oPcp := t / 8192, oDei := t.testBit 12 }
        if isTpid alt (fieldAt bs 16 2) then
          if headerBad bs 16 6 then { x with err := true }
          else
            let u := fieldAt bs 18 2
            parseType bs 20 { x with iPresent := true, iVid := u % 4096, iPcp := u / 8192 }
        else parseType bs 16 x
    else parseType bs 12 x

/-- The 480-bit rule key of Table 9.1. -/
def ruleKey (srcKind srcNum tenant service : Nat) (x : Parsed) : Nat :=
  srcKind + srcNum * 2 ^ 2 + tenant * 2 ^ 10 + service * 2 ^ 18 + b2n x.err * 2 ^ 22 + x.da * 2 ^ 24 + x.sa * 2 ^ 72 +
  x.oVid * 2 ^ 120 + x.oPcp * 2 ^ 132 + b2n x.oPresent * 2 ^ 135 + x.iVid * 2 ^ 136 + x.iPcp * 2 ^ 148 +
  b2n x.iPresent * 2 ^ 151 + x.ethertype * 2 ^ 152 + x.l3 * 2 ^ 168 + x.frag * 2 ^ 170 + x.dscp * 2 ^ 172 +
  x.proto * 2 ^ 178 + x.ipSrc * 2 ^ 186 + x.ipDst * 2 ^ 314 + x.l4Src * 2 ^ 442 + x.l4Dst * 2 ^ 458 +
  x.tcpFlags * 2 ^ 474

/-- One bit of CRC-32C, bit-reflected (R301): generator 0x1EDC6F41 reflected is 0x82F63B78. -/
def crc32cBit (r : Nat) : Nat := if r % 2 = 1 then (r / 2) ^^^ 0x82F63B78 else r / 2

/-- CRC-32C register after bytes. -/
def crc32cBytes (r : Nat) (bs : Bytes) : Nat :=
  bs.foldl (fun r b => Nat.repeat crc32cBit 8 (r ^^^ b.toNat)) r

/-- One bit of the CRC-32 of 802.3, bit-reflected: generator 0x04C11DB7 reflected is 0xEDB88320. -/
def crc32Bit (r : Nat) : Nat := if r % 2 = 1 then (r / 2) ^^^ 0xEDB88320 else r / 2

/-- The four bytes of the FCS of a frame, in the order in which they are sent (R433). -/
def fcsOf (bs : Bytes) : Bytes :=
  natLE 4 (bs.foldl (fun r b => Nat.repeat crc32Bit 8 (r ^^^ b.toNat)) 0xFFFFFFFF ^^^ 0xFFFFFFFF)

/-- The 38 bytes the symmetric hash covers (R301). -/
def hashBytes (x : Parsed) : Bytes :=
  let ip := x.l3 = 1 ∨ x.l3 = 2
  let e1 := if ip then x.ipSrc * 65536 + x.l4Src else x.sa * 65536 + x.ethertype
  let e2 := if ip then x.ipDst * 65536 + x.l4Dst else x.da * 65536 + x.ethertype
  natBE 1 (if ip then x.proto else 0) ++ natBE 1 (if ip then x.l3 else 0) ++ natBE 18 (min e1 e2) ++
    natBE 18 (max e1 e2)

/-- The symmetric hash, `seed` being CLS_HASH_SEED (R301). -/
def symHash (seed : Nat) (x : Parsed) : Nat := crc32cBytes seed (hashBytes x) ^^^ 0xFFFFFFFF

/-- The result of a payload pattern given by its entry's words (R295). -/
def patternHit (ws : List Word) (bs : Bytes) (x : Parsed) (l4ok : Bool) : Bool :=
  let w0 := (ws.getD 0 0#32).toNat
  let len := bitsOf w0 6 3 + 1
  let first := bitsOf w0 15 8
  let last := max first (bitsOf w0 23 16)
  let value := bytesBE ((ws.drop 1).take 4)
  let mask := bytesBE ((ws.drop 5).take 4)
  let anchor : Option Nat := match bitsOf w0 2 1 with
    | 0 => some 0
    | 1 => x.l3Off
    | 2 => if l4ok then x.payOff else none
    | _ => none
  let win := bs.take 448
  match w0.testBit 0, anchor with
  | true, some a => ((List.range (last - first + 1)).map (· + first)).any (fun p =>
      decide (p + len ≤ 256) && decide (a + p + len ≤ win.length) && (List.range len).all (fun b =>
        ((win.getD (a + p + b) 0#8) &&& (mask.getD b 0#8)) == ((value.getD b 0#8) &&& (mask.getD b 0#8))))
  | _, _ => false

/-- The result of a range comparator given by its entry's words (R294). -/
def rangeHit (ws : List Word) (len : Nat) (x : Parsed) : Bool :=
  let lo := bitsOf (ws.getD 1 0#32).toNat 15 0
  let hi := bitsOf (ws.getD 1 0#32).toNat 31 16
  let v : Option Nat := match bitsOf (ws.getD 0 0#32).toNat 2 0 with
    | 0 => if x.l4 then some x.l4Src else none
    | 1 => if x.l4 then some x.l4Dst else none
    | 2 => if x.oPresent then some x.oVid else none
    | 3 => if x.iPresent then some x.iVid else none
    | 4 => some len
    | 5 => if x.typed then some x.ethertype else none
    | 6 => if x.ip then some x.dscp else none
    | _ => none
  match v with
  | some n => decide (lo ≤ n) && decide (n ≤ hi)
  | none => false

end Sys2Proof.Machine
end

