-- ==== Sys2Proof/Machine/PtpOps.lean ====
section
/-! DEFINITION. PTP on the UNI ports (R406 to R408): event frames, ingress stamps, one-step insertion. The field
positions of a PTP message are those of IEEE 1588, which the spec cites (PRESUMED, log entry 43). -/

namespace Sys2Proof.Machine

/-- Where the PTP message of an event frame starts, and the parse of the frame (R407). -/
def State.ptpEvent (s : State) (frame : Bytes) : Option (Nat × Parsed) :=
  let x := parseFrame (s.fld pgCLS CLS.cfgTpidAlt) frame
  let l2 := 14 + 4 * b2n x.oPresent + 4 * b2n x.iPresent
  let at_ : Option Nat :=
    if x.ethertype = 0x88F7 ∧ (x.da = 0x011B19000000 ∨ x.da = 0x0180C200000E) then
      (if s.flag pgTIME TIME.ptpL2 then some l2 else none)
    else if x.proto = 17 ∧ x.l4 = true ∧ x.l4Dst = 319 ∧ x.frag = 0 then
      (if (x.l3 = 1 ∧ s.flag pgTIME TIME.ptpUdp4 = true) ∨ (x.l3 = 2 ∧ s.flag pgTIME TIME.ptpUdp6 = true) then x.payOff
       else none)
    else none
  let dom := s.fld pgTIME TIME.ptpDomain
  let dom := if 24 ≤ dom ∧ dom ≤ 43 then dom else 24
  match at_ with
  | some p =>
    if byteAt frame p / 16 = 0 ∧ byteAt frame p % 16 ≤ 3 ∧ byteAt frame (p + 1) % 16 = 2 ∧ byteAt frame (p + 4) = dom ∧
        p + 34 ≤ frame.length then some (p, x)
    else none
  | none => none

/-- A port's delay from TIME table 0, in units: word 1 ingress, word 2 egress. -/
def State.portDelay (s : State) (port w : Nat) : Nat := (s.tw pgTIME 0 port w).toNat * (2 ^ 16 * 243)

/-- Are stamps taken and insertions made? -/
def State.ptpLive (s : State) : Bool := s.works pgTIME && s.timeValid

/-- A frame that enters port `port` stamped where it is an event frame (R408). -/
def State.ptpIngress (port : Nat) (frame : Bytes) (s : State) : State :=
  match s.ptpEvent frame with
  | none => s
  | some (p, _) =>
    if !s.ptpLive then s
    else
      let wr := s.fld pgTIME TIME.stampPtrWr
      let rd := s.fld pgTIME TIME.stampPtrRd
      if (wr + 2048 - rd) % 2048 = 1024 then (s.count (cuTIME + 5)).raiseMs pgTIME 6
      else
        let v := (s.time.val + s.portDelay port 1) % timeMod
        let ns := v / unitsPerNs
        let w0 := 1 + port % 16 * 2 + byteAt frame p % 16 * 2 ^ 5 + byteAt frame (p + 4) * 2 ^ 9
        let ws := [w0, fieldAt frame (p + 30) 2 + fieldAt frame (p + 28) 2 * 65536, ns / 10 ^ 9, ns % 10 ^ 9,
                   v % unitsPerNs / 243].map (BitVec.ofNat 32)
        let s := s.putEntry pgTIME 1 (wr % 1024) 0 ws
        ((s.setFld pgTIME TIME.stampPtrWr ((wr + 1) % 2048)).count (cuTIME + 4)).count (cuTimePort (port % 16))

/-- Bytes of `bs` replaced from `pos`. -/
def putBytes (bs : Bytes) (pos : Nat) (v : Bytes) : Bytes := bs.take pos ++ v ++ bs.drop (pos + v.length)

/-- The 16-bit words of bytes, and their sum in ones' complement arithmetic. -/
def wordSum : Bytes → Nat
  | a :: b :: bs => a.toNat * 256 + b.toNat + wordSum bs
  | [a] => a.toNat * 256
  | [] => 0
def onesFold (n : Nat) : Nat := Nat.repeat (fun x => x % 65536 + x / 65536) 4 n

/-- A checksum corrected incrementally over bytes that changed from `old` to `new` (R408 item 3). -/
def checksumUpdate (c : Nat) (old new : Bytes) : Nat :=
  let minus := (old.length + 1) / 2 * 65535 - wordSum old
  let r := 65535 - onesFold ((65535 - c) + minus + wordSum new)
  if r = 0 then 65535 else r

/-- A frame that leaves port `port` as it is sent: a one-step Sync takes the egress stamp (R408). -/
def State.ptpEgress (port : Nat) (frame : Bytes) (s : State) : State × Bytes :=
  match s.ptpEvent frame with
  | none => (s, frame)
  | some (p, x) =>
    if byteAt frame p % 16 ≠ 0 ∨ (byteAt frame (p + 6)).testBit 1 ∨ s.tb pgTIME 0 port 0 0 = false ∨
        frame.length < p + 44 then (s, frame)
    else if !s.ptpLive then (s.count (cuTIME + 8), frame)
    else
      let v := (s.time.val + s.portDelay port 2) % timeMod
      let ns := v / unitsPerNs
      let stamp := natBE 6 (ns / 10 ^ 9) ++ natBE 4 (ns % 10 ^ 9)
      let corr := natBE 8 (fieldAt frame (p + 8) 8 + v % unitsPerNs / (243 * 2 ^ 16))
      let out := putBytes (putBytes frame (p + 34) stamp) (p + 8) corr
      let s := (s.count (cuTIME + 6)).count (cuTimePort (16 + port % 16))
      match x.payOff with
      | some q =>
        let c := fieldAt frame (q - 2) 2
        if x.ethertype = 0x88F7 ∨ (x.l3 = 1 ∧ c = 0) then (s, out)
        else
          let old := (frame.drop (p + 8)).take 8 ++ (frame.drop (p + 34)).take 10
          (s.count (cuTIME + 7), putBytes out (q - 2) (natBE 2 (checksumUpdate c old (corr ++ stamp))))
      | none => (s, out)

end Sys2Proof.Machine
end

