-- ==== Sys2Proof/Machine/RingOps.lean ====
section
/-! DEFINITION. The core rings in shared SRAM (R494), and the byte order of ring entries (Table 14.5). -/

namespace Sys2Proof.Machine

/-- A transmit descriptor entry decoded from its 16 bytes; the address of a receive descriptor's buffer (Table 14.5). -/
def txEntry (b : Bytes) : TxEntry :=
  let f := b.getD 10 0#8
  { addr := leNat (b.take 8), len := leNat ((b.drop 8).take 2), first := f.getLsbD 0, last := f.getLsbD 1,
    irq := f.getLsbD 2, tag := (b.getD 11 0#8).toNat, cookie := leNat ((b.drop 12).take 2) }
def rxBuffer (b : Bytes) : Nat := leNat (b.take 8)

/-- Ring entries of a log2_size field: 2^6 to 2^15, values outside acting as 6 (Table 14.4). -/
def ringSize (log2 : Nat) : Nat := 2 ^ (if 6 ≤ log2 ∧ log2 ≤ 15 then log2 else 6)

/-- Base, entries, buffer bytes, enable, tail and head of core ring `k` (CORE table 1). -/
def State.crBase (s : State) (k : Nat) : Nat := s.tf pgCORE 1 k 0 22 0 / 64 * 64
def State.crSize (s : State) (k : Nat) : Nat := ringSize (s.tf pgCORE 1 k 1 4 1)
def State.crBuf (s : State) (k : Nat) : Nat := 256 * max 1 (s.tf pgCORE 1 k 1 12 5)
def State.crOn (s : State) (k : Nat) : Bool := s.tb pgCORE 1 k 1 0
def State.crTail (s : State) (k : Nat) : Nat := s.tf pgCORE 1 k 2 15 0
def State.crHead (s : State) (k : Nat) : Nat := s.tf pgCORE 1 k 3 15 0

/-- Entries between head and tail of a ring: indices run modulo the ring's size. -/
def ringPosted (size tail head : Nat) : Nat := (tail % size + size - head % size) % size

/-- Entries posted on core ring `k`. -/
def State.crPosted (s : State) (k : Nat) : Nat := ringPosted (s.crSize k) (s.crTail k) (s.crHead k)

/-- The head of core ring `k` moves past `n` entries. -/
def State.crAdvance (k n : Nat) (s : State) : State := s.setTf pgCORE 1 k 3 15 0 ((s.crHead k + n) % s.crSize k)

/-- The 16 bytes of the entry `i` places after the head. -/
def State.crEntry (s : State) (k i : Nat) : Bytes :=
  s.sramBytes (s.crBase k + 16 * ((s.crHead k + i) % s.crSize k)) 16

/-- A completion of 15 bytes and its phase bit written on core ring `k` (R460). -/
def State.crComplete (k : Nat) (bytes : Bytes) (s : State) : State :=
  let n := Sparse.get 0 s.core.completions k
  let size := s.crSize k
  let phase := 1 - n / size % 2
  let s := s.putSram (s.crBase k + 16 * size + 16 * (n % size)) (bytes.take 15 ++ natLE 1 (phase * 128))
  s.modCore (fun c => { c with completions := Sparse.put 0 k (n + 1) c.completions })

/-- Bytes written into consecutive buffers of core ring `k`, each filled before the next. -/
def State.crFill (k buf : Nat) : Nat → Nat → Bytes → State → State
  | 0, _, _, s => s
  | n + 1, i, bs, s =>
    State.crFill k buf n (i + 1) (bs.drop buf) (s.putSram (rxBuffer (s.crEntry k i) % 2 ^ 23) (bs.take buf))

/-- A receive completion's 15 bytes (Table 14.5): length, first buffer, buffers, class and service, sample, hash,
action. -/
def rxCompletion (len first bufs cls service : Nat) (sample : Bool) (hash action : Nat) : Bytes :=
  natLE 2 len ++ natLE 2 first ++ natLE 1 bufs ++ natLE 1 (cls + service * 16) ++ natLE 1 (b2n sample) ++ natLE 1 0 ++
    natLE 4 hash ++ natLE 2 action ++ natLE 1 0

/-- Has core ring `k` the buffers that `len` bytes need? -/
def State.crRoom (s : State) (k len : Nat) : Bool :=
  s.crOn k && decide ((len + s.crBuf k - 1) / s.crBuf k ≤ s.crPosted k)

/-- Bytes written whole into a core receive ring, with their completion. -/
def State.crReceive (k : Nat) (bs : Bytes) (cls service : Nat) (sample : Bool) (hash action : Nat) (s : State) : State :=
  let buf := s.crBuf k
  let n := (bs.length + buf - 1) / buf
  let first := s.crHead k
  ((s.crFill k buf n 0 bs).crComplete k (rxCompletion bs.length first n cls service sample hash action)).crAdvance k n

/-- Does a tree's receive ring take a TMC fragment of `n` bytes? -/
def State.tmcRoom (s : State) (t : Tree) (n : Nat) : Bool := s.works pgCORE && s.crRoom (2 + treeIx t) n

/-- The frame counter of an accepted TMC fragment kept with the message that firmware will handle (R141, R367). -/
def State.noteTmc (t : Tree) (fc : Nat) (bs : Bytes) (s : State) : State :=
  let room := s.tmcRoom t bs.length
  s.modActs t (fun a => { a with
    tmcFc := fc % 2 ^ 32, inbox := a.inbox ++ (if room then [(fc % 2 ^ 32, bs)] else []) })

/-- An accepted TMC fragment of a tree written to its receive ring (R138, R487, R494); without room it is dropped. -/
def State.tmcRing (t : Tree) (bs : Bytes) (s : State) : State :=
  let k := 2 + treeIx t
  if s.tmcRoom t bs.length then
    ((s.crReceive k bs 0 0 false 0 0).count (cuCORE1 + 4 + treeIx t)).routeEvent (1584 + treeIx t)
  else (s.count (cuCORE1 + 6)).raiseMs pgCORE 5

end Sys2Proof.Machine
end

