-- ==== Sys2Proof/Machine/ClsOps.lean ====
section
/-! DEFINITION. The classifier and the flow table (R287 to R317). -/

namespace Sys2Proof.Machine

/-! The flow table. -/

/-- Valid entries of the flow table. -/
def State.flowValid (s : State) (e : Nat) : Bool := s.tb pgFLOW 0 e 0 0
def State.flowEntries (s : State) : List Nat := (s.tblEntries pgFLOW 0).filter s.flowValid

/-- A flow key (R304): origin kind and number, l3, protocol, addresses, ports. -/
structure FlowKey where
  kind : Nat
  num : Nat
  l3 : Nat
  proto : Nat
  src : Nat
  dst : Nat
  sport : Nat
  dport : Nat
  deriving DecidableEq, Repr

/-- The origin number of a frame: the port for UNI, the tenant for line and host (R304). -/
def frameOrigin (f : InFrame) : Nat := if f.srcKind = 0 then f.srcNum else f.tenant

/-- The flow key of a frame. -/
def flowKeyOf (f : InFrame) (x : Parsed) : FlowKey :=
  ⟨f.srcKind, (frameOrigin f), x.l3, x.proto, x.ipSrc, x.ipDst, x.l4Src, x.l4Dst⟩

/-- Four words as a 128-bit number, bits [127:96] first. -/
def quadNat (ws : List Word) : Nat := ws.foldl (fun n w => n * 2 ^ 32 + w.toNat) 0
def natQuad (n : Nat) : List Word := [3, 2, 1, 0].map (fun i => BitVec.ofNat 32 (n / 2 ^ (32 * i)))

/-- The flow key an entry of table 0 or 1 names (Table 9.8). -/
def State.flowKeyAt (s : State) (t e : Nat) : FlowKey :=
  let f := s.tf pgFLOW t e
  ⟨f 0 9 8, f 0 17 10, f 0 19 18, f 0 27 20, quadNat ([1, 2, 3, 4].map (s.tw pgFLOW t e)),
   quadNat ([5, 6, 7, 8].map (s.tw pgFLOW t e)), f 9 31 16, f 9 15 0⟩

/-- The entry that holds a key. -/
def State.flowFind (s : State) (k : FlowKey) : Option Nat := s.flowEntries.find? (fun e => s.flowKeyAt 0 e == k)

/-- Words 0 to 10 of an entry with a key; `flags` are word 0 [7:0], `w10` is word 10. -/
def FlowKey.words (k : FlowKey) (flags w10 : Nat) : List Word :=
  [BitVec.ofNat 32 (flags + k.kind * 2 ^ 8 + k.num * 2 ^ 10 + k.l3 * 2 ^ 18 + k.proto * 2 ^ 20)] ++ natQuad k.src ++
    natQuad k.dst ++ [BitVec.ofNat 32 (k.sport * 65536 + k.dport), BitVec.ofNat 32 w10]

/-- The symmetric hash of a key (R301). -/
def State.keyHash (s : State) (k : FlowKey) : Nat :=
  symHash (s.fld pgCLS CLS.hashSeedSeed)
    { l3 := k.l3, proto := k.proto, ipSrc := k.src, ipDst := k.dst, l4Src := k.sport, l4Dst := k.dport }

/-- Capacity (R306). -/
def flowCap : Nat := 262144
def State.flowUsed (s : State) : Nat := s.fld pgFLOW FLOW.statusUsed

/-- The entries in use: FLOW_STATUS, with table_full and table_below (R307). -/
def State.setFlowUsed (n : Nat) (s : State) : State :=
  let was := s.flowUsed
  let s := (s.setFld pgFLOW FLOW.statusUsed n).setFld pgFLOW FLOW.statusFull (b2n (n == flowCap))
  (s.iff (was != flowCap && n == flowCap) (State.raise pgFLOW 1)).iff (was == flowCap && decide (n < flowCap))
    (State.raise pgFLOW 2)

/-- Network time as an entry records it: seconds [31:0] and nanoseconds, 0 while it is invalid. -/
def State.stampWords (s : State) : List Word :=
  if s.timeValid then [BitVec.ofNat 32 s.timeSec, BitVec.ofNat 32 (s.timeNs % 1000000000)] else [0#32, 0#32]

/-- A hit on an entry: the time, and idle time 0 (R304). -/
def State.flowHit (e : Nat) (s : State) : State :=
  ((s.putEntry pgFLOW 0 e 14 (s.stampWords ++ [0#32])).modFlow (fun x => { x with
    hits := Sparse.put 0 e s.now x.hits })).count (cuFLOW + 1)

/-- The idle time of an entry, in ms, saturating. -/
def State.flowIdle (s : State) (e : Nat) : Nat := min ((s.now - Sparse.get 0 s.flow.hits e) / symPerMs) 0xFFFFFFFF

/-- An entry created at a free place: flags, key, word 10; the place that hardware chooses. -/
def State.flowCreate (k : FlowKey) (flags w10 : Nat) (s : State) : State × Option Nat :=
  match s.pick ((List.range flowCap).filter (fun e => !s.flowValid e)) with
  | none => (s, none)
  | some e =>
    let ws := k.words (flags + 1) w10 ++ [BitVec.ofNat 32 (s.keyHash k)] ++ s.stampWords ++ [0#32, 0#32, 0#32]
    let s := (s.useFree.putEntry pgFLOW 0 e 0 ws).modFlow (fun x => { x with hits := Sparse.put 0 e s.now x.hits })
    (s.setFlowUsed (s.flowUsed + 1), some e)

/-- An entry removed. -/
def State.flowRemove (e : Nat) (s : State) : State :=
  let s := (s.putEntry pgFLOW 0 e 0 (List.replicate 20 0#32)).modFlow (fun x => { x with hits := Sparse.put 0 e 0 x.hits })
  s.setFlowUsed (s.flowUsed - 1)

/-- Has the ager's sweep period, FLOW_AGE_CFG.sweep ms, passed since its last sweep began (R308)? 0 acts as 1. When its first one
falls is not stated: at any time (log entry 121). -/
def State.flowSweepDue (s : State) : Bool :=
  s.flow.swept == 0 || decide (s.flow.swept - 1 + max 1 (s.fld pgFLOW FLOW.ageCfgSweep) * symPerMs ≤ s.now)

/-- The ager's visit of one entry (R308). -/
def State.flowVisit (s : State) (e : Nat) : State :=
  let limit := (s.tw pgFLOW 2 (s.tf pgFLOW 0 e 0 5 3) 0).toNat
  if s.tb pgFLOW 0 e 0 1 ∨ limit = 0 ∨ s.flowIdle e < limit then s
  else ((s.flowRemove e).count (cuFLOW + 6)).raiseMs pgFLOW 4

/-! Commands (R309). -/

/-- The result and index a command will report; an index that names no entry is a free value. -/
def State.flowAnswer (result : Nat) (index : Option Nat) (s : State) : State :=
  match index with
  | some e => s.modFlow (fun x => { x with result := result, index := e })
  | none =>
    let v := s.freeVal flowCap
    s.useFree.modFlow (fun x => { x with result := result, index := v })

/-- A command taken: 1 insert, 2 delete, 3 find, from table 1. Its report follows when it is done. -/
def State.flowCommand (op : Nat) (s : State) : State :=
  if op = 0 then s
  else if !s.works pgFLOW || s.flag pgFLOW FLOW.cmdStatusBusy then s.ignored pgFLOW 0x03C 1
  else
    let s := s.setFld pgFLOW FLOW.cmdStatusBusy 1
    let k := s.flowKeyAt 1 0
    match op, s.flowFind k with
    | 1, some e => (s.flowAnswer 1 (some e)).count (cuFLOW + 9)
    | 1, none =>
      let x := s.flowCreate k (2 + s.tf pgFLOW 1 0 0 5 3 * 8) ((s.tw pgFLOW 1 0 10).toNat)
      (match x.2 with
      | some e => (x.1.flowAnswer 0 (some e)).count (cuFLOW + 8)
      | none => (s.flowAnswer 2 none).count (cuFLOW + 9))
    | 2, some e => ((s.flowRemove e).flowAnswer 0 (some e)).count (cuFLOW + 7)
    | _, some e => s.flowAnswer 0 (some e)
    | _, none => (s.flowAnswer 3 none).count (cuFLOW + 9)

/-- The command in progress is done. -/
def State.flowDone (s : State) : State :=
  if s.flag pgFLOW FLOW.cmdStatusBusy then
    (((s.setFld pgFLOW FLOW.cmdStatusBusy 0).setFld pgFLOW FLOW.cmdStatusResult s.flow.result).setFld pgFLOW
      FLOW.cmdStatusIndex s.flow.index).raise pgFLOW 3
  else s

/-! The follow-table (R302, R303). -/

/-- Valid follow entries. -/
def State.followValid (s : State) (e : Nat) : Bool := s.tb pgCLS 4 e 0 0
def State.followEntries (s : State) : List Nat := (s.tblEntries pgCLS 4).filter s.followValid

/-- Words 0 to 9 of a fragment's follow entry: its key. -/
def followKey (f : InFrame) (x : Parsed) : List Word :=
  [BitVec.ofNat 32 (1 + b2n (x.l3 == 2) * 2 + f.srcKind * 4 + (frameOrigin f) * 2 ^ 4 + x.proto * 2 ^ 12)] ++ natQuad x.ipSrc ++
    natQuad x.ipDst ++ [BitVec.ofNat 32 x.ident]

/-- The follow entry of a fragment. -/
def State.followFind (s : State) (f : InFrame) (x : Parsed) : Option Nat :=
  s.followEntries.find? (fun e => s.entry pgCLS 4 e 10 == followKey f x)

/-- CLS_STATUS.follow_used follows the table. -/
def State.showFollow (s : State) : State := s.setFld pgCLS CLS.statusFollowUsed s.followEntries.length

/-- A follow entry used now. -/
def State.followUse (e : Nat) (s : State) : State := s.modCls (fun x => { x with uses := Sparse.put 0 e s.now x.uses })

/-- CLS_FRAG_CFG.timeout in ms: 0 acts as 1, above 1,000 as 1,000 (R310). -/
def State.followLimit (s : State) : Nat := min 1000 (max 1 (s.fld pgCLS CLS.fragCfgTimeout))

/-- Has a follow entry not been used for the time-out (R303)? -/
def State.followStale (s : State) (e : Nat) : Bool := decide (Sparse.get 0 s.cls.uses e + s.followLimit * symPerMs ≤ s.now)

/-- A follow entry removed. -/
def State.followRemove (e : Nat) (s : State) : State :=
  ((s.putEntry pgCLS 4 e 0 (List.replicate 12 0#32)).modCls (fun x => { x with uses := Sparse.put 0 e 0 x.uses })).showFollow

/-- A first fragment recorded, with its action and flow entry. -/
def State.followRecord (f : InFrame) (x : Parsed) (action : Nat) (flow : Option Nat) (s : State) : State :=
  let ws := followKey f x ++ [BitVec.ofNat 32 (x.l4Src * 65536 + x.l4Dst),
    BitVec.ofNat 32 (action + (match flow with | some e => 2 ^ 13 + e * 2 ^ 14 | none => 0))]
  match s.followFind f x with
  | some e => (((s.putEntry pgCLS 4 e 0 ws).followUse e).count (cuCLS + 9)).count (cuCLS + 13)
  | none =>
    match s.pick ((List.range 16384).filter (fun e => !s.followValid e)) with
    | some e => ((s.useFree.putEntry pgCLS 4 e 0 ws).followUse e).showFollow.count (cuCLS + 9)
    | none => (s.count (cuCLS + 12)).raiseMs pgCLS 2

/-! Rules and actions. -/

/-- Does rule `e` match (R293)? `l4ok`: pattern references with an L4 anchor may hit. -/
def State.ruleHit (s : State) (e : Nat) (f : InFrame) (x : Parsed) (l4ok : Bool) (key : Nat) : Bool :=
  let w0 := (s.tw pgCLS 0 e 0).toNat
  let w31 := (s.tw pgCLS 0 e 31).toNat
  let keyOk := (List.range 15).all (fun k =>
    let m := s.tw pgCLS 0 e (16 + k)
    (BitVec.ofNat 32 (key / 2 ^ (32 * k)) &&& m) == (s.tw pgCLS 0 e (1 + k) &&& m))
  let range := fun (use exp idx : Nat) => !w0.testBit use || rangeHit (s.entry pgCLS 2 idx 2) f.length x == w0.testBit exp
  let pat := fun (use exp idx : Nat) =>
    !w0.testBit use || patternHit (s.entry pgCLS 3 idx 9) f.bytes x l4ok == w0.testBit exp
  w0.testBit 0 && keyOk && range 1 2 (bitsOf w31 7 0) && range 3 4 (bitsOf w31 15 8) && pat 5 6 (bitsOf w0 18 9) &&
    pat 7 8 (bitsOf w0 28 19)

/-- The default action of a source kind. -/
def State.defaultAction (s : State) : Nat → Nat
  | 0 => s.fld pgCLS CLS.defaultDefaultUni
  | 1 => s.fld pgCLS CLS.defaultDefaultLine
  | _ => s.fld pgCLS CLS.defaultHostDefaultHost

/-- Rule evaluation: the rule that matched, if one did, and the action's index; counted (R293, R313). -/
def State.byRules (f : InFrame) (x : Parsed) (l4ok : Bool) (s : State) : State × Option Nat × Nat :=
  let key := ruleKey f.srcKind f.srcNum f.tenant f.service x
  match (s.tblEntries pgCLS 0).find? (fun e => s.ruleHit e f x l4ok key) with
  | some e => (s.count (cuCLS + 4), some e, s.tf pgCLS 0 e 31 28 16)
  | none => (s.count (cuCLS + 5), none, s.defaultAction f.srcKind)

/-- A frame that missed and whose action has learn 1 (R305 to R307): the entry it creates, if any. -/
def State.learn (k : FlowKey) (rule : Option Nat) (action : Nat) (saturated : Bool) (s : State) : State × Option Nat :=
  if !s.tb pgCLS 1 action 0 3 then (s, none)
  else if saturated then (s.count (cuFLOW + 5), none)
  else
    let x := s.flowCreate k (4 + s.tf pgCLS 1 action 0 6 4 * 8)
      (action + (match rule with | some r => r * 65536 | none => 2 ^ 29))
    match x.2 with
    | some e => (x.1.count (cuFLOW + 3), some e)
    | none => ((s.count (cuFLOW + 4)).raiseMs pgFLOW 0, none)

/-- Does a frame take a flow lookup, a missed later fragment apart (R304, R314)? -/
def State.takesLookup (s : State) (f : InFrame) (x : Parsed) : Bool :=
  (x.l3 == 1 || x.l3 == 2) && !x.err && s.works pgFLOW && (s.fld pgFLOW FLOW.cfgFlowEnable).testBit f.srcKind

/-- The action's index of a frame: by the follow-table, the flow table or the rules, with what each records; and the
frame with the L4 fields it takes. -/
def State.findAction (f : InFrame) (x : Parsed) (saturated : Bool) (s : State) : State × Parsed × Nat :=
  if x.frag = 2 ∧ x.err = false then
    match s.followFind f x with
    | some e =>
      let w := (s.tw pgCLS 4 e 11).toNat
      let l4 := (s.tw pgCLS 4 e 10).toNat
      let x := { x with l4 := true, l4Src := l4 / 65536, l4Dst := l4 % 65536 }
      let fe := w / 2 ^ 14
      let s := (s.count (cuCLS + 10)).followUse e
      let s := s.iff (w.testBit 13 && s.flowValid fe && s.flowKeyAt 0 fe == flowKeyOf f x) (State.flowHit fe)
      (s.iff (!x.moreFrag) (State.followRemove e), x, w % 2 ^ 13)
    | none =>
      let y := ((s.count (cuCLS + 11)).raiseMs pgCLS 3).byRules f x false
      (y.1, x, y.2.2)
  else
    let record := x.frag = 1 ∧ x.err = false ∧ s.flag pgCLS CLS.cfgFollowEnable = true
    let y : State × Nat × Option Nat :=
      if s.takesLookup f x then
        let k := flowKeyOf f x
        let s := s.count cuFLOW
        match s.flowFind k with
        | some e => ((s.flowHit e).count (cuCLS + 15), s.tf pgFLOW 0 e 10 12 0, some e)
        | none =>
          let r := (s.count (cuFLOW + 2)).byRules f x true
          let l := r.1.learn k r.2.1 r.2.2 saturated
          (l.1, r.2.2, l.2)
      else
        let r := s.byRules f x true
        (r.1, r.2.2, none)
    (if record then y.1.followRecord f x y.2.1 y.2.2 else y.1, x, y.2.1)

/-- A policed frame counted once, by its colour after policing or as dropped (R286). -/
def State.countPoliced (len : Nat) (y : State × Nat × Bool) : State × Nat × Bool :=
  if y.2.2 then (((y.1.count (cuPOL + 3)).countBy (cuPOL + 4) len).raiseMs pgPOL 0, y.2)
  else (y.1.count (cuPOL + min y.2.1 2), y.2)

/-- The policers an action names, applied to a UNI frame: the colour, the worse of the results, and whether it is dropped. The
second has the first one's result as its input colour (R272). A frame that names one that is not applied is counted once
(R273, R274). -/
def State.police (f : InFrame) (act : List Word) (colour : Nat) (s : State) : State × Nat × Bool :=
  let w2 := (act.getD 2 0#32).toNat
  let named := ([(13, bitsOf w2 12 0), (29, bitsOf w2 28 16)].filter (fun x => w2.testBit x.1)).map Prod.snd
  let s := s.iff (named.any (fun k => !s.polApplies k)) (State.count (cuPOL + 5))
  let s := s.iff (s.works pgPOL && named.any (fun k => s.tb pgPOL 0 k 0 0 && !s.polUsable k)) (State.raise pgPOL 1)
  match named.filter s.polApplies with
  | [] => (s, colour, false)
  | k :: rest =>
    let a := s.polMeter k f.length colour
    State.countPoliced f.length (match a.2.2, rest with
      | false, k2 :: _ =>
        let b := a.1.polMeter k2 f.length a.2.1
        (b.1, max a.2.1 b.2.1, b.2.2)
      | _, _ => a)

/-- What became of a frame noted until its copies are decided. -/
def State.noteAct (id : Nat) (c : Option Classified) (s : State) : State :=
  s.modCls (fun x => { x with acts := Sparse.put none id (some c) x.acts })

/-- Do two frames come from one origin: a UNI port, a stream of one tenant and service from the line, a host ring (R287)? -/
def sameOrigin (f g : InFrame) : Bool :=
  f.srcKind == g.srcKind &&
    (if f.srcKind = 1 then f.tenant == g.tenant && f.service == g.service else f.srcNum == g.srcNum && f.ring == g.ring)

/-- The frame that leaves the classifier next where `f` is due: the first that waits of its origin (R287). -/
def State.dueFrame (s : State) (f : InFrame) : InFrame := (s.cls.handed.find? (sameOrigin f)).getD f

/-- A frame classified (R288 to R301): parsed, looked up, given an action, checked for isolation, policed. -/
def State.classify (f : InFrame) (saturated : Bool) (s : State) : State :=
  let s := s.modCls (fun x => { x with handed := x.handed.erase f })
  if !s.works pgCLS then (s.count (cuCLS + 8)).noteAct f.id none
  else
    let x := parseFrame (s.fld pgCLS CLS.cfgTpidAlt) f.bytes
    let s := s.count (cuCLS + min f.srcKind 2)
    let s := s.iff x.err (fun s => (s.count (cuCLS + 3)).raiseMs pgCLS 0)
    let y := s.findAction f x saturated
    let s := y.1
    let act := s.entry pgCLS 1 y.2.2 4
    let w := fun (i hi lo : Nat) => bitsOf (act.getD i 0#32).toNat hi lo
    let kind := w 0 2 0
    let tenant := if f.srcKind = 0 then w 1 7 0 else f.tenant
    let service := if f.srcKind = 1 then f.service else w 1 11 8
    let cross := w 0 10 10 == 1
    let hash := symHash (s.fld pgCLS CLS.hashSeedSeed) y.2.1
    let input := b2n (f.srcKind == 0 && s.flag pgCLS CLS.cfgDeiColour && x.oPresent && x.oDei)
    let colour := if w 0 9 8 = 0 then input else w 0 9 8 - 1
    if kind = 0 ∨ 5 ≤ kind then
      ((s.iff (decide (5 ≤ kind)) (State.raise pgCLS 4)).count (cuCLS + 6)).noteAct f.id none
    else if ((kind = 2 ∨ kind = 3) ∧ w 1 23 16 ≠ tenant ∧ cross = false) ∨ (kind = 3 ∧ w 3 7 0 ≠ w 1 23 16) ∨
        (kind = 1 ∧ f.srcKind = 1) then
      ((s.count (cuCLS + 7)).raiseMs pgCLS 1).noteAct f.id none
    else
      let p := if f.srcKind = 0 then s.police f act colour else (s, colour, false)
      p.1.noteAct f.id (if p.2.2 then none else some ⟨y.2.2, act, tenant, service, p.2.1, hash⟩)

end Sys2Proof.Machine
end

