-- ==== Sys2Proof/Machine/SwcOps.lean ====
section
/-! DEFINITION. Admission (R325 to R334), sampling's offer (R340), and the end of a frame. -/

namespace Sys2Proof.Machine

/-! The first byte (R325 steps 1 to 3). -/

/-- The cells that the fragments of a line frame already hold (R230), and the note of them gone. -/
def State.lineCells (s : State) (id : Nat) : List Nat := (Sparse.get (0, []) s.sto.lineCells id).2
def State.forgetCells (id : Nat) (s : State) : State :=
  s.modSto (fun x => { x with lineCells := Sparse.put (0, []) id (0, []) x.lineCells })

/-- The cells that a frame needs for its first `n` bytes drawn and charged to its tenant (R325 step 3; log entry 119). Where the
pool has too few, the frame ends for want of cells, and those it holds return (step 6). -/
def State.growFrame (id n : Nat) (s : State) : State :=
  match s.frame id with
  | none => s
  | some f =>
    let need := max 1 (cellsOf n) - f.cells.length
    let k := min need s.freeCells
    let cells := f.cells ++ s.nextCells f.cells k
    if f.endWith = 2 then s
    else
      let s := s.iff (k != 0) (State.drawCells f.tenant f.cells k)
      if k < need then
        (((s.returnCells f.tenant cells).putFrame id (some { f with cells := [], endWith := 2 }))).pfcFor f
      else (s.putFrame id (some { f with cells := cells, arrived := max f.arrived n })).pfcFor f

/-- A frame's first byte reaches the buffer manager: refused, or its cells drawn for the bytes that have arrived; a line frame
keeps those that its fragments hold. The answer says whether it was taken. -/
def State.admitStart (a : AdmitReq) (prio : Nat) (s : State) : State × Bool :=
  let held := s.lineCells a.id
  let s := s.iff (!held.isEmpty) (State.forgetCells a.id)
  let refuse := fun (s : State) => (s.iff (!held.isEmpty) (State.returnCells a.tenant held), false)
  if !s.works pgSTO then refuse (s.count (cuSTO + 10))
  else if !s.works pgSWC then refuse (s.count (cuSWC + 13))
  else
    let s := s.count cuSWC
    let quota := s.tf pgSTO 0 a.tenant 0 27 0
    if quota ≠ 0 ∧ quota ≤ s.tf pgSTO 0 a.tenant 1 27 0 - held.length then refuse (s.count (cuSTO + 3))
    else if s.freeCells + held.length = 0 then (s.count (cuSTO + 2), false)
    else
      let f : Frame := { srcKind := a.srcKind, srcNum := a.srcNum, tenant := a.tenant, rate := a.rate, bytes := a.bytes,
                         cells := held, arrived := a.arrived, prio := prio, born := s.sto.started }
      let s := (s.putFrame a.id (some f)).modSto (fun x => { x with started := x.started + 1 })
      (s.growFrame a.id a.arrived, true)

/-! Entries as they stood when a frame started admission (R330). -/

/-- Word `w` of entry `e` of SWC table `t` as it applies to a frame: what it held before the first write that came after the
frame had started, else what it holds. -/
def State.swcAt (s : State) (f : Frame) (t e w : Nat) : Nat :=
  match s.sto.changes.find? (fun x => x.2.1 == tblKey pgSWC t e w && decide (f.born < x.1)) with
  | some x => x.2.2.toNat
  | none => (s.tw pgSWC t e w).toNat

/-- The words of an SWC table entry noted before they are written, while frames that await their decision hold. -/
def State.noteChange (t e n : Nat) (s : State) : State :=
  let waits := s.sto.frames.filterMap (fun x => match x.2 with
    | some f => if f.decided then none else some f.born
    | none => none)
  let old := (List.range n).map (fun w => (s.sto.started, tblKey pgSWC t e w, s.tw pgSWC t e w))
  s.modSto (fun x => { x with changes := (x.changes ++ old).filter (fun y => waits.any (fun b => decide (b < y.1))) })

/-- The priority of a UNI frame: its outer tag's PCP, or the port's default (R435). -/
def State.framePrio (s : State) (port : Nat) (bytes : Bytes) : Nat :=
  let x := parseFrame (s.fld pgCLS CLS.cfgTpidAlt) bytes
  if x.oPresent then x.oPcp else s.pf port UNIQ.portCfgDefaultPrio

/-! The copy list (R326). -/

/-- A copy to decide: its admission queue, its egress port (16 host, 17 cores, none upstream), its destination where a
function, whether a check of R326 or of the port number already refuses it, its service or class. -/
structure CopyDest where
  queue : Nat
  port : Option Nat
  fn : Nat := 0
  refused : Bool := false
  service : Nat
  deriving DecidableEq, Repr

/-- Downstream queue numbers (Table 10.5) as admission queues. -/
def uniQueue (port tenant cls : Nat) : Nat := downBase + 4096 * port + 16 * tenant + cls
def hostQueue (f cls : Nat) : Nat := downBase + 65536 + 16 * f + cls
def coreQueue : Nat := downBase + 69632
def sampleQueue : Nat := downBase + 69633

/-- The destinations of a frame's copies in order, samples apart. -/
def State.copyDests (s : State) (f : Frame) (c : Classified) : List CopyDest :=
  let w := fun (i hi lo : Nat) => bitsOf (c.act.getD i 0#32).toNat hi lo
  let kind := w 0 2 0
  let num := w 3 7 0
  let dt := w 1 23 16
  let cls := w 1 27 24
  let first : List CopyDest :=
    if kind = 1 then [⟨16 * c.tenant + c.service, none, 0, false, c.service⟩]
    else if kind = 2 then [⟨uniQueue (num % 16) dt cls, some (num % 16), 0, decide (16 ≤ num), cls⟩]
    else if kind = 3 then [⟨hostQueue num cls, some 16, num, false, cls⟩]
    else [⟨coreQueue, some 17, 0, false, cls⟩]
  let rep := s.swcAt f 2 c.action 0
  if !rep.testBit 0 then first
  else
    let bad := dt != c.tenant && w 0 10 10 == 0
    let ports := (List.range 16).filter (fun p => rep.testBit (p + 1) && !(kind == 2 && num == p))
    first ++ ports.map (fun p => ⟨uniQueue p dt cls, some p, 0, bad, cls⟩) ++
      (if rep.testBit 17 then [⟨hostQueue dt cls, some 16, dt, bad, cls⟩] else []) ++
      (if rep.testBit 18 then [⟨coreQueue, some 17, 0, false, cls⟩] else [])

/-! Checks (R327), WRED (R331, R332). -/

/-- The average depth A of a queue brought up to a decision (R331); the quotient is rounded down (log entry 41). -/
def State.wredAverage (f : Frame) (q : Nat) (s : State) : State :=
  let a : Int := (s.tw pgSWC 0 q 2).toNat
  let cur : Int := (s.queueBytes q / 16 : Nat)
  let w := bitsOf (s.swcAt f 0 q 0) 30 27
  s.putTw pgSWC 0 q 2 (BitVec.ofInt 32 (a + (cur - a) / (2 ^ w : Nat)))

/-- WRED decides a copy of a colour: the state, with the random value it may draw, and whether it is refused (R332). -/
def State.wred (f : Frame) (q colour : Nat) (s : State) : State × Bool :=
  let e := 3 * bitsOf (s.swcAt f 0 q 0) 26 24 + colour
  let lo := 256 * bitsOf (s.swcAt f 1 e 1) 15 0
  let hi := 256 * bitsOf (s.swcAt f 1 e 1) 31 16
  let a := (s.tw pgSWC 0 q 2).toNat
  if !bitOf (s.swcAt f 1 e 0) 0 then (s, false)
  else if hi ≤ lo then (s.raise pgSWC 3, false)
  else if a < lo then (s, false)
  else if hi ≤ a then (s, true)
  else (s.useFree, decide (s.freeVal 256 * (hi - lo) < bitsOf (s.swcAt f 1 e 0) 15 8 * (a - lo)))

/-- Is the destination open: the port or function enabled, or for upstream the tenant enabled on a tree? -/
def State.destOpen (s : State) (c : Classified) (d : CopyDest) : Bool :=
  !d.refused && (match d.port with
    | none => s.tenantEnabled .a c.tenant || s.tenantEnabled .b c.tenant
    | some 16 => s.fnEnabled d.fn
    | some 17 => true
    | some p => s.portOn p)

/-- Is a copy cut-through at its decision (R333)? -/
def State.cutsThrough (s : State) (f : Frame) (d : CopyDest) : Bool :=
  match d.port with
  | some p =>
    decide (p < 16) && bitOf (s.swcAt f 3 (16 * p + d.service) 0) 0 && f.srcKind != 2 &&
      decide (modeRate (s.portMode p) ≤ (if f.srcKind = 1 then 200 else f.rate)) &&
      s.queueBytes d.queue == 0 &&
      (match s.sendingOn p with | some c => c.queue != d.queue | none => true)
  | none => false

/-- The copy of a frame at a destination, with the descriptor that represents it. -/
def State.copyOf (s : State) (id : Nat) (f : Frame) (c : Classified) (d : CopyDest) : Copy :=
  { frame := id, desc := s.nextDesc, queue := d.queue, length := f.bytes.length, colour := c.colour, tenant := c.tenant, service := d.service,
    frameService := c.service, hash := c.hash, action := c.action, srcKind := f.srcKind, srcNum := f.srcNum,
    tag := f.tag, tick := s.ticks }

/-- An admitted copy held until the frame ends: its descriptor, its bytes in its queue. -/
def State.holdCopy (id : Nat) (c : Copy) (s : State) : State :=
  let c := { c with desc := s.nextDesc }
  ((s.takeRef id).modFrame id (fun f => { f with waiting := f.waiting ++ [c] })).setQueueBytes c.queue
    (s.queueBytes c.queue + c.length)

/-- An admitted upstream copy: one shared descriptor, or one per serving tree (R225, R228, R231). -/
def State.admitUp (id : Nat) (c : Copy) (s : State) : State :=
  let q := c.queue
  if !s.upDup q then s.holdCopy id c
  else
    let trees := if s.works pgDUAL then [Tree.a, Tree.b].filter (fun t => s.servesStream t q) else []
    if !s.works pgDUAL then s.count (cuDUAL + 13)
    else
      let seq := s.tf pgDUAL 1 q 1 15 0
      let s := (s.setTf pgDUAL 1 q 1 15 0 ((seq + 1) % 65536)).iff (trees.length == 2) (State.count (cuDUAL + 11))
      if trees.isEmpty then s.count (cuDUAL + 13)
      else trees.foldl (fun s t => s.holdCopy id { c with prot := true, tree := treeIx t, sequence := seq }) s

/-- One copy decided (R327): admitted, or refused at its cause. -/
def State.decideCopy (id : Nat) (c : Classified) (s : State) (d : CopyDest) : State :=
  match s.frame id with
  | none => s
  | some f =>
    let s := (s.count (cuSWC + 1)).wredAverage f d.queue
    let need := if d.port.isNone && s.upDup d.queue && s.servesStream .a d.queue && s.servesStream .b d.queue then 2 else 1
    let len := if f.srcKind = 0 ∧ f.ended = false then s.fld pgSWC SWC.mtuMtu else f.bytes.length
    let limit := bitsOf (s.swcAt f 0 d.queue 0) 23 0
    if !s.destOpen c d then s.count (cuSWC + 3)
    else if s.freeDescs < need then s.count (cuSWC + 4)
    else if limit ≠ 0 ∧ 4096 * limit < s.queueBytes d.queue + len then (s.count (cuSWC + 5)).raiseMs pgSWC 1
    else
      let y := s.wred f d.queue c.colour
      if y.2 then (y.1.count (cuSWC + 6 + c.colour)).raiseMs pgSWC 0
      else
        let s := (y.1.count (cuSWC + 2)).countBy (cuSWC + 14) f.bytes.length
        let copy := s.copyOf id f c d
        if d.port.isNone then s.admitUp id copy
        else if s.cutsThrough f d then
          ((s.takeRef id).setQueueBytes d.queue (s.queueBytes d.queue + copy.length)).joinDown { copy with cutThrough := true }
        else s.holdCopy id copy

/-! Sampling (R340). -/

/-- A frame offered to the sampler of its source kind. -/
def State.offerSample (id : Nat) (c : Classified) (s : State) : State :=
  match s.frame id with
  | none => s
  | some f =>
    let k := min f.srcKind 2
    if !s.works pgMIR || !(c.act.getD 0 0#32).getLsbD 7 then s
    else
      let n := s.tf pgMIR 0 k 0 15 0
      let seen := Sparse.get 0 s.sto.offered k + 1
      let s := (s.count cuMIR).modSto (fun x => { x with offered := Sparse.put 0 k seen x.offered })
      if n = 0 ∨ seen % n ≠ 0 then s
      else if 256 * s.fld pgMIR MIR.qlimitQlimit < s.queueBytes sampleQueue ∨ s.freeDescs = 0 then
        (s.count (cuMIR + 3)).raiseMs pgMIR 0
      else
        let q := (s.tw pgMIR 0 k 1)
        let len := min f.bytes.length (64 * (s.tf pgMIR 0 k 0 19 16 + 1))
        let copy := { s.copyOf id f c ⟨sampleQueue, some 18, 0, false,
            if bitsOf (c.act.getD 0 0#32).toNat 2 0 = 1 then c.service else bitsOf (c.act.getD 1 0#32).toNat 27 24⟩ with
          length := len, sample := true, sampler := k, sampleSeq := q.toNat, tag := none }
        ((s.count (cuMIR + 1)).putTw pgMIR 0 k 1 (q + 1#32)).holdCopy id copy

/-! Frame end (R325 steps 5 to 8). -/

/-- A decided frame no copy of which was admitted leaves the store. -/
def State.dropEmpty (id : Nat) (s : State) : State :=
  match s.frame id with
  | some f => if f.refs = 0 then s.freeFrame id else s
  | none => s

/-- The copies of a frame decided (R326 to R329). -/
def State.decideFrame (id : Nat) (c : Classified) (s : State) : State :=
  let admitted := fun (s : State) => s.counter (cuSWC + 2)
  let before := admitted s
  let s := s.modFrame id (fun f => { f with decided := true, arrived := max f.arrived (min 256 f.bytes.length) })
  let s := (match s.frame id with | some f => s.copyDests f c | none => []).foldl (State.decideCopy id c) s
  let s := s.iff (admitted s == before) (State.count (cuSWC + 9))
  (s.offerSample id c).dropEmpty id

/-- One copy joins its list at frame end. -/
def State.joinCopy (s : State) (c : Copy) : State :=
  let c := { c with tick := s.ticks, order := s.sto.nextOrder, sec := if s.timeValid then s.timeSec else 0,
                    ns := if s.timeValid then s.timeNs % 10 ^ 9 else 0 }
  let s := s.modSto (fun x => { x with nextOrder := x.nextOrder + 1 })
  if c.queue < downBase then
    (if !c.prot then s.joinShared c.queue c
     else if s.groupHeld c.queue then
      ((s.count cuUSCH).setQueueBytes c.queue (s.queueBytes c.queue - c.length)).endCopy (cuUSCH + 6) c
     else ((s.count cuUSCH).appendCopy (treeList (if c.tree = 0 then .a else .b) c.queue) c).showQueue c.queue)
  else s.joinDown c

/-- The copies of a frame that are in lists or being sent take the tick at its end (R325 step 8): its cut-through copies. -/
def State.stampCopies (id : Nat) (s : State) : State :=
  let stamp := fun (c : Copy) => if c.frame = id ∧ c.cutThrough = true then { c with tick := s.ticks } else c
  s.modSto (fun x => { x with
    lists := x.lists.map (fun y => (y.1, y.2.map stamp))
    sending := x.sending.map (fun y => (y.1, y.2.map stamp)) })

/-- Has a frame ended for want of cells? -/
def State.frameShort (s : State) (id : Nat) : Bool := match s.frame id with | some f => f.endWith == 2 | none => false

/-- The end of a decided frame: dropped for an ingress error or an empty pool, or every waiting copy joins its list. -/
def State.endFrame (id : Nat) (err poolEmpty : Bool) (s : State) : State :=
  match s.frame id with
  | none => s
  | some f =>
    let short := poolEmpty || f.endWith == 2
    let s := s.iff (!err && !short) (State.growFrame id f.bytes.length)
    if err && f.endWith != 2 then (s.dropFrameCopies id (cuSWC + 12)).dropEmpty id
    else if short || s.frameShort id then (s.dropFrameCopies id (cuSWC + 4)).dropEmpty id
    else
      let s := s.modFrame id (fun g => { g with ended := true, arrived := g.bytes.length, waiting := [] })
      f.waiting.foldl State.joinCopy (s.stampCopies id)

/-- The classifier's action of a frame that is held, or that it was dropped; none where it has not arrived. -/
def State.actOf (s : State) (id : Nat) : Option (Option Classified) := Sparse.get none s.cls.acts id

/-- The note of a frame's action gone. -/
def State.forgetAct (id : Nat) (s : State) : State := s.modCls (fun x => { x with acts := Sparse.put none id none x.acts })

/-- The decision taken where the action has arrived and no decision has been taken. -/
def State.decideNow (id : Nat) (s : State) : State :=
  match s.actOf id, s.frame id with
  | some act, some f =>
    if f.decided then s
    else
      let s := s.forgetAct id
      match act with
      | none => s.freeFrame id
      | some c => s.decideFrame id c
  | some _, none => s.forgetAct id
  | none, _ => s

/-- The end of a frame once its decision has been taken. -/
def State.endDecided (id : Nat) (err : Bool) (s : State) : State :=
  match s.frame id with
  | some f => s.iff f.decided (State.endFrame id err false)
  | none => s

/-- COPY_DECIDE's effect: the decision, and the end of a frame whose last byte is already there, or that has ended for want of
cells. -/
def State.copyDecide (id : Nat) (s : State) : State :=
  match s.frame id with
  | some f =>
    let s := s.decideNow id
    s.iff ((f.ended || f.endWith == 2) && !f.decided) (State.endDecided id (f.endWith == 1))
  | none => s.forgetAct id

/-- FRAME_ADMIT_END's effect. A frame whose action has not arrived waits for it. -/
def State.admitEnd (id : Nat) (err poolEmpty : Bool) (s : State) : State :=
  match s.frame id with
  | none => s
  | some f =>
    let err := err || s.uni.errored.contains id
    let s := s.modUni (fun u => { u with errored := u.errored.erase id })
    if !f.decided && (s.actOf id).isNone then
      s.modFrame id (fun f => { f with
        ended := true, arrived := f.bytes.length,
        endWith := if f.endWith = 2 then 2 else if err then 1 else if poolEmpty then 2 else 0 })
    else
      let s := s.modFrame id (fun f => { f with ended := f.ended || !f.decided })
      (s.decideNow id).endFrame id err poolEmpty

/-! Memory errors (R324). -/

/-- The cell of a frame that an error has struck retired: which one the command does not say, so that a free value does. -/
def State.retireCell (id : Nat) (s : State) : State :=
  match s.frame id with
  | none => s
  | some f =>
    match s.pick f.cells with
    | none => s
    | some c =>
    let s := s.useFree.modSto (fun x => { x with retired := c :: x.retired })
    let s := s.putFrame id (some { f with cells := f.cells.erase c, bad := true })
    let s := s.setTf pgSTO 0 f.tenant 1 27 0 (s.tf pgSTO 0 f.tenant 1 27 0 - 1)
    ((s.setFld pgSTO STO.retiredRetired (s.fld pgSTO STO.retiredRetired + 1)).count (cuSTO + 5)).raise pgSTO 3

/-- An uncorrectable error of a cell read: the cell retired, the copy being read on `port` aborted, or the copies on
their way to host functions dropped; later reads meet the mark. -/
def State.cellError (id : Nat) (port : Option Nat) (s : State) : State :=
  let s := s.retireCell id
  match port with
  | some p =>
    match s.sendingOn p with
    | some c => if c.frame = id ∧ p < 16 then s.abortCopy p c else s
    | none => s
  | none =>
    (s.sto.sending.filter (fun x => decide (32 ≤ x.1) && (match x.2 with | some c => c.frame == id | none => false))).foldl
      (fun s x => match x.2 with
        | some c => (s.putSending x.1 none).endCopy (cuSTO + 9) c
        | none => s) s

/-- A frame's cells are cut off until a sweep finds them. -/
def State.loseCells (id : Nat) (s : State) : State :=
  match s.frame id with
  | none => s
  | some f =>
    ((s.putFrame id none).pfcFor f).modSto (fun x => { x with
      lost := Sparse.put [] f.tenant (Sparse.get [] x.lost f.tenant ++ f.cells) x.lost })

/-- One reference more held on a frame, so that it stays while its copies are dropped. -/
def State.holdFrame (id : Nat) (s : State) : State := s.modFrame id (fun f => { f with refs := f.refs + 1 })

/-- An uncorrectable error of a link entry: every copy of the frame dropped, its cells cut off. -/
def State.entryError (id : Nat) (s : State) : State :=
  ((s.holdFrame id).dropFrameCopies id (cuSTO + 9)).loseCells id

/-- The frame of the copy that descriptor `d` represents, where one is held. -/
def State.descFrame (s : State) (d : Nat) : Option Nat :=
  let waiting := s.sto.frames.flatMap (fun x => match x.2 with | some f => f.waiting | none => [])
  ((s.sto.lists.flatMap (fun x => x.2) ++ s.sto.sending.filterMap (fun x => x.2) ++ waiting).find? (fun c => c.desc == d)).map
    Copy.frame

/-- An uncorrectable error of descriptor `d`: its copy dropped; where no other references the frame, its cells cut off. -/
def State.descError (d : Nat) (s : State) : State :=
  match s.descFrame d with
  | none => s
  | some id =>
    let ok := fun (c : Copy) => c.desc == d
    let s := (((s.holdFrame id).dropSending ok (cuSTO + 9)).dropListed ok (cuSTO + 9)).dropWaitingOf ok id (cuSTO + 9)
    match s.frame id with
    | some f => if f.refs ≤ 1 then s.loseCells id else s.putFrame id (some { f with refs := f.refs - 1 })
    | none => s

/-- MEM_UNCORRECTABLE's effect. -/
def State.memError (what : MemErr) (s : State) : State :=
  let bad := (s.count (cuSTO + 8)).raise pgSTO 4
  match what with
  | .cell id port => bad.cellError id port
  | .entry id => bad.entryError id
  | .desc d => bad.descError d
  | .corrected => s.count (cuSTO + 4)

end Sys2Proof.Machine
end

