-- ==== Sys2Proof/Machine/DschOps.lean ====
section
/-! DEFINITION. Downstream egress (R335 to R341): ageing, the two rounds, what starts on a UNI port, what is handed to a
host function or to the cores, sample delivery, flushes. -/

namespace Sys2Proof.Machine

/-! Queues. -/

/-- The first admission queue of an egress port: UNI 0 to 15, host 16, cores 17, sampler 18 (Table 10.5). -/
def portBase (p : Nat) : Nat := if p ≤ 16 then downBase + 4096 * p else downBase + 69632 + (p - 17)

/-- Does an admission queue belong to an egress port; to a host function? -/
def ofPort (p q : Nat) : Bool := decide (portBase p ≤ q) && decide (q < portBase (p + 1))
def ofFn (f q : Nat) : Bool := decide (hostQueue f 0 ≤ q) && decide (q < hostQueue (f + 1) 0)

/-- The function of a host queue (Table 10.5). -/
def fnOf (q : Nat) : Nat := nodeOf q - 4096

/-- The parameters in force of a downstream queue: level, weight, age limit. -/
def State.dparam (s : State) (q : Nat) : Nat := (Sparse.get 0#32 s.sto.activeQueue ((q - downBase) * 4)).toNat
def State.dlevel (s : State) (q : Nat) : Nat := bitsOf (s.dparam q) 2 0
def State.dweight (s : State) (q : Nat) : Nat := max 1 (bitsOf (s.dparam q) 15 8)
def State.dage (s : State) (q : Nat) : Nat := bitsOf (s.dparam q) 31 16

/-- Word `w` in force of a tenant node. -/
def State.nparam (s : State) (n w : Nat) : Nat := (Sparse.get 0#32 s.sto.activeNode (n * 4 + w)).toNat
def State.nweight (s : State) (n : Nat) : Nat := max 1 (bitsOf (s.nparam n 0) 15 8)

/-- Has a node's shaper tokens, or no rate (R337)? -/
def State.nodeOk (s : State) (n : Nat) : Bool :=
  bitsOf (s.nparam n 1) 22 0 == 0 || decide (0 < Sparse.get 0 s.sto.nodeTokens n)

/-- The mark that a queue's head copy waits for buffers (R463). -/
def State.setStarved (q : Nat) (on : Bool) (s : State) : State :=
  s.modDma (fun d => { d with starved := Sparse.put false q on d.starved })

/-! Ageing (R338). -/

/-- A head copy discarded by age. -/
def State.ageDiscard (q : Nat) (c : Copy) (s : State) : State :=
  let s := (s.unlinkCopy (listKey q 0) c).setStarved q false
  let s := (s.count (cuDSCH + 4)).countBy (cuDSCH + 5) c.length
  (s.raiseMs pgDSCH 0).releaseRef c

/-- Head copies that have reached the queue's age limit go, at most `n` of them. -/
def State.downAge (q : Nat) : Nat → State → State
  | 0, s => s
  | n + 1, s =>
    match s.downHead q with
    | some c => if s.dage q ≠ 0 ∧ s.dage q ≤ s.copyAge c then State.downAge q n (s.ageDiscard q c) else s
    | none => s

/-- The head age of a queue, saturating, and its view (DSCH table 2 word 1). -/
def State.downHeadAge (s : State) (q : Nat) : Nat := match s.downHead q with | some c => min (s.copyAge c) 65535 | none => 0
def State.showHeadAge (q : Nat) (s : State) : State := s.setTf pgDSCH 2 (q - downBase) 1 15 0 (s.downHeadAge q)

/-- A queue examined. -/
def State.examineDown (q : Nat) (s : State) : State := (State.downAge q (s.list (listKey q 0)).length s).showHeadAge q

/-! Host rings as the queues see them (R456, R463). -/

/-- A field of ring `k` of function `f`. -/
def ringFld (rx : Bool) (k : Nat) (x : Fld) : Fld := ⟨ringBase rx k + x.off, x.hi, x.lo⟩
def State.rg (s : State) (f : Nat) (rx : Bool) (k : Nat) (x : Fld) : Nat := s.fld (fnPage f) (ringFld rx k x)
def State.setRg (f : Nat) (rx : Bool) (k : Nat) (x : Fld) (v : Nat) (s : State) : State :=
  s.setFld (fnPage f) (ringFld rx k x) v

/-- Size, buffer bytes, entries posted of a host ring; how many rings a function has (DMA table 0). -/
def State.rgSize (s : State) (f : Nat) (rx : Bool) (k : Nat) : Nat := ringSize (s.rg f rx k RING.cfgLog2Size)
def State.rgBuf (s : State) (f k : Nat) : Nat := 256 * max 1 (s.rg f true k RING.cfgBufUnits)
def State.rgPosted (s : State) (f : Nat) (rx : Bool) (k : Nat) : Nat :=
  ringPosted (s.rgSize f rx k) (s.rg f rx k RING.tailTail) (s.rg f rx k RING.headHead)
def State.rgCount (s : State) (f : Nat) (rx : Bool) : Nat := min 32 (s.tf pgDMA 0 f (b2n rx) 21 16)

/-- The receive ring of a function for a hash. -/
def State.rxRing (s : State) (f hash : Nat) : Nat := hash * s.rgCount f true / 2 ^ 32

/-- Has the hash's ring of a function, in a state among `ok`, the posted buffers that `n` bytes need? -/
def State.hostRoomIn (s : State) (ok : List Nat) (f hash n : Nat) : Bool :=
  let k := s.rxRing f hash
  s.rgCount f true != 0 && ok.contains (s.rg f true k RING.ctrlState) &&
    decide ((n + s.rgBuf f k - 1) / s.rgBuf f k ≤ s.rgPosted f true k)

/-- May `n` bytes be written to a function now: it has receive rings, and the hash's ring runs with enough posted
buffers? -/
def State.hostRoom (s : State) (f hash n : Nat) : Bool := s.hostRoomIn [1] f hash n

/-- A host queue judged for the want of buffers: each start of a wait is counted (R463). -/
def State.starveJudge (q : Nat) (s : State) : State :=
  match s.downHead q with
  | none => s.setStarved q false
  | some c =>
    let f := fnOf q
    if !s.fnServed f || s.rgCount f true == 0 then s
    else if s.hostRoom f c.hash c.length then s.setStarved q false
    else if Sparse.get false s.dma.starved q then s
    else ((s.setStarved q true).count (cuDMA + 8)).raiseMs pgDMA 3

/-! Eligibility (R333, R336, R409, R463). -/

/-- Does a tag hold its copy back: its launch entry is armed and the copy not yet eligible (R409, R410)? -/
def State.launchHolds (s : State) (p : Nat) (tag : Option Nat) : Bool :=
  match tag with
  | some t => t != 0 && s.launchArmed (256 * p + t % 256) &&
      !(s.works pgTIME && s.timeValid && s.time.eligible.contains (p, t % 256))
  | none => false

/-- The instant at which a launch entry's copy starts on its port, in units: its time less the egress delay (R409). -/
def State.launchAt (s : State) (e : Nat) : Int := (s.launchTime e * unitsPerNs : Nat) - (s.portDelay (e / 256) 2 : Int)

/-- Does a copy, once selected, wait on port `p` for its time (R409)? -/
def State.launchWaits (s : State) (p : Nat) (c : Copy) : Bool :=
  match c.tag with
  | some t => decide (p < 16) && t != 0 && s.launchArmed (256 * p + t % 256) &&
      decide ((s.time.val : Int) < s.launchAt (256 * p + t % 256))
  | none => false

/-- Does a frame of `n` bytes that starts now leave whole before a launch copy's start at `at_`: 20 bytes more than its own (R409,
Table 13.4)? -/
def State.sentBefore (s : State) (p : Nat) (at_ : Int) (n : Nat) : Bool :=
  decide ((s.time.val + 8 * (n + 20) * unitsPerNs / modeRate (s.portMode p) : Nat) ≤ at_)

/-- Does the head of a queue leave whole before a launch copy's start at `at_`? -/
def State.leavesBefore (s : State) (p : Nat) (at_ : Int) (q : Nat) : Bool :=
  match s.downHead q with
  | some c => s.sentBefore p at_ c.length
  | none => false

/-- Have enough bytes of a cut-through copy's frame been written (R333)? -/
def State.bytesReady (s : State) (c : Copy) : Bool :=
  !c.cutThrough || (match s.frame c.frame with
    | some f => f.ended || decide (min 512 f.bytes.length ≤ f.arrived)
    | none => true)

/-- Is a queue of an egress port eligible? -/
def State.downEligible (s : State) (p q : Nat) : Bool :=
  match s.downHead q with
  | none => false
  | some c =>
    if p < 16 then s.bytesReady c && !s.classPaused p (classOf q) && !s.launchHolds p c.tag
    else s.fnServed (fnOf q) && s.hostRoom (fnOf q) c.hash c.length &&
      (s.sendingOn (handKey (fnOf q) (classOf q))).isNone

/-! The rounds (R336). -/

/-- Deficit weighted round robin over a ring: `turn` is the one whose turn stands, plus 1. The answer is the one served
and the deficits; its cost is subtracted. -/
def dwrr (ring : List Nat) (quantum cost : Nat → Nat) : Nat → Nat → Sparse Int → Option (Nat × Sparse Int)
  | 0, _, _ => none
  | n + 1, turn, m =>
    if turn ≠ 0 ∧ ring.contains (turn - 1) = true ∧ (cost (turn - 1) : Int) ≤ Sparse.get 0 m (turn - 1) then
      some (turn - 1, Sparse.put 0 (turn - 1) (Sparse.get 0 m (turn - 1) - cost (turn - 1)) m)
    else
      match ringNext turn ring with
      | none => none
      | some e => dwrr ring quantum cost n (e + 1) (Sparse.put 0 e (Sparse.get 0 m e + quantum e) m)

/-- Turns that a round can take before one is served: a quantum is at least 256 bytes, a copy at most 16,383. -/
def dwrrFuel (ring : List Nat) : Nat := 66 * ring.length + 2

/-- Bytes of a queue's head copy. -/
def State.headLen (s : State) (q : Nat) : Nat := match s.downHead q with | some c => c.length | none => 0

/-- The second stage: among a node's eligible queues the lowest level, served in its round. The answer is the queue, the
queues' deficits, and the level. -/
def State.pickQueue (s : State) (node : Nat) (el : List Nat) : Option (Nat × Sparse Int × Nat) :=
  let mine := el.filter (fun q => nodeOf q == node)
  let level := mine.foldl (fun l q => min l (s.dlevel q)) 7
  let ring := mine.filter (fun q => s.dlevel q == level)
  (dwrr ring (fun q => 256 * s.dweight q) s.headLen (dwrrFuel ring) (Sparse.get 0 s.sto.queueTurn (node * 8 + level))
    s.sto.queueDeficit).map (fun x => (x.1, x.2, level))

/-- Both stages on an egress port among its queues `ok`: the state with its rounds moved on, and the queue served. -/
def State.pickDown (p : Nat) (ok : Nat → Bool) (s : State) : State × Option Nat :=
  let el := (s.queuesWith (ofPort p)).filter (fun q => ok q && s.downEligible p q)
  let nodes := ((el.map nodeOf).eraseDups).filter s.nodeOk
  let cost := fun (n : Nat) => match s.pickQueue n el with | some x => s.headLen x.1 | none => 0
  match dwrr nodes (fun n => 256 * s.nweight n) cost (dwrrFuel nodes) (Sparse.get 0 s.sto.nodeTurn p) s.sto.nodeDeficit with
  | none => (s, none)
  | some (n, nd) =>
    match s.pickQueue n el with
    | none => (s, none)
    | some (q, qd, level) =>
      (s.modSto (fun x => { x with
        nodeDeficit := nd, queueDeficit := qd, nodeTurn := Sparse.put 0 p (n + 1) x.nodeTurn,
        queueTurn := Sparse.put 0 (n * 8 + level) (q + 1) x.queueTurn }), some q)

/-- What leaves through a node debits its shaper, and the host port's where it has a rate. -/
def State.debitNode (q n : Nat) (s : State) : State :=
  let node := nodeOf q
  let s := s.iff (bitsOf (s.nparam node 1) 22 0 != 0) (fun s => s.modSto (fun x => { x with
    nodeTokens := Sparse.put 0 node (Sparse.get 0 x.nodeTokens node - n) x.nodeTokens }))
  s.iff (decide (4096 ≤ node) && s.fld pgDSCH DSCH.hostRateHostRate != 0) (fun s => s.modSto (fun x => { x with
    hostTokens := x.hostTokens - n }))

/-! Starts. -/

/-- A tagged copy starts: on time, late, or without an armed entry, which is then disarmed (R409). -/
def State.launchStart (p : Nat) (tag : Option Nat) (s : State) : State :=
  match tag with
  | none => s
  | some t =>
    let e := 256 * p + t % 256
    if t = 0 then s
    else if !s.launchArmed e then (s.count (cuTIME + 10)).raiseMs pgTIME 8
    else
      let late := decide ((s.launchTime e + s.fld pgTIME TIME.launchCfgLateTol) * unitsPerNs < s.time.val)
      let s := if late then (s.count (cuTIME + 9)).raiseMs pgTIME 7 else s.count (cuTIME + 8)
      (s.setTf pgTIME 2 e 0 0 0 0).modTime (fun x => { x with eligible := x.eligible.filter (· ≠ (p, t % 256)) })

/-- A copy starts on a UNI port: the port's MAC sends it, with a one-step insertion where it is due (R408). -/
def State.startUni (p : Nat) (c : Copy) (s : State) : State :=
  let s := (s.launchStart p c.tag).iff c.cutThrough (State.count (cuSWC + 10))
  let x := s.ptpEgress p (s.copyBytes c)
  (x.1.putSending p (some { c with started := true })).modSto (fun y => { y with
    sendBytes := Sparse.put [] p x.2 y.sendBytes })

/-- Can the UNI port take a frame: it serves, sends nothing, and is not in LPI (R422, R439)? -/
def State.uniFree (s : State) (p : Nat) : Bool :=
  s.portServes p && (s.sendingOn p).isNone && !s.pflag p UNIQ.portStatusLpiTx

/-- Does the downstream scheduler dequeue (R351, R354)? -/
def State.dequeues (s : State) : Bool := s.works pgDSCH && s.works pgSTO

/-- The copy of a queue taken off as it is served; one that meets an uncorrectable cell is dropped (R324). -/
def State.takeHead (q : Nat) (c : Copy) (s : State) : State :=
  (s.unlinkCopy (listKey q 0) c).debitNode q c.length

/-- The queues whose launch copies a UNI port holds for their times, and these changed (R409). -/
def State.pins (s : State) (p : Nat) : List Nat := Sparse.get [] s.sto.pinned p
def State.pin (p : Nat) (qs : List Nat) (s : State) : State :=
  s.modSto (fun x => { x with pinned := Sparse.put [] p qs x.pinned })

/-- A selection on a UNI port or the host port among its queues `ok`, at most `n` tries: a try that meets a bad frame drops its
copy; one that meets a launch copy before its time holds it. -/
def State.serveDown (p : Nat) (ok : Nat → Bool) : Nat → State → State
  | 0, s => s
  | n + 1, s =>
    let x := s.pickDown p ok
    match x.2 with
    | none => x.1
    | some q =>
      match x.1.downHead q with
      | none => x.1
      | some c =>
        if s.launchWaits p c then s.pin p (s.pins p ++ [q])
        else
          let s := (x.1.takeHead q c).showHeadAge q
          if s.frameBad c.frame then State.serveDown p ok n (s.endCopy (cuSTO + 9) c)
          else if p < 16 then s.startUni p c
          else s.putSending (handKey (fnOf q) (classOf q)) (some c)

/-- The instants at which the launch copies start that a UNI port holds and whose time has not come. -/
def State.heldStarts (s : State) (p : Nat) : List Int :=
  (s.pins p).filterMap (fun q =>
    match s.downHead q with
    | some c => if s.launchWaits p c && s.downEligible p q then some (s.launchAt (256 * p + c.tag.getD 0 % 256)) else none
    | none => none)

/-- Would the head of a queue, started now, leave whole before every launch copy that the port holds starts? -/
def State.clearOf (s : State) (p q : Nat) : Bool := (s.heldStarts p).all (fun at_ => s.leavesBefore p at_ q)

/-- A launch copy that a UNI port holds and whose time has come. -/
def State.launchReady (s : State) (p : Nat) : Option Nat :=
  (s.pins p).find? (fun q =>
    match s.downHead q with
    | some c => !s.launchWaits p c && s.downEligible p q && s.clearOf p q
    | none => false)

/-- The PAUSE and PFC frames that wait at a port which sends nothing, unless they would run into a launch copy that it holds: then
they wait behind it (R436, R438). -/
def State.pauseTurn (p : Nat) (s : State) : State :=
  let n := (s.uni.ctrl.filter (fun x => x.1 == p)).length
  s.iff ((s.sendingOn p).isNone && (s.heldStarts p).all (fun at_ => s.sentBefore p at_ (84 * n - 20))) (State.pauseSend p)

/-- A selection on a UNI port, which may hold launch copies: one whose time has come starts; else a frame that leaves whole before
those held start (R409). -/
def State.servePort (p n : Nat) (s : State) : State :=
  let s := s.pin p ((s.pins p).filter (s.downEligible p))
  match s.launchReady p with
  | some q => (s.pin p ((s.pins p).erase q)).serveDown p (· == q) 1
  | none => s.serveDown p (fun k => !(s.pins p).contains k && s.clearOf p k) n

/-- A selection on a UNI port or the host port (R336): every queue of the port is examined first. -/
def State.selectPort (p : Nat) (s : State) : State :=
  let qs := s.queuesWith (ofPort p)
  let s := qs.foldl (fun s q => s.examineDown q) s
  let s := if p < 16 then s.pauseTurn p else qs.foldl (fun s q => s.starveJudge q) s
  let open_ := if p < 16 then s.uniFree p else s.fld pgDSCH DSCH.hostRateHostRate == 0 || decide (0 < s.sto.hostTokens)
  if open_ then s.servePort p ((s.queuesWith (ofPort p)).foldl (fun n q => n + (s.list (listKey q 0)).length) 1)
  else s

/-- The cores' queue served in order: its head written to the core receive ring (R336, R494). -/
def State.selectCores (s : State) : State :=
  let s := s.examineDown coreQueue
  match s.downHead coreQueue with
  | none => s
  | some c =>
    if !s.works pgCORE then s
    else if s.frameBad c.frame then ((s.unlinkCopy (listKey coreQueue 0) c).endCopy (cuSTO + 9) c).showHeadAge coreQueue
    else if !s.crRoom 1 c.length then
      (if Sparse.get false s.dma.starved coreQueue then s else (s.setStarved coreQueue true).count (cuCORE1 + 3))
    else
      let bytes := s.copyBytes c
      let s := (s.unlinkCopy (listKey coreQueue 0) c).setStarved coreQueue false
      let s := (s.crReceive 1 bytes c.service c.frameService false c.hash c.action).count (cuCORE1 + 2)
      let s := ((s.count (cuDSCH + 2)).countBy (cuDSCH + 3) c.length).routeEvent 1586
      (s.releaseRef c).showHeadAge coreQueue

/-! The host's rings written (R460, R464, R465). -/

/-- The key of a host ring. -/
def ringKey (f : Nat) (rx : Bool) (k : Nat) : Nat := 64 * f + 32 * b2n rx + k
def State.ring (s : State) (f : Nat) (rx : Bool) (k : Nat) : RingSt := Sparse.get {} s.dma.rings (ringKey f rx k)
def State.modRing (f : Nat) (rx : Bool) (k : Nat) (g : RingSt → RingSt) (s : State) : State :=
  s.modDma (fun d => { d with rings := Sparse.put {} (ringKey f rx k) (g (s.ring f rx k)) d.rings })

/-- A function-local vector's message: sent, or kept pending; one beyond the function's count is dropped. -/
def State.sendLocal (f v : Nat) (s : State) : State :=
  if s.dropsMsix f || decide ((s.vectors f).2 ≤ v) then State.sendVector.dropped s else s.sendOwned f v

/-- A ring's vector, held back by moderation while an interval runs (R465). -/
def State.ringVector (f : Nat) (rx : Bool) (k : Nat) (s : State) : State :=
  if s.rg f rx k RING.cfgModeration = 0 then s.sendLocal f (s.rg f rx k RING.cfgVector)
  else if (s.ring f rx k).interval then s.modRing f rx k (fun r => { r with held := true })
  else (s.sendLocal f (s.rg f rx k RING.cfgVector)).modRing f rx k (fun r => { r with interval := true })

/-- A completion of 15 bytes and its phase written by one write (R460). -/
def State.ringComplete (f : Nat) (rx : Bool) (k : Nat) (bytes : Bytes) (s : State) : State :=
  let n := (s.ring f rx k).completions
  let size := s.rgSize f rx k
  let base := (s.rg f rx k RING.cplBaseCplBaseLo / 64 * 64) + s.rg f rx k RING.cplBaseCplBaseHi * 2 ^ 32
  let s := s.emit (.hostWrite f (base + 16 * (n % size)) (bytes.take 15 ++ natLE 1 ((1 - n / size % 2) * 128)))
  (s.modRing f rx k (fun r => { r with completions := n + 1 })).count (cuDMA + 9)

/-- The head of a host ring moves past `n` entries. -/
def State.ringAdvance (f : Nat) (rx : Bool) (k n : Nat) (s : State) : State :=
  s.setRg f rx k RING.headHead ((s.rg f rx k RING.headHead + n) % s.rgSize f rx k)

/-- The descriptor ring of a host ring, and the reads of `n` of its entries from the head on, on from the ring's start where they
wrap (R456, R460). -/
def State.descBase (s : State) (f : Nat) (rx : Bool) (k : Nat) : Nat :=
  s.rg f rx k RING.descBaseDescBaseLo / 64 * 64 + s.rg f rx k RING.descBaseDescBaseHi * 2 ^ 32
def State.fetchDescs (f : Nat) (rx : Bool) (k n : Nat) (s : State) : State :=
  let base := s.descBase f rx k
  let head := s.rg f rx k RING.headHead % s.rgSize f rx k
  let a := min n (s.rgSize f rx k - head)
  let s := s.iff (a != 0) (State.emit (.hostRead f (base + 16 * head) (16 * a)))
  s.iff (n != a) (State.emit (.hostRead f base (16 * (n - a))))

/-- Bytes written into buffers at the addresses that the ring's entries name, each filled before the next. -/
def State.fillBufs (f buf : Nat) : List Nat → Bytes → State → State
  | [], _, s => s
  | a :: as, bs, s => if bs.isEmpty then s else State.fillBufs f buf as (bs.drop buf) (s.emit (.hostWrite f a (bs.take buf)))

/-- Bytes written whole to a function: buffers, then the completion, then the vector (R464). `bufs` are the
ring's entries from its head on, as they are read. -/
def State.hostReceive (f hash : Nat) (bufs : List Bytes) (bs : Bytes) (cls service : Nat) (sample : Bool) (action : Nat)
    (s : State) : State :=
  let k := s.rxRing f hash
  let buf := s.rgBuf f k
  let n := (bs.length + buf - 1) / buf
  let s := (s.fetchDescs f true k n).fillBufs f buf ((bufs.take n).map rxBuffer) bs
  let s := s.ringComplete f true k (rxCompletion bs.length (s.rg f true k RING.headHead) n cls service sample hash action)
  let s := ((s.ringAdvance f true k n).count (cuDMA + 6)).countBy (cuDMA + 7) bs.length
  (s.count (cuFn f + 1)).ringVector f true k

/-- The pair counts of a copy delivered to a UNI port or handed to a function. -/
def State.countPair (q len : Nat) (s : State) : State :=
  let pair := (q - downBase) % 4096
  (s.count (cuPair pair)).countBy (cuPair pair + 1) len

/-- A copy written to its function: counted, its reference released. -/
def State.hostWritten (f cls : Nat) (bufs : List Bytes) (c : Copy) (s : State) : State :=
  let s := s.hostReceive f c.hash bufs (s.copyBytes c) cls c.frameService false c.action
  let s := ((s.count (cuDSCH + 1)).countBy (cuDSCH + 3) c.length).countPair c.queue c.length
  s.releaseRef c

/-- DMA_RX_WRITE's effect on function `f`'s queue of class `cls`: the copy of it that the host port has selected is written; where
none is, the host port selects first (R336, R337, R463, R464). -/
def State.dmaRxWrite (f cls : Nat) (bufs : List Bytes) (s : State) : State :=
  let q := hostQueue f cls
  let s := s.iff ((s.sendingOn (handKey f cls)).isNone && s.dequeues) (State.selectPort 16)
  match s.sendingOn (handKey f cls) with
  | some c =>
    if !s.fnEnabled f then (s.putSending (handKey f cls) none).endCopy (cuDSCH + 6) c
    else if s.frameBad c.frame then ((s.putSending (handKey f cls) none).endCopy (cuSTO + 9) c).starveJudge q
    else if s.hostRoomIn [1, 3] f c.hash c.length then
      ((s.putSending (handKey f cls) none).hostWritten f cls bufs c).starveJudge q
    else s
  | none => (s.examineDown q).starveJudge q

/-! Sample delivery (R341). -/

/-- The 32-byte header of a sample copy (Table 10.6). -/
def sampleHeader (c : Copy) (orig : Nat) : Bytes :=
  natBE 1 (c.srcKind * 64) ++ natBE 1 c.srcNum ++ natBE 1 c.tenant ++ natBE 1 (c.service * 16) ++ natBE 2 orig ++
    natBE 2 c.length ++ natBE 4 c.hash ++ natBE 2 (c.action % 8192) ++ natBE 2 0 ++ natBE 8 c.sec ++ natBE 4 c.ns ++
    natBE 4 c.sampleSeq

/-- SAMPLE_DELIVER's effect: the head of the sample queue, by its sampler's destination. -/
def State.sampleDeliver (bufs : List Bytes) (s : State) : State :=
  let s := s.examineDown sampleQueue
  match s.downHead sampleQueue with
  | none => s
  | some c =>
    let orig := match s.frame c.frame with | some f => f.bytes.length | none => 0
    let bytes := sampleHeader c orig ++ s.copyBytes c
    let fn := s.tf pgMIR 0 c.sampler 0 31 24
    let host := s.tb pgMIR 0 c.sampler 0 20
    let taken := fun (s : State) => ((s.unlinkCopy (listKey sampleQueue 0) c).setStarved sampleQueue false).showHeadAge
      sampleQueue
    let wait := fun (go : State → State) => if Sparse.get false s.dma.starved sampleQueue then s
      else go (s.setStarved sampleQueue true)
    let done := fun (s : State) => ((s.count (cuMIR + 2)).countBy (cuMIR + 4) bytes.length).releaseRef c
    if !s.dequeues then s
    else if s.frameBad c.frame then (taken s).endCopy (cuSTO + 9) c
    else if host then
      if !s.fnServed fn || s.rgCount fn true == 0 then s
      else if s.hostRoom fn c.hash bytes.length then
        done ((taken s).hostReceive fn c.hash bufs bytes c.service c.frameService true c.action)
      else wait (fun s => (s.count (cuDMA + 8)).raiseMs pgDMA 3)
    else if !s.works pgCORE then s
    else if s.crRoom 1 bytes.length then
      done ((((taken s).crReceive 1 bytes c.service c.frameService true c.hash c.action).count (cuCORE1 + 2)).routeEvent 1586)
    else wait (State.count (cuCORE1 + 3))

/-- DSCH_SELECT's effect on an egress port. -/
def State.dschSelect (p : Nat) (s : State) : State :=
  if !s.dequeues then s
  else if p ≤ 16 then s.selectPort p
  else if p = 17 then s.selectCores
  else s

/-! Completion on a UNI port (R328). -/

/-- The last byte of a UNI port's copy has been read; a read that met an uncorrectable cell aborts it (R324, R334). -/
def State.uniComplete (p : Nat) (s : State) : State :=
  match s.sendingOn p with
  | none => s
  | some c =>
    let ended := match s.frame c.frame with | some f => f.ended | none => true
    if !ended then s
    else if s.frameBad c.frame then s.abortCopy p c
    else
      let bytes := Sparse.get [] s.sto.sendBytes p
      let s := (s.putSending p none).modSto (fun x => { x with sendBytes := Sparse.put [] p [] x.sendBytes })
      let s := ((s.emit (.uniFrame p (bytes ++ fcsOf bytes))).count (cuPort p + 2)).countBy (cuPort p + 3) (bytes.length + 4)
      let s := ((s.count cuDSCH).countBy (cuDSCH + 3) c.length).countPair c.queue c.length
      (s.releaseRef c).pauseFlush p

/-! Flushes (R339). -/

/-- Every copy of the downstream queues among `ok` dropped, in lists, on their way to a function, or waiting. -/
def State.flushQueues (ok : Nat → Bool) (s : State) : State :=
  let s := (s.queuesWith ok).foldl (fun s q =>
    ((s.list (listKey q 0)).foldl (fun s c => (s.unlinkCopy (listKey q 0) c).endCopy (cuDSCH + 6) c) s).setStarved q false
      |>.showHeadAge q) s
  let s := (s.sto.sending.filter (fun x => decide (32 ≤ x.1) && (match x.2 with | some c => ok c.queue | none => false))).foldl
    (fun s x => match x.2 with
      | some c => (s.putSending x.1 none).endCopy (cuDSCH + 6) c
      | none => s) s
  s.dropWaiting ok (fun _ => cuDSCH + 6)

/-- PORT_FLUSH's effect: a UNI port 0 to 15, or host function `port − 16`, that is disabled. -/
def State.portFlush (port : Nat) (s : State) : State :=
  if port < 16 then
    if s.portOn port then s else (s.flushQueues (ofPort port)).raise pgDSCH 1
  else
    let f := (port - 16) % 256
    if s.fnEnabled f then s else (s.flushQueues (ofFn f)).raise pgDSCH 1

end Sys2Proof.Machine
end

