-- ==== Sys2Proof/Machine/AuditOps.lean ====
section
/-! DEFINITION. The conservation audit (R348 to R350, R568): the equations on the totals as they stand, failures, sweeps. -/

namespace Sys2Proof.Machine

/-! Held terms. -/

/-- Fragments in selected grants that hold a reference: the last fragments of their copies. -/
def State.placedLast (s : State) (t : Tree) : List Copy :=
  (s.grts t).content.flatMap (fun x => match x.2 with
    | some c => (c.placed.filter (fun p => p.last)).map (fun p => p.copy)
    | none => [])

/-- Copies in lists and in selected grants; every copy that holds a descriptor: these, those being sent or handed, and those
that wait for frame end. -/
def State.queuedCopies (s : State) : List Copy :=
  s.sto.lists.flatMap (fun x => x.2) ++ s.placedLast .a ++ s.placedLast .b
def State.heldCopies (s : State) : List Copy :=
  s.queuedCopies ++ s.sto.sending.filterMap (fun x => x.2) ++
    s.sto.frames.flatMap (fun x => match x.2 with | some f => f.waiting | none => [])

/-- Records in the tier. -/
def State.tierRecords (s : State) : Nat := (Sparse.keys s.xtr.tier).foldl (fun n q => n + s.tierCount q) 0

/-- Cells charged to tenants. -/
def State.chargedCells (s : State) : Nat :=
  (s.tblEntries pgSTO 0).foldl (fun n e => n + s.tf pgSTO 0 e 1 27 0) 0

/-- The sum of counters. -/
def State.sumCounters (s : State) (l : List Nat) : Int := l.foldl (fun n i => n + (s.counter i : Int)) 0

/-- A difference of wrapping 64-bit totals as a signed number. -/
def wrapped (d : Int) : Int := signed 64 (d % 2 ^ 64).toNat

/-! The equations (Table 10.8): left side less right side. -/

def State.auditA1 (s : State) : Int :=
  ((s.freeCells + s.chargedCells + s.fld pgSTO STO.retiredRetired : Nat) : Int) - totalCells

def State.auditA2 (s : State) : Int := ((s.freeDescs + s.heldCopies.length : Nat) : Int) - totalCells

def State.auditA4 (s : State) : Int :=
  let created := s.sumCounters [cuSWC + 1, cuDUAL + 11, cuMIR + 1, cuMIR + 3]
  let delivered := s.sumCounters [cuDSCH, cuDSCH + 1, cuDSCH + 2, cuUSCH + 1, cuMIR + 2]
  let dropped := s.sumCounters [cuSWC + 3, cuSWC + 4, cuSWC + 5, cuSWC + 6, cuSWC + 7, cuSWC + 8, cuSWC + 11, cuSWC + 12,
    cuSTO + 9, cuSTO + 11, cuDSCH + 4, cuDSCH + 6, cuUSCH + 4, cuUSCH + 6, cuGRT .a + 8, cuGRT .b + 8, cuDUAL + 13, cuMIR + 3,
    cuXTR + 6]
  wrapped (created - (delivered + dropped + s.counter (cuDUAL + 12) + s.heldCopies.length + s.tierRecords))

def State.auditA5 (s : State) : Int :=
  let q := (Sparse.keys s.xtr.tier).foldl (fun n q => n + (s.tw pgUSCH 2 q 2).toNat) 0
  (s.fld pgXTR XTR.extentsUsedUsed : Int) - ((q + s.fld pgXTR XTR.strandedStranded : Nat) : Int)

def State.auditA6Up (s : State) : Int :=
  let held := (s.queuedCopies.filter (fun c => decide (c.queue < downBase))).length
  wrapped (s.counter cuUSCH - (s.sumCounters [cuUSCH + 1, cuUSCH + 4, cuUSCH + 6, cuDUAL + 12, cuGRT .a + 8, cuGRT .b + 8,
    cuXTR + 6] + s.sto.upLost + held + s.tierRecords))

def State.auditA6Down (s : State) : Int :=
  let held := ((s.sto.lists.filter (fun x => decide (4 * downBase ≤ x.1))).flatMap (fun x => x.2)).length
  (s.sto.downIn : Int) - ((s.sto.downOut + held : Nat) : Int)

def State.auditA7 (s : State) (l d : Nat) : Int :=
  (List.range 4).foldl (fun n c =>
    let w := fun (k : Nat) => ((s.tw pgD2D 0 (8 * l + 4 * d + c) k).toNat : Int)
    n + (w 1 + w 2 + w 3 - w 0)) 0

def State.auditA8 (s : State) (t : Tree) : Int :=
  wrapped (s.sumCounters [cuGRT t] - s.counter (cuGRT t + 1) - s.sumCounters [cuGRT t + 2, cuGRT t + 4, cuGRT t + 5, cuGRT t + 6])

def State.auditA9 (s : State) : Int :=
  let tokens := ((s.tblEntries pgPOL 0).filter (fun k => s.tb pgPOL 0 k 0 0)).foldl (fun n k =>
    n + (s.tw pgPOL 1 k 0).toNat + (s.tw pgPOL 1 k 1).toNat) 0
  signed 72 ((s.sumCounters [cuPOL + 9, cuPOL + 6] - s.sumCounters [cuPOL + 7, cuPOL + 8] - tokens) % 2 ^ 72).toNat

/-! Failures. -/

/-- Sym in a second. -/
def symPerS : Nat := 31104000000

/-- An equation's result: on an imbalance its bit, the record, and audit_fail, again only after 1 s (R349). -/
def State.auditResult (k : Nat) (delta : Int) (s : State) : State :=
  if delta = 0 then s
  else
    let s := s.setFld pgSTO STO.auditStatusFailed (s.fld pgSTO STO.auditStatusFailed ||| 2 ^ (k - 1))
    let s := (s.setFld pgSTO STO.auditLastEq k).setSFld pgSTO STO.auditLastDelta delta
    let last := Sparse.get 0 s.sto.auditRaised k
    if last = 0 ∨ last - 1 + symPerS ≤ s.now then
      (s.modSto (fun x => { x with auditRaised := Sparse.put 0 k (s.now + 1) x.auditRaised })).raise pgSTO 1
    else s

/-- One direction of a die-to-die link, and its change (R567): 2 × link + direction. -/
def State.link (s : State) (k : Nat) : LinkSt := Sparse.get {} s.rel.links k
def State.modLink (k : Nat) (f : LinkSt → LinkSt) (s : State) : State :=
  s.modRel (fun x => { x with links := Sparse.put {} k (f (Sparse.get {} x.links k)) x.links })

/-- A training: the retry buffers are replayed, so that the expected flits come next, and the credits granted, which the sender
holds all (R567, R568). How many is not stated: free values (log entry 45). -/
def State.grantCredits (l : Nat) (s : State) : State :=
  let fresh := fun (x : LinkSt) => { x with fails := 0 }
  (List.range 8).foldl (fun s i =>
    let g := BitVec.ofNat 32 (s.freeVal (2 ^ 32))
    s.useFree.putEntry pgD2D 0 (8 * l + i) 0 [g, g, 0#32, 0#32]) ((s.modLink (2 * l) fresh).modLink (2 * l + 1) fresh)

/-- A link's A7: two failures in a row retrain it, which grants its credits again (R568). -/
def State.auditLink (l : Nat) (s : State) : State :=
  let a := s.auditA7 l 0
  let b := s.auditA7 l 1
  let bad := a != 0 || b != 0
  let twice := bad && Sparse.get false s.sto.a7Failed l
  let s := s.modSto (fun x => { x with a7Failed := Sparse.put false l (bad && !twice) x.a7Failed })
  let s := (s.auditResult 7 a).auditResult 7 b
  if !twice then s
  else
    let s := ((s.grantCredits l).count (cuD2D + 5 * l + 3)).raise pgD2D 4
    ((s.setFld pgD2D D2D.lastLink l).setFld pgD2D D2D.lastEvent 2).raise pgD2D 1

/-- AUDIT_EVAL's effect: A1, A2 and A4 to A9 on the totals as latched. -/
def State.auditEval (s : State) : State :=
  let r := [(1, s.auditA1), (2, s.auditA2), (4, s.auditA4), (5, s.auditA5), (6, s.auditA6Up), (6, s.auditA6Down)].foldl
    (fun r x => r.auditResult x.1 x.2) s
  let r := [0, 1, 2].foldl (fun r l => r.auditLink l) r
  [(8, s.auditA8 .a), (8, s.auditA8 .b), (9, s.auditA9)].foldl (fun r x => r.auditResult x.1 x.2) r

/-! Sweeps (R350). -/

/-- The cells that have ever left the stack: of each pseudo-channel the first so many. -/
def State.drawnCells (s : State) : List Nat :=
  (List.range 64).flatMap (fun ch => (List.range (Sparse.get 0 s.sto.cullet.fresh ch)).map (fun i => 64 * i + ch))

/-- The cells reachable from what the part holds: the frames of held descriptors, those that are being written or await their
decision, and the line's frames and fragments. -/
def State.reachedCells (s : State) : List Nat :=
  let held := s.heldCopies.map Copy.frame
  s.sto.frames.flatMap (fun x => match x.2 with
    | some f => if !f.decided || held.contains x.1 then f.cells else []
    | none => []) ++ s.sto.lineCells.flatMap (fun x => x.2.2) ++ (s.dual.inbox ++ s.dual.passed).flatMap LineFrag.cells ++
    s.dual.partCells.flatMap (fun x => x.2)

/-- The cells that a sweep leaves unmarked: neither reachable nor free nor retired. -/
def State.unmarkedCells (s : State) : List Nat :=
  let marked := s.reachedCells ++ s.sto.cullet.stack ++ s.sto.cullet.caches.flatMap (fun x => x.2) ++ s.sto.retired
  s.drawnCells.filter (fun c => !marked.contains c)

/-- The tenant that an unmarked cell is charged to: that of its frame, or of the frame that was cut off. -/
def State.cellTenant (s : State) (c : Nat) : Nat :=
  match s.sto.lost.find? (fun x => x.2.contains c) with
  | some x => x.1
  | none => ((s.sto.frames.filterMap (fun x => x.2)).find? (fun f => f.cells.contains c)).elim 0 Frame.tenant

/-- An orphan returned to the pool, and forgotten where it stood. -/
def State.reclaim (s : State) (c : Nat) : State :=
  let s := s.returnCells (s.cellTenant c) [c]
  s.modSto (fun x => { x with
    lost := (x.lost.map (fun y => (y.1, y.2.erase c))).filter (fun y => !y.2.isEmpty)
    frames := x.frames.map (fun y => (y.1, y.2.map (fun f => { f with cells := f.cells.erase c }))) })

/-- A completed sweep: A3 on the sum of refcounts it found; the cells unmarked in this sweep and in the one before returned as
orphans; the others unmarked now noted in the bitmap. -/
def State.sweepDone (s : State) : State :=
  let s := s.auditResult 3 ((s.refSum : Int) - s.heldCopies.length)
  let now := s.unmarkedCells
  let orphans := now.filter (fun c => s.sto.unmarked.contains c)
  let n := orphans.length
  let s := (orphans.foldl State.reclaim s).modSto (fun x => { x with
    unmarked := now.filter (fun c => !orphans.contains c) })
  let s := s.iff (n != 0) (fun s => (s.countBy (cuSTO + 6) n).raise pgSTO 2)
  let s := s.setFld pgSTO STO.sweepStatusSweeps (s.fld pgSTO STO.sweepStatusSweeps + 1)
  ((s.setFld pgSTO STO.sweepStatusSweeping 0).count (cuSTO + 7)).raise pgSTO 5

end Sys2Proof.Machine
end

