-- ==== Sys2Proof/Machine/PowOps.lean ====
section
/-! DEFINITION. Power domains (R528 to R537): what off loses, what is saved and restored, wakes, shedding; and the loss of
a block's state that a region held in reset suffers. -/

namespace Sys2Proof.Machine

/-! Loss. -/

/-- The store empty: every cell that is not retired is free, and a retired one stays retired until reset of the part (R324). What
the switch holds of copies and rounds, and the audit's running totals, are not the store's. -/
def State.wipeStore (s : State) : State :=
  let bad := s.sto.retired
  ((s.modSto (fun x => { x with
    frames := [], cullet := {}, descs := {}, lineCells := [], lists := [], qbytes := [], sending := [], sendBytes := [],
    lost := [], unmarked := [], a7Failed := [], auditRaised := [] })).setFld pgSTO STO.retiredRetired bad.length).setFld pgSTO
    STO.culletLevelLevel (totalCells - bad.length)

/-- Internal state of instance `i` of a block back at its start. What is outside the part (a receiver's light), and
what the spec keeps elsewhere (the Quarantine record in keep RAM), stays. -/
def State.wipeBlk (b : Blk) (i : Nat) (s : State) : State :=
  let r : Rx := if i = 0 then .a0 else if i = 1 then .a1 else if i = 2 then .b0 else .b1
  let t : Tree := if i = 0 then .a else .b
  match b with
  | .rx => s.modRxs r (fun x => { signal := x.signal })
  | .tx => s.modTxs t (fun x => { rogueForce := x.rogueForce, clockForce := true })
  | .frm => s.modFrms r (fun _ => {})
  | .hal => s.modHals t (fun _ => {})
  | .act => (s.modActs t (fun _ => {})).modFront t (fun _ => {})
  | .grt => s.modGrts t (fun _ => {})
  | .pm => s.modPm (fun _ => {})
  | .dual => s.modDual (fun _ => {})
  | .usch => s.modUsch (fun _ => {})
  | .pol => s.modPol (fun _ => {})
  | .cls => s.modCls (fun x => { acts := x.acts })
  | .flow => s.modFlow (fun _ => {})
  | .sto => s.wipeStore
  | .swc => s.modSto (fun x => { x with changes := [] })
  | .dsch => s.modSto (fun x => { x with
      activeQueue := [], activeNode := [], nodeTokens := [], hostTokens := 16384, nodeDeficit := [], queueDeficit := [],
      nodeTurn := [], queueTurn := [], pinned := [] })
  | .mir => s.modSto (fun x => { x with offered := [] })
  | .xtr => s.modXtr (fun _ => {})
  | .uniq => s.modUni (fun u => { u with
      seen := u.seen.filter (fun x => x.1 / 4 ≠ i), eee := u.eee.filter (fun x => x.1 / 4 ≠ i),
      ctrl := u.ctrl.filter (fun x => x.1 / 4 ≠ i), ctrlAt := u.ctrlAt.filter (fun x => x.1 / 32 ≠ i),
      pauseUntil := u.pauseUntil.filter (fun x => x.1 / 32 ≠ i), classMap := u.classMap.filter (fun x => x.1 / 4 ≠ i) })
  | .lane => s.modUni (fun u => { u with alarmed := [], eqSteps := [], eqLast := [], adaptDue := [], checkers := [] })
  | .dma => s.modDma (fun _ => {})
  | .ccry => s.modCcry (fun _ => {})
  | .lsec => s.modLsec (fun _ => {})
  | .time => s.modTime (fun x => { fronts := x.fronts })
  | .hif => s.modHif (fun h =>
      let f := Sparse.get {} h.fns 0
      { perst := h.perst
        latched := h.latched
        fns := Sparse.put {} 0 { pmeEn := f.pmeEn, pmeStatus := f.pmeStatus, pmeSent := f.pmeSent } [] })
  | .cnt => s.modSnap (fun _ => {})
  | .tsk => s.modTsk (fun _ => {})
  | .core => s.modCore (fun c => { lsram := c.lsram })
  | .lehr => s.modLehr (fun l => { next := l.next, last := l.last, lastSec := l.lastSec })
  | .flsh => s.modFlsh (fun f => { mem := f.mem, unknown := f.unknown, journal := f.journal })
  | _ => s

/-- The tokens of every valid policer leave as clipped, so that R275 holds. -/
def State.clipTokens (s : State) : State :=
  ((s.tblEntries pgPOL 0).filter (fun k => s.tb pgPOL 0 k 0 0)).foldl (fun s k =>
    ((s.countBy (cuPOL + 8) ((s.tw pgPOL 1 k 0).toNat + (s.tw pgPOL 1 k 1).toNat)).putTw pgPOL 1 k 0 0#32).putTw pgPOL 1 k 1
      0#32) s

/-- The registers of a page that show what is outside the part: OFE_PINS.present and int. -/
def State.livePins (s : State) (p : Nat) : Nat := s.fld p ⟨0x068, 1, 0⟩

/-- The table words of a page that keep RAM holds: a tree's record, ACT table 2 (R204). -/
def State.keptRecord (s : State) (p : Nat) : Sparse Word :=
  if p = pgACT .a ∨ p = pgACT .b then s.tables.filter (fun x => decide (x.1 / 0x800000 = p * 8 + 2)) else []

/-- A page loses what it holds: registers, tables, windows, pennant sequencing, and its block's state. -/
def State.wipePage (p : Nat) (s : State) : State :=
  let drop := fun (k : Nat) => decide (k / 1024 = p) || decide (k / 1024 = corePage p)
  let s := s.iff (p == pgPOL) State.clipTokens
  let pins := s.livePins p
  let record := s.keptRecord p
  let s := s.modRf (fun r => { r with
    regs := r.regs.filter (fun x => !drop x.1)
    copy1 := r.copy1.filter (fun x => !drop x.1)
    copy2 := r.copy2.filter (fun x => !drop x.1)
    latches := r.latches.filter (fun x => !drop x.1)
    staged := r.staged.filter (fun x => !drop x.1) })
  let s := (((s.modWins (fun w => w.filter (fun x => x.1 / 2 ≠ p))).putPennant p {}).resetTables p).resetTables (corePage p)
  let s := record.foldl (fun s x => s.modTables (Sparse.put (tblDef x.1) x.1 x.2)) s
  match pageInfo p with
  | some i =>
    let s := s.wipeBlk i.blk i.inst
    match i.blk with
    | .rx => s.setFld p ⟨0x068, 1, 0⟩ pins
    | .tx => s.setFld p ⟨0x068, 1, 0⟩ pins
    | .time => (s.modFront .a id).modFront .b id
    | _ => s
  | none => s

/-- A transmitter runs again after its page lost its state: the forces that stand show (R107, R111), and it begins. -/
def State.txAgain (t : Tree) (s : State) : State :=
  ((s.showForce t).setFld (pgTX t) TX.statusRogueLatched (b2n (s.txs t).rogueForce)).txBegin t

/-- A tree starts again after its ACT page lost its state: in Quarantine with cause 4 where the keep RAM record says so
(R217). -/
def State.quarAgain (t : Tree) (s : State) : State :=
  if s.tb pgKEEP 1 (quarEntry t) 0 31 then (s.setFld (pgACT t) ACT.modeMode 7).setFld (pgACT t) ACT.quarCause 4 else s

/-- The pages of a domain, of a region (Tables 2.1 and 16.1). -/
def domainPages (d : Nat) : List Nat := (pageTable.filter (fun i => blkDomain i.blk i.inst == some d)).map PageInfo.page
def regionPages (r : Nat) : List Nat := (pageTable.filter (fun i => i.region == r)).map PageInfo.page

/-! Counter backing (R65). -/

/-- The units of a domain flush their counts; they reload them. -/
def State.flushUnits (d : Nat) (s : State) : State :=
  (counterUnits.filter (fun u => pageDomain u.page == some d)).foldl (fun s u =>
    s.modCnt (fun c => { c with backing := (List.range u.count).foldl (fun m i =>
      Sparse.put none (u.first + i) (some (Sparse.get 0 c.live (u.first + i))) m) c.backing })) s
def State.reloadUnits (d : Nat) (s : State) : State :=
  (counterUnits.filter (fun u => pageDomain u.page == some d)).foldl (fun s u =>
    s.modCnt (fun c => { c with backing := c.backing.filter (fun x => !(decide (u.first ≤ x.1) &&
      decide (x.1 < u.first + u.count))) })) s

/-! Save and restore (R536, R537). -/

/-- The registers of a page that its image holds: PAGE_CTRL, PENNANT and its mask and route, INDIRECT_CTRL, and every
RW, RWE and RWT register from 0x030. -/
def savedReg (r : RegInfo) : Bool :=
  [0x008, 0x010, 0x014, 0x018, 0x024].contains r.off ||
    (decide (0x030 ≤ r.off) && (r.rw != 0 || r.rwe != 0 || r.rwt != 0))

/-- The table words of a page that its image holds: TX table 0, UNIQ table 0 word 0 and table 1, LANE table 0 of the
lanes of quad 0. -/
def savedWord (p k : Nat) : Bool :=
  let t := k / 0x800000 % 8
  match (pageInfo p).map PageInfo.blk with
  | some .tx => t == 0
  | some .uniq => (t == 0 && k % 32 == 0) || t == 1
  | some .lane => t == 0 && decide (k / 32 % 0x40000 < 4)
  | _ => false

/-- The writable bits of a register. -/
def RegInfo.kept (r : RegInfo) : Word :=
  if r.off < 0x030 then 0xFFFFFFFF#32 else BitVec.ofNat 32 r.rw ||| BitVec.ofNat 32 r.rwe ||| BitVec.ofNat 32 r.rwt

/-- A domain's image. The LANE table 0 entries of a quad other than quad 0 stand on the LANE page but belong to that
quad's image. -/
def State.saveImage (s : State) (d : Nat) : SaveArea :=
  let ps := domainPages d
  let lanes := fun (k : Nat) => decide (15 ≤ d) && decide (d ≤ 18) && decide (k / 0x800000 = pgLANE * 8) &&
    decide (k / 32 % 0x40000 / 4 = d - 15)
  { regs := ps.flatMap (fun p => ((pageRegs p).filter savedReg).map (fun r => (regKey p r.off, s.reg p r.off &&& r.kept))),
    words := s.tables.filter (fun x => ps.any (fun p => x.1 / 0x4000000 == p && savedWord p x.1) || lanes x.1) }

/-- An image written back. -/
def State.writeImage (a : SaveArea) (s : State) : State :=
  let s := a.regs.foldl (fun s x =>
    let p := x.1 / 1024
    let off := x.1 % 1024 * 4
    match regInfo p off with
    | some r => s.putReg p off ((s.reg p off &&& ~~~ r.kept) ||| x.2)
    | none => s) s
  a.words.foldl (fun s x => s.modTables (Sparse.put (tblDef x.1) x.1 x.2)) s

/-- keep RAM is valid. -/
def State.keepValid (s : State) : Bool := s.flag pgKEEP KEEP.ramStatusValid

/-! Entry. -/

/-- The deepest state the idle timer enters (Table 16.1): 0 on, 1 retention, 2 off. -/
def domainDeepest (d : Nat) : Nat :=
  if d = 19 then 0
  else if d = 4 ∨ d = 9 then 1
  else if d < 10 ∨ (15 ≤ d ∧ d ≤ 18) then 2
  else 1

/-- A domain's policy as it acts (R529): 0b11 acts as on; 0b10 as the deepest state of the domain. -/
def State.policyOf (s : State) (d : Nat) : Nat :=
  let v := if d < 16 then s.fld pgKEEP ⟨0x030, 2 * d + 1, 2 * d⟩ else s.fld pgKEEP ⟨0x034, 2 * (d - 16) + 1, 2 * (d - 16)⟩
  if v = 3 then 0 else min v (domainDeepest d)

/-- A refusal (R530 step 3, Table 16.2). -/
def State.refuseEntry (d page reason : Nat) (s : State) : State :=
  let s := ((s.setFld pgKEEP KEEP.refuseLastDomain d).setFld pgKEEP KEEP.refuseLastPage page).setFld pgKEEP
    KEEP.refuseLastReason reason
  (s.count (cuKEEP + 4 * d + 2)).raiseMs pgKEEP 2

/-- The lanes of a UNI quad lose what they hold with the quad's domain (Table 16.1). -/
def State.wipeLanes (q : Nat) (s : State) : State :=
  let s := ((List.range 4).map (· + 4 * q)).foldl (fun s l =>
    let s := ((s.setFld pgLANE ⟨0x030, l, l⟩ 0).setFld pgLANE ⟨0x034, l, l⟩ 0).putTw pgLANE 0 l 0 0#32
    (List.range 4).foldl (fun s w => s.putTw pgLANE 1 l w 0#32) s) s
  s.modUni (fun u => { u with
    alarmed := u.alarmed.filter (fun x => x.1 / 4 ≠ q), eqSteps := u.eqSteps.filter (fun x => x.1 / 4 ≠ q),
    eqLast := u.eqLast.filter (fun x => x.1 / 4 ≠ q), adaptDue := u.adaptDue.filter (fun x => x.1 / 4 ≠ q),
    checkers := u.checkers.filter (fun x => x.1 / 4 ≠ q) })

/-- The LANE page header lost with UNI_Q0: its registers return to their reset values, the lanes of the other quads keep theirs. -/
def State.wipeLaneHeader (s : State) : State :=
  ((pageRegs pgLANE).filter savedReg).foldl (fun s r => s.putReg pgLANE r.off (regReset pgLANE r.off)) s

/-- A domain enters off: image saved, contents lost. The header of the LANE page is dark while UNI_Q0 is off; what it holds comes
back with the image, and the lanes of the other quads go on under it (log entry 136). -/
def State.domainOff (d : Nat) (s : State) : State :=
  let s := (s.flushUnits d).modKeep (fun k => { k with saves := Sparse.put none d (some (s.saveImage d)) k.saves })
  let s := ((domainPages d).filter (· ≠ pgLANE)).foldl (fun s p => s.wipePage p) s
  (s.iff (decide (15 ≤ d) && decide (d < 19)) (State.wipeLanes (d - 15))).setDomState d 2

/-- A domain enters retention. -/
def State.domainRetain (d : Nat) (s : State) : State := (s.flushUnits d).setDomState d 1

/-! Wake and restore (R531, R532, R537). -/

/-- Is a line domain's region shed? -/
def State.shedDomain (s : State) (d : Nat) : Bool :=
  (decide (d < 5) && s.flag pgKEEP KEEP.shedLineA) || (decide (5 ≤ d) && decide (d < 10) && s.flag pgKEEP KEEP.shedLineB)

/-- The region of a domain (Table 16.1). -/
def domainRegion (d : Nat) : Nat :=
  if d < 5 then 0 else if d < 10 then 1 else if d < 13 then 2 else if d < 15 then 3 else if d < 19 then 4
  else if d = 19 then 5 else if d < 24 then 6 else 7

/-- Has a region domains, and is every one of them off (Table 1.4)? -/
def State.regionOff (s : State) (r : Nat) : Bool :=
  decide (r < 8) && (List.range 26).all (fun d => domainRegion d != r || s.domState d == 2)

/-- A wake of a domain by page `src`, 0x3F for a host command: it aborts an entry in progress, or starts the restore. -/
def State.domainWake (d src : Nat) (s : State) : State :=
  let cu := cuKEEP + 4 * d
  if s.shedDomain d then s.refuseEntry d 0x01 5
  else if s.domState d = 0 then s
  else if s.domState d = 3 then
    (if Sparse.get 0 s.keep.entering d = 0 then s
     else
      let s := ((s.setDomState d 0).modKeep (fun k => { k with entering := Sparse.put 0 d 0 k.entering })).count (cu + 1)
      let s := (s.setFld pgKEEP KEEP.abortLastDomain d).setFld pgKEEP KEEP.abortLastPage src
      (s.count (cu + 3)).raiseMs pgKEEP 3)
  else
    let r := domainRegion d
    let s := ((s.modKeep (fun k => { k with restoring := Sparse.put 0 d (s.domState d) k.restoring })).setDomState d 3).count
      (cu + 1)
    s.iff (s.region r == 3) (State.setRegion r 0)

/-- A wake with what must wake before it: the HBM domains before ST_BM (R532). -/
def State.wakeDomain (d src : Nat) (s : State) : State :=
  if d = 10 then ((s.domainWake 11 src).domainWake 12 src).domainWake 10 src else s.domainWake d src

/-- A page of a restored domain runs again: an enabled receiver acquires, its framer hunts, the transmitter's policy is
judged, a tree with a Quarantine record is in Quarantine. -/
def State.pageRestart (p : Nat) (s : State) : State :=
  match pageInfo p with
  | some i =>
    let r : Rx := if i.inst = 0 then .a0 else if i.inst = 1 then .a1 else if i.inst = 2 then .b0 else .b1
    let t : Tree := if i.inst = 0 then .a else .b
    match i.blk with
    | .rx => s.iff (s.works p && s.acq r == 0 && !s.rxHeld r) (State.rxBegin r)
    | .frm => (s.frmRestart r).framersMoved (rxTree r)
    | .tx => ((s.launchRestored t).halLevelRestored t).txAgain t
    | .hal => (s.halLevelRestored t).halJudge t
    | .act => s.quarAgain t
    | .usch => s.showTick
    | .dsch => s.showTick
    | _ => s
  | none => s

/-- A restore from off: the image written back where it fits and keep RAM is valid, else reset values and restore_error
(R537). -/
def State.restoreOff (d : Nat) (s : State) : State :=
  let lost := fun (s : State) => ((s.iff (d == 15) State.wipeLaneHeader).raise pgKEEP 4).count (cuKEEP + 104)
  match (if s.keepValid then Sparse.get none s.keep.saves d else none) with
  | some a => if a.ok then s.writeImage a else lost s
  | none => lost s

/-- The end of a restore delay. -/
def State.domainRestored (d : Nat) (s : State) : State :=
  let from0 := Sparse.get 0 s.keep.restoring d
  if s.domState d ≠ 3 ∨ from0 = 0 then s
  else
    let s := s.modKeep (fun k => { k with restoring := Sparse.put 0 d 0 k.restoring })
    let s := s.iff (from0 == 2) (State.restoreOff d)
    let s := ((s.reloadUnits d).setDomState d 0).raiseMs pgKEEP 1
    ((domainPages d).foldl (fun s p => s.iff (from0 == 2) (State.pageRestart p)) s).iff (decide (15 ≤ d) && decide (d < 19))
      State.refreshPorts

/-! Shedding (R534). -/

/-- Work that a line region holds, counted as dropped where it is (R23): pending grants with their content. -/
def State.dropLineWork (t : Tree) (s : State) : State :=
  (s.pendings t).foldl (fun s i => s.suppressLate t i) (s.truncate t)

/-- A line region shed: its work dropped, its five domains off whatever their policy. -/
def State.shedRegion (t : Tree) (s : State) : State :=
  let r := treeIx t
  if s.region r = 3 then s
  else
    let s := s.dropLineWork t
    let s := (List.range 5).foldl (fun s k => (s.domainOff (5 * r + k)).clkLose (rxCand (treeRx t 0))) s
    let s := s.clkLose (rxCand (treeRx t 1))
    let s := (s.setFld pgKEEP (match t with | .a => KEEP.shedLineA | .b => KEEP.shedLineB) 1).setRegion r 3
    (s.count (cuKEEP + 105)).raise pgKEEP 5

/-- Battery clears: the Keeper wakes the five domains of a shed region with their images. -/
def State.unshedRegion (t : Tree) (s : State) : State :=
  let r := treeIx t
  if s.region r ≠ 3 then s
  else
    let s := (s.setFld pgKEEP (match t with | .a => KEEP.shedLineA | .b => KEEP.shedLineB) 0).setRegion r 0
    (List.range 5).foldl (fun s k => s.domainWake (5 * r + k) 0x01) (s.raise pgKEEP 5)

end Sys2Proof.Machine
end

