-- ==== Sys2Proof/Machine/UniOps.lean ====
section
/-! DEFINITION. UNI ports and lanes (R413 to R448): configuration, link up, lane state, PRBS, what a MAC receives, PAUSE and
PFC, LPI. -/

namespace Sys2Proof.Machine

/-! Lane state. -/

/-- What a lane transmits: far-end loopback before the generator, and that before port data; a reversed port's lanes carry its
logical lanes from the last (R428, R432, R446). -/
def State.laneSource (s : State) (l : Nat) : LaneSource :=
  if !s.laneWorks l || s.clk.safeOut then .idle
  else if s.laneLoop l = 2 then .echo
  else if s.laneGen l ≠ 0 then .pattern (s.laneGen l)
  else match (List.range 16).find? (fun p => s.portOn p && (s.portLanes p).contains l) with
    | some p => .port p (if s.pflag p UNIQ.portCfgTxReverse then modeLanes (s.portMode p) - 1 - (l - p) else l - p)
    | none => .idle

/-- One bit of what a lane transmits inverted (R431). -/
def State.emitError (l every : Nat) (s : State) : State := s.emit (.laneError l (s.laneSource l) (s.laneCfg l 0 0 == 1) every)

/-- The bits between two injected errors: 2^k, and values 1 to 9 of k act as 10 (R431). -/
def injectEvery (k : Nat) : Nat := 2 ^ max 10 k

/-- Has a lane CDR lock; PRBS lock? -/
def State.cdrLock (s : State) (l : Nat) : Bool := s.flag pgLANE ⟨0x030, l, l⟩
def State.prbsLock (s : State) (l : Nat) : Bool := s.flag pgLANE ⟨0x034, l, l⟩

/-- Is the lane one of a port whose link is up? -/
def State.laneInService (s : State) (l : Nat) : Bool :=
  (List.range 16).any (fun p => (s.portLanes p).contains l && s.portOn p && s.portLink p)

/-- CDR lock; PRBS lock set or cleared, in the register and in table 1. A lane that locks out of service has to adapt fully. -/
def State.setCdr (l : Nat) (on : Bool) (s : State) : State :=
  ((s.setFld pgLANE ⟨0x030, l, l⟩ (b2n on)).setTf pgLANE 1 l 0 0 0 (b2n on)).setAdapting l (on && !s.laneInService l)
def State.setPrbs (l : Nat) (on : Bool) (s : State) : State :=
  (s.setFld pgLANE ⟨0x034, l, l⟩ (b2n on)).setTf pgLANE 1 l 0 2 2 (b2n on)

/-- The polarity applied to a lane that shows inversion `inv` (R426). -/
def State.lanePolarity (s : State) (l : Nat) (inv : Bool) : Bool :=
  if s.laneCfg l 1 1 = 1 then s.laneCfg l 2 2 == 1 else inv

/-- A FOM window's end (R424): the FOM saturates at 40 dB; the alarm rises once per crossing. -/
def State.laneFom (l fom : Nat) (s : State) : State :=
  let fom := min fom 10240
  let margin : Int := (fom : Int) - s.fld pgLANE LANE.fomRefRef
  let thr := s.sfld pgLANE LANE.fomAlarmThreshold
  let s := (s.setTf pgLANE 1 l 1 15 0 fom).setTf pgLANE 1 l 1 31 16 (unsigned 16 margin)
  let was := Sparse.get false s.uni.alarmed l
  let now := if margin < thr then true else if thr + 128 ≤ margin then false else was
  let s := s.modUni (fun u => { u with alarmed := Sparse.put false l now u.alarmed })
  s.iff (now && !was) (State.raiseMs pgLANE 3)

/-- Does the lane receive LPI quiet: its port shows lpi_rx? -/
def State.laneQuiet (s : State) (l : Nat) : Bool :=
  (List.range 16).any (fun p => (s.portLanes p).contains l && s.portOn p && s.pflag p UNIQ.portStatusLpiRx)

/-- Is a lane still to adapt fully, its adaptation not frozen? -/
def State.adapting (s : State) (l : Nat) : Bool := Sparse.get false s.uni.adaptDue l && s.laneCfg l 3 3 == 0

/-- A lane's equalizer: adapted fully in link training or acquisition; in service a small step, at most once per 10 ms (R425). -/
def State.laneAdapt (l : Nat) (s : State) : State :=
  let last := Sparse.get 0 s.uni.eqLast l
  let step := fun (s : State) => s.modUni (fun u => { u with
    eqSteps := Sparse.put 0 l (Sparse.get 0 u.eqSteps l + 1) u.eqSteps, eqLast := Sparse.put 0 l (s.now + 1) u.eqLast })
  let start := fun (s : State) => s.modUni (fun u => { u with eqSteps := Sparse.put 0 l (Sparse.get 0 s.lehr.laneStart l) u.eqSteps })
  if !s.laneWorks l || !s.cdrLock l || s.laneCfg l 3 3 == 1 || s.laneQuiet l then s
  else if s.adapting l then (step (start s)).setAdapting l false
  else s.iff (last == 0 || decide (last - 1 + 10 * symPerMs ≤ s.now)) step

/-! Test patterns (R429, R430). -/

/-- The two bits of a PAM4 level, first bit first (R429). -/
def levelBits (v : Int) : List Bool := if v = -3 then [false, false] else if v = -1 then [false, true]
  else if v = 1 then [true, true] else [true, false]

/-- The level of two bits (R429). -/
def pairLevel (a b : Bool) : Int := if a then (if b then 1 else 3) else if b then -1 else -3

/-- The powers of a pattern's polynomial but for 0 (Table 13.3). PRBS13Q and PRBS31Q send the bits of PRBS13 and PRBS31 two at a
time (PRESUMED from 802.3 Clause 120, log entry 62). -/
def patternTaps : Nat → List Nat
  | 1 => [7, 6]
  | 2 => [9, 5]
  | 3 => [13, 12, 2, 1]
  | 4 => [15, 14]
  | 5 => [23, 18]
  | 6 => [31, 28]
  | 7 => [13, 12, 2, 1]
  | 8 => [31, 28]
  | _ => []

/-- The bit that follows `h`, the last bits of a sequence, newest first. -/
def tapBit (taps : List Nat) (h : List Bool) : Bool := taps.foldl (fun x t => x != h.getD (t - 1) false) false

/-- Does each bit follow from the ones before? -/
def followsTaps (taps : List Nat) : List Bool → List Bool → Bool
  | _, [] => true
  | h, b :: bs => tapBit taps h == b && followsTaps taps ((b :: h).take 31) bs

/-- The level of UI `k` of a pattern that no shift register makes: SSPRQ (9), or the square wave (Table 13.3). -/
def fixedLevel (code k : Nat) : Int := if code = 9 then Config.ssprqLevel (k % 65535) else if k / 8 % 2 = 0 then 3 else -3

/-- How many UI SSPRQ and the square wave take to repeat (SSPRQ: PRESUMED from 802.3 Clause 120, log entry 62). -/
def fixedPeriod (code : Nat) : Nat := if code = 9 then 65535 else 16

/-- `n` levels that a generator sends, from the bits `h` in its shift register, newest first (R429). -/
def genLevels (code : Nat) : Nat → List Bool → Nat → List Int
  | 0, _, _ => []
  | n + 1, h, k =>
    if 9 ≤ code then fixedLevel code k :: genLevels code n h (k + 1)
    else
      let a := tapBit (patternTaps code) h
      let b := tapBit (patternTaps code) (a :: h)
      pairLevel a b :: genLevels code n ((b :: a :: h).take 31) (k + 1)

/-- What a generator that starts holds in its shift register, which the spec leaves open: a free value, not all zeros (log entry
135). -/
def State.genSeed (s : State) : List Bool :=
  let h := (List.range 31).map (fun i => (s.freeVal (2 ^ 31)).testBit i)
  if h.contains true then h else [true]

/-- A lane's generator starts its pattern: its first 1,024 levels as they are sent (R429). -/
def State.genStart (l : Nat) (s : State) : State :=
  if s.laneGen l = 0 ∨ s.laneWorks l = false ∨ s.laneLoop l = 2 then s
  else
    let levels := genLevels (s.laneGen l) 1024 s.genSeed 0
    (s.emit (.lanePattern l (s.laneGen l) (if s.laneCfg l 0 0 = 1 then levels.map (fun v => -v) else levels))).useFree

/-! The checker (R430). -/

/-- The levels that a checker needs to lock: those that seed it and 1,024 correct bits. -/
def lockLevels (code : Nat) : Nat := ((patternTaps code).headD 0 + 1025) / 2

/-- The checker that received levels lock, if they hold 1,024 consecutive correct bits of its pattern after what seeds it. -/
def checkerLock (code : Nat) (levels : List Int) : Option Checker :=
  let ls := levels.take (lockLevels code)
  if ls.length < lockLevels code ∨ code = 0 ∨ 10 < code then none
  else if 9 ≤ code then
    ((List.range (fixedPeriod code)).find? (fun r => ls == (List.range ls.length).map (fun k => fixedLevel code (k + r)))).map
      (fun r => { pos := r + ls.length })
  else
    let taps := patternTaps code
    let bits := ls.flatMap levelBits
    let n := taps.headD 0
    if followsTaps taps (bits.take n).reverse (bits.drop n) then some { hist := bits.reverse.take 31 } else none

/-- The two bits that a locked checker expects next. -/
def Checker.expects (code : Nat) (k : Checker) : List Bool :=
  if 9 ≤ code then levelBits (fixedLevel code k.pos)
  else
    let a := tapBit (patternTaps code) k.hist
    [a, tapBit (patternTaps code) (a :: k.hist)]

/-- A locked checker over received levels: bits checked, errors in them, and whether more than 64 of 1,024 bits were wrong, at
which it stops (R430). -/
def Checker.run (code : Nat) : Checker → List Int → Checker × Nat × Nat × Bool
  | k, [] => (k, 0, 0, false)
  | k, v :: vs =>
    let want := k.expects code
    let e := ((levelBits v).zip want).foldl (fun n x => n + b2n (x.1 != x.2)) 0
    let k : Checker := { hist := (want.reverse ++ k.hist).take 31, pos := k.pos + 1, bits := k.bits + 2, errs := k.errs + e }
    if 64 < k.errs then (k, 2, e, true)
    else
      let x := Checker.run code (if 1024 ≤ k.bits then { k with bits := 0, errs := 0 } else k) vs
      (x.1, x.2.1 + 2, x.2.2.1 + e, x.2.2.2)

/-- The levels a lane's checker sees: its receive pair corrected by the polarity applied (R426). -/
def State.seenLevels (s : State) (l : Nat) (levels : List Int) : List Int :=
  if s.tb pgLANE 1 l 0 1 then levels.map (fun v => -v) else levels

/-- A locked checker checks received levels: bits and errors are counted, and too many errors lose the lock (R430). -/
def State.prbsCheck (l : Nat) (levels : List Int) (s : State) : State :=
  let x := (Sparse.get {} s.uni.checkers l).run (s.laneCheck l) levels
  let s := ((s.countBy (cuLANE + 2 * l) x.2.1).countBy (cuLANE + 2 * l + 1) x.2.2.1).modUni (fun u => { u with
    checkers := Sparse.put {} l (if x.2.2.2 then {} else x.1) u.checkers })
  let s := s.putTw pgLANE 1 l 3 (BitVec.ofNat 32 (satAdd 0xFFFFFFFF (s.tw pgLANE 1 l 3).toNat x.2.2.1))
  s.iff x.2.2.2 (fun s => (s.setPrbs l false).raiseMs pgLANE 2)

/-- A checker receives levels: one that is locked checks them; another locks on those that begin with its pattern, and checks the
rest (R430). -/
def State.prbsSee (l : Nat) (levels : List Int) (s : State) : State :=
  if !s.laneWorks l then s
  else if s.prbsLock l then s.prbsCheck l (s.seenLevels l levels)
  else
    match checkerLock (s.laneCheck l) (s.seenLevels l levels) with
    | none => s
    | some k =>
      let s := (((s.setPrbs l true).raiseMs pgLANE 1).modUni (fun u => { u with checkers := Sparse.put {} l k u.checkers }))
      s.prbsCheck l ((s.seenLevels l levels).drop (lockLevels (s.laneCheck l)))

/-! Ports. -/

/-- One lane of a port that comes up: logical lane, polarity, frequency offset; changes since the previous link up raised. -/
def State.laneUp (l seen : Nat) (inv : Bool) (ofs : Int) (s : State) : State :=
  let inv := s.lanePolarity l inv
  let prev := Sparse.get none s.uni.seen l
  let s := ((s.setTf pgLANE 1 l 0 7 4 seen).setTf pgLANE 1 l 0 1 1 (b2n inv)).setTf pgLANE 1 l 2 15 0 (unsigned 16 ofs)
  let s := s.modUni (fun u => { u with seen := Sparse.put none l (some (seen % 16, inv)) u.seen })
  match prev with
  | some (n, v) => (s.iff (v != inv) (State.raise pgLANE 4)).iff (n != seen % 16) (State.raise pgLANE 5)
  | none => s

/-- Are the logical lanes seen on a port's lanes that port's own, each once (R427)? -/
def State.ownLanes (s : State) (p : Nat) (seen : List Nat) : Bool :=
  seen.length == modeLanes (s.portMode p) && seen.all (fun n => decide (n < modeLanes (s.portMode p))) && decide seen.Nodup

/-- A port's link comes up, its negotiation done where it negotiates, its lanes locked, adapted and in an order of its own (R421,
R426, R427, R432). -/
def State.linkRise (p : Nat) (up : LinkUpInfo) (s : State) : State :=
  let an := s.backplane p && s.pflag p UNIQ.portCfgAnEnable
  if !s.portOn p || !s.lanesWork p || s.laneBlocked p || s.portLink p || (an && !up.anDone) ||
      !(s.portLanes p).all (fun l => s.cdrLock l && !s.adapting l) || !s.ownLanes p (up.lanes.map Prod.fst) then s
  else
    let s := ((s.portLanes p).zip up.lanes).foldl (fun s x => s.laneUp x.1 x.2.1 x.2.2.1 x.2.2.2) s
    let s := ((s.setPf p UNIQ.portStatusAnDone (b2n an)).setPf p UNIQ.portStatusPcsLock 1).setFault p false
    let s := s.modUni (fun u => { u with eee := Sparse.put false p (an && up.eee) u.eee })
    (s.setPf p UNIQ.portStatusLinkUp 1).raise (pgUNIQ p) (p % 4)

/-- UNIQ_PORT_CFG written (R418): the register as written, or a write ignored with cause 0b01. -/
def State.portConfig (p : Nat) (acc : Access) (s : State) : State :=
  let pg := pgUNIQ p
  let off := 0x030 + 0x20 * (p % 4)
  match regInfo pg off with
  | none => s
  | some r =>
    let old := s.reg pg off
    let new := s.writeValue pg off acc r
    let locked := s.pflag p UNIQ.portCfgEnable && ((old ^^^ new) &&& 0xFE#32) != 0#32
    let t := s.putReg pg off new
    let swallowed := (List.range 16).any (fun k => k != p && s.pflag k UNIQ.portCfgEnable && t.absorbed k && !s.absorbed k)
    if locked || swallowed then s.ignored pg off 1
    else
      let bad := t.portMode p != 0 && (t.absorbed p || !modeLegal p (t.portMode p))
      let t := t.iff (bad || t.pf p UNIQ.portCfgMedium == 3) (State.raise pg 13)
      let hit := (List.range 16).filter (fun k => k != p && t.portMode k != 0 && t.absorbed k && !s.absorbed k)
      (hit.foldl (fun t k => t.raise (pgUNIQ k) 13) t).refreshPorts

/-- The end of a pause whose quanta have passed: of every class under PAUSE, else of one priority (R437). -/
def State.pauseEnd (p n : Nat) (s : State) : State :=
  if s.now < Sparse.get 0 s.uni.pauseUntil (8 * p + n) then s
  else if s.fcMode p = 1 then s.setPf p UNIQ.portStatusPausedRx 0
  else s.setPaused p n false

/-! Reception (R434). -/

/-- What a MAC does with a frame: `bs` are its bytes without the FCS; FEC codewords of the port that were corrected, and that
inside the frame were uncorrectable, are counted one by one (R434, R445). -/
def State.uniReceive (p : Nat) (bs : Bytes) (fcsErr : Bool) (corrected uncorrectable : Nat) (s : State) : State :=
  let cu := cuPort p
  if !s.portOn p then s.count (cu + 16)
  else
    let s := (s.countBy (cu + 10) corrected).countBy (cu + 11) uncorrectable
    if bs.length + 4 < 64 then s.count (cu + 5)
    else if s.maxLen p < bs.length + 4 then (s.count (cu + 6)).handUni p (bs.take (s.maxLen p)) true
    else if uncorrectable ≠ 0 then (s.count (cu + 7)).handUni p bs true
    else if fcsErr then s.uniBadFcs p bs
    else if fieldAt bs 12 2 = 0x8808 then s.macControl p bs
    else (((s.count cu).countBy (cu + 1) (bs.length + 4)).ptpIngress p bs).handUni p bs false

/-! LPI (R439). -/

/-- May the port use LPI: enabled, link up, and for KR and CR the partner advertised EEE? -/
def State.lpiAllowed (s : State) (p : Nat) : Bool :=
  s.pflag p UNIQ.portLpiLpiEnable && s.portLink p && (!s.backplane p || Sparse.get false s.uni.eee p)

/-- The port's transmitter enters LPI where no copy is eligible or being sent. -/
def State.lpiEnter (p : Nat) (s : State) : State :=
  if s.lpiAllowed p && !s.pflag p UNIQ.portStatusLpiTx && (s.sendingOn p).isNone && !s.uni.ctrl.any (fun x => x.1 == p) &&
      !((s.queuesWith (ofPort p)).any (s.downEligible p)) then
    (s.setPf p UNIQ.portStatusLpiTx 1).count (cuPort p + 12)
  else s

end Sys2Proof.Machine
end

