-- ==== Sys2Proof/Machine/RegionOps.lean ====
section
/-! DEFINITION. What a region loses when it is held in reset (R25, R450, R544, R551, R561) and how it runs again. -/

namespace Sys2Proof.Machine

/-! Host transmit work (R457, R461, R462), which a reset of the region aborts. -/

/-- Ring `k` of function `f`, by its key. -/
def ringOf (key : Nat) : Nat × Bool × Nat := (key / 64, key / 32 % 2 == 1, key % 32)

/-- The rings, by key, that carry a transmit frame in progress. -/
def State.jobRings (s : State) : List Nat := (s.dma.rings.filter (fun x => x.2.job.isSome)).map (·.1)

/-- The frame in progress of a transmit ring gone, its cells returned. -/
def State.dropJob (f k : Nat) (s : State) : State :=
  match (s.ring f false k).job with
  | some j => (s.iff j.admitted (State.freeFrame j.id)).modRing f false k (fun r => { r with job := none })
  | none => s

/-- A frame in progress that ends with ABORTED, without a completion (R462, R466). -/
def State.abortJob (f k : Nat) (s : State) : State :=
  if (s.ring f false k).job.isSome then (s.dropJob f k).count (cuDMA + 5) else s

/-- The copies being handed to functions among `ok` dropped (R464). -/
def State.dropHands (ok : Nat → Bool) (s : State) : State :=
  (s.sto.sending.filter (fun x => decide (32 ≤ x.1) && ok ((x.1 - 32) / 16))).foldl (fun s x => match x.2 with
    | some c => (s.putSending x.1 none).endCopy (cuDSCH + 6) c
    | none => s) s

/-! The CXL link lost (R346, R476). -/

/-- The CXL link goes down: its status cleared, counted, the tier lost. -/
def State.cxlDown (s : State) : State :=
  if s.flag pgHIF HIF.cxlStatusLinkUp then
    let s := ((s.setFld pgHIF HIF.cxlStatusLinkUp 0).setFld pgHIF HIF.cxlStatusMemEnabled 0).setFld pgHIF
      HIF.cxlStatusHdmCommitted 0
    let s := (s.setFld pgHIF HIF.cxlStatusSpeed 0).setFld pgHIF HIF.cxlStatusWidth 0
    ((s.count (cuHIF + 14)).raise pgHIF 11).loseTier
  else s

/-! Work that a region holds (R25). -/

/-- The fragments of a grant's content that the store drops, each copy by its last fragment; the stream stands assembled. -/
def State.dropPlaced (t : Tree) (i : Nat) (s : State) : State :=
  match Sparse.get none (s.grts t).content i with
  | none => s
  | some c =>
    let s := s.modGrts t (fun g => { g with content := Sparse.put none i (some { c with placed := [] }) g.content })
    (c.placed.filter (fun p => p.last)).foldl (fun s p => s.endCopy (cuSTO + 11) p.copy) s

/-- Every frame of the store dropped: each copy at STO 11; a frame that has none yet, and a fragment or partial frame of the
line, at STO 10, which A4 leaves out (R25, R351; log entry 66); every cell that is not retired returns to the pool. -/
def State.dropStore (s : State) : State :=
  let s := [Tree.a, Tree.b].foldl (fun s t => (Sparse.keys (s.grts t).content).foldl (fun s i => s.dropPlaced t i) s) s
  let s := (Sparse.keys s.sto.frames).foldl (fun s id =>
    let s := s.dropFrameCopies id (cuSTO + 11)
    if (s.frame id).isSome then (s.count (cuSTO + 10)).freeFrame id else s) s
  let s := s.dropLine (cuSTO + 10) (cuSTO + 10)
  let s := s.sto.lineCells.foldl (fun s x => (s.returnCells x.2.1 x.2.2).forgetCells x.1) s
  let s := s.sto.lost.foldl (fun s x => s.returnCells x.1 x.2) s
  s.modSto (fun x => { x with lost := [], unmarked := [] })

/-- A frame that the classifier held dropped at CLS 8: its cells return, or, before it starts admission, its action says that
it is dropped. -/
def State.dropClassified (id : Nat) (s : State) : State :=
  let s := s.count (cuCLS + 8)
  if (s.frame id).isSome then (s.forgetAct id).freeFrame id else s.noteAct id none

/-- The frames before the classifier, and those whose copies are undecided, dropped at CLS 8 (R49). -/
def State.dropClassifier (s : State) : State :=
  let undecided := (s.cls.acts.filter (fun x => x.2.isSome && x.2 != some none)).map (fun x => x.1)
  let ids := (s.cls.handed.map InFrame.id ++ undecided).eraseDups
  ids.foldl (fun s id => s.dropClassified id) (s.modCls (fun x => { x with handed := [] }))

/-- Every upstream copy of admission queues among `ok` that is in a list dropped at USCH 6, with its tier part. -/
def State.dropUp (ok : Nat → Bool) (s : State) : State :=
  let s := ((Sparse.keys s.xtr.tier).filter ok).foldl (fun s q => s.releaseTier q) s
  ((Sparse.keys s.sto.lists).filter (fun k => decide (k < 4 * downBase) && ok (k / 4))).foldl (fun s k =>
    (s.list k).foldl (fun s c => (s.unlinkCopy k c).endCopy (cuUSCH + 6) c) s) s

/-- Every copy that the switch holds dropped: upstream at USCH 6, downstream at DSCH 6, one that waits for its frame's end at
SWC 12; a frame before the classifier or undecided at CLS 8; a fragment before or in reassembly at DUAL 17 and 8. -/
def State.dropSwitch (s : State) : State :=
  let s := s.dropUp (fun _ => true)
  let s := (s.flushQueues (fun _ => true)).dropWaiting (fun _ => true) (fun _ => cuSWC + 12)
  (s.dropClassifier).dropDual

/-- Every transmit frame in progress and every copy on its way to a function dropped, the CXL link down. -/
def State.dropHost (s : State) : State :=
  let s := s.jobRings.foldl (fun s r => s.abortJob (ringOf r).1 (ringOf r).2.2) s
  (s.dropHands (fun _ => true)).iff (s.flag pgHIF HIF.formForm) State.cxlDown

/-- The work of a region dropped and counted. -/
def State.dropWork (r : Nat) (s : State) : State :=
  match r with
  | 0 => s.dropLineWork .a
  | 1 => s.dropLineWork .b
  | 2 => s.loseRecords.dropStore
  | 3 => s.dropSwitch
  | 4 => (List.range 16).foldl (fun s p => s.linkFall p) s
  | 5 => s.dropHost
  | _ => s

/-! State lost. -/

/-- Registers on a region's pages that show what the region does not hold: the regions' and dies' state, the die-to-die links,
the wake latch (R26, R469, R579). -/
def liveRegs : List (Nat × Nat) := [(pgSYS, 0x030), (pgSYS, 0x034), (pgD2D, 0x030), (pgHIF, 0x030), (pgHIF, 0x044)]

/-- Every function window at its reset values, every MSI-X table too. -/
def State.wipeWindows (s : State) : State :=
  let win := fun (k : Nat) => decide (fnPage 0 ≤ k / 1024) && decide (k / 1024 < fnPage 256)
  s.modRf (fun r => { r with
    regs := r.regs.filter (fun x => !win x.1)
    latches := r.latches.filter (fun x => !win x.1)
    staged := r.staged.filter (fun x => !win x.1) })

/-- Every page of a region loses what it holds. -/
def State.regionWipe (r : Nat) (s : State) : State :=
  let kept := liveRegs.map (fun x => (x, s.reg x.1 x.2))
  let d2d := s.tables.filter (fun x => decide (x.1 / 0x800000 = pgD2D * 8))
  let s := (regionPages r).foldl (fun s p => s.wipePage p) s
  let s := s.iff (r == 5) State.wipeWindows
  let s := kept.foldl (fun s x => s.putReg x.1.1 x.1.2 x.2) s
  d2d.foldl (fun s x => s.modTables (Sparse.put (tblDef x.1) x.1 x.2)) s

/-- What the rest of the part shows after a region lost its state. -/
def State.regionAfter (r : Nat) (s : State) : State :=
  match r with
  | 0 => (((s.clkLose 1).clkLose 2).dualJudge).clkJudge.refreshPorts
  | 1 => (((s.clkLose 3).clkLose 4).dualJudge).clkJudge.refreshPorts
  | 2 => (s.setFld pgXTR XTR.statusCxlUp (s.fld pgHIF HIF.cxlStatusLinkUp)).showTier
  | 4 => s.refreshPorts
  | 5 => (s.setFld pgHIF HIF.linkStatusPmState 6).setTimeValid false |>.pmMarkAll 1
  | 7 => s.keysLost.showKeystore
  | _ => s

/-- A region held in reset: its work dropped, its state lost. -/
def State.regionReset (r : Nat) (s : State) : State := ((s.dropWork r).regionWipe r).regionAfter r

/-! Hold and release. -/

/-- The state that a region's holds give it (Table 1.4): contained, held in reset, every domain off, running. -/
def State.regionHold (s : State) (r : Nat) : Nat :=
  if Sparse.get 0 s.rel.cause r ≠ 0 then 2
  else if (s.clk.railHeld || s.clk.tapHeld || s.clk.clockWait) && decide (r < 8) then 1
  else if s.clk.lossHeld && decide (2 ≤ r) && decide (r < 8) then 1
  else if s.hif.perst && r == 5 then 1
  else if s.regionOff r ∨ (r = 0 ∧ s.flag pgKEEP KEEP.shedLineA) ∨ (r = 1 ∧ s.flag pgKEEP KEEP.shedLineB) then 3
  else 0

/-- A line region that leaves reset with no receiver clock serving it starts frozen; that is not counted (R543). -/
def State.startFrozen (t : Tree) (s : State) : State :=
  s.iff (s.treeClk t == 0 && !s.partOnRx) (State.setFld pgCLK (match t with
    | .a => CLK.statusFrozenA
    | .b => CLK.statusFrozenB) 1)

/-- A region's pages run again. -/
def State.regionStart (r : Nat) (s : State) : State :=
  let s := match r with
    | 0 => s.startFrozen .a
    | 1 => s.startFrozen .b
    | 4 => s.refreshPorts
    | _ => s
  (regionPages r).foldl (fun s p => s.pageRestart p) s

/-- The region's state follows its holds; one that nothing holds any more runs again. -/
def State.settleRegion (r : Nat) (s : State) : State :=
  let was := s.region r
  let now := s.regionHold r
  (s.setRegion r now).iff (was != 0 && now == 0) (State.regionStart r)

end Sys2Proof.Machine
end

