-- ==== Sys2Proof/Machine/HostOps.lean ====
section
/-! DEFINITION. The host interface: functions and their windows (R453 to R459, R466), host rings and transmit frames (R457 to
R462), link power and wake (R467 to R471), width changes (R472, R473), the CXL root (R474 to R476). -/

namespace Sys2Proof.Machine

/-! Function windows (R455, R456). -/

/-- Does an access to function `f`'s window reach it: the function exists and region Host is not held in reset? -/
def State.windowOpen (s : State) (f : Nat) : Bool := s.fnExists f && s.alive pgDMA && !s.hif.perst

/-- Does function `f` have ring `k`, and is its window open? -/
def State.ringOpen (s : State) (f : Nat) (rx : Bool) (k : Nat) : Bool := s.windowOpen f && decide (k < s.rgCount f rx)

/-- A ring's state set; DMA_STATUS counts the rings that run (Table 14.9). -/
def State.setRingState (f : Nat) (rx : Bool) (k v : Nat) (s : State) : State :=
  let old := s.rg f rx k RING.ctrlState
  let fld := if rx then DMA.statusRxRunning else DMA.statusTxRunning
  let n := s.fld pgDMA fld
  let n := if old = 1 then n - 1 else n
  let n := if v = 1 then n + 1 else n
  (s.setFld pgDMA fld n).setRg f rx k RING.ctrlState v

/-- A ring with enable 1 that is disabled runs, its completion ring from the start, where the engine is at work. -/
def State.ringRun (f : Nat) (rx : Bool) (k : Nat) (s : State) : State :=
  if s.rg f rx k RING.cfgEnable == 1 && s.rg f rx k RING.ctrlState == 0 && s.works pgDMA then
    (s.setRingState f rx k 1).modRing f rx k (fun r => { r with completions := 0 })
  else s

/-- The rings that are not disabled: function, receive, number. -/
def State.openRings (s : State) : List (Nat × Bool × Nat) :=
  (s.rf.regs.filter (fun x =>
    let off := x.1 % 1024 * 4
    decide (fnPage 0 ≤ x.1 / 1024) && decide (x.1 / 1024 < fnPage 256) && decide (off < 0x800) && off % 0x20 == 0x1C &&
      (x.2.toNat % 4 != 0))).map (fun x =>
    let off := x.1 % 1024 * 4
    (x.1 / 1024 - fnPage 0, decide (0x400 ≤ off), off % 0x400 / 0x20))

/-! Transmit completions (R460, R461). -/

/-- The bytes of a frame's entries that a completion covers. -/
def txCompletion (es : List TxEntry) (first status seg sum : Nat) : Bytes :=
  natLE 2 ((es.map TxEntry.cookie).headD 0) ++ natLE 2 first ++ natLE 1 status ++ natLE 1 seg ++ natLE 1 es.length ++
    natLE 1 0 ++ natLE 2 (min sum 65535) ++ natLE 5 0

/-- A frame's completion written, and its vector sent where an entry asked for it (R465). -/
def State.txComplete (f k : Nat) (es : List TxEntry) (status seg sum : Nat) (s : State) : State :=
  let s := s.ringComplete f false k (txCompletion es (s.rg f false k RING.headHead) status seg sum)
  s.iff (es.any TxEntry.irq) (State.ringVector f false k)

/-- A frame that ends without being read: its completion and its count, the head past its entries. -/
def State.txEnd (f k : Nat) (es : List TxEntry) (status seg sum counter : Nat) (s : State) : State :=
  ((s.txComplete f k es status seg sum).count counter).ringAdvance f false k es.length

/-! What the engine finds on a ring (R461). -/

/-- The first frame on a ring: a frame, a run of entries that ends with FORMAT or SEG_COUNT, or nothing complete yet. -/
inductive TxParse where
  | frame (es : List TxEntry)
  | bad (es : List TxEntry) (status : Nat)
  | more
  deriving DecidableEq, Repr

/-- The entries after the first of a frame, `acc` being those before, reversed. -/
def parseRest : List TxEntry → List TxEntry → TxParse
  | acc, [] => if 16 ≤ acc.length then .bad acc.reverse 2 else .more
  | acc, e :: es =>
    if 16 ≤ acc.length then .bad acc.reverse 2
    else if e.first then .bad acc.reverse 1
    else if e.len = 0 then .bad (e :: acc).reverse 1
    else if e.last then .frame (e :: acc).reverse
    else parseRest (e :: acc) es

/-- The first frame of a ring's entries. -/
def parseTx : List TxEntry → TxParse
  | [] => .more
  | e :: es =>
    if !e.first || e.len = 0 then .bad [e] 1
    else if e.last then .frame [e]
    else parseRest [e] es

/-- The bytes of a frame's segments together. -/
def txLength (es : List TxEntry) : Nat := es.foldl (fun n e => n + e.len) 0

/-! Segment reads (R461). -/

/-- Max Read Request Size in bytes (Table 14.1). -/
def maxReadRequest : Nat := 4096

/-- Reads of a segment, split at Max Read Request Size and at 4 KiB boundaries, at most `n`. -/
def State.readChunks (f : Nat) : Nat → Nat → Nat → State → State
  | 0, _, _, s => s
  | n + 1, addr, len, s =>
    if len = 0 then s
    else
      let c := min len (maxReadRequest - addr % maxReadRequest)
      State.readChunks f n (addr + c) (len - c) (s.emit (.hostRead f addr c))

/-- The reads of a job's current segment issued. -/
def State.readSegment (f : Nat) (j : TxJob) (s : State) : State :=
  match j.entries[j.seg]? with
  | some e => s.readChunks f (e.len / 4096 + 2) e.addr e.len
  | none => s

/-- A job starts with its first segment. -/
def State.startJob (f k : Nat) (es : List TxEntry) (s : State) : State :=
  (s.modRing f false k (fun r => { r with job := some { entries := es } })).readSegment f { entries := es }

/-- May ring `k` of function `f` start a frame: it runs, the function is in D0, no frame of it is in progress, and fewer than
128 frames are in progress in all? -/
def State.txReady (s : State) (f k : Nat) : Bool :=
  s.ringOpen f false k && s.fnServed f && s.rg f false k RING.ctrlState == 1 && (s.ring f false k).job.isNone &&
    decide (s.jobRings.length < 128)

/-- Is ring `k` draining, with entries posted that it has not read? -/
def State.txDraining (s : State) (f k : Nat) : Bool :=
  s.ringOpen f false k && s.rg f false k RING.ctrlState == 3 && (s.ring f false k).job.isNone && s.rgPosted f false k != 0

/-- The first frame of a draining ring, which has not been offered: it ends with ABORTED, without a completion in a Function Level
Reset (R457, R466). A last frame whose entries are not all posted ends with them. -/
def State.drainFrame (f k : Nat) (entries : List TxEntry) (s : State) : State :=
  let posted := s.rgPosted f false k
  let es := match parseTx (entries.take posted) with
    | .frame es => es
    | .bad es _ => es
    | .more => if entries.length < posted then [] else entries.take posted
  if es.isEmpty then s
  else if (s.fn f).flr then (s.count (cuDMA + 5)).ringAdvance f false k es.length
  else s.txEnd f k es 6 0 0 (cuDMA + 5)

/-- DMA_TX_FRAME's effect: the ring's entries from its head on are read at their places in the descriptor ring, and its first frame
taken. -/
def State.dmaTxFrame (f k : Nat) (descs : List Bytes) (s : State) : State :=
  let entries := descs.map txEntry
  let fetch := State.fetchDescs f false k (min descs.length (s.rgPosted f false k))
  if s.txDraining f k then (fetch s).drainFrame f k entries
  else if !s.txReady f k then s
  else
  let s := fetch s
  match parseTx (entries.take (s.rgPosted f false k)) with
    | .more => s
    | .bad es status => (s.txEnd f k es status 0 0 (cuDMA + 3)).raiseMs pgDMA 1
    | .frame es =>
      if txLength es < 14 ∨ s.fld pgSWC SWC.mtuMtu < txLength es + 4 then
        (s.txEnd f k es 3 0 0 (cuDMA + 3)).raiseMs pgDMA 1
      else s.startJob f k es

/-- A frame's bytes reach the store: cells drawn as they arrive; `false` where it was refused at its first byte. -/
def State.segArrive (f : Nat) (j : TxJob) (bytes : Bytes) (s : State) : State × Bool :=
  if !j.admitted then
    s.admitStart { id := j.id, srcKind := 2, srcNum := f, tenant := f, rate := 0, bytes := bytes, arrived := bytes.length } 0
  else match s.frame j.id with
    | some x =>
      let need := cellsOf bytes.length - x.cells.length
      let x := { x with bytes := bytes, arrived := bytes.length }
      if s.freeCells < need then (s.putFrame j.id (some { x with endWith := 2 }), true)
      else ((s.iff (need != 0) (State.drawCells x.tenant x.cells need)).putFrame j.id (some { x with
          cells := x.cells ++ s.nextCells x.cells need }), true)
    | none => (s, true)

/-- The last segment is there: the frame, padded to 60 bytes, is offered to the classifier, and its completion written
(R461). -/
def State.txOffer (f k : Nat) (j : TxJob) (s : State) : State :=
  let bytes := j.bytes ++ List.replicate (60 - j.bytes.length) 0#8
  let tag := (j.entries.map TxEntry.tag).headD 0
  let x : InFrame := { id := j.id, srcKind := 2, srcNum := f, ring := k, tenant := f, service := 0, bytes := bytes,
                       length := bytes.length + 4, tag := some tag }
  let s := s.modFrame j.id (fun y => { y with
    bytes := bytes, arrived := bytes.length, ended := true, tag := some tag })
  let s := s.modCls (fun c => { c with handed := c.handed ++ [x] })
  let s := ((s.modRing f false k (fun r => { r with job := none })).countBy (cuDMA + 1) bytes.length).count (cuFn f)
  s.txEnd f k j.entries 0 0 (txLength j.entries) cuDMA

/-- A segment's data arrives. -/
def State.segData (f k : Nat) (j : TxJob) (bs : Bytes) (s : State) : State :=
  let len := ((j.entries[j.seg]?).map TxEntry.len).getD 0
  let bytes := j.bytes ++ bs.take len
  let j := if j.admitted then j else { j with id := s.sto.nextId }
  let s := s.iff (!j.admitted) (fun s => s.modSto (fun x => { x with nextId := x.nextId + 1 }))
  let y := s.segArrive f j bytes
  if !y.2 then
    (y.1.modRing f false k (fun r => { r with job := none })).txEnd f k j.entries 5 0 bytes.length (cuDMA + 4)
  else
    let j := { j with admitted := true, bytes := bytes, seg := j.seg + 1 }
    if j.seg < j.entries.length then
      (y.1.modRing f false k (fun r => { r with job := some j })).readSegment f j
    else y.1.txOffer f k j

/-- The bit of AER's uncorrectable error status that a fault's cause sets: Unsupported Request, Completer Abort, Poisoned TLP,
Completion Timeout (PRESUMED from PCI Express Base, log entry 137). -/
def aerBit : Nat → Nat
  | 1 => 2 ^ 20
  | 2 => 2 ^ 15
  | 3 => 2 ^ 12
  | _ => 2 ^ 14

/-- A segment read faults (R462). -/
def State.gatherFault (f k : Nat) (j : TxJob) (cause : Nat) (s : State) : State :=
  let s := s.dropJob f k
  let s := ((s.setFld pgDMA DMA.faultLastRing (s.tf pgDMA 0 f 0 9 0 + k)).setFld pgDMA DMA.faultLastSegment j.seg).setFld
    pgDMA DMA.faultLastCause cause
  let s := (((s.count (cuDMA + 2)).raiseMs pgDMA 0).count (cuHIF + 13)).modFn f (fun x => { x with
    aerUnc := x.aerUnc ||| aerBit cause })
  let s := (s.raiseMs pgHIF 9).txComplete f k j.entries 4 j.seg j.bytes.length
  if s.rg f false k RING.cfgStopOnFault = 1 then
    let s := (s.setRingState f false k 2).modRing f false k (fun r => { r with stopped := some { entries := j.entries } })
    (s.count (cuDMA + 10)).raise pgDMA 2
  else s.ringAdvance f false k j.entries.length

/-- DMA_SEG_COMPLETE's effect. -/
def State.segComplete (f k : Nat) (c : SegCompletion) (s : State) : State :=
  match (s.ring f false k).job with
  | none => s
  | some j =>
    match c with
    | .data bs => s.segData f k j bs
    | .fault cause => s.gatherFault f k j cause

/-! Rings disabled, stopped, drained (R457, R462). -/

/-- A frame in progress ends with ABORTED as its ring is disabled, with its completion. -/
def State.abortRingJob (f k : Nat) (s : State) : State :=
  match (s.ring f false k).job with
  | some j => (s.dropJob f k).txEnd f k j.entries 6 0 j.bytes.length (cuDMA + 5)
  | none => s

/-- A ring that is not disabled drains; `quiet` writes no completion (R466). -/
def State.drainRing (f : Nat) (rx : Bool) (k : Nat) (quiet : Bool) (s : State) : State :=
  if s.rg f rx k RING.ctrlState = 0 then s
  else
    let s := s.setRingState f rx k 3
    if rx then s
    else
      let past := match (s.ring f false k).stopped with | some j => j.entries.length | none => 0
      ((if quiet then s.abortJob f k else s.abortRingJob f k).modRing f false k (fun r => { r with stopped := none })).ringAdvance
        f false k past

/-- RING_DISABLE's effect: enable 0 written. -/
def State.ringDisable (f : Nat) (rx : Bool) (k : Nat) (s : State) : State :=
  if s.ringOpen f rx k then (s.setRg f rx k RING.cfgEnable 0).drainRing f rx k false else s

/-- Is anything of a draining ring outstanding: a frame in progress or posted and not ended, or a copy that its function is being
handed? -/
def State.ringBusy (s : State) (f : Nat) (rx : Bool) (k : Nat) : Bool :=
  (s.ring f rx k).job.isSome || (!rx && s.rgPosted f false k != 0) || (rx && s.sto.sending.any (fun x => decide (32 ≤ x.1) && (x.1 - 32) / 16 == f &&
    (match x.2 with | some c => s.rxRing f c.hash == k | none => false)))

/-- RING_DRAINED's effect: the ring is disabled, its head at its tail; written to 1 meanwhile, it runs again. -/
def State.ringDrained (f : Nat) (rx : Bool) (k : Nat) (s : State) : State :=
  if s.rg f rx k RING.ctrlState = 3 ∧ s.ringBusy f rx k = false then
    ((s.setRingState f rx k 0).setRg f rx k RING.headHead (s.rg f rx k RING.tailTail)).ringRun f rx k
  else s

/-- RING_RESTART's effect: the stopped ring runs, and its frame is read again. -/
def State.ringRestart (f k : Nat) (s : State) : State :=
  match s.ringOpen f false k && s.rg f false k RING.ctrlState == 2, (s.ring f false k).stopped with
  | true, some j =>
    let s := (s.setRingState f false k 1).modRing f false k (fun r => { r with stopped := none })
    s.iff (s.txReady f k) (State.startJob f k j.entries)
  | _, _ => s

/-- RING_SKIP's effect: the stopped ring runs past the frame, without a second completion. -/
def State.ringSkip (f k : Nat) (s : State) : State :=
  match s.ringOpen f false k && s.rg f false k RING.ctrlState == 2, (s.ring f false k).stopped with
  | true, some j =>
    ((s.setRingState f false k 1).modRing f false k (fun r => { r with stopped := none })).ringAdvance f false k
      j.entries.length
  | _, _ => s

/-- RING_TAIL_WRITE's effect; new buffers may end the wait of the function's queues. -/
def State.ringTail (f : Nat) (rx : Bool) (k tail : Nat) (s : State) : State :=
  if s.ringOpen f rx k then
    let s := s.setRg f rx k RING.tailTail tail
    s.iff rx (fun s => (s.queuesWith (ofFn f)).foldl (fun s q => s.starveJudge q) s)
  else s

/-- A moderation interval of a ring ends (R465): a message held back is sent, and begins the next interval. -/
def State.moderationEnd (f : Nat) (rx : Bool) (k : Nat) (s : State) : State :=
  let r := s.ring f rx k
  if !r.interval then s
  else if r.held then
    (s.sendLocal f (s.rg f rx k RING.cfgVector)).modRing f rx k (fun r => { r with held := false })
  else s.modRing f rx k (fun r => { r with interval := false })

/-! Messages (R458, R459). -/

/-- The pending messages of a function that nothing masks any more, sent. -/
def State.sendPending (f : Nat) (s : State) : State :=
  if s.dropsMsix f then s
  else ((Sparse.keys s.hif.pba).filter (fun k => k / 2048 == f)).foldl (fun s k =>
    let v := k % 2048
    if (s.msixWord f v 3).getLsbD 0 || (s.fn f).fnMask then s
    else (s.modHif (fun h => { h with pba := Sparse.put false k false h.pba })).sendOwned f v) s

/-- Do two ranges of vectors meet? -/
def rangesMeet (a b : Nat × Nat) : Bool :=
  a.2 != 0 && b.2 != 0 && decide (a.1 < b.1 + b.2) && decide (b.1 < a.1 + a.2)

/-- MSI-X Enable goes from 0 to 1: the function's entry of HIF table 0 takes effect; one whose range meets another function's
takes count 0 (R458). -/
def State.takeVectors (f : Nat) (s : State) : State :=
  let r := (s.tf pgHIF 0 f 0 10 0, s.tf pgHIF 0 f 0 27 16)
  if (List.range 256).any (fun g => g != f && rangesMeet r (s.vectors g)) then
    (s.modFn f (fun x => { x with alloc := some (r.1, 0) })).raise pgHIF 13
  else s.modFn f (fun x => { x with alloc := some r })

/-- MSI-X Enable and Function Mask written. -/
def State.msixControl (f : Nat) (enable mask : Bool) (s : State) : State :=
  let was := (s.fn f).msixEnable
  let s := s.iff (enable && !was) (State.takeVectors f)
  (s.modFn f (fun x => { x with msixEnable := enable, fnMask := mask })).sendPending f

/-- MSIX_UNMASK's effect: a vector's mask bit, or the function's mask, cleared. -/
def State.msixUnmask (f : Nat) (vec : Option Nat) (s : State) : State :=
  if !s.windowOpen f then s
  else match vec with
    | some v =>
      let w := s.msixWord f v 3
      (s.modHif (fun h => { h with msixTab := Sparse.put 1#32 (vecKey f v * 4 + 3) (Fld.put ⟨0, 0, 0⟩ 0 w) h.msixTab })).sendPending f
    | none => (s.modFn f (fun x => { x with fnMask := false })).sendPending f

/-! Function reset (R466). -/

/-- The functions that hold any state. -/
def State.liveFns (s : State) : List Nat :=
  (Sparse.keys s.hif.fns ++ (s.openRings.map (fun x => Prod.fst x)) ++ (s.jobRings.map (· / 64))).eraseDups

/-- The open rings of a function drain without a completion. -/
def State.drainFn (f : Nat) (s : State) : State :=
  (s.openRings.filter (fun x => x.1 == f)).foldl (fun (s : State) x => s.drainRing f x.2.1 x.2.2 true) s

/-- A function's window, MSI-X table and rings at their reset values; `keepPme` keeps what region Keeper holds. -/
def State.clearFn (f : Nat) (keepPme : Bool) (s : State) : State :=
  let s := s.modRf (fun r => { r with
    regs := r.regs.filter (fun x => x.1 / 1024 ≠ fnPage f)
    latches := r.latches.filter (fun x => x.1 / 1024 ≠ fnPage f)
    staged := r.staged.filter (fun x => x.1 / 1024 ≠ fnPage f) })
  let s := s.modDma (fun d => { d with rings := d.rings.filter (fun x => x.1 / 64 ≠ f) })
  let s := s.modHif (fun h => { h with
    msixTab := h.msixTab.filter (fun x => x.1 / 8192 ≠ f)
    pba := h.pba.filter (fun x => x.1 / 2048 ≠ f) })
  s.modFn f (fun x => { alloc := x.alloc, pmeEn := keepPme && x.pmeEn, pmeStatus := keepPme && x.pmeStatus,
                        pmeSent := keepPme && x.pmeSent })

/-- The first two steps of a Function Level Reset of one function. -/
def State.flrStart (f : Nat) (s : State) : State :=
  let s := (s.drainFn f).modFn f (fun x => { x with flr := true })
  ((s.dropHands (· == f)).flushQueues (ofFn f)).raise pgDSCH 1

/-- FUNCTION_LEVEL_RESET's effect: of PF 0, every VF undergoes the same steps and VF Enable clears. -/
def State.flr (f : Nat) (s : State) : State :=
  if !s.fnExists f || s.hif.perst then s
  else
    let s := (s.count (cuHIF + 9)).raiseMs pgHIF 7
    if f = 0 then
      let vfs := if s.hif.vfEnable then (List.range s.hif.numVfs).map (· + 1) else []
      let s := (0 :: vfs).foldl (fun s g => s.flrStart g) s
      s.modHif (fun h => { h with vfEnable := false })
    else s.flrStart f

/-- FLR_COMPLETE's effect. -/
def State.flrComplete (f : Nat) (s : State) : State :=
  let done := fun (g : Nat) (s : State) => if (s.fn g).flr then s.clearFn g (g == 0) else s
  if (s.fn f).flr then
    (if f = 0 then s.liveFns.foldl (fun s g => done g s) s else done f s)
  else s

/-- A VF ceases to exist: its rings, its copies being handed, its state go. -/
def State.vfGone (f : Nat) (s : State) : State := ((s.drainFn f).dropHands (· == f)).clearFn f false

/-! Configuration (R452 to R455, R458). -/

/-- Vendor ID, Device ID and class code of a function (Table 14.1). -/
def pcieId (f : Nat) : Nat × Nat × Nat := (0x1F6C, if f = 0 then 0x9840 else 0x9841, 0x020000)

/-- What the SR-IOV capability shows: TotalVFs, First VF Offset, VF Stride; and Max Payload Size in bytes (Table 14.1). -/
def totalVfs : Nat := 255
def firstVfOffset : Nat := 1
def vfStride : Nat := 1
def maxPayload : Nat := 512

/-- The bytes of PF 0's BAR0/1, and of a function window's BAR (Table 14.2). -/
def pageBarSize : Nat := 2 ^ 20
def windowBarSize : Nat := 2 ^ 16

/-- What a memory request to an address reaches (R39, R454): a page and an offset in it, with the view in [13:12]; a function's
window is page 256 + function. BAR0 is PF 0's alone, and an address of a VF's BAR reaches that VF's own window. The `page` of a
register command is what this gives (log entry 138). -/
def State.barTarget (s : State) (addr : Nat) : Option (Nat × Nat) :=
  let vfs := if s.hif.vfEnable then s.hif.numVfs else 0
  if s.hif.pfBar0 ≤ addr ∧ addr < s.hif.pfBar0 + pageBarSize then
    some ((addr - s.hif.pfBar0) / 0x4000, (addr - s.hif.pfBar0) % 0x4000)
  else if s.hif.pfBar2 ≤ addr ∧ addr < s.hif.pfBar2 + windowBarSize then some (256, addr - s.hif.pfBar2)
  else if s.hif.vfBar ≤ addr ∧ addr < s.hif.vfBar + windowBarSize * vfs then
    some (256 + firstVfOffset + (addr - s.hif.vfBar) / windowBarSize, (addr - s.hif.vfBar) % windowBarSize)
  else none

/-- A BAR written: the bits within its size stay 0. -/
def State.barWrite (n addr : Nat) (s : State) : State :=
  let base := fun (size : Nat) => addr % 2 ^ 64 / size * size
  s.modHif (fun h => match n with
    | 0 => { h with pfBar0 := base pageBarSize }
    | 1 => { h with pfBar2 := base windowBarSize }
    | _ => { h with vfBar := base windowBarSize })

/-- VF Enable and NumVFs written: NumVFs changes only while VF Enable is 0. -/
def State.vfControl (enable : Bool) (num : Nat) (s : State) : State :=
  if s.hif.vfEnable then
    (if enable then s
     else ((s.liveFns.filter (· ≠ 0)).foldl (fun s f => s.vfGone f) s).modHif (fun h => { h with vfEnable := false }))
  else s.modHif (fun h => { h with vfEnable := enable, numVfs := min num totalVfs })

/-- PCIE_CONFIG_WRITE's effect. -/
def State.configWrite (f : Nat) (w : CfgWrite) (s : State) : State :=
  if !s.fnExists f || s.hif.perst then s
  else match w with
    | .busMaster true => s.modFn f (fun x => { x with busMaster := true })
    | .busMaster false =>
      let s := s.modFn f (fun x => { x with busMaster := false })
      let s := (s.jobRings.filter (fun r => r / 64 == f)).foldl (fun s r =>
        let k := r % 32
        let n := match (s.ring f false k).job with | some j => j.entries.length | none => 0
        (s.abortJob f k).ringAdvance f false k n) s
      s.dropHands (· == f)
    | .vf enable num => if f = 0 then s.vfControl enable num else s
    | .power d3 => s.modFn f (fun x => { x with d3 := d3 })
    | .msix enable mask => s.msixControl f enable mask
    | .pmeEn on => s.modFn f (fun x => { x with pmeEn := on })
    | .pmeStatusClear => s.modFn f (fun x => { x with pmeStatus := false, pmeSent := false })
    | .widthDisable on => s.modHif (fun h => { h with widthDisable := on })
    | .aspmL1 on => s.modHif (fun h => { h with aspmL1 := on })
    | .bar n addr => s.iff (f == 0) (State.barWrite n addr)
    | .aerClear u c => s.modFn f (fun x => { x with aerUnc := x.aerUnc &&& (x.aerUnc ^^^ u), aerCor := x.aerCor &&& (x.aerCor ^^^ c) })

/-! Link power and wake (R467 to R471). -/

/-- HIF_LINK_STATUS.pm_state, and whether the link is in L0 with the data link up. -/
def State.pmState (s : State) : Nat := s.fld pgHIF HIF.linkStatusPmState
def State.inL0 (s : State) : Bool := s.pmState == 0 && s.flag pgHIF HIF.linkStatusDlUp

/-- Is the link in L2 or down? -/
def State.linkAsleep (s : State) : Bool := s.pmState == 4 || s.pmState == 6 || s.hif.perst

/-- L1_ENTRY's effect after `idle` µs without a TLP or DLLP: L1, or with CLKREQ# released one of its substates, as the link
chooses. -/
def State.l1Entry (idle : Nat) (s : State) : State :=
  if s.hif.aspmL1 && s.inL0 && decide (max 1 (s.fld pgHIF HIF.aspmL1Idle) ≤ idle) then
    let s := s.emit (.l1 true (s.reg pgHIF 0x040))
    if s.clkreqKept then s.setFld pgHIF HIF.linkStatusPmState 1
    else (s.setFld pgHIF HIF.linkStatusPmState (1 + s.freeVal 3)).useFree
  else s

/-- L1_EXIT's effect. -/
def State.l1Exit (s : State) : State :=
  if 1 ≤ s.pmState ∧ s.pmState ≤ 3 then (s.emit (.l1 false 0#32)).setFld pgHIF HIF.linkStatusPmState 0 else s

/-- WAKE# deasserts once the link is in L0 and PME_Status is 1 in every function with a latched cause (R470). -/
def State.wakeJudge (s : State) : State :=
  s.iff (s.inL0 && s.hif.latched.all (fun x => !s.fnExists x.2 || (s.fn x.2).pmeStatus))
    (State.setFld pgHIF HIF.wakeCauseWakeAsserted 0)

/-- The wake latch takes cause bit `b` for function `f` (R469, R471). -/
def State.wakeLatch (b f : Nat) (s : State) : State :=
  let f := if b = 2 then 0 else f
  let dup := s.flag pgHIF HIF.wakeCauseWakeAsserted || ((s.fn f).pmeStatus && (s.fn f).pmeSent)
  let s := (s.setFld pgHIF ⟨0x044, b, b⟩ 1).modFn f (fun x => { x with pmeStatus := true })
  let s := s.modHif (fun h => { h with latched := h.latched.filter (· ≠ (b, f)) ++ [(b, f)] })
  if dup then s.count (cuHIF + 7)
  else
    let s := (s.count (cuHIF + 6)).raise pgHIF 5
    if s.linkAsleep then (s.setFld pgHIF HIF.wakeCauseWakeAsserted 1).count (cuHIF + 5) else s

/-- WAKE_CAUSE_LATCH's effect: host_traffic and pennant concern a function in D3hot or D3cold whose PME_En is 1. -/
def State.wakeCause (cause f : Nat) (s : State) : State :=
  if cause = 2 then s.wakeLatch 2 0
  else if cause < 2 ∧ (s.fn f).pmeEn = true ∧ ((s.fn f).d3 = true ∨ s.pmState = 4 ∨ s.hif.perst = true) then
    s.wakeLatch cause f
  else s

/-- PME_SEND's effect. -/
def State.pmeSend (s : State) : State :=
  if s.inL0 then
    let due := (Sparse.keys s.hif.fns).filter (fun f => (s.fn f).pmeStatus && !(s.fn f).pmeSent)
    let s := due.foldl (fun s f =>
      ((s.emit (.pmPme f)).count (cuHIF + 8)).modFn f (fun x => { x with pmeSent := true })) s
    (s.iff (!due.isEmpty) (State.raise pgHIF 6)).wakeJudge
  else s

/-! Width (R472, R473). -/

/-- The lanes of narrow_width; others act as 1 (Table 14.8). -/
def State.narrowLanes (s : State) : Nat :=
  match s.fld pgHIF HIF.linkCfgNarrowWidth with
  | 2 => 2
  | 3 => 4
  | _ => 1

/-- May the part ask for a width of its own? -/
def State.mayNarrow (s : State) : Bool :=
  s.flag pgHIF HIF.linkCfgAutoNarrow && !s.hif.widthDisable && s.inL0

/-- Has the link been used little enough for narrow_idle ms to narrow, or, once narrowed, more than half? `util` is the greater
use of the two directions in % of the present width, for `ms` (R472). -/
def State.widthDue (s : State) (util ms : Nat) : Bool :=
  if s.hif.narrowed then decide (50 < util)
  else decide (util < max 1 (min 50 (s.fld pgHIF HIF.linkCfgNarrowUtil))) && decide (max 1 (s.fld pgHIF HIF.linkCfgNarrowIdle) ≤ ms)

/-- A request for a width: to narrow, or from a narrowed link back to full width. -/
def State.widthRequest (s : State) : State :=
  let lanes := if s.hif.narrowed then 0 else s.narrowLanes
  ((s.emit (.widthRequest lanes)).modHif (fun h => { h with narrowing := true, retryDue := false })).count (cuHIF + 3)

/-- NARROW_REQUEST's effect. -/
def State.narrowRequest (util ms : Nat) (s : State) : State :=
  if s.mayNarrow && !s.hif.narrowing && s.widthDue util ms then s.widthRequest else s

/-- The widths and rates to which the link can train: x8 in form 0 only; codes 1 to 5 (R452). -/
def State.trains (s : State) (width rate : Nat) : Bool :=
  (if s.flag pgHIF HIF.formForm then [4, 2, 1] else [8, 4, 2, 1]).contains width && decide (1 ≤ rate) && decide (rate ≤ 5)

/-- The width and rate to which the link trained. -/
def State.trained (width rate : Nat) (s : State) : State :=
  (s.setFld pgHIF HIF.linkStatusWidth width).setFld pgHIF HIF.linkStatusSpeed rate

/-- A link that is up has trained again: a change of its width is counted (R478). -/
def State.retrained (width rate : Nat) (s : State) : State :=
  let moved := s.fld pgHIF HIF.linkStatusWidth != width
  (s.trained width rate).iff moved (fun s => (s.count (cuHIF + 2)).raiseMs pgHIF 3)

/-- NARROW_WITHDRAW's effect. -/
def State.narrowWithdraw (width rate : Nat) (s : State) : State :=
  if s.hif.narrowing && s.trains width rate then
    let s := (s.modHif (fun h => { h with narrowing := false, retryDue := true })).retrained width rate
    (s.count (cuHIF + 4)).raise pgHIF 4
  else s

/-- NARROW_RETRY's effect. -/
def State.narrowRetry (util ms : Nat) (s : State) : State :=
  if s.hif.retryDue && s.mayNarrow && s.widthDue util ms then s.widthRequest else s

/-- Correctable errors of the link, which AER logs for PF 0 (R478). -/
def State.linkErrors (n : Nat) (s : State) : State :=
  s.iff (n != 0) (fun s => ((s.countBy (cuHIF + 12) n).raiseMs pgHIF 9).modFn 0 (fun x => { x with aerCor := x.aerCor ||| 1 }))

/-- PCIE_RECOVERY's effect: from a link that is down or resumes it is the training that brings it up; otherwise a Recovery, which
also ends the part's own width request. -/
def State.recovery (width rate errors : Nat) (s : State) : State :=
  if s.hif.perst || !s.trains width rate then s
  else
    let s := s.linkErrors errors
    if !s.flag pgHIF HIF.linkStatusDlUp then
      (((s.trained width rate).setFld pgHIF HIF.linkStatusDlUp 1).setFld pgHIF HIF.linkStatusPmState 0).raise pgHIF 0
    else
      let s := ((s.count (cuHIF + 1)).raiseMs pgHIF 2).modHif (fun h =>
        if h.narrowing then { h with narrowing := false, narrowed := !h.narrowed } else h)
      (s.setFld pgHIF HIF.linkStatusPmState 0).retrained width rate

/-- PCIE_LINK_DOWN's effect: down, or L2; a link that was up has gone down. -/
def State.pcieDown (l2 : Bool) (s : State) : State :=
  let up := s.flag pgHIF HIF.linkStatusDlUp
  let s := (s.setFld pgHIF HIF.linkStatusPmState (if l2 then 4 else 6)).setFld pgHIF HIF.linkStatusDlUp 0
  (s.modHif (fun h => { h with narrowing := false, narrowed := false, retryDue := false })).iff up (fun s =>
    (s.count cuHIF).raise pgHIF 1)

/-! The CXL root (R475, R476). -/

/-- HIF enabled in form 1: CXL_PERST# is released and the root trains and enumerates. -/
def State.cxlStart (s : State) : State :=
  if s.flag pgHIF HIF.formForm then
    (s.modHif (fun h => { h with cxlPerst := false, enumerating := true })).setFld pgHIF HIF.cxlStatusEnumResult 0
  else s

/-- The root trains and enumerates again at once while HIF is enabled. -/
def State.cxlAgain (s : State) : State := s.modHif (fun h => { h with enumerating := s.works pgHIF && !s.hif.cxlPerst })

/-- Does the CXL link train so: 32 GT/s, x4, x2 or x1 (R474)? -/
def cxlTrains (speed width : Nat) : Bool := speed == 5 && [4, 2, 1].contains width

/-- CXL_ENUM_DONE's effect: once the device's BAR is placed at HIF_CXL_MMIO its range size is read; on success its decoder covers
that capacity at HIF_CXL_HPA (R475). -/
def State.cxlEnumDone (res capacity speed width : Nat) (s : State) : State :=
  if !s.hif.enumerating || (res == 1 && !cxlTrains speed width) then s
  else
    let quad := fun (f g : Fld) => s.fld pgHIF f + s.fld pgHIF g * 2 ^ 32
    let capacity := if res = 3 then 0 else capacity
    let base := quad HIF.cxlHpaHpaLo HIF.cxlHpaHpaHi / 2 ^ 28 * 2 ^ 28
    let bar := quad HIF.cxlMmioMmioLo HIF.cxlMmioMmioHi
    let s := (s.modHif (fun h => { h with enumerating := false })).setFld pgHIF HIF.cxlStatusEnumResult res
    let s := s.iff ([1, 3, 4].contains res) (fun s =>
      (s.setFld pgHIF HIF.cxlCapCapacity capacity).modHif (fun h => { h with cxlBar := bar }))
    if res = 1 then
      let s := ((s.setFld pgHIF HIF.cxlStatusLinkUp 1).setFld pgHIF HIF.cxlStatusMemEnabled 1).setFld pgHIF
        HIF.cxlStatusHdmCommitted 1
      let s := (s.setFld pgHIF HIF.cxlStatusSpeed speed).setFld pgHIF HIF.cxlStatusWidth width
      let s := s.modHif (fun h => { h with cxlWindow := (base, capacity * 2 ^ 28) })
      ((s.raise pgHIF 10).setFld pgXTR XTR.statusCxlUp 1).showTier.linkPmJudge
    else
      let s := s.setFld pgHIF HIF.cxlStatusLinkUp 0
      ((((s.count (cuHIF + 14)).raise pgHIF 11).raise pgHIF 12).loseTier).cxlAgain

/-- HIF disabled, or reset: CXL_PERST# asserted, the CXL link down. -/
def State.cxlStop (s : State) : State :=
  if s.flag pgHIF HIF.formForm then
    s.cxlDown.modHif (fun h => { h with cxlPerst := true, enumerating := false })
  else s

/-! PERST# (R449, R450). -/

/-- PERST_ASSERT's effect. -/
def State.perstAssert (s : State) : State :=
  if s.hif.perst then s
  else ((s.modHif (fun h => { h with perst := true })).regionReset 5).settleRegion 5

/-- PERST_DEASSERT's effect: HOST_FORM sampled, the link trains. -/
def State.perstDeassert (strap : Bool) (s : State) : State :=
  if !s.hif.perst then s
  else
    let s := (s.modHif (fun h => { h with perst := false })).settleRegion 5
    (s.setFld pgHIF HIF.formForm (b2n strap)).setFld pgHIF HIF.linkStatusPmState 5

end Sys2Proof.Machine
end

