-- ==== Sys2Proof/Machine/CoreOps.lean ====
section
/-! DEFINITION. The task scheduler and the control cores (R481 to R496, R516 to R518). What a core's code does between its
writes is no command. -/

namespace Sys2Proof.Machine

/-! Cores. -/

/-- A core. -/
def State.coreRun (s : State) (c : Nat) : CoreRun := Sparse.get {} s.core.cores c
def State.modCoreRun (c : Nat) (f : CoreRun → CoreRun) (s : State) : State :=
  s.modCore (fun x => { x with cores := Sparse.put {} c (f (Sparse.get {} x.cores c)) x.cores })

/-- The half running the firmware. -/
def State.activeHalf (s : State) : Nat := s.fld pgCORE CORE.puntyActiveHalf

/-- Is half `h` held in reset? -/
def State.halfHeld (s : State) (h : Nat) : Bool := if h = 0 then s.core.held0 else s.core.held1

/-- Does core `c` execute and take tasks, its cluster's domain apart? -/
def State.coreFree (s : State) (c : Nat) : Bool :=
  decide (c < 16) && s.works pgCORE && !s.unitContained pgCORE (c + 1) && !s.halfHeld (c / 8) && !s.core.noImage

/-- Is core `c`'s cluster on (Table 16.1)? -/
def State.clusterOn (s : State) (c : Nat) : Bool := s.domOn (20 + c / 4)

/-- Does core `c` execute? -/
def State.coreUp (s : State) (c : Nat) : Bool := s.coreFree c && s.clusterOn c

/-- A trap of core `c`, which machine mode takes: its cause and address (R483, R495). -/
def State.coreTrap (c cause addr : Nat) (s : State) : State :=
  let s := s.modCoreRun c (fun x => { x with user := false })
  let s := (s.setTf pgCORE 0 c 3 7 0 cause).putTw pgCORE 0 c 4 (BitVec.ofNat 32 addr)
  ((s.putTw pgCORE 0 c 5 (BitVec.ofNat 32 (addr / 2 ^ 32))).count (cuCORE + 4 * c + 2)).raiseMs pgCORE 1

/-! A core's accesses (R481 to R483). -/

/-- The ranges of Table 15.1: boot ROM, own local SRAM, every core's local SRAM, shared SRAM, page window; base and size. -/
def coreMap : List (Nat × Nat) :=
  [(0, 0x10000), (0x08000000, 0x40000), (0x09000000, 0x400000), (0x10000000, 0x800000), (0x20000000, 0x100000)]

/-- The range of Table 15.1 in which `n` bytes from `a` lie. -/
def mapRange (a n : Nat) : Option Nat :=
  (coreMap.zipIdx.find? (fun x => decide (x.1.1 ≤ a) && decide (a + n ≤ x.1.1 + x.1.2))).map (·.2)

/-- May a core reach the range so: instructions come only from the boot ROM, its own local SRAM and shared SRAM (R482)? -/
def rangeAllows (use : CoreUse) (range : Nat) : Bool :=
  match use with
  | .fetch => range == 0 || range == 1 || range == 3
  | .load => true
  | .store => true

/-- Does a PMP entry permit a use? -/
def Pmp.allows (p : Pmp) (use : CoreUse) : Bool :=
  match use with
  | .fetch => p.exec
  | .load => p.read
  | .store => p.write

/-- Do a core's PMP entries permit a use: the first entry that covers the address decides, where it is locked or the core is in
user mode; with none, machine mode is free (PRESUMED, the RISC-V PMP that R481 names; log entry 139). -/
def CoreRun.pmpAllows (x : CoreRun) (use : CoreUse) (a : Nat) : Bool :=
  match x.pmp.find? (fun p => decide (p.base ≤ a) && decide (a < p.base + p.len)) with
  | some p => if p.locked || x.user then p.allows use else true
  | none => !x.user

/-- The cause of an access fault by its use (PRESUMED, the RISC-V causes; log entry 139). -/
def faultCause : CoreUse → Nat
  | .fetch => 1
  | .load => 5
  | .store => 7

/-- May core `c` make an access (R482)? -/
def State.coreMay (s : State) (c : Nat) (use : CoreUse) (a : Nat) : Bool :=
  (match mapRange a 1 with | some r => rangeAllows use r | none => false) && (s.coreRun c).pmpAllows use a

/-- What becomes of an access of core `c`: an access fault where it may not be made, a trap on an uncorrectable error, a count in
CORE table 0 word 7 of one corrected in place, saturating (R482, R483, R520). What the access reads or writes is the code's own. -/
def State.coreMemory (c : Nat) (what : CoreAccess) (s : State) : State :=
  match what with
  | .uncorrectable cause addr => s.coreTrap c cause addr
  | .corrected => s.putTw pgCORE 0 c 7 (BitVec.ofNat 32 (min 0xFFFFFFFF ((s.tw pgCORE 0 c 7).toNat + 1)))
  | .access use addr => if s.coreMay c use addr then s else s.coreTrap c (faultCause use) addr

/-- Clock cycles of the cores per µs, as the core clock is derated (R481, R574). -/
def State.coreMhz (s : State) : Nat := 1500 - 100 * min 2 (s.fld pgLEHR LEHR.statusCoreDerate)

/-- The cycles that core `c` has executed in the sym that has passed, counted, and the instructions retired in them, a number that
the spec leaves open (R495, R521). -/
def State.coreCycles (c : Nat) (s : State) : State :=
  let n := s.now * s.coreMhz / symPerUs - (s.now - 1) * s.coreMhz / symPerUs
  if n = 0 ∨ s.coreUp c = false then s
  else
    let s := s.countBy (cuCORE + 4 * c) n
    (s.countBy (cuCORE + 4 * c + 1) (s.freeVal (2 ^ 64))).useFree

/-! Task state (TSK tables 0 and 1). -/

def State.taskState (s : State) (k : Nat) : Nat := s.tf pgTSK 1 k 1 2 0
def State.taskPreempts (s : State) (k : Nat) : Bool := s.tb pgTSK 0 k 0 1
def State.taskPriority (s : State) (k : Nat) : Nat := s.tf pgTSK 0 k 0 4 2
def State.taskPermits (s : State) (k c : Nat) : Bool := (s.tf pgTSK 0 k 0 23 8).testBit c

/-- A task's state and core set. -/
def State.setTaskState (k v c : Nat) (s : State) : State := (s.setTf pgTSK 1 k 1 2 0 v).setTf pgTSK 1 k 1 11 8 c

/-- A task leaves the ready ones. -/
def State.unready (k : Nat) (s : State) : State := s.modTsk (fun t => { t with ready := t.ready.filter (· ≠ k) })

/-- A task returns to waiting, its flags kept; where its condition holds it becomes ready (R485). -/
def State.taskWaits (k : Nat) (s : State) : State := (s.setTaskState k 0 0).judgeTask k

/-! Flows (R491). -/

/-- The flow that task `k` holds. -/
def State.heldFlow (s : State) (k : Nat) : Option Nat := (s.core.flows.find? (fun x => x.2 == some k)).map (·.1)

/-- Does a task that became ready before task `k` name the flow that `k` names? -/
def State.flowBefore (s : State) (k : Nat) : Bool :=
  s.tb pgTSK 0 k 3 16 && (s.tsk.ready.takeWhile (· != k)).any (fun r =>
    s.tb pgTSK 0 r 3 16 && s.tf pgTSK 0 r 3 15 0 == s.tf pgTSK 0 k 3 15 0)

/-- A ready task judged against the flows held: it waits while another task holds the flow it names, and is ready again as the
first of those that wait for a free one. -/
def State.flowTurn (k : Nat) (s : State) : State :=
  let st := s.taskState k
  if st = 1 ∧ s.flowBlocked k = true then (s.setTf pgTSK 1 k 1 2 0 5).count (cuTSK + 8)
  else if st = 5 ∧ s.flowBlocked k = false ∧ s.flowBefore k = false then s.setTf pgTSK 1 k 1 2 0 1
  else s

/-- Every ready task judged against the flows held. -/
def State.flowJudge (s : State) : State := s.tsk.ready.foldl (fun s k => s.flowTurn k) s

/-- The flow that task `k` names held by it, where no other task holds it. -/
def State.holdFlow (k : Nat) (s : State) : State :=
  if s.tb pgTSK 0 k 3 16 && !s.flowBlocked k then
    (s.modCore (fun x => { x with flows := Sparse.put none (s.tf pgTSK 0 k 3 15 0) (some k) x.flows })).flowJudge
  else s

/-- Task `k` releases its flow: the first of the tasks that wait for it is ready. -/
def State.releaseFlow (k : Nat) (s : State) : State :=
  match s.heldFlow k with
  | none => s
  | some fl => (s.modCore (fun x => { x with flows := Sparse.put none fl none x.flows })).flowJudge

/-! Choice (R489, R492). -/

/-- Does the scheduler start tasks: both pages enabled, no Punty freeze (R517 step 4, R519, R522)? -/
def State.dispatching (s : State) : Bool := s.works pgTSK && s.works pgCORE && s.fld pgCORE CORE.puntyState != 4

/-- The best of some ready tasks, in the order in which they became ready: the lowest priority value, the first among
equals. -/
def State.bestTask (s : State) : List Nat → Option Nat
  | [] => none
  | k :: ks =>
    match s.bestTask ks with
    | some b => if s.taskPriority b < s.taskPriority k then some b else some k
    | none => some k

/-- The best ready task that core `c` may take, among those that `ok` takes; none whose flow another task holds (R491). -/
def State.bestFor (s : State) (c : Nat) (ok : Nat → Bool) : Option Nat :=
  s.bestTask (s.tsk.ready.filter (fun k => s.taskState k == 1 && !s.flowBlocked k && s.taskPermits k c && ok k))

/-- Does what core `x` runs leave place for task `k`: a slot for a prefetch task; for a pre-empt task nothing running, or a task
of lower priority above fewer than four pre-empted ones (R489)? -/
def State.placeOn (s : State) (x : CoreRun) (k : Nat) : Bool :=
  if s.taskPreempts k then
    match x.run with
    | none => true
    | some r => decide (x.stack.length < 4) && decide (s.taskPriority k < s.taskPriority r.task)
  else decide (x.slots.length < 2)

/-- Can a core of an awake cluster take task `k` (R492)? -/
def State.awakeCore (s : State) (k : Nat) : Bool :=
  (List.range 16).any (fun c => s.coreUp c && s.taskPermits k c && s.placeOn (s.coreRun c) k)

/-- `f` on a core whose cluster is awake; where it is not and no awake cluster has a core for the task, the scheduler wakes
the cluster and counts the wait (R492). -/
def State.onAwake (c k : Nat) (f : State → State) (s : State) : State :=
  if s.clusterOn c then f s
  else if s.awakeCore k then s
  else (s.count (cuTSK + 2)).wakeDomain (20 + c / 4) pgTSK

/-! Dispatch (R486, R489). -/

/-- Task `k` starts on core `c`: the flags snapshot, the flow, the counts, the watchdog. -/
def State.startTask (c k : Nat) (s : State) : State :=
  let snap := s.tw pgTSK 1 k 0 &&& s.tw pgTSK 0 k 1
  let s := (s.putTw pgTSK 1 k 0 (s.tw pgTSK 1 k 0 &&& ~~~ s.tw pgTSK 0 k 1)).unready k
  let s := ((s.setTaskState k 3 c).holdFlow k).putTw pgTSK 1 k 2 (BitVec.ofNat 32 (min 0xFFFFFFFF
    ((s.tw pgTSK 1 k 2).toNat + 1)))
  (s.modCoreRun c (fun x => { x with run := some ⟨k, snap, s.now⟩, kick := s.now })).count cuTSK

/-- A slot of core `c` given up. -/
def State.emptySlot (c k : Nat) (s : State) : State :=
  s.modCoreRun c (fun x => { x with slots := x.slots.filter (fun y => y.task ≠ k) })

/-- TASK_DISPATCH's effect on an idle core: one of its slotted tasks, which returns to waiting where its condition no longer
holds (R490), or the best ready pre-empt task. A prefetch task reaches a core through a slot alone (R489). -/
def State.taskDispatch (c k : Nat) (s : State) : State :=
  let x := s.coreRun c
  if !s.dispatching || !s.coreFree c || x.run.isSome then s
  else if x.slots.any (fun y => y.task == k) then
    if !s.clusterOn c then s
    else if !s.taskWaitHolds k || !s.tb pgTSK 0 k 0 0 then (s.emptySlot c k).taskWaits k
    else if s.flowBlocked k then s
    else (s.emptySlot c k).startTask c k
  else if s.bestFor c s.taskPreempts == some k then
    s.onAwake c k (State.startTask c k)
  else s

/-- The core whose slot the scheduler fills for task `k`: an idle one first, then the lowest number. -/
def State.slotChoice (s : State) (k : Nat) : Option Nat :=
  let open_ := (List.range 16).filter (fun c => s.coreFree c && s.taskPermits k c && decide ((s.coreRun c).slots.length < 2) &&
    (s.clusterOn c || !s.awakeCore k))
  match open_.find? (fun c => (s.coreRun c).run.isNone && (s.coreRun c).slots.isEmpty) with
  | some c => some c
  | none => open_.head?

/-- The bytes of a slot's area: the 64-byte descriptor, whose first 16 bytes are the words of TSK table 0, lowest byte first, and
whose others the spec does not give; then 256 bytes at the context address (log entry 69). -/
def slotBytes : Nat := 320
def State.slotImage (s : State) (k : Nat) : Bytes :=
  (s.entry pgTSK 0 k 4).flatMap (fun w => natLE 4 w.toNat) ++
    (List.range 48).map (fun i => BitVec.ofNat 8 (Config.free s.freeIx / 256 ^ i)) ++
    s.sramBytes (s.tf pgTSK 0 k 3 31 23 * 16384) 256

/-- The first slot area of a core that no filled slot has. -/
def CoreRun.freeArea (x : CoreRun) : Nat := if x.slots.any (fun y => y.area == 0) then 1 else 0

/-- Where slot area `a` begins in local SRAM. -/
def slotPlace (a : Nat) : Nat := Config.slotArea a % (0x40000 - slotBytes)

/-- Bytes written to core `c`'s local SRAM. -/
def State.putLocal (c a : Nat) (bs : Bytes) (s : State) : State :=
  s.modCore (fun x => { x with lsram := (List.range bs.length).foldl (fun m j =>
    Sparse.put 0#8 (c * 0x40000 + a + j) (bs.getD j 0#8) m) x.lsram })

/-- SLOT_PREFETCH's effect. -/
def State.slotPrefetch (c k : Nat) (s : State) : State :=
  if s.dispatching && s.bestFor c (fun r => !s.taskPreempts r) == some k && s.slotChoice k == some c then
    s.onAwake c k (fun s =>
      let area := (s.coreRun c).freeArea
      let s := (s.putLocal c (slotPlace area) (s.slotImage k)).useFree
      ((s.unready k).setTaskState k 2 c).modCoreRun c (fun x => { x with slots := x.slots ++ [⟨k, area⟩] }))
  else s

/-- TASK_PREEMPT's effect. -/
def State.taskPreempt (c k : Nat) (s : State) : State :=
  let x := s.coreRun c
  match x.run with
  | none => s
  | some r =>
    if s.dispatching && s.coreUp c && decide (x.stack.length < 4) && decide (s.taskPriority k < s.taskPriority r.task) &&
        s.bestFor c s.taskPreempts == some k then
      let s := (s.setTaskState r.task 4 c).modCoreRun c (fun x => { x with stack := r :: x.stack })
      ((s.startTask c k).count (cuTSK + 1)).raiseMs pgTSK 1
    else s

/-- A task on core `c` ends: its flow released, the µs of its run shown; it waits, or is ready again. -/
def State.endTask (r : TaskRun) (s : State) : State :=
  let s := (s.releaseFlow r.task).putTw pgTSK 1 r.task 3 (BitVec.ofNat 32 (min 0xFFFFFFFF ((s.now - r.since) / symPerUs)))
  s.taskWaits r.task

/-- TASK_END's effect: the running task ends; the task it pre-empted resumes. -/
def State.taskEnd (c : Nat) (s : State) : State :=
  match s.coreUp c, (s.coreRun c).run with
  | true, some r =>
    let s := s.modCoreRun c (fun x => { x with run := x.stack.head?, stack := x.stack.tail })
    let s := match (s.coreRun c).run with
      | some b => s.setTaskState b.task 3 c
      | none => s
    s.endTask r
  | _, _ => s

/-- TASK_FLOW's effect: held 0 releases the running task's flow; naming another flow while one is held is ignored and traps.
What the trap's cause and address are is left open. -/
def State.taskFlow (c flow : Nat) (held : Bool) (s : State) : State :=
  match s.coreUp c, (s.coreRun c).run with
  | true, some r =>
    if !held then s.releaseFlow r.task
    else match s.heldFlow r.task with
      | some fl =>
        if fl = flow then s
        else
          let cause := s.freeVal 256
          let s := s.useFree
          (s.coreTrap c cause (s.freeVal (2 ^ 64))).useFree
      | none => s
  | _, _ => s

/-- When timer `t` reaches zero. -/
def State.timerEnd (s : State) (t : Nat) : Nat := Sparse.get 0 s.tsk.timers t + s.tf pgTSK 3 t 0 23 0 * symPerUs

/-- TSK_TIMER_EXPIRE's effect: an enabled timer whose period has counted down raises its source; a periodic one has reloaded at
that moment, another is disabled. -/
def State.timerExpire (t : Nat) (s : State) : State :=
  if s.alive pgTSK && s.tb pgTSK 3 t 0 25 && decide (s.timerEnd t ≤ s.now) then
    let next := s.timerEnd t
    let s := (s.count (cuTSK + 7)).iff (!s.tb pgTSK 3 t 0 24) (State.setTf pgTSK 3 t 0 25 25 0)
    (s.modTsk (fun x => { x with timers := Sparse.put 0 t next x.timers })).routeEvent (1568 + t)
  else s

/-- DISPATCH_LATE's effect: a task that has been ready for late_us, once (R493). -/
def State.dispatchLate (k : Nat) (s : State) : State :=
  let us := s.fld pgTSK TSK.cfgLateUs
  if us ≠ 0 ∧ s.tsk.ready.contains k = true ∧ s.tsk.late.contains k = false ∧
      Sparse.get 0 s.tsk.since k + us * symPerUs ≤ s.now then
    ((s.modTsk (fun x => { x with late := k :: x.late })).count (cuTSK + 6)).raiseMs pgTSK 0
  else s

/-- TSK_SET's effect (Table 15.12). -/
def State.tskSet (task flag : Nat) (s : State) : State :=
  if s.tb pgTSK 0 task 0 6 then (s.setTaskFlag task flag).count (cuTSK + 4)
  else (s.count (cuTSK + 5)).ignored pgTSK 0x038 1

/-! The Punty transfer (R516 to R518). -/

def State.puntyState (s : State) : Nat := s.fld pgCORE CORE.puntyState
def State.setPunty (v : Nat) (s : State) : State := s.setFld pgCORE CORE.puntyState v

/-- A half of the cores held in reset: its cores lose what they run, and its slotted tasks wait again. -/
def State.holdHalf (h : Nat) (s : State) : State :=
  let s := (List.range 8).foldl (fun s i =>
    let c := 8 * h + i
    let x := s.coreRun c
    let s := s.modCoreRun c (fun _ => {})
    let s := (x.run.toList ++ x.stack).foldl (fun s r => s.endTask r) s
    x.slots.foldl (fun s y => s.taskWaits y.task) s) s
  s.modCore (fun x => if h = 0 then { x with held0 := true } else { x with held1 := true })

/-- A transfer in progress aborts: 1 freeze limit, 2 supply warning, 3 watchdog, 4 command (R518). -/
def State.puntyAbort (cause : Nat) (s : State) : State :=
  if 1 ≤ s.puntyState ∧ s.puntyState ≤ 4 then
    let s := ((s.setPunty 6).setFld pgCORE CORE.puntyAbortCause cause).holdHalf (1 - s.activeHalf)
    ((s.modCore (fun x => { x with parison := none })).count (cuCORE1 + 8)).raise pgCORE 4
  else s

/-- Does any core of a half run or have pre-empted a task; hold a slotted one? -/
def State.halfRuns (s : State) (h : Nat) : Bool :=
  (List.range 8).any (fun i => (s.coreRun (8 * h + i)).run.isSome || !(s.coreRun (8 * h + i)).stack.isEmpty)
def State.halfSlots (s : State) (h : Nat) : Bool :=
  (List.range 8).any (fun i => !(s.coreRun (8 * h + i)).slots.isEmpty)

/-- The words of TSK tables 0 and 2 exchanged with the other bank's (R516). -/
def State.swapBanks (s : State) : State :=
  let at_ := fun (t : Nat) (k : Nat) => k / 0x800000 == pgTSK * 8 + t
  let words := s.tables.filter (fun x => at_ 0 x.1)
  let routes := s.tables.filter (fun x => at_ 2 x.1)
  let c := s.core
  let s := (s.resetTable pgTSK 0).resetTable pgTSK 2
  let s := c.otherTasks.foldl (fun s x => s.putTw pgTSK 0 (x.1 / 4) (x.1 % 4) x.2) s
  let s := c.otherRoutes.foldl (fun s x => s.putTw pgTSK 2 x.1 0 x.2) s
  s.modCore (fun x => { x with
    otherTasks := words.foldl (fun m w => Sparse.put 0 (w.1 / 32 % 0x40000 * 4 + w.1 % 32) w.2 m) []
    otherRoutes := routes.foldl (fun m w => Sparse.put 0 (w.1 / 32 % 0x40000) w.2 m) [] })

/-- Every task that has a state or a flag judged against its descriptor, and the ready ones against the flows. -/
def State.judgeTasks (s : State) : State := ((s.tblEntries pgTSK 1).foldl (fun s k => s.judgeTask k) s).flowJudge

/-- Half `h` runs the firmware: where that changes, its bank of TSK tables 0 and 2 serves (R516). -/
def State.setHalf (h : Nat) (s : State) : State :=
  if s.activeHalf = h then s else ((s.swapBanks).setFld pgCORE CORE.puntyActiveHalf h).judgeTasks

/-- PUNTY_ARM's effect: `handover` is the address named (R517 steps 1 and 5). -/
def State.puntyArm (handover : Nat) (s : State) : State :=
  if s.puntyState = 0 ∨ 5 ≤ s.puntyState then
    (((s.setPunty 1).setFld pgCORE CORE.puntyAbortCause 0).setFld pgCORE CORE.handoverHandover handover).modCore (fun x =>
      { x with parison := none })
  else s

/-- PUNTY_READY's effect: the loading half is there. -/
def State.puntyReady (s : State) : State :=
  if s.puntyState = 2 ∧ s.core.parison.isSome = true then (s.setPunty 3).raise pgCORE 2 else s

/-- PUNTY_COMMIT's effect. -/
def State.puntyCommit (s : State) : State := if s.puntyState = 3 then s.setPunty 4 else s

/-- PUNTY_FLIP's effect. -/
def State.puntyFlip (s : State) : State :=
  let old := s.activeHalf
  if s.puntyState = 4 ∧ s.halfRuns old = false then
    let s := s.holdHalf old
    let s := (s.swapBanks.setFld pgCORE CORE.puntyActiveHalf (1 - old)).setPunty 5
    let s := match s.core.parison with
      | some (slot, version) =>
        ((s.setFld pgFLSH FLSH.bootSlot slot).setFld pgFLSH FLSH.imageVersion version).modCore (fun x => { x with parison := none })
      | none => s
    ((s.judgeTasks).count (cuCORE1 + 7)).raise pgCORE 3
  else s

/-! The watchdog (R496). -/

/-- Core `c` contained: what it runs ends, what its slots hold waits again. -/
def State.containCore (c : Nat) (s : State) : State :=
  let x := s.coreRun c
  let s := (s.noteContain pgCORE (c + 1)).modCoreRun c (fun _ => {})
  let s := (x.run.toList ++ x.stack).foldl (fun s r => s.endTask r) s
  x.slots.foldl (fun s y => s.taskWaits y.task) s

/-- WATCHDOG_EXPIRE's effect: the watchdog of a core that runs a task has reached its timeout. -/
def State.watchdogExpire (c : Nat) (s : State) : State :=
  let ms := s.fld pgCORE CORE.wdogTimeout
  if s.coreUp c && (s.coreRun c).run.isSome && ms != 0 && decide ((s.coreRun c).kick + ms * symPerMs ≤ s.now) then
    let s := ((s.containCore c).count (cuCORE + 4 * c + 3)).raise pgCORE 0
    s.puntyAbort 3
  else s

/-- CORE_RELEASE's effect: the contained cores of the mask return to service. -/
def State.coreRelease (mask : Nat) (s : State) : State :=
  (s.modRel (fun r => { r with contained := r.contained.filter (fun x =>
    !(decide (pgCORE * 65536 < x.1) && decide (x.1 ≤ pgCORE * 65536 + 16) && mask.testBit (x.1 - pgCORE * 65536 - 1))) })).freeLast

/-! The core transmit ring (R494). -/

/-- An entry of core ring 0. -/
def State.crTxEntry (s : State) (i : Nat) : TxEntry :=
  let e := txEntry (s.crEntry 0 i)
  { e with addr := e.addr % 2 ^ 23 }

/-- A completion on ring 0, the ring past its entries, source 1,587. -/
def State.crTxEnd (es : List TxEntry) (status sum : Nat) (s : State) : State :=
  let s := s.crComplete 0 (txCompletion es (s.crHead 0) status 0 sum)
  ((s.iff (status != 0) (State.count (cuCORE1 + 1))).crAdvance 0 es.length).routeEvent 1587

/-- A frame of ring 0 offered to the classifier on behalf of the tenant that its first entry names. -/
def State.crSend (es : List TxEntry) (s : State) : State :=
  let tenant := ((s.crEntry 0 0).getD 14 0#8).toNat
  let data := es.flatMap (fun e => s.sramBytes e.addr e.len)
  let bytes := data ++ List.replicate (60 - data.length) 0#8
  let id := s.sto.nextId
  let tag := (es.map TxEntry.tag).headD 0
  let s := s.modSto (fun x => { x with nextId := x.nextId + 1 })
  let y := s.admitStart { id := id, srcKind := 2, srcNum := tenant, tenant := tenant, rate := 0, bytes := bytes,
                          arrived := bytes.length } 0
  if !y.2 then y.1.crTxEnd es 5 data.length
  else
    let s := y.1.modFrame id (fun f =>
      { f with ended := true, tag := some tag, endWith := if f.cells.length < cellsOf bytes.length then 2 else 0 })
    let x : InFrame := { id := id, srcKind := 2, srcNum := tenant, ring := 32, tenant := tenant, service := 0, bytes := bytes,
                         length := bytes.length + 4, tag := some tag }
    let s := (s.modCls (fun c => { c with handed := c.handed ++ [x] })).count cuCORE1
    s.crTxEnd es 0 data.length

/-- The frames of ring 0 sent, at most `n`. -/
def State.crSendAll : Nat → State → State
  | 0, s => s
  | n + 1, s =>
    if !s.crOn 0 then s
    else match parseTx ((List.range (min 17 (s.crPosted 0))).map s.crTxEntry) with
      | .more => s
      | .bad es status => State.crSendAll n (s.crTxEnd es status 0)
      | .frame es =>
        if txLength es < 14 ∨ s.fld pgSWC SWC.mtuMtu < txLength es + 4 then State.crSendAll n (s.crTxEnd es 3 0)
        else State.crSendAll n (s.crSend es)

/-- CORE_RING_TAIL's effect: a ring's tail in CORE table 1; ring 0's frames are sent. -/
def State.coreRingTail (k tail : Nat) (s : State) : State :=
  if s.dark pgCORE then s.darkAccess pgCORE true
  else
    let s := s.setTf pgCORE 1 k 2 15 0 tail
    if k = 0 ∧ s.works pgCORE = true then State.crSendAll (s.crPosted 0) s
    else if k = 1 then
      (match s.downHead coreQueue with
       | some c => s.iff (s.crRoom 1 c.length) (State.setStarved coreQueue false)
       | none => s)
    else s

/-! Time (R63, R395, R495). -/

/-- The model's tick: one sym of the timeline, in which the cores run on, and of the counter while it is valid (log entry 1). The
tick at which the counter reaches an armed snapshot's target takes what the counters are captured as: the events counted before
it (R63). -/
def State.tick (s : State) : State :=
  let s := (List.range 16).foldl (fun s c => s.coreCycles c) (s.modNow (· + 1))
  if s.timeValid then
    let before := s.targetReached
    let s := s.timeMove (s.time.val + symUnits)
    s.iff (!before && s.targetReached) (State.snapReach false (s.snap.target * unitsPerNs))
  else s

end Sys2Proof.Machine
end

