-- ==== Sys2Proof/Machine/FlshOps.lean ====
section
/-! DEFINITION. The flash controller, the flash's contents and the erase journal (R497 to R512), image pages (R508). -/

namespace Sys2Proof.Machine

/-! The flash (R497, R498). -/

/-- Bytes of a sector, and of a slot; the base of slot 0, slot 1, and of the staging region (Table 15.5). -/
def sectorSize : Nat := 65536
def slotSize : Nat := 0x1800000
def slotBase (n : Nat) : Nat := 0x1800000 * n

/-- A byte of the flash: all ones where erased, a free value where the sector's contents are not known. -/
def State.flashByte (s : State) (a : Nat) : Byte :=
  match Sparse.get none s.flsh.mem a with
  | some b => b
  | none =>
    match Sparse.get 0 s.flsh.unknown (a / sectorSize) with
    | 0 => 0xFF#8
    | n + 1 => BitVec.ofNat 8 (Config.free n / 256 ^ (a % sectorSize))

/-- `n` bytes of the flash. -/
def State.flashBytes (s : State) (a n : Nat) : Bytes := (List.range n).map (fun i => s.flashByte (a + i))

/-- A byte programmed: bits go from 1 to 0. -/
def State.flashProgram : Nat → Bytes → State → State
  | _, [], s => s
  | a, b :: bs, s =>
    let v := s.flashByte a &&& b
    let erased := v == 0xFF#8 && Sparse.get 0 s.flsh.unknown (a / sectorSize) == 0
    State.flashProgram (a + 1) bs (s.modFlsh (fun f => { f with
      mem := Sparse.put none a (if erased then none else some v) f.mem }))

/-- A sector's contents no longer known: an erase has started. -/
def State.sectorUnknown (sec : Nat) (s : State) : State :=
  (s.modFlsh (fun f => { f with
    mem := f.mem.filter (fun x => x.1 / sectorSize ≠ sec), unknown := Sparse.put 0 sec (s.freeIx + 1) f.unknown })).useFree

/-- A sector erased. -/
def State.sectorErased (sec : Nat) (s : State) : State :=
  s.modFlsh (fun f => { f with
    mem := f.mem.filter (fun x => x.1 / sectorSize ≠ sec), unknown := Sparse.put 0 sec 0 f.unknown })

/-! The erase journal (R510, R511). -/

/-- Word `w` of journal entry `e`. -/
def State.journalWord (s : State) (e w : Nat) : Word := Sparse.get erasedWord s.flsh.journal (4 * e + w)
def State.putJournal (e w : Nat) (v : Word) (s : State) : State :=
  s.modFlsh (fun f => { f with journal := Sparse.put erasedWord (4 * e + w) v f.journal })

/-- Address and sequence of an entry; does its CRC fit; is it open; is it erased? -/
def State.journalAddr (s : State) (e : Nat) : Nat := (s.journalWord e 0).toNat
def State.journalSeq (s : State) (e : Nat) : Nat := (s.journalWord e 1).toNat / 65536
def State.journalFits (s : State) (e : Nat) : Bool :=
  crc16 (natBE 4 (s.journalAddr e) ++ natBE 2 (s.journalSeq e)) == (s.journalWord e 1).toNat % 65536
def State.journalOpen (s : State) (e : Nat) : Bool := s.journalFits e && s.journalWord e 3 != 0#32
def State.journalErased (s : State) (e : Nat) : Bool := (List.range 4).all (fun w => s.journalWord e w == erasedWord)

/-- The open entries. -/
def State.openEntries (s : State) : List Nat := (List.range 60).filter s.journalOpen

/-- The latest of some entries by sequence number, which runs modulo 2^16. -/
def State.latestEntry (s : State) : List Nat → Option Nat
  | [] => none
  | e :: es =>
    match s.latestEntry es with
    | some l => if (s.journalSeq e + 65536 - s.journalSeq l) % 65536 < 32768 then some e else some l
    | none => some e

/-- The entry the next erase writes: the first erased one of the half in use; with none, the first of the other half, which is
erased for it where none of its entries is open. -/
def State.journalSlot (s : State) : Option Nat × Bool :=
  let half := match s.latestEntry ((List.range 60).filter s.journalFits) with
    | some e => e / 30
    | none => 0
  let of_ := fun (h : Nat) => (List.range 30).map (· + 30 * h)
  match (of_ half).find? s.journalErased with
  | some e => (some e, false)
  | none => if (of_ (1 - half)).any s.journalOpen then (none, false) else (some (30 * (1 - half)), true)

/-- An open entry written for a sector's address, where the journal has a place. -/
def State.journalWrite (addr : Nat) (s : State) : Option State :=
  let seq := match s.latestEntry ((List.range 60).filter s.journalFits) with
    | some e => (s.journalSeq e + 1) % 65536
    | none => 0
  match s.journalSlot with
  | (none, _) => none
  | (some e, wipe) =>
    let h := e / 30
    let s := s.iff wipe (fun s => s.modFlsh (fun f => { f with journal := f.journal.filter (fun x => x.1 / 120 ≠ h) }))
    let crc := crc16 (natBE 4 addr ++ natBE 2 seq)
    some (((s.putJournal e 0 (BitVec.ofNat 32 addr)).putJournal e 1 (BitVec.ofNat 32 (seq * 65536 + crc))).count (cuFLSH + 9))

/-- The latest open entry of an address closed. -/
def State.journalClose (addr : Nat) (s : State) : State :=
  match s.latestEntry (s.openEntries.filter (fun e => s.journalAddr e == addr)) with
  | some e => s.putJournal e 3 0#32
  | none => s

/-! Commands (R499, R500). -/

/-- A window's last_result. -/
def State.flashResult (s : State) : Window → Nat
  | .host => s.flsh.result0
  | .core => s.flsh.result1
def State.setFlashResult (w : Window) (v : Nat) (s : State) : State :=
  s.modFlsh (fun f => match w with
    | .host => { f with result0 := v }
    | .core => { f with result1 := v })

/-- Is a window's command in progress, or waiting? -/
def State.flashBusy (s : State) (w : Window) : Bool :=
  s.flsh.waiting.any (fun c => c.win == w) || s.flsh.cur.any (fun c => c.win == w) || s.flsh.erase.any (fun c => c.win == w)

/-- The register page that holds a window's command registers. -/
def flashPage : Window → Nat
  | .host => pgFLSH
  | .core => corePage pgFLSH

/-- A command ends with a result: 1 done, 2 flash error, 3 blank check failed, 4 refused by the VKEEP warning, 5 page hash,
6 page tag (Tables 15.3 and 15.14). -/
def State.flashEnd (c : FlashCmd) (result : Nat) (s : State) : State :=
  let s := (s.setFlashResult c.win result).raise pgFLSH (if result = 1 then 0 else 1)
  let s := if c.op = 4 then s.routeEvent 1597 else s.iff (c.win == .core) (State.routeEvent 1596)
  s.iff (result == 2 || result == 3) (State.routeEvent 1598)

/-- The command that the controller takes next: page loads, then the core window's, then the host window's (R499). While an
erase is in progress only reads and page loads are served. -/
def State.flashPick (s : State) : Option FlashCmd :=
  let ok := s.flsh.waiting.filter (fun c => s.flsh.erase.isNone || c.op == 1 || c.op == 4)
  match ok.find? (fun c => c.op == 4) with
  | some c => some c
  | none =>
    match ok.find? (fun c => c.win == .core) with
    | some c => some c
    | none => ok.head?

/-- An erase starts: its entry written, or refused (R511 steps 1 and 2). -/
def State.eraseStart (c : FlashCmd) (s : State) : State :=
  let addr := c.addr / sectorSize * sectorSize
  if s.flag pgSUP SUP.statusVkeepWarning then (s.count (cuFLSH + 10)).flashEnd c 4
  else match s.journalWrite addr with
    | none => s.flashEnd c 2
    | some s => (s.modFlsh (fun f => { f with erase := some c, suspended := false })).sectorUnknown (addr / sectorSize)

/-- The controller takes waiting commands while it is free, at most `n`. -/
def State.flashNext : Nat → State → State
  | 0, s => s
  | n + 1, s =>
    if s.flsh.cur.isSome then s
    else match s.flashPick with
      | none => s.modFlsh (fun f => { f with suspended := false })
      | some c =>
        let s := s.modFlsh (fun f => { f with waiting := f.waiting.erase c })
        if c.op = 3 then State.flashNext n (s.eraseStart c)
        else
          let s := s.iff (s.flsh.erase.isSome && !s.flsh.suspended) (State.count (cuFLSH + 3))
          s.modFlsh (fun f => { f with cur := some c, suspended := f.erase.isSome })

/-- Bytes of the flash that are used (R497). -/
def flashSize : Nat := 0x08000000

/-- Does the window have leave for a command: the core window for every one within the flash's used capacity (R497; log entry
51), the host window for an erase, or a program from the staging buffer, within the staging region (R500)? -/
def flashAllowed (c : FlashCmd) : Bool :=
  match c.win with
  | .core => c.op == 4 || (decide (c.addr < flashSize) && (c.op == 3 || decide (c.addr + c.len ≤ flashSize)))
  | .host => decide (0x03000000 ≤ c.addr) &&
      ((c.op == 3 && decide (c.addr < 0x04800000)) || (c.op == 2 && c.fromStage && decide (c.addr + c.len ≤ 0x04800000)))

/-- FLSH_CMD written with an operation of 1 to 4. -/
def State.flashCommand (w : Window) (op : Nat) (fromStage : Bool) (s : State) : State :=
  let p := flashPage w
  let len := s.fld p FLSH.lenLen
  let len := if op = 2 then (if fromStage then min 4096 len else len) / 256 * 256 else len
  let c : FlashCmd := { win := w, op := op, fromStage := fromStage, addr := s.fld p FLSH.addrAddr, len := len,
                        sram := s.fld p FLSH.sramSram }
  if !s.works pgFLSH then s
  else if s.flashBusy w then s.ignored pgFLSH 0x038 1
  else if !flashAllowed c then ((s.iff (w == .host) (State.count (cuFLSH + 11))).setFlashResult w 7).ignored pgFLSH 0x038 1
  else State.flashNext 3 (s.modFlsh (fun f => { f with waiting := f.waiting ++ [c] }))

/-! Completions. -/

/-- The image key, where the keystore holds one (R375, R378). -/
def State.imageKey (s : State) : Option Bytes := if s.kstActive.isSome then some (s.kstField 0x480 32) else none

/-- A record's ciphertext decrypted: its first 32 bytes authenticate it (Table 15.7). -/
def State.openRecord (s : State) (r : Bytes) : Option Bytes :=
  let n := fieldAt r 4 4
  match s.imageKey with
  | some key => gcmOpen key ((r.drop 8).take 12) (r.take 32) ((r.drop 32).take n) ((r.drop (32 + n)).take 16)
  | none => none

/-- The page directory of the running image. -/
def State.pageDir (s : State) : Bytes := if s.activeHalf = 0 then s.core.dir0 else s.core.dir1

/-- A page load's data is there (R508): checked against the directory, decrypted, put at its destination in shared SRAM. -/
def State.pageLoaded (c : FlashCmd) (s : State) : State :=
  let d := (s.pageDir.drop (64 * c.addr)).take 64
  let n := fieldAt d 4 4
  let r := s.flashBytes (slotBase (s.fld pgFLSH FLSH.bootSlot) + fieldAt d 0 4) n
  let s := (s.count (cuFLSH + 4)).countBy (cuFLSH + 12) n
  if d.length < 64 ∨ sha384 r ≠ (d.drop 8).take 48 then
    ((s.count (cuFLSH + 5)).raise pgFLSH 2).flashEnd c 5
  else match s.openRecord r with
    | none => ((s.count (cuFLSH + 6)).raise pgFLSH 2).flashEnd c 6
    | some pt => (s.putSram c.sram pt).flashEnd c 1

/-- The bytes of the staging buffer of a window (FLSH table 1). -/
def State.stageBytes (s : State) (w : Window) (n : Nat) : Bytes :=
  bytesBE ((List.range (n / 4)).map (fun i => s.tw (flashPage w) 1 i 0))

/-- FLASH_OP_DONE's effect: the read, program or page load in progress completes; a suspended erase resumes where nothing
else waits to be read. -/
def State.flashOpDone (ok : Bool) (s : State) : State :=
  match s.flsh.cur with
  | none => s
  | some c =>
    let s := s.modFlsh (fun f => { f with cur := none })
    let s := if !ok then s.flashEnd c 2
      else if c.op = 1 then
        (((s.putSram c.sram (s.flashBytes c.addr c.len)).count cuFLSH).countBy (cuFLSH + 12) c.len).flashEnd c 1
      else if c.op = 2 then
        let bs := if c.fromStage then s.stageBytes c.win c.len else s.sramBytes c.sram c.len
        (((State.flashProgram c.addr bs s).count (cuFLSH + 1)).countBy (cuFLSH + 13) c.len).flashEnd c 1
      else s.pageLoaded c
    State.flashNext 3 s

/-- FLASH_ERASE_DONE's effect: the sector reads all ones and its entry is closed, or the blank check fails (R511). -/
def State.flashEraseDone (blank : Bool) (s : State) : State :=
  match s.flsh.erase with
  | none => s
  | some c =>
    if s.flsh.suspended then s
    else
      let addr := c.addr / sectorSize * sectorSize
      let s := (s.modFlsh (fun f => { f with erase := none })).count (cuFLSH + 2)
      let s := if blank then ((s.sectorErased (addr / sectorSize)).journalClose addr).flashEnd c 1 else s.flashEnd c 3
      State.flashNext 3 s

/-- A soft reset stops any operation at once (R525). -/
def State.flashStop (s : State) : State :=
  s.modFlsh (fun f => { f with waiting := [], cur := none, erase := none, suspended := false, result0 := 0, result1 := 0 })

/-! Boot (R501 to R507, R512). -/

/-- An open entry's sector erased by the ROM: the suspended erase resumed, or a new one, which the VKEEP warning refuses. Where the
blank check fails the entry stays open, and what the sector holds is a free value (R511, R512). -/
def State.recoverEntry (resume bad : Bool) (e : Nat) (s : State) : State :=
  let sec := s.journalAddr e / sectorSize
  if !resume && s.flag pgSUP SUP.statusVkeepWarning then (s.count (cuFLSH + 10)).setFlashResult .core 4
  else
    let s := s.count (cuFLSH + (if resume then 7 else 8))
    if bad then (s.sectorUnknown sec).setFlashResult .core 3
    else ((s.sectorErased sec).putJournal e 3 0#32).setFlashResult .core 1

/-- JOURNAL_RECOVER: a suspended erase is resumed as that of the latest open entry, every other open entry is re-erased
(R512); `bad` are the entries whose blank check fails. -/
def State.journalRecover (suspended : Bool) (bad : List Nat) (s : State) : State :=
  let es := s.openEntries
  let top := s.latestEntry es
  let s := es.foldl (fun s e => s.recoverEntry (suspended && top == some e) (bad.contains e) e) s
  s.iff (!es.isEmpty) (State.raise pgFLSH 3)

/-- Has a slot no sector whose journal entry is open: such a slot is not read as image data (R512 step 7). -/
def State.slotReadable (s : State) (slot : Nat) : Bool :=
  s.openEntries.all (fun e => decide (s.journalAddr e + sectorSize ≤ slotBase slot) ||
    decide (slotBase slot + slotSize ≤ s.journalAddr e))

/-- A slot's manifest, and whether it is valid (R501, R502). -/
def State.manifest (s : State) (slot : Nat) : Bytes := s.flashBytes (slotBase slot) 320
def State.manifestValid (s : State) (slot : Nat) : Bool :=
  if s.slotReadable slot = false then false
  else if s.flashBytes (slotBase slot) 6 ≠ natBE 4 0x54564D46 ++ natBE 2 1 then false
  else
    let m := s.manifest slot
    let q := (m.drop 120).take 97
    s.kstActive.isSome && sha384 q == s.kstField 0x4A0 48 && ecdsaVerify (readPoint q) (sha384 (m.take 224)) (m.drop 224)

/-- A range loaded, joined with those of the same mask that it touches. -/
def addLoaded (r : Loaded) : List Loaded → List Loaded
  | [] => [r]
  | y :: ys =>
    if y.mask = r.mask ∧ y.addr ≤ r.addr + r.len ∧ r.addr ≤ y.addr + y.len then
      let lo := min r.addr y.addr
      addLoaded ⟨r.mask, lo, max (r.addr + r.len) (y.addr + y.len) - lo⟩ ys
    else y :: addLoaded r ys

/-- A record's plaintext written to its destination by the range of Table 15.1 that holds it: the own local SRAM of the mask's
cores of the half, a core's local SRAM through its window, or shared SRAM; the boot ROM and the page window take nothing (log
entry 72). `none` where no range holds it (R503, R507). -/
def State.placeRecord (half mask addr : Nat) (bs : Bytes) (s : State) : Option State :=
  let noted := fun (s : State) => s.modCore (fun c => { c with loaded := addLoaded ⟨mask, addr, bs.length⟩ c.loaded })
  match mapRange addr bs.length with
  | some 1 => some (noted ((List.range 8).foldl (fun s i =>
      s.iff (mask.testBit i) (State.putLocal (8 * half + i) (addr - 0x08000000) bs)) s))
  | some 2 => some (noted (s.putLocal 0 (addr - 0x09000000) bs))
  | some 3 => some (noted (s.putSram (addr - 0x10000000) bs))
  | some _ => some s
  | none => none

/-- `n` boot records loaded from an offset, the first with a given hash; 0, or the result that abandons the slot (R507). -/
def State.loadRecords (half base : Nat) : Nat → Nat → Bytes → State → State × Nat
  | 0, _, _, s => (s, 0)
  | n + 1, off, hash, s =>
    let p := beNat (s.flashBytes (base + off + 4) 4)
    if p < 16 ∨ 262144 < p ∨ slotSize < off + 96 + p then (s, 2)
    else
      let r := s.flashBytes (base + off) (96 + p)
      if sha384 r ≠ hash then (s, 2)
      else match s.openRecord r with
        | none => (s, 3)
        | some pt =>
          match s.placeRecord half (fieldAt r 20 2) (fieldAt r 0 4) pt with
          | none => (s, 4)
          | some s => State.loadRecords half base n ((off + 96 + p + 63) / 64 * 64) (r.drop (48 + p)) s

/-- Where a half's page directory has its place in shared SRAM (R507 step 5). -/
def dirPlace (half : Nat) : Nat := Config.dirPlace half % (0x800000 - 0x40000)

/-- The page directory of a half: copied to its place in shared SRAM, and as page loads find it in the SRAM that is locked for
them (R505, R507, R508). -/
def State.putDir (half : Nat) (dir : Bytes) (s : State) : State :=
  (s.putSram (dirPlace half) dir).modCore (fun c => if half = 0 then { c with dir0 := dir } else { c with dir1 := dir })

/-- A slot loaded for a half: its boot records, then its page directory. -/
def State.loadSlot (half slot : Nat) (s : State) : State × Nat :=
  let s := s.modCore (fun c => { c with loaded := [] })
  let m := s.manifest slot
  let n := fieldAt m 12 2
  let pages := fieldAt m 14 2
  if n = 0 ∨ 4096 < n ∨ 4096 < pages then (s, 2)
  else
    let x := State.loadRecords half (slotBase slot) n 0x1000 ((m.drop 24).take 48) s
    if x.2 ≠ 0 then x
    else
      let dir := x.1.flashBytes (slotBase slot + fieldAt m 20 4) (64 * pages)
      if sha384 dir ≠ (m.drop 72).take 48 then (x.1, 2)
      else (x.1.putDir half dir, 0)

/-- A slot loaded, or abandoned with its result (R507 step 4). -/
def State.tryLoad (half slot : Nat) (s : State) : State × Bool :=
  let x := s.loadSlot half slot
  if x.2 = 0 then (x.1, true)
  else (((x.1.setFld pgFLSH FLSH.bootResult x.2).count (cuFLSH + 14)).raise pgFLSH 5, false)

/-- image_version of a slot. -/
def State.slotVersion (s : State) (slot : Nat) : Nat := beNat (s.flashBytes (slotBase slot + 8) 4)

/-- The first of some slots that loads. -/
def State.loadFirst (half : Nat) : List Nat → State → State × Option Nat
  | [], s => (s, none)
  | n :: ns, s =>
    let x := s.tryLoad half n
    if x.2 then (x.1, some n) else State.loadFirst half ns x.1

/-- The boot record of keep RAM (R505), in the model's own layout (log entry 47): byte 0 the trial slot plus 1, byte 1 its
count, byte 2 the slots marked failed, bytes 62 and 63 a CRC-16 over the rest. -/
def State.bootBytes (s : State) : Bytes := bytesBE ((List.range 16).map (fun i => s.tw pgKEEP 1 (40 + i) 0))
def State.bootRecOk (s : State) : Bool :=
  s.keepValid && crc16 (s.bootBytes.take 62) == fieldAt s.bootBytes 62 2
def State.bootRec (s : State) : Nat × Nat × Nat :=
  if s.bootRecOk then (fieldAt s.bootBytes 0 1, fieldAt s.bootBytes 1 1, fieldAt s.bootBytes 2 1) else (0, 0, 0)
def State.putBootRec (trial count failed : Nat) (s : State) : State :=
  let b := natBE 1 trial ++ natBE 1 count ++ natBE 1 failed ++ List.replicate 59 0#8
  let b := b ++ natBE 2 (crc16 b)
  (List.range 16).foldl (fun s i => s.putTw pgKEEP 1 (40 + i) 0 (BitVec.ofNat 32 (fieldAt b (4 * i) 4))) s

/-- The valid slots by image_version, slot 0 first on equal ones, those marked failed and `not_` apart; then a valid recovery
image (R506 steps 3 and 4). -/
def State.bootOrder (s : State) (not_ : Option Nat) : List Nat :=
  let failed := s.bootRec.2.2
  let ok := [0, 1].filter (fun n => s.manifestValid n && !failed.testBit n && not_ != some n)
  let ok := if ok = [0, 1] ∧ s.slotVersion 0 < s.slotVersion 1 then [1, 0] else ok
  ok ++ (if s.manifestValid 2 then [2] else [])

/-- Firmware copies the Burgee's serial into HAL_SERIAL of each tree at boot (R204); the register is RWE, so an enabled page
keeps what it holds (log entry 115). -/
def State.copySerial (s : State) : State :=
  [Tree.a, Tree.b].foldl (fun s t =>
    if s.enabled (pgHAL t) then s
    else (s.putReg (pgHAL t) 0x054 (BitVec.ofNat 32 s.burgeeSerial)).putReg (pgHAL t) 0x058
      (BitVec.ofNat 32 (s.burgeeSerial / 2 ^ 32))) s

/-- The locked PMP entries that the ROM sets on core `c`: the page directory's and those of the ranges it loaded where the core
sees them, readable and executable only, at most 16 (R481, R505 step 5; log entry 139). -/
def State.lockedRanges (s : State) (c dirLen : Nat) : List Pmp :=
  let sees := fun (x : Loaded) => x.mask == 0 || decide (0x09000000 ≤ x.addr) || x.mask.testBit (c % 8)
  let lock := fun (a n : Nat) => (⟨a, n, true, false, true, true⟩ : Pmp)
  (lock (0x10000000 + dirPlace (c / 8)) dirLen :: (s.core.loaded.filter sees).map (fun x => lock x.addr x.len)).take 16

/-- The cores of a half released from the ROM at the entry address of the slot it has loaded (R505 steps 5 and 6). -/
def State.releaseHalf (half slot : Nat) (s : State) : State :=
  let entry := beNat (s.flashBytes (slotBase slot + 16) 4)
  let dirLen := if half = 0 then s.core.dir0.length else s.core.dir1.length
  (List.range 8).foldl (fun s i =>
    let c := 8 * half + i
    let pmp := s.lockedRanges c dirLen
    s.modCoreRun c (fun x => { x with kick := s.now, pmp := pmp, user := false, entry := some entry })) s

/-- The outcome of a boot: cores 0 to 7 released with an image, or core 0 left in the ROM (R505 step 6, R506 step 5). -/
def State.bootEnd (slot : Option Nat) (trial : Bool) (count : Nat) (s : State) : State :=
  match slot with
  | some n =>
    let s := ((s.setFld pgFLSH FLSH.bootSlot n).setFld pgFLSH FLSH.bootTrial (b2n trial)).setFld pgFLSH FLSH.bootTrialCount
      (if trial then count else 0)
    let s := (s.setFld pgFLSH FLSH.bootResult 0).setFld pgFLSH FLSH.imageVersion (s.slotVersion n)
    let s := s.modCore (fun c => { c with noImage := false, held0 := false, held1 := true })
    let s := (s.releaseHalf 0 n).copySerial
    s.iff (n == 2) (State.raise pgFLSH 6)
  | none => (s.setFld pgFLSH FLSH.bootResult 7).modCore (fun c => { c with noImage := true })

/-- BOOT's effect (R505): `suspended` says that the flash reports an erase suspended, `bad` are the journal entries whose sectors
fail the ROM's blank check. Until an image is loaded every core is held in the ROM. -/
def State.boot (suspended : Bool) (bad : List Nat) (s : State) : State :=
  if s.region 6 ≠ 0 then s
  else
    let s := (s.journalRecover suspended bad).modFlsh (fun f => { f with octal := true })
    let s := s.modCore (fun c => { c with cores := [], flows := [], held0 := true, held1 := true, noImage := false })
    let s := (s.setHalf 0).setPunty 0
    let (t, n, failed) := s.bootRec
    if t ≠ 0 ∧ n < 3 then
      let slot := (t - 1) % 2
      let s := s.putBootRec t (n + 1) failed
      let x := s.loadFirst 0 (if s.manifestValid slot then [slot] else [])
      match x.2 with
      | some _ => x.1.bootEnd (some slot) true (n + 1)
      | none => let y := x.1.loadFirst 0 (x.1.bootOrder (some slot)); y.1.bootEnd y.2 false 0
    else
      let s := if t ≠ 0 then (s.putBootRec 0 0 (failed ||| 2 ^ ((t - 1) % 2))).raise pgFLSH 4 else s
      let y := s.loadFirst 0 (s.bootOrder none)
      y.1.bootEnd y.2 false 0

/-- BOOT_CONFIRM's effect: the trial ends. -/
def State.bootConfirm (s : State) : State :=
  let s := (s.setFld pgFLSH FLSH.bootTrial 0).setFld pgFLSH FLSH.bootTrialCount 0
  s.iff s.bootRecOk (fun s => s.putBootRec 0 0 s.bootRec.2.2)

/-- BOOT_RETRY's effect while core 0 waits in the ROM. -/
def State.bootRetry (s : State) : State :=
  if s.core.noImage then
    let y := s.loadFirst 0 (s.bootOrder none)
    y.1.bootEnd y.2 false 0
  else s

/-- PUNTY_LOAD's effect: the other half, idle, enters the ROM's load entry and loads the other slot (R517 step 2). -/
def State.puntyLoad (s : State) : State :=
  let other := 1 - s.activeHalf
  if s.puntyState = 1 ∧ s.halfRuns other = false ∧ s.halfSlots other = false then
    let s := (s.setPunty 2).modCore (fun c => if other = 0 then { c with held0 := false } else { c with held1 := false })
    let slot := if s.fld pgFLSH FLSH.bootSlot = 0 then 1 else 0
    if s.manifestValid slot then
      let x := s.tryLoad other slot
      (x.1.modCore (fun c => { c with parison := if x.2 then some (slot, x.1.slotVersion slot) else none })).iff x.2
        (State.releaseHalf other slot)
    else s
  else s

end Sys2Proof.Machine
end

