-- ==== Sys2Proof/Machine/Receiver.lean ====
section
/-! DEFINITION. The receiver's commands (R84 to R93, R114). -/

namespace Sys2Proof.Machine

/-- The receiver leaves its line for good or for a new acquisition: the framer loses it, the judge its offer (R90,
R149). -/
def State.rxLeave (r : Rx) (s : State) : State :=
  s.lineDo r (fun s => (s.frmUnlocked r).clkLose (rxCand r))

/-- RX_ENABLE (R86): acquisition starts, unless the tree's mode stops this receiver (R211). -/
def execRxEnable (r : Rx) (s : State) : Host.Outcome State Fault Refusal :=
  .next (s.pageOn (pgRX r) (fun s => s.iff (!s.rxHeld r) (State.rxBegin r)))

/-- RX_DISABLE (R91). -/
def execRxDisable (r : Rx) (s : State) : Host.Outcome State Fault Refusal :=
  .next (s.pageOff (pgRX r) (fun s => (s.rxStopFigures r).rxLeave r))

/-- SIG_PRESENT (R86): the level rises; a receiver that runs shows it, and one that waited after a fall starts an
acquisition (R87). -/
def execSigPresent (r : Rx) (s : State) : Host.Outcome State Fault Refusal :=
  let was := s.flag (pgRX r) RX.statusSigPresent
  let s := s.modRxs r (fun x => { x with signal := true })
  .next (s.iff (s.works (pgRX r) && s.acq r != 0 && !was) (fun s =>
    let again := (s.rxs r).fell
    ((s.setFld (pgRX r) RX.statusSigPresent 1).iff again (State.startAcq r)).raise (pgRX r) 0))

/-- SIG_LOST (R87, R88): the level falls; the receiver goes back to the gain phase and waits. -/
def execSigLost (r : Rx) (s : State) : Host.Outcome State Fault Refusal :=
  let p := pgRX r
  let s := s.modRxs r (fun x => { x with signal := false })
  .next (s.iff (s.works p && s.flag p RX.statusSigPresent) (fun s =>
    let lock := s.locked r
    let s := ((s.setFld p RX.statusSigPresent 0).modRxs r (fun x => { x with fell := true })).raise p 1
    let s := ((s.setFld p RX.statusAcqState 1).setFld p RX.statusClkLock 0).clearFom r
    s.iff lock (fun s => (s.raise p 3).rxLeave r)))

/-- The phase that a result ends, in the order of Table 3.3. -/
def acqPhase : AcqResult → Nat
  | .gain _ _ => 1
  | .clock _ => 2
  | .dispersion _ => 3
  | .polarisation => 4
  | .carrier _ => 5
  | .pilot _ _ => 6

/-- What a phase's result leaves in the registers. -/
def State.acqStore (r : Rx) (res : AcqResult) (s : State) : State :=
  let p := pgRX r
  match res with
  | .gain code level => (s.setFld p RX.iterGain code).setFld p RX.iterLevel level
  | .clock ofs => (s.setFld p RX.statusClkLock 1).setSFld p RX.clkOfsClkOfs ofs
  | .dispersion cd => s.setSFld p RX.cdEstCdEst cd
  | .polarisation => s
  | .carrier khz => s.setSFld p RX.freqOfsFreqOfs khz
  | .pilot fc syms => let f := (findLanes fc syms).getD (0, 0); s.laneFix r f.1 f.2

/-- Does a result end its phase? The pilot phase ends with a correction found, or with the forced one (R114). -/
def State.acqHolds (s : State) (r : Rx) (res : AcqResult) : Bool :=
  match res with
  | .pilot fc syms => s.flag (pgRX r) RX.laneFixUseForced || (findLanes fc syms).isSome
  | _ => true

/-- ACQ_PHASE_COMPLETE (R86): the phase's result stands and the next phase begins; after the last the receiver is
locked, and offers its clock (R90). -/
def execAcqPhaseComplete (r : Rx) (res : AcqResult) (s : State) : Host.Outcome State Fault Refusal :=
  let p := pgRX r
  .next (s.iff (s.works p && s.flag p RX.statusSigPresent && s.acq r == acqPhase res && s.acqHolds r res) (fun s =>
    let s := (s.acqStore r res).setFld p RX.statusAcqState (acqPhase res + 1)
    s.iff (acqPhase res == 6) (fun s =>
      ((s.clearFom r).modRxs r (fun x => { x with lockedAt := s.now })).raise p 2)))

/-- ACQ_TIMEOUT (R87): counted, raised, and acquisition starts again; a timeout of 0 disables it. -/
def execAcqTimeout (r : Rx) (s : State) : Host.Outcome State Fault Refusal :=
  let p := pgRX r
  .next (s.iff (s.works p && s.fld p RX.acqTimeout != 0 && s.acq r != 0 && !s.locked r) (fun s =>
    ((s.count (cuRX r + 5)).raise p 7).startAcq r))

/-- LOCK_LOST (R88). -/
def execLockLost (r : Rx) (s : State) : Host.Outcome State Fault Refusal :=
  let p := pgRX r
  .next (s.iff (s.works p && s.locked r) (fun s => ((s.raise p 3).startAcq r).rxLeave r))

/-- PHASE_SLIP (R89): the reference is corrected at the next pilot; counted and raised. -/
def execPhaseSlip (r : Rx) (s : State) : Host.Outcome State Fault Refusal :=
  .next (s.iff (s.works (pgRX r) && s.locked r) (fun s => (s.count (cuRX r + 3)).raise (pgRX r) 4))

/-- What the decoder leaves of a codeword `rx` within `limit` iterations: with early_stop the first decision whose syndrome is
zero, the received bits counting as none run; else the last. Answers the iterations run and the bits (R84). -/
def decoderStop (early : Bool) (limit : Nat) (rx : List Bool) (steps : List (List Bool)) : Nat × List Bool :=
  let c := rx :: steps.take limit
  match (if early then c.findIdx? (syndromeZero ldpcZDown) else none) with
  | some i => (i, c.getD i [])
  | none => (c.length - 1, c.getLastD [])

/-- CODEWORD_DECODE (R84, R93, R124): corrected, descrambled, decoded, counted; uncorrectable where the last syndrome is not zero.
Its information bits go to the framer, those of an uncorrectable one as received, with the flag; a written max_iter takes effect
at this boundary. -/
def execCodewordDecode (r : Rx) (cw : RxCodeword) (s : State) : Host.Outcome State Fault Refusal :=
  .next (s.iff (s.works (pgRX r) && s.locked r) (fun s =>
    let rx := s.rxBits r cw.received
    let d := decoderStop (s.flag (pgRX r) RX.fecCtrlEarlyStop) (s.rxs r).iterLimit rx cw.steps
    let unc := !syndromeZero ldpcZDown d.2
    let corrected := (xorBits rx d.2).count true
    let s := s.count (cuRX r)
    let s := if unc then (s.count (cuRX r + 2)).raiseMs (pgRX r) 8 else s.countBy (cuRX r + 1) corrected
    let s := s.modRxs r (fun x => { x with iterSum := x.iterSum + d.1, iterCount := x.iterCount + 1 })
    (s.applyMaxIter r).noteCodeword r corrected unc (bitsBytes 2700 (if unc then rx else d.2))))

/-- FOM_WINDOW_END (R92, R93): judged against the reference in force, after which a written max_iter takes effect. -/
def execFomWindowEnd (r : Rx) (fom : Nat) (s : State) : Host.Outcome State Fault Refusal :=
  .next (s.iff (s.works (pgRX r) && s.locked r) (fun s => (s.fomWindow r fom).applyMaxIter r))

/-- RX_LANE_ADAPT (R93): one small step of a lane's equalizer or skew trim, at most once per 10 ms. That the step moves the FOM by
less than 0.1 dB is the adaptation's own (log entry 55). -/
def execRxLaneAdapt (r : Rx) (lane : Nat) (skew : Bool) (value : Nat) (s : State) : Host.Outcome State Fault Refusal :=
  let due := match (s.rxs r).adaptAt with
    | some x => decide (x + 10 * symPerMs ≤ s.now)
    | none => true
  .next (s.iff (s.works (pgRX r) && s.locked r && due) (State.modRxs r (fun x =>
    let old := x.lanes.getD lane (0, 0)
    { x with lanes := x.lanes.set lane (if skew then (old.1, value) else (value, old.2)), adaptAt := some s.now })))

end Sys2Proof.Machine
end

