-- ==== Sys2Proof/Machine/BlockOps.lean ====
section
/-! DEFINITION. What the enable of any page starts and stops (R46), and the soft reset of a page (R49) with the effects that
each block's chapter gives it. -/

namespace Sys2Proof.Machine

/-- The receiver and the tree of an instance of a block. -/
def instRx (i : Nat) : Rx := if i = 0 then .a0 else if i = 1 then .a1 else if i = 2 then .b0 else .b1
def instTree (i : Nat) : Tree := if i = 0 then .a else .b

/-- What a page's enable stops as it goes from 1 to 0. -/
def State.blockStop (p : Nat) (s : State) : State :=
  match pageInfo p with
  | none => s
  | some i =>
    let r := instRx i.inst
    let t := instTree i.inst
    match i.blk with
    | .rx => (s.rxStopFigures r).rxLeave r
    | .frm => s.lineDo r (State.frmStop r)
    | .hal => s.halStop t
    | .tx => s.refreshPolicy t
    | .act => s.enterDarkKeep t
    | .grt => s.suppressWaiting t
    | .pm => s.pmMarkAll 2
    | .time => s.timeStop.ppsLow
    | .xtr => s.showTier
    | .lane => s.refreshPorts
    | .uniq => s.refreshPorts
    | .hif => s.cxlStop
    | .dma => s.openRings.foldl (fun s x => s.drainRing x.1 x.2.1 x.2.2 false) s
    | .ccry => s.ccryStop
    | _ => s

/-- The rings whose enable is 1. -/
def State.enabledRings (s : State) : List (Nat × Bool × Nat) :=
  (s.rf.regs.filter (fun x => decide (fnPage 0 ≤ x.1 / 1024) && decide (x.1 % 8 = 4) && decide (x.1 % 1024 < 512) &&
    bitOf x.2.toNat 0)).map (fun x => (x.1 / 1024 - fnPage 0, decide (256 ≤ x.1 % 1024), x.1 % 256 / 8))

/-- What a page's enable starts as it goes from 0 to 1. -/
def State.blockStart (p : Nat) (s : State) : State :=
  match pageInfo p with
  | none => s
  | some i =>
    let r := instRx i.inst
    match i.blk with
    | .rx => s.iff (!s.rxHeld r) (State.rxBegin r)
    | .frm => s.lineDo r (State.frmStart r)
    | .tx => s.txBegin (instTree i.inst)
    | .hal => s.halJudge (instTree i.inst)
    | .act => s.refreshPolicy (instTree i.inst)
    | .pm => s.pmMarkAll 2
    | .time => s.timeStart
    | .xtr => s.showTier
    | .lane => (List.range 16).foldl (fun s l => s.genStart l) s.refreshPorts
    | .uniq => s.refreshPorts
    | .hif => s.cxlStart
    | .dma => s.enabledRings.foldl (fun s x => s.ringRun x.1 x.2.1 x.2.2) s
    | .ccry => s.dispatchJobs
    | .core => s.iff s.firmware (fun s => (s.firmwareBack .a).firmwareBack .b)
    | _ => s

/-- A die-to-die link retrains: its credits are granted again, nothing is lost (R567, R568). -/
def State.linkRetrained (l : Nat) (s : State) : State :=
  let s := ((s.grantCredits l).count (cuD2D + 5 * l + 3)).setFld pgD2D D2D.lastLink l
  (s.setFld pgD2D D2D.lastEvent 2).raise pgD2D 1

/-- The work that a soft reset takes from a block (R49 item 2), its enable being 0. Queued frames are held by the store, not by
the schedulers (R281; log entry 92 for DSCH). That the CNT page's reset cancels an armed snapshot is not counted as a cancel
honoured (log entry 93). -/
def State.blockDrop (p : Nat) (s : State) : State :=
  match pageInfo p with
  | none => s
  | some i =>
    match i.blk with
    | .sto => s.dropStore
    | .xtr => s.loseRecords
    | .swc => s.dropWaiting (fun _ => true) (fun _ => cuSWC + 12)
    | .dual => s.dropDual
    | .cls => s.dropClassifier
    | .pol => s.clipTokens
    | .dma => (s.jobRings.foldl (fun s r => s.abortJob (ringOf r).1 (ringOf r).2.2) s).dropHands (fun _ => true)
    | .hif => s.pcieDown false
    | .flsh => s.flashStop
    | .core => (s.holdHalf 0).holdHalf 1
    | .cnt => s.iff (s.snapState == 1 && s.snap.due.isNone) (State.setFld pgCNT CNT.snapStatusState 0)
    | .d2d => [0, 1, 2].foldl (fun s l => s.iff (s.linkUp l) (State.linkRetrained l)) s
    | _ => s

/-- The tables of a page that a soft reset returns to their reset contents: not those that show what other units hold, or
what it says it keeps; those of ACT, for which the spec states no reset contents, are kept (log entry 94). -/
def softTables : Blk → List Nat
  | .hal => [0, 1]
  | .dual => [0]
  | .usch => [0, 1]
  | .dsch => [0, 1]
  | .grt => []
  | .cnt => []
  | .clk => []
  | .sup => []
  | .d2d => []
  | .act => []
  | .lsec => [1]
  | .kst => [0]
  | .keep => [0]
  | .core => [1]
  | .lane => [0]
  | .flsh => [1]
  | .lehr => [1]
  | b => List.range (tableCount b)

/-- What a block holds beyond registers and tables, back at its start. -/
def State.blockClear (p : Nat) (s : State) : State :=
  match pageInfo p with
  | none => s
  | some i =>
    let t := instTree i.inst
    match i.blk with
    | .hal => (((((s.setFld p HAL.rxPtrWr 0).setFld p HAL.rxPtrRd 0).setFld p HAL.txStatusState 0).setFld p
        HAL.txStatusResult 0).modHals t (fun h => { levels := h.levels })).noteHalLevel t
    | .dual => (s.tblEntries pgDUAL 1).foldl (fun s q => s.putTw pgDUAL 1 q 1 0#32) s.flushMerge
    | .usch => 
      let s := s.modUsch (fun u => { u with
        activeQ := [], activeT := [], queueTokens := [], tenantTokens := [], deficits := [], pointers := [] })
      ((s.tblEntries pgUSCH 2).foldl (fun s q => (s.judgePromotion q).showQueue q) s).showTick
    | .flow => ((((s.setFld p FLOW.statusUsed 0).setFld p FLOW.statusFull 0).setFld p FLOW.cmdStatusBusy 0).setFld p
        FLOW.cmdStatusResult 0).modFlow (fun _ => {})
    | .pol => (s.setFld p POL.validValidCount 0).modPol (fun _ => {})
    | .cls => (s.setFld p CLS.statusFollowUsed 0).modCls (fun x => { acts := x.acts })
    | .sto => ((s.setFld p STO.retiredRetired s.sto.retired.length).setFld p STO.culletLevelLevel
        (totalCells - s.sto.retired.length)).setFld p STO.descFreeFree (totalCells - s.heldCopies.length)
    | .xtr => (s.modXtr (fun _ => {})).showTier
    | .swc => (Sparse.keys s.sto.qbytes).foldl (fun s q => s.setQueueBytes q (s.queueBytes q)) s
    | .dsch => (s.modSto (fun x => { x with
        activeQueue := [], activeNode := [], nodeTokens := [], hostTokens := 16384, nodeDeficit := [], queueDeficit := [],
        nodeTurn := [], queueTurn := [], pinned := [] })).showTick
    | .mir => s.modSto (fun x => { x with offered := [] })
    | .lsec =>
      let s := (s.tblEntries pgLSEC 1).foldl (fun s e => s.dropSlot (e / 2) (e % 2)) s
      let s := (s.tblEntries pgLSEC 0).foldl (fun s c => (s.setTf pgLSEC 0 c 0 1 1 0).setSelector c 3) s
      s.setFld p LSEC.statusContained 0
    | .ccry => (s.modCcry (fun _ => {})).showJobs.keysLost.showKeystore
    | .time => ((s.timeClearHost).setFld p TIME.stampPtrWr 0).modTime (fun x => { x with acquired := false, eligible := [] })
    | .uniq => s.refreshPorts
    | .lane => s.refreshPorts
    | .core => (((s.setPunty 0).setHalf 0).setFld p CORE.puntyAbortCause 0).modCore (fun c =>
        { c with completions := [], parison := none })
    | .tsk => (s.modTsk (fun _ => {})).modCore (fun c => { c with cores := [], flows := [], otherTasks := [], otherRoutes := [] })
    | .lehr => (s.modLehr (fun _ => {})).setFld p LEHR.statusRunning 0 |>.setFld p LEHR.statusDeferred 0
    | .clk => (s.setFld p CLK.statusForced 0).clkJudge
    | .tx => (((s.modTxs t (fun x => { x with laneDue := none, tuneDue := none })).noteLaunch t).noteHalLevel t).refreshPolicy t
    | .rx => s.applyMaxIter (instRx i.inst)
    | .act => s.quarAgain t
    | .keep => (List.range 26).foldl (fun s d => s.iff (s.domState d != 0 && !s.shedDomain d) (State.wakeDomain d 0x01)) s
    | _ => s

/-- Units of a page that a soft reset releases (Table 17.1): a contained core waits for CORE_RELEASE. -/
def State.releaseUnits (p : Nat) (s : State) : State :=
  (if p = pgCORE then s.modRel (fun r => { r with contained := Sparse.put false (p * 65536) false r.contained })
   else s.modRel (fun r => { r with contained := r.contained.filter (fun x => x.1 / 65536 ≠ p) })).freeLast

/-- Items 1 to 3 of R49 for a page. -/
def State.blockReset (p : Nat) (s : State) : State :=
  let s := if s.enabled p then (s.setFld p HDR.pageCtrlEnable 0).blockStop p
    else s.iff (p == pgHIF) State.cxlStop
  let s := (s.blockDrop p).resetPageRegs p
  let core := fun (k : Nat) => decide (k / 1024 = corePage p)
  let s := s.modRf (fun r => { r with
    regs := r.regs.filter (fun x => !core x.1)
    staged := r.staged.filter (fun x => !core x.1 && decide (x.1 / 1024 ≠ p))
    latches := r.latches.filter (fun x => decide (x.1 / 1024 ≠ p)) })
  let s := s.modWins (fun w => w.filter (fun x => x.1 / 2 ≠ p))
  let s := match pageInfo p with
    | some i => (softTables i.blk).foldl (fun (s : State) t => s.resetTable p t) (s.resetTables (corePage p))
    | none => s
  (s.blockClear p).releaseUnits p

end Sys2Proof.Machine
end

