-- ==== Sys2Proof/Machine/PowerOps.lean ====
section
/-! DEFINITION. Idle domains and the writes of the Keeper's registers (R528 to R537), the clock judge's commands and the
K-oscillator (R538 to R547), supplies and the power source (R548 to R554, R588 to R590). -/

namespace Sys2Proof.Machine

/-! Idle indications (Table 16.1). -/

/-- Is a line receiver's domain idle: its page disabled, or the tree in Parked or Lifeline with another control receiver? -/
def State.rxIdle (s : State) (t : Tree) (k : Nat) : Bool :=
  let r := treeRx t k
  !s.enabled (pgRX r) || ((s.mode t == 5 || s.mode t == 6) && s.controlRx t != some r)

/-- Is a transmitter's domain idle? -/
def State.txIdle (s : State) (t : Tree) : Bool :=
  let m := s.mode t
  m == 0 || m == 1 || m == 7 ||
    ((m == 4 || m == 5 || m == 6) && (s.pendings t).isEmpty && (s.hals t).jobs.isEmpty &&
      s.fld (pgGRT t) GRT.statusTmcQueued == 0 && s.effPolicy t != 3)

/-- Does quad `q` carry an effectively enabled port, a generator or a loopback (R441)? -/
def State.quadBusy (s : State) (q : Nat) : Bool :=
  (List.range 16).any (fun p => s.portOn p && (s.portLanes p).any (fun l => l / 4 == q)) ||
    (List.range 4).any (fun i => s.laneGen (4 * q + i) != 0 || s.laneLoop (4 * q + i) != 0)

/-- Does a core hold a task? -/
def State.coreBusy (s : State) (c : Nat) : Bool :=
  (s.coreRun c).run.isSome || !(s.coreRun c).stack.isEmpty || !(s.coreRun c).slots.isEmpty

/-- A domain's idle indication. -/
def State.domIdle (s : State) (d : Nat) : Bool :=
  if d < 10 then
    let t : Tree := if d < 5 then .a else .b
    match d % 5 with
    | 0 => s.rxIdle t 0
    | 1 => s.rxIdle t 1
    | 2 => s.txIdle t
    | 3 => !s.enabled (pgHAL t)
    | _ => !s.enabled (pgACT t) && !s.enabled (pgGRT t)
  else if d = 10 then
    !s.enabled pgSTO && s.fld pgSTO STO.culletLevelLevel + s.fld pgSTO STO.retiredRetired == 167772160
  else if d = 11 ∨ d = 12 then s.domState 10 == 1
  else if d = 13 then !s.enabled pgCLS
  else if d = 14 then !s.enabled pgSWC && s.sto.frames.isEmpty && s.xtr.tier.isEmpty
  else if d < 19 then !s.quadBusy (d - 15)
  else if d = 19 then false
  else if d < 24 then (List.range 4).all (fun i => !s.coreBusy (4 * (d - 20) + i))
  else if d = 24 then s.fld pgLSEC LSEC.statusGcmContexts == 0
  else (List.range 8).all (fun k => !(s.jobState k == 1 || s.jobState k == 2 || s.jobState k == 3))

/-- DOMAIN_IDLE_EXPIRE's effect: entry begins, or a unit refuses (R530). Line security refuses by itself while a key slot is
valid; `refusal` is any other unit's answer. -/
def State.idleExpire (d : Nat) (refusal : Option (Nat × Nat)) (s : State) : State :=
  if d < 26 ∧ s.domState d = 0 ∧ s.policyOf d ≠ 0 ∧ s.domIdle d = true then
    match (if d == 24 && s.anySlotValid then some (pgLSEC, 2) else refusal) with
    | some (page, reason) => s.refuseEntry d page reason
    | none => (s.setDomState d 3).modKeep (fun k => { k with entering := Sparse.put 0 d (s.policyOf d) k.entering })
  else s

/-- What the rest of the part sees of a domain that has lost its clock. -/
def State.domainGone (d : Nat) (s : State) : State :=
  if d < 10 then
    let t : Tree := if d < 5 then .a else .b
    if d % 5 < 2 then s.clkLose (rxCand (treeRx t (d % 5))) else s
  else if 15 ≤ d ∧ d ≤ 18 then s.refreshPorts
  else s

/-- DOMAIN_ENTRY_DONE's effect: the domain is in the state that its policy permitted at expiry (R530 items 4 and 5). -/
def State.entryDone (d : Nat) (s : State) : State :=
  let to_ := Sparse.get 0 s.keep.entering d
  if s.domState d = 3 ∧ to_ ≠ 0 then
    let s := s.modKeep (fun k => { k with entering := Sparse.put 0 d 0 k.entering })
    let s := if to_ = 2 then s.domainOff d else s.domainRetain d
    (((s.count (cuKEEP + 4 * d)).raiseMs pgKEEP 0).domainGone d).iff (s.regionOff (domainRegion d)) (State.settleRegion
      (domainRegion d))
  else s

/-- Has a domain a hardware wake source of its own (R531)? -/
def hardwareWakes (d : Nat) : Bool := (decide (d < 10) && decide (d % 5 < 3)) || (decide (20 ≤ d) && decide (d < 24))

/-- The domains of one policy register that a written value keeps on. -/
def policyOnDomains (hi : Bool) (v : Word) : List Nat :=
  (List.range (if hi then 10 else 16)).filter (fun i => let x := bitsOf v.toNat (2 * i + 1) (2 * i); x == 0 || x == 3)
    |>.map (fun i => if hi then 16 + i else i)

/-- Does a policy register hold the setting 0b11 for any domain? -/
def policyInvalid (hi : Bool) (v : Word) : Bool :=
  (List.range (if hi then 10 else 16)).any (fun i => bitsOf v.toNat (2 * i + 1) (2 * i) == 3)

/-- KEEP_POLICY_WRITE's effect (R529). -/
def State.policyWrite (hi : Bool) (acc : Access) (s : State) : State :=
  let off := if hi then 0x034 else 0x030
  s.guarded pgKEEP off acc (fun s =>
    let s := s.writePlain pgKEEP off acc
    let v := s.reg pgKEEP off
    let s := s.iff (policyInvalid hi v) (State.raise pgKEEP 7)
    (policyOnDomains hi v).foldl (fun s d => s.iff (s.domState d != 0) (State.wakeDomain d 0x3F)) s)

/-- DOMAIN_RESTORE_DONE's effect: the buffer manager's only once the HBM domains are on (R532). -/
def State.restoreDone (d : Nat) (s : State) : State :=
  if d = 10 ∧ (s.domOn 11 && s.domOn 12) = false then s
  else (s.domainRestored d).iff (decide (15 ≤ d) && decide (d ≤ 18)) State.refreshPorts

/-! The clock judge (R538 to R544). -/

/-- Is any candidate judged good? -/
def State.anyClkGood (s : State) : Bool := s.fld pgCLK CLK.statusGood != 0

/-- The regions settled in order. -/
def State.settleAll (s : State) : State := (List.range 9).foldl (fun s r => s.settleRegion r) s

/-- What a main-rail reset, the TAP or the wait for a clock no longer holds: safe forcing ends, and the release of a main-rail
reset is raised once. -/
def State.announceRelease (s : State) : State :=
  if s.clk.railHeld || s.clk.tapHeld || s.clk.clockWait || s.clk.lossHeld then s
  else
    let due := s.clk.railDue
    (s.modClk (fun c => { c with safeOut := false, railDue := false })).iff due (State.raise pgSUP 8)

/-- With a good candidate the regions that wait for one are released (R544, R588). -/
def State.clockRelease (s : State) : State :=
  if s.anyClkGood && (s.clk.lossHeld || s.clk.clockWait) then
    ((s.modClk (fun c => { c with lossHeld := false, clockWait := false })).settleAll).announceRelease
  else s

/-- CLOCK_GATE_END's effect on an offered candidate. -/
def State.clockGateEnd (k count : Nat) (s : State) : State :=
  if 1 ≤ k ∧ k ≤ 5 ∧ s.clkOffered k = true then (s.gateEnd k count).clockRelease else s

/-- CLK_FORCE's effect: CLK_SEL.force written (R542). -/
def State.clkForceCmd (code : Nat) (s : State) : State :=
  if code = 0 then ((s.setFld pgCLK CLK.selForce 0).setFld pgCLK CLK.statusForced 0).clkJudge
  else if code ≤ 5 ∧ s.clkGood code = true then
    ((s.setFld pgCLK CLK.selForce code).setFld pgCLK CLK.statusForced 1).clkJudge
  else
    let s := (s.setFld pgCLK CLK.refusedLastSource code).setFld pgCLK CLK.refusedLastReason (if code ≤ 5 then 1 else 2)
    (s.count (cuCLK + 3)).raise pgCLK 3

/-- A region loses what it holds without a drop being counted: the clock is gone, or the supply (R544, R551). -/
def State.regionLose (r : Nat) (s : State) : State := (s.regionWipe r).regionAfter r

/-- CLOCK_LOSS_RESET's effect, no candidate being good: every S-die region held in reset (R544). -/
def State.clockLossReset (s : State) : State :=
  if s.anyClkGood || s.clk.lossHeld then s
  else
    let s := (s.count (cuCLK + 5)).modClk (fun c => { c with lossHeld := true })
    ((List.range 6).foldl (fun s i => s.regionLose (i + 2)) s).settleAll

/-- The S-die outputs of Table 16.5 forced: counted once while they stand. -/
def State.forceSafe (s : State) : State :=
  if s.clk.safeOut then s
  else
    let s := (s.modClk (fun c => { c with safeOut := true })).modTime (fun x => { x with pps := false, fout := 0, foutSource := 0, foutEdge := none })
    (s.count (cuCLK + 4)).raise pgCLK 6

/-- CLOCK_EDGE_MISSING's effect: a line region's clock, or the S-die clock (Table 16.5). -/
def State.edgeMissing (which : Nat) (s : State) : State :=
  match which with
  | 0 => (s.clockForce .a).enterDarkKeep .a
  | 1 => (s.clockForce .b).enterDarkKeep .b
  | 2 => s.forceSafe
  | _ => s

/-! The K-oscillator (R546). -/

/-- KOSC_TRIM's effect: a window of `count` cycles ends; a broken one is discarded (R546). -/
def State.koscTrim (count : Nat) (s : State) : State :=
  if s.clk.trimBroken then s.modClk (fun c => { c with trimBroken := false })
  else if s.trimSource then
    let want := 32768 * max 1 (s.fld pgCLK CLK.koscCfgTrimSf)
    let err := clampInt (-32768) 32767 (roundDiv (((count : Int) - want) * 1000000) want)
    let step := clampInt (-64) 64 (roundDiv err 16)
    let code := clampInt (-2048) 2047 (s.sfld pgCLK CLK.koscStatusCode - step)
    let s := (s.setSFld pgCLK CLK.koscStatusCode code).setSFld pgCLK CLK.koscStatusError err
    let s := (s.count (cuCLK + 7)).raiseMs pgCLK 5
    s.iff (decide (-16 ≤ err) && decide (err ≤ 16)) (State.setFld pgCLK CLK.statusKoscTrimmed 1)
  else s

/-! Supplies (R549 to R551, R588). -/

/-- Rails 1 to 6 of a mask. -/
def mainRails (rails : Nat) : Nat := rails % 128 / 2 * 2

/-- SUP table 0 follows the rails below warning and below reset. -/
def State.showRails (below : Nat → Bool) (bit : Nat) (s : State) : State :=
  ((List.range 7).filter below).foldl (fun s i => s.setTf pgSUP 0 i 0 bit bit 1) s

/-- SUPPLY_WARNING's effect: rails below warning, or with none PFAIL# low. -/
def State.supplyWarning (rails : Nat) (s : State) : State :=
  let m := mainRails rails
  let was := s.flag pgSUP SUP.statusSupplyWarning
  let s := if m = 0 then s.setFld pgSUP SUP.statusPfail 1
    else ((s.setFld pgSUP SUP.statusBelowWarning (s.fld pgSUP SUP.statusBelowWarning ||| m)).showRails (bitOf m) 16).raiseMs
      pgSUP 7
  if was then s
  else
    let s := (((s.setFld pgSUP SUP.statusSupplyWarning 1).count cuSUP).raise pgSUP 0).wakeLatch 2 0
    (s.createNotice 1).puntyAbort 2

/-- SUPPLY_WARNING_CLEAR's effect: every rail has been above warning and PFAIL# is high. -/
def State.supplyClear (s : State) : State :=
  let s := (s.setFld pgSUP SUP.statusSupplyWarning 0).setFld pgSUP SUP.statusPfail 0
  let s := (s.setFld pgSUP SUP.statusBelowWarning 0).setFld pgSUP SUP.statusVkeepWarning 0
  (List.range 7).foldl (fun s i => s.setTf pgSUP 0 i 0 17 16 0) s

/-- VKEEP_WARNING's effect (R550). -/
def State.vkeepWarn (s : State) : State :=
  if s.flag pgSUP SUP.statusVkeepWarning then s
  else
    let s := (s.setFld pgSUP SUP.statusVkeepWarning 1).setFld pgSUP SUP.statusBelowWarning
      (s.fld pgSUP SUP.statusBelowWarning ||| 1)
    let s := ((s.setTf pgSUP 0 0 0 16 16 1).count (cuSUP + 1)).raise pgSUP 1
    ((s.kstAbort).puntyAbort 2).routeEvent 1599

/-- Counters of every unit outside the Keeper at 0, the audit's running totals with them, and both banks (R69; log entry 34). -/
def State.clearCounters (s : State) : State :=
  let lost := fun (i : Nat) => counterUnits.any (fun u => decide (u.first ≤ i) && decide (i < u.first + u.count) &&
    (match pageInfo u.page with | some x => x.region != 8 | none => true))
  (s.modSto (fun x => { x with upLost := 0, downIn := 0, downOut := 0 })).modCnt (fun c => { c with
    live := c.live.filter (fun x => !lost x.1), backing := c.backing.filter (fun x => !lost x.1),
    last := c.last.filter (fun x => !lost x.1), bank0 := [], bank1 := [] })

/-- The domains are powered again with their regions, but for those of a shed region. -/
def State.domainsUp (s : State) : State :=
  (List.range 26).foldl (fun s d => if s.shedDomain d then s else
    (s.setDomState d 0).modKeep (fun k => { k with
      entering := Sparse.put 0 d 0 k.entering, restoring := Sparse.put 0 d 0 k.restoring })) s

/-- Regions Line-A to Security lose everything and are held in reset, their outputs forced (R551, R590, R601). -/
def State.holdRegions (s : State) : State :=
  let s := ((s.clockForce .a).clockForce .b).forceSafe
  let s := s.modSto (fun x => { x with retired := [] })
  let s := (List.range 8).foldl (fun s r => s.regionLose r) s
  ((s.clearCounters).domainsUp).settleAll

/-- A main-rail reset, `rails` being below their reset thresholds. -/
def State.mainRailReset (rails : Nat) (s : State) : State :=
  let m := mainRails rails
  let s := (s.setFld pgSUP SUP.lastResetRails m).count (cuSUP + 7)
  let s := (s.showRails (bitOf m) 17).modClk (fun c => { c with railHeld := true, clockWait := false, railDue := true })
  s.holdRegions

/-- A hold ends; the regions are released once a clock candidate is good and nothing else holds them (R588). -/
def State.railsBack (s : State) : State :=
  let good := s.anyClkGood
  ((s.modClk (fun c => { c with clockWait := !good, lossHeld := c.lossHeld && !good })).settleAll).announceRelease

/-- MAIN_RAIL_RELEASE's effect. -/
def State.mainRailRelease (s : State) : State :=
  if s.clk.railHeld then (s.modClk (fun c => { c with railHeld := false })).railsBack else s

/-- VKEEP_RESET's effect: the whole part resets. What is not volatile, keep RAM's bytes, what is outside the part and the
model's own records stay. -/
def State.vkeepReset (s : State) : State :=
  let ram := s.tables.filter (fun x => decide (x.1 / 0x800000 = pgKEEP * 8 + 1) ||
    decide (x.1 / 0x800000 = pgACT .a * 8 + 2) || decide (x.1 / 0x800000 = pgACT .b * 8 + 2))
  let r := State.reset
  { r with
    tables := ram
    out := s.out
    now := s.now
    readData := s.readData
    readHigh := s.readHigh
    freeIx := s.freeIx
    rx := ⟨{ signal := s.rx.a0.signal }, { signal := s.rx.a1.signal }, { signal := s.rx.b0.signal },
      { signal := s.rx.b1.signal }⟩
    hif := { perst := s.hif.perst }
    kst := { s.kst with job := 0 }
    clk := { railHeld := true, railDue := true, safeOut := true }
    keep := { saves := s.keep.saves }
    tap := s.tap
    flsh := { mem := s.flsh.mem, unknown := s.flsh.unknown, journal := s.flsh.journal }
    pending := s.pending }.settleAll

/-- Every area of keep RAM empty. -/
def State.emptyKeepRam (s : State) : State :=
  let s := ((s.resetTable pgKEEP 1).resetTable (pgACT .a) 2).resetTable (pgACT .b) 2
  s.modKeep (fun k => { k with saves := [] })

/-- VKEEP_POWER_UP's effect: the keystore's slot chosen, keep RAM checked; a tree with a Quarantine record starts in
Quarantine (R217, R380, R535). -/
def State.vkeepPowerUp (ramOk : Bool) (s : State) : State :=
  let s := (s.kstPowerUp).setFld pgKEEP KEEP.ramStatusValid (b2n ramOk)
  let s := if ramOk then s else (s.emptyKeepRam).raise pgKEEP 6
  (s.quarAgain .a).quarAgain .b

/-! Power source and battery (R552 to R554). Each change of battery or mains stable latches the keeper cause, as each assertion of
the supply warning does (R469, R553). -/

/-- Debounced PSRC_MAIN falls (R553, R554 item 4). -/
def State.mainsFall (s : State) : State :=
  let judging := s.sup.judging
  let bat := s.flag pgSUP SUP.statusBattery
  let s := s.iff (s.flag pgSUP SUP.statusMainsStable) (State.wakeLatch 2 0)
  let s := (((s.setFld pgSUP SUP.statusMainsStable 0).raise pgSUP 4).count (cuSUP + 4)).modSup (fun x => { x with
    holdoff := !bat, judging := false })
  s.iff (bat && judging) (State.count (cuSUP + 6))

/-- Debounced PSRC_MAIN returns: within the hold-off that is all; otherwise the return is raised. A stability judgement
starts. -/
def State.mainsReturn (s : State) : State :=
  let s := if s.sup.holdoff then s.count (cuSUP + 5) else s.raise pgSUP 5
  s.modSup (fun x => { x with holdoff := false, judging := true })

/-- PSRC_DEBOUNCE's effect: a debounced input takes a new value. -/
def State.psrcDebounce (main level : Bool) (s : State) : State :=
  let f := if main then SUP.statusPsrcMain else SUP.statusPsrcBatt
  if s.flag pgSUP f = level then s
  else
    let s := s.setFld pgSUP f (b2n level)
    if !main then s else if level then s.mainsReturn else s.mainsFall

/-- HOLDOFF_EXPIRE's effect. -/
def State.holdoffExpire (s : State) : State :=
  if s.sup.holdoff && !s.flag pgSUP SUP.statusPsrcMain then
    let s := s.modSup (fun x => { x with holdoff := false })
    if s.flag pgSUP SUP.statusPsrcBatt then
      let s := (((s.setFld pgSUP SUP.statusBattery 1).count (cuSUP + 2)).raise pgSUP 2).wakeLatch 2 0
      let s := s.onBattery
      let s := s.iff (s.flag (pgACT .a) ACT.statusShed) (State.shedRegion .a)
      s.iff (s.flag (pgACT .b) ACT.statusShed) (State.shedRegion .b)
    else (s.raise pgSUP 6).count (cuSUP + 8)
  else s

/-- MAINS_STABLE's effect. -/
def State.mainsStable (s : State) : State :=
  if s.sup.judging && s.flag pgSUP SUP.statusPsrcMain then
    let bat := s.flag pgSUP SUP.statusBattery
    let s := (s.setFld pgSUP SUP.statusMainsStable 1).modSup (fun x => { x with judging := false })
    let s := s.wakeLatch 2 0
    if bat then
      let s := ((s.setFld pgSUP SUP.statusBattery 0).count (cuSUP + 3)).raise pgSUP 3
      ((s.onMains).unshedRegion .a).unshedRegion .b
    else s
  else s

end Sys2Proof.Machine
end

