-- ==== Sys2Proof/Machine/BoundaryScan.lean ====
section
/-! DEFINITION. The test access port (R600, R601). -/

namespace Sys2Proof.Machine

/-- The test access port's instruction and its selected data register. -/
def State.setTap (instr : Nat) (dr : Word) (s : State) : State := s.modTap (fun t => { t with instr := instr, dr := dr })

/-- EXTEST, CLAMP and HIGHZ hold every region but the Keeper in reset, as a main-rail reset does (R601). -/
def State.tapHold (s : State) : State :=
  if s.clk.tapHeld then s else (s.modClk (fun c => { c with tapHeld := true })).holdRegions

/-- Test-Logic-Reset: the regions are released by the rule of R588. -/
def State.tapRelease (s : State) : State :=
  if s.clk.tapHeld then (s.modClk (fun c => { c with tapHeld := false })).railsBack else s

/-- The levels of the low-speed pins, one cell per pin of Table 18.5: free values. -/
def State.samplePins (s : State) : List Bool × State :=
  (List.range 69).foldl (fun (x : List Bool × State) _ => (x.1 ++ [x.2.freeVal 2 == 1], x.2.useFree)) ([], s)

/-- The boundary cells as they drive: the gates and preps of the transmitters observe only and stay low. -/
def driveCells (cells : List Bool) : List Bool :=
  (List.range 69).map (fun i => cells.getD i false && !(i == 36 || i == 37 || i == 39 || i == 40))

/-- TAP_RESET (R601): Test-Logic-Reset, which makes IDCODE the instruction. -/
def execTapReset (s : State) : Host.Outcome State Fault Refusal := .next (s.tapRelease.setTap 4 0x198405AF#32)

/-- BYPASS (R600): the one-bit bypass register is selected; it captures 0. -/
def execBypass (s : State) : Host.Outcome State Fault Refusal := .next (s.setTap 1 0#32)

/-- SAMPLE_PRELOAD (R600): the boundary register captures the pins, or is loaded. -/
def execSamplePreload (load : Option (List Bool)) (s : State) : Host.Outcome State Fault Refusal :=
  .next (match load with
    | some cells => (s.setTap 2 s.tap.dr).modTap (fun t => { t with boundary := (List.range 69).map (fun i => cells.getD i false) })
    | none =>
      let x := s.samplePins
      (x.2.setTap 2 x.2.tap.dr).modTap (fun t => { t with boundary := x.1 }))

/-- IDCODE (R600): the register is selected and reads 0x1984_05AF. -/
def execIdcode (s : State) : Host.Outcome State Fault Refusal :=
  .next ((s.setTap 4 0x198405AF#32).modReadData (fun _ => 0x198405AF#32))

/-- EXTEST (R601): the regions are held, the low-speed pins driven from the boundary cells. -/
def execExtest (s : State) : Host.Outcome State Fault Refusal :=
  .next ((s.tapHold.setTap 3 s.tap.dr).emit (.pinsDriven (driveCells s.tap.boundary)))

/-- CLAMP (R601): the pins held at their preloaded values, bypass selected. -/
def execClamp (s : State) : Host.Outcome State Fault Refusal :=
  .next ((s.tapHold.setTap 5 0#32).emit (.pinsDriven (driveCells s.tap.boundary)))

/-- HIGHZ (R601): the boundary-scanned outputs in high impedance, bypass selected. -/
def execHighz (s : State) : Host.Outcome State Fault Refusal := .next ((s.tapHold.setTap 6 0#32).emit .pinsHighZ)

end Sys2Proof.Machine
end

