-- ==== Sys2Proof/Machine/Classify.lean ====
section
/-! DEFINITION. The classifier's and the flow table's commands (R287 to R317). -/

namespace Sys2Proof.Machine

/-- CLS_DISABLE (R289). -/
def execClsDisable (s : State) : Host.Outcome State Fault Refusal := .next (s.pageOff pgCLS id)

/-- FRAME_CLASSIFY (R287, R293): the frame, or an earlier one of its origin that still waits; `saturated` says that the learn
engine is (R305). -/
def execFrameClassify (f : InFrame) (saturated : Bool) (s : State) : Host.Outcome State Fault Refusal :=
  .next (s.classify (s.dueFrame f) saturated)

/-- FOLLOW_TIMEOUT (R303): of an entry not used for CLS_FRAG_CFG.timeout. -/
def execFollowTimeout (idx : Nat) (s : State) : Host.Outcome State Fault Refusal :=
  .next (s.iff (s.followValid (idx % 16384) && s.followStale (idx % 16384)) (fun s => (s.followRemove (idx % 16384)).count (cuCLS + 14)))

/-- FLOW_AGE_SWEEP (R308): once every FLOW_AGE_CFG.sweep ms, the ager visits every entry. -/
def execFlowAgeSweep (s : State) : Host.Outcome State Fault Refusal :=
  .next (s.iff (s.works pgFLOW && s.flowSweepDue) (fun s => (s.flowEntries.foldl State.flowVisit s).modFlow (fun x => { x with
    swept := s.now + 1 })))

/-- FLOW_DISABLE (R314). -/
def execFlowDisable (s : State) : Host.Outcome State Fault Refusal := .next (s.pageOff pgFLOW id)

/-- FLOW_INSERT (R309). -/
def execFlowInsert (s : State) : Host.Outcome State Fault Refusal :=
  .next (s.guarded pgFLOW 0x03C (cmdAccess 1#32) (State.flowCommand 1))

/-- FLOW_DELETE (R309). -/
def execFlowDelete (s : State) : Host.Outcome State Fault Refusal :=
  .next (s.guarded pgFLOW 0x03C (cmdAccess 2#32) (State.flowCommand 2))

/-- FLOW_FIND (R309). -/
def execFlowFind (s : State) : Host.Outcome State Fault Refusal :=
  .next (s.guarded pgFLOW 0x03C (cmdAccess 3#32) (State.flowCommand 3))

/-- FLOW_CMD_DONE (R309). -/
def execFlowCmdDone (s : State) : Host.Outcome State Fault Refusal := .next s.flowDone

end Sys2Proof.Machine
end

