-- ==== Sys2Proof/Machine/Cores.lean ====
section
/-! DEFINITION. The commands of the control cores and the task scheduler (R481 to R496, R519, R522). -/

namespace Sys2Proof.Machine

/-- TASK_DISPATCH (R489, R490). -/
def execTaskDispatch (core task : Nat) (s : State) : Host.Outcome State Fault Refusal :=
  .next (s.taskDispatch (core % 16) (task % 1024))

/-- SLOT_PREFETCH (R489). -/
def execSlotPrefetch (core task : Nat) (s : State) : Host.Outcome State Fault Refusal :=
  .next (s.slotPrefetch (core % 16) (task % 1024))

/-- TASK_PREEMPT (R489). -/
def execTaskPreempt (core task : Nat) (s : State) : Host.Outcome State Fault Refusal :=
  .next (s.taskPreempt (core % 16) (task % 1024))

/-- TASK_END (R484). -/
def execTaskEnd (core : Nat) (s : State) : Host.Outcome State Fault Refusal := .next (s.taskEnd (core % 16))

/-- TASK_SETFLAG (R484, R486). -/
def execTaskSetflag (core task flag : Nat) (s : State) : Host.Outcome State Fault Refusal :=
  .next (s.iff (s.coreUp (core % 16)) (State.setTaskFlag (task % 1024) (flag % 32)))

/-- TASK_FLOW (R491). -/
def execTaskFlow (core flow : Nat) (held : Bool) (s : State) : Host.Outcome State Fault Refusal :=
  .next (s.taskFlow (core % 16) (flow % 65536) held)

/-- TSK_TIMER_EXPIRE (R488). -/
def execTskTimerExpire (timer : Nat) (s : State) : Host.Outcome State Fault Refusal := .next (s.timerExpire (timer % 16))

/-- TSK_SET (R522). -/
def execTskSet (task flag : Nat) (s : State) : Host.Outcome State Fault Refusal :=
  .next (s.guarded pgTSK 0x038 (cmdAccess (BitVec.ofNat 32 (task % 1024 + flag % 32 * 1024)))
    (State.tskSet (task % 1024) (flag % 32)))

/-- DISPATCH_LATE (R493). -/
def execDispatchLate (task : Nat) (s : State) : Host.Outcome State Fault Refusal :=
  .next (s.dispatchLate (task % 1024))

/-- WDOG_KICK (R484, R496). -/
def execWdogKick (core : Nat) (s : State) : Host.Outcome State Fault Refusal :=
  .next (s.iff (s.coreUp (core % 16)) (fun s => s.modCoreRun (core % 16) (fun x => { x with kick := s.now })))

/-- WATCHDOG_EXPIRE (R496). -/
def execWatchdogExpire (core : Nat) (s : State) : Host.Outcome State Fault Refusal := .next (s.watchdogExpire (core % 16))

/-- CORE_RELEASE (R496). -/
def execCoreRelease (mask : Nat) (s : State) : Host.Outcome State Fault Refusal :=
  .next (s.guarded pgCORE 0x038 (coreAccess (BitVec.ofNat 32 (mask % 65536))) (State.coreRelease (mask % 65536)))

/-- SRAM_UNCORRECTABLE (R482, R483): an access of an executing core to memory. -/
def execSramUncorrectable (core : Nat) (what : CoreAccess) (s : State) : Host.Outcome State Fault Refusal :=
  .next (s.iff (s.coreUp (core % 16)) (State.coreMemory (core % 16) what))

/-- CORE_RING_TAIL (R494): through the core window. -/
def execCoreRingTail (ring tail : Nat) (s : State) : Host.Outcome State Fault Refusal :=
  .next (s.coreRingTail (ring % 4) (tail % 65536))

/-- CORE_DISABLE (R519). -/
def execCoreDisable (s : State) : Host.Outcome State Fault Refusal := .next (s.pageOff pgCORE id)

/-- TSK_DISABLE (R522). -/
def execTskDisable (s : State) : Host.Outcome State Fault Refusal := .next (s.pageOff pgTSK id)

end Sys2Proof.Machine
end

