-- ==== Sys2Proof/Machine/Crypto.lean ====
section
/-! DEFINITION. The commands of the control crypto engine and of the keystore (R373 to R389). -/

namespace Sys2Proof.Machine

/-- A write of CCRY_CMD: the slot, and the command bits. -/
def State.ccryCmd (slot bits : Nat) (f : Nat → State → State) (s : State) : State :=
  s.guarded pgCCRY 0x038 (cmdAccess (BitVec.ofNat 32 (slot % 8 + bits))) (f (slot % 8))

/-- CCRY_START (R374). -/
def execCcryStart (slot : Nat) (s : State) : Host.Outcome State Fault Refusal := .next (s.ccryCmd slot 8 State.ccryStart)

/-- CCRY_ABORT (R386). -/
def execCcryAbort (slot : Nat) (s : State) : Host.Outcome State Fault Refusal := .next (s.ccryCmd slot 16 State.ccryAbort)

/-- CCRY_EXPORT (R376). -/
def execCcryExport (slot : Nat) (wrapped : Bool) (s : State) : Host.Outcome State Fault Refusal :=
  .next (s.ccryCmd slot (32 + 128 * b2n wrapped) (fun k s => s.ccryExport k wrapped))

/-- CCRY_IMPORT (R376). -/
def execCcryImport (slot : Nat) (s : State) : Host.Outcome State Fault Refusal := .next (s.ccryCmd slot 64 State.ccryImport)

/-- CCRY_JOB_DONE (R374, R375): the job running in a slot comes to the end of its input. -/
def execCcryJobDone (slot : Nat) (s : State) : Host.Outcome State Fault Refusal := .next (s.ccryDone (slot % 8))

/-- CCRY_DISABLE (R386). -/
def execCcryDisable (s : State) : Host.Outcome State Fault Refusal := .next (s.pageOff pgCCRY State.ccryStop)

/-- KST_CMD written through the core window; with the page disabled it is ignored (R381, R388). -/
def State.kstCmd (bits : Nat) (f : State → State) (s : State) : State :=
  s.guarded pgKST 0x038 (coreAccess (BitVec.ofNat 32 bits)) (fun s => if s.enabled pgKST then f s else s.ignored pgKST 0x038 1)

/-- KST_COMMIT (R381). -/
def execKstCommit (s : State) : Host.Outcome State Fault Refusal := .next (s.kstCmd 1 State.kstCommit)

/-- KST_COMMIT_DONE (R381): `ok` says that the slot read back as written. -/
def execKstCommitDone (ok : Bool) (s : State) : Host.Outcome State Fault Refusal := .next (s.kstCommitDone ok)

/-- KST_GENKEY (R382). -/
def execKstGenkey (s : State) : Host.Outcome State Fault Refusal := .next (s.kstCmd 2 State.kstGenkey)

/-- KST_GENKEY_DONE (R382). -/
def execKstGenkeyDone (s : State) : Host.Outcome State Fault Refusal := .next s.kstGenkeyDone

/-- KST_DISABLE (R388): an update in progress completes. -/
def execKstDisable (s : State) : Host.Outcome State Fault Refusal := .next (s.pageOff pgKST id)

end Sys2Proof.Machine
end

