-- ==== Sys2Proof/Machine/DualHoming.lean ====
section
/-! DEFINITION. The dual-homing unit's commands (R222 to R247). -/

namespace Sys2Proof.Machine

/-- DUAL_DISABLE (R231): the unit stops; its merge contexts stay as they are. -/
def execDualDisable (s : State) : Host.Outcome State Fault Refusal := .next (s.pageOff pgDUAL id)

/-- MERGE_FRAGMENT (R229, R232): the receiver's next fragment is a protected one. The merge passes it on to line security or
drops it with its cells. -/
def execMergeFragment (r : Rx) (s : State) : Host.Outcome State Fault Refusal :=
  .next (match s.lineNext r with
    | some f =>
      if f.mark || !f.head.prot then s
      else if !s.works pgDUAL then (s.count (cuDUAL + 17)).passLine f false
      else
        let x := s.merge (rxTree r) f.stream f.head.sequence f.head.last
        x.1.passLine f x.2
    | none => s)

/-- DUAL_UNPROTECTED (R230): the receiver's next fragment is an unprotected one. -/
def execDualUnprotected (r : Rx) (s : State) : Host.Outcome State Fault Refusal :=
  .next (match s.lineNext r with
    | some f =>
      if f.mark || f.head.prot then s
      else if !s.works pgDUAL then (s.count (cuDUAL + 17)).passLine f false
      else s.unprotected f
    | none => s)

/-- DUAL_BREAK_MARKER (R144, R230): the receiver's break marker arrives behind the fragments sent before it. -/
def execDualBreakMarker (r : Rx) (s : State) : Host.Outcome State Fault Refusal :=
  .next (match s.lineNext r with
    | some f => if f.mark then (s.modDual (fun d => { d with inbox := d.inbox.erase f })).breakMarker r else s
    | none => s)

/-- MERGE_IDLE_RESET (R233): idle-reset timers run only while the unit is enabled (R231). -/
def execMergeIdleReset (stream : Nat) (s : State) : Host.Outcome State Fault Refusal :=
  .next (s.iff (s.works pgDUAL && s.ctxValid stream) (State.dropMerge stream))

/-- DUAL_FLUSH (R233, R244). -/
def execDualFlush (s : State) : Host.Outcome State Fault Refusal :=
  .next (s.guarded pgDUAL 0x064 (cmdAccess 1#32) State.flushMerge)

/-- DUAL_SKEW_UPDATE (R236). -/
def execDualSkewUpdate (s : State) : Host.Outcome State Fault Refusal := .next (s.iff (s.alive pgDUAL) State.skewUpdate)

/-- COPY_WITHDRAW (R239). -/
def execCopyWithdraw (t : Tree) (s : State) : Host.Outcome State Fault Refusal := .next (s.withdrawCopies t)

/-- SEL_WTR_EXPIRE (R237 step 4). -/
def execSelWtrExpire (s : State) : Host.Outcome State Fault Refusal := .next s.selRestore

/-- A CLAIM_CONFLICT's body (Table 7.3): the winner, then the loser. -/
def State.conflictBody (s : State) (win : Tree) : Bytes :=
  let half := fun (t : Tree) => natBE 8 (s.claimEpoch t) ++ natBE 6 (s.claimHe t) ++ natBE 1 (treeIx t) ++ natBE 1 0
  half win ++ half (otherTree win)

/-- A CLAIM_CONFLICT queued on a tree where one is due and none has been sent in this superframe (R241). -/
def State.sendConflict (t : Tree) (s : State) : State :=
  match s.dual.conflict with
  | some (win, _, _) =>
    if s.dual.conflictDue.get t && !s.dual.conflictSent.get t && s.registered t && s.tmcPath t then
      let id := (s.acts t).nextTransaction
      let s := s.modActs t (fun a => { a with nextTransaction := (a.nextTransaction + 1) % 65536 })
      let s := s.modDual (fun d => { d with conflictDue := d.conflictDue.mod t (fun _ => false)
                                            conflictSent := d.conflictSent.mod t (fun _ => true) })
      s.tmcRequest t 0x41 id 1 (s.conflictBody win)
    else s
  | none => s

/-- CLAIM_CONFLICT_SEND (R241). -/
def execClaimConflictSend (s : State) : Host.Outcome State Fault Refusal := .next ((s.sendConflict .a).sendConflict .b)

end Sys2Proof.Machine
end

