-- ==== Sys2Proof/Machine/Flash.lean ====
section
/-! DEFINITION. The commands of the flash, the boot and the Punty transfer (R497 to R518, R525). -/

namespace Sys2Proof.Machine

/-- The plain access of a command bit through a window. -/
def windowAccess (w : Window) (v : Word) : Access := ⟨w, .normal, 15#4, v⟩

/-- FLASH_READ (R499, R500). -/
def execFlashRead (win : Window) (s : State) : Host.Outcome State Fault Refusal :=
  .next (s.guarded pgFLSH 0x038 (windowAccess win 1#32) (State.flashCommand win 1 false))

/-- FLASH_PROGRAM (R499, R500). -/
def execFlashProgram (win : Window) (fromStage : Bool) (s : State) : Host.Outcome State Fault Refusal :=
  .next (s.guarded pgFLSH 0x038 (windowAccess win (BitVec.ofNat 32 (2 + 8 * b2n fromStage)))
    (State.flashCommand win 2 fromStage))

/-- FLASH_ERASE (R511). -/
def execFlashErase (win : Window) (s : State) : Host.Outcome State Fault Refusal :=
  .next (s.guarded pgFLSH 0x038 (windowAccess win 3#32) (State.flashCommand win 3 false))

/-- PAGE_LOAD (R508). -/
def execPageLoad (win : Window) (s : State) : Host.Outcome State Fault Refusal :=
  .next (s.guarded pgFLSH 0x038 (windowAccess win 4#32) (State.flashCommand win 4 false))

/-- FLASH_OP_DONE (R499). -/
def execFlashOpDone (ok : Bool) (s : State) : Host.Outcome State Fault Refusal := .next (s.flashOpDone ok)

/-- FLASH_ERASE_DONE (R511). -/
def execFlashEraseDone (blank : Bool) (s : State) : Host.Outcome State Fault Refusal := .next (s.flashEraseDone blank)

/-- FLSH_DISABLE (R525). -/
def execFlshDisable (s : State) : Host.Outcome State Fault Refusal := .next (s.pageOff pgFLSH id)

/-- BOOT (R505, R511, R512). -/
def execBoot (suspended : Bool) (bad : List Nat) (s : State) : Host.Outcome State Fault Refusal := .next (s.boot suspended bad)

/-- BOOT_CONFIRM (R506): through the core window. -/
def execBootConfirm (s : State) : Host.Outcome State Fault Refusal :=
  .next (s.guarded pgFLSH 0x04C (coreAccess 1#32) State.bootConfirm)

/-- BOOT_RETRY (R506). -/
def execBootRetry (s : State) : Host.Outcome State Fault Refusal :=
  .next (s.guarded pgFLSH 0x04C (cmdAccess 2#32) State.bootRetry)

/-- PUNTY_ARM (R517): through the core window. -/
def execPuntyArm (handover : Nat) (s : State) : Host.Outcome State Fault Refusal :=
  .next (s.guarded pgCORE 0x040 (coreAccess 1#32) (State.puntyArm handover))

/-- PUNTY_LOAD (R517). -/
def execPuntyLoad (s : State) : Host.Outcome State Fault Refusal := .next s.puntyLoad

/-- PUNTY_READY (R517): through the core window. -/
def execPuntyReady (s : State) : Host.Outcome State Fault Refusal :=
  .next (s.guarded pgCORE 0x040 (coreAccess 2#32) State.puntyReady)

/-- PUNTY_COMMIT (R517): through the core window. -/
def execPuntyCommit (s : State) : Host.Outcome State Fault Refusal :=
  .next (s.guarded pgCORE 0x040 (coreAccess 4#32) State.puntyCommit)

/-- PUNTY_FLIP (R517). -/
def execPuntyFlip (s : State) : Host.Outcome State Fault Refusal := .next s.puntyFlip

/-- PUNTY_ABORT (R518): through the core window. -/
def execPuntyAbort (s : State) : Host.Outcome State Fault Refusal :=
  .next (s.guarded pgCORE 0x040 (coreAccess 8#32) (State.puntyAbort 4))

/-- PUNTY_FREEZE_TIMEOUT (R518). -/
def execPuntyFreezeTimeout (s : State) : Host.Outcome State Fault Refusal :=
  .next (s.iff (s.fld pgCORE CORE.puntyState == 4) (State.puntyAbort 1))

end Sys2Proof.Machine
end

