-- ==== Sys2Proof/Machine/Framer.lean ====
section
/-! DEFINITION. The framer's commands (R123 to R154). Each is the event at a framer that runs; at one that does not run it
changes nothing. -/

namespace Sys2Proof.Machine

/-- FRM_ENABLE (R149): the machines start in HUNT, and LOS stands at once where the receiver is not locked. -/
def execFrmEnable (r : Rx) (s : State) : Host.Outcome State Fault Refusal :=
  .next (s.pageOn (pgFRM r) (State.lineDo r (State.frmStart r)))

/-- FRM_DISABLE (R152). -/
def execFrmDisable (r : Rx) (s : State) : Host.Outcome State Fault Refusal :=
  .next (s.pageOff (pgFRM r) (State.lineDo r (State.frmStop r)))

/-- ALIGN_CODEWORD (R139): a codeword period of a locked receiver. -/
def execAlignCodeword (r : Rx) (bits : List Bool) (s : State) : Host.Outcome State Fault Refusal :=
  .next (s.iff (s.works (pgFRM r) && s.locked r) (State.lineDo r (State.alignStep r (syndromeWeight (s.rxBits r bits)))))

/-- A frame of the tree's control receiver has started: the time front takes it (R395). -/
def State.controlFrame (r : Rx) (s : State) : State :=
  let t := rxTree r
  s.iff (s.controlRx t == some r && s.hdrSync r) (State.frontFrame t (s.frms r).frameFc)

/-- A tree that a WAKE has reached is in Operational from the next frame of its control receiver on (R211). -/
def State.wakeFrame (r : Rx) (s : State) : State :=
  let t := rxTree r
  s.iff ((s.acts t).wakeDue && s.mode t == 5 && s.controlRx t == some r && s.hdrSync r && s.firmware)
    (State.setMode t 4)

/-- FRAME_HEADER (R140): the first 32 bytes of the codeword decoded last, where a header is looked for or predicted. -/
def execFrameHeader (r : Rx) (s : State) : Host.Outcome State Fault Refusal :=
  .next (s.iff (s.works (pgFRM r) && s.locked r && s.alignSt r == 2) (fun s =>
    ((s.wakeFrame r).lineDo r (State.headerStep r (frameHdr ((s.frms r).block.take 32)))).controlFrame r))

/-- A grant that has entered the pending table at index `i`: the halyard frame in its way, the window checker, the
transmitter's domain (R110, R180, R531). -/
def State.grantEntered (t : Tree) (i : Nat) (s : State) : State :=
  let t0 := s.pendT0 t i
  let s := (s.halGrantAccepted t t0).modTxs t (fun x =>
    { x with windows := (t0 - s.gateAdv t, s.pendE t i) :: x.windows })
  s.wakeDomain (2 + 5 * treeIx t) (pgGRT t)

/-- GRANT_ENTRY (R127, R131 to R134, R248 to R251): the next of the gm_entries entries of a frame whose map the framer delivers.
gm_error is raised, at most once per ms, for a discarded entry as for an ignored map (DESIGN CHOICE, log entry 102). -/
def execGrantEntry (r : Rx) (bytes : Bytes) (s : State) : Host.Outcome State Fault Refusal :=
  let t := rxTree r
  let g := grantEntry bytes
  let f := s.frms r
  .next (if s.frmDelivers r && f.mapOk && f.entriesLeft != 0 then
    let s := s.modFrms r (fun f => { f with entriesLeft := f.entriesLeft - 1 })
    (if g.accepted then
      (match (s.count (cuFRM r + 4)).grantReceive t g f.frameFc (grantSpan f.tF (s.eqdFor t f.frameFc) g.start g.length) with
       | (s, some i) => s.grantEntered t i
       | (s, none) => s)
     else (s.count (cuFRM r + 5)).raiseMs (pgFRM r) 16)
  else s)

/-- FRAGMENT_HEADER (R142 to R144): eight bytes of the fragment area, where a header stands or is looked for, once frames are
known. -/
def execFragmentHeader (r : Rx) (pos : Nat) (bytes : Bytes) (s : State) : Host.Outcome State Fault Refusal :=
  .next (s.iff (s.works (pgFRM r) && s.hdrSt r != 0) (State.lineDo r (State.fragStep r pos bytes)))

/-- FRAGMENT_RECEIVE (R133, R136 to R138): the payload of the fragment in progress is whole. A data fragment goes to the
dual-homing unit with its header; a TMC fragment to its receive ring, its frame counter kept for the message's tag (R141). -/
def execFragmentReceive (r : Rx) (payload : Bytes) (s : State) : Host.Outcome State Fault Refusal :=
  .next (match s.fragReceive r payload with
    | (s, .none) => s
    | (s, .data fc hdr pl) => s.receiveLine r fc hdr pl
    | (s, .tmc fc pl) => (s.noteTmc (rxTree r) fc pl).tmcRing (rxTree r) pl)

/-- LOS_CLEAR (R149, R150): the receiver has been locked for los_clear frames. -/
def execLosClear (r : Rx) (s : State) : Host.Outcome State Fault Refusal :=
  .next (s.iff (s.works (pgFRM r) && s.los r && s.locked r &&
      s.framesPassed (s.rxs r).lockedAt (s.fld (pgFRM r) FRM.defTimeLosClear)) (State.lineDo r (fun s =>
    ((s.setFld (pgFRM r) FRM.defectLos 0 |>.setFld (pgFRM r) FRM.defectLof 0).modFrms r (fun f =>
      { f with lofFrom := s.now })).raise (pgFRM r) 6)))

/-- LOF_DECLARE (R149): header SYNC has not come within lof_set frames of LOS clearing or of the page being enabled. -/
def execLofDeclare (r : Rx) (s : State) : Host.Outcome State Fault Refusal :=
  .next (s.iff (s.works (pgFRM r) && !s.los r && !s.lof r && s.hdrSt r != 2 &&
      s.framesPassed (s.frms r).lofFrom (s.fld (pgFRM r) FRM.defTimeLofSet)) (State.lineDo r (State.lofDeclare r)))

/-- LOF_CLEAR (R149): the header machine has been in SYNC for lof_clear frames. -/
def execLofClear (r : Rx) (s : State) : Host.Outcome State Fault Refusal :=
  .next (s.iff (s.works (pgFRM r) && !s.los r && s.lof r && s.hdrSt r == 2 &&
      s.framesPassed (s.frms r).syncAt (s.fld (pgFRM r) FRM.defTimeLofClear)) (State.lineDo r (fun s =>
    (s.setFld (pgFRM r) FRM.defectLof 0).raise (pgFRM r) 8)))

/-- DEFECT_WINDOW_END (R149, R150): a window boundary. -/
def execDefectWindowEnd (r : Rx) (s : State) : Host.Outcome State Fault Refusal :=
  .next (s.iff (s.works (pgFRM r)) (State.lineDo r (State.windowBoundary r)))

end Sys2Proof.Machine
end

