-- ==== Sys2Proof/Machine/Halyard.lean ====
section
/-! DEFINITION. The halyard units' commands (R162 to R189), and what the tree-mode machine does with each message received
(R202, R211, R213). -/

namespace Sys2Proof.Machine

/-- HAL_DISABLE (R186). -/
def execHalDisable (t : Tree) (s : State) : Host.Outcome State Fault Refusal :=
  .next (s.pageOff (pgHAL t) (State.halStop t))

/-- HAL_PREAMBLE_DETECT (R172): the AGC freezes at a gain. -/
def execHalPreambleDetect (t : Tree) (gain : Nat) (s : State) : Host.Outcome State Fault Refusal := .next (s.halDetect t gain)

/-- HAL_SYNC_FOUND (R172): the reference point stands in frame `fc` at offset `ofs`. -/
def execHalSyncFound (t : Tree) (fc ofs : Nat) (s : State) : Host.Outcome State Fault Refusal :=
  .next (s.modHals t (fun h => { h with rx := h.rx.map (fun _ => { fc := fc, ofs := ofs }) }))

/-- HAL_SYNC_MISS (R172). -/
def execHalSyncMiss (t : Tree) (s : State) : Host.Outcome State Fault Refusal := .next (s.halHeaderFail t)

/-- HAL_HEADER (R166, R168): the header's two symbols as received. -/
def execHalHeader (t : Tree) (syms : List Nat) (s : State) : Host.Outcome State Fault Refusal :=
  .next (match halHeader (symsBytes syms) with
    | some h => s.modHals t (fun x => { x with rx := x.rx.map (fun r => { r with header := some h }) })
    | none => s.halHeaderFail t)

/-- HAL_FRAME_END (R170, R174, R175). -/
def execHalFrameEnd (t : Tree) (syms : List Nat) (level : Nat) (s : State) : Host.Outcome State Fault Refusal :=
  .next (s.halFrameEnd t syms level)

/-- HAL_AGC_TIMEOUT (R172): counted where the AGC is frozen. -/
def execHalAgcTimeout (t : Tree) (s : State) : Host.Outcome State Fault Refusal :=
  .next (s.iff (s.flag (pgHAL t) HAL.statusAgcFrozen) (fun s => (s.halRelease t).count (cuHAL t + 11)))

/-- HAL_RX_ACTIVE_LOST (R171, R173): rx_active is judged, and falls where no receiver of the tree qualifies. -/
def execHalRxActiveLost (t : Tree) (s : State) : Host.Outcome State Fault Refusal := .next (s.halJudge t)

/-- HAL_RX_SYNC_TIMEOUT (R175). -/
def execHalRxSyncTimeout (t : Tree) (s : State) : Host.Outcome State Fault Refusal :=
  .next (s.iff (s.halWorks t) (State.halSync t false))

/-- The superframe that the control receiver's frame belongs to. -/
def State.treeSuperframe (s : State) (t : Tree) : Nat :=
  match s.controlRx t with
  | some r => s.frmFc r / 8000
  | none => 0

/-- A DISCOVERY_RESPONSE answers a BEACON (R202 steps 2 and 3). Its slot byte is the k that the unit draws (log entry
36). -/
def State.discover (t : Tree) (payload : Bytes) (s : State) : State :=
  let slots := byteAt payload 13
  let fc := fieldAt payload 14 4
  let p := pgHAL t
  let s := (s.setFld p HAL.cfgUpOffset (fieldAt payload 10 2)).halOffsetJudge t (s.halOffsetsOk t)
  let s := s.modActs t (fun a => { a with beaconSf := some (s.treeSuperframe t) })
  let k := s.freeVal (max 1 (min 64 slots))
  let flags := b2n (s.flag pgSUP SUP.statusBattery) * 128 + b2n (s.flag pgSUP SUP.statusSupplyWarning) * 64
  let body := natBE 8 (s.serial t) ++ natBE 4 fc ++ natBE 1 k ++ natBE 1 flags ++
    natBE 2 (unsigned 16 (s.halReference t)) ++ natBE 2 0
  let sent := (s.halSlotFor t 0x21).isSome
  (s.halSend t 0x21 2 fc 0 slots body).iff sent (State.count (cuACT t + 2))

/-- BEACON (R202): with invite, a Listening tree that may hail enters Hailing; a Hailing tree answers at most once per
superframe until a RANGE_REQUEST has arrived. -/
def execBeacon (t : Tree) (payload : Bytes) (s : State) : Host.Outcome State Fault Refusal :=
  let invite := byteAt payload 12 / 128 == 1
  let hail := s.mode t == 1 && s.flag (pgACT t) ACT.cfgAutoHail && !s.registered t
  let again := s.mode t == 2 && !(s.acts t).ranged && (s.acts t).beaconSf != some (s.treeSuperframe t)
  .next (s.iff (s.actWorks t && s.firmware && invite && (hail || again)) (fun s => (s.iff hail (State.setMode t 2)).discover t payload))

/-- RANGE_REQUEST (R202 step 4): in Hailing, an addressed request is answered by a timed RANGE_RESPONSE. -/
def execRangeRequest (t : Tree) (payload : Bytes) (s : State) : Host.Outcome State Fault Refusal :=
  .next (s.iff (s.actWorks t && s.mode t == 2 && s.halAddressed t 2 payload) (fun s =>
    (s.modActs t (fun a => { a with ranged := true })).halSend t 0x22 1 (fieldAt payload 8 4) (fieldAt payload 12 3) 0
      (natBE 8 (s.serial t) ++ natBE 4 (fieldAt payload 8 4))))

/-- WAKE (R211): a Parked tree that is addressed submits a WAKE_REQUEST, and enters Operational at the next frame. -/
def execWake (t : Tree) (payload : Bytes) (s : State) : Host.Outcome State Fault Refusal :=
  .next (s.iff (s.actWorks t && s.mode t == 5 && s.halAddressed t 3 payload) (fun s =>
    (s.wakeRequest t 2 (fieldAt payload 4 2)).modActs t (fun a => { a with wakeDue := true })))

/-- NOTICE_ACK (R213). -/
def execNoticeAck (t : Tree) (payload : Bytes) (s : State) : Host.Outcome State Fault Refusal :=
  .next (s.iff (s.actWorks t && s.halAddressed t 4 payload) (State.ackNotice t (fieldAt payload 2 2)))

/-- HAL_TX_CMD.submit: ignored where the slot is queued, committed or on the pins (R176, R187). -/
def State.halSubmitCmd (t : Tree) (k : Nat) (s : State) : State :=
  let st := s.fld (pgHAL t) (halStateFld k)
  if st = 1 ∨ st = 2 then s.ignored (pgHAL t) 0x048 1 else s.halSubmit t k

/-- HAL_SUBMIT (R176, R187). -/
def execHalSubmit (t : Tree) (slot : Nat) (s : State) : Host.Outcome State Fault Refusal :=
  .next (s.guarded (pgHAL t) 0x048 (cmdAccess (BitVec.ofNat 32 (slot % 4 + 0x100))) (State.halSubmitCmd t (slot % 4)))

/-- HAL_CANCEL (R186). -/
def execHalCancel (t : Tree) (slot : Nat) (s : State) : Host.Outcome State Fault Refusal :=
  .next (s.guarded (pgHAL t) 0x048 (cmdAccess (BitVec.ofNat 32 (slot % 4 + 0x200))) (State.halCancel t (slot % 4)))

/-- HAL_COMMIT (R179). -/
def execHalCommit (t : Tree) (slot : Nat) (s : State) : Host.Outcome State Fault Refusal :=
  .next (s.iff (s.halWorks t) (State.halCommit t slot))

/-- HAL_TX_START (R177). -/
def execHalTxStart (t : Tree) (slot : Nat) (s : State) : Host.Outcome State Fault Refusal := .next (s.halStart t slot)

/-- HAL_TX_END (R177): a NOTICE sent whole is noted by the tree-mode machine. -/
def execHalTxEnd (t : Tree) (slot : Nat) (s : State) : Host.Outcome State Fault Refusal :=
  .next (match s.halJob t slot with
    | some j => (s.halEnd t slot).iff (j.onPins && j.cut.isNone && j.kind == 0x23) (State.halNoticeSent t j.payload)
    | none => s)

end Sys2Proof.Machine
end

