-- ==== Sys2Proof/Machine/HostIf.lean ====
section
/-! DEFINITION. The commands of the host interface and its DMA engine (R449 to R480). -/

namespace Sys2Proof.Machine

/-- PERST_ASSERT (R450). -/
def execPerstAssert (s : State) : Host.Outcome State Fault Refusal := .next (s.iff (!s.padOpen 43) State.perstAssert)

/-- PERST_DEASSERT (R449): `strap` is HOST_FORM. -/
def execPerstDeassert (strap : Bool) (s : State) : Host.Outcome State Fault Refusal :=
  .next (s.iff (!s.padOpen 43) (State.perstDeassert strap))

/-- PCIE_CONFIG_WRITE (R455). -/
def execPcieConfigWrite (fn : Nat) (w : CfgWrite) (s : State) : Host.Outcome State Fault Refusal :=
  .next (s.configWrite (fn % 256) w)

/-- MSIX_UNMASK (R459): a vector's mask, or with `none` the function's. -/
def execMsixUnmask (fn : Nat) (vec : Option Nat) (s : State) : Host.Outcome State Fault Refusal :=
  .next (s.msixUnmask (fn % 256) (vec.map (· % 2048)))

/-- FUNCTION_LEVEL_RESET (R466). -/
def execFunctionLevelReset (fn : Nat) (s : State) : Host.Outcome State Fault Refusal := .next (s.flr (fn % 256))

/-- FLR_COMPLETE (R466). -/
def execFlrComplete (fn : Nat) (s : State) : Host.Outcome State Fault Refusal := .next (s.flrComplete (fn % 256))

/-- RING_TAIL_WRITE (R461). -/
def execRingTailWrite (fn : Nat) (rx : Bool) (k tail : Nat) (s : State) : Host.Outcome State Fault Refusal :=
  .next (s.ringTail (fn % 256) rx (k % 32) (tail % 65536))

/-- RING_DISABLE (R457). -/
def execRingDisable (fn : Nat) (rx : Bool) (k : Nat) (s : State) : Host.Outcome State Fault Refusal :=
  .next (s.ringDisable (fn % 256) rx (k % 32))

/-- RING_DRAINED (R457). -/
def execRingDrained (fn : Nat) (rx : Bool) (k : Nat) (s : State) : Host.Outcome State Fault Refusal :=
  .next (s.ringDrained (fn % 256) rx (k % 32))

/-- RING_RESTART (R462). -/
def execRingRestart (fn k : Nat) (s : State) : Host.Outcome State Fault Refusal :=
  .next (s.ringRestart (fn % 256) (k % 32))

/-- RING_SKIP (R462). -/
def execRingSkip (fn k : Nat) (s : State) : Host.Outcome State Fault Refusal := .next (s.ringSkip (fn % 256) (k % 32))

/-- FUNC_STATUS_CLEAR (R456). -/
def execFuncStatusClear (fn : Nat) (s : State) : Host.Outcome State Fault Refusal :=
  .next (s.iff (s.windowOpen (fn % 256)) (State.modFn (fn % 256) (fun x => { x with ignored := 0 })))

/-- DMA_TX_FRAME (R461): `entries` are the ring's entries from its head on, as host memory holds them. -/
def execDmaTxFrame (fn k : Nat) (entries : List Bytes) (s : State) : Host.Outcome State Fault Refusal :=
  .next (s.dmaTxFrame (fn % 256) (k % 32) entries)

/-- DMA_SEG_COMPLETE (R461, R462). -/
def execDmaSegComplete (fn k : Nat) (c : SegCompletion) (s : State) : Host.Outcome State Fault Refusal :=
  .next (s.segComplete (fn % 256) (k % 32) c)

/-- DMA_RX_WRITE (R464): `bufs` are the receive ring's entries from its head on, as host memory holds them. -/
def execDmaRxWrite (fn cls : Nat) (bufs : List Bytes) (s : State) : Host.Outcome State Fault Refusal :=
  .next (s.dmaRxWrite (fn % 256) (cls % 16) bufs)

/-- MSIX_MODERATION (R465). -/
def execMsixModeration (fn : Nat) (rx : Bool) (k : Nat) (s : State) : Host.Outcome State Fault Refusal :=
  .next (s.moderationEnd (fn % 256) rx (k % 32))

/-- DMA_DISABLE (R479): every ring behaves as if its enable were 0. -/
def execDmaDisable (s : State) : Host.Outcome State Fault Refusal :=
  .next (s.pageOff pgDMA (fun s => s.openRings.foldl (fun s x => s.drainRing x.1 x.2.1 x.2.2 false) s))

/-- L1_ENTRY (R467, R468). -/
def execL1Entry (idle : Nat) (s : State) : Host.Outcome State Fault Refusal := .next (s.l1Entry idle)

/-- L1_EXIT (R467). -/
def execL1Exit (s : State) : Host.Outcome State Fault Refusal := .next s.l1Exit

/-- WAKE_CAUSE_LATCH (R469): cause 0 host_traffic, 1 pennant, 2 keeper. -/
def execWakeCauseLatch (cause fn : Nat) (s : State) : Host.Outcome State Fault Refusal :=
  .next (s.wakeCause cause (fn % 256))

/-- PME_SEND (R471). -/
def execPmeSend (s : State) : Host.Outcome State Fault Refusal := .next s.pmeSend

/-- HIF_WAKE_CAUSE.clear: the causes whose bits are set (R471). -/
def State.wakeClear (bits : Nat) (s : State) : State :=
  ([0, 1, 2].foldl (fun s b => s.iff (bits.testBit b) (State.setFld pgHIF ⟨0x044, b, b⟩ 0)) s).modHif (fun h => { h with
    latched := h.latched.filter (fun x => !bits.testBit x.1) })

/-- WAKE_CAUSE_CLEAR (R471). -/
def execWakeCauseClear (bits : Nat) (s : State) : Host.Outcome State Fault Refusal :=
  .next (s.guarded pgHIF 0x044 (cmdAccess (BitVec.ofNat 32 (bits % 8 * 256))) (State.wakeClear bits))

/-- NARROW_REQUEST (R472). -/
def execNarrowRequest (util ms : Nat) (s : State) : Host.Outcome State Fault Refusal := .next (s.narrowRequest util ms)

/-- NARROW_WITHDRAW (R473). -/
def execNarrowWithdraw (width rate : Nat) (s : State) : Host.Outcome State Fault Refusal :=
  .next (s.narrowWithdraw width rate)

/-- NARROW_RETRY (R473). -/
def execNarrowRetry (util ms : Nat) (s : State) : Host.Outcome State Fault Refusal := .next (s.narrowRetry util ms)

/-- CXL_ENUMERATE (R475). -/
def execCxlEnumerate (s : State) : Host.Outcome State Fault Refusal := .next (s.pageOn pgHIF State.cxlStart)

/-- CXL_ENUM_DONE (R475): `res` as enum_result. -/
def execCxlEnumDone (res capacity speed width : Nat) (s : State) : Host.Outcome State Fault Refusal :=
  .next (s.cxlEnumDone res capacity speed width)

/-- CXL_LINK_DOWN (R476). -/
def execCxlLinkDown (s : State) : Host.Outcome State Fault Refusal :=
  .next (s.iff (s.flag pgHIF HIF.cxlStatusLinkUp) (fun s => s.cxlDown.cxlAgain))

/-- HIF_DISABLE (R475). -/
def execHifDisable (s : State) : Host.Outcome State Fault Refusal := .next (s.pageOff pgHIF State.cxlStop)

/-- COMPLETION_TIMEOUT (R462). -/
def execCompletionTimeout (fn k : Nat) (s : State) : Host.Outcome State Fault Refusal :=
  .next (match (s.ring (fn % 256) false (k % 32)).job with
    | some j => s.gatherFault (fn % 256) (k % 32) j 4
    | none => s)

/-- PCIE_LINK_DOWN (R470): down, or with `l2` into L2. -/
def execPcieLinkDown (l2 : Bool) (s : State) : Host.Outcome State Fault Refusal := .next (s.pcieDown l2)

/-- PCIE_RECOVERY (R478): the width and rate that the link trains to, and the correctable errors that AER logs with it. -/
def execPcieRecovery (width rate errors : Nat) (s : State) : Host.Outcome State Fault Refusal :=
  .next (s.recovery width rate errors)

/-- CXL_DEVICE_ERROR (R476). -/
def execCxlDeviceError (s : State) : Host.Outcome State Fault Refusal := .next (s.count (cuHIF + 15))

end Sys2Proof.Machine
end

