-- ==== Sys2Proof/Machine/LineSecurity.lean ====
section
/-! DEFINITION. Line security's commands (R357 to R365, R383), and the frames that fragments make (R230, R288). -/

namespace Sys2Proof.Machine

/-- A whole frame of a receiver handed to the classifier, with the cells that hold it: its bytes stand without the FCS, its
length counts it (R288, R433). -/
def State.handLine (r : Rx) (tenant service : Nat) (bytes : Bytes) (cells : List Nat) (s : State) : State :=
  let id := s.sto.nextId
  let f : InFrame := { id := id, srcKind := 1, srcNum := rxIx r, tenant := tenant, service := service,
                       bytes := bytes, length := bytes.length + 4, tag := none }
  let n := cellsOf bytes.length
  let s := s.returnCells tenant (cells.drop n)
  (s.modSto (fun x => { x with nextId := id + 1, lineCells := Sparse.put (0, []) id (tenant, cells.take n) x.lineCells })).modCls
    (fun x => { x with handed := x.handed ++ [f] })

/-- A fragment's plaintext joins its frame, `none` where line security dropped it: a protected fragment is a whole frame;
an unprotected frame with a dropped fragment goes (R229, R230). -/
def State.joinFragment (f : LineFrag) (pt : Option Bytes) (s : State) : State :=
  let h := f.head
  let k := f.key
  let parts := Sparse.get [] s.dual.parts k
  match pt with
  | some b =>
    if h.prot then s.handLine f.r h.tenant h.service b f.cells
    else if Sparse.get false s.dual.broken k then (s.freeLine f).iff h.last (State.dropPlain k)
    else
      let cells := s.partCells k ++ f.cells
      if h.last then (s.clearParts k).handLine f.r h.tenant h.service (parts ++ b) cells
      else
        let n := cellsOf (parts ++ b).length
        (s.returnCells h.tenant (cells.drop n)).modDual (fun d => { d with
          parts := Sparse.put [] k (parts ++ b) d.parts, partCells := Sparse.put [] k (cells.take n) d.partCells })
  | none =>
    let s := s.freeLine f
    if h.prot then s
    else if h.last then s.dropPlain k
    else s.modDual (fun d => { d with broken := Sparse.put false k true d.broken })

/-- LSEC_DECRYPT (R363): the receiver's next data fragment that the dual-homing unit has passed. -/
def execLsecDecrypt (r : Rx) (s : State) : Host.Outcome State Fault Refusal :=
  .next (match s.linePassed r with
    | some f =>
      let s := s.modDual (fun d => { d with passed := d.passed.erase f })
      let x := s.lsecDown (downCtx (rxTree r) f.head.tenant) f.fc f.hdr f.payload
      x.1.joinFragment f x.2
    | none => s)

/-- KEY_SWITCH (R362): a frame start of the tree's control receiver. -/
def execKeySwitch (ctx : Nat) (s : State) : Host.Outcome State Fault Refusal :=
  let c := ctx % 1024
  let t : Tree := if c < 512 then .a else .b
  .next (s.iff (s.controlRx t).isSome (State.keySwitch c (s.treeFc t)))

/-- LSEC_DISABLE (R383). -/
def execLsecDisable (s : State) : Host.Outcome State Fault Refusal := .next (s.pageOff pgLSEC id)

end Sys2Proof.Machine
end

