-- ==== Sys2Proof/Machine/NetTime.lean ====
section
/-! DEFINITION. Network time's commands (R390 to R411). -/

namespace Sys2Proof.Machine

/-- TIME_SET_CMD (R398). -/
def execTimeSetCmd (s : State) : Host.Outcome State Fault Refusal :=
  .next (s.guarded pgTIME 0x068 (cmdAccess 1#32) State.timeSetCmd)

/-- TIME_SET_APPLY (R398): a frame start of the chosen receiver. -/
def execTimeSetApply (r : Rx) (s : State) : Host.Outcome State Fault Refusal := .next (s.timeSetApply r)

/-- TIME_CLEAR_HOST (R398). -/
def execTimeClearHost (s : State) : Host.Outcome State Fault Refusal :=
  .next (s.guarded pgTIME 0x068 (cmdAccess 2#32) State.timeClearHost)

/-- TIME_ENABLE (R403). -/
def execTimeEnable (s : State) : Host.Outcome State Fault Refusal := .next (s.pageOn pgTIME State.timeStart)

/-- TIME_CAL_DONE (R403). -/
def execTimeCalDone (s : State) : Host.Outcome State Fault Refusal := .next s.timeCalDone

/-- TIME_DISABLE (R411): the outputs go low, cal_done clears, time is invalid. -/
def execTimeDisable (s : State) : Host.Outcome State Fault Refusal :=
  .next (s.pageOff pgTIME (fun s => s.timeStop.ppsLow))

/-- PPS_EDGE (R404): the counter, while it is valid, has reached a whole second less TIME_PPS_OFS. -/
def execPpsEdge (s : State) : Host.Outcome State Fault Refusal := .next (s.iff s.timeValid State.ppsRise)

/-- PPS_FALL (R404). -/
def execPpsFall (s : State) : Host.Outcome State Fault Refusal := .next s.ppsFall

/-- LAUNCH_ELIGIBLE (R409): the armed entry of a port and tag is within its lead, while time is valid. -/
def execLaunchEligible (port tag : Nat) (s : State) : Host.Outcome State Fault Refusal :=
  .next (s.iff (s.works pgTIME && s.timeValid) (State.launchReach (256 * port + tag)))

end Sys2Proof.Machine
end

