-- ==== Sys2Proof/Machine/Ofe.lean ====
section
/-! DEFINITION. The OFE management interfaces (R116, R117, R119, R121). -/

namespace Sys2Proof.Machine

/-- PENNANT bits of an OFE's page: config_invalid, ofe_int, ofe_error (Table 3.13). -/
def ofeBits : Ofe → Nat × Nat × Nat
  | .ta => (6, 7, 8)
  | .tb => (6, 7, 8)
  | _ => (9, 10, 11)

/-- The receiver of an OFE, for the four receive ones. -/
def ofeRx : Ofe → Option Rx
  | .a0 => some .a0
  | .a1 => some .a1
  | .b0 => some .b0
  | .b1 => some .b1
  | _ => none

/-- OFE_I2C_CMD written with go (R119): a transfer starts, or the write is ignored while one is in progress. A CMIS page outside
the supported subset runs like any other: the spec does not say what becomes of it (DESIGN CHOICE, log entry 107). -/
def State.ofeGo (p : Nat) (acc : Access) (s : State) : State :=
  if s.flag p OFE.i2cStatusBusy then s.ignored p 0x060 1
  else (((s.writePlain p 0x060 acc).setFld p OFE.i2cStatusBusy 1).setFld p OFE.i2cStatusNack 0).setFld p
    OFE.i2cStatusTimeout 0

/-- OFE_I2C_GO (R119). -/
def execOfeI2cGo (o : Ofe) (v : Word) (s : State) : Host.Outcome State Fault Refusal :=
  let acc := cmdAccess (v ||| 0x2000000#32)
  .next (s.guarded (pgOFE o) 0x060 acc (State.ofeGo (pgOFE o) acc))

/-- OFE_I2C_DONE (R119): busy clears; a read brings its data, a transfer not acknowledged sets nack and raises
ofe_error. -/
def execOfeI2cDone (o : Ofe) (ack : Bool) (rdata : Nat) (s : State) : Host.Outcome State Fault Refusal :=
  let p := pgOFE o
  .next (s.iff (s.alive p && s.flag p OFE.i2cStatusBusy) (fun s =>
    let s := s.setFld p OFE.i2cStatusBusy 0
    if ack then s.iff (!s.flag p OFE.i2cCmdWrite) (State.setFld p OFE.i2cStatusRdata rdata)
    else (s.setFld p OFE.i2cStatusNack 1).raise p (ofeBits o).2.2))

/-- OFE_I2C_TIMEOUT (R119). -/
def execOfeI2cTimeout (o : Ofe) (s : State) : Host.Outcome State Fault Refusal :=
  let p := pgOFE o
  .next (s.iff (s.alive p && s.flag p OFE.i2cStatusBusy) (fun s =>
    ((s.setFld p OFE.i2cStatusBusy 0).setFld p OFE.i2cStatusTimeout 1).raise p (ofeBits o).2.2))

/-- OFE_PINS.int follows INT#; its assertion is raised. -/
def State.ofeInt (o : Ofe) (on : Bool) (s : State) : State :=
  let p := pgOFE o
  s.iff (s.alive p) (fun s => (s.setFld p OFE.pinsInt (b2n on)).iff on (State.raise p (ofeBits o).2.1))

/-- OFE_INT (R121): INT# changes, while its pin is not open (R572). -/
def execOfeInt (o : Ofe) (on : Bool) (s : State) : Host.Outcome State Fault Refusal :=
  .next (s.iff (!s.padOpen (6 * ofeIx o + 2)) (State.ofeInt o on))

/-- A receiver whose OFE has gone or come while it is enabled (R117). -/
def State.rxOfe (r : Rx) (s : State) : State :=
  if !s.works (pgRX r) || s.rxHeld r then s
  else if s.rxConfigOk r then s.iff (s.acq r == 0) (State.rxBegin r)
  else
    let s := (s.raise (pgRX r) 9).iff (s.locked r) (State.raise (pgRX r) 3)
    s.iff (s.acq r != 0) (fun s => s.lineDo r (fun s => ((s.rxStopFigures r).frmUnlocked r).clkLose (rxCand r)))

/-- A transmitter whose OFE has gone or come while it is enabled (R117). -/
def State.txOfe (t : Tree) (s : State) : State := s.txBegin t

/-- OFE_PINS.present follows PRS#, and its receiver or transmitter with it. -/
def State.ofePresent (o : Ofe) (present : Bool) (s : State) : State :=
  let s := s.setFld (pgOFE o) OFE.pinsPresent (b2n present)
  match ofeRx o with
  | some r => s.rxOfe r
  | none => s.txOfe (ofeTree o)

/-- OFE_PRESENT_CHANGE (R117). -/
def execOfePresentChange (o : Ofe) (present : Bool) (s : State) : Host.Outcome State Fault Refusal :=
  .next (s.iff (!s.padOpen (6 * ofeIx o + 3)) (State.ofePresent o present))

end Sys2Proof.Machine
end

