-- ==== Sys2Proof/Machine/PerfBins.lean ====
section
/-! DEFINITION. The performance bins' commands (R155 to R160). -/

namespace Sys2Proof.Machine

/-- PM_SECOND (R156): a superframe of framer `r` ends. -/
def execPmSecond (r : Rx) (s : State) : Host.Outcome State Fault Refusal := .next (s.iff (s.alive pgPM) (State.pmSecond r))

/-- PM_BIN_EDGE (R155, R157). -/
def execPmBinEdge (day : Bool) (s : State) : Host.Outcome State Fault Refusal :=
  .next (s.iff (s.alive pgPM) (State.pmBinEdge day))

/-- PM_BIN_FINAL (R156). -/
def execPmBinFinal (r : Rx) (day : Bool) (slot : Nat) (s : State) : Host.Outcome State Fault Refusal :=
  .next (s.iff (s.alive pgPM) (State.pmFinal r day slot))

/-- PM_DISABLE (R159): every current bin is partial. -/
def execPmDisable (s : State) : Host.Outcome State Fault Refusal := .next (s.pageOff pgPM (State.pmMarkAll 2))

end Sys2Proof.Machine
end

