-- ==== Sys2Proof/Machine/Power.lean ====
section
/-! DEFINITION. The commands of power domains, clocks and supplies (R528 to R559). -/

namespace Sys2Proof.Machine

/-- DOMAIN_IDLE_EXPIRE (R530): domain `d`'s idle timer reaches its period; `refusal` is a unit's refusal, page and reason. -/
def execDomainIdleExpire (d : Nat) (refusal : Option (Nat × Nat)) (s : State) : Host.Outcome State Fault Refusal :=
  .next (s.idleExpire d refusal)

/-- DOMAIN_ENTRY_DONE (R530): domain `d` has entered retention or off. -/
def execDomainEntryDone (d : Nat) (s : State) : Host.Outcome State Fault Refusal := .next (s.entryDone d)

/-- DOMAIN_WAKE (R531): KEEP_WAKE written for domain `d` with `src` 0x3F, else a hardware wake source on page `src`. -/
def execDomainWake (d src : Nat) (s : State) : Host.Outcome State Fault Refusal :=
  .next (if 26 ≤ d then s
    else if src = 0x3F then s.guarded pgKEEP 0x040 (cmdAccess (BitVec.ofNat 32 (2 ^ d))) (State.wakeDomain d 0x3F)
    else s.iff (hardwareWakes d) (State.wakeDomain d src))

/-- KEEP_POLICY_WRITE (R529): KEEP_POLICY0, or with `hi` KEEP_POLICY1, written. -/
def execKeepPolicyWrite (hi : Bool) (acc : Access) (s : State) : Host.Outcome State Fault Refusal :=
  .next (s.policyWrite hi acc)

/-- DOMAIN_RESTORE_DONE (R532, R537): domain `d`'s restore delay ends. -/
def execDomainRestoreDone (d : Nat) (s : State) : Host.Outcome State Fault Refusal := .next (s.restoreDone d)

/-- CLOCK_GATE_END (R538 to R541): a gate on candidate `cand` ends with a count. -/
def execClockGateEnd (cand count : Nat) (s : State) : Host.Outcome State Fault Refusal := .next (s.clockGateEnd cand count)

/-- HOSTREF_LOST (R539): no host reference edge for 1 µs. -/
def execHostrefLost (s : State) : Host.Outcome State Fault Refusal := .next (s.clkLose 5)

/-- CLOCK_WTR_EXPIRE (R541): candidate `cand` has been good for CLK_WTR.wtr. -/
def execClockWtrExpire (cand : Nat) (s : State) : Host.Outcome State Fault Refusal :=
  .next (s.iff (s.clkGood cand) (State.clkJudgeWith (some cand)))

/-- CLK_FORCE (R542): CLK_SEL.force written. -/
def execClkForce (code : Nat) (s : State) : Host.Outcome State Fault Refusal :=
  .next (s.guarded pgCLK 0x034 (cmdAccess (BitVec.ofNat 32 (code % 8))) (State.clkForceCmd (code % 8)))

/-- CLOCK_LOSS_RESET (R544): the part clock ceases with no candidate. -/
def execClockLossReset (s : State) : Host.Outcome State Fault Refusal := .next s.clockLossReset

/-- CLOCK_EDGE_MISSING (R545): no edge for 20 ns on the clock of Line-A (0), Line-B (1) or the S-die (2). -/
def execClockEdgeMissing (which : Nat) (s : State) : Host.Outcome State Fault Refusal := .next (s.edgeMissing which)

/-- KOSC_TRIM (R546): a trim window ends with `count` cycles. -/
def execKoscTrim (count : Nat) (s : State) : Host.Outcome State Fault Refusal := .next (s.koscTrim count)

/-- SUPPLY_WARNING (R549): rails of a mask below warning, or with none PFAIL# low for 2 µs, which an open pad does not tell
(R572). -/
def execSupplyWarning (rails : Nat) (s : State) : Host.Outcome State Fault Refusal :=
  .next (s.iff (mainRails rails != 0 || !s.padOpen 66) (State.supplyWarning rails))

/-- Does PFAIL# keep the low level that it had before its pad was open (R572)? -/
def State.pfailKept (s : State) : Bool := s.padOpen 66 && s.flag pgSUP SUP.statusPfail

/-- SUPPLY_WARNING_CLEAR (R549): PFAIL# high and every rail above warning for 10 ms. -/
def execSupplyWarningClear (s : State) : Host.Outcome State Fault Refusal :=
  .next (s.iff (!s.pfailKept) State.supplyClear)

/-- VKEEP_WARNING (R550): VKEEP below 1.62 V. -/
def execVkeepWarning (s : State) : Host.Outcome State Fault Refusal := .next s.vkeepWarn

/-- MAIN_RAIL_RESET (R551): rails of a mask below their reset thresholds. -/
def execMainRailReset (rails : Nat) (s : State) : Host.Outcome State Fault Refusal := .next (s.mainRailReset rails)

/-- MAIN_RAIL_RELEASE (R551, R588): every main rail above warning for 10 ms with PFAIL# high. -/
def execMainRailRelease (s : State) : Host.Outcome State Fault Refusal :=
  .next (s.iff (!s.pfailKept) State.mainRailRelease)

/-- VKEEP_RESET (R551): VKEEP below 1.50 V. -/
def execVkeepReset (s : State) : Host.Outcome State Fault Refusal := .next s.vkeepReset

/-- VKEEP_POWER_UP (R380, R535): VKEEP rises; `ramOk` says that the CRC of keep RAM's header fits. -/
def execVkeepPowerUp (ramOk : Bool) (s : State) : Host.Outcome State Fault Refusal := .next (s.vkeepPowerUp ramOk)

/-- PSRC_DEBOUNCE (R552): PSRC_MAIN, or PSRC_BATT, has held a level for the debounce time. -/
def execPsrcDebounce (main level : Bool) (s : State) : Host.Outcome State Fault Refusal := 
  .next (s.iff (!s.padOpen (if main then 64 else 65)) (State.psrcDebounce main level))

/-- HOLDOFF_EXPIRE (R553): the hold-off ends with mains still low. -/
def execHoldoffExpire (s : State) : Host.Outcome State Fault Refusal := .next s.holdoffExpire

/-- MAINS_STABLE (R553): debounced PSRC_MAIN high for the stable time. -/
def execMainsStable (s : State) : Host.Outcome State Fault Refusal := .next s.mainsStable

end Sys2Proof.Machine
end

