-- ==== Sys2Proof/Machine/Snapshot.lean ====
section
/-! DEFINITION. The counter snapshot's commands (R63 to R69, R602, R603). -/

namespace Sys2Proof.Machine

/-- CNT_SNAP_CTRL.arm (R66): busy, too late, locked; else armed at the target held now. Of an arm that is both too late and
aimed at a locked bank R66 does not say which result it has: too late, by log entry 90. -/
def State.snapArm (s : State) : State :=
  if s.snapState ≠ 0 then s.snapRefuse 1 1
  else if s.timeValid && decide (s.snapTarget * unitsPerNs < s.time.val + 10000 * unitsPerNs) then s.snapRefuse 2 2
  else if s.snapLocked then s.snapRefuse 3 3
  else
    let s := ((s.setFld pgCNT CNT.snapStatusLastArmResult 0).setFld pgCNT CNT.snapStatusState 1).count cuCNT
    s.modSnap (fun x => { x with target := s.snapTarget, due := none })

/-- CNT_SNAP_CTRL.cancel (R66): honoured while no unit has captured, ignored once the snapshot's time has come. -/
def State.snapCancel (s : State) : State :=
  if s.snapState = 1 ∧ s.snap.due.isNone = true then (s.setFld pgCNT CNT.snapStatusState 0).count (cuCNT + 8)
  else if s.snapState = 1 ∨ s.snapState = 2 then s.count (cuCNT + 9)
  else s

/-- CNT_SNAP_CTRL.arm_now (R68). -/
def State.snapArmNow (s : State) : State :=
  if s.snapState ≠ 0 then s.snapRefuse 1 1
  else if s.snapLocked then s.snapRefuse 3 3
  else
    let s := (s.setFld pgCNT CNT.snapStatusLastArmResult 0).count (cuCNT + 7)
    s.snapCapture false true 0 s.captured s.capturedFlags

/-- A write of CNT_SNAP_CTRL: more than one of its bits is ignored (R603). -/
def State.snapCtrl (v : Word) (s : State) : State :=
  match v.toNat % 8 with
  | 0 => s
  | 1 => s.snapArm
  | 2 => s.snapCancel
  | 4 => s.snapArmNow
  | _ => s.ignored pgCNT 0x030 1

/-- SNAP_ARM (R66). -/
def execSnapArm (s : State) : Host.Outcome State Fault Refusal :=
  .next (s.guarded pgCNT 0x030 (cmdAccess 1#32) State.snapArm)

/-- SNAP_CANCEL (R66). -/
def execSnapCancel (s : State) : Host.Outcome State Fault Refusal :=
  .next (s.guarded pgCNT 0x030 (cmdAccess 2#32) State.snapCancel)

/-- SNAP_ARM_NOW (R68). -/
def execSnapArmNow (s : State) : Host.Outcome State Fault Refusal :=
  .next (s.guarded pgCNT 0x030 (cmdAccess 4#32) State.snapArmNow)

/-- SNAP_CTRL_MULTI (R603): a write of CNT_SNAP_CTRL that sets more than one bit. -/
def execSnapCtrlMulti (v : Word) (s : State) : Host.Outcome State Fault Refusal :=
  .next (s.guarded pgCNT 0x030 (cmdAccess v) (fun s =>
    if [3, 5, 6, 7].contains (v.toNat % 8) then s.ignored pgCNT 0x030 1 else s))

/-- SNAP_CAPTURE (R63): the counter has reached the armed target while time was valid; what was counted before it is
captured. -/
def execSnapCapture (s : State) : Host.Outcome State Fault Refusal :=
  .next (s.iff (s.snapState == 1 && (match s.snap.due with
    | some d => !d.late
    | none => false)) State.snapFire)

/-- SNAP_LATE_FIRE (R64): the target passed while time was invalid, and time is valid again. -/
def execSnapLateFire (s : State) : Host.Outcome State Fault Refusal :=
  .next (s.iff (s.snapState == 1 && s.timeValid && s.targetReached && (match s.snap.due with
    | some d => d.late
    | none => true)) (fun s => (s.snapReach true s.time.val).snapFire))

/-- SNAP_UNIT_MISSING (R65). -/
def execSnapUnitMissing (unit : Nat) (s : State) : Host.Outcome State Fault Refusal :=
  .next (s.iff (s.snapState == 2) (State.snapMissing unit))

/-- SNAP_COMPLETE (R67). -/
def execSnapComplete (s : State) : Host.Outcome State Fault Refusal := .next (s.iff (s.snapState == 2) State.snapComplete)

end Sys2Proof.Machine
end

