-- ==== Sys2Proof/Machine/Transmitter.lean ====
section
/-! DEFINITION. The transmitter's commands (R94 to R111). -/

namespace Sys2Proof.Machine

/-- Is a committed halyard frame not yet on the pins? -/
def State.halCommitted (s : State) (t : Tree) : Bool := (s.hals t).jobs.any (fun j => j.start.isSome && !j.onPins)

/-- Does a burst or a halyard frame that the effective policy permits start next? -/
def State.startsNext (s : State) (t : Tree) : Bool :=
  s.works (pgTX t) && !s.forced t &&
    ((s.burstsAllowed t && (s.nextBurst t).isSome) || (s.halyardAllowed t && s.halCommitted t))

/-- TX_DISABLE (R120): the effective policy is Off, with what that ends (R109). -/
def execTxDisable (t : Tree) (s : State) : Host.Outcome State Fault Refusal :=
  .next (s.pageOff (pgTX t) (State.refreshPolicy t))

/-- TX_PREP_ASSERT (R99). -/
def execTxPrepAssert (t : Tree) (s : State) : Host.Outcome State Fault Refusal :=
  .next (s.iff (s.startsNext t) (State.drivePrep t true))

/-- TX_GATE_ASSERT (R99). -/
def execTxGateAssert (t : Tree) (s : State) : Host.Outcome State Fault Refusal :=
  .next (s.iff (s.startsNext t) (State.driveGate t true))

/-- A burst begins on the pins: its launch, its content as selected, the halyard frame it cuts short (R95, R103, R180). -/
def State.burstBegin (t : Tree) (i : Nat) (s : State) : State :=
  let c := s.contentOf t i
  let t0 := s.pendT0 t i
  let s := (s.halCutNow t).setTf (pgGRT t) 0 i 3 22 21 2
  let b : Burst := { entry := i, t0 := t0, e := s.pendE t i, qam := profileQam c.profile, codewords := c.codewords,
                     pad := c.pad }
  let s := s.modTxs t (fun x => { x with burst := some b })
  let s := (s.applyLaunch t c.profile t0).noticeBurst t c.tmc
  (s.drivePrep t true).driveGate t true

/-- BURST_START (R95): the selected grant with the earliest T0 starts, where the policy permits it. -/
def execBurstStart (t : Tree) (s : State) : Host.Outcome State Fault Refusal :=
  .next (if s.works (pgTX t) && s.burstsAllowed t && !s.forced t && (s.txs t).burst.isNone then
    (match s.nextBurst t with
     | some i => s.burstBegin t i
     | none => s)
  else s)

/-- TX_GATE_DEASSERT (R99, R100): at E or H less the gate advance, unless a grant starts at that end. -/
def execTxGateDeassert (t : Tree) (s : State) : Host.Outcome State Fault Refusal :=
  .next (s.iff (s.effPolicy t != 3 && !s.grantFollows t) (State.driveGate t false))

/-- BURST_END (R99, R279): the burst in progress has been sent. -/
def execBurstEnd (t : Tree) (s : State) : Host.Outcome State Fault Refusal :=
  .next (match (s.txs t).burst with
    | some b =>
      let c := s.contentOf t b.entry
      let s := s.emit (.burst t (s.burstImage t b))
      let s := ((s.count (cuTX t)).countBy (cuTX t + 1) b.codewords).countBy (cuTX t + 2) b.pad
      let s := s.modTxs t (fun x => { x with burst := none, lastEnd := b.e })
      (((((s.tmcSent t c.tmc).sendContent t c).removeGrant t b.entry).pruneWindows t).betweenBursts t)
    | none => s)

/-- TX_PREP_DEASSERT (R99, R177): TX_PREP_HOLD.hold after E or H, nothing having started. -/
def execTxPrepDeassert (t : Tree) (s : State) : Host.Outcome State Fault Refusal :=
  .next (s.iff (s.effPolicy t != 3 && (s.txs t).burst.isNone && (s.txs t).halSlot.isNone &&
      decide ((s.txs t).lastEnd + s.fld (pgTX t) TX.prepHoldHold ≤ s.now)) (State.drivePrep t false))

/-- TX_LASER_POLICY_WRITE (R106, R109). -/
def execTxLaserPolicyWrite (t : Tree) (acc : Access) (s : State) : Host.Outcome State Fault Refusal :=
  .next (s.guarded (pgTX t) 0x03C acc (fun s => (s.writePlain (pgTX t) 0x03C acc).refreshPolicy t))

/-- TX_CLOCK_MISSING (R107): the force, with no clock. -/
def execTxClockMissing (t : Tree) (s : State) : Host.Outcome State Fault Refusal := .next (s.clockForce t)

/-- TX_FORCE_RELEASE.release (R108). -/
def State.forceRelease (t : Tree) (s : State) : State :=
  if s.flag (pgTX t) TX.statusClockOk && decide ((s.txs t).clockOkSince + symPerMs ≤ s.now) then
    ((s.modTxs t (fun x => { x with clockForce := false })).showForce t).refreshPolicy t
  else s.ignored (pgTX t) 0x050 1

/-- FORCE_RELEASE (R108). -/
def execForceRelease (t : Tree) (s : State) : Host.Outcome State Fault Refusal :=
  .next (s.guarded (pgTX t) 0x050 (cmdAccess 1#32) (State.forceRelease t))

/-- ROGUE_POWER_POLL (Table 3.8): three consecutive polls above −30 dBm with the gate low are cause 0b011. -/
def execRoguePowerPoll (t : Tree) (dbm10 : Int) (s : State) : Host.Outcome State Fault Refusal :=
  .next (if !s.alive (pgTX t) then s
  else if s.flag (pgTX t) TX.statusGateDrive || decide (dbm10 ≤ -300) then s.modTxs t (fun x => { x with hotPolls := 0 })
  else if 2 ≤ (s.txs t).hotPolls then (s.modTxs t (fun x => { x with hotPolls := 0 })).rogueEvent t 3
  else s.modTxs t (fun x => { x with hotPolls := x.hotPolls + 1 }))

/-- Does now lie more than 16 sym outside every granted and halyard window? Windows that meet are one, since no gap lies between
them (R110). -/
def State.outsideWindows (s : State) (t : Tree) : Bool :=
  (s.txs t).windows.all (fun w => decide (s.now + 16 < w.1) || decide (w.2 + 16 < s.now))

/-- The cause of Table 3.8 that a sign shows, if it is one. In Continuous test there is no window check (Table 3.7). -/
def State.rogueCause (s : State) (t : Tree) (sign : RogueSign) : Option Nat :=
  let gate := s.flag (pgTX t) TX.statusGateDrive
  match sign with
  | .outside dac =>
    if s.effPolicy t != 3 && (s.flag (pgTX t) TX.statusGateReadback || dac) && s.outsideWindows t then some 1 else none
  | .pads p g => if p != s.flag (pgTX t) TX.statusPrepDrive || g != gate then some 2 else none
  | .light => if gate then none else some 3
  | .fault => if gate || s.padOpen (pinFlt t) then none else some 4

/-- ROGUE_EVENT (R110, R111): what the checker sees is judged; pads that differ from their drive are shown as they read. -/
def execRogueEvent (t : Tree) (sign : RogueSign) (s : State) : Host.Outcome State Fault Refusal :=
  .next (if s.alive (pgTX t) then
    (match s.rogueCause t sign with
     | some c =>
       let s := s.rogueEvent t c
       match sign with
       | .pads p g => (s.setFld (pgTX t) TX.statusPrepReadback (b2n p)).setFld (pgTX t) TX.statusGateReadback (b2n g)
       | _ => s
     | none => s)
  else s)

end Sys2Proof.Machine
end

