-- ==== Sys2Proof/Machine/TreeMode.lean ====
section
/-! DEFINITION. The tree-mode machine's own commands (R190 to R217): register writes, timers, and warm return. -/

namespace Sys2Proof.Machine

/-- ACT_DISABLE (R218): the tree goes to Dark and keeps its registration. -/
def execActDisable (t : Tree) (s : State) : Host.Outcome State Fault Refusal :=
  .next (s.pageOff (pgACT t) (State.enterDarkKeep t))

/-- Is the tree's control receiver in header SYNC? -/
def State.controlSync (s : State) (t : Tree) : Bool :=
  match s.controlRx t with
  | some r => s.hdrSync r
  | none => false

/-- LISTENING_ENTRY (R192): a Dark tree that is not shed and has no warm return open. -/
def execListeningEntry (t : Tree) (s : State) : Host.Outcome State Fault Refusal :=
  let p := pgACT t
  .next (s.iff (s.actWorks t && s.mode t == 0 && s.controlSync t && s.flag (pgHAL t) HAL.statusRxSync &&
    !s.flag p ACT.statusShed && !s.flag p ACT.statusWarmPending) (State.setMode t 1))

/-- An illegal mode write (R193). -/
def State.illegalMode (t : Tree) (s : State) : State := (s.count (cuACT t + 18)).raise (pgACT t) 18

/-- A mode asked for by a write: Quarantine is entered with no cause of its own; any other is taken where Table 6.2
permits it. -/
def State.hostMode (t : Tree) (m : Nat) (s : State) : State :=
  if !modeWriteOk (s.mode t) m then s.illegalMode t
  else if m = 7 then (s.recordQuarantine t).setMode t 7
  else s.setMode t m

/-- ACT_MODE_WRITE (R193): a write of ACT_MODE through any view. -/
def execActModeWrite (t : Tree) (acc : Access) (s : State) : Host.Outcome State Fault Refusal :=
  let p := pgACT t
  .next (s.guarded p 0x030 acc (fun s =>
    match regInfo p 0x030 with
    | some r => s.hostMode t (ACT.modeMode.get (s.writeValue p 0x030 acc r))
    | none => s))

/-- ACT_CMD.release_quarantine (R217): refused with cause 1, and where the tree is not in Quarantine. -/
def State.releaseQuarantine (t : Tree) (s : State) : State :=
  if s.mode t = 7 ∧ s.fld (pgACT t) ACT.quarCause ≠ 1 then s.iff s.firmware (State.leaveQuarantine t)
  else (s.count (cuACT t + 18)).raise (pgACT t) 19

/-- RELEASE_QUARANTINE (R217). -/
def execReleaseQuarantine (t : Tree) (s : State) : Host.Outcome State Fault Refusal :=
  .next (s.guarded (pgACT t) 0x068 (cmdAccess 1#32) (State.releaseQuarantine t))

/-- ACT_CMD.deactivate, honoured in registered modes only. -/
def State.hostDeactivate (t : Tree) (s : State) : State :=
  s.iff (registeredMode (s.mode t) && s.firmware) (State.setMode t 1)

/-- ACT_DEACTIVATE_CMD (R192). -/
def execActDeactivateCmd (t : Tree) (s : State) : Host.Outcome State Fault Refusal :=
  .next (s.guarded (pgACT t) 0x068 (cmdAccess 2#32) (State.hostDeactivate t))

/-- HAIL_TIMEOUT (R192). -/
def execHailTimeout (t : Tree) (s : State) : Host.Outcome State Fault Refusal :=
  .next (s.iff (s.actWorks t && s.mode t == 2 && s.firmware) (State.setMode t 1))

/-- RANGE_TIMEOUT (R192): registration is forgotten on the way to Listening. -/
def execRangeTimeout (t : Tree) (s : State) : Host.Outcome State Fault Refusal :=
  .next (s.iff (s.actWorks t && s.mode t == 3 && s.firmware) (State.setMode t 1))

/-! Warm return (R209, R210). -/

/-- The deviation of counter `c` after `elapsed` frames from FC_dark, in frames. -/
def State.warmDeviation (s : State) (t : Tree) (c elapsed : Nat) : Int :=
  signed 48 ((c + 2 ^ 49 - (s.recordFcDark t + elapsed) % 2 ^ 48) % 2 ^ 48)

/-- A warm return refused with a result. -/
def State.warmRefuse (t : Tree) (result : Nat) (s : State) : State :=
  let s := (s.setFld (pgACT t) ACT.warmResult result).count (cuACT t + 5)
  (s.raise (pgACT t) 5).forget t

/-- A warm return accepted: Listening, then Ranging, and RESUME (R210 steps 5 and 6). -/
def State.warmAccept (t : Tree) (s : State) : State :=
  let p := pgACT t
  let s := ((s.setFld p ACT.warmResult 1).setFld p ACT.statusWarmPending 0).count (cuACT t + 4)
  let s := (((s.setMode t 1).setMode t 3).raise p 4)
  let id := (s.acts t).nextTransaction
  let s := s.modActs t (fun a => { a with nextTransaction := (a.nextTransaction + 1) % 65536 })
  s.tmcRequest t 0x21 id 1 (natBE 8 (s.serial t) ++ natBE 4 (s.recordFcDark t) ++ natBE 4 (s.fld p ACT.eqdEqd))

/-- The checks of R210 steps 2 to 4. An OFE's serial is `none` where the OFE was absent at Dark entry, else what it read
then and reads now. -/
def State.warmCheck (t : Tree) (r : Rx) (c elapsed : Nat) (serials : List (Option (Bytes × Bytes))) (s : State) : State :=
  if s.frmHeId r ≠ s.recordHe t ∨ s.frmTreeId r ≠ s.recordTree t then s.warmRefuse t 2
  else
    let d := s.warmDeviation t c elapsed
    let tol : Int := s.fld (pgACT t) ACT.timerCWarmTol
    let s := s.setSFld (pgACT t) ACT.warmDeviation (clampInt (-32768) 32767 d)
    if d < -tol ∨ tol < d then s.warmRefuse t 3
    else if serials.any (fun x => match x with | some (old, new) => old != new | none => false) then s.warmRefuse t 4
    else s.warmAccept t

/-- WARM_RETURN (R210): the control receiver of a Dark tree reaches header SYNC within the warm window. -/
def execWarmReturn (t : Tree) (counter elapsedFrames : Nat) (serials : List (Option (Bytes × Bytes))) (s : State) :
    Host.Outcome State Fault Refusal :=
  .next (if s.actWorks t && s.mode t == 0 && s.flag (pgACT t) ACT.statusWarmPending && s.firmware then
    (match s.controlRx t with
     | some r => s.iff (s.hdrSync r) (State.warmCheck t r counter elapsedFrames serials)
     | none => s)
  else s)

/-- WARM_WINDOW_EXPIRE (R210 step 8). -/
def execWarmWindowExpire (t : Tree) (s : State) : Host.Outcome State Fault Refusal :=
  .next (s.iff (s.flag (pgACT t) ACT.statusWarmPending) (fun s =>
    ((s.setFld (pgACT t) ACT.warmResult 5).count (cuACT t + 5)).forget t))

/-! Other timers. -/

/-- EQD_APPLY (R203). -/
def execEqdApply (t : Tree) (s : State) : Host.Outcome State Fault Refusal :=
  .next (s.iff (s.flag (pgACT t) ACT.eqdPendingPending) (State.applyEqd t))

/-- MAX_PARK_EXPIRE (R211). -/
def execMaxParkExpire (t : Tree) (s : State) : Host.Outcome State Fault Refusal :=
  .next (s.iff (s.actWorks t && s.mode t == 5 && s.fld (pgACT t) ACT.parkMaxMaxPark != 0 && s.firmware)
    (State.setMode t 4))

/-- GASP_WAIT_EXPIRE (R213). -/
def execGaspWaitExpire (t : Tree) (s : State) : Host.Outcome State Fault Refusal := .next (s.gaspWait t)

/-- NOTICE_RETRY (R213). -/
def execNoticeRetry (t : Tree) (s : State) : Host.Outcome State Fault Refusal := .next (s.noticeRetry t)

/-- TMC_RESPONSE_EXPIRE (R198): a response still in the send queue is discarded and counted. -/
def execTmcResponseExpire (t : Tree) (slot : Nat) (s : State) : Host.Outcome State Fault Refusal :=
  .next (s.iff (s.tmcState t slot == 1 && s.tmcClass t slot == 2) (fun s =>
    (s.setTmcState t slot 0).count (cuACT t + 12)))

end Sys2Proof.Machine
end

