-- ==== Sys2Proof/Machine/UniPorts.lean ====
section
/-! DEFINITION. The commands of the UNI ports and lanes (R413 to R448). -/

namespace Sys2Proof.Machine

/-- PORT_CFG_WRITE (R418). -/
def execPortCfgWrite (port : Nat) (acc : Access) (s : State) : Host.Outcome State Fault Refusal :=
  let p := port % 16
  .next (s.guarded (pgUNIQ p) (0x030 + 0x20 * (p % 4)) acc (State.portConfig p acc))

/-- AN_FAILED (R421): negotiation restarts, its base page sent again. -/
def execAnFailed (port : Nat) (s : State) : Host.Outcome State Fault Refusal :=
  let p := port % 16
  .next (s.iff (s.portOn p && s.backplane p && s.pflag p UNIQ.portCfgAnEnable && !s.portLink p)
    (fun s => (s.raise (pgUNIQ p) 12).anBegin p))

/-- CDR_LOCK (R423). -/
def execCdrLock (lane : Nat) (s : State) : Host.Outcome State Fault Refusal :=
  .next (s.iff (s.laneWorks (lane % 16)) (State.setCdr (lane % 16) true))

/-- CDR_LOCK_LOST (R423). -/
def execCdrLockLost (lane : Nat) (s : State) : Host.Outcome State Fault Refusal :=
  .next (s.iff (s.laneWorks (lane % 16) && s.cdrLock (lane % 16)) (fun s => (s.setCdr (lane % 16) false).raiseMs pgLANE 0))

/-- LINK_UP (R421). -/
def execLinkUp (port : Nat) (up : LinkUpInfo) (s : State) : Host.Outcome State Fault Refusal := .next (s.linkRise (port % 16) up)

/-- LINK_DOWN (R422). -/
def execLinkDown (port : Nat) (s : State) : Host.Outcome State Fault Refusal :=
  let p := port % 16
  .next (s.iff (s.portLink p) (fun s => (s.linkFall p).setFault p true))

/-- LANE_FOM_WINDOW (R424): `fom` in 1/256 dB. -/
def execLaneFomWindow (lane fom : Nat) (s : State) : Host.Outcome State Fault Refusal :=
  .next (s.iff (s.laneWorks (lane % 16)) (State.laneFom (lane % 16) fom))

/-- LANE_ADAPT (R425). -/
def execLaneAdapt (lane : Nat) (s : State) : Host.Outcome State Fault Refusal := .next (s.laneAdapt (lane % 16))

/-- PRBS_LOCK (R430): levels that the lane has received. -/
def execPrbsLock (lane : Nat) (levels : List Int) (s : State) : Host.Outcome State Fault Refusal :=
  .next (s.prbsSee (lane % 16) levels)

/-- PRBS_LOCK_LOST (R430): levels that the lane has received, which a locked checker checks. -/
def execPrbsLockLost (lane : Nat) (levels : List Int) (s : State) : Host.Outcome State Fault Refusal :=
  let l := lane % 16
  .next (s.iff (s.laneWorks l && s.prbsLock l) (fun s => s.prbsCheck l (s.seenLevels l levels)))

/-- PRBS_INVERT (R430). -/
def execPrbsInvert (lane : Nat) (s : State) : Host.Outcome State Fault Refusal :=
  let l := lane % 16
  .next (s.iff (s.laneWorks l && s.laneCheck l != 0 && !s.prbsLock l && s.laneCfg l 1 1 == 0)
    (fun s => s.setTf pgLANE 1 l 0 1 1 (1 - s.tf pgLANE 1 l 0 1 1)))

/-- LANE_INJECT.inject: one bit of the lane's transmitted data inverted. -/
def State.laneInject (l : Nat) (s : State) : State := s.iff (s.laneWorks l) (State.emitError l 0)

/-- LANE_INJECT (R431). -/
def execLaneInject (lane : Nat) (s : State) : Host.Outcome State Fault Refusal :=
  .next (s.guarded pgLANE 0x038 (cmdAccess (BitVec.ofNat 32 (lane % 16 + 16))) (State.laneInject (lane % 16)))

/-- LANE_INJECT_PERIODIC (R431). -/
def execLaneInjectPeriodic (lane : Nat) (s : State) : Host.Outcome State Fault Refusal :=
  let k := s.laneCfg (lane % 16) 18 14
  .next (s.iff (s.laneWorks (lane % 16) && k != 0) (State.emitError (lane % 16) (injectEvery k)))

/-- LANE_DISABLE (R446). -/
def execLaneDisable (s : State) : Host.Outcome State Fault Refusal := .next (s.pageOff pgLANE State.refreshPorts)

/-- UNI_FRAME_RECEIVE (R434): a port in near-end loopback hears itself alone (R432). -/
def execUniFrameReceive (port : Nat) (bytes : Bytes) (fcsErr : Bool) (corrected uncorrectable : Nat) (s : State) :
    Host.Outcome State Fault Refusal :=
  .next (s.iff (!s.portLooped (port % 16)) (State.uniReceive (port % 16) bytes fcsErr corrected uncorrectable))

/-- PAUSE_RECEIVE (R437): a MAC control frame of a port; one in near-end loopback hears itself alone (R432). -/
def execPauseReceive (port : Nat) (bytes : Bytes) (s : State) : Host.Outcome State Fault Refusal :=
  let p := port % 16
  .next (if s.portLooped p then s else if s.portOn p then s.macControl p bytes else s.count (cuPort p + 16))

/-- PAUSE_EXPIRE (R437). -/
def execPauseExpire (port prio : Nat) (s : State) : Host.Outcome State Fault Refusal :=
  .next (s.pauseEnd (port % 16) (prio % 8))

/-- PFC_REFRESH (R436). -/
def execPfcRefresh (port prio : Nat) (s : State) : Host.Outcome State Fault Refusal :=
  .next (s.xoffAgain (port % 16) (prio % 8))

/-- LPI_ENTER (R439). -/
def execLpiEnter (port : Nat) (s : State) : Host.Outcome State Fault Refusal := .next (s.lpiEnter (port % 16))

/-- LPI_EXIT (R439). -/
def execLpiExit (port : Nat) (s : State) : Host.Outcome State Fault Refusal :=
  .next (s.setPf (port % 16) UNIQ.portStatusLpiTx 0)

/-- UNIQ_DISABLE (R442). -/
def execUniqDisable (q : Nat) (s : State) : Host.Outcome State Fault Refusal :=
  .next (s.pageOff (pgUNIQ (4 * (q % 4))) State.refreshPorts)

/-- REMOTE_FAULT (R422). -/
def execRemoteFault (port : Nat) (on : Bool) (s : State) : Host.Outcome State Fault Refusal :=
  .next (s.setPf (port % 16) UNIQ.portStatusRemoteFault (b2n on))

/-- LPI_RX (R439). -/
def execLpiRx (port : Nat) (on : Bool) (s : State) : Host.Outcome State Fault Refusal :=
  let p := port % 16
  .next ((s.iff (on && !s.pflag p UNIQ.portStatusLpiRx) (State.count (cuPort p + 13))).setPf p UNIQ.portStatusLpiRx (b2n on))

end Sys2Proof.Machine
end

