-- ==== Sys2Proof/Machine/ReliabilityOps.lean ====
section
/-! DEFINITION. Containment (R561 to R563), die-to-die links (R566 to R568), pins (R570 to R573) and the Lehr engine (R574 to
R576). -/

namespace Sys2Proof.Machine

/-! Units and regions (R561). -/

/-- A contained tenant context of a tree (log entry 15): the tenant is disabled there, and what its queues hold for the tree is
dropped, with the shared part where the other tree does not serve it (R23, R271). -/
def State.tenantStop (t : Tree) (n : Nat) (s : State) : State :=
  if 256 ≤ n then s
  else
    let s := s.setFld (pgACT t) (tenantEnFld n) 0
    (List.range 16).foldl (fun s v =>
      let q := 16 * n + v
      let s := s.releaseList (treeList t q)
      (s.iff (!s.treeServes (otherTree t) q) (State.releaseShared q)).showQueue q) s

/-- What a contained unit stops: the whole block, a queue group, a tenant context, a UNI port, a host function, a core, a line-security context. -/
def State.unitStop (p u : Nat) (s : State) : State :=
  if u = 0 then
    let s := (s.iff (s.enabled p) (State.blockStop p)).blockDrop p
    match (pageInfo p).map PageInfo.blk with
    | some .usch => s.dropUp (fun _ => true)
    | some .dsch => s.flushQueues (fun _ => true)
    | _ => s
  else match (pageInfo p).map PageInfo.blk with
    | some .usch => s.dropUp (inGroup p u)
    | some .dsch => s.flushQueues (inGroup p u)
    | some .act => s.tenantStop (if p = pgACT .a then .a else .b) (u - 1)
    | some .uniq => s.refreshPorts
    | some .dma => s.portFlush (16 + (u - 1))
    | some .lsec =>
        let s := s.setTf pgLSEC 0 (u - 1) 0 1 1 1
        (s.setFld pgLSEC LSEC.statusContained
          ((s.tblEntries pgLSEC 0).filter s.ctxContained).length).raise pgLSEC 4
    | _ => s

/-- UNIT_CONTAIN's effect. -/
def State.unitContain (p u : Nat) (s : State) : State :=
  if (pageInfo p).isSome && s.alive p && decide (u < 65536) && !s.unitContained p u then
    if p = pgCORE ∧ 1 ≤ u ∧ u ≤ 16 then s.containCore (u - 1) else (s.noteContain p u).unitStop p u
  else s

/-- The cause of a region's containment, 0 for none. -/
def State.containCause (s : State) (r : Nat) : Nat := Sparse.get 0 s.rel.cause r

/-- A region contained with a cause: what a running one held is dropped and lost. The Keeper keeps its state. -/
def State.regionContain (r cause : Nat) (s : State) : State :=
  if 9 ≤ r ∨ cause = 0 ∨ 3 < cause ∨ s.containCause r ≠ 0 ∨ (r = 8 ∧ cause = 2) then s
  else
    let ran := s.region r == 0
    let s := (s.keepLast (regionRuns r)).modRel (fun x => { x with cause := Sparse.put 0 r cause x.cause })
    let s := s.iff (ran && r != 8) (State.regionReset r)
    let s := ((s.settleRegion r).setFld pgSYS SYS.containLastRegion r).setFld pgSYS SYS.containLastCause cause
    s.count (cuSYS + 6)

/-- A region's containment ends. -/
def State.regionRelease (r : Nat) (s : State) : State :=
  (((s.modRel (fun x => { x with cause := Sparse.put 0 r 0 x.cause })).freeLast).settleRegion r).count (cuSYS + 7)

/-- THERMAL_LIMIT's effect (R562). -/
def State.thermalLimit (r : Nat) (s : State) : State :=
  let s := if r = 0 then s.clockForce .a else if r = 1 then s.clockForce .b else s
  s.regionContain r 2

/-- SYS_REGION_RELEASE's effect (R563): a bit for a region not contained with cause 1 is ignored. -/
def State.sysRegionRelease (mask : Nat) (s : State) : State :=
  (List.range 9).foldl (fun s r =>
    if !bitOf mask r then s
    else if s.containCause r = 1 then s.regionRelease r
    else s.ignored pgSYS 0x03C 1) s

/-! Die-to-die links (R567). -/

/-- D2D_LAST. -/
def State.d2dLast (l event : Nat) (s : State) : State := (s.setFld pgD2D D2D.lastLink l).setFld pgD2D D2D.lastEvent event

/-- A flit's fields (Table 17.3): its channel, its sequence, the channel and number of the credits it returns, the sequence it
acknowledges. -/
def flitChannel (bs : Bytes) : Nat := byteAt bs 0 / 64
def flitSequence (bs : Bytes) : Nat := byteAt bs 1
def flitCreditChannel (bs : Bytes) : Nat := byteAt bs 2 / 64
def flitCredits (bs : Bytes) : Nat := byteAt bs 2 % 64
def flitAck (bs : Bytes) : Nat := byteAt bs 3

/-- Does a flit's CRC hold: CRC-32C over bytes 0 to 75 (R566; log entry 114)? -/
def flitCrcOk (bs : Bytes) : Bool := crc32cBytes 0xFFFFFFFF (bs.take 76) ^^^ 0xFFFFFFFF == fieldAt bs 76 4

/-- Up to `n` credits of an entry of D2D table 0 moved from word `a` to word `b`. -/
def State.moveCredits (e a b n : Nat) (s : State) : State :=
  let n := min n (s.tw pgD2D 0 e a).toNat
  (s.putTw pgD2D 0 e a (s.tw pgD2D 0 e a - BitVec.ofNat 32 n)).putTw pgD2D 0 e b (s.tw pgD2D 0 e b + BitVec.ofNat 32 n)

/-- A flit whose CRC fails is discarded and a replay requested from the expected sequence (R567). -/
def State.flitFail (l d : Nat) (s : State) : State :=
  let s := s.modLink (2 * l + d) (fun x => { x with fails := x.fails + 1 })
  (((s.count (cuD2D + 5 * l + 1)).count (cuD2D + 5 * l + 2)).d2dLast l 1).raiseMs pgD2D 0

/-- A flit with the expected sequence is taken: it holds a credit of its channel at the receiver, returns credits of the other
direction and acknowledges a sequence of it (R566; log entry 114). -/
def State.flitTake (l d : Nat) (bs : Bytes) (s : State) : State :=
  let s := s.modLink (2 * l + d) (fun x => { x with expected := (x.expected + 1) % 256, fails := 0 })
  let s := s.modLink (2 * l + (1 - d)) (fun x => { x with acked := some (flitAck bs) })
  (s.moveCredits (8 * l + 4 * d + flitChannel bs) 1 3 1).moveCredits (8 * l + 4 * (1 - d) + flitCreditChannel bs) 3 1
    (flitCredits bs)

/-- A flit received in direction `d` of a link that is up (R566, R567). One with another sequence than the expected is
discarded. -/
def State.flitReceive (l d : Nat) (bs : Bytes) (s : State) : State :=
  if l < 3 ∧ s.linkUp l = true then
    let s := s.count (cuD2D + 5 * l)
    if !flitCrcOk bs then s.flitFail l d
    else s.iff (flitSequence bs == (s.link (2 * l + d)).expected) (State.flitTake l d bs)
  else s

/-- Has one flit of the link failed retry_max times in a row, so that the link must retrain (R567)? -/
def State.retrainDue (s : State) (l : Nat) : Bool :=
  [2 * l, 2 * l + 1].any (fun k => decide (max 1 (s.fld pgD2D D2D.cfgRetryMax) ≤ (s.link k).fails))

/-- A link goes down: the flits of its retry buffer are lost (how many of its 128 is a free value), and with L–S the line
regions are contained. -/
def State.linkDown (l : Nat) (s : State) : State :=
  let s := ((s.setFld pgD2D ⟨0x030, l, l⟩ 0).d2dLast l 3).raise pgD2D 2
  let s := (s.countBy (cuD2D + 5 * l + 4) (s.freeVal 129)).useFree
  let s := s.iff (l != 0 && !s.linkUp 1 && !s.linkUp 2) (State.modRel · (fun x => { x with kLost := true }))
  let s := if l = 0 then (s.regionContain 0 3).regionContain 1 3 else s
  s.showKeystore

/-- A link comes up, its credits granted: regions contained for its sake are released. -/
def State.linkCameUp (l : Nat) (s : State) : State :=
  let s := ((s.setFld pgD2D ⟨0x030, l, l⟩ 1).grantCredits l).raise pgD2D 3
  let s := s.iff (l != 0) (State.modRel · (fun x => { x with kLost := false }))
  let s := if l = 0 then
      (s.iff (s.containCause 0 == 3) (State.regionRelease 0)).iff (s.containCause 1 == 3) (State.regionRelease 1)
    else s
  s.showKeystore

/-- LINK_RETRAIN's effect: a link that must retrain trains again, or fails retrain_max times and is down. -/
def State.linkRetrain (l : Nat) (ok : Bool) (s : State) : State :=
  if l < 3 ∧ s.linkUp l = true ∧ s.retrainDue l = true then
    if ok then s.linkRetrained l
    else
      let s := ((s.countBy (cuD2D + 5 * l + 3) (max 1 (s.fld pgD2D D2D.cfgRetrainMax))).d2dLast l 2).raise pgD2D 1
      s.linkDown l
  else s

/-- D2D_RETRAIN_RETRY's effect: a link that is down retrains. -/
def State.linkRetry (l : Nat) (ok : Bool) (s : State) : State :=
  if l < 3 ∧ s.linkUp l = false then
    (((s.count (cuD2D + 5 * l + 3)).d2dLast l 2).raise pgD2D 1).iff ok (State.linkCameUp l)
  else s

/-! Pins (R570 to R573). -/

/-- Bits of a pin's entry. -/
def State.pinBit (s : State) (i b : Nat) : Bool := s.tb pgPIN 0 i 0 b

/-- PIN_STATUS follows the entries. -/
def State.showPins (s : State) : State :=
  s.setFld pgPIN PIN.statusFaulted
    ((List.range 69).filter (fun i => s.pinBit i 5 || s.pinBit i 6)).length

/-- The pins whose mismatch is a rogue cause: TXA_PREP, TXA_GATE, TXB_PREP, TXB_GATE. -/
def laserPin (i : Nat) : Bool := i == 36 || i == 37 || i == 39 || i == 40

/-- Are the pin tests running: the PIN page's region runs, and no boundary-scan instruction suspends them (R601)? -/
def State.pinTests (s : State) : Bool := s.alive pgPIN && !s.clk.tapHeld

/-- PIN_SHORT's effect on an output. -/
def State.pinShort (i : Nat) (s : State) : State :=
  if i < 69 ∧ s.pinTests = true ∧ s.pinBit i 0 = true ∧ s.pinBit i 4 = false then
    let s := s.setTf pgPIN 0 i 0 4 4 1
    let s := s.iff (s.flag pgPIN PIN.cfgShortEnable && !laserPin i) (State.setTf pgPIN 0 i 0 6 6 1)
    ((s.raise pgPIN 0).count cuPIN).showPins
  else s

/-- What an open input's safe value does to the part (R572, R595), as an event of that level at the pin would: INT#, PRS#,
TXx_FLT#, PERST# (its strap as it was sampled last) and SYS_RST#. PSRC_MAIN, PSRC_BATT and PFAIL# keep their last value. -/
def State.openTakes (i : Nat) (s : State) : State :=
  let v := s.pinBit i 3
  if i < 36 ∧ i % 6 = 2 then s.ofeInt (ofeOf (i / 6)) (!v)
  else if i < 36 ∧ i % 6 = 3 then s.ofePresent (ofeOf (i / 6)) (!v)
  else if i = pinFlt .a then s.iff (!v && !s.flag (pgTX .a) TX.statusGateDrive && s.alive (pgTX .a)) (State.rogueEvent .a 4)
  else if i = pinFlt .b then s.iff (!v && !s.flag (pgTX .b) TX.statusGateDrive && s.alive (pgTX .b)) (State.rogueEvent .b 4)
  else if i = 43 then (if v then s.perstDeassert (s.flag pgHIF HIF.formForm) else s.perstAssert)
  else if i = 67 then s.iff (!v) (State.mainRailReset 0)
  else s

/-- PIN_OPEN_TEST's effect on an enabled input. -/
def State.pinOpenTest (i : Nat) (up down changed : Bool) (s : State) : State :=
  if i < 69 ∧ s.pinTests = true ∧ s.flag pgPIN PIN.cfgOpenEnable = true ∧ s.pinBit i 2 = true ∧ s.pinBit i 0 = false then
    let s := s.count (cuPIN + 2)
    if up && down && !changed && !s.pinBit i 5 then
      ((((s.setTf pgPIN 0 i 0 5 5 1).raise pgPIN 1).count (cuPIN + 1)).showPins).openTakes i
    else s
  else s

/-- PIN_RELEASE's effect: the pin is tested at once. -/
def State.pinRelease (i : Nat) (still : Bool) (s : State) : State :=
  if i < 69 ∧ (s.pinBit i 5 || s.pinBit i 6) = true then
    if still then s.count (cuPIN + 4)
    else (((s.setTf pgPIN 0 i 0 6 4 0).count (cuPIN + 3)).raise pgPIN 2).showPins
  else s

/-! The Lehr engine (R574 to R576). -/

/-- Does anything defer a re-plan (R574)? -/
def State.replanBlocked (s : State) : Bool :=
  s.flag pgSUP SUP.statusSupplyWarning || (decide (1 ≤ s.puntyState) && decide (s.puntyState ≤ 4)) ||
    s.flag pgLEHR LEHR.cfgHold

/-- The AVSBus target of rail 0, VDD_S, and rail 1, VDD_L. -/
def railFld (rail : Nat) : Fld := if rail = 0 then LEHR.avsVddS else LEHR.avsVddL
def State.railMv (s : State) (rail : Nat) : Nat := s.fld pgLEHR (railFld rail)

/-- The regions that a rail supplies (Table 18.2). -/
def railRegions (rail : Nat) : List Nat := if rail = 0 then [2, 3, 4, 5, 6, 7] else [0, 1]

/-- The worst canary margin among some regions. -/
def lehrWorst (r : LehrReadings) (regions : List Nat) : Option (Nat × Int) :=
  regions.foldl (fun best i => match r.sensors[i]?, best with
    | some x, some (j, m) => if x.2.1 < m then some (i, x.2.1) else some (j, m)
    | some x, none => some (i, x.2.1)
    | none, b => b) none

/-- margin_target, and margin_target + hysteresis. -/
def State.lehrLow (s : State) : Int := (s.fld pgLEHR LEHR.marginMarginTarget : Int)
def State.lehrHigh (s : State) : Int := s.lehrLow + s.fld pgLEHR LEHR.marginHysteresis

/-- Is a rail below margin_target; above the hysteresis? -/
def State.railLow (s : State) (r : LehrReadings) (rail : Nat) : Bool :=
  match lehrWorst r (railRegions rail) with
  | some (_, m) => decide (m < s.lehrLow)
  | none => false
def State.railHigh (s : State) (r : LehrReadings) (rail : Nat) : Bool :=
  match lehrWorst r (railRegions rail) with
  | some (_, m) => decide (s.lehrHigh < m)
  | none => false

/-- LEHR table 0 takes the readings. -/
def State.showSensors (r : LehrReadings) (s : State) : State :=
  (List.range 9).foldl (fun s i => match r.sensors[i]? with
    | some x => s.putEntry pgLEHR 0 i 0 [BitVec.ofNat 32 (unsigned 16 x.1), BitVec.ofNat 32 (unsigned 16 x.2.1),
        BitVec.ofNat 32 x.2.2]
    | none => s) s

/-- The max_iter of an enabled receiver (Table 17.4). RX_ITER counts in 1/256. -/
def State.planIter (x : Rx) (s : State) : State :=
  let p := pgRX x
  let m := s.fld p RX.fecCtrlMaxIter
  let margin := s.sfld p RX.fomMargin
  if !s.works p then s
  else if margin < 256 ∧ 192 * m < s.fld p RX.iterIterMean ∧ m < 24 then s.setFld p RX.fecCtrlMaxIter (min 24 (m + 4))
  else if 768 < margin ∧ 8 < m then s.setFld p RX.fecCtrlMaxIter (max 8 (m - 2))
  else s

/-- The Lehr trim of a transmitter: a step of at most 0.2 dB toward the applied launch less the monitor. A tree in Ranging
takes it in Operational. -/
def State.planTrim (t : Tree) (monitor : Int) (s : State) : State :=
  let p := pgTX t
  if !s.works p then s
  else
    let old := s.sfld p TX.launchStatusLehrTrim
    let want := clampInt (-10) 10 (s.sfld p TX.launchStatusApplied - monitor)
    let new := clampInt (old - 2) (old + 2) want
    if new = old then s
    else if s.mode t = 3 then s.modTxs t (fun x => { x with trimDue := some new })
    else s.setTrim t new

/-- margin_low of a rail that stood at 850 mV when the plan began. -/
def State.planLow (r : LehrReadings) (rail : Nat) (s : State) : State :=
  if s.lehr.deep.contains rail && s.railLow r rail then (s.raise pgLEHR 3).count (cuLEHR + 6) else s

/-- The core clock derate. -/
def State.planDerate (r : LehrReadings) (s : State) : State :=
  let d := s.fld pgLEHR LEHR.statusCoreDerate
  let low := [0, 1].find? (fun rail => s.lehr.deep.contains rail && s.railLow r rail)
  let set (v : Nat) (s : State) : State := ((s.setFld pgLEHR LEHR.statusCoreDerate v).raise pgLEHR 4).count (cuLEHR + 5)
  match low with
  | some rail =>
    let s := s.modLehr (fun x => { x with derateRail := some rail })
    if d < 2 then set (d + 1) s else s
  | none =>
    match s.lehr.derateRail with
    | some rail => if 0 < d ∧ s.railMv rail < 850 ∧ s.railHigh r rail = true then set (d - 1) s else s
    | none => s

/-- The settings of a plan between its raises and its lowers. -/
def State.planSettings (r : LehrReadings) (s : State) : State :=
  let s := (((s.planIter .a0).planIter .a1).planIter .b0).planIter .b1
  let s := (s.planTrim .a r.monitorA).planTrim .b r.monitorB
  let s := s.modLehr (fun x => { x with laneStart := s.uni.eqSteps })
  (((s.planLow r 0).planLow r 1)).planDerate r

/-- The record of a finished plan, and its end. -/
def State.planDone (r : LehrReadings) (s : State) : State :=
  let w0 := if s.timeValid then s.timeSec else 0
  let trim := fun (t : Tree) => s.fld (pgTX t) TX.launchStatusLehrTrim
  let worst := (lehrWorst r (List.range 9)).getD (0, 0)
  let s := s.putEntry pgLEHR 1 s.lehr.next 0 [BitVec.ofNat 32 w0, s.reg pgLEHR 0x03C,
    BitVec.ofNat 32 (trim .a + trim .b * 256 + s.fld pgLEHR LEHR.statusCoreDerate * 65536),
    BitVec.ofNat 32 (worst.1 + unsigned 16 worst.2 * 65536)]
  let s := s.modLehr (fun x => { x with
    active := false, readings := none, deep := [], next := (x.next + 1) % 32 })
  ((s.setFld pgLEHR LEHR.statusRunning 0).count cuLEHR).raise pgLEHR 0

/-- The plan goes on: the next raise is written, then the rest of the settings, then the lowers one by one, then it is
recorded (R576). -/
def State.planGoOn (s : State) : State :=
  match s.lehr.raises, s.lehr.readings, s.lehr.lowers with
  | (rail, mv) :: _, _, _ => s.emit (.avsWrite rail mv)
  | [], some r, [] => (s.planSettings r).planDone r
  | [], some r, (rail, mv) :: _ =>
    if s.lehr.settled then s.emit (.avsWrite rail mv)
    else ((s.planSettings r).modLehr (fun x => { x with settled := true })).emit (.avsWrite rail mv)
  | [], none, _ => s

/-- A re-plan starts: the sensors are read, the voltage changes decided. -/
def State.replanStart (r : LehrReadings) (s : State) : State :=
  let s := ((s.showSensors r).setFld pgLEHR LEHR.statusRunning 1).modLehr (fun x => { x with last := s.now })
  let avs := s.flag pgLEHR LEHR.cfgAvsEnable
  let up := [0, 1].filter (fun rail => avs && s.railLow r rail && decide (s.railMv rail < 850))
  let down := [0, 1].filter (fun rail => avs && s.railHigh r rail && decide (650 < s.railMv rail))
  let s := s.modLehr (fun x => { x with
    active := true
    readings := some r
    settled := false
    raises := up.map (fun rail => (rail, min 850 (s.railMv rail + 10)))
    lowers := down.map (fun rail => (rail, max 650 (s.railMv rail - 10)))
    deep := [0, 1].filter (fun rail => s.railMv rail == 850) })
  s.planGoOn

/-- A trigger of a re-plan: it starts, or is deferred (R574). -/
def State.replan (r : LehrReadings) (s : State) : State :=
  if s.lehr.active || s.flag pgLEHR LEHR.statusDeferred then s
  else if s.replanBlocked then ((s.setFld pgLEHR LEHR.statusDeferred 1).count (cuLEHR + 1)).raise pgLEHR 1
  else s.replanStart r

/-- Does the day's re-plan fall due: at a network time whose second of the day is LEHR_CFG.offset, once; while time is invalid a
day after the last one (R574)? -/
def State.replanDay (s : State) : Bool :=
  let off := s.fld pgLEHR LEHR.cfgOffset
  let off := if 86400 ≤ off then 0 else off
  if s.timeValid then s.timeSec % 86400 == off && s.lehr.lastSec != some s.timeSec
  else decide (s.lehr.last + 86400 * 1000 * symPerMs ≤ s.now)

/-- REPLAN's effect: the day's re-plan. -/
def State.replanDaily (r : LehrReadings) (s : State) : State :=
  if s.replanDay then
    let sec := if s.timeValid then some s.timeSec else s.lehr.lastSec
    (s.modLehr (fun x => { x with last := s.now, lastSec := sec })).replan r
  else s

/-- REPLAN_DEFERRED_START's effect. -/
def State.replanDeferred (r : LehrReadings) (s : State) : State :=
  if s.flag pgLEHR LEHR.statusDeferred && !s.replanBlocked && !s.lehr.active then
    (s.setFld pgLEHR LEHR.statusDeferred 0).replanStart r
  else s

/-- AVS_WRITE_DONE's effect: the write in progress is acknowledged, or has failed after three retries (R576). -/
def State.avsDone (rail : Nat) (ack : Bool) (s : State) : State :=
  let raising := !s.lehr.raises.isEmpty
  match s.lehr.raises ++ s.lehr.lowers with
  | (k, mv) :: _ =>
    if s.lehr.active && k == rail && (raising || s.lehr.settled) then
      let s := s.modLehr (fun x => if raising then { x with raises := x.raises.drop 1 } else { x with lowers := x.lowers.drop 1 })
      let s := s.setFld pgLEHR LEHR.statusAvsOk (b2n ack)
      let s := if ack then (s.setFld pgLEHR (railFld rail) mv).count (cuLEHR + (if raising then 2 else 3))
        else (s.raise pgLEHR 2).count (cuLEHR + 4)
      if raising then s.planGoOn
      else match s.lehr.lowers, s.lehr.readings with
        | (k, mv) :: _, _ => s.emit (.avsWrite k mv)
        | [], some r => s.planDone r
        | [], none => s
    else s
  | [] => s

/-! SYS_RST# (R590). -/

/-- SYS_RST's effect: a pulse of at least 1 µs acts as a main-rail reset with no rail named. -/
def State.sysRst (widthNs : Nat) (s : State) : State := if 1000 ≤ widthNs then s.mainRailReset 0 else s

end Sys2Proof.Machine
end

