-- ==== Sys2Proof/Machine/ReadOps.lean ====
section
/-! DEFINITION. Reads: the vote of triplicated fields (R56, R57), the registers and table words that show what no register
holds, the holding copies of quantities (R42), and the function windows (Table 14.3). -/

namespace Sys2Proof.Machine

/-! Triplicated fields (R56, R57). -/

/-- The fields of an RWT register that are voted one by one. -/
def voteFields (w n off : Nat) : List Fld := (List.range n).map (fun i => ⟨off, w * (i + 1) - 1, w * i⟩)

/-- A field set in all three copies of an RWT register, each copy's other fields kept. -/
def State.putField (p : Nat) (f : Fld) (v : Nat) (s : State) : State :=
  let k := regKey p f.off
  let set := fun (m : Sparse Word) => Sparse.put (regDef k) k (f.put v (Sparse.get (regDef k) m k)) m
  s.modRf (fun r => { r with regs := set r.regs, copy1 := set r.copy1, copy2 := set r.copy2 })

/-- A disagreement of a page's copies at an offset, with or without a majority: TRIPLE_STATUS, the SYS counts, PENNANT
bit 22. -/
def State.noteVote (p off : Nat) (majority : Bool) (s : State) : State :=
  let s := s.setFld p HDR.tripleStatusDisagreeCount (satAdd 65535 (s.fld p HDR.tripleStatusDisagreeCount) 1)
  let s := s.setFld p HDR.tripleStatusDisagreeOffset (off / 4)
  let s := s.iff (!majority) (State.setFld p HDR.tripleStatusNoMajority 1)
  (s.count (if majority then cuSYS + 3 else cuSYS + 4)).raise p 22

/-- What the safe value of a field brings about (Table 2.7): Quarantine for a tree mode, the laser's policy judged. The mode
that a tree leaves for want of a majority is taken from its first copy that is not Quarantine. -/
def State.safeTaken (p : Nat) (f : Fld) (a b : Nat) (s : State) : State :=
  match pageInfo p with
  | none => s
  | some i =>
    match i.blk with
    | .tx => s.refreshPolicy (instTree i.inst)
    | .act => (s.putField p f (if a = 7 then b else a)).quarantine (instTree i.inst) 3 0
    | _ => s

/-- One field of an RWT register voted: a single differing copy rewritten and recorded; without a majority the safe value. -/
def State.scrubField (p safe : Nat) (s : State) (f : Fld) : State :=
  let a := f.get (s.copy 0 p f.off)
  let b := f.get (s.copy 1 p f.off)
  let c := f.get (s.copy 2 p f.off)
  if a = b ∧ a = c then s
  else if noMajority a b c then ((s.putField p f safe).noteVote p f.off false).safeTaken p f a b
  else (s.putField p f (voteField safe a b c)).noteVote p f.off true

/-- An RWT register voted. -/
def State.scrubReg (p off : Nat) (s : State) : State :=
  match rwtVote p off with
  | some (w, safe, n) => (voteFields w n off).foldl (fun s f => s.scrubField p safe f) s
  | none => s

/-- A context's key-slot selector voted (R362): without a majority it is none, and the context is contained. At which offset a
table's field disagrees is not stated: a free value. -/
def State.scrubSelector (s : State) (c : Nat) : State :=
  let x := s.tf pgLSEC 0 c 0 3 2
  let y := Sparse.get 3 s.lsec.sel1 c
  let z := Sparse.get 3 s.lsec.sel2 c
  if x = y ∧ x = z then s
  else
    let off := 4 * s.freeVal 1024
    if noMajority x y z then (((s.useFree.setSelector c 3).noteVote pgLSEC off false).unitContain pgLSEC (c + 1))
    else (s.useFree.setSelector c (voteField 3 x y z)).noteVote pgLSEC off true

/-- The RWT registers, by page and offset. -/
def rwtRegs : List (Nat × Nat) :=
  [(pgKEEP, 0x030), (pgKEEP, 0x034)] ++ ([Tree.a, Tree.b].flatMap (fun t =>
    [(pgTX t, 0x03C), (pgACT t, 0x030)] ++ (List.range 8).map (fun i => (pgACT t, 0x074 + 4 * i))))

/-- The scrubber's pass over every RWT field of every page that is not dark (R56, R569). -/
def State.scrubAll (s : State) : State :=
  let s := rwtRegs.foldl (fun s x => s.iff (!s.dark x.1) (State.scrubReg x.1 x.2)) s
  if s.dark pgLSEC then s
  else ((s.tblEntries pgLSEC 0 ++ Sparse.keys s.lsec.sel1 ++ Sparse.keys s.lsec.sel2).eraseDups).foldl
    (fun s c => s.scrubSelector c) s

/-! Registers. -/

/-- SYS_DIE_READY (R26): the L-die by its link to the S-die; the S-die; the K-die, whose links have trained by the time the host
can first read, until both are lost; the HBM interfaces by their domains (log entry 28). -/
def State.dieReady (s : State) : Nat :=
  b2n (s.linkUp 0) + 2 + 4 * b2n (!s.rel.kLost) + 8 * b2n (s.domOn 11) + 16 * b2n (s.domOn 12)

/-- CORE_STATE: the cores that execute, and those contained. -/
def State.coreStateWord (s : State) : Nat :=
  (List.range 16).foldl (fun n c =>
    n + 2 ^ c * b2n (s.coreUp c && (s.coreRun c).run.isSome) + 2 ^ (16 + c) * b2n (s.unitContained pgCORE (c + 1))) 0

/-- How many tasks stand in a state (TSK table 1). -/
def State.tasksIn (s : State) (st : Nat) : Nat := ((s.tblEntries pgTSK 1).filter (fun k => s.taskState k == st)).length

/-- FLSH_STATUS as a window sees it. -/
def State.flashStatusWord (s : State) (w : Window) : Nat :=
  b2n (s.flashBusy w) + 2 * b2n s.flsh.erase.isSome + 4 * b2n s.flsh.suspended + 8 * b2n s.flsh.octal +
    16 * (s.openEntries.length % 64) + 1024 * (s.flashResult w % 8)

/-- A CXL register of page HIF: 0 in host form 0 (R474). -/
def State.cxlReg (s : State) (off : Nat) : Word := if s.flag pgHIF HIF.formForm then s.reg pgHIF off else 0#32

/-- What the register at `off` of a page that is not dark reads, holding copies and INDIRECT_DATA apart. -/
def State.regValue (s : State) (p off : Nat) : Word :=
  if (regInfo p off).isNone then 0#32
  else match pageInfo p with
  | none => 0#32
  | some i =>
    if off = 0x024 then
      let n := match tableInfo p (s.fld p HDR.indirectCtrlTable) with
        | some t => t.width
        | none => 0
      HDR.indirectCtrlWidth.put n (s.reg p off)
    else match i.blk, off with
      | .sys, 0x034 => BitVec.ofNat 32 s.dieReady
      | .act, 0x034 => ACT.statusOnBattery.put (s.fld pgSUP SUP.statusBattery)
          (ACT.statusTerminalId.put (s.fld (pgHAL (instTree i.inst)) HAL.termTerminalId) (s.reg p off))
      | .act, 0x064 => ACT.quarRogueCause.put (s.fld (pgTX (instTree i.inst)) TX.statusRogueCause) (s.reg p off)
      | .act, 0x06C => ACT.useAllocations.put s.allocsUsed (ACT.useTenants.put s.tenantsUsed 0#32)
      | .core, 0x030 => BitVec.ofNat 32 s.coreStateWord
      | .hif, 0x048 => s.cxlReg off
      | .hif, 0x04C => s.cxlReg off
      | .hif, 0x050 => s.cxlReg off
      | .hif, 0x054 => s.cxlReg off
      | .hif, 0x058 => s.cxlReg off
      | .hif, 0x05C => s.cxlReg off
      | .tsk, 0x030 => BitVec.ofNat 32 (s.tsk.ready.length + s.tasksIn 3 * 2 ^ 16)
      | .tsk, 0x03C => BitVec.ofNat 32 ((s.core.flows.filter (fun x => x.2.isSome)).length)
      | .flsh, 0x030 => BitVec.ofNat 32 (s.flashStatusWord .host)
      | _, _ => s.reg p off

/-- The quantities of more than one register (R42): where the quantity that holds `off` starts, and its words. -/
def quantityOf (p off : Nat) : Option (Nat × Nat) :=
  if 256 ≤ p then
    if off < 0x800 then
      match off % 0x20 / 8 with
      | 0 => some (off / 8 * 8, 2)
      | 1 => some (off / 8 * 8, 2)
      | _ => none
    else none
  else match (pageInfo p).map PageInfo.blk with
    | some .time =>
      if 0x030 ≤ off ∧ off < 0x040 then some (0x030, 4) else if 0x058 ≤ off ∧ off < 0x068 then some (0x058, 4) else none
    | some .cnt => if 0x040 ≤ off ∧ off < 0x060 then some (off / 16 * 16, 4) else none
    | some .frm =>
      if 0x03C ≤ off ∧ off < 0x044 then some (0x03C, 2) else if 0x044 ≤ off ∧ off < 0x04C then some (0x044, 2) else none
    | some .dual => if 0x040 ≤ off ∧ off < 0x060 then some (off / 8 * 8, 2) else none
    | some .hal => if 0x054 ≤ off ∧ off < 0x05C then some (0x054, 2) else none
    | some .hif => if 0x050 ≤ off ∧ off < 0x060 then some (off / 8 * 8, 2) else none
    | _ => none

/-- A register read with the holding copies of its quantity: the lowest register latches the others, whose next reads return
the copies (R42). `value` is what a register reads now. -/
def State.latchRead (value : Nat → Word) (p off : Nat) (s : State) : State :=
  let key := regKey p off
  match Sparse.get none s.rf.latches key with
  | some w => (s.modReadData (fun _ => w)).modRf (fun r => { r with latches := Sparse.put none key none r.latches })
  | none =>
    let s := s.modReadData (fun _ => value off)
    match quantityOf p off with
    | some (base, n) =>
      if off = base then
        (List.range (n - 1)).foldl (fun (s : State) i => s.modRf (fun r => { r with
          latches := Sparse.put none (regKey p (base + 4 * (i + 1))) (some (value (base + 4 * (i + 1)))) r.latches })) s
      else s
    | none => s

/-! Function windows (Table 14.3). -/

/-- The pending bits of 32 vectors of a function, from vector `v`. -/
def State.pbaWord (s : State) (f v : Nat) : Nat :=
  (List.range 32).foldl (fun n i => n + 2 ^ i * b2n (Sparse.get false s.hif.pba (vecKey f (v + i)))) 0

/-- What a register of function `f`'s window reads. -/
def State.windowValue (s : State) (f off : Nat) : Word :=
  if off < 0x800 then
    if s.ringOpen f (decide (0x400 ≤ off)) (off % 0x400 / 0x20) then s.reg (fnPage f) off else 0#32
  else if off = 0x800 then BitVec.ofNat 32 (f + s.rgCount f false * 2 ^ 8 + s.rgCount f true * 2 ^ 16)
  else if off = 0x804 then
    BitVec.ofNat 32 (b2n (s.fnEnabled f) + 2 * b2n (s.fn f).d3 + (s.fn f).ignored * 2 ^ 8 + (s.vectors f).2 * 2 ^ 16)
  else if 0x4000 ≤ off ∧ off < 0xC000 then
    let v := (off - 0x4000) / 16
    if v < (s.vectors f).2 then s.msixWord f v (off % 16 / 4) else 0#32
  else if 0xC000 ≤ off ∧ off < 0xC100 then BitVec.ofNat 32 (s.pbaWord f ((off - 0xC000) * 8))
  else 0#32

/-- A read of function `f`'s window. What a window that is not there returns is not stated: a free value. -/
def State.windowRead (f off : Nat) (s : State) : State :=
  if s.windowOpen f then s.latchRead (s.windowValue f) (fnPage f) off
  else (s.modReadData (fun _ => BitVec.ofNat 32 (s.freeVal (2 ^ 32)))).useFree

/-! Table words. -/

/-- The word of a bank of CNT: three words per counter (Table 2.9). -/
def State.bankWord (s : State) (b e k : Nat) : Nat := Sparse.get 0 (s.bank b) e / 2 ^ (32 * k) % 2 ^ 32

/-- CORE table 0 (Table 15.11); the watchdog's remaining time runs while a task runs. -/
def State.coreStatus (s : State) (c k : Nat) : Option Nat :=
  let r := s.coreRun c
  let timeout := s.fld pgCORE CORE.wdogTimeout
  match k with
  | 0 =>
    let task := match r.run with | some x => x.task | none => 0
    some (b2n (s.coreUp c && r.run.isSome) + 2 * b2n (s.unitContained pgCORE (c + 1)) +
      4 * b2n (s.coreUp c && r.run.isNone) + 8 * (r.slots.length % 4) + 32 * (r.stack.length % 8) + 256 * task +
      2 ^ 18 * b2n r.run.isSome)
  | 6 => some (if r.run.isSome then timeout - (s.now - r.kick) / symPerMs else timeout)
  | _ => none

/-- DMA table 1: the state of a global ring (Table 14.10): the first function whose range holds it. -/
def State.ringState (s : State) (e k : Nat) : Nat :=
  let rx := decide (1024 ≤ e)
  let g := e % 1024
  let base := fun (f : Nat) => s.tf pgDMA 0 f (b2n rx) 9 0
  match (List.range 256).find? (fun f => decide (base f ≤ g) && decide (g < base f + s.rgCount f rx)) with
  | some f =>
    let j := g - base f
    if k = 0 then f + 256 * s.rg f rx j RING.ctrlState
    else s.rg f rx j RING.headHead + 2 ^ 16 * s.rg f rx j RING.tailTail
  | none => 0

/-- The save area of keep RAM that holds table entry `e`: its domain. -/
def saveDomain (e : Nat) : Option Nat := if 0x40 ≤ e ∧ e < 0x1A40 then some ((e - 0x40) / 0x100) else none

/-- KEEP table 1: the tree records stand in ACT table 2; the bytes of a saved image are a free value. -/
def State.keepWord (s : State) (e free : Nat) : Word :=
  if 0x10 ≤ e ∧ e < 0x18 then s.tw (pgACT .a) 2 0 (e - 0x10)
  else if 0x18 ≤ e ∧ e < 0x20 then s.tw (pgACT .b) 2 0 (e - 0x18)
  else match saveDomain e with
    | some d => if (Sparse.get none s.keep.saves d).isSome then BitVec.ofNat 32 free else s.tw pgKEEP 1 e 0
    | none => s.tw pgKEEP 1 e 0

/-- KST tables: secret fields read 0 (R389); table 1 shows the active slot. -/
def State.kstWord (s : State) (t e k : Nat) : Word :=
  let i := 16 * e + k
  match t with
  | 2 => s.tw pgKST 2 e k
  | 0 => if kstSecret i then 0#32 else s.kstStage i
  | _ => if kstSecret i then 0#32 else match s.kstActive with
      | some n => Sparse.get erasedWord (s.kstSlot n) i
      | none => 0#32

/-- Word 0 of a performance bin: the current one is suspect while network time is invalid and partial while PM is disabled
(R157, R159). -/
def State.pmWord (s : State) (day : Bool) (e : Nat) : Word :=
  let w := s.tw pgPM (pmTab day) e 0
  if e % pmSlots day = s.pmSlot day then
    Fld.put ⟨0, 2, 2⟩ (b2n (w.getLsbD 2 || !s.enabled pgPM)) (Fld.put ⟨0, 1, 1⟩ (b2n (w.getLsbD 1 || !s.timeValid)) w)
  else w

/-- Has the entry of a send queue turned a submission away (R268)? -/
def State.tmcTurned (s : State) (p e : Nat) : Bool := (s.grts (if p = pgGRT .a then .a else .b)).tmcRefused.contains e

/-- Does an entry stand in a power domain that is not on (R533)? The lanes of a quad stand in the quad's domain. -/
def State.entryOff (s : State) (b : Blk) (e : Nat) : Bool := b == .lane && !s.domOn (15 + e / 4)

/-- Word `k` of entry `e` of table `t` of page `p` as window `w` reads it; `free` is the free value that stands for a word whose
value the spec does not state. -/
def State.tableWord (s : State) (w : Window) (p t e k free : Nat) : Word :=
  let n := fun (x : Nat) => BitVec.ofNat 32 x
  match (pageInfo p).map PageInfo.blk, t with
  | some .cnt, 0 => if s.snapState = 2 ∧ s.snapBank = 0 then n free else n (s.bankWord 0 e k)
  | some .cnt, 1 => if s.snapState = 2 ∧ s.snapBank = 1 then n free else n (s.bankWord 1 e k)
  | some .cnt, 2 => (match counterUnits[e]? with | some u => u.word | none => 0#32)
  | some .core, 0 =>
    (match s.coreStatus e k with
     | some v => n v
     | none => if k = 1 ∨ k = 2 then n free else s.tw p t e k)
  | some .tsk, 3 =>
    if k = 1 then
      if s.tb p t e 0 25 then n (s.tf p t e 0 23 0 - (s.now - Sparse.get 0 s.tsk.timers e) / symPerUs) else 0#32
    else s.tw p t e k
  | some .flsh, 0 => s.journalWord e k
  | some .flsh, 1 => s.tw (flashPage w) 1 e k
  | some .kst, _ => s.kstWord t e k
  | some .lsec, 1 => if 4 ≤ k then 0#32 else s.tw p t e k
  | some .ccry, 1 => 0#32
  | some .keep, 1 => s.keepWord e free
  | some .xtr, 0 => if e = 0 then 0#32 else s.tw p t e k
  | some .pin, 0 => if e < 69 then Fld.put ⟨0, 7, 7⟩ free (s.tw p t e k) else 0#32
  | some .sup, 0 => Fld.put ⟨0, 15, 0⟩ free (s.tw p t e k)
  | some .dma, 1 => n (s.ringState e k)
  | some .usch, 2 => if k = 3 then Fld.put ⟨0, 15, 0⟩ (min (s.headAge e) 65535) (s.tw p t e k) else s.tw p t e k
  | some .dsch, 2 => if k = 1 then Fld.put ⟨0, 15, 0⟩ (s.downHeadAge (downBase + e)) (s.tw p t e k) else s.tw p t e k
  | some .flow, 0 => if k = 16 && s.flowValid e then n (s.flowIdle e) else s.tw p t e k
  | some .pm, 0 => if k = 0 then s.pmWord false e else s.tw p t e k
  | some .pm, 1 => if k = 0 then s.pmWord true e else s.tw p t e k
  | some .pol, 1 => n (s.polTokens e k)
  | some .grt, 1 => if k = 0 && s.tmcTurned p e then Fld.put ⟨0, 14, 13⟩ 3 (s.tw p t e k) else s.tw p t e k
  | some .lane, _ => if s.entryOff .lane e then 0#32 else s.tw p t e k
  | _, _ => s.tw p t e k

end Sys2Proof.Machine
end

