-- ==== Sys2Proof/Machine/WinOps.lean ====
section
/-! DEFINITION. The indirect windows (R58 to R61), and what a committed entry of each table does. -/

namespace Sys2Proof.Machine

/-- The page that holds a window's INDIRECT_ADDR and INDIRECT_CTRL; the key of a window of a page. -/
def winPage (w : Window) (p : Nat) : Nat := if w = .core then corePage p else p
def winKey (w : Window) (p : Nat) : Nat := 2 * p + (if w = .core then 1 else 0)

/-- A window, and its change. -/
def State.win (s : State) (w : Window) (p : Nat) : IndWin := Sparse.get {} s.wins (winKey w p)
def State.modWin (w : Window) (p : Nat) (f : IndWin → IndWin) (s : State) : State :=
  s.modWins (fun m => Sparse.put {} (winKey w p) (f (Sparse.get {} m (winKey w p))) m)

/-- Where a window stands: table, entry, word. -/
def State.winTable (s : State) (w : Window) (p : Nat) : Nat := s.fld (winPage w p) HDR.indirectCtrlTable
def State.winEntry (s : State) (w : Window) (p : Nat) : Nat := s.fld (winPage w p) HDR.indirectAddrEntry
def State.winWord (s : State) (w : Window) (p : Nat) : Nat := s.fld (winPage w p) HDR.indirectAddrWord

/-- The table a window stands in, where the access is within its size and width (R60). -/
def State.winTarget (s : State) (w : Window) (p : Nat) : Option TableInfo :=
  match tableInfo p (s.winTable w p) with
  | some t => if s.winEntry w p < t.entries ∧ s.winWord w p < t.width then some t else none
  | none => none

/-- INDIRECT_ADDR advances after an access to INDIRECT_DATA (R59). -/
def State.winAdvance (w : Window) (p width : Nat) (s : State) : State :=
  let q := winPage w p
  let k := s.winWord w p + 1
  if k < width then s.setFld q HDR.indirectAddrWord k
  else (s.setFld q HDR.indirectAddrWord 0).setFld q HDR.indirectAddrEntry
    (s.winEntry w p + s.fld q HDR.indirectCtrlStride)

/-- An entry as a window reads it. The words whose values the spec does not state draw one free value each. -/
def State.captureEntry (s : State) (w : Window) (p t e width : Nat) : List Word :=
  (List.range width).map (fun k => s.tableWord w p t e k (Config.free (s.freeIx + k)))

/-- A read of INDIRECT_DATA (R58 to R60): word 0 fills the holding buffer, other words come from it; a
key-slot selector is voted as it is read (R18, R56). What another word reads
while the buffer holds another entry is not stated: a free value. -/
def State.indirectRead (w : Window) (p : Nat) (s : State) : State :=
  if s.dark p then (s.darkAccess p false).modReadData (fun _ => 0xFFFFFFFF#32)
  else match s.winTarget w p with
  | none => (s.modReadData (fun _ => 0#32)).raise p 21
  | some ti =>
    let at_ := (s.winTable w p, s.winEntry w p)
    let k := s.winWord w p
    if k = 0 then
      let s := s.iff (decide (p = pgLSEC) && decide (at_.1 = 0)) (fun s => s.scrubSelector at_.2)
      let words := s.captureEntry w p at_.1 at_.2 ti.width
      let s := s.modFreeIx (· + ti.width)
      let s := s.modWin w p (fun x => { x with holding := words, held := some at_ })
      (s.modReadData (fun _ => words[0]?.getD 0#32)).winAdvance w p ti.width
    else if (s.win w p).held = some at_ then
      (s.modReadData (fun _ => (s.win w p).holding[k]?.getD 0#32)).winAdvance w p ti.width
    else ((s.modReadData (fun _ => BitVec.ofNat 32 (s.freeVal (2 ^ 32)))).useFree).winAdvance w p ti.width

/-! Committed entries. -/

/-- An entry's words put under their masks. -/
def State.putMasked (b : Blk) (p t e : Nat) (ws : List Word) (s : State) : State :=
  s.putEntry p t e 0 ((List.range ws.length).map (fun k =>
    let m := BitVec.ofNat 32 (tableMask b t k)
    (s.tw p t e k &&& ~~~ m) ||| ((ws[k]?.getD 0#32) &&& m)))

/-- TSK table 0 and 2 of the bank that is not in force (R516): written by the firmware that is loading. -/
def State.loadsBank (s : State) : Bool := s.puntyState == 2

/-- A committed entry of a task table (R486, R488, R516). A written timer restarts from its new period at once. -/
def State.commitTsk (t e : Nat) (ws : List Word) (s : State) : State :=
  let w := fun (k : Nat) => (ws[k]?.getD 0#32) &&& BitVec.ofNat 32 (tableMask .tsk t k)
  match t with
  | 0 =>
    if s.loadsBank then s.modCore (fun c => { c with
      otherTasks := (List.range 4).foldl (fun m k => Sparse.put 0#32 (4 * e + k) (w k) m) c.otherTasks })
    else ((s.putMasked .tsk pgTSK 0 e ws).judgeTask e).flowJudge
  | 2 =>
    if s.loadsBank then s.modCore (fun c => { c with otherRoutes := Sparse.put 0#32 e (w 0) c.otherRoutes })
    else s.putMasked .tsk pgTSK 2 e ws
  | _ => (s.putMasked .tsk pgTSK 3 e ws).modTsk (fun x => { x with timers := Sparse.put 0 e s.now x.timers })

/-- A committed entry of an LSEC table (R362, R365, R384): mode and selector of a context; a key slot, whose write starts its
packet numbers anew and gives a contained context a new key (Table 17.1). A selected slot that the write takes out of force is named
no longer. -/
def State.commitLsec (t e : Nat) (ws : List Word) (s : State) : State :=
  let w := fun (k : Nat) => ws[k]?.getD 0#32
  if t = 0 then
    ((s.setCtxGcm e ((w 0).getLsbD 0)).setSelector e (Fld.get ⟨0, 3, 2⟩ (w 0))).putTw pgLSEC 0 e 1 (w 1)
  else
    let c := e / 2
    let s := (s.putMasked .lsec pgLSEC 1 e ws).clearPn c (e % 2)
    let s := s.iff (s.slotValid c (e % 2) && s.ctxContained c) (fun s =>
      let s := (s.setTf pgLSEC 0 c 0 1 1 0).modRel (fun r => { r with
        contained := Sparse.put false (pgLSEC * 65536 + (c + 1)) false r.contained })
      (s.setFld pgLSEC LSEC.statusContained (s.fld pgLSEC LSEC.statusContained - 1)).freeLast)
    let now := (s.slotFor c (s.treeFc (if c < 512 then .a else .b))).getD 3
    let s := s.iff (s.selector c == e % 2 && now != e % 2) (State.setSelector c now)
    s.iff (s.selector c == e % 2) (State.showPn c (e % 2))

/-- A committed policer entry (R273, R274): one that becomes valid starts full; of one that stays valid the tokens are brought
up to now and clipped to the new sizes. Tokens of one that is no longer valid leave as clipped, so that R275 holds. -/
def State.commitPol (e : Nat) (ws : List Word) (s : State) : State :=
  let was := s.tb pgPOL 0 e 0 0
  let s := s.iff (s.polApplies e) (State.polUpdate e s.nowNs)
  let s := s.putMasked .pol pgPOL 0 e ws
  let on := s.tb pgPOL 0 e 0 0
  let cbs := 256 * s.tf pgPOL 0 e 3 15 0
  let pbs := 256 * s.tf pgPOL 0 e 3 31 16
  let n := s.fld pgPOL POL.validValidCount
  let s := (s.iff (on && !was) (State.setFld pgPOL POL.validValidCount (n + 1))).iff (was && !on)
    (State.setFld pgPOL POL.validValidCount (n - 1))
  let put := fun (a b : Nat) (s : State) => (s.putTw pgPOL 1 e 0 (BitVec.ofNat 32 a)).putTw pgPOL 1 e 1 (BitVec.ofNat 32 b)
  if on && !was then
    ((put cbs pbs s).countBy (cuPOL + 9) (cbs + pbs)).modPol (fun x => { x with
      fracC := Sparse.put 0 e 0 x.fracC, fracP := Sparse.put 0 e 0 x.fracP, lastNs := Sparse.put 0 e s.nowNs x.lastNs })
  else if on then
    let a := (s.tw pgPOL 1 e 0).toNat
    let b := (s.tw pgPOL 1 e 1).toNat
    ((put (min a cbs) (min b pbs) s).countBy (cuPOL + 8) ((a - cbs) + (b - pbs))).modPol (fun x => { x with
      lastNs := Sparse.put 0 e s.nowNs x.lastNs })
  else if was then
    (put 0 0 s).countBy (cuPOL + 8) ((s.tw pgPOL 1 e 0).toNat + (s.tw pgPOL 1 e 1).toNat)
  else s

/-- A committed entry of DMA table 0 (R479): bases and counts only while every ring of the function is disabled; a direction
whose range meets another function's takes count 0. -/
def State.commitDma (e : Nat) (ws : List Word) (s : State) : State :=
  let m := 0x003F03FF#32
  let old := s.entry pgDMA 0 e 2
  let new := (List.range 2).map (fun k => (ws[k]?.getD 0#32) &&& m)
  let same := new == old.map (· &&& m)
  let on := Fld.get ⟨0, 31, 31⟩ (ws[0]?.getD 0#32)
  if !same && s.openRings.any (fun x => x.1 == e) then (s.setTf pgDMA 0 e 0 31 31 on).ignored pgDMA 0x020 1
  else
    let s := (s.putEntry pgDMA 0 e 0 new).setTf pgDMA 0 e 0 31 31 on
    let range := fun (f : Nat) (k : Nat) => (s.tf pgDMA 0 f k 9 0, min 32 (s.tf pgDMA 0 f k 21 16))
    let meets := fun (k : Nat) => !same && (List.range 256).any (fun f => f != e && rangesMeet (range e k) (range f k))
    let s := (s.iff (meets 0) (State.setTf pgDMA 0 e 0 21 16 0)).iff (meets 1) (State.setTf pgDMA 0 e 1 21 16 0)
    s.iff (meets 0 || meets 1) (State.raise pgDMA 4)

/-- A committed lane configuration (R429, R432, R447): a change of the checker's pattern reseeds it; a generator or a far-end
loopback holds the port's link down. -/
def State.commitLane (e : Nat) (ws : List Word) (s : State) : State :=
  let was := s.laneCfg e 11 8
  let sent := s.laneGen e
  let s := s.putMasked .lane pgLANE 0 e ws
  let s := s.iff (s.laneCfg e 1 1 == 1) (State.setTf pgLANE 1 e 0 1 1 (s.laneCfg e 2 2))
  let bad := [s.laneCfg e 7 4, s.laneCfg e 11 8].any (fun v => decide (10 < v)) || s.laneCfg e 13 12 == 3
  let s := s.iff bad (State.raise pgLANE 6)
  let s := s.iff (s.laneCfg e 11 8 != was) (fun s =>
    ((s.setPrbs e false).putTw pgLANE 1 e 3 0#32).modUni (fun u => { u with checkers := Sparse.put {} e {} u.checkers }))
  let s := (s.setAdapting e (Sparse.get false s.uni.adaptDue e)).iff (s.laneGen e != sent) (State.genStart e)
  (List.range 16).foldl (fun s p => s.iff (s.laneBlocked p && s.portLink p) (State.linkFall p)) s

/-- A committed watermark entry of a UNI port (R436, R443). -/
def State.commitUniq (p e : Nat) (ws : List Word) (s : State) : State :=
  let s := s.putMasked .uniq p 0 e ws
  let xoff := s.tf p 0 e 0 15 0
  let s := s.iff (xoff != 0 && decide (xoff ≤ s.tf p 0 e 0 31 16)) (State.raise p 13)
  s.pfcEntry (4 * (p - pgUNIQ 0) + e / 8) (e % 8)

/-- A committed word of keep RAM through the core window: a tree record stands in ACT table 2; a word of a saved image spoils
its CRC. -/
def State.commitKeep (e : Nat) (v : Word) (s : State) : State :=
  let m := fun (w : Nat) => BitVec.ofNat 32 (tableMask .act 2 w)
  if 0x10 ≤ e ∧ e < 0x18 then s.putTw (pgACT .a) 2 0 (e - 0x10) (v &&& m (e - 0x10))
  else if 0x18 ≤ e ∧ e < 0x20 then s.putTw (pgACT .b) 2 0 (e - 0x18) (v &&& m (e - 0x18))
  else
    let s := s.putTw pgKEEP 1 e 0 v
    match saveDomain e with
    | some d =>
      (match Sparse.get none s.keep.saves d with
       | some a => s.modKeep (fun k => { k with saves := Sparse.put none d (some { a with ok := false }) k.saves })
       | none => s)
    | none => s

/-- What the commit of an entry does (R58, and the rule of each table). -/
def State.commitEntry (w : Window) (p t e : Nat) (ws : List Word) (s : State) : State :=
  match pageInfo p with
  | none => s
  | some i =>
    let tree := instTree i.inst
    let word := fun (k : Nat) => ws[k]?.getD 0#32
    let put := s.putMasked i.blk p t e ws
    match i.blk, t with
    | .tx, 0 => put.noteHalLevel tree
    | .hal, 0 =>
      let st := s.fld p (halStateFld e)
      if st = 1 ∨ st = 2 then s.ignored p 0x020 1 else put
    | .swc, _ => (s.noteChange t e ws.length).putMasked .swc p t e ws
    | .dual, 0 => s.setStreamPolicy e (word 0)
    | .grt, 1 => s.tmcSubmit tree e (Fld.get ⟨0, 10, 0⟩ (word 0)) (Fld.get ⟨0, 12, 11⟩ (word 0)) (word 1).toNat
    | .usch, 0 =>
      put.iff (put.tb p 0 e 0 3 && !put.usch.bulkNoted && !put.flag pgUSCH USCH.statusXtierAvailable) (fun s =>
        (s.modUsch (fun u => { u with bulkNoted := true })).raise pgUSCH 5)
    | .pol, 0 => s.commitPol e ws
    | .xtr, 0 => s.segWrite e ws
    | .mir, 0 => put.modSto (fun x => { x with offered := Sparse.put 0 e 0 x.offered })
    | .lsec, _ => s.commitLsec t e ws
    | .kst, 0 => s.putEntry p 0 e 0 ((List.range 16).map (fun k => if kstSecretKey (16 * e + k) then s.tw p 0 e k else word k))
    | .time, 2 => put.launchJudge
    | .uniq, 0 => s.commitUniq p e ws
    | .lane, 0 => s.commitLane e ws
    | .hif, 0 => if (s.fn e).msixEnable then s.ignored p 0x020 1 else put
    | .dma, 0 => s.commitDma e ws
    | .core, 1 => put.coreRingTail e (put.tf pgCORE 1 e 2 15 0)
    | .tsk, _ => s.commitTsk t e ws
    | .flsh, 1 => s.putMasked .flsh (flashPage w) 1 e ws
    | .keep, 1 => s.commitKeep e (word 0)
    | .pin, 0 => if e < 69 then put else s
    | _, _ => put

/-- Words that the tables call read-only within an entry that is written, and the private-key field of staging (R382): a write of
one is ignored and recorded. -/
def roWord (b : Blk) (t e k : Nat) : Bool :=
  match b, t, k with
  | .kst, 0, _ => kstSecretKey (16 * e + k)
  | .sto, 0, 1 => true
  | .swc, 0, 1 => true
  | .swc, 0, 2 => true
  | .uniq, 0, 1 => true
  | .mir, 0, 1 => true
  | .tsk, 3, 1 => true
  | .core, 1, 3 => true
  | _, _, _ => false

/-- May a window write a table? -/
def TableInfo.writes (t : TableInfo) : Window → Bool
  | .host => t.host
  | .core => t.core

/-- The entry a window has staged whole: words that were not staged keep what they hold. -/
def State.stagedEntry (s : State) (w : Window) (p t e width : Nat) : List Word :=
  let q := if p = pgFLSH then flashPage w else p
  let loading := w == .core && p == pgTSK && s.loadsBank
  let old := fun (k : Nat) =>
    if loading && t == 0 then Sparse.get 0#32 s.core.otherTasks (4 * e + k)
    else if loading && t == 2 then Sparse.get 0#32 s.core.otherRoutes e
    else s.tw q t e k
  (List.range width).map (fun k => (Sparse.get none (s.win w p).staged k).getD (old k))

/-- A Normal-view write of INDIRECT_DATA (R58 to R60). -/
def State.indirectStage (w : Window) (p : Nat) (v : Word) (s : State) : State :=
  match s.winTarget w p, pageInfo p with
  | some ti, some i =>
    let t := s.winTable w p
    let e := s.winEntry w p
    let k := s.winWord w p
    if !ti.writes w || s.entryOff i.blk e then (s.ignored p 0x020 1).winAdvance w p ti.width
    else
      let s := s.iff (roWord i.blk t e k) (State.ignored p 0x020 1)
      let s := s.modWin w p (fun x => { x with staged := Sparse.put none k (some v) x.staged })
      let s := if k + 1 = ti.width then
          let ws := s.stagedEntry w p t e ti.width
          (s.modWin w p (fun x => { x with staged := [] })).commitEntry w p t e ws
        else s
      s.winAdvance w p ti.width
  | _, _ => s.raise p 21

/-- A write of INDIRECT_DATA: through another view than Normal it is ignored with cause 0b01 (R59). -/
def State.indirectWrite (p : Nat) (acc : Access) (s : State) : State :=
  s.guarded p 0x020 acc (fun s =>
    if acc.view = .normal then s.indirectStage acc.win p acc.val else s.ignored p 0x020 1)

/-- A write of INDIRECT_ADDR or INDIRECT_CTRL of a window: it takes effect, and staged words are discarded (R60). -/
def State.indirectPoint (p off : Nat) (acc : Access) (s : State) : State :=
  s.guarded p off acc (fun s =>
    let w := acc.win
    let s := s.iff (!(s.win w p).staged.isEmpty) (fun s => (s.modWin w p (fun x => { x with staged := [] })).raise p 21)
    match regInfo p off with
    | some r => s.putReg (winPage w p) off (s.writeValue (winPage w p) off acc r)
    | none => s)

end Sys2Proof.Machine
end

