-- ==== Sys2Proof/Machine/RegOps.lean ====
section
/-! DEFINITION. Register writes and reads: the common header (R48 to R53), and what a write of each block's own registers does
beside setting them (each chapter's page rules). -/

namespace Sys2Proof.Machine

/-! The common header. -/

/-- A soft reset of a page: its items 1 to 3 at once; PAGE_CTRL.soft_reset reads 1 until it completes (R49). -/
def State.softReset (p : Nat) (s : State) : State := (s.blockReset p).setFld p HDR.pageCtrlSoftReset 1

/-- A write of PAGE_CTRL that takes effect: a soft reset where it writes soft_reset 1, else the enable. -/
def State.ctrlWrite (p : Nat) (acc : Access) (s : State) : State :=
  match regInfo p 0x008 with
  | none => s
  | some r =>
    let v := s.writeValue p 0x008 acc r
    if v.getLsbD 1 then s.softReset p
    else
      let was := s.enabled p
      let s := s.setFld p HDR.pageCtrlEnable (b2n (v.getLsbD 0))
      if v.getLsbD 0 && !was then s.blockStart p
      else if was && !v.getLsbD 0 then s.blockStop p
      else s

/-- PAGE_CFG_STATUS.clear and TRIPLE_STATUS.clear: bits [27:0] and [26:0] become 0 (Table 2.4). -/
def State.cfgClear (p : Nat) (s : State) : State := s.setFld p ⟨0x00C, 27, 0⟩ 0
def State.tripleClear (p : Nat) (s : State) : State := s.setFld p ⟨0x028, 26, 0⟩ 0

/-- SYS_DARK_ACCESS.clear (R45). -/
def State.darkClear (s : State) : State :=
  ((s.setFld pgSYS SYS.darkAccessCount 0).setFld pgSYS SYS.darkAccessLastPage 0).setFld pgSYS SYS.darkAccessLastWasWrite 0

/-- A Normal-view write of a pennant (R52): it clears the event bits written as 1 where the sequence matches and no advance is
pending; any other is stale. -/
def State.pennantClear (p : Nat) (v : Word) (s : State) : State :=
  if HDR.pennantSequence.get v = s.fld p HDR.pennantSequence ∧ (s.pennant p).pend = false then
    s.setFld p HDR.pennantEvents ((BitVec.ofNat 32 (s.fld p HDR.pennantEvents)) &&& ~~~ v).toNat
  else s.stale p

/-- A write of PENNANT_MASK (R53): one message where it clears a mask bit whose event bit is set. -/
def State.maskWrite (p : Nat) (acc : Access) (s : State) : State :=
  let old := s.reg p 0x014
  let s := s.writePlain p 0x014 acc
  let cleared := old &&& ~~~ s.reg p 0x014 &&& BitVec.ofNat 32 (s.fld p HDR.pennantEvents)
  s.iff (cleared != 0#32) (State.sendPennant p)

/-! The registers of each block. -/

/-- The value that a write gives the register at `off`, its reachable bits apart from commands. -/
def State.newValue (s : State) (p off : Nat) (acc : Access) : Word :=
  match regInfo p off with
  | some r => s.writeValue p off acc r
  | none => 0#32

/-- A word of a host-written quantity written through a view: it acts on the word staged, or held (R42, R46). -/
def State.stageWrite (p off : Nat) (acc : Access) (s : State) : State :=
  match quantityOf p off with
  | some (base, n) => s.stageWord p base n ((off - base) / 4) (viewApply acc.view (s.stagedOrHeld p off) acc.val)
  | none => s

/-- A plain write, after which `bad` of the new value raises config_invalid at bit `b`. -/
def State.checkedWrite (p off : Nat) (acc : Access) (b : Nat) (bad : Word → Bool) (s : State) : State :=
  let s := s.writePlain p off acc
  s.iff (bad (s.reg p off)) (State.raise p b)

/-- Readings of the ageing sensors and monitors that no command brings: free values within the fields of LEHR table 0. -/
def State.freeReadings (s : State) : LehrReadings :=
  let f := fun (i : Nat) => Config.free (s.freeIx + i) % 65536
  { sensors := (List.range 9).map (fun i => (signed 16 (f (3 * i)), signed 16 (f (3 * i + 1)), f (3 * i + 2)))
    monitorA := signed 16 (f 27)
    monitorB := signed 16 (f 28) }

/-- RX_FEC_CTRL: a max_iter outside 1 to 24 stays as it was, and that is recorded with cause 0b01. -/
def State.fecCtrlWrite (p : Nat) (acc : Access) (s : State) : State :=
  let old := s.fld p RX.fecCtrlMaxIter
  let s := s.writePlain p 0x038 acc
  let n := s.fld p RX.fecCtrlMaxIter
  if 1 ≤ n ∧ n ≤ 24 then s else (s.setFld p RX.fecCtrlMaxIter old).ignored p 0x038 1

/-- OFE_I2C_CMD: a write with go starts a transfer; while one is in progress every write is ignored (R119). -/
def State.i2cWrite (p : Nat) (acc : Access) (s : State) : State :=
  if s.flag p OFE.i2cStatusBusy || (commandBits acc).getLsbD 25 then s.ofeGo p acc else s.writePlain p 0x060 acc

/-- Each command whose bit is set in `v`, in the order of the list. -/
def State.eachBit (v : Word) (l : List (Nat × (State → State))) (s : State) : State :=
  l.foldl (fun s x => s.iff (v.getLsbD x.1) x.2) s

/-- The registers of the Keeper's page, the clock judge and the ageing page. -/
def State.keepWrite (off : Nat) (acc : Access) (s : State) : State :=
  match off with
  | 0x030 => s.policyWrite false acc
  | 0x034 => s.policyWrite true acc
  | 0x040 => s.eachBit (commandBits acc) ((List.range 26).map (fun d => (d, State.wakeDomain d 0x3F)))
  | _ => s.writePlain pgKEEP off acc
def State.lehrWrite (off : Nat) (acc : Access) (s : State) : State :=
  match off with
  | 0x030 => s.checkedWrite pgLEHR 0x030 acc 5 (fun w => decide (86400 ≤ LEHR.cfgOffset.get w))
  | 0x040 => s.eachBit (commandBits acc) [(0, fun s => (s.replan s.freeReadings).modFreeIx (· + 29))]
  | _ => s.writePlain pgLEHR off acc

/-- The registers of the time engine. -/
def State.timeWrite (off : Nat) (acc : Access) (s : State) : State :=
  match off with
  | 0x044 =>
    let was := s.flag pgTIME TIME.cfgPpsEnable
    let s := s.checkedWrite pgTIME 0x044 acc 10 (fun w => TIME.cfgFoutSel.get w == 3)
    let on := s.flag pgTIME TIME.cfgPpsEnable
    ((s.iff (on && !was) State.ppsMark).iff (!on) State.ppsLow).foutJudge
  | 0x06C => (s.writePlain pgTIME off acc).launchJudge
  | 0x068 => s.eachBit (commandBits acc) [(0, State.timeSetCmd), (1, State.timeClearHost)]
  | 0x070 => s.checkedWrite pgTIME 0x070 acc 10 (fun w => let d := w.toNat % 256; decide (d < 24) || decide (43 < d))
  | _ => if 0x058 ≤ off ∧ off < 0x068 then s.stageWrite pgTIME off acc else s.writePlain pgTIME off acc

/-- The registers of a receiver, of a transmitter. -/
def State.rxWrite (r : Rx) (off : Nat) (acc : Access) (s : State) : State :=
  match off with
  | 0x038 => s.fecCtrlWrite (pgRX r) acc
  | 0x060 => s.i2cWrite (pgRX r) acc
  | _ => s.writePlain (pgRX r) off acc
def State.txWrite (t : Tree) (off : Nat) (acc : Access) (s : State) : State :=
  let p := pgTX t
  match off with
  | 0x03C => (s.writePlain p off acc).refreshPolicy t
  | 0x040 => ((s.writePlain p off acc).noteLaunch t).noteHalLevel t
  | 0x050 => s.eachBit (commandBits acc) [(0, State.forceRelease t)]
  | 0x060 => s.i2cWrite p acc
  | _ => s.writePlain p off acc

/-- The registers of a halyard unit, of a tree-mode machine. -/
def State.halWrite (t : Tree) (off : Nat) (acc : Access) (s : State) : State :=
  let p := pgHAL t
  match off with
  | 0x030 => (s.writePlain p off acc).halOffsetJudge t (s.halOffsetsOk t)
  | 0x038 =>
    (s.checkedWrite p off acc 11 (fun w => let a := HAL.txPwrAtten.get w; decide (a < 240) || decide (400 < a))).noteHalLevel t
  | 0x048 =>
    let v := commandBits acc
    s.eachBit v [(8, State.halSubmitCmd t (v.toNat % 4)), (9, State.halCancel t (v.toNat % 4))]
  | 0x054 => s.stageWrite p off acc
  | 0x058 => s.stageWrite p off acc
  | _ => s.writePlain p off acc
def State.actWrite (t : Tree) (off : Nat) (acc : Access) (s : State) : State :=
  let p := pgACT t
  match off with
  | 0x030 => s.hostMode t (ACT.modeMode.get (s.newValue p off acc))
  | 0x068 => s.eachBit (commandBits acc) [(0, State.releaseQuarantine t), (1, State.hostDeactivate t)]
  | _ => s.writePlain p off acc

/-- The registers of dual homing, of a grant processor, of the upstream scheduler. -/
def State.dualWrite (off : Nat) (acc : Access) (s : State) : State :=
  match off with
  | 0x030 => s.checkedWrite pgDUAL off acc 9 (fun w => decide (4 < DUAL.cfgHistory.get w))
  | 0x064 => s.eachBit (commandBits acc) [(0, State.flushMerge)]
  | _ => s.writePlain pgDUAL off acc
def State.grtWrite (t : Tree) (off : Nat) (acc : Access) (s : State) : State :=
  match off with
  | 0x030 =>
    s.checkedWrite (pgGRT t) off acc 5 (fun w => let l := GRT.cfgLead.get w; decide (l < 20) || decide (100 < l))
  | _ => s.writePlain (pgGRT t) off acc
def State.uschWrite (off : Nat) (acc : Access) (s : State) : State :=
  match off with
  | 0x03C => s.checkedWrite pgUSCH off acc 6 (fun w => decide (USCH.bulkHbmHigh.get w ≤ USCH.bulkHbmLow.get w))
  | _ => s.writePlain pgUSCH off acc

/-- FLOW_CMD: op 0 does nothing. -/
def State.flowWrite (off : Nat) (acc : Access) (s : State) : State :=
  match off with
  | 0x03C =>
    let op := (commandBits acc).toNat % 4
    if op = 0 then s else s.flowCommand op
  | _ => s.writePlain pgFLOW off acc

/-- The slot block of a UNI port (Table 13.5). -/
def State.uniqWrite (i off : Nat) (acc : Access) (s : State) : State :=
  let p := 0x21 + i
  let port := 4 * i + (off - 0x030) / 0x20
  match (off - 0x030) % 0x20 with
  | 0x00 => s.portConfig port acc
  | 0x08 => (s.checkedWrite p off acc 13 (fun w => w.toNat % 4 == 3)).pfcJudge port
  | _ => s.writePlain p off acc

/-- LANE_INJECT. -/
def State.laneWrite (off : Nat) (acc : Access) (s : State) : State :=
  match off with
  | 0x038 =>
    let v := commandBits acc
    s.eachBit v [(4, State.laneInject (v.toNat % 16))]
  | _ => s.writePlain pgLANE off acc

/-- The registers of the host interface. -/
def State.hifWrite (off : Nat) (acc : Access) (s : State) : State :=
  match off with
  | 0x038 =>
    s.checkedWrite pgHIF off acc 13 (fun w => let n := HIF.linkCfgNarrowWidth.get w; decide (n < 1) || decide (3 < n))
  | 0x044 => s.wakeClear ((commandBits acc).toNat / 256 % 8)
  | _ => if 0x050 ≤ off ∧ off < 0x060 then s.stageWrite pgHIF off acc else s.writePlain pgHIF off acc

/-- The registers of the cores: CORE_PUNTY_CMD is ignored from the host window. A write of arm alone names no handover address:
a free value. -/
def State.coreWrite (off : Nat) (acc : Access) (s : State) : State :=
  match off with
  | 0x038 => s.coreRelease ((commandBits acc).toNat % 65536)
  | 0x040 =>
    if acc.win = .host then s.ignored pgCORE off 1
    else s.eachBit (commandBits acc)
      [(0, fun s => (s.puntyArm (s.freeVal (2 ^ 23))).useFree), (1, State.puntyReady), (2, State.puntyCommit),
       (3, State.puntyAbort 4)]
  | _ => s.writePlain pgCORE off acc
def State.tskWrite (off : Nat) (acc : Access) (s : State) : State :=
  match off with
  | 0x038 =>
    let v := (commandBits acc).toNat
    s.tskSet (v % 1024) (v / 1024 % 32)
  | _ => s.writePlain pgTSK off acc

/-- CCRY_CMD and KST_CMD. -/
def State.ccryWrite (off : Nat) (acc : Access) (s : State) : State :=
  match off with
  | 0x038 =>
    let v := commandBits acc
    let k := v.toNat % 8
    s.eachBit v [(3, State.ccryStart k), (4, State.ccryAbort k), (5, State.ccryExport k (v.getLsbD 7)), (6, State.ccryImport k)]
  | _ => s.writePlain pgCCRY off acc
def State.kstCmdWrite (off : Nat) (acc : Access) (s : State) : State :=
  match off with
  | 0x038 =>
    if acc.win = .host ∨ s.enabled pgKST = false then s.ignored pgKST off 1
    else s.eachBit (commandBits acc) [(0, State.kstCommit), (1, State.kstGenkey)]
  | _ => s.writePlain pgKST off acc

/-- The flash registers: the command registers exist once per window (R525); confirm is ignored from the host window. -/
def State.flshWrite (off : Nat) (acc : Access) (s : State) : State :=
  match off with
  | 0x038 =>
    let v := commandBits acc
    let op := v.toNat % 8
    if op = 0 then s
    else if 4 < op then (s.iff (acc.win == .host && s.works pgFLSH) (State.count (cuFLSH + 11))).ignored pgFLSH off 1
    else s.flashCommand acc.win op (v.getLsbD 3)
  | 0x04C =>
    let v := commandBits acc
    if v.getLsbD 0 && acc.win == .host then s.ignored pgFLSH off 1
    else s.eachBit v [(0, State.bootConfirm), (1, State.bootRetry)]
  | _ =>
    match regInfo pgFLSH off with
    | some r => s.putReg (flashPage acc.win) off (s.writeValue (flashPage acc.win) off acc r)
    | none => s

/-- PIN_RELEASE: whether the fault is still present is a free value. -/
def State.pinWrite (off : Nat) (acc : Access) (s : State) : State :=
  match off with
  | 0x038 =>
    let v := commandBits acc
    s.eachBit v [(9, fun s => (s.pinRelease (v.toNat % 512) (s.freeVal 2 == 1)).useFree)]
  | _ => s.writePlain pgPIN off acc

/-- A write of one of a block's own registers that takes effect. -/
def State.blockWrite (i : PageInfo) (off : Nat) (acc : Access) (s : State) : State :=
  let t := instTree i.inst
  match i.blk with
  | .sys =>
    if off = 0x038 then s.eachBit (commandBits acc) [(31, State.darkClear)]
    else if off = 0x03C then s.sysRegionRelease ((commandBits acc).toNat % 512)
    else s
  | .keep => s.keepWrite off acc
  | .clk =>
    if off = 0x034 then s.clkForceCmd (CLK.selForce.get (s.newValue pgCLK off acc)) else s.writePlain pgCLK off acc
  | .lehr => s.lehrWrite off acc
  | .time => s.timeWrite off acc
  | .rx => s.rxWrite (instRx i.inst) off acc
  | .tx => s.txWrite t off acc
  | .hal => s.halWrite t off acc
  | .act => s.actWrite t off acc
  | .dual => s.dualWrite off acc
  | .grt => s.grtWrite t off acc
  | .usch => s.uschWrite off acc
  | .flow => s.flowWrite off acc
  | .sto =>
    if off = 0x044 then s.eachBit (commandBits acc) [(31, State.setFld pgSTO STO.auditStatusFailed 0)]
    else s.writePlain pgSTO off acc
  | .uniq => s.uniqWrite i.inst off acc
  | .lane => s.laneWrite off acc
  | .hif => s.hifWrite off acc
  | .core => s.coreWrite off acc
  | .tsk => s.tskWrite off acc
  | .ccry => s.ccryWrite off acc
  | .kst => s.kstCmdWrite off acc
  | .flsh => s.flshWrite off acc
  | .cnt =>
    if off = 0x030 then s.snapCtrl (commandBits acc)
    else if 0x040 ≤ off ∧ off < 0x050 then s.stageWrite pgCNT off acc
    else s.writePlain pgCNT off acc
  | .pin => s.pinWrite off acc
  | _ => s.writePlain i.page off acc

/-- A write that takes effect (Table 2.3). -/
def State.applyWrite (i : PageInfo) (off : Nat) (acc : Access) (s : State) : State :=
  let p := i.page
  match off with
  | 0x008 => s.ctrlWrite p acc
  | 0x00C => s.eachBit (commandBits acc) [(31, State.cfgClear p)]
  | 0x010 => s.pennantClear p acc.val
  | 0x014 => s.maskWrite p acc
  | 0x018 => s.writePlain p off acc
  | 0x028 => s.eachBit (commandBits acc) [(31, State.tripleClear p)]
  | _ => s.blockWrite i off acc

/-! Function windows (R456). -/

/-- A write of a window that is ignored and counted in FUNC_STATUS.ignored. -/
def State.fnIgnored (f : Nat) (s : State) : State := s.modFn f (fun x => { x with ignored := satAdd 255 x.ignored 1 })

/-- RING_CFG written: size and buffers only while the enable is 0; a change of the enable starts or drains the ring. -/
def State.ringCfgWrite (f : Nat) (rx : Bool) (k : Nat) (v : Word) (s : State) : State :=
  let p := fnPage f
  let off := ringBase rx k + 0x10
  let old := s.reg p off
  let on := old.getLsbD 0
  let fixed := 0x00003F3C#32
  let v := v &&& 0xFFFF3F3F#32
  let bad := on && (old ^^^ v) &&& fixed != 0#32
  let s := s.putReg p off (if on then (v &&& ~~~ fixed) ||| (old &&& fixed) else v)
  let s := s.iff bad (State.fnIgnored f)
  if v.getLsbD 0 && !on then s.ringRun f rx k
  else if on && !v.getLsbD 0 then s.drainRing f rx k false
  else s

/-- A word of a function's MSI-X table written (R459). -/
def State.msixWrite (f v w : Nat) (x : Word) (s : State) : State :=
  let d := if w = 3 then 1#32 else 0#32
  let s := s.modHif (fun h => { h with
    msixTab := Sparse.put d (vecKey f v * 4 + w) (if w = 3 then x &&& 1#32 else x) h.msixTab })
  s.iff (w == 3 && !x.getLsbD 0) (State.sendPending f)

/-- A write of function `f`'s window at `off`. There are no views; a write with fewer byte enables is ignored and counted. -/
def State.windowWrite (f off : Nat) (acc : Access) (s : State) : State :=
  if !s.windowOpen f || acc.view != .normal then s
  else if acc.be ≠ 15#4 then s.fnIgnored f
  else if off < 0x800 then
    let rx := decide (0x400 ≤ off)
    let k := off % 0x400 / 0x20
    if s.rgCount f rx ≤ k then s
    else match off % 0x20 with
      | 0x10 => s.ringCfgWrite f rx k acc.val
      | 0x14 => s.ringTail f rx k (acc.val.toNat % 65536)
      | 0x1C => s.iff (!rx) (State.eachBit acc.val [(8, State.ringRestart f k), (9, State.ringSkip f k)])
      | _ =>
        match quantityOf (fnPage f) off with
        | some (base, n) =>
          if s.rg f rx k RING.cfgEnable = 1 then s.fnIgnored f
          else s.stageWord (fnPage f) base n ((off - base) / 4) acc.val
        | none => s
  else if off = 0x804 then s.iff (acc.val.getLsbD 31) (State.modFn f (fun x => { x with ignored := 0 }))
  else if 0x4000 ≤ off ∧ off < 0xC000 then
    let v := (off - 0x4000) / 16
    if v < (s.vectors f).2 then s.msixWrite f v (off % 16 / 4) acc.val else s
  else s

/-! Accesses. -/

/-- A write of the register at `off` of page `p`; page 256 + f is function `f`'s window. -/
def State.registerWrite (p off : Nat) (acc : Access) (s : State) : State :=
  if 256 ≤ p then (if p < 512 ∧ off % 4 = 0 then s.windowWrite (p - 256) off acc else s)
  else match pageInfo p with
  | none => s
  | some i =>
    if off = 0x020 then s.indirectWrite p acc
    else if off = 0x01C ∨ off = 0x024 then s.indirectPoint p off acc
    else s.guarded p off acc (State.applyWrite i off acc)

/-- A read of the register at `off` of page `p` by the host; reserved offsets read 0. A read finds and corrects a differing copy
(R56). -/
def State.registerRead (p off : Nat) (s : State) : State :=
  if 256 ≤ p then (if p < 512 then s.windowRead (p - 256) off else s.modReadData (fun _ => 0#32))
  else if (pageInfo p).isNone then s.modReadData (fun _ => 0#32)
  else if off = 0x020 then s.indirectRead .host p
  else if s.dark p then (s.darkAccess p false).modReadData (fun _ => 0xFFFFFFFF#32)
  else
    let s := s.scrubReg p off
    s.latchRead (s.regValue p) p off

end Sys2Proof.Machine
end

