-- ==== Sys2Proof/Machine/RegisterModel.lean ====
section
/-! DEFINITION. The commands of the register model (R41 to R61). -/

namespace Sys2Proof.Machine

/-- REGISTER_WRITE (R41, R46): a write of the register at `off` of page `page`; page 256 + f is function f's window. A 64-bit
access writes the lower offset first. -/
def execRegisterWrite (page off : Nat) (acc : Access) (hi : Option (BitVec 4 × Word)) (s : State) :
    Host.Outcome State Fault Refusal :=
  let s := s.registerWrite page off acc
  .next (match hi with
    | some h => s.registerWrite page (off + 4) { acc with be := h.1, val := h.2 }
    | none => s)

/-- DARK_PAGE_ACCESS (R44): an access to a page that is dark, or to whose die the link does not complete the access. -/
def execDarkPageAccess (page : Nat) (isWrite : Bool) (s : State) : Host.Outcome State Fault Refusal :=
  .next (match pageInfo page with
    | some i =>
      if s.dark page || i.die != 1 then
        (s.darkAccess page isWrite).iff (!isWrite) (fun s => s.modReadData (fun _ => 0xFFFFFFFF#32))
      else s
    | none => s)

/-- LATCHING_READ (R41, R42): a read of a register by the host. A 64-bit access reads the lower offset first. -/
def execLatchingRead (page off : Nat) (wide : Bool) (s : State) : Host.Outcome State Fault Refusal :=
  let s := s.registerRead page off
  .next (if wide then
      let h := s.registerRead page (off + 4)
      (h.modReadHigh (fun _ => h.readData)).modReadData (fun _ => s.readData)
    else s)

/-- RWT_VOTED_READ (R56): a read of a triplicated register. -/
def execRwtVotedRead (page off : Nat) (s : State) : Host.Outcome State Fault Refusal :=
  .next (s.iff (rwtVote page off).isSome (State.registerRead page off))

/-- SYS_DARK_ACCESS_CLEAR (R45). -/
def execSysDarkAccessClear (s : State) : Host.Outcome State Fault Refusal :=
  .next (s.guarded pgSYS 0x038 (cmdAccess 0x80000000#32) State.darkClear)

/-- CFG_STATUS_CLEAR (R48): the write is not itself recorded. -/
def execCfgStatusClear (page : Nat) (s : State) : Host.Outcome State Fault Refusal :=
  .next (s.iff (pageInfo page).isSome (State.guarded page 0x00C (cmdAccess 0x80000000#32) (State.cfgClear page)))

/-- TRIPLE_STATUS_CLEAR (R48). -/
def execTripleStatusClear (page : Nat) (s : State) : Host.Outcome State Fault Refusal :=
  .next (s.iff (pageInfo page).isSome (State.guarded page 0x028 (cmdAccess 0x80000000#32) (State.tripleClear page)))

/-- SOFT_RESET (R49). -/
def execSoftReset (page : Nat) (s : State) : Host.Outcome State Fault Refusal :=
  .next (s.iff (pageInfo page).isSome (State.guarded page 0x008 (cmdAccess 2#32) (State.softReset page)))

/-- SOFT_RESET_COMPLETE (R49): item 4. -/
def execSoftResetComplete (page : Nat) (s : State) : Host.Outcome State Fault Refusal :=
  .next (s.iff ((pageInfo page).isSome && s.flag page HDR.pageCtrlSoftReset) (State.setFld page HDR.pageCtrlSoftReset 0))

/-- PENNANT_EVENT (R51): event `bit` of a page occurs. -/
def execPennantEvent (page bit : Nat) (s : State) : Host.Outcome State Fault Refusal :=
  .next (s.iff ((pageInfo page).isSome && s.alive page && pennantBitOk page bit) (State.raise page bit))

/-- PENNANT_ADVANCE (R51): the end of the 1 µs hold of a page's pennant. -/
def execPennantAdvance (page : Nat) (s : State) : Host.Outcome State Fault Refusal :=
  .next (s.iff (pageInfo page).isSome (State.pennantHoldEnd page))

/-- PENNANT_CLEAR (R52). -/
def execPennantClear (page : Nat) (v : Word) (s : State) : Host.Outcome State Fault Refusal :=
  .next (s.iff (pageInfo page).isSome (State.guarded page 0x010 (cmdAccess v) (State.pennantClear page v)))

/-- PENNANT_MASK_WRITE (R53). -/
def execPennantMaskWrite (page : Nat) (acc : Access) (s : State) : Host.Outcome State Fault Refusal :=
  .next (s.iff (pageInfo page).isSome (State.guarded page 0x014 acc (State.maskWrite page acc)))

/-- TRIPLE_SCRUB (R56, R57, R569). -/
def execTripleScrub (s : State) : Host.Outcome State Fault Refusal := .next s.scrubAll

/-- INDIRECT_DATA_WRITE (R58, R59): in the Normal view. -/
def execIndirectDataWrite (win : Window) (page : Nat) (v : Word) (s : State) : Host.Outcome State Fault Refusal :=
  .next (s.iff (pageInfo page).isSome (State.indirectWrite page ⟨win, .normal, 15#4, v⟩))

/-- INDIRECT_DATA_READ (R58, R59). -/
def execIndirectDataRead (win : Window) (page : Nat) (s : State) : Host.Outcome State Fault Refusal :=
  .next (s.iff (pageInfo page).isSome (State.indirectRead win page))

/-- INDIRECT_ADDR_WRITE (R60): INDIRECT_ADDR, or with `ctrl` INDIRECT_CTRL, of a window. -/
def execIndirectAddrWrite (win : Window) (page : Nat) (ctrl : Bool) (acc : Access) (s : State) :
    Host.Outcome State Fault Refusal :=
  .next (s.iff (pageInfo page).isSome (State.indirectPoint page (if ctrl then 0x024 else 0x01C) { acc with win := win }))

end Sys2Proof.Machine
end

