-- ==== Sys2Proof/Machine/Reliability.lean ====
section
/-! DEFINITION. The commands of containment, die-to-die links, pins and the Lehr engine (R561 to R582, R590). -/

namespace Sys2Proof.Machine

/-- UNIT_CONTAIN (R23, R561): unit `unit` of a page contained; unit 0 is the block itself. -/
def execUnitContain (page unit : Nat) (s : State) : Host.Outcome State Fault Refusal := .next (s.unitContain page unit)

/-- REGION_CONTAIN (R25, R561): a region contained with a cause. -/
def execRegionContain (region cause : Nat) (s : State) : Host.Outcome State Fault Refusal :=
  .next (s.regionContain region cause)

/-- THERMAL_LIMIT (R562): a sensor of the region above 115 °C for 1 ms. -/
def execThermalLimit (region : Nat) (s : State) : Host.Outcome State Fault Refusal := .next (s.thermalLimit region)

/-- THERMAL_RELEASE (R561): every sensor of the region below 105 °C for 1 s. -/
def execThermalRelease (region : Nat) (s : State) : Host.Outcome State Fault Refusal :=
  .next (s.iff (s.containCause region == 2) (State.regionRelease region))

/-- SYS_REGION_RELEASE (R563): the register written. -/
def execSysRegionRelease (mask : Nat) (s : State) : Host.Outcome State Fault Refusal :=
  .next (s.guarded pgSYS 0x03C (cmdAccess (BitVec.ofNat 32 mask)) (State.sysRegionRelease mask))

/-- FLIT_CRC_FAIL (R566, R567): a flit received, in the direction back where `back`; one whose CRC holds is no failure. -/
def execFlitCrcFail (link : Nat) (back : Bool) (flit : Bytes) (s : State) : Host.Outcome State Fault Refusal :=
  .next (s.flitReceive link (b2n back) flit)

/-- LINK_RETRAIN (R567): `ok` says that a retrain succeeds before retrain_max of them have failed. -/
def execLinkRetrain (link : Nat) (ok : Bool) (s : State) : Host.Outcome State Fault Refusal := .next (s.linkRetrain link ok)

/-- D2D_RETRAIN_RETRY (R567): a link that is down retrains again. -/
def execD2dRetrainRetry (link : Nat) (ok : Bool) (s : State) : Host.Outcome State Fault Refusal := .next (s.linkRetry link ok)

/-- D2D_LINK_UP (R561, R568): a link has trained. -/
def execD2dLinkUp (link : Nat) (s : State) : Host.Outcome State Fault Refusal :=
  .next (s.iff (decide (link < 3) && !s.linkUp link) (State.linkCameUp link))

/-- PIN_SHORT (R571): four consecutive comparisons of an output mismatch. -/
def execPinShort (pin : Nat) (s : State) : Host.Outcome State Fault Refusal := .next (s.pinShort pin)

/-- PIN_OPEN_TEST (R572): the test of an input: whether its pad follows each pull, or changes for another reason. -/
def execPinOpenTest (pin : Nat) (followsUp followsDown changed : Bool) (s : State) : Host.Outcome State Fault Refusal :=
  .next (s.pinOpenTest pin followsUp followsDown changed)

/-- PIN_RELEASE (R573): the register written with go; `stillFaulty` is the test's finding. -/
def execPinRelease (pin : Nat) (stillFaulty : Bool) (s : State) : Host.Outcome State Fault Refusal :=
  .next (s.guarded pgPIN 0x038 (cmdAccess (BitVec.ofNat 32 (pin % 512 + 512))) (State.pinRelease (pin % 512) stillFaulty))

/-- REPLAN (R574): the day's re-plan falls due. -/
def execReplan (r : LehrReadings) (s : State) : Host.Outcome State Fault Refusal := .next (s.replanDaily r)

/-- LEHR_REPLAN_NOW (R574): LEHR_CMD.replan_now written. -/
def execLehrReplanNow (r : LehrReadings) (s : State) : Host.Outcome State Fault Refusal :=
  .next (s.guarded pgLEHR 0x040 (cmdAccess 1#32) (State.replan r))

/-- REPLAN_DEFERRED_START (R574): what deferred the re-plan is gone. -/
def execReplanDeferredStart (r : LehrReadings) (s : State) : Host.Outcome State Fault Refusal := .next (s.replanDeferred r)

/-- AVS_WRITE_DONE (R576): the Vout write of a rail is acknowledged, or has failed after three retries. -/
def execAvsWriteDone (rail : Nat) (ack : Bool) (s : State) : Host.Outcome State Fault Refusal := .next (s.avsDone rail ack)

/-- SYS_RST (R590): SYS_RST# has been low for `widthNs` ns. -/
def execSysRst (widthNs : Nat) (s : State) : Host.Outcome State Fault Refusal :=
  .next (s.iff (!s.padOpen 67) (State.sysRst widthNs))

end Sys2Proof.Machine
end

