-- ==== Sys2Proof/Machine/Store.lean ====
section
/-! DEFINITION. The store's commands: admission, memory errors, downstream scheduling, samples, the tier, the audit (R318 to
R356). -/

namespace Sys2Proof.Machine

/-- FRAME_ADMIT_START (R325). -/
def execFrameAdmitStart (f : AdmitReq) (s : State) : Host.Outcome State Fault Refusal :=
  .next (s.admitStart f (s.framePrio f.srcNum f.bytes)).1

/-- COPY_DECIDE (R327). -/
def execCopyDecide (id : Nat) (s : State) : Host.Outcome State Fault Refusal := .next (s.copyDecide id)

/-- FRAME_ADMIT_END (R325): `err` says that the MAC reported an ingress error, `poolEmpty` that the pool was empty when a cell
was needed. -/
def execFrameAdmitEnd (id : Nat) (err poolEmpty : Bool) (s : State) : Host.Outcome State Fault Refusal :=
  .next (s.admitEnd id err poolEmpty)

/-- BACKLOG_SPILL (R344). -/
def execBacklogSpill (q : Nat) (s : State) : Host.Outcome State Fault Refusal := .next (s.backlogStep q)

/-- MEM_UNCORRECTABLE (R324). -/
def execMemUncorrectable (what : MemErr) (s : State) : Host.Outcome State Fault Refusal := .next (s.memError what)

/-- DSCH_SELECT (R336). -/
def execDschSelect (port : Nat) (s : State) : Host.Outcome State Fault Refusal := .next (s.dschSelect port)

/-- UNI_TX_COMPLETE (R328): a port in near-end loopback receives the frame it has sent (R432). -/
def execUniTxComplete (port : Nat) (s : State) : Host.Outcome State Fault Refusal :=
  let p := port % 16
  let t := s.uniComplete p
  .next (t.iff ((s.sendingOn p).isSome && (t.sendingOn p).isNone && t.portLooped p)
    (State.uniReceive p (Sparse.get [] s.sto.sendBytes p) false 0 0))

/-- DSCH_AGE_SWEEP (R338): ageing and the sweep continue while the page is disabled (R354). -/
def execDschAgeSweep (s : State) : Host.Outcome State Fault Refusal :=
  .next ((s.queuesWith (fun _ => true)).foldl (fun s q => s.examineDown q) s)

/-- PORT_FLUSH (R339): UNI port 0 to 15, or host function `port − 16`. -/
def execPortFlush (port : Nat) (s : State) : Host.Outcome State Fault Refusal := .next (s.portFlush port)

/-- SAMPLE_DELIVER (R341): `bufs` are the receive ring's entries from its head on, as host memory holds them. -/
def execSampleDeliver (bufs : List Bytes) (s : State) : Host.Outcome State Fault Refusal := .next (s.sampleDeliver bufs)

/-- DSCH_DISABLE (R354). -/
def execDschDisable (s : State) : Host.Outcome State Fault Refusal := .next (s.pageOff pgDSCH id)

/-- STO_DISABLE (R351). -/
def execStoDisable (s : State) : Host.Outcome State Fault Refusal := .next (s.pageOff pgSTO id)

/-- SWC_DISABLE (R353). -/
def execSwcDisable (s : State) : Host.Outcome State Fault Refusal := .next (s.pageOff pgSWC id)

/-- MIR_DISABLE (R355). -/
def execMirDisable (s : State) : Host.Outcome State Fault Refusal := .next (s.pageOff pgMIR id)

/-- XTR_DISABLE (R352): available reads 0. -/
def execXtrDisable (s : State) : Host.Outcome State Fault Refusal := .next (s.pageOff pgXTR State.showTier)

/-- XTR_SEGMENT_WRITE (R347): the entry committed through the indirect window. -/
def execXtrSegmentWrite (seg : Nat) (w0 w1 w2 w3 : Word) (s : State) : Host.Outcome State Fault Refusal :=
  .next (s.guarded pgXTR 0x020 (cmdAccess w3) (State.segWrite (seg % 65536) [w0, w1, w2, w3]))

/-- TIER_READ_FAIL (R346): a record's data, or with `whole` both header copies or a descriptor image. -/
def execTierReadFail (q : Nat) (whole : Bool) (s : State) : Host.Outcome State Fault Refusal :=
  .next (if whole then s.loseChain q else s.loseRecord q)

/-- AUDIT_EVAL (R349). -/
def execAuditEval (s : State) : Host.Outcome State Fault Refusal := .next (s.iff (s.alive pgSTO) State.auditEval)

/-- AUDIT_SWEEP_START (R350). -/
def execAuditSweepStart (s : State) : Host.Outcome State Fault Refusal :=
  .next (s.iff (s.alive pgSTO) (State.setFld pgSTO STO.sweepStatusSweeping 1))

/-- AUDIT_SWEEP_DONE (R350). -/
def execAuditSweepDone (s : State) : Host.Outcome State Fault Refusal :=
  .next (s.iff (s.flag pgSTO STO.sweepStatusSweeping) State.sweepDone)

/-- AUDIT_STATUS_CLEAR (R351). -/
def execAuditStatusClear (s : State) : Host.Outcome State Fault Refusal :=
  .next (s.guarded pgSTO 0x044 (cmdAccess 0x80000000#32) (State.setFld pgSTO STO.auditStatusFailed 0))

end Sys2Proof.Machine
end

