-- ==== Sys2Proof/Machine/Tmc.lean ====
section
/-! DEFINITION. The terminal-management messages (R196 to R208, R224, R240, R368 to R372, R393, R394): one meaning per
message type. Each is run by the shared reception `tmcKind`, which filters, authenticates and answers. -/

namespace Sys2Proof.Machine

/-! Joining (R202, R203). -/

/-- The largest EqD (R201). -/
def eqdMax : Nat := 15552000

/-- The tree record as REGISTER writes it (Table 6.7). -/
def State.registerRecord (t : Tree) (term wl mgmt : Nat) (s : State) : State :=
  let id := match s.controlRx t with
    | some r => (s.frmHeId r, s.frmTreeId r)
    | none => (0, 0)
  let s := s.setRecord t 0 (natBE 6 id.1 ++ natBE 4 id.2 ++ natBE 2 term)
  s.setRecord t 21 (natBE 1 (1 + 2 * wl) ++ natBE 2 mgmt)

/-- REGISTER executed. With an empty keystore the terminal cannot register (R380). With every local index bound, its management allocation has none to take, and it is refused without a response
(DESIGN CHOICE, log entry 130). -/
def State.register (t : Tree) (fc : Nat) (x : TmcMsg) (s : State) : State × Reply :=
  let b := x.body
  let term := fieldAt b 8 2
  let mgmt := fieldAt b 10 2
  let wl := byteAt b 20 / 128
  match s.localFree with
  | some a =>
    if s.kstActive.isNone ∨ fieldAt b 0 8 ≠ s.serial t ∨ eqdMax < fieldAt b 12 4 then (s, .refused)
    else
      let p := pgACT t
      let s := s.registerRecord t term wl mgmt
      let s := (s.setFld (pgHAL t) HAL.termTerminalId term).setFld (pgHAL t) HAL.termIdValid 1
      let s := (s.setFld p ACT.mgmtAllocId mgmt).setFld p ACT.mgmtValid 1
      let s := (s.setFld p ACT.statusRegistered 1).setFld p ACT.statusControlWl wl
      let s := (s.bindAlloc t a mgmt 0 0 true).setEqdPending t (fieldAt b 12 4) (fieldAt b 16 4) fc
      let s := ((s.count (cuACT t + 3)).raise p 2).setMode t 3
      (s, .code 0 (natBE 1 0 ++ natBE 2 (unsigned 16 (s.halReference t))))
  | none => (s, .refused)

/-- REGISTER (R202 step 5). -/
def execRegister (t : Tree) (m : TmcIn) (s : State) : Host.Outcome State Fault Refusal :=
  let fc := s.tmcFcOf t m
  .next (s.tmcKind t m 0x01 (fun x s => s.register t fc x))

/-- Is an EqD change pending? -/
def State.eqdBusy (s : State) (t : Tree) : Bool := s.flag (pgACT t) ACT.eqdPendingPending

/-- RANGE_CONFIRM executed: EqD, frequency report, lane fix (R202 step 7). -/
def State.rangeConfirm (t : Tree) (fc : Nat) (x : TmcMsg) (s : State) : State × Reply :=
  let b := x.body
  if s.eqdBusy t then (s, .code 0x0A [])
  else if eqdMax < fieldAt b 0 4 then (s, .code 0x09 [])
  else
    let s := (s.setEqdPending t (fieldAt b 0 4) (fieldAt b 4 4) fc).reportFreq t (fieldAt b 8 4)
    let fix := fieldAt b 12 2
    let s := (s.modTxs t (fun x => { x with laneDue := some (bitsOf fix 8 4, bitsOf fix 3 0) })).betweenBursts t
    (s.modActs t (fun a => { a with confirmed := true }), .code 0 [])

/-- RANGE_CONFIRM (R202). -/
def execRangeConfirm (t : Tree) (m : TmcIn) (s : State) : Host.Outcome State Fault Refusal :=
  let fc := s.tmcFcOf t m
  .next (s.tmcKind t m 0x02 (fun x s => s.rangeConfirm t fc x))

/-- ADJUST executed: EqD, frequency report, launch target (Table 6.5). -/
def State.adjust (t : Tree) (fc : Nat) (x : TmcMsg) (s : State) : State × Reply :=
  let b := x.body
  let target := signed 16 (fieldAt b 12 2)
  let move := fieldAt b 12 2 != 0x7FFF
  if s.eqdBusy t then (s, .code 0x0A [])
  else if eqdMax < fieldAt b 0 4 then (s, .code 0x09 [])
  else if move && launchOutOfRange t target then (s, .code 0x09 [])
  else
    let s := ((s.setEqdPending t (fieldAt b 0 4) (fieldAt b 4 4) fc).reportFreq t (fieldAt b 8 4)).betweenBursts t
    (s.iff move (fun s => ((s.setSFld (pgTX t) TX.launchTarget target).noteLaunch t).noteHalLevel t), .code 0 [])

/-- ADJUST (R203). -/
def execAdjust (t : Tree) (m : TmcIn) (s : State) : Host.Outcome State Fault Refusal :=
  let fc := s.tmcFcOf t m
  .next (s.tmcKind t m 0x03 (fun x s => s.adjust t fc x))

/-- DEACTIVATE (R192): no response. -/
def execDeactivate (t : Tree) (m : TmcIn) (s : State) : Host.Outcome State Fault Refusal :=
  .next (s.tmcKind t m 0x04 (fun _ s => (s.setMode t 1, .silent)))

/-- DISABLE (R217): Quarantine with cause 1 and the message's reason. -/
def execDisable (t : Tree) (m : TmcIn) (s : State) : Host.Outcome State Fault Refusal :=
  .next (s.tmcKind t m 0x05 (fun x s =>
    if fieldAt x.body 0 8 = s.serial t then (s.quarantine t 1 (byteAt x.body 8), .silent) else (s, .refused)))

/-- ENABLE (R217). -/
def execEnable (t : Tree) (m : TmcIn) (s : State) : Host.Outcome State Fault Refusal :=
  .next (s.tmcKind t m 0x06 (fun x s =>
    if fieldAt x.body 0 8 = s.serial t then (s.leaveQuarantine t, .silent) else (s, .refused)))

/-- PARK executed (R211). -/
def State.park (t : Tree) (x : TmcMsg) (s : State) : State × Reply :=
  let ci := fieldAt x.body 0 2
  if ci < 8 ∨ 8000 < ci then (s, .code 0x01 [])
  else
    let s := (s.setFld (pgACT t) ACT.parkCheckInterval ci).setFld (pgACT t) ACT.parkMaxMaxPark (fieldAt x.body 2 4)
    (s.setMode t 5, .code 0 [])

/-- PARK (R211). -/
def execPark (t : Tree) (m : TmcIn) (s : State) : Host.Outcome State Fault Refusal :=
  .next (s.tmcKind t m 0x07 (fun x s => s.park t x))

/-- STATUS_REQUEST's response (Table 6.5). -/
def State.statusBody (s : State) (t : Tree) : Bytes :=
  let margin := match s.controlRx t with
    | some r => s.fld (pgRX r) RX.fomMargin
    | none => 0
  natBE 1 (s.mode t) ++ natBE 1 (b2n (s.flag pgSUP SUP.statusBattery) + 2 * b2n (s.flag pgSUP SUP.statusSupplyWarning) +
    4 * b2n (s.keyed t)) ++ natBE 1 0 ++ natBE 2 margin ++ natBE 2 s.tenantsUsed ++
    natBE 2 s.allocsUsed ++ natBE 1 (s.fld (pgTX t) TX.statusRogueCause) ++ natBE 1 0

/-- STATUS_REQUEST (R200). -/
def execStatusRequest (t : Tree) (m : TmcIn) (s : State) : Host.Outcome State Fault Refusal :=
  .next (s.tmcKind t m 0x08 (fun _ s => (s, .code 0 (s.statusBody t))))

/-! Tenants and allocations (R205 to R208, R271). -/

/-- The number a provisioning gives a tenant_uid: its own on either tree, else the lowest free. -/
def State.provisionNumber (s : State) (t : Tree) (uid : Nat) : Option Nat :=
  match s.tenantOn t uid with
  | some n => some n
  | none =>
    match s.tenantNumber uid with
    | some n => some n
    | none => (List.range 256).find? s.tenantFree

/-- TENANT_PROVISION executed. -/
def State.provision (t : Tree) (x : TmcMsg) (s : State) : State × Reply :=
  let b := x.body
  let uid := fieldAt b 0 8
  if uid = 0 then (s, .code 0x01 (natBE 1 0))
  else
    match s.provisionNumber t uid with
    | some n => (s.attachTenant t n uid (fieldAt b 10 2) (byteAt b 8 / 128 == 1), .code 0 (natBE 1 n))
    | none => ((s.count (cuACT t + 13)).raise (pgACT t) 13, .code 0x04 (natBE 1 0))

/-- TENANT_PROVISION (R205, R206). -/
def execTenantProvision (t : Tree) (m : TmcIn) (s : State) : Host.Outcome State Fault Refusal :=
  .next (s.tmcKind t m 0x10 (fun x s => s.provision t x))

/-- TENANT_REMOVE (R207). -/
def execTenantRemove (t : Tree) (m : TmcIn) (s : State) : Host.Outcome State Fault Refusal :=
  .next (s.tmcKind t m 0x11 (fun x s =>
    match s.tenantOn t (fieldAt x.body 0 8) with
    | some n => (s.detachTenant t n, .code 0 [])
    | none => (s, .code 0x05 [])))

/-- An allocation assignment refused: the response carries the code byte alone (DESIGN CHOICE, log entry 131). -/
def State.refuseAlloc (t : Tree) (code : Nat) (s : State) : State × Reply :=
  ((s.count (cuACT t + 14)).raise (pgACT t) 14, .code code [])

/-- Does another allocation of the tree serve a service of the tenant? -/
def State.servedElsewhere (s : State) (t : Tree) (n services : Nat) : Bool :=
  (s.allocs t).any (fun a => !s.allocMgmt t a && s.allocTenant t a == n && (s.allocServices t a &&& services) != 0)

/-- ALLOC_ASSIGN executed. -/
def State.assignAlloc (t : Tree) (x : TmcMsg) (s : State) : State × Reply :=
  let b := x.body
  let id := fieldAt b 0 2
  let services := fieldAt b 10 2
  match s.tenantOn t (fieldAt b 2 8) with
  | none => s.refuseAlloc t 0x05
  | some n =>
    match s.localIndex t id with
    | some a =>
      if !s.allocMgmt t a && s.allocTenant t a == n && s.allocServices t a == services then
        (s, .code 0 (natBE 1 0 ++ natBE 2 a))
      else s.refuseAlloc t 0x07
    | none =>
      match s.localFree with
      | none => s.refuseAlloc t 0x06
      | some a =>
        if s.servedElsewhere t n services then s.refuseAlloc t 0x07
        else (s.bindAlloc t a id n services false, .code 0 (natBE 1 0 ++ natBE 2 a))

/-- ALLOC_ASSIGN (R208). -/
def execAllocAssign (t : Tree) (m : TmcIn) (s : State) : Host.Outcome State Fault Refusal :=
  .next (s.tmcKind t m 0x12 (fun x s => s.assignAlloc t x))

/-- ALLOC_RELEASE (R271): the management allocation goes only with the registration; a request that names it is answered 0x07
(DESIGN CHOICE, log entry 132). -/
def execAllocRelease (t : Tree) (m : TmcIn) (s : State) : Host.Outcome State Fault Refusal :=
  .next (s.tmcKind t m 0x13 (fun x s =>
    match s.localIndex t (fieldAt x.body 0 2) with
    | none => (s, .code 0x08 [])
    | some a => if s.allocMgmt t a then (s, .code 0x07 []) else (s.releaseAlloc t a, .code 0 [])))

/-! Types that are no downstream request (R200). -/

/-- Upstream types (Tables 6.5, 7.3). -/
def tmcUpstream (kind : Nat) : Bool := kind == 0x20 || kind == 0x21 || kind == 0x41

/-- TMC_UNKNOWN_TYPE (R200): a request whose type is not defined is answered 0x02; one of an upstream type is accepted in no
mode. -/
def execTmcUnknownType (t : Tree) (m : TmcIn) (s : State) : Host.Outcome State Fault Refusal :=
  let k := (tmcMsg m.bytes).kind
  .next (s.iff (!tmcDefined k || tmcUpstream k) (State.tmcReceive t m (fun _ s => (s, .refused))))

/-- TMC_HEAD_END_RESPONSE (R200, R213): the response to a request of the terminal's; a NOTICE's acknowledges it. -/
def execTmcHeadEndResponse (t : Tree) (m : TmcIn) (s : State) : Host.Outcome State Fault Refusal :=
  let x := tmcMsg m.bytes
  let s := s.iff s.firmware (State.tmcTake t m)
  .next (if !s.firmware || !s.actWorks t || !x.response then s
    else if !s.tmcAddressed t x then s.count (cuACT t + 10)
    else if (s.acts t).sentReqs.contains (x.kind, x.trans) then
      (s.modActs t (fun a => { a with sentReqs := a.sentReqs.filter (· ≠ (x.kind, x.trans)) })).iff (x.kind == 0x20)
        (State.ackNotice t x.trans)
    else s)

/-! Claims and stream policy (R224, R240, R243). -/

/-- The response body of a PRIMARY_CLAIM after its code: the result, and two reserved bytes (Table 7.3). -/
def State.claimBody (s : State) (t : Tree) : Bytes := natBE 1 (b2n (s.primaryNow == treeIx t + 1)) ++ natBE 2 0

/-- A claim accepted, and the primary tree judged. -/
def State.acceptClaim (t : Tree) (x : TmcMsg) (s : State) : State × Reply :=
  let epoch := fieldAt x.body 0 8
  let he := fieldAt x.body 8 6
  if he ≠ s.recordHe t then (s, .code 0x01 (s.claimBody t))
  else
    let s := (((s.putClaim t epoch he).count (cuDUAL + 14)).raise pgDUAL 2).dualJudge.clkJudge
    (s, .code 0 (s.claimBody t))

/-- PRIMARY_CLAIM (R240). -/
def execPrimaryClaim (t : Tree) (m : TmcIn) (s : State) : Host.Outcome State Fault Refusal :=
  .next (s.tmcKind t m 0x40 (fun x s => s.acceptClaim t x))

/-- A tenant's stream policy: bit s of `dup` and of `sel` for service s. -/
def State.protectTenant (n dup sel : Nat) (s : State) : State :=
  (List.range 16).foldl (fun s k =>
    s.setStreamPolicy (16 * n + k) (BitVec.ofNat 32 (b2n (dup.testBit k) + 2 * b2n (sel.testBit k)))) s

/-- PROTECT_SET (R224): on the primary tree, or on either where none is primary. -/
def execProtectSet (t : Tree) (m : TmcIn) (s : State) : Host.Outcome State Fault Refusal :=
  .next (s.tmcKind t m 0x42 (fun x s =>
    if s.primaryNow ≠ 0 ∧ s.primaryNow ≠ treeIx t + 1 then (s, .code 0x03 [])
    else match s.tenantOn t (fieldAt x.body 0 8) with
      | none => (s, .code 0x05 [])
      | some n => ((s.protectTenant n (fieldAt x.body 8 2) (fieldAt x.body 10 2)).raise pgDUAL 7, .code 0 [])))

/-! Keys (R368 to R372). -/

/-- ASCII of the key exchange's labels. -/
def labelTVKX : Bytes := [0x54#8, 0x56#8, 0x4B#8, 0x58#8]
def labelHE : Bytes := labelTVKX ++ [0x2D#8, 0x48#8, 0x45#8]
def labelTE : Bytes := labelTVKX ++ [0x2D#8, 0x54#8, 0x45#8]

/-- Does a KEY_INIT verify: its certificate names the head end of the tree record and is signed by a trust anchor, and its
signature fits (R370 steps 1 to 3)? -/
def State.keyInitOk (s : State) (t : Tree) (b : Bytes) : Bool :=
  let n := fieldAt b 113 2
  match readCertificate ((b.drop 115).take n) with
  | none => false
  | some c =>
    let said := labelHE ++ natBE 8 (s.serial t) ++ natBE 4 (s.recordTree t) ++ b.take 113
    hexNumber c.serial == some (s.recordHe t) &&
      s.trustAnchors.any (fun a => ecdsaVerify (readPoint a) (sha384 c.signed) c.sig) &&
      ecdsaVerify (readPoint c.key) (sha384 said) ((b.drop (115 + n)).take 96) && (readPoint ((b.drop 16).take 97)).isSome

/-- KEY_INIT executed (R370 steps 4 to 7, R371). -/
def State.keyInit (t : Tree) (b : Bytes) (s : State) : State × Reply :=
  if !s.keyInitOk t b then (s, .code 0x0B [])
  else
    let nonceHe := b.take 16
    let qHe := (b.drop 16).take 97
    let x1 := s.randomBytes 16
    let x2 := x1.1.randomBytes 48
    let x3 := x2.1.randomBytes 48
    let s := x3.1
    let d := scalarOf x2.2
    let he := natBE 6 (s.recordHe t)
    let tree := natBE 4 (s.recordTree t)
    let serial := natBE 8 (s.serial t)
    let keys := oneStepKdf 2 (ecdhX d (readPoint qHe)) (labelTVKX ++ he ++ tree ++ serial ++ nonceHe ++ x1.2)
    let qT := pointBytes (publicKey d)
    let s := ((s.putMgmtKey t 3 (keys.take 32)).putMgmtKey t 4 ((keys.drop 32).take 32)).putMgmtKey t 5
      ((keys.drop 64).take 32)
    let s := s.modActs t (fun a => { a with nonce := some x1.2 })
    let cert := s.burgeeCert
    let sig := ecdsaSign s.deviceKey (scalarOf x3.2)
      (sha384 (labelTE ++ he ++ tree ++ serial ++ nonceHe ++ x1.2 ++ qHe ++ qT))
    (s, .code 0 (x1.2 ++ qT ++ natBE 2 cert.length ++ cert ++ sig))

/-- KEY_INIT (R370). -/
def execKeyInit (t : Tree) (m : TmcIn) (s : State) : Host.Outcome State Fault Refusal :=
  .next (s.tmcKind t m 0x30 (fun x s => s.keyInit t x.body))

/-- KEY_CONFIRM executed: the pending keys come into force, or are discarded. -/
def State.keyConfirm (t : Tree) (fc : Nat) (x : TmcMsg) (s : State) : State × Reply :=
  let ok := x.auth && (s.acts t).nonce == some (x.body.take 16) && x.tag == tmcTag (s.mgmtKey t 3) fc x.covered
  let pend := [3, 4, 5].map (s.mgmtKey t)
  let s := ([3, 4, 5].foldl (fun s k => s.putMgmtKey t k []) s).modActs t (fun a => { a with nonce := none })
  if ok then
    let s := ([0, 1, 2].zip pend).foldl (fun s k => s.putMgmtKey t k.1 k.2) s
    (s.setFld (pgACT t) ACT.statusKeyed 1, .code 0 [])
  else (s, .plain 0x0B [])

/-- KEY_CONFIRM (R370). -/
def execKeyConfirm (t : Tree) (m : TmcIn) (s : State) : Host.Outcome State Fault Refusal :=
  let fc := s.tmcFcOf t m
  .next (s.tmcKind t m 0x31 (fun x s => s.keyConfirm t fc x))

/-- The slot of a context that a key goes to: the one not in force, slot 0 where none is (R372 step 3). -/
def State.keyTarget (s : State) (c fc : Nat) : Nat :=
  match s.slotFor c fc with
  | some k => 1 - k
  | none => 0

/-- Is the target slot still serving fragments in flight: one that has been superseded, not a pending key? -/
def State.keyBusy (s : State) (c fc : Nat) : Bool :=
  s.slotValid c (s.keyTarget c fc) && s.slotValid c (1 - s.keyTarget c fc) &&
    atOrBeforeFc (s.slotActivate c (s.keyTarget c fc)) fc &&
    decide ((fc + 2 ^ 32 - (s.tw pgLSEC 0 c 1).toNat) % 2 ^ 32 < 16)

/-- TENANT_KEY executed. -/
def State.tenantKey (t : Tree) (fc : Nat) (x : TmcMsg) (s : State) : State × Reply :=
  let b := x.body
  let ahead := (fieldAt b 12 4 + 2 ^ 32 - fc % 2 ^ 32) % 2 ^ 32
  if !(s.keyed t && x.auth) then (s, .code 0x0B [])
  else match s.tenantOn t (fieldAt b 0 8) with
    | none => (s, .code 0x05 [])
    | some n =>
      if ahead < 16 ∨ 80000 < ahead then (s, .code 0x0D [])
      else match keyUnwrap (s.mgmtKey t 2) ((b.drop 20).take 40) with
        | none => (s, .code 0x0C [])
        | some key =>
          let c := if byteAt b 8 / 128 = 1 then upCtx t n else downCtx t n
          let k := s.keyTarget c fc
          if s.keyBusy c fc then (s, .code 0x0A [])
          else
            let s := (s.dropSlot c k).putEntry pgLSEC 1 (2 * c + k) 0
              ([1#32, BitVec.ofNat 32 (fieldAt b 12 4), BitVec.ofNat 32 (fieldAt b 16 4), 0#32] ++ wordsBE 8 key)
            (s, .code 0 (natBE 1 k ++ natBE 2 0))

/-- TENANT_KEY (R372). -/
def execTenantKey (t : Tree) (m : TmcIn) (s : State) : Host.Outcome State Fault Refusal :=
  let fc := s.tmcFcOf t m
  .next (s.tmcKind t m 0x32 (fun x s => s.tenantKey t fc x))

/-! Time (R393, R394). -/

/-- The 48-bit frame counter of the tree's control receiver. -/
def State.treeFc48 (s : State) (t : Tree) : Nat :=
  match s.controlRx t with
  | some r => s.frmFc r
  | none => 0

/-- A TIME_BIND judged: its code. -/
def State.timeBindCode (s : State) (t : Tree) (b : Bytes) : Nat :=
  let d := (fieldAt b 0 6 + 2 ^ 48 - s.treeFc48 t) % 2 ^ 48
  let w := fieldAt b 26 4
  let teq := fieldAt b 22 4
  if 10 ^ 9 ≤ fieldAt b 14 4 ∨ w < 0x40000000 ∨ 0xC0000000 < w ∨ (2 ^ 31 ≤ d ∧ d ≤ 2 ^ 48 - 2 ^ 31) then 0x01
  else if teq < s.fld (pgACT t) ACT.eqdEqd ∨ 31104000 < teq then 0x09
  else 0

/-- The binding a TIME_BIND states. -/
def timeBinding (b : Bytes) : Binding :=
  { fb := fieldAt b 0 6, tb := (fieldAt b 6 8 * 10 ^ 9 + fieldAt b 14 4) * 2 ^ 32 + fieldAt b 18 4, teq := fieldAt b 22 4,
    w := fieldAt b 26 4, asym := signed 32 (fieldAt b 30 4) }

/-- TIME_BIND (R394). -/
def execTimeBind (t : Tree) (m : TmcIn) (s : State) : Host.Outcome State Fault Refusal :=
  .next (s.tmcKind t m 0x50 (fun x s =>
    let c := s.timeBindCode t x.body
    if c = 0 then
      (((s.count cuTIME).raise pgTIME 4).modFront t (fun f => { f with held := some (timeBinding x.body) }), .code 0 [])
    else ((s.count (cuTIME + 1)).raise pgTIME 5, .code c [])))

/-- TIME_QUALITY (R394). -/
def execTimeQuality (t : Tree) (m : TmcIn) (s : State) : Host.Outcome State Fault Refusal :=
  .next (s.tmcKind t m 0x51 (fun x s => (s.putEntry pgTIME 3 (treeIx t) 0 (wordsBE 6 (x.body.take 22)), .code 0 [])))

end Sys2Proof.Machine
end

