-- ==== Sys2Proof/Machine/Upstream.lean ====
section
/-! DEFINITION. The upstream commands: grant processors, upstream scheduler, policers (R248 to R286, R345). -/

namespace Sys2Proof.Machine

/-- GRT_DISABLE (R276). -/
def execGrtDisable (t : Tree) (s : State) : Host.Outcome State Fault Refusal :=
  .next (s.pageOff (pgGRT t) (State.suppressWaiting t))

/-- Is the grant's alloc_id still bound to its local index (R271)? -/
def State.stillBound (s : State) (t : Tree) (i : Nat) : Bool :=
  s.allocValid t (s.pendLocal t i) && s.allocId t (s.pendLocal t i) == s.pendAlloc t i

/-- The selection instant of one grant (R252). -/
def State.selectGrant (t : Tree) (i : Nat) (s : State) : State :=
  if !s.stillBound t i then s.suppressLate t i
  else
    let w := s.profile t (s.pendProfile t i)
    let s := s.iff (profileValid w) (State.judgeLaunch t (s.appliedLaunch t w (s.pendT0 t i)))
    match s.endsAtS t i with
    | some 0 => (s.count (cuTX t + 3)).removeGrant t i
    | some _ => ((s.count (cuTX t + 4)).raiseMs (pgTX t) 2).removeGrant t i
    | none => s.selectContent t i

/-- GRANT_SELECT (R252): the waiting grant of the tree with the earliest selection instant. -/
def execGrantSelect (t : Tree) (s : State) : Host.Outcome State Fault Refusal :=
  .next (match s.nextWaiting t 0 with
    | some i => s.iff (s.alive (pgGRT t)) (State.selectGrant t i)
    | none => s)

/-- SCHED_TICK (R259 to R261, R337): the tick runs free while network time is invalid. -/
def execSchedTick (s : State) : Host.Outcome State Fault Refusal :=
  .next ((s.iff s.tickDue (fun s => s.tickTake.schedTick)).showTick)

/-- USCH_AGE_SWEEP (R263): every queue's head is aged, promoted or discarded. -/
def execUschAgeSweep (s : State) : Host.Outcome State Fault Refusal :=
  .next (s.liveQueues.foldl (fun s q => s.examine q) s)

/-- USCH_DISABLE (R280). -/
def execUschDisable (s : State) : Host.Outcome State Fault Refusal := .next (s.pageOff pgUSCH id)

/-- TMC_SEND_SUBMIT (R268): firmware places a message of `len` bytes at `addr` of shared SRAM, in class `cls`. -/
def execTmcSendSubmit (t : Tree) (entry len cls addr : Nat) (s : State) : Host.Outcome State Fault Refusal :=
  .next (s.iff (s.alive (pgGRT t)) (State.tmcSubmit t (entry % 64) len cls addr))

/-- Does a queue meet a condition of upstream need (R267)? -/
def State.queueNeeds (s : State) (t : Tree) (q : Nat) : Bool :=
  !s.isBulk q && (decide (s.fld pgUSCH USCH.needBytesNeedBytes ≤ s.availBytes t q) ||
    ((s.headItem q).isSome && decide (s.fld pgUSCH USCH.needAgeNeedAge ≤ s.headAge q)))

/-- Does the tree have upstream need? -/
def State.treeNeeds (s : State) (t : Tree) : Bool :=
  s.mode t == 5 && (s.allocs t).any (fun a => (s.allocQueues t a).any (s.queueNeeds t))

/-- Is the need of a tree noted as raised? -/
def State.needNoted (s : State) : Tree → Bool
  | .a => s.usch.needA
  | .b => s.usch.needB

/-- UPSTREAM_NEED (R267): raised once while the condition lasts. Firmware, while it runs, takes it as the upstream need of R211: a
WAKE_REQUEST, and Operational. -/
def execUpstreamNeed (t : Tree) (s : State) : Host.Outcome State Fault Refusal :=
  .next (if s.treeNeeds t then
      (s.iff (!s.needNoted t) (fun s => (s.setNeed t true).raise pgUSCH (2 + treeIx t))).iff s.firmware (fun s =>
        (s.wakeRequest t 1 0).setMode t 4)
    else s.setNeed t false)

/-- BULK_DRAW_BACK (R345). -/
def execBulkDrawBack (q : Nat) (s : State) : Host.Outcome State Fault Refusal :=
  .next ((State.drawBack q (s.tierCount q) s).backlogStep q)

/-- POL_DISABLE (R274). -/
def execPolDisable (s : State) : Host.Outcome State Fault Refusal := .next (s.pageOff pgPOL id)

end Sys2Proof.Machine
end

