-- ==== Sys2Proof/Machine/Dispatch.lean ====
section
/-! DEFINITION. The dispatch: one arm per command, each one direct call of the command's meaning. -/

namespace Sys2Proof.Machine

/-- A command's effect on everything but the queue. -/
def exec (i : Instr) (s : State) : Host.Outcome State Fault Refusal :=
  match i with
  | .registerWrite page off acc hi => Sys2Proof.Machine.execRegisterWrite page off acc hi s
  | .darkPageAccess page isWrite => Sys2Proof.Machine.execDarkPageAccess page isWrite s
  | .latchingRead page off wide => Sys2Proof.Machine.execLatchingRead page off wide s
  | .rwtVotedRead page off => Sys2Proof.Machine.execRwtVotedRead page off s
  | .sysDarkAccessClear => Sys2Proof.Machine.execSysDarkAccessClear s
  | .cfgStatusClear page => Sys2Proof.Machine.execCfgStatusClear page s
  | .tripleStatusClear page => Sys2Proof.Machine.execTripleStatusClear page s
  | .softReset page => Sys2Proof.Machine.execSoftReset page s
  | .softResetComplete page => Sys2Proof.Machine.execSoftResetComplete page s
  | .pennantEvent page bit => Sys2Proof.Machine.execPennantEvent page bit s
  | .pennantAdvance page => Sys2Proof.Machine.execPennantAdvance page s
  | .pennantClear page v => Sys2Proof.Machine.execPennantClear page v s
  | .pennantMaskWrite page acc => Sys2Proof.Machine.execPennantMaskWrite page acc s
  | .tripleScrub => Sys2Proof.Machine.execTripleScrub s
  | .indirectDataWrite win page v => Sys2Proof.Machine.execIndirectDataWrite win page v s
  | .indirectDataRead win page => Sys2Proof.Machine.execIndirectDataRead win page s
  | .indirectAddrWrite win page ctrl acc => Sys2Proof.Machine.execIndirectAddrWrite win page ctrl acc s
  | .snapArm => Sys2Proof.Machine.execSnapArm s
  | .snapCancel => Sys2Proof.Machine.execSnapCancel s
  | .snapArmNow => Sys2Proof.Machine.execSnapArmNow s
  | .snapCtrlMulti v => Sys2Proof.Machine.execSnapCtrlMulti v s
  | .snapCapture => Sys2Proof.Machine.execSnapCapture s
  | .snapLateFire => Sys2Proof.Machine.execSnapLateFire s
  | .snapUnitMissing unit => Sys2Proof.Machine.execSnapUnitMissing unit s
  | .snapComplete => Sys2Proof.Machine.execSnapComplete s
  | .rxEnable r => Sys2Proof.Machine.execRxEnable r s
  | .rxDisable r => Sys2Proof.Machine.execRxDisable r s
  | .sigPresent r => Sys2Proof.Machine.execSigPresent r s
  | .sigLost r => Sys2Proof.Machine.execSigLost r s
  | .acqPhaseComplete r res => Sys2Proof.Machine.execAcqPhaseComplete r res s
  | .acqTimeout r => Sys2Proof.Machine.execAcqTimeout r s
  | .lockLost r => Sys2Proof.Machine.execLockLost r s
  | .phaseSlip r => Sys2Proof.Machine.execPhaseSlip r s
  | .codewordDecode r cw => Sys2Proof.Machine.execCodewordDecode r cw s
  | .fomWindowEnd r fom => Sys2Proof.Machine.execFomWindowEnd r fom s
  | .rxLaneAdapt r lane skew value => Sys2Proof.Machine.execRxLaneAdapt r lane skew value s
  | .txDisable t => Sys2Proof.Machine.execTxDisable t s
  | .txPrepAssert t => Sys2Proof.Machine.execTxPrepAssert t s
  | .txGateAssert t => Sys2Proof.Machine.execTxGateAssert t s
  | .burstStart t => Sys2Proof.Machine.execBurstStart t s
  | .txGateDeassert t => Sys2Proof.Machine.execTxGateDeassert t s
  | .burstEnd t => Sys2Proof.Machine.execBurstEnd t s
  | .txPrepDeassert t => Sys2Proof.Machine.execTxPrepDeassert t s
  | .txLaserPolicyWrite t acc => Sys2Proof.Machine.execTxLaserPolicyWrite t acc s
  | .txClockMissing t => Sys2Proof.Machine.execTxClockMissing t s
  | .forceRelease t => Sys2Proof.Machine.execForceRelease t s
  | .roguePowerPoll t dbm10 => Sys2Proof.Machine.execRoguePowerPoll t dbm10 s
  | .rogueEvent t sign => Sys2Proof.Machine.execRogueEvent t sign s
  | .ofeI2cGo o v => Sys2Proof.Machine.execOfeI2cGo o v s
  | .ofeI2cDone o ack rdata => Sys2Proof.Machine.execOfeI2cDone o ack rdata s
  | .ofeI2cTimeout o => Sys2Proof.Machine.execOfeI2cTimeout o s
  | .ofeInt o on => Sys2Proof.Machine.execOfeInt o on s
  | .ofePresentChange o present => Sys2Proof.Machine.execOfePresentChange o present s
  | .frmEnable r => Sys2Proof.Machine.execFrmEnable r s
  | .frmDisable r => Sys2Proof.Machine.execFrmDisable r s
  | .alignCodeword r bits => Sys2Proof.Machine.execAlignCodeword r bits s
  | .frameHeader r => Sys2Proof.Machine.execFrameHeader r s
  | .grantEntry r bytes => Sys2Proof.Machine.execGrantEntry r bytes s
  | .fragmentHeader r pos bytes => Sys2Proof.Machine.execFragmentHeader r pos bytes s
  | .fragmentReceive r payload => Sys2Proof.Machine.execFragmentReceive r payload s
  | .losClear r => Sys2Proof.Machine.execLosClear r s
  | .lofDeclare r => Sys2Proof.Machine.execLofDeclare r s
  | .lofClear r => Sys2Proof.Machine.execLofClear r s
  | .defectWindowEnd r => Sys2Proof.Machine.execDefectWindowEnd r s
  | .pmSecond r => Sys2Proof.Machine.execPmSecond r s
  | .pmBinEdge day => Sys2Proof.Machine.execPmBinEdge day s
  | .pmBinFinal r day slot => Sys2Proof.Machine.execPmBinFinal r day slot s
  | .pmDisable => Sys2Proof.Machine.execPmDisable s
  | .halDisable t => Sys2Proof.Machine.execHalDisable t s
  | .halPreambleDetect t gain => Sys2Proof.Machine.execHalPreambleDetect t gain s
  | .halSyncFound t fc ofs => Sys2Proof.Machine.execHalSyncFound t fc ofs s
  | .halSyncMiss t => Sys2Proof.Machine.execHalSyncMiss t s
  | .halHeader t syms => Sys2Proof.Machine.execHalHeader t syms s
  | .halFrameEnd t syms level => Sys2Proof.Machine.execHalFrameEnd t syms level s
  | .halAgcTimeout t => Sys2Proof.Machine.execHalAgcTimeout t s
  | .halRxActiveLost t => Sys2Proof.Machine.execHalRxActiveLost t s
  | .halRxSyncTimeout t => Sys2Proof.Machine.execHalRxSyncTimeout t s
  | .beacon t payload => Sys2Proof.Machine.execBeacon t payload s
  | .rangeRequest t payload => Sys2Proof.Machine.execRangeRequest t payload s
  | .wake t payload => Sys2Proof.Machine.execWake t payload s
  | .noticeAck t payload => Sys2Proof.Machine.execNoticeAck t payload s
  | .halSubmit t slot => Sys2Proof.Machine.execHalSubmit t slot s
  | .halCancel t slot => Sys2Proof.Machine.execHalCancel t slot s
  | .halCommit t slot => Sys2Proof.Machine.execHalCommit t slot s
  | .halTxStart t slot => Sys2Proof.Machine.execHalTxStart t slot s
  | .halTxEnd t slot => Sys2Proof.Machine.execHalTxEnd t slot s
  | .actDisable t => Sys2Proof.Machine.execActDisable t s
  | .listeningEntry t => Sys2Proof.Machine.execListeningEntry t s
  | .actModeWrite t acc => Sys2Proof.Machine.execActModeWrite t acc s
  | .releaseQuarantine t => Sys2Proof.Machine.execReleaseQuarantine t s
  | .actDeactivateCmd t => Sys2Proof.Machine.execActDeactivateCmd t s
  | .hailTimeout t => Sys2Proof.Machine.execHailTimeout t s
  | .rangeTimeout t => Sys2Proof.Machine.execRangeTimeout t s
  | .warmReturn t counter elapsedFrames serials => Sys2Proof.Machine.execWarmReturn t counter elapsedFrames serials s
  | .warmWindowExpire t => Sys2Proof.Machine.execWarmWindowExpire t s
  | .eqdApply t => Sys2Proof.Machine.execEqdApply t s
  | .maxParkExpire t => Sys2Proof.Machine.execMaxParkExpire t s
  | .gaspWaitExpire t => Sys2Proof.Machine.execGaspWaitExpire t s
  | .noticeRetry t => Sys2Proof.Machine.execNoticeRetry t s
  | .tmcResponseExpire t slot => Sys2Proof.Machine.execTmcResponseExpire t slot s
  | .register t m => Sys2Proof.Machine.execRegister t m s
  | .rangeConfirm t m => Sys2Proof.Machine.execRangeConfirm t m s
  | .adjust t m => Sys2Proof.Machine.execAdjust t m s
  | .deactivate t m => Sys2Proof.Machine.execDeactivate t m s
  | .disable t m => Sys2Proof.Machine.execDisable t m s
  | .enable t m => Sys2Proof.Machine.execEnable t m s
  | .park t m => Sys2Proof.Machine.execPark t m s
  | .statusRequest t m => Sys2Proof.Machine.execStatusRequest t m s
  | .tenantProvision t m => Sys2Proof.Machine.execTenantProvision t m s
  | .tenantRemove t m => Sys2Proof.Machine.execTenantRemove t m s
  | .allocAssign t m => Sys2Proof.Machine.execAllocAssign t m s
  | .allocRelease t m => Sys2Proof.Machine.execAllocRelease t m s
  | .tmcUnknownType t m => Sys2Proof.Machine.execTmcUnknownType t m s
  | .tmcHeadEndResponse t m => Sys2Proof.Machine.execTmcHeadEndResponse t m s
  | .primaryClaim t m => Sys2Proof.Machine.execPrimaryClaim t m s
  | .protectSet t m => Sys2Proof.Machine.execProtectSet t m s
  | .keyInit t m => Sys2Proof.Machine.execKeyInit t m s
  | .keyConfirm t m => Sys2Proof.Machine.execKeyConfirm t m s
  | .tenantKey t m => Sys2Proof.Machine.execTenantKey t m s
  | .timeBind t m => Sys2Proof.Machine.execTimeBind t m s
  | .timeQuality t m => Sys2Proof.Machine.execTimeQuality t m s
  | .upstreamNeed t => Sys2Proof.Machine.execUpstreamNeed t s
  | .dualDisable => Sys2Proof.Machine.execDualDisable s
  | .mergeFragment r => Sys2Proof.Machine.execMergeFragment r s
  | .dualUnprotected r => Sys2Proof.Machine.execDualUnprotected r s
  | .dualBreakMarker r => Sys2Proof.Machine.execDualBreakMarker r s
  | .mergeIdleReset stream => Sys2Proof.Machine.execMergeIdleReset stream s
  | .dualFlush => Sys2Proof.Machine.execDualFlush s
  | .dualSkewUpdate => Sys2Proof.Machine.execDualSkewUpdate s
  | .copyWithdraw t => Sys2Proof.Machine.execCopyWithdraw t s
  | .selWtrExpire => Sys2Proof.Machine.execSelWtrExpire s
  | .claimConflictSend => Sys2Proof.Machine.execClaimConflictSend s
  | .grtDisable t => Sys2Proof.Machine.execGrtDisable t s
  | .grantSelect t => Sys2Proof.Machine.execGrantSelect t s
  | .schedTick => Sys2Proof.Machine.execSchedTick s
  | .uschAgeSweep => Sys2Proof.Machine.execUschAgeSweep s
  | .uschDisable => Sys2Proof.Machine.execUschDisable s
  | .tmcSendSubmit t entry len cls addr => Sys2Proof.Machine.execTmcSendSubmit t entry len cls addr s
  | .bulkDrawBack q => Sys2Proof.Machine.execBulkDrawBack q s
  | .polDisable => Sys2Proof.Machine.execPolDisable s
  | .clsDisable => Sys2Proof.Machine.execClsDisable s
  | .frameClassify f saturated => Sys2Proof.Machine.execFrameClassify f saturated s
  | .followTimeout idx => Sys2Proof.Machine.execFollowTimeout idx s
  | .flowAgeSweep => Sys2Proof.Machine.execFlowAgeSweep s
  | .flowDisable => Sys2Proof.Machine.execFlowDisable s
  | .flowInsert => Sys2Proof.Machine.execFlowInsert s
  | .flowDelete => Sys2Proof.Machine.execFlowDelete s
  | .flowFind => Sys2Proof.Machine.execFlowFind s
  | .flowCmdDone => Sys2Proof.Machine.execFlowCmdDone s
  | .frameAdmitStart f => Sys2Proof.Machine.execFrameAdmitStart f s
  | .copyDecide id => Sys2Proof.Machine.execCopyDecide id s
  | .frameAdmitEnd id err poolEmpty => Sys2Proof.Machine.execFrameAdmitEnd id err poolEmpty s
  | .backlogSpill q => Sys2Proof.Machine.execBacklogSpill q s
  | .memUncorrectable what => Sys2Proof.Machine.execMemUncorrectable what s
  | .dschSelect port => Sys2Proof.Machine.execDschSelect port s
  | .uniTxComplete port => Sys2Proof.Machine.execUniTxComplete port s
  | .dschAgeSweep => Sys2Proof.Machine.execDschAgeSweep s
  | .portFlush port => Sys2Proof.Machine.execPortFlush port s
  | .sampleDeliver bufs => Sys2Proof.Machine.execSampleDeliver bufs s
  | .dschDisable => Sys2Proof.Machine.execDschDisable s
  | .stoDisable => Sys2Proof.Machine.execStoDisable s
  | .swcDisable => Sys2Proof.Machine.execSwcDisable s
  | .mirDisable => Sys2Proof.Machine.execMirDisable s
  | .xtrDisable => Sys2Proof.Machine.execXtrDisable s
  | .xtrSegmentWrite seg w0 w1 w2 w3 => Sys2Proof.Machine.execXtrSegmentWrite seg w0 w1 w2 w3 s
  | .tierReadFail q whole => Sys2Proof.Machine.execTierReadFail q whole s
  | .auditEval => Sys2Proof.Machine.execAuditEval s
  | .auditSweepStart => Sys2Proof.Machine.execAuditSweepStart s
  | .auditSweepDone => Sys2Proof.Machine.execAuditSweepDone s
  | .auditStatusClear => Sys2Proof.Machine.execAuditStatusClear s
  | .lsecDecrypt r => Sys2Proof.Machine.execLsecDecrypt r s
  | .keySwitch ctx => Sys2Proof.Machine.execKeySwitch ctx s
  | .lsecDisable => Sys2Proof.Machine.execLsecDisable s
  | .ccryStart slot => Sys2Proof.Machine.execCcryStart slot s
  | .ccryAbort slot => Sys2Proof.Machine.execCcryAbort slot s
  | .ccryExport slot wrapped => Sys2Proof.Machine.execCcryExport slot wrapped s
  | .ccryImport slot => Sys2Proof.Machine.execCcryImport slot s
  | .ccryJobDone slot => Sys2Proof.Machine.execCcryJobDone slot s
  | .ccryDisable => Sys2Proof.Machine.execCcryDisable s
  | .kstCommit => Sys2Proof.Machine.execKstCommit s
  | .kstCommitDone ok => Sys2Proof.Machine.execKstCommitDone ok s
  | .kstGenkey => Sys2Proof.Machine.execKstGenkey s
  | .kstGenkeyDone => Sys2Proof.Machine.execKstGenkeyDone s
  | .kstDisable => Sys2Proof.Machine.execKstDisable s
  | .timeSetCmd => Sys2Proof.Machine.execTimeSetCmd s
  | .timeSetApply r => Sys2Proof.Machine.execTimeSetApply r s
  | .timeClearHost => Sys2Proof.Machine.execTimeClearHost s
  | .timeEnable => Sys2Proof.Machine.execTimeEnable s
  | .timeCalDone => Sys2Proof.Machine.execTimeCalDone s
  | .timeDisable => Sys2Proof.Machine.execTimeDisable s
  | .ppsEdge => Sys2Proof.Machine.execPpsEdge s
  | .ppsFall => Sys2Proof.Machine.execPpsFall s
  | .launchEligible port tag => Sys2Proof.Machine.execLaunchEligible port tag s
  | .portCfgWrite port acc => Sys2Proof.Machine.execPortCfgWrite port acc s
  | .anFailed port => Sys2Proof.Machine.execAnFailed port s
  | .cdrLock lane => Sys2Proof.Machine.execCdrLock lane s
  | .cdrLockLost lane => Sys2Proof.Machine.execCdrLockLost lane s
  | .linkUp port up => Sys2Proof.Machine.execLinkUp port up s
  | .linkDown port => Sys2Proof.Machine.execLinkDown port s
  | .laneFomWindow lane fom => Sys2Proof.Machine.execLaneFomWindow lane fom s
  | .laneAdapt lane => Sys2Proof.Machine.execLaneAdapt lane s
  | .prbsLock lane levels => Sys2Proof.Machine.execPrbsLock lane levels s
  | .prbsLockLost lane levels => Sys2Proof.Machine.execPrbsLockLost lane levels s
  | .prbsInvert lane => Sys2Proof.Machine.execPrbsInvert lane s
  | .laneInject lane => Sys2Proof.Machine.execLaneInject lane s
  | .laneInjectPeriodic lane => Sys2Proof.Machine.execLaneInjectPeriodic lane s
  | .laneDisable => Sys2Proof.Machine.execLaneDisable s
  | .uniFrameReceive port bytes fcsErr corrected uncorrectable => Sys2Proof.Machine.execUniFrameReceive port bytes fcsErr corrected uncorrectable s
  | .pauseReceive port bytes => Sys2Proof.Machine.execPauseReceive port bytes s
  | .pauseExpire port prio => Sys2Proof.Machine.execPauseExpire port prio s
  | .pfcRefresh port prio => Sys2Proof.Machine.execPfcRefresh port prio s
  | .lpiEnter port => Sys2Proof.Machine.execLpiEnter port s
  | .lpiExit port => Sys2Proof.Machine.execLpiExit port s
  | .uniqDisable q => Sys2Proof.Machine.execUniqDisable q s
  | .perstAssert => Sys2Proof.Machine.execPerstAssert s
  | .perstDeassert strap => Sys2Proof.Machine.execPerstDeassert strap s
  | .pcieConfigWrite fn w => Sys2Proof.Machine.execPcieConfigWrite fn w s
  | .msixUnmask fn vec => Sys2Proof.Machine.execMsixUnmask fn vec s
  | .functionLevelReset fn => Sys2Proof.Machine.execFunctionLevelReset fn s
  | .flrComplete fn => Sys2Proof.Machine.execFlrComplete fn s
  | .ringTailWrite fn rx k tail => Sys2Proof.Machine.execRingTailWrite fn rx k tail s
  | .ringDisable fn rx k => Sys2Proof.Machine.execRingDisable fn rx k s
  | .ringDrained fn rx k => Sys2Proof.Machine.execRingDrained fn rx k s
  | .ringRestart fn k => Sys2Proof.Machine.execRingRestart fn k s
  | .ringSkip fn k => Sys2Proof.Machine.execRingSkip fn k s
  | .funcStatusClear fn => Sys2Proof.Machine.execFuncStatusClear fn s
  | .dmaTxFrame fn k entries => Sys2Proof.Machine.execDmaTxFrame fn k entries s
  | .dmaSegComplete fn k c => Sys2Proof.Machine.execDmaSegComplete fn k c s
  | .dmaRxWrite fn cls bufs => Sys2Proof.Machine.execDmaRxWrite fn cls bufs s
  | .msixModeration fn rx k => Sys2Proof.Machine.execMsixModeration fn rx k s
  | .dmaDisable => Sys2Proof.Machine.execDmaDisable s
  | .l1Entry idle => Sys2Proof.Machine.execL1Entry idle s
  | .l1Exit => Sys2Proof.Machine.execL1Exit s
  | .wakeCauseLatch cause fn => Sys2Proof.Machine.execWakeCauseLatch cause fn s
  | .pmeSend => Sys2Proof.Machine.execPmeSend s
  | .wakeCauseClear bits => Sys2Proof.Machine.execWakeCauseClear bits s
  | .narrowRequest util ms => Sys2Proof.Machine.execNarrowRequest util ms s
  | .narrowWithdraw width rate => Sys2Proof.Machine.execNarrowWithdraw width rate s
  | .narrowRetry util ms => Sys2Proof.Machine.execNarrowRetry util ms s
  | .cxlEnumerate => Sys2Proof.Machine.execCxlEnumerate s
  | .cxlEnumDone res capacity speed width => Sys2Proof.Machine.execCxlEnumDone res capacity speed width s
  | .cxlLinkDown => Sys2Proof.Machine.execCxlLinkDown s
  | .hifDisable => Sys2Proof.Machine.execHifDisable s
  | .taskDispatch core task => Sys2Proof.Machine.execTaskDispatch core task s
  | .slotPrefetch core task => Sys2Proof.Machine.execSlotPrefetch core task s
  | .taskPreempt core task => Sys2Proof.Machine.execTaskPreempt core task s
  | .taskEnd core => Sys2Proof.Machine.execTaskEnd core s
  | .taskSetflag core task flag => Sys2Proof.Machine.execTaskSetflag core task flag s
  | .taskFlow core flow held => Sys2Proof.Machine.execTaskFlow core flow held s
  | .tskTimerExpire timer => Sys2Proof.Machine.execTskTimerExpire timer s
  | .tskSet task flag => Sys2Proof.Machine.execTskSet task flag s
  | .dispatchLate task => Sys2Proof.Machine.execDispatchLate task s
  | .wdogKick core => Sys2Proof.Machine.execWdogKick core s
  | .watchdogExpire core => Sys2Proof.Machine.execWatchdogExpire core s
  | .coreRelease mask => Sys2Proof.Machine.execCoreRelease mask s
  | .sramUncorrectable core what => Sys2Proof.Machine.execSramUncorrectable core what s
  | .coreRingTail ring tail => Sys2Proof.Machine.execCoreRingTail ring tail s
  | .coreDisable => Sys2Proof.Machine.execCoreDisable s
  | .tskDisable => Sys2Proof.Machine.execTskDisable s
  | .flashRead win => Sys2Proof.Machine.execFlashRead win s
  | .flashProgram win fromStage => Sys2Proof.Machine.execFlashProgram win fromStage s
  | .flashErase win => Sys2Proof.Machine.execFlashErase win s
  | .pageLoad win => Sys2Proof.Machine.execPageLoad win s
  | .flashOpDone ok => Sys2Proof.Machine.execFlashOpDone ok s
  | .flashEraseDone blank => Sys2Proof.Machine.execFlashEraseDone blank s
  | .flshDisable => Sys2Proof.Machine.execFlshDisable s
  | .boot suspended bad => Sys2Proof.Machine.execBoot suspended bad s
  | .bootConfirm => Sys2Proof.Machine.execBootConfirm s
  | .bootRetry => Sys2Proof.Machine.execBootRetry s
  | .puntyArm handover => Sys2Proof.Machine.execPuntyArm handover s
  | .puntyLoad => Sys2Proof.Machine.execPuntyLoad s
  | .puntyReady => Sys2Proof.Machine.execPuntyReady s
  | .puntyCommit => Sys2Proof.Machine.execPuntyCommit s
  | .puntyFlip => Sys2Proof.Machine.execPuntyFlip s
  | .puntyAbort => Sys2Proof.Machine.execPuntyAbort s
  | .puntyFreezeTimeout => Sys2Proof.Machine.execPuntyFreezeTimeout s
  | .domainIdleExpire d refusal => Sys2Proof.Machine.execDomainIdleExpire d refusal s
  | .domainEntryDone d => Sys2Proof.Machine.execDomainEntryDone d s
  | .domainWake d src => Sys2Proof.Machine.execDomainWake d src s
  | .keepPolicyWrite hi acc => Sys2Proof.Machine.execKeepPolicyWrite hi acc s
  | .domainRestoreDone d => Sys2Proof.Machine.execDomainRestoreDone d s
  | .clockGateEnd cand count => Sys2Proof.Machine.execClockGateEnd cand count s
  | .hostrefLost => Sys2Proof.Machine.execHostrefLost s
  | .clockWtrExpire cand => Sys2Proof.Machine.execClockWtrExpire cand s
  | .clkForce code => Sys2Proof.Machine.execClkForce code s
  | .clockLossReset => Sys2Proof.Machine.execClockLossReset s
  | .clockEdgeMissing which => Sys2Proof.Machine.execClockEdgeMissing which s
  | .koscTrim count => Sys2Proof.Machine.execKoscTrim count s
  | .supplyWarning rails => Sys2Proof.Machine.execSupplyWarning rails s
  | .supplyWarningClear => Sys2Proof.Machine.execSupplyWarningClear s
  | .vkeepWarning => Sys2Proof.Machine.execVkeepWarning s
  | .mainRailReset rails => Sys2Proof.Machine.execMainRailReset rails s
  | .mainRailRelease => Sys2Proof.Machine.execMainRailRelease s
  | .vkeepReset => Sys2Proof.Machine.execVkeepReset s
  | .vkeepPowerUp ramOk => Sys2Proof.Machine.execVkeepPowerUp ramOk s
  | .psrcDebounce main level => Sys2Proof.Machine.execPsrcDebounce main level s
  | .holdoffExpire => Sys2Proof.Machine.execHoldoffExpire s
  | .mainsStable => Sys2Proof.Machine.execMainsStable s
  | .unitContain page unit => Sys2Proof.Machine.execUnitContain page unit s
  | .regionContain region cause => Sys2Proof.Machine.execRegionContain region cause s
  | .thermalLimit region => Sys2Proof.Machine.execThermalLimit region s
  | .thermalRelease region => Sys2Proof.Machine.execThermalRelease region s
  | .sysRegionRelease mask => Sys2Proof.Machine.execSysRegionRelease mask s
  | .flitCrcFail link back flit => Sys2Proof.Machine.execFlitCrcFail link back flit s
  | .linkRetrain link ok => Sys2Proof.Machine.execLinkRetrain link ok s
  | .d2dRetrainRetry link ok => Sys2Proof.Machine.execD2dRetrainRetry link ok s
  | .d2dLinkUp link => Sys2Proof.Machine.execD2dLinkUp link s
  | .pinShort pin => Sys2Proof.Machine.execPinShort pin s
  | .pinOpenTest pin followsUp followsDown changed => Sys2Proof.Machine.execPinOpenTest pin followsUp followsDown changed s
  | .pinRelease pin stillFaulty => Sys2Proof.Machine.execPinRelease pin stillFaulty s
  | .replan r => Sys2Proof.Machine.execReplan r s
  | .lehrReplanNow r => Sys2Proof.Machine.execLehrReplanNow r s
  | .replanDeferredStart r => Sys2Proof.Machine.execReplanDeferredStart r s
  | .avsWriteDone rail ack => Sys2Proof.Machine.execAvsWriteDone rail ack s
  | .sysRst widthNs => Sys2Proof.Machine.execSysRst widthNs s
  | .tapReset => Sys2Proof.Machine.execTapReset s
  | .bypass => Sys2Proof.Machine.execBypass s
  | .samplePreload load => Sys2Proof.Machine.execSamplePreload load s
  | .idcode => Sys2Proof.Machine.execIdcode s
  | .extest => Sys2Proof.Machine.execExtest s
  | .clamp => Sys2Proof.Machine.execClamp s
  | .highz => Sys2Proof.Machine.execHighz s
  | .remoteFault port on => Sys2Proof.Machine.execRemoteFault port on s
  | .lpiRx port on => Sys2Proof.Machine.execLpiRx port on s
  | .completionTimeout fn k => Sys2Proof.Machine.execCompletionTimeout fn k s
  | .pcieLinkDown l2 => Sys2Proof.Machine.execPcieLinkDown l2 s
  | .pcieRecovery width rate errors => Sys2Proof.Machine.execPcieRecovery width rate errors s
  | .cxlDeviceError => Sys2Proof.Machine.execCxlDeviceError s

end Sys2Proof.Machine
end

