-- ==== Sys2Proof/Safety.lean ====
section
/-! DEFINITION. What every step keeps: storage in canonical form, so that equal contents are equal data, and counts within
their counters' widths; and the terms that the statements use. -/

namespace Sys2Proof

open Sys2Proof.Machine

/-- Storage in canonical form: keys strictly rising and no entry equal to what an unlisted key reads as. It covers the
three copies of the registers, the tables, the live counts, shared and local SRAM, the flash and its erase journal. -/
structure Safety.Canonical (s : State) : Prop where
  regs : Sparse.wf regDef s.rf.regs = true
  copy1 : Sparse.wf regDef s.rf.copy1 = true
  copy2 : Sparse.wf regDef s.rf.copy2 = true
  tables : Sparse.wf tblDef s.tables = true
  live : Sparse.wf (fun _ => 0) s.cnt.live = true
  sram : Sparse.wf (fun _ => 0#8) s.sram = true
  lsram : Sparse.wf (fun _ => 0#8) s.core.lsram = true
  flash : Sparse.wf (fun _ => none) s.flsh.mem = true
  journal : Sparse.wf (fun _ => erasedWord) s.flsh.journal = true

/-- Every live count is below the modulus that its counter wraps at (R62). -/
def Safety.CountsFit (s : State) : Prop := ∀ i, s.counter i < counterMod i

/-- Event bit `b` of the pennant of page `p` stands (R51). -/
def Machine.State.stands (s : State) (p b : Nat) : Bool := (s.reg p 0x010).getLsbD b

/-- Page `p` takes register writes: it is not dark and no soft reset of it is in progress (R44, R49). -/
def Safety.Ready (s : State) (p : Nat) : Prop := s.dark p = false ∧ s.flag p HDR.pageCtrlSoftReset = false

/-- A downstream request of type `kind` that the tree carries out: firmware runs, it is addressed here, its authentication
holds, it repeats no earlier request, and its type, mode and length are accepted (R197 to R200, R519). -/
def Safety.TmcRuns (s : State) (tr : Tree) (m : TmcIn) (kind : Nat) : Prop :=
  (tmcMsg m.bytes).kind = kind ∧ s.firmware = true ∧ s.actWorks tr = true ∧ (tmcMsg m.bytes).response = false ∧
    s.tmcAddressed tr (tmcMsg m.bytes) = true ∧ s.tmcAuthBad tr (s.tmcFcOf tr m) (tmcMsg m.bytes) = false ∧
    s.tmcRepeat tr (tmcMsg m.bytes) = none ∧ (tmcMsg m.bytes).lengthOk = true ∧
    tmcAccepted kind (s.mode tr) = true ∧ tmcBodyOk kind (tmcMsg m.bytes).body = true

/-- The receiver that carries a tree's control is locked and its clock good, so that the tree keeps a clock whatever its mode
(R90, R539, R541). -/
def Safety.clocked (s : State) (t : Tree) : Bool :=
  match s.controlRx t with
  | some r => s.locked r && s.clkGood (rxCand r)
  | none => false

/-- Commands that may change a PAGE_CTRL or end a pennant's event: a register or pennant write, an enable or a disable, a reset,
a region or domain that loses its state or has it restored, and a few whose registers' places vary. -/
def Safety.touchesHeader : Instr → Bool
  | .registerWrite _ _ _ _ => true
  | .latchingRead _ _ _ => true
  | .rwtVotedRead _ _ => true
  | .softReset _ => true
  | .softResetComplete _ => true
  | .pennantClear _ _ => true
  | .pennantMaskWrite _ _ => true
  | .tripleScrub => true
  | .indirectAddrWrite _ _ _ _ => true
  | .rxEnable _ => true
  | .rxDisable _ => true
  | .txDisable _ => true
  | .txLaserPolicyWrite _ _ => true
  | .ofeI2cGo _ _ => true
  | .frmEnable _ => true
  | .frmDisable _ => true
  | .pmDisable => true
  | .halDisable _ => true
  | .actDisable _ => true
  | .dualDisable => true
  | .grtDisable _ => true
  | .uschDisable => true
  | .polDisable => true
  | .clsDisable => true
  | .flowDisable => true
  | .dschDisable => true
  | .stoDisable => true
  | .swcDisable => true
  | .mirDisable => true
  | .xtrDisable => true
  | .lsecDisable => true
  | .ccryDisable => true
  | .kstDisable => true
  | .timeEnable => true
  | .timeDisable => true
  | .portCfgWrite _ _ => true
  | .laneDisable => true
  | .uniqDisable _ => true
  | .perstAssert => true
  | .pcieConfigWrite _ _ => true
  | .flrComplete _ => true
  | .dmaDisable => true
  | .cxlEnumerate => true
  | .hifDisable => true
  | .coreDisable => true
  | .tskDisable => true
  | .flshDisable => true
  | .domainEntryDone _ => true
  | .keepPolicyWrite _ _ => true
  | .domainRestoreDone _ => true
  | .clockLossReset => true
  | .mainRailReset _ => true
  | .vkeepReset => true
  | .holdoffExpire => true
  | .regionContain _ _ => true
  | .thermalLimit _ => true
  | .linkRetrain _ _ => true
  | .sysRst _ => true
  | .pinOpenTest _ _ _ _ => true
  | .extest => true
  | .clamp => true
  | .highz => true
  | _ => false

/-- Commands that may change what holds regions in reset or contained, PERST#, the power source's timers, the boundary port or what
the flash holds. -/
def Safety.touchesHolds : Instr → Bool
  | .registerWrite _ _ _ _ => true
  | .perstAssert => true
  | .perstDeassert _ => true
  | .flashRead _ => true
  | .flashProgram _ _ => true
  | .flashErase _ => true
  | .pageLoad _ => true
  | .flashOpDone _ => true
  | .flashEraseDone _ => true
  | .boot _ _ => true
  | .clockGateEnd _ _ => true
  | .clockLossReset => true
  | .mainRailReset _ => true
  | .mainRailRelease => true
  | .vkeepReset => true
  | .psrcDebounce _ _ => true
  | .holdoffExpire => true
  | .mainsStable => true
  | .regionContain _ _ => true
  | .thermalLimit _ => true
  | .thermalRelease _ => true
  | .sysRegionRelease _ => true
  | .linkRetrain _ _ => true
  | .d2dRetrainRetry _ _ => true
  | .d2dLinkUp _ => true
  | .sysRst _ => true
  | .pinOpenTest _ _ _ _ => true
  | .tapReset => true
  | .bypass => true
  | .samplePreload _ => true
  | .idcode => true
  | .extest => true
  | .clamp => true
  | .highz => true
  | _ => false

end Sys2Proof
end

