-- ==== Sys2Proof/Certificates/Slice0/Obligations.lean ====
section
/-! DEFINITION. The statements for the provers. -/

open Sys2Proof Sys2Proof.Machine Sys2Proof.Safety

/-- A step with a command at the front of the queue is that command's meaning on the state with the queue's rest; a step
on an empty queue advances the part's time by one symbol and leaves the queue empty (the model's own choice, log entry 1).
-/
def Obligations.StepRunsFront : Prop :=
  (∀ (c : Instr) (cs : List Instr) (s : State), step { s with pending := c :: cs } = exec c { s with pending := cs }) ∧
  (∀ s : State, s.pending = [] → ∃ t, step s = .next t ∧ t.now = s.now + 1 ∧ t.pending = [])

/-- Every command answers a next state, and that state has the queue and the time it had; free values are only used up,
never given back, and what was sent stays sent. (The model's own choices in it: log entry 5.) -/
def Obligations.CommandsKeepQueue : Prop :=
  ∀ (c : Instr) (s : State), ∃ t, exec c s = .next t ∧ t.pending = s.pending ∧ t.now = s.now ∧ s.freeIx ≤ t.freeIx ∧
    s.out <:+ t.out

/-- Every step keeps every kind of storage in canonical form. -/
def Obligations.StepKeepsCanonical : Prop :=
  ∀ s t : State, Canonical s → step s = .next t → Canonical t

/-- Every step keeps every live count below its counter's modulus: 2^72 for a byte counter, 2^64 for any other (R62). -/
def Obligations.StepKeepsCounts : Prop :=
  ∀ s t : State, CountsFit s → step s = .next t → CountsFit t

/-- After reset: storage in canonical form, counts within their widths, nothing waiting. (The model's own choices in it:
log entry 2.) -/
def Obligations.ResetMeetsInvariants : Prop :=
  Canonical State.reset ∧ CountsFit State.reset ∧ State.reset.pending = []

/-- R46 and R15 over PENNANT_ROUTE, which stands on every page: a whole write of a ready page gives each RW bit what Table
2.3 says for its view, leaves the reserved bits, and changes no other register and nothing outside the registers. -/
def Obligations.ViewsWrite : Prop :=
  ∀ (s : State) (p : Nat) (acc : Access), (pageInfo p).isSome = true → Ready s p → acc.be = 15#4 →
    ∃ t, exec (.registerWrite p 0x018 acc none) s = .next t ∧
      t.reg p 0x018 = (s.reg p 0x018 &&& ~~~ 0x800007FF#32) |||
        ((match acc.view with
          | .normal => acc.val
          | .set => s.reg p 0x018 ||| acc.val
          | .clear => s.reg p 0x018 &&& ~~~ acc.val
          | .toggle => s.reg p 0x018 ^^^ acc.val) &&& 0x800007FF#32) ∧
      (∀ q off, regKey q off ≠ regKey p 0x018 → t.reg q off = s.reg q off) ∧
      t = { s with rf := t.rf }

/-- A write with fewer than four byte enables to a page that is neither dark nor in soft reset changes no register but
PAGE_CFG_STATUS and the pennants, records the offset with cause 0b10, and event 23 stands. An access to a dark page is
counted, recorded in SYS_DARK_ACCESS, and a read answers all ones; no register but SYS_DARK_ACCESS changes. The same holds
of a register write. Clearing SYS_DARK_ACCESS sets its three fields to 0. (Rests on R41, R50, R44, R45.) (The model's own
choices in it: log entry 19.) -/
def Obligations.RefusedAccesses : Prop :=
  (∀ (s : State) (p off : Nat) (acc : Access), (pageInfo p).isSome = true → off < 0x1000 → Ready s p → acc.be ≠ 15#4 →
    ∃ t, exec (.registerWrite p off acc none) s = .next t ∧
      t.fld p HDR.pageCfgStatusIgnoredCause = 2 ∧ t.fld p HDR.pageCfgStatusIgnoredOffset = off / 4 ∧
      t.flag p HDR.pageCfgStatusIgnored = true ∧ t.stands p 23 = true ∧
      (∀ q o, o / 4 % 1024 ≠ 4 → regKey q o ≠ regKey p 0x00C → t.reg q o = s.reg q o)) ∧
  ((∀ (s : State) (p : Nat) (w : Bool), (pageInfo p).isSome = true → s.dark p = true →
    ∃ t, exec (.darkPageAccess p w) s = .next t ∧
      t.fld pgSYS SYS.darkAccessCount = min 65535 (s.fld pgSYS SYS.darkAccessCount + 1) ∧
      t.fld pgSYS SYS.darkAccessLastPage = p ∧ t.flag pgSYS SYS.darkAccessLastWasWrite = w ∧
      t.counter cuSYS = (s.counter cuSYS + 1) % counterMod cuSYS ∧
      t.readData = (if w then s.readData else 0xFFFFFFFF#32) ∧
      (∀ q off, regKey q off ≠ regKey pgSYS 0x038 → t.reg q off = s.reg q off) ∧
      t = { s with rf := t.rf, cnt := t.cnt, readData := t.readData }) ∧
  (∀ (s : State) (p off : Nat) (acc : Access), (pageInfo p).isSome = true → s.dark p = true →
    exec (.registerWrite p off acc none) s = exec (.darkPageAccess p true) s) ∧
  (∀ s : State, Ready s pgSYS →
    ∃ t, exec .sysDarkAccessClear s = .next t ∧ t.fld pgSYS SYS.darkAccessCount = 0 ∧
      t.fld pgSYS SYS.darkAccessLastPage = 0 ∧ t.flag pgSYS SYS.darkAccessLastWasWrite = false ∧
      (∀ q off, regKey q off ≠ regKey pgSYS 0x038 → t.reg q off = s.reg q off) ∧ t = { s with rf := t.rf }))

/-- A read of CNT_SNAP_ACTUAL's lowest register latches the other three, and the next read of a latched register returns
the holding copy, once. A read of a register that stands alone answers its value and changes nothing else. A 64-bit read
or write is that of its lower offset, and then that of the upper. The clear commands set their counts to 0 and change
nothing else, a soft reset clears enable, gives every RW, RWE and RWT field of the page from offset 0x030 its reset value,
and shows soft_reset 1 (a terminal whose keep RAM holds a quarantine record stands in Quarantine again: log entry 120);
its completion shows 0 and changes nothing else. (Rests on R41, R42, R48, R49.) (The model's own choices in it: log
entries 25, 29, 120.) -/
def Obligations.HeadersCommanded : Prop :=
  ((∀ s : State, s.dark pgCNT = false → Sparse.get none s.rf.latches (regKey pgCNT 0x050) = none →
    ∃ t, exec (.latchingRead pgCNT 0x050 false) s = .next t ∧ t.readData = s.reg pgCNT 0x050 ∧
      (∀ i, 0 < i → i < 4 → Sparse.get none t.rf.latches (regKey pgCNT (0x050 + 4 * i)) = some (s.reg pgCNT (0x050 + 4 * i)))) ∧
  (∀ (s : State) (p off : Nat) (v : Word), (pageInfo p).isSome = true → s.dark p = false → off ≠ 0x020 →
    rwtVote p off = none → Sparse.get none s.rf.latches (regKey p off) = some v →
    ∃ t, exec (.latchingRead p off false) s = .next t ∧ t.readData = v ∧
      Sparse.get none t.rf.latches (regKey p off) = none) ∧
  (∀ (s : State) (p : Nat), (pageInfo p).isSome = true → s.dark p = false →
    Sparse.get none s.rf.latches (regKey p 0x018) = none →
    exec (.latchingRead p 0x018 false) s = .next { s with readData := s.reg p 0x018 }) ∧
  (∀ (s : State) (p off : Nat), ∃ t u, exec (.latchingRead p off false) s = .next t ∧
    exec (.latchingRead p (off + 4) false) t = .next u ∧
    exec (.latchingRead p off true) s = .next { u with readHigh := u.readData, readData := t.readData }) ∧
  (∀ (s : State) (p off : Nat) (acc : Access) (be : BitVec 4) (v : Word),
    ∃ t u, exec (.registerWrite p off acc none) s = .next t ∧
      exec (.registerWrite p (off + 4) { acc with be := be, val := v } none) t = .next u ∧
      exec (.registerWrite p off acc (some (be, v))) s = .next u)) ∧
  ((∀ (s : State) (p : Nat), (pageInfo p).isSome = true → Ready s p →
    ∃ t, exec (.cfgStatusClear p) s = .next t ∧ t.fld p ⟨0x00C, 27, 0⟩ = 0 ∧
      (∀ q off, regKey q off ≠ regKey p 0x00C → t.reg q off = s.reg q off) ∧ t = { s with rf := t.rf }) ∧
  (∀ (s : State) (p : Nat), (pageInfo p).isSome = true → Ready s p →
    ∃ t, exec (.tripleStatusClear p) s = .next t ∧ t.fld p ⟨0x028, 26, 0⟩ = 0 ∧
      (∀ q off, regKey q off ≠ regKey p 0x028 → t.reg q off = s.reg q off) ∧ t = { s with rf := t.rf }) ∧
  (∀ (s : State) (p : Nat), (pageInfo p).isSome = true → p ≠ pgSYS → Ready s p →
    ∃ t, exec (.softReset p) s = .next t ∧ t.flag p HDR.pageCtrlSoftReset = true ∧ t.enabled p = false ∧
      (∀ r ∈ pageRegs p, 0x030 ≤ r.off → (p ≠ pgACT .a ∧ p ≠ pgACT .b) ∨ r.off ≠ 0x030 →
        t.reg p r.off &&& r.kept = regDef (regKey p r.off) &&& r.kept)) ∧
  (∀ (s : State) (tr : Tree), Ready s (pgACT tr) →
    ∃ t, exec (.softReset (pgACT tr)) s = .next t ∧
      t.fld (pgACT tr) ACT.modeMode = if s.tb pgKEEP 1 (quarEntry tr) 0 31 then 7 else 0) ∧
  (∀ (s : State) (p : Nat), (pageInfo p).isSome = true → s.flag p HDR.pageCtrlSoftReset = true →
    ∃ t, exec (.softResetComplete p) s = .next t ∧ t.flag p HDR.pageCtrlSoftReset = false ∧ t.enabled p = s.enabled p ∧
      (∀ q off, regKey q off ≠ regKey p 0x008 → t.reg q off = s.reg q off) ∧ t = { s with rf := t.rf }))

/-- An event of a page that is powered, out of reset and clocked sets its bit; the sequence advances at once where it has
not advanced in the last microsecond, and otherwise waits. At the end of the microsecond a waiting advance is made. A
write that shows the latest sequence while no advance is pending clears the event bits it writes as 1 and nothing else;
any other write changes no event and counts as stale. PENNANT_MASK takes the written bits; where the write clears no mask
bit of a standing event, or no message is routed, nothing else changes. (Rests on R51, R53, R52.) -/
def Obligations.PennantsRun : Prop :=
  ((∀ (s : State) (p b : Nat), (pageInfo p).isSome = true → s.alive p = true → b < 24 →
    ∃ t, exec (.pennantEvent p b) s = .next t ∧ t.stands p b = true ∧
      t.fld p HDR.pennantSequence =
        (if (s.pennant p).hold then s.fld p HDR.pennantSequence else (s.fld p HDR.pennantSequence + 1) % 256) ∧
      (∀ q off, off / 4 % 1024 ≠ 4 → t.reg q off = s.reg q off) ∧ t.sram = s.sram ∧ t.flsh = s.flsh ∧ t.uni = s.uni) ∧
  (∀ (s : State) (p : Nat), (pageInfo p).isSome = true → (s.pennant p).hold = true →
    ∃ t, exec (.pennantAdvance p) s = .next t ∧
      t.fld p HDR.pennantSequence =
        (if (s.pennant p).pend then (s.fld p HDR.pennantSequence + 1) % 256 else s.fld p HDR.pennantSequence) ∧
      (t.pennant p).hold = (s.pennant p).pend ∧
      (∀ q off, off / 4 % 1024 ≠ 4 → t.reg q off = s.reg q off))) ∧
  ((∀ (s : State) (p : Nat) (v : Word), (pageInfo p).isSome = true → Ready s p →
    HDR.pennantSequence.get v = s.fld p HDR.pennantSequence → (s.pennant p).pend = false →
    ∃ t, exec (.pennantClear p v) s = .next t ∧
      t.reg p 0x010 = s.reg p 0x010 &&& ~~~ (v &&& 0x00FFFFFF#32) ∧
      (∀ q off, regKey q off ≠ regKey p 0x010 → t.reg q off = s.reg q off) ∧ t = { s with rf := t.rf }) ∧
  (∀ (s : State) (p : Nat) (v : Word), (pageInfo p).isSome = true → Ready s p →
    HDR.pennantSequence.get v ≠ s.fld p HDR.pennantSequence ∨ (s.pennant p).pend = true →
    ∃ t, exec (.pennantClear p v) s = .next t ∧
      t.fld p HDR.pageCfgStatusStaleCount = min 255 (s.fld p HDR.pageCfgStatusStaleCount + 1) ∧
      t.counter (cuSYS + 2) = (s.counter (cuSYS + 2) + 1) % counterMod (cuSYS + 2) ∧
      (∀ q off, regKey q off ≠ regKey p 0x00C → t.reg q off = s.reg q off) ∧
      t = { s with rf := t.rf, cnt := t.cnt })) ∧
  (∀ (s : State) (p : Nat) (acc : Access), (pageInfo p).isSome = true → Ready s p → acc.be = 15#4 →
    ∃ t, exec (.pennantMaskWrite p acc) s = .next t ∧
      t.reg p 0x014 = (s.reg p 0x014 &&& ~~~ 0x00FFFFFF#32) |||
        (viewApply acc.view (s.reg p 0x014) acc.val &&& 0x00FFFFFF#32) ∧
      (∀ q off, off / 4 % 1024 ≠ 4 → regKey q off ≠ regKey p 0x014 → t.reg q off = s.reg q off) ∧
      (s.flag p HDR.pennantRouteRouteEnable = false → t = { s with rf := t.rf }))

/-- A pointer write moves the window; a word written below an entry's last is staged, and no table changes; the last word
commits the entry's words together, and the pointer goes on to the next entry by the stride. A read of word 0 of an entry
answers that word and holds the whole entry; a read of a later word of the held entry answers the held word and changes no
table; a read that points outside every table answers 0 and raises event 21. (Rests on R58, R59, R60.) -/
def Obligations.WindowsReadWrite : Prop :=
  ((∀ (s : State) (w : Window) (p : Nat) (ctrl : Bool) (acc : Access), (pageInfo p).isSome = true → Ready s p →
    acc.be = 15#4 → acc.view = .normal → (s.win w p).staged = [] →
    ∃ t, exec (.indirectAddrWrite w p ctrl acc) s = .next t ∧
      (ctrl = false → t.fld (winPage w p) HDR.indirectAddrEntry = HDR.indirectAddrEntry.get acc.val ∧
        t.fld (winPage w p) HDR.indirectAddrWord = HDR.indirectAddrWord.get acc.val) ∧
      (ctrl = true → t.fld (winPage w p) HDR.indirectCtrlTable = HDR.indirectCtrlTable.get acc.val ∧
        t.fld (winPage w p) HDR.indirectCtrlStride = HDR.indirectCtrlStride.get acc.val) ∧
      (∀ q off, regKey q off ≠ regKey (winPage w p) (if ctrl then 0x024 else 0x01C) → t.reg q off = s.reg q off) ∧
      t = { s with rf := t.rf }) ∧
  (∀ (s : State) (w : Window) (p : Nat) (v : Word) (i : PageInfo) (ti : TableInfo), pageInfo p = some i → Ready s p →
    s.winTarget w p = some ti → ti.writes w = true → s.entryOff i.blk (s.winEntry w p) = false →
    roWord i.blk (s.winTable w p) (s.winEntry w p) (s.winWord w p) = false → s.winWord w p + 1 < ti.width →
    ∃ t, exec (.indirectDataWrite w p v) s = .next t ∧
      Sparse.get none (t.win w p).staged (s.winWord w p) = some v ∧
      t.fld (winPage w p) HDR.indirectAddrWord = s.winWord w p + 1 ∧ t.winEntry w p = s.winEntry w p ∧
      t.tables = s.tables ∧ t = { s with rf := t.rf, wins := t.wins }) ∧
  (∀ (s : State) (w : Window) (v : Word), Ready s pgCLS → s.winTable w pgCLS = 2 → s.winEntry w pgCLS < 256 →
    s.winWord w pgCLS = 1 →
    ∃ t, exec (.indirectDataWrite w pgCLS v) s = .next t ∧
      t.tw pgCLS 2 (s.winEntry w pgCLS) 1 = v ∧
      t.tw pgCLS 2 (s.winEntry w pgCLS) 0 = (s.tw pgCLS 2 (s.winEntry w pgCLS) 0 &&& ~~~ 7#32) |||
        ((Sparse.get none (s.win w pgCLS).staged 0).getD (s.tw pgCLS 2 (s.winEntry w pgCLS) 0) &&& 7#32) ∧
      (t.win w pgCLS).staged = [] ∧ t.winWord w pgCLS = 0 ∧
      t.winEntry w pgCLS = (s.winEntry w pgCLS + s.fld (winPage w pgCLS) HDR.indirectCtrlStride) % 2 ^ 24 ∧
      (∀ p i e k, tblKey p i e k ≠ tblKey pgCLS 2 (s.winEntry w pgCLS) 0 →
        tblKey p i e k ≠ tblKey pgCLS 2 (s.winEntry w pgCLS) 1 → t.tw p i e k = s.tw p i e k) ∧
      t = { s with rf := t.rf, wins := t.wins, tables := t.tables })) ∧
  ((∀ (s : State) (w : Window), s.dark pgCLS = false → s.winTable w pgCLS = 2 → s.winEntry w pgCLS < 256 →
    s.winWord w pgCLS = 0 →
    ∃ t, exec (.indirectDataRead w pgCLS) s = .next t ∧ t.readData = s.tw pgCLS 2 (s.winEntry w pgCLS) 0 ∧
      (t.win w pgCLS).holding = [s.tw pgCLS 2 (s.winEntry w pgCLS) 0, s.tw pgCLS 2 (s.winEntry w pgCLS) 1] ∧
      (t.win w pgCLS).held = some (2, s.winEntry w pgCLS) ∧ t.winWord w pgCLS = 1 ∧
      t.winEntry w pgCLS = s.winEntry w pgCLS ∧ t.tables = s.tables) ∧
  (∀ (s : State) (w : Window) (p : Nat) (ti : TableInfo), (pageInfo p).isSome = true → s.dark p = false →
    s.winTarget w p = some ti → s.winWord w p ≠ 0 → (s.win w p).held = some (s.winTable w p, s.winEntry w p) →
    ∃ t, exec (.indirectDataRead w p) s = .next t ∧ t.readData = (s.win w p).holding[s.winWord w p]?.getD 0#32 ∧
      t = { s with rf := t.rf, readData := t.readData }) ∧
  (∀ (s : State) (w : Window) (p : Nat), (pageInfo p).isSome = true → s.dark p = false → s.winTarget w p = none →
    ∃ t, exec (.indirectDataRead w p) s = .next t ∧ t.readData = 0#32 ∧ t.stands p 21 = true ∧ t.wins = s.wins ∧
      (∀ q i e k, tblKey q i e k / 0x4000000 ≠ pgTSK → t.tw q i e k = s.tw q i e k)))

/-- Where two of the three copies of every field of every triplicated register agree, and of every security context's
selector, a scrub leaves every field of a page that is not dark with three equal copies, each the majority; and a read of
a transmitter's triplicated register answers the majority, rewrites the copy that differs, and records it. (Rests on R56.)
(The model's own choices in it: log entry 17.) -/
def Obligations.VotesCorrect : Prop :=
  (∀ s : State, (∀ c, noMajority (s.tf pgLSEC 0 c 0 3 2) (Sparse.get 3 s.lsec.sel1 c) (Sparse.get 3 s.lsec.sel2 c) = false) →
    (∀ x ∈ rwtRegs, ∀ w safe n, rwtVote x.1 x.2 = some (w, safe, n) → ∀ f ∈ voteFields w n x.2,
      noMajority (f.get (s.copy 0 x.1 x.2)) (f.get (s.copy 1 x.1 x.2)) (f.get (s.copy 2 x.1 x.2)) = false) →
    ∃ t, exec .tripleScrub s = .next t ∧
      (∀ x ∈ rwtRegs, s.dark x.1 = false → ∀ w safe n, rwtVote x.1 x.2 = some (w, safe, n) →
        ∀ f ∈ voteFields w n x.2, ∀ c, f.get (t.copy c x.1 x.2) =
          voteField safe (f.get (s.copy 0 x.1 x.2)) (f.get (s.copy 1 x.1 x.2)) (f.get (s.copy 2 x.1 x.2)))) ∧
  (∀ (s : State) (tr : Tree) (a b c : Nat), s.dark (pgTX tr) = false →
    Sparse.get none s.rf.latches (regKey (pgTX tr) 0x03C) = none →
    a = Fld.get ⟨0x03C, 1, 0⟩ (s.copy 0 (pgTX tr) 0x03C) → b = Fld.get ⟨0x03C, 1, 0⟩ (s.copy 1 (pgTX tr) 0x03C) →
    c = Fld.get ⟨0x03C, 1, 0⟩ (s.copy 2 (pgTX tr) 0x03C) → noMajority a b c = false → ¬ (a = b ∧ a = c) →
    ∃ t, exec (.rwtVotedRead (pgTX tr) 0x03C) s = .next t ∧
      (∀ i, Fld.get ⟨0x03C, 1, 0⟩ (t.copy i (pgTX tr) 0x03C) = if a = b ∨ a = c then a else b) ∧
      Fld.get ⟨0x03C, 1, 0⟩ t.readData = (if a = b ∨ a = c then a else b) ∧ t.stands (pgTX tr) 22 = true ∧
      t.fld (pgTX tr) HDR.tripleStatusDisagreeOffset = 0x03C / 4)

/-- R603: a write to CNT_SNAP_CTRL that sets more than one of arm, cancel and arm_now does nothing but leave its trace: it
is recorded with cause 0b01, and neither CNT_SNAP_STATUS nor a counter of the CNT page changes. A plain register write of
the same value does the same. -/
def Obligations.SnapCtrlMultiIgnored : Prop :=
  ∀ (s : State) (v : Word), Ready s pgCNT → [3, 5, 6, 7].contains (v.toNat % 8) = true →
    (∃ t, exec (.snapCtrlMulti v) s = .next t ∧
      t.fld pgCNT HDR.pageCfgStatusIgnoredCause = 1 ∧ t.fld pgCNT HDR.pageCfgStatusIgnoredOffset = 0x030 / 4 ∧
      t.flag pgCNT HDR.pageCfgStatusIgnored = true ∧
      t.reg pgCNT 0x034 = s.reg pgCNT 0x034 ∧ (∀ i, i < 16 → t.counter (cuCNT + i) = s.counter (cuCNT + i)) ∧
      (∀ q o, o / 4 % 1024 ≠ 4 → regKey q o ≠ regKey pgCNT 0x00C → t.reg q o = s.reg q o) ∧ t.snap = s.snap) ∧
    exec (.registerWrite pgCNT 0x030 (cmdAccess v) none) s = exec (.snapCtrlMulti v) s

/-- An idle engine with an unlocked bank, and with a target at least 10 µs ahead or no valid time, arms at the target
held. A busy engine, a target too near, and a locked bank refuse with results 1, 2 and 3, and only the result and one
counter change. That a target too near wins over a locked bank is the model's choice (log entry 90). (Rests on R66.) -/
def Obligations.SnapArms : Prop :=
  (∀ s : State, Ready s pgCNT → s.snapState = 0 → s.snapLocked = false →
    s.timeValid = false ∨ s.time.val + 10000 * unitsPerNs ≤ s.snapTarget * unitsPerNs →
    ∃ t, exec .snapArm s = .next t ∧ t.snapState = 1 ∧ t.fld pgCNT CNT.snapStatusLastArmResult = 0 ∧
      t.snap.target = s.snapTarget ∧ t.counter cuCNT = (s.counter cuCNT + 1) % counterMod cuCNT ∧
      (∀ q o, regKey q o ≠ regKey pgCNT 0x034 → t.reg q o = s.reg q o) ∧
      (∀ i, i ≠ cuCNT → t.counter i = s.counter i) ∧ t = { s with rf := t.rf, cnt := t.cnt, snap := t.snap }) ∧
  (∀ (s : State) (k : Nat), Ready s pgCNT →
    (k = 1 ∧ s.snapState ≠ 0) ∨
      (k = 2 ∧ s.snapState = 0 ∧ s.timeValid = true ∧ s.snapTarget * unitsPerNs < s.time.val + 10000 * unitsPerNs) ∨
      (k = 3 ∧ s.snapState = 0 ∧ s.snapLocked = true ∧
        (s.timeValid = false ∨ s.time.val + 10000 * unitsPerNs ≤ s.snapTarget * unitsPerNs)) →
    ∃ t, exec .snapArm s = .next t ∧ t.snapState = s.snapState ∧ t.fld pgCNT CNT.snapStatusLastArmResult = k ∧
      t.counter (cuCNT + k) = (s.counter (cuCNT + k) + 1) % counterMod (cuCNT + k) ∧
      (∀ q o, regKey q o ≠ regKey pgCNT 0x034 → t.reg q o = s.reg q o) ∧
      (∀ i, i ≠ cuCNT + k → t.counter i = s.counter i) ∧ t = { s with rf := t.rf, cnt := t.cnt })

/-- When the part's time reaches the armed target, what every counter is captured as is taken (a symbol's passing counts
only the cores' cycles and instructions and what the policers' tokens have run on by); the capture then writes it into the
bank that is not current. A snapshot that fires late, or at once, captures at the command. Each shows state capturing,
last_late and last_unsync as the case is, and the instant: the target, the instant of the late capture, or 0. No live
count but that of arm_now, and no other bank, changes. A cancel disarms an armed engine and counts at index 8, and only
counts at index 9 once the counts are taken or while one captures; a unit that has not confirmed has its bank entries as
before and its missing flag set; completion makes the written bank current, counts and raises, with a missing unit and a
late capture too. (Rests on R63, R64, R65, R68, R66, R67.) -/
def Obligations.SnapshotsTaken : Prop :=
  ((∀ s : State, Ready s pgCNT → s.snapState = 0 → s.snapLocked = false →
    ∃ t, exec .snapArmNow s = .next t ∧ t.snapState = 2 ∧ t.fld pgCNT CNT.snapStatusLastArmResult = 0 ∧
      t.flag pgCNT CNT.snapStatusLastLate = false ∧
      t.flag pgCNT CNT.snapStatusLastUnsync = true ∧ t.snapBank = s.snapBank ∧
      (∀ k, k < 4 → t.reg pgCNT (0x050 + 4 * k) = 0#32) ∧
      (∀ i, i ≠ cuCNT + 7 → Sparse.get 0 (t.bank s.snapBank) i = s.captureValue i) ∧
      t.counter (cuCNT + 7) = (s.counter (cuCNT + 7) + 1) % counterMod (cuCNT + 7) ∧
      (∀ i, i ≠ cuCNT + 7 → t.counter i = s.counter i) ∧
      t.bank (1 - s.snapBank) = s.bank (1 - s.snapBank) ∧
      t = { s with rf := t.rf, cnt := t.cnt, snap := t.snap, tables := t.tables }) ∧
  (∀ s : State, s.pending = [] → s.snapState = 1 → s.snap.due = none → s.timeValid = true → s.targetReached = false →
    ∃ t, step s = .next t ∧ (t.targetReached = true →
      ∃ d, t.snap.due = some d ∧ d.late = false ∧ d.instant = s.snap.target * unitsPerNs ∧
        (∀ i, Sparse.get 0 d.counts i = t.captureValue i) ∧
        (∀ i, (i < cuCORE ∨ cuCORE + 64 ≤ i) → i ≠ cuPOL + 6 → i ≠ cuPOL + 8 → t.captureValue i = s.captureValue i))) ∧
  (∀ (s : State) (d : SnapDue), s.snapState = 1 → s.snap.due = some d → d.late = false →
    ∃ t, exec .snapCapture s = .next t ∧ t.snapState = 2 ∧ t.flag pgCNT CNT.snapStatusLastLate = false ∧
      t.flag pgCNT CNT.snapStatusLastUnsync = false ∧ t.snapBank = s.snapBank ∧
      t.reg pgCNT 0x050 = BitVec.ofNat 32 (d.instant / 243) ∧
      t.reg pgCNT 0x054 = BitVec.ofNat 32 (d.instant / unitsPerNs % 10 ^ 9) ∧
      t.reg pgCNT 0x058 = BitVec.ofNat 32 (d.instant / unitsPerNs / 10 ^ 9) ∧
      t.bank s.snapBank = d.counts ∧ t.bank (1 - s.snapBank) = s.bank (1 - s.snapBank) ∧ t.cnt.live = s.cnt.live ∧
      t = { s with rf := t.rf, cnt := t.cnt, snap := t.snap, tables := t.tables }) ∧
  (∀ s : State, s.snapState = 1 → s.timeValid = true → s.targetReached = true → s.snap.due = none →
    ∃ t, exec .snapLateFire s = .next t ∧ t.snapState = 2 ∧ t.flag pgCNT CNT.snapStatusLastLate = true ∧
      t.flag pgCNT CNT.snapStatusLastUnsync = false ∧ t.snapBank = s.snapBank ∧
      t.reg pgCNT 0x050 = BitVec.ofNat 32 (s.time.val / 243) ∧
      t.reg pgCNT 0x054 = BitVec.ofNat 32 (s.time.val / unitsPerNs % 10 ^ 9) ∧
      (∀ i, Sparse.get 0 (t.bank s.snapBank) i = s.captureValue i) ∧
      t.bank (1 - s.snapBank) = s.bank (1 - s.snapBank) ∧ t.cnt.live = s.cnt.live ∧
      t = { s with rf := t.rf, cnt := t.cnt, snap := t.snap, tables := t.tables })) ∧
  ((∀ s : State, Ready s pgCNT → s.snapState = 1 → s.snap.due = none →
    ∃ t, exec .snapCancel s = .next t ∧ t.snapState = 0 ∧
      t.counter (cuCNT + 8) = (s.counter (cuCNT + 8) + 1) % counterMod (cuCNT + 8) ∧
      (∀ q o, regKey q o ≠ regKey pgCNT 0x034 → t.reg q o = s.reg q o) ∧
      (∀ i, i ≠ cuCNT + 8 → t.counter i = s.counter i) ∧ t = { s with rf := t.rf, cnt := t.cnt, snap := t.snap }) ∧
  (∀ s : State, Ready s pgCNT → s.snapState = 2 ∨ (s.snapState = 1 ∧ s.snap.due.isSome = true) →
    ∃ t, exec .snapCancel s = .next t ∧ t.snapState = s.snapState ∧
      t.counter (cuCNT + 9) = (s.counter (cuCNT + 9) + 1) % counterMod (cuCNT + 9) ∧ t = { s with cnt := t.cnt }) ∧
  (∀ (s : State) (k : Nat) (u : CUnit), s.snapState = 2 → counterUnits[k]? = some u →
    ∃ t, exec (.snapUnitMissing k) s = .next t ∧ t.tb pgCNT (3 + s.snapBank) k 0 2 = true ∧
      (∀ i, Sparse.get 0 (t.bank s.snapBank) i =
        if (u.first ≤ i ∧ i < u.first + u.count) then Sparse.get 0 s.snap.prev i else Sparse.get 0 (s.bank s.snapBank) i) ∧
      t.bank (1 - s.snapBank) = s.bank (1 - s.snapBank) ∧ t.cnt.live = s.cnt.live ∧
      t = { s with cnt := t.cnt, tables := t.tables }) ∧
  (∀ s : State, s.snapState = 2 →
    ∃ t, exec .snapComplete s = .next t ∧ t.snapState = 0 ∧
      t.fld pgCNT CNT.snapStatusCurrentBank = s.snapBank ∧
      t.fld pgCNT CNT.snapStatusSnapCount = (s.fld pgCNT CNT.snapStatusSnapCount + 1) % 2 ^ 16 ∧
      t.counter (cuCNT + 4) = (s.counter (cuCNT + 4) + 1) % counterMod (cuCNT + 4) ∧ t.stands pgCNT 0 = true ∧
      ((List.range 384).any (fun k => s.tb pgCNT (3 + s.snapBank) k 0 2) = true → t.stands pgCNT 1 = true) ∧
      (s.flag pgCNT CNT.snapStatusLastLate = true → t.stands pgCNT 2 = true) ∧
      t.cnt.bank0 = s.cnt.bank0 ∧ t.cnt.bank1 = s.cnt.bank1))

/-- An enabled receiver with a permitted channel and a present OFE starts an acquisition in the gain phase with
sig_present at the measured value; one without stays idle and raises config_invalid. R91: a disabled receiver is not
enabled. (Rests on R75, R86, R117.) -/
def Obligations.ReceiverStartsStops : Prop :=
  (∀ (s : State) (r : Rx), Ready s (pgRX r) → s.enabled (pgRX r) = false → s.rxHeld r = false → s.rxConfigOk r = true →
    ∃ t, exec (.rxEnable r) s = .next t ∧ t.enabled (pgRX r) = true ∧ t.acq r = 1 ∧
      t.flag (pgRX r) RX.statusSigPresent = (s.rxs r).signal ∧ t.flag (pgRX r) RX.statusClkLock = false ∧
      t.counter (cuRX r + 4) = (s.counter (cuRX r + 4) + 1) % counterMod (cuRX r + 4) ∧
      ((s.rxs r).signal = true → t.stands (pgRX r) 0 = true) ∧
      (∀ q o, o / 4 % 1024 ≠ 4 → q ≠ pgRX r → q < 256 → o < 4096 → t.reg q o = s.reg q o)) ∧
  (∀ (s : State) (r : Rx), Ready s (pgRX r) → s.enabled (pgRX r) = false → s.rxHeld r = false → s.rxConfigOk r = false →
    ∃ t, exec (.rxEnable r) s = .next t ∧ t.enabled (pgRX r) = true ∧ t.acq r = s.acq r ∧ t.stands (pgRX r) 9 = true ∧
      (∀ q o, o / 4 % 1024 ≠ 4 → regKey q o ≠ regKey (pgRX r) 0x008 → t.reg q o = s.reg q o)) ∧
  (∀ (s : State) (r : Rx), Ready s (pgRX r) → s.enabled (pgRX r) = true →
    ∃ t, exec (.rxDisable r) s = .next t ∧ t.enabled (pgRX r) = false ∧ t.acq r = 0 ∧
      t.flag (pgRX r) RX.statusSigPresent = false ∧ t.flag (pgRX r) RX.statusClkLock = false ∧
      t.fld (pgRX r) RX.fomFom = 0 ∧ t.fld (pgRX r) RX.iterIterMean = 0)

/-- The level's rise shows sig_present and raises; its fall raises and returns the receiver to the gain phase, where it
waits; a lost lock raises lock_lost and starts an acquisition. Each phase's result stands in its register and the next
phase begins, and the last locks the receiver and raises; a timeout is counted, raised, and starts again. The pilots
received end the last phase only where one lane correction puts them on the transmitted ones, or forced values are used;
the correction shows in RX_LANE_FIX unless forced, and raises where it differs from the previous acquisition's; the first
raises nothing (the model's choice, log entry 106). (Rests on R86 to R88, R86, R87, R90, R114.) (The model's own choices
in it: log entry 55.) -/
def Obligations.ReceiverAcquires : Prop :=
  ((∀ (s : State) (r : Rx), s.works (pgRX r) = true → s.acq r ≠ 0 → s.flag (pgRX r) RX.statusSigPresent = false →
    ∃ t, exec (.sigPresent r) s = .next t ∧ (t.rxs r).signal = true ∧ t.flag (pgRX r) RX.statusSigPresent = true ∧
      t.stands (pgRX r) 0 = true ∧ ((s.rxs r).fell = true → t.acq r = 1) ∧
      ((s.rxs r).fell = false → ∀ q o, o / 4 % 1024 ≠ 4 → regKey q o ≠ regKey (pgRX r) 0x040 → t.reg q o = s.reg q o)) ∧
  (∀ (s : State) (r : Rx), s.works (pgRX r) = true → s.flag (pgRX r) RX.statusSigPresent = true →
    ∃ t, exec (.sigLost r) s = .next t ∧ t.stands (pgRX r) 1 = true ∧
      (s.locked r = true → t.stands (pgRX r) 3 = true) ∧
      (s.locked r = false → (t.rxs r).signal = false ∧ t.acq r = 1 ∧ t.flag (pgRX r) RX.statusSigPresent = false ∧
        t.flag (pgRX r) RX.statusClkLock = false)) ∧
  (∀ (s : State) (r : Rx), s.works (pgRX r) = true → s.locked r = true →
    ∃ t, exec (.lockLost r) s = .next t ∧ t.stands (pgRX r) 3 = true ∧ t.locked r = false)) ∧
  ((∀ (s : State) (r : Rx) (res : AcqResult), s.works (pgRX r) = true → s.flag (pgRX r) RX.statusSigPresent = true →
    s.acq r = acqPhase res → s.acqHolds r res = true →
    ∃ t, exec (.acqPhaseComplete r res) s = .next t ∧ t.acq r = acqPhase res + 1 ∧
      (match res with
        | .gain code level => t.fld (pgRX r) RX.iterGain = code % 256 ∧ t.fld (pgRX r) RX.iterLevel = level % 256
        | .clock ofs => t.flag (pgRX r) RX.statusClkLock = true ∧ t.fld (pgRX r) RX.clkOfsClkOfs = unsigned 32 ofs
        | .dispersion cd => t.fld (pgRX r) RX.cdEstCdEst = unsigned 16 cd
        | .polarisation => True
        | .carrier khz => t.fld (pgRX r) RX.freqOfsFreqOfs = unsigned 32 khz
        | .pilot fc syms => t.stands (pgRX r) 2 = true ∧
          (if s.flag (pgRX r) RX.laneFixUseForced then
            (t.rxs r).fix = (s.fld (pgRX r) RX.laneFixForcedOrder, s.fld (pgRX r) RX.laneFixForcedSigns) ∧
              t.reg (pgRX r) 0x03C = s.reg (pgRX r) 0x03C
          else ∃ order signs, order < 24 ∧ signs < 16 ∧
            syms.map (fromPairs order signs) = (framePilots fc syms.length).map Sym.lanes ∧
            t.fld (pgRX r) RX.laneFixOrder = order ∧ t.fld (pgRX r) RX.laneFixSigns = signs ∧
            (t.rxs r).fix = (order, signs) ∧
            (∀ x, (s.rxs r).prevFix = some x → x ≠ (order, signs) → t.stands (pgRX r) 6 = true))) ∧
      (∀ q o, o / 4 % 1024 ≠ 4 → q ≠ pgRX r → q < 256 → o < 4096 → t.reg q o = s.reg q o) ∧
      (acqPhase res ≠ 6 → t = { s with rf := t.rf })) ∧
  (∀ (s : State) (r : Rx) (fc : Nat) (syms : List (List Int)), s.flag (pgRX r) RX.laneFixUseForced = false →
    findLanes fc syms = none → exec (.acqPhaseComplete r (.pilot fc syms)) s = .next s) ∧
  (∀ (s : State) (r : Rx), s.works (pgRX r) = true → s.fld (pgRX r) RX.acqTimeout ≠ 0 → s.acq r ≠ 0 →
    s.locked r = false →
    ∃ t, exec (.acqTimeout r) s = .next t ∧ t.acq r = 1 ∧ t.stands (pgRX r) 7 = true ∧
      t.counter (cuRX r + 5) = (s.counter (cuRX r + 5) + 1) % counterMod (cuRX r + 5) ∧
      t.counter (cuRX r + 4) = (s.counter (cuRX r + 4) + 1) % counterMod (cuRX r + 4) ∧
      (∀ q o, o / 4 % 1024 ≠ 4 → q ≠ pgRX r → q < 256 → o < 4096 → t.reg q o = s.reg q o)))

/-- What a locked receiver counts and shows for a phase slip, a codeword, a window and a lane step. A codeword, its lanes
corrected, is decoded within the iteration limit in force, and its information bits come to the framer that works:
decoded, or as received where they stay uncorrectable. (Rests on R84, R89, R92, R93, R124.) (The model's own choices in
it: log entry 55.) -/
def Obligations.ReceiverRuns : Prop :=
  (∀ (s : State) (r : Rx), s.works (pgRX r) = true → s.locked r = true →
    ∃ t, exec (.phaseSlip r) s = .next t ∧ t.stands (pgRX r) 4 = true ∧
      t.counter (cuRX r + 3) = (s.counter (cuRX r + 3) + 1) % counterMod (cuRX r + 3) ∧
      (∀ q o, o / 4 % 1024 ≠ 4 → t.reg q o = s.reg q o)) ∧
  (∀ (s : State) (r : Rx) (cw : RxCodeword), s.works (pgRX r) = true → s.locked r = true →
    let d := decoderStop (s.flag (pgRX r) RX.fecCtrlEarlyStop) (s.rxs r).iterLimit (s.rxBits r cw.received) cw.steps
    ∃ t, exec (.codewordDecode r cw) s = .next t ∧ d.1 ≤ (s.rxs r).iterLimit ∧
      t.counter (cuRX r) = (s.counter (cuRX r) + 1) % counterMod (cuRX r) ∧
      (syndromeZero ldpcZDown d.2 = true →
        t.counter (cuRX r + 1) = (s.counter (cuRX r + 1) + (xorBits (s.rxBits r cw.received) d.2).count true) %
          counterMod (cuRX r + 1) ∧ t.counter (cuRX r + 2) = s.counter (cuRX r + 2)) ∧
      (syndromeZero ldpcZDown d.2 = false → t.counter (cuRX r + 1) = s.counter (cuRX r + 1) ∧
        t.counter (cuRX r + 2) = (s.counter (cuRX r + 2) + 1) % counterMod (cuRX r + 2)) ∧
      (s.works (pgFRM r) = true → (t.frms r).block =
        bitsBytes 2700 (if syndromeZero ldpcZDown d.2 then d.2 else s.rxBits r cw.received)) ∧
      (t.rxs r).iterLimit = s.fld (pgRX r) RX.fecCtrlMaxIter ∧
      t.fld (pgRX r) RX.fomRefRef = fomRef (s.fld (pgRX r) RX.fecCtrlMaxIter) ∧
      (∀ q o, o / 4 % 1024 ≠ 4 → regKey q o ≠ regKey (pgRX r) 0x048 → t.reg q o = s.reg q o)) ∧
  (∀ (s : State) (r : Rx) (fom : Nat), s.works (pgRX r) = true → s.locked r = true →
    ∃ t, exec (.fomWindowEnd r fom) s = .next t ∧ t.fld (pgRX r) RX.fomFom = min fom 10240 ∧
      ((s.rxs r).iterCount ≠ 0 →
        t.fld (pgRX r) RX.iterIterMean = min 65535 (256 * (s.rxs r).iterSum / (s.rxs r).iterCount)) ∧
      t.sfld (pgRX r) RX.fomMargin =
        clampInt (-32768) 32767 (((min fom 10240 : Nat) : Int) - (s.fld (pgRX r) RX.fomRefRef : Int)) ∧
      (t.rxs r).iterLimit = s.fld (pgRX r) RX.fecCtrlMaxIter ∧
      (∀ q o, o / 4 % 1024 ≠ 4 → q ≠ pgRX r → q < 256 → o < 4096 → t.reg q o = s.reg q o)) ∧
  (∀ (s : State) (r : Rx) (lane : Nat) (skew : Bool) (value : Nat), s.works (pgRX r) = true → s.locked r = true →
    (∀ x, (s.rxs r).adaptAt = some x → x + 10 * symPerMs ≤ s.now) → lane < (s.rxs r).lanes.length →
    ∃ t, exec (.rxLaneAdapt r lane skew value) s = .next t ∧
      ((t.rxs r).lanes.getD lane (0, 0)) = (if skew then (((s.rxs r).lanes.getD lane (0, 0)).1, value)
        else (value, ((s.rxs r).lanes.getD lane (0, 0)).2)) ∧
      (∀ i, i ≠ lane → (t.rxs r).lanes.getD i (0, 0) = (s.rxs r).lanes.getD i (0, 0)) ∧
      (t.rxs r).adaptAt = some s.now ∧ t = { s with rx := t.rx })

/-- The pins follow what starts and ends, and nothing else changes: GATE falls unless a grant starts at the end, PREP no
sooner than the hold after the last end. A disabled transmitter is not enabled, its policy is Off, its pins are low. The
laser policy's register takes its written value, while an idle transmitter's effective policy stays Off; a missing clock
forces and raises; a release is honoured only after the clock has been present for 1 ms, and is otherwise recorded with
cause 0b01; the third hot poll in a row, or a sign that Table 3.8 names, is a rogue event with its cause: the force is
set, the pins go low, the policy is Off, and it is raised. (Rests on R99, R100, R120, R106 to R111.) -/
def Obligations.TransmitterDrives : Prop :=
  ((∀ (s : State) (tr : Tree), Ready s (pgTX tr) → s.enabled (pgTX tr) = true →
    ∃ t, exec (.txDisable tr) s = .next t ∧ t.enabled (pgTX tr) = false ∧ t.effPolicy tr = 0 ∧
      (s.effPolicy tr ≠ 0 → t.flag (pgTX tr) TX.statusGateDrive = false ∧ t.flag (pgTX tr) TX.statusPrepDrive = false)) ∧
  (∀ (s : State) (tr : Tree), s.startsNext tr = true →
    ∃ t, exec (.txPrepAssert tr) s = .next t ∧ t.flag (pgTX tr) TX.statusPrepDrive = true ∧
      t.flag (pgTX tr) TX.statusGateDrive = s.flag (pgTX tr) TX.statusGateDrive ∧
      (∀ q o, regKey q o ≠ regKey (pgTX tr) 0x04C → t.reg q o = s.reg q o) ∧ t = { s with rf := t.rf }) ∧
  (∀ (s : State) (tr : Tree), s.startsNext tr = true →
    ∃ t, exec (.txGateAssert tr) s = .next t ∧ t.flag (pgTX tr) TX.statusGateDrive = true ∧
      t.flag (pgTX tr) TX.statusPrepDrive = s.flag (pgTX tr) TX.statusPrepDrive ∧
      (∀ q o, regKey q o ≠ regKey (pgTX tr) 0x04C → t.reg q o = s.reg q o) ∧ t = { s with rf := t.rf }) ∧
  (∀ (s : State) (tr : Tree), s.effPolicy tr ≠ 3 → s.grantFollows tr = false →
    ∃ t, exec (.txGateDeassert tr) s = .next t ∧ t.flag (pgTX tr) TX.statusGateDrive = false ∧
      t.flag (pgTX tr) TX.statusPrepDrive = s.flag (pgTX tr) TX.statusPrepDrive ∧
      (∀ q o, regKey q o ≠ regKey (pgTX tr) 0x04C → t.reg q o = s.reg q o) ∧ t = { s with rf := t.rf }) ∧
  (∀ (s : State) (tr : Tree), s.effPolicy tr ≠ 3 → (s.txs tr).burst = none → (s.txs tr).halSlot = none →
    (s.txs tr).lastEnd + s.fld (pgTX tr) TX.prepHoldHold ≤ s.now →
    ∃ t, exec (.txPrepDeassert tr) s = .next t ∧ t.flag (pgTX tr) TX.statusPrepDrive = false ∧
      t.flag (pgTX tr) TX.statusGateDrive = s.flag (pgTX tr) TX.statusGateDrive ∧
      (∀ q o, regKey q o ≠ regKey (pgTX tr) 0x04C → t.reg q o = s.reg q o) ∧ t = { s with rf := t.rf })) ∧
  ((∀ (s : State) (tr : Tree) (v : Word), Ready s (pgTX tr) → s.works (pgTX tr) = false → s.effPolicy tr = 0 →
    (s.txs tr).laneDue = none →
    ∃ t, exec (.txLaserPolicyWrite tr (cmdAccess v)) s = .next t ∧
      t.fld (pgTX tr) TX.laserPolicyPolicy = TX.laserPolicyPolicy.get v ∧ t.effPolicy tr = 0 ∧ t = { s with rf := t.rf }) ∧
  (∀ (s : State) (tr : Tree), (s.txs tr).clockForce = false →
    ∃ t, exec (.txClockMissing tr) s = .next t ∧ (t.txs tr).clockForce = true ∧ t.flag (pgTX tr) TX.statusForcedOff = true ∧
      t.flag (pgTX tr) TX.statusGateDrive = false ∧ t.flag (pgTX tr) TX.statusPrepDrive = false ∧ t.effPolicy tr = 0 ∧
      t.stands pgCLK 6 = true ∧ t.stands (pgTX tr) 0 = true) ∧
  (∀ (s : State) (tr : Tree), Ready s (pgTX tr) →
    (s.flag (pgTX tr) TX.statusClockOk && decide ((s.txs tr).clockOkSince + symPerMs ≤ s.now)) = false →
    ∃ t, exec (.forceRelease tr) s = .next t ∧ t.fld (pgTX tr) HDR.pageCfgStatusIgnoredCause = 1 ∧ t.tx = s.tx ∧
      (∀ q o, o / 4 % 1024 ≠ 4 → regKey q o ≠ regKey (pgTX tr) 0x00C → t.reg q o = s.reg q o)) ∧
  (∀ (s : State) (tr : Tree), Ready s (pgTX tr) → s.works (pgTX tr) = false → s.effPolicy tr = 0 →
    s.flag (pgTX tr) TX.statusClockOk = true → (s.txs tr).clockOkSince + symPerMs ≤ s.now → (s.txs tr).laneDue = none →
    ∃ t, exec (.forceRelease tr) s = .next t ∧ (t.txs tr).clockForce = false ∧
      t.flag (pgTX tr) TX.statusForcedOff = (s.txs tr).rogueForce ∧
      (∀ q o, regKey q o ≠ regKey (pgTX tr) 0x04C → t.reg q o = s.reg q o) ∧ t = { s with rf := t.rf, tx := t.tx }) ∧
  (∀ (s : State) (tr : Tree) (d : Int), s.alive (pgTX tr) = true →
    ∃ t, exec (.roguePowerPoll tr d) s = .next t ∧
      (s.flag (pgTX tr) TX.statusGateDrive = true ∨ d ≤ -300 → (t.txs tr).hotPolls = 0 ∧ t.rf = s.rf) ∧
      (s.flag (pgTX tr) TX.statusGateDrive = false → -300 < d → (s.txs tr).hotPolls < 2 →
        (t.txs tr).hotPolls = (s.txs tr).hotPolls + 1 ∧ t.rf = s.rf) ∧
      (s.flag (pgTX tr) TX.statusGateDrive = false → -300 < d → 2 ≤ (s.txs tr).hotPolls →
        (t.txs tr).rogueForce = true ∧ t.fld (pgTX tr) TX.statusRogueCause = 3 ∧ t.effPolicy tr = 0 ∧
        t.stands (pgTX tr) 1 = true)) ∧
  (∀ (s : State) (tr : Tree) (sign : RogueSign) (cause : Nat), s.alive (pgTX tr) = true →
    s.rogueCause tr sign = some cause →
    ∃ t, exec (.rogueEvent tr sign) s = .next t ∧ (t.txs tr).rogueForce = true ∧
      t.fld (pgTX tr) TX.statusRogueCause = cause ∧ t.flag (pgTX tr) TX.statusForcedOff = true ∧
      t.flag (pgTX tr) TX.statusGateDrive = false ∧ t.flag (pgTX tr) TX.statusPrepDrive = false ∧ t.effPolicy tr = 0 ∧
      t.stands (pgTX tr) 1 = true))

/-- The selected grant that comes first starts on the pins where the policy permits bursts, with both pins driven and the
launch of its profile shown; at its end it is counted with its codewords and pad symbols, what was sent is out, its entry
of the pending table is empty, the windows that have passed are dropped, and the channel, the fine tuning and the lane
order that waited for the time between bursts are in force. (Rests on R95, R99, R102, R103, R202, R253.) (The model's own
choices in it: log entries 96, 104.) -/
def Obligations.BurstsRun : Prop :=
  (∀ (s : State) (tr : Tree) (i : Nat), s.works (pgTX tr) = true → s.burstsAllowed tr = true → s.forced tr = false →
    (s.txs tr).burst = none → s.nextBurst tr = some i →
    ∃ t, exec (.burstStart tr) s = .next t ∧ t.flag (pgTX tr) TX.statusGateDrive = true ∧
      t.flag (pgTX tr) TX.statusPrepDrive = true ∧ t.tf (pgGRT tr) 0 i 3 22 21 = 2 ∧
      t.fld (pgTX tr) TX.launchStatusApplied =
        unsigned 12 (s.appliedLaunch tr (s.contentOf tr i).profile (s.pendT0 tr i)) ∧
      ∃ b, (t.txs tr).burst = some b ∧ b.entry = i ∧ b.t0 = s.pendT0 tr i ∧ b.e = s.pendE tr i ∧
        b.codewords = (s.contentOf tr i).codewords ∧ b.pad = (s.contentOf tr i).pad) ∧
  (∀ (s : State) (tr : Tree) (b : Burst), (s.txs tr).burst = some b →
    ∃ t, exec (.burstEnd tr) s = .next t ∧ (t.txs tr).burst = none ∧ (t.txs tr).lastEnd = b.e ∧
      Emission.burst tr (s.burstImage tr b) ∈ t.out ∧
      t.counter (cuTX tr) = (s.counter (cuTX tr) + 1) % counterMod (cuTX tr) ∧
      t.counter (cuTX tr + 1) = (s.counter (cuTX tr + 1) + b.codewords) % counterMod (cuTX tr + 1) ∧
      t.counter (cuTX tr + 2) = (s.counter (cuTX tr + 2) + b.pad) % counterMod (cuTX tr + 2) ∧
      (∀ k, k < 4 → t.tw (pgGRT tr) 0 b.entry k = 0#32) ∧
      (t.txs tr).channel = s.sfld (pgTX tr) TX.cfgChannel ∧ (t.txs tr).tuneDue = none ∧
      (t.txs tr).fineTune = ((s.txs tr).tuneDue.getD (s.txs tr).fineTune) ∧ (t.txs tr).laneDue = none ∧
      (∀ w ∈ (t.txs tr).windows, t.now ≤ w.2 + 16))

/-- The I2C engine of an OFE takes one transfer at a time, ends it with the data, a nack or a timeout, and raises; an
interrupt pin that is not open shows, and its assertion is raised; a receiver or transmitter at work whose OFE goes away
raises config_invalid, the receiver back in idle, and one whose OFE comes starts. That a transfer naming any CMIS page
runs is the model's choice (log entry 107). (Rests on R116, R117, R119, R121.) -/
def Obligations.OfeManagement : Prop :=
  (∀ (s : State) (o : Ofe) (v : Word), Ready s (pgOFE o) → s.flag (pgOFE o) OFE.i2cStatusBusy = false →
    ∃ t, exec (.ofeI2cGo o v) s = .next t ∧ t.flag (pgOFE o) OFE.i2cStatusBusy = true ∧
      t.flag (pgOFE o) OFE.i2cStatusNack = false ∧ t.flag (pgOFE o) OFE.i2cStatusTimeout = false ∧
      t.fld (pgOFE o) ⟨0x060, 24, 0⟩ = (⟨0x060, 24, 0⟩ : Fld).get v ∧
      (∀ q off, regKey q off ≠ regKey (pgOFE o) 0x060 → regKey q off ≠ regKey (pgOFE o) 0x064 → t.reg q off = s.reg q off) ∧
      t = { s with rf := t.rf }) ∧
  (∀ (s : State) (o : Ofe) (v : Word), Ready s (pgOFE o) → s.flag (pgOFE o) OFE.i2cStatusBusy = true →
    ∃ t, exec (.ofeI2cGo o v) s = .next t ∧ t.fld (pgOFE o) HDR.pageCfgStatusIgnoredCause = 1 ∧
      (∀ q off, off / 4 % 1024 ≠ 4 → regKey q off ≠ regKey (pgOFE o) 0x00C → t.reg q off = s.reg q off)) ∧
  (∀ (s : State) (o : Ofe) (d : Nat), s.alive (pgOFE o) = true → s.flag (pgOFE o) OFE.i2cStatusBusy = true →
    ∃ t, exec (.ofeI2cDone o true d) s = .next t ∧ t.flag (pgOFE o) OFE.i2cStatusBusy = false ∧
      t.flag (pgOFE o) OFE.i2cStatusNack = s.flag (pgOFE o) OFE.i2cStatusNack ∧
      t.fld (pgOFE o) OFE.i2cStatusRdata =
        (if s.flag (pgOFE o) OFE.i2cCmdWrite then s.fld (pgOFE o) OFE.i2cStatusRdata else d % 256) ∧
      (∀ q off, regKey q off ≠ regKey (pgOFE o) 0x064 → t.reg q off = s.reg q off) ∧ t = { s with rf := t.rf }) ∧
  (∀ (s : State) (o : Ofe) (d : Nat), s.alive (pgOFE o) = true → s.flag (pgOFE o) OFE.i2cStatusBusy = true →
    ∃ t, exec (.ofeI2cDone o false d) s = .next t ∧ t.flag (pgOFE o) OFE.i2cStatusBusy = false ∧
      t.flag (pgOFE o) OFE.i2cStatusNack = true ∧ t.stands (pgOFE o) (ofeBits o).2.2 = true ∧
      (∀ q off, off / 4 % 1024 ≠ 4 → regKey q off ≠ regKey (pgOFE o) 0x064 → t.reg q off = s.reg q off)) ∧
  (∀ (s : State) (o : Ofe), s.alive (pgOFE o) = true → s.flag (pgOFE o) OFE.i2cStatusBusy = true →
    ∃ t, exec (.ofeI2cTimeout o) s = .next t ∧ t.flag (pgOFE o) OFE.i2cStatusBusy = false ∧
      t.flag (pgOFE o) OFE.i2cStatusTimeout = true ∧ t.stands (pgOFE o) (ofeBits o).2.2 = true ∧
      (∀ q off, off / 4 % 1024 ≠ 4 → regKey q off ≠ regKey (pgOFE o) 0x064 → t.reg q off = s.reg q off)) ∧
  (∀ (s : State) (o : Ofe) (on : Bool), s.alive (pgOFE o) = true → s.padOpen (6 * ofeIx o + 2) = false →
    ∃ t, exec (.ofeInt o on) s = .next t ∧ t.flag (pgOFE o) OFE.pinsInt = on ∧
      (on = true → t.stands (pgOFE o) (ofeBits o).2.1 = true) ∧
      (∀ q off, off / 4 % 1024 ≠ 4 → regKey q off ≠ regKey (pgOFE o) 0x068 → t.reg q off = s.reg q off)) ∧
  (∀ (s : State) (o : Ofe) (r : Rx), ofeRx o = some r → s.padOpen (6 * ofeIx o + 3) = false →
    s.works (pgRX r) = true → s.rxHeld r = false →
    ∃ t, exec (.ofePresentChange o false) s = .next t ∧ t.flag (pgOFE o) OFE.pinsPresent = false ∧
      t.stands (pgRX r) 9 = true ∧ t.acq r = 0 ∧ (s.locked r = true → t.stands (pgRX r) 3 = true)) ∧
  (∀ (s : State) (o : Ofe) (r : Rx), ofeRx o = some r → s.padOpen (6 * ofeIx o + 3) = false →
    s.works (pgRX r) = true → s.rxHeld r = false → downChannelOk (s.sfld (pgRX r) RX.cfgChannel) = true → s.acq r = 0 →
    ∃ t, exec (.ofePresentChange o true) s = .next t ∧ t.flag (pgOFE o) OFE.pinsPresent = true ∧ t.acq r = 1 ∧
      t.counter (cuRX r + 4) = (s.counter (cuRX r + 4) + 1) % counterMod (cuRX r + 4)) ∧
  (∀ (s : State) (o : Ofe) (tr : Tree), ofeRx o = none → tr = ofeTree o → s.padOpen (6 * ofeIx o + 3) = false →
    s.works (pgTX tr) = true →
    ∃ t, exec (.ofePresentChange o false) s = .next t ∧ t.flag (pgOFE o) OFE.pinsPresent = false ∧
      t.stands (pgTX tr) 6 = true ∧ t.effPolicy tr = 0)

/-- A framer that is enabled on an unlocked receiver declares LOS; a disabled one is not enabled and shows no defect; each
machine moves to PRESYNC and to SYNC on what confirms it, each one that reaches SYNC, each loss and each defect's change
is raised, whatever the line's consequences; a header that agrees is counted and its counter shown; a fragment header
where one is expected is the header of the payload that begins, and one that nothing can correct is a break. Each entry of
a map that the framer delivers takes one of its gm_entries; one that the framer discards is counted and raised at most
once per ms (that gm_error covers it is the model's choice, log entry 102); one for an allocation that the terminal does
not hold is counted; one that it holds enters the pending table. An idle fragment is counted and discarded, a data
fragment's bytes are counted and it comes to the dual-homing unit, a TMC fragment's frame counter is kept with its
message; which row counts a fragment that fits two is the model's choice (log entry 101). (Rests on R129, R139 to R142,
R144, R149, R150, R152, R127, R131 to R138.) (The model's own choices in it: log entries 31, 101, 124.) -/
def Obligations.FramerRuns : Prop :=
  ((∀ (s : State) (r : Rx), Ready s (pgFRM r) → s.enabled (pgFRM r) = false → s.unitContained (pgFRM r) 0 = false →
    s.locked r = false → s.los r = false →
    ∃ t, exec (.frmEnable r) s = .next t ∧ t.enabled (pgFRM r) = true ∧ t.los r = true ∧ t.stands (pgFRM r) 5 = true) ∧
  (∀ (s : State) (r : Rx), Ready s (pgFRM r) → s.enabled (pgFRM r) = true →
    ∃ t, exec (.frmDisable r) s = .next t ∧ t.enabled (pgFRM r) = false ∧ t.reg (pgFRM r) 0x050 = 0#32 ∧
      t.alignSt r = 0 ∧ t.hdrSt r = 0 ∧ t.fragSt r = 0) ∧
  (∀ (s : State) (r : Rx) (bits : List Bool), s.works (pgFRM r) = true → s.locked r = true → s.alignSt r = 0 →
    syndromeWeight (s.rxBits r bits) ≤ (s.alignWeights r).1 →
    ∃ t, exec (.alignCodeword r bits) s = .next t ∧ t.alignSt r = 1) ∧
  (∀ (s : State) (r : Rx) (bits : List Bool), s.works (pgFRM r) = true → s.locked r = true → s.alignSt r = 1 →
    syndromeWeight (s.rxBits r bits) ≤ (s.alignWeights r).1 → s.frmCount r FRM.huntCntAlignConfirm ≤ (s.frms r).alignRun + 1 →
    ∃ t, exec (.alignCodeword r bits) s = .next t ∧ t.alignSt r = 2 ∧ t.stands (pgFRM r) 0 = true) ∧
  (∀ (s : State) (r : Rx), s.works (pgFRM r) = true → s.locked r = true → s.alignSt r = 2 → s.hdrSt r = 0 →
    (frameHdr ((s.frms r).block.take 32)).valid = true →
    ∃ t, exec (.frameHeader r) s = .next t ∧ t.hdrSt r = 1 ∧
      t.frmFc r = (frameHdr ((s.frms r).block.take 32)).counter) ∧
  (∀ (s : State) (r : Rx), s.works (pgFRM r) = true → s.locked r = true → s.alignSt r = 2 → s.hdrSt r = 1 →
    (frameHdr ((s.frms r).block.take 32)).valid = true →
    (frameHdr ((s.frms r).block.take 32)).counter = (s.frms r).predicted →
    s.frmCount r FRM.huntCntHdrConfirm ≤ (s.frms r).hdrRun + 1 →
    ∃ t, exec (.frameHeader r) s = .next t ∧ t.hdrSt r = 2 ∧ t.stands (pgFRM r) 2 = true ∧
      t.counter (cuFRM r) = (s.counter (cuFRM r) + 1) % counterMod (cuFRM r) ∧ t.frmFc r = (s.frms r).predicted) ∧
  (∀ (s : State) (r : Rx) (pos : Nat) (bs : Bytes), s.works (pgFRM r) = true → s.hdrSt r ≠ 0 →
    s.fragHeld r (s.frms r).frameFc = false → s.fragSt r = 2 → pos = (s.frms r).next → hcsOk bs = true →
    ∃ t, exec (.fragmentHeader r pos bs) s = .next t ∧ (t.frms r).cur = some
        { hdr := bs, fc := (s.frms r).frameFc, wrong := (s.frms r).mapWrong, start := (s.frms r).areaAt + pos + 8,
          frameEnd := 2700 * (s.frms r).frameCw + 3240000 } ∧
      (t.frms r).next = pos + 8 + (fragHdr bs).length ∧ t.fragSt r = 2) ∧
  (∀ (s : State) (r : Rx) (pos : Nat) (bs : Bytes), s.works (pgFRM r) = true → s.hdrSt r ≠ 0 →
    s.fragHeld r (s.frms r).frameFc = false → s.fragSt r = 2 → pos = (s.frms r).next → hcsOk bs = false →
    correctHdr bs = none →
    ∃ t, exec (.fragmentHeader r pos bs) s = .next t ∧ t.stands (pgFRM r) 4 = true ∧ t.fragSt r = 0 ∧
      (t.frms r).cur = none ∧
      t.counter (cuFRM r + 10) = (s.counter (cuFRM r + 10) + 1) % counterMod (cuFRM r + 10) ∧
      t.counter (cuFRM r + 15) = (s.counter (cuFRM r + 15) + 1) % counterMod (cuFRM r + 15)) ∧
  (∀ (s : State) (r : Rx), s.works (pgFRM r) = true → s.los r = true → s.locked r = true →
    s.framesPassed (s.rxs r).lockedAt (s.fld (pgFRM r) FRM.defTimeLosClear) = true →
    ∃ t, exec (.losClear r) s = .next t ∧ t.los r = false ∧ t.stands (pgFRM r) 6 = true) ∧
  (∀ (s : State) (r : Rx), s.works (pgFRM r) = true → s.los r = false → s.lof r = false → s.hdrSt r ≠ 2 →
    s.framesPassed (s.frms r).lofFrom (s.fld (pgFRM r) FRM.defTimeLofSet) = true →
    ∃ t, exec (.lofDeclare r) s = .next t ∧ t.lof r = true ∧ t.stands (pgFRM r) 7 = true) ∧
  (∀ (s : State) (r : Rx), s.works (pgFRM r) = true → s.los r = false → s.lof r = true → s.hdrSt r = 2 →
    s.framesPassed (s.frms r).syncAt (s.fld (pgFRM r) FRM.defTimeLofClear) = true →
    ∃ t, exec (.lofClear r) s = .next t ∧ t.lof r = false ∧ t.stands (pgFRM r) 8 = true) ∧
  (∀ (s : State) (r : Rx), s.frmDelivers r = true → s.mode (rxTree r) ≠ 5 → (s.frms r).winOpen = true →
    (s.frms r).frameFc % s.windowFrames r = 0 →
    s.flag (pgFRM r) FRM.defectSd = false → (s.frms r).thr.1 = 0 → s.frmCount r FRM.defCfgSdSetWin ≤ (s.frms r).sdSetRun + 1 →
    ∃ t, exec (.defectWindowEnd r) s = .next t ∧ t.flag (pgFRM r) FRM.defectSd = true ∧ t.stands (pgFRM r) 9 = true) ∧
  (∀ (s : State) (r : Rx), s.frmDelivers r = true → s.mode (rxTree r) ≠ 5 → (s.frms r).winOpen = false →
    (s.frms r).frameFc % s.windowFrames r = 0 →
    ∃ t, exec (.defectWindowEnd r) s = .next t ∧ (t.frms r).winOpen = true ∧ (t.frms r).winCw = 0 ∧
      (t.frms r).thr = (s.fld (pgFRM r) FRM.sdSetSdSet, s.fld (pgFRM r) FRM.sdClearSdClear,
        s.fld (pgFRM r) FRM.sfSetSfSet, s.fld (pgFRM r) FRM.sfClearSfClear))) ∧
  ((∀ (s : State) (r : Rx) (bs : Bytes), s.frmDelivers r = true → (s.frms r).mapOk = true → (s.frms r).entriesLeft ≠ 0 →
    (grantEntry bs).accepted = false →
    ∃ t, exec (.grantEntry r bs) s = .next t ∧ (t.frms r).entriesLeft + 1 = (s.frms r).entriesLeft ∧
      t.counter (cuFRM r + 5) = (s.counter (cuFRM r + 5) + 1) % counterMod (cuFRM r + 5) ∧
      (s.mayRaise (pgFRM r) 16 = true → t.stands (pgFRM r) 16 = true) ∧ t.grt = s.grt ∧ t.tx = s.tx) ∧
  (∀ (s : State) (r : Rx) (bs : Bytes), s.frmDelivers r = true → (s.frms r).mapOk = true → (s.frms r).entriesLeft ≠ 0 →
    (grantEntry bs).accepted = true →
    s.works (pgGRT (rxTree r)) = true → s.localIndex (rxTree r) (grantEntry bs).alloc = none →
    ∃ t, exec (.grantEntry r bs) s = .next t ∧ (t.frms r).entriesLeft + 1 = (s.frms r).entriesLeft ∧
      t.counter (cuFRM r + 4) = (s.counter (cuFRM r + 4) + 1) % counterMod (cuFRM r + 4) ∧
      t.counter (cuGRT (rxTree r)) = (s.counter (cuGRT (rxTree r)) + 1) % counterMod (cuGRT (rxTree r)) ∧
      t.counter (cuGRT (rxTree r) + 1) = (s.counter (cuGRT (rxTree r) + 1) + 1) % counterMod (cuGRT (rxTree r) + 1) ∧
      t.tables = s.tables ∧ t.grt = s.grt ∧ t.tx = s.tx) ∧
  (∀ (s : State) (r : Rx) (bs : Bytes) (a : Nat), s.frmDelivers r = true → (s.frms r).mapOk = true →
    (s.frms r).entriesLeft ≠ 0 →
    (grantEntry bs).accepted = true → s.works (pgGRT (rxTree r)) = true →
    s.localIndex (rxTree r) (grantEntry bs).alloc = some a → s.grantUsed (rxTree r) a = true →
    s.overlapsPending (rxTree r) (grantSpan (s.frms r).tF (s.eqdFor (rxTree r) (s.frms r).frameFc) (grantEntry bs).start
      (grantEntry bs).length) = false →
    (∃ k, k < 1024 ∧ s.pendValid (rxTree r) k = false) → (s.hals (rxTree r)).jobs = [] →
    ∃ t i, exec (.grantEntry r bs) s = .next t ∧ i < 1024 ∧ s.pendValid (rxTree r) i = false ∧
      t.tw (pgGRT (rxTree r)) 0 i 1 = BitVec.ofNat 32 (s.frms r).frameFc ∧
      t.tw (pgGRT (rxTree r)) 0 i 2 = BitVec.ofNat 32 (grantEntry bs).start ∧
      (t.pendT0 (rxTree r) i, t.pendE (rxTree r) i) =
        grantSpan (s.frms r).tF (s.eqdFor (rxTree r) (s.frms r).frameFc) (grantEntry bs).start (grantEntry bs).length) ∧
  (∀ (s : State) (r : Rx) (c : FragCur) (pl : Bytes), s.frmDelivers r = true → s.fragSt r = 2 →
    (s.frms r).cur = some c → (fragHdr c.hdr).kind = 0 →
    ∃ t, exec (.fragmentReceive r pl) s = .next t ∧
      t.counter (cuFRM r + 9) = (s.counter (cuFRM r + 9) + 1) % counterMod (cuFRM r + 9) ∧
      (t.frms r).cur = none ∧ t = { s with cnt := t.cnt, frm := t.frm }) ∧
  (∀ (s : State) (r : Rx) (c : FragCur) (pl : Bytes), s.frmDelivers r = true → s.fragSt r = 2 →
    (s.frms r).cur = some c → (fragHdr c.hdr).kind = 1 → (fragHdr c.hdr).length ≠ 0 →
    (s.frms r).payloadBad c (fragHdr c.hdr).length = true →
    ∃ t, exec (.fragmentReceive r pl) s = .next t ∧
      t.counter (cuFRM r + 12) = (s.counter (cuFRM r + 12) + 1) % counterMod (cuFRM r + 12) ∧
      (t.frms r).cur = none ∧ t = { s with cnt := t.cnt, frm := t.frm }) ∧
  (∀ (s : State) (r : Rx) (c : FragCur) (pl : Bytes), s.frmDelivers r = true → s.fragSt r = 2 →
    (s.frms r).cur = some c → (fragHdr c.hdr).kind = 1 → (fragHdr c.hdr).length ≠ 0 →
    (s.frms r).payloadBad c (fragHdr c.hdr).length = false →
    ∃ t, exec (.fragmentReceive r pl) s = .next t ∧
      t.counter (cuFRM r + 7) = (s.counter (cuFRM r + 7) + 1) % counterMod (cuFRM r + 7) ∧
      t.counter (cuFRM r + 14) = (s.counter (cuFRM r + 14) + (fragHdr c.hdr).length) % counterMod (cuFRM r + 14) ∧
      (t.frms r).cur = none ∧ ∃ cells, t.dual.inbox = s.dual.inbox ++
        [{ r := r, fc := c.fc, hdr := c.hdr, payload := pl.take (fragHdr c.hdr).length, cells := cells }]) ∧
  (∀ (s : State) (r : Rx) (c : FragCur) (pl : Bytes), s.frmDelivers r = true → s.fragSt r = 2 →
    (s.frms r).cur = some c → (fragHdr c.hdr).kind = 2 → (fragHdr c.hdr).last = true →
    1 ≤ (fragHdr c.hdr).length → (fragHdr c.hdr).length ≤ 2048 → s.flag (pgFRM r) FRM.stateControl = true →
    c.wrong = false → (s.frms r).payloadBad c (fragHdr c.hdr).length = false →
    ∃ t, exec (.fragmentReceive r pl) s = .next t ∧
      t.counter (cuFRM r + 8) = (s.counter (cuFRM r + 8) + 1) % counterMod (cuFRM r + 8) ∧
      (t.frms r).cur = none ∧ (t.acts (rxTree r)).tmcFc = c.fc % 2 ^ 32 ∧
      (t.acts (rxTree r)).inbox = (s.acts (rxTree r)).inbox ++
        (if s.tmcRoom (rxTree r) (fragHdr c.hdr).length then [(c.fc % 2 ^ 32, pl.take (fragHdr c.hdr).length)] else [])))

/-- The end of a superframe adds its counts to the bins in which it began and starts them again; an edge closes every
current bin, makes the next slot current with the next sequence, and raises; a final bin is no longer open; a disabled
page is not enabled and every current bin is partial. (Rests on R155 to R157, R159.) (The model's own choices in it: log
entry 30.) -/
def Obligations.PerformanceBins : Prop :=
  (∀ (s : State) (r : Rx), s.alive pgPM = true →
    ∃ t, exec (.pmSecond r) s = .next t ∧ (t.frm.get r).secCw = 0 ∧ (t.frm.get r).secCorr = 0 ∧ (t.frm.get r).secUnc = 0 ∧
      (t.frm.get r).secHdr = 0 ∧ (t.frm.get r).secOff = !s.enabled (pgFRM r)) ∧
  (∀ (s : State) (r : Rx), s.works pgPM = true → (s.pm.began.get r).1 < 33 → (s.pm.began.get r).2 < 2 →
    ∃ t, exec (.pmSecond r) s = .next t ∧
      t.pmGet64 0 (pmEntry r false (s.pm.began.get r).1) 3 =
        (s.pmGet64 0 (pmEntry r false (s.pm.began.get r).1) 3 + (s.frm.get r).secCw) % 2 ^ 64 ∧
      t.pmGet64 1 (pmEntry r true (s.pm.began.get r).2) 7 =
        (s.pmGet64 1 (pmEntry r true (s.pm.began.get r).2) 7 + (s.frm.get r).secUnc) % 2 ^ 64) ∧
  (∀ (s : State) (day : Bool), s.alive pgPM = true → s.timeValid = true → s.pmDue day ≠ 0 →
    ∃ t, exec (.pmBinEdge day) s = .next t ∧ t.pmSlot day = (s.pmSlot day + 1) % pmSlots day ∧
      t.pmSeq day = (s.pmSeq day + 1) % 65536 ∧ t.stands pgPM (b2n day) = true ∧
      (s.pmSlot day < pmSlots day → ∀ r, t.tb pgPM (pmTab day) (pmEntry r day (s.pmSlot day)) 0 3 = true)) ∧
  (∀ (s : State) (r : Rx) (day : Bool) (slot : Nat), s.alive pgPM = true → slot < pmSlots day → slot ≠ s.pmSlot day →
    ∃ t, exec (.pmBinFinal r day slot) s = .next t ∧ t.tb pgPM (pmTab day) (pmEntry r day slot) 0 3 = false ∧
      (∀ p i e w, tblKey p i e w ≠ tblKey pgPM (pmTab day) (pmEntry r day slot) 0 → t.tw p i e w = s.tw p i e w) ∧
      t = { s with tables := t.tables }) ∧
  (∀ s : State, Ready s pgPM → s.enabled pgPM = true →
    ∃ t, exec .pmDisable s = .next t ∧ t.enabled pgPM = false ∧
      (∀ r day, t.tb pgPM (pmTab day) (pmEntry r day (s.pmSlot day)) 0 2 = true) ∧
      (∀ q o, o / 4 % 1024 ≠ 4 → regKey q o ≠ regKey pgPM 0x008 → t.reg q o = s.reg q o))

/-- Reception step by step: a preamble freezes the AGC, the sync places the frame, a bad header or a miss gives it up, and
a checked frame that is addressed here is stored in the receive ring. (Rests on R166, R168, R170 to R175.) -/
def Obligations.HalyardReceives : Prop :=
  (∀ (s : State) (tr : Tree) (gain : Nat), s.halWorks tr = true → s.flag (pgHAL tr) HAL.statusRxActive = true →
    s.flag (pgHAL tr) HAL.statusAgcFrozen = false →
    ∃ t, exec (.halPreambleDetect tr gain) s = .next t ∧ t.flag (pgHAL tr) HAL.statusAgcFrozen = true ∧
      t.fld (pgHAL tr) HAL.statusAgcGain = gain % 256 ∧ (t.hals tr).rx = some {} ∧
      t.counter (cuHAL tr) = (s.counter (cuHAL tr) + 1) % counterMod (cuHAL tr) ∧
      (∀ q o, regKey q o ≠ regKey (pgHAL tr) 0x040 → t.reg q o = s.reg q o)) ∧
  (∀ (s : State) (tr : Tree) (x : HalRx) (fc ofs : Nat), (s.hals tr).rx = some x →
    ∃ t, exec (.halSyncFound tr fc ofs) s = .next t ∧ (t.hals tr).rx = some { fc := fc, ofs := ofs } ∧
      t = { s with hal := t.hal }) ∧
  (∀ (s : State) (tr : Tree) (x : HalRx), (s.hals tr).rx = some x →
    ∃ t, exec (.halSyncMiss tr) s = .next t ∧ (t.hals tr).rx = none ∧ t.flag (pgHAL tr) HAL.statusAgcFrozen = false ∧
      t.counter (cuHAL tr + 1) = (s.counter (cuHAL tr + 1) + 1) % counterMod (cuHAL tr + 1) ∧
      (∀ q o, regKey q o ≠ regKey (pgHAL tr) 0x040 → t.reg q o = s.reg q o)) ∧
  (∀ (s : State) (tr : Tree) (x : HalRx) (syms : List Nat), (s.hals tr).rx = some x →
    ∃ t, exec (.halHeader tr syms) s = .next t ∧
      (∀ h, halHeader (symsBytes syms) = some h → (t.hals tr).rx = some { x with header := some h } ∧ t = { s with hal := t.hal }) ∧
      (halHeader (symsBytes syms) = none → (t.hals tr).rx = none ∧ t.flag (pgHAL tr) HAL.statusAgcFrozen = false ∧
        t.counter (cuHAL tr + 1) = (s.counter (cuHAL tr + 1) + 1) % counterMod (cuHAL tr + 1))) ∧
  (∀ (s : State) (tr : Tree) (syms : List Nat) (bs : Bytes) (level fc ofs kind plen : Nat), bs = symsBytes syms →
    (s.hals tr).rx = some { fc := fc, ofs := ofs, header := some (kind, plen) } →
    ∃ t, exec (.halFrameEnd tr syms level) s = .next t ∧ (t.hals tr).rx = none ∧
      (fieldAt bs (3 + plen * 3 / 2) 2 ≠ crc16 (bs.take (3 + plen * 3 / 2)) →
        t.counter (cuHAL tr + 2) = (s.counter (cuHAL tr + 2) + 1) % counterMod (cuHAL tr + 2) ∧
        (s.mayRaise (pgHAL tr) 3 = true → t.stands (pgHAL tr) 3 = true)) ∧
      (fieldAt bs (3 + plen * 3 / 2) 2 = crc16 (bs.take (3 + plen * 3 / 2)) → halDownOk kind plen = true →
        s.halAddressed tr kind ((bs.drop 3).take (plen * 3 / 2)) = true →
        (s.fld (pgHAL tr) HAL.rxPtrWr + 16 - s.fld (pgHAL tr) HAL.rxPtrRd) % 16 < 8 →
        t.flag (pgHAL tr) HAL.statusRxSync = true ∧ t.stands (pgHAL tr) 0 = true ∧
        t.fld (pgHAL tr) HAL.rxPtrWr = (s.fld (pgHAL tr) HAL.rxPtrWr + 1) % 16 ∧
        t.tw (pgHAL tr) 1 (s.fld (pgHAL tr) HAL.rxPtrWr % 8) 1 = BitVec.ofNat 32 fc)) ∧
  (∀ (s : State) (tr : Tree), s.flag (pgHAL tr) HAL.statusAgcFrozen = true →
    ∃ t, exec (.halAgcTimeout tr) s = .next t ∧ t.flag (pgHAL tr) HAL.statusAgcFrozen = false ∧ (t.hals tr).rx = none ∧
      t.counter (cuHAL tr + 11) = (s.counter (cuHAL tr + 11) + 1) % counterMod (cuHAL tr + 11) ∧
      (∀ q o, regKey q o ≠ regKey (pgHAL tr) 0x040 → t.reg q o = s.reg q o)) ∧
  (∀ (s : State) (tr : Tree),
    ∃ t, exec (.halRxActiveLost tr) s = .next t ∧
      (s.halWorks tr = true → ∀ r, s.halSource tr = some r → t.flag (pgHAL tr) HAL.statusRxActive = true ∧
        t.fld (pgHAL tr) HAL.statusRxSource = rxIx r % 2) ∧
      (s.halWorks tr = false ∨ s.halSource tr = none → t.flag (pgHAL tr) HAL.statusRxActive = false)) ∧
  (∀ (s : State) (tr : Tree), s.halWorks tr = true → s.flag (pgHAL tr) HAL.statusRxSync = true →
    ∃ t, exec (.halRxSyncTimeout tr) s = .next t ∧ t.flag (pgHAL tr) HAL.statusRxSync = false ∧
      t.stands (pgHAL tr) 2 = true)

/-- With the firmware running, an inviting BEACON takes a Listening tree that may hail to Hailing, and raises the mode
change; an addressed RANGE_REQUEST is noted in Hailing; an addressed WAKE is noted in Parked, and the next frame of the
tree's control receiver takes the tree to Operational, raised; an addressed NOTICE_ACK ends its notice. A slot's life:
submitted, cancelled, committed, started and ended, with the state and result it shows; a frame sent whole is out with the
chirps of its header, payload and check; a disabled unit is not enabled, and holds no job. (Rests on R202, R211, R213,
R176 to R187.) (The model's own choices in it: log entries 53, 59, 140.) -/
def Obligations.HalyardMessagesRun : Prop :=
  ((∀ (s : State) (tr : Tree) (pl : Bytes), s.actWorks tr = true → byteAt pl 12 / 128 = 1 → s.mode tr = 1 →
    s.flag (pgACT tr) ACT.cfgAutoHail = true → s.registered tr = false → s.firmware = true → clocked s tr = true →
    ∃ t, exec (.beacon tr pl) s = .next t ∧ t.mode tr = 2 ∧ t.stands (pgACT tr) 0 = true ∧
      (t.acts tr).beaconSf = some (s.treeSuperframe tr)) ∧
  (∀ (s : State) (tr : Tree) (pl : Bytes), s.actWorks tr = true → s.mode tr = 2 → s.halAddressed tr 2 pl = true →
    ∃ t, exec (.rangeRequest tr pl) s = .next t ∧ (t.acts tr).ranged = true ∧ t.mode tr = 2) ∧
  (∀ (s : State) (tr : Tree) (pl : Bytes), s.actWorks tr = true → s.mode tr = 5 → s.halAddressed tr 3 pl = true →
    ∃ t, exec (.wake tr pl) s = .next t ∧ (t.acts tr).wakeDue = true ∧ t.mode tr = 5) ∧
  (∀ (s : State) (tr : Tree) (r : Rx), s.works (pgFRM r) = true → s.locked r = true → s.alignSt r = 2 →
    tr = rxTree r → s.firmware = true → clocked s tr = true → (s.acts tr).wakeDue = true → s.mode tr = 5 → s.controlRx tr = some r → s.hdrSync r = true →
    (frameHdr ((s.frms r).block.take 32)).valid = true →
    ∃ t, exec (.frameHeader r) s = .next t ∧ t.mode tr = 4 ∧ t.stands (pgACT tr) 0 = true ∧ t.stands (pgACT tr) 11 = true) ∧
  (∀ (s : State) (tr : Tree) (pl : Bytes), s.actWorks tr = true → s.halAddressed tr 4 pl = true →
    (s.acts tr).notices.any (fun n => n.id == fieldAt pl 2 2 && !n.acked) = true →
    ∃ t, exec (.noticeAck tr pl) s = .next t ∧ t.stands (pgACT tr) 16 = true ∧
      ∀ n ∈ (t.acts tr).notices, n.id = fieldAt pl 2 2 → n.acked = true)) ∧
  ((∀ (s : State) (tr : Tree) (k : Nat), Ready s (pgHAL tr) → k < 4 → s.fld (pgHAL tr) (halStateFld k) ≠ 1 →
    s.fld (pgHAL tr) (halStateFld k) ≠ 2 →
    ∃ t, exec (.halSubmit tr k) s = .next t ∧
      (s.halWorks tr = false → t.fld (pgHAL tr) (halStateFld k) = 3 ∧ t.fld (pgHAL tr) (halResultFld k) = 2) ∧
      (s.halWorks tr = true → bitsOf (s.tw (pgHAL tr) 0 k 0).toNat 15 14 = 0 → bitsOf (s.tw (pgHAL tr) 0 k 0).toNat 5 0 ≠ 0x23 →
        s.halyardAllowed tr = true → s.forced tr = false →
        t.fld (pgHAL tr) (halStateFld k) = 1 ∧
        ∃ j, (t.hals tr).jobs = (s.hals tr).jobs ++ [j] ∧ j.slot = k ∧ j.kind = bitsOf (s.tw (pgHAL tr) 0 k 0).toNat 5 0 ∧
          j.plen = bitsOf (s.tw (pgHAL tr) 0 k 0).toNat 11 6 ∧
          j.priority = bitsOf (s.tw (pgHAL tr) 0 k 0).toNat 13 12 ∧ j.start = none)) ∧
  (∀ (s : State) (tr : Tree) (k : Nat) (j : HalJob), Ready s (pgHAL tr) → k < 4 → s.halJob tr k = some j → j.onPins = false →
    ∃ t, exec (.halCancel tr k) s = .next t ∧ t.fld (pgHAL tr) (halStateFld k) = 3 ∧
      t.fld (pgHAL tr) (halResultFld k) = 2 ∧ t.halJob tr k = none ∧
      (∀ q o, regKey q o ≠ regKey (pgHAL tr) 0x04C → t.reg q o = s.reg q o)) ∧
  (∀ (s : State) (tr : Tree) (k : Nat) (j : HalJob), s.halWorks tr = true → s.halJob tr k = some j → j.start = none →
    j.onPins = false → j.ref = none → s.halClear tr k (s.halSpan tr (1000 * (s.now + 256 + s.prepLead tr)) j.plen) = true →
    s.halTurn tr j = true →
    ∃ t, exec (.halCommit tr k) s = .next t ∧
      (∀ i ∈ (t.hals tr).jobs, i.slot = k → i.start = some (1000 * (s.now + 256 + s.prepLead tr))) ∧
      (t.txs tr).windows.length = (s.txs tr).windows.length + 1 ∧ t = { s with hal := t.hal, tx := t.tx }) ∧
  (∀ (s : State) (tr : Tree) (k p : Nat) (j : HalJob), k < 4 → s.halJob tr k = some j → j.start = some p → j.onPins = false →
    s.halyardAllowed tr = true → s.forced tr = false →
    ∃ t, exec (.halTxStart tr k) s = .next t ∧ t.fld (pgHAL tr) (halStateFld k) = 2 ∧
      t.flag (pgHAL tr) HAL.statusTxOn = true ∧ (t.txs tr).halSlot = some k ∧
      t.flag (pgTX tr) TX.statusPrepDrive = true ∧ t.flag (pgTX tr) TX.statusGateDrive = true ∧
      t = { s with rf := t.rf, hal := t.hal, tx := t.tx }) ∧
  (∀ (s : State) (tr : Tree) (k : Nat) (j : HalJob), k < 4 → s.halJob tr k = some j → j.onPins = true → j.cut = none →
    j.kind ≠ 0x23 →
    ∃ t, exec (.halTxEnd tr k) s = .next t ∧ t.fld (pgHAL tr) (halStateFld k) = 3 ∧ t.fld (pgHAL tr) (halResultFld k) = 0 ∧
      t.stands (pgHAL tr) 7 = true ∧ (t.txs tr).halSlot = none ∧ t.flag (pgHAL tr) HAL.statusTxOn = false ∧
      Emission.halyard tr j.chirps (s.fld (pgTX tr) TX.laneFixOrder) (s.fld (pgTX tr) TX.laneFixSigns) ∈ t.out ∧
      t.counter (cuHAL tr + 7) = (s.counter (cuHAL tr + 7) + 1) % counterMod (cuHAL tr + 7)) ∧
  (∀ (s : State) (tr : Tree), Ready s (pgHAL tr) → s.enabled (pgHAL tr) = true →
    ∃ t, exec (.halDisable tr) s = .next t ∧ t.enabled (pgHAL tr) = false ∧ (t.hals tr).jobs = [] ∧ (t.hals tr).rx = none ∧
      t.flag (pgHAL tr) HAL.statusRxActive = false))

/-- Each of these commands takes a tree to the mode that Table 6.2 gives and raises mode_change, those that firmware makes
while it runs; a write that Table 6.2 does not permit changes no mode, counts and raises, as a release that R217 refuses;
a disabled page is not enabled and its tree is Dark. A warm return on another head end or tree is refused and raised, and
one whose identifiers, counter and serials fit is accepted and raised; a window that expires shows result 5 on a tree that
is not registered; a pending EqD applies and is raised. (Rests on R192, R193, R211, R217, R218, R203, R209, R210.) (The
model's own choices in it: log entries 53, 140.) -/
def Obligations.TreesChangeMode : Prop :=
  ((∀ (s : State) (tr : Tree), Ready s (pgACT tr) → s.enabled (pgACT tr) = true →
    ∃ t, exec (.actDisable tr) s = .next t ∧ t.enabled (pgACT tr) = false ∧ t.mode tr = 0) ∧
  (∀ (s : State) (tr : Tree), s.actWorks tr = true → s.mode tr = 0 → s.controlSync tr = true →
    s.flag (pgHAL tr) HAL.statusRxSync = true → s.flag (pgACT tr) ACT.statusShed = false →
    s.flag (pgACT tr) ACT.statusWarmPending = false → clocked s tr = true →
    ∃ t, exec (.listeningEntry tr) s = .next t ∧ t.mode tr = 1 ∧ t.stands (pgACT tr) 0 = true) ∧
  (∀ (s : State) (tr : Tree) (v : Word), Ready s (pgACT tr) → clocked s tr = true → ACT.modeMode.get v ≠ s.mode tr →
    ∃ t, exec (.actModeWrite tr (cmdAccess v)) s = .next t ∧
      (modeWriteOk (s.mode tr) (ACT.modeMode.get v) = true → t.mode tr = ACT.modeMode.get v ∧ t.stands (pgACT tr) 0 = true) ∧
      (modeWriteOk (s.mode tr) (ACT.modeMode.get v) = false → t.stands (pgACT tr) 18 = true ∧ t.mode tr = s.mode tr ∧
        t.counter (cuACT tr + 18) = (s.counter (cuACT tr + 18) + 1) % counterMod (cuACT tr + 18) ∧
        (∀ q o, o / 4 % 1024 ≠ 4 → t.reg q o = s.reg q o))) ∧
  (∀ (s : State) (tr : Tree), Ready s (pgACT tr) → s.mode tr ≠ 7 ∨ s.fld (pgACT tr) ACT.quarCause = 1 →
    ∃ t, exec (.releaseQuarantine tr) s = .next t ∧ t.stands (pgACT tr) 19 = true ∧ t.mode tr = s.mode tr ∧
      t.counter (cuACT tr + 18) = (s.counter (cuACT tr + 18) + 1) % counterMod (cuACT tr + 18) ∧
      (∀ q o, o / 4 % 1024 ≠ 4 → t.reg q o = s.reg q o)) ∧
  (∀ (s : State) (tr : Tree), Ready s (pgACT tr) → s.mode tr = 7 → s.fld (pgACT tr) ACT.quarCause ≠ 1 →
    s.registered tr = false → s.works (pgTX tr) = false → s.effPolicy tr = 0 → s.firmware = true →
    ∃ t, exec (.releaseQuarantine tr) s = .next t ∧ t.mode tr ≠ 7 ∧ t.stands (pgACT tr) 7 = true ∧
      t.stands (pgACT tr) 0 = true) ∧
  (∀ (s : State) (tr : Tree), Ready s (pgACT tr) → clocked s tr = true → registeredMode (s.mode tr) = true → s.firmware = true →
    ∃ t, exec (.actDeactivateCmd tr) s = .next t ∧ t.mode tr = 1 ∧ t.stands (pgACT tr) 0 = true) ∧
  (∀ (s : State) (tr : Tree), s.actWorks tr = true → s.mode tr = 2 → s.firmware = true → clocked s tr = true →
    ∃ t, exec (.hailTimeout tr) s = .next t ∧ t.mode tr = 1 ∧ t.stands (pgACT tr) 0 = true) ∧
  (∀ (s : State) (tr : Tree), s.actWorks tr = true → s.mode tr = 3 → s.firmware = true → clocked s tr = true →
    ∃ t, exec (.rangeTimeout tr) s = .next t ∧ t.mode tr = 1 ∧ t.stands (pgACT tr) 0 = true) ∧
  (∀ (s : State) (tr : Tree), s.actWorks tr = true → s.mode tr = 5 → s.fld (pgACT tr) ACT.parkMaxMaxPark ≠ 0 →
    s.firmware = true → clocked s tr = true →
    ∃ t, exec (.maxParkExpire tr) s = .next t ∧ t.mode tr = 4 ∧ t.stands (pgACT tr) 0 = true ∧ t.stands (pgACT tr) 11 = true)) ∧
  ((∀ (s : State) (tr : Tree) (r : Rx) (c e : Nat) (sn : List (Option (Bytes × Bytes))), s.actWorks tr = true →
    s.mode tr = 0 → s.flag (pgACT tr) ACT.statusWarmPending = true → s.controlRx tr = some r → s.hdrSync r = true →
    s.firmware = true →
    ∃ t, exec (.warmReturn tr c e sn) s = .next t ∧
      (s.frmHeId r ≠ s.recordHe tr ∨ s.frmTreeId r ≠ s.recordTree tr → t.stands (pgACT tr) 5 = true ∧
        t.fld (pgACT tr) ACT.warmResult = 2) ∧
      (s.frmHeId r = s.recordHe tr → s.frmTreeId r = s.recordTree tr → s.warmDeviation tr c e = 0 → sn = [] → clocked s tr = true →
        t.stands (pgACT tr) 4 = true ∧ t.fld (pgACT tr) ACT.warmResult = 1 ∧ t.mode tr = 3)) ∧
  (∀ (s : State) (tr : Tree), s.flag (pgACT tr) ACT.statusWarmPending = true →
    ∃ t, exec (.warmWindowExpire tr) s = .next t ∧
      (s.registered tr = true → t.stands (pgACT tr) 3 = true) ∧
      (s.registered tr = false → t.fld (pgACT tr) ACT.warmResult = 5 ∧
        t.counter (cuACT tr + 5) = (s.counter (cuACT tr + 5) + 1) % counterMod (cuACT tr + 5))) ∧
  (∀ (s : State) (tr : Tree), s.flag (pgACT tr) ACT.eqdPendingPending = true →
    ∃ t, exec (.eqdApply tr) s = .next t ∧ t.stands (pgACT tr) 12 = true ∧
      (s.mode tr ≠ 3 → t.fld (pgACT tr) ACT.eqdEqd = s.fld (pgACT tr) ACT.eqdPendingEqd ∧
        t.flag (pgACT tr) ACT.eqdPendingPending = false)))

/-- A notice that has waited for a burst long enough waits no more; an unacknowledged notice is tried again and its
retries counted; a response that has waited too long leaves the send queue and is counted. (Rests on R198, R213.) -/
def Obligations.NoticesAndResponses : Prop :=
  (∀ (s : State) (tr : Tree) (n : Notice), s.noticeOk tr = true → (s.acts tr).notices = [n] → n.waiting = true →
    n.acked = false → n.held = false →
    ∃ t, exec (.gaspWaitExpire tr) s = .next t ∧ (t.acts tr).notices = [{ n with waiting := false }]) ∧
  (∀ (s : State) (tr : Tree) (n : Notice), s.noticeOk tr = true → (s.acts tr).notices = [n] → n.acked = false →
    n.held = false → n.cause ≠ 1 → n.retries < s.fld (pgACT tr) ACT.timerCNoticeRetries →
    ∃ t, exec (.noticeRetry tr) s = .next t ∧
      (t.acts tr).notices = [{ n with retries := n.retries + 1, waiting := true, held := false }]) ∧
  (∀ (s : State) (tr : Tree) (e : Nat), s.tmcState tr e = 1 → s.tmcClass tr e = 2 →
    ∃ t, exec (.tmcResponseExpire tr e) s = .next t ∧ t.tmcState tr e = 0 ∧
      t.counter (cuACT tr + 12) = (s.counter (cuACT tr + 12) + 1) % counterMod (cuACT tr + 12))

/-- What each request of joining, ranging, modes, tenants and allocations does when the tree carries it out; each mode
change, registration and refusal is raised. (Rests on R192, R202, R203, R205 to R208, R211, R217, R271.) (The model's own
choices in it: log entry 103.) -/
def Obligations.TmcRequestsRun : Prop :=
  (∀ (s : State) (tr : Tree) (m : TmcIn) (a : Nat), TmcRuns s tr m 0x01 → clocked s tr = true → s.localFree = some a → s.kstActive.isSome = true →
    fieldAt (tmcMsg m.bytes).body 0 8 = s.serial tr → fieldAt (tmcMsg m.bytes).body 12 4 ≤ eqdMax →
    ∃ t, exec (.register tr m) s = .next t ∧ t.mode tr = 3 ∧ t.registered tr = true ∧ t.eqdBusy tr = true ∧
      t.fld (pgHAL tr) HAL.termTerminalId = fieldAt (tmcMsg m.bytes).body 8 2 ∧
      t.fld (pgACT tr) ACT.eqdPendingEqd = fieldAt (tmcMsg m.bytes).body 12 4 ∧
      t.allocId tr a = fieldAt (tmcMsg m.bytes).body 10 2 ∧ t.allocMgmt tr a = true ∧
      t.counter (cuACT tr + 3) = (s.counter (cuACT tr + 3) + 1) % counterMod (cuACT tr + 3) ∧
      t.stands (pgACT tr) 2 = true ∧ t.stands (pgACT tr) 0 = true) ∧
  (∀ (s : State) (tr : Tree) (m : TmcIn), TmcRuns s tr m 0x02 → s.eqdBusy tr = false →
    fieldAt (tmcMsg m.bytes).body 0 4 ≤ eqdMax →
    ∃ t, exec (.rangeConfirm tr m) s = .next t ∧ (t.acts tr).confirmed = true ∧ t.eqdBusy tr = true ∧
      t.fld (pgACT tr) ACT.eqdPendingEqd = fieldAt (tmcMsg m.bytes).body 0 4 ∧
      t.reg (pgTX tr) 0x054 = BitVec.ofNat 32 (fieldAt (tmcMsg m.bytes).body 8 4)) ∧
  (∀ (s : State) (tr : Tree) (m : TmcIn), TmcRuns s tr m 0x03 → s.eqdBusy tr = false →
    fieldAt (tmcMsg m.bytes).body 0 4 ≤ eqdMax → fieldAt (tmcMsg m.bytes).body 12 2 = 0x7FFF →
    ∃ t, exec (.adjust tr m) s = .next t ∧ t.eqdBusy tr = true ∧
      t.fld (pgACT tr) ACT.eqdPendingEqd = fieldAt (tmcMsg m.bytes).body 0 4 ∧
      t.reg (pgTX tr) 0x054 = BitVec.ofNat 32 (fieldAt (tmcMsg m.bytes).body 8 4) ∧
      t.reg (pgTX tr) 0x040 = s.reg (pgTX tr) 0x040) ∧
  (∀ (s : State) (tr : Tree) (m : TmcIn), TmcRuns s tr m 0x04 → clocked s tr = true →
    ∃ t, exec (.deactivate tr m) s = .next t ∧ t.mode tr = 1 ∧ (s.mode tr ≠ 1 → t.stands (pgACT tr) 0 = true)) ∧
  (∀ (s : State) (tr : Tree) (m : TmcIn), TmcRuns s tr m 0x05 → fieldAt (tmcMsg m.bytes).body 0 8 = s.serial tr →
    ∃ t, exec (.disable tr m) s = .next t ∧ t.mode tr = 7 ∧ t.fld (pgACT tr) ACT.quarCause = 1 ∧
      t.fld (pgACT tr) ACT.quarReason = byteAt (tmcMsg m.bytes).body 8 ∧ (s.mode tr ≠ 7 → t.stands (pgACT tr) 6 = true)) ∧
  (∀ (s : State) (tr : Tree) (m : TmcIn), TmcRuns s tr m 0x06 → clocked s tr = true → fieldAt (tmcMsg m.bytes).body 0 8 = s.serial tr →
    ∃ t, exec (.enable tr m) s = .next t ∧ t.mode tr = 1 ∧ t.fld (pgACT tr) ACT.quarCause = 0 ∧
      t.stands (pgACT tr) 7 = true) ∧
  (∀ (s : State) (tr : Tree) (m : TmcIn), TmcRuns s tr m 0x07 → clocked s tr = true → 8 ≤ fieldAt (tmcMsg m.bytes).body 0 2 →
    fieldAt (tmcMsg m.bytes).body 0 2 ≤ 8000 →
    ∃ t, exec (.park tr m) s = .next t ∧ t.mode tr = 5 ∧
      t.fld (pgACT tr) ACT.parkCheckInterval = fieldAt (tmcMsg m.bytes).body 0 2 ∧
      t.fld (pgACT tr) ACT.parkMaxMaxPark = fieldAt (tmcMsg m.bytes).body 2 4 ∧ t.stands (pgACT tr) 10 = true) ∧
  (∀ (s : State) (tr : Tree) (m : TmcIn), TmcRuns s tr m 0x08 →
    ∃ t, exec (.statusRequest tr m) s = .next t ∧
      (t.acts tr).requests.head? = some (0x08, (tmcMsg m.bytes).trans, s.now,
        some (s.tmcBuild tr 0x08 (tmcMsg m.bytes).trans (s.keyed tr) true (natBE 1 0 ++ s.statusBody tr)))) ∧
  (∀ (s : State) (tr : Tree) (m : TmcIn), TmcRuns s tr m 0x10 → fieldAt (tmcMsg m.bytes).body 0 8 ≠ 0 →
    ∃ t, exec (.tenantProvision tr m) s = .next t ∧
      (∀ n, s.provisionNumber tr (fieldAt (tmcMsg m.bytes).body 0 8) = some n → t.attached tr n = true ∧
        t.tenantUid tr n = fieldAt (tmcMsg m.bytes).body 0 8) ∧
      (s.provisionNumber tr (fieldAt (tmcMsg m.bytes).body 0 8) = none → t.stands (pgACT tr) 13 = true)) ∧
  (∀ (s : State) (tr : Tree) (m : TmcIn) (n : Nat), TmcRuns s tr m 0x11 →
    s.tenantOn tr (fieldAt (tmcMsg m.bytes).body 0 8) = some n →
    ∃ t, exec (.tenantRemove tr m) s = .next t ∧ t.attached tr n = false ∧
      ∀ a, s.allocValid tr a = true → s.allocMgmt tr a = false → s.allocTenant tr a = n → t.allocValid tr a = false) ∧
  (∀ (s : State) (tr : Tree) (m : TmcIn) (n : Nat), TmcRuns s tr m 0x12 →
    s.tenantOn tr (fieldAt (tmcMsg m.bytes).body 2 8) = some n →
    ∃ t, exec (.allocAssign tr m) s = .next t ∧
      (∀ a, s.localIndex tr (fieldAt (tmcMsg m.bytes).body 0 2) = none → s.localFree = some a →
        s.servedElsewhere tr n (fieldAt (tmcMsg m.bytes).body 10 2) = false →
        t.allocValid tr a = true ∧ t.allocId tr a = fieldAt (tmcMsg m.bytes).body 0 2 ∧ t.allocTenant tr a = n % 256) ∧
      (∀ a, s.localIndex tr (fieldAt (tmcMsg m.bytes).body 0 2) = some a → s.allocMgmt tr a = false →
        s.allocTenant tr a = n → s.allocServices tr a = fieldAt (tmcMsg m.bytes).body 10 2 →
        (t.acts tr).requests.head? = some (0x12, (tmcMsg m.bytes).trans, s.now,
          some (s.tmcBuild tr 0x12 (tmcMsg m.bytes).trans (s.keyed tr) true (natBE 1 0 ++ natBE 1 0 ++ natBE 2 a)))) ∧
      (s.localIndex tr (fieldAt (tmcMsg m.bytes).body 0 2) = none → s.localFree = none →
        t.counter (cuACT tr + 14) = (s.counter (cuACT tr + 14) + 1) % counterMod (cuACT tr + 14) ∧
        t.stands (pgACT tr) 14 = true)) ∧
  (∀ (s : State) (tr : Tree) (m : TmcIn) (a : Nat), TmcRuns s tr m 0x13 →
    s.localIndex tr (fieldAt (tmcMsg m.bytes).body 0 2) = some a → s.allocMgmt tr a = false →
    ∃ t, exec (.allocRelease tr m) s = .next t ∧ t.allocValid tr a = false)

/-- An undefined type is answered with code 2 where a response path exists, and otherwise counted; a response to a request
of the terminal's own closes it. Claims, stream policy, keys and time as the tree carries them out: a claim of this head
end and a stream policy are raised, a verified key exchange leaves a nonce and its confirmation leaves the tree keyed, a
wrapped tenant key stands in the other slot of its context, and a sound time binding is held and raised. (Rests on R199,
R200, R213, R224, R240, R370, R372, R394.) (The model's own choices in it: log entries 54, 103.) -/
def Obligations.TmcMessagesRun : Prop :=
  ((∀ (s : State) (tr : Tree) (m : TmcIn), s.firmware = true → s.actWorks tr = true → (tmcMsg m.bytes).response = false →
    s.tmcAddressed tr (tmcMsg m.bytes) = true → s.tmcAuthBad tr (s.tmcFcOf tr m) (tmcMsg m.bytes) = false →
    s.tmcRepeat tr (tmcMsg m.bytes) = none → (tmcMsg m.bytes).lengthOk = true → tmcDefined (tmcMsg m.bytes).kind = false →
    ∃ t, exec (.tmcUnknownType tr m) s = .next t ∧
      (s.tmcPath tr = true → (t.acts tr).requests.head? = some ((tmcMsg m.bytes).kind, (tmcMsg m.bytes).trans, s.now,
        some (s.tmcBuild tr (tmcMsg m.bytes).kind (tmcMsg m.bytes).trans (s.keyed tr) true (natBE 1 2)))) ∧
      (s.tmcPath tr = false →
        t.counter (cuACT tr + 10) = (s.counter (cuACT tr + 10) + 1) % counterMod (cuACT tr + 10))) ∧
  (∀ (s : State) (tr : Tree) (m : TmcIn), s.firmware = true → s.actWorks tr = true → (tmcMsg m.bytes).response = true →
    s.tmcAddressed tr (tmcMsg m.bytes) = true →
    (s.acts tr).sentReqs.contains ((tmcMsg m.bytes).kind, (tmcMsg m.bytes).trans) = true →
    ∃ t, exec (.tmcHeadEndResponse tr m) s = .next t ∧
      (t.acts tr).sentReqs.contains ((tmcMsg m.bytes).kind, (tmcMsg m.bytes).trans) = false)) ∧
  ((∀ (s : State) (tr : Tree) (m : TmcIn), TmcRuns s tr m 0x40 → fieldAt (tmcMsg m.bytes).body 8 6 = s.recordHe tr →
    ∃ t, exec (.primaryClaim tr m) s = .next t ∧ t.stands pgDUAL 2 = true ∧
      t.counter (cuDUAL + 14) = (s.counter (cuDUAL + 14) + 1) % counterMod (cuDUAL + 14)) ∧
  (∀ (s : State) (tr : Tree) (m : TmcIn) (n : Nat), TmcRuns s tr m 0x42 → s.primaryNow = 0 ∨ s.primaryNow = treeIx tr + 1 →
    s.tenantOn tr (fieldAt (tmcMsg m.bytes).body 0 8) = some n →
    ∃ t, exec (.protectSet tr m) s = .next t ∧ t.stands pgDUAL 7 = true ∧
      ∀ k, k < 16 → t.tw pgDUAL 0 (16 * n + k) 0 =
        BitVec.ofNat 32 (b2n ((fieldAt (tmcMsg m.bytes).body 8 2).testBit k) + 2 * b2n ((fieldAt (tmcMsg m.bytes).body 10 2).testBit k))) ∧
  (∀ (s : State) (tr : Tree) (m : TmcIn), TmcRuns s tr m 0x30 →
    ∃ t, exec (.keyInit tr m) s = .next t ∧
      (s.keyInitOk tr (tmcMsg m.bytes).body = true → (t.acts tr).nonce.isSome = true) ∧
      (s.keyInitOk tr (tmcMsg m.bytes).body = false →
        (t.acts tr).requests.head? = some (0x30, (tmcMsg m.bytes).trans, s.now,
          some (s.tmcBuild tr 0x30 (tmcMsg m.bytes).trans (s.keyed tr) true (natBE 1 0x0B))))) ∧
  (∀ (s : State) (tr : Tree) (m : TmcIn), TmcRuns s tr m 0x31 →
    ∃ t, exec (.keyConfirm tr m) s = .next t ∧ (t.acts tr).nonce = none ∧
      ((tmcMsg m.bytes).auth = true → (s.acts tr).nonce = some ((tmcMsg m.bytes).body.take 16) →
        (tmcMsg m.bytes).tag = tmcTag (s.mgmtKey tr 3) (s.tmcFcOf tr m) (tmcMsg m.bytes).covered → t.keyed tr = true) ∧
      ((s.acts tr).nonce ≠ some ((tmcMsg m.bytes).body.take 16) → t.keyed tr = s.keyed tr)) ∧
  (∀ (s : State) (tr : Tree) (m : TmcIn) (n : Nat), TmcRuns s tr m 0x32 →
    s.tenantOn tr (fieldAt (tmcMsg m.bytes).body 0 8) = some n →
    ∃ t, exec (.tenantKey tr m) s = .next t ∧
      (∀ (c : Nat) (key : Bytes), s.keyed tr = true → (tmcMsg m.bytes).auth = true →
        16 ≤ (fieldAt (tmcMsg m.bytes).body 12 4 + 2 ^ 32 - (s.tmcFcOf tr m) % 2 ^ 32) % 2 ^ 32 →
        (fieldAt (tmcMsg m.bytes).body 12 4 + 2 ^ 32 - (s.tmcFcOf tr m) % 2 ^ 32) % 2 ^ 32 ≤ 80000 →
        keyUnwrap (s.mgmtKey tr 2) (((tmcMsg m.bytes).body.drop 20).take 40) = some key →
        c = (if byteAt (tmcMsg m.bytes).body 8 / 128 = 1 then upCtx tr n else downCtx tr n) → s.keyBusy c (s.tmcFcOf tr m) = false →
        t.tb pgLSEC 1 (2 * c + s.keyTarget c (s.tmcFcOf tr m)) 0 0 = true ∧
        t.tw pgLSEC 1 (2 * c + s.keyTarget c (s.tmcFcOf tr m)) 1 = BitVec.ofNat 32 (fieldAt (tmcMsg m.bytes).body 12 4)) ∧
      (s.keyed tr = false →
        (t.acts tr).requests.head? = some (0x32, (tmcMsg m.bytes).trans, s.now,
          some (s.tmcBuild tr 0x32 (tmcMsg m.bytes).trans false true (natBE 1 0x0B))))) ∧
  (∀ (s : State) (tr : Tree) (m : TmcIn), TmcRuns s tr m 0x50 → s.timeBindCode tr (tmcMsg m.bytes).body = 0 →
    ∃ t, exec (.timeBind tr m) s = .next t ∧ t.stands pgTIME 4 = true ∧
      (t.front tr).held = some (timeBinding (tmcMsg m.bytes).body)) ∧
  (∀ (s : State) (tr : Tree) (m : TmcIn), TmcRuns s tr m 0x51 →
    ∃ t, exec (.timeQuality tr m) s = .next t ∧
      ∀ k, k < 6 → t.tw pgTIME 3 (treeIx tr) k = (wordsBE 6 ((tmcMsg m.bytes).body.take 22)).getD k 0#32))

/-- R231, R276, R274, R280, R289, R314, R330, R351, R353, R383, R454 and their like: clearing PAGE_CTRL.enable stops a
block. Where the spec names nothing that the block does on stopping, the enable bit of that page is all that changes. -/
def Obligations.PagesStop : Prop :=
  (∀ s : State, Ready s pgDUAL → s.enabled pgDUAL = true → exec .dualDisable s = .next (s.setFld pgDUAL HDR.pageCtrlEnable 0)) ∧
  (∀ s : State, Ready s pgUSCH → s.enabled pgUSCH = true → exec .uschDisable s = .next (s.setFld pgUSCH HDR.pageCtrlEnable 0)) ∧
  (∀ s : State, Ready s pgPOL → s.enabled pgPOL = true → exec .polDisable s = .next (s.setFld pgPOL HDR.pageCtrlEnable 0)) ∧
  (∀ s : State, Ready s pgCLS → s.enabled pgCLS = true → exec .clsDisable s = .next (s.setFld pgCLS HDR.pageCtrlEnable 0)) ∧
  (∀ s : State, Ready s pgFLOW → s.enabled pgFLOW = true → exec .flowDisable s = .next (s.setFld pgFLOW HDR.pageCtrlEnable 0)) ∧
  (∀ s : State, Ready s pgDSCH → s.enabled pgDSCH = true → exec .dschDisable s = .next (s.setFld pgDSCH HDR.pageCtrlEnable 0)) ∧
  (∀ s : State, Ready s pgSTO → s.enabled pgSTO = true → exec .stoDisable s = .next (s.setFld pgSTO HDR.pageCtrlEnable 0)) ∧
  (∀ s : State, Ready s pgSWC → s.enabled pgSWC = true → exec .swcDisable s = .next (s.setFld pgSWC HDR.pageCtrlEnable 0)) ∧
  (∀ s : State, Ready s pgMIR → s.enabled pgMIR = true → exec .mirDisable s = .next (s.setFld pgMIR HDR.pageCtrlEnable 0)) ∧
  (∀ s : State, Ready s pgLSEC → s.enabled pgLSEC = true → exec .lsecDisable s = .next (s.setFld pgLSEC HDR.pageCtrlEnable 0)) ∧
  (∀ s : State, Ready s pgKST → s.enabled pgKST = true → exec .kstDisable s = .next (s.setFld pgKST HDR.pageCtrlEnable 0)) ∧
  (∀ s : State, Ready s pgCORE → s.enabled pgCORE = true → exec .coreDisable s = .next (s.setFld pgCORE HDR.pageCtrlEnable 0)) ∧
  (∀ s : State, Ready s pgTSK → s.enabled pgTSK = true → exec .tskDisable s = .next (s.setFld pgTSK HDR.pageCtrlEnable 0)) ∧
  (∀ s : State, Ready s pgFLSH → s.enabled pgFLSH = true → exec .flshDisable s = .next (s.setFld pgFLSH HDR.pageCtrlEnable 0)) ∧
  (∀ s : State, Ready s pgXTR → ∃ t, exec .xtrDisable s = .next t ∧ t.enabled pgXTR = false) ∧
  (∀ s : State, Ready s pgCCRY → ∃ t, exec .ccryDisable s = .next t ∧ t.enabled pgCCRY = false) ∧
  (∀ s : State, Ready s pgTIME → ∃ t, exec .timeDisable s = .next t ∧ t.enabled pgTIME = false) ∧
  (∀ s : State, Ready s pgHIF → ∃ t, exec .hifDisable s = .next t ∧ t.enabled pgHIF = false) ∧
  (∀ s : State, Ready s pgDMA → ∃ t, exec .dmaDisable s = .next t ∧ t.enabled pgDMA = false) ∧
  (∀ s : State, Ready s pgLANE → ∃ t, exec .laneDisable s = .next t ∧ t.enabled pgLANE = false) ∧
  (∀ (s : State) (q : Nat), Ready s (pgUNIQ (4 * (q % 4))) →
    ∃ t, exec (.uniqDisable q) s = .next t ∧ t.enabled (pgUNIQ (4 * (q % 4))) = false) ∧
  (∀ (s : State) (tr : Tree), Ready s (pgGRT tr) → ∃ t, exec (.grtDisable tr) s = .next t ∧ t.enabled (pgGRT tr) = false)

/-- The next fragment of a receiver merges if it is protected: the first whole one of a stream opens its context, one in
order moves it on, and one already passed on is a duplicate and goes no further; an unprotected one goes by its receiver
and stream, and one that breaks their order is counted; a break marker ends what the receiver had in progress; an idle
context expires or is flushed with nothing counted; with the unit disabled a fragment is only counted and its cells
return. DUAL_SKEW shows a superframe's largest skew and starts anew, an alarm above its limit is raised; sel_tree returns
to a home tree that qualifies; the copies of a tree that no longer carries their tenant are withdrawn; a conflict due on a
tree goes out on it once. (Rests on R229, R230, R232, R233, R236, R237, R239, R241.) (The model's own choices in it: log
entries 35, 91.) -/
def Obligations.DualHomes : Prop :=
  ((∀ (s : State) (r : Rx) (f : LineFrag), s.lineNext r = some f → f.mark = false → f.head.prot = true → s.works pgDUAL = false →
    exec (.mergeFragment r) s = .next ((s.count (cuDUAL + 17)).passLine f false)) ∧
  (∀ (s : State) (r : Rx) (f : LineFrag), s.lineNext r = some f → f.mark = false → f.head.prot = true →
    f.head.last = true → s.works pgDUAL = true → s.dnSelected f.stream = false →
    ∃ t, exec (.mergeFragment r) s = .next t ∧ t.dual.inbox = s.dual.inbox.erase f ∧
      (∀ p off, off / 4 ≠ 4 → p ≠ pgSTO → t.reg p off = s.reg p off) ∧
      (s.ctxValid f.stream = false → t.ctxValid f.stream = true ∧ t.ctxHi f.stream = f.head.sequence ∧ t.gaps f.stream = [] ∧
        t.dual.passed = s.dual.passed ++ [f] ∧ t.counter cuDUAL = (s.counter cuDUAL + 1) % counterMod cuDUAL) ∧
      (s.ctxValid f.stream = true → f.head.sequence = (s.ctxHi f.stream + 1) % 65536 → t.ctxHi f.stream = f.head.sequence ∧
        t.dual.passed = s.dual.passed ++ [f] ∧ t.counter cuDUAL = (s.counter cuDUAL + 1) % counterMod cuDUAL) ∧
      (s.ctxValid f.stream = true → f.head.sequence = s.ctxHi f.stream → t.ctxHi f.stream = s.ctxHi f.stream ∧
        t.gaps f.stream = s.gaps f.stream ∧ t.dual.passed = s.dual.passed ∧ t.counter cuDUAL = s.counter cuDUAL ∧
        t.counter (cuDUAL + 1) = (s.counter (cuDUAL + 1) + 1) % counterMod (cuDUAL + 1))) ∧
  (∀ (s : State) (r : Rx) (f : LineFrag), s.lineNext r = some f → f.mark = false → f.head.prot = false →
    s.works pgDUAL = true → (∀ p, s.progress r f.stream = some p → f.head.sequence = (p + 1) % 65536) →
    ∃ t, exec (.dualUnprotected r) s = .next t ∧ t.tables = s.tables ∧ t.dual.inbox = s.dual.inbox.erase f ∧
      t.dual.passed = s.dual.passed ++ [f] ∧
      t.progress r f.stream = (if f.head.last then none else some f.head.sequence) ∧
      t.counter (cuDUAL + 6) = (s.counter (cuDUAL + 6) + 1) % counterMod (cuDUAL + 6)) ∧
  (∀ (s : State) (r : Rx) (f : LineFrag) (p : Nat), s.lineNext r = some f → f.mark = false → f.head.prot = false →
    s.works pgDUAL = true → s.progress r f.stream = some p → f.head.sequence ≠ (p + 1) % 65536 →
    ∃ t, exec (.dualUnprotected r) s = .next t ∧ t.dual.inbox = s.dual.inbox.erase f ∧ f ∈ t.dual.passed ∧
      t.progress r f.stream = (if f.head.last then none else some f.head.sequence) ∧
      t.counter (cuDUAL + 7) = (s.counter (cuDUAL + 7) + 1) % counterMod (cuDUAL + 7) ∧
      t.counter (cuDUAL + 6) = (s.counter (cuDUAL + 6) + 1) % counterMod (cuDUAL + 6)) ∧
  (∀ (s : State) (r : Rx) (f : LineFrag), s.lineNext r = some f → f.mark = true →
    ∃ t, exec (.dualBreakMarker r) s = .next t ∧ t.dual.inbox = s.dual.inbox.erase f ∧
      (∀ q, q < 4096 → t.progress r q = none) ∧
      (∀ p i e k, tblKey p i e k / 0x4000000 ≠ pgSTO → t.tw p i e k = s.tw p i e k)) ∧
  (∀ (s : State) (q : Nat), s.works pgDUAL = true → s.ctxValid q = true →
    ∃ t, exec (.mergeIdleReset q) s = .next t ∧ t.ctxValid q = false ∧ t.gaps q = [] ∧
      t = { s with tables := t.tables, dual := t.dual }) ∧
  (∀ s : State, Ready s pgDUAL →
    ∃ t, exec .dualFlush s = .next t ∧ (∀ q, q < 4096 → t.ctxValid q = false) ∧
      t = { s with tables := t.tables, dual := t.dual })) ∧
  ((∀ s : State, s.alive pgDUAL = true →
    ∃ t, exec .dualSkewUpdate s = .next t ∧ t.fld pgDUAL DUAL.skewSkewMax = min 65535 (s.dual.skew / symPerUs) ∧
      t.flag pgDUAL DUAL.skewLeadValid = s.dual.skewSeen ∧ t.dual.skew = 0 ∧ t.dual.skewSeen = false ∧
      (s.fld pgDUAL DUAL.skewCfgSkewAlarm < min 65535 (s.dual.skew / symPerUs) → t.stands pgDUAL 4 = true) ∧
      (∀ p off, off / 4 % 1024 ≠ 4 → regKey p off ≠ regKey pgDUAL DUAL.skewSkewMax.off → t.reg p off = s.reg p off)) ∧
  (∀ s : State, s.flag pgDUAL DUAL.selRevertive = true → s.qualifies s.homeTree = true → s.selTree ≠ s.homeTree →
    ∃ t, exec .selWtrExpire s = .next t ∧ t.selTree = s.homeTree ∧ t.stands pgDUAL 3 = true ∧
      t.counter (cuDUAL + 16) = (s.counter (cuDUAL + 16) + 1) % counterMod (cuDUAL + 16)) ∧
  (∀ s : State, s.flag pgDUAL DUAL.selRevertive = false ∨ s.qualifies s.homeTree = false ∨ s.selTree = s.homeTree →
    exec .selWtrExpire s = .next s) ∧
  (∀ (s : State) (tr : Tree), (∀ k ∈ Sparse.keys s.sto.lists, s.carriesTenant tr (k / 4 / 16) = true) → exec (.copyWithdraw tr) s = .next s) ∧
  (∀ (s : State) (tr : Tree) (k : Nat) (c : Copy), s.sto.lists = [(k, [c])] → c.prot = true → k % 4 = 1 + treeIx tr →
    k / 4 < downBase → s.carriesTenant tr (k / 4 / 16) = false →
    ∃ t, exec (.copyWithdraw tr) s = .next t ∧ t.list k = []) ∧
  (∀ s : State, s.dual.conflict = none → exec .claimConflictSend s = .next s) ∧
  (∀ (s : State) (tr : Tree) (win : Tree) (ea eb : Nat), s.dual.conflict = some (win, ea, eb) →
    s.dual.conflictDue.get tr = true → s.dual.conflictDue.get (otherTree tr) = false → s.dual.conflictSent.get tr = false →
    s.registered tr = true → s.tmcPath tr = true →
    ∃ t, exec .claimConflictSend s = .next t ∧ t.dual.conflictDue.get tr = false ∧ t.dual.conflictSent.get tr = true))

/-- At the selection instant of the earliest waiting grant its content is selected and the grant stands selected, or,
where its alloc_id is no longer bound here, the grant goes; a disabled grant page keeps no waiting grant. A Parked tree
with upstream need raises it once while the need lasts, and a need that has gone is no longer noted; firmware, while it
runs, takes the tree out of Parked: to Operational, or to Lifeline where it is kept there on battery. (Rests on R252,
R276, R267, R211.) (The model's own choices in it: log entries 98, 140.) -/
def Obligations.UpstreamRuns : Prop :=
  ((∀ (s : State) (tr : Tree), Ready s (pgGRT tr) → s.enabled (pgGRT tr) = true →
    ∃ t, exec (.grtDisable tr) s = .next t ∧ t.enabled (pgGRT tr) = false ∧
      ∀ i, i < 64 → t.pendValid tr i = true → t.pendState tr i ≠ 0) ∧
  (∀ (s : State) (tr : Tree), s.nextWaiting tr 0 = none → exec (.grantSelect tr) s = .next s) ∧
  (∀ (s : State) (tr : Tree) (i : Nat), s.nextWaiting tr 0 = some i → s.alive (pgGRT tr) = true → s.stillBound tr i = false →
    ∃ t, exec (.grantSelect tr) s = .next t ∧ t.pendValid tr i = false) ∧
  (∀ (s : State) (tr : Tree) (i : Nat), s.nextWaiting tr 0 = some i → s.alive (pgGRT tr) = true → s.stillBound tr i = true →
    ∃ t, exec (.grantSelect tr) s = .next t ∧ (∀ k, s.endsAtS tr i = some k → t.pendValid tr i = false) ∧
      (s.endsAtS tr i = none → t.pendState tr i = 1 ∧ t.flag (pgTX tr) TX.launchStatusOutOfRange = false))) ∧
  ((∀ (s : State) (tr : Tree), s.treeNeeds tr = true → s.needNoted tr = false → s.firmware = true → clocked s tr = true →
    ∃ t, exec (.upstreamNeed tr) s = .next t ∧ t.stands pgUSCH (2 + treeIx tr) = true ∧
      t.mode tr = (if s.keptOnBattery tr = true then 6 else 4) ∧ t.stands (pgACT tr) 11 = true) ∧
  (∀ (s : State) (tr : Tree), s.treeNeeds tr = true → s.needNoted tr = false → s.firmware = false →
    ∃ t, exec (.upstreamNeed tr) s = .next t ∧ t.stands pgUSCH (2 + treeIx tr) = true ∧ t.needNoted tr = true ∧
      t.mode tr = s.mode tr ∧ (∀ q o, o / 4 % 1024 ≠ 4 → t.reg q o = s.reg q o)) ∧
  (∀ (s : State) (tr : Tree), s.treeNeeds tr = true → s.needNoted tr = true → s.firmware = false →
    exec (.upstreamNeed tr) s = .next s) ∧
  (∀ (s : State) (tr : Tree), s.treeNeeds tr = false →
    ∃ t, exec (.upstreamNeed tr) s = .next t ∧ t.needNoted tr = false ∧ t = { s with usch := t.usch }))

/-- A tick that is due advances the tick count, clips and refills every shaped queue's tokens and the host bucket by its
rate, and shows whether it runs free; one that is not due changes no tokens; a sweep sets or clears every live queue's
promotion, and discards a queue's head that has reached its age limit, counted; firmware's message waits in its entry, and
one for an entry that is not free is refused and leaves it alone; a record of the tier is drawn back to the end of the
served list, and a backlog joins it once the tier part is empty. (Rests on R259 to R261, R263, R268, R344, R345.) (The
model's own choices in it: log entries 112, 113.) -/
def Obligations.UpstreamQueuesMove : Prop :=
  (∀ s : State, s.tickDue = true →
    ∃ t, exec .schedTick s = .next t ∧ t.usch.ticks = (s.usch.ticks + 1) % 2 ^ 32 ∧
      (∀ q, q < 4096 → s.tf pgUSCH 0 q 2 22 0 ≠ 0 → Sparse.get 0 t.usch.queueTokens q =
        min (min (Sparse.get 0 s.usch.queueTokens q) (max 16384 (s.tf pgUSCH 0 q 3 23 0)) + s.tf pgUSCH 0 q 2 22 0)
          (max 16384 (s.tf pgUSCH 0 q 3 23 0))) ∧
      t.sto.hostTokens = min (min s.sto.hostTokens 16384 + s.fld pgDSCH DSCH.hostRateHostRate) 16384 ∧
      t.flag pgUSCH USCH.statusTickFree = !s.timeValid ∧ t.flag pgDSCH DSCH.statusTickFree = !s.timeValid ∧
      t = { s with rf := t.rf, usch := t.usch, sto := t.sto }) ∧
  (∀ s : State, s.tickDue = false →
    ∃ t, exec .schedTick s = .next t ∧ t.flag pgUSCH USCH.statusTickFree = !s.timeValid ∧
      t.flag pgDSCH DSCH.statusTickFree = !s.timeValid ∧ t = { s with rf := t.rf }) ∧
  (∀ s : State, (∀ q ∈ s.liveQueues, ∀ k c, s.headItem q = some (k, c) →
      s.ageLimit q = 0 ∨ s.isBulk q = true ∨ s.copyAge c < s.ageLimit q) →
    ∃ t, exec .uschAgeSweep s = .next t ∧ (∀ q ∈ s.liveQueues, t.promoted q = s.shouldPromote q) ∧
      (∀ i, i ≠ cuUSCH + 3 → t.counter i = s.counter i) ∧
      t = { s with rf := t.rf, cnt := t.cnt, tables := t.tables }) ∧
  (∀ (s : State) (q : Nat) (c : Copy), s.liveQueues = [q] → q < 4096 → s.list (listKey q 0) = [c] → s.list (listKey q 1) = [] →
    s.list (listKey q 2) = [] → c.queue = q → c.prot = false → s.isBulk q = false → s.ageLimit q ≠ 0 → s.ageLimit q ≤ s.copyAge c →
    ∃ t, exec .uschAgeSweep s = .next t ∧ t.list (listKey q 0) = [] ∧
      t.counter (cuUSCH + 4) = (s.counter (cuUSCH + 4) + 1) % counterMod (cuUSCH + 4)) ∧
  (∀ (s : State) (tr : Tree) (e len cls addr : Nat), s.alive (pgGRT tr) = true → e < 64 → s.tmcState tr e ≠ 1 →
    s.tmcState tr e ≠ 2 →
    ∃ t, exec (.tmcSendSubmit tr e len cls addr) s = .next t ∧ t.tmcState tr e = 1 ∧
      t.tmcLength tr e = (if len % 2 ^ 11 = 0 then 2048 else len % 2 ^ 11) ∧ ((t.grts tr).tmcRefused.contains e) = false ∧
      t.tmcClass tr e = cls % 4 ∧ t.tw (pgGRT tr) 1 e 1 = BitVec.ofNat 32 addr) ∧
  (∀ (s : State) (tr : Tree) (e len cls addr : Nat), s.alive (pgGRT tr) = true → e < 64 →
    s.tmcState tr e = 1 ∨ s.tmcState tr e = 2 →
    exec (.tmcSendSubmit tr e len cls addr) s =
      .next (s.modGrts tr (fun g => { g with tmcRefused := e :: g.tmcRefused.filter (· ≠ e) }))) ∧
  (∀ (s : State) (q n : Nat) (r : TierRec), s.tierUp = true → s.servedBytes q < s.bulkMarks.2 →
    s.fld pgSTO STO.culletLowLow ≤ s.freeCells → cellsOf r.bytes.length ≤ s.freeCells → s.freeDescs ≠ 0 →
    s.extentOutside n = false → s.tier q = [⟨n, [r]⟩] → s.list (listKey q 3) = [] →
    ∃ t, exec (.bulkDrawBack q) s = .next t ∧ t.tier q = [] ∧
      t.list (listKey q 0) = s.list (listKey q 0) ++ [{ r.copy with frame := s.sto.nextId, desc := s.nextDesc }] ∧
      t.counter (cuXTR + 3) = (s.counter (cuXTR + 3) + 1) % counterMod (cuXTR + 3)) ∧
  (∀ (s : State) (q : Nat), s.tierUp = false → s.tier q = [] →
    ∃ t, exec (.bulkDrawBack q) s = .next t ∧ t.list (listKey q 0) = s.list (listKey q 0) ++ s.list (listKey q 3) ∧
      t.list (listKey q 3) = [])

/-- R289: with CLS PAGE_CTRL.enable 0, every frame that reaches the classifier is dropped and counted at CLS index 8. -/
def Obligations.ClassifierOff : Prop :=
  ∀ (s : State) (f : InFrame) (sat : Bool), s.enabled pgCLS = false →
    ∃ t, exec (.frameClassify f sat) s = .next t ∧ t.actOf (s.dueFrame f).id = some none ∧
      t.counter (cuCLS + 8) = (s.counter (cuCLS + 8) + 1) % counterMod (cuCLS + 8) ∧
      (∀ i, i ≠ cuCLS + 8 → t.counter i = s.counter i) ∧ t = { s with cls := t.cls, cnt := t.cnt }

/-- The earliest frame of an origin that no table and no rule takes gets its source's default action: dropped by an action
of kind 0, taken with its tenant by one for the cores; a follow entry unused for the time limit goes when it is visited,
and one used since stays. (Rests on R293, R296, R299, R303.) (The model's own choices in it: log entry 37.) -/
def Obligations.FramesClassified : Prop :=
  (∀ (s : State) (g f : InFrame) (sat : Bool) (x : Parsed) (d : Nat), s.works pgCLS = true → s.dueFrame g = f → f.srcKind = 2 →
    x = parseFrame (s.fld pgCLS CLS.cfgTpidAlt) f.bytes → x.err = false → x.l3 = 0 → x.frag = 0 → s.tblEntries pgCLS 0 = [] →
    d = s.fld pgCLS CLS.defaultHostDefaultHost →
    ∃ t, exec (.frameClassify g sat) s = .next t ∧ t.rf = s.rf ∧ t.tables = s.tables ∧
      t.cls.handed = s.cls.handed.erase f ∧
      t.counter (cuCLS + 2) = (s.counter (cuCLS + 2) + 1) % counterMod (cuCLS + 2) ∧
      t.counter (cuCLS + 5) = (s.counter (cuCLS + 5) + 1) % counterMod (cuCLS + 5) ∧
      (s.tf pgCLS 1 d 0 2 0 = 0 → t.actOf f.id = some none ∧
        t.counter (cuCLS + 6) = (s.counter (cuCLS + 6) + 1) % counterMod (cuCLS + 6)) ∧
      (s.tf pgCLS 1 d 0 2 0 = 4 → ∃ c, t.actOf f.id = some (some c) ∧ c.action = d ∧ c.tenant = f.tenant ∧
        c.act = s.entry pgCLS 1 d 4)) ∧
  (∀ (s : State) (i : Nat), s.followValid (i % 16384) = true → s.followStale (i % 16384) = true →
    ∃ t, exec (.followTimeout i) s = .next t ∧ t.followValid (i % 16384) = false ∧
      t.counter (cuCLS + 14) = (s.counter (cuCLS + 14) + 1) % counterMod (cuCLS + 14)) ∧
  (∀ (s : State) (i : Nat), s.followValid (i % 16384) = false ∨ s.followStale (i % 16384) = false →
    exec (.followTimeout i) s = .next s)

/-- A flow command stays busy until it is done and then reports its result and raises: an insert of a key that is there
answers 1 and its entry, a find 0 and its entry, a delete 0 and the entry is gone, a key that is not there 3; the ager
removes an entry that has been idle for its class's limit, and no other, and runs again only after the sweep period.
(Rests on R308, R309.) (The model's own choices in it: log entries 56, 57, 121.) -/
def Obligations.FlowCommands : Prop :=
  (∀ (s : State) (e : Nat), Ready s pgFLOW → s.works pgFLOW = true → s.flag pgFLOW FLOW.cmdStatusBusy = false →
    s.flowFind (s.flowKeyAt 1 0) = some e →
    (∃ t, exec .flowInsert s = .next t ∧ t.flag pgFLOW FLOW.cmdStatusBusy = true ∧ t.flow.result = 1 ∧ t.flow.index = e ∧
      t.tables = s.tables) ∧
    (∃ t, exec .flowFind s = .next t ∧ t.flag pgFLOW FLOW.cmdStatusBusy = true ∧ t.flow.result = 0 ∧ t.flow.index = e ∧
      t.tables = s.tables) ∧
    (∃ t, exec .flowDelete s = .next t ∧ t.flag pgFLOW FLOW.cmdStatusBusy = true ∧ t.flow.result = 0 ∧ t.flow.index = e ∧
      t.flowValid e = false)) ∧
  (∀ s : State, Ready s pgFLOW → s.works pgFLOW = true → s.flag pgFLOW FLOW.cmdStatusBusy = false →
    s.flowFind (s.flowKeyAt 1 0) = none →
    (∃ t, exec .flowInsert s = .next t ∧ t.flag pgFLOW FLOW.cmdStatusBusy = true ∧ (t.flow.result = 0 ∨ t.flow.result = 2)) ∧
    (∃ t, exec .flowFind s = .next t ∧ t.flow.result = 3 ∧ t.tables = s.tables) ∧
    (∃ t, exec .flowDelete s = .next t ∧ t.flow.result = 3 ∧ t.tables = s.tables)) ∧
  (∀ s : State, s.flag pgFLOW FLOW.cmdStatusBusy = true →
    ∃ t, exec .flowCmdDone s = .next t ∧ t.flag pgFLOW FLOW.cmdStatusBusy = false ∧
      t.fld pgFLOW FLOW.cmdStatusResult = s.flow.result % 8 ∧ t.fld pgFLOW FLOW.cmdStatusIndex = s.flow.index % 2 ^ 18 ∧
      t.stands pgFLOW 3 = true) ∧
  (∀ (s : State) (e : Nat), s.works pgFLOW = true → s.flowSweepDue = true → s.flowEntries = [e] → s.tb pgFLOW 0 e 0 1 = false →
    0 < (s.tw pgFLOW 2 (s.tf pgFLOW 0 e 0 5 3) 0).toNat → (s.tw pgFLOW 2 (s.tf pgFLOW 0 e 0 5 3) 0).toNat ≤ s.flowIdle e →
    ∃ t, exec .flowAgeSweep s = .next t ∧ t.flowValid e = false ∧ t.flowUsed = s.flowUsed - 1 ∧
      t.counter (cuFLOW + 6) = (s.counter (cuFLOW + 6) + 1) % counterMod (cuFLOW + 6) ∧ t.flowSweepDue = false) ∧
  (∀ s : State, s.flowSweepDue = false → exec .flowAgeSweep s = .next s) ∧
  (∀ s : State, s.works pgFLOW = true → s.flowSweepDue = true → (∀ e ∈ s.flowEntries, s.tb pgFLOW 0 e 0 1 = true ∨
      (s.tw pgFLOW 2 (s.tf pgFLOW 0 e 0 5 3) 0).toNat = 0 ∨
      s.flowIdle e < (s.tw pgFLOW 2 (s.tf pgFLOW 0 e 0 5 3) 0).toNat) →
    exec .flowAgeSweep s = .next (s.modFlow (fun x => { x with swept := s.now + 1 })))

/-- A frame's first byte is refused where the store or the switch is off or the pool is empty, and else draws its cells,
which a pool with too few of them fails; a frame whose action has not arrived ends and waits; an admitted copy waits with
its frame; a frame with no copy leaves; the last byte read at a UNI port sends the frame with its FCS, counts it and frees
the port. (Rests on R325, R327, R328, R351, R353.) (The model's own choices in it: log entries 42, 119.) -/
def Obligations.FramesAdmitted : Prop :=
  (∀ (s : State) (a : AdmitReq), s.lineCells a.id = [] → s.works pgSTO = false → exec (.frameAdmitStart a) s = .next (s.count (cuSTO + 10))) ∧
  (∀ (s : State) (a : AdmitReq), s.lineCells a.id = [] → s.works pgSTO = true → s.works pgSWC = false →
    exec (.frameAdmitStart a) s = .next (s.count (cuSWC + 13))) ∧
  (∀ (s : State) (a : AdmitReq), s.lineCells a.id = [] → s.works pgSTO = true → s.works pgSWC = true →
    s.tf pgSTO 0 a.tenant 0 27 0 = 0 →
    (s.freeCells = 0 → exec (.frameAdmitStart a) s = .next ((s.count cuSWC).count (cuSTO + 2))) ∧
    (0 < s.freeCells → s.freeCells < max 1 (cellsOf a.arrived) → ∃ t f, exec (.frameAdmitStart a) s = .next t ∧
      t.frame a.id = some f ∧ f.cells = [] ∧ f.endWith = 2) ∧
    (max 1 (cellsOf a.arrived) ≤ s.freeCells → ∃ t f, exec (.frameAdmitStart a) s = .next t ∧ t.frame a.id = some f ∧ f.bytes = a.bytes ∧
      f.srcKind = a.srcKind ∧ f.tenant = a.tenant ∧ f.cells = s.nextCells [] (max 1 (cellsOf a.arrived)) ∧
      f.decided = false ∧ f.waiting = [] ∧ t.freeCells = s.freeCells - f.cells.length ∧
      t.counter cuSTO = (s.counter cuSTO + f.cells.length) % counterMod cuSTO)) ∧
  (∀ (s : State) (id : Nat) (err empty : Bool), s.frame id = none → exec (.frameAdmitEnd id err empty) s = .next s) ∧
  (∀ (s : State) (id : Nat) (err empty : Bool) (f : Frame), s.frame id = some f → f.decided = false → s.actOf id = none →
    ∃ t, exec (.frameAdmitEnd id err empty) s = .next t ∧ t.frame id = some { f with
      ended := true, arrived := f.bytes.length, endWith := if f.endWith = 2 then 2 else if err || s.uni.errored.contains id then 1 else if empty then 2 else 0 } ∧
      t = { s with sto := t.sto, uni := { s.uni with errored := s.uni.errored.erase id } }) ∧
  (∀ (s : State) (id : Nat), s.frame id = none → exec (.copyDecide id) s = .next (s.forgetAct id)) ∧
  (∀ (s : State) (id : Nat) (f : Frame), s.frame id = some f → f.decided = false → f.ended = false → s.actOf id = some none →
    ∃ t, exec (.copyDecide id) s = .next t ∧ t.frame id = none ∧ t.actOf id = none) ∧
  (∀ (s : State) (id : Nat) (f : Frame) (c : Classified) (d : CopyDest), s.frame id = some f → f.decided = false →
    f.ended = false → f.endWith = 0 → s.sto.changes = [] → s.actOf id = some (some c) → s.copyDests f c = [d] → d.port = some 17 → d.refused = false →
    1 ≤ s.freeDescs → s.tf pgSWC 0 d.queue 0 23 0 = 0 →
    s.tb pgSWC 1 (3 * s.tf pgSWC 0 d.queue 0 26 24 + c.colour) 0 0 = false → s.works pgMIR = false →
    ∃ t g, exec (.copyDecide id) s = .next t ∧ t.frame id = some g ∧ g.decided = true ∧ g.refs = f.refs + 1 ∧
      g.waiting = f.waiting ++ [s.copyOf id f c d] ∧
      t.counter (cuSWC + 2) = (s.counter (cuSWC + 2) + 1) % counterMod (cuSWC + 2)) ∧
  (∀ (s : State) (p : Nat), s.sendingOn (p % 16) = none → exec (.uniTxComplete p) s = .next s) ∧
  (∀ (s : State) (p : Nat) (c : Copy) (f : Frame), s.sendingOn (p % 16) = some c → s.frame c.frame = some f → f.ended = true → f.bad = false →
    ∃ t, exec (.uniTxComplete p) s = .next t ∧ t.sendingOn (p % 16) = none ∧
      .uniFrame (p % 16) (Sparse.get [] s.sto.sendBytes (p % 16) ++ fcsOf (Sparse.get [] s.sto.sendBytes (p % 16))) ∈ t.out ∧
      t.counter cuDSCH = (s.counter cuDSCH + 1) % counterMod cuDSCH)

/-- A selection starts the head of the queue that the rounds pick on a UNI port, hands that of a host queue to its
function's ring, and writes the cores' queue's head to their ring; nothing is dequeued while the scheduler or the store is
off; a head that has reached its age limit goes and is counted; a flush of a disabled port leaves its queues empty and is
raised; a sample for the cores is delivered and counted. An uncorrectable error of the store is counted and raised, and a
cell it hits is retired; a corrected one is counted; a backlog frame goes to the tail extent of its queue's chain; a tier
read that fails is raised and its records counted; a segment entry follows its write, entry 0 apart. (Rests on R336, R338,
R339, R341, R324, R344, R346, R347.) (The model's own choices in it: log entries 20, 52, 97, 118.) -/
def Obligations.StoreServes : Prop :=
  ((∀ (s : State) (p : Nat), s.dequeues = false ∨ 18 ≤ p → exec (.dschSelect p) s = .next s) ∧
  (∀ (s u : State) (p q : Nat) (c : Copy), s.dequeues = true → p < 16 →
    u = State.pauseTurn p ((s.queuesWith (ofPort p)).foldl (fun s q => s.examineDown q) s) → u.pins p = [] → u.uniFree p = true →
    ((u.pin p []).pickDown p (fun _ => true)).2 = some q → u.downHead q = some c → u.launchWaits p c = false →
    u.frameBad c.frame = false →
    ∃ t, exec (.dschSelect p) s = .next t ∧ t.sendingOn p = some { c with started := true } ∧
      t.list (listKey q 0) = (u.list (listKey q 0)).erase c) ∧
  (∀ (s u : State) (q : Nat) (c : Copy), s.dequeues = true →
    u = (s.queuesWith (ofPort 16)).foldl (fun s q => s.starveJudge q)
      ((s.queuesWith (ofPort 16)).foldl (fun s q => s.examineDown q) s) → u.pins 16 = [] →
    u.fld pgDSCH DSCH.hostRateHostRate = 0 ∨ 0 < u.sto.hostTokens →
    ((u.pin 16 []).pickDown 16 (fun _ => true)).2 = some q → u.downHead q = some c → u.frameBad c.frame = false →
    ∃ t, exec (.dschSelect 16) s = .next t ∧ t.sendingOn (handKey (fnOf q) (classOf q)) = some c ∧
      t.list (listKey q 0) = (u.list (listKey q 0)).erase c) ∧
  (∀ (s : State) (c : Copy), s.dequeues = true → s.downHead coreQueue = some c → s.dage coreQueue = 0 → s.works pgCORE = true →
    s.frameBad c.frame = false → s.crRoom 1 c.length = true →
    ∃ t, exec (.dschSelect 17) s = .next t ∧ t.list (listKey coreQueue 0) = (s.list (listKey coreQueue 0)).erase c ∧
      t.counter (cuDSCH + 2) = (s.counter (cuDSCH + 2) + 1) % counterMod (cuDSCH + 2)) ∧
  (∀ s : State, s.queuesWith (fun _ => true) = [] → exec .dschAgeSweep s = .next s) ∧
  (∀ (s : State) (q : Nat) (c : Copy), s.queuesWith (fun _ => true) = [q] → s.list (listKey q 0) = [c] → s.dage q ≠ 0 →
    s.dage q ≤ s.copyAge c →
    ∃ t, exec .dschAgeSweep s = .next t ∧ t.list (listKey q 0) = [] ∧
      t.counter (cuDSCH + 4) = (s.counter (cuDSCH + 4) + 1) % counterMod (cuDSCH + 4)) ∧
  (∀ (s : State) (p : Nat), p < 16 → s.portOn p = false →
    ∃ t, exec (.portFlush p) s = .next t ∧ t.stands pgDSCH 1 = true ∧ ∀ q, ofPort p q = true → t.list (listKey q 0) = []) ∧
  (∀ (s : State) (f : Nat), f < 256 → s.fnEnabled f = false →
    ∃ t, exec (.portFlush (16 + f)) s = .next t ∧ t.stands pgDSCH 1 = true ∧ ∀ q, ofFn f q = true → t.list (listKey q 0) = []) ∧
  (∀ (s : State) (p : Nat), p < 16 → s.portOn p = true → exec (.portFlush p) s = .next s) ∧
  (∀ (s : State) (bufs : List Bytes) (c : Copy) (f : Frame), s.dequeues = true → s.downHead sampleQueue = some c →
    s.dage sampleQueue = 0 → s.frame c.frame = some f → f.bad = false → s.tb pgMIR 0 c.sampler 0 20 = false →
    s.works pgCORE = true → s.crRoom 1 (sampleHeader c f.bytes.length ++ s.copyBytes c).length = true →
    ∃ t, exec (.sampleDeliver bufs) s = .next t ∧ t.list (listKey sampleQueue 0) = (s.list (listKey sampleQueue 0)).erase c ∧
      t.counter (cuMIR + 2) = (s.counter (cuMIR + 2) + 1) % counterMod (cuMIR + 2))) ∧
  ((∀ (s : State) (what : MemErr), what ≠ .corrected →
    ∃ t, exec (.memUncorrectable what) s = .next t ∧ t.stands pgSTO 4 = true ∧
      t.counter (cuSTO + 8) = (s.counter (cuSTO + 8) + 1) % counterMod (cuSTO + 8)) ∧
  (∀ s : State, exec (.memUncorrectable .corrected) s = .next (s.count (cuSTO + 4))) ∧
  (∀ (s : State) (id : Nat) (f : Frame) (x : Nat), s.frame id = some f → s.sto.sending = [] → s.pick f.cells = some x →
    ∃ t, exec (.memUncorrectable (.cell id none)) s = .next t ∧
      t.frame id = some { f with cells := f.cells.erase x, bad := true } ∧ t.sto.retired = x :: s.sto.retired ∧
      t.stands pgSTO 3 = true ∧ t.counter (cuSTO + 5) = (s.counter (cuSTO + 5) + 1) % counterMod (cuSTO + 5)) ∧
  (∀ (s : State) (q : Nat) (c : Copy) (e : Extent), s.tierUp = true → s.list (listKey q 3) = [c] → s.tier q = [e] →
    s.frameBad c.frame = false → e.used + (s.recordOf c).size ≤ 2097152 →
    ∃ t, exec (.backlogSpill q) s = .next t ∧ t.list (listKey q 3) = [] ∧
      t.tier q = [{ e with recs := e.recs ++ [s.recordOf c] }] ∧
      t.counter (cuXTR + 2) = (s.counter (cuXTR + 2) + 1) % counterMod (cuXTR + 2)) ∧
  (∀ (s : State) (q : Nat) (whole : Bool), s.tier q = [] → exec (.tierReadFail q whole) s = .next s) ∧
  (∀ (s : State) (q : Nat), s.tier q ≠ [] → ∃ t, exec (.tierReadFail q true) s = .next t ∧ t.stands pgXTR 0 = true ∧
    t.counter (cuXTR + 6) = (s.counter (cuXTR + 6) + s.tierCount q) % counterMod (cuXTR + 6)) ∧
  (∀ (s : State) (q : Nat), takeRecord (s.tier q) ≠ none → ∃ t, exec (.tierReadFail q false) s = .next t ∧
    t.stands pgXTR 0 = true ∧ t.counter (cuXTR + 6) = (s.counter (cuXTR + 6) + 1) % counterMod (cuXTR + 6)) ∧
  (∀ (s : State) (g : Nat) (w0 w1 w2 w3 : Word), Ready s pgXTR → g % 65536 ≠ 0 → s.segInUse (g % 65536) = false →
    ∃ t, exec (.xtrSegmentWrite g w0 w1 w2 w3) s = .next t ∧ t.segValid (g % 65536) = w0.getLsbD 0 ∧
      ∀ k, k < 4 → t.tw pgXTR 0 (g % 65536) k = [w0, w1, w2, w3].getD k 0#32 &&& BitVec.ofNat 32 (tableMask .xtr 0 k)) ∧
  (∀ (s : State) (g : Nat) (w0 w1 w2 w3 : Word), Ready s pgXTR → g % 65536 = 0 →
    exec (.xtrSegmentWrite g w0 w1 w2 w3) s = .next (s.ignored pgXTR 0x020 1)))

/-- An audit whose equations all balance changes nothing; an imbalance of A1 is marked, and raised once a second; a sweep
starts, ends, is counted and raised, and returns the cells that it and the sweep before it have found unmarked; a clear
takes the failures away. (Rests on R349 to R351.) (The model's own choices in it: log entry 66.) -/
def Obligations.AuditsRun : Prop :=
  (∀ s : State, s.auditA1 = 0 → s.auditA2 = 0 → s.auditA4 = 0 → s.auditA5 = 0 → s.auditA6Up = 0 → s.auditA6Down = 0 →
    (∀ l, l < 3 → s.auditA7 l 0 = 0 ∧ s.auditA7 l 1 = 0) → s.auditA8 .a = 0 → s.auditA8 .b = 0 → s.auditA9 = 0 → s.sto.a7Failed = [] → exec .auditEval s = .next s) ∧
  (∀ s : State, s.alive pgSTO = true → s.auditA1 ≠ 0 →
    ∃ t, exec .auditEval s = .next t ∧ (t.fld pgSTO STO.auditStatusFailed).testBit 0 = true ∧
      (Sparse.get 0 s.sto.auditRaised 1 = 0 → t.stands pgSTO 1 = true)) ∧
  (∀ s : State, s.alive pgSTO = true → exec .auditSweepStart s = .next (s.setFld pgSTO STO.sweepStatusSweeping 1)) ∧
  (∀ s : State, s.flag pgSTO STO.sweepStatusSweeping = true →
    ∃ t, exec .auditSweepDone s = .next t ∧ t.flag pgSTO STO.sweepStatusSweeping = false ∧ t.stands pgSTO 5 = true ∧
      t.sto.unmarked = s.unmarkedCells.filter (fun c => !s.sto.unmarked.contains c) ∧
      t.counter (cuSTO + 6) = (s.counter (cuSTO + 6) +
        (s.unmarkedCells.filter (fun c => s.sto.unmarked.contains c)).length) % counterMod (cuSTO + 6) ∧
      t.counter (cuSTO + 7) = (s.counter (cuSTO + 7) + 1) % counterMod (cuSTO + 7)) ∧
  (∀ s : State, s.flag pgSTO STO.sweepStatusSweeping = false → exec .auditSweepDone s = .next s) ∧
  (∀ s : State, Ready s pgSTO → exec .auditStatusClear s = .next (s.setFld pgSTO STO.auditStatusFailed 0))

/-- A clear protected fragment passes line security as a whole frame; a secured one passes where its tag holds and is
dropped and counted where it does not; a contained context drops; another slot in force at a frame start takes over the
context, with GCM mode, and with none in force the context has none. (Rests on R230, R357, R362, R363, R383.) (The model's
own choices in it: log entry 91.) -/
def Obligations.FragmentsSecured : Prop :=
  (∀ (s : State) (r : Rx), s.linePassed r = none → exec (.lsecDecrypt r) s = .next s) ∧
  (∀ (s : State) (r : Rx) (f : LineFrag) (c : Nat), s.linePassed r = some f → f.head.prot = true → f.cells = [] →
    c = downCtx (rxTree r) f.head.tenant → s.ctxContained c = true →
    ∃ t, exec (.lsecDecrypt r) s = .next t ∧ t.dual.passed = s.dual.passed.erase f ∧ t.cls = s.cls ∧
      t.counter (cuLSEC + 7) = (s.counter (cuLSEC + 7) + 1) % counterMod (cuLSEC + 7) ∧
      t.counter (cuCtx c + 1) = (s.counter (cuCtx c + 1) + 1) % counterMod (cuCtx c + 1)) ∧
  (∀ (s : State) (r : Rx) (f : LineFrag) (c : Nat), s.linePassed r = some f → f.head.prot = true →
    c = downCtx (rxTree r) f.head.tenant → s.ctxContained c = false → s.ctxGcm c = false →
    ∃ t g, exec (.lsecDecrypt r) s = .next t ∧ t.dual.passed = s.dual.passed.erase f ∧ t.cls.handed = s.cls.handed ++ [g] ∧
      g.bytes = f.payload ∧ g.tenant = f.head.tenant ∧ g.srcKind = 1 ∧ g.srcNum = rxIx r ∧
      g.service = f.head.service ∧ t.counter (cuCtx c) = (s.counter (cuCtx c) + 1) % counterMod (cuCtx c)) ∧
  (∀ (s : State) (r : Rx) (f : LineFrag) (c k : Nat), s.linePassed r = some f → f.head.prot = true →
    c = downCtx (rxTree r) f.head.tenant → s.ctxContained c = false → s.ctxGcm c = true → s.works pgLSEC = true →
    s.slotFor c f.fc = some k → 25 ≤ f.payload.length → s.replayed c k (fieldAt f.payload 0 8) = false →
    ∃ t, exec (.lsecDecrypt r) s = .next t ∧ t.dual.passed = s.dual.passed.erase f ∧
      (∀ pt, gcmOpen (s.slotKey c k) (s.slotSalt c k ++ natBE 8 (fieldAt f.payload 0 8)) (fragAad f.hdr (fieldAt f.payload 0 8))
          ((f.payload.drop 8).take (f.payload.length - 24)) (f.payload.drop (f.payload.length - 16)) = some pt →
        (∃ g, t.cls.handed = s.cls.handed ++ [g] ∧ g.bytes = pt) ∧
        t.slotPn c k = max (fieldAt f.payload 0 8) (s.slotPn c k) ∧
        t.counter cuLSEC = (s.counter cuLSEC + 1) % counterMod cuLSEC) ∧
      (gcmOpen (s.slotKey c k) (s.slotSalt c k ++ natBE 8 (fieldAt f.payload 0 8)) (fragAad f.hdr (fieldAt f.payload 0 8))
          ((f.payload.drop 8).take (f.payload.length - 24)) (f.payload.drop (f.payload.length - 16)) = none →
        t.cls.handed = s.cls.handed ∧ t.slotPn c k = s.slotPn c k ∧
        t.counter (cuLSEC + 5) = (s.counter (cuLSEC + 5) + 1) % counterMod (cuLSEC + 5))) ∧
  (∀ (s : State) (c : Nat), s.controlRx (if c % 1024 < 512 then .a else .b) = none → exec (.keySwitch c) s = .next s) ∧
  (∀ (s : State) (c k : Nat) (tr : Tree), tr = (if c % 1024 < 512 then Tree.a else .b) → s.controlRx tr ≠ none →
    s.slotFor (c % 1024) (s.treeFc tr) = some k → s.selector (c % 1024) ≠ k →
    ∃ t, exec (.keySwitch c) s = .next t ∧ t.selector (c % 1024) = k ∧ t.ctxGcm (c % 1024) = true ∧
      t.tw pgLSEC 0 (c % 1024) 1 = BitVec.ofNat 32 (s.treeFc tr) ∧
      t.counter (cuLSEC + 8) = (s.counter (cuLSEC + 8) + 1) % counterMod (cuLSEC + 8)) ∧
  (∀ (s : State) (c k : Nat) (tr : Tree), tr = (if c % 1024 < 512 then Tree.a else .b) → s.controlRx tr ≠ none →
    s.slotFor (c % 1024) (s.treeFc tr) = some k → s.selector (c % 1024) = k → exec (.keySwitch c) s = .next s) ∧
  (∀ (s : State) (c : Nat) (tr : Tree), tr = (if c % 1024 < 512 then Tree.a else .b) → s.controlRx tr ≠ none →
    s.slotFor (c % 1024) (s.treeFc tr) = none → s.selector (c % 1024) ≠ 3 →
    exec (.keySwitch c) s = .next (s.setSelector (c % 1024) 3))

/-- A hash job started in a free slot is queued or runs, ends as done where it is final and as suspended where it is not;
one out of shared SRAM ends with error 6; an abort ends a job with error 9; a suspended job's context is exported, or its
export refused; a record that is none is not imported. A commit erases the slot that is not active and makes it active
with the next generation once it reads back as written; the VKEEP warning refuses one, and a busy keystore or a disabled
page ignores one; a key generation ends with its key pair. (Rests on R373, R374, R376, R386, R381, R382, R388.) (The
model's own choices in it: log entries 6, 46.) -/
def Obligations.KeysAndJobsRun : Prop :=
  ((∀ (s : State) (n k : Nat), Ready s pgCCRY → k = n % 8 → s.jobState k = 0 ∨ s.jobState k = 4 ∨ s.jobState k = 5 →
    s.jobOp k = 7 → s.jobKeystore k = false →
    ∃ t, exec (.ccryStart n) s = .next t ∧
      (s.jobInRange k = true → t.jobState k = 1 ∨ t.jobState k = 2) ∧
      (s.jobInRange k = true → s.works pgCCRY = false → t.jobState k = 1) ∧
      (s.jobInRange k = false → t.jobState k = 5 ∧ t.tf pgCCRY 0 k 6 15 8 = 6 ∧ t.stands pgCCRY 1 = true)) ∧
  (∀ (s : State) (n : Nat), Ready s pgCCRY → s.jobState (n % 8) = 1 ∨ s.jobState (n % 8) = 2 →
    exec (.ccryStart n) s = .next s) ∧
  (∀ (s : State) (n k : Nat), Ready s pgCCRY → k = n % 8 → 1 ≤ s.jobState k → s.jobState k ≤ 3 →
    ∃ t, exec (.ccryAbort n) s = .next t ∧ t.jobState k = 5 ∧ t.tf pgCCRY 0 k 6 15 8 = 9 ∧ t.stands pgCCRY 1 = true) ∧
  (∀ (s : State) (n k : Nat), Ready s pgCCRY → k = n % 8 → s.jobState k = 3 → (s.job k).keystore = false →
    opKeyed (s.job k).op = false →
    ∃ t, exec (.ccryExport n false) s = .next t ∧ t = { s with sram := t.sram, cnt := t.cnt } ∧
      t.counter (cuCCRY + 3) = (s.counter (cuCCRY + 3) + 1) % counterMod (cuCCRY + 3)) ∧
  (∀ (s : State) (n k : Nat), Ready s pgCCRY → k = n % 8 → s.jobState k = 3 →
    ((s.job k).keystore = true → ∃ t, exec (.ccryExport n false) s = .next t ∧ t.jobState k = 3 ∧ t.tf pgCCRY 0 k 6 15 8 = 8 ∧
      t.stands pgCCRY 1 = true ∧ t.sram = s.sram) ∧
    (s.flag pgCCRY CCRY.statusKeystoreReady = false → ∃ t, exec (.ccryExport n true) s = .next t ∧ t.jobState k = 3 ∧
      t.tf pgCCRY 0 k 6 15 8 = 5 ∧ t.stands pgCCRY 1 = true ∧ t.sram = s.sram)) ∧
  (∀ (s : State) (n : Nat) (w : Bool), Ready s pgCCRY → s.jobState (n % 8) ≠ 3 → exec (.ccryExport n w) s = .next s) ∧
  (∀ (s : State) (n k : Nat), Ready s pgCCRY → k = n % 8 → s.jobState k = 0 ∨ s.jobState k = 4 ∨ s.jobState k = 5 →
    (byteAt (s.sramBytes s.xferAddr 8) 6).testBit 0 = false →
    ∃ t, exec (.ccryImport n) s = .next t ∧
      (fieldAt (s.sramBytes s.xferAddr 8) 0 4 = 0x54435458 → byteAt (s.sramBytes s.xferAddr 8) 4 = 1 → t.jobState k = 3 ∧
        (t.job k).op = byteAt (s.sramBytes s.xferAddr 8) 5 ∧
        t.counter (cuCCRY + 4) = (s.counter (cuCCRY + 4) + 1) % counterMod (cuCCRY + 4)) ∧
      (fieldAt (s.sramBytes s.xferAddr 8) 0 4 ≠ 0x54435458 → t.jobState k = 5 ∧ t.tf pgCCRY 0 k 6 15 8 = 7)) ∧
  (∀ (s : State) (n k : Nat), k = n % 8 → s.jobState k = 2 → (s.job k).op = 7 →
    ∃ t, exec (.ccryJobDone n) s = .next t ∧
      (s.jobFinal k = false → t.jobState k = 3) ∧
      (s.jobFinal k = true → t.jobState k = 4 ∧ t.stands pgCCRY 0 = true ∧
        t.counter cuCCRY = (s.counter cuCCRY + 1) % counterMod cuCCRY)) ∧
  (∀ (s : State) (n : Nat), s.jobState (n % 8) ≠ 2 → exec (.ccryJobDone n) s = .next s)) ∧
  ((∀ s : State, Ready s pgKST → s.enabled pgKST = true → s.flag pgSUP SUP.statusVkeepWarning = false → s.kst.job = 0 →
    ∃ t, exec .kstCommit s = .next t ∧ t.kst.job = 1 ∧ t.flag pgKST KST.statusBusy = true ∧ t.kstSlot s.kstTarget = [] ∧
      t.kstSlot (1 - s.kstTarget) = s.kstSlot (1 - s.kstTarget) ∧ t.kstActive = s.kstActive) ∧
  (∀ s : State, Ready s pgKST → s.enabled pgKST = true → s.flag pgSUP SUP.statusVkeepWarning = true →
    ∃ t, exec .kstCommit s = .next t ∧ t.fld pgKST KST.statusLastResult = 4 ∧ t.kst = s.kst ∧
      t.counter (cuKST + 2) = (s.counter (cuKST + 2) + 1) % counterMod (cuKST + 2)) ∧
  (∀ s : State, Ready s pgKST → s.enabled pgKST = false ∨ (s.flag pgSUP SUP.statusVkeepWarning = false ∧ s.kst.job ≠ 0) →
    exec .kstCommit s = .next (s.ignored pgKST 0x038 1)) ∧
  (∀ s : State, s.kst.job = 1 → s.flag pgSUP SUP.statusVkeepWarning = false →
    (∃ t, exec (.kstCommitDone true) s = .next t ∧ t.kst.job = 0 ∧ t.kstActive = some s.kstTarget ∧
      t.reg pgKST 0x034 = s.reg pgKST 0x034 + 1#32 ∧ t.fld pgKST KST.statusLastResult = 1 ∧ t.stands pgKST 0 = true ∧
      t.counter cuKST = (s.counter cuKST + 1) % counterMod cuKST) ∧
    (∃ t, exec (.kstCommitDone false) s = .next t ∧ t.kst.job = 0 ∧ t.kstActive = s.kstActive ∧
      t.fld pgKST KST.statusLastResult = 2 ∧ t.stands pgKST 1 = true ∧
      t.counter (cuKST + 1) = (s.counter (cuKST + 1) + 1) % counterMod (cuKST + 1))) ∧
  (∀ (s : State) (ok : Bool), s.kst.job ≠ 1 → exec (.kstCommitDone ok) s = .next s) ∧
  (∀ s : State, Ready s pgKST → s.enabled pgKST = true → s.kst.job = 0 →
    ∃ t, exec .kstGenkey s = .next t ∧ t.kst.job = 2 ∧ t.flag pgKST KST.statusBusy = true ∧ t.tables = s.tables) ∧
  (∀ s : State, s.kst.job = 2 →
    ∃ t, exec .kstGenkeyDone s = .next t ∧ t.kst.job = 0 ∧ t.flag pgKST KST.statusBusy = false ∧ t.stands pgKST 5 = true) ∧
  (∀ s : State, s.kst.job ≠ 2 → exec .kstGenkeyDone s = .next s))

/-- A host time waits for its receiver's next frame start and is then the counter's value; the host binding can be
cleared; enabling starts a latency measurement, whose end shows; the 1PPS output rises on its second while time is valid,
and falls once its width has passed; a copy whose launch entry comes within its lead is eligible. (Rests on R397, R398,
R403, R404, R409, R411.) (The model's own choices in it: log entry 44.) -/
def Obligations.TimeKept : Prop :=
  (∀ (s : State) (r : Rx), Ready s pgTIME → s.hostReceiver = some r →
    exec .timeSetCmd s = .next { s with time := { s.time with setPending := true } }) ∧
  (∀ s : State, Ready s pgTIME → s.hostReceiver = none → exec .timeSetCmd s = .next (s.ignored pgTIME 0x068 1)) ∧
  (∀ (s : State) (r : Rx), s.time.setPending = false ∨ s.works pgTIME = false ∨ s.hostReceiver ≠ some r →
    exec (.timeSetApply r) s = .next s) ∧
  (∀ (s : State) (r : Rx), s.time.setPending = true → s.works pgTIME = true → s.hostReceiver = some r →
    s.frontContributes .a = false → s.frontContributes .b = false → s.time.acquired = false →
    ∃ t, exec (.timeSetApply r) s = .next t ∧ t.time.setPending = false ∧ t.time.acquired = true ∧
      t.time.val = s.timeSetValue % timeMod) ∧
  (∀ s : State, Ready s pgTIME →
    ∃ t, exec .timeClearHost s = .next t ∧ t.time.host = none ∧ t.flag pgTIME TIME.statusHostBound = false) ∧
  (∀ s : State, Ready s pgTIME → s.enabled pgTIME = false →
    ∃ t, exec .timeEnable s = .next t ∧ t.enabled pgTIME = true ∧ t.time.calibrating = true) ∧
  (∀ s : State, s.time.calibrating = true → s.works pgTIME = true →
    ∃ t, exec .timeCalDone s = .next t ∧ t.flag pgTIME TIME.statusCalDone = true ∧ t.time.calibrating = false ∧
      t = { s with rf := t.rf, time := t.time }) ∧
  (∀ s : State, s.time.calibrating = false ∨ s.works pgTIME = false → exec .timeCalDone s = .next s) ∧
  (∀ s : State, Ready s pgTIME → s.enabled pgTIME = true →
    ∃ t, exec .timeDisable s = .next t ∧ t.flag pgTIME TIME.statusCalDone = false ∧ t.time.pps = false ∧
      t.time.calibrating = false) ∧
  (∀ s : State, s.works pgTIME = true → s.timeValid = true → s.ppsDue = true →
    s.flag pgTIME TIME.cfgPpsEnable = true →
    ∃ t, exec .ppsEdge s = .next t ∧ t.time.pps = true ∧ t.ppsDue = false ∧ t = { s with time := t.time, cnt := t.cnt } ∧
      t.counter (cuTIME + 12) = (s.counter (cuTIME + 12) + 1) % counterMod (cuTIME + 12)) ∧
  (∀ s : State, s.timeValid = false ∨ s.ppsDue = false → exec .ppsEdge s = .next s) ∧
  (∀ s : State, s.time.pps = true → s.time.ppsAt + s.ppsWidth ≤ s.now →
    ∃ t, exec .ppsFall s = .next t ∧ t.time.pps = false ∧ t = { s with time := t.time }) ∧
  (∀ s : State, s.time.pps = false ∨ s.now < s.time.ppsAt + s.ppsWidth → exec .ppsFall s = .next s) ∧
  (∀ (s : State) (p tag : Nat), tag < 256 → s.works pgTIME = true → s.timeValid = true → s.launchDue (256 * p + tag) = true →
    (p, tag) ∉ s.time.eligible →
    exec (.launchEligible p tag) s = .next { s with time := { s.time with eligible := s.time.eligible ++ [(p, tag)] } })

/-- A port's configuration takes its written value unless it changes what an enabled port may not change; a lane's CDR
lock follows its events; its pattern checker locks on levels that fit the pattern, counts the bits and errors that it
checks, and loses lock on more than 64 errors of a window; a link comes up once it has negotiated, on lanes of its own
that are locked, adapted and unblocked, is shown and raised, and falls with a count; a FOM window ends with its value; the
equalizer adapts fully and then takes its steps; a bit error is injected. (Rests on R417, R418, R421 to R425, R427, R430
to R432.) (The model's own choices in it: log entry 62.) -/
def Obligations.PortsAndLanes : Prop :=
  (∀ (s : State) (p : Nat) (acc : Access) (r : RegInfo), p < 16 → Ready s (pgUNIQ p) → acc.be = 15#4 →
    regInfo (pgUNIQ p) (0x030 + 0x20 * (p % 4)) = some r → (∀ k, k < 16 → s.pflag k UNIQ.portCfgEnable = false) →
    ∃ t, exec (.portCfgWrite p acc) s = .next t ∧
      t.reg (pgUNIQ p) (0x030 + 0x20 * (p % 4)) = s.writeValue (pgUNIQ p) (0x030 + 0x20 * (p % 4)) acc r) ∧
  (∀ (s : State) (p : Nat) (acc : Access) (r : RegInfo), p < 16 → Ready s (pgUNIQ p) → acc.be = 15#4 →
    regInfo (pgUNIQ p) (0x030 + 0x20 * (p % 4)) = some r → s.pflag p UNIQ.portCfgEnable = true →
    (s.reg (pgUNIQ p) (0x030 + 0x20 * (p % 4)) ^^^ s.writeValue (pgUNIQ p) (0x030 + 0x20 * (p % 4)) acc r) &&& 0xFE#32 ≠ 0#32 →
    exec (.portCfgWrite p acc) s = .next (s.ignored (pgUNIQ p) (0x030 + 0x20 * (p % 4)) 1)) ∧
  (∀ (s : State) (p : Nat), p < 16 → s.portOn p = true → s.backplane p = true → s.pflag p UNIQ.portCfgAnEnable = true →
    s.portLink p = false → ∃ t, exec (.anFailed p) s = .next t ∧ t.stands (pgUNIQ p) 12 = true) ∧
  (∀ (s : State) (l : Nat), l < 16 → s.laneWorks l = true →
    ∃ t, exec (.cdrLock l) s = .next t ∧ t.cdrLock l = true ∧ t.tb pgLANE 1 l 0 0 = true ∧
      t = { s with rf := t.rf, tables := t.tables, uni := t.uni }) ∧
  (∀ (s : State) (l : Nat), l < 16 → s.laneWorks l = true → s.cdrLock l = true →
    ∃ t, exec (.cdrLockLost l) s = .next t ∧ t.cdrLock l = false ∧ (s.mayRaise pgLANE 0 = true → t.stands pgLANE 0 = true)) ∧
  (∀ (s : State) (p : Nat) (up : LinkUpInfo), p < 16 → s.portOn p = true → s.lanesWork p = true → s.laneBlocked p = false →
    s.portLink p = false → (s.backplane p = true → s.pflag p UNIQ.portCfgAnEnable = true → up.anDone = true) →
    (∀ l ∈ s.portLanes p, s.cdrLock l = true ∧ s.adapting l = false) → s.ownLanes p (up.lanes.map Prod.fst) = true →
    ∃ t, exec (.linkUp p up) s = .next t ∧ t.portLink p = true ∧ t.stands (pgUNIQ p) (p % 4) = true ∧ t.pflag p UNIQ.portStatusPcsLock = true ∧
      t.pflag p UNIQ.portStatusLocalFault = false) ∧
  (∀ (s : State) (p : Nat) (up : LinkUpInfo), p < 16 → s.ownLanes p (up.lanes.map Prod.fst) = false ∨
      (s.backplane p = true ∧ s.pflag p UNIQ.portCfgAnEnable = true ∧ up.anDone = false) →
    exec (.linkUp p up) s = .next s) ∧
  (∀ (s : State) (p : Nat), p < 16 → s.portLink p = true →
    ∃ t, exec (.linkDown p) s = .next t ∧ t.portLink p = false ∧ t.pflag p UNIQ.portStatusLocalFault = true ∧
      t.stands (pgUNIQ p) (4 + p % 4) = true ∧ t.counter (cuPort p + 15) = (s.counter (cuPort p + 15) + 1) % counterMod (cuPort p + 15)) ∧
  (∀ (s : State) (p : Nat), p < 16 → s.portLink p = false → exec (.linkDown p) s = .next s) ∧
  (∀ (s : State) (l fom : Nat), l < 16 → s.laneWorks l = true →
    ∃ t, exec (.laneFomWindow l fom) s = .next t ∧ t.tf pgLANE 1 l 1 15 0 = min fom 10240 ∧
      t.tf pgLANE 1 l 1 31 16 = unsigned 16 ((min fom 10240 : Nat) - (s.fld pgLANE LANE.fomRefRef : Int))) ∧
  (∀ (s : State) (l : Nat), l < 16 → s.laneWorks l = true → s.cdrLock l = true → s.laneCfg l 3 3 = 0 → s.laneQuiet l = false →
    s.adapting l = false → Sparse.get 0 s.uni.eqLast l = 0 →
    ∃ t, exec (.laneAdapt l) s = .next t ∧ Sparse.get 0 t.uni.eqSteps l = Sparse.get 0 s.uni.eqSteps l + 1 ∧
      t = { s with uni := t.uni }) ∧
  (∀ (s : State) (l : Nat), l < 16 → s.laneWorks l = true → s.cdrLock l = true → s.laneQuiet l = false →
    s.adapting l = true →
    ∃ t, exec (.laneAdapt l) s = .next t ∧ Sparse.get 0 t.uni.eqSteps l = Sparse.get 0 s.lehr.laneStart l + 1 ∧
      t.adapting l = false ∧ t.tb pgLANE 1 l 0 3 = false ∧ t = { s with uni := t.uni, tables := t.tables }) ∧
  (∀ (s : State) (l : Nat) (levels : List Int) (k : Checker) (x : Checker × Nat × Nat × Bool), l < 16 → s.laneWorks l = true →
    s.prbsLock l = false → checkerLock (s.laneCheck l) (s.seenLevels l levels) = some k →
    x = k.run (s.laneCheck l) ((s.seenLevels l levels).drop (lockLevels (s.laneCheck l))) →
    ∃ t, exec (.prbsLock l levels) s = .next t ∧ t.prbsLock l = !x.2.2.2 ∧ t.tb pgLANE 1 l 0 2 = !x.2.2.2 ∧
      (s.mayRaise pgLANE 1 = true → t.stands pgLANE 1 = true) ∧
      t.counter (cuLANE + 2 * l) = (s.counter (cuLANE + 2 * l) + x.2.1) % counterMod (cuLANE + 2 * l) ∧
      t.counter (cuLANE + 2 * l + 1) = (s.counter (cuLANE + 2 * l + 1) + x.2.2.1) % counterMod (cuLANE + 2 * l + 1) ∧
      (∀ e w, e < 16 → w < 4 → e ≠ l ∨ (w ≠ 0 ∧ w ≠ 3) → t.tw pgLANE 1 e w = s.tw pgLANE 1 e w)) ∧
  (∀ (s : State) (l : Nat) (levels : List Int), l < 16 → s.prbsLock l = false →
    checkerLock (s.laneCheck l) (s.seenLevels l levels) = none → exec (.prbsLock l levels) s = .next s) ∧
  (∀ (s : State) (l : Nat) (levels : List Int) (x : Checker × Nat × Nat × Bool), l < 16 → s.laneWorks l = true →
    s.prbsLock l = true → x = (Sparse.get {} s.uni.checkers l).run (s.laneCheck l) (s.seenLevels l levels) →
    ∃ t, exec (.prbsLockLost l levels) s = .next t ∧ t.prbsLock l = !x.2.2.2 ∧
      (x.2.2.2 = true → s.mayRaise pgLANE 2 = true → t.stands pgLANE 2 = true) ∧
      t.tw pgLANE 1 l 3 = BitVec.ofNat 32 (min 0xFFFFFFFF ((s.tw pgLANE 1 l 3).toNat + x.2.2.1)) ∧
      t.counter (cuLANE + 2 * l) = (s.counter (cuLANE + 2 * l) + x.2.1) % counterMod (cuLANE + 2 * l) ∧
      t.counter (cuLANE + 2 * l + 1) = (s.counter (cuLANE + 2 * l + 1) + x.2.2.1) % counterMod (cuLANE + 2 * l + 1)) ∧
  (∀ (s : State) (l : Nat), l < 16 → s.laneWorks l = true → s.laneCheck l ≠ 0 → s.prbsLock l = false → s.laneCfg l 1 1 = 0 →
    ∃ t, exec (.prbsInvert l) s = .next t ∧ t.tf pgLANE 1 l 0 1 1 = 1 - s.tf pgLANE 1 l 0 1 1 ∧
      t = { s with tables := t.tables }) ∧
  (∀ (s : State) (l : Nat), l < 16 → Ready s pgLANE → s.laneWorks l = true →
    exec (.laneInject l) s = .next { s with out := .laneError l (s.laneSource l) (s.laneCfg l 0 0 == 1) 0 :: s.out }) ∧
  (∀ (s : State) (l : Nat), l < 16 → s.laneWorks l = true → s.laneCfg l 18 14 ≠ 0 →
    exec (.laneInjectPeriodic l) s =
      .next { s with out := .laneError l (s.laneSource l) (s.laneCfg l 0 0 == 1) (injectEvery (s.laneCfg l 18 14)) :: s.out })

/-- What a MAC does with a frame: a good one is handed to the classifier and counted, a short one and one on a port that
is off are only counted, one with an FCS error or an uncorrectable codeword is handed on as errored and counted apart;
PAUSE stops every class, and frees them once its time has passed; an XOFF is sent again at half its quanta while the held
bytes call for it, at the next frame boundary; LPI is entered, left and shown; a remote fault is shown. (Rests on R422,
R434 to R439.) (The model's own choices in it: log entries 16, 61.) -/
def Obligations.MacsReceive : Prop :=
  (∀ (s : State) (p : Nat) (bs : Bytes) (e : Bool) (c u : Nat), p < 16 → s.portLooped p = false → s.portOn p = false →
    exec (.uniFrameReceive p bs e c u) s = .next (s.count (cuPort p + 16))) ∧
  (∀ (s : State) (p : Nat) (bs : Bytes) (e : Bool) (c u : Nat), p < 16 → s.portLooped p = false → s.portOn p = true →
    bs.length + 4 < 64 → exec (.uniFrameReceive p bs e c u) s =
      .next (((s.countBy (cuPort p + 10) c).countBy (cuPort p + 11) u).count (cuPort p + 5))) ∧
  (∀ (s : State) (p n : Nat) (bs : Bytes), p < 16 → s.portLooped p = false → s.portOn p = true → 64 ≤ bs.length + 4 →
    bs.length + 4 ≤ s.maxLen p →
    fieldAt bs 12 2 ≠ 0x8808 →
    (∃ t g, exec (.uniFrameReceive p bs false n 0) s = .next t ∧ t.cls.handed = s.cls.handed ++ [g] ∧ g.bytes = bs ∧
      g.srcKind = 0 ∧ g.srcNum = p ∧
      t.counter (cuPort p + 10) = (s.counter (cuPort p + 10) + n) % counterMod (cuPort p + 10) ∧ t.counter (cuPort p) = (s.counter (cuPort p) + 1) % counterMod (cuPort p)) ∧
    (0 < n → ∃ t g, exec (.uniFrameReceive p bs false 0 n) s = .next t ∧ t.cls.handed = s.cls.handed ++ [g] ∧ g.bytes = bs ∧
      g.id ∈ t.uni.errored ∧ t.counter (cuPort p + 7) = (s.counter (cuPort p + 7) + 1) % counterMod (cuPort p + 7) ∧
      t.counter (cuPort p + 11) = (s.counter (cuPort p + 11) + n) % counterMod (cuPort p + 11)) ∧
    (∃ t g, exec (.uniFrameReceive p bs true n 0) s = .next t ∧ t.cls.handed = s.cls.handed ++ [g] ∧ g.bytes = bs ∧
      t.counter (cuPort p + 4) = (s.counter (cuPort p + 4) + 1) % counterMod (cuPort p + 4) ∧
      t.counter (cuPort p) = s.counter (cuPort p))) ∧
  (∀ (s : State) (p : Nat) (bs : Bytes), p < 16 → s.portLooped p = false → s.portOn p = true → fieldAt bs 14 2 = 1 → s.fcMode p = 1 →
    ∃ t, exec (.pauseReceive p bs) s = .next t ∧ t.pf p UNIQ.portStatusPausedRx = (if fieldAt bs 16 2 = 0 then 0 else 255) ∧
      t.counter (cuPort p + 8) = (s.counter (cuPort p + 8) + 1) % counterMod (cuPort p + 8)) ∧
  (∀ (s : State) (p : Nat) (bs : Bytes), p < 16 → s.portLooped p = false → s.portOn p = false →
    exec (.pauseReceive p bs) s = .next (s.count (cuPort p + 16))) ∧
  (∀ (s : State) (p : Nat) (bs : Bytes), p < 16 → s.portLooped p = false → s.portOn p = true → s.fcMode p = 0 →
    exec (.pauseReceive p bs) s = .next (s.count (cuPort p + 17))) ∧
  (∀ (s : State) (p : Nat) (bs : Bytes), p < 16 → s.portLooped p = true → exec (.pauseReceive p bs) s = .next s) ∧
  (∀ (s : State) (p n : Nat), p < 16 → n < 8 → s.now < Sparse.get 0 s.uni.pauseUntil (8 * p + n) →
    exec (.pauseExpire p n) s = .next s) ∧
  (∀ (s : State) (p n : Nat), p < 16 → n < 8 → Sparse.get 0 s.uni.pauseUntil (8 * p + n) ≤ s.now →
    ∃ t, exec (.pauseExpire p n) s = .next t ∧ (t.pf p UNIQ.portStatusPausedRx).testBit n = false ∧
      (s.fcMode p = 1 → t.pf p UNIQ.portStatusPausedRx = 0) ∧ t = { s with rf := t.rf }) ∧
  (∀ (s : State) (p n : Nat), p < 16 → n < 8 → s.fcMode p = 2 → s.pauses p n = true →
    (s.pf p UNIQ.portStatusXoffTx).testBit n = true → s.uni.ctrl = [] → 16 * s.xonMark p n ≤ s.heldCells p n →
    2 * Sparse.get 0 s.uni.ctrlAt (8 * p + n) + s.quantaSym p (s.pf p UNIQ.portFcQuanta) ≤ 2 * s.now →
    ∃ t, exec (.pfcRefresh p n) s = .next t ∧
      ((s.sendingOn p).isSome = true → t.out = s.out ∧ t.uni.ctrl = [(p, n, true)]) ∧
      (s.sendingOn p = none → s.pins p = [] → t.out = .uniPause p (some n) (s.pf p UNIQ.portFcQuanta) :: s.out ∧
        t.counter (cuPort p + 9) = (s.counter (cuPort p + 9) + 1) % counterMod (cuPort p + 9))) ∧
  (∀ (s : State) (p n : Nat), p < 16 → s.fcMode p = 0 → exec (.pfcRefresh p n) s = .next s) ∧
  (∀ (s : State) (p : Nat), p < 16 → s.lpiAllowed p = true → s.pflag p UNIQ.portStatusLpiTx = false → s.sendingOn p = none →
    s.uni.ctrl.any (fun x => x.1 == p) = false → (s.queuesWith (ofPort p)).any (s.downEligible p) = false →
    ∃ t, exec (.lpiEnter p) s = .next t ∧ t.pflag p UNIQ.portStatusLpiTx = true ∧
      t.counter (cuPort p + 12) = (s.counter (cuPort p + 12) + 1) % counterMod (cuPort p + 12)) ∧
  (∀ (s : State) (p : Nat), p < 16 → exec (.lpiExit p) s = .next (s.setPf p UNIQ.portStatusLpiTx 0)) ∧
  (∀ (s : State) (p : Nat) (on : Bool), p < 16 →
    exec (.remoteFault p on) s = .next (s.setPf p UNIQ.portStatusRemoteFault (b2n on))) ∧
  (∀ (s : State) (p : Nat) (on : Bool), p < 16 →
    ∃ t, exec (.lpiRx p on) s = .next t ∧ t.pflag p UNIQ.portStatusLpiRx = on ∧
      (on = true → s.pflag p UNIQ.portStatusLpiRx = false →
        t.counter (cuPort p + 13) = (s.counter (cuPort p + 13) + 1) % counterMod (cuPort p + 13)))

/-- PERST# holds region Host in reset and its release trains the link; a configuration write takes effect on a function
that exists and on no other; an unmasked vector is unmasked; a function reset ends with its rings and its reset mark gone;
L1 is entered and left; a wake cause is latched, sent by PM_PME and cleared. (Rests on R449, R450, R453, R455, R456, R459,
R466, R467, R469, R471.) (The model's own choices in it: log entries 86, 137.) -/
def Obligations.FunctionsConfigured : Prop :=
  (∀ s : State, s.padOpen 43 = false → s.hif.perst = false → ∃ t, exec .perstAssert s = .next t ∧ t.hif.perst = true ∧ t.region 5 ≠ 0) ∧
  (∀ s : State, s.hif.perst = true → exec .perstAssert s = .next s) ∧
  (∀ (s : State) (strap : Bool), s.padOpen 43 = false → s.hif.perst = true →
    ∃ t, exec (.perstDeassert strap) s = .next t ∧ t.hif.perst = false ∧ t.flag pgHIF HIF.formForm = strap ∧ t.pmState = 5) ∧
  (∀ (s : State) (f : Nat) (w : CfgWrite), f < 256 → s.fnExists f = false ∨ s.hif.perst = true →
    exec (.pcieConfigWrite f w) s = .next s) ∧
  (∀ (s : State) (f : Nat) (on m : Bool), f < 256 → s.fnExists f = true → s.hif.perst = false →
    (∃ t, exec (.pcieConfigWrite f (.busMaster on)) s = .next t ∧ (t.fn f).busMaster = on) ∧
    exec (.pcieConfigWrite f (.power on)) s = .next (s.modFn f (fun x => { x with d3 := on })) ∧
    (∃ t, exec (.pcieConfigWrite f (.msix on m)) s = .next t ∧ (t.fn f).msixEnable = on ∧ (t.fn f).fnMask = m) ∧
    exec (.pcieConfigWrite f (.pmeEn on)) s = .next (s.modFn f (fun x => { x with pmeEn := on })) ∧
    (∃ t, exec (.pcieConfigWrite f .pmeStatusClear) s = .next t ∧ (t.fn f).pmeStatus = false) ∧
    exec (.pcieConfigWrite f (.widthDisable on)) s = .next { s with hif := { s.hif with widthDisable := on } } ∧
    exec (.pcieConfigWrite f (.aspmL1 on)) s = .next { s with hif := { s.hif with aspmL1 := on } }) ∧
  (∀ (s : State) (f u c : Nat), f < 256 → s.fnExists f = true → s.hif.perst = false →
    ∃ t, exec (.pcieConfigWrite f (.aerClear u c)) s = .next t ∧ t = { s with hif := t.hif } ∧
      (∀ b, (t.fn f).aerUnc.testBit b = ((s.fn f).aerUnc.testBit b && !u.testBit b)) ∧
      (∀ b, (t.fn f).aerCor.testBit b = ((s.fn f).aerCor.testBit b && !c.testBit b))) ∧
  (∀ (s : State) (f n a : Nat), f < 256 → s.fnExists f = true → s.hif.perst = false →
    ∃ t, exec (.pcieConfigWrite f (.bar n a)) s = .next t ∧ t = { s with hif := t.hif } ∧ (f ≠ 0 → t = s) ∧
      (f = 0 → n = 0 → t.hif.pfBar0 = a % 2 ^ 64 / pageBarSize * pageBarSize)) ∧
  (∀ (s : State) (on : Bool) (n : Nat), s.hif.perst = false → s.hif.vfEnable = false →
    exec (.pcieConfigWrite 0 (.vf on n)) s = .next { s with hif := { s.hif with vfEnable := on, numVfs := min n 255 } }) ∧
  (∀ (s : State) (f : Nat), f < 256 → s.windowOpen f = true →
    (∃ t, exec (.msixUnmask f none) s = .next t ∧ (t.fn f).fnMask = false) ∧
    (∀ v, v < 2048 → ∃ t, exec (.msixUnmask f (some v)) s = .next t ∧ (t.msixWord f v 3).getLsbD 0 = false)) ∧
  (∀ (s : State) (f : Nat), f < 256 → s.fnExists f = true → s.hif.perst = false →
    ∃ t, exec (.functionLevelReset f) s = .next t ∧ (t.fn f).flr = true ∧ t.stands pgDSCH 1 = true ∧
      t.counter (cuHIF + 9) = (s.counter (cuHIF + 9) + 1) % counterMod (cuHIF + 9) ∧ (f = 0 → t.hif.vfEnable = false)) ∧
  (∀ (s : State) (f : Nat), f < 256 → (s.fn f).flr = true →
    ∃ t, exec (.flrComplete f) s = .next t ∧ (t.fn f).flr = false ∧ (t.fn f).busMaster = false ∧
      ∀ rx k, k < 32 → t.ring f rx k = {}) ∧
  (∀ (s : State) (f : Nat), f < 256 → (s.fn f).flr = false → exec (.flrComplete f) s = .next s) ∧
  (∀ (s : State) (f : Nat), f < 256 → s.windowOpen f = true →
    exec (.funcStatusClear f) s = .next (s.modFn f (fun x => { x with ignored := 0 }))) ∧
  (∀ (s : State) (idle : Nat), s.hif.aspmL1 = true → s.inL0 = true → max 1 (s.fld pgHIF HIF.aspmL1Idle) ≤ idle →
    ∃ t, exec (.l1Entry idle) s = .next t ∧ t.out = .l1 true (s.reg pgHIF 0x040) :: s.out ∧ 1 ≤ t.pmState ∧ t.pmState ≤ 3 ∧
      (s.clkreqKept = true → t.pmState = 1)) ∧
  (∀ (s : State) (idle : Nat), s.hif.aspmL1 = false ∨ s.inL0 = false → exec (.l1Entry idle) s = .next s) ∧
  (∀ s : State, 1 ≤ s.pmState → s.pmState ≤ 3 →
    ∃ t, exec .l1Exit s = .next t ∧ t.pmState = 0 ∧ t.out = .l1 false 0#32 :: s.out) ∧
  (∀ (s : State) (f : Nat), ∃ t, exec (.wakeCauseLatch 2 f) s = .next t ∧ t.flag pgHIF ⟨0x044, 2, 2⟩ = true ∧
    (t.fn 0).pmeStatus = true) ∧
  (∀ (s : State) (c f : Nat), c < 2 → f < 256 → (s.fn f).pmeEn = true → (s.fn f).d3 = true →
    ∃ t, exec (.wakeCauseLatch c f) s = .next t ∧ t.flag pgHIF ⟨0x044, c, c⟩ = true ∧ (t.fn f).pmeStatus = true) ∧
  (∀ (s : State) (c f : Nat), c < 2 → f < 256 → (s.fn f).pmeEn = false → exec (.wakeCauseLatch c f) s = .next s) ∧
  (∀ s : State, s.inL0 = true →
    ∃ t, exec .pmeSend s = .next t ∧ (∀ f, (t.fn f).pmeStatus = true → (t.fn f).pmeSent = true) ∧
      ((∀ x ∈ s.hif.latched, s.fnExists x.2 = true → (s.fn x.2).pmeStatus = true) →
        t.flag pgHIF HIF.wakeCauseWakeAsserted = false)) ∧
  (∀ (s : State) (bits : Nat), Ready s pgHIF →
    ∃ t, exec (.wakeCauseClear bits) s = .next t ∧
      (∀ b, b < 3 → t.flag pgHIF ⟨0x044, b, b⟩ = (s.flag pgHIF ⟨0x044, b, b⟩ && !bits.testBit b)) ∧
      t.hif.latched = s.hif.latched.filter (fun x => !bits.testBit x.1) ∧
      (∀ p off, regKey p off ≠ regKey pgHIF 0x044 → t.reg p off = s.reg p off) ∧ t = { s with rf := t.rf, hif := t.hif })

/-- A transmit ring's frame of legal length starts, a posted one of a ring that drains is aborted and counted, its last
segment hands it to the classifier, and a read that faults ends it with its cause; a disabled ring drains, and is disabled
with its head at its tail once nothing of it is outstanding; a stopped ring is restarted or skips its frame; a received
copy is written and counted; a message held back is sent as its interval ends. (Rests on R457, R460 to R462, R464, R465.)
(The model's own choices in it: log entries 58, 64.) -/
def Obligations.RingsRun : Prop :=
  (∀ (s : State) (f k tail : Nat) (rx : Bool), f < 256 → k < 32 → tail < 65536 → s.ringOpen f rx k = true →
    ∃ t, exec (.ringTailWrite f rx k tail) s = .next t ∧ t.rg f rx k RING.tailTail = tail) ∧
  (∀ (s : State) (f k : Nat) (rx : Bool), f < 256 → k < 32 → s.ringOpen f rx k = true → s.rg f rx k RING.ctrlState ≠ 0 →
    ∃ t, exec (.ringDisable f rx k) s = .next t ∧ t.rg f rx k RING.ctrlState = 3 ∧
      ((s.ring f rx k).job = none → t.rg f rx k RING.cfgEnable = 0)) ∧
  (∀ (s : State) (f k : Nat) (rx : Bool), f < 256 → k < 32 → s.rg f rx k RING.ctrlState = 3 → s.ringBusy f rx k = false →
    ∃ t, exec (.ringDrained f rx k) s = .next t ∧ t.rg f rx k RING.headHead = s.rg f rx k RING.tailTail ∧
      (s.rg f rx k RING.cfgEnable = 0 → t.rg f rx k RING.ctrlState = 0)) ∧
  (∀ (s : State) (f k : Nat) (j : TxJob), f < 256 → k < 32 → s.ringOpen f false k = true → s.rg f false k RING.ctrlState = 2 →
    (s.ring f false k).stopped = some j →
    (∃ t, exec (.ringRestart f k) s = .next t ∧ t.rg f false k RING.ctrlState = 1 ∧ (t.ring f false k).stopped = none) ∧
    (∃ t, exec (.ringSkip f k) s = .next t ∧ t.rg f false k RING.ctrlState = 1 ∧ (t.ring f false k).stopped = none ∧
      t.rg f false k RING.headHead = (s.rg f false k RING.headHead + j.entries.length) % s.rgSize f false k)) ∧
  (∀ (s : State) (f k : Nat) (es : List Bytes), f < 256 → k < 32 → s.txReady f k = false →
    s.txDraining f k = false → exec (.dmaTxFrame f k es) s = .next s) ∧
  (∀ (s : State) (f k : Nat) (es : List Bytes) (fr : List TxEntry), f < 256 → k < 32 →
    s.txReady f k = true → parseTx ((es.map txEntry).take (s.rgPosted f false k)) = .frame fr → 14 ≤ txLength fr → txLength fr + 4 ≤ s.fld pgSWC SWC.mtuMtu →
    ∃ t, exec (.dmaTxFrame f k es) s = .next t ∧ (t.ring f false k).job = some { entries := fr } ∧ t.rf = s.rf) ∧
  (∀ (s : State) (f k : Nat) (es : List Bytes) (fr : List TxEntry), f < 256 → k < 32 → s.txDraining f k = true →
    parseTx ((es.map txEntry).take (s.rgPosted f false k)) = .frame fr →
    ∃ t, exec (.dmaTxFrame f k es) s = .next t ∧ (t.ring f false k).job = none ∧
      t.counter (cuDMA + 5) = (s.counter (cuDMA + 5) + 1) % counterMod (cuDMA + 5)) ∧
  (∀ (s : State) (f k : Nat) (j : TxJob) (e : TxEntry) (x : Frame) (bs : Bytes), f < 256 → k < 32 →
    (s.ring f false k).job = some j → j.admitted = true → j.seg + 1 = j.entries.length → j.entries[j.seg]? = some e →
    s.frame j.id = some x → cellsOf (j.bytes ++ bs.take e.len).length ≤ x.cells.length →
    ∃ t g, exec (.dmaSegComplete f k (.data bs)) s = .next t ∧ (t.ring f false k).job = none ∧
      t.cls.handed = s.cls.handed ++ [g] ∧ g.id = j.id ∧ g.srcKind = 2 ∧ g.tenant = f ∧
      (60 ≤ (j.bytes ++ bs.take e.len).length → g.bytes = j.bytes ++ bs.take e.len)) ∧
  (∀ (s : State) (f k : Nat) (j : TxJob) (c : Nat), f < 256 → k < 32 → c < 8 → (s.ring f false k).job = some j →
    (∃ t, exec (.dmaSegComplete f k (.fault c)) s = .next t ∧ (t.ring f false k).job = none ∧
      t.fld pgDMA DMA.faultLastCause = c ∧ t.counter (cuDMA + 2) = (s.counter (cuDMA + 2) + 1) % counterMod (cuDMA + 2)) ∧
    (∃ t, exec (.completionTimeout f k) s = .next t ∧ (t.ring f false k).job = none ∧ t.fld pgDMA DMA.faultLastCause = 4)) ∧
  (∀ (s : State) (f k : Nat) (c : SegCompletion), f < 256 → k < 32 → (s.ring f false k).job = none →
    exec (.dmaSegComplete f k c) s = .next s ∧ exec (.completionTimeout f k) s = .next s) ∧
  (∀ (s : State) (f cls : Nat) (bufs : List Bytes) (c : Copy), f < 256 → cls < 16 → s.sendingOn (handKey f cls) = some c →
    s.fnEnabled f = true → s.frameBad c.frame = false → s.hostRoomIn [1, 3] f c.hash c.length = true →
    ∃ t, exec (.dmaRxWrite f cls bufs) s = .next t ∧ t.sendingOn (handKey f cls) = none ∧
      t.counter (cuDSCH + 1) = (s.counter (cuDSCH + 1) + 1) % counterMod (cuDSCH + 1)) ∧
  (∀ (s : State) (f k : Nat) (rx : Bool), f < 256 → k < 32 → (s.ring f rx k).interval = false →
    exec (.msixModeration f rx k) s = .next s) ∧
  (∀ (s : State) (f k : Nat) (rx : Bool), f < 256 → k < 32 → (s.ring f rx k).interval = true →
    ∃ t, exec (.msixModeration f rx k) s = .next t ∧ (t.ring f rx k).held = false ∧
      (t.ring f rx k).interval = (s.ring f rx k).held)

/-- A width change that is due is asked for once, and a withdrawn one is raised and asked for again; the host link falls
and trains, to a width and rate of its form, with a count and an event each; the CXL root enumerates when HIF is enabled
in form 1 and shows what it found, or what failed; its link falls with a count and an event. (Rests on R470, R472, R473,
R475 to R478.) (The model's own choices in it: log entries 63, 137.) -/
def Obligations.HostLinksTrain : Prop :=
  (∀ (s : State) (u ms : Nat), s.mayNarrow = true → s.hif.narrowing = false → s.widthDue u ms = true →
    ∃ t, exec (.narrowRequest u ms) s = .next t ∧ t.hif.narrowing = true ∧
      t.out = .widthRequest (if s.hif.narrowed then 0 else s.narrowLanes) :: s.out ∧
      t.counter (cuHIF + 3) = (s.counter (cuHIF + 3) + 1) % counterMod (cuHIF + 3)) ∧
  (∀ (s : State) (u ms : Nat), s.mayNarrow = false ∨ s.widthDue u ms = false →
    exec (.narrowRequest u ms) s = .next s ∧ exec (.narrowRetry u ms) s = .next s) ∧
  (∀ (s : State) (w r : Nat), s.hif.narrowing = true → s.trains w r = true →
    ∃ t, exec (.narrowWithdraw w r) s = .next t ∧ t.hif.narrowing = false ∧ t.hif.retryDue = true ∧ t.stands pgHIF 4 = true ∧
      t.fld pgHIF HIF.linkStatusWidth = w ∧ t.fld pgHIF HIF.linkStatusSpeed = r) ∧
  (∀ (s : State) (w r : Nat), s.hif.narrowing = false ∨ s.trains w r = false → exec (.narrowWithdraw w r) s = .next s) ∧
  (∀ (s : State) (u ms : Nat), s.hif.retryDue = true → s.mayNarrow = true → s.widthDue u ms = true →
    ∃ t, exec (.narrowRetry u ms) s = .next t ∧
      t.out = .widthRequest (if s.hif.narrowed then 0 else s.narrowLanes) :: s.out ∧ t.hif.narrowing = true ∧ t.hif.retryDue = false) ∧
  (∀ s : State, Ready s pgHIF → s.enabled pgHIF = false →
    ∃ t, exec .cxlEnumerate s = .next t ∧ t.enabled pgHIF = true ∧
      (s.flag pgHIF HIF.formForm = true → t.hif.enumerating = true ∧ t.hif.cxlPerst = false) ∧
      (s.flag pgHIF HIF.formForm = false → t.hif = s.hif)) ∧
  (∀ (s : State) (res cap sp w : Nat), s.hif.enumerating = true → res ≠ 1 ∨ cxlTrains sp w = true →
    ∃ t, exec (.cxlEnumDone res cap sp w) s = .next t ∧
      (res = 1 → t.flag pgHIF HIF.cxlStatusLinkUp = true ∧ t.fld pgHIF HIF.cxlCapCapacity = cap % 2 ^ 32 ∧
        t.flag pgXTR XTR.statusCxlUp = true ∧ t.stands pgHIF 10 = true ∧ t.hif.enumerating = false) ∧
      (res = 4 → t.fld pgHIF HIF.cxlCapCapacity = cap % 2 ^ 32) ∧
      (res ≠ 1 → t.flag pgHIF HIF.cxlStatusLinkUp = false ∧ t.stands pgHIF 12 = true)) ∧
  (∀ (s : State) (res cap sp w : Nat), s.hif.enumerating = false ∨ (res = 1 ∧ cxlTrains sp w = false) → exec (.cxlEnumDone res cap sp w) s = .next s) ∧
  (∀ s : State, s.flag pgHIF HIF.cxlStatusLinkUp = true →
    ∃ t, exec .cxlLinkDown s = .next t ∧ t.flag pgHIF HIF.cxlStatusLinkUp = false ∧ t.stands pgHIF 11 = true ∧
      t.counter (cuHIF + 14) = (s.counter (cuHIF + 14) + 1) % counterMod (cuHIF + 14)) ∧
  (∀ (s : State) (l2 : Bool), ∃ t, exec (.pcieLinkDown l2) s = .next t ∧ t.pmState = (if l2 then 4 else 6) ∧
    t.flag pgHIF HIF.linkStatusDlUp = false ∧
    (s.flag pgHIF HIF.linkStatusDlUp = true → t.stands pgHIF 1 = true ∧
      t.counter cuHIF = (s.counter cuHIF + 1) % counterMod cuHIF) ∧
    (s.flag pgHIF HIF.linkStatusDlUp = false → t.counter cuHIF = s.counter cuHIF)) ∧
  (∀ (s : State) (w r n : Nat), s.hif.perst = false → s.trains w r = true →
    ∃ t, exec (.pcieRecovery w r n) s = .next t ∧ t.flag pgHIF HIF.linkStatusDlUp = true ∧ t.pmState = 0 ∧
      t.fld pgHIF HIF.linkStatusWidth = w ∧ t.fld pgHIF HIF.linkStatusSpeed = r ∧
      t.counter (cuHIF + 12) = (s.counter (cuHIF + 12) + n) % counterMod (cuHIF + 12) ∧
      (s.flag pgHIF HIF.linkStatusDlUp = false → t.stands pgHIF 0 = true) ∧
      (s.flag pgHIF HIF.linkStatusDlUp = true →
        t.counter (cuHIF + 1) = (s.counter (cuHIF + 1) + 1) % counterMod (cuHIF + 1))) ∧
  (∀ (s : State) (w r n : Nat), s.hif.perst = true ∨ s.trains w r = false → exec (.pcieRecovery w r n) s = .next s) ∧
  (∀ s : State, exec .cxlDeviceError s = .next (s.count (cuHIF + 15)))

/-- A ready task that pre-empts and is the best for an idle core starts on it, with the flags it waited for cleared and
shown to it; another fills a slot, with its image in the core's local SRAM, and starts from there; a pre-empting task of a
better priority takes a running task's core, and that task resumes when it ends; a core sets another task's flag; a task
releases its flow, and one that names a second is trapped; a timer whose period has passed counts and, where it is
one-shot, stops; a task ready too long is counted as late once; TSK_SET sets a flag of a task that admits it, and counts
as refused otherwise. (Rests on R484 to R491.) (The model's own choices in it: log entries 67, 69, 141.) -/
def Obligations.TasksScheduled : Prop :=
  (∀ (s : State) (c k : Nat), c < 16 → k < 1024 → s.dispatching = true → s.coreUp c = true → (s.coreRun c).run = none →
    (s.coreRun c).slots = [] → s.bestFor c s.taskPreempts = some k →
    ∃ t, exec (.taskDispatch c k) s = .next t ∧ t.taskState k = 3 ∧
      (t.coreRun c).run = some ⟨k, s.tw pgTSK 1 k 0 &&& s.tw pgTSK 0 k 1, s.now⟩ ∧ (t.coreRun c).kick = s.now ∧
      t.tw pgTSK 1 k 0 = s.tw pgTSK 1 k 0 &&& ~~~ s.tw pgTSK 0 k 1 ∧
      t.counter cuTSK = (s.counter cuTSK + 1) % counterMod cuTSK) ∧
  (∀ (s : State) (c k : Nat), c < 16 → k < 1024 → s.dispatching = true → s.coreUp c = true → (s.coreRun c).run = none →
    (s.coreRun c).slots.any (fun y => y.task == k) = true → s.taskWaitHolds k = true → s.tb pgTSK 0 k 0 0 = true →
    s.flowBlocked k = false →
    ∃ t, exec (.taskDispatch c k) s = .next t ∧ t.taskState k = 3 ∧
      (t.coreRun c).run = some ⟨k, s.tw pgTSK 1 k 0 &&& s.tw pgTSK 0 k 1, s.now⟩ ∧
      (t.coreRun c).slots = (s.coreRun c).slots.filter (fun y => y.task ≠ k) ∧
      t.counter cuTSK = (s.counter cuTSK + 1) % counterMod cuTSK) ∧
  (∀ (s : State) (c k : Nat), c < 16 → k < 1024 →
    s.dispatching = false ∨ s.coreFree c = false ∨ (s.coreRun c).run.isSome = true →
    exec (.taskDispatch c k) s = .next s) ∧
  (∀ (s : State) (c k : Nat), c < 16 → k < 1024 → s.dispatching = true → s.clusterOn c = true →
    s.bestFor c (fun r => !s.taskPreempts r) = some k → s.slotChoice k = some c →
    ∃ t, exec (.slotPrefetch c k) s = .next t ∧ t.taskState k = 2 ∧
      t.coreRun c = { s.coreRun c with slots := (s.coreRun c).slots ++ [⟨k, (s.coreRun c).freeArea⟩] } ∧
      t.core.lsram = (s.putLocal c (slotPlace (s.coreRun c).freeArea) (s.slotImage k)).core.lsram ∧
      t.rf = s.rf ∧ t.cnt = s.cnt) ∧
  (∀ (s : State) (c k : Nat) (r : TaskRun), c < 16 → k < 1024 → s.dispatching = true → s.coreUp c = true →
    (s.coreRun c).run = some r → (s.coreRun c).stack.length < 4 → s.taskPriority k < s.taskPriority r.task →
    s.bestFor c s.taskPreempts = some k →
    ∃ t, exec (.taskPreempt c k) s = .next t ∧ ((t.coreRun c).run.map TaskRun.task) = some k ∧
      (t.coreRun c).stack = r :: (s.coreRun c).stack ∧ (t.coreRun c).slots = (s.coreRun c).slots ∧
      t.counter (cuTSK + 1) = (s.counter (cuTSK + 1) + 1) % counterMod (cuTSK + 1)) ∧
  (∀ (s : State) (c : Nat) (r : TaskRun), c < 16 → s.coreUp c = true → (s.coreRun c).run = some r →
    ∃ t, exec (.taskEnd c) s = .next t ∧
      t.coreRun c = { s.coreRun c with run := (s.coreRun c).stack.head?, stack := (s.coreRun c).stack.tail } ∧
      t.tw pgTSK 1 r.task 3 = BitVec.ofNat 32 (min 0xFFFFFFFF ((s.now - r.since) / symPerUs)) ∧ t.rf = s.rf ∧ t.sram = s.sram) ∧
  (∀ (s : State) (c : Nat), c < 16 → (s.coreRun c).run = none → exec (.taskEnd c) s = .next s) ∧
  (∀ (s : State) (c k b : Nat), c < 16 → k < 1024 → b < 32 → s.coreUp c = true →
    ∃ t, exec (.taskSetflag c k b) s = .next t ∧ t.tw pgTSK 1 k 0 = s.tw pgTSK 1 k 0 ||| (1#32 <<< b) ∧ t.rf = s.rf) ∧
  (∀ (s : State) (c fl g : Nat) (r : TaskRun), c < 16 → fl < 65536 → s.coreUp c = true → (s.coreRun c).run = some r →
    s.heldFlow r.task = some g →
    (∃ t, exec (.taskFlow c fl false) s = .next t ∧ Sparse.get none t.core.flows g = none ∧ t.rf = s.rf) ∧
    (g < 65536 → exec (.taskFlow c g true) s = .next s) ∧
    (fl ≠ g → ∃ t, exec (.taskFlow c fl true) s = .next t ∧ t.coreRun c = { s.coreRun c with user := false } ∧
      t.core.flows = s.core.flows ∧
      t.counter (cuCORE + 4 * c + 2) = (s.counter (cuCORE + 4 * c + 2) + 1) % counterMod (cuCORE + 4 * c + 2))) ∧
  (∀ (s : State) (k : Nat), k < 16 → s.alive pgTSK = true → s.tb pgTSK 3 k 0 25 = true →
    s.timerEnd k ≤ s.now →
    ∃ t, exec (.tskTimerExpire k) s = .next t ∧ Sparse.get 0 t.tsk.timers k = s.timerEnd k ∧
      t.tb pgTSK 3 k 0 25 = s.tb pgTSK 3 k 0 24 ∧
      t.counter (cuTSK + 7) = (s.counter (cuTSK + 7) + 1) % counterMod (cuTSK + 7) ∧ t.rf = s.rf) ∧
  (∀ (s : State) (k : Nat), k < 16 → s.tb pgTSK 3 k 0 25 = false ∨ s.now < s.timerEnd k → exec (.tskTimerExpire k) s = .next s) ∧
  (∀ (s : State) (k b : Nat), k < 1024 → b < 32 → Ready s pgTSK →
    (s.tb pgTSK 0 k 0 6 = true → ∃ t, exec (.tskSet k b) s = .next t ∧
      t.tw pgTSK 1 k 0 = s.tw pgTSK 1 k 0 ||| (1#32 <<< b) ∧
      t.counter (cuTSK + 4) = (s.counter (cuTSK + 4) + 1) % counterMod (cuTSK + 4) ∧ t.rf = s.rf) ∧
    (s.tb pgTSK 0 k 0 6 = false →
      exec (.tskSet k b) s = .next ((s.count (cuTSK + 5)).ignored pgTSK 0x038 1))) ∧
  (∀ (s : State) (k : Nat), k < 1024 → s.fld pgTSK TSK.cfgLateUs ≠ 0 → s.tsk.ready.contains k = true →
    s.tsk.late.contains k = false → Sparse.get 0 s.tsk.since k + s.fld pgTSK TSK.cfgLateUs * symPerUs ≤ s.now →
    ∃ t, exec (.dispatchLate k) s = .next t ∧ (s.mayRaise pgTSK 0 = true → t.stands pgTSK 0 = true) ∧
      t.counter (cuTSK + 6) = (s.counter (cuTSK + 6) + 1) % counterMod (cuTSK + 6)) ∧
  (∀ (s : State) (k : Nat), k < 1024 → s.fld pgTSK TSK.cfgLateUs = 0 ∨ s.tsk.late.contains k = true ∨
      s.now < Sparse.get 0 s.tsk.since k + s.fld pgTSK TSK.cfgLateUs * symPerUs →
    exec (.dispatchLate k) s = .next s)

/-- A core restarts its own watchdog; a watchdog that expires on a running task contains the core, counts and raises;
contained cores of a mask are released and no other; an uncorrectable word of local SRAM, and an access that the memory
map or the PMP does not allow, traps the core with its cause; a corrected one is counted; a core ring takes a new tail.
(Rests on R481 to R483, R494, R496.) (The model's own choices in it: log entries 69, 139.) -/
def Obligations.CoresWatched : Prop :=
  (∀ (s : State) (c : Nat), c < 16 → s.coreUp c = true →
    exec (.wdogKick c) s = .next (s.modCoreRun c (fun x => { x with kick := s.now }))) ∧
  (∀ (s : State) (c : Nat), c < 16 → s.coreUp c = false → exec (.wdogKick c) s = .next s) ∧
  (∀ (s : State) (c : Nat), c < 16 → s.coreUp c = true → s.fld pgCORE CORE.wdogTimeout ≠ 0 →
    (s.coreRun c).run.isSome = true → (s.coreRun c).kick + s.fld pgCORE CORE.wdogTimeout * symPerMs ≤ s.now →
    ∃ t, exec (.watchdogExpire c) s = .next t ∧ t.unitContained pgCORE (c + 1) = true ∧ t.stands pgCORE 0 = true ∧
      t.counter (cuCORE + 4 * c + 3) = (s.counter (cuCORE + 4 * c + 3) + 1) % counterMod (cuCORE + 4 * c + 3)) ∧
  (∀ (s : State) (c : Nat), c < 16 → s.coreUp c = false ∨ s.fld pgCORE CORE.wdogTimeout = 0 ∨
      (s.coreRun c).run = none ∨ s.now < (s.coreRun c).kick + s.fld pgCORE CORE.wdogTimeout * symPerMs →
    exec (.watchdogExpire c) s = .next s) ∧
  (∀ (s : State) (mask : Nat), mask < 65536 → Ready s pgCORE →
    ∃ t, exec (.coreRelease mask) s = .next t ∧
      (∀ c, c < 16 → t.unitContained pgCORE (c + 1) = (s.unitContained pgCORE (c + 1) && !mask.testBit c)) ∧
      (∀ p u, p ≠ pgCORE → u < 65536 → t.unitContained p u = s.unitContained p u) ∧
      t.cnt.live = s.cnt.live ∧ t = { s with rel := t.rel, cnt := t.cnt }) ∧
  (∀ (s : State) (c cause addr : Nat), c < 16 → s.coreUp c = true →
    ∃ t, exec (.sramUncorrectable c (.uncorrectable cause addr)) s = .next t ∧ t.tf pgCORE 0 c 3 7 0 = cause % 256 ∧
      t.tw pgCORE 0 c 4 = BitVec.ofNat 32 addr ∧ (s.mayRaise pgCORE 1 = true → t.stands pgCORE 1 = true) ∧
      t.counter (cuCORE + 4 * c + 2) = (s.counter (cuCORE + 4 * c + 2) + 1) % counterMod (cuCORE + 4 * c + 2)) ∧
  (∀ (s : State) (c : Nat), c < 16 → s.coreUp c = true →
    ∃ t, exec (.sramUncorrectable c .corrected) s = .next t ∧
      t.tw pgCORE 0 c 7 = BitVec.ofNat 32 (min 0xFFFFFFFF ((s.tw pgCORE 0 c 7).toNat + 1)) ∧
      t = { s with tables := t.tables }) ∧
  (∀ (s : State) (c addr : Nat) (use : CoreUse), c < 16 → s.coreUp c = true →
    (s.coreMay c use addr = true → exec (.sramUncorrectable c (.access use addr)) s = .next s) ∧
    (s.coreMay c use addr = false → ∃ t, exec (.sramUncorrectable c (.access use addr)) s = .next t ∧
      t.tf pgCORE 0 c 3 7 0 = faultCause use ∧ t.tw pgCORE 0 c 4 = BitVec.ofNat 32 addr ∧ (t.coreRun c).user = false ∧
      t.counter (cuCORE + 4 * c + 2) = (s.counter (cuCORE + 4 * c + 2) + 1) % counterMod (cuCORE + 4 * c + 2))) ∧
  (∀ (s : State) (c : Nat) (what : CoreAccess), c < 16 → s.coreUp c = false → exec (.sramUncorrectable c what) s = .next s) ∧
  (∀ (s : State) (k tail : Nat), k < 4 → tail < 65536 → s.dark pgCORE = false →
    ∃ t, exec (.coreRingTail k tail) s = .next t ∧ t.tf pgCORE 1 k 2 15 0 = tail) ∧
  (∀ (s : State) (k tail : Nat), s.dark pgCORE = true → exec (.coreRingTail k tail) s = .next (s.darkAccess pgCORE true))

/-- A read, a program or a page load of the core window starts where the controller is idle, and past the flash in use is
refused; the host window's read, and a command that is none, is refused, counted and recorded; an erase writes its journal
entry and starts, and one under a VKEEP warning ends with result 4 and touches nothing; a read that ends puts the flash's
bytes into shared SRAM; an erase that ends leaves its sector erased, or fails its blank check with result 3; an operation
that fails ends with result 2. (Rests on R497 to R500, R508, R510, R511.) (The model's own choices in it: log entries 10,
51, 71.) -/
def Obligations.FlashRuns : Prop :=
  (∀ s : State, Ready s pgFLSH → s.works pgFLSH = true → s.flsh.waiting = [] → s.flsh.cur = none → s.flsh.erase = none →
    s.fld (corePage pgFLSH) FLSH.addrAddr < flashSize →
    s.fld (corePage pgFLSH) FLSH.addrAddr + s.fld (corePage pgFLSH) FLSH.lenLen ≤ flashSize →
    (∃ t, exec (.flashRead .core) s = .next t ∧
        t.flsh.cur = some { win := .core, op := 1, fromStage := false, addr := s.fld (corePage pgFLSH) FLSH.addrAddr,
                            len := s.fld (corePage pgFLSH) FLSH.lenLen, sram := s.fld (corePage pgFLSH) FLSH.sramSram } ∧
        t.flsh.mem = s.flsh.mem ∧ t = { s with flsh := t.flsh }) ∧
    (∃ t, exec (.pageLoad .core) s = .next t ∧
        t.flsh.cur = some { win := .core, op := 4, fromStage := false, addr := s.fld (corePage pgFLSH) FLSH.addrAddr,
                            len := s.fld (corePage pgFLSH) FLSH.lenLen, sram := s.fld (corePage pgFLSH) FLSH.sramSram } ∧
        t.flsh.mem = s.flsh.mem ∧ t = { s with flsh := t.flsh }) ∧
    (∀ st, ∃ t, exec (.flashProgram .core st) s = .next t ∧
        t.flsh.cur = some { win := .core, op := 2, fromStage := st, addr := s.fld (corePage pgFLSH) FLSH.addrAddr,
                            len := (if st then min 4096 (s.fld (corePage pgFLSH) FLSH.lenLen)
                              else s.fld (corePage pgFLSH) FLSH.lenLen) / 256 * 256,
                            sram := s.fld (corePage pgFLSH) FLSH.sramSram } ∧
        t.flsh.mem = s.flsh.mem ∧ t = { s with flsh := t.flsh }) ∧
    exec (.flashRead .host) s = .next (((s.count (cuFLSH + 11)).setFlashResult .host 7).ignored pgFLSH 0x038 1) ∧
    exec (.pageLoad .host) s = .next (((s.count (cuFLSH + 11)).setFlashResult .host 7).ignored pgFLSH 0x038 1) ∧
    exec (.flashProgram .host false) s =
      .next (((s.count (cuFLSH + 11)).setFlashResult .host 7).ignored pgFLSH 0x038 1) ∧
    (s.flag pgSUP SUP.statusVkeepWarning = false → s.journalSlot.1 ≠ none →
      ∃ t, exec (.flashErase .core) s = .next t ∧
        t.flsh.erase = some { win := .core, op := 3, fromStage := false, addr := s.fld (corePage pgFLSH) FLSH.addrAddr,
                              len := s.fld (corePage pgFLSH) FLSH.lenLen, sram := s.fld (corePage pgFLSH) FLSH.sramSram } ∧
        t.counter (cuFLSH + 9) = (s.counter (cuFLSH + 9) + 1) % counterMod (cuFLSH + 9) ∧ t.rf = s.rf ∧ t.sram = s.sram ∧
        (∀ a, a / sectorSize ≠ s.fld (corePage pgFLSH) FLSH.addrAddr / sectorSize → t.flashByte a = s.flashByte a)) ∧
    (s.flag pgSUP SUP.statusVkeepWarning = true →
      ∃ t, exec (.flashErase .core) s = .next t ∧ t.flashResult .core = 4 ∧ t.flsh.mem = s.flsh.mem ∧
        t.flsh.journal = s.flsh.journal ∧ t.flsh.erase = none ∧ t.stands pgFLSH 1 = true ∧
        t.counter (cuFLSH + 10) = (s.counter (cuFLSH + 10) + 1) % counterMod (cuFLSH + 10))) ∧
  (∀ s : State, Ready s pgFLSH → s.works pgFLSH = true → s.flashBusy .core = false →
    flashSize ≤ s.fld (corePage pgFLSH) FLSH.addrAddr →
    exec (.flashRead .core) s = .next ((s.setFlashResult .core 7).ignored pgFLSH 0x038 1) ∧
    exec (.flashErase .core) s = .next ((s.setFlashResult .core 7).ignored pgFLSH 0x038 1)) ∧
  (∀ (s : State) (v : Word), Ready s pgFLSH → s.works pgFLSH = true → v ∈ [5#32, 6#32, 7#32] →
    exec (.registerWrite pgFLSH 0x038 (cmdAccess v) none) s = .next ((s.count (cuFLSH + 11)).ignored pgFLSH 0x038 1)) ∧
  (∀ (s : State) (c : FlashCmd), s.flsh.cur = some c → s.flsh.waiting = [] →
    (∃ t, exec (.flashOpDone false) s = .next t ∧ t.flashResult c.win = 2 ∧ t.flsh.cur = none ∧ t.flsh.mem = s.flsh.mem ∧
      t.stands pgFLSH 1 = true ∧ t.sram = s.sram) ∧
    (c.op = 1 → ∃ t, exec (.flashOpDone true) s = .next t ∧ t.flashResult c.win = 1 ∧ t.flsh.cur = none ∧
      t.flsh.mem = s.flsh.mem ∧ t.stands pgFLSH 0 = true ∧ t.sram = (s.putSram c.sram (s.flashBytes c.addr c.len)).sram ∧
      t.counter cuFLSH = (s.counter cuFLSH + 1) % counterMod cuFLSH ∧
      t.counter (cuFLSH + 12) = (s.counter (cuFLSH + 12) + c.len) % counterMod (cuFLSH + 12))) ∧
  (∀ (s : State) (ok : Bool), s.flsh.cur = none → exec (.flashOpDone ok) s = .next s) ∧
  (∀ (s : State) (c : FlashCmd), s.flsh.erase = some c → s.flsh.suspended = false → s.flsh.waiting = [] →
    (∃ t, exec (.flashEraseDone true) s = .next t ∧ t.flsh.erase = none ∧ t.flashResult c.win = 1 ∧ t.stands pgFLSH 0 = true ∧
      (∀ a, t.flashByte a = if a / sectorSize = c.addr / sectorSize then 0xFF#8 else s.flashByte a) ∧
      t.counter (cuFLSH + 2) = (s.counter (cuFLSH + 2) + 1) % counterMod (cuFLSH + 2)) ∧
    (∃ t, exec (.flashEraseDone false) s = .next t ∧ t.flsh.erase = none ∧ t.flashResult c.win = 3 ∧
      t.stands pgFLSH 1 = true ∧ t.flsh.mem = s.flsh.mem ∧ t.flsh.journal = s.flsh.journal)) ∧
  (∀ (s : State) (b : Bool), s.flsh.erase = none ∨ s.flsh.suspended = true → exec (.flashEraseDone b) s = .next s)

/-- A boot puts the flash into octal mode and starts half 0, where it loads an image, with half 1 held; with no valid
image and no open erase it leaves core 0 in the ROM with result 7; a confirmed boot is no trial; a retry with no valid
image fails again. The Punty transfer goes from armed through loading, ready and committed to its flip, at which the other
half is active and the old half is held; it aborts with its cause from every state between, and the loading half is held.
(Rests on R505, R506, R516 to R518.) (The model's own choices in it: log entries 47, 70, 115, 147.) -/
def Obligations.BootAndPuntyRun : Prop :=
  ((∀ (s : State) (sus : Bool) (bad : List Nat), s.region 6 ≠ 0 → exec (.boot sus bad) s = .next s) ∧
  (∀ (s : State) (sus : Bool) (bad : List Nat), s.region 6 = 0 →
    ∃ t, exec (.boot sus bad) s = .next t ∧ t.core.held1 = true ∧ t.core.held0 = t.core.noImage ∧ t.flsh.octal = true ∧
      t.activeHalf = 0 ∧ t.puntyState = 0 ∧ t.core.flows = [] ∧
      (s.openEntries = [] → (∀ n, n < 3 → s.manifestValid n = false) →
        t.fld pgFLSH FLSH.bootResult = 7 ∧ t.core.noImage = true ∧ t.core.cores = [])) ∧
  (∀ s : State, Ready s pgFLSH →
    ∃ t, exec .bootConfirm s = .next t ∧ t.flag pgFLSH FLSH.bootTrial = false ∧ t.fld pgFLSH FLSH.bootTrialCount = 0 ∧
      t.flsh = s.flsh ∧ t.core = s.core) ∧
  (∀ s : State, Ready s pgFLSH → s.core.noImage = true → (∀ n, n < 3 → s.manifestValid n = false) →
    ∃ t, exec .bootRetry s = .next t ∧ t.fld pgFLSH FLSH.bootResult = 7 ∧ t.core.noImage = true ∧ t.flsh = s.flsh) ∧
  (∀ s : State, Ready s pgFLSH → s.core.noImage = false → exec .bootRetry s = .next s)) ∧
  ((∀ (s : State) (h : Nat), Ready s pgCORE →
    (s.puntyState = 0 ∨ 5 ≤ s.puntyState → ∃ t, exec (.puntyArm h) s = .next t ∧ t.puntyState = 1 ∧
      t.fld pgCORE CORE.handoverHandover = h % 2 ^ 23 ∧ t.fld pgCORE CORE.puntyAbortCause = 0 ∧ t.core.parison = none) ∧
    (1 ≤ s.puntyState → s.puntyState < 5 → exec (.puntyArm h) s = .next s)) ∧
  (∀ s : State, s.puntyState = 1 → s.halfRuns (1 - s.activeHalf) = false → s.halfSlots (1 - s.activeHalf) = false →
    ∃ t, exec .puntyLoad s = .next t ∧ t.puntyState = 2 ∧ t.activeHalf = s.activeHalf ∧
      t.halfHeld (1 - s.activeHalf) = false) ∧
  (∀ s : State, s.puntyState ≠ 1 → exec .puntyLoad s = .next s) ∧
  (∀ s : State, Ready s pgCORE → s.puntyState = 2 → s.core.parison.isSome = true →
    ∃ t, exec .puntyReady s = .next t ∧ t.puntyState = 3 ∧ t.stands pgCORE 2 = true ∧ t.core = s.core) ∧
  (∀ s : State, Ready s pgCORE → s.puntyState = 3 → exec .puntyCommit s = .next (s.setPunty 4)) ∧
  (∀ s : State, Ready s pgCORE → s.puntyState ≠ 3 → exec .puntyCommit s = .next s) ∧
  (∀ s : State, s.puntyState = 4 → s.halfRuns s.activeHalf = false →
    ∃ t, exec .puntyFlip s = .next t ∧ t.puntyState = 5 ∧ t.activeHalf = 1 - s.activeHalf ∧
      t.halfHeld s.activeHalf = true ∧ t.core.parison = none ∧ t.stands pgCORE 3 = true ∧
      t.counter (cuCORE1 + 7) = (s.counter (cuCORE1 + 7) + 1) % counterMod (cuCORE1 + 7)) ∧
  (∀ s : State, s.puntyState ≠ 4 ∨ s.halfRuns s.activeHalf = true → exec .puntyFlip s = .next s) ∧
  (∀ s : State, Ready s pgCORE → 1 ≤ s.puntyState → s.puntyState ≤ 4 →
    ∃ t, exec .puntyAbort s = .next t ∧ t.puntyState = 6 ∧ t.fld pgCORE CORE.puntyAbortCause = 4 ∧
      t.activeHalf = s.activeHalf ∧ t.halfHeld (1 - s.activeHalf) = true ∧ t.stands pgCORE 4 = true ∧
      t.counter (cuCORE1 + 8) = (s.counter (cuCORE1 + 8) + 1) % counterMod (cuCORE1 + 8)) ∧
  (∀ s : State, s.puntyState = 4 →
    ∃ t, exec .puntyFreezeTimeout s = .next t ∧ t.puntyState = 6 ∧ t.fld pgCORE CORE.puntyAbortCause = 1 ∧
      t.activeHalf = s.activeHalf ∧ t.stands pgCORE 4 = true) ∧
  (∀ s : State, s.puntyState ≠ 4 → exec .puntyFreezeTimeout s = .next s))

/-- An idle domain whose policy permits it begins entry, or a unit's refusal is shown and counted; entry ends in the state
that the policy permitted; a wake starts a restore, or aborts an entry; a restore ends with the domain on; a policy write
takes effect, and the setting 0b11 is raised. (Rests on R529 to R532, R537.) (The model's own choices in it: log entry
82.) -/
def Obligations.DomainsCycle : Prop :=
  (∀ (s : State) (d : Nat), d < 26 → s.domState d = 0 → s.policyOf d ≠ 0 → s.domIdle d = true →
    (d ≠ 24 ∨ s.anySlotValid = false →
      ∃ t, exec (.domainIdleExpire d none) s = .next t ∧ t.domState d = 3 ∧
        Sparse.get 0 t.keep.entering d = s.policyOf d ∧ t = { s with rf := t.rf, keep := t.keep }) ∧
    (∀ page reason, d ≠ 24 → page < 64 → reason < 16 →
      ∃ t, exec (.domainIdleExpire d (some (page, reason))) s = .next t ∧ t.domState d = 0 ∧
        t.fld pgKEEP KEEP.refuseLastDomain = d ∧ t.fld pgKEEP KEEP.refuseLastPage = page ∧
        t.fld pgKEEP KEEP.refuseLastReason = reason ∧ (s.mayRaise pgKEEP 2 = true → t.stands pgKEEP 2 = true) ∧
        t.counter (cuKEEP + 4 * d + 2) = (s.counter (cuKEEP + 4 * d + 2) + 1) % counterMod (cuKEEP + 4 * d + 2))) ∧
  (∀ (s : State) (d : Nat) (r : Option (Nat × Nat)), s.domState d ≠ 0 ∨ s.policyOf d = 0 ∨ s.domIdle d = false →
    exec (.domainIdleExpire d r) s = .next s) ∧
  (∀ (s : State) (d v : Nat), d < 26 → s.domState d = 3 → Sparse.get 0 s.keep.entering d = v → v = 1 ∨ v = 2 →
    ∃ t, exec (.domainEntryDone d) s = .next t ∧ (s.mayRaise pgKEEP 0 = true → t.stands pgKEEP 0 = true) ∧
      (10 ≤ d → d < 15 ∨ 18 < d → t.domState d = v ∧ Sparse.get 0 t.keep.entering d = 0 ∧
        t.counter (cuKEEP + 4 * d) = (s.counter (cuKEEP + 4 * d) + 1) % counterMod (cuKEEP + 4 * d) ∧
        (v = 2 → (Sparse.get none t.keep.saves d).isSome = true))) ∧
  (∀ (s : State) (d : Nat), s.domState d ≠ 3 → exec (.domainEntryDone d) s = .next s) ∧
  (∀ (s : State) (d src : Nat), d < 26 → src < 64 → s.shedDomain d = false →
    (if src = 0x3F then Ready s pgKEEP else hardwareWakes d = true) → (d = 10 → s.domState 11 = 0 ∧ s.domState 12 = 0) →
    (s.domState d = 1 ∨ s.domState d = 2 →
      ∃ t, exec (.domainWake d src) s = .next t ∧ t.domState d = 3 ∧ Sparse.get 0 t.keep.restoring d = s.domState d ∧
        t.counter (cuKEEP + 4 * d + 1) = (s.counter (cuKEEP + 4 * d + 1) + 1) % counterMod (cuKEEP + 4 * d + 1) ∧
        t = { s with rf := t.rf, keep := t.keep, cnt := t.cnt }) ∧
    (s.domState d = 3 → Sparse.get 0 s.keep.entering d ≠ 0 →
      ∃ t, exec (.domainWake d src) s = .next t ∧ t.domState d = 0 ∧ Sparse.get 0 t.keep.entering d = 0 ∧
        t.fld pgKEEP KEEP.abortLastDomain = d ∧ t.fld pgKEEP KEEP.abortLastPage = src ∧
        t.counter (cuKEEP + 4 * d + 1) = (s.counter (cuKEEP + 4 * d + 1) + 1) % counterMod (cuKEEP + 4 * d + 1) ∧
        t.counter (cuKEEP + 4 * d + 3) = (s.counter (cuKEEP + 4 * d + 3) + 1) % counterMod (cuKEEP + 4 * d + 3) ∧
        (s.mayRaise pgKEEP 3 = true → t.stands pgKEEP 3 = true)) ∧
    (s.domState d = 0 → exec (.domainWake d src) s = .next s)) ∧
  (∀ s : State, Ready s pgKEEP → (∀ d, 10 ≤ d → d ≤ 12 → s.domState d = 1) →
    ∃ t, exec (.domainWake 10 0x3F) s = .next t ∧ (∀ d, 10 ≤ d → d ≤ 12 → t.domState d = 3)) ∧
  (∀ (s : State) (d v : Nat), d < 26 → s.domState d = 3 → Sparse.get 0 s.keep.restoring d = v → v = 1 ∨ v = 2 →
    (d = 10 → s.domState 11 = 0 ∧ s.domState 12 = 0) →
    ∃ t, exec (.domainRestoreDone d) s = .next t ∧ (s.mayRaise pgKEEP 1 = true → t.stands pgKEEP 1 = true) ∧
      (10 ≤ d → d < 15 ∨ 18 < d → t.domState d = 0 ∧ Sparse.get 0 t.keep.restoring d = 0)) ∧
  (∀ s : State, s.domState 11 ≠ 0 ∨ s.domState 12 ≠ 0 → exec (.domainRestoreDone 10) s = .next s) ∧
  (∀ (s : State) (hi : Bool) (acc : Access), Ready s pgKEEP → acc.be = 15#4 →
    ∃ t, exec (.keepPolicyWrite hi acc) s = .next t ∧
      (let off := if hi then 0x034 else 0x030
       let m := if hi then 0x000FFFFF#32 else 0xFFFFFFFF#32
       let v := (s.reg pgKEEP off &&& ~~~ m) ||| (viewApply acc.view (s.reg pgKEEP off) acc.val &&& m)
       t.reg pgKEEP off = v ∧ (policyInvalid hi v = true → t.stands pgKEEP 7 = true)))

/-- A gate in window of a good candidate shows its count and lengthens its run, and the gate that completes its run makes
a candidate good; a host reference whose edges cease is not good, and its fall is counted; an expired wait may move the
tree clock; a forced source is taken where it is good and refused with its reason where not; with no good candidate the
S-die regions are held; an S-die clock whose edges cease has its outputs forced; the K-oscillator is trimmed by a
sixteenth of its error, and a broken window is discarded. (Rests on R538 to R546.) -/
def Obligations.ClocksJudged : Prop :=
  (∀ (s : State) (k n : Nat), 1 ≤ k → k ≤ 5 → s.clkOffered k = true → s.gateInWindow k n = true → s.clkGood k = true →
    s.clk.lossHeld = false → s.clk.clockWait = false →
    ∃ t, exec (.clockGateEnd k n) s = .next t ∧ t.tw pgCLK 0 (k - 1) 0 = BitVec.ofNat 32 n ∧
      t.gateRun k = min 15 (s.gateRun k + 1) ∧ t = { s with tables := t.tables }) ∧
  (∀ (s : State) (k n : Nat), 1 ≤ k → k ≤ 5 → s.clkOffered k = true → s.gateInWindow k n = true → s.clkGood k = false →
    s.clk.lossHeld = false → s.clk.clockWait = false → min 15 (s.gateRun k + 1) < max 1 (s.fld pgCLK CLK.judgeGoodCount) →
    ∃ t, exec (.clockGateEnd k n) s = .next t ∧ t.tw pgCLK 0 (k - 1) 0 = BitVec.ofNat 32 n ∧ t.clkGood k = false ∧
      t.gateRun k = min 15 (s.gateRun k + 1) ∧ t = { s with tables := t.tables }) ∧
  (∀ (s : State) (k n : Nat), 5 < k ∨ s.clkOffered k = false → exec (.clockGateEnd k n) s = .next s) ∧
  (∀ s : State, s.clkGood 5 = false →
    ∃ t, exec .hostrefLost s = .next t ∧ t.gateRun 5 = 0 ∧ t.clkGood 5 = false ∧
      t = { s with rf := t.rf, tables := t.tables }) ∧
  (∀ s : State, s.clkGood 5 = true →
    exec .hostrefLost s = .next ((((s.setTf pgCLK 0 4 1 20 17 0).setClkGood 5 false).count (cuCLK + 2)).clkJudge)) ∧
  (∀ (s : State) (k : Nat), s.clkGood k = false → exec (.clockWtrExpire k) s = .next s) ∧
  (∀ (s : State) (k : Nat), s.clkGood k = true → s.clkChoose (some k) (s.treeOrder .a) (s.treeClk .a) ≠ s.treeClk .a →
    ∃ t, exec (.clockWtrExpire k) s = .next t ∧ t.stands pgCLK 0 = true ∧
      t.treeClk .a = s.clkChoose (some k) (s.treeOrder .a) (s.treeClk .a)) ∧
  (∀ (s : State) (code : Nat), Ready s pgCLK → code < 8 → 5 < code ∨ (code ≠ 0 ∧ s.clkGood code = false) →
    ∃ t, exec (.clkForce code) s = .next t ∧ t.fld pgCLK CLK.refusedLastSource = code ∧
      t.fld pgCLK CLK.refusedLastReason = (if code ≤ 5 then 1 else 2) ∧ t.stands pgCLK 3 = true ∧
      t.counter (cuCLK + 3) = (s.counter (cuCLK + 3) + 1) % counterMod (cuCLK + 3) ∧ t.reg pgCLK 0x034 = s.reg pgCLK 0x034) ∧
  (∀ (s : State) (code : Nat), Ready s pgCLK → code ≤ 5 → code = 0 ∨ s.clkGood code = true →
    exec (.clkForce code) s =
      .next ((s.setFld pgCLK CLK.selForce code).setFld pgCLK CLK.statusForced (if code = 0 then 0 else 1)).clkJudge) ∧
  (∀ s : State, s.anyClkGood = true ∨ s.clk.lossHeld = true → exec .clockLossReset s = .next s) ∧
  (∀ s : State, s.anyClkGood = false → s.clk.lossHeld = false →
    ∃ t, exec .clockLossReset s = .next t ∧ t.clk.lossHeld = true ∧ ∀ r, 2 ≤ r → r < 8 → t.region r ≠ 0) ∧
  (∀ s : State, s.clk.safeOut = false →
    ∃ t, exec (.clockEdgeMissing 2) s = .next t ∧ t.clk.safeOut = true ∧ t.time.pps = false ∧ t.time.fout = 0 ∧
      t.stands pgCLK 6 = true ∧ t.counter (cuCLK + 4) = (s.counter (cuCLK + 4) + 1) % counterMod (cuCLK + 4)) ∧
  (∀ s : State, s.clk.safeOut = true → exec (.clockEdgeMissing 2) s = .next s) ∧
  (∀ (s : State) (tr : Tree), (s.txs tr).clockForce = false →
    ∃ t, exec (.clockEdgeMissing (match tr with | .a => 0 | .b => 1)) s = .next t ∧ t.stands pgCLK 6 = true ∧
      (t.txs tr).clockForce = true ∧ t.flag (pgTX tr) TX.statusClockOk = false ∧
      t.counter (cuCLK + 4) = (s.counter (cuCLK + 4) + 1) % counterMod (cuCLK + 4)) ∧
  (∀ (s : State) (n : Nat), s.clk.trimBroken = true →
    exec (.koscTrim n) s = .next { s with clk := { s.clk with trimBroken := false } }) ∧
  (∀ (s : State) (n : Nat), s.clk.trimBroken = false → s.trimSource = false → exec (.koscTrim n) s = .next s) ∧
  (∀ (s : State) (n : Nat), s.clk.trimBroken = false → s.trimSource = true →
    ∃ t, exec (.koscTrim n) s = .next t ∧
      (let want := 32768 * max 1 (s.fld pgCLK CLK.koscCfgTrimSf)
       let err := clampInt (-32768) 32767 (roundDiv (((n : Int) - want) * 1000000) want)
       t.sfld pgCLK CLK.koscStatusError = err ∧
       t.sfld pgCLK CLK.koscStatusCode =
         clampInt (-2048) 2047 (s.sfld pgCLK CLK.koscStatusCode - clampInt (-64) 64 (roundDiv err 16))) ∧
      (s.mayRaise pgCLK 5 = true → t.stands pgCLK 5 = true) ∧
      t.counter (cuCLK + 7) = (s.counter (cuCLK + 7) + 1) % counterMod (cuCLK + 7))

/-- A supply warning is raised once and shows the rails below warning, and its end clears them; a VKEEP warning is raised
once; a main-rail reset holds regions 0 to 7 and names its rails, and its release waits for a clock; a VKEEP reset returns
the registers to their reset values; at power-up keep RAM is judged; a debounced power source takes its level, starts and
ends a hold-off, and battery operation begins where the hold-off ends and ends where mains are stable. (Rests on R549 to
R553, R380, R535, R572.) (The model's own choices in it: log entries 2, 34, 74, 95, 148.) -/
def Obligations.SuppliesJudged : Prop :=
  (∀ s : State, s.padOpen 66 = false → s.flag pgSUP SUP.statusSupplyWarning = true →
    exec (.supplyWarning 0) s = .next (s.setFld pgSUP SUP.statusPfail 1)) ∧
  (∀ (s : State) (rails : Nat), s.padOpen 66 = false → s.flag pgSUP SUP.statusSupplyWarning = false →
    ∃ t, exec (.supplyWarning rails) s = .next t ∧ t.stands pgSUP 0 = true ∧
      (s.noticeOk .a = false → s.noticeOk .b = false → s.puntyState = 0 →
        t.flag pgSUP SUP.statusSupplyWarning = true ∧ t.noticeNext = (s.noticeNext + 1) % 65536 ∧
        t.counter cuSUP = (s.counter cuSUP + 1) % counterMod cuSUP ∧
        t.fld pgSUP SUP.statusBelowWarning = s.fld pgSUP SUP.statusBelowWarning ||| mainRails rails)) ∧
  (∀ s : State, s.padOpen 66 = true → exec (.supplyWarning 0) s = .next s) ∧
  (∀ s : State, s.pfailKept = false →
    ∃ t, exec .supplyWarningClear s = .next t ∧ t.flag pgSUP SUP.statusSupplyWarning = false ∧
      t.flag pgSUP SUP.statusPfail = false ∧ t.fld pgSUP SUP.statusBelowWarning = 0 ∧
      t.flag pgSUP SUP.statusVkeepWarning = false ∧ (∀ i, i < 7 → t.tf pgSUP 0 i 0 17 16 = 0) ∧ (∀ p off, regKey p off ≠ regKey pgSUP 0x030 → t.reg p off = s.reg p off) ∧
      t = { s with rf := t.rf, tables := t.tables }) ∧
  (∀ s : State, s.flag pgSUP SUP.statusVkeepWarning = true → exec .vkeepWarning s = .next s) ∧
  (∀ s : State, s.flag pgSUP SUP.statusVkeepWarning = false →
    ∃ t, exec .vkeepWarning s = .next t ∧ t.stands pgSUP 1 = true ∧
      (s.kst.job ≠ 1 → s.puntyState = 0 → t.flag pgSUP SUP.statusVkeepWarning = true ∧ t.tb pgSUP 0 0 0 16 = true ∧
        t.counter (cuSUP + 1) = (s.counter (cuSUP + 1) + 1) % counterMod (cuSUP + 1))) ∧
  (∀ (s : State) (rails : Nat),
    ∃ t, exec (.mainRailReset rails) s = .next t ∧ t.clk.railHeld = true ∧ (∀ r, r < 8 → t.region r ≠ 0) ∧
      t.counter (cuSUP + 7) = (s.counter (cuSUP + 7) + 1) % counterMod (cuSUP + 7)) ∧
  (∀ s : State, s.clk.railHeld = false → exec .mainRailRelease s = .next s) ∧
  (∀ s : State, s.pfailKept = false → s.clk.railHeld = true →
    ∃ t, exec .mainRailRelease s = .next t ∧ t.clk.railHeld = false ∧ t.clk.clockWait = !s.anyClkGood) ∧
  (∀ s : State, ∃ t, exec .vkeepReset s = .next t ∧ t.clk.railHeld = true ∧ (∀ r, r < 8 → t.region r ≠ 0) ∧
    t.flsh.mem = s.flsh.mem ∧ t.flsh.journal = s.flsh.journal ∧ t.sup = {}) ∧
  (∀ (s : State) (ok : Bool), ∃ t, exec (.vkeepPowerUp ok) s = .next t ∧ t.flag pgKEEP KEEP.ramStatusValid = ok ∧
    (ok = false → t.stands pgKEEP 6 = true)) ∧
  (∀ (s : State) (m l : Bool), s.padOpen (if m then 64 else 65) = true ∨ s.flag pgSUP (if m then SUP.statusPsrcMain else SUP.statusPsrcBatt) = l →
    exec (.psrcDebounce m l) s = .next s) ∧
  (∀ (s : State) (l : Bool), s.padOpen 65 = false → s.flag pgSUP SUP.statusPsrcBatt = !l →
    exec (.psrcDebounce false l) s = .next (s.setFld pgSUP SUP.statusPsrcBatt (b2n l))) ∧
  (∀ s : State, s.padOpen 64 = false → s.flag pgSUP SUP.statusPsrcMain = true →
    ∃ t, exec (.psrcDebounce true false) s = .next t ∧ t.flag pgSUP SUP.statusPsrcMain = false ∧
      t.flag pgSUP SUP.statusMainsStable = false ∧ t.stands pgSUP 4 = true ∧
      t.sup = { holdoff := !s.flag pgSUP SUP.statusBattery, judging := false } ∧
      t.counter (cuSUP + 4) = (s.counter (cuSUP + 4) + 1) % counterMod (cuSUP + 4)) ∧
  (∀ s : State, s.padOpen 64 = false → s.flag pgSUP SUP.statusPsrcMain = false →
    ∃ t, exec (.psrcDebounce true true) s = .next t ∧ t.flag pgSUP SUP.statusPsrcMain = true ∧
      t.sup = { holdoff := false, judging := true } ∧
      (s.sup.holdoff = true → t.counter (cuSUP + 5) = (s.counter (cuSUP + 5) + 1) % counterMod (cuSUP + 5)) ∧
      (s.sup.holdoff = false → t.stands pgSUP 5 = true)) ∧
  (∀ s : State, s.sup.holdoff = true → s.flag pgSUP SUP.statusPsrcMain = false →
    ∃ t, exec .holdoffExpire s = .next t ∧ t.sup = { s.sup with holdoff := false } ∧
      (s.flag pgSUP SUP.statusPsrcBatt = false → t.stands pgSUP 6 = true ∧
        t.counter (cuSUP + 8) = (s.counter (cuSUP + 8) + 1) % counterMod (cuSUP + 8))) ∧
  (∀ s : State, s.sup.holdoff = false ∨ s.flag pgSUP SUP.statusPsrcMain = true → exec .holdoffExpire s = .next s) ∧
  (∀ s : State, s.sup.judging = true → s.flag pgSUP SUP.statusPsrcMain = true →
    ∃ t, exec .mainsStable s = .next t ∧ t.sup = { s.sup with judging := false } ∧
      (s.flag pgSUP SUP.statusBattery = true → t.stands pgSUP 3 = true) ∧
      (s.flag pgSUP SUP.statusBattery = false → t.flag pgSUP SUP.statusMainsStable = true)) ∧
  (∀ s : State, s.sup.judging = false ∨ s.flag pgSUP SUP.statusPsrcMain = false → exec .mainsStable s = .next s)

/-- A unit is contained once and event 20 raised; a region is contained with its cause, and only once; the end of a
thermal containment, or the register for cause 1, releases it, and a bit for another region is recorded; a short SYS_RST#
pulse does nothing, and a pulse of 1 µs acts as a main-rail reset with no rail named. (Rests on R23, R25, R561 to R563,
R590.) (The model's own choices in it: log entry 15.) -/
def Obligations.ContainmentRuns : Prop :=
  (∀ (s : State) (p u : Nat), (pageInfo p).isSome = true → s.alive p = true → u < 65536 → s.unitContained p u = false →
    ∃ t, exec (.unitContain p u) s = .next t ∧ t.stands p 20 = true ∧
      (p = pgCORE → 1 ≤ u → u ≤ 16 → t.unitContained p u = true ∧
        t.counter (cuSYS + 5) = (s.counter (cuSYS + 5) + 1) % counterMod (cuSYS + 5)) ∧
      (p ≠ pgDMA → p ≠ pgLSEC → p ≠ pgCORE → (∀ q, q < 16 → p ≠ pgUNIQ q) → u ≠ 0 → t.unitContained p u = true ∧
        t.counter (cuSYS + 5) = (s.counter (cuSYS + 5) + 1) % counterMod (cuSYS + 5))) ∧
  (∀ (s : State) (p u : Nat), s.alive p = false ∨ s.unitContained p u = true → exec (.unitContain p u) s = .next s) ∧
  (∀ (s : State) (r c : Nat), r < 9 → 1 ≤ c → c ≤ 3 → s.containCause r = 0 → (r = 8 → c ≠ 2) →
    ∃ t, exec (.regionContain r c) s = .next t ∧ t.containCause r = c ∧ t.region r = 2 ∧
      t.fld pgSYS SYS.containLastRegion = r ∧ t.fld pgSYS SYS.containLastCause = c ∧
      (s.region r ≠ 0 ∨ r = 8 → t.counter (cuSYS + 6) = (s.counter (cuSYS + 6) + 1) % counterMod (cuSYS + 6))) ∧
  (∀ (s : State) (r c : Nat), s.containCause r ≠ 0 → exec (.regionContain r c) s = .next s) ∧
  (∀ (s : State) (r : Nat), r < 8 → s.containCause r = 0 →
    ∃ t, exec (.thermalLimit r) s = .next t ∧ t.containCause r = 2 ∧ t.region r = 2 ∧
      t.fld pgSYS SYS.containLastRegion = r ∧ t.fld pgSYS SYS.containLastCause = 2) ∧
  (∀ (s : State) (r : Nat), s.containCause r ≠ 2 → exec (.thermalRelease r) s = .next s) ∧
  (∀ (s : State) (r : Nat), r < 9 → s.containCause r = 2 →
    ∃ t, exec (.thermalRelease r) s = .next t ∧ t.containCause r = 0 ∧
      (r ∈ [2, 3, 5, 6, 7, 8] → s.clk.railHeld = false → s.clk.tapHeld = false → s.clk.clockWait = false →
        s.clk.lossHeld = false → s.hif.perst = false → t.region r = 0 ∧
        t.counter (cuSYS + 7) = (s.counter (cuSYS + 7) + 1) % counterMod (cuSYS + 7))) ∧
  (∀ (s : State) (r : Nat), r < 9 → Ready s pgSYS →
    (s.containCause r = 1 → ∃ t, exec (.sysRegionRelease (2 ^ r)) s = .next t ∧ t.containCause r = 0) ∧
    (s.containCause r ≠ 1 → exec (.sysRegionRelease (2 ^ r)) s = .next (s.ignored pgSYS 0x03C 1))) ∧
  (∀ (s : State) (w : Nat), w < 1000 ∨ s.padOpen 67 = true → exec (.sysRst w) s = .next s) ∧
  (∀ (s : State) (w : Nat), 1000 ≤ w → s.padOpen 67 = false →
    ∃ t, exec (.sysRst w) s = .next t ∧ exec (.mainRailReset 0) s = .next t ∧ t.clk.railHeld = true ∧ ∀ r, r < 8 → t.region r ≠ 0)

/-- A flit that fails its CRC is counted and shown and leaves its place in the sequence open; one that holds and is the
next is taken; a link whose flits fail too often retrains, or is down after its retrains fail; a link that is down
retrains again, and comes up; the loss of link 0 contains the line regions, and its return ends that. A shorted output is
shown, raised and, where the register enables it, released to high impedance but for the laser pins; an open input is
shown and raised, and takes its safe value; a release ends both where the fault is gone, and is counted where it is not.
(Rests on R561, R566, R567, R568, R571 to R573.) (The model's own choices in it: log entries 79, 114.) -/
def Obligations.LinksAndPinsTested : Prop :=
  ((∀ (s : State) (l : Nat) (back : Bool) (bs : Bytes), l < 3 → s.linkUp l = true →
    (flitCrcOk bs = false → ∃ t, exec (.flitCrcFail l back bs) s = .next t ∧
      (t.link (2 * l + b2n back)).fails = (s.link (2 * l + b2n back)).fails + 1 ∧
      (t.link (2 * l + b2n back)).expected = (s.link (2 * l + b2n back)).expected ∧
      t.fld pgD2D D2D.lastLink = l ∧ t.fld pgD2D D2D.lastEvent = 1 ∧ (s.mayRaise pgD2D 0 = true → t.stands pgD2D 0 = true) ∧
      (∀ i, i < 3 → t.counter (cuD2D + 5 * l + i) = (s.counter (cuD2D + 5 * l + i) + 1) % counterMod (cuD2D + 5 * l + i))) ∧
    (flitCrcOk bs = true → flitSequence bs = (s.link (2 * l + b2n back)).expected →
      ∃ t, exec (.flitCrcFail l back bs) s = .next t ∧
        (t.link (2 * l + b2n back)).expected = ((s.link (2 * l + b2n back)).expected + 1) % 256 ∧
        (t.link (2 * l + b2n back)).fails = 0 ∧ (t.link (2 * l + (1 - b2n back))).acked = some (flitAck bs) ∧
        t.counter (cuD2D + 5 * l) = (s.counter (cuD2D + 5 * l) + 1) % counterMod (cuD2D + 5 * l)) ∧
    (flitCrcOk bs = true → flitSequence bs ≠ (s.link (2 * l + b2n back)).expected →
      exec (.flitCrcFail l back bs) s = .next (s.count (cuD2D + 5 * l)))) ∧
  (∀ (s : State) (l : Nat), l < 3 → s.linkUp l = true → s.retrainDue l = true →
    (∃ t, exec (.linkRetrain l true) s = .next t ∧ t.linkUp l = true ∧ t.retrainDue l = false ∧ t.stands pgD2D 1 = true ∧
      t.fld pgD2D D2D.lastLink = l ∧ t.fld pgD2D D2D.lastEvent = 2 ∧
      t.counter (cuD2D + 5 * l + 3) = (s.counter (cuD2D + 5 * l + 3) + 1) % counterMod (cuD2D + 5 * l + 3)) ∧
    (∃ t, exec (.linkRetrain l false) s = .next t ∧
      (l ≠ 0 → t.linkUp l = false ∧ t.fld pgD2D D2D.lastLink = l ∧ t.fld pgD2D D2D.lastEvent = 3 ∧
        t.stands pgD2D 1 = true ∧ t.stands pgD2D 2 = true ∧
        t.counter (cuD2D + 5 * l + 3) = (s.counter (cuD2D + 5 * l + 3) + max 1 (s.fld pgD2D D2D.cfgRetrainMax)) %
          counterMod (cuD2D + 5 * l + 3)) ∧
      (l = 0 → t.containCause 0 ≠ 0 ∧ t.containCause 1 ≠ 0))) ∧
  (∀ (s : State) (l : Nat) (back ok : Bool) (bs : Bytes), l < 3 → s.linkUp l = false →
    exec (.flitCrcFail l back bs) s = .next s ∧ exec (.linkRetrain l ok) s = .next s) ∧
  (∀ (s : State) (l : Nat) (ok : Bool), l < 3 → s.retrainDue l = false → exec (.linkRetrain l ok) s = .next s) ∧
  (∀ (s : State) (l : Nat), l < 3 → s.linkUp l = false →
    (∃ t, exec (.d2dRetrainRetry l false) s = .next t ∧ t.linkUp l = false ∧ t.stands pgD2D 1 = true ∧
      t.fld pgD2D D2D.lastLink = l ∧ t.fld pgD2D D2D.lastEvent = 2 ∧
      t.counter (cuD2D + 5 * l + 3) = (s.counter (cuD2D + 5 * l + 3) + 1) % counterMod (cuD2D + 5 * l + 3)) ∧
    (∃ t, exec (.d2dRetrainRetry l true) s = .next t ∧ (l ≠ 0 → t.linkUp l = true ∧ t.stands pgD2D 3 = true) ∧
      (l = 0 → t.containCause 0 ≠ 3 ∧ t.containCause 1 ≠ 3)) ∧
    (∃ t, exec (.d2dLinkUp l) s = .next t ∧ (l ≠ 0 → t.linkUp l = true ∧ t.stands pgD2D 3 = true) ∧
      (l = 0 → t.containCause 0 ≠ 3 ∧ t.containCause 1 ≠ 3))) ∧
  (∀ (s : State) (l : Nat) (ok : Bool), l < 3 → s.linkUp l = true →
    exec (.d2dRetrainRetry l ok) s = .next s ∧ exec (.d2dLinkUp l) s = .next s)) ∧
  ((∀ (s : State) (i : Nat), i < 69 → s.pinTests = true → s.pinBit i 0 = true → s.pinBit i 4 = false →
    ∃ t, exec (.pinShort i) s = .next t ∧ t.pinBit i 4 = true ∧
      t.pinBit i 6 = (s.pinBit i 6 || (s.flag pgPIN PIN.cfgShortEnable && !laserPin i)) ∧ t.stands pgPIN 0 = true ∧
      t.counter cuPIN = (s.counter cuPIN + 1) % counterMod cuPIN ∧ t.pinBit i 5 = s.pinBit i 5) ∧
  (∀ (s : State) (i : Nat), s.pinTests = false ∨ s.pinBit i 0 = false ∨ s.pinBit i 4 = true →
    exec (.pinShort i) s = .next s) ∧
  (∀ (s : State) (i : Nat), i < 69 → s.pinTests = true → s.flag pgPIN PIN.cfgOpenEnable = true → s.pinBit i 2 = true →
    s.pinBit i 0 = false →
    (s.pinBit i 5 = false → ∃ t, exec (.pinOpenTest i true true false) s = .next t ∧
      (i ≠ 67 → t.pinBit i 5 = true ∧ t.stands pgPIN 1 = true ∧
        t.counter (cuPIN + 1) = (s.counter (cuPIN + 1) + 1) % counterMod (cuPIN + 1) ∧
        t.counter (cuPIN + 2) = (s.counter (cuPIN + 2) + 1) % counterMod (cuPIN + 2)) ∧
      (i = 43 → s.pinBit i 3 = false → t.hif.perst = true) ∧
      (64 ≤ i → i ≤ 66 → t.sup = s.sup ∧ t.reg pgSUP 0x030 = s.reg pgSUP 0x030)) ∧
    (∀ u d c, (u && d && !c) = false → exec (.pinOpenTest i u d c) s = .next (s.count (cuPIN + 2)))) ∧
  (∀ (s : State) (i : Nat), i < 69 → Ready s pgPIN →
    (s.pinBit i 5 = true ∨ s.pinBit i 6 = true →
      exec (.pinRelease i true) s = .next (s.count (cuPIN + 4)) ∧
      ∃ t, exec (.pinRelease i false) s = .next t ∧ t.tf pgPIN 0 i 0 6 4 = 0 ∧ t.stands pgPIN 2 = true ∧
        t.counter (cuPIN + 3) = (s.counter (cuPIN + 3) + 1) % counterMod (cuPIN + 3)) ∧
    (∀ still, s.pinBit i 5 = false → s.pinBit i 6 = false → exec (.pinRelease i still) s = .next s)))

/-- The day's re-plan runs only where it falls due, once in that second; a re-plan in progress or deferred is not started
again; a blocked one is deferred; one that must raise a rail asks for the write first; one without voltage control is
finished at once; a deferred one starts when nothing blocks it; an acknowledged raise is taken over into the target and
the next one asked for, and a failed one is raised. (Rests on R574 to R576.) (The model's own choices in it: log entry
80.) -/
def Obligations.ReplansRun : Prop :=
  (∀ (s : State) (r : LehrReadings), s.replanDay = false → exec (.replan r) s = .next s) ∧
  (∀ (s : State) (r : LehrReadings), s.replanDay = true →
    (s.lehr.active = true ∨ s.flag pgLEHR LEHR.statusDeferred = true →
      ∃ t, exec (.replan r) s = .next t ∧ t = { s with lehr := t.lehr } ∧
        t.lehr = { s.lehr with last := t.lehr.last, lastSec := t.lehr.lastSec }) ∧
    (s.lehr.active = false → s.flag pgLEHR LEHR.statusDeferred = false →
      (s.replanBlocked = true → ∃ t, exec (.replan r) s = .next t ∧ t.flag pgLEHR LEHR.statusDeferred = true ∧
        t.stands pgLEHR 1 = true ∧ t.counter (cuLEHR + 1) = (s.counter (cuLEHR + 1) + 1) % counterMod (cuLEHR + 1) ∧
        t.lehr.active = false ∧ t.lehr.raises = s.lehr.raises ∧ t.lehr.lowers = s.lehr.lowers) ∧
      (s.replanBlocked = false → s.flag pgLEHR LEHR.cfgAvsEnable = true → s.railLow r 0 = true → s.railMv 0 < 850 →
        ∃ t, exec (.replan r) s = .next t ∧ t.lehr.active = true ∧ t.flag pgLEHR LEHR.statusRunning = true ∧
          t.lehr.raises.head? = some (0, min 850 (s.railMv 0 + 10)) ∧ t.lehr.last = s.now ∧
          t.out = .avsWrite 0 (min 850 (s.railMv 0 + 10)) :: s.out) ∧
      (s.replanBlocked = false → s.flag pgLEHR LEHR.cfgAvsEnable = false →
        ∃ t, exec (.replan r) s = .next t ∧ t.lehr.active = false ∧ t.flag pgLEHR LEHR.statusRunning = false ∧
          t.stands pgLEHR 0 = true ∧ t.lehr.last = s.now))) ∧
  (∀ (s : State) (r : LehrReadings), Ready s pgLEHR →
    (s.lehr.active = true ∨ s.flag pgLEHR LEHR.statusDeferred = true →
      ∃ t, exec (.lehrReplanNow r) s = .next t ∧ t = { s with lehr := t.lehr } ∧
        t.lehr = { s.lehr with last := t.lehr.last, lastSec := t.lehr.lastSec }) ∧
    (s.lehr.active = false → s.flag pgLEHR LEHR.statusDeferred = false →
      (s.replanBlocked = true → ∃ t, exec (.lehrReplanNow r) s = .next t ∧ t.flag pgLEHR LEHR.statusDeferred = true ∧
        t.stands pgLEHR 1 = true ∧ t.counter (cuLEHR + 1) = (s.counter (cuLEHR + 1) + 1) % counterMod (cuLEHR + 1) ∧
        t.lehr.active = false ∧ t.lehr.raises = s.lehr.raises ∧ t.lehr.lowers = s.lehr.lowers) ∧
      (s.replanBlocked = false → s.flag pgLEHR LEHR.cfgAvsEnable = true → s.railLow r 0 = true → s.railMv 0 < 850 →
        ∃ t, exec (.lehrReplanNow r) s = .next t ∧ t.lehr.active = true ∧ t.flag pgLEHR LEHR.statusRunning = true ∧
          t.lehr.raises.head? = some (0, min 850 (s.railMv 0 + 10)) ∧ t.lehr.last = s.now ∧
          t.out = .avsWrite 0 (min 850 (s.railMv 0 + 10)) :: s.out) ∧
      (s.replanBlocked = false → s.flag pgLEHR LEHR.cfgAvsEnable = false →
        ∃ t, exec (.lehrReplanNow r) s = .next t ∧ t.lehr.active = false ∧ t.flag pgLEHR LEHR.statusRunning = false ∧
          t.stands pgLEHR 0 = true ∧ t.lehr.last = s.now))) ∧
  (∀ (s : State) (r : LehrReadings), s.replanDay = true → s.timeValid = true →
    ∃ t, exec (.replan r) s = .next t ∧ t.lehr.lastSec = some s.timeSec ∧ t.replanDay = false) ∧
  (∀ (s : State) (r : LehrReadings), s.flag pgLEHR LEHR.statusDeferred = false ∨ s.replanBlocked = true ∨ s.lehr.active = true →
    exec (.replanDeferredStart r) s = .next s) ∧
  (∀ (s : State) (r : LehrReadings), s.flag pgLEHR LEHR.statusDeferred = true → s.replanBlocked = false → s.lehr.active = false →
    (s.flag pgLEHR LEHR.cfgAvsEnable = false →
      ∃ t, exec (.replanDeferredStart r) s = .next t ∧ t.lehr.active = false ∧ t.stands pgLEHR 0 = true) ∧
    (s.flag pgLEHR LEHR.cfgAvsEnable = true → s.railLow r 0 = true → s.railMv 0 < 850 →
      ∃ t, exec (.replanDeferredStart r) s = .next t ∧ t.lehr.active = true ∧
        t.flag pgLEHR LEHR.statusDeferred = false ∧ t.out = .avsWrite 0 (min 850 (s.railMv 0 + 10)) :: s.out)) ∧
  (∀ (s : State) (rail mv k mv2 : Nat) (l : List (Nat × Nat)), rail < 2 → mv < 1024 → s.lehr.active = true →
    s.lehr.raises = (rail, mv) :: (k, mv2) :: l →
    (∃ t, exec (.avsWriteDone rail true) s = .next t ∧ t.railMv rail = mv ∧ t.flag pgLEHR LEHR.statusAvsOk = true ∧
      t.lehr.raises = (k, mv2) :: l ∧ t.out = .avsWrite k mv2 :: s.out ∧
      t.counter (cuLEHR + 2) = (s.counter (cuLEHR + 2) + 1) % counterMod (cuLEHR + 2)) ∧
    (∃ t, exec (.avsWriteDone rail false) s = .next t ∧ t.railMv rail = s.railMv rail ∧
      t.flag pgLEHR LEHR.statusAvsOk = false ∧ t.lehr.raises = (k, mv2) :: l ∧ t.out.head? = some (.avsWrite k mv2) ∧
      t.stands pgLEHR 2 = true ∧
      t.counter (cuLEHR + 4) = (s.counter (cuLEHR + 4) + 1) % counterMod (cuLEHR + 4))) ∧
  (∀ (s : State) (rail : Nat) (ack : Bool), s.lehr.active = false → exec (.avsWriteDone rail ack) s = .next s)

/-- Test-Logic-Reset selects IDCODE and ends a hold of the regions; BYPASS, SAMPLE/PRELOAD and IDCODE select their
registers and change nothing else of the part; EXTEST, CLAMP and HIGHZ hold regions 0 to 7 and drive the pins from the
boundary cells, or none. (Rests on R600, R601.) (The model's own choices in it: log entry 75.) -/
def Obligations.BoundaryScans : Prop :=
  (∀ s : State, s.clk.tapHeld = false → exec .tapReset s = .next (s.setTap 4 0x198405AF#32)) ∧
  (∀ s : State, s.clk.tapHeld = true →
    ∃ t, exec .tapReset s = .next t ∧ t.clk.tapHeld = false ∧ t.tap = { s.tap with instr := 4, dr := 0x198405AF#32 }) ∧
  (∀ s : State, exec .bypass s = .next { s with tap := { s.tap with instr := 1, dr := 0#32 } }) ∧
  (∀ (s : State) (cells : List Bool), cells.length = 69 →
    exec (.samplePreload (some cells)) s = .next { s with tap := { s.tap with instr := 2, boundary := cells } }) ∧
  (∀ s : State, ∃ t, exec (.samplePreload none) s = .next t ∧ t.tap.instr = 2 ∧ t.tap.boundary.length = 69 ∧
    t = { s with tap := t.tap, freeIx := t.freeIx }) ∧
  (∀ s : State, ∃ t, exec .idcode s = .next t ∧ t.readData = 0x198405AF#32 ∧
    t.tap = { s.tap with instr := 4, dr := 0x198405AF#32 } ∧ t = { s with tap := t.tap, readData := t.readData }) ∧
  (∀ s : State, s.clk.tapHeld = true →
    exec .extest s = .next ((s.setTap 3 s.tap.dr).emit (.pinsDriven (driveCells s.tap.boundary))) ∧
    exec .clamp s = .next ((s.setTap 5 0#32).emit (.pinsDriven (driveCells s.tap.boundary))) ∧
    exec .highz s = .next ((s.setTap 6 0#32).emit .pinsHighZ)) ∧
  (∀ s : State, s.clk.tapHeld = false →
    (∃ t, exec .extest s = .next t ∧ t.clk.tapHeld = true ∧ t.tap = { s.tap with instr := 3 } ∧
      t.out.head? = some (.pinsDriven (driveCells s.tap.boundary)) ∧ ∀ r, r < 8 → t.region r ≠ 0) ∧
    (∃ t, exec .clamp s = .next t ∧ t.clk.tapHeld = true ∧ t.tap = { s.tap with instr := 5, dr := 0#32 } ∧
      t.out.head? = some (.pinsDriven (driveCells s.tap.boundary)) ∧ ∀ r, r < 8 → t.region r ≠ 0) ∧
    (∃ t, exec .highz s = .next t ∧ t.clk.tapHeld = true ∧ t.tap = { s.tap with instr := 6, dr := 0#32 } ∧
      t.out.head? = some .pinsHighZ ∧ ∀ r, r < 8 → t.region r ≠ 0)) ∧
  (∀ i, i = 36 ∨ i = 37 ∨ i = 39 ∨ i = 40 → ∀ cells, (driveCells cells)[i]? = some false)

/-- A command that is not one of the named ones leaves every page's PAGE_CTRL as it was, and every event that stood stands
(R46, R49, R51, R52). -/
def Obligations.HeadersKept : Prop :=
  ∀ (c : Instr) (s t : State), touchesHeader c = false → exec c s = .next t →
    ∀ p, p < 256 → t.reg p 0x008 = s.reg p 0x008 ∧ ∀ b, b < 24 → s.stands p b = true → t.stands p b = true

/-- A command that is not one of the named ones changes nothing that holds a region in reset or contained, nor PERST#, the
power source's timers, the boundary port, or any byte that the flash or its journal holds (R23, R497, R510, R544, R551,
R563, R588, R601). (The model's own choices in it: log entry 73.) -/
def Obligations.HoldsKept : Prop :=
  ∀ (c : Instr) (s t : State), touchesHolds c = false → exec c s = .next t →
    t.clk.railHeld = s.clk.railHeld ∧ t.clk.lossHeld = s.clk.lossHeld ∧ t.clk.tapHeld = s.clk.tapHeld ∧
    t.clk.clockWait = s.clk.clockWait ∧ t.hif.perst = s.hif.perst ∧ (∀ r, t.containCause r = s.containCause r) ∧
    t.sup = s.sup ∧ t.tap = s.tap ∧ (∀ a, t.flashByte a = s.flashByte a) ∧
    (∀ e w, t.journalWord e w = s.journalWord e w)

/-- R48, R62, R120, R218, R353, R543 and the register tables: after reset every page but SYS is disabled, no event stands,
every counter is 0, both trees are Dark and both line regions frozen, and the transmitter, activation, switch, clock and
supply configuration registers hold their reset column. (The model's own choices in it: log entry 77.) -/
def Obligations.ResetValues : Prop :=
  (∀ p, (pageInfo p).isSome = true → p ≠ pgSYS → State.reset.enabled p = false) ∧
  (∀ p b, (pageInfo p).isSome = true → State.reset.stands p b = false) ∧
  (∀ i, State.reset.counter i = 0) ∧
  (∀ p, (pageInfo p).isSome = true → State.reset.reg p 0x024 = 0x00000100#32) ∧
  (∀ tr, State.reset.mode tr = 0 ∧ State.reset.frozen tr = true ∧ State.reset.reg (pgTX tr) 0x034 = 0x0000F300#32 ∧
    State.reset.sfld (pgTX tr) ⟨0x030, 15, 0⟩ = -78) ∧
  State.reset.reg (pgACT .b) 0x038 = 0x00000005#32 ∧ State.reset.fld pgSWC SWC.mtuMtu = 9216 ∧
  State.reset.reg pgCLK 0x038 = 0x002840FA#32 ∧ State.reset.fld pgCLK CLK.wtrWtr = 10 ∧
  State.reset.reg pgSUP 0x034 = 0x07D03202#32
end

