-- ==== Sys2Proof/Laws/Bits.lean ====
section
/-! SUPPORT. What a field read sees after a field write. -/

set_option Elab.async false
set_option linter.all false

namespace Sys2Proof.Machine

theorem Fld.getLsbD_mask (f : Fld) (i : Nat) (hf : f.lo ≤ f.hi) (hi : i < 32) :
    f.mask.getLsbD i = decide (f.lo ≤ i ∧ i ≤ f.hi) := by
  unfold Fld.mask
  rw [BitVec.getLsbD_ofNat, Nat.testBit_mul_two_pow, Nat.testBit_two_pow_sub_one]
  by_cases h1 : f.lo ≤ i <;> by_cases h2 : i ≤ f.hi <;> simp [h1, h2, hi] <;> omega

theorem Fld.getLsbD_put (f : Fld) (v : Nat) (w : Word) (i : Nat) (hf : f.lo ≤ f.hi) (hi : i < 32) :
    (f.put v w).getLsbD i = if f.lo ≤ i ∧ i ≤ f.hi then v.testBit (i - f.lo) else w.getLsbD i := by
  unfold Fld.put
  rw [BitVec.getLsbD_or, BitVec.getLsbD_and, BitVec.getLsbD_and, BitVec.getLsbD_not,
    Fld.getLsbD_mask f i hf hi, BitVec.getLsbD_shiftLeft, BitVec.getLsbD_ofNat]
  by_cases h : f.lo ≤ i ∧ i ≤ f.hi
  · have h1 : ¬ i < f.lo := by omega
    have h2 : i - f.lo < 32 := by omega
    simp [h, hi, h1, h2]
  · simp only [h, hi]
    simp

theorem Fld.testBit_get (f : Fld) (w : Word) (i : Nat) :
    (f.get w).testBit i = (decide (i < f.hi + 1 - f.lo) && w.getLsbD (f.lo + i)) := by
  unfold Fld.get
  rw [Nat.testBit_mod_two_pow]
  congr 1
  rw [← BitVec.getLsbD, BitVec.getLsbD_ushiftRight]

/-- A field read after a write of it gives the value written, modulo the field's width. -/
theorem Fld.get_put_same (f : Fld) (v : Nat) (w : Word) (hf : f.lo ≤ f.hi) (hh : f.hi < 32) :
    f.get (f.put v w) = v % 2 ^ (f.hi + 1 - f.lo) := by
  apply Nat.eq_of_testBit_eq
  intro i
  rw [Fld.testBit_get, Nat.testBit_mod_two_pow]
  by_cases h : i < f.hi + 1 - f.lo
  · rw [Fld.getLsbD_put f v w _ hf (by omega)]
    have : f.lo ≤ f.lo + i ∧ f.lo + i ≤ f.hi := by omega
    simp [this]
  · simp [h]

/-- A write of one field leaves a field that shares no bit with it. -/
theorem Fld.get_put_disjoint (f g : Fld) (v : Nat) (w : Word) (hf : f.lo ≤ f.hi)
    (hh : g.hi < 32) (hd : g.hi < f.lo ∨ f.hi < g.lo) : g.get (f.put v w) = g.get w := by
  apply Nat.eq_of_testBit_eq
  intro i
  rw [Fld.testBit_get, Fld.testBit_get]
  by_cases h : i < g.hi + 1 - g.lo
  · rw [Fld.getLsbD_put f v w _ hf (by omega)]
    have : ¬ (f.lo ≤ g.lo + i ∧ g.lo + i ≤ f.hi) := by omega
    simp [this]
  · simp [h]

end Sys2Proof.Machine
end

