-- ==== Sys2Proof/Laws/Sparse.lean ====
section
/-! SUPPORT. The laws of the sparse map: a read after a write gives the value written, a write leaves every other
key alone, and every write keeps the canonical form. -/

set_option Elab.async false
set_option linter.all false

namespace Sys2Proof.Machine

theorem Sparse.find?_del_same {α : Type} (k : Nat) (m : Sparse α) :
    Sparse.find? (Sparse.del k m) k = none := by
  induction m with
  | nil => rfl
  | cons e m ih =>
    simp only [Sparse.del]
    split
    · exact ih
    · rename_i h
      obtain ⟨k', v⟩ := e
      simp only [Sparse.find?]
      rw [if_neg h]; exact ih

theorem Sparse.find?_del_ne {α : Type} {k k' : Nat} (h : k' ≠ k) (m : Sparse α) :
    Sparse.find? (Sparse.del k m) k' = Sparse.find? m k' := by
  induction m with
  | nil => rfl
  | cons e m ih =>
    obtain ⟨j, v⟩ := e
    simp only [Sparse.del, Sparse.find?]
    split
    · rename_i hj
      rw [ih, if_neg (by omega)]
    · simp only [Sparse.find?]; rw [ih]

theorem Sparse.find?_ins_same {α : Type} (k : Nat) (v : α) (m : Sparse α)
    (h : Sparse.find? m k = none) : Sparse.find? (Sparse.ins k v m) k = some v := by
  induction m with
  | nil => simp [Sparse.ins, Sparse.find?]
  | cons e m ih =>
    obtain ⟨j, w⟩ := e
    simp only [Sparse.find?] at h
    split at h
    · cases h
    · rename_i hj
      simp only [Sparse.ins]
      split
      · simp [Sparse.find?]
      · simp only [Sparse.find?]; rw [if_neg hj]; exact ih h

theorem Sparse.find?_ins_ne {α : Type} {k k' : Nat} (hk : k' ≠ k) (v : α) (m : Sparse α) :
    Sparse.find? (Sparse.ins k v m) k' = Sparse.find? m k' := by
  induction m with
  | nil => simp [Sparse.ins, Sparse.find?, Ne.symm hk]
  | cons e m ih =>
    obtain ⟨j, w⟩ := e
    simp only [Sparse.ins]
    split
    · simp [Sparse.find?, Ne.symm hk]
    · simp only [Sparse.find?]; rw [ih]

@[simp] theorem Sparse.get_put_same {α : Type} [DecidableEq α] (d : α) (k : Nat) (v : α) (m : Sparse α) :
    Sparse.get d (Sparse.put d k v m) k = v := by
  unfold Sparse.get Sparse.put
  split
  · rename_i h; rw [Sparse.find?_del_same]; simp [h]
  · rw [Sparse.find?_ins_same _ _ _ (Sparse.find?_del_same k m)]; rfl

theorem Sparse.get_put_ne {α : Type} [DecidableEq α] (d d' : α) {k k' : Nat} (h : k' ≠ k) (v : α)
    (m : Sparse α) : Sparse.get d' (Sparse.put d k v m) k' = Sparse.get d' m k' := by
  unfold Sparse.get Sparse.put
  split
  · rw [Sparse.find?_del_ne h]
  · rw [Sparse.find?_ins_ne h, Sparse.find?_del_ne h]

theorem Sparse.rising_mono {α : Type} {lo lo' : Nat} (h : lo' ≤ lo) (m : Sparse α)
    (hm : Sparse.rising lo m = true) : Sparse.rising lo' m = true := by
  cases m with
  | nil => rfl
  | cons e m =>
    simp only [Sparse.rising, Bool.and_eq_true, decide_eq_true_eq] at hm ⊢
    exact ⟨by omega, hm.2⟩

theorem Sparse.rising_del {α : Type} (k lo : Nat) (m : Sparse α)
    (hm : Sparse.rising lo m = true) : Sparse.rising lo (Sparse.del k m) = true := by
  induction m generalizing lo with
  | nil => rfl
  | cons e m ih =>
    simp only [Sparse.rising, Bool.and_eq_true, decide_eq_true_eq] at hm
    simp only [Sparse.del]
    split
    · exact Sparse.rising_mono (by omega) _ (ih _ hm.2)
    · simp only [Sparse.rising, Bool.and_eq_true, decide_eq_true_eq]
      exact ⟨hm.1, ih _ hm.2⟩

theorem Sparse.rising_ins {α : Type} (k lo : Nat) (v : α) (m : Sparse α) (hlo : lo ≤ k)
    (hn : Sparse.find? m k = none) (hm : Sparse.rising lo m = true) :
    Sparse.rising lo (Sparse.ins k v m) = true := by
  induction m generalizing lo with
  | nil => simp [Sparse.ins, Sparse.rising, hlo]
  | cons e m ih =>
    obtain ⟨j, w⟩ := e
    simp only [Sparse.find?] at hn
    split at hn
    · cases hn
    · rename_i hj
      simp only [Sparse.rising, Bool.and_eq_true, decide_eq_true_eq] at hm
      simp only [Sparse.ins]
      split
      · rename_i hlt
        simp only [Sparse.rising, Bool.and_eq_true, decide_eq_true_eq]
        exact ⟨hlo, hlt, hm.2⟩
      · rename_i hlt
        simp only [Sparse.rising, Bool.and_eq_true, decide_eq_true_eq]
        exact ⟨hm.1, ih _ (by omega) hn hm.2⟩

theorem Sparse.lean_del {α : Type} [DecidableEq α] (d : Nat → α) (k : Nat) (m : Sparse α)
    (hm : Sparse.lean d m = true) : Sparse.lean d (Sparse.del k m) = true := by
  induction m with
  | nil => rfl
  | cons e m ih =>
    simp only [Sparse.lean, Bool.and_eq_true, decide_eq_true_eq] at hm
    simp only [Sparse.del]
    split
    · exact ih hm.2
    · simp only [Sparse.lean, Bool.and_eq_true, decide_eq_true_eq]
      exact ⟨hm.1, ih hm.2⟩

theorem Sparse.lean_ins {α : Type} [DecidableEq α] (d : Nat → α) (k : Nat) (v : α) (m : Sparse α)
    (hv : v ≠ d k) (hm : Sparse.lean d m = true) : Sparse.lean d (Sparse.ins k v m) = true := by
  induction m with
  | nil => simp [Sparse.ins, Sparse.lean, hv]
  | cons e m ih =>
    simp only [Sparse.lean, Bool.and_eq_true, decide_eq_true_eq] at hm
    simp only [Sparse.ins]
    split
    · simp only [Sparse.lean, Bool.and_eq_true, decide_eq_true_eq]; exact ⟨hv, hm⟩
    · simp only [Sparse.lean, Bool.and_eq_true, decide_eq_true_eq]; exact ⟨hm.1, ih hm.2⟩

/-- Every write of a sparse map keeps its canonical form. -/
theorem Sparse.wf_put {α : Type} [DecidableEq α] (d : Nat → α) (k : Nat) (v : α) (m : Sparse α)
    (hm : Sparse.wf d m = true) : Sparse.wf d (Sparse.put (d k) k v m) = true := by
  simp only [Sparse.wf, Bool.and_eq_true] at hm ⊢
  unfold Sparse.put
  split
  · exact ⟨Sparse.rising_del _ _ _ hm.1, Sparse.lean_del _ _ _ hm.2⟩
  · rename_i hv
    exact ⟨Sparse.rising_ins _ _ _ _ (Nat.zero_le _) (Sparse.find?_del_same k m)
      (Sparse.rising_del _ _ _ hm.1), Sparse.lean_ins _ _ _ _ hv (Sparse.lean_del _ _ _ hm.2)⟩

theorem Sparse.rising_filter {α : Type} (p : Nat × α → Bool) (lo : Nat) (m : Sparse α)
    (hm : Sparse.rising lo m = true) : Sparse.rising lo (m.filter p) = true := by
  induction m generalizing lo with
  | nil => rfl
  | cons e m ih =>
    obtain ⟨k, v⟩ := e
    simp only [Sparse.rising, Bool.and_eq_true, decide_eq_true_eq] at hm
    simp only [List.filter]
    split
    · simp only [Sparse.rising, Bool.and_eq_true, decide_eq_true_eq]; exact ⟨hm.1, ih _ hm.2⟩
    · exact Sparse.rising_mono (by omega) _ (ih _ hm.2)

theorem Sparse.lean_filter {α : Type} [DecidableEq α] (d : Nat → α) (p : Nat × α → Bool) (m : Sparse α)
    (hm : Sparse.lean d m = true) : Sparse.lean d (m.filter p) = true := by
  induction m with
  | nil => rfl
  | cons e m ih =>
    obtain ⟨k, v⟩ := e
    simp only [Sparse.lean, Bool.and_eq_true, decide_eq_true_eq] at hm
    simp only [List.filter]
    split
    · simp only [Sparse.lean, Bool.and_eq_true, decide_eq_true_eq]; exact ⟨hm.1, ih hm.2⟩
    · exact ih hm.2

/-- Leaving entries out keeps the canonical form. -/
theorem Sparse.wf_filter {α : Type} [DecidableEq α] (d : Nat → α) (p : Nat × α → Bool) (m : Sparse α)
    (hm : Sparse.wf d m = true) : Sparse.wf d (m.filter p) = true := by
  simp only [Sparse.wf, Bool.and_eq_true] at hm ⊢
  exact ⟨Sparse.rising_filter _ _ _ hm.1, Sparse.lean_filter _ _ _ hm.2⟩

/-- What a key reads as once entries are left out by key: the same, or the default. -/
theorem Sparse.get_filter {α : Type} (d : α) (p : Nat → Bool) (m : Sparse α) (k : Nat) :
    Sparse.get d (m.filter (fun x => p x.1)) k = if p k then Sparse.get d m k else d := by
  induction m with
  | nil => simp [Sparse.get, Sparse.find?]
  | cons e m ih =>
    obtain ⟨j, v⟩ := e
    simp only [List.filter]
    by_cases hj : j = k
    · subst hj
      by_cases hp : p j = true
      · simp [hp, Sparse.get, Sparse.find?]
      · simp only [Bool.not_eq_true] at hp
        simp only [hp] at ih ⊢
        exact ih
    · cases hp : p j <;> simp only [Sparse.get, Sparse.find?, if_neg hj] at ih ⊢ <;> exact ih


end Sys2Proof.Machine
end

