-- ==== Sys2Proof/Laws/State.lean ====
section
/-! SUPPORT. What each field update of State leaves: one lemma per field per update, true by rfl. -/

set_option Elab.async false
set_option linter.all false

namespace Sys2Proof.Machine

@[simp] theorem PerTree.get_mod_same {α : Type} (p : PerTree α) (t : Tree) (f : α → α) :
    (p.mod t f).get t = f (p.get t) := by cases t <;> rfl

theorem PerTree.get_mod_ne {α : Type} (p : PerTree α) {t u : Tree} (h : u ≠ t) (f : α → α) :
    (p.mod t f).get u = p.get u := by cases t <;> cases u <;> first | rfl | exact absurd rfl h

@[simp] theorem PerRx.get_mod_same {α : Type} (p : PerRx α) (r : Rx) (f : α → α) :
    (p.mod r f).get r = f (p.get r) := by cases r <;> rfl

theorem PerRx.get_mod_ne {α : Type} (p : PerRx α) {r u : Rx} (h : u ≠ r) (f : α → α) :
    (p.mod r f).get u = p.get u := by cases r <;> cases u <;> first | rfl | exact absurd rfl h

@[simp] theorem State.modRf_rf (s : State) (f : RegFile → RegFile) : (s.modRf f).rf = f s.rf := rfl
@[simp] theorem State.modRf_tables (s : State) (f : RegFile → RegFile) : (s.modRf f).tables = s.tables := rfl
@[simp] theorem State.modRf_wins (s : State) (f : RegFile → RegFile) : (s.modRf f).wins = s.wins := rfl
@[simp] theorem State.modRf_cnt (s : State) (f : RegFile → RegFile) : (s.modRf f).cnt = s.cnt := rfl
@[simp] theorem State.modRf_penn (s : State) (f : RegFile → RegFile) : (s.modRf f).penn = s.penn := rfl
@[simp] theorem State.modRf_limited (s : State) (f : RegFile → RegFile) : (s.modRf f).limited = s.limited := rfl
@[simp] theorem State.modRf_out (s : State) (f : RegFile → RegFile) : (s.modRf f).out = s.out := rfl
@[simp] theorem State.modRf_now (s : State) (f : RegFile → RegFile) : (s.modRf f).now = s.now := rfl
@[simp] theorem State.modRf_readData (s : State) (f : RegFile → RegFile) : (s.modRf f).readData = s.readData := rfl
@[simp] theorem State.modRf_readHigh (s : State) (f : RegFile → RegFile) : (s.modRf f).readHigh = s.readHigh := rfl
@[simp] theorem State.modRf_freeIx (s : State) (f : RegFile → RegFile) : (s.modRf f).freeIx = s.freeIx := rfl
@[simp] theorem State.modRf_rx (s : State) (f : RegFile → RegFile) : (s.modRf f).rx = s.rx := rfl
@[simp] theorem State.modRf_tx (s : State) (f : RegFile → RegFile) : (s.modRf f).tx = s.tx := rfl
@[simp] theorem State.modRf_hif (s : State) (f : RegFile → RegFile) : (s.modRf f).hif = s.hif := rfl
@[simp] theorem State.modRf_dma (s : State) (f : RegFile → RegFile) : (s.modRf f).dma = s.dma := rfl
@[simp] theorem State.modRf_uni (s : State) (f : RegFile → RegFile) : (s.modRf f).uni = s.uni := rfl
@[simp] theorem State.modRf_tsk (s : State) (f : RegFile → RegFile) : (s.modRf f).tsk = s.tsk := rfl
@[simp] theorem State.modRf_sto (s : State) (f : RegFile → RegFile) : (s.modRf f).sto = s.sto := rfl
@[simp] theorem State.modRf_xtr (s : State) (f : RegFile → RegFile) : (s.modRf f).xtr = s.xtr := rfl
@[simp] theorem State.modRf_cls (s : State) (f : RegFile → RegFile) : (s.modRf f).cls = s.cls := rfl
@[simp] theorem State.modRf_flow (s : State) (f : RegFile → RegFile) : (s.modRf f).flow = s.flow := rfl
@[simp] theorem State.modRf_usch (s : State) (f : RegFile → RegFile) : (s.modRf f).usch = s.usch := rfl
@[simp] theorem State.modRf_grt (s : State) (f : RegFile → RegFile) : (s.modRf f).grt = s.grt := rfl
@[simp] theorem State.modRf_pol (s : State) (f : RegFile → RegFile) : (s.modRf f).pol = s.pol := rfl
@[simp] theorem State.modRf_frm (s : State) (f : RegFile → RegFile) : (s.modRf f).frm = s.frm := rfl
@[simp] theorem State.modRf_pm (s : State) (f : RegFile → RegFile) : (s.modRf f).pm = s.pm := rfl
@[simp] theorem State.modRf_lsec (s : State) (f : RegFile → RegFile) : (s.modRf f).lsec = s.lsec := rfl
@[simp] theorem State.modRf_rel (s : State) (f : RegFile → RegFile) : (s.modRf f).rel = s.rel := rfl
@[simp] theorem State.modRf_hal (s : State) (f : RegFile → RegFile) : (s.modRf f).hal = s.hal := rfl
@[simp] theorem State.modRf_sram (s : State) (f : RegFile → RegFile) : (s.modRf f).sram = s.sram := rfl
@[simp] theorem State.modRf_dual (s : State) (f : RegFile → RegFile) : (s.modRf f).dual = s.dual := rfl
@[simp] theorem State.modRf_snap (s : State) (f : RegFile → RegFile) : (s.modRf f).snap = s.snap := rfl
@[simp] theorem State.modRf_time (s : State) (f : RegFile → RegFile) : (s.modRf f).time = s.time := rfl
@[simp] theorem State.modRf_act (s : State) (f : RegFile → RegFile) : (s.modRf f).act = s.act := rfl
@[simp] theorem State.modRf_noticeNext (s : State) (f : RegFile → RegFile) : (s.modRf f).noticeNext = s.noticeNext := rfl
@[simp] theorem State.modRf_ccry (s : State) (f : RegFile → RegFile) : (s.modRf f).ccry = s.ccry := rfl
@[simp] theorem State.modRf_kst (s : State) (f : RegFile → RegFile) : (s.modRf f).kst = s.kst := rfl
@[simp] theorem State.modRf_clk (s : State) (f : RegFile → RegFile) : (s.modRf f).clk = s.clk := rfl
@[simp] theorem State.modRf_lehr (s : State) (f : RegFile → RegFile) : (s.modRf f).lehr = s.lehr := rfl
@[simp] theorem State.modRf_tap (s : State) (f : RegFile → RegFile) : (s.modRf f).tap = s.tap := rfl
@[simp] theorem State.modRf_sup (s : State) (f : RegFile → RegFile) : (s.modRf f).sup = s.sup := rfl
@[simp] theorem State.modRf_keep (s : State) (f : RegFile → RegFile) : (s.modRf f).keep = s.keep := rfl
@[simp] theorem State.modRf_core (s : State) (f : RegFile → RegFile) : (s.modRf f).core = s.core := rfl
@[simp] theorem State.modRf_flsh (s : State) (f : RegFile → RegFile) : (s.modRf f).flsh = s.flsh := rfl
@[simp] theorem State.modRf_pending (s : State) (f : RegFile → RegFile) : (s.modRf f).pending = s.pending := rfl
@[simp] theorem State.modTables_rf (s : State) (f : Sparse Word → Sparse Word) : (s.modTables f).rf = s.rf := rfl
@[simp] theorem State.modTables_tables (s : State) (f : Sparse Word → Sparse Word) : (s.modTables f).tables = f s.tables := rfl
@[simp] theorem State.modTables_wins (s : State) (f : Sparse Word → Sparse Word) : (s.modTables f).wins = s.wins := rfl
@[simp] theorem State.modTables_cnt (s : State) (f : Sparse Word → Sparse Word) : (s.modTables f).cnt = s.cnt := rfl
@[simp] theorem State.modTables_penn (s : State) (f : Sparse Word → Sparse Word) : (s.modTables f).penn = s.penn := rfl
@[simp] theorem State.modTables_limited (s : State) (f : Sparse Word → Sparse Word) : (s.modTables f).limited = s.limited := rfl
@[simp] theorem State.modTables_out (s : State) (f : Sparse Word → Sparse Word) : (s.modTables f).out = s.out := rfl
@[simp] theorem State.modTables_now (s : State) (f : Sparse Word → Sparse Word) : (s.modTables f).now = s.now := rfl
@[simp] theorem State.modTables_readData (s : State) (f : Sparse Word → Sparse Word) : (s.modTables f).readData = s.readData := rfl
@[simp] theorem State.modTables_readHigh (s : State) (f : Sparse Word → Sparse Word) : (s.modTables f).readHigh = s.readHigh := rfl
@[simp] theorem State.modTables_freeIx (s : State) (f : Sparse Word → Sparse Word) : (s.modTables f).freeIx = s.freeIx := rfl
@[simp] theorem State.modTables_rx (s : State) (f : Sparse Word → Sparse Word) : (s.modTables f).rx = s.rx := rfl
@[simp] theorem State.modTables_tx (s : State) (f : Sparse Word → Sparse Word) : (s.modTables f).tx = s.tx := rfl
@[simp] theorem State.modTables_hif (s : State) (f : Sparse Word → Sparse Word) : (s.modTables f).hif = s.hif := rfl
@[simp] theorem State.modTables_dma (s : State) (f : Sparse Word → Sparse Word) : (s.modTables f).dma = s.dma := rfl
@[simp] theorem State.modTables_uni (s : State) (f : Sparse Word → Sparse Word) : (s.modTables f).uni = s.uni := rfl
@[simp] theorem State.modTables_tsk (s : State) (f : Sparse Word → Sparse Word) : (s.modTables f).tsk = s.tsk := rfl
@[simp] theorem State.modTables_sto (s : State) (f : Sparse Word → Sparse Word) : (s.modTables f).sto = s.sto := rfl
@[simp] theorem State.modTables_xtr (s : State) (f : Sparse Word → Sparse Word) : (s.modTables f).xtr = s.xtr := rfl
@[simp] theorem State.modTables_cls (s : State) (f : Sparse Word → Sparse Word) : (s.modTables f).cls = s.cls := rfl
@[simp] theorem State.modTables_flow (s : State) (f : Sparse Word → Sparse Word) : (s.modTables f).flow = s.flow := rfl
@[simp] theorem State.modTables_usch (s : State) (f : Sparse Word → Sparse Word) : (s.modTables f).usch = s.usch := rfl
@[simp] theorem State.modTables_grt (s : State) (f : Sparse Word → Sparse Word) : (s.modTables f).grt = s.grt := rfl
@[simp] theorem State.modTables_pol (s : State) (f : Sparse Word → Sparse Word) : (s.modTables f).pol = s.pol := rfl
@[simp] theorem State.modTables_frm (s : State) (f : Sparse Word → Sparse Word) : (s.modTables f).frm = s.frm := rfl
@[simp] theorem State.modTables_pm (s : State) (f : Sparse Word → Sparse Word) : (s.modTables f).pm = s.pm := rfl
@[simp] theorem State.modTables_lsec (s : State) (f : Sparse Word → Sparse Word) : (s.modTables f).lsec = s.lsec := rfl
@[simp] theorem State.modTables_rel (s : State) (f : Sparse Word → Sparse Word) : (s.modTables f).rel = s.rel := rfl
@[simp] theorem State.modTables_hal (s : State) (f : Sparse Word → Sparse Word) : (s.modTables f).hal = s.hal := rfl
@[simp] theorem State.modTables_sram (s : State) (f : Sparse Word → Sparse Word) : (s.modTables f).sram = s.sram := rfl
@[simp] theorem State.modTables_dual (s : State) (f : Sparse Word → Sparse Word) : (s.modTables f).dual = s.dual := rfl
@[simp] theorem State.modTables_snap (s : State) (f : Sparse Word → Sparse Word) : (s.modTables f).snap = s.snap := rfl
@[simp] theorem State.modTables_time (s : State) (f : Sparse Word → Sparse Word) : (s.modTables f).time = s.time := rfl
@[simp] theorem State.modTables_act (s : State) (f : Sparse Word → Sparse Word) : (s.modTables f).act = s.act := rfl
@[simp] theorem State.modTables_noticeNext (s : State) (f : Sparse Word → Sparse Word) : (s.modTables f).noticeNext = s.noticeNext := rfl
@[simp] theorem State.modTables_ccry (s : State) (f : Sparse Word → Sparse Word) : (s.modTables f).ccry = s.ccry := rfl
@[simp] theorem State.modTables_kst (s : State) (f : Sparse Word → Sparse Word) : (s.modTables f).kst = s.kst := rfl
@[simp] theorem State.modTables_clk (s : State) (f : Sparse Word → Sparse Word) : (s.modTables f).clk = s.clk := rfl
@[simp] theorem State.modTables_lehr (s : State) (f : Sparse Word → Sparse Word) : (s.modTables f).lehr = s.lehr := rfl
@[simp] theorem State.modTables_tap (s : State) (f : Sparse Word → Sparse Word) : (s.modTables f).tap = s.tap := rfl
@[simp] theorem State.modTables_sup (s : State) (f : Sparse Word → Sparse Word) : (s.modTables f).sup = s.sup := rfl
@[simp] theorem State.modTables_keep (s : State) (f : Sparse Word → Sparse Word) : (s.modTables f).keep = s.keep := rfl
@[simp] theorem State.modTables_core (s : State) (f : Sparse Word → Sparse Word) : (s.modTables f).core = s.core := rfl
@[simp] theorem State.modTables_flsh (s : State) (f : Sparse Word → Sparse Word) : (s.modTables f).flsh = s.flsh := rfl
@[simp] theorem State.modTables_pending (s : State) (f : Sparse Word → Sparse Word) : (s.modTables f).pending = s.pending := rfl
@[simp] theorem State.modWins_rf (s : State) (f : Sparse IndWin → Sparse IndWin) : (s.modWins f).rf = s.rf := rfl
@[simp] theorem State.modWins_tables (s : State) (f : Sparse IndWin → Sparse IndWin) : (s.modWins f).tables = s.tables := rfl
@[simp] theorem State.modWins_wins (s : State) (f : Sparse IndWin → Sparse IndWin) : (s.modWins f).wins = f s.wins := rfl
@[simp] theorem State.modWins_cnt (s : State) (f : Sparse IndWin → Sparse IndWin) : (s.modWins f).cnt = s.cnt := rfl
@[simp] theorem State.modWins_penn (s : State) (f : Sparse IndWin → Sparse IndWin) : (s.modWins f).penn = s.penn := rfl
@[simp] theorem State.modWins_limited (s : State) (f : Sparse IndWin → Sparse IndWin) : (s.modWins f).limited = s.limited := rfl
@[simp] theorem State.modWins_out (s : State) (f : Sparse IndWin → Sparse IndWin) : (s.modWins f).out = s.out := rfl
@[simp] theorem State.modWins_now (s : State) (f : Sparse IndWin → Sparse IndWin) : (s.modWins f).now = s.now := rfl
@[simp] theorem State.modWins_readData (s : State) (f : Sparse IndWin → Sparse IndWin) : (s.modWins f).readData = s.readData := rfl
@[simp] theorem State.modWins_readHigh (s : State) (f : Sparse IndWin → Sparse IndWin) : (s.modWins f).readHigh = s.readHigh := rfl
@[simp] theorem State.modWins_freeIx (s : State) (f : Sparse IndWin → Sparse IndWin) : (s.modWins f).freeIx = s.freeIx := rfl
@[simp] theorem State.modWins_rx (s : State) (f : Sparse IndWin → Sparse IndWin) : (s.modWins f).rx = s.rx := rfl
@[simp] theorem State.modWins_tx (s : State) (f : Sparse IndWin → Sparse IndWin) : (s.modWins f).tx = s.tx := rfl
@[simp] theorem State.modWins_hif (s : State) (f : Sparse IndWin → Sparse IndWin) : (s.modWins f).hif = s.hif := rfl
@[simp] theorem State.modWins_dma (s : State) (f : Sparse IndWin → Sparse IndWin) : (s.modWins f).dma = s.dma := rfl
@[simp] theorem State.modWins_uni (s : State) (f : Sparse IndWin → Sparse IndWin) : (s.modWins f).uni = s.uni := rfl
@[simp] theorem State.modWins_tsk (s : State) (f : Sparse IndWin → Sparse IndWin) : (s.modWins f).tsk = s.tsk := rfl
@[simp] theorem State.modWins_sto (s : State) (f : Sparse IndWin → Sparse IndWin) : (s.modWins f).sto = s.sto := rfl
@[simp] theorem State.modWins_xtr (s : State) (f : Sparse IndWin → Sparse IndWin) : (s.modWins f).xtr = s.xtr := rfl
@[simp] theorem State.modWins_cls (s : State) (f : Sparse IndWin → Sparse IndWin) : (s.modWins f).cls = s.cls := rfl
@[simp] theorem State.modWins_flow (s : State) (f : Sparse IndWin → Sparse IndWin) : (s.modWins f).flow = s.flow := rfl
@[simp] theorem State.modWins_usch (s : State) (f : Sparse IndWin → Sparse IndWin) : (s.modWins f).usch = s.usch := rfl
@[simp] theorem State.modWins_grt (s : State) (f : Sparse IndWin → Sparse IndWin) : (s.modWins f).grt = s.grt := rfl
@[simp] theorem State.modWins_pol (s : State) (f : Sparse IndWin → Sparse IndWin) : (s.modWins f).pol = s.pol := rfl
@[simp] theorem State.modWins_frm (s : State) (f : Sparse IndWin → Sparse IndWin) : (s.modWins f).frm = s.frm := rfl
@[simp] theorem State.modWins_pm (s : State) (f : Sparse IndWin → Sparse IndWin) : (s.modWins f).pm = s.pm := rfl
@[simp] theorem State.modWins_lsec (s : State) (f : Sparse IndWin → Sparse IndWin) : (s.modWins f).lsec = s.lsec := rfl
@[simp] theorem State.modWins_rel (s : State) (f : Sparse IndWin → Sparse IndWin) : (s.modWins f).rel = s.rel := rfl
@[simp] theorem State.modWins_hal (s : State) (f : Sparse IndWin → Sparse IndWin) : (s.modWins f).hal = s.hal := rfl
@[simp] theorem State.modWins_sram (s : State) (f : Sparse IndWin → Sparse IndWin) : (s.modWins f).sram = s.sram := rfl
@[simp] theorem State.modWins_dual (s : State) (f : Sparse IndWin → Sparse IndWin) : (s.modWins f).dual = s.dual := rfl
@[simp] theorem State.modWins_snap (s : State) (f : Sparse IndWin → Sparse IndWin) : (s.modWins f).snap = s.snap := rfl
@[simp] theorem State.modWins_time (s : State) (f : Sparse IndWin → Sparse IndWin) : (s.modWins f).time = s.time := rfl
@[simp] theorem State.modWins_act (s : State) (f : Sparse IndWin → Sparse IndWin) : (s.modWins f).act = s.act := rfl
@[simp] theorem State.modWins_noticeNext (s : State) (f : Sparse IndWin → Sparse IndWin) : (s.modWins f).noticeNext = s.noticeNext := rfl
@[simp] theorem State.modWins_ccry (s : State) (f : Sparse IndWin → Sparse IndWin) : (s.modWins f).ccry = s.ccry := rfl
@[simp] theorem State.modWins_kst (s : State) (f : Sparse IndWin → Sparse IndWin) : (s.modWins f).kst = s.kst := rfl
@[simp] theorem State.modWins_clk (s : State) (f : Sparse IndWin → Sparse IndWin) : (s.modWins f).clk = s.clk := rfl
@[simp] theorem State.modWins_lehr (s : State) (f : Sparse IndWin → Sparse IndWin) : (s.modWins f).lehr = s.lehr := rfl
@[simp] theorem State.modWins_tap (s : State) (f : Sparse IndWin → Sparse IndWin) : (s.modWins f).tap = s.tap := rfl
@[simp] theorem State.modWins_sup (s : State) (f : Sparse IndWin → Sparse IndWin) : (s.modWins f).sup = s.sup := rfl
@[simp] theorem State.modWins_keep (s : State) (f : Sparse IndWin → Sparse IndWin) : (s.modWins f).keep = s.keep := rfl
@[simp] theorem State.modWins_core (s : State) (f : Sparse IndWin → Sparse IndWin) : (s.modWins f).core = s.core := rfl
@[simp] theorem State.modWins_flsh (s : State) (f : Sparse IndWin → Sparse IndWin) : (s.modWins f).flsh = s.flsh := rfl
@[simp] theorem State.modWins_pending (s : State) (f : Sparse IndWin → Sparse IndWin) : (s.modWins f).pending = s.pending := rfl
@[simp] theorem State.modCnt_rf (s : State) (f : Counts → Counts) : (s.modCnt f).rf = s.rf := rfl
@[simp] theorem State.modCnt_tables (s : State) (f : Counts → Counts) : (s.modCnt f).tables = s.tables := rfl
@[simp] theorem State.modCnt_wins (s : State) (f : Counts → Counts) : (s.modCnt f).wins = s.wins := rfl
@[simp] theorem State.modCnt_cnt (s : State) (f : Counts → Counts) : (s.modCnt f).cnt = f s.cnt := rfl
@[simp] theorem State.modCnt_penn (s : State) (f : Counts → Counts) : (s.modCnt f).penn = s.penn := rfl
@[simp] theorem State.modCnt_limited (s : State) (f : Counts → Counts) : (s.modCnt f).limited = s.limited := rfl
@[simp] theorem State.modCnt_out (s : State) (f : Counts → Counts) : (s.modCnt f).out = s.out := rfl
@[simp] theorem State.modCnt_now (s : State) (f : Counts → Counts) : (s.modCnt f).now = s.now := rfl
@[simp] theorem State.modCnt_readData (s : State) (f : Counts → Counts) : (s.modCnt f).readData = s.readData := rfl
@[simp] theorem State.modCnt_readHigh (s : State) (f : Counts → Counts) : (s.modCnt f).readHigh = s.readHigh := rfl
@[simp] theorem State.modCnt_freeIx (s : State) (f : Counts → Counts) : (s.modCnt f).freeIx = s.freeIx := rfl
@[simp] theorem State.modCnt_rx (s : State) (f : Counts → Counts) : (s.modCnt f).rx = s.rx := rfl
@[simp] theorem State.modCnt_tx (s : State) (f : Counts → Counts) : (s.modCnt f).tx = s.tx := rfl
@[simp] theorem State.modCnt_hif (s : State) (f : Counts → Counts) : (s.modCnt f).hif = s.hif := rfl
@[simp] theorem State.modCnt_dma (s : State) (f : Counts → Counts) : (s.modCnt f).dma = s.dma := rfl
@[simp] theorem State.modCnt_uni (s : State) (f : Counts → Counts) : (s.modCnt f).uni = s.uni := rfl
@[simp] theorem State.modCnt_tsk (s : State) (f : Counts → Counts) : (s.modCnt f).tsk = s.tsk := rfl
@[simp] theorem State.modCnt_sto (s : State) (f : Counts → Counts) : (s.modCnt f).sto = s.sto := rfl
@[simp] theorem State.modCnt_xtr (s : State) (f : Counts → Counts) : (s.modCnt f).xtr = s.xtr := rfl
@[simp] theorem State.modCnt_cls (s : State) (f : Counts → Counts) : (s.modCnt f).cls = s.cls := rfl
@[simp] theorem State.modCnt_flow (s : State) (f : Counts → Counts) : (s.modCnt f).flow = s.flow := rfl
@[simp] theorem State.modCnt_usch (s : State) (f : Counts → Counts) : (s.modCnt f).usch = s.usch := rfl
@[simp] theorem State.modCnt_grt (s : State) (f : Counts → Counts) : (s.modCnt f).grt = s.grt := rfl
@[simp] theorem State.modCnt_pol (s : State) (f : Counts → Counts) : (s.modCnt f).pol = s.pol := rfl
@[simp] theorem State.modCnt_frm (s : State) (f : Counts → Counts) : (s.modCnt f).frm = s.frm := rfl
@[simp] theorem State.modCnt_pm (s : State) (f : Counts → Counts) : (s.modCnt f).pm = s.pm := rfl
@[simp] theorem State.modCnt_lsec (s : State) (f : Counts → Counts) : (s.modCnt f).lsec = s.lsec := rfl
@[simp] theorem State.modCnt_rel (s : State) (f : Counts → Counts) : (s.modCnt f).rel = s.rel := rfl
@[simp] theorem State.modCnt_hal (s : State) (f : Counts → Counts) : (s.modCnt f).hal = s.hal := rfl
@[simp] theorem State.modCnt_sram (s : State) (f : Counts → Counts) : (s.modCnt f).sram = s.sram := rfl
@[simp] theorem State.modCnt_dual (s : State) (f : Counts → Counts) : (s.modCnt f).dual = s.dual := rfl
@[simp] theorem State.modCnt_snap (s : State) (f : Counts → Counts) : (s.modCnt f).snap = s.snap := rfl
@[simp] theorem State.modCnt_time (s : State) (f : Counts → Counts) : (s.modCnt f).time = s.time := rfl
@[simp] theorem State.modCnt_act (s : State) (f : Counts → Counts) : (s.modCnt f).act = s.act := rfl
@[simp] theorem State.modCnt_noticeNext (s : State) (f : Counts → Counts) : (s.modCnt f).noticeNext = s.noticeNext := rfl
@[simp] theorem State.modCnt_ccry (s : State) (f : Counts → Counts) : (s.modCnt f).ccry = s.ccry := rfl
@[simp] theorem State.modCnt_kst (s : State) (f : Counts → Counts) : (s.modCnt f).kst = s.kst := rfl
@[simp] theorem State.modCnt_clk (s : State) (f : Counts → Counts) : (s.modCnt f).clk = s.clk := rfl
@[simp] theorem State.modCnt_lehr (s : State) (f : Counts → Counts) : (s.modCnt f).lehr = s.lehr := rfl
@[simp] theorem State.modCnt_tap (s : State) (f : Counts → Counts) : (s.modCnt f).tap = s.tap := rfl
@[simp] theorem State.modCnt_sup (s : State) (f : Counts → Counts) : (s.modCnt f).sup = s.sup := rfl
@[simp] theorem State.modCnt_keep (s : State) (f : Counts → Counts) : (s.modCnt f).keep = s.keep := rfl
@[simp] theorem State.modCnt_core (s : State) (f : Counts → Counts) : (s.modCnt f).core = s.core := rfl
@[simp] theorem State.modCnt_flsh (s : State) (f : Counts → Counts) : (s.modCnt f).flsh = s.flsh := rfl
@[simp] theorem State.modCnt_pending (s : State) (f : Counts → Counts) : (s.modCnt f).pending = s.pending := rfl
@[simp] theorem State.modPenn_rf (s : State) (f : Sparse PennSt → Sparse PennSt) : (s.modPenn f).rf = s.rf := rfl
@[simp] theorem State.modPenn_tables (s : State) (f : Sparse PennSt → Sparse PennSt) : (s.modPenn f).tables = s.tables := rfl
@[simp] theorem State.modPenn_wins (s : State) (f : Sparse PennSt → Sparse PennSt) : (s.modPenn f).wins = s.wins := rfl
@[simp] theorem State.modPenn_cnt (s : State) (f : Sparse PennSt → Sparse PennSt) : (s.modPenn f).cnt = s.cnt := rfl
@[simp] theorem State.modPenn_penn (s : State) (f : Sparse PennSt → Sparse PennSt) : (s.modPenn f).penn = f s.penn := rfl
@[simp] theorem State.modPenn_limited (s : State) (f : Sparse PennSt → Sparse PennSt) : (s.modPenn f).limited = s.limited := rfl
@[simp] theorem State.modPenn_out (s : State) (f : Sparse PennSt → Sparse PennSt) : (s.modPenn f).out = s.out := rfl
@[simp] theorem State.modPenn_now (s : State) (f : Sparse PennSt → Sparse PennSt) : (s.modPenn f).now = s.now := rfl
@[simp] theorem State.modPenn_readData (s : State) (f : Sparse PennSt → Sparse PennSt) : (s.modPenn f).readData = s.readData := rfl
@[simp] theorem State.modPenn_readHigh (s : State) (f : Sparse PennSt → Sparse PennSt) : (s.modPenn f).readHigh = s.readHigh := rfl
@[simp] theorem State.modPenn_freeIx (s : State) (f : Sparse PennSt → Sparse PennSt) : (s.modPenn f).freeIx = s.freeIx := rfl
@[simp] theorem State.modPenn_rx (s : State) (f : Sparse PennSt → Sparse PennSt) : (s.modPenn f).rx = s.rx := rfl
@[simp] theorem State.modPenn_tx (s : State) (f : Sparse PennSt → Sparse PennSt) : (s.modPenn f).tx = s.tx := rfl
@[simp] theorem State.modPenn_hif (s : State) (f : Sparse PennSt → Sparse PennSt) : (s.modPenn f).hif = s.hif := rfl
@[simp] theorem State.modPenn_dma (s : State) (f : Sparse PennSt → Sparse PennSt) : (s.modPenn f).dma = s.dma := rfl
@[simp] theorem State.modPenn_uni (s : State) (f : Sparse PennSt → Sparse PennSt) : (s.modPenn f).uni = s.uni := rfl
@[simp] theorem State.modPenn_tsk (s : State) (f : Sparse PennSt → Sparse PennSt) : (s.modPenn f).tsk = s.tsk := rfl
@[simp] theorem State.modPenn_sto (s : State) (f : Sparse PennSt → Sparse PennSt) : (s.modPenn f).sto = s.sto := rfl
@[simp] theorem State.modPenn_xtr (s : State) (f : Sparse PennSt → Sparse PennSt) : (s.modPenn f).xtr = s.xtr := rfl
@[simp] theorem State.modPenn_cls (s : State) (f : Sparse PennSt → Sparse PennSt) : (s.modPenn f).cls = s.cls := rfl
@[simp] theorem State.modPenn_flow (s : State) (f : Sparse PennSt → Sparse PennSt) : (s.modPenn f).flow = s.flow := rfl
@[simp] theorem State.modPenn_usch (s : State) (f : Sparse PennSt → Sparse PennSt) : (s.modPenn f).usch = s.usch := rfl
@[simp] theorem State.modPenn_grt (s : State) (f : Sparse PennSt → Sparse PennSt) : (s.modPenn f).grt = s.grt := rfl
@[simp] theorem State.modPenn_pol (s : State) (f : Sparse PennSt → Sparse PennSt) : (s.modPenn f).pol = s.pol := rfl
@[simp] theorem State.modPenn_frm (s : State) (f : Sparse PennSt → Sparse PennSt) : (s.modPenn f).frm = s.frm := rfl
@[simp] theorem State.modPenn_pm (s : State) (f : Sparse PennSt → Sparse PennSt) : (s.modPenn f).pm = s.pm := rfl
@[simp] theorem State.modPenn_lsec (s : State) (f : Sparse PennSt → Sparse PennSt) : (s.modPenn f).lsec = s.lsec := rfl
@[simp] theorem State.modPenn_rel (s : State) (f : Sparse PennSt → Sparse PennSt) : (s.modPenn f).rel = s.rel := rfl
@[simp] theorem State.modPenn_hal (s : State) (f : Sparse PennSt → Sparse PennSt) : (s.modPenn f).hal = s.hal := rfl
@[simp] theorem State.modPenn_sram (s : State) (f : Sparse PennSt → Sparse PennSt) : (s.modPenn f).sram = s.sram := rfl
@[simp] theorem State.modPenn_dual (s : State) (f : Sparse PennSt → Sparse PennSt) : (s.modPenn f).dual = s.dual := rfl
@[simp] theorem State.modPenn_snap (s : State) (f : Sparse PennSt → Sparse PennSt) : (s.modPenn f).snap = s.snap := rfl
@[simp] theorem State.modPenn_time (s : State) (f : Sparse PennSt → Sparse PennSt) : (s.modPenn f).time = s.time := rfl
@[simp] theorem State.modPenn_act (s : State) (f : Sparse PennSt → Sparse PennSt) : (s.modPenn f).act = s.act := rfl
@[simp] theorem State.modPenn_noticeNext (s : State) (f : Sparse PennSt → Sparse PennSt) : (s.modPenn f).noticeNext = s.noticeNext := rfl
@[simp] theorem State.modPenn_ccry (s : State) (f : Sparse PennSt → Sparse PennSt) : (s.modPenn f).ccry = s.ccry := rfl
@[simp] theorem State.modPenn_kst (s : State) (f : Sparse PennSt → Sparse PennSt) : (s.modPenn f).kst = s.kst := rfl
@[simp] theorem State.modPenn_clk (s : State) (f : Sparse PennSt → Sparse PennSt) : (s.modPenn f).clk = s.clk := rfl
@[simp] theorem State.modPenn_lehr (s : State) (f : Sparse PennSt → Sparse PennSt) : (s.modPenn f).lehr = s.lehr := rfl
@[simp] theorem State.modPenn_tap (s : State) (f : Sparse PennSt → Sparse PennSt) : (s.modPenn f).tap = s.tap := rfl
@[simp] theorem State.modPenn_sup (s : State) (f : Sparse PennSt → Sparse PennSt) : (s.modPenn f).sup = s.sup := rfl
@[simp] theorem State.modPenn_keep (s : State) (f : Sparse PennSt → Sparse PennSt) : (s.modPenn f).keep = s.keep := rfl
@[simp] theorem State.modPenn_core (s : State) (f : Sparse PennSt → Sparse PennSt) : (s.modPenn f).core = s.core := rfl
@[simp] theorem State.modPenn_flsh (s : State) (f : Sparse PennSt → Sparse PennSt) : (s.modPenn f).flsh = s.flsh := rfl
@[simp] theorem State.modPenn_pending (s : State) (f : Sparse PennSt → Sparse PennSt) : (s.modPenn f).pending = s.pending := rfl
@[simp] theorem State.modLimited_rf (s : State) (f : Sparse Nat → Sparse Nat) : (s.modLimited f).rf = s.rf := rfl
@[simp] theorem State.modLimited_tables (s : State) (f : Sparse Nat → Sparse Nat) : (s.modLimited f).tables = s.tables := rfl
@[simp] theorem State.modLimited_wins (s : State) (f : Sparse Nat → Sparse Nat) : (s.modLimited f).wins = s.wins := rfl
@[simp] theorem State.modLimited_cnt (s : State) (f : Sparse Nat → Sparse Nat) : (s.modLimited f).cnt = s.cnt := rfl
@[simp] theorem State.modLimited_penn (s : State) (f : Sparse Nat → Sparse Nat) : (s.modLimited f).penn = s.penn := rfl
@[simp] theorem State.modLimited_limited (s : State) (f : Sparse Nat → Sparse Nat) : (s.modLimited f).limited = f s.limited := rfl
@[simp] theorem State.modLimited_out (s : State) (f : Sparse Nat → Sparse Nat) : (s.modLimited f).out = s.out := rfl
@[simp] theorem State.modLimited_now (s : State) (f : Sparse Nat → Sparse Nat) : (s.modLimited f).now = s.now := rfl
@[simp] theorem State.modLimited_readData (s : State) (f : Sparse Nat → Sparse Nat) : (s.modLimited f).readData = s.readData := rfl
@[simp] theorem State.modLimited_readHigh (s : State) (f : Sparse Nat → Sparse Nat) : (s.modLimited f).readHigh = s.readHigh := rfl
@[simp] theorem State.modLimited_freeIx (s : State) (f : Sparse Nat → Sparse Nat) : (s.modLimited f).freeIx = s.freeIx := rfl
@[simp] theorem State.modLimited_rx (s : State) (f : Sparse Nat → Sparse Nat) : (s.modLimited f).rx = s.rx := rfl
@[simp] theorem State.modLimited_tx (s : State) (f : Sparse Nat → Sparse Nat) : (s.modLimited f).tx = s.tx := rfl
@[simp] theorem State.modLimited_hif (s : State) (f : Sparse Nat → Sparse Nat) : (s.modLimited f).hif = s.hif := rfl
@[simp] theorem State.modLimited_dma (s : State) (f : Sparse Nat → Sparse Nat) : (s.modLimited f).dma = s.dma := rfl
@[simp] theorem State.modLimited_uni (s : State) (f : Sparse Nat → Sparse Nat) : (s.modLimited f).uni = s.uni := rfl
@[simp] theorem State.modLimited_tsk (s : State) (f : Sparse Nat → Sparse Nat) : (s.modLimited f).tsk = s.tsk := rfl
@[simp] theorem State.modLimited_sto (s : State) (f : Sparse Nat → Sparse Nat) : (s.modLimited f).sto = s.sto := rfl
@[simp] theorem State.modLimited_xtr (s : State) (f : Sparse Nat → Sparse Nat) : (s.modLimited f).xtr = s.xtr := rfl
@[simp] theorem State.modLimited_cls (s : State) (f : Sparse Nat → Sparse Nat) : (s.modLimited f).cls = s.cls := rfl
@[simp] theorem State.modLimited_flow (s : State) (f : Sparse Nat → Sparse Nat) : (s.modLimited f).flow = s.flow := rfl
@[simp] theorem State.modLimited_usch (s : State) (f : Sparse Nat → Sparse Nat) : (s.modLimited f).usch = s.usch := rfl
@[simp] theorem State.modLimited_grt (s : State) (f : Sparse Nat → Sparse Nat) : (s.modLimited f).grt = s.grt := rfl
@[simp] theorem State.modLimited_pol (s : State) (f : Sparse Nat → Sparse Nat) : (s.modLimited f).pol = s.pol := rfl
@[simp] theorem State.modLimited_frm (s : State) (f : Sparse Nat → Sparse Nat) : (s.modLimited f).frm = s.frm := rfl
@[simp] theorem State.modLimited_pm (s : State) (f : Sparse Nat → Sparse Nat) : (s.modLimited f).pm = s.pm := rfl
@[simp] theorem State.modLimited_lsec (s : State) (f : Sparse Nat → Sparse Nat) : (s.modLimited f).lsec = s.lsec := rfl
@[simp] theorem State.modLimited_rel (s : State) (f : Sparse Nat → Sparse Nat) : (s.modLimited f).rel = s.rel := rfl
@[simp] theorem State.modLimited_hal (s : State) (f : Sparse Nat → Sparse Nat) : (s.modLimited f).hal = s.hal := rfl
@[simp] theorem State.modLimited_sram (s : State) (f : Sparse Nat → Sparse Nat) : (s.modLimited f).sram = s.sram := rfl
@[simp] theorem State.modLimited_dual (s : State) (f : Sparse Nat → Sparse Nat) : (s.modLimited f).dual = s.dual := rfl
@[simp] theorem State.modLimited_snap (s : State) (f : Sparse Nat → Sparse Nat) : (s.modLimited f).snap = s.snap := rfl
@[simp] theorem State.modLimited_time (s : State) (f : Sparse Nat → Sparse Nat) : (s.modLimited f).time = s.time := rfl
@[simp] theorem State.modLimited_act (s : State) (f : Sparse Nat → Sparse Nat) : (s.modLimited f).act = s.act := rfl
@[simp] theorem State.modLimited_noticeNext (s : State) (f : Sparse Nat → Sparse Nat) : (s.modLimited f).noticeNext = s.noticeNext := rfl
@[simp] theorem State.modLimited_ccry (s : State) (f : Sparse Nat → Sparse Nat) : (s.modLimited f).ccry = s.ccry := rfl
@[simp] theorem State.modLimited_kst (s : State) (f : Sparse Nat → Sparse Nat) : (s.modLimited f).kst = s.kst := rfl
@[simp] theorem State.modLimited_clk (s : State) (f : Sparse Nat → Sparse Nat) : (s.modLimited f).clk = s.clk := rfl
@[simp] theorem State.modLimited_lehr (s : State) (f : Sparse Nat → Sparse Nat) : (s.modLimited f).lehr = s.lehr := rfl
@[simp] theorem State.modLimited_tap (s : State) (f : Sparse Nat → Sparse Nat) : (s.modLimited f).tap = s.tap := rfl
@[simp] theorem State.modLimited_sup (s : State) (f : Sparse Nat → Sparse Nat) : (s.modLimited f).sup = s.sup := rfl
@[simp] theorem State.modLimited_keep (s : State) (f : Sparse Nat → Sparse Nat) : (s.modLimited f).keep = s.keep := rfl
@[simp] theorem State.modLimited_core (s : State) (f : Sparse Nat → Sparse Nat) : (s.modLimited f).core = s.core := rfl
@[simp] theorem State.modLimited_flsh (s : State) (f : Sparse Nat → Sparse Nat) : (s.modLimited f).flsh = s.flsh := rfl
@[simp] theorem State.modLimited_pending (s : State) (f : Sparse Nat → Sparse Nat) : (s.modLimited f).pending = s.pending := rfl
@[simp] theorem State.modOut_rf (s : State) (f : List Emission → List Emission) : (s.modOut f).rf = s.rf := rfl
@[simp] theorem State.modOut_tables (s : State) (f : List Emission → List Emission) : (s.modOut f).tables = s.tables := rfl
@[simp] theorem State.modOut_wins (s : State) (f : List Emission → List Emission) : (s.modOut f).wins = s.wins := rfl
@[simp] theorem State.modOut_cnt (s : State) (f : List Emission → List Emission) : (s.modOut f).cnt = s.cnt := rfl
@[simp] theorem State.modOut_penn (s : State) (f : List Emission → List Emission) : (s.modOut f).penn = s.penn := rfl
@[simp] theorem State.modOut_limited (s : State) (f : List Emission → List Emission) : (s.modOut f).limited = s.limited := rfl
@[simp] theorem State.modOut_out (s : State) (f : List Emission → List Emission) : (s.modOut f).out = f s.out := rfl
@[simp] theorem State.modOut_now (s : State) (f : List Emission → List Emission) : (s.modOut f).now = s.now := rfl
@[simp] theorem State.modOut_readData (s : State) (f : List Emission → List Emission) : (s.modOut f).readData = s.readData := rfl
@[simp] theorem State.modOut_readHigh (s : State) (f : List Emission → List Emission) : (s.modOut f).readHigh = s.readHigh := rfl
@[simp] theorem State.modOut_freeIx (s : State) (f : List Emission → List Emission) : (s.modOut f).freeIx = s.freeIx := rfl
@[simp] theorem State.modOut_rx (s : State) (f : List Emission → List Emission) : (s.modOut f).rx = s.rx := rfl
@[simp] theorem State.modOut_tx (s : State) (f : List Emission → List Emission) : (s.modOut f).tx = s.tx := rfl
@[simp] theorem State.modOut_hif (s : State) (f : List Emission → List Emission) : (s.modOut f).hif = s.hif := rfl
@[simp] theorem State.modOut_dma (s : State) (f : List Emission → List Emission) : (s.modOut f).dma = s.dma := rfl
@[simp] theorem State.modOut_uni (s : State) (f : List Emission → List Emission) : (s.modOut f).uni = s.uni := rfl
@[simp] theorem State.modOut_tsk (s : State) (f : List Emission → List Emission) : (s.modOut f).tsk = s.tsk := rfl
@[simp] theorem State.modOut_sto (s : State) (f : List Emission → List Emission) : (s.modOut f).sto = s.sto := rfl
@[simp] theorem State.modOut_xtr (s : State) (f : List Emission → List Emission) : (s.modOut f).xtr = s.xtr := rfl
@[simp] theorem State.modOut_cls (s : State) (f : List Emission → List Emission) : (s.modOut f).cls = s.cls := rfl
@[simp] theorem State.modOut_flow (s : State) (f : List Emission → List Emission) : (s.modOut f).flow = s.flow := rfl
@[simp] theorem State.modOut_usch (s : State) (f : List Emission → List Emission) : (s.modOut f).usch = s.usch := rfl
@[simp] theorem State.modOut_grt (s : State) (f : List Emission → List Emission) : (s.modOut f).grt = s.grt := rfl
@[simp] theorem State.modOut_pol (s : State) (f : List Emission → List Emission) : (s.modOut f).pol = s.pol := rfl
@[simp] theorem State.modOut_frm (s : State) (f : List Emission → List Emission) : (s.modOut f).frm = s.frm := rfl
@[simp] theorem State.modOut_pm (s : State) (f : List Emission → List Emission) : (s.modOut f).pm = s.pm := rfl
@[simp] theorem State.modOut_lsec (s : State) (f : List Emission → List Emission) : (s.modOut f).lsec = s.lsec := rfl
@[simp] theorem State.modOut_rel (s : State) (f : List Emission → List Emission) : (s.modOut f).rel = s.rel := rfl
@[simp] theorem State.modOut_hal (s : State) (f : List Emission → List Emission) : (s.modOut f).hal = s.hal := rfl
@[simp] theorem State.modOut_sram (s : State) (f : List Emission → List Emission) : (s.modOut f).sram = s.sram := rfl
@[simp] theorem State.modOut_dual (s : State) (f : List Emission → List Emission) : (s.modOut f).dual = s.dual := rfl
@[simp] theorem State.modOut_snap (s : State) (f : List Emission → List Emission) : (s.modOut f).snap = s.snap := rfl
@[simp] theorem State.modOut_time (s : State) (f : List Emission → List Emission) : (s.modOut f).time = s.time := rfl
@[simp] theorem State.modOut_act (s : State) (f : List Emission → List Emission) : (s.modOut f).act = s.act := rfl
@[simp] theorem State.modOut_noticeNext (s : State) (f : List Emission → List Emission) : (s.modOut f).noticeNext = s.noticeNext := rfl
@[simp] theorem State.modOut_ccry (s : State) (f : List Emission → List Emission) : (s.modOut f).ccry = s.ccry := rfl
@[simp] theorem State.modOut_kst (s : State) (f : List Emission → List Emission) : (s.modOut f).kst = s.kst := rfl
@[simp] theorem State.modOut_clk (s : State) (f : List Emission → List Emission) : (s.modOut f).clk = s.clk := rfl
@[simp] theorem State.modOut_lehr (s : State) (f : List Emission → List Emission) : (s.modOut f).lehr = s.lehr := rfl
@[simp] theorem State.modOut_tap (s : State) (f : List Emission → List Emission) : (s.modOut f).tap = s.tap := rfl
@[simp] theorem State.modOut_sup (s : State) (f : List Emission → List Emission) : (s.modOut f).sup = s.sup := rfl
@[simp] theorem State.modOut_keep (s : State) (f : List Emission → List Emission) : (s.modOut f).keep = s.keep := rfl
@[simp] theorem State.modOut_core (s : State) (f : List Emission → List Emission) : (s.modOut f).core = s.core := rfl
@[simp] theorem State.modOut_flsh (s : State) (f : List Emission → List Emission) : (s.modOut f).flsh = s.flsh := rfl
@[simp] theorem State.modOut_pending (s : State) (f : List Emission → List Emission) : (s.modOut f).pending = s.pending := rfl
@[simp] theorem State.modNow_rf (s : State) (f : Nat → Nat) : (s.modNow f).rf = s.rf := rfl
@[simp] theorem State.modNow_tables (s : State) (f : Nat → Nat) : (s.modNow f).tables = s.tables := rfl
@[simp] theorem State.modNow_wins (s : State) (f : Nat → Nat) : (s.modNow f).wins = s.wins := rfl
@[simp] theorem State.modNow_cnt (s : State) (f : Nat → Nat) : (s.modNow f).cnt = s.cnt := rfl
@[simp] theorem State.modNow_penn (s : State) (f : Nat → Nat) : (s.modNow f).penn = s.penn := rfl
@[simp] theorem State.modNow_limited (s : State) (f : Nat → Nat) : (s.modNow f).limited = s.limited := rfl
@[simp] theorem State.modNow_out (s : State) (f : Nat → Nat) : (s.modNow f).out = s.out := rfl
@[simp] theorem State.modNow_now (s : State) (f : Nat → Nat) : (s.modNow f).now = f s.now := rfl
@[simp] theorem State.modNow_readData (s : State) (f : Nat → Nat) : (s.modNow f).readData = s.readData := rfl
@[simp] theorem State.modNow_readHigh (s : State) (f : Nat → Nat) : (s.modNow f).readHigh = s.readHigh := rfl
@[simp] theorem State.modNow_freeIx (s : State) (f : Nat → Nat) : (s.modNow f).freeIx = s.freeIx := rfl
@[simp] theorem State.modNow_rx (s : State) (f : Nat → Nat) : (s.modNow f).rx = s.rx := rfl
@[simp] theorem State.modNow_tx (s : State) (f : Nat → Nat) : (s.modNow f).tx = s.tx := rfl
@[simp] theorem State.modNow_hif (s : State) (f : Nat → Nat) : (s.modNow f).hif = s.hif := rfl
@[simp] theorem State.modNow_dma (s : State) (f : Nat → Nat) : (s.modNow f).dma = s.dma := rfl
@[simp] theorem State.modNow_uni (s : State) (f : Nat → Nat) : (s.modNow f).uni = s.uni := rfl
@[simp] theorem State.modNow_tsk (s : State) (f : Nat → Nat) : (s.modNow f).tsk = s.tsk := rfl
@[simp] theorem State.modNow_sto (s : State) (f : Nat → Nat) : (s.modNow f).sto = s.sto := rfl
@[simp] theorem State.modNow_xtr (s : State) (f : Nat → Nat) : (s.modNow f).xtr = s.xtr := rfl
@[simp] theorem State.modNow_cls (s : State) (f : Nat → Nat) : (s.modNow f).cls = s.cls := rfl
@[simp] theorem State.modNow_flow (s : State) (f : Nat → Nat) : (s.modNow f).flow = s.flow := rfl
@[simp] theorem State.modNow_usch (s : State) (f : Nat → Nat) : (s.modNow f).usch = s.usch := rfl
@[simp] theorem State.modNow_grt (s : State) (f : Nat → Nat) : (s.modNow f).grt = s.grt := rfl
@[simp] theorem State.modNow_pol (s : State) (f : Nat → Nat) : (s.modNow f).pol = s.pol := rfl
@[simp] theorem State.modNow_frm (s : State) (f : Nat → Nat) : (s.modNow f).frm = s.frm := rfl
@[simp] theorem State.modNow_pm (s : State) (f : Nat → Nat) : (s.modNow f).pm = s.pm := rfl
@[simp] theorem State.modNow_lsec (s : State) (f : Nat → Nat) : (s.modNow f).lsec = s.lsec := rfl
@[simp] theorem State.modNow_rel (s : State) (f : Nat → Nat) : (s.modNow f).rel = s.rel := rfl
@[simp] theorem State.modNow_hal (s : State) (f : Nat → Nat) : (s.modNow f).hal = s.hal := rfl
@[simp] theorem State.modNow_sram (s : State) (f : Nat → Nat) : (s.modNow f).sram = s.sram := rfl
@[simp] theorem State.modNow_dual (s : State) (f : Nat → Nat) : (s.modNow f).dual = s.dual := rfl
@[simp] theorem State.modNow_snap (s : State) (f : Nat → Nat) : (s.modNow f).snap = s.snap := rfl
@[simp] theorem State.modNow_time (s : State) (f : Nat → Nat) : (s.modNow f).time = s.time := rfl
@[simp] theorem State.modNow_act (s : State) (f : Nat → Nat) : (s.modNow f).act = s.act := rfl
@[simp] theorem State.modNow_noticeNext (s : State) (f : Nat → Nat) : (s.modNow f).noticeNext = s.noticeNext := rfl
@[simp] theorem State.modNow_ccry (s : State) (f : Nat → Nat) : (s.modNow f).ccry = s.ccry := rfl
@[simp] theorem State.modNow_kst (s : State) (f : Nat → Nat) : (s.modNow f).kst = s.kst := rfl
@[simp] theorem State.modNow_clk (s : State) (f : Nat → Nat) : (s.modNow f).clk = s.clk := rfl
@[simp] theorem State.modNow_lehr (s : State) (f : Nat → Nat) : (s.modNow f).lehr = s.lehr := rfl
@[simp] theorem State.modNow_tap (s : State) (f : Nat → Nat) : (s.modNow f).tap = s.tap := rfl
@[simp] theorem State.modNow_sup (s : State) (f : Nat → Nat) : (s.modNow f).sup = s.sup := rfl
@[simp] theorem State.modNow_keep (s : State) (f : Nat → Nat) : (s.modNow f).keep = s.keep := rfl
@[simp] theorem State.modNow_core (s : State) (f : Nat → Nat) : (s.modNow f).core = s.core := rfl
@[simp] theorem State.modNow_flsh (s : State) (f : Nat → Nat) : (s.modNow f).flsh = s.flsh := rfl
@[simp] theorem State.modNow_pending (s : State) (f : Nat → Nat) : (s.modNow f).pending = s.pending := rfl
@[simp] theorem State.modReadData_rf (s : State) (f : Word → Word) : (s.modReadData f).rf = s.rf := rfl
@[simp] theorem State.modReadData_tables (s : State) (f : Word → Word) : (s.modReadData f).tables = s.tables := rfl
@[simp] theorem State.modReadData_wins (s : State) (f : Word → Word) : (s.modReadData f).wins = s.wins := rfl
@[simp] theorem State.modReadData_cnt (s : State) (f : Word → Word) : (s.modReadData f).cnt = s.cnt := rfl
@[simp] theorem State.modReadData_penn (s : State) (f : Word → Word) : (s.modReadData f).penn = s.penn := rfl
@[simp] theorem State.modReadData_limited (s : State) (f : Word → Word) : (s.modReadData f).limited = s.limited := rfl
@[simp] theorem State.modReadData_out (s : State) (f : Word → Word) : (s.modReadData f).out = s.out := rfl
@[simp] theorem State.modReadData_now (s : State) (f : Word → Word) : (s.modReadData f).now = s.now := rfl
@[simp] theorem State.modReadData_readData (s : State) (f : Word → Word) : (s.modReadData f).readData = f s.readData := rfl
@[simp] theorem State.modReadData_readHigh (s : State) (f : Word → Word) : (s.modReadData f).readHigh = s.readHigh := rfl
@[simp] theorem State.modReadData_freeIx (s : State) (f : Word → Word) : (s.modReadData f).freeIx = s.freeIx := rfl
@[simp] theorem State.modReadData_rx (s : State) (f : Word → Word) : (s.modReadData f).rx = s.rx := rfl
@[simp] theorem State.modReadData_tx (s : State) (f : Word → Word) : (s.modReadData f).tx = s.tx := rfl
@[simp] theorem State.modReadData_hif (s : State) (f : Word → Word) : (s.modReadData f).hif = s.hif := rfl
@[simp] theorem State.modReadData_dma (s : State) (f : Word → Word) : (s.modReadData f).dma = s.dma := rfl
@[simp] theorem State.modReadData_uni (s : State) (f : Word → Word) : (s.modReadData f).uni = s.uni := rfl
@[simp] theorem State.modReadData_tsk (s : State) (f : Word → Word) : (s.modReadData f).tsk = s.tsk := rfl
@[simp] theorem State.modReadData_sto (s : State) (f : Word → Word) : (s.modReadData f).sto = s.sto := rfl
@[simp] theorem State.modReadData_xtr (s : State) (f : Word → Word) : (s.modReadData f).xtr = s.xtr := rfl
@[simp] theorem State.modReadData_cls (s : State) (f : Word → Word) : (s.modReadData f).cls = s.cls := rfl
@[simp] theorem State.modReadData_flow (s : State) (f : Word → Word) : (s.modReadData f).flow = s.flow := rfl
@[simp] theorem State.modReadData_usch (s : State) (f : Word → Word) : (s.modReadData f).usch = s.usch := rfl
@[simp] theorem State.modReadData_grt (s : State) (f : Word → Word) : (s.modReadData f).grt = s.grt := rfl
@[simp] theorem State.modReadData_pol (s : State) (f : Word → Word) : (s.modReadData f).pol = s.pol := rfl
@[simp] theorem State.modReadData_frm (s : State) (f : Word → Word) : (s.modReadData f).frm = s.frm := rfl
@[simp] theorem State.modReadData_pm (s : State) (f : Word → Word) : (s.modReadData f).pm = s.pm := rfl
@[simp] theorem State.modReadData_lsec (s : State) (f : Word → Word) : (s.modReadData f).lsec = s.lsec := rfl
@[simp] theorem State.modReadData_rel (s : State) (f : Word → Word) : (s.modReadData f).rel = s.rel := rfl
@[simp] theorem State.modReadData_hal (s : State) (f : Word → Word) : (s.modReadData f).hal = s.hal := rfl
@[simp] theorem State.modReadData_sram (s : State) (f : Word → Word) : (s.modReadData f).sram = s.sram := rfl
@[simp] theorem State.modReadData_dual (s : State) (f : Word → Word) : (s.modReadData f).dual = s.dual := rfl
@[simp] theorem State.modReadData_snap (s : State) (f : Word → Word) : (s.modReadData f).snap = s.snap := rfl
@[simp] theorem State.modReadData_time (s : State) (f : Word → Word) : (s.modReadData f).time = s.time := rfl
@[simp] theorem State.modReadData_act (s : State) (f : Word → Word) : (s.modReadData f).act = s.act := rfl
@[simp] theorem State.modReadData_noticeNext (s : State) (f : Word → Word) : (s.modReadData f).noticeNext = s.noticeNext := rfl
@[simp] theorem State.modReadData_ccry (s : State) (f : Word → Word) : (s.modReadData f).ccry = s.ccry := rfl
@[simp] theorem State.modReadData_kst (s : State) (f : Word → Word) : (s.modReadData f).kst = s.kst := rfl
@[simp] theorem State.modReadData_clk (s : State) (f : Word → Word) : (s.modReadData f).clk = s.clk := rfl
@[simp] theorem State.modReadData_lehr (s : State) (f : Word → Word) : (s.modReadData f).lehr = s.lehr := rfl
@[simp] theorem State.modReadData_tap (s : State) (f : Word → Word) : (s.modReadData f).tap = s.tap := rfl
@[simp] theorem State.modReadData_sup (s : State) (f : Word → Word) : (s.modReadData f).sup = s.sup := rfl
@[simp] theorem State.modReadData_keep (s : State) (f : Word → Word) : (s.modReadData f).keep = s.keep := rfl
@[simp] theorem State.modReadData_core (s : State) (f : Word → Word) : (s.modReadData f).core = s.core := rfl
@[simp] theorem State.modReadData_flsh (s : State) (f : Word → Word) : (s.modReadData f).flsh = s.flsh := rfl
@[simp] theorem State.modReadData_pending (s : State) (f : Word → Word) : (s.modReadData f).pending = s.pending := rfl
@[simp] theorem State.modReadHigh_rf (s : State) (f : Word → Word) : (s.modReadHigh f).rf = s.rf := rfl
@[simp] theorem State.modReadHigh_tables (s : State) (f : Word → Word) : (s.modReadHigh f).tables = s.tables := rfl
@[simp] theorem State.modReadHigh_wins (s : State) (f : Word → Word) : (s.modReadHigh f).wins = s.wins := rfl
@[simp] theorem State.modReadHigh_cnt (s : State) (f : Word → Word) : (s.modReadHigh f).cnt = s.cnt := rfl
@[simp] theorem State.modReadHigh_penn (s : State) (f : Word → Word) : (s.modReadHigh f).penn = s.penn := rfl
@[simp] theorem State.modReadHigh_limited (s : State) (f : Word → Word) : (s.modReadHigh f).limited = s.limited := rfl
@[simp] theorem State.modReadHigh_out (s : State) (f : Word → Word) : (s.modReadHigh f).out = s.out := rfl
@[simp] theorem State.modReadHigh_now (s : State) (f : Word → Word) : (s.modReadHigh f).now = s.now := rfl
@[simp] theorem State.modReadHigh_readData (s : State) (f : Word → Word) : (s.modReadHigh f).readData = s.readData := rfl
@[simp] theorem State.modReadHigh_readHigh (s : State) (f : Word → Word) : (s.modReadHigh f).readHigh = f s.readHigh := rfl
@[simp] theorem State.modReadHigh_freeIx (s : State) (f : Word → Word) : (s.modReadHigh f).freeIx = s.freeIx := rfl
@[simp] theorem State.modReadHigh_rx (s : State) (f : Word → Word) : (s.modReadHigh f).rx = s.rx := rfl
@[simp] theorem State.modReadHigh_tx (s : State) (f : Word → Word) : (s.modReadHigh f).tx = s.tx := rfl
@[simp] theorem State.modReadHigh_hif (s : State) (f : Word → Word) : (s.modReadHigh f).hif = s.hif := rfl
@[simp] theorem State.modReadHigh_dma (s : State) (f : Word → Word) : (s.modReadHigh f).dma = s.dma := rfl
@[simp] theorem State.modReadHigh_uni (s : State) (f : Word → Word) : (s.modReadHigh f).uni = s.uni := rfl
@[simp] theorem State.modReadHigh_tsk (s : State) (f : Word → Word) : (s.modReadHigh f).tsk = s.tsk := rfl
@[simp] theorem State.modReadHigh_sto (s : State) (f : Word → Word) : (s.modReadHigh f).sto = s.sto := rfl
@[simp] theorem State.modReadHigh_xtr (s : State) (f : Word → Word) : (s.modReadHigh f).xtr = s.xtr := rfl
@[simp] theorem State.modReadHigh_cls (s : State) (f : Word → Word) : (s.modReadHigh f).cls = s.cls := rfl
@[simp] theorem State.modReadHigh_flow (s : State) (f : Word → Word) : (s.modReadHigh f).flow = s.flow := rfl
@[simp] theorem State.modReadHigh_usch (s : State) (f : Word → Word) : (s.modReadHigh f).usch = s.usch := rfl
@[simp] theorem State.modReadHigh_grt (s : State) (f : Word → Word) : (s.modReadHigh f).grt = s.grt := rfl
@[simp] theorem State.modReadHigh_pol (s : State) (f : Word → Word) : (s.modReadHigh f).pol = s.pol := rfl
@[simp] theorem State.modReadHigh_frm (s : State) (f : Word → Word) : (s.modReadHigh f).frm = s.frm := rfl
@[simp] theorem State.modReadHigh_pm (s : State) (f : Word → Word) : (s.modReadHigh f).pm = s.pm := rfl
@[simp] theorem State.modReadHigh_lsec (s : State) (f : Word → Word) : (s.modReadHigh f).lsec = s.lsec := rfl
@[simp] theorem State.modReadHigh_rel (s : State) (f : Word → Word) : (s.modReadHigh f).rel = s.rel := rfl
@[simp] theorem State.modReadHigh_hal (s : State) (f : Word → Word) : (s.modReadHigh f).hal = s.hal := rfl
@[simp] theorem State.modReadHigh_sram (s : State) (f : Word → Word) : (s.modReadHigh f).sram = s.sram := rfl
@[simp] theorem State.modReadHigh_dual (s : State) (f : Word → Word) : (s.modReadHigh f).dual = s.dual := rfl
@[simp] theorem State.modReadHigh_snap (s : State) (f : Word → Word) : (s.modReadHigh f).snap = s.snap := rfl
@[simp] theorem State.modReadHigh_time (s : State) (f : Word → Word) : (s.modReadHigh f).time = s.time := rfl
@[simp] theorem State.modReadHigh_act (s : State) (f : Word → Word) : (s.modReadHigh f).act = s.act := rfl
@[simp] theorem State.modReadHigh_noticeNext (s : State) (f : Word → Word) : (s.modReadHigh f).noticeNext = s.noticeNext := rfl
@[simp] theorem State.modReadHigh_ccry (s : State) (f : Word → Word) : (s.modReadHigh f).ccry = s.ccry := rfl
@[simp] theorem State.modReadHigh_kst (s : State) (f : Word → Word) : (s.modReadHigh f).kst = s.kst := rfl
@[simp] theorem State.modReadHigh_clk (s : State) (f : Word → Word) : (s.modReadHigh f).clk = s.clk := rfl
@[simp] theorem State.modReadHigh_lehr (s : State) (f : Word → Word) : (s.modReadHigh f).lehr = s.lehr := rfl
@[simp] theorem State.modReadHigh_tap (s : State) (f : Word → Word) : (s.modReadHigh f).tap = s.tap := rfl
@[simp] theorem State.modReadHigh_sup (s : State) (f : Word → Word) : (s.modReadHigh f).sup = s.sup := rfl
@[simp] theorem State.modReadHigh_keep (s : State) (f : Word → Word) : (s.modReadHigh f).keep = s.keep := rfl
@[simp] theorem State.modReadHigh_core (s : State) (f : Word → Word) : (s.modReadHigh f).core = s.core := rfl
@[simp] theorem State.modReadHigh_flsh (s : State) (f : Word → Word) : (s.modReadHigh f).flsh = s.flsh := rfl
@[simp] theorem State.modReadHigh_pending (s : State) (f : Word → Word) : (s.modReadHigh f).pending = s.pending := rfl
@[simp] theorem State.modFreeIx_rf (s : State) (f : Nat → Nat) : (s.modFreeIx f).rf = s.rf := rfl
@[simp] theorem State.modFreeIx_tables (s : State) (f : Nat → Nat) : (s.modFreeIx f).tables = s.tables := rfl
@[simp] theorem State.modFreeIx_wins (s : State) (f : Nat → Nat) : (s.modFreeIx f).wins = s.wins := rfl
@[simp] theorem State.modFreeIx_cnt (s : State) (f : Nat → Nat) : (s.modFreeIx f).cnt = s.cnt := rfl
@[simp] theorem State.modFreeIx_penn (s : State) (f : Nat → Nat) : (s.modFreeIx f).penn = s.penn := rfl
@[simp] theorem State.modFreeIx_limited (s : State) (f : Nat → Nat) : (s.modFreeIx f).limited = s.limited := rfl
@[simp] theorem State.modFreeIx_out (s : State) (f : Nat → Nat) : (s.modFreeIx f).out = s.out := rfl
@[simp] theorem State.modFreeIx_now (s : State) (f : Nat → Nat) : (s.modFreeIx f).now = s.now := rfl
@[simp] theorem State.modFreeIx_readData (s : State) (f : Nat → Nat) : (s.modFreeIx f).readData = s.readData := rfl
@[simp] theorem State.modFreeIx_readHigh (s : State) (f : Nat → Nat) : (s.modFreeIx f).readHigh = s.readHigh := rfl
@[simp] theorem State.modFreeIx_freeIx (s : State) (f : Nat → Nat) : (s.modFreeIx f).freeIx = f s.freeIx := rfl
@[simp] theorem State.modFreeIx_rx (s : State) (f : Nat → Nat) : (s.modFreeIx f).rx = s.rx := rfl
@[simp] theorem State.modFreeIx_tx (s : State) (f : Nat → Nat) : (s.modFreeIx f).tx = s.tx := rfl
@[simp] theorem State.modFreeIx_hif (s : State) (f : Nat → Nat) : (s.modFreeIx f).hif = s.hif := rfl
@[simp] theorem State.modFreeIx_dma (s : State) (f : Nat → Nat) : (s.modFreeIx f).dma = s.dma := rfl
@[simp] theorem State.modFreeIx_uni (s : State) (f : Nat → Nat) : (s.modFreeIx f).uni = s.uni := rfl
@[simp] theorem State.modFreeIx_tsk (s : State) (f : Nat → Nat) : (s.modFreeIx f).tsk = s.tsk := rfl
@[simp] theorem State.modFreeIx_sto (s : State) (f : Nat → Nat) : (s.modFreeIx f).sto = s.sto := rfl
@[simp] theorem State.modFreeIx_xtr (s : State) (f : Nat → Nat) : (s.modFreeIx f).xtr = s.xtr := rfl
@[simp] theorem State.modFreeIx_cls (s : State) (f : Nat → Nat) : (s.modFreeIx f).cls = s.cls := rfl
@[simp] theorem State.modFreeIx_flow (s : State) (f : Nat → Nat) : (s.modFreeIx f).flow = s.flow := rfl
@[simp] theorem State.modFreeIx_usch (s : State) (f : Nat → Nat) : (s.modFreeIx f).usch = s.usch := rfl
@[simp] theorem State.modFreeIx_grt (s : State) (f : Nat → Nat) : (s.modFreeIx f).grt = s.grt := rfl
@[simp] theorem State.modFreeIx_pol (s : State) (f : Nat → Nat) : (s.modFreeIx f).pol = s.pol := rfl
@[simp] theorem State.modFreeIx_frm (s : State) (f : Nat → Nat) : (s.modFreeIx f).frm = s.frm := rfl
@[simp] theorem State.modFreeIx_pm (s : State) (f : Nat → Nat) : (s.modFreeIx f).pm = s.pm := rfl
@[simp] theorem State.modFreeIx_lsec (s : State) (f : Nat → Nat) : (s.modFreeIx f).lsec = s.lsec := rfl
@[simp] theorem State.modFreeIx_rel (s : State) (f : Nat → Nat) : (s.modFreeIx f).rel = s.rel := rfl
@[simp] theorem State.modFreeIx_hal (s : State) (f : Nat → Nat) : (s.modFreeIx f).hal = s.hal := rfl
@[simp] theorem State.modFreeIx_sram (s : State) (f : Nat → Nat) : (s.modFreeIx f).sram = s.sram := rfl
@[simp] theorem State.modFreeIx_dual (s : State) (f : Nat → Nat) : (s.modFreeIx f).dual = s.dual := rfl
@[simp] theorem State.modFreeIx_snap (s : State) (f : Nat → Nat) : (s.modFreeIx f).snap = s.snap := rfl
@[simp] theorem State.modFreeIx_time (s : State) (f : Nat → Nat) : (s.modFreeIx f).time = s.time := rfl
@[simp] theorem State.modFreeIx_act (s : State) (f : Nat → Nat) : (s.modFreeIx f).act = s.act := rfl
@[simp] theorem State.modFreeIx_noticeNext (s : State) (f : Nat → Nat) : (s.modFreeIx f).noticeNext = s.noticeNext := rfl
@[simp] theorem State.modFreeIx_ccry (s : State) (f : Nat → Nat) : (s.modFreeIx f).ccry = s.ccry := rfl
@[simp] theorem State.modFreeIx_kst (s : State) (f : Nat → Nat) : (s.modFreeIx f).kst = s.kst := rfl
@[simp] theorem State.modFreeIx_clk (s : State) (f : Nat → Nat) : (s.modFreeIx f).clk = s.clk := rfl
@[simp] theorem State.modFreeIx_lehr (s : State) (f : Nat → Nat) : (s.modFreeIx f).lehr = s.lehr := rfl
@[simp] theorem State.modFreeIx_tap (s : State) (f : Nat → Nat) : (s.modFreeIx f).tap = s.tap := rfl
@[simp] theorem State.modFreeIx_sup (s : State) (f : Nat → Nat) : (s.modFreeIx f).sup = s.sup := rfl
@[simp] theorem State.modFreeIx_keep (s : State) (f : Nat → Nat) : (s.modFreeIx f).keep = s.keep := rfl
@[simp] theorem State.modFreeIx_core (s : State) (f : Nat → Nat) : (s.modFreeIx f).core = s.core := rfl
@[simp] theorem State.modFreeIx_flsh (s : State) (f : Nat → Nat) : (s.modFreeIx f).flsh = s.flsh := rfl
@[simp] theorem State.modFreeIx_pending (s : State) (f : Nat → Nat) : (s.modFreeIx f).pending = s.pending := rfl
@[simp] theorem State.modRx_rf (s : State) (f : PerRx RxSt → PerRx RxSt) : (s.modRx f).rf = s.rf := rfl
@[simp] theorem State.modRx_tables (s : State) (f : PerRx RxSt → PerRx RxSt) : (s.modRx f).tables = s.tables := rfl
@[simp] theorem State.modRx_wins (s : State) (f : PerRx RxSt → PerRx RxSt) : (s.modRx f).wins = s.wins := rfl
@[simp] theorem State.modRx_cnt (s : State) (f : PerRx RxSt → PerRx RxSt) : (s.modRx f).cnt = s.cnt := rfl
@[simp] theorem State.modRx_penn (s : State) (f : PerRx RxSt → PerRx RxSt) : (s.modRx f).penn = s.penn := rfl
@[simp] theorem State.modRx_limited (s : State) (f : PerRx RxSt → PerRx RxSt) : (s.modRx f).limited = s.limited := rfl
@[simp] theorem State.modRx_out (s : State) (f : PerRx RxSt → PerRx RxSt) : (s.modRx f).out = s.out := rfl
@[simp] theorem State.modRx_now (s : State) (f : PerRx RxSt → PerRx RxSt) : (s.modRx f).now = s.now := rfl
@[simp] theorem State.modRx_readData (s : State) (f : PerRx RxSt → PerRx RxSt) : (s.modRx f).readData = s.readData := rfl
@[simp] theorem State.modRx_readHigh (s : State) (f : PerRx RxSt → PerRx RxSt) : (s.modRx f).readHigh = s.readHigh := rfl
@[simp] theorem State.modRx_freeIx (s : State) (f : PerRx RxSt → PerRx RxSt) : (s.modRx f).freeIx = s.freeIx := rfl
@[simp] theorem State.modRx_rx (s : State) (f : PerRx RxSt → PerRx RxSt) : (s.modRx f).rx = f s.rx := rfl
@[simp] theorem State.modRx_tx (s : State) (f : PerRx RxSt → PerRx RxSt) : (s.modRx f).tx = s.tx := rfl
@[simp] theorem State.modRx_hif (s : State) (f : PerRx RxSt → PerRx RxSt) : (s.modRx f).hif = s.hif := rfl
@[simp] theorem State.modRx_dma (s : State) (f : PerRx RxSt → PerRx RxSt) : (s.modRx f).dma = s.dma := rfl
@[simp] theorem State.modRx_uni (s : State) (f : PerRx RxSt → PerRx RxSt) : (s.modRx f).uni = s.uni := rfl
@[simp] theorem State.modRx_tsk (s : State) (f : PerRx RxSt → PerRx RxSt) : (s.modRx f).tsk = s.tsk := rfl
@[simp] theorem State.modRx_sto (s : State) (f : PerRx RxSt → PerRx RxSt) : (s.modRx f).sto = s.sto := rfl
@[simp] theorem State.modRx_xtr (s : State) (f : PerRx RxSt → PerRx RxSt) : (s.modRx f).xtr = s.xtr := rfl
@[simp] theorem State.modRx_cls (s : State) (f : PerRx RxSt → PerRx RxSt) : (s.modRx f).cls = s.cls := rfl
@[simp] theorem State.modRx_flow (s : State) (f : PerRx RxSt → PerRx RxSt) : (s.modRx f).flow = s.flow := rfl
@[simp] theorem State.modRx_usch (s : State) (f : PerRx RxSt → PerRx RxSt) : (s.modRx f).usch = s.usch := rfl
@[simp] theorem State.modRx_grt (s : State) (f : PerRx RxSt → PerRx RxSt) : (s.modRx f).grt = s.grt := rfl
@[simp] theorem State.modRx_pol (s : State) (f : PerRx RxSt → PerRx RxSt) : (s.modRx f).pol = s.pol := rfl
@[simp] theorem State.modRx_frm (s : State) (f : PerRx RxSt → PerRx RxSt) : (s.modRx f).frm = s.frm := rfl
@[simp] theorem State.modRx_pm (s : State) (f : PerRx RxSt → PerRx RxSt) : (s.modRx f).pm = s.pm := rfl
@[simp] theorem State.modRx_lsec (s : State) (f : PerRx RxSt → PerRx RxSt) : (s.modRx f).lsec = s.lsec := rfl
@[simp] theorem State.modRx_rel (s : State) (f : PerRx RxSt → PerRx RxSt) : (s.modRx f).rel = s.rel := rfl
@[simp] theorem State.modRx_hal (s : State) (f : PerRx RxSt → PerRx RxSt) : (s.modRx f).hal = s.hal := rfl
@[simp] theorem State.modRx_sram (s : State) (f : PerRx RxSt → PerRx RxSt) : (s.modRx f).sram = s.sram := rfl
@[simp] theorem State.modRx_dual (s : State) (f : PerRx RxSt → PerRx RxSt) : (s.modRx f).dual = s.dual := rfl
@[simp] theorem State.modRx_snap (s : State) (f : PerRx RxSt → PerRx RxSt) : (s.modRx f).snap = s.snap := rfl
@[simp] theorem State.modRx_time (s : State) (f : PerRx RxSt → PerRx RxSt) : (s.modRx f).time = s.time := rfl
@[simp] theorem State.modRx_act (s : State) (f : PerRx RxSt → PerRx RxSt) : (s.modRx f).act = s.act := rfl
@[simp] theorem State.modRx_noticeNext (s : State) (f : PerRx RxSt → PerRx RxSt) : (s.modRx f).noticeNext = s.noticeNext := rfl
@[simp] theorem State.modRx_ccry (s : State) (f : PerRx RxSt → PerRx RxSt) : (s.modRx f).ccry = s.ccry := rfl
@[simp] theorem State.modRx_kst (s : State) (f : PerRx RxSt → PerRx RxSt) : (s.modRx f).kst = s.kst := rfl
@[simp] theorem State.modRx_clk (s : State) (f : PerRx RxSt → PerRx RxSt) : (s.modRx f).clk = s.clk := rfl
@[simp] theorem State.modRx_lehr (s : State) (f : PerRx RxSt → PerRx RxSt) : (s.modRx f).lehr = s.lehr := rfl
@[simp] theorem State.modRx_tap (s : State) (f : PerRx RxSt → PerRx RxSt) : (s.modRx f).tap = s.tap := rfl
@[simp] theorem State.modRx_sup (s : State) (f : PerRx RxSt → PerRx RxSt) : (s.modRx f).sup = s.sup := rfl
@[simp] theorem State.modRx_keep (s : State) (f : PerRx RxSt → PerRx RxSt) : (s.modRx f).keep = s.keep := rfl
@[simp] theorem State.modRx_core (s : State) (f : PerRx RxSt → PerRx RxSt) : (s.modRx f).core = s.core := rfl
@[simp] theorem State.modRx_flsh (s : State) (f : PerRx RxSt → PerRx RxSt) : (s.modRx f).flsh = s.flsh := rfl
@[simp] theorem State.modRx_pending (s : State) (f : PerRx RxSt → PerRx RxSt) : (s.modRx f).pending = s.pending := rfl
@[simp] theorem State.modTx_rf (s : State) (f : PerTree TxSt → PerTree TxSt) : (s.modTx f).rf = s.rf := rfl
@[simp] theorem State.modTx_tables (s : State) (f : PerTree TxSt → PerTree TxSt) : (s.modTx f).tables = s.tables := rfl
@[simp] theorem State.modTx_wins (s : State) (f : PerTree TxSt → PerTree TxSt) : (s.modTx f).wins = s.wins := rfl
@[simp] theorem State.modTx_cnt (s : State) (f : PerTree TxSt → PerTree TxSt) : (s.modTx f).cnt = s.cnt := rfl
@[simp] theorem State.modTx_penn (s : State) (f : PerTree TxSt → PerTree TxSt) : (s.modTx f).penn = s.penn := rfl
@[simp] theorem State.modTx_limited (s : State) (f : PerTree TxSt → PerTree TxSt) : (s.modTx f).limited = s.limited := rfl
@[simp] theorem State.modTx_out (s : State) (f : PerTree TxSt → PerTree TxSt) : (s.modTx f).out = s.out := rfl
@[simp] theorem State.modTx_now (s : State) (f : PerTree TxSt → PerTree TxSt) : (s.modTx f).now = s.now := rfl
@[simp] theorem State.modTx_readData (s : State) (f : PerTree TxSt → PerTree TxSt) : (s.modTx f).readData = s.readData := rfl
@[simp] theorem State.modTx_readHigh (s : State) (f : PerTree TxSt → PerTree TxSt) : (s.modTx f).readHigh = s.readHigh := rfl
@[simp] theorem State.modTx_freeIx (s : State) (f : PerTree TxSt → PerTree TxSt) : (s.modTx f).freeIx = s.freeIx := rfl
@[simp] theorem State.modTx_rx (s : State) (f : PerTree TxSt → PerTree TxSt) : (s.modTx f).rx = s.rx := rfl
@[simp] theorem State.modTx_tx (s : State) (f : PerTree TxSt → PerTree TxSt) : (s.modTx f).tx = f s.tx := rfl
@[simp] theorem State.modTx_hif (s : State) (f : PerTree TxSt → PerTree TxSt) : (s.modTx f).hif = s.hif := rfl
@[simp] theorem State.modTx_dma (s : State) (f : PerTree TxSt → PerTree TxSt) : (s.modTx f).dma = s.dma := rfl
@[simp] theorem State.modTx_uni (s : State) (f : PerTree TxSt → PerTree TxSt) : (s.modTx f).uni = s.uni := rfl
@[simp] theorem State.modTx_tsk (s : State) (f : PerTree TxSt → PerTree TxSt) : (s.modTx f).tsk = s.tsk := rfl
@[simp] theorem State.modTx_sto (s : State) (f : PerTree TxSt → PerTree TxSt) : (s.modTx f).sto = s.sto := rfl
@[simp] theorem State.modTx_xtr (s : State) (f : PerTree TxSt → PerTree TxSt) : (s.modTx f).xtr = s.xtr := rfl
@[simp] theorem State.modTx_cls (s : State) (f : PerTree TxSt → PerTree TxSt) : (s.modTx f).cls = s.cls := rfl
@[simp] theorem State.modTx_flow (s : State) (f : PerTree TxSt → PerTree TxSt) : (s.modTx f).flow = s.flow := rfl
@[simp] theorem State.modTx_usch (s : State) (f : PerTree TxSt → PerTree TxSt) : (s.modTx f).usch = s.usch := rfl
@[simp] theorem State.modTx_grt (s : State) (f : PerTree TxSt → PerTree TxSt) : (s.modTx f).grt = s.grt := rfl
@[simp] theorem State.modTx_pol (s : State) (f : PerTree TxSt → PerTree TxSt) : (s.modTx f).pol = s.pol := rfl
@[simp] theorem State.modTx_frm (s : State) (f : PerTree TxSt → PerTree TxSt) : (s.modTx f).frm = s.frm := rfl
@[simp] theorem State.modTx_pm (s : State) (f : PerTree TxSt → PerTree TxSt) : (s.modTx f).pm = s.pm := rfl
@[simp] theorem State.modTx_lsec (s : State) (f : PerTree TxSt → PerTree TxSt) : (s.modTx f).lsec = s.lsec := rfl
@[simp] theorem State.modTx_rel (s : State) (f : PerTree TxSt → PerTree TxSt) : (s.modTx f).rel = s.rel := rfl
@[simp] theorem State.modTx_hal (s : State) (f : PerTree TxSt → PerTree TxSt) : (s.modTx f).hal = s.hal := rfl
@[simp] theorem State.modTx_sram (s : State) (f : PerTree TxSt → PerTree TxSt) : (s.modTx f).sram = s.sram := rfl
@[simp] theorem State.modTx_dual (s : State) (f : PerTree TxSt → PerTree TxSt) : (s.modTx f).dual = s.dual := rfl
@[simp] theorem State.modTx_snap (s : State) (f : PerTree TxSt → PerTree TxSt) : (s.modTx f).snap = s.snap := rfl
@[simp] theorem State.modTx_time (s : State) (f : PerTree TxSt → PerTree TxSt) : (s.modTx f).time = s.time := rfl
@[simp] theorem State.modTx_act (s : State) (f : PerTree TxSt → PerTree TxSt) : (s.modTx f).act = s.act := rfl
@[simp] theorem State.modTx_noticeNext (s : State) (f : PerTree TxSt → PerTree TxSt) : (s.modTx f).noticeNext = s.noticeNext := rfl
@[simp] theorem State.modTx_ccry (s : State) (f : PerTree TxSt → PerTree TxSt) : (s.modTx f).ccry = s.ccry := rfl
@[simp] theorem State.modTx_kst (s : State) (f : PerTree TxSt → PerTree TxSt) : (s.modTx f).kst = s.kst := rfl
@[simp] theorem State.modTx_clk (s : State) (f : PerTree TxSt → PerTree TxSt) : (s.modTx f).clk = s.clk := rfl
@[simp] theorem State.modTx_lehr (s : State) (f : PerTree TxSt → PerTree TxSt) : (s.modTx f).lehr = s.lehr := rfl
@[simp] theorem State.modTx_tap (s : State) (f : PerTree TxSt → PerTree TxSt) : (s.modTx f).tap = s.tap := rfl
@[simp] theorem State.modTx_sup (s : State) (f : PerTree TxSt → PerTree TxSt) : (s.modTx f).sup = s.sup := rfl
@[simp] theorem State.modTx_keep (s : State) (f : PerTree TxSt → PerTree TxSt) : (s.modTx f).keep = s.keep := rfl
@[simp] theorem State.modTx_core (s : State) (f : PerTree TxSt → PerTree TxSt) : (s.modTx f).core = s.core := rfl
@[simp] theorem State.modTx_flsh (s : State) (f : PerTree TxSt → PerTree TxSt) : (s.modTx f).flsh = s.flsh := rfl
@[simp] theorem State.modTx_pending (s : State) (f : PerTree TxSt → PerTree TxSt) : (s.modTx f).pending = s.pending := rfl
@[simp] theorem State.modHif_rf (s : State) (f : HifSt → HifSt) : (s.modHif f).rf = s.rf := rfl
@[simp] theorem State.modHif_tables (s : State) (f : HifSt → HifSt) : (s.modHif f).tables = s.tables := rfl
@[simp] theorem State.modHif_wins (s : State) (f : HifSt → HifSt) : (s.modHif f).wins = s.wins := rfl
@[simp] theorem State.modHif_cnt (s : State) (f : HifSt → HifSt) : (s.modHif f).cnt = s.cnt := rfl
@[simp] theorem State.modHif_penn (s : State) (f : HifSt → HifSt) : (s.modHif f).penn = s.penn := rfl
@[simp] theorem State.modHif_limited (s : State) (f : HifSt → HifSt) : (s.modHif f).limited = s.limited := rfl
@[simp] theorem State.modHif_out (s : State) (f : HifSt → HifSt) : (s.modHif f).out = s.out := rfl
@[simp] theorem State.modHif_now (s : State) (f : HifSt → HifSt) : (s.modHif f).now = s.now := rfl
@[simp] theorem State.modHif_readData (s : State) (f : HifSt → HifSt) : (s.modHif f).readData = s.readData := rfl
@[simp] theorem State.modHif_readHigh (s : State) (f : HifSt → HifSt) : (s.modHif f).readHigh = s.readHigh := rfl
@[simp] theorem State.modHif_freeIx (s : State) (f : HifSt → HifSt) : (s.modHif f).freeIx = s.freeIx := rfl
@[simp] theorem State.modHif_rx (s : State) (f : HifSt → HifSt) : (s.modHif f).rx = s.rx := rfl
@[simp] theorem State.modHif_tx (s : State) (f : HifSt → HifSt) : (s.modHif f).tx = s.tx := rfl
@[simp] theorem State.modHif_hif (s : State) (f : HifSt → HifSt) : (s.modHif f).hif = f s.hif := rfl
@[simp] theorem State.modHif_dma (s : State) (f : HifSt → HifSt) : (s.modHif f).dma = s.dma := rfl
@[simp] theorem State.modHif_uni (s : State) (f : HifSt → HifSt) : (s.modHif f).uni = s.uni := rfl
@[simp] theorem State.modHif_tsk (s : State) (f : HifSt → HifSt) : (s.modHif f).tsk = s.tsk := rfl
@[simp] theorem State.modHif_sto (s : State) (f : HifSt → HifSt) : (s.modHif f).sto = s.sto := rfl
@[simp] theorem State.modHif_xtr (s : State) (f : HifSt → HifSt) : (s.modHif f).xtr = s.xtr := rfl
@[simp] theorem State.modHif_cls (s : State) (f : HifSt → HifSt) : (s.modHif f).cls = s.cls := rfl
@[simp] theorem State.modHif_flow (s : State) (f : HifSt → HifSt) : (s.modHif f).flow = s.flow := rfl
@[simp] theorem State.modHif_usch (s : State) (f : HifSt → HifSt) : (s.modHif f).usch = s.usch := rfl
@[simp] theorem State.modHif_grt (s : State) (f : HifSt → HifSt) : (s.modHif f).grt = s.grt := rfl
@[simp] theorem State.modHif_pol (s : State) (f : HifSt → HifSt) : (s.modHif f).pol = s.pol := rfl
@[simp] theorem State.modHif_frm (s : State) (f : HifSt → HifSt) : (s.modHif f).frm = s.frm := rfl
@[simp] theorem State.modHif_pm (s : State) (f : HifSt → HifSt) : (s.modHif f).pm = s.pm := rfl
@[simp] theorem State.modHif_lsec (s : State) (f : HifSt → HifSt) : (s.modHif f).lsec = s.lsec := rfl
@[simp] theorem State.modHif_rel (s : State) (f : HifSt → HifSt) : (s.modHif f).rel = s.rel := rfl
@[simp] theorem State.modHif_hal (s : State) (f : HifSt → HifSt) : (s.modHif f).hal = s.hal := rfl
@[simp] theorem State.modHif_sram (s : State) (f : HifSt → HifSt) : (s.modHif f).sram = s.sram := rfl
@[simp] theorem State.modHif_dual (s : State) (f : HifSt → HifSt) : (s.modHif f).dual = s.dual := rfl
@[simp] theorem State.modHif_snap (s : State) (f : HifSt → HifSt) : (s.modHif f).snap = s.snap := rfl
@[simp] theorem State.modHif_time (s : State) (f : HifSt → HifSt) : (s.modHif f).time = s.time := rfl
@[simp] theorem State.modHif_act (s : State) (f : HifSt → HifSt) : (s.modHif f).act = s.act := rfl
@[simp] theorem State.modHif_noticeNext (s : State) (f : HifSt → HifSt) : (s.modHif f).noticeNext = s.noticeNext := rfl
@[simp] theorem State.modHif_ccry (s : State) (f : HifSt → HifSt) : (s.modHif f).ccry = s.ccry := rfl
@[simp] theorem State.modHif_kst (s : State) (f : HifSt → HifSt) : (s.modHif f).kst = s.kst := rfl
@[simp] theorem State.modHif_clk (s : State) (f : HifSt → HifSt) : (s.modHif f).clk = s.clk := rfl
@[simp] theorem State.modHif_lehr (s : State) (f : HifSt → HifSt) : (s.modHif f).lehr = s.lehr := rfl
@[simp] theorem State.modHif_tap (s : State) (f : HifSt → HifSt) : (s.modHif f).tap = s.tap := rfl
@[simp] theorem State.modHif_sup (s : State) (f : HifSt → HifSt) : (s.modHif f).sup = s.sup := rfl
@[simp] theorem State.modHif_keep (s : State) (f : HifSt → HifSt) : (s.modHif f).keep = s.keep := rfl
@[simp] theorem State.modHif_core (s : State) (f : HifSt → HifSt) : (s.modHif f).core = s.core := rfl
@[simp] theorem State.modHif_flsh (s : State) (f : HifSt → HifSt) : (s.modHif f).flsh = s.flsh := rfl
@[simp] theorem State.modHif_pending (s : State) (f : HifSt → HifSt) : (s.modHif f).pending = s.pending := rfl
@[simp] theorem State.modDma_rf (s : State) (f : DmaSt → DmaSt) : (s.modDma f).rf = s.rf := rfl
@[simp] theorem State.modDma_tables (s : State) (f : DmaSt → DmaSt) : (s.modDma f).tables = s.tables := rfl
@[simp] theorem State.modDma_wins (s : State) (f : DmaSt → DmaSt) : (s.modDma f).wins = s.wins := rfl
@[simp] theorem State.modDma_cnt (s : State) (f : DmaSt → DmaSt) : (s.modDma f).cnt = s.cnt := rfl
@[simp] theorem State.modDma_penn (s : State) (f : DmaSt → DmaSt) : (s.modDma f).penn = s.penn := rfl
@[simp] theorem State.modDma_limited (s : State) (f : DmaSt → DmaSt) : (s.modDma f).limited = s.limited := rfl
@[simp] theorem State.modDma_out (s : State) (f : DmaSt → DmaSt) : (s.modDma f).out = s.out := rfl
@[simp] theorem State.modDma_now (s : State) (f : DmaSt → DmaSt) : (s.modDma f).now = s.now := rfl
@[simp] theorem State.modDma_readData (s : State) (f : DmaSt → DmaSt) : (s.modDma f).readData = s.readData := rfl
@[simp] theorem State.modDma_readHigh (s : State) (f : DmaSt → DmaSt) : (s.modDma f).readHigh = s.readHigh := rfl
@[simp] theorem State.modDma_freeIx (s : State) (f : DmaSt → DmaSt) : (s.modDma f).freeIx = s.freeIx := rfl
@[simp] theorem State.modDma_rx (s : State) (f : DmaSt → DmaSt) : (s.modDma f).rx = s.rx := rfl
@[simp] theorem State.modDma_tx (s : State) (f : DmaSt → DmaSt) : (s.modDma f).tx = s.tx := rfl
@[simp] theorem State.modDma_hif (s : State) (f : DmaSt → DmaSt) : (s.modDma f).hif = s.hif := rfl
@[simp] theorem State.modDma_dma (s : State) (f : DmaSt → DmaSt) : (s.modDma f).dma = f s.dma := rfl
@[simp] theorem State.modDma_uni (s : State) (f : DmaSt → DmaSt) : (s.modDma f).uni = s.uni := rfl
@[simp] theorem State.modDma_tsk (s : State) (f : DmaSt → DmaSt) : (s.modDma f).tsk = s.tsk := rfl
@[simp] theorem State.modDma_sto (s : State) (f : DmaSt → DmaSt) : (s.modDma f).sto = s.sto := rfl
@[simp] theorem State.modDma_xtr (s : State) (f : DmaSt → DmaSt) : (s.modDma f).xtr = s.xtr := rfl
@[simp] theorem State.modDma_cls (s : State) (f : DmaSt → DmaSt) : (s.modDma f).cls = s.cls := rfl
@[simp] theorem State.modDma_flow (s : State) (f : DmaSt → DmaSt) : (s.modDma f).flow = s.flow := rfl
@[simp] theorem State.modDma_usch (s : State) (f : DmaSt → DmaSt) : (s.modDma f).usch = s.usch := rfl
@[simp] theorem State.modDma_grt (s : State) (f : DmaSt → DmaSt) : (s.modDma f).grt = s.grt := rfl
@[simp] theorem State.modDma_pol (s : State) (f : DmaSt → DmaSt) : (s.modDma f).pol = s.pol := rfl
@[simp] theorem State.modDma_frm (s : State) (f : DmaSt → DmaSt) : (s.modDma f).frm = s.frm := rfl
@[simp] theorem State.modDma_pm (s : State) (f : DmaSt → DmaSt) : (s.modDma f).pm = s.pm := rfl
@[simp] theorem State.modDma_lsec (s : State) (f : DmaSt → DmaSt) : (s.modDma f).lsec = s.lsec := rfl
@[simp] theorem State.modDma_rel (s : State) (f : DmaSt → DmaSt) : (s.modDma f).rel = s.rel := rfl
@[simp] theorem State.modDma_hal (s : State) (f : DmaSt → DmaSt) : (s.modDma f).hal = s.hal := rfl
@[simp] theorem State.modDma_sram (s : State) (f : DmaSt → DmaSt) : (s.modDma f).sram = s.sram := rfl
@[simp] theorem State.modDma_dual (s : State) (f : DmaSt → DmaSt) : (s.modDma f).dual = s.dual := rfl
@[simp] theorem State.modDma_snap (s : State) (f : DmaSt → DmaSt) : (s.modDma f).snap = s.snap := rfl
@[simp] theorem State.modDma_time (s : State) (f : DmaSt → DmaSt) : (s.modDma f).time = s.time := rfl
@[simp] theorem State.modDma_act (s : State) (f : DmaSt → DmaSt) : (s.modDma f).act = s.act := rfl
@[simp] theorem State.modDma_noticeNext (s : State) (f : DmaSt → DmaSt) : (s.modDma f).noticeNext = s.noticeNext := rfl
@[simp] theorem State.modDma_ccry (s : State) (f : DmaSt → DmaSt) : (s.modDma f).ccry = s.ccry := rfl
@[simp] theorem State.modDma_kst (s : State) (f : DmaSt → DmaSt) : (s.modDma f).kst = s.kst := rfl
@[simp] theorem State.modDma_clk (s : State) (f : DmaSt → DmaSt) : (s.modDma f).clk = s.clk := rfl
@[simp] theorem State.modDma_lehr (s : State) (f : DmaSt → DmaSt) : (s.modDma f).lehr = s.lehr := rfl
@[simp] theorem State.modDma_tap (s : State) (f : DmaSt → DmaSt) : (s.modDma f).tap = s.tap := rfl
@[simp] theorem State.modDma_sup (s : State) (f : DmaSt → DmaSt) : (s.modDma f).sup = s.sup := rfl
@[simp] theorem State.modDma_keep (s : State) (f : DmaSt → DmaSt) : (s.modDma f).keep = s.keep := rfl
@[simp] theorem State.modDma_core (s : State) (f : DmaSt → DmaSt) : (s.modDma f).core = s.core := rfl
@[simp] theorem State.modDma_flsh (s : State) (f : DmaSt → DmaSt) : (s.modDma f).flsh = s.flsh := rfl
@[simp] theorem State.modDma_pending (s : State) (f : DmaSt → DmaSt) : (s.modDma f).pending = s.pending := rfl
@[simp] theorem State.modUni_rf (s : State) (f : UniSt → UniSt) : (s.modUni f).rf = s.rf := rfl
@[simp] theorem State.modUni_tables (s : State) (f : UniSt → UniSt) : (s.modUni f).tables = s.tables := rfl
@[simp] theorem State.modUni_wins (s : State) (f : UniSt → UniSt) : (s.modUni f).wins = s.wins := rfl
@[simp] theorem State.modUni_cnt (s : State) (f : UniSt → UniSt) : (s.modUni f).cnt = s.cnt := rfl
@[simp] theorem State.modUni_penn (s : State) (f : UniSt → UniSt) : (s.modUni f).penn = s.penn := rfl
@[simp] theorem State.modUni_limited (s : State) (f : UniSt → UniSt) : (s.modUni f).limited = s.limited := rfl
@[simp] theorem State.modUni_out (s : State) (f : UniSt → UniSt) : (s.modUni f).out = s.out := rfl
@[simp] theorem State.modUni_now (s : State) (f : UniSt → UniSt) : (s.modUni f).now = s.now := rfl
@[simp] theorem State.modUni_readData (s : State) (f : UniSt → UniSt) : (s.modUni f).readData = s.readData := rfl
@[simp] theorem State.modUni_readHigh (s : State) (f : UniSt → UniSt) : (s.modUni f).readHigh = s.readHigh := rfl
@[simp] theorem State.modUni_freeIx (s : State) (f : UniSt → UniSt) : (s.modUni f).freeIx = s.freeIx := rfl
@[simp] theorem State.modUni_rx (s : State) (f : UniSt → UniSt) : (s.modUni f).rx = s.rx := rfl
@[simp] theorem State.modUni_tx (s : State) (f : UniSt → UniSt) : (s.modUni f).tx = s.tx := rfl
@[simp] theorem State.modUni_hif (s : State) (f : UniSt → UniSt) : (s.modUni f).hif = s.hif := rfl
@[simp] theorem State.modUni_dma (s : State) (f : UniSt → UniSt) : (s.modUni f).dma = s.dma := rfl
@[simp] theorem State.modUni_uni (s : State) (f : UniSt → UniSt) : (s.modUni f).uni = f s.uni := rfl
@[simp] theorem State.modUni_tsk (s : State) (f : UniSt → UniSt) : (s.modUni f).tsk = s.tsk := rfl
@[simp] theorem State.modUni_sto (s : State) (f : UniSt → UniSt) : (s.modUni f).sto = s.sto := rfl
@[simp] theorem State.modUni_xtr (s : State) (f : UniSt → UniSt) : (s.modUni f).xtr = s.xtr := rfl
@[simp] theorem State.modUni_cls (s : State) (f : UniSt → UniSt) : (s.modUni f).cls = s.cls := rfl
@[simp] theorem State.modUni_flow (s : State) (f : UniSt → UniSt) : (s.modUni f).flow = s.flow := rfl
@[simp] theorem State.modUni_usch (s : State) (f : UniSt → UniSt) : (s.modUni f).usch = s.usch := rfl
@[simp] theorem State.modUni_grt (s : State) (f : UniSt → UniSt) : (s.modUni f).grt = s.grt := rfl
@[simp] theorem State.modUni_pol (s : State) (f : UniSt → UniSt) : (s.modUni f).pol = s.pol := rfl
@[simp] theorem State.modUni_frm (s : State) (f : UniSt → UniSt) : (s.modUni f).frm = s.frm := rfl
@[simp] theorem State.modUni_pm (s : State) (f : UniSt → UniSt) : (s.modUni f).pm = s.pm := rfl
@[simp] theorem State.modUni_lsec (s : State) (f : UniSt → UniSt) : (s.modUni f).lsec = s.lsec := rfl
@[simp] theorem State.modUni_rel (s : State) (f : UniSt → UniSt) : (s.modUni f).rel = s.rel := rfl
@[simp] theorem State.modUni_hal (s : State) (f : UniSt → UniSt) : (s.modUni f).hal = s.hal := rfl
@[simp] theorem State.modUni_sram (s : State) (f : UniSt → UniSt) : (s.modUni f).sram = s.sram := rfl
@[simp] theorem State.modUni_dual (s : State) (f : UniSt → UniSt) : (s.modUni f).dual = s.dual := rfl
@[simp] theorem State.modUni_snap (s : State) (f : UniSt → UniSt) : (s.modUni f).snap = s.snap := rfl
@[simp] theorem State.modUni_time (s : State) (f : UniSt → UniSt) : (s.modUni f).time = s.time := rfl
@[simp] theorem State.modUni_act (s : State) (f : UniSt → UniSt) : (s.modUni f).act = s.act := rfl
@[simp] theorem State.modUni_noticeNext (s : State) (f : UniSt → UniSt) : (s.modUni f).noticeNext = s.noticeNext := rfl
@[simp] theorem State.modUni_ccry (s : State) (f : UniSt → UniSt) : (s.modUni f).ccry = s.ccry := rfl
@[simp] theorem State.modUni_kst (s : State) (f : UniSt → UniSt) : (s.modUni f).kst = s.kst := rfl
@[simp] theorem State.modUni_clk (s : State) (f : UniSt → UniSt) : (s.modUni f).clk = s.clk := rfl
@[simp] theorem State.modUni_lehr (s : State) (f : UniSt → UniSt) : (s.modUni f).lehr = s.lehr := rfl
@[simp] theorem State.modUni_tap (s : State) (f : UniSt → UniSt) : (s.modUni f).tap = s.tap := rfl
@[simp] theorem State.modUni_sup (s : State) (f : UniSt → UniSt) : (s.modUni f).sup = s.sup := rfl
@[simp] theorem State.modUni_keep (s : State) (f : UniSt → UniSt) : (s.modUni f).keep = s.keep := rfl
@[simp] theorem State.modUni_core (s : State) (f : UniSt → UniSt) : (s.modUni f).core = s.core := rfl
@[simp] theorem State.modUni_flsh (s : State) (f : UniSt → UniSt) : (s.modUni f).flsh = s.flsh := rfl
@[simp] theorem State.modUni_pending (s : State) (f : UniSt → UniSt) : (s.modUni f).pending = s.pending := rfl
@[simp] theorem State.modTsk_rf (s : State) (f : TskSt → TskSt) : (s.modTsk f).rf = s.rf := rfl
@[simp] theorem State.modTsk_tables (s : State) (f : TskSt → TskSt) : (s.modTsk f).tables = s.tables := rfl
@[simp] theorem State.modTsk_wins (s : State) (f : TskSt → TskSt) : (s.modTsk f).wins = s.wins := rfl
@[simp] theorem State.modTsk_cnt (s : State) (f : TskSt → TskSt) : (s.modTsk f).cnt = s.cnt := rfl
@[simp] theorem State.modTsk_penn (s : State) (f : TskSt → TskSt) : (s.modTsk f).penn = s.penn := rfl
@[simp] theorem State.modTsk_limited (s : State) (f : TskSt → TskSt) : (s.modTsk f).limited = s.limited := rfl
@[simp] theorem State.modTsk_out (s : State) (f : TskSt → TskSt) : (s.modTsk f).out = s.out := rfl
@[simp] theorem State.modTsk_now (s : State) (f : TskSt → TskSt) : (s.modTsk f).now = s.now := rfl
@[simp] theorem State.modTsk_readData (s : State) (f : TskSt → TskSt) : (s.modTsk f).readData = s.readData := rfl
@[simp] theorem State.modTsk_readHigh (s : State) (f : TskSt → TskSt) : (s.modTsk f).readHigh = s.readHigh := rfl
@[simp] theorem State.modTsk_freeIx (s : State) (f : TskSt → TskSt) : (s.modTsk f).freeIx = s.freeIx := rfl
@[simp] theorem State.modTsk_rx (s : State) (f : TskSt → TskSt) : (s.modTsk f).rx = s.rx := rfl
@[simp] theorem State.modTsk_tx (s : State) (f : TskSt → TskSt) : (s.modTsk f).tx = s.tx := rfl
@[simp] theorem State.modTsk_hif (s : State) (f : TskSt → TskSt) : (s.modTsk f).hif = s.hif := rfl
@[simp] theorem State.modTsk_dma (s : State) (f : TskSt → TskSt) : (s.modTsk f).dma = s.dma := rfl
@[simp] theorem State.modTsk_uni (s : State) (f : TskSt → TskSt) : (s.modTsk f).uni = s.uni := rfl
@[simp] theorem State.modTsk_tsk (s : State) (f : TskSt → TskSt) : (s.modTsk f).tsk = f s.tsk := rfl
@[simp] theorem State.modTsk_sto (s : State) (f : TskSt → TskSt) : (s.modTsk f).sto = s.sto := rfl
@[simp] theorem State.modTsk_xtr (s : State) (f : TskSt → TskSt) : (s.modTsk f).xtr = s.xtr := rfl
@[simp] theorem State.modTsk_cls (s : State) (f : TskSt → TskSt) : (s.modTsk f).cls = s.cls := rfl
@[simp] theorem State.modTsk_flow (s : State) (f : TskSt → TskSt) : (s.modTsk f).flow = s.flow := rfl
@[simp] theorem State.modTsk_usch (s : State) (f : TskSt → TskSt) : (s.modTsk f).usch = s.usch := rfl
@[simp] theorem State.modTsk_grt (s : State) (f : TskSt → TskSt) : (s.modTsk f).grt = s.grt := rfl
@[simp] theorem State.modTsk_pol (s : State) (f : TskSt → TskSt) : (s.modTsk f).pol = s.pol := rfl
@[simp] theorem State.modTsk_frm (s : State) (f : TskSt → TskSt) : (s.modTsk f).frm = s.frm := rfl
@[simp] theorem State.modTsk_pm (s : State) (f : TskSt → TskSt) : (s.modTsk f).pm = s.pm := rfl
@[simp] theorem State.modTsk_lsec (s : State) (f : TskSt → TskSt) : (s.modTsk f).lsec = s.lsec := rfl
@[simp] theorem State.modTsk_rel (s : State) (f : TskSt → TskSt) : (s.modTsk f).rel = s.rel := rfl
@[simp] theorem State.modTsk_hal (s : State) (f : TskSt → TskSt) : (s.modTsk f).hal = s.hal := rfl
@[simp] theorem State.modTsk_sram (s : State) (f : TskSt → TskSt) : (s.modTsk f).sram = s.sram := rfl
@[simp] theorem State.modTsk_dual (s : State) (f : TskSt → TskSt) : (s.modTsk f).dual = s.dual := rfl
@[simp] theorem State.modTsk_snap (s : State) (f : TskSt → TskSt) : (s.modTsk f).snap = s.snap := rfl
@[simp] theorem State.modTsk_time (s : State) (f : TskSt → TskSt) : (s.modTsk f).time = s.time := rfl
@[simp] theorem State.modTsk_act (s : State) (f : TskSt → TskSt) : (s.modTsk f).act = s.act := rfl
@[simp] theorem State.modTsk_noticeNext (s : State) (f : TskSt → TskSt) : (s.modTsk f).noticeNext = s.noticeNext := rfl
@[simp] theorem State.modTsk_ccry (s : State) (f : TskSt → TskSt) : (s.modTsk f).ccry = s.ccry := rfl
@[simp] theorem State.modTsk_kst (s : State) (f : TskSt → TskSt) : (s.modTsk f).kst = s.kst := rfl
@[simp] theorem State.modTsk_clk (s : State) (f : TskSt → TskSt) : (s.modTsk f).clk = s.clk := rfl
@[simp] theorem State.modTsk_lehr (s : State) (f : TskSt → TskSt) : (s.modTsk f).lehr = s.lehr := rfl
@[simp] theorem State.modTsk_tap (s : State) (f : TskSt → TskSt) : (s.modTsk f).tap = s.tap := rfl
@[simp] theorem State.modTsk_sup (s : State) (f : TskSt → TskSt) : (s.modTsk f).sup = s.sup := rfl
@[simp] theorem State.modTsk_keep (s : State) (f : TskSt → TskSt) : (s.modTsk f).keep = s.keep := rfl
@[simp] theorem State.modTsk_core (s : State) (f : TskSt → TskSt) : (s.modTsk f).core = s.core := rfl
@[simp] theorem State.modTsk_flsh (s : State) (f : TskSt → TskSt) : (s.modTsk f).flsh = s.flsh := rfl
@[simp] theorem State.modTsk_pending (s : State) (f : TskSt → TskSt) : (s.modTsk f).pending = s.pending := rfl
@[simp] theorem State.modSto_rf (s : State) (f : StoSt → StoSt) : (s.modSto f).rf = s.rf := rfl
@[simp] theorem State.modSto_tables (s : State) (f : StoSt → StoSt) : (s.modSto f).tables = s.tables := rfl
@[simp] theorem State.modSto_wins (s : State) (f : StoSt → StoSt) : (s.modSto f).wins = s.wins := rfl
@[simp] theorem State.modSto_cnt (s : State) (f : StoSt → StoSt) : (s.modSto f).cnt = s.cnt := rfl
@[simp] theorem State.modSto_penn (s : State) (f : StoSt → StoSt) : (s.modSto f).penn = s.penn := rfl
@[simp] theorem State.modSto_limited (s : State) (f : StoSt → StoSt) : (s.modSto f).limited = s.limited := rfl
@[simp] theorem State.modSto_out (s : State) (f : StoSt → StoSt) : (s.modSto f).out = s.out := rfl
@[simp] theorem State.modSto_now (s : State) (f : StoSt → StoSt) : (s.modSto f).now = s.now := rfl
@[simp] theorem State.modSto_readData (s : State) (f : StoSt → StoSt) : (s.modSto f).readData = s.readData := rfl
@[simp] theorem State.modSto_readHigh (s : State) (f : StoSt → StoSt) : (s.modSto f).readHigh = s.readHigh := rfl
@[simp] theorem State.modSto_freeIx (s : State) (f : StoSt → StoSt) : (s.modSto f).freeIx = s.freeIx := rfl
@[simp] theorem State.modSto_rx (s : State) (f : StoSt → StoSt) : (s.modSto f).rx = s.rx := rfl
@[simp] theorem State.modSto_tx (s : State) (f : StoSt → StoSt) : (s.modSto f).tx = s.tx := rfl
@[simp] theorem State.modSto_hif (s : State) (f : StoSt → StoSt) : (s.modSto f).hif = s.hif := rfl
@[simp] theorem State.modSto_dma (s : State) (f : StoSt → StoSt) : (s.modSto f).dma = s.dma := rfl
@[simp] theorem State.modSto_uni (s : State) (f : StoSt → StoSt) : (s.modSto f).uni = s.uni := rfl
@[simp] theorem State.modSto_tsk (s : State) (f : StoSt → StoSt) : (s.modSto f).tsk = s.tsk := rfl
@[simp] theorem State.modSto_sto (s : State) (f : StoSt → StoSt) : (s.modSto f).sto = f s.sto := rfl
@[simp] theorem State.modSto_xtr (s : State) (f : StoSt → StoSt) : (s.modSto f).xtr = s.xtr := rfl
@[simp] theorem State.modSto_cls (s : State) (f : StoSt → StoSt) : (s.modSto f).cls = s.cls := rfl
@[simp] theorem State.modSto_flow (s : State) (f : StoSt → StoSt) : (s.modSto f).flow = s.flow := rfl
@[simp] theorem State.modSto_usch (s : State) (f : StoSt → StoSt) : (s.modSto f).usch = s.usch := rfl
@[simp] theorem State.modSto_grt (s : State) (f : StoSt → StoSt) : (s.modSto f).grt = s.grt := rfl
@[simp] theorem State.modSto_pol (s : State) (f : StoSt → StoSt) : (s.modSto f).pol = s.pol := rfl
@[simp] theorem State.modSto_frm (s : State) (f : StoSt → StoSt) : (s.modSto f).frm = s.frm := rfl
@[simp] theorem State.modSto_pm (s : State) (f : StoSt → StoSt) : (s.modSto f).pm = s.pm := rfl
@[simp] theorem State.modSto_lsec (s : State) (f : StoSt → StoSt) : (s.modSto f).lsec = s.lsec := rfl
@[simp] theorem State.modSto_rel (s : State) (f : StoSt → StoSt) : (s.modSto f).rel = s.rel := rfl
@[simp] theorem State.modSto_hal (s : State) (f : StoSt → StoSt) : (s.modSto f).hal = s.hal := rfl
@[simp] theorem State.modSto_sram (s : State) (f : StoSt → StoSt) : (s.modSto f).sram = s.sram := rfl
@[simp] theorem State.modSto_dual (s : State) (f : StoSt → StoSt) : (s.modSto f).dual = s.dual := rfl
@[simp] theorem State.modSto_snap (s : State) (f : StoSt → StoSt) : (s.modSto f).snap = s.snap := rfl
@[simp] theorem State.modSto_time (s : State) (f : StoSt → StoSt) : (s.modSto f).time = s.time := rfl
@[simp] theorem State.modSto_act (s : State) (f : StoSt → StoSt) : (s.modSto f).act = s.act := rfl
@[simp] theorem State.modSto_noticeNext (s : State) (f : StoSt → StoSt) : (s.modSto f).noticeNext = s.noticeNext := rfl
@[simp] theorem State.modSto_ccry (s : State) (f : StoSt → StoSt) : (s.modSto f).ccry = s.ccry := rfl
@[simp] theorem State.modSto_kst (s : State) (f : StoSt → StoSt) : (s.modSto f).kst = s.kst := rfl
@[simp] theorem State.modSto_clk (s : State) (f : StoSt → StoSt) : (s.modSto f).clk = s.clk := rfl
@[simp] theorem State.modSto_lehr (s : State) (f : StoSt → StoSt) : (s.modSto f).lehr = s.lehr := rfl
@[simp] theorem State.modSto_tap (s : State) (f : StoSt → StoSt) : (s.modSto f).tap = s.tap := rfl
@[simp] theorem State.modSto_sup (s : State) (f : StoSt → StoSt) : (s.modSto f).sup = s.sup := rfl
@[simp] theorem State.modSto_keep (s : State) (f : StoSt → StoSt) : (s.modSto f).keep = s.keep := rfl
@[simp] theorem State.modSto_core (s : State) (f : StoSt → StoSt) : (s.modSto f).core = s.core := rfl
@[simp] theorem State.modSto_flsh (s : State) (f : StoSt → StoSt) : (s.modSto f).flsh = s.flsh := rfl
@[simp] theorem State.modSto_pending (s : State) (f : StoSt → StoSt) : (s.modSto f).pending = s.pending := rfl
@[simp] theorem State.modXtr_rf (s : State) (f : XtrSt → XtrSt) : (s.modXtr f).rf = s.rf := rfl
@[simp] theorem State.modXtr_tables (s : State) (f : XtrSt → XtrSt) : (s.modXtr f).tables = s.tables := rfl
@[simp] theorem State.modXtr_wins (s : State) (f : XtrSt → XtrSt) : (s.modXtr f).wins = s.wins := rfl
@[simp] theorem State.modXtr_cnt (s : State) (f : XtrSt → XtrSt) : (s.modXtr f).cnt = s.cnt := rfl
@[simp] theorem State.modXtr_penn (s : State) (f : XtrSt → XtrSt) : (s.modXtr f).penn = s.penn := rfl
@[simp] theorem State.modXtr_limited (s : State) (f : XtrSt → XtrSt) : (s.modXtr f).limited = s.limited := rfl
@[simp] theorem State.modXtr_out (s : State) (f : XtrSt → XtrSt) : (s.modXtr f).out = s.out := rfl
@[simp] theorem State.modXtr_now (s : State) (f : XtrSt → XtrSt) : (s.modXtr f).now = s.now := rfl
@[simp] theorem State.modXtr_readData (s : State) (f : XtrSt → XtrSt) : (s.modXtr f).readData = s.readData := rfl
@[simp] theorem State.modXtr_readHigh (s : State) (f : XtrSt → XtrSt) : (s.modXtr f).readHigh = s.readHigh := rfl
@[simp] theorem State.modXtr_freeIx (s : State) (f : XtrSt → XtrSt) : (s.modXtr f).freeIx = s.freeIx := rfl
@[simp] theorem State.modXtr_rx (s : State) (f : XtrSt → XtrSt) : (s.modXtr f).rx = s.rx := rfl
@[simp] theorem State.modXtr_tx (s : State) (f : XtrSt → XtrSt) : (s.modXtr f).tx = s.tx := rfl
@[simp] theorem State.modXtr_hif (s : State) (f : XtrSt → XtrSt) : (s.modXtr f).hif = s.hif := rfl
@[simp] theorem State.modXtr_dma (s : State) (f : XtrSt → XtrSt) : (s.modXtr f).dma = s.dma := rfl
@[simp] theorem State.modXtr_uni (s : State) (f : XtrSt → XtrSt) : (s.modXtr f).uni = s.uni := rfl
@[simp] theorem State.modXtr_tsk (s : State) (f : XtrSt → XtrSt) : (s.modXtr f).tsk = s.tsk := rfl
@[simp] theorem State.modXtr_sto (s : State) (f : XtrSt → XtrSt) : (s.modXtr f).sto = s.sto := rfl
@[simp] theorem State.modXtr_xtr (s : State) (f : XtrSt → XtrSt) : (s.modXtr f).xtr = f s.xtr := rfl
@[simp] theorem State.modXtr_cls (s : State) (f : XtrSt → XtrSt) : (s.modXtr f).cls = s.cls := rfl
@[simp] theorem State.modXtr_flow (s : State) (f : XtrSt → XtrSt) : (s.modXtr f).flow = s.flow := rfl
@[simp] theorem State.modXtr_usch (s : State) (f : XtrSt → XtrSt) : (s.modXtr f).usch = s.usch := rfl
@[simp] theorem State.modXtr_grt (s : State) (f : XtrSt → XtrSt) : (s.modXtr f).grt = s.grt := rfl
@[simp] theorem State.modXtr_pol (s : State) (f : XtrSt → XtrSt) : (s.modXtr f).pol = s.pol := rfl
@[simp] theorem State.modXtr_frm (s : State) (f : XtrSt → XtrSt) : (s.modXtr f).frm = s.frm := rfl
@[simp] theorem State.modXtr_pm (s : State) (f : XtrSt → XtrSt) : (s.modXtr f).pm = s.pm := rfl
@[simp] theorem State.modXtr_lsec (s : State) (f : XtrSt → XtrSt) : (s.modXtr f).lsec = s.lsec := rfl
@[simp] theorem State.modXtr_rel (s : State) (f : XtrSt → XtrSt) : (s.modXtr f).rel = s.rel := rfl
@[simp] theorem State.modXtr_hal (s : State) (f : XtrSt → XtrSt) : (s.modXtr f).hal = s.hal := rfl
@[simp] theorem State.modXtr_sram (s : State) (f : XtrSt → XtrSt) : (s.modXtr f).sram = s.sram := rfl
@[simp] theorem State.modXtr_dual (s : State) (f : XtrSt → XtrSt) : (s.modXtr f).dual = s.dual := rfl
@[simp] theorem State.modXtr_snap (s : State) (f : XtrSt → XtrSt) : (s.modXtr f).snap = s.snap := rfl
@[simp] theorem State.modXtr_time (s : State) (f : XtrSt → XtrSt) : (s.modXtr f).time = s.time := rfl
@[simp] theorem State.modXtr_act (s : State) (f : XtrSt → XtrSt) : (s.modXtr f).act = s.act := rfl
@[simp] theorem State.modXtr_noticeNext (s : State) (f : XtrSt → XtrSt) : (s.modXtr f).noticeNext = s.noticeNext := rfl
@[simp] theorem State.modXtr_ccry (s : State) (f : XtrSt → XtrSt) : (s.modXtr f).ccry = s.ccry := rfl
@[simp] theorem State.modXtr_kst (s : State) (f : XtrSt → XtrSt) : (s.modXtr f).kst = s.kst := rfl
@[simp] theorem State.modXtr_clk (s : State) (f : XtrSt → XtrSt) : (s.modXtr f).clk = s.clk := rfl
@[simp] theorem State.modXtr_lehr (s : State) (f : XtrSt → XtrSt) : (s.modXtr f).lehr = s.lehr := rfl
@[simp] theorem State.modXtr_tap (s : State) (f : XtrSt → XtrSt) : (s.modXtr f).tap = s.tap := rfl
@[simp] theorem State.modXtr_sup (s : State) (f : XtrSt → XtrSt) : (s.modXtr f).sup = s.sup := rfl
@[simp] theorem State.modXtr_keep (s : State) (f : XtrSt → XtrSt) : (s.modXtr f).keep = s.keep := rfl
@[simp] theorem State.modXtr_core (s : State) (f : XtrSt → XtrSt) : (s.modXtr f).core = s.core := rfl
@[simp] theorem State.modXtr_flsh (s : State) (f : XtrSt → XtrSt) : (s.modXtr f).flsh = s.flsh := rfl
@[simp] theorem State.modXtr_pending (s : State) (f : XtrSt → XtrSt) : (s.modXtr f).pending = s.pending := rfl
@[simp] theorem State.modCls_rf (s : State) (f : ClsSt → ClsSt) : (s.modCls f).rf = s.rf := rfl
@[simp] theorem State.modCls_tables (s : State) (f : ClsSt → ClsSt) : (s.modCls f).tables = s.tables := rfl
@[simp] theorem State.modCls_wins (s : State) (f : ClsSt → ClsSt) : (s.modCls f).wins = s.wins := rfl
@[simp] theorem State.modCls_cnt (s : State) (f : ClsSt → ClsSt) : (s.modCls f).cnt = s.cnt := rfl
@[simp] theorem State.modCls_penn (s : State) (f : ClsSt → ClsSt) : (s.modCls f).penn = s.penn := rfl
@[simp] theorem State.modCls_limited (s : State) (f : ClsSt → ClsSt) : (s.modCls f).limited = s.limited := rfl
@[simp] theorem State.modCls_out (s : State) (f : ClsSt → ClsSt) : (s.modCls f).out = s.out := rfl
@[simp] theorem State.modCls_now (s : State) (f : ClsSt → ClsSt) : (s.modCls f).now = s.now := rfl
@[simp] theorem State.modCls_readData (s : State) (f : ClsSt → ClsSt) : (s.modCls f).readData = s.readData := rfl
@[simp] theorem State.modCls_readHigh (s : State) (f : ClsSt → ClsSt) : (s.modCls f).readHigh = s.readHigh := rfl
@[simp] theorem State.modCls_freeIx (s : State) (f : ClsSt → ClsSt) : (s.modCls f).freeIx = s.freeIx := rfl
@[simp] theorem State.modCls_rx (s : State) (f : ClsSt → ClsSt) : (s.modCls f).rx = s.rx := rfl
@[simp] theorem State.modCls_tx (s : State) (f : ClsSt → ClsSt) : (s.modCls f).tx = s.tx := rfl
@[simp] theorem State.modCls_hif (s : State) (f : ClsSt → ClsSt) : (s.modCls f).hif = s.hif := rfl
@[simp] theorem State.modCls_dma (s : State) (f : ClsSt → ClsSt) : (s.modCls f).dma = s.dma := rfl
@[simp] theorem State.modCls_uni (s : State) (f : ClsSt → ClsSt) : (s.modCls f).uni = s.uni := rfl
@[simp] theorem State.modCls_tsk (s : State) (f : ClsSt → ClsSt) : (s.modCls f).tsk = s.tsk := rfl
@[simp] theorem State.modCls_sto (s : State) (f : ClsSt → ClsSt) : (s.modCls f).sto = s.sto := rfl
@[simp] theorem State.modCls_xtr (s : State) (f : ClsSt → ClsSt) : (s.modCls f).xtr = s.xtr := rfl
@[simp] theorem State.modCls_cls (s : State) (f : ClsSt → ClsSt) : (s.modCls f).cls = f s.cls := rfl
@[simp] theorem State.modCls_flow (s : State) (f : ClsSt → ClsSt) : (s.modCls f).flow = s.flow := rfl
@[simp] theorem State.modCls_usch (s : State) (f : ClsSt → ClsSt) : (s.modCls f).usch = s.usch := rfl
@[simp] theorem State.modCls_grt (s : State) (f : ClsSt → ClsSt) : (s.modCls f).grt = s.grt := rfl
@[simp] theorem State.modCls_pol (s : State) (f : ClsSt → ClsSt) : (s.modCls f).pol = s.pol := rfl
@[simp] theorem State.modCls_frm (s : State) (f : ClsSt → ClsSt) : (s.modCls f).frm = s.frm := rfl
@[simp] theorem State.modCls_pm (s : State) (f : ClsSt → ClsSt) : (s.modCls f).pm = s.pm := rfl
@[simp] theorem State.modCls_lsec (s : State) (f : ClsSt → ClsSt) : (s.modCls f).lsec = s.lsec := rfl
@[simp] theorem State.modCls_rel (s : State) (f : ClsSt → ClsSt) : (s.modCls f).rel = s.rel := rfl
@[simp] theorem State.modCls_hal (s : State) (f : ClsSt → ClsSt) : (s.modCls f).hal = s.hal := rfl
@[simp] theorem State.modCls_sram (s : State) (f : ClsSt → ClsSt) : (s.modCls f).sram = s.sram := rfl
@[simp] theorem State.modCls_dual (s : State) (f : ClsSt → ClsSt) : (s.modCls f).dual = s.dual := rfl
@[simp] theorem State.modCls_snap (s : State) (f : ClsSt → ClsSt) : (s.modCls f).snap = s.snap := rfl
@[simp] theorem State.modCls_time (s : State) (f : ClsSt → ClsSt) : (s.modCls f).time = s.time := rfl
@[simp] theorem State.modCls_act (s : State) (f : ClsSt → ClsSt) : (s.modCls f).act = s.act := rfl
@[simp] theorem State.modCls_noticeNext (s : State) (f : ClsSt → ClsSt) : (s.modCls f).noticeNext = s.noticeNext := rfl
@[simp] theorem State.modCls_ccry (s : State) (f : ClsSt → ClsSt) : (s.modCls f).ccry = s.ccry := rfl
@[simp] theorem State.modCls_kst (s : State) (f : ClsSt → ClsSt) : (s.modCls f).kst = s.kst := rfl
@[simp] theorem State.modCls_clk (s : State) (f : ClsSt → ClsSt) : (s.modCls f).clk = s.clk := rfl
@[simp] theorem State.modCls_lehr (s : State) (f : ClsSt → ClsSt) : (s.modCls f).lehr = s.lehr := rfl
@[simp] theorem State.modCls_tap (s : State) (f : ClsSt → ClsSt) : (s.modCls f).tap = s.tap := rfl
@[simp] theorem State.modCls_sup (s : State) (f : ClsSt → ClsSt) : (s.modCls f).sup = s.sup := rfl
@[simp] theorem State.modCls_keep (s : State) (f : ClsSt → ClsSt) : (s.modCls f).keep = s.keep := rfl
@[simp] theorem State.modCls_core (s : State) (f : ClsSt → ClsSt) : (s.modCls f).core = s.core := rfl
@[simp] theorem State.modCls_flsh (s : State) (f : ClsSt → ClsSt) : (s.modCls f).flsh = s.flsh := rfl
@[simp] theorem State.modCls_pending (s : State) (f : ClsSt → ClsSt) : (s.modCls f).pending = s.pending := rfl
@[simp] theorem State.modFlow_rf (s : State) (f : FlowSt → FlowSt) : (s.modFlow f).rf = s.rf := rfl
@[simp] theorem State.modFlow_tables (s : State) (f : FlowSt → FlowSt) : (s.modFlow f).tables = s.tables := rfl
@[simp] theorem State.modFlow_wins (s : State) (f : FlowSt → FlowSt) : (s.modFlow f).wins = s.wins := rfl
@[simp] theorem State.modFlow_cnt (s : State) (f : FlowSt → FlowSt) : (s.modFlow f).cnt = s.cnt := rfl
@[simp] theorem State.modFlow_penn (s : State) (f : FlowSt → FlowSt) : (s.modFlow f).penn = s.penn := rfl
@[simp] theorem State.modFlow_limited (s : State) (f : FlowSt → FlowSt) : (s.modFlow f).limited = s.limited := rfl
@[simp] theorem State.modFlow_out (s : State) (f : FlowSt → FlowSt) : (s.modFlow f).out = s.out := rfl
@[simp] theorem State.modFlow_now (s : State) (f : FlowSt → FlowSt) : (s.modFlow f).now = s.now := rfl
@[simp] theorem State.modFlow_readData (s : State) (f : FlowSt → FlowSt) : (s.modFlow f).readData = s.readData := rfl
@[simp] theorem State.modFlow_readHigh (s : State) (f : FlowSt → FlowSt) : (s.modFlow f).readHigh = s.readHigh := rfl
@[simp] theorem State.modFlow_freeIx (s : State) (f : FlowSt → FlowSt) : (s.modFlow f).freeIx = s.freeIx := rfl
@[simp] theorem State.modFlow_rx (s : State) (f : FlowSt → FlowSt) : (s.modFlow f).rx = s.rx := rfl
@[simp] theorem State.modFlow_tx (s : State) (f : FlowSt → FlowSt) : (s.modFlow f).tx = s.tx := rfl
@[simp] theorem State.modFlow_hif (s : State) (f : FlowSt → FlowSt) : (s.modFlow f).hif = s.hif := rfl
@[simp] theorem State.modFlow_dma (s : State) (f : FlowSt → FlowSt) : (s.modFlow f).dma = s.dma := rfl
@[simp] theorem State.modFlow_uni (s : State) (f : FlowSt → FlowSt) : (s.modFlow f).uni = s.uni := rfl
@[simp] theorem State.modFlow_tsk (s : State) (f : FlowSt → FlowSt) : (s.modFlow f).tsk = s.tsk := rfl
@[simp] theorem State.modFlow_sto (s : State) (f : FlowSt → FlowSt) : (s.modFlow f).sto = s.sto := rfl
@[simp] theorem State.modFlow_xtr (s : State) (f : FlowSt → FlowSt) : (s.modFlow f).xtr = s.xtr := rfl
@[simp] theorem State.modFlow_cls (s : State) (f : FlowSt → FlowSt) : (s.modFlow f).cls = s.cls := rfl
@[simp] theorem State.modFlow_flow (s : State) (f : FlowSt → FlowSt) : (s.modFlow f).flow = f s.flow := rfl
@[simp] theorem State.modFlow_usch (s : State) (f : FlowSt → FlowSt) : (s.modFlow f).usch = s.usch := rfl
@[simp] theorem State.modFlow_grt (s : State) (f : FlowSt → FlowSt) : (s.modFlow f).grt = s.grt := rfl
@[simp] theorem State.modFlow_pol (s : State) (f : FlowSt → FlowSt) : (s.modFlow f).pol = s.pol := rfl
@[simp] theorem State.modFlow_frm (s : State) (f : FlowSt → FlowSt) : (s.modFlow f).frm = s.frm := rfl
@[simp] theorem State.modFlow_pm (s : State) (f : FlowSt → FlowSt) : (s.modFlow f).pm = s.pm := rfl
@[simp] theorem State.modFlow_lsec (s : State) (f : FlowSt → FlowSt) : (s.modFlow f).lsec = s.lsec := rfl
@[simp] theorem State.modFlow_rel (s : State) (f : FlowSt → FlowSt) : (s.modFlow f).rel = s.rel := rfl
@[simp] theorem State.modFlow_hal (s : State) (f : FlowSt → FlowSt) : (s.modFlow f).hal = s.hal := rfl
@[simp] theorem State.modFlow_sram (s : State) (f : FlowSt → FlowSt) : (s.modFlow f).sram = s.sram := rfl
@[simp] theorem State.modFlow_dual (s : State) (f : FlowSt → FlowSt) : (s.modFlow f).dual = s.dual := rfl
@[simp] theorem State.modFlow_snap (s : State) (f : FlowSt → FlowSt) : (s.modFlow f).snap = s.snap := rfl
@[simp] theorem State.modFlow_time (s : State) (f : FlowSt → FlowSt) : (s.modFlow f).time = s.time := rfl
@[simp] theorem State.modFlow_act (s : State) (f : FlowSt → FlowSt) : (s.modFlow f).act = s.act := rfl
@[simp] theorem State.modFlow_noticeNext (s : State) (f : FlowSt → FlowSt) : (s.modFlow f).noticeNext = s.noticeNext := rfl
@[simp] theorem State.modFlow_ccry (s : State) (f : FlowSt → FlowSt) : (s.modFlow f).ccry = s.ccry := rfl
@[simp] theorem State.modFlow_kst (s : State) (f : FlowSt → FlowSt) : (s.modFlow f).kst = s.kst := rfl
@[simp] theorem State.modFlow_clk (s : State) (f : FlowSt → FlowSt) : (s.modFlow f).clk = s.clk := rfl
@[simp] theorem State.modFlow_lehr (s : State) (f : FlowSt → FlowSt) : (s.modFlow f).lehr = s.lehr := rfl
@[simp] theorem State.modFlow_tap (s : State) (f : FlowSt → FlowSt) : (s.modFlow f).tap = s.tap := rfl
@[simp] theorem State.modFlow_sup (s : State) (f : FlowSt → FlowSt) : (s.modFlow f).sup = s.sup := rfl
@[simp] theorem State.modFlow_keep (s : State) (f : FlowSt → FlowSt) : (s.modFlow f).keep = s.keep := rfl
@[simp] theorem State.modFlow_core (s : State) (f : FlowSt → FlowSt) : (s.modFlow f).core = s.core := rfl
@[simp] theorem State.modFlow_flsh (s : State) (f : FlowSt → FlowSt) : (s.modFlow f).flsh = s.flsh := rfl
@[simp] theorem State.modFlow_pending (s : State) (f : FlowSt → FlowSt) : (s.modFlow f).pending = s.pending := rfl
@[simp] theorem State.modUsch_rf (s : State) (f : UschSt → UschSt) : (s.modUsch f).rf = s.rf := rfl
@[simp] theorem State.modUsch_tables (s : State) (f : UschSt → UschSt) : (s.modUsch f).tables = s.tables := rfl
@[simp] theorem State.modUsch_wins (s : State) (f : UschSt → UschSt) : (s.modUsch f).wins = s.wins := rfl
@[simp] theorem State.modUsch_cnt (s : State) (f : UschSt → UschSt) : (s.modUsch f).cnt = s.cnt := rfl
@[simp] theorem State.modUsch_penn (s : State) (f : UschSt → UschSt) : (s.modUsch f).penn = s.penn := rfl
@[simp] theorem State.modUsch_limited (s : State) (f : UschSt → UschSt) : (s.modUsch f).limited = s.limited := rfl
@[simp] theorem State.modUsch_out (s : State) (f : UschSt → UschSt) : (s.modUsch f).out = s.out := rfl
@[simp] theorem State.modUsch_now (s : State) (f : UschSt → UschSt) : (s.modUsch f).now = s.now := rfl
@[simp] theorem State.modUsch_readData (s : State) (f : UschSt → UschSt) : (s.modUsch f).readData = s.readData := rfl
@[simp] theorem State.modUsch_readHigh (s : State) (f : UschSt → UschSt) : (s.modUsch f).readHigh = s.readHigh := rfl
@[simp] theorem State.modUsch_freeIx (s : State) (f : UschSt → UschSt) : (s.modUsch f).freeIx = s.freeIx := rfl
@[simp] theorem State.modUsch_rx (s : State) (f : UschSt → UschSt) : (s.modUsch f).rx = s.rx := rfl
@[simp] theorem State.modUsch_tx (s : State) (f : UschSt → UschSt) : (s.modUsch f).tx = s.tx := rfl
@[simp] theorem State.modUsch_hif (s : State) (f : UschSt → UschSt) : (s.modUsch f).hif = s.hif := rfl
@[simp] theorem State.modUsch_dma (s : State) (f : UschSt → UschSt) : (s.modUsch f).dma = s.dma := rfl
@[simp] theorem State.modUsch_uni (s : State) (f : UschSt → UschSt) : (s.modUsch f).uni = s.uni := rfl
@[simp] theorem State.modUsch_tsk (s : State) (f : UschSt → UschSt) : (s.modUsch f).tsk = s.tsk := rfl
@[simp] theorem State.modUsch_sto (s : State) (f : UschSt → UschSt) : (s.modUsch f).sto = s.sto := rfl
@[simp] theorem State.modUsch_xtr (s : State) (f : UschSt → UschSt) : (s.modUsch f).xtr = s.xtr := rfl
@[simp] theorem State.modUsch_cls (s : State) (f : UschSt → UschSt) : (s.modUsch f).cls = s.cls := rfl
@[simp] theorem State.modUsch_flow (s : State) (f : UschSt → UschSt) : (s.modUsch f).flow = s.flow := rfl
@[simp] theorem State.modUsch_usch (s : State) (f : UschSt → UschSt) : (s.modUsch f).usch = f s.usch := rfl
@[simp] theorem State.modUsch_grt (s : State) (f : UschSt → UschSt) : (s.modUsch f).grt = s.grt := rfl
@[simp] theorem State.modUsch_pol (s : State) (f : UschSt → UschSt) : (s.modUsch f).pol = s.pol := rfl
@[simp] theorem State.modUsch_frm (s : State) (f : UschSt → UschSt) : (s.modUsch f).frm = s.frm := rfl
@[simp] theorem State.modUsch_pm (s : State) (f : UschSt → UschSt) : (s.modUsch f).pm = s.pm := rfl
@[simp] theorem State.modUsch_lsec (s : State) (f : UschSt → UschSt) : (s.modUsch f).lsec = s.lsec := rfl
@[simp] theorem State.modUsch_rel (s : State) (f : UschSt → UschSt) : (s.modUsch f).rel = s.rel := rfl
@[simp] theorem State.modUsch_hal (s : State) (f : UschSt → UschSt) : (s.modUsch f).hal = s.hal := rfl
@[simp] theorem State.modUsch_sram (s : State) (f : UschSt → UschSt) : (s.modUsch f).sram = s.sram := rfl
@[simp] theorem State.modUsch_dual (s : State) (f : UschSt → UschSt) : (s.modUsch f).dual = s.dual := rfl
@[simp] theorem State.modUsch_snap (s : State) (f : UschSt → UschSt) : (s.modUsch f).snap = s.snap := rfl
@[simp] theorem State.modUsch_time (s : State) (f : UschSt → UschSt) : (s.modUsch f).time = s.time := rfl
@[simp] theorem State.modUsch_act (s : State) (f : UschSt → UschSt) : (s.modUsch f).act = s.act := rfl
@[simp] theorem State.modUsch_noticeNext (s : State) (f : UschSt → UschSt) : (s.modUsch f).noticeNext = s.noticeNext := rfl
@[simp] theorem State.modUsch_ccry (s : State) (f : UschSt → UschSt) : (s.modUsch f).ccry = s.ccry := rfl
@[simp] theorem State.modUsch_kst (s : State) (f : UschSt → UschSt) : (s.modUsch f).kst = s.kst := rfl
@[simp] theorem State.modUsch_clk (s : State) (f : UschSt → UschSt) : (s.modUsch f).clk = s.clk := rfl
@[simp] theorem State.modUsch_lehr (s : State) (f : UschSt → UschSt) : (s.modUsch f).lehr = s.lehr := rfl
@[simp] theorem State.modUsch_tap (s : State) (f : UschSt → UschSt) : (s.modUsch f).tap = s.tap := rfl
@[simp] theorem State.modUsch_sup (s : State) (f : UschSt → UschSt) : (s.modUsch f).sup = s.sup := rfl
@[simp] theorem State.modUsch_keep (s : State) (f : UschSt → UschSt) : (s.modUsch f).keep = s.keep := rfl
@[simp] theorem State.modUsch_core (s : State) (f : UschSt → UschSt) : (s.modUsch f).core = s.core := rfl
@[simp] theorem State.modUsch_flsh (s : State) (f : UschSt → UschSt) : (s.modUsch f).flsh = s.flsh := rfl
@[simp] theorem State.modUsch_pending (s : State) (f : UschSt → UschSt) : (s.modUsch f).pending = s.pending := rfl
@[simp] theorem State.modGrt_rf (s : State) (f : PerTree GrtSt → PerTree GrtSt) : (s.modGrt f).rf = s.rf := rfl
@[simp] theorem State.modGrt_tables (s : State) (f : PerTree GrtSt → PerTree GrtSt) : (s.modGrt f).tables = s.tables := rfl
@[simp] theorem State.modGrt_wins (s : State) (f : PerTree GrtSt → PerTree GrtSt) : (s.modGrt f).wins = s.wins := rfl
@[simp] theorem State.modGrt_cnt (s : State) (f : PerTree GrtSt → PerTree GrtSt) : (s.modGrt f).cnt = s.cnt := rfl
@[simp] theorem State.modGrt_penn (s : State) (f : PerTree GrtSt → PerTree GrtSt) : (s.modGrt f).penn = s.penn := rfl
@[simp] theorem State.modGrt_limited (s : State) (f : PerTree GrtSt → PerTree GrtSt) : (s.modGrt f).limited = s.limited := rfl
@[simp] theorem State.modGrt_out (s : State) (f : PerTree GrtSt → PerTree GrtSt) : (s.modGrt f).out = s.out := rfl
@[simp] theorem State.modGrt_now (s : State) (f : PerTree GrtSt → PerTree GrtSt) : (s.modGrt f).now = s.now := rfl
@[simp] theorem State.modGrt_readData (s : State) (f : PerTree GrtSt → PerTree GrtSt) : (s.modGrt f).readData = s.readData := rfl
@[simp] theorem State.modGrt_readHigh (s : State) (f : PerTree GrtSt → PerTree GrtSt) : (s.modGrt f).readHigh = s.readHigh := rfl
@[simp] theorem State.modGrt_freeIx (s : State) (f : PerTree GrtSt → PerTree GrtSt) : (s.modGrt f).freeIx = s.freeIx := rfl
@[simp] theorem State.modGrt_rx (s : State) (f : PerTree GrtSt → PerTree GrtSt) : (s.modGrt f).rx = s.rx := rfl
@[simp] theorem State.modGrt_tx (s : State) (f : PerTree GrtSt → PerTree GrtSt) : (s.modGrt f).tx = s.tx := rfl
@[simp] theorem State.modGrt_hif (s : State) (f : PerTree GrtSt → PerTree GrtSt) : (s.modGrt f).hif = s.hif := rfl
@[simp] theorem State.modGrt_dma (s : State) (f : PerTree GrtSt → PerTree GrtSt) : (s.modGrt f).dma = s.dma := rfl
@[simp] theorem State.modGrt_uni (s : State) (f : PerTree GrtSt → PerTree GrtSt) : (s.modGrt f).uni = s.uni := rfl
@[simp] theorem State.modGrt_tsk (s : State) (f : PerTree GrtSt → PerTree GrtSt) : (s.modGrt f).tsk = s.tsk := rfl
@[simp] theorem State.modGrt_sto (s : State) (f : PerTree GrtSt → PerTree GrtSt) : (s.modGrt f).sto = s.sto := rfl
@[simp] theorem State.modGrt_xtr (s : State) (f : PerTree GrtSt → PerTree GrtSt) : (s.modGrt f).xtr = s.xtr := rfl
@[simp] theorem State.modGrt_cls (s : State) (f : PerTree GrtSt → PerTree GrtSt) : (s.modGrt f).cls = s.cls := rfl
@[simp] theorem State.modGrt_flow (s : State) (f : PerTree GrtSt → PerTree GrtSt) : (s.modGrt f).flow = s.flow := rfl
@[simp] theorem State.modGrt_usch (s : State) (f : PerTree GrtSt → PerTree GrtSt) : (s.modGrt f).usch = s.usch := rfl
@[simp] theorem State.modGrt_grt (s : State) (f : PerTree GrtSt → PerTree GrtSt) : (s.modGrt f).grt = f s.grt := rfl
@[simp] theorem State.modGrt_pol (s : State) (f : PerTree GrtSt → PerTree GrtSt) : (s.modGrt f).pol = s.pol := rfl
@[simp] theorem State.modGrt_frm (s : State) (f : PerTree GrtSt → PerTree GrtSt) : (s.modGrt f).frm = s.frm := rfl
@[simp] theorem State.modGrt_pm (s : State) (f : PerTree GrtSt → PerTree GrtSt) : (s.modGrt f).pm = s.pm := rfl
@[simp] theorem State.modGrt_lsec (s : State) (f : PerTree GrtSt → PerTree GrtSt) : (s.modGrt f).lsec = s.lsec := rfl
@[simp] theorem State.modGrt_rel (s : State) (f : PerTree GrtSt → PerTree GrtSt) : (s.modGrt f).rel = s.rel := rfl
@[simp] theorem State.modGrt_hal (s : State) (f : PerTree GrtSt → PerTree GrtSt) : (s.modGrt f).hal = s.hal := rfl
@[simp] theorem State.modGrt_sram (s : State) (f : PerTree GrtSt → PerTree GrtSt) : (s.modGrt f).sram = s.sram := rfl
@[simp] theorem State.modGrt_dual (s : State) (f : PerTree GrtSt → PerTree GrtSt) : (s.modGrt f).dual = s.dual := rfl
@[simp] theorem State.modGrt_snap (s : State) (f : PerTree GrtSt → PerTree GrtSt) : (s.modGrt f).snap = s.snap := rfl
@[simp] theorem State.modGrt_time (s : State) (f : PerTree GrtSt → PerTree GrtSt) : (s.modGrt f).time = s.time := rfl
@[simp] theorem State.modGrt_act (s : State) (f : PerTree GrtSt → PerTree GrtSt) : (s.modGrt f).act = s.act := rfl
@[simp] theorem State.modGrt_noticeNext (s : State) (f : PerTree GrtSt → PerTree GrtSt) : (s.modGrt f).noticeNext = s.noticeNext := rfl
@[simp] theorem State.modGrt_ccry (s : State) (f : PerTree GrtSt → PerTree GrtSt) : (s.modGrt f).ccry = s.ccry := rfl
@[simp] theorem State.modGrt_kst (s : State) (f : PerTree GrtSt → PerTree GrtSt) : (s.modGrt f).kst = s.kst := rfl
@[simp] theorem State.modGrt_clk (s : State) (f : PerTree GrtSt → PerTree GrtSt) : (s.modGrt f).clk = s.clk := rfl
@[simp] theorem State.modGrt_lehr (s : State) (f : PerTree GrtSt → PerTree GrtSt) : (s.modGrt f).lehr = s.lehr := rfl
@[simp] theorem State.modGrt_tap (s : State) (f : PerTree GrtSt → PerTree GrtSt) : (s.modGrt f).tap = s.tap := rfl
@[simp] theorem State.modGrt_sup (s : State) (f : PerTree GrtSt → PerTree GrtSt) : (s.modGrt f).sup = s.sup := rfl
@[simp] theorem State.modGrt_keep (s : State) (f : PerTree GrtSt → PerTree GrtSt) : (s.modGrt f).keep = s.keep := rfl
@[simp] theorem State.modGrt_core (s : State) (f : PerTree GrtSt → PerTree GrtSt) : (s.modGrt f).core = s.core := rfl
@[simp] theorem State.modGrt_flsh (s : State) (f : PerTree GrtSt → PerTree GrtSt) : (s.modGrt f).flsh = s.flsh := rfl
@[simp] theorem State.modGrt_pending (s : State) (f : PerTree GrtSt → PerTree GrtSt) : (s.modGrt f).pending = s.pending := rfl
@[simp] theorem State.modPol_rf (s : State) (f : PolSt → PolSt) : (s.modPol f).rf = s.rf := rfl
@[simp] theorem State.modPol_tables (s : State) (f : PolSt → PolSt) : (s.modPol f).tables = s.tables := rfl
@[simp] theorem State.modPol_wins (s : State) (f : PolSt → PolSt) : (s.modPol f).wins = s.wins := rfl
@[simp] theorem State.modPol_cnt (s : State) (f : PolSt → PolSt) : (s.modPol f).cnt = s.cnt := rfl
@[simp] theorem State.modPol_penn (s : State) (f : PolSt → PolSt) : (s.modPol f).penn = s.penn := rfl
@[simp] theorem State.modPol_limited (s : State) (f : PolSt → PolSt) : (s.modPol f).limited = s.limited := rfl
@[simp] theorem State.modPol_out (s : State) (f : PolSt → PolSt) : (s.modPol f).out = s.out := rfl
@[simp] theorem State.modPol_now (s : State) (f : PolSt → PolSt) : (s.modPol f).now = s.now := rfl
@[simp] theorem State.modPol_readData (s : State) (f : PolSt → PolSt) : (s.modPol f).readData = s.readData := rfl
@[simp] theorem State.modPol_readHigh (s : State) (f : PolSt → PolSt) : (s.modPol f).readHigh = s.readHigh := rfl
@[simp] theorem State.modPol_freeIx (s : State) (f : PolSt → PolSt) : (s.modPol f).freeIx = s.freeIx := rfl
@[simp] theorem State.modPol_rx (s : State) (f : PolSt → PolSt) : (s.modPol f).rx = s.rx := rfl
@[simp] theorem State.modPol_tx (s : State) (f : PolSt → PolSt) : (s.modPol f).tx = s.tx := rfl
@[simp] theorem State.modPol_hif (s : State) (f : PolSt → PolSt) : (s.modPol f).hif = s.hif := rfl
@[simp] theorem State.modPol_dma (s : State) (f : PolSt → PolSt) : (s.modPol f).dma = s.dma := rfl
@[simp] theorem State.modPol_uni (s : State) (f : PolSt → PolSt) : (s.modPol f).uni = s.uni := rfl
@[simp] theorem State.modPol_tsk (s : State) (f : PolSt → PolSt) : (s.modPol f).tsk = s.tsk := rfl
@[simp] theorem State.modPol_sto (s : State) (f : PolSt → PolSt) : (s.modPol f).sto = s.sto := rfl
@[simp] theorem State.modPol_xtr (s : State) (f : PolSt → PolSt) : (s.modPol f).xtr = s.xtr := rfl
@[simp] theorem State.modPol_cls (s : State) (f : PolSt → PolSt) : (s.modPol f).cls = s.cls := rfl
@[simp] theorem State.modPol_flow (s : State) (f : PolSt → PolSt) : (s.modPol f).flow = s.flow := rfl
@[simp] theorem State.modPol_usch (s : State) (f : PolSt → PolSt) : (s.modPol f).usch = s.usch := rfl
@[simp] theorem State.modPol_grt (s : State) (f : PolSt → PolSt) : (s.modPol f).grt = s.grt := rfl
@[simp] theorem State.modPol_pol (s : State) (f : PolSt → PolSt) : (s.modPol f).pol = f s.pol := rfl
@[simp] theorem State.modPol_frm (s : State) (f : PolSt → PolSt) : (s.modPol f).frm = s.frm := rfl
@[simp] theorem State.modPol_pm (s : State) (f : PolSt → PolSt) : (s.modPol f).pm = s.pm := rfl
@[simp] theorem State.modPol_lsec (s : State) (f : PolSt → PolSt) : (s.modPol f).lsec = s.lsec := rfl
@[simp] theorem State.modPol_rel (s : State) (f : PolSt → PolSt) : (s.modPol f).rel = s.rel := rfl
@[simp] theorem State.modPol_hal (s : State) (f : PolSt → PolSt) : (s.modPol f).hal = s.hal := rfl
@[simp] theorem State.modPol_sram (s : State) (f : PolSt → PolSt) : (s.modPol f).sram = s.sram := rfl
@[simp] theorem State.modPol_dual (s : State) (f : PolSt → PolSt) : (s.modPol f).dual = s.dual := rfl
@[simp] theorem State.modPol_snap (s : State) (f : PolSt → PolSt) : (s.modPol f).snap = s.snap := rfl
@[simp] theorem State.modPol_time (s : State) (f : PolSt → PolSt) : (s.modPol f).time = s.time := rfl
@[simp] theorem State.modPol_act (s : State) (f : PolSt → PolSt) : (s.modPol f).act = s.act := rfl
@[simp] theorem State.modPol_noticeNext (s : State) (f : PolSt → PolSt) : (s.modPol f).noticeNext = s.noticeNext := rfl
@[simp] theorem State.modPol_ccry (s : State) (f : PolSt → PolSt) : (s.modPol f).ccry = s.ccry := rfl
@[simp] theorem State.modPol_kst (s : State) (f : PolSt → PolSt) : (s.modPol f).kst = s.kst := rfl
@[simp] theorem State.modPol_clk (s : State) (f : PolSt → PolSt) : (s.modPol f).clk = s.clk := rfl
@[simp] theorem State.modPol_lehr (s : State) (f : PolSt → PolSt) : (s.modPol f).lehr = s.lehr := rfl
@[simp] theorem State.modPol_tap (s : State) (f : PolSt → PolSt) : (s.modPol f).tap = s.tap := rfl
@[simp] theorem State.modPol_sup (s : State) (f : PolSt → PolSt) : (s.modPol f).sup = s.sup := rfl
@[simp] theorem State.modPol_keep (s : State) (f : PolSt → PolSt) : (s.modPol f).keep = s.keep := rfl
@[simp] theorem State.modPol_core (s : State) (f : PolSt → PolSt) : (s.modPol f).core = s.core := rfl
@[simp] theorem State.modPol_flsh (s : State) (f : PolSt → PolSt) : (s.modPol f).flsh = s.flsh := rfl
@[simp] theorem State.modPol_pending (s : State) (f : PolSt → PolSt) : (s.modPol f).pending = s.pending := rfl
@[simp] theorem State.modFrm_rf (s : State) (f : PerRx FrmSt → PerRx FrmSt) : (s.modFrm f).rf = s.rf := rfl
@[simp] theorem State.modFrm_tables (s : State) (f : PerRx FrmSt → PerRx FrmSt) : (s.modFrm f).tables = s.tables := rfl
@[simp] theorem State.modFrm_wins (s : State) (f : PerRx FrmSt → PerRx FrmSt) : (s.modFrm f).wins = s.wins := rfl
@[simp] theorem State.modFrm_cnt (s : State) (f : PerRx FrmSt → PerRx FrmSt) : (s.modFrm f).cnt = s.cnt := rfl
@[simp] theorem State.modFrm_penn (s : State) (f : PerRx FrmSt → PerRx FrmSt) : (s.modFrm f).penn = s.penn := rfl
@[simp] theorem State.modFrm_limited (s : State) (f : PerRx FrmSt → PerRx FrmSt) : (s.modFrm f).limited = s.limited := rfl
@[simp] theorem State.modFrm_out (s : State) (f : PerRx FrmSt → PerRx FrmSt) : (s.modFrm f).out = s.out := rfl
@[simp] theorem State.modFrm_now (s : State) (f : PerRx FrmSt → PerRx FrmSt) : (s.modFrm f).now = s.now := rfl
@[simp] theorem State.modFrm_readData (s : State) (f : PerRx FrmSt → PerRx FrmSt) : (s.modFrm f).readData = s.readData := rfl
@[simp] theorem State.modFrm_readHigh (s : State) (f : PerRx FrmSt → PerRx FrmSt) : (s.modFrm f).readHigh = s.readHigh := rfl
@[simp] theorem State.modFrm_freeIx (s : State) (f : PerRx FrmSt → PerRx FrmSt) : (s.modFrm f).freeIx = s.freeIx := rfl
@[simp] theorem State.modFrm_rx (s : State) (f : PerRx FrmSt → PerRx FrmSt) : (s.modFrm f).rx = s.rx := rfl
@[simp] theorem State.modFrm_tx (s : State) (f : PerRx FrmSt → PerRx FrmSt) : (s.modFrm f).tx = s.tx := rfl
@[simp] theorem State.modFrm_hif (s : State) (f : PerRx FrmSt → PerRx FrmSt) : (s.modFrm f).hif = s.hif := rfl
@[simp] theorem State.modFrm_dma (s : State) (f : PerRx FrmSt → PerRx FrmSt) : (s.modFrm f).dma = s.dma := rfl
@[simp] theorem State.modFrm_uni (s : State) (f : PerRx FrmSt → PerRx FrmSt) : (s.modFrm f).uni = s.uni := rfl
@[simp] theorem State.modFrm_tsk (s : State) (f : PerRx FrmSt → PerRx FrmSt) : (s.modFrm f).tsk = s.tsk := rfl
@[simp] theorem State.modFrm_sto (s : State) (f : PerRx FrmSt → PerRx FrmSt) : (s.modFrm f).sto = s.sto := rfl
@[simp] theorem State.modFrm_xtr (s : State) (f : PerRx FrmSt → PerRx FrmSt) : (s.modFrm f).xtr = s.xtr := rfl
@[simp] theorem State.modFrm_cls (s : State) (f : PerRx FrmSt → PerRx FrmSt) : (s.modFrm f).cls = s.cls := rfl
@[simp] theorem State.modFrm_flow (s : State) (f : PerRx FrmSt → PerRx FrmSt) : (s.modFrm f).flow = s.flow := rfl
@[simp] theorem State.modFrm_usch (s : State) (f : PerRx FrmSt → PerRx FrmSt) : (s.modFrm f).usch = s.usch := rfl
@[simp] theorem State.modFrm_grt (s : State) (f : PerRx FrmSt → PerRx FrmSt) : (s.modFrm f).grt = s.grt := rfl
@[simp] theorem State.modFrm_pol (s : State) (f : PerRx FrmSt → PerRx FrmSt) : (s.modFrm f).pol = s.pol := rfl
@[simp] theorem State.modFrm_frm (s : State) (f : PerRx FrmSt → PerRx FrmSt) : (s.modFrm f).frm = f s.frm := rfl
@[simp] theorem State.modFrm_pm (s : State) (f : PerRx FrmSt → PerRx FrmSt) : (s.modFrm f).pm = s.pm := rfl
@[simp] theorem State.modFrm_lsec (s : State) (f : PerRx FrmSt → PerRx FrmSt) : (s.modFrm f).lsec = s.lsec := rfl
@[simp] theorem State.modFrm_rel (s : State) (f : PerRx FrmSt → PerRx FrmSt) : (s.modFrm f).rel = s.rel := rfl
@[simp] theorem State.modFrm_hal (s : State) (f : PerRx FrmSt → PerRx FrmSt) : (s.modFrm f).hal = s.hal := rfl
@[simp] theorem State.modFrm_sram (s : State) (f : PerRx FrmSt → PerRx FrmSt) : (s.modFrm f).sram = s.sram := rfl
@[simp] theorem State.modFrm_dual (s : State) (f : PerRx FrmSt → PerRx FrmSt) : (s.modFrm f).dual = s.dual := rfl
@[simp] theorem State.modFrm_snap (s : State) (f : PerRx FrmSt → PerRx FrmSt) : (s.modFrm f).snap = s.snap := rfl
@[simp] theorem State.modFrm_time (s : State) (f : PerRx FrmSt → PerRx FrmSt) : (s.modFrm f).time = s.time := rfl
@[simp] theorem State.modFrm_act (s : State) (f : PerRx FrmSt → PerRx FrmSt) : (s.modFrm f).act = s.act := rfl
@[simp] theorem State.modFrm_noticeNext (s : State) (f : PerRx FrmSt → PerRx FrmSt) : (s.modFrm f).noticeNext = s.noticeNext := rfl
@[simp] theorem State.modFrm_ccry (s : State) (f : PerRx FrmSt → PerRx FrmSt) : (s.modFrm f).ccry = s.ccry := rfl
@[simp] theorem State.modFrm_kst (s : State) (f : PerRx FrmSt → PerRx FrmSt) : (s.modFrm f).kst = s.kst := rfl
@[simp] theorem State.modFrm_clk (s : State) (f : PerRx FrmSt → PerRx FrmSt) : (s.modFrm f).clk = s.clk := rfl
@[simp] theorem State.modFrm_lehr (s : State) (f : PerRx FrmSt → PerRx FrmSt) : (s.modFrm f).lehr = s.lehr := rfl
@[simp] theorem State.modFrm_tap (s : State) (f : PerRx FrmSt → PerRx FrmSt) : (s.modFrm f).tap = s.tap := rfl
@[simp] theorem State.modFrm_sup (s : State) (f : PerRx FrmSt → PerRx FrmSt) : (s.modFrm f).sup = s.sup := rfl
@[simp] theorem State.modFrm_keep (s : State) (f : PerRx FrmSt → PerRx FrmSt) : (s.modFrm f).keep = s.keep := rfl
@[simp] theorem State.modFrm_core (s : State) (f : PerRx FrmSt → PerRx FrmSt) : (s.modFrm f).core = s.core := rfl
@[simp] theorem State.modFrm_flsh (s : State) (f : PerRx FrmSt → PerRx FrmSt) : (s.modFrm f).flsh = s.flsh := rfl
@[simp] theorem State.modFrm_pending (s : State) (f : PerRx FrmSt → PerRx FrmSt) : (s.modFrm f).pending = s.pending := rfl
@[simp] theorem State.modPm_rf (s : State) (f : PmSt → PmSt) : (s.modPm f).rf = s.rf := rfl
@[simp] theorem State.modPm_tables (s : State) (f : PmSt → PmSt) : (s.modPm f).tables = s.tables := rfl
@[simp] theorem State.modPm_wins (s : State) (f : PmSt → PmSt) : (s.modPm f).wins = s.wins := rfl
@[simp] theorem State.modPm_cnt (s : State) (f : PmSt → PmSt) : (s.modPm f).cnt = s.cnt := rfl
@[simp] theorem State.modPm_penn (s : State) (f : PmSt → PmSt) : (s.modPm f).penn = s.penn := rfl
@[simp] theorem State.modPm_limited (s : State) (f : PmSt → PmSt) : (s.modPm f).limited = s.limited := rfl
@[simp] theorem State.modPm_out (s : State) (f : PmSt → PmSt) : (s.modPm f).out = s.out := rfl
@[simp] theorem State.modPm_now (s : State) (f : PmSt → PmSt) : (s.modPm f).now = s.now := rfl
@[simp] theorem State.modPm_readData (s : State) (f : PmSt → PmSt) : (s.modPm f).readData = s.readData := rfl
@[simp] theorem State.modPm_readHigh (s : State) (f : PmSt → PmSt) : (s.modPm f).readHigh = s.readHigh := rfl
@[simp] theorem State.modPm_freeIx (s : State) (f : PmSt → PmSt) : (s.modPm f).freeIx = s.freeIx := rfl
@[simp] theorem State.modPm_rx (s : State) (f : PmSt → PmSt) : (s.modPm f).rx = s.rx := rfl
@[simp] theorem State.modPm_tx (s : State) (f : PmSt → PmSt) : (s.modPm f).tx = s.tx := rfl
@[simp] theorem State.modPm_hif (s : State) (f : PmSt → PmSt) : (s.modPm f).hif = s.hif := rfl
@[simp] theorem State.modPm_dma (s : State) (f : PmSt → PmSt) : (s.modPm f).dma = s.dma := rfl
@[simp] theorem State.modPm_uni (s : State) (f : PmSt → PmSt) : (s.modPm f).uni = s.uni := rfl
@[simp] theorem State.modPm_tsk (s : State) (f : PmSt → PmSt) : (s.modPm f).tsk = s.tsk := rfl
@[simp] theorem State.modPm_sto (s : State) (f : PmSt → PmSt) : (s.modPm f).sto = s.sto := rfl
@[simp] theorem State.modPm_xtr (s : State) (f : PmSt → PmSt) : (s.modPm f).xtr = s.xtr := rfl
@[simp] theorem State.modPm_cls (s : State) (f : PmSt → PmSt) : (s.modPm f).cls = s.cls := rfl
@[simp] theorem State.modPm_flow (s : State) (f : PmSt → PmSt) : (s.modPm f).flow = s.flow := rfl
@[simp] theorem State.modPm_usch (s : State) (f : PmSt → PmSt) : (s.modPm f).usch = s.usch := rfl
@[simp] theorem State.modPm_grt (s : State) (f : PmSt → PmSt) : (s.modPm f).grt = s.grt := rfl
@[simp] theorem State.modPm_pol (s : State) (f : PmSt → PmSt) : (s.modPm f).pol = s.pol := rfl
@[simp] theorem State.modPm_frm (s : State) (f : PmSt → PmSt) : (s.modPm f).frm = s.frm := rfl
@[simp] theorem State.modPm_pm (s : State) (f : PmSt → PmSt) : (s.modPm f).pm = f s.pm := rfl
@[simp] theorem State.modPm_lsec (s : State) (f : PmSt → PmSt) : (s.modPm f).lsec = s.lsec := rfl
@[simp] theorem State.modPm_rel (s : State) (f : PmSt → PmSt) : (s.modPm f).rel = s.rel := rfl
@[simp] theorem State.modPm_hal (s : State) (f : PmSt → PmSt) : (s.modPm f).hal = s.hal := rfl
@[simp] theorem State.modPm_sram (s : State) (f : PmSt → PmSt) : (s.modPm f).sram = s.sram := rfl
@[simp] theorem State.modPm_dual (s : State) (f : PmSt → PmSt) : (s.modPm f).dual = s.dual := rfl
@[simp] theorem State.modPm_snap (s : State) (f : PmSt → PmSt) : (s.modPm f).snap = s.snap := rfl
@[simp] theorem State.modPm_time (s : State) (f : PmSt → PmSt) : (s.modPm f).time = s.time := rfl
@[simp] theorem State.modPm_act (s : State) (f : PmSt → PmSt) : (s.modPm f).act = s.act := rfl
@[simp] theorem State.modPm_noticeNext (s : State) (f : PmSt → PmSt) : (s.modPm f).noticeNext = s.noticeNext := rfl
@[simp] theorem State.modPm_ccry (s : State) (f : PmSt → PmSt) : (s.modPm f).ccry = s.ccry := rfl
@[simp] theorem State.modPm_kst (s : State) (f : PmSt → PmSt) : (s.modPm f).kst = s.kst := rfl
@[simp] theorem State.modPm_clk (s : State) (f : PmSt → PmSt) : (s.modPm f).clk = s.clk := rfl
@[simp] theorem State.modPm_lehr (s : State) (f : PmSt → PmSt) : (s.modPm f).lehr = s.lehr := rfl
@[simp] theorem State.modPm_tap (s : State) (f : PmSt → PmSt) : (s.modPm f).tap = s.tap := rfl
@[simp] theorem State.modPm_sup (s : State) (f : PmSt → PmSt) : (s.modPm f).sup = s.sup := rfl
@[simp] theorem State.modPm_keep (s : State) (f : PmSt → PmSt) : (s.modPm f).keep = s.keep := rfl
@[simp] theorem State.modPm_core (s : State) (f : PmSt → PmSt) : (s.modPm f).core = s.core := rfl
@[simp] theorem State.modPm_flsh (s : State) (f : PmSt → PmSt) : (s.modPm f).flsh = s.flsh := rfl
@[simp] theorem State.modPm_pending (s : State) (f : PmSt → PmSt) : (s.modPm f).pending = s.pending := rfl
@[simp] theorem State.modLsec_rf (s : State) (f : LsecSt → LsecSt) : (s.modLsec f).rf = s.rf := rfl
@[simp] theorem State.modLsec_tables (s : State) (f : LsecSt → LsecSt) : (s.modLsec f).tables = s.tables := rfl
@[simp] theorem State.modLsec_wins (s : State) (f : LsecSt → LsecSt) : (s.modLsec f).wins = s.wins := rfl
@[simp] theorem State.modLsec_cnt (s : State) (f : LsecSt → LsecSt) : (s.modLsec f).cnt = s.cnt := rfl
@[simp] theorem State.modLsec_penn (s : State) (f : LsecSt → LsecSt) : (s.modLsec f).penn = s.penn := rfl
@[simp] theorem State.modLsec_limited (s : State) (f : LsecSt → LsecSt) : (s.modLsec f).limited = s.limited := rfl
@[simp] theorem State.modLsec_out (s : State) (f : LsecSt → LsecSt) : (s.modLsec f).out = s.out := rfl
@[simp] theorem State.modLsec_now (s : State) (f : LsecSt → LsecSt) : (s.modLsec f).now = s.now := rfl
@[simp] theorem State.modLsec_readData (s : State) (f : LsecSt → LsecSt) : (s.modLsec f).readData = s.readData := rfl
@[simp] theorem State.modLsec_readHigh (s : State) (f : LsecSt → LsecSt) : (s.modLsec f).readHigh = s.readHigh := rfl
@[simp] theorem State.modLsec_freeIx (s : State) (f : LsecSt → LsecSt) : (s.modLsec f).freeIx = s.freeIx := rfl
@[simp] theorem State.modLsec_rx (s : State) (f : LsecSt → LsecSt) : (s.modLsec f).rx = s.rx := rfl
@[simp] theorem State.modLsec_tx (s : State) (f : LsecSt → LsecSt) : (s.modLsec f).tx = s.tx := rfl
@[simp] theorem State.modLsec_hif (s : State) (f : LsecSt → LsecSt) : (s.modLsec f).hif = s.hif := rfl
@[simp] theorem State.modLsec_dma (s : State) (f : LsecSt → LsecSt) : (s.modLsec f).dma = s.dma := rfl
@[simp] theorem State.modLsec_uni (s : State) (f : LsecSt → LsecSt) : (s.modLsec f).uni = s.uni := rfl
@[simp] theorem State.modLsec_tsk (s : State) (f : LsecSt → LsecSt) : (s.modLsec f).tsk = s.tsk := rfl
@[simp] theorem State.modLsec_sto (s : State) (f : LsecSt → LsecSt) : (s.modLsec f).sto = s.sto := rfl
@[simp] theorem State.modLsec_xtr (s : State) (f : LsecSt → LsecSt) : (s.modLsec f).xtr = s.xtr := rfl
@[simp] theorem State.modLsec_cls (s : State) (f : LsecSt → LsecSt) : (s.modLsec f).cls = s.cls := rfl
@[simp] theorem State.modLsec_flow (s : State) (f : LsecSt → LsecSt) : (s.modLsec f).flow = s.flow := rfl
@[simp] theorem State.modLsec_usch (s : State) (f : LsecSt → LsecSt) : (s.modLsec f).usch = s.usch := rfl
@[simp] theorem State.modLsec_grt (s : State) (f : LsecSt → LsecSt) : (s.modLsec f).grt = s.grt := rfl
@[simp] theorem State.modLsec_pol (s : State) (f : LsecSt → LsecSt) : (s.modLsec f).pol = s.pol := rfl
@[simp] theorem State.modLsec_frm (s : State) (f : LsecSt → LsecSt) : (s.modLsec f).frm = s.frm := rfl
@[simp] theorem State.modLsec_pm (s : State) (f : LsecSt → LsecSt) : (s.modLsec f).pm = s.pm := rfl
@[simp] theorem State.modLsec_lsec (s : State) (f : LsecSt → LsecSt) : (s.modLsec f).lsec = f s.lsec := rfl
@[simp] theorem State.modLsec_rel (s : State) (f : LsecSt → LsecSt) : (s.modLsec f).rel = s.rel := rfl
@[simp] theorem State.modLsec_hal (s : State) (f : LsecSt → LsecSt) : (s.modLsec f).hal = s.hal := rfl
@[simp] theorem State.modLsec_sram (s : State) (f : LsecSt → LsecSt) : (s.modLsec f).sram = s.sram := rfl
@[simp] theorem State.modLsec_dual (s : State) (f : LsecSt → LsecSt) : (s.modLsec f).dual = s.dual := rfl
@[simp] theorem State.modLsec_snap (s : State) (f : LsecSt → LsecSt) : (s.modLsec f).snap = s.snap := rfl
@[simp] theorem State.modLsec_time (s : State) (f : LsecSt → LsecSt) : (s.modLsec f).time = s.time := rfl
@[simp] theorem State.modLsec_act (s : State) (f : LsecSt → LsecSt) : (s.modLsec f).act = s.act := rfl
@[simp] theorem State.modLsec_noticeNext (s : State) (f : LsecSt → LsecSt) : (s.modLsec f).noticeNext = s.noticeNext := rfl
@[simp] theorem State.modLsec_ccry (s : State) (f : LsecSt → LsecSt) : (s.modLsec f).ccry = s.ccry := rfl
@[simp] theorem State.modLsec_kst (s : State) (f : LsecSt → LsecSt) : (s.modLsec f).kst = s.kst := rfl
@[simp] theorem State.modLsec_clk (s : State) (f : LsecSt → LsecSt) : (s.modLsec f).clk = s.clk := rfl
@[simp] theorem State.modLsec_lehr (s : State) (f : LsecSt → LsecSt) : (s.modLsec f).lehr = s.lehr := rfl
@[simp] theorem State.modLsec_tap (s : State) (f : LsecSt → LsecSt) : (s.modLsec f).tap = s.tap := rfl
@[simp] theorem State.modLsec_sup (s : State) (f : LsecSt → LsecSt) : (s.modLsec f).sup = s.sup := rfl
@[simp] theorem State.modLsec_keep (s : State) (f : LsecSt → LsecSt) : (s.modLsec f).keep = s.keep := rfl
@[simp] theorem State.modLsec_core (s : State) (f : LsecSt → LsecSt) : (s.modLsec f).core = s.core := rfl
@[simp] theorem State.modLsec_flsh (s : State) (f : LsecSt → LsecSt) : (s.modLsec f).flsh = s.flsh := rfl
@[simp] theorem State.modLsec_pending (s : State) (f : LsecSt → LsecSt) : (s.modLsec f).pending = s.pending := rfl
@[simp] theorem State.modRel_rf (s : State) (f : RelSt → RelSt) : (s.modRel f).rf = s.rf := rfl
@[simp] theorem State.modRel_tables (s : State) (f : RelSt → RelSt) : (s.modRel f).tables = s.tables := rfl
@[simp] theorem State.modRel_wins (s : State) (f : RelSt → RelSt) : (s.modRel f).wins = s.wins := rfl
@[simp] theorem State.modRel_cnt (s : State) (f : RelSt → RelSt) : (s.modRel f).cnt = s.cnt := rfl
@[simp] theorem State.modRel_penn (s : State) (f : RelSt → RelSt) : (s.modRel f).penn = s.penn := rfl
@[simp] theorem State.modRel_limited (s : State) (f : RelSt → RelSt) : (s.modRel f).limited = s.limited := rfl
@[simp] theorem State.modRel_out (s : State) (f : RelSt → RelSt) : (s.modRel f).out = s.out := rfl
@[simp] theorem State.modRel_now (s : State) (f : RelSt → RelSt) : (s.modRel f).now = s.now := rfl
@[simp] theorem State.modRel_readData (s : State) (f : RelSt → RelSt) : (s.modRel f).readData = s.readData := rfl
@[simp] theorem State.modRel_readHigh (s : State) (f : RelSt → RelSt) : (s.modRel f).readHigh = s.readHigh := rfl
@[simp] theorem State.modRel_freeIx (s : State) (f : RelSt → RelSt) : (s.modRel f).freeIx = s.freeIx := rfl
@[simp] theorem State.modRel_rx (s : State) (f : RelSt → RelSt) : (s.modRel f).rx = s.rx := rfl
@[simp] theorem State.modRel_tx (s : State) (f : RelSt → RelSt) : (s.modRel f).tx = s.tx := rfl
@[simp] theorem State.modRel_hif (s : State) (f : RelSt → RelSt) : (s.modRel f).hif = s.hif := rfl
@[simp] theorem State.modRel_dma (s : State) (f : RelSt → RelSt) : (s.modRel f).dma = s.dma := rfl
@[simp] theorem State.modRel_uni (s : State) (f : RelSt → RelSt) : (s.modRel f).uni = s.uni := rfl
@[simp] theorem State.modRel_tsk (s : State) (f : RelSt → RelSt) : (s.modRel f).tsk = s.tsk := rfl
@[simp] theorem State.modRel_sto (s : State) (f : RelSt → RelSt) : (s.modRel f).sto = s.sto := rfl
@[simp] theorem State.modRel_xtr (s : State) (f : RelSt → RelSt) : (s.modRel f).xtr = s.xtr := rfl
@[simp] theorem State.modRel_cls (s : State) (f : RelSt → RelSt) : (s.modRel f).cls = s.cls := rfl
@[simp] theorem State.modRel_flow (s : State) (f : RelSt → RelSt) : (s.modRel f).flow = s.flow := rfl
@[simp] theorem State.modRel_usch (s : State) (f : RelSt → RelSt) : (s.modRel f).usch = s.usch := rfl
@[simp] theorem State.modRel_grt (s : State) (f : RelSt → RelSt) : (s.modRel f).grt = s.grt := rfl
@[simp] theorem State.modRel_pol (s : State) (f : RelSt → RelSt) : (s.modRel f).pol = s.pol := rfl
@[simp] theorem State.modRel_frm (s : State) (f : RelSt → RelSt) : (s.modRel f).frm = s.frm := rfl
@[simp] theorem State.modRel_pm (s : State) (f : RelSt → RelSt) : (s.modRel f).pm = s.pm := rfl
@[simp] theorem State.modRel_lsec (s : State) (f : RelSt → RelSt) : (s.modRel f).lsec = s.lsec := rfl
@[simp] theorem State.modRel_rel (s : State) (f : RelSt → RelSt) : (s.modRel f).rel = f s.rel := rfl
@[simp] theorem State.modRel_hal (s : State) (f : RelSt → RelSt) : (s.modRel f).hal = s.hal := rfl
@[simp] theorem State.modRel_sram (s : State) (f : RelSt → RelSt) : (s.modRel f).sram = s.sram := rfl
@[simp] theorem State.modRel_dual (s : State) (f : RelSt → RelSt) : (s.modRel f).dual = s.dual := rfl
@[simp] theorem State.modRel_snap (s : State) (f : RelSt → RelSt) : (s.modRel f).snap = s.snap := rfl
@[simp] theorem State.modRel_time (s : State) (f : RelSt → RelSt) : (s.modRel f).time = s.time := rfl
@[simp] theorem State.modRel_act (s : State) (f : RelSt → RelSt) : (s.modRel f).act = s.act := rfl
@[simp] theorem State.modRel_noticeNext (s : State) (f : RelSt → RelSt) : (s.modRel f).noticeNext = s.noticeNext := rfl
@[simp] theorem State.modRel_ccry (s : State) (f : RelSt → RelSt) : (s.modRel f).ccry = s.ccry := rfl
@[simp] theorem State.modRel_kst (s : State) (f : RelSt → RelSt) : (s.modRel f).kst = s.kst := rfl
@[simp] theorem State.modRel_clk (s : State) (f : RelSt → RelSt) : (s.modRel f).clk = s.clk := rfl
@[simp] theorem State.modRel_lehr (s : State) (f : RelSt → RelSt) : (s.modRel f).lehr = s.lehr := rfl
@[simp] theorem State.modRel_tap (s : State) (f : RelSt → RelSt) : (s.modRel f).tap = s.tap := rfl
@[simp] theorem State.modRel_sup (s : State) (f : RelSt → RelSt) : (s.modRel f).sup = s.sup := rfl
@[simp] theorem State.modRel_keep (s : State) (f : RelSt → RelSt) : (s.modRel f).keep = s.keep := rfl
@[simp] theorem State.modRel_core (s : State) (f : RelSt → RelSt) : (s.modRel f).core = s.core := rfl
@[simp] theorem State.modRel_flsh (s : State) (f : RelSt → RelSt) : (s.modRel f).flsh = s.flsh := rfl
@[simp] theorem State.modRel_pending (s : State) (f : RelSt → RelSt) : (s.modRel f).pending = s.pending := rfl
@[simp] theorem State.modHal_rf (s : State) (f : PerTree HalSt → PerTree HalSt) : (s.modHal f).rf = s.rf := rfl
@[simp] theorem State.modHal_tables (s : State) (f : PerTree HalSt → PerTree HalSt) : (s.modHal f).tables = s.tables := rfl
@[simp] theorem State.modHal_wins (s : State) (f : PerTree HalSt → PerTree HalSt) : (s.modHal f).wins = s.wins := rfl
@[simp] theorem State.modHal_cnt (s : State) (f : PerTree HalSt → PerTree HalSt) : (s.modHal f).cnt = s.cnt := rfl
@[simp] theorem State.modHal_penn (s : State) (f : PerTree HalSt → PerTree HalSt) : (s.modHal f).penn = s.penn := rfl
@[simp] theorem State.modHal_limited (s : State) (f : PerTree HalSt → PerTree HalSt) : (s.modHal f).limited = s.limited := rfl
@[simp] theorem State.modHal_out (s : State) (f : PerTree HalSt → PerTree HalSt) : (s.modHal f).out = s.out := rfl
@[simp] theorem State.modHal_now (s : State) (f : PerTree HalSt → PerTree HalSt) : (s.modHal f).now = s.now := rfl
@[simp] theorem State.modHal_readData (s : State) (f : PerTree HalSt → PerTree HalSt) : (s.modHal f).readData = s.readData := rfl
@[simp] theorem State.modHal_readHigh (s : State) (f : PerTree HalSt → PerTree HalSt) : (s.modHal f).readHigh = s.readHigh := rfl
@[simp] theorem State.modHal_freeIx (s : State) (f : PerTree HalSt → PerTree HalSt) : (s.modHal f).freeIx = s.freeIx := rfl
@[simp] theorem State.modHal_rx (s : State) (f : PerTree HalSt → PerTree HalSt) : (s.modHal f).rx = s.rx := rfl
@[simp] theorem State.modHal_tx (s : State) (f : PerTree HalSt → PerTree HalSt) : (s.modHal f).tx = s.tx := rfl
@[simp] theorem State.modHal_hif (s : State) (f : PerTree HalSt → PerTree HalSt) : (s.modHal f).hif = s.hif := rfl
@[simp] theorem State.modHal_dma (s : State) (f : PerTree HalSt → PerTree HalSt) : (s.modHal f).dma = s.dma := rfl
@[simp] theorem State.modHal_uni (s : State) (f : PerTree HalSt → PerTree HalSt) : (s.modHal f).uni = s.uni := rfl
@[simp] theorem State.modHal_tsk (s : State) (f : PerTree HalSt → PerTree HalSt) : (s.modHal f).tsk = s.tsk := rfl
@[simp] theorem State.modHal_sto (s : State) (f : PerTree HalSt → PerTree HalSt) : (s.modHal f).sto = s.sto := rfl
@[simp] theorem State.modHal_xtr (s : State) (f : PerTree HalSt → PerTree HalSt) : (s.modHal f).xtr = s.xtr := rfl
@[simp] theorem State.modHal_cls (s : State) (f : PerTree HalSt → PerTree HalSt) : (s.modHal f).cls = s.cls := rfl
@[simp] theorem State.modHal_flow (s : State) (f : PerTree HalSt → PerTree HalSt) : (s.modHal f).flow = s.flow := rfl
@[simp] theorem State.modHal_usch (s : State) (f : PerTree HalSt → PerTree HalSt) : (s.modHal f).usch = s.usch := rfl
@[simp] theorem State.modHal_grt (s : State) (f : PerTree HalSt → PerTree HalSt) : (s.modHal f).grt = s.grt := rfl
@[simp] theorem State.modHal_pol (s : State) (f : PerTree HalSt → PerTree HalSt) : (s.modHal f).pol = s.pol := rfl
@[simp] theorem State.modHal_frm (s : State) (f : PerTree HalSt → PerTree HalSt) : (s.modHal f).frm = s.frm := rfl
@[simp] theorem State.modHal_pm (s : State) (f : PerTree HalSt → PerTree HalSt) : (s.modHal f).pm = s.pm := rfl
@[simp] theorem State.modHal_lsec (s : State) (f : PerTree HalSt → PerTree HalSt) : (s.modHal f).lsec = s.lsec := rfl
@[simp] theorem State.modHal_rel (s : State) (f : PerTree HalSt → PerTree HalSt) : (s.modHal f).rel = s.rel := rfl
@[simp] theorem State.modHal_hal (s : State) (f : PerTree HalSt → PerTree HalSt) : (s.modHal f).hal = f s.hal := rfl
@[simp] theorem State.modHal_sram (s : State) (f : PerTree HalSt → PerTree HalSt) : (s.modHal f).sram = s.sram := rfl
@[simp] theorem State.modHal_dual (s : State) (f : PerTree HalSt → PerTree HalSt) : (s.modHal f).dual = s.dual := rfl
@[simp] theorem State.modHal_snap (s : State) (f : PerTree HalSt → PerTree HalSt) : (s.modHal f).snap = s.snap := rfl
@[simp] theorem State.modHal_time (s : State) (f : PerTree HalSt → PerTree HalSt) : (s.modHal f).time = s.time := rfl
@[simp] theorem State.modHal_act (s : State) (f : PerTree HalSt → PerTree HalSt) : (s.modHal f).act = s.act := rfl
@[simp] theorem State.modHal_noticeNext (s : State) (f : PerTree HalSt → PerTree HalSt) : (s.modHal f).noticeNext = s.noticeNext := rfl
@[simp] theorem State.modHal_ccry (s : State) (f : PerTree HalSt → PerTree HalSt) : (s.modHal f).ccry = s.ccry := rfl
@[simp] theorem State.modHal_kst (s : State) (f : PerTree HalSt → PerTree HalSt) : (s.modHal f).kst = s.kst := rfl
@[simp] theorem State.modHal_clk (s : State) (f : PerTree HalSt → PerTree HalSt) : (s.modHal f).clk = s.clk := rfl
@[simp] theorem State.modHal_lehr (s : State) (f : PerTree HalSt → PerTree HalSt) : (s.modHal f).lehr = s.lehr := rfl
@[simp] theorem State.modHal_tap (s : State) (f : PerTree HalSt → PerTree HalSt) : (s.modHal f).tap = s.tap := rfl
@[simp] theorem State.modHal_sup (s : State) (f : PerTree HalSt → PerTree HalSt) : (s.modHal f).sup = s.sup := rfl
@[simp] theorem State.modHal_keep (s : State) (f : PerTree HalSt → PerTree HalSt) : (s.modHal f).keep = s.keep := rfl
@[simp] theorem State.modHal_core (s : State) (f : PerTree HalSt → PerTree HalSt) : (s.modHal f).core = s.core := rfl
@[simp] theorem State.modHal_flsh (s : State) (f : PerTree HalSt → PerTree HalSt) : (s.modHal f).flsh = s.flsh := rfl
@[simp] theorem State.modHal_pending (s : State) (f : PerTree HalSt → PerTree HalSt) : (s.modHal f).pending = s.pending := rfl
@[simp] theorem State.modSram_rf (s : State) (f : Sparse Byte → Sparse Byte) : (s.modSram f).rf = s.rf := rfl
@[simp] theorem State.modSram_tables (s : State) (f : Sparse Byte → Sparse Byte) : (s.modSram f).tables = s.tables := rfl
@[simp] theorem State.modSram_wins (s : State) (f : Sparse Byte → Sparse Byte) : (s.modSram f).wins = s.wins := rfl
@[simp] theorem State.modSram_cnt (s : State) (f : Sparse Byte → Sparse Byte) : (s.modSram f).cnt = s.cnt := rfl
@[simp] theorem State.modSram_penn (s : State) (f : Sparse Byte → Sparse Byte) : (s.modSram f).penn = s.penn := rfl
@[simp] theorem State.modSram_limited (s : State) (f : Sparse Byte → Sparse Byte) : (s.modSram f).limited = s.limited := rfl
@[simp] theorem State.modSram_out (s : State) (f : Sparse Byte → Sparse Byte) : (s.modSram f).out = s.out := rfl
@[simp] theorem State.modSram_now (s : State) (f : Sparse Byte → Sparse Byte) : (s.modSram f).now = s.now := rfl
@[simp] theorem State.modSram_readData (s : State) (f : Sparse Byte → Sparse Byte) : (s.modSram f).readData = s.readData := rfl
@[simp] theorem State.modSram_readHigh (s : State) (f : Sparse Byte → Sparse Byte) : (s.modSram f).readHigh = s.readHigh := rfl
@[simp] theorem State.modSram_freeIx (s : State) (f : Sparse Byte → Sparse Byte) : (s.modSram f).freeIx = s.freeIx := rfl
@[simp] theorem State.modSram_rx (s : State) (f : Sparse Byte → Sparse Byte) : (s.modSram f).rx = s.rx := rfl
@[simp] theorem State.modSram_tx (s : State) (f : Sparse Byte → Sparse Byte) : (s.modSram f).tx = s.tx := rfl
@[simp] theorem State.modSram_hif (s : State) (f : Sparse Byte → Sparse Byte) : (s.modSram f).hif = s.hif := rfl
@[simp] theorem State.modSram_dma (s : State) (f : Sparse Byte → Sparse Byte) : (s.modSram f).dma = s.dma := rfl
@[simp] theorem State.modSram_uni (s : State) (f : Sparse Byte → Sparse Byte) : (s.modSram f).uni = s.uni := rfl
@[simp] theorem State.modSram_tsk (s : State) (f : Sparse Byte → Sparse Byte) : (s.modSram f).tsk = s.tsk := rfl
@[simp] theorem State.modSram_sto (s : State) (f : Sparse Byte → Sparse Byte) : (s.modSram f).sto = s.sto := rfl
@[simp] theorem State.modSram_xtr (s : State) (f : Sparse Byte → Sparse Byte) : (s.modSram f).xtr = s.xtr := rfl
@[simp] theorem State.modSram_cls (s : State) (f : Sparse Byte → Sparse Byte) : (s.modSram f).cls = s.cls := rfl
@[simp] theorem State.modSram_flow (s : State) (f : Sparse Byte → Sparse Byte) : (s.modSram f).flow = s.flow := rfl
@[simp] theorem State.modSram_usch (s : State) (f : Sparse Byte → Sparse Byte) : (s.modSram f).usch = s.usch := rfl
@[simp] theorem State.modSram_grt (s : State) (f : Sparse Byte → Sparse Byte) : (s.modSram f).grt = s.grt := rfl
@[simp] theorem State.modSram_pol (s : State) (f : Sparse Byte → Sparse Byte) : (s.modSram f).pol = s.pol := rfl
@[simp] theorem State.modSram_frm (s : State) (f : Sparse Byte → Sparse Byte) : (s.modSram f).frm = s.frm := rfl
@[simp] theorem State.modSram_pm (s : State) (f : Sparse Byte → Sparse Byte) : (s.modSram f).pm = s.pm := rfl
@[simp] theorem State.modSram_lsec (s : State) (f : Sparse Byte → Sparse Byte) : (s.modSram f).lsec = s.lsec := rfl
@[simp] theorem State.modSram_rel (s : State) (f : Sparse Byte → Sparse Byte) : (s.modSram f).rel = s.rel := rfl
@[simp] theorem State.modSram_hal (s : State) (f : Sparse Byte → Sparse Byte) : (s.modSram f).hal = s.hal := rfl
@[simp] theorem State.modSram_sram (s : State) (f : Sparse Byte → Sparse Byte) : (s.modSram f).sram = f s.sram := rfl
@[simp] theorem State.modSram_dual (s : State) (f : Sparse Byte → Sparse Byte) : (s.modSram f).dual = s.dual := rfl
@[simp] theorem State.modSram_snap (s : State) (f : Sparse Byte → Sparse Byte) : (s.modSram f).snap = s.snap := rfl
@[simp] theorem State.modSram_time (s : State) (f : Sparse Byte → Sparse Byte) : (s.modSram f).time = s.time := rfl
@[simp] theorem State.modSram_act (s : State) (f : Sparse Byte → Sparse Byte) : (s.modSram f).act = s.act := rfl
@[simp] theorem State.modSram_noticeNext (s : State) (f : Sparse Byte → Sparse Byte) : (s.modSram f).noticeNext = s.noticeNext := rfl
@[simp] theorem State.modSram_ccry (s : State) (f : Sparse Byte → Sparse Byte) : (s.modSram f).ccry = s.ccry := rfl
@[simp] theorem State.modSram_kst (s : State) (f : Sparse Byte → Sparse Byte) : (s.modSram f).kst = s.kst := rfl
@[simp] theorem State.modSram_clk (s : State) (f : Sparse Byte → Sparse Byte) : (s.modSram f).clk = s.clk := rfl
@[simp] theorem State.modSram_lehr (s : State) (f : Sparse Byte → Sparse Byte) : (s.modSram f).lehr = s.lehr := rfl
@[simp] theorem State.modSram_tap (s : State) (f : Sparse Byte → Sparse Byte) : (s.modSram f).tap = s.tap := rfl
@[simp] theorem State.modSram_sup (s : State) (f : Sparse Byte → Sparse Byte) : (s.modSram f).sup = s.sup := rfl
@[simp] theorem State.modSram_keep (s : State) (f : Sparse Byte → Sparse Byte) : (s.modSram f).keep = s.keep := rfl
@[simp] theorem State.modSram_core (s : State) (f : Sparse Byte → Sparse Byte) : (s.modSram f).core = s.core := rfl
@[simp] theorem State.modSram_flsh (s : State) (f : Sparse Byte → Sparse Byte) : (s.modSram f).flsh = s.flsh := rfl
@[simp] theorem State.modSram_pending (s : State) (f : Sparse Byte → Sparse Byte) : (s.modSram f).pending = s.pending := rfl
@[simp] theorem State.modDual_rf (s : State) (f : DualSt → DualSt) : (s.modDual f).rf = s.rf := rfl
@[simp] theorem State.modDual_tables (s : State) (f : DualSt → DualSt) : (s.modDual f).tables = s.tables := rfl
@[simp] theorem State.modDual_wins (s : State) (f : DualSt → DualSt) : (s.modDual f).wins = s.wins := rfl
@[simp] theorem State.modDual_cnt (s : State) (f : DualSt → DualSt) : (s.modDual f).cnt = s.cnt := rfl
@[simp] theorem State.modDual_penn (s : State) (f : DualSt → DualSt) : (s.modDual f).penn = s.penn := rfl
@[simp] theorem State.modDual_limited (s : State) (f : DualSt → DualSt) : (s.modDual f).limited = s.limited := rfl
@[simp] theorem State.modDual_out (s : State) (f : DualSt → DualSt) : (s.modDual f).out = s.out := rfl
@[simp] theorem State.modDual_now (s : State) (f : DualSt → DualSt) : (s.modDual f).now = s.now := rfl
@[simp] theorem State.modDual_readData (s : State) (f : DualSt → DualSt) : (s.modDual f).readData = s.readData := rfl
@[simp] theorem State.modDual_readHigh (s : State) (f : DualSt → DualSt) : (s.modDual f).readHigh = s.readHigh := rfl
@[simp] theorem State.modDual_freeIx (s : State) (f : DualSt → DualSt) : (s.modDual f).freeIx = s.freeIx := rfl
@[simp] theorem State.modDual_rx (s : State) (f : DualSt → DualSt) : (s.modDual f).rx = s.rx := rfl
@[simp] theorem State.modDual_tx (s : State) (f : DualSt → DualSt) : (s.modDual f).tx = s.tx := rfl
@[simp] theorem State.modDual_hif (s : State) (f : DualSt → DualSt) : (s.modDual f).hif = s.hif := rfl
@[simp] theorem State.modDual_dma (s : State) (f : DualSt → DualSt) : (s.modDual f).dma = s.dma := rfl
@[simp] theorem State.modDual_uni (s : State) (f : DualSt → DualSt) : (s.modDual f).uni = s.uni := rfl
@[simp] theorem State.modDual_tsk (s : State) (f : DualSt → DualSt) : (s.modDual f).tsk = s.tsk := rfl
@[simp] theorem State.modDual_sto (s : State) (f : DualSt → DualSt) : (s.modDual f).sto = s.sto := rfl
@[simp] theorem State.modDual_xtr (s : State) (f : DualSt → DualSt) : (s.modDual f).xtr = s.xtr := rfl
@[simp] theorem State.modDual_cls (s : State) (f : DualSt → DualSt) : (s.modDual f).cls = s.cls := rfl
@[simp] theorem State.modDual_flow (s : State) (f : DualSt → DualSt) : (s.modDual f).flow = s.flow := rfl
@[simp] theorem State.modDual_usch (s : State) (f : DualSt → DualSt) : (s.modDual f).usch = s.usch := rfl
@[simp] theorem State.modDual_grt (s : State) (f : DualSt → DualSt) : (s.modDual f).grt = s.grt := rfl
@[simp] theorem State.modDual_pol (s : State) (f : DualSt → DualSt) : (s.modDual f).pol = s.pol := rfl
@[simp] theorem State.modDual_frm (s : State) (f : DualSt → DualSt) : (s.modDual f).frm = s.frm := rfl
@[simp] theorem State.modDual_pm (s : State) (f : DualSt → DualSt) : (s.modDual f).pm = s.pm := rfl
@[simp] theorem State.modDual_lsec (s : State) (f : DualSt → DualSt) : (s.modDual f).lsec = s.lsec := rfl
@[simp] theorem State.modDual_rel (s : State) (f : DualSt → DualSt) : (s.modDual f).rel = s.rel := rfl
@[simp] theorem State.modDual_hal (s : State) (f : DualSt → DualSt) : (s.modDual f).hal = s.hal := rfl
@[simp] theorem State.modDual_sram (s : State) (f : DualSt → DualSt) : (s.modDual f).sram = s.sram := rfl
@[simp] theorem State.modDual_dual (s : State) (f : DualSt → DualSt) : (s.modDual f).dual = f s.dual := rfl
@[simp] theorem State.modDual_snap (s : State) (f : DualSt → DualSt) : (s.modDual f).snap = s.snap := rfl
@[simp] theorem State.modDual_time (s : State) (f : DualSt → DualSt) : (s.modDual f).time = s.time := rfl
@[simp] theorem State.modDual_act (s : State) (f : DualSt → DualSt) : (s.modDual f).act = s.act := rfl
@[simp] theorem State.modDual_noticeNext (s : State) (f : DualSt → DualSt) : (s.modDual f).noticeNext = s.noticeNext := rfl
@[simp] theorem State.modDual_ccry (s : State) (f : DualSt → DualSt) : (s.modDual f).ccry = s.ccry := rfl
@[simp] theorem State.modDual_kst (s : State) (f : DualSt → DualSt) : (s.modDual f).kst = s.kst := rfl
@[simp] theorem State.modDual_clk (s : State) (f : DualSt → DualSt) : (s.modDual f).clk = s.clk := rfl
@[simp] theorem State.modDual_lehr (s : State) (f : DualSt → DualSt) : (s.modDual f).lehr = s.lehr := rfl
@[simp] theorem State.modDual_tap (s : State) (f : DualSt → DualSt) : (s.modDual f).tap = s.tap := rfl
@[simp] theorem State.modDual_sup (s : State) (f : DualSt → DualSt) : (s.modDual f).sup = s.sup := rfl
@[simp] theorem State.modDual_keep (s : State) (f : DualSt → DualSt) : (s.modDual f).keep = s.keep := rfl
@[simp] theorem State.modDual_core (s : State) (f : DualSt → DualSt) : (s.modDual f).core = s.core := rfl
@[simp] theorem State.modDual_flsh (s : State) (f : DualSt → DualSt) : (s.modDual f).flsh = s.flsh := rfl
@[simp] theorem State.modDual_pending (s : State) (f : DualSt → DualSt) : (s.modDual f).pending = s.pending := rfl
@[simp] theorem State.modSnap_rf (s : State) (f : SnapSt → SnapSt) : (s.modSnap f).rf = s.rf := rfl
@[simp] theorem State.modSnap_tables (s : State) (f : SnapSt → SnapSt) : (s.modSnap f).tables = s.tables := rfl
@[simp] theorem State.modSnap_wins (s : State) (f : SnapSt → SnapSt) : (s.modSnap f).wins = s.wins := rfl
@[simp] theorem State.modSnap_cnt (s : State) (f : SnapSt → SnapSt) : (s.modSnap f).cnt = s.cnt := rfl
@[simp] theorem State.modSnap_penn (s : State) (f : SnapSt → SnapSt) : (s.modSnap f).penn = s.penn := rfl
@[simp] theorem State.modSnap_limited (s : State) (f : SnapSt → SnapSt) : (s.modSnap f).limited = s.limited := rfl
@[simp] theorem State.modSnap_out (s : State) (f : SnapSt → SnapSt) : (s.modSnap f).out = s.out := rfl
@[simp] theorem State.modSnap_now (s : State) (f : SnapSt → SnapSt) : (s.modSnap f).now = s.now := rfl
@[simp] theorem State.modSnap_readData (s : State) (f : SnapSt → SnapSt) : (s.modSnap f).readData = s.readData := rfl
@[simp] theorem State.modSnap_readHigh (s : State) (f : SnapSt → SnapSt) : (s.modSnap f).readHigh = s.readHigh := rfl
@[simp] theorem State.modSnap_freeIx (s : State) (f : SnapSt → SnapSt) : (s.modSnap f).freeIx = s.freeIx := rfl
@[simp] theorem State.modSnap_rx (s : State) (f : SnapSt → SnapSt) : (s.modSnap f).rx = s.rx := rfl
@[simp] theorem State.modSnap_tx (s : State) (f : SnapSt → SnapSt) : (s.modSnap f).tx = s.tx := rfl
@[simp] theorem State.modSnap_hif (s : State) (f : SnapSt → SnapSt) : (s.modSnap f).hif = s.hif := rfl
@[simp] theorem State.modSnap_dma (s : State) (f : SnapSt → SnapSt) : (s.modSnap f).dma = s.dma := rfl
@[simp] theorem State.modSnap_uni (s : State) (f : SnapSt → SnapSt) : (s.modSnap f).uni = s.uni := rfl
@[simp] theorem State.modSnap_tsk (s : State) (f : SnapSt → SnapSt) : (s.modSnap f).tsk = s.tsk := rfl
@[simp] theorem State.modSnap_sto (s : State) (f : SnapSt → SnapSt) : (s.modSnap f).sto = s.sto := rfl
@[simp] theorem State.modSnap_xtr (s : State) (f : SnapSt → SnapSt) : (s.modSnap f).xtr = s.xtr := rfl
@[simp] theorem State.modSnap_cls (s : State) (f : SnapSt → SnapSt) : (s.modSnap f).cls = s.cls := rfl
@[simp] theorem State.modSnap_flow (s : State) (f : SnapSt → SnapSt) : (s.modSnap f).flow = s.flow := rfl
@[simp] theorem State.modSnap_usch (s : State) (f : SnapSt → SnapSt) : (s.modSnap f).usch = s.usch := rfl
@[simp] theorem State.modSnap_grt (s : State) (f : SnapSt → SnapSt) : (s.modSnap f).grt = s.grt := rfl
@[simp] theorem State.modSnap_pol (s : State) (f : SnapSt → SnapSt) : (s.modSnap f).pol = s.pol := rfl
@[simp] theorem State.modSnap_frm (s : State) (f : SnapSt → SnapSt) : (s.modSnap f).frm = s.frm := rfl
@[simp] theorem State.modSnap_pm (s : State) (f : SnapSt → SnapSt) : (s.modSnap f).pm = s.pm := rfl
@[simp] theorem State.modSnap_lsec (s : State) (f : SnapSt → SnapSt) : (s.modSnap f).lsec = s.lsec := rfl
@[simp] theorem State.modSnap_rel (s : State) (f : SnapSt → SnapSt) : (s.modSnap f).rel = s.rel := rfl
@[simp] theorem State.modSnap_hal (s : State) (f : SnapSt → SnapSt) : (s.modSnap f).hal = s.hal := rfl
@[simp] theorem State.modSnap_sram (s : State) (f : SnapSt → SnapSt) : (s.modSnap f).sram = s.sram := rfl
@[simp] theorem State.modSnap_dual (s : State) (f : SnapSt → SnapSt) : (s.modSnap f).dual = s.dual := rfl
@[simp] theorem State.modSnap_snap (s : State) (f : SnapSt → SnapSt) : (s.modSnap f).snap = f s.snap := rfl
@[simp] theorem State.modSnap_time (s : State) (f : SnapSt → SnapSt) : (s.modSnap f).time = s.time := rfl
@[simp] theorem State.modSnap_act (s : State) (f : SnapSt → SnapSt) : (s.modSnap f).act = s.act := rfl
@[simp] theorem State.modSnap_noticeNext (s : State) (f : SnapSt → SnapSt) : (s.modSnap f).noticeNext = s.noticeNext := rfl
@[simp] theorem State.modSnap_ccry (s : State) (f : SnapSt → SnapSt) : (s.modSnap f).ccry = s.ccry := rfl
@[simp] theorem State.modSnap_kst (s : State) (f : SnapSt → SnapSt) : (s.modSnap f).kst = s.kst := rfl
@[simp] theorem State.modSnap_clk (s : State) (f : SnapSt → SnapSt) : (s.modSnap f).clk = s.clk := rfl
@[simp] theorem State.modSnap_lehr (s : State) (f : SnapSt → SnapSt) : (s.modSnap f).lehr = s.lehr := rfl
@[simp] theorem State.modSnap_tap (s : State) (f : SnapSt → SnapSt) : (s.modSnap f).tap = s.tap := rfl
@[simp] theorem State.modSnap_sup (s : State) (f : SnapSt → SnapSt) : (s.modSnap f).sup = s.sup := rfl
@[simp] theorem State.modSnap_keep (s : State) (f : SnapSt → SnapSt) : (s.modSnap f).keep = s.keep := rfl
@[simp] theorem State.modSnap_core (s : State) (f : SnapSt → SnapSt) : (s.modSnap f).core = s.core := rfl
@[simp] theorem State.modSnap_flsh (s : State) (f : SnapSt → SnapSt) : (s.modSnap f).flsh = s.flsh := rfl
@[simp] theorem State.modSnap_pending (s : State) (f : SnapSt → SnapSt) : (s.modSnap f).pending = s.pending := rfl
@[simp] theorem State.modTime_rf (s : State) (f : TimeSt → TimeSt) : (s.modTime f).rf = s.rf := rfl
@[simp] theorem State.modTime_tables (s : State) (f : TimeSt → TimeSt) : (s.modTime f).tables = s.tables := rfl
@[simp] theorem State.modTime_wins (s : State) (f : TimeSt → TimeSt) : (s.modTime f).wins = s.wins := rfl
@[simp] theorem State.modTime_cnt (s : State) (f : TimeSt → TimeSt) : (s.modTime f).cnt = s.cnt := rfl
@[simp] theorem State.modTime_penn (s : State) (f : TimeSt → TimeSt) : (s.modTime f).penn = s.penn := rfl
@[simp] theorem State.modTime_limited (s : State) (f : TimeSt → TimeSt) : (s.modTime f).limited = s.limited := rfl
@[simp] theorem State.modTime_out (s : State) (f : TimeSt → TimeSt) : (s.modTime f).out = s.out := rfl
@[simp] theorem State.modTime_now (s : State) (f : TimeSt → TimeSt) : (s.modTime f).now = s.now := rfl
@[simp] theorem State.modTime_readData (s : State) (f : TimeSt → TimeSt) : (s.modTime f).readData = s.readData := rfl
@[simp] theorem State.modTime_readHigh (s : State) (f : TimeSt → TimeSt) : (s.modTime f).readHigh = s.readHigh := rfl
@[simp] theorem State.modTime_freeIx (s : State) (f : TimeSt → TimeSt) : (s.modTime f).freeIx = s.freeIx := rfl
@[simp] theorem State.modTime_rx (s : State) (f : TimeSt → TimeSt) : (s.modTime f).rx = s.rx := rfl
@[simp] theorem State.modTime_tx (s : State) (f : TimeSt → TimeSt) : (s.modTime f).tx = s.tx := rfl
@[simp] theorem State.modTime_hif (s : State) (f : TimeSt → TimeSt) : (s.modTime f).hif = s.hif := rfl
@[simp] theorem State.modTime_dma (s : State) (f : TimeSt → TimeSt) : (s.modTime f).dma = s.dma := rfl
@[simp] theorem State.modTime_uni (s : State) (f : TimeSt → TimeSt) : (s.modTime f).uni = s.uni := rfl
@[simp] theorem State.modTime_tsk (s : State) (f : TimeSt → TimeSt) : (s.modTime f).tsk = s.tsk := rfl
@[simp] theorem State.modTime_sto (s : State) (f : TimeSt → TimeSt) : (s.modTime f).sto = s.sto := rfl
@[simp] theorem State.modTime_xtr (s : State) (f : TimeSt → TimeSt) : (s.modTime f).xtr = s.xtr := rfl
@[simp] theorem State.modTime_cls (s : State) (f : TimeSt → TimeSt) : (s.modTime f).cls = s.cls := rfl
@[simp] theorem State.modTime_flow (s : State) (f : TimeSt → TimeSt) : (s.modTime f).flow = s.flow := rfl
@[simp] theorem State.modTime_usch (s : State) (f : TimeSt → TimeSt) : (s.modTime f).usch = s.usch := rfl
@[simp] theorem State.modTime_grt (s : State) (f : TimeSt → TimeSt) : (s.modTime f).grt = s.grt := rfl
@[simp] theorem State.modTime_pol (s : State) (f : TimeSt → TimeSt) : (s.modTime f).pol = s.pol := rfl
@[simp] theorem State.modTime_frm (s : State) (f : TimeSt → TimeSt) : (s.modTime f).frm = s.frm := rfl
@[simp] theorem State.modTime_pm (s : State) (f : TimeSt → TimeSt) : (s.modTime f).pm = s.pm := rfl
@[simp] theorem State.modTime_lsec (s : State) (f : TimeSt → TimeSt) : (s.modTime f).lsec = s.lsec := rfl
@[simp] theorem State.modTime_rel (s : State) (f : TimeSt → TimeSt) : (s.modTime f).rel = s.rel := rfl
@[simp] theorem State.modTime_hal (s : State) (f : TimeSt → TimeSt) : (s.modTime f).hal = s.hal := rfl
@[simp] theorem State.modTime_sram (s : State) (f : TimeSt → TimeSt) : (s.modTime f).sram = s.sram := rfl
@[simp] theorem State.modTime_dual (s : State) (f : TimeSt → TimeSt) : (s.modTime f).dual = s.dual := rfl
@[simp] theorem State.modTime_snap (s : State) (f : TimeSt → TimeSt) : (s.modTime f).snap = s.snap := rfl
@[simp] theorem State.modTime_time (s : State) (f : TimeSt → TimeSt) : (s.modTime f).time = f s.time := rfl
@[simp] theorem State.modTime_act (s : State) (f : TimeSt → TimeSt) : (s.modTime f).act = s.act := rfl
@[simp] theorem State.modTime_noticeNext (s : State) (f : TimeSt → TimeSt) : (s.modTime f).noticeNext = s.noticeNext := rfl
@[simp] theorem State.modTime_ccry (s : State) (f : TimeSt → TimeSt) : (s.modTime f).ccry = s.ccry := rfl
@[simp] theorem State.modTime_kst (s : State) (f : TimeSt → TimeSt) : (s.modTime f).kst = s.kst := rfl
@[simp] theorem State.modTime_clk (s : State) (f : TimeSt → TimeSt) : (s.modTime f).clk = s.clk := rfl
@[simp] theorem State.modTime_lehr (s : State) (f : TimeSt → TimeSt) : (s.modTime f).lehr = s.lehr := rfl
@[simp] theorem State.modTime_tap (s : State) (f : TimeSt → TimeSt) : (s.modTime f).tap = s.tap := rfl
@[simp] theorem State.modTime_sup (s : State) (f : TimeSt → TimeSt) : (s.modTime f).sup = s.sup := rfl
@[simp] theorem State.modTime_keep (s : State) (f : TimeSt → TimeSt) : (s.modTime f).keep = s.keep := rfl
@[simp] theorem State.modTime_core (s : State) (f : TimeSt → TimeSt) : (s.modTime f).core = s.core := rfl
@[simp] theorem State.modTime_flsh (s : State) (f : TimeSt → TimeSt) : (s.modTime f).flsh = s.flsh := rfl
@[simp] theorem State.modTime_pending (s : State) (f : TimeSt → TimeSt) : (s.modTime f).pending = s.pending := rfl
@[simp] theorem State.modAct_rf (s : State) (f : PerTree ActSt → PerTree ActSt) : (s.modAct f).rf = s.rf := rfl
@[simp] theorem State.modAct_tables (s : State) (f : PerTree ActSt → PerTree ActSt) : (s.modAct f).tables = s.tables := rfl
@[simp] theorem State.modAct_wins (s : State) (f : PerTree ActSt → PerTree ActSt) : (s.modAct f).wins = s.wins := rfl
@[simp] theorem State.modAct_cnt (s : State) (f : PerTree ActSt → PerTree ActSt) : (s.modAct f).cnt = s.cnt := rfl
@[simp] theorem State.modAct_penn (s : State) (f : PerTree ActSt → PerTree ActSt) : (s.modAct f).penn = s.penn := rfl
@[simp] theorem State.modAct_limited (s : State) (f : PerTree ActSt → PerTree ActSt) : (s.modAct f).limited = s.limited := rfl
@[simp] theorem State.modAct_out (s : State) (f : PerTree ActSt → PerTree ActSt) : (s.modAct f).out = s.out := rfl
@[simp] theorem State.modAct_now (s : State) (f : PerTree ActSt → PerTree ActSt) : (s.modAct f).now = s.now := rfl
@[simp] theorem State.modAct_readData (s : State) (f : PerTree ActSt → PerTree ActSt) : (s.modAct f).readData = s.readData := rfl
@[simp] theorem State.modAct_readHigh (s : State) (f : PerTree ActSt → PerTree ActSt) : (s.modAct f).readHigh = s.readHigh := rfl
@[simp] theorem State.modAct_freeIx (s : State) (f : PerTree ActSt → PerTree ActSt) : (s.modAct f).freeIx = s.freeIx := rfl
@[simp] theorem State.modAct_rx (s : State) (f : PerTree ActSt → PerTree ActSt) : (s.modAct f).rx = s.rx := rfl
@[simp] theorem State.modAct_tx (s : State) (f : PerTree ActSt → PerTree ActSt) : (s.modAct f).tx = s.tx := rfl
@[simp] theorem State.modAct_hif (s : State) (f : PerTree ActSt → PerTree ActSt) : (s.modAct f).hif = s.hif := rfl
@[simp] theorem State.modAct_dma (s : State) (f : PerTree ActSt → PerTree ActSt) : (s.modAct f).dma = s.dma := rfl
@[simp] theorem State.modAct_uni (s : State) (f : PerTree ActSt → PerTree ActSt) : (s.modAct f).uni = s.uni := rfl
@[simp] theorem State.modAct_tsk (s : State) (f : PerTree ActSt → PerTree ActSt) : (s.modAct f).tsk = s.tsk := rfl
@[simp] theorem State.modAct_sto (s : State) (f : PerTree ActSt → PerTree ActSt) : (s.modAct f).sto = s.sto := rfl
@[simp] theorem State.modAct_xtr (s : State) (f : PerTree ActSt → PerTree ActSt) : (s.modAct f).xtr = s.xtr := rfl
@[simp] theorem State.modAct_cls (s : State) (f : PerTree ActSt → PerTree ActSt) : (s.modAct f).cls = s.cls := rfl
@[simp] theorem State.modAct_flow (s : State) (f : PerTree ActSt → PerTree ActSt) : (s.modAct f).flow = s.flow := rfl
@[simp] theorem State.modAct_usch (s : State) (f : PerTree ActSt → PerTree ActSt) : (s.modAct f).usch = s.usch := rfl
@[simp] theorem State.modAct_grt (s : State) (f : PerTree ActSt → PerTree ActSt) : (s.modAct f).grt = s.grt := rfl
@[simp] theorem State.modAct_pol (s : State) (f : PerTree ActSt → PerTree ActSt) : (s.modAct f).pol = s.pol := rfl
@[simp] theorem State.modAct_frm (s : State) (f : PerTree ActSt → PerTree ActSt) : (s.modAct f).frm = s.frm := rfl
@[simp] theorem State.modAct_pm (s : State) (f : PerTree ActSt → PerTree ActSt) : (s.modAct f).pm = s.pm := rfl
@[simp] theorem State.modAct_lsec (s : State) (f : PerTree ActSt → PerTree ActSt) : (s.modAct f).lsec = s.lsec := rfl
@[simp] theorem State.modAct_rel (s : State) (f : PerTree ActSt → PerTree ActSt) : (s.modAct f).rel = s.rel := rfl
@[simp] theorem State.modAct_hal (s : State) (f : PerTree ActSt → PerTree ActSt) : (s.modAct f).hal = s.hal := rfl
@[simp] theorem State.modAct_sram (s : State) (f : PerTree ActSt → PerTree ActSt) : (s.modAct f).sram = s.sram := rfl
@[simp] theorem State.modAct_dual (s : State) (f : PerTree ActSt → PerTree ActSt) : (s.modAct f).dual = s.dual := rfl
@[simp] theorem State.modAct_snap (s : State) (f : PerTree ActSt → PerTree ActSt) : (s.modAct f).snap = s.snap := rfl
@[simp] theorem State.modAct_time (s : State) (f : PerTree ActSt → PerTree ActSt) : (s.modAct f).time = s.time := rfl
@[simp] theorem State.modAct_act (s : State) (f : PerTree ActSt → PerTree ActSt) : (s.modAct f).act = f s.act := rfl
@[simp] theorem State.modAct_noticeNext (s : State) (f : PerTree ActSt → PerTree ActSt) : (s.modAct f).noticeNext = s.noticeNext := rfl
@[simp] theorem State.modAct_ccry (s : State) (f : PerTree ActSt → PerTree ActSt) : (s.modAct f).ccry = s.ccry := rfl
@[simp] theorem State.modAct_kst (s : State) (f : PerTree ActSt → PerTree ActSt) : (s.modAct f).kst = s.kst := rfl
@[simp] theorem State.modAct_clk (s : State) (f : PerTree ActSt → PerTree ActSt) : (s.modAct f).clk = s.clk := rfl
@[simp] theorem State.modAct_lehr (s : State) (f : PerTree ActSt → PerTree ActSt) : (s.modAct f).lehr = s.lehr := rfl
@[simp] theorem State.modAct_tap (s : State) (f : PerTree ActSt → PerTree ActSt) : (s.modAct f).tap = s.tap := rfl
@[simp] theorem State.modAct_sup (s : State) (f : PerTree ActSt → PerTree ActSt) : (s.modAct f).sup = s.sup := rfl
@[simp] theorem State.modAct_keep (s : State) (f : PerTree ActSt → PerTree ActSt) : (s.modAct f).keep = s.keep := rfl
@[simp] theorem State.modAct_core (s : State) (f : PerTree ActSt → PerTree ActSt) : (s.modAct f).core = s.core := rfl
@[simp] theorem State.modAct_flsh (s : State) (f : PerTree ActSt → PerTree ActSt) : (s.modAct f).flsh = s.flsh := rfl
@[simp] theorem State.modAct_pending (s : State) (f : PerTree ActSt → PerTree ActSt) : (s.modAct f).pending = s.pending := rfl
@[simp] theorem State.modNoticeNext_rf (s : State) (f : Nat → Nat) : (s.modNoticeNext f).rf = s.rf := rfl
@[simp] theorem State.modNoticeNext_tables (s : State) (f : Nat → Nat) : (s.modNoticeNext f).tables = s.tables := rfl
@[simp] theorem State.modNoticeNext_wins (s : State) (f : Nat → Nat) : (s.modNoticeNext f).wins = s.wins := rfl
@[simp] theorem State.modNoticeNext_cnt (s : State) (f : Nat → Nat) : (s.modNoticeNext f).cnt = s.cnt := rfl
@[simp] theorem State.modNoticeNext_penn (s : State) (f : Nat → Nat) : (s.modNoticeNext f).penn = s.penn := rfl
@[simp] theorem State.modNoticeNext_limited (s : State) (f : Nat → Nat) : (s.modNoticeNext f).limited = s.limited := rfl
@[simp] theorem State.modNoticeNext_out (s : State) (f : Nat → Nat) : (s.modNoticeNext f).out = s.out := rfl
@[simp] theorem State.modNoticeNext_now (s : State) (f : Nat → Nat) : (s.modNoticeNext f).now = s.now := rfl
@[simp] theorem State.modNoticeNext_readData (s : State) (f : Nat → Nat) : (s.modNoticeNext f).readData = s.readData := rfl
@[simp] theorem State.modNoticeNext_readHigh (s : State) (f : Nat → Nat) : (s.modNoticeNext f).readHigh = s.readHigh := rfl
@[simp] theorem State.modNoticeNext_freeIx (s : State) (f : Nat → Nat) : (s.modNoticeNext f).freeIx = s.freeIx := rfl
@[simp] theorem State.modNoticeNext_rx (s : State) (f : Nat → Nat) : (s.modNoticeNext f).rx = s.rx := rfl
@[simp] theorem State.modNoticeNext_tx (s : State) (f : Nat → Nat) : (s.modNoticeNext f).tx = s.tx := rfl
@[simp] theorem State.modNoticeNext_hif (s : State) (f : Nat → Nat) : (s.modNoticeNext f).hif = s.hif := rfl
@[simp] theorem State.modNoticeNext_dma (s : State) (f : Nat → Nat) : (s.modNoticeNext f).dma = s.dma := rfl
@[simp] theorem State.modNoticeNext_uni (s : State) (f : Nat → Nat) : (s.modNoticeNext f).uni = s.uni := rfl
@[simp] theorem State.modNoticeNext_tsk (s : State) (f : Nat → Nat) : (s.modNoticeNext f).tsk = s.tsk := rfl
@[simp] theorem State.modNoticeNext_sto (s : State) (f : Nat → Nat) : (s.modNoticeNext f).sto = s.sto := rfl
@[simp] theorem State.modNoticeNext_xtr (s : State) (f : Nat → Nat) : (s.modNoticeNext f).xtr = s.xtr := rfl
@[simp] theorem State.modNoticeNext_cls (s : State) (f : Nat → Nat) : (s.modNoticeNext f).cls = s.cls := rfl
@[simp] theorem State.modNoticeNext_flow (s : State) (f : Nat → Nat) : (s.modNoticeNext f).flow = s.flow := rfl
@[simp] theorem State.modNoticeNext_usch (s : State) (f : Nat → Nat) : (s.modNoticeNext f).usch = s.usch := rfl
@[simp] theorem State.modNoticeNext_grt (s : State) (f : Nat → Nat) : (s.modNoticeNext f).grt = s.grt := rfl
@[simp] theorem State.modNoticeNext_pol (s : State) (f : Nat → Nat) : (s.modNoticeNext f).pol = s.pol := rfl
@[simp] theorem State.modNoticeNext_frm (s : State) (f : Nat → Nat) : (s.modNoticeNext f).frm = s.frm := rfl
@[simp] theorem State.modNoticeNext_pm (s : State) (f : Nat → Nat) : (s.modNoticeNext f).pm = s.pm := rfl
@[simp] theorem State.modNoticeNext_lsec (s : State) (f : Nat → Nat) : (s.modNoticeNext f).lsec = s.lsec := rfl
@[simp] theorem State.modNoticeNext_rel (s : State) (f : Nat → Nat) : (s.modNoticeNext f).rel = s.rel := rfl
@[simp] theorem State.modNoticeNext_hal (s : State) (f : Nat → Nat) : (s.modNoticeNext f).hal = s.hal := rfl
@[simp] theorem State.modNoticeNext_sram (s : State) (f : Nat → Nat) : (s.modNoticeNext f).sram = s.sram := rfl
@[simp] theorem State.modNoticeNext_dual (s : State) (f : Nat → Nat) : (s.modNoticeNext f).dual = s.dual := rfl
@[simp] theorem State.modNoticeNext_snap (s : State) (f : Nat → Nat) : (s.modNoticeNext f).snap = s.snap := rfl
@[simp] theorem State.modNoticeNext_time (s : State) (f : Nat → Nat) : (s.modNoticeNext f).time = s.time := rfl
@[simp] theorem State.modNoticeNext_act (s : State) (f : Nat → Nat) : (s.modNoticeNext f).act = s.act := rfl
@[simp] theorem State.modNoticeNext_noticeNext (s : State) (f : Nat → Nat) : (s.modNoticeNext f).noticeNext = f s.noticeNext := rfl
@[simp] theorem State.modNoticeNext_ccry (s : State) (f : Nat → Nat) : (s.modNoticeNext f).ccry = s.ccry := rfl
@[simp] theorem State.modNoticeNext_kst (s : State) (f : Nat → Nat) : (s.modNoticeNext f).kst = s.kst := rfl
@[simp] theorem State.modNoticeNext_clk (s : State) (f : Nat → Nat) : (s.modNoticeNext f).clk = s.clk := rfl
@[simp] theorem State.modNoticeNext_lehr (s : State) (f : Nat → Nat) : (s.modNoticeNext f).lehr = s.lehr := rfl
@[simp] theorem State.modNoticeNext_tap (s : State) (f : Nat → Nat) : (s.modNoticeNext f).tap = s.tap := rfl
@[simp] theorem State.modNoticeNext_sup (s : State) (f : Nat → Nat) : (s.modNoticeNext f).sup = s.sup := rfl
@[simp] theorem State.modNoticeNext_keep (s : State) (f : Nat → Nat) : (s.modNoticeNext f).keep = s.keep := rfl
@[simp] theorem State.modNoticeNext_core (s : State) (f : Nat → Nat) : (s.modNoticeNext f).core = s.core := rfl
@[simp] theorem State.modNoticeNext_flsh (s : State) (f : Nat → Nat) : (s.modNoticeNext f).flsh = s.flsh := rfl
@[simp] theorem State.modNoticeNext_pending (s : State) (f : Nat → Nat) : (s.modNoticeNext f).pending = s.pending := rfl
@[simp] theorem State.modCcry_rf (s : State) (f : CcrySt → CcrySt) : (s.modCcry f).rf = s.rf := rfl
@[simp] theorem State.modCcry_tables (s : State) (f : CcrySt → CcrySt) : (s.modCcry f).tables = s.tables := rfl
@[simp] theorem State.modCcry_wins (s : State) (f : CcrySt → CcrySt) : (s.modCcry f).wins = s.wins := rfl
@[simp] theorem State.modCcry_cnt (s : State) (f : CcrySt → CcrySt) : (s.modCcry f).cnt = s.cnt := rfl
@[simp] theorem State.modCcry_penn (s : State) (f : CcrySt → CcrySt) : (s.modCcry f).penn = s.penn := rfl
@[simp] theorem State.modCcry_limited (s : State) (f : CcrySt → CcrySt) : (s.modCcry f).limited = s.limited := rfl
@[simp] theorem State.modCcry_out (s : State) (f : CcrySt → CcrySt) : (s.modCcry f).out = s.out := rfl
@[simp] theorem State.modCcry_now (s : State) (f : CcrySt → CcrySt) : (s.modCcry f).now = s.now := rfl
@[simp] theorem State.modCcry_readData (s : State) (f : CcrySt → CcrySt) : (s.modCcry f).readData = s.readData := rfl
@[simp] theorem State.modCcry_readHigh (s : State) (f : CcrySt → CcrySt) : (s.modCcry f).readHigh = s.readHigh := rfl
@[simp] theorem State.modCcry_freeIx (s : State) (f : CcrySt → CcrySt) : (s.modCcry f).freeIx = s.freeIx := rfl
@[simp] theorem State.modCcry_rx (s : State) (f : CcrySt → CcrySt) : (s.modCcry f).rx = s.rx := rfl
@[simp] theorem State.modCcry_tx (s : State) (f : CcrySt → CcrySt) : (s.modCcry f).tx = s.tx := rfl
@[simp] theorem State.modCcry_hif (s : State) (f : CcrySt → CcrySt) : (s.modCcry f).hif = s.hif := rfl
@[simp] theorem State.modCcry_dma (s : State) (f : CcrySt → CcrySt) : (s.modCcry f).dma = s.dma := rfl
@[simp] theorem State.modCcry_uni (s : State) (f : CcrySt → CcrySt) : (s.modCcry f).uni = s.uni := rfl
@[simp] theorem State.modCcry_tsk (s : State) (f : CcrySt → CcrySt) : (s.modCcry f).tsk = s.tsk := rfl
@[simp] theorem State.modCcry_sto (s : State) (f : CcrySt → CcrySt) : (s.modCcry f).sto = s.sto := rfl
@[simp] theorem State.modCcry_xtr (s : State) (f : CcrySt → CcrySt) : (s.modCcry f).xtr = s.xtr := rfl
@[simp] theorem State.modCcry_cls (s : State) (f : CcrySt → CcrySt) : (s.modCcry f).cls = s.cls := rfl
@[simp] theorem State.modCcry_flow (s : State) (f : CcrySt → CcrySt) : (s.modCcry f).flow = s.flow := rfl
@[simp] theorem State.modCcry_usch (s : State) (f : CcrySt → CcrySt) : (s.modCcry f).usch = s.usch := rfl
@[simp] theorem State.modCcry_grt (s : State) (f : CcrySt → CcrySt) : (s.modCcry f).grt = s.grt := rfl
@[simp] theorem State.modCcry_pol (s : State) (f : CcrySt → CcrySt) : (s.modCcry f).pol = s.pol := rfl
@[simp] theorem State.modCcry_frm (s : State) (f : CcrySt → CcrySt) : (s.modCcry f).frm = s.frm := rfl
@[simp] theorem State.modCcry_pm (s : State) (f : CcrySt → CcrySt) : (s.modCcry f).pm = s.pm := rfl
@[simp] theorem State.modCcry_lsec (s : State) (f : CcrySt → CcrySt) : (s.modCcry f).lsec = s.lsec := rfl
@[simp] theorem State.modCcry_rel (s : State) (f : CcrySt → CcrySt) : (s.modCcry f).rel = s.rel := rfl
@[simp] theorem State.modCcry_hal (s : State) (f : CcrySt → CcrySt) : (s.modCcry f).hal = s.hal := rfl
@[simp] theorem State.modCcry_sram (s : State) (f : CcrySt → CcrySt) : (s.modCcry f).sram = s.sram := rfl
@[simp] theorem State.modCcry_dual (s : State) (f : CcrySt → CcrySt) : (s.modCcry f).dual = s.dual := rfl
@[simp] theorem State.modCcry_snap (s : State) (f : CcrySt → CcrySt) : (s.modCcry f).snap = s.snap := rfl
@[simp] theorem State.modCcry_time (s : State) (f : CcrySt → CcrySt) : (s.modCcry f).time = s.time := rfl
@[simp] theorem State.modCcry_act (s : State) (f : CcrySt → CcrySt) : (s.modCcry f).act = s.act := rfl
@[simp] theorem State.modCcry_noticeNext (s : State) (f : CcrySt → CcrySt) : (s.modCcry f).noticeNext = s.noticeNext := rfl
@[simp] theorem State.modCcry_ccry (s : State) (f : CcrySt → CcrySt) : (s.modCcry f).ccry = f s.ccry := rfl
@[simp] theorem State.modCcry_kst (s : State) (f : CcrySt → CcrySt) : (s.modCcry f).kst = s.kst := rfl
@[simp] theorem State.modCcry_clk (s : State) (f : CcrySt → CcrySt) : (s.modCcry f).clk = s.clk := rfl
@[simp] theorem State.modCcry_lehr (s : State) (f : CcrySt → CcrySt) : (s.modCcry f).lehr = s.lehr := rfl
@[simp] theorem State.modCcry_tap (s : State) (f : CcrySt → CcrySt) : (s.modCcry f).tap = s.tap := rfl
@[simp] theorem State.modCcry_sup (s : State) (f : CcrySt → CcrySt) : (s.modCcry f).sup = s.sup := rfl
@[simp] theorem State.modCcry_keep (s : State) (f : CcrySt → CcrySt) : (s.modCcry f).keep = s.keep := rfl
@[simp] theorem State.modCcry_core (s : State) (f : CcrySt → CcrySt) : (s.modCcry f).core = s.core := rfl
@[simp] theorem State.modCcry_flsh (s : State) (f : CcrySt → CcrySt) : (s.modCcry f).flsh = s.flsh := rfl
@[simp] theorem State.modCcry_pending (s : State) (f : CcrySt → CcrySt) : (s.modCcry f).pending = s.pending := rfl
@[simp] theorem State.modKst_rf (s : State) (f : KstSt → KstSt) : (s.modKst f).rf = s.rf := rfl
@[simp] theorem State.modKst_tables (s : State) (f : KstSt → KstSt) : (s.modKst f).tables = s.tables := rfl
@[simp] theorem State.modKst_wins (s : State) (f : KstSt → KstSt) : (s.modKst f).wins = s.wins := rfl
@[simp] theorem State.modKst_cnt (s : State) (f : KstSt → KstSt) : (s.modKst f).cnt = s.cnt := rfl
@[simp] theorem State.modKst_penn (s : State) (f : KstSt → KstSt) : (s.modKst f).penn = s.penn := rfl
@[simp] theorem State.modKst_limited (s : State) (f : KstSt → KstSt) : (s.modKst f).limited = s.limited := rfl
@[simp] theorem State.modKst_out (s : State) (f : KstSt → KstSt) : (s.modKst f).out = s.out := rfl
@[simp] theorem State.modKst_now (s : State) (f : KstSt → KstSt) : (s.modKst f).now = s.now := rfl
@[simp] theorem State.modKst_readData (s : State) (f : KstSt → KstSt) : (s.modKst f).readData = s.readData := rfl
@[simp] theorem State.modKst_readHigh (s : State) (f : KstSt → KstSt) : (s.modKst f).readHigh = s.readHigh := rfl
@[simp] theorem State.modKst_freeIx (s : State) (f : KstSt → KstSt) : (s.modKst f).freeIx = s.freeIx := rfl
@[simp] theorem State.modKst_rx (s : State) (f : KstSt → KstSt) : (s.modKst f).rx = s.rx := rfl
@[simp] theorem State.modKst_tx (s : State) (f : KstSt → KstSt) : (s.modKst f).tx = s.tx := rfl
@[simp] theorem State.modKst_hif (s : State) (f : KstSt → KstSt) : (s.modKst f).hif = s.hif := rfl
@[simp] theorem State.modKst_dma (s : State) (f : KstSt → KstSt) : (s.modKst f).dma = s.dma := rfl
@[simp] theorem State.modKst_uni (s : State) (f : KstSt → KstSt) : (s.modKst f).uni = s.uni := rfl
@[simp] theorem State.modKst_tsk (s : State) (f : KstSt → KstSt) : (s.modKst f).tsk = s.tsk := rfl
@[simp] theorem State.modKst_sto (s : State) (f : KstSt → KstSt) : (s.modKst f).sto = s.sto := rfl
@[simp] theorem State.modKst_xtr (s : State) (f : KstSt → KstSt) : (s.modKst f).xtr = s.xtr := rfl
@[simp] theorem State.modKst_cls (s : State) (f : KstSt → KstSt) : (s.modKst f).cls = s.cls := rfl
@[simp] theorem State.modKst_flow (s : State) (f : KstSt → KstSt) : (s.modKst f).flow = s.flow := rfl
@[simp] theorem State.modKst_usch (s : State) (f : KstSt → KstSt) : (s.modKst f).usch = s.usch := rfl
@[simp] theorem State.modKst_grt (s : State) (f : KstSt → KstSt) : (s.modKst f).grt = s.grt := rfl
@[simp] theorem State.modKst_pol (s : State) (f : KstSt → KstSt) : (s.modKst f).pol = s.pol := rfl
@[simp] theorem State.modKst_frm (s : State) (f : KstSt → KstSt) : (s.modKst f).frm = s.frm := rfl
@[simp] theorem State.modKst_pm (s : State) (f : KstSt → KstSt) : (s.modKst f).pm = s.pm := rfl
@[simp] theorem State.modKst_lsec (s : State) (f : KstSt → KstSt) : (s.modKst f).lsec = s.lsec := rfl
@[simp] theorem State.modKst_rel (s : State) (f : KstSt → KstSt) : (s.modKst f).rel = s.rel := rfl
@[simp] theorem State.modKst_hal (s : State) (f : KstSt → KstSt) : (s.modKst f).hal = s.hal := rfl
@[simp] theorem State.modKst_sram (s : State) (f : KstSt → KstSt) : (s.modKst f).sram = s.sram := rfl
@[simp] theorem State.modKst_dual (s : State) (f : KstSt → KstSt) : (s.modKst f).dual = s.dual := rfl
@[simp] theorem State.modKst_snap (s : State) (f : KstSt → KstSt) : (s.modKst f).snap = s.snap := rfl
@[simp] theorem State.modKst_time (s : State) (f : KstSt → KstSt) : (s.modKst f).time = s.time := rfl
@[simp] theorem State.modKst_act (s : State) (f : KstSt → KstSt) : (s.modKst f).act = s.act := rfl
@[simp] theorem State.modKst_noticeNext (s : State) (f : KstSt → KstSt) : (s.modKst f).noticeNext = s.noticeNext := rfl
@[simp] theorem State.modKst_ccry (s : State) (f : KstSt → KstSt) : (s.modKst f).ccry = s.ccry := rfl
@[simp] theorem State.modKst_kst (s : State) (f : KstSt → KstSt) : (s.modKst f).kst = f s.kst := rfl
@[simp] theorem State.modKst_clk (s : State) (f : KstSt → KstSt) : (s.modKst f).clk = s.clk := rfl
@[simp] theorem State.modKst_lehr (s : State) (f : KstSt → KstSt) : (s.modKst f).lehr = s.lehr := rfl
@[simp] theorem State.modKst_tap (s : State) (f : KstSt → KstSt) : (s.modKst f).tap = s.tap := rfl
@[simp] theorem State.modKst_sup (s : State) (f : KstSt → KstSt) : (s.modKst f).sup = s.sup := rfl
@[simp] theorem State.modKst_keep (s : State) (f : KstSt → KstSt) : (s.modKst f).keep = s.keep := rfl
@[simp] theorem State.modKst_core (s : State) (f : KstSt → KstSt) : (s.modKst f).core = s.core := rfl
@[simp] theorem State.modKst_flsh (s : State) (f : KstSt → KstSt) : (s.modKst f).flsh = s.flsh := rfl
@[simp] theorem State.modKst_pending (s : State) (f : KstSt → KstSt) : (s.modKst f).pending = s.pending := rfl
@[simp] theorem State.modClk_rf (s : State) (f : ClkSt → ClkSt) : (s.modClk f).rf = s.rf := rfl
@[simp] theorem State.modClk_tables (s : State) (f : ClkSt → ClkSt) : (s.modClk f).tables = s.tables := rfl
@[simp] theorem State.modClk_wins (s : State) (f : ClkSt → ClkSt) : (s.modClk f).wins = s.wins := rfl
@[simp] theorem State.modClk_cnt (s : State) (f : ClkSt → ClkSt) : (s.modClk f).cnt = s.cnt := rfl
@[simp] theorem State.modClk_penn (s : State) (f : ClkSt → ClkSt) : (s.modClk f).penn = s.penn := rfl
@[simp] theorem State.modClk_limited (s : State) (f : ClkSt → ClkSt) : (s.modClk f).limited = s.limited := rfl
@[simp] theorem State.modClk_out (s : State) (f : ClkSt → ClkSt) : (s.modClk f).out = s.out := rfl
@[simp] theorem State.modClk_now (s : State) (f : ClkSt → ClkSt) : (s.modClk f).now = s.now := rfl
@[simp] theorem State.modClk_readData (s : State) (f : ClkSt → ClkSt) : (s.modClk f).readData = s.readData := rfl
@[simp] theorem State.modClk_readHigh (s : State) (f : ClkSt → ClkSt) : (s.modClk f).readHigh = s.readHigh := rfl
@[simp] theorem State.modClk_freeIx (s : State) (f : ClkSt → ClkSt) : (s.modClk f).freeIx = s.freeIx := rfl
@[simp] theorem State.modClk_rx (s : State) (f : ClkSt → ClkSt) : (s.modClk f).rx = s.rx := rfl
@[simp] theorem State.modClk_tx (s : State) (f : ClkSt → ClkSt) : (s.modClk f).tx = s.tx := rfl
@[simp] theorem State.modClk_hif (s : State) (f : ClkSt → ClkSt) : (s.modClk f).hif = s.hif := rfl
@[simp] theorem State.modClk_dma (s : State) (f : ClkSt → ClkSt) : (s.modClk f).dma = s.dma := rfl
@[simp] theorem State.modClk_uni (s : State) (f : ClkSt → ClkSt) : (s.modClk f).uni = s.uni := rfl
@[simp] theorem State.modClk_tsk (s : State) (f : ClkSt → ClkSt) : (s.modClk f).tsk = s.tsk := rfl
@[simp] theorem State.modClk_sto (s : State) (f : ClkSt → ClkSt) : (s.modClk f).sto = s.sto := rfl
@[simp] theorem State.modClk_xtr (s : State) (f : ClkSt → ClkSt) : (s.modClk f).xtr = s.xtr := rfl
@[simp] theorem State.modClk_cls (s : State) (f : ClkSt → ClkSt) : (s.modClk f).cls = s.cls := rfl
@[simp] theorem State.modClk_flow (s : State) (f : ClkSt → ClkSt) : (s.modClk f).flow = s.flow := rfl
@[simp] theorem State.modClk_usch (s : State) (f : ClkSt → ClkSt) : (s.modClk f).usch = s.usch := rfl
@[simp] theorem State.modClk_grt (s : State) (f : ClkSt → ClkSt) : (s.modClk f).grt = s.grt := rfl
@[simp] theorem State.modClk_pol (s : State) (f : ClkSt → ClkSt) : (s.modClk f).pol = s.pol := rfl
@[simp] theorem State.modClk_frm (s : State) (f : ClkSt → ClkSt) : (s.modClk f).frm = s.frm := rfl
@[simp] theorem State.modClk_pm (s : State) (f : ClkSt → ClkSt) : (s.modClk f).pm = s.pm := rfl
@[simp] theorem State.modClk_lsec (s : State) (f : ClkSt → ClkSt) : (s.modClk f).lsec = s.lsec := rfl
@[simp] theorem State.modClk_rel (s : State) (f : ClkSt → ClkSt) : (s.modClk f).rel = s.rel := rfl
@[simp] theorem State.modClk_hal (s : State) (f : ClkSt → ClkSt) : (s.modClk f).hal = s.hal := rfl
@[simp] theorem State.modClk_sram (s : State) (f : ClkSt → ClkSt) : (s.modClk f).sram = s.sram := rfl
@[simp] theorem State.modClk_dual (s : State) (f : ClkSt → ClkSt) : (s.modClk f).dual = s.dual := rfl
@[simp] theorem State.modClk_snap (s : State) (f : ClkSt → ClkSt) : (s.modClk f).snap = s.snap := rfl
@[simp] theorem State.modClk_time (s : State) (f : ClkSt → ClkSt) : (s.modClk f).time = s.time := rfl
@[simp] theorem State.modClk_act (s : State) (f : ClkSt → ClkSt) : (s.modClk f).act = s.act := rfl
@[simp] theorem State.modClk_noticeNext (s : State) (f : ClkSt → ClkSt) : (s.modClk f).noticeNext = s.noticeNext := rfl
@[simp] theorem State.modClk_ccry (s : State) (f : ClkSt → ClkSt) : (s.modClk f).ccry = s.ccry := rfl
@[simp] theorem State.modClk_kst (s : State) (f : ClkSt → ClkSt) : (s.modClk f).kst = s.kst := rfl
@[simp] theorem State.modClk_clk (s : State) (f : ClkSt → ClkSt) : (s.modClk f).clk = f s.clk := rfl
@[simp] theorem State.modClk_lehr (s : State) (f : ClkSt → ClkSt) : (s.modClk f).lehr = s.lehr := rfl
@[simp] theorem State.modClk_tap (s : State) (f : ClkSt → ClkSt) : (s.modClk f).tap = s.tap := rfl
@[simp] theorem State.modClk_sup (s : State) (f : ClkSt → ClkSt) : (s.modClk f).sup = s.sup := rfl
@[simp] theorem State.modClk_keep (s : State) (f : ClkSt → ClkSt) : (s.modClk f).keep = s.keep := rfl
@[simp] theorem State.modClk_core (s : State) (f : ClkSt → ClkSt) : (s.modClk f).core = s.core := rfl
@[simp] theorem State.modClk_flsh (s : State) (f : ClkSt → ClkSt) : (s.modClk f).flsh = s.flsh := rfl
@[simp] theorem State.modClk_pending (s : State) (f : ClkSt → ClkSt) : (s.modClk f).pending = s.pending := rfl
@[simp] theorem State.modLehr_rf (s : State) (f : LehrSt → LehrSt) : (s.modLehr f).rf = s.rf := rfl
@[simp] theorem State.modLehr_tables (s : State) (f : LehrSt → LehrSt) : (s.modLehr f).tables = s.tables := rfl
@[simp] theorem State.modLehr_wins (s : State) (f : LehrSt → LehrSt) : (s.modLehr f).wins = s.wins := rfl
@[simp] theorem State.modLehr_cnt (s : State) (f : LehrSt → LehrSt) : (s.modLehr f).cnt = s.cnt := rfl
@[simp] theorem State.modLehr_penn (s : State) (f : LehrSt → LehrSt) : (s.modLehr f).penn = s.penn := rfl
@[simp] theorem State.modLehr_limited (s : State) (f : LehrSt → LehrSt) : (s.modLehr f).limited = s.limited := rfl
@[simp] theorem State.modLehr_out (s : State) (f : LehrSt → LehrSt) : (s.modLehr f).out = s.out := rfl
@[simp] theorem State.modLehr_now (s : State) (f : LehrSt → LehrSt) : (s.modLehr f).now = s.now := rfl
@[simp] theorem State.modLehr_readData (s : State) (f : LehrSt → LehrSt) : (s.modLehr f).readData = s.readData := rfl
@[simp] theorem State.modLehr_readHigh (s : State) (f : LehrSt → LehrSt) : (s.modLehr f).readHigh = s.readHigh := rfl
@[simp] theorem State.modLehr_freeIx (s : State) (f : LehrSt → LehrSt) : (s.modLehr f).freeIx = s.freeIx := rfl
@[simp] theorem State.modLehr_rx (s : State) (f : LehrSt → LehrSt) : (s.modLehr f).rx = s.rx := rfl
@[simp] theorem State.modLehr_tx (s : State) (f : LehrSt → LehrSt) : (s.modLehr f).tx = s.tx := rfl
@[simp] theorem State.modLehr_hif (s : State) (f : LehrSt → LehrSt) : (s.modLehr f).hif = s.hif := rfl
@[simp] theorem State.modLehr_dma (s : State) (f : LehrSt → LehrSt) : (s.modLehr f).dma = s.dma := rfl
@[simp] theorem State.modLehr_uni (s : State) (f : LehrSt → LehrSt) : (s.modLehr f).uni = s.uni := rfl
@[simp] theorem State.modLehr_tsk (s : State) (f : LehrSt → LehrSt) : (s.modLehr f).tsk = s.tsk := rfl
@[simp] theorem State.modLehr_sto (s : State) (f : LehrSt → LehrSt) : (s.modLehr f).sto = s.sto := rfl
@[simp] theorem State.modLehr_xtr (s : State) (f : LehrSt → LehrSt) : (s.modLehr f).xtr = s.xtr := rfl
@[simp] theorem State.modLehr_cls (s : State) (f : LehrSt → LehrSt) : (s.modLehr f).cls = s.cls := rfl
@[simp] theorem State.modLehr_flow (s : State) (f : LehrSt → LehrSt) : (s.modLehr f).flow = s.flow := rfl
@[simp] theorem State.modLehr_usch (s : State) (f : LehrSt → LehrSt) : (s.modLehr f).usch = s.usch := rfl
@[simp] theorem State.modLehr_grt (s : State) (f : LehrSt → LehrSt) : (s.modLehr f).grt = s.grt := rfl
@[simp] theorem State.modLehr_pol (s : State) (f : LehrSt → LehrSt) : (s.modLehr f).pol = s.pol := rfl
@[simp] theorem State.modLehr_frm (s : State) (f : LehrSt → LehrSt) : (s.modLehr f).frm = s.frm := rfl
@[simp] theorem State.modLehr_pm (s : State) (f : LehrSt → LehrSt) : (s.modLehr f).pm = s.pm := rfl
@[simp] theorem State.modLehr_lsec (s : State) (f : LehrSt → LehrSt) : (s.modLehr f).lsec = s.lsec := rfl
@[simp] theorem State.modLehr_rel (s : State) (f : LehrSt → LehrSt) : (s.modLehr f).rel = s.rel := rfl
@[simp] theorem State.modLehr_hal (s : State) (f : LehrSt → LehrSt) : (s.modLehr f).hal = s.hal := rfl
@[simp] theorem State.modLehr_sram (s : State) (f : LehrSt → LehrSt) : (s.modLehr f).sram = s.sram := rfl
@[simp] theorem State.modLehr_dual (s : State) (f : LehrSt → LehrSt) : (s.modLehr f).dual = s.dual := rfl
@[simp] theorem State.modLehr_snap (s : State) (f : LehrSt → LehrSt) : (s.modLehr f).snap = s.snap := rfl
@[simp] theorem State.modLehr_time (s : State) (f : LehrSt → LehrSt) : (s.modLehr f).time = s.time := rfl
@[simp] theorem State.modLehr_act (s : State) (f : LehrSt → LehrSt) : (s.modLehr f).act = s.act := rfl
@[simp] theorem State.modLehr_noticeNext (s : State) (f : LehrSt → LehrSt) : (s.modLehr f).noticeNext = s.noticeNext := rfl
@[simp] theorem State.modLehr_ccry (s : State) (f : LehrSt → LehrSt) : (s.modLehr f).ccry = s.ccry := rfl
@[simp] theorem State.modLehr_kst (s : State) (f : LehrSt → LehrSt) : (s.modLehr f).kst = s.kst := rfl
@[simp] theorem State.modLehr_clk (s : State) (f : LehrSt → LehrSt) : (s.modLehr f).clk = s.clk := rfl
@[simp] theorem State.modLehr_lehr (s : State) (f : LehrSt → LehrSt) : (s.modLehr f).lehr = f s.lehr := rfl
@[simp] theorem State.modLehr_tap (s : State) (f : LehrSt → LehrSt) : (s.modLehr f).tap = s.tap := rfl
@[simp] theorem State.modLehr_sup (s : State) (f : LehrSt → LehrSt) : (s.modLehr f).sup = s.sup := rfl
@[simp] theorem State.modLehr_keep (s : State) (f : LehrSt → LehrSt) : (s.modLehr f).keep = s.keep := rfl
@[simp] theorem State.modLehr_core (s : State) (f : LehrSt → LehrSt) : (s.modLehr f).core = s.core := rfl
@[simp] theorem State.modLehr_flsh (s : State) (f : LehrSt → LehrSt) : (s.modLehr f).flsh = s.flsh := rfl
@[simp] theorem State.modLehr_pending (s : State) (f : LehrSt → LehrSt) : (s.modLehr f).pending = s.pending := rfl
@[simp] theorem State.modTap_rf (s : State) (f : TapSt → TapSt) : (s.modTap f).rf = s.rf := rfl
@[simp] theorem State.modTap_tables (s : State) (f : TapSt → TapSt) : (s.modTap f).tables = s.tables := rfl
@[simp] theorem State.modTap_wins (s : State) (f : TapSt → TapSt) : (s.modTap f).wins = s.wins := rfl
@[simp] theorem State.modTap_cnt (s : State) (f : TapSt → TapSt) : (s.modTap f).cnt = s.cnt := rfl
@[simp] theorem State.modTap_penn (s : State) (f : TapSt → TapSt) : (s.modTap f).penn = s.penn := rfl
@[simp] theorem State.modTap_limited (s : State) (f : TapSt → TapSt) : (s.modTap f).limited = s.limited := rfl
@[simp] theorem State.modTap_out (s : State) (f : TapSt → TapSt) : (s.modTap f).out = s.out := rfl
@[simp] theorem State.modTap_now (s : State) (f : TapSt → TapSt) : (s.modTap f).now = s.now := rfl
@[simp] theorem State.modTap_readData (s : State) (f : TapSt → TapSt) : (s.modTap f).readData = s.readData := rfl
@[simp] theorem State.modTap_readHigh (s : State) (f : TapSt → TapSt) : (s.modTap f).readHigh = s.readHigh := rfl
@[simp] theorem State.modTap_freeIx (s : State) (f : TapSt → TapSt) : (s.modTap f).freeIx = s.freeIx := rfl
@[simp] theorem State.modTap_rx (s : State) (f : TapSt → TapSt) : (s.modTap f).rx = s.rx := rfl
@[simp] theorem State.modTap_tx (s : State) (f : TapSt → TapSt) : (s.modTap f).tx = s.tx := rfl
@[simp] theorem State.modTap_hif (s : State) (f : TapSt → TapSt) : (s.modTap f).hif = s.hif := rfl
@[simp] theorem State.modTap_dma (s : State) (f : TapSt → TapSt) : (s.modTap f).dma = s.dma := rfl
@[simp] theorem State.modTap_uni (s : State) (f : TapSt → TapSt) : (s.modTap f).uni = s.uni := rfl
@[simp] theorem State.modTap_tsk (s : State) (f : TapSt → TapSt) : (s.modTap f).tsk = s.tsk := rfl
@[simp] theorem State.modTap_sto (s : State) (f : TapSt → TapSt) : (s.modTap f).sto = s.sto := rfl
@[simp] theorem State.modTap_xtr (s : State) (f : TapSt → TapSt) : (s.modTap f).xtr = s.xtr := rfl
@[simp] theorem State.modTap_cls (s : State) (f : TapSt → TapSt) : (s.modTap f).cls = s.cls := rfl
@[simp] theorem State.modTap_flow (s : State) (f : TapSt → TapSt) : (s.modTap f).flow = s.flow := rfl
@[simp] theorem State.modTap_usch (s : State) (f : TapSt → TapSt) : (s.modTap f).usch = s.usch := rfl
@[simp] theorem State.modTap_grt (s : State) (f : TapSt → TapSt) : (s.modTap f).grt = s.grt := rfl
@[simp] theorem State.modTap_pol (s : State) (f : TapSt → TapSt) : (s.modTap f).pol = s.pol := rfl
@[simp] theorem State.modTap_frm (s : State) (f : TapSt → TapSt) : (s.modTap f).frm = s.frm := rfl
@[simp] theorem State.modTap_pm (s : State) (f : TapSt → TapSt) : (s.modTap f).pm = s.pm := rfl
@[simp] theorem State.modTap_lsec (s : State) (f : TapSt → TapSt) : (s.modTap f).lsec = s.lsec := rfl
@[simp] theorem State.modTap_rel (s : State) (f : TapSt → TapSt) : (s.modTap f).rel = s.rel := rfl
@[simp] theorem State.modTap_hal (s : State) (f : TapSt → TapSt) : (s.modTap f).hal = s.hal := rfl
@[simp] theorem State.modTap_sram (s : State) (f : TapSt → TapSt) : (s.modTap f).sram = s.sram := rfl
@[simp] theorem State.modTap_dual (s : State) (f : TapSt → TapSt) : (s.modTap f).dual = s.dual := rfl
@[simp] theorem State.modTap_snap (s : State) (f : TapSt → TapSt) : (s.modTap f).snap = s.snap := rfl
@[simp] theorem State.modTap_time (s : State) (f : TapSt → TapSt) : (s.modTap f).time = s.time := rfl
@[simp] theorem State.modTap_act (s : State) (f : TapSt → TapSt) : (s.modTap f).act = s.act := rfl
@[simp] theorem State.modTap_noticeNext (s : State) (f : TapSt → TapSt) : (s.modTap f).noticeNext = s.noticeNext := rfl
@[simp] theorem State.modTap_ccry (s : State) (f : TapSt → TapSt) : (s.modTap f).ccry = s.ccry := rfl
@[simp] theorem State.modTap_kst (s : State) (f : TapSt → TapSt) : (s.modTap f).kst = s.kst := rfl
@[simp] theorem State.modTap_clk (s : State) (f : TapSt → TapSt) : (s.modTap f).clk = s.clk := rfl
@[simp] theorem State.modTap_lehr (s : State) (f : TapSt → TapSt) : (s.modTap f).lehr = s.lehr := rfl
@[simp] theorem State.modTap_tap (s : State) (f : TapSt → TapSt) : (s.modTap f).tap = f s.tap := rfl
@[simp] theorem State.modTap_sup (s : State) (f : TapSt → TapSt) : (s.modTap f).sup = s.sup := rfl
@[simp] theorem State.modTap_keep (s : State) (f : TapSt → TapSt) : (s.modTap f).keep = s.keep := rfl
@[simp] theorem State.modTap_core (s : State) (f : TapSt → TapSt) : (s.modTap f).core = s.core := rfl
@[simp] theorem State.modTap_flsh (s : State) (f : TapSt → TapSt) : (s.modTap f).flsh = s.flsh := rfl
@[simp] theorem State.modTap_pending (s : State) (f : TapSt → TapSt) : (s.modTap f).pending = s.pending := rfl
@[simp] theorem State.modSup_rf (s : State) (f : SupSt → SupSt) : (s.modSup f).rf = s.rf := rfl
@[simp] theorem State.modSup_tables (s : State) (f : SupSt → SupSt) : (s.modSup f).tables = s.tables := rfl
@[simp] theorem State.modSup_wins (s : State) (f : SupSt → SupSt) : (s.modSup f).wins = s.wins := rfl
@[simp] theorem State.modSup_cnt (s : State) (f : SupSt → SupSt) : (s.modSup f).cnt = s.cnt := rfl
@[simp] theorem State.modSup_penn (s : State) (f : SupSt → SupSt) : (s.modSup f).penn = s.penn := rfl
@[simp] theorem State.modSup_limited (s : State) (f : SupSt → SupSt) : (s.modSup f).limited = s.limited := rfl
@[simp] theorem State.modSup_out (s : State) (f : SupSt → SupSt) : (s.modSup f).out = s.out := rfl
@[simp] theorem State.modSup_now (s : State) (f : SupSt → SupSt) : (s.modSup f).now = s.now := rfl
@[simp] theorem State.modSup_readData (s : State) (f : SupSt → SupSt) : (s.modSup f).readData = s.readData := rfl
@[simp] theorem State.modSup_readHigh (s : State) (f : SupSt → SupSt) : (s.modSup f).readHigh = s.readHigh := rfl
@[simp] theorem State.modSup_freeIx (s : State) (f : SupSt → SupSt) : (s.modSup f).freeIx = s.freeIx := rfl
@[simp] theorem State.modSup_rx (s : State) (f : SupSt → SupSt) : (s.modSup f).rx = s.rx := rfl
@[simp] theorem State.modSup_tx (s : State) (f : SupSt → SupSt) : (s.modSup f).tx = s.tx := rfl
@[simp] theorem State.modSup_hif (s : State) (f : SupSt → SupSt) : (s.modSup f).hif = s.hif := rfl
@[simp] theorem State.modSup_dma (s : State) (f : SupSt → SupSt) : (s.modSup f).dma = s.dma := rfl
@[simp] theorem State.modSup_uni (s : State) (f : SupSt → SupSt) : (s.modSup f).uni = s.uni := rfl
@[simp] theorem State.modSup_tsk (s : State) (f : SupSt → SupSt) : (s.modSup f).tsk = s.tsk := rfl
@[simp] theorem State.modSup_sto (s : State) (f : SupSt → SupSt) : (s.modSup f).sto = s.sto := rfl
@[simp] theorem State.modSup_xtr (s : State) (f : SupSt → SupSt) : (s.modSup f).xtr = s.xtr := rfl
@[simp] theorem State.modSup_cls (s : State) (f : SupSt → SupSt) : (s.modSup f).cls = s.cls := rfl
@[simp] theorem State.modSup_flow (s : State) (f : SupSt → SupSt) : (s.modSup f).flow = s.flow := rfl
@[simp] theorem State.modSup_usch (s : State) (f : SupSt → SupSt) : (s.modSup f).usch = s.usch := rfl
@[simp] theorem State.modSup_grt (s : State) (f : SupSt → SupSt) : (s.modSup f).grt = s.grt := rfl
@[simp] theorem State.modSup_pol (s : State) (f : SupSt → SupSt) : (s.modSup f).pol = s.pol := rfl
@[simp] theorem State.modSup_frm (s : State) (f : SupSt → SupSt) : (s.modSup f).frm = s.frm := rfl
@[simp] theorem State.modSup_pm (s : State) (f : SupSt → SupSt) : (s.modSup f).pm = s.pm := rfl
@[simp] theorem State.modSup_lsec (s : State) (f : SupSt → SupSt) : (s.modSup f).lsec = s.lsec := rfl
@[simp] theorem State.modSup_rel (s : State) (f : SupSt → SupSt) : (s.modSup f).rel = s.rel := rfl
@[simp] theorem State.modSup_hal (s : State) (f : SupSt → SupSt) : (s.modSup f).hal = s.hal := rfl
@[simp] theorem State.modSup_sram (s : State) (f : SupSt → SupSt) : (s.modSup f).sram = s.sram := rfl
@[simp] theorem State.modSup_dual (s : State) (f : SupSt → SupSt) : (s.modSup f).dual = s.dual := rfl
@[simp] theorem State.modSup_snap (s : State) (f : SupSt → SupSt) : (s.modSup f).snap = s.snap := rfl
@[simp] theorem State.modSup_time (s : State) (f : SupSt → SupSt) : (s.modSup f).time = s.time := rfl
@[simp] theorem State.modSup_act (s : State) (f : SupSt → SupSt) : (s.modSup f).act = s.act := rfl
@[simp] theorem State.modSup_noticeNext (s : State) (f : SupSt → SupSt) : (s.modSup f).noticeNext = s.noticeNext := rfl
@[simp] theorem State.modSup_ccry (s : State) (f : SupSt → SupSt) : (s.modSup f).ccry = s.ccry := rfl
@[simp] theorem State.modSup_kst (s : State) (f : SupSt → SupSt) : (s.modSup f).kst = s.kst := rfl
@[simp] theorem State.modSup_clk (s : State) (f : SupSt → SupSt) : (s.modSup f).clk = s.clk := rfl
@[simp] theorem State.modSup_lehr (s : State) (f : SupSt → SupSt) : (s.modSup f).lehr = s.lehr := rfl
@[simp] theorem State.modSup_tap (s : State) (f : SupSt → SupSt) : (s.modSup f).tap = s.tap := rfl
@[simp] theorem State.modSup_sup (s : State) (f : SupSt → SupSt) : (s.modSup f).sup = f s.sup := rfl
@[simp] theorem State.modSup_keep (s : State) (f : SupSt → SupSt) : (s.modSup f).keep = s.keep := rfl
@[simp] theorem State.modSup_core (s : State) (f : SupSt → SupSt) : (s.modSup f).core = s.core := rfl
@[simp] theorem State.modSup_flsh (s : State) (f : SupSt → SupSt) : (s.modSup f).flsh = s.flsh := rfl
@[simp] theorem State.modSup_pending (s : State) (f : SupSt → SupSt) : (s.modSup f).pending = s.pending := rfl
@[simp] theorem State.modKeep_rf (s : State) (f : KeepSt → KeepSt) : (s.modKeep f).rf = s.rf := rfl
@[simp] theorem State.modKeep_tables (s : State) (f : KeepSt → KeepSt) : (s.modKeep f).tables = s.tables := rfl
@[simp] theorem State.modKeep_wins (s : State) (f : KeepSt → KeepSt) : (s.modKeep f).wins = s.wins := rfl
@[simp] theorem State.modKeep_cnt (s : State) (f : KeepSt → KeepSt) : (s.modKeep f).cnt = s.cnt := rfl
@[simp] theorem State.modKeep_penn (s : State) (f : KeepSt → KeepSt) : (s.modKeep f).penn = s.penn := rfl
@[simp] theorem State.modKeep_limited (s : State) (f : KeepSt → KeepSt) : (s.modKeep f).limited = s.limited := rfl
@[simp] theorem State.modKeep_out (s : State) (f : KeepSt → KeepSt) : (s.modKeep f).out = s.out := rfl
@[simp] theorem State.modKeep_now (s : State) (f : KeepSt → KeepSt) : (s.modKeep f).now = s.now := rfl
@[simp] theorem State.modKeep_readData (s : State) (f : KeepSt → KeepSt) : (s.modKeep f).readData = s.readData := rfl
@[simp] theorem State.modKeep_readHigh (s : State) (f : KeepSt → KeepSt) : (s.modKeep f).readHigh = s.readHigh := rfl
@[simp] theorem State.modKeep_freeIx (s : State) (f : KeepSt → KeepSt) : (s.modKeep f).freeIx = s.freeIx := rfl
@[simp] theorem State.modKeep_rx (s : State) (f : KeepSt → KeepSt) : (s.modKeep f).rx = s.rx := rfl
@[simp] theorem State.modKeep_tx (s : State) (f : KeepSt → KeepSt) : (s.modKeep f).tx = s.tx := rfl
@[simp] theorem State.modKeep_hif (s : State) (f : KeepSt → KeepSt) : (s.modKeep f).hif = s.hif := rfl
@[simp] theorem State.modKeep_dma (s : State) (f : KeepSt → KeepSt) : (s.modKeep f).dma = s.dma := rfl
@[simp] theorem State.modKeep_uni (s : State) (f : KeepSt → KeepSt) : (s.modKeep f).uni = s.uni := rfl
@[simp] theorem State.modKeep_tsk (s : State) (f : KeepSt → KeepSt) : (s.modKeep f).tsk = s.tsk := rfl
@[simp] theorem State.modKeep_sto (s : State) (f : KeepSt → KeepSt) : (s.modKeep f).sto = s.sto := rfl
@[simp] theorem State.modKeep_xtr (s : State) (f : KeepSt → KeepSt) : (s.modKeep f).xtr = s.xtr := rfl
@[simp] theorem State.modKeep_cls (s : State) (f : KeepSt → KeepSt) : (s.modKeep f).cls = s.cls := rfl
@[simp] theorem State.modKeep_flow (s : State) (f : KeepSt → KeepSt) : (s.modKeep f).flow = s.flow := rfl
@[simp] theorem State.modKeep_usch (s : State) (f : KeepSt → KeepSt) : (s.modKeep f).usch = s.usch := rfl
@[simp] theorem State.modKeep_grt (s : State) (f : KeepSt → KeepSt) : (s.modKeep f).grt = s.grt := rfl
@[simp] theorem State.modKeep_pol (s : State) (f : KeepSt → KeepSt) : (s.modKeep f).pol = s.pol := rfl
@[simp] theorem State.modKeep_frm (s : State) (f : KeepSt → KeepSt) : (s.modKeep f).frm = s.frm := rfl
@[simp] theorem State.modKeep_pm (s : State) (f : KeepSt → KeepSt) : (s.modKeep f).pm = s.pm := rfl
@[simp] theorem State.modKeep_lsec (s : State) (f : KeepSt → KeepSt) : (s.modKeep f).lsec = s.lsec := rfl
@[simp] theorem State.modKeep_rel (s : State) (f : KeepSt → KeepSt) : (s.modKeep f).rel = s.rel := rfl
@[simp] theorem State.modKeep_hal (s : State) (f : KeepSt → KeepSt) : (s.modKeep f).hal = s.hal := rfl
@[simp] theorem State.modKeep_sram (s : State) (f : KeepSt → KeepSt) : (s.modKeep f).sram = s.sram := rfl
@[simp] theorem State.modKeep_dual (s : State) (f : KeepSt → KeepSt) : (s.modKeep f).dual = s.dual := rfl
@[simp] theorem State.modKeep_snap (s : State) (f : KeepSt → KeepSt) : (s.modKeep f).snap = s.snap := rfl
@[simp] theorem State.modKeep_time (s : State) (f : KeepSt → KeepSt) : (s.modKeep f).time = s.time := rfl
@[simp] theorem State.modKeep_act (s : State) (f : KeepSt → KeepSt) : (s.modKeep f).act = s.act := rfl
@[simp] theorem State.modKeep_noticeNext (s : State) (f : KeepSt → KeepSt) : (s.modKeep f).noticeNext = s.noticeNext := rfl
@[simp] theorem State.modKeep_ccry (s : State) (f : KeepSt → KeepSt) : (s.modKeep f).ccry = s.ccry := rfl
@[simp] theorem State.modKeep_kst (s : State) (f : KeepSt → KeepSt) : (s.modKeep f).kst = s.kst := rfl
@[simp] theorem State.modKeep_clk (s : State) (f : KeepSt → KeepSt) : (s.modKeep f).clk = s.clk := rfl
@[simp] theorem State.modKeep_lehr (s : State) (f : KeepSt → KeepSt) : (s.modKeep f).lehr = s.lehr := rfl
@[simp] theorem State.modKeep_tap (s : State) (f : KeepSt → KeepSt) : (s.modKeep f).tap = s.tap := rfl
@[simp] theorem State.modKeep_sup (s : State) (f : KeepSt → KeepSt) : (s.modKeep f).sup = s.sup := rfl
@[simp] theorem State.modKeep_keep (s : State) (f : KeepSt → KeepSt) : (s.modKeep f).keep = f s.keep := rfl
@[simp] theorem State.modKeep_core (s : State) (f : KeepSt → KeepSt) : (s.modKeep f).core = s.core := rfl
@[simp] theorem State.modKeep_flsh (s : State) (f : KeepSt → KeepSt) : (s.modKeep f).flsh = s.flsh := rfl
@[simp] theorem State.modKeep_pending (s : State) (f : KeepSt → KeepSt) : (s.modKeep f).pending = s.pending := rfl
@[simp] theorem State.modCore_rf (s : State) (f : CoreSt → CoreSt) : (s.modCore f).rf = s.rf := rfl
@[simp] theorem State.modCore_tables (s : State) (f : CoreSt → CoreSt) : (s.modCore f).tables = s.tables := rfl
@[simp] theorem State.modCore_wins (s : State) (f : CoreSt → CoreSt) : (s.modCore f).wins = s.wins := rfl
@[simp] theorem State.modCore_cnt (s : State) (f : CoreSt → CoreSt) : (s.modCore f).cnt = s.cnt := rfl
@[simp] theorem State.modCore_penn (s : State) (f : CoreSt → CoreSt) : (s.modCore f).penn = s.penn := rfl
@[simp] theorem State.modCore_limited (s : State) (f : CoreSt → CoreSt) : (s.modCore f).limited = s.limited := rfl
@[simp] theorem State.modCore_out (s : State) (f : CoreSt → CoreSt) : (s.modCore f).out = s.out := rfl
@[simp] theorem State.modCore_now (s : State) (f : CoreSt → CoreSt) : (s.modCore f).now = s.now := rfl
@[simp] theorem State.modCore_readData (s : State) (f : CoreSt → CoreSt) : (s.modCore f).readData = s.readData := rfl
@[simp] theorem State.modCore_readHigh (s : State) (f : CoreSt → CoreSt) : (s.modCore f).readHigh = s.readHigh := rfl
@[simp] theorem State.modCore_freeIx (s : State) (f : CoreSt → CoreSt) : (s.modCore f).freeIx = s.freeIx := rfl
@[simp] theorem State.modCore_rx (s : State) (f : CoreSt → CoreSt) : (s.modCore f).rx = s.rx := rfl
@[simp] theorem State.modCore_tx (s : State) (f : CoreSt → CoreSt) : (s.modCore f).tx = s.tx := rfl
@[simp] theorem State.modCore_hif (s : State) (f : CoreSt → CoreSt) : (s.modCore f).hif = s.hif := rfl
@[simp] theorem State.modCore_dma (s : State) (f : CoreSt → CoreSt) : (s.modCore f).dma = s.dma := rfl
@[simp] theorem State.modCore_uni (s : State) (f : CoreSt → CoreSt) : (s.modCore f).uni = s.uni := rfl
@[simp] theorem State.modCore_tsk (s : State) (f : CoreSt → CoreSt) : (s.modCore f).tsk = s.tsk := rfl
@[simp] theorem State.modCore_sto (s : State) (f : CoreSt → CoreSt) : (s.modCore f).sto = s.sto := rfl
@[simp] theorem State.modCore_xtr (s : State) (f : CoreSt → CoreSt) : (s.modCore f).xtr = s.xtr := rfl
@[simp] theorem State.modCore_cls (s : State) (f : CoreSt → CoreSt) : (s.modCore f).cls = s.cls := rfl
@[simp] theorem State.modCore_flow (s : State) (f : CoreSt → CoreSt) : (s.modCore f).flow = s.flow := rfl
@[simp] theorem State.modCore_usch (s : State) (f : CoreSt → CoreSt) : (s.modCore f).usch = s.usch := rfl
@[simp] theorem State.modCore_grt (s : State) (f : CoreSt → CoreSt) : (s.modCore f).grt = s.grt := rfl
@[simp] theorem State.modCore_pol (s : State) (f : CoreSt → CoreSt) : (s.modCore f).pol = s.pol := rfl
@[simp] theorem State.modCore_frm (s : State) (f : CoreSt → CoreSt) : (s.modCore f).frm = s.frm := rfl
@[simp] theorem State.modCore_pm (s : State) (f : CoreSt → CoreSt) : (s.modCore f).pm = s.pm := rfl
@[simp] theorem State.modCore_lsec (s : State) (f : CoreSt → CoreSt) : (s.modCore f).lsec = s.lsec := rfl
@[simp] theorem State.modCore_rel (s : State) (f : CoreSt → CoreSt) : (s.modCore f).rel = s.rel := rfl
@[simp] theorem State.modCore_hal (s : State) (f : CoreSt → CoreSt) : (s.modCore f).hal = s.hal := rfl
@[simp] theorem State.modCore_sram (s : State) (f : CoreSt → CoreSt) : (s.modCore f).sram = s.sram := rfl
@[simp] theorem State.modCore_dual (s : State) (f : CoreSt → CoreSt) : (s.modCore f).dual = s.dual := rfl
@[simp] theorem State.modCore_snap (s : State) (f : CoreSt → CoreSt) : (s.modCore f).snap = s.snap := rfl
@[simp] theorem State.modCore_time (s : State) (f : CoreSt → CoreSt) : (s.modCore f).time = s.time := rfl
@[simp] theorem State.modCore_act (s : State) (f : CoreSt → CoreSt) : (s.modCore f).act = s.act := rfl
@[simp] theorem State.modCore_noticeNext (s : State) (f : CoreSt → CoreSt) : (s.modCore f).noticeNext = s.noticeNext := rfl
@[simp] theorem State.modCore_ccry (s : State) (f : CoreSt → CoreSt) : (s.modCore f).ccry = s.ccry := rfl
@[simp] theorem State.modCore_kst (s : State) (f : CoreSt → CoreSt) : (s.modCore f).kst = s.kst := rfl
@[simp] theorem State.modCore_clk (s : State) (f : CoreSt → CoreSt) : (s.modCore f).clk = s.clk := rfl
@[simp] theorem State.modCore_lehr (s : State) (f : CoreSt → CoreSt) : (s.modCore f).lehr = s.lehr := rfl
@[simp] theorem State.modCore_tap (s : State) (f : CoreSt → CoreSt) : (s.modCore f).tap = s.tap := rfl
@[simp] theorem State.modCore_sup (s : State) (f : CoreSt → CoreSt) : (s.modCore f).sup = s.sup := rfl
@[simp] theorem State.modCore_keep (s : State) (f : CoreSt → CoreSt) : (s.modCore f).keep = s.keep := rfl
@[simp] theorem State.modCore_core (s : State) (f : CoreSt → CoreSt) : (s.modCore f).core = f s.core := rfl
@[simp] theorem State.modCore_flsh (s : State) (f : CoreSt → CoreSt) : (s.modCore f).flsh = s.flsh := rfl
@[simp] theorem State.modCore_pending (s : State) (f : CoreSt → CoreSt) : (s.modCore f).pending = s.pending := rfl
@[simp] theorem State.modFlsh_rf (s : State) (f : FlshSt → FlshSt) : (s.modFlsh f).rf = s.rf := rfl
@[simp] theorem State.modFlsh_tables (s : State) (f : FlshSt → FlshSt) : (s.modFlsh f).tables = s.tables := rfl
@[simp] theorem State.modFlsh_wins (s : State) (f : FlshSt → FlshSt) : (s.modFlsh f).wins = s.wins := rfl
@[simp] theorem State.modFlsh_cnt (s : State) (f : FlshSt → FlshSt) : (s.modFlsh f).cnt = s.cnt := rfl
@[simp] theorem State.modFlsh_penn (s : State) (f : FlshSt → FlshSt) : (s.modFlsh f).penn = s.penn := rfl
@[simp] theorem State.modFlsh_limited (s : State) (f : FlshSt → FlshSt) : (s.modFlsh f).limited = s.limited := rfl
@[simp] theorem State.modFlsh_out (s : State) (f : FlshSt → FlshSt) : (s.modFlsh f).out = s.out := rfl
@[simp] theorem State.modFlsh_now (s : State) (f : FlshSt → FlshSt) : (s.modFlsh f).now = s.now := rfl
@[simp] theorem State.modFlsh_readData (s : State) (f : FlshSt → FlshSt) : (s.modFlsh f).readData = s.readData := rfl
@[simp] theorem State.modFlsh_readHigh (s : State) (f : FlshSt → FlshSt) : (s.modFlsh f).readHigh = s.readHigh := rfl
@[simp] theorem State.modFlsh_freeIx (s : State) (f : FlshSt → FlshSt) : (s.modFlsh f).freeIx = s.freeIx := rfl
@[simp] theorem State.modFlsh_rx (s : State) (f : FlshSt → FlshSt) : (s.modFlsh f).rx = s.rx := rfl
@[simp] theorem State.modFlsh_tx (s : State) (f : FlshSt → FlshSt) : (s.modFlsh f).tx = s.tx := rfl
@[simp] theorem State.modFlsh_hif (s : State) (f : FlshSt → FlshSt) : (s.modFlsh f).hif = s.hif := rfl
@[simp] theorem State.modFlsh_dma (s : State) (f : FlshSt → FlshSt) : (s.modFlsh f).dma = s.dma := rfl
@[simp] theorem State.modFlsh_uni (s : State) (f : FlshSt → FlshSt) : (s.modFlsh f).uni = s.uni := rfl
@[simp] theorem State.modFlsh_tsk (s : State) (f : FlshSt → FlshSt) : (s.modFlsh f).tsk = s.tsk := rfl
@[simp] theorem State.modFlsh_sto (s : State) (f : FlshSt → FlshSt) : (s.modFlsh f).sto = s.sto := rfl
@[simp] theorem State.modFlsh_xtr (s : State) (f : FlshSt → FlshSt) : (s.modFlsh f).xtr = s.xtr := rfl
@[simp] theorem State.modFlsh_cls (s : State) (f : FlshSt → FlshSt) : (s.modFlsh f).cls = s.cls := rfl
@[simp] theorem State.modFlsh_flow (s : State) (f : FlshSt → FlshSt) : (s.modFlsh f).flow = s.flow := rfl
@[simp] theorem State.modFlsh_usch (s : State) (f : FlshSt → FlshSt) : (s.modFlsh f).usch = s.usch := rfl
@[simp] theorem State.modFlsh_grt (s : State) (f : FlshSt → FlshSt) : (s.modFlsh f).grt = s.grt := rfl
@[simp] theorem State.modFlsh_pol (s : State) (f : FlshSt → FlshSt) : (s.modFlsh f).pol = s.pol := rfl
@[simp] theorem State.modFlsh_frm (s : State) (f : FlshSt → FlshSt) : (s.modFlsh f).frm = s.frm := rfl
@[simp] theorem State.modFlsh_pm (s : State) (f : FlshSt → FlshSt) : (s.modFlsh f).pm = s.pm := rfl
@[simp] theorem State.modFlsh_lsec (s : State) (f : FlshSt → FlshSt) : (s.modFlsh f).lsec = s.lsec := rfl
@[simp] theorem State.modFlsh_rel (s : State) (f : FlshSt → FlshSt) : (s.modFlsh f).rel = s.rel := rfl
@[simp] theorem State.modFlsh_hal (s : State) (f : FlshSt → FlshSt) : (s.modFlsh f).hal = s.hal := rfl
@[simp] theorem State.modFlsh_sram (s : State) (f : FlshSt → FlshSt) : (s.modFlsh f).sram = s.sram := rfl
@[simp] theorem State.modFlsh_dual (s : State) (f : FlshSt → FlshSt) : (s.modFlsh f).dual = s.dual := rfl
@[simp] theorem State.modFlsh_snap (s : State) (f : FlshSt → FlshSt) : (s.modFlsh f).snap = s.snap := rfl
@[simp] theorem State.modFlsh_time (s : State) (f : FlshSt → FlshSt) : (s.modFlsh f).time = s.time := rfl
@[simp] theorem State.modFlsh_act (s : State) (f : FlshSt → FlshSt) : (s.modFlsh f).act = s.act := rfl
@[simp] theorem State.modFlsh_noticeNext (s : State) (f : FlshSt → FlshSt) : (s.modFlsh f).noticeNext = s.noticeNext := rfl
@[simp] theorem State.modFlsh_ccry (s : State) (f : FlshSt → FlshSt) : (s.modFlsh f).ccry = s.ccry := rfl
@[simp] theorem State.modFlsh_kst (s : State) (f : FlshSt → FlshSt) : (s.modFlsh f).kst = s.kst := rfl
@[simp] theorem State.modFlsh_clk (s : State) (f : FlshSt → FlshSt) : (s.modFlsh f).clk = s.clk := rfl
@[simp] theorem State.modFlsh_lehr (s : State) (f : FlshSt → FlshSt) : (s.modFlsh f).lehr = s.lehr := rfl
@[simp] theorem State.modFlsh_tap (s : State) (f : FlshSt → FlshSt) : (s.modFlsh f).tap = s.tap := rfl
@[simp] theorem State.modFlsh_sup (s : State) (f : FlshSt → FlshSt) : (s.modFlsh f).sup = s.sup := rfl
@[simp] theorem State.modFlsh_keep (s : State) (f : FlshSt → FlshSt) : (s.modFlsh f).keep = s.keep := rfl
@[simp] theorem State.modFlsh_core (s : State) (f : FlshSt → FlshSt) : (s.modFlsh f).core = s.core := rfl
@[simp] theorem State.modFlsh_flsh (s : State) (f : FlshSt → FlshSt) : (s.modFlsh f).flsh = f s.flsh := rfl
@[simp] theorem State.modFlsh_pending (s : State) (f : FlshSt → FlshSt) : (s.modFlsh f).pending = s.pending := rfl
@[simp] theorem State.modPending_rf (s : State) (f : List Instr → List Instr) : (s.modPending f).rf = s.rf := rfl
@[simp] theorem State.modPending_tables (s : State) (f : List Instr → List Instr) : (s.modPending f).tables = s.tables := rfl
@[simp] theorem State.modPending_wins (s : State) (f : List Instr → List Instr) : (s.modPending f).wins = s.wins := rfl
@[simp] theorem State.modPending_cnt (s : State) (f : List Instr → List Instr) : (s.modPending f).cnt = s.cnt := rfl
@[simp] theorem State.modPending_penn (s : State) (f : List Instr → List Instr) : (s.modPending f).penn = s.penn := rfl
@[simp] theorem State.modPending_limited (s : State) (f : List Instr → List Instr) : (s.modPending f).limited = s.limited := rfl
@[simp] theorem State.modPending_out (s : State) (f : List Instr → List Instr) : (s.modPending f).out = s.out := rfl
@[simp] theorem State.modPending_now (s : State) (f : List Instr → List Instr) : (s.modPending f).now = s.now := rfl
@[simp] theorem State.modPending_readData (s : State) (f : List Instr → List Instr) : (s.modPending f).readData = s.readData := rfl
@[simp] theorem State.modPending_readHigh (s : State) (f : List Instr → List Instr) : (s.modPending f).readHigh = s.readHigh := rfl
@[simp] theorem State.modPending_freeIx (s : State) (f : List Instr → List Instr) : (s.modPending f).freeIx = s.freeIx := rfl
@[simp] theorem State.modPending_rx (s : State) (f : List Instr → List Instr) : (s.modPending f).rx = s.rx := rfl
@[simp] theorem State.modPending_tx (s : State) (f : List Instr → List Instr) : (s.modPending f).tx = s.tx := rfl
@[simp] theorem State.modPending_hif (s : State) (f : List Instr → List Instr) : (s.modPending f).hif = s.hif := rfl
@[simp] theorem State.modPending_dma (s : State) (f : List Instr → List Instr) : (s.modPending f).dma = s.dma := rfl
@[simp] theorem State.modPending_uni (s : State) (f : List Instr → List Instr) : (s.modPending f).uni = s.uni := rfl
@[simp] theorem State.modPending_tsk (s : State) (f : List Instr → List Instr) : (s.modPending f).tsk = s.tsk := rfl
@[simp] theorem State.modPending_sto (s : State) (f : List Instr → List Instr) : (s.modPending f).sto = s.sto := rfl
@[simp] theorem State.modPending_xtr (s : State) (f : List Instr → List Instr) : (s.modPending f).xtr = s.xtr := rfl
@[simp] theorem State.modPending_cls (s : State) (f : List Instr → List Instr) : (s.modPending f).cls = s.cls := rfl
@[simp] theorem State.modPending_flow (s : State) (f : List Instr → List Instr) : (s.modPending f).flow = s.flow := rfl
@[simp] theorem State.modPending_usch (s : State) (f : List Instr → List Instr) : (s.modPending f).usch = s.usch := rfl
@[simp] theorem State.modPending_grt (s : State) (f : List Instr → List Instr) : (s.modPending f).grt = s.grt := rfl
@[simp] theorem State.modPending_pol (s : State) (f : List Instr → List Instr) : (s.modPending f).pol = s.pol := rfl
@[simp] theorem State.modPending_frm (s : State) (f : List Instr → List Instr) : (s.modPending f).frm = s.frm := rfl
@[simp] theorem State.modPending_pm (s : State) (f : List Instr → List Instr) : (s.modPending f).pm = s.pm := rfl
@[simp] theorem State.modPending_lsec (s : State) (f : List Instr → List Instr) : (s.modPending f).lsec = s.lsec := rfl
@[simp] theorem State.modPending_rel (s : State) (f : List Instr → List Instr) : (s.modPending f).rel = s.rel := rfl
@[simp] theorem State.modPending_hal (s : State) (f : List Instr → List Instr) : (s.modPending f).hal = s.hal := rfl
@[simp] theorem State.modPending_sram (s : State) (f : List Instr → List Instr) : (s.modPending f).sram = s.sram := rfl
@[simp] theorem State.modPending_dual (s : State) (f : List Instr → List Instr) : (s.modPending f).dual = s.dual := rfl
@[simp] theorem State.modPending_snap (s : State) (f : List Instr → List Instr) : (s.modPending f).snap = s.snap := rfl
@[simp] theorem State.modPending_time (s : State) (f : List Instr → List Instr) : (s.modPending f).time = s.time := rfl
@[simp] theorem State.modPending_act (s : State) (f : List Instr → List Instr) : (s.modPending f).act = s.act := rfl
@[simp] theorem State.modPending_noticeNext (s : State) (f : List Instr → List Instr) : (s.modPending f).noticeNext = s.noticeNext := rfl
@[simp] theorem State.modPending_ccry (s : State) (f : List Instr → List Instr) : (s.modPending f).ccry = s.ccry := rfl
@[simp] theorem State.modPending_kst (s : State) (f : List Instr → List Instr) : (s.modPending f).kst = s.kst := rfl
@[simp] theorem State.modPending_clk (s : State) (f : List Instr → List Instr) : (s.modPending f).clk = s.clk := rfl
@[simp] theorem State.modPending_lehr (s : State) (f : List Instr → List Instr) : (s.modPending f).lehr = s.lehr := rfl
@[simp] theorem State.modPending_tap (s : State) (f : List Instr → List Instr) : (s.modPending f).tap = s.tap := rfl
@[simp] theorem State.modPending_sup (s : State) (f : List Instr → List Instr) : (s.modPending f).sup = s.sup := rfl
@[simp] theorem State.modPending_keep (s : State) (f : List Instr → List Instr) : (s.modPending f).keep = s.keep := rfl
@[simp] theorem State.modPending_core (s : State) (f : List Instr → List Instr) : (s.modPending f).core = s.core := rfl
@[simp] theorem State.modPending_flsh (s : State) (f : List Instr → List Instr) : (s.modPending f).flsh = s.flsh := rfl
@[simp] theorem State.modPending_pending (s : State) (f : List Instr → List Instr) : (s.modPending f).pending = f s.pending := rfl

end Sys2Proof.Machine
end

