-- ==== Sys2Proof/Laws/Held.lean ====
section
/-! SUPPORT. What the meanings keep. `Held s0 s` says what every operation of the model leaves of the state `s0` it began
with: the queue, the timeline, the order of free values, what has been sent, the canonical form of storage, counts within
their widths. Here it is shown of the named updates and of the operations of Machine/Ops.lean; Laws/Kept*.lean show it of
every further operation. -/

set_option Elab.async false
set_option linter.all false

namespace Sys2Proof.Machine

open Sys2Proof.Safety

/-- What an operation that began in `s0` leaves when it has come to `s`. -/
structure Held (s0 s : State) : Prop where
  pending : s.pending = s0.pending
  now : s.now = s0.now
  free : s0.freeIx ≤ s.freeIx
  out : s0.out <:+ s.out
  canon : Canonical s0 → Canonical s
  fit : CountsFit s0 → CountsFit s

theorem Held.refl (s : State) : Held s s :=
  ⟨rfl, rfl, Nat.le_refl _, List.suffix_refl _, id, id⟩

theorem Held.trans {a b c : State} (h : Held a b) (k : Held b c) : Held a c :=
  ⟨k.pending.trans h.pending, k.now.trans h.now, Nat.le_trans h.free k.free, h.out.trans k.out,
    fun x => k.canon (h.canon x), fun x => k.fit (h.fit x)⟩

theorem Held.ite {s0 a b : State} {c : Prop} [Decidable c] (ha : Held s0 a) (hb : Held s0 b) :
    Held s0 (if c then a else b) := by split <;> assumption

theorem Held.ite_fst {α : Type} {s0 : State} {a b : State × α} {c : Prop} [Decidable c] (ha : Held s0 a.1)
    (hb : Held s0 b.1) : Held s0 (if c then a else b).1 := by split <;> assumption

/-- A fold of an operation keeps what the operation keeps. -/
theorem Held.foldl {α : Type} {s0 : State} {f : State → α → State} (hf : ∀ x a, Held s0 x → Held s0 (f x a))
    (l : List α) {s : State} (h : Held s0 s) : Held s0 (l.foldl f s) := by
  induction l generalizing s with
  | nil => exact h
  | cons a l ih => exact ih (hf s a h)

/-- A fold over states paired with what has been gathered. -/
theorem Held.foldl_fst {α β : Type} {s0 : State} {f : State × β → α → State × β}
    (hf : ∀ x a, Held s0 x.1 → Held s0 (f x a).1) (l : List α) {x : State × β} (h : Held s0 x.1) :
    Held s0 (l.foldl f x).1 := by
  induction l generalizing x with
  | nil => exact h
  | cons a l ih => exact ih (hf x a h)

theorem Held.foldl_snd {α β : Type} {s0 : State} {f : β × State → α → β × State}
    (hf : ∀ x a, Held s0 x.2 → Held s0 (f x a).2) (l : List α) {x : β × State} (h : Held s0 x.2) :
    Held s0 (l.foldl f x).2 := by
  induction l generalizing x with
  | nil => exact h
  | cons a l ih => exact ih (hf x a h)

/-- An equation's other side. -/
theorem Held.of_eq {s0 a b : State} (h : Held s0 a) (e : a = b) : Held s0 b := e ▸ h

theorem Held.of_fst {α : Type} {s0 b : State} {x : α} {y : State × α} (h : Held s0 y.1) (e : y = (b, x)) :
    Held s0 b := by subst e; exact h

theorem Held.id {s0 s : State} (h : Held s0 s) : Held s0 (id s) := h

/-- Each of a list of numbered operations keeps what `Held` says. -/
def AllHeld (s0 : State) : List (Nat × (State → State)) → Prop
  | [] => True
  | x :: l => (∀ s, Held s0 s → Held s0 (x.2 s)) ∧ AllHeld s0 l

theorem AllHeld.nil (s0 : State) : AllHeld s0 [] := trivial

theorem AllHeld.cons {s0 : State} {x : Nat × (State → State)} {l : List (Nat × (State → State))}
    (hx : ∀ s, Held s0 s → Held s0 (x.2 s)) (hl : AllHeld s0 l) : AllHeld s0 (x :: l) := ⟨hx, hl⟩

theorem AllHeld.map {α : Type} {s0 : State} {f : α → Nat × (State → State)} (l : List α)
    (hf : ∀ a s, Held s0 s → Held s0 ((f a).2 s)) : AllHeld s0 (l.map f) := by
  induction l with
  | nil => trivial
  | cons a l ih => exact ⟨hf a, ih⟩

/-! The named updates. -/

theorem State.modWins_held {s0 s : State} (f : Sparse IndWin → Sparse IndWin) (h : Held s0 s) : Held s0 (s.modWins f) :=
  ⟨h.pending, h.now, h.free, h.out, fun x => let c := h.canon x; ⟨c.regs, c.copy1, c.copy2, c.tables, c.live, c.sram, c.lsram, c.flash, c.journal⟩, fun x => h.fit x⟩
theorem State.modPenn_held {s0 s : State} (f : Sparse PennSt → Sparse PennSt) (h : Held s0 s) : Held s0 (s.modPenn f) :=
  ⟨h.pending, h.now, h.free, h.out, fun x => let c := h.canon x; ⟨c.regs, c.copy1, c.copy2, c.tables, c.live, c.sram, c.lsram, c.flash, c.journal⟩, fun x => h.fit x⟩
theorem State.modLimited_held {s0 s : State} (f : Sparse Nat → Sparse Nat) (h : Held s0 s) : Held s0 (s.modLimited f) :=
  ⟨h.pending, h.now, h.free, h.out, fun x => let c := h.canon x; ⟨c.regs, c.copy1, c.copy2, c.tables, c.live, c.sram, c.lsram, c.flash, c.journal⟩, fun x => h.fit x⟩
theorem State.modReadData_held {s0 s : State} (f : Word → Word) (h : Held s0 s) : Held s0 (s.modReadData f) :=
  ⟨h.pending, h.now, h.free, h.out, fun x => let c := h.canon x; ⟨c.regs, c.copy1, c.copy2, c.tables, c.live, c.sram, c.lsram, c.flash, c.journal⟩, fun x => h.fit x⟩
theorem State.modReadHigh_held {s0 s : State} (f : Word → Word) (h : Held s0 s) : Held s0 (s.modReadHigh f) :=
  ⟨h.pending, h.now, h.free, h.out, fun x => let c := h.canon x; ⟨c.regs, c.copy1, c.copy2, c.tables, c.live, c.sram, c.lsram, c.flash, c.journal⟩, fun x => h.fit x⟩
theorem State.modRx_held {s0 s : State} (f : PerRx RxSt → PerRx RxSt) (h : Held s0 s) : Held s0 (s.modRx f) :=
  ⟨h.pending, h.now, h.free, h.out, fun x => let c := h.canon x; ⟨c.regs, c.copy1, c.copy2, c.tables, c.live, c.sram, c.lsram, c.flash, c.journal⟩, fun x => h.fit x⟩
theorem State.modTx_held {s0 s : State} (f : PerTree TxSt → PerTree TxSt) (h : Held s0 s) : Held s0 (s.modTx f) :=
  ⟨h.pending, h.now, h.free, h.out, fun x => let c := h.canon x; ⟨c.regs, c.copy1, c.copy2, c.tables, c.live, c.sram, c.lsram, c.flash, c.journal⟩, fun x => h.fit x⟩
theorem State.modHif_held {s0 s : State} (f : HifSt → HifSt) (h : Held s0 s) : Held s0 (s.modHif f) :=
  ⟨h.pending, h.now, h.free, h.out, fun x => let c := h.canon x; ⟨c.regs, c.copy1, c.copy2, c.tables, c.live, c.sram, c.lsram, c.flash, c.journal⟩, fun x => h.fit x⟩
theorem State.modDma_held {s0 s : State} (f : DmaSt → DmaSt) (h : Held s0 s) : Held s0 (s.modDma f) :=
  ⟨h.pending, h.now, h.free, h.out, fun x => let c := h.canon x; ⟨c.regs, c.copy1, c.copy2, c.tables, c.live, c.sram, c.lsram, c.flash, c.journal⟩, fun x => h.fit x⟩
theorem State.modUni_held {s0 s : State} (f : UniSt → UniSt) (h : Held s0 s) : Held s0 (s.modUni f) :=
  ⟨h.pending, h.now, h.free, h.out, fun x => let c := h.canon x; ⟨c.regs, c.copy1, c.copy2, c.tables, c.live, c.sram, c.lsram, c.flash, c.journal⟩, fun x => h.fit x⟩
theorem State.modTsk_held {s0 s : State} (f : TskSt → TskSt) (h : Held s0 s) : Held s0 (s.modTsk f) :=
  ⟨h.pending, h.now, h.free, h.out, fun x => let c := h.canon x; ⟨c.regs, c.copy1, c.copy2, c.tables, c.live, c.sram, c.lsram, c.flash, c.journal⟩, fun x => h.fit x⟩
theorem State.modSto_held {s0 s : State} (f : StoSt → StoSt) (h : Held s0 s) : Held s0 (s.modSto f) :=
  ⟨h.pending, h.now, h.free, h.out, fun x => let c := h.canon x; ⟨c.regs, c.copy1, c.copy2, c.tables, c.live, c.sram, c.lsram, c.flash, c.journal⟩, fun x => h.fit x⟩
theorem State.modXtr_held {s0 s : State} (f : XtrSt → XtrSt) (h : Held s0 s) : Held s0 (s.modXtr f) :=
  ⟨h.pending, h.now, h.free, h.out, fun x => let c := h.canon x; ⟨c.regs, c.copy1, c.copy2, c.tables, c.live, c.sram, c.lsram, c.flash, c.journal⟩, fun x => h.fit x⟩
theorem State.modCls_held {s0 s : State} (f : ClsSt → ClsSt) (h : Held s0 s) : Held s0 (s.modCls f) :=
  ⟨h.pending, h.now, h.free, h.out, fun x => let c := h.canon x; ⟨c.regs, c.copy1, c.copy2, c.tables, c.live, c.sram, c.lsram, c.flash, c.journal⟩, fun x => h.fit x⟩
theorem State.modFlow_held {s0 s : State} (f : FlowSt → FlowSt) (h : Held s0 s) : Held s0 (s.modFlow f) :=
  ⟨h.pending, h.now, h.free, h.out, fun x => let c := h.canon x; ⟨c.regs, c.copy1, c.copy2, c.tables, c.live, c.sram, c.lsram, c.flash, c.journal⟩, fun x => h.fit x⟩
theorem State.modUsch_held {s0 s : State} (f : UschSt → UschSt) (h : Held s0 s) : Held s0 (s.modUsch f) :=
  ⟨h.pending, h.now, h.free, h.out, fun x => let c := h.canon x; ⟨c.regs, c.copy1, c.copy2, c.tables, c.live, c.sram, c.lsram, c.flash, c.journal⟩, fun x => h.fit x⟩
theorem State.modGrt_held {s0 s : State} (f : PerTree GrtSt → PerTree GrtSt) (h : Held s0 s) : Held s0 (s.modGrt f) :=
  ⟨h.pending, h.now, h.free, h.out, fun x => let c := h.canon x; ⟨c.regs, c.copy1, c.copy2, c.tables, c.live, c.sram, c.lsram, c.flash, c.journal⟩, fun x => h.fit x⟩
theorem State.modPol_held {s0 s : State} (f : PolSt → PolSt) (h : Held s0 s) : Held s0 (s.modPol f) :=
  ⟨h.pending, h.now, h.free, h.out, fun x => let c := h.canon x; ⟨c.regs, c.copy1, c.copy2, c.tables, c.live, c.sram, c.lsram, c.flash, c.journal⟩, fun x => h.fit x⟩
theorem State.modFrm_held {s0 s : State} (f : PerRx FrmSt → PerRx FrmSt) (h : Held s0 s) : Held s0 (s.modFrm f) :=
  ⟨h.pending, h.now, h.free, h.out, fun x => let c := h.canon x; ⟨c.regs, c.copy1, c.copy2, c.tables, c.live, c.sram, c.lsram, c.flash, c.journal⟩, fun x => h.fit x⟩
theorem State.modPm_held {s0 s : State} (f : PmSt → PmSt) (h : Held s0 s) : Held s0 (s.modPm f) :=
  ⟨h.pending, h.now, h.free, h.out, fun x => let c := h.canon x; ⟨c.regs, c.copy1, c.copy2, c.tables, c.live, c.sram, c.lsram, c.flash, c.journal⟩, fun x => h.fit x⟩
theorem State.modLsec_held {s0 s : State} (f : LsecSt → LsecSt) (h : Held s0 s) : Held s0 (s.modLsec f) :=
  ⟨h.pending, h.now, h.free, h.out, fun x => let c := h.canon x; ⟨c.regs, c.copy1, c.copy2, c.tables, c.live, c.sram, c.lsram, c.flash, c.journal⟩, fun x => h.fit x⟩
theorem State.modRel_held {s0 s : State} (f : RelSt → RelSt) (h : Held s0 s) : Held s0 (s.modRel f) :=
  ⟨h.pending, h.now, h.free, h.out, fun x => let c := h.canon x; ⟨c.regs, c.copy1, c.copy2, c.tables, c.live, c.sram, c.lsram, c.flash, c.journal⟩, fun x => h.fit x⟩
theorem State.modHal_held {s0 s : State} (f : PerTree HalSt → PerTree HalSt) (h : Held s0 s) : Held s0 (s.modHal f) :=
  ⟨h.pending, h.now, h.free, h.out, fun x => let c := h.canon x; ⟨c.regs, c.copy1, c.copy2, c.tables, c.live, c.sram, c.lsram, c.flash, c.journal⟩, fun x => h.fit x⟩
theorem State.modDual_held {s0 s : State} (f : DualSt → DualSt) (h : Held s0 s) : Held s0 (s.modDual f) :=
  ⟨h.pending, h.now, h.free, h.out, fun x => let c := h.canon x; ⟨c.regs, c.copy1, c.copy2, c.tables, c.live, c.sram, c.lsram, c.flash, c.journal⟩, fun x => h.fit x⟩
theorem State.modSnap_held {s0 s : State} (f : SnapSt → SnapSt) (h : Held s0 s) : Held s0 (s.modSnap f) :=
  ⟨h.pending, h.now, h.free, h.out, fun x => let c := h.canon x; ⟨c.regs, c.copy1, c.copy2, c.tables, c.live, c.sram, c.lsram, c.flash, c.journal⟩, fun x => h.fit x⟩
theorem State.modTime_held {s0 s : State} (f : TimeSt → TimeSt) (h : Held s0 s) : Held s0 (s.modTime f) :=
  ⟨h.pending, h.now, h.free, h.out, fun x => let c := h.canon x; ⟨c.regs, c.copy1, c.copy2, c.tables, c.live, c.sram, c.lsram, c.flash, c.journal⟩, fun x => h.fit x⟩
theorem State.modAct_held {s0 s : State} (f : PerTree ActSt → PerTree ActSt) (h : Held s0 s) : Held s0 (s.modAct f) :=
  ⟨h.pending, h.now, h.free, h.out, fun x => let c := h.canon x; ⟨c.regs, c.copy1, c.copy2, c.tables, c.live, c.sram, c.lsram, c.flash, c.journal⟩, fun x => h.fit x⟩
theorem State.modNoticeNext_held {s0 s : State} (f : Nat → Nat) (h : Held s0 s) : Held s0 (s.modNoticeNext f) :=
  ⟨h.pending, h.now, h.free, h.out, fun x => let c := h.canon x; ⟨c.regs, c.copy1, c.copy2, c.tables, c.live, c.sram, c.lsram, c.flash, c.journal⟩, fun x => h.fit x⟩
theorem State.modCcry_held {s0 s : State} (f : CcrySt → CcrySt) (h : Held s0 s) : Held s0 (s.modCcry f) :=
  ⟨h.pending, h.now, h.free, h.out, fun x => let c := h.canon x; ⟨c.regs, c.copy1, c.copy2, c.tables, c.live, c.sram, c.lsram, c.flash, c.journal⟩, fun x => h.fit x⟩
theorem State.modKst_held {s0 s : State} (f : KstSt → KstSt) (h : Held s0 s) : Held s0 (s.modKst f) :=
  ⟨h.pending, h.now, h.free, h.out, fun x => let c := h.canon x; ⟨c.regs, c.copy1, c.copy2, c.tables, c.live, c.sram, c.lsram, c.flash, c.journal⟩, fun x => h.fit x⟩
theorem State.modClk_held {s0 s : State} (f : ClkSt → ClkSt) (h : Held s0 s) : Held s0 (s.modClk f) :=
  ⟨h.pending, h.now, h.free, h.out, fun x => let c := h.canon x; ⟨c.regs, c.copy1, c.copy2, c.tables, c.live, c.sram, c.lsram, c.flash, c.journal⟩, fun x => h.fit x⟩
theorem State.modLehr_held {s0 s : State} (f : LehrSt → LehrSt) (h : Held s0 s) : Held s0 (s.modLehr f) :=
  ⟨h.pending, h.now, h.free, h.out, fun x => let c := h.canon x; ⟨c.regs, c.copy1, c.copy2, c.tables, c.live, c.sram, c.lsram, c.flash, c.journal⟩, fun x => h.fit x⟩
theorem State.modTap_held {s0 s : State} (f : TapSt → TapSt) (h : Held s0 s) : Held s0 (s.modTap f) :=
  ⟨h.pending, h.now, h.free, h.out, fun x => let c := h.canon x; ⟨c.regs, c.copy1, c.copy2, c.tables, c.live, c.sram, c.lsram, c.flash, c.journal⟩, fun x => h.fit x⟩
theorem State.modSup_held {s0 s : State} (f : SupSt → SupSt) (h : Held s0 s) : Held s0 (s.modSup f) :=
  ⟨h.pending, h.now, h.free, h.out, fun x => let c := h.canon x; ⟨c.regs, c.copy1, c.copy2, c.tables, c.live, c.sram, c.lsram, c.flash, c.journal⟩, fun x => h.fit x⟩
theorem State.modKeep_held {s0 s : State} (f : KeepSt → KeepSt) (h : Held s0 s) : Held s0 (s.modKeep f) :=
  ⟨h.pending, h.now, h.free, h.out, fun x => let c := h.canon x; ⟨c.regs, c.copy1, c.copy2, c.tables, c.live, c.sram, c.lsram, c.flash, c.journal⟩, fun x => h.fit x⟩

theorem State.modRf_held {s0 s : State} {f : RegFile → RegFile} (h : Held s0 s)
    (h0 : ∀ r : RegFile, Sparse.wf regDef r.regs = true → Sparse.wf regDef (f r).regs = true)
    (h1 : ∀ r : RegFile, Sparse.wf regDef r.copy1 = true → Sparse.wf regDef (f r).copy1 = true)
    (h2 : ∀ r : RegFile, Sparse.wf regDef r.copy2 = true → Sparse.wf regDef (f r).copy2 = true) :
    Held s0 (s.modRf f) :=
  ⟨h.pending, h.now, h.free, h.out,
    fun x => let c := h.canon x; ⟨h0 _ c.regs, h1 _ c.copy1, h2 _ c.copy2, c.tables, c.live, c.sram, c.lsram, c.flash, c.journal⟩,
    fun x => h.fit x⟩

theorem State.modTables_held {s0 s : State} {f : Sparse Word → Sparse Word} (h : Held s0 s)
    (hf : ∀ m, Sparse.wf tblDef m = true → Sparse.wf tblDef (f m) = true) : Held s0 (s.modTables f) :=
  ⟨h.pending, h.now, h.free, h.out,
    fun x => let c := h.canon x; ⟨c.regs, c.copy1, c.copy2, hf _ c.tables, c.live, c.sram, c.lsram, c.flash, c.journal⟩, fun x => h.fit x⟩

theorem State.modSram_held {s0 s : State} {f : Sparse Byte → Sparse Byte} (h : Held s0 s)
    (hf : ∀ m, Sparse.wf (fun _ => 0#8) m = true → Sparse.wf (fun _ => 0#8) (f m) = true) : Held s0 (s.modSram f) :=
  ⟨h.pending, h.now, h.free, h.out,
    fun x => let c := h.canon x; ⟨c.regs, c.copy1, c.copy2, c.tables, c.live, hf _ c.sram, c.lsram, c.flash, c.journal⟩, fun x => h.fit x⟩

theorem State.modCore_held {s0 s : State} {f : CoreSt → CoreSt} (h : Held s0 s)
    (hf : ∀ c : CoreSt, Sparse.wf (fun _ => 0#8) c.lsram = true → Sparse.wf (fun _ => 0#8) (f c).lsram = true) :
    Held s0 (s.modCore f) :=
  ⟨h.pending, h.now, h.free, h.out,
    fun x => let c := h.canon x; ⟨c.regs, c.copy1, c.copy2, c.tables, c.live, c.sram, hf _ c.lsram, c.flash, c.journal⟩, fun x => h.fit x⟩

theorem State.modFlsh_held {s0 s : State} {f : FlshSt → FlshSt} (h : Held s0 s)
    (h0 : ∀ c : FlshSt, Sparse.wf (fun _ => none) c.mem = true → Sparse.wf (fun _ => none) (f c).mem = true)
    (h1 : ∀ c : FlshSt, Sparse.wf (fun _ => erasedWord) c.journal = true →
      Sparse.wf (fun _ => erasedWord) (f c).journal = true) :
    Held s0 (s.modFlsh f) :=
  ⟨h.pending, h.now, h.free, h.out,
    fun x => let c := h.canon x; ⟨c.regs, c.copy1, c.copy2, c.tables, c.live, c.sram, c.lsram, h0 _ c.flash, h1 _ c.journal⟩, fun x => h.fit x⟩

theorem State.modCnt_held {s0 s : State} {f : Counts → Counts} (h : Held s0 s)
    (h0 : ∀ c : Counts, Sparse.wf (fun _ => 0) c.live = true → Sparse.wf (fun _ => 0) (f c).live = true)
    (h1 : ∀ c : Counts, (∀ i, Sparse.get 0 c.live i < counterMod i) → ∀ i, Sparse.get 0 (f c).live i < counterMod i) :
    Held s0 (s.modCnt f) :=
  ⟨h.pending, h.now, h.free, h.out,
    fun x => let c := h.canon x; ⟨c.regs, c.copy1, c.copy2, c.tables, h0 _ c.live, c.sram, c.lsram, c.flash, c.journal⟩, fun x => h1 _ (h.fit x)⟩

theorem State.modFreeIx_held {s0 s : State} {f : Nat → Nat} (h : Held s0 s) (hf : ∀ n, n ≤ f n) :
    Held s0 (s.modFreeIx f) :=
  ⟨h.pending, h.now, Nat.le_trans h.free (hf _), h.out, fun x => let c := h.canon x; ⟨c.regs, c.copy1, c.copy2, c.tables, c.live, c.sram, c.lsram, c.flash, c.journal⟩, fun x => h.fit x⟩

theorem State.emit_held {s0 s : State} (e : Emission) (h : Held s0 s) : Held s0 (s.emit e) :=
  ⟨h.pending, h.now, h.free, h.out.trans (List.suffix_cons _ _), fun x => let c := h.canon x; ⟨c.regs, c.copy1, c.copy2, c.tables, c.live, c.sram, c.lsram, c.flash, c.journal⟩,
    fun x => h.fit x⟩

/-! Machine/Ops.lean. -/

theorem State.iff_held {s0 s : State} (c : Bool) {f : State → State} (h : Held s0 s)
    (hf : ∀ x, Held s0 x → Held s0 (f x)) : Held s0 (s.iff c f) := by
  unfold State.iff; split
  · exact hf _ h
  · exact h

theorem State.putReg_held {s0 s : State} (p off : Nat) (v : Word) (h : Held s0 s) : Held s0 (s.putReg p off v) := by
  unfold State.putReg
  refine State.modRf_held h ?_ ?_ ?_ <;> intro r hr <;> split <;>
    first | exact Sparse.wf_put regDef _ _ _ hr | exact hr

theorem State.putTw_held {s0 s : State} (p t e w : Nat) (v : Word) (h : Held s0 s) : Held s0 (s.putTw p t e w v) :=
  State.modTables_held h (fun _ hm => Sparse.wf_put tblDef _ _ _ hm)

theorem State.resetTable_held {s0 s : State} (p t : Nat) (h : Held s0 s) : Held s0 (s.resetTable p t) :=
  State.modTables_held h (fun _ hm => Sparse.wf_filter _ _ _ hm)

theorem State.resetTables_held {s0 s : State} (p : Nat) (h : Held s0 s) : Held s0 (s.resetTables p) :=
  State.modTables_held h (fun _ hm => Sparse.wf_filter _ _ _ hm)

theorem counterMod_pos (i : Nat) : 0 < counterMod i := by
  unfold counterMod; split <;> decide

theorem State.countBy_held {s0 s : State} (i n : Nat) (h : Held s0 s) : Held s0 (s.countBy i n) := by
  unfold State.countBy
  refine State.modCnt_held h (fun c hc => Sparse.wf_put (fun _ => 0) _ _ _ hc) (fun c hc j => ?_)
  by_cases hj : j = i
  · subst hj; simp only [Sparse.get_put_same]; exact Nat.mod_lt _ (counterMod_pos _)
  · dsimp only; rw [Sparse.get_put_ne _ _ hj]; exact hc j

theorem State.useFree_held {s0 s : State} (h : Held s0 s) : Held s0 s.useFree :=
  State.modFreeIx_held h (fun n => Nat.le_succ n)

end Sys2Proof.Machine
end

