-- ==== Sys2Proof/Laws/Registers.lean ====
section
/-! SUPPORT. What the named operations over registers, table words and counters do (Machine/Ops.lean): what each reads after
each write, and that a write of one kind leaves the others alone. -/

set_option Elab.async false
set_option linter.all false

namespace Sys2Proof.Machine

/-! Registers. -/

theorem State.copy_putReg_same (s : State) (c p off : Nat) (v : Word) (hc : c = 0 ∨ (rwtVote p off).isSome = true) :
    (s.putReg p off v).copy c p off = v := by
  unfold State.copy State.putReg State.modRf
  dsimp only
  by_cases hr : (rwtVote p off).isSome = true
  · simp only [if_pos hr]
    split <;> simp
  · obtain rfl : c = 0 := hc.resolve_right hr
    simp only [if_neg hr]
    simp

theorem State.copy_putReg_ne (s : State) (c p off q off' : Nat) (v : Word) (h : regKey q off' ≠ regKey p off) :
    (s.putReg p off v).copy c q off' = s.copy c q off' := by
  unfold State.copy State.putReg State.modRf
  dsimp only
  split <;> split <;> simp only [Sparse.get_put_ne _ _ h]

/-- A register holds what it was set to (R56: all three copies of an RWT register at once). -/
@[simp] theorem State.reg_putReg_same (s : State) (p off : Nat) (v : Word) : (s.putReg p off v).reg p off = v := by
  unfold State.reg
  split
  · exact State.copy_putReg_same s 0 p off v (Or.inl rfl)
  · rename_i hr
    have hs : (rwtVote p off).isSome = true := by rw [hr]; rfl
    simp only [State.copy_putReg_same s _ p off v (Or.inr hs)]
    simp

/-- Setting a register leaves every other register. -/
theorem State.reg_putReg_ne (s : State) (p off q off' : Nat) (v : Word) (h : regKey q off' ≠ regKey p off) :
    (s.putReg p off v).reg q off' = s.reg q off' := by
  unfold State.reg
  split <;> simp only [State.copy_putReg_ne s _ p off q off' v h]

/-- A field holds what it was set to, modulo its width. -/
theorem State.fld_setFld_same (s : State) (p : Nat) (f : Fld) (v : Nat) (hf : f.lo ≤ f.hi ∧ f.hi < 32) :
    (s.setFld p f v).fld p f = v % 2 ^ (f.hi + 1 - f.lo) := by
  unfold State.fld State.setFld
  rw [State.reg_putReg_same]
  exact Fld.get_put_same f v _ hf.1 hf.2

/-- Setting a field leaves a field of another register. -/
theorem State.fld_setFld_ne (s : State) (p q : Nat) (f g : Fld) (v : Nat) (h : regKey q g.off ≠ regKey p f.off) :
    (s.setFld p f v).fld q g = s.fld q g := by
  unfold State.fld State.setFld
  rw [State.reg_putReg_ne _ _ _ _ _ _ h]

theorem State.reg_setFld_ne (s : State) (p q off : Nat) (f : Fld) (v : Nat) (h : regKey q off ≠ regKey p f.off) :
    (s.setFld p f v).reg q off = s.reg q off := State.reg_putReg_ne _ _ _ _ _ _ h

/-- Setting a field leaves the other fields of its register. -/
theorem State.fld_setFld_disjoint (s : State) (p : Nat) (f g : Fld) (v : Nat) (ho : g.off = f.off)
    (h : f.lo ≤ f.hi ∧ g.hi < 32 ∧ (g.hi < f.lo ∨ f.hi < g.lo)) : (s.setFld p f v).fld p g = s.fld p g := by
  unfold State.fld State.setFld
  rw [ho, State.reg_putReg_same]
  exact Fld.get_put_disjoint f g v _ h.1 h.2.1 h.2.2

theorem State.flag_setFld_same (s : State) (p : Nat) (f : Fld) (v : Nat) (hf : f.lo = f.hi ∧ f.hi < 32) :
    (s.setFld p f v).flag p f = (v % 2 != 0) := by
  have h := State.fld_setFld_same s p f v ⟨Nat.le_of_eq hf.1, hf.2⟩
  unfold State.flag
  rw [h, hf.1]
  have : f.hi + 1 - f.hi = 1 := by omega
  rw [this, Nat.pow_one]

theorem State.flag_setFld_ne (s : State) (p q : Nat) (f g : Fld) (v : Nat) (h : regKey q g.off ≠ regKey p f.off) :
    (s.setFld p f v).flag q g = s.flag q g := by
  unfold State.flag
  rw [State.fld_setFld_ne _ _ _ _ _ _ h]

/-! Table words. -/

/-- A table word holds what it was set to. -/
@[simp] theorem State.tw_putTw_same (s : State) (p t e w : Nat) (v : Word) : (s.putTw p t e w v).tw p t e w = v := by
  unfold State.tw State.putTw State.modTables
  simp

/-- Setting a table word leaves every other. -/
theorem State.tw_putTw_ne (s : State) (p t e w p' t' e' w' : Nat) (v : Word)
    (h : tblKey p' t' e' w' ≠ tblKey p t e w) : (s.putTw p t e w v).tw p' t' e' w' = s.tw p' t' e' w' := by
  unfold State.tw State.putTw State.modTables
  dsimp only
  rw [Sparse.get_put_ne _ _ h]

theorem State.tf_setTf_same (s : State) (p t e w hi lo v : Nat) (h : lo ≤ hi ∧ hi < 32) :
    (s.setTf p t e w hi lo v).tf p t e w hi lo = v % 2 ^ (hi + 1 - lo) := by
  unfold State.tf State.setTf
  rw [State.tw_putTw_same]
  exact Fld.get_put_same ⟨0, hi, lo⟩ v _ h.1 h.2

/-! Counters. -/

/-- A counter advances modulo its width (R62). -/
@[simp] theorem State.counter_countBy_same (s : State) (i n : Nat) :
    (s.countBy i n).counter i = (s.counter i + n) % counterMod i := by
  unfold State.counter State.countBy State.modCnt
  simp

/-- Counting leaves every other counter. -/
theorem State.counter_countBy_ne (s : State) (i j n : Nat) (h : j ≠ i) : (s.countBy i n).counter j = s.counter j := by
  unfold State.counter State.countBy State.modCnt
  dsimp only
  rw [Sparse.get_put_ne _ _ h]

@[simp] theorem State.counter_count_same (s : State) (i : Nat) :
    (s.count i).counter i = (s.counter i + 1) % counterMod i := State.counter_countBy_same s i 1

theorem State.counter_count_ne (s : State) (i j : Nat) (h : j ≠ i) : (s.count i).counter j = s.counter j :=
  State.counter_countBy_ne s i j 1 h

/-! What is read depends on one field of State. -/

theorem State.reg_of_rf {s t : State} (h : t.rf = s.rf) (p off : Nat) : t.reg p off = s.reg p off := by
  unfold State.reg State.copy
  rw [h]

theorem State.fld_of_rf {s t : State} (h : t.rf = s.rf) (p : Nat) (f : Fld) : t.fld p f = s.fld p f := by
  unfold State.fld
  rw [State.reg_of_rf h]

theorem State.flag_of_rf {s t : State} (h : t.rf = s.rf) (p : Nat) (f : Fld) : t.flag p f = s.flag p f := by
  unfold State.flag
  rw [State.fld_of_rf h]

theorem State.enabled_of_rf {s t : State} (h : t.rf = s.rf) (p : Nat) : t.enabled p = s.enabled p :=
  State.flag_of_rf h p _

theorem State.tw_of_tables {s t : State} (h : t.tables = s.tables) (p i e w : Nat) : t.tw p i e w = s.tw p i e w := by
  unfold State.tw
  rw [h]

theorem State.tf_of_tables {s t : State} (h : t.tables = s.tables) (p i e w hi lo : Nat) :
    t.tf p i e w hi lo = s.tf p i e w hi lo := by
  unfold State.tf
  rw [State.tw_of_tables h]

theorem State.tb_of_tables {s t : State} (h : t.tables = s.tables) (p i e w b : Nat) :
    t.tb p i e w b = s.tb p i e w b := by
  unfold State.tb
  rw [State.tf_of_tables h]

theorem State.counter_of_cnt {s t : State} (h : t.cnt = s.cnt) (i : Nat) : t.counter i = s.counter i := by
  unfold State.counter
  rw [h]

/-! One kind of storage and the others. -/

@[simp] theorem State.putReg_tables (s : State) (p off : Nat) (v : Word) : (s.putReg p off v).tables = s.tables := State.modRf_tables s _
@[simp] theorem State.putReg_wins (s : State) (p off : Nat) (v : Word) : (s.putReg p off v).wins = s.wins := State.modRf_wins s _
@[simp] theorem State.putReg_cnt (s : State) (p off : Nat) (v : Word) : (s.putReg p off v).cnt = s.cnt := State.modRf_cnt s _
@[simp] theorem State.putReg_penn (s : State) (p off : Nat) (v : Word) : (s.putReg p off v).penn = s.penn := State.modRf_penn s _
@[simp] theorem State.putReg_limited (s : State) (p off : Nat) (v : Word) : (s.putReg p off v).limited = s.limited := State.modRf_limited s _
@[simp] theorem State.putReg_out (s : State) (p off : Nat) (v : Word) : (s.putReg p off v).out = s.out := State.modRf_out s _
@[simp] theorem State.putReg_now (s : State) (p off : Nat) (v : Word) : (s.putReg p off v).now = s.now := State.modRf_now s _
@[simp] theorem State.putReg_readData (s : State) (p off : Nat) (v : Word) : (s.putReg p off v).readData = s.readData := State.modRf_readData s _
@[simp] theorem State.putReg_readHigh (s : State) (p off : Nat) (v : Word) : (s.putReg p off v).readHigh = s.readHigh := State.modRf_readHigh s _
@[simp] theorem State.putReg_freeIx (s : State) (p off : Nat) (v : Word) : (s.putReg p off v).freeIx = s.freeIx := State.modRf_freeIx s _
@[simp] theorem State.putReg_rx (s : State) (p off : Nat) (v : Word) : (s.putReg p off v).rx = s.rx := State.modRf_rx s _
@[simp] theorem State.putReg_tx (s : State) (p off : Nat) (v : Word) : (s.putReg p off v).tx = s.tx := State.modRf_tx s _
@[simp] theorem State.putReg_hif (s : State) (p off : Nat) (v : Word) : (s.putReg p off v).hif = s.hif := State.modRf_hif s _
@[simp] theorem State.putReg_dma (s : State) (p off : Nat) (v : Word) : (s.putReg p off v).dma = s.dma := State.modRf_dma s _
@[simp] theorem State.putReg_uni (s : State) (p off : Nat) (v : Word) : (s.putReg p off v).uni = s.uni := State.modRf_uni s _
@[simp] theorem State.putReg_tsk (s : State) (p off : Nat) (v : Word) : (s.putReg p off v).tsk = s.tsk := State.modRf_tsk s _
@[simp] theorem State.putReg_sto (s : State) (p off : Nat) (v : Word) : (s.putReg p off v).sto = s.sto := State.modRf_sto s _
@[simp] theorem State.putReg_xtr (s : State) (p off : Nat) (v : Word) : (s.putReg p off v).xtr = s.xtr := State.modRf_xtr s _
@[simp] theorem State.putReg_cls (s : State) (p off : Nat) (v : Word) : (s.putReg p off v).cls = s.cls := State.modRf_cls s _
@[simp] theorem State.putReg_flow (s : State) (p off : Nat) (v : Word) : (s.putReg p off v).flow = s.flow := State.modRf_flow s _
@[simp] theorem State.putReg_usch (s : State) (p off : Nat) (v : Word) : (s.putReg p off v).usch = s.usch := State.modRf_usch s _
@[simp] theorem State.putReg_grt (s : State) (p off : Nat) (v : Word) : (s.putReg p off v).grt = s.grt := State.modRf_grt s _
@[simp] theorem State.putReg_pol (s : State) (p off : Nat) (v : Word) : (s.putReg p off v).pol = s.pol := State.modRf_pol s _
@[simp] theorem State.putReg_frm (s : State) (p off : Nat) (v : Word) : (s.putReg p off v).frm = s.frm := State.modRf_frm s _
@[simp] theorem State.putReg_pm (s : State) (p off : Nat) (v : Word) : (s.putReg p off v).pm = s.pm := State.modRf_pm s _
@[simp] theorem State.putReg_lsec (s : State) (p off : Nat) (v : Word) : (s.putReg p off v).lsec = s.lsec := State.modRf_lsec s _
@[simp] theorem State.putReg_rel (s : State) (p off : Nat) (v : Word) : (s.putReg p off v).rel = s.rel := State.modRf_rel s _
@[simp] theorem State.putReg_hal (s : State) (p off : Nat) (v : Word) : (s.putReg p off v).hal = s.hal := State.modRf_hal s _
@[simp] theorem State.putReg_sram (s : State) (p off : Nat) (v : Word) : (s.putReg p off v).sram = s.sram := State.modRf_sram s _
@[simp] theorem State.putReg_dual (s : State) (p off : Nat) (v : Word) : (s.putReg p off v).dual = s.dual := State.modRf_dual s _
@[simp] theorem State.putReg_snap (s : State) (p off : Nat) (v : Word) : (s.putReg p off v).snap = s.snap := State.modRf_snap s _
@[simp] theorem State.putReg_time (s : State) (p off : Nat) (v : Word) : (s.putReg p off v).time = s.time := State.modRf_time s _
@[simp] theorem State.putReg_act (s : State) (p off : Nat) (v : Word) : (s.putReg p off v).act = s.act := State.modRf_act s _
@[simp] theorem State.putReg_noticeNext (s : State) (p off : Nat) (v : Word) : (s.putReg p off v).noticeNext = s.noticeNext := State.modRf_noticeNext s _
@[simp] theorem State.putReg_ccry (s : State) (p off : Nat) (v : Word) : (s.putReg p off v).ccry = s.ccry := State.modRf_ccry s _
@[simp] theorem State.putReg_kst (s : State) (p off : Nat) (v : Word) : (s.putReg p off v).kst = s.kst := State.modRf_kst s _
@[simp] theorem State.putReg_clk (s : State) (p off : Nat) (v : Word) : (s.putReg p off v).clk = s.clk := State.modRf_clk s _
@[simp] theorem State.putReg_lehr (s : State) (p off : Nat) (v : Word) : (s.putReg p off v).lehr = s.lehr := State.modRf_lehr s _
@[simp] theorem State.putReg_tap (s : State) (p off : Nat) (v : Word) : (s.putReg p off v).tap = s.tap := State.modRf_tap s _
@[simp] theorem State.putReg_sup (s : State) (p off : Nat) (v : Word) : (s.putReg p off v).sup = s.sup := State.modRf_sup s _
@[simp] theorem State.putReg_keep (s : State) (p off : Nat) (v : Word) : (s.putReg p off v).keep = s.keep := State.modRf_keep s _
@[simp] theorem State.putReg_core (s : State) (p off : Nat) (v : Word) : (s.putReg p off v).core = s.core := State.modRf_core s _
@[simp] theorem State.putReg_flsh (s : State) (p off : Nat) (v : Word) : (s.putReg p off v).flsh = s.flsh := State.modRf_flsh s _
@[simp] theorem State.putReg_pending (s : State) (p off : Nat) (v : Word) : (s.putReg p off v).pending = s.pending := State.modRf_pending s _
@[simp] theorem State.tw_putReg (s : State) (p off : Nat) (v : Word) (q t' e' w' : Nat) : (s.putReg p off v).tw q t' e' w' = s.tw q t' e' w' := State.tw_of_tables (State.putReg_tables s _ _ _) _ _ _ _
@[simp] theorem State.tf_putReg (s : State) (p off : Nat) (v : Word) (q t' e' w' h' l' : Nat) : (s.putReg p off v).tf q t' e' w' h' l' = s.tf q t' e' w' h' l' := State.tf_of_tables (State.putReg_tables s _ _ _) _ _ _ _ _ _
@[simp] theorem State.tb_putReg (s : State) (p off : Nat) (v : Word) (q t' e' w' l' : Nat) : (s.putReg p off v).tb q t' e' w' l' = s.tb q t' e' w' l' := State.tb_of_tables (State.putReg_tables s _ _ _) _ _ _ _ _
@[simp] theorem State.counter_putReg (s : State) (p off : Nat) (v : Word) (j : Nat) : (s.putReg p off v).counter j = s.counter j := State.counter_of_cnt (State.putReg_cnt s _ _ _) _

@[simp] theorem State.setFld_tables (s : State) (p : Nat) (f : Fld) (v : Nat) : (s.setFld p f v).tables = s.tables := State.putReg_tables s _ _ _
@[simp] theorem State.setFld_wins (s : State) (p : Nat) (f : Fld) (v : Nat) : (s.setFld p f v).wins = s.wins := State.putReg_wins s _ _ _
@[simp] theorem State.setFld_cnt (s : State) (p : Nat) (f : Fld) (v : Nat) : (s.setFld p f v).cnt = s.cnt := State.putReg_cnt s _ _ _
@[simp] theorem State.setFld_penn (s : State) (p : Nat) (f : Fld) (v : Nat) : (s.setFld p f v).penn = s.penn := State.putReg_penn s _ _ _
@[simp] theorem State.setFld_limited (s : State) (p : Nat) (f : Fld) (v : Nat) : (s.setFld p f v).limited = s.limited := State.putReg_limited s _ _ _
@[simp] theorem State.setFld_out (s : State) (p : Nat) (f : Fld) (v : Nat) : (s.setFld p f v).out = s.out := State.putReg_out s _ _ _
@[simp] theorem State.setFld_now (s : State) (p : Nat) (f : Fld) (v : Nat) : (s.setFld p f v).now = s.now := State.putReg_now s _ _ _
@[simp] theorem State.setFld_readData (s : State) (p : Nat) (f : Fld) (v : Nat) : (s.setFld p f v).readData = s.readData := State.putReg_readData s _ _ _
@[simp] theorem State.setFld_readHigh (s : State) (p : Nat) (f : Fld) (v : Nat) : (s.setFld p f v).readHigh = s.readHigh := State.putReg_readHigh s _ _ _
@[simp] theorem State.setFld_freeIx (s : State) (p : Nat) (f : Fld) (v : Nat) : (s.setFld p f v).freeIx = s.freeIx := State.putReg_freeIx s _ _ _
@[simp] theorem State.setFld_rx (s : State) (p : Nat) (f : Fld) (v : Nat) : (s.setFld p f v).rx = s.rx := State.putReg_rx s _ _ _
@[simp] theorem State.setFld_tx (s : State) (p : Nat) (f : Fld) (v : Nat) : (s.setFld p f v).tx = s.tx := State.putReg_tx s _ _ _
@[simp] theorem State.setFld_hif (s : State) (p : Nat) (f : Fld) (v : Nat) : (s.setFld p f v).hif = s.hif := State.putReg_hif s _ _ _
@[simp] theorem State.setFld_dma (s : State) (p : Nat) (f : Fld) (v : Nat) : (s.setFld p f v).dma = s.dma := State.putReg_dma s _ _ _
@[simp] theorem State.setFld_uni (s : State) (p : Nat) (f : Fld) (v : Nat) : (s.setFld p f v).uni = s.uni := State.putReg_uni s _ _ _
@[simp] theorem State.setFld_tsk (s : State) (p : Nat) (f : Fld) (v : Nat) : (s.setFld p f v).tsk = s.tsk := State.putReg_tsk s _ _ _
@[simp] theorem State.setFld_sto (s : State) (p : Nat) (f : Fld) (v : Nat) : (s.setFld p f v).sto = s.sto := State.putReg_sto s _ _ _
@[simp] theorem State.setFld_xtr (s : State) (p : Nat) (f : Fld) (v : Nat) : (s.setFld p f v).xtr = s.xtr := State.putReg_xtr s _ _ _
@[simp] theorem State.setFld_cls (s : State) (p : Nat) (f : Fld) (v : Nat) : (s.setFld p f v).cls = s.cls := State.putReg_cls s _ _ _
@[simp] theorem State.setFld_flow (s : State) (p : Nat) (f : Fld) (v : Nat) : (s.setFld p f v).flow = s.flow := State.putReg_flow s _ _ _
@[simp] theorem State.setFld_usch (s : State) (p : Nat) (f : Fld) (v : Nat) : (s.setFld p f v).usch = s.usch := State.putReg_usch s _ _ _
@[simp] theorem State.setFld_grt (s : State) (p : Nat) (f : Fld) (v : Nat) : (s.setFld p f v).grt = s.grt := State.putReg_grt s _ _ _
@[simp] theorem State.setFld_pol (s : State) (p : Nat) (f : Fld) (v : Nat) : (s.setFld p f v).pol = s.pol := State.putReg_pol s _ _ _
@[simp] theorem State.setFld_frm (s : State) (p : Nat) (f : Fld) (v : Nat) : (s.setFld p f v).frm = s.frm := State.putReg_frm s _ _ _
@[simp] theorem State.setFld_pm (s : State) (p : Nat) (f : Fld) (v : Nat) : (s.setFld p f v).pm = s.pm := State.putReg_pm s _ _ _
@[simp] theorem State.setFld_lsec (s : State) (p : Nat) (f : Fld) (v : Nat) : (s.setFld p f v).lsec = s.lsec := State.putReg_lsec s _ _ _
@[simp] theorem State.setFld_rel (s : State) (p : Nat) (f : Fld) (v : Nat) : (s.setFld p f v).rel = s.rel := State.putReg_rel s _ _ _
@[simp] theorem State.setFld_hal (s : State) (p : Nat) (f : Fld) (v : Nat) : (s.setFld p f v).hal = s.hal := State.putReg_hal s _ _ _
@[simp] theorem State.setFld_sram (s : State) (p : Nat) (f : Fld) (v : Nat) : (s.setFld p f v).sram = s.sram := State.putReg_sram s _ _ _
@[simp] theorem State.setFld_dual (s : State) (p : Nat) (f : Fld) (v : Nat) : (s.setFld p f v).dual = s.dual := State.putReg_dual s _ _ _
@[simp] theorem State.setFld_snap (s : State) (p : Nat) (f : Fld) (v : Nat) : (s.setFld p f v).snap = s.snap := State.putReg_snap s _ _ _
@[simp] theorem State.setFld_time (s : State) (p : Nat) (f : Fld) (v : Nat) : (s.setFld p f v).time = s.time := State.putReg_time s _ _ _
@[simp] theorem State.setFld_act (s : State) (p : Nat) (f : Fld) (v : Nat) : (s.setFld p f v).act = s.act := State.putReg_act s _ _ _
@[simp] theorem State.setFld_noticeNext (s : State) (p : Nat) (f : Fld) (v : Nat) : (s.setFld p f v).noticeNext = s.noticeNext := State.putReg_noticeNext s _ _ _
@[simp] theorem State.setFld_ccry (s : State) (p : Nat) (f : Fld) (v : Nat) : (s.setFld p f v).ccry = s.ccry := State.putReg_ccry s _ _ _
@[simp] theorem State.setFld_kst (s : State) (p : Nat) (f : Fld) (v : Nat) : (s.setFld p f v).kst = s.kst := State.putReg_kst s _ _ _
@[simp] theorem State.setFld_clk (s : State) (p : Nat) (f : Fld) (v : Nat) : (s.setFld p f v).clk = s.clk := State.putReg_clk s _ _ _
@[simp] theorem State.setFld_lehr (s : State) (p : Nat) (f : Fld) (v : Nat) : (s.setFld p f v).lehr = s.lehr := State.putReg_lehr s _ _ _
@[simp] theorem State.setFld_tap (s : State) (p : Nat) (f : Fld) (v : Nat) : (s.setFld p f v).tap = s.tap := State.putReg_tap s _ _ _
@[simp] theorem State.setFld_sup (s : State) (p : Nat) (f : Fld) (v : Nat) : (s.setFld p f v).sup = s.sup := State.putReg_sup s _ _ _
@[simp] theorem State.setFld_keep (s : State) (p : Nat) (f : Fld) (v : Nat) : (s.setFld p f v).keep = s.keep := State.putReg_keep s _ _ _
@[simp] theorem State.setFld_core (s : State) (p : Nat) (f : Fld) (v : Nat) : (s.setFld p f v).core = s.core := State.putReg_core s _ _ _
@[simp] theorem State.setFld_flsh (s : State) (p : Nat) (f : Fld) (v : Nat) : (s.setFld p f v).flsh = s.flsh := State.putReg_flsh s _ _ _
@[simp] theorem State.setFld_pending (s : State) (p : Nat) (f : Fld) (v : Nat) : (s.setFld p f v).pending = s.pending := State.putReg_pending s _ _ _
@[simp] theorem State.tw_setFld (s : State) (p : Nat) (f : Fld) (v : Nat) (q t' e' w' : Nat) : (s.setFld p f v).tw q t' e' w' = s.tw q t' e' w' := State.tw_of_tables (State.setFld_tables s _ _ _) _ _ _ _
@[simp] theorem State.tf_setFld (s : State) (p : Nat) (f : Fld) (v : Nat) (q t' e' w' h' l' : Nat) : (s.setFld p f v).tf q t' e' w' h' l' = s.tf q t' e' w' h' l' := State.tf_of_tables (State.setFld_tables s _ _ _) _ _ _ _ _ _
@[simp] theorem State.tb_setFld (s : State) (p : Nat) (f : Fld) (v : Nat) (q t' e' w' l' : Nat) : (s.setFld p f v).tb q t' e' w' l' = s.tb q t' e' w' l' := State.tb_of_tables (State.setFld_tables s _ _ _) _ _ _ _ _
@[simp] theorem State.counter_setFld (s : State) (p : Nat) (f : Fld) (v : Nat) (j : Nat) : (s.setFld p f v).counter j = s.counter j := State.counter_of_cnt (State.setFld_cnt s _ _ _) _

@[simp] theorem State.setSFld_tables (s : State) (p : Nat) (f : Fld) (v : Int) : (s.setSFld p f v).tables = s.tables := State.setFld_tables s _ _ _
@[simp] theorem State.setSFld_wins (s : State) (p : Nat) (f : Fld) (v : Int) : (s.setSFld p f v).wins = s.wins := State.setFld_wins s _ _ _
@[simp] theorem State.setSFld_cnt (s : State) (p : Nat) (f : Fld) (v : Int) : (s.setSFld p f v).cnt = s.cnt := State.setFld_cnt s _ _ _
@[simp] theorem State.setSFld_penn (s : State) (p : Nat) (f : Fld) (v : Int) : (s.setSFld p f v).penn = s.penn := State.setFld_penn s _ _ _
@[simp] theorem State.setSFld_limited (s : State) (p : Nat) (f : Fld) (v : Int) : (s.setSFld p f v).limited = s.limited := State.setFld_limited s _ _ _
@[simp] theorem State.setSFld_out (s : State) (p : Nat) (f : Fld) (v : Int) : (s.setSFld p f v).out = s.out := State.setFld_out s _ _ _
@[simp] theorem State.setSFld_now (s : State) (p : Nat) (f : Fld) (v : Int) : (s.setSFld p f v).now = s.now := State.setFld_now s _ _ _
@[simp] theorem State.setSFld_readData (s : State) (p : Nat) (f : Fld) (v : Int) : (s.setSFld p f v).readData = s.readData := State.setFld_readData s _ _ _
@[simp] theorem State.setSFld_readHigh (s : State) (p : Nat) (f : Fld) (v : Int) : (s.setSFld p f v).readHigh = s.readHigh := State.setFld_readHigh s _ _ _
@[simp] theorem State.setSFld_freeIx (s : State) (p : Nat) (f : Fld) (v : Int) : (s.setSFld p f v).freeIx = s.freeIx := State.setFld_freeIx s _ _ _
@[simp] theorem State.setSFld_rx (s : State) (p : Nat) (f : Fld) (v : Int) : (s.setSFld p f v).rx = s.rx := State.setFld_rx s _ _ _
@[simp] theorem State.setSFld_tx (s : State) (p : Nat) (f : Fld) (v : Int) : (s.setSFld p f v).tx = s.tx := State.setFld_tx s _ _ _
@[simp] theorem State.setSFld_hif (s : State) (p : Nat) (f : Fld) (v : Int) : (s.setSFld p f v).hif = s.hif := State.setFld_hif s _ _ _
@[simp] theorem State.setSFld_dma (s : State) (p : Nat) (f : Fld) (v : Int) : (s.setSFld p f v).dma = s.dma := State.setFld_dma s _ _ _
@[simp] theorem State.setSFld_uni (s : State) (p : Nat) (f : Fld) (v : Int) : (s.setSFld p f v).uni = s.uni := State.setFld_uni s _ _ _
@[simp] theorem State.setSFld_tsk (s : State) (p : Nat) (f : Fld) (v : Int) : (s.setSFld p f v).tsk = s.tsk := State.setFld_tsk s _ _ _
@[simp] theorem State.setSFld_sto (s : State) (p : Nat) (f : Fld) (v : Int) : (s.setSFld p f v).sto = s.sto := State.setFld_sto s _ _ _
@[simp] theorem State.setSFld_xtr (s : State) (p : Nat) (f : Fld) (v : Int) : (s.setSFld p f v).xtr = s.xtr := State.setFld_xtr s _ _ _
@[simp] theorem State.setSFld_cls (s : State) (p : Nat) (f : Fld) (v : Int) : (s.setSFld p f v).cls = s.cls := State.setFld_cls s _ _ _
@[simp] theorem State.setSFld_flow (s : State) (p : Nat) (f : Fld) (v : Int) : (s.setSFld p f v).flow = s.flow := State.setFld_flow s _ _ _
@[simp] theorem State.setSFld_usch (s : State) (p : Nat) (f : Fld) (v : Int) : (s.setSFld p f v).usch = s.usch := State.setFld_usch s _ _ _
@[simp] theorem State.setSFld_grt (s : State) (p : Nat) (f : Fld) (v : Int) : (s.setSFld p f v).grt = s.grt := State.setFld_grt s _ _ _
@[simp] theorem State.setSFld_pol (s : State) (p : Nat) (f : Fld) (v : Int) : (s.setSFld p f v).pol = s.pol := State.setFld_pol s _ _ _
@[simp] theorem State.setSFld_frm (s : State) (p : Nat) (f : Fld) (v : Int) : (s.setSFld p f v).frm = s.frm := State.setFld_frm s _ _ _
@[simp] theorem State.setSFld_pm (s : State) (p : Nat) (f : Fld) (v : Int) : (s.setSFld p f v).pm = s.pm := State.setFld_pm s _ _ _
@[simp] theorem State.setSFld_lsec (s : State) (p : Nat) (f : Fld) (v : Int) : (s.setSFld p f v).lsec = s.lsec := State.setFld_lsec s _ _ _
@[simp] theorem State.setSFld_rel (s : State) (p : Nat) (f : Fld) (v : Int) : (s.setSFld p f v).rel = s.rel := State.setFld_rel s _ _ _
@[simp] theorem State.setSFld_hal (s : State) (p : Nat) (f : Fld) (v : Int) : (s.setSFld p f v).hal = s.hal := State.setFld_hal s _ _ _
@[simp] theorem State.setSFld_sram (s : State) (p : Nat) (f : Fld) (v : Int) : (s.setSFld p f v).sram = s.sram := State.setFld_sram s _ _ _
@[simp] theorem State.setSFld_dual (s : State) (p : Nat) (f : Fld) (v : Int) : (s.setSFld p f v).dual = s.dual := State.setFld_dual s _ _ _
@[simp] theorem State.setSFld_snap (s : State) (p : Nat) (f : Fld) (v : Int) : (s.setSFld p f v).snap = s.snap := State.setFld_snap s _ _ _
@[simp] theorem State.setSFld_time (s : State) (p : Nat) (f : Fld) (v : Int) : (s.setSFld p f v).time = s.time := State.setFld_time s _ _ _
@[simp] theorem State.setSFld_act (s : State) (p : Nat) (f : Fld) (v : Int) : (s.setSFld p f v).act = s.act := State.setFld_act s _ _ _
@[simp] theorem State.setSFld_noticeNext (s : State) (p : Nat) (f : Fld) (v : Int) : (s.setSFld p f v).noticeNext = s.noticeNext := State.setFld_noticeNext s _ _ _
@[simp] theorem State.setSFld_ccry (s : State) (p : Nat) (f : Fld) (v : Int) : (s.setSFld p f v).ccry = s.ccry := State.setFld_ccry s _ _ _
@[simp] theorem State.setSFld_kst (s : State) (p : Nat) (f : Fld) (v : Int) : (s.setSFld p f v).kst = s.kst := State.setFld_kst s _ _ _
@[simp] theorem State.setSFld_clk (s : State) (p : Nat) (f : Fld) (v : Int) : (s.setSFld p f v).clk = s.clk := State.setFld_clk s _ _ _
@[simp] theorem State.setSFld_lehr (s : State) (p : Nat) (f : Fld) (v : Int) : (s.setSFld p f v).lehr = s.lehr := State.setFld_lehr s _ _ _
@[simp] theorem State.setSFld_tap (s : State) (p : Nat) (f : Fld) (v : Int) : (s.setSFld p f v).tap = s.tap := State.setFld_tap s _ _ _
@[simp] theorem State.setSFld_sup (s : State) (p : Nat) (f : Fld) (v : Int) : (s.setSFld p f v).sup = s.sup := State.setFld_sup s _ _ _
@[simp] theorem State.setSFld_keep (s : State) (p : Nat) (f : Fld) (v : Int) : (s.setSFld p f v).keep = s.keep := State.setFld_keep s _ _ _
@[simp] theorem State.setSFld_core (s : State) (p : Nat) (f : Fld) (v : Int) : (s.setSFld p f v).core = s.core := State.setFld_core s _ _ _
@[simp] theorem State.setSFld_flsh (s : State) (p : Nat) (f : Fld) (v : Int) : (s.setSFld p f v).flsh = s.flsh := State.setFld_flsh s _ _ _
@[simp] theorem State.setSFld_pending (s : State) (p : Nat) (f : Fld) (v : Int) : (s.setSFld p f v).pending = s.pending := State.setFld_pending s _ _ _
@[simp] theorem State.tw_setSFld (s : State) (p : Nat) (f : Fld) (v : Int) (q t' e' w' : Nat) : (s.setSFld p f v).tw q t' e' w' = s.tw q t' e' w' := State.tw_of_tables (State.setSFld_tables s _ _ _) _ _ _ _
@[simp] theorem State.tf_setSFld (s : State) (p : Nat) (f : Fld) (v : Int) (q t' e' w' h' l' : Nat) : (s.setSFld p f v).tf q t' e' w' h' l' = s.tf q t' e' w' h' l' := State.tf_of_tables (State.setSFld_tables s _ _ _) _ _ _ _ _ _
@[simp] theorem State.tb_setSFld (s : State) (p : Nat) (f : Fld) (v : Int) (q t' e' w' l' : Nat) : (s.setSFld p f v).tb q t' e' w' l' = s.tb q t' e' w' l' := State.tb_of_tables (State.setSFld_tables s _ _ _) _ _ _ _ _
@[simp] theorem State.counter_setSFld (s : State) (p : Nat) (f : Fld) (v : Int) (j : Nat) : (s.setSFld p f v).counter j = s.counter j := State.counter_of_cnt (State.setSFld_cnt s _ _ _) _

@[simp] theorem State.resetReg_tables (s : State) (p off : Nat) : (s.resetReg p off).tables = s.tables := State.putReg_tables s _ _ _
@[simp] theorem State.resetReg_wins (s : State) (p off : Nat) : (s.resetReg p off).wins = s.wins := State.putReg_wins s _ _ _
@[simp] theorem State.resetReg_cnt (s : State) (p off : Nat) : (s.resetReg p off).cnt = s.cnt := State.putReg_cnt s _ _ _
@[simp] theorem State.resetReg_penn (s : State) (p off : Nat) : (s.resetReg p off).penn = s.penn := State.putReg_penn s _ _ _
@[simp] theorem State.resetReg_limited (s : State) (p off : Nat) : (s.resetReg p off).limited = s.limited := State.putReg_limited s _ _ _
@[simp] theorem State.resetReg_out (s : State) (p off : Nat) : (s.resetReg p off).out = s.out := State.putReg_out s _ _ _
@[simp] theorem State.resetReg_now (s : State) (p off : Nat) : (s.resetReg p off).now = s.now := State.putReg_now s _ _ _
@[simp] theorem State.resetReg_readData (s : State) (p off : Nat) : (s.resetReg p off).readData = s.readData := State.putReg_readData s _ _ _
@[simp] theorem State.resetReg_readHigh (s : State) (p off : Nat) : (s.resetReg p off).readHigh = s.readHigh := State.putReg_readHigh s _ _ _
@[simp] theorem State.resetReg_freeIx (s : State) (p off : Nat) : (s.resetReg p off).freeIx = s.freeIx := State.putReg_freeIx s _ _ _
@[simp] theorem State.resetReg_rx (s : State) (p off : Nat) : (s.resetReg p off).rx = s.rx := State.putReg_rx s _ _ _
@[simp] theorem State.resetReg_tx (s : State) (p off : Nat) : (s.resetReg p off).tx = s.tx := State.putReg_tx s _ _ _
@[simp] theorem State.resetReg_hif (s : State) (p off : Nat) : (s.resetReg p off).hif = s.hif := State.putReg_hif s _ _ _
@[simp] theorem State.resetReg_dma (s : State) (p off : Nat) : (s.resetReg p off).dma = s.dma := State.putReg_dma s _ _ _
@[simp] theorem State.resetReg_uni (s : State) (p off : Nat) : (s.resetReg p off).uni = s.uni := State.putReg_uni s _ _ _
@[simp] theorem State.resetReg_tsk (s : State) (p off : Nat) : (s.resetReg p off).tsk = s.tsk := State.putReg_tsk s _ _ _
@[simp] theorem State.resetReg_sto (s : State) (p off : Nat) : (s.resetReg p off).sto = s.sto := State.putReg_sto s _ _ _
@[simp] theorem State.resetReg_xtr (s : State) (p off : Nat) : (s.resetReg p off).xtr = s.xtr := State.putReg_xtr s _ _ _
@[simp] theorem State.resetReg_cls (s : State) (p off : Nat) : (s.resetReg p off).cls = s.cls := State.putReg_cls s _ _ _
@[simp] theorem State.resetReg_flow (s : State) (p off : Nat) : (s.resetReg p off).flow = s.flow := State.putReg_flow s _ _ _
@[simp] theorem State.resetReg_usch (s : State) (p off : Nat) : (s.resetReg p off).usch = s.usch := State.putReg_usch s _ _ _
@[simp] theorem State.resetReg_grt (s : State) (p off : Nat) : (s.resetReg p off).grt = s.grt := State.putReg_grt s _ _ _
@[simp] theorem State.resetReg_pol (s : State) (p off : Nat) : (s.resetReg p off).pol = s.pol := State.putReg_pol s _ _ _
@[simp] theorem State.resetReg_frm (s : State) (p off : Nat) : (s.resetReg p off).frm = s.frm := State.putReg_frm s _ _ _
@[simp] theorem State.resetReg_pm (s : State) (p off : Nat) : (s.resetReg p off).pm = s.pm := State.putReg_pm s _ _ _
@[simp] theorem State.resetReg_lsec (s : State) (p off : Nat) : (s.resetReg p off).lsec = s.lsec := State.putReg_lsec s _ _ _
@[simp] theorem State.resetReg_rel (s : State) (p off : Nat) : (s.resetReg p off).rel = s.rel := State.putReg_rel s _ _ _
@[simp] theorem State.resetReg_hal (s : State) (p off : Nat) : (s.resetReg p off).hal = s.hal := State.putReg_hal s _ _ _
@[simp] theorem State.resetReg_sram (s : State) (p off : Nat) : (s.resetReg p off).sram = s.sram := State.putReg_sram s _ _ _
@[simp] theorem State.resetReg_dual (s : State) (p off : Nat) : (s.resetReg p off).dual = s.dual := State.putReg_dual s _ _ _
@[simp] theorem State.resetReg_snap (s : State) (p off : Nat) : (s.resetReg p off).snap = s.snap := State.putReg_snap s _ _ _
@[simp] theorem State.resetReg_time (s : State) (p off : Nat) : (s.resetReg p off).time = s.time := State.putReg_time s _ _ _
@[simp] theorem State.resetReg_act (s : State) (p off : Nat) : (s.resetReg p off).act = s.act := State.putReg_act s _ _ _
@[simp] theorem State.resetReg_noticeNext (s : State) (p off : Nat) : (s.resetReg p off).noticeNext = s.noticeNext := State.putReg_noticeNext s _ _ _
@[simp] theorem State.resetReg_ccry (s : State) (p off : Nat) : (s.resetReg p off).ccry = s.ccry := State.putReg_ccry s _ _ _
@[simp] theorem State.resetReg_kst (s : State) (p off : Nat) : (s.resetReg p off).kst = s.kst := State.putReg_kst s _ _ _
@[simp] theorem State.resetReg_clk (s : State) (p off : Nat) : (s.resetReg p off).clk = s.clk := State.putReg_clk s _ _ _
@[simp] theorem State.resetReg_lehr (s : State) (p off : Nat) : (s.resetReg p off).lehr = s.lehr := State.putReg_lehr s _ _ _
@[simp] theorem State.resetReg_tap (s : State) (p off : Nat) : (s.resetReg p off).tap = s.tap := State.putReg_tap s _ _ _
@[simp] theorem State.resetReg_sup (s : State) (p off : Nat) : (s.resetReg p off).sup = s.sup := State.putReg_sup s _ _ _
@[simp] theorem State.resetReg_keep (s : State) (p off : Nat) : (s.resetReg p off).keep = s.keep := State.putReg_keep s _ _ _
@[simp] theorem State.resetReg_core (s : State) (p off : Nat) : (s.resetReg p off).core = s.core := State.putReg_core s _ _ _
@[simp] theorem State.resetReg_flsh (s : State) (p off : Nat) : (s.resetReg p off).flsh = s.flsh := State.putReg_flsh s _ _ _
@[simp] theorem State.resetReg_pending (s : State) (p off : Nat) : (s.resetReg p off).pending = s.pending := State.putReg_pending s _ _ _
@[simp] theorem State.tw_resetReg (s : State) (p off : Nat) (q t' e' w' : Nat) : (s.resetReg p off).tw q t' e' w' = s.tw q t' e' w' := State.tw_of_tables (State.resetReg_tables s _ _) _ _ _ _
@[simp] theorem State.tf_resetReg (s : State) (p off : Nat) (q t' e' w' h' l' : Nat) : (s.resetReg p off).tf q t' e' w' h' l' = s.tf q t' e' w' h' l' := State.tf_of_tables (State.resetReg_tables s _ _) _ _ _ _ _ _
@[simp] theorem State.tb_resetReg (s : State) (p off : Nat) (q t' e' w' l' : Nat) : (s.resetReg p off).tb q t' e' w' l' = s.tb q t' e' w' l' := State.tb_of_tables (State.resetReg_tables s _ _) _ _ _ _ _
@[simp] theorem State.counter_resetReg (s : State) (p off : Nat) (j : Nat) : (s.resetReg p off).counter j = s.counter j := State.counter_of_cnt (State.resetReg_cnt s _ _) _

@[simp] theorem State.putTw_rf (s : State) (p t e w : Nat) (v : Word) : (s.putTw p t e w v).rf = s.rf := State.modTables_rf s _
@[simp] theorem State.putTw_wins (s : State) (p t e w : Nat) (v : Word) : (s.putTw p t e w v).wins = s.wins := State.modTables_wins s _
@[simp] theorem State.putTw_cnt (s : State) (p t e w : Nat) (v : Word) : (s.putTw p t e w v).cnt = s.cnt := State.modTables_cnt s _
@[simp] theorem State.putTw_penn (s : State) (p t e w : Nat) (v : Word) : (s.putTw p t e w v).penn = s.penn := State.modTables_penn s _
@[simp] theorem State.putTw_limited (s : State) (p t e w : Nat) (v : Word) : (s.putTw p t e w v).limited = s.limited := State.modTables_limited s _
@[simp] theorem State.putTw_out (s : State) (p t e w : Nat) (v : Word) : (s.putTw p t e w v).out = s.out := State.modTables_out s _
@[simp] theorem State.putTw_now (s : State) (p t e w : Nat) (v : Word) : (s.putTw p t e w v).now = s.now := State.modTables_now s _
@[simp] theorem State.putTw_readData (s : State) (p t e w : Nat) (v : Word) : (s.putTw p t e w v).readData = s.readData := State.modTables_readData s _
@[simp] theorem State.putTw_readHigh (s : State) (p t e w : Nat) (v : Word) : (s.putTw p t e w v).readHigh = s.readHigh := State.modTables_readHigh s _
@[simp] theorem State.putTw_freeIx (s : State) (p t e w : Nat) (v : Word) : (s.putTw p t e w v).freeIx = s.freeIx := State.modTables_freeIx s _
@[simp] theorem State.putTw_rx (s : State) (p t e w : Nat) (v : Word) : (s.putTw p t e w v).rx = s.rx := State.modTables_rx s _
@[simp] theorem State.putTw_tx (s : State) (p t e w : Nat) (v : Word) : (s.putTw p t e w v).tx = s.tx := State.modTables_tx s _
@[simp] theorem State.putTw_hif (s : State) (p t e w : Nat) (v : Word) : (s.putTw p t e w v).hif = s.hif := State.modTables_hif s _
@[simp] theorem State.putTw_dma (s : State) (p t e w : Nat) (v : Word) : (s.putTw p t e w v).dma = s.dma := State.modTables_dma s _
@[simp] theorem State.putTw_uni (s : State) (p t e w : Nat) (v : Word) : (s.putTw p t e w v).uni = s.uni := State.modTables_uni s _
@[simp] theorem State.putTw_tsk (s : State) (p t e w : Nat) (v : Word) : (s.putTw p t e w v).tsk = s.tsk := State.modTables_tsk s _
@[simp] theorem State.putTw_sto (s : State) (p t e w : Nat) (v : Word) : (s.putTw p t e w v).sto = s.sto := State.modTables_sto s _
@[simp] theorem State.putTw_xtr (s : State) (p t e w : Nat) (v : Word) : (s.putTw p t e w v).xtr = s.xtr := State.modTables_xtr s _
@[simp] theorem State.putTw_cls (s : State) (p t e w : Nat) (v : Word) : (s.putTw p t e w v).cls = s.cls := State.modTables_cls s _
@[simp] theorem State.putTw_flow (s : State) (p t e w : Nat) (v : Word) : (s.putTw p t e w v).flow = s.flow := State.modTables_flow s _
@[simp] theorem State.putTw_usch (s : State) (p t e w : Nat) (v : Word) : (s.putTw p t e w v).usch = s.usch := State.modTables_usch s _
@[simp] theorem State.putTw_grt (s : State) (p t e w : Nat) (v : Word) : (s.putTw p t e w v).grt = s.grt := State.modTables_grt s _
@[simp] theorem State.putTw_pol (s : State) (p t e w : Nat) (v : Word) : (s.putTw p t e w v).pol = s.pol := State.modTables_pol s _
@[simp] theorem State.putTw_frm (s : State) (p t e w : Nat) (v : Word) : (s.putTw p t e w v).frm = s.frm := State.modTables_frm s _
@[simp] theorem State.putTw_pm (s : State) (p t e w : Nat) (v : Word) : (s.putTw p t e w v).pm = s.pm := State.modTables_pm s _
@[simp] theorem State.putTw_lsec (s : State) (p t e w : Nat) (v : Word) : (s.putTw p t e w v).lsec = s.lsec := State.modTables_lsec s _
@[simp] theorem State.putTw_rel (s : State) (p t e w : Nat) (v : Word) : (s.putTw p t e w v).rel = s.rel := State.modTables_rel s _
@[simp] theorem State.putTw_hal (s : State) (p t e w : Nat) (v : Word) : (s.putTw p t e w v).hal = s.hal := State.modTables_hal s _
@[simp] theorem State.putTw_sram (s : State) (p t e w : Nat) (v : Word) : (s.putTw p t e w v).sram = s.sram := State.modTables_sram s _
@[simp] theorem State.putTw_dual (s : State) (p t e w : Nat) (v : Word) : (s.putTw p t e w v).dual = s.dual := State.modTables_dual s _
@[simp] theorem State.putTw_snap (s : State) (p t e w : Nat) (v : Word) : (s.putTw p t e w v).snap = s.snap := State.modTables_snap s _
@[simp] theorem State.putTw_time (s : State) (p t e w : Nat) (v : Word) : (s.putTw p t e w v).time = s.time := State.modTables_time s _
@[simp] theorem State.putTw_act (s : State) (p t e w : Nat) (v : Word) : (s.putTw p t e w v).act = s.act := State.modTables_act s _
@[simp] theorem State.putTw_noticeNext (s : State) (p t e w : Nat) (v : Word) : (s.putTw p t e w v).noticeNext = s.noticeNext := State.modTables_noticeNext s _
@[simp] theorem State.putTw_ccry (s : State) (p t e w : Nat) (v : Word) : (s.putTw p t e w v).ccry = s.ccry := State.modTables_ccry s _
@[simp] theorem State.putTw_kst (s : State) (p t e w : Nat) (v : Word) : (s.putTw p t e w v).kst = s.kst := State.modTables_kst s _
@[simp] theorem State.putTw_clk (s : State) (p t e w : Nat) (v : Word) : (s.putTw p t e w v).clk = s.clk := State.modTables_clk s _
@[simp] theorem State.putTw_lehr (s : State) (p t e w : Nat) (v : Word) : (s.putTw p t e w v).lehr = s.lehr := State.modTables_lehr s _
@[simp] theorem State.putTw_tap (s : State) (p t e w : Nat) (v : Word) : (s.putTw p t e w v).tap = s.tap := State.modTables_tap s _
@[simp] theorem State.putTw_sup (s : State) (p t e w : Nat) (v : Word) : (s.putTw p t e w v).sup = s.sup := State.modTables_sup s _
@[simp] theorem State.putTw_keep (s : State) (p t e w : Nat) (v : Word) : (s.putTw p t e w v).keep = s.keep := State.modTables_keep s _
@[simp] theorem State.putTw_core (s : State) (p t e w : Nat) (v : Word) : (s.putTw p t e w v).core = s.core := State.modTables_core s _
@[simp] theorem State.putTw_flsh (s : State) (p t e w : Nat) (v : Word) : (s.putTw p t e w v).flsh = s.flsh := State.modTables_flsh s _
@[simp] theorem State.putTw_pending (s : State) (p t e w : Nat) (v : Word) : (s.putTw p t e w v).pending = s.pending := State.modTables_pending s _
@[simp] theorem State.reg_putTw (s : State) (p t e w : Nat) (v : Word) (q off' : Nat) : (s.putTw p t e w v).reg q off' = s.reg q off' := State.reg_of_rf (State.putTw_rf s _ _ _ _ _) _ _
@[simp] theorem State.fld_putTw (s : State) (p t e w : Nat) (v : Word) (q : Nat) (g : Fld) : (s.putTw p t e w v).fld q g = s.fld q g := State.fld_of_rf (State.putTw_rf s _ _ _ _ _) _ _
@[simp] theorem State.flag_putTw (s : State) (p t e w : Nat) (v : Word) (q : Nat) (g : Fld) : (s.putTw p t e w v).flag q g = s.flag q g := State.flag_of_rf (State.putTw_rf s _ _ _ _ _) _ _
@[simp] theorem State.enabled_putTw (s : State) (p t e w : Nat) (v : Word) (q : Nat) : (s.putTw p t e w v).enabled q = s.enabled q := State.enabled_of_rf (State.putTw_rf s _ _ _ _ _) _
@[simp] theorem State.counter_putTw (s : State) (p t e w : Nat) (v : Word) (j : Nat) : (s.putTw p t e w v).counter j = s.counter j := State.counter_of_cnt (State.putTw_cnt s _ _ _ _ _) _

@[simp] theorem State.setTf_rf (s : State) (p t e w hi lo v : Nat) : (s.setTf p t e w hi lo v).rf = s.rf := State.putTw_rf s _ _ _ _ _
@[simp] theorem State.setTf_wins (s : State) (p t e w hi lo v : Nat) : (s.setTf p t e w hi lo v).wins = s.wins := State.putTw_wins s _ _ _ _ _
@[simp] theorem State.setTf_cnt (s : State) (p t e w hi lo v : Nat) : (s.setTf p t e w hi lo v).cnt = s.cnt := State.putTw_cnt s _ _ _ _ _
@[simp] theorem State.setTf_penn (s : State) (p t e w hi lo v : Nat) : (s.setTf p t e w hi lo v).penn = s.penn := State.putTw_penn s _ _ _ _ _
@[simp] theorem State.setTf_limited (s : State) (p t e w hi lo v : Nat) : (s.setTf p t e w hi lo v).limited = s.limited := State.putTw_limited s _ _ _ _ _
@[simp] theorem State.setTf_out (s : State) (p t e w hi lo v : Nat) : (s.setTf p t e w hi lo v).out = s.out := State.putTw_out s _ _ _ _ _
@[simp] theorem State.setTf_now (s : State) (p t e w hi lo v : Nat) : (s.setTf p t e w hi lo v).now = s.now := State.putTw_now s _ _ _ _ _
@[simp] theorem State.setTf_readData (s : State) (p t e w hi lo v : Nat) : (s.setTf p t e w hi lo v).readData = s.readData := State.putTw_readData s _ _ _ _ _
@[simp] theorem State.setTf_readHigh (s : State) (p t e w hi lo v : Nat) : (s.setTf p t e w hi lo v).readHigh = s.readHigh := State.putTw_readHigh s _ _ _ _ _
@[simp] theorem State.setTf_freeIx (s : State) (p t e w hi lo v : Nat) : (s.setTf p t e w hi lo v).freeIx = s.freeIx := State.putTw_freeIx s _ _ _ _ _
@[simp] theorem State.setTf_rx (s : State) (p t e w hi lo v : Nat) : (s.setTf p t e w hi lo v).rx = s.rx := State.putTw_rx s _ _ _ _ _
@[simp] theorem State.setTf_tx (s : State) (p t e w hi lo v : Nat) : (s.setTf p t e w hi lo v).tx = s.tx := State.putTw_tx s _ _ _ _ _
@[simp] theorem State.setTf_hif (s : State) (p t e w hi lo v : Nat) : (s.setTf p t e w hi lo v).hif = s.hif := State.putTw_hif s _ _ _ _ _
@[simp] theorem State.setTf_dma (s : State) (p t e w hi lo v : Nat) : (s.setTf p t e w hi lo v).dma = s.dma := State.putTw_dma s _ _ _ _ _
@[simp] theorem State.setTf_uni (s : State) (p t e w hi lo v : Nat) : (s.setTf p t e w hi lo v).uni = s.uni := State.putTw_uni s _ _ _ _ _
@[simp] theorem State.setTf_tsk (s : State) (p t e w hi lo v : Nat) : (s.setTf p t e w hi lo v).tsk = s.tsk := State.putTw_tsk s _ _ _ _ _
@[simp] theorem State.setTf_sto (s : State) (p t e w hi lo v : Nat) : (s.setTf p t e w hi lo v).sto = s.sto := State.putTw_sto s _ _ _ _ _
@[simp] theorem State.setTf_xtr (s : State) (p t e w hi lo v : Nat) : (s.setTf p t e w hi lo v).xtr = s.xtr := State.putTw_xtr s _ _ _ _ _
@[simp] theorem State.setTf_cls (s : State) (p t e w hi lo v : Nat) : (s.setTf p t e w hi lo v).cls = s.cls := State.putTw_cls s _ _ _ _ _
@[simp] theorem State.setTf_flow (s : State) (p t e w hi lo v : Nat) : (s.setTf p t e w hi lo v).flow = s.flow := State.putTw_flow s _ _ _ _ _
@[simp] theorem State.setTf_usch (s : State) (p t e w hi lo v : Nat) : (s.setTf p t e w hi lo v).usch = s.usch := State.putTw_usch s _ _ _ _ _
@[simp] theorem State.setTf_grt (s : State) (p t e w hi lo v : Nat) : (s.setTf p t e w hi lo v).grt = s.grt := State.putTw_grt s _ _ _ _ _
@[simp] theorem State.setTf_pol (s : State) (p t e w hi lo v : Nat) : (s.setTf p t e w hi lo v).pol = s.pol := State.putTw_pol s _ _ _ _ _
@[simp] theorem State.setTf_frm (s : State) (p t e w hi lo v : Nat) : (s.setTf p t e w hi lo v).frm = s.frm := State.putTw_frm s _ _ _ _ _
@[simp] theorem State.setTf_pm (s : State) (p t e w hi lo v : Nat) : (s.setTf p t e w hi lo v).pm = s.pm := State.putTw_pm s _ _ _ _ _
@[simp] theorem State.setTf_lsec (s : State) (p t e w hi lo v : Nat) : (s.setTf p t e w hi lo v).lsec = s.lsec := State.putTw_lsec s _ _ _ _ _
@[simp] theorem State.setTf_rel (s : State) (p t e w hi lo v : Nat) : (s.setTf p t e w hi lo v).rel = s.rel := State.putTw_rel s _ _ _ _ _
@[simp] theorem State.setTf_hal (s : State) (p t e w hi lo v : Nat) : (s.setTf p t e w hi lo v).hal = s.hal := State.putTw_hal s _ _ _ _ _
@[simp] theorem State.setTf_sram (s : State) (p t e w hi lo v : Nat) : (s.setTf p t e w hi lo v).sram = s.sram := State.putTw_sram s _ _ _ _ _
@[simp] theorem State.setTf_dual (s : State) (p t e w hi lo v : Nat) : (s.setTf p t e w hi lo v).dual = s.dual := State.putTw_dual s _ _ _ _ _
@[simp] theorem State.setTf_snap (s : State) (p t e w hi lo v : Nat) : (s.setTf p t e w hi lo v).snap = s.snap := State.putTw_snap s _ _ _ _ _
@[simp] theorem State.setTf_time (s : State) (p t e w hi lo v : Nat) : (s.setTf p t e w hi lo v).time = s.time := State.putTw_time s _ _ _ _ _
@[simp] theorem State.setTf_act (s : State) (p t e w hi lo v : Nat) : (s.setTf p t e w hi lo v).act = s.act := State.putTw_act s _ _ _ _ _
@[simp] theorem State.setTf_noticeNext (s : State) (p t e w hi lo v : Nat) : (s.setTf p t e w hi lo v).noticeNext = s.noticeNext := State.putTw_noticeNext s _ _ _ _ _
@[simp] theorem State.setTf_ccry (s : State) (p t e w hi lo v : Nat) : (s.setTf p t e w hi lo v).ccry = s.ccry := State.putTw_ccry s _ _ _ _ _
@[simp] theorem State.setTf_kst (s : State) (p t e w hi lo v : Nat) : (s.setTf p t e w hi lo v).kst = s.kst := State.putTw_kst s _ _ _ _ _
@[simp] theorem State.setTf_clk (s : State) (p t e w hi lo v : Nat) : (s.setTf p t e w hi lo v).clk = s.clk := State.putTw_clk s _ _ _ _ _
@[simp] theorem State.setTf_lehr (s : State) (p t e w hi lo v : Nat) : (s.setTf p t e w hi lo v).lehr = s.lehr := State.putTw_lehr s _ _ _ _ _
@[simp] theorem State.setTf_tap (s : State) (p t e w hi lo v : Nat) : (s.setTf p t e w hi lo v).tap = s.tap := State.putTw_tap s _ _ _ _ _
@[simp] theorem State.setTf_sup (s : State) (p t e w hi lo v : Nat) : (s.setTf p t e w hi lo v).sup = s.sup := State.putTw_sup s _ _ _ _ _
@[simp] theorem State.setTf_keep (s : State) (p t e w hi lo v : Nat) : (s.setTf p t e w hi lo v).keep = s.keep := State.putTw_keep s _ _ _ _ _
@[simp] theorem State.setTf_core (s : State) (p t e w hi lo v : Nat) : (s.setTf p t e w hi lo v).core = s.core := State.putTw_core s _ _ _ _ _
@[simp] theorem State.setTf_flsh (s : State) (p t e w hi lo v : Nat) : (s.setTf p t e w hi lo v).flsh = s.flsh := State.putTw_flsh s _ _ _ _ _
@[simp] theorem State.setTf_pending (s : State) (p t e w hi lo v : Nat) : (s.setTf p t e w hi lo v).pending = s.pending := State.putTw_pending s _ _ _ _ _
@[simp] theorem State.reg_setTf (s : State) (p t e w hi lo v : Nat) (q off' : Nat) : (s.setTf p t e w hi lo v).reg q off' = s.reg q off' := State.reg_of_rf (State.setTf_rf s _ _ _ _ _ _ _) _ _
@[simp] theorem State.fld_setTf (s : State) (p t e w hi lo v : Nat) (q : Nat) (g : Fld) : (s.setTf p t e w hi lo v).fld q g = s.fld q g := State.fld_of_rf (State.setTf_rf s _ _ _ _ _ _ _) _ _
@[simp] theorem State.flag_setTf (s : State) (p t e w hi lo v : Nat) (q : Nat) (g : Fld) : (s.setTf p t e w hi lo v).flag q g = s.flag q g := State.flag_of_rf (State.setTf_rf s _ _ _ _ _ _ _) _ _
@[simp] theorem State.enabled_setTf (s : State) (p t e w hi lo v : Nat) (q : Nat) : (s.setTf p t e w hi lo v).enabled q = s.enabled q := State.enabled_of_rf (State.setTf_rf s _ _ _ _ _ _ _) _
@[simp] theorem State.counter_setTf (s : State) (p t e w hi lo v : Nat) (j : Nat) : (s.setTf p t e w hi lo v).counter j = s.counter j := State.counter_of_cnt (State.setTf_cnt s _ _ _ _ _ _ _) _

@[simp] theorem State.countBy_rf (s : State) (i n : Nat) : (s.countBy i n).rf = s.rf := State.modCnt_rf s _
@[simp] theorem State.countBy_tables (s : State) (i n : Nat) : (s.countBy i n).tables = s.tables := State.modCnt_tables s _
@[simp] theorem State.countBy_wins (s : State) (i n : Nat) : (s.countBy i n).wins = s.wins := State.modCnt_wins s _
@[simp] theorem State.countBy_penn (s : State) (i n : Nat) : (s.countBy i n).penn = s.penn := State.modCnt_penn s _
@[simp] theorem State.countBy_limited (s : State) (i n : Nat) : (s.countBy i n).limited = s.limited := State.modCnt_limited s _
@[simp] theorem State.countBy_out (s : State) (i n : Nat) : (s.countBy i n).out = s.out := State.modCnt_out s _
@[simp] theorem State.countBy_now (s : State) (i n : Nat) : (s.countBy i n).now = s.now := State.modCnt_now s _
@[simp] theorem State.countBy_readData (s : State) (i n : Nat) : (s.countBy i n).readData = s.readData := State.modCnt_readData s _
@[simp] theorem State.countBy_readHigh (s : State) (i n : Nat) : (s.countBy i n).readHigh = s.readHigh := State.modCnt_readHigh s _
@[simp] theorem State.countBy_freeIx (s : State) (i n : Nat) : (s.countBy i n).freeIx = s.freeIx := State.modCnt_freeIx s _
@[simp] theorem State.countBy_rx (s : State) (i n : Nat) : (s.countBy i n).rx = s.rx := State.modCnt_rx s _
@[simp] theorem State.countBy_tx (s : State) (i n : Nat) : (s.countBy i n).tx = s.tx := State.modCnt_tx s _
@[simp] theorem State.countBy_hif (s : State) (i n : Nat) : (s.countBy i n).hif = s.hif := State.modCnt_hif s _
@[simp] theorem State.countBy_dma (s : State) (i n : Nat) : (s.countBy i n).dma = s.dma := State.modCnt_dma s _
@[simp] theorem State.countBy_uni (s : State) (i n : Nat) : (s.countBy i n).uni = s.uni := State.modCnt_uni s _
@[simp] theorem State.countBy_tsk (s : State) (i n : Nat) : (s.countBy i n).tsk = s.tsk := State.modCnt_tsk s _
@[simp] theorem State.countBy_sto (s : State) (i n : Nat) : (s.countBy i n).sto = s.sto := State.modCnt_sto s _
@[simp] theorem State.countBy_xtr (s : State) (i n : Nat) : (s.countBy i n).xtr = s.xtr := State.modCnt_xtr s _
@[simp] theorem State.countBy_cls (s : State) (i n : Nat) : (s.countBy i n).cls = s.cls := State.modCnt_cls s _
@[simp] theorem State.countBy_flow (s : State) (i n : Nat) : (s.countBy i n).flow = s.flow := State.modCnt_flow s _
@[simp] theorem State.countBy_usch (s : State) (i n : Nat) : (s.countBy i n).usch = s.usch := State.modCnt_usch s _
@[simp] theorem State.countBy_grt (s : State) (i n : Nat) : (s.countBy i n).grt = s.grt := State.modCnt_grt s _
@[simp] theorem State.countBy_pol (s : State) (i n : Nat) : (s.countBy i n).pol = s.pol := State.modCnt_pol s _
@[simp] theorem State.countBy_frm (s : State) (i n : Nat) : (s.countBy i n).frm = s.frm := State.modCnt_frm s _
@[simp] theorem State.countBy_pm (s : State) (i n : Nat) : (s.countBy i n).pm = s.pm := State.modCnt_pm s _
@[simp] theorem State.countBy_lsec (s : State) (i n : Nat) : (s.countBy i n).lsec = s.lsec := State.modCnt_lsec s _
@[simp] theorem State.countBy_rel (s : State) (i n : Nat) : (s.countBy i n).rel = s.rel := State.modCnt_rel s _
@[simp] theorem State.countBy_hal (s : State) (i n : Nat) : (s.countBy i n).hal = s.hal := State.modCnt_hal s _
@[simp] theorem State.countBy_sram (s : State) (i n : Nat) : (s.countBy i n).sram = s.sram := State.modCnt_sram s _
@[simp] theorem State.countBy_dual (s : State) (i n : Nat) : (s.countBy i n).dual = s.dual := State.modCnt_dual s _
@[simp] theorem State.countBy_snap (s : State) (i n : Nat) : (s.countBy i n).snap = s.snap := State.modCnt_snap s _
@[simp] theorem State.countBy_time (s : State) (i n : Nat) : (s.countBy i n).time = s.time := State.modCnt_time s _
@[simp] theorem State.countBy_act (s : State) (i n : Nat) : (s.countBy i n).act = s.act := State.modCnt_act s _
@[simp] theorem State.countBy_noticeNext (s : State) (i n : Nat) : (s.countBy i n).noticeNext = s.noticeNext := State.modCnt_noticeNext s _
@[simp] theorem State.countBy_ccry (s : State) (i n : Nat) : (s.countBy i n).ccry = s.ccry := State.modCnt_ccry s _
@[simp] theorem State.countBy_kst (s : State) (i n : Nat) : (s.countBy i n).kst = s.kst := State.modCnt_kst s _
@[simp] theorem State.countBy_clk (s : State) (i n : Nat) : (s.countBy i n).clk = s.clk := State.modCnt_clk s _
@[simp] theorem State.countBy_lehr (s : State) (i n : Nat) : (s.countBy i n).lehr = s.lehr := State.modCnt_lehr s _
@[simp] theorem State.countBy_tap (s : State) (i n : Nat) : (s.countBy i n).tap = s.tap := State.modCnt_tap s _
@[simp] theorem State.countBy_sup (s : State) (i n : Nat) : (s.countBy i n).sup = s.sup := State.modCnt_sup s _
@[simp] theorem State.countBy_keep (s : State) (i n : Nat) : (s.countBy i n).keep = s.keep := State.modCnt_keep s _
@[simp] theorem State.countBy_core (s : State) (i n : Nat) : (s.countBy i n).core = s.core := State.modCnt_core s _
@[simp] theorem State.countBy_flsh (s : State) (i n : Nat) : (s.countBy i n).flsh = s.flsh := State.modCnt_flsh s _
@[simp] theorem State.countBy_pending (s : State) (i n : Nat) : (s.countBy i n).pending = s.pending := State.modCnt_pending s _
@[simp] theorem State.reg_countBy (s : State) (i n : Nat) (q off' : Nat) : (s.countBy i n).reg q off' = s.reg q off' := State.reg_of_rf (State.countBy_rf s _ _) _ _
@[simp] theorem State.fld_countBy (s : State) (i n : Nat) (q : Nat) (g : Fld) : (s.countBy i n).fld q g = s.fld q g := State.fld_of_rf (State.countBy_rf s _ _) _ _
@[simp] theorem State.flag_countBy (s : State) (i n : Nat) (q : Nat) (g : Fld) : (s.countBy i n).flag q g = s.flag q g := State.flag_of_rf (State.countBy_rf s _ _) _ _
@[simp] theorem State.enabled_countBy (s : State) (i n : Nat) (q : Nat) : (s.countBy i n).enabled q = s.enabled q := State.enabled_of_rf (State.countBy_rf s _ _) _
@[simp] theorem State.tw_countBy (s : State) (i n : Nat) (q t' e' w' : Nat) : (s.countBy i n).tw q t' e' w' = s.tw q t' e' w' := State.tw_of_tables (State.countBy_tables s _ _) _ _ _ _
@[simp] theorem State.tf_countBy (s : State) (i n : Nat) (q t' e' w' h' l' : Nat) : (s.countBy i n).tf q t' e' w' h' l' = s.tf q t' e' w' h' l' := State.tf_of_tables (State.countBy_tables s _ _) _ _ _ _ _ _
@[simp] theorem State.tb_countBy (s : State) (i n : Nat) (q t' e' w' l' : Nat) : (s.countBy i n).tb q t' e' w' l' = s.tb q t' e' w' l' := State.tb_of_tables (State.countBy_tables s _ _) _ _ _ _ _

@[simp] theorem State.count_rf (s : State) (i : Nat) : (s.count i).rf = s.rf := State.countBy_rf s _ _
@[simp] theorem State.count_tables (s : State) (i : Nat) : (s.count i).tables = s.tables := State.countBy_tables s _ _
@[simp] theorem State.count_wins (s : State) (i : Nat) : (s.count i).wins = s.wins := State.countBy_wins s _ _
@[simp] theorem State.count_penn (s : State) (i : Nat) : (s.count i).penn = s.penn := State.countBy_penn s _ _
@[simp] theorem State.count_limited (s : State) (i : Nat) : (s.count i).limited = s.limited := State.countBy_limited s _ _
@[simp] theorem State.count_out (s : State) (i : Nat) : (s.count i).out = s.out := State.countBy_out s _ _
@[simp] theorem State.count_now (s : State) (i : Nat) : (s.count i).now = s.now := State.countBy_now s _ _
@[simp] theorem State.count_readData (s : State) (i : Nat) : (s.count i).readData = s.readData := State.countBy_readData s _ _
@[simp] theorem State.count_readHigh (s : State) (i : Nat) : (s.count i).readHigh = s.readHigh := State.countBy_readHigh s _ _
@[simp] theorem State.count_freeIx (s : State) (i : Nat) : (s.count i).freeIx = s.freeIx := State.countBy_freeIx s _ _
@[simp] theorem State.count_rx (s : State) (i : Nat) : (s.count i).rx = s.rx := State.countBy_rx s _ _
@[simp] theorem State.count_tx (s : State) (i : Nat) : (s.count i).tx = s.tx := State.countBy_tx s _ _
@[simp] theorem State.count_hif (s : State) (i : Nat) : (s.count i).hif = s.hif := State.countBy_hif s _ _
@[simp] theorem State.count_dma (s : State) (i : Nat) : (s.count i).dma = s.dma := State.countBy_dma s _ _
@[simp] theorem State.count_uni (s : State) (i : Nat) : (s.count i).uni = s.uni := State.countBy_uni s _ _
@[simp] theorem State.count_tsk (s : State) (i : Nat) : (s.count i).tsk = s.tsk := State.countBy_tsk s _ _
@[simp] theorem State.count_sto (s : State) (i : Nat) : (s.count i).sto = s.sto := State.countBy_sto s _ _
@[simp] theorem State.count_xtr (s : State) (i : Nat) : (s.count i).xtr = s.xtr := State.countBy_xtr s _ _
@[simp] theorem State.count_cls (s : State) (i : Nat) : (s.count i).cls = s.cls := State.countBy_cls s _ _
@[simp] theorem State.count_flow (s : State) (i : Nat) : (s.count i).flow = s.flow := State.countBy_flow s _ _
@[simp] theorem State.count_usch (s : State) (i : Nat) : (s.count i).usch = s.usch := State.countBy_usch s _ _
@[simp] theorem State.count_grt (s : State) (i : Nat) : (s.count i).grt = s.grt := State.countBy_grt s _ _
@[simp] theorem State.count_pol (s : State) (i : Nat) : (s.count i).pol = s.pol := State.countBy_pol s _ _
@[simp] theorem State.count_frm (s : State) (i : Nat) : (s.count i).frm = s.frm := State.countBy_frm s _ _
@[simp] theorem State.count_pm (s : State) (i : Nat) : (s.count i).pm = s.pm := State.countBy_pm s _ _
@[simp] theorem State.count_lsec (s : State) (i : Nat) : (s.count i).lsec = s.lsec := State.countBy_lsec s _ _
@[simp] theorem State.count_rel (s : State) (i : Nat) : (s.count i).rel = s.rel := State.countBy_rel s _ _
@[simp] theorem State.count_hal (s : State) (i : Nat) : (s.count i).hal = s.hal := State.countBy_hal s _ _
@[simp] theorem State.count_sram (s : State) (i : Nat) : (s.count i).sram = s.sram := State.countBy_sram s _ _
@[simp] theorem State.count_dual (s : State) (i : Nat) : (s.count i).dual = s.dual := State.countBy_dual s _ _
@[simp] theorem State.count_snap (s : State) (i : Nat) : (s.count i).snap = s.snap := State.countBy_snap s _ _
@[simp] theorem State.count_time (s : State) (i : Nat) : (s.count i).time = s.time := State.countBy_time s _ _
@[simp] theorem State.count_act (s : State) (i : Nat) : (s.count i).act = s.act := State.countBy_act s _ _
@[simp] theorem State.count_noticeNext (s : State) (i : Nat) : (s.count i).noticeNext = s.noticeNext := State.countBy_noticeNext s _ _
@[simp] theorem State.count_ccry (s : State) (i : Nat) : (s.count i).ccry = s.ccry := State.countBy_ccry s _ _
@[simp] theorem State.count_kst (s : State) (i : Nat) : (s.count i).kst = s.kst := State.countBy_kst s _ _
@[simp] theorem State.count_clk (s : State) (i : Nat) : (s.count i).clk = s.clk := State.countBy_clk s _ _
@[simp] theorem State.count_lehr (s : State) (i : Nat) : (s.count i).lehr = s.lehr := State.countBy_lehr s _ _
@[simp] theorem State.count_tap (s : State) (i : Nat) : (s.count i).tap = s.tap := State.countBy_tap s _ _
@[simp] theorem State.count_sup (s : State) (i : Nat) : (s.count i).sup = s.sup := State.countBy_sup s _ _
@[simp] theorem State.count_keep (s : State) (i : Nat) : (s.count i).keep = s.keep := State.countBy_keep s _ _
@[simp] theorem State.count_core (s : State) (i : Nat) : (s.count i).core = s.core := State.countBy_core s _ _
@[simp] theorem State.count_flsh (s : State) (i : Nat) : (s.count i).flsh = s.flsh := State.countBy_flsh s _ _
@[simp] theorem State.count_pending (s : State) (i : Nat) : (s.count i).pending = s.pending := State.countBy_pending s _ _
@[simp] theorem State.reg_count (s : State) (i : Nat) (q off' : Nat) : (s.count i).reg q off' = s.reg q off' := State.reg_of_rf (State.count_rf s _) _ _
@[simp] theorem State.fld_count (s : State) (i : Nat) (q : Nat) (g : Fld) : (s.count i).fld q g = s.fld q g := State.fld_of_rf (State.count_rf s _) _ _
@[simp] theorem State.flag_count (s : State) (i : Nat) (q : Nat) (g : Fld) : (s.count i).flag q g = s.flag q g := State.flag_of_rf (State.count_rf s _) _ _
@[simp] theorem State.enabled_count (s : State) (i : Nat) (q : Nat) : (s.count i).enabled q = s.enabled q := State.enabled_of_rf (State.count_rf s _) _
@[simp] theorem State.tw_count (s : State) (i : Nat) (q t' e' w' : Nat) : (s.count i).tw q t' e' w' = s.tw q t' e' w' := State.tw_of_tables (State.count_tables s _) _ _ _ _
@[simp] theorem State.tf_count (s : State) (i : Nat) (q t' e' w' h' l' : Nat) : (s.count i).tf q t' e' w' h' l' = s.tf q t' e' w' h' l' := State.tf_of_tables (State.count_tables s _) _ _ _ _ _ _
@[simp] theorem State.tb_count (s : State) (i : Nat) (q t' e' w' l' : Nat) : (s.count i).tb q t' e' w' l' = s.tb q t' e' w' l' := State.tb_of_tables (State.count_tables s _) _ _ _ _ _

@[simp] theorem State.emit_rf (s : State) (e : Emission) : (s.emit e).rf = s.rf := State.modOut_rf s _
@[simp] theorem State.emit_tables (s : State) (e : Emission) : (s.emit e).tables = s.tables := State.modOut_tables s _
@[simp] theorem State.emit_wins (s : State) (e : Emission) : (s.emit e).wins = s.wins := State.modOut_wins s _
@[simp] theorem State.emit_cnt (s : State) (e : Emission) : (s.emit e).cnt = s.cnt := State.modOut_cnt s _
@[simp] theorem State.emit_penn (s : State) (e : Emission) : (s.emit e).penn = s.penn := State.modOut_penn s _
@[simp] theorem State.emit_limited (s : State) (e : Emission) : (s.emit e).limited = s.limited := State.modOut_limited s _
@[simp] theorem State.emit_now (s : State) (e : Emission) : (s.emit e).now = s.now := State.modOut_now s _
@[simp] theorem State.emit_readData (s : State) (e : Emission) : (s.emit e).readData = s.readData := State.modOut_readData s _
@[simp] theorem State.emit_readHigh (s : State) (e : Emission) : (s.emit e).readHigh = s.readHigh := State.modOut_readHigh s _
@[simp] theorem State.emit_freeIx (s : State) (e : Emission) : (s.emit e).freeIx = s.freeIx := State.modOut_freeIx s _
@[simp] theorem State.emit_rx (s : State) (e : Emission) : (s.emit e).rx = s.rx := State.modOut_rx s _
@[simp] theorem State.emit_tx (s : State) (e : Emission) : (s.emit e).tx = s.tx := State.modOut_tx s _
@[simp] theorem State.emit_hif (s : State) (e : Emission) : (s.emit e).hif = s.hif := State.modOut_hif s _
@[simp] theorem State.emit_dma (s : State) (e : Emission) : (s.emit e).dma = s.dma := State.modOut_dma s _
@[simp] theorem State.emit_uni (s : State) (e : Emission) : (s.emit e).uni = s.uni := State.modOut_uni s _
@[simp] theorem State.emit_tsk (s : State) (e : Emission) : (s.emit e).tsk = s.tsk := State.modOut_tsk s _
@[simp] theorem State.emit_sto (s : State) (e : Emission) : (s.emit e).sto = s.sto := State.modOut_sto s _
@[simp] theorem State.emit_xtr (s : State) (e : Emission) : (s.emit e).xtr = s.xtr := State.modOut_xtr s _
@[simp] theorem State.emit_cls (s : State) (e : Emission) : (s.emit e).cls = s.cls := State.modOut_cls s _
@[simp] theorem State.emit_flow (s : State) (e : Emission) : (s.emit e).flow = s.flow := State.modOut_flow s _
@[simp] theorem State.emit_usch (s : State) (e : Emission) : (s.emit e).usch = s.usch := State.modOut_usch s _
@[simp] theorem State.emit_grt (s : State) (e : Emission) : (s.emit e).grt = s.grt := State.modOut_grt s _
@[simp] theorem State.emit_pol (s : State) (e : Emission) : (s.emit e).pol = s.pol := State.modOut_pol s _
@[simp] theorem State.emit_frm (s : State) (e : Emission) : (s.emit e).frm = s.frm := State.modOut_frm s _
@[simp] theorem State.emit_pm (s : State) (e : Emission) : (s.emit e).pm = s.pm := State.modOut_pm s _
@[simp] theorem State.emit_lsec (s : State) (e : Emission) : (s.emit e).lsec = s.lsec := State.modOut_lsec s _
@[simp] theorem State.emit_rel (s : State) (e : Emission) : (s.emit e).rel = s.rel := State.modOut_rel s _
@[simp] theorem State.emit_hal (s : State) (e : Emission) : (s.emit e).hal = s.hal := State.modOut_hal s _
@[simp] theorem State.emit_sram (s : State) (e : Emission) : (s.emit e).sram = s.sram := State.modOut_sram s _
@[simp] theorem State.emit_dual (s : State) (e : Emission) : (s.emit e).dual = s.dual := State.modOut_dual s _
@[simp] theorem State.emit_snap (s : State) (e : Emission) : (s.emit e).snap = s.snap := State.modOut_snap s _
@[simp] theorem State.emit_time (s : State) (e : Emission) : (s.emit e).time = s.time := State.modOut_time s _
@[simp] theorem State.emit_act (s : State) (e : Emission) : (s.emit e).act = s.act := State.modOut_act s _
@[simp] theorem State.emit_noticeNext (s : State) (e : Emission) : (s.emit e).noticeNext = s.noticeNext := State.modOut_noticeNext s _
@[simp] theorem State.emit_ccry (s : State) (e : Emission) : (s.emit e).ccry = s.ccry := State.modOut_ccry s _
@[simp] theorem State.emit_kst (s : State) (e : Emission) : (s.emit e).kst = s.kst := State.modOut_kst s _
@[simp] theorem State.emit_clk (s : State) (e : Emission) : (s.emit e).clk = s.clk := State.modOut_clk s _
@[simp] theorem State.emit_lehr (s : State) (e : Emission) : (s.emit e).lehr = s.lehr := State.modOut_lehr s _
@[simp] theorem State.emit_tap (s : State) (e : Emission) : (s.emit e).tap = s.tap := State.modOut_tap s _
@[simp] theorem State.emit_sup (s : State) (e : Emission) : (s.emit e).sup = s.sup := State.modOut_sup s _
@[simp] theorem State.emit_keep (s : State) (e : Emission) : (s.emit e).keep = s.keep := State.modOut_keep s _
@[simp] theorem State.emit_core (s : State) (e : Emission) : (s.emit e).core = s.core := State.modOut_core s _
@[simp] theorem State.emit_flsh (s : State) (e : Emission) : (s.emit e).flsh = s.flsh := State.modOut_flsh s _
@[simp] theorem State.emit_pending (s : State) (e : Emission) : (s.emit e).pending = s.pending := State.modOut_pending s _
@[simp] theorem State.reg_emit (s : State) (e : Emission) (q off' : Nat) : (s.emit e).reg q off' = s.reg q off' := State.reg_of_rf (State.emit_rf s _) _ _
@[simp] theorem State.fld_emit (s : State) (e : Emission) (q : Nat) (g : Fld) : (s.emit e).fld q g = s.fld q g := State.fld_of_rf (State.emit_rf s _) _ _
@[simp] theorem State.flag_emit (s : State) (e : Emission) (q : Nat) (g : Fld) : (s.emit e).flag q g = s.flag q g := State.flag_of_rf (State.emit_rf s _) _ _
@[simp] theorem State.enabled_emit (s : State) (e : Emission) (q : Nat) : (s.emit e).enabled q = s.enabled q := State.enabled_of_rf (State.emit_rf s _) _
@[simp] theorem State.tw_emit (s : State) (e : Emission) (q t' e' w' : Nat) : (s.emit e).tw q t' e' w' = s.tw q t' e' w' := State.tw_of_tables (State.emit_tables s _) _ _ _ _
@[simp] theorem State.tf_emit (s : State) (e : Emission) (q t' e' w' h' l' : Nat) : (s.emit e).tf q t' e' w' h' l' = s.tf q t' e' w' h' l' := State.tf_of_tables (State.emit_tables s _) _ _ _ _ _ _
@[simp] theorem State.tb_emit (s : State) (e : Emission) (q t' e' w' l' : Nat) : (s.emit e).tb q t' e' w' l' = s.tb q t' e' w' l' := State.tb_of_tables (State.emit_tables s _) _ _ _ _ _
@[simp] theorem State.counter_emit (s : State) (e : Emission) (j : Nat) : (s.emit e).counter j = s.counter j := State.counter_of_cnt (State.emit_cnt s _) _

@[simp] theorem State.useFree_rf (s : State) : (s.useFree).rf = s.rf := State.modFreeIx_rf s _
@[simp] theorem State.useFree_tables (s : State) : (s.useFree).tables = s.tables := State.modFreeIx_tables s _
@[simp] theorem State.useFree_wins (s : State) : (s.useFree).wins = s.wins := State.modFreeIx_wins s _
@[simp] theorem State.useFree_cnt (s : State) : (s.useFree).cnt = s.cnt := State.modFreeIx_cnt s _
@[simp] theorem State.useFree_penn (s : State) : (s.useFree).penn = s.penn := State.modFreeIx_penn s _
@[simp] theorem State.useFree_limited (s : State) : (s.useFree).limited = s.limited := State.modFreeIx_limited s _
@[simp] theorem State.useFree_out (s : State) : (s.useFree).out = s.out := State.modFreeIx_out s _
@[simp] theorem State.useFree_now (s : State) : (s.useFree).now = s.now := State.modFreeIx_now s _
@[simp] theorem State.useFree_readData (s : State) : (s.useFree).readData = s.readData := State.modFreeIx_readData s _
@[simp] theorem State.useFree_readHigh (s : State) : (s.useFree).readHigh = s.readHigh := State.modFreeIx_readHigh s _
@[simp] theorem State.useFree_rx (s : State) : (s.useFree).rx = s.rx := State.modFreeIx_rx s _
@[simp] theorem State.useFree_tx (s : State) : (s.useFree).tx = s.tx := State.modFreeIx_tx s _
@[simp] theorem State.useFree_hif (s : State) : (s.useFree).hif = s.hif := State.modFreeIx_hif s _
@[simp] theorem State.useFree_dma (s : State) : (s.useFree).dma = s.dma := State.modFreeIx_dma s _
@[simp] theorem State.useFree_uni (s : State) : (s.useFree).uni = s.uni := State.modFreeIx_uni s _
@[simp] theorem State.useFree_tsk (s : State) : (s.useFree).tsk = s.tsk := State.modFreeIx_tsk s _
@[simp] theorem State.useFree_sto (s : State) : (s.useFree).sto = s.sto := State.modFreeIx_sto s _
@[simp] theorem State.useFree_xtr (s : State) : (s.useFree).xtr = s.xtr := State.modFreeIx_xtr s _
@[simp] theorem State.useFree_cls (s : State) : (s.useFree).cls = s.cls := State.modFreeIx_cls s _
@[simp] theorem State.useFree_flow (s : State) : (s.useFree).flow = s.flow := State.modFreeIx_flow s _
@[simp] theorem State.useFree_usch (s : State) : (s.useFree).usch = s.usch := State.modFreeIx_usch s _
@[simp] theorem State.useFree_grt (s : State) : (s.useFree).grt = s.grt := State.modFreeIx_grt s _
@[simp] theorem State.useFree_pol (s : State) : (s.useFree).pol = s.pol := State.modFreeIx_pol s _
@[simp] theorem State.useFree_frm (s : State) : (s.useFree).frm = s.frm := State.modFreeIx_frm s _
@[simp] theorem State.useFree_pm (s : State) : (s.useFree).pm = s.pm := State.modFreeIx_pm s _
@[simp] theorem State.useFree_lsec (s : State) : (s.useFree).lsec = s.lsec := State.modFreeIx_lsec s _
@[simp] theorem State.useFree_rel (s : State) : (s.useFree).rel = s.rel := State.modFreeIx_rel s _
@[simp] theorem State.useFree_hal (s : State) : (s.useFree).hal = s.hal := State.modFreeIx_hal s _
@[simp] theorem State.useFree_sram (s : State) : (s.useFree).sram = s.sram := State.modFreeIx_sram s _
@[simp] theorem State.useFree_dual (s : State) : (s.useFree).dual = s.dual := State.modFreeIx_dual s _
@[simp] theorem State.useFree_snap (s : State) : (s.useFree).snap = s.snap := State.modFreeIx_snap s _
@[simp] theorem State.useFree_time (s : State) : (s.useFree).time = s.time := State.modFreeIx_time s _
@[simp] theorem State.useFree_act (s : State) : (s.useFree).act = s.act := State.modFreeIx_act s _
@[simp] theorem State.useFree_noticeNext (s : State) : (s.useFree).noticeNext = s.noticeNext := State.modFreeIx_noticeNext s _
@[simp] theorem State.useFree_ccry (s : State) : (s.useFree).ccry = s.ccry := State.modFreeIx_ccry s _
@[simp] theorem State.useFree_kst (s : State) : (s.useFree).kst = s.kst := State.modFreeIx_kst s _
@[simp] theorem State.useFree_clk (s : State) : (s.useFree).clk = s.clk := State.modFreeIx_clk s _
@[simp] theorem State.useFree_lehr (s : State) : (s.useFree).lehr = s.lehr := State.modFreeIx_lehr s _
@[simp] theorem State.useFree_tap (s : State) : (s.useFree).tap = s.tap := State.modFreeIx_tap s _
@[simp] theorem State.useFree_sup (s : State) : (s.useFree).sup = s.sup := State.modFreeIx_sup s _
@[simp] theorem State.useFree_keep (s : State) : (s.useFree).keep = s.keep := State.modFreeIx_keep s _
@[simp] theorem State.useFree_core (s : State) : (s.useFree).core = s.core := State.modFreeIx_core s _
@[simp] theorem State.useFree_flsh (s : State) : (s.useFree).flsh = s.flsh := State.modFreeIx_flsh s _
@[simp] theorem State.useFree_pending (s : State) : (s.useFree).pending = s.pending := State.modFreeIx_pending s _
@[simp] theorem State.reg_useFree (s : State) (q off' : Nat) : (s.useFree).reg q off' = s.reg q off' := State.reg_of_rf (State.useFree_rf s) _ _
@[simp] theorem State.fld_useFree (s : State) (q : Nat) (g : Fld) : (s.useFree).fld q g = s.fld q g := State.fld_of_rf (State.useFree_rf s) _ _
@[simp] theorem State.flag_useFree (s : State) (q : Nat) (g : Fld) : (s.useFree).flag q g = s.flag q g := State.flag_of_rf (State.useFree_rf s) _ _
@[simp] theorem State.enabled_useFree (s : State) (q : Nat) : (s.useFree).enabled q = s.enabled q := State.enabled_of_rf (State.useFree_rf s) _
@[simp] theorem State.tw_useFree (s : State) (q t' e' w' : Nat) : (s.useFree).tw q t' e' w' = s.tw q t' e' w' := State.tw_of_tables (State.useFree_tables s) _ _ _ _
@[simp] theorem State.tf_useFree (s : State) (q t' e' w' h' l' : Nat) : (s.useFree).tf q t' e' w' h' l' = s.tf q t' e' w' h' l' := State.tf_of_tables (State.useFree_tables s) _ _ _ _ _ _
@[simp] theorem State.tb_useFree (s : State) (q t' e' w' l' : Nat) : (s.useFree).tb q t' e' w' l' = s.tb q t' e' w' l' := State.tb_of_tables (State.useFree_tables s) _ _ _ _ _
@[simp] theorem State.counter_useFree (s : State) (j : Nat) : (s.useFree).counter j = s.counter j := State.counter_of_cnt (State.useFree_cnt s) _

@[simp] theorem State.tw_modRf (s : State) (f : RegFile → RegFile) (q t' e' w' : Nat) : (s.modRf f).tw q t' e' w' = s.tw q t' e' w' := State.tw_of_tables (State.modRf_tables s _) _ _ _ _
@[simp] theorem State.tf_modRf (s : State) (f : RegFile → RegFile) (q t' e' w' h' l' : Nat) : (s.modRf f).tf q t' e' w' h' l' = s.tf q t' e' w' h' l' := State.tf_of_tables (State.modRf_tables s _) _ _ _ _ _ _
@[simp] theorem State.tb_modRf (s : State) (f : RegFile → RegFile) (q t' e' w' l' : Nat) : (s.modRf f).tb q t' e' w' l' = s.tb q t' e' w' l' := State.tb_of_tables (State.modRf_tables s _) _ _ _ _ _
@[simp] theorem State.counter_modRf (s : State) (f : RegFile → RegFile) (j : Nat) : (s.modRf f).counter j = s.counter j := State.counter_of_cnt (State.modRf_cnt s _) _
@[simp] theorem State.reg_modTables (s : State) (f : Sparse Word → Sparse Word) (q off' : Nat) : (s.modTables f).reg q off' = s.reg q off' := State.reg_of_rf (State.modTables_rf s _) _ _
@[simp] theorem State.fld_modTables (s : State) (f : Sparse Word → Sparse Word) (q : Nat) (g : Fld) : (s.modTables f).fld q g = s.fld q g := State.fld_of_rf (State.modTables_rf s _) _ _
@[simp] theorem State.flag_modTables (s : State) (f : Sparse Word → Sparse Word) (q : Nat) (g : Fld) : (s.modTables f).flag q g = s.flag q g := State.flag_of_rf (State.modTables_rf s _) _ _
@[simp] theorem State.enabled_modTables (s : State) (f : Sparse Word → Sparse Word) (q : Nat) : (s.modTables f).enabled q = s.enabled q := State.enabled_of_rf (State.modTables_rf s _) _
@[simp] theorem State.counter_modTables (s : State) (f : Sparse Word → Sparse Word) (j : Nat) : (s.modTables f).counter j = s.counter j := State.counter_of_cnt (State.modTables_cnt s _) _
@[simp] theorem State.reg_modWins (s : State) (f : Sparse IndWin → Sparse IndWin) (q off' : Nat) : (s.modWins f).reg q off' = s.reg q off' := State.reg_of_rf (State.modWins_rf s _) _ _
@[simp] theorem State.fld_modWins (s : State) (f : Sparse IndWin → Sparse IndWin) (q : Nat) (g : Fld) : (s.modWins f).fld q g = s.fld q g := State.fld_of_rf (State.modWins_rf s _) _ _
@[simp] theorem State.flag_modWins (s : State) (f : Sparse IndWin → Sparse IndWin) (q : Nat) (g : Fld) : (s.modWins f).flag q g = s.flag q g := State.flag_of_rf (State.modWins_rf s _) _ _
@[simp] theorem State.enabled_modWins (s : State) (f : Sparse IndWin → Sparse IndWin) (q : Nat) : (s.modWins f).enabled q = s.enabled q := State.enabled_of_rf (State.modWins_rf s _) _
@[simp] theorem State.tw_modWins (s : State) (f : Sparse IndWin → Sparse IndWin) (q t' e' w' : Nat) : (s.modWins f).tw q t' e' w' = s.tw q t' e' w' := State.tw_of_tables (State.modWins_tables s _) _ _ _ _
@[simp] theorem State.tf_modWins (s : State) (f : Sparse IndWin → Sparse IndWin) (q t' e' w' h' l' : Nat) : (s.modWins f).tf q t' e' w' h' l' = s.tf q t' e' w' h' l' := State.tf_of_tables (State.modWins_tables s _) _ _ _ _ _ _
@[simp] theorem State.tb_modWins (s : State) (f : Sparse IndWin → Sparse IndWin) (q t' e' w' l' : Nat) : (s.modWins f).tb q t' e' w' l' = s.tb q t' e' w' l' := State.tb_of_tables (State.modWins_tables s _) _ _ _ _ _
@[simp] theorem State.counter_modWins (s : State) (f : Sparse IndWin → Sparse IndWin) (j : Nat) : (s.modWins f).counter j = s.counter j := State.counter_of_cnt (State.modWins_cnt s _) _
@[simp] theorem State.reg_modCnt (s : State) (f : Counts → Counts) (q off' : Nat) : (s.modCnt f).reg q off' = s.reg q off' := State.reg_of_rf (State.modCnt_rf s _) _ _
@[simp] theorem State.fld_modCnt (s : State) (f : Counts → Counts) (q : Nat) (g : Fld) : (s.modCnt f).fld q g = s.fld q g := State.fld_of_rf (State.modCnt_rf s _) _ _
@[simp] theorem State.flag_modCnt (s : State) (f : Counts → Counts) (q : Nat) (g : Fld) : (s.modCnt f).flag q g = s.flag q g := State.flag_of_rf (State.modCnt_rf s _) _ _
@[simp] theorem State.enabled_modCnt (s : State) (f : Counts → Counts) (q : Nat) : (s.modCnt f).enabled q = s.enabled q := State.enabled_of_rf (State.modCnt_rf s _) _
@[simp] theorem State.tw_modCnt (s : State) (f : Counts → Counts) (q t' e' w' : Nat) : (s.modCnt f).tw q t' e' w' = s.tw q t' e' w' := State.tw_of_tables (State.modCnt_tables s _) _ _ _ _
@[simp] theorem State.tf_modCnt (s : State) (f : Counts → Counts) (q t' e' w' h' l' : Nat) : (s.modCnt f).tf q t' e' w' h' l' = s.tf q t' e' w' h' l' := State.tf_of_tables (State.modCnt_tables s _) _ _ _ _ _ _
@[simp] theorem State.tb_modCnt (s : State) (f : Counts → Counts) (q t' e' w' l' : Nat) : (s.modCnt f).tb q t' e' w' l' = s.tb q t' e' w' l' := State.tb_of_tables (State.modCnt_tables s _) _ _ _ _ _
@[simp] theorem State.reg_modPenn (s : State) (f : Sparse PennSt → Sparse PennSt) (q off' : Nat) : (s.modPenn f).reg q off' = s.reg q off' := State.reg_of_rf (State.modPenn_rf s _) _ _
@[simp] theorem State.fld_modPenn (s : State) (f : Sparse PennSt → Sparse PennSt) (q : Nat) (g : Fld) : (s.modPenn f).fld q g = s.fld q g := State.fld_of_rf (State.modPenn_rf s _) _ _
@[simp] theorem State.flag_modPenn (s : State) (f : Sparse PennSt → Sparse PennSt) (q : Nat) (g : Fld) : (s.modPenn f).flag q g = s.flag q g := State.flag_of_rf (State.modPenn_rf s _) _ _
@[simp] theorem State.enabled_modPenn (s : State) (f : Sparse PennSt → Sparse PennSt) (q : Nat) : (s.modPenn f).enabled q = s.enabled q := State.enabled_of_rf (State.modPenn_rf s _) _
@[simp] theorem State.tw_modPenn (s : State) (f : Sparse PennSt → Sparse PennSt) (q t' e' w' : Nat) : (s.modPenn f).tw q t' e' w' = s.tw q t' e' w' := State.tw_of_tables (State.modPenn_tables s _) _ _ _ _
@[simp] theorem State.tf_modPenn (s : State) (f : Sparse PennSt → Sparse PennSt) (q t' e' w' h' l' : Nat) : (s.modPenn f).tf q t' e' w' h' l' = s.tf q t' e' w' h' l' := State.tf_of_tables (State.modPenn_tables s _) _ _ _ _ _ _
@[simp] theorem State.tb_modPenn (s : State) (f : Sparse PennSt → Sparse PennSt) (q t' e' w' l' : Nat) : (s.modPenn f).tb q t' e' w' l' = s.tb q t' e' w' l' := State.tb_of_tables (State.modPenn_tables s _) _ _ _ _ _
@[simp] theorem State.counter_modPenn (s : State) (f : Sparse PennSt → Sparse PennSt) (j : Nat) : (s.modPenn f).counter j = s.counter j := State.counter_of_cnt (State.modPenn_cnt s _) _
@[simp] theorem State.reg_modLimited (s : State) (f : Sparse Nat → Sparse Nat) (q off' : Nat) : (s.modLimited f).reg q off' = s.reg q off' := State.reg_of_rf (State.modLimited_rf s _) _ _
@[simp] theorem State.fld_modLimited (s : State) (f : Sparse Nat → Sparse Nat) (q : Nat) (g : Fld) : (s.modLimited f).fld q g = s.fld q g := State.fld_of_rf (State.modLimited_rf s _) _ _
@[simp] theorem State.flag_modLimited (s : State) (f : Sparse Nat → Sparse Nat) (q : Nat) (g : Fld) : (s.modLimited f).flag q g = s.flag q g := State.flag_of_rf (State.modLimited_rf s _) _ _
@[simp] theorem State.enabled_modLimited (s : State) (f : Sparse Nat → Sparse Nat) (q : Nat) : (s.modLimited f).enabled q = s.enabled q := State.enabled_of_rf (State.modLimited_rf s _) _
@[simp] theorem State.tw_modLimited (s : State) (f : Sparse Nat → Sparse Nat) (q t' e' w' : Nat) : (s.modLimited f).tw q t' e' w' = s.tw q t' e' w' := State.tw_of_tables (State.modLimited_tables s _) _ _ _ _
@[simp] theorem State.tf_modLimited (s : State) (f : Sparse Nat → Sparse Nat) (q t' e' w' h' l' : Nat) : (s.modLimited f).tf q t' e' w' h' l' = s.tf q t' e' w' h' l' := State.tf_of_tables (State.modLimited_tables s _) _ _ _ _ _ _
@[simp] theorem State.tb_modLimited (s : State) (f : Sparse Nat → Sparse Nat) (q t' e' w' l' : Nat) : (s.modLimited f).tb q t' e' w' l' = s.tb q t' e' w' l' := State.tb_of_tables (State.modLimited_tables s _) _ _ _ _ _
@[simp] theorem State.counter_modLimited (s : State) (f : Sparse Nat → Sparse Nat) (j : Nat) : (s.modLimited f).counter j = s.counter j := State.counter_of_cnt (State.modLimited_cnt s _) _
@[simp] theorem State.reg_modOut (s : State) (f : List Emission → List Emission) (q off' : Nat) : (s.modOut f).reg q off' = s.reg q off' := State.reg_of_rf (State.modOut_rf s _) _ _
@[simp] theorem State.fld_modOut (s : State) (f : List Emission → List Emission) (q : Nat) (g : Fld) : (s.modOut f).fld q g = s.fld q g := State.fld_of_rf (State.modOut_rf s _) _ _
@[simp] theorem State.flag_modOut (s : State) (f : List Emission → List Emission) (q : Nat) (g : Fld) : (s.modOut f).flag q g = s.flag q g := State.flag_of_rf (State.modOut_rf s _) _ _
@[simp] theorem State.enabled_modOut (s : State) (f : List Emission → List Emission) (q : Nat) : (s.modOut f).enabled q = s.enabled q := State.enabled_of_rf (State.modOut_rf s _) _
@[simp] theorem State.tw_modOut (s : State) (f : List Emission → List Emission) (q t' e' w' : Nat) : (s.modOut f).tw q t' e' w' = s.tw q t' e' w' := State.tw_of_tables (State.modOut_tables s _) _ _ _ _
@[simp] theorem State.tf_modOut (s : State) (f : List Emission → List Emission) (q t' e' w' h' l' : Nat) : (s.modOut f).tf q t' e' w' h' l' = s.tf q t' e' w' h' l' := State.tf_of_tables (State.modOut_tables s _) _ _ _ _ _ _
@[simp] theorem State.tb_modOut (s : State) (f : List Emission → List Emission) (q t' e' w' l' : Nat) : (s.modOut f).tb q t' e' w' l' = s.tb q t' e' w' l' := State.tb_of_tables (State.modOut_tables s _) _ _ _ _ _
@[simp] theorem State.counter_modOut (s : State) (f : List Emission → List Emission) (j : Nat) : (s.modOut f).counter j = s.counter j := State.counter_of_cnt (State.modOut_cnt s _) _
@[simp] theorem State.reg_modNow (s : State) (f : Nat → Nat) (q off' : Nat) : (s.modNow f).reg q off' = s.reg q off' := State.reg_of_rf (State.modNow_rf s _) _ _
@[simp] theorem State.fld_modNow (s : State) (f : Nat → Nat) (q : Nat) (g : Fld) : (s.modNow f).fld q g = s.fld q g := State.fld_of_rf (State.modNow_rf s _) _ _
@[simp] theorem State.flag_modNow (s : State) (f : Nat → Nat) (q : Nat) (g : Fld) : (s.modNow f).flag q g = s.flag q g := State.flag_of_rf (State.modNow_rf s _) _ _
@[simp] theorem State.enabled_modNow (s : State) (f : Nat → Nat) (q : Nat) : (s.modNow f).enabled q = s.enabled q := State.enabled_of_rf (State.modNow_rf s _) _
@[simp] theorem State.tw_modNow (s : State) (f : Nat → Nat) (q t' e' w' : Nat) : (s.modNow f).tw q t' e' w' = s.tw q t' e' w' := State.tw_of_tables (State.modNow_tables s _) _ _ _ _
@[simp] theorem State.tf_modNow (s : State) (f : Nat → Nat) (q t' e' w' h' l' : Nat) : (s.modNow f).tf q t' e' w' h' l' = s.tf q t' e' w' h' l' := State.tf_of_tables (State.modNow_tables s _) _ _ _ _ _ _
@[simp] theorem State.tb_modNow (s : State) (f : Nat → Nat) (q t' e' w' l' : Nat) : (s.modNow f).tb q t' e' w' l' = s.tb q t' e' w' l' := State.tb_of_tables (State.modNow_tables s _) _ _ _ _ _
@[simp] theorem State.counter_modNow (s : State) (f : Nat → Nat) (j : Nat) : (s.modNow f).counter j = s.counter j := State.counter_of_cnt (State.modNow_cnt s _) _
@[simp] theorem State.reg_modReadData (s : State) (f : Word → Word) (q off' : Nat) : (s.modReadData f).reg q off' = s.reg q off' := State.reg_of_rf (State.modReadData_rf s _) _ _
@[simp] theorem State.fld_modReadData (s : State) (f : Word → Word) (q : Nat) (g : Fld) : (s.modReadData f).fld q g = s.fld q g := State.fld_of_rf (State.modReadData_rf s _) _ _
@[simp] theorem State.flag_modReadData (s : State) (f : Word → Word) (q : Nat) (g : Fld) : (s.modReadData f).flag q g = s.flag q g := State.flag_of_rf (State.modReadData_rf s _) _ _
@[simp] theorem State.enabled_modReadData (s : State) (f : Word → Word) (q : Nat) : (s.modReadData f).enabled q = s.enabled q := State.enabled_of_rf (State.modReadData_rf s _) _
@[simp] theorem State.tw_modReadData (s : State) (f : Word → Word) (q t' e' w' : Nat) : (s.modReadData f).tw q t' e' w' = s.tw q t' e' w' := State.tw_of_tables (State.modReadData_tables s _) _ _ _ _
@[simp] theorem State.tf_modReadData (s : State) (f : Word → Word) (q t' e' w' h' l' : Nat) : (s.modReadData f).tf q t' e' w' h' l' = s.tf q t' e' w' h' l' := State.tf_of_tables (State.modReadData_tables s _) _ _ _ _ _ _
@[simp] theorem State.tb_modReadData (s : State) (f : Word → Word) (q t' e' w' l' : Nat) : (s.modReadData f).tb q t' e' w' l' = s.tb q t' e' w' l' := State.tb_of_tables (State.modReadData_tables s _) _ _ _ _ _
@[simp] theorem State.counter_modReadData (s : State) (f : Word → Word) (j : Nat) : (s.modReadData f).counter j = s.counter j := State.counter_of_cnt (State.modReadData_cnt s _) _
@[simp] theorem State.reg_modFreeIx (s : State) (f : Nat → Nat) (q off' : Nat) : (s.modFreeIx f).reg q off' = s.reg q off' := State.reg_of_rf (State.modFreeIx_rf s _) _ _
@[simp] theorem State.fld_modFreeIx (s : State) (f : Nat → Nat) (q : Nat) (g : Fld) : (s.modFreeIx f).fld q g = s.fld q g := State.fld_of_rf (State.modFreeIx_rf s _) _ _
@[simp] theorem State.flag_modFreeIx (s : State) (f : Nat → Nat) (q : Nat) (g : Fld) : (s.modFreeIx f).flag q g = s.flag q g := State.flag_of_rf (State.modFreeIx_rf s _) _ _
@[simp] theorem State.enabled_modFreeIx (s : State) (f : Nat → Nat) (q : Nat) : (s.modFreeIx f).enabled q = s.enabled q := State.enabled_of_rf (State.modFreeIx_rf s _) _
@[simp] theorem State.tw_modFreeIx (s : State) (f : Nat → Nat) (q t' e' w' : Nat) : (s.modFreeIx f).tw q t' e' w' = s.tw q t' e' w' := State.tw_of_tables (State.modFreeIx_tables s _) _ _ _ _
@[simp] theorem State.tf_modFreeIx (s : State) (f : Nat → Nat) (q t' e' w' h' l' : Nat) : (s.modFreeIx f).tf q t' e' w' h' l' = s.tf q t' e' w' h' l' := State.tf_of_tables (State.modFreeIx_tables s _) _ _ _ _ _ _
@[simp] theorem State.tb_modFreeIx (s : State) (f : Nat → Nat) (q t' e' w' l' : Nat) : (s.modFreeIx f).tb q t' e' w' l' = s.tb q t' e' w' l' := State.tb_of_tables (State.modFreeIx_tables s _) _ _ _ _ _
@[simp] theorem State.counter_modFreeIx (s : State) (f : Nat → Nat) (j : Nat) : (s.modFreeIx f).counter j = s.counter j := State.counter_of_cnt (State.modFreeIx_cnt s _) _
@[simp] theorem State.reg_modRx (s : State) (f : PerRx RxSt → PerRx RxSt) (q off' : Nat) : (s.modRx f).reg q off' = s.reg q off' := State.reg_of_rf (State.modRx_rf s _) _ _
@[simp] theorem State.fld_modRx (s : State) (f : PerRx RxSt → PerRx RxSt) (q : Nat) (g : Fld) : (s.modRx f).fld q g = s.fld q g := State.fld_of_rf (State.modRx_rf s _) _ _
@[simp] theorem State.flag_modRx (s : State) (f : PerRx RxSt → PerRx RxSt) (q : Nat) (g : Fld) : (s.modRx f).flag q g = s.flag q g := State.flag_of_rf (State.modRx_rf s _) _ _
@[simp] theorem State.enabled_modRx (s : State) (f : PerRx RxSt → PerRx RxSt) (q : Nat) : (s.modRx f).enabled q = s.enabled q := State.enabled_of_rf (State.modRx_rf s _) _
@[simp] theorem State.tw_modRx (s : State) (f : PerRx RxSt → PerRx RxSt) (q t' e' w' : Nat) : (s.modRx f).tw q t' e' w' = s.tw q t' e' w' := State.tw_of_tables (State.modRx_tables s _) _ _ _ _
@[simp] theorem State.tf_modRx (s : State) (f : PerRx RxSt → PerRx RxSt) (q t' e' w' h' l' : Nat) : (s.modRx f).tf q t' e' w' h' l' = s.tf q t' e' w' h' l' := State.tf_of_tables (State.modRx_tables s _) _ _ _ _ _ _
@[simp] theorem State.tb_modRx (s : State) (f : PerRx RxSt → PerRx RxSt) (q t' e' w' l' : Nat) : (s.modRx f).tb q t' e' w' l' = s.tb q t' e' w' l' := State.tb_of_tables (State.modRx_tables s _) _ _ _ _ _
@[simp] theorem State.counter_modRx (s : State) (f : PerRx RxSt → PerRx RxSt) (j : Nat) : (s.modRx f).counter j = s.counter j := State.counter_of_cnt (State.modRx_cnt s _) _
@[simp] theorem State.reg_modTx (s : State) (f : PerTree TxSt → PerTree TxSt) (q off' : Nat) : (s.modTx f).reg q off' = s.reg q off' := State.reg_of_rf (State.modTx_rf s _) _ _
@[simp] theorem State.fld_modTx (s : State) (f : PerTree TxSt → PerTree TxSt) (q : Nat) (g : Fld) : (s.modTx f).fld q g = s.fld q g := State.fld_of_rf (State.modTx_rf s _) _ _
@[simp] theorem State.flag_modTx (s : State) (f : PerTree TxSt → PerTree TxSt) (q : Nat) (g : Fld) : (s.modTx f).flag q g = s.flag q g := State.flag_of_rf (State.modTx_rf s _) _ _
@[simp] theorem State.enabled_modTx (s : State) (f : PerTree TxSt → PerTree TxSt) (q : Nat) : (s.modTx f).enabled q = s.enabled q := State.enabled_of_rf (State.modTx_rf s _) _
@[simp] theorem State.tw_modTx (s : State) (f : PerTree TxSt → PerTree TxSt) (q t' e' w' : Nat) : (s.modTx f).tw q t' e' w' = s.tw q t' e' w' := State.tw_of_tables (State.modTx_tables s _) _ _ _ _
@[simp] theorem State.tf_modTx (s : State) (f : PerTree TxSt → PerTree TxSt) (q t' e' w' h' l' : Nat) : (s.modTx f).tf q t' e' w' h' l' = s.tf q t' e' w' h' l' := State.tf_of_tables (State.modTx_tables s _) _ _ _ _ _ _
@[simp] theorem State.tb_modTx (s : State) (f : PerTree TxSt → PerTree TxSt) (q t' e' w' l' : Nat) : (s.modTx f).tb q t' e' w' l' = s.tb q t' e' w' l' := State.tb_of_tables (State.modTx_tables s _) _ _ _ _ _
@[simp] theorem State.counter_modTx (s : State) (f : PerTree TxSt → PerTree TxSt) (j : Nat) : (s.modTx f).counter j = s.counter j := State.counter_of_cnt (State.modTx_cnt s _) _
@[simp] theorem State.reg_modHif (s : State) (f : HifSt → HifSt) (q off' : Nat) : (s.modHif f).reg q off' = s.reg q off' := State.reg_of_rf (State.modHif_rf s _) _ _
@[simp] theorem State.fld_modHif (s : State) (f : HifSt → HifSt) (q : Nat) (g : Fld) : (s.modHif f).fld q g = s.fld q g := State.fld_of_rf (State.modHif_rf s _) _ _
@[simp] theorem State.flag_modHif (s : State) (f : HifSt → HifSt) (q : Nat) (g : Fld) : (s.modHif f).flag q g = s.flag q g := State.flag_of_rf (State.modHif_rf s _) _ _
@[simp] theorem State.enabled_modHif (s : State) (f : HifSt → HifSt) (q : Nat) : (s.modHif f).enabled q = s.enabled q := State.enabled_of_rf (State.modHif_rf s _) _
@[simp] theorem State.tw_modHif (s : State) (f : HifSt → HifSt) (q t' e' w' : Nat) : (s.modHif f).tw q t' e' w' = s.tw q t' e' w' := State.tw_of_tables (State.modHif_tables s _) _ _ _ _
@[simp] theorem State.tf_modHif (s : State) (f : HifSt → HifSt) (q t' e' w' h' l' : Nat) : (s.modHif f).tf q t' e' w' h' l' = s.tf q t' e' w' h' l' := State.tf_of_tables (State.modHif_tables s _) _ _ _ _ _ _
@[simp] theorem State.tb_modHif (s : State) (f : HifSt → HifSt) (q t' e' w' l' : Nat) : (s.modHif f).tb q t' e' w' l' = s.tb q t' e' w' l' := State.tb_of_tables (State.modHif_tables s _) _ _ _ _ _
@[simp] theorem State.counter_modHif (s : State) (f : HifSt → HifSt) (j : Nat) : (s.modHif f).counter j = s.counter j := State.counter_of_cnt (State.modHif_cnt s _) _
@[simp] theorem State.reg_modDma (s : State) (f : DmaSt → DmaSt) (q off' : Nat) : (s.modDma f).reg q off' = s.reg q off' := State.reg_of_rf (State.modDma_rf s _) _ _
@[simp] theorem State.fld_modDma (s : State) (f : DmaSt → DmaSt) (q : Nat) (g : Fld) : (s.modDma f).fld q g = s.fld q g := State.fld_of_rf (State.modDma_rf s _) _ _
@[simp] theorem State.flag_modDma (s : State) (f : DmaSt → DmaSt) (q : Nat) (g : Fld) : (s.modDma f).flag q g = s.flag q g := State.flag_of_rf (State.modDma_rf s _) _ _
@[simp] theorem State.enabled_modDma (s : State) (f : DmaSt → DmaSt) (q : Nat) : (s.modDma f).enabled q = s.enabled q := State.enabled_of_rf (State.modDma_rf s _) _
@[simp] theorem State.tw_modDma (s : State) (f : DmaSt → DmaSt) (q t' e' w' : Nat) : (s.modDma f).tw q t' e' w' = s.tw q t' e' w' := State.tw_of_tables (State.modDma_tables s _) _ _ _ _
@[simp] theorem State.tf_modDma (s : State) (f : DmaSt → DmaSt) (q t' e' w' h' l' : Nat) : (s.modDma f).tf q t' e' w' h' l' = s.tf q t' e' w' h' l' := State.tf_of_tables (State.modDma_tables s _) _ _ _ _ _ _
@[simp] theorem State.tb_modDma (s : State) (f : DmaSt → DmaSt) (q t' e' w' l' : Nat) : (s.modDma f).tb q t' e' w' l' = s.tb q t' e' w' l' := State.tb_of_tables (State.modDma_tables s _) _ _ _ _ _
@[simp] theorem State.counter_modDma (s : State) (f : DmaSt → DmaSt) (j : Nat) : (s.modDma f).counter j = s.counter j := State.counter_of_cnt (State.modDma_cnt s _) _
@[simp] theorem State.reg_modUni (s : State) (f : UniSt → UniSt) (q off' : Nat) : (s.modUni f).reg q off' = s.reg q off' := State.reg_of_rf (State.modUni_rf s _) _ _
@[simp] theorem State.fld_modUni (s : State) (f : UniSt → UniSt) (q : Nat) (g : Fld) : (s.modUni f).fld q g = s.fld q g := State.fld_of_rf (State.modUni_rf s _) _ _
@[simp] theorem State.flag_modUni (s : State) (f : UniSt → UniSt) (q : Nat) (g : Fld) : (s.modUni f).flag q g = s.flag q g := State.flag_of_rf (State.modUni_rf s _) _ _
@[simp] theorem State.enabled_modUni (s : State) (f : UniSt → UniSt) (q : Nat) : (s.modUni f).enabled q = s.enabled q := State.enabled_of_rf (State.modUni_rf s _) _
@[simp] theorem State.tw_modUni (s : State) (f : UniSt → UniSt) (q t' e' w' : Nat) : (s.modUni f).tw q t' e' w' = s.tw q t' e' w' := State.tw_of_tables (State.modUni_tables s _) _ _ _ _
@[simp] theorem State.tf_modUni (s : State) (f : UniSt → UniSt) (q t' e' w' h' l' : Nat) : (s.modUni f).tf q t' e' w' h' l' = s.tf q t' e' w' h' l' := State.tf_of_tables (State.modUni_tables s _) _ _ _ _ _ _
@[simp] theorem State.tb_modUni (s : State) (f : UniSt → UniSt) (q t' e' w' l' : Nat) : (s.modUni f).tb q t' e' w' l' = s.tb q t' e' w' l' := State.tb_of_tables (State.modUni_tables s _) _ _ _ _ _
@[simp] theorem State.counter_modUni (s : State) (f : UniSt → UniSt) (j : Nat) : (s.modUni f).counter j = s.counter j := State.counter_of_cnt (State.modUni_cnt s _) _
@[simp] theorem State.reg_modTsk (s : State) (f : TskSt → TskSt) (q off' : Nat) : (s.modTsk f).reg q off' = s.reg q off' := State.reg_of_rf (State.modTsk_rf s _) _ _
@[simp] theorem State.fld_modTsk (s : State) (f : TskSt → TskSt) (q : Nat) (g : Fld) : (s.modTsk f).fld q g = s.fld q g := State.fld_of_rf (State.modTsk_rf s _) _ _
@[simp] theorem State.flag_modTsk (s : State) (f : TskSt → TskSt) (q : Nat) (g : Fld) : (s.modTsk f).flag q g = s.flag q g := State.flag_of_rf (State.modTsk_rf s _) _ _
@[simp] theorem State.enabled_modTsk (s : State) (f : TskSt → TskSt) (q : Nat) : (s.modTsk f).enabled q = s.enabled q := State.enabled_of_rf (State.modTsk_rf s _) _
@[simp] theorem State.tw_modTsk (s : State) (f : TskSt → TskSt) (q t' e' w' : Nat) : (s.modTsk f).tw q t' e' w' = s.tw q t' e' w' := State.tw_of_tables (State.modTsk_tables s _) _ _ _ _
@[simp] theorem State.tf_modTsk (s : State) (f : TskSt → TskSt) (q t' e' w' h' l' : Nat) : (s.modTsk f).tf q t' e' w' h' l' = s.tf q t' e' w' h' l' := State.tf_of_tables (State.modTsk_tables s _) _ _ _ _ _ _
@[simp] theorem State.tb_modTsk (s : State) (f : TskSt → TskSt) (q t' e' w' l' : Nat) : (s.modTsk f).tb q t' e' w' l' = s.tb q t' e' w' l' := State.tb_of_tables (State.modTsk_tables s _) _ _ _ _ _
@[simp] theorem State.counter_modTsk (s : State) (f : TskSt → TskSt) (j : Nat) : (s.modTsk f).counter j = s.counter j := State.counter_of_cnt (State.modTsk_cnt s _) _
@[simp] theorem State.reg_modSto (s : State) (f : StoSt → StoSt) (q off' : Nat) : (s.modSto f).reg q off' = s.reg q off' := State.reg_of_rf (State.modSto_rf s _) _ _
@[simp] theorem State.fld_modSto (s : State) (f : StoSt → StoSt) (q : Nat) (g : Fld) : (s.modSto f).fld q g = s.fld q g := State.fld_of_rf (State.modSto_rf s _) _ _
@[simp] theorem State.flag_modSto (s : State) (f : StoSt → StoSt) (q : Nat) (g : Fld) : (s.modSto f).flag q g = s.flag q g := State.flag_of_rf (State.modSto_rf s _) _ _
@[simp] theorem State.enabled_modSto (s : State) (f : StoSt → StoSt) (q : Nat) : (s.modSto f).enabled q = s.enabled q := State.enabled_of_rf (State.modSto_rf s _) _
@[simp] theorem State.tw_modSto (s : State) (f : StoSt → StoSt) (q t' e' w' : Nat) : (s.modSto f).tw q t' e' w' = s.tw q t' e' w' := State.tw_of_tables (State.modSto_tables s _) _ _ _ _
@[simp] theorem State.tf_modSto (s : State) (f : StoSt → StoSt) (q t' e' w' h' l' : Nat) : (s.modSto f).tf q t' e' w' h' l' = s.tf q t' e' w' h' l' := State.tf_of_tables (State.modSto_tables s _) _ _ _ _ _ _
@[simp] theorem State.tb_modSto (s : State) (f : StoSt → StoSt) (q t' e' w' l' : Nat) : (s.modSto f).tb q t' e' w' l' = s.tb q t' e' w' l' := State.tb_of_tables (State.modSto_tables s _) _ _ _ _ _
@[simp] theorem State.counter_modSto (s : State) (f : StoSt → StoSt) (j : Nat) : (s.modSto f).counter j = s.counter j := State.counter_of_cnt (State.modSto_cnt s _) _
@[simp] theorem State.reg_modXtr (s : State) (f : XtrSt → XtrSt) (q off' : Nat) : (s.modXtr f).reg q off' = s.reg q off' := State.reg_of_rf (State.modXtr_rf s _) _ _
@[simp] theorem State.fld_modXtr (s : State) (f : XtrSt → XtrSt) (q : Nat) (g : Fld) : (s.modXtr f).fld q g = s.fld q g := State.fld_of_rf (State.modXtr_rf s _) _ _
@[simp] theorem State.flag_modXtr (s : State) (f : XtrSt → XtrSt) (q : Nat) (g : Fld) : (s.modXtr f).flag q g = s.flag q g := State.flag_of_rf (State.modXtr_rf s _) _ _
@[simp] theorem State.enabled_modXtr (s : State) (f : XtrSt → XtrSt) (q : Nat) : (s.modXtr f).enabled q = s.enabled q := State.enabled_of_rf (State.modXtr_rf s _) _
@[simp] theorem State.tw_modXtr (s : State) (f : XtrSt → XtrSt) (q t' e' w' : Nat) : (s.modXtr f).tw q t' e' w' = s.tw q t' e' w' := State.tw_of_tables (State.modXtr_tables s _) _ _ _ _
@[simp] theorem State.tf_modXtr (s : State) (f : XtrSt → XtrSt) (q t' e' w' h' l' : Nat) : (s.modXtr f).tf q t' e' w' h' l' = s.tf q t' e' w' h' l' := State.tf_of_tables (State.modXtr_tables s _) _ _ _ _ _ _
@[simp] theorem State.tb_modXtr (s : State) (f : XtrSt → XtrSt) (q t' e' w' l' : Nat) : (s.modXtr f).tb q t' e' w' l' = s.tb q t' e' w' l' := State.tb_of_tables (State.modXtr_tables s _) _ _ _ _ _
@[simp] theorem State.counter_modXtr (s : State) (f : XtrSt → XtrSt) (j : Nat) : (s.modXtr f).counter j = s.counter j := State.counter_of_cnt (State.modXtr_cnt s _) _
@[simp] theorem State.reg_modCls (s : State) (f : ClsSt → ClsSt) (q off' : Nat) : (s.modCls f).reg q off' = s.reg q off' := State.reg_of_rf (State.modCls_rf s _) _ _
@[simp] theorem State.fld_modCls (s : State) (f : ClsSt → ClsSt) (q : Nat) (g : Fld) : (s.modCls f).fld q g = s.fld q g := State.fld_of_rf (State.modCls_rf s _) _ _
@[simp] theorem State.flag_modCls (s : State) (f : ClsSt → ClsSt) (q : Nat) (g : Fld) : (s.modCls f).flag q g = s.flag q g := State.flag_of_rf (State.modCls_rf s _) _ _
@[simp] theorem State.enabled_modCls (s : State) (f : ClsSt → ClsSt) (q : Nat) : (s.modCls f).enabled q = s.enabled q := State.enabled_of_rf (State.modCls_rf s _) _
@[simp] theorem State.tw_modCls (s : State) (f : ClsSt → ClsSt) (q t' e' w' : Nat) : (s.modCls f).tw q t' e' w' = s.tw q t' e' w' := State.tw_of_tables (State.modCls_tables s _) _ _ _ _
@[simp] theorem State.tf_modCls (s : State) (f : ClsSt → ClsSt) (q t' e' w' h' l' : Nat) : (s.modCls f).tf q t' e' w' h' l' = s.tf q t' e' w' h' l' := State.tf_of_tables (State.modCls_tables s _) _ _ _ _ _ _
@[simp] theorem State.tb_modCls (s : State) (f : ClsSt → ClsSt) (q t' e' w' l' : Nat) : (s.modCls f).tb q t' e' w' l' = s.tb q t' e' w' l' := State.tb_of_tables (State.modCls_tables s _) _ _ _ _ _
@[simp] theorem State.counter_modCls (s : State) (f : ClsSt → ClsSt) (j : Nat) : (s.modCls f).counter j = s.counter j := State.counter_of_cnt (State.modCls_cnt s _) _
@[simp] theorem State.reg_modFlow (s : State) (f : FlowSt → FlowSt) (q off' : Nat) : (s.modFlow f).reg q off' = s.reg q off' := State.reg_of_rf (State.modFlow_rf s _) _ _
@[simp] theorem State.fld_modFlow (s : State) (f : FlowSt → FlowSt) (q : Nat) (g : Fld) : (s.modFlow f).fld q g = s.fld q g := State.fld_of_rf (State.modFlow_rf s _) _ _
@[simp] theorem State.flag_modFlow (s : State) (f : FlowSt → FlowSt) (q : Nat) (g : Fld) : (s.modFlow f).flag q g = s.flag q g := State.flag_of_rf (State.modFlow_rf s _) _ _
@[simp] theorem State.enabled_modFlow (s : State) (f : FlowSt → FlowSt) (q : Nat) : (s.modFlow f).enabled q = s.enabled q := State.enabled_of_rf (State.modFlow_rf s _) _
@[simp] theorem State.tw_modFlow (s : State) (f : FlowSt → FlowSt) (q t' e' w' : Nat) : (s.modFlow f).tw q t' e' w' = s.tw q t' e' w' := State.tw_of_tables (State.modFlow_tables s _) _ _ _ _
@[simp] theorem State.tf_modFlow (s : State) (f : FlowSt → FlowSt) (q t' e' w' h' l' : Nat) : (s.modFlow f).tf q t' e' w' h' l' = s.tf q t' e' w' h' l' := State.tf_of_tables (State.modFlow_tables s _) _ _ _ _ _ _
@[simp] theorem State.tb_modFlow (s : State) (f : FlowSt → FlowSt) (q t' e' w' l' : Nat) : (s.modFlow f).tb q t' e' w' l' = s.tb q t' e' w' l' := State.tb_of_tables (State.modFlow_tables s _) _ _ _ _ _
@[simp] theorem State.counter_modFlow (s : State) (f : FlowSt → FlowSt) (j : Nat) : (s.modFlow f).counter j = s.counter j := State.counter_of_cnt (State.modFlow_cnt s _) _
@[simp] theorem State.reg_modUsch (s : State) (f : UschSt → UschSt) (q off' : Nat) : (s.modUsch f).reg q off' = s.reg q off' := State.reg_of_rf (State.modUsch_rf s _) _ _
@[simp] theorem State.fld_modUsch (s : State) (f : UschSt → UschSt) (q : Nat) (g : Fld) : (s.modUsch f).fld q g = s.fld q g := State.fld_of_rf (State.modUsch_rf s _) _ _
@[simp] theorem State.flag_modUsch (s : State) (f : UschSt → UschSt) (q : Nat) (g : Fld) : (s.modUsch f).flag q g = s.flag q g := State.flag_of_rf (State.modUsch_rf s _) _ _
@[simp] theorem State.enabled_modUsch (s : State) (f : UschSt → UschSt) (q : Nat) : (s.modUsch f).enabled q = s.enabled q := State.enabled_of_rf (State.modUsch_rf s _) _
@[simp] theorem State.tw_modUsch (s : State) (f : UschSt → UschSt) (q t' e' w' : Nat) : (s.modUsch f).tw q t' e' w' = s.tw q t' e' w' := State.tw_of_tables (State.modUsch_tables s _) _ _ _ _
@[simp] theorem State.tf_modUsch (s : State) (f : UschSt → UschSt) (q t' e' w' h' l' : Nat) : (s.modUsch f).tf q t' e' w' h' l' = s.tf q t' e' w' h' l' := State.tf_of_tables (State.modUsch_tables s _) _ _ _ _ _ _
@[simp] theorem State.tb_modUsch (s : State) (f : UschSt → UschSt) (q t' e' w' l' : Nat) : (s.modUsch f).tb q t' e' w' l' = s.tb q t' e' w' l' := State.tb_of_tables (State.modUsch_tables s _) _ _ _ _ _
@[simp] theorem State.counter_modUsch (s : State) (f : UschSt → UschSt) (j : Nat) : (s.modUsch f).counter j = s.counter j := State.counter_of_cnt (State.modUsch_cnt s _) _
@[simp] theorem State.reg_modGrt (s : State) (f : PerTree GrtSt → PerTree GrtSt) (q off' : Nat) : (s.modGrt f).reg q off' = s.reg q off' := State.reg_of_rf (State.modGrt_rf s _) _ _
@[simp] theorem State.fld_modGrt (s : State) (f : PerTree GrtSt → PerTree GrtSt) (q : Nat) (g : Fld) : (s.modGrt f).fld q g = s.fld q g := State.fld_of_rf (State.modGrt_rf s _) _ _
@[simp] theorem State.flag_modGrt (s : State) (f : PerTree GrtSt → PerTree GrtSt) (q : Nat) (g : Fld) : (s.modGrt f).flag q g = s.flag q g := State.flag_of_rf (State.modGrt_rf s _) _ _
@[simp] theorem State.enabled_modGrt (s : State) (f : PerTree GrtSt → PerTree GrtSt) (q : Nat) : (s.modGrt f).enabled q = s.enabled q := State.enabled_of_rf (State.modGrt_rf s _) _
@[simp] theorem State.tw_modGrt (s : State) (f : PerTree GrtSt → PerTree GrtSt) (q t' e' w' : Nat) : (s.modGrt f).tw q t' e' w' = s.tw q t' e' w' := State.tw_of_tables (State.modGrt_tables s _) _ _ _ _
@[simp] theorem State.tf_modGrt (s : State) (f : PerTree GrtSt → PerTree GrtSt) (q t' e' w' h' l' : Nat) : (s.modGrt f).tf q t' e' w' h' l' = s.tf q t' e' w' h' l' := State.tf_of_tables (State.modGrt_tables s _) _ _ _ _ _ _
@[simp] theorem State.tb_modGrt (s : State) (f : PerTree GrtSt → PerTree GrtSt) (q t' e' w' l' : Nat) : (s.modGrt f).tb q t' e' w' l' = s.tb q t' e' w' l' := State.tb_of_tables (State.modGrt_tables s _) _ _ _ _ _
@[simp] theorem State.counter_modGrt (s : State) (f : PerTree GrtSt → PerTree GrtSt) (j : Nat) : (s.modGrt f).counter j = s.counter j := State.counter_of_cnt (State.modGrt_cnt s _) _
@[simp] theorem State.reg_modPol (s : State) (f : PolSt → PolSt) (q off' : Nat) : (s.modPol f).reg q off' = s.reg q off' := State.reg_of_rf (State.modPol_rf s _) _ _
@[simp] theorem State.fld_modPol (s : State) (f : PolSt → PolSt) (q : Nat) (g : Fld) : (s.modPol f).fld q g = s.fld q g := State.fld_of_rf (State.modPol_rf s _) _ _
@[simp] theorem State.flag_modPol (s : State) (f : PolSt → PolSt) (q : Nat) (g : Fld) : (s.modPol f).flag q g = s.flag q g := State.flag_of_rf (State.modPol_rf s _) _ _
@[simp] theorem State.enabled_modPol (s : State) (f : PolSt → PolSt) (q : Nat) : (s.modPol f).enabled q = s.enabled q := State.enabled_of_rf (State.modPol_rf s _) _
@[simp] theorem State.tw_modPol (s : State) (f : PolSt → PolSt) (q t' e' w' : Nat) : (s.modPol f).tw q t' e' w' = s.tw q t' e' w' := State.tw_of_tables (State.modPol_tables s _) _ _ _ _
@[simp] theorem State.tf_modPol (s : State) (f : PolSt → PolSt) (q t' e' w' h' l' : Nat) : (s.modPol f).tf q t' e' w' h' l' = s.tf q t' e' w' h' l' := State.tf_of_tables (State.modPol_tables s _) _ _ _ _ _ _
@[simp] theorem State.tb_modPol (s : State) (f : PolSt → PolSt) (q t' e' w' l' : Nat) : (s.modPol f).tb q t' e' w' l' = s.tb q t' e' w' l' := State.tb_of_tables (State.modPol_tables s _) _ _ _ _ _
@[simp] theorem State.counter_modPol (s : State) (f : PolSt → PolSt) (j : Nat) : (s.modPol f).counter j = s.counter j := State.counter_of_cnt (State.modPol_cnt s _) _
@[simp] theorem State.reg_modFrm (s : State) (f : PerRx FrmSt → PerRx FrmSt) (q off' : Nat) : (s.modFrm f).reg q off' = s.reg q off' := State.reg_of_rf (State.modFrm_rf s _) _ _
@[simp] theorem State.fld_modFrm (s : State) (f : PerRx FrmSt → PerRx FrmSt) (q : Nat) (g : Fld) : (s.modFrm f).fld q g = s.fld q g := State.fld_of_rf (State.modFrm_rf s _) _ _
@[simp] theorem State.flag_modFrm (s : State) (f : PerRx FrmSt → PerRx FrmSt) (q : Nat) (g : Fld) : (s.modFrm f).flag q g = s.flag q g := State.flag_of_rf (State.modFrm_rf s _) _ _
@[simp] theorem State.enabled_modFrm (s : State) (f : PerRx FrmSt → PerRx FrmSt) (q : Nat) : (s.modFrm f).enabled q = s.enabled q := State.enabled_of_rf (State.modFrm_rf s _) _
@[simp] theorem State.tw_modFrm (s : State) (f : PerRx FrmSt → PerRx FrmSt) (q t' e' w' : Nat) : (s.modFrm f).tw q t' e' w' = s.tw q t' e' w' := State.tw_of_tables (State.modFrm_tables s _) _ _ _ _
@[simp] theorem State.tf_modFrm (s : State) (f : PerRx FrmSt → PerRx FrmSt) (q t' e' w' h' l' : Nat) : (s.modFrm f).tf q t' e' w' h' l' = s.tf q t' e' w' h' l' := State.tf_of_tables (State.modFrm_tables s _) _ _ _ _ _ _
@[simp] theorem State.tb_modFrm (s : State) (f : PerRx FrmSt → PerRx FrmSt) (q t' e' w' l' : Nat) : (s.modFrm f).tb q t' e' w' l' = s.tb q t' e' w' l' := State.tb_of_tables (State.modFrm_tables s _) _ _ _ _ _
@[simp] theorem State.counter_modFrm (s : State) (f : PerRx FrmSt → PerRx FrmSt) (j : Nat) : (s.modFrm f).counter j = s.counter j := State.counter_of_cnt (State.modFrm_cnt s _) _
@[simp] theorem State.reg_modPm (s : State) (f : PmSt → PmSt) (q off' : Nat) : (s.modPm f).reg q off' = s.reg q off' := State.reg_of_rf (State.modPm_rf s _) _ _
@[simp] theorem State.fld_modPm (s : State) (f : PmSt → PmSt) (q : Nat) (g : Fld) : (s.modPm f).fld q g = s.fld q g := State.fld_of_rf (State.modPm_rf s _) _ _
@[simp] theorem State.flag_modPm (s : State) (f : PmSt → PmSt) (q : Nat) (g : Fld) : (s.modPm f).flag q g = s.flag q g := State.flag_of_rf (State.modPm_rf s _) _ _
@[simp] theorem State.enabled_modPm (s : State) (f : PmSt → PmSt) (q : Nat) : (s.modPm f).enabled q = s.enabled q := State.enabled_of_rf (State.modPm_rf s _) _
@[simp] theorem State.tw_modPm (s : State) (f : PmSt → PmSt) (q t' e' w' : Nat) : (s.modPm f).tw q t' e' w' = s.tw q t' e' w' := State.tw_of_tables (State.modPm_tables s _) _ _ _ _
@[simp] theorem State.tf_modPm (s : State) (f : PmSt → PmSt) (q t' e' w' h' l' : Nat) : (s.modPm f).tf q t' e' w' h' l' = s.tf q t' e' w' h' l' := State.tf_of_tables (State.modPm_tables s _) _ _ _ _ _ _
@[simp] theorem State.tb_modPm (s : State) (f : PmSt → PmSt) (q t' e' w' l' : Nat) : (s.modPm f).tb q t' e' w' l' = s.tb q t' e' w' l' := State.tb_of_tables (State.modPm_tables s _) _ _ _ _ _
@[simp] theorem State.counter_modPm (s : State) (f : PmSt → PmSt) (j : Nat) : (s.modPm f).counter j = s.counter j := State.counter_of_cnt (State.modPm_cnt s _) _
@[simp] theorem State.reg_modLsec (s : State) (f : LsecSt → LsecSt) (q off' : Nat) : (s.modLsec f).reg q off' = s.reg q off' := State.reg_of_rf (State.modLsec_rf s _) _ _
@[simp] theorem State.fld_modLsec (s : State) (f : LsecSt → LsecSt) (q : Nat) (g : Fld) : (s.modLsec f).fld q g = s.fld q g := State.fld_of_rf (State.modLsec_rf s _) _ _
@[simp] theorem State.flag_modLsec (s : State) (f : LsecSt → LsecSt) (q : Nat) (g : Fld) : (s.modLsec f).flag q g = s.flag q g := State.flag_of_rf (State.modLsec_rf s _) _ _
@[simp] theorem State.enabled_modLsec (s : State) (f : LsecSt → LsecSt) (q : Nat) : (s.modLsec f).enabled q = s.enabled q := State.enabled_of_rf (State.modLsec_rf s _) _
@[simp] theorem State.tw_modLsec (s : State) (f : LsecSt → LsecSt) (q t' e' w' : Nat) : (s.modLsec f).tw q t' e' w' = s.tw q t' e' w' := State.tw_of_tables (State.modLsec_tables s _) _ _ _ _
@[simp] theorem State.tf_modLsec (s : State) (f : LsecSt → LsecSt) (q t' e' w' h' l' : Nat) : (s.modLsec f).tf q t' e' w' h' l' = s.tf q t' e' w' h' l' := State.tf_of_tables (State.modLsec_tables s _) _ _ _ _ _ _
@[simp] theorem State.tb_modLsec (s : State) (f : LsecSt → LsecSt) (q t' e' w' l' : Nat) : (s.modLsec f).tb q t' e' w' l' = s.tb q t' e' w' l' := State.tb_of_tables (State.modLsec_tables s _) _ _ _ _ _
@[simp] theorem State.counter_modLsec (s : State) (f : LsecSt → LsecSt) (j : Nat) : (s.modLsec f).counter j = s.counter j := State.counter_of_cnt (State.modLsec_cnt s _) _
@[simp] theorem State.reg_modRel (s : State) (f : RelSt → RelSt) (q off' : Nat) : (s.modRel f).reg q off' = s.reg q off' := State.reg_of_rf (State.modRel_rf s _) _ _
@[simp] theorem State.fld_modRel (s : State) (f : RelSt → RelSt) (q : Nat) (g : Fld) : (s.modRel f).fld q g = s.fld q g := State.fld_of_rf (State.modRel_rf s _) _ _
@[simp] theorem State.flag_modRel (s : State) (f : RelSt → RelSt) (q : Nat) (g : Fld) : (s.modRel f).flag q g = s.flag q g := State.flag_of_rf (State.modRel_rf s _) _ _
@[simp] theorem State.enabled_modRel (s : State) (f : RelSt → RelSt) (q : Nat) : (s.modRel f).enabled q = s.enabled q := State.enabled_of_rf (State.modRel_rf s _) _
@[simp] theorem State.tw_modRel (s : State) (f : RelSt → RelSt) (q t' e' w' : Nat) : (s.modRel f).tw q t' e' w' = s.tw q t' e' w' := State.tw_of_tables (State.modRel_tables s _) _ _ _ _
@[simp] theorem State.tf_modRel (s : State) (f : RelSt → RelSt) (q t' e' w' h' l' : Nat) : (s.modRel f).tf q t' e' w' h' l' = s.tf q t' e' w' h' l' := State.tf_of_tables (State.modRel_tables s _) _ _ _ _ _ _
@[simp] theorem State.tb_modRel (s : State) (f : RelSt → RelSt) (q t' e' w' l' : Nat) : (s.modRel f).tb q t' e' w' l' = s.tb q t' e' w' l' := State.tb_of_tables (State.modRel_tables s _) _ _ _ _ _
@[simp] theorem State.counter_modRel (s : State) (f : RelSt → RelSt) (j : Nat) : (s.modRel f).counter j = s.counter j := State.counter_of_cnt (State.modRel_cnt s _) _
@[simp] theorem State.reg_modHal (s : State) (f : PerTree HalSt → PerTree HalSt) (q off' : Nat) : (s.modHal f).reg q off' = s.reg q off' := State.reg_of_rf (State.modHal_rf s _) _ _
@[simp] theorem State.fld_modHal (s : State) (f : PerTree HalSt → PerTree HalSt) (q : Nat) (g : Fld) : (s.modHal f).fld q g = s.fld q g := State.fld_of_rf (State.modHal_rf s _) _ _
@[simp] theorem State.flag_modHal (s : State) (f : PerTree HalSt → PerTree HalSt) (q : Nat) (g : Fld) : (s.modHal f).flag q g = s.flag q g := State.flag_of_rf (State.modHal_rf s _) _ _
@[simp] theorem State.enabled_modHal (s : State) (f : PerTree HalSt → PerTree HalSt) (q : Nat) : (s.modHal f).enabled q = s.enabled q := State.enabled_of_rf (State.modHal_rf s _) _
@[simp] theorem State.tw_modHal (s : State) (f : PerTree HalSt → PerTree HalSt) (q t' e' w' : Nat) : (s.modHal f).tw q t' e' w' = s.tw q t' e' w' := State.tw_of_tables (State.modHal_tables s _) _ _ _ _
@[simp] theorem State.tf_modHal (s : State) (f : PerTree HalSt → PerTree HalSt) (q t' e' w' h' l' : Nat) : (s.modHal f).tf q t' e' w' h' l' = s.tf q t' e' w' h' l' := State.tf_of_tables (State.modHal_tables s _) _ _ _ _ _ _
@[simp] theorem State.tb_modHal (s : State) (f : PerTree HalSt → PerTree HalSt) (q t' e' w' l' : Nat) : (s.modHal f).tb q t' e' w' l' = s.tb q t' e' w' l' := State.tb_of_tables (State.modHal_tables s _) _ _ _ _ _
@[simp] theorem State.counter_modHal (s : State) (f : PerTree HalSt → PerTree HalSt) (j : Nat) : (s.modHal f).counter j = s.counter j := State.counter_of_cnt (State.modHal_cnt s _) _
@[simp] theorem State.reg_modSram (s : State) (f : Sparse Byte → Sparse Byte) (q off' : Nat) : (s.modSram f).reg q off' = s.reg q off' := State.reg_of_rf (State.modSram_rf s _) _ _
@[simp] theorem State.fld_modSram (s : State) (f : Sparse Byte → Sparse Byte) (q : Nat) (g : Fld) : (s.modSram f).fld q g = s.fld q g := State.fld_of_rf (State.modSram_rf s _) _ _
@[simp] theorem State.flag_modSram (s : State) (f : Sparse Byte → Sparse Byte) (q : Nat) (g : Fld) : (s.modSram f).flag q g = s.flag q g := State.flag_of_rf (State.modSram_rf s _) _ _
@[simp] theorem State.enabled_modSram (s : State) (f : Sparse Byte → Sparse Byte) (q : Nat) : (s.modSram f).enabled q = s.enabled q := State.enabled_of_rf (State.modSram_rf s _) _
@[simp] theorem State.tw_modSram (s : State) (f : Sparse Byte → Sparse Byte) (q t' e' w' : Nat) : (s.modSram f).tw q t' e' w' = s.tw q t' e' w' := State.tw_of_tables (State.modSram_tables s _) _ _ _ _
@[simp] theorem State.tf_modSram (s : State) (f : Sparse Byte → Sparse Byte) (q t' e' w' h' l' : Nat) : (s.modSram f).tf q t' e' w' h' l' = s.tf q t' e' w' h' l' := State.tf_of_tables (State.modSram_tables s _) _ _ _ _ _ _
@[simp] theorem State.tb_modSram (s : State) (f : Sparse Byte → Sparse Byte) (q t' e' w' l' : Nat) : (s.modSram f).tb q t' e' w' l' = s.tb q t' e' w' l' := State.tb_of_tables (State.modSram_tables s _) _ _ _ _ _
@[simp] theorem State.counter_modSram (s : State) (f : Sparse Byte → Sparse Byte) (j : Nat) : (s.modSram f).counter j = s.counter j := State.counter_of_cnt (State.modSram_cnt s _) _
@[simp] theorem State.reg_modDual (s : State) (f : DualSt → DualSt) (q off' : Nat) : (s.modDual f).reg q off' = s.reg q off' := State.reg_of_rf (State.modDual_rf s _) _ _
@[simp] theorem State.fld_modDual (s : State) (f : DualSt → DualSt) (q : Nat) (g : Fld) : (s.modDual f).fld q g = s.fld q g := State.fld_of_rf (State.modDual_rf s _) _ _
@[simp] theorem State.flag_modDual (s : State) (f : DualSt → DualSt) (q : Nat) (g : Fld) : (s.modDual f).flag q g = s.flag q g := State.flag_of_rf (State.modDual_rf s _) _ _
@[simp] theorem State.enabled_modDual (s : State) (f : DualSt → DualSt) (q : Nat) : (s.modDual f).enabled q = s.enabled q := State.enabled_of_rf (State.modDual_rf s _) _
@[simp] theorem State.tw_modDual (s : State) (f : DualSt → DualSt) (q t' e' w' : Nat) : (s.modDual f).tw q t' e' w' = s.tw q t' e' w' := State.tw_of_tables (State.modDual_tables s _) _ _ _ _
@[simp] theorem State.tf_modDual (s : State) (f : DualSt → DualSt) (q t' e' w' h' l' : Nat) : (s.modDual f).tf q t' e' w' h' l' = s.tf q t' e' w' h' l' := State.tf_of_tables (State.modDual_tables s _) _ _ _ _ _ _
@[simp] theorem State.tb_modDual (s : State) (f : DualSt → DualSt) (q t' e' w' l' : Nat) : (s.modDual f).tb q t' e' w' l' = s.tb q t' e' w' l' := State.tb_of_tables (State.modDual_tables s _) _ _ _ _ _
@[simp] theorem State.counter_modDual (s : State) (f : DualSt → DualSt) (j : Nat) : (s.modDual f).counter j = s.counter j := State.counter_of_cnt (State.modDual_cnt s _) _
@[simp] theorem State.reg_modSnap (s : State) (f : SnapSt → SnapSt) (q off' : Nat) : (s.modSnap f).reg q off' = s.reg q off' := State.reg_of_rf (State.modSnap_rf s _) _ _
@[simp] theorem State.fld_modSnap (s : State) (f : SnapSt → SnapSt) (q : Nat) (g : Fld) : (s.modSnap f).fld q g = s.fld q g := State.fld_of_rf (State.modSnap_rf s _) _ _
@[simp] theorem State.flag_modSnap (s : State) (f : SnapSt → SnapSt) (q : Nat) (g : Fld) : (s.modSnap f).flag q g = s.flag q g := State.flag_of_rf (State.modSnap_rf s _) _ _
@[simp] theorem State.enabled_modSnap (s : State) (f : SnapSt → SnapSt) (q : Nat) : (s.modSnap f).enabled q = s.enabled q := State.enabled_of_rf (State.modSnap_rf s _) _
@[simp] theorem State.tw_modSnap (s : State) (f : SnapSt → SnapSt) (q t' e' w' : Nat) : (s.modSnap f).tw q t' e' w' = s.tw q t' e' w' := State.tw_of_tables (State.modSnap_tables s _) _ _ _ _
@[simp] theorem State.tf_modSnap (s : State) (f : SnapSt → SnapSt) (q t' e' w' h' l' : Nat) : (s.modSnap f).tf q t' e' w' h' l' = s.tf q t' e' w' h' l' := State.tf_of_tables (State.modSnap_tables s _) _ _ _ _ _ _
@[simp] theorem State.tb_modSnap (s : State) (f : SnapSt → SnapSt) (q t' e' w' l' : Nat) : (s.modSnap f).tb q t' e' w' l' = s.tb q t' e' w' l' := State.tb_of_tables (State.modSnap_tables s _) _ _ _ _ _
@[simp] theorem State.counter_modSnap (s : State) (f : SnapSt → SnapSt) (j : Nat) : (s.modSnap f).counter j = s.counter j := State.counter_of_cnt (State.modSnap_cnt s _) _
@[simp] theorem State.reg_modTime (s : State) (f : TimeSt → TimeSt) (q off' : Nat) : (s.modTime f).reg q off' = s.reg q off' := State.reg_of_rf (State.modTime_rf s _) _ _
@[simp] theorem State.fld_modTime (s : State) (f : TimeSt → TimeSt) (q : Nat) (g : Fld) : (s.modTime f).fld q g = s.fld q g := State.fld_of_rf (State.modTime_rf s _) _ _
@[simp] theorem State.flag_modTime (s : State) (f : TimeSt → TimeSt) (q : Nat) (g : Fld) : (s.modTime f).flag q g = s.flag q g := State.flag_of_rf (State.modTime_rf s _) _ _
@[simp] theorem State.enabled_modTime (s : State) (f : TimeSt → TimeSt) (q : Nat) : (s.modTime f).enabled q = s.enabled q := State.enabled_of_rf (State.modTime_rf s _) _
@[simp] theorem State.tw_modTime (s : State) (f : TimeSt → TimeSt) (q t' e' w' : Nat) : (s.modTime f).tw q t' e' w' = s.tw q t' e' w' := State.tw_of_tables (State.modTime_tables s _) _ _ _ _
@[simp] theorem State.tf_modTime (s : State) (f : TimeSt → TimeSt) (q t' e' w' h' l' : Nat) : (s.modTime f).tf q t' e' w' h' l' = s.tf q t' e' w' h' l' := State.tf_of_tables (State.modTime_tables s _) _ _ _ _ _ _
@[simp] theorem State.tb_modTime (s : State) (f : TimeSt → TimeSt) (q t' e' w' l' : Nat) : (s.modTime f).tb q t' e' w' l' = s.tb q t' e' w' l' := State.tb_of_tables (State.modTime_tables s _) _ _ _ _ _
@[simp] theorem State.counter_modTime (s : State) (f : TimeSt → TimeSt) (j : Nat) : (s.modTime f).counter j = s.counter j := State.counter_of_cnt (State.modTime_cnt s _) _
@[simp] theorem State.reg_modAct (s : State) (f : PerTree ActSt → PerTree ActSt) (q off' : Nat) : (s.modAct f).reg q off' = s.reg q off' := State.reg_of_rf (State.modAct_rf s _) _ _
@[simp] theorem State.fld_modAct (s : State) (f : PerTree ActSt → PerTree ActSt) (q : Nat) (g : Fld) : (s.modAct f).fld q g = s.fld q g := State.fld_of_rf (State.modAct_rf s _) _ _
@[simp] theorem State.flag_modAct (s : State) (f : PerTree ActSt → PerTree ActSt) (q : Nat) (g : Fld) : (s.modAct f).flag q g = s.flag q g := State.flag_of_rf (State.modAct_rf s _) _ _
@[simp] theorem State.enabled_modAct (s : State) (f : PerTree ActSt → PerTree ActSt) (q : Nat) : (s.modAct f).enabled q = s.enabled q := State.enabled_of_rf (State.modAct_rf s _) _
@[simp] theorem State.tw_modAct (s : State) (f : PerTree ActSt → PerTree ActSt) (q t' e' w' : Nat) : (s.modAct f).tw q t' e' w' = s.tw q t' e' w' := State.tw_of_tables (State.modAct_tables s _) _ _ _ _
@[simp] theorem State.tf_modAct (s : State) (f : PerTree ActSt → PerTree ActSt) (q t' e' w' h' l' : Nat) : (s.modAct f).tf q t' e' w' h' l' = s.tf q t' e' w' h' l' := State.tf_of_tables (State.modAct_tables s _) _ _ _ _ _ _
@[simp] theorem State.tb_modAct (s : State) (f : PerTree ActSt → PerTree ActSt) (q t' e' w' l' : Nat) : (s.modAct f).tb q t' e' w' l' = s.tb q t' e' w' l' := State.tb_of_tables (State.modAct_tables s _) _ _ _ _ _
@[simp] theorem State.counter_modAct (s : State) (f : PerTree ActSt → PerTree ActSt) (j : Nat) : (s.modAct f).counter j = s.counter j := State.counter_of_cnt (State.modAct_cnt s _) _
@[simp] theorem State.reg_modNoticeNext (s : State) (f : Nat → Nat) (q off' : Nat) : (s.modNoticeNext f).reg q off' = s.reg q off' := State.reg_of_rf (State.modNoticeNext_rf s _) _ _
@[simp] theorem State.fld_modNoticeNext (s : State) (f : Nat → Nat) (q : Nat) (g : Fld) : (s.modNoticeNext f).fld q g = s.fld q g := State.fld_of_rf (State.modNoticeNext_rf s _) _ _
@[simp] theorem State.flag_modNoticeNext (s : State) (f : Nat → Nat) (q : Nat) (g : Fld) : (s.modNoticeNext f).flag q g = s.flag q g := State.flag_of_rf (State.modNoticeNext_rf s _) _ _
@[simp] theorem State.enabled_modNoticeNext (s : State) (f : Nat → Nat) (q : Nat) : (s.modNoticeNext f).enabled q = s.enabled q := State.enabled_of_rf (State.modNoticeNext_rf s _) _
@[simp] theorem State.tw_modNoticeNext (s : State) (f : Nat → Nat) (q t' e' w' : Nat) : (s.modNoticeNext f).tw q t' e' w' = s.tw q t' e' w' := State.tw_of_tables (State.modNoticeNext_tables s _) _ _ _ _
@[simp] theorem State.tf_modNoticeNext (s : State) (f : Nat → Nat) (q t' e' w' h' l' : Nat) : (s.modNoticeNext f).tf q t' e' w' h' l' = s.tf q t' e' w' h' l' := State.tf_of_tables (State.modNoticeNext_tables s _) _ _ _ _ _ _
@[simp] theorem State.tb_modNoticeNext (s : State) (f : Nat → Nat) (q t' e' w' l' : Nat) : (s.modNoticeNext f).tb q t' e' w' l' = s.tb q t' e' w' l' := State.tb_of_tables (State.modNoticeNext_tables s _) _ _ _ _ _
@[simp] theorem State.counter_modNoticeNext (s : State) (f : Nat → Nat) (j : Nat) : (s.modNoticeNext f).counter j = s.counter j := State.counter_of_cnt (State.modNoticeNext_cnt s _) _
@[simp] theorem State.reg_modCcry (s : State) (f : CcrySt → CcrySt) (q off' : Nat) : (s.modCcry f).reg q off' = s.reg q off' := State.reg_of_rf (State.modCcry_rf s _) _ _
@[simp] theorem State.fld_modCcry (s : State) (f : CcrySt → CcrySt) (q : Nat) (g : Fld) : (s.modCcry f).fld q g = s.fld q g := State.fld_of_rf (State.modCcry_rf s _) _ _
@[simp] theorem State.flag_modCcry (s : State) (f : CcrySt → CcrySt) (q : Nat) (g : Fld) : (s.modCcry f).flag q g = s.flag q g := State.flag_of_rf (State.modCcry_rf s _) _ _
@[simp] theorem State.enabled_modCcry (s : State) (f : CcrySt → CcrySt) (q : Nat) : (s.modCcry f).enabled q = s.enabled q := State.enabled_of_rf (State.modCcry_rf s _) _
@[simp] theorem State.tw_modCcry (s : State) (f : CcrySt → CcrySt) (q t' e' w' : Nat) : (s.modCcry f).tw q t' e' w' = s.tw q t' e' w' := State.tw_of_tables (State.modCcry_tables s _) _ _ _ _
@[simp] theorem State.tf_modCcry (s : State) (f : CcrySt → CcrySt) (q t' e' w' h' l' : Nat) : (s.modCcry f).tf q t' e' w' h' l' = s.tf q t' e' w' h' l' := State.tf_of_tables (State.modCcry_tables s _) _ _ _ _ _ _
@[simp] theorem State.tb_modCcry (s : State) (f : CcrySt → CcrySt) (q t' e' w' l' : Nat) : (s.modCcry f).tb q t' e' w' l' = s.tb q t' e' w' l' := State.tb_of_tables (State.modCcry_tables s _) _ _ _ _ _
@[simp] theorem State.counter_modCcry (s : State) (f : CcrySt → CcrySt) (j : Nat) : (s.modCcry f).counter j = s.counter j := State.counter_of_cnt (State.modCcry_cnt s _) _
@[simp] theorem State.reg_modKst (s : State) (f : KstSt → KstSt) (q off' : Nat) : (s.modKst f).reg q off' = s.reg q off' := State.reg_of_rf (State.modKst_rf s _) _ _
@[simp] theorem State.fld_modKst (s : State) (f : KstSt → KstSt) (q : Nat) (g : Fld) : (s.modKst f).fld q g = s.fld q g := State.fld_of_rf (State.modKst_rf s _) _ _
@[simp] theorem State.flag_modKst (s : State) (f : KstSt → KstSt) (q : Nat) (g : Fld) : (s.modKst f).flag q g = s.flag q g := State.flag_of_rf (State.modKst_rf s _) _ _
@[simp] theorem State.enabled_modKst (s : State) (f : KstSt → KstSt) (q : Nat) : (s.modKst f).enabled q = s.enabled q := State.enabled_of_rf (State.modKst_rf s _) _
@[simp] theorem State.tw_modKst (s : State) (f : KstSt → KstSt) (q t' e' w' : Nat) : (s.modKst f).tw q t' e' w' = s.tw q t' e' w' := State.tw_of_tables (State.modKst_tables s _) _ _ _ _
@[simp] theorem State.tf_modKst (s : State) (f : KstSt → KstSt) (q t' e' w' h' l' : Nat) : (s.modKst f).tf q t' e' w' h' l' = s.tf q t' e' w' h' l' := State.tf_of_tables (State.modKst_tables s _) _ _ _ _ _ _
@[simp] theorem State.tb_modKst (s : State) (f : KstSt → KstSt) (q t' e' w' l' : Nat) : (s.modKst f).tb q t' e' w' l' = s.tb q t' e' w' l' := State.tb_of_tables (State.modKst_tables s _) _ _ _ _ _
@[simp] theorem State.counter_modKst (s : State) (f : KstSt → KstSt) (j : Nat) : (s.modKst f).counter j = s.counter j := State.counter_of_cnt (State.modKst_cnt s _) _
@[simp] theorem State.reg_modClk (s : State) (f : ClkSt → ClkSt) (q off' : Nat) : (s.modClk f).reg q off' = s.reg q off' := State.reg_of_rf (State.modClk_rf s _) _ _
@[simp] theorem State.fld_modClk (s : State) (f : ClkSt → ClkSt) (q : Nat) (g : Fld) : (s.modClk f).fld q g = s.fld q g := State.fld_of_rf (State.modClk_rf s _) _ _
@[simp] theorem State.flag_modClk (s : State) (f : ClkSt → ClkSt) (q : Nat) (g : Fld) : (s.modClk f).flag q g = s.flag q g := State.flag_of_rf (State.modClk_rf s _) _ _
@[simp] theorem State.enabled_modClk (s : State) (f : ClkSt → ClkSt) (q : Nat) : (s.modClk f).enabled q = s.enabled q := State.enabled_of_rf (State.modClk_rf s _) _
@[simp] theorem State.tw_modClk (s : State) (f : ClkSt → ClkSt) (q t' e' w' : Nat) : (s.modClk f).tw q t' e' w' = s.tw q t' e' w' := State.tw_of_tables (State.modClk_tables s _) _ _ _ _
@[simp] theorem State.tf_modClk (s : State) (f : ClkSt → ClkSt) (q t' e' w' h' l' : Nat) : (s.modClk f).tf q t' e' w' h' l' = s.tf q t' e' w' h' l' := State.tf_of_tables (State.modClk_tables s _) _ _ _ _ _ _
@[simp] theorem State.tb_modClk (s : State) (f : ClkSt → ClkSt) (q t' e' w' l' : Nat) : (s.modClk f).tb q t' e' w' l' = s.tb q t' e' w' l' := State.tb_of_tables (State.modClk_tables s _) _ _ _ _ _
@[simp] theorem State.counter_modClk (s : State) (f : ClkSt → ClkSt) (j : Nat) : (s.modClk f).counter j = s.counter j := State.counter_of_cnt (State.modClk_cnt s _) _
@[simp] theorem State.reg_modLehr (s : State) (f : LehrSt → LehrSt) (q off' : Nat) : (s.modLehr f).reg q off' = s.reg q off' := State.reg_of_rf (State.modLehr_rf s _) _ _
@[simp] theorem State.fld_modLehr (s : State) (f : LehrSt → LehrSt) (q : Nat) (g : Fld) : (s.modLehr f).fld q g = s.fld q g := State.fld_of_rf (State.modLehr_rf s _) _ _
@[simp] theorem State.flag_modLehr (s : State) (f : LehrSt → LehrSt) (q : Nat) (g : Fld) : (s.modLehr f).flag q g = s.flag q g := State.flag_of_rf (State.modLehr_rf s _) _ _
@[simp] theorem State.enabled_modLehr (s : State) (f : LehrSt → LehrSt) (q : Nat) : (s.modLehr f).enabled q = s.enabled q := State.enabled_of_rf (State.modLehr_rf s _) _
@[simp] theorem State.tw_modLehr (s : State) (f : LehrSt → LehrSt) (q t' e' w' : Nat) : (s.modLehr f).tw q t' e' w' = s.tw q t' e' w' := State.tw_of_tables (State.modLehr_tables s _) _ _ _ _
@[simp] theorem State.tf_modLehr (s : State) (f : LehrSt → LehrSt) (q t' e' w' h' l' : Nat) : (s.modLehr f).tf q t' e' w' h' l' = s.tf q t' e' w' h' l' := State.tf_of_tables (State.modLehr_tables s _) _ _ _ _ _ _
@[simp] theorem State.tb_modLehr (s : State) (f : LehrSt → LehrSt) (q t' e' w' l' : Nat) : (s.modLehr f).tb q t' e' w' l' = s.tb q t' e' w' l' := State.tb_of_tables (State.modLehr_tables s _) _ _ _ _ _
@[simp] theorem State.counter_modLehr (s : State) (f : LehrSt → LehrSt) (j : Nat) : (s.modLehr f).counter j = s.counter j := State.counter_of_cnt (State.modLehr_cnt s _) _
@[simp] theorem State.reg_modTap (s : State) (f : TapSt → TapSt) (q off' : Nat) : (s.modTap f).reg q off' = s.reg q off' := State.reg_of_rf (State.modTap_rf s _) _ _
@[simp] theorem State.fld_modTap (s : State) (f : TapSt → TapSt) (q : Nat) (g : Fld) : (s.modTap f).fld q g = s.fld q g := State.fld_of_rf (State.modTap_rf s _) _ _
@[simp] theorem State.flag_modTap (s : State) (f : TapSt → TapSt) (q : Nat) (g : Fld) : (s.modTap f).flag q g = s.flag q g := State.flag_of_rf (State.modTap_rf s _) _ _
@[simp] theorem State.enabled_modTap (s : State) (f : TapSt → TapSt) (q : Nat) : (s.modTap f).enabled q = s.enabled q := State.enabled_of_rf (State.modTap_rf s _) _
@[simp] theorem State.tw_modTap (s : State) (f : TapSt → TapSt) (q t' e' w' : Nat) : (s.modTap f).tw q t' e' w' = s.tw q t' e' w' := State.tw_of_tables (State.modTap_tables s _) _ _ _ _
@[simp] theorem State.tf_modTap (s : State) (f : TapSt → TapSt) (q t' e' w' h' l' : Nat) : (s.modTap f).tf q t' e' w' h' l' = s.tf q t' e' w' h' l' := State.tf_of_tables (State.modTap_tables s _) _ _ _ _ _ _
@[simp] theorem State.tb_modTap (s : State) (f : TapSt → TapSt) (q t' e' w' l' : Nat) : (s.modTap f).tb q t' e' w' l' = s.tb q t' e' w' l' := State.tb_of_tables (State.modTap_tables s _) _ _ _ _ _
@[simp] theorem State.counter_modTap (s : State) (f : TapSt → TapSt) (j : Nat) : (s.modTap f).counter j = s.counter j := State.counter_of_cnt (State.modTap_cnt s _) _
@[simp] theorem State.reg_modSup (s : State) (f : SupSt → SupSt) (q off' : Nat) : (s.modSup f).reg q off' = s.reg q off' := State.reg_of_rf (State.modSup_rf s _) _ _
@[simp] theorem State.fld_modSup (s : State) (f : SupSt → SupSt) (q : Nat) (g : Fld) : (s.modSup f).fld q g = s.fld q g := State.fld_of_rf (State.modSup_rf s _) _ _
@[simp] theorem State.flag_modSup (s : State) (f : SupSt → SupSt) (q : Nat) (g : Fld) : (s.modSup f).flag q g = s.flag q g := State.flag_of_rf (State.modSup_rf s _) _ _
@[simp] theorem State.enabled_modSup (s : State) (f : SupSt → SupSt) (q : Nat) : (s.modSup f).enabled q = s.enabled q := State.enabled_of_rf (State.modSup_rf s _) _
@[simp] theorem State.tw_modSup (s : State) (f : SupSt → SupSt) (q t' e' w' : Nat) : (s.modSup f).tw q t' e' w' = s.tw q t' e' w' := State.tw_of_tables (State.modSup_tables s _) _ _ _ _
@[simp] theorem State.tf_modSup (s : State) (f : SupSt → SupSt) (q t' e' w' h' l' : Nat) : (s.modSup f).tf q t' e' w' h' l' = s.tf q t' e' w' h' l' := State.tf_of_tables (State.modSup_tables s _) _ _ _ _ _ _
@[simp] theorem State.tb_modSup (s : State) (f : SupSt → SupSt) (q t' e' w' l' : Nat) : (s.modSup f).tb q t' e' w' l' = s.tb q t' e' w' l' := State.tb_of_tables (State.modSup_tables s _) _ _ _ _ _
@[simp] theorem State.counter_modSup (s : State) (f : SupSt → SupSt) (j : Nat) : (s.modSup f).counter j = s.counter j := State.counter_of_cnt (State.modSup_cnt s _) _
@[simp] theorem State.reg_modKeep (s : State) (f : KeepSt → KeepSt) (q off' : Nat) : (s.modKeep f).reg q off' = s.reg q off' := State.reg_of_rf (State.modKeep_rf s _) _ _
@[simp] theorem State.fld_modKeep (s : State) (f : KeepSt → KeepSt) (q : Nat) (g : Fld) : (s.modKeep f).fld q g = s.fld q g := State.fld_of_rf (State.modKeep_rf s _) _ _
@[simp] theorem State.flag_modKeep (s : State) (f : KeepSt → KeepSt) (q : Nat) (g : Fld) : (s.modKeep f).flag q g = s.flag q g := State.flag_of_rf (State.modKeep_rf s _) _ _
@[simp] theorem State.enabled_modKeep (s : State) (f : KeepSt → KeepSt) (q : Nat) : (s.modKeep f).enabled q = s.enabled q := State.enabled_of_rf (State.modKeep_rf s _) _
@[simp] theorem State.tw_modKeep (s : State) (f : KeepSt → KeepSt) (q t' e' w' : Nat) : (s.modKeep f).tw q t' e' w' = s.tw q t' e' w' := State.tw_of_tables (State.modKeep_tables s _) _ _ _ _
@[simp] theorem State.tf_modKeep (s : State) (f : KeepSt → KeepSt) (q t' e' w' h' l' : Nat) : (s.modKeep f).tf q t' e' w' h' l' = s.tf q t' e' w' h' l' := State.tf_of_tables (State.modKeep_tables s _) _ _ _ _ _ _
@[simp] theorem State.tb_modKeep (s : State) (f : KeepSt → KeepSt) (q t' e' w' l' : Nat) : (s.modKeep f).tb q t' e' w' l' = s.tb q t' e' w' l' := State.tb_of_tables (State.modKeep_tables s _) _ _ _ _ _
@[simp] theorem State.counter_modKeep (s : State) (f : KeepSt → KeepSt) (j : Nat) : (s.modKeep f).counter j = s.counter j := State.counter_of_cnt (State.modKeep_cnt s _) _
@[simp] theorem State.reg_modCore (s : State) (f : CoreSt → CoreSt) (q off' : Nat) : (s.modCore f).reg q off' = s.reg q off' := State.reg_of_rf (State.modCore_rf s _) _ _
@[simp] theorem State.fld_modCore (s : State) (f : CoreSt → CoreSt) (q : Nat) (g : Fld) : (s.modCore f).fld q g = s.fld q g := State.fld_of_rf (State.modCore_rf s _) _ _
@[simp] theorem State.flag_modCore (s : State) (f : CoreSt → CoreSt) (q : Nat) (g : Fld) : (s.modCore f).flag q g = s.flag q g := State.flag_of_rf (State.modCore_rf s _) _ _
@[simp] theorem State.enabled_modCore (s : State) (f : CoreSt → CoreSt) (q : Nat) : (s.modCore f).enabled q = s.enabled q := State.enabled_of_rf (State.modCore_rf s _) _
@[simp] theorem State.tw_modCore (s : State) (f : CoreSt → CoreSt) (q t' e' w' : Nat) : (s.modCore f).tw q t' e' w' = s.tw q t' e' w' := State.tw_of_tables (State.modCore_tables s _) _ _ _ _
@[simp] theorem State.tf_modCore (s : State) (f : CoreSt → CoreSt) (q t' e' w' h' l' : Nat) : (s.modCore f).tf q t' e' w' h' l' = s.tf q t' e' w' h' l' := State.tf_of_tables (State.modCore_tables s _) _ _ _ _ _ _
@[simp] theorem State.tb_modCore (s : State) (f : CoreSt → CoreSt) (q t' e' w' l' : Nat) : (s.modCore f).tb q t' e' w' l' = s.tb q t' e' w' l' := State.tb_of_tables (State.modCore_tables s _) _ _ _ _ _
@[simp] theorem State.counter_modCore (s : State) (f : CoreSt → CoreSt) (j : Nat) : (s.modCore f).counter j = s.counter j := State.counter_of_cnt (State.modCore_cnt s _) _
@[simp] theorem State.reg_modFlsh (s : State) (f : FlshSt → FlshSt) (q off' : Nat) : (s.modFlsh f).reg q off' = s.reg q off' := State.reg_of_rf (State.modFlsh_rf s _) _ _
@[simp] theorem State.fld_modFlsh (s : State) (f : FlshSt → FlshSt) (q : Nat) (g : Fld) : (s.modFlsh f).fld q g = s.fld q g := State.fld_of_rf (State.modFlsh_rf s _) _ _
@[simp] theorem State.flag_modFlsh (s : State) (f : FlshSt → FlshSt) (q : Nat) (g : Fld) : (s.modFlsh f).flag q g = s.flag q g := State.flag_of_rf (State.modFlsh_rf s _) _ _
@[simp] theorem State.enabled_modFlsh (s : State) (f : FlshSt → FlshSt) (q : Nat) : (s.modFlsh f).enabled q = s.enabled q := State.enabled_of_rf (State.modFlsh_rf s _) _
@[simp] theorem State.tw_modFlsh (s : State) (f : FlshSt → FlshSt) (q t' e' w' : Nat) : (s.modFlsh f).tw q t' e' w' = s.tw q t' e' w' := State.tw_of_tables (State.modFlsh_tables s _) _ _ _ _
@[simp] theorem State.tf_modFlsh (s : State) (f : FlshSt → FlshSt) (q t' e' w' h' l' : Nat) : (s.modFlsh f).tf q t' e' w' h' l' = s.tf q t' e' w' h' l' := State.tf_of_tables (State.modFlsh_tables s _) _ _ _ _ _ _
@[simp] theorem State.tb_modFlsh (s : State) (f : FlshSt → FlshSt) (q t' e' w' l' : Nat) : (s.modFlsh f).tb q t' e' w' l' = s.tb q t' e' w' l' := State.tb_of_tables (State.modFlsh_tables s _) _ _ _ _ _
@[simp] theorem State.counter_modFlsh (s : State) (f : FlshSt → FlshSt) (j : Nat) : (s.modFlsh f).counter j = s.counter j := State.counter_of_cnt (State.modFlsh_cnt s _) _

end Sys2Proof.Machine
end

