-- ==== Sys2Proof/Laws/Steady.lean ====
section
/-! SUPPORT. What every operation but an enable, a disable, a reset, a restore, a pennant clear and a plain register write leaves
of the common header: each page's PAGE_CTRL, and each pennant bit that stands (R46, R51). `Steady s0 s` says it of the state
`s` that an operation begun in `s0` has come to. Here it is shown of the named updates and of the pennants; Laws/Steady*.lean
show it of the further operations. -/

set_option Elab.async false
set_option linter.all false

namespace Sys2Proof.Machine

/-- PAGE_CTRL of every page is as it was, and no event bit of a pennant has cleared. -/
structure Steady (s0 s : State) : Prop where
  ctrl : ∀ p, p < 256 → s.reg p 0x008 = s0.reg p 0x008
  events : ∀ p b, p < 256 → b < 24 → (s0.reg p 0x010).getLsbD b = true → (s.reg p 0x010).getLsbD b = true

theorem Steady.refl (s : State) : Steady s s := ⟨fun _ _ => rfl, fun _ _ _ _ h => h⟩

theorem Steady.trans {a b c : State} (h : Steady a b) (k : Steady b c) : Steady a c :=
  ⟨fun p hp => (k.ctrl p hp).trans (h.ctrl p hp), fun p i hp hi x => k.events p i hp hi (h.events p i hp hi x)⟩

theorem Steady.ite {s0 a b : State} {c : Prop} [Decidable c] (ha : Steady s0 a) (hb : Steady s0 b) :
    Steady s0 (if c then a else b) := by split <;> assumption

theorem Steady.ite_fst {α : Type} {s0 : State} {a b : State × α} {c : Prop} [Decidable c] (ha : Steady s0 a.1)
    (hb : Steady s0 b.1) : Steady s0 (if c then a else b).1 := by split <;> assumption

theorem Steady.foldl {α : Type} {s0 : State} {f : State → α → State} (hf : ∀ x a, Steady s0 x → Steady s0 (f x a))
    (l : List α) {s : State} (h : Steady s0 s) : Steady s0 (l.foldl f s) := by
  induction l generalizing s with
  | nil => exact h
  | cons a l ih => exact ih (hf s a h)

theorem Steady.foldl_snd {α β : Type} {s0 : State} {f : β × State → α → β × State}
    (hf : ∀ x a, Steady s0 x.2 → Steady s0 (f x a).2) (l : List α) {x : β × State} (h : Steady s0 x.2) :
    Steady s0 (l.foldl f x).2 := by
  induction l generalizing x with
  | nil => exact h
  | cons a l ih => exact ih (hf x a h)

theorem Steady.of_fst {α : Type} {s0 b : State} {x : α} {y : State × α} (h : Steady s0 y.1) (e : y = (b, x)) :
    Steady s0 b := by subst e; exact h

theorem Steady.id {s0 s : State} (h : Steady s0 s) : Steady s0 (id s) := h

/-- Each of a list of numbered operations is steady. -/
def AllSteady (s0 : State) : List (Nat × (State → State)) → Prop
  | [] => True
  | x :: l => (∀ s, Steady s0 s → Steady s0 (x.2 s)) ∧ AllSteady s0 l

theorem AllSteady.nil (s0 : State) : AllSteady s0 [] := trivial

theorem AllSteady.cons {s0 : State} {x : Nat × (State → State)} {l : List (Nat × (State → State))}
    (hx : ∀ s, Steady s0 s → Steady s0 (x.2 s)) (hl : AllSteady s0 l) : AllSteady s0 (x :: l) := ⟨hx, hl⟩

theorem AllSteady.map {α : Type} {s0 : State} {f : α → Nat × (State → State)} (l : List α)
    (hf : ∀ a s, Steady s0 s → Steady s0 ((f a).2 s)) : AllSteady s0 (l.map f) := by
  induction l with
  | nil => trivial
  | cons a l ih => exact ⟨hf a, ih⟩

/-! The named updates. -/

theorem State.modTables_steady {s0 s : State} (f : Sparse Word → Sparse Word) (h : Steady s0 s) : Steady s0 (s.modTables f) :=
  ⟨h.ctrl, h.events⟩
theorem State.modWins_steady {s0 s : State} (f : Sparse IndWin → Sparse IndWin) (h : Steady s0 s) : Steady s0 (s.modWins f) :=
  ⟨h.ctrl, h.events⟩
theorem State.modCnt_steady {s0 s : State} (f : Counts → Counts) (h : Steady s0 s) : Steady s0 (s.modCnt f) :=
  ⟨h.ctrl, h.events⟩
theorem State.modPenn_steady {s0 s : State} (f : Sparse PennSt → Sparse PennSt) (h : Steady s0 s) : Steady s0 (s.modPenn f) :=
  ⟨h.ctrl, h.events⟩
theorem State.modLimited_steady {s0 s : State} (f : Sparse Nat → Sparse Nat) (h : Steady s0 s) : Steady s0 (s.modLimited f) :=
  ⟨h.ctrl, h.events⟩
theorem State.modOut_steady {s0 s : State} (f : List Emission → List Emission) (h : Steady s0 s) : Steady s0 (s.modOut f) :=
  ⟨h.ctrl, h.events⟩
theorem State.modNow_steady {s0 s : State} (f : Nat → Nat) (h : Steady s0 s) : Steady s0 (s.modNow f) :=
  ⟨h.ctrl, h.events⟩
theorem State.modReadData_steady {s0 s : State} (f : Word → Word) (h : Steady s0 s) : Steady s0 (s.modReadData f) :=
  ⟨h.ctrl, h.events⟩
theorem State.modReadHigh_steady {s0 s : State} (f : Word → Word) (h : Steady s0 s) : Steady s0 (s.modReadHigh f) :=
  ⟨h.ctrl, h.events⟩
theorem State.modFreeIx_steady {s0 s : State} (f : Nat → Nat) (h : Steady s0 s) : Steady s0 (s.modFreeIx f) :=
  ⟨h.ctrl, h.events⟩
theorem State.modRx_steady {s0 s : State} (f : PerRx RxSt → PerRx RxSt) (h : Steady s0 s) : Steady s0 (s.modRx f) :=
  ⟨h.ctrl, h.events⟩
theorem State.modTx_steady {s0 s : State} (f : PerTree TxSt → PerTree TxSt) (h : Steady s0 s) : Steady s0 (s.modTx f) :=
  ⟨h.ctrl, h.events⟩
theorem State.modHif_steady {s0 s : State} (f : HifSt → HifSt) (h : Steady s0 s) : Steady s0 (s.modHif f) :=
  ⟨h.ctrl, h.events⟩
theorem State.modDma_steady {s0 s : State} (f : DmaSt → DmaSt) (h : Steady s0 s) : Steady s0 (s.modDma f) :=
  ⟨h.ctrl, h.events⟩
theorem State.modUni_steady {s0 s : State} (f : UniSt → UniSt) (h : Steady s0 s) : Steady s0 (s.modUni f) :=
  ⟨h.ctrl, h.events⟩
theorem State.modTsk_steady {s0 s : State} (f : TskSt → TskSt) (h : Steady s0 s) : Steady s0 (s.modTsk f) :=
  ⟨h.ctrl, h.events⟩
theorem State.modSto_steady {s0 s : State} (f : StoSt → StoSt) (h : Steady s0 s) : Steady s0 (s.modSto f) :=
  ⟨h.ctrl, h.events⟩
theorem State.modXtr_steady {s0 s : State} (f : XtrSt → XtrSt) (h : Steady s0 s) : Steady s0 (s.modXtr f) :=
  ⟨h.ctrl, h.events⟩
theorem State.modCls_steady {s0 s : State} (f : ClsSt → ClsSt) (h : Steady s0 s) : Steady s0 (s.modCls f) :=
  ⟨h.ctrl, h.events⟩
theorem State.modFlow_steady {s0 s : State} (f : FlowSt → FlowSt) (h : Steady s0 s) : Steady s0 (s.modFlow f) :=
  ⟨h.ctrl, h.events⟩
theorem State.modUsch_steady {s0 s : State} (f : UschSt → UschSt) (h : Steady s0 s) : Steady s0 (s.modUsch f) :=
  ⟨h.ctrl, h.events⟩
theorem State.modGrt_steady {s0 s : State} (f : PerTree GrtSt → PerTree GrtSt) (h : Steady s0 s) : Steady s0 (s.modGrt f) :=
  ⟨h.ctrl, h.events⟩
theorem State.modPol_steady {s0 s : State} (f : PolSt → PolSt) (h : Steady s0 s) : Steady s0 (s.modPol f) :=
  ⟨h.ctrl, h.events⟩
theorem State.modFrm_steady {s0 s : State} (f : PerRx FrmSt → PerRx FrmSt) (h : Steady s0 s) : Steady s0 (s.modFrm f) :=
  ⟨h.ctrl, h.events⟩
theorem State.modPm_steady {s0 s : State} (f : PmSt → PmSt) (h : Steady s0 s) : Steady s0 (s.modPm f) :=
  ⟨h.ctrl, h.events⟩
theorem State.modLsec_steady {s0 s : State} (f : LsecSt → LsecSt) (h : Steady s0 s) : Steady s0 (s.modLsec f) :=
  ⟨h.ctrl, h.events⟩
theorem State.modRel_steady {s0 s : State} (f : RelSt → RelSt) (h : Steady s0 s) : Steady s0 (s.modRel f) :=
  ⟨h.ctrl, h.events⟩
theorem State.modHal_steady {s0 s : State} (f : PerTree HalSt → PerTree HalSt) (h : Steady s0 s) : Steady s0 (s.modHal f) :=
  ⟨h.ctrl, h.events⟩
theorem State.modSram_steady {s0 s : State} (f : Sparse Byte → Sparse Byte) (h : Steady s0 s) : Steady s0 (s.modSram f) :=
  ⟨h.ctrl, h.events⟩
theorem State.modDual_steady {s0 s : State} (f : DualSt → DualSt) (h : Steady s0 s) : Steady s0 (s.modDual f) :=
  ⟨h.ctrl, h.events⟩
theorem State.modSnap_steady {s0 s : State} (f : SnapSt → SnapSt) (h : Steady s0 s) : Steady s0 (s.modSnap f) :=
  ⟨h.ctrl, h.events⟩
theorem State.modTime_steady {s0 s : State} (f : TimeSt → TimeSt) (h : Steady s0 s) : Steady s0 (s.modTime f) :=
  ⟨h.ctrl, h.events⟩
theorem State.modAct_steady {s0 s : State} (f : PerTree ActSt → PerTree ActSt) (h : Steady s0 s) : Steady s0 (s.modAct f) :=
  ⟨h.ctrl, h.events⟩
theorem State.modNoticeNext_steady {s0 s : State} (f : Nat → Nat) (h : Steady s0 s) : Steady s0 (s.modNoticeNext f) :=
  ⟨h.ctrl, h.events⟩
theorem State.modCcry_steady {s0 s : State} (f : CcrySt → CcrySt) (h : Steady s0 s) : Steady s0 (s.modCcry f) :=
  ⟨h.ctrl, h.events⟩
theorem State.modKst_steady {s0 s : State} (f : KstSt → KstSt) (h : Steady s0 s) : Steady s0 (s.modKst f) :=
  ⟨h.ctrl, h.events⟩
theorem State.modClk_steady {s0 s : State} (f : ClkSt → ClkSt) (h : Steady s0 s) : Steady s0 (s.modClk f) :=
  ⟨h.ctrl, h.events⟩
theorem State.modLehr_steady {s0 s : State} (f : LehrSt → LehrSt) (h : Steady s0 s) : Steady s0 (s.modLehr f) :=
  ⟨h.ctrl, h.events⟩
theorem State.modTap_steady {s0 s : State} (f : TapSt → TapSt) (h : Steady s0 s) : Steady s0 (s.modTap f) :=
  ⟨h.ctrl, h.events⟩
theorem State.modSup_steady {s0 s : State} (f : SupSt → SupSt) (h : Steady s0 s) : Steady s0 (s.modSup f) :=
  ⟨h.ctrl, h.events⟩
theorem State.modKeep_steady {s0 s : State} (f : KeepSt → KeepSt) (h : Steady s0 s) : Steady s0 (s.modKeep f) :=
  ⟨h.ctrl, h.events⟩
theorem State.modCore_steady {s0 s : State} (f : CoreSt → CoreSt) (h : Steady s0 s) : Steady s0 (s.modCore f) :=
  ⟨h.ctrl, h.events⟩
theorem State.modFlsh_steady {s0 s : State} (f : FlshSt → FlshSt) (h : Steady s0 s) : Steady s0 (s.modFlsh f) :=
  ⟨h.ctrl, h.events⟩
theorem State.putTw_steady {s0 s : State} (p t e w : Nat) (v : Word) (h : Steady s0 s) : Steady s0 (s.putTw p t e w v) := by
  unfold State.putTw
  exact State.modTables_steady _ h
theorem State.resetTable_steady {s0 s : State} (p t : Nat) (h : Steady s0 s) : Steady s0 (s.resetTable p t) :=
  ⟨h.ctrl, h.events⟩
theorem State.resetTables_steady {s0 s : State} (p : Nat) (h : Steady s0 s) : Steady s0 (s.resetTables p) :=
  ⟨h.ctrl, h.events⟩
theorem State.countBy_steady {s0 s : State} (i n : Nat) (h : Steady s0 s) : Steady s0 (s.countBy i n) :=
  ⟨h.ctrl, h.events⟩
theorem State.emit_steady {s0 s : State} (e : Emission) (h : Steady s0 s) : Steady s0 (s.emit e) :=
  ⟨h.ctrl, h.events⟩
theorem State.useFree_steady {s0 s : State} (h : Steady s0 s) : Steady s0 (s.useFree) :=
  ⟨h.ctrl, h.events⟩

theorem State.modRf_steady {s0 s : State} {f : RegFile → RegFile} (h : Steady s0 s)
    (hf : ∀ r : RegFile, (f r).regs = r.regs) : Steady s0 (s.modRf f) := by
  have e : ∀ p off, rwtVote p off = none → (s.modRf f).reg p off = s.reg p off := by
    intro p off hn
    unfold State.reg State.copy State.modRf
    simp only [hn, hf]
  have v8 : ∀ p, rwtVote p 0x008 = none := by
    intro p; unfold rwtVote; split <;> rfl
  have v10 : ∀ p, rwtVote p 0x010 = none := by
    intro p; unfold rwtVote; split <;> rfl
  exact ⟨fun p hp => (e p _ (v8 p)).trans (h.ctrl p hp),
    fun p b hp hb x => by rw [e p _ (v10 p)]; exact h.events p b hp hb x⟩

theorem State.iff_steady {s0 s : State} (c : Bool) {f : State → State} (h : Steady s0 s)
    (hf : ∀ x, Steady s0 x → Steady s0 (f x)) : Steady s0 (s.iff c f) := by
  unfold State.iff; split
  · exact hf _ h
  · exact h

/-- Any register but PAGE_CTRL and PENNANT may be set. -/
theorem State.putReg_steady {s0 s : State} (p off : Nat) (v : Word) (h : Steady s0 s)
    (ho : off / 4 % 1024 ≠ 2 ∧ off / 4 % 1024 ≠ 4) : Steady s0 (s.putReg p off v) := by
  refine ⟨fun q hq => ?_, fun q b hq hb x => ?_⟩
  · rw [State.reg_putReg_ne _ _ _ _ _ _ (by unfold regKey; omega)]; exact h.ctrl q hq
  · rw [State.reg_putReg_ne _ _ _ _ _ _ (by unfold regKey; omega)]; exact h.events q b hq hb x

/-- A register of a function window is no register of a page. -/
theorem State.setRg_steady {s0 s : State} (f : Nat) (rx : Bool) (k : Nat) (x : Fld) (v : Nat) (h : Steady s0 s) :
    Steady s0 (s.setRg f rx k x v) := by
  unfold State.setRg State.setFld
  refine ⟨fun q hq => ?_, fun q b hq hb x => ?_⟩
  · rw [State.reg_putReg_ne _ _ _ _ _ _ (by unfold regKey fnPage; omega)]; exact h.ctrl q hq
  · rw [State.reg_putReg_ne _ _ _ _ _ _ (by unfold regKey fnPage; omega)]; exact h.events q b hq hb x

/-- A register of a port's slot. -/
theorem State.setPf_steady {s0 s : State} (p : Nat) (f : Fld) (v : Nat) (h : Steady s0 s) (hf : f.off < 0x800) :
    Steady s0 (s.setPf p f v) := by
  unfold State.setPf State.setFld
  refine State.putReg_steady _ _ _ h ?_
  simp only [slotFld]
  omega

theorem State.putTime_steady {s0 s : State} (p off ns : Nat) (h : Steady s0 s) (ho : 0x014 ≤ off) (ho' : off < 0x800) :
    Steady s0 (s.putTime p off ns) := by
  unfold State.putTime
  dsimp only
  refine State.putReg_steady _ _ _ (State.putReg_steady _ _ _ (State.putReg_steady _ _ _
    (State.putReg_steady _ _ _ h ?_) ?_) ?_) ?_ <;> omega

theorem State.setFld_steady {s0 s : State} (p : Nat) (f : Fld) (v : Nat) (h : Steady s0 s)
    (ho : f.off / 4 % 1024 ≠ 2 ∧ f.off / 4 % 1024 ≠ 4) : Steady s0 (s.setFld p f v) :=
  State.putReg_steady _ _ _ h ho

theorem State.setSFld_steady {s0 s : State} (p : Nat) (f : Fld) (v : Int) (h : Steady s0 s)
    (ho : f.off / 4 % 1024 ≠ 2 ∧ f.off / 4 % 1024 ≠ 4) : Steady s0 (s.setSFld p f v) :=
  State.putReg_steady _ _ _ h ho

theorem State.resetReg_steady {s0 s : State} (p off : Nat) (h : Steady s0 s)
    (ho : off / 4 % 1024 ≠ 2 ∧ off / 4 % 1024 ≠ 4) : Steady s0 (s.resetReg p off) :=
  State.putReg_steady _ _ _ h ho

/-! Pennants. -/

theorem Fld.getLsbD_put_le (f : Fld) (v : Nat) (w : Word) (i : Nat) (hf : f.lo ≤ f.hi) (hi : i < f.lo) (h32 : f.lo ≤ 32) :
    (f.put v w).getLsbD i = w.getLsbD i := by
  rw [Fld.getLsbD_put f v w i hf (by omega), if_neg (by omega)]

theorem State.reg_setFld_same (s : State) (p : Nat) (f : Fld) (v : Nat) :
    (s.setFld p f v).reg p f.off = f.put v (s.reg p f.off) := State.reg_putReg_same _ _ _ _

/-- Setting one bit of a pennant, or its sequence, clears no event bit. -/
theorem State.setBit_steady {s0 s : State} (p b : Nat) (h : Steady s0 s) : Steady s0 (s.setFld p ⟨0x010, b, b⟩ 1) := by
  refine ⟨fun q hp => ?_, fun q i hp hi x => ?_⟩
  · rw [State.reg_setFld_ne _ _ _ _ _ _ (by unfold regKey; dsimp only; omega)]; exact h.ctrl q hp
  · by_cases hq : q = p
    · subst hq
      have e : (s.setFld q ⟨0x010, b, b⟩ 1).reg q 0x010 = Fld.put ⟨0x010, b, b⟩ 1 (s.reg q 0x010) :=
        State.reg_setFld_same s q ⟨0x010, b, b⟩ 1
      rw [e, Fld.getLsbD_put _ _ _ _ (Nat.le_refl _) (by omega)]
      split
      · rename_i hb; have : i = b := by simpa using Nat.le_antisymm hb.2 hb.1
        subst this; simp
      · exact h.events q i hp hi x
    · rw [State.reg_setFld_ne _ _ _ _ _ _ (by unfold regKey; dsimp only; omega)]; exact h.events q i hp hi x

theorem State.advanceSeq_steady {s0 s : State} (p : Nat) (h : Steady s0 s) : Steady s0 (s.advanceSeq p) := by
  unfold State.advanceSeq
  generalize s.fld p HDR.pennantSequence + 1 = v
  refine ⟨fun q hp => ?_, fun q i hp hi x => ?_⟩
  · rw [State.reg_setFld_ne _ _ _ _ _ _ (by unfold regKey; simp only [HDR.pennantSequence]; omega)]; exact h.ctrl q hp
  · by_cases hq : q = p
    · subst hq
      have e : (s.setFld q HDR.pennantSequence v).reg q 0x010 = HDR.pennantSequence.put v (s.reg q 0x010) :=
        State.reg_setFld_same s q HDR.pennantSequence v
      rw [e, Fld.getLsbD_put_le _ _ _ _ (by decide) (by simp only [HDR.pennantSequence]; omega) (by decide)]
      exact h.events q i hp hi x
    · rw [State.reg_setFld_ne _ _ _ _ _ _ (by unfold regKey; simp only [HDR.pennantSequence]; omega)]
      exact h.events q i hp hi x

/-- PAGE_CTRL.enable cleared for some steady operations and then put back leaves the page's header as it was. -/
theorem Steady.offAndOn {s0 s : State} (p : Nat) {f : State → State} (h : Steady s0 s) (hp : p < 256)
    (hf : ∀ x, Steady x (f x)) :
    Steady s0 ((f (s.setFld p HDR.pageCtrlEnable 0)).setFld p HDR.pageCtrlEnable (b2n (s.enabled p))) := by
  have k := hf (s.setFld p HDR.pageCtrlEnable 0)
  have ne : ∀ (x : State) (q off v : Nat), (off = 0x010 ∨ off = 0x008 ∧ q ≠ p) → q < 256 →
      (x.setFld p HDR.pageCtrlEnable v).reg q off = x.reg q off := fun x q off v ho hq =>
    State.reg_setFld_ne _ _ _ _ _ _ (by simp only [regKey, HDR.pageCtrlEnable]; omega)
  refine h.trans ⟨fun q hq => ?_, fun q b hq hb x => ?_⟩
  · by_cases e : q = p
    · subst e
      have r := k.ctrl q hq
      rw [show (0x008 : Nat) = HDR.pageCtrlEnable.off from rfl] at r ⊢
      rw [State.reg_setFld_same, r, State.reg_setFld_same]
      unfold State.enabled State.flag State.fld
      generalize s.reg q HDR.pageCtrlEnable.off = w
      have b0 : HDR.pageCtrlEnable.get w % 2 = HDR.pageCtrlEnable.get w := by
        have := Fld.testBit_get HDR.pageCtrlEnable w
        apply Nat.mod_eq_of_lt
        exact Nat.mod_lt _ (by decide)
      apply BitVec.eq_of_getLsbD_eq
      intro i hi
      rw [Fld.getLsbD_put _ _ _ _ (by decide) hi, Fld.getLsbD_put _ _ _ _ (by decide) hi]
      by_cases z : i = 0
      · subst z
        have t := Fld.testBit_get HDR.pageCtrlEnable w 0
        simp only [HDR.pageCtrlEnable] at t b0 ⊢
        generalize hg : Fld.get ⟨8, 0, 0⟩ w = g at t b0 ⊢
        have : g = 0 ∨ g = 1 := by omega
        rcases this with rfl | rfl <;> simp [b2n] at t ⊢ <;> exact t
      · have n : ¬(HDR.pageCtrlEnable.lo ≤ i ∧ i ≤ HDR.pageCtrlEnable.hi) := fun y => z (Nat.le_zero.mp y.2)
        rw [if_neg n, if_neg n]
    · rw [ne _ _ _ _ (Or.inr ⟨rfl, e⟩) hq, k.ctrl q hq, ne _ _ _ _ (Or.inr ⟨rfl, e⟩) hq]
  · rw [ne _ _ _ _ (Or.inl rfl) hq]
    exact k.events q b hq hb (by rw [ne _ _ _ _ (Or.inl rfl) hq]; exact x)

end Sys2Proof.Machine
end

