-- ==== Sys2Proof/Laws/SteadyRegisters.lean ====
section
/-! SUPPORT. What leaves every PAGE_CTRL and every standing pennant bit (Laws/Steady.lean): the operations over registers, pennants and register accesses. -/

namespace Sys2Proof.Machine

theorem State.setTf_steady {s0 : State} (p : Nat) (t : Nat) (e : Nat) (w : Nat) (hi : Nat) (lo : Nat) (v : Nat) {s :
    State} (h : Steady s0 s) :
       Steady s0 (State.setTf p t e w hi lo v s) := by
  unfold State.setTf
  repeat' first | with_reducible exact h | with_reducible apply State.putTw_steady

theorem State.count_steady {s0 : State} (i : Nat) {s : State} (h : Steady s0 s) :
    Steady s0 (State.count i s) := by
  unfold State.count
  repeat' first | with_reducible exact h | with_reducible apply State.countBy_steady

theorem State.judgeTask_steady {s0 : State} (k : Nat) {s : State} (h : Steady s0 s) :
    Steady s0 (State.judgeTask k s) := by
  unfold State.judgeTask
  repeat' first
    | with_reducible assumption | intro _ | with_reducible apply Steady.ite | with_reducible apply State.count_steady
    | with_reducible apply State.iff_steady | with_reducible apply State.modTsk_steady
    | with_reducible apply State.setTf_steady

theorem State.setTaskFlag_steady {s0 : State} (k : Nat) (b : Nat) {s : State} (h : Steady s0 s) :
    Steady s0 (State.setTaskFlag k b s) := by
  unfold State.setTaskFlag
  repeat' first
    | with_reducible exact h | with_reducible apply State.judgeTask_steady | with_reducible apply State.putTw_steady

theorem State.routeEvent_steady {s0 : State} (e : Nat) {s : State} (h : Steady s0 s) :
    Steady s0 (State.routeEvent e s) := by
  unfold State.routeEvent
  repeat' first
    | with_reducible assumption | intro _ | with_reducible apply Steady.ite | with_reducible apply State.count_steady
    | with_reducible apply State.setTaskFlag_steady

theorem State.setEvent_steady {s0 : State} (p : Nat) (b : Nat) {s : State} (h : Steady s0 s) :
    Steady s0 (State.setEvent p b s) := State.routeEvent_steady _ (State.setBit_steady p b h)

theorem State.putPennant_steady {s0 : State} (p : Nat) (x : PennSt) {s : State} (h : Steady s0 s) :
    Steady s0 (State.putPennant p x s) := by
  unfold State.putPennant
  repeat' first | with_reducible exact h | with_reducible apply State.modPenn_steady

theorem State.occur_steady {s0 : State} (p : Nat) (b : Nat) {s : State} (h : Steady s0 s) :
    Steady s0 (State.occur p b s) := by
  unfold State.occur
  repeat' first
    | with_reducible assumption | intro _ | with_reducible apply Steady.ite
    | with_reducible apply State.advanceSeq_steady | with_reducible apply State.putPennant_steady
    | with_reducible apply State.setEvent_steady

theorem State.noteRaise_steady {s0 : State} (p : Nat) (b : Nat) {s : State} (h : Steady s0 s) :
    Steady s0 (State.noteRaise p b s) := by
  unfold State.noteRaise
  repeat' first | with_reducible exact h | with_reducible apply State.modLimited_steady

theorem State.sendOwned_steady {s0 : State} (f : Nat) (v : Nat) {s : State} (h : Steady s0 s) :
    Steady s0 (State.sendOwned f v s) := by
  unfold State.sendOwned
  repeat' first
    | with_reducible assumption | intro _ | with_reducible apply Steady.ite | with_reducible apply State.count_steady
    | with_reducible apply State.emit_steady | with_reducible apply State.modHif_steady

theorem State.sendVector.own_steady {s0 : State} {s : State} (h : Steady s0 s) :
    Steady s0 (State.sendVector.own s) := by
  unfold State.sendVector.own
  repeat' first
    | with_reducible assumption | intro _ | with_reducible apply Steady.ite | with_reducible apply State.count_steady
    | with_reducible apply State.sendOwned_steady | with_reducible apply Steady.foldl | split

theorem State.sendVector.dropped_steady {s0 : State} {s : State} (h : Steady s0 s) :
    Steady s0 (State.sendVector.dropped s) := by
  unfold State.sendVector.dropped
  repeat' first
    | with_reducible assumption | intro _ | with_reducible apply Steady.ite | with_reducible apply State.count_steady
    | with_reducible apply State.noteRaise_steady | with_reducible apply State.occur_steady
    | with_reducible apply State.sendVector.own_steady

theorem State.sendVector_steady {s0 : State} (v : Nat) {s : State} (h : Steady s0 s) :
    Steady s0 (State.sendVector v s) := by
  unfold State.sendVector
  repeat' first
    | with_reducible assumption | intro _ | with_reducible apply Steady.ite
    | with_reducible apply State.sendOwned_steady | with_reducible apply State.sendVector.dropped_steady
    | with_reducible apply Steady.foldl | split

theorem State.sendPennant_steady {s0 : State} (p : Nat) {s : State} (h : Steady s0 s) :
    Steady s0 (State.sendPennant p s) := by
  unfold State.sendPennant
  repeat' first
    | with_reducible assumption | intro _ | with_reducible apply Steady.ite
    | with_reducible apply State.sendVector_steady

theorem State.raise_steady {s0 : State} (p : Nat) (b : Nat) {s : State} (h : Steady s0 s) :
    Steady s0 (State.raise p b s) := by
  unfold State.raise
  repeat' first
    | with_reducible assumption | intro _ | with_reducible apply Steady.ite | with_reducible apply State.occur_steady
    | with_reducible apply State.sendPennant_steady

theorem State.raiseMs_steady {s0 : State} (p : Nat) (b : Nat) {s : State} (h : Steady s0 s) :
    Steady s0 (State.raiseMs p b s) := by
  unfold State.raiseMs
  repeat' first
    | with_reducible assumption | intro _ | with_reducible apply Steady.ite
    | with_reducible apply State.noteRaise_steady | with_reducible apply State.raise_steady

theorem State.putEntry_steady {s0 : State} (p : Nat) (t : Nat) (e : Nat) (x4 : Nat) (x5 : List Word) {s : State} (h
    : Steady s0 s) :
       Steady s0 (State.putEntry p t e x4 x5 s) := by
  induction x5 generalizing x4 s with
  | nil => exact h
  | cons x l ih =>
    unfold State.putEntry
    repeat' first | with_reducible exact h | with_reducible apply ih | with_reducible apply State.putTw_steady

theorem State.ignored_steady {s0 : State} (p : Nat) (off : Nat) (cause : Nat) {s : State} (h : Steady s0 s) :
    Steady s0 (State.ignored p off cause s) := by
  unfold State.ignored
  repeat' first
    | with_reducible exact h | exact ⟨Nat.ne_of_beq_eq_false rfl, Nat.ne_of_beq_eq_false rfl⟩
    | exact Nat.le_of_ble_eq_true rfl | with_reducible apply State.count_steady
    | with_reducible apply State.raise_steady | with_reducible apply State.setFld_steady

theorem State.setDomState_steady {s0 : State} (d : Nat) (v : Nat) {s : State} (h : Steady s0 s) :
    Steady s0 (State.setDomState d v s) := by
  unfold State.setDomState
  repeat' first
    | with_reducible assumption | exact ⟨Nat.ne_of_beq_eq_false rfl, Nat.ne_of_beq_eq_false rfl⟩
    | exact Nat.le_of_ble_eq_true rfl | intro _ | with_reducible apply Steady.ite
    | with_reducible apply State.setFld_steady | with_reducible apply Steady.foldl | split
    | with_reducible apply Steady.id | dsimp only

theorem State.setRegion_steady {s0 : State} (r : Nat) (v : Nat) {s : State} (h : Steady s0 s) :
    Steady s0 (State.setRegion r v s) := by
  unfold State.setRegion
  repeat' first
    | with_reducible assumption | exact ⟨Nat.ne_of_beq_eq_false rfl, Nat.ne_of_beq_eq_false rfl⟩
    | exact Nat.le_of_ble_eq_true rfl | intro _ | with_reducible apply Steady.ite
    | with_reducible apply State.setFld_steady | with_reducible apply Steady.foldl | split
    | with_reducible apply Steady.id | dsimp only

theorem State.stale_steady {s0 : State} (p : Nat) {s : State} (h : Steady s0 s) :
    Steady s0 (State.stale p s) := by
  unfold State.stale
  repeat' first
    | with_reducible exact h | exact ⟨Nat.ne_of_beq_eq_false rfl, Nat.ne_of_beq_eq_false rfl⟩
    | exact Nat.le_of_ble_eq_true rfl | with_reducible apply State.count_steady
    | with_reducible apply State.setFld_steady

theorem State.darkAccess_steady {s0 : State} (p : Nat) (isWrite : Bool) {s : State} (h : Steady s0 s) :
    Steady s0 (State.darkAccess p isWrite s) := by
  unfold State.darkAccess
  repeat' first
    | with_reducible exact h | exact ⟨Nat.ne_of_beq_eq_false rfl, Nat.ne_of_beq_eq_false rfl⟩
    | exact Nat.le_of_ble_eq_true rfl | with_reducible apply State.count_steady
    | with_reducible apply State.setFld_steady

theorem State.guarded_steady {s0 : State} (p : Nat) (off : Nat) (acc : Access) {f : State → State} {s : State} (h :
    Steady s0 s) (h4 : ∀ y0, Steady s0 y0 → Steady s0 (f y0)) :
       Steady s0 (State.guarded p off acc f s) := by
  unfold State.guarded
  repeat' first
    | with_reducible assumption | intro _ | with_reducible apply Steady.ite
    | with_reducible apply State.darkAccess_steady | with_reducible apply State.ignored_steady
    | with_reducible apply h4 | with_reducible apply Steady.foldl | split

theorem State.modFn_steady {s0 : State} (f : Nat) (g : FnSt → FnSt) {s : State} (h : Steady s0 s) :
    Steady s0 (State.modFn f g s) := by
  unfold State.modFn
  repeat' first | with_reducible exact h | with_reducible apply State.modHif_steady

theorem State.pennantHoldEnd_steady {s0 : State} (p : Nat) {s : State} (h : Steady s0 s) :
    Steady s0 (State.pennantHoldEnd p s) := by
  unfold State.pennantHoldEnd
  repeat' first
    | with_reducible assumption | intro _ | with_reducible apply Steady.ite
    | with_reducible apply State.advanceSeq_steady | with_reducible apply State.iff_steady
    | with_reducible apply State.putPennant_steady | with_reducible apply State.sendPennant_steady

end Sys2Proof.Machine
end

