-- ==== Sys2Proof/Laws/Pennants.lean ====
section
/-! SUPPORT. What raising an event does (R51, R53, R459, R487): its bit stands afterwards, and nothing else changes but the
pennants' registers, the task flags and states of the TSK tables with their ready list, the counts of messages and of task
flags, what is sent, pending vectors, and the times of raises. -/

set_option Elab.async false
set_option linter.all false

namespace Sys2Proof.Machine

/-- The counters that raising an event may advance: messages sent and dropped, task flags set by events, tasks that wait for
their flow. -/
def raiseCounters : List Nat := [cuHIF + 10, cuHIF + 11, cuTSK + 3, cuTSK + 8]

/-- What raising events leaves of the state `s0` it began with. -/
structure Quiet (s0 s : State) : Prop where
  copy : ∀ c p off, off / 4 % 1024 ≠ 4 → s.copy c p off = s0.copy c p off
  staged : s.rf.staged = s0.rf.staged
  latches : s.rf.latches = s0.rf.latches
  tw : ∀ p t e w, tblKey p t e w / 0x4000000 ≠ pgTSK → s.tw p t e w = s0.tw p t e w
  counter : ∀ i, raiseCounters.contains i = false → s.counter i = s0.counter i
  hif : { s.hif with pba := [] } = { s0.hif with pba := [] }
  wins : s.wins = s0.wins
  now : s.now = s0.now
  readData : s.readData = s0.readData
  readHigh : s.readHigh = s0.readHigh
  freeIx : s.freeIx = s0.freeIx
  rx : s.rx = s0.rx
  tx : s.tx = s0.tx
  dma : s.dma = s0.dma
  uni : s.uni = s0.uni
  sto : s.sto = s0.sto
  xtr : s.xtr = s0.xtr
  cls : s.cls = s0.cls
  flow : s.flow = s0.flow
  usch : s.usch = s0.usch
  grt : s.grt = s0.grt
  pol : s.pol = s0.pol
  frm : s.frm = s0.frm
  pm : s.pm = s0.pm
  lsec : s.lsec = s0.lsec
  rel : s.rel = s0.rel
  hal : s.hal = s0.hal
  sram : s.sram = s0.sram
  dual : s.dual = s0.dual
  snap : s.snap = s0.snap
  time : s.time = s0.time
  act : s.act = s0.act
  noticeNext : s.noticeNext = s0.noticeNext
  ccry : s.ccry = s0.ccry
  kst : s.kst = s0.kst
  clk : s.clk = s0.clk
  lehr : s.lehr = s0.lehr
  tap : s.tap = s0.tap
  sup : s.sup = s0.sup
  keep : s.keep = s0.keep
  core : s.core = s0.core
  flsh : s.flsh = s0.flsh
  pending : s.pending = s0.pending

theorem Quiet.refl (s : State) : Quiet s s := by
  constructor <;> first | rfl | (intros; rfl)

theorem Quiet.trans {a b c : State} (h : Quiet a b) (k : Quiet b c) : Quiet a c :=
  ⟨fun c p o x => (k.copy c p o x).trans (h.copy c p o x), k.staged.trans h.staged, k.latches.trans h.latches, fun p t e w x => (k.tw p t e w x).trans (h.tw p t e w x),
    fun i x => (k.counter i x).trans (h.counter i x), k.hif.trans h.hif,
    k.wins.trans h.wins, k.now.trans h.now, k.readData.trans h.readData, k.readHigh.trans h.readHigh, k.freeIx.trans h.freeIx, k.rx.trans h.rx, k.tx.trans h.tx, k.dma.trans h.dma, k.uni.trans h.uni, k.sto.trans h.sto, k.xtr.trans h.xtr, k.cls.trans h.cls, k.flow.trans h.flow, k.usch.trans h.usch, k.grt.trans h.grt, k.pol.trans h.pol, k.frm.trans h.frm, k.pm.trans h.pm, k.lsec.trans h.lsec, k.rel.trans h.rel, k.hal.trans h.hal, k.sram.trans h.sram, k.dual.trans h.dual, k.snap.trans h.snap, k.time.trans h.time, k.act.trans h.act, k.noticeNext.trans h.noticeNext, k.ccry.trans h.ccry, k.kst.trans h.kst, k.clk.trans h.clk, k.lehr.trans h.lehr, k.tap.trans h.tap, k.sup.trans h.sup, k.keep.trans h.keep, k.core.trans h.core, k.flsh.trans h.flsh, k.pending.trans h.pending⟩

theorem Quiet.reg {a b : State} (h : Quiet a b) (p off : Nat) (ho : off / 4 % 1024 ≠ 4) : b.reg p off = a.reg p off := by
  unfold State.reg
  simp only [h.copy _ p off ho]

theorem Quiet.ite {s0 a b : State} {c : Prop} [Decidable c] (ha : Quiet s0 a) (hb : Quiet s0 b) :
    Quiet s0 (if c then a else b) := by split <;> assumption

theorem State.iff_quiet {s0 s : State} (c : Bool) {f : State → State} (h : Quiet s0 s)
    (hf : ∀ x, Quiet s0 x → Quiet s0 (f x)) : Quiet s0 (s.iff c f) := by
  unfold State.iff; split
  · exact hf _ h
  · exact h

theorem State.modPenn_quiet {s0 s : State} (f : Sparse PennSt → Sparse PennSt) (h : Quiet s0 s) : Quiet s0 (s.modPenn f) :=
  ⟨h.copy, h.staged, h.latches, h.tw, h.counter, h.hif, h.wins, h.now, h.readData, h.readHigh, h.freeIx, h.rx, h.tx, h.dma, h.uni, h.sto, h.xtr, h.cls, h.flow, h.usch, h.grt, h.pol, h.frm, h.pm, h.lsec, h.rel, h.hal, h.sram, h.dual, h.snap, h.time, h.act, h.noticeNext, h.ccry, h.kst, h.clk, h.lehr, h.tap, h.sup, h.keep, h.core, h.flsh, h.pending⟩

theorem State.modLimited_quiet {s0 s : State} (f : Sparse Nat → Sparse Nat) (h : Quiet s0 s) : Quiet s0 (s.modLimited f) :=
  ⟨h.copy, h.staged, h.latches, h.tw, h.counter, h.hif, h.wins, h.now, h.readData, h.readHigh, h.freeIx, h.rx, h.tx, h.dma, h.uni, h.sto, h.xtr, h.cls, h.flow, h.usch, h.grt, h.pol, h.frm, h.pm, h.lsec, h.rel, h.hal, h.sram, h.dual, h.snap, h.time, h.act, h.noticeNext, h.ccry, h.kst, h.clk, h.lehr, h.tap, h.sup, h.keep, h.core, h.flsh, h.pending⟩

theorem State.modTsk_quiet {s0 s : State} (f : TskSt → TskSt) (h : Quiet s0 s) : Quiet s0 (s.modTsk f) :=
  ⟨h.copy, h.staged, h.latches, h.tw, h.counter, h.hif, h.wins, h.now, h.readData, h.readHigh, h.freeIx, h.rx, h.tx, h.dma, h.uni, h.sto, h.xtr, h.cls, h.flow, h.usch, h.grt, h.pol, h.frm, h.pm, h.lsec, h.rel, h.hal, h.sram, h.dual, h.snap, h.time, h.act, h.noticeNext, h.ccry, h.kst, h.clk, h.lehr, h.tap, h.sup, h.keep, h.core, h.flsh, h.pending⟩

theorem State.modOut_quiet {s0 s : State} (f : List Emission → List Emission) (h : Quiet s0 s) : Quiet s0 (s.modOut f) :=
  ⟨h.copy, h.staged, h.latches, h.tw, h.counter, h.hif, h.wins, h.now, h.readData, h.readHigh, h.freeIx, h.rx, h.tx, h.dma, h.uni, h.sto, h.xtr, h.cls, h.flow, h.usch, h.grt, h.pol, h.frm, h.pm, h.lsec, h.rel, h.hal, h.sram, h.dual, h.snap, h.time, h.act, h.noticeNext, h.ccry, h.kst, h.clk, h.lehr, h.tap, h.sup, h.keep, h.core, h.flsh, h.pending⟩

theorem State.putReg_staged (s : State) (p off : Nat) (v : Word) : (s.putReg p off v).rf.staged = s.rf.staged := by
  unfold State.putReg State.modRf
  dsimp only
  split <;> rfl

theorem State.putReg_latches (s : State) (p off : Nat) (v : Word) : (s.putReg p off v).rf.latches = s.rf.latches := by
  unfold State.putReg State.modRf
  dsimp only
  split <;> rfl

theorem State.setPennFld_quiet {s0 s : State} (p : Nat) (f : Fld) (v : Nat) (h : Quiet s0 s) (hf : f.off = 0x010) :
    Quiet s0 (s.setFld p f v) :=
  ⟨fun c q o x => (State.copy_putReg_ne s c p f.off q o _ (by unfold regKey; rw [hf]; omega)).trans (h.copy c q o x), (State.putReg_staged s _ _ _).trans h.staged, (State.putReg_latches s _ _ _).trans h.latches, h.tw, h.counter, h.hif, h.wins, h.now, h.readData, h.readHigh, h.freeIx, h.rx, h.tx, h.dma, h.uni, h.sto, h.xtr, h.cls, h.flow, h.usch, h.grt, h.pol, h.frm, h.pm, h.lsec, h.rel, h.hal, h.sram, h.dual, h.snap, h.time, h.act, h.noticeNext, h.ccry, h.kst, h.clk, h.lehr, h.tap, h.sup, h.keep, h.core, h.flsh, h.pending⟩

theorem State.modTables_quiet {s0 s : State} {g : Sparse Word → Sparse Word} (h : Quiet s0 s)
    (htw : ∀ p t e w, tblKey p t e w / 0x4000000 ≠ pgTSK → (s.modTables g).tw p t e w = s0.tw p t e w) :
    Quiet s0 (s.modTables g) :=
  ⟨h.copy, h.staged, h.latches, htw, h.counter, h.hif, h.wins, h.now, h.readData, h.readHigh, h.freeIx, h.rx, h.tx, h.dma, h.uni, h.sto, h.xtr, h.cls, h.flow, h.usch, h.grt, h.pol, h.frm, h.pm, h.lsec, h.rel, h.hal, h.sram, h.dual, h.snap, h.time, h.act, h.noticeNext, h.ccry, h.kst, h.clk, h.lehr, h.tap, h.sup, h.keep, h.core, h.flsh, h.pending⟩

theorem State.putTaskTw_quiet {s0 s : State} (t e w : Nat) (v : Word) (h : Quiet s0 s)
    (hk : t < 8 ∧ e < 0x40000 ∧ w < 32) : Quiet s0 (s.putTw pgTSK t e w v) := by
  have hne : ∀ p t' e' w', tblKey p t' e' w' / 0x4000000 ≠ pgTSK → tblKey p t' e' w' ≠ tblKey pgTSK t e w := by
    intro p t' e' w' x hh
    apply x
    rw [hh]; unfold tblKey pgTSK; omega
  have htw : ∀ p t' e' w', tblKey p t' e' w' / 0x4000000 ≠ pgTSK → (s.putTw pgTSK t e w v).tw p t' e' w' = s0.tw p t' e' w' :=
    fun p t' e' w' x => (State.tw_putTw_ne s pgTSK t e w p t' e' w' v (hne p t' e' w' x)).trans (h.tw p t' e' w' x)
  unfold State.putTw at htw ⊢
  exact State.modTables_quiet h htw

theorem State.countRaise_quiet {s0 s : State} (i : Nat) (h : Quiet s0 s) (hi : raiseCounters.contains i = true) :
    Quiet s0 (s.count i) :=
  ⟨h.copy, h.staged, h.latches, h.tw, fun j x => (State.counter_count_ne s i j (fun e => by rw [e, hi] at x; cases x)).trans (h.counter j x), h.hif, h.wins, h.now, h.readData, h.readHigh, h.freeIx, h.rx, h.tx, h.dma, h.uni, h.sto, h.xtr, h.cls, h.flow, h.usch, h.grt, h.pol, h.frm, h.pm, h.lsec, h.rel, h.hal, h.sram, h.dual, h.snap, h.time, h.act, h.noticeNext, h.ccry, h.kst, h.clk, h.lehr, h.tap, h.sup, h.keep, h.core, h.flsh, h.pending⟩

theorem State.sendOwned_quiet {s0 s : State} (f v : Nat) (h : Quiet s0 s) : Quiet s0 (s.sendOwned f v) := by
  unfold State.sendOwned
  apply Quiet.ite
  · exact ⟨h.copy, h.staged, h.latches, h.tw, h.counter, h.hif, h.wins, h.now, h.readData, h.readHigh, h.freeIx, h.rx, h.tx, h.dma, h.uni, h.sto, h.xtr, h.cls, h.flow, h.usch, h.grt, h.pol, h.frm, h.pm, h.lsec, h.rel, h.hal, h.sram, h.dual, h.snap, h.time, h.act, h.noticeNext, h.ccry, h.kst, h.clk, h.lehr, h.tap, h.sup, h.keep, h.core, h.flsh, h.pending⟩
  · exact State.countRaise_quiet _ (State.modOut_quiet _ h) (by decide)

theorem Fld.get_lt (f : Fld) (w : Word) : f.get w < 2 ^ (f.hi + 1 - f.lo) := Nat.mod_lt _ (Nat.two_pow_pos _)

theorem State.judgeTask_quiet {s0 s : State} (k : Nat) (h : Quiet s0 s) (hk : k < 0x40000) : Quiet s0 (s.judgeTask k) := by
  unfold State.judgeTask
  dsimp only
  apply Quiet.ite
  · exact State.iff_quiet _ (State.modTsk_quiet _ (State.putTaskTw_quiet _ _ _ _ h ⟨by decide, hk, by decide⟩))
      (fun _ hx => State.countRaise_quiet _ hx (by decide))
  · exact Quiet.ite (State.modTsk_quiet _ (State.putTaskTw_quiet _ _ _ _ h ⟨by decide, hk, by decide⟩)) h

theorem State.setTaskFlag_quiet {s0 s : State} (k b : Nat) (h : Quiet s0 s) (hk : k < 0x40000) :
    Quiet s0 (s.setTaskFlag k b) :=
  State.judgeTask_quiet k (State.putTaskTw_quiet _ _ _ _ h ⟨by decide, hk, by decide⟩) hk

theorem State.routeEvent_quiet {s0 s : State} (e : Nat) (h : Quiet s0 s) : Quiet s0 (s.routeEvent e) := by
  unfold State.routeEvent
  apply Quiet.ite
  · refine State.countRaise_quiet _ (State.setTaskFlag_quiet _ _ h ?_) (by decide)
    exact Nat.lt_of_lt_of_le (Fld.get_lt ⟨0, 9, 0⟩ _) (by decide)
  · exact h

theorem State.setEvent_quiet {s0 s : State} (p b : Nat) (h : Quiet s0 s) : Quiet s0 (s.setEvent p b) :=
  State.routeEvent_quiet _ (State.setPennFld_quiet _ _ _ h rfl)

theorem State.advanceSeq_quiet {s0 s : State} (p : Nat) (h : Quiet s0 s) : Quiet s0 (s.advanceSeq p) :=
  State.setPennFld_quiet _ _ _ h rfl

theorem State.occur_quiet {s0 s : State} (p b : Nat) (h : Quiet s0 s) : Quiet s0 (s.occur p b) := by
  unfold State.occur
  exact Quiet.ite (State.modPenn_quiet _ (State.setEvent_quiet _ _ h))
    (State.modPenn_quiet _ (State.advanceSeq_quiet _ (State.setEvent_quiet _ _ h)))

theorem State.sendVectorOwn_quiet {s0 s : State} (h : Quiet s0 s) : Quiet s0 (State.sendVector.own s) := by
  unfold State.sendVector.own
  split
  · exact Quiet.ite (State.countRaise_quiet _ h (by decide)) (State.sendOwned_quiet _ _ h)
  · exact State.countRaise_quiet _ h (by decide)

theorem State.sendVectorDropped_quiet {s0 s : State} (h : Quiet s0 s) : Quiet s0 (State.sendVector.dropped s) := by
  unfold State.sendVector.dropped
  dsimp only
  have hc := State.countRaise_quiet (cuHIF + 11) h (by decide)
  have ho := State.occur_quiet pgHIF 8 (State.modLimited_quiet (Sparse.put 0 (eventKey pgHIF 8) ((s.count (cuHIF + 11)).now + 1)) hc)
  exact Quiet.ite (Quiet.ite (State.sendVectorOwn_quiet ho) ho) hc

theorem State.sendVector_quiet {s0 s : State} (v : Nat) (h : Quiet s0 s) : Quiet s0 (s.sendVector v) := by
  unfold State.sendVector
  split
  · exact Quiet.ite (State.sendVectorDropped_quiet h) (State.sendOwned_quiet _ _ h)
  · exact State.sendVectorDropped_quiet h

/-- Raising an event: what it leaves. -/
theorem State.raise_quiet {s0 s : State} (p b : Nat) (h : Quiet s0 s) : Quiet s0 (s.raise p b) := by
  unfold State.raise
  exact Quiet.ite (Quiet.ite (State.sendVector_quiet _ (State.occur_quiet _ _ h)) (State.occur_quiet _ _ h))
    (State.occur_quiet _ _ h)

theorem State.raiseMs_quiet {s0 s : State} (p b : Nat) (h : Quiet s0 s) : Quiet s0 (s.raiseMs p b) := by
  unfold State.raiseMs
  exact Quiet.ite (State.raise_quiet _ _ (State.modLimited_quiet _ h)) h

/-! The event's bit. -/

theorem State.stands_setBit (s : State) (p b : Nat) (hb : b < 24) : (s.setFld p ⟨0x010, b, b⟩ 1).stands p b = true := by
  unfold State.stands
  have e : (s.setFld p ⟨0x010, b, b⟩ 1).reg p 0x010 = Fld.put ⟨0x010, b, b⟩ 1 (s.reg p 0x010) :=
    State.reg_setFld_same s p ⟨0x010, b, b⟩ 1
  rw [e, Fld.getLsbD_put _ _ _ _ (Nat.le_refl _) (by omega)]
  simp

/-- A raised event's bit stands (R51). -/
theorem State.stands_raise (s : State) (p b : Nat) (hp : p < 256) (hb : b < 24) : (s.raise p b).stands p b = true := by
  have h : Steady (s.setFld p ⟨0x010, b, b⟩ 1) (s.raise p b) := by
    have h1 := State.routeEvent_steady (32 * p + b) (Steady.refl (s.setFld p ⟨0x010, b, b⟩ 1))
    unfold State.raise State.occur State.setEvent
    dsimp only
    have ho := Steady.ite (c := (s.pennant p).hold = true)
      (State.putPennant_steady p { s.pennant p with pend := true, unmasked := (s.pennant p).unmasked || s.unmasked p b } h1)
      (State.putPennant_steady p { hold := true } (State.advanceSeq_steady p h1))
    exact Steady.ite (State.sendPennant_steady _ ho) ho
  exact h.events p b hp hb (State.stands_setBit s p b hb)

/-- A standing event still stands after anything steady. -/
theorem Steady.stands {a b : State} (h : Steady a b) {p i : Nat} (hp : p < 256) (hi : i < 24) (hs : a.stands p i = true) :
    b.stands p i = true := h.events p i hp hi hs

end Sys2Proof.Machine
end

