-- ==== Sys2Proof/Laws/Access.lean ====
section
/-! SUPPORT. Register accesses: what a write of a page that is ready does (R44, R46, R49, R50), what a page's enable becomes, and
what a raised event leaves of each kind of storage. -/

set_option Elab.async false
set_option linter.all false

namespace Sys2Proof.Machine

open Sys2Proof.Safety

/-- Does a plain write of `off` of page `p` always take effect on a ready page: something stands there that is written or
commanded, and it is not held back by the page's enable alone? -/
def takes (p off : Nat) : Bool :=
  match regInfo p off with
  | some r =>
    off != 0x010 && !(off == 8 && p == pgSYS) && (r.rwe == 0 || r.rw != 0 || r.rwt != 0 || r.wo != 0) &&
      (r.rw != 0 || r.rwe != 0 || r.rwt != 0 || r.wo != 0)
  | none => false

/-- A plain whole write of a ready page takes effect. -/
theorem State.guarded_ready {s : State} {p off : Nat} (hr : Ready s p) (ht : takes p off = true) (acc : Access)
    (hb : acc.be = 15#4) (hv : acc.view = .normal) (f : State → State) : s.guarded p off acc f = f s := by
  have hj : s.judge p off acc = .apply := by
    unfold takes at ht
    unfold State.judge
    obtain ⟨hd, hs⟩ := hr
    simp only [hd, hs, hb, hv]
    cases hri : regInfo p off with
    | none => rw [hri] at ht; cases ht
    | some r =>
      rw [hri] at ht
      simp only [Bool.and_eq_true, Bool.or_eq_true, bne_iff_ne, beq_iff_eq, Bool.not_eq_true', ne_eq,
        Bool.and_eq_false_iff, beq_eq_false_iff_ne] at ht
      obtain ⟨⟨⟨h1, h2⟩, h3⟩, h4⟩ := ht
      simp only [Bool.false_eq_true, if_false, Bool.false_and, ne_eq, not_true_eq_false, h1]
      rw [if_neg (by omega), if_neg (fun ⟨_, _, _, _, _⟩ => by omega), if_neg (by omega), if_neg (fun h => h.2.2.2.elim)]
  unfold State.guarded
  rw [hj]

theorem State.guarded_cmd {s : State} {p off : Nat} (hr : Ready s p) (ht : takes p off = true) (v : Word)
    (f : State → State) : s.guarded p off (cmdAccess v) f = f s := State.guarded_ready hr ht _ rfl rfl f

theorem State.guarded_core {s : State} {p off : Nat} (hr : Ready s p) (ht : takes p off = true) (v : Word)
    (f : State → State) : s.guarded p off (coreAccess v) f = f s := State.guarded_ready hr ht _ rfl rfl f

/-- Any access that does not reach a ready page leaves its trace or nothing; one on a dark page is counted (R44). -/
theorem State.guarded_dark {s : State} {p : Nat} (hd : s.dark p = true) (off : Nat) (acc : Access) (f : State → State) :
    s.guarded p off acc f = s.darkAccess p true := by
  unfold State.guarded State.judge
  rw [hd]; rfl

/-! Enables. -/

theorem State.enabled_setEnable (s : State) (p v : Nat) : (s.setFld p HDR.pageCtrlEnable v).enabled p = (v % 2 != 0) :=
  State.flag_setFld_same s p HDR.pageCtrlEnable v ⟨rfl, by decide⟩

/-- Steady operations leave every page's enable. -/
theorem Steady.enabled {a b : State} (h : Steady a b) {p : Nat} (hp : p < 256) : b.enabled p = a.enabled p := by
  have e : HDR.pageCtrlEnable.off = 0x008 := rfl
  unfold State.enabled State.flag State.fld
  rw [e, h.ctrl p hp]

/-- A page that is turned on is enabled, whatever that starts. -/
theorem State.pageOn_enabled {s : State} {p : Nat} (hp : p < 256) (hr : Ready s p) (ht : takes p 0x008 = true)
    {f : State → State} (hf : ∀ x, Steady x (f x)) : (s.pageOn p f).enabled p = true := by
  unfold State.pageOn
  rw [State.guarded_cmd hr ht]
  split
  · assumption
  · rw [(hf _).enabled hp, State.enabled_setEnable]; rfl

/-- A page that is turned off is not enabled, whatever that stops. -/
theorem State.pageOff_disabled {s : State} {p : Nat} (hp : p < 256) (hr : Ready s p) (ht : takes p 0x008 = true)
    {f : State → State} (hf : ∀ x, Steady x (f x)) : (s.pageOff p f).enabled p = false := by
  unfold State.pageOff
  rw [State.guarded_cmd hr ht]
  split
  · rw [(hf _).enabled hp, State.enabled_setEnable]; rfl
  · rename_i h; exact Bool.eq_false_iff.mpr h

/-! What a raised event leaves. -/

theorem State.reg_raise (s : State) (p b q off : Nat) (ho : off / 4 % 1024 ≠ 4) : (s.raise p b).reg q off = s.reg q off :=
  (State.raise_quiet p b (Quiet.refl s)).reg q off ho
theorem State.fld_raise (s : State) (p b q : Nat) (f : Fld) (ho : f.off / 4 % 1024 ≠ 4) :
    (s.raise p b).fld q f = s.fld q f := by unfold State.fld; rw [State.reg_raise _ _ _ _ _ ho]
theorem State.flag_raise (s : State) (p b q : Nat) (f : Fld) (ho : f.off / 4 % 1024 ≠ 4) :
    (s.raise p b).flag q f = s.flag q f := by unfold State.flag; rw [State.fld_raise _ _ _ _ _ ho]
theorem State.counter_raise (s : State) (p b i : Nat) (hi : raiseCounters.contains i = false) :
    (s.raise p b).counter i = s.counter i := (State.raise_quiet p b (Quiet.refl s)).counter i hi
theorem State.tw_raise (s : State) (p b q t e w : Nat) (hk : tblKey q t e w / 0x4000000 ≠ pgTSK) :
    (s.raise p b).tw q t e w = s.tw q t e w := (State.raise_quiet p b (Quiet.refl s)).tw q t e w hk

theorem State.reg_raiseMs (s : State) (p b q off : Nat) (ho : off / 4 % 1024 ≠ 4) :
    (s.raiseMs p b).reg q off = s.reg q off := (State.raiseMs_quiet p b (Quiet.refl s)).reg q off ho
theorem State.fld_raiseMs (s : State) (p b q : Nat) (f : Fld) (ho : f.off / 4 % 1024 ≠ 4) :
    (s.raiseMs p b).fld q f = s.fld q f := by unfold State.fld; rw [State.reg_raiseMs _ _ _ _ _ ho]
theorem State.flag_raiseMs (s : State) (p b q : Nat) (f : Fld) (ho : f.off / 4 % 1024 ≠ 4) :
    (s.raiseMs p b).flag q f = s.flag q f := by unfold State.flag; rw [State.fld_raiseMs _ _ _ _ _ ho]
theorem State.counter_raiseMs (s : State) (p b i : Nat) (hi : raiseCounters.contains i = false) :
    (s.raiseMs p b).counter i = s.counter i := (State.raiseMs_quiet p b (Quiet.refl s)).counter i hi
theorem State.tw_raiseMs (s : State) (p b q t e w : Nat) (hk : tblKey q t e w / 0x4000000 ≠ pgTSK) :
    (s.raiseMs p b).tw q t e w = s.tw q t e w := (State.raiseMs_quiet p b (Quiet.refl s)).tw q t e w hk

/-- An event raised at most once per ms, raised when it may be, stands. -/
theorem State.stands_raiseMs (s : State) (p b : Nat) (hp : p < 256) (hb : b < 24) (hm : s.mayRaise p b = true) :
    (s.raiseMs p b).stands p b = true := by
  unfold State.raiseMs
  rw [if_pos hm]
  exact State.stands_raise _ p b hp hb

@[simp] theorem State.raise_wins (s : State) (p b : Nat) : (s.raise p b).wins = s.wins :=
  (State.raise_quiet p b (Quiet.refl s)).wins
@[simp] theorem State.raise_now (s : State) (p b : Nat) : (s.raise p b).now = s.now :=
  (State.raise_quiet p b (Quiet.refl s)).now
@[simp] theorem State.raise_readData (s : State) (p b : Nat) : (s.raise p b).readData = s.readData :=
  (State.raise_quiet p b (Quiet.refl s)).readData
@[simp] theorem State.raise_readHigh (s : State) (p b : Nat) : (s.raise p b).readHigh = s.readHigh :=
  (State.raise_quiet p b (Quiet.refl s)).readHigh
@[simp] theorem State.raise_freeIx (s : State) (p b : Nat) : (s.raise p b).freeIx = s.freeIx :=
  (State.raise_quiet p b (Quiet.refl s)).freeIx
@[simp] theorem State.raise_rx (s : State) (p b : Nat) : (s.raise p b).rx = s.rx :=
  (State.raise_quiet p b (Quiet.refl s)).rx
@[simp] theorem State.raise_tx (s : State) (p b : Nat) : (s.raise p b).tx = s.tx :=
  (State.raise_quiet p b (Quiet.refl s)).tx
@[simp] theorem State.raise_dma (s : State) (p b : Nat) : (s.raise p b).dma = s.dma :=
  (State.raise_quiet p b (Quiet.refl s)).dma
@[simp] theorem State.raise_uni (s : State) (p b : Nat) : (s.raise p b).uni = s.uni :=
  (State.raise_quiet p b (Quiet.refl s)).uni
@[simp] theorem State.raise_sto (s : State) (p b : Nat) : (s.raise p b).sto = s.sto :=
  (State.raise_quiet p b (Quiet.refl s)).sto
@[simp] theorem State.raise_xtr (s : State) (p b : Nat) : (s.raise p b).xtr = s.xtr :=
  (State.raise_quiet p b (Quiet.refl s)).xtr
@[simp] theorem State.raise_cls (s : State) (p b : Nat) : (s.raise p b).cls = s.cls :=
  (State.raise_quiet p b (Quiet.refl s)).cls
@[simp] theorem State.raise_flow (s : State) (p b : Nat) : (s.raise p b).flow = s.flow :=
  (State.raise_quiet p b (Quiet.refl s)).flow
@[simp] theorem State.raise_usch (s : State) (p b : Nat) : (s.raise p b).usch = s.usch :=
  (State.raise_quiet p b (Quiet.refl s)).usch
@[simp] theorem State.raise_grt (s : State) (p b : Nat) : (s.raise p b).grt = s.grt :=
  (State.raise_quiet p b (Quiet.refl s)).grt
@[simp] theorem State.raise_pol (s : State) (p b : Nat) : (s.raise p b).pol = s.pol :=
  (State.raise_quiet p b (Quiet.refl s)).pol
@[simp] theorem State.raise_frm (s : State) (p b : Nat) : (s.raise p b).frm = s.frm :=
  (State.raise_quiet p b (Quiet.refl s)).frm
@[simp] theorem State.raise_pm (s : State) (p b : Nat) : (s.raise p b).pm = s.pm :=
  (State.raise_quiet p b (Quiet.refl s)).pm
@[simp] theorem State.raise_lsec (s : State) (p b : Nat) : (s.raise p b).lsec = s.lsec :=
  (State.raise_quiet p b (Quiet.refl s)).lsec
@[simp] theorem State.raise_rel (s : State) (p b : Nat) : (s.raise p b).rel = s.rel :=
  (State.raise_quiet p b (Quiet.refl s)).rel
@[simp] theorem State.raise_hal (s : State) (p b : Nat) : (s.raise p b).hal = s.hal :=
  (State.raise_quiet p b (Quiet.refl s)).hal
@[simp] theorem State.raise_sram (s : State) (p b : Nat) : (s.raise p b).sram = s.sram :=
  (State.raise_quiet p b (Quiet.refl s)).sram
@[simp] theorem State.raise_dual (s : State) (p b : Nat) : (s.raise p b).dual = s.dual :=
  (State.raise_quiet p b (Quiet.refl s)).dual
@[simp] theorem State.raise_snap (s : State) (p b : Nat) : (s.raise p b).snap = s.snap :=
  (State.raise_quiet p b (Quiet.refl s)).snap
@[simp] theorem State.raise_time (s : State) (p b : Nat) : (s.raise p b).time = s.time :=
  (State.raise_quiet p b (Quiet.refl s)).time
@[simp] theorem State.raise_act (s : State) (p b : Nat) : (s.raise p b).act = s.act :=
  (State.raise_quiet p b (Quiet.refl s)).act
@[simp] theorem State.raise_noticeNext (s : State) (p b : Nat) : (s.raise p b).noticeNext = s.noticeNext :=
  (State.raise_quiet p b (Quiet.refl s)).noticeNext
@[simp] theorem State.raise_ccry (s : State) (p b : Nat) : (s.raise p b).ccry = s.ccry :=
  (State.raise_quiet p b (Quiet.refl s)).ccry
@[simp] theorem State.raise_kst (s : State) (p b : Nat) : (s.raise p b).kst = s.kst :=
  (State.raise_quiet p b (Quiet.refl s)).kst
@[simp] theorem State.raise_clk (s : State) (p b : Nat) : (s.raise p b).clk = s.clk :=
  (State.raise_quiet p b (Quiet.refl s)).clk
@[simp] theorem State.raise_lehr (s : State) (p b : Nat) : (s.raise p b).lehr = s.lehr :=
  (State.raise_quiet p b (Quiet.refl s)).lehr
@[simp] theorem State.raise_tap (s : State) (p b : Nat) : (s.raise p b).tap = s.tap :=
  (State.raise_quiet p b (Quiet.refl s)).tap
@[simp] theorem State.raise_sup (s : State) (p b : Nat) : (s.raise p b).sup = s.sup :=
  (State.raise_quiet p b (Quiet.refl s)).sup
@[simp] theorem State.raise_keep (s : State) (p b : Nat) : (s.raise p b).keep = s.keep :=
  (State.raise_quiet p b (Quiet.refl s)).keep
@[simp] theorem State.raise_core (s : State) (p b : Nat) : (s.raise p b).core = s.core :=
  (State.raise_quiet p b (Quiet.refl s)).core
@[simp] theorem State.raise_flsh (s : State) (p b : Nat) : (s.raise p b).flsh = s.flsh :=
  (State.raise_quiet p b (Quiet.refl s)).flsh
@[simp] theorem State.raise_pending (s : State) (p b : Nat) : (s.raise p b).pending = s.pending :=
  (State.raise_quiet p b (Quiet.refl s)).pending
@[simp] theorem State.raiseMs_wins (s : State) (p b : Nat) : (s.raiseMs p b).wins = s.wins :=
  (State.raiseMs_quiet p b (Quiet.refl s)).wins
@[simp] theorem State.raiseMs_now (s : State) (p b : Nat) : (s.raiseMs p b).now = s.now :=
  (State.raiseMs_quiet p b (Quiet.refl s)).now
@[simp] theorem State.raiseMs_readData (s : State) (p b : Nat) : (s.raiseMs p b).readData = s.readData :=
  (State.raiseMs_quiet p b (Quiet.refl s)).readData
@[simp] theorem State.raiseMs_readHigh (s : State) (p b : Nat) : (s.raiseMs p b).readHigh = s.readHigh :=
  (State.raiseMs_quiet p b (Quiet.refl s)).readHigh
@[simp] theorem State.raiseMs_freeIx (s : State) (p b : Nat) : (s.raiseMs p b).freeIx = s.freeIx :=
  (State.raiseMs_quiet p b (Quiet.refl s)).freeIx
@[simp] theorem State.raiseMs_rx (s : State) (p b : Nat) : (s.raiseMs p b).rx = s.rx :=
  (State.raiseMs_quiet p b (Quiet.refl s)).rx
@[simp] theorem State.raiseMs_tx (s : State) (p b : Nat) : (s.raiseMs p b).tx = s.tx :=
  (State.raiseMs_quiet p b (Quiet.refl s)).tx
@[simp] theorem State.raiseMs_dma (s : State) (p b : Nat) : (s.raiseMs p b).dma = s.dma :=
  (State.raiseMs_quiet p b (Quiet.refl s)).dma
@[simp] theorem State.raiseMs_uni (s : State) (p b : Nat) : (s.raiseMs p b).uni = s.uni :=
  (State.raiseMs_quiet p b (Quiet.refl s)).uni
@[simp] theorem State.raiseMs_sto (s : State) (p b : Nat) : (s.raiseMs p b).sto = s.sto :=
  (State.raiseMs_quiet p b (Quiet.refl s)).sto
@[simp] theorem State.raiseMs_xtr (s : State) (p b : Nat) : (s.raiseMs p b).xtr = s.xtr :=
  (State.raiseMs_quiet p b (Quiet.refl s)).xtr
@[simp] theorem State.raiseMs_cls (s : State) (p b : Nat) : (s.raiseMs p b).cls = s.cls :=
  (State.raiseMs_quiet p b (Quiet.refl s)).cls
@[simp] theorem State.raiseMs_flow (s : State) (p b : Nat) : (s.raiseMs p b).flow = s.flow :=
  (State.raiseMs_quiet p b (Quiet.refl s)).flow
@[simp] theorem State.raiseMs_usch (s : State) (p b : Nat) : (s.raiseMs p b).usch = s.usch :=
  (State.raiseMs_quiet p b (Quiet.refl s)).usch
@[simp] theorem State.raiseMs_grt (s : State) (p b : Nat) : (s.raiseMs p b).grt = s.grt :=
  (State.raiseMs_quiet p b (Quiet.refl s)).grt
@[simp] theorem State.raiseMs_pol (s : State) (p b : Nat) : (s.raiseMs p b).pol = s.pol :=
  (State.raiseMs_quiet p b (Quiet.refl s)).pol
@[simp] theorem State.raiseMs_frm (s : State) (p b : Nat) : (s.raiseMs p b).frm = s.frm :=
  (State.raiseMs_quiet p b (Quiet.refl s)).frm
@[simp] theorem State.raiseMs_pm (s : State) (p b : Nat) : (s.raiseMs p b).pm = s.pm :=
  (State.raiseMs_quiet p b (Quiet.refl s)).pm
@[simp] theorem State.raiseMs_lsec (s : State) (p b : Nat) : (s.raiseMs p b).lsec = s.lsec :=
  (State.raiseMs_quiet p b (Quiet.refl s)).lsec
@[simp] theorem State.raiseMs_rel (s : State) (p b : Nat) : (s.raiseMs p b).rel = s.rel :=
  (State.raiseMs_quiet p b (Quiet.refl s)).rel
@[simp] theorem State.raiseMs_hal (s : State) (p b : Nat) : (s.raiseMs p b).hal = s.hal :=
  (State.raiseMs_quiet p b (Quiet.refl s)).hal
@[simp] theorem State.raiseMs_sram (s : State) (p b : Nat) : (s.raiseMs p b).sram = s.sram :=
  (State.raiseMs_quiet p b (Quiet.refl s)).sram
@[simp] theorem State.raiseMs_dual (s : State) (p b : Nat) : (s.raiseMs p b).dual = s.dual :=
  (State.raiseMs_quiet p b (Quiet.refl s)).dual
@[simp] theorem State.raiseMs_snap (s : State) (p b : Nat) : (s.raiseMs p b).snap = s.snap :=
  (State.raiseMs_quiet p b (Quiet.refl s)).snap
@[simp] theorem State.raiseMs_time (s : State) (p b : Nat) : (s.raiseMs p b).time = s.time :=
  (State.raiseMs_quiet p b (Quiet.refl s)).time
@[simp] theorem State.raiseMs_act (s : State) (p b : Nat) : (s.raiseMs p b).act = s.act :=
  (State.raiseMs_quiet p b (Quiet.refl s)).act
@[simp] theorem State.raiseMs_noticeNext (s : State) (p b : Nat) : (s.raiseMs p b).noticeNext = s.noticeNext :=
  (State.raiseMs_quiet p b (Quiet.refl s)).noticeNext
@[simp] theorem State.raiseMs_ccry (s : State) (p b : Nat) : (s.raiseMs p b).ccry = s.ccry :=
  (State.raiseMs_quiet p b (Quiet.refl s)).ccry
@[simp] theorem State.raiseMs_kst (s : State) (p b : Nat) : (s.raiseMs p b).kst = s.kst :=
  (State.raiseMs_quiet p b (Quiet.refl s)).kst
@[simp] theorem State.raiseMs_clk (s : State) (p b : Nat) : (s.raiseMs p b).clk = s.clk :=
  (State.raiseMs_quiet p b (Quiet.refl s)).clk
@[simp] theorem State.raiseMs_lehr (s : State) (p b : Nat) : (s.raiseMs p b).lehr = s.lehr :=
  (State.raiseMs_quiet p b (Quiet.refl s)).lehr
@[simp] theorem State.raiseMs_tap (s : State) (p b : Nat) : (s.raiseMs p b).tap = s.tap :=
  (State.raiseMs_quiet p b (Quiet.refl s)).tap
@[simp] theorem State.raiseMs_sup (s : State) (p b : Nat) : (s.raiseMs p b).sup = s.sup :=
  (State.raiseMs_quiet p b (Quiet.refl s)).sup
@[simp] theorem State.raiseMs_keep (s : State) (p b : Nat) : (s.raiseMs p b).keep = s.keep :=
  (State.raiseMs_quiet p b (Quiet.refl s)).keep
@[simp] theorem State.raiseMs_core (s : State) (p b : Nat) : (s.raiseMs p b).core = s.core :=
  (State.raiseMs_quiet p b (Quiet.refl s)).core
@[simp] theorem State.raiseMs_flsh (s : State) (p b : Nat) : (s.raiseMs p b).flsh = s.flsh :=
  (State.raiseMs_quiet p b (Quiet.refl s)).flsh
@[simp] theorem State.raiseMs_pending (s : State) (p b : Nat) : (s.raiseMs p b).pending = s.pending :=
  (State.raiseMs_quiet p b (Quiet.refl s)).pending

end Sys2Proof.Machine
end

