-- ==== Sys2Proof/Laws/KeptRegisters.lean ====
section
/-! SUPPORT. What every operation keeps (Laws/Held.lean): the operations over registers, pennants and register accesses. -/

namespace Sys2Proof.Machine

theorem State.setFld_held {s0 : State} (p : Nat) (f : Fld) (v : Nat) {s : State} (h : Held s0 s) :
    Held s0 (State.setFld p f v s) := by
  unfold State.setFld
  repeat' first | with_reducible exact h | with_reducible apply State.putReg_held

theorem State.setTf_held {s0 : State} (p : Nat) (t : Nat) (e : Nat) (w : Nat) (hi : Nat) (lo : Nat) (v : Nat) {s :
    State} (h : Held s0 s) :
       Held s0 (State.setTf p t e w hi lo v s) := by
  unfold State.setTf
  repeat' first | with_reducible exact h | with_reducible apply State.putTw_held

theorem State.count_held {s0 : State} (i : Nat) {s : State} (h : Held s0 s) :
    Held s0 (State.count i s) := by
  unfold State.count
  repeat' first | with_reducible exact h | with_reducible apply State.countBy_held

theorem State.judgeTask_held {s0 : State} (k : Nat) {s : State} (h : Held s0 s) :
    Held s0 (State.judgeTask k s) := by
  unfold State.judgeTask
  repeat' first
    | with_reducible assumption | intro _ | with_reducible apply Held.ite | with_reducible apply State.count_held
    | with_reducible apply State.iff_held | with_reducible apply State.modTsk_held
    | with_reducible apply State.setTf_held

theorem State.setTaskFlag_held {s0 : State} (k : Nat) (b : Nat) {s : State} (h : Held s0 s) :
    Held s0 (State.setTaskFlag k b s) := by
  unfold State.setTaskFlag
  repeat' first
    | with_reducible exact h | with_reducible apply State.judgeTask_held | with_reducible apply State.putTw_held

theorem State.routeEvent_held {s0 : State} (e : Nat) {s : State} (h : Held s0 s) :
    Held s0 (State.routeEvent e s) := by
  unfold State.routeEvent
  repeat' first
    | with_reducible assumption | intro _ | with_reducible apply Held.ite | with_reducible apply State.count_held
    | with_reducible apply State.setTaskFlag_held

theorem State.setEvent_held {s0 : State} (p : Nat) (b : Nat) {s : State} (h : Held s0 s) :
    Held s0 (State.setEvent p b s) := by
  unfold State.setEvent
  repeat' first
    | with_reducible exact h | with_reducible apply State.routeEvent_held | with_reducible apply State.setFld_held

theorem State.putPennant_held {s0 : State} (p : Nat) (x : PennSt) {s : State} (h : Held s0 s) :
    Held s0 (State.putPennant p x s) := by
  unfold State.putPennant
  repeat' first | with_reducible exact h | with_reducible apply State.modPenn_held

theorem State.advanceSeq_held {s0 : State} (p : Nat) {s : State} (h : Held s0 s) :
    Held s0 (State.advanceSeq p s) := by
  unfold State.advanceSeq
  repeat' first | with_reducible exact h | with_reducible apply State.setFld_held

theorem State.occur_held {s0 : State} (p : Nat) (b : Nat) {s : State} (h : Held s0 s) :
    Held s0 (State.occur p b s) := by
  unfold State.occur
  repeat' first
    | with_reducible assumption | intro _ | with_reducible apply Held.ite | with_reducible apply State.advanceSeq_held
    | with_reducible apply State.putPennant_held | with_reducible apply State.setEvent_held

theorem State.noteRaise_held {s0 : State} (p : Nat) (b : Nat) {s : State} (h : Held s0 s) :
    Held s0 (State.noteRaise p b s) := by
  unfold State.noteRaise
  repeat' first | with_reducible exact h | with_reducible apply State.modLimited_held

theorem State.sendOwned_held {s0 : State} (f : Nat) (v : Nat) {s : State} (h : Held s0 s) :
    Held s0 (State.sendOwned f v s) := by
  unfold State.sendOwned
  repeat' first
    | with_reducible assumption | intro _ | with_reducible apply Held.ite | with_reducible apply State.count_held
    | with_reducible apply State.emit_held | with_reducible apply State.modHif_held

theorem State.sendVector.own_held {s0 : State} {s : State} (h : Held s0 s) :
    Held s0 (State.sendVector.own s) := by
  unfold State.sendVector.own
  repeat' first
    | with_reducible assumption | intro _ | with_reducible apply Held.ite | with_reducible apply State.count_held
    | with_reducible apply State.sendOwned_held | with_reducible apply Held.foldl | split

theorem State.sendVector.dropped_held {s0 : State} {s : State} (h : Held s0 s) :
    Held s0 (State.sendVector.dropped s) := by
  unfold State.sendVector.dropped
  repeat' first
    | with_reducible assumption | intro _ | with_reducible apply Held.ite | with_reducible apply State.count_held
    | with_reducible apply State.noteRaise_held | with_reducible apply State.occur_held
    | with_reducible apply State.sendVector.own_held

theorem State.sendVector_held {s0 : State} (v : Nat) {s : State} (h : Held s0 s) :
    Held s0 (State.sendVector v s) := by
  unfold State.sendVector
  repeat' first
    | with_reducible assumption | intro _ | with_reducible apply Held.ite | with_reducible apply State.sendOwned_held
    | with_reducible apply State.sendVector.dropped_held | with_reducible apply Held.foldl | split

theorem State.sendPennant_held {s0 : State} (p : Nat) {s : State} (h : Held s0 s) :
    Held s0 (State.sendPennant p s) := by
  unfold State.sendPennant
  repeat' first
    | with_reducible assumption | intro _ | with_reducible apply Held.ite | with_reducible apply State.sendVector_held

theorem State.raise_held {s0 : State} (p : Nat) (b : Nat) {s : State} (h : Held s0 s) :
    Held s0 (State.raise p b s) := by
  unfold State.raise
  repeat' first
    | with_reducible assumption | intro _ | with_reducible apply Held.ite | with_reducible apply State.occur_held
    | with_reducible apply State.sendPennant_held

theorem State.raiseMs_held {s0 : State} (p : Nat) (b : Nat) {s : State} (h : Held s0 s) :
    Held s0 (State.raiseMs p b s) := by
  unfold State.raiseMs
  repeat' first
    | with_reducible assumption | intro _ | with_reducible apply Held.ite | with_reducible apply State.noteRaise_held
    | with_reducible apply State.raise_held

theorem State.putEntry_held {s0 : State} (p : Nat) (t : Nat) (e : Nat) (x4 : Nat) (x5 : List Word) {s : State} (h :
    Held s0 s) :
       Held s0 (State.putEntry p t e x4 x5 s) := by
  induction x5 generalizing x4 s with
  | nil => exact h
  | cons x l ih =>
    unfold State.putEntry
    repeat' first | with_reducible exact h | with_reducible apply ih | with_reducible apply State.putTw_held

theorem State.setSFld_held {s0 : State} (p : Nat) (f : Fld) (v : Int) {s : State} (h : Held s0 s) :
    Held s0 (State.setSFld p f v s) := by
  unfold State.setSFld
  repeat' first | with_reducible exact h | with_reducible apply State.setFld_held

theorem State.ignored_held {s0 : State} (p : Nat) (off : Nat) (cause : Nat) {s : State} (h : Held s0 s) :
    Held s0 (State.ignored p off cause s) := by
  unfold State.ignored
  repeat' first
    | with_reducible exact h | with_reducible apply State.count_held | with_reducible apply State.raise_held
    | with_reducible apply State.setFld_held

theorem State.writePlain_held {s0 : State} (p : Nat) (off : Nat) (acc : Access) {s : State} (h : Held s0 s) :
    Held s0 (State.writePlain p off acc s) := by
  unfold State.writePlain
  repeat' first
    | with_reducible assumption | intro _ | with_reducible apply Held.ite | with_reducible apply State.iff_held
    | with_reducible apply State.ignored_held | with_reducible apply State.putReg_held
    | with_reducible apply Held.foldl | split

theorem State.resetPageRegs_held {s0 : State} (p : Nat) {s : State} (h : Held s0 s) :
    Held s0 (State.resetPageRegs p s) := by
  unfold State.resetPageRegs
  repeat' first
    | with_reducible assumption | intro _ | with_reducible apply Held.ite | with_reducible apply State.putReg_held
    | with_reducible apply Held.foldl | split

theorem State.setDomState_held {s0 : State} (d : Nat) (v : Nat) {s : State} (h : Held s0 s) :
    Held s0 (State.setDomState d v s) := by
  unfold State.setDomState
  repeat' first
    | with_reducible assumption | intro _ | with_reducible apply Held.ite | with_reducible apply State.setFld_held

theorem State.setRegion_held {s0 : State} (r : Nat) (v : Nat) {s : State} (h : Held s0 s) :
    Held s0 (State.setRegion r v s) := by
  unfold State.setRegion
  repeat' first | with_reducible exact h | with_reducible apply State.setFld_held

theorem State.stale_held {s0 : State} (p : Nat) {s : State} (h : Held s0 s) :
    Held s0 (State.stale p s) := by
  unfold State.stale
  repeat' first
    | with_reducible exact h | with_reducible apply State.count_held | with_reducible apply State.setFld_held

theorem State.darkAccess_held {s0 : State} (p : Nat) (isWrite : Bool) {s : State} (h : Held s0 s) :
    Held s0 (State.darkAccess p isWrite s) := by
  unfold State.darkAccess
  repeat' first
    | with_reducible exact h | with_reducible apply State.count_held | with_reducible apply State.setFld_held

theorem State.guarded_held {s0 : State} (p : Nat) (off : Nat) (acc : Access) {f : State → State} {s : State} (h :
    Held s0 s) (h4 : ∀ y0, Held s0 y0 → Held s0 (f y0)) :
       Held s0 (State.guarded p off acc f s) := by
  unfold State.guarded
  repeat' first
    | with_reducible assumption | intro _ | with_reducible apply Held.ite | with_reducible apply State.darkAccess_held
    | with_reducible apply State.ignored_held | with_reducible apply h4 | with_reducible apply Held.foldl | split

theorem State.stageWord.commit_held {s0 : State} (p : Nat) (base : Nat) (x3 : Nat) {s : State} (h : Held s0 s) :
    Held s0 (State.stageWord.commit p base x3 s) := by
  induction x3 generalizing  s with
  | zero => exact h
  | succ n ih =>
    unfold State.stageWord.commit
    repeat' first
      | with_reducible assumption | with_reducible apply ih | intro _ | with_reducible apply Held.ite
      | with_reducible apply State.modRf_held | with_reducible apply State.putReg_held
      | with_reducible apply Held.foldl | split

theorem State.stageWord_held {s0 : State} (p : Nat) (base : Nat) (n : Nat) (i : Nat) (v : Word) {s : State} (h :
    Held s0 s) :
       Held s0 (State.stageWord p base n i v s) := by
  unfold State.stageWord
  repeat' first
    | with_reducible assumption | intro _ | with_reducible apply Held.ite | with_reducible apply State.modRf_held
    | with_reducible apply State.putReg_held | with_reducible apply State.stageWord.commit_held

theorem State.modFn_held {s0 : State} (f : Nat) (g : FnSt → FnSt) {s : State} (h : Held s0 s) :
    Held s0 (State.modFn f g s) := by
  unfold State.modFn
  repeat' first | with_reducible exact h | with_reducible apply State.modHif_held

theorem State.pennantHoldEnd_held {s0 : State} (p : Nat) {s : State} (h : Held s0 s) :
    Held s0 (State.pennantHoldEnd p s) := by
  unfold State.pennantHoldEnd
  repeat' first
    | with_reducible assumption | intro _ | with_reducible apply Held.ite | with_reducible apply State.advanceSeq_held
    | with_reducible apply State.iff_held | with_reducible apply State.putPennant_held
    | with_reducible apply State.sendPennant_held

theorem State.resetReg_held {s0 : State} (p : Nat) (off : Nat) {s : State} (h : Held s0 s) :
    Held s0 (State.resetReg p off s) := by
  unfold State.resetReg
  repeat' first | with_reducible exact h | with_reducible apply State.putReg_held

end Sys2Proof.Machine
end

