-- ==== Sys2Proof/Laws/KeptFrames.lean ====
section
/-! SUPPORT. What every operation keeps (Laws/Held.lean): line security, ports, the store, the upstream scheduler, the tier, snapshots, performance bins, the classifier. -/

namespace Sys2Proof.Machine

theorem State.setPf_held {s0 : State} (p : Nat) (f : Fld) (v : Nat) {s : State} (h : Held s0 s) :
    Held s0 (State.setPf p f v s) := by
  unfold State.setPf
  repeat' first | with_reducible exact h | with_reducible apply State.setFld_held

theorem State.setPaused_held {s0 : State} (p : Nat) (n : Nat) (on : Bool) {s : State} (h : Held s0 s) :
    Held s0 (State.setPaused p n on s) := by
  unfold State.setPaused
  repeat' first | with_reducible exact h | with_reducible apply State.setPf_held

theorem State.pauseTake_held {s0 : State} (p : Nat) (ps : List (Nat × Nat)) {s : State} (h : Held s0 s) :
    Held s0 (State.pauseTake p ps s) := by
  unfold State.pauseTake
  repeat' first
    | with_reducible assumption | intro _ | with_reducible apply Held.ite | with_reducible apply State.count_held
    | with_reducible apply State.iff_held | with_reducible apply State.modUni_held
    | with_reducible apply State.raiseMs_held | with_reducible apply State.setPaused_held
    | with_reducible apply Held.foldl | split

theorem State.macControl_held {s0 : State} (p : Nat) (bs : Bytes) {s : State} (h : Held s0 s) :
    Held s0 (State.macControl p bs s) := by
  unfold State.macControl
  repeat' first
    | with_reducible assumption | intro _ | with_reducible apply Held.ite | with_reducible apply State.count_held
    | with_reducible apply State.pauseTake_held | with_reducible apply Held.foldl | split

theorem State.sendPause_held {s0 : State} (p : Nat) (n : Nat) (xoff : Bool) {s : State} (h : Held s0 s) :
    Held s0 (State.sendPause p n xoff s) := by
  unfold State.sendPause
  repeat' first
    | with_reducible assumption | intro _ | with_reducible apply State.count_held
    | with_reducible apply State.emit_held | with_reducible apply State.iff_held
    | with_reducible apply State.macControl_held | with_reducible apply State.modUni_held
    | with_reducible apply State.raiseMs_held | with_reducible apply State.setPf_held

theorem State.pauseSend_held {s0 : State} (p : Nat) {s : State} (h : Held s0 s) :
    Held s0 (State.pauseSend p s) := by
  unfold State.pauseSend
  repeat' first
    | with_reducible assumption | intro _ | with_reducible apply Held.ite | with_reducible apply State.modUni_held
    | with_reducible apply State.sendPause_held | with_reducible apply Held.foldl | split

theorem State.pauseFlush_held {s0 : State} (p : Nat) {s : State} (h : Held s0 s) :
    Held s0 (State.pauseFlush p s) := by
  unfold State.pauseFlush
  repeat' first
    | with_reducible exact h | with_reducible apply State.iff_held | with_reducible apply State.pauseSend_held

theorem State.pauseAsk_held {s0 : State} (p : Nat) (n : Nat) (xoff : Bool) {s : State} (h : Held s0 s) :
    Held s0 (State.pauseAsk p n xoff s) := by
  unfold State.pauseAsk
  repeat' first
    | with_reducible exact h | with_reducible apply State.modUni_held | with_reducible apply State.pauseFlush_held

theorem State.pfcEntry_held {s0 : State} (p : Nat) (n : Nat) {s : State} (h : Held s0 s) :
    Held s0 (State.pfcEntry p n s) := by
  unfold State.pfcEntry
  repeat' first
    | with_reducible assumption | intro _ | with_reducible apply Held.ite | with_reducible apply State.pauseAsk_held
    | with_reducible apply State.setTf_held

theorem State.pfcJudge_held {s0 : State} (p : Nat) {s : State} (h : Held s0 s) :
    Held s0 (State.pfcJudge p s) := by
  unfold State.pfcJudge
  repeat' first
    | with_reducible assumption | intro _ | with_reducible apply Held.ite | with_reducible apply State.pfcEntry_held
    | with_reducible apply Held.foldl | split

theorem State.pfcFor_held {s0 : State} (f : Frame) {s : State} (h : Held s0 s) :
    Held s0 (State.pfcFor f s) := by
  unfold State.pfcFor
  repeat' first
    | with_reducible assumption | intro _ | with_reducible apply Held.ite | with_reducible apply State.pfcJudge_held

theorem State.putFrame_held {s0 : State} (id : Nat) (f : Option Frame) {s : State} (h : Held s0 s) :
    Held s0 (State.putFrame id f s) := by
  unfold State.putFrame
  repeat' first | with_reducible exact h | with_reducible apply State.modSto_held

theorem State.returnCells_held {s0 : State} (tenant : Nat) (cells : List Nat) {s : State} (h : Held s0 s) :
    Held s0 (State.returnCells tenant cells s) := by
  unfold State.returnCells
  repeat' first
    | with_reducible exact h | with_reducible apply State.countBy_held | with_reducible apply State.modSto_held
    | with_reducible apply State.setFld_held | with_reducible apply State.setTf_held

theorem State.freeFrame_held {s0 : State} (id : Nat) {s : State} (h : Held s0 s) :
    Held s0 (State.freeFrame id s) := by
  unfold State.freeFrame
  repeat' first
    | with_reducible assumption | intro _ | with_reducible apply Held.ite | with_reducible apply State.pfcFor_held
    | with_reducible apply State.putFrame_held | with_reducible apply State.returnCells_held
    | with_reducible apply Held.foldl | split

theorem State.releaseRef_held {s0 : State} (c : Copy) {s : State} (h : Held s0 s) :
    Held s0 (State.releaseRef c s) := by
  unfold State.releaseRef
  repeat' first
    | with_reducible assumption | intro _ | with_reducible apply Held.ite | with_reducible apply State.freeFrame_held
    | with_reducible apply State.modSto_held | with_reducible apply State.putFrame_held
    | with_reducible apply State.setFld_held | with_reducible apply Held.foldl | split | with_reducible apply Held.id
    | dsimp only

theorem State.endProtected_held {s0 : State} (c : Copy) {cause : State → State} {s : State} (h : Held s0 s) (h2 : ∀
    y0, Held s0 y0 → Held s0 (cause y0)) :
       Held s0 (State.endProtected c cause s) := by
  unfold State.endProtected
  repeat' first
    | with_reducible assumption | intro _ | with_reducible apply Held.ite | with_reducible apply State.count_held
    | with_reducible apply State.releaseRef_held | with_reducible apply h2

theorem State.showCopies_held {s0 : State} (q : Nat) {s : State} (h : Held s0 s) :
    Held s0 (State.showCopies q s) := by
  unfold State.showCopies
  repeat' first
    | with_reducible assumption | intro _ | with_reducible apply Held.ite | with_reducible apply State.setTf_held

theorem State.showQueue_held {s0 : State} (q : Nat) {s : State} (h : Held s0 s) :
    Held s0 (State.showQueue q s) := by
  unfold State.showQueue
  repeat' first
    | with_reducible exact h | with_reducible apply State.setTf_held | with_reducible apply State.showCopies_held

theorem State.judgePromotion_held {s0 : State} (q : Nat) {s : State} (h : Held s0 s) :
    Held s0 (State.judgePromotion q s) := by
  unfold State.judgePromotion
  repeat' first
    | with_reducible assumption | intro _ | with_reducible apply Held.ite | with_reducible apply State.count_held
    | with_reducible apply State.raiseMs_held | with_reducible apply State.setFld_held
    | with_reducible apply State.setTf_held

theorem State.setDeficit_held {s0 : State} (t : Tree) (q : Nat) (d : Int) {s : State} (h : Held s0 s) :
    Held s0 (State.setDeficit t q d s) := by
  unfold State.setDeficit
  repeat' first | with_reducible exact h | with_reducible apply State.modUsch_held

theorem State.settleUp_held {s0 : State} (q : Nat) {s : State} (h : Held s0 s) :
    Held s0 (State.settleUp q s) := by
  unfold State.settleUp
  repeat' first
    | with_reducible exact h | with_reducible apply State.iff_held | with_reducible apply State.setDeficit_held

theorem State.settleDown_held {s0 : State} (q : Nat) {s : State} (h : Held s0 s) :
    Held s0 (State.settleDown q s) := by
  unfold State.settleDown
  repeat' first
    | with_reducible assumption | intro _ | with_reducible apply State.iff_held
    | with_reducible apply State.modSto_held

theorem State.settleQueue_held {s0 : State} (q : Nat) {s : State} (h : Held s0 s) :
    Held s0 (State.settleQueue q s) := by
  unfold State.settleQueue
  repeat' first
    | with_reducible assumption | intro _ | with_reducible apply Held.ite
    | with_reducible apply State.judgePromotion_held | with_reducible apply State.modSto_held
    | with_reducible apply State.settleDown_held | with_reducible apply State.settleUp_held
    | with_reducible apply State.showCopies_held | with_reducible apply State.showQueue_held

theorem State.setQueueBytes_held {s0 : State} (q : Nat) (n : Nat) {s : State} (h : Held s0 s) :
    Held s0 (State.setQueueBytes q n s) := by
  unfold State.setQueueBytes
  repeat' first
    | with_reducible assumption | intro _ | with_reducible apply Held.ite | with_reducible apply State.modSto_held
    | with_reducible apply State.putTw_held | with_reducible apply State.setTf_held

theorem State.putList_held {s0 : State} (k : Nat) (l : List Copy) {s : State} (h : Held s0 s) :
    Held s0 (State.putList k l s) := by
  unfold State.putList
  repeat' first | with_reducible exact h | with_reducible apply State.modSto_held

theorem State.unlinkCopy_held {s0 : State} (k : Nat) (c : Copy) {s : State} (h : Held s0 s) :
    Held s0 (State.unlinkCopy k c s) := by
  unfold State.unlinkCopy
  repeat' first
    | with_reducible exact h | with_reducible apply State.putList_held | with_reducible apply State.setQueueBytes_held
    | with_reducible apply State.settleQueue_held

theorem State.countDrop_held {s0 : State} (counter : Nat) (c : Copy) {s : State} (h : Held s0 s) :
    Held s0 (State.countDrop counter c s) := by
  unfold State.countDrop
  repeat' first
    | with_reducible assumption | intro _ | with_reducible apply State.count_held
    | with_reducible apply State.iff_held | with_reducible apply State.modSto_held

theorem State.endCopy_held {s0 : State} (counter : Nat) (c : Copy) {s : State} (h : Held s0 s) :
    Held s0 (State.endCopy counter c s) := by
  unfold State.endCopy
  repeat' first
    | with_reducible assumption | intro _ | with_reducible apply Held.ite | with_reducible apply State.countDrop_held
    | with_reducible apply State.endProtected_held | with_reducible apply State.releaseRef_held

theorem State.debitShapers_held {s0 : State} (q : Nat) (n : Nat) {s : State} (h : Held s0 s) :
    Held s0 (State.debitShapers q n s) := by
  unfold State.debitShapers
  repeat' first | with_reducible exact h | with_reducible apply State.modUsch_held

theorem State.showPn_held {s0 : State} (c : Nat) (k : Nat) {s : State} (h : Held s0 s) :
    Held s0 (State.showPn c k s) := by
  unfold State.showPn
  repeat' first | with_reducible exact h | with_reducible apply State.putTw_held

theorem State.setSelector_held {s0 : State} (c : Nat) (v : Nat) {s : State} (h : Held s0 s) :
    Held s0 (State.setSelector c v s) := by
  unfold State.setSelector
  repeat' first
    | with_reducible exact h | with_reducible apply State.modLsec_held | with_reducible apply State.setTf_held

theorem State.takePn_held {s0 : State} (c : Nat) (k : Nat) {s : State} (h : Held s0 s) :
    Held s0 (State.takePn c k s) := by
  unfold State.takePn
  repeat' first
    | with_reducible exact h | with_reducible apply State.iff_held | with_reducible apply State.modLsec_held
    | with_reducible apply State.setSelector_held | with_reducible apply State.showPn_held

theorem State.tag_held {s0 : State} (t : Tree) (fc : Nat) (c : Copy) (offset : Nat) (len : Nat) (last : Bool) {s :
    State} (h : Held s0 s) :
       Held s0 (State.tag t fc c offset len last s).1 := by
  unfold State.tag
  repeat' first
    | with_reducible assumption | intro _ | with_reducible apply Held.ite | with_reducible apply Held.ite_fst
    | with_reducible apply State.modGrt_held | with_reducible apply State.takePn_held
    | with_reducible apply Held.foldl | split | with_reducible apply Held.id | dsimp only

theorem Fill.placeOne_held {s0 : State} (t : Tree) (fc : Nat) (q : Nat) {s : Fill} (h : Held s0 s.s) :
    ∀ out, Fill.placeOne t fc q s = some out → Held s0 out.s := by
  intro out e
  unfold Fill.placeOne at e
  dsimp only at e
  repeat' split at e
  all_goals first
    | cases e; done
    | (injection e with e; subst e)
  all_goals
    repeat' first
      | with_reducible assumption | intro _ | with_reducible apply Held.ite | with_reducible apply State.count_held
      | with_reducible apply State.debitShapers_held | with_reducible apply State.endCopy_held
      | with_reducible apply State.endProtected_held | with_reducible apply State.putList_held
      | with_reducible apply State.setDeficit_held | with_reducible apply State.setQueueBytes_held
      | with_reducible apply State.settleQueue_held | with_reducible apply State.showCopies_held
      | with_reducible apply State.tag_held | with_reducible apply State.unlinkCopy_held
      | with_reducible apply Held.foldl | split | with_reducible apply Held.id | dsimp only

theorem Fill.turn_held {s0 : State} (a1 : Tree) (a2 : Nat) (a3 : Nat) (a4 : Nat) {f : Fill} (h : Held s0 f.s) :
    Held s0 (Fill.turn a1 a2 a3 a4 f).s := by
  induction a4 generalizing f with
  | zero => exact h
  | succ n ih =>
    unfold Fill.turn
    split
    · split
      · rename_i e; exact ih (Fill.placeOne_held _ _ _ h _ e)
      · exact h
    · exact h

theorem Fill.step_held {s0 : State} (t : Tree) (a : Nat) (fc : Nat) (qs : List Nat) {s : Fill} (h : Held s0 s.s) :
    ∀ out, Fill.step t a fc qs s = some out → Held s0 out.s := by
  intro out e
  unfold Fill.step at e
  dsimp only at e
  repeat' split at e
  all_goals first
    | cases e; done
    | (injection e with e; subst e)
  all_goals
    repeat' first
      | with_reducible exact h | with_reducible apply Fill.turn_held | with_reducible apply State.modUsch_held
      | with_reducible apply State.setDeficit_held

theorem Fill.run_held {s0 : State} (a1 : Tree) (a2 : Nat) (a3 : Nat) (a4 : List Nat) (a5 : Nat) {f : Fill}
    (h : Held s0 f.s) : Held s0 (Fill.run a1 a2 a3 a4 a5 f).s := by
  induction a5 generalizing f with
  | zero => exact h
  | succ n ih =>
    unfold Fill.run
    split
    · rename_i e; exact ih (Fill.step_held _ _ _ _ h _ e)
    · exact h

theorem State.putSending_held {s0 : State} (port : Nat) (c : Option Copy) {s : State} (h : Held s0 s) :
    Held s0 (State.putSending port c s) := by
  unfold State.putSending
  repeat' first | with_reducible exact h | with_reducible apply State.modSto_held

theorem State.handUni_held {s0 : State} (p : Nat) (bs : Bytes) (err : Bool) {s : State} (h : Held s0 s) :
    Held s0 (State.handUni p bs err s) := by
  unfold State.handUni
  repeat' first
    | with_reducible assumption | intro _ | with_reducible apply State.iff_held
    | with_reducible apply State.modCls_held | with_reducible apply State.modSto_held
    | with_reducible apply State.modUni_held

theorem State.uniBadFcs_held {s0 : State} (p : Nat) (bs : Bytes) {s : State} (h : Held s0 s) :
    Held s0 (State.uniBadFcs p bs s) := by
  unfold State.uniBadFcs
  repeat' first
    | with_reducible exact h | with_reducible apply State.count_held | with_reducible apply State.handUni_held
    | with_reducible apply State.raiseMs_held

theorem State.uniAborted_held {s0 : State} (p : Nat) (bs : Bytes) {s : State} (h : Held s0 s) :
    Held s0 (State.uniAborted p bs s) := by
  unfold State.uniAborted
  repeat' first
    | with_reducible assumption | intro _ | with_reducible apply Held.ite | with_reducible apply State.count_held
    | with_reducible apply State.handUni_held | with_reducible apply State.uniBadFcs_held

theorem State.cutCopy_held {s0 : State} (port : Nat) (c : Copy) {s : State} (h : Held s0 s) :
    Held s0 (State.cutCopy port c s) := by
  unfold State.cutCopy
  repeat' first
    | with_reducible exact h | with_reducible apply State.count_held | with_reducible apply State.emit_held
    | with_reducible apply State.iff_held | with_reducible apply State.modSto_held
    | with_reducible apply State.pauseFlush_held | with_reducible apply State.putSending_held
    | with_reducible apply State.uniAborted_held

theorem State.abortCopy_held {s0 : State} (port : Nat) (c : Copy) {s : State} (h : Held s0 s) :
    Held s0 (State.abortCopy port c s) := by
  unfold State.abortCopy
  repeat' first
    | with_reducible exact h | with_reducible apply State.count_held | with_reducible apply State.cutCopy_held
    | with_reducible apply State.raise_held | with_reducible apply State.releaseRef_held

theorem State.modFrame_held {s0 : State} (id : Nat) (g : Frame → Frame) {s : State} (h : Held s0 s) :
    Held s0 (State.modFrame id g s) := by
  unfold State.modFrame
  repeat' first
    | with_reducible assumption | intro _ | with_reducible apply Held.ite | with_reducible apply State.putFrame_held
    | with_reducible apply Held.foldl | split

theorem State.pmMark_held {s0 : State} (r : Rx) (day : Bool) (slot : Nat) (b : Nat) {s : State} (h : Held s0 s) :
    Held s0 (State.pmMark r day slot b s) := by
  unfold State.pmMark
  repeat' first | with_reducible exact h | with_reducible apply State.setTf_held

theorem State.pmMarkAll_held {s0 : State} (b : Nat) {s : State} (h : Held s0 s) :
    Held s0 (State.pmMarkAll b s) := by
  unfold State.pmMarkAll
  repeat' first
    | with_reducible assumption | intro _ | with_reducible apply Held.ite | with_reducible apply State.pmMark_held
    | with_reducible apply Held.foldl | split

theorem State.snapReach_held {s0 : State} (late : Bool) (instant : Nat) {s : State} (h : Held s0 s) :
    Held s0 (State.snapReach late instant s) := by
  unfold State.snapReach
  repeat' first
    | with_reducible assumption | intro _ | with_reducible apply Held.ite | with_reducible apply State.modSnap_held

theorem State.setBank_held {s0 : State} (b : Nat) (m : Sparse Nat) {s : State} (h : Held s0 s) :
    Held s0 (State.setBank b m s) := by
  unfold State.setBank
  repeat' first
    | with_reducible assumption | intro _ | with_reducible apply Held.ite | with_reducible apply State.modCnt_held
    | with_reducible apply Held.foldl | split | (refine (?_ : Sparse.wf _ _ = true); assumption)
    | exact Sparse.wf_filter _ _ _ (by assumption) | exact Sparse.wf_put _ _ _ _ (by assumption)
    | (refine (?_ : _ < counterMod _); apply_assumption) | with_reducible apply Held.id | dsimp only

theorem State.capture_held {s0 : State} (counts : Sparse Nat) (flags : Sparse Nat) {s : State} (h : Held s0 s) :
    Held s0 (State.capture counts flags s) := by
  unfold State.capture
  repeat' first
    | with_reducible assumption | intro _ | with_reducible apply Held.ite | with_reducible apply State.modSnap_held
    | with_reducible apply State.putTw_held | with_reducible apply State.setBank_held
    | with_reducible apply Held.foldl | split

theorem State.putTime_held {s0 : State} (p : Nat) (off : Nat) (v : Nat) {s : State} (h : Held s0 s) :
    Held s0 (State.putTime p off v s) := by
  unfold State.putTime
  repeat' first | with_reducible exact h | with_reducible apply State.putReg_held

theorem State.snapCapture_held {s0 : State} (late : Bool) (unsync : Bool) (instant : Nat) (counts : Sparse Nat)
    (flags : Sparse Nat) {s : State} (h : Held s0 s) :
       Held s0 (State.snapCapture late unsync instant counts flags s) := by
  unfold State.snapCapture
  repeat' first
    | with_reducible exact h | with_reducible apply State.capture_held | with_reducible apply State.putTime_held
    | with_reducible apply State.setFld_held

theorem State.snapFire_held {s0 : State} {s : State} (h : Held s0 s) :
    Held s0 (State.snapFire s) := by
  unfold State.snapFire
  repeat' first
    | with_reducible assumption | intro _ | with_reducible apply Held.ite
    | with_reducible apply State.snapCapture_held | with_reducible apply Held.foldl | split

theorem State.pmCloseBin_held {s0 : State} (r : Rx) (day : Bool) (skipped : Nat) {s : State} (h : Held s0 s) :
    Held s0 (State.pmCloseBin r day skipped s) := by
  unfold State.pmCloseBin
  repeat' first
    | with_reducible exact h | with_reducible apply State.count_held | with_reducible apply State.iff_held
    | with_reducible apply State.pmMark_held | with_reducible apply State.setTf_held

theorem State.pmOpenBin_held {s0 : State} (r : Rx) (day : Bool) (k : Nat) (seq : Nat) (sec : Nat) {s : State} (h :
    Held s0 s) :
       Held s0 (State.pmOpenBin r day k seq sec s) := by
  unfold State.pmOpenBin
  repeat' first | with_reducible exact h | with_reducible apply State.putEntry_held

theorem State.pmEdge_held {s0 : State} (day : Bool) (skipped : Nat) {s : State} (h : Held s0 s) :
    Held s0 (State.pmEdge day skipped s) := by
  unfold State.pmEdge
  repeat' first
    | with_reducible assumption | intro _ | with_reducible apply Held.ite | with_reducible apply State.iff_held
    | with_reducible apply State.modPm_held | with_reducible apply State.pmCloseBin_held
    | with_reducible apply State.pmOpenBin_held | with_reducible apply State.raise_held
    | with_reducible apply State.setFld_held | with_reducible apply Held.foldl | split

theorem State.pmPassed_held {s0 : State} (day : Bool) {s : State} (h : Held s0 s) :
    Held s0 (State.pmPassed day s) := by
  unfold State.pmPassed
  repeat' first
    | with_reducible assumption | intro _ | with_reducible apply Held.ite | with_reducible apply State.pmEdge_held

theorem State.showTier_held {s0 : State} {s : State} (h : Held s0 s) :
    Held s0 (State.showTier s) := by
  unfold State.showTier
  repeat' first | with_reducible exact h | with_reducible apply State.setFld_held

theorem State.putTier_held {s0 : State} (q : Nat) (c : List Extent) {s : State} (h : Held s0 s) :
    Held s0 (State.putTier q c s) := by
  unfold State.putTier
  repeat' first
    | with_reducible exact h | with_reducible apply State.modXtr_held | with_reducible apply State.putTw_held
    | with_reducible apply State.showTier_held

theorem State.releaseTier_held {s0 : State} (q : Nat) {s : State} (h : Held s0 s) :
    Held s0 (State.releaseTier q s) := by
  unfold State.releaseTier
  repeat' first
    | with_reducible exact h | with_reducible apply State.countBy_held | with_reducible apply State.putTier_held

theorem State.setCtxGcm_held {s0 : State} (c : Nat) (on : Bool) {s : State} (h : Held s0 s) :
    Held s0 (State.setCtxGcm c on s) := by
  unfold State.setCtxGcm
  repeat' first
    | with_reducible assumption | intro _ | with_reducible apply Held.ite | with_reducible apply State.setFld_held
    | with_reducible apply State.setTf_held

theorem State.clearPn_held {s0 : State} (c : Nat) (k : Nat) {s : State} (h : Held s0 s) :
    Held s0 (State.clearPn c k s) := by
  unfold State.clearPn
  repeat' first | with_reducible exact h | with_reducible apply State.modLsec_held

theorem State.dropSlot_held {s0 : State} (c : Nat) (k : Nat) {s : State} (h : Held s0 s) :
    Held s0 (State.dropSlot c k s) := by
  unfold State.dropSlot
  repeat' first
    | with_reducible exact h | with_reducible apply State.clearPn_held | with_reducible apply State.putEntry_held

theorem State.clearCtx_held {s0 : State} (c : Nat) {s : State} (h : Held s0 s) :
    Held s0 (State.clearCtx c s) := by
  unfold State.clearCtx
  repeat' first
    | with_reducible exact h | with_reducible apply State.dropSlot_held | with_reducible apply State.setCtxGcm_held
    | with_reducible apply State.setSelector_held

theorem State.clearTenantKeys_held {s0 : State} (t : Tree) (n : Nat) {s : State} (h : Held s0 s) :
    Held s0 (State.clearTenantKeys t n s) := by
  unfold State.clearTenantKeys
  repeat' first | with_reducible exact h | with_reducible apply State.clearCtx_held

theorem State.putMgmtKey_held {s0 : State} (t : Tree) (k : Nat) (key : Bytes) {s : State} (h : Held s0 s) :
    Held s0 (State.putMgmtKey t k key s) := by
  unfold State.putMgmtKey
  repeat' first | with_reducible exact h | with_reducible apply State.putEntry_held

theorem State.clearTreeKeys_held {s0 : State} (t : Tree) {s : State} (h : Held s0 s) :
    Held s0 (State.clearTreeKeys t s) := by
  unfold State.clearTreeKeys
  repeat' first
    | with_reducible assumption | intro _ | with_reducible apply Held.ite | with_reducible apply State.clearCtx_held
    | with_reducible apply Held.foldl | split

theorem State.dropSending_held {s0 : State} (ok : Copy → Bool) (counter : Nat) {s : State} (h : Held s0 s) :
    Held s0 (State.dropSending ok counter s) := by
  unfold State.dropSending
  repeat' first
    | with_reducible assumption | intro _ | with_reducible apply Held.ite | with_reducible apply State.abortCopy_held
    | with_reducible apply State.cutCopy_held | with_reducible apply State.endCopy_held
    | with_reducible apply State.putSending_held | with_reducible apply Held.foldl | split

theorem State.endWaiting_held {s0 : State} (counter : Nat) (c : Copy) {s : State} (h : Held s0 s) :
    Held s0 (State.endWaiting counter c s) := by
  unfold State.endWaiting
  repeat' first
    | with_reducible assumption | intro _ | with_reducible apply Held.ite | with_reducible apply State.count_held
    | with_reducible apply State.modSto_held | with_reducible apply State.releaseRef_held
    | with_reducible apply State.setQueueBytes_held

theorem State.dropWaitingOf_held {s0 : State} (ok : Copy → Bool) (id : Nat) (counter : Nat) {s : State} (h : Held s0
    s) :
       Held s0 (State.dropWaitingOf ok id counter s) := by
  unfold State.dropWaitingOf
  repeat' first
    | with_reducible assumption | intro _ | with_reducible apply Held.ite | with_reducible apply State.endWaiting_held
    | with_reducible apply State.modFrame_held | with_reducible apply Held.foldl | split

theorem State.dropListed_held {s0 : State} (ok : Copy → Bool) (counter : Nat) {s : State} (h : Held s0 s) :
    Held s0 (State.dropListed ok counter s) := by
  unfold State.dropListed
  repeat' first
    | with_reducible assumption | intro _ | with_reducible apply Held.ite | with_reducible apply State.endCopy_held
    | with_reducible apply State.unlinkCopy_held | with_reducible apply Held.foldl | split

theorem State.dropFrameCopies_held {s0 : State} (id : Nat) (counter : Nat) {s : State} (h : Held s0 s) :
    Held s0 (State.dropFrameCopies id counter s) := by
  unfold State.dropFrameCopies
  repeat' first
    | with_reducible assumption | intro _ | with_reducible apply Held.ite | with_reducible apply State.dropListed_held
    | with_reducible apply State.dropSending_held | with_reducible apply State.dropWaitingOf_held
    | with_reducible apply Held.foldl | split

theorem State.ingressError_held {s0 : State} (id : Nat) {s : State} (h : Held s0 s) :
    Held s0 (State.ingressError id s) := by
  unfold State.ingressError
  repeat' first
    | with_reducible assumption | intro _ | with_reducible apply Held.ite
    | with_reducible apply State.dropFrameCopies_held | with_reducible apply State.putFrame_held
    | with_reducible apply Held.foldl | split

theorem State.setAdapting_held {s0 : State} (l : Nat) (on : Bool) {s : State} (h : Held s0 s) :
    Held s0 (State.setAdapting l on s) := by
  unfold State.setAdapting
  repeat' first
    | with_reducible exact h | with_reducible apply State.modUni_held | with_reducible apply State.setTf_held

theorem State.anBegin_held {s0 : State} (p : Nat) {s : State} (h : Held s0 s) :
    Held s0 (State.anBegin p s) := by
  unfold State.anBegin
  repeat' first
    | with_reducible assumption | intro _ | with_reducible apply State.emit_held | with_reducible apply State.iff_held

theorem State.linkFall_held {s0 : State} (p : Nat) {s : State} (h : Held s0 s) :
    Held s0 (State.linkFall p s) := by
  unfold State.linkFall
  repeat' first
    | with_reducible assumption | intro _ | with_reducible apply Held.ite | with_reducible apply State.abortCopy_held
    | with_reducible apply State.anBegin_held | with_reducible apply State.count_held
    | with_reducible apply State.ingressError_held | with_reducible apply State.modUni_held
    | with_reducible apply State.raise_held | with_reducible apply State.setAdapting_held
    | with_reducible apply State.setPf_held | with_reducible apply Held.foldl | split

theorem State.refreshPort_held {s0 : State} (p : Nat) {s : State} (h : Held s0 s) :
    Held s0 (State.refreshPort p s) := by
  unfold State.refreshPort
  repeat' first
    | with_reducible exact h | with_reducible apply State.anBegin_held | with_reducible apply State.iff_held
    | with_reducible apply State.linkFall_held | with_reducible apply State.raise_held
    | with_reducible apply State.setPf_held

theorem State.refreshPorts_held {s0 : State} {s : State} (h : Held s0 s) :
    Held s0 (State.refreshPorts s) := by
  unfold State.refreshPorts
  repeat' first
    | with_reducible assumption | intro _ | with_reducible apply Held.ite
    | with_reducible apply State.refreshPort_held | with_reducible apply Held.foldl | split

theorem State.drawCells_held {s0 : State} (tenant : Nat) (held : List Nat) (n : Nat) {s : State} (h : Held s0 s) :
    Held s0 (State.drawCells tenant held n s) := by
  unfold State.drawCells
  repeat' first
    | with_reducible exact h | with_reducible apply State.countBy_held | with_reducible apply State.iff_held
    | with_reducible apply State.modSto_held | with_reducible apply State.raise_held
    | with_reducible apply State.setFld_held | with_reducible apply State.setTf_held

theorem State.spillCopy_held {s0 : State} (q : Nat) (c : Copy) {s : State} (h : Held s0 s) :
    ∀ out, State.spillCopy q c s = some out → Held s0 out := by
  intro out e
  unfold State.spillCopy at e
  dsimp only at e
  repeat' split at e
  all_goals first
    | cases e; done
    | (injection e with e; subst e)
  all_goals
    repeat' first
      | with_reducible exact h | with_reducible apply State.count_held | with_reducible apply State.countBy_held
      | with_reducible apply State.iff_held | with_reducible apply State.putTier_held
      | with_reducible apply State.raiseMs_held | with_reducible apply State.releaseRef_held
      | with_reducible apply State.setQueueBytes_held | with_reducible apply State.showQueue_held
      | with_reducible apply State.useFree_held

theorem State.appendCopy_held {s0 : State} (k : Nat) (c : Copy) {s : State} (h : Held s0 s) :
    Held s0 (State.appendCopy k c s) := by
  unfold State.appendCopy
  repeat' first | with_reducible exact h | with_reducible apply State.putList_held

theorem State.joinBacklog_held {s0 : State} (q : Nat) {s : State} (h : Held s0 s) :
    Held s0 (State.joinBacklog q s) := by
  unfold State.joinBacklog
  repeat' first
    | with_reducible assumption | intro _ | with_reducible apply Held.ite | with_reducible apply State.putList_held

theorem State.joinShared_held {s0 : State} (a1 : Nat) (a2 : Copy) {s : State} (h : Held s0 s) :
    Held s0 (State.joinShared a1 a2 s) := by
  unfold State.joinShared
  dsimp only
  have h1 := State.count_held cuUSCH h
  apply Held.ite (State.endCopy_held _ _ (State.setQueueBytes_held _ _ h1))
  apply Held.ite (State.endCopy_held _ _ (State.setQueueBytes_held _ _ h1))
  apply Held.ite
  · split
    · rename_i e
      split at e
      · cases e
      · exact State.spillCopy_held _ _ h1 _ e
    · exact State.showQueue_held _ (State.joinBacklog_held _ (State.raiseMs_held _ _ (State.count_held _
        (State.appendCopy_held _ _ h1))))
  · exact State.showQueue_held _ (State.appendCopy_held _ _ h1)

theorem State.joinDown_held {s0 : State} (c : Copy) {s : State} (h : Held s0 s) :
    Held s0 (State.joinDown c s) := by
  unfold State.joinDown
  repeat' first
    | with_reducible assumption | intro _ | with_reducible apply Held.ite | with_reducible apply State.appendCopy_held
    | with_reducible apply State.endCopy_held | with_reducible apply State.modSto_held
    | with_reducible apply State.setQueueBytes_held | with_reducible apply State.showCopies_held

theorem State.takeRef_held {s0 : State} (id : Nat) {s : State} (h : Held s0 s) :
    Held s0 (State.takeRef id s) := by
  unfold State.takeRef
  repeat' first
    | with_reducible exact h | with_reducible apply State.modFrame_held | with_reducible apply State.modSto_held
    | with_reducible apply State.setFld_held

theorem State.spillBacklog_held {s0 : State} (q : Nat) (x2 : Nat) {s : State} (h : Held s0 s) :
    Held s0 (State.spillBacklog q x2 s) := by
  induction x2 generalizing  s with
  | zero => exact h
  | succ n ih =>
    unfold State.spillBacklog
    repeat' first
      | with_reducible assumption | with_reducible apply ih | intro _ | with_reducible apply Held.ite
      | with_reducible apply State.endCopy_held | with_reducible apply State.putList_held
      | with_reducible apply State.setQueueBytes_held
      | (with_reducible refine State.spillCopy_held _ _ ?_ _ (by assumption)) | with_reducible apply Held.foldl
      | split

theorem State.backlogStep_held {s0 : State} (q : Nat) {s : State} (h : Held s0 s) :
    Held s0 (State.backlogStep q s) := by
  unfold State.backlogStep
  repeat' first
    | with_reducible assumption | intro _ | with_reducible apply Held.ite
    | with_reducible apply State.joinBacklog_held | with_reducible apply State.showQueue_held
    | with_reducible apply State.spillBacklog_held

theorem State.loseRecords_held {s0 : State} {s : State} (h : Held s0 s) :
    Held s0 (State.loseRecords s) := by
  unfold State.loseRecords
  repeat' first
    | with_reducible assumption | intro _ | with_reducible apply Held.ite
    | with_reducible apply State.backlogStep_held | with_reducible apply State.countBy_held
    | with_reducible apply State.modXtr_held | with_reducible apply State.putTier_held
    | with_reducible apply State.raise_held | with_reducible apply State.showTier_held
    | with_reducible apply Held.foldl | split

theorem State.loseTier_held {s0 : State} {s : State} (h : Held s0 s) :
    Held s0 (State.loseTier s) := by
  unfold State.loseTier
  repeat' first
    | with_reducible exact h | with_reducible apply State.loseRecords_held | with_reducible apply State.raise_held
    | with_reducible apply State.setFld_held

theorem State.dropWaiting_held {s0 : State} (ok : Nat → Bool) (counter : Copy → Nat) {s : State} (h : Held s0 s) :
    Held s0 (State.dropWaiting ok counter s) := by
  unfold State.dropWaiting
  repeat' first
    | with_reducible assumption | intro _ | with_reducible apply Held.ite | with_reducible apply State.endWaiting_held
    | with_reducible apply State.modFrame_held | with_reducible apply Held.foldl | split

theorem State.noteAct_held {s0 : State} (id : Nat) (c : Option Classified) {s : State} (h : Held s0 s) :
    Held s0 (State.noteAct id c s) := by
  unfold State.noteAct
  repeat' first | with_reducible exact h | with_reducible apply State.modCls_held

theorem State.freeLast_held {s0 : State} {s : State} (h : Held s0 s) :
    Held s0 (State.freeLast s) := by
  unfold State.freeLast
  repeat' first | with_reducible assumption | intro _ | with_reducible apply State.modCnt_held

theorem State.flowAnswer_held {s0 : State} (result : Nat) (index : Option Nat) {s : State} (h : Held s0 s) :
    Held s0 (State.flowAnswer result index s) := by
  unfold State.flowAnswer
  repeat' first
    | with_reducible assumption | intro _ | with_reducible apply Held.ite | with_reducible apply State.modFlow_held
    | with_reducible apply State.useFree_held | with_reducible apply Held.foldl | split

theorem State.setFlowUsed_held {s0 : State} (n : Nat) {s : State} (h : Held s0 s) :
    Held s0 (State.setFlowUsed n s) := by
  unfold State.setFlowUsed
  repeat' first
    | with_reducible exact h | with_reducible apply State.iff_held | with_reducible apply State.raise_held
    | with_reducible apply State.setFld_held

theorem State.flowCreate_held {s0 : State} (k : FlowKey) (flags : Nat) (w10 : Nat) {s : State} (h : Held s0 s) :
    Held s0 (State.flowCreate k flags w10 s).1 := by
  unfold State.flowCreate
  repeat' first
    | with_reducible assumption | intro _ | with_reducible apply Held.ite | with_reducible apply Held.ite_fst
    | with_reducible apply State.modFlow_held | with_reducible apply State.putEntry_held
    | with_reducible apply State.setFlowUsed_held | with_reducible apply State.useFree_held
    | with_reducible apply Held.foldl | split

theorem State.flowRemove_held {s0 : State} (e : Nat) {s : State} (h : Held s0 s) :
    Held s0 (State.flowRemove e s) := by
  unfold State.flowRemove
  repeat' first
    | with_reducible exact h | with_reducible apply State.modFlow_held | with_reducible apply State.putEntry_held
    | with_reducible apply State.setFlowUsed_held

theorem State.flowCommand_held {s0 : State} (op : Nat) {s : State} (h : Held s0 s) :
    Held s0 (State.flowCommand op s) := by
  unfold State.flowCommand
  repeat' first
    | with_reducible assumption | intro _ | with_reducible apply Held.ite | with_reducible apply State.count_held
    | with_reducible apply State.flowAnswer_held | with_reducible apply State.flowCreate_held
    | with_reducible apply State.flowRemove_held | with_reducible apply State.ignored_held
    | with_reducible apply State.setFld_held | with_reducible apply Held.foldl | split | with_reducible apply Held.id
    | dsimp only

theorem State.snapRefuse_held {s0 : State} (result : Nat) (idx : Nat) {s : State} (h : Held s0 s) :
    Held s0 (State.snapRefuse result idx s) := by
  unfold State.snapRefuse
  repeat' first
    | with_reducible exact h | with_reducible apply State.count_held | with_reducible apply State.setFld_held

theorem State.byRules_held {s0 : State} (f : InFrame) (x : Parsed) (l4ok : Bool) {s : State} (h : Held s0 s) :
    Held s0 (State.byRules f x l4ok s).1 := by
  unfold State.byRules
  repeat' first
    | with_reducible assumption | intro _ | with_reducible apply Held.ite | with_reducible apply Held.ite_fst
    | with_reducible apply State.count_held | with_reducible apply Held.foldl | split | with_reducible apply Held.id
    | dsimp only

theorem State.followUse_held {s0 : State} (e : Nat) {s : State} (h : Held s0 s) :
    Held s0 (State.followUse e s) := by
  unfold State.followUse
  repeat' first | with_reducible exact h | with_reducible apply State.modCls_held

theorem State.flowHit_held {s0 : State} (e : Nat) {s : State} (h : Held s0 s) :
    Held s0 (State.flowHit e s) := by
  unfold State.flowHit
  repeat' first
    | with_reducible exact h | with_reducible apply State.count_held | with_reducible apply State.modFlow_held
    | with_reducible apply State.putEntry_held

theorem State.showFollow_held {s0 : State} {s : State} (h : Held s0 s) :
    Held s0 (State.showFollow s) := by
  unfold State.showFollow
  repeat' first | with_reducible exact h | with_reducible apply State.setFld_held

theorem State.followRemove_held {s0 : State} (e : Nat) {s : State} (h : Held s0 s) :
    Held s0 (State.followRemove e s) := by
  unfold State.followRemove
  repeat' first
    | with_reducible exact h | with_reducible apply State.modCls_held | with_reducible apply State.putEntry_held
    | with_reducible apply State.showFollow_held

theorem State.learn_held {s0 : State} (k : FlowKey) (rule : Option Nat) (action : Nat) (saturated : Bool) {s :
    State} (h : Held s0 s) :
       Held s0 (State.learn k rule action saturated s).1 := by
  unfold State.learn
  repeat' first
    | with_reducible assumption | intro _ | with_reducible apply Held.ite | with_reducible apply Held.ite_fst
    | with_reducible apply State.count_held | with_reducible apply State.flowCreate_held
    | with_reducible apply State.raiseMs_held | with_reducible apply Held.foldl | split | with_reducible apply Held.id
    | dsimp only

theorem State.followRecord_held {s0 : State} (f : InFrame) (x : Parsed) (action : Nat) (flow : Option Nat) {s :
    State} (h : Held s0 s) :
       Held s0 (State.followRecord f x action flow s) := by
  unfold State.followRecord
  repeat' first
    | with_reducible assumption | intro _ | with_reducible apply Held.ite | with_reducible apply State.count_held
    | with_reducible apply State.followUse_held | with_reducible apply State.putEntry_held
    | with_reducible apply State.raiseMs_held | with_reducible apply State.showFollow_held
    | with_reducible apply State.useFree_held | with_reducible apply Held.foldl | split

theorem State.findAction_held {s0 : State} (f : InFrame) (x : Parsed) (saturated : Bool) {s : State} (h : Held s0 s) :
    Held s0 (State.findAction f x saturated s).1 := by
  unfold State.findAction
  repeat' first
    | with_reducible assumption | intro _ | with_reducible apply Held.ite | with_reducible apply Held.ite_fst
    | with_reducible apply State.byRules_held | with_reducible apply State.count_held
    | with_reducible apply State.flowHit_held | with_reducible apply State.followRecord_held
    | with_reducible apply State.followRemove_held | with_reducible apply State.followUse_held
    | with_reducible apply State.iff_held | with_reducible apply State.learn_held
    | with_reducible apply State.raiseMs_held | with_reducible apply Held.foldl | split | with_reducible apply Held.id
    | dsimp only

theorem State.polUpdate_held {s0 : State} (k : Nat) (ns : Nat) {s : State} (h : Held s0 s) :
    Held s0 (State.polUpdate k ns s) := by
  unfold State.polUpdate
  repeat' first
    | with_reducible exact h | with_reducible apply State.countBy_held | with_reducible apply State.modPol_held
    | with_reducible apply State.putTw_held

theorem State.polMeter_held {s0 : State} (k : Nat) (len : Nat) (col : Nat) {s : State} (h : Held s0 s) :
    Held s0 (State.polMeter k len col s).1 := by
  unfold State.polMeter
  repeat' first
    | with_reducible assumption | intro _ | with_reducible apply Held.ite | with_reducible apply Held.ite_fst
    | with_reducible apply State.countBy_held | with_reducible apply State.polUpdate_held
    | with_reducible apply State.putTw_held

theorem State.countPoliced_held {s0 : State} (len : Nat) {y : State × Nat × Bool} (h : Held s0 y.1) :
    Held s0 (State.countPoliced len y).1 := by
  unfold State.countPoliced
  repeat' first
    | with_reducible exact h | with_reducible apply Held.ite_fst | with_reducible apply State.count_held
    | with_reducible apply State.countBy_held | with_reducible apply State.raiseMs_held

theorem State.police_held {s0 : State} (f : InFrame) (act : List Word) (colour : Nat) {s : State} (h : Held s0 s) :
    Held s0 (State.police f act colour s).1 := by
  unfold State.police
  repeat' first
    | with_reducible assumption | intro _ | with_reducible apply Held.ite | with_reducible apply Held.ite_fst
    | with_reducible apply State.count_held | with_reducible apply State.countPoliced_held
    | with_reducible apply State.iff_held | with_reducible apply State.polMeter_held
    | with_reducible apply State.raise_held | with_reducible apply Held.foldl | split | with_reducible apply Held.id
    | dsimp only

theorem State.classify_held {s0 : State} (f : InFrame) (saturated : Bool) {s : State} (h : Held s0 s) :
    Held s0 (State.classify f saturated s) := by
  unfold State.classify
  repeat' first
    | with_reducible assumption | intro _ | with_reducible apply Held.ite | with_reducible apply State.count_held
    | with_reducible apply State.findAction_held | with_reducible apply State.iff_held
    | with_reducible apply State.modCls_held | with_reducible apply State.noteAct_held
    | with_reducible apply State.police_held | with_reducible apply State.raise_held
    | with_reducible apply State.raiseMs_held | with_reducible apply Held.foldl | split

theorem State.loseSegment_held {s0 : State} (g : Nat) {s : State} (h : Held s0 s) :
    Held s0 (State.loseSegment g s) := by
  unfold State.loseSegment
  repeat' first
    | with_reducible assumption | intro _ | with_reducible apply Held.ite | with_reducible apply State.countBy_held
    | with_reducible apply State.iff_held | with_reducible apply State.joinBacklog_held
    | with_reducible apply State.modXtr_held | with_reducible apply State.putTier_held
    | with_reducible apply State.raise_held | with_reducible apply State.showTier_held
    | with_reducible apply Held.foldl | split

theorem State.segWrite_held {s0 : State} (g : Nat) (ws : List Word) {s : State} (h : Held s0 s) :
    Held s0 (State.segWrite g ws s) := by
  unfold State.segWrite
  repeat' first
    | with_reducible assumption | intro _ | with_reducible apply Held.ite | with_reducible apply State.iff_held
    | with_reducible apply State.ignored_held | with_reducible apply State.loseSegment_held
    | with_reducible apply State.putEntry_held | with_reducible apply State.showTier_held

theorem State.keepLast_held {s0 : State} (runs : List (Nat × Nat)) {s : State} (h : Held s0 s) :
    Held s0 (State.keepLast runs s) := by
  unfold State.keepLast
  repeat' first | with_reducible assumption | intro _ | with_reducible apply State.modCnt_held

theorem State.noteContain_held {s0 : State} (p : Nat) (u : Nat) {s : State} (h : Held s0 s) :
    Held s0 (State.noteContain p u s) := by
  unfold State.noteContain
  repeat' first
    | with_reducible assumption | intro _ | with_reducible apply Held.ite | with_reducible apply State.count_held
    | with_reducible apply State.keepLast_held | with_reducible apply State.modRel_held
    | with_reducible apply State.raise_held

theorem State.ctxCount_held {s0 : State} (c : Nat) (w : Nat) {s : State} (h : Held s0 s) :
    Held s0 (State.ctxCount c w s) := by
  unfold State.ctxCount
  repeat' first | with_reducible exact h | with_reducible apply State.putTw_held

theorem State.discardAge_held {s0 : State} (k : Nat) (c : Copy) {s : State} (h : Held s0 s) :
    Held s0 (State.discardAge k c s) := by
  unfold State.discardAge
  repeat' first
    | with_reducible assumption | intro _ | with_reducible apply Held.ite | with_reducible apply State.count_held
    | with_reducible apply State.countBy_held | with_reducible apply State.endProtected_held
    | with_reducible apply State.raiseMs_held | with_reducible apply State.releaseRef_held
    | with_reducible apply State.unlinkCopy_held

theorem State.discardAged_held {s0 : State} (q : Nat) (x2 : Nat) {s : State} (h : Held s0 s) :
    Held s0 (State.discardAged q x2 s) := by
  induction x2 generalizing  s with
  | zero => exact h
  | succ n ih =>
    unfold State.discardAged
    repeat' first
      | with_reducible assumption | with_reducible apply ih | intro _ | with_reducible apply Held.ite
      | with_reducible apply State.discardAge_held | with_reducible apply Held.foldl | split

theorem State.drawOne_held {s0 : State} (q : Nat) {s : State} (h : Held s0 s) :
    ∀ out, State.drawOne q s = some out → Held s0 out := by
  intro out e
  unfold State.drawOne at e
  dsimp only at e
  repeat' split at e
  all_goals first
    | cases e; done
    | (injection e with e; subst e)
  all_goals
    repeat' first
      | with_reducible exact h | with_reducible apply State.appendCopy_held | with_reducible apply State.count_held
      | with_reducible apply State.countBy_held | with_reducible apply State.drawCells_held
      | with_reducible apply State.modSto_held | with_reducible apply State.putFrame_held
      | with_reducible apply State.putTier_held | with_reducible apply State.setQueueBytes_held
      | with_reducible apply State.takeRef_held

theorem State.loseChain_held {s0 : State} (q : Nat) {s : State} (h : Held s0 s) :
    Held s0 (State.loseChain q s) := by
  unfold State.loseChain
  repeat' first
    | with_reducible assumption | intro _ | with_reducible apply Held.ite | with_reducible apply State.countBy_held
    | with_reducible apply State.joinBacklog_held | with_reducible apply State.modXtr_held
    | with_reducible apply State.putTier_held | with_reducible apply State.raise_held
    | with_reducible apply State.showQueue_held

theorem State.drawBack_held {s0 : State} (q : Nat) (x2 : Nat) {s : State} (h : Held s0 s) :
    Held s0 (State.drawBack q x2 s) := by
  induction x2 generalizing  s with
  | zero => exact h
  | succ n ih =>
    unfold State.drawBack
    repeat' first
      | with_reducible assumption | with_reducible apply ih | intro _ | with_reducible apply Held.ite
      | (with_reducible refine State.drawOne_held _ ?_ _ (by assumption)) | with_reducible apply State.loseChain_held
      | with_reducible apply Held.foldl | split

theorem State.examine_held {s0 : State} (q : Nat) {s : State} (h : Held s0 s) :
    Held s0 (State.examine q s) := by
  unfold State.examine
  repeat' first
    | with_reducible exact h | with_reducible apply State.discardAged_held
    | with_reducible apply State.judgePromotion_held | with_reducible apply State.showQueue_held

theorem State.fillStream_held {s0 : State} (t : Tree) (a : Nat) (fc : Nat) (space : Nat) {s : State} (h : Held s0 s) :
    Held s0 (State.fillStream t a fc space s).1 := by
  unfold State.fillStream
  repeat' first
    | with_reducible assumption | intro _ | with_reducible apply Held.ite | with_reducible apply Held.ite_fst
    | with_reducible apply Fill.run_held | with_reducible apply State.countBy_held
    | with_reducible apply State.examine_held | with_reducible apply State.judgePromotion_held
    | with_reducible apply State.showQueue_held | with_reducible apply Held.foldl | split

theorem State.flowDone_held {s0 : State} {s : State} (h : Held s0 s) :
    Held s0 (State.flowDone s) := by
  unfold State.flowDone
  repeat' first
    | with_reducible assumption | intro _ | with_reducible apply Held.ite | with_reducible apply State.raise_held
    | with_reducible apply State.setFld_held

theorem State.flowVisit_held {s0 : State} {s : State} (e : Nat) (h : Held s0 s) :
    Held s0 (State.flowVisit s e) := by
  unfold State.flowVisit
  repeat' first
    | with_reducible assumption | intro _ | with_reducible apply Held.ite | with_reducible apply State.count_held
    | with_reducible apply State.flowRemove_held | with_reducible apply State.raiseMs_held

theorem State.keySwitch_held {s0 : State} (c : Nat) (fc : Nat) {s : State} (h : Held s0 s) :
    Held s0 (State.keySwitch c fc s) := by
  unfold State.keySwitch
  repeat' first
    | with_reducible assumption | intro _ | with_reducible apply Held.ite | with_reducible apply State.count_held
    | with_reducible apply State.putTw_held | with_reducible apply State.raiseMs_held
    | with_reducible apply State.setCtxGcm_held | with_reducible apply State.setSelector_held
    | with_reducible apply State.showPn_held | with_reducible apply Held.foldl | split

theorem State.setFault_held {s0 : State} (p : Nat) (on : Bool) {s : State} (h : Held s0 s) :
    Held s0 (State.setFault p on s) := by
  unfold State.setFault
  repeat' first
    | with_reducible assumption | intro _ | with_reducible apply State.emit_held | with_reducible apply State.iff_held
    | with_reducible apply State.setPf_held

theorem State.loseRecord_held {s0 : State} (q : Nat) {s : State} (h : Held s0 s) :
    Held s0 (State.loseRecord q s) := by
  unfold State.loseRecord
  repeat' first
    | with_reducible assumption | intro _ | with_reducible apply Held.ite
    | with_reducible apply State.backlogStep_held | with_reducible apply State.count_held
    | with_reducible apply State.countBy_held | with_reducible apply State.putTier_held
    | with_reducible apply State.raise_held | with_reducible apply Held.foldl | split

theorem State.recordPn_held {s0 : State} (c : Nat) (k : Nat) (pn : Nat) {s : State} (h : Held s0 s) :
    Held s0 (State.recordPn c k pn s) := by
  unfold State.recordPn
  repeat' first
    | with_reducible exact h | with_reducible apply State.modLsec_held | with_reducible apply State.showPn_held

theorem State.lsecDown.judge_held {s0 : State} (c : Nat) (fc : Nat) (hdr : Bytes) (payload : Bytes) {s : State} (h :
    Held s0 s) :
       Held s0 (State.lsecDown.judge c fc hdr payload s).1 := by
  unfold State.lsecDown.judge
  repeat' first
    | with_reducible assumption | intro _ | with_reducible apply Held.ite | with_reducible apply Held.ite_fst
    | with_reducible apply State.count_held | with_reducible apply State.countBy_held
    | with_reducible apply State.ctxCount_held | with_reducible apply State.raiseMs_held
    | with_reducible apply State.recordPn_held | with_reducible apply State.setFld_held
    | with_reducible apply Held.foldl | split

theorem State.lsecDown_held {s0 : State} (c : Nat) (fc : Nat) (hdr : Bytes) (payload : Bytes) {s : State} (h : Held
    s0 s) :
       Held s0 (State.lsecDown c fc hdr payload s).1 := by
  unfold State.lsecDown
  repeat' first
    | with_reducible exact h | with_reducible apply State.count_held | with_reducible apply State.lsecDown.judge_held

theorem State.pmAdd32_held {s0 : State} (t : Nat) (e : Nat) (w : Nat) (n : Int) {s : State} (h : Held s0 s) :
    Held s0 (State.pmAdd32 t e w n s) := by
  unfold State.pmAdd32
  repeat' first | with_reducible exact h | with_reducible apply State.putTw_held

theorem State.pmAdd64_held {s0 : State} (t : Nat) (e : Nat) (w : Nat) (n : Nat) {s : State} (h : Held s0 s) :
    Held s0 (State.pmAdd64 t e w n s) := by
  unfold State.pmAdd64
  repeat' first | with_reducible exact h | with_reducible apply State.putTw_held

theorem State.pmAlerts_held {s0 : State} (r : Rx) (day : Bool) {s : State} (h : Held s0 s) :
    Held s0 (State.pmAlerts r day s) := by
  unfold State.pmAlerts
  repeat' first
    | with_reducible assumption | intro _ | with_reducible apply Held.ite | with_reducible apply State.count_held
    | with_reducible apply State.raise_held | with_reducible apply State.setTf_held | with_reducible apply Held.foldl
    | split

theorem State.pmBinEdge_held {s0 : State} (day : Bool) {s : State} (h : Held s0 s) :
    Held s0 (State.pmBinEdge day s) := by
  unfold State.pmBinEdge
  repeat' first
    | with_reducible assumption | intro _ | with_reducible apply Held.ite | with_reducible apply State.pmEdge_held

theorem State.pmFinal_held {s0 : State} (r : Rx) (day : Bool) (slot : Nat) {s : State} (h : Held s0 s) :
    Held s0 (State.pmFinal r day slot s) := by
  unfold State.pmFinal
  repeat' first
    | with_reducible assumption | intro _ | with_reducible apply Held.ite | with_reducible apply State.setTf_held

theorem State.pmMove_held {s0 : State} (r : Rx) (day : Bool) (slot : Nat) (es : Int) (ses : Int) (uas : Int) {s :
    State} (h : Held s0 s) :
       Held s0 (State.pmMove r day slot es ses uas s) := by
  unfold State.pmMove
  repeat' first
    | with_reducible assumption | intro _ | with_reducible apply Held.ite | with_reducible apply State.pmAdd32_held

theorem State.pmJudge_held {s0 : State} (r : Rx) (es : Bool) (ses : Bool) (slot15 : Nat) (slotDay : Nat) {s : State}
    (h : Held s0 s) :
       Held s0 (State.pmJudge r es ses slot15 slotDay s) := by
  unfold State.pmJudge
  repeat' first
    | with_reducible assumption | intro _ | with_reducible apply Held.ite | with_reducible apply State.modPm_held
    | with_reducible apply State.pmMove_held | with_reducible apply Held.foldl | split

theorem State.pmRestart_held {s0 : State} (r : Rx) {s : State} (h : Held s0 s) :
    Held s0 (State.pmRestart r s) := by
  unfold State.pmRestart
  repeat' first
    | with_reducible exact h | with_reducible apply State.modFrm_held | with_reducible apply State.modPm_held

theorem State.pmTake_held {s0 : State} (r : Rx) (day : Bool) (slot : Nat) (hcs : Nat) {s : State} (h : Held s0 s) :
    Held s0 (State.pmTake r day slot hcs s) := by
  unfold State.pmTake
  repeat' first
    | with_reducible exact h | with_reducible apply State.iff_held | with_reducible apply State.pmAdd32_held
    | with_reducible apply State.pmAdd64_held | with_reducible apply State.pmMark_held

theorem State.pmSecond_held {s0 : State} (r : Rx) {s : State} (h : Held s0 s) :
    Held s0 (State.pmSecond r s) := by
  unfold State.pmSecond
  repeat' first
    | with_reducible assumption | intro _ | with_reducible apply Held.ite | with_reducible apply State.iff_held
    | with_reducible apply State.pmAlerts_held | with_reducible apply State.pmJudge_held
    | with_reducible apply State.pmRestart_held | with_reducible apply State.pmTake_held
    | with_reducible apply State.useFree_held

theorem State.schedTick_held {s0 : State} {s : State} (h : Held s0 s) :
    Held s0 (State.schedTick s) := by
  unfold State.schedTick
  repeat' first
    | with_reducible exact h | with_reducible apply State.modSto_held | with_reducible apply State.modUsch_held

theorem State.snapComplete_held {s0 : State} {s : State} (h : Held s0 s) :
    Held s0 (State.snapComplete s) := by
  unfold State.snapComplete
  repeat' first
    | with_reducible assumption | intro _ | with_reducible apply State.count_held
    | with_reducible apply State.iff_held | with_reducible apply State.modSnap_held
    | with_reducible apply State.raise_held | with_reducible apply State.setFld_held

theorem State.snapMissing_held {s0 : State} (k : Nat) {s : State} (h : Held s0 s) :
    Held s0 (State.snapMissing k s) := by
  unfold State.snapMissing
  repeat' first
    | with_reducible assumption | intro _ | with_reducible apply Held.ite | with_reducible apply State.setBank_held
    | with_reducible apply State.setTf_held | with_reducible apply Held.foldl | split

theorem State.xoffAgain_held {s0 : State} (p : Nat) (n : Nat) {s : State} (h : Held s0 s) :
    Held s0 (State.xoffAgain p n s) := by
  unfold State.xoffAgain
  repeat' first
    | with_reducible assumption | intro _ | with_reducible apply Held.ite | with_reducible apply State.iff_held
    | with_reducible apply State.pauseAsk_held

end Sys2Proof.Machine
end

