-- ==== Sys2Proof/Laws/KeptLine.lean ====
section
/-! SUPPORT. What every operation keeps (Laws/Held.lean): the line, the tree-mode machines, network time, admission, clocks. -/

namespace Sys2Proof.Machine

theorem State.modTxs_held {s0 : State} (t : Tree) (f : TxSt → TxSt) {s : State} (h : Held s0 s) :
    Held s0 (State.modTxs t f s) := by
  unfold State.modTxs
  repeat' first | with_reducible exact h | with_reducible apply State.modTx_held

theorem State.drivePrep_held {s0 : State} (t : Tree) (on : Bool) {s : State} (h : Held s0 s) :
    Held s0 (State.drivePrep t on s) := by
  unfold State.drivePrep
  repeat' first | with_reducible exact h | with_reducible apply State.setFld_held

theorem State.driveGate_held {s0 : State} (t : Tree) (on : Bool) {s : State} (h : Held s0 s) :
    Held s0 (State.driveGate t on s) := by
  unfold State.driveGate
  repeat' first | with_reducible exact h | with_reducible apply State.setFld_held

theorem State.pinsLow_held {s0 : State} (t : Tree) {s : State} (h : Held s0 s) :
    Held s0 (State.pinsLow t s) := by
  unfold State.pinsLow
  repeat' first
    | with_reducible exact h | with_reducible apply State.driveGate_held | with_reducible apply State.drivePrep_held

theorem State.showPending_held {s0 : State} (t : Tree) {s : State} (h : Held s0 s) :
    Held s0 (State.showPending t s) := by
  unfold State.showPending
  repeat' first | with_reducible exact h | with_reducible apply State.setFld_held

theorem State.modGrts_held {s0 : State} (t : Tree) (f : GrtSt → GrtSt) {s : State} (h : Held s0 s) :
    Held s0 (State.modGrts t f s) := by
  unfold State.modGrts
  repeat' first | with_reducible exact h | with_reducible apply State.modGrt_held

theorem State.removeGrant_held {s0 : State} (t : Tree) (i : Nat) {s : State} (h : Held s0 s) :
    Held s0 (State.removeGrant t i s) := by
  unfold State.removeGrant
  repeat' first
    | with_reducible exact h | with_reducible apply State.modGrts_held | with_reducible apply State.putEntry_held
    | with_reducible apply State.showPending_held

theorem State.dropRemainders_held {s0 : State} (t : Tree) (c : Copy) {s : State} (h : Held s0 s) :
    Held s0 (State.dropRemainders t c s) := by
  unfold State.dropRemainders
  repeat' first
    | with_reducible assumption | intro _ | with_reducible apply Held.ite | with_reducible apply State.releaseRef_held
    | with_reducible apply State.unlinkCopy_held | with_reducible apply Held.foldl | split

theorem State.loseCopy_held {s0 : State} (t : Tree) (c : Copy) (here : Bool) {s : State} (h : Held s0 s) :
    Held s0 (State.loseCopy t c here s) := by
  unfold State.loseCopy
  repeat' first
    | with_reducible assumption | intro _ | with_reducible apply Held.ite | with_reducible apply State.count_held
    | with_reducible apply State.dropRemainders_held | with_reducible apply State.iff_held
    | with_reducible apply State.modFrame_held | with_reducible apply State.releaseRef_held

theorem State.showTmc_held {s0 : State} (t : Tree) {s : State} (h : Held s0 s) :
    Held s0 (State.showTmc t s) := by
  unfold State.showTmc
  repeat' first | with_reducible exact h | with_reducible apply State.setFld_held

theorem State.setTmcState_held {s0 : State} (t : Tree) (e : Nat) (st : Nat) {s : State} (h : Held s0 s) :
    Held s0 (State.setTmcState t e st s) := by
  unfold State.setTmcState
  repeat' first
    | with_reducible assumption | intro _ | with_reducible apply Held.ite | with_reducible apply State.modGrts_held
    | with_reducible apply State.putEntry_held | with_reducible apply State.setTf_held
    | with_reducible apply State.showTmc_held

theorem State.loseContent_held {s0 : State} (t : Tree) (c : Content) {s : State} (h : Held s0 s) :
    Held s0 (State.loseContent t c s) := by
  unfold State.loseContent
  repeat' first
    | with_reducible assumption | intro _ | with_reducible apply Held.ite | with_reducible apply State.count_held
    | with_reducible apply State.countBy_held | with_reducible apply State.endProtected_held
    | with_reducible apply State.iff_held | with_reducible apply State.loseCopy_held
    | with_reducible apply State.raise_held | with_reducible apply State.setTmcState_held
    | with_reducible apply Held.foldl | split

theorem State.suppressLate_held {s0 : State} (t : Tree) (i : Nat) {s : State} (h : Held s0 s) :
    Held s0 (State.suppressLate t i s) := by
  unfold State.suppressLate
  repeat' first
    | with_reducible exact h | with_reducible apply State.count_held | with_reducible apply State.loseContent_held
    | with_reducible apply State.raiseMs_held | with_reducible apply State.removeGrant_held

theorem State.suppressSelected_held {s0 : State} (t : Tree) {s : State} (h : Held s0 s) :
    Held s0 (State.suppressSelected t s) := by
  unfold State.suppressSelected
  repeat' first
    | with_reducible assumption | intro _ | with_reducible apply Held.ite | with_reducible apply State.count_held
    | with_reducible apply State.suppressLate_held | with_reducible apply Held.foldl | split

theorem State.tune_held {s0 : State} (t : Tree) {s : State} (h : Held s0 s) :
    Held s0 (State.tune t s) := by
  unfold State.tune
  repeat' first
    | with_reducible assumption | intro _ | with_reducible apply Held.ite | with_reducible apply State.emit_held
    | with_reducible apply State.iff_held | with_reducible apply State.modTxs_held

theorem State.truncate_held {s0 : State} (t : Tree) {s : State} (h : Held s0 s) :
    Held s0 (State.truncate t s) := by
  unfold State.truncate
  repeat' first
    | with_reducible assumption | intro _ | with_reducible apply Held.ite | with_reducible apply State.count_held
    | with_reducible apply State.driveGate_held | with_reducible apply State.emit_held
    | with_reducible apply State.loseContent_held | with_reducible apply State.modTxs_held
    | with_reducible apply State.raise_held | with_reducible apply State.removeGrant_held
    | with_reducible apply State.tune_held | with_reducible apply Held.foldl | split

theorem State.contEnd_held {s0 : State} (t : Tree) {s : State} (h : Held s0 s) :
    Held s0 (State.contEnd t s) := by
  unfold State.contEnd
  repeat' first
    | with_reducible assumption | intro _ | with_reducible apply Held.ite | with_reducible apply State.emit_held
    | with_reducible apply State.modTxs_held | with_reducible apply Held.foldl | split

theorem State.contBegin_held {s0 : State} (t : Tree) {s : State} (h : Held s0 s) :
    Held s0 (State.contBegin t s) := by
  unfold State.contBegin
  repeat' first | with_reducible exact h | with_reducible apply State.modTxs_held

theorem State.policyPins_held {s0 : State} (t : Tree) {s : State} (h : Held s0 s) :
    Held s0 (State.policyPins t s) := by
  unfold State.policyPins
  repeat' first
    | with_reducible assumption | intro _ | with_reducible apply Held.ite | with_reducible apply State.contBegin_held
    | with_reducible apply State.driveGate_held | with_reducible apply State.drivePrep_held
    | with_reducible apply State.pinsLow_held

theorem State.halUnpin_held {s0 : State} (t : Tree) (j : HalJob) (whole : Bool) {s : State} (h : Held s0 s) :
    Held s0 (State.halUnpin t j whole s) := by
  unfold State.halUnpin
  repeat' first
    | with_reducible assumption | intro _ | with_reducible apply Held.ite | with_reducible apply State.driveGate_held
    | with_reducible apply State.emit_held | with_reducible apply State.iff_held
    | with_reducible apply State.modTxs_held | with_reducible apply State.pinsLow_held
    | with_reducible apply State.setFld_held | with_reducible apply Held.foldl | split

theorem State.modHals_held {s0 : State} (t : Tree) (f : HalSt → HalSt) {s : State} (h : Held s0 s) :
    Held s0 (State.modHals t f s) := by
  unfold State.modHals
  repeat' first | with_reducible exact h | with_reducible apply State.modHal_held

theorem State.halDone_held {s0 : State} (t : Tree) (slot : Nat) (result : Nat) {s : State} (h : Held s0 s) :
    Held s0 (State.halDone t slot result s) := by
  unfold State.halDone
  repeat' first
    | with_reducible assumption | intro _ | with_reducible apply Held.ite | with_reducible apply State.count_held
    | with_reducible apply State.halUnpin_held | with_reducible apply State.iff_held
    | with_reducible apply State.modHals_held | with_reducible apply State.raise_held
    | with_reducible apply State.setFld_held | with_reducible apply Held.foldl | split

theorem State.halRefusePins_held {s0 : State} (t : Tree) {s : State} (h : Held s0 s) :
    Held s0 (State.halRefusePins t s) := by
  unfold State.halRefusePins
  repeat' first
    | with_reducible assumption | intro _ | with_reducible apply Held.ite | with_reducible apply State.halDone_held
    | with_reducible apply Held.foldl | split

theorem State.policyJudge_held {s0 : State} (t : Tree) {s : State} (h : Held s0 s) :
    Held s0 (State.policyJudge t s) := by
  unfold State.policyJudge
  repeat' first
    | with_reducible assumption | intro _ | with_reducible apply Held.ite | with_reducible apply State.contEnd_held
    | with_reducible apply State.halRefusePins_held | with_reducible apply State.iff_held
    | with_reducible apply State.policyPins_held | with_reducible apply State.setFld_held
    | with_reducible apply State.suppressSelected_held | with_reducible apply State.truncate_held

theorem State.laneIdle_held {s0 : State} (t : Tree) {s : State} (h : Held s0 s) :
    Held s0 (State.laneIdle t s) := by
  unfold State.laneIdle
  repeat' first
    | with_reducible assumption | intro _ | with_reducible apply Held.ite | with_reducible apply State.modTxs_held
    | with_reducible apply State.policyJudge_held | with_reducible apply State.setFld_held
    | with_reducible apply Held.foldl | split

theorem State.refreshPolicy_held {s0 : State} (t : Tree) {s : State} (h : Held s0 s) :
    Held s0 (State.refreshPolicy t s) := by
  unfold State.refreshPolicy
  repeat' first
    | with_reducible assumption | intro _ | with_reducible apply Held.ite | with_reducible apply State.laneIdle_held
    | with_reducible apply State.policyJudge_held

theorem State.showForce_held {s0 : State} (t : Tree) {s : State} (h : Held s0 s) :
    Held s0 (State.showForce t s) := by
  unfold State.showForce
  repeat' first | with_reducible exact h | with_reducible apply State.setFld_held

theorem State.enterForce_held {s0 : State} (t : Tree) {s : State} (h : Held s0 s) :
    Held s0 (State.enterForce t s) := by
  unfold State.enterForce
  repeat' first
    | with_reducible exact h | with_reducible apply State.pinsLow_held | with_reducible apply State.raise_held
    | with_reducible apply State.refreshPolicy_held | with_reducible apply State.showForce_held

theorem State.clockForce_held {s0 : State} (t : Tree) {s : State} (h : Held s0 s) :
    Held s0 (State.clockForce t s) := by
  unfold State.clockForce
  repeat' first
    | with_reducible assumption | intro _ | with_reducible apply Held.ite | with_reducible apply State.count_held
    | with_reducible apply State.enterForce_held | with_reducible apply State.modTxs_held
    | with_reducible apply State.raise_held | with_reducible apply State.setFld_held

theorem State.txClockBack_held {s0 : State} (t : Tree) {s : State} (h : Held s0 s) :
    Held s0 (State.txClockBack t s) := by
  unfold State.txClockBack
  repeat' first
    | with_reducible assumption | intro _ | with_reducible apply Held.ite | with_reducible apply State.modTxs_held
    | with_reducible apply State.setFld_held

theorem State.moveTreeClk_held {s0 : State} (t : Tree) (new : Nat) {s : State} (h : Held s0 s) :
    Held s0 (State.moveTreeClk t new s) := by
  unfold State.moveTreeClk
  repeat' first
    | with_reducible assumption | intro _ | with_reducible apply Held.ite | with_reducible apply State.clockForce_held
    | with_reducible apply State.count_held | with_reducible apply State.iff_held
    | with_reducible apply State.raise_held | with_reducible apply State.setFld_held
    | with_reducible apply State.txClockBack_held

theorem State.forceLost_held {s0 : State} {s : State} (h : Held s0 s) :
    Held s0 (State.forceLost s) := by
  unfold State.forceLost
  repeat' first
    | with_reducible assumption | intro _ | with_reducible apply Held.ite | with_reducible apply State.raise_held
    | with_reducible apply State.setFld_held

theorem State.breakTrim_held {s0 : State} {s : State} (h : Held s0 s) :
    Held s0 (State.breakTrim s) := by
  unfold State.breakTrim
  repeat' first | with_reducible exact h | with_reducible apply State.modClk_held

theorem State.hostEnd_held {s0 : State} {s : State} (h : Held s0 s) :
    Held s0 (State.hostEnd s) := by
  unfold State.hostEnd
  repeat' first
    | with_reducible exact h | with_reducible apply State.modTime_held | with_reducible apply State.setFld_held

theorem State.ppsLow_held {s0 : State} {s : State} (h : Held s0 s) :
    Held s0 (State.ppsLow s) := by
  unfold State.ppsLow
  repeat' first | with_reducible exact h | with_reducible apply State.modTime_held

theorem State.showTick_held {s0 : State} {s : State} (h : Held s0 s) :
    Held s0 (State.showTick s) := by
  unfold State.showTick
  repeat' first | with_reducible exact h | with_reducible apply State.setFld_held

theorem State.setTimeValid_held {s0 : State} (on : Bool) {s : State} (h : Held s0 s) :
    Held s0 (State.setTimeValid on s) := by
  unfold State.setTimeValid
  repeat' first
    | with_reducible exact h | with_reducible apply State.setFld_held | with_reducible apply State.showTick_held

theorem State.timeLost_held {s0 : State} {s : State} (h : Held s0 s) :
    Held s0 (State.timeLost s) := by
  unfold State.timeLost
  repeat' first
    | with_reducible exact h | with_reducible apply State.count_held | with_reducible apply State.pmMarkAll_held
    | with_reducible apply State.ppsLow_held | with_reducible apply State.raise_held
    | with_reducible apply State.setTimeValid_held

theorem State.launchReach_held {s0 : State} (e : Nat) {s : State} (h : Held s0 s) :
    Held s0 (State.launchReach e s) := by
  unfold State.launchReach
  repeat' first
    | with_reducible assumption | intro _ | with_reducible apply State.iff_held
    | with_reducible apply State.modTime_held

theorem State.snapResume_held {s0 : State} {s : State} (h : Held s0 s) :
    Held s0 (State.snapResume s) := by
  unfold State.snapResume
  repeat' first
    | with_reducible exact h | with_reducible apply State.iff_held | with_reducible apply State.snapReach_held

theorem State.foutAlign_held {s0 : State} {s : State} (h : Held s0 s) :
    Held s0 (State.foutAlign s) := by
  unfold State.foutAlign
  repeat' first | with_reducible exact h | with_reducible apply State.modTime_held

theorem State.ppsMark_held {s0 : State} {s : State} (h : Held s0 s) :
    Held s0 (State.ppsMark s) := by
  unfold State.ppsMark
  repeat' first
    | with_reducible exact h | with_reducible apply State.foutAlign_held | with_reducible apply State.modTime_held

theorem State.ppsRise_held {s0 : State} {s : State} (h : Held s0 s) :
    Held s0 (State.ppsRise s) := by
  unfold State.ppsRise
  repeat' first
    | with_reducible assumption | intro _ | with_reducible apply Held.ite | with_reducible apply State.count_held
    | with_reducible apply State.iff_held | with_reducible apply State.modTime_held
    | with_reducible apply State.ppsMark_held

theorem State.timedFire_held {s0 : State} (resume : Bool) {s : State} (x3 : TimedAct) (h : Held s0 s) :
    Held s0 (State.timedFire resume s x3) := by
  unfold State.timedFire
  repeat' first
    | with_reducible assumption | intro _ | with_reducible apply Held.ite | with_reducible apply State.iff_held
    | with_reducible apply State.launchReach_held | with_reducible apply State.pmPassed_held
    | with_reducible apply State.ppsRise_held | with_reducible apply State.snapFire_held
    | with_reducible apply State.snapReach_held | with_reducible apply State.snapResume_held
    | with_reducible apply Held.foldl | split

theorem State.timePassed_held {s0 : State} (resume : Bool) {s : State} (h : Held s0 s) :
    Held s0 (State.timePassed resume s) := by
  unfold State.timePassed
  repeat' first
    | with_reducible assumption | intro _ | with_reducible apply Held.ite | with_reducible apply State.timedFire_held
    | with_reducible apply Held.foldl | split

theorem State.tickAlign_held {s0 : State} {s : State} (h : Held s0 s) :
    Held s0 (State.tickAlign s) := by
  unfold State.tickAlign
  repeat' first | with_reducible exact h | with_reducible apply State.modUsch_held

theorem State.showTime_held {s0 : State} {s : State} (h : Held s0 s) :
    Held s0 (State.showTime s) := by
  unfold State.showTime
  repeat' first | with_reducible exact h | with_reducible apply State.putTime_held

theorem State.timeMove_held {s0 : State} (v : Nat) {s : State} (h : Held s0 s) :
    Held s0 (State.timeMove v s) := by
  unfold State.timeMove
  repeat' first
    | with_reducible exact h | with_reducible apply State.modTime_held | with_reducible apply State.showTime_held

theorem State.launchJudge_held {s0 : State} {s : State} (h : Held s0 s) :
    Held s0 (State.launchJudge s) := by
  unfold State.launchJudge
  repeat' first | with_reducible exact h | with_reducible apply State.modTime_held

theorem State.timeApply_held {s0 : State} (v : Nat) (resume : Bool) {s : State} (h : Held s0 s) :
    Held s0 (State.timeApply v resume s) := by
  unfold State.timeApply
  repeat' first
    | with_reducible assumption | intro _ | with_reducible apply Held.ite | with_reducible apply State.count_held
    | with_reducible apply State.iff_held | with_reducible apply State.launchJudge_held
    | with_reducible apply State.modTime_held | with_reducible apply State.pmMarkAll_held
    | with_reducible apply State.ppsMark_held | with_reducible apply State.raise_held
    | with_reducible apply State.setSFld_held | with_reducible apply State.tickAlign_held
    | with_reducible apply State.timeMove_held | with_reducible apply State.timePassed_held

theorem State.foutJudge_held {s0 : State} {s : State} (h : Held s0 s) :
    Held s0 (State.foutJudge s) := by
  unfold State.foutJudge
  repeat' first
    | with_reducible exact h | with_reducible apply State.foutAlign_held | with_reducible apply State.iff_held
    | with_reducible apply State.modTime_held | with_reducible apply State.raise_held
    | with_reducible apply State.setFld_held

theorem State.timeJudge_held {s0 : State} {s : State} (h : Held s0 s) :
    Held s0 (State.timeJudge s) := by
  unfold State.timeJudge
  repeat' first
    | with_reducible assumption | intro _ | with_reducible apply Held.ite | with_reducible apply State.count_held
    | with_reducible apply State.foutJudge_held | with_reducible apply State.hostEnd_held
    | with_reducible apply State.iff_held | with_reducible apply State.launchJudge_held
    | with_reducible apply State.raise_held | with_reducible apply State.setFld_held
    | with_reducible apply State.setTimeValid_held | with_reducible apply State.timeApply_held
    | with_reducible apply State.timeLost_held

theorem State.movePartClk_held {s0 : State} (new : Nat) {s : State} (h : Held s0 s) :
    Held s0 (State.movePartClk new s) := by
  unfold State.movePartClk
  repeat' first
    | with_reducible assumption | intro _ | with_reducible apply Held.ite | with_reducible apply State.breakTrim_held
    | with_reducible apply State.count_held | with_reducible apply State.iff_held
    | with_reducible apply State.raise_held | with_reducible apply State.setFld_held
    | with_reducible apply State.timeJudge_held

theorem State.setNeed_held {s0 : State} (t : Tree) (on : Bool) {s : State} (h : Held s0 s) :
    Held s0 (State.setNeed t on s) := by
  unfold State.setNeed
  repeat' first | with_reducible exact h | with_reducible apply State.modUsch_held

theorem State.modFrms_held {s0 : State} (r : Rx) (f : FrmSt → FrmSt) {s : State} (h : Held s0 s) :
    Held s0 (State.modFrms r f s) := by
  unfold State.modFrms
  repeat' first | with_reducible exact h | with_reducible apply State.modFrm_held

theorem State.closeWindow_held {s0 : State} (r : Rx) {s : State} (h : Held s0 s) :
    Held s0 (State.closeWindow r s) := by
  unfold State.closeWindow
  repeat' first | with_reducible exact h | with_reducible apply State.modFrms_held

theorem State.setRecord_held {s0 : State} (t : Tree) (pos : Nat) (bs : Bytes) {s : State} (h : Held s0 s) :
    Held s0 (State.setRecord t pos bs s) := by
  unfold State.setRecord
  repeat' first | with_reducible exact h | with_reducible apply State.putEntry_held

theorem State.modHalJob_held {s0 : State} (t : Tree) (slot : Nat) (f : HalJob → HalJob) {s : State} (h : Held s0 s) :
    Held s0 (State.modHalJob t slot f s) := by
  unfold State.modHalJob
  repeat' first | with_reducible exact h | with_reducible apply State.modHals_held

theorem State.halMove_held {s0 : State} (t : Tree) (j : HalJob) {s : State} (h : Held s0 s) :
    Held s0 (State.halMove t j s) := by
  unfold State.halMove
  repeat' first
    | with_reducible assumption | intro _ | with_reducible apply Held.ite | with_reducible apply State.modHalJob_held
    | with_reducible apply State.modTxs_held

theorem State.halRetime_held {s0 : State} (t : Tree) {s : State} (h : Held s0 s) :
    Held s0 (State.halRetime t s) := by
  unfold State.halRetime
  repeat' first
    | with_reducible assumption | intro _ | with_reducible apply Held.ite | with_reducible apply State.halMove_held
    | with_reducible apply Held.foldl | split

theorem State.releaseList_held {s0 : State} (k : Nat) {s : State} (h : Held s0 s) :
    Held s0 (State.releaseList k s) := by
  unfold State.releaseList
  repeat' first
    | with_reducible assumption | intro _ | with_reducible apply Held.ite | with_reducible apply State.count_held
    | with_reducible apply State.endCopy_held | with_reducible apply State.endProtected_held
    | with_reducible apply State.unlinkCopy_held | with_reducible apply Held.foldl | split

theorem State.releaseShared_held {s0 : State} (q : Nat) {s : State} (h : Held s0 s) :
    Held s0 (State.releaseShared q s) := by
  unfold State.releaseShared
  repeat' first
    | with_reducible exact h | with_reducible apply State.iff_held | with_reducible apply State.releaseList_held
    | with_reducible apply State.releaseTier_held

theorem State.releaseAlloc_held {s0 : State} (t : Tree) (a : Nat) {s : State} (h : Held s0 s) :
    Held s0 (State.releaseAlloc t a s) := by
  unfold State.releaseAlloc
  repeat' first
    | with_reducible assumption | intro _ | with_reducible apply Held.ite | with_reducible apply State.iff_held
    | with_reducible apply State.putEntry_held | with_reducible apply State.releaseList_held
    | with_reducible apply State.releaseShared_held | with_reducible apply State.showQueue_held
    | with_reducible apply Held.foldl | split

theorem State.dropMerge_held {s0 : State} (q : Nat) {s : State} (h : Held s0 s) :
    Held s0 (State.dropMerge q s) := by
  unfold State.dropMerge
  repeat' first
    | with_reducible exact h | with_reducible apply State.modDual_held | with_reducible apply State.setTf_held

theorem State.dropTenantMerge_held {s0 : State} (n : Nat) {s : State} (h : Held s0 s) :
    Held s0 (State.dropTenantMerge n s) := by
  unfold State.dropTenantMerge
  repeat' first
    | with_reducible assumption | intro _ | with_reducible apply Held.ite | with_reducible apply State.dropMerge_held
    | with_reducible apply State.iff_held | with_reducible apply State.modDual_held | with_reducible apply Held.foldl
    | split

theorem State.detachTenant_held {s0 : State} (t : Tree) (n : Nat) {s : State} (h : Held s0 s) :
    Held s0 (State.detachTenant t n s) := by
  unfold State.detachTenant
  repeat' first
    | with_reducible assumption | intro _ | with_reducible apply Held.ite
    | with_reducible apply State.clearTenantKeys_held | with_reducible apply State.dropTenantMerge_held
    | with_reducible apply State.putEntry_held | with_reducible apply State.releaseAlloc_held
    | with_reducible apply State.setFld_held | with_reducible apply Held.foldl | split

theorem State.modActs_held {s0 : State} (t : Tree) (f : ActSt → ActSt) {s : State} (h : Held s0 s) :
    Held s0 (State.modActs t f s) := by
  unfold State.modActs
  repeat' first | with_reducible exact h | with_reducible apply State.modAct_held

theorem State.dropMgmtKeys_held {s0 : State} (t : Tree) {s : State} (h : Held s0 s) :
    Held s0 (State.dropMgmtKeys t s) := by
  unfold State.dropMgmtKeys
  repeat' first
    | with_reducible assumption | intro _ | with_reducible apply Held.ite | with_reducible apply State.modActs_held
    | with_reducible apply State.putMgmtKey_held | with_reducible apply Held.foldl | split

theorem State.putClaim_held {s0 : State} (t : Tree) (epoch : Nat) (he : Nat) {s : State} (h : Held s0 s) :
    Held s0 (State.putClaim t epoch he s) := by
  unfold State.putClaim
  repeat' first
    | with_reducible exact h | with_reducible apply State.putReg_held | with_reducible apply State.setFld_held

theorem State.modFront_held {s0 : State} (t : Tree) (f : FrontSt → FrontSt) {s : State} (h : Held s0 s) :
    Held s0 (State.modFront t f s) := by
  unfold State.modFront
  repeat' first
    | with_reducible exact h | with_reducible apply State.modTime_held | with_reducible apply State.setFld_held

theorem State.frontForget_held {s0 : State} (t : Tree) {s : State} (h : Held s0 s) :
    Held s0 (State.frontForget t s) := by
  unfold State.frontForget
  repeat' first | with_reducible exact h | with_reducible apply State.modFront_held

theorem State.carryJudge_held {s0 : State} (t : Tree) {s : State} (h : Held s0 s) :
    Held s0 (State.carryJudge t s) := by
  unfold State.carryJudge
  repeat' first
    | with_reducible exact h | with_reducible apply State.iff_held | with_reducible apply State.raise_held
    | with_reducible apply State.setFld_held

theorem State.conflictJudge_held {s0 : State} {s : State} (h : Held s0 s) :
    Held s0 (State.conflictJudge s) := by
  unfold State.conflictJudge
  repeat' first
    | with_reducible assumption | intro _ | with_reducible apply Held.ite | with_reducible apply State.count_held
    | with_reducible apply State.iff_held | with_reducible apply State.modDual_held
    | with_reducible apply State.raise_held | with_reducible apply State.setFld_held

theorem State.setSel_held {s0 : State} (t : Tree) {s : State} (h : Held s0 s) :
    Held s0 (State.setSel t s) := by
  unfold State.setSel
  repeat' first
    | with_reducible assumption | intro _ | with_reducible apply Held.ite | with_reducible apply State.count_held
    | with_reducible apply State.raise_held | with_reducible apply State.setFld_held

theorem State.selJudge_held {s0 : State} (now : Bool) {s : State} (h : Held s0 s) :
    Held s0 (State.selJudge now s) := by
  unfold State.selJudge
  repeat' first
    | with_reducible assumption | intro _ | with_reducible apply Held.ite | with_reducible apply State.setSel_held

theorem State.dualJudge_held {s0 : State} {s : State} (h : Held s0 s) :
    Held s0 (State.dualJudge s) := by
  unfold State.dualJudge
  repeat' first
    | with_reducible exact h | with_reducible apply State.carryJudge_held
    | with_reducible apply State.conflictJudge_held | with_reducible apply State.iff_held
    | with_reducible apply State.raise_held | with_reducible apply State.selJudge_held
    | with_reducible apply State.setFld_held | with_reducible apply State.timeJudge_held

theorem State.showControl_held {s0 : State} (t : Tree) {s : State} (h : Held s0 s) :
    Held s0 (State.showControl t s) := by
  unfold State.showControl
  repeat' first | with_reducible exact h | with_reducible apply State.setFld_held

theorem State.forget_held {s0 : State} (t : Tree) {s : State} (h : Held s0 s) :
    Held s0 (State.forget t s) := by
  unfold State.forget
  repeat' first
    | with_reducible assumption | intro _ | with_reducible apply Held.ite
    | with_reducible apply State.clearTreeKeys_held | with_reducible apply State.detachTenant_held
    | with_reducible apply State.dropMgmtKeys_held | with_reducible apply State.dualJudge_held
    | with_reducible apply State.frontForget_held | with_reducible apply State.halRetime_held
    | with_reducible apply State.modActs_held | with_reducible apply State.putClaim_held
    | with_reducible apply State.raise_held | with_reducible apply State.releaseAlloc_held
    | with_reducible apply State.setFld_held | with_reducible apply State.setRecord_held
    | with_reducible apply State.showControl_held | with_reducible apply Held.foldl | split

theorem State.darkEntry_held {s0 : State} (keep : Bool) (t : Tree) {s : State} (h : Held s0 s) :
    Held s0 (State.darkEntry keep t s) := by
  unfold State.darkEntry
  repeat' first
    | with_reducible assumption | intro _ | with_reducible apply Held.ite | with_reducible apply State.count_held
    | with_reducible apply State.forget_held | with_reducible apply State.raise_held
    | with_reducible apply State.setFld_held | with_reducible apply State.setRecord_held

theorem State.modRxs_held {s0 : State} (r : Rx) (f : RxSt → RxSt) {s : State} (h : Held s0 s) :
    Held s0 (State.modRxs r f s) := by
  unfold State.modRxs
  repeat' first | with_reducible exact h | with_reducible apply State.modRx_held

theorem State.clearFom_held {s0 : State} (r : Rx) {s : State} (h : Held s0 s) :
    Held s0 (State.clearFom r s) := by
  unfold State.clearFom
  repeat' first | with_reducible exact h | with_reducible apply State.setFld_held

theorem State.startAcq_held {s0 : State} (r : Rx) {s : State} (h : Held s0 s) :
    Held s0 (State.startAcq r s) := by
  unfold State.startAcq
  repeat' first
    | with_reducible exact h | with_reducible apply State.clearFom_held | with_reducible apply State.count_held
    | with_reducible apply State.modRxs_held | with_reducible apply State.setFld_held

theorem State.rxBegin_held {s0 : State} (r : Rx) {s : State} (h : Held s0 s) :
    Held s0 (State.rxBegin r s) := by
  unfold State.rxBegin
  repeat' first
    | with_reducible assumption | intro _ | with_reducible apply Held.ite | with_reducible apply State.iff_held
    | with_reducible apply State.raise_held | with_reducible apply State.setFld_held
    | with_reducible apply State.startAcq_held

theorem State.clearSdSf_held {s0 : State} (r : Rx) {s : State} (h : Held s0 s) :
    Held s0 (State.clearSdSf r s) := by
  unfold State.clearSdSf
  repeat' first
    | with_reducible exact h | with_reducible apply State.iff_held | with_reducible apply State.modFrms_held
    | with_reducible apply State.raise_held | with_reducible apply State.setFld_held

theorem State.lofDeclare_held {s0 : State} (r : Rx) {s : State} (h : Held s0 s) :
    Held s0 (State.lofDeclare r s) := by
  unfold State.lofDeclare
  repeat' first
    | with_reducible assumption | intro _ | with_reducible apply Held.ite | with_reducible apply State.clearSdSf_held
    | with_reducible apply State.modFrms_held | with_reducible apply State.raise_held
    | with_reducible apply State.setFld_held

theorem State.sendMark_held {s0 : State} (r : Rx) {s : State} (h : Held s0 s) :
    Held s0 (State.sendMark r s) := by
  unfold State.sendMark
  repeat' first | with_reducible exact h | with_reducible apply State.modDual_held

theorem State.fragIdle_held {s0 : State} (r : Rx) {s : State} (h : Held s0 s) :
    Held s0 (State.fragIdle r s) := by
  unfold State.fragIdle
  repeat' first
    | with_reducible exact h | with_reducible apply State.modFrms_held | with_reducible apply State.setFld_held

theorem State.fragHunt_held {s0 : State} (r : Rx) {s : State} (h : Held s0 s) :
    Held s0 (State.fragHunt r s) := by
  unfold State.fragHunt
  repeat' first
    | with_reducible assumption | intro _ | with_reducible apply State.count_held
    | with_reducible apply State.fragIdle_held | with_reducible apply State.iff_held
    | with_reducible apply State.raise_held | with_reducible apply State.sendMark_held

theorem State.hdrHunt_held {s0 : State} (r : Rx) {s : State} (h : Held s0 s) :
    Held s0 (State.hdrHunt r s) := by
  unfold State.hdrHunt
  repeat' first
    | with_reducible exact h | with_reducible apply State.fragHunt_held | with_reducible apply State.iff_held
    | with_reducible apply State.lofDeclare_held | with_reducible apply State.modFrms_held
    | with_reducible apply State.raise_held | with_reducible apply State.setFld_held

theorem State.alignHunt_held {s0 : State} (r : Rx) {s : State} (h : Held s0 s) :
    Held s0 (State.alignHunt r s) := by
  unfold State.alignHunt
  repeat' first
    | with_reducible exact h | with_reducible apply State.hdrHunt_held | with_reducible apply State.iff_held
    | with_reducible apply State.lofDeclare_held | with_reducible apply State.modFrms_held
    | with_reducible apply State.raise_held | with_reducible apply State.setFld_held

theorem State.losDeclare_held {s0 : State} (r : Rx) {s : State} (h : Held s0 s) :
    Held s0 (State.losDeclare r s) := by
  unfold State.losDeclare
  repeat' first
    | with_reducible assumption | intro _ | with_reducible apply Held.ite | with_reducible apply State.clearSdSf_held
    | with_reducible apply State.modFrms_held | with_reducible apply State.raise_held
    | with_reducible apply State.setFld_held

theorem State.frmUnlocked_held {s0 : State} (r : Rx) {s : State} (h : Held s0 s) :
    Held s0 (State.frmUnlocked r s) := by
  unfold State.frmUnlocked
  repeat' first
    | with_reducible assumption | intro _ | with_reducible apply Held.ite | with_reducible apply State.alignHunt_held
    | with_reducible apply State.losDeclare_held

theorem State.rxStopFigures_held {s0 : State} (r : Rx) {s : State} (h : Held s0 s) :
    Held s0 (State.rxStopFigures r s) := by
  unfold State.rxStopFigures
  repeat' first
    | with_reducible exact h | with_reducible apply State.clearFom_held | with_reducible apply State.modRxs_held
    | with_reducible apply State.setFld_held

theorem State.holdJudge_held {s0 : State} (t : Tree) (old : Option Rx) {s : State} (h : Held s0 s) :
    Held s0 (State.holdJudge t old s) := by
  unfold State.holdJudge
  repeat' first
    | with_reducible assumption | intro _ | with_reducible apply Held.ite
    | with_reducible apply State.frmUnlocked_held | with_reducible apply State.iff_held
    | with_reducible apply State.raise_held | with_reducible apply State.rxBegin_held
    | with_reducible apply State.rxStopFigures_held | with_reducible apply Held.foldl | split

theorem State.modeCore_held {s0 : State} (keep : Bool) (t : Tree) (m : Nat) {s : State} (h : Held s0 s) :
    Held s0 (State.modeCore keep t m s) := by
  unfold State.modeCore
  repeat' first
    | with_reducible assumption | intro _ | with_reducible apply Held.ite
    | with_reducible apply State.closeWindow_held | with_reducible apply State.count_held
    | with_reducible apply State.darkEntry_held | with_reducible apply State.dualJudge_held
    | with_reducible apply State.forget_held | with_reducible apply State.holdJudge_held
    | with_reducible apply State.iff_held | with_reducible apply State.modActs_held
    | with_reducible apply State.raise_held | with_reducible apply State.refreshPolicy_held
    | with_reducible apply State.refreshPorts_held | with_reducible apply State.setFld_held
    | with_reducible apply State.setNeed_held | with_reducible apply State.showControl_held

theorem State.darkKeep_held {s0 : State} (t : Tree) {s : State} (h : Held s0 s) :
    Held s0 (State.darkKeep t s) := by
  unfold State.darkKeep
  repeat' first
    | with_reducible assumption | intro _ | with_reducible apply Held.ite | with_reducible apply State.modeCore_held

theorem State.freeze_held {s0 : State} (t : Tree) {s : State} (h : Held s0 s) :
    Held s0 (State.freeze t s) := by
  unfold State.freeze
  repeat' first
    | with_reducible exact h | with_reducible apply State.clockForce_held | with_reducible apply State.count_held
    | with_reducible apply State.darkKeep_held | with_reducible apply State.raise_held
    | with_reducible apply State.setFld_held

theorem State.halRelease_held {s0 : State} (t : Tree) {s : State} (h : Held s0 s) :
    Held s0 (State.halRelease t s) := by
  unfold State.halRelease
  repeat' first
    | with_reducible exact h | with_reducible apply State.modHals_held | with_reducible apply State.setFld_held

theorem State.halHeaderFail_held {s0 : State} (t : Tree) {s : State} (h : Held s0 s) :
    Held s0 (State.halHeaderFail t s) := by
  unfold State.halHeaderFail
  repeat' first
    | with_reducible assumption | intro _ | with_reducible apply Held.ite | with_reducible apply State.count_held
    | with_reducible apply State.halRelease_held

theorem State.halSync_held {s0 : State} (t : Tree) (on : Bool) {s : State} (h : Held s0 s) :
    Held s0 (State.halSync t on s) := by
  unfold State.halSync
  repeat' first
    | with_reducible assumption | intro _ | with_reducible apply Held.ite | with_reducible apply State.raise_held
    | with_reducible apply State.setFld_held

theorem State.halInactive_held {s0 : State} (t : Tree) {s : State} (h : Held s0 s) :
    Held s0 (State.halInactive t s) := by
  unfold State.halInactive
  repeat' first
    | with_reducible assumption | intro _ | with_reducible apply Held.ite | with_reducible apply State.halDone_held
    | with_reducible apply State.halHeaderFail_held | with_reducible apply State.halRelease_held
    | with_reducible apply State.halSync_held | with_reducible apply State.setFld_held
    | with_reducible apply Held.foldl | split

theorem State.halJudge_held {s0 : State} (t : Tree) {s : State} (h : Held s0 s) :
    Held s0 (State.halJudge t s) := by
  unfold State.halJudge
  repeat' first
    | with_reducible assumption | intro _ | with_reducible apply Held.ite
    | with_reducible apply State.halInactive_held | with_reducible apply State.setFld_held
    | with_reducible apply Held.foldl | split

theorem State.framersMoved_held {s0 : State} (t : Tree) {s : State} (h : Held s0 s) :
    Held s0 (State.framersMoved t s) := by
  unfold State.framersMoved
  repeat' first
    | with_reducible exact h | with_reducible apply State.dualJudge_held | with_reducible apply State.halJudge_held
    | with_reducible apply State.showControl_held

theorem State.frmRestart_held {s0 : State} (r : Rx) {s : State} (h : Held s0 s) :
    Held s0 (State.frmRestart r s) := by
  unfold State.frmRestart
  repeat' first
    | with_reducible assumption | intro _ | with_reducible apply Held.ite | with_reducible apply State.alignHunt_held
    | with_reducible apply State.iff_held | with_reducible apply State.losDeclare_held

theorem State.suppressPassed_held {s0 : State} (t : Tree) {s : State} (h : Held s0 s) :
    Held s0 (State.suppressPassed t s) := by
  unfold State.suppressPassed
  repeat' first
    | with_reducible assumption | intro _ | with_reducible apply Held.ite
    | with_reducible apply State.suppressLate_held | with_reducible apply Held.foldl | split

theorem State.unfreeze_held {s0 : State} (t : Tree) {s : State} (h : Held s0 s) :
    Held s0 (State.unfreeze t s) := by
  unfold State.unfreeze
  repeat' first
    | with_reducible exact h | with_reducible apply State.framersMoved_held
    | with_reducible apply State.frmRestart_held | with_reducible apply State.refreshPolicy_held
    | with_reducible apply State.setFld_held | with_reducible apply State.showForce_held
    | with_reducible apply State.suppressPassed_held

theorem State.freezeJudge_held {s0 : State} (t : Tree) {s : State} (h : Held s0 s) :
    Held s0 (State.freezeJudge t s) := by
  unfold State.freezeJudge
  repeat' first
    | with_reducible assumption | intro _ | with_reducible apply Held.ite | with_reducible apply State.freeze_held
    | with_reducible apply State.unfreeze_held

theorem State.linkPmJudge_held {s0 : State} {s : State} (h : Held s0 s) :
    Held s0 (State.linkPmJudge s) := by
  unfold State.linkPmJudge
  repeat' first
    | with_reducible exact h | with_reducible apply State.iff_held | with_reducible apply State.setFld_held

theorem State.clkJudgeWith_held {s0 : State} (expired : Option Nat) {s : State} (h : Held s0 s) :
    Held s0 (State.clkJudgeWith expired s) := by
  unfold State.clkJudgeWith
  repeat' first
    | with_reducible exact h | with_reducible apply State.forceLost_held | with_reducible apply State.foutJudge_held
    | with_reducible apply State.freezeJudge_held | with_reducible apply State.iff_held
    | with_reducible apply State.linkPmJudge_held | with_reducible apply State.movePartClk_held
    | with_reducible apply State.moveTreeClk_held | with_reducible apply State.refreshPolicy_held
    | with_reducible apply State.txClockBack_held

theorem State.clkJudge_held {s0 : State} {s : State} (h : Held s0 s) :
    Held s0 (State.clkJudge s) := by
  unfold State.clkJudge
  repeat' first | with_reducible exact h | with_reducible apply State.clkJudgeWith_held

theorem State.showNotice_held {s0 : State} (t : Tree) {s : State} (h : Held s0 s) :
    Held s0 (State.showNotice t s) := by
  unfold State.showNotice
  repeat' first
    | with_reducible assumption | intro _ | with_reducible apply Held.ite | with_reducible apply State.setFld_held
    | with_reducible apply Held.foldl | split

theorem State.modNotice_held {s0 : State} (t : Tree) (id : Nat) (f : Notice → Notice) {s : State} (h : Held s0 s) :
    Held s0 (State.modNotice t id f s) := by
  unfold State.modNotice
  repeat' first
    | with_reducible exact h | with_reducible apply State.modActs_held | with_reducible apply State.showNotice_held

theorem State.ackNotice_held {s0 : State} (t : Tree) (id : Nat) {s : State} (h : Held s0 s) :
    Held s0 (State.ackNotice t id s) := by
  unfold State.ackNotice
  repeat' first
    | with_reducible assumption | intro _ | with_reducible apply Held.ite | with_reducible apply State.modNotice_held
    | with_reducible apply State.raise_held

theorem State.laneFix_held {s0 : State} (r : Rx) (order : Nat) (signs : Nat) {s : State} (h : Held s0 s) :
    Held s0 (State.laneFix r order signs s) := by
  unfold State.laneFix
  repeat' first
    | with_reducible assumption | intro _ | with_reducible apply Held.ite | with_reducible apply State.iff_held
    | with_reducible apply State.modRxs_held | with_reducible apply State.raise_held
    | with_reducible apply State.setFld_held

theorem State.setClkGood_held {s0 : State} (k : Nat) (on : Bool) {s : State} (h : Held s0 s) :
    Held s0 (State.setClkGood k on s) := by
  unfold State.setClkGood
  repeat' first
    | with_reducible assumption | intro _ | with_reducible apply State.iff_held
    | with_reducible apply State.modClk_held | with_reducible apply State.setFld_held
    | with_reducible apply State.setTf_held

theorem State.clkLose_held {s0 : State} (k : Nat) {s : State} (h : Held s0 s) :
    Held s0 (State.clkLose k s) := by
  unfold State.clkLose
  repeat' first
    | with_reducible assumption | intro _ | with_reducible apply Held.ite | with_reducible apply State.clkJudge_held
    | with_reducible apply State.count_held | with_reducible apply State.setClkGood_held
    | with_reducible apply State.setTf_held

theorem State.clkFollow_held {s0 : State} {s : State} (h : Held s0 s) :
    Held s0 (State.clkFollow s) := by
  unfold State.clkFollow
  repeat' first
    | with_reducible assumption | intro _ | with_reducible apply Held.ite | with_reducible apply State.clkJudge_held
    | with_reducible apply State.clkLose_held | with_reducible apply State.iff_held | with_reducible apply Held.foldl
    | split

theorem State.modeStep_held {s0 : State} (t : Tree) (m : Nat) {s : State} (h : Held s0 s) :
    Held s0 (State.modeStep t m s) := by
  unfold State.modeStep
  repeat' first
    | with_reducible assumption | intro _ | with_reducible apply Held.ite | with_reducible apply State.clkFollow_held
    | with_reducible apply State.modeCore_held

theorem State.noteHalLevel_held {s0 : State} (t : Tree) {s : State} (h : Held s0 s) :
    Held s0 (State.noteHalLevel t s) := by
  unfold State.noteHalLevel
  repeat' first | with_reducible exact h | with_reducible apply State.modHals_held

theorem State.noteLaunch_held {s0 : State} (t : Tree) {s : State} (h : Held s0 s) :
    Held s0 (State.noteLaunch t s) := by
  unfold State.noteLaunch
  repeat' first | with_reducible exact h | with_reducible apply State.modTxs_held

theorem State.setTrim_held {s0 : State} (t : Tree) (v : Int) {s : State} (h : Held s0 s) :
    Held s0 (State.setTrim t v s) := by
  unfold State.setTrim
  repeat' first
    | with_reducible exact h | with_reducible apply State.modTxs_held | with_reducible apply State.noteHalLevel_held
    | with_reducible apply State.noteLaunch_held | with_reducible apply State.setSFld_held

theorem State.setMode_held {s0 : State} (t : Tree) (m : Nat) {s : State} (h : Held s0 s) :
    Held s0 (State.setMode t m s) := by
  unfold State.setMode
  repeat' first
    | with_reducible assumption | intro _ | with_reducible apply Held.ite | with_reducible apply State.modeStep_held
    | with_reducible apply State.setTrim_held | with_reducible apply Held.foldl | split

theorem State.recordQuarantine_held {s0 : State} (t : Tree) {s : State} (h : Held s0 s) :
    Held s0 (State.recordQuarantine t s) := by
  unfold State.recordQuarantine
  repeat' first | with_reducible exact h | with_reducible apply State.putTw_held

theorem State.clearRogue_held {s0 : State} (t : Tree) {s : State} (h : Held s0 s) :
    Held s0 (State.clearRogue t s) := by
  unfold State.clearRogue
  repeat' first
    | with_reducible exact h | with_reducible apply State.modTxs_held | with_reducible apply State.refreshPolicy_held
    | with_reducible apply State.setFld_held | with_reducible apply State.showForce_held

theorem State.leaveQuarantine_held {s0 : State} (t : Tree) {s : State} (h : Held s0 s) :
    Held s0 (State.leaveQuarantine t s) := by
  unfold State.leaveQuarantine
  repeat' first
    | with_reducible exact h | with_reducible apply State.clearRogue_held | with_reducible apply State.forget_held
    | with_reducible apply State.putTw_held | with_reducible apply State.setFld_held
    | with_reducible apply State.setMode_held

theorem State.betweenBursts_held {s0 : State} (t : Tree) {s : State} (h : Held s0 s) :
    Held s0 (State.betweenBursts t s) := by
  unfold State.betweenBursts
  repeat' first
    | with_reducible assumption | intro _ | with_reducible apply Held.ite | with_reducible apply State.laneIdle_held
    | with_reducible apply State.tune_held | with_reducible apply Held.foldl | split

theorem State.reportFreq_held {s0 : State} (t : Tree) (bytes : Nat) {s : State} (h : Held s0 s) :
    Held s0 (State.reportFreq t bytes s) := by
  unfold State.reportFreq
  repeat' first
    | with_reducible exact h | with_reducible apply State.modTxs_held | with_reducible apply State.putReg_held

theorem State.setEqdPending_held {s0 : State} (t : Tree) (eqd : Nat) (apply : Nat) (carried : Nat) {s : State} (h :
    Held s0 s) :
       Held s0 (State.setEqdPending t eqd apply carried s) := by
  unfold State.setEqdPending
  repeat' first
    | with_reducible exact h | with_reducible apply State.halRetime_held | with_reducible apply State.modActs_held
    | with_reducible apply State.setFld_held

theorem State.growFrame_held {s0 : State} (id : Nat) (n : Nat) {s : State} (h : Held s0 s) :
    Held s0 (State.growFrame id n s) := by
  unfold State.growFrame
  repeat' first
    | with_reducible assumption | intro _ | with_reducible apply Held.ite | with_reducible apply State.drawCells_held
    | with_reducible apply State.iff_held | with_reducible apply State.pfcFor_held
    | with_reducible apply State.putFrame_held | with_reducible apply State.returnCells_held
    | with_reducible apply Held.foldl | split

theorem State.dropEmpty_held {s0 : State} (id : Nat) {s : State} (h : Held s0 s) :
    Held s0 (State.dropEmpty id s) := by
  unfold State.dropEmpty
  repeat' first
    | with_reducible assumption | intro _ | with_reducible apply Held.ite | with_reducible apply State.freeFrame_held
    | with_reducible apply Held.foldl | split

theorem State.joinCopy_held {s0 : State} {s : State} (c : Copy) (h : Held s0 s) :
    Held s0 (State.joinCopy s c) := by
  unfold State.joinCopy
  repeat' first
    | with_reducible assumption | intro _ | with_reducible apply Held.ite | with_reducible apply State.appendCopy_held
    | with_reducible apply State.count_held | with_reducible apply State.endCopy_held
    | with_reducible apply State.joinDown_held | with_reducible apply State.joinShared_held
    | with_reducible apply State.modSto_held | with_reducible apply State.setQueueBytes_held
    | with_reducible apply State.showQueue_held

theorem State.stampCopies_held {s0 : State} (id : Nat) {s : State} (h : Held s0 s) :
    Held s0 (State.stampCopies id s) := by
  unfold State.stampCopies
  repeat' first | with_reducible exact h | with_reducible apply State.modSto_held

theorem State.endFrame_held {s0 : State} (id : Nat) (err : Bool) (poolEmpty : Bool) {s : State} (h : Held s0 s) :
    Held s0 (State.endFrame id err poolEmpty s) := by
  unfold State.endFrame
  repeat' first
    | with_reducible assumption | intro _ | with_reducible apply Held.ite | with_reducible apply State.dropEmpty_held
    | with_reducible apply State.dropFrameCopies_held | with_reducible apply State.growFrame_held
    | with_reducible apply State.iff_held | with_reducible apply State.joinCopy_held
    | with_reducible apply State.modFrame_held | with_reducible apply State.stampCopies_held
    | with_reducible apply Held.foldl | split

theorem State.forgetAct_held {s0 : State} (id : Nat) {s : State} (h : Held s0 s) :
    Held s0 (State.forgetAct id s) := by
  unfold State.forgetAct
  repeat' first | with_reducible exact h | with_reducible apply State.modCls_held

theorem State.wredAverage_held {s0 : State} (f : Frame) (q : Nat) {s : State} (h : Held s0 s) :
    Held s0 (State.wredAverage f q s) := by
  unfold State.wredAverage
  repeat' first | with_reducible exact h | with_reducible apply State.putTw_held

theorem State.wred_held {s0 : State} (f : Frame) (q : Nat) (colour : Nat) {s : State} (h : Held s0 s) :
    Held s0 (State.wred f q colour s).1 := by
  unfold State.wred
  repeat' first
    | with_reducible assumption | intro _ | with_reducible apply Held.ite | with_reducible apply Held.ite_fst
    | with_reducible apply State.raise_held | with_reducible apply State.useFree_held

theorem State.holdCopy_held {s0 : State} (id : Nat) (c : Copy) {s : State} (h : Held s0 s) :
    Held s0 (State.holdCopy id c s) := by
  unfold State.holdCopy
  repeat' first
    | with_reducible exact h | with_reducible apply State.modFrame_held
    | with_reducible apply State.setQueueBytes_held | with_reducible apply State.takeRef_held

theorem State.admitUp_held {s0 : State} (id : Nat) (c : Copy) {s : State} (h : Held s0 s) :
    Held s0 (State.admitUp id c s) := by
  unfold State.admitUp
  repeat' first
    | with_reducible assumption | intro _ | with_reducible apply Held.ite | with_reducible apply State.count_held
    | with_reducible apply State.holdCopy_held | with_reducible apply State.iff_held
    | with_reducible apply State.setTf_held | with_reducible apply Held.foldl | split

theorem State.decideCopy_held {s0 : State} (id : Nat) (c : Classified) {s : State} (d : CopyDest) (h : Held s0 s) :
    Held s0 (State.decideCopy id c s d) := by
  unfold State.decideCopy
  repeat' first
    | with_reducible assumption | intro _ | with_reducible apply Held.ite | with_reducible apply State.admitUp_held
    | with_reducible apply State.count_held | with_reducible apply State.countBy_held
    | with_reducible apply State.holdCopy_held | with_reducible apply State.joinDown_held
    | with_reducible apply State.raiseMs_held | with_reducible apply State.setQueueBytes_held
    | with_reducible apply State.takeRef_held | with_reducible apply State.wred_held
    | with_reducible apply State.wredAverage_held | with_reducible apply Held.foldl | split

theorem State.offerSample_held {s0 : State} (id : Nat) (c : Classified) {s : State} (h : Held s0 s) :
    Held s0 (State.offerSample id c s) := by
  unfold State.offerSample
  repeat' first
    | with_reducible assumption | intro _ | with_reducible apply Held.ite | with_reducible apply State.count_held
    | with_reducible apply State.holdCopy_held | with_reducible apply State.modSto_held
    | with_reducible apply State.putTw_held | with_reducible apply State.raiseMs_held
    | with_reducible apply Held.foldl | split

theorem State.decideFrame_held {s0 : State} (id : Nat) (c : Classified) {s : State} (h : Held s0 s) :
    Held s0 (State.decideFrame id c s) := by
  unfold State.decideFrame
  repeat' first
    | with_reducible assumption | intro _ | with_reducible apply Held.ite | with_reducible apply State.count_held
    | with_reducible apply State.decideCopy_held | with_reducible apply State.dropEmpty_held
    | with_reducible apply State.iff_held | with_reducible apply State.modFrame_held
    | with_reducible apply State.offerSample_held | with_reducible apply Held.foldl | split

theorem State.decideNow_held {s0 : State} (id : Nat) {s : State} (h : Held s0 s) :
    Held s0 (State.decideNow id s) := by
  unfold State.decideNow
  repeat' first
    | with_reducible assumption | intro _ | with_reducible apply Held.ite
    | with_reducible apply State.decideFrame_held | with_reducible apply State.forgetAct_held
    | with_reducible apply State.freeFrame_held | with_reducible apply Held.foldl | split

theorem State.admitEnd_held {s0 : State} (id : Nat) (err : Bool) (poolEmpty : Bool) {s : State} (h : Held s0 s) :
    Held s0 (State.admitEnd id err poolEmpty s) := by
  unfold State.admitEnd
  repeat' first
    | with_reducible assumption | intro _ | with_reducible apply Held.ite | with_reducible apply State.decideNow_held
    | with_reducible apply State.endFrame_held | with_reducible apply State.modFrame_held
    | with_reducible apply State.modUni_held | with_reducible apply Held.foldl | split

theorem State.forgetCells_held {s0 : State} (id : Nat) {s : State} (h : Held s0 s) :
    Held s0 (State.forgetCells id s) := by
  unfold State.forgetCells
  repeat' first | with_reducible exact h | with_reducible apply State.modSto_held

theorem State.admitStart_held {s0 : State} (a : AdmitReq) (prio : Nat) {s : State} (h : Held s0 s) :
    Held s0 (State.admitStart a prio s).1 := by
  unfold State.admitStart
  repeat' first
    | with_reducible assumption | intro _ | with_reducible apply Held.ite | with_reducible apply Held.ite_fst
    | with_reducible apply State.count_held | with_reducible apply State.forgetCells_held
    | with_reducible apply State.growFrame_held | with_reducible apply State.iff_held
    | with_reducible apply State.modSto_held | with_reducible apply State.putFrame_held
    | with_reducible apply State.returnCells_held

theorem State.alignStep_held {s0 : State} (r : Rx) (w : Nat) {s : State} (h : Held s0 s) :
    Held s0 (State.alignStep r w s) := by
  unfold State.alignStep
  repeat' first
    | with_reducible assumption | intro _ | with_reducible apply Held.ite | with_reducible apply State.alignHunt_held
    | with_reducible apply State.modFrms_held | with_reducible apply State.raise_held
    | with_reducible apply State.setFld_held | with_reducible apply Held.foldl | split

theorem State.applyEqd_held {s0 : State} (t : Tree) {s : State} (h : Held s0 s) :
    Held s0 (State.applyEqd t s) := by
  unfold State.applyEqd
  repeat' first
    | with_reducible exact h | with_reducible apply State.count_held | with_reducible apply State.iff_held
    | with_reducible apply State.modActs_held | with_reducible apply State.raise_held
    | with_reducible apply State.setFld_held | with_reducible apply State.setMode_held
    | with_reducible apply State.setRecord_held

theorem State.applyLaunch_held {s0 : State} (t : Tree) (w : Word) (t0 : Nat) {s : State} (h : Held s0 s) :
    Held s0 (State.applyLaunch t w t0 s) := by
  unfold State.applyLaunch
  repeat' first
    | with_reducible exact h | with_reducible apply State.iff_held | with_reducible apply State.raise_held
    | with_reducible apply State.setFld_held | with_reducible apply State.setSFld_held

theorem State.applyMaxIter_held {s0 : State} (r : Rx) {s : State} (h : Held s0 s) :
    Held s0 (State.applyMaxIter r s) := by
  unfold State.applyMaxIter
  repeat' first
    | with_reducible exact h | with_reducible apply State.modRxs_held | with_reducible apply State.setFld_held

theorem State.enterDark_held {s0 : State} (t : Tree) {s : State} (h : Held s0 s) :
    Held s0 (State.enterDark t s) := by
  unfold State.enterDark
  repeat' first
    | with_reducible assumption | intro _ | with_reducible apply Held.ite | with_reducible apply State.setMode_held

theorem State.lineJudge_held {s0 : State} (t : Tree) {s : State} {s3 : State} (h : Held s0 s) (h3 : Held s0 s3) :
    Held s0 (State.lineJudge t s s3) := by
  unfold State.lineJudge
  repeat' first
    | with_reducible assumption | intro _ | with_reducible apply State.breakTrim_held
    | with_reducible apply State.clkJudge_held | with_reducible apply State.dualJudge_held
    | with_reducible apply State.enterDark_held | with_reducible apply State.halJudge_held
    | with_reducible apply State.iff_held | with_reducible apply State.showControl_held

theorem State.lineDo_held {s0 : State} (r : Rx) {f : State → State} {s : State} (h : Held s0 s) (h2 : ∀ y0, Held s0
    y0 → Held s0 (f y0)) :
       Held s0 (State.lineDo r f s) := by
  unfold State.lineDo
  repeat' first | with_reducible exact h | with_reducible apply State.lineJudge_held | with_reducible apply h2

theorem State.frmStop_held {s0 : State} (r : Rx) {s : State} (h : Held s0 s) :
    Held s0 (State.frmStop r s) := by
  unfold State.frmStop
  repeat' first
    | with_reducible exact h | with_reducible apply State.alignHunt_held | with_reducible apply State.iff_held
    | with_reducible apply State.modFrms_held | with_reducible apply State.putReg_held
    | with_reducible apply State.sendMark_held

theorem State.halCancelAll_held {s0 : State} (t : Tree) {s : State} (h : Held s0 s) :
    Held s0 (State.halCancelAll t s) := by
  unfold State.halCancelAll
  repeat' first
    | with_reducible assumption | intro _ | with_reducible apply Held.ite | with_reducible apply State.halDone_held
    | with_reducible apply Held.foldl | split

theorem State.halStop_held {s0 : State} (t : Tree) {s : State} (h : Held s0 s) :
    Held s0 (State.halStop t s) := by
  unfold State.halStop
  repeat' first
    | with_reducible exact h | with_reducible apply State.halCancelAll_held
    | with_reducible apply State.halInactive_held | with_reducible apply State.halRefusePins_held

theorem State.enterDarkKeep_held {s0 : State} (t : Tree) {s : State} (h : Held s0 s) :
    Held s0 (State.enterDarkKeep t s) := by
  unfold State.enterDarkKeep
  repeat' first
    | with_reducible assumption | intro _ | with_reducible apply Held.ite | with_reducible apply State.clkFollow_held
    | with_reducible apply State.darkKeep_held | with_reducible apply State.refreshPolicy_held

theorem State.suppressWaiting_held {s0 : State} (t : Tree) {s : State} (h : Held s0 s) :
    Held s0 (State.suppressWaiting t s) := by
  unfold State.suppressWaiting
  repeat' first
    | with_reducible assumption | intro _ | with_reducible apply Held.ite | with_reducible apply State.count_held
    | with_reducible apply State.raiseMs_held | with_reducible apply State.removeGrant_held
    | with_reducible apply Held.foldl | split

theorem State.timeStop_held {s0 : State} {s : State} (h : Held s0 s) :
    Held s0 (State.timeStop s) := by
  unfold State.timeStop
  repeat' first
    | with_reducible exact h | with_reducible apply State.modTime_held | with_reducible apply State.setFld_held
    | with_reducible apply State.timeJudge_held

theorem State.putSram_held {s0 : State} (x1 : Nat) (x2 : Bytes) {s : State} (h : Held s0 s) :
    Held s0 (State.putSram x1 x2 s) := by
  induction x2 generalizing x1 s with
  | nil => exact h
  | cons x l ih =>
    unfold State.putSram
    repeat' first
      | with_reducible assumption | with_reducible apply ih | intro _ | with_reducible apply Held.ite
      | with_reducible apply State.modSram_held | with_reducible apply Held.foldl | split
      | (refine (?_ : Sparse.wf _ _ = true); assumption) | exact Sparse.wf_filter _ _ _ (by assumption)
      | exact Sparse.wf_put _ _ _ _ (by assumption) | (refine (?_ : _ < counterMod _); apply_assumption)
      | with_reducible apply Held.id | dsimp only

theorem State.clearParts_held {s0 : State} (k : Nat) {s : State} (h : Held s0 s) :
    Held s0 (State.clearParts k s) := by
  unfold State.clearParts
  repeat' first | with_reducible exact h | with_reducible apply State.modDual_held

theorem State.dropPlain_held {s0 : State} (k : Nat) {s : State} (h : Held s0 s) :
    Held s0 (State.dropPlain k s) := by
  unfold State.dropPlain
  repeat' first
    | with_reducible exact h | with_reducible apply State.clearParts_held
    | with_reducible apply State.returnCells_held

theorem State.freeLine_held {s0 : State} (f : LineFrag) {s : State} (h : Held s0 s) :
    Held s0 (State.freeLine f s) := by
  unfold State.freeLine
  repeat' first | with_reducible exact h | with_reducible apply State.returnCells_held

theorem State.dropPassed_held {s0 : State} (f : LineFrag) {s : State} (h : Held s0 s) :
    Held s0 (State.dropPassed f s) := by
  unfold State.dropPassed
  repeat' first
    | with_reducible exact h | with_reducible apply State.freeLine_held | with_reducible apply State.modDual_held

theorem State.dropContext_held {s0 : State} (k : Nat) {s : State} (h : Held s0 s) :
    Held s0 (State.dropContext k s) := by
  unfold State.dropContext
  repeat' first
    | with_reducible assumption | intro _ | with_reducible apply Held.ite | with_reducible apply State.dropPassed_held
    | with_reducible apply State.dropPlain_held | with_reducible apply Held.foldl | split

theorem State.setProgress_held {s0 : State} (k : Nat) (p : Option Nat) {s : State} (h : Held s0 s) :
    Held s0 (State.setProgress k p s) := by
  unfold State.setProgress
  repeat' first | with_reducible exact h | with_reducible apply State.modDual_held

theorem State.dropLine_held {s0 : State} (frag : Nat) (frame : Nat) {s : State} (h : Held s0 s) :
    Held s0 (State.dropLine frag frame s) := by
  unfold State.dropLine
  repeat' first
    | with_reducible assumption | intro _ | with_reducible apply Held.ite | with_reducible apply State.count_held
    | with_reducible apply State.dropContext_held | with_reducible apply State.freeLine_held
    | with_reducible apply State.modDual_held | with_reducible apply State.setProgress_held
    | with_reducible apply Held.foldl | split

theorem State.dropDual_held {s0 : State} {s : State} (h : Held s0 s) :
    Held s0 (State.dropDual s) := by
  unfold State.dropDual
  repeat' first | with_reducible exact h | with_reducible apply State.dropLine_held

theorem State.flushMerge_held {s0 : State} {s : State} (h : Held s0 s) :
    Held s0 (State.flushMerge s) := by
  unfold State.flushMerge
  repeat' first
    | with_reducible assumption | intro _ | with_reducible apply Held.ite | with_reducible apply State.dropMerge_held
    | with_reducible apply Held.foldl | split

theorem State.showKeystore_held {s0 : State} {s : State} (h : Held s0 s) :
    Held s0 (State.showKeystore s) := by
  unfold State.showKeystore
  repeat' first | with_reducible exact h | with_reducible apply State.setFld_held

theorem State.timeClearHost_held {s0 : State} {s : State} (h : Held s0 s) :
    Held s0 (State.timeClearHost s) := by
  unfold State.timeClearHost
  repeat' first
    | with_reducible exact h | with_reducible apply State.hostEnd_held | with_reducible apply State.timeJudge_held

theorem State.frmStart_held {s0 : State} (r : Rx) {s : State} (h : Held s0 s) :
    Held s0 (State.frmStart r s) := by
  unfold State.frmStart
  repeat' first
    | with_reducible exact h | with_reducible apply State.iff_held | with_reducible apply State.losDeclare_held
    | with_reducible apply State.modFrms_held | with_reducible apply State.raise_held

theorem State.txBegin_held {s0 : State} (t : Tree) {s : State} (h : Held s0 s) :
    Held s0 (State.txBegin t s) := by
  unfold State.txBegin
  repeat' first
    | with_reducible exact h | with_reducible apply State.iff_held | with_reducible apply State.raise_held
    | with_reducible apply State.refreshPolicy_held | with_reducible apply State.tune_held

theorem State.timeStart_held {s0 : State} {s : State} (h : Held s0 s) :
    Held s0 (State.timeStart s) := by
  unfold State.timeStart
  repeat' first
    | with_reducible exact h | with_reducible apply State.modTime_held | with_reducible apply State.timeJudge_held

theorem State.firmwareBack_held {s0 : State} (t : Tree) {s : State} (h : Held s0 s) :
    Held s0 (State.firmwareBack t s) := by
  unfold State.firmwareBack
  repeat' first
    | with_reducible assumption | intro _ | with_reducible apply State.iff_held
    | with_reducible apply State.modActs_held | with_reducible apply State.setMode_held

theorem State.halLevelRestored_held {s0 : State} (t : Tree) {s : State} (h : Held s0 s) :
    Held s0 (State.halLevelRestored t s) := by
  unfold State.halLevelRestored
  repeat' first | with_reducible exact h | with_reducible apply State.modHals_held

theorem State.launchRestored_held {s0 : State} (t : Tree) {s : State} (h : Held s0 s) :
    Held s0 (State.launchRestored t s) := by
  unfold State.launchRestored
  repeat' first | with_reducible exact h | with_reducible apply State.modTxs_held

theorem State.timeSetCmd_held {s0 : State} {s : State} (h : Held s0 s) :
    Held s0 (State.timeSetCmd s) := by
  unfold State.timeSetCmd
  repeat' first
    | with_reducible assumption | intro _ | with_reducible apply Held.ite | with_reducible apply State.ignored_held
    | with_reducible apply State.modTime_held | with_reducible apply Held.foldl | split

theorem State.halOffsetJudge_held {s0 : State} (t : Tree) (was : Bool) {s : State} (h : Held s0 s) :
    Held s0 (State.halOffsetJudge t was s) := by
  unfold State.halOffsetJudge
  repeat' first
    | with_reducible assumption | intro _ | with_reducible apply Held.ite
    | with_reducible apply State.halCancelAll_held | with_reducible apply State.halInactive_held
    | with_reducible apply State.halJudge_held | with_reducible apply State.iff_held
    | with_reducible apply State.raise_held

theorem State.halAbort_held {s0 : State} (t : Tree) (j : HalJob) {s : State} (h : Held s0 s) :
    Held s0 (State.halAbort t j s) := by
  unfold State.halAbort
  repeat' first
    | with_reducible assumption | intro _ | with_reducible apply Held.ite | with_reducible apply State.count_held
    | with_reducible apply State.halDone_held | with_reducible apply State.halUnpin_held
    | with_reducible apply State.iff_held | with_reducible apply State.modHalJob_held
    | with_reducible apply State.raise_held | with_reducible apply State.setFld_held

theorem State.halQueue_held {s0 : State} (t : Tree) (slot : Nat) (j : HalJob) {s : State} (h : Held s0 s) :
    Held s0 (State.halQueue t slot j s) := by
  unfold State.halQueue
  repeat' first
    | with_reducible exact h | with_reducible apply State.modHals_held | with_reducible apply State.setFld_held

theorem State.halSubmit_held {s0 : State} (t : Tree) (slot : Nat) {s : State} (h : Held s0 s) :
    Held s0 (State.halSubmit t slot s) := by
  unfold State.halSubmit
  repeat' first
    | with_reducible assumption | intro _ | with_reducible apply Held.ite | with_reducible apply State.halAbort_held
    | with_reducible apply State.halDone_held | with_reducible apply State.halQueue_held
    | with_reducible apply State.raise_held | with_reducible apply State.setFld_held
    | with_reducible apply State.useFree_held | with_reducible apply Held.foldl | split

theorem State.halCancel_held {s0 : State} (t : Tree) (slot : Nat) {s : State} (h : Held s0 s) :
    Held s0 (State.halCancel t slot s) := by
  unfold State.halCancel
  repeat' first
    | with_reducible assumption | intro _ | with_reducible apply Held.ite | with_reducible apply State.halDone_held
    | with_reducible apply Held.foldl | split

theorem State.putKstSlot_held {s0 : State} (n : Nat) (m : Sparse Word) {s : State} (h : Held s0 s) :
    Held s0 (State.putKstSlot n m s) := by
  unfold State.putKstSlot
  repeat' first | with_reducible exact h | with_reducible apply State.modKst_held

theorem State.kstCommit_held {s0 : State} {s : State} (h : Held s0 s) :
    Held s0 (State.kstCommit s) := by
  unfold State.kstCommit
  repeat' first
    | with_reducible assumption | intro _ | with_reducible apply Held.ite | with_reducible apply State.count_held
    | with_reducible apply State.ignored_held | with_reducible apply State.modKst_held
    | with_reducible apply State.putKstSlot_held | with_reducible apply State.setFld_held

theorem State.kstGenkey_held {s0 : State} {s : State} (h : Held s0 s) :
    Held s0 (State.kstGenkey s) := by
  unfold State.kstGenkey
  repeat' first
    | with_reducible assumption | intro _ | with_reducible apply Held.ite | with_reducible apply State.ignored_held
    | with_reducible apply State.modKst_held | with_reducible apply State.setFld_held

theorem State.bindAlloc_held {s0 : State} (t : Tree) (a : Nat) (id : Nat) (tenant : Nat) (services : Nat) (mgmt :
    Bool) {s : State} (h : Held s0 s) :
       Held s0 (State.bindAlloc t a id tenant services mgmt s) := by
  unfold State.bindAlloc
  repeat' first | with_reducible exact h | with_reducible apply State.putEntry_held

theorem State.attachTenant_held {s0 : State} (t : Tree) (n : Nat) (uid : Nat) (services : Nat) (lifeline : Bool) {s
    : State} (h : Held s0 s) :
       Held s0 (State.attachTenant t n uid services lifeline s) := by
  unfold State.attachTenant
  repeat' first
    | with_reducible exact h | with_reducible apply State.iff_held | with_reducible apply State.putEntry_held
    | with_reducible apply State.setFld_held

theorem State.showHeader_held {s0 : State} (r : Rx) (x2 : FrameHdr) {s : State} (h : Held s0 s) :
    Held s0 (State.showHeader r x2 s) := by
  unfold State.showHeader
  repeat' first
    | with_reducible exact h | with_reducible apply State.iff_held | with_reducible apply State.modFrms_held
    | with_reducible apply State.raise_held | with_reducible apply State.setFld_held

theorem State.frameFrag_held {s0 : State} (r : Rx) (x2 : FrameHdr) {s : State} (h : Held s0 s) :
    Held s0 (State.frameFrag r x2 s) := by
  unfold State.frameFrag
  repeat' first
    | with_reducible assumption | intro _ | with_reducible apply Held.ite | with_reducible apply State.fragIdle_held
    | with_reducible apply State.modFrms_held | with_reducible apply State.setFld_held
    | with_reducible apply Held.foldl | split

theorem State.beginFrame_held {s0 : State} (r : Rx) (x2 : FrameHdr) {s : State} (h : Held s0 s) :
    Held s0 (State.beginFrame r x2 s) := by
  unfold State.beginFrame
  repeat' first
    | with_reducible assumption | intro _ | with_reducible apply State.count_held
    | with_reducible apply State.frameFrag_held | with_reducible apply State.iff_held
    | with_reducible apply State.modFrms_held | with_reducible apply State.raiseMs_held
    | with_reducible apply State.showHeader_held

theorem State.dropParts_held {s0 : State} (k : Nat) {s : State} (h : Held s0 s) :
    Held s0 (State.dropParts k s) := by
  unfold State.dropParts
  repeat' first
    | with_reducible assumption | intro _ | with_reducible apply Held.ite | with_reducible apply State.dropPassed_held
    | with_reducible apply State.dropPlain_held | with_reducible apply State.iff_held
    | with_reducible apply Held.foldl | split

theorem State.breakMarker_held {s0 : State} (r : Rx) {s : State} (h : Held s0 s) :
    Held s0 (State.breakMarker r s) := by
  unfold State.breakMarker
  repeat' first
    | with_reducible assumption | intro _ | with_reducible apply Held.ite | with_reducible apply State.count_held
    | with_reducible apply State.dropParts_held | with_reducible apply State.setProgress_held
    | with_reducible apply Held.foldl | split

theorem State.halCutNow_held {s0 : State} (t : Tree) {s : State} (h : Held s0 s) :
    Held s0 (State.halCutNow t s) := by
  unfold State.halCutNow
  repeat' first
    | with_reducible assumption | intro _ | with_reducible apply Held.ite | with_reducible apply State.halAbort_held
    | with_reducible apply Held.foldl | split

theorem State.noticeBurst_held {s0 : State} (t : Tree) (es : List Nat) {s : State} (h : Held s0 s) :
    Held s0 (State.noticeBurst t es s) := by
  unfold State.noticeBurst
  repeat' first
    | with_reducible assumption | intro _ | with_reducible apply Held.ite | with_reducible apply State.modNotice_held
    | with_reducible apply Held.foldl | split

theorem State.randomBytes_held {s0 : State} (n : Nat) {s : State} (h : Held s0 s) : Held s0 (State.randomBytes n s).1 :=
  State.modFreeIx_held h (fun m => Nat.le_add_right m n)

theorem State.putKeyPair_held {s0 : State} (d : Nat) {s : State} (h : Held s0 s) :
    Held s0 (State.putKeyPair d s) := by
  unfold State.putKeyPair
  repeat' first
    | with_reducible assumption | intro _ | with_reducible apply Held.ite | with_reducible apply State.putEntry_held
    | with_reducible apply State.putTw_held | with_reducible apply Held.foldl | split

theorem State.retireCell_held {s0 : State} (id : Nat) {s : State} (h : Held s0 s) :
    Held s0 (State.retireCell id s) := by
  unfold State.retireCell
  repeat' first
    | with_reducible assumption | intro _ | with_reducible apply Held.ite | with_reducible apply State.count_held
    | with_reducible apply State.modSto_held | with_reducible apply State.putFrame_held
    | with_reducible apply State.raise_held | with_reducible apply State.setFld_held
    | with_reducible apply State.setTf_held | with_reducible apply State.useFree_held
    | with_reducible apply Held.foldl | split

theorem State.cellError_held {s0 : State} (id : Nat) (port : Option Nat) {s : State} (h : Held s0 s) :
    Held s0 (State.cellError id port s) := by
  unfold State.cellError
  repeat' first
    | with_reducible assumption | intro _ | with_reducible apply Held.ite | with_reducible apply State.abortCopy_held
    | with_reducible apply State.endCopy_held | with_reducible apply State.putSending_held
    | with_reducible apply State.retireCell_held | with_reducible apply Held.foldl | split
    | with_reducible apply Held.id | dsimp only

theorem State.gateEnd_held {s0 : State} (k : Nat) (count : Nat) {s : State} (h : Held s0 s) :
    Held s0 (State.gateEnd k count s) := by
  unfold State.gateEnd
  repeat' first
    | with_reducible assumption | intro _ | with_reducible apply Held.ite | with_reducible apply State.clkJudge_held
    | with_reducible apply State.clkLose_held | with_reducible apply State.putTw_held
    | with_reducible apply State.setClkGood_held | with_reducible apply State.setTf_held

theorem State.noteChange_held {s0 : State} (t : Nat) (e : Nat) (n : Nat) {s : State} (h : Held s0 s) :
    Held s0 (State.noteChange t e n s) := by
  unfold State.noteChange
  repeat' first | with_reducible exact h | with_reducible apply State.modSto_held

theorem State.setStreamPolicy_held {s0 : State} (q : Nat) (w : Word) {s : State} (h : Held s0 s) :
    Held s0 (State.setStreamPolicy q w s) := by
  unfold State.setStreamPolicy
  repeat' first
    | with_reducible exact h | with_reducible apply State.dropMerge_held | with_reducible apply State.iff_held
    | with_reducible apply State.putTw_held | with_reducible apply State.raise_held

theorem State.tmcSubmit_held {s0 : State} (t : Tree) (e : Nat) (len : Nat) (cls : Nat) (addr : Nat) {s : State} (h :
    Held s0 s) :
       Held s0 (State.tmcSubmit t e len cls addr s) := by
  unfold State.tmcSubmit
  repeat' first
    | with_reducible assumption | intro _ | with_reducible apply Held.ite | with_reducible apply State.modGrts_held
    | with_reducible apply State.putEntry_held | with_reducible apply State.showTmc_held

theorem State.frontFrame_held {s0 : State} (t : Tree) (fc : Nat) {s : State} (h : Held s0 s) :
    Held s0 (State.frontFrame t fc s) := by
  unfold State.frontFrame
  repeat' first
    | with_reducible assumption | intro _ | with_reducible apply Held.ite | with_reducible apply State.modFront_held
    | with_reducible apply State.timeApply_held | with_reducible apply State.timeJudge_held
    | with_reducible apply Held.foldl | split

theorem State.endDecided_held {s0 : State} (id : Nat) (err : Bool) {s : State} (h : Held s0 s) :
    Held s0 (State.endDecided id err s) := by
  unfold State.endDecided
  repeat' first
    | with_reducible assumption | intro _ | with_reducible apply Held.ite | with_reducible apply State.endFrame_held
    | with_reducible apply State.iff_held | with_reducible apply Held.foldl | split

theorem State.copyDecide_held {s0 : State} (id : Nat) {s : State} (h : Held s0 s) :
    Held s0 (State.copyDecide id s) := by
  unfold State.copyDecide
  repeat' first
    | with_reducible assumption | intro _ | with_reducible apply Held.ite | with_reducible apply State.decideNow_held
    | with_reducible apply State.endDecided_held | with_reducible apply State.forgetAct_held
    | with_reducible apply State.iff_held | with_reducible apply Held.foldl | split

theorem State.copySent_held {s0 : State} (c : Copy) {s : State} (h : Held s0 s) :
    Held s0 (State.copySent c s) := by
  unfold State.copySent
  repeat' first
    | with_reducible assumption | intro _ | with_reducible apply Held.ite | with_reducible apply State.count_held
    | with_reducible apply State.countBy_held | with_reducible apply State.modFrame_held
    | with_reducible apply State.releaseRef_held

theorem State.showFc_held {s0 : State} (r : Rx) (fc : Nat) {s : State} (h : Held s0 s) :
    Held s0 (State.showFc r fc s) := by
  unfold State.showFc
  repeat' first | with_reducible exact h | with_reducible apply State.setFld_held

theorem State.counterBreak_held {s0 : State} (r : Rx) (x2 : FrameHdr) {s : State} (h : Held s0 s) :
    Held s0 (State.counterBreak r x2 s) := by
  unfold State.counterBreak
  repeat' first
    | with_reducible assumption | intro _ | with_reducible apply Held.ite | with_reducible apply State.count_held
    | with_reducible apply State.modFrms_held | with_reducible apply State.raise_held
    | with_reducible apply State.showFc_held

theorem State.tmcQueue_held {s0 : State} (t : Tree) (cls : Nat) (bytes : Bytes) {s : State} (h : Held s0 s) :
    Held s0 (State.tmcQueue t cls bytes s).1 := by
  unfold State.tmcQueue
  repeat' first
    | with_reducible assumption | intro _ | with_reducible apply Held.ite | with_reducible apply Held.ite_fst
    | with_reducible apply State.putSram_held | with_reducible apply State.tmcSubmit_held
    | with_reducible apply Held.foldl | split

theorem State.tmcRequest_held {s0 : State} (t : Tree) (kind : Nat) (trans : Nat) (cls : Nat) (body : Bytes) {s :
    State} (h : Held s0 s) :
       Held s0 (State.tmcRequest t kind trans cls body s) := by
  unfold State.tmcRequest
  repeat' first
    | with_reducible exact h | with_reducible apply State.modActs_held | with_reducible apply State.tmcQueue_held

theorem State.sendNotice_held {s0 : State} (t : Tree) (n : Notice) {s : State} (h : Held s0 s) :
    Held s0 (State.sendNotice t n s) := by
  unfold State.sendNotice
  repeat' first
    | with_reducible exact h | with_reducible apply State.modNotice_held | with_reducible apply State.tmcRequest_held

theorem State.createNotice_held {s0 : State} (cause : Nat) {s : State} (h : Held s0 s) :
    Held s0 (State.createNotice cause s) := by
  unfold State.createNotice
  repeat' first
    | with_reducible assumption | intro _ | with_reducible apply Held.ite | with_reducible apply State.count_held
    | with_reducible apply State.iff_held | with_reducible apply State.modActs_held
    | with_reducible apply State.modNoticeNext_held | with_reducible apply State.sendNotice_held
    | with_reducible apply State.setFld_held | with_reducible apply State.showNotice_held
    | with_reducible apply Held.foldl | split

theorem State.cutWindow_held {s0 : State} (t : Tree) (w : Nat × Nat) (e : Nat) {s : State} (h : Held s0 s) :
    Held s0 (State.cutWindow t w e s) := by
  unfold State.cutWindow
  repeat' first | with_reducible exact h | with_reducible apply State.modTxs_held

theorem State.holdFrame_held {s0 : State} (id : Nat) {s : State} (h : Held s0 s) :
    Held s0 (State.holdFrame id s) := by
  unfold State.holdFrame
  repeat' first | with_reducible exact h | with_reducible apply State.modFrame_held

theorem State.loseCells_held {s0 : State} (id : Nat) {s : State} (h : Held s0 s) :
    Held s0 (State.loseCells id s) := by
  unfold State.loseCells
  repeat' first
    | with_reducible assumption | intro _ | with_reducible apply Held.ite | with_reducible apply State.modSto_held
    | with_reducible apply State.pfcFor_held | with_reducible apply State.putFrame_held
    | with_reducible apply Held.foldl | split

theorem State.descError_held {s0 : State} (d : Nat) {s : State} (h : Held s0 s) :
    Held s0 (State.descError d s) := by
  unfold State.descError
  repeat' first
    | with_reducible assumption | intro _ | with_reducible apply Held.ite | with_reducible apply State.dropListed_held
    | with_reducible apply State.dropSending_held | with_reducible apply State.dropWaitingOf_held
    | with_reducible apply State.holdFrame_held | with_reducible apply State.loseCells_held
    | with_reducible apply State.putFrame_held | with_reducible apply Held.foldl | split
    | with_reducible apply Held.id | dsimp only

theorem State.halSend_held {s0 : State} (t : Tree) (kind : Nat) (timing : Nat) (fcRef : Nat) (offset : Nat) (slots :
    Nat) (payload : Bytes) {s : State} (h : Held s0 s) :
       Held s0 (State.halSend t kind timing fcRef offset slots payload s) := by
  unfold State.halSend
  repeat' first
    | with_reducible assumption | intro _ | with_reducible apply Held.ite | with_reducible apply State.halDone_held
    | with_reducible apply State.halSubmit_held | with_reducible apply State.iff_held
    | with_reducible apply State.putEntry_held | with_reducible apply Held.foldl | split

theorem State.ptpEgress_held {s0 : State} (port : Nat) (frame : Bytes) {s : State} (h : Held s0 s) :
    Held s0 (State.ptpEgress port frame s).1 := by
  unfold State.ptpEgress
  repeat' first
    | with_reducible assumption | intro _ | with_reducible apply Held.ite | with_reducible apply Held.ite_fst
    | with_reducible apply State.count_held | with_reducible apply Held.foldl | split

theorem State.enterGrant_held {s0 : State} (t : Tree) (i : Nat) (a : Nat) (fc : Nat) (g : GrantEntry) (span : Nat ×
    Nat) {s : State} (h : Held s0 s) :
       Held s0 (State.enterGrant t i a fc g span s) := by
  unfold State.enterGrant
  repeat' first
    | with_reducible exact h | with_reducible apply State.count_held | with_reducible apply State.modGrts_held
    | with_reducible apply State.putEntry_held | with_reducible apply State.showPending_held

theorem State.entryError_held {s0 : State} (id : Nat) {s : State} (h : Held s0 s) :
    Held s0 (State.entryError id s) := by
  unfold State.entryError
  repeat' first
    | with_reducible assumption | intro _ | with_reducible apply Held.ite
    | with_reducible apply State.dropFrameCopies_held | with_reducible apply State.holdFrame_held
    | with_reducible apply State.loseCells_held | with_reducible apply Held.foldl | split

theorem State.flywheelFrame_held {s0 : State} (r : Rx) {s : State} (h : Held s0 s) :
    Held s0 (State.flywheelFrame r s) := by
  unfold State.flywheelFrame
  repeat' first
    | with_reducible assumption | intro _ | with_reducible apply Held.ite | with_reducible apply State.count_held
    | with_reducible apply State.fragHunt_held | with_reducible apply State.fragIdle_held
    | with_reducible apply State.modFrms_held

theorem State.fomWindow_held {s0 : State} (r : Rx) (fom : Nat) {s : State} (h : Held s0 s) :
    Held s0 (State.fomWindow r fom s) := by
  unfold State.fomWindow
  repeat' first
    | with_reducible assumption | intro _ | with_reducible apply Held.ite | with_reducible apply State.iff_held
    | with_reducible apply State.modRxs_held | with_reducible apply State.raise_held
    | with_reducible apply State.setFld_held | with_reducible apply State.setSFld_held
    | with_reducible apply State.useFree_held

theorem State.fragBegin_held {s0 : State} (r : Rx) (pos : Nat) (hdr : Bytes) {s : State} (h : Held s0 s) :
    Held s0 (State.fragBegin r pos hdr s) := by
  unfold State.fragBegin
  repeat' first | with_reducible exact h | with_reducible apply State.modFrms_held

theorem State.fragReceive_held {s0 : State} (r : Rx) (payload : Bytes) {s : State} (h : Held s0 s) :
    Held s0 (State.fragReceive r payload s).1 := by
  unfold State.fragReceive
  repeat' first
    | with_reducible assumption | intro _ | with_reducible apply Held.ite | with_reducible apply Held.ite_fst
    | with_reducible apply State.count_held | with_reducible apply State.countBy_held
    | with_reducible apply State.modFrms_held | with_reducible apply Held.foldl | split

theorem State.fragStep_held {s0 : State} (r : Rx) (pos : Nat) (bs : Bytes) {s : State} (h : Held s0 s) :
    Held s0 (State.fragStep r pos bs s) := by
  unfold State.fragStep
  repeat' first
    | with_reducible assumption | intro _ | with_reducible apply Held.ite | with_reducible apply State.count_held
    | with_reducible apply State.fragBegin_held | with_reducible apply State.fragHunt_held
    | with_reducible apply State.modFrms_held | with_reducible apply State.setFld_held
    | with_reducible apply Held.foldl | split

theorem State.gaspWait_held {s0 : State} (t : Tree) {s : State} (h : Held s0 s) :
    Held s0 (State.gaspWait t s) := by
  unfold State.gaspWait
  repeat' first
    | with_reducible assumption | intro _ | with_reducible apply Held.ite | with_reducible apply State.halSend_held
    | with_reducible apply State.modNotice_held | with_reducible apply Held.foldl | split

theorem State.halGrantAccepted_held {s0 : State} (t : Tree) (t0 : Nat) {s : State} (h : Held s0 s) :
    Held s0 (State.halGrantAccepted t t0 s) := by
  unfold State.halGrantAccepted
  repeat' first
    | with_reducible assumption | intro _ | with_reducible apply Held.ite | with_reducible apply State.cutWindow_held
    | with_reducible apply State.halAbort_held | with_reducible apply State.modHalJob_held
    | with_reducible apply Held.foldl | split

theorem State.grantReceive_held {s0 : State} (t : Tree) (g : GrantEntry) (fc : Nat) (span : Nat × Nat) {s : State}
    (h : Held s0 s) :
       Held s0 (State.grantReceive t g fc span s).1 := by
  unfold State.grantReceive
  repeat' first
    | with_reducible assumption | intro _ | with_reducible apply Held.ite | with_reducible apply Held.ite_fst
    | with_reducible apply State.count_held | with_reducible apply State.enterGrant_held
    | with_reducible apply State.raise_held | with_reducible apply State.raiseMs_held
    | with_reducible apply State.setFld_held | with_reducible apply State.useFree_held
    | with_reducible apply Held.foldl | split | with_reducible apply Held.id | dsimp only

theorem State.halCommit_held {s0 : State} (t : Tree) (slot : Nat) {s : State} (h : Held s0 s) :
    Held s0 (State.halCommit t slot s) := by
  unfold State.halCommit
  repeat' first
    | with_reducible assumption | intro _ | with_reducible apply Held.ite | with_reducible apply State.halDone_held
    | with_reducible apply State.modHalJob_held | with_reducible apply State.modTxs_held
    | with_reducible apply Held.foldl | split

theorem State.halDetect_held {s0 : State} (t : Tree) (gain : Nat) {s : State} (h : Held s0 s) :
    Held s0 (State.halDetect t gain s) := by
  unfold State.halDetect
  repeat' first
    | with_reducible assumption | intro _ | with_reducible apply Held.ite | with_reducible apply State.count_held
    | with_reducible apply State.modHals_held | with_reducible apply State.setFld_held

theorem State.halEnd_held {s0 : State} (t : Tree) (slot : Nat) {s : State} (h : Held s0 s) :
    Held s0 (State.halEnd t slot s) := by
  unfold State.halEnd
  repeat' first
    | with_reducible assumption | intro _ | with_reducible apply Held.ite | with_reducible apply State.halAbort_held
    | with_reducible apply State.halDone_held | with_reducible apply Held.foldl | split

theorem State.halStore_held {s0 : State} (t : Tree) (kind : Nat) (plen : Nat) (level : Nat) (fc : Nat) (ofs : Nat)
    (payload : Bytes) {s : State} (h : Held s0 s) :
       Held s0 (State.halStore t kind plen level fc ofs payload s) := by
  unfold State.halStore
  repeat' first
    | with_reducible assumption | intro _ | with_reducible apply Held.ite | with_reducible apply State.count_held
    | with_reducible apply State.putEntry_held | with_reducible apply State.raise_held
    | with_reducible apply State.setFld_held

theorem State.halFrameEnd_held {s0 : State} (t : Tree) (syms : List Nat) (level : Nat) {s : State} (h : Held s0 s) :
    Held s0 (State.halFrameEnd t syms level s) := by
  unfold State.halFrameEnd
  repeat' first
    | with_reducible assumption | intro _ | with_reducible apply Held.ite | with_reducible apply State.count_held
    | with_reducible apply State.halRelease_held | with_reducible apply State.halStore_held
    | with_reducible apply State.halSync_held | with_reducible apply State.raiseMs_held
    | with_reducible apply State.setFld_held | with_reducible apply Held.foldl | split

theorem State.releaseHeld_held {s0 : State} (t : Tree) {s : State} (h : Held s0 s) :
    Held s0 (State.releaseHeld t s) := by
  unfold State.releaseHeld
  repeat' first
    | with_reducible assumption | intro _ | with_reducible apply Held.ite | with_reducible apply State.sendNotice_held
    | with_reducible apply Held.foldl | split

theorem State.noticeSent_held {s0 : State} (t : Tree) (id : Nat) {s : State} (h : Held s0 s) :
    Held s0 (State.noticeSent t id s) := by
  unfold State.noticeSent
  repeat' first
    | with_reducible exact h | with_reducible apply State.modNotice_held | with_reducible apply State.releaseHeld_held

theorem State.halNoticeSent_held {s0 : State} (t : Tree) (payload : Bytes) {s : State} (h : Held s0 s) :
    Held s0 (State.halNoticeSent t payload s) := by
  unfold State.halNoticeSent
  repeat' first
    | with_reducible exact h | with_reducible apply State.count_held | with_reducible apply State.iff_held
    | with_reducible apply State.noticeSent_held | with_reducible apply State.raise_held
    | with_reducible apply State.setFld_held

theorem State.halStart_held {s0 : State} (t : Tree) (slot : Nat) {s : State} (h : Held s0 s) :
    Held s0 (State.halStart t slot s) := by
  unfold State.halStart
  repeat' first
    | with_reducible assumption | intro _ | with_reducible apply Held.ite | with_reducible apply State.driveGate_held
    | with_reducible apply State.drivePrep_held | with_reducible apply State.halDone_held
    | with_reducible apply State.modHalJob_held | with_reducible apply State.modTxs_held
    | with_reducible apply State.setFld_held | with_reducible apply Held.foldl | split

theorem State.hdrPresync_held {s0 : State} (r : Rx) (x2 : FrameHdr) {s : State} (h : Held s0 s) :
    Held s0 (State.hdrPresync r x2 s) := by
  unfold State.hdrPresync
  repeat' first
    | with_reducible exact h | with_reducible apply State.beginFrame_held | with_reducible apply State.modFrms_held
    | with_reducible apply State.setFld_held | with_reducible apply State.showFc_held

theorem State.headerStep_held {s0 : State} (r : Rx) (x2 : FrameHdr) {s : State} (h : Held s0 s) :
    Held s0 (State.headerStep r x2 s) := by
  unfold State.headerStep
  repeat' first
    | with_reducible assumption | intro _ | with_reducible apply Held.ite | with_reducible apply State.beginFrame_held
    | with_reducible apply State.counterBreak_held | with_reducible apply State.flywheelFrame_held
    | with_reducible apply State.hdrHunt_held | with_reducible apply State.hdrPresync_held
    | with_reducible apply State.modFrms_held | with_reducible apply State.raise_held
    | with_reducible apply State.setFld_held | with_reducible apply State.showFc_held
    | with_reducible apply Held.foldl | split

theorem State.onBattery_held {s0 : State} {s : State} (h : Held s0 s) :
    Held s0 (State.onBattery s) := by
  unfold State.onBattery
  repeat' first
    | with_reducible assumption | intro _ | with_reducible apply Held.ite
    | with_reducible apply State.createNotice_held | with_reducible apply State.enterDark_held
    | with_reducible apply State.forget_held | with_reducible apply State.iff_held
    | with_reducible apply State.setFld_held | with_reducible apply State.setMode_held
    | with_reducible apply Held.foldl | split

theorem State.judgeLaunch_held {s0 : State} (t : Tree) (v : Int) {s : State} (h : Held s0 s) :
    Held s0 (State.judgeLaunch t v s) := by
  unfold State.judgeLaunch
  repeat' first
    | with_reducible exact h | with_reducible apply State.iff_held | with_reducible apply State.raise_held
    | with_reducible apply State.setFld_held

theorem State.kstWrite_held {s0 : State} (n : Nat) (gen : Nat) (tag : Bytes → Bytes) {s : State} (h : Held s0 s) :
    Held s0 (State.kstWrite n gen tag s) := by
  unfold State.kstWrite
  repeat' first | with_reducible exact h | with_reducible apply State.putKstSlot_held

theorem State.kstIdle_held {s0 : State} {s : State} (h : Held s0 s) :
    Held s0 (State.kstIdle s) := by
  unfold State.kstIdle
  repeat' first
    | with_reducible exact h | with_reducible apply State.modKst_held | with_reducible apply State.setFld_held

theorem State.kstAbort_held {s0 : State} {s : State} (h : Held s0 s) :
    Held s0 (State.kstAbort s) := by
  unfold State.kstAbort
  repeat' first
    | with_reducible assumption | intro _ | with_reducible apply Held.ite | with_reducible apply State.count_held
    | with_reducible apply State.kstIdle_held | with_reducible apply State.kstWrite_held
    | with_reducible apply State.setFld_held | with_reducible apply State.useFree_held

theorem State.kstActivate_held {s0 : State} (n : Nat) {s : State} (h : Held s0 s) :
    Held s0 (State.kstActivate n s) := by
  unfold State.kstActivate
  repeat' first
    | with_reducible exact h | with_reducible apply State.putReg_held | with_reducible apply State.setFld_held
    | with_reducible apply State.showKeystore_held

theorem State.kstCommitDone_held {s0 : State} (ok : Bool) {s : State} (h : Held s0 s) :
    Held s0 (State.kstCommitDone ok s) := by
  unfold State.kstCommitDone
  repeat' first
    | with_reducible assumption | intro _ | with_reducible apply Held.ite | with_reducible apply State.count_held
    | with_reducible apply State.kstAbort_held | with_reducible apply State.kstActivate_held
    | with_reducible apply State.kstIdle_held | with_reducible apply State.kstWrite_held
    | with_reducible apply State.modKst_held | with_reducible apply State.raise_held
    | with_reducible apply State.setFld_held | with_reducible apply State.useFree_held

theorem State.kstGenkeyDone_held {s0 : State} {s : State} (h : Held s0 s) :
    Held s0 (State.kstGenkeyDone s) := by
  unfold State.kstGenkeyDone
  repeat' first
    | with_reducible assumption | intro _ | with_reducible apply Held.ite | with_reducible apply State.kstIdle_held
    | with_reducible apply State.putKeyPair_held | with_reducible apply State.raise_held
    | with_reducible apply State.randomBytes_held

theorem State.kstPowerUp_held {s0 : State} {s : State} (h : Held s0 s) :
    Held s0 (State.kstPowerUp s) := by
  unfold State.kstPowerUp
  repeat' first
    | with_reducible assumption | intro _ | with_reducible apply Held.ite | with_reducible apply State.count_held
    | with_reducible apply State.countBy_held | with_reducible apply State.iff_held
    | with_reducible apply State.kstActivate_held | with_reducible apply State.modKst_held
    | with_reducible apply State.putReg_held | with_reducible apply State.raise_held
    | with_reducible apply State.setFld_held | with_reducible apply State.showKeystore_held
    | with_reducible apply Held.foldl | split

theorem State.onMains_held {s0 : State} {s : State} (h : Held s0 s) :
    Held s0 (State.onMains s) := by
  unfold State.onMains
  repeat' first
    | with_reducible assumption | intro _ | with_reducible apply Held.ite
    | with_reducible apply State.createNotice_held | with_reducible apply State.iff_held
    | with_reducible apply State.setFld_held | with_reducible apply State.setMode_held
    | with_reducible apply Held.foldl | split

theorem State.memError_held {s0 : State} (what : MemErr) {s : State} (h : Held s0 s) :
    Held s0 (State.memError what s) := by
  unfold State.memError
  repeat' first
    | with_reducible assumption | intro _ | with_reducible apply Held.ite | with_reducible apply State.cellError_held
    | with_reducible apply State.count_held | with_reducible apply State.descError_held
    | with_reducible apply State.entryError_held | with_reducible apply State.raise_held
    | with_reducible apply Held.foldl | split

theorem State.mergeAccept_held {s0 : State} (t : Tree) (q : Nat) (seq : Nat) {s : State} (h : Held s0 s) :
    Held s0 (State.mergeAccept t q seq s) := by
  unfold State.mergeAccept
  repeat' first
    | with_reducible exact h | with_reducible apply State.count_held | with_reducible apply State.modDual_held

theorem State.putMerge_held {s0 : State} (q : Nat) (hi : Nat) (stale : Nat) (gaps : List Nat) {s : State} (h : Held
    s0 s) :
       Held s0 (State.putMerge q hi stale gaps s) := by
  unfold State.putMerge
  repeat' first
    | with_reducible exact h | with_reducible apply State.modDual_held | with_reducible apply State.setTf_held

theorem State.mergeDup_held {s0 : State} (q : Nat) (seq : Nat) {s : State} (h : Held s0 s) :
    Held s0 (State.mergeDup q seq s) := by
  unfold State.mergeDup
  repeat' first
    | with_reducible exact h | with_reducible apply State.count_held | with_reducible apply State.modDual_held

theorem State.merge_held {s0 : State} (t : Tree) (q : Nat) (seq : Nat) (last : Bool) {s : State} (h : Held s0 s) :
    Held s0 (State.merge t q seq last s).1 := by
  unfold State.merge
  repeat' first
    | with_reducible assumption | intro _ | with_reducible apply Held.ite | with_reducible apply Held.ite_fst
    | with_reducible apply State.count_held | with_reducible apply State.countBy_held
    | with_reducible apply State.mergeAccept_held | with_reducible apply State.mergeDup_held
    | with_reducible apply State.putMerge_held | with_reducible apply State.raiseMs_held

theorem State.noteCodeword_held {s0 : State} (r : Rx) (corrected : Nat) (unc : Bool) (block : Bytes) {s : State} (h
    : Held s0 s) :
       Held s0 (State.noteCodeword r corrected unc block s) := by
  unfold State.noteCodeword
  repeat' first
    | with_reducible assumption | intro _ | with_reducible apply Held.ite | with_reducible apply State.modFrms_held

theorem State.noticeRetry_held {s0 : State} (t : Tree) {s : State} (h : Held s0 s) :
    Held s0 (State.noticeRetry t s) := by
  unfold State.noticeRetry
  repeat' first
    | with_reducible assumption | intro _ | with_reducible apply Held.ite | with_reducible apply State.count_held
    | with_reducible apply State.modNotice_held | with_reducible apply State.sendNotice_held
    | with_reducible apply Held.foldl | split

theorem State.quarantine_held {s0 : State} (t : Tree) (cause : Nat) (reason : Nat) {s : State} (h : Held s0 s) :
    Held s0 (State.quarantine t cause reason s) := by
  unfold State.quarantine
  repeat' first
    | with_reducible assumption | intro _ | with_reducible apply State.iff_held
    | with_reducible apply State.recordQuarantine_held | with_reducible apply State.setFld_held
    | with_reducible apply State.setMode_held

theorem State.rogueEvent_held {s0 : State} (t : Tree) (cause : Nat) {s : State} (h : Held s0 s) :
    Held s0 (State.rogueEvent t cause s) := by
  unfold State.rogueEvent
  repeat' first
    | with_reducible exact h | with_reducible apply State.count_held | with_reducible apply State.enterForce_held
    | with_reducible apply State.iff_held | with_reducible apply State.modTxs_held
    | with_reducible apply State.pinsLow_held | with_reducible apply State.quarantine_held
    | with_reducible apply State.raise_held | with_reducible apply State.setFld_held

theorem State.openWindow_held {s0 : State} (r : Rx) {s : State} (h : Held s0 s) :
    Held s0 (State.openWindow r s) := by
  unfold State.openWindow
  repeat' first | with_reducible exact h | with_reducible apply State.modFrms_held

theorem State.pageOff_held {s0 : State} (p : Nat) {stop : State → State} {s : State} (h : Held s0 s) (h2 : ∀ y0,
    Held s0 y0 → Held s0 (stop y0)) :
       Held s0 (State.pageOff p stop s) := by
  unfold State.pageOff
  repeat' first
    | with_reducible assumption | intro _ | with_reducible apply Held.ite | with_reducible apply State.guarded_held
    | with_reducible apply State.setFld_held | with_reducible apply h2

theorem State.pageOn_held {s0 : State} (p : Nat) {start : State → State} {s : State} (h : Held s0 s) (h2 : ∀ y0,
    Held s0 y0 → Held s0 (start y0)) :
       Held s0 (State.pageOn p start s) := by
  unfold State.pageOn
  repeat' first
    | with_reducible assumption | intro _ | with_reducible apply Held.ite | with_reducible apply State.guarded_held
    | with_reducible apply State.setFld_held | with_reducible apply h2

theorem State.passLine_held {s0 : State} (f : LineFrag) (accept : Bool) {s : State} (h : Held s0 s) :
    Held s0 (State.passLine f accept s) := by
  unfold State.passLine
  repeat' first
    | with_reducible assumption | intro _ | with_reducible apply Held.ite | with_reducible apply State.freeLine_held
    | with_reducible apply State.modDual_held

theorem State.ppsFall_held {s0 : State} {s : State} (h : Held s0 s) :
    Held s0 (State.ppsFall s) := by
  unfold State.ppsFall
  repeat' first
    | with_reducible exact h | with_reducible apply State.iff_held | with_reducible apply State.ppsLow_held

theorem State.pruneWindows_held {s0 : State} (t : Tree) {s : State} (h : Held s0 s) :
    Held s0 (State.pruneWindows t s) := by
  unfold State.pruneWindows
  repeat' first | with_reducible exact h | with_reducible apply State.modTxs_held

theorem State.ptpIngress_held {s0 : State} (port : Nat) (frame : Bytes) {s : State} (h : Held s0 s) :
    Held s0 (State.ptpIngress port frame s) := by
  unfold State.ptpIngress
  repeat' first
    | with_reducible assumption | intro _ | with_reducible apply Held.ite | with_reducible apply State.count_held
    | with_reducible apply State.putEntry_held | with_reducible apply State.raiseMs_held
    | with_reducible apply State.setFld_held | with_reducible apply Held.foldl | split

theorem State.putDefect_held {s0 : State} (r : Rx) (f : Fld) (setBit : Nat) (clrBit : Nat) (on : Bool) {s : State}
    (h : Held s0 s) :
       Held s0 (State.putDefect r f setBit clrBit on s) := by
  unfold State.putDefect
  repeat' first
    | with_reducible exact h | with_reducible apply State.iff_held | with_reducible apply State.raise_held
    | with_reducible apply State.setFld_held

theorem State.receiveLine_held {s0 : State} (r : Rx) (fc : Nat) (hdr : Bytes) (payload : Bytes) {s : State} (h :
    Held s0 s) :
       Held s0 (State.receiveLine r fc hdr payload s) := by
  unfold State.receiveLine
  repeat' first
    | with_reducible exact h | with_reducible apply State.drawCells_held | with_reducible apply State.modDual_held

theorem State.selRestore_held {s0 : State} {s : State} (h : Held s0 s) :
    Held s0 (State.selRestore s) := by
  unfold State.selRestore
  repeat' first
    | with_reducible assumption | intro _ | with_reducible apply Held.ite | with_reducible apply State.setSel_held

theorem State.selectContent.keep_held {s0 : State} {s : State} (t : Tree) (i : Nat) (c : Content) (h : Held s0 s) :
    Held s0 (State.selectContent.keep s t i c) := by
  unfold State.selectContent.keep
  repeat' first
    | with_reducible exact h | with_reducible apply State.count_held | with_reducible apply State.modGrts_held
    | with_reducible apply State.setTf_held

theorem State.selectContent_held {s0 : State} (t : Tree) (i : Nat) {s : State} (h : Held s0 s) :
    Held s0 (State.selectContent t i s) := by
  unfold State.selectContent
  repeat' first
    | with_reducible assumption | intro _ | with_reducible apply Held.ite | with_reducible apply State.count_held
    | with_reducible apply State.countBy_held | with_reducible apply State.fillStream_held
    | with_reducible apply State.selectContent.keep_held | with_reducible apply State.setTmcState_held
    | with_reducible apply Held.foldl | split

theorem State.sendContent_held {s0 : State} (t : Tree) (c : Content) {s : State} (h : Held s0 s) :
    Held s0 (State.sendContent t c s) := by
  unfold State.sendContent
  repeat' first
    | with_reducible assumption | intro _ | with_reducible apply Held.ite | with_reducible apply State.copySent_held
    | with_reducible apply State.countBy_held | with_reducible apply State.setTmcState_held
    | with_reducible apply Held.foldl | split

theorem State.skewUpdate_held {s0 : State} {s : State} (h : Held s0 s) :
    Held s0 (State.skewUpdate s) := by
  unfold State.skewUpdate
  repeat' first
    | with_reducible exact h | with_reducible apply State.iff_held | with_reducible apply State.modDual_held
    | with_reducible apply State.raise_held | with_reducible apply State.setFld_held

theorem State.tickTake_held {s0 : State} {s : State} (h : Held s0 s) :
    Held s0 (State.tickTake s) := by
  unfold State.tickTake
  repeat' first
    | with_reducible assumption | intro _ | with_reducible apply Held.ite | with_reducible apply State.modUsch_held

theorem State.timeCalDone_held {s0 : State} {s : State} (h : Held s0 s) :
    Held s0 (State.timeCalDone s) := by
  unfold State.timeCalDone
  repeat' first
    | with_reducible assumption | intro _ | with_reducible apply Held.ite | with_reducible apply State.modTime_held
    | with_reducible apply State.setFld_held

theorem State.timeSetApply_held {s0 : State} (r : Rx) {s : State} (h : Held s0 s) :
    Held s0 (State.timeSetApply r s) := by
  unfold State.timeSetApply
  repeat' first
    | with_reducible assumption | intro _ | with_reducible apply Held.ite | with_reducible apply State.modTime_held
    | with_reducible apply State.setFld_held | with_reducible apply State.timeApply_held
    | with_reducible apply State.timeJudge_held

theorem State.tmcRemember_held {s0 : State} (t : Tree) (kind : Nat) (trans : Nat) (resp : Option Bytes) {s : State}
    (h : Held s0 s) :
       Held s0 (State.tmcRemember t kind trans resp s) := by
  unfold State.tmcRemember
  repeat' first | with_reducible exact h | with_reducible apply State.modActs_held

theorem State.tmcReply_held {s0 : State} (t : Tree) (bytes : Bytes) {s : State} (h : Held s0 s) :
    Held s0 (State.tmcReply t bytes s) := by
  unfold State.tmcReply
  repeat' first
    | with_reducible assumption | intro _ | with_reducible apply Held.ite | with_reducible apply State.count_held
    | with_reducible apply State.tmcQueue_held

theorem State.tmcAnswer_held {s0 : State} (t : Tree) (x : TmcMsg) (auth : Bool) (code : Nat) (rest : Bytes) {s :
    State} (h : Held s0 s) :
       Held s0 (State.tmcAnswer t x auth code rest s) := by
  unfold State.tmcAnswer
  repeat' first
    | with_reducible exact h | with_reducible apply State.tmcRemember_held | with_reducible apply State.tmcReply_held

theorem State.tmcTake_held {s0 : State} (t : Tree) (m : TmcIn) {s : State} (h : Held s0 s) :
    Held s0 (State.tmcTake t m s) := by
  unfold State.tmcTake
  repeat' first | with_reducible exact h | with_reducible apply State.modActs_held

theorem State.tmcReceive_held {s0 : State} (t : Tree) (m : TmcIn) {run : TmcMsg → State → State × Reply} {s : State}
    (h : Held s0 s) (h3 : ∀ y0 y1, Held s0 y1 → Held s0 ((run y0 y1).1)) :
       Held s0 (State.tmcReceive t m run s) := by
  unfold State.tmcReceive
  repeat' first
    | with_reducible assumption | intro _ | with_reducible apply Held.ite | with_reducible apply State.count_held
    | with_reducible apply State.iff_held | with_reducible apply State.raiseMs_held
    | with_reducible apply State.tmcAnswer_held | with_reducible apply State.tmcRemember_held
    | with_reducible apply State.tmcReply_held | with_reducible apply State.tmcTake_held | with_reducible apply h3
    | with_reducible apply Held.foldl | split | with_reducible apply Held.id | dsimp only

theorem State.tmcKind_held {s0 : State} (t : Tree) (m : TmcIn) (kind : Nat) {run : TmcMsg → State → State × Reply}
    {s : State} (h : Held s0 s) (h4 : ∀ y0 y1, Held s0 y1 → Held s0 ((run y0 y1).1)) :
       Held s0 (State.tmcKind t m kind run s) := by
  unfold State.tmcKind
  repeat' first
    | with_reducible assumption | intro _ | with_reducible apply Held.ite | with_reducible apply State.tmcReceive_held
    | with_reducible apply h4

theorem State.tmcSent_held {s0 : State} (t : Tree) (es : List Nat) {s : State} (h : Held s0 s) :
    Held s0 (State.tmcSent t es s) := by
  unfold State.tmcSent
  repeat' first
    | with_reducible assumption | intro _ | with_reducible apply Held.ite | with_reducible apply State.count_held
    | with_reducible apply State.iff_held | with_reducible apply State.noticeSent_held
    | with_reducible apply State.raise_held | with_reducible apply State.setFld_held | with_reducible apply Held.foldl
    | split

theorem State.unprotected_held {s0 : State} (f : LineFrag) {s : State} (h : Held s0 s) :
    Held s0 (State.unprotected f s) := by
  unfold State.unprotected
  repeat' first
    | with_reducible assumption | intro _ | with_reducible apply State.count_held
    | with_reducible apply State.dropParts_held | with_reducible apply State.iff_held
    | with_reducible apply State.passLine_held | with_reducible apply State.setProgress_held

theorem State.wakeRequest_held {s0 : State} (t : Tree) (cause : Nat) (seq : Nat) {s : State} (h : Held s0 s) :
    Held s0 (State.wakeRequest t cause seq s) := by
  unfold State.wakeRequest
  repeat' first | with_reducible exact h | with_reducible apply State.halSend_held

theorem State.windowEnd_held {s0 : State} (r : Rx) {s : State} (h : Held s0 s) :
    Held s0 (State.windowEnd r s) := by
  unfold State.windowEnd
  repeat' first
    | with_reducible exact h | with_reducible apply State.iff_held | with_reducible apply State.modFrms_held
    | with_reducible apply State.openWindow_held | with_reducible apply State.putDefect_held
    | with_reducible apply State.setFld_held | with_reducible apply State.useFree_held

theorem State.windowBoundary_held {s0 : State} (r : Rx) {s : State} (h : Held s0 s) :
    Held s0 (State.windowBoundary r s) := by
  unfold State.windowBoundary
  repeat' first
    | with_reducible assumption | intro _ | with_reducible apply Held.ite | with_reducible apply State.openWindow_held
    | with_reducible apply State.windowEnd_held

theorem State.withdrawCopies_held {s0 : State} (t : Tree) {s : State} (h : Held s0 s) :
    Held s0 (State.withdrawCopies t s) := by
  unfold State.withdrawCopies
  repeat' first
    | with_reducible assumption | intro _ | with_reducible apply Held.ite | with_reducible apply State.count_held
    | with_reducible apply State.endProtected_held | with_reducible apply State.unlinkCopy_held
    | with_reducible apply Held.foldl | split

end Sys2Proof.Machine
end

