-- ==== Sys2Proof/Laws/KeptPart.lean ====
section
/-! SUPPORT. What every operation keeps (Laws/Held.lean): rings, egress, the audit, control crypto, domains, UNI ports, regions. -/

namespace Sys2Proof.Machine

theorem State.modRing_held {s0 : State} (f : Nat) (rx : Bool) (k : Nat) (g : RingSt → RingSt) {s : State} (h : Held
    s0 s) :
       Held s0 (State.modRing f rx k g s) := by
  unfold State.modRing
  repeat' first | with_reducible exact h | with_reducible apply State.modDma_held

theorem State.dropJob_held {s0 : State} (f : Nat) (k : Nat) {s : State} (h : Held s0 s) :
    Held s0 (State.dropJob f k s) := by
  unfold State.dropJob
  repeat' first
    | with_reducible assumption | intro _ | with_reducible apply Held.ite | with_reducible apply State.freeFrame_held
    | with_reducible apply State.iff_held | with_reducible apply State.modRing_held | with_reducible apply Held.foldl
    | split

theorem State.abortJob_held {s0 : State} (f : Nat) (k : Nat) {s : State} (h : Held s0 s) :
    Held s0 (State.abortJob f k s) := by
  unfold State.abortJob
  repeat' first
    | with_reducible assumption | intro _ | with_reducible apply Held.ite | with_reducible apply State.count_held
    | with_reducible apply State.dropJob_held

theorem State.setRg_held {s0 : State} (f : Nat) (rx : Bool) (k : Nat) (x : Fld) (v : Nat) {s : State} (h : Held s0
    s) :
       Held s0 (State.setRg f rx k x v s) := by
  unfold State.setRg
  repeat' first | with_reducible exact h | with_reducible apply State.setFld_held

theorem State.ringAdvance_held {s0 : State} (f : Nat) (rx : Bool) (k : Nat) (n : Nat) {s : State} (h : Held s0 s) :
    Held s0 (State.ringAdvance f rx k n s) := by
  unfold State.ringAdvance
  repeat' first | with_reducible exact h | with_reducible apply State.setRg_held

theorem State.ringComplete_held {s0 : State} (f : Nat) (rx : Bool) (k : Nat) (bytes : Bytes) {s : State} (h : Held
    s0 s) :
       Held s0 (State.ringComplete f rx k bytes s) := by
  unfold State.ringComplete
  repeat' first
    | with_reducible exact h | with_reducible apply State.count_held | with_reducible apply State.emit_held
    | with_reducible apply State.modRing_held

theorem State.sendLocal_held {s0 : State} (f : Nat) (v : Nat) {s : State} (h : Held s0 s) :
    Held s0 (State.sendLocal f v s) := by
  unfold State.sendLocal
  repeat' first
    | with_reducible assumption | intro _ | with_reducible apply Held.ite | with_reducible apply State.sendOwned_held
    | with_reducible apply State.sendVector.dropped_held

theorem State.ringVector_held {s0 : State} (f : Nat) (rx : Bool) (k : Nat) {s : State} (h : Held s0 s) :
    Held s0 (State.ringVector f rx k s) := by
  unfold State.ringVector
  repeat' first
    | with_reducible assumption | intro _ | with_reducible apply Held.ite | with_reducible apply State.modRing_held
    | with_reducible apply State.sendLocal_held

theorem State.setStarved_held {s0 : State} (q : Nat) (on : Bool) {s : State} (h : Held s0 s) :
    Held s0 (State.setStarved q on s) := by
  unfold State.setStarved
  repeat' first | with_reducible exact h | with_reducible apply State.modDma_held

theorem State.ageDiscard_held {s0 : State} (q : Nat) (c : Copy) {s : State} (h : Held s0 s) :
    Held s0 (State.ageDiscard q c s) := by
  unfold State.ageDiscard
  repeat' first
    | with_reducible exact h | with_reducible apply State.count_held | with_reducible apply State.countBy_held
    | with_reducible apply State.raiseMs_held | with_reducible apply State.releaseRef_held
    | with_reducible apply State.setStarved_held | with_reducible apply State.unlinkCopy_held

theorem State.cxlDown_held {s0 : State} {s : State} (h : Held s0 s) :
    Held s0 (State.cxlDown s) := by
  unfold State.cxlDown
  repeat' first
    | with_reducible assumption | intro _ | with_reducible apply Held.ite | with_reducible apply State.count_held
    | with_reducible apply State.loseTier_held | with_reducible apply State.raise_held
    | with_reducible apply State.setFld_held

theorem State.showJobs_held {s0 : State} {s : State} (h : Held s0 s) :
    Held s0 (State.showJobs s) := by
  unfold State.showJobs
  repeat' first | with_reducible exact h | with_reducible apply State.setFld_held

theorem State.setJobState_held {s0 : State} (k : Nat) (v : Nat) {s : State} (h : Held s0 s) :
    Held s0 (State.setJobState k v s) := by
  unfold State.setJobState
  repeat' first
    | with_reducible exact h | with_reducible apply State.setTf_held | with_reducible apply State.showJobs_held

theorem State.putJob_held {s0 : State} (k : Nat) (j : CcryJob) {s : State} (h : Held s0 s) :
    Held s0 (State.putJob k j s) := by
  unfold State.putJob
  repeat' first | with_reducible exact h | with_reducible apply State.modCcry_held

theorem State.feed_held {s0 : State} (k : Nat) (n : Nat) {s : State} (h : Held s0 s) :
    Held s0 (State.feed k n s) := by
  unfold State.feed
  repeat' first
    | with_reducible exact h | with_reducible apply State.countBy_held | with_reducible apply State.putJob_held
    | with_reducible apply State.putSram_held | with_reducible apply State.putTw_held

theorem State.stopJob_held {s0 : State} (k : Nat) {s : State} (h : Held s0 s) :
    Held s0 (State.stopJob k s) := by
  unfold State.stopJob
  repeat' first
    | with_reducible exact h | with_reducible apply State.feed_held | with_reducible apply State.iff_held
    | with_reducible apply State.setJobState_held | with_reducible apply State.useFree_held

theorem State.ccryStop_held {s0 : State} {s : State} (h : Held s0 s) :
    Held s0 (State.ccryStop s) := by
  unfold State.ccryStop
  repeat' first
    | with_reducible assumption | intro _ | with_reducible apply Held.ite | with_reducible apply State.stopJob_held
    | with_reducible apply Held.foldl | split

theorem State.dropPlaced_held {s0 : State} (t : Tree) (i : Nat) {s : State} (h : Held s0 s) :
    Held s0 (State.dropPlaced t i s) := by
  unfold State.dropPlaced
  repeat' first
    | with_reducible assumption | intro _ | with_reducible apply Held.ite | with_reducible apply State.endCopy_held
    | with_reducible apply State.modGrts_held | with_reducible apply Held.foldl | split

theorem State.dropStore_held {s0 : State} {s : State} (h : Held s0 s) :
    Held s0 (State.dropStore s) := by
  unfold State.dropStore
  repeat' first
    | with_reducible assumption | intro _ | with_reducible apply Held.ite | with_reducible apply State.count_held
    | with_reducible apply State.dropFrameCopies_held | with_reducible apply State.dropLine_held
    | with_reducible apply State.dropPlaced_held | with_reducible apply State.forgetCells_held
    | with_reducible apply State.freeFrame_held | with_reducible apply State.modSto_held
    | with_reducible apply State.returnCells_held | with_reducible apply Held.foldl | split

theorem State.dropClassified_held {s0 : State} (id : Nat) {s : State} (h : Held s0 s) :
    Held s0 (State.dropClassified id s) := by
  unfold State.dropClassified
  repeat' first
    | with_reducible assumption | intro _ | with_reducible apply Held.ite | with_reducible apply State.count_held
    | with_reducible apply State.forgetAct_held | with_reducible apply State.freeFrame_held
    | with_reducible apply State.noteAct_held

theorem State.dropClassifier_held {s0 : State} {s : State} (h : Held s0 s) :
    Held s0 (State.dropClassifier s) := by
  unfold State.dropClassifier
  repeat' first
    | with_reducible assumption | intro _ | with_reducible apply Held.ite
    | with_reducible apply State.dropClassified_held | with_reducible apply State.modCls_held
    | with_reducible apply Held.foldl | split

theorem State.clipTokens_held {s0 : State} {s : State} (h : Held s0 s) :
    Held s0 (State.clipTokens s) := by
  unfold State.clipTokens
  repeat' first
    | with_reducible assumption | intro _ | with_reducible apply Held.ite | with_reducible apply State.countBy_held
    | with_reducible apply State.putTw_held | with_reducible apply Held.foldl | split

theorem State.dropHands_held {s0 : State} (ok : Nat → Bool) {s : State} (h : Held s0 s) :
    Held s0 (State.dropHands ok s) := by
  unfold State.dropHands
  repeat' first
    | with_reducible assumption | intro _ | with_reducible apply Held.ite | with_reducible apply State.endCopy_held
    | with_reducible apply State.putSending_held | with_reducible apply Held.foldl | split

theorem State.modLink_held {s0 : State} (k : Nat) (f : LinkSt → LinkSt) {s : State} (h : Held s0 s) :
    Held s0 (State.modLink k f s) := by
  unfold State.modLink
  repeat' first | with_reducible exact h | with_reducible apply State.modRel_held

theorem State.grantCredits_held {s0 : State} (l : Nat) {s : State} (h : Held s0 s) :
    Held s0 (State.grantCredits l s) := by
  unfold State.grantCredits
  repeat' first
    | with_reducible assumption | intro _ | with_reducible apply Held.ite | with_reducible apply State.modLink_held
    | with_reducible apply State.putEntry_held | with_reducible apply State.useFree_held
    | with_reducible apply Held.foldl | split

theorem State.keysLost_held {s0 : State} {s : State} (h : Held s0 s) :
    Held s0 (State.keysLost s) := by
  unfold State.keysLost
  repeat' first | with_reducible exact h | with_reducible apply State.setFld_held

theorem State.quarAgain_held {s0 : State} (t : Tree) {s : State} (h : Held s0 s) :
    Held s0 (State.quarAgain t s) := by
  unfold State.quarAgain
  repeat' first
    | with_reducible assumption | intro _ | with_reducible apply Held.ite | with_reducible apply State.setFld_held

theorem State.refuseEntry_held {s0 : State} (d : Nat) (page : Nat) (reason : Nat) {s : State} (h : Held s0 s) :
    Held s0 (State.refuseEntry d page reason s) := by
  unfold State.refuseEntry
  repeat' first
    | with_reducible exact h | with_reducible apply State.count_held | with_reducible apply State.raiseMs_held
    | with_reducible apply State.setFld_held

theorem State.domainWake_held {s0 : State} (d : Nat) (src : Nat) {s : State} (h : Held s0 s) :
    Held s0 (State.domainWake d src s) := by
  unfold State.domainWake
  repeat' first
    | with_reducible assumption | intro _ | with_reducible apply Held.ite | with_reducible apply State.count_held
    | with_reducible apply State.iff_held | with_reducible apply State.modKeep_held
    | with_reducible apply State.raiseMs_held | with_reducible apply State.refuseEntry_held
    | with_reducible apply State.setDomState_held | with_reducible apply State.setFld_held
    | with_reducible apply State.setRegion_held

theorem State.wakeDomain_held {s0 : State} (d : Nat) (src : Nat) {s : State} (h : Held s0 s) :
    Held s0 (State.wakeDomain d src s) := by
  unfold State.wakeDomain
  repeat' first
    | with_reducible assumption | intro _ | with_reducible apply Held.ite | with_reducible apply State.domainWake_held

theorem State.genStart_held {s0 : State} (l : Nat) {s : State} (h : Held s0 s) :
    Held s0 (State.genStart l s) := by
  unfold State.genStart
  repeat' first
    | with_reducible assumption | intro _ | with_reducible apply Held.ite | with_reducible apply State.emit_held
    | with_reducible apply State.useFree_held

theorem State.dispatchPath_held {s0 : State} (sym : Bool) {s : State} (h : Held s0 s) :
    Held s0 (State.dispatchPath sym s) := by
  unfold State.dispatchPath
  repeat' first
    | with_reducible assumption | intro _ | with_reducible apply Held.ite | with_reducible apply State.count_held
    | with_reducible apply State.raiseMs_held | with_reducible apply State.setJobState_held
    | with_reducible apply State.stopJob_held | with_reducible apply Held.foldl | split

theorem State.dispatchJobs_held {s0 : State} {s : State} (h : Held s0 s) :
    Held s0 (State.dispatchJobs s) := by
  unfold State.dispatchJobs
  repeat' first
    | with_reducible assumption | intro _ | with_reducible apply Held.ite
    | with_reducible apply State.dispatchPath_held

theorem State.startFrozen_held {s0 : State} (t : Tree) {s : State} (h : Held s0 s) :
    Held s0 (State.startFrozen t s) := by
  unfold State.startFrozen
  repeat' first
    | with_reducible exact h | with_reducible apply State.iff_held | with_reducible apply State.setFld_held

theorem State.txAgain_held {s0 : State} (t : Tree) {s : State} (h : Held s0 s) :
    Held s0 (State.txAgain t s) := by
  unfold State.txAgain
  repeat' first
    | with_reducible exact h | with_reducible apply State.setFld_held | with_reducible apply State.showForce_held
    | with_reducible apply State.txBegin_held

theorem State.pageRestart_held {s0 : State} (p : Nat) {s : State} (h : Held s0 s) :
    Held s0 (State.pageRestart p s) := by
  unfold State.pageRestart
  repeat' first
    | with_reducible assumption | intro _ | with_reducible apply Held.ite
    | with_reducible apply State.framersMoved_held | with_reducible apply State.frmRestart_held
    | with_reducible apply State.halJudge_held | with_reducible apply State.halLevelRestored_held
    | with_reducible apply State.iff_held | with_reducible apply State.launchRestored_held
    | with_reducible apply State.quarAgain_held | with_reducible apply State.rxBegin_held
    | with_reducible apply State.showTick_held | with_reducible apply State.txAgain_held
    | with_reducible apply Held.foldl | split

theorem State.regionStart_held {s0 : State} (r : Nat) {s : State} (h : Held s0 s) :
    Held s0 (State.regionStart r s) := by
  unfold State.regionStart
  repeat' first
    | with_reducible assumption | intro _ | with_reducible apply Held.ite
    | with_reducible apply State.pageRestart_held | with_reducible apply State.refreshPorts_held
    | with_reducible apply State.startFrozen_held | with_reducible apply Held.foldl | split

theorem State.settleRegion_held {s0 : State} (r : Nat) {s : State} (h : Held s0 s) :
    Held s0 (State.settleRegion r s) := by
  unfold State.settleRegion
  repeat' first
    | with_reducible exact h | with_reducible apply State.iff_held | with_reducible apply State.regionStart_held
    | with_reducible apply State.setRegion_held

theorem State.portConfig_held {s0 : State} (p : Nat) (acc : Access) {s : State} (h : Held s0 s) :
    Held s0 (State.portConfig p acc s) := by
  unfold State.portConfig
  repeat' first
    | with_reducible assumption | intro _ | with_reducible apply Held.ite | with_reducible apply State.iff_held
    | with_reducible apply State.ignored_held | with_reducible apply State.putReg_held
    | with_reducible apply State.raise_held | with_reducible apply State.refreshPorts_held
    | with_reducible apply Held.foldl | split | with_reducible apply Held.id | dsimp only

theorem State.emitError_held {s0 : State} (l : Nat) (every : Nat) {s : State} (h : Held s0 s) :
    Held s0 (State.emitError l every s) := by
  unfold State.emitError
  repeat' first | with_reducible exact h | with_reducible apply State.emit_held

theorem State.jobError_held {s0 : State} (k : Nat) (code : Nat) {s : State} (h : Held s0 s) :
    Held s0 (State.jobError k code s) := by
  unfold State.jobError
  repeat' first
    | with_reducible exact h | with_reducible apply State.count_held | with_reducible apply State.iff_held
    | with_reducible apply State.raise_held | with_reducible apply State.routeEvent_held
    | with_reducible apply State.setJobState_held | with_reducible apply State.setTf_held

theorem State.takeAad_held {s0 : State} (k : Nat) {s : State} (h : Held s0 s) :
    Held s0 (State.takeAad k s) := by
  unfold State.takeAad
  repeat' first
    | with_reducible assumption | intro _ | with_reducible apply Held.ite | with_reducible apply State.putJob_held

theorem State.ccryStart_held {s0 : State} (k : Nat) {s : State} (h : Held s0 s) :
    Held s0 (State.ccryStart k s) := by
  unfold State.ccryStart
  repeat' first
    | with_reducible assumption | intro _ | with_reducible apply Held.ite
    | with_reducible apply State.dispatchJobs_held | with_reducible apply State.jobError_held
    | with_reducible apply State.putJob_held | with_reducible apply State.putTw_held
    | with_reducible apply State.setJobState_held | with_reducible apply State.setTf_held
    | with_reducible apply State.takeAad_held | with_reducible apply State.useFree_held
    | with_reducible apply Held.foldl | split

theorem State.ccryAbort_held {s0 : State} (k : Nat) {s : State} (h : Held s0 s) :
    Held s0 (State.ccryAbort k s) := by
  unfold State.ccryAbort
  repeat' first
    | with_reducible assumption | intro _ | with_reducible apply Held.ite
    | with_reducible apply State.dispatchJobs_held | with_reducible apply State.jobError_held

theorem State.exportRefused_held {s0 : State} (k : Nat) (code : Nat) {s : State} (h : Held s0 s) :
    Held s0 (State.exportRefused k code s) := by
  unfold State.exportRefused
  repeat' first
    | with_reducible exact h | with_reducible apply State.raise_held | with_reducible apply State.setTf_held

theorem State.ccryExport_held {s0 : State} (k : Nat) (wrapped : Bool) {s : State} (h : Held s0 s) :
    Held s0 (State.ccryExport k wrapped s) := by
  unfold State.ccryExport
  repeat' first
    | with_reducible assumption | intro _ | with_reducible apply Held.ite | with_reducible apply State.count_held
    | with_reducible apply State.exportRefused_held | with_reducible apply State.putSram_held

theorem State.ccryImport_held {s0 : State} (k : Nat) {s : State} (h : Held s0 s) :
    Held s0 (State.ccryImport k s) := by
  unfold State.ccryImport
  repeat' first
    | with_reducible assumption | intro _ | with_reducible apply Held.ite | with_reducible apply State.count_held
    | with_reducible apply State.jobError_held | with_reducible apply State.putJob_held
    | with_reducible apply State.putTw_held | with_reducible apply State.setJobState_held
    | with_reducible apply State.setTf_held | with_reducible apply Held.foldl | split | with_reducible apply Held.id
    | dsimp only

theorem State.auditResult_held {s0 : State} (k : Nat) (delta : Int) {s : State} (h : Held s0 s) :
    Held s0 (State.auditResult k delta s) := by
  unfold State.auditResult
  repeat' first
    | with_reducible assumption | intro _ | with_reducible apply Held.ite | with_reducible apply State.modSto_held
    | with_reducible apply State.raise_held | with_reducible apply State.setFld_held
    | with_reducible apply State.setSFld_held

theorem State.auditLink_held {s0 : State} (l : Nat) {s : State} (h : Held s0 s) :
    Held s0 (State.auditLink l s) := by
  unfold State.auditLink
  repeat' first
    | with_reducible assumption | intro _ | with_reducible apply Held.ite
    | with_reducible apply State.auditResult_held | with_reducible apply State.count_held
    | with_reducible apply State.grantCredits_held | with_reducible apply State.modSto_held
    | with_reducible apply State.raise_held | with_reducible apply State.setFld_held

theorem State.auditEval_held {s0 : State} {s : State} (h : Held s0 s) :
    Held s0 (State.auditEval s) := by
  unfold State.auditEval
  repeat' first
    | with_reducible assumption | intro _ | with_reducible apply Held.ite | with_reducible apply State.auditLink_held
    | with_reducible apply State.auditResult_held | with_reducible apply Held.foldl | split

theorem State.jobDone_held {s0 : State} (k : Nat) {s : State} (h : Held s0 s) :
    Held s0 (State.jobDone k s) := by
  unfold State.jobDone
  repeat' first
    | with_reducible exact h | with_reducible apply State.count_held | with_reducible apply State.raise_held
    | with_reducible apply State.routeEvent_held | with_reducible apply State.setJobState_held

theorem State.finishJob_held {s0 : State} (k : Nat) {s : State} (h : Held s0 s) :
    Held s0 (State.finishJob k s) := by
  unfold State.finishJob
  repeat' first
    | with_reducible assumption | intro _ | with_reducible apply Held.ite | with_reducible apply State.jobDone_held
    | with_reducible apply State.jobError_held | with_reducible apply State.putSram_held
    | with_reducible apply Held.foldl | split | with_reducible apply Held.id | dsimp only

theorem State.finishWhole_held {s0 : State} (k : Nat) {s : State} (h : Held s0 s) :
    Held s0 (State.finishWhole k s) := by
  unfold State.finishWhole
  repeat' first
    | with_reducible assumption | intro _ | with_reducible apply Held.ite | with_reducible apply State.countBy_held
    | with_reducible apply State.jobDone_held | with_reducible apply State.jobError_held
    | with_reducible apply State.putKeyPair_held | with_reducible apply State.putSram_held
    | with_reducible apply State.putTw_held | with_reducible apply State.randomBytes_held
    | with_reducible apply Held.foldl | split | with_reducible apply Held.id | dsimp only

theorem State.ccryDone_held {s0 : State} (k : Nat) {s : State} (h : Held s0 s) :
    Held s0 (State.ccryDone k s) := by
  unfold State.ccryDone
  repeat' first
    | with_reducible assumption | intro _ | with_reducible apply Held.ite
    | with_reducible apply State.dispatchJobs_held | with_reducible apply State.feed_held
    | with_reducible apply State.finishJob_held | with_reducible apply State.finishWhole_held
    | with_reducible apply State.setJobState_held

theorem State.regionAfter_held {s0 : State} (r : Nat) {s : State} (h : Held s0 s) :
    Held s0 (State.regionAfter r s) := by
  unfold State.regionAfter
  repeat' first
    | with_reducible assumption | intro _ | with_reducible apply Held.ite | with_reducible apply State.clkJudge_held
    | with_reducible apply State.clkLose_held | with_reducible apply State.dualJudge_held
    | with_reducible apply State.keysLost_held | with_reducible apply State.pmMarkAll_held
    | with_reducible apply State.refreshPorts_held | with_reducible apply State.setFld_held
    | with_reducible apply State.setTimeValid_held | with_reducible apply State.showKeystore_held
    | with_reducible apply State.showTier_held | with_reducible apply Held.foldl | split

theorem State.wipeStore_held {s0 : State} {s : State} (h : Held s0 s) :
    Held s0 (State.wipeStore s) := by
  unfold State.wipeStore
  repeat' first
    | with_reducible exact h | with_reducible apply State.modSto_held | with_reducible apply State.setFld_held

theorem State.wipeBlk_held {s0 : State} (b : Blk) (i : Nat) {s : State} (h : Held s0 s) :
    Held s0 (State.wipeBlk b i s) := by
  unfold State.wipeBlk
  repeat' first
    | with_reducible assumption | intro _ | with_reducible apply Held.ite | with_reducible apply State.modActs_held
    | with_reducible apply State.modCcry_held | with_reducible apply State.modCls_held
    | with_reducible apply State.modCore_held | with_reducible apply State.modDma_held
    | with_reducible apply State.modDual_held | with_reducible apply State.modFlow_held
    | with_reducible apply State.modFlsh_held | with_reducible apply State.modFrms_held
    | with_reducible apply State.modFront_held | with_reducible apply State.modGrts_held
    | with_reducible apply State.modHals_held | with_reducible apply State.modHif_held
    | with_reducible apply State.modLehr_held | with_reducible apply State.modLsec_held
    | with_reducible apply State.modPm_held | with_reducible apply State.modPol_held
    | with_reducible apply State.modRxs_held | with_reducible apply State.modSnap_held
    | with_reducible apply State.modSto_held | with_reducible apply State.modTime_held
    | with_reducible apply State.modTsk_held | with_reducible apply State.modTxs_held
    | with_reducible apply State.modUni_held | with_reducible apply State.modUsch_held
    | with_reducible apply State.modXtr_held | with_reducible apply State.wipeStore_held
    | with_reducible apply Held.foldl | split

theorem State.wipePage_held {s0 : State} (p : Nat) {s : State} (h : Held s0 s) :
    Held s0 (State.wipePage p s) := by
  unfold State.wipePage
  repeat' first
    | with_reducible assumption | intro _ | with_reducible apply Held.ite | with_reducible apply State.clipTokens_held
    | with_reducible apply State.iff_held | with_reducible apply State.modFront_held
    | with_reducible apply State.modRf_held | with_reducible apply State.modTables_held
    | with_reducible apply State.modWins_held | with_reducible apply State.putPennant_held
    | with_reducible apply State.resetTables_held | with_reducible apply State.setFld_held
    | with_reducible apply State.wipeBlk_held | with_reducible apply Held.foldl | split
    | (refine (?_ : Sparse.wf _ _ = true); assumption) | exact Sparse.wf_filter _ _ _ (by assumption)
    | exact Sparse.wf_put _ _ _ _ (by assumption) | (refine (?_ : _ < counterMod _); apply_assumption)
    | with_reducible apply Held.id | dsimp only

theorem State.wipeWindows_held {s0 : State} {s : State} (h : Held s0 s) :
    Held s0 (State.wipeWindows s) := by
  unfold State.wipeWindows
  repeat' first
    | with_reducible assumption | intro _ | with_reducible apply Held.ite | with_reducible apply State.modRf_held
    | with_reducible apply Held.foldl | split | (refine (?_ : Sparse.wf _ _ = true); assumption)
    | exact Sparse.wf_filter _ _ _ (by assumption) | exact Sparse.wf_put _ _ _ _ (by assumption)
    | (refine (?_ : _ < counterMod _); apply_assumption) | with_reducible apply Held.id | dsimp only

theorem State.regionWipe_held {s0 : State} (r : Nat) {s : State} (h : Held s0 s) :
    Held s0 (State.regionWipe r s) := by
  unfold State.regionWipe
  repeat' first
    | with_reducible assumption | intro _ | with_reducible apply Held.ite | with_reducible apply State.iff_held
    | with_reducible apply State.modTables_held | with_reducible apply State.putReg_held
    | with_reducible apply State.wipePage_held | with_reducible apply State.wipeWindows_held
    | with_reducible apply Held.foldl | split | (refine (?_ : Sparse.wf _ _ = true); assumption)
    | exact Sparse.wf_filter _ _ _ (by assumption) | exact Sparse.wf_put _ _ _ _ (by assumption)
    | (refine (?_ : _ < counterMod _); apply_assumption) | with_reducible apply Held.id | dsimp only

theorem State.setPrbs_held {s0 : State} (l : Nat) (on : Bool) {s : State} (h : Held s0 s) :
    Held s0 (State.setPrbs l on s) := by
  unfold State.setPrbs
  repeat' first
    | with_reducible exact h | with_reducible apply State.setFld_held | with_reducible apply State.setTf_held

theorem State.crComplete_held {s0 : State} (k : Nat) (bytes : Bytes) {s : State} (h : Held s0 s) :
    Held s0 (State.crComplete k bytes s) := by
  unfold State.crComplete
  repeat' first
    | with_reducible assumption | intro _ | with_reducible apply State.modCore_held
    | with_reducible apply State.putSram_held

theorem State.crAdvance_held {s0 : State} (k : Nat) (n : Nat) {s : State} (h : Held s0 s) :
    Held s0 (State.crAdvance k n s) := by
  unfold State.crAdvance
  repeat' first | with_reducible exact h | with_reducible apply State.setTf_held

theorem State.countPair_held {s0 : State} (q : Nat) (len : Nat) {s : State} (h : Held s0 s) :
    Held s0 (State.countPair q len s) := by
  unfold State.countPair
  repeat' first
    | with_reducible exact h | with_reducible apply State.count_held | with_reducible apply State.countBy_held

theorem State.crFill_held {s0 : State} (k : Nat) (buf : Nat) (x3 : Nat) (x4 : Nat) (x5 : Bytes) {s : State} (h :
    Held s0 s) :
       Held s0 (State.crFill k buf x3 x4 x5 s) := by
  induction x3 generalizing x4 x5 s with
  | zero => exact h
  | succ n ih =>
    unfold State.crFill
    repeat' first | with_reducible exact h | with_reducible apply ih | with_reducible apply State.putSram_held

theorem State.crReceive_held {s0 : State} (k : Nat) (bs : Bytes) (cls : Nat) (service : Nat) (sample : Bool) (hash :
    Nat) (action : Nat) {s : State} (h : Held s0 s) :
       Held s0 (State.crReceive k bs cls service sample hash action s) := by
  unfold State.crReceive
  repeat' first
    | with_reducible exact h | with_reducible apply State.crAdvance_held | with_reducible apply State.crComplete_held
    | with_reducible apply State.crFill_held

theorem State.debitNode_held {s0 : State} (q : Nat) (n : Nat) {s : State} (h : Held s0 s) :
    Held s0 (State.debitNode q n s) := by
  unfold State.debitNode
  repeat' first
    | with_reducible assumption | intro _ | with_reducible apply State.iff_held
    | with_reducible apply State.modSto_held

theorem State.showHeadAge_held {s0 : State} (q : Nat) {s : State} (h : Held s0 s) :
    Held s0 (State.showHeadAge q s) := by
  unfold State.showHeadAge
  repeat' first | with_reducible exact h | with_reducible apply State.setTf_held

theorem State.downAge_held {s0 : State} (q : Nat) (x2 : Nat) {s : State} (h : Held s0 s) :
    Held s0 (State.downAge q x2 s) := by
  induction x2 generalizing  s with
  | zero => exact h
  | succ n ih =>
    unfold State.downAge
    repeat' first
      | with_reducible assumption | with_reducible apply ih | intro _ | with_reducible apply Held.ite
      | with_reducible apply State.ageDiscard_held | with_reducible apply Held.foldl | split

theorem State.examineDown_held {s0 : State} (q : Nat) {s : State} (h : Held s0 s) :
    Held s0 (State.examineDown q s) := by
  unfold State.examineDown
  repeat' first
    | with_reducible exact h | with_reducible apply State.downAge_held | with_reducible apply State.showHeadAge_held

theorem State.pauseTurn_held {s0 : State} (p : Nat) {s : State} (h : Held s0 s) :
    Held s0 (State.pauseTurn p s) := by
  unfold State.pauseTurn
  repeat' first
    | with_reducible exact h | with_reducible apply State.iff_held | with_reducible apply State.pauseSend_held

theorem State.starveJudge_held {s0 : State} (q : Nat) {s : State} (h : Held s0 s) :
    Held s0 (State.starveJudge q s) := by
  unfold State.starveJudge
  repeat' first
    | with_reducible assumption | intro _ | with_reducible apply Held.ite | with_reducible apply State.count_held
    | with_reducible apply State.raiseMs_held | with_reducible apply State.setStarved_held
    | with_reducible apply Held.foldl | split

theorem State.pin_held {s0 : State} (p : Nat) (qs : List Nat) {s : State} (h : Held s0 s) :
    Held s0 (State.pin p qs s) := by
  unfold State.pin
  repeat' first | with_reducible exact h | with_reducible apply State.modSto_held

theorem State.takeHead_held {s0 : State} (q : Nat) (c : Copy) {s : State} (h : Held s0 s) :
    Held s0 (State.takeHead q c s) := by
  unfold State.takeHead
  repeat' first
    | with_reducible exact h | with_reducible apply State.debitNode_held | with_reducible apply State.unlinkCopy_held

theorem State.pickDown_held {s0 : State} (p : Nat) (ok : Nat → Bool) {s : State} (h : Held s0 s) :
    Held s0 (State.pickDown p ok s).1 := by
  unfold State.pickDown
  repeat' first
    | with_reducible assumption | intro _ | with_reducible apply Held.ite | with_reducible apply Held.ite_fst
    | with_reducible apply State.modSto_held | with_reducible apply Held.foldl | split | with_reducible apply Held.id
    | dsimp only

theorem State.launchStart_held {s0 : State} (p : Nat) (tag : Option Nat) {s : State} (h : Held s0 s) :
    Held s0 (State.launchStart p tag s) := by
  unfold State.launchStart
  repeat' first
    | with_reducible assumption | intro _ | with_reducible apply Held.ite | with_reducible apply State.count_held
    | with_reducible apply State.modTime_held | with_reducible apply State.raiseMs_held
    | with_reducible apply State.setTf_held | with_reducible apply Held.foldl | split

theorem State.startUni_held {s0 : State} (p : Nat) (c : Copy) {s : State} (h : Held s0 s) :
    Held s0 (State.startUni p c s) := by
  unfold State.startUni
  repeat' first
    | with_reducible exact h | with_reducible apply State.count_held | with_reducible apply State.iff_held
    | with_reducible apply State.launchStart_held | with_reducible apply State.modSto_held
    | with_reducible apply State.ptpEgress_held | with_reducible apply State.putSending_held

theorem State.serveDown_held {s0 : State} (p : Nat) (ok : Nat → Bool) (x3 : Nat) {s : State} (h : Held s0 s) :
    Held s0 (State.serveDown p ok x3 s) := by
  induction x3 generalizing  s with
  | zero => exact h
  | succ n ih =>
    unfold State.serveDown
    repeat' first
      | with_reducible assumption | with_reducible apply ih | intro _ | with_reducible apply Held.ite
      | with_reducible apply State.endCopy_held | with_reducible apply State.pickDown_held
      | with_reducible apply State.pin_held | with_reducible apply State.putSending_held
      | with_reducible apply State.showHeadAge_held | with_reducible apply State.startUni_held
      | with_reducible apply State.takeHead_held | with_reducible apply Held.foldl | split
      | with_reducible apply Held.id | dsimp only

theorem State.servePort_held {s0 : State} (p : Nat) (n : Nat) {s : State} (h : Held s0 s) :
    Held s0 (State.servePort p n s) := by
  unfold State.servePort
  repeat' first
    | with_reducible assumption | intro _ | with_reducible apply Held.ite | with_reducible apply State.pin_held
    | with_reducible apply State.serveDown_held | with_reducible apply Held.foldl | split
    | with_reducible apply Held.id | dsimp only

theorem State.selectPort_held {s0 : State} (p : Nat) {s : State} (h : Held s0 s) :
    Held s0 (State.selectPort p s) := by
  unfold State.selectPort
  repeat' first
    | with_reducible assumption | intro _ | with_reducible apply Held.ite
    | with_reducible apply State.examineDown_held | with_reducible apply State.pauseTurn_held
    | with_reducible apply State.servePort_held | with_reducible apply State.starveJudge_held
    | with_reducible apply Held.foldl | split

theorem State.fillBufs_held {s0 : State} (f : Nat) (buf : Nat) (x3 : List Nat) (x4 : Bytes) {s : State} (h : Held s0
    s) :
       Held s0 (State.fillBufs f buf x3 x4 s) := by
  induction x3 generalizing x4 s with
  | nil => exact h
  | cons x l ih =>
    unfold State.fillBufs
    repeat' first
      | with_reducible assumption | with_reducible apply ih | intro _ | with_reducible apply Held.ite
      | with_reducible apply State.emit_held

theorem State.fetchDescs_held {s0 : State} (f : Nat) (rx : Bool) (k : Nat) (n : Nat) {s : State} (h : Held s0 s) :
    Held s0 (State.fetchDescs f rx k n s) := by
  unfold State.fetchDescs
  repeat' first
    | with_reducible assumption | intro _ | with_reducible apply State.emit_held | with_reducible apply State.iff_held

theorem State.hostReceive_held {s0 : State} (f : Nat) (hash : Nat) (bufs : List Bytes) (bs : Bytes) (cls : Nat)
    (service : Nat) (sample : Bool) (action : Nat) {s : State} (h : Held s0 s) :
       Held s0 (State.hostReceive f hash bufs bs cls service sample action s) := by
  unfold State.hostReceive
  repeat' first
    | with_reducible exact h | with_reducible apply State.count_held | with_reducible apply State.countBy_held
    | with_reducible apply State.fetchDescs_held | with_reducible apply State.fillBufs_held
    | with_reducible apply State.ringAdvance_held | with_reducible apply State.ringComplete_held
    | with_reducible apply State.ringVector_held

theorem State.hostWritten_held {s0 : State} (f : Nat) (cls : Nat) (bufs : List Bytes) (c : Copy) {s : State} (h :
    Held s0 s) :
       Held s0 (State.hostWritten f cls bufs c s) := by
  unfold State.hostWritten
  repeat' first
    | with_reducible exact h | with_reducible apply State.count_held | with_reducible apply State.countBy_held
    | with_reducible apply State.countPair_held | with_reducible apply State.hostReceive_held
    | with_reducible apply State.releaseRef_held

theorem State.dmaRxWrite_held {s0 : State} (f : Nat) (cls : Nat) (bufs : List Bytes) {s : State} (h : Held s0 s) :
    Held s0 (State.dmaRxWrite f cls bufs s) := by
  unfold State.dmaRxWrite
  repeat' first
    | with_reducible assumption | intro _ | with_reducible apply Held.ite | with_reducible apply State.endCopy_held
    | with_reducible apply State.examineDown_held | with_reducible apply State.hostWritten_held
    | with_reducible apply State.iff_held | with_reducible apply State.putSending_held
    | with_reducible apply State.selectPort_held | with_reducible apply State.starveJudge_held
    | with_reducible apply Held.foldl | split | with_reducible apply Held.id | dsimp only

theorem State.flushUnits_held {s0 : State} (d : Nat) {s : State} (h : Held s0 s) :
    Held s0 (State.flushUnits d s) := by
  unfold State.flushUnits
  repeat' first
    | with_reducible assumption | intro _ | with_reducible apply Held.ite | with_reducible apply State.modCnt_held
    | with_reducible apply Held.foldl | split

theorem State.wipeLanes_held {s0 : State} (q : Nat) {s : State} (h : Held s0 s) :
    Held s0 (State.wipeLanes q s) := by
  unfold State.wipeLanes
  repeat' first
    | with_reducible assumption | intro _ | with_reducible apply Held.ite | with_reducible apply State.modUni_held
    | with_reducible apply State.putTw_held | with_reducible apply State.setFld_held | with_reducible apply Held.foldl
    | split

theorem State.domainOff_held {s0 : State} (d : Nat) {s : State} (h : Held s0 s) :
    Held s0 (State.domainOff d s) := by
  unfold State.domainOff
  repeat' first
    | with_reducible assumption | intro _ | with_reducible apply Held.ite | with_reducible apply State.flushUnits_held
    | with_reducible apply State.iff_held | with_reducible apply State.modKeep_held
    | with_reducible apply State.setDomState_held | with_reducible apply State.wipeLanes_held
    | with_reducible apply State.wipePage_held | with_reducible apply Held.foldl | split

theorem State.wipeLaneHeader_held {s0 : State} {s : State} (h : Held s0 s) :
    Held s0 (State.wipeLaneHeader s) := by
  unfold State.wipeLaneHeader
  repeat' first
    | with_reducible assumption | intro _ | with_reducible apply Held.ite | with_reducible apply State.putReg_held
    | with_reducible apply Held.foldl | split

theorem State.writeImage_held {s0 : State} (a : SaveArea) {s : State} (h : Held s0 s) :
    Held s0 (State.writeImage a s) := by
  unfold State.writeImage
  repeat' first
    | with_reducible assumption | intro _ | with_reducible apply Held.ite | with_reducible apply State.modTables_held
    | with_reducible apply State.putReg_held | with_reducible apply Held.foldl | split
    | (refine (?_ : Sparse.wf _ _ = true); assumption) | exact Sparse.wf_filter _ _ _ (by assumption)
    | exact Sparse.wf_put _ _ _ _ (by assumption) | (refine (?_ : _ < counterMod _); apply_assumption)
    | with_reducible apply Held.id | dsimp only

theorem State.restoreOff_held {s0 : State} (d : Nat) {s : State} (h : Held s0 s) :
    Held s0 (State.restoreOff d s) := by
  unfold State.restoreOff
  repeat' first
    | with_reducible assumption | intro _ | with_reducible apply Held.ite | with_reducible apply State.count_held
    | with_reducible apply State.iff_held | with_reducible apply State.raise_held
    | with_reducible apply State.wipeLaneHeader_held | with_reducible apply State.writeImage_held
    | with_reducible apply Held.foldl | split

theorem State.reloadUnits_held {s0 : State} (d : Nat) {s : State} (h : Held s0 s) :
    Held s0 (State.reloadUnits d s) := by
  unfold State.reloadUnits
  repeat' first
    | with_reducible assumption | intro _ | with_reducible apply Held.ite | with_reducible apply State.modCnt_held
    | with_reducible apply Held.foldl | split

theorem State.domainRestored_held {s0 : State} (d : Nat) {s : State} (h : Held s0 s) :
    Held s0 (State.domainRestored d s) := by
  unfold State.domainRestored
  repeat' first
    | with_reducible assumption | intro _ | with_reducible apply Held.ite | with_reducible apply State.iff_held
    | with_reducible apply State.modKeep_held | with_reducible apply State.pageRestart_held
    | with_reducible apply State.raiseMs_held | with_reducible apply State.refreshPorts_held
    | with_reducible apply State.reloadUnits_held | with_reducible apply State.restoreOff_held
    | with_reducible apply State.setDomState_held | with_reducible apply Held.foldl | split

theorem State.domainRetain_held {s0 : State} (d : Nat) {s : State} (h : Held s0 s) :
    Held s0 (State.domainRetain d s) := by
  unfold State.domainRetain
  repeat' first
    | with_reducible exact h | with_reducible apply State.flushUnits_held
    | with_reducible apply State.setDomState_held

theorem State.dropHost_held {s0 : State} {s : State} (h : Held s0 s) :
    Held s0 (State.dropHost s) := by
  unfold State.dropHost
  repeat' first
    | with_reducible assumption | intro _ | with_reducible apply Held.ite | with_reducible apply State.abortJob_held
    | with_reducible apply State.cxlDown_held | with_reducible apply State.dropHands_held
    | with_reducible apply State.iff_held | with_reducible apply Held.foldl | split

theorem State.dropLineWork_held {s0 : State} (t : Tree) {s : State} (h : Held s0 s) :
    Held s0 (State.dropLineWork t s) := by
  unfold State.dropLineWork
  repeat' first
    | with_reducible assumption | intro _ | with_reducible apply Held.ite
    | with_reducible apply State.suppressLate_held | with_reducible apply State.truncate_held
    | with_reducible apply Held.foldl | split

theorem State.dropUp_held {s0 : State} (ok : Nat → Bool) {s : State} (h : Held s0 s) :
    Held s0 (State.dropUp ok s) := by
  unfold State.dropUp
  repeat' first
    | with_reducible assumption | intro _ | with_reducible apply Held.ite | with_reducible apply State.endCopy_held
    | with_reducible apply State.releaseTier_held | with_reducible apply State.unlinkCopy_held
    | with_reducible apply Held.foldl | split

theorem State.flushQueues_held {s0 : State} (ok : Nat → Bool) {s : State} (h : Held s0 s) :
    Held s0 (State.flushQueues ok s) := by
  unfold State.flushQueues
  repeat' first
    | with_reducible assumption | intro _ | with_reducible apply Held.ite
    | with_reducible apply State.dropWaiting_held | with_reducible apply State.endCopy_held
    | with_reducible apply State.putSending_held | with_reducible apply State.setStarved_held
    | with_reducible apply State.showHeadAge_held | with_reducible apply State.unlinkCopy_held
    | with_reducible apply Held.foldl | split

theorem State.dropSwitch_held {s0 : State} {s : State} (h : Held s0 s) :
    Held s0 (State.dropSwitch s) := by
  unfold State.dropSwitch
  repeat' first
    | with_reducible exact h | with_reducible apply State.dropClassifier_held
    | with_reducible apply State.dropDual_held | with_reducible apply State.dropUp_held
    | with_reducible apply State.dropWaiting_held | with_reducible apply State.flushQueues_held

theorem State.dropWork_held {s0 : State} (r : Nat) {s : State} (h : Held s0 s) :
    Held s0 (State.dropWork r s) := by
  unfold State.dropWork
  repeat' first
    | with_reducible assumption | intro _ | with_reducible apply Held.ite | with_reducible apply State.dropHost_held
    | with_reducible apply State.dropLineWork_held | with_reducible apply State.dropStore_held
    | with_reducible apply State.dropSwitch_held | with_reducible apply State.linkFall_held
    | with_reducible apply State.loseRecords_held | with_reducible apply Held.foldl | split

theorem State.selectCores_held {s0 : State} {s : State} (h : Held s0 s) :
    Held s0 (State.selectCores s) := by
  unfold State.selectCores
  repeat' first
    | with_reducible assumption | intro _ | with_reducible apply Held.ite | with_reducible apply State.count_held
    | with_reducible apply State.countBy_held | with_reducible apply State.crReceive_held
    | with_reducible apply State.endCopy_held | with_reducible apply State.examineDown_held
    | with_reducible apply State.releaseRef_held | with_reducible apply State.routeEvent_held
    | with_reducible apply State.setStarved_held | with_reducible apply State.showHeadAge_held
    | with_reducible apply State.unlinkCopy_held | with_reducible apply Held.foldl | split
    | with_reducible apply Held.id | dsimp only

theorem State.dschSelect_held {s0 : State} (p : Nat) {s : State} (h : Held s0 s) :
    Held s0 (State.dschSelect p s) := by
  unfold State.dschSelect
  repeat' first
    | with_reducible assumption | intro _ | with_reducible apply Held.ite
    | with_reducible apply State.selectCores_held | with_reducible apply State.selectPort_held

theorem State.shedRegion_held {s0 : State} (t : Tree) {s : State} (h : Held s0 s) :
    Held s0 (State.shedRegion t s) := by
  unfold State.shedRegion
  repeat' first
    | with_reducible assumption | intro _ | with_reducible apply Held.ite | with_reducible apply State.clkLose_held
    | with_reducible apply State.count_held | with_reducible apply State.domainOff_held
    | with_reducible apply State.dropLineWork_held | with_reducible apply State.raise_held
    | with_reducible apply State.setFld_held | with_reducible apply State.setRegion_held
    | with_reducible apply Held.foldl | split

theorem State.portFlush_held {s0 : State} (port : Nat) {s : State} (h : Held s0 s) :
    Held s0 (State.portFlush port s) := by
  unfold State.portFlush
  repeat' first
    | with_reducible assumption | intro _ | with_reducible apply Held.ite
    | with_reducible apply State.flushQueues_held | with_reducible apply State.raise_held

theorem State.laneAdapt_held {s0 : State} (l : Nat) {s : State} (h : Held s0 s) :
    Held s0 (State.laneAdapt l s) := by
  unfold State.laneAdapt
  repeat' first
    | with_reducible assumption | intro _ | with_reducible apply Held.ite | with_reducible apply State.iff_held
    | with_reducible apply State.modUni_held | with_reducible apply State.setAdapting_held

theorem State.laneFom_held {s0 : State} (l : Nat) (fom : Nat) {s : State} (h : Held s0 s) :
    Held s0 (State.laneFom l fom s) := by
  unfold State.laneFom
  repeat' first
    | with_reducible exact h | with_reducible apply State.iff_held | with_reducible apply State.modUni_held
    | with_reducible apply State.raiseMs_held | with_reducible apply State.setTf_held

theorem State.laneUp_held {s0 : State} (l : Nat) (seen : Nat) (inv : Bool) (ofs : Int) {s : State} (h : Held s0 s) :
    Held s0 (State.laneUp l seen inv ofs s) := by
  unfold State.laneUp
  repeat' first
    | with_reducible assumption | intro _ | with_reducible apply Held.ite | with_reducible apply State.iff_held
    | with_reducible apply State.modUni_held | with_reducible apply State.raise_held
    | with_reducible apply State.setTf_held | with_reducible apply Held.foldl | split | with_reducible apply Held.id
    | dsimp only

theorem State.regionReset_held {s0 : State} (r : Nat) {s : State} (h : Held s0 s) :
    Held s0 (State.regionReset r s) := by
  unfold State.regionReset
  repeat' first
    | with_reducible exact h | with_reducible apply State.dropWork_held | with_reducible apply State.regionAfter_held
    | with_reducible apply State.regionWipe_held

theorem State.linkRise_held {s0 : State} (p : Nat) (up : LinkUpInfo) {s : State} (h : Held s0 s) :
    Held s0 (State.linkRise p up s) := by
  unfold State.linkRise
  repeat' first
    | with_reducible assumption | intro _ | with_reducible apply Held.ite | with_reducible apply State.laneUp_held
    | with_reducible apply State.modUni_held | with_reducible apply State.raise_held
    | with_reducible apply State.setFault_held | with_reducible apply State.setPf_held
    | with_reducible apply Held.foldl | split

theorem State.lpiEnter_held {s0 : State} (p : Nat) {s : State} (h : Held s0 s) :
    Held s0 (State.lpiEnter p s) := by
  unfold State.lpiEnter
  repeat' first
    | with_reducible assumption | intro _ | with_reducible apply Held.ite | with_reducible apply State.count_held
    | with_reducible apply State.setPf_held

theorem State.unshedRegion_held {s0 : State} (t : Tree) {s : State} (h : Held s0 s) :
    Held s0 (State.unshedRegion t s) := by
  unfold State.unshedRegion
  repeat' first
    | with_reducible assumption | intro _ | with_reducible apply Held.ite | with_reducible apply State.domainWake_held
    | with_reducible apply State.raise_held | with_reducible apply State.setFld_held
    | with_reducible apply State.setRegion_held | with_reducible apply Held.foldl | split

theorem State.noteTmc_held {s0 : State} (t : Tree) (fc : Nat) (bs : Bytes) {s : State} (h : Held s0 s) :
    Held s0 (State.noteTmc t fc bs s) := by
  unfold State.noteTmc
  repeat' first | with_reducible exact h | with_reducible apply State.modActs_held

theorem State.pauseEnd_held {s0 : State} (p : Nat) (n : Nat) {s : State} (h : Held s0 s) :
    Held s0 (State.pauseEnd p n s) := by
  unfold State.pauseEnd
  repeat' first
    | with_reducible assumption | intro _ | with_reducible apply Held.ite | with_reducible apply State.setPaused_held
    | with_reducible apply State.setPf_held

theorem State.prbsCheck_held {s0 : State} (l : Nat) (levels : List Int) {s : State} (h : Held s0 s) :
    Held s0 (State.prbsCheck l levels s) := by
  unfold State.prbsCheck
  repeat' first
    | with_reducible assumption | intro _ | with_reducible apply State.countBy_held
    | with_reducible apply State.iff_held | with_reducible apply State.modUni_held
    | with_reducible apply State.putTw_held | with_reducible apply State.raiseMs_held
    | with_reducible apply State.setPrbs_held

theorem State.prbsSee_held {s0 : State} (l : Nat) (levels : List Int) {s : State} (h : Held s0 s) :
    Held s0 (State.prbsSee l levels s) := by
  unfold State.prbsSee
  repeat' first
    | with_reducible assumption | intro _ | with_reducible apply Held.ite | with_reducible apply State.modUni_held
    | with_reducible apply State.prbsCheck_held | with_reducible apply State.raiseMs_held
    | with_reducible apply State.setPrbs_held | with_reducible apply Held.foldl | split

theorem State.reclaim_held {s0 : State} {s : State} (c : Nat) (h : Held s0 s) :
    Held s0 (State.reclaim s c) := by
  unfold State.reclaim
  repeat' first
    | with_reducible exact h | with_reducible apply State.modSto_held | with_reducible apply State.returnCells_held

theorem State.sampleDeliver_held {s0 : State} (bufs : List Bytes) {s : State} (h : Held s0 s) :
    Held s0 (State.sampleDeliver bufs s) := by
  unfold State.sampleDeliver
  repeat' first
    | with_reducible assumption | intro _ | with_reducible apply Held.ite | with_reducible apply State.count_held
    | with_reducible apply State.countBy_held | with_reducible apply State.crReceive_held
    | with_reducible apply State.endCopy_held | with_reducible apply State.examineDown_held
    | with_reducible apply State.hostReceive_held | with_reducible apply State.raiseMs_held
    | with_reducible apply State.releaseRef_held | with_reducible apply State.routeEvent_held
    | with_reducible apply State.setStarved_held | with_reducible apply State.showHeadAge_held
    | with_reducible apply State.unlinkCopy_held | with_reducible apply Held.foldl | split
    | with_reducible apply Held.id | dsimp only

theorem State.setCdr_held {s0 : State} (l : Nat) (on : Bool) {s : State} (h : Held s0 s) :
    Held s0 (State.setCdr l on s) := by
  unfold State.setCdr
  repeat' first
    | with_reducible exact h | with_reducible apply State.setAdapting_held | with_reducible apply State.setFld_held
    | with_reducible apply State.setTf_held

theorem State.sweepDone_held {s0 : State} {s : State} (h : Held s0 s) :
    Held s0 (State.sweepDone s) := by
  unfold State.sweepDone
  repeat' first
    | with_reducible assumption | intro _ | with_reducible apply Held.ite
    | with_reducible apply State.auditResult_held | with_reducible apply State.count_held
    | with_reducible apply State.countBy_held | with_reducible apply State.iff_held
    | with_reducible apply State.modSto_held | with_reducible apply State.raise_held
    | with_reducible apply State.reclaim_held | with_reducible apply State.setFld_held
    | with_reducible apply Held.foldl | split

theorem State.tmcRing_held {s0 : State} (t : Tree) (bs : Bytes) {s : State} (h : Held s0 s) :
    Held s0 (State.tmcRing t bs s) := by
  unfold State.tmcRing
  repeat' first
    | with_reducible assumption | intro _ | with_reducible apply Held.ite | with_reducible apply State.count_held
    | with_reducible apply State.crReceive_held | with_reducible apply State.raiseMs_held
    | with_reducible apply State.routeEvent_held

theorem State.uniComplete_held {s0 : State} (p : Nat) {s : State} (h : Held s0 s) :
    Held s0 (State.uniComplete p s) := by
  unfold State.uniComplete
  repeat' first
    | with_reducible assumption | intro _ | with_reducible apply Held.ite | with_reducible apply State.abortCopy_held
    | with_reducible apply State.count_held | with_reducible apply State.countBy_held
    | with_reducible apply State.countPair_held | with_reducible apply State.emit_held
    | with_reducible apply State.modSto_held | with_reducible apply State.pauseFlush_held
    | with_reducible apply State.putSending_held | with_reducible apply State.releaseRef_held
    | with_reducible apply Held.foldl | split

theorem State.uniReceive_held {s0 : State} (p : Nat) (bs : Bytes) (fcsErr : Bool) (corrected : Nat) (uncorrectable :
    Nat) {s : State} (h : Held s0 s) :
       Held s0 (State.uniReceive p bs fcsErr corrected uncorrectable s) := by
  unfold State.uniReceive
  repeat' first
    | with_reducible assumption | intro _ | with_reducible apply Held.ite | with_reducible apply State.count_held
    | with_reducible apply State.countBy_held | with_reducible apply State.handUni_held
    | with_reducible apply State.macControl_held | with_reducible apply State.ptpIngress_held
    | with_reducible apply State.uniBadFcs_held

end Sys2Proof.Machine
end

