-- ==== Sys2Proof/Laws/KeptHost.lean ====
section
/-! SUPPORT. What every operation keeps (Laws/Held.lean): the host interface, cores, flash, and their commands. -/

namespace Sys2Proof.Machine

theorem State.txComplete_held {s0 : State} (f : Nat) (k : Nat) (es : List TxEntry) (status : Nat) (seg : Nat) (sum :
    Nat) {s : State} (h : Held s0 s) :
       Held s0 (State.txComplete f k es status seg sum s) := by
  unfold State.txComplete
  repeat' first
    | with_reducible exact h | with_reducible apply State.iff_held | with_reducible apply State.ringComplete_held
    | with_reducible apply State.ringVector_held

theorem State.txEnd_held {s0 : State} (f : Nat) (k : Nat) (es : List TxEntry) (status : Nat) (seg : Nat) (sum : Nat)
    (counter : Nat) {s : State} (h : Held s0 s) :
       Held s0 (State.txEnd f k es status seg sum counter s) := by
  unfold State.txEnd
  repeat' first
    | with_reducible exact h | with_reducible apply State.count_held | with_reducible apply State.ringAdvance_held
    | with_reducible apply State.txComplete_held

theorem State.abortRingJob_held {s0 : State} (f : Nat) (k : Nat) {s : State} (h : Held s0 s) :
    Held s0 (State.abortRingJob f k s) := by
  unfold State.abortRingJob
  repeat' first
    | with_reducible assumption | intro _ | with_reducible apply Held.ite | with_reducible apply State.dropJob_held
    | with_reducible apply State.txEnd_held | with_reducible apply Held.foldl | split

theorem State.cxlStop_held {s0 : State} {s : State} (h : Held s0 s) :
    Held s0 (State.cxlStop s) := by
  unfold State.cxlStop
  repeat' first
    | with_reducible assumption | intro _ | with_reducible apply Held.ite | with_reducible apply State.cxlDown_held
    | with_reducible apply State.modHif_held

theorem State.setRingState_held {s0 : State} (f : Nat) (rx : Bool) (k : Nat) (v : Nat) {s : State} (h : Held s0 s) :
    Held s0 (State.setRingState f rx k v s) := by
  unfold State.setRingState
  repeat' first
    | with_reducible exact h | with_reducible apply State.setFld_held | with_reducible apply State.setRg_held

theorem State.drainRing_held {s0 : State} (f : Nat) (rx : Bool) (k : Nat) (quiet : Bool) {s : State} (h : Held s0 s) :
    Held s0 (State.drainRing f rx k quiet s) := by
  unfold State.drainRing
  repeat' first
    | with_reducible assumption | intro _ | with_reducible apply Held.ite | with_reducible apply State.abortJob_held
    | with_reducible apply State.abortRingJob_held | with_reducible apply State.modRing_held
    | with_reducible apply State.ringAdvance_held | with_reducible apply State.setRingState_held

theorem State.pcieDown_held {s0 : State} (l2 : Bool) {s : State} (h : Held s0 s) :
    Held s0 (State.pcieDown l2 s) := by
  unfold State.pcieDown
  repeat' first
    | with_reducible assumption | intro _ | with_reducible apply State.count_held
    | with_reducible apply State.iff_held | with_reducible apply State.modHif_held
    | with_reducible apply State.raise_held | with_reducible apply State.setFld_held

theorem State.flashStop_held {s0 : State} {s : State} (h : Held s0 s) :
    Held s0 (State.flashStop s) := by
  unfold State.flashStop
  repeat' first | with_reducible assumption | intro _ | with_reducible apply State.modFlsh_held

theorem State.modCoreRun_held {s0 : State} (c : Nat) (f : CoreRun → CoreRun) {s : State} (h : Held s0 s) :
    Held s0 (State.modCoreRun c f s) := by
  unfold State.modCoreRun
  repeat' first | with_reducible assumption | intro _ | with_reducible apply State.modCore_held

theorem State.flowTurn_held {s0 : State} (k : Nat) {s : State} (h : Held s0 s) :
    Held s0 (State.flowTurn k s) := by
  unfold State.flowTurn
  repeat' first
    | with_reducible assumption | intro _ | with_reducible apply Held.ite | with_reducible apply State.count_held
    | with_reducible apply State.setTf_held

theorem State.flowJudge_held {s0 : State} {s : State} (h : Held s0 s) :
    Held s0 (State.flowJudge s) := by
  unfold State.flowJudge
  repeat' first
    | with_reducible assumption | intro _ | with_reducible apply Held.ite | with_reducible apply State.flowTurn_held
    | with_reducible apply Held.foldl | split

theorem State.releaseFlow_held {s0 : State} (k : Nat) {s : State} (h : Held s0 s) :
    Held s0 (State.releaseFlow k s) := by
  unfold State.releaseFlow
  repeat' first
    | with_reducible assumption | intro _ | with_reducible apply Held.ite | with_reducible apply State.flowJudge_held
    | with_reducible apply State.modCore_held | with_reducible apply Held.foldl | split
    | (refine (?_ : Sparse.wf _ _ = true); assumption) | exact Sparse.wf_filter _ _ _ (by assumption)
    | exact Sparse.wf_put _ _ _ _ (by assumption) | (refine (?_ : _ < counterMod _); apply_assumption)
    | with_reducible apply Held.id | dsimp only

theorem State.setTaskState_held {s0 : State} (k : Nat) (v : Nat) (c : Nat) {s : State} (h : Held s0 s) :
    Held s0 (State.setTaskState k v c s) := by
  unfold State.setTaskState
  repeat' first | with_reducible exact h | with_reducible apply State.setTf_held

theorem State.taskWaits_held {s0 : State} (k : Nat) {s : State} (h : Held s0 s) :
    Held s0 (State.taskWaits k s) := by
  unfold State.taskWaits
  repeat' first
    | with_reducible exact h | with_reducible apply State.judgeTask_held
    | with_reducible apply State.setTaskState_held

theorem State.endTask_held {s0 : State} (r : TaskRun) {s : State} (h : Held s0 s) :
    Held s0 (State.endTask r s) := by
  unfold State.endTask
  repeat' first
    | with_reducible exact h | with_reducible apply State.putTw_held | with_reducible apply State.releaseFlow_held
    | with_reducible apply State.taskWaits_held

theorem State.holdHalf_held {s0 : State} (x1 : Nat) {s : State} (h : Held s0 s) :
    Held s0 (State.holdHalf x1 s) := by
  unfold State.holdHalf
  repeat' first
    | with_reducible assumption | intro _ | with_reducible apply Held.ite | with_reducible apply State.endTask_held
    | with_reducible apply State.modCore_held | with_reducible apply State.modCoreRun_held
    | with_reducible apply State.taskWaits_held | with_reducible apply Held.foldl | split

theorem State.judgeTasks_held {s0 : State} {s : State} (h : Held s0 s) :
    Held s0 (State.judgeTasks s) := by
  unfold State.judgeTasks
  repeat' first
    | with_reducible assumption | intro _ | with_reducible apply Held.ite | with_reducible apply State.flowJudge_held
    | with_reducible apply State.judgeTask_held | with_reducible apply Held.foldl | split

theorem State.swapBanks_held {s0 : State} {s : State} (h : Held s0 s) :
    Held s0 (State.swapBanks s) := by
  unfold State.swapBanks
  repeat' first
    | with_reducible assumption | intro _ | with_reducible apply Held.ite | with_reducible apply State.modCore_held
    | with_reducible apply State.putTw_held | with_reducible apply State.resetTable_held
    | with_reducible apply Held.foldl | split

theorem State.setHalf_held {s0 : State} (x1 : Nat) {s : State} (h : Held s0 s) :
    Held s0 (State.setHalf x1 s) := by
  unfold State.setHalf
  repeat' first
    | with_reducible assumption | intro _ | with_reducible apply Held.ite | with_reducible apply State.judgeTasks_held
    | with_reducible apply State.setFld_held | with_reducible apply State.swapBanks_held

theorem State.setPunty_held {s0 : State} (v : Nat) {s : State} (h : Held s0 s) :
    Held s0 (State.setPunty v s) := by
  unfold State.setPunty
  repeat' first | with_reducible exact h | with_reducible apply State.setFld_held

theorem State.cxlStart_held {s0 : State} {s : State} (h : Held s0 s) :
    Held s0 (State.cxlStart s) := by
  unfold State.cxlStart
  repeat' first
    | with_reducible assumption | intro _ | with_reducible apply Held.ite | with_reducible apply State.modHif_held
    | with_reducible apply State.setFld_held

theorem State.ringRun_held {s0 : State} (f : Nat) (rx : Bool) (k : Nat) {s : State} (h : Held s0 s) :
    Held s0 (State.ringRun f rx k s) := by
  unfold State.ringRun
  repeat' first
    | with_reducible assumption | intro _ | with_reducible apply Held.ite | with_reducible apply State.modRing_held
    | with_reducible apply State.setRingState_held

theorem State.halSubmitCmd_held {s0 : State} (t : Tree) (k : Nat) {s : State} (h : Held s0 s) :
    Held s0 (State.halSubmitCmd t k s) := by
  unfold State.halSubmitCmd
  repeat' first
    | with_reducible assumption | intro _ | with_reducible apply Held.ite | with_reducible apply State.halSubmit_held
    | with_reducible apply State.ignored_held

theorem State.wakeClear_held {s0 : State} (bits : Nat) {s : State} (h : Held s0 s) :
    Held s0 (State.wakeClear bits s) := by
  unfold State.wakeClear
  repeat' first
    | with_reducible assumption | intro _ | with_reducible apply Held.ite | with_reducible apply State.iff_held
    | with_reducible apply State.modHif_held | with_reducible apply State.setFld_held
    | with_reducible apply Held.foldl | split

theorem State.coreRelease_held {s0 : State} (mask : Nat) {s : State} (h : Held s0 s) :
    Held s0 (State.coreRelease mask s) := by
  unfold State.coreRelease
  repeat' first
    | with_reducible exact h | with_reducible apply State.freeLast_held | with_reducible apply State.modRel_held

theorem State.puntyArm_held {s0 : State} (handover : Nat) {s : State} (h : Held s0 s) :
    Held s0 (State.puntyArm handover s) := by
  unfold State.puntyArm
  repeat' first
    | with_reducible assumption | intro _ | with_reducible apply Held.ite | with_reducible apply State.modCore_held
    | with_reducible apply State.setFld_held | with_reducible apply State.setPunty_held

theorem State.puntyReady_held {s0 : State} {s : State} (h : Held s0 s) :
    Held s0 (State.puntyReady s) := by
  unfold State.puntyReady
  repeat' first
    | with_reducible assumption | intro _ | with_reducible apply Held.ite | with_reducible apply State.raise_held
    | with_reducible apply State.setPunty_held

theorem State.puntyCommit_held {s0 : State} {s : State} (h : Held s0 s) :
    Held s0 (State.puntyCommit s) := by
  unfold State.puntyCommit
  repeat' first
    | with_reducible assumption | intro _ | with_reducible apply Held.ite | with_reducible apply State.setPunty_held

theorem State.puntyAbort_held {s0 : State} (cause : Nat) {s : State} (h : Held s0 s) :
    Held s0 (State.puntyAbort cause s) := by
  unfold State.puntyAbort
  repeat' first
    | with_reducible assumption | intro _ | with_reducible apply Held.ite | with_reducible apply State.count_held
    | with_reducible apply State.holdHalf_held | with_reducible apply State.modCore_held
    | with_reducible apply State.raise_held | with_reducible apply State.setFld_held
    | with_reducible apply State.setPunty_held

theorem State.tskSet_held {s0 : State} (task : Nat) (flag : Nat) {s : State} (h : Held s0 s) :
    Held s0 (State.tskSet task flag s) := by
  unfold State.tskSet
  repeat' first
    | with_reducible assumption | intro _ | with_reducible apply Held.ite | with_reducible apply State.count_held
    | with_reducible apply State.ignored_held | with_reducible apply State.setTaskFlag_held

theorem State.setFlashResult_held {s0 : State} (w : Window) (v : Nat) {s : State} (h : Held s0 s) :
    Held s0 (State.setFlashResult w v s) := by
  unfold State.setFlashResult
  repeat' first
    | with_reducible assumption | intro _ | with_reducible apply Held.ite | with_reducible apply State.modFlsh_held
    | with_reducible apply Held.foldl | split

theorem State.flashEnd_held {s0 : State} (c : FlashCmd) (result : Nat) {s : State} (h : Held s0 s) :
    Held s0 (State.flashEnd c result s) := by
  unfold State.flashEnd
  repeat' first
    | with_reducible assumption | intro _ | with_reducible apply Held.ite | with_reducible apply State.iff_held
    | with_reducible apply State.raise_held | with_reducible apply State.routeEvent_held
    | with_reducible apply State.setFlashResult_held

theorem State.putJournal_held {s0 : State} (e : Nat) (w : Nat) (v : Word) {s : State} (h : Held s0 s) :
    Held s0 (State.putJournal e w v s) := by
  unfold State.putJournal
  repeat' first
    | with_reducible assumption | intro _ | with_reducible apply Held.ite | with_reducible apply State.modFlsh_held
    | with_reducible apply Held.foldl | split | (refine (?_ : Sparse.wf _ _ = true); assumption)
    | exact Sparse.wf_filter _ _ _ (by assumption) | exact Sparse.wf_put _ _ _ _ (by assumption)
    | (refine (?_ : _ < counterMod _); apply_assumption) | with_reducible apply Held.id | dsimp only

theorem State.journalWrite_held {s0 : State} (addr : Nat) {s : State} (h : Held s0 s) :
    ∀ out, State.journalWrite addr s = some out → Held s0 out := by
  intro out e
  unfold State.journalWrite at e
  dsimp only at e
  repeat' split at e
  all_goals first
    | cases e; done
    | (injection e with e; subst e)
  all_goals
    repeat' first
      | with_reducible assumption | intro _ | with_reducible apply Held.ite | with_reducible apply State.count_held
      | with_reducible apply State.iff_held | with_reducible apply State.modFlsh_held
      | with_reducible apply State.putJournal_held | with_reducible apply Held.foldl | split
      | (refine (?_ : Sparse.wf _ _ = true); assumption) | exact Sparse.wf_filter _ _ _ (by assumption)
      | exact Sparse.wf_put _ _ _ _ (by assumption) | (refine (?_ : _ < counterMod _); apply_assumption)
      | with_reducible apply Held.id | dsimp only

theorem State.sectorUnknown_held {s0 : State} (sec : Nat) {s : State} (h : Held s0 s) :
    Held s0 (State.sectorUnknown sec s) := by
  unfold State.sectorUnknown
  repeat' first
    | with_reducible assumption | intro _ | with_reducible apply Held.ite | with_reducible apply State.modFlsh_held
    | with_reducible apply State.useFree_held | with_reducible apply Held.foldl | split
    | (refine (?_ : Sparse.wf _ _ = true); assumption) | exact Sparse.wf_filter _ _ _ (by assumption)
    | exact Sparse.wf_put _ _ _ _ (by assumption) | (refine (?_ : _ < counterMod _); apply_assumption)
    | with_reducible apply Held.id | dsimp only

theorem State.eraseStart_held {s0 : State} (c : FlashCmd) {s : State} (h : Held s0 s) :
    Held s0 (State.eraseStart c s) := by
  unfold State.eraseStart
  repeat' first
    | with_reducible assumption | intro _ | with_reducible apply Held.ite | with_reducible apply State.count_held
    | with_reducible apply State.flashEnd_held
    | (with_reducible refine State.journalWrite_held _ ?_ _ (by assumption)) | with_reducible apply State.modFlsh_held
    | with_reducible apply State.sectorUnknown_held | with_reducible apply Held.foldl | split

theorem State.flashNext_held {s0 : State} (x1 : Nat) {s : State} (h : Held s0 s) :
    Held s0 (State.flashNext x1 s) := by
  induction x1 generalizing  s with
  | zero => exact h
  | succ n ih =>
    unfold State.flashNext
    repeat' first
      | with_reducible assumption | with_reducible apply ih | intro _ | with_reducible apply Held.ite
      | with_reducible apply State.count_held | with_reducible apply State.eraseStart_held
      | with_reducible apply State.iff_held | with_reducible apply State.modFlsh_held
      | with_reducible apply Held.foldl | split

theorem State.flashCommand_held {s0 : State} (w : Window) (op : Nat) (fromStage : Bool) {s : State} (h : Held s0 s) :
    Held s0 (State.flashCommand w op fromStage s) := by
  unfold State.flashCommand
  repeat' first
    | with_reducible assumption | intro _ | with_reducible apply Held.ite | with_reducible apply State.count_held
    | with_reducible apply State.flashNext_held | with_reducible apply State.iff_held
    | with_reducible apply State.ignored_held | with_reducible apply State.modFlsh_held
    | with_reducible apply State.setFlashResult_held

theorem State.putBootRec_held {s0 : State} (trial : Nat) (count : Nat) (failed : Nat) {s : State} (h : Held s0 s) :
    Held s0 (State.putBootRec trial count failed s) := by
  unfold State.putBootRec
  repeat' first
    | with_reducible assumption | intro _ | with_reducible apply Held.ite | with_reducible apply State.putTw_held
    | with_reducible apply Held.foldl | split

theorem State.bootConfirm_held {s0 : State} {s : State} (h : Held s0 s) :
    Held s0 (State.bootConfirm s) := by
  unfold State.bootConfirm
  repeat' first
    | with_reducible assumption | intro _ | with_reducible apply State.iff_held
    | with_reducible apply State.putBootRec_held | with_reducible apply State.setFld_held

theorem State.putLocal_held {s0 : State} (c : Nat) (a : Nat) (bs : Bytes) {s : State} (h : Held s0 s) :
    Held s0 (State.putLocal c a bs s) := by
  unfold State.putLocal
  refine State.modCore_held h (fun x hx => ?_)
  dsimp only
  generalize List.range bs.length = l
  generalize x.lsram = m at hx
  induction l generalizing m with
  | nil => exact hx
  | cons j l ih => exact ih _ (Sparse.wf_put (fun _ => 0#8) _ _ _ hx)

theorem State.placeRecord_held {s0 : State} (a1 : Nat) (a2 : Nat) (a3 : Nat) (a4 : Bytes) {s : State} (h : Held s0 s) :
    ∀ x, State.placeRecord a1 a2 a3 a4 s = some x → Held s0 x := by
  intro x e
  unfold State.placeRecord at e
  dsimp only at e
  split at e
  · injection e with e; subst e
    exact State.modCore_held (Held.foldl (fun y i hy => State.iff_held _ hy (fun z hz => State.putLocal_held _ _ _ hz)) _ h)
      (fun _ hc => hc)
  · injection e with e; subst e; exact State.modCore_held (State.putLocal_held _ _ _ h) (fun _ hc => hc)
  · injection e with e; subst e; exact State.modCore_held (State.putSram_held _ _ h) (fun _ hc => hc)
  · injection e with e; subst e; exact h
  · cases e

theorem State.loadRecords_held {s0 : State} (half : Nat) (base : Nat) (x3 : Nat) (x4 : Nat) (x5 : Bytes) {s : State}
    (h : Held s0 s) :
       Held s0 (State.loadRecords half base x3 x4 x5 s).1 := by
  induction x3 generalizing x4 x5 s with
  | zero => exact h
  | succ n ih =>
    unfold State.loadRecords
    repeat' first
      | with_reducible assumption | with_reducible apply ih | intro _ | with_reducible apply Held.ite
      | with_reducible apply Held.ite_fst
      | (with_reducible refine State.placeRecord_held _ _ _ _ ?_ _ (by assumption)) | with_reducible apply Held.foldl
      | split

theorem State.putDir_held {s0 : State} (half : Nat) (dir : Bytes) {s : State} (h : Held s0 s) :
    Held s0 (State.putDir half dir s) := by
  unfold State.putDir
  repeat' first
    | with_reducible assumption | intro _ | with_reducible apply Held.ite | with_reducible apply State.modCore_held
    | with_reducible apply State.putSram_held | with_reducible apply Held.foldl | split

theorem State.loadSlot_held {s0 : State} (half : Nat) (slot : Nat) {s : State} (h : Held s0 s) :
    Held s0 (State.loadSlot half slot s).1 := by
  unfold State.loadSlot
  repeat' first
    | with_reducible assumption | intro _ | with_reducible apply Held.ite | with_reducible apply Held.ite_fst
    | with_reducible apply State.loadRecords_held | with_reducible apply State.modCore_held
    | with_reducible apply State.putDir_held | with_reducible apply Held.foldl | split

theorem State.tryLoad_held {s0 : State} (half : Nat) (slot : Nat) {s : State} (h : Held s0 s) :
    Held s0 (State.tryLoad half slot s).1 := by
  unfold State.tryLoad
  repeat' first
    | with_reducible assumption | intro _ | with_reducible apply Held.ite | with_reducible apply Held.ite_fst
    | with_reducible apply State.count_held | with_reducible apply State.loadSlot_held
    | with_reducible apply State.raise_held | with_reducible apply State.setFld_held

theorem State.loadFirst_held {s0 : State} (half : Nat) (x2 : List Nat) {s : State} (h : Held s0 s) :
    Held s0 (State.loadFirst half x2 s).1 := by
  induction x2 generalizing  s with
  | nil => exact h
  | cons x l ih =>
    unfold State.loadFirst
    repeat' first
      | with_reducible assumption | with_reducible apply ih | intro _ | with_reducible apply Held.ite
      | with_reducible apply Held.ite_fst | with_reducible apply State.tryLoad_held

theorem State.copySerial_held {s0 : State} {s : State} (h : Held s0 s) :
    Held s0 (State.copySerial s) := by
  unfold State.copySerial
  repeat' first
    | with_reducible assumption | intro _ | with_reducible apply Held.ite | with_reducible apply State.putReg_held
    | with_reducible apply Held.foldl | split

theorem State.releaseHalf_held {s0 : State} (half : Nat) (slot : Nat) {s : State} (h : Held s0 s) :
    Held s0 (State.releaseHalf half slot s) := by
  unfold State.releaseHalf
  repeat' first
    | with_reducible assumption | intro _ | with_reducible apply Held.ite | with_reducible apply State.modCoreRun_held
    | with_reducible apply Held.foldl | split

theorem State.bootEnd_held {s0 : State} (slot : Option Nat) (trial : Bool) (count : Nat) {s : State} (h : Held s0 s) :
    Held s0 (State.bootEnd slot trial count s) := by
  unfold State.bootEnd
  repeat' first
    | with_reducible assumption | intro _ | with_reducible apply Held.ite | with_reducible apply State.copySerial_held
    | with_reducible apply State.iff_held | with_reducible apply State.modCore_held
    | with_reducible apply State.raise_held | with_reducible apply State.releaseHalf_held
    | with_reducible apply State.setFld_held | with_reducible apply Held.foldl | split

theorem State.bootRetry_held {s0 : State} {s : State} (h : Held s0 s) :
    Held s0 (State.bootRetry s) := by
  unfold State.bootRetry
  repeat' first
    | with_reducible assumption | intro _ | with_reducible apply Held.ite | with_reducible apply State.bootEnd_held
    | with_reducible apply State.loadFirst_held

theorem State.barWrite_held {s0 : State} (n : Nat) (addr : Nat) {s : State} (h : Held s0 s) :
    Held s0 (State.barWrite n addr s) := by
  unfold State.barWrite
  repeat' first | with_reducible exact h | with_reducible apply State.modHif_held

theorem State.sectorErased_held {s0 : State} (sec : Nat) {s : State} (h : Held s0 s) :
    Held s0 (State.sectorErased sec s) := by
  unfold State.sectorErased
  repeat' first
    | with_reducible assumption | intro _ | with_reducible apply Held.ite | with_reducible apply State.modFlsh_held
    | with_reducible apply Held.foldl | split | (refine (?_ : Sparse.wf _ _ = true); assumption)
    | exact Sparse.wf_filter _ _ _ (by assumption) | exact Sparse.wf_put _ _ _ _ (by assumption)
    | (refine (?_ : _ < counterMod _); apply_assumption) | with_reducible apply Held.id | dsimp only

theorem State.recoverEntry_held {s0 : State} (resume : Bool) (bad : Bool) (e : Nat) {s : State} (h : Held s0 s) :
    Held s0 (State.recoverEntry resume bad e s) := by
  unfold State.recoverEntry
  repeat' first
    | with_reducible assumption | intro _ | with_reducible apply Held.ite | with_reducible apply State.count_held
    | with_reducible apply State.putJournal_held | with_reducible apply State.sectorErased_held
    | with_reducible apply State.sectorUnknown_held | with_reducible apply State.setFlashResult_held

theorem State.journalRecover_held {s0 : State} (suspended : Bool) (bad : List Nat) {s : State} (h : Held s0 s) :
    Held s0 (State.journalRecover suspended bad s) := by
  unfold State.journalRecover
  repeat' first
    | with_reducible assumption | intro _ | with_reducible apply Held.ite | with_reducible apply State.iff_held
    | with_reducible apply State.raise_held | with_reducible apply State.recoverEntry_held
    | with_reducible apply Held.foldl | split

theorem State.boot_held {s0 : State} (suspended : Bool) (bad : List Nat) {s : State} (h : Held s0 s) :
    Held s0 (State.boot suspended bad s) := by
  unfold State.boot
  repeat' first
    | with_reducible assumption | intro _ | with_reducible apply Held.ite | with_reducible apply State.bootEnd_held
    | with_reducible apply State.journalRecover_held | with_reducible apply State.loadFirst_held
    | with_reducible apply State.modCore_held | with_reducible apply State.modFlsh_held
    | with_reducible apply State.putBootRec_held | with_reducible apply State.raise_held
    | with_reducible apply State.setHalf_held | with_reducible apply State.setPunty_held
    | with_reducible apply Held.foldl | split | (refine (?_ : Sparse.wf _ _ = true); assumption)
    | exact Sparse.wf_filter _ _ _ (by assumption) | exact Sparse.wf_put _ _ _ _ (by assumption)
    | (refine (?_ : _ < counterMod _); apply_assumption) | with_reducible apply Held.id | dsimp only

theorem State.ccryCmd_held {s0 : State} (slot : Nat) (bits : Nat) {f : Nat → State → State} {s : State} (h : Held s0
    s) (h3 : ∀ y0 y1, Held s0 y1 → Held s0 (f y0 y1)) :
       Held s0 (State.ccryCmd slot bits f s) := by
  unfold State.ccryCmd
  repeat' first | with_reducible exact h | with_reducible apply State.guarded_held | with_reducible apply h3

theorem State.clearFn_held {s0 : State} (f : Nat) (keepPme : Bool) {s : State} (h : Held s0 s) :
    Held s0 (State.clearFn f keepPme s) := by
  unfold State.clearFn
  repeat' first
    | with_reducible assumption | intro _ | with_reducible apply Held.ite | with_reducible apply State.modDma_held
    | with_reducible apply State.modFn_held | with_reducible apply State.modHif_held
    | with_reducible apply State.modRf_held | with_reducible apply Held.foldl | split
    | (refine (?_ : Sparse.wf _ _ = true); assumption) | exact Sparse.wf_filter _ _ _ (by assumption)
    | exact Sparse.wf_put _ _ _ _ (by assumption) | (refine (?_ : _ < counterMod _); apply_assumption)
    | with_reducible apply Held.id | dsimp only

theorem State.crTxEnd_held {s0 : State} (es : List TxEntry) (status : Nat) (sum : Nat) {s : State} (h : Held s0 s) :
    Held s0 (State.crTxEnd es status sum s) := by
  unfold State.crTxEnd
  repeat' first
    | with_reducible exact h | with_reducible apply State.count_held | with_reducible apply State.crAdvance_held
    | with_reducible apply State.crComplete_held | with_reducible apply State.iff_held
    | with_reducible apply State.routeEvent_held

theorem State.crSend_held {s0 : State} (es : List TxEntry) {s : State} (h : Held s0 s) :
    Held s0 (State.crSend es s) := by
  unfold State.crSend
  repeat' first
    | with_reducible assumption | intro _ | with_reducible apply Held.ite | with_reducible apply State.admitStart_held
    | with_reducible apply State.count_held | with_reducible apply State.crTxEnd_held
    | with_reducible apply State.modCls_held | with_reducible apply State.modFrame_held
    | with_reducible apply State.modSto_held

theorem State.crSendAll_held {s0 : State} (x1 : Nat) {s : State} (h : Held s0 s) :
    Held s0 (State.crSendAll x1 s) := by
  induction x1 generalizing  s with
  | zero => exact h
  | succ n ih =>
    unfold State.crSendAll
    repeat' first
      | with_reducible assumption | with_reducible apply ih | intro _ | with_reducible apply Held.ite
      | with_reducible apply State.crSend_held | with_reducible apply State.crTxEnd_held
      | with_reducible apply Held.foldl | split

theorem State.coreRingTail_held {s0 : State} (k : Nat) (tail : Nat) {s : State} (h : Held s0 s) :
    Held s0 (State.coreRingTail k tail s) := by
  unfold State.coreRingTail
  repeat' first
    | with_reducible assumption | intro _ | with_reducible apply Held.ite | with_reducible apply State.crSendAll_held
    | with_reducible apply State.darkAccess_held | with_reducible apply State.iff_held
    | with_reducible apply State.setStarved_held | with_reducible apply State.setTf_held
    | with_reducible apply Held.foldl | split

theorem State.drainFn_held {s0 : State} (f : Nat) {s : State} (h : Held s0 s) :
    Held s0 (State.drainFn f s) := by
  unfold State.drainFn
  repeat' first
    | with_reducible assumption | intro _ | with_reducible apply Held.ite | with_reducible apply State.drainRing_held
    | with_reducible apply Held.foldl | split

theorem State.vfGone_held {s0 : State} (f : Nat) {s : State} (h : Held s0 s) :
    Held s0 (State.vfGone f s) := by
  unfold State.vfGone
  repeat' first
    | with_reducible exact h | with_reducible apply State.clearFn_held | with_reducible apply State.drainFn_held
    | with_reducible apply State.dropHands_held

theorem State.vfControl_held {s0 : State} (enable : Bool) (num : Nat) {s : State} (h : Held s0 s) :
    Held s0 (State.vfControl enable num s) := by
  unfold State.vfControl
  repeat' first
    | with_reducible assumption | intro _ | with_reducible apply Held.ite | with_reducible apply State.modHif_held
    | with_reducible apply State.vfGone_held | with_reducible apply Held.foldl | split

theorem State.takeVectors_held {s0 : State} (f : Nat) {s : State} (h : Held s0 s) :
    Held s0 (State.takeVectors f s) := by
  unfold State.takeVectors
  repeat' first
    | with_reducible assumption | intro _ | with_reducible apply Held.ite | with_reducible apply State.modFn_held
    | with_reducible apply State.raise_held

theorem State.sendPending_held {s0 : State} (f : Nat) {s : State} (h : Held s0 s) :
    Held s0 (State.sendPending f s) := by
  unfold State.sendPending
  repeat' first
    | with_reducible assumption | intro _ | with_reducible apply Held.ite | with_reducible apply State.modHif_held
    | with_reducible apply State.sendOwned_held | with_reducible apply Held.foldl | split

theorem State.msixControl_held {s0 : State} (f : Nat) (enable : Bool) (mask : Bool) {s : State} (h : Held s0 s) :
    Held s0 (State.msixControl f enable mask s) := by
  unfold State.msixControl
  repeat' first
    | with_reducible exact h | with_reducible apply State.iff_held | with_reducible apply State.modFn_held
    | with_reducible apply State.sendPending_held | with_reducible apply State.takeVectors_held

theorem State.configWrite_held {s0 : State} (f : Nat) (w : CfgWrite) {s : State} (h : Held s0 s) :
    Held s0 (State.configWrite f w s) := by
  unfold State.configWrite
  repeat' first
    | with_reducible assumption | intro _ | with_reducible apply Held.ite | with_reducible apply State.abortJob_held
    | with_reducible apply State.barWrite_held | with_reducible apply State.dropHands_held
    | with_reducible apply State.iff_held | with_reducible apply State.modFn_held
    | with_reducible apply State.modHif_held | with_reducible apply State.msixControl_held
    | with_reducible apply State.ringAdvance_held | with_reducible apply State.vfControl_held
    | with_reducible apply Held.foldl | split

theorem State.containCore_held {s0 : State} (c : Nat) {s : State} (h : Held s0 s) :
    Held s0 (State.containCore c s) := by
  unfold State.containCore
  repeat' first
    | with_reducible assumption | intro _ | with_reducible apply Held.ite | with_reducible apply State.endTask_held
    | with_reducible apply State.modCoreRun_held | with_reducible apply State.noteContain_held
    | with_reducible apply State.taskWaits_held | with_reducible apply Held.foldl | split

theorem State.coreCycles_held {s0 : State} (c : Nat) {s : State} (h : Held s0 s) :
    Held s0 (State.coreCycles c s) := by
  unfold State.coreCycles
  repeat' first
    | with_reducible assumption | intro _ | with_reducible apply Held.ite | with_reducible apply State.countBy_held
    | with_reducible apply State.useFree_held

theorem State.coreTrap_held {s0 : State} (c : Nat) (cause : Nat) (addr : Nat) {s : State} (h : Held s0 s) :
    Held s0 (State.coreTrap c cause addr s) := by
  unfold State.coreTrap
  repeat' first
    | with_reducible exact h | with_reducible apply State.count_held | with_reducible apply State.modCoreRun_held
    | with_reducible apply State.putTw_held | with_reducible apply State.raiseMs_held
    | with_reducible apply State.setTf_held

theorem State.coreMemory_held {s0 : State} (c : Nat) (what : CoreAccess) {s : State} (h : Held s0 s) :
    Held s0 (State.coreMemory c what s) := by
  unfold State.coreMemory
  repeat' first
    | with_reducible assumption | intro _ | with_reducible apply Held.ite | with_reducible apply State.coreTrap_held
    | with_reducible apply State.putTw_held | with_reducible apply Held.foldl | split

theorem State.cxlAgain_held {s0 : State} {s : State} (h : Held s0 s) :
    Held s0 (State.cxlAgain s) := by
  unfold State.cxlAgain
  repeat' first | with_reducible exact h | with_reducible apply State.modHif_held

theorem State.cxlEnumDone_held {s0 : State} (res : Nat) (capacity : Nat) (speed : Nat) (width : Nat) {s : State} (h
    : Held s0 s) :
       Held s0 (State.cxlEnumDone res capacity speed width s) := by
  unfold State.cxlEnumDone
  repeat' first
    | with_reducible assumption | intro _ | with_reducible apply Held.ite | with_reducible apply State.count_held
    | with_reducible apply State.cxlAgain_held | with_reducible apply State.iff_held
    | with_reducible apply State.linkPmJudge_held | with_reducible apply State.loseTier_held
    | with_reducible apply State.modHif_held | with_reducible apply State.raise_held
    | with_reducible apply State.setFld_held | with_reducible apply State.showTier_held

theorem State.discover_held {s0 : State} (t : Tree) (payload : Bytes) {s : State} (h : Held s0 s) :
    Held s0 (State.discover t payload s) := by
  unfold State.discover
  repeat' first
    | with_reducible exact h | with_reducible apply State.count_held | with_reducible apply State.halOffsetJudge_held
    | with_reducible apply State.halSend_held | with_reducible apply State.iff_held
    | with_reducible apply State.modActs_held | with_reducible apply State.setFld_held

theorem State.dispatchLate_held {s0 : State} (k : Nat) {s : State} (h : Held s0 s) :
    Held s0 (State.dispatchLate k s) := by
  unfold State.dispatchLate
  repeat' first
    | with_reducible assumption | intro _ | with_reducible apply Held.ite | with_reducible apply State.count_held
    | with_reducible apply State.modTsk_held | with_reducible apply State.raiseMs_held

theorem State.drainFrame_held {s0 : State} (f : Nat) (k : Nat) (entries : List TxEntry) {s : State} (h : Held s0 s) :
    Held s0 (State.drainFrame f k entries s) := by
  unfold State.drainFrame
  repeat' first
    | with_reducible assumption | intro _ | with_reducible apply Held.ite | with_reducible apply State.count_held
    | with_reducible apply State.ringAdvance_held | with_reducible apply State.txEnd_held

theorem State.readChunks_held {s0 : State} (f : Nat) (x2 : Nat) (x3 : Nat) (x4 : Nat) {s : State} (h : Held s0 s) :
    Held s0 (State.readChunks f x2 x3 x4 s) := by
  induction x2 generalizing x3 x4 s with
  | zero => exact h
  | succ n ih =>
    unfold State.readChunks
    repeat' first
      | with_reducible assumption | with_reducible apply ih | intro _ | with_reducible apply Held.ite
      | with_reducible apply State.emit_held

theorem State.readSegment_held {s0 : State} (f : Nat) (j : TxJob) {s : State} (h : Held s0 s) :
    Held s0 (State.readSegment f j s) := by
  unfold State.readSegment
  repeat' first
    | with_reducible assumption | intro _ | with_reducible apply Held.ite | with_reducible apply State.readChunks_held
    | with_reducible apply Held.foldl | split

theorem State.startJob_held {s0 : State} (f : Nat) (k : Nat) (es : List TxEntry) {s : State} (h : Held s0 s) :
    Held s0 (State.startJob f k es s) := by
  unfold State.startJob
  repeat' first
    | with_reducible exact h | with_reducible apply State.modRing_held | with_reducible apply State.readSegment_held

theorem State.dmaTxFrame_held {s0 : State} (f : Nat) (k : Nat) (descs : List Bytes) {s : State} (h : Held s0 s) :
    Held s0 (State.dmaTxFrame f k descs s) := by
  unfold State.dmaTxFrame
  repeat' first
    | with_reducible assumption | intro _ | with_reducible apply Held.ite | with_reducible apply State.drainFrame_held
    | with_reducible apply State.fetchDescs_held | with_reducible apply State.raiseMs_held
    | with_reducible apply State.startJob_held | with_reducible apply State.txEnd_held
    | with_reducible apply Held.foldl | split | with_reducible apply Held.id | dsimp only

theorem State.emptySlot_held {s0 : State} (c : Nat) (k : Nat) {s : State} (h : Held s0 s) :
    Held s0 (State.emptySlot c k s) := by
  unfold State.emptySlot
  repeat' first | with_reducible exact h | with_reducible apply State.modCoreRun_held

theorem State.journalClose_held {s0 : State} (addr : Nat) {s : State} (h : Held s0 s) :
    Held s0 (State.journalClose addr s) := by
  unfold State.journalClose
  repeat' first
    | with_reducible assumption | intro _ | with_reducible apply Held.ite | with_reducible apply State.putJournal_held
    | with_reducible apply Held.foldl | split

theorem State.flashEraseDone_held {s0 : State} (blank : Bool) {s : State} (h : Held s0 s) :
    Held s0 (State.flashEraseDone blank s) := by
  unfold State.flashEraseDone
  repeat' first
    | with_reducible assumption | intro _ | with_reducible apply Held.ite | with_reducible apply State.count_held
    | with_reducible apply State.flashEnd_held | with_reducible apply State.flashNext_held
    | with_reducible apply State.journalClose_held | with_reducible apply State.modFlsh_held
    | with_reducible apply State.sectorErased_held | with_reducible apply Held.foldl | split

theorem State.flashProgram_held {s0 : State} (x1 : Nat) (x2 : Bytes) {s : State} (h : Held s0 s) :
    Held s0 (State.flashProgram x1 x2 s) := by
  induction x2 generalizing x1 s with
  | nil => exact h
  | cons x l ih =>
    unfold State.flashProgram
    repeat' first
      | with_reducible assumption | with_reducible apply ih | intro _ | with_reducible apply Held.ite
      | with_reducible apply State.modFlsh_held | with_reducible apply Held.foldl | split
      | (refine (?_ : Sparse.wf _ _ = true); assumption) | exact Sparse.wf_filter _ _ _ (by assumption)
      | exact Sparse.wf_put _ _ _ _ (by assumption) | (refine (?_ : _ < counterMod _); apply_assumption)
      | with_reducible apply Held.id | dsimp only

theorem State.pageLoaded_held {s0 : State} (c : FlashCmd) {s : State} (h : Held s0 s) :
    Held s0 (State.pageLoaded c s) := by
  unfold State.pageLoaded
  repeat' first
    | with_reducible assumption | intro _ | with_reducible apply Held.ite | with_reducible apply State.count_held
    | with_reducible apply State.countBy_held | with_reducible apply State.flashEnd_held
    | with_reducible apply State.putSram_held | with_reducible apply State.raise_held
    | with_reducible apply Held.foldl | split

theorem State.flashOpDone_held {s0 : State} (ok : Bool) {s : State} (h : Held s0 s) :
    Held s0 (State.flashOpDone ok s) := by
  unfold State.flashOpDone
  repeat' first
    | with_reducible assumption | intro _ | with_reducible apply Held.ite | with_reducible apply State.count_held
    | with_reducible apply State.countBy_held | with_reducible apply State.flashEnd_held
    | with_reducible apply State.flashNext_held | with_reducible apply State.flashProgram_held
    | with_reducible apply State.modFlsh_held | with_reducible apply State.pageLoaded_held
    | with_reducible apply State.putSram_held | with_reducible apply Held.foldl | split

theorem State.flrStart_held {s0 : State} (f : Nat) {s : State} (h : Held s0 s) :
    Held s0 (State.flrStart f s) := by
  unfold State.flrStart
  repeat' first
    | with_reducible exact h | with_reducible apply State.drainFn_held | with_reducible apply State.dropHands_held
    | with_reducible apply State.flushQueues_held | with_reducible apply State.modFn_held
    | with_reducible apply State.raise_held

theorem State.flr_held {s0 : State} (f : Nat) {s : State} (h : Held s0 s) :
    Held s0 (State.flr f s) := by
  unfold State.flr
  repeat' first
    | with_reducible assumption | intro _ | with_reducible apply Held.ite | with_reducible apply State.count_held
    | with_reducible apply State.flrStart_held | with_reducible apply State.modHif_held
    | with_reducible apply State.raiseMs_held | with_reducible apply Held.foldl | split

theorem State.flrComplete_held {s0 : State} (f : Nat) {s : State} (h : Held s0 s) :
    Held s0 (State.flrComplete f s) := by
  unfold State.flrComplete
  repeat' first
    | with_reducible assumption | intro _ | with_reducible apply Held.ite | with_reducible apply State.clearFn_held
    | with_reducible apply Held.foldl | split

theorem State.gatherFault_held {s0 : State} (f : Nat) (k : Nat) (j : TxJob) (cause : Nat) {s : State} (h : Held s0
    s) :
       Held s0 (State.gatherFault f k j cause s) := by
  unfold State.gatherFault
  repeat' first
    | with_reducible assumption | intro _ | with_reducible apply Held.ite | with_reducible apply State.count_held
    | with_reducible apply State.dropJob_held | with_reducible apply State.modFn_held
    | with_reducible apply State.modRing_held | with_reducible apply State.raise_held
    | with_reducible apply State.raiseMs_held | with_reducible apply State.ringAdvance_held
    | with_reducible apply State.setFld_held | with_reducible apply State.setRingState_held
    | with_reducible apply State.txComplete_held

theorem State.holdFlow_held {s0 : State} (k : Nat) {s : State} (h : Held s0 s) :
    Held s0 (State.holdFlow k s) := by
  unfold State.holdFlow
  repeat' first
    | with_reducible assumption | intro _ | with_reducible apply Held.ite | with_reducible apply State.flowJudge_held
    | with_reducible apply State.modCore_held | with_reducible apply Held.foldl | split

theorem State.wakeLatch_held {s0 : State} (b : Nat) (f : Nat) {s : State} (h : Held s0 s) :
    Held s0 (State.wakeLatch b f s) := by
  unfold State.wakeLatch
  repeat' first
    | with_reducible assumption | intro _ | with_reducible apply Held.ite | with_reducible apply State.count_held
    | with_reducible apply State.modFn_held | with_reducible apply State.modHif_held
    | with_reducible apply State.raise_held | with_reducible apply State.setFld_held

theorem State.kstCmd_held {s0 : State} (bits : Nat) {f : State → State} {s : State} (h : Held s0 s) (h2 : ∀ y0, Held
    s0 y0 → Held s0 (f y0)) :
       Held s0 (State.kstCmd bits f s) := by
  unfold State.kstCmd
  repeat' first
    | with_reducible assumption | intro _ | with_reducible apply Held.ite | with_reducible apply State.guarded_held
    | with_reducible apply State.ignored_held | with_reducible apply h2

theorem State.l1Entry_held {s0 : State} (idle : Nat) {s : State} (h : Held s0 s) :
    Held s0 (State.l1Entry idle s) := by
  unfold State.l1Entry
  repeat' first
    | with_reducible assumption | intro _ | with_reducible apply Held.ite | with_reducible apply State.emit_held
    | with_reducible apply State.setFld_held | with_reducible apply State.useFree_held

theorem State.l1Exit_held {s0 : State} {s : State} (h : Held s0 s) :
    Held s0 (State.l1Exit s) := by
  unfold State.l1Exit
  repeat' first
    | with_reducible assumption | intro _ | with_reducible apply Held.ite | with_reducible apply State.emit_held
    | with_reducible apply State.setFld_held

theorem State.linkErrors_held {s0 : State} (n : Nat) {s : State} (h : Held s0 s) :
    Held s0 (State.linkErrors n s) := by
  unfold State.linkErrors
  repeat' first
    | with_reducible assumption | intro _ | with_reducible apply State.countBy_held
    | with_reducible apply State.iff_held | with_reducible apply State.modFn_held
    | with_reducible apply State.raiseMs_held

theorem State.moderationEnd_held {s0 : State} (f : Nat) (rx : Bool) (k : Nat) {s : State} (h : Held s0 s) :
    Held s0 (State.moderationEnd f rx k s) := by
  unfold State.moderationEnd
  repeat' first
    | with_reducible assumption | intro _ | with_reducible apply Held.ite | with_reducible apply State.modRing_held
    | with_reducible apply State.sendLocal_held

theorem State.msixUnmask_held {s0 : State} (f : Nat) (vec : Option Nat) {s : State} (h : Held s0 s) :
    Held s0 (State.msixUnmask f vec s) := by
  unfold State.msixUnmask
  repeat' first
    | with_reducible assumption | intro _ | with_reducible apply Held.ite | with_reducible apply State.modFn_held
    | with_reducible apply State.modHif_held | with_reducible apply State.sendPending_held
    | with_reducible apply Held.foldl | split

theorem State.widthRequest_held {s0 : State} {s : State} (h : Held s0 s) :
    Held s0 (State.widthRequest s) := by
  unfold State.widthRequest
  repeat' first
    | with_reducible exact h | with_reducible apply State.count_held | with_reducible apply State.emit_held
    | with_reducible apply State.modHif_held

theorem State.narrowRequest_held {s0 : State} (util : Nat) (ms : Nat) {s : State} (h : Held s0 s) :
    Held s0 (State.narrowRequest util ms s) := by
  unfold State.narrowRequest
  repeat' first
    | with_reducible assumption | intro _ | with_reducible apply Held.ite
    | with_reducible apply State.widthRequest_held

theorem State.narrowRetry_held {s0 : State} (util : Nat) (ms : Nat) {s : State} (h : Held s0 s) :
    Held s0 (State.narrowRetry util ms s) := by
  unfold State.narrowRetry
  repeat' first
    | with_reducible assumption | intro _ | with_reducible apply Held.ite
    | with_reducible apply State.widthRequest_held

theorem State.trained_held {s0 : State} (width : Nat) (rate : Nat) {s : State} (h : Held s0 s) :
    Held s0 (State.trained width rate s) := by
  unfold State.trained
  repeat' first | with_reducible exact h | with_reducible apply State.setFld_held

theorem State.retrained_held {s0 : State} (width : Nat) (rate : Nat) {s : State} (h : Held s0 s) :
    Held s0 (State.retrained width rate s) := by
  unfold State.retrained
  repeat' first
    | with_reducible assumption | intro _ | with_reducible apply State.count_held
    | with_reducible apply State.iff_held | with_reducible apply State.raiseMs_held
    | with_reducible apply State.trained_held

theorem State.narrowWithdraw_held {s0 : State} (width : Nat) (rate : Nat) {s : State} (h : Held s0 s) :
    Held s0 (State.narrowWithdraw width rate s) := by
  unfold State.narrowWithdraw
  repeat' first
    | with_reducible assumption | intro _ | with_reducible apply Held.ite | with_reducible apply State.count_held
    | with_reducible apply State.modHif_held | with_reducible apply State.raise_held
    | with_reducible apply State.retrained_held

theorem State.onAwake_held {s0 : State} (c : Nat) (k : Nat) {f : State → State} {s : State} (h : Held s0 s) (h3 : ∀
    y0, Held s0 y0 → Held s0 (f y0)) :
       Held s0 (State.onAwake c k f s) := by
  unfold State.onAwake
  repeat' first
    | with_reducible assumption | intro _ | with_reducible apply Held.ite | with_reducible apply State.count_held
    | with_reducible apply State.wakeDomain_held | with_reducible apply h3

theorem State.perstDeassert_held {s0 : State} (strap : Bool) {s : State} (h : Held s0 s) :
    Held s0 (State.perstDeassert strap s) := by
  unfold State.perstDeassert
  repeat' first
    | with_reducible assumption | intro _ | with_reducible apply Held.ite | with_reducible apply State.modHif_held
    | with_reducible apply State.setFld_held | with_reducible apply State.settleRegion_held

theorem State.perstAssert_held {s0 : State} {s : State} (h : Held s0 s) :
    Held s0 (State.perstAssert s) := by
  unfold State.perstAssert
  repeat' first
    | with_reducible assumption | intro _ | with_reducible apply Held.ite | with_reducible apply State.modHif_held
    | with_reducible apply State.regionReset_held | with_reducible apply State.settleRegion_held

theorem State.wakeJudge_held {s0 : State} {s : State} (h : Held s0 s) :
    Held s0 (State.wakeJudge s) := by
  unfold State.wakeJudge
  repeat' first
    | with_reducible exact h | with_reducible apply State.iff_held | with_reducible apply State.setFld_held

theorem State.pmeSend_held {s0 : State} {s : State} (h : Held s0 s) :
    Held s0 (State.pmeSend s) := by
  unfold State.pmeSend
  repeat' first
    | with_reducible assumption | intro _ | with_reducible apply Held.ite | with_reducible apply State.count_held
    | with_reducible apply State.emit_held | with_reducible apply State.iff_held
    | with_reducible apply State.modFn_held | with_reducible apply State.raise_held
    | with_reducible apply State.wakeJudge_held | with_reducible apply Held.foldl | split

theorem State.puntyFlip_held {s0 : State} {s : State} (h : Held s0 s) :
    Held s0 (State.puntyFlip s) := by
  unfold State.puntyFlip
  repeat' first
    | with_reducible assumption | intro _ | with_reducible apply Held.ite | with_reducible apply State.count_held
    | with_reducible apply State.holdHalf_held | with_reducible apply State.judgeTasks_held
    | with_reducible apply State.modCore_held | with_reducible apply State.raise_held
    | with_reducible apply State.setFld_held | with_reducible apply State.setPunty_held
    | with_reducible apply State.swapBanks_held | with_reducible apply Held.foldl | split

theorem State.puntyLoad_held {s0 : State} {s : State} (h : Held s0 s) :
    Held s0 (State.puntyLoad s) := by
  unfold State.puntyLoad
  repeat' first
    | with_reducible assumption | intro _ | with_reducible apply Held.ite | with_reducible apply State.iff_held
    | with_reducible apply State.modCore_held | with_reducible apply State.releaseHalf_held
    | with_reducible apply State.setPunty_held | with_reducible apply State.tryLoad_held
    | with_reducible apply Held.foldl | split

theorem State.recovery_held {s0 : State} (width : Nat) (rate : Nat) (errors : Nat) {s : State} (h : Held s0 s) :
    Held s0 (State.recovery width rate errors s) := by
  unfold State.recovery
  repeat' first
    | with_reducible assumption | intro _ | with_reducible apply Held.ite | with_reducible apply State.count_held
    | with_reducible apply State.linkErrors_held | with_reducible apply State.modHif_held
    | with_reducible apply State.raise_held | with_reducible apply State.raiseMs_held
    | with_reducible apply State.retrained_held | with_reducible apply State.setFld_held
    | with_reducible apply State.trained_held

theorem State.ringTail_held {s0 : State} (f : Nat) (rx : Bool) (k : Nat) (tail : Nat) {s : State} (h : Held s0 s) :
    Held s0 (State.ringTail f rx k tail s) := by
  unfold State.ringTail
  repeat' first
    | with_reducible assumption | intro _ | with_reducible apply Held.ite | with_reducible apply State.iff_held
    | with_reducible apply State.setRg_held | with_reducible apply State.starveJudge_held
    | with_reducible apply Held.foldl | split

theorem State.ringRestart_held {s0 : State} (f : Nat) (k : Nat) {s : State} (h : Held s0 s) :
    Held s0 (State.ringRestart f k s) := by
  unfold State.ringRestart
  repeat' first
    | with_reducible assumption | intro _ | with_reducible apply Held.ite | with_reducible apply State.iff_held
    | with_reducible apply State.modRing_held | with_reducible apply State.setRingState_held
    | with_reducible apply State.startJob_held | with_reducible apply Held.foldl | split

theorem State.ringSkip_held {s0 : State} (f : Nat) (k : Nat) {s : State} (h : Held s0 s) :
    Held s0 (State.ringSkip f k s) := by
  unfold State.ringSkip
  repeat' first
    | with_reducible assumption | intro _ | with_reducible apply Held.ite | with_reducible apply State.modRing_held
    | with_reducible apply State.ringAdvance_held | with_reducible apply State.setRingState_held
    | with_reducible apply Held.foldl | split

theorem State.ringDisable_held {s0 : State} (f : Nat) (rx : Bool) (k : Nat) {s : State} (h : Held s0 s) :
    Held s0 (State.ringDisable f rx k s) := by
  unfold State.ringDisable
  repeat' first
    | with_reducible assumption | intro _ | with_reducible apply Held.ite | with_reducible apply State.drainRing_held
    | with_reducible apply State.setRg_held

theorem State.ringDrained_held {s0 : State} (f : Nat) (rx : Bool) (k : Nat) {s : State} (h : Held s0 s) :
    Held s0 (State.ringDrained f rx k s) := by
  unfold State.ringDrained
  repeat' first
    | with_reducible assumption | intro _ | with_reducible apply Held.ite | with_reducible apply State.ringRun_held
    | with_reducible apply State.setRg_held | with_reducible apply State.setRingState_held

theorem State.segArrive_held {s0 : State} (f : Nat) (j : TxJob) (bytes : Bytes) {s : State} (h : Held s0 s) :
    Held s0 (State.segArrive f j bytes s).1 := by
  unfold State.segArrive
  repeat' first
    | with_reducible assumption | intro _ | with_reducible apply Held.ite | with_reducible apply Held.ite_fst
    | with_reducible apply State.admitStart_held | with_reducible apply State.drawCells_held
    | with_reducible apply State.iff_held | with_reducible apply State.putFrame_held | with_reducible apply Held.foldl
    | split

theorem State.txOffer_held {s0 : State} (f : Nat) (k : Nat) (j : TxJob) {s : State} (h : Held s0 s) :
    Held s0 (State.txOffer f k j s) := by
  unfold State.txOffer
  repeat' first
    | with_reducible exact h | with_reducible apply State.count_held | with_reducible apply State.countBy_held
    | with_reducible apply State.modCls_held | with_reducible apply State.modFrame_held
    | with_reducible apply State.modRing_held | with_reducible apply State.txEnd_held

theorem State.segData_held {s0 : State} (f : Nat) (k : Nat) (j : TxJob) (bs : Bytes) {s : State} (h : Held s0 s) :
    Held s0 (State.segData f k j bs s) := by
  unfold State.segData
  repeat' first
    | with_reducible assumption | intro _ | with_reducible apply Held.ite | with_reducible apply State.iff_held
    | with_reducible apply State.modRing_held | with_reducible apply State.modSto_held
    | with_reducible apply State.readSegment_held | with_reducible apply State.segArrive_held
    | with_reducible apply State.txEnd_held | with_reducible apply State.txOffer_held

theorem State.segComplete_held {s0 : State} (f : Nat) (k : Nat) (c : SegCompletion) {s : State} (h : Held s0 s) :
    Held s0 (State.segComplete f k c s) := by
  unfold State.segComplete
  repeat' first
    | with_reducible assumption | intro _ | with_reducible apply Held.ite
    | with_reducible apply State.gatherFault_held | with_reducible apply State.segData_held
    | with_reducible apply Held.foldl | split

theorem State.unready_held {s0 : State} (k : Nat) {s : State} (h : Held s0 s) :
    Held s0 (State.unready k s) := by
  unfold State.unready
  repeat' first | with_reducible exact h | with_reducible apply State.modTsk_held

theorem State.slotPrefetch_held {s0 : State} (c : Nat) (k : Nat) {s : State} (h : Held s0 s) :
    Held s0 (State.slotPrefetch c k s) := by
  unfold State.slotPrefetch
  repeat' first
    | with_reducible assumption | intro _ | with_reducible apply Held.ite | with_reducible apply State.modCoreRun_held
    | with_reducible apply State.onAwake_held | with_reducible apply State.putLocal_held
    | with_reducible apply State.setTaskState_held | with_reducible apply State.unready_held
    | with_reducible apply State.useFree_held

theorem State.startTask_held {s0 : State} (c : Nat) (k : Nat) {s : State} (h : Held s0 s) :
    Held s0 (State.startTask c k s) := by
  unfold State.startTask
  repeat' first
    | with_reducible exact h | with_reducible apply State.count_held | with_reducible apply State.holdFlow_held
    | with_reducible apply State.modCoreRun_held | with_reducible apply State.putTw_held
    | with_reducible apply State.setTaskState_held | with_reducible apply State.unready_held

theorem State.taskDispatch_held {s0 : State} (c : Nat) (k : Nat) {s : State} (h : Held s0 s) :
    Held s0 (State.taskDispatch c k s) := by
  unfold State.taskDispatch
  repeat' first
    | with_reducible assumption | intro _ | with_reducible apply Held.ite | with_reducible apply State.emptySlot_held
    | with_reducible apply State.onAwake_held | with_reducible apply State.startTask_held
    | with_reducible apply State.taskWaits_held

theorem State.taskEnd_held {s0 : State} (c : Nat) {s : State} (h : Held s0 s) :
    Held s0 (State.taskEnd c s) := by
  unfold State.taskEnd
  repeat' first
    | with_reducible assumption | intro _ | with_reducible apply Held.ite | with_reducible apply State.endTask_held
    | with_reducible apply State.modCoreRun_held | with_reducible apply State.setTaskState_held
    | with_reducible apply Held.foldl | split

theorem State.taskFlow_held {s0 : State} (c : Nat) (flow : Nat) (held : Bool) {s : State} (h : Held s0 s) :
    Held s0 (State.taskFlow c flow held s) := by
  unfold State.taskFlow
  repeat' first
    | with_reducible assumption | intro _ | with_reducible apply Held.ite | with_reducible apply State.coreTrap_held
    | with_reducible apply State.releaseFlow_held | with_reducible apply State.useFree_held
    | with_reducible apply Held.foldl | split

theorem State.taskPreempt_held {s0 : State} (c : Nat) (k : Nat) {s : State} (h : Held s0 s) :
    Held s0 (State.taskPreempt c k s) := by
  unfold State.taskPreempt
  repeat' first
    | with_reducible assumption | intro _ | with_reducible apply Held.ite | with_reducible apply State.count_held
    | with_reducible apply State.modCoreRun_held | with_reducible apply State.raiseMs_held
    | with_reducible apply State.setTaskState_held | with_reducible apply State.startTask_held
    | with_reducible apply Held.foldl | split | with_reducible apply Held.id | dsimp only

theorem State.tick_held {s : State} : Held (s.modNow (· + 1)) s.tick := by
  unfold State.tick
  have h : Held (s.modNow (· + 1)) ((List.range 16).foldl (fun s c => s.coreCycles c) (s.modNow (· + 1))) :=
    Held.foldl (fun x c hx => State.coreCycles_held c hx) _ (Held.refl _)
  have k := State.timeMove_held (((List.range 16).foldl (fun s c => s.coreCycles c) (s.modNow (· + 1))).time.val + symUnits) h
  exact Held.ite (State.iff_held _ k (fun y hy => State.snapReach_held _ _ hy)) h

theorem State.timerExpire_held {s0 : State} (t : Nat) {s : State} (h : Held s0 s) :
    Held s0 (State.timerExpire t s) := by
  unfold State.timerExpire
  repeat' first
    | with_reducible assumption | intro _ | with_reducible apply Held.ite | with_reducible apply State.count_held
    | with_reducible apply State.iff_held | with_reducible apply State.modTsk_held
    | with_reducible apply State.routeEvent_held | with_reducible apply State.setTf_held

theorem State.wakeCause_held {s0 : State} (cause : Nat) (f : Nat) {s : State} (h : Held s0 s) :
    Held s0 (State.wakeCause cause f s) := by
  unfold State.wakeCause
  repeat' first
    | with_reducible assumption | intro _ | with_reducible apply Held.ite | with_reducible apply State.wakeLatch_held

theorem State.watchdogExpire_held {s0 : State} (c : Nat) {s : State} (h : Held s0 s) :
    Held s0 (State.watchdogExpire c s) := by
  unfold State.watchdogExpire
  repeat' first
    | with_reducible assumption | intro _ | with_reducible apply Held.ite
    | with_reducible apply State.containCore_held | with_reducible apply State.count_held
    | with_reducible apply State.puntyAbort_held | with_reducible apply State.raise_held

theorem execHalDisable_held {s0 : State} (t : Tree) {s : State} (h : Held s0 s) :
    ∀ out, execHalDisable t s = .next out → Held s0 out := by
  intro out e; cases e
  repeat' first
    | with_reducible exact h | with_reducible apply State.halStop_held | with_reducible apply State.pageOff_held

theorem execHalPreambleDetect_held {s0 : State} (t : Tree) (gain : Nat) {s : State} (h : Held s0 s) :
    ∀ out, execHalPreambleDetect t gain s = .next out → Held s0 out := by
  intro out e; cases e
  repeat' first | with_reducible exact h | with_reducible apply State.halDetect_held

theorem execHalSyncFound_held {s0 : State} (t : Tree) (fc : Nat) (ofs : Nat) {s : State} (h : Held s0 s) :
    ∀ out, execHalSyncFound t fc ofs s = .next out → Held s0 out := by
  intro out e; cases e
  repeat' first | with_reducible exact h | with_reducible apply State.modHals_held

theorem execHalSyncMiss_held {s0 : State} (t : Tree) {s : State} (h : Held s0 s) :
    ∀ out, execHalSyncMiss t s = .next out → Held s0 out := by
  intro out e; cases e
  repeat' first | with_reducible exact h | with_reducible apply State.halHeaderFail_held

theorem execHalHeader_held {s0 : State} (t : Tree) (syms : List Nat) {s : State} (h : Held s0 s) :
    ∀ out, execHalHeader t syms s = .next out → Held s0 out := by
  intro out e; cases e
  repeat' first
    | with_reducible assumption | intro _ | with_reducible apply Held.ite
    | with_reducible apply State.halHeaderFail_held | with_reducible apply State.modHals_held
    | with_reducible apply Held.foldl | split

theorem execHalFrameEnd_held {s0 : State} (t : Tree) (syms : List Nat) (level : Nat) {s : State} (h : Held s0 s) :
    ∀ out, execHalFrameEnd t syms level s = .next out → Held s0 out := by
  intro out e; cases e
  repeat' first | with_reducible exact h | with_reducible apply State.halFrameEnd_held

theorem execHalAgcTimeout_held {s0 : State} (t : Tree) {s : State} (h : Held s0 s) :
    ∀ out, execHalAgcTimeout t s = .next out → Held s0 out := by
  intro out e; cases e
  repeat' first
    | with_reducible assumption | intro _ | with_reducible apply State.count_held
    | with_reducible apply State.halRelease_held | with_reducible apply State.iff_held

theorem execHalRxActiveLost_held {s0 : State} (t : Tree) {s : State} (h : Held s0 s) :
    ∀ out, execHalRxActiveLost t s = .next out → Held s0 out := by
  intro out e; cases e
  repeat' first | with_reducible exact h | with_reducible apply State.halJudge_held

theorem execHalRxSyncTimeout_held {s0 : State} (t : Tree) {s : State} (h : Held s0 s) :
    ∀ out, execHalRxSyncTimeout t s = .next out → Held s0 out := by
  intro out e; cases e
  repeat' first
    | with_reducible exact h | with_reducible apply State.halSync_held | with_reducible apply State.iff_held

theorem execBeacon_held {s0 : State} (t : Tree) (payload : Bytes) {s : State} (h : Held s0 s) :
    ∀ out, execBeacon t payload s = .next out → Held s0 out := by
  intro out e; cases e
  repeat' first
    | with_reducible assumption | intro _ | with_reducible apply State.discover_held
    | with_reducible apply State.iff_held | with_reducible apply State.setMode_held

theorem execRangeRequest_held {s0 : State} (t : Tree) (payload : Bytes) {s : State} (h : Held s0 s) :
    ∀ out, execRangeRequest t payload s = .next out → Held s0 out := by
  intro out e; cases e
  repeat' first
    | with_reducible assumption | intro _ | with_reducible apply State.halSend_held
    | with_reducible apply State.iff_held | with_reducible apply State.modActs_held

theorem execWake_held {s0 : State} (t : Tree) (payload : Bytes) {s : State} (h : Held s0 s) :
    ∀ out, execWake t payload s = .next out → Held s0 out := by
  intro out e; cases e
  repeat' first
    | with_reducible assumption | intro _ | with_reducible apply State.iff_held
    | with_reducible apply State.modActs_held | with_reducible apply State.wakeRequest_held

theorem execNoticeAck_held {s0 : State} (t : Tree) (payload : Bytes) {s : State} (h : Held s0 s) :
    ∀ out, execNoticeAck t payload s = .next out → Held s0 out := by
  intro out e; cases e
  repeat' first
    | with_reducible exact h | with_reducible apply State.ackNotice_held | with_reducible apply State.iff_held

theorem execHalSubmit_held {s0 : State} (t : Tree) (slot : Nat) {s : State} (h : Held s0 s) :
    ∀ out, execHalSubmit t slot s = .next out → Held s0 out := by
  intro out e; cases e
  repeat' first
    | with_reducible exact h | with_reducible apply State.guarded_held | with_reducible apply State.halSubmitCmd_held

theorem execHalCancel_held {s0 : State} (t : Tree) (slot : Nat) {s : State} (h : Held s0 s) :
    ∀ out, execHalCancel t slot s = .next out → Held s0 out := by
  intro out e; cases e
  repeat' first
    | with_reducible exact h | with_reducible apply State.guarded_held | with_reducible apply State.halCancel_held

theorem execHalCommit_held {s0 : State} (t : Tree) (slot : Nat) {s : State} (h : Held s0 s) :
    ∀ out, execHalCommit t slot s = .next out → Held s0 out := by
  intro out e; cases e
  repeat' first
    | with_reducible exact h | with_reducible apply State.halCommit_held | with_reducible apply State.iff_held

theorem execHalTxStart_held {s0 : State} (t : Tree) (slot : Nat) {s : State} (h : Held s0 s) :
    ∀ out, execHalTxStart t slot s = .next out → Held s0 out := by
  intro out e; cases e
  repeat' first | with_reducible exact h | with_reducible apply State.halStart_held

theorem execHalTxEnd_held {s0 : State} (t : Tree) (slot : Nat) {s : State} (h : Held s0 s) :
    ∀ out, execHalTxEnd t slot s = .next out → Held s0 out := by
  intro out e; cases e
  repeat' first
    | with_reducible assumption | intro _ | with_reducible apply Held.ite | with_reducible apply State.halEnd_held
    | with_reducible apply State.halNoticeSent_held | with_reducible apply State.iff_held
    | with_reducible apply Held.foldl | split

theorem execCcryStart_held {s0 : State} (slot : Nat) {s : State} (h : Held s0 s) :
    ∀ out, execCcryStart slot s = .next out → Held s0 out := by
  intro out e; cases e
  repeat' first
    | with_reducible exact h | with_reducible apply State.ccryCmd_held | with_reducible apply State.ccryStart_held

theorem execCcryAbort_held {s0 : State} (slot : Nat) {s : State} (h : Held s0 s) :
    ∀ out, execCcryAbort slot s = .next out → Held s0 out := by
  intro out e; cases e
  repeat' first
    | with_reducible exact h | with_reducible apply State.ccryAbort_held | with_reducible apply State.ccryCmd_held

theorem execCcryExport_held {s0 : State} (slot : Nat) (wrapped : Bool) {s : State} (h : Held s0 s) :
    ∀ out, execCcryExport slot wrapped s = .next out → Held s0 out := by
  intro out e; cases e
  repeat' first
    | with_reducible assumption | intro _ | with_reducible apply State.ccryCmd_held
    | with_reducible apply State.ccryExport_held

theorem execCcryImport_held {s0 : State} (slot : Nat) {s : State} (h : Held s0 s) :
    ∀ out, execCcryImport slot s = .next out → Held s0 out := by
  intro out e; cases e
  repeat' first
    | with_reducible exact h | with_reducible apply State.ccryCmd_held | with_reducible apply State.ccryImport_held

theorem execCcryJobDone_held {s0 : State} (slot : Nat) {s : State} (h : Held s0 s) :
    ∀ out, execCcryJobDone slot s = .next out → Held s0 out := by
  intro out e; cases e
  repeat' first | with_reducible exact h | with_reducible apply State.ccryDone_held

theorem execCcryDisable_held {s0 : State} {s : State} (h : Held s0 s) :
    ∀ out, execCcryDisable s = .next out → Held s0 out := by
  intro out e; cases e
  repeat' first
    | with_reducible exact h | with_reducible apply State.ccryStop_held | with_reducible apply State.pageOff_held

theorem execKstCommit_held {s0 : State} {s : State} (h : Held s0 s) :
    ∀ out, execKstCommit s = .next out → Held s0 out := by
  intro out e; cases e
  repeat' first
    | with_reducible exact h | with_reducible apply State.kstCmd_held | with_reducible apply State.kstCommit_held

theorem execKstCommitDone_held {s0 : State} (ok : Bool) {s : State} (h : Held s0 s) :
    ∀ out, execKstCommitDone ok s = .next out → Held s0 out := by
  intro out e; cases e
  repeat' first | with_reducible exact h | with_reducible apply State.kstCommitDone_held

theorem execKstGenkey_held {s0 : State} {s : State} (h : Held s0 s) :
    ∀ out, execKstGenkey s = .next out → Held s0 out := by
  intro out e; cases e
  repeat' first
    | with_reducible exact h | with_reducible apply State.kstCmd_held | with_reducible apply State.kstGenkey_held

theorem execKstGenkeyDone_held {s0 : State} {s : State} (h : Held s0 s) :
    ∀ out, execKstGenkeyDone s = .next out → Held s0 out := by
  intro out e; cases e
  repeat' first | with_reducible exact h | with_reducible apply State.kstGenkeyDone_held

theorem execKstDisable_held {s0 : State} {s : State} (h : Held s0 s) :
    ∀ out, execKstDisable s = .next out → Held s0 out := by
  intro out e; cases e
  repeat' first
    | with_reducible assumption | intro _ | with_reducible apply Held.ite | with_reducible apply State.pageOff_held
    | with_reducible apply Held.foldl | split | with_reducible apply Held.id | dsimp only

theorem execPerstAssert_held {s0 : State} {s : State} (h : Held s0 s) :
    ∀ out, execPerstAssert s = .next out → Held s0 out := by
  intro out e; cases e
  repeat' first
    | with_reducible exact h | with_reducible apply State.iff_held | with_reducible apply State.perstAssert_held

theorem execPerstDeassert_held {s0 : State} (strap : Bool) {s : State} (h : Held s0 s) :
    ∀ out, execPerstDeassert strap s = .next out → Held s0 out := by
  intro out e; cases e
  repeat' first
    | with_reducible exact h | with_reducible apply State.iff_held | with_reducible apply State.perstDeassert_held

theorem execPcieConfigWrite_held {s0 : State} (fn : Nat) (w : CfgWrite) {s : State} (h : Held s0 s) :
    ∀ out, execPcieConfigWrite fn w s = .next out → Held s0 out := by
  intro out e; cases e
  repeat' first | with_reducible exact h | with_reducible apply State.configWrite_held

theorem execMsixUnmask_held {s0 : State} (fn : Nat) (vec : Option Nat) {s : State} (h : Held s0 s) :
    ∀ out, execMsixUnmask fn vec s = .next out → Held s0 out := by
  intro out e; cases e
  repeat' first | with_reducible exact h | with_reducible apply State.msixUnmask_held

theorem execFunctionLevelReset_held {s0 : State} (fn : Nat) {s : State} (h : Held s0 s) :
    ∀ out, execFunctionLevelReset fn s = .next out → Held s0 out := by
  intro out e; cases e
  repeat' first | with_reducible exact h | with_reducible apply State.flr_held

theorem execFlrComplete_held {s0 : State} (fn : Nat) {s : State} (h : Held s0 s) :
    ∀ out, execFlrComplete fn s = .next out → Held s0 out := by
  intro out e; cases e
  repeat' first | with_reducible exact h | with_reducible apply State.flrComplete_held

theorem execRingTailWrite_held {s0 : State} (fn : Nat) (rx : Bool) (k : Nat) (tail : Nat) {s : State} (h : Held s0
    s) :
       ∀ out, execRingTailWrite fn rx k tail s = .next out → Held s0 out := by
  intro out e; cases e
  repeat' first | with_reducible exact h | with_reducible apply State.ringTail_held

theorem execRingDisable_held {s0 : State} (fn : Nat) (rx : Bool) (k : Nat) {s : State} (h : Held s0 s) :
    ∀ out, execRingDisable fn rx k s = .next out → Held s0 out := by
  intro out e; cases e
  repeat' first | with_reducible exact h | with_reducible apply State.ringDisable_held

theorem execRingDrained_held {s0 : State} (fn : Nat) (rx : Bool) (k : Nat) {s : State} (h : Held s0 s) :
    ∀ out, execRingDrained fn rx k s = .next out → Held s0 out := by
  intro out e; cases e
  repeat' first | with_reducible exact h | with_reducible apply State.ringDrained_held

theorem execRingRestart_held {s0 : State} (fn : Nat) (k : Nat) {s : State} (h : Held s0 s) :
    ∀ out, execRingRestart fn k s = .next out → Held s0 out := by
  intro out e; cases e
  repeat' first | with_reducible exact h | with_reducible apply State.ringRestart_held

theorem execRingSkip_held {s0 : State} (fn : Nat) (k : Nat) {s : State} (h : Held s0 s) :
    ∀ out, execRingSkip fn k s = .next out → Held s0 out := by
  intro out e; cases e
  repeat' first | with_reducible exact h | with_reducible apply State.ringSkip_held

theorem execFuncStatusClear_held {s0 : State} (fn : Nat) {s : State} (h : Held s0 s) :
    ∀ out, execFuncStatusClear fn s = .next out → Held s0 out := by
  intro out e; cases e
  repeat' first | with_reducible exact h | with_reducible apply State.iff_held | with_reducible apply State.modFn_held

theorem execDmaTxFrame_held {s0 : State} (fn : Nat) (k : Nat) (entries : List Bytes) {s : State} (h : Held s0 s) :
    ∀ out, execDmaTxFrame fn k entries s = .next out → Held s0 out := by
  intro out e; cases e
  repeat' first | with_reducible exact h | with_reducible apply State.dmaTxFrame_held

theorem execDmaSegComplete_held {s0 : State} (fn : Nat) (k : Nat) (c : SegCompletion) {s : State} (h : Held s0 s) :
    ∀ out, execDmaSegComplete fn k c s = .next out → Held s0 out := by
  intro out e; cases e
  repeat' first | with_reducible exact h | with_reducible apply State.segComplete_held

theorem execDmaRxWrite_held {s0 : State} (fn : Nat) (cls : Nat) (bufs : List Bytes) {s : State} (h : Held s0 s) :
    ∀ out, execDmaRxWrite fn cls bufs s = .next out → Held s0 out := by
  intro out e; cases e
  repeat' first | with_reducible exact h | with_reducible apply State.dmaRxWrite_held

theorem execMsixModeration_held {s0 : State} (fn : Nat) (rx : Bool) (k : Nat) {s : State} (h : Held s0 s) :
    ∀ out, execMsixModeration fn rx k s = .next out → Held s0 out := by
  intro out e; cases e
  repeat' first | with_reducible exact h | with_reducible apply State.moderationEnd_held

theorem execDmaDisable_held {s0 : State} {s : State} (h : Held s0 s) :
    ∀ out, execDmaDisable s = .next out → Held s0 out := by
  intro out e; cases e
  repeat' first
    | with_reducible assumption | intro _ | with_reducible apply Held.ite | with_reducible apply State.drainRing_held
    | with_reducible apply State.pageOff_held | with_reducible apply Held.foldl | split

theorem execL1Entry_held {s0 : State} (idle : Nat) {s : State} (h : Held s0 s) :
    ∀ out, execL1Entry idle s = .next out → Held s0 out := by
  intro out e; cases e
  repeat' first | with_reducible exact h | with_reducible apply State.l1Entry_held

theorem execL1Exit_held {s0 : State} {s : State} (h : Held s0 s) :
    ∀ out, execL1Exit s = .next out → Held s0 out := by
  intro out e; cases e
  repeat' first | with_reducible exact h | with_reducible apply State.l1Exit_held

theorem execWakeCauseLatch_held {s0 : State} (cause : Nat) (fn : Nat) {s : State} (h : Held s0 s) :
    ∀ out, execWakeCauseLatch cause fn s = .next out → Held s0 out := by
  intro out e; cases e
  repeat' first | with_reducible exact h | with_reducible apply State.wakeCause_held

theorem execPmeSend_held {s0 : State} {s : State} (h : Held s0 s) :
    ∀ out, execPmeSend s = .next out → Held s0 out := by
  intro out e; cases e
  repeat' first | with_reducible exact h | with_reducible apply State.pmeSend_held

theorem execWakeCauseClear_held {s0 : State} (bits : Nat) {s : State} (h : Held s0 s) :
    ∀ out, execWakeCauseClear bits s = .next out → Held s0 out := by
  intro out e; cases e
  repeat' first
    | with_reducible exact h | with_reducible apply State.guarded_held | with_reducible apply State.wakeClear_held

theorem execNarrowRequest_held {s0 : State} (util : Nat) (ms : Nat) {s : State} (h : Held s0 s) :
    ∀ out, execNarrowRequest util ms s = .next out → Held s0 out := by
  intro out e; cases e
  repeat' first | with_reducible exact h | with_reducible apply State.narrowRequest_held

theorem execNarrowWithdraw_held {s0 : State} (width : Nat) (rate : Nat) {s : State} (h : Held s0 s) :
    ∀ out, execNarrowWithdraw width rate s = .next out → Held s0 out := by
  intro out e; cases e
  repeat' first | with_reducible exact h | with_reducible apply State.narrowWithdraw_held

theorem execNarrowRetry_held {s0 : State} (util : Nat) (ms : Nat) {s : State} (h : Held s0 s) :
    ∀ out, execNarrowRetry util ms s = .next out → Held s0 out := by
  intro out e; cases e
  repeat' first | with_reducible exact h | with_reducible apply State.narrowRetry_held

theorem execCxlEnumerate_held {s0 : State} {s : State} (h : Held s0 s) :
    ∀ out, execCxlEnumerate s = .next out → Held s0 out := by
  intro out e; cases e
  repeat' first
    | with_reducible exact h | with_reducible apply State.cxlStart_held | with_reducible apply State.pageOn_held

theorem execCxlEnumDone_held {s0 : State} (res : Nat) (capacity : Nat) (speed : Nat) (width : Nat) {s : State} (h :
    Held s0 s) :
       ∀ out, execCxlEnumDone res capacity speed width s = .next out → Held s0 out := by
  intro out e; cases e
  repeat' first | with_reducible exact h | with_reducible apply State.cxlEnumDone_held

theorem execCxlLinkDown_held {s0 : State} {s : State} (h : Held s0 s) :
    ∀ out, execCxlLinkDown s = .next out → Held s0 out := by
  intro out e; cases e
  repeat' first
    | with_reducible assumption | intro _ | with_reducible apply State.cxlAgain_held
    | with_reducible apply State.cxlDown_held | with_reducible apply State.iff_held

theorem execHifDisable_held {s0 : State} {s : State} (h : Held s0 s) :
    ∀ out, execHifDisable s = .next out → Held s0 out := by
  intro out e; cases e
  repeat' first
    | with_reducible exact h | with_reducible apply State.cxlStop_held | with_reducible apply State.pageOff_held

theorem execTaskDispatch_held {s0 : State} (core : Nat) (task : Nat) {s : State} (h : Held s0 s) :
    ∀ out, execTaskDispatch core task s = .next out → Held s0 out := by
  intro out e; cases e
  repeat' first | with_reducible exact h | with_reducible apply State.taskDispatch_held

theorem execSlotPrefetch_held {s0 : State} (core : Nat) (task : Nat) {s : State} (h : Held s0 s) :
    ∀ out, execSlotPrefetch core task s = .next out → Held s0 out := by
  intro out e; cases e
  repeat' first | with_reducible exact h | with_reducible apply State.slotPrefetch_held

theorem execTaskPreempt_held {s0 : State} (core : Nat) (task : Nat) {s : State} (h : Held s0 s) :
    ∀ out, execTaskPreempt core task s = .next out → Held s0 out := by
  intro out e; cases e
  repeat' first | with_reducible exact h | with_reducible apply State.taskPreempt_held

theorem execTaskEnd_held {s0 : State} (core : Nat) {s : State} (h : Held s0 s) :
    ∀ out, execTaskEnd core s = .next out → Held s0 out := by
  intro out e; cases e
  repeat' first | with_reducible exact h | with_reducible apply State.taskEnd_held

theorem execTaskSetflag_held {s0 : State} (core : Nat) (task : Nat) (flag : Nat) {s : State} (h : Held s0 s) :
    ∀ out, execTaskSetflag core task flag s = .next out → Held s0 out := by
  intro out e; cases e
  repeat' first
    | with_reducible exact h | with_reducible apply State.iff_held | with_reducible apply State.setTaskFlag_held

theorem execTaskFlow_held {s0 : State} (core : Nat) (flow : Nat) (held : Bool) {s : State} (h : Held s0 s) :
    ∀ out, execTaskFlow core flow held s = .next out → Held s0 out := by
  intro out e; cases e
  repeat' first | with_reducible exact h | with_reducible apply State.taskFlow_held

theorem execTskTimerExpire_held {s0 : State} (timer : Nat) {s : State} (h : Held s0 s) :
    ∀ out, execTskTimerExpire timer s = .next out → Held s0 out := by
  intro out e; cases e
  repeat' first | with_reducible exact h | with_reducible apply State.timerExpire_held

theorem execTskSet_held {s0 : State} (task : Nat) (flag : Nat) {s : State} (h : Held s0 s) :
    ∀ out, execTskSet task flag s = .next out → Held s0 out := by
  intro out e; cases e
  repeat' first
    | with_reducible exact h | with_reducible apply State.guarded_held | with_reducible apply State.tskSet_held

theorem execDispatchLate_held {s0 : State} (task : Nat) {s : State} (h : Held s0 s) :
    ∀ out, execDispatchLate task s = .next out → Held s0 out := by
  intro out e; cases e
  repeat' first | with_reducible assumption | intro _ | with_reducible apply State.dispatchLate_held

theorem execWdogKick_held {s0 : State} (core : Nat) {s : State} (h : Held s0 s) :
    ∀ out, execWdogKick core s = .next out → Held s0 out := by
  intro out e; cases e
  repeat' first
    | with_reducible assumption | intro _ | with_reducible apply State.iff_held
    | with_reducible apply State.modCoreRun_held

theorem execWatchdogExpire_held {s0 : State} (core : Nat) {s : State} (h : Held s0 s) :
    ∀ out, execWatchdogExpire core s = .next out → Held s0 out := by
  intro out e; cases e
  repeat' first | with_reducible exact h | with_reducible apply State.watchdogExpire_held

theorem execCoreRelease_held {s0 : State} (mask : Nat) {s : State} (h : Held s0 s) :
    ∀ out, execCoreRelease mask s = .next out → Held s0 out := by
  intro out e; cases e
  repeat' first
    | with_reducible exact h | with_reducible apply State.coreRelease_held | with_reducible apply State.guarded_held

theorem execSramUncorrectable_held {s0 : State} (core : Nat) (what : CoreAccess) {s : State} (h : Held s0 s) :
    ∀ out, execSramUncorrectable core what s = .next out → Held s0 out := by
  intro out e; cases e
  repeat' first
    | with_reducible exact h | with_reducible apply State.coreMemory_held | with_reducible apply State.iff_held

theorem execCoreRingTail_held {s0 : State} (ring : Nat) (tail : Nat) {s : State} (h : Held s0 s) :
    ∀ out, execCoreRingTail ring tail s = .next out → Held s0 out := by
  intro out e; cases e
  repeat' first | with_reducible exact h | with_reducible apply State.coreRingTail_held

theorem execCoreDisable_held {s0 : State} {s : State} (h : Held s0 s) :
    ∀ out, execCoreDisable s = .next out → Held s0 out := by
  intro out e; cases e
  repeat' first
    | with_reducible assumption | intro _ | with_reducible apply Held.ite | with_reducible apply State.pageOff_held
    | with_reducible apply Held.foldl | split | with_reducible apply Held.id | dsimp only

theorem execTskDisable_held {s0 : State} {s : State} (h : Held s0 s) :
    ∀ out, execTskDisable s = .next out → Held s0 out := by
  intro out e; cases e
  repeat' first
    | with_reducible assumption | intro _ | with_reducible apply Held.ite | with_reducible apply State.pageOff_held
    | with_reducible apply Held.foldl | split | with_reducible apply Held.id | dsimp only

theorem execFlashRead_held {s0 : State} (win : Window) {s : State} (h : Held s0 s) :
    ∀ out, execFlashRead win s = .next out → Held s0 out := by
  intro out e; cases e
  repeat' first
    | with_reducible exact h | with_reducible apply State.flashCommand_held | with_reducible apply State.guarded_held

theorem execFlashProgram_held {s0 : State} (win : Window) (fromStage : Bool) {s : State} (h : Held s0 s) :
    ∀ out, execFlashProgram win fromStage s = .next out → Held s0 out := by
  intro out e; cases e
  repeat' first
    | with_reducible exact h | with_reducible apply State.flashCommand_held | with_reducible apply State.guarded_held

theorem execFlashErase_held {s0 : State} (win : Window) {s : State} (h : Held s0 s) :
    ∀ out, execFlashErase win s = .next out → Held s0 out := by
  intro out e; cases e
  repeat' first
    | with_reducible exact h | with_reducible apply State.flashCommand_held | with_reducible apply State.guarded_held

theorem execPageLoad_held {s0 : State} (win : Window) {s : State} (h : Held s0 s) :
    ∀ out, execPageLoad win s = .next out → Held s0 out := by
  intro out e; cases e
  repeat' first
    | with_reducible exact h | with_reducible apply State.flashCommand_held | with_reducible apply State.guarded_held

theorem execFlashOpDone_held {s0 : State} (ok : Bool) {s : State} (h : Held s0 s) :
    ∀ out, execFlashOpDone ok s = .next out → Held s0 out := by
  intro out e; cases e
  repeat' first | with_reducible exact h | with_reducible apply State.flashOpDone_held

theorem execFlashEraseDone_held {s0 : State} (blank : Bool) {s : State} (h : Held s0 s) :
    ∀ out, execFlashEraseDone blank s = .next out → Held s0 out := by
  intro out e; cases e
  repeat' first | with_reducible exact h | with_reducible apply State.flashEraseDone_held

theorem execFlshDisable_held {s0 : State} {s : State} (h : Held s0 s) :
    ∀ out, execFlshDisable s = .next out → Held s0 out := by
  intro out e; cases e
  repeat' first
    | with_reducible assumption | intro _ | with_reducible apply Held.ite | with_reducible apply State.pageOff_held
    | with_reducible apply Held.foldl | split | with_reducible apply Held.id | dsimp only

theorem execBoot_held {s0 : State} (suspended : Bool) (bad : List Nat) {s : State} (h : Held s0 s) :
    ∀ out, execBoot suspended bad s = .next out → Held s0 out := by
  intro out e; cases e
  repeat' first | with_reducible exact h | with_reducible apply State.boot_held

theorem execBootConfirm_held {s0 : State} {s : State} (h : Held s0 s) :
    ∀ out, execBootConfirm s = .next out → Held s0 out := by
  intro out e; cases e
  repeat' first
    | with_reducible exact h | with_reducible apply State.bootConfirm_held | with_reducible apply State.guarded_held

theorem execBootRetry_held {s0 : State} {s : State} (h : Held s0 s) :
    ∀ out, execBootRetry s = .next out → Held s0 out := by
  intro out e; cases e
  repeat' first
    | with_reducible exact h | with_reducible apply State.bootRetry_held | with_reducible apply State.guarded_held

theorem execPuntyArm_held {s0 : State} (handover : Nat) {s : State} (h : Held s0 s) :
    ∀ out, execPuntyArm handover s = .next out → Held s0 out := by
  intro out e; cases e
  repeat' first
    | with_reducible exact h | with_reducible apply State.guarded_held | with_reducible apply State.puntyArm_held

theorem execPuntyLoad_held {s0 : State} {s : State} (h : Held s0 s) :
    ∀ out, execPuntyLoad s = .next out → Held s0 out := by
  intro out e; cases e
  repeat' first | with_reducible exact h | with_reducible apply State.puntyLoad_held

theorem execPuntyReady_held {s0 : State} {s : State} (h : Held s0 s) :
    ∀ out, execPuntyReady s = .next out → Held s0 out := by
  intro out e; cases e
  repeat' first
    | with_reducible exact h | with_reducible apply State.guarded_held | with_reducible apply State.puntyReady_held

theorem execPuntyCommit_held {s0 : State} {s : State} (h : Held s0 s) :
    ∀ out, execPuntyCommit s = .next out → Held s0 out := by
  intro out e; cases e
  repeat' first
    | with_reducible exact h | with_reducible apply State.guarded_held | with_reducible apply State.puntyCommit_held

theorem execPuntyFlip_held {s0 : State} {s : State} (h : Held s0 s) :
    ∀ out, execPuntyFlip s = .next out → Held s0 out := by
  intro out e; cases e
  repeat' first | with_reducible exact h | with_reducible apply State.puntyFlip_held

theorem execPuntyAbort_held {s0 : State} {s : State} (h : Held s0 s) :
    ∀ out, execPuntyAbort s = .next out → Held s0 out := by
  intro out e; cases e
  repeat' first
    | with_reducible exact h | with_reducible apply State.guarded_held | with_reducible apply State.puntyAbort_held

theorem execPuntyFreezeTimeout_held {s0 : State} {s : State} (h : Held s0 s) :
    ∀ out, execPuntyFreezeTimeout s = .next out → Held s0 out := by
  intro out e; cases e
  repeat' first
    | with_reducible exact h | with_reducible apply State.iff_held | with_reducible apply State.puntyAbort_held

theorem execCompletionTimeout_held {s0 : State} (fn : Nat) (k : Nat) {s : State} (h : Held s0 s) :
    ∀ out, execCompletionTimeout fn k s = .next out → Held s0 out := by
  intro out e; cases e
  repeat' first
    | with_reducible assumption | intro _ | with_reducible apply Held.ite
    | with_reducible apply State.gatherFault_held | with_reducible apply Held.foldl | split

theorem execPcieLinkDown_held {s0 : State} (l2 : Bool) {s : State} (h : Held s0 s) :
    ∀ out, execPcieLinkDown l2 s = .next out → Held s0 out := by
  intro out e; cases e
  repeat' first | with_reducible exact h | with_reducible apply State.pcieDown_held

theorem execPcieRecovery_held {s0 : State} (width : Nat) (rate : Nat) (errors : Nat) {s : State} (h : Held s0 s) :
    ∀ out, execPcieRecovery width rate errors s = .next out → Held s0 out := by
  intro out e; cases e
  repeat' first | with_reducible exact h | with_reducible apply State.recovery_held

theorem execCxlDeviceError_held {s0 : State} {s : State} (h : Held s0 s) :
    ∀ out, execCxlDeviceError s = .next out → Held s0 out := by
  intro out e; cases e
  repeat' first | with_reducible exact h | with_reducible apply State.count_held

end Sys2Proof.Machine
end

