-- ==== Sys2Proof/Laws/KeptBlocks.lean ====
section
/-! SUPPORT. What every operation keeps (Laws/Held.lean): page enables and soft reset, power, containment, and the commands of the line and the ports. -/

namespace Sys2Proof.Machine

theorem State.acqStore_held {s0 : State} (r : Rx) (res : AcqResult) {s : State} (h : Held s0 s) :
    Held s0 (State.acqStore r res s) := by
  unfold State.acqStore
  repeat' first
    | with_reducible assumption | intro _ | with_reducible apply Held.ite | with_reducible apply State.laneFix_held
    | with_reducible apply State.setFld_held | with_reducible apply State.setSFld_held
    | with_reducible apply Held.foldl | split

theorem State.illegalMode_held {s0 : State} (t : Tree) {s : State} (h : Held s0 s) :
    Held s0 (State.illegalMode t s) := by
  unfold State.illegalMode
  repeat' first
    | with_reducible exact h | with_reducible apply State.count_held | with_reducible apply State.raise_held

theorem State.hostMode_held {s0 : State} (t : Tree) (m : Nat) {s : State} (h : Held s0 s) :
    Held s0 (State.hostMode t m s) := by
  unfold State.hostMode
  repeat' first
    | with_reducible assumption | intro _ | with_reducible apply Held.ite
    | with_reducible apply State.illegalMode_held | with_reducible apply State.recordQuarantine_held
    | with_reducible apply State.setMode_held

theorem State.releaseQuarantine_held {s0 : State} (t : Tree) {s : State} (h : Held s0 s) :
    Held s0 (State.releaseQuarantine t s) := by
  unfold State.releaseQuarantine
  repeat' first
    | with_reducible assumption | intro _ | with_reducible apply Held.ite | with_reducible apply State.count_held
    | with_reducible apply State.iff_held | with_reducible apply State.leaveQuarantine_held
    | with_reducible apply State.raise_held

theorem State.hostDeactivate_held {s0 : State} (t : Tree) {s : State} (h : Held s0 s) :
    Held s0 (State.hostDeactivate t s) := by
  unfold State.hostDeactivate
  repeat' first
    | with_reducible exact h | with_reducible apply State.iff_held | with_reducible apply State.setMode_held

theorem State.announceRelease_held {s0 : State} {s : State} (h : Held s0 s) :
    Held s0 (State.announceRelease s) := by
  unfold State.announceRelease
  repeat' first
    | with_reducible assumption | intro _ | with_reducible apply Held.ite | with_reducible apply State.iff_held
    | with_reducible apply State.modClk_held | with_reducible apply State.raise_held

theorem State.rxLeave_held {s0 : State} (r : Rx) {s : State} (h : Held s0 s) :
    Held s0 (State.rxLeave r s) := by
  unfold State.rxLeave
  repeat' first
    | with_reducible assumption | intro _ | with_reducible apply State.clkLose_held
    | with_reducible apply State.frmUnlocked_held | with_reducible apply State.lineDo_held

theorem State.blockStop_held {s0 : State} (p : Nat) {s : State} (h : Held s0 s) :
    Held s0 (State.blockStop p s) := by
  unfold State.blockStop
  repeat' first
    | with_reducible assumption | intro _ | with_reducible apply Held.ite | with_reducible apply State.ccryStop_held
    | with_reducible apply State.cxlStop_held | with_reducible apply State.drainRing_held
    | with_reducible apply State.enterDarkKeep_held | with_reducible apply State.frmStop_held
    | with_reducible apply State.halStop_held | with_reducible apply State.lineDo_held
    | with_reducible apply State.pmMarkAll_held | with_reducible apply State.ppsLow_held
    | with_reducible apply State.refreshPolicy_held | with_reducible apply State.refreshPorts_held
    | with_reducible apply State.rxLeave_held | with_reducible apply State.rxStopFigures_held
    | with_reducible apply State.showTier_held | with_reducible apply State.suppressWaiting_held
    | with_reducible apply State.timeStop_held | with_reducible apply Held.foldl | split

theorem State.linkRetrained_held {s0 : State} (l : Nat) {s : State} (h : Held s0 s) :
    Held s0 (State.linkRetrained l s) := by
  unfold State.linkRetrained
  repeat' first
    | with_reducible exact h | with_reducible apply State.count_held | with_reducible apply State.grantCredits_held
    | with_reducible apply State.raise_held | with_reducible apply State.setFld_held

theorem State.blockDrop_held {s0 : State} (p : Nat) {s : State} (h : Held s0 s) :
    Held s0 (State.blockDrop p s) := by
  unfold State.blockDrop
  repeat' first
    | with_reducible assumption | intro _ | with_reducible apply Held.ite | with_reducible apply State.abortJob_held
    | with_reducible apply State.clipTokens_held | with_reducible apply State.dropClassifier_held
    | with_reducible apply State.dropDual_held | with_reducible apply State.dropHands_held
    | with_reducible apply State.dropStore_held | with_reducible apply State.dropWaiting_held
    | with_reducible apply State.flashStop_held | with_reducible apply State.holdHalf_held
    | with_reducible apply State.iff_held | with_reducible apply State.linkRetrained_held
    | with_reducible apply State.loseRecords_held | with_reducible apply State.pcieDown_held
    | with_reducible apply State.setFld_held | with_reducible apply Held.foldl | split

theorem State.releaseUnits_held {s0 : State} (p : Nat) {s : State} (h : Held s0 s) :
    Held s0 (State.releaseUnits p s) := by
  unfold State.releaseUnits
  repeat' first
    | with_reducible assumption | intro _ | with_reducible apply Held.ite | with_reducible apply State.freeLast_held
    | with_reducible apply State.modRel_held

theorem State.blockClear_held {s0 : State} (p : Nat) {s : State} (h : Held s0 s) :
    Held s0 (State.blockClear p s) := by
  unfold State.blockClear
  repeat' first
    | with_reducible assumption | intro _ | with_reducible apply Held.ite
    | with_reducible apply State.applyMaxIter_held | with_reducible apply State.clkJudge_held
    | with_reducible apply State.dropSlot_held | with_reducible apply State.flushMerge_held
    | with_reducible apply State.iff_held | with_reducible apply State.judgePromotion_held
    | with_reducible apply State.keysLost_held | with_reducible apply State.modCcry_held
    | with_reducible apply State.modCls_held | with_reducible apply State.modCore_held
    | with_reducible apply State.modFlow_held | with_reducible apply State.modHals_held
    | with_reducible apply State.modLehr_held | with_reducible apply State.modPol_held
    | with_reducible apply State.modSto_held | with_reducible apply State.modTime_held
    | with_reducible apply State.modTsk_held | with_reducible apply State.modTxs_held
    | with_reducible apply State.modUsch_held | with_reducible apply State.modXtr_held
    | with_reducible apply State.noteHalLevel_held | with_reducible apply State.noteLaunch_held
    | with_reducible apply State.putTw_held | with_reducible apply State.quarAgain_held
    | with_reducible apply State.refreshPolicy_held | with_reducible apply State.refreshPorts_held
    | with_reducible apply State.setFld_held | with_reducible apply State.setHalf_held
    | with_reducible apply State.setPunty_held | with_reducible apply State.setQueueBytes_held
    | with_reducible apply State.setSelector_held | with_reducible apply State.setTf_held
    | with_reducible apply State.showJobs_held | with_reducible apply State.showKeystore_held
    | with_reducible apply State.showQueue_held | with_reducible apply State.showTick_held
    | with_reducible apply State.showTier_held | with_reducible apply State.timeClearHost_held
    | with_reducible apply State.wakeDomain_held | with_reducible apply Held.foldl | split

theorem State.blockReset_held {s0 : State} (p : Nat) {s : State} (h : Held s0 s) :
    Held s0 (State.blockReset p s) := by
  unfold State.blockReset
  repeat' first
    | with_reducible assumption | intro _ | with_reducible apply Held.ite | with_reducible apply State.blockClear_held
    | with_reducible apply State.blockDrop_held | with_reducible apply State.blockStop_held
    | with_reducible apply State.cxlStop_held | with_reducible apply State.iff_held
    | with_reducible apply State.modRf_held | with_reducible apply State.modWins_held
    | with_reducible apply State.releaseUnits_held | with_reducible apply State.resetPageRegs_held
    | with_reducible apply State.resetTable_held | with_reducible apply State.resetTables_held
    | with_reducible apply State.setFld_held | with_reducible apply Held.foldl | split
    | (refine (?_ : Sparse.wf _ _ = true); assumption) | exact Sparse.wf_filter _ _ _ (by assumption)
    | exact Sparse.wf_put _ _ _ _ (by assumption) | (refine (?_ : _ < counterMod _); apply_assumption)
    | with_reducible apply Held.id | dsimp only

theorem State.blockStart_held {s0 : State} (p : Nat) {s : State} (h : Held s0 s) :
    Held s0 (State.blockStart p s) := by
  unfold State.blockStart
  repeat' first
    | with_reducible assumption | intro _ | with_reducible apply Held.ite | with_reducible apply State.cxlStart_held
    | with_reducible apply State.dispatchJobs_held | with_reducible apply State.firmwareBack_held
    | with_reducible apply State.frmStart_held | with_reducible apply State.genStart_held
    | with_reducible apply State.halJudge_held | with_reducible apply State.iff_held
    | with_reducible apply State.lineDo_held | with_reducible apply State.pmMarkAll_held
    | with_reducible apply State.refreshPolicy_held | with_reducible apply State.refreshPorts_held
    | with_reducible apply State.ringRun_held | with_reducible apply State.rxBegin_held
    | with_reducible apply State.showTier_held | with_reducible apply State.timeStart_held
    | with_reducible apply State.txBegin_held | with_reducible apply Held.foldl | split

theorem State.regionRelease_held {s0 : State} (r : Nat) {s : State} (h : Held s0 s) :
    Held s0 (State.regionRelease r s) := by
  unfold State.regionRelease
  repeat' first
    | with_reducible exact h | with_reducible apply State.count_held | with_reducible apply State.freeLast_held
    | with_reducible apply State.modRel_held | with_reducible apply State.settleRegion_held

theorem State.sysRegionRelease_held {s0 : State} (mask : Nat) {s : State} (h : Held s0 s) :
    Held s0 (State.sysRegionRelease mask s) := by
  unfold State.sysRegionRelease
  repeat' first
    | with_reducible assumption | intro _ | with_reducible apply Held.ite | with_reducible apply State.ignored_held
    | with_reducible apply State.regionRelease_held | with_reducible apply Held.foldl | split

theorem State.policyWrite_held {s0 : State} (hi : Bool) (acc : Access) {s : State} (h : Held s0 s) :
    Held s0 (State.policyWrite hi acc s) := by
  unfold State.policyWrite
  repeat' first
    | with_reducible assumption | intro _ | with_reducible apply Held.ite | with_reducible apply State.guarded_held
    | with_reducible apply State.iff_held | with_reducible apply State.raise_held
    | with_reducible apply State.wakeDomain_held | with_reducible apply State.writePlain_held
    | with_reducible apply Held.foldl | split

theorem State.clkForceCmd_held {s0 : State} (code : Nat) {s : State} (h : Held s0 s) :
    Held s0 (State.clkForceCmd code s) := by
  unfold State.clkForceCmd
  repeat' first
    | with_reducible assumption | intro _ | with_reducible apply Held.ite | with_reducible apply State.clkJudge_held
    | with_reducible apply State.count_held | with_reducible apply State.raise_held
    | with_reducible apply State.setFld_held

theorem State.showSensors_held {s0 : State} (r : LehrReadings) {s : State} (h : Held s0 s) :
    Held s0 (State.showSensors r s) := by
  unfold State.showSensors
  repeat' first
    | with_reducible assumption | intro _ | with_reducible apply Held.ite | with_reducible apply State.putEntry_held
    | with_reducible apply Held.foldl | split

theorem State.planDone_held {s0 : State} (r : LehrReadings) {s : State} (h : Held s0 s) :
    Held s0 (State.planDone r s) := by
  unfold State.planDone
  repeat' first
    | with_reducible exact h | with_reducible apply State.count_held | with_reducible apply State.modLehr_held
    | with_reducible apply State.putEntry_held | with_reducible apply State.raise_held
    | with_reducible apply State.setFld_held

theorem State.planIter_held {s0 : State} (x : Rx) {s : State} (h : Held s0 s) :
    Held s0 (State.planIter x s) := by
  unfold State.planIter
  repeat' first
    | with_reducible assumption | intro _ | with_reducible apply Held.ite | with_reducible apply State.setFld_held

theorem State.planTrim_held {s0 : State} (t : Tree) (monitor : Int) {s : State} (h : Held s0 s) :
    Held s0 (State.planTrim t monitor s) := by
  unfold State.planTrim
  repeat' first
    | with_reducible assumption | intro _ | with_reducible apply Held.ite | with_reducible apply State.modTxs_held
    | with_reducible apply State.setTrim_held

theorem State.planDerate_held {s0 : State} (r : LehrReadings) {s : State} (h : Held s0 s) :
    Held s0 (State.planDerate r s) := by
  unfold State.planDerate
  repeat' first
    | with_reducible assumption | intro _ | with_reducible apply Held.ite | with_reducible apply State.count_held
    | with_reducible apply State.modLehr_held | with_reducible apply State.raise_held
    | with_reducible apply State.setFld_held | with_reducible apply Held.foldl | split | with_reducible apply Held.id
    | dsimp only

theorem State.planLow_held {s0 : State} (r : LehrReadings) (rail : Nat) {s : State} (h : Held s0 s) :
    Held s0 (State.planLow r rail s) := by
  unfold State.planLow
  repeat' first
    | with_reducible assumption | intro _ | with_reducible apply Held.ite | with_reducible apply State.count_held
    | with_reducible apply State.raise_held

theorem State.planSettings_held {s0 : State} (r : LehrReadings) {s : State} (h : Held s0 s) :
    Held s0 (State.planSettings r s) := by
  unfold State.planSettings
  repeat' first
    | with_reducible exact h | with_reducible apply State.modLehr_held | with_reducible apply State.planDerate_held
    | with_reducible apply State.planIter_held | with_reducible apply State.planLow_held
    | with_reducible apply State.planTrim_held

theorem State.planGoOn_held {s0 : State} {s : State} (h : Held s0 s) :
    Held s0 (State.planGoOn s) := by
  unfold State.planGoOn
  repeat' first
    | with_reducible assumption | intro _ | with_reducible apply Held.ite | with_reducible apply State.emit_held
    | with_reducible apply State.modLehr_held | with_reducible apply State.planDone_held
    | with_reducible apply State.planSettings_held | with_reducible apply Held.foldl | split

theorem State.replanStart_held {s0 : State} (r : LehrReadings) {s : State} (h : Held s0 s) :
    Held s0 (State.replanStart r s) := by
  unfold State.replanStart
  repeat' first
    | with_reducible exact h | with_reducible apply State.modLehr_held | with_reducible apply State.planGoOn_held
    | with_reducible apply State.setFld_held | with_reducible apply State.showSensors_held

theorem State.replan_held {s0 : State} (r : LehrReadings) {s : State} (h : Held s0 s) :
    Held s0 (State.replan r s) := by
  unfold State.replan
  repeat' first
    | with_reducible assumption | intro _ | with_reducible apply Held.ite | with_reducible apply State.count_held
    | with_reducible apply State.raise_held | with_reducible apply State.replanStart_held
    | with_reducible apply State.setFld_held

theorem State.ofeGo_held {s0 : State} (p : Nat) (acc : Access) {s : State} (h : Held s0 s) :
    Held s0 (State.ofeGo p acc s) := by
  unfold State.ofeGo
  repeat' first
    | with_reducible assumption | intro _ | with_reducible apply Held.ite | with_reducible apply State.ignored_held
    | with_reducible apply State.setFld_held | with_reducible apply State.writePlain_held

theorem State.forceRelease_held {s0 : State} (t : Tree) {s : State} (h : Held s0 s) :
    Held s0 (State.forceRelease t s) := by
  unfold State.forceRelease
  repeat' first
    | with_reducible assumption | intro _ | with_reducible apply Held.ite | with_reducible apply State.ignored_held
    | with_reducible apply State.modTxs_held | with_reducible apply State.refreshPolicy_held
    | with_reducible apply State.showForce_held

theorem State.laneInject_held {s0 : State} (l : Nat) {s : State} (h : Held s0 s) :
    Held s0 (State.laneInject l s) := by
  unfold State.laneInject
  repeat' first
    | with_reducible exact h | with_reducible apply State.emitError_held | with_reducible apply State.iff_held

theorem State.snapArm_held {s0 : State} {s : State} (h : Held s0 s) :
    Held s0 (State.snapArm s) := by
  unfold State.snapArm
  repeat' first
    | with_reducible assumption | intro _ | with_reducible apply Held.ite | with_reducible apply State.count_held
    | with_reducible apply State.modSnap_held | with_reducible apply State.setFld_held
    | with_reducible apply State.snapRefuse_held

theorem State.snapCancel_held {s0 : State} {s : State} (h : Held s0 s) :
    Held s0 (State.snapCancel s) := by
  unfold State.snapCancel
  repeat' first
    | with_reducible assumption | intro _ | with_reducible apply Held.ite | with_reducible apply State.count_held
    | with_reducible apply State.setFld_held | with_reducible apply Held.foldl | split

theorem State.snapArmNow_held {s0 : State} {s : State} (h : Held s0 s) :
    Held s0 (State.snapArmNow s) := by
  unfold State.snapArmNow
  repeat' first
    | with_reducible assumption | intro _ | with_reducible apply Held.ite | with_reducible apply State.count_held
    | with_reducible apply State.setFld_held | with_reducible apply State.snapCapture_held
    | with_reducible apply State.snapRefuse_held

theorem State.snapCtrl_held {s0 : State} (v : Word) {s : State} (h : Held s0 s) :
    Held s0 (State.snapCtrl v s) := by
  unfold State.snapCtrl
  repeat' first
    | with_reducible assumption | intro _ | with_reducible apply Held.ite | with_reducible apply State.ignored_held
    | with_reducible apply State.snapArm_held | with_reducible apply State.snapArmNow_held
    | with_reducible apply State.snapCancel_held | with_reducible apply Held.foldl | split

theorem State.showPins_held {s0 : State} {s : State} (h : Held s0 s) :
    Held s0 (State.showPins s) := by
  unfold State.showPins
  repeat' first | with_reducible exact h | with_reducible apply State.setFld_held

theorem State.pinRelease_held {s0 : State} (i : Nat) (still : Bool) {s : State} (h : Held s0 s) :
    Held s0 (State.pinRelease i still s) := by
  unfold State.pinRelease
  repeat' first
    | with_reducible assumption | intro _ | with_reducible apply Held.ite | with_reducible apply State.count_held
    | with_reducible apply State.raise_held | with_reducible apply State.setTf_held
    | with_reducible apply State.showPins_held

theorem State.avsDone_held {s0 : State} (rail : Nat) (ack : Bool) {s : State} (h : Held s0 s) :
    Held s0 (State.avsDone rail ack s) := by
  unfold State.avsDone
  repeat' first
    | with_reducible assumption | intro _ | with_reducible apply Held.ite | with_reducible apply State.count_held
    | with_reducible apply State.emit_held | with_reducible apply State.modLehr_held
    | with_reducible apply State.planDone_held | with_reducible apply State.planGoOn_held
    | with_reducible apply State.raise_held | with_reducible apply State.setFld_held | with_reducible apply Held.foldl
    | split

theorem State.burstBegin_held {s0 : State} (t : Tree) (i : Nat) {s : State} (h : Held s0 s) :
    Held s0 (State.burstBegin t i s) := by
  unfold State.burstBegin
  repeat' first
    | with_reducible exact h | with_reducible apply State.applyLaunch_held | with_reducible apply State.driveGate_held
    | with_reducible apply State.drivePrep_held | with_reducible apply State.halCutNow_held
    | with_reducible apply State.modTxs_held | with_reducible apply State.noticeBurst_held
    | with_reducible apply State.setTf_held

theorem State.clearCounters_held {s0 : State} {s : State} (h : Held s0 s) : Held s0 (State.clearCounters s) := by
  unfold State.clearCounters
  refine State.modCnt_held (State.modSto_held _ h) (fun c hc => Sparse.wf_filter _ _ _ hc) (fun c hc i => ?_)
  refine Nat.lt_of_le_of_lt (Nat.le_of_eq (Sparse.get_filter 0 (fun k => !counterUnits.any fun u =>
    decide (u.first ≤ k) && decide (k < u.first + u.count) && (match pageInfo u.page with
      | some x => x.region != 8 | none => true)) c.live i)) ?_
  split
  · exact hc i
  · exact counterMod_pos i

theorem State.settleAll_held {s0 : State} {s : State} (h : Held s0 s) :
    Held s0 (State.settleAll s) := by
  unfold State.settleAll
  repeat' first
    | with_reducible assumption | intro _ | with_reducible apply Held.ite
    | with_reducible apply State.settleRegion_held | with_reducible apply Held.foldl | split

theorem State.clockRelease_held {s0 : State} {s : State} (h : Held s0 s) :
    Held s0 (State.clockRelease s) := by
  unfold State.clockRelease
  repeat' first
    | with_reducible assumption | intro _ | with_reducible apply Held.ite
    | with_reducible apply State.announceRelease_held | with_reducible apply State.modClk_held
    | with_reducible apply State.settleAll_held

theorem State.clockGateEnd_held {s0 : State} (k : Nat) (count : Nat) {s : State} (h : Held s0 s) :
    Held s0 (State.clockGateEnd k count s) := by
  unfold State.clockGateEnd
  repeat' first
    | with_reducible assumption | intro _ | with_reducible apply Held.ite
    | with_reducible apply State.clockRelease_held | with_reducible apply State.gateEnd_held

theorem State.regionLose_held {s0 : State} (r : Nat) {s : State} (h : Held s0 s) :
    Held s0 (State.regionLose r s) := by
  unfold State.regionLose
  repeat' first
    | with_reducible exact h | with_reducible apply State.regionAfter_held
    | with_reducible apply State.regionWipe_held

theorem State.clockLossReset_held {s0 : State} {s : State} (h : Held s0 s) :
    Held s0 (State.clockLossReset s) := by
  unfold State.clockLossReset
  repeat' first
    | with_reducible assumption | intro _ | with_reducible apply Held.ite | with_reducible apply State.count_held
    | with_reducible apply State.modClk_held | with_reducible apply State.regionLose_held
    | with_reducible apply State.settleAll_held | with_reducible apply Held.foldl | split

theorem State.d2dLast_held {s0 : State} (l : Nat) (event : Nat) {s : State} (h : Held s0 s) :
    Held s0 (State.d2dLast l event s) := by
  unfold State.d2dLast
  repeat' first | with_reducible exact h | with_reducible apply State.setFld_held

theorem State.domainGone_held {s0 : State} (d : Nat) {s : State} (h : Held s0 s) :
    Held s0 (State.domainGone d s) := by
  unfold State.domainGone
  repeat' first
    | with_reducible assumption | intro _ | with_reducible apply Held.ite | with_reducible apply State.clkLose_held
    | with_reducible apply State.refreshPorts_held

theorem State.domainsUp_held {s0 : State} {s : State} (h : Held s0 s) :
    Held s0 (State.domainsUp s) := by
  unfold State.domainsUp
  repeat' first
    | with_reducible assumption | intro _ | with_reducible apply Held.ite | with_reducible apply State.modKeep_held
    | with_reducible apply State.setDomState_held | with_reducible apply Held.foldl | split

theorem State.forceSafe_held {s0 : State} {s : State} (h : Held s0 s) :
    Held s0 (State.forceSafe s) := by
  unfold State.forceSafe
  repeat' first
    | with_reducible assumption | intro _ | with_reducible apply Held.ite | with_reducible apply State.count_held
    | with_reducible apply State.modClk_held | with_reducible apply State.modTime_held
    | with_reducible apply State.raise_held

theorem State.edgeMissing_held {s0 : State} (which : Nat) {s : State} (h : Held s0 s) :
    Held s0 (State.edgeMissing which s) := by
  unfold State.edgeMissing
  repeat' first
    | with_reducible assumption | intro _ | with_reducible apply Held.ite | with_reducible apply State.clockForce_held
    | with_reducible apply State.enterDarkKeep_held | with_reducible apply State.forceSafe_held
    | with_reducible apply Held.foldl | split

theorem State.emptyKeepRam_held {s0 : State} {s : State} (h : Held s0 s) :
    Held s0 (State.emptyKeepRam s) := by
  unfold State.emptyKeepRam
  repeat' first
    | with_reducible exact h | with_reducible apply State.modKeep_held | with_reducible apply State.resetTable_held

theorem State.entryDone_held {s0 : State} (d : Nat) {s : State} (h : Held s0 s) :
    Held s0 (State.entryDone d s) := by
  unfold State.entryDone
  repeat' first
    | with_reducible assumption | intro _ | with_reducible apply Held.ite | with_reducible apply State.count_held
    | with_reducible apply State.domainGone_held | with_reducible apply State.domainOff_held
    | with_reducible apply State.domainRetain_held | with_reducible apply State.iff_held
    | with_reducible apply State.modKeep_held | with_reducible apply State.raiseMs_held
    | with_reducible apply State.settleRegion_held

theorem State.flitFail_held {s0 : State} (l : Nat) (d : Nat) {s : State} (h : Held s0 s) :
    Held s0 (State.flitFail l d s) := by
  unfold State.flitFail
  repeat' first
    | with_reducible exact h | with_reducible apply State.count_held | with_reducible apply State.d2dLast_held
    | with_reducible apply State.modLink_held | with_reducible apply State.raiseMs_held

theorem State.moveCredits_held {s0 : State} (e : Nat) (a : Nat) (b : Nat) (n : Nat) {s : State} (h : Held s0 s) :
    Held s0 (State.moveCredits e a b n s) := by
  unfold State.moveCredits
  repeat' first | with_reducible exact h | with_reducible apply State.putTw_held

theorem State.flitTake_held {s0 : State} (l : Nat) (d : Nat) (bs : Bytes) {s : State} (h : Held s0 s) :
    Held s0 (State.flitTake l d bs s) := by
  unfold State.flitTake
  repeat' first
    | with_reducible exact h | with_reducible apply State.modLink_held | with_reducible apply State.moveCredits_held

theorem State.flitReceive_held {s0 : State} (l : Nat) (d : Nat) (bs : Bytes) {s : State} (h : Held s0 s) :
    Held s0 (State.flitReceive l d bs s) := by
  unfold State.flitReceive
  repeat' first
    | with_reducible assumption | intro _ | with_reducible apply Held.ite | with_reducible apply State.count_held
    | with_reducible apply State.flitFail_held | with_reducible apply State.flitTake_held
    | with_reducible apply State.iff_held

theorem State.holdRegions_held {s0 : State} {s : State} (h : Held s0 s) :
    Held s0 (State.holdRegions s) := by
  unfold State.holdRegions
  repeat' first
    | with_reducible assumption | intro _ | with_reducible apply Held.ite
    | with_reducible apply State.clearCounters_held | with_reducible apply State.clockForce_held
    | with_reducible apply State.domainsUp_held | with_reducible apply State.forceSafe_held
    | with_reducible apply State.modSto_held | with_reducible apply State.regionLose_held
    | with_reducible apply State.settleAll_held | with_reducible apply Held.foldl | split

theorem State.holdoffExpire_held {s0 : State} {s : State} (h : Held s0 s) :
    Held s0 (State.holdoffExpire s) := by
  unfold State.holdoffExpire
  repeat' first
    | with_reducible assumption | intro _ | with_reducible apply Held.ite | with_reducible apply State.count_held
    | with_reducible apply State.iff_held | with_reducible apply State.modSup_held
    | with_reducible apply State.onBattery_held | with_reducible apply State.raise_held
    | with_reducible apply State.setFld_held | with_reducible apply State.shedRegion_held
    | with_reducible apply State.wakeLatch_held

theorem State.idleExpire_held {s0 : State} (d : Nat) (refusal : Option (Nat × Nat)) {s : State} (h : Held s0 s) :
    Held s0 (State.idleExpire d refusal s) := by
  unfold State.idleExpire
  repeat' first
    | with_reducible assumption | intro _ | with_reducible apply Held.ite | with_reducible apply State.modKeep_held
    | with_reducible apply State.refuseEntry_held | with_reducible apply State.setDomState_held
    | with_reducible apply Held.foldl | split

theorem State.tenantStop_held {s0 : State} (t : Tree) (n : Nat) {s : State} (h : Held s0 s) :
    Held s0 (State.tenantStop t n s) := by
  unfold State.tenantStop
  repeat' first
    | with_reducible assumption | intro _ | with_reducible apply Held.ite | with_reducible apply State.iff_held
    | with_reducible apply State.releaseList_held | with_reducible apply State.releaseShared_held
    | with_reducible apply State.setFld_held | with_reducible apply State.showQueue_held
    | with_reducible apply Held.foldl | split

theorem State.unitStop_held {s0 : State} (p : Nat) (u : Nat) {s : State} (h : Held s0 s) :
    Held s0 (State.unitStop p u s) := by
  unfold State.unitStop
  repeat' first
    | with_reducible assumption | intro _ | with_reducible apply Held.ite | with_reducible apply State.blockDrop_held
    | with_reducible apply State.blockStop_held | with_reducible apply State.dropUp_held
    | with_reducible apply State.flushQueues_held | with_reducible apply State.iff_held
    | with_reducible apply State.portFlush_held | with_reducible apply State.raise_held
    | with_reducible apply State.refreshPorts_held | with_reducible apply State.setFld_held
    | with_reducible apply State.setTf_held | with_reducible apply State.tenantStop_held
    | with_reducible apply Held.foldl | split

theorem State.unitContain_held {s0 : State} (p : Nat) (u : Nat) {s : State} (h : Held s0 s) :
    Held s0 (State.unitContain p u s) := by
  unfold State.unitContain
  repeat' first
    | with_reducible assumption | intro _ | with_reducible apply Held.ite
    | with_reducible apply State.containCore_held | with_reducible apply State.noteContain_held
    | with_reducible apply State.unitStop_held

theorem State.koscTrim_held {s0 : State} (count : Nat) {s : State} (h : Held s0 s) :
    Held s0 (State.koscTrim count s) := by
  unfold State.koscTrim
  repeat' first
    | with_reducible assumption | intro _ | with_reducible apply Held.ite | with_reducible apply State.count_held
    | with_reducible apply State.iff_held | with_reducible apply State.modClk_held
    | with_reducible apply State.raiseMs_held | with_reducible apply State.setFld_held
    | with_reducible apply State.setSFld_held

theorem State.linkCameUp_held {s0 : State} (l : Nat) {s : State} (h : Held s0 s) :
    Held s0 (State.linkCameUp l s) := by
  unfold State.linkCameUp
  repeat' first
    | with_reducible assumption | intro _ | with_reducible apply Held.ite
    | with_reducible apply State.grantCredits_held | with_reducible apply State.iff_held
    | with_reducible apply State.modRel_held | with_reducible apply State.raise_held
    | with_reducible apply State.regionRelease_held | with_reducible apply State.setFld_held
    | with_reducible apply State.showKeystore_held

theorem State.regionContain_held {s0 : State} (r : Nat) (cause : Nat) {s : State} (h : Held s0 s) :
    Held s0 (State.regionContain r cause s) := by
  unfold State.regionContain
  repeat' first
    | with_reducible assumption | intro _ | with_reducible apply Held.ite | with_reducible apply State.count_held
    | with_reducible apply State.iff_held | with_reducible apply State.keepLast_held
    | with_reducible apply State.modRel_held | with_reducible apply State.regionReset_held
    | with_reducible apply State.setFld_held | with_reducible apply State.settleRegion_held

theorem State.linkDown_held {s0 : State} (l : Nat) {s : State} (h : Held s0 s) :
    Held s0 (State.linkDown l s) := by
  unfold State.linkDown
  repeat' first
    | with_reducible assumption | intro _ | with_reducible apply Held.ite | with_reducible apply State.countBy_held
    | with_reducible apply State.d2dLast_held | with_reducible apply State.iff_held
    | with_reducible apply State.modRel_held | with_reducible apply State.raise_held
    | with_reducible apply State.regionContain_held | with_reducible apply State.setFld_held
    | with_reducible apply State.showKeystore_held | with_reducible apply State.useFree_held

theorem State.linkRetrain_held {s0 : State} (l : Nat) (ok : Bool) {s : State} (h : Held s0 s) :
    Held s0 (State.linkRetrain l ok s) := by
  unfold State.linkRetrain
  repeat' first
    | with_reducible assumption | intro _ | with_reducible apply Held.ite | with_reducible apply State.countBy_held
    | with_reducible apply State.d2dLast_held | with_reducible apply State.linkDown_held
    | with_reducible apply State.linkRetrained_held | with_reducible apply State.raise_held

theorem State.linkRetry_held {s0 : State} (l : Nat) (ok : Bool) {s : State} (h : Held s0 s) :
    Held s0 (State.linkRetry l ok s) := by
  unfold State.linkRetry
  repeat' first
    | with_reducible assumption | intro _ | with_reducible apply Held.ite | with_reducible apply State.count_held
    | with_reducible apply State.d2dLast_held | with_reducible apply State.iff_held
    | with_reducible apply State.linkCameUp_held | with_reducible apply State.raise_held

theorem State.railsBack_held {s0 : State} {s : State} (h : Held s0 s) :
    Held s0 (State.railsBack s) := by
  unfold State.railsBack
  repeat' first
    | with_reducible exact h | with_reducible apply State.announceRelease_held
    | with_reducible apply State.modClk_held | with_reducible apply State.settleAll_held

theorem State.mainRailRelease_held {s0 : State} {s : State} (h : Held s0 s) :
    Held s0 (State.mainRailRelease s) := by
  unfold State.mainRailRelease
  repeat' first
    | with_reducible assumption | intro _ | with_reducible apply Held.ite | with_reducible apply State.modClk_held
    | with_reducible apply State.railsBack_held

theorem State.showRails_held {s0 : State} (below : Nat → Bool) (bit : Nat) {s : State} (h : Held s0 s) :
    Held s0 (State.showRails below bit s) := by
  unfold State.showRails
  repeat' first
    | with_reducible assumption | intro _ | with_reducible apply Held.ite | with_reducible apply State.setTf_held
    | with_reducible apply Held.foldl | split

theorem State.mainRailReset_held {s0 : State} (rails : Nat) {s : State} (h : Held s0 s) :
    Held s0 (State.mainRailReset rails s) := by
  unfold State.mainRailReset
  repeat' first
    | with_reducible exact h | with_reducible apply State.count_held | with_reducible apply State.holdRegions_held
    | with_reducible apply State.modClk_held | with_reducible apply State.setFld_held
    | with_reducible apply State.showRails_held

theorem State.mainsFall_held {s0 : State} {s : State} (h : Held s0 s) :
    Held s0 (State.mainsFall s) := by
  unfold State.mainsFall
  repeat' first
    | with_reducible exact h | with_reducible apply State.count_held | with_reducible apply State.iff_held
    | with_reducible apply State.modSup_held | with_reducible apply State.raise_held
    | with_reducible apply State.setFld_held | with_reducible apply State.wakeLatch_held

theorem State.mainsReturn_held {s0 : State} {s : State} (h : Held s0 s) :
    Held s0 (State.mainsReturn s) := by
  unfold State.mainsReturn
  repeat' first
    | with_reducible assumption | intro _ | with_reducible apply Held.ite | with_reducible apply State.count_held
    | with_reducible apply State.modSup_held | with_reducible apply State.raise_held

theorem State.mainsStable_held {s0 : State} {s : State} (h : Held s0 s) :
    Held s0 (State.mainsStable s) := by
  unfold State.mainsStable
  repeat' first
    | with_reducible assumption | intro _ | with_reducible apply Held.ite | with_reducible apply State.count_held
    | with_reducible apply State.modSup_held | with_reducible apply State.onMains_held
    | with_reducible apply State.raise_held | with_reducible apply State.setFld_held
    | with_reducible apply State.unshedRegion_held | with_reducible apply State.wakeLatch_held

theorem State.ofeInt_held {s0 : State} (o : Ofe) (on : Bool) {s : State} (h : Held s0 s) :
    Held s0 (State.ofeInt o on s) := by
  unfold State.ofeInt
  repeat' first
    | with_reducible assumption | intro _ | with_reducible apply State.iff_held
    | with_reducible apply State.raise_held | with_reducible apply State.setFld_held

theorem State.rxOfe_held {s0 : State} (r : Rx) {s : State} (h : Held s0 s) :
    Held s0 (State.rxOfe r s) := by
  unfold State.rxOfe
  repeat' first
    | with_reducible assumption | intro _ | with_reducible apply Held.ite | with_reducible apply State.clkLose_held
    | with_reducible apply State.frmUnlocked_held | with_reducible apply State.iff_held
    | with_reducible apply State.lineDo_held | with_reducible apply State.raise_held
    | with_reducible apply State.rxBegin_held | with_reducible apply State.rxStopFigures_held

theorem State.txOfe_held {s0 : State} (t : Tree) {s : State} (h : Held s0 s) :
    Held s0 (State.txOfe t s) := by
  unfold State.txOfe
  repeat' first | with_reducible exact h | with_reducible apply State.txBegin_held

theorem State.ofePresent_held {s0 : State} (o : Ofe) (present : Bool) {s : State} (h : Held s0 s) :
    Held s0 (State.ofePresent o present s) := by
  unfold State.ofePresent
  repeat' first
    | with_reducible assumption | intro _ | with_reducible apply Held.ite | with_reducible apply State.rxOfe_held
    | with_reducible apply State.setFld_held | with_reducible apply State.txOfe_held | with_reducible apply Held.foldl
    | split

theorem State.openTakes_held {s0 : State} (i : Nat) {s : State} (h : Held s0 s) :
    Held s0 (State.openTakes i s) := by
  unfold State.openTakes
  repeat' first
    | with_reducible assumption | intro _ | with_reducible apply Held.ite | with_reducible apply State.iff_held
    | with_reducible apply State.mainRailReset_held | with_reducible apply State.ofeInt_held
    | with_reducible apply State.ofePresent_held | with_reducible apply State.perstAssert_held
    | with_reducible apply State.perstDeassert_held | with_reducible apply State.rogueEvent_held

theorem State.pinOpenTest_held {s0 : State} (i : Nat) (up : Bool) (down : Bool) (changed : Bool) {s : State} (h :
    Held s0 s) :
       Held s0 (State.pinOpenTest i up down changed s) := by
  unfold State.pinOpenTest
  repeat' first
    | with_reducible assumption | intro _ | with_reducible apply Held.ite | with_reducible apply State.count_held
    | with_reducible apply State.openTakes_held | with_reducible apply State.raise_held
    | with_reducible apply State.setTf_held | with_reducible apply State.showPins_held

theorem State.pinShort_held {s0 : State} (i : Nat) {s : State} (h : Held s0 s) :
    Held s0 (State.pinShort i s) := by
  unfold State.pinShort
  repeat' first
    | with_reducible assumption | intro _ | with_reducible apply Held.ite | with_reducible apply State.count_held
    | with_reducible apply State.iff_held | with_reducible apply State.raise_held
    | with_reducible apply State.setTf_held | with_reducible apply State.showPins_held

theorem State.psrcDebounce_held {s0 : State} (main : Bool) (level : Bool) {s : State} (h : Held s0 s) :
    Held s0 (State.psrcDebounce main level s) := by
  unfold State.psrcDebounce
  repeat' first
    | with_reducible assumption | intro _ | with_reducible apply Held.ite | with_reducible apply State.mainsFall_held
    | with_reducible apply State.mainsReturn_held | with_reducible apply State.setFld_held

theorem State.replanDaily_held {s0 : State} (r : LehrReadings) {s : State} (h : Held s0 s) :
    Held s0 (State.replanDaily r s) := by
  unfold State.replanDaily
  repeat' first
    | with_reducible assumption | intro _ | with_reducible apply Held.ite | with_reducible apply State.modLehr_held
    | with_reducible apply State.replan_held

theorem State.replanDeferred_held {s0 : State} (r : LehrReadings) {s : State} (h : Held s0 s) :
    Held s0 (State.replanDeferred r s) := by
  unfold State.replanDeferred
  repeat' first
    | with_reducible assumption | intro _ | with_reducible apply Held.ite
    | with_reducible apply State.replanStart_held | with_reducible apply State.setFld_held

theorem State.restoreDone_held {s0 : State} (d : Nat) {s : State} (h : Held s0 s) :
    Held s0 (State.restoreDone d s) := by
  unfold State.restoreDone
  repeat' first
    | with_reducible assumption | intro _ | with_reducible apply Held.ite
    | with_reducible apply State.domainRestored_held | with_reducible apply State.iff_held
    | with_reducible apply State.refreshPorts_held

theorem State.supplyClear_held {s0 : State} {s : State} (h : Held s0 s) :
    Held s0 (State.supplyClear s) := by
  unfold State.supplyClear
  repeat' first
    | with_reducible assumption | intro _ | with_reducible apply Held.ite | with_reducible apply State.setFld_held
    | with_reducible apply State.setTf_held | with_reducible apply Held.foldl | split

theorem State.supplyWarning_held {s0 : State} (rails : Nat) {s : State} (h : Held s0 s) :
    Held s0 (State.supplyWarning rails s) := by
  unfold State.supplyWarning
  repeat' first
    | with_reducible assumption | intro _ | with_reducible apply Held.ite | with_reducible apply State.count_held
    | with_reducible apply State.createNotice_held | with_reducible apply State.puntyAbort_held
    | with_reducible apply State.raise_held | with_reducible apply State.raiseMs_held
    | with_reducible apply State.setFld_held | with_reducible apply State.showRails_held
    | with_reducible apply State.wakeLatch_held

theorem State.sysRst_held {s0 : State} (widthNs : Nat) {s : State} (h : Held s0 s) :
    Held s0 (State.sysRst widthNs s) := by
  unfold State.sysRst
  repeat' first
    | with_reducible assumption | intro _ | with_reducible apply Held.ite
    | with_reducible apply State.mainRailReset_held

theorem State.thermalLimit_held {s0 : State} (r : Nat) {s : State} (h : Held s0 s) :
    Held s0 (State.thermalLimit r s) := by
  unfold State.thermalLimit
  repeat' first
    | with_reducible assumption | intro _ | with_reducible apply Held.ite | with_reducible apply State.clockForce_held
    | with_reducible apply State.regionContain_held

theorem State.vkeepPowerUp_held {s0 : State} (ramOk : Bool) {s : State} (h : Held s0 s) :
    Held s0 (State.vkeepPowerUp ramOk s) := by
  unfold State.vkeepPowerUp
  repeat' first
    | with_reducible assumption | intro _ | with_reducible apply Held.ite
    | with_reducible apply State.emptyKeepRam_held | with_reducible apply State.kstPowerUp_held
    | with_reducible apply State.quarAgain_held | with_reducible apply State.raise_held
    | with_reducible apply State.setFld_held

theorem State.vkeepReset_held {s0 : State} {s : State} (h : Held s0 s) : Held s0 (State.vkeepReset s) := by
  unfold State.vkeepReset
  dsimp only
  apply State.settleAll_held
  have r : Sys2Proof.Safety.Canonical State.reset := by constructor <;> decide
  exact ⟨h.pending, h.now, h.free, h.out,
    fun x => let c := h.canon x
      ⟨r.regs, r.copy1, r.copy2, Sparse.wf_filter _ _ _ c.tables, r.live, r.sram, r.lsram, c.flash, c.journal⟩,
    fun _ i => counterMod_pos i⟩

theorem State.vkeepWarn_held {s0 : State} {s : State} (h : Held s0 s) :
    Held s0 (State.vkeepWarn s) := by
  unfold State.vkeepWarn
  repeat' first
    | with_reducible assumption | intro _ | with_reducible apply Held.ite | with_reducible apply State.count_held
    | with_reducible apply State.kstAbort_held | with_reducible apply State.puntyAbort_held
    | with_reducible apply State.raise_held | with_reducible apply State.routeEvent_held
    | with_reducible apply State.setFld_held | with_reducible apply State.setTf_held

theorem State.warmAccept_held {s0 : State} (t : Tree) {s : State} (h : Held s0 s) :
    Held s0 (State.warmAccept t s) := by
  unfold State.warmAccept
  repeat' first
    | with_reducible exact h | with_reducible apply State.count_held | with_reducible apply State.modActs_held
    | with_reducible apply State.raise_held | with_reducible apply State.setFld_held
    | with_reducible apply State.setMode_held | with_reducible apply State.tmcRequest_held

theorem State.warmRefuse_held {s0 : State} (t : Tree) (result : Nat) {s : State} (h : Held s0 s) :
    Held s0 (State.warmRefuse t result s) := by
  unfold State.warmRefuse
  repeat' first
    | with_reducible exact h | with_reducible apply State.count_held | with_reducible apply State.forget_held
    | with_reducible apply State.raise_held | with_reducible apply State.setFld_held

theorem State.warmCheck_held {s0 : State} (t : Tree) (r : Rx) (c : Nat) (elapsed : Nat) (serials : List (Option
    (Bytes × Bytes))) {s : State} (h : Held s0 s) :
       Held s0 (State.warmCheck t r c elapsed serials s) := by
  unfold State.warmCheck
  repeat' first
    | with_reducible assumption | intro _ | with_reducible apply Held.ite | with_reducible apply State.setSFld_held
    | with_reducible apply State.warmAccept_held | with_reducible apply State.warmRefuse_held

theorem execSnapArm_held {s0 : State} {s : State} (h : Held s0 s) :
    ∀ out, execSnapArm s = .next out → Held s0 out := by
  intro out e; cases e
  repeat' first
    | with_reducible exact h | with_reducible apply State.guarded_held | with_reducible apply State.snapArm_held

theorem execSnapCancel_held {s0 : State} {s : State} (h : Held s0 s) :
    ∀ out, execSnapCancel s = .next out → Held s0 out := by
  intro out e; cases e
  repeat' first
    | with_reducible exact h | with_reducible apply State.guarded_held | with_reducible apply State.snapCancel_held

theorem execSnapArmNow_held {s0 : State} {s : State} (h : Held s0 s) :
    ∀ out, execSnapArmNow s = .next out → Held s0 out := by
  intro out e; cases e
  repeat' first
    | with_reducible exact h | with_reducible apply State.guarded_held | with_reducible apply State.snapArmNow_held

theorem execSnapCtrlMulti_held {s0 : State} (v : Word) {s : State} (h : Held s0 s) :
    ∀ out, execSnapCtrlMulti v s = .next out → Held s0 out := by
  intro out e; cases e
  repeat' first
    | with_reducible assumption | intro _ | with_reducible apply Held.ite | with_reducible apply State.guarded_held
    | with_reducible apply State.ignored_held

theorem execSnapCapture_held {s0 : State} {s : State} (h : Held s0 s) :
    ∀ out, execSnapCapture s = .next out → Held s0 out := by
  intro out e; cases e
  repeat' first
    | with_reducible exact h | with_reducible apply State.iff_held | with_reducible apply State.snapFire_held

theorem execSnapLateFire_held {s0 : State} {s : State} (h : Held s0 s) :
    ∀ out, execSnapLateFire s = .next out → Held s0 out := by
  intro out e; cases e
  repeat' first
    | with_reducible assumption | intro _ | with_reducible apply State.iff_held
    | with_reducible apply State.snapFire_held | with_reducible apply State.snapReach_held

theorem execSnapUnitMissing_held {s0 : State} (unit : Nat) {s : State} (h : Held s0 s) :
    ∀ out, execSnapUnitMissing unit s = .next out → Held s0 out := by
  intro out e; cases e
  repeat' first
    | with_reducible exact h | with_reducible apply State.iff_held | with_reducible apply State.snapMissing_held

theorem execSnapComplete_held {s0 : State} {s : State} (h : Held s0 s) :
    ∀ out, execSnapComplete s = .next out → Held s0 out := by
  intro out e; cases e
  repeat' first
    | with_reducible exact h | with_reducible apply State.iff_held | with_reducible apply State.snapComplete_held

theorem execRxEnable_held {s0 : State} (r : Rx) {s : State} (h : Held s0 s) :
    ∀ out, execRxEnable r s = .next out → Held s0 out := by
  intro out e; cases e
  repeat' first
    | with_reducible assumption | intro _ | with_reducible apply State.iff_held
    | with_reducible apply State.pageOn_held | with_reducible apply State.rxBegin_held

theorem execRxDisable_held {s0 : State} (r : Rx) {s : State} (h : Held s0 s) :
    ∀ out, execRxDisable r s = .next out → Held s0 out := by
  intro out e; cases e
  repeat' first
    | with_reducible assumption | intro _ | with_reducible apply State.pageOff_held
    | with_reducible apply State.rxLeave_held | with_reducible apply State.rxStopFigures_held

theorem execSigPresent_held {s0 : State} (r : Rx) {s : State} (h : Held s0 s) :
    ∀ out, execSigPresent r s = .next out → Held s0 out := by
  intro out e; cases e
  repeat' first
    | with_reducible assumption | intro _ | with_reducible apply State.iff_held
    | with_reducible apply State.modRxs_held | with_reducible apply State.raise_held
    | with_reducible apply State.setFld_held | with_reducible apply State.startAcq_held

theorem execSigLost_held {s0 : State} (r : Rx) {s : State} (h : Held s0 s) :
    ∀ out, execSigLost r s = .next out → Held s0 out := by
  intro out e; cases e
  repeat' first
    | with_reducible assumption | intro _ | with_reducible apply State.clearFom_held
    | with_reducible apply State.iff_held | with_reducible apply State.modRxs_held
    | with_reducible apply State.raise_held | with_reducible apply State.rxLeave_held
    | with_reducible apply State.setFld_held

theorem execAcqPhaseComplete_held {s0 : State} (r : Rx) (res : AcqResult) {s : State} (h : Held s0 s) :
    ∀ out, execAcqPhaseComplete r res s = .next out → Held s0 out := by
  intro out e; cases e
  repeat' first
    | with_reducible assumption | intro _ | with_reducible apply State.acqStore_held
    | with_reducible apply State.clearFom_held | with_reducible apply State.iff_held
    | with_reducible apply State.modRxs_held | with_reducible apply State.raise_held
    | with_reducible apply State.setFld_held

theorem execAcqTimeout_held {s0 : State} (r : Rx) {s : State} (h : Held s0 s) :
    ∀ out, execAcqTimeout r s = .next out → Held s0 out := by
  intro out e; cases e
  repeat' first
    | with_reducible assumption | intro _ | with_reducible apply State.count_held
    | with_reducible apply State.iff_held | with_reducible apply State.raise_held
    | with_reducible apply State.startAcq_held

theorem execLockLost_held {s0 : State} (r : Rx) {s : State} (h : Held s0 s) :
    ∀ out, execLockLost r s = .next out → Held s0 out := by
  intro out e; cases e
  repeat' first
    | with_reducible assumption | intro _ | with_reducible apply State.iff_held
    | with_reducible apply State.raise_held | with_reducible apply State.rxLeave_held
    | with_reducible apply State.startAcq_held

theorem execPhaseSlip_held {s0 : State} (r : Rx) {s : State} (h : Held s0 s) :
    ∀ out, execPhaseSlip r s = .next out → Held s0 out := by
  intro out e; cases e
  repeat' first
    | with_reducible assumption | intro _ | with_reducible apply State.count_held
    | with_reducible apply State.iff_held | with_reducible apply State.raise_held

theorem execCodewordDecode_held {s0 : State} (r : Rx) (cw : RxCodeword) {s : State} (h : Held s0 s) :
    ∀ out, execCodewordDecode r cw s = .next out → Held s0 out := by
  intro out e; cases e
  repeat' first
    | with_reducible assumption | intro _ | with_reducible apply Held.ite
    | with_reducible apply State.applyMaxIter_held | with_reducible apply State.count_held
    | with_reducible apply State.countBy_held | with_reducible apply State.iff_held
    | with_reducible apply State.modRxs_held | with_reducible apply State.noteCodeword_held
    | with_reducible apply State.raiseMs_held

theorem execFomWindowEnd_held {s0 : State} (r : Rx) (fom : Nat) {s : State} (h : Held s0 s) :
    ∀ out, execFomWindowEnd r fom s = .next out → Held s0 out := by
  intro out e; cases e
  repeat' first
    | with_reducible assumption | intro _ | with_reducible apply State.applyMaxIter_held
    | with_reducible apply State.fomWindow_held | with_reducible apply State.iff_held

theorem execRxLaneAdapt_held {s0 : State} (r : Rx) (lane : Nat) (skew : Bool) (value : Nat) {s : State} (h : Held s0
    s) :
       ∀ out, execRxLaneAdapt r lane skew value s = .next out → Held s0 out := by
  intro out e; cases e
  repeat' first
    | with_reducible exact h | with_reducible apply State.iff_held | with_reducible apply State.modRxs_held

theorem execTxDisable_held {s0 : State} (t : Tree) {s : State} (h : Held s0 s) :
    ∀ out, execTxDisable t s = .next out → Held s0 out := by
  intro out e; cases e
  repeat' first
    | with_reducible exact h | with_reducible apply State.pageOff_held | with_reducible apply State.refreshPolicy_held

theorem execTxPrepAssert_held {s0 : State} (t : Tree) {s : State} (h : Held s0 s) :
    ∀ out, execTxPrepAssert t s = .next out → Held s0 out := by
  intro out e; cases e
  repeat' first
    | with_reducible exact h | with_reducible apply State.drivePrep_held | with_reducible apply State.iff_held

theorem execTxGateAssert_held {s0 : State} (t : Tree) {s : State} (h : Held s0 s) :
    ∀ out, execTxGateAssert t s = .next out → Held s0 out := by
  intro out e; cases e
  repeat' first
    | with_reducible exact h | with_reducible apply State.driveGate_held | with_reducible apply State.iff_held

theorem execBurstStart_held {s0 : State} (t : Tree) {s : State} (h : Held s0 s) :
    ∀ out, execBurstStart t s = .next out → Held s0 out := by
  intro out e; cases e
  repeat' first
    | with_reducible assumption | intro _ | with_reducible apply Held.ite | with_reducible apply State.burstBegin_held
    | with_reducible apply Held.foldl | split

theorem execTxGateDeassert_held {s0 : State} (t : Tree) {s : State} (h : Held s0 s) :
    ∀ out, execTxGateDeassert t s = .next out → Held s0 out := by
  intro out e; cases e
  repeat' first
    | with_reducible exact h | with_reducible apply State.driveGate_held | with_reducible apply State.iff_held

theorem execBurstEnd_held {s0 : State} (t : Tree) {s : State} (h : Held s0 s) :
    ∀ out, execBurstEnd t s = .next out → Held s0 out := by
  intro out e; cases e
  repeat' first
    | with_reducible assumption | intro _ | with_reducible apply Held.ite
    | with_reducible apply State.betweenBursts_held | with_reducible apply State.count_held
    | with_reducible apply State.countBy_held | with_reducible apply State.emit_held
    | with_reducible apply State.modTxs_held | with_reducible apply State.pruneWindows_held
    | with_reducible apply State.removeGrant_held | with_reducible apply State.sendContent_held
    | with_reducible apply State.tmcSent_held | with_reducible apply Held.foldl | split

theorem execTxPrepDeassert_held {s0 : State} (t : Tree) {s : State} (h : Held s0 s) :
    ∀ out, execTxPrepDeassert t s = .next out → Held s0 out := by
  intro out e; cases e
  repeat' first
    | with_reducible exact h | with_reducible apply State.drivePrep_held | with_reducible apply State.iff_held

theorem execTxLaserPolicyWrite_held {s0 : State} (t : Tree) (acc : Access) {s : State} (h : Held s0 s) :
    ∀ out, execTxLaserPolicyWrite t acc s = .next out → Held s0 out := by
  intro out e; cases e
  repeat' first
    | with_reducible assumption | intro _ | with_reducible apply State.guarded_held
    | with_reducible apply State.refreshPolicy_held | with_reducible apply State.writePlain_held

theorem execTxClockMissing_held {s0 : State} (t : Tree) {s : State} (h : Held s0 s) :
    ∀ out, execTxClockMissing t s = .next out → Held s0 out := by
  intro out e; cases e
  repeat' first | with_reducible exact h | with_reducible apply State.clockForce_held

theorem execForceRelease_held {s0 : State} (t : Tree) {s : State} (h : Held s0 s) :
    ∀ out, execForceRelease t s = .next out → Held s0 out := by
  intro out e; cases e
  repeat' first
    | with_reducible exact h | with_reducible apply State.forceRelease_held | with_reducible apply State.guarded_held

theorem execRoguePowerPoll_held {s0 : State} (t : Tree) (dbm10 : Int) {s : State} (h : Held s0 s) :
    ∀ out, execRoguePowerPoll t dbm10 s = .next out → Held s0 out := by
  intro out e; cases e
  repeat' first
    | with_reducible assumption | intro _ | with_reducible apply Held.ite | with_reducible apply State.modTxs_held
    | with_reducible apply State.rogueEvent_held

theorem execRogueEvent_held {s0 : State} (t : Tree) (sign : RogueSign) {s : State} (h : Held s0 s) :
    ∀ out, execRogueEvent t sign s = .next out → Held s0 out := by
  intro out e; cases e
  repeat' first
    | with_reducible assumption | intro _ | with_reducible apply Held.ite | with_reducible apply State.rogueEvent_held
    | with_reducible apply State.setFld_held | with_reducible apply Held.foldl | split

theorem execOfeI2cGo_held {s0 : State} (o : Ofe) (v : Word) {s : State} (h : Held s0 s) :
    ∀ out, execOfeI2cGo o v s = .next out → Held s0 out := by
  intro out e; cases e
  repeat' first
    | with_reducible exact h | with_reducible apply State.guarded_held | with_reducible apply State.ofeGo_held

theorem execOfeI2cDone_held {s0 : State} (o : Ofe) (ack : Bool) (rdata : Nat) {s : State} (h : Held s0 s) :
    ∀ out, execOfeI2cDone o ack rdata s = .next out → Held s0 out := by
  intro out e; cases e
  repeat' first
    | with_reducible assumption | intro _ | with_reducible apply Held.ite | with_reducible apply State.iff_held
    | with_reducible apply State.raise_held | with_reducible apply State.setFld_held

theorem execOfeI2cTimeout_held {s0 : State} (o : Ofe) {s : State} (h : Held s0 s) :
    ∀ out, execOfeI2cTimeout o s = .next out → Held s0 out := by
  intro out e; cases e
  repeat' first
    | with_reducible assumption | intro _ | with_reducible apply State.iff_held
    | with_reducible apply State.raise_held | with_reducible apply State.setFld_held

theorem execOfeInt_held {s0 : State} (o : Ofe) (on : Bool) {s : State} (h : Held s0 s) :
    ∀ out, execOfeInt o on s = .next out → Held s0 out := by
  intro out e; cases e
  repeat' first
    | with_reducible exact h | with_reducible apply State.iff_held | with_reducible apply State.ofeInt_held

theorem execOfePresentChange_held {s0 : State} (o : Ofe) (present : Bool) {s : State} (h : Held s0 s) :
    ∀ out, execOfePresentChange o present s = .next out → Held s0 out := by
  intro out e; cases e
  repeat' first
    | with_reducible exact h | with_reducible apply State.iff_held | with_reducible apply State.ofePresent_held

theorem execActDisable_held {s0 : State} (t : Tree) {s : State} (h : Held s0 s) :
    ∀ out, execActDisable t s = .next out → Held s0 out := by
  intro out e; cases e
  repeat' first
    | with_reducible exact h | with_reducible apply State.enterDarkKeep_held | with_reducible apply State.pageOff_held

theorem execListeningEntry_held {s0 : State} (t : Tree) {s : State} (h : Held s0 s) :
    ∀ out, execListeningEntry t s = .next out → Held s0 out := by
  intro out e; cases e
  repeat' first
    | with_reducible exact h | with_reducible apply State.iff_held | with_reducible apply State.setMode_held

theorem execActModeWrite_held {s0 : State} (t : Tree) (acc : Access) {s : State} (h : Held s0 s) :
    ∀ out, execActModeWrite t acc s = .next out → Held s0 out := by
  intro out e; cases e
  repeat' first
    | with_reducible assumption | intro _ | with_reducible apply Held.ite | with_reducible apply State.guarded_held
    | with_reducible apply State.hostMode_held | with_reducible apply Held.foldl | split

theorem execReleaseQuarantine_held {s0 : State} (t : Tree) {s : State} (h : Held s0 s) :
    ∀ out, execReleaseQuarantine t s = .next out → Held s0 out := by
  intro out e; cases e
  repeat' first
    | with_reducible exact h | with_reducible apply State.guarded_held
    | with_reducible apply State.releaseQuarantine_held

theorem execActDeactivateCmd_held {s0 : State} (t : Tree) {s : State} (h : Held s0 s) :
    ∀ out, execActDeactivateCmd t s = .next out → Held s0 out := by
  intro out e; cases e
  repeat' first
    | with_reducible exact h | with_reducible apply State.guarded_held
    | with_reducible apply State.hostDeactivate_held

theorem execHailTimeout_held {s0 : State} (t : Tree) {s : State} (h : Held s0 s) :
    ∀ out, execHailTimeout t s = .next out → Held s0 out := by
  intro out e; cases e
  repeat' first
    | with_reducible exact h | with_reducible apply State.iff_held | with_reducible apply State.setMode_held

theorem execRangeTimeout_held {s0 : State} (t : Tree) {s : State} (h : Held s0 s) :
    ∀ out, execRangeTimeout t s = .next out → Held s0 out := by
  intro out e; cases e
  repeat' first
    | with_reducible exact h | with_reducible apply State.iff_held | with_reducible apply State.setMode_held

theorem execWarmReturn_held {s0 : State} (t : Tree) (counter : Nat) (elapsedFrames : Nat) (serials : List (Option
    (Bytes × Bytes))) {s : State} (h : Held s0 s) :
       ∀ out, execWarmReturn t counter elapsedFrames serials s = .next out → Held s0 out := by
  intro out e; cases e
  repeat' first
    | with_reducible assumption | intro _ | with_reducible apply Held.ite | with_reducible apply State.iff_held
    | with_reducible apply State.warmCheck_held | with_reducible apply Held.foldl | split

theorem execWarmWindowExpire_held {s0 : State} (t : Tree) {s : State} (h : Held s0 s) :
    ∀ out, execWarmWindowExpire t s = .next out → Held s0 out := by
  intro out e; cases e
  repeat' first
    | with_reducible assumption | intro _ | with_reducible apply State.count_held
    | with_reducible apply State.forget_held | with_reducible apply State.iff_held
    | with_reducible apply State.setFld_held

theorem execEqdApply_held {s0 : State} (t : Tree) {s : State} (h : Held s0 s) :
    ∀ out, execEqdApply t s = .next out → Held s0 out := by
  intro out e; cases e
  repeat' first
    | with_reducible exact h | with_reducible apply State.applyEqd_held | with_reducible apply State.iff_held

theorem execMaxParkExpire_held {s0 : State} (t : Tree) {s : State} (h : Held s0 s) :
    ∀ out, execMaxParkExpire t s = .next out → Held s0 out := by
  intro out e; cases e
  repeat' first
    | with_reducible exact h | with_reducible apply State.iff_held | with_reducible apply State.setMode_held

theorem execGaspWaitExpire_held {s0 : State} (t : Tree) {s : State} (h : Held s0 s) :
    ∀ out, execGaspWaitExpire t s = .next out → Held s0 out := by
  intro out e; cases e
  repeat' first | with_reducible exact h | with_reducible apply State.gaspWait_held

theorem execNoticeRetry_held {s0 : State} (t : Tree) {s : State} (h : Held s0 s) :
    ∀ out, execNoticeRetry t s = .next out → Held s0 out := by
  intro out e; cases e
  repeat' first | with_reducible exact h | with_reducible apply State.noticeRetry_held

theorem execTmcResponseExpire_held {s0 : State} (t : Tree) (slot : Nat) {s : State} (h : Held s0 s) :
    ∀ out, execTmcResponseExpire t slot s = .next out → Held s0 out := by
  intro out e; cases e
  repeat' first
    | with_reducible assumption | intro _ | with_reducible apply State.count_held
    | with_reducible apply State.iff_held | with_reducible apply State.setTmcState_held

theorem execPortCfgWrite_held {s0 : State} (port : Nat) (acc : Access) {s : State} (h : Held s0 s) :
    ∀ out, execPortCfgWrite port acc s = .next out → Held s0 out := by
  intro out e; cases e
  repeat' first
    | with_reducible exact h | with_reducible apply State.guarded_held | with_reducible apply State.portConfig_held

theorem execAnFailed_held {s0 : State} (port : Nat) {s : State} (h : Held s0 s) :
    ∀ out, execAnFailed port s = .next out → Held s0 out := by
  intro out e; cases e
  repeat' first
    | with_reducible assumption | intro _ | with_reducible apply State.anBegin_held
    | with_reducible apply State.iff_held | with_reducible apply State.raise_held

theorem execCdrLock_held {s0 : State} (lane : Nat) {s : State} (h : Held s0 s) :
    ∀ out, execCdrLock lane s = .next out → Held s0 out := by
  intro out e; cases e
  repeat' first
    | with_reducible exact h | with_reducible apply State.iff_held | with_reducible apply State.setCdr_held

theorem execCdrLockLost_held {s0 : State} (lane : Nat) {s : State} (h : Held s0 s) :
    ∀ out, execCdrLockLost lane s = .next out → Held s0 out := by
  intro out e; cases e
  repeat' first
    | with_reducible assumption | intro _ | with_reducible apply State.iff_held
    | with_reducible apply State.raiseMs_held | with_reducible apply State.setCdr_held

theorem execLinkUp_held {s0 : State} (port : Nat) (up : LinkUpInfo) {s : State} (h : Held s0 s) :
    ∀ out, execLinkUp port up s = .next out → Held s0 out := by
  intro out e; cases e
  repeat' first | with_reducible exact h | with_reducible apply State.linkRise_held

theorem execLinkDown_held {s0 : State} (port : Nat) {s : State} (h : Held s0 s) :
    ∀ out, execLinkDown port s = .next out → Held s0 out := by
  intro out e; cases e
  repeat' first
    | with_reducible assumption | intro _ | with_reducible apply State.iff_held
    | with_reducible apply State.linkFall_held | with_reducible apply State.setFault_held

theorem execLaneFomWindow_held {s0 : State} (lane : Nat) (fom : Nat) {s : State} (h : Held s0 s) :
    ∀ out, execLaneFomWindow lane fom s = .next out → Held s0 out := by
  intro out e; cases e
  repeat' first
    | with_reducible exact h | with_reducible apply State.iff_held | with_reducible apply State.laneFom_held

theorem execLaneAdapt_held {s0 : State} (lane : Nat) {s : State} (h : Held s0 s) :
    ∀ out, execLaneAdapt lane s = .next out → Held s0 out := by
  intro out e; cases e
  repeat' first | with_reducible exact h | with_reducible apply State.laneAdapt_held

theorem execPrbsLock_held {s0 : State} (lane : Nat) (levels : List Int) {s : State} (h : Held s0 s) :
    ∀ out, execPrbsLock lane levels s = .next out → Held s0 out := by
  intro out e; cases e
  repeat' first | with_reducible assumption | intro _ | with_reducible apply State.prbsSee_held

theorem execPrbsLockLost_held {s0 : State} (lane : Nat) (levels : List Int) {s : State} (h : Held s0 s) :
    ∀ out, execPrbsLockLost lane levels s = .next out → Held s0 out := by
  intro out e; cases e
  repeat' first
    | with_reducible assumption | intro _ | with_reducible apply State.iff_held
    | with_reducible apply State.prbsCheck_held

theorem execPrbsInvert_held {s0 : State} (lane : Nat) {s : State} (h : Held s0 s) :
    ∀ out, execPrbsInvert lane s = .next out → Held s0 out := by
  intro out e; cases e
  repeat' first
    | with_reducible assumption | intro _ | with_reducible apply State.iff_held
    | with_reducible apply State.setTf_held

theorem execLaneInject_held {s0 : State} (lane : Nat) {s : State} (h : Held s0 s) :
    ∀ out, execLaneInject lane s = .next out → Held s0 out := by
  intro out e; cases e
  repeat' first
    | with_reducible exact h | with_reducible apply State.guarded_held | with_reducible apply State.laneInject_held

theorem execLaneInjectPeriodic_held {s0 : State} (lane : Nat) {s : State} (h : Held s0 s) :
    ∀ out, execLaneInjectPeriodic lane s = .next out → Held s0 out := by
  intro out e; cases e
  repeat' first
    | with_reducible exact h | with_reducible apply State.emitError_held | with_reducible apply State.iff_held

theorem execLaneDisable_held {s0 : State} {s : State} (h : Held s0 s) :
    ∀ out, execLaneDisable s = .next out → Held s0 out := by
  intro out e; cases e
  repeat' first
    | with_reducible exact h | with_reducible apply State.pageOff_held | with_reducible apply State.refreshPorts_held

theorem execUniFrameReceive_held {s0 : State} (port : Nat) (bytes : Bytes) (fcsErr : Bool) (corrected : Nat)
    (uncorrectable : Nat) {s : State} (h : Held s0 s) :
       ∀ out, execUniFrameReceive port bytes fcsErr corrected uncorrectable s = .next out → Held s0 out := by
  intro out e; cases e
  repeat' first
    | with_reducible exact h | with_reducible apply State.iff_held | with_reducible apply State.uniReceive_held

theorem execPauseReceive_held {s0 : State} (port : Nat) (bytes : Bytes) {s : State} (h : Held s0 s) :
    ∀ out, execPauseReceive port bytes s = .next out → Held s0 out := by
  intro out e; cases e
  repeat' first
    | with_reducible assumption | intro _ | with_reducible apply Held.ite | with_reducible apply State.count_held
    | with_reducible apply State.macControl_held

theorem execPauseExpire_held {s0 : State} (port : Nat) (prio : Nat) {s : State} (h : Held s0 s) :
    ∀ out, execPauseExpire port prio s = .next out → Held s0 out := by
  intro out e; cases e
  repeat' first | with_reducible exact h | with_reducible apply State.pauseEnd_held

theorem execPfcRefresh_held {s0 : State} (port : Nat) (prio : Nat) {s : State} (h : Held s0 s) :
    ∀ out, execPfcRefresh port prio s = .next out → Held s0 out := by
  intro out e; cases e
  repeat' first | with_reducible exact h | with_reducible apply State.xoffAgain_held

theorem execLpiEnter_held {s0 : State} (port : Nat) {s : State} (h : Held s0 s) :
    ∀ out, execLpiEnter port s = .next out → Held s0 out := by
  intro out e; cases e
  repeat' first | with_reducible exact h | with_reducible apply State.lpiEnter_held

theorem execLpiExit_held {s0 : State} (port : Nat) {s : State} (h : Held s0 s) :
    ∀ out, execLpiExit port s = .next out → Held s0 out := by
  intro out e; cases e
  repeat' first | with_reducible exact h | with_reducible apply State.setPf_held

theorem execUniqDisable_held {s0 : State} (q : Nat) {s : State} (h : Held s0 s) :
    ∀ out, execUniqDisable q s = .next out → Held s0 out := by
  intro out e; cases e
  repeat' first
    | with_reducible exact h | with_reducible apply State.pageOff_held | with_reducible apply State.refreshPorts_held

theorem execRemoteFault_held {s0 : State} (port : Nat) (on : Bool) {s : State} (h : Held s0 s) :
    ∀ out, execRemoteFault port on s = .next out → Held s0 out := by
  intro out e; cases e
  repeat' first | with_reducible exact h | with_reducible apply State.setPf_held

theorem execLpiRx_held {s0 : State} (port : Nat) (on : Bool) {s : State} (h : Held s0 s) :
    ∀ out, execLpiRx port on s = .next out → Held s0 out := by
  intro out e; cases e
  repeat' first
    | with_reducible exact h | with_reducible apply State.count_held | with_reducible apply State.iff_held
    | with_reducible apply State.setPf_held

end Sys2Proof.Machine
end

