-- ==== Sys2Proof/Laws/KeptAccess.lean ====
section
/-! SUPPORT. What every operation keeps (Laws/Held.lean): register and window accesses and their commands. -/

namespace Sys2Proof.Machine

theorem State.eachBit_held {s0 : State} (a1 : Word) {a2 : List (Nat × (State → State))} {s : State} (h : Held s0 s)
    (h2 : AllHeld s0 a2) : Held s0 (State.eachBit a1 a2 s) := by
  unfold State.eachBit
  induction a2 generalizing s with
  | nil => exact h
  | cons x l ih => exact ih (State.iff_held _ h h2.1) h2.2

theorem State.actWrite_held {s0 : State} (t : Tree) (off : Nat) (acc : Access) {s : State} (h : Held s0 s) :
    Held s0 (State.actWrite t off acc s) := by
  unfold State.actWrite
  repeat' first
    | with_reducible assumption | intro _ | with_reducible apply Held.ite | with_reducible apply State.eachBit_held
    | with_reducible apply State.hostDeactivate_held | with_reducible apply State.hostMode_held
    | with_reducible apply State.releaseQuarantine_held | with_reducible apply State.writePlain_held
    | with_reducible apply Held.foldl | split | with_reducible apply AllHeld.nil | with_reducible apply AllHeld.cons
    | with_reducible apply AllHeld.map | with_reducible apply Held.id | dsimp only

theorem State.softReset_held {s0 : State} (p : Nat) {s : State} (h : Held s0 s) :
    Held s0 (State.softReset p s) := by
  unfold State.softReset
  repeat' first
    | with_reducible exact h | with_reducible apply State.blockReset_held | with_reducible apply State.setFld_held

theorem State.ctrlWrite_held {s0 : State} (p : Nat) (acc : Access) {s : State} (h : Held s0 s) :
    Held s0 (State.ctrlWrite p acc s) := by
  unfold State.ctrlWrite
  repeat' first
    | with_reducible assumption | intro _ | with_reducible apply Held.ite | with_reducible apply State.blockStart_held
    | with_reducible apply State.blockStop_held | with_reducible apply State.setFld_held
    | with_reducible apply State.softReset_held | with_reducible apply Held.foldl | split

theorem State.cfgClear_held {s0 : State} (p : Nat) {s : State} (h : Held s0 s) :
    Held s0 (State.cfgClear p s) := by
  unfold State.cfgClear
  repeat' first | with_reducible exact h | with_reducible apply State.setFld_held

theorem State.pennantClear_held {s0 : State} (p : Nat) (v : Word) {s : State} (h : Held s0 s) :
    Held s0 (State.pennantClear p v s) := by
  unfold State.pennantClear
  repeat' first
    | with_reducible assumption | intro _ | with_reducible apply Held.ite | with_reducible apply State.setFld_held
    | with_reducible apply State.stale_held

theorem State.maskWrite_held {s0 : State} (p : Nat) (acc : Access) {s : State} (h : Held s0 s) :
    Held s0 (State.maskWrite p acc s) := by
  unfold State.maskWrite
  repeat' first
    | with_reducible exact h | with_reducible apply State.iff_held | with_reducible apply State.sendPennant_held
    | with_reducible apply State.writePlain_held

theorem State.tripleClear_held {s0 : State} (p : Nat) {s : State} (h : Held s0 s) :
    Held s0 (State.tripleClear p s) := by
  unfold State.tripleClear
  repeat' first | with_reducible exact h | with_reducible apply State.setFld_held

theorem State.darkClear_held {s0 : State} {s : State} (h : Held s0 s) :
    Held s0 (State.darkClear s) := by
  unfold State.darkClear
  repeat' first | with_reducible exact h | with_reducible apply State.setFld_held

theorem State.keepWrite_held {s0 : State} (off : Nat) (acc : Access) {s : State} (h : Held s0 s) :
    Held s0 (State.keepWrite off acc s) := by
  unfold State.keepWrite
  repeat' first
    | with_reducible assumption | intro _ | with_reducible apply Held.ite | with_reducible apply State.eachBit_held
    | with_reducible apply State.policyWrite_held | with_reducible apply State.wakeDomain_held
    | with_reducible apply State.writePlain_held | with_reducible apply Held.foldl | split
    | with_reducible apply AllHeld.nil | with_reducible apply AllHeld.cons | with_reducible apply AllHeld.map
    | with_reducible apply Held.id | dsimp only

theorem State.checkedWrite_held {s0 : State} (p : Nat) (off : Nat) (acc : Access) (b : Nat) (bad : Word → Bool) {s :
    State} (h : Held s0 s) :
       Held s0 (State.checkedWrite p off acc b bad s) := by
  unfold State.checkedWrite
  repeat' first
    | with_reducible exact h | with_reducible apply State.iff_held | with_reducible apply State.raise_held
    | with_reducible apply State.writePlain_held

theorem State.lehrWrite_held {s0 : State} (off : Nat) (acc : Access) {s : State} (h : Held s0 s) :
    Held s0 (State.lehrWrite off acc s) := by
  unfold State.lehrWrite
  repeat' first
    | with_reducible assumption | intro _ | with_reducible apply Held.ite
    | with_reducible apply State.checkedWrite_held | with_reducible apply State.eachBit_held
    | with_reducible apply State.modFreeIx_held | with_reducible apply State.replan_held
    | with_reducible apply State.writePlain_held | with_reducible apply Held.foldl | split
    | with_reducible apply AllHeld.nil | with_reducible apply AllHeld.cons | with_reducible apply AllHeld.map
    | exact Nat.le_add_right _ _ | with_reducible apply Held.id | dsimp only

theorem State.stageWrite_held {s0 : State} (p : Nat) (off : Nat) (acc : Access) {s : State} (h : Held s0 s) :
    Held s0 (State.stageWrite p off acc s) := by
  unfold State.stageWrite
  repeat' first
    | with_reducible assumption | intro _ | with_reducible apply Held.ite | with_reducible apply State.stageWord_held
    | with_reducible apply Held.foldl | split

theorem State.timeWrite_held {s0 : State} (off : Nat) (acc : Access) {s : State} (h : Held s0 s) :
    Held s0 (State.timeWrite off acc s) := by
  unfold State.timeWrite
  repeat' first
    | with_reducible assumption | intro _ | with_reducible apply Held.ite
    | with_reducible apply State.checkedWrite_held | with_reducible apply State.eachBit_held
    | with_reducible apply State.foutJudge_held | with_reducible apply State.iff_held
    | with_reducible apply State.launchJudge_held | with_reducible apply State.ppsLow_held
    | with_reducible apply State.ppsMark_held | with_reducible apply State.stageWrite_held
    | with_reducible apply State.timeClearHost_held | with_reducible apply State.timeSetCmd_held
    | with_reducible apply State.writePlain_held | with_reducible apply Held.foldl | split
    | with_reducible apply AllHeld.nil | with_reducible apply AllHeld.cons | with_reducible apply AllHeld.map
    | with_reducible apply Held.id | dsimp only

theorem State.fecCtrlWrite_held {s0 : State} (p : Nat) (acc : Access) {s : State} (h : Held s0 s) :
    Held s0 (State.fecCtrlWrite p acc s) := by
  unfold State.fecCtrlWrite
  repeat' first
    | with_reducible assumption | intro _ | with_reducible apply Held.ite | with_reducible apply State.ignored_held
    | with_reducible apply State.setFld_held | with_reducible apply State.writePlain_held

theorem State.i2cWrite_held {s0 : State} (p : Nat) (acc : Access) {s : State} (h : Held s0 s) :
    Held s0 (State.i2cWrite p acc s) := by
  unfold State.i2cWrite
  repeat' first
    | with_reducible assumption | intro _ | with_reducible apply Held.ite | with_reducible apply State.ofeGo_held
    | with_reducible apply State.writePlain_held

theorem State.rxWrite_held {s0 : State} (r : Rx) (off : Nat) (acc : Access) {s : State} (h : Held s0 s) :
    Held s0 (State.rxWrite r off acc s) := by
  unfold State.rxWrite
  repeat' first
    | with_reducible assumption | intro _ | with_reducible apply Held.ite
    | with_reducible apply State.fecCtrlWrite_held | with_reducible apply State.i2cWrite_held
    | with_reducible apply State.writePlain_held | with_reducible apply Held.foldl | split

theorem State.txWrite_held {s0 : State} (t : Tree) (off : Nat) (acc : Access) {s : State} (h : Held s0 s) :
    Held s0 (State.txWrite t off acc s) := by
  unfold State.txWrite
  repeat' first
    | with_reducible assumption | intro _ | with_reducible apply Held.ite | with_reducible apply State.eachBit_held
    | with_reducible apply State.forceRelease_held | with_reducible apply State.i2cWrite_held
    | with_reducible apply State.noteHalLevel_held | with_reducible apply State.noteLaunch_held
    | with_reducible apply State.refreshPolicy_held | with_reducible apply State.writePlain_held
    | with_reducible apply Held.foldl | split | with_reducible apply AllHeld.nil | with_reducible apply AllHeld.cons
    | with_reducible apply AllHeld.map | with_reducible apply Held.id | dsimp only

theorem State.halWrite_held {s0 : State} (t : Tree) (off : Nat) (acc : Access) {s : State} (h : Held s0 s) :
    Held s0 (State.halWrite t off acc s) := by
  unfold State.halWrite
  repeat' first
    | with_reducible assumption | intro _ | with_reducible apply Held.ite
    | with_reducible apply State.checkedWrite_held | with_reducible apply State.eachBit_held
    | with_reducible apply State.halCancel_held | with_reducible apply State.halOffsetJudge_held
    | with_reducible apply State.halSubmitCmd_held | with_reducible apply State.noteHalLevel_held
    | with_reducible apply State.stageWrite_held | with_reducible apply State.writePlain_held
    | with_reducible apply Held.foldl | split | with_reducible apply AllHeld.nil | with_reducible apply AllHeld.cons
    | with_reducible apply AllHeld.map | with_reducible apply Held.id | dsimp only

theorem State.dualWrite_held {s0 : State} (off : Nat) (acc : Access) {s : State} (h : Held s0 s) :
    Held s0 (State.dualWrite off acc s) := by
  unfold State.dualWrite
  repeat' first
    | with_reducible assumption | intro _ | with_reducible apply Held.ite
    | with_reducible apply State.checkedWrite_held | with_reducible apply State.eachBit_held
    | with_reducible apply State.flushMerge_held | with_reducible apply State.writePlain_held
    | with_reducible apply Held.foldl | split | with_reducible apply AllHeld.nil | with_reducible apply AllHeld.cons
    | with_reducible apply AllHeld.map | with_reducible apply Held.id | dsimp only

theorem State.grtWrite_held {s0 : State} (t : Tree) (off : Nat) (acc : Access) {s : State} (h : Held s0 s) :
    Held s0 (State.grtWrite t off acc s) := by
  unfold State.grtWrite
  repeat' first
    | with_reducible assumption | intro _ | with_reducible apply Held.ite
    | with_reducible apply State.checkedWrite_held | with_reducible apply State.writePlain_held
    | with_reducible apply Held.foldl | split

theorem State.uschWrite_held {s0 : State} (off : Nat) (acc : Access) {s : State} (h : Held s0 s) :
    Held s0 (State.uschWrite off acc s) := by
  unfold State.uschWrite
  repeat' first
    | with_reducible assumption | intro _ | with_reducible apply Held.ite
    | with_reducible apply State.checkedWrite_held | with_reducible apply State.writePlain_held
    | with_reducible apply Held.foldl | split

theorem State.flowWrite_held {s0 : State} (off : Nat) (acc : Access) {s : State} (h : Held s0 s) :
    Held s0 (State.flowWrite off acc s) := by
  unfold State.flowWrite
  repeat' first
    | with_reducible assumption | intro _ | with_reducible apply Held.ite
    | with_reducible apply State.flowCommand_held | with_reducible apply State.writePlain_held
    | with_reducible apply Held.foldl | split

theorem State.uniqWrite_held {s0 : State} (i : Nat) (off : Nat) (acc : Access) {s : State} (h : Held s0 s) :
    Held s0 (State.uniqWrite i off acc s) := by
  unfold State.uniqWrite
  repeat' first
    | with_reducible assumption | intro _ | with_reducible apply Held.ite
    | with_reducible apply State.checkedWrite_held | with_reducible apply State.pfcJudge_held
    | with_reducible apply State.portConfig_held | with_reducible apply State.writePlain_held
    | with_reducible apply Held.foldl | split

theorem State.laneWrite_held {s0 : State} (off : Nat) (acc : Access) {s : State} (h : Held s0 s) :
    Held s0 (State.laneWrite off acc s) := by
  unfold State.laneWrite
  repeat' first
    | with_reducible assumption | intro _ | with_reducible apply Held.ite | with_reducible apply State.eachBit_held
    | with_reducible apply State.laneInject_held | with_reducible apply State.writePlain_held
    | with_reducible apply Held.foldl | split | with_reducible apply AllHeld.nil | with_reducible apply AllHeld.cons
    | with_reducible apply AllHeld.map | with_reducible apply Held.id | dsimp only

theorem State.hifWrite_held {s0 : State} (off : Nat) (acc : Access) {s : State} (h : Held s0 s) :
    Held s0 (State.hifWrite off acc s) := by
  unfold State.hifWrite
  repeat' first
    | with_reducible assumption | intro _ | with_reducible apply Held.ite
    | with_reducible apply State.checkedWrite_held | with_reducible apply State.stageWrite_held
    | with_reducible apply State.wakeClear_held | with_reducible apply State.writePlain_held
    | with_reducible apply Held.foldl | split

theorem State.coreWrite_held {s0 : State} (off : Nat) (acc : Access) {s : State} (h : Held s0 s) :
    Held s0 (State.coreWrite off acc s) := by
  unfold State.coreWrite
  repeat' first
    | with_reducible assumption | intro _ | with_reducible apply Held.ite
    | with_reducible apply State.coreRelease_held | with_reducible apply State.eachBit_held
    | with_reducible apply State.ignored_held | with_reducible apply State.puntyAbort_held
    | with_reducible apply State.puntyArm_held | with_reducible apply State.puntyCommit_held
    | with_reducible apply State.puntyReady_held | with_reducible apply State.useFree_held
    | with_reducible apply State.writePlain_held | with_reducible apply Held.foldl | split
    | with_reducible apply AllHeld.nil | with_reducible apply AllHeld.cons | with_reducible apply AllHeld.map
    | with_reducible apply Held.id | dsimp only

theorem State.tskWrite_held {s0 : State} (off : Nat) (acc : Access) {s : State} (h : Held s0 s) :
    Held s0 (State.tskWrite off acc s) := by
  unfold State.tskWrite
  repeat' first
    | with_reducible assumption | intro _ | with_reducible apply Held.ite | with_reducible apply State.tskSet_held
    | with_reducible apply State.writePlain_held | with_reducible apply Held.foldl | split

theorem State.ccryWrite_held {s0 : State} (off : Nat) (acc : Access) {s : State} (h : Held s0 s) :
    Held s0 (State.ccryWrite off acc s) := by
  unfold State.ccryWrite
  repeat' first
    | with_reducible assumption | intro _ | with_reducible apply Held.ite | with_reducible apply State.ccryAbort_held
    | with_reducible apply State.ccryExport_held | with_reducible apply State.ccryImport_held
    | with_reducible apply State.ccryStart_held | with_reducible apply State.eachBit_held
    | with_reducible apply State.writePlain_held | with_reducible apply Held.foldl | split
    | with_reducible apply AllHeld.nil | with_reducible apply AllHeld.cons | with_reducible apply AllHeld.map
    | with_reducible apply Held.id | dsimp only

theorem State.kstCmdWrite_held {s0 : State} (off : Nat) (acc : Access) {s : State} (h : Held s0 s) :
    Held s0 (State.kstCmdWrite off acc s) := by
  unfold State.kstCmdWrite
  repeat' first
    | with_reducible assumption | intro _ | with_reducible apply Held.ite | with_reducible apply State.eachBit_held
    | with_reducible apply State.ignored_held | with_reducible apply State.kstCommit_held
    | with_reducible apply State.kstGenkey_held | with_reducible apply State.writePlain_held
    | with_reducible apply Held.foldl | split | with_reducible apply AllHeld.nil | with_reducible apply AllHeld.cons
    | with_reducible apply AllHeld.map | with_reducible apply Held.id | dsimp only

theorem State.flshWrite_held {s0 : State} (off : Nat) (acc : Access) {s : State} (h : Held s0 s) :
    Held s0 (State.flshWrite off acc s) := by
  unfold State.flshWrite
  repeat' first
    | with_reducible assumption | intro _ | with_reducible apply Held.ite
    | with_reducible apply State.bootConfirm_held | with_reducible apply State.bootRetry_held
    | with_reducible apply State.count_held | with_reducible apply State.eachBit_held
    | with_reducible apply State.flashCommand_held | with_reducible apply State.iff_held
    | with_reducible apply State.ignored_held | with_reducible apply State.putReg_held
    | with_reducible apply Held.foldl | split | with_reducible apply AllHeld.nil | with_reducible apply AllHeld.cons
    | with_reducible apply AllHeld.map | with_reducible apply Held.id | dsimp only

theorem State.pinWrite_held {s0 : State} (off : Nat) (acc : Access) {s : State} (h : Held s0 s) :
    Held s0 (State.pinWrite off acc s) := by
  unfold State.pinWrite
  repeat' first
    | with_reducible assumption | intro _ | with_reducible apply Held.ite | with_reducible apply State.eachBit_held
    | with_reducible apply State.pinRelease_held | with_reducible apply State.useFree_held
    | with_reducible apply State.writePlain_held | with_reducible apply Held.foldl | split
    | with_reducible apply AllHeld.nil | with_reducible apply AllHeld.cons | with_reducible apply AllHeld.map
    | with_reducible apply Held.id | dsimp only

theorem State.blockWrite_held {s0 : State} (i : PageInfo) (off : Nat) (acc : Access) {s : State} (h : Held s0 s) :
    Held s0 (State.blockWrite i off acc s) := by
  unfold State.blockWrite
  repeat' first
    | with_reducible assumption | intro _ | with_reducible apply Held.ite | with_reducible apply State.actWrite_held
    | with_reducible apply State.ccryWrite_held | with_reducible apply State.clkForceCmd_held
    | with_reducible apply State.coreWrite_held | with_reducible apply State.darkClear_held
    | with_reducible apply State.dualWrite_held | with_reducible apply State.eachBit_held
    | with_reducible apply State.flowWrite_held | with_reducible apply State.flshWrite_held
    | with_reducible apply State.grtWrite_held | with_reducible apply State.halWrite_held
    | with_reducible apply State.hifWrite_held | with_reducible apply State.keepWrite_held
    | with_reducible apply State.kstCmdWrite_held | with_reducible apply State.laneWrite_held
    | with_reducible apply State.lehrWrite_held | with_reducible apply State.pinWrite_held
    | with_reducible apply State.rxWrite_held | with_reducible apply State.setFld_held
    | with_reducible apply State.snapCtrl_held | with_reducible apply State.stageWrite_held
    | with_reducible apply State.sysRegionRelease_held | with_reducible apply State.timeWrite_held
    | with_reducible apply State.tskWrite_held | with_reducible apply State.txWrite_held
    | with_reducible apply State.uniqWrite_held | with_reducible apply State.uschWrite_held
    | with_reducible apply State.writePlain_held | with_reducible apply Held.foldl | split
    | with_reducible apply AllHeld.nil | with_reducible apply AllHeld.cons | with_reducible apply AllHeld.map
    | with_reducible apply Held.id | dsimp only

theorem State.applyWrite_held {s0 : State} (i : PageInfo) (off : Nat) (acc : Access) {s : State} (h : Held s0 s) :
    Held s0 (State.applyWrite i off acc s) := by
  unfold State.applyWrite
  repeat' first
    | with_reducible assumption | intro _ | with_reducible apply Held.ite | with_reducible apply State.blockWrite_held
    | with_reducible apply State.cfgClear_held | with_reducible apply State.ctrlWrite_held
    | with_reducible apply State.eachBit_held | with_reducible apply State.maskWrite_held
    | with_reducible apply State.pennantClear_held | with_reducible apply State.tripleClear_held
    | with_reducible apply State.writePlain_held | with_reducible apply Held.foldl | split
    | with_reducible apply AllHeld.nil | with_reducible apply AllHeld.cons | with_reducible apply AllHeld.map
    | with_reducible apply Held.id | dsimp only

theorem State.commitDma_held {s0 : State} (e : Nat) (ws : List Word) {s : State} (h : Held s0 s) :
    Held s0 (State.commitDma e ws s) := by
  unfold State.commitDma
  repeat' first
    | with_reducible assumption | intro _ | with_reducible apply Held.ite | with_reducible apply State.iff_held
    | with_reducible apply State.ignored_held | with_reducible apply State.putEntry_held
    | with_reducible apply State.raise_held | with_reducible apply State.setTf_held

theorem State.putMasked_held {s0 : State} (b : Blk) (p : Nat) (t : Nat) (e : Nat) (ws : List Word) {s : State} (h :
    Held s0 s) :
       Held s0 (State.putMasked b p t e ws s) := by
  unfold State.putMasked
  repeat' first | with_reducible exact h | with_reducible apply State.putEntry_held

theorem State.commitPol_held {s0 : State} (e : Nat) (ws : List Word) {s : State} (h : Held s0 s) :
    Held s0 (State.commitPol e ws s) := by
  unfold State.commitPol
  repeat' first
    | with_reducible assumption | intro _ | with_reducible apply Held.ite | with_reducible apply State.countBy_held
    | with_reducible apply State.iff_held | with_reducible apply State.modPol_held
    | with_reducible apply State.polUpdate_held | with_reducible apply State.putMasked_held
    | with_reducible apply State.putTw_held | with_reducible apply State.setFld_held

theorem State.commitLsec_held {s0 : State} (t : Nat) (e : Nat) (ws : List Word) {s : State} (h : Held s0 s) :
    Held s0 (State.commitLsec t e ws s) := by
  unfold State.commitLsec
  repeat' first
    | with_reducible assumption | intro _ | with_reducible apply Held.ite | with_reducible apply State.clearPn_held
    | with_reducible apply State.freeLast_held | with_reducible apply State.iff_held
    | with_reducible apply State.modRel_held | with_reducible apply State.putMasked_held
    | with_reducible apply State.putTw_held | with_reducible apply State.setCtxGcm_held
    | with_reducible apply State.setFld_held | with_reducible apply State.setSelector_held
    | with_reducible apply State.setTf_held | with_reducible apply State.showPn_held

theorem State.commitUniq_held {s0 : State} (p : Nat) (e : Nat) (ws : List Word) {s : State} (h : Held s0 s) :
    Held s0 (State.commitUniq p e ws s) := by
  unfold State.commitUniq
  repeat' first
    | with_reducible exact h | with_reducible apply State.iff_held | with_reducible apply State.pfcEntry_held
    | with_reducible apply State.putMasked_held | with_reducible apply State.raise_held

theorem State.commitLane_held {s0 : State} (e : Nat) (ws : List Word) {s : State} (h : Held s0 s) :
    Held s0 (State.commitLane e ws s) := by
  unfold State.commitLane
  repeat' first
    | with_reducible assumption | intro _ | with_reducible apply Held.ite | with_reducible apply State.genStart_held
    | with_reducible apply State.iff_held | with_reducible apply State.linkFall_held
    | with_reducible apply State.modUni_held | with_reducible apply State.putMasked_held
    | with_reducible apply State.putTw_held | with_reducible apply State.raise_held
    | with_reducible apply State.setAdapting_held | with_reducible apply State.setPrbs_held
    | with_reducible apply State.setTf_held | with_reducible apply Held.foldl | split

theorem State.commitTsk_held {s0 : State} (t : Nat) (e : Nat) (ws : List Word) {s : State} (h : Held s0 s) :
    Held s0 (State.commitTsk t e ws s) := by
  unfold State.commitTsk
  repeat' first
    | with_reducible assumption | intro _ | with_reducible apply Held.ite | with_reducible apply State.flowJudge_held
    | with_reducible apply State.judgeTask_held | with_reducible apply State.modCore_held
    | with_reducible apply State.modTsk_held | with_reducible apply State.putMasked_held
    | with_reducible apply Held.foldl | split

theorem State.commitKeep_held {s0 : State} (e : Nat) (v : Word) {s : State} (h : Held s0 s) :
    Held s0 (State.commitKeep e v s) := by
  unfold State.commitKeep
  repeat' first
    | with_reducible assumption | intro _ | with_reducible apply Held.ite | with_reducible apply State.modKeep_held
    | with_reducible apply State.putTw_held | with_reducible apply Held.foldl | split | with_reducible apply Held.id
    | dsimp only

theorem State.commitEntry_held {s0 : State} (w : Window) (p : Nat) (t : Nat) (e : Nat) (ws : List Word) {s : State}
    (h : Held s0 s) :
       Held s0 (State.commitEntry w p t e ws s) := by
  unfold State.commitEntry
  repeat' first
    | with_reducible assumption | intro _ | with_reducible apply Held.ite | with_reducible apply State.commitDma_held
    | with_reducible apply State.commitKeep_held | with_reducible apply State.commitLane_held
    | with_reducible apply State.commitLsec_held | with_reducible apply State.commitPol_held
    | with_reducible apply State.commitTsk_held | with_reducible apply State.commitUniq_held
    | with_reducible apply State.coreRingTail_held | with_reducible apply State.iff_held
    | with_reducible apply State.ignored_held | with_reducible apply State.launchJudge_held
    | with_reducible apply State.modSto_held | with_reducible apply State.modUsch_held
    | with_reducible apply State.noteChange_held | with_reducible apply State.noteHalLevel_held
    | with_reducible apply State.putEntry_held | with_reducible apply State.putMasked_held
    | with_reducible apply State.raise_held | with_reducible apply State.segWrite_held
    | with_reducible apply State.setStreamPolicy_held | with_reducible apply State.tmcSubmit_held
    | with_reducible apply Held.foldl | split

theorem State.fnIgnored_held {s0 : State} (f : Nat) {s : State} (h : Held s0 s) :
    Held s0 (State.fnIgnored f s) := by
  unfold State.fnIgnored
  repeat' first | with_reducible exact h | with_reducible apply State.modFn_held

theorem State.modWin_held {s0 : State} (w : Window) (p : Nat) (f : IndWin → IndWin) {s : State} (h : Held s0 s) :
    Held s0 (State.modWin w p f s) := by
  unfold State.modWin
  repeat' first | with_reducible exact h | with_reducible apply State.modWins_held

theorem State.indirectPoint_held {s0 : State} (p : Nat) (off : Nat) (acc : Access) {s : State} (h : Held s0 s) :
    Held s0 (State.indirectPoint p off acc s) := by
  unfold State.indirectPoint
  repeat' first
    | with_reducible assumption | intro _ | with_reducible apply Held.ite | with_reducible apply State.guarded_held
    | with_reducible apply State.iff_held | with_reducible apply State.modWin_held
    | with_reducible apply State.putReg_held | with_reducible apply State.raise_held | with_reducible apply Held.foldl
    | split

theorem State.noteVote_held {s0 : State} (p : Nat) (off : Nat) (majority : Bool) {s : State} (h : Held s0 s) :
    Held s0 (State.noteVote p off majority s) := by
  unfold State.noteVote
  repeat' first
    | with_reducible exact h | with_reducible apply State.count_held | with_reducible apply State.iff_held
    | with_reducible apply State.raise_held | with_reducible apply State.setFld_held

theorem State.scrubSelector_held {s0 : State} {s : State} (c : Nat) (h : Held s0 s) :
    Held s0 (State.scrubSelector s c) := by
  unfold State.scrubSelector
  repeat' first
    | with_reducible assumption | intro _ | with_reducible apply Held.ite | with_reducible apply State.noteVote_held
    | with_reducible apply State.setSelector_held | with_reducible apply State.unitContain_held
    | with_reducible apply State.useFree_held

theorem State.winAdvance_held {s0 : State} (w : Window) (p : Nat) (width : Nat) {s : State} (h : Held s0 s) :
    Held s0 (State.winAdvance w p width s) := by
  unfold State.winAdvance
  repeat' first
    | with_reducible assumption | intro _ | with_reducible apply Held.ite | with_reducible apply State.setFld_held

theorem State.indirectRead_held {s0 : State} (w : Window) (p : Nat) {s : State} (h : Held s0 s) :
    Held s0 (State.indirectRead w p s) := by
  unfold State.indirectRead
  repeat' first
    | with_reducible assumption | intro _ | with_reducible apply Held.ite | with_reducible apply State.darkAccess_held
    | with_reducible apply State.iff_held | with_reducible apply State.modFreeIx_held
    | with_reducible apply State.modReadData_held | with_reducible apply State.modWin_held
    | with_reducible apply State.raise_held | with_reducible apply State.scrubSelector_held
    | with_reducible apply State.useFree_held | with_reducible apply State.winAdvance_held
    | with_reducible apply Held.foldl | split | exact Nat.le_add_right _ _ | with_reducible apply Held.id | dsimp only

theorem State.indirectStage_held {s0 : State} (w : Window) (p : Nat) (v : Word) {s : State} (h : Held s0 s) :
    Held s0 (State.indirectStage w p v s) := by
  unfold State.indirectStage
  repeat' first
    | with_reducible assumption | intro _ | with_reducible apply Held.ite
    | with_reducible apply State.commitEntry_held | with_reducible apply State.iff_held
    | with_reducible apply State.ignored_held | with_reducible apply State.modWin_held
    | with_reducible apply State.raise_held | with_reducible apply State.winAdvance_held
    | with_reducible apply Held.foldl | split

theorem State.indirectWrite_held {s0 : State} (p : Nat) (acc : Access) {s : State} (h : Held s0 s) :
    Held s0 (State.indirectWrite p acc s) := by
  unfold State.indirectWrite
  repeat' first
    | with_reducible assumption | intro _ | with_reducible apply Held.ite | with_reducible apply State.guarded_held
    | with_reducible apply State.ignored_held | with_reducible apply State.indirectStage_held

theorem State.latchRead_held {s0 : State} (value : Nat → Word) (p : Nat) (off : Nat) {s : State} (h : Held s0 s) :
    Held s0 (State.latchRead value p off s) := by
  unfold State.latchRead
  repeat' first
    | with_reducible assumption | intro _ | with_reducible apply Held.ite
    | with_reducible apply State.modReadData_held | with_reducible apply State.modRf_held
    | with_reducible apply Held.foldl | split | (refine (?_ : Sparse.wf _ _ = true); assumption)
    | exact Sparse.wf_filter _ _ _ (by assumption) | exact Sparse.wf_put _ _ _ _ (by assumption)
    | (refine (?_ : _ < counterMod _); apply_assumption) | with_reducible apply Held.id | dsimp only

theorem State.msixWrite_held {s0 : State} (f : Nat) (v : Nat) (w : Nat) (x : Word) {s : State} (h : Held s0 s) :
    Held s0 (State.msixWrite f v w x s) := by
  unfold State.msixWrite
  repeat' first
    | with_reducible exact h | with_reducible apply State.iff_held | with_reducible apply State.modHif_held
    | with_reducible apply State.sendPending_held

theorem State.putField_held {s0 : State} (p : Nat) (f : Fld) (v : Nat) {s : State} (h : Held s0 s) :
    Held s0 (State.putField p f v s) := by
  unfold State.putField
  repeat' first
    | with_reducible assumption | intro _ | with_reducible apply Held.ite | with_reducible apply State.modRf_held
    | with_reducible apply Held.foldl | split | (refine (?_ : Sparse.wf _ _ = true); assumption)
    | exact Sparse.wf_filter _ _ _ (by assumption) | exact Sparse.wf_put _ _ _ _ (by assumption)
    | (refine (?_ : _ < counterMod _); apply_assumption) | with_reducible apply Held.id | dsimp only

theorem State.windowRead_held {s0 : State} (f : Nat) (off : Nat) {s : State} (h : Held s0 s) :
    Held s0 (State.windowRead f off s) := by
  unfold State.windowRead
  repeat' first
    | with_reducible assumption | intro _ | with_reducible apply Held.ite | with_reducible apply State.latchRead_held
    | with_reducible apply State.modReadData_held | with_reducible apply State.useFree_held

theorem State.safeTaken_held {s0 : State} (p : Nat) (f : Fld) (a : Nat) (b : Nat) {s : State} (h : Held s0 s) :
    Held s0 (State.safeTaken p f a b s) := by
  unfold State.safeTaken
  repeat' first
    | with_reducible assumption | intro _ | with_reducible apply Held.ite | with_reducible apply State.putField_held
    | with_reducible apply State.quarantine_held | with_reducible apply State.refreshPolicy_held
    | with_reducible apply Held.foldl | split

theorem State.scrubField_held {s0 : State} (p : Nat) (safe : Nat) {s : State} (f : Fld) (h : Held s0 s) :
    Held s0 (State.scrubField p safe s f) := by
  unfold State.scrubField
  repeat' first
    | with_reducible assumption | intro _ | with_reducible apply Held.ite | with_reducible apply State.noteVote_held
    | with_reducible apply State.putField_held | with_reducible apply State.safeTaken_held

theorem State.scrubReg_held {s0 : State} (p : Nat) (off : Nat) {s : State} (h : Held s0 s) :
    Held s0 (State.scrubReg p off s) := by
  unfold State.scrubReg
  repeat' first
    | with_reducible assumption | intro _ | with_reducible apply Held.ite | with_reducible apply State.scrubField_held
    | with_reducible apply Held.foldl | split

theorem State.registerRead_held {s0 : State} (p : Nat) (off : Nat) {s : State} (h : Held s0 s) :
    Held s0 (State.registerRead p off s) := by
  unfold State.registerRead
  repeat' first
    | with_reducible assumption | intro _ | with_reducible apply Held.ite | with_reducible apply State.darkAccess_held
    | with_reducible apply State.indirectRead_held | with_reducible apply State.latchRead_held
    | with_reducible apply State.modReadData_held | with_reducible apply State.scrubReg_held
    | with_reducible apply State.windowRead_held

theorem State.ringCfgWrite_held {s0 : State} (f : Nat) (rx : Bool) (k : Nat) (v : Word) {s : State} (h : Held s0 s) :
    Held s0 (State.ringCfgWrite f rx k v s) := by
  unfold State.ringCfgWrite
  repeat' first
    | with_reducible assumption | intro _ | with_reducible apply Held.ite | with_reducible apply State.drainRing_held
    | with_reducible apply State.fnIgnored_held | with_reducible apply State.iff_held
    | with_reducible apply State.putReg_held | with_reducible apply State.ringRun_held

theorem State.windowWrite_held {s0 : State} (f : Nat) (off : Nat) (acc : Access) {s : State} (h : Held s0 s) :
    Held s0 (State.windowWrite f off acc s) := by
  unfold State.windowWrite
  repeat' first
    | with_reducible assumption | intro _ | with_reducible apply Held.ite | with_reducible apply State.eachBit_held
    | with_reducible apply State.fnIgnored_held | with_reducible apply State.iff_held
    | with_reducible apply State.modFn_held | with_reducible apply State.msixWrite_held
    | with_reducible apply State.ringCfgWrite_held | with_reducible apply State.ringRestart_held
    | with_reducible apply State.ringSkip_held | with_reducible apply State.ringTail_held
    | with_reducible apply State.stageWord_held | with_reducible apply Held.foldl | split
    | with_reducible apply AllHeld.nil | with_reducible apply AllHeld.cons | with_reducible apply AllHeld.map
    | with_reducible apply Held.id | dsimp only

theorem State.registerWrite_held {s0 : State} (p : Nat) (off : Nat) (acc : Access) {s : State} (h : Held s0 s) :
    Held s0 (State.registerWrite p off acc s) := by
  unfold State.registerWrite
  repeat' first
    | with_reducible assumption | intro _ | with_reducible apply Held.ite | with_reducible apply State.applyWrite_held
    | with_reducible apply State.guarded_held | with_reducible apply State.indirectPoint_held
    | with_reducible apply State.indirectWrite_held | with_reducible apply State.windowWrite_held
    | with_reducible apply Held.foldl | split

theorem State.scrubAll_held {s0 : State} {s : State} (h : Held s0 s) :
    Held s0 (State.scrubAll s) := by
  unfold State.scrubAll
  repeat' first
    | with_reducible assumption | intro _ | with_reducible apply Held.ite | with_reducible apply State.iff_held
    | with_reducible apply State.scrubReg_held | with_reducible apply State.scrubSelector_held
    | with_reducible apply Held.foldl | split

theorem execRegisterWrite_held {s0 : State} (page : Nat) (off : Nat) (acc : Access) (hi : Option (BitVec 4 × Word))
    {s : State} (h : Held s0 s) :
       ∀ out, execRegisterWrite page off acc hi s = .next out → Held s0 out := by
  intro out e; cases e
  repeat' first
    | with_reducible assumption | intro _ | with_reducible apply Held.ite
    | with_reducible apply State.registerWrite_held | with_reducible apply Held.foldl | split

theorem execDarkPageAccess_held {s0 : State} (page : Nat) (isWrite : Bool) {s : State} (h : Held s0 s) :
    ∀ out, execDarkPageAccess page isWrite s = .next out → Held s0 out := by
  intro out e; cases e
  repeat' first
    | with_reducible assumption | intro _ | with_reducible apply Held.ite | with_reducible apply State.darkAccess_held
    | with_reducible apply State.iff_held | with_reducible apply State.modReadData_held
    | with_reducible apply Held.foldl | split

theorem execLatchingRead_held {s0 : State} (page : Nat) (off : Nat) (wide : Bool) {s : State} (h : Held s0 s) :
    ∀ out, execLatchingRead page off wide s = .next out → Held s0 out := by
  intro out e; cases e
  repeat' first
    | with_reducible assumption | intro _ | with_reducible apply Held.ite
    | with_reducible apply State.modReadData_held | with_reducible apply State.modReadHigh_held
    | with_reducible apply State.registerRead_held | with_reducible apply Held.foldl | split
    | with_reducible apply Held.id | dsimp only

theorem execRwtVotedRead_held {s0 : State} (page : Nat) (off : Nat) {s : State} (h : Held s0 s) :
    ∀ out, execRwtVotedRead page off s = .next out → Held s0 out := by
  intro out e; cases e
  repeat' first
    | with_reducible exact h | with_reducible apply State.iff_held | with_reducible apply State.registerRead_held

theorem execSysDarkAccessClear_held {s0 : State} {s : State} (h : Held s0 s) :
    ∀ out, execSysDarkAccessClear s = .next out → Held s0 out := by
  intro out e; cases e
  repeat' first
    | with_reducible exact h | with_reducible apply State.darkClear_held | with_reducible apply State.guarded_held

theorem execCfgStatusClear_held {s0 : State} (page : Nat) {s : State} (h : Held s0 s) :
    ∀ out, execCfgStatusClear page s = .next out → Held s0 out := by
  intro out e; cases e
  repeat' first
    | with_reducible assumption | intro _ | with_reducible apply State.cfgClear_held
    | with_reducible apply State.guarded_held | with_reducible apply State.iff_held

theorem execTripleStatusClear_held {s0 : State} (page : Nat) {s : State} (h : Held s0 s) :
    ∀ out, execTripleStatusClear page s = .next out → Held s0 out := by
  intro out e; cases e
  repeat' first
    | with_reducible assumption | intro _ | with_reducible apply State.guarded_held
    | with_reducible apply State.iff_held | with_reducible apply State.tripleClear_held

theorem execSoftReset_held {s0 : State} (page : Nat) {s : State} (h : Held s0 s) :
    ∀ out, execSoftReset page s = .next out → Held s0 out := by
  intro out e; cases e
  repeat' first
    | with_reducible assumption | intro _ | with_reducible apply State.guarded_held
    | with_reducible apply State.iff_held | with_reducible apply State.softReset_held

theorem execSoftResetComplete_held {s0 : State} (page : Nat) {s : State} (h : Held s0 s) :
    ∀ out, execSoftResetComplete page s = .next out → Held s0 out := by
  intro out e; cases e
  repeat' first
    | with_reducible exact h | with_reducible apply State.iff_held | with_reducible apply State.setFld_held

theorem execPennantEvent_held {s0 : State} (page : Nat) (bit : Nat) {s : State} (h : Held s0 s) :
    ∀ out, execPennantEvent page bit s = .next out → Held s0 out := by
  intro out e; cases e
  repeat' first | with_reducible exact h | with_reducible apply State.iff_held | with_reducible apply State.raise_held

theorem execPennantAdvance_held {s0 : State} (page : Nat) {s : State} (h : Held s0 s) :
    ∀ out, execPennantAdvance page s = .next out → Held s0 out := by
  intro out e; cases e
  repeat' first
    | with_reducible exact h | with_reducible apply State.iff_held | with_reducible apply State.pennantHoldEnd_held

theorem execPennantClear_held {s0 : State} (page : Nat) (v : Word) {s : State} (h : Held s0 s) :
    ∀ out, execPennantClear page v s = .next out → Held s0 out := by
  intro out e; cases e
  repeat' first
    | with_reducible assumption | intro _ | with_reducible apply State.guarded_held
    | with_reducible apply State.iff_held | with_reducible apply State.pennantClear_held

theorem execPennantMaskWrite_held {s0 : State} (page : Nat) (acc : Access) {s : State} (h : Held s0 s) :
    ∀ out, execPennantMaskWrite page acc s = .next out → Held s0 out := by
  intro out e; cases e
  repeat' first
    | with_reducible assumption | intro _ | with_reducible apply State.guarded_held
    | with_reducible apply State.iff_held | with_reducible apply State.maskWrite_held

theorem execTripleScrub_held {s0 : State} {s : State} (h : Held s0 s) :
    ∀ out, execTripleScrub s = .next out → Held s0 out := by
  intro out e; cases e
  repeat' first | with_reducible exact h | with_reducible apply State.scrubAll_held

theorem execIndirectDataWrite_held {s0 : State} (win : Window) (page : Nat) (v : Word) {s : State} (h : Held s0 s) :
    ∀ out, execIndirectDataWrite win page v s = .next out → Held s0 out := by
  intro out e; cases e
  repeat' first
    | with_reducible exact h | with_reducible apply State.iff_held | with_reducible apply State.indirectWrite_held

theorem execIndirectDataRead_held {s0 : State} (win : Window) (page : Nat) {s : State} (h : Held s0 s) :
    ∀ out, execIndirectDataRead win page s = .next out → Held s0 out := by
  intro out e; cases e
  repeat' first
    | with_reducible exact h | with_reducible apply State.iff_held | with_reducible apply State.indirectRead_held

theorem execIndirectAddrWrite_held {s0 : State} (win : Window) (page : Nat) (ctrl : Bool) (acc : Access) {s : State}
    (h : Held s0 s) :
       ∀ out, execIndirectAddrWrite win page ctrl acc s = .next out → Held s0 out := by
  intro out e; cases e
  repeat' first
    | with_reducible exact h | with_reducible apply State.iff_held | with_reducible apply State.indirectPoint_held

end Sys2Proof.Machine
end

