-- ==== Sys2Proof/Laws/KeptCommands.lean ====
section
/-! SUPPORT. What every operation keeps (Laws/Held.lean): the commands of the remaining families. -/

namespace Sys2Proof.Machine

theorem State.acceptClaim_held {s0 : State} (t : Tree) (x : TmcMsg) {s : State} (h : Held s0 s) :
    Held s0 (State.acceptClaim t x s).1 := by
  unfold State.acceptClaim
  repeat' first
    | with_reducible assumption | intro _ | with_reducible apply Held.ite | with_reducible apply Held.ite_fst
    | with_reducible apply State.clkJudge_held | with_reducible apply State.count_held
    | with_reducible apply State.dualJudge_held | with_reducible apply State.putClaim_held
    | with_reducible apply State.raise_held

theorem State.adjust_held {s0 : State} (t : Tree) (fc : Nat) (x : TmcMsg) {s : State} (h : Held s0 s) :
    Held s0 (State.adjust t fc x s).1 := by
  unfold State.adjust
  repeat' first
    | with_reducible assumption | intro _ | with_reducible apply Held.ite | with_reducible apply Held.ite_fst
    | with_reducible apply State.betweenBursts_held | with_reducible apply State.iff_held
    | with_reducible apply State.noteHalLevel_held | with_reducible apply State.noteLaunch_held
    | with_reducible apply State.reportFreq_held | with_reducible apply State.setEqdPending_held
    | with_reducible apply State.setSFld_held

theorem State.refuseAlloc_held {s0 : State} (t : Tree) (code : Nat) {s : State} (h : Held s0 s) :
    Held s0 (State.refuseAlloc t code s).1 := by
  unfold State.refuseAlloc
  repeat' first
    | with_reducible exact h | with_reducible apply State.count_held | with_reducible apply State.raise_held

theorem State.assignAlloc_held {s0 : State} (a1 : Tree) (a2 : TmcMsg) {s : State} (h : Held s0 s) :
    Held s0 (State.assignAlloc a1 a2 s).1 := by
  unfold State.assignAlloc
  dsimp only
  split
  · exact State.refuseAlloc_held _ _ h
  · split
    · exact Held.ite_fst h (State.refuseAlloc_held _ _ h)
    · split
      · exact State.refuseAlloc_held _ _ h
      · exact Held.ite_fst (State.refuseAlloc_held _ _ h) (State.bindAlloc_held _ _ _ _ _ _ h)

theorem State.controlFrame_held {s0 : State} (r : Rx) {s : State} (h : Held s0 s) :
    Held s0 (State.controlFrame r s) := by
  unfold State.controlFrame
  repeat' first
    | with_reducible exact h | with_reducible apply State.frontFrame_held | with_reducible apply State.iff_held

theorem State.grantEntered_held {s0 : State} (t : Tree) (i : Nat) {s : State} (h : Held s0 s) :
    Held s0 (State.grantEntered t i s) := by
  unfold State.grantEntered
  repeat' first
    | with_reducible exact h | with_reducible apply State.halGrantAccepted_held
    | with_reducible apply State.modTxs_held | with_reducible apply State.wakeDomain_held

theorem State.handLine_held {s0 : State} (r : Rx) (tenant : Nat) (service : Nat) (bytes : Bytes) (cells : List Nat)
    {s : State} (h : Held s0 s) :
       Held s0 (State.handLine r tenant service bytes cells s) := by
  unfold State.handLine
  repeat' first
    | with_reducible exact h | with_reducible apply State.modCls_held | with_reducible apply State.modSto_held
    | with_reducible apply State.returnCells_held

theorem State.joinFragment_held {s0 : State} (f : LineFrag) (pt : Option Bytes) {s : State} (h : Held s0 s) :
    Held s0 (State.joinFragment f pt s) := by
  unfold State.joinFragment
  repeat' first
    | with_reducible assumption | intro _ | with_reducible apply Held.ite | with_reducible apply State.clearParts_held
    | with_reducible apply State.dropPlain_held | with_reducible apply State.freeLine_held
    | with_reducible apply State.handLine_held | with_reducible apply State.iff_held
    | with_reducible apply State.modDual_held | with_reducible apply State.returnCells_held
    | with_reducible apply Held.foldl | split

theorem State.keyConfirm_held {s0 : State} (t : Tree) (fc : Nat) (x : TmcMsg) {s : State} (h : Held s0 s) :
    Held s0 (State.keyConfirm t fc x s).1 := by
  unfold State.keyConfirm
  repeat' first
    | with_reducible assumption | intro _ | with_reducible apply Held.ite | with_reducible apply Held.ite_fst
    | with_reducible apply State.modActs_held | with_reducible apply State.putMgmtKey_held
    | with_reducible apply State.setFld_held | with_reducible apply Held.foldl | split

theorem State.keyInit_held {s0 : State} (t : Tree) (b : Bytes) {s : State} (h : Held s0 s) :
    Held s0 (State.keyInit t b s).1 := by
  unfold State.keyInit
  repeat' first
    | with_reducible assumption | intro _ | with_reducible apply Held.ite | with_reducible apply Held.ite_fst
    | with_reducible apply State.modActs_held | with_reducible apply State.putMgmtKey_held
    | with_reducible apply State.randomBytes_held

theorem State.park_held {s0 : State} (t : Tree) (x : TmcMsg) {s : State} (h : Held s0 s) :
    Held s0 (State.park t x s).1 := by
  unfold State.park
  repeat' first
    | with_reducible assumption | intro _ | with_reducible apply Held.ite | with_reducible apply Held.ite_fst
    | with_reducible apply State.setFld_held | with_reducible apply State.setMode_held

theorem State.protectTenant_held {s0 : State} (n : Nat) (dup : Nat) (sel : Nat) {s : State} (h : Held s0 s) :
    Held s0 (State.protectTenant n dup sel s) := by
  unfold State.protectTenant
  repeat' first
    | with_reducible assumption | intro _ | with_reducible apply Held.ite
    | with_reducible apply State.setStreamPolicy_held | with_reducible apply Held.foldl | split

theorem State.provision_held {s0 : State} (t : Tree) (x : TmcMsg) {s : State} (h : Held s0 s) :
    Held s0 (State.provision t x s).1 := by
  unfold State.provision
  repeat' first
    | with_reducible assumption | intro _ | with_reducible apply Held.ite | with_reducible apply Held.ite_fst
    | with_reducible apply State.attachTenant_held | with_reducible apply State.count_held
    | with_reducible apply State.raise_held | with_reducible apply Held.foldl | split

theorem State.rangeConfirm_held {s0 : State} (t : Tree) (fc : Nat) (x : TmcMsg) {s : State} (h : Held s0 s) :
    Held s0 (State.rangeConfirm t fc x s).1 := by
  unfold State.rangeConfirm
  repeat' first
    | with_reducible assumption | intro _ | with_reducible apply Held.ite | with_reducible apply Held.ite_fst
    | with_reducible apply State.betweenBursts_held | with_reducible apply State.modActs_held
    | with_reducible apply State.modTxs_held | with_reducible apply State.reportFreq_held
    | with_reducible apply State.setEqdPending_held

theorem State.registerRecord_held {s0 : State} (t : Tree) (term : Nat) (wl : Nat) (mgmt : Nat) {s : State} (h : Held
    s0 s) :
       Held s0 (State.registerRecord t term wl mgmt s) := by
  unfold State.registerRecord
  repeat' first | with_reducible exact h | with_reducible apply State.setRecord_held

theorem State.register_held {s0 : State} (t : Tree) (fc : Nat) (x : TmcMsg) {s : State} (h : Held s0 s) :
    Held s0 (State.register t fc x s).1 := by
  unfold State.register
  repeat' first
    | with_reducible assumption | intro _ | with_reducible apply Held.ite | with_reducible apply Held.ite_fst
    | with_reducible apply State.bindAlloc_held | with_reducible apply State.count_held
    | with_reducible apply State.raise_held | with_reducible apply State.registerRecord_held
    | with_reducible apply State.setEqdPending_held | with_reducible apply State.setFld_held
    | with_reducible apply State.setMode_held | with_reducible apply Held.foldl | split

theorem State.samplePins_held {s0 : State} {s : State} (h : Held s0 s) : Held s0 (State.samplePins s).2 := by
  unfold State.samplePins
  exact Held.foldl_snd (fun x _ hx => State.useFree_held hx) _ h

theorem State.selectGrant_held {s0 : State} (t : Tree) (i : Nat) {s : State} (h : Held s0 s) :
    Held s0 (State.selectGrant t i s) := by
  unfold State.selectGrant
  repeat' first
    | with_reducible assumption | intro _ | with_reducible apply Held.ite | with_reducible apply State.count_held
    | with_reducible apply State.iff_held | with_reducible apply State.judgeLaunch_held
    | with_reducible apply State.raiseMs_held | with_reducible apply State.removeGrant_held
    | with_reducible apply State.selectContent_held | with_reducible apply State.suppressLate_held
    | with_reducible apply Held.foldl | split | with_reducible apply Held.id | dsimp only

theorem State.sendConflict_held {s0 : State} (t : Tree) {s : State} (h : Held s0 s) :
    Held s0 (State.sendConflict t s) := by
  unfold State.sendConflict
  repeat' first
    | with_reducible assumption | intro _ | with_reducible apply Held.ite | with_reducible apply State.modActs_held
    | with_reducible apply State.modDual_held | with_reducible apply State.tmcRequest_held
    | with_reducible apply Held.foldl | split

theorem State.setTap_held {s0 : State} (instr : Nat) (dr : Word) {s : State} (h : Held s0 s) :
    Held s0 (State.setTap instr dr s) := by
  unfold State.setTap
  repeat' first | with_reducible exact h | with_reducible apply State.modTap_held

theorem State.tapHold_held {s0 : State} {s : State} (h : Held s0 s) :
    Held s0 (State.tapHold s) := by
  unfold State.tapHold
  repeat' first
    | with_reducible assumption | intro _ | with_reducible apply Held.ite
    | with_reducible apply State.holdRegions_held | with_reducible apply State.modClk_held

theorem State.tapRelease_held {s0 : State} {s : State} (h : Held s0 s) :
    Held s0 (State.tapRelease s) := by
  unfold State.tapRelease
  repeat' first
    | with_reducible assumption | intro _ | with_reducible apply Held.ite | with_reducible apply State.modClk_held
    | with_reducible apply State.railsBack_held

theorem State.tenantKey_held {s0 : State} (t : Tree) (fc : Nat) (x : TmcMsg) {s : State} (h : Held s0 s) :
    Held s0 (State.tenantKey t fc x s).1 := by
  unfold State.tenantKey
  repeat' first
    | with_reducible assumption | intro _ | with_reducible apply Held.ite | with_reducible apply Held.ite_fst
    | with_reducible apply State.dropSlot_held | with_reducible apply State.putEntry_held
    | with_reducible apply Held.foldl | split

theorem State.wakeFrame_held {s0 : State} (r : Rx) {s : State} (h : Held s0 s) :
    Held s0 (State.wakeFrame r s) := by
  unfold State.wakeFrame
  repeat' first
    | with_reducible exact h | with_reducible apply State.iff_held | with_reducible apply State.setMode_held

theorem execFrmEnable_held {s0 : State} (r : Rx) {s : State} (h : Held s0 s) :
    ∀ out, execFrmEnable r s = .next out → Held s0 out := by
  intro out e; cases e
  repeat' first
    | with_reducible assumption | intro _ | with_reducible apply State.frmStart_held
    | with_reducible apply State.lineDo_held | with_reducible apply State.pageOn_held

theorem execFrmDisable_held {s0 : State} (r : Rx) {s : State} (h : Held s0 s) :
    ∀ out, execFrmDisable r s = .next out → Held s0 out := by
  intro out e; cases e
  repeat' first
    | with_reducible assumption | intro _ | with_reducible apply State.frmStop_held
    | with_reducible apply State.lineDo_held | with_reducible apply State.pageOff_held

theorem execAlignCodeword_held {s0 : State} (r : Rx) (bits : List Bool) {s : State} (h : Held s0 s) :
    ∀ out, execAlignCodeword r bits s = .next out → Held s0 out := by
  intro out e; cases e
  repeat' first
    | with_reducible assumption | intro _ | with_reducible apply State.alignStep_held
    | with_reducible apply State.iff_held | with_reducible apply State.lineDo_held

theorem execFrameHeader_held {s0 : State} (r : Rx) {s : State} (h : Held s0 s) :
    ∀ out, execFrameHeader r s = .next out → Held s0 out := by
  intro out e; cases e
  repeat' first
    | with_reducible assumption | intro _ | with_reducible apply State.controlFrame_held
    | with_reducible apply State.headerStep_held | with_reducible apply State.iff_held
    | with_reducible apply State.lineDo_held | with_reducible apply State.wakeFrame_held

theorem execGrantEntry_held {s0 : State} (r : Rx) (bytes : Bytes) {s : State} (h : Held s0 s) :
    ∀ out, execGrantEntry r bytes s = .next out → Held s0 out := by
  intro out e; cases e
  repeat' first
    | with_reducible assumption | intro _ | with_reducible apply Held.ite | with_reducible apply State.count_held
    | with_reducible apply State.grantEntered_held | with_reducible apply State.grantReceive_held
    | with_reducible apply State.modFrms_held | with_reducible apply State.raiseMs_held
    | with_reducible apply Held.foldl | split | (with_reducible refine Held.of_fst ?_ (by assumption))
    | with_reducible apply Held.id | dsimp only

theorem execFragmentHeader_held {s0 : State} (r : Rx) (pos : Nat) (bytes : Bytes) {s : State} (h : Held s0 s) :
    ∀ out, execFragmentHeader r pos bytes s = .next out → Held s0 out := by
  intro out e; cases e
  repeat' first
    | with_reducible assumption | intro _ | with_reducible apply State.fragStep_held
    | with_reducible apply State.iff_held | with_reducible apply State.lineDo_held

theorem execFragmentReceive_held {s0 : State} (r : Rx) (payload : Bytes) {s : State} (h : Held s0 s) :
    ∀ out, execFragmentReceive r payload s = .next out → Held s0 out := by
  intro out e; cases e
  repeat' first
    | with_reducible assumption | intro _ | with_reducible apply Held.ite
    | with_reducible apply State.fragReceive_held | with_reducible apply State.noteTmc_held
    | with_reducible apply State.receiveLine_held | with_reducible apply State.tmcRing_held
    | with_reducible apply Held.foldl | split | (with_reducible refine Held.of_fst ?_ (by assumption))
    | with_reducible apply Held.id | dsimp only

theorem execLosClear_held {s0 : State} (r : Rx) {s : State} (h : Held s0 s) :
    ∀ out, execLosClear r s = .next out → Held s0 out := by
  intro out e; cases e
  repeat' first
    | with_reducible assumption | intro _ | with_reducible apply State.iff_held
    | with_reducible apply State.lineDo_held | with_reducible apply State.modFrms_held
    | with_reducible apply State.raise_held | with_reducible apply State.setFld_held

theorem execLofDeclare_held {s0 : State} (r : Rx) {s : State} (h : Held s0 s) :
    ∀ out, execLofDeclare r s = .next out → Held s0 out := by
  intro out e; cases e
  repeat' first
    | with_reducible assumption | intro _ | with_reducible apply State.iff_held
    | with_reducible apply State.lineDo_held | with_reducible apply State.lofDeclare_held

theorem execLofClear_held {s0 : State} (r : Rx) {s : State} (h : Held s0 s) :
    ∀ out, execLofClear r s = .next out → Held s0 out := by
  intro out e; cases e
  repeat' first
    | with_reducible assumption | intro _ | with_reducible apply State.iff_held
    | with_reducible apply State.lineDo_held | with_reducible apply State.raise_held
    | with_reducible apply State.setFld_held

theorem execDefectWindowEnd_held {s0 : State} (r : Rx) {s : State} (h : Held s0 s) :
    ∀ out, execDefectWindowEnd r s = .next out → Held s0 out := by
  intro out e; cases e
  repeat' first
    | with_reducible assumption | intro _ | with_reducible apply State.iff_held
    | with_reducible apply State.lineDo_held | with_reducible apply State.windowBoundary_held

theorem execPmSecond_held {s0 : State} (r : Rx) {s : State} (h : Held s0 s) :
    ∀ out, execPmSecond r s = .next out → Held s0 out := by
  intro out e; cases e
  repeat' first
    | with_reducible exact h | with_reducible apply State.iff_held | with_reducible apply State.pmSecond_held

theorem execPmBinEdge_held {s0 : State} (day : Bool) {s : State} (h : Held s0 s) :
    ∀ out, execPmBinEdge day s = .next out → Held s0 out := by
  intro out e; cases e
  repeat' first
    | with_reducible exact h | with_reducible apply State.iff_held | with_reducible apply State.pmBinEdge_held

theorem execPmBinFinal_held {s0 : State} (r : Rx) (day : Bool) (slot : Nat) {s : State} (h : Held s0 s) :
    ∀ out, execPmBinFinal r day slot s = .next out → Held s0 out := by
  intro out e; cases e
  repeat' first
    | with_reducible exact h | with_reducible apply State.iff_held | with_reducible apply State.pmFinal_held

theorem execPmDisable_held {s0 : State} {s : State} (h : Held s0 s) :
    ∀ out, execPmDisable s = .next out → Held s0 out := by
  intro out e; cases e
  repeat' first
    | with_reducible exact h | with_reducible apply State.pageOff_held | with_reducible apply State.pmMarkAll_held

theorem execRegister_held {s0 : State} (t : Tree) (m : TmcIn) {s : State} (h : Held s0 s) :
    ∀ out, execRegister t m s = .next out → Held s0 out := by
  intro out e; cases e
  repeat' first
    | with_reducible assumption | intro _ | with_reducible apply State.register_held
    | with_reducible apply State.tmcKind_held

theorem execRangeConfirm_held {s0 : State} (t : Tree) (m : TmcIn) {s : State} (h : Held s0 s) :
    ∀ out, execRangeConfirm t m s = .next out → Held s0 out := by
  intro out e; cases e
  repeat' first
    | with_reducible assumption | intro _ | with_reducible apply State.rangeConfirm_held
    | with_reducible apply State.tmcKind_held

theorem execAdjust_held {s0 : State} (t : Tree) (m : TmcIn) {s : State} (h : Held s0 s) :
    ∀ out, execAdjust t m s = .next out → Held s0 out := by
  intro out e; cases e
  repeat' first
    | with_reducible assumption | intro _ | with_reducible apply State.adjust_held
    | with_reducible apply State.tmcKind_held

theorem execDeactivate_held {s0 : State} (t : Tree) (m : TmcIn) {s : State} (h : Held s0 s) :
    ∀ out, execDeactivate t m s = .next out → Held s0 out := by
  intro out e; cases e
  repeat' first
    | with_reducible assumption | intro _ | with_reducible apply State.setMode_held
    | with_reducible apply State.tmcKind_held

theorem execDisable_held {s0 : State} (t : Tree) (m : TmcIn) {s : State} (h : Held s0 s) :
    ∀ out, execDisable t m s = .next out → Held s0 out := by
  intro out e; cases e
  repeat' first
    | with_reducible assumption | intro _ | with_reducible apply Held.ite | with_reducible apply State.quarantine_held
    | with_reducible apply State.tmcKind_held | with_reducible apply Held.foldl | split

theorem execEnable_held {s0 : State} (t : Tree) (m : TmcIn) {s : State} (h : Held s0 s) :
    ∀ out, execEnable t m s = .next out → Held s0 out := by
  intro out e; cases e
  repeat' first
    | with_reducible assumption | intro _ | with_reducible apply Held.ite
    | with_reducible apply State.leaveQuarantine_held | with_reducible apply State.tmcKind_held
    | with_reducible apply Held.foldl | split

theorem execPark_held {s0 : State} (t : Tree) (m : TmcIn) {s : State} (h : Held s0 s) :
    ∀ out, execPark t m s = .next out → Held s0 out := by
  intro out e; cases e
  repeat' first
    | with_reducible exact h | with_reducible apply State.park_held | with_reducible apply State.tmcKind_held

theorem execStatusRequest_held {s0 : State} (t : Tree) (m : TmcIn) {s : State} (h : Held s0 s) :
    ∀ out, execStatusRequest t m s = .next out → Held s0 out := by
  intro out e; cases e
  repeat' first | with_reducible assumption | intro _ | with_reducible apply State.tmcKind_held

theorem execTenantProvision_held {s0 : State} (t : Tree) (m : TmcIn) {s : State} (h : Held s0 s) :
    ∀ out, execTenantProvision t m s = .next out → Held s0 out := by
  intro out e; cases e
  repeat' first
    | with_reducible exact h | with_reducible apply State.provision_held | with_reducible apply State.tmcKind_held

theorem execTenantRemove_held {s0 : State} (t : Tree) (m : TmcIn) {s : State} (h : Held s0 s) :
    ∀ out, execTenantRemove t m s = .next out → Held s0 out := by
  intro out e; cases e
  repeat' first
    | with_reducible assumption | intro _ | with_reducible apply Held.ite
    | with_reducible apply State.detachTenant_held | with_reducible apply State.tmcKind_held
    | with_reducible apply Held.foldl | split

theorem execAllocAssign_held {s0 : State} (t : Tree) (m : TmcIn) {s : State} (h : Held s0 s) :
    ∀ out, execAllocAssign t m s = .next out → Held s0 out := by
  intro out e; cases e
  repeat' first
    | with_reducible exact h | with_reducible apply State.assignAlloc_held | with_reducible apply State.tmcKind_held

theorem execAllocRelease_held {s0 : State} (t : Tree) (m : TmcIn) {s : State} (h : Held s0 s) :
    ∀ out, execAllocRelease t m s = .next out → Held s0 out := by
  intro out e; cases e
  repeat' first
    | with_reducible assumption | intro _ | with_reducible apply Held.ite
    | with_reducible apply State.releaseAlloc_held | with_reducible apply State.tmcKind_held
    | with_reducible apply Held.foldl | split

theorem execTmcUnknownType_held {s0 : State} (t : Tree) (m : TmcIn) {s : State} (h : Held s0 s) :
    ∀ out, execTmcUnknownType t m s = .next out → Held s0 out := by
  intro out e; cases e
  repeat' first
    | with_reducible assumption | intro _ | with_reducible apply State.iff_held
    | with_reducible apply State.tmcReceive_held

theorem execTmcHeadEndResponse_held {s0 : State} (t : Tree) (m : TmcIn) {s : State} (h : Held s0 s) :
    ∀ out, execTmcHeadEndResponse t m s = .next out → Held s0 out := by
  intro out e; cases e
  repeat' first
    | with_reducible assumption | intro _ | with_reducible apply Held.ite | with_reducible apply State.ackNotice_held
    | with_reducible apply State.count_held | with_reducible apply State.iff_held
    | with_reducible apply State.modActs_held | with_reducible apply State.tmcTake_held

theorem execPrimaryClaim_held {s0 : State} (t : Tree) (m : TmcIn) {s : State} (h : Held s0 s) :
    ∀ out, execPrimaryClaim t m s = .next out → Held s0 out := by
  intro out e; cases e
  repeat' first
    | with_reducible exact h | with_reducible apply State.acceptClaim_held | with_reducible apply State.tmcKind_held

theorem execProtectSet_held {s0 : State} (t : Tree) (m : TmcIn) {s : State} (h : Held s0 s) :
    ∀ out, execProtectSet t m s = .next out → Held s0 out := by
  intro out e; cases e
  repeat' first
    | with_reducible assumption | intro _ | with_reducible apply Held.ite
    | with_reducible apply State.protectTenant_held | with_reducible apply State.raise_held
    | with_reducible apply State.tmcKind_held | with_reducible apply Held.foldl | split

theorem execKeyInit_held {s0 : State} (t : Tree) (m : TmcIn) {s : State} (h : Held s0 s) :
    ∀ out, execKeyInit t m s = .next out → Held s0 out := by
  intro out e; cases e
  repeat' first
    | with_reducible assumption | intro _ | with_reducible apply State.keyInit_held
    | with_reducible apply State.tmcKind_held

theorem execKeyConfirm_held {s0 : State} (t : Tree) (m : TmcIn) {s : State} (h : Held s0 s) :
    ∀ out, execKeyConfirm t m s = .next out → Held s0 out := by
  intro out e; cases e
  repeat' first
    | with_reducible assumption | intro _ | with_reducible apply State.keyConfirm_held
    | with_reducible apply State.tmcKind_held

theorem execTenantKey_held {s0 : State} (t : Tree) (m : TmcIn) {s : State} (h : Held s0 s) :
    ∀ out, execTenantKey t m s = .next out → Held s0 out := by
  intro out e; cases e
  repeat' first
    | with_reducible assumption | intro _ | with_reducible apply State.tenantKey_held
    | with_reducible apply State.tmcKind_held

theorem execTimeBind_held {s0 : State} (t : Tree) (m : TmcIn) {s : State} (h : Held s0 s) :
    ∀ out, execTimeBind t m s = .next out → Held s0 out := by
  intro out e; cases e
  repeat' first
    | with_reducible assumption | intro _ | with_reducible apply Held.ite | with_reducible apply State.count_held
    | with_reducible apply State.modFront_held | with_reducible apply State.raise_held
    | with_reducible apply State.tmcKind_held | with_reducible apply Held.foldl | split | with_reducible apply Held.id
    | dsimp only

theorem execTimeQuality_held {s0 : State} (t : Tree) (m : TmcIn) {s : State} (h : Held s0 s) :
    ∀ out, execTimeQuality t m s = .next out → Held s0 out := by
  intro out e; cases e
  repeat' first
    | with_reducible assumption | intro _ | with_reducible apply State.putEntry_held
    | with_reducible apply State.tmcKind_held

theorem execUpstreamNeed_held {s0 : State} (t : Tree) {s : State} (h : Held s0 s) :
    ∀ out, execUpstreamNeed t s = .next out → Held s0 out := by
  intro out e; cases e
  repeat' first
    | with_reducible assumption | intro _ | with_reducible apply Held.ite | with_reducible apply State.iff_held
    | with_reducible apply State.raise_held | with_reducible apply State.setMode_held
    | with_reducible apply State.setNeed_held | with_reducible apply State.wakeRequest_held

theorem execDualDisable_held {s0 : State} {s : State} (h : Held s0 s) :
    ∀ out, execDualDisable s = .next out → Held s0 out := by
  intro out e; cases e
  repeat' first
    | with_reducible assumption | intro _ | with_reducible apply Held.ite | with_reducible apply State.pageOff_held
    | with_reducible apply Held.foldl | split | with_reducible apply Held.id | dsimp only

theorem execMergeFragment_held {s0 : State} (r : Rx) {s : State} (h : Held s0 s) :
    ∀ out, execMergeFragment r s = .next out → Held s0 out := by
  intro out e; cases e
  repeat' first
    | with_reducible assumption | intro _ | with_reducible apply Held.ite | with_reducible apply State.count_held
    | with_reducible apply State.merge_held | with_reducible apply State.passLine_held
    | with_reducible apply Held.foldl | split

theorem execDualUnprotected_held {s0 : State} (r : Rx) {s : State} (h : Held s0 s) :
    ∀ out, execDualUnprotected r s = .next out → Held s0 out := by
  intro out e; cases e
  repeat' first
    | with_reducible assumption | intro _ | with_reducible apply Held.ite | with_reducible apply State.count_held
    | with_reducible apply State.passLine_held | with_reducible apply State.unprotected_held
    | with_reducible apply Held.foldl | split

theorem execDualBreakMarker_held {s0 : State} (r : Rx) {s : State} (h : Held s0 s) :
    ∀ out, execDualBreakMarker r s = .next out → Held s0 out := by
  intro out e; cases e
  repeat' first
    | with_reducible assumption | intro _ | with_reducible apply Held.ite
    | with_reducible apply State.breakMarker_held | with_reducible apply State.modDual_held
    | with_reducible apply Held.foldl | split

theorem execMergeIdleReset_held {s0 : State} (stream : Nat) {s : State} (h : Held s0 s) :
    ∀ out, execMergeIdleReset stream s = .next out → Held s0 out := by
  intro out e; cases e
  repeat' first
    | with_reducible exact h | with_reducible apply State.dropMerge_held | with_reducible apply State.iff_held

theorem execDualFlush_held {s0 : State} {s : State} (h : Held s0 s) :
    ∀ out, execDualFlush s = .next out → Held s0 out := by
  intro out e; cases e
  repeat' first
    | with_reducible exact h | with_reducible apply State.flushMerge_held | with_reducible apply State.guarded_held

theorem execDualSkewUpdate_held {s0 : State} {s : State} (h : Held s0 s) :
    ∀ out, execDualSkewUpdate s = .next out → Held s0 out := by
  intro out e; cases e
  repeat' first
    | with_reducible exact h | with_reducible apply State.iff_held | with_reducible apply State.skewUpdate_held

theorem execCopyWithdraw_held {s0 : State} (t : Tree) {s : State} (h : Held s0 s) :
    ∀ out, execCopyWithdraw t s = .next out → Held s0 out := by
  intro out e; cases e
  repeat' first | with_reducible exact h | with_reducible apply State.withdrawCopies_held

theorem execSelWtrExpire_held {s0 : State} {s : State} (h : Held s0 s) :
    ∀ out, execSelWtrExpire s = .next out → Held s0 out := by
  intro out e; cases e
  repeat' first | with_reducible exact h | with_reducible apply State.selRestore_held

theorem execClaimConflictSend_held {s0 : State} {s : State} (h : Held s0 s) :
    ∀ out, execClaimConflictSend s = .next out → Held s0 out := by
  intro out e; cases e
  repeat' first | with_reducible exact h | with_reducible apply State.sendConflict_held

theorem execGrtDisable_held {s0 : State} (t : Tree) {s : State} (h : Held s0 s) :
    ∀ out, execGrtDisable t s = .next out → Held s0 out := by
  intro out e; cases e
  repeat' first
    | with_reducible exact h | with_reducible apply State.pageOff_held
    | with_reducible apply State.suppressWaiting_held

theorem execGrantSelect_held {s0 : State} (t : Tree) {s : State} (h : Held s0 s) :
    ∀ out, execGrantSelect t s = .next out → Held s0 out := by
  intro out e; cases e
  repeat' first
    | with_reducible assumption | intro _ | with_reducible apply Held.ite | with_reducible apply State.iff_held
    | with_reducible apply State.selectGrant_held | with_reducible apply Held.foldl | split

theorem execSchedTick_held {s0 : State} {s : State} (h : Held s0 s) :
    ∀ out, execSchedTick s = .next out → Held s0 out := by
  intro out e; cases e
  repeat' first
    | with_reducible assumption | intro _ | with_reducible apply State.iff_held
    | with_reducible apply State.schedTick_held | with_reducible apply State.showTick_held
    | with_reducible apply State.tickTake_held

theorem execUschAgeSweep_held {s0 : State} {s : State} (h : Held s0 s) :
    ∀ out, execUschAgeSweep s = .next out → Held s0 out := by
  intro out e; cases e
  repeat' first
    | with_reducible assumption | intro _ | with_reducible apply Held.ite | with_reducible apply State.examine_held
    | with_reducible apply Held.foldl | split

theorem execUschDisable_held {s0 : State} {s : State} (h : Held s0 s) :
    ∀ out, execUschDisable s = .next out → Held s0 out := by
  intro out e; cases e
  repeat' first
    | with_reducible assumption | intro _ | with_reducible apply Held.ite | with_reducible apply State.pageOff_held
    | with_reducible apply Held.foldl | split | with_reducible apply Held.id | dsimp only

theorem execTmcSendSubmit_held {s0 : State} (t : Tree) (entry : Nat) (len : Nat) (cls : Nat) (addr : Nat) {s :
    State} (h : Held s0 s) :
       ∀ out, execTmcSendSubmit t entry len cls addr s = .next out → Held s0 out := by
  intro out e; cases e
  repeat' first
    | with_reducible exact h | with_reducible apply State.iff_held | with_reducible apply State.tmcSubmit_held

theorem execBulkDrawBack_held {s0 : State} (q : Nat) {s : State} (h : Held s0 s) :
    ∀ out, execBulkDrawBack q s = .next out → Held s0 out := by
  intro out e; cases e
  repeat' first
    | with_reducible exact h | with_reducible apply State.backlogStep_held | with_reducible apply State.drawBack_held

theorem execPolDisable_held {s0 : State} {s : State} (h : Held s0 s) :
    ∀ out, execPolDisable s = .next out → Held s0 out := by
  intro out e; cases e
  repeat' first
    | with_reducible assumption | intro _ | with_reducible apply Held.ite | with_reducible apply State.pageOff_held
    | with_reducible apply Held.foldl | split | with_reducible apply Held.id | dsimp only

theorem execClsDisable_held {s0 : State} {s : State} (h : Held s0 s) :
    ∀ out, execClsDisable s = .next out → Held s0 out := by
  intro out e; cases e
  repeat' first
    | with_reducible assumption | intro _ | with_reducible apply Held.ite | with_reducible apply State.pageOff_held
    | with_reducible apply Held.foldl | split | with_reducible apply Held.id | dsimp only

theorem execFrameClassify_held {s0 : State} (f : InFrame) (saturated : Bool) {s : State} (h : Held s0 s) :
    ∀ out, execFrameClassify f saturated s = .next out → Held s0 out := by
  intro out e; cases e
  repeat' first | with_reducible exact h | with_reducible apply State.classify_held

theorem execFollowTimeout_held {s0 : State} (idx : Nat) {s : State} (h : Held s0 s) :
    ∀ out, execFollowTimeout idx s = .next out → Held s0 out := by
  intro out e; cases e
  repeat' first
    | with_reducible assumption | intro _ | with_reducible apply State.count_held
    | with_reducible apply State.followRemove_held | with_reducible apply State.iff_held

theorem execFlowAgeSweep_held {s0 : State} {s : State} (h : Held s0 s) :
    ∀ out, execFlowAgeSweep s = .next out → Held s0 out := by
  intro out e; cases e
  repeat' first
    | with_reducible assumption | intro _ | with_reducible apply Held.ite | with_reducible apply State.flowVisit_held
    | with_reducible apply State.iff_held | with_reducible apply State.modFlow_held | with_reducible apply Held.foldl
    | split

theorem execFlowDisable_held {s0 : State} {s : State} (h : Held s0 s) :
    ∀ out, execFlowDisable s = .next out → Held s0 out := by
  intro out e; cases e
  repeat' first
    | with_reducible assumption | intro _ | with_reducible apply Held.ite | with_reducible apply State.pageOff_held
    | with_reducible apply Held.foldl | split | with_reducible apply Held.id | dsimp only

theorem execFlowInsert_held {s0 : State} {s : State} (h : Held s0 s) :
    ∀ out, execFlowInsert s = .next out → Held s0 out := by
  intro out e; cases e
  repeat' first
    | with_reducible exact h | with_reducible apply State.flowCommand_held | with_reducible apply State.guarded_held

theorem execFlowDelete_held {s0 : State} {s : State} (h : Held s0 s) :
    ∀ out, execFlowDelete s = .next out → Held s0 out := by
  intro out e; cases e
  repeat' first
    | with_reducible exact h | with_reducible apply State.flowCommand_held | with_reducible apply State.guarded_held

theorem execFlowFind_held {s0 : State} {s : State} (h : Held s0 s) :
    ∀ out, execFlowFind s = .next out → Held s0 out := by
  intro out e; cases e
  repeat' first
    | with_reducible exact h | with_reducible apply State.flowCommand_held | with_reducible apply State.guarded_held

theorem execFlowCmdDone_held {s0 : State} {s : State} (h : Held s0 s) :
    ∀ out, execFlowCmdDone s = .next out → Held s0 out := by
  intro out e; cases e
  repeat' first | with_reducible exact h | with_reducible apply State.flowDone_held

theorem execFrameAdmitStart_held {s0 : State} (f : AdmitReq) {s : State} (h : Held s0 s) :
    ∀ out, execFrameAdmitStart f s = .next out → Held s0 out := by
  intro out e; cases e
  repeat' first | with_reducible exact h | with_reducible apply State.admitStart_held

theorem execCopyDecide_held {s0 : State} (id : Nat) {s : State} (h : Held s0 s) :
    ∀ out, execCopyDecide id s = .next out → Held s0 out := by
  intro out e; cases e
  repeat' first | with_reducible exact h | with_reducible apply State.copyDecide_held

theorem execFrameAdmitEnd_held {s0 : State} (id : Nat) (err : Bool) (poolEmpty : Bool) {s : State} (h : Held s0 s) :
    ∀ out, execFrameAdmitEnd id err poolEmpty s = .next out → Held s0 out := by
  intro out e; cases e
  repeat' first | with_reducible exact h | with_reducible apply State.admitEnd_held

theorem execBacklogSpill_held {s0 : State} (q : Nat) {s : State} (h : Held s0 s) :
    ∀ out, execBacklogSpill q s = .next out → Held s0 out := by
  intro out e; cases e
  repeat' first | with_reducible exact h | with_reducible apply State.backlogStep_held

theorem execMemUncorrectable_held {s0 : State} (what : MemErr) {s : State} (h : Held s0 s) :
    ∀ out, execMemUncorrectable what s = .next out → Held s0 out := by
  intro out e; cases e
  repeat' first | with_reducible exact h | with_reducible apply State.memError_held

theorem execDschSelect_held {s0 : State} (port : Nat) {s : State} (h : Held s0 s) :
    ∀ out, execDschSelect port s = .next out → Held s0 out := by
  intro out e; cases e
  repeat' first | with_reducible exact h | with_reducible apply State.dschSelect_held

theorem execUniTxComplete_held {s0 : State} (port : Nat) {s : State} (h : Held s0 s) :
    ∀ out, execUniTxComplete port s = .next out → Held s0 out := by
  intro out e; cases e
  repeat' first
    | with_reducible exact h | with_reducible apply State.iff_held | with_reducible apply State.uniComplete_held
    | with_reducible apply State.uniReceive_held

theorem execDschAgeSweep_held {s0 : State} {s : State} (h : Held s0 s) :
    ∀ out, execDschAgeSweep s = .next out → Held s0 out := by
  intro out e; cases e
  repeat' first
    | with_reducible assumption | intro _ | with_reducible apply Held.ite
    | with_reducible apply State.examineDown_held | with_reducible apply Held.foldl | split

theorem execPortFlush_held {s0 : State} (port : Nat) {s : State} (h : Held s0 s) :
    ∀ out, execPortFlush port s = .next out → Held s0 out := by
  intro out e; cases e
  repeat' first | with_reducible exact h | with_reducible apply State.portFlush_held

theorem execSampleDeliver_held {s0 : State} (bufs : List Bytes) {s : State} (h : Held s0 s) :
    ∀ out, execSampleDeliver bufs s = .next out → Held s0 out := by
  intro out e; cases e
  repeat' first | with_reducible exact h | with_reducible apply State.sampleDeliver_held

theorem execDschDisable_held {s0 : State} {s : State} (h : Held s0 s) :
    ∀ out, execDschDisable s = .next out → Held s0 out := by
  intro out e; cases e
  repeat' first
    | with_reducible assumption | intro _ | with_reducible apply Held.ite | with_reducible apply State.pageOff_held
    | with_reducible apply Held.foldl | split | with_reducible apply Held.id | dsimp only

theorem execStoDisable_held {s0 : State} {s : State} (h : Held s0 s) :
    ∀ out, execStoDisable s = .next out → Held s0 out := by
  intro out e; cases e
  repeat' first
    | with_reducible assumption | intro _ | with_reducible apply Held.ite | with_reducible apply State.pageOff_held
    | with_reducible apply Held.foldl | split | with_reducible apply Held.id | dsimp only

theorem execSwcDisable_held {s0 : State} {s : State} (h : Held s0 s) :
    ∀ out, execSwcDisable s = .next out → Held s0 out := by
  intro out e; cases e
  repeat' first
    | with_reducible assumption | intro _ | with_reducible apply Held.ite | with_reducible apply State.pageOff_held
    | with_reducible apply Held.foldl | split | with_reducible apply Held.id | dsimp only

theorem execMirDisable_held {s0 : State} {s : State} (h : Held s0 s) :
    ∀ out, execMirDisable s = .next out → Held s0 out := by
  intro out e; cases e
  repeat' first
    | with_reducible assumption | intro _ | with_reducible apply Held.ite | with_reducible apply State.pageOff_held
    | with_reducible apply Held.foldl | split | with_reducible apply Held.id | dsimp only

theorem execXtrDisable_held {s0 : State} {s : State} (h : Held s0 s) :
    ∀ out, execXtrDisable s = .next out → Held s0 out := by
  intro out e; cases e
  repeat' first
    | with_reducible exact h | with_reducible apply State.pageOff_held | with_reducible apply State.showTier_held

theorem execXtrSegmentWrite_held {s0 : State} (seg : Nat) (w0 : Word) (w1 : Word) (w2 : Word) (w3 : Word) {s :
    State} (h : Held s0 s) :
       ∀ out, execXtrSegmentWrite seg w0 w1 w2 w3 s = .next out → Held s0 out := by
  intro out e; cases e
  repeat' first
    | with_reducible exact h | with_reducible apply State.guarded_held | with_reducible apply State.segWrite_held

theorem execTierReadFail_held {s0 : State} (q : Nat) (whole : Bool) {s : State} (h : Held s0 s) :
    ∀ out, execTierReadFail q whole s = .next out → Held s0 out := by
  intro out e; cases e
  repeat' first
    | with_reducible assumption | intro _ | with_reducible apply Held.ite | with_reducible apply State.loseChain_held
    | with_reducible apply State.loseRecord_held

theorem execAuditEval_held {s0 : State} {s : State} (h : Held s0 s) :
    ∀ out, execAuditEval s = .next out → Held s0 out := by
  intro out e; cases e
  repeat' first
    | with_reducible exact h | with_reducible apply State.auditEval_held | with_reducible apply State.iff_held

theorem execAuditSweepStart_held {s0 : State} {s : State} (h : Held s0 s) :
    ∀ out, execAuditSweepStart s = .next out → Held s0 out := by
  intro out e; cases e
  repeat' first
    | with_reducible exact h | with_reducible apply State.iff_held | with_reducible apply State.setFld_held

theorem execAuditSweepDone_held {s0 : State} {s : State} (h : Held s0 s) :
    ∀ out, execAuditSweepDone s = .next out → Held s0 out := by
  intro out e; cases e
  repeat' first
    | with_reducible exact h | with_reducible apply State.iff_held | with_reducible apply State.sweepDone_held

theorem execAuditStatusClear_held {s0 : State} {s : State} (h : Held s0 s) :
    ∀ out, execAuditStatusClear s = .next out → Held s0 out := by
  intro out e; cases e
  repeat' first
    | with_reducible exact h | with_reducible apply State.guarded_held | with_reducible apply State.setFld_held

theorem execLsecDecrypt_held {s0 : State} (r : Rx) {s : State} (h : Held s0 s) :
    ∀ out, execLsecDecrypt r s = .next out → Held s0 out := by
  intro out e; cases e
  repeat' first
    | with_reducible assumption | intro _ | with_reducible apply Held.ite
    | with_reducible apply State.joinFragment_held | with_reducible apply State.lsecDown_held
    | with_reducible apply State.modDual_held | with_reducible apply Held.foldl | split

theorem execKeySwitch_held {s0 : State} (ctx : Nat) {s : State} (h : Held s0 s) :
    ∀ out, execKeySwitch ctx s = .next out → Held s0 out := by
  intro out e; cases e
  repeat' first
    | with_reducible exact h | with_reducible apply State.iff_held | with_reducible apply State.keySwitch_held

theorem execLsecDisable_held {s0 : State} {s : State} (h : Held s0 s) :
    ∀ out, execLsecDisable s = .next out → Held s0 out := by
  intro out e; cases e
  repeat' first
    | with_reducible assumption | intro _ | with_reducible apply Held.ite | with_reducible apply State.pageOff_held
    | with_reducible apply Held.foldl | split | with_reducible apply Held.id | dsimp only

theorem execTimeSetCmd_held {s0 : State} {s : State} (h : Held s0 s) :
    ∀ out, execTimeSetCmd s = .next out → Held s0 out := by
  intro out e; cases e
  repeat' first
    | with_reducible exact h | with_reducible apply State.guarded_held | with_reducible apply State.timeSetCmd_held

theorem execTimeSetApply_held {s0 : State} (r : Rx) {s : State} (h : Held s0 s) :
    ∀ out, execTimeSetApply r s = .next out → Held s0 out := by
  intro out e; cases e
  repeat' first | with_reducible exact h | with_reducible apply State.timeSetApply_held

theorem execTimeClearHost_held {s0 : State} {s : State} (h : Held s0 s) :
    ∀ out, execTimeClearHost s = .next out → Held s0 out := by
  intro out e; cases e
  repeat' first
    | with_reducible exact h | with_reducible apply State.guarded_held | with_reducible apply State.timeClearHost_held

theorem execTimeEnable_held {s0 : State} {s : State} (h : Held s0 s) :
    ∀ out, execTimeEnable s = .next out → Held s0 out := by
  intro out e; cases e
  repeat' first
    | with_reducible exact h | with_reducible apply State.pageOn_held | with_reducible apply State.timeStart_held

theorem execTimeCalDone_held {s0 : State} {s : State} (h : Held s0 s) :
    ∀ out, execTimeCalDone s = .next out → Held s0 out := by
  intro out e; cases e
  repeat' first | with_reducible exact h | with_reducible apply State.timeCalDone_held

theorem execTimeDisable_held {s0 : State} {s : State} (h : Held s0 s) :
    ∀ out, execTimeDisable s = .next out → Held s0 out := by
  intro out e; cases e
  repeat' first
    | with_reducible assumption | intro _ | with_reducible apply State.pageOff_held
    | with_reducible apply State.ppsLow_held | with_reducible apply State.timeStop_held

theorem execPpsEdge_held {s0 : State} {s : State} (h : Held s0 s) :
    ∀ out, execPpsEdge s = .next out → Held s0 out := by
  intro out e; cases e
  repeat' first
    | with_reducible exact h | with_reducible apply State.iff_held | with_reducible apply State.ppsRise_held

theorem execPpsFall_held {s0 : State} {s : State} (h : Held s0 s) :
    ∀ out, execPpsFall s = .next out → Held s0 out := by
  intro out e; cases e
  repeat' first | with_reducible exact h | with_reducible apply State.ppsFall_held

theorem execLaunchEligible_held {s0 : State} (port : Nat) (tag : Nat) {s : State} (h : Held s0 s) :
    ∀ out, execLaunchEligible port tag s = .next out → Held s0 out := by
  intro out e; cases e
  repeat' first
    | with_reducible assumption | intro _ | with_reducible apply State.iff_held
    | with_reducible apply State.launchReach_held

theorem execDomainIdleExpire_held {s0 : State} (d : Nat) (refusal : Option (Nat × Nat)) {s : State} (h : Held s0 s) :
    ∀ out, execDomainIdleExpire d refusal s = .next out → Held s0 out := by
  intro out e; cases e
  repeat' first | with_reducible exact h | with_reducible apply State.idleExpire_held

theorem execDomainEntryDone_held {s0 : State} (d : Nat) {s : State} (h : Held s0 s) :
    ∀ out, execDomainEntryDone d s = .next out → Held s0 out := by
  intro out e; cases e
  repeat' first | with_reducible exact h | with_reducible apply State.entryDone_held

theorem execDomainWake_held {s0 : State} (d : Nat) (src : Nat) {s : State} (h : Held s0 s) :
    ∀ out, execDomainWake d src s = .next out → Held s0 out := by
  intro out e; cases e
  repeat' first
    | with_reducible assumption | intro _ | with_reducible apply Held.ite | with_reducible apply State.guarded_held
    | with_reducible apply State.iff_held | with_reducible apply State.wakeDomain_held

theorem execKeepPolicyWrite_held {s0 : State} (hi : Bool) (acc : Access) {s : State} (h : Held s0 s) :
    ∀ out, execKeepPolicyWrite hi acc s = .next out → Held s0 out := by
  intro out e; cases e
  repeat' first | with_reducible exact h | with_reducible apply State.policyWrite_held

theorem execDomainRestoreDone_held {s0 : State} (d : Nat) {s : State} (h : Held s0 s) :
    ∀ out, execDomainRestoreDone d s = .next out → Held s0 out := by
  intro out e; cases e
  repeat' first | with_reducible exact h | with_reducible apply State.restoreDone_held

theorem execClockGateEnd_held {s0 : State} (cand : Nat) (count : Nat) {s : State} (h : Held s0 s) :
    ∀ out, execClockGateEnd cand count s = .next out → Held s0 out := by
  intro out e; cases e
  repeat' first | with_reducible exact h | with_reducible apply State.clockGateEnd_held

theorem execHostrefLost_held {s0 : State} {s : State} (h : Held s0 s) :
    ∀ out, execHostrefLost s = .next out → Held s0 out := by
  intro out e; cases e
  repeat' first | with_reducible exact h | with_reducible apply State.clkLose_held

theorem execClockWtrExpire_held {s0 : State} (cand : Nat) {s : State} (h : Held s0 s) :
    ∀ out, execClockWtrExpire cand s = .next out → Held s0 out := by
  intro out e; cases e
  repeat' first
    | with_reducible exact h | with_reducible apply State.clkJudgeWith_held | with_reducible apply State.iff_held

theorem execClkForce_held {s0 : State} (code : Nat) {s : State} (h : Held s0 s) :
    ∀ out, execClkForce code s = .next out → Held s0 out := by
  intro out e; cases e
  repeat' first
    | with_reducible exact h | with_reducible apply State.clkForceCmd_held | with_reducible apply State.guarded_held

theorem execClockLossReset_held {s0 : State} {s : State} (h : Held s0 s) :
    ∀ out, execClockLossReset s = .next out → Held s0 out := by
  intro out e; cases e
  repeat' first | with_reducible exact h | with_reducible apply State.clockLossReset_held

theorem execClockEdgeMissing_held {s0 : State} (which : Nat) {s : State} (h : Held s0 s) :
    ∀ out, execClockEdgeMissing which s = .next out → Held s0 out := by
  intro out e; cases e
  repeat' first | with_reducible exact h | with_reducible apply State.edgeMissing_held

theorem execKoscTrim_held {s0 : State} (count : Nat) {s : State} (h : Held s0 s) :
    ∀ out, execKoscTrim count s = .next out → Held s0 out := by
  intro out e; cases e
  repeat' first | with_reducible exact h | with_reducible apply State.koscTrim_held

theorem execSupplyWarning_held {s0 : State} (rails : Nat) {s : State} (h : Held s0 s) :
    ∀ out, execSupplyWarning rails s = .next out → Held s0 out := by
  intro out e; cases e
  repeat' first
    | with_reducible exact h | with_reducible apply State.iff_held | with_reducible apply State.supplyWarning_held

theorem execSupplyWarningClear_held {s0 : State} {s : State} (h : Held s0 s) :
    ∀ out, execSupplyWarningClear s = .next out → Held s0 out := by
  intro out e; cases e
  repeat' first
    | with_reducible exact h | with_reducible apply State.iff_held | with_reducible apply State.supplyClear_held

theorem execVkeepWarning_held {s0 : State} {s : State} (h : Held s0 s) :
    ∀ out, execVkeepWarning s = .next out → Held s0 out := by
  intro out e; cases e
  repeat' first | with_reducible exact h | with_reducible apply State.vkeepWarn_held

theorem execMainRailReset_held {s0 : State} (rails : Nat) {s : State} (h : Held s0 s) :
    ∀ out, execMainRailReset rails s = .next out → Held s0 out := by
  intro out e; cases e
  repeat' first | with_reducible exact h | with_reducible apply State.mainRailReset_held

theorem execMainRailRelease_held {s0 : State} {s : State} (h : Held s0 s) :
    ∀ out, execMainRailRelease s = .next out → Held s0 out := by
  intro out e; cases e
  repeat' first
    | with_reducible exact h | with_reducible apply State.iff_held | with_reducible apply State.mainRailRelease_held

theorem execVkeepReset_held {s0 : State} {s : State} (h : Held s0 s) :
    ∀ out, execVkeepReset s = .next out → Held s0 out := by
  intro out e; cases e
  repeat' first | with_reducible exact h | with_reducible apply State.vkeepReset_held

theorem execVkeepPowerUp_held {s0 : State} (ramOk : Bool) {s : State} (h : Held s0 s) :
    ∀ out, execVkeepPowerUp ramOk s = .next out → Held s0 out := by
  intro out e; cases e
  repeat' first | with_reducible exact h | with_reducible apply State.vkeepPowerUp_held

theorem execPsrcDebounce_held {s0 : State} (main : Bool) (level : Bool) {s : State} (h : Held s0 s) :
    ∀ out, execPsrcDebounce main level s = .next out → Held s0 out := by
  intro out e; cases e
  repeat' first
    | with_reducible exact h | with_reducible apply State.iff_held | with_reducible apply State.psrcDebounce_held

theorem execHoldoffExpire_held {s0 : State} {s : State} (h : Held s0 s) :
    ∀ out, execHoldoffExpire s = .next out → Held s0 out := by
  intro out e; cases e
  repeat' first | with_reducible exact h | with_reducible apply State.holdoffExpire_held

theorem execMainsStable_held {s0 : State} {s : State} (h : Held s0 s) :
    ∀ out, execMainsStable s = .next out → Held s0 out := by
  intro out e; cases e
  repeat' first | with_reducible exact h | with_reducible apply State.mainsStable_held

theorem execUnitContain_held {s0 : State} (page : Nat) (unit : Nat) {s : State} (h : Held s0 s) :
    ∀ out, execUnitContain page unit s = .next out → Held s0 out := by
  intro out e; cases e
  repeat' first | with_reducible exact h | with_reducible apply State.unitContain_held

theorem execRegionContain_held {s0 : State} (region : Nat) (cause : Nat) {s : State} (h : Held s0 s) :
    ∀ out, execRegionContain region cause s = .next out → Held s0 out := by
  intro out e; cases e
  repeat' first | with_reducible exact h | with_reducible apply State.regionContain_held

theorem execThermalLimit_held {s0 : State} (region : Nat) {s : State} (h : Held s0 s) :
    ∀ out, execThermalLimit region s = .next out → Held s0 out := by
  intro out e; cases e
  repeat' first | with_reducible exact h | with_reducible apply State.thermalLimit_held

theorem execThermalRelease_held {s0 : State} (region : Nat) {s : State} (h : Held s0 s) :
    ∀ out, execThermalRelease region s = .next out → Held s0 out := by
  intro out e; cases e
  repeat' first
    | with_reducible exact h | with_reducible apply State.iff_held | with_reducible apply State.regionRelease_held

theorem execSysRegionRelease_held {s0 : State} (mask : Nat) {s : State} (h : Held s0 s) :
    ∀ out, execSysRegionRelease mask s = .next out → Held s0 out := by
  intro out e; cases e
  repeat' first
    | with_reducible exact h | with_reducible apply State.guarded_held
    | with_reducible apply State.sysRegionRelease_held

theorem execFlitCrcFail_held {s0 : State} (link : Nat) (back : Bool) (flit : Bytes) {s : State} (h : Held s0 s) :
    ∀ out, execFlitCrcFail link back flit s = .next out → Held s0 out := by
  intro out e; cases e
  repeat' first | with_reducible exact h | with_reducible apply State.flitReceive_held

theorem execLinkRetrain_held {s0 : State} (link : Nat) (ok : Bool) {s : State} (h : Held s0 s) :
    ∀ out, execLinkRetrain link ok s = .next out → Held s0 out := by
  intro out e; cases e
  repeat' first | with_reducible exact h | with_reducible apply State.linkRetrain_held

theorem execD2dRetrainRetry_held {s0 : State} (link : Nat) (ok : Bool) {s : State} (h : Held s0 s) :
    ∀ out, execD2dRetrainRetry link ok s = .next out → Held s0 out := by
  intro out e; cases e
  repeat' first | with_reducible exact h | with_reducible apply State.linkRetry_held

theorem execD2dLinkUp_held {s0 : State} (link : Nat) {s : State} (h : Held s0 s) :
    ∀ out, execD2dLinkUp link s = .next out → Held s0 out := by
  intro out e; cases e
  repeat' first
    | with_reducible exact h | with_reducible apply State.iff_held | with_reducible apply State.linkCameUp_held

theorem execPinShort_held {s0 : State} (pin : Nat) {s : State} (h : Held s0 s) :
    ∀ out, execPinShort pin s = .next out → Held s0 out := by
  intro out e; cases e
  repeat' first | with_reducible exact h | with_reducible apply State.pinShort_held

theorem execPinOpenTest_held {s0 : State} (pin : Nat) (followsUp : Bool) (followsDown : Bool) (changed : Bool) {s :
    State} (h : Held s0 s) :
       ∀ out, execPinOpenTest pin followsUp followsDown changed s = .next out → Held s0 out := by
  intro out e; cases e
  repeat' first | with_reducible exact h | with_reducible apply State.pinOpenTest_held

theorem execPinRelease_held {s0 : State} (pin : Nat) (stillFaulty : Bool) {s : State} (h : Held s0 s) :
    ∀ out, execPinRelease pin stillFaulty s = .next out → Held s0 out := by
  intro out e; cases e
  repeat' first
    | with_reducible exact h | with_reducible apply State.guarded_held | with_reducible apply State.pinRelease_held

theorem execReplan_held {s0 : State} (r : LehrReadings) {s : State} (h : Held s0 s) :
    ∀ out, execReplan r s = .next out → Held s0 out := by
  intro out e; cases e
  repeat' first | with_reducible exact h | with_reducible apply State.replanDaily_held

theorem execLehrReplanNow_held {s0 : State} (r : LehrReadings) {s : State} (h : Held s0 s) :
    ∀ out, execLehrReplanNow r s = .next out → Held s0 out := by
  intro out e; cases e
  repeat' first
    | with_reducible exact h | with_reducible apply State.guarded_held | with_reducible apply State.replan_held

theorem execReplanDeferredStart_held {s0 : State} (r : LehrReadings) {s : State} (h : Held s0 s) :
    ∀ out, execReplanDeferredStart r s = .next out → Held s0 out := by
  intro out e; cases e
  repeat' first | with_reducible exact h | with_reducible apply State.replanDeferred_held

theorem execAvsWriteDone_held {s0 : State} (rail : Nat) (ack : Bool) {s : State} (h : Held s0 s) :
    ∀ out, execAvsWriteDone rail ack s = .next out → Held s0 out := by
  intro out e; cases e
  repeat' first | with_reducible exact h | with_reducible apply State.avsDone_held

theorem execSysRst_held {s0 : State} (widthNs : Nat) {s : State} (h : Held s0 s) :
    ∀ out, execSysRst widthNs s = .next out → Held s0 out := by
  intro out e; cases e
  repeat' first
    | with_reducible exact h | with_reducible apply State.iff_held | with_reducible apply State.sysRst_held

theorem execTapReset_held {s0 : State} {s : State} (h : Held s0 s) :
    ∀ out, execTapReset s = .next out → Held s0 out := by
  intro out e; cases e
  repeat' first
    | with_reducible exact h | with_reducible apply State.setTap_held | with_reducible apply State.tapRelease_held

theorem execBypass_held {s0 : State} {s : State} (h : Held s0 s) :
    ∀ out, execBypass s = .next out → Held s0 out := by
  intro out e; cases e
  repeat' first | with_reducible exact h | with_reducible apply State.setTap_held

theorem execSamplePreload_held {s0 : State} (load : Option (List Bool)) {s : State} (h : Held s0 s) :
    ∀ out, execSamplePreload load s = .next out → Held s0 out := by
  intro out e; cases e
  repeat' first
    | with_reducible assumption | intro _ | with_reducible apply Held.ite | with_reducible apply State.modTap_held
    | with_reducible apply State.samplePins_held | with_reducible apply State.setTap_held
    | with_reducible apply Held.foldl | split

theorem execIdcode_held {s0 : State} {s : State} (h : Held s0 s) :
    ∀ out, execIdcode s = .next out → Held s0 out := by
  intro out e; cases e
  repeat' first
    | with_reducible exact h | with_reducible apply State.modReadData_held | with_reducible apply State.setTap_held

theorem execExtest_held {s0 : State} {s : State} (h : Held s0 s) :
    ∀ out, execExtest s = .next out → Held s0 out := by
  intro out e; cases e
  repeat' first
    | with_reducible exact h | with_reducible apply State.emit_held | with_reducible apply State.setTap_held
    | with_reducible apply State.tapHold_held

theorem execClamp_held {s0 : State} {s : State} (h : Held s0 s) :
    ∀ out, execClamp s = .next out → Held s0 out := by
  intro out e; cases e
  repeat' first
    | with_reducible exact h | with_reducible apply State.emit_held | with_reducible apply State.setTap_held
    | with_reducible apply State.tapHold_held

theorem execHighz_held {s0 : State} {s : State} (h : Held s0 s) :
    ∀ out, execHighz s = .next out → Held s0 out := by
  intro out e; cases e
  repeat' first
    | with_reducible exact h | with_reducible apply State.emit_held | with_reducible apply State.setTap_held
    | with_reducible apply State.tapHold_held

end Sys2Proof.Machine
end

