-- ==== Sys2Proof/Laws/Lasting.lean ====
section
/-! SUPPORT. What only a few commands change: what holds regions in reset or contained (R544, R551, R563, R588, R601), PERST#, the
power source's timers, the boundary port's state, and what the flash and its journal hold (R497, R510). `Lasting s0 s` says that
it is in `s` as it was in the state `s0` that an operation began in. Here it is shown of the named updates; Laws/Lasting*.lean show
it of the further operations. -/

set_option Elab.async false
set_option linter.all false

namespace Sys2Proof.Machine

/-- What lasts is as it was. -/
structure Lasting (s0 s : State) : Prop where
  rail : s.clk.railHeld = s0.clk.railHeld
  loss : s.clk.lossHeld = s0.clk.lossHeld
  tap : s.clk.tapHeld = s0.clk.tapHeld
  wait : s.clk.clockWait = s0.clk.clockWait
  perst : s.hif.perst = s0.hif.perst
  cause : s.rel.cause = s0.rel.cause
  sup : s.sup = s0.sup
  port : s.tap = s0.tap
  mem : s.flsh.mem = s0.flsh.mem
  unknown : s.flsh.unknown = s0.flsh.unknown
  journal : s.flsh.journal = s0.flsh.journal

theorem Lasting.refl (s : State) : Lasting s s := ⟨rfl, rfl, rfl, rfl, rfl, rfl, rfl, rfl, rfl, rfl, rfl⟩

theorem Lasting.trans {a b c : State} (h : Lasting a b) (k : Lasting b c) : Lasting a c :=
  ⟨k.rail.trans h.rail, k.loss.trans h.loss, k.tap.trans h.tap, k.wait.trans h.wait, k.perst.trans h.perst, k.cause.trans h.cause, k.sup.trans h.sup, k.port.trans h.port, k.mem.trans h.mem, k.unknown.trans h.unknown, k.journal.trans h.journal⟩

theorem Lasting.ite {s0 a b : State} {c : Prop} [Decidable c] (ha : Lasting s0 a) (hb : Lasting s0 b) :
    Lasting s0 (if c then a else b) := by split <;> assumption

theorem Lasting.ite_fst {α : Type} {s0 : State} {a b : State × α} {c : Prop} [Decidable c] (ha : Lasting s0 a.1)
    (hb : Lasting s0 b.1) : Lasting s0 (if c then a else b).1 := by split <;> assumption

theorem Lasting.foldl {α : Type} {s0 : State} {f : State → α → State} (hf : ∀ x a, Lasting s0 x → Lasting s0 (f x a))
    (l : List α) {s : State} (h : Lasting s0 s) : Lasting s0 (l.foldl f s) := by
  induction l generalizing s with
  | nil => exact h
  | cons a l ih => exact ih (hf s a h)

theorem Lasting.foldl_snd {α β : Type} {s0 : State} {f : β × State → α → β × State}
    (hf : ∀ x a, Lasting s0 x.2 → Lasting s0 (f x a).2) (l : List α) {x : β × State} (h : Lasting s0 x.2) :
    Lasting s0 (l.foldl f x).2 := by
  induction l generalizing x with
  | nil => exact h
  | cons a l ih => exact ih (hf x a h)

theorem Lasting.of_fst {α : Type} {s0 b : State} {x : α} {y : State × α} (h : Lasting s0 y.1) (e : y = (b, x)) :
    Lasting s0 b := by subst e; exact h

theorem Lasting.id {s0 s : State} (h : Lasting s0 s) : Lasting s0 (id s) := h

/-- Each of a list of numbered operations lasts. -/
def AllLasting (s0 : State) : List (Nat × (State → State)) → Prop
  | [] => True
  | x :: l => (∀ s, Lasting s0 s → Lasting s0 (x.2 s)) ∧ AllLasting s0 l

theorem AllLasting.nil (s0 : State) : AllLasting s0 [] := trivial

theorem AllLasting.cons {s0 : State} {x : Nat × (State → State)} {l : List (Nat × (State → State))}
    (hx : ∀ s, Lasting s0 s → Lasting s0 (x.2 s)) (hl : AllLasting s0 l) : AllLasting s0 (x :: l) := ⟨hx, hl⟩

theorem AllLasting.map {α : Type} {s0 : State} {f : α → Nat × (State → State)} (l : List α)
    (hf : ∀ a s, Lasting s0 s → Lasting s0 ((f a).2 s)) : AllLasting s0 (l.map f) := by
  induction l with
  | nil => trivial
  | cons a l ih => exact ⟨hf a, ih⟩

/-! The named updates. -/

theorem State.modRf_lasting {s0 s : State} (f : RegFile → RegFile) (h : Lasting s0 s) : Lasting s0 (s.modRf f) :=
  ⟨h.rail, h.loss, h.tap, h.wait, h.perst, h.cause, h.sup, h.port, h.mem, h.unknown, h.journal⟩
theorem State.modTables_lasting {s0 s : State} (f : Sparse Word → Sparse Word) (h : Lasting s0 s) : Lasting s0 (s.modTables f) :=
  ⟨h.rail, h.loss, h.tap, h.wait, h.perst, h.cause, h.sup, h.port, h.mem, h.unknown, h.journal⟩
theorem State.modWins_lasting {s0 s : State} (f : Sparse IndWin → Sparse IndWin) (h : Lasting s0 s) : Lasting s0 (s.modWins f) :=
  ⟨h.rail, h.loss, h.tap, h.wait, h.perst, h.cause, h.sup, h.port, h.mem, h.unknown, h.journal⟩
theorem State.modCnt_lasting {s0 s : State} (f : Counts → Counts) (h : Lasting s0 s) : Lasting s0 (s.modCnt f) :=
  ⟨h.rail, h.loss, h.tap, h.wait, h.perst, h.cause, h.sup, h.port, h.mem, h.unknown, h.journal⟩
theorem State.modPenn_lasting {s0 s : State} (f : Sparse PennSt → Sparse PennSt) (h : Lasting s0 s) : Lasting s0 (s.modPenn f) :=
  ⟨h.rail, h.loss, h.tap, h.wait, h.perst, h.cause, h.sup, h.port, h.mem, h.unknown, h.journal⟩
theorem State.modLimited_lasting {s0 s : State} (f : Sparse Nat → Sparse Nat) (h : Lasting s0 s) : Lasting s0 (s.modLimited f) :=
  ⟨h.rail, h.loss, h.tap, h.wait, h.perst, h.cause, h.sup, h.port, h.mem, h.unknown, h.journal⟩
theorem State.modOut_lasting {s0 s : State} (f : List Emission → List Emission) (h : Lasting s0 s) : Lasting s0 (s.modOut f) :=
  ⟨h.rail, h.loss, h.tap, h.wait, h.perst, h.cause, h.sup, h.port, h.mem, h.unknown, h.journal⟩
theorem State.modNow_lasting {s0 s : State} (f : Nat → Nat) (h : Lasting s0 s) : Lasting s0 (s.modNow f) :=
  ⟨h.rail, h.loss, h.tap, h.wait, h.perst, h.cause, h.sup, h.port, h.mem, h.unknown, h.journal⟩
theorem State.modReadData_lasting {s0 s : State} (f : Word → Word) (h : Lasting s0 s) : Lasting s0 (s.modReadData f) :=
  ⟨h.rail, h.loss, h.tap, h.wait, h.perst, h.cause, h.sup, h.port, h.mem, h.unknown, h.journal⟩
theorem State.modReadHigh_lasting {s0 s : State} (f : Word → Word) (h : Lasting s0 s) : Lasting s0 (s.modReadHigh f) :=
  ⟨h.rail, h.loss, h.tap, h.wait, h.perst, h.cause, h.sup, h.port, h.mem, h.unknown, h.journal⟩
theorem State.modFreeIx_lasting {s0 s : State} (f : Nat → Nat) (h : Lasting s0 s) : Lasting s0 (s.modFreeIx f) :=
  ⟨h.rail, h.loss, h.tap, h.wait, h.perst, h.cause, h.sup, h.port, h.mem, h.unknown, h.journal⟩
theorem State.modRx_lasting {s0 s : State} (f : PerRx RxSt → PerRx RxSt) (h : Lasting s0 s) : Lasting s0 (s.modRx f) :=
  ⟨h.rail, h.loss, h.tap, h.wait, h.perst, h.cause, h.sup, h.port, h.mem, h.unknown, h.journal⟩
theorem State.modTx_lasting {s0 s : State} (f : PerTree TxSt → PerTree TxSt) (h : Lasting s0 s) : Lasting s0 (s.modTx f) :=
  ⟨h.rail, h.loss, h.tap, h.wait, h.perst, h.cause, h.sup, h.port, h.mem, h.unknown, h.journal⟩
theorem State.modHif_lasting {s0 s : State} {f : HifSt → HifSt} (h : Lasting s0 s)
    (hperst : ∀ x, (f x).perst = x.perst) : Lasting s0 (s.modHif f) :=
  ⟨h.rail, h.loss, h.tap, h.wait, (hperst _).trans h.perst, h.cause, h.sup, h.port, h.mem, h.unknown, h.journal⟩
theorem State.modDma_lasting {s0 s : State} (f : DmaSt → DmaSt) (h : Lasting s0 s) : Lasting s0 (s.modDma f) :=
  ⟨h.rail, h.loss, h.tap, h.wait, h.perst, h.cause, h.sup, h.port, h.mem, h.unknown, h.journal⟩
theorem State.modUni_lasting {s0 s : State} (f : UniSt → UniSt) (h : Lasting s0 s) : Lasting s0 (s.modUni f) :=
  ⟨h.rail, h.loss, h.tap, h.wait, h.perst, h.cause, h.sup, h.port, h.mem, h.unknown, h.journal⟩
theorem State.modTsk_lasting {s0 s : State} (f : TskSt → TskSt) (h : Lasting s0 s) : Lasting s0 (s.modTsk f) :=
  ⟨h.rail, h.loss, h.tap, h.wait, h.perst, h.cause, h.sup, h.port, h.mem, h.unknown, h.journal⟩
theorem State.modSto_lasting {s0 s : State} (f : StoSt → StoSt) (h : Lasting s0 s) : Lasting s0 (s.modSto f) :=
  ⟨h.rail, h.loss, h.tap, h.wait, h.perst, h.cause, h.sup, h.port, h.mem, h.unknown, h.journal⟩
theorem State.modXtr_lasting {s0 s : State} (f : XtrSt → XtrSt) (h : Lasting s0 s) : Lasting s0 (s.modXtr f) :=
  ⟨h.rail, h.loss, h.tap, h.wait, h.perst, h.cause, h.sup, h.port, h.mem, h.unknown, h.journal⟩
theorem State.modCls_lasting {s0 s : State} (f : ClsSt → ClsSt) (h : Lasting s0 s) : Lasting s0 (s.modCls f) :=
  ⟨h.rail, h.loss, h.tap, h.wait, h.perst, h.cause, h.sup, h.port, h.mem, h.unknown, h.journal⟩
theorem State.modFlow_lasting {s0 s : State} (f : FlowSt → FlowSt) (h : Lasting s0 s) : Lasting s0 (s.modFlow f) :=
  ⟨h.rail, h.loss, h.tap, h.wait, h.perst, h.cause, h.sup, h.port, h.mem, h.unknown, h.journal⟩
theorem State.modUsch_lasting {s0 s : State} (f : UschSt → UschSt) (h : Lasting s0 s) : Lasting s0 (s.modUsch f) :=
  ⟨h.rail, h.loss, h.tap, h.wait, h.perst, h.cause, h.sup, h.port, h.mem, h.unknown, h.journal⟩
theorem State.modGrt_lasting {s0 s : State} (f : PerTree GrtSt → PerTree GrtSt) (h : Lasting s0 s) : Lasting s0 (s.modGrt f) :=
  ⟨h.rail, h.loss, h.tap, h.wait, h.perst, h.cause, h.sup, h.port, h.mem, h.unknown, h.journal⟩
theorem State.modPol_lasting {s0 s : State} (f : PolSt → PolSt) (h : Lasting s0 s) : Lasting s0 (s.modPol f) :=
  ⟨h.rail, h.loss, h.tap, h.wait, h.perst, h.cause, h.sup, h.port, h.mem, h.unknown, h.journal⟩
theorem State.modFrm_lasting {s0 s : State} (f : PerRx FrmSt → PerRx FrmSt) (h : Lasting s0 s) : Lasting s0 (s.modFrm f) :=
  ⟨h.rail, h.loss, h.tap, h.wait, h.perst, h.cause, h.sup, h.port, h.mem, h.unknown, h.journal⟩
theorem State.modPm_lasting {s0 s : State} (f : PmSt → PmSt) (h : Lasting s0 s) : Lasting s0 (s.modPm f) :=
  ⟨h.rail, h.loss, h.tap, h.wait, h.perst, h.cause, h.sup, h.port, h.mem, h.unknown, h.journal⟩
theorem State.modLsec_lasting {s0 s : State} (f : LsecSt → LsecSt) (h : Lasting s0 s) : Lasting s0 (s.modLsec f) :=
  ⟨h.rail, h.loss, h.tap, h.wait, h.perst, h.cause, h.sup, h.port, h.mem, h.unknown, h.journal⟩
theorem State.modRel_lasting {s0 s : State} {f : RelSt → RelSt} (h : Lasting s0 s)
    (hcause : ∀ x, (f x).cause = x.cause) : Lasting s0 (s.modRel f) :=
  ⟨h.rail, h.loss, h.tap, h.wait, h.perst, (hcause _).trans h.cause, h.sup, h.port, h.mem, h.unknown, h.journal⟩
theorem State.modHal_lasting {s0 s : State} (f : PerTree HalSt → PerTree HalSt) (h : Lasting s0 s) : Lasting s0 (s.modHal f) :=
  ⟨h.rail, h.loss, h.tap, h.wait, h.perst, h.cause, h.sup, h.port, h.mem, h.unknown, h.journal⟩
theorem State.modSram_lasting {s0 s : State} (f : Sparse Byte → Sparse Byte) (h : Lasting s0 s) : Lasting s0 (s.modSram f) :=
  ⟨h.rail, h.loss, h.tap, h.wait, h.perst, h.cause, h.sup, h.port, h.mem, h.unknown, h.journal⟩
theorem State.modDual_lasting {s0 s : State} (f : DualSt → DualSt) (h : Lasting s0 s) : Lasting s0 (s.modDual f) :=
  ⟨h.rail, h.loss, h.tap, h.wait, h.perst, h.cause, h.sup, h.port, h.mem, h.unknown, h.journal⟩
theorem State.modSnap_lasting {s0 s : State} (f : SnapSt → SnapSt) (h : Lasting s0 s) : Lasting s0 (s.modSnap f) :=
  ⟨h.rail, h.loss, h.tap, h.wait, h.perst, h.cause, h.sup, h.port, h.mem, h.unknown, h.journal⟩
theorem State.modTime_lasting {s0 s : State} (f : TimeSt → TimeSt) (h : Lasting s0 s) : Lasting s0 (s.modTime f) :=
  ⟨h.rail, h.loss, h.tap, h.wait, h.perst, h.cause, h.sup, h.port, h.mem, h.unknown, h.journal⟩
theorem State.modAct_lasting {s0 s : State} (f : PerTree ActSt → PerTree ActSt) (h : Lasting s0 s) : Lasting s0 (s.modAct f) :=
  ⟨h.rail, h.loss, h.tap, h.wait, h.perst, h.cause, h.sup, h.port, h.mem, h.unknown, h.journal⟩
theorem State.modNoticeNext_lasting {s0 s : State} (f : Nat → Nat) (h : Lasting s0 s) : Lasting s0 (s.modNoticeNext f) :=
  ⟨h.rail, h.loss, h.tap, h.wait, h.perst, h.cause, h.sup, h.port, h.mem, h.unknown, h.journal⟩
theorem State.modCcry_lasting {s0 s : State} (f : CcrySt → CcrySt) (h : Lasting s0 s) : Lasting s0 (s.modCcry f) :=
  ⟨h.rail, h.loss, h.tap, h.wait, h.perst, h.cause, h.sup, h.port, h.mem, h.unknown, h.journal⟩
theorem State.modKst_lasting {s0 s : State} (f : KstSt → KstSt) (h : Lasting s0 s) : Lasting s0 (s.modKst f) :=
  ⟨h.rail, h.loss, h.tap, h.wait, h.perst, h.cause, h.sup, h.port, h.mem, h.unknown, h.journal⟩
theorem State.modClk_lasting {s0 s : State} {f : ClkSt → ClkSt} (h : Lasting s0 s)
    (hrail : ∀ x, (f x).railHeld = x.railHeld) (hloss : ∀ x, (f x).lossHeld = x.lossHeld) (htap : ∀ x, (f x).tapHeld = x.tapHeld) (hwait : ∀ x, (f x).clockWait = x.clockWait) : Lasting s0 (s.modClk f) :=
  ⟨(hrail _).trans h.rail, (hloss _).trans h.loss, (htap _).trans h.tap, (hwait _).trans h.wait, h.perst, h.cause, h.sup, h.port, h.mem, h.unknown, h.journal⟩
theorem State.modLehr_lasting {s0 s : State} (f : LehrSt → LehrSt) (h : Lasting s0 s) : Lasting s0 (s.modLehr f) :=
  ⟨h.rail, h.loss, h.tap, h.wait, h.perst, h.cause, h.sup, h.port, h.mem, h.unknown, h.journal⟩
theorem State.modTap_lasting {s0 s : State} {f : TapSt → TapSt} (h : Lasting s0 s)
    (hport : ∀ x, (f x) = x) : Lasting s0 (s.modTap f) :=
  ⟨h.rail, h.loss, h.tap, h.wait, h.perst, h.cause, h.sup, (hport _).trans h.port, h.mem, h.unknown, h.journal⟩
theorem State.modSup_lasting {s0 s : State} {f : SupSt → SupSt} (h : Lasting s0 s)
    (hsup : ∀ x, (f x) = x) : Lasting s0 (s.modSup f) :=
  ⟨h.rail, h.loss, h.tap, h.wait, h.perst, h.cause, (hsup _).trans h.sup, h.port, h.mem, h.unknown, h.journal⟩
theorem State.modKeep_lasting {s0 s : State} (f : KeepSt → KeepSt) (h : Lasting s0 s) : Lasting s0 (s.modKeep f) :=
  ⟨h.rail, h.loss, h.tap, h.wait, h.perst, h.cause, h.sup, h.port, h.mem, h.unknown, h.journal⟩
theorem State.modCore_lasting {s0 s : State} (f : CoreSt → CoreSt) (h : Lasting s0 s) : Lasting s0 (s.modCore f) :=
  ⟨h.rail, h.loss, h.tap, h.wait, h.perst, h.cause, h.sup, h.port, h.mem, h.unknown, h.journal⟩
theorem State.modFlsh_lasting {s0 s : State} {f : FlshSt → FlshSt} (h : Lasting s0 s)
    (hmem : ∀ x, (f x).mem = x.mem) (hunknown : ∀ x, (f x).unknown = x.unknown) (hjournal : ∀ x, (f x).journal = x.journal) : Lasting s0 (s.modFlsh f) :=
  ⟨h.rail, h.loss, h.tap, h.wait, h.perst, h.cause, h.sup, h.port, (hmem _).trans h.mem, (hunknown _).trans h.unknown, (hjournal _).trans h.journal⟩
theorem State.putTw_lasting {s0 s : State} (p t e w : Nat) (v : Word) (h : Lasting s0 s) : Lasting s0 (s.putTw p t e w v) := by
  unfold State.putTw
  exact State.modTables_lasting _ h
theorem State.resetTable_lasting {s0 s : State} (p t : Nat) (h : Lasting s0 s) : Lasting s0 (s.resetTable p t) :=
  ⟨h.rail, h.loss, h.tap, h.wait, h.perst, h.cause, h.sup, h.port, h.mem, h.unknown, h.journal⟩
theorem State.resetTables_lasting {s0 s : State} (p : Nat) (h : Lasting s0 s) : Lasting s0 (s.resetTables p) :=
  ⟨h.rail, h.loss, h.tap, h.wait, h.perst, h.cause, h.sup, h.port, h.mem, h.unknown, h.journal⟩
theorem State.countBy_lasting {s0 s : State} (i n : Nat) (h : Lasting s0 s) : Lasting s0 (s.countBy i n) :=
  ⟨h.rail, h.loss, h.tap, h.wait, h.perst, h.cause, h.sup, h.port, h.mem, h.unknown, h.journal⟩
theorem State.emit_lasting {s0 s : State} (e : Emission) (h : Lasting s0 s) : Lasting s0 (s.emit e) :=
  ⟨h.rail, h.loss, h.tap, h.wait, h.perst, h.cause, h.sup, h.port, h.mem, h.unknown, h.journal⟩
theorem State.useFree_lasting {s0 s : State} (h : Lasting s0 s) : Lasting s0 (s.useFree) :=
  ⟨h.rail, h.loss, h.tap, h.wait, h.perst, h.cause, h.sup, h.port, h.mem, h.unknown, h.journal⟩

theorem State.iff_lasting {s0 s : State} (c : Bool) {f : State → State} (h : Lasting s0 s)
    (hf : ∀ x, Lasting s0 x → Lasting s0 (f x)) : Lasting s0 (s.iff c f) := by
  unfold State.iff; split
  · exact hf _ h
  · exact h

theorem State.putReg_lasting {s0 s : State} (p off : Nat) (v : Word) (h : Lasting s0 s) : Lasting s0 (s.putReg p off v) := by
  unfold State.putReg
  exact State.modRf_lasting _ h
theorem State.setFld_lasting {s0 s : State} (p : Nat) (f : Fld) (v : Nat) (h : Lasting s0 s) : Lasting s0 (s.setFld p f v) :=
  State.putReg_lasting _ _ _ h
theorem State.setSFld_lasting {s0 s : State} (p : Nat) (f : Fld) (v : Int) (h : Lasting s0 s) : Lasting s0 (s.setSFld p f v) :=
  State.putReg_lasting _ _ _ h
theorem State.resetReg_lasting {s0 s : State} (p off : Nat) (h : Lasting s0 s) : Lasting s0 (s.resetReg p off) :=
  State.putReg_lasting _ _ _ h
theorem State.setRg_lasting {s0 s : State} (f : Nat) (rx : Bool) (k : Nat) (x : Fld) (v : Nat) (h : Lasting s0 s) :
    Lasting s0 (s.setRg f rx k x v) := State.setFld_lasting _ _ _ h
theorem State.setPf_lasting {s0 s : State} (p : Nat) (f : Fld) (v : Nat) (h : Lasting s0 s) : Lasting s0 (s.setPf p f v) :=
  State.setFld_lasting _ _ _ h
theorem State.putTime_lasting {s0 s : State} (p off ns : Nat) (h : Lasting s0 s) : Lasting s0 (s.putTime p off ns) := by
  unfold State.putTime
  dsimp only
  repeat' first | with_reducible exact h | with_reducible apply State.putReg_lasting
theorem State.advanceSeq_lasting {s0 s : State} (p : Nat) (h : Lasting s0 s) : Lasting s0 (s.advanceSeq p) :=
  State.setFld_lasting _ _ _ h

end Sys2Proof.Machine
end

