-- ==== Sys2Proof/Laws/LastingRegisters.lean ====
section
/-! SUPPORT. What leaves what lasts (Laws/Lasting.lean): the operations over registers, pennants and register accesses. -/

namespace Sys2Proof.Machine

theorem State.setTf_lasting {s0 : State} (p : Nat) (t : Nat) (e : Nat) (w : Nat) (hi : Nat) (lo : Nat) (v : Nat) {s
    : State} (h : Lasting s0 s) :
       Lasting s0 (State.setTf p t e w hi lo v s) := by
  unfold State.setTf
  repeat' first | with_reducible exact h | with_reducible apply State.putTw_lasting

theorem State.count_lasting {s0 : State} (i : Nat) {s : State} (h : Lasting s0 s) :
    Lasting s0 (State.count i s) := by
  unfold State.count
  repeat' first | with_reducible exact h | with_reducible apply State.countBy_lasting

theorem State.judgeTask_lasting {s0 : State} (k : Nat) {s : State} (h : Lasting s0 s) :
    Lasting s0 (State.judgeTask k s) := by
  unfold State.judgeTask
  repeat' first
    | with_reducible assumption | intro _ | with_reducible apply Lasting.ite
    | with_reducible apply State.count_lasting | with_reducible apply State.iff_lasting
    | with_reducible apply State.modTsk_lasting | with_reducible apply State.setTf_lasting

theorem State.setTaskFlag_lasting {s0 : State} (k : Nat) (b : Nat) {s : State} (h : Lasting s0 s) :
    Lasting s0 (State.setTaskFlag k b s) := by
  unfold State.setTaskFlag
  repeat' first
    | with_reducible exact h | with_reducible apply State.judgeTask_lasting | with_reducible apply State.putTw_lasting

theorem State.routeEvent_lasting {s0 : State} (e : Nat) {s : State} (h : Lasting s0 s) :
    Lasting s0 (State.routeEvent e s) := by
  unfold State.routeEvent
  repeat' first
    | with_reducible assumption | intro _ | with_reducible apply Lasting.ite
    | with_reducible apply State.count_lasting | with_reducible apply State.setTaskFlag_lasting

theorem State.setEvent_lasting {s0 : State} (p : Nat) (b : Nat) {s : State} (h : Lasting s0 s) :
    Lasting s0 (State.setEvent p b s) := by
  unfold State.setEvent
  repeat' first
    | with_reducible exact h | with_reducible apply State.routeEvent_lasting
    | with_reducible apply State.setFld_lasting

theorem State.putPennant_lasting {s0 : State} (p : Nat) (x : PennSt) {s : State} (h : Lasting s0 s) :
    Lasting s0 (State.putPennant p x s) := by
  unfold State.putPennant
  repeat' first | with_reducible exact h | with_reducible apply State.modPenn_lasting

theorem State.occur_lasting {s0 : State} (p : Nat) (b : Nat) {s : State} (h : Lasting s0 s) :
    Lasting s0 (State.occur p b s) := by
  unfold State.occur
  repeat' first
    | with_reducible assumption | intro _ | with_reducible apply Lasting.ite
    | with_reducible apply State.advanceSeq_lasting | with_reducible apply State.putPennant_lasting
    | with_reducible apply State.setEvent_lasting

theorem State.noteRaise_lasting {s0 : State} (p : Nat) (b : Nat) {s : State} (h : Lasting s0 s) :
    Lasting s0 (State.noteRaise p b s) := by
  unfold State.noteRaise
  repeat' first | with_reducible exact h | with_reducible apply State.modLimited_lasting

theorem State.sendOwned_lasting {s0 : State} (f : Nat) (v : Nat) {s : State} (h : Lasting s0 s) :
    Lasting s0 (State.sendOwned f v s) := by
  unfold State.sendOwned
  repeat' first
    | with_reducible assumption | exact fun _ => rfl | intro _ | with_reducible apply Lasting.ite
    | with_reducible apply State.count_lasting | with_reducible apply State.emit_lasting
    | with_reducible apply State.modHif_lasting

theorem State.sendVector.own_lasting {s0 : State} {s : State} (h : Lasting s0 s) :
    Lasting s0 (State.sendVector.own s) := by
  unfold State.sendVector.own
  repeat' first
    | with_reducible assumption | intro _ | with_reducible apply Lasting.ite
    | with_reducible apply State.count_lasting | with_reducible apply State.sendOwned_lasting
    | with_reducible apply Lasting.foldl | split

theorem State.sendVector.dropped_lasting {s0 : State} {s : State} (h : Lasting s0 s) :
    Lasting s0 (State.sendVector.dropped s) := by
  unfold State.sendVector.dropped
  repeat' first
    | with_reducible assumption | intro _ | with_reducible apply Lasting.ite
    | with_reducible apply State.count_lasting | with_reducible apply State.noteRaise_lasting
    | with_reducible apply State.occur_lasting | with_reducible apply State.sendVector.own_lasting

theorem State.sendVector_lasting {s0 : State} (v : Nat) {s : State} (h : Lasting s0 s) :
    Lasting s0 (State.sendVector v s) := by
  unfold State.sendVector
  repeat' first
    | with_reducible assumption | intro _ | with_reducible apply Lasting.ite
    | with_reducible apply State.sendOwned_lasting | with_reducible apply State.sendVector.dropped_lasting
    | with_reducible apply Lasting.foldl | split

theorem State.sendPennant_lasting {s0 : State} (p : Nat) {s : State} (h : Lasting s0 s) :
    Lasting s0 (State.sendPennant p s) := by
  unfold State.sendPennant
  repeat' first
    | with_reducible assumption | intro _ | with_reducible apply Lasting.ite
    | with_reducible apply State.sendVector_lasting

theorem State.raise_lasting {s0 : State} (p : Nat) (b : Nat) {s : State} (h : Lasting s0 s) :
    Lasting s0 (State.raise p b s) := by
  unfold State.raise
  repeat' first
    | with_reducible assumption | intro _ | with_reducible apply Lasting.ite
    | with_reducible apply State.occur_lasting | with_reducible apply State.sendPennant_lasting

theorem State.raiseMs_lasting {s0 : State} (p : Nat) (b : Nat) {s : State} (h : Lasting s0 s) :
    Lasting s0 (State.raiseMs p b s) := by
  unfold State.raiseMs
  repeat' first
    | with_reducible assumption | intro _ | with_reducible apply Lasting.ite
    | with_reducible apply State.noteRaise_lasting | with_reducible apply State.raise_lasting

theorem State.putEntry_lasting {s0 : State} (p : Nat) (t : Nat) (e : Nat) (x4 : Nat) (x5 : List Word) {s : State} (h
    : Lasting s0 s) :
       Lasting s0 (State.putEntry p t e x4 x5 s) := by
  induction x5 generalizing x4 s with
  | nil => exact h
  | cons x l ih =>
    unfold State.putEntry
    repeat' first | with_reducible exact h | with_reducible apply ih | with_reducible apply State.putTw_lasting

theorem State.ignored_lasting {s0 : State} (p : Nat) (off : Nat) (cause : Nat) {s : State} (h : Lasting s0 s) :
    Lasting s0 (State.ignored p off cause s) := by
  unfold State.ignored
  repeat' first
    | with_reducible exact h | with_reducible apply State.count_lasting | with_reducible apply State.raise_lasting
    | with_reducible apply State.setFld_lasting

theorem State.writePlain_lasting {s0 : State} (p : Nat) (off : Nat) (acc : Access) {s : State} (h : Lasting s0 s) :
    Lasting s0 (State.writePlain p off acc s) := by
  unfold State.writePlain
  repeat' first
    | with_reducible assumption | intro _ | with_reducible apply Lasting.ite | with_reducible apply State.iff_lasting
    | with_reducible apply State.ignored_lasting | with_reducible apply State.putReg_lasting
    | with_reducible apply Lasting.foldl | split

theorem State.resetPageRegs_lasting {s0 : State} (p : Nat) {s : State} (h : Lasting s0 s) :
    Lasting s0 (State.resetPageRegs p s) := by
  unfold State.resetPageRegs
  repeat' first
    | with_reducible assumption | intro _ | with_reducible apply Lasting.ite
    | with_reducible apply State.putReg_lasting | with_reducible apply Lasting.foldl | split

theorem State.setDomState_lasting {s0 : State} (d : Nat) (v : Nat) {s : State} (h : Lasting s0 s) :
    Lasting s0 (State.setDomState d v s) := by
  unfold State.setDomState
  repeat' first
    | with_reducible assumption | intro _ | with_reducible apply Lasting.ite
    | with_reducible apply State.setFld_lasting

theorem State.setRegion_lasting {s0 : State} (r : Nat) (v : Nat) {s : State} (h : Lasting s0 s) :
    Lasting s0 (State.setRegion r v s) := by
  unfold State.setRegion
  repeat' first | with_reducible exact h | with_reducible apply State.setFld_lasting

theorem State.stale_lasting {s0 : State} (p : Nat) {s : State} (h : Lasting s0 s) :
    Lasting s0 (State.stale p s) := by
  unfold State.stale
  repeat' first
    | with_reducible exact h | with_reducible apply State.count_lasting | with_reducible apply State.setFld_lasting

theorem State.darkAccess_lasting {s0 : State} (p : Nat) (isWrite : Bool) {s : State} (h : Lasting s0 s) :
    Lasting s0 (State.darkAccess p isWrite s) := by
  unfold State.darkAccess
  repeat' first
    | with_reducible exact h | with_reducible apply State.count_lasting | with_reducible apply State.setFld_lasting

theorem State.guarded_lasting {s0 : State} (p : Nat) (off : Nat) (acc : Access) {f : State → State} {s : State} (h :
    Lasting s0 s) (h4 : ∀ y0, Lasting s0 y0 → Lasting s0 (f y0)) :
       Lasting s0 (State.guarded p off acc f s) := by
  unfold State.guarded
  repeat' first
    | with_reducible assumption | intro _ | with_reducible apply Lasting.ite
    | with_reducible apply State.darkAccess_lasting | with_reducible apply State.ignored_lasting
    | with_reducible apply h4 | with_reducible apply Lasting.foldl | split

theorem State.stageWord.commit_lasting {s0 : State} (p : Nat) (base : Nat) (x3 : Nat) {s : State} (h : Lasting s0 s) :
    Lasting s0 (State.stageWord.commit p base x3 s) := by
  induction x3 generalizing  s with
  | zero => exact h
  | succ n ih =>
    unfold State.stageWord.commit
    repeat' first
      | with_reducible assumption | with_reducible apply ih | intro _ | with_reducible apply Lasting.ite
      | with_reducible apply State.modRf_lasting | with_reducible apply State.putReg_lasting
      | with_reducible apply Lasting.foldl | split

theorem State.stageWord_lasting {s0 : State} (p : Nat) (base : Nat) (n : Nat) (i : Nat) (v : Word) {s : State} (h :
    Lasting s0 s) :
       Lasting s0 (State.stageWord p base n i v s) := by
  unfold State.stageWord
  repeat' first
    | with_reducible assumption | intro _ | with_reducible apply Lasting.ite
    | with_reducible apply State.modRf_lasting | with_reducible apply State.putReg_lasting
    | with_reducible apply State.stageWord.commit_lasting

theorem State.modFn_lasting {s0 : State} (f : Nat) (g : FnSt → FnSt) {s : State} (h : Lasting s0 s) :
    Lasting s0 (State.modFn f g s) := by
  unfold State.modFn
  repeat' first | with_reducible exact h | exact fun _ => rfl | with_reducible apply State.modHif_lasting

theorem State.pennantHoldEnd_lasting {s0 : State} (p : Nat) {s : State} (h : Lasting s0 s) :
    Lasting s0 (State.pennantHoldEnd p s) := by
  unfold State.pennantHoldEnd
  repeat' first
    | with_reducible assumption | intro _ | with_reducible apply Lasting.ite
    | with_reducible apply State.advanceSeq_lasting | with_reducible apply State.iff_lasting
    | with_reducible apply State.putPennant_lasting | with_reducible apply State.sendPennant_lasting

end Sys2Proof.Machine
end

