-- ==== Sys2Proof/Laws/LastingFrames.lean ====
section
/-! SUPPORT. What leaves what lasts (Laws/Lasting.lean): line security, ports, the store, the upstream scheduler, the tier, snapshots, performance bins, the classifier. -/

namespace Sys2Proof.Machine

theorem State.setPaused_lasting {s0 : State} (p : Nat) (n : Nat) (on : Bool) {s : State} (h : Lasting s0 s) :
    Lasting s0 (State.setPaused p n on s) := by
  unfold State.setPaused
  repeat' first | with_reducible exact h | with_reducible apply State.setPf_lasting

theorem State.pauseTake_lasting {s0 : State} (p : Nat) (ps : List (Nat × Nat)) {s : State} (h : Lasting s0 s) :
    Lasting s0 (State.pauseTake p ps s) := by
  unfold State.pauseTake
  repeat' first
    | with_reducible assumption | intro _ | with_reducible apply Lasting.ite
    | with_reducible apply State.count_lasting | with_reducible apply State.iff_lasting
    | with_reducible apply State.modUni_lasting | with_reducible apply State.raiseMs_lasting
    | with_reducible apply State.setPaused_lasting | with_reducible apply Lasting.foldl | split

theorem State.macControl_lasting {s0 : State} (p : Nat) (bs : Bytes) {s : State} (h : Lasting s0 s) :
    Lasting s0 (State.macControl p bs s) := by
  unfold State.macControl
  repeat' first
    | with_reducible assumption | intro _ | with_reducible apply Lasting.ite
    | with_reducible apply State.count_lasting | with_reducible apply State.pauseTake_lasting
    | with_reducible apply Lasting.foldl | split

theorem State.sendPause_lasting {s0 : State} (p : Nat) (n : Nat) (xoff : Bool) {s : State} (h : Lasting s0 s) :
    Lasting s0 (State.sendPause p n xoff s) := by
  unfold State.sendPause
  repeat' first
    | with_reducible assumption | intro _ | with_reducible apply State.count_lasting
    | with_reducible apply State.emit_lasting | with_reducible apply State.iff_lasting
    | with_reducible apply State.macControl_lasting | with_reducible apply State.modUni_lasting
    | with_reducible apply State.raiseMs_lasting | with_reducible apply State.setPf_lasting

theorem State.pauseSend_lasting {s0 : State} (p : Nat) {s : State} (h : Lasting s0 s) :
    Lasting s0 (State.pauseSend p s) := by
  unfold State.pauseSend
  repeat' first
    | with_reducible assumption | intro _ | with_reducible apply Lasting.ite
    | with_reducible apply State.modUni_lasting | with_reducible apply State.sendPause_lasting
    | with_reducible apply Lasting.foldl | split

theorem State.pauseFlush_lasting {s0 : State} (p : Nat) {s : State} (h : Lasting s0 s) :
    Lasting s0 (State.pauseFlush p s) := by
  unfold State.pauseFlush
  repeat' first
    | with_reducible exact h | with_reducible apply State.iff_lasting | with_reducible apply State.pauseSend_lasting

theorem State.pauseAsk_lasting {s0 : State} (p : Nat) (n : Nat) (xoff : Bool) {s : State} (h : Lasting s0 s) :
    Lasting s0 (State.pauseAsk p n xoff s) := by
  unfold State.pauseAsk
  repeat' first
    | with_reducible exact h | with_reducible apply State.modUni_lasting
    | with_reducible apply State.pauseFlush_lasting

theorem State.pfcEntry_lasting {s0 : State} (p : Nat) (n : Nat) {s : State} (h : Lasting s0 s) :
    Lasting s0 (State.pfcEntry p n s) := by
  unfold State.pfcEntry
  repeat' first
    | with_reducible assumption | intro _ | with_reducible apply Lasting.ite
    | with_reducible apply State.pauseAsk_lasting | with_reducible apply State.setTf_lasting

theorem State.pfcJudge_lasting {s0 : State} (p : Nat) {s : State} (h : Lasting s0 s) :
    Lasting s0 (State.pfcJudge p s) := by
  unfold State.pfcJudge
  repeat' first
    | with_reducible assumption | intro _ | with_reducible apply Lasting.ite
    | with_reducible apply State.pfcEntry_lasting | with_reducible apply Lasting.foldl | split

theorem State.pfcFor_lasting {s0 : State} (f : Frame) {s : State} (h : Lasting s0 s) :
    Lasting s0 (State.pfcFor f s) := by
  unfold State.pfcFor
  repeat' first
    | with_reducible assumption | intro _ | with_reducible apply Lasting.ite
    | with_reducible apply State.pfcJudge_lasting

theorem State.putFrame_lasting {s0 : State} (id : Nat) (f : Option Frame) {s : State} (h : Lasting s0 s) :
    Lasting s0 (State.putFrame id f s) := by
  unfold State.putFrame
  repeat' first | with_reducible exact h | with_reducible apply State.modSto_lasting

theorem State.returnCells_lasting {s0 : State} (tenant : Nat) (cells : List Nat) {s : State} (h : Lasting s0 s) :
    Lasting s0 (State.returnCells tenant cells s) := by
  unfold State.returnCells
  repeat' first
    | with_reducible exact h | with_reducible apply State.countBy_lasting | with_reducible apply State.modSto_lasting
    | with_reducible apply State.setFld_lasting | with_reducible apply State.setTf_lasting

theorem State.freeFrame_lasting {s0 : State} (id : Nat) {s : State} (h : Lasting s0 s) :
    Lasting s0 (State.freeFrame id s) := by
  unfold State.freeFrame
  repeat' first
    | with_reducible assumption | intro _ | with_reducible apply Lasting.ite
    | with_reducible apply State.pfcFor_lasting | with_reducible apply State.putFrame_lasting
    | with_reducible apply State.returnCells_lasting | with_reducible apply Lasting.foldl | split

theorem State.releaseRef_lasting {s0 : State} (c : Copy) {s : State} (h : Lasting s0 s) :
    Lasting s0 (State.releaseRef c s) := by
  unfold State.releaseRef
  repeat' first
    | with_reducible assumption | intro _ | with_reducible apply Lasting.ite
    | with_reducible apply State.freeFrame_lasting | with_reducible apply State.modSto_lasting
    | with_reducible apply State.putFrame_lasting | with_reducible apply State.setFld_lasting
    | with_reducible apply Lasting.foldl | split | with_reducible apply Lasting.id | dsimp only

theorem State.endProtected_lasting {s0 : State} (c : Copy) {cause : State → State} {s : State} (h : Lasting s0 s)
    (h2 : ∀ y0, Lasting s0 y0 → Lasting s0 (cause y0)) :
       Lasting s0 (State.endProtected c cause s) := by
  unfold State.endProtected
  repeat' first
    | with_reducible assumption | intro _ | with_reducible apply Lasting.ite
    | with_reducible apply State.count_lasting | with_reducible apply State.releaseRef_lasting
    | with_reducible apply h2

theorem State.showCopies_lasting {s0 : State} (q : Nat) {s : State} (h : Lasting s0 s) :
    Lasting s0 (State.showCopies q s) := by
  unfold State.showCopies
  repeat' first
    | with_reducible assumption | intro _ | with_reducible apply Lasting.ite
    | with_reducible apply State.setTf_lasting

theorem State.showQueue_lasting {s0 : State} (q : Nat) {s : State} (h : Lasting s0 s) :
    Lasting s0 (State.showQueue q s) := by
  unfold State.showQueue
  repeat' first
    | with_reducible exact h | with_reducible apply State.setTf_lasting
    | with_reducible apply State.showCopies_lasting

theorem State.judgePromotion_lasting {s0 : State} (q : Nat) {s : State} (h : Lasting s0 s) :
    Lasting s0 (State.judgePromotion q s) := by
  unfold State.judgePromotion
  repeat' first
    | with_reducible assumption | intro _ | with_reducible apply Lasting.ite
    | with_reducible apply State.count_lasting | with_reducible apply State.raiseMs_lasting
    | with_reducible apply State.setFld_lasting | with_reducible apply State.setTf_lasting

theorem State.setDeficit_lasting {s0 : State} (t : Tree) (q : Nat) (d : Int) {s : State} (h : Lasting s0 s) :
    Lasting s0 (State.setDeficit t q d s) := by
  unfold State.setDeficit
  repeat' first | with_reducible exact h | with_reducible apply State.modUsch_lasting

theorem State.settleUp_lasting {s0 : State} (q : Nat) {s : State} (h : Lasting s0 s) :
    Lasting s0 (State.settleUp q s) := by
  unfold State.settleUp
  repeat' first
    | with_reducible exact h | with_reducible apply State.iff_lasting | with_reducible apply State.setDeficit_lasting

theorem State.settleDown_lasting {s0 : State} (q : Nat) {s : State} (h : Lasting s0 s) :
    Lasting s0 (State.settleDown q s) := by
  unfold State.settleDown
  repeat' first
    | with_reducible assumption | intro _ | with_reducible apply State.iff_lasting
    | with_reducible apply State.modSto_lasting

theorem State.settleQueue_lasting {s0 : State} (q : Nat) {s : State} (h : Lasting s0 s) :
    Lasting s0 (State.settleQueue q s) := by
  unfold State.settleQueue
  repeat' first
    | with_reducible assumption | intro _ | with_reducible apply Lasting.ite
    | with_reducible apply State.judgePromotion_lasting | with_reducible apply State.modSto_lasting
    | with_reducible apply State.settleDown_lasting | with_reducible apply State.settleUp_lasting
    | with_reducible apply State.showCopies_lasting | with_reducible apply State.showQueue_lasting

theorem State.setQueueBytes_lasting {s0 : State} (q : Nat) (n : Nat) {s : State} (h : Lasting s0 s) :
    Lasting s0 (State.setQueueBytes q n s) := by
  unfold State.setQueueBytes
  repeat' first
    | with_reducible assumption | intro _ | with_reducible apply Lasting.ite
    | with_reducible apply State.modSto_lasting | with_reducible apply State.putTw_lasting
    | with_reducible apply State.setTf_lasting

theorem State.putList_lasting {s0 : State} (k : Nat) (l : List Copy) {s : State} (h : Lasting s0 s) :
    Lasting s0 (State.putList k l s) := by
  unfold State.putList
  repeat' first | with_reducible exact h | with_reducible apply State.modSto_lasting

theorem State.unlinkCopy_lasting {s0 : State} (k : Nat) (c : Copy) {s : State} (h : Lasting s0 s) :
    Lasting s0 (State.unlinkCopy k c s) := by
  unfold State.unlinkCopy
  repeat' first
    | with_reducible exact h | with_reducible apply State.putList_lasting
    | with_reducible apply State.setQueueBytes_lasting | with_reducible apply State.settleQueue_lasting

theorem State.countDrop_lasting {s0 : State} (counter : Nat) (c : Copy) {s : State} (h : Lasting s0 s) :
    Lasting s0 (State.countDrop counter c s) := by
  unfold State.countDrop
  repeat' first
    | with_reducible assumption | intro _ | with_reducible apply State.count_lasting
    | with_reducible apply State.iff_lasting | with_reducible apply State.modSto_lasting

theorem State.endCopy_lasting {s0 : State} (counter : Nat) (c : Copy) {s : State} (h : Lasting s0 s) :
    Lasting s0 (State.endCopy counter c s) := by
  unfold State.endCopy
  repeat' first
    | with_reducible assumption | intro _ | with_reducible apply Lasting.ite
    | with_reducible apply State.countDrop_lasting | with_reducible apply State.endProtected_lasting
    | with_reducible apply State.releaseRef_lasting

theorem State.debitShapers_lasting {s0 : State} (q : Nat) (n : Nat) {s : State} (h : Lasting s0 s) :
    Lasting s0 (State.debitShapers q n s) := by
  unfold State.debitShapers
  repeat' first | with_reducible exact h | with_reducible apply State.modUsch_lasting

theorem State.showPn_lasting {s0 : State} (c : Nat) (k : Nat) {s : State} (h : Lasting s0 s) :
    Lasting s0 (State.showPn c k s) := by
  unfold State.showPn
  repeat' first | with_reducible exact h | with_reducible apply State.putTw_lasting

theorem State.setSelector_lasting {s0 : State} (c : Nat) (v : Nat) {s : State} (h : Lasting s0 s) :
    Lasting s0 (State.setSelector c v s) := by
  unfold State.setSelector
  repeat' first
    | with_reducible exact h | with_reducible apply State.modLsec_lasting | with_reducible apply State.setTf_lasting

theorem State.takePn_lasting {s0 : State} (c : Nat) (k : Nat) {s : State} (h : Lasting s0 s) :
    Lasting s0 (State.takePn c k s) := by
  unfold State.takePn
  repeat' first
    | with_reducible exact h | with_reducible apply State.iff_lasting | with_reducible apply State.modLsec_lasting
    | with_reducible apply State.setSelector_lasting | with_reducible apply State.showPn_lasting

theorem State.tag_lasting {s0 : State} (t : Tree) (fc : Nat) (c : Copy) (offset : Nat) (len : Nat) (last : Bool) {s
    : State} (h : Lasting s0 s) :
       Lasting s0 (State.tag t fc c offset len last s).1 := by
  unfold State.tag
  repeat' first
    | with_reducible assumption | intro _ | with_reducible apply Lasting.ite | with_reducible apply Lasting.ite_fst
    | with_reducible apply State.modGrt_lasting | with_reducible apply State.takePn_lasting
    | with_reducible apply Lasting.foldl | split | with_reducible apply Lasting.id | dsimp only

theorem Fill.placeOne_lasting {s0 : State} (t : Tree) (fc : Nat) (q : Nat) {s : Fill} (h : Lasting s0 s.s) :
    ∀ out, Fill.placeOne t fc q s = some out → Lasting s0 out.s := by
  intro out e
  unfold Fill.placeOne at e
  dsimp only at e
  repeat' split at e
  all_goals first
    | cases e; done
    | (injection e with e; subst e)
  all_goals
    repeat' first
      | with_reducible exact h | with_reducible apply State.count_lasting
      | with_reducible apply State.debitShapers_lasting | with_reducible apply State.endCopy_lasting
      | with_reducible apply State.endProtected_lasting | with_reducible apply State.putList_lasting
      | with_reducible apply State.setDeficit_lasting | with_reducible apply State.setQueueBytes_lasting
      | with_reducible apply State.settleQueue_lasting | with_reducible apply State.showCopies_lasting
      | with_reducible apply State.tag_lasting | with_reducible apply State.unlinkCopy_lasting

theorem Fill.turn_lasting {s0 : State} (a1 : Tree) (a2 : Nat) (a3 : Nat) (a4 : Nat) {f : Fill} (h : Lasting s0 f.s) :
    Lasting s0 (Fill.turn a1 a2 a3 a4 f).s := by
  induction a4 generalizing f with
  | zero => exact h
  | succ n ih =>
    unfold Fill.turn
    split
    · split
      · rename_i e; exact ih (Fill.placeOne_lasting _ _ _ h _ e)
      · exact h
    · exact h

theorem Fill.step_lasting {s0 : State} (t : Tree) (a : Nat) (fc : Nat) (qs : List Nat) {s : Fill} (h : Lasting s0
    s.s) :
       ∀ out, Fill.step t a fc qs s = some out → Lasting s0 out.s := by
  intro out e
  unfold Fill.step at e
  dsimp only at e
  repeat' split at e
  all_goals first
    | cases e; done
    | (injection e with e; subst e)
  all_goals
    repeat' first
      | with_reducible exact h | with_reducible apply Fill.turn_lasting | with_reducible apply State.modUsch_lasting
      | with_reducible apply State.setDeficit_lasting

theorem Fill.run_lasting {s0 : State} (a1 : Tree) (a2 : Nat) (a3 : Nat) (a4 : List Nat) (a5 : Nat) {f : Fill}
    (h : Lasting s0 f.s) : Lasting s0 (Fill.run a1 a2 a3 a4 a5 f).s := by
  induction a5 generalizing f with
  | zero => exact h
  | succ n ih =>
    unfold Fill.run
    split
    · rename_i e; exact ih (Fill.step_lasting _ _ _ _ h _ e)
    · exact h

theorem State.putSending_lasting {s0 : State} (port : Nat) (c : Option Copy) {s : State} (h : Lasting s0 s) :
    Lasting s0 (State.putSending port c s) := by
  unfold State.putSending
  repeat' first | with_reducible exact h | with_reducible apply State.modSto_lasting

theorem State.handUni_lasting {s0 : State} (p : Nat) (bs : Bytes) (err : Bool) {s : State} (h : Lasting s0 s) :
    Lasting s0 (State.handUni p bs err s) := by
  unfold State.handUni
  repeat' first
    | with_reducible assumption | intro _ | with_reducible apply State.iff_lasting
    | with_reducible apply State.modCls_lasting | with_reducible apply State.modSto_lasting
    | with_reducible apply State.modUni_lasting

theorem State.uniBadFcs_lasting {s0 : State} (p : Nat) (bs : Bytes) {s : State} (h : Lasting s0 s) :
    Lasting s0 (State.uniBadFcs p bs s) := by
  unfold State.uniBadFcs
  repeat' first
    | with_reducible exact h | with_reducible apply State.count_lasting | with_reducible apply State.handUni_lasting
    | with_reducible apply State.raiseMs_lasting

theorem State.uniAborted_lasting {s0 : State} (p : Nat) (bs : Bytes) {s : State} (h : Lasting s0 s) :
    Lasting s0 (State.uniAborted p bs s) := by
  unfold State.uniAborted
  repeat' first
    | with_reducible assumption | intro _ | with_reducible apply Lasting.ite
    | with_reducible apply State.count_lasting | with_reducible apply State.handUni_lasting
    | with_reducible apply State.uniBadFcs_lasting

theorem State.cutCopy_lasting {s0 : State} (port : Nat) (c : Copy) {s : State} (h : Lasting s0 s) :
    Lasting s0 (State.cutCopy port c s) := by
  unfold State.cutCopy
  repeat' first
    | with_reducible exact h | with_reducible apply State.count_lasting | with_reducible apply State.emit_lasting
    | with_reducible apply State.iff_lasting | with_reducible apply State.modSto_lasting
    | with_reducible apply State.pauseFlush_lasting | with_reducible apply State.putSending_lasting
    | with_reducible apply State.uniAborted_lasting

theorem State.abortCopy_lasting {s0 : State} (port : Nat) (c : Copy) {s : State} (h : Lasting s0 s) :
    Lasting s0 (State.abortCopy port c s) := by
  unfold State.abortCopy
  repeat' first
    | with_reducible exact h | with_reducible apply State.count_lasting | with_reducible apply State.cutCopy_lasting
    | with_reducible apply State.raise_lasting | with_reducible apply State.releaseRef_lasting

theorem State.modFrame_lasting {s0 : State} (id : Nat) (g : Frame → Frame) {s : State} (h : Lasting s0 s) :
    Lasting s0 (State.modFrame id g s) := by
  unfold State.modFrame
  repeat' first
    | with_reducible assumption | intro _ | with_reducible apply Lasting.ite
    | with_reducible apply State.putFrame_lasting | with_reducible apply Lasting.foldl | split

theorem State.pmMark_lasting {s0 : State} (r : Rx) (day : Bool) (slot : Nat) (b : Nat) {s : State} (h : Lasting s0
    s) :
       Lasting s0 (State.pmMark r day slot b s) := by
  unfold State.pmMark
  repeat' first | with_reducible exact h | with_reducible apply State.setTf_lasting

theorem State.pmMarkAll_lasting {s0 : State} (b : Nat) {s : State} (h : Lasting s0 s) :
    Lasting s0 (State.pmMarkAll b s) := by
  unfold State.pmMarkAll
  repeat' first
    | with_reducible assumption | intro _ | with_reducible apply Lasting.ite
    | with_reducible apply State.pmMark_lasting | with_reducible apply Lasting.foldl | split

theorem State.snapReach_lasting {s0 : State} (late : Bool) (instant : Nat) {s : State} (h : Lasting s0 s) :
    Lasting s0 (State.snapReach late instant s) := by
  unfold State.snapReach
  repeat' first
    | with_reducible assumption | intro _ | with_reducible apply Lasting.ite
    | with_reducible apply State.modSnap_lasting

theorem State.setBank_lasting {s0 : State} (b : Nat) (m : Sparse Nat) {s : State} (h : Lasting s0 s) :
    Lasting s0 (State.setBank b m s) := by
  unfold State.setBank
  repeat' first | with_reducible exact h | with_reducible apply State.modCnt_lasting

theorem State.capture_lasting {s0 : State} (counts : Sparse Nat) (flags : Sparse Nat) {s : State} (h : Lasting s0 s) :
    Lasting s0 (State.capture counts flags s) := by
  unfold State.capture
  repeat' first
    | with_reducible assumption | intro _ | with_reducible apply Lasting.ite
    | with_reducible apply State.modSnap_lasting | with_reducible apply State.putTw_lasting
    | with_reducible apply State.setBank_lasting | with_reducible apply Lasting.foldl | split

theorem State.snapCapture_lasting {s0 : State} (late : Bool) (unsync : Bool) (instant : Nat) (counts : Sparse Nat)
    (flags : Sparse Nat) {s : State} (h : Lasting s0 s) :
       Lasting s0 (State.snapCapture late unsync instant counts flags s) := by
  unfold State.snapCapture
  repeat' first
    | with_reducible exact h | with_reducible apply State.capture_lasting | with_reducible apply State.putTime_lasting
    | with_reducible apply State.setFld_lasting

theorem State.snapFire_lasting {s0 : State} {s : State} (h : Lasting s0 s) :
    Lasting s0 (State.snapFire s) := by
  unfold State.snapFire
  repeat' first
    | with_reducible assumption | intro _ | with_reducible apply Lasting.ite
    | with_reducible apply State.snapCapture_lasting | with_reducible apply Lasting.foldl | split

theorem State.pmCloseBin_lasting {s0 : State} (r : Rx) (day : Bool) (skipped : Nat) {s : State} (h : Lasting s0 s) :
    Lasting s0 (State.pmCloseBin r day skipped s) := by
  unfold State.pmCloseBin
  repeat' first
    | with_reducible exact h | with_reducible apply State.count_lasting | with_reducible apply State.iff_lasting
    | with_reducible apply State.pmMark_lasting | with_reducible apply State.setTf_lasting

theorem State.pmOpenBin_lasting {s0 : State} (r : Rx) (day : Bool) (k : Nat) (seq : Nat) (sec : Nat) {s : State} (h
    : Lasting s0 s) :
       Lasting s0 (State.pmOpenBin r day k seq sec s) := by
  unfold State.pmOpenBin
  repeat' first | with_reducible exact h | with_reducible apply State.putEntry_lasting

theorem State.pmEdge_lasting {s0 : State} (day : Bool) (skipped : Nat) {s : State} (h : Lasting s0 s) :
    Lasting s0 (State.pmEdge day skipped s) := by
  unfold State.pmEdge
  repeat' first
    | with_reducible assumption | intro _ | with_reducible apply Lasting.ite | with_reducible apply State.iff_lasting
    | with_reducible apply State.modPm_lasting | with_reducible apply State.pmCloseBin_lasting
    | with_reducible apply State.pmOpenBin_lasting | with_reducible apply State.raise_lasting
    | with_reducible apply State.setFld_lasting | with_reducible apply Lasting.foldl | split

theorem State.pmPassed_lasting {s0 : State} (day : Bool) {s : State} (h : Lasting s0 s) :
    Lasting s0 (State.pmPassed day s) := by
  unfold State.pmPassed
  repeat' first
    | with_reducible assumption | intro _ | with_reducible apply Lasting.ite
    | with_reducible apply State.pmEdge_lasting

theorem State.showTier_lasting {s0 : State} {s : State} (h : Lasting s0 s) :
    Lasting s0 (State.showTier s) := by
  unfold State.showTier
  repeat' first | with_reducible exact h | with_reducible apply State.setFld_lasting

theorem State.putTier_lasting {s0 : State} (q : Nat) (c : List Extent) {s : State} (h : Lasting s0 s) :
    Lasting s0 (State.putTier q c s) := by
  unfold State.putTier
  repeat' first
    | with_reducible exact h | with_reducible apply State.modXtr_lasting | with_reducible apply State.putTw_lasting
    | with_reducible apply State.showTier_lasting

theorem State.releaseTier_lasting {s0 : State} (q : Nat) {s : State} (h : Lasting s0 s) :
    Lasting s0 (State.releaseTier q s) := by
  unfold State.releaseTier
  repeat' first
    | with_reducible exact h | with_reducible apply State.countBy_lasting | with_reducible apply State.putTier_lasting

theorem State.setCtxGcm_lasting {s0 : State} (c : Nat) (on : Bool) {s : State} (h : Lasting s0 s) :
    Lasting s0 (State.setCtxGcm c on s) := by
  unfold State.setCtxGcm
  repeat' first
    | with_reducible assumption | intro _ | with_reducible apply Lasting.ite
    | with_reducible apply State.setFld_lasting | with_reducible apply State.setTf_lasting

theorem State.clearPn_lasting {s0 : State} (c : Nat) (k : Nat) {s : State} (h : Lasting s0 s) :
    Lasting s0 (State.clearPn c k s) := by
  unfold State.clearPn
  repeat' first | with_reducible exact h | with_reducible apply State.modLsec_lasting

theorem State.dropSlot_lasting {s0 : State} (c : Nat) (k : Nat) {s : State} (h : Lasting s0 s) :
    Lasting s0 (State.dropSlot c k s) := by
  unfold State.dropSlot
  repeat' first
    | with_reducible exact h | with_reducible apply State.clearPn_lasting
    | with_reducible apply State.putEntry_lasting

theorem State.clearCtx_lasting {s0 : State} (c : Nat) {s : State} (h : Lasting s0 s) :
    Lasting s0 (State.clearCtx c s) := by
  unfold State.clearCtx
  repeat' first
    | with_reducible exact h | with_reducible apply State.dropSlot_lasting
    | with_reducible apply State.setCtxGcm_lasting | with_reducible apply State.setSelector_lasting

theorem State.clearTenantKeys_lasting {s0 : State} (t : Tree) (n : Nat) {s : State} (h : Lasting s0 s) :
    Lasting s0 (State.clearTenantKeys t n s) := by
  unfold State.clearTenantKeys
  repeat' first | with_reducible exact h | with_reducible apply State.clearCtx_lasting

theorem State.putMgmtKey_lasting {s0 : State} (t : Tree) (k : Nat) (key : Bytes) {s : State} (h : Lasting s0 s) :
    Lasting s0 (State.putMgmtKey t k key s) := by
  unfold State.putMgmtKey
  repeat' first | with_reducible exact h | with_reducible apply State.putEntry_lasting

theorem State.clearTreeKeys_lasting {s0 : State} (t : Tree) {s : State} (h : Lasting s0 s) :
    Lasting s0 (State.clearTreeKeys t s) := by
  unfold State.clearTreeKeys
  repeat' first
    | with_reducible assumption | intro _ | with_reducible apply Lasting.ite
    | with_reducible apply State.clearCtx_lasting | with_reducible apply Lasting.foldl | split

theorem State.dropSending_lasting {s0 : State} (ok : Copy → Bool) (counter : Nat) {s : State} (h : Lasting s0 s) :
    Lasting s0 (State.dropSending ok counter s) := by
  unfold State.dropSending
  repeat' first
    | with_reducible assumption | intro _ | with_reducible apply Lasting.ite
    | with_reducible apply State.abortCopy_lasting | with_reducible apply State.cutCopy_lasting
    | with_reducible apply State.endCopy_lasting | with_reducible apply State.putSending_lasting
    | with_reducible apply Lasting.foldl | split

theorem State.endWaiting_lasting {s0 : State} (counter : Nat) (c : Copy) {s : State} (h : Lasting s0 s) :
    Lasting s0 (State.endWaiting counter c s) := by
  unfold State.endWaiting
  repeat' first
    | with_reducible assumption | intro _ | with_reducible apply Lasting.ite
    | with_reducible apply State.count_lasting | with_reducible apply State.modSto_lasting
    | with_reducible apply State.releaseRef_lasting | with_reducible apply State.setQueueBytes_lasting

theorem State.dropWaitingOf_lasting {s0 : State} (ok : Copy → Bool) (id : Nat) (counter : Nat) {s : State} (h :
    Lasting s0 s) :
       Lasting s0 (State.dropWaitingOf ok id counter s) := by
  unfold State.dropWaitingOf
  repeat' first
    | with_reducible assumption | intro _ | with_reducible apply Lasting.ite
    | with_reducible apply State.endWaiting_lasting | with_reducible apply State.modFrame_lasting
    | with_reducible apply Lasting.foldl | split

theorem State.dropListed_lasting {s0 : State} (ok : Copy → Bool) (counter : Nat) {s : State} (h : Lasting s0 s) :
    Lasting s0 (State.dropListed ok counter s) := by
  unfold State.dropListed
  repeat' first
    | with_reducible assumption | intro _ | with_reducible apply Lasting.ite
    | with_reducible apply State.endCopy_lasting | with_reducible apply State.unlinkCopy_lasting
    | with_reducible apply Lasting.foldl | split

theorem State.dropFrameCopies_lasting {s0 : State} (id : Nat) (counter : Nat) {s : State} (h : Lasting s0 s) :
    Lasting s0 (State.dropFrameCopies id counter s) := by
  unfold State.dropFrameCopies
  repeat' first
    | with_reducible assumption | intro _ | with_reducible apply Lasting.ite
    | with_reducible apply State.dropListed_lasting | with_reducible apply State.dropSending_lasting
    | with_reducible apply State.dropWaitingOf_lasting | with_reducible apply Lasting.foldl | split
    | with_reducible apply Lasting.id | dsimp only

theorem State.ingressError_lasting {s0 : State} (id : Nat) {s : State} (h : Lasting s0 s) :
    Lasting s0 (State.ingressError id s) := by
  unfold State.ingressError
  repeat' first
    | with_reducible assumption | intro _ | with_reducible apply Lasting.ite
    | with_reducible apply State.dropFrameCopies_lasting | with_reducible apply State.putFrame_lasting
    | with_reducible apply Lasting.foldl | split

theorem State.setAdapting_lasting {s0 : State} (l : Nat) (on : Bool) {s : State} (h : Lasting s0 s) :
    Lasting s0 (State.setAdapting l on s) := by
  unfold State.setAdapting
  repeat' first
    | with_reducible exact h | with_reducible apply State.modUni_lasting | with_reducible apply State.setTf_lasting

theorem State.anBegin_lasting {s0 : State} (p : Nat) {s : State} (h : Lasting s0 s) :
    Lasting s0 (State.anBegin p s) := by
  unfold State.anBegin
  repeat' first
    | with_reducible assumption | intro _ | with_reducible apply State.emit_lasting
    | with_reducible apply State.iff_lasting

theorem State.linkFall_lasting {s0 : State} (p : Nat) {s : State} (h : Lasting s0 s) :
    Lasting s0 (State.linkFall p s) := by
  unfold State.linkFall
  repeat' first
    | with_reducible assumption | intro _ | with_reducible apply Lasting.ite
    | with_reducible apply State.abortCopy_lasting | with_reducible apply State.anBegin_lasting
    | with_reducible apply State.count_lasting | with_reducible apply State.ingressError_lasting
    | with_reducible apply State.modUni_lasting | with_reducible apply State.raise_lasting
    | with_reducible apply State.setAdapting_lasting | with_reducible apply State.setPf_lasting
    | with_reducible apply Lasting.foldl | split

theorem State.refreshPort_lasting {s0 : State} (p : Nat) {s : State} (h : Lasting s0 s) :
    Lasting s0 (State.refreshPort p s) := by
  unfold State.refreshPort
  repeat' first
    | with_reducible exact h | with_reducible apply State.anBegin_lasting | with_reducible apply State.iff_lasting
    | with_reducible apply State.linkFall_lasting | with_reducible apply State.raise_lasting
    | with_reducible apply State.setPf_lasting

theorem State.refreshPorts_lasting {s0 : State} {s : State} (h : Lasting s0 s) :
    Lasting s0 (State.refreshPorts s) := by
  unfold State.refreshPorts
  repeat' first
    | with_reducible assumption | intro _ | with_reducible apply Lasting.ite
    | with_reducible apply State.refreshPort_lasting | with_reducible apply Lasting.foldl | split

theorem State.drawCells_lasting {s0 : State} (tenant : Nat) (held : List Nat) (n : Nat) {s : State} (h : Lasting s0
    s) :
       Lasting s0 (State.drawCells tenant held n s) := by
  unfold State.drawCells
  repeat' first
    | with_reducible exact h | with_reducible apply State.countBy_lasting | with_reducible apply State.iff_lasting
    | with_reducible apply State.modSto_lasting | with_reducible apply State.raise_lasting
    | with_reducible apply State.setFld_lasting | with_reducible apply State.setTf_lasting

theorem State.spillCopy_lasting {s0 : State} (q : Nat) (c : Copy) {s : State} (h : Lasting s0 s) :
    ∀ out, State.spillCopy q c s = some out → Lasting s0 out := by
  intro out e
  unfold State.spillCopy at e
  dsimp only at e
  repeat' split at e
  all_goals first
    | cases e; done
    | (injection e with e; subst e)
  all_goals
    repeat' first
      | with_reducible exact h | with_reducible apply State.count_lasting | with_reducible apply State.countBy_lasting
      | with_reducible apply State.iff_lasting | with_reducible apply State.putTier_lasting
      | with_reducible apply State.raiseMs_lasting | with_reducible apply State.releaseRef_lasting
      | with_reducible apply State.setQueueBytes_lasting | with_reducible apply State.showQueue_lasting
      | with_reducible apply State.useFree_lasting

theorem State.appendCopy_lasting {s0 : State} (k : Nat) (c : Copy) {s : State} (h : Lasting s0 s) :
    Lasting s0 (State.appendCopy k c s) := by
  unfold State.appendCopy
  repeat' first | with_reducible exact h | with_reducible apply State.putList_lasting

theorem State.joinBacklog_lasting {s0 : State} (q : Nat) {s : State} (h : Lasting s0 s) :
    Lasting s0 (State.joinBacklog q s) := by
  unfold State.joinBacklog
  repeat' first
    | with_reducible assumption | intro _ | with_reducible apply Lasting.ite
    | with_reducible apply State.putList_lasting

theorem State.joinShared_lasting {s0 : State} (a1 : Nat) (a2 : Copy) {s : State} (h : Lasting s0 s) :
    Lasting s0 (State.joinShared a1 a2 s) := by
  unfold State.joinShared
  dsimp only
  have h1 := State.count_lasting cuUSCH h
  apply Lasting.ite (State.endCopy_lasting _ _ (State.setQueueBytes_lasting _ _ h1))
  apply Lasting.ite (State.endCopy_lasting _ _ (State.setQueueBytes_lasting _ _ h1))
  apply Lasting.ite
  · split
    · rename_i e
      split at e
      · cases e
      · exact State.spillCopy_lasting _ _ h1 _ e
    · exact State.showQueue_lasting _ (State.joinBacklog_lasting _ (State.raiseMs_lasting _ _ (State.count_lasting _
        (State.appendCopy_lasting _ _ h1))))
  · exact State.showQueue_lasting _ (State.appendCopy_lasting _ _ h1)

theorem State.joinDown_lasting {s0 : State} (c : Copy) {s : State} (h : Lasting s0 s) :
    Lasting s0 (State.joinDown c s) := by
  unfold State.joinDown
  repeat' first
    | with_reducible assumption | intro _ | with_reducible apply Lasting.ite
    | with_reducible apply State.appendCopy_lasting | with_reducible apply State.endCopy_lasting
    | with_reducible apply State.modSto_lasting | with_reducible apply State.setQueueBytes_lasting
    | with_reducible apply State.showCopies_lasting

theorem State.takeRef_lasting {s0 : State} (id : Nat) {s : State} (h : Lasting s0 s) :
    Lasting s0 (State.takeRef id s) := by
  unfold State.takeRef
  repeat' first
    | with_reducible exact h | with_reducible apply State.modFrame_lasting | with_reducible apply State.modSto_lasting
    | with_reducible apply State.setFld_lasting

theorem State.spillBacklog_lasting {s0 : State} (q : Nat) (x2 : Nat) {s : State} (h : Lasting s0 s) :
    Lasting s0 (State.spillBacklog q x2 s) := by
  induction x2 generalizing  s with
  | zero => exact h
  | succ n ih =>
    unfold State.spillBacklog
    repeat' first
      | with_reducible assumption | with_reducible apply ih | intro _ | with_reducible apply Lasting.ite
      | with_reducible apply State.endCopy_lasting | with_reducible apply State.putList_lasting
      | with_reducible apply State.setQueueBytes_lasting
      | (with_reducible refine State.spillCopy_lasting _ _ ?_ _ (by assumption)) | with_reducible apply Lasting.foldl
      | split

theorem State.backlogStep_lasting {s0 : State} (q : Nat) {s : State} (h : Lasting s0 s) :
    Lasting s0 (State.backlogStep q s) := by
  unfold State.backlogStep
  repeat' first
    | with_reducible assumption | intro _ | with_reducible apply Lasting.ite
    | with_reducible apply State.joinBacklog_lasting | with_reducible apply State.showQueue_lasting
    | with_reducible apply State.spillBacklog_lasting

theorem State.loseRecords_lasting {s0 : State} {s : State} (h : Lasting s0 s) :
    Lasting s0 (State.loseRecords s) := by
  unfold State.loseRecords
  repeat' first
    | with_reducible assumption | intro _ | with_reducible apply Lasting.ite
    | with_reducible apply State.backlogStep_lasting | with_reducible apply State.countBy_lasting
    | with_reducible apply State.modXtr_lasting | with_reducible apply State.putTier_lasting
    | with_reducible apply State.raise_lasting | with_reducible apply State.showTier_lasting
    | with_reducible apply Lasting.foldl | split

theorem State.loseTier_lasting {s0 : State} {s : State} (h : Lasting s0 s) :
    Lasting s0 (State.loseTier s) := by
  unfold State.loseTier
  repeat' first
    | with_reducible assumption | intro _ | with_reducible apply Lasting.ite
    | with_reducible apply State.loseRecords_lasting | with_reducible apply State.raise_lasting
    | with_reducible apply State.setFld_lasting | with_reducible apply Lasting.foldl | split

theorem State.dropWaiting_lasting {s0 : State} (ok : Nat → Bool) (counter : Copy → Nat) {s : State} (h : Lasting s0
    s) :
       Lasting s0 (State.dropWaiting ok counter s) := by
  unfold State.dropWaiting
  repeat' first
    | with_reducible assumption | intro _ | with_reducible apply Lasting.ite
    | with_reducible apply State.endWaiting_lasting | with_reducible apply State.modFrame_lasting
    | with_reducible apply Lasting.foldl | split

theorem State.noteAct_lasting {s0 : State} (id : Nat) (c : Option Classified) {s : State} (h : Lasting s0 s) :
    Lasting s0 (State.noteAct id c s) := by
  unfold State.noteAct
  repeat' first | with_reducible exact h | with_reducible apply State.modCls_lasting

theorem State.freeLast_lasting {s0 : State} {s : State} (h : Lasting s0 s) :
    Lasting s0 (State.freeLast s) := by
  unfold State.freeLast
  repeat' first | with_reducible exact h | with_reducible apply State.modCnt_lasting

theorem State.flowAnswer_lasting {s0 : State} (result : Nat) (index : Option Nat) {s : State} (h : Lasting s0 s) :
    Lasting s0 (State.flowAnswer result index s) := by
  unfold State.flowAnswer
  repeat' first
    | with_reducible assumption | intro _ | with_reducible apply Lasting.ite
    | with_reducible apply State.modFlow_lasting | with_reducible apply State.useFree_lasting
    | with_reducible apply Lasting.foldl | split

theorem State.setFlowUsed_lasting {s0 : State} (n : Nat) {s : State} (h : Lasting s0 s) :
    Lasting s0 (State.setFlowUsed n s) := by
  unfold State.setFlowUsed
  repeat' first
    | with_reducible exact h | with_reducible apply State.iff_lasting | with_reducible apply State.raise_lasting
    | with_reducible apply State.setFld_lasting

theorem State.flowCreate_lasting {s0 : State} (k : FlowKey) (flags : Nat) (w10 : Nat) {s : State} (h : Lasting s0 s) :
    Lasting s0 (State.flowCreate k flags w10 s).1 := by
  unfold State.flowCreate
  repeat' first
    | with_reducible assumption | intro _ | with_reducible apply Lasting.ite | with_reducible apply Lasting.ite_fst
    | with_reducible apply State.modFlow_lasting | with_reducible apply State.putEntry_lasting
    | with_reducible apply State.setFlowUsed_lasting | with_reducible apply State.useFree_lasting
    | with_reducible apply Lasting.foldl | split

theorem State.flowRemove_lasting {s0 : State} (e : Nat) {s : State} (h : Lasting s0 s) :
    Lasting s0 (State.flowRemove e s) := by
  unfold State.flowRemove
  repeat' first
    | with_reducible exact h | with_reducible apply State.modFlow_lasting
    | with_reducible apply State.putEntry_lasting | with_reducible apply State.setFlowUsed_lasting

theorem State.flowCommand_lasting {s0 : State} (op : Nat) {s : State} (h : Lasting s0 s) :
    Lasting s0 (State.flowCommand op s) := by
  unfold State.flowCommand
  repeat' first
    | with_reducible assumption | intro _ | with_reducible apply Lasting.ite
    | with_reducible apply State.count_lasting | with_reducible apply State.flowAnswer_lasting
    | with_reducible apply State.flowCreate_lasting | with_reducible apply State.flowRemove_lasting
    | with_reducible apply State.ignored_lasting | with_reducible apply State.setFld_lasting
    | with_reducible apply Lasting.foldl | split | with_reducible apply Lasting.id | dsimp only

theorem State.snapRefuse_lasting {s0 : State} (result : Nat) (idx : Nat) {s : State} (h : Lasting s0 s) :
    Lasting s0 (State.snapRefuse result idx s) := by
  unfold State.snapRefuse
  repeat' first
    | with_reducible exact h | with_reducible apply State.count_lasting | with_reducible apply State.setFld_lasting

theorem State.byRules_lasting {s0 : State} (f : InFrame) (x : Parsed) (l4ok : Bool) {s : State} (h : Lasting s0 s) :
    Lasting s0 (State.byRules f x l4ok s).1 := by
  unfold State.byRules
  repeat' first
    | with_reducible assumption | intro _ | with_reducible apply Lasting.ite | with_reducible apply Lasting.ite_fst
    | with_reducible apply State.count_lasting | with_reducible apply Lasting.foldl | split
    | with_reducible apply Lasting.id | dsimp only

theorem State.followUse_lasting {s0 : State} (e : Nat) {s : State} (h : Lasting s0 s) :
    Lasting s0 (State.followUse e s) := by
  unfold State.followUse
  repeat' first | with_reducible exact h | with_reducible apply State.modCls_lasting

theorem State.flowHit_lasting {s0 : State} (e : Nat) {s : State} (h : Lasting s0 s) :
    Lasting s0 (State.flowHit e s) := by
  unfold State.flowHit
  repeat' first
    | with_reducible exact h | with_reducible apply State.count_lasting | with_reducible apply State.modFlow_lasting
    | with_reducible apply State.putEntry_lasting

theorem State.showFollow_lasting {s0 : State} {s : State} (h : Lasting s0 s) :
    Lasting s0 (State.showFollow s) := by
  unfold State.showFollow
  repeat' first | with_reducible exact h | with_reducible apply State.setFld_lasting

theorem State.followRemove_lasting {s0 : State} (e : Nat) {s : State} (h : Lasting s0 s) :
    Lasting s0 (State.followRemove e s) := by
  unfold State.followRemove
  repeat' first
    | with_reducible exact h | with_reducible apply State.modCls_lasting | with_reducible apply State.putEntry_lasting
    | with_reducible apply State.showFollow_lasting

theorem State.learn_lasting {s0 : State} (k : FlowKey) (rule : Option Nat) (action : Nat) (saturated : Bool) {s :
    State} (h : Lasting s0 s) :
       Lasting s0 (State.learn k rule action saturated s).1 := by
  unfold State.learn
  repeat' first
    | with_reducible assumption | intro _ | with_reducible apply Lasting.ite | with_reducible apply Lasting.ite_fst
    | with_reducible apply State.count_lasting | with_reducible apply State.flowCreate_lasting
    | with_reducible apply State.raiseMs_lasting | with_reducible apply Lasting.foldl | split
    | with_reducible apply Lasting.id | dsimp only

theorem State.followRecord_lasting {s0 : State} (f : InFrame) (x : Parsed) (action : Nat) (flow : Option Nat) {s :
    State} (h : Lasting s0 s) :
       Lasting s0 (State.followRecord f x action flow s) := by
  unfold State.followRecord
  repeat' first
    | with_reducible assumption | intro _ | with_reducible apply Lasting.ite
    | with_reducible apply State.count_lasting | with_reducible apply State.followUse_lasting
    | with_reducible apply State.putEntry_lasting | with_reducible apply State.raiseMs_lasting
    | with_reducible apply State.showFollow_lasting | with_reducible apply State.useFree_lasting
    | with_reducible apply Lasting.foldl | split

theorem State.findAction_lasting {s0 : State} (f : InFrame) (x : Parsed) (saturated : Bool) {s : State} (h : Lasting
    s0 s) :
       Lasting s0 (State.findAction f x saturated s).1 := by
  unfold State.findAction
  repeat' first
    | with_reducible assumption | intro _ | with_reducible apply Lasting.ite | with_reducible apply Lasting.ite_fst
    | with_reducible apply State.byRules_lasting | with_reducible apply State.count_lasting
    | with_reducible apply State.flowHit_lasting | with_reducible apply State.followRecord_lasting
    | with_reducible apply State.followRemove_lasting | with_reducible apply State.followUse_lasting
    | with_reducible apply State.iff_lasting | with_reducible apply State.learn_lasting
    | with_reducible apply State.raiseMs_lasting | with_reducible apply Lasting.foldl | split
    | with_reducible apply Lasting.id | dsimp only

theorem State.polUpdate_lasting {s0 : State} (k : Nat) (ns : Nat) {s : State} (h : Lasting s0 s) :
    Lasting s0 (State.polUpdate k ns s) := by
  unfold State.polUpdate
  repeat' first
    | with_reducible exact h | with_reducible apply State.countBy_lasting | with_reducible apply State.modPol_lasting
    | with_reducible apply State.putTw_lasting

theorem State.polMeter_lasting {s0 : State} (k : Nat) (len : Nat) (col : Nat) {s : State} (h : Lasting s0 s) :
    Lasting s0 (State.polMeter k len col s).1 := by
  unfold State.polMeter
  repeat' first
    | with_reducible assumption | intro _ | with_reducible apply Lasting.ite | with_reducible apply Lasting.ite_fst
    | with_reducible apply State.countBy_lasting | with_reducible apply State.polUpdate_lasting
    | with_reducible apply State.putTw_lasting

theorem State.countPoliced_lasting {s0 : State} (len : Nat) {y : State × Nat × Bool} (h : Lasting s0 y.1) :
    Lasting s0 (State.countPoliced len y).1 := by
  unfold State.countPoliced
  repeat' first
    | with_reducible exact h | with_reducible apply Lasting.ite_fst | with_reducible apply State.count_lasting
    | with_reducible apply State.countBy_lasting | with_reducible apply State.raiseMs_lasting

theorem State.police_lasting {s0 : State} (f : InFrame) (act : List Word) (colour : Nat) {s : State} (h : Lasting s0
    s) :
       Lasting s0 (State.police f act colour s).1 := by
  unfold State.police
  repeat' first
    | with_reducible assumption | intro _ | with_reducible apply Lasting.ite | with_reducible apply Lasting.ite_fst
    | with_reducible apply State.count_lasting | with_reducible apply State.countPoliced_lasting
    | with_reducible apply State.iff_lasting | with_reducible apply State.polMeter_lasting
    | with_reducible apply State.raise_lasting | with_reducible apply Lasting.foldl | split
    | with_reducible apply Lasting.id | dsimp only

theorem State.classify_lasting {s0 : State} (f : InFrame) (saturated : Bool) {s : State} (h : Lasting s0 s) :
    Lasting s0 (State.classify f saturated s) := by
  unfold State.classify
  repeat' first
    | with_reducible assumption | intro _ | with_reducible apply Lasting.ite
    | with_reducible apply State.count_lasting | with_reducible apply State.findAction_lasting
    | with_reducible apply State.iff_lasting | with_reducible apply State.modCls_lasting
    | with_reducible apply State.noteAct_lasting | with_reducible apply State.police_lasting
    | with_reducible apply State.raise_lasting | with_reducible apply State.raiseMs_lasting
    | with_reducible apply Lasting.foldl | split

theorem State.loseSegment_lasting {s0 : State} (g : Nat) {s : State} (h : Lasting s0 s) :
    Lasting s0 (State.loseSegment g s) := by
  unfold State.loseSegment
  repeat' first
    | with_reducible assumption | intro _ | with_reducible apply Lasting.ite
    | with_reducible apply State.countBy_lasting | with_reducible apply State.iff_lasting
    | with_reducible apply State.joinBacklog_lasting | with_reducible apply State.modXtr_lasting
    | with_reducible apply State.putTier_lasting | with_reducible apply State.raise_lasting
    | with_reducible apply State.showTier_lasting | with_reducible apply Lasting.foldl | split

theorem State.segWrite_lasting {s0 : State} (g : Nat) (ws : List Word) {s : State} (h : Lasting s0 s) :
    Lasting s0 (State.segWrite g ws s) := by
  unfold State.segWrite
  repeat' first
    | with_reducible assumption | intro _ | with_reducible apply Lasting.ite | with_reducible apply State.iff_lasting
    | with_reducible apply State.ignored_lasting | with_reducible apply State.loseSegment_lasting
    | with_reducible apply State.putEntry_lasting | with_reducible apply State.showTier_lasting

theorem State.keepLast_lasting {s0 : State} (runs : List (Nat × Nat)) {s : State} (h : Lasting s0 s) :
    Lasting s0 (State.keepLast runs s) := by
  unfold State.keepLast
  repeat' first | with_reducible exact h | with_reducible apply State.modCnt_lasting

theorem State.noteContain_lasting {s0 : State} (p : Nat) (u : Nat) {s : State} (h : Lasting s0 s) :
    Lasting s0 (State.noteContain p u s) := by
  unfold State.noteContain
  repeat' first
    | with_reducible assumption | exact fun _ => rfl | intro _ | with_reducible apply Lasting.ite
    | with_reducible apply State.count_lasting | with_reducible apply State.keepLast_lasting
    | with_reducible apply State.modRel_lasting | with_reducible apply State.raise_lasting

theorem State.ctxCount_lasting {s0 : State} (c : Nat) (w : Nat) {s : State} (h : Lasting s0 s) :
    Lasting s0 (State.ctxCount c w s) := by
  unfold State.ctxCount
  repeat' first | with_reducible exact h | with_reducible apply State.putTw_lasting

theorem State.discardAge_lasting {s0 : State} (k : Nat) (c : Copy) {s : State} (h : Lasting s0 s) :
    Lasting s0 (State.discardAge k c s) := by
  unfold State.discardAge
  repeat' first
    | with_reducible assumption | intro _ | with_reducible apply Lasting.ite
    | with_reducible apply State.count_lasting | with_reducible apply State.countBy_lasting
    | with_reducible apply State.endProtected_lasting | with_reducible apply State.raiseMs_lasting
    | with_reducible apply State.releaseRef_lasting | with_reducible apply State.unlinkCopy_lasting

theorem State.discardAged_lasting {s0 : State} (q : Nat) (x2 : Nat) {s : State} (h : Lasting s0 s) :
    Lasting s0 (State.discardAged q x2 s) := by
  induction x2 generalizing  s with
  | zero => exact h
  | succ n ih =>
    unfold State.discardAged
    repeat' first
      | with_reducible assumption | with_reducible apply ih | intro _ | with_reducible apply Lasting.ite
      | with_reducible apply State.discardAge_lasting | with_reducible apply Lasting.foldl | split

theorem State.loseChain_lasting {s0 : State} (q : Nat) {s : State} (h : Lasting s0 s) :
    Lasting s0 (State.loseChain q s) := by
  unfold State.loseChain
  repeat' first
    | with_reducible assumption | intro _ | with_reducible apply Lasting.ite
    | with_reducible apply State.countBy_lasting | with_reducible apply State.joinBacklog_lasting
    | with_reducible apply State.modXtr_lasting | with_reducible apply State.putTier_lasting
    | with_reducible apply State.raise_lasting | with_reducible apply State.showQueue_lasting

theorem State.drawOne_lasting {s0 : State} (q : Nat) {s : State} (h : Lasting s0 s) :
    ∀ out, State.drawOne q s = some out → Lasting s0 out := by
  intro out e
  unfold State.drawOne at e
  dsimp only at e
  repeat' split at e
  all_goals first
    | cases e; done
    | (injection e with e; subst e)
  all_goals
    repeat' first
      | with_reducible exact h | with_reducible apply State.appendCopy_lasting
      | with_reducible apply State.count_lasting | with_reducible apply State.countBy_lasting
      | with_reducible apply State.drawCells_lasting | with_reducible apply State.modSto_lasting
      | with_reducible apply State.putFrame_lasting | with_reducible apply State.putTier_lasting
      | with_reducible apply State.setQueueBytes_lasting | with_reducible apply State.takeRef_lasting

theorem State.drawBack_lasting {s0 : State} (q : Nat) (x2 : Nat) {s : State} (h : Lasting s0 s) :
    Lasting s0 (State.drawBack q x2 s) := by
  induction x2 generalizing  s with
  | zero => exact h
  | succ n ih =>
    unfold State.drawBack
    repeat' first
      | with_reducible assumption | with_reducible apply ih | intro _ | with_reducible apply Lasting.ite
      | (with_reducible refine State.drawOne_lasting _ ?_ _ (by assumption))
      | with_reducible apply State.loseChain_lasting | with_reducible apply Lasting.foldl | split

theorem State.examine_lasting {s0 : State} (q : Nat) {s : State} (h : Lasting s0 s) :
    Lasting s0 (State.examine q s) := by
  unfold State.examine
  repeat' first
    | with_reducible exact h | with_reducible apply State.discardAged_lasting
    | with_reducible apply State.judgePromotion_lasting | with_reducible apply State.showQueue_lasting

theorem State.fillStream_lasting {s0 : State} (t : Tree) (a : Nat) (fc : Nat) (space : Nat) {s : State} (h : Lasting
    s0 s) :
       Lasting s0 (State.fillStream t a fc space s).1 := by
  unfold State.fillStream
  repeat' first
    | with_reducible assumption | intro _ | with_reducible apply Lasting.ite | with_reducible apply Lasting.ite_fst
    | with_reducible apply Fill.run_lasting | with_reducible apply State.countBy_lasting
    | with_reducible apply State.examine_lasting | with_reducible apply State.judgePromotion_lasting
    | with_reducible apply State.showQueue_lasting | with_reducible apply Lasting.foldl | split

theorem State.flowDone_lasting {s0 : State} {s : State} (h : Lasting s0 s) :
    Lasting s0 (State.flowDone s) := by
  unfold State.flowDone
  repeat' first
    | with_reducible assumption | intro _ | with_reducible apply Lasting.ite
    | with_reducible apply State.raise_lasting | with_reducible apply State.setFld_lasting

theorem State.flowVisit_lasting {s0 : State} {s : State} (e : Nat) (h : Lasting s0 s) :
    Lasting s0 (State.flowVisit s e) := by
  unfold State.flowVisit
  repeat' first
    | with_reducible assumption | intro _ | with_reducible apply Lasting.ite
    | with_reducible apply State.count_lasting | with_reducible apply State.flowRemove_lasting
    | with_reducible apply State.raiseMs_lasting

theorem State.keySwitch_lasting {s0 : State} (c : Nat) (fc : Nat) {s : State} (h : Lasting s0 s) :
    Lasting s0 (State.keySwitch c fc s) := by
  unfold State.keySwitch
  repeat' first
    | with_reducible assumption | intro _ | with_reducible apply Lasting.ite
    | with_reducible apply State.count_lasting | with_reducible apply State.putTw_lasting
    | with_reducible apply State.raiseMs_lasting | with_reducible apply State.setCtxGcm_lasting
    | with_reducible apply State.setSelector_lasting | with_reducible apply State.showPn_lasting
    | with_reducible apply Lasting.foldl | split

theorem State.setFault_lasting {s0 : State} (p : Nat) (on : Bool) {s : State} (h : Lasting s0 s) :
    Lasting s0 (State.setFault p on s) := by
  unfold State.setFault
  repeat' first
    | with_reducible assumption | intro _ | with_reducible apply State.emit_lasting
    | with_reducible apply State.iff_lasting | with_reducible apply State.setPf_lasting

theorem State.loseRecord_lasting {s0 : State} (q : Nat) {s : State} (h : Lasting s0 s) :
    Lasting s0 (State.loseRecord q s) := by
  unfold State.loseRecord
  repeat' first
    | with_reducible assumption | intro _ | with_reducible apply Lasting.ite
    | with_reducible apply State.backlogStep_lasting | with_reducible apply State.count_lasting
    | with_reducible apply State.countBy_lasting | with_reducible apply State.putTier_lasting
    | with_reducible apply State.raise_lasting | with_reducible apply Lasting.foldl | split

theorem State.recordPn_lasting {s0 : State} (c : Nat) (k : Nat) (pn : Nat) {s : State} (h : Lasting s0 s) :
    Lasting s0 (State.recordPn c k pn s) := by
  unfold State.recordPn
  repeat' first
    | with_reducible exact h | with_reducible apply State.modLsec_lasting | with_reducible apply State.showPn_lasting

theorem State.lsecDown.judge_lasting {s0 : State} (c : Nat) (fc : Nat) (hdr : Bytes) (payload : Bytes) {s : State}
    (h : Lasting s0 s) :
       Lasting s0 (State.lsecDown.judge c fc hdr payload s).1 := by
  unfold State.lsecDown.judge
  repeat' first
    | with_reducible assumption | intro _ | with_reducible apply Lasting.ite | with_reducible apply Lasting.ite_fst
    | with_reducible apply State.count_lasting | with_reducible apply State.countBy_lasting
    | with_reducible apply State.ctxCount_lasting | with_reducible apply State.raiseMs_lasting
    | with_reducible apply State.recordPn_lasting | with_reducible apply State.setFld_lasting
    | with_reducible apply Lasting.foldl | split

theorem State.lsecDown_lasting {s0 : State} (c : Nat) (fc : Nat) (hdr : Bytes) (payload : Bytes) {s : State} (h :
    Lasting s0 s) :
       Lasting s0 (State.lsecDown c fc hdr payload s).1 := by
  unfold State.lsecDown
  repeat' first
    | with_reducible exact h | with_reducible apply State.count_lasting
    | with_reducible apply State.lsecDown.judge_lasting

theorem State.pmAdd32_lasting {s0 : State} (t : Nat) (e : Nat) (w : Nat) (n : Int) {s : State} (h : Lasting s0 s) :
    Lasting s0 (State.pmAdd32 t e w n s) := by
  unfold State.pmAdd32
  repeat' first | with_reducible exact h | with_reducible apply State.putTw_lasting

theorem State.pmAdd64_lasting {s0 : State} (t : Nat) (e : Nat) (w : Nat) (n : Nat) {s : State} (h : Lasting s0 s) :
    Lasting s0 (State.pmAdd64 t e w n s) := by
  unfold State.pmAdd64
  repeat' first | with_reducible exact h | with_reducible apply State.putTw_lasting

theorem State.pmAlerts_lasting {s0 : State} (r : Rx) (day : Bool) {s : State} (h : Lasting s0 s) :
    Lasting s0 (State.pmAlerts r day s) := by
  unfold State.pmAlerts
  repeat' first
    | with_reducible assumption | intro _ | with_reducible apply Lasting.ite
    | with_reducible apply State.count_lasting | with_reducible apply State.raise_lasting
    | with_reducible apply State.setTf_lasting | with_reducible apply Lasting.foldl | split

theorem State.pmBinEdge_lasting {s0 : State} (day : Bool) {s : State} (h : Lasting s0 s) :
    Lasting s0 (State.pmBinEdge day s) := by
  unfold State.pmBinEdge
  repeat' first
    | with_reducible assumption | intro _ | with_reducible apply Lasting.ite
    | with_reducible apply State.pmEdge_lasting

theorem State.pmFinal_lasting {s0 : State} (r : Rx) (day : Bool) (slot : Nat) {s : State} (h : Lasting s0 s) :
    Lasting s0 (State.pmFinal r day slot s) := by
  unfold State.pmFinal
  repeat' first
    | with_reducible assumption | intro _ | with_reducible apply Lasting.ite
    | with_reducible apply State.setTf_lasting

theorem State.pmMove_lasting {s0 : State} (r : Rx) (day : Bool) (slot : Nat) (es : Int) (ses : Int) (uas : Int) {s :
    State} (h : Lasting s0 s) :
       Lasting s0 (State.pmMove r day slot es ses uas s) := by
  unfold State.pmMove
  repeat' first
    | with_reducible assumption | intro _ | with_reducible apply Lasting.ite
    | with_reducible apply State.pmAdd32_lasting

theorem State.pmJudge_lasting {s0 : State} (r : Rx) (es : Bool) (ses : Bool) (slot15 : Nat) (slotDay : Nat) {s :
    State} (h : Lasting s0 s) :
       Lasting s0 (State.pmJudge r es ses slot15 slotDay s) := by
  unfold State.pmJudge
  repeat' first
    | with_reducible assumption | intro _ | with_reducible apply Lasting.ite
    | with_reducible apply State.modPm_lasting | with_reducible apply State.pmMove_lasting
    | with_reducible apply Lasting.foldl | split

theorem State.pmRestart_lasting {s0 : State} (r : Rx) {s : State} (h : Lasting s0 s) :
    Lasting s0 (State.pmRestart r s) := by
  unfold State.pmRestart
  repeat' first
    | with_reducible exact h | with_reducible apply State.modFrm_lasting | with_reducible apply State.modPm_lasting

theorem State.pmTake_lasting {s0 : State} (r : Rx) (day : Bool) (slot : Nat) (hcs : Nat) {s : State} (h : Lasting s0
    s) :
       Lasting s0 (State.pmTake r day slot hcs s) := by
  unfold State.pmTake
  repeat' first
    | with_reducible exact h | with_reducible apply State.iff_lasting | with_reducible apply State.pmAdd32_lasting
    | with_reducible apply State.pmAdd64_lasting | with_reducible apply State.pmMark_lasting

theorem State.pmSecond_lasting {s0 : State} (r : Rx) {s : State} (h : Lasting s0 s) :
    Lasting s0 (State.pmSecond r s) := by
  unfold State.pmSecond
  repeat' first
    | with_reducible assumption | intro _ | with_reducible apply Lasting.ite | with_reducible apply State.iff_lasting
    | with_reducible apply State.pmAlerts_lasting | with_reducible apply State.pmJudge_lasting
    | with_reducible apply State.pmRestart_lasting | with_reducible apply State.pmTake_lasting
    | with_reducible apply State.useFree_lasting

theorem State.schedTick_lasting {s0 : State} {s : State} (h : Lasting s0 s) :
    Lasting s0 (State.schedTick s) := by
  unfold State.schedTick
  repeat' first
    | with_reducible exact h | with_reducible apply State.modSto_lasting | with_reducible apply State.modUsch_lasting

theorem State.snapComplete_lasting {s0 : State} {s : State} (h : Lasting s0 s) :
    Lasting s0 (State.snapComplete s) := by
  unfold State.snapComplete
  repeat' first
    | with_reducible assumption | intro _ | with_reducible apply State.count_lasting
    | with_reducible apply State.iff_lasting | with_reducible apply State.modSnap_lasting
    | with_reducible apply State.raise_lasting | with_reducible apply State.setFld_lasting

theorem State.snapMissing_lasting {s0 : State} (k : Nat) {s : State} (h : Lasting s0 s) :
    Lasting s0 (State.snapMissing k s) := by
  unfold State.snapMissing
  repeat' first
    | with_reducible assumption | intro _ | with_reducible apply Lasting.ite
    | with_reducible apply State.setBank_lasting | with_reducible apply State.setTf_lasting
    | with_reducible apply Lasting.foldl | split

theorem State.xoffAgain_lasting {s0 : State} (p : Nat) (n : Nat) {s : State} (h : Lasting s0 s) :
    Lasting s0 (State.xoffAgain p n s) := by
  unfold State.xoffAgain
  repeat' first
    | with_reducible assumption | intro _ | with_reducible apply Lasting.ite | with_reducible apply State.iff_lasting
    | with_reducible apply State.pauseAsk_lasting

end Sys2Proof.Machine
end

