-- ==== Sys2Proof/Laws/LastingLine.lean ====
section
/-! SUPPORT. What leaves what lasts (Laws/Lasting.lean): the line, the tree-mode machines, network time, admission, clocks. -/

namespace Sys2Proof.Machine

theorem State.modTxs_lasting {s0 : State} (t : Tree) (f : TxSt → TxSt) {s : State} (h : Lasting s0 s) :
    Lasting s0 (State.modTxs t f s) := by
  unfold State.modTxs
  repeat' first | with_reducible exact h | with_reducible apply State.modTx_lasting

theorem State.drivePrep_lasting {s0 : State} (t : Tree) (on : Bool) {s : State} (h : Lasting s0 s) :
    Lasting s0 (State.drivePrep t on s) := by
  unfold State.drivePrep
  repeat' first | with_reducible exact h | with_reducible apply State.setFld_lasting

theorem State.driveGate_lasting {s0 : State} (t : Tree) (on : Bool) {s : State} (h : Lasting s0 s) :
    Lasting s0 (State.driveGate t on s) := by
  unfold State.driveGate
  repeat' first | with_reducible exact h | with_reducible apply State.setFld_lasting

theorem State.pinsLow_lasting {s0 : State} (t : Tree) {s : State} (h : Lasting s0 s) :
    Lasting s0 (State.pinsLow t s) := by
  unfold State.pinsLow
  repeat' first
    | with_reducible exact h | with_reducible apply State.driveGate_lasting
    | with_reducible apply State.drivePrep_lasting

theorem State.showPending_lasting {s0 : State} (t : Tree) {s : State} (h : Lasting s0 s) :
    Lasting s0 (State.showPending t s) := by
  unfold State.showPending
  repeat' first | with_reducible exact h | with_reducible apply State.setFld_lasting

theorem State.modGrts_lasting {s0 : State} (t : Tree) (f : GrtSt → GrtSt) {s : State} (h : Lasting s0 s) :
    Lasting s0 (State.modGrts t f s) := by
  unfold State.modGrts
  repeat' first | with_reducible exact h | with_reducible apply State.modGrt_lasting

theorem State.removeGrant_lasting {s0 : State} (t : Tree) (i : Nat) {s : State} (h : Lasting s0 s) :
    Lasting s0 (State.removeGrant t i s) := by
  unfold State.removeGrant
  repeat' first
    | with_reducible exact h | with_reducible apply State.modGrts_lasting
    | with_reducible apply State.putEntry_lasting | with_reducible apply State.showPending_lasting

theorem State.dropRemainders_lasting {s0 : State} (t : Tree) (c : Copy) {s : State} (h : Lasting s0 s) :
    Lasting s0 (State.dropRemainders t c s) := by
  unfold State.dropRemainders
  repeat' first
    | with_reducible assumption | intro _ | with_reducible apply Lasting.ite
    | with_reducible apply State.releaseRef_lasting | with_reducible apply State.unlinkCopy_lasting
    | with_reducible apply Lasting.foldl | split

theorem State.loseCopy_lasting {s0 : State} (t : Tree) (c : Copy) (here : Bool) {s : State} (h : Lasting s0 s) :
    Lasting s0 (State.loseCopy t c here s) := by
  unfold State.loseCopy
  repeat' first
    | with_reducible assumption | intro _ | with_reducible apply Lasting.ite
    | with_reducible apply State.count_lasting | with_reducible apply State.dropRemainders_lasting
    | with_reducible apply State.iff_lasting | with_reducible apply State.modFrame_lasting
    | with_reducible apply State.releaseRef_lasting

theorem State.showTmc_lasting {s0 : State} (t : Tree) {s : State} (h : Lasting s0 s) :
    Lasting s0 (State.showTmc t s) := by
  unfold State.showTmc
  repeat' first | with_reducible exact h | with_reducible apply State.setFld_lasting

theorem State.setTmcState_lasting {s0 : State} (t : Tree) (e : Nat) (st : Nat) {s : State} (h : Lasting s0 s) :
    Lasting s0 (State.setTmcState t e st s) := by
  unfold State.setTmcState
  repeat' first
    | with_reducible assumption | intro _ | with_reducible apply Lasting.ite
    | with_reducible apply State.modGrts_lasting | with_reducible apply State.putEntry_lasting
    | with_reducible apply State.setTf_lasting | with_reducible apply State.showTmc_lasting

theorem State.loseContent_lasting {s0 : State} (t : Tree) (c : Content) {s : State} (h : Lasting s0 s) :
    Lasting s0 (State.loseContent t c s) := by
  unfold State.loseContent
  repeat' first
    | with_reducible assumption | intro _ | with_reducible apply Lasting.ite
    | with_reducible apply State.count_lasting | with_reducible apply State.countBy_lasting
    | with_reducible apply State.endProtected_lasting | with_reducible apply State.iff_lasting
    | with_reducible apply State.loseCopy_lasting | with_reducible apply State.raise_lasting
    | with_reducible apply State.setTmcState_lasting | with_reducible apply Lasting.foldl | split

theorem State.suppressLate_lasting {s0 : State} (t : Tree) (i : Nat) {s : State} (h : Lasting s0 s) :
    Lasting s0 (State.suppressLate t i s) := by
  unfold State.suppressLate
  repeat' first
    | with_reducible exact h | with_reducible apply State.count_lasting
    | with_reducible apply State.loseContent_lasting | with_reducible apply State.raiseMs_lasting
    | with_reducible apply State.removeGrant_lasting

theorem State.suppressSelected_lasting {s0 : State} (t : Tree) {s : State} (h : Lasting s0 s) :
    Lasting s0 (State.suppressSelected t s) := by
  unfold State.suppressSelected
  repeat' first
    | with_reducible assumption | intro _ | with_reducible apply Lasting.ite
    | with_reducible apply State.count_lasting | with_reducible apply State.suppressLate_lasting
    | with_reducible apply Lasting.foldl | split

theorem State.tune_lasting {s0 : State} (t : Tree) {s : State} (h : Lasting s0 s) :
    Lasting s0 (State.tune t s) := by
  unfold State.tune
  repeat' first
    | with_reducible assumption | intro _ | with_reducible apply Lasting.ite | with_reducible apply State.emit_lasting
    | with_reducible apply State.iff_lasting | with_reducible apply State.modTxs_lasting

theorem State.truncate_lasting {s0 : State} (t : Tree) {s : State} (h : Lasting s0 s) :
    Lasting s0 (State.truncate t s) := by
  unfold State.truncate
  repeat' first
    | with_reducible assumption | intro _ | with_reducible apply Lasting.ite
    | with_reducible apply State.count_lasting | with_reducible apply State.driveGate_lasting
    | with_reducible apply State.emit_lasting | with_reducible apply State.loseContent_lasting
    | with_reducible apply State.modTxs_lasting | with_reducible apply State.raise_lasting
    | with_reducible apply State.removeGrant_lasting | with_reducible apply State.tune_lasting
    | with_reducible apply Lasting.foldl | split

theorem State.contEnd_lasting {s0 : State} (t : Tree) {s : State} (h : Lasting s0 s) :
    Lasting s0 (State.contEnd t s) := by
  unfold State.contEnd
  repeat' first
    | with_reducible assumption | intro _ | with_reducible apply Lasting.ite | with_reducible apply State.emit_lasting
    | with_reducible apply State.modTxs_lasting | with_reducible apply Lasting.foldl | split

theorem State.contBegin_lasting {s0 : State} (t : Tree) {s : State} (h : Lasting s0 s) :
    Lasting s0 (State.contBegin t s) := by
  unfold State.contBegin
  repeat' first | with_reducible exact h | with_reducible apply State.modTxs_lasting

theorem State.policyPins_lasting {s0 : State} (t : Tree) {s : State} (h : Lasting s0 s) :
    Lasting s0 (State.policyPins t s) := by
  unfold State.policyPins
  repeat' first
    | with_reducible assumption | intro _ | with_reducible apply Lasting.ite
    | with_reducible apply State.contBegin_lasting | with_reducible apply State.driveGate_lasting
    | with_reducible apply State.drivePrep_lasting | with_reducible apply State.pinsLow_lasting

theorem State.halUnpin_lasting {s0 : State} (t : Tree) (j : HalJob) (whole : Bool) {s : State} (h : Lasting s0 s) :
    Lasting s0 (State.halUnpin t j whole s) := by
  unfold State.halUnpin
  repeat' first
    | with_reducible assumption | intro _ | with_reducible apply Lasting.ite
    | with_reducible apply State.driveGate_lasting | with_reducible apply State.emit_lasting
    | with_reducible apply State.iff_lasting | with_reducible apply State.modTxs_lasting
    | with_reducible apply State.pinsLow_lasting | with_reducible apply State.setFld_lasting
    | with_reducible apply Lasting.foldl | split

theorem State.modHals_lasting {s0 : State} (t : Tree) (f : HalSt → HalSt) {s : State} (h : Lasting s0 s) :
    Lasting s0 (State.modHals t f s) := by
  unfold State.modHals
  repeat' first | with_reducible exact h | with_reducible apply State.modHal_lasting

theorem State.halDone_lasting {s0 : State} (t : Tree) (slot : Nat) (result : Nat) {s : State} (h : Lasting s0 s) :
    Lasting s0 (State.halDone t slot result s) := by
  unfold State.halDone
  repeat' first
    | with_reducible assumption | intro _ | with_reducible apply Lasting.ite
    | with_reducible apply State.count_lasting | with_reducible apply State.halUnpin_lasting
    | with_reducible apply State.iff_lasting | with_reducible apply State.modHals_lasting
    | with_reducible apply State.raise_lasting | with_reducible apply State.setFld_lasting
    | with_reducible apply Lasting.foldl | split

theorem State.halRefusePins_lasting {s0 : State} (t : Tree) {s : State} (h : Lasting s0 s) :
    Lasting s0 (State.halRefusePins t s) := by
  unfold State.halRefusePins
  repeat' first
    | with_reducible assumption | intro _ | with_reducible apply Lasting.ite
    | with_reducible apply State.halDone_lasting | with_reducible apply Lasting.foldl | split

theorem State.policyJudge_lasting {s0 : State} (t : Tree) {s : State} (h : Lasting s0 s) :
    Lasting s0 (State.policyJudge t s) := by
  unfold State.policyJudge
  repeat' first
    | with_reducible assumption | intro _ | with_reducible apply Lasting.ite
    | with_reducible apply State.contEnd_lasting | with_reducible apply State.halRefusePins_lasting
    | with_reducible apply State.iff_lasting | with_reducible apply State.policyPins_lasting
    | with_reducible apply State.setFld_lasting | with_reducible apply State.suppressSelected_lasting
    | with_reducible apply State.truncate_lasting

theorem State.laneIdle_lasting {s0 : State} (t : Tree) {s : State} (h : Lasting s0 s) :
    Lasting s0 (State.laneIdle t s) := by
  unfold State.laneIdle
  repeat' first
    | with_reducible assumption | intro _ | with_reducible apply Lasting.ite
    | with_reducible apply State.modTxs_lasting | with_reducible apply State.policyJudge_lasting
    | with_reducible apply State.setFld_lasting | with_reducible apply Lasting.foldl | split

theorem State.refreshPolicy_lasting {s0 : State} (t : Tree) {s : State} (h : Lasting s0 s) :
    Lasting s0 (State.refreshPolicy t s) := by
  unfold State.refreshPolicy
  repeat' first
    | with_reducible assumption | intro _ | with_reducible apply Lasting.ite
    | with_reducible apply State.laneIdle_lasting | with_reducible apply State.policyJudge_lasting

theorem State.showForce_lasting {s0 : State} (t : Tree) {s : State} (h : Lasting s0 s) :
    Lasting s0 (State.showForce t s) := by
  unfold State.showForce
  repeat' first | with_reducible exact h | with_reducible apply State.setFld_lasting

theorem State.enterForce_lasting {s0 : State} (t : Tree) {s : State} (h : Lasting s0 s) :
    Lasting s0 (State.enterForce t s) := by
  unfold State.enterForce
  repeat' first
    | with_reducible exact h | with_reducible apply State.pinsLow_lasting | with_reducible apply State.raise_lasting
    | with_reducible apply State.refreshPolicy_lasting | with_reducible apply State.showForce_lasting

theorem State.clockForce_lasting {s0 : State} (t : Tree) {s : State} (h : Lasting s0 s) :
    Lasting s0 (State.clockForce t s) := by
  unfold State.clockForce
  repeat' first
    | with_reducible assumption | intro _ | with_reducible apply Lasting.ite
    | with_reducible apply State.count_lasting | with_reducible apply State.enterForce_lasting
    | with_reducible apply State.modTxs_lasting | with_reducible apply State.raise_lasting
    | with_reducible apply State.setFld_lasting

theorem State.txClockBack_lasting {s0 : State} (t : Tree) {s : State} (h : Lasting s0 s) :
    Lasting s0 (State.txClockBack t s) := by
  unfold State.txClockBack
  repeat' first
    | with_reducible assumption | intro _ | with_reducible apply Lasting.ite
    | with_reducible apply State.modTxs_lasting | with_reducible apply State.setFld_lasting

theorem State.moveTreeClk_lasting {s0 : State} (t : Tree) (new : Nat) {s : State} (h : Lasting s0 s) :
    Lasting s0 (State.moveTreeClk t new s) := by
  unfold State.moveTreeClk
  cases t
  all_goals
    repeat' first
      | with_reducible assumption | intro _ | with_reducible apply Lasting.ite
      | with_reducible apply State.clockForce_lasting | with_reducible apply State.count_lasting
      | with_reducible apply State.iff_lasting | with_reducible apply State.raise_lasting
      | with_reducible apply State.setFld_lasting | with_reducible apply State.txClockBack_lasting

theorem State.forceLost_lasting {s0 : State} {s : State} (h : Lasting s0 s) :
    Lasting s0 (State.forceLost s) := by
  unfold State.forceLost
  repeat' first
    | with_reducible assumption | intro _ | with_reducible apply Lasting.ite
    | with_reducible apply State.raise_lasting | with_reducible apply State.setFld_lasting

theorem State.breakTrim_lasting {s0 : State} {s : State} (h : Lasting s0 s) :
    Lasting s0 (State.breakTrim s) := by
  unfold State.breakTrim
  repeat' first | with_reducible exact h | exact fun _ => rfl | with_reducible apply State.modClk_lasting

theorem State.hostEnd_lasting {s0 : State} {s : State} (h : Lasting s0 s) :
    Lasting s0 (State.hostEnd s) := by
  unfold State.hostEnd
  repeat' first
    | with_reducible exact h | with_reducible apply State.modTime_lasting | with_reducible apply State.setFld_lasting

theorem State.ppsLow_lasting {s0 : State} {s : State} (h : Lasting s0 s) :
    Lasting s0 (State.ppsLow s) := by
  unfold State.ppsLow
  repeat' first | with_reducible exact h | with_reducible apply State.modTime_lasting

theorem State.showTick_lasting {s0 : State} {s : State} (h : Lasting s0 s) :
    Lasting s0 (State.showTick s) := by
  unfold State.showTick
  repeat' first | with_reducible exact h | with_reducible apply State.setFld_lasting

theorem State.setTimeValid_lasting {s0 : State} (on : Bool) {s : State} (h : Lasting s0 s) :
    Lasting s0 (State.setTimeValid on s) := by
  unfold State.setTimeValid
  repeat' first
    | with_reducible exact h | with_reducible apply State.setFld_lasting | with_reducible apply State.showTick_lasting

theorem State.timeLost_lasting {s0 : State} {s : State} (h : Lasting s0 s) :
    Lasting s0 (State.timeLost s) := by
  unfold State.timeLost
  repeat' first
    | with_reducible exact h | with_reducible apply State.count_lasting | with_reducible apply State.pmMarkAll_lasting
    | with_reducible apply State.ppsLow_lasting | with_reducible apply State.raise_lasting
    | with_reducible apply State.setTimeValid_lasting

theorem State.launchReach_lasting {s0 : State} (e : Nat) {s : State} (h : Lasting s0 s) :
    Lasting s0 (State.launchReach e s) := by
  unfold State.launchReach
  repeat' first
    | with_reducible assumption | intro _ | with_reducible apply State.iff_lasting
    | with_reducible apply State.modTime_lasting

theorem State.snapResume_lasting {s0 : State} {s : State} (h : Lasting s0 s) :
    Lasting s0 (State.snapResume s) := by
  unfold State.snapResume
  repeat' first
    | with_reducible exact h | with_reducible apply State.iff_lasting | with_reducible apply State.snapReach_lasting

theorem State.foutAlign_lasting {s0 : State} {s : State} (h : Lasting s0 s) :
    Lasting s0 (State.foutAlign s) := by
  unfold State.foutAlign
  repeat' first | with_reducible exact h | with_reducible apply State.modTime_lasting

theorem State.ppsMark_lasting {s0 : State} {s : State} (h : Lasting s0 s) :
    Lasting s0 (State.ppsMark s) := by
  unfold State.ppsMark
  repeat' first
    | with_reducible exact h | with_reducible apply State.foutAlign_lasting
    | with_reducible apply State.modTime_lasting

theorem State.ppsRise_lasting {s0 : State} {s : State} (h : Lasting s0 s) :
    Lasting s0 (State.ppsRise s) := by
  unfold State.ppsRise
  repeat' first
    | with_reducible assumption | intro _ | with_reducible apply Lasting.ite
    | with_reducible apply State.count_lasting | with_reducible apply State.iff_lasting
    | with_reducible apply State.modTime_lasting | with_reducible apply State.ppsMark_lasting

theorem State.timedFire_lasting {s0 : State} (resume : Bool) {s : State} (x3 : TimedAct) (h : Lasting s0 s) :
    Lasting s0 (State.timedFire resume s x3) := by
  unfold State.timedFire
  repeat' first
    | with_reducible assumption | intro _ | with_reducible apply Lasting.ite | with_reducible apply State.iff_lasting
    | with_reducible apply State.launchReach_lasting | with_reducible apply State.pmPassed_lasting
    | with_reducible apply State.ppsRise_lasting | with_reducible apply State.snapFire_lasting
    | with_reducible apply State.snapReach_lasting | with_reducible apply State.snapResume_lasting
    | with_reducible apply Lasting.foldl | split

theorem State.timePassed_lasting {s0 : State} (resume : Bool) {s : State} (h : Lasting s0 s) :
    Lasting s0 (State.timePassed resume s) := by
  unfold State.timePassed
  repeat' first
    | with_reducible assumption | intro _ | with_reducible apply Lasting.ite
    | with_reducible apply State.timedFire_lasting | with_reducible apply Lasting.foldl | split

theorem State.tickAlign_lasting {s0 : State} {s : State} (h : Lasting s0 s) :
    Lasting s0 (State.tickAlign s) := by
  unfold State.tickAlign
  repeat' first | with_reducible exact h | with_reducible apply State.modUsch_lasting

theorem State.showTime_lasting {s0 : State} {s : State} (h : Lasting s0 s) :
    Lasting s0 (State.showTime s) := by
  unfold State.showTime
  repeat' first | with_reducible exact h | with_reducible apply State.putTime_lasting

theorem State.timeMove_lasting {s0 : State} (v : Nat) {s : State} (h : Lasting s0 s) :
    Lasting s0 (State.timeMove v s) := by
  unfold State.timeMove
  repeat' first
    | with_reducible exact h | with_reducible apply State.modTime_lasting
    | with_reducible apply State.showTime_lasting

theorem State.launchJudge_lasting {s0 : State} {s : State} (h : Lasting s0 s) :
    Lasting s0 (State.launchJudge s) := by
  unfold State.launchJudge
  repeat' first | with_reducible exact h | with_reducible apply State.modTime_lasting

theorem State.timeApply_lasting {s0 : State} (v : Nat) (resume : Bool) {s : State} (h : Lasting s0 s) :
    Lasting s0 (State.timeApply v resume s) := by
  unfold State.timeApply
  repeat' first
    | with_reducible assumption | intro _ | with_reducible apply Lasting.ite
    | with_reducible apply State.count_lasting | with_reducible apply State.iff_lasting
    | with_reducible apply State.launchJudge_lasting | with_reducible apply State.modTime_lasting
    | with_reducible apply State.pmMarkAll_lasting | with_reducible apply State.ppsMark_lasting
    | with_reducible apply State.raise_lasting | with_reducible apply State.setSFld_lasting
    | with_reducible apply State.tickAlign_lasting | with_reducible apply State.timeMove_lasting
    | with_reducible apply State.timePassed_lasting

theorem State.foutJudge_lasting {s0 : State} {s : State} (h : Lasting s0 s) :
    Lasting s0 (State.foutJudge s) := by
  unfold State.foutJudge
  repeat' first
    | with_reducible exact h | with_reducible apply State.foutAlign_lasting | with_reducible apply State.iff_lasting
    | with_reducible apply State.modTime_lasting | with_reducible apply State.raise_lasting
    | with_reducible apply State.setFld_lasting

theorem State.timeJudge_lasting {s0 : State} {s : State} (h : Lasting s0 s) :
    Lasting s0 (State.timeJudge s) := by
  unfold State.timeJudge
  repeat' first
    | with_reducible assumption | intro _ | with_reducible apply Lasting.ite
    | with_reducible apply State.count_lasting | with_reducible apply State.foutJudge_lasting
    | with_reducible apply State.hostEnd_lasting | with_reducible apply State.iff_lasting
    | with_reducible apply State.launchJudge_lasting | with_reducible apply State.raise_lasting
    | with_reducible apply State.setFld_lasting | with_reducible apply State.setTimeValid_lasting
    | with_reducible apply State.timeApply_lasting | with_reducible apply State.timeLost_lasting

theorem State.movePartClk_lasting {s0 : State} (new : Nat) {s : State} (h : Lasting s0 s) :
    Lasting s0 (State.movePartClk new s) := by
  unfold State.movePartClk
  repeat' first
    | with_reducible assumption | intro _ | with_reducible apply Lasting.ite
    | with_reducible apply State.breakTrim_lasting | with_reducible apply State.count_lasting
    | with_reducible apply State.iff_lasting | with_reducible apply State.raise_lasting
    | with_reducible apply State.setFld_lasting | with_reducible apply State.timeJudge_lasting

theorem State.setNeed_lasting {s0 : State} (t : Tree) (on : Bool) {s : State} (h : Lasting s0 s) :
    Lasting s0 (State.setNeed t on s) := by
  unfold State.setNeed
  repeat' first | with_reducible exact h | with_reducible apply State.modUsch_lasting

theorem State.modFrms_lasting {s0 : State} (r : Rx) (f : FrmSt → FrmSt) {s : State} (h : Lasting s0 s) :
    Lasting s0 (State.modFrms r f s) := by
  unfold State.modFrms
  repeat' first | with_reducible exact h | with_reducible apply State.modFrm_lasting

theorem State.closeWindow_lasting {s0 : State} (r : Rx) {s : State} (h : Lasting s0 s) :
    Lasting s0 (State.closeWindow r s) := by
  unfold State.closeWindow
  repeat' first | with_reducible exact h | with_reducible apply State.modFrms_lasting

theorem State.setRecord_lasting {s0 : State} (t : Tree) (pos : Nat) (bs : Bytes) {s : State} (h : Lasting s0 s) :
    Lasting s0 (State.setRecord t pos bs s) := by
  unfold State.setRecord
  repeat' first | with_reducible exact h | with_reducible apply State.putEntry_lasting

theorem State.modHalJob_lasting {s0 : State} (t : Tree) (slot : Nat) (f : HalJob → HalJob) {s : State} (h : Lasting
    s0 s) :
       Lasting s0 (State.modHalJob t slot f s) := by
  unfold State.modHalJob
  repeat' first | with_reducible exact h | with_reducible apply State.modHals_lasting

theorem State.halMove_lasting {s0 : State} (t : Tree) (j : HalJob) {s : State} (h : Lasting s0 s) :
    Lasting s0 (State.halMove t j s) := by
  unfold State.halMove
  repeat' first
    | with_reducible assumption | intro _ | with_reducible apply Lasting.ite
    | with_reducible apply State.modHalJob_lasting | with_reducible apply State.modTxs_lasting

theorem State.halRetime_lasting {s0 : State} (t : Tree) {s : State} (h : Lasting s0 s) :
    Lasting s0 (State.halRetime t s) := by
  unfold State.halRetime
  repeat' first
    | with_reducible assumption | intro _ | with_reducible apply Lasting.ite
    | with_reducible apply State.halMove_lasting | with_reducible apply Lasting.foldl | split

theorem State.releaseList_lasting {s0 : State} (k : Nat) {s : State} (h : Lasting s0 s) :
    Lasting s0 (State.releaseList k s) := by
  unfold State.releaseList
  repeat' first
    | with_reducible assumption | intro _ | with_reducible apply Lasting.ite
    | with_reducible apply State.count_lasting | with_reducible apply State.endCopy_lasting
    | with_reducible apply State.endProtected_lasting | with_reducible apply State.unlinkCopy_lasting
    | with_reducible apply Lasting.foldl | split

theorem State.releaseShared_lasting {s0 : State} (q : Nat) {s : State} (h : Lasting s0 s) :
    Lasting s0 (State.releaseShared q s) := by
  unfold State.releaseShared
  repeat' first
    | with_reducible exact h | with_reducible apply State.iff_lasting | with_reducible apply State.releaseList_lasting
    | with_reducible apply State.releaseTier_lasting

theorem State.releaseAlloc_lasting {s0 : State} (t : Tree) (a : Nat) {s : State} (h : Lasting s0 s) :
    Lasting s0 (State.releaseAlloc t a s) := by
  unfold State.releaseAlloc
  repeat' first
    | with_reducible assumption | intro _ | with_reducible apply Lasting.ite | with_reducible apply State.iff_lasting
    | with_reducible apply State.putEntry_lasting | with_reducible apply State.releaseList_lasting
    | with_reducible apply State.releaseShared_lasting | with_reducible apply State.showQueue_lasting
    | with_reducible apply Lasting.foldl | split

theorem State.dropMerge_lasting {s0 : State} (q : Nat) {s : State} (h : Lasting s0 s) :
    Lasting s0 (State.dropMerge q s) := by
  unfold State.dropMerge
  repeat' first
    | with_reducible exact h | with_reducible apply State.modDual_lasting | with_reducible apply State.setTf_lasting

theorem State.dropTenantMerge_lasting {s0 : State} (n : Nat) {s : State} (h : Lasting s0 s) :
    Lasting s0 (State.dropTenantMerge n s) := by
  unfold State.dropTenantMerge
  repeat' first
    | with_reducible assumption | intro _ | with_reducible apply Lasting.ite
    | with_reducible apply State.dropMerge_lasting | with_reducible apply State.iff_lasting
    | with_reducible apply State.modDual_lasting | with_reducible apply Lasting.foldl | split

theorem State.detachTenant_lasting {s0 : State} (t : Tree) (n : Nat) {s : State} (h : Lasting s0 s) :
    Lasting s0 (State.detachTenant t n s) := by
  unfold State.detachTenant
  repeat' first
    | with_reducible assumption | intro _ | with_reducible apply Lasting.ite
    | with_reducible apply State.clearTenantKeys_lasting | with_reducible apply State.dropTenantMerge_lasting
    | with_reducible apply State.putEntry_lasting | with_reducible apply State.releaseAlloc_lasting
    | with_reducible apply State.setFld_lasting | with_reducible apply Lasting.foldl | split

theorem State.modActs_lasting {s0 : State} (t : Tree) (f : ActSt → ActSt) {s : State} (h : Lasting s0 s) :
    Lasting s0 (State.modActs t f s) := by
  unfold State.modActs
  repeat' first | with_reducible exact h | with_reducible apply State.modAct_lasting

theorem State.dropMgmtKeys_lasting {s0 : State} (t : Tree) {s : State} (h : Lasting s0 s) :
    Lasting s0 (State.dropMgmtKeys t s) := by
  unfold State.dropMgmtKeys
  repeat' first
    | with_reducible assumption | intro _ | with_reducible apply Lasting.ite
    | with_reducible apply State.modActs_lasting | with_reducible apply State.putMgmtKey_lasting
    | with_reducible apply Lasting.foldl | split

theorem State.putClaim_lasting {s0 : State} (t : Tree) (epoch : Nat) (he : Nat) {s : State} (h : Lasting s0 s) :
    Lasting s0 (State.putClaim t epoch he s) := by
  unfold State.putClaim
  repeat' first
    | with_reducible exact h | with_reducible apply State.putReg_lasting | with_reducible apply State.setFld_lasting

theorem State.modFront_lasting {s0 : State} (t : Tree) (f : FrontSt → FrontSt) {s : State} (h : Lasting s0 s) :
    Lasting s0 (State.modFront t f s) := by
  unfold State.modFront
  repeat' first
    | with_reducible exact h | with_reducible apply State.modTime_lasting | with_reducible apply State.setFld_lasting

theorem State.frontForget_lasting {s0 : State} (t : Tree) {s : State} (h : Lasting s0 s) :
    Lasting s0 (State.frontForget t s) := by
  unfold State.frontForget
  repeat' first | with_reducible exact h | with_reducible apply State.modFront_lasting

theorem State.carryJudge_lasting {s0 : State} (t : Tree) {s : State} (h : Lasting s0 s) :
    Lasting s0 (State.carryJudge t s) := by
  unfold State.carryJudge
  cases t
  all_goals
    repeat' first
      | with_reducible exact h | with_reducible apply State.iff_lasting | with_reducible apply State.raise_lasting
      | with_reducible apply State.setFld_lasting

theorem State.conflictJudge_lasting {s0 : State} {s : State} (h : Lasting s0 s) :
    Lasting s0 (State.conflictJudge s) := by
  unfold State.conflictJudge
  repeat' first
    | with_reducible assumption | intro _ | with_reducible apply Lasting.ite
    | with_reducible apply State.count_lasting | with_reducible apply State.iff_lasting
    | with_reducible apply State.modDual_lasting | with_reducible apply State.raise_lasting
    | with_reducible apply State.setFld_lasting

theorem State.setSel_lasting {s0 : State} (t : Tree) {s : State} (h : Lasting s0 s) :
    Lasting s0 (State.setSel t s) := by
  unfold State.setSel
  repeat' first
    | with_reducible assumption | intro _ | with_reducible apply Lasting.ite
    | with_reducible apply State.count_lasting | with_reducible apply State.raise_lasting
    | with_reducible apply State.setFld_lasting

theorem State.selJudge_lasting {s0 : State} (now : Bool) {s : State} (h : Lasting s0 s) :
    Lasting s0 (State.selJudge now s) := by
  unfold State.selJudge
  repeat' first
    | with_reducible assumption | intro _ | with_reducible apply Lasting.ite
    | with_reducible apply State.setSel_lasting

theorem State.dualJudge_lasting {s0 : State} {s : State} (h : Lasting s0 s) :
    Lasting s0 (State.dualJudge s) := by
  unfold State.dualJudge
  repeat' first
    | with_reducible exact h | with_reducible apply State.carryJudge_lasting
    | with_reducible apply State.conflictJudge_lasting | with_reducible apply State.iff_lasting
    | with_reducible apply State.raise_lasting | with_reducible apply State.selJudge_lasting
    | with_reducible apply State.setFld_lasting | with_reducible apply State.timeJudge_lasting

theorem State.showControl_lasting {s0 : State} (t : Tree) {s : State} (h : Lasting s0 s) :
    Lasting s0 (State.showControl t s) := by
  unfold State.showControl
  repeat' first | with_reducible exact h | with_reducible apply State.setFld_lasting

theorem State.forget_lasting {s0 : State} (t : Tree) {s : State} (h : Lasting s0 s) :
    Lasting s0 (State.forget t s) := by
  unfold State.forget
  repeat' first
    | with_reducible assumption | intro _ | with_reducible apply Lasting.ite
    | with_reducible apply State.clearTreeKeys_lasting | with_reducible apply State.detachTenant_lasting
    | with_reducible apply State.dropMgmtKeys_lasting | with_reducible apply State.dualJudge_lasting
    | with_reducible apply State.frontForget_lasting | with_reducible apply State.halRetime_lasting
    | with_reducible apply State.modActs_lasting | with_reducible apply State.putClaim_lasting
    | with_reducible apply State.raise_lasting | with_reducible apply State.releaseAlloc_lasting
    | with_reducible apply State.setFld_lasting | with_reducible apply State.setRecord_lasting
    | with_reducible apply State.showControl_lasting | with_reducible apply Lasting.foldl | split

theorem State.darkEntry_lasting {s0 : State} (keep : Bool) (t : Tree) {s : State} (h : Lasting s0 s) :
    Lasting s0 (State.darkEntry keep t s) := by
  unfold State.darkEntry
  repeat' first
    | with_reducible assumption | intro _ | with_reducible apply Lasting.ite
    | with_reducible apply State.count_lasting | with_reducible apply State.forget_lasting
    | with_reducible apply State.raise_lasting | with_reducible apply State.setFld_lasting
    | with_reducible apply State.setRecord_lasting

theorem State.modRxs_lasting {s0 : State} (r : Rx) (f : RxSt → RxSt) {s : State} (h : Lasting s0 s) :
    Lasting s0 (State.modRxs r f s) := by
  unfold State.modRxs
  repeat' first | with_reducible exact h | with_reducible apply State.modRx_lasting

theorem State.clearFom_lasting {s0 : State} (r : Rx) {s : State} (h : Lasting s0 s) :
    Lasting s0 (State.clearFom r s) := by
  unfold State.clearFom
  repeat' first | with_reducible exact h | with_reducible apply State.setFld_lasting

theorem State.startAcq_lasting {s0 : State} (r : Rx) {s : State} (h : Lasting s0 s) :
    Lasting s0 (State.startAcq r s) := by
  unfold State.startAcq
  repeat' first
    | with_reducible exact h | with_reducible apply State.clearFom_lasting | with_reducible apply State.count_lasting
    | with_reducible apply State.modRxs_lasting | with_reducible apply State.setFld_lasting

theorem State.rxBegin_lasting {s0 : State} (r : Rx) {s : State} (h : Lasting s0 s) :
    Lasting s0 (State.rxBegin r s) := by
  unfold State.rxBegin
  repeat' first
    | with_reducible assumption | intro _ | with_reducible apply Lasting.ite | with_reducible apply State.iff_lasting
    | with_reducible apply State.raise_lasting | with_reducible apply State.setFld_lasting
    | with_reducible apply State.startAcq_lasting

theorem State.clearSdSf_lasting {s0 : State} (r : Rx) {s : State} (h : Lasting s0 s) :
    Lasting s0 (State.clearSdSf r s) := by
  unfold State.clearSdSf
  repeat' first
    | with_reducible exact h | with_reducible apply State.iff_lasting | with_reducible apply State.modFrms_lasting
    | with_reducible apply State.raise_lasting | with_reducible apply State.setFld_lasting

theorem State.lofDeclare_lasting {s0 : State} (r : Rx) {s : State} (h : Lasting s0 s) :
    Lasting s0 (State.lofDeclare r s) := by
  unfold State.lofDeclare
  repeat' first
    | with_reducible assumption | intro _ | with_reducible apply Lasting.ite
    | with_reducible apply State.clearSdSf_lasting | with_reducible apply State.modFrms_lasting
    | with_reducible apply State.raise_lasting | with_reducible apply State.setFld_lasting

theorem State.sendMark_lasting {s0 : State} (r : Rx) {s : State} (h : Lasting s0 s) :
    Lasting s0 (State.sendMark r s) := by
  unfold State.sendMark
  repeat' first | with_reducible exact h | with_reducible apply State.modDual_lasting

theorem State.fragIdle_lasting {s0 : State} (r : Rx) {s : State} (h : Lasting s0 s) :
    Lasting s0 (State.fragIdle r s) := by
  unfold State.fragIdle
  repeat' first
    | with_reducible exact h | with_reducible apply State.modFrms_lasting | with_reducible apply State.setFld_lasting

theorem State.fragHunt_lasting {s0 : State} (r : Rx) {s : State} (h : Lasting s0 s) :
    Lasting s0 (State.fragHunt r s) := by
  unfold State.fragHunt
  repeat' first
    | with_reducible assumption | intro _ | with_reducible apply State.count_lasting
    | with_reducible apply State.fragIdle_lasting | with_reducible apply State.iff_lasting
    | with_reducible apply State.raise_lasting | with_reducible apply State.sendMark_lasting

theorem State.hdrHunt_lasting {s0 : State} (r : Rx) {s : State} (h : Lasting s0 s) :
    Lasting s0 (State.hdrHunt r s) := by
  unfold State.hdrHunt
  repeat' first
    | with_reducible exact h | with_reducible apply State.fragHunt_lasting | with_reducible apply State.iff_lasting
    | with_reducible apply State.lofDeclare_lasting | with_reducible apply State.modFrms_lasting
    | with_reducible apply State.raise_lasting | with_reducible apply State.setFld_lasting

theorem State.alignHunt_lasting {s0 : State} (r : Rx) {s : State} (h : Lasting s0 s) :
    Lasting s0 (State.alignHunt r s) := by
  unfold State.alignHunt
  repeat' first
    | with_reducible exact h | with_reducible apply State.hdrHunt_lasting | with_reducible apply State.iff_lasting
    | with_reducible apply State.lofDeclare_lasting | with_reducible apply State.modFrms_lasting
    | with_reducible apply State.raise_lasting | with_reducible apply State.setFld_lasting

theorem State.losDeclare_lasting {s0 : State} (r : Rx) {s : State} (h : Lasting s0 s) :
    Lasting s0 (State.losDeclare r s) := by
  unfold State.losDeclare
  repeat' first
    | with_reducible assumption | intro _ | with_reducible apply Lasting.ite
    | with_reducible apply State.clearSdSf_lasting | with_reducible apply State.modFrms_lasting
    | with_reducible apply State.raise_lasting | with_reducible apply State.setFld_lasting

theorem State.frmUnlocked_lasting {s0 : State} (r : Rx) {s : State} (h : Lasting s0 s) :
    Lasting s0 (State.frmUnlocked r s) := by
  unfold State.frmUnlocked
  repeat' first
    | with_reducible assumption | intro _ | with_reducible apply Lasting.ite
    | with_reducible apply State.alignHunt_lasting | with_reducible apply State.losDeclare_lasting

theorem State.rxStopFigures_lasting {s0 : State} (r : Rx) {s : State} (h : Lasting s0 s) :
    Lasting s0 (State.rxStopFigures r s) := by
  unfold State.rxStopFigures
  repeat' first
    | with_reducible exact h | with_reducible apply State.clearFom_lasting | with_reducible apply State.modRxs_lasting
    | with_reducible apply State.setFld_lasting

theorem State.holdJudge_lasting {s0 : State} (t : Tree) (old : Option Rx) {s : State} (h : Lasting s0 s) :
    Lasting s0 (State.holdJudge t old s) := by
  unfold State.holdJudge
  repeat' first
    | with_reducible assumption | intro _ | with_reducible apply Lasting.ite
    | with_reducible apply State.frmUnlocked_lasting | with_reducible apply State.iff_lasting
    | with_reducible apply State.raise_lasting | with_reducible apply State.rxBegin_lasting
    | with_reducible apply State.rxStopFigures_lasting | with_reducible apply Lasting.foldl | split

theorem State.modeCore_lasting {s0 : State} (keep : Bool) (t : Tree) (m : Nat) {s : State} (h : Lasting s0 s) :
    Lasting s0 (State.modeCore keep t m s) := by
  unfold State.modeCore
  repeat' first
    | with_reducible assumption | intro _ | with_reducible apply Lasting.ite
    | with_reducible apply State.closeWindow_lasting | with_reducible apply State.count_lasting
    | with_reducible apply State.darkEntry_lasting | with_reducible apply State.dualJudge_lasting
    | with_reducible apply State.forget_lasting | with_reducible apply State.holdJudge_lasting
    | with_reducible apply State.iff_lasting | with_reducible apply State.modActs_lasting
    | with_reducible apply State.raise_lasting | with_reducible apply State.refreshPolicy_lasting
    | with_reducible apply State.refreshPorts_lasting | with_reducible apply State.setFld_lasting
    | with_reducible apply State.setNeed_lasting | with_reducible apply State.showControl_lasting

theorem State.darkKeep_lasting {s0 : State} (t : Tree) {s : State} (h : Lasting s0 s) :
    Lasting s0 (State.darkKeep t s) := by
  unfold State.darkKeep
  repeat' first
    | with_reducible assumption | intro _ | with_reducible apply Lasting.ite
    | with_reducible apply State.modeCore_lasting

theorem State.freeze_lasting {s0 : State} (t : Tree) {s : State} (h : Lasting s0 s) :
    Lasting s0 (State.freeze t s) := by
  unfold State.freeze
  repeat' first
    | with_reducible exact h | with_reducible apply State.clockForce_lasting
    | with_reducible apply State.count_lasting | with_reducible apply State.darkKeep_lasting
    | with_reducible apply State.raise_lasting | with_reducible apply State.setFld_lasting

theorem State.halRelease_lasting {s0 : State} (t : Tree) {s : State} (h : Lasting s0 s) :
    Lasting s0 (State.halRelease t s) := by
  unfold State.halRelease
  repeat' first
    | with_reducible exact h | with_reducible apply State.modHals_lasting | with_reducible apply State.setFld_lasting

theorem State.halHeaderFail_lasting {s0 : State} (t : Tree) {s : State} (h : Lasting s0 s) :
    Lasting s0 (State.halHeaderFail t s) := by
  unfold State.halHeaderFail
  repeat' first
    | with_reducible assumption | intro _ | with_reducible apply Lasting.ite
    | with_reducible apply State.count_lasting | with_reducible apply State.halRelease_lasting

theorem State.halSync_lasting {s0 : State} (t : Tree) (on : Bool) {s : State} (h : Lasting s0 s) :
    Lasting s0 (State.halSync t on s) := by
  unfold State.halSync
  repeat' first
    | with_reducible assumption | intro _ | with_reducible apply Lasting.ite
    | with_reducible apply State.raise_lasting | with_reducible apply State.setFld_lasting

theorem State.halInactive_lasting {s0 : State} (t : Tree) {s : State} (h : Lasting s0 s) :
    Lasting s0 (State.halInactive t s) := by
  unfold State.halInactive
  repeat' first
    | with_reducible assumption | intro _ | with_reducible apply Lasting.ite
    | with_reducible apply State.halDone_lasting | with_reducible apply State.halHeaderFail_lasting
    | with_reducible apply State.halRelease_lasting | with_reducible apply State.halSync_lasting
    | with_reducible apply State.setFld_lasting | with_reducible apply Lasting.foldl | split

theorem State.halJudge_lasting {s0 : State} (t : Tree) {s : State} (h : Lasting s0 s) :
    Lasting s0 (State.halJudge t s) := by
  unfold State.halJudge
  repeat' first
    | with_reducible assumption | intro _ | with_reducible apply Lasting.ite
    | with_reducible apply State.halInactive_lasting | with_reducible apply State.setFld_lasting
    | with_reducible apply Lasting.foldl | split

theorem State.framersMoved_lasting {s0 : State} (t : Tree) {s : State} (h : Lasting s0 s) :
    Lasting s0 (State.framersMoved t s) := by
  unfold State.framersMoved
  repeat' first
    | with_reducible exact h | with_reducible apply State.dualJudge_lasting
    | with_reducible apply State.halJudge_lasting | with_reducible apply State.showControl_lasting

theorem State.frmRestart_lasting {s0 : State} (r : Rx) {s : State} (h : Lasting s0 s) :
    Lasting s0 (State.frmRestart r s) := by
  unfold State.frmRestart
  repeat' first
    | with_reducible assumption | intro _ | with_reducible apply Lasting.ite
    | with_reducible apply State.alignHunt_lasting | with_reducible apply State.iff_lasting
    | with_reducible apply State.losDeclare_lasting

theorem State.suppressPassed_lasting {s0 : State} (t : Tree) {s : State} (h : Lasting s0 s) :
    Lasting s0 (State.suppressPassed t s) := by
  unfold State.suppressPassed
  repeat' first
    | with_reducible assumption | intro _ | with_reducible apply Lasting.ite
    | with_reducible apply State.suppressLate_lasting | with_reducible apply Lasting.foldl | split

theorem State.unfreeze_lasting {s0 : State} (t : Tree) {s : State} (h : Lasting s0 s) :
    Lasting s0 (State.unfreeze t s) := by
  unfold State.unfreeze
  repeat' first
    | with_reducible exact h | with_reducible apply State.framersMoved_lasting
    | with_reducible apply State.frmRestart_lasting | with_reducible apply State.refreshPolicy_lasting
    | with_reducible apply State.setFld_lasting | with_reducible apply State.showForce_lasting
    | with_reducible apply State.suppressPassed_lasting

theorem State.freezeJudge_lasting {s0 : State} (t : Tree) {s : State} (h : Lasting s0 s) :
    Lasting s0 (State.freezeJudge t s) := by
  unfold State.freezeJudge
  repeat' first
    | with_reducible assumption | intro _ | with_reducible apply Lasting.ite
    | with_reducible apply State.freeze_lasting | with_reducible apply State.unfreeze_lasting

theorem State.linkPmJudge_lasting {s0 : State} {s : State} (h : Lasting s0 s) :
    Lasting s0 (State.linkPmJudge s) := by
  unfold State.linkPmJudge
  repeat' first
    | with_reducible assumption | intro _ | with_reducible apply State.iff_lasting
    | with_reducible apply State.setFld_lasting

theorem State.clkJudgeWith_lasting {s0 : State} (expired : Option Nat) {s : State} (h : Lasting s0 s) :
    Lasting s0 (State.clkJudgeWith expired s) := by
  unfold State.clkJudgeWith
  repeat' first
    | with_reducible exact h | with_reducible apply State.forceLost_lasting
    | with_reducible apply State.foutJudge_lasting | with_reducible apply State.freezeJudge_lasting
    | with_reducible apply State.iff_lasting | with_reducible apply State.linkPmJudge_lasting
    | with_reducible apply State.movePartClk_lasting | with_reducible apply State.moveTreeClk_lasting
    | with_reducible apply State.refreshPolicy_lasting | with_reducible apply State.txClockBack_lasting

theorem State.clkJudge_lasting {s0 : State} {s : State} (h : Lasting s0 s) :
    Lasting s0 (State.clkJudge s) := by
  unfold State.clkJudge
  repeat' first | with_reducible exact h | with_reducible apply State.clkJudgeWith_lasting

theorem State.showNotice_lasting {s0 : State} (t : Tree) {s : State} (h : Lasting s0 s) :
    Lasting s0 (State.showNotice t s) := by
  unfold State.showNotice
  repeat' first
    | with_reducible assumption | intro _ | with_reducible apply Lasting.ite
    | with_reducible apply State.setFld_lasting | with_reducible apply Lasting.foldl | split

theorem State.modNotice_lasting {s0 : State} (t : Tree) (id : Nat) (f : Notice → Notice) {s : State} (h : Lasting s0
    s) :
       Lasting s0 (State.modNotice t id f s) := by
  unfold State.modNotice
  repeat' first
    | with_reducible exact h | with_reducible apply State.modActs_lasting
    | with_reducible apply State.showNotice_lasting

theorem State.ackNotice_lasting {s0 : State} (t : Tree) (id : Nat) {s : State} (h : Lasting s0 s) :
    Lasting s0 (State.ackNotice t id s) := by
  unfold State.ackNotice
  repeat' first
    | with_reducible assumption | intro _ | with_reducible apply Lasting.ite
    | with_reducible apply State.modNotice_lasting | with_reducible apply State.raise_lasting

theorem State.laneFix_lasting {s0 : State} (r : Rx) (order : Nat) (signs : Nat) {s : State} (h : Lasting s0 s) :
    Lasting s0 (State.laneFix r order signs s) := by
  unfold State.laneFix
  repeat' first
    | with_reducible assumption | intro _ | with_reducible apply Lasting.ite | with_reducible apply State.iff_lasting
    | with_reducible apply State.modRxs_lasting | with_reducible apply State.raise_lasting
    | with_reducible apply State.setFld_lasting

theorem State.setClkGood_lasting {s0 : State} (k : Nat) (on : Bool) {s : State} (h : Lasting s0 s) :
    Lasting s0 (State.setClkGood k on s) := by
  unfold State.setClkGood
  repeat' first
    | with_reducible assumption | exact fun _ => rfl | intro _ | with_reducible apply State.iff_lasting
    | with_reducible apply State.modClk_lasting | with_reducible apply State.setFld_lasting
    | with_reducible apply State.setTf_lasting

theorem State.clkLose_lasting {s0 : State} (k : Nat) {s : State} (h : Lasting s0 s) :
    Lasting s0 (State.clkLose k s) := by
  unfold State.clkLose
  repeat' first
    | with_reducible assumption | intro _ | with_reducible apply Lasting.ite
    | with_reducible apply State.clkJudge_lasting | with_reducible apply State.count_lasting
    | with_reducible apply State.setClkGood_lasting | with_reducible apply State.setTf_lasting

theorem State.clkFollow_lasting {s0 : State} {s : State} (h : Lasting s0 s) :
    Lasting s0 (State.clkFollow s) := by
  unfold State.clkFollow
  repeat' first
    | with_reducible assumption | intro _ | with_reducible apply Lasting.ite
    | with_reducible apply State.clkJudge_lasting | with_reducible apply State.clkLose_lasting
    | with_reducible apply State.iff_lasting | with_reducible apply Lasting.foldl | split

theorem State.modeStep_lasting {s0 : State} (t : Tree) (m : Nat) {s : State} (h : Lasting s0 s) :
    Lasting s0 (State.modeStep t m s) := by
  unfold State.modeStep
  repeat' first
    | with_reducible assumption | intro _ | with_reducible apply Lasting.ite
    | with_reducible apply State.clkFollow_lasting | with_reducible apply State.modeCore_lasting

theorem State.noteHalLevel_lasting {s0 : State} (t : Tree) {s : State} (h : Lasting s0 s) :
    Lasting s0 (State.noteHalLevel t s) := by
  unfold State.noteHalLevel
  repeat' first | with_reducible exact h | with_reducible apply State.modHals_lasting

theorem State.noteLaunch_lasting {s0 : State} (t : Tree) {s : State} (h : Lasting s0 s) :
    Lasting s0 (State.noteLaunch t s) := by
  unfold State.noteLaunch
  repeat' first | with_reducible exact h | with_reducible apply State.modTxs_lasting

theorem State.setTrim_lasting {s0 : State} (t : Tree) (v : Int) {s : State} (h : Lasting s0 s) :
    Lasting s0 (State.setTrim t v s) := by
  unfold State.setTrim
  repeat' first
    | with_reducible exact h | with_reducible apply State.modTxs_lasting
    | with_reducible apply State.noteHalLevel_lasting | with_reducible apply State.noteLaunch_lasting
    | with_reducible apply State.setSFld_lasting

theorem State.setMode_lasting {s0 : State} (t : Tree) (m : Nat) {s : State} (h : Lasting s0 s) :
    Lasting s0 (State.setMode t m s) := by
  unfold State.setMode
  repeat' first
    | with_reducible assumption | intro _ | with_reducible apply Lasting.ite
    | with_reducible apply State.modeStep_lasting | with_reducible apply State.setTrim_lasting
    | with_reducible apply Lasting.foldl | split

theorem State.recordQuarantine_lasting {s0 : State} (t : Tree) {s : State} (h : Lasting s0 s) :
    Lasting s0 (State.recordQuarantine t s) := by
  unfold State.recordQuarantine
  repeat' first | with_reducible exact h | with_reducible apply State.putTw_lasting

theorem State.clearRogue_lasting {s0 : State} (t : Tree) {s : State} (h : Lasting s0 s) :
    Lasting s0 (State.clearRogue t s) := by
  unfold State.clearRogue
  repeat' first
    | with_reducible exact h | with_reducible apply State.modTxs_lasting
    | with_reducible apply State.refreshPolicy_lasting | with_reducible apply State.setFld_lasting
    | with_reducible apply State.showForce_lasting

theorem State.leaveQuarantine_lasting {s0 : State} (t : Tree) {s : State} (h : Lasting s0 s) :
    Lasting s0 (State.leaveQuarantine t s) := by
  unfold State.leaveQuarantine
  repeat' first
    | with_reducible exact h | with_reducible apply State.clearRogue_lasting
    | with_reducible apply State.forget_lasting | with_reducible apply State.putTw_lasting
    | with_reducible apply State.setFld_lasting | with_reducible apply State.setMode_lasting

theorem State.betweenBursts_lasting {s0 : State} (t : Tree) {s : State} (h : Lasting s0 s) :
    Lasting s0 (State.betweenBursts t s) := by
  unfold State.betweenBursts
  repeat' first
    | with_reducible assumption | intro _ | with_reducible apply Lasting.ite
    | with_reducible apply State.laneIdle_lasting | with_reducible apply State.tune_lasting
    | with_reducible apply Lasting.foldl | split

theorem State.reportFreq_lasting {s0 : State} (t : Tree) (bytes : Nat) {s : State} (h : Lasting s0 s) :
    Lasting s0 (State.reportFreq t bytes s) := by
  unfold State.reportFreq
  repeat' first
    | with_reducible exact h | with_reducible apply State.modTxs_lasting | with_reducible apply State.putReg_lasting

theorem State.setEqdPending_lasting {s0 : State} (t : Tree) (eqd : Nat) (apply : Nat) (carried : Nat) {s : State} (h
    : Lasting s0 s) :
       Lasting s0 (State.setEqdPending t eqd apply carried s) := by
  unfold State.setEqdPending
  repeat' first
    | with_reducible exact h | with_reducible apply State.halRetime_lasting
    | with_reducible apply State.modActs_lasting | with_reducible apply State.setFld_lasting

theorem State.growFrame_lasting {s0 : State} (id : Nat) (n : Nat) {s : State} (h : Lasting s0 s) :
    Lasting s0 (State.growFrame id n s) := by
  unfold State.growFrame
  repeat' first
    | with_reducible assumption | intro _ | with_reducible apply Lasting.ite
    | with_reducible apply State.drawCells_lasting | with_reducible apply State.iff_lasting
    | with_reducible apply State.pfcFor_lasting | with_reducible apply State.putFrame_lasting
    | with_reducible apply State.returnCells_lasting | with_reducible apply Lasting.foldl | split

theorem State.dropEmpty_lasting {s0 : State} (id : Nat) {s : State} (h : Lasting s0 s) :
    Lasting s0 (State.dropEmpty id s) := by
  unfold State.dropEmpty
  repeat' first
    | with_reducible assumption | intro _ | with_reducible apply Lasting.ite
    | with_reducible apply State.freeFrame_lasting | with_reducible apply Lasting.foldl | split

theorem State.joinCopy_lasting {s0 : State} {s : State} (c : Copy) (h : Lasting s0 s) :
    Lasting s0 (State.joinCopy s c) := by
  unfold State.joinCopy
  repeat' first
    | with_reducible assumption | intro _ | with_reducible apply Lasting.ite
    | with_reducible apply State.appendCopy_lasting | with_reducible apply State.count_lasting
    | with_reducible apply State.endCopy_lasting | with_reducible apply State.joinDown_lasting
    | with_reducible apply State.joinShared_lasting | with_reducible apply State.modSto_lasting
    | with_reducible apply State.setQueueBytes_lasting | with_reducible apply State.showQueue_lasting

theorem State.stampCopies_lasting {s0 : State} (id : Nat) {s : State} (h : Lasting s0 s) :
    Lasting s0 (State.stampCopies id s) := by
  unfold State.stampCopies
  repeat' first | with_reducible exact h | with_reducible apply State.modSto_lasting

theorem State.endFrame_lasting {s0 : State} (id : Nat) (err : Bool) (poolEmpty : Bool) {s : State} (h : Lasting s0
    s) :
       Lasting s0 (State.endFrame id err poolEmpty s) := by
  unfold State.endFrame
  repeat' first
    | with_reducible assumption | intro _ | with_reducible apply Lasting.ite
    | with_reducible apply State.dropEmpty_lasting | with_reducible apply State.dropFrameCopies_lasting
    | with_reducible apply State.growFrame_lasting | with_reducible apply State.iff_lasting
    | with_reducible apply State.joinCopy_lasting | with_reducible apply State.modFrame_lasting
    | with_reducible apply State.stampCopies_lasting | with_reducible apply Lasting.foldl | split

theorem State.forgetAct_lasting {s0 : State} (id : Nat) {s : State} (h : Lasting s0 s) :
    Lasting s0 (State.forgetAct id s) := by
  unfold State.forgetAct
  repeat' first | with_reducible exact h | with_reducible apply State.modCls_lasting

theorem State.wredAverage_lasting {s0 : State} (f : Frame) (q : Nat) {s : State} (h : Lasting s0 s) :
    Lasting s0 (State.wredAverage f q s) := by
  unfold State.wredAverage
  repeat' first | with_reducible exact h | with_reducible apply State.putTw_lasting

theorem State.wred_lasting {s0 : State} (f : Frame) (q : Nat) (colour : Nat) {s : State} (h : Lasting s0 s) :
    Lasting s0 (State.wred f q colour s).1 := by
  unfold State.wred
  repeat' first
    | with_reducible assumption | intro _ | with_reducible apply Lasting.ite | with_reducible apply Lasting.ite_fst
    | with_reducible apply State.raise_lasting | with_reducible apply State.useFree_lasting

theorem State.holdCopy_lasting {s0 : State} (id : Nat) (c : Copy) {s : State} (h : Lasting s0 s) :
    Lasting s0 (State.holdCopy id c s) := by
  unfold State.holdCopy
  repeat' first
    | with_reducible exact h | with_reducible apply State.modFrame_lasting
    | with_reducible apply State.setQueueBytes_lasting | with_reducible apply State.takeRef_lasting

theorem State.admitUp_lasting {s0 : State} (id : Nat) (c : Copy) {s : State} (h : Lasting s0 s) :
    Lasting s0 (State.admitUp id c s) := by
  unfold State.admitUp
  repeat' first
    | with_reducible assumption | intro _ | with_reducible apply Lasting.ite
    | with_reducible apply State.count_lasting | with_reducible apply State.holdCopy_lasting
    | with_reducible apply State.iff_lasting | with_reducible apply State.setTf_lasting
    | with_reducible apply Lasting.foldl | split

theorem State.decideCopy_lasting {s0 : State} (id : Nat) (c : Classified) {s : State} (d : CopyDest) (h : Lasting s0
    s) :
       Lasting s0 (State.decideCopy id c s d) := by
  unfold State.decideCopy
  repeat' first
    | with_reducible assumption | intro _ | with_reducible apply Lasting.ite
    | with_reducible apply State.admitUp_lasting | with_reducible apply State.count_lasting
    | with_reducible apply State.countBy_lasting | with_reducible apply State.holdCopy_lasting
    | with_reducible apply State.joinDown_lasting | with_reducible apply State.raiseMs_lasting
    | with_reducible apply State.setQueueBytes_lasting | with_reducible apply State.takeRef_lasting
    | with_reducible apply State.wred_lasting | with_reducible apply State.wredAverage_lasting
    | with_reducible apply Lasting.foldl | split

theorem State.offerSample_lasting {s0 : State} (id : Nat) (c : Classified) {s : State} (h : Lasting s0 s) :
    Lasting s0 (State.offerSample id c s) := by
  unfold State.offerSample
  repeat' first
    | with_reducible assumption | intro _ | with_reducible apply Lasting.ite
    | with_reducible apply State.count_lasting | with_reducible apply State.holdCopy_lasting
    | with_reducible apply State.modSto_lasting | with_reducible apply State.putTw_lasting
    | with_reducible apply State.raiseMs_lasting | with_reducible apply Lasting.foldl | split

theorem State.decideFrame_lasting {s0 : State} (id : Nat) (c : Classified) {s : State} (h : Lasting s0 s) :
    Lasting s0 (State.decideFrame id c s) := by
  unfold State.decideFrame
  repeat' first
    | with_reducible assumption | intro _ | with_reducible apply Lasting.ite
    | with_reducible apply State.count_lasting | with_reducible apply State.decideCopy_lasting
    | with_reducible apply State.dropEmpty_lasting | with_reducible apply State.iff_lasting
    | with_reducible apply State.modFrame_lasting | with_reducible apply State.offerSample_lasting
    | with_reducible apply Lasting.foldl | split

theorem State.decideNow_lasting {s0 : State} (id : Nat) {s : State} (h : Lasting s0 s) :
    Lasting s0 (State.decideNow id s) := by
  unfold State.decideNow
  repeat' first
    | with_reducible assumption | intro _ | with_reducible apply Lasting.ite
    | with_reducible apply State.decideFrame_lasting | with_reducible apply State.forgetAct_lasting
    | with_reducible apply State.freeFrame_lasting | with_reducible apply Lasting.foldl | split

theorem State.admitEnd_lasting {s0 : State} (id : Nat) (err : Bool) (poolEmpty : Bool) {s : State} (h : Lasting s0
    s) :
       Lasting s0 (State.admitEnd id err poolEmpty s) := by
  unfold State.admitEnd
  repeat' first
    | with_reducible assumption | intro _ | with_reducible apply Lasting.ite
    | with_reducible apply State.decideNow_lasting | with_reducible apply State.endFrame_lasting
    | with_reducible apply State.modFrame_lasting | with_reducible apply State.modUni_lasting
    | with_reducible apply Lasting.foldl | split

theorem State.forgetCells_lasting {s0 : State} (id : Nat) {s : State} (h : Lasting s0 s) :
    Lasting s0 (State.forgetCells id s) := by
  unfold State.forgetCells
  repeat' first | with_reducible exact h | with_reducible apply State.modSto_lasting

theorem State.admitStart_lasting {s0 : State} (a : AdmitReq) (prio : Nat) {s : State} (h : Lasting s0 s) :
    Lasting s0 (State.admitStart a prio s).1 := by
  unfold State.admitStart
  repeat' first
    | with_reducible assumption | intro _ | with_reducible apply Lasting.ite | with_reducible apply Lasting.ite_fst
    | with_reducible apply State.count_lasting | with_reducible apply State.forgetCells_lasting
    | with_reducible apply State.growFrame_lasting | with_reducible apply State.iff_lasting
    | with_reducible apply State.modSto_lasting | with_reducible apply State.putFrame_lasting
    | with_reducible apply State.returnCells_lasting

theorem State.alignStep_lasting {s0 : State} (r : Rx) (w : Nat) {s : State} (h : Lasting s0 s) :
    Lasting s0 (State.alignStep r w s) := by
  unfold State.alignStep
  repeat' first
    | with_reducible assumption | intro _ | with_reducible apply Lasting.ite
    | with_reducible apply State.alignHunt_lasting | with_reducible apply State.modFrms_lasting
    | with_reducible apply State.raise_lasting | with_reducible apply State.setFld_lasting
    | with_reducible apply Lasting.foldl | split

theorem State.applyEqd_lasting {s0 : State} (t : Tree) {s : State} (h : Lasting s0 s) :
    Lasting s0 (State.applyEqd t s) := by
  unfold State.applyEqd
  repeat' first
    | with_reducible exact h | with_reducible apply State.count_lasting | with_reducible apply State.iff_lasting
    | with_reducible apply State.modActs_lasting | with_reducible apply State.raise_lasting
    | with_reducible apply State.setFld_lasting | with_reducible apply State.setMode_lasting
    | with_reducible apply State.setRecord_lasting

theorem State.applyLaunch_lasting {s0 : State} (t : Tree) (w : Word) (t0 : Nat) {s : State} (h : Lasting s0 s) :
    Lasting s0 (State.applyLaunch t w t0 s) := by
  unfold State.applyLaunch
  repeat' first
    | with_reducible exact h | with_reducible apply State.iff_lasting | with_reducible apply State.raise_lasting
    | with_reducible apply State.setFld_lasting | with_reducible apply State.setSFld_lasting

theorem State.applyMaxIter_lasting {s0 : State} (r : Rx) {s : State} (h : Lasting s0 s) :
    Lasting s0 (State.applyMaxIter r s) := by
  unfold State.applyMaxIter
  repeat' first
    | with_reducible exact h | with_reducible apply State.modRxs_lasting | with_reducible apply State.setFld_lasting

theorem State.enterDark_lasting {s0 : State} (t : Tree) {s : State} (h : Lasting s0 s) :
    Lasting s0 (State.enterDark t s) := by
  unfold State.enterDark
  repeat' first
    | with_reducible assumption | intro _ | with_reducible apply Lasting.ite
    | with_reducible apply State.setMode_lasting

theorem State.lineJudge_lasting {s0 : State} (t : Tree) {s : State} {s3 : State} (h : Lasting s0 s) (h3 : Lasting s0
    s3) :
       Lasting s0 (State.lineJudge t s s3) := by
  unfold State.lineJudge
  repeat' first
    | with_reducible assumption | intro _ | with_reducible apply State.breakTrim_lasting
    | with_reducible apply State.clkJudge_lasting | with_reducible apply State.dualJudge_lasting
    | with_reducible apply State.enterDark_lasting | with_reducible apply State.halJudge_lasting
    | with_reducible apply State.iff_lasting | with_reducible apply State.showControl_lasting

theorem State.lineDo_lasting {s0 : State} (r : Rx) {f : State → State} {s : State} (h : Lasting s0 s) (h2 : ∀ y0,
    Lasting s0 y0 → Lasting s0 (f y0)) :
       Lasting s0 (State.lineDo r f s) := by
  unfold State.lineDo
  repeat' first | with_reducible exact h | with_reducible apply State.lineJudge_lasting | with_reducible apply h2

theorem State.frmStop_lasting {s0 : State} (r : Rx) {s : State} (h : Lasting s0 s) :
    Lasting s0 (State.frmStop r s) := by
  unfold State.frmStop
  repeat' first
    | with_reducible exact h | with_reducible apply State.alignHunt_lasting | with_reducible apply State.iff_lasting
    | with_reducible apply State.modFrms_lasting | with_reducible apply State.putReg_lasting
    | with_reducible apply State.sendMark_lasting

theorem State.halCancelAll_lasting {s0 : State} (t : Tree) {s : State} (h : Lasting s0 s) :
    Lasting s0 (State.halCancelAll t s) := by
  unfold State.halCancelAll
  repeat' first
    | with_reducible assumption | intro _ | with_reducible apply Lasting.ite
    | with_reducible apply State.halDone_lasting | with_reducible apply Lasting.foldl | split

theorem State.halStop_lasting {s0 : State} (t : Tree) {s : State} (h : Lasting s0 s) :
    Lasting s0 (State.halStop t s) := by
  unfold State.halStop
  repeat' first
    | with_reducible exact h | with_reducible apply State.halCancelAll_lasting
    | with_reducible apply State.halInactive_lasting | with_reducible apply State.halRefusePins_lasting

theorem State.enterDarkKeep_lasting {s0 : State} (t : Tree) {s : State} (h : Lasting s0 s) :
    Lasting s0 (State.enterDarkKeep t s) := by
  unfold State.enterDarkKeep
  repeat' first
    | with_reducible assumption | intro _ | with_reducible apply Lasting.ite
    | with_reducible apply State.clkFollow_lasting | with_reducible apply State.darkKeep_lasting
    | with_reducible apply State.refreshPolicy_lasting

theorem State.suppressWaiting_lasting {s0 : State} (t : Tree) {s : State} (h : Lasting s0 s) :
    Lasting s0 (State.suppressWaiting t s) := by
  unfold State.suppressWaiting
  repeat' first
    | with_reducible assumption | intro _ | with_reducible apply Lasting.ite
    | with_reducible apply State.count_lasting | with_reducible apply State.raiseMs_lasting
    | with_reducible apply State.removeGrant_lasting | with_reducible apply Lasting.foldl | split

theorem State.timeStop_lasting {s0 : State} {s : State} (h : Lasting s0 s) :
    Lasting s0 (State.timeStop s) := by
  unfold State.timeStop
  repeat' first
    | with_reducible exact h | with_reducible apply State.modTime_lasting | with_reducible apply State.setFld_lasting
    | with_reducible apply State.timeJudge_lasting

theorem State.putSram_lasting {s0 : State} (x1 : Nat) (x2 : Bytes) {s : State} (h : Lasting s0 s) :
    Lasting s0 (State.putSram x1 x2 s) := by
  induction x2 generalizing x1 s with
  | nil => exact h
  | cons x l ih =>
    unfold State.putSram
    repeat' first | with_reducible exact h | with_reducible apply ih | with_reducible apply State.modSram_lasting

theorem State.clearParts_lasting {s0 : State} (k : Nat) {s : State} (h : Lasting s0 s) :
    Lasting s0 (State.clearParts k s) := by
  unfold State.clearParts
  repeat' first | with_reducible exact h | with_reducible apply State.modDual_lasting

theorem State.dropPlain_lasting {s0 : State} (k : Nat) {s : State} (h : Lasting s0 s) :
    Lasting s0 (State.dropPlain k s) := by
  unfold State.dropPlain
  repeat' first
    | with_reducible exact h | with_reducible apply State.clearParts_lasting
    | with_reducible apply State.returnCells_lasting

theorem State.freeLine_lasting {s0 : State} (f : LineFrag) {s : State} (h : Lasting s0 s) :
    Lasting s0 (State.freeLine f s) := by
  unfold State.freeLine
  repeat' first | with_reducible exact h | with_reducible apply State.returnCells_lasting

theorem State.dropPassed_lasting {s0 : State} (f : LineFrag) {s : State} (h : Lasting s0 s) :
    Lasting s0 (State.dropPassed f s) := by
  unfold State.dropPassed
  repeat' first
    | with_reducible exact h | with_reducible apply State.freeLine_lasting
    | with_reducible apply State.modDual_lasting

theorem State.dropContext_lasting {s0 : State} (k : Nat) {s : State} (h : Lasting s0 s) :
    Lasting s0 (State.dropContext k s) := by
  unfold State.dropContext
  repeat' first
    | with_reducible assumption | intro _ | with_reducible apply Lasting.ite
    | with_reducible apply State.dropPassed_lasting | with_reducible apply State.dropPlain_lasting
    | with_reducible apply Lasting.foldl | split

theorem State.setProgress_lasting {s0 : State} (k : Nat) (p : Option Nat) {s : State} (h : Lasting s0 s) :
    Lasting s0 (State.setProgress k p s) := by
  unfold State.setProgress
  repeat' first | with_reducible exact h | with_reducible apply State.modDual_lasting

theorem State.dropLine_lasting {s0 : State} (frag : Nat) (frame : Nat) {s : State} (h : Lasting s0 s) :
    Lasting s0 (State.dropLine frag frame s) := by
  unfold State.dropLine
  repeat' first
    | with_reducible assumption | intro _ | with_reducible apply Lasting.ite
    | with_reducible apply State.count_lasting | with_reducible apply State.dropContext_lasting
    | with_reducible apply State.freeLine_lasting | with_reducible apply State.modDual_lasting
    | with_reducible apply State.setProgress_lasting | with_reducible apply Lasting.foldl | split

theorem State.dropDual_lasting {s0 : State} {s : State} (h : Lasting s0 s) :
    Lasting s0 (State.dropDual s) := by
  unfold State.dropDual
  repeat' first | with_reducible exact h | with_reducible apply State.dropLine_lasting

theorem State.flushMerge_lasting {s0 : State} {s : State} (h : Lasting s0 s) :
    Lasting s0 (State.flushMerge s) := by
  unfold State.flushMerge
  repeat' first
    | with_reducible assumption | intro _ | with_reducible apply Lasting.ite
    | with_reducible apply State.dropMerge_lasting | with_reducible apply Lasting.foldl | split

theorem State.showKeystore_lasting {s0 : State} {s : State} (h : Lasting s0 s) :
    Lasting s0 (State.showKeystore s) := by
  unfold State.showKeystore
  repeat' first | with_reducible exact h | with_reducible apply State.setFld_lasting

theorem State.timeClearHost_lasting {s0 : State} {s : State} (h : Lasting s0 s) :
    Lasting s0 (State.timeClearHost s) := by
  unfold State.timeClearHost
  repeat' first
    | with_reducible exact h | with_reducible apply State.hostEnd_lasting
    | with_reducible apply State.timeJudge_lasting

theorem State.frmStart_lasting {s0 : State} (r : Rx) {s : State} (h : Lasting s0 s) :
    Lasting s0 (State.frmStart r s) := by
  unfold State.frmStart
  repeat' first
    | with_reducible exact h | with_reducible apply State.iff_lasting | with_reducible apply State.losDeclare_lasting
    | with_reducible apply State.modFrms_lasting | with_reducible apply State.raise_lasting

theorem State.txBegin_lasting {s0 : State} (t : Tree) {s : State} (h : Lasting s0 s) :
    Lasting s0 (State.txBegin t s) := by
  unfold State.txBegin
  repeat' first
    | with_reducible exact h | with_reducible apply State.iff_lasting | with_reducible apply State.raise_lasting
    | with_reducible apply State.refreshPolicy_lasting | with_reducible apply State.tune_lasting

theorem State.timeStart_lasting {s0 : State} {s : State} (h : Lasting s0 s) :
    Lasting s0 (State.timeStart s) := by
  unfold State.timeStart
  repeat' first
    | with_reducible exact h | with_reducible apply State.modTime_lasting
    | with_reducible apply State.timeJudge_lasting

theorem State.firmwareBack_lasting {s0 : State} (t : Tree) {s : State} (h : Lasting s0 s) :
    Lasting s0 (State.firmwareBack t s) := by
  unfold State.firmwareBack
  repeat' first
    | with_reducible assumption | intro _ | with_reducible apply State.iff_lasting
    | with_reducible apply State.modActs_lasting | with_reducible apply State.setMode_lasting

theorem State.halLevelRestored_lasting {s0 : State} (t : Tree) {s : State} (h : Lasting s0 s) :
    Lasting s0 (State.halLevelRestored t s) := by
  unfold State.halLevelRestored
  repeat' first | with_reducible exact h | with_reducible apply State.modHals_lasting

theorem State.launchRestored_lasting {s0 : State} (t : Tree) {s : State} (h : Lasting s0 s) :
    Lasting s0 (State.launchRestored t s) := by
  unfold State.launchRestored
  repeat' first | with_reducible exact h | with_reducible apply State.modTxs_lasting

theorem State.timeSetCmd_lasting {s0 : State} {s : State} (h : Lasting s0 s) :
    Lasting s0 (State.timeSetCmd s) := by
  unfold State.timeSetCmd
  repeat' first
    | with_reducible assumption | intro _ | with_reducible apply Lasting.ite
    | with_reducible apply State.ignored_lasting | with_reducible apply State.modTime_lasting
    | with_reducible apply Lasting.foldl | split

theorem State.halOffsetJudge_lasting {s0 : State} (t : Tree) (was : Bool) {s : State} (h : Lasting s0 s) :
    Lasting s0 (State.halOffsetJudge t was s) := by
  unfold State.halOffsetJudge
  repeat' first
    | with_reducible assumption | intro _ | with_reducible apply Lasting.ite
    | with_reducible apply State.halCancelAll_lasting | with_reducible apply State.halInactive_lasting
    | with_reducible apply State.halJudge_lasting | with_reducible apply State.iff_lasting
    | with_reducible apply State.raise_lasting

theorem State.halAbort_lasting {s0 : State} (t : Tree) (j : HalJob) {s : State} (h : Lasting s0 s) :
    Lasting s0 (State.halAbort t j s) := by
  unfold State.halAbort
  repeat' first
    | with_reducible assumption | intro _ | with_reducible apply Lasting.ite
    | with_reducible apply State.count_lasting | with_reducible apply State.halDone_lasting
    | with_reducible apply State.halUnpin_lasting | with_reducible apply State.iff_lasting
    | with_reducible apply State.modHalJob_lasting | with_reducible apply State.raise_lasting
    | with_reducible apply State.setFld_lasting

theorem State.halQueue_lasting {s0 : State} (t : Tree) (slot : Nat) (j : HalJob) {s : State} (h : Lasting s0 s) :
    Lasting s0 (State.halQueue t slot j s) := by
  unfold State.halQueue
  repeat' first
    | with_reducible exact h | with_reducible apply State.modHals_lasting | with_reducible apply State.setFld_lasting

theorem State.halSubmit_lasting {s0 : State} (t : Tree) (slot : Nat) {s : State} (h : Lasting s0 s) :
    Lasting s0 (State.halSubmit t slot s) := by
  unfold State.halSubmit
  repeat' first
    | with_reducible assumption | intro _ | with_reducible apply Lasting.ite
    | with_reducible apply State.halAbort_lasting | with_reducible apply State.halDone_lasting
    | with_reducible apply State.halQueue_lasting | with_reducible apply State.raise_lasting
    | with_reducible apply State.setFld_lasting | with_reducible apply State.useFree_lasting
    | with_reducible apply Lasting.foldl | split

theorem State.halCancel_lasting {s0 : State} (t : Tree) (slot : Nat) {s : State} (h : Lasting s0 s) :
    Lasting s0 (State.halCancel t slot s) := by
  unfold State.halCancel
  repeat' first
    | with_reducible assumption | intro _ | with_reducible apply Lasting.ite
    | with_reducible apply State.halDone_lasting | with_reducible apply Lasting.foldl | split

theorem State.putKstSlot_lasting {s0 : State} (n : Nat) (m : Sparse Word) {s : State} (h : Lasting s0 s) :
    Lasting s0 (State.putKstSlot n m s) := by
  unfold State.putKstSlot
  repeat' first | with_reducible exact h | with_reducible apply State.modKst_lasting

theorem State.kstCommit_lasting {s0 : State} {s : State} (h : Lasting s0 s) :
    Lasting s0 (State.kstCommit s) := by
  unfold State.kstCommit
  repeat' first
    | with_reducible assumption | intro _ | with_reducible apply Lasting.ite
    | with_reducible apply State.count_lasting | with_reducible apply State.ignored_lasting
    | with_reducible apply State.modKst_lasting | with_reducible apply State.putKstSlot_lasting
    | with_reducible apply State.setFld_lasting

theorem State.kstGenkey_lasting {s0 : State} {s : State} (h : Lasting s0 s) :
    Lasting s0 (State.kstGenkey s) := by
  unfold State.kstGenkey
  repeat' first
    | with_reducible assumption | intro _ | with_reducible apply Lasting.ite
    | with_reducible apply State.ignored_lasting | with_reducible apply State.modKst_lasting
    | with_reducible apply State.setFld_lasting

theorem State.bindAlloc_lasting {s0 : State} (t : Tree) (a : Nat) (id : Nat) (tenant : Nat) (services : Nat) (mgmt :
    Bool) {s : State} (h : Lasting s0 s) :
       Lasting s0 (State.bindAlloc t a id tenant services mgmt s) := by
  unfold State.bindAlloc
  repeat' first | with_reducible exact h | with_reducible apply State.putEntry_lasting

theorem State.attachTenant_lasting {s0 : State} (t : Tree) (n : Nat) (uid : Nat) (services : Nat) (lifeline : Bool)
    {s : State} (h : Lasting s0 s) :
       Lasting s0 (State.attachTenant t n uid services lifeline s) := by
  unfold State.attachTenant
  repeat' first
    | with_reducible assumption | intro _ | with_reducible apply State.iff_lasting
    | with_reducible apply State.putEntry_lasting | with_reducible apply State.setFld_lasting

theorem State.showHeader_lasting {s0 : State} (r : Rx) (x2 : FrameHdr) {s : State} (h : Lasting s0 s) :
    Lasting s0 (State.showHeader r x2 s) := by
  unfold State.showHeader
  repeat' first
    | with_reducible exact h | with_reducible apply State.iff_lasting | with_reducible apply State.modFrms_lasting
    | with_reducible apply State.raise_lasting | with_reducible apply State.setFld_lasting

theorem State.frameFrag_lasting {s0 : State} (r : Rx) (x2 : FrameHdr) {s : State} (h : Lasting s0 s) :
    Lasting s0 (State.frameFrag r x2 s) := by
  unfold State.frameFrag
  repeat' first
    | with_reducible assumption | intro _ | with_reducible apply Lasting.ite
    | with_reducible apply State.fragIdle_lasting | with_reducible apply State.modFrms_lasting
    | with_reducible apply State.setFld_lasting | with_reducible apply Lasting.foldl | split

theorem State.beginFrame_lasting {s0 : State} (r : Rx) (x2 : FrameHdr) {s : State} (h : Lasting s0 s) :
    Lasting s0 (State.beginFrame r x2 s) := by
  unfold State.beginFrame
  repeat' first
    | with_reducible assumption | intro _ | with_reducible apply State.count_lasting
    | with_reducible apply State.frameFrag_lasting | with_reducible apply State.iff_lasting
    | with_reducible apply State.modFrms_lasting | with_reducible apply State.raiseMs_lasting
    | with_reducible apply State.showHeader_lasting

theorem State.dropParts_lasting {s0 : State} (k : Nat) {s : State} (h : Lasting s0 s) :
    Lasting s0 (State.dropParts k s) := by
  unfold State.dropParts
  repeat' first
    | with_reducible assumption | intro _ | with_reducible apply Lasting.ite
    | with_reducible apply State.dropPassed_lasting | with_reducible apply State.dropPlain_lasting
    | with_reducible apply State.iff_lasting | with_reducible apply Lasting.foldl | split

theorem State.breakMarker_lasting {s0 : State} (r : Rx) {s : State} (h : Lasting s0 s) :
    Lasting s0 (State.breakMarker r s) := by
  unfold State.breakMarker
  repeat' first
    | with_reducible assumption | intro _ | with_reducible apply Lasting.ite
    | with_reducible apply State.count_lasting | with_reducible apply State.dropParts_lasting
    | with_reducible apply State.setProgress_lasting | with_reducible apply Lasting.foldl | split

theorem State.halCutNow_lasting {s0 : State} (t : Tree) {s : State} (h : Lasting s0 s) :
    Lasting s0 (State.halCutNow t s) := by
  unfold State.halCutNow
  repeat' first
    | with_reducible assumption | intro _ | with_reducible apply Lasting.ite
    | with_reducible apply State.halAbort_lasting | with_reducible apply Lasting.foldl | split

theorem State.noticeBurst_lasting {s0 : State} (t : Tree) (es : List Nat) {s : State} (h : Lasting s0 s) :
    Lasting s0 (State.noticeBurst t es s) := by
  unfold State.noticeBurst
  repeat' first
    | with_reducible assumption | intro _ | with_reducible apply Lasting.ite
    | with_reducible apply State.modNotice_lasting | with_reducible apply Lasting.foldl | split

theorem State.randomBytes_lasting {s0 : State} (n : Nat) {s : State} (h : Lasting s0 s) :
    Lasting s0 (State.randomBytes n s).1 := ⟨h.rail, h.loss, h.tap, h.wait, h.perst, h.cause, h.sup, h.port, h.mem, h.unknown, h.journal⟩

theorem State.putKeyPair_lasting {s0 : State} (d : Nat) {s : State} (h : Lasting s0 s) :
    Lasting s0 (State.putKeyPair d s) := by
  unfold State.putKeyPair
  repeat' first
    | with_reducible assumption | intro _ | with_reducible apply Lasting.ite
    | with_reducible apply State.putEntry_lasting | with_reducible apply State.putTw_lasting
    | with_reducible apply Lasting.foldl | split

theorem State.retireCell_lasting {s0 : State} (id : Nat) {s : State} (h : Lasting s0 s) :
    Lasting s0 (State.retireCell id s) := by
  unfold State.retireCell
  repeat' first
    | with_reducible assumption | intro _ | with_reducible apply Lasting.ite
    | with_reducible apply State.count_lasting | with_reducible apply State.modSto_lasting
    | with_reducible apply State.putFrame_lasting | with_reducible apply State.raise_lasting
    | with_reducible apply State.setFld_lasting | with_reducible apply State.setTf_lasting
    | with_reducible apply State.useFree_lasting | with_reducible apply Lasting.foldl | split

theorem State.cellError_lasting {s0 : State} (id : Nat) (port : Option Nat) {s : State} (h : Lasting s0 s) :
    Lasting s0 (State.cellError id port s) := by
  unfold State.cellError
  repeat' first
    | with_reducible assumption | intro _ | with_reducible apply Lasting.ite
    | with_reducible apply State.abortCopy_lasting | with_reducible apply State.endCopy_lasting
    | with_reducible apply State.putSending_lasting | with_reducible apply State.retireCell_lasting
    | with_reducible apply Lasting.foldl | split | with_reducible apply Lasting.id | dsimp only

theorem State.gateEnd_lasting {s0 : State} (k : Nat) (count : Nat) {s : State} (h : Lasting s0 s) :
    Lasting s0 (State.gateEnd k count s) := by
  unfold State.gateEnd
  repeat' first
    | with_reducible assumption | intro _ | with_reducible apply Lasting.ite
    | with_reducible apply State.clkJudge_lasting | with_reducible apply State.clkLose_lasting
    | with_reducible apply State.putTw_lasting | with_reducible apply State.setClkGood_lasting
    | with_reducible apply State.setTf_lasting

theorem State.noteChange_lasting {s0 : State} (t : Nat) (e : Nat) (n : Nat) {s : State} (h : Lasting s0 s) :
    Lasting s0 (State.noteChange t e n s) := by
  unfold State.noteChange
  repeat' first | with_reducible exact h | with_reducible apply State.modSto_lasting

theorem State.setStreamPolicy_lasting {s0 : State} (q : Nat) (w : Word) {s : State} (h : Lasting s0 s) :
    Lasting s0 (State.setStreamPolicy q w s) := by
  unfold State.setStreamPolicy
  repeat' first
    | with_reducible exact h | with_reducible apply State.dropMerge_lasting | with_reducible apply State.iff_lasting
    | with_reducible apply State.putTw_lasting | with_reducible apply State.raise_lasting

theorem State.tmcSubmit_lasting {s0 : State} (t : Tree) (e : Nat) (len : Nat) (cls : Nat) (addr : Nat) {s : State}
    (h : Lasting s0 s) :
       Lasting s0 (State.tmcSubmit t e len cls addr s) := by
  unfold State.tmcSubmit
  repeat' first
    | with_reducible assumption | intro _ | with_reducible apply Lasting.ite
    | with_reducible apply State.modGrts_lasting | with_reducible apply State.putEntry_lasting
    | with_reducible apply State.showTmc_lasting

theorem State.frontFrame_lasting {s0 : State} (t : Tree) (fc : Nat) {s : State} (h : Lasting s0 s) :
    Lasting s0 (State.frontFrame t fc s) := by
  unfold State.frontFrame
  repeat' first
    | with_reducible assumption | intro _ | with_reducible apply Lasting.ite
    | with_reducible apply State.modFront_lasting | with_reducible apply State.timeApply_lasting
    | with_reducible apply State.timeJudge_lasting | with_reducible apply Lasting.foldl | split

theorem State.endDecided_lasting {s0 : State} (id : Nat) (err : Bool) {s : State} (h : Lasting s0 s) :
    Lasting s0 (State.endDecided id err s) := by
  unfold State.endDecided
  repeat' first
    | with_reducible assumption | intro _ | with_reducible apply Lasting.ite
    | with_reducible apply State.endFrame_lasting | with_reducible apply State.iff_lasting
    | with_reducible apply Lasting.foldl | split

theorem State.copyDecide_lasting {s0 : State} (id : Nat) {s : State} (h : Lasting s0 s) :
    Lasting s0 (State.copyDecide id s) := by
  unfold State.copyDecide
  repeat' first
    | with_reducible assumption | intro _ | with_reducible apply Lasting.ite
    | with_reducible apply State.decideNow_lasting | with_reducible apply State.endDecided_lasting
    | with_reducible apply State.forgetAct_lasting | with_reducible apply State.iff_lasting
    | with_reducible apply Lasting.foldl | split

theorem State.copySent_lasting {s0 : State} (c : Copy) {s : State} (h : Lasting s0 s) :
    Lasting s0 (State.copySent c s) := by
  unfold State.copySent
  repeat' first
    | with_reducible assumption | intro _ | with_reducible apply Lasting.ite
    | with_reducible apply State.count_lasting | with_reducible apply State.countBy_lasting
    | with_reducible apply State.modFrame_lasting | with_reducible apply State.releaseRef_lasting

theorem State.showFc_lasting {s0 : State} (r : Rx) (fc : Nat) {s : State} (h : Lasting s0 s) :
    Lasting s0 (State.showFc r fc s) := by
  unfold State.showFc
  repeat' first | with_reducible exact h | with_reducible apply State.setFld_lasting

theorem State.counterBreak_lasting {s0 : State} (r : Rx) (x2 : FrameHdr) {s : State} (h : Lasting s0 s) :
    Lasting s0 (State.counterBreak r x2 s) := by
  unfold State.counterBreak
  repeat' first
    | with_reducible assumption | intro _ | with_reducible apply Lasting.ite
    | with_reducible apply State.count_lasting | with_reducible apply State.modFrms_lasting
    | with_reducible apply State.raise_lasting | with_reducible apply State.showFc_lasting

theorem State.tmcQueue_lasting {s0 : State} (t : Tree) (cls : Nat) (bytes : Bytes) {s : State} (h : Lasting s0 s) :
    Lasting s0 (State.tmcQueue t cls bytes s).1 := by
  unfold State.tmcQueue
  repeat' first
    | with_reducible assumption | intro _ | with_reducible apply Lasting.ite | with_reducible apply Lasting.ite_fst
    | with_reducible apply State.putSram_lasting | with_reducible apply State.tmcSubmit_lasting
    | with_reducible apply Lasting.foldl | split

theorem State.tmcRequest_lasting {s0 : State} (t : Tree) (kind : Nat) (trans : Nat) (cls : Nat) (body : Bytes) {s :
    State} (h : Lasting s0 s) :
       Lasting s0 (State.tmcRequest t kind trans cls body s) := by
  unfold State.tmcRequest
  repeat' first
    | with_reducible exact h | with_reducible apply State.modActs_lasting
    | with_reducible apply State.tmcQueue_lasting

theorem State.sendNotice_lasting {s0 : State} (t : Tree) (n : Notice) {s : State} (h : Lasting s0 s) :
    Lasting s0 (State.sendNotice t n s) := by
  unfold State.sendNotice
  repeat' first
    | with_reducible exact h | with_reducible apply State.modNotice_lasting
    | with_reducible apply State.tmcRequest_lasting

theorem State.createNotice_lasting {s0 : State} (cause : Nat) {s : State} (h : Lasting s0 s) :
    Lasting s0 (State.createNotice cause s) := by
  unfold State.createNotice
  repeat' first
    | with_reducible assumption | intro _ | with_reducible apply Lasting.ite
    | with_reducible apply State.count_lasting | with_reducible apply State.iff_lasting
    | with_reducible apply State.modActs_lasting | with_reducible apply State.modNoticeNext_lasting
    | with_reducible apply State.sendNotice_lasting | with_reducible apply State.setFld_lasting
    | with_reducible apply State.showNotice_lasting | with_reducible apply Lasting.foldl | split

theorem State.cutWindow_lasting {s0 : State} (t : Tree) (w : Nat × Nat) (e : Nat) {s : State} (h : Lasting s0 s) :
    Lasting s0 (State.cutWindow t w e s) := by
  unfold State.cutWindow
  repeat' first | with_reducible exact h | with_reducible apply State.modTxs_lasting

theorem State.holdFrame_lasting {s0 : State} (id : Nat) {s : State} (h : Lasting s0 s) :
    Lasting s0 (State.holdFrame id s) := by
  unfold State.holdFrame
  repeat' first | with_reducible exact h | with_reducible apply State.modFrame_lasting

theorem State.loseCells_lasting {s0 : State} (id : Nat) {s : State} (h : Lasting s0 s) :
    Lasting s0 (State.loseCells id s) := by
  unfold State.loseCells
  repeat' first
    | with_reducible assumption | intro _ | with_reducible apply Lasting.ite
    | with_reducible apply State.modSto_lasting | with_reducible apply State.pfcFor_lasting
    | with_reducible apply State.putFrame_lasting | with_reducible apply Lasting.foldl | split

theorem State.descError_lasting {s0 : State} (d : Nat) {s : State} (h : Lasting s0 s) :
    Lasting s0 (State.descError d s) := by
  unfold State.descError
  repeat' first
    | with_reducible assumption | intro _ | with_reducible apply Lasting.ite
    | with_reducible apply State.dropListed_lasting | with_reducible apply State.dropSending_lasting
    | with_reducible apply State.dropWaitingOf_lasting | with_reducible apply State.holdFrame_lasting
    | with_reducible apply State.loseCells_lasting | with_reducible apply State.putFrame_lasting
    | with_reducible apply Lasting.foldl | split | with_reducible apply Lasting.id | dsimp only

theorem State.halSend_lasting {s0 : State} (t : Tree) (kind : Nat) (timing : Nat) (fcRef : Nat) (offset : Nat)
    (slots : Nat) (payload : Bytes) {s : State} (h : Lasting s0 s) :
       Lasting s0 (State.halSend t kind timing fcRef offset slots payload s) := by
  unfold State.halSend
  repeat' first
    | with_reducible assumption | intro _ | with_reducible apply Lasting.ite
    | with_reducible apply State.halDone_lasting | with_reducible apply State.halSubmit_lasting
    | with_reducible apply State.iff_lasting | with_reducible apply State.putEntry_lasting
    | with_reducible apply Lasting.foldl | split

theorem State.ptpEgress_lasting {s0 : State} (port : Nat) (frame : Bytes) {s : State} (h : Lasting s0 s) :
    Lasting s0 (State.ptpEgress port frame s).1 := by
  unfold State.ptpEgress
  repeat' first
    | with_reducible assumption | intro _ | with_reducible apply Lasting.ite | with_reducible apply Lasting.ite_fst
    | with_reducible apply State.count_lasting | with_reducible apply Lasting.foldl | split

theorem State.enterGrant_lasting {s0 : State} (t : Tree) (i : Nat) (a : Nat) (fc : Nat) (g : GrantEntry) (span : Nat
    × Nat) {s : State} (h : Lasting s0 s) :
       Lasting s0 (State.enterGrant t i a fc g span s) := by
  unfold State.enterGrant
  repeat' first
    | with_reducible exact h | with_reducible apply State.count_lasting | with_reducible apply State.modGrts_lasting
    | with_reducible apply State.putEntry_lasting | with_reducible apply State.showPending_lasting

theorem State.entryError_lasting {s0 : State} (id : Nat) {s : State} (h : Lasting s0 s) :
    Lasting s0 (State.entryError id s) := by
  unfold State.entryError
  repeat' first
    | with_reducible assumption | intro _ | with_reducible apply Lasting.ite
    | with_reducible apply State.dropFrameCopies_lasting | with_reducible apply State.holdFrame_lasting
    | with_reducible apply State.loseCells_lasting | with_reducible apply Lasting.foldl | split

theorem State.flywheelFrame_lasting {s0 : State} (r : Rx) {s : State} (h : Lasting s0 s) :
    Lasting s0 (State.flywheelFrame r s) := by
  unfold State.flywheelFrame
  repeat' first
    | with_reducible assumption | intro _ | with_reducible apply Lasting.ite
    | with_reducible apply State.count_lasting | with_reducible apply State.fragHunt_lasting
    | with_reducible apply State.fragIdle_lasting | with_reducible apply State.modFrms_lasting

theorem State.fomWindow_lasting {s0 : State} (r : Rx) (fom : Nat) {s : State} (h : Lasting s0 s) :
    Lasting s0 (State.fomWindow r fom s) := by
  unfold State.fomWindow
  repeat' first
    | with_reducible assumption | intro _ | with_reducible apply Lasting.ite | with_reducible apply State.iff_lasting
    | with_reducible apply State.modRxs_lasting | with_reducible apply State.raise_lasting
    | with_reducible apply State.setFld_lasting | with_reducible apply State.setSFld_lasting
    | with_reducible apply State.useFree_lasting

theorem State.fragBegin_lasting {s0 : State} (r : Rx) (pos : Nat) (hdr : Bytes) {s : State} (h : Lasting s0 s) :
    Lasting s0 (State.fragBegin r pos hdr s) := by
  unfold State.fragBegin
  repeat' first | with_reducible exact h | with_reducible apply State.modFrms_lasting

theorem State.fragReceive_lasting {s0 : State} (r : Rx) (payload : Bytes) {s : State} (h : Lasting s0 s) :
    Lasting s0 (State.fragReceive r payload s).1 := by
  unfold State.fragReceive
  repeat' first
    | with_reducible assumption | intro _ | with_reducible apply Lasting.ite | with_reducible apply Lasting.ite_fst
    | with_reducible apply State.count_lasting | with_reducible apply State.countBy_lasting
    | with_reducible apply State.modFrms_lasting | with_reducible apply Lasting.foldl | split

theorem State.fragStep_lasting {s0 : State} (r : Rx) (pos : Nat) (bs : Bytes) {s : State} (h : Lasting s0 s) :
    Lasting s0 (State.fragStep r pos bs s) := by
  unfold State.fragStep
  repeat' first
    | with_reducible assumption | intro _ | with_reducible apply Lasting.ite
    | with_reducible apply State.count_lasting | with_reducible apply State.fragBegin_lasting
    | with_reducible apply State.fragHunt_lasting | with_reducible apply State.modFrms_lasting
    | with_reducible apply State.setFld_lasting | with_reducible apply Lasting.foldl | split

theorem State.gaspWait_lasting {s0 : State} (t : Tree) {s : State} (h : Lasting s0 s) :
    Lasting s0 (State.gaspWait t s) := by
  unfold State.gaspWait
  repeat' first
    | with_reducible assumption | intro _ | with_reducible apply Lasting.ite
    | with_reducible apply State.halSend_lasting | with_reducible apply State.modNotice_lasting
    | with_reducible apply Lasting.foldl | split

theorem State.halGrantAccepted_lasting {s0 : State} (t : Tree) (t0 : Nat) {s : State} (h : Lasting s0 s) :
    Lasting s0 (State.halGrantAccepted t t0 s) := by
  unfold State.halGrantAccepted
  repeat' first
    | with_reducible assumption | intro _ | with_reducible apply Lasting.ite
    | with_reducible apply State.cutWindow_lasting | with_reducible apply State.halAbort_lasting
    | with_reducible apply State.modHalJob_lasting | with_reducible apply Lasting.foldl | split

theorem State.grantReceive_lasting {s0 : State} (t : Tree) (g : GrantEntry) (fc : Nat) (span : Nat × Nat) {s :
    State} (h : Lasting s0 s) :
       Lasting s0 (State.grantReceive t g fc span s).1 := by
  unfold State.grantReceive
  repeat' first
    | with_reducible assumption | intro _ | with_reducible apply Lasting.ite | with_reducible apply Lasting.ite_fst
    | with_reducible apply State.count_lasting | with_reducible apply State.enterGrant_lasting
    | with_reducible apply State.raise_lasting | with_reducible apply State.raiseMs_lasting
    | with_reducible apply State.setFld_lasting | with_reducible apply State.useFree_lasting
    | with_reducible apply Lasting.foldl | split | with_reducible apply Lasting.id | dsimp only

theorem State.halCommit_lasting {s0 : State} (t : Tree) (slot : Nat) {s : State} (h : Lasting s0 s) :
    Lasting s0 (State.halCommit t slot s) := by
  unfold State.halCommit
  repeat' first
    | with_reducible assumption | intro _ | with_reducible apply Lasting.ite
    | with_reducible apply State.halDone_lasting | with_reducible apply State.modHalJob_lasting
    | with_reducible apply State.modTxs_lasting | with_reducible apply Lasting.foldl | split

theorem State.halDetect_lasting {s0 : State} (t : Tree) (gain : Nat) {s : State} (h : Lasting s0 s) :
    Lasting s0 (State.halDetect t gain s) := by
  unfold State.halDetect
  repeat' first
    | with_reducible assumption | intro _ | with_reducible apply Lasting.ite
    | with_reducible apply State.count_lasting | with_reducible apply State.modHals_lasting
    | with_reducible apply State.setFld_lasting

theorem State.halEnd_lasting {s0 : State} (t : Tree) (slot : Nat) {s : State} (h : Lasting s0 s) :
    Lasting s0 (State.halEnd t slot s) := by
  unfold State.halEnd
  repeat' first
    | with_reducible assumption | intro _ | with_reducible apply Lasting.ite
    | with_reducible apply State.halAbort_lasting | with_reducible apply State.halDone_lasting
    | with_reducible apply Lasting.foldl | split

theorem State.halStore_lasting {s0 : State} (t : Tree) (kind : Nat) (plen : Nat) (level : Nat) (fc : Nat) (ofs :
    Nat) (payload : Bytes) {s : State} (h : Lasting s0 s) :
       Lasting s0 (State.halStore t kind plen level fc ofs payload s) := by
  unfold State.halStore
  repeat' first
    | with_reducible assumption | intro _ | with_reducible apply Lasting.ite
    | with_reducible apply State.count_lasting | with_reducible apply State.putEntry_lasting
    | with_reducible apply State.raise_lasting | with_reducible apply State.setFld_lasting

theorem State.halFrameEnd_lasting {s0 : State} (t : Tree) (syms : List Nat) (level : Nat) {s : State} (h : Lasting
    s0 s) :
       Lasting s0 (State.halFrameEnd t syms level s) := by
  unfold State.halFrameEnd
  repeat' first
    | with_reducible assumption | intro _ | with_reducible apply Lasting.ite
    | with_reducible apply State.count_lasting | with_reducible apply State.halRelease_lasting
    | with_reducible apply State.halStore_lasting | with_reducible apply State.halSync_lasting
    | with_reducible apply State.raiseMs_lasting | with_reducible apply State.setFld_lasting
    | with_reducible apply Lasting.foldl | split

theorem State.releaseHeld_lasting {s0 : State} (t : Tree) {s : State} (h : Lasting s0 s) :
    Lasting s0 (State.releaseHeld t s) := by
  unfold State.releaseHeld
  repeat' first
    | with_reducible assumption | intro _ | with_reducible apply Lasting.ite
    | with_reducible apply State.sendNotice_lasting | with_reducible apply Lasting.foldl | split

theorem State.noticeSent_lasting {s0 : State} (t : Tree) (id : Nat) {s : State} (h : Lasting s0 s) :
    Lasting s0 (State.noticeSent t id s) := by
  unfold State.noticeSent
  repeat' first
    | with_reducible exact h | with_reducible apply State.modNotice_lasting
    | with_reducible apply State.releaseHeld_lasting

theorem State.halNoticeSent_lasting {s0 : State} (t : Tree) (payload : Bytes) {s : State} (h : Lasting s0 s) :
    Lasting s0 (State.halNoticeSent t payload s) := by
  unfold State.halNoticeSent
  repeat' first
    | with_reducible assumption | intro _ | with_reducible apply State.count_lasting
    | with_reducible apply State.iff_lasting | with_reducible apply State.noticeSent_lasting
    | with_reducible apply State.raise_lasting | with_reducible apply State.setFld_lasting

theorem State.halStart_lasting {s0 : State} (t : Tree) (slot : Nat) {s : State} (h : Lasting s0 s) :
    Lasting s0 (State.halStart t slot s) := by
  unfold State.halStart
  repeat' first
    | with_reducible assumption | intro _ | with_reducible apply Lasting.ite
    | with_reducible apply State.driveGate_lasting | with_reducible apply State.drivePrep_lasting
    | with_reducible apply State.halDone_lasting | with_reducible apply State.modHalJob_lasting
    | with_reducible apply State.modTxs_lasting | with_reducible apply State.setFld_lasting
    | with_reducible apply Lasting.foldl | split

theorem State.hdrPresync_lasting {s0 : State} (r : Rx) (x2 : FrameHdr) {s : State} (h : Lasting s0 s) :
    Lasting s0 (State.hdrPresync r x2 s) := by
  unfold State.hdrPresync
  repeat' first
    | with_reducible exact h | with_reducible apply State.beginFrame_lasting
    | with_reducible apply State.modFrms_lasting | with_reducible apply State.setFld_lasting
    | with_reducible apply State.showFc_lasting

theorem State.headerStep_lasting {s0 : State} (r : Rx) (x2 : FrameHdr) {s : State} (h : Lasting s0 s) :
    Lasting s0 (State.headerStep r x2 s) := by
  unfold State.headerStep
  repeat' first
    | with_reducible assumption | intro _ | with_reducible apply Lasting.ite
    | with_reducible apply State.beginFrame_lasting | with_reducible apply State.counterBreak_lasting
    | with_reducible apply State.flywheelFrame_lasting | with_reducible apply State.hdrHunt_lasting
    | with_reducible apply State.hdrPresync_lasting | with_reducible apply State.modFrms_lasting
    | with_reducible apply State.raise_lasting | with_reducible apply State.setFld_lasting
    | with_reducible apply State.showFc_lasting | with_reducible apply Lasting.foldl | split

theorem State.onBattery_lasting {s0 : State} {s : State} (h : Lasting s0 s) :
    Lasting s0 (State.onBattery s) := by
  unfold State.onBattery
  repeat' first
    | with_reducible assumption | intro _ | with_reducible apply Lasting.ite
    | with_reducible apply State.createNotice_lasting | with_reducible apply State.enterDark_lasting
    | with_reducible apply State.forget_lasting | with_reducible apply State.iff_lasting
    | with_reducible apply State.setFld_lasting | with_reducible apply State.setMode_lasting
    | with_reducible apply Lasting.foldl | split

theorem State.judgeLaunch_lasting {s0 : State} (t : Tree) (v : Int) {s : State} (h : Lasting s0 s) :
    Lasting s0 (State.judgeLaunch t v s) := by
  unfold State.judgeLaunch
  repeat' first
    | with_reducible exact h | with_reducible apply State.iff_lasting | with_reducible apply State.raise_lasting
    | with_reducible apply State.setFld_lasting

theorem State.kstWrite_lasting {s0 : State} (n : Nat) (gen : Nat) (tag : Bytes → Bytes) {s : State} (h : Lasting s0
    s) :
       Lasting s0 (State.kstWrite n gen tag s) := by
  unfold State.kstWrite
  repeat' first | with_reducible exact h | with_reducible apply State.putKstSlot_lasting

theorem State.kstIdle_lasting {s0 : State} {s : State} (h : Lasting s0 s) :
    Lasting s0 (State.kstIdle s) := by
  unfold State.kstIdle
  repeat' first
    | with_reducible exact h | with_reducible apply State.modKst_lasting | with_reducible apply State.setFld_lasting

theorem State.kstAbort_lasting {s0 : State} {s : State} (h : Lasting s0 s) :
    Lasting s0 (State.kstAbort s) := by
  unfold State.kstAbort
  repeat' first
    | with_reducible assumption | intro _ | with_reducible apply Lasting.ite
    | with_reducible apply State.count_lasting | with_reducible apply State.kstIdle_lasting
    | with_reducible apply State.kstWrite_lasting | with_reducible apply State.setFld_lasting
    | with_reducible apply State.useFree_lasting

theorem State.kstActivate_lasting {s0 : State} (n : Nat) {s : State} (h : Lasting s0 s) :
    Lasting s0 (State.kstActivate n s) := by
  unfold State.kstActivate
  repeat' first
    | with_reducible exact h | with_reducible apply State.putReg_lasting | with_reducible apply State.setFld_lasting
    | with_reducible apply State.showKeystore_lasting

theorem State.kstCommitDone_lasting {s0 : State} (ok : Bool) {s : State} (h : Lasting s0 s) :
    Lasting s0 (State.kstCommitDone ok s) := by
  unfold State.kstCommitDone
  repeat' first
    | with_reducible assumption | intro _ | with_reducible apply Lasting.ite
    | with_reducible apply State.count_lasting | with_reducible apply State.kstAbort_lasting
    | with_reducible apply State.kstActivate_lasting | with_reducible apply State.kstIdle_lasting
    | with_reducible apply State.kstWrite_lasting | with_reducible apply State.modKst_lasting
    | with_reducible apply State.raise_lasting | with_reducible apply State.setFld_lasting
    | with_reducible apply State.useFree_lasting

theorem State.kstGenkeyDone_lasting {s0 : State} {s : State} (h : Lasting s0 s) :
    Lasting s0 (State.kstGenkeyDone s) := by
  unfold State.kstGenkeyDone
  repeat' first
    | with_reducible assumption | intro _ | with_reducible apply Lasting.ite
    | with_reducible apply State.kstIdle_lasting | with_reducible apply State.putKeyPair_lasting
    | with_reducible apply State.raise_lasting | with_reducible apply State.randomBytes_lasting

theorem State.kstPowerUp_lasting {s0 : State} {s : State} (h : Lasting s0 s) :
    Lasting s0 (State.kstPowerUp s) := by
  unfold State.kstPowerUp
  repeat' first
    | with_reducible assumption | intro _ | with_reducible apply Lasting.ite
    | with_reducible apply State.count_lasting | with_reducible apply State.countBy_lasting
    | with_reducible apply State.iff_lasting | with_reducible apply State.kstActivate_lasting
    | with_reducible apply State.modKst_lasting | with_reducible apply State.putReg_lasting
    | with_reducible apply State.raise_lasting | with_reducible apply State.setFld_lasting
    | with_reducible apply State.showKeystore_lasting | with_reducible apply Lasting.foldl | split

theorem State.onMains_lasting {s0 : State} {s : State} (h : Lasting s0 s) :
    Lasting s0 (State.onMains s) := by
  unfold State.onMains
  repeat' first
    | with_reducible assumption | intro _ | with_reducible apply Lasting.ite
    | with_reducible apply State.createNotice_lasting | with_reducible apply State.iff_lasting
    | with_reducible apply State.setFld_lasting | with_reducible apply State.setMode_lasting
    | with_reducible apply Lasting.foldl | split

theorem State.memError_lasting {s0 : State} (what : MemErr) {s : State} (h : Lasting s0 s) :
    Lasting s0 (State.memError what s) := by
  unfold State.memError
  repeat' first
    | with_reducible assumption | intro _ | with_reducible apply Lasting.ite
    | with_reducible apply State.cellError_lasting | with_reducible apply State.count_lasting
    | with_reducible apply State.descError_lasting | with_reducible apply State.entryError_lasting
    | with_reducible apply State.raise_lasting | with_reducible apply Lasting.foldl | split

theorem State.mergeAccept_lasting {s0 : State} (t : Tree) (q : Nat) (seq : Nat) {s : State} (h : Lasting s0 s) :
    Lasting s0 (State.mergeAccept t q seq s) := by
  unfold State.mergeAccept
  repeat' first
    | with_reducible exact h | with_reducible apply State.count_lasting | with_reducible apply State.modDual_lasting

theorem State.putMerge_lasting {s0 : State} (q : Nat) (hi : Nat) (stale : Nat) (gaps : List Nat) {s : State} (h :
    Lasting s0 s) :
       Lasting s0 (State.putMerge q hi stale gaps s) := by
  unfold State.putMerge
  repeat' first
    | with_reducible exact h | with_reducible apply State.modDual_lasting | with_reducible apply State.setTf_lasting

theorem State.mergeDup_lasting {s0 : State} (q : Nat) (seq : Nat) {s : State} (h : Lasting s0 s) :
    Lasting s0 (State.mergeDup q seq s) := by
  unfold State.mergeDup
  repeat' first
    | with_reducible exact h | with_reducible apply State.count_lasting | with_reducible apply State.modDual_lasting

theorem State.merge_lasting {s0 : State} (t : Tree) (q : Nat) (seq : Nat) (last : Bool) {s : State} (h : Lasting s0
    s) :
       Lasting s0 (State.merge t q seq last s).1 := by
  unfold State.merge
  repeat' first
    | with_reducible assumption | intro _ | with_reducible apply Lasting.ite | with_reducible apply Lasting.ite_fst
    | with_reducible apply State.count_lasting | with_reducible apply State.countBy_lasting
    | with_reducible apply State.mergeAccept_lasting | with_reducible apply State.mergeDup_lasting
    | with_reducible apply State.putMerge_lasting | with_reducible apply State.raiseMs_lasting

theorem State.noteCodeword_lasting {s0 : State} (r : Rx) (corrected : Nat) (unc : Bool) (block : Bytes) {s : State}
    (h : Lasting s0 s) :
       Lasting s0 (State.noteCodeword r corrected unc block s) := by
  unfold State.noteCodeword
  repeat' first
    | with_reducible assumption | intro _ | with_reducible apply Lasting.ite
    | with_reducible apply State.modFrms_lasting

theorem State.noticeRetry_lasting {s0 : State} (t : Tree) {s : State} (h : Lasting s0 s) :
    Lasting s0 (State.noticeRetry t s) := by
  unfold State.noticeRetry
  repeat' first
    | with_reducible assumption | intro _ | with_reducible apply Lasting.ite
    | with_reducible apply State.count_lasting | with_reducible apply State.modNotice_lasting
    | with_reducible apply State.sendNotice_lasting | with_reducible apply Lasting.foldl | split

theorem State.quarantine_lasting {s0 : State} (t : Tree) (cause : Nat) (reason : Nat) {s : State} (h : Lasting s0 s) :
    Lasting s0 (State.quarantine t cause reason s) := by
  unfold State.quarantine
  repeat' first
    | with_reducible assumption | intro _ | with_reducible apply State.iff_lasting
    | with_reducible apply State.recordQuarantine_lasting | with_reducible apply State.setFld_lasting
    | with_reducible apply State.setMode_lasting

theorem State.rogueEvent_lasting {s0 : State} (t : Tree) (cause : Nat) {s : State} (h : Lasting s0 s) :
    Lasting s0 (State.rogueEvent t cause s) := by
  unfold State.rogueEvent
  repeat' first
    | with_reducible exact h | with_reducible apply State.count_lasting
    | with_reducible apply State.enterForce_lasting | with_reducible apply State.iff_lasting
    | with_reducible apply State.modTxs_lasting | with_reducible apply State.pinsLow_lasting
    | with_reducible apply State.quarantine_lasting | with_reducible apply State.raise_lasting
    | with_reducible apply State.setFld_lasting

theorem State.openWindow_lasting {s0 : State} (r : Rx) {s : State} (h : Lasting s0 s) :
    Lasting s0 (State.openWindow r s) := by
  unfold State.openWindow
  repeat' first | with_reducible exact h | with_reducible apply State.modFrms_lasting

theorem State.pageOff_lasting {s0 : State} (p : Nat) {stop : State → State} {s : State} (h : Lasting s0 s) (h2 : ∀
    y0, Lasting s0 y0 → Lasting s0 (stop y0)) :
       Lasting s0 (State.pageOff p stop s) := by
  unfold State.pageOff
  repeat' first
    | with_reducible assumption | intro _ | with_reducible apply Lasting.ite
    | with_reducible apply State.guarded_lasting | with_reducible apply State.setFld_lasting | with_reducible apply h2

theorem State.pageOn_lasting {s0 : State} (p : Nat) {start : State → State} {s : State} (h : Lasting s0 s) (h2 : ∀
    y0, Lasting s0 y0 → Lasting s0 (start y0)) :
       Lasting s0 (State.pageOn p start s) := by
  unfold State.pageOn
  repeat' first
    | with_reducible assumption | intro _ | with_reducible apply Lasting.ite
    | with_reducible apply State.guarded_lasting | with_reducible apply State.setFld_lasting | with_reducible apply h2

theorem State.passLine_lasting {s0 : State} (f : LineFrag) (accept : Bool) {s : State} (h : Lasting s0 s) :
    Lasting s0 (State.passLine f accept s) := by
  unfold State.passLine
  repeat' first
    | with_reducible assumption | intro _ | with_reducible apply Lasting.ite
    | with_reducible apply State.freeLine_lasting | with_reducible apply State.modDual_lasting

theorem State.ppsFall_lasting {s0 : State} {s : State} (h : Lasting s0 s) :
    Lasting s0 (State.ppsFall s) := by
  unfold State.ppsFall
  repeat' first
    | with_reducible exact h | with_reducible apply State.iff_lasting | with_reducible apply State.ppsLow_lasting

theorem State.pruneWindows_lasting {s0 : State} (t : Tree) {s : State} (h : Lasting s0 s) :
    Lasting s0 (State.pruneWindows t s) := by
  unfold State.pruneWindows
  repeat' first | with_reducible exact h | with_reducible apply State.modTxs_lasting

theorem State.ptpIngress_lasting {s0 : State} (port : Nat) (frame : Bytes) {s : State} (h : Lasting s0 s) :
    Lasting s0 (State.ptpIngress port frame s) := by
  unfold State.ptpIngress
  repeat' first
    | with_reducible assumption | intro _ | with_reducible apply Lasting.ite
    | with_reducible apply State.count_lasting | with_reducible apply State.putEntry_lasting
    | with_reducible apply State.raiseMs_lasting | with_reducible apply State.setFld_lasting
    | with_reducible apply Lasting.foldl | split

theorem State.putDefect_lasting {s0 : State} (r : Rx) (f : Fld) (setBit : Nat) (clrBit : Nat) (on : Bool) {s :
    State} (h : Lasting s0 s) :
       Lasting s0 (State.putDefect r f setBit clrBit on s) := by
  unfold State.putDefect
  repeat' first
    | with_reducible exact h | with_reducible apply State.iff_lasting | with_reducible apply State.raise_lasting
    | with_reducible apply State.setFld_lasting

theorem State.receiveLine_lasting {s0 : State} (r : Rx) (fc : Nat) (hdr : Bytes) (payload : Bytes) {s : State} (h :
    Lasting s0 s) :
       Lasting s0 (State.receiveLine r fc hdr payload s) := by
  unfold State.receiveLine
  repeat' first
    | with_reducible exact h | with_reducible apply State.drawCells_lasting
    | with_reducible apply State.modDual_lasting

theorem State.selRestore_lasting {s0 : State} {s : State} (h : Lasting s0 s) :
    Lasting s0 (State.selRestore s) := by
  unfold State.selRestore
  repeat' first
    | with_reducible assumption | intro _ | with_reducible apply Lasting.ite
    | with_reducible apply State.setSel_lasting

theorem State.selectContent.keep_lasting {s0 : State} {s : State} (t : Tree) (i : Nat) (c : Content) (h : Lasting s0
    s) :
       Lasting s0 (State.selectContent.keep s t i c) := by
  unfold State.selectContent.keep
  repeat' first
    | with_reducible exact h | with_reducible apply State.count_lasting | with_reducible apply State.modGrts_lasting
    | with_reducible apply State.setTf_lasting

theorem State.selectContent_lasting {s0 : State} (t : Tree) (i : Nat) {s : State} (h : Lasting s0 s) :
    Lasting s0 (State.selectContent t i s) := by
  unfold State.selectContent
  repeat' first
    | with_reducible assumption | intro _ | with_reducible apply Lasting.ite
    | with_reducible apply State.count_lasting | with_reducible apply State.countBy_lasting
    | with_reducible apply State.fillStream_lasting | with_reducible apply State.selectContent.keep_lasting
    | with_reducible apply State.setTmcState_lasting | with_reducible apply Lasting.foldl | split

theorem State.sendContent_lasting {s0 : State} (t : Tree) (c : Content) {s : State} (h : Lasting s0 s) :
    Lasting s0 (State.sendContent t c s) := by
  unfold State.sendContent
  repeat' first
    | with_reducible assumption | intro _ | with_reducible apply Lasting.ite
    | with_reducible apply State.copySent_lasting | with_reducible apply State.countBy_lasting
    | with_reducible apply State.setTmcState_lasting | with_reducible apply Lasting.foldl | split

theorem State.skewUpdate_lasting {s0 : State} {s : State} (h : Lasting s0 s) :
    Lasting s0 (State.skewUpdate s) := by
  unfold State.skewUpdate
  repeat' first
    | with_reducible exact h | with_reducible apply State.iff_lasting | with_reducible apply State.modDual_lasting
    | with_reducible apply State.raise_lasting | with_reducible apply State.setFld_lasting

theorem State.tickTake_lasting {s0 : State} {s : State} (h : Lasting s0 s) :
    Lasting s0 (State.tickTake s) := by
  unfold State.tickTake
  repeat' first
    | with_reducible assumption | intro _ | with_reducible apply Lasting.ite
    | with_reducible apply State.modUsch_lasting

theorem State.timeCalDone_lasting {s0 : State} {s : State} (h : Lasting s0 s) :
    Lasting s0 (State.timeCalDone s) := by
  unfold State.timeCalDone
  repeat' first
    | with_reducible assumption | intro _ | with_reducible apply Lasting.ite
    | with_reducible apply State.modTime_lasting | with_reducible apply State.setFld_lasting

theorem State.timeSetApply_lasting {s0 : State} (r : Rx) {s : State} (h : Lasting s0 s) :
    Lasting s0 (State.timeSetApply r s) := by
  unfold State.timeSetApply
  repeat' first
    | with_reducible assumption | intro _ | with_reducible apply Lasting.ite
    | with_reducible apply State.modTime_lasting | with_reducible apply State.setFld_lasting
    | with_reducible apply State.timeApply_lasting | with_reducible apply State.timeJudge_lasting

theorem State.tmcRemember_lasting {s0 : State} (t : Tree) (kind : Nat) (trans : Nat) (resp : Option Bytes) {s :
    State} (h : Lasting s0 s) :
       Lasting s0 (State.tmcRemember t kind trans resp s) := by
  unfold State.tmcRemember
  repeat' first | with_reducible exact h | with_reducible apply State.modActs_lasting

theorem State.tmcReply_lasting {s0 : State} (t : Tree) (bytes : Bytes) {s : State} (h : Lasting s0 s) :
    Lasting s0 (State.tmcReply t bytes s) := by
  unfold State.tmcReply
  repeat' first
    | with_reducible assumption | intro _ | with_reducible apply Lasting.ite
    | with_reducible apply State.count_lasting | with_reducible apply State.tmcQueue_lasting

theorem State.tmcAnswer_lasting {s0 : State} (t : Tree) (x : TmcMsg) (auth : Bool) (code : Nat) (rest : Bytes) {s :
    State} (h : Lasting s0 s) :
       Lasting s0 (State.tmcAnswer t x auth code rest s) := by
  unfold State.tmcAnswer
  repeat' first
    | with_reducible exact h | with_reducible apply State.tmcRemember_lasting
    | with_reducible apply State.tmcReply_lasting

theorem State.tmcTake_lasting {s0 : State} (t : Tree) (m : TmcIn) {s : State} (h : Lasting s0 s) :
    Lasting s0 (State.tmcTake t m s) := by
  unfold State.tmcTake
  repeat' first | with_reducible exact h | with_reducible apply State.modActs_lasting

theorem State.tmcReceive_lasting {s0 : State} (t : Tree) (m : TmcIn) {run : TmcMsg → State → State × Reply} {s :
    State} (h : Lasting s0 s) (h3 : ∀ y0 y1, Lasting s0 y1 → Lasting s0 ((run y0 y1).1)) :
       Lasting s0 (State.tmcReceive t m run s) := by
  unfold State.tmcReceive
  repeat' first
    | with_reducible assumption | intro _ | with_reducible apply Lasting.ite
    | with_reducible apply State.count_lasting | with_reducible apply State.iff_lasting
    | with_reducible apply State.raiseMs_lasting | with_reducible apply State.tmcAnswer_lasting
    | with_reducible apply State.tmcRemember_lasting | with_reducible apply State.tmcReply_lasting
    | with_reducible apply State.tmcTake_lasting | with_reducible apply h3 | with_reducible apply Lasting.foldl
    | split | with_reducible apply Lasting.id | dsimp only

theorem State.tmcKind_lasting {s0 : State} (t : Tree) (m : TmcIn) (kind : Nat) {run : TmcMsg → State → State ×
    Reply} {s : State} (h : Lasting s0 s) (h4 : ∀ y0 y1, Lasting s0 y1 → Lasting s0 ((run y0 y1).1)) :
       Lasting s0 (State.tmcKind t m kind run s) := by
  unfold State.tmcKind
  repeat' first
    | with_reducible assumption | intro _ | with_reducible apply Lasting.ite
    | with_reducible apply State.tmcReceive_lasting | with_reducible apply h4

theorem State.tmcSent_lasting {s0 : State} (t : Tree) (es : List Nat) {s : State} (h : Lasting s0 s) :
    Lasting s0 (State.tmcSent t es s) := by
  unfold State.tmcSent
  repeat' first
    | with_reducible assumption | intro _ | with_reducible apply Lasting.ite
    | with_reducible apply State.count_lasting | with_reducible apply State.iff_lasting
    | with_reducible apply State.noticeSent_lasting | with_reducible apply State.raise_lasting
    | with_reducible apply State.setFld_lasting | with_reducible apply Lasting.foldl | split

theorem State.unprotected_lasting {s0 : State} (f : LineFrag) {s : State} (h : Lasting s0 s) :
    Lasting s0 (State.unprotected f s) := by
  unfold State.unprotected
  repeat' first
    | with_reducible assumption | intro _ | with_reducible apply State.count_lasting
    | with_reducible apply State.dropParts_lasting | with_reducible apply State.iff_lasting
    | with_reducible apply State.passLine_lasting | with_reducible apply State.setProgress_lasting

theorem State.wakeRequest_lasting {s0 : State} (t : Tree) (cause : Nat) (seq : Nat) {s : State} (h : Lasting s0 s) :
    Lasting s0 (State.wakeRequest t cause seq s) := by
  unfold State.wakeRequest
  repeat' first | with_reducible exact h | with_reducible apply State.halSend_lasting

theorem State.windowEnd_lasting {s0 : State} (r : Rx) {s : State} (h : Lasting s0 s) :
    Lasting s0 (State.windowEnd r s) := by
  unfold State.windowEnd
  repeat' first
    | with_reducible exact h | with_reducible apply State.iff_lasting | with_reducible apply State.modFrms_lasting
    | with_reducible apply State.openWindow_lasting | with_reducible apply State.putDefect_lasting
    | with_reducible apply State.setFld_lasting | with_reducible apply State.useFree_lasting

theorem State.windowBoundary_lasting {s0 : State} (r : Rx) {s : State} (h : Lasting s0 s) :
    Lasting s0 (State.windowBoundary r s) := by
  unfold State.windowBoundary
  repeat' first
    | with_reducible assumption | intro _ | with_reducible apply Lasting.ite
    | with_reducible apply State.openWindow_lasting | with_reducible apply State.windowEnd_lasting

theorem State.withdrawCopies_lasting {s0 : State} (t : Tree) {s : State} (h : Lasting s0 s) :
    Lasting s0 (State.withdrawCopies t s) := by
  unfold State.withdrawCopies
  repeat' first
    | with_reducible assumption | intro _ | with_reducible apply Lasting.ite
    | with_reducible apply State.count_lasting | with_reducible apply State.endProtected_lasting
    | with_reducible apply State.unlinkCopy_lasting | with_reducible apply Lasting.foldl | split

end Sys2Proof.Machine
end

