-- ==== Sys2Proof/Laws/LastingPart.lean ====
section
/-! SUPPORT. What leaves what lasts (Laws/Lasting.lean): rings, egress, the audit, control crypto, domains, UNI ports, regions. -/

namespace Sys2Proof.Machine

theorem State.modRing_lasting {s0 : State} (f : Nat) (rx : Bool) (k : Nat) (g : RingSt → RingSt) {s : State} (h :
    Lasting s0 s) :
       Lasting s0 (State.modRing f rx k g s) := by
  unfold State.modRing
  repeat' first | with_reducible exact h | with_reducible apply State.modDma_lasting

theorem State.dropJob_lasting {s0 : State} (f : Nat) (k : Nat) {s : State} (h : Lasting s0 s) :
    Lasting s0 (State.dropJob f k s) := by
  unfold State.dropJob
  repeat' first
    | with_reducible assumption | intro _ | with_reducible apply Lasting.ite
    | with_reducible apply State.freeFrame_lasting | with_reducible apply State.iff_lasting
    | with_reducible apply State.modRing_lasting | with_reducible apply Lasting.foldl | split

theorem State.abortJob_lasting {s0 : State} (f : Nat) (k : Nat) {s : State} (h : Lasting s0 s) :
    Lasting s0 (State.abortJob f k s) := by
  unfold State.abortJob
  repeat' first
    | with_reducible assumption | intro _ | with_reducible apply Lasting.ite
    | with_reducible apply State.count_lasting | with_reducible apply State.dropJob_lasting

theorem State.ringAdvance_lasting {s0 : State} (f : Nat) (rx : Bool) (k : Nat) (n : Nat) {s : State} (h : Lasting s0
    s) :
       Lasting s0 (State.ringAdvance f rx k n s) := by
  unfold State.ringAdvance
  repeat' first | with_reducible exact h | with_reducible apply State.setRg_lasting

theorem State.ringComplete_lasting {s0 : State} (f : Nat) (rx : Bool) (k : Nat) (bytes : Bytes) {s : State} (h :
    Lasting s0 s) :
       Lasting s0 (State.ringComplete f rx k bytes s) := by
  unfold State.ringComplete
  repeat' first
    | with_reducible exact h | with_reducible apply State.count_lasting | with_reducible apply State.emit_lasting
    | with_reducible apply State.modRing_lasting

theorem State.sendLocal_lasting {s0 : State} (f : Nat) (v : Nat) {s : State} (h : Lasting s0 s) :
    Lasting s0 (State.sendLocal f v s) := by
  unfold State.sendLocal
  repeat' first
    | with_reducible assumption | intro _ | with_reducible apply Lasting.ite
    | with_reducible apply State.sendOwned_lasting | with_reducible apply State.sendVector.dropped_lasting

theorem State.ringVector_lasting {s0 : State} (f : Nat) (rx : Bool) (k : Nat) {s : State} (h : Lasting s0 s) :
    Lasting s0 (State.ringVector f rx k s) := by
  unfold State.ringVector
  repeat' first
    | with_reducible assumption | intro _ | with_reducible apply Lasting.ite
    | with_reducible apply State.modRing_lasting | with_reducible apply State.sendLocal_lasting

theorem State.setStarved_lasting {s0 : State} (q : Nat) (on : Bool) {s : State} (h : Lasting s0 s) :
    Lasting s0 (State.setStarved q on s) := by
  unfold State.setStarved
  repeat' first | with_reducible exact h | with_reducible apply State.modDma_lasting

theorem State.ageDiscard_lasting {s0 : State} (q : Nat) (c : Copy) {s : State} (h : Lasting s0 s) :
    Lasting s0 (State.ageDiscard q c s) := by
  unfold State.ageDiscard
  repeat' first
    | with_reducible exact h | with_reducible apply State.count_lasting | with_reducible apply State.countBy_lasting
    | with_reducible apply State.raiseMs_lasting | with_reducible apply State.releaseRef_lasting
    | with_reducible apply State.setStarved_lasting | with_reducible apply State.unlinkCopy_lasting

theorem State.cxlDown_lasting {s0 : State} {s : State} (h : Lasting s0 s) :
    Lasting s0 (State.cxlDown s) := by
  unfold State.cxlDown
  repeat' first
    | with_reducible assumption | intro _ | with_reducible apply Lasting.ite
    | with_reducible apply State.count_lasting | with_reducible apply State.loseTier_lasting
    | with_reducible apply State.raise_lasting | with_reducible apply State.setFld_lasting

theorem State.showJobs_lasting {s0 : State} {s : State} (h : Lasting s0 s) :
    Lasting s0 (State.showJobs s) := by
  unfold State.showJobs
  repeat' first | with_reducible exact h | with_reducible apply State.setFld_lasting

theorem State.setJobState_lasting {s0 : State} (k : Nat) (v : Nat) {s : State} (h : Lasting s0 s) :
    Lasting s0 (State.setJobState k v s) := by
  unfold State.setJobState
  repeat' first
    | with_reducible exact h | with_reducible apply State.setTf_lasting | with_reducible apply State.showJobs_lasting

theorem State.putJob_lasting {s0 : State} (k : Nat) (j : CcryJob) {s : State} (h : Lasting s0 s) :
    Lasting s0 (State.putJob k j s) := by
  unfold State.putJob
  repeat' first | with_reducible exact h | with_reducible apply State.modCcry_lasting

theorem State.feed_lasting {s0 : State} (k : Nat) (n : Nat) {s : State} (h : Lasting s0 s) :
    Lasting s0 (State.feed k n s) := by
  unfold State.feed
  repeat' first
    | with_reducible exact h | with_reducible apply State.countBy_lasting | with_reducible apply State.putJob_lasting
    | with_reducible apply State.putSram_lasting | with_reducible apply State.putTw_lasting

theorem State.stopJob_lasting {s0 : State} (k : Nat) {s : State} (h : Lasting s0 s) :
    Lasting s0 (State.stopJob k s) := by
  unfold State.stopJob
  repeat' first
    | with_reducible exact h | with_reducible apply State.feed_lasting | with_reducible apply State.iff_lasting
    | with_reducible apply State.setJobState_lasting | with_reducible apply State.useFree_lasting

theorem State.ccryStop_lasting {s0 : State} {s : State} (h : Lasting s0 s) :
    Lasting s0 (State.ccryStop s) := by
  unfold State.ccryStop
  repeat' first
    | with_reducible assumption | intro _ | with_reducible apply Lasting.ite
    | with_reducible apply State.stopJob_lasting | with_reducible apply Lasting.foldl | split

theorem State.dropPlaced_lasting {s0 : State} (t : Tree) (i : Nat) {s : State} (h : Lasting s0 s) :
    Lasting s0 (State.dropPlaced t i s) := by
  unfold State.dropPlaced
  repeat' first
    | with_reducible assumption | intro _ | with_reducible apply Lasting.ite
    | with_reducible apply State.endCopy_lasting | with_reducible apply State.modGrts_lasting
    | with_reducible apply Lasting.foldl | split

theorem State.dropStore_lasting {s0 : State} {s : State} (h : Lasting s0 s) :
    Lasting s0 (State.dropStore s) := by
  unfold State.dropStore
  repeat' first
    | with_reducible assumption | intro _ | with_reducible apply Lasting.ite
    | with_reducible apply State.count_lasting | with_reducible apply State.dropFrameCopies_lasting
    | with_reducible apply State.dropLine_lasting | with_reducible apply State.dropPlaced_lasting
    | with_reducible apply State.forgetCells_lasting | with_reducible apply State.freeFrame_lasting
    | with_reducible apply State.modSto_lasting | with_reducible apply State.returnCells_lasting
    | with_reducible apply Lasting.foldl | split

theorem State.dropClassified_lasting {s0 : State} (id : Nat) {s : State} (h : Lasting s0 s) :
    Lasting s0 (State.dropClassified id s) := by
  unfold State.dropClassified
  repeat' first
    | with_reducible assumption | intro _ | with_reducible apply Lasting.ite
    | with_reducible apply State.count_lasting | with_reducible apply State.forgetAct_lasting
    | with_reducible apply State.freeFrame_lasting | with_reducible apply State.noteAct_lasting

theorem State.dropClassifier_lasting {s0 : State} {s : State} (h : Lasting s0 s) :
    Lasting s0 (State.dropClassifier s) := by
  unfold State.dropClassifier
  repeat' first
    | with_reducible assumption | intro _ | with_reducible apply Lasting.ite
    | with_reducible apply State.dropClassified_lasting | with_reducible apply State.modCls_lasting
    | with_reducible apply Lasting.foldl | split

theorem State.clipTokens_lasting {s0 : State} {s : State} (h : Lasting s0 s) :
    Lasting s0 (State.clipTokens s) := by
  unfold State.clipTokens
  repeat' first
    | with_reducible assumption | intro _ | with_reducible apply Lasting.ite
    | with_reducible apply State.countBy_lasting | with_reducible apply State.putTw_lasting
    | with_reducible apply Lasting.foldl | split

theorem State.dropHands_lasting {s0 : State} (ok : Nat → Bool) {s : State} (h : Lasting s0 s) :
    Lasting s0 (State.dropHands ok s) := by
  unfold State.dropHands
  repeat' first
    | with_reducible assumption | intro _ | with_reducible apply Lasting.ite
    | with_reducible apply State.endCopy_lasting | with_reducible apply State.putSending_lasting
    | with_reducible apply Lasting.foldl | split

theorem State.modLink_lasting {s0 : State} (k : Nat) (f : LinkSt → LinkSt) {s : State} (h : Lasting s0 s) :
    Lasting s0 (State.modLink k f s) := by
  unfold State.modLink
  repeat' first | with_reducible exact h | exact fun _ => rfl | with_reducible apply State.modRel_lasting

theorem State.grantCredits_lasting {s0 : State} (l : Nat) {s : State} (h : Lasting s0 s) :
    Lasting s0 (State.grantCredits l s) := by
  unfold State.grantCredits
  repeat' first
    | with_reducible assumption | intro _ | with_reducible apply Lasting.ite
    | with_reducible apply State.modLink_lasting | with_reducible apply State.putEntry_lasting
    | with_reducible apply State.useFree_lasting | with_reducible apply Lasting.foldl | split

theorem State.keysLost_lasting {s0 : State} {s : State} (h : Lasting s0 s) :
    Lasting s0 (State.keysLost s) := by
  unfold State.keysLost
  repeat' first | with_reducible exact h | with_reducible apply State.setFld_lasting

theorem State.quarAgain_lasting {s0 : State} (t : Tree) {s : State} (h : Lasting s0 s) :
    Lasting s0 (State.quarAgain t s) := by
  unfold State.quarAgain
  repeat' first
    | with_reducible assumption | intro _ | with_reducible apply Lasting.ite
    | with_reducible apply State.setFld_lasting

theorem State.refuseEntry_lasting {s0 : State} (d : Nat) (page : Nat) (reason : Nat) {s : State} (h : Lasting s0 s) :
    Lasting s0 (State.refuseEntry d page reason s) := by
  unfold State.refuseEntry
  repeat' first
    | with_reducible exact h | with_reducible apply State.count_lasting | with_reducible apply State.raiseMs_lasting
    | with_reducible apply State.setFld_lasting

theorem State.domainWake_lasting {s0 : State} (d : Nat) (src : Nat) {s : State} (h : Lasting s0 s) :
    Lasting s0 (State.domainWake d src s) := by
  unfold State.domainWake
  repeat' first
    | with_reducible assumption | intro _ | with_reducible apply Lasting.ite
    | with_reducible apply State.count_lasting | with_reducible apply State.iff_lasting
    | with_reducible apply State.modKeep_lasting | with_reducible apply State.raiseMs_lasting
    | with_reducible apply State.refuseEntry_lasting | with_reducible apply State.setDomState_lasting
    | with_reducible apply State.setFld_lasting | with_reducible apply State.setRegion_lasting

theorem State.wakeDomain_lasting {s0 : State} (d : Nat) (src : Nat) {s : State} (h : Lasting s0 s) :
    Lasting s0 (State.wakeDomain d src s) := by
  unfold State.wakeDomain
  repeat' first
    | with_reducible assumption | intro _ | with_reducible apply Lasting.ite
    | with_reducible apply State.domainWake_lasting

theorem State.genStart_lasting {s0 : State} (l : Nat) {s : State} (h : Lasting s0 s) :
    Lasting s0 (State.genStart l s) := by
  unfold State.genStart
  repeat' first
    | with_reducible assumption | intro _ | with_reducible apply Lasting.ite | with_reducible apply State.emit_lasting
    | with_reducible apply State.useFree_lasting

theorem State.dispatchPath_lasting {s0 : State} (sym : Bool) {s : State} (h : Lasting s0 s) :
    Lasting s0 (State.dispatchPath sym s) := by
  unfold State.dispatchPath
  repeat' first
    | with_reducible assumption | intro _ | with_reducible apply Lasting.ite
    | with_reducible apply State.count_lasting | with_reducible apply State.raiseMs_lasting
    | with_reducible apply State.setJobState_lasting | with_reducible apply State.stopJob_lasting
    | with_reducible apply Lasting.foldl | split

theorem State.dispatchJobs_lasting {s0 : State} {s : State} (h : Lasting s0 s) :
    Lasting s0 (State.dispatchJobs s) := by
  unfold State.dispatchJobs
  repeat' first
    | with_reducible assumption | intro _ | with_reducible apply Lasting.ite
    | with_reducible apply State.dispatchPath_lasting

theorem State.startFrozen_lasting {s0 : State} (t : Tree) {s : State} (h : Lasting s0 s) :
    Lasting s0 (State.startFrozen t s) := by
  unfold State.startFrozen
  repeat' first
    | with_reducible assumption | intro _ | with_reducible apply State.iff_lasting
    | with_reducible apply State.setFld_lasting

theorem State.txAgain_lasting {s0 : State} (t : Tree) {s : State} (h : Lasting s0 s) :
    Lasting s0 (State.txAgain t s) := by
  unfold State.txAgain
  repeat' first
    | with_reducible exact h | with_reducible apply State.setFld_lasting
    | with_reducible apply State.showForce_lasting | with_reducible apply State.txBegin_lasting

theorem State.pageRestart_lasting {s0 : State} (p : Nat) {s : State} (h : Lasting s0 s) :
    Lasting s0 (State.pageRestart p s) := by
  unfold State.pageRestart
  repeat' first
    | with_reducible assumption | intro _ | with_reducible apply Lasting.ite
    | with_reducible apply State.framersMoved_lasting | with_reducible apply State.frmRestart_lasting
    | with_reducible apply State.halJudge_lasting | with_reducible apply State.halLevelRestored_lasting
    | with_reducible apply State.iff_lasting | with_reducible apply State.launchRestored_lasting
    | with_reducible apply State.quarAgain_lasting | with_reducible apply State.rxBegin_lasting
    | with_reducible apply State.showTick_lasting | with_reducible apply State.txAgain_lasting
    | with_reducible apply Lasting.foldl | split

theorem State.regionStart_lasting {s0 : State} (r : Nat) {s : State} (h : Lasting s0 s) :
    Lasting s0 (State.regionStart r s) := by
  unfold State.regionStart
  repeat' first
    | with_reducible assumption | intro _ | with_reducible apply Lasting.ite
    | with_reducible apply State.pageRestart_lasting | with_reducible apply State.refreshPorts_lasting
    | with_reducible apply State.startFrozen_lasting | with_reducible apply Lasting.foldl | split

theorem State.settleRegion_lasting {s0 : State} (r : Nat) {s : State} (h : Lasting s0 s) :
    Lasting s0 (State.settleRegion r s) := by
  unfold State.settleRegion
  repeat' first
    | with_reducible exact h | with_reducible apply State.iff_lasting | with_reducible apply State.regionStart_lasting
    | with_reducible apply State.setRegion_lasting

theorem State.portConfig_lasting {s0 : State} (p : Nat) (acc : Access) {s : State} (h : Lasting s0 s) :
    Lasting s0 (State.portConfig p acc s) := by
  unfold State.portConfig
  repeat' first
    | with_reducible assumption | intro _ | with_reducible apply Lasting.ite | with_reducible apply State.iff_lasting
    | with_reducible apply State.ignored_lasting | with_reducible apply State.putReg_lasting
    | with_reducible apply State.raise_lasting | with_reducible apply State.refreshPorts_lasting
    | with_reducible apply Lasting.foldl | split | with_reducible apply Lasting.id | dsimp only

theorem State.emitError_lasting {s0 : State} (l : Nat) (every : Nat) {s : State} (h : Lasting s0 s) :
    Lasting s0 (State.emitError l every s) := by
  unfold State.emitError
  repeat' first | with_reducible exact h | with_reducible apply State.emit_lasting

theorem State.jobError_lasting {s0 : State} (k : Nat) (code : Nat) {s : State} (h : Lasting s0 s) :
    Lasting s0 (State.jobError k code s) := by
  unfold State.jobError
  repeat' first
    | with_reducible exact h | with_reducible apply State.count_lasting | with_reducible apply State.iff_lasting
    | with_reducible apply State.raise_lasting | with_reducible apply State.routeEvent_lasting
    | with_reducible apply State.setJobState_lasting | with_reducible apply State.setTf_lasting

theorem State.takeAad_lasting {s0 : State} (k : Nat) {s : State} (h : Lasting s0 s) :
    Lasting s0 (State.takeAad k s) := by
  unfold State.takeAad
  repeat' first
    | with_reducible assumption | intro _ | with_reducible apply Lasting.ite
    | with_reducible apply State.putJob_lasting

theorem State.ccryStart_lasting {s0 : State} (k : Nat) {s : State} (h : Lasting s0 s) :
    Lasting s0 (State.ccryStart k s) := by
  unfold State.ccryStart
  repeat' first
    | with_reducible assumption | intro _ | with_reducible apply Lasting.ite
    | with_reducible apply State.dispatchJobs_lasting | with_reducible apply State.jobError_lasting
    | with_reducible apply State.putJob_lasting | with_reducible apply State.putTw_lasting
    | with_reducible apply State.setJobState_lasting | with_reducible apply State.setTf_lasting
    | with_reducible apply State.takeAad_lasting | with_reducible apply State.useFree_lasting
    | with_reducible apply Lasting.foldl | split

theorem State.ccryAbort_lasting {s0 : State} (k : Nat) {s : State} (h : Lasting s0 s) :
    Lasting s0 (State.ccryAbort k s) := by
  unfold State.ccryAbort
  repeat' first
    | with_reducible assumption | intro _ | with_reducible apply Lasting.ite
    | with_reducible apply State.dispatchJobs_lasting | with_reducible apply State.jobError_lasting

theorem State.exportRefused_lasting {s0 : State} (k : Nat) (code : Nat) {s : State} (h : Lasting s0 s) :
    Lasting s0 (State.exportRefused k code s) := by
  unfold State.exportRefused
  repeat' first
    | with_reducible exact h | with_reducible apply State.raise_lasting | with_reducible apply State.setTf_lasting

theorem State.ccryExport_lasting {s0 : State} (k : Nat) (wrapped : Bool) {s : State} (h : Lasting s0 s) :
    Lasting s0 (State.ccryExport k wrapped s) := by
  unfold State.ccryExport
  repeat' first
    | with_reducible assumption | intro _ | with_reducible apply Lasting.ite
    | with_reducible apply State.count_lasting | with_reducible apply State.exportRefused_lasting
    | with_reducible apply State.putSram_lasting

theorem State.ccryImport_lasting {s0 : State} (k : Nat) {s : State} (h : Lasting s0 s) :
    Lasting s0 (State.ccryImport k s) := by
  unfold State.ccryImport
  repeat' first
    | with_reducible assumption | intro _ | with_reducible apply Lasting.ite
    | with_reducible apply State.count_lasting | with_reducible apply State.jobError_lasting
    | with_reducible apply State.putJob_lasting | with_reducible apply State.putTw_lasting
    | with_reducible apply State.setJobState_lasting | with_reducible apply State.setTf_lasting
    | with_reducible apply Lasting.foldl | split | with_reducible apply Lasting.id | dsimp only

theorem State.auditResult_lasting {s0 : State} (k : Nat) (delta : Int) {s : State} (h : Lasting s0 s) :
    Lasting s0 (State.auditResult k delta s) := by
  unfold State.auditResult
  repeat' first
    | with_reducible assumption | intro _ | with_reducible apply Lasting.ite
    | with_reducible apply State.modSto_lasting | with_reducible apply State.raise_lasting
    | with_reducible apply State.setFld_lasting | with_reducible apply State.setSFld_lasting

theorem State.auditLink_lasting {s0 : State} (l : Nat) {s : State} (h : Lasting s0 s) :
    Lasting s0 (State.auditLink l s) := by
  unfold State.auditLink
  repeat' first
    | with_reducible assumption | intro _ | with_reducible apply Lasting.ite
    | with_reducible apply State.auditResult_lasting | with_reducible apply State.count_lasting
    | with_reducible apply State.grantCredits_lasting | with_reducible apply State.modSto_lasting
    | with_reducible apply State.raise_lasting | with_reducible apply State.setFld_lasting

theorem State.auditEval_lasting {s0 : State} {s : State} (h : Lasting s0 s) :
    Lasting s0 (State.auditEval s) := by
  unfold State.auditEval
  repeat' first
    | with_reducible assumption | intro _ | with_reducible apply Lasting.ite
    | with_reducible apply State.auditLink_lasting | with_reducible apply State.auditResult_lasting
    | with_reducible apply Lasting.foldl | split

theorem State.jobDone_lasting {s0 : State} (k : Nat) {s : State} (h : Lasting s0 s) :
    Lasting s0 (State.jobDone k s) := by
  unfold State.jobDone
  repeat' first
    | with_reducible exact h | with_reducible apply State.count_lasting | with_reducible apply State.raise_lasting
    | with_reducible apply State.routeEvent_lasting | with_reducible apply State.setJobState_lasting

theorem State.finishJob_lasting {s0 : State} (k : Nat) {s : State} (h : Lasting s0 s) :
    Lasting s0 (State.finishJob k s) := by
  unfold State.finishJob
  repeat' first
    | with_reducible assumption | intro _ | with_reducible apply Lasting.ite
    | with_reducible apply State.jobDone_lasting | with_reducible apply State.jobError_lasting
    | with_reducible apply State.putSram_lasting | with_reducible apply Lasting.foldl | split
    | with_reducible apply Lasting.id | dsimp only

theorem State.finishWhole_lasting {s0 : State} (k : Nat) {s : State} (h : Lasting s0 s) :
    Lasting s0 (State.finishWhole k s) := by
  unfold State.finishWhole
  repeat' first
    | with_reducible assumption | intro _ | with_reducible apply Lasting.ite
    | with_reducible apply State.countBy_lasting | with_reducible apply State.jobDone_lasting
    | with_reducible apply State.jobError_lasting | with_reducible apply State.putKeyPair_lasting
    | with_reducible apply State.putSram_lasting | with_reducible apply State.putTw_lasting
    | with_reducible apply State.randomBytes_lasting | with_reducible apply Lasting.foldl | split
    | with_reducible apply Lasting.id | dsimp only

theorem State.ccryDone_lasting {s0 : State} (k : Nat) {s : State} (h : Lasting s0 s) :
    Lasting s0 (State.ccryDone k s) := by
  unfold State.ccryDone
  repeat' first
    | with_reducible assumption | intro _ | with_reducible apply Lasting.ite
    | with_reducible apply State.dispatchJobs_lasting | with_reducible apply State.feed_lasting
    | with_reducible apply State.finishJob_lasting | with_reducible apply State.finishWhole_lasting
    | with_reducible apply State.setJobState_lasting

theorem State.regionAfter_lasting {s0 : State} (r : Nat) {s : State} (h : Lasting s0 s) :
    Lasting s0 (State.regionAfter r s) := by
  unfold State.regionAfter
  repeat' first
    | with_reducible assumption | intro _ | with_reducible apply Lasting.ite
    | with_reducible apply State.clkJudge_lasting | with_reducible apply State.clkLose_lasting
    | with_reducible apply State.dualJudge_lasting | with_reducible apply State.keysLost_lasting
    | with_reducible apply State.pmMarkAll_lasting | with_reducible apply State.refreshPorts_lasting
    | with_reducible apply State.setFld_lasting | with_reducible apply State.setTimeValid_lasting
    | with_reducible apply State.showKeystore_lasting | with_reducible apply State.showTier_lasting
    | with_reducible apply Lasting.foldl | split

theorem State.wipeStore_lasting {s0 : State} {s : State} (h : Lasting s0 s) :
    Lasting s0 (State.wipeStore s) := by
  unfold State.wipeStore
  repeat' first
    | with_reducible exact h | with_reducible apply State.modSto_lasting | with_reducible apply State.setFld_lasting

theorem State.wipeBlk_lasting {s0 : State} (b : Blk) (i : Nat) {s : State} (h : Lasting s0 s) :
    Lasting s0 (State.wipeBlk b i s) := by
  unfold State.wipeBlk
  repeat' first
    | with_reducible assumption | exact fun _ => rfl | intro _ | with_reducible apply Lasting.ite
    | with_reducible apply State.modActs_lasting | with_reducible apply State.modCcry_lasting
    | with_reducible apply State.modCls_lasting | with_reducible apply State.modCore_lasting
    | with_reducible apply State.modDma_lasting | with_reducible apply State.modDual_lasting
    | with_reducible apply State.modFlow_lasting | with_reducible apply State.modFlsh_lasting
    | with_reducible apply State.modFrms_lasting | with_reducible apply State.modFront_lasting
    | with_reducible apply State.modGrts_lasting | with_reducible apply State.modHals_lasting
    | with_reducible apply State.modHif_lasting | with_reducible apply State.modLehr_lasting
    | with_reducible apply State.modLsec_lasting | with_reducible apply State.modPm_lasting
    | with_reducible apply State.modPol_lasting | with_reducible apply State.modRxs_lasting
    | with_reducible apply State.modSnap_lasting | with_reducible apply State.modSto_lasting
    | with_reducible apply State.modTime_lasting | with_reducible apply State.modTsk_lasting
    | with_reducible apply State.modTxs_lasting | with_reducible apply State.modUni_lasting
    | with_reducible apply State.modUsch_lasting | with_reducible apply State.modXtr_lasting
    | with_reducible apply State.wipeStore_lasting | with_reducible apply Lasting.foldl | split

theorem State.wipePage_lasting {s0 : State} (p : Nat) {s : State} (h : Lasting s0 s) :
    Lasting s0 (State.wipePage p s) := by
  unfold State.wipePage
  repeat' first
    | with_reducible assumption | intro _ | with_reducible apply Lasting.ite
    | with_reducible apply State.clipTokens_lasting | with_reducible apply State.iff_lasting
    | with_reducible apply State.modFront_lasting | with_reducible apply State.modRf_lasting
    | with_reducible apply State.modTables_lasting | with_reducible apply State.modWins_lasting
    | with_reducible apply State.putPennant_lasting | with_reducible apply State.resetTables_lasting
    | with_reducible apply State.setFld_lasting | with_reducible apply State.wipeBlk_lasting
    | with_reducible apply Lasting.foldl | split

theorem State.wipeWindows_lasting {s0 : State} {s : State} (h : Lasting s0 s) :
    Lasting s0 (State.wipeWindows s) := by
  unfold State.wipeWindows
  repeat' first | with_reducible exact h | with_reducible apply State.modRf_lasting

theorem State.regionWipe_lasting {s0 : State} (r : Nat) {s : State} (h : Lasting s0 s) :
    Lasting s0 (State.regionWipe r s) := by
  unfold State.regionWipe
  repeat' first
    | with_reducible assumption | intro _ | with_reducible apply Lasting.ite | with_reducible apply State.iff_lasting
    | with_reducible apply State.modTables_lasting | with_reducible apply State.putReg_lasting
    | with_reducible apply State.wipePage_lasting | with_reducible apply State.wipeWindows_lasting
    | with_reducible apply Lasting.foldl | split

theorem State.setPrbs_lasting {s0 : State} (l : Nat) (on : Bool) {s : State} (h : Lasting s0 s) :
    Lasting s0 (State.setPrbs l on s) := by
  unfold State.setPrbs
  repeat' first
    | with_reducible exact h | with_reducible apply State.setFld_lasting | with_reducible apply State.setTf_lasting

theorem State.crComplete_lasting {s0 : State} (k : Nat) (bytes : Bytes) {s : State} (h : Lasting s0 s) :
    Lasting s0 (State.crComplete k bytes s) := by
  unfold State.crComplete
  repeat' first
    | with_reducible exact h | with_reducible apply State.modCore_lasting | with_reducible apply State.putSram_lasting

theorem State.crAdvance_lasting {s0 : State} (k : Nat) (n : Nat) {s : State} (h : Lasting s0 s) :
    Lasting s0 (State.crAdvance k n s) := by
  unfold State.crAdvance
  repeat' first | with_reducible exact h | with_reducible apply State.setTf_lasting

theorem State.countPair_lasting {s0 : State} (q : Nat) (len : Nat) {s : State} (h : Lasting s0 s) :
    Lasting s0 (State.countPair q len s) := by
  unfold State.countPair
  repeat' first
    | with_reducible exact h | with_reducible apply State.count_lasting | with_reducible apply State.countBy_lasting

theorem State.crFill_lasting {s0 : State} (k : Nat) (buf : Nat) (x3 : Nat) (x4 : Nat) (x5 : Bytes) {s : State} (h :
    Lasting s0 s) :
       Lasting s0 (State.crFill k buf x3 x4 x5 s) := by
  induction x3 generalizing x4 x5 s with
  | zero => exact h
  | succ n ih =>
    unfold State.crFill
    repeat' first | with_reducible exact h | with_reducible apply ih | with_reducible apply State.putSram_lasting

theorem State.crReceive_lasting {s0 : State} (k : Nat) (bs : Bytes) (cls : Nat) (service : Nat) (sample : Bool)
    (hash : Nat) (action : Nat) {s : State} (h : Lasting s0 s) :
       Lasting s0 (State.crReceive k bs cls service sample hash action s) := by
  unfold State.crReceive
  repeat' first
    | with_reducible exact h | with_reducible apply State.crAdvance_lasting
    | with_reducible apply State.crComplete_lasting | with_reducible apply State.crFill_lasting

theorem State.debitNode_lasting {s0 : State} (q : Nat) (n : Nat) {s : State} (h : Lasting s0 s) :
    Lasting s0 (State.debitNode q n s) := by
  unfold State.debitNode
  repeat' first
    | with_reducible assumption | intro _ | with_reducible apply State.iff_lasting
    | with_reducible apply State.modSto_lasting

theorem State.showHeadAge_lasting {s0 : State} (q : Nat) {s : State} (h : Lasting s0 s) :
    Lasting s0 (State.showHeadAge q s) := by
  unfold State.showHeadAge
  repeat' first | with_reducible exact h | with_reducible apply State.setTf_lasting

theorem State.downAge_lasting {s0 : State} (q : Nat) (x2 : Nat) {s : State} (h : Lasting s0 s) :
    Lasting s0 (State.downAge q x2 s) := by
  induction x2 generalizing  s with
  | zero => exact h
  | succ n ih =>
    unfold State.downAge
    repeat' first
      | with_reducible assumption | with_reducible apply ih | intro _ | with_reducible apply Lasting.ite
      | with_reducible apply State.ageDiscard_lasting | with_reducible apply Lasting.foldl | split

theorem State.examineDown_lasting {s0 : State} (q : Nat) {s : State} (h : Lasting s0 s) :
    Lasting s0 (State.examineDown q s) := by
  unfold State.examineDown
  repeat' first
    | with_reducible exact h | with_reducible apply State.downAge_lasting
    | with_reducible apply State.showHeadAge_lasting

theorem State.pauseTurn_lasting {s0 : State} (p : Nat) {s : State} (h : Lasting s0 s) :
    Lasting s0 (State.pauseTurn p s) := by
  unfold State.pauseTurn
  repeat' first
    | with_reducible exact h | with_reducible apply State.iff_lasting | with_reducible apply State.pauseSend_lasting

theorem State.starveJudge_lasting {s0 : State} (q : Nat) {s : State} (h : Lasting s0 s) :
    Lasting s0 (State.starveJudge q s) := by
  unfold State.starveJudge
  repeat' first
    | with_reducible assumption | intro _ | with_reducible apply Lasting.ite
    | with_reducible apply State.count_lasting | with_reducible apply State.raiseMs_lasting
    | with_reducible apply State.setStarved_lasting | with_reducible apply Lasting.foldl | split

theorem State.pin_lasting {s0 : State} (p : Nat) (qs : List Nat) {s : State} (h : Lasting s0 s) :
    Lasting s0 (State.pin p qs s) := by
  unfold State.pin
  repeat' first | with_reducible exact h | with_reducible apply State.modSto_lasting

theorem State.pickDown_lasting {s0 : State} (p : Nat) (ok : Nat → Bool) {s : State} (h : Lasting s0 s) :
    Lasting s0 (State.pickDown p ok s).1 := by
  unfold State.pickDown
  repeat' first
    | with_reducible assumption | intro _ | with_reducible apply Lasting.ite | with_reducible apply Lasting.ite_fst
    | with_reducible apply State.modSto_lasting | with_reducible apply Lasting.foldl | split
    | with_reducible apply Lasting.id | dsimp only

theorem State.takeHead_lasting {s0 : State} (q : Nat) (c : Copy) {s : State} (h : Lasting s0 s) :
    Lasting s0 (State.takeHead q c s) := by
  unfold State.takeHead
  repeat' first
    | with_reducible exact h | with_reducible apply State.debitNode_lasting
    | with_reducible apply State.unlinkCopy_lasting

theorem State.launchStart_lasting {s0 : State} (p : Nat) (tag : Option Nat) {s : State} (h : Lasting s0 s) :
    Lasting s0 (State.launchStart p tag s) := by
  unfold State.launchStart
  repeat' first
    | with_reducible assumption | intro _ | with_reducible apply Lasting.ite
    | with_reducible apply State.count_lasting | with_reducible apply State.modTime_lasting
    | with_reducible apply State.raiseMs_lasting | with_reducible apply State.setTf_lasting
    | with_reducible apply Lasting.foldl | split

theorem State.startUni_lasting {s0 : State} (p : Nat) (c : Copy) {s : State} (h : Lasting s0 s) :
    Lasting s0 (State.startUni p c s) := by
  unfold State.startUni
  repeat' first
    | with_reducible exact h | with_reducible apply State.count_lasting | with_reducible apply State.iff_lasting
    | with_reducible apply State.launchStart_lasting | with_reducible apply State.modSto_lasting
    | with_reducible apply State.ptpEgress_lasting | with_reducible apply State.putSending_lasting

theorem State.serveDown_lasting {s0 : State} (p : Nat) (ok : Nat → Bool) (x3 : Nat) {s : State} (h : Lasting s0 s) :
    Lasting s0 (State.serveDown p ok x3 s) := by
  induction x3 generalizing  s with
  | zero => exact h
  | succ n ih =>
    unfold State.serveDown
    repeat' first
      | with_reducible assumption | with_reducible apply ih | intro _ | with_reducible apply Lasting.ite
      | with_reducible apply State.endCopy_lasting | with_reducible apply State.pickDown_lasting
      | with_reducible apply State.pin_lasting | with_reducible apply State.putSending_lasting
      | with_reducible apply State.showHeadAge_lasting | with_reducible apply State.startUni_lasting
      | with_reducible apply State.takeHead_lasting | with_reducible apply Lasting.foldl | split
      | with_reducible apply Lasting.id | dsimp only

theorem State.servePort_lasting {s0 : State} (p : Nat) (n : Nat) {s : State} (h : Lasting s0 s) :
    Lasting s0 (State.servePort p n s) := by
  unfold State.servePort
  repeat' first
    | with_reducible assumption | intro _ | with_reducible apply Lasting.ite | with_reducible apply State.pin_lasting
    | with_reducible apply State.serveDown_lasting | with_reducible apply Lasting.foldl | split
    | with_reducible apply Lasting.id | dsimp only

theorem State.selectPort_lasting {s0 : State} (p : Nat) {s : State} (h : Lasting s0 s) :
    Lasting s0 (State.selectPort p s) := by
  unfold State.selectPort
  repeat' first
    | with_reducible assumption | intro _ | with_reducible apply Lasting.ite
    | with_reducible apply State.examineDown_lasting | with_reducible apply State.pauseTurn_lasting
    | with_reducible apply State.servePort_lasting | with_reducible apply State.starveJudge_lasting
    | with_reducible apply Lasting.foldl | split

theorem State.fillBufs_lasting {s0 : State} (f : Nat) (buf : Nat) (x3 : List Nat) (x4 : Bytes) {s : State} (h :
    Lasting s0 s) :
       Lasting s0 (State.fillBufs f buf x3 x4 s) := by
  induction x3 generalizing x4 s with
  | nil => exact h
  | cons x l ih =>
    unfold State.fillBufs
    repeat' first
      | with_reducible assumption | with_reducible apply ih | intro _ | with_reducible apply Lasting.ite
      | with_reducible apply State.emit_lasting

theorem State.fetchDescs_lasting {s0 : State} (f : Nat) (rx : Bool) (k : Nat) (n : Nat) {s : State} (h : Lasting s0
    s) :
       Lasting s0 (State.fetchDescs f rx k n s) := by
  unfold State.fetchDescs
  repeat' first
    | with_reducible assumption | intro _ | with_reducible apply State.emit_lasting
    | with_reducible apply State.iff_lasting

theorem State.hostReceive_lasting {s0 : State} (f : Nat) (hash : Nat) (bufs : List Bytes) (bs : Bytes) (cls : Nat)
    (service : Nat) (sample : Bool) (action : Nat) {s : State} (h : Lasting s0 s) :
       Lasting s0 (State.hostReceive f hash bufs bs cls service sample action s) := by
  unfold State.hostReceive
  repeat' first
    | with_reducible exact h | with_reducible apply State.count_lasting | with_reducible apply State.countBy_lasting
    | with_reducible apply State.fetchDescs_lasting | with_reducible apply State.fillBufs_lasting
    | with_reducible apply State.ringAdvance_lasting | with_reducible apply State.ringComplete_lasting
    | with_reducible apply State.ringVector_lasting

theorem State.hostWritten_lasting {s0 : State} (f : Nat) (cls : Nat) (bufs : List Bytes) (c : Copy) {s : State} (h :
    Lasting s0 s) :
       Lasting s0 (State.hostWritten f cls bufs c s) := by
  unfold State.hostWritten
  repeat' first
    | with_reducible exact h | with_reducible apply State.count_lasting | with_reducible apply State.countBy_lasting
    | with_reducible apply State.countPair_lasting | with_reducible apply State.hostReceive_lasting
    | with_reducible apply State.releaseRef_lasting

theorem State.dmaRxWrite_lasting {s0 : State} (f : Nat) (cls : Nat) (bufs : List Bytes) {s : State} (h : Lasting s0
    s) :
       Lasting s0 (State.dmaRxWrite f cls bufs s) := by
  unfold State.dmaRxWrite
  repeat' first
    | with_reducible assumption | intro _ | with_reducible apply Lasting.ite
    | with_reducible apply State.endCopy_lasting | with_reducible apply State.examineDown_lasting
    | with_reducible apply State.hostWritten_lasting | with_reducible apply State.iff_lasting
    | with_reducible apply State.putSending_lasting | with_reducible apply State.selectPort_lasting
    | with_reducible apply State.starveJudge_lasting | with_reducible apply Lasting.foldl | split
    | with_reducible apply Lasting.id | dsimp only

theorem State.flushUnits_lasting {s0 : State} (d : Nat) {s : State} (h : Lasting s0 s) :
    Lasting s0 (State.flushUnits d s) := by
  unfold State.flushUnits
  repeat' first
    | with_reducible assumption | intro _ | with_reducible apply Lasting.ite
    | with_reducible apply State.modCnt_lasting | with_reducible apply Lasting.foldl | split

theorem State.wipeLanes_lasting {s0 : State} (q : Nat) {s : State} (h : Lasting s0 s) :
    Lasting s0 (State.wipeLanes q s) := by
  unfold State.wipeLanes
  repeat' first
    | with_reducible assumption | intro _ | with_reducible apply Lasting.ite
    | with_reducible apply State.modUni_lasting | with_reducible apply State.putTw_lasting
    | with_reducible apply State.setFld_lasting | with_reducible apply Lasting.foldl | split

theorem State.domainOff_lasting {s0 : State} (d : Nat) {s : State} (h : Lasting s0 s) :
    Lasting s0 (State.domainOff d s) := by
  unfold State.domainOff
  repeat' first
    | with_reducible assumption | intro _ | with_reducible apply Lasting.ite
    | with_reducible apply State.flushUnits_lasting | with_reducible apply State.iff_lasting
    | with_reducible apply State.modKeep_lasting | with_reducible apply State.setDomState_lasting
    | with_reducible apply State.wipeLanes_lasting | with_reducible apply State.wipePage_lasting
    | with_reducible apply Lasting.foldl | split

theorem State.wipeLaneHeader_lasting {s0 : State} {s : State} (h : Lasting s0 s) :
    Lasting s0 (State.wipeLaneHeader s) := by
  unfold State.wipeLaneHeader
  repeat' first
    | with_reducible assumption | intro _ | with_reducible apply Lasting.ite
    | with_reducible apply State.putReg_lasting | with_reducible apply Lasting.foldl | split

theorem State.writeImage_lasting {s0 : State} (a : SaveArea) {s : State} (h : Lasting s0 s) :
    Lasting s0 (State.writeImage a s) := by
  unfold State.writeImage
  repeat' first
    | with_reducible assumption | intro _ | with_reducible apply Lasting.ite
    | with_reducible apply State.modTables_lasting | with_reducible apply State.putReg_lasting
    | with_reducible apply Lasting.foldl | split | (refine (?_ : Sparse.wf _ _ = true); assumption)
    | exact Sparse.wf_filter _ _ _ (by assumption) | exact Sparse.wf_put _ _ _ _ (by assumption)
    | (refine (?_ : _ < counterMod _); apply_assumption) | with_reducible apply Lasting.id | dsimp only

theorem State.restoreOff_lasting {s0 : State} (d : Nat) {s : State} (h : Lasting s0 s) :
    Lasting s0 (State.restoreOff d s) := by
  unfold State.restoreOff
  repeat' first
    | with_reducible assumption | intro _ | with_reducible apply Lasting.ite
    | with_reducible apply State.count_lasting | with_reducible apply State.iff_lasting
    | with_reducible apply State.raise_lasting | with_reducible apply State.wipeLaneHeader_lasting
    | with_reducible apply State.writeImage_lasting | with_reducible apply Lasting.foldl | split

theorem State.reloadUnits_lasting {s0 : State} (d : Nat) {s : State} (h : Lasting s0 s) :
    Lasting s0 (State.reloadUnits d s) := by
  unfold State.reloadUnits
  repeat' first
    | with_reducible assumption | intro _ | with_reducible apply Lasting.ite
    | with_reducible apply State.modCnt_lasting | with_reducible apply Lasting.foldl | split

theorem State.domainRestored_lasting {s0 : State} (d : Nat) {s : State} (h : Lasting s0 s) :
    Lasting s0 (State.domainRestored d s) := by
  unfold State.domainRestored
  repeat' first
    | with_reducible assumption | intro _ | with_reducible apply Lasting.ite | with_reducible apply State.iff_lasting
    | with_reducible apply State.modKeep_lasting | with_reducible apply State.pageRestart_lasting
    | with_reducible apply State.raiseMs_lasting | with_reducible apply State.refreshPorts_lasting
    | with_reducible apply State.reloadUnits_lasting | with_reducible apply State.restoreOff_lasting
    | with_reducible apply State.setDomState_lasting | with_reducible apply Lasting.foldl | split

theorem State.domainRetain_lasting {s0 : State} (d : Nat) {s : State} (h : Lasting s0 s) :
    Lasting s0 (State.domainRetain d s) := by
  unfold State.domainRetain
  repeat' first
    | with_reducible exact h | with_reducible apply State.flushUnits_lasting
    | with_reducible apply State.setDomState_lasting

theorem State.dropHost_lasting {s0 : State} {s : State} (h : Lasting s0 s) :
    Lasting s0 (State.dropHost s) := by
  unfold State.dropHost
  repeat' first
    | with_reducible assumption | intro _ | with_reducible apply Lasting.ite
    | with_reducible apply State.abortJob_lasting | with_reducible apply State.cxlDown_lasting
    | with_reducible apply State.dropHands_lasting | with_reducible apply State.iff_lasting
    | with_reducible apply Lasting.foldl | split

theorem State.dropLineWork_lasting {s0 : State} (t : Tree) {s : State} (h : Lasting s0 s) :
    Lasting s0 (State.dropLineWork t s) := by
  unfold State.dropLineWork
  repeat' first
    | with_reducible assumption | intro _ | with_reducible apply Lasting.ite
    | with_reducible apply State.suppressLate_lasting | with_reducible apply State.truncate_lasting
    | with_reducible apply Lasting.foldl | split

theorem State.dropUp_lasting {s0 : State} (ok : Nat → Bool) {s : State} (h : Lasting s0 s) :
    Lasting s0 (State.dropUp ok s) := by
  unfold State.dropUp
  repeat' first
    | with_reducible assumption | intro _ | with_reducible apply Lasting.ite
    | with_reducible apply State.endCopy_lasting | with_reducible apply State.releaseTier_lasting
    | with_reducible apply State.unlinkCopy_lasting | with_reducible apply Lasting.foldl | split

theorem State.flushQueues_lasting {s0 : State} (ok : Nat → Bool) {s : State} (h : Lasting s0 s) :
    Lasting s0 (State.flushQueues ok s) := by
  unfold State.flushQueues
  repeat' first
    | with_reducible assumption | intro _ | with_reducible apply Lasting.ite
    | with_reducible apply State.dropWaiting_lasting | with_reducible apply State.endCopy_lasting
    | with_reducible apply State.putSending_lasting | with_reducible apply State.setStarved_lasting
    | with_reducible apply State.showHeadAge_lasting | with_reducible apply State.unlinkCopy_lasting
    | with_reducible apply Lasting.foldl | split

theorem State.dropSwitch_lasting {s0 : State} {s : State} (h : Lasting s0 s) :
    Lasting s0 (State.dropSwitch s) := by
  unfold State.dropSwitch
  repeat' first
    | with_reducible assumption | intro _ | with_reducible apply Lasting.ite
    | with_reducible apply State.dropClassifier_lasting | with_reducible apply State.dropDual_lasting
    | with_reducible apply State.dropUp_lasting | with_reducible apply State.dropWaiting_lasting
    | with_reducible apply State.flushQueues_lasting | with_reducible apply Lasting.foldl | split

theorem State.dropWork_lasting {s0 : State} (r : Nat) {s : State} (h : Lasting s0 s) :
    Lasting s0 (State.dropWork r s) := by
  unfold State.dropWork
  repeat' first
    | with_reducible assumption | intro _ | with_reducible apply Lasting.ite
    | with_reducible apply State.dropHost_lasting | with_reducible apply State.dropLineWork_lasting
    | with_reducible apply State.dropStore_lasting | with_reducible apply State.dropSwitch_lasting
    | with_reducible apply State.linkFall_lasting | with_reducible apply State.loseRecords_lasting
    | with_reducible apply Lasting.foldl | split

theorem State.selectCores_lasting {s0 : State} {s : State} (h : Lasting s0 s) :
    Lasting s0 (State.selectCores s) := by
  unfold State.selectCores
  repeat' first
    | with_reducible assumption | intro _ | with_reducible apply Lasting.ite
    | with_reducible apply State.count_lasting | with_reducible apply State.countBy_lasting
    | with_reducible apply State.crReceive_lasting | with_reducible apply State.endCopy_lasting
    | with_reducible apply State.examineDown_lasting | with_reducible apply State.releaseRef_lasting
    | with_reducible apply State.routeEvent_lasting | with_reducible apply State.setStarved_lasting
    | with_reducible apply State.showHeadAge_lasting | with_reducible apply State.unlinkCopy_lasting
    | with_reducible apply Lasting.foldl | split | with_reducible apply Lasting.id | dsimp only

theorem State.dschSelect_lasting {s0 : State} (p : Nat) {s : State} (h : Lasting s0 s) :
    Lasting s0 (State.dschSelect p s) := by
  unfold State.dschSelect
  repeat' first
    | with_reducible assumption | intro _ | with_reducible apply Lasting.ite
    | with_reducible apply State.selectCores_lasting | with_reducible apply State.selectPort_lasting

theorem State.shedRegion_lasting {s0 : State} (t : Tree) {s : State} (h : Lasting s0 s) :
    Lasting s0 (State.shedRegion t s) := by
  unfold State.shedRegion
  repeat' first
    | with_reducible assumption | intro _ | with_reducible apply Lasting.ite
    | with_reducible apply State.clkLose_lasting | with_reducible apply State.count_lasting
    | with_reducible apply State.domainOff_lasting | with_reducible apply State.dropLineWork_lasting
    | with_reducible apply State.raise_lasting | with_reducible apply State.setFld_lasting
    | with_reducible apply State.setRegion_lasting | with_reducible apply Lasting.foldl | split

theorem State.portFlush_lasting {s0 : State} (port : Nat) {s : State} (h : Lasting s0 s) :
    Lasting s0 (State.portFlush port s) := by
  unfold State.portFlush
  repeat' first
    | with_reducible assumption | intro _ | with_reducible apply Lasting.ite
    | with_reducible apply State.flushQueues_lasting | with_reducible apply State.raise_lasting

theorem State.laneAdapt_lasting {s0 : State} (l : Nat) {s : State} (h : Lasting s0 s) :
    Lasting s0 (State.laneAdapt l s) := by
  unfold State.laneAdapt
  repeat' first
    | with_reducible assumption | intro _ | with_reducible apply Lasting.ite | with_reducible apply State.iff_lasting
    | with_reducible apply State.modUni_lasting | with_reducible apply State.setAdapting_lasting

theorem State.laneFom_lasting {s0 : State} (l : Nat) (fom : Nat) {s : State} (h : Lasting s0 s) :
    Lasting s0 (State.laneFom l fom s) := by
  unfold State.laneFom
  repeat' first
    | with_reducible exact h | with_reducible apply State.iff_lasting | with_reducible apply State.modUni_lasting
    | with_reducible apply State.raiseMs_lasting | with_reducible apply State.setTf_lasting

theorem State.laneUp_lasting {s0 : State} (l : Nat) (seen : Nat) (inv : Bool) (ofs : Int) {s : State} (h : Lasting
    s0 s) :
       Lasting s0 (State.laneUp l seen inv ofs s) := by
  unfold State.laneUp
  repeat' first
    | with_reducible assumption | intro _ | with_reducible apply Lasting.ite | with_reducible apply State.iff_lasting
    | with_reducible apply State.modUni_lasting | with_reducible apply State.raise_lasting
    | with_reducible apply State.setTf_lasting | with_reducible apply Lasting.foldl | split
    | with_reducible apply Lasting.id | dsimp only

theorem State.regionReset_lasting {s0 : State} (r : Nat) {s : State} (h : Lasting s0 s) :
    Lasting s0 (State.regionReset r s) := by
  unfold State.regionReset
  repeat' first
    | with_reducible exact h | with_reducible apply State.dropWork_lasting
    | with_reducible apply State.regionAfter_lasting | with_reducible apply State.regionWipe_lasting

theorem State.linkRise_lasting {s0 : State} (p : Nat) (up : LinkUpInfo) {s : State} (h : Lasting s0 s) :
    Lasting s0 (State.linkRise p up s) := by
  unfold State.linkRise
  repeat' first
    | with_reducible assumption | intro _ | with_reducible apply Lasting.ite
    | with_reducible apply State.laneUp_lasting | with_reducible apply State.modUni_lasting
    | with_reducible apply State.raise_lasting | with_reducible apply State.setFault_lasting
    | with_reducible apply State.setPf_lasting | with_reducible apply Lasting.foldl | split

theorem State.lpiEnter_lasting {s0 : State} (p : Nat) {s : State} (h : Lasting s0 s) :
    Lasting s0 (State.lpiEnter p s) := by
  unfold State.lpiEnter
  repeat' first
    | with_reducible assumption | intro _ | with_reducible apply Lasting.ite
    | with_reducible apply State.count_lasting | with_reducible apply State.setPf_lasting

theorem State.unshedRegion_lasting {s0 : State} (t : Tree) {s : State} (h : Lasting s0 s) :
    Lasting s0 (State.unshedRegion t s) := by
  unfold State.unshedRegion
  repeat' first
    | with_reducible assumption | intro _ | with_reducible apply Lasting.ite
    | with_reducible apply State.domainWake_lasting | with_reducible apply State.raise_lasting
    | with_reducible apply State.setFld_lasting | with_reducible apply State.setRegion_lasting
    | with_reducible apply Lasting.foldl | split

theorem State.noteTmc_lasting {s0 : State} (t : Tree) (fc : Nat) (bs : Bytes) {s : State} (h : Lasting s0 s) :
    Lasting s0 (State.noteTmc t fc bs s) := by
  unfold State.noteTmc
  repeat' first | with_reducible exact h | with_reducible apply State.modActs_lasting

theorem State.pauseEnd_lasting {s0 : State} (p : Nat) (n : Nat) {s : State} (h : Lasting s0 s) :
    Lasting s0 (State.pauseEnd p n s) := by
  unfold State.pauseEnd
  repeat' first
    | with_reducible assumption | intro _ | with_reducible apply Lasting.ite
    | with_reducible apply State.setPaused_lasting | with_reducible apply State.setPf_lasting

theorem State.prbsCheck_lasting {s0 : State} (l : Nat) (levels : List Int) {s : State} (h : Lasting s0 s) :
    Lasting s0 (State.prbsCheck l levels s) := by
  unfold State.prbsCheck
  repeat' first
    | with_reducible assumption | intro _ | with_reducible apply State.countBy_lasting
    | with_reducible apply State.iff_lasting | with_reducible apply State.modUni_lasting
    | with_reducible apply State.putTw_lasting | with_reducible apply State.raiseMs_lasting
    | with_reducible apply State.setPrbs_lasting

theorem State.prbsSee_lasting {s0 : State} (l : Nat) (levels : List Int) {s : State} (h : Lasting s0 s) :
    Lasting s0 (State.prbsSee l levels s) := by
  unfold State.prbsSee
  repeat' first
    | with_reducible assumption | intro _ | with_reducible apply Lasting.ite
    | with_reducible apply State.modUni_lasting | with_reducible apply State.prbsCheck_lasting
    | with_reducible apply State.raiseMs_lasting | with_reducible apply State.setPrbs_lasting
    | with_reducible apply Lasting.foldl | split

theorem State.reclaim_lasting {s0 : State} {s : State} (c : Nat) (h : Lasting s0 s) :
    Lasting s0 (State.reclaim s c) := by
  unfold State.reclaim
  repeat' first
    | with_reducible exact h | with_reducible apply State.modSto_lasting
    | with_reducible apply State.returnCells_lasting

theorem State.sampleDeliver_lasting {s0 : State} (bufs : List Bytes) {s : State} (h : Lasting s0 s) :
    Lasting s0 (State.sampleDeliver bufs s) := by
  unfold State.sampleDeliver
  repeat' first
    | with_reducible assumption | intro _ | with_reducible apply Lasting.ite
    | with_reducible apply State.count_lasting | with_reducible apply State.countBy_lasting
    | with_reducible apply State.crReceive_lasting | with_reducible apply State.endCopy_lasting
    | with_reducible apply State.examineDown_lasting | with_reducible apply State.hostReceive_lasting
    | with_reducible apply State.raiseMs_lasting | with_reducible apply State.releaseRef_lasting
    | with_reducible apply State.routeEvent_lasting | with_reducible apply State.setStarved_lasting
    | with_reducible apply State.showHeadAge_lasting | with_reducible apply State.unlinkCopy_lasting
    | with_reducible apply Lasting.foldl | split | with_reducible apply Lasting.id | dsimp only

theorem State.setCdr_lasting {s0 : State} (l : Nat) (on : Bool) {s : State} (h : Lasting s0 s) :
    Lasting s0 (State.setCdr l on s) := by
  unfold State.setCdr
  repeat' first
    | with_reducible exact h | with_reducible apply State.setAdapting_lasting
    | with_reducible apply State.setFld_lasting | with_reducible apply State.setTf_lasting

theorem State.sweepDone_lasting {s0 : State} {s : State} (h : Lasting s0 s) :
    Lasting s0 (State.sweepDone s) := by
  unfold State.sweepDone
  repeat' first
    | with_reducible assumption | intro _ | with_reducible apply Lasting.ite
    | with_reducible apply State.auditResult_lasting | with_reducible apply State.count_lasting
    | with_reducible apply State.countBy_lasting | with_reducible apply State.iff_lasting
    | with_reducible apply State.modSto_lasting | with_reducible apply State.raise_lasting
    | with_reducible apply State.reclaim_lasting | with_reducible apply State.setFld_lasting
    | with_reducible apply Lasting.foldl | split

theorem State.tmcRing_lasting {s0 : State} (t : Tree) (bs : Bytes) {s : State} (h : Lasting s0 s) :
    Lasting s0 (State.tmcRing t bs s) := by
  unfold State.tmcRing
  repeat' first
    | with_reducible assumption | intro _ | with_reducible apply Lasting.ite
    | with_reducible apply State.count_lasting | with_reducible apply State.crReceive_lasting
    | with_reducible apply State.raiseMs_lasting | with_reducible apply State.routeEvent_lasting

theorem State.uniComplete_lasting {s0 : State} (p : Nat) {s : State} (h : Lasting s0 s) :
    Lasting s0 (State.uniComplete p s) := by
  unfold State.uniComplete
  repeat' first
    | with_reducible assumption | intro _ | with_reducible apply Lasting.ite
    | with_reducible apply State.abortCopy_lasting | with_reducible apply State.count_lasting
    | with_reducible apply State.countBy_lasting | with_reducible apply State.countPair_lasting
    | with_reducible apply State.emit_lasting | with_reducible apply State.modSto_lasting
    | with_reducible apply State.pauseFlush_lasting | with_reducible apply State.putSending_lasting
    | with_reducible apply State.releaseRef_lasting | with_reducible apply Lasting.foldl | split

theorem State.uniReceive_lasting {s0 : State} (p : Nat) (bs : Bytes) (fcsErr : Bool) (corrected : Nat)
    (uncorrectable : Nat) {s : State} (h : Lasting s0 s) :
       Lasting s0 (State.uniReceive p bs fcsErr corrected uncorrectable s) := by
  unfold State.uniReceive
  repeat' first
    | with_reducible assumption | intro _ | with_reducible apply Lasting.ite
    | with_reducible apply State.count_lasting | with_reducible apply State.countBy_lasting
    | with_reducible apply State.handUni_lasting | with_reducible apply State.macControl_lasting
    | with_reducible apply State.ptpIngress_lasting | with_reducible apply State.uniBadFcs_lasting

end Sys2Proof.Machine
end

