-- ==== Sys2Proof/Laws/LastingHost.lean ====
section
/-! SUPPORT. What leaves what lasts (Laws/Lasting.lean): the host interface, cores, flash, and their commands. -/

namespace Sys2Proof.Machine

theorem State.txComplete_lasting {s0 : State} (f : Nat) (k : Nat) (es : List TxEntry) (status : Nat) (seg : Nat)
    (sum : Nat) {s : State} (h : Lasting s0 s) :
       Lasting s0 (State.txComplete f k es status seg sum s) := by
  unfold State.txComplete
  repeat' first
    | with_reducible exact h | with_reducible apply State.iff_lasting
    | with_reducible apply State.ringComplete_lasting | with_reducible apply State.ringVector_lasting

theorem State.txEnd_lasting {s0 : State} (f : Nat) (k : Nat) (es : List TxEntry) (status : Nat) (seg : Nat) (sum :
    Nat) (counter : Nat) {s : State} (h : Lasting s0 s) :
       Lasting s0 (State.txEnd f k es status seg sum counter s) := by
  unfold State.txEnd
  repeat' first
    | with_reducible exact h | with_reducible apply State.count_lasting
    | with_reducible apply State.ringAdvance_lasting | with_reducible apply State.txComplete_lasting

theorem State.abortRingJob_lasting {s0 : State} (f : Nat) (k : Nat) {s : State} (h : Lasting s0 s) :
    Lasting s0 (State.abortRingJob f k s) := by
  unfold State.abortRingJob
  repeat' first
    | with_reducible assumption | intro _ | with_reducible apply Lasting.ite
    | with_reducible apply State.dropJob_lasting | with_reducible apply State.txEnd_lasting
    | with_reducible apply Lasting.foldl | split

theorem State.cxlStop_lasting {s0 : State} {s : State} (h : Lasting s0 s) :
    Lasting s0 (State.cxlStop s) := by
  unfold State.cxlStop
  repeat' first
    | with_reducible assumption | exact fun _ => rfl | intro _ | with_reducible apply Lasting.ite
    | with_reducible apply State.cxlDown_lasting | with_reducible apply State.modHif_lasting

theorem State.setRingState_lasting {s0 : State} (f : Nat) (rx : Bool) (k : Nat) (v : Nat) {s : State} (h : Lasting
    s0 s) :
       Lasting s0 (State.setRingState f rx k v s) := by
  unfold State.setRingState
  repeat' first
    | with_reducible exact h | with_reducible apply State.setFld_lasting | with_reducible apply State.setRg_lasting

theorem State.drainRing_lasting {s0 : State} (f : Nat) (rx : Bool) (k : Nat) (quiet : Bool) {s : State} (h : Lasting
    s0 s) :
       Lasting s0 (State.drainRing f rx k quiet s) := by
  unfold State.drainRing
  repeat' first
    | with_reducible assumption | intro _ | with_reducible apply Lasting.ite
    | with_reducible apply State.abortJob_lasting | with_reducible apply State.abortRingJob_lasting
    | with_reducible apply State.modRing_lasting | with_reducible apply State.ringAdvance_lasting
    | with_reducible apply State.setRingState_lasting

theorem State.pcieDown_lasting {s0 : State} (l2 : Bool) {s : State} (h : Lasting s0 s) :
    Lasting s0 (State.pcieDown l2 s) := by
  unfold State.pcieDown
  repeat' first
    | with_reducible assumption | exact fun _ => rfl | intro _ | with_reducible apply State.count_lasting
    | with_reducible apply State.iff_lasting | with_reducible apply State.modHif_lasting
    | with_reducible apply State.raise_lasting | with_reducible apply State.setFld_lasting

theorem State.flashStop_lasting {s0 : State} {s : State} (h : Lasting s0 s) :
    Lasting s0 (State.flashStop s) := by
  unfold State.flashStop
  repeat' first | with_reducible exact h | exact fun _ => rfl | with_reducible apply State.modFlsh_lasting

theorem State.modCoreRun_lasting {s0 : State} (c : Nat) (f : CoreRun → CoreRun) {s : State} (h : Lasting s0 s) :
    Lasting s0 (State.modCoreRun c f s) := by
  unfold State.modCoreRun
  repeat' first | with_reducible exact h | with_reducible apply State.modCore_lasting

theorem State.flowTurn_lasting {s0 : State} (k : Nat) {s : State} (h : Lasting s0 s) :
    Lasting s0 (State.flowTurn k s) := by
  unfold State.flowTurn
  repeat' first
    | with_reducible assumption | intro _ | with_reducible apply Lasting.ite
    | with_reducible apply State.count_lasting | with_reducible apply State.setTf_lasting

theorem State.flowJudge_lasting {s0 : State} {s : State} (h : Lasting s0 s) :
    Lasting s0 (State.flowJudge s) := by
  unfold State.flowJudge
  repeat' first
    | with_reducible assumption | intro _ | with_reducible apply Lasting.ite
    | with_reducible apply State.flowTurn_lasting | with_reducible apply Lasting.foldl | split

theorem State.releaseFlow_lasting {s0 : State} (k : Nat) {s : State} (h : Lasting s0 s) :
    Lasting s0 (State.releaseFlow k s) := by
  unfold State.releaseFlow
  repeat' first
    | with_reducible assumption | intro _ | with_reducible apply Lasting.ite
    | with_reducible apply State.flowJudge_lasting | with_reducible apply State.modCore_lasting
    | with_reducible apply Lasting.foldl | split | (refine (?_ : Sparse.wf _ _ = true); assumption)
    | exact Sparse.wf_filter _ _ _ (by assumption) | exact Sparse.wf_put _ _ _ _ (by assumption)
    | (refine (?_ : _ < counterMod _); apply_assumption) | with_reducible apply Lasting.id | dsimp only

theorem State.setTaskState_lasting {s0 : State} (k : Nat) (v : Nat) (c : Nat) {s : State} (h : Lasting s0 s) :
    Lasting s0 (State.setTaskState k v c s) := by
  unfold State.setTaskState
  repeat' first | with_reducible exact h | with_reducible apply State.setTf_lasting

theorem State.taskWaits_lasting {s0 : State} (k : Nat) {s : State} (h : Lasting s0 s) :
    Lasting s0 (State.taskWaits k s) := by
  unfold State.taskWaits
  repeat' first
    | with_reducible exact h | with_reducible apply State.judgeTask_lasting
    | with_reducible apply State.setTaskState_lasting

theorem State.endTask_lasting {s0 : State} (r : TaskRun) {s : State} (h : Lasting s0 s) :
    Lasting s0 (State.endTask r s) := by
  unfold State.endTask
  repeat' first
    | with_reducible exact h | with_reducible apply State.putTw_lasting
    | with_reducible apply State.releaseFlow_lasting | with_reducible apply State.taskWaits_lasting

theorem State.holdHalf_lasting {s0 : State} (x1 : Nat) {s : State} (h : Lasting s0 s) :
    Lasting s0 (State.holdHalf x1 s) := by
  unfold State.holdHalf
  repeat' first
    | with_reducible assumption | intro _ | with_reducible apply Lasting.ite
    | with_reducible apply State.endTask_lasting | with_reducible apply State.modCore_lasting
    | with_reducible apply State.modCoreRun_lasting | with_reducible apply State.taskWaits_lasting
    | with_reducible apply Lasting.foldl | split

theorem State.judgeTasks_lasting {s0 : State} {s : State} (h : Lasting s0 s) :
    Lasting s0 (State.judgeTasks s) := by
  unfold State.judgeTasks
  repeat' first
    | with_reducible assumption | intro _ | with_reducible apply Lasting.ite
    | with_reducible apply State.flowJudge_lasting | with_reducible apply State.judgeTask_lasting
    | with_reducible apply Lasting.foldl | split

theorem State.swapBanks_lasting {s0 : State} {s : State} (h : Lasting s0 s) :
    Lasting s0 (State.swapBanks s) := by
  unfold State.swapBanks
  repeat' first
    | with_reducible assumption | intro _ | with_reducible apply Lasting.ite
    | with_reducible apply State.modCore_lasting | with_reducible apply State.putTw_lasting
    | with_reducible apply State.resetTable_lasting | with_reducible apply Lasting.foldl | split

theorem State.setHalf_lasting {s0 : State} (x1 : Nat) {s : State} (h : Lasting s0 s) :
    Lasting s0 (State.setHalf x1 s) := by
  unfold State.setHalf
  repeat' first
    | with_reducible assumption | intro _ | with_reducible apply Lasting.ite
    | with_reducible apply State.judgeTasks_lasting | with_reducible apply State.setFld_lasting
    | with_reducible apply State.swapBanks_lasting

theorem State.setPunty_lasting {s0 : State} (v : Nat) {s : State} (h : Lasting s0 s) :
    Lasting s0 (State.setPunty v s) := by
  unfold State.setPunty
  repeat' first | with_reducible exact h | with_reducible apply State.setFld_lasting

theorem State.cxlStart_lasting {s0 : State} {s : State} (h : Lasting s0 s) :
    Lasting s0 (State.cxlStart s) := by
  unfold State.cxlStart
  repeat' first
    | with_reducible assumption | exact fun _ => rfl | intro _ | with_reducible apply Lasting.ite
    | with_reducible apply State.modHif_lasting | with_reducible apply State.setFld_lasting

theorem State.ringRun_lasting {s0 : State} (f : Nat) (rx : Bool) (k : Nat) {s : State} (h : Lasting s0 s) :
    Lasting s0 (State.ringRun f rx k s) := by
  unfold State.ringRun
  repeat' first
    | with_reducible assumption | intro _ | with_reducible apply Lasting.ite
    | with_reducible apply State.modRing_lasting | with_reducible apply State.setRingState_lasting

theorem State.halSubmitCmd_lasting {s0 : State} (t : Tree) (k : Nat) {s : State} (h : Lasting s0 s) :
    Lasting s0 (State.halSubmitCmd t k s) := by
  unfold State.halSubmitCmd
  repeat' first
    | with_reducible assumption | intro _ | with_reducible apply Lasting.ite
    | with_reducible apply State.halSubmit_lasting | with_reducible apply State.ignored_lasting

theorem State.wakeClear_lasting {s0 : State} (bits : Nat) {s : State} (h : Lasting s0 s) :
    Lasting s0 (State.wakeClear bits s) := by
  unfold State.wakeClear
  repeat' first
    | with_reducible assumption | exact fun _ => rfl | intro _ | with_reducible apply Lasting.ite
    | with_reducible apply State.iff_lasting | with_reducible apply State.modHif_lasting
    | with_reducible apply State.setFld_lasting | with_reducible apply Lasting.foldl | split

theorem State.coreRelease_lasting {s0 : State} (mask : Nat) {s : State} (h : Lasting s0 s) :
    Lasting s0 (State.coreRelease mask s) := by
  unfold State.coreRelease
  repeat' first
    | with_reducible exact h | exact fun _ => rfl | with_reducible apply State.freeLast_lasting
    | with_reducible apply State.modRel_lasting

theorem State.puntyArm_lasting {s0 : State} (handover : Nat) {s : State} (h : Lasting s0 s) :
    Lasting s0 (State.puntyArm handover s) := by
  unfold State.puntyArm
  repeat' first
    | with_reducible assumption | intro _ | with_reducible apply Lasting.ite
    | with_reducible apply State.modCore_lasting | with_reducible apply State.setFld_lasting
    | with_reducible apply State.setPunty_lasting

theorem State.puntyReady_lasting {s0 : State} {s : State} (h : Lasting s0 s) :
    Lasting s0 (State.puntyReady s) := by
  unfold State.puntyReady
  repeat' first
    | with_reducible assumption | intro _ | with_reducible apply Lasting.ite
    | with_reducible apply State.raise_lasting | with_reducible apply State.setPunty_lasting

theorem State.puntyCommit_lasting {s0 : State} {s : State} (h : Lasting s0 s) :
    Lasting s0 (State.puntyCommit s) := by
  unfold State.puntyCommit
  repeat' first
    | with_reducible assumption | intro _ | with_reducible apply Lasting.ite
    | with_reducible apply State.setPunty_lasting

theorem State.puntyAbort_lasting {s0 : State} (cause : Nat) {s : State} (h : Lasting s0 s) :
    Lasting s0 (State.puntyAbort cause s) := by
  unfold State.puntyAbort
  repeat' first
    | with_reducible assumption | intro _ | with_reducible apply Lasting.ite
    | with_reducible apply State.count_lasting | with_reducible apply State.holdHalf_lasting
    | with_reducible apply State.modCore_lasting | with_reducible apply State.raise_lasting
    | with_reducible apply State.setFld_lasting | with_reducible apply State.setPunty_lasting

theorem State.tskSet_lasting {s0 : State} (task : Nat) (flag : Nat) {s : State} (h : Lasting s0 s) :
    Lasting s0 (State.tskSet task flag s) := by
  unfold State.tskSet
  repeat' first
    | with_reducible assumption | intro _ | with_reducible apply Lasting.ite
    | with_reducible apply State.count_lasting | with_reducible apply State.ignored_lasting
    | with_reducible apply State.setTaskFlag_lasting

theorem State.setFlashResult_lasting {s0 : State} (w : Window) (v : Nat) {s : State} (h : Lasting s0 s) :
    Lasting s0 (State.setFlashResult w v s) := by
  unfold State.setFlashResult
  repeat' first
    | with_reducible assumption | exact fun _ => rfl | intro _ | with_reducible apply Lasting.ite
    | with_reducible apply State.modFlsh_lasting | with_reducible apply Lasting.foldl | split
    | (refine (?_ : Sparse.wf _ _ = true); assumption) | exact Sparse.wf_filter _ _ _ (by assumption)
    | exact Sparse.wf_put _ _ _ _ (by assumption) | (refine (?_ : _ < counterMod _); apply_assumption)
    | with_reducible apply Lasting.id | dsimp only

theorem State.flashEnd_lasting {s0 : State} (c : FlashCmd) (result : Nat) {s : State} (h : Lasting s0 s) :
    Lasting s0 (State.flashEnd c result s) := by
  unfold State.flashEnd
  repeat' first
    | with_reducible assumption | intro _ | with_reducible apply Lasting.ite | with_reducible apply State.iff_lasting
    | with_reducible apply State.raise_lasting | with_reducible apply State.routeEvent_lasting
    | with_reducible apply State.setFlashResult_lasting

theorem State.putBootRec_lasting {s0 : State} (trial : Nat) (count : Nat) (failed : Nat) {s : State} (h : Lasting s0
    s) :
       Lasting s0 (State.putBootRec trial count failed s) := by
  unfold State.putBootRec
  repeat' first
    | with_reducible assumption | intro _ | with_reducible apply Lasting.ite
    | with_reducible apply State.putTw_lasting | with_reducible apply Lasting.foldl | split

theorem State.bootConfirm_lasting {s0 : State} {s : State} (h : Lasting s0 s) :
    Lasting s0 (State.bootConfirm s) := by
  unfold State.bootConfirm
  repeat' first
    | with_reducible assumption | intro _ | with_reducible apply State.iff_lasting
    | with_reducible apply State.putBootRec_lasting | with_reducible apply State.setFld_lasting

theorem State.putLocal_lasting {s0 : State} (c : Nat) (a : Nat) (bs : Bytes) {s : State} (h : Lasting s0 s) :
    Lasting s0 (State.putLocal c a bs s) := by
  unfold State.putLocal
  repeat' first | with_reducible exact h | with_reducible apply State.modCore_lasting

theorem State.placeRecord_lasting {s0 : State} (half : Nat) (mask : Nat) (addr : Nat) (bs : Bytes) {s : State} (h :
    Lasting s0 s) :
       ∀ out, State.placeRecord half mask addr bs s = some out → Lasting s0 out := by
  intro out e
  unfold State.placeRecord at e
  dsimp only at e
  repeat' split at e
  all_goals first
    | cases e; done
    | (injection e with e; subst e)
  all_goals
    repeat' first
      | with_reducible assumption | intro _ | with_reducible apply Lasting.ite
      | with_reducible apply State.iff_lasting | with_reducible apply State.modCore_lasting
      | with_reducible apply State.putLocal_lasting | with_reducible apply State.putSram_lasting
      | with_reducible apply Lasting.foldl | split

theorem State.loadRecords_lasting {s0 : State} (half : Nat) (base : Nat) (x3 : Nat) (x4 : Nat) (x5 : Bytes) {s :
    State} (h : Lasting s0 s) :
       Lasting s0 (State.loadRecords half base x3 x4 x5 s).1 := by
  induction x3 generalizing x4 x5 s with
  | zero => exact h
  | succ n ih =>
    unfold State.loadRecords
    repeat' first
      | with_reducible assumption | with_reducible apply ih | intro _ | with_reducible apply Lasting.ite
      | with_reducible apply Lasting.ite_fst
      | (with_reducible refine State.placeRecord_lasting _ _ _ _ ?_ _ (by assumption))
      | with_reducible apply Lasting.foldl | split

theorem State.putDir_lasting {s0 : State} (half : Nat) (dir : Bytes) {s : State} (h : Lasting s0 s) :
    Lasting s0 (State.putDir half dir s) := by
  unfold State.putDir
  repeat' first
    | with_reducible exact h | with_reducible apply State.modCore_lasting | with_reducible apply State.putSram_lasting

theorem State.loadSlot_lasting {s0 : State} (half : Nat) (slot : Nat) {s : State} (h : Lasting s0 s) :
    Lasting s0 (State.loadSlot half slot s).1 := by
  unfold State.loadSlot
  repeat' first
    | with_reducible assumption | intro _ | with_reducible apply Lasting.ite | with_reducible apply Lasting.ite_fst
    | with_reducible apply State.loadRecords_lasting | with_reducible apply State.modCore_lasting
    | with_reducible apply State.putDir_lasting

theorem State.tryLoad_lasting {s0 : State} (half : Nat) (slot : Nat) {s : State} (h : Lasting s0 s) :
    Lasting s0 (State.tryLoad half slot s).1 := by
  unfold State.tryLoad
  repeat' first
    | with_reducible assumption | intro _ | with_reducible apply Lasting.ite | with_reducible apply Lasting.ite_fst
    | with_reducible apply State.count_lasting | with_reducible apply State.loadSlot_lasting
    | with_reducible apply State.raise_lasting | with_reducible apply State.setFld_lasting

theorem State.loadFirst_lasting {s0 : State} (half : Nat) (x2 : List Nat) {s : State} (h : Lasting s0 s) :
    Lasting s0 (State.loadFirst half x2 s).1 := by
  induction x2 generalizing  s with
  | nil => exact h
  | cons x l ih =>
    unfold State.loadFirst
    repeat' first
      | with_reducible assumption | with_reducible apply ih | intro _ | with_reducible apply Lasting.ite
      | with_reducible apply Lasting.ite_fst | with_reducible apply State.tryLoad_lasting

theorem State.copySerial_lasting {s0 : State} {s : State} (h : Lasting s0 s) :
    Lasting s0 (State.copySerial s) := by
  unfold State.copySerial
  repeat' first
    | with_reducible assumption | intro _ | with_reducible apply Lasting.ite
    | with_reducible apply State.putReg_lasting | with_reducible apply Lasting.foldl | split

theorem State.releaseHalf_lasting {s0 : State} (half : Nat) (slot : Nat) {s : State} (h : Lasting s0 s) :
    Lasting s0 (State.releaseHalf half slot s) := by
  unfold State.releaseHalf
  repeat' first
    | with_reducible assumption | intro _ | with_reducible apply Lasting.ite
    | with_reducible apply State.modCoreRun_lasting | with_reducible apply Lasting.foldl | split

theorem State.bootEnd_lasting {s0 : State} (slot : Option Nat) (trial : Bool) (count : Nat) {s : State} (h : Lasting
    s0 s) :
       Lasting s0 (State.bootEnd slot trial count s) := by
  unfold State.bootEnd
  repeat' first
    | with_reducible assumption | intro _ | with_reducible apply Lasting.ite
    | with_reducible apply State.copySerial_lasting | with_reducible apply State.iff_lasting
    | with_reducible apply State.modCore_lasting | with_reducible apply State.raise_lasting
    | with_reducible apply State.releaseHalf_lasting | with_reducible apply State.setFld_lasting
    | with_reducible apply Lasting.foldl | split

theorem State.bootRetry_lasting {s0 : State} {s : State} (h : Lasting s0 s) :
    Lasting s0 (State.bootRetry s) := by
  unfold State.bootRetry
  repeat' first
    | with_reducible assumption | intro _ | with_reducible apply Lasting.ite
    | with_reducible apply State.bootEnd_lasting | with_reducible apply State.loadFirst_lasting

theorem State.barWrite_lasting {s0 : State} (n : Nat) (addr : Nat) {s : State} (h : Lasting s0 s) :
    Lasting s0 (State.barWrite n addr s) := by
  unfold State.barWrite
  repeat' first
    | with_reducible assumption | exact fun _ => rfl | intro _ | with_reducible apply Lasting.ite
    | with_reducible apply State.modHif_lasting | with_reducible apply Lasting.foldl | split
    | with_reducible apply Lasting.id | dsimp only

theorem State.ccryCmd_lasting {s0 : State} (slot : Nat) (bits : Nat) {f : Nat → State → State} {s : State} (h :
    Lasting s0 s) (h3 : ∀ y0 y1, Lasting s0 y1 → Lasting s0 (f y0 y1)) :
       Lasting s0 (State.ccryCmd slot bits f s) := by
  unfold State.ccryCmd
  repeat' first | with_reducible exact h | with_reducible apply State.guarded_lasting | with_reducible apply h3

theorem State.clearFn_lasting {s0 : State} (f : Nat) (keepPme : Bool) {s : State} (h : Lasting s0 s) :
    Lasting s0 (State.clearFn f keepPme s) := by
  unfold State.clearFn
  repeat' first
    | with_reducible exact h | exact fun _ => rfl | with_reducible apply State.modDma_lasting
    | with_reducible apply State.modFn_lasting | with_reducible apply State.modHif_lasting
    | with_reducible apply State.modRf_lasting

theorem State.crTxEnd_lasting {s0 : State} (es : List TxEntry) (status : Nat) (sum : Nat) {s : State} (h : Lasting
    s0 s) :
       Lasting s0 (State.crTxEnd es status sum s) := by
  unfold State.crTxEnd
  repeat' first
    | with_reducible exact h | with_reducible apply State.count_lasting | with_reducible apply State.crAdvance_lasting
    | with_reducible apply State.crComplete_lasting | with_reducible apply State.iff_lasting
    | with_reducible apply State.routeEvent_lasting

theorem State.crSend_lasting {s0 : State} (es : List TxEntry) {s : State} (h : Lasting s0 s) :
    Lasting s0 (State.crSend es s) := by
  unfold State.crSend
  repeat' first
    | with_reducible assumption | intro _ | with_reducible apply Lasting.ite
    | with_reducible apply State.admitStart_lasting | with_reducible apply State.count_lasting
    | with_reducible apply State.crTxEnd_lasting | with_reducible apply State.modCls_lasting
    | with_reducible apply State.modFrame_lasting | with_reducible apply State.modSto_lasting

theorem State.crSendAll_lasting {s0 : State} (x1 : Nat) {s : State} (h : Lasting s0 s) :
    Lasting s0 (State.crSendAll x1 s) := by
  induction x1 generalizing  s with
  | zero => exact h
  | succ n ih =>
    unfold State.crSendAll
    repeat' first
      | with_reducible assumption | with_reducible apply ih | intro _ | with_reducible apply Lasting.ite
      | with_reducible apply State.crSend_lasting | with_reducible apply State.crTxEnd_lasting
      | with_reducible apply Lasting.foldl | split

theorem State.coreRingTail_lasting {s0 : State} (k : Nat) (tail : Nat) {s : State} (h : Lasting s0 s) :
    Lasting s0 (State.coreRingTail k tail s) := by
  unfold State.coreRingTail
  repeat' first
    | with_reducible assumption | intro _ | with_reducible apply Lasting.ite
    | with_reducible apply State.crSendAll_lasting | with_reducible apply State.darkAccess_lasting
    | with_reducible apply State.iff_lasting | with_reducible apply State.setStarved_lasting
    | with_reducible apply State.setTf_lasting | with_reducible apply Lasting.foldl | split

theorem State.drainFn_lasting {s0 : State} (f : Nat) {s : State} (h : Lasting s0 s) :
    Lasting s0 (State.drainFn f s) := by
  unfold State.drainFn
  repeat' first
    | with_reducible assumption | intro _ | with_reducible apply Lasting.ite
    | with_reducible apply State.drainRing_lasting | with_reducible apply Lasting.foldl | split

theorem State.vfGone_lasting {s0 : State} (f : Nat) {s : State} (h : Lasting s0 s) :
    Lasting s0 (State.vfGone f s) := by
  unfold State.vfGone
  repeat' first
    | with_reducible exact h | with_reducible apply State.clearFn_lasting | with_reducible apply State.drainFn_lasting
    | with_reducible apply State.dropHands_lasting

theorem State.vfControl_lasting {s0 : State} (enable : Bool) (num : Nat) {s : State} (h : Lasting s0 s) :
    Lasting s0 (State.vfControl enable num s) := by
  unfold State.vfControl
  repeat' first
    | with_reducible assumption | exact fun _ => rfl | intro _ | with_reducible apply Lasting.ite
    | with_reducible apply State.modHif_lasting | with_reducible apply State.vfGone_lasting
    | with_reducible apply Lasting.foldl | split

theorem State.takeVectors_lasting {s0 : State} (f : Nat) {s : State} (h : Lasting s0 s) :
    Lasting s0 (State.takeVectors f s) := by
  unfold State.takeVectors
  repeat' first
    | with_reducible assumption | intro _ | with_reducible apply Lasting.ite
    | with_reducible apply State.modFn_lasting | with_reducible apply State.raise_lasting

theorem State.sendPending_lasting {s0 : State} (f : Nat) {s : State} (h : Lasting s0 s) :
    Lasting s0 (State.sendPending f s) := by
  unfold State.sendPending
  repeat' first
    | with_reducible assumption | exact fun _ => rfl | intro _ | with_reducible apply Lasting.ite
    | with_reducible apply State.modHif_lasting | with_reducible apply State.sendOwned_lasting
    | with_reducible apply Lasting.foldl | split

theorem State.msixControl_lasting {s0 : State} (f : Nat) (enable : Bool) (mask : Bool) {s : State} (h : Lasting s0
    s) :
       Lasting s0 (State.msixControl f enable mask s) := by
  unfold State.msixControl
  repeat' first
    | with_reducible exact h | with_reducible apply State.iff_lasting | with_reducible apply State.modFn_lasting
    | with_reducible apply State.sendPending_lasting | with_reducible apply State.takeVectors_lasting

theorem State.configWrite_lasting {s0 : State} (f : Nat) (w : CfgWrite) {s : State} (h : Lasting s0 s) :
    Lasting s0 (State.configWrite f w s) := by
  unfold State.configWrite
  repeat' first
    | with_reducible assumption | exact fun _ => rfl | intro _ | with_reducible apply Lasting.ite
    | with_reducible apply State.abortJob_lasting | with_reducible apply State.barWrite_lasting
    | with_reducible apply State.dropHands_lasting | with_reducible apply State.iff_lasting
    | with_reducible apply State.modFn_lasting | with_reducible apply State.modHif_lasting
    | with_reducible apply State.msixControl_lasting | with_reducible apply State.ringAdvance_lasting
    | with_reducible apply State.vfControl_lasting | with_reducible apply Lasting.foldl | split

theorem State.containCore_lasting {s0 : State} (c : Nat) {s : State} (h : Lasting s0 s) :
    Lasting s0 (State.containCore c s) := by
  unfold State.containCore
  repeat' first
    | with_reducible assumption | intro _ | with_reducible apply Lasting.ite
    | with_reducible apply State.endTask_lasting | with_reducible apply State.modCoreRun_lasting
    | with_reducible apply State.noteContain_lasting | with_reducible apply State.taskWaits_lasting
    | with_reducible apply Lasting.foldl | split

theorem State.coreCycles_lasting {s0 : State} (c : Nat) {s : State} (h : Lasting s0 s) :
    Lasting s0 (State.coreCycles c s) := by
  unfold State.coreCycles
  repeat' first
    | with_reducible assumption | intro _ | with_reducible apply Lasting.ite
    | with_reducible apply State.countBy_lasting | with_reducible apply State.useFree_lasting

theorem State.coreTrap_lasting {s0 : State} (c : Nat) (cause : Nat) (addr : Nat) {s : State} (h : Lasting s0 s) :
    Lasting s0 (State.coreTrap c cause addr s) := by
  unfold State.coreTrap
  repeat' first
    | with_reducible exact h | with_reducible apply State.count_lasting
    | with_reducible apply State.modCoreRun_lasting | with_reducible apply State.putTw_lasting
    | with_reducible apply State.raiseMs_lasting | with_reducible apply State.setTf_lasting

theorem State.coreMemory_lasting {s0 : State} (c : Nat) (what : CoreAccess) {s : State} (h : Lasting s0 s) :
    Lasting s0 (State.coreMemory c what s) := by
  unfold State.coreMemory
  repeat' first
    | with_reducible assumption | intro _ | with_reducible apply Lasting.ite
    | with_reducible apply State.coreTrap_lasting | with_reducible apply State.putTw_lasting
    | with_reducible apply Lasting.foldl | split

theorem State.cxlAgain_lasting {s0 : State} {s : State} (h : Lasting s0 s) :
    Lasting s0 (State.cxlAgain s) := by
  unfold State.cxlAgain
  repeat' first | with_reducible exact h | exact fun _ => rfl | with_reducible apply State.modHif_lasting

theorem State.cxlEnumDone_lasting {s0 : State} (res : Nat) (capacity : Nat) (speed : Nat) (width : Nat) {s : State}
    (h : Lasting s0 s) :
       Lasting s0 (State.cxlEnumDone res capacity speed width s) := by
  unfold State.cxlEnumDone
  repeat' first
    | with_reducible assumption | exact fun _ => rfl | intro _ | with_reducible apply Lasting.ite
    | with_reducible apply State.count_lasting | with_reducible apply State.cxlAgain_lasting
    | with_reducible apply State.iff_lasting | with_reducible apply State.linkPmJudge_lasting
    | with_reducible apply State.loseTier_lasting | with_reducible apply State.modHif_lasting
    | with_reducible apply State.raise_lasting | with_reducible apply State.setFld_lasting
    | with_reducible apply State.showTier_lasting

theorem State.discover_lasting {s0 : State} (t : Tree) (payload : Bytes) {s : State} (h : Lasting s0 s) :
    Lasting s0 (State.discover t payload s) := by
  unfold State.discover
  repeat' first
    | with_reducible exact h | with_reducible apply State.count_lasting
    | with_reducible apply State.halOffsetJudge_lasting | with_reducible apply State.halSend_lasting
    | with_reducible apply State.iff_lasting | with_reducible apply State.modActs_lasting
    | with_reducible apply State.setFld_lasting

theorem State.dispatchLate_lasting {s0 : State} (k : Nat) {s : State} (h : Lasting s0 s) :
    Lasting s0 (State.dispatchLate k s) := by
  unfold State.dispatchLate
  repeat' first
    | with_reducible assumption | intro _ | with_reducible apply Lasting.ite
    | with_reducible apply State.count_lasting | with_reducible apply State.modTsk_lasting
    | with_reducible apply State.raiseMs_lasting

theorem State.drainFrame_lasting {s0 : State} (f : Nat) (k : Nat) (entries : List TxEntry) {s : State} (h : Lasting
    s0 s) :
       Lasting s0 (State.drainFrame f k entries s) := by
  unfold State.drainFrame
  repeat' first
    | with_reducible assumption | intro _ | with_reducible apply Lasting.ite
    | with_reducible apply State.count_lasting | with_reducible apply State.ringAdvance_lasting
    | with_reducible apply State.txEnd_lasting

theorem State.readChunks_lasting {s0 : State} (f : Nat) (x2 : Nat) (x3 : Nat) (x4 : Nat) {s : State} (h : Lasting s0
    s) :
       Lasting s0 (State.readChunks f x2 x3 x4 s) := by
  induction x2 generalizing x3 x4 s with
  | zero => exact h
  | succ n ih =>
    unfold State.readChunks
    repeat' first
      | with_reducible assumption | with_reducible apply ih | intro _ | with_reducible apply Lasting.ite
      | with_reducible apply State.emit_lasting

theorem State.readSegment_lasting {s0 : State} (f : Nat) (j : TxJob) {s : State} (h : Lasting s0 s) :
    Lasting s0 (State.readSegment f j s) := by
  unfold State.readSegment
  repeat' first
    | with_reducible assumption | intro _ | with_reducible apply Lasting.ite
    | with_reducible apply State.readChunks_lasting | with_reducible apply Lasting.foldl | split

theorem State.startJob_lasting {s0 : State} (f : Nat) (k : Nat) (es : List TxEntry) {s : State} (h : Lasting s0 s) :
    Lasting s0 (State.startJob f k es s) := by
  unfold State.startJob
  repeat' first
    | with_reducible exact h | with_reducible apply State.modRing_lasting
    | with_reducible apply State.readSegment_lasting

theorem State.dmaTxFrame_lasting {s0 : State} (f : Nat) (k : Nat) (descs : List Bytes) {s : State} (h : Lasting s0
    s) :
       Lasting s0 (State.dmaTxFrame f k descs s) := by
  unfold State.dmaTxFrame
  repeat' first
    | with_reducible assumption | intro _ | with_reducible apply Lasting.ite
    | with_reducible apply State.drainFrame_lasting | with_reducible apply State.fetchDescs_lasting
    | with_reducible apply State.raiseMs_lasting | with_reducible apply State.startJob_lasting
    | with_reducible apply State.txEnd_lasting | with_reducible apply Lasting.foldl | split
    | with_reducible apply Lasting.id | dsimp only

theorem State.emptySlot_lasting {s0 : State} (c : Nat) (k : Nat) {s : State} (h : Lasting s0 s) :
    Lasting s0 (State.emptySlot c k s) := by
  unfold State.emptySlot
  repeat' first | with_reducible exact h | with_reducible apply State.modCoreRun_lasting

theorem State.pageLoaded_lasting {s0 : State} (c : FlashCmd) {s : State} (h : Lasting s0 s) :
    Lasting s0 (State.pageLoaded c s) := by
  unfold State.pageLoaded
  repeat' first
    | with_reducible assumption | intro _ | with_reducible apply Lasting.ite
    | with_reducible apply State.count_lasting | with_reducible apply State.countBy_lasting
    | with_reducible apply State.flashEnd_lasting | with_reducible apply State.putSram_lasting
    | with_reducible apply State.raise_lasting | with_reducible apply Lasting.foldl | split

theorem State.flrStart_lasting {s0 : State} (f : Nat) {s : State} (h : Lasting s0 s) :
    Lasting s0 (State.flrStart f s) := by
  unfold State.flrStart
  repeat' first
    | with_reducible exact h | with_reducible apply State.drainFn_lasting
    | with_reducible apply State.dropHands_lasting | with_reducible apply State.flushQueues_lasting
    | with_reducible apply State.modFn_lasting | with_reducible apply State.raise_lasting

theorem State.flr_lasting {s0 : State} (f : Nat) {s : State} (h : Lasting s0 s) :
    Lasting s0 (State.flr f s) := by
  unfold State.flr
  repeat' first
    | with_reducible assumption | exact fun _ => rfl | intro _ | with_reducible apply Lasting.ite
    | with_reducible apply State.count_lasting | with_reducible apply State.flrStart_lasting
    | with_reducible apply State.modHif_lasting | with_reducible apply State.raiseMs_lasting
    | with_reducible apply Lasting.foldl | split

theorem State.flrComplete_lasting {s0 : State} (f : Nat) {s : State} (h : Lasting s0 s) :
    Lasting s0 (State.flrComplete f s) := by
  unfold State.flrComplete
  repeat' first
    | with_reducible assumption | intro _ | with_reducible apply Lasting.ite
    | with_reducible apply State.clearFn_lasting | with_reducible apply Lasting.foldl | split

theorem State.gatherFault_lasting {s0 : State} (f : Nat) (k : Nat) (j : TxJob) (cause : Nat) {s : State} (h :
    Lasting s0 s) :
       Lasting s0 (State.gatherFault f k j cause s) := by
  unfold State.gatherFault
  repeat' first
    | with_reducible assumption | intro _ | with_reducible apply Lasting.ite
    | with_reducible apply State.count_lasting | with_reducible apply State.dropJob_lasting
    | with_reducible apply State.modFn_lasting | with_reducible apply State.modRing_lasting
    | with_reducible apply State.raise_lasting | with_reducible apply State.raiseMs_lasting
    | with_reducible apply State.ringAdvance_lasting | with_reducible apply State.setFld_lasting
    | with_reducible apply State.setRingState_lasting | with_reducible apply State.txComplete_lasting

theorem State.holdFlow_lasting {s0 : State} (k : Nat) {s : State} (h : Lasting s0 s) :
    Lasting s0 (State.holdFlow k s) := by
  unfold State.holdFlow
  repeat' first
    | with_reducible assumption | intro _ | with_reducible apply Lasting.ite
    | with_reducible apply State.flowJudge_lasting | with_reducible apply State.modCore_lasting
    | with_reducible apply Lasting.foldl | split

theorem State.wakeLatch_lasting {s0 : State} (b : Nat) (f : Nat) {s : State} (h : Lasting s0 s) :
    Lasting s0 (State.wakeLatch b f s) := by
  unfold State.wakeLatch
  repeat' first
    | with_reducible assumption | exact fun _ => rfl | intro _ | with_reducible apply Lasting.ite
    | with_reducible apply State.count_lasting | with_reducible apply State.modFn_lasting
    | with_reducible apply State.modHif_lasting | with_reducible apply State.raise_lasting
    | with_reducible apply State.setFld_lasting

theorem State.kstCmd_lasting {s0 : State} (bits : Nat) {f : State → State} {s : State} (h : Lasting s0 s) (h2 : ∀
    y0, Lasting s0 y0 → Lasting s0 (f y0)) :
       Lasting s0 (State.kstCmd bits f s) := by
  unfold State.kstCmd
  repeat' first
    | with_reducible assumption | intro _ | with_reducible apply Lasting.ite
    | with_reducible apply State.guarded_lasting | with_reducible apply State.ignored_lasting
    | with_reducible apply h2

theorem State.l1Entry_lasting {s0 : State} (idle : Nat) {s : State} (h : Lasting s0 s) :
    Lasting s0 (State.l1Entry idle s) := by
  unfold State.l1Entry
  repeat' first
    | with_reducible assumption | intro _ | with_reducible apply Lasting.ite | with_reducible apply State.emit_lasting
    | with_reducible apply State.setFld_lasting | with_reducible apply State.useFree_lasting

theorem State.l1Exit_lasting {s0 : State} {s : State} (h : Lasting s0 s) :
    Lasting s0 (State.l1Exit s) := by
  unfold State.l1Exit
  repeat' first
    | with_reducible assumption | intro _ | with_reducible apply Lasting.ite | with_reducible apply State.emit_lasting
    | with_reducible apply State.setFld_lasting

theorem State.linkErrors_lasting {s0 : State} (n : Nat) {s : State} (h : Lasting s0 s) :
    Lasting s0 (State.linkErrors n s) := by
  unfold State.linkErrors
  repeat' first
    | with_reducible assumption | intro _ | with_reducible apply State.countBy_lasting
    | with_reducible apply State.iff_lasting | with_reducible apply State.modFn_lasting
    | with_reducible apply State.raiseMs_lasting

theorem State.moderationEnd_lasting {s0 : State} (f : Nat) (rx : Bool) (k : Nat) {s : State} (h : Lasting s0 s) :
    Lasting s0 (State.moderationEnd f rx k s) := by
  unfold State.moderationEnd
  repeat' first
    | with_reducible assumption | intro _ | with_reducible apply Lasting.ite
    | with_reducible apply State.modRing_lasting | with_reducible apply State.sendLocal_lasting

theorem State.msixUnmask_lasting {s0 : State} (f : Nat) (vec : Option Nat) {s : State} (h : Lasting s0 s) :
    Lasting s0 (State.msixUnmask f vec s) := by
  unfold State.msixUnmask
  repeat' first
    | with_reducible assumption | exact fun _ => rfl | intro _ | with_reducible apply Lasting.ite
    | with_reducible apply State.modFn_lasting | with_reducible apply State.modHif_lasting
    | with_reducible apply State.sendPending_lasting | with_reducible apply Lasting.foldl | split

theorem State.widthRequest_lasting {s0 : State} {s : State} (h : Lasting s0 s) :
    Lasting s0 (State.widthRequest s) := by
  unfold State.widthRequest
  repeat' first
    | with_reducible exact h | exact fun _ => rfl | with_reducible apply State.count_lasting
    | with_reducible apply State.emit_lasting | with_reducible apply State.modHif_lasting

theorem State.narrowRequest_lasting {s0 : State} (util : Nat) (ms : Nat) {s : State} (h : Lasting s0 s) :
    Lasting s0 (State.narrowRequest util ms s) := by
  unfold State.narrowRequest
  repeat' first
    | with_reducible assumption | intro _ | with_reducible apply Lasting.ite
    | with_reducible apply State.widthRequest_lasting

theorem State.narrowRetry_lasting {s0 : State} (util : Nat) (ms : Nat) {s : State} (h : Lasting s0 s) :
    Lasting s0 (State.narrowRetry util ms s) := by
  unfold State.narrowRetry
  repeat' first
    | with_reducible assumption | intro _ | with_reducible apply Lasting.ite
    | with_reducible apply State.widthRequest_lasting

theorem State.trained_lasting {s0 : State} (width : Nat) (rate : Nat) {s : State} (h : Lasting s0 s) :
    Lasting s0 (State.trained width rate s) := by
  unfold State.trained
  repeat' first | with_reducible exact h | with_reducible apply State.setFld_lasting

theorem State.retrained_lasting {s0 : State} (width : Nat) (rate : Nat) {s : State} (h : Lasting s0 s) :
    Lasting s0 (State.retrained width rate s) := by
  unfold State.retrained
  repeat' first
    | with_reducible assumption | intro _ | with_reducible apply State.count_lasting
    | with_reducible apply State.iff_lasting | with_reducible apply State.raiseMs_lasting
    | with_reducible apply State.trained_lasting

theorem State.narrowWithdraw_lasting {s0 : State} (width : Nat) (rate : Nat) {s : State} (h : Lasting s0 s) :
    Lasting s0 (State.narrowWithdraw width rate s) := by
  unfold State.narrowWithdraw
  repeat' first
    | with_reducible assumption | exact fun _ => rfl | intro _ | with_reducible apply Lasting.ite
    | with_reducible apply State.count_lasting | with_reducible apply State.modHif_lasting
    | with_reducible apply State.raise_lasting | with_reducible apply State.retrained_lasting

theorem State.onAwake_lasting {s0 : State} (c : Nat) (k : Nat) {f : State → State} {s : State} (h : Lasting s0 s)
    (h3 : ∀ y0, Lasting s0 y0 → Lasting s0 (f y0)) :
       Lasting s0 (State.onAwake c k f s) := by
  unfold State.onAwake
  repeat' first
    | with_reducible assumption | intro _ | with_reducible apply Lasting.ite
    | with_reducible apply State.count_lasting | with_reducible apply State.wakeDomain_lasting
    | with_reducible apply h3

theorem State.wakeJudge_lasting {s0 : State} {s : State} (h : Lasting s0 s) :
    Lasting s0 (State.wakeJudge s) := by
  unfold State.wakeJudge
  repeat' first
    | with_reducible assumption | intro _ | with_reducible apply State.iff_lasting
    | with_reducible apply State.setFld_lasting

theorem State.pmeSend_lasting {s0 : State} {s : State} (h : Lasting s0 s) :
    Lasting s0 (State.pmeSend s) := by
  unfold State.pmeSend
  repeat' first
    | with_reducible assumption | intro _ | with_reducible apply Lasting.ite
    | with_reducible apply State.count_lasting | with_reducible apply State.emit_lasting
    | with_reducible apply State.iff_lasting | with_reducible apply State.modFn_lasting
    | with_reducible apply State.raise_lasting | with_reducible apply State.wakeJudge_lasting
    | with_reducible apply Lasting.foldl | split

theorem State.puntyFlip_lasting {s0 : State} {s : State} (h : Lasting s0 s) :
    Lasting s0 (State.puntyFlip s) := by
  unfold State.puntyFlip
  repeat' first
    | with_reducible assumption | intro _ | with_reducible apply Lasting.ite
    | with_reducible apply State.count_lasting | with_reducible apply State.holdHalf_lasting
    | with_reducible apply State.judgeTasks_lasting | with_reducible apply State.modCore_lasting
    | with_reducible apply State.raise_lasting | with_reducible apply State.setFld_lasting
    | with_reducible apply State.setPunty_lasting | with_reducible apply State.swapBanks_lasting
    | with_reducible apply Lasting.foldl | split

theorem State.puntyLoad_lasting {s0 : State} {s : State} (h : Lasting s0 s) :
    Lasting s0 (State.puntyLoad s) := by
  unfold State.puntyLoad
  repeat' first
    | with_reducible assumption | intro _ | with_reducible apply Lasting.ite | with_reducible apply State.iff_lasting
    | with_reducible apply State.modCore_lasting | with_reducible apply State.releaseHalf_lasting
    | with_reducible apply State.setPunty_lasting | with_reducible apply State.tryLoad_lasting

theorem State.recovery_lasting {s0 : State} (width : Nat) (rate : Nat) (errors : Nat) {s : State} (h : Lasting s0 s) :
    Lasting s0 (State.recovery width rate errors s) := by
  unfold State.recovery
  repeat' first
    | with_reducible assumption | exact fun _ => rfl | intro _ | with_reducible apply Lasting.ite
    | with_reducible apply State.count_lasting | with_reducible apply State.linkErrors_lasting
    | with_reducible apply State.modHif_lasting | with_reducible apply State.raise_lasting
    | with_reducible apply State.raiseMs_lasting | with_reducible apply State.retrained_lasting
    | with_reducible apply State.setFld_lasting | with_reducible apply State.trained_lasting
    | with_reducible apply Lasting.foldl | split | with_reducible apply Lasting.id | dsimp only

theorem State.ringTail_lasting {s0 : State} (f : Nat) (rx : Bool) (k : Nat) (tail : Nat) {s : State} (h : Lasting s0
    s) :
       Lasting s0 (State.ringTail f rx k tail s) := by
  unfold State.ringTail
  repeat' first
    | with_reducible assumption | intro _ | with_reducible apply Lasting.ite | with_reducible apply State.iff_lasting
    | with_reducible apply State.setRg_lasting | with_reducible apply State.starveJudge_lasting
    | with_reducible apply Lasting.foldl | split

theorem State.ringRestart_lasting {s0 : State} (f : Nat) (k : Nat) {s : State} (h : Lasting s0 s) :
    Lasting s0 (State.ringRestart f k s) := by
  unfold State.ringRestart
  repeat' first
    | with_reducible assumption | intro _ | with_reducible apply Lasting.ite | with_reducible apply State.iff_lasting
    | with_reducible apply State.modRing_lasting | with_reducible apply State.setRingState_lasting
    | with_reducible apply State.startJob_lasting | with_reducible apply Lasting.foldl | split

theorem State.ringSkip_lasting {s0 : State} (f : Nat) (k : Nat) {s : State} (h : Lasting s0 s) :
    Lasting s0 (State.ringSkip f k s) := by
  unfold State.ringSkip
  repeat' first
    | with_reducible assumption | intro _ | with_reducible apply Lasting.ite
    | with_reducible apply State.modRing_lasting | with_reducible apply State.ringAdvance_lasting
    | with_reducible apply State.setRingState_lasting | with_reducible apply Lasting.foldl | split

theorem State.ringDisable_lasting {s0 : State} (f : Nat) (rx : Bool) (k : Nat) {s : State} (h : Lasting s0 s) :
    Lasting s0 (State.ringDisable f rx k s) := by
  unfold State.ringDisable
  repeat' first
    | with_reducible assumption | intro _ | with_reducible apply Lasting.ite
    | with_reducible apply State.drainRing_lasting | with_reducible apply State.setRg_lasting

theorem State.ringDrained_lasting {s0 : State} (f : Nat) (rx : Bool) (k : Nat) {s : State} (h : Lasting s0 s) :
    Lasting s0 (State.ringDrained f rx k s) := by
  unfold State.ringDrained
  repeat' first
    | with_reducible assumption | intro _ | with_reducible apply Lasting.ite
    | with_reducible apply State.ringRun_lasting | with_reducible apply State.setRg_lasting
    | with_reducible apply State.setRingState_lasting

theorem State.segArrive_lasting {s0 : State} (f : Nat) (j : TxJob) (bytes : Bytes) {s : State} (h : Lasting s0 s) :
    Lasting s0 (State.segArrive f j bytes s).1 := by
  unfold State.segArrive
  repeat' first
    | with_reducible assumption | intro _ | with_reducible apply Lasting.ite | with_reducible apply Lasting.ite_fst
    | with_reducible apply State.admitStart_lasting | with_reducible apply State.drawCells_lasting
    | with_reducible apply State.iff_lasting | with_reducible apply State.putFrame_lasting
    | with_reducible apply Lasting.foldl | split

theorem State.txOffer_lasting {s0 : State} (f : Nat) (k : Nat) (j : TxJob) {s : State} (h : Lasting s0 s) :
    Lasting s0 (State.txOffer f k j s) := by
  unfold State.txOffer
  repeat' first
    | with_reducible exact h | with_reducible apply State.count_lasting | with_reducible apply State.countBy_lasting
    | with_reducible apply State.modCls_lasting | with_reducible apply State.modFrame_lasting
    | with_reducible apply State.modRing_lasting | with_reducible apply State.txEnd_lasting

theorem State.segData_lasting {s0 : State} (f : Nat) (k : Nat) (j : TxJob) (bs : Bytes) {s : State} (h : Lasting s0
    s) :
       Lasting s0 (State.segData f k j bs s) := by
  unfold State.segData
  repeat' first
    | with_reducible assumption | intro _ | with_reducible apply Lasting.ite | with_reducible apply State.iff_lasting
    | with_reducible apply State.modRing_lasting | with_reducible apply State.modSto_lasting
    | with_reducible apply State.readSegment_lasting | with_reducible apply State.segArrive_lasting
    | with_reducible apply State.txEnd_lasting | with_reducible apply State.txOffer_lasting

theorem State.segComplete_lasting {s0 : State} (f : Nat) (k : Nat) (c : SegCompletion) {s : State} (h : Lasting s0
    s) :
       Lasting s0 (State.segComplete f k c s) := by
  unfold State.segComplete
  repeat' first
    | with_reducible assumption | intro _ | with_reducible apply Lasting.ite
    | with_reducible apply State.gatherFault_lasting | with_reducible apply State.segData_lasting
    | with_reducible apply Lasting.foldl | split

theorem State.unready_lasting {s0 : State} (k : Nat) {s : State} (h : Lasting s0 s) :
    Lasting s0 (State.unready k s) := by
  unfold State.unready
  repeat' first | with_reducible exact h | with_reducible apply State.modTsk_lasting

theorem State.slotPrefetch_lasting {s0 : State} (c : Nat) (k : Nat) {s : State} (h : Lasting s0 s) :
    Lasting s0 (State.slotPrefetch c k s) := by
  unfold State.slotPrefetch
  repeat' first
    | with_reducible assumption | intro _ | with_reducible apply Lasting.ite
    | with_reducible apply State.modCoreRun_lasting | with_reducible apply State.onAwake_lasting
    | with_reducible apply State.putLocal_lasting | with_reducible apply State.setTaskState_lasting
    | with_reducible apply State.unready_lasting | with_reducible apply State.useFree_lasting

theorem State.startTask_lasting {s0 : State} (c : Nat) (k : Nat) {s : State} (h : Lasting s0 s) :
    Lasting s0 (State.startTask c k s) := by
  unfold State.startTask
  repeat' first
    | with_reducible exact h | with_reducible apply State.count_lasting | with_reducible apply State.holdFlow_lasting
    | with_reducible apply State.modCoreRun_lasting | with_reducible apply State.putTw_lasting
    | with_reducible apply State.setTaskState_lasting | with_reducible apply State.unready_lasting

theorem State.taskDispatch_lasting {s0 : State} (c : Nat) (k : Nat) {s : State} (h : Lasting s0 s) :
    Lasting s0 (State.taskDispatch c k s) := by
  unfold State.taskDispatch
  repeat' first
    | with_reducible assumption | intro _ | with_reducible apply Lasting.ite
    | with_reducible apply State.emptySlot_lasting | with_reducible apply State.onAwake_lasting
    | with_reducible apply State.startTask_lasting | with_reducible apply State.taskWaits_lasting

theorem State.taskEnd_lasting {s0 : State} (c : Nat) {s : State} (h : Lasting s0 s) :
    Lasting s0 (State.taskEnd c s) := by
  unfold State.taskEnd
  repeat' first
    | with_reducible assumption | intro _ | with_reducible apply Lasting.ite
    | with_reducible apply State.endTask_lasting | with_reducible apply State.modCoreRun_lasting
    | with_reducible apply State.setTaskState_lasting | with_reducible apply Lasting.foldl | split

theorem State.taskFlow_lasting {s0 : State} (c : Nat) (flow : Nat) (held : Bool) {s : State} (h : Lasting s0 s) :
    Lasting s0 (State.taskFlow c flow held s) := by
  unfold State.taskFlow
  repeat' first
    | with_reducible assumption | intro _ | with_reducible apply Lasting.ite
    | with_reducible apply State.coreTrap_lasting | with_reducible apply State.releaseFlow_lasting
    | with_reducible apply State.useFree_lasting | with_reducible apply Lasting.foldl | split

theorem State.taskPreempt_lasting {s0 : State} (c : Nat) (k : Nat) {s : State} (h : Lasting s0 s) :
    Lasting s0 (State.taskPreempt c k s) := by
  unfold State.taskPreempt
  repeat' first
    | with_reducible assumption | intro _ | with_reducible apply Lasting.ite
    | with_reducible apply State.count_lasting | with_reducible apply State.modCoreRun_lasting
    | with_reducible apply State.raiseMs_lasting | with_reducible apply State.setTaskState_lasting
    | with_reducible apply State.startTask_lasting | with_reducible apply Lasting.foldl | split
    | with_reducible apply Lasting.id | dsimp only

theorem State.tick_lasting {s0 : State} {s : State} (h : Lasting s0 s) :
    Lasting s0 (State.tick s) := by
  unfold State.tick
  repeat' first
    | with_reducible assumption | intro _ | with_reducible apply Lasting.ite
    | with_reducible apply State.coreCycles_lasting | with_reducible apply State.iff_lasting
    | with_reducible apply State.modNow_lasting | with_reducible apply State.snapReach_lasting
    | with_reducible apply State.timeMove_lasting | with_reducible apply Lasting.foldl | split

theorem State.timerExpire_lasting {s0 : State} (t : Nat) {s : State} (h : Lasting s0 s) :
    Lasting s0 (State.timerExpire t s) := by
  unfold State.timerExpire
  repeat' first
    | with_reducible assumption | intro _ | with_reducible apply Lasting.ite
    | with_reducible apply State.count_lasting | with_reducible apply State.iff_lasting
    | with_reducible apply State.modTsk_lasting | with_reducible apply State.routeEvent_lasting
    | with_reducible apply State.setTf_lasting

theorem State.wakeCause_lasting {s0 : State} (cause : Nat) (f : Nat) {s : State} (h : Lasting s0 s) :
    Lasting s0 (State.wakeCause cause f s) := by
  unfold State.wakeCause
  repeat' first
    | with_reducible assumption | intro _ | with_reducible apply Lasting.ite
    | with_reducible apply State.wakeLatch_lasting

theorem State.watchdogExpire_lasting {s0 : State} (c : Nat) {s : State} (h : Lasting s0 s) :
    Lasting s0 (State.watchdogExpire c s) := by
  unfold State.watchdogExpire
  repeat' first
    | with_reducible assumption | intro _ | with_reducible apply Lasting.ite
    | with_reducible apply State.containCore_lasting | with_reducible apply State.count_lasting
    | with_reducible apply State.puntyAbort_lasting | with_reducible apply State.raise_lasting

theorem execHalDisable_lasting {s0 : State} (t : Tree) {s : State} (h : Lasting s0 s) :
    ∀ out, execHalDisable t s = .next out → Lasting s0 out := by
  intro out e; cases e
  repeat' first
    | with_reducible exact h | with_reducible apply State.halStop_lasting | with_reducible apply State.pageOff_lasting

theorem execHalPreambleDetect_lasting {s0 : State} (t : Tree) (gain : Nat) {s : State} (h : Lasting s0 s) :
    ∀ out, execHalPreambleDetect t gain s = .next out → Lasting s0 out := by
  intro out e; cases e
  repeat' first | with_reducible exact h | with_reducible apply State.halDetect_lasting

theorem execHalSyncFound_lasting {s0 : State} (t : Tree) (fc : Nat) (ofs : Nat) {s : State} (h : Lasting s0 s) :
    ∀ out, execHalSyncFound t fc ofs s = .next out → Lasting s0 out := by
  intro out e; cases e
  repeat' first | with_reducible exact h | with_reducible apply State.modHals_lasting

theorem execHalSyncMiss_lasting {s0 : State} (t : Tree) {s : State} (h : Lasting s0 s) :
    ∀ out, execHalSyncMiss t s = .next out → Lasting s0 out := by
  intro out e; cases e
  repeat' first | with_reducible exact h | with_reducible apply State.halHeaderFail_lasting

theorem execHalHeader_lasting {s0 : State} (t : Tree) (syms : List Nat) {s : State} (h : Lasting s0 s) :
    ∀ out, execHalHeader t syms s = .next out → Lasting s0 out := by
  intro out e; cases e
  repeat' first
    | with_reducible assumption | intro _ | with_reducible apply Lasting.ite
    | with_reducible apply State.halHeaderFail_lasting | with_reducible apply State.modHals_lasting
    | with_reducible apply Lasting.foldl | split

theorem execHalFrameEnd_lasting {s0 : State} (t : Tree) (syms : List Nat) (level : Nat) {s : State} (h : Lasting s0
    s) :
       ∀ out, execHalFrameEnd t syms level s = .next out → Lasting s0 out := by
  intro out e; cases e
  repeat' first | with_reducible exact h | with_reducible apply State.halFrameEnd_lasting

theorem execHalAgcTimeout_lasting {s0 : State} (t : Tree) {s : State} (h : Lasting s0 s) :
    ∀ out, execHalAgcTimeout t s = .next out → Lasting s0 out := by
  intro out e; cases e
  repeat' first
    | with_reducible assumption | intro _ | with_reducible apply State.count_lasting
    | with_reducible apply State.halRelease_lasting | with_reducible apply State.iff_lasting

theorem execHalRxActiveLost_lasting {s0 : State} (t : Tree) {s : State} (h : Lasting s0 s) :
    ∀ out, execHalRxActiveLost t s = .next out → Lasting s0 out := by
  intro out e; cases e
  repeat' first | with_reducible exact h | with_reducible apply State.halJudge_lasting

theorem execHalRxSyncTimeout_lasting {s0 : State} (t : Tree) {s : State} (h : Lasting s0 s) :
    ∀ out, execHalRxSyncTimeout t s = .next out → Lasting s0 out := by
  intro out e; cases e
  repeat' first
    | with_reducible exact h | with_reducible apply State.halSync_lasting | with_reducible apply State.iff_lasting

theorem execBeacon_lasting {s0 : State} (t : Tree) (payload : Bytes) {s : State} (h : Lasting s0 s) :
    ∀ out, execBeacon t payload s = .next out → Lasting s0 out := by
  intro out e; cases e
  repeat' first
    | with_reducible assumption | intro _ | with_reducible apply State.discover_lasting
    | with_reducible apply State.iff_lasting | with_reducible apply State.setMode_lasting

theorem execRangeRequest_lasting {s0 : State} (t : Tree) (payload : Bytes) {s : State} (h : Lasting s0 s) :
    ∀ out, execRangeRequest t payload s = .next out → Lasting s0 out := by
  intro out e; cases e
  repeat' first
    | with_reducible assumption | intro _ | with_reducible apply State.halSend_lasting
    | with_reducible apply State.iff_lasting | with_reducible apply State.modActs_lasting

theorem execWake_lasting {s0 : State} (t : Tree) (payload : Bytes) {s : State} (h : Lasting s0 s) :
    ∀ out, execWake t payload s = .next out → Lasting s0 out := by
  intro out e; cases e
  repeat' first
    | with_reducible assumption | intro _ | with_reducible apply State.iff_lasting
    | with_reducible apply State.modActs_lasting | with_reducible apply State.wakeRequest_lasting

theorem execNoticeAck_lasting {s0 : State} (t : Tree) (payload : Bytes) {s : State} (h : Lasting s0 s) :
    ∀ out, execNoticeAck t payload s = .next out → Lasting s0 out := by
  intro out e; cases e
  repeat' first
    | with_reducible exact h | with_reducible apply State.ackNotice_lasting | with_reducible apply State.iff_lasting

theorem execHalSubmit_lasting {s0 : State} (t : Tree) (slot : Nat) {s : State} (h : Lasting s0 s) :
    ∀ out, execHalSubmit t slot s = .next out → Lasting s0 out := by
  intro out e; cases e
  repeat' first
    | with_reducible exact h | with_reducible apply State.guarded_lasting
    | with_reducible apply State.halSubmitCmd_lasting

theorem execHalCancel_lasting {s0 : State} (t : Tree) (slot : Nat) {s : State} (h : Lasting s0 s) :
    ∀ out, execHalCancel t slot s = .next out → Lasting s0 out := by
  intro out e; cases e
  repeat' first
    | with_reducible exact h | with_reducible apply State.guarded_lasting
    | with_reducible apply State.halCancel_lasting

theorem execHalCommit_lasting {s0 : State} (t : Tree) (slot : Nat) {s : State} (h : Lasting s0 s) :
    ∀ out, execHalCommit t slot s = .next out → Lasting s0 out := by
  intro out e; cases e
  repeat' first
    | with_reducible exact h | with_reducible apply State.halCommit_lasting | with_reducible apply State.iff_lasting

theorem execHalTxStart_lasting {s0 : State} (t : Tree) (slot : Nat) {s : State} (h : Lasting s0 s) :
    ∀ out, execHalTxStart t slot s = .next out → Lasting s0 out := by
  intro out e; cases e
  repeat' first | with_reducible exact h | with_reducible apply State.halStart_lasting

theorem execHalTxEnd_lasting {s0 : State} (t : Tree) (slot : Nat) {s : State} (h : Lasting s0 s) :
    ∀ out, execHalTxEnd t slot s = .next out → Lasting s0 out := by
  intro out e; cases e
  repeat' first
    | with_reducible assumption | intro _ | with_reducible apply Lasting.ite
    | with_reducible apply State.halEnd_lasting | with_reducible apply State.halNoticeSent_lasting
    | with_reducible apply State.iff_lasting | with_reducible apply Lasting.foldl | split

theorem execCcryStart_lasting {s0 : State} (slot : Nat) {s : State} (h : Lasting s0 s) :
    ∀ out, execCcryStart slot s = .next out → Lasting s0 out := by
  intro out e; cases e
  repeat' first
    | with_reducible exact h | with_reducible apply State.ccryCmd_lasting
    | with_reducible apply State.ccryStart_lasting

theorem execCcryAbort_lasting {s0 : State} (slot : Nat) {s : State} (h : Lasting s0 s) :
    ∀ out, execCcryAbort slot s = .next out → Lasting s0 out := by
  intro out e; cases e
  repeat' first
    | with_reducible exact h | with_reducible apply State.ccryAbort_lasting
    | with_reducible apply State.ccryCmd_lasting

theorem execCcryExport_lasting {s0 : State} (slot : Nat) (wrapped : Bool) {s : State} (h : Lasting s0 s) :
    ∀ out, execCcryExport slot wrapped s = .next out → Lasting s0 out := by
  intro out e; cases e
  repeat' first
    | with_reducible assumption | intro _ | with_reducible apply State.ccryCmd_lasting
    | with_reducible apply State.ccryExport_lasting

theorem execCcryImport_lasting {s0 : State} (slot : Nat) {s : State} (h : Lasting s0 s) :
    ∀ out, execCcryImport slot s = .next out → Lasting s0 out := by
  intro out e; cases e
  repeat' first
    | with_reducible exact h | with_reducible apply State.ccryCmd_lasting
    | with_reducible apply State.ccryImport_lasting

theorem execCcryJobDone_lasting {s0 : State} (slot : Nat) {s : State} (h : Lasting s0 s) :
    ∀ out, execCcryJobDone slot s = .next out → Lasting s0 out := by
  intro out e; cases e
  repeat' first | with_reducible exact h | with_reducible apply State.ccryDone_lasting

theorem execCcryDisable_lasting {s0 : State} {s : State} (h : Lasting s0 s) :
    ∀ out, execCcryDisable s = .next out → Lasting s0 out := by
  intro out e; cases e
  repeat' first
    | with_reducible exact h | with_reducible apply State.ccryStop_lasting
    | with_reducible apply State.pageOff_lasting

theorem execKstCommit_lasting {s0 : State} {s : State} (h : Lasting s0 s) :
    ∀ out, execKstCommit s = .next out → Lasting s0 out := by
  intro out e; cases e
  repeat' first
    | with_reducible exact h | with_reducible apply State.kstCmd_lasting
    | with_reducible apply State.kstCommit_lasting

theorem execKstCommitDone_lasting {s0 : State} (ok : Bool) {s : State} (h : Lasting s0 s) :
    ∀ out, execKstCommitDone ok s = .next out → Lasting s0 out := by
  intro out e; cases e
  repeat' first | with_reducible exact h | with_reducible apply State.kstCommitDone_lasting

theorem execKstGenkey_lasting {s0 : State} {s : State} (h : Lasting s0 s) :
    ∀ out, execKstGenkey s = .next out → Lasting s0 out := by
  intro out e; cases e
  repeat' first
    | with_reducible exact h | with_reducible apply State.kstCmd_lasting
    | with_reducible apply State.kstGenkey_lasting

theorem execKstGenkeyDone_lasting {s0 : State} {s : State} (h : Lasting s0 s) :
    ∀ out, execKstGenkeyDone s = .next out → Lasting s0 out := by
  intro out e; cases e
  repeat' first | with_reducible exact h | with_reducible apply State.kstGenkeyDone_lasting

theorem execKstDisable_lasting {s0 : State} {s : State} (h : Lasting s0 s) :
    ∀ out, execKstDisable s = .next out → Lasting s0 out := by
  intro out e; cases e
  repeat' first
    | with_reducible assumption | intro _ | with_reducible apply Lasting.ite
    | with_reducible apply State.pageOff_lasting | with_reducible apply Lasting.foldl | split
    | with_reducible apply Lasting.id | dsimp only

theorem execPcieConfigWrite_lasting {s0 : State} (fn : Nat) (w : CfgWrite) {s : State} (h : Lasting s0 s) :
    ∀ out, execPcieConfigWrite fn w s = .next out → Lasting s0 out := by
  intro out e; cases e
  repeat' first | with_reducible exact h | with_reducible apply State.configWrite_lasting

theorem execMsixUnmask_lasting {s0 : State} (fn : Nat) (vec : Option Nat) {s : State} (h : Lasting s0 s) :
    ∀ out, execMsixUnmask fn vec s = .next out → Lasting s0 out := by
  intro out e; cases e
  repeat' first | with_reducible exact h | with_reducible apply State.msixUnmask_lasting

theorem execFunctionLevelReset_lasting {s0 : State} (fn : Nat) {s : State} (h : Lasting s0 s) :
    ∀ out, execFunctionLevelReset fn s = .next out → Lasting s0 out := by
  intro out e; cases e
  repeat' first | with_reducible exact h | with_reducible apply State.flr_lasting

theorem execFlrComplete_lasting {s0 : State} (fn : Nat) {s : State} (h : Lasting s0 s) :
    ∀ out, execFlrComplete fn s = .next out → Lasting s0 out := by
  intro out e; cases e
  repeat' first | with_reducible exact h | with_reducible apply State.flrComplete_lasting

theorem execRingTailWrite_lasting {s0 : State} (fn : Nat) (rx : Bool) (k : Nat) (tail : Nat) {s : State} (h :
    Lasting s0 s) :
       ∀ out, execRingTailWrite fn rx k tail s = .next out → Lasting s0 out := by
  intro out e; cases e
  repeat' first | with_reducible exact h | with_reducible apply State.ringTail_lasting

theorem execRingDisable_lasting {s0 : State} (fn : Nat) (rx : Bool) (k : Nat) {s : State} (h : Lasting s0 s) :
    ∀ out, execRingDisable fn rx k s = .next out → Lasting s0 out := by
  intro out e; cases e
  repeat' first | with_reducible exact h | with_reducible apply State.ringDisable_lasting

theorem execRingDrained_lasting {s0 : State} (fn : Nat) (rx : Bool) (k : Nat) {s : State} (h : Lasting s0 s) :
    ∀ out, execRingDrained fn rx k s = .next out → Lasting s0 out := by
  intro out e; cases e
  repeat' first | with_reducible exact h | with_reducible apply State.ringDrained_lasting

theorem execRingRestart_lasting {s0 : State} (fn : Nat) (k : Nat) {s : State} (h : Lasting s0 s) :
    ∀ out, execRingRestart fn k s = .next out → Lasting s0 out := by
  intro out e; cases e
  repeat' first | with_reducible exact h | with_reducible apply State.ringRestart_lasting

theorem execRingSkip_lasting {s0 : State} (fn : Nat) (k : Nat) {s : State} (h : Lasting s0 s) :
    ∀ out, execRingSkip fn k s = .next out → Lasting s0 out := by
  intro out e; cases e
  repeat' first | with_reducible exact h | with_reducible apply State.ringSkip_lasting

theorem execFuncStatusClear_lasting {s0 : State} (fn : Nat) {s : State} (h : Lasting s0 s) :
    ∀ out, execFuncStatusClear fn s = .next out → Lasting s0 out := by
  intro out e; cases e
  repeat' first
    | with_reducible exact h | with_reducible apply State.iff_lasting | with_reducible apply State.modFn_lasting

theorem execDmaTxFrame_lasting {s0 : State} (fn : Nat) (k : Nat) (entries : List Bytes) {s : State} (h : Lasting s0
    s) :
       ∀ out, execDmaTxFrame fn k entries s = .next out → Lasting s0 out := by
  intro out e; cases e
  repeat' first | with_reducible exact h | with_reducible apply State.dmaTxFrame_lasting

theorem execDmaSegComplete_lasting {s0 : State} (fn : Nat) (k : Nat) (c : SegCompletion) {s : State} (h : Lasting s0
    s) :
       ∀ out, execDmaSegComplete fn k c s = .next out → Lasting s0 out := by
  intro out e; cases e
  repeat' first | with_reducible exact h | with_reducible apply State.segComplete_lasting

theorem execDmaRxWrite_lasting {s0 : State} (fn : Nat) (cls : Nat) (bufs : List Bytes) {s : State} (h : Lasting s0
    s) :
       ∀ out, execDmaRxWrite fn cls bufs s = .next out → Lasting s0 out := by
  intro out e; cases e
  repeat' first | with_reducible exact h | with_reducible apply State.dmaRxWrite_lasting

theorem execMsixModeration_lasting {s0 : State} (fn : Nat) (rx : Bool) (k : Nat) {s : State} (h : Lasting s0 s) :
    ∀ out, execMsixModeration fn rx k s = .next out → Lasting s0 out := by
  intro out e; cases e
  repeat' first | with_reducible exact h | with_reducible apply State.moderationEnd_lasting

theorem execDmaDisable_lasting {s0 : State} {s : State} (h : Lasting s0 s) :
    ∀ out, execDmaDisable s = .next out → Lasting s0 out := by
  intro out e; cases e
  repeat' first
    | with_reducible assumption | intro _ | with_reducible apply Lasting.ite
    | with_reducible apply State.drainRing_lasting | with_reducible apply State.pageOff_lasting
    | with_reducible apply Lasting.foldl | split

theorem execL1Entry_lasting {s0 : State} (idle : Nat) {s : State} (h : Lasting s0 s) :
    ∀ out, execL1Entry idle s = .next out → Lasting s0 out := by
  intro out e; cases e
  repeat' first | with_reducible exact h | with_reducible apply State.l1Entry_lasting

theorem execL1Exit_lasting {s0 : State} {s : State} (h : Lasting s0 s) :
    ∀ out, execL1Exit s = .next out → Lasting s0 out := by
  intro out e; cases e
  repeat' first | with_reducible exact h | with_reducible apply State.l1Exit_lasting

theorem execWakeCauseLatch_lasting {s0 : State} (cause : Nat) (fn : Nat) {s : State} (h : Lasting s0 s) :
    ∀ out, execWakeCauseLatch cause fn s = .next out → Lasting s0 out := by
  intro out e; cases e
  repeat' first | with_reducible exact h | with_reducible apply State.wakeCause_lasting

theorem execPmeSend_lasting {s0 : State} {s : State} (h : Lasting s0 s) :
    ∀ out, execPmeSend s = .next out → Lasting s0 out := by
  intro out e; cases e
  repeat' first | with_reducible exact h | with_reducible apply State.pmeSend_lasting

theorem execWakeCauseClear_lasting {s0 : State} (bits : Nat) {s : State} (h : Lasting s0 s) :
    ∀ out, execWakeCauseClear bits s = .next out → Lasting s0 out := by
  intro out e; cases e
  repeat' first
    | with_reducible exact h | with_reducible apply State.guarded_lasting
    | with_reducible apply State.wakeClear_lasting

theorem execNarrowRequest_lasting {s0 : State} (util : Nat) (ms : Nat) {s : State} (h : Lasting s0 s) :
    ∀ out, execNarrowRequest util ms s = .next out → Lasting s0 out := by
  intro out e; cases e
  repeat' first | with_reducible exact h | with_reducible apply State.narrowRequest_lasting

theorem execNarrowWithdraw_lasting {s0 : State} (width : Nat) (rate : Nat) {s : State} (h : Lasting s0 s) :
    ∀ out, execNarrowWithdraw width rate s = .next out → Lasting s0 out := by
  intro out e; cases e
  repeat' first | with_reducible exact h | with_reducible apply State.narrowWithdraw_lasting

theorem execNarrowRetry_lasting {s0 : State} (util : Nat) (ms : Nat) {s : State} (h : Lasting s0 s) :
    ∀ out, execNarrowRetry util ms s = .next out → Lasting s0 out := by
  intro out e; cases e
  repeat' first | with_reducible exact h | with_reducible apply State.narrowRetry_lasting

theorem execCxlEnumerate_lasting {s0 : State} {s : State} (h : Lasting s0 s) :
    ∀ out, execCxlEnumerate s = .next out → Lasting s0 out := by
  intro out e; cases e
  repeat' first
    | with_reducible exact h | with_reducible apply State.cxlStart_lasting | with_reducible apply State.pageOn_lasting

theorem execCxlEnumDone_lasting {s0 : State} (res : Nat) (capacity : Nat) (speed : Nat) (width : Nat) {s : State} (h
    : Lasting s0 s) :
       ∀ out, execCxlEnumDone res capacity speed width s = .next out → Lasting s0 out := by
  intro out e; cases e
  repeat' first | with_reducible exact h | with_reducible apply State.cxlEnumDone_lasting

theorem execCxlLinkDown_lasting {s0 : State} {s : State} (h : Lasting s0 s) :
    ∀ out, execCxlLinkDown s = .next out → Lasting s0 out := by
  intro out e; cases e
  repeat' first
    | with_reducible assumption | intro _ | with_reducible apply State.cxlAgain_lasting
    | with_reducible apply State.cxlDown_lasting | with_reducible apply State.iff_lasting

theorem execHifDisable_lasting {s0 : State} {s : State} (h : Lasting s0 s) :
    ∀ out, execHifDisable s = .next out → Lasting s0 out := by
  intro out e; cases e
  repeat' first
    | with_reducible exact h | with_reducible apply State.cxlStop_lasting | with_reducible apply State.pageOff_lasting

theorem execTaskDispatch_lasting {s0 : State} (core : Nat) (task : Nat) {s : State} (h : Lasting s0 s) :
    ∀ out, execTaskDispatch core task s = .next out → Lasting s0 out := by
  intro out e; cases e
  repeat' first | with_reducible exact h | with_reducible apply State.taskDispatch_lasting

theorem execSlotPrefetch_lasting {s0 : State} (core : Nat) (task : Nat) {s : State} (h : Lasting s0 s) :
    ∀ out, execSlotPrefetch core task s = .next out → Lasting s0 out := by
  intro out e; cases e
  repeat' first | with_reducible exact h | with_reducible apply State.slotPrefetch_lasting

theorem execTaskPreempt_lasting {s0 : State} (core : Nat) (task : Nat) {s : State} (h : Lasting s0 s) :
    ∀ out, execTaskPreempt core task s = .next out → Lasting s0 out := by
  intro out e; cases e
  repeat' first | with_reducible exact h | with_reducible apply State.taskPreempt_lasting

theorem execTaskEnd_lasting {s0 : State} (core : Nat) {s : State} (h : Lasting s0 s) :
    ∀ out, execTaskEnd core s = .next out → Lasting s0 out := by
  intro out e; cases e
  repeat' first | with_reducible exact h | with_reducible apply State.taskEnd_lasting

theorem execTaskSetflag_lasting {s0 : State} (core : Nat) (task : Nat) (flag : Nat) {s : State} (h : Lasting s0 s) :
    ∀ out, execTaskSetflag core task flag s = .next out → Lasting s0 out := by
  intro out e; cases e
  repeat' first
    | with_reducible exact h | with_reducible apply State.iff_lasting | with_reducible apply State.setTaskFlag_lasting

theorem execTaskFlow_lasting {s0 : State} (core : Nat) (flow : Nat) (held : Bool) {s : State} (h : Lasting s0 s) :
    ∀ out, execTaskFlow core flow held s = .next out → Lasting s0 out := by
  intro out e; cases e
  repeat' first | with_reducible exact h | with_reducible apply State.taskFlow_lasting

theorem execTskTimerExpire_lasting {s0 : State} (timer : Nat) {s : State} (h : Lasting s0 s) :
    ∀ out, execTskTimerExpire timer s = .next out → Lasting s0 out := by
  intro out e; cases e
  repeat' first | with_reducible exact h | with_reducible apply State.timerExpire_lasting

theorem execTskSet_lasting {s0 : State} (task : Nat) (flag : Nat) {s : State} (h : Lasting s0 s) :
    ∀ out, execTskSet task flag s = .next out → Lasting s0 out := by
  intro out e; cases e
  repeat' first
    | with_reducible exact h | with_reducible apply State.guarded_lasting | with_reducible apply State.tskSet_lasting

theorem execDispatchLate_lasting {s0 : State} (task : Nat) {s : State} (h : Lasting s0 s) :
    ∀ out, execDispatchLate task s = .next out → Lasting s0 out := by
  intro out e; cases e
  repeat' first | with_reducible assumption | intro _ | with_reducible apply State.dispatchLate_lasting

theorem execWdogKick_lasting {s0 : State} (core : Nat) {s : State} (h : Lasting s0 s) :
    ∀ out, execWdogKick core s = .next out → Lasting s0 out := by
  intro out e; cases e
  repeat' first
    | with_reducible assumption | intro _ | with_reducible apply State.iff_lasting
    | with_reducible apply State.modCoreRun_lasting

theorem execWatchdogExpire_lasting {s0 : State} (core : Nat) {s : State} (h : Lasting s0 s) :
    ∀ out, execWatchdogExpire core s = .next out → Lasting s0 out := by
  intro out e; cases e
  repeat' first | with_reducible exact h | with_reducible apply State.watchdogExpire_lasting

theorem execCoreRelease_lasting {s0 : State} (mask : Nat) {s : State} (h : Lasting s0 s) :
    ∀ out, execCoreRelease mask s = .next out → Lasting s0 out := by
  intro out e; cases e
  repeat' first
    | with_reducible exact h | with_reducible apply State.coreRelease_lasting
    | with_reducible apply State.guarded_lasting

theorem execSramUncorrectable_lasting {s0 : State} (core : Nat) (what : CoreAccess) {s : State} (h : Lasting s0 s) :
    ∀ out, execSramUncorrectable core what s = .next out → Lasting s0 out := by
  intro out e; cases e
  repeat' first
    | with_reducible exact h | with_reducible apply State.coreMemory_lasting | with_reducible apply State.iff_lasting

theorem execCoreRingTail_lasting {s0 : State} (ring : Nat) (tail : Nat) {s : State} (h : Lasting s0 s) :
    ∀ out, execCoreRingTail ring tail s = .next out → Lasting s0 out := by
  intro out e; cases e
  repeat' first | with_reducible exact h | with_reducible apply State.coreRingTail_lasting

theorem execCoreDisable_lasting {s0 : State} {s : State} (h : Lasting s0 s) :
    ∀ out, execCoreDisable s = .next out → Lasting s0 out := by
  intro out e; cases e
  repeat' first
    | with_reducible assumption | intro _ | with_reducible apply Lasting.ite
    | with_reducible apply State.pageOff_lasting | with_reducible apply Lasting.foldl | split
    | with_reducible apply Lasting.id | dsimp only

theorem execTskDisable_lasting {s0 : State} {s : State} (h : Lasting s0 s) :
    ∀ out, execTskDisable s = .next out → Lasting s0 out := by
  intro out e; cases e
  repeat' first
    | with_reducible assumption | intro _ | with_reducible apply Lasting.ite
    | with_reducible apply State.pageOff_lasting | with_reducible apply Lasting.foldl | split
    | with_reducible apply Lasting.id | dsimp only

theorem execFlshDisable_lasting {s0 : State} {s : State} (h : Lasting s0 s) :
    ∀ out, execFlshDisable s = .next out → Lasting s0 out := by
  intro out e; cases e
  repeat' first
    | with_reducible assumption | intro _ | with_reducible apply Lasting.ite
    | with_reducible apply State.pageOff_lasting | with_reducible apply Lasting.foldl | split
    | with_reducible apply Lasting.id | dsimp only

theorem execBootConfirm_lasting {s0 : State} {s : State} (h : Lasting s0 s) :
    ∀ out, execBootConfirm s = .next out → Lasting s0 out := by
  intro out e; cases e
  repeat' first
    | with_reducible exact h | with_reducible apply State.bootConfirm_lasting
    | with_reducible apply State.guarded_lasting

theorem execBootRetry_lasting {s0 : State} {s : State} (h : Lasting s0 s) :
    ∀ out, execBootRetry s = .next out → Lasting s0 out := by
  intro out e; cases e
  repeat' first
    | with_reducible exact h | with_reducible apply State.bootRetry_lasting
    | with_reducible apply State.guarded_lasting

theorem execPuntyArm_lasting {s0 : State} (handover : Nat) {s : State} (h : Lasting s0 s) :
    ∀ out, execPuntyArm handover s = .next out → Lasting s0 out := by
  intro out e; cases e
  repeat' first
    | with_reducible exact h | with_reducible apply State.guarded_lasting
    | with_reducible apply State.puntyArm_lasting

theorem execPuntyLoad_lasting {s0 : State} {s : State} (h : Lasting s0 s) :
    ∀ out, execPuntyLoad s = .next out → Lasting s0 out := by
  intro out e; cases e
  repeat' first | with_reducible exact h | with_reducible apply State.puntyLoad_lasting

theorem execPuntyReady_lasting {s0 : State} {s : State} (h : Lasting s0 s) :
    ∀ out, execPuntyReady s = .next out → Lasting s0 out := by
  intro out e; cases e
  repeat' first
    | with_reducible exact h | with_reducible apply State.guarded_lasting
    | with_reducible apply State.puntyReady_lasting

theorem execPuntyCommit_lasting {s0 : State} {s : State} (h : Lasting s0 s) :
    ∀ out, execPuntyCommit s = .next out → Lasting s0 out := by
  intro out e; cases e
  repeat' first
    | with_reducible exact h | with_reducible apply State.guarded_lasting
    | with_reducible apply State.puntyCommit_lasting

theorem execPuntyFlip_lasting {s0 : State} {s : State} (h : Lasting s0 s) :
    ∀ out, execPuntyFlip s = .next out → Lasting s0 out := by
  intro out e; cases e
  repeat' first | with_reducible exact h | with_reducible apply State.puntyFlip_lasting

theorem execPuntyAbort_lasting {s0 : State} {s : State} (h : Lasting s0 s) :
    ∀ out, execPuntyAbort s = .next out → Lasting s0 out := by
  intro out e; cases e
  repeat' first
    | with_reducible exact h | with_reducible apply State.guarded_lasting
    | with_reducible apply State.puntyAbort_lasting

theorem execPuntyFreezeTimeout_lasting {s0 : State} {s : State} (h : Lasting s0 s) :
    ∀ out, execPuntyFreezeTimeout s = .next out → Lasting s0 out := by
  intro out e; cases e
  repeat' first
    | with_reducible exact h | with_reducible apply State.iff_lasting | with_reducible apply State.puntyAbort_lasting

theorem execCompletionTimeout_lasting {s0 : State} (fn : Nat) (k : Nat) {s : State} (h : Lasting s0 s) :
    ∀ out, execCompletionTimeout fn k s = .next out → Lasting s0 out := by
  intro out e; cases e
  repeat' first
    | with_reducible assumption | intro _ | with_reducible apply Lasting.ite
    | with_reducible apply State.gatherFault_lasting | with_reducible apply Lasting.foldl | split

theorem execPcieLinkDown_lasting {s0 : State} (l2 : Bool) {s : State} (h : Lasting s0 s) :
    ∀ out, execPcieLinkDown l2 s = .next out → Lasting s0 out := by
  intro out e; cases e
  repeat' first | with_reducible exact h | with_reducible apply State.pcieDown_lasting

theorem execPcieRecovery_lasting {s0 : State} (width : Nat) (rate : Nat) (errors : Nat) {s : State} (h : Lasting s0
    s) :
       ∀ out, execPcieRecovery width rate errors s = .next out → Lasting s0 out := by
  intro out e; cases e
  repeat' first | with_reducible exact h | with_reducible apply State.recovery_lasting

theorem execCxlDeviceError_lasting {s0 : State} {s : State} (h : Lasting s0 s) :
    ∀ out, execCxlDeviceError s = .next out → Lasting s0 out := by
  intro out e; cases e
  repeat' first | with_reducible exact h | with_reducible apply State.count_lasting

end Sys2Proof.Machine
end

