-- ==== Sys2Proof/Laws/LastingBlocks.lean ====
section
/-! SUPPORT. What leaves what lasts (Laws/Lasting.lean): page enables and soft reset, power, containment, and the commands of the line and the ports. -/

namespace Sys2Proof.Machine

theorem State.acqStore_lasting {s0 : State} (r : Rx) (res : AcqResult) {s : State} (h : Lasting s0 s) :
    Lasting s0 (State.acqStore r res s) := by
  unfold State.acqStore
  repeat' first
    | with_reducible assumption | intro _ | with_reducible apply Lasting.ite
    | with_reducible apply State.laneFix_lasting | with_reducible apply State.setFld_lasting
    | with_reducible apply State.setSFld_lasting | with_reducible apply Lasting.foldl | split

theorem State.illegalMode_lasting {s0 : State} (t : Tree) {s : State} (h : Lasting s0 s) :
    Lasting s0 (State.illegalMode t s) := by
  unfold State.illegalMode
  repeat' first
    | with_reducible exact h | with_reducible apply State.count_lasting | with_reducible apply State.raise_lasting

theorem State.hostMode_lasting {s0 : State} (t : Tree) (m : Nat) {s : State} (h : Lasting s0 s) :
    Lasting s0 (State.hostMode t m s) := by
  unfold State.hostMode
  repeat' first
    | with_reducible assumption | intro _ | with_reducible apply Lasting.ite
    | with_reducible apply State.illegalMode_lasting | with_reducible apply State.recordQuarantine_lasting
    | with_reducible apply State.setMode_lasting

theorem State.releaseQuarantine_lasting {s0 : State} (t : Tree) {s : State} (h : Lasting s0 s) :
    Lasting s0 (State.releaseQuarantine t s) := by
  unfold State.releaseQuarantine
  repeat' first
    | with_reducible assumption | intro _ | with_reducible apply Lasting.ite
    | with_reducible apply State.count_lasting | with_reducible apply State.iff_lasting
    | with_reducible apply State.leaveQuarantine_lasting | with_reducible apply State.raise_lasting

theorem State.hostDeactivate_lasting {s0 : State} (t : Tree) {s : State} (h : Lasting s0 s) :
    Lasting s0 (State.hostDeactivate t s) := by
  unfold State.hostDeactivate
  repeat' first
    | with_reducible exact h | with_reducible apply State.iff_lasting | with_reducible apply State.setMode_lasting

theorem State.announceRelease_lasting {s0 : State} {s : State} (h : Lasting s0 s) :
    Lasting s0 (State.announceRelease s) := by
  unfold State.announceRelease
  repeat' first
    | with_reducible assumption | exact fun _ => rfl | intro _ | with_reducible apply Lasting.ite
    | with_reducible apply State.iff_lasting | with_reducible apply State.modClk_lasting
    | with_reducible apply State.raise_lasting

theorem State.rxLeave_lasting {s0 : State} (r : Rx) {s : State} (h : Lasting s0 s) :
    Lasting s0 (State.rxLeave r s) := by
  unfold State.rxLeave
  repeat' first
    | with_reducible assumption | intro _ | with_reducible apply State.clkLose_lasting
    | with_reducible apply State.frmUnlocked_lasting | with_reducible apply State.lineDo_lasting

theorem State.blockStop_lasting {s0 : State} (p : Nat) {s : State} (h : Lasting s0 s) :
    Lasting s0 (State.blockStop p s) := by
  unfold State.blockStop
  repeat' first
    | with_reducible assumption | intro _ | with_reducible apply Lasting.ite
    | with_reducible apply State.ccryStop_lasting | with_reducible apply State.cxlStop_lasting
    | with_reducible apply State.drainRing_lasting | with_reducible apply State.enterDarkKeep_lasting
    | with_reducible apply State.frmStop_lasting | with_reducible apply State.halStop_lasting
    | with_reducible apply State.lineDo_lasting | with_reducible apply State.pmMarkAll_lasting
    | with_reducible apply State.ppsLow_lasting | with_reducible apply State.refreshPolicy_lasting
    | with_reducible apply State.refreshPorts_lasting | with_reducible apply State.rxLeave_lasting
    | with_reducible apply State.rxStopFigures_lasting | with_reducible apply State.showTier_lasting
    | with_reducible apply State.suppressWaiting_lasting | with_reducible apply State.timeStop_lasting
    | with_reducible apply Lasting.foldl | split

theorem State.linkRetrained_lasting {s0 : State} (l : Nat) {s : State} (h : Lasting s0 s) :
    Lasting s0 (State.linkRetrained l s) := by
  unfold State.linkRetrained
  repeat' first
    | with_reducible exact h | with_reducible apply State.count_lasting
    | with_reducible apply State.grantCredits_lasting | with_reducible apply State.raise_lasting
    | with_reducible apply State.setFld_lasting

theorem State.blockDrop_lasting {s0 : State} (p : Nat) {s : State} (h : Lasting s0 s) :
    Lasting s0 (State.blockDrop p s) := by
  unfold State.blockDrop
  repeat' first
    | with_reducible assumption | intro _ | with_reducible apply Lasting.ite
    | with_reducible apply State.abortJob_lasting | with_reducible apply State.clipTokens_lasting
    | with_reducible apply State.dropClassifier_lasting | with_reducible apply State.dropDual_lasting
    | with_reducible apply State.dropHands_lasting | with_reducible apply State.dropStore_lasting
    | with_reducible apply State.dropWaiting_lasting | with_reducible apply State.flashStop_lasting
    | with_reducible apply State.holdHalf_lasting | with_reducible apply State.iff_lasting
    | with_reducible apply State.linkRetrained_lasting | with_reducible apply State.loseRecords_lasting
    | with_reducible apply State.pcieDown_lasting | with_reducible apply State.setFld_lasting
    | with_reducible apply Lasting.foldl | split

theorem State.releaseUnits_lasting {s0 : State} (p : Nat) {s : State} (h : Lasting s0 s) :
    Lasting s0 (State.releaseUnits p s) := by
  unfold State.releaseUnits
  repeat' first
    | with_reducible assumption | exact fun _ => rfl | intro _ | with_reducible apply Lasting.ite
    | with_reducible apply State.freeLast_lasting | with_reducible apply State.modRel_lasting

theorem State.blockClear_lasting {s0 : State} (p : Nat) {s : State} (h : Lasting s0 s) :
    Lasting s0 (State.blockClear p s) := by
  unfold State.blockClear
  repeat' first
    | with_reducible assumption | intro _ | with_reducible apply Lasting.ite
    | with_reducible apply State.applyMaxIter_lasting | with_reducible apply State.clkJudge_lasting
    | with_reducible apply State.dropSlot_lasting | with_reducible apply State.flushMerge_lasting
    | with_reducible apply State.iff_lasting | with_reducible apply State.judgePromotion_lasting
    | with_reducible apply State.keysLost_lasting | with_reducible apply State.modCcry_lasting
    | with_reducible apply State.modCls_lasting | with_reducible apply State.modCore_lasting
    | with_reducible apply State.modFlow_lasting | with_reducible apply State.modHals_lasting
    | with_reducible apply State.modLehr_lasting | with_reducible apply State.modPol_lasting
    | with_reducible apply State.modSto_lasting | with_reducible apply State.modTime_lasting
    | with_reducible apply State.modTsk_lasting | with_reducible apply State.modTxs_lasting
    | with_reducible apply State.modUsch_lasting | with_reducible apply State.modXtr_lasting
    | with_reducible apply State.noteHalLevel_lasting | with_reducible apply State.noteLaunch_lasting
    | with_reducible apply State.putTw_lasting | with_reducible apply State.quarAgain_lasting
    | with_reducible apply State.refreshPolicy_lasting | with_reducible apply State.refreshPorts_lasting
    | with_reducible apply State.setFld_lasting | with_reducible apply State.setHalf_lasting
    | with_reducible apply State.setPunty_lasting | with_reducible apply State.setQueueBytes_lasting
    | with_reducible apply State.setSelector_lasting | with_reducible apply State.setTf_lasting
    | with_reducible apply State.showJobs_lasting | with_reducible apply State.showKeystore_lasting
    | with_reducible apply State.showQueue_lasting | with_reducible apply State.showTick_lasting
    | with_reducible apply State.showTier_lasting | with_reducible apply State.timeClearHost_lasting
    | with_reducible apply State.wakeDomain_lasting | with_reducible apply Lasting.foldl | split

theorem State.blockReset_lasting {s0 : State} (p : Nat) {s : State} (h : Lasting s0 s) :
    Lasting s0 (State.blockReset p s) := by
  unfold State.blockReset
  repeat' first
    | with_reducible assumption | intro _ | with_reducible apply Lasting.ite
    | with_reducible apply State.blockClear_lasting | with_reducible apply State.blockDrop_lasting
    | with_reducible apply State.blockStop_lasting | with_reducible apply State.cxlStop_lasting
    | with_reducible apply State.iff_lasting | with_reducible apply State.modRf_lasting
    | with_reducible apply State.modWins_lasting | with_reducible apply State.releaseUnits_lasting
    | with_reducible apply State.resetPageRegs_lasting | with_reducible apply State.resetTable_lasting
    | with_reducible apply State.resetTables_lasting | with_reducible apply State.setFld_lasting
    | with_reducible apply Lasting.foldl | split

theorem State.blockStart_lasting {s0 : State} (p : Nat) {s : State} (h : Lasting s0 s) :
    Lasting s0 (State.blockStart p s) := by
  unfold State.blockStart
  repeat' first
    | with_reducible assumption | intro _ | with_reducible apply Lasting.ite
    | with_reducible apply State.cxlStart_lasting | with_reducible apply State.dispatchJobs_lasting
    | with_reducible apply State.firmwareBack_lasting | with_reducible apply State.frmStart_lasting
    | with_reducible apply State.genStart_lasting | with_reducible apply State.halJudge_lasting
    | with_reducible apply State.iff_lasting | with_reducible apply State.lineDo_lasting
    | with_reducible apply State.pmMarkAll_lasting | with_reducible apply State.refreshPolicy_lasting
    | with_reducible apply State.refreshPorts_lasting | with_reducible apply State.ringRun_lasting
    | with_reducible apply State.rxBegin_lasting | with_reducible apply State.showTier_lasting
    | with_reducible apply State.timeStart_lasting | with_reducible apply State.txBegin_lasting
    | with_reducible apply Lasting.foldl | split

theorem State.policyWrite_lasting {s0 : State} (hi : Bool) (acc : Access) {s : State} (h : Lasting s0 s) :
    Lasting s0 (State.policyWrite hi acc s) := by
  unfold State.policyWrite
  repeat' first
    | with_reducible assumption | intro _ | with_reducible apply Lasting.ite
    | with_reducible apply State.guarded_lasting | with_reducible apply State.iff_lasting
    | with_reducible apply State.raise_lasting | with_reducible apply State.wakeDomain_lasting
    | with_reducible apply State.writePlain_lasting | with_reducible apply Lasting.foldl | split

theorem State.clkForceCmd_lasting {s0 : State} (code : Nat) {s : State} (h : Lasting s0 s) :
    Lasting s0 (State.clkForceCmd code s) := by
  unfold State.clkForceCmd
  repeat' first
    | with_reducible assumption | intro _ | with_reducible apply Lasting.ite
    | with_reducible apply State.clkJudge_lasting | with_reducible apply State.count_lasting
    | with_reducible apply State.raise_lasting | with_reducible apply State.setFld_lasting

theorem State.showSensors_lasting {s0 : State} (r : LehrReadings) {s : State} (h : Lasting s0 s) :
    Lasting s0 (State.showSensors r s) := by
  unfold State.showSensors
  repeat' first
    | with_reducible assumption | intro _ | with_reducible apply Lasting.ite
    | with_reducible apply State.putEntry_lasting | with_reducible apply Lasting.foldl | split

theorem State.planDone_lasting {s0 : State} (r : LehrReadings) {s : State} (h : Lasting s0 s) :
    Lasting s0 (State.planDone r s) := by
  unfold State.planDone
  repeat' first
    | with_reducible exact h | with_reducible apply State.count_lasting | with_reducible apply State.modLehr_lasting
    | with_reducible apply State.putEntry_lasting | with_reducible apply State.raise_lasting
    | with_reducible apply State.setFld_lasting

theorem State.planIter_lasting {s0 : State} (x : Rx) {s : State} (h : Lasting s0 s) :
    Lasting s0 (State.planIter x s) := by
  unfold State.planIter
  repeat' first
    | with_reducible assumption | intro _ | with_reducible apply Lasting.ite
    | with_reducible apply State.setFld_lasting

theorem State.planTrim_lasting {s0 : State} (t : Tree) (monitor : Int) {s : State} (h : Lasting s0 s) :
    Lasting s0 (State.planTrim t monitor s) := by
  unfold State.planTrim
  repeat' first
    | with_reducible assumption | intro _ | with_reducible apply Lasting.ite
    | with_reducible apply State.modTxs_lasting | with_reducible apply State.setTrim_lasting

theorem State.planDerate_lasting {s0 : State} (r : LehrReadings) {s : State} (h : Lasting s0 s) :
    Lasting s0 (State.planDerate r s) := by
  unfold State.planDerate
  repeat' first
    | with_reducible assumption | intro _ | with_reducible apply Lasting.ite
    | with_reducible apply State.count_lasting | with_reducible apply State.modLehr_lasting
    | with_reducible apply State.raise_lasting | with_reducible apply State.setFld_lasting
    | with_reducible apply Lasting.foldl | split | with_reducible apply Lasting.id | dsimp only

theorem State.planLow_lasting {s0 : State} (r : LehrReadings) (rail : Nat) {s : State} (h : Lasting s0 s) :
    Lasting s0 (State.planLow r rail s) := by
  unfold State.planLow
  repeat' first
    | with_reducible assumption | intro _ | with_reducible apply Lasting.ite
    | with_reducible apply State.count_lasting | with_reducible apply State.raise_lasting

theorem State.planSettings_lasting {s0 : State} (r : LehrReadings) {s : State} (h : Lasting s0 s) :
    Lasting s0 (State.planSettings r s) := by
  unfold State.planSettings
  repeat' first
    | with_reducible exact h | with_reducible apply State.modLehr_lasting
    | with_reducible apply State.planDerate_lasting | with_reducible apply State.planIter_lasting
    | with_reducible apply State.planLow_lasting | with_reducible apply State.planTrim_lasting

theorem State.planGoOn_lasting {s0 : State} {s : State} (h : Lasting s0 s) :
    Lasting s0 (State.planGoOn s) := by
  unfold State.planGoOn
  repeat' first
    | with_reducible assumption | intro _ | with_reducible apply Lasting.ite | with_reducible apply State.emit_lasting
    | with_reducible apply State.modLehr_lasting | with_reducible apply State.planDone_lasting
    | with_reducible apply State.planSettings_lasting | with_reducible apply Lasting.foldl | split

theorem State.replanStart_lasting {s0 : State} (r : LehrReadings) {s : State} (h : Lasting s0 s) :
    Lasting s0 (State.replanStart r s) := by
  unfold State.replanStart
  repeat' first
    | with_reducible exact h | with_reducible apply State.modLehr_lasting
    | with_reducible apply State.planGoOn_lasting | with_reducible apply State.setFld_lasting
    | with_reducible apply State.showSensors_lasting

theorem State.replan_lasting {s0 : State} (r : LehrReadings) {s : State} (h : Lasting s0 s) :
    Lasting s0 (State.replan r s) := by
  unfold State.replan
  repeat' first
    | with_reducible assumption | intro _ | with_reducible apply Lasting.ite
    | with_reducible apply State.count_lasting | with_reducible apply State.raise_lasting
    | with_reducible apply State.replanStart_lasting | with_reducible apply State.setFld_lasting

theorem State.ofeGo_lasting {s0 : State} (p : Nat) (acc : Access) {s : State} (h : Lasting s0 s) :
    Lasting s0 (State.ofeGo p acc s) := by
  unfold State.ofeGo
  repeat' first
    | with_reducible assumption | intro _ | with_reducible apply Lasting.ite
    | with_reducible apply State.ignored_lasting | with_reducible apply State.setFld_lasting
    | with_reducible apply State.writePlain_lasting

theorem State.forceRelease_lasting {s0 : State} (t : Tree) {s : State} (h : Lasting s0 s) :
    Lasting s0 (State.forceRelease t s) := by
  unfold State.forceRelease
  repeat' first
    | with_reducible assumption | intro _ | with_reducible apply Lasting.ite
    | with_reducible apply State.ignored_lasting | with_reducible apply State.modTxs_lasting
    | with_reducible apply State.refreshPolicy_lasting | with_reducible apply State.showForce_lasting

theorem State.laneInject_lasting {s0 : State} (l : Nat) {s : State} (h : Lasting s0 s) :
    Lasting s0 (State.laneInject l s) := by
  unfold State.laneInject
  repeat' first
    | with_reducible assumption | intro _ | with_reducible apply State.emitError_lasting
    | with_reducible apply State.iff_lasting

theorem State.snapArm_lasting {s0 : State} {s : State} (h : Lasting s0 s) :
    Lasting s0 (State.snapArm s) := by
  unfold State.snapArm
  repeat' first
    | with_reducible assumption | intro _ | with_reducible apply Lasting.ite
    | with_reducible apply State.count_lasting | with_reducible apply State.modSnap_lasting
    | with_reducible apply State.setFld_lasting | with_reducible apply State.snapRefuse_lasting

theorem State.snapCancel_lasting {s0 : State} {s : State} (h : Lasting s0 s) :
    Lasting s0 (State.snapCancel s) := by
  unfold State.snapCancel
  repeat' first
    | with_reducible assumption | intro _ | with_reducible apply Lasting.ite
    | with_reducible apply State.count_lasting | with_reducible apply State.setFld_lasting
    | with_reducible apply Lasting.foldl | split

theorem State.snapArmNow_lasting {s0 : State} {s : State} (h : Lasting s0 s) :
    Lasting s0 (State.snapArmNow s) := by
  unfold State.snapArmNow
  repeat' first
    | with_reducible assumption | intro _ | with_reducible apply Lasting.ite
    | with_reducible apply State.count_lasting | with_reducible apply State.setFld_lasting
    | with_reducible apply State.snapCapture_lasting | with_reducible apply State.snapRefuse_lasting

theorem State.snapCtrl_lasting {s0 : State} (v : Word) {s : State} (h : Lasting s0 s) :
    Lasting s0 (State.snapCtrl v s) := by
  unfold State.snapCtrl
  repeat' first
    | with_reducible assumption | intro _ | with_reducible apply Lasting.ite
    | with_reducible apply State.ignored_lasting | with_reducible apply State.snapArm_lasting
    | with_reducible apply State.snapArmNow_lasting | with_reducible apply State.snapCancel_lasting
    | with_reducible apply Lasting.foldl | split

theorem State.showPins_lasting {s0 : State} {s : State} (h : Lasting s0 s) :
    Lasting s0 (State.showPins s) := by
  unfold State.showPins
  repeat' first | with_reducible exact h | with_reducible apply State.setFld_lasting

theorem State.pinRelease_lasting {s0 : State} (i : Nat) (still : Bool) {s : State} (h : Lasting s0 s) :
    Lasting s0 (State.pinRelease i still s) := by
  unfold State.pinRelease
  repeat' first
    | with_reducible assumption | intro _ | with_reducible apply Lasting.ite
    | with_reducible apply State.count_lasting | with_reducible apply State.raise_lasting
    | with_reducible apply State.setTf_lasting | with_reducible apply State.showPins_lasting

theorem State.avsDone_lasting {s0 : State} (rail : Nat) (ack : Bool) {s : State} (h : Lasting s0 s) :
    Lasting s0 (State.avsDone rail ack s) := by
  unfold State.avsDone
  repeat' first
    | with_reducible assumption | intro _ | with_reducible apply Lasting.ite
    | with_reducible apply State.count_lasting | with_reducible apply State.emit_lasting
    | with_reducible apply State.modLehr_lasting | with_reducible apply State.planDone_lasting
    | with_reducible apply State.planGoOn_lasting | with_reducible apply State.raise_lasting
    | with_reducible apply State.setFld_lasting | with_reducible apply Lasting.foldl | split

theorem State.burstBegin_lasting {s0 : State} (t : Tree) (i : Nat) {s : State} (h : Lasting s0 s) :
    Lasting s0 (State.burstBegin t i s) := by
  unfold State.burstBegin
  repeat' first
    | with_reducible exact h | with_reducible apply State.applyLaunch_lasting
    | with_reducible apply State.driveGate_lasting | with_reducible apply State.drivePrep_lasting
    | with_reducible apply State.halCutNow_lasting | with_reducible apply State.modTxs_lasting
    | with_reducible apply State.noticeBurst_lasting | with_reducible apply State.setTf_lasting

theorem State.clearCounters_lasting {s0 : State} {s : State} (h : Lasting s0 s) :
    Lasting s0 (State.clearCounters s) := by
  unfold State.clearCounters
  repeat' first
    | with_reducible exact h | with_reducible apply State.modCnt_lasting | with_reducible apply State.modSto_lasting

theorem State.settleAll_lasting {s0 : State} {s : State} (h : Lasting s0 s) :
    Lasting s0 (State.settleAll s) := by
  unfold State.settleAll
  repeat' first
    | with_reducible assumption | intro _ | with_reducible apply Lasting.ite
    | with_reducible apply State.settleRegion_lasting | with_reducible apply Lasting.foldl | split

theorem State.regionLose_lasting {s0 : State} (r : Nat) {s : State} (h : Lasting s0 s) :
    Lasting s0 (State.regionLose r s) := by
  unfold State.regionLose
  repeat' first
    | with_reducible exact h | with_reducible apply State.regionAfter_lasting
    | with_reducible apply State.regionWipe_lasting

theorem State.d2dLast_lasting {s0 : State} (l : Nat) (event : Nat) {s : State} (h : Lasting s0 s) :
    Lasting s0 (State.d2dLast l event s) := by
  unfold State.d2dLast
  repeat' first | with_reducible exact h | with_reducible apply State.setFld_lasting

theorem State.domainGone_lasting {s0 : State} (d : Nat) {s : State} (h : Lasting s0 s) :
    Lasting s0 (State.domainGone d s) := by
  unfold State.domainGone
  repeat' first
    | with_reducible assumption | intro _ | with_reducible apply Lasting.ite
    | with_reducible apply State.clkLose_lasting | with_reducible apply State.refreshPorts_lasting

theorem State.domainsUp_lasting {s0 : State} {s : State} (h : Lasting s0 s) :
    Lasting s0 (State.domainsUp s) := by
  unfold State.domainsUp
  repeat' first
    | with_reducible assumption | intro _ | with_reducible apply Lasting.ite
    | with_reducible apply State.modKeep_lasting | with_reducible apply State.setDomState_lasting
    | with_reducible apply Lasting.foldl | split

theorem State.forceSafe_lasting {s0 : State} {s : State} (h : Lasting s0 s) :
    Lasting s0 (State.forceSafe s) := by
  unfold State.forceSafe
  repeat' first
    | with_reducible assumption | exact fun _ => rfl | intro _ | with_reducible apply Lasting.ite
    | with_reducible apply State.count_lasting | with_reducible apply State.modClk_lasting
    | with_reducible apply State.modTime_lasting | with_reducible apply State.raise_lasting

theorem State.edgeMissing_lasting {s0 : State} (which : Nat) {s : State} (h : Lasting s0 s) :
    Lasting s0 (State.edgeMissing which s) := by
  unfold State.edgeMissing
  repeat' first
    | with_reducible assumption | intro _ | with_reducible apply Lasting.ite
    | with_reducible apply State.clockForce_lasting | with_reducible apply State.enterDarkKeep_lasting
    | with_reducible apply State.forceSafe_lasting | with_reducible apply Lasting.foldl | split

theorem State.emptyKeepRam_lasting {s0 : State} {s : State} (h : Lasting s0 s) :
    Lasting s0 (State.emptyKeepRam s) := by
  unfold State.emptyKeepRam
  repeat' first
    | with_reducible exact h | with_reducible apply State.modKeep_lasting
    | with_reducible apply State.resetTable_lasting

theorem State.entryDone_lasting {s0 : State} (d : Nat) {s : State} (h : Lasting s0 s) :
    Lasting s0 (State.entryDone d s) := by
  unfold State.entryDone
  repeat' first
    | with_reducible assumption | intro _ | with_reducible apply Lasting.ite
    | with_reducible apply State.count_lasting | with_reducible apply State.domainGone_lasting
    | with_reducible apply State.domainOff_lasting | with_reducible apply State.domainRetain_lasting
    | with_reducible apply State.iff_lasting | with_reducible apply State.modKeep_lasting
    | with_reducible apply State.raiseMs_lasting | with_reducible apply State.settleRegion_lasting

theorem State.flitFail_lasting {s0 : State} (l : Nat) (d : Nat) {s : State} (h : Lasting s0 s) :
    Lasting s0 (State.flitFail l d s) := by
  unfold State.flitFail
  repeat' first
    | with_reducible assumption | intro _ | with_reducible apply Lasting.ite
    | with_reducible apply State.count_lasting | with_reducible apply State.d2dLast_lasting
    | with_reducible apply State.modLink_lasting | with_reducible apply State.raiseMs_lasting

theorem State.moveCredits_lasting {s0 : State} (e : Nat) (a : Nat) (b : Nat) (n : Nat) {s : State} (h : Lasting s0
    s) :
       Lasting s0 (State.moveCredits e a b n s) := by
  unfold State.moveCredits
  repeat' first | with_reducible exact h | with_reducible apply State.putTw_lasting

theorem State.flitTake_lasting {s0 : State} (l : Nat) (d : Nat) (bs : Bytes) {s : State} (h : Lasting s0 s) :
    Lasting s0 (State.flitTake l d bs s) := by
  unfold State.flitTake
  repeat' first
    | with_reducible exact h | with_reducible apply State.modLink_lasting
    | with_reducible apply State.moveCredits_lasting

theorem State.flitReceive_lasting {s0 : State} (l : Nat) (d : Nat) (bs : Bytes) {s : State} (h : Lasting s0 s) :
    Lasting s0 (State.flitReceive l d bs s) := by
  unfold State.flitReceive
  repeat' first
    | with_reducible assumption | intro _ | with_reducible apply Lasting.ite
    | with_reducible apply State.count_lasting | with_reducible apply State.flitFail_lasting
    | with_reducible apply State.flitTake_lasting | with_reducible apply State.iff_lasting

theorem State.holdRegions_lasting {s0 : State} {s : State} (h : Lasting s0 s) :
    Lasting s0 (State.holdRegions s) := by
  unfold State.holdRegions
  repeat' first
    | with_reducible assumption | intro _ | with_reducible apply Lasting.ite
    | with_reducible apply State.clearCounters_lasting | with_reducible apply State.clockForce_lasting
    | with_reducible apply State.domainsUp_lasting | with_reducible apply State.forceSafe_lasting
    | with_reducible apply State.modSto_lasting | with_reducible apply State.regionLose_lasting
    | with_reducible apply State.settleAll_lasting | with_reducible apply Lasting.foldl | split

theorem State.idleExpire_lasting {s0 : State} (d : Nat) (refusal : Option (Nat × Nat)) {s : State} (h : Lasting s0
    s) :
       Lasting s0 (State.idleExpire d refusal s) := by
  unfold State.idleExpire
  repeat' first
    | with_reducible assumption | intro _ | with_reducible apply Lasting.ite
    | with_reducible apply State.modKeep_lasting | with_reducible apply State.refuseEntry_lasting
    | with_reducible apply State.setDomState_lasting | with_reducible apply Lasting.foldl | split

theorem State.tenantStop_lasting {s0 : State} (t : Tree) (n : Nat) {s : State} (h : Lasting s0 s) :
    Lasting s0 (State.tenantStop t n s) := by
  unfold State.tenantStop
  repeat' first
    | with_reducible assumption | intro _ | with_reducible apply Lasting.ite | with_reducible apply State.iff_lasting
    | with_reducible apply State.releaseList_lasting | with_reducible apply State.releaseShared_lasting
    | with_reducible apply State.setFld_lasting | with_reducible apply State.showQueue_lasting
    | with_reducible apply Lasting.foldl | split

theorem State.unitStop_lasting {s0 : State} (p : Nat) (u : Nat) {s : State} (h : Lasting s0 s) :
    Lasting s0 (State.unitStop p u s) := by
  unfold State.unitStop
  repeat' first
    | with_reducible assumption | intro _ | with_reducible apply Lasting.ite
    | with_reducible apply State.blockDrop_lasting | with_reducible apply State.blockStop_lasting
    | with_reducible apply State.dropUp_lasting | with_reducible apply State.flushQueues_lasting
    | with_reducible apply State.iff_lasting | with_reducible apply State.portFlush_lasting
    | with_reducible apply State.raise_lasting | with_reducible apply State.refreshPorts_lasting
    | with_reducible apply State.setFld_lasting | with_reducible apply State.setTf_lasting
    | with_reducible apply State.tenantStop_lasting | with_reducible apply Lasting.foldl | split

theorem State.unitContain_lasting {s0 : State} (p : Nat) (u : Nat) {s : State} (h : Lasting s0 s) :
    Lasting s0 (State.unitContain p u s) := by
  unfold State.unitContain
  repeat' first
    | with_reducible assumption | intro _ | with_reducible apply Lasting.ite
    | with_reducible apply State.containCore_lasting | with_reducible apply State.noteContain_lasting
    | with_reducible apply State.unitStop_lasting

theorem State.koscTrim_lasting {s0 : State} (count : Nat) {s : State} (h : Lasting s0 s) :
    Lasting s0 (State.koscTrim count s) := by
  unfold State.koscTrim
  repeat' first
    | with_reducible assumption | exact fun _ => rfl | intro _ | with_reducible apply Lasting.ite
    | with_reducible apply State.count_lasting | with_reducible apply State.iff_lasting
    | with_reducible apply State.modClk_lasting | with_reducible apply State.raiseMs_lasting
    | with_reducible apply State.setFld_lasting | with_reducible apply State.setSFld_lasting

theorem State.showRails_lasting {s0 : State} (below : Nat → Bool) (bit : Nat) {s : State} (h : Lasting s0 s) :
    Lasting s0 (State.showRails below bit s) := by
  unfold State.showRails
  repeat' first
    | with_reducible assumption | intro _ | with_reducible apply Lasting.ite
    | with_reducible apply State.setTf_lasting | with_reducible apply Lasting.foldl | split

theorem State.ofeInt_lasting {s0 : State} (o : Ofe) (on : Bool) {s : State} (h : Lasting s0 s) :
    Lasting s0 (State.ofeInt o on s) := by
  unfold State.ofeInt
  repeat' first
    | with_reducible assumption | intro _ | with_reducible apply State.iff_lasting
    | with_reducible apply State.raise_lasting | with_reducible apply State.setFld_lasting

theorem State.rxOfe_lasting {s0 : State} (r : Rx) {s : State} (h : Lasting s0 s) :
    Lasting s0 (State.rxOfe r s) := by
  unfold State.rxOfe
  repeat' first
    | with_reducible assumption | intro _ | with_reducible apply Lasting.ite
    | with_reducible apply State.clkLose_lasting | with_reducible apply State.frmUnlocked_lasting
    | with_reducible apply State.iff_lasting | with_reducible apply State.lineDo_lasting
    | with_reducible apply State.raise_lasting | with_reducible apply State.rxBegin_lasting
    | with_reducible apply State.rxStopFigures_lasting

theorem State.txOfe_lasting {s0 : State} (t : Tree) {s : State} (h : Lasting s0 s) :
    Lasting s0 (State.txOfe t s) := by
  unfold State.txOfe
  repeat' first | with_reducible exact h | with_reducible apply State.txBegin_lasting

theorem State.ofePresent_lasting {s0 : State} (o : Ofe) (present : Bool) {s : State} (h : Lasting s0 s) :
    Lasting s0 (State.ofePresent o present s) := by
  unfold State.ofePresent
  repeat' first
    | with_reducible assumption | intro _ | with_reducible apply Lasting.ite
    | with_reducible apply State.rxOfe_lasting | with_reducible apply State.setFld_lasting
    | with_reducible apply State.txOfe_lasting | with_reducible apply Lasting.foldl | split

theorem State.pinShort_lasting {s0 : State} (i : Nat) {s : State} (h : Lasting s0 s) :
    Lasting s0 (State.pinShort i s) := by
  unfold State.pinShort
  repeat' first
    | with_reducible assumption | intro _ | with_reducible apply Lasting.ite
    | with_reducible apply State.count_lasting | with_reducible apply State.iff_lasting
    | with_reducible apply State.raise_lasting | with_reducible apply State.setTf_lasting
    | with_reducible apply State.showPins_lasting

theorem State.replanDaily_lasting {s0 : State} (r : LehrReadings) {s : State} (h : Lasting s0 s) :
    Lasting s0 (State.replanDaily r s) := by
  unfold State.replanDaily
  repeat' first
    | with_reducible assumption | intro _ | with_reducible apply Lasting.ite
    | with_reducible apply State.modLehr_lasting | with_reducible apply State.replan_lasting

theorem State.replanDeferred_lasting {s0 : State} (r : LehrReadings) {s : State} (h : Lasting s0 s) :
    Lasting s0 (State.replanDeferred r s) := by
  unfold State.replanDeferred
  repeat' first
    | with_reducible assumption | intro _ | with_reducible apply Lasting.ite
    | with_reducible apply State.replanStart_lasting | with_reducible apply State.setFld_lasting

theorem State.restoreDone_lasting {s0 : State} (d : Nat) {s : State} (h : Lasting s0 s) :
    Lasting s0 (State.restoreDone d s) := by
  unfold State.restoreDone
  repeat' first
    | with_reducible assumption | intro _ | with_reducible apply Lasting.ite
    | with_reducible apply State.domainRestored_lasting | with_reducible apply State.iff_lasting
    | with_reducible apply State.refreshPorts_lasting

theorem State.supplyClear_lasting {s0 : State} {s : State} (h : Lasting s0 s) :
    Lasting s0 (State.supplyClear s) := by
  unfold State.supplyClear
  repeat' first
    | with_reducible assumption | intro _ | with_reducible apply Lasting.ite
    | with_reducible apply State.setFld_lasting | with_reducible apply State.setTf_lasting
    | with_reducible apply Lasting.foldl | split

theorem State.supplyWarning_lasting {s0 : State} (rails : Nat) {s : State} (h : Lasting s0 s) :
    Lasting s0 (State.supplyWarning rails s) := by
  unfold State.supplyWarning
  repeat' first
    | with_reducible assumption | intro _ | with_reducible apply Lasting.ite
    | with_reducible apply State.count_lasting | with_reducible apply State.createNotice_lasting
    | with_reducible apply State.puntyAbort_lasting | with_reducible apply State.raise_lasting
    | with_reducible apply State.raiseMs_lasting | with_reducible apply State.setFld_lasting
    | with_reducible apply State.showRails_lasting | with_reducible apply State.wakeLatch_lasting

theorem State.vkeepPowerUp_lasting {s0 : State} (ramOk : Bool) {s : State} (h : Lasting s0 s) :
    Lasting s0 (State.vkeepPowerUp ramOk s) := by
  unfold State.vkeepPowerUp
  repeat' first
    | with_reducible assumption | intro _ | with_reducible apply Lasting.ite
    | with_reducible apply State.emptyKeepRam_lasting | with_reducible apply State.kstPowerUp_lasting
    | with_reducible apply State.quarAgain_lasting | with_reducible apply State.raise_lasting
    | with_reducible apply State.setFld_lasting

theorem State.vkeepWarn_lasting {s0 : State} {s : State} (h : Lasting s0 s) :
    Lasting s0 (State.vkeepWarn s) := by
  unfold State.vkeepWarn
  repeat' first
    | with_reducible assumption | intro _ | with_reducible apply Lasting.ite
    | with_reducible apply State.count_lasting | with_reducible apply State.kstAbort_lasting
    | with_reducible apply State.puntyAbort_lasting | with_reducible apply State.raise_lasting
    | with_reducible apply State.routeEvent_lasting | with_reducible apply State.setFld_lasting
    | with_reducible apply State.setTf_lasting

theorem State.warmAccept_lasting {s0 : State} (t : Tree) {s : State} (h : Lasting s0 s) :
    Lasting s0 (State.warmAccept t s) := by
  unfold State.warmAccept
  repeat' first
    | with_reducible exact h | with_reducible apply State.count_lasting | with_reducible apply State.modActs_lasting
    | with_reducible apply State.raise_lasting | with_reducible apply State.setFld_lasting
    | with_reducible apply State.setMode_lasting | with_reducible apply State.tmcRequest_lasting

theorem State.warmRefuse_lasting {s0 : State} (t : Tree) (result : Nat) {s : State} (h : Lasting s0 s) :
    Lasting s0 (State.warmRefuse t result s) := by
  unfold State.warmRefuse
  repeat' first
    | with_reducible exact h | with_reducible apply State.count_lasting | with_reducible apply State.forget_lasting
    | with_reducible apply State.raise_lasting | with_reducible apply State.setFld_lasting

theorem State.warmCheck_lasting {s0 : State} (t : Tree) (r : Rx) (c : Nat) (elapsed : Nat) (serials : List (Option
    (Bytes × Bytes))) {s : State} (h : Lasting s0 s) :
       Lasting s0 (State.warmCheck t r c elapsed serials s) := by
  unfold State.warmCheck
  repeat' first
    | with_reducible assumption | intro _ | with_reducible apply Lasting.ite
    | with_reducible apply State.setSFld_lasting | with_reducible apply State.warmAccept_lasting
    | with_reducible apply State.warmRefuse_lasting

theorem execSnapArm_lasting {s0 : State} {s : State} (h : Lasting s0 s) :
    ∀ out, execSnapArm s = .next out → Lasting s0 out := by
  intro out e; cases e
  repeat' first
    | with_reducible exact h | with_reducible apply State.guarded_lasting | with_reducible apply State.snapArm_lasting

theorem execSnapCancel_lasting {s0 : State} {s : State} (h : Lasting s0 s) :
    ∀ out, execSnapCancel s = .next out → Lasting s0 out := by
  intro out e; cases e
  repeat' first
    | with_reducible exact h | with_reducible apply State.guarded_lasting
    | with_reducible apply State.snapCancel_lasting

theorem execSnapArmNow_lasting {s0 : State} {s : State} (h : Lasting s0 s) :
    ∀ out, execSnapArmNow s = .next out → Lasting s0 out := by
  intro out e; cases e
  repeat' first
    | with_reducible exact h | with_reducible apply State.guarded_lasting
    | with_reducible apply State.snapArmNow_lasting

theorem execSnapCtrlMulti_lasting {s0 : State} (v : Word) {s : State} (h : Lasting s0 s) :
    ∀ out, execSnapCtrlMulti v s = .next out → Lasting s0 out := by
  intro out e; cases e
  repeat' first
    | with_reducible assumption | intro _ | with_reducible apply Lasting.ite
    | with_reducible apply State.guarded_lasting | with_reducible apply State.ignored_lasting

theorem execSnapCapture_lasting {s0 : State} {s : State} (h : Lasting s0 s) :
    ∀ out, execSnapCapture s = .next out → Lasting s0 out := by
  intro out e; cases e
  repeat' first
    | with_reducible assumption | intro _ | with_reducible apply State.iff_lasting
    | with_reducible apply State.snapFire_lasting

theorem execSnapLateFire_lasting {s0 : State} {s : State} (h : Lasting s0 s) :
    ∀ out, execSnapLateFire s = .next out → Lasting s0 out := by
  intro out e; cases e
  repeat' first
    | with_reducible assumption | intro _ | with_reducible apply State.iff_lasting
    | with_reducible apply State.snapFire_lasting | with_reducible apply State.snapReach_lasting

theorem execSnapUnitMissing_lasting {s0 : State} (unit : Nat) {s : State} (h : Lasting s0 s) :
    ∀ out, execSnapUnitMissing unit s = .next out → Lasting s0 out := by
  intro out e; cases e
  repeat' first
    | with_reducible exact h | with_reducible apply State.iff_lasting | with_reducible apply State.snapMissing_lasting

theorem execSnapComplete_lasting {s0 : State} {s : State} (h : Lasting s0 s) :
    ∀ out, execSnapComplete s = .next out → Lasting s0 out := by
  intro out e; cases e
  repeat' first
    | with_reducible exact h | with_reducible apply State.iff_lasting
    | with_reducible apply State.snapComplete_lasting

theorem execRxEnable_lasting {s0 : State} (r : Rx) {s : State} (h : Lasting s0 s) :
    ∀ out, execRxEnable r s = .next out → Lasting s0 out := by
  intro out e; cases e
  repeat' first
    | with_reducible assumption | intro _ | with_reducible apply State.iff_lasting
    | with_reducible apply State.pageOn_lasting | with_reducible apply State.rxBegin_lasting

theorem execRxDisable_lasting {s0 : State} (r : Rx) {s : State} (h : Lasting s0 s) :
    ∀ out, execRxDisable r s = .next out → Lasting s0 out := by
  intro out e; cases e
  repeat' first
    | with_reducible assumption | intro _ | with_reducible apply State.pageOff_lasting
    | with_reducible apply State.rxLeave_lasting | with_reducible apply State.rxStopFigures_lasting

theorem execSigPresent_lasting {s0 : State} (r : Rx) {s : State} (h : Lasting s0 s) :
    ∀ out, execSigPresent r s = .next out → Lasting s0 out := by
  intro out e; cases e
  repeat' first
    | with_reducible assumption | intro _ | with_reducible apply State.iff_lasting
    | with_reducible apply State.modRxs_lasting | with_reducible apply State.raise_lasting
    | with_reducible apply State.setFld_lasting | with_reducible apply State.startAcq_lasting

theorem execSigLost_lasting {s0 : State} (r : Rx) {s : State} (h : Lasting s0 s) :
    ∀ out, execSigLost r s = .next out → Lasting s0 out := by
  intro out e; cases e
  repeat' first
    | with_reducible assumption | intro _ | with_reducible apply State.clearFom_lasting
    | with_reducible apply State.iff_lasting | with_reducible apply State.modRxs_lasting
    | with_reducible apply State.raise_lasting | with_reducible apply State.rxLeave_lasting
    | with_reducible apply State.setFld_lasting

theorem execAcqPhaseComplete_lasting {s0 : State} (r : Rx) (res : AcqResult) {s : State} (h : Lasting s0 s) :
    ∀ out, execAcqPhaseComplete r res s = .next out → Lasting s0 out := by
  intro out e; cases e
  repeat' first
    | with_reducible assumption | intro _ | with_reducible apply State.acqStore_lasting
    | with_reducible apply State.clearFom_lasting | with_reducible apply State.iff_lasting
    | with_reducible apply State.modRxs_lasting | with_reducible apply State.raise_lasting
    | with_reducible apply State.setFld_lasting

theorem execAcqTimeout_lasting {s0 : State} (r : Rx) {s : State} (h : Lasting s0 s) :
    ∀ out, execAcqTimeout r s = .next out → Lasting s0 out := by
  intro out e; cases e
  repeat' first
    | with_reducible assumption | intro _ | with_reducible apply State.count_lasting
    | with_reducible apply State.iff_lasting | with_reducible apply State.raise_lasting
    | with_reducible apply State.startAcq_lasting

theorem execLockLost_lasting {s0 : State} (r : Rx) {s : State} (h : Lasting s0 s) :
    ∀ out, execLockLost r s = .next out → Lasting s0 out := by
  intro out e; cases e
  repeat' first
    | with_reducible assumption | intro _ | with_reducible apply State.iff_lasting
    | with_reducible apply State.raise_lasting | with_reducible apply State.rxLeave_lasting
    | with_reducible apply State.startAcq_lasting

theorem execPhaseSlip_lasting {s0 : State} (r : Rx) {s : State} (h : Lasting s0 s) :
    ∀ out, execPhaseSlip r s = .next out → Lasting s0 out := by
  intro out e; cases e
  repeat' first
    | with_reducible assumption | intro _ | with_reducible apply State.count_lasting
    | with_reducible apply State.iff_lasting | with_reducible apply State.raise_lasting

theorem execCodewordDecode_lasting {s0 : State} (r : Rx) (cw : RxCodeword) {s : State} (h : Lasting s0 s) :
    ∀ out, execCodewordDecode r cw s = .next out → Lasting s0 out := by
  intro out e; cases e
  repeat' first
    | with_reducible assumption | intro _ | with_reducible apply Lasting.ite
    | with_reducible apply State.applyMaxIter_lasting | with_reducible apply State.count_lasting
    | with_reducible apply State.countBy_lasting | with_reducible apply State.iff_lasting
    | with_reducible apply State.modRxs_lasting | with_reducible apply State.noteCodeword_lasting
    | with_reducible apply State.raiseMs_lasting

theorem execFomWindowEnd_lasting {s0 : State} (r : Rx) (fom : Nat) {s : State} (h : Lasting s0 s) :
    ∀ out, execFomWindowEnd r fom s = .next out → Lasting s0 out := by
  intro out e; cases e
  repeat' first
    | with_reducible assumption | intro _ | with_reducible apply State.applyMaxIter_lasting
    | with_reducible apply State.fomWindow_lasting | with_reducible apply State.iff_lasting

theorem execRxLaneAdapt_lasting {s0 : State} (r : Rx) (lane : Nat) (skew : Bool) (value : Nat) {s : State} (h :
    Lasting s0 s) :
       ∀ out, execRxLaneAdapt r lane skew value s = .next out → Lasting s0 out := by
  intro out e; cases e
  repeat' first
    | with_reducible assumption | intro _ | with_reducible apply State.iff_lasting
    | with_reducible apply State.modRxs_lasting

theorem execTxDisable_lasting {s0 : State} (t : Tree) {s : State} (h : Lasting s0 s) :
    ∀ out, execTxDisable t s = .next out → Lasting s0 out := by
  intro out e; cases e
  repeat' first
    | with_reducible exact h | with_reducible apply State.pageOff_lasting
    | with_reducible apply State.refreshPolicy_lasting

theorem execTxPrepAssert_lasting {s0 : State} (t : Tree) {s : State} (h : Lasting s0 s) :
    ∀ out, execTxPrepAssert t s = .next out → Lasting s0 out := by
  intro out e; cases e
  repeat' first
    | with_reducible exact h | with_reducible apply State.drivePrep_lasting | with_reducible apply State.iff_lasting

theorem execTxGateAssert_lasting {s0 : State} (t : Tree) {s : State} (h : Lasting s0 s) :
    ∀ out, execTxGateAssert t s = .next out → Lasting s0 out := by
  intro out e; cases e
  repeat' first
    | with_reducible exact h | with_reducible apply State.driveGate_lasting | with_reducible apply State.iff_lasting

theorem execBurstStart_lasting {s0 : State} (t : Tree) {s : State} (h : Lasting s0 s) :
    ∀ out, execBurstStart t s = .next out → Lasting s0 out := by
  intro out e; cases e
  repeat' first
    | with_reducible assumption | intro _ | with_reducible apply Lasting.ite
    | with_reducible apply State.burstBegin_lasting | with_reducible apply Lasting.foldl | split

theorem execTxGateDeassert_lasting {s0 : State} (t : Tree) {s : State} (h : Lasting s0 s) :
    ∀ out, execTxGateDeassert t s = .next out → Lasting s0 out := by
  intro out e; cases e
  repeat' first
    | with_reducible exact h | with_reducible apply State.driveGate_lasting | with_reducible apply State.iff_lasting

theorem execBurstEnd_lasting {s0 : State} (t : Tree) {s : State} (h : Lasting s0 s) :
    ∀ out, execBurstEnd t s = .next out → Lasting s0 out := by
  intro out e; cases e
  repeat' first
    | with_reducible assumption | intro _ | with_reducible apply Lasting.ite
    | with_reducible apply State.betweenBursts_lasting | with_reducible apply State.count_lasting
    | with_reducible apply State.countBy_lasting | with_reducible apply State.emit_lasting
    | with_reducible apply State.modTxs_lasting | with_reducible apply State.pruneWindows_lasting
    | with_reducible apply State.removeGrant_lasting | with_reducible apply State.sendContent_lasting
    | with_reducible apply State.tmcSent_lasting | with_reducible apply Lasting.foldl | split

theorem execTxPrepDeassert_lasting {s0 : State} (t : Tree) {s : State} (h : Lasting s0 s) :
    ∀ out, execTxPrepDeassert t s = .next out → Lasting s0 out := by
  intro out e; cases e
  repeat' first
    | with_reducible exact h | with_reducible apply State.drivePrep_lasting | with_reducible apply State.iff_lasting

theorem execTxLaserPolicyWrite_lasting {s0 : State} (t : Tree) (acc : Access) {s : State} (h : Lasting s0 s) :
    ∀ out, execTxLaserPolicyWrite t acc s = .next out → Lasting s0 out := by
  intro out e; cases e
  repeat' first
    | with_reducible assumption | intro _ | with_reducible apply State.guarded_lasting
    | with_reducible apply State.refreshPolicy_lasting | with_reducible apply State.writePlain_lasting

theorem execTxClockMissing_lasting {s0 : State} (t : Tree) {s : State} (h : Lasting s0 s) :
    ∀ out, execTxClockMissing t s = .next out → Lasting s0 out := by
  intro out e; cases e
  repeat' first | with_reducible exact h | with_reducible apply State.clockForce_lasting

theorem execForceRelease_lasting {s0 : State} (t : Tree) {s : State} (h : Lasting s0 s) :
    ∀ out, execForceRelease t s = .next out → Lasting s0 out := by
  intro out e; cases e
  repeat' first
    | with_reducible exact h | with_reducible apply State.forceRelease_lasting
    | with_reducible apply State.guarded_lasting

theorem execRoguePowerPoll_lasting {s0 : State} (t : Tree) (dbm10 : Int) {s : State} (h : Lasting s0 s) :
    ∀ out, execRoguePowerPoll t dbm10 s = .next out → Lasting s0 out := by
  intro out e; cases e
  repeat' first
    | with_reducible assumption | intro _ | with_reducible apply Lasting.ite
    | with_reducible apply State.modTxs_lasting | with_reducible apply State.rogueEvent_lasting

theorem execRogueEvent_lasting {s0 : State} (t : Tree) (sign : RogueSign) {s : State} (h : Lasting s0 s) :
    ∀ out, execRogueEvent t sign s = .next out → Lasting s0 out := by
  intro out e; cases e
  repeat' first
    | with_reducible assumption | intro _ | with_reducible apply Lasting.ite
    | with_reducible apply State.rogueEvent_lasting | with_reducible apply State.setFld_lasting
    | with_reducible apply Lasting.foldl | split

theorem execOfeI2cGo_lasting {s0 : State} (o : Ofe) (v : Word) {s : State} (h : Lasting s0 s) :
    ∀ out, execOfeI2cGo o v s = .next out → Lasting s0 out := by
  intro out e; cases e
  repeat' first
    | with_reducible exact h | with_reducible apply State.guarded_lasting | with_reducible apply State.ofeGo_lasting

theorem execOfeI2cDone_lasting {s0 : State} (o : Ofe) (ack : Bool) (rdata : Nat) {s : State} (h : Lasting s0 s) :
    ∀ out, execOfeI2cDone o ack rdata s = .next out → Lasting s0 out := by
  intro out e; cases e
  repeat' first
    | with_reducible assumption | intro _ | with_reducible apply Lasting.ite | with_reducible apply State.iff_lasting
    | with_reducible apply State.raise_lasting | with_reducible apply State.setFld_lasting

theorem execOfeI2cTimeout_lasting {s0 : State} (o : Ofe) {s : State} (h : Lasting s0 s) :
    ∀ out, execOfeI2cTimeout o s = .next out → Lasting s0 out := by
  intro out e; cases e
  repeat' first
    | with_reducible assumption | intro _ | with_reducible apply State.iff_lasting
    | with_reducible apply State.raise_lasting | with_reducible apply State.setFld_lasting

theorem execOfeInt_lasting {s0 : State} (o : Ofe) (on : Bool) {s : State} (h : Lasting s0 s) :
    ∀ out, execOfeInt o on s = .next out → Lasting s0 out := by
  intro out e; cases e
  repeat' first
    | with_reducible assumption | intro _ | with_reducible apply State.iff_lasting
    | with_reducible apply State.ofeInt_lasting

theorem execOfePresentChange_lasting {s0 : State} (o : Ofe) (present : Bool) {s : State} (h : Lasting s0 s) :
    ∀ out, execOfePresentChange o present s = .next out → Lasting s0 out := by
  intro out e; cases e
  repeat' first
    | with_reducible assumption | intro _ | with_reducible apply Lasting.ite | with_reducible apply State.iff_lasting
    | with_reducible apply State.ofePresent_lasting | with_reducible apply Lasting.foldl | split

theorem execActDisable_lasting {s0 : State} (t : Tree) {s : State} (h : Lasting s0 s) :
    ∀ out, execActDisable t s = .next out → Lasting s0 out := by
  intro out e; cases e
  repeat' first
    | with_reducible exact h | with_reducible apply State.enterDarkKeep_lasting
    | with_reducible apply State.pageOff_lasting

theorem execListeningEntry_lasting {s0 : State} (t : Tree) {s : State} (h : Lasting s0 s) :
    ∀ out, execListeningEntry t s = .next out → Lasting s0 out := by
  intro out e; cases e
  repeat' first
    | with_reducible exact h | with_reducible apply State.iff_lasting | with_reducible apply State.setMode_lasting

theorem execActModeWrite_lasting {s0 : State} (t : Tree) (acc : Access) {s : State} (h : Lasting s0 s) :
    ∀ out, execActModeWrite t acc s = .next out → Lasting s0 out := by
  intro out e; cases e
  repeat' first
    | with_reducible assumption | intro _ | with_reducible apply Lasting.ite
    | with_reducible apply State.guarded_lasting | with_reducible apply State.hostMode_lasting
    | with_reducible apply Lasting.foldl | split

theorem execReleaseQuarantine_lasting {s0 : State} (t : Tree) {s : State} (h : Lasting s0 s) :
    ∀ out, execReleaseQuarantine t s = .next out → Lasting s0 out := by
  intro out e; cases e
  repeat' first
    | with_reducible exact h | with_reducible apply State.guarded_lasting
    | with_reducible apply State.releaseQuarantine_lasting

theorem execActDeactivateCmd_lasting {s0 : State} (t : Tree) {s : State} (h : Lasting s0 s) :
    ∀ out, execActDeactivateCmd t s = .next out → Lasting s0 out := by
  intro out e; cases e
  repeat' first
    | with_reducible exact h | with_reducible apply State.guarded_lasting
    | with_reducible apply State.hostDeactivate_lasting

theorem execHailTimeout_lasting {s0 : State} (t : Tree) {s : State} (h : Lasting s0 s) :
    ∀ out, execHailTimeout t s = .next out → Lasting s0 out := by
  intro out e; cases e
  repeat' first
    | with_reducible exact h | with_reducible apply State.iff_lasting | with_reducible apply State.setMode_lasting

theorem execRangeTimeout_lasting {s0 : State} (t : Tree) {s : State} (h : Lasting s0 s) :
    ∀ out, execRangeTimeout t s = .next out → Lasting s0 out := by
  intro out e; cases e
  repeat' first
    | with_reducible exact h | with_reducible apply State.iff_lasting | with_reducible apply State.setMode_lasting

theorem execWarmReturn_lasting {s0 : State} (t : Tree) (counter : Nat) (elapsedFrames : Nat) (serials : List (Option
    (Bytes × Bytes))) {s : State} (h : Lasting s0 s) :
       ∀ out, execWarmReturn t counter elapsedFrames serials s = .next out → Lasting s0 out := by
  intro out e; cases e
  repeat' first
    | with_reducible assumption | intro _ | with_reducible apply Lasting.ite | with_reducible apply State.iff_lasting
    | with_reducible apply State.warmCheck_lasting | with_reducible apply Lasting.foldl | split

theorem execWarmWindowExpire_lasting {s0 : State} (t : Tree) {s : State} (h : Lasting s0 s) :
    ∀ out, execWarmWindowExpire t s = .next out → Lasting s0 out := by
  intro out e; cases e
  repeat' first
    | with_reducible assumption | intro _ | with_reducible apply State.count_lasting
    | with_reducible apply State.forget_lasting | with_reducible apply State.iff_lasting
    | with_reducible apply State.setFld_lasting

theorem execEqdApply_lasting {s0 : State} (t : Tree) {s : State} (h : Lasting s0 s) :
    ∀ out, execEqdApply t s = .next out → Lasting s0 out := by
  intro out e; cases e
  repeat' first
    | with_reducible exact h | with_reducible apply State.applyEqd_lasting | with_reducible apply State.iff_lasting

theorem execMaxParkExpire_lasting {s0 : State} (t : Tree) {s : State} (h : Lasting s0 s) :
    ∀ out, execMaxParkExpire t s = .next out → Lasting s0 out := by
  intro out e; cases e
  repeat' first
    | with_reducible exact h | with_reducible apply State.iff_lasting | with_reducible apply State.setMode_lasting

theorem execGaspWaitExpire_lasting {s0 : State} (t : Tree) {s : State} (h : Lasting s0 s) :
    ∀ out, execGaspWaitExpire t s = .next out → Lasting s0 out := by
  intro out e; cases e
  repeat' first | with_reducible exact h | with_reducible apply State.gaspWait_lasting

theorem execNoticeRetry_lasting {s0 : State} (t : Tree) {s : State} (h : Lasting s0 s) :
    ∀ out, execNoticeRetry t s = .next out → Lasting s0 out := by
  intro out e; cases e
  repeat' first | with_reducible exact h | with_reducible apply State.noticeRetry_lasting

theorem execTmcResponseExpire_lasting {s0 : State} (t : Tree) (slot : Nat) {s : State} (h : Lasting s0 s) :
    ∀ out, execTmcResponseExpire t slot s = .next out → Lasting s0 out := by
  intro out e; cases e
  repeat' first
    | with_reducible assumption | intro _ | with_reducible apply State.count_lasting
    | with_reducible apply State.iff_lasting | with_reducible apply State.setTmcState_lasting

theorem execPortCfgWrite_lasting {s0 : State} (port : Nat) (acc : Access) {s : State} (h : Lasting s0 s) :
    ∀ out, execPortCfgWrite port acc s = .next out → Lasting s0 out := by
  intro out e; cases e
  repeat' first
    | with_reducible exact h | with_reducible apply State.guarded_lasting
    | with_reducible apply State.portConfig_lasting

theorem execAnFailed_lasting {s0 : State} (port : Nat) {s : State} (h : Lasting s0 s) :
    ∀ out, execAnFailed port s = .next out → Lasting s0 out := by
  intro out e; cases e
  repeat' first
    | with_reducible assumption | intro _ | with_reducible apply State.anBegin_lasting
    | with_reducible apply State.iff_lasting | with_reducible apply State.raise_lasting

theorem execCdrLock_lasting {s0 : State} (lane : Nat) {s : State} (h : Lasting s0 s) :
    ∀ out, execCdrLock lane s = .next out → Lasting s0 out := by
  intro out e; cases e
  repeat' first
    | with_reducible exact h | with_reducible apply State.iff_lasting | with_reducible apply State.setCdr_lasting

theorem execCdrLockLost_lasting {s0 : State} (lane : Nat) {s : State} (h : Lasting s0 s) :
    ∀ out, execCdrLockLost lane s = .next out → Lasting s0 out := by
  intro out e; cases e
  repeat' first
    | with_reducible assumption | intro _ | with_reducible apply State.iff_lasting
    | with_reducible apply State.raiseMs_lasting | with_reducible apply State.setCdr_lasting

theorem execLinkUp_lasting {s0 : State} (port : Nat) (up : LinkUpInfo) {s : State} (h : Lasting s0 s) :
    ∀ out, execLinkUp port up s = .next out → Lasting s0 out := by
  intro out e; cases e
  repeat' first | with_reducible exact h | with_reducible apply State.linkRise_lasting

theorem execLinkDown_lasting {s0 : State} (port : Nat) {s : State} (h : Lasting s0 s) :
    ∀ out, execLinkDown port s = .next out → Lasting s0 out := by
  intro out e; cases e
  repeat' first
    | with_reducible assumption | intro _ | with_reducible apply State.iff_lasting
    | with_reducible apply State.linkFall_lasting | with_reducible apply State.setFault_lasting

theorem execLaneFomWindow_lasting {s0 : State} (lane : Nat) (fom : Nat) {s : State} (h : Lasting s0 s) :
    ∀ out, execLaneFomWindow lane fom s = .next out → Lasting s0 out := by
  intro out e; cases e
  repeat' first
    | with_reducible exact h | with_reducible apply State.iff_lasting | with_reducible apply State.laneFom_lasting

theorem execLaneAdapt_lasting {s0 : State} (lane : Nat) {s : State} (h : Lasting s0 s) :
    ∀ out, execLaneAdapt lane s = .next out → Lasting s0 out := by
  intro out e; cases e
  repeat' first | with_reducible exact h | with_reducible apply State.laneAdapt_lasting

theorem execPrbsLock_lasting {s0 : State} (lane : Nat) (levels : List Int) {s : State} (h : Lasting s0 s) :
    ∀ out, execPrbsLock lane levels s = .next out → Lasting s0 out := by
  intro out e; cases e
  repeat' first | with_reducible assumption | intro _ | with_reducible apply State.prbsSee_lasting

theorem execPrbsLockLost_lasting {s0 : State} (lane : Nat) (levels : List Int) {s : State} (h : Lasting s0 s) :
    ∀ out, execPrbsLockLost lane levels s = .next out → Lasting s0 out := by
  intro out e; cases e
  repeat' first
    | with_reducible assumption | intro _ | with_reducible apply State.iff_lasting
    | with_reducible apply State.prbsCheck_lasting

theorem execPrbsInvert_lasting {s0 : State} (lane : Nat) {s : State} (h : Lasting s0 s) :
    ∀ out, execPrbsInvert lane s = .next out → Lasting s0 out := by
  intro out e; cases e
  repeat' first
    | with_reducible assumption | intro _ | with_reducible apply State.iff_lasting
    | with_reducible apply State.setTf_lasting

theorem execLaneInject_lasting {s0 : State} (lane : Nat) {s : State} (h : Lasting s0 s) :
    ∀ out, execLaneInject lane s = .next out → Lasting s0 out := by
  intro out e; cases e
  repeat' first
    | with_reducible exact h | with_reducible apply State.guarded_lasting
    | with_reducible apply State.laneInject_lasting

theorem execLaneInjectPeriodic_lasting {s0 : State} (lane : Nat) {s : State} (h : Lasting s0 s) :
    ∀ out, execLaneInjectPeriodic lane s = .next out → Lasting s0 out := by
  intro out e; cases e
  repeat' first
    | with_reducible assumption | intro _ | with_reducible apply State.emitError_lasting
    | with_reducible apply State.iff_lasting

theorem execLaneDisable_lasting {s0 : State} {s : State} (h : Lasting s0 s) :
    ∀ out, execLaneDisable s = .next out → Lasting s0 out := by
  intro out e; cases e
  repeat' first
    | with_reducible exact h | with_reducible apply State.pageOff_lasting
    | with_reducible apply State.refreshPorts_lasting

theorem execUniFrameReceive_lasting {s0 : State} (port : Nat) (bytes : Bytes) (fcsErr : Bool) (corrected : Nat)
    (uncorrectable : Nat) {s : State} (h : Lasting s0 s) :
       ∀ out, execUniFrameReceive port bytes fcsErr corrected uncorrectable s = .next out → Lasting s0 out := by
  intro out e; cases e
  repeat' first
    | with_reducible exact h | with_reducible apply State.iff_lasting | with_reducible apply State.uniReceive_lasting

theorem execPauseReceive_lasting {s0 : State} (port : Nat) (bytes : Bytes) {s : State} (h : Lasting s0 s) :
    ∀ out, execPauseReceive port bytes s = .next out → Lasting s0 out := by
  intro out e; cases e
  repeat' first
    | with_reducible assumption | intro _ | with_reducible apply Lasting.ite
    | with_reducible apply State.count_lasting | with_reducible apply State.macControl_lasting

theorem execPauseExpire_lasting {s0 : State} (port : Nat) (prio : Nat) {s : State} (h : Lasting s0 s) :
    ∀ out, execPauseExpire port prio s = .next out → Lasting s0 out := by
  intro out e; cases e
  repeat' first | with_reducible exact h | with_reducible apply State.pauseEnd_lasting

theorem execPfcRefresh_lasting {s0 : State} (port : Nat) (prio : Nat) {s : State} (h : Lasting s0 s) :
    ∀ out, execPfcRefresh port prio s = .next out → Lasting s0 out := by
  intro out e; cases e
  repeat' first | with_reducible exact h | with_reducible apply State.xoffAgain_lasting

theorem execLpiEnter_lasting {s0 : State} (port : Nat) {s : State} (h : Lasting s0 s) :
    ∀ out, execLpiEnter port s = .next out → Lasting s0 out := by
  intro out e; cases e
  repeat' first | with_reducible exact h | with_reducible apply State.lpiEnter_lasting

theorem execLpiExit_lasting {s0 : State} (port : Nat) {s : State} (h : Lasting s0 s) :
    ∀ out, execLpiExit port s = .next out → Lasting s0 out := by
  intro out e; cases e
  repeat' first | with_reducible exact h | with_reducible apply State.setPf_lasting

theorem execUniqDisable_lasting {s0 : State} (q : Nat) {s : State} (h : Lasting s0 s) :
    ∀ out, execUniqDisable q s = .next out → Lasting s0 out := by
  intro out e; cases e
  repeat' first
    | with_reducible exact h | with_reducible apply State.pageOff_lasting
    | with_reducible apply State.refreshPorts_lasting

theorem execRemoteFault_lasting {s0 : State} (port : Nat) (on : Bool) {s : State} (h : Lasting s0 s) :
    ∀ out, execRemoteFault port on s = .next out → Lasting s0 out := by
  intro out e; cases e
  repeat' first | with_reducible exact h | with_reducible apply State.setPf_lasting

theorem execLpiRx_lasting {s0 : State} (port : Nat) (on : Bool) {s : State} (h : Lasting s0 s) :
    ∀ out, execLpiRx port on s = .next out → Lasting s0 out := by
  intro out e; cases e
  repeat' first
    | with_reducible exact h | with_reducible apply State.count_lasting | with_reducible apply State.iff_lasting
    | with_reducible apply State.setPf_lasting

end Sys2Proof.Machine
end

