-- ==== Sys2Proof/Laws/LastingAccess.lean ====
section
/-! SUPPORT. What leaves what lasts (Laws/Lasting.lean): register and window accesses and their commands. -/

namespace Sys2Proof.Machine

theorem State.eachBit_lasting {s0 : State} (a1 : Word) {a2 : List (Nat × (State → State))} {s : State} (h : Lasting s0 s)
    (h2 : AllLasting s0 a2) : Lasting s0 (State.eachBit a1 a2 s) := by
  unfold State.eachBit
  induction a2 generalizing s with
  | nil => exact h
  | cons x l ih => exact ih (State.iff_lasting _ h h2.1) h2.2

theorem State.actWrite_lasting {s0 : State} (t : Tree) (off : Nat) (acc : Access) {s : State} (h : Lasting s0 s) :
    Lasting s0 (State.actWrite t off acc s) := by
  unfold State.actWrite
  repeat' first
    | with_reducible assumption | intro _ | with_reducible apply Lasting.ite
    | with_reducible apply State.eachBit_lasting | with_reducible apply State.hostDeactivate_lasting
    | with_reducible apply State.hostMode_lasting | with_reducible apply State.releaseQuarantine_lasting
    | with_reducible apply State.writePlain_lasting | with_reducible apply Lasting.foldl | split
    | with_reducible apply AllLasting.nil | with_reducible apply AllLasting.cons | with_reducible apply AllLasting.map
    | with_reducible apply Lasting.id | dsimp only

theorem State.softReset_lasting {s0 : State} (p : Nat) {s : State} (h : Lasting s0 s) :
    Lasting s0 (State.softReset p s) := by
  unfold State.softReset
  repeat' first
    | with_reducible exact h | with_reducible apply State.blockReset_lasting
    | with_reducible apply State.setFld_lasting

theorem State.ctrlWrite_lasting {s0 : State} (p : Nat) (acc : Access) {s : State} (h : Lasting s0 s) :
    Lasting s0 (State.ctrlWrite p acc s) := by
  unfold State.ctrlWrite
  repeat' first
    | with_reducible assumption | intro _ | with_reducible apply Lasting.ite
    | with_reducible apply State.blockStart_lasting | with_reducible apply State.blockStop_lasting
    | with_reducible apply State.setFld_lasting | with_reducible apply State.softReset_lasting
    | with_reducible apply Lasting.foldl | split

theorem State.cfgClear_lasting {s0 : State} (p : Nat) {s : State} (h : Lasting s0 s) :
    Lasting s0 (State.cfgClear p s) := by
  unfold State.cfgClear
  repeat' first | with_reducible exact h | with_reducible apply State.setFld_lasting

theorem State.pennantClear_lasting {s0 : State} (p : Nat) (v : Word) {s : State} (h : Lasting s0 s) :
    Lasting s0 (State.pennantClear p v s) := by
  unfold State.pennantClear
  repeat' first
    | with_reducible assumption | intro _ | with_reducible apply Lasting.ite
    | with_reducible apply State.setFld_lasting | with_reducible apply State.stale_lasting

theorem State.maskWrite_lasting {s0 : State} (p : Nat) (acc : Access) {s : State} (h : Lasting s0 s) :
    Lasting s0 (State.maskWrite p acc s) := by
  unfold State.maskWrite
  repeat' first
    | with_reducible exact h | with_reducible apply State.iff_lasting | with_reducible apply State.sendPennant_lasting
    | with_reducible apply State.writePlain_lasting

theorem State.tripleClear_lasting {s0 : State} (p : Nat) {s : State} (h : Lasting s0 s) :
    Lasting s0 (State.tripleClear p s) := by
  unfold State.tripleClear
  repeat' first | with_reducible exact h | with_reducible apply State.setFld_lasting

theorem State.darkClear_lasting {s0 : State} {s : State} (h : Lasting s0 s) :
    Lasting s0 (State.darkClear s) := by
  unfold State.darkClear
  repeat' first | with_reducible exact h | with_reducible apply State.setFld_lasting

theorem State.keepWrite_lasting {s0 : State} (off : Nat) (acc : Access) {s : State} (h : Lasting s0 s) :
    Lasting s0 (State.keepWrite off acc s) := by
  unfold State.keepWrite
  repeat' first
    | with_reducible assumption | intro _ | with_reducible apply Lasting.ite
    | with_reducible apply State.eachBit_lasting | with_reducible apply State.policyWrite_lasting
    | with_reducible apply State.wakeDomain_lasting | with_reducible apply State.writePlain_lasting
    | with_reducible apply Lasting.foldl | split | with_reducible apply AllLasting.nil
    | with_reducible apply AllLasting.cons | with_reducible apply AllLasting.map | with_reducible apply Lasting.id
    | dsimp only

theorem State.checkedWrite_lasting {s0 : State} (p : Nat) (off : Nat) (acc : Access) (b : Nat) (bad : Word → Bool)
    {s : State} (h : Lasting s0 s) :
       Lasting s0 (State.checkedWrite p off acc b bad s) := by
  unfold State.checkedWrite
  repeat' first
    | with_reducible exact h | with_reducible apply State.iff_lasting | with_reducible apply State.raise_lasting
    | with_reducible apply State.writePlain_lasting

theorem State.lehrWrite_lasting {s0 : State} (off : Nat) (acc : Access) {s : State} (h : Lasting s0 s) :
    Lasting s0 (State.lehrWrite off acc s) := by
  unfold State.lehrWrite
  repeat' first
    | with_reducible assumption | intro _ | with_reducible apply Lasting.ite
    | with_reducible apply State.checkedWrite_lasting | with_reducible apply State.eachBit_lasting
    | with_reducible apply State.modFreeIx_lasting | with_reducible apply State.replan_lasting
    | with_reducible apply State.writePlain_lasting | with_reducible apply Lasting.foldl | split
    | with_reducible apply AllLasting.nil | with_reducible apply AllLasting.cons | with_reducible apply AllLasting.map
    | exact Nat.le_add_right _ _ | with_reducible apply Lasting.id | dsimp only

theorem State.stageWrite_lasting {s0 : State} (p : Nat) (off : Nat) (acc : Access) {s : State} (h : Lasting s0 s) :
    Lasting s0 (State.stageWrite p off acc s) := by
  unfold State.stageWrite
  repeat' first
    | with_reducible assumption | intro _ | with_reducible apply Lasting.ite
    | with_reducible apply State.stageWord_lasting | with_reducible apply Lasting.foldl | split

theorem State.timeWrite_lasting {s0 : State} (off : Nat) (acc : Access) {s : State} (h : Lasting s0 s) :
    Lasting s0 (State.timeWrite off acc s) := by
  unfold State.timeWrite
  repeat' first
    | with_reducible assumption | intro _ | with_reducible apply Lasting.ite
    | with_reducible apply State.checkedWrite_lasting | with_reducible apply State.eachBit_lasting
    | with_reducible apply State.foutJudge_lasting | with_reducible apply State.iff_lasting
    | with_reducible apply State.launchJudge_lasting | with_reducible apply State.ppsLow_lasting
    | with_reducible apply State.ppsMark_lasting | with_reducible apply State.stageWrite_lasting
    | with_reducible apply State.timeClearHost_lasting | with_reducible apply State.timeSetCmd_lasting
    | with_reducible apply State.writePlain_lasting | with_reducible apply Lasting.foldl | split
    | with_reducible apply AllLasting.nil | with_reducible apply AllLasting.cons | with_reducible apply AllLasting.map
    | with_reducible apply Lasting.id | dsimp only

theorem State.fecCtrlWrite_lasting {s0 : State} (p : Nat) (acc : Access) {s : State} (h : Lasting s0 s) :
    Lasting s0 (State.fecCtrlWrite p acc s) := by
  unfold State.fecCtrlWrite
  repeat' first
    | with_reducible assumption | intro _ | with_reducible apply Lasting.ite
    | with_reducible apply State.ignored_lasting | with_reducible apply State.setFld_lasting
    | with_reducible apply State.writePlain_lasting

theorem State.i2cWrite_lasting {s0 : State} (p : Nat) (acc : Access) {s : State} (h : Lasting s0 s) :
    Lasting s0 (State.i2cWrite p acc s) := by
  unfold State.i2cWrite
  repeat' first
    | with_reducible assumption | intro _ | with_reducible apply Lasting.ite
    | with_reducible apply State.ofeGo_lasting | with_reducible apply State.writePlain_lasting

theorem State.rxWrite_lasting {s0 : State} (r : Rx) (off : Nat) (acc : Access) {s : State} (h : Lasting s0 s) :
    Lasting s0 (State.rxWrite r off acc s) := by
  unfold State.rxWrite
  repeat' first
    | with_reducible assumption | intro _ | with_reducible apply Lasting.ite
    | with_reducible apply State.fecCtrlWrite_lasting | with_reducible apply State.i2cWrite_lasting
    | with_reducible apply State.writePlain_lasting | with_reducible apply Lasting.foldl | split

theorem State.txWrite_lasting {s0 : State} (t : Tree) (off : Nat) (acc : Access) {s : State} (h : Lasting s0 s) :
    Lasting s0 (State.txWrite t off acc s) := by
  unfold State.txWrite
  repeat' first
    | with_reducible assumption | intro _ | with_reducible apply Lasting.ite
    | with_reducible apply State.eachBit_lasting | with_reducible apply State.forceRelease_lasting
    | with_reducible apply State.i2cWrite_lasting | with_reducible apply State.noteHalLevel_lasting
    | with_reducible apply State.noteLaunch_lasting | with_reducible apply State.refreshPolicy_lasting
    | with_reducible apply State.writePlain_lasting | with_reducible apply Lasting.foldl | split
    | with_reducible apply AllLasting.nil | with_reducible apply AllLasting.cons | with_reducible apply AllLasting.map
    | with_reducible apply Lasting.id | dsimp only

theorem State.halWrite_lasting {s0 : State} (t : Tree) (off : Nat) (acc : Access) {s : State} (h : Lasting s0 s) :
    Lasting s0 (State.halWrite t off acc s) := by
  unfold State.halWrite
  repeat' first
    | with_reducible assumption | intro _ | with_reducible apply Lasting.ite
    | with_reducible apply State.checkedWrite_lasting | with_reducible apply State.eachBit_lasting
    | with_reducible apply State.halCancel_lasting | with_reducible apply State.halOffsetJudge_lasting
    | with_reducible apply State.halSubmitCmd_lasting | with_reducible apply State.noteHalLevel_lasting
    | with_reducible apply State.stageWrite_lasting | with_reducible apply State.writePlain_lasting
    | with_reducible apply Lasting.foldl | split | with_reducible apply AllLasting.nil
    | with_reducible apply AllLasting.cons | with_reducible apply AllLasting.map | with_reducible apply Lasting.id
    | dsimp only

theorem State.dualWrite_lasting {s0 : State} (off : Nat) (acc : Access) {s : State} (h : Lasting s0 s) :
    Lasting s0 (State.dualWrite off acc s) := by
  unfold State.dualWrite
  repeat' first
    | with_reducible assumption | intro _ | with_reducible apply Lasting.ite
    | with_reducible apply State.checkedWrite_lasting | with_reducible apply State.eachBit_lasting
    | with_reducible apply State.flushMerge_lasting | with_reducible apply State.writePlain_lasting
    | with_reducible apply Lasting.foldl | split | with_reducible apply AllLasting.nil
    | with_reducible apply AllLasting.cons | with_reducible apply AllLasting.map | with_reducible apply Lasting.id
    | dsimp only

theorem State.grtWrite_lasting {s0 : State} (t : Tree) (off : Nat) (acc : Access) {s : State} (h : Lasting s0 s) :
    Lasting s0 (State.grtWrite t off acc s) := by
  unfold State.grtWrite
  repeat' first
    | with_reducible assumption | intro _ | with_reducible apply Lasting.ite
    | with_reducible apply State.checkedWrite_lasting | with_reducible apply State.writePlain_lasting
    | with_reducible apply Lasting.foldl | split

theorem State.uschWrite_lasting {s0 : State} (off : Nat) (acc : Access) {s : State} (h : Lasting s0 s) :
    Lasting s0 (State.uschWrite off acc s) := by
  unfold State.uschWrite
  repeat' first
    | with_reducible assumption | intro _ | with_reducible apply Lasting.ite
    | with_reducible apply State.checkedWrite_lasting | with_reducible apply State.writePlain_lasting
    | with_reducible apply Lasting.foldl | split

theorem State.flowWrite_lasting {s0 : State} (off : Nat) (acc : Access) {s : State} (h : Lasting s0 s) :
    Lasting s0 (State.flowWrite off acc s) := by
  unfold State.flowWrite
  repeat' first
    | with_reducible assumption | intro _ | with_reducible apply Lasting.ite
    | with_reducible apply State.flowCommand_lasting | with_reducible apply State.writePlain_lasting
    | with_reducible apply Lasting.foldl | split

theorem State.uniqWrite_lasting {s0 : State} (i : Nat) (off : Nat) (acc : Access) {s : State} (h : Lasting s0 s) :
    Lasting s0 (State.uniqWrite i off acc s) := by
  unfold State.uniqWrite
  repeat' first
    | with_reducible assumption | intro _ | with_reducible apply Lasting.ite
    | with_reducible apply State.checkedWrite_lasting | with_reducible apply State.pfcJudge_lasting
    | with_reducible apply State.portConfig_lasting | with_reducible apply State.writePlain_lasting
    | with_reducible apply Lasting.foldl | split

theorem State.laneWrite_lasting {s0 : State} (off : Nat) (acc : Access) {s : State} (h : Lasting s0 s) :
    Lasting s0 (State.laneWrite off acc s) := by
  unfold State.laneWrite
  repeat' first
    | with_reducible assumption | intro _ | with_reducible apply Lasting.ite
    | with_reducible apply State.eachBit_lasting | with_reducible apply State.laneInject_lasting
    | with_reducible apply State.writePlain_lasting | with_reducible apply Lasting.foldl | split
    | with_reducible apply AllLasting.nil | with_reducible apply AllLasting.cons | with_reducible apply AllLasting.map
    | with_reducible apply Lasting.id | dsimp only

theorem State.hifWrite_lasting {s0 : State} (off : Nat) (acc : Access) {s : State} (h : Lasting s0 s) :
    Lasting s0 (State.hifWrite off acc s) := by
  unfold State.hifWrite
  repeat' first
    | with_reducible assumption | intro _ | with_reducible apply Lasting.ite
    | with_reducible apply State.checkedWrite_lasting | with_reducible apply State.stageWrite_lasting
    | with_reducible apply State.wakeClear_lasting | with_reducible apply State.writePlain_lasting
    | with_reducible apply Lasting.foldl | split

theorem State.coreWrite_lasting {s0 : State} (off : Nat) (acc : Access) {s : State} (h : Lasting s0 s) :
    Lasting s0 (State.coreWrite off acc s) := by
  unfold State.coreWrite
  repeat' first
    | with_reducible assumption | intro _ | with_reducible apply Lasting.ite
    | with_reducible apply State.coreRelease_lasting | with_reducible apply State.eachBit_lasting
    | with_reducible apply State.ignored_lasting | with_reducible apply State.puntyAbort_lasting
    | with_reducible apply State.puntyArm_lasting | with_reducible apply State.puntyCommit_lasting
    | with_reducible apply State.puntyReady_lasting | with_reducible apply State.useFree_lasting
    | with_reducible apply State.writePlain_lasting | with_reducible apply Lasting.foldl | split
    | with_reducible apply AllLasting.nil | with_reducible apply AllLasting.cons | with_reducible apply AllLasting.map
    | with_reducible apply Lasting.id | dsimp only

theorem State.tskWrite_lasting {s0 : State} (off : Nat) (acc : Access) {s : State} (h : Lasting s0 s) :
    Lasting s0 (State.tskWrite off acc s) := by
  unfold State.tskWrite
  repeat' first
    | with_reducible assumption | intro _ | with_reducible apply Lasting.ite
    | with_reducible apply State.tskSet_lasting | with_reducible apply State.writePlain_lasting
    | with_reducible apply Lasting.foldl | split

theorem State.ccryWrite_lasting {s0 : State} (off : Nat) (acc : Access) {s : State} (h : Lasting s0 s) :
    Lasting s0 (State.ccryWrite off acc s) := by
  unfold State.ccryWrite
  repeat' first
    | with_reducible assumption | intro _ | with_reducible apply Lasting.ite
    | with_reducible apply State.ccryAbort_lasting | with_reducible apply State.ccryExport_lasting
    | with_reducible apply State.ccryImport_lasting | with_reducible apply State.ccryStart_lasting
    | with_reducible apply State.eachBit_lasting | with_reducible apply State.writePlain_lasting
    | with_reducible apply Lasting.foldl | split | with_reducible apply AllLasting.nil
    | with_reducible apply AllLasting.cons | with_reducible apply AllLasting.map | with_reducible apply Lasting.id
    | dsimp only

theorem State.kstCmdWrite_lasting {s0 : State} (off : Nat) (acc : Access) {s : State} (h : Lasting s0 s) :
    Lasting s0 (State.kstCmdWrite off acc s) := by
  unfold State.kstCmdWrite
  repeat' first
    | with_reducible assumption | intro _ | with_reducible apply Lasting.ite
    | with_reducible apply State.eachBit_lasting | with_reducible apply State.ignored_lasting
    | with_reducible apply State.kstCommit_lasting | with_reducible apply State.kstGenkey_lasting
    | with_reducible apply State.writePlain_lasting | with_reducible apply Lasting.foldl | split
    | with_reducible apply AllLasting.nil | with_reducible apply AllLasting.cons | with_reducible apply AllLasting.map
    | with_reducible apply Lasting.id | dsimp only

theorem State.pinWrite_lasting {s0 : State} (off : Nat) (acc : Access) {s : State} (h : Lasting s0 s) :
    Lasting s0 (State.pinWrite off acc s) := by
  unfold State.pinWrite
  repeat' first
    | with_reducible assumption | intro _ | with_reducible apply Lasting.ite
    | with_reducible apply State.eachBit_lasting | with_reducible apply State.pinRelease_lasting
    | with_reducible apply State.useFree_lasting | with_reducible apply State.writePlain_lasting
    | with_reducible apply Lasting.foldl | split | with_reducible apply AllLasting.nil
    | with_reducible apply AllLasting.cons | with_reducible apply AllLasting.map | with_reducible apply Lasting.id
    | dsimp only

theorem State.commitDma_lasting {s0 : State} (e : Nat) (ws : List Word) {s : State} (h : Lasting s0 s) :
    Lasting s0 (State.commitDma e ws s) := by
  unfold State.commitDma
  repeat' first
    | with_reducible assumption | intro _ | with_reducible apply Lasting.ite | with_reducible apply State.iff_lasting
    | with_reducible apply State.ignored_lasting | with_reducible apply State.putEntry_lasting
    | with_reducible apply State.raise_lasting | with_reducible apply State.setTf_lasting

theorem State.putMasked_lasting {s0 : State} (b : Blk) (p : Nat) (t : Nat) (e : Nat) (ws : List Word) {s : State} (h
    : Lasting s0 s) :
       Lasting s0 (State.putMasked b p t e ws s) := by
  unfold State.putMasked
  repeat' first | with_reducible exact h | with_reducible apply State.putEntry_lasting

theorem State.commitPol_lasting {s0 : State} (e : Nat) (ws : List Word) {s : State} (h : Lasting s0 s) :
    Lasting s0 (State.commitPol e ws s) := by
  unfold State.commitPol
  repeat' first
    | with_reducible assumption | intro _ | with_reducible apply Lasting.ite
    | with_reducible apply State.countBy_lasting | with_reducible apply State.iff_lasting
    | with_reducible apply State.modPol_lasting | with_reducible apply State.polUpdate_lasting
    | with_reducible apply State.putMasked_lasting | with_reducible apply State.putTw_lasting
    | with_reducible apply State.setFld_lasting

theorem State.commitLsec_lasting {s0 : State} (t : Nat) (e : Nat) (ws : List Word) {s : State} (h : Lasting s0 s) :
    Lasting s0 (State.commitLsec t e ws s) := by
  unfold State.commitLsec
  repeat' first
    | with_reducible assumption | exact fun _ => rfl | intro _ | with_reducible apply Lasting.ite
    | with_reducible apply State.clearPn_lasting | with_reducible apply State.freeLast_lasting
    | with_reducible apply State.iff_lasting | with_reducible apply State.modRel_lasting
    | with_reducible apply State.putMasked_lasting | with_reducible apply State.putTw_lasting
    | with_reducible apply State.setCtxGcm_lasting | with_reducible apply State.setFld_lasting
    | with_reducible apply State.setSelector_lasting | with_reducible apply State.setTf_lasting
    | with_reducible apply State.showPn_lasting

theorem State.commitUniq_lasting {s0 : State} (p : Nat) (e : Nat) (ws : List Word) {s : State} (h : Lasting s0 s) :
    Lasting s0 (State.commitUniq p e ws s) := by
  unfold State.commitUniq
  repeat' first
    | with_reducible exact h | with_reducible apply State.iff_lasting | with_reducible apply State.pfcEntry_lasting
    | with_reducible apply State.putMasked_lasting | with_reducible apply State.raise_lasting

theorem State.commitLane_lasting {s0 : State} (e : Nat) (ws : List Word) {s : State} (h : Lasting s0 s) :
    Lasting s0 (State.commitLane e ws s) := by
  unfold State.commitLane
  repeat' first
    | with_reducible assumption | intro _ | with_reducible apply Lasting.ite
    | with_reducible apply State.genStart_lasting | with_reducible apply State.iff_lasting
    | with_reducible apply State.linkFall_lasting | with_reducible apply State.modUni_lasting
    | with_reducible apply State.putMasked_lasting | with_reducible apply State.putTw_lasting
    | with_reducible apply State.raise_lasting | with_reducible apply State.setAdapting_lasting
    | with_reducible apply State.setPrbs_lasting | with_reducible apply State.setTf_lasting
    | with_reducible apply Lasting.foldl | split

theorem State.commitTsk_lasting {s0 : State} (t : Nat) (e : Nat) (ws : List Word) {s : State} (h : Lasting s0 s) :
    Lasting s0 (State.commitTsk t e ws s) := by
  unfold State.commitTsk
  repeat' first
    | with_reducible assumption | intro _ | with_reducible apply Lasting.ite
    | with_reducible apply State.flowJudge_lasting | with_reducible apply State.judgeTask_lasting
    | with_reducible apply State.modCore_lasting | with_reducible apply State.modTsk_lasting
    | with_reducible apply State.putMasked_lasting | with_reducible apply Lasting.foldl | split

theorem State.commitKeep_lasting {s0 : State} (e : Nat) (v : Word) {s : State} (h : Lasting s0 s) :
    Lasting s0 (State.commitKeep e v s) := by
  unfold State.commitKeep
  repeat' first
    | with_reducible assumption | intro _ | with_reducible apply Lasting.ite
    | with_reducible apply State.modKeep_lasting | with_reducible apply State.putTw_lasting
    | with_reducible apply Lasting.foldl | split | with_reducible apply Lasting.id | dsimp only

theorem State.commitEntry_lasting {s0 : State} (w : Window) (p : Nat) (t : Nat) (e : Nat) (ws : List Word) {s :
    State} (h : Lasting s0 s) :
       Lasting s0 (State.commitEntry w p t e ws s) := by
  unfold State.commitEntry
  repeat' first
    | with_reducible assumption | intro _ | with_reducible apply Lasting.ite
    | with_reducible apply State.commitDma_lasting | with_reducible apply State.commitKeep_lasting
    | with_reducible apply State.commitLane_lasting | with_reducible apply State.commitLsec_lasting
    | with_reducible apply State.commitPol_lasting | with_reducible apply State.commitTsk_lasting
    | with_reducible apply State.commitUniq_lasting | with_reducible apply State.coreRingTail_lasting
    | with_reducible apply State.iff_lasting | with_reducible apply State.ignored_lasting
    | with_reducible apply State.launchJudge_lasting | with_reducible apply State.modSto_lasting
    | with_reducible apply State.modUsch_lasting | with_reducible apply State.noteChange_lasting
    | with_reducible apply State.noteHalLevel_lasting | with_reducible apply State.putEntry_lasting
    | with_reducible apply State.putMasked_lasting | with_reducible apply State.raise_lasting
    | with_reducible apply State.segWrite_lasting | with_reducible apply State.setStreamPolicy_lasting
    | with_reducible apply State.tmcSubmit_lasting | with_reducible apply Lasting.foldl | split

theorem State.fnIgnored_lasting {s0 : State} (f : Nat) {s : State} (h : Lasting s0 s) :
    Lasting s0 (State.fnIgnored f s) := by
  unfold State.fnIgnored
  repeat' first | with_reducible exact h | with_reducible apply State.modFn_lasting

theorem State.modWin_lasting {s0 : State} (w : Window) (p : Nat) (f : IndWin → IndWin) {s : State} (h : Lasting s0
    s) :
       Lasting s0 (State.modWin w p f s) := by
  unfold State.modWin
  repeat' first | with_reducible exact h | with_reducible apply State.modWins_lasting

theorem State.indirectPoint_lasting {s0 : State} (p : Nat) (off : Nat) (acc : Access) {s : State} (h : Lasting s0 s) :
    Lasting s0 (State.indirectPoint p off acc s) := by
  unfold State.indirectPoint
  repeat' first
    | with_reducible assumption | intro _ | with_reducible apply Lasting.ite
    | with_reducible apply State.guarded_lasting | with_reducible apply State.iff_lasting
    | with_reducible apply State.modWin_lasting | with_reducible apply State.putReg_lasting
    | with_reducible apply State.raise_lasting | with_reducible apply Lasting.foldl | split

theorem State.noteVote_lasting {s0 : State} (p : Nat) (off : Nat) (majority : Bool) {s : State} (h : Lasting s0 s) :
    Lasting s0 (State.noteVote p off majority s) := by
  unfold State.noteVote
  repeat' first
    | with_reducible assumption | intro _ | with_reducible apply State.count_lasting
    | with_reducible apply State.iff_lasting | with_reducible apply State.raise_lasting
    | with_reducible apply State.setFld_lasting

theorem State.scrubSelector_lasting {s0 : State} {s : State} (c : Nat) (h : Lasting s0 s) :
    Lasting s0 (State.scrubSelector s c) := by
  unfold State.scrubSelector
  repeat' first
    | with_reducible assumption | intro _ | with_reducible apply Lasting.ite
    | with_reducible apply State.noteVote_lasting | with_reducible apply State.setSelector_lasting
    | with_reducible apply State.unitContain_lasting | with_reducible apply State.useFree_lasting

theorem State.winAdvance_lasting {s0 : State} (w : Window) (p : Nat) (width : Nat) {s : State} (h : Lasting s0 s) :
    Lasting s0 (State.winAdvance w p width s) := by
  unfold State.winAdvance
  repeat' first
    | with_reducible assumption | intro _ | with_reducible apply Lasting.ite
    | with_reducible apply State.setFld_lasting

theorem State.indirectRead_lasting {s0 : State} (w : Window) (p : Nat) {s : State} (h : Lasting s0 s) :
    Lasting s0 (State.indirectRead w p s) := by
  unfold State.indirectRead
  repeat' first
    | with_reducible assumption | intro _ | with_reducible apply Lasting.ite
    | with_reducible apply State.darkAccess_lasting | with_reducible apply State.iff_lasting
    | with_reducible apply State.modFreeIx_lasting | with_reducible apply State.modReadData_lasting
    | with_reducible apply State.modWin_lasting | with_reducible apply State.raise_lasting
    | with_reducible apply State.scrubSelector_lasting | with_reducible apply State.useFree_lasting
    | with_reducible apply State.winAdvance_lasting | with_reducible apply Lasting.foldl | split

theorem State.indirectStage_lasting {s0 : State} (w : Window) (p : Nat) (v : Word) {s : State} (h : Lasting s0 s) :
    Lasting s0 (State.indirectStage w p v s) := by
  unfold State.indirectStage
  repeat' first
    | with_reducible assumption | intro _ | with_reducible apply Lasting.ite
    | with_reducible apply State.commitEntry_lasting | with_reducible apply State.iff_lasting
    | with_reducible apply State.ignored_lasting | with_reducible apply State.modWin_lasting
    | with_reducible apply State.raise_lasting | with_reducible apply State.winAdvance_lasting
    | with_reducible apply Lasting.foldl | split

theorem State.indirectWrite_lasting {s0 : State} (p : Nat) (acc : Access) {s : State} (h : Lasting s0 s) :
    Lasting s0 (State.indirectWrite p acc s) := by
  unfold State.indirectWrite
  repeat' first
    | with_reducible assumption | intro _ | with_reducible apply Lasting.ite
    | with_reducible apply State.guarded_lasting | with_reducible apply State.ignored_lasting
    | with_reducible apply State.indirectStage_lasting

theorem State.latchRead_lasting {s0 : State} (value : Nat → Word) (p : Nat) (off : Nat) {s : State} (h : Lasting s0
    s) :
       Lasting s0 (State.latchRead value p off s) := by
  unfold State.latchRead
  repeat' first
    | with_reducible assumption | intro _ | with_reducible apply Lasting.ite
    | with_reducible apply State.modReadData_lasting | with_reducible apply State.modRf_lasting
    | with_reducible apply Lasting.foldl | split | (refine (?_ : Sparse.wf _ _ = true); assumption)
    | exact Sparse.wf_filter _ _ _ (by assumption) | exact Sparse.wf_put _ _ _ _ (by assumption)
    | (refine (?_ : _ < counterMod _); apply_assumption) | with_reducible apply Lasting.id | dsimp only

theorem State.msixWrite_lasting {s0 : State} (f : Nat) (v : Nat) (w : Nat) (x : Word) {s : State} (h : Lasting s0 s) :
    Lasting s0 (State.msixWrite f v w x s) := by
  unfold State.msixWrite
  repeat' first
    | with_reducible exact h | exact fun _ => rfl | with_reducible apply State.iff_lasting
    | with_reducible apply State.modHif_lasting | with_reducible apply State.sendPending_lasting

theorem State.putField_lasting {s0 : State} (p : Nat) (f : Fld) (v : Nat) {s : State} (h : Lasting s0 s) :
    Lasting s0 (State.putField p f v s) := by
  unfold State.putField
  repeat' first | with_reducible exact h | with_reducible apply State.modRf_lasting

theorem State.windowRead_lasting {s0 : State} (f : Nat) (off : Nat) {s : State} (h : Lasting s0 s) :
    Lasting s0 (State.windowRead f off s) := by
  unfold State.windowRead
  repeat' first
    | with_reducible assumption | intro _ | with_reducible apply Lasting.ite
    | with_reducible apply State.latchRead_lasting | with_reducible apply State.modReadData_lasting
    | with_reducible apply State.useFree_lasting

theorem State.safeTaken_lasting {s0 : State} (p : Nat) (f : Fld) (a : Nat) (b : Nat) {s : State} (h : Lasting s0 s) :
    Lasting s0 (State.safeTaken p f a b s) := by
  unfold State.safeTaken
  repeat' first
    | with_reducible assumption | intro _ | with_reducible apply Lasting.ite
    | with_reducible apply State.putField_lasting | with_reducible apply State.quarantine_lasting
    | with_reducible apply State.refreshPolicy_lasting | with_reducible apply Lasting.foldl | split

theorem State.scrubField_lasting {s0 : State} (p : Nat) (safe : Nat) {s : State} (f : Fld) (h : Lasting s0 s) :
    Lasting s0 (State.scrubField p safe s f) := by
  unfold State.scrubField
  repeat' first
    | with_reducible assumption | intro _ | with_reducible apply Lasting.ite
    | with_reducible apply State.noteVote_lasting | with_reducible apply State.putField_lasting
    | with_reducible apply State.safeTaken_lasting

theorem State.scrubReg_lasting {s0 : State} (p : Nat) (off : Nat) {s : State} (h : Lasting s0 s) :
    Lasting s0 (State.scrubReg p off s) := by
  unfold State.scrubReg
  repeat' first
    | with_reducible assumption | intro _ | with_reducible apply Lasting.ite
    | with_reducible apply State.scrubField_lasting | with_reducible apply Lasting.foldl | split

theorem State.registerRead_lasting {s0 : State} (p : Nat) (off : Nat) {s : State} (h : Lasting s0 s) :
    Lasting s0 (State.registerRead p off s) := by
  unfold State.registerRead
  repeat' first
    | with_reducible assumption | intro _ | with_reducible apply Lasting.ite
    | with_reducible apply State.darkAccess_lasting | with_reducible apply State.indirectRead_lasting
    | with_reducible apply State.latchRead_lasting | with_reducible apply State.modReadData_lasting
    | with_reducible apply State.scrubReg_lasting | with_reducible apply State.windowRead_lasting

theorem State.ringCfgWrite_lasting {s0 : State} (f : Nat) (rx : Bool) (k : Nat) (v : Word) {s : State} (h : Lasting
    s0 s) :
       Lasting s0 (State.ringCfgWrite f rx k v s) := by
  unfold State.ringCfgWrite
  repeat' first
    | with_reducible assumption | intro _ | with_reducible apply Lasting.ite
    | with_reducible apply State.drainRing_lasting | with_reducible apply State.fnIgnored_lasting
    | with_reducible apply State.iff_lasting | with_reducible apply State.putReg_lasting
    | with_reducible apply State.ringRun_lasting

theorem State.windowWrite_lasting {s0 : State} (f : Nat) (off : Nat) (acc : Access) {s : State} (h : Lasting s0 s) :
    Lasting s0 (State.windowWrite f off acc s) := by
  unfold State.windowWrite
  repeat' first
    | with_reducible assumption | intro _ | with_reducible apply Lasting.ite
    | with_reducible apply State.eachBit_lasting | with_reducible apply State.fnIgnored_lasting
    | with_reducible apply State.iff_lasting | with_reducible apply State.modFn_lasting
    | with_reducible apply State.msixWrite_lasting | with_reducible apply State.ringCfgWrite_lasting
    | with_reducible apply State.ringRestart_lasting | with_reducible apply State.ringSkip_lasting
    | with_reducible apply State.ringTail_lasting | with_reducible apply State.stageWord_lasting
    | with_reducible apply Lasting.foldl | split | with_reducible apply AllLasting.nil
    | with_reducible apply AllLasting.cons | with_reducible apply AllLasting.map | with_reducible apply Lasting.id
    | dsimp only

theorem State.scrubAll_lasting {s0 : State} {s : State} (h : Lasting s0 s) :
    Lasting s0 (State.scrubAll s) := by
  unfold State.scrubAll
  repeat' first
    | with_reducible assumption | intro _ | with_reducible apply Lasting.ite | with_reducible apply State.iff_lasting
    | with_reducible apply State.scrubReg_lasting | with_reducible apply State.scrubSelector_lasting
    | with_reducible apply Lasting.foldl | split

theorem execDarkPageAccess_lasting {s0 : State} (page : Nat) (isWrite : Bool) {s : State} (h : Lasting s0 s) :
    ∀ out, execDarkPageAccess page isWrite s = .next out → Lasting s0 out := by
  intro out e; cases e
  repeat' first
    | with_reducible assumption | intro _ | with_reducible apply Lasting.ite
    | with_reducible apply State.darkAccess_lasting | with_reducible apply State.iff_lasting
    | with_reducible apply State.modReadData_lasting | with_reducible apply Lasting.foldl | split

theorem execLatchingRead_lasting {s0 : State} (page : Nat) (off : Nat) (wide : Bool) {s : State} (h : Lasting s0 s) :
    ∀ out, execLatchingRead page off wide s = .next out → Lasting s0 out := by
  intro out e; cases e
  repeat' first
    | with_reducible assumption | intro _ | with_reducible apply Lasting.ite
    | with_reducible apply State.modReadData_lasting | with_reducible apply State.modReadHigh_lasting
    | with_reducible apply State.registerRead_lasting

theorem execRwtVotedRead_lasting {s0 : State} (page : Nat) (off : Nat) {s : State} (h : Lasting s0 s) :
    ∀ out, execRwtVotedRead page off s = .next out → Lasting s0 out := by
  intro out e; cases e
  repeat' first
    | with_reducible exact h | with_reducible apply State.iff_lasting
    | with_reducible apply State.registerRead_lasting

theorem execSysDarkAccessClear_lasting {s0 : State} {s : State} (h : Lasting s0 s) :
    ∀ out, execSysDarkAccessClear s = .next out → Lasting s0 out := by
  intro out e; cases e
  repeat' first
    | with_reducible exact h | with_reducible apply State.darkClear_lasting
    | with_reducible apply State.guarded_lasting

theorem execCfgStatusClear_lasting {s0 : State} (page : Nat) {s : State} (h : Lasting s0 s) :
    ∀ out, execCfgStatusClear page s = .next out → Lasting s0 out := by
  intro out e; cases e
  repeat' first
    | with_reducible assumption | intro _ | with_reducible apply State.cfgClear_lasting
    | with_reducible apply State.guarded_lasting | with_reducible apply State.iff_lasting

theorem execTripleStatusClear_lasting {s0 : State} (page : Nat) {s : State} (h : Lasting s0 s) :
    ∀ out, execTripleStatusClear page s = .next out → Lasting s0 out := by
  intro out e; cases e
  repeat' first
    | with_reducible assumption | intro _ | with_reducible apply State.guarded_lasting
    | with_reducible apply State.iff_lasting | with_reducible apply State.tripleClear_lasting

theorem execSoftReset_lasting {s0 : State} (page : Nat) {s : State} (h : Lasting s0 s) :
    ∀ out, execSoftReset page s = .next out → Lasting s0 out := by
  intro out e; cases e
  repeat' first
    | with_reducible assumption | intro _ | with_reducible apply State.guarded_lasting
    | with_reducible apply State.iff_lasting | with_reducible apply State.softReset_lasting

theorem execSoftResetComplete_lasting {s0 : State} (page : Nat) {s : State} (h : Lasting s0 s) :
    ∀ out, execSoftResetComplete page s = .next out → Lasting s0 out := by
  intro out e; cases e
  repeat' first
    | with_reducible assumption | intro _ | with_reducible apply State.iff_lasting
    | with_reducible apply State.setFld_lasting

theorem execPennantEvent_lasting {s0 : State} (page : Nat) (bit : Nat) {s : State} (h : Lasting s0 s) :
    ∀ out, execPennantEvent page bit s = .next out → Lasting s0 out := by
  intro out e; cases e
  repeat' first
    | with_reducible exact h | with_reducible apply State.iff_lasting | with_reducible apply State.raise_lasting

theorem execPennantAdvance_lasting {s0 : State} (page : Nat) {s : State} (h : Lasting s0 s) :
    ∀ out, execPennantAdvance page s = .next out → Lasting s0 out := by
  intro out e; cases e
  repeat' first
    | with_reducible exact h | with_reducible apply State.iff_lasting
    | with_reducible apply State.pennantHoldEnd_lasting

theorem execPennantClear_lasting {s0 : State} (page : Nat) (v : Word) {s : State} (h : Lasting s0 s) :
    ∀ out, execPennantClear page v s = .next out → Lasting s0 out := by
  intro out e; cases e
  repeat' first
    | with_reducible assumption | intro _ | with_reducible apply State.guarded_lasting
    | with_reducible apply State.iff_lasting | with_reducible apply State.pennantClear_lasting

theorem execPennantMaskWrite_lasting {s0 : State} (page : Nat) (acc : Access) {s : State} (h : Lasting s0 s) :
    ∀ out, execPennantMaskWrite page acc s = .next out → Lasting s0 out := by
  intro out e; cases e
  repeat' first
    | with_reducible assumption | intro _ | with_reducible apply State.guarded_lasting
    | with_reducible apply State.iff_lasting | with_reducible apply State.maskWrite_lasting

theorem execTripleScrub_lasting {s0 : State} {s : State} (h : Lasting s0 s) :
    ∀ out, execTripleScrub s = .next out → Lasting s0 out := by
  intro out e; cases e
  repeat' first | with_reducible exact h | with_reducible apply State.scrubAll_lasting

theorem execIndirectDataWrite_lasting {s0 : State} (win : Window) (page : Nat) (v : Word) {s : State} (h : Lasting
    s0 s) :
       ∀ out, execIndirectDataWrite win page v s = .next out → Lasting s0 out := by
  intro out e; cases e
  repeat' first
    | with_reducible exact h | with_reducible apply State.iff_lasting
    | with_reducible apply State.indirectWrite_lasting

theorem execIndirectDataRead_lasting {s0 : State} (win : Window) (page : Nat) {s : State} (h : Lasting s0 s) :
    ∀ out, execIndirectDataRead win page s = .next out → Lasting s0 out := by
  intro out e; cases e
  repeat' first
    | with_reducible exact h | with_reducible apply State.iff_lasting
    | with_reducible apply State.indirectRead_lasting

theorem execIndirectAddrWrite_lasting {s0 : State} (win : Window) (page : Nat) (ctrl : Bool) (acc : Access) {s :
    State} (h : Lasting s0 s) :
       ∀ out, execIndirectAddrWrite win page ctrl acc s = .next out → Lasting s0 out := by
  intro out e; cases e
  repeat' first
    | with_reducible exact h | with_reducible apply State.iff_lasting
    | with_reducible apply State.indirectPoint_lasting

end Sys2Proof.Machine
end

