-- ==== Sys2Proof/Laws/LastingCommands.lean ====
section
/-! SUPPORT. What leaves what lasts (Laws/Lasting.lean): the commands of the remaining families. -/

namespace Sys2Proof.Machine

theorem State.acceptClaim_lasting {s0 : State} (t : Tree) (x : TmcMsg) {s : State} (h : Lasting s0 s) :
    Lasting s0 (State.acceptClaim t x s).1 := by
  unfold State.acceptClaim
  repeat' first
    | with_reducible assumption | intro _ | with_reducible apply Lasting.ite | with_reducible apply Lasting.ite_fst
    | with_reducible apply State.clkJudge_lasting | with_reducible apply State.count_lasting
    | with_reducible apply State.dualJudge_lasting | with_reducible apply State.putClaim_lasting
    | with_reducible apply State.raise_lasting

theorem State.adjust_lasting {s0 : State} (t : Tree) (fc : Nat) (x : TmcMsg) {s : State} (h : Lasting s0 s) :
    Lasting s0 (State.adjust t fc x s).1 := by
  unfold State.adjust
  repeat' first
    | with_reducible assumption | intro _ | with_reducible apply Lasting.ite | with_reducible apply Lasting.ite_fst
    | with_reducible apply State.betweenBursts_lasting | with_reducible apply State.iff_lasting
    | with_reducible apply State.noteHalLevel_lasting | with_reducible apply State.noteLaunch_lasting
    | with_reducible apply State.reportFreq_lasting | with_reducible apply State.setEqdPending_lasting
    | with_reducible apply State.setSFld_lasting

theorem State.refuseAlloc_lasting {s0 : State} (t : Tree) (code : Nat) {s : State} (h : Lasting s0 s) :
    Lasting s0 (State.refuseAlloc t code s).1 := by
  unfold State.refuseAlloc
  repeat' first
    | with_reducible exact h | with_reducible apply State.count_lasting | with_reducible apply State.raise_lasting

theorem State.assignAlloc_lasting {s0 : State} (a1 : Tree) (a2 : TmcMsg) {s : State} (h : Lasting s0 s) :
    Lasting s0 (State.assignAlloc a1 a2 s).1 := by
  unfold State.assignAlloc
  dsimp only
  split
  · exact State.refuseAlloc_lasting _ _ h
  · split
    · exact Lasting.ite_fst h (State.refuseAlloc_lasting _ _ h)
    · split
      · exact State.refuseAlloc_lasting _ _ h
      · exact Lasting.ite_fst (State.refuseAlloc_lasting _ _ h) (State.bindAlloc_lasting _ _ _ _ _ _ h)

theorem State.controlFrame_lasting {s0 : State} (r : Rx) {s : State} (h : Lasting s0 s) :
    Lasting s0 (State.controlFrame r s) := by
  unfold State.controlFrame
  repeat' first
    | with_reducible exact h | with_reducible apply State.frontFrame_lasting | with_reducible apply State.iff_lasting

theorem State.grantEntered_lasting {s0 : State} (t : Tree) (i : Nat) {s : State} (h : Lasting s0 s) :
    Lasting s0 (State.grantEntered t i s) := by
  unfold State.grantEntered
  repeat' first
    | with_reducible exact h | with_reducible apply State.halGrantAccepted_lasting
    | with_reducible apply State.modTxs_lasting | with_reducible apply State.wakeDomain_lasting

theorem State.handLine_lasting {s0 : State} (r : Rx) (tenant : Nat) (service : Nat) (bytes : Bytes) (cells : List
    Nat) {s : State} (h : Lasting s0 s) :
       Lasting s0 (State.handLine r tenant service bytes cells s) := by
  unfold State.handLine
  repeat' first
    | with_reducible exact h | with_reducible apply State.modCls_lasting | with_reducible apply State.modSto_lasting
    | with_reducible apply State.returnCells_lasting

theorem State.joinFragment_lasting {s0 : State} (f : LineFrag) (pt : Option Bytes) {s : State} (h : Lasting s0 s) :
    Lasting s0 (State.joinFragment f pt s) := by
  unfold State.joinFragment
  repeat' first
    | with_reducible assumption | intro _ | with_reducible apply Lasting.ite
    | with_reducible apply State.clearParts_lasting | with_reducible apply State.dropPlain_lasting
    | with_reducible apply State.freeLine_lasting | with_reducible apply State.handLine_lasting
    | with_reducible apply State.iff_lasting | with_reducible apply State.modDual_lasting
    | with_reducible apply State.returnCells_lasting | with_reducible apply Lasting.foldl | split

theorem State.keyConfirm_lasting {s0 : State} (t : Tree) (fc : Nat) (x : TmcMsg) {s : State} (h : Lasting s0 s) :
    Lasting s0 (State.keyConfirm t fc x s).1 := by
  unfold State.keyConfirm
  repeat' first
    | with_reducible assumption | intro _ | with_reducible apply Lasting.ite | with_reducible apply Lasting.ite_fst
    | with_reducible apply State.modActs_lasting | with_reducible apply State.putMgmtKey_lasting
    | with_reducible apply State.setFld_lasting | with_reducible apply Lasting.foldl | split

theorem State.keyInit_lasting {s0 : State} (t : Tree) (b : Bytes) {s : State} (h : Lasting s0 s) :
    Lasting s0 (State.keyInit t b s).1 := by
  unfold State.keyInit
  repeat' first
    | with_reducible assumption | intro _ | with_reducible apply Lasting.ite | with_reducible apply Lasting.ite_fst
    | with_reducible apply State.modActs_lasting | with_reducible apply State.putMgmtKey_lasting
    | with_reducible apply State.randomBytes_lasting

theorem State.park_lasting {s0 : State} (t : Tree) (x : TmcMsg) {s : State} (h : Lasting s0 s) :
    Lasting s0 (State.park t x s).1 := by
  unfold State.park
  repeat' first
    | with_reducible assumption | intro _ | with_reducible apply Lasting.ite | with_reducible apply Lasting.ite_fst
    | with_reducible apply State.setFld_lasting | with_reducible apply State.setMode_lasting

theorem State.protectTenant_lasting {s0 : State} (n : Nat) (dup : Nat) (sel : Nat) {s : State} (h : Lasting s0 s) :
    Lasting s0 (State.protectTenant n dup sel s) := by
  unfold State.protectTenant
  repeat' first
    | with_reducible assumption | intro _ | with_reducible apply Lasting.ite
    | with_reducible apply State.setStreamPolicy_lasting | with_reducible apply Lasting.foldl | split

theorem State.provision_lasting {s0 : State} (t : Tree) (x : TmcMsg) {s : State} (h : Lasting s0 s) :
    Lasting s0 (State.provision t x s).1 := by
  unfold State.provision
  repeat' first
    | with_reducible assumption | intro _ | with_reducible apply Lasting.ite | with_reducible apply Lasting.ite_fst
    | with_reducible apply State.attachTenant_lasting | with_reducible apply State.count_lasting
    | with_reducible apply State.raise_lasting | with_reducible apply Lasting.foldl | split

theorem State.rangeConfirm_lasting {s0 : State} (t : Tree) (fc : Nat) (x : TmcMsg) {s : State} (h : Lasting s0 s) :
    Lasting s0 (State.rangeConfirm t fc x s).1 := by
  unfold State.rangeConfirm
  repeat' first
    | with_reducible assumption | intro _ | with_reducible apply Lasting.ite | with_reducible apply Lasting.ite_fst
    | with_reducible apply State.betweenBursts_lasting | with_reducible apply State.modActs_lasting
    | with_reducible apply State.modTxs_lasting | with_reducible apply State.reportFreq_lasting
    | with_reducible apply State.setEqdPending_lasting

theorem State.registerRecord_lasting {s0 : State} (t : Tree) (term : Nat) (wl : Nat) (mgmt : Nat) {s : State} (h :
    Lasting s0 s) :
       Lasting s0 (State.registerRecord t term wl mgmt s) := by
  unfold State.registerRecord
  repeat' first | with_reducible exact h | with_reducible apply State.setRecord_lasting

theorem State.register_lasting {s0 : State} (t : Tree) (fc : Nat) (x : TmcMsg) {s : State} (h : Lasting s0 s) :
    Lasting s0 (State.register t fc x s).1 := by
  unfold State.register
  repeat' first
    | with_reducible assumption | intro _ | with_reducible apply Lasting.ite | with_reducible apply Lasting.ite_fst
    | with_reducible apply State.bindAlloc_lasting | with_reducible apply State.count_lasting
    | with_reducible apply State.raise_lasting | with_reducible apply State.registerRecord_lasting
    | with_reducible apply State.setEqdPending_lasting | with_reducible apply State.setFld_lasting
    | with_reducible apply State.setMode_lasting | with_reducible apply Lasting.foldl | split

theorem State.samplePins_lasting {s0 : State} {s : State} (h : Lasting s0 s) : Lasting s0 (State.samplePins s).2 := by
  unfold State.samplePins
  exact Lasting.foldl_snd (fun x _ hx => State.useFree_lasting hx) _ h

theorem State.selectGrant_lasting {s0 : State} (t : Tree) (i : Nat) {s : State} (h : Lasting s0 s) :
    Lasting s0 (State.selectGrant t i s) := by
  unfold State.selectGrant
  repeat' first
    | with_reducible assumption | intro _ | with_reducible apply Lasting.ite
    | with_reducible apply State.count_lasting | with_reducible apply State.iff_lasting
    | with_reducible apply State.judgeLaunch_lasting | with_reducible apply State.raiseMs_lasting
    | with_reducible apply State.removeGrant_lasting | with_reducible apply State.selectContent_lasting
    | with_reducible apply State.suppressLate_lasting | with_reducible apply Lasting.foldl | split
    | with_reducible apply Lasting.id | dsimp only

theorem State.sendConflict_lasting {s0 : State} (t : Tree) {s : State} (h : Lasting s0 s) :
    Lasting s0 (State.sendConflict t s) := by
  unfold State.sendConflict
  repeat' first
    | with_reducible assumption | intro _ | with_reducible apply Lasting.ite
    | with_reducible apply State.modActs_lasting | with_reducible apply State.modDual_lasting
    | with_reducible apply State.tmcRequest_lasting | with_reducible apply Lasting.foldl | split

theorem State.tenantKey_lasting {s0 : State} (t : Tree) (fc : Nat) (x : TmcMsg) {s : State} (h : Lasting s0 s) :
    Lasting s0 (State.tenantKey t fc x s).1 := by
  unfold State.tenantKey
  repeat' first
    | with_reducible assumption | intro _ | with_reducible apply Lasting.ite | with_reducible apply Lasting.ite_fst
    | with_reducible apply State.dropSlot_lasting | with_reducible apply State.putEntry_lasting
    | with_reducible apply Lasting.foldl | split

theorem State.wakeFrame_lasting {s0 : State} (r : Rx) {s : State} (h : Lasting s0 s) :
    Lasting s0 (State.wakeFrame r s) := by
  unfold State.wakeFrame
  repeat' first
    | with_reducible exact h | with_reducible apply State.iff_lasting | with_reducible apply State.setMode_lasting

theorem execFrmEnable_lasting {s0 : State} (r : Rx) {s : State} (h : Lasting s0 s) :
    ∀ out, execFrmEnable r s = .next out → Lasting s0 out := by
  intro out e; cases e
  repeat' first
    | with_reducible assumption | intro _ | with_reducible apply State.frmStart_lasting
    | with_reducible apply State.lineDo_lasting | with_reducible apply State.pageOn_lasting

theorem execFrmDisable_lasting {s0 : State} (r : Rx) {s : State} (h : Lasting s0 s) :
    ∀ out, execFrmDisable r s = .next out → Lasting s0 out := by
  intro out e; cases e
  repeat' first
    | with_reducible assumption | intro _ | with_reducible apply State.frmStop_lasting
    | with_reducible apply State.lineDo_lasting | with_reducible apply State.pageOff_lasting

theorem execAlignCodeword_lasting {s0 : State} (r : Rx) (bits : List Bool) {s : State} (h : Lasting s0 s) :
    ∀ out, execAlignCodeword r bits s = .next out → Lasting s0 out := by
  intro out e; cases e
  repeat' first
    | with_reducible assumption | intro _ | with_reducible apply State.alignStep_lasting
    | with_reducible apply State.iff_lasting | with_reducible apply State.lineDo_lasting

theorem execFrameHeader_lasting {s0 : State} (r : Rx) {s : State} (h : Lasting s0 s) :
    ∀ out, execFrameHeader r s = .next out → Lasting s0 out := by
  intro out e; cases e
  repeat' first
    | with_reducible assumption | intro _ | with_reducible apply State.controlFrame_lasting
    | with_reducible apply State.headerStep_lasting | with_reducible apply State.iff_lasting
    | with_reducible apply State.lineDo_lasting | with_reducible apply State.wakeFrame_lasting

theorem execGrantEntry_lasting {s0 : State} (r : Rx) (bytes : Bytes) {s : State} (h : Lasting s0 s) :
    ∀ out, execGrantEntry r bytes s = .next out → Lasting s0 out := by
  intro out e; cases e
  repeat' first
    | with_reducible assumption | intro _ | with_reducible apply Lasting.ite
    | with_reducible apply State.count_lasting | with_reducible apply State.grantEntered_lasting
    | with_reducible apply State.grantReceive_lasting | with_reducible apply State.modFrms_lasting
    | with_reducible apply State.raiseMs_lasting | with_reducible apply Lasting.foldl | split
    | (with_reducible refine Lasting.of_fst ?_ (by assumption)) | with_reducible apply Lasting.id | dsimp only

theorem execFragmentHeader_lasting {s0 : State} (r : Rx) (pos : Nat) (bytes : Bytes) {s : State} (h : Lasting s0 s) :
    ∀ out, execFragmentHeader r pos bytes s = .next out → Lasting s0 out := by
  intro out e; cases e
  repeat' first
    | with_reducible assumption | intro _ | with_reducible apply State.fragStep_lasting
    | with_reducible apply State.iff_lasting | with_reducible apply State.lineDo_lasting

theorem execFragmentReceive_lasting {s0 : State} (r : Rx) (payload : Bytes) {s : State} (h : Lasting s0 s) :
    ∀ out, execFragmentReceive r payload s = .next out → Lasting s0 out := by
  intro out e; cases e
  repeat' first
    | with_reducible assumption | intro _ | with_reducible apply Lasting.ite
    | with_reducible apply State.fragReceive_lasting | with_reducible apply State.noteTmc_lasting
    | with_reducible apply State.receiveLine_lasting | with_reducible apply State.tmcRing_lasting
    | with_reducible apply Lasting.foldl | split | (with_reducible refine Lasting.of_fst ?_ (by assumption))
    | with_reducible apply Lasting.id | dsimp only

theorem execLosClear_lasting {s0 : State} (r : Rx) {s : State} (h : Lasting s0 s) :
    ∀ out, execLosClear r s = .next out → Lasting s0 out := by
  intro out e; cases e
  repeat' first
    | with_reducible assumption | intro _ | with_reducible apply State.iff_lasting
    | with_reducible apply State.lineDo_lasting | with_reducible apply State.modFrms_lasting
    | with_reducible apply State.raise_lasting | with_reducible apply State.setFld_lasting

theorem execLofDeclare_lasting {s0 : State} (r : Rx) {s : State} (h : Lasting s0 s) :
    ∀ out, execLofDeclare r s = .next out → Lasting s0 out := by
  intro out e; cases e
  repeat' first
    | with_reducible assumption | intro _ | with_reducible apply State.iff_lasting
    | with_reducible apply State.lineDo_lasting | with_reducible apply State.lofDeclare_lasting

theorem execLofClear_lasting {s0 : State} (r : Rx) {s : State} (h : Lasting s0 s) :
    ∀ out, execLofClear r s = .next out → Lasting s0 out := by
  intro out e; cases e
  repeat' first
    | with_reducible assumption | intro _ | with_reducible apply State.iff_lasting
    | with_reducible apply State.lineDo_lasting | with_reducible apply State.raise_lasting
    | with_reducible apply State.setFld_lasting

theorem execDefectWindowEnd_lasting {s0 : State} (r : Rx) {s : State} (h : Lasting s0 s) :
    ∀ out, execDefectWindowEnd r s = .next out → Lasting s0 out := by
  intro out e; cases e
  repeat' first
    | with_reducible assumption | intro _ | with_reducible apply State.iff_lasting
    | with_reducible apply State.lineDo_lasting | with_reducible apply State.windowBoundary_lasting

theorem execPmSecond_lasting {s0 : State} (r : Rx) {s : State} (h : Lasting s0 s) :
    ∀ out, execPmSecond r s = .next out → Lasting s0 out := by
  intro out e; cases e
  repeat' first
    | with_reducible exact h | with_reducible apply State.iff_lasting | with_reducible apply State.pmSecond_lasting

theorem execPmBinEdge_lasting {s0 : State} (day : Bool) {s : State} (h : Lasting s0 s) :
    ∀ out, execPmBinEdge day s = .next out → Lasting s0 out := by
  intro out e; cases e
  repeat' first
    | with_reducible exact h | with_reducible apply State.iff_lasting | with_reducible apply State.pmBinEdge_lasting

theorem execPmBinFinal_lasting {s0 : State} (r : Rx) (day : Bool) (slot : Nat) {s : State} (h : Lasting s0 s) :
    ∀ out, execPmBinFinal r day slot s = .next out → Lasting s0 out := by
  intro out e; cases e
  repeat' first
    | with_reducible exact h | with_reducible apply State.iff_lasting | with_reducible apply State.pmFinal_lasting

theorem execPmDisable_lasting {s0 : State} {s : State} (h : Lasting s0 s) :
    ∀ out, execPmDisable s = .next out → Lasting s0 out := by
  intro out e; cases e
  repeat' first
    | with_reducible exact h | with_reducible apply State.pageOff_lasting
    | with_reducible apply State.pmMarkAll_lasting

theorem execRegister_lasting {s0 : State} (t : Tree) (m : TmcIn) {s : State} (h : Lasting s0 s) :
    ∀ out, execRegister t m s = .next out → Lasting s0 out := by
  intro out e; cases e
  repeat' first
    | with_reducible assumption | intro _ | with_reducible apply State.register_lasting
    | with_reducible apply State.tmcKind_lasting

theorem execRangeConfirm_lasting {s0 : State} (t : Tree) (m : TmcIn) {s : State} (h : Lasting s0 s) :
    ∀ out, execRangeConfirm t m s = .next out → Lasting s0 out := by
  intro out e; cases e
  repeat' first
    | with_reducible assumption | intro _ | with_reducible apply State.rangeConfirm_lasting
    | with_reducible apply State.tmcKind_lasting

theorem execAdjust_lasting {s0 : State} (t : Tree) (m : TmcIn) {s : State} (h : Lasting s0 s) :
    ∀ out, execAdjust t m s = .next out → Lasting s0 out := by
  intro out e; cases e
  repeat' first
    | with_reducible assumption | intro _ | with_reducible apply State.adjust_lasting
    | with_reducible apply State.tmcKind_lasting

theorem execDeactivate_lasting {s0 : State} (t : Tree) (m : TmcIn) {s : State} (h : Lasting s0 s) :
    ∀ out, execDeactivate t m s = .next out → Lasting s0 out := by
  intro out e; cases e
  repeat' first
    | with_reducible assumption | intro _ | with_reducible apply State.setMode_lasting
    | with_reducible apply State.tmcKind_lasting

theorem execDisable_lasting {s0 : State} (t : Tree) (m : TmcIn) {s : State} (h : Lasting s0 s) :
    ∀ out, execDisable t m s = .next out → Lasting s0 out := by
  intro out e; cases e
  repeat' first
    | with_reducible assumption | intro _ | with_reducible apply Lasting.ite
    | with_reducible apply State.quarantine_lasting | with_reducible apply State.tmcKind_lasting
    | with_reducible apply Lasting.foldl | split

theorem execEnable_lasting {s0 : State} (t : Tree) (m : TmcIn) {s : State} (h : Lasting s0 s) :
    ∀ out, execEnable t m s = .next out → Lasting s0 out := by
  intro out e; cases e
  repeat' first
    | with_reducible assumption | intro _ | with_reducible apply Lasting.ite
    | with_reducible apply State.leaveQuarantine_lasting | with_reducible apply State.tmcKind_lasting
    | with_reducible apply Lasting.foldl | split

theorem execPark_lasting {s0 : State} (t : Tree) (m : TmcIn) {s : State} (h : Lasting s0 s) :
    ∀ out, execPark t m s = .next out → Lasting s0 out := by
  intro out e; cases e
  repeat' first
    | with_reducible exact h | with_reducible apply State.park_lasting | with_reducible apply State.tmcKind_lasting

theorem execStatusRequest_lasting {s0 : State} (t : Tree) (m : TmcIn) {s : State} (h : Lasting s0 s) :
    ∀ out, execStatusRequest t m s = .next out → Lasting s0 out := by
  intro out e; cases e
  repeat' first | with_reducible assumption | intro _ | with_reducible apply State.tmcKind_lasting

theorem execTenantProvision_lasting {s0 : State} (t : Tree) (m : TmcIn) {s : State} (h : Lasting s0 s) :
    ∀ out, execTenantProvision t m s = .next out → Lasting s0 out := by
  intro out e; cases e
  repeat' first
    | with_reducible exact h | with_reducible apply State.provision_lasting
    | with_reducible apply State.tmcKind_lasting

theorem execTenantRemove_lasting {s0 : State} (t : Tree) (m : TmcIn) {s : State} (h : Lasting s0 s) :
    ∀ out, execTenantRemove t m s = .next out → Lasting s0 out := by
  intro out e; cases e
  repeat' first
    | with_reducible assumption | intro _ | with_reducible apply Lasting.ite
    | with_reducible apply State.detachTenant_lasting | with_reducible apply State.tmcKind_lasting
    | with_reducible apply Lasting.foldl | split

theorem execAllocAssign_lasting {s0 : State} (t : Tree) (m : TmcIn) {s : State} (h : Lasting s0 s) :
    ∀ out, execAllocAssign t m s = .next out → Lasting s0 out := by
  intro out e; cases e
  repeat' first
    | with_reducible exact h | with_reducible apply State.assignAlloc_lasting
    | with_reducible apply State.tmcKind_lasting

theorem execAllocRelease_lasting {s0 : State} (t : Tree) (m : TmcIn) {s : State} (h : Lasting s0 s) :
    ∀ out, execAllocRelease t m s = .next out → Lasting s0 out := by
  intro out e; cases e
  repeat' first
    | with_reducible assumption | intro _ | with_reducible apply Lasting.ite
    | with_reducible apply State.releaseAlloc_lasting | with_reducible apply State.tmcKind_lasting
    | with_reducible apply Lasting.foldl | split

theorem execTmcUnknownType_lasting {s0 : State} (t : Tree) (m : TmcIn) {s : State} (h : Lasting s0 s) :
    ∀ out, execTmcUnknownType t m s = .next out → Lasting s0 out := by
  intro out e; cases e
  repeat' first
    | with_reducible assumption | intro _ | with_reducible apply State.iff_lasting
    | with_reducible apply State.tmcReceive_lasting

theorem execTmcHeadEndResponse_lasting {s0 : State} (t : Tree) (m : TmcIn) {s : State} (h : Lasting s0 s) :
    ∀ out, execTmcHeadEndResponse t m s = .next out → Lasting s0 out := by
  intro out e; cases e
  repeat' first
    | with_reducible assumption | intro _ | with_reducible apply Lasting.ite
    | with_reducible apply State.ackNotice_lasting | with_reducible apply State.count_lasting
    | with_reducible apply State.iff_lasting | with_reducible apply State.modActs_lasting
    | with_reducible apply State.tmcTake_lasting

theorem execPrimaryClaim_lasting {s0 : State} (t : Tree) (m : TmcIn) {s : State} (h : Lasting s0 s) :
    ∀ out, execPrimaryClaim t m s = .next out → Lasting s0 out := by
  intro out e; cases e
  repeat' first
    | with_reducible exact h | with_reducible apply State.acceptClaim_lasting
    | with_reducible apply State.tmcKind_lasting

theorem execProtectSet_lasting {s0 : State} (t : Tree) (m : TmcIn) {s : State} (h : Lasting s0 s) :
    ∀ out, execProtectSet t m s = .next out → Lasting s0 out := by
  intro out e; cases e
  repeat' first
    | with_reducible assumption | intro _ | with_reducible apply Lasting.ite
    | with_reducible apply State.protectTenant_lasting | with_reducible apply State.raise_lasting
    | with_reducible apply State.tmcKind_lasting | with_reducible apply Lasting.foldl | split

theorem execKeyInit_lasting {s0 : State} (t : Tree) (m : TmcIn) {s : State} (h : Lasting s0 s) :
    ∀ out, execKeyInit t m s = .next out → Lasting s0 out := by
  intro out e; cases e
  repeat' first
    | with_reducible assumption | intro _ | with_reducible apply State.keyInit_lasting
    | with_reducible apply State.tmcKind_lasting

theorem execKeyConfirm_lasting {s0 : State} (t : Tree) (m : TmcIn) {s : State} (h : Lasting s0 s) :
    ∀ out, execKeyConfirm t m s = .next out → Lasting s0 out := by
  intro out e; cases e
  repeat' first
    | with_reducible assumption | intro _ | with_reducible apply State.keyConfirm_lasting
    | with_reducible apply State.tmcKind_lasting

theorem execTenantKey_lasting {s0 : State} (t : Tree) (m : TmcIn) {s : State} (h : Lasting s0 s) :
    ∀ out, execTenantKey t m s = .next out → Lasting s0 out := by
  intro out e; cases e
  repeat' first
    | with_reducible assumption | intro _ | with_reducible apply State.tenantKey_lasting
    | with_reducible apply State.tmcKind_lasting

theorem execTimeBind_lasting {s0 : State} (t : Tree) (m : TmcIn) {s : State} (h : Lasting s0 s) :
    ∀ out, execTimeBind t m s = .next out → Lasting s0 out := by
  intro out e; cases e
  repeat' first
    | with_reducible assumption | intro _ | with_reducible apply Lasting.ite
    | with_reducible apply State.count_lasting | with_reducible apply State.modFront_lasting
    | with_reducible apply State.raise_lasting | with_reducible apply State.tmcKind_lasting
    | with_reducible apply Lasting.foldl | split | with_reducible apply Lasting.id | dsimp only

theorem execTimeQuality_lasting {s0 : State} (t : Tree) (m : TmcIn) {s : State} (h : Lasting s0 s) :
    ∀ out, execTimeQuality t m s = .next out → Lasting s0 out := by
  intro out e; cases e
  repeat' first
    | with_reducible assumption | intro _ | with_reducible apply State.putEntry_lasting
    | with_reducible apply State.tmcKind_lasting

theorem execUpstreamNeed_lasting {s0 : State} (t : Tree) {s : State} (h : Lasting s0 s) :
    ∀ out, execUpstreamNeed t s = .next out → Lasting s0 out := by
  intro out e; cases e
  repeat' first
    | with_reducible assumption | intro _ | with_reducible apply Lasting.ite | with_reducible apply State.iff_lasting
    | with_reducible apply State.raise_lasting | with_reducible apply State.setMode_lasting
    | with_reducible apply State.setNeed_lasting | with_reducible apply State.wakeRequest_lasting

theorem execDualDisable_lasting {s0 : State} {s : State} (h : Lasting s0 s) :
    ∀ out, execDualDisable s = .next out → Lasting s0 out := by
  intro out e; cases e
  repeat' first
    | with_reducible assumption | intro _ | with_reducible apply Lasting.ite
    | with_reducible apply State.pageOff_lasting | with_reducible apply Lasting.foldl | split
    | with_reducible apply Lasting.id | dsimp only

theorem execMergeFragment_lasting {s0 : State} (r : Rx) {s : State} (h : Lasting s0 s) :
    ∀ out, execMergeFragment r s = .next out → Lasting s0 out := by
  intro out e; cases e
  repeat' first
    | with_reducible assumption | intro _ | with_reducible apply Lasting.ite
    | with_reducible apply State.count_lasting | with_reducible apply State.merge_lasting
    | with_reducible apply State.passLine_lasting | with_reducible apply Lasting.foldl | split

theorem execDualUnprotected_lasting {s0 : State} (r : Rx) {s : State} (h : Lasting s0 s) :
    ∀ out, execDualUnprotected r s = .next out → Lasting s0 out := by
  intro out e; cases e
  repeat' first
    | with_reducible assumption | intro _ | with_reducible apply Lasting.ite
    | with_reducible apply State.count_lasting | with_reducible apply State.passLine_lasting
    | with_reducible apply State.unprotected_lasting | with_reducible apply Lasting.foldl | split

theorem execDualBreakMarker_lasting {s0 : State} (r : Rx) {s : State} (h : Lasting s0 s) :
    ∀ out, execDualBreakMarker r s = .next out → Lasting s0 out := by
  intro out e; cases e
  repeat' first
    | with_reducible assumption | intro _ | with_reducible apply Lasting.ite
    | with_reducible apply State.breakMarker_lasting | with_reducible apply State.modDual_lasting
    | with_reducible apply Lasting.foldl | split

theorem execMergeIdleReset_lasting {s0 : State} (stream : Nat) {s : State} (h : Lasting s0 s) :
    ∀ out, execMergeIdleReset stream s = .next out → Lasting s0 out := by
  intro out e; cases e
  repeat' first
    | with_reducible exact h | with_reducible apply State.dropMerge_lasting | with_reducible apply State.iff_lasting

theorem execDualFlush_lasting {s0 : State} {s : State} (h : Lasting s0 s) :
    ∀ out, execDualFlush s = .next out → Lasting s0 out := by
  intro out e; cases e
  repeat' first
    | with_reducible exact h | with_reducible apply State.flushMerge_lasting
    | with_reducible apply State.guarded_lasting

theorem execDualSkewUpdate_lasting {s0 : State} {s : State} (h : Lasting s0 s) :
    ∀ out, execDualSkewUpdate s = .next out → Lasting s0 out := by
  intro out e; cases e
  repeat' first
    | with_reducible exact h | with_reducible apply State.iff_lasting | with_reducible apply State.skewUpdate_lasting

theorem execCopyWithdraw_lasting {s0 : State} (t : Tree) {s : State} (h : Lasting s0 s) :
    ∀ out, execCopyWithdraw t s = .next out → Lasting s0 out := by
  intro out e; cases e
  repeat' first | with_reducible exact h | with_reducible apply State.withdrawCopies_lasting

theorem execSelWtrExpire_lasting {s0 : State} {s : State} (h : Lasting s0 s) :
    ∀ out, execSelWtrExpire s = .next out → Lasting s0 out := by
  intro out e; cases e
  repeat' first | with_reducible exact h | with_reducible apply State.selRestore_lasting

theorem execClaimConflictSend_lasting {s0 : State} {s : State} (h : Lasting s0 s) :
    ∀ out, execClaimConflictSend s = .next out → Lasting s0 out := by
  intro out e; cases e
  repeat' first | with_reducible exact h | with_reducible apply State.sendConflict_lasting

theorem execGrtDisable_lasting {s0 : State} (t : Tree) {s : State} (h : Lasting s0 s) :
    ∀ out, execGrtDisable t s = .next out → Lasting s0 out := by
  intro out e; cases e
  repeat' first
    | with_reducible exact h | with_reducible apply State.pageOff_lasting
    | with_reducible apply State.suppressWaiting_lasting

theorem execGrantSelect_lasting {s0 : State} (t : Tree) {s : State} (h : Lasting s0 s) :
    ∀ out, execGrantSelect t s = .next out → Lasting s0 out := by
  intro out e; cases e
  repeat' first
    | with_reducible assumption | intro _ | with_reducible apply Lasting.ite | with_reducible apply State.iff_lasting
    | with_reducible apply State.selectGrant_lasting | with_reducible apply Lasting.foldl | split

theorem execSchedTick_lasting {s0 : State} {s : State} (h : Lasting s0 s) :
    ∀ out, execSchedTick s = .next out → Lasting s0 out := by
  intro out e; cases e
  repeat' first
    | with_reducible assumption | intro _ | with_reducible apply State.iff_lasting
    | with_reducible apply State.schedTick_lasting | with_reducible apply State.showTick_lasting
    | with_reducible apply State.tickTake_lasting

theorem execUschAgeSweep_lasting {s0 : State} {s : State} (h : Lasting s0 s) :
    ∀ out, execUschAgeSweep s = .next out → Lasting s0 out := by
  intro out e; cases e
  repeat' first
    | with_reducible assumption | intro _ | with_reducible apply Lasting.ite
    | with_reducible apply State.examine_lasting | with_reducible apply Lasting.foldl | split

theorem execUschDisable_lasting {s0 : State} {s : State} (h : Lasting s0 s) :
    ∀ out, execUschDisable s = .next out → Lasting s0 out := by
  intro out e; cases e
  repeat' first
    | with_reducible assumption | intro _ | with_reducible apply Lasting.ite
    | with_reducible apply State.pageOff_lasting | with_reducible apply Lasting.foldl | split
    | with_reducible apply Lasting.id | dsimp only

theorem execTmcSendSubmit_lasting {s0 : State} (t : Tree) (entry : Nat) (len : Nat) (cls : Nat) (addr : Nat) {s :
    State} (h : Lasting s0 s) :
       ∀ out, execTmcSendSubmit t entry len cls addr s = .next out → Lasting s0 out := by
  intro out e; cases e
  repeat' first
    | with_reducible exact h | with_reducible apply State.iff_lasting | with_reducible apply State.tmcSubmit_lasting

theorem execBulkDrawBack_lasting {s0 : State} (q : Nat) {s : State} (h : Lasting s0 s) :
    ∀ out, execBulkDrawBack q s = .next out → Lasting s0 out := by
  intro out e; cases e
  repeat' first
    | with_reducible exact h | with_reducible apply State.backlogStep_lasting
    | with_reducible apply State.drawBack_lasting

theorem execPolDisable_lasting {s0 : State} {s : State} (h : Lasting s0 s) :
    ∀ out, execPolDisable s = .next out → Lasting s0 out := by
  intro out e; cases e
  repeat' first
    | with_reducible assumption | intro _ | with_reducible apply Lasting.ite
    | with_reducible apply State.pageOff_lasting | with_reducible apply Lasting.foldl | split
    | with_reducible apply Lasting.id | dsimp only

theorem execClsDisable_lasting {s0 : State} {s : State} (h : Lasting s0 s) :
    ∀ out, execClsDisable s = .next out → Lasting s0 out := by
  intro out e; cases e
  repeat' first
    | with_reducible assumption | intro _ | with_reducible apply Lasting.ite
    | with_reducible apply State.pageOff_lasting | with_reducible apply Lasting.foldl | split
    | with_reducible apply Lasting.id | dsimp only

theorem execFrameClassify_lasting {s0 : State} (f : InFrame) (saturated : Bool) {s : State} (h : Lasting s0 s) :
    ∀ out, execFrameClassify f saturated s = .next out → Lasting s0 out := by
  intro out e; cases e
  repeat' first | with_reducible exact h | with_reducible apply State.classify_lasting

theorem execFollowTimeout_lasting {s0 : State} (idx : Nat) {s : State} (h : Lasting s0 s) :
    ∀ out, execFollowTimeout idx s = .next out → Lasting s0 out := by
  intro out e; cases e
  repeat' first
    | with_reducible assumption | intro _ | with_reducible apply State.count_lasting
    | with_reducible apply State.followRemove_lasting | with_reducible apply State.iff_lasting

theorem execFlowAgeSweep_lasting {s0 : State} {s : State} (h : Lasting s0 s) :
    ∀ out, execFlowAgeSweep s = .next out → Lasting s0 out := by
  intro out e; cases e
  repeat' first
    | with_reducible assumption | intro _ | with_reducible apply Lasting.ite
    | with_reducible apply State.flowVisit_lasting | with_reducible apply State.iff_lasting
    | with_reducible apply State.modFlow_lasting | with_reducible apply Lasting.foldl | split

theorem execFlowDisable_lasting {s0 : State} {s : State} (h : Lasting s0 s) :
    ∀ out, execFlowDisable s = .next out → Lasting s0 out := by
  intro out e; cases e
  repeat' first
    | with_reducible assumption | intro _ | with_reducible apply Lasting.ite
    | with_reducible apply State.pageOff_lasting | with_reducible apply Lasting.foldl | split
    | with_reducible apply Lasting.id | dsimp only

theorem execFlowInsert_lasting {s0 : State} {s : State} (h : Lasting s0 s) :
    ∀ out, execFlowInsert s = .next out → Lasting s0 out := by
  intro out e; cases e
  repeat' first
    | with_reducible exact h | with_reducible apply State.flowCommand_lasting
    | with_reducible apply State.guarded_lasting

theorem execFlowDelete_lasting {s0 : State} {s : State} (h : Lasting s0 s) :
    ∀ out, execFlowDelete s = .next out → Lasting s0 out := by
  intro out e; cases e
  repeat' first
    | with_reducible exact h | with_reducible apply State.flowCommand_lasting
    | with_reducible apply State.guarded_lasting

theorem execFlowFind_lasting {s0 : State} {s : State} (h : Lasting s0 s) :
    ∀ out, execFlowFind s = .next out → Lasting s0 out := by
  intro out e; cases e
  repeat' first
    | with_reducible exact h | with_reducible apply State.flowCommand_lasting
    | with_reducible apply State.guarded_lasting

theorem execFlowCmdDone_lasting {s0 : State} {s : State} (h : Lasting s0 s) :
    ∀ out, execFlowCmdDone s = .next out → Lasting s0 out := by
  intro out e; cases e
  repeat' first | with_reducible exact h | with_reducible apply State.flowDone_lasting

theorem execFrameAdmitStart_lasting {s0 : State} (f : AdmitReq) {s : State} (h : Lasting s0 s) :
    ∀ out, execFrameAdmitStart f s = .next out → Lasting s0 out := by
  intro out e; cases e
  repeat' first | with_reducible exact h | with_reducible apply State.admitStart_lasting

theorem execCopyDecide_lasting {s0 : State} (id : Nat) {s : State} (h : Lasting s0 s) :
    ∀ out, execCopyDecide id s = .next out → Lasting s0 out := by
  intro out e; cases e
  repeat' first | with_reducible exact h | with_reducible apply State.copyDecide_lasting

theorem execFrameAdmitEnd_lasting {s0 : State} (id : Nat) (err : Bool) (poolEmpty : Bool) {s : State} (h : Lasting
    s0 s) :
       ∀ out, execFrameAdmitEnd id err poolEmpty s = .next out → Lasting s0 out := by
  intro out e; cases e
  repeat' first | with_reducible exact h | with_reducible apply State.admitEnd_lasting

theorem execBacklogSpill_lasting {s0 : State} (q : Nat) {s : State} (h : Lasting s0 s) :
    ∀ out, execBacklogSpill q s = .next out → Lasting s0 out := by
  intro out e; cases e
  repeat' first | with_reducible exact h | with_reducible apply State.backlogStep_lasting

theorem execMemUncorrectable_lasting {s0 : State} (what : MemErr) {s : State} (h : Lasting s0 s) :
    ∀ out, execMemUncorrectable what s = .next out → Lasting s0 out := by
  intro out e; cases e
  repeat' first | with_reducible exact h | with_reducible apply State.memError_lasting

theorem execDschSelect_lasting {s0 : State} (port : Nat) {s : State} (h : Lasting s0 s) :
    ∀ out, execDschSelect port s = .next out → Lasting s0 out := by
  intro out e; cases e
  repeat' first | with_reducible exact h | with_reducible apply State.dschSelect_lasting

theorem execUniTxComplete_lasting {s0 : State} (port : Nat) {s : State} (h : Lasting s0 s) :
    ∀ out, execUniTxComplete port s = .next out → Lasting s0 out := by
  intro out e; cases e
  repeat' first
    | with_reducible exact h | with_reducible apply State.iff_lasting | with_reducible apply State.uniComplete_lasting
    | with_reducible apply State.uniReceive_lasting

theorem execDschAgeSweep_lasting {s0 : State} {s : State} (h : Lasting s0 s) :
    ∀ out, execDschAgeSweep s = .next out → Lasting s0 out := by
  intro out e; cases e
  repeat' first
    | with_reducible assumption | intro _ | with_reducible apply Lasting.ite
    | with_reducible apply State.examineDown_lasting | with_reducible apply Lasting.foldl | split

theorem execPortFlush_lasting {s0 : State} (port : Nat) {s : State} (h : Lasting s0 s) :
    ∀ out, execPortFlush port s = .next out → Lasting s0 out := by
  intro out e; cases e
  repeat' first | with_reducible exact h | with_reducible apply State.portFlush_lasting

theorem execSampleDeliver_lasting {s0 : State} (bufs : List Bytes) {s : State} (h : Lasting s0 s) :
    ∀ out, execSampleDeliver bufs s = .next out → Lasting s0 out := by
  intro out e; cases e
  repeat' first | with_reducible exact h | with_reducible apply State.sampleDeliver_lasting

theorem execDschDisable_lasting {s0 : State} {s : State} (h : Lasting s0 s) :
    ∀ out, execDschDisable s = .next out → Lasting s0 out := by
  intro out e; cases e
  repeat' first
    | with_reducible assumption | intro _ | with_reducible apply Lasting.ite
    | with_reducible apply State.pageOff_lasting | with_reducible apply Lasting.foldl | split
    | with_reducible apply Lasting.id | dsimp only

theorem execStoDisable_lasting {s0 : State} {s : State} (h : Lasting s0 s) :
    ∀ out, execStoDisable s = .next out → Lasting s0 out := by
  intro out e; cases e
  repeat' first
    | with_reducible assumption | intro _ | with_reducible apply Lasting.ite
    | with_reducible apply State.pageOff_lasting | with_reducible apply Lasting.foldl | split
    | with_reducible apply Lasting.id | dsimp only

theorem execSwcDisable_lasting {s0 : State} {s : State} (h : Lasting s0 s) :
    ∀ out, execSwcDisable s = .next out → Lasting s0 out := by
  intro out e; cases e
  repeat' first
    | with_reducible assumption | intro _ | with_reducible apply Lasting.ite
    | with_reducible apply State.pageOff_lasting | with_reducible apply Lasting.foldl | split
    | with_reducible apply Lasting.id | dsimp only

theorem execMirDisable_lasting {s0 : State} {s : State} (h : Lasting s0 s) :
    ∀ out, execMirDisable s = .next out → Lasting s0 out := by
  intro out e; cases e
  repeat' first
    | with_reducible assumption | intro _ | with_reducible apply Lasting.ite
    | with_reducible apply State.pageOff_lasting | with_reducible apply Lasting.foldl | split
    | with_reducible apply Lasting.id | dsimp only

theorem execXtrDisable_lasting {s0 : State} {s : State} (h : Lasting s0 s) :
    ∀ out, execXtrDisable s = .next out → Lasting s0 out := by
  intro out e; cases e
  repeat' first
    | with_reducible exact h | with_reducible apply State.pageOff_lasting
    | with_reducible apply State.showTier_lasting

theorem execXtrSegmentWrite_lasting {s0 : State} (seg : Nat) (w0 : Word) (w1 : Word) (w2 : Word) (w3 : Word) {s :
    State} (h : Lasting s0 s) :
       ∀ out, execXtrSegmentWrite seg w0 w1 w2 w3 s = .next out → Lasting s0 out := by
  intro out e; cases e
  repeat' first
    | with_reducible exact h | with_reducible apply State.guarded_lasting
    | with_reducible apply State.segWrite_lasting

theorem execTierReadFail_lasting {s0 : State} (q : Nat) (whole : Bool) {s : State} (h : Lasting s0 s) :
    ∀ out, execTierReadFail q whole s = .next out → Lasting s0 out := by
  intro out e; cases e
  repeat' first
    | with_reducible assumption | intro _ | with_reducible apply Lasting.ite
    | with_reducible apply State.loseChain_lasting | with_reducible apply State.loseRecord_lasting

theorem execAuditEval_lasting {s0 : State} {s : State} (h : Lasting s0 s) :
    ∀ out, execAuditEval s = .next out → Lasting s0 out := by
  intro out e; cases e
  repeat' first
    | with_reducible exact h | with_reducible apply State.auditEval_lasting | with_reducible apply State.iff_lasting

theorem execAuditSweepStart_lasting {s0 : State} {s : State} (h : Lasting s0 s) :
    ∀ out, execAuditSweepStart s = .next out → Lasting s0 out := by
  intro out e; cases e
  repeat' first
    | with_reducible assumption | intro _ | with_reducible apply State.iff_lasting
    | with_reducible apply State.setFld_lasting

theorem execAuditSweepDone_lasting {s0 : State} {s : State} (h : Lasting s0 s) :
    ∀ out, execAuditSweepDone s = .next out → Lasting s0 out := by
  intro out e; cases e
  repeat' first
    | with_reducible exact h | with_reducible apply State.iff_lasting | with_reducible apply State.sweepDone_lasting

theorem execAuditStatusClear_lasting {s0 : State} {s : State} (h : Lasting s0 s) :
    ∀ out, execAuditStatusClear s = .next out → Lasting s0 out := by
  intro out e; cases e
  repeat' first
    | with_reducible assumption | intro _ | with_reducible apply State.guarded_lasting
    | with_reducible apply State.setFld_lasting

theorem execLsecDecrypt_lasting {s0 : State} (r : Rx) {s : State} (h : Lasting s0 s) :
    ∀ out, execLsecDecrypt r s = .next out → Lasting s0 out := by
  intro out e; cases e
  repeat' first
    | with_reducible assumption | intro _ | with_reducible apply Lasting.ite
    | with_reducible apply State.joinFragment_lasting | with_reducible apply State.lsecDown_lasting
    | with_reducible apply State.modDual_lasting | with_reducible apply Lasting.foldl | split

theorem execKeySwitch_lasting {s0 : State} (ctx : Nat) {s : State} (h : Lasting s0 s) :
    ∀ out, execKeySwitch ctx s = .next out → Lasting s0 out := by
  intro out e; cases e
  repeat' first
    | with_reducible exact h | with_reducible apply State.iff_lasting | with_reducible apply State.keySwitch_lasting

theorem execLsecDisable_lasting {s0 : State} {s : State} (h : Lasting s0 s) :
    ∀ out, execLsecDisable s = .next out → Lasting s0 out := by
  intro out e; cases e
  repeat' first
    | with_reducible assumption | intro _ | with_reducible apply Lasting.ite
    | with_reducible apply State.pageOff_lasting | with_reducible apply Lasting.foldl | split
    | with_reducible apply Lasting.id | dsimp only

theorem execTimeSetCmd_lasting {s0 : State} {s : State} (h : Lasting s0 s) :
    ∀ out, execTimeSetCmd s = .next out → Lasting s0 out := by
  intro out e; cases e
  repeat' first
    | with_reducible exact h | with_reducible apply State.guarded_lasting
    | with_reducible apply State.timeSetCmd_lasting

theorem execTimeSetApply_lasting {s0 : State} (r : Rx) {s : State} (h : Lasting s0 s) :
    ∀ out, execTimeSetApply r s = .next out → Lasting s0 out := by
  intro out e; cases e
  repeat' first | with_reducible exact h | with_reducible apply State.timeSetApply_lasting

theorem execTimeClearHost_lasting {s0 : State} {s : State} (h : Lasting s0 s) :
    ∀ out, execTimeClearHost s = .next out → Lasting s0 out := by
  intro out e; cases e
  repeat' first
    | with_reducible exact h | with_reducible apply State.guarded_lasting
    | with_reducible apply State.timeClearHost_lasting

theorem execTimeEnable_lasting {s0 : State} {s : State} (h : Lasting s0 s) :
    ∀ out, execTimeEnable s = .next out → Lasting s0 out := by
  intro out e; cases e
  repeat' first
    | with_reducible exact h | with_reducible apply State.pageOn_lasting
    | with_reducible apply State.timeStart_lasting

theorem execTimeCalDone_lasting {s0 : State} {s : State} (h : Lasting s0 s) :
    ∀ out, execTimeCalDone s = .next out → Lasting s0 out := by
  intro out e; cases e
  repeat' first | with_reducible exact h | with_reducible apply State.timeCalDone_lasting

theorem execTimeDisable_lasting {s0 : State} {s : State} (h : Lasting s0 s) :
    ∀ out, execTimeDisable s = .next out → Lasting s0 out := by
  intro out e; cases e
  repeat' first
    | with_reducible assumption | intro _ | with_reducible apply State.pageOff_lasting
    | with_reducible apply State.ppsLow_lasting | with_reducible apply State.timeStop_lasting

theorem execPpsEdge_lasting {s0 : State} {s : State} (h : Lasting s0 s) :
    ∀ out, execPpsEdge s = .next out → Lasting s0 out := by
  intro out e; cases e
  repeat' first
    | with_reducible exact h | with_reducible apply State.iff_lasting | with_reducible apply State.ppsRise_lasting

theorem execPpsFall_lasting {s0 : State} {s : State} (h : Lasting s0 s) :
    ∀ out, execPpsFall s = .next out → Lasting s0 out := by
  intro out e; cases e
  repeat' first | with_reducible exact h | with_reducible apply State.ppsFall_lasting

theorem execLaunchEligible_lasting {s0 : State} (port : Nat) (tag : Nat) {s : State} (h : Lasting s0 s) :
    ∀ out, execLaunchEligible port tag s = .next out → Lasting s0 out := by
  intro out e; cases e
  repeat' first
    | with_reducible assumption | intro _ | with_reducible apply State.iff_lasting
    | with_reducible apply State.launchReach_lasting

theorem execDomainIdleExpire_lasting {s0 : State} (d : Nat) (refusal : Option (Nat × Nat)) {s : State} (h : Lasting
    s0 s) :
       ∀ out, execDomainIdleExpire d refusal s = .next out → Lasting s0 out := by
  intro out e; cases e
  repeat' first | with_reducible exact h | with_reducible apply State.idleExpire_lasting

theorem execDomainEntryDone_lasting {s0 : State} (d : Nat) {s : State} (h : Lasting s0 s) :
    ∀ out, execDomainEntryDone d s = .next out → Lasting s0 out := by
  intro out e; cases e
  repeat' first | with_reducible exact h | with_reducible apply State.entryDone_lasting

theorem execDomainWake_lasting {s0 : State} (d : Nat) (src : Nat) {s : State} (h : Lasting s0 s) :
    ∀ out, execDomainWake d src s = .next out → Lasting s0 out := by
  intro out e; cases e
  repeat' first
    | with_reducible assumption | intro _ | with_reducible apply Lasting.ite
    | with_reducible apply State.guarded_lasting | with_reducible apply State.iff_lasting
    | with_reducible apply State.wakeDomain_lasting

theorem execKeepPolicyWrite_lasting {s0 : State} (hi : Bool) (acc : Access) {s : State} (h : Lasting s0 s) :
    ∀ out, execKeepPolicyWrite hi acc s = .next out → Lasting s0 out := by
  intro out e; cases e
  repeat' first | with_reducible exact h | with_reducible apply State.policyWrite_lasting

theorem execDomainRestoreDone_lasting {s0 : State} (d : Nat) {s : State} (h : Lasting s0 s) :
    ∀ out, execDomainRestoreDone d s = .next out → Lasting s0 out := by
  intro out e; cases e
  repeat' first | with_reducible exact h | with_reducible apply State.restoreDone_lasting

theorem execHostrefLost_lasting {s0 : State} {s : State} (h : Lasting s0 s) :
    ∀ out, execHostrefLost s = .next out → Lasting s0 out := by
  intro out e; cases e
  repeat' first | with_reducible exact h | with_reducible apply State.clkLose_lasting

theorem execClockWtrExpire_lasting {s0 : State} (cand : Nat) {s : State} (h : Lasting s0 s) :
    ∀ out, execClockWtrExpire cand s = .next out → Lasting s0 out := by
  intro out e; cases e
  repeat' first
    | with_reducible exact h | with_reducible apply State.clkJudgeWith_lasting
    | with_reducible apply State.iff_lasting

theorem execClkForce_lasting {s0 : State} (code : Nat) {s : State} (h : Lasting s0 s) :
    ∀ out, execClkForce code s = .next out → Lasting s0 out := by
  intro out e; cases e
  repeat' first
    | with_reducible exact h | with_reducible apply State.clkForceCmd_lasting
    | with_reducible apply State.guarded_lasting

theorem execClockEdgeMissing_lasting {s0 : State} (which : Nat) {s : State} (h : Lasting s0 s) :
    ∀ out, execClockEdgeMissing which s = .next out → Lasting s0 out := by
  intro out e; cases e
  repeat' first | with_reducible exact h | with_reducible apply State.edgeMissing_lasting

theorem execKoscTrim_lasting {s0 : State} (count : Nat) {s : State} (h : Lasting s0 s) :
    ∀ out, execKoscTrim count s = .next out → Lasting s0 out := by
  intro out e; cases e
  repeat' first | with_reducible exact h | with_reducible apply State.koscTrim_lasting

theorem execSupplyWarning_lasting {s0 : State} (rails : Nat) {s : State} (h : Lasting s0 s) :
    ∀ out, execSupplyWarning rails s = .next out → Lasting s0 out := by
  intro out e; cases e
  repeat' first
    | with_reducible exact h | with_reducible apply State.iff_lasting
    | with_reducible apply State.supplyWarning_lasting

theorem execSupplyWarningClear_lasting {s0 : State} {s : State} (h : Lasting s0 s) :
    ∀ out, execSupplyWarningClear s = .next out → Lasting s0 out := by
  intro out e; cases e
  repeat' first
    | with_reducible exact h | with_reducible apply State.iff_lasting | with_reducible apply State.supplyClear_lasting

theorem execVkeepWarning_lasting {s0 : State} {s : State} (h : Lasting s0 s) :
    ∀ out, execVkeepWarning s = .next out → Lasting s0 out := by
  intro out e; cases e
  repeat' first | with_reducible exact h | with_reducible apply State.vkeepWarn_lasting

theorem execVkeepPowerUp_lasting {s0 : State} (ramOk : Bool) {s : State} (h : Lasting s0 s) :
    ∀ out, execVkeepPowerUp ramOk s = .next out → Lasting s0 out := by
  intro out e; cases e
  repeat' first | with_reducible exact h | with_reducible apply State.vkeepPowerUp_lasting

theorem execUnitContain_lasting {s0 : State} (page : Nat) (unit : Nat) {s : State} (h : Lasting s0 s) :
    ∀ out, execUnitContain page unit s = .next out → Lasting s0 out := by
  intro out e; cases e
  repeat' first | with_reducible exact h | with_reducible apply State.unitContain_lasting

theorem execFlitCrcFail_lasting {s0 : State} (link : Nat) (back : Bool) (flit : Bytes) {s : State} (h : Lasting s0
    s) :
       ∀ out, execFlitCrcFail link back flit s = .next out → Lasting s0 out := by
  intro out e; cases e
  repeat' first | with_reducible exact h | with_reducible apply State.flitReceive_lasting

theorem execPinShort_lasting {s0 : State} (pin : Nat) {s : State} (h : Lasting s0 s) :
    ∀ out, execPinShort pin s = .next out → Lasting s0 out := by
  intro out e; cases e
  repeat' first | with_reducible exact h | with_reducible apply State.pinShort_lasting

theorem execPinRelease_lasting {s0 : State} (pin : Nat) (stillFaulty : Bool) {s : State} (h : Lasting s0 s) :
    ∀ out, execPinRelease pin stillFaulty s = .next out → Lasting s0 out := by
  intro out e; cases e
  repeat' first
    | with_reducible exact h | with_reducible apply State.guarded_lasting
    | with_reducible apply State.pinRelease_lasting

theorem execReplan_lasting {s0 : State} (r : LehrReadings) {s : State} (h : Lasting s0 s) :
    ∀ out, execReplan r s = .next out → Lasting s0 out := by
  intro out e; cases e
  repeat' first | with_reducible exact h | with_reducible apply State.replanDaily_lasting

theorem execLehrReplanNow_lasting {s0 : State} (r : LehrReadings) {s : State} (h : Lasting s0 s) :
    ∀ out, execLehrReplanNow r s = .next out → Lasting s0 out := by
  intro out e; cases e
  repeat' first
    | with_reducible exact h | with_reducible apply State.guarded_lasting | with_reducible apply State.replan_lasting

theorem execReplanDeferredStart_lasting {s0 : State} (r : LehrReadings) {s : State} (h : Lasting s0 s) :
    ∀ out, execReplanDeferredStart r s = .next out → Lasting s0 out := by
  intro out e; cases e
  repeat' first | with_reducible exact h | with_reducible apply State.replanDeferred_lasting

theorem execAvsWriteDone_lasting {s0 : State} (rail : Nat) (ack : Bool) {s : State} (h : Lasting s0 s) :
    ∀ out, execAvsWriteDone rail ack s = .next out → Lasting s0 out := by
  intro out e; cases e
  repeat' first | with_reducible exact h | with_reducible apply State.avsDone_lasting

end Sys2Proof.Machine
end

