-- ==== Sys2Proof/Laws/SteadyLine.lean ====
section
/-! SUPPORT. What leaves every PAGE_CTRL and every standing pennant bit (Laws/Steady.lean): the line, the tree-mode machines, network time, admission, clocks. -/

namespace Sys2Proof.Machine

theorem State.modTxs_steady {s0 : State} (t : Tree) (f : TxSt → TxSt) {s : State} (h : Steady s0 s) :
    Steady s0 (State.modTxs t f s) := by
  unfold State.modTxs
  repeat' first | with_reducible exact h | with_reducible apply State.modTx_steady

theorem State.drivePrep_steady {s0 : State} (t : Tree) (on : Bool) {s : State} (h : Steady s0 s) :
    Steady s0 (State.drivePrep t on s) := by
  unfold State.drivePrep
  repeat' first
    | with_reducible exact h | exact ⟨Nat.ne_of_beq_eq_false rfl, Nat.ne_of_beq_eq_false rfl⟩
    | exact Nat.le_of_ble_eq_true rfl | with_reducible apply State.setFld_steady

theorem State.driveGate_steady {s0 : State} (t : Tree) (on : Bool) {s : State} (h : Steady s0 s) :
    Steady s0 (State.driveGate t on s) := by
  unfold State.driveGate
  repeat' first
    | with_reducible exact h | exact ⟨Nat.ne_of_beq_eq_false rfl, Nat.ne_of_beq_eq_false rfl⟩
    | exact Nat.le_of_ble_eq_true rfl | with_reducible apply State.setFld_steady

theorem State.pinsLow_steady {s0 : State} (t : Tree) {s : State} (h : Steady s0 s) :
    Steady s0 (State.pinsLow t s) := by
  unfold State.pinsLow
  repeat' first
    | with_reducible exact h | with_reducible apply State.driveGate_steady
    | with_reducible apply State.drivePrep_steady

theorem State.showPending_steady {s0 : State} (t : Tree) {s : State} (h : Steady s0 s) :
    Steady s0 (State.showPending t s) := by
  unfold State.showPending
  repeat' first
    | with_reducible exact h | exact ⟨Nat.ne_of_beq_eq_false rfl, Nat.ne_of_beq_eq_false rfl⟩
    | exact Nat.le_of_ble_eq_true rfl | with_reducible apply State.setFld_steady

theorem State.modGrts_steady {s0 : State} (t : Tree) (f : GrtSt → GrtSt) {s : State} (h : Steady s0 s) :
    Steady s0 (State.modGrts t f s) := by
  unfold State.modGrts
  repeat' first | with_reducible exact h | with_reducible apply State.modGrt_steady

theorem State.removeGrant_steady {s0 : State} (t : Tree) (i : Nat) {s : State} (h : Steady s0 s) :
    Steady s0 (State.removeGrant t i s) := by
  unfold State.removeGrant
  repeat' first
    | with_reducible exact h | with_reducible apply State.modGrts_steady | with_reducible apply State.putEntry_steady
    | with_reducible apply State.showPending_steady

theorem State.dropRemainders_steady {s0 : State} (t : Tree) (c : Copy) {s : State} (h : Steady s0 s) :
    Steady s0 (State.dropRemainders t c s) := by
  unfold State.dropRemainders
  repeat' first
    | with_reducible assumption | intro _ | with_reducible apply Steady.ite
    | with_reducible apply State.releaseRef_steady | with_reducible apply State.unlinkCopy_steady
    | with_reducible apply Steady.foldl | split

theorem State.loseCopy_steady {s0 : State} (t : Tree) (c : Copy) (here : Bool) {s : State} (h : Steady s0 s) :
    Steady s0 (State.loseCopy t c here s) := by
  unfold State.loseCopy
  repeat' first
    | with_reducible assumption | intro _ | with_reducible apply Steady.ite | with_reducible apply State.count_steady
    | with_reducible apply State.dropRemainders_steady | with_reducible apply State.iff_steady
    | with_reducible apply State.modFrame_steady | with_reducible apply State.releaseRef_steady

theorem State.showTmc_steady {s0 : State} (t : Tree) {s : State} (h : Steady s0 s) :
    Steady s0 (State.showTmc t s) := by
  unfold State.showTmc
  repeat' first
    | with_reducible exact h | exact ⟨Nat.ne_of_beq_eq_false rfl, Nat.ne_of_beq_eq_false rfl⟩
    | exact Nat.le_of_ble_eq_true rfl | with_reducible apply State.setFld_steady

theorem State.setTmcState_steady {s0 : State} (t : Tree) (e : Nat) (st : Nat) {s : State} (h : Steady s0 s) :
    Steady s0 (State.setTmcState t e st s) := by
  unfold State.setTmcState
  repeat' first
    | with_reducible assumption | intro _ | with_reducible apply Steady.ite
    | with_reducible apply State.modGrts_steady | with_reducible apply State.putEntry_steady
    | with_reducible apply State.setTf_steady | with_reducible apply State.showTmc_steady

theorem State.loseContent_steady {s0 : State} (t : Tree) (c : Content) {s : State} (h : Steady s0 s) :
    Steady s0 (State.loseContent t c s) := by
  unfold State.loseContent
  repeat' first
    | with_reducible assumption | intro _ | with_reducible apply Steady.ite | with_reducible apply State.count_steady
    | with_reducible apply State.countBy_steady | with_reducible apply State.endProtected_steady
    | with_reducible apply State.iff_steady | with_reducible apply State.loseCopy_steady
    | with_reducible apply State.raise_steady | with_reducible apply State.setTmcState_steady
    | with_reducible apply Steady.foldl | split

theorem State.suppressLate_steady {s0 : State} (t : Tree) (i : Nat) {s : State} (h : Steady s0 s) :
    Steady s0 (State.suppressLate t i s) := by
  unfold State.suppressLate
  repeat' first
    | with_reducible exact h | with_reducible apply State.count_steady | with_reducible apply State.loseContent_steady
    | with_reducible apply State.raiseMs_steady | with_reducible apply State.removeGrant_steady

theorem State.suppressSelected_steady {s0 : State} (t : Tree) {s : State} (h : Steady s0 s) :
    Steady s0 (State.suppressSelected t s) := by
  unfold State.suppressSelected
  repeat' first
    | with_reducible assumption | intro _ | with_reducible apply Steady.ite | with_reducible apply State.count_steady
    | with_reducible apply State.suppressLate_steady | with_reducible apply Steady.foldl | split

theorem State.tune_steady {s0 : State} (t : Tree) {s : State} (h : Steady s0 s) :
    Steady s0 (State.tune t s) := by
  unfold State.tune
  repeat' first
    | with_reducible assumption | intro _ | with_reducible apply Steady.ite | with_reducible apply State.emit_steady
    | with_reducible apply State.iff_steady | with_reducible apply State.modTxs_steady

theorem State.truncate_steady {s0 : State} (t : Tree) {s : State} (h : Steady s0 s) :
    Steady s0 (State.truncate t s) := by
  unfold State.truncate
  repeat' first
    | with_reducible assumption | intro _ | with_reducible apply Steady.ite | with_reducible apply State.count_steady
    | with_reducible apply State.driveGate_steady | with_reducible apply State.emit_steady
    | with_reducible apply State.loseContent_steady | with_reducible apply State.modTxs_steady
    | with_reducible apply State.raise_steady | with_reducible apply State.removeGrant_steady
    | with_reducible apply State.tune_steady | with_reducible apply Steady.foldl | split

theorem State.contEnd_steady {s0 : State} (t : Tree) {s : State} (h : Steady s0 s) :
    Steady s0 (State.contEnd t s) := by
  unfold State.contEnd
  repeat' first
    | with_reducible assumption | intro _ | with_reducible apply Steady.ite | with_reducible apply State.emit_steady
    | with_reducible apply State.modTxs_steady | with_reducible apply Steady.foldl | split

theorem State.contBegin_steady {s0 : State} (t : Tree) {s : State} (h : Steady s0 s) :
    Steady s0 (State.contBegin t s) := by
  unfold State.contBegin
  repeat' first | with_reducible exact h | with_reducible apply State.modTxs_steady

theorem State.policyPins_steady {s0 : State} (t : Tree) {s : State} (h : Steady s0 s) :
    Steady s0 (State.policyPins t s) := by
  unfold State.policyPins
  repeat' first
    | with_reducible assumption | intro _ | with_reducible apply Steady.ite
    | with_reducible apply State.contBegin_steady | with_reducible apply State.driveGate_steady
    | with_reducible apply State.drivePrep_steady | with_reducible apply State.pinsLow_steady

theorem State.halUnpin_steady {s0 : State} (t : Tree) (j : HalJob) (whole : Bool) {s : State} (h : Steady s0 s) :
    Steady s0 (State.halUnpin t j whole s) := by
  unfold State.halUnpin
  repeat' first
    | with_reducible assumption | exact ⟨Nat.ne_of_beq_eq_false rfl, Nat.ne_of_beq_eq_false rfl⟩
    | exact Nat.le_of_ble_eq_true rfl | intro _ | with_reducible apply Steady.ite
    | with_reducible apply State.driveGate_steady | with_reducible apply State.emit_steady
    | with_reducible apply State.iff_steady | with_reducible apply State.modTxs_steady
    | with_reducible apply State.pinsLow_steady | with_reducible apply State.setFld_steady
    | with_reducible apply Steady.foldl | split

theorem State.modHals_steady {s0 : State} (t : Tree) (f : HalSt → HalSt) {s : State} (h : Steady s0 s) :
    Steady s0 (State.modHals t f s) := by
  unfold State.modHals
  repeat' first | with_reducible exact h | with_reducible apply State.modHal_steady

theorem State.halDone_steady {s0 : State} (t : Tree) (slot : Nat) (result : Nat) {s : State} (h : Steady s0 s) :
    Steady s0 (State.halDone t slot result s) := by
  unfold State.halDone
  repeat' first
    | with_reducible assumption | exact ⟨Nat.ne_of_beq_eq_false rfl, Nat.ne_of_beq_eq_false rfl⟩
    | exact Nat.le_of_ble_eq_true rfl | (refine ⟨?_, ?_⟩ <;> simp only [halStateFld, halResultFld] <;> decide)
    | intro _ | with_reducible apply Steady.ite | with_reducible apply State.count_steady
    | with_reducible apply State.halUnpin_steady | with_reducible apply State.iff_steady
    | with_reducible apply State.modHals_steady | with_reducible apply State.raise_steady
    | with_reducible apply State.setFld_steady | with_reducible apply Steady.foldl | split

theorem State.halRefusePins_steady {s0 : State} (t : Tree) {s : State} (h : Steady s0 s) :
    Steady s0 (State.halRefusePins t s) := by
  unfold State.halRefusePins
  repeat' first
    | with_reducible assumption | intro _ | with_reducible apply Steady.ite
    | with_reducible apply State.halDone_steady | with_reducible apply Steady.foldl | split

theorem State.policyJudge_steady {s0 : State} (t : Tree) {s : State} (h : Steady s0 s) :
    Steady s0 (State.policyJudge t s) := by
  unfold State.policyJudge
  repeat' first
    | with_reducible assumption | exact ⟨Nat.ne_of_beq_eq_false rfl, Nat.ne_of_beq_eq_false rfl⟩
    | exact Nat.le_of_ble_eq_true rfl | intro _ | with_reducible apply Steady.ite
    | with_reducible apply State.contEnd_steady | with_reducible apply State.halRefusePins_steady
    | with_reducible apply State.iff_steady | with_reducible apply State.policyPins_steady
    | with_reducible apply State.setFld_steady | with_reducible apply State.suppressSelected_steady
    | with_reducible apply State.truncate_steady

theorem State.laneIdle_steady {s0 : State} (t : Tree) {s : State} (h : Steady s0 s) : Steady s0 (State.laneIdle t s) := by
  unfold State.laneIdle
  split
  · refine Steady.ite (State.modTxs_steady _ _ h) (State.policyJudge_steady t ?_)
    exact Steady.offAndOn (pgTX t) (f := fun x => ((x.policyJudge t).setFld (pgTX t) TX.laneFixOrder _).setFld (pgTX t)
      TX.laneFixSigns _) (State.modTxs_steady _ _ h) (by cases t <;> decide) (fun x => by
      refine State.setFld_steady _ _ _ (State.setFld_steady _ _ _ (State.policyJudge_steady t (Steady.refl x)) ?_) ?_ <;>
        decide)
  · exact h

theorem State.refreshPolicy_steady {s0 : State} (t : Tree) {s : State} (h : Steady s0 s) :
    Steady s0 (State.refreshPolicy t s) := by
  unfold State.refreshPolicy
  repeat' first
    | with_reducible assumption | intro _ | with_reducible apply Steady.ite
    | with_reducible apply State.laneIdle_steady | with_reducible apply State.policyJudge_steady
    | with_reducible apply Steady.foldl | split | with_reducible apply Steady.id | dsimp only

theorem State.showForce_steady {s0 : State} (t : Tree) {s : State} (h : Steady s0 s) :
    Steady s0 (State.showForce t s) := by
  unfold State.showForce
  repeat' first
    | with_reducible exact h | exact ⟨Nat.ne_of_beq_eq_false rfl, Nat.ne_of_beq_eq_false rfl⟩
    | exact Nat.le_of_ble_eq_true rfl | with_reducible apply State.setFld_steady

theorem State.enterForce_steady {s0 : State} (t : Tree) {s : State} (h : Steady s0 s) :
    Steady s0 (State.enterForce t s) := by
  unfold State.enterForce
  repeat' first
    | with_reducible assumption | intro _ | with_reducible apply Steady.ite
    | with_reducible apply State.pinsLow_steady | with_reducible apply State.raise_steady
    | with_reducible apply State.refreshPolicy_steady | with_reducible apply State.showForce_steady

theorem State.clockForce_steady {s0 : State} (t : Tree) {s : State} (h : Steady s0 s) :
    Steady s0 (State.clockForce t s) := by
  unfold State.clockForce
  repeat' first
    | with_reducible assumption | exact ⟨Nat.ne_of_beq_eq_false rfl, Nat.ne_of_beq_eq_false rfl⟩
    | exact Nat.le_of_ble_eq_true rfl | intro _ | with_reducible apply Steady.ite
    | with_reducible apply State.count_steady | with_reducible apply State.enterForce_steady
    | with_reducible apply State.modTxs_steady | with_reducible apply State.raise_steady
    | with_reducible apply State.setFld_steady

theorem State.txClockBack_steady {s0 : State} (t : Tree) {s : State} (h : Steady s0 s) :
    Steady s0 (State.txClockBack t s) := by
  unfold State.txClockBack
  repeat' first
    | with_reducible assumption | exact ⟨Nat.ne_of_beq_eq_false rfl, Nat.ne_of_beq_eq_false rfl⟩
    | exact Nat.le_of_ble_eq_true rfl | intro _ | with_reducible apply Steady.ite
    | with_reducible apply State.modTxs_steady | with_reducible apply State.setFld_steady

theorem State.moveTreeClk_steady {s0 : State} (t : Tree) (new : Nat) {s : State} (h : Steady s0 s) :
    Steady s0 (State.moveTreeClk t new s) := by
  unfold State.moveTreeClk
  cases t
  all_goals
    repeat' first
      | with_reducible assumption | exact ⟨Nat.ne_of_beq_eq_false rfl, Nat.ne_of_beq_eq_false rfl⟩
      | exact Nat.le_of_ble_eq_true rfl | intro _ | with_reducible apply Steady.ite
      | with_reducible apply State.clockForce_steady | with_reducible apply State.count_steady
      | with_reducible apply State.iff_steady | with_reducible apply State.raise_steady
      | with_reducible apply State.setFld_steady | with_reducible apply State.txClockBack_steady

theorem State.forceLost_steady {s0 : State} {s : State} (h : Steady s0 s) :
    Steady s0 (State.forceLost s) := by
  unfold State.forceLost
  repeat' first
    | with_reducible assumption | exact ⟨Nat.ne_of_beq_eq_false rfl, Nat.ne_of_beq_eq_false rfl⟩
    | exact Nat.le_of_ble_eq_true rfl | intro _ | with_reducible apply Steady.ite
    | with_reducible apply State.raise_steady | with_reducible apply State.setFld_steady

theorem State.breakTrim_steady {s0 : State} {s : State} (h : Steady s0 s) :
    Steady s0 (State.breakTrim s) := by
  unfold State.breakTrim
  repeat' first | with_reducible exact h | with_reducible apply State.modClk_steady

theorem State.hostEnd_steady {s0 : State} {s : State} (h : Steady s0 s) :
    Steady s0 (State.hostEnd s) := by
  unfold State.hostEnd
  repeat' first
    | with_reducible exact h | exact ⟨Nat.ne_of_beq_eq_false rfl, Nat.ne_of_beq_eq_false rfl⟩
    | exact Nat.le_of_ble_eq_true rfl | with_reducible apply State.modTime_steady
    | with_reducible apply State.setFld_steady

theorem State.ppsLow_steady {s0 : State} {s : State} (h : Steady s0 s) :
    Steady s0 (State.ppsLow s) := by
  unfold State.ppsLow
  repeat' first | with_reducible exact h | with_reducible apply State.modTime_steady

theorem State.showTick_steady {s0 : State} {s : State} (h : Steady s0 s) :
    Steady s0 (State.showTick s) := by
  unfold State.showTick
  repeat' first
    | with_reducible exact h | exact ⟨Nat.ne_of_beq_eq_false rfl, Nat.ne_of_beq_eq_false rfl⟩
    | exact Nat.le_of_ble_eq_true rfl | with_reducible apply State.setFld_steady

theorem State.setTimeValid_steady {s0 : State} (on : Bool) {s : State} (h : Steady s0 s) :
    Steady s0 (State.setTimeValid on s) := by
  unfold State.setTimeValid
  repeat' first
    | with_reducible exact h | exact ⟨Nat.ne_of_beq_eq_false rfl, Nat.ne_of_beq_eq_false rfl⟩
    | exact Nat.le_of_ble_eq_true rfl | with_reducible apply State.setFld_steady
    | with_reducible apply State.showTick_steady

theorem State.timeLost_steady {s0 : State} {s : State} (h : Steady s0 s) :
    Steady s0 (State.timeLost s) := by
  unfold State.timeLost
  repeat' first
    | with_reducible exact h | with_reducible apply State.count_steady | with_reducible apply State.pmMarkAll_steady
    | with_reducible apply State.ppsLow_steady | with_reducible apply State.raise_steady
    | with_reducible apply State.setTimeValid_steady

theorem State.launchReach_steady {s0 : State} (e : Nat) {s : State} (h : Steady s0 s) :
    Steady s0 (State.launchReach e s) := by
  unfold State.launchReach
  repeat' first
    | with_reducible assumption | intro _ | with_reducible apply State.iff_steady
    | with_reducible apply State.modTime_steady

theorem State.snapResume_steady {s0 : State} {s : State} (h : Steady s0 s) :
    Steady s0 (State.snapResume s) := by
  unfold State.snapResume
  repeat' first
    | with_reducible exact h | with_reducible apply State.iff_steady | with_reducible apply State.snapReach_steady

theorem State.foutAlign_steady {s0 : State} {s : State} (h : Steady s0 s) :
    Steady s0 (State.foutAlign s) := by
  unfold State.foutAlign
  repeat' first | with_reducible exact h | with_reducible apply State.modTime_steady

theorem State.ppsMark_steady {s0 : State} {s : State} (h : Steady s0 s) :
    Steady s0 (State.ppsMark s) := by
  unfold State.ppsMark
  repeat' first
    | with_reducible exact h | with_reducible apply State.foutAlign_steady | with_reducible apply State.modTime_steady

theorem State.ppsRise_steady {s0 : State} {s : State} (h : Steady s0 s) :
    Steady s0 (State.ppsRise s) := by
  unfold State.ppsRise
  repeat' first
    | with_reducible assumption | intro _ | with_reducible apply Steady.ite | with_reducible apply State.count_steady
    | with_reducible apply State.iff_steady | with_reducible apply State.modTime_steady
    | with_reducible apply State.ppsMark_steady

theorem State.timedFire_steady {s0 : State} (resume : Bool) {s : State} (x3 : TimedAct) (h : Steady s0 s) :
    Steady s0 (State.timedFire resume s x3) := by
  unfold State.timedFire
  repeat' first
    | with_reducible assumption | intro _ | with_reducible apply Steady.ite | with_reducible apply State.iff_steady
    | with_reducible apply State.launchReach_steady | with_reducible apply State.pmPassed_steady
    | with_reducible apply State.ppsRise_steady | with_reducible apply State.snapFire_steady
    | with_reducible apply State.snapReach_steady | with_reducible apply State.snapResume_steady
    | with_reducible apply Steady.foldl | split

theorem State.timePassed_steady {s0 : State} (resume : Bool) {s : State} (h : Steady s0 s) :
    Steady s0 (State.timePassed resume s) := by
  unfold State.timePassed
  repeat' first
    | with_reducible assumption | intro _ | with_reducible apply Steady.ite
    | with_reducible apply State.timedFire_steady | with_reducible apply Steady.foldl | split

theorem State.tickAlign_steady {s0 : State} {s : State} (h : Steady s0 s) :
    Steady s0 (State.tickAlign s) := by
  unfold State.tickAlign
  repeat' first | with_reducible exact h | with_reducible apply State.modUsch_steady

theorem State.showTime_steady {s0 : State} {s : State} (h : Steady s0 s) :
    Steady s0 (State.showTime s) := by
  unfold State.showTime
  repeat' first
    | with_reducible exact h | exact ⟨Nat.ne_of_beq_eq_false rfl, Nat.ne_of_beq_eq_false rfl⟩
    | exact Nat.le_of_ble_eq_true rfl | with_reducible apply State.putTime_steady

theorem State.timeMove_steady {s0 : State} (v : Nat) {s : State} (h : Steady s0 s) :
    Steady s0 (State.timeMove v s) := by
  unfold State.timeMove
  repeat' first
    | with_reducible exact h | with_reducible apply State.modTime_steady | with_reducible apply State.showTime_steady

theorem State.launchJudge_steady {s0 : State} {s : State} (h : Steady s0 s) :
    Steady s0 (State.launchJudge s) := by
  unfold State.launchJudge
  repeat' first | with_reducible exact h | with_reducible apply State.modTime_steady

theorem State.timeApply_steady {s0 : State} (v : Nat) (resume : Bool) {s : State} (h : Steady s0 s) :
    Steady s0 (State.timeApply v resume s) := by
  unfold State.timeApply
  repeat' first
    | with_reducible assumption | exact ⟨Nat.ne_of_beq_eq_false rfl, Nat.ne_of_beq_eq_false rfl⟩
    | exact Nat.le_of_ble_eq_true rfl | intro _ | with_reducible apply Steady.ite
    | with_reducible apply State.count_steady | with_reducible apply State.iff_steady
    | with_reducible apply State.launchJudge_steady | with_reducible apply State.modTime_steady
    | with_reducible apply State.pmMarkAll_steady | with_reducible apply State.ppsMark_steady
    | with_reducible apply State.raise_steady | with_reducible apply State.setSFld_steady
    | with_reducible apply State.tickAlign_steady | with_reducible apply State.timeMove_steady
    | with_reducible apply State.timePassed_steady

theorem State.foutJudge_steady {s0 : State} {s : State} (h : Steady s0 s) :
    Steady s0 (State.foutJudge s) := by
  unfold State.foutJudge
  repeat' first
    | with_reducible exact h | exact ⟨Nat.ne_of_beq_eq_false rfl, Nat.ne_of_beq_eq_false rfl⟩
    | exact Nat.le_of_ble_eq_true rfl | with_reducible apply State.foutAlign_steady
    | with_reducible apply State.iff_steady | with_reducible apply State.modTime_steady
    | with_reducible apply State.raise_steady | with_reducible apply State.setFld_steady

theorem State.timeJudge_steady {s0 : State} {s : State} (h : Steady s0 s) :
    Steady s0 (State.timeJudge s) := by
  unfold State.timeJudge
  repeat' first
    | with_reducible assumption | exact ⟨Nat.ne_of_beq_eq_false rfl, Nat.ne_of_beq_eq_false rfl⟩
    | exact Nat.le_of_ble_eq_true rfl | intro _ | with_reducible apply Steady.ite
    | with_reducible apply State.count_steady | with_reducible apply State.foutJudge_steady
    | with_reducible apply State.hostEnd_steady | with_reducible apply State.iff_steady
    | with_reducible apply State.launchJudge_steady | with_reducible apply State.raise_steady
    | with_reducible apply State.setFld_steady | with_reducible apply State.setTimeValid_steady
    | with_reducible apply State.timeApply_steady | with_reducible apply State.timeLost_steady

theorem State.movePartClk_steady {s0 : State} (new : Nat) {s : State} (h : Steady s0 s) :
    Steady s0 (State.movePartClk new s) := by
  unfold State.movePartClk
  repeat' first
    | with_reducible assumption | exact ⟨Nat.ne_of_beq_eq_false rfl, Nat.ne_of_beq_eq_false rfl⟩
    | exact Nat.le_of_ble_eq_true rfl | intro _ | with_reducible apply Steady.ite
    | with_reducible apply State.breakTrim_steady | with_reducible apply State.count_steady
    | with_reducible apply State.iff_steady | with_reducible apply State.raise_steady
    | with_reducible apply State.setFld_steady | with_reducible apply State.timeJudge_steady

theorem State.setNeed_steady {s0 : State} (t : Tree) (on : Bool) {s : State} (h : Steady s0 s) :
    Steady s0 (State.setNeed t on s) := by
  unfold State.setNeed
  repeat' first | with_reducible exact h | with_reducible apply State.modUsch_steady

theorem State.modFrms_steady {s0 : State} (r : Rx) (f : FrmSt → FrmSt) {s : State} (h : Steady s0 s) :
    Steady s0 (State.modFrms r f s) := by
  unfold State.modFrms
  repeat' first | with_reducible exact h | with_reducible apply State.modFrm_steady

theorem State.closeWindow_steady {s0 : State} (r : Rx) {s : State} (h : Steady s0 s) :
    Steady s0 (State.closeWindow r s) := by
  unfold State.closeWindow
  repeat' first | with_reducible exact h | with_reducible apply State.modFrms_steady

theorem State.setRecord_steady {s0 : State} (t : Tree) (pos : Nat) (bs : Bytes) {s : State} (h : Steady s0 s) :
    Steady s0 (State.setRecord t pos bs s) := by
  unfold State.setRecord
  repeat' first | with_reducible exact h | with_reducible apply State.putEntry_steady

theorem State.modHalJob_steady {s0 : State} (t : Tree) (slot : Nat) (f : HalJob → HalJob) {s : State} (h : Steady s0
    s) :
       Steady s0 (State.modHalJob t slot f s) := by
  unfold State.modHalJob
  repeat' first | with_reducible exact h | with_reducible apply State.modHals_steady

theorem State.halMove_steady {s0 : State} (t : Tree) (j : HalJob) {s : State} (h : Steady s0 s) :
    Steady s0 (State.halMove t j s) := by
  unfold State.halMove
  repeat' first
    | with_reducible assumption | intro _ | with_reducible apply Steady.ite
    | with_reducible apply State.modHalJob_steady | with_reducible apply State.modTxs_steady

theorem State.halRetime_steady {s0 : State} (t : Tree) {s : State} (h : Steady s0 s) :
    Steady s0 (State.halRetime t s) := by
  unfold State.halRetime
  repeat' first
    | with_reducible assumption | intro _ | with_reducible apply Steady.ite
    | with_reducible apply State.halMove_steady | with_reducible apply Steady.foldl | split

theorem State.releaseList_steady {s0 : State} (k : Nat) {s : State} (h : Steady s0 s) :
    Steady s0 (State.releaseList k s) := by
  unfold State.releaseList
  repeat' first
    | with_reducible assumption | intro _ | with_reducible apply Steady.ite | with_reducible apply State.count_steady
    | with_reducible apply State.endCopy_steady | with_reducible apply State.endProtected_steady
    | with_reducible apply State.unlinkCopy_steady | with_reducible apply Steady.foldl | split

theorem State.releaseShared_steady {s0 : State} (q : Nat) {s : State} (h : Steady s0 s) :
    Steady s0 (State.releaseShared q s) := by
  unfold State.releaseShared
  repeat' first
    | with_reducible exact h | with_reducible apply State.iff_steady | with_reducible apply State.releaseList_steady
    | with_reducible apply State.releaseTier_steady

theorem State.releaseAlloc_steady {s0 : State} (t : Tree) (a : Nat) {s : State} (h : Steady s0 s) :
    Steady s0 (State.releaseAlloc t a s) := by
  unfold State.releaseAlloc
  repeat' first
    | with_reducible assumption | intro _ | with_reducible apply Steady.ite | with_reducible apply State.iff_steady
    | with_reducible apply State.putEntry_steady | with_reducible apply State.releaseList_steady
    | with_reducible apply State.releaseShared_steady | with_reducible apply State.showQueue_steady
    | with_reducible apply Steady.foldl | split

theorem State.dropMerge_steady {s0 : State} (q : Nat) {s : State} (h : Steady s0 s) :
    Steady s0 (State.dropMerge q s) := by
  unfold State.dropMerge
  repeat' first
    | with_reducible exact h | with_reducible apply State.modDual_steady | with_reducible apply State.setTf_steady

theorem State.dropTenantMerge_steady {s0 : State} (n : Nat) {s : State} (h : Steady s0 s) :
    Steady s0 (State.dropTenantMerge n s) := by
  unfold State.dropTenantMerge
  repeat' first
    | with_reducible assumption | intro _ | with_reducible apply Steady.ite
    | with_reducible apply State.dropMerge_steady | with_reducible apply State.iff_steady
    | with_reducible apply State.modDual_steady | with_reducible apply Steady.foldl | split

theorem State.detachTenant_steady {s0 : State} (t : Tree) (n : Nat) {s : State} (h : Steady s0 s) :
    Steady s0 (State.detachTenant t n s) := by
  unfold State.detachTenant
  repeat' first
    | with_reducible assumption | exact ⟨Nat.ne_of_beq_eq_false rfl, Nat.ne_of_beq_eq_false rfl⟩
    | exact Nat.le_of_ble_eq_true rfl | (simp only [tenantEnFld]; omega) | intro _ | with_reducible apply Steady.ite
    | with_reducible apply State.clearTenantKeys_steady | with_reducible apply State.dropTenantMerge_steady
    | with_reducible apply State.putEntry_steady | with_reducible apply State.releaseAlloc_steady
    | with_reducible apply State.setFld_steady | with_reducible apply Steady.foldl | split

theorem State.modActs_steady {s0 : State} (t : Tree) (f : ActSt → ActSt) {s : State} (h : Steady s0 s) :
    Steady s0 (State.modActs t f s) := by
  unfold State.modActs
  repeat' first | with_reducible exact h | with_reducible apply State.modAct_steady

theorem State.dropMgmtKeys_steady {s0 : State} (t : Tree) {s : State} (h : Steady s0 s) :
    Steady s0 (State.dropMgmtKeys t s) := by
  unfold State.dropMgmtKeys
  repeat' first
    | with_reducible assumption | intro _ | with_reducible apply Steady.ite
    | with_reducible apply State.modActs_steady | with_reducible apply State.putMgmtKey_steady
    | with_reducible apply Steady.foldl | split

theorem State.putClaim_steady {s0 : State} (t : Tree) (epoch : Nat) (he : Nat) {s : State} (h : Steady s0 s) :
    Steady s0 (State.putClaim t epoch he s) := by
  unfold State.putClaim
  cases t <;> repeat' first
    | with_reducible exact h | with_reducible apply State.putReg_steady | with_reducible apply State.setFld_steady
    | exact ⟨Nat.ne_of_beq_eq_false rfl, Nat.ne_of_beq_eq_false rfl⟩

theorem State.modFront_steady {s0 : State} (t : Tree) (f : FrontSt → FrontSt) {s : State} (h : Steady s0 s) :
    Steady s0 (State.modFront t f s) := by
  unfold State.modFront
  repeat' first
    | with_reducible assumption | exact ⟨Nat.ne_of_beq_eq_false rfl, Nat.ne_of_beq_eq_false rfl⟩
    | exact Nat.le_of_ble_eq_true rfl | intro _ | with_reducible apply Steady.ite
    | with_reducible apply State.modTime_steady | with_reducible apply State.setFld_steady
    | with_reducible apply Steady.foldl | split

theorem State.frontForget_steady {s0 : State} (t : Tree) {s : State} (h : Steady s0 s) :
    Steady s0 (State.frontForget t s) := by
  unfold State.frontForget
  repeat' first | with_reducible exact h | with_reducible apply State.modFront_steady

theorem State.carryJudge_steady {s0 : State} (t : Tree) {s : State} (h : Steady s0 s) :
    Steady s0 (State.carryJudge t s) := by
  unfold State.carryJudge
  cases t
  all_goals
    repeat' first
      | with_reducible exact h | exact ⟨Nat.ne_of_beq_eq_false rfl, Nat.ne_of_beq_eq_false rfl⟩
      | exact Nat.le_of_ble_eq_true rfl | with_reducible apply State.iff_steady
      | with_reducible apply State.raise_steady | with_reducible apply State.setFld_steady

theorem State.conflictJudge_steady {s0 : State} {s : State} (h : Steady s0 s) :
    Steady s0 (State.conflictJudge s) := by
  unfold State.conflictJudge
  repeat' first
    | with_reducible assumption | exact ⟨Nat.ne_of_beq_eq_false rfl, Nat.ne_of_beq_eq_false rfl⟩
    | exact Nat.le_of_ble_eq_true rfl | intro _ | with_reducible apply Steady.ite
    | with_reducible apply State.count_steady | with_reducible apply State.iff_steady
    | with_reducible apply State.modDual_steady | with_reducible apply State.raise_steady
    | with_reducible apply State.setFld_steady

theorem State.setSel_steady {s0 : State} (t : Tree) {s : State} (h : Steady s0 s) :
    Steady s0 (State.setSel t s) := by
  unfold State.setSel
  repeat' first
    | with_reducible assumption | exact ⟨Nat.ne_of_beq_eq_false rfl, Nat.ne_of_beq_eq_false rfl⟩
    | exact Nat.le_of_ble_eq_true rfl | intro _ | with_reducible apply Steady.ite
    | with_reducible apply State.count_steady | with_reducible apply State.raise_steady
    | with_reducible apply State.setFld_steady

theorem State.selJudge_steady {s0 : State} (now : Bool) {s : State} (h : Steady s0 s) :
    Steady s0 (State.selJudge now s) := by
  unfold State.selJudge
  repeat' first
    | with_reducible assumption | intro _ | with_reducible apply Steady.ite | with_reducible apply State.setSel_steady

theorem State.dualJudge_steady {s0 : State} {s : State} (h : Steady s0 s) :
    Steady s0 (State.dualJudge s) := by
  unfold State.dualJudge
  repeat' first
    | with_reducible exact h | exact ⟨Nat.ne_of_beq_eq_false rfl, Nat.ne_of_beq_eq_false rfl⟩
    | exact Nat.le_of_ble_eq_true rfl | with_reducible apply State.carryJudge_steady
    | with_reducible apply State.conflictJudge_steady | with_reducible apply State.iff_steady
    | with_reducible apply State.raise_steady | with_reducible apply State.selJudge_steady
    | with_reducible apply State.setFld_steady | with_reducible apply State.timeJudge_steady

theorem State.showControl_steady {s0 : State} (t : Tree) {s : State} (h : Steady s0 s) :
    Steady s0 (State.showControl t s) := by
  unfold State.showControl
  repeat' first
    | with_reducible exact h | exact ⟨Nat.ne_of_beq_eq_false rfl, Nat.ne_of_beq_eq_false rfl⟩
    | exact Nat.le_of_ble_eq_true rfl | with_reducible apply State.setFld_steady

theorem State.forget_steady {s0 : State} (t : Tree) {s : State} (h : Steady s0 s) :
    Steady s0 (State.forget t s) := by
  unfold State.forget
  repeat' first
    | with_reducible assumption | exact ⟨Nat.ne_of_beq_eq_false rfl, Nat.ne_of_beq_eq_false rfl⟩
    | exact Nat.le_of_ble_eq_true rfl | intro _ | with_reducible apply Steady.ite
    | with_reducible apply State.clearTreeKeys_steady | with_reducible apply State.detachTenant_steady
    | with_reducible apply State.dropMgmtKeys_steady | with_reducible apply State.dualJudge_steady
    | with_reducible apply State.frontForget_steady | with_reducible apply State.halRetime_steady
    | with_reducible apply State.modActs_steady | with_reducible apply State.putClaim_steady
    | with_reducible apply State.raise_steady | with_reducible apply State.releaseAlloc_steady
    | with_reducible apply State.setFld_steady | with_reducible apply State.setRecord_steady
    | with_reducible apply State.showControl_steady | with_reducible apply Steady.foldl | split

theorem State.darkEntry_steady {s0 : State} (keep : Bool) (t : Tree) {s : State} (h : Steady s0 s) :
    Steady s0 (State.darkEntry keep t s) := by
  unfold State.darkEntry
  repeat' first
    | with_reducible assumption | exact ⟨Nat.ne_of_beq_eq_false rfl, Nat.ne_of_beq_eq_false rfl⟩
    | exact Nat.le_of_ble_eq_true rfl | intro _ | with_reducible apply Steady.ite
    | with_reducible apply State.count_steady | with_reducible apply State.forget_steady
    | with_reducible apply State.raise_steady | with_reducible apply State.setFld_steady
    | with_reducible apply State.setRecord_steady

theorem State.modRxs_steady {s0 : State} (r : Rx) (f : RxSt → RxSt) {s : State} (h : Steady s0 s) :
    Steady s0 (State.modRxs r f s) := by
  unfold State.modRxs
  repeat' first | with_reducible exact h | with_reducible apply State.modRx_steady

theorem State.clearFom_steady {s0 : State} (r : Rx) {s : State} (h : Steady s0 s) :
    Steady s0 (State.clearFom r s) := by
  unfold State.clearFom
  repeat' first
    | with_reducible exact h | exact ⟨Nat.ne_of_beq_eq_false rfl, Nat.ne_of_beq_eq_false rfl⟩
    | exact Nat.le_of_ble_eq_true rfl | with_reducible apply State.setFld_steady

theorem State.startAcq_steady {s0 : State} (r : Rx) {s : State} (h : Steady s0 s) :
    Steady s0 (State.startAcq r s) := by
  unfold State.startAcq
  repeat' first
    | with_reducible exact h | exact ⟨Nat.ne_of_beq_eq_false rfl, Nat.ne_of_beq_eq_false rfl⟩
    | exact Nat.le_of_ble_eq_true rfl | with_reducible apply State.clearFom_steady
    | with_reducible apply State.count_steady | with_reducible apply State.modRxs_steady
    | with_reducible apply State.setFld_steady

theorem State.rxBegin_steady {s0 : State} (r : Rx) {s : State} (h : Steady s0 s) :
    Steady s0 (State.rxBegin r s) := by
  unfold State.rxBegin
  repeat' first
    | with_reducible assumption | exact ⟨Nat.ne_of_beq_eq_false rfl, Nat.ne_of_beq_eq_false rfl⟩
    | exact Nat.le_of_ble_eq_true rfl | intro _ | with_reducible apply Steady.ite
    | with_reducible apply State.iff_steady | with_reducible apply State.raise_steady
    | with_reducible apply State.setFld_steady | with_reducible apply State.startAcq_steady

theorem State.clearSdSf_steady {s0 : State} (r : Rx) {s : State} (h : Steady s0 s) :
    Steady s0 (State.clearSdSf r s) := by
  unfold State.clearSdSf
  repeat' first
    | with_reducible exact h | exact ⟨Nat.ne_of_beq_eq_false rfl, Nat.ne_of_beq_eq_false rfl⟩
    | exact Nat.le_of_ble_eq_true rfl | with_reducible apply State.iff_steady
    | with_reducible apply State.modFrms_steady | with_reducible apply State.raise_steady
    | with_reducible apply State.setFld_steady

theorem State.lofDeclare_steady {s0 : State} (r : Rx) {s : State} (h : Steady s0 s) :
    Steady s0 (State.lofDeclare r s) := by
  unfold State.lofDeclare
  repeat' first
    | with_reducible assumption | exact ⟨Nat.ne_of_beq_eq_false rfl, Nat.ne_of_beq_eq_false rfl⟩
    | exact Nat.le_of_ble_eq_true rfl | intro _ | with_reducible apply Steady.ite
    | with_reducible apply State.clearSdSf_steady | with_reducible apply State.modFrms_steady
    | with_reducible apply State.raise_steady | with_reducible apply State.setFld_steady

theorem State.sendMark_steady {s0 : State} (r : Rx) {s : State} (h : Steady s0 s) :
    Steady s0 (State.sendMark r s) := by
  unfold State.sendMark
  repeat' first | with_reducible exact h | with_reducible apply State.modDual_steady

theorem State.fragIdle_steady {s0 : State} (r : Rx) {s : State} (h : Steady s0 s) :
    Steady s0 (State.fragIdle r s) := by
  unfold State.fragIdle
  repeat' first
    | with_reducible exact h | exact ⟨Nat.ne_of_beq_eq_false rfl, Nat.ne_of_beq_eq_false rfl⟩
    | exact Nat.le_of_ble_eq_true rfl | with_reducible apply State.modFrms_steady
    | with_reducible apply State.setFld_steady

theorem State.fragHunt_steady {s0 : State} (r : Rx) {s : State} (h : Steady s0 s) :
    Steady s0 (State.fragHunt r s) := by
  unfold State.fragHunt
  repeat' first
    | with_reducible assumption | intro _ | with_reducible apply State.count_steady
    | with_reducible apply State.fragIdle_steady | with_reducible apply State.iff_steady
    | with_reducible apply State.raise_steady | with_reducible apply State.sendMark_steady

theorem State.hdrHunt_steady {s0 : State} (r : Rx) {s : State} (h : Steady s0 s) :
    Steady s0 (State.hdrHunt r s) := by
  unfold State.hdrHunt
  repeat' first
    | with_reducible exact h | exact ⟨Nat.ne_of_beq_eq_false rfl, Nat.ne_of_beq_eq_false rfl⟩
    | exact Nat.le_of_ble_eq_true rfl | with_reducible apply State.fragHunt_steady
    | with_reducible apply State.iff_steady | with_reducible apply State.lofDeclare_steady
    | with_reducible apply State.modFrms_steady | with_reducible apply State.raise_steady
    | with_reducible apply State.setFld_steady

theorem State.alignHunt_steady {s0 : State} (r : Rx) {s : State} (h : Steady s0 s) :
    Steady s0 (State.alignHunt r s) := by
  unfold State.alignHunt
  repeat' first
    | with_reducible exact h | exact ⟨Nat.ne_of_beq_eq_false rfl, Nat.ne_of_beq_eq_false rfl⟩
    | exact Nat.le_of_ble_eq_true rfl | with_reducible apply State.hdrHunt_steady
    | with_reducible apply State.iff_steady | with_reducible apply State.lofDeclare_steady
    | with_reducible apply State.modFrms_steady | with_reducible apply State.raise_steady
    | with_reducible apply State.setFld_steady

theorem State.losDeclare_steady {s0 : State} (r : Rx) {s : State} (h : Steady s0 s) :
    Steady s0 (State.losDeclare r s) := by
  unfold State.losDeclare
  repeat' first
    | with_reducible assumption | exact ⟨Nat.ne_of_beq_eq_false rfl, Nat.ne_of_beq_eq_false rfl⟩
    | exact Nat.le_of_ble_eq_true rfl | intro _ | with_reducible apply Steady.ite
    | with_reducible apply State.clearSdSf_steady | with_reducible apply State.modFrms_steady
    | with_reducible apply State.raise_steady | with_reducible apply State.setFld_steady

theorem State.frmUnlocked_steady {s0 : State} (r : Rx) {s : State} (h : Steady s0 s) :
    Steady s0 (State.frmUnlocked r s) := by
  unfold State.frmUnlocked
  repeat' first
    | with_reducible assumption | intro _ | with_reducible apply Steady.ite
    | with_reducible apply State.alignHunt_steady | with_reducible apply State.losDeclare_steady

theorem State.rxStopFigures_steady {s0 : State} (r : Rx) {s : State} (h : Steady s0 s) :
    Steady s0 (State.rxStopFigures r s) := by
  unfold State.rxStopFigures
  repeat' first
    | with_reducible exact h | exact ⟨Nat.ne_of_beq_eq_false rfl, Nat.ne_of_beq_eq_false rfl⟩
    | exact Nat.le_of_ble_eq_true rfl | with_reducible apply State.clearFom_steady
    | with_reducible apply State.modRxs_steady | with_reducible apply State.setFld_steady

theorem State.holdJudge_steady {s0 : State} (t : Tree) (old : Option Rx) {s : State} (h : Steady s0 s) :
    Steady s0 (State.holdJudge t old s) := by
  unfold State.holdJudge
  repeat' first
    | with_reducible assumption | intro _ | with_reducible apply Steady.ite
    | with_reducible apply State.frmUnlocked_steady | with_reducible apply State.iff_steady
    | with_reducible apply State.raise_steady | with_reducible apply State.rxBegin_steady
    | with_reducible apply State.rxStopFigures_steady | with_reducible apply Steady.foldl | split

theorem State.modeCore_steady {s0 : State} (keep : Bool) (t : Tree) (m : Nat) {s : State} (h : Steady s0 s) :
    Steady s0 (State.modeCore keep t m s) := by
  unfold State.modeCore
  repeat' first
    | with_reducible assumption | exact ⟨Nat.ne_of_beq_eq_false rfl, Nat.ne_of_beq_eq_false rfl⟩
    | exact Nat.le_of_ble_eq_true rfl | intro _ | with_reducible apply Steady.ite
    | with_reducible apply State.closeWindow_steady | with_reducible apply State.count_steady
    | with_reducible apply State.darkEntry_steady | with_reducible apply State.dualJudge_steady
    | with_reducible apply State.forget_steady | with_reducible apply State.holdJudge_steady
    | with_reducible apply State.iff_steady | with_reducible apply State.modActs_steady
    | with_reducible apply State.raise_steady | with_reducible apply State.refreshPolicy_steady
    | with_reducible apply State.refreshPorts_steady | with_reducible apply State.setFld_steady
    | with_reducible apply State.setNeed_steady | with_reducible apply State.showControl_steady
    | with_reducible apply Steady.foldl | split | with_reducible apply Steady.id | dsimp only

theorem State.darkKeep_steady {s0 : State} (t : Tree) {s : State} (h : Steady s0 s) :
    Steady s0 (State.darkKeep t s) := by
  unfold State.darkKeep
  repeat' first
    | with_reducible assumption | intro _ | with_reducible apply Steady.ite
    | with_reducible apply State.modeCore_steady

theorem State.freeze_steady {s0 : State} (t : Tree) {s : State} (h : Steady s0 s) :
    Steady s0 (State.freeze t s) := by
  unfold State.freeze
  repeat' first
    | with_reducible assumption | exact ⟨Nat.ne_of_beq_eq_false rfl, Nat.ne_of_beq_eq_false rfl⟩
    | exact Nat.le_of_ble_eq_true rfl | intro _ | with_reducible apply Steady.ite
    | with_reducible apply State.clockForce_steady | with_reducible apply State.count_steady
    | with_reducible apply State.darkKeep_steady | with_reducible apply State.raise_steady
    | with_reducible apply State.setFld_steady | with_reducible apply Steady.foldl | split

theorem State.halRelease_steady {s0 : State} (t : Tree) {s : State} (h : Steady s0 s) :
    Steady s0 (State.halRelease t s) := by
  unfold State.halRelease
  repeat' first
    | with_reducible exact h | exact ⟨Nat.ne_of_beq_eq_false rfl, Nat.ne_of_beq_eq_false rfl⟩
    | exact Nat.le_of_ble_eq_true rfl | with_reducible apply State.modHals_steady
    | with_reducible apply State.setFld_steady

theorem State.halHeaderFail_steady {s0 : State} (t : Tree) {s : State} (h : Steady s0 s) :
    Steady s0 (State.halHeaderFail t s) := by
  unfold State.halHeaderFail
  repeat' first
    | with_reducible assumption | intro _ | with_reducible apply Steady.ite | with_reducible apply State.count_steady
    | with_reducible apply State.halRelease_steady

theorem State.halSync_steady {s0 : State} (t : Tree) (on : Bool) {s : State} (h : Steady s0 s) :
    Steady s0 (State.halSync t on s) := by
  unfold State.halSync
  repeat' first
    | with_reducible assumption | exact ⟨Nat.ne_of_beq_eq_false rfl, Nat.ne_of_beq_eq_false rfl⟩
    | exact Nat.le_of_ble_eq_true rfl | intro _ | with_reducible apply Steady.ite
    | with_reducible apply State.raise_steady | with_reducible apply State.setFld_steady

theorem State.halInactive_steady {s0 : State} (t : Tree) {s : State} (h : Steady s0 s) :
    Steady s0 (State.halInactive t s) := by
  unfold State.halInactive
  repeat' first
    | with_reducible assumption | exact ⟨Nat.ne_of_beq_eq_false rfl, Nat.ne_of_beq_eq_false rfl⟩
    | exact Nat.le_of_ble_eq_true rfl | intro _ | with_reducible apply Steady.ite
    | with_reducible apply State.halDone_steady | with_reducible apply State.halHeaderFail_steady
    | with_reducible apply State.halRelease_steady | with_reducible apply State.halSync_steady
    | with_reducible apply State.setFld_steady | with_reducible apply Steady.foldl | split

theorem State.halJudge_steady {s0 : State} (t : Tree) {s : State} (h : Steady s0 s) :
    Steady s0 (State.halJudge t s) := by
  unfold State.halJudge
  repeat' first
    | with_reducible assumption | exact ⟨Nat.ne_of_beq_eq_false rfl, Nat.ne_of_beq_eq_false rfl⟩
    | exact Nat.le_of_ble_eq_true rfl | intro _ | with_reducible apply Steady.ite
    | with_reducible apply State.halInactive_steady | with_reducible apply State.setFld_steady
    | with_reducible apply Steady.foldl | split

theorem State.framersMoved_steady {s0 : State} (t : Tree) {s : State} (h : Steady s0 s) :
    Steady s0 (State.framersMoved t s) := by
  unfold State.framersMoved
  repeat' first
    | with_reducible exact h | with_reducible apply State.dualJudge_steady
    | with_reducible apply State.halJudge_steady | with_reducible apply State.showControl_steady

theorem State.frmRestart_steady {s0 : State} (r : Rx) {s : State} (h : Steady s0 s) :
    Steady s0 (State.frmRestart r s) := by
  unfold State.frmRestart
  repeat' first
    | with_reducible assumption | intro _ | with_reducible apply Steady.ite
    | with_reducible apply State.alignHunt_steady | with_reducible apply State.iff_steady
    | with_reducible apply State.losDeclare_steady

theorem State.suppressPassed_steady {s0 : State} (t : Tree) {s : State} (h : Steady s0 s) :
    Steady s0 (State.suppressPassed t s) := by
  unfold State.suppressPassed
  repeat' first
    | with_reducible assumption | intro _ | with_reducible apply Steady.ite
    | with_reducible apply State.suppressLate_steady | with_reducible apply Steady.foldl | split

theorem State.unfreeze_steady {s0 : State} (t : Tree) {s : State} (h : Steady s0 s) :
    Steady s0 (State.unfreeze t s) := by
  unfold State.unfreeze
  repeat' first
    | with_reducible assumption | exact ⟨Nat.ne_of_beq_eq_false rfl, Nat.ne_of_beq_eq_false rfl⟩
    | exact Nat.le_of_ble_eq_true rfl | intro _ | with_reducible apply Steady.ite
    | with_reducible apply State.framersMoved_steady | with_reducible apply State.frmRestart_steady
    | with_reducible apply State.refreshPolicy_steady | with_reducible apply State.setFld_steady
    | with_reducible apply State.showForce_steady | with_reducible apply State.suppressPassed_steady
    | with_reducible apply Steady.foldl | split | with_reducible apply Steady.id | dsimp only

theorem State.freezeJudge_steady {s0 : State} (t : Tree) {s : State} (h : Steady s0 s) :
    Steady s0 (State.freezeJudge t s) := by
  unfold State.freezeJudge
  repeat' first
    | with_reducible assumption | intro _ | with_reducible apply Steady.ite | with_reducible apply State.freeze_steady
    | with_reducible apply State.unfreeze_steady

theorem State.linkPmJudge_steady {s0 : State} {s : State} (h : Steady s0 s) :
    Steady s0 (State.linkPmJudge s) := by
  unfold State.linkPmJudge
  repeat' first
    | with_reducible assumption | exact ⟨Nat.ne_of_beq_eq_false rfl, Nat.ne_of_beq_eq_false rfl⟩
    | exact Nat.le_of_ble_eq_true rfl | intro _ | with_reducible apply State.iff_steady
    | with_reducible apply State.setFld_steady

theorem State.clkJudgeWith_steady {s0 : State} (expired : Option Nat) {s : State} (h : Steady s0 s) :
    Steady s0 (State.clkJudgeWith expired s) := by
  unfold State.clkJudgeWith
  repeat' first
    | with_reducible assumption | intro _ | with_reducible apply Steady.ite
    | with_reducible apply State.forceLost_steady | with_reducible apply State.foutJudge_steady
    | with_reducible apply State.freezeJudge_steady | with_reducible apply State.iff_steady
    | with_reducible apply State.linkPmJudge_steady | with_reducible apply State.movePartClk_steady
    | with_reducible apply State.moveTreeClk_steady | with_reducible apply State.refreshPolicy_steady
    | with_reducible apply State.txClockBack_steady

theorem State.clkJudge_steady {s0 : State} {s : State} (h : Steady s0 s) :
    Steady s0 (State.clkJudge s) := by
  unfold State.clkJudge
  repeat' first | with_reducible exact h | with_reducible apply State.clkJudgeWith_steady

theorem State.showNotice_steady {s0 : State} (t : Tree) {s : State} (h : Steady s0 s) :
    Steady s0 (State.showNotice t s) := by
  unfold State.showNotice
  repeat' first
    | with_reducible assumption | exact ⟨Nat.ne_of_beq_eq_false rfl, Nat.ne_of_beq_eq_false rfl⟩
    | exact Nat.le_of_ble_eq_true rfl | intro _ | with_reducible apply Steady.ite
    | with_reducible apply State.setFld_steady | with_reducible apply Steady.foldl | split

theorem State.modNotice_steady {s0 : State} (t : Tree) (id : Nat) (f : Notice → Notice) {s : State} (h : Steady s0
    s) :
       Steady s0 (State.modNotice t id f s) := by
  unfold State.modNotice
  repeat' first
    | with_reducible exact h | with_reducible apply State.modActs_steady
    | with_reducible apply State.showNotice_steady

theorem State.ackNotice_steady {s0 : State} (t : Tree) (id : Nat) {s : State} (h : Steady s0 s) :
    Steady s0 (State.ackNotice t id s) := by
  unfold State.ackNotice
  repeat' first
    | with_reducible assumption | intro _ | with_reducible apply Steady.ite
    | with_reducible apply State.modNotice_steady | with_reducible apply State.raise_steady

theorem State.laneFix_steady {s0 : State} (r : Rx) (order : Nat) (signs : Nat) {s : State} (h : Steady s0 s) :
    Steady s0 (State.laneFix r order signs s) := by
  unfold State.laneFix
  repeat' first
    | with_reducible assumption | exact ⟨Nat.ne_of_beq_eq_false rfl, Nat.ne_of_beq_eq_false rfl⟩
    | exact Nat.le_of_ble_eq_true rfl | intro _ | with_reducible apply Steady.ite
    | with_reducible apply State.iff_steady | with_reducible apply State.modRxs_steady
    | with_reducible apply State.raise_steady | with_reducible apply State.setFld_steady

theorem State.setClkGood_steady {s0 : State} (k : Nat) (on : Bool) {s : State} (h : Steady s0 s) :
    Steady s0 (State.setClkGood k on s) := by
  unfold State.setClkGood
  repeat' first
    | with_reducible assumption | exact ⟨Nat.ne_of_beq_eq_false rfl, Nat.ne_of_beq_eq_false rfl⟩
    | exact Nat.le_of_ble_eq_true rfl | intro _ | with_reducible apply Steady.ite
    | with_reducible apply State.iff_steady | with_reducible apply State.modClk_steady
    | with_reducible apply State.setFld_steady | with_reducible apply State.setTf_steady
    | with_reducible apply Steady.foldl | split | with_reducible apply Steady.id | dsimp only

theorem State.clkLose_steady {s0 : State} (k : Nat) {s : State} (h : Steady s0 s) :
    Steady s0 (State.clkLose k s) := by
  unfold State.clkLose
  repeat' first
    | with_reducible assumption | intro _ | with_reducible apply Steady.ite
    | with_reducible apply State.clkJudge_steady | with_reducible apply State.count_steady
    | with_reducible apply State.setClkGood_steady | with_reducible apply State.setTf_steady

theorem State.clkFollow_steady {s0 : State} {s : State} (h : Steady s0 s) :
    Steady s0 (State.clkFollow s) := by
  unfold State.clkFollow
  repeat' first
    | with_reducible assumption | intro _ | with_reducible apply Steady.ite
    | with_reducible apply State.clkJudge_steady | with_reducible apply State.clkLose_steady
    | with_reducible apply State.iff_steady | with_reducible apply Steady.foldl | split

theorem State.modeStep_steady {s0 : State} (t : Tree) (m : Nat) {s : State} (h : Steady s0 s) :
    Steady s0 (State.modeStep t m s) := by
  unfold State.modeStep
  repeat' first
    | with_reducible assumption | intro _ | with_reducible apply Steady.ite
    | with_reducible apply State.clkFollow_steady | with_reducible apply State.modeCore_steady

theorem State.noteHalLevel_steady {s0 : State} (t : Tree) {s : State} (h : Steady s0 s) :
    Steady s0 (State.noteHalLevel t s) := by
  unfold State.noteHalLevel
  repeat' first | with_reducible exact h | with_reducible apply State.modHals_steady

theorem State.noteLaunch_steady {s0 : State} (t : Tree) {s : State} (h : Steady s0 s) :
    Steady s0 (State.noteLaunch t s) := by
  unfold State.noteLaunch
  repeat' first | with_reducible exact h | with_reducible apply State.modTxs_steady

theorem State.setTrim_steady {s0 : State} (t : Tree) (v : Int) {s : State} (h : Steady s0 s) :
    Steady s0 (State.setTrim t v s) := by
  unfold State.setTrim
  repeat' first
    | with_reducible exact h | exact ⟨Nat.ne_of_beq_eq_false rfl, Nat.ne_of_beq_eq_false rfl⟩
    | exact Nat.le_of_ble_eq_true rfl | with_reducible apply State.modTxs_steady
    | with_reducible apply State.noteHalLevel_steady | with_reducible apply State.noteLaunch_steady
    | with_reducible apply State.setSFld_steady

theorem State.setMode_steady {s0 : State} (t : Tree) (m : Nat) {s : State} (h : Steady s0 s) :
    Steady s0 (State.setMode t m s) := by
  unfold State.setMode
  repeat' first
    | with_reducible assumption | intro _ | with_reducible apply Steady.ite
    | with_reducible apply State.modeStep_steady | with_reducible apply State.setTrim_steady
    | with_reducible apply Steady.foldl | split

theorem State.recordQuarantine_steady {s0 : State} (t : Tree) {s : State} (h : Steady s0 s) :
    Steady s0 (State.recordQuarantine t s) := by
  unfold State.recordQuarantine
  repeat' first | with_reducible exact h | with_reducible apply State.putTw_steady

theorem State.clearRogue_steady {s0 : State} (t : Tree) {s : State} (h : Steady s0 s) :
    Steady s0 (State.clearRogue t s) := by
  unfold State.clearRogue
  repeat' first
    | with_reducible assumption | exact ⟨Nat.ne_of_beq_eq_false rfl, Nat.ne_of_beq_eq_false rfl⟩
    | exact Nat.le_of_ble_eq_true rfl | intro _ | with_reducible apply Steady.ite
    | with_reducible apply State.modTxs_steady | with_reducible apply State.refreshPolicy_steady
    | with_reducible apply State.setFld_steady | with_reducible apply State.showForce_steady

theorem State.leaveQuarantine_steady {s0 : State} (t : Tree) {s : State} (h : Steady s0 s) :
    Steady s0 (State.leaveQuarantine t s) := by
  unfold State.leaveQuarantine
  repeat' first
    | with_reducible exact h | exact ⟨Nat.ne_of_beq_eq_false rfl, Nat.ne_of_beq_eq_false rfl⟩
    | exact Nat.le_of_ble_eq_true rfl | with_reducible apply State.clearRogue_steady
    | with_reducible apply State.forget_steady | with_reducible apply State.putTw_steady
    | with_reducible apply State.setFld_steady | with_reducible apply State.setMode_steady

theorem State.betweenBursts_steady {s0 : State} (t : Tree) {s : State} (h : Steady s0 s) :
    Steady s0 (State.betweenBursts t s) := by
  unfold State.betweenBursts
  repeat' first
    | with_reducible assumption | intro _ | with_reducible apply Steady.ite
    | with_reducible apply State.laneIdle_steady | with_reducible apply State.tune_steady
    | with_reducible apply Steady.foldl | split | with_reducible apply Steady.id | dsimp only

theorem State.reportFreq_steady {s0 : State} (t : Tree) (bytes : Nat) {s : State} (h : Steady s0 s) :
    Steady s0 (State.reportFreq t bytes s) := by
  unfold State.reportFreq
  repeat' first
    | with_reducible exact h | exact ⟨Nat.ne_of_beq_eq_false rfl, Nat.ne_of_beq_eq_false rfl⟩
    | exact Nat.le_of_ble_eq_true rfl | with_reducible apply State.modTxs_steady
    | with_reducible apply State.putReg_steady

theorem State.setEqdPending_steady {s0 : State} (t : Tree) (eqd : Nat) (apply : Nat) (carried : Nat) {s : State} (h
    : Steady s0 s) :
       Steady s0 (State.setEqdPending t eqd apply carried s) := by
  unfold State.setEqdPending
  repeat' first
    | with_reducible exact h | exact ⟨Nat.ne_of_beq_eq_false rfl, Nat.ne_of_beq_eq_false rfl⟩
    | exact Nat.le_of_ble_eq_true rfl | with_reducible apply State.halRetime_steady
    | with_reducible apply State.modActs_steady | with_reducible apply State.setFld_steady

theorem State.growFrame_steady {s0 : State} (id : Nat) (n : Nat) {s : State} (h : Steady s0 s) :
    Steady s0 (State.growFrame id n s) := by
  unfold State.growFrame
  repeat' first
    | with_reducible assumption | intro _ | with_reducible apply Steady.ite
    | with_reducible apply State.drawCells_steady | with_reducible apply State.iff_steady
    | with_reducible apply State.pfcFor_steady | with_reducible apply State.putFrame_steady
    | with_reducible apply State.returnCells_steady | with_reducible apply Steady.foldl | split

theorem State.dropEmpty_steady {s0 : State} (id : Nat) {s : State} (h : Steady s0 s) :
    Steady s0 (State.dropEmpty id s) := by
  unfold State.dropEmpty
  repeat' first
    | with_reducible assumption | intro _ | with_reducible apply Steady.ite
    | with_reducible apply State.freeFrame_steady | with_reducible apply Steady.foldl | split

theorem State.joinCopy_steady {s0 : State} {s : State} (c : Copy) (h : Steady s0 s) :
    Steady s0 (State.joinCopy s c) := by
  unfold State.joinCopy
  repeat' first
    | with_reducible assumption | intro _ | with_reducible apply Steady.ite
    | with_reducible apply State.appendCopy_steady | with_reducible apply State.count_steady
    | with_reducible apply State.endCopy_steady | with_reducible apply State.joinDown_steady
    | with_reducible apply State.joinShared_steady | with_reducible apply State.modSto_steady
    | with_reducible apply State.setQueueBytes_steady | with_reducible apply State.showQueue_steady

theorem State.stampCopies_steady {s0 : State} (id : Nat) {s : State} (h : Steady s0 s) :
    Steady s0 (State.stampCopies id s) := by
  unfold State.stampCopies
  repeat' first | with_reducible exact h | with_reducible apply State.modSto_steady

theorem State.endFrame_steady {s0 : State} (id : Nat) (err : Bool) (poolEmpty : Bool) {s : State} (h : Steady s0 s) :
    Steady s0 (State.endFrame id err poolEmpty s) := by
  unfold State.endFrame
  repeat' first
    | with_reducible assumption | intro _ | with_reducible apply Steady.ite
    | with_reducible apply State.dropEmpty_steady | with_reducible apply State.dropFrameCopies_steady
    | with_reducible apply State.growFrame_steady | with_reducible apply State.iff_steady
    | with_reducible apply State.joinCopy_steady | with_reducible apply State.modFrame_steady
    | with_reducible apply State.stampCopies_steady | with_reducible apply Steady.foldl | split

theorem State.forgetAct_steady {s0 : State} (id : Nat) {s : State} (h : Steady s0 s) :
    Steady s0 (State.forgetAct id s) := by
  unfold State.forgetAct
  repeat' first | with_reducible exact h | with_reducible apply State.modCls_steady

theorem State.wredAverage_steady {s0 : State} (f : Frame) (q : Nat) {s : State} (h : Steady s0 s) :
    Steady s0 (State.wredAverage f q s) := by
  unfold State.wredAverage
  repeat' first | with_reducible exact h | with_reducible apply State.putTw_steady

theorem State.wred_steady {s0 : State} (f : Frame) (q : Nat) (colour : Nat) {s : State} (h : Steady s0 s) :
    Steady s0 (State.wred f q colour s).1 := by
  unfold State.wred
  repeat' first
    | with_reducible assumption | intro _ | with_reducible apply Steady.ite | with_reducible apply Steady.ite_fst
    | with_reducible apply State.raise_steady | with_reducible apply State.useFree_steady

theorem State.holdCopy_steady {s0 : State} (id : Nat) (c : Copy) {s : State} (h : Steady s0 s) :
    Steady s0 (State.holdCopy id c s) := by
  unfold State.holdCopy
  repeat' first
    | with_reducible exact h | with_reducible apply State.modFrame_steady
    | with_reducible apply State.setQueueBytes_steady | with_reducible apply State.takeRef_steady

theorem State.admitUp_steady {s0 : State} (id : Nat) (c : Copy) {s : State} (h : Steady s0 s) :
    Steady s0 (State.admitUp id c s) := by
  unfold State.admitUp
  repeat' first
    | with_reducible assumption | intro _ | with_reducible apply Steady.ite | with_reducible apply State.count_steady
    | with_reducible apply State.holdCopy_steady | with_reducible apply State.iff_steady
    | with_reducible apply State.setTf_steady | with_reducible apply Steady.foldl | split

theorem State.decideCopy_steady {s0 : State} (id : Nat) (c : Classified) {s : State} (d : CopyDest) (h : Steady s0
    s) :
       Steady s0 (State.decideCopy id c s d) := by
  unfold State.decideCopy
  repeat' first
    | with_reducible assumption | intro _ | with_reducible apply Steady.ite
    | with_reducible apply State.admitUp_steady | with_reducible apply State.count_steady
    | with_reducible apply State.countBy_steady | with_reducible apply State.holdCopy_steady
    | with_reducible apply State.joinDown_steady | with_reducible apply State.raiseMs_steady
    | with_reducible apply State.setQueueBytes_steady | with_reducible apply State.takeRef_steady
    | with_reducible apply State.wred_steady | with_reducible apply State.wredAverage_steady
    | with_reducible apply Steady.foldl | split

theorem State.offerSample_steady {s0 : State} (id : Nat) (c : Classified) {s : State} (h : Steady s0 s) :
    Steady s0 (State.offerSample id c s) := by
  unfold State.offerSample
  repeat' first
    | with_reducible assumption | intro _ | with_reducible apply Steady.ite | with_reducible apply State.count_steady
    | with_reducible apply State.holdCopy_steady | with_reducible apply State.modSto_steady
    | with_reducible apply State.putTw_steady | with_reducible apply State.raiseMs_steady
    | with_reducible apply Steady.foldl | split

theorem State.decideFrame_steady {s0 : State} (id : Nat) (c : Classified) {s : State} (h : Steady s0 s) :
    Steady s0 (State.decideFrame id c s) := by
  unfold State.decideFrame
  repeat' first
    | with_reducible assumption | intro _ | with_reducible apply Steady.ite | with_reducible apply State.count_steady
    | with_reducible apply State.decideCopy_steady | with_reducible apply State.dropEmpty_steady
    | with_reducible apply State.iff_steady | with_reducible apply State.modFrame_steady
    | with_reducible apply State.offerSample_steady | with_reducible apply Steady.foldl | split

theorem State.decideNow_steady {s0 : State} (id : Nat) {s : State} (h : Steady s0 s) :
    Steady s0 (State.decideNow id s) := by
  unfold State.decideNow
  repeat' first
    | with_reducible assumption | intro _ | with_reducible apply Steady.ite
    | with_reducible apply State.decideFrame_steady | with_reducible apply State.forgetAct_steady
    | with_reducible apply State.freeFrame_steady | with_reducible apply Steady.foldl | split

theorem State.admitEnd_steady {s0 : State} (id : Nat) (err : Bool) (poolEmpty : Bool) {s : State} (h : Steady s0 s) :
    Steady s0 (State.admitEnd id err poolEmpty s) := by
  unfold State.admitEnd
  repeat' first
    | with_reducible assumption | intro _ | with_reducible apply Steady.ite
    | with_reducible apply State.decideNow_steady | with_reducible apply State.endFrame_steady
    | with_reducible apply State.modFrame_steady | with_reducible apply State.modUni_steady
    | with_reducible apply Steady.foldl | split

theorem State.forgetCells_steady {s0 : State} (id : Nat) {s : State} (h : Steady s0 s) :
    Steady s0 (State.forgetCells id s) := by
  unfold State.forgetCells
  repeat' first | with_reducible exact h | with_reducible apply State.modSto_steady

theorem State.admitStart_steady {s0 : State} (a : AdmitReq) (prio : Nat) {s : State} (h : Steady s0 s) :
    Steady s0 (State.admitStart a prio s).1 := by
  unfold State.admitStart
  repeat' first
    | with_reducible assumption | intro _ | with_reducible apply Steady.ite | with_reducible apply Steady.ite_fst
    | with_reducible apply State.count_steady | with_reducible apply State.forgetCells_steady
    | with_reducible apply State.growFrame_steady | with_reducible apply State.iff_steady
    | with_reducible apply State.modSto_steady | with_reducible apply State.putFrame_steady
    | with_reducible apply State.returnCells_steady

theorem State.alignStep_steady {s0 : State} (r : Rx) (w : Nat) {s : State} (h : Steady s0 s) :
    Steady s0 (State.alignStep r w s) := by
  unfold State.alignStep
  repeat' first
    | with_reducible assumption | exact ⟨Nat.ne_of_beq_eq_false rfl, Nat.ne_of_beq_eq_false rfl⟩
    | exact Nat.le_of_ble_eq_true rfl | intro _ | with_reducible apply Steady.ite
    | with_reducible apply State.alignHunt_steady | with_reducible apply State.modFrms_steady
    | with_reducible apply State.raise_steady | with_reducible apply State.setFld_steady
    | with_reducible apply Steady.foldl | split

theorem State.applyEqd_steady {s0 : State} (t : Tree) {s : State} (h : Steady s0 s) :
    Steady s0 (State.applyEqd t s) := by
  unfold State.applyEqd
  repeat' first
    | with_reducible exact h | exact ⟨Nat.ne_of_beq_eq_false rfl, Nat.ne_of_beq_eq_false rfl⟩
    | exact Nat.le_of_ble_eq_true rfl | with_reducible apply State.count_steady
    | with_reducible apply State.iff_steady | with_reducible apply State.modActs_steady
    | with_reducible apply State.raise_steady | with_reducible apply State.setFld_steady
    | with_reducible apply State.setMode_steady | with_reducible apply State.setRecord_steady

theorem State.applyLaunch_steady {s0 : State} (t : Tree) (w : Word) (t0 : Nat) {s : State} (h : Steady s0 s) :
    Steady s0 (State.applyLaunch t w t0 s) := by
  unfold State.applyLaunch
  repeat' first
    | with_reducible exact h | exact ⟨Nat.ne_of_beq_eq_false rfl, Nat.ne_of_beq_eq_false rfl⟩
    | exact Nat.le_of_ble_eq_true rfl | with_reducible apply State.iff_steady
    | with_reducible apply State.raise_steady | with_reducible apply State.setFld_steady
    | with_reducible apply State.setSFld_steady

theorem State.applyMaxIter_steady {s0 : State} (r : Rx) {s : State} (h : Steady s0 s) :
    Steady s0 (State.applyMaxIter r s) := by
  unfold State.applyMaxIter
  repeat' first
    | with_reducible exact h | exact ⟨Nat.ne_of_beq_eq_false rfl, Nat.ne_of_beq_eq_false rfl⟩
    | exact Nat.le_of_ble_eq_true rfl | with_reducible apply State.modRxs_steady
    | with_reducible apply State.setFld_steady

theorem State.enterDark_steady {s0 : State} (t : Tree) {s : State} (h : Steady s0 s) :
    Steady s0 (State.enterDark t s) := by
  unfold State.enterDark
  repeat' first
    | with_reducible assumption | intro _ | with_reducible apply Steady.ite
    | with_reducible apply State.setMode_steady

theorem State.lineJudge_steady {s0 : State} (t : Tree) {s : State} {s3 : State} (h : Steady s0 s) (h3 : Steady s0
    s3) :
       Steady s0 (State.lineJudge t s s3) := by
  unfold State.lineJudge
  repeat' first
    | with_reducible assumption | intro _ | with_reducible apply State.breakTrim_steady
    | with_reducible apply State.clkJudge_steady | with_reducible apply State.dualJudge_steady
    | with_reducible apply State.enterDark_steady | with_reducible apply State.halJudge_steady
    | with_reducible apply State.iff_steady | with_reducible apply State.showControl_steady

theorem State.lineDo_steady {s0 : State} (r : Rx) {f : State → State} {s : State} (h : Steady s0 s) (h2 : ∀ y0,
    Steady s0 y0 → Steady s0 (f y0)) :
       Steady s0 (State.lineDo r f s) := by
  unfold State.lineDo
  repeat' first | with_reducible exact h | with_reducible apply State.lineJudge_steady | with_reducible apply h2

theorem State.frmStop_steady {s0 : State} (r : Rx) {s : State} (h : Steady s0 s) :
    Steady s0 (State.frmStop r s) := by
  unfold State.frmStop
  repeat' first
    | with_reducible exact h | exact ⟨Nat.ne_of_beq_eq_false rfl, Nat.ne_of_beq_eq_false rfl⟩
    | exact Nat.le_of_ble_eq_true rfl | with_reducible apply State.alignHunt_steady
    | with_reducible apply State.iff_steady | with_reducible apply State.modFrms_steady
    | with_reducible apply State.putReg_steady | with_reducible apply State.sendMark_steady

theorem State.halCancelAll_steady {s0 : State} (t : Tree) {s : State} (h : Steady s0 s) :
    Steady s0 (State.halCancelAll t s) := by
  unfold State.halCancelAll
  repeat' first
    | with_reducible assumption | intro _ | with_reducible apply Steady.ite
    | with_reducible apply State.halDone_steady | with_reducible apply Steady.foldl | split

theorem State.halStop_steady {s0 : State} (t : Tree) {s : State} (h : Steady s0 s) :
    Steady s0 (State.halStop t s) := by
  unfold State.halStop
  repeat' first
    | with_reducible exact h | with_reducible apply State.halCancelAll_steady
    | with_reducible apply State.halInactive_steady | with_reducible apply State.halRefusePins_steady

theorem State.enterDarkKeep_steady {s0 : State} (t : Tree) {s : State} (h : Steady s0 s) :
    Steady s0 (State.enterDarkKeep t s) := by
  unfold State.enterDarkKeep
  repeat' first
    | with_reducible assumption | intro _ | with_reducible apply Steady.ite
    | with_reducible apply State.clkFollow_steady | with_reducible apply State.darkKeep_steady
    | with_reducible apply State.refreshPolicy_steady | with_reducible apply Steady.foldl | split
    | with_reducible apply Steady.id | dsimp only

theorem State.suppressWaiting_steady {s0 : State} (t : Tree) {s : State} (h : Steady s0 s) :
    Steady s0 (State.suppressWaiting t s) := by
  unfold State.suppressWaiting
  repeat' first
    | with_reducible assumption | intro _ | with_reducible apply Steady.ite | with_reducible apply State.count_steady
    | with_reducible apply State.raiseMs_steady | with_reducible apply State.removeGrant_steady
    | with_reducible apply Steady.foldl | split

theorem State.timeStop_steady {s0 : State} {s : State} (h : Steady s0 s) :
    Steady s0 (State.timeStop s) := by
  unfold State.timeStop
  repeat' first
    | with_reducible exact h | exact ⟨Nat.ne_of_beq_eq_false rfl, Nat.ne_of_beq_eq_false rfl⟩
    | exact Nat.le_of_ble_eq_true rfl | with_reducible apply State.modTime_steady
    | with_reducible apply State.setFld_steady | with_reducible apply State.timeJudge_steady

theorem State.putSram_steady {s0 : State} (x1 : Nat) (x2 : Bytes) {s : State} (h : Steady s0 s) :
    Steady s0 (State.putSram x1 x2 s) := by
  induction x2 generalizing x1 s with
  | nil => exact h
  | cons x l ih =>
    unfold State.putSram
    repeat' first | with_reducible exact h | with_reducible apply ih | with_reducible apply State.modSram_steady

theorem State.clearParts_steady {s0 : State} (k : Nat) {s : State} (h : Steady s0 s) :
    Steady s0 (State.clearParts k s) := by
  unfold State.clearParts
  repeat' first | with_reducible exact h | with_reducible apply State.modDual_steady

theorem State.dropPlain_steady {s0 : State} (k : Nat) {s : State} (h : Steady s0 s) :
    Steady s0 (State.dropPlain k s) := by
  unfold State.dropPlain
  repeat' first
    | with_reducible exact h | with_reducible apply State.clearParts_steady
    | with_reducible apply State.returnCells_steady

theorem State.freeLine_steady {s0 : State} (f : LineFrag) {s : State} (h : Steady s0 s) :
    Steady s0 (State.freeLine f s) := by
  unfold State.freeLine
  repeat' first | with_reducible exact h | with_reducible apply State.returnCells_steady

theorem State.dropPassed_steady {s0 : State} (f : LineFrag) {s : State} (h : Steady s0 s) :
    Steady s0 (State.dropPassed f s) := by
  unfold State.dropPassed
  repeat' first
    | with_reducible exact h | with_reducible apply State.freeLine_steady | with_reducible apply State.modDual_steady

theorem State.dropContext_steady {s0 : State} (k : Nat) {s : State} (h : Steady s0 s) :
    Steady s0 (State.dropContext k s) := by
  unfold State.dropContext
  repeat' first
    | with_reducible assumption | intro _ | with_reducible apply Steady.ite
    | with_reducible apply State.dropPassed_steady | with_reducible apply State.dropPlain_steady
    | with_reducible apply Steady.foldl | split

theorem State.setProgress_steady {s0 : State} (k : Nat) (p : Option Nat) {s : State} (h : Steady s0 s) :
    Steady s0 (State.setProgress k p s) := by
  unfold State.setProgress
  repeat' first | with_reducible exact h | with_reducible apply State.modDual_steady

theorem State.dropLine_steady {s0 : State} (frag : Nat) (frame : Nat) {s : State} (h : Steady s0 s) :
    Steady s0 (State.dropLine frag frame s) := by
  unfold State.dropLine
  repeat' first
    | with_reducible assumption | intro _ | with_reducible apply Steady.ite | with_reducible apply State.count_steady
    | with_reducible apply State.dropContext_steady | with_reducible apply State.freeLine_steady
    | with_reducible apply State.modDual_steady | with_reducible apply State.setProgress_steady
    | with_reducible apply Steady.foldl | split

theorem State.dropDual_steady {s0 : State} {s : State} (h : Steady s0 s) :
    Steady s0 (State.dropDual s) := by
  unfold State.dropDual
  repeat' first | with_reducible exact h | with_reducible apply State.dropLine_steady

theorem State.flushMerge_steady {s0 : State} {s : State} (h : Steady s0 s) :
    Steady s0 (State.flushMerge s) := by
  unfold State.flushMerge
  repeat' first
    | with_reducible assumption | intro _ | with_reducible apply Steady.ite
    | with_reducible apply State.dropMerge_steady | with_reducible apply Steady.foldl | split

theorem State.showKeystore_steady {s0 : State} {s : State} (h : Steady s0 s) :
    Steady s0 (State.showKeystore s) := by
  unfold State.showKeystore
  repeat' first
    | with_reducible exact h | exact ⟨Nat.ne_of_beq_eq_false rfl, Nat.ne_of_beq_eq_false rfl⟩
    | exact Nat.le_of_ble_eq_true rfl | with_reducible apply State.setFld_steady

theorem State.timeClearHost_steady {s0 : State} {s : State} (h : Steady s0 s) :
    Steady s0 (State.timeClearHost s) := by
  unfold State.timeClearHost
  repeat' first
    | with_reducible exact h | with_reducible apply State.hostEnd_steady | with_reducible apply State.timeJudge_steady

theorem State.frmStart_steady {s0 : State} (r : Rx) {s : State} (h : Steady s0 s) :
    Steady s0 (State.frmStart r s) := by
  unfold State.frmStart
  repeat' first
    | with_reducible exact h | with_reducible apply State.iff_steady | with_reducible apply State.losDeclare_steady
    | with_reducible apply State.modFrms_steady | with_reducible apply State.raise_steady

theorem State.txBegin_steady {s0 : State} (t : Tree) {s : State} (h : Steady s0 s) :
    Steady s0 (State.txBegin t s) := by
  unfold State.txBegin
  repeat' first
    | with_reducible assumption | intro _ | with_reducible apply Steady.ite | with_reducible apply State.iff_steady
    | with_reducible apply State.raise_steady | with_reducible apply State.refreshPolicy_steady
    | with_reducible apply State.tune_steady

theorem State.timeStart_steady {s0 : State} {s : State} (h : Steady s0 s) :
    Steady s0 (State.timeStart s) := by
  unfold State.timeStart
  repeat' first
    | with_reducible exact h | with_reducible apply State.modTime_steady | with_reducible apply State.timeJudge_steady

theorem State.firmwareBack_steady {s0 : State} (t : Tree) {s : State} (h : Steady s0 s) :
    Steady s0 (State.firmwareBack t s) := by
  unfold State.firmwareBack
  repeat' first
    | with_reducible assumption | intro _ | with_reducible apply State.iff_steady
    | with_reducible apply State.modActs_steady | with_reducible apply State.setMode_steady

theorem State.halLevelRestored_steady {s0 : State} (t : Tree) {s : State} (h : Steady s0 s) :
    Steady s0 (State.halLevelRestored t s) := by
  unfold State.halLevelRestored
  repeat' first | with_reducible exact h | with_reducible apply State.modHals_steady

theorem State.launchRestored_steady {s0 : State} (t : Tree) {s : State} (h : Steady s0 s) :
    Steady s0 (State.launchRestored t s) := by
  unfold State.launchRestored
  repeat' first | with_reducible exact h | with_reducible apply State.modTxs_steady

theorem State.timeSetCmd_steady {s0 : State} {s : State} (h : Steady s0 s) :
    Steady s0 (State.timeSetCmd s) := by
  unfold State.timeSetCmd
  repeat' first
    | with_reducible assumption | intro _ | with_reducible apply Steady.ite
    | with_reducible apply State.ignored_steady | with_reducible apply State.modTime_steady
    | with_reducible apply Steady.foldl | split

theorem State.halOffsetJudge_steady {s0 : State} (t : Tree) (was : Bool) {s : State} (h : Steady s0 s) :
    Steady s0 (State.halOffsetJudge t was s) := by
  unfold State.halOffsetJudge
  repeat' first
    | with_reducible assumption | intro _ | with_reducible apply Steady.ite
    | with_reducible apply State.halCancelAll_steady | with_reducible apply State.halInactive_steady
    | with_reducible apply State.halJudge_steady | with_reducible apply State.iff_steady
    | with_reducible apply State.raise_steady

theorem State.halAbort_steady {s0 : State} (t : Tree) (j : HalJob) {s : State} (h : Steady s0 s) :
    Steady s0 (State.halAbort t j s) := by
  unfold State.halAbort
  repeat' first
    | with_reducible assumption | exact ⟨Nat.ne_of_beq_eq_false rfl, Nat.ne_of_beq_eq_false rfl⟩
    | exact Nat.le_of_ble_eq_true rfl | (refine ⟨?_, ?_⟩ <;> simp only [halStateFld, halResultFld] <;> decide)
    | intro _ | with_reducible apply Steady.ite | with_reducible apply State.count_steady
    | with_reducible apply State.halDone_steady | with_reducible apply State.halUnpin_steady
    | with_reducible apply State.iff_steady | with_reducible apply State.modHalJob_steady
    | with_reducible apply State.raise_steady | with_reducible apply State.setFld_steady

theorem State.halQueue_steady {s0 : State} (t : Tree) (slot : Nat) (j : HalJob) {s : State} (h : Steady s0 s) :
    Steady s0 (State.halQueue t slot j s) := by
  unfold State.halQueue
  repeat' first
    | with_reducible exact h | exact ⟨Nat.ne_of_beq_eq_false rfl, Nat.ne_of_beq_eq_false rfl⟩
    | exact Nat.le_of_ble_eq_true rfl | (refine ⟨?_, ?_⟩ <;> simp only [halStateFld, halResultFld] <;> decide)
    | with_reducible apply State.modHals_steady | with_reducible apply State.setFld_steady

theorem State.halSubmit_steady {s0 : State} (t : Tree) (slot : Nat) {s : State} (h : Steady s0 s) :
    Steady s0 (State.halSubmit t slot s) := by
  unfold State.halSubmit
  repeat' first
    | with_reducible assumption | exact ⟨Nat.ne_of_beq_eq_false rfl, Nat.ne_of_beq_eq_false rfl⟩
    | exact Nat.le_of_ble_eq_true rfl | intro _ | with_reducible apply Steady.ite
    | with_reducible apply State.halAbort_steady | with_reducible apply State.halDone_steady
    | with_reducible apply State.halQueue_steady | with_reducible apply State.raise_steady
    | with_reducible apply State.setFld_steady | with_reducible apply State.useFree_steady
    | with_reducible apply Steady.foldl | split

theorem State.halCancel_steady {s0 : State} (t : Tree) (slot : Nat) {s : State} (h : Steady s0 s) :
    Steady s0 (State.halCancel t slot s) := by
  unfold State.halCancel
  repeat' first
    | with_reducible assumption | intro _ | with_reducible apply Steady.ite
    | with_reducible apply State.halDone_steady | with_reducible apply Steady.foldl | split

theorem State.putKstSlot_steady {s0 : State} (n : Nat) (m : Sparse Word) {s : State} (h : Steady s0 s) :
    Steady s0 (State.putKstSlot n m s) := by
  unfold State.putKstSlot
  repeat' first | with_reducible exact h | with_reducible apply State.modKst_steady

theorem State.kstCommit_steady {s0 : State} {s : State} (h : Steady s0 s) :
    Steady s0 (State.kstCommit s) := by
  unfold State.kstCommit
  repeat' first
    | with_reducible assumption | exact ⟨Nat.ne_of_beq_eq_false rfl, Nat.ne_of_beq_eq_false rfl⟩
    | exact Nat.le_of_ble_eq_true rfl | intro _ | with_reducible apply Steady.ite
    | with_reducible apply State.count_steady | with_reducible apply State.ignored_steady
    | with_reducible apply State.modKst_steady | with_reducible apply State.putKstSlot_steady
    | with_reducible apply State.setFld_steady

theorem State.kstGenkey_steady {s0 : State} {s : State} (h : Steady s0 s) :
    Steady s0 (State.kstGenkey s) := by
  unfold State.kstGenkey
  repeat' first
    | with_reducible assumption | exact ⟨Nat.ne_of_beq_eq_false rfl, Nat.ne_of_beq_eq_false rfl⟩
    | exact Nat.le_of_ble_eq_true rfl | intro _ | with_reducible apply Steady.ite
    | with_reducible apply State.ignored_steady | with_reducible apply State.modKst_steady
    | with_reducible apply State.setFld_steady

theorem State.bindAlloc_steady {s0 : State} (t : Tree) (a : Nat) (id : Nat) (tenant : Nat) (services : Nat) (mgmt :
    Bool) {s : State} (h : Steady s0 s) :
       Steady s0 (State.bindAlloc t a id tenant services mgmt s) := by
  unfold State.bindAlloc
  repeat' first | with_reducible exact h | with_reducible apply State.putEntry_steady

theorem State.attachTenant_steady {s0 : State} (t : Tree) (n : Nat) (uid : Nat) (services : Nat) (lifeline : Bool)
    {s : State} (h : Steady s0 s) :
       Steady s0 (State.attachTenant t n uid services lifeline s) := by
  unfold State.attachTenant
  repeat' first
    | with_reducible assumption | exact ⟨Nat.ne_of_beq_eq_false rfl, Nat.ne_of_beq_eq_false rfl⟩
    | exact Nat.le_of_ble_eq_true rfl | (simp only [tenantEnFld]; omega) | intro _
    | with_reducible apply State.iff_steady | with_reducible apply State.putEntry_steady
    | with_reducible apply State.setFld_steady

theorem State.showHeader_steady {s0 : State} (r : Rx) (x2 : FrameHdr) {s : State} (h : Steady s0 s) :
    Steady s0 (State.showHeader r x2 s) := by
  unfold State.showHeader
  repeat' first
    | with_reducible exact h | exact ⟨Nat.ne_of_beq_eq_false rfl, Nat.ne_of_beq_eq_false rfl⟩
    | exact Nat.le_of_ble_eq_true rfl | with_reducible apply State.iff_steady
    | with_reducible apply State.modFrms_steady | with_reducible apply State.raise_steady
    | with_reducible apply State.setFld_steady

theorem State.frameFrag_steady {s0 : State} (r : Rx) (x2 : FrameHdr) {s : State} (h : Steady s0 s) :
    Steady s0 (State.frameFrag r x2 s) := by
  unfold State.frameFrag
  repeat' first
    | with_reducible assumption | exact ⟨Nat.ne_of_beq_eq_false rfl, Nat.ne_of_beq_eq_false rfl⟩
    | exact Nat.le_of_ble_eq_true rfl | intro _ | with_reducible apply Steady.ite
    | with_reducible apply State.fragIdle_steady | with_reducible apply State.modFrms_steady
    | with_reducible apply State.setFld_steady | with_reducible apply Steady.foldl | split

theorem State.beginFrame_steady {s0 : State} (r : Rx) (x2 : FrameHdr) {s : State} (h : Steady s0 s) :
    Steady s0 (State.beginFrame r x2 s) := by
  unfold State.beginFrame
  repeat' first
    | with_reducible assumption | intro _ | with_reducible apply State.count_steady
    | with_reducible apply State.frameFrag_steady | with_reducible apply State.iff_steady
    | with_reducible apply State.modFrms_steady | with_reducible apply State.raiseMs_steady
    | with_reducible apply State.showHeader_steady

theorem State.dropParts_steady {s0 : State} (k : Nat) {s : State} (h : Steady s0 s) :
    Steady s0 (State.dropParts k s) := by
  unfold State.dropParts
  repeat' first
    | with_reducible assumption | intro _ | with_reducible apply Steady.ite
    | with_reducible apply State.dropPassed_steady | with_reducible apply State.dropPlain_steady
    | with_reducible apply State.iff_steady | with_reducible apply Steady.foldl | split

theorem State.breakMarker_steady {s0 : State} (r : Rx) {s : State} (h : Steady s0 s) :
    Steady s0 (State.breakMarker r s) := by
  unfold State.breakMarker
  repeat' first
    | with_reducible assumption | intro _ | with_reducible apply Steady.ite | with_reducible apply State.count_steady
    | with_reducible apply State.dropParts_steady | with_reducible apply State.setProgress_steady
    | with_reducible apply Steady.foldl | split

theorem State.halCutNow_steady {s0 : State} (t : Tree) {s : State} (h : Steady s0 s) :
    Steady s0 (State.halCutNow t s) := by
  unfold State.halCutNow
  repeat' first
    | with_reducible assumption | intro _ | with_reducible apply Steady.ite
    | with_reducible apply State.halAbort_steady | with_reducible apply Steady.foldl | split

theorem State.noticeBurst_steady {s0 : State} (t : Tree) (es : List Nat) {s : State} (h : Steady s0 s) :
    Steady s0 (State.noticeBurst t es s) := by
  unfold State.noticeBurst
  repeat' first
    | with_reducible assumption | intro _ | with_reducible apply Steady.ite
    | with_reducible apply State.modNotice_steady | with_reducible apply Steady.foldl | split

theorem State.randomBytes_steady {s0 : State} (n : Nat) {s : State} (h : Steady s0 s) :
    Steady s0 (State.randomBytes n s).1 := ⟨h.ctrl, h.events⟩

theorem State.putKeyPair_steady {s0 : State} (d : Nat) {s : State} (h : Steady s0 s) :
    Steady s0 (State.putKeyPair d s) := by
  unfold State.putKeyPair
  repeat' first
    | with_reducible assumption | intro _ | with_reducible apply Steady.ite
    | with_reducible apply State.putEntry_steady | with_reducible apply State.putTw_steady
    | with_reducible apply Steady.foldl | split

theorem State.retireCell_steady {s0 : State} (id : Nat) {s : State} (h : Steady s0 s) :
    Steady s0 (State.retireCell id s) := by
  unfold State.retireCell
  repeat' first
    | with_reducible assumption | exact ⟨Nat.ne_of_beq_eq_false rfl, Nat.ne_of_beq_eq_false rfl⟩
    | exact Nat.le_of_ble_eq_true rfl | intro _ | with_reducible apply Steady.ite
    | with_reducible apply State.count_steady | with_reducible apply State.modSto_steady
    | with_reducible apply State.putFrame_steady | with_reducible apply State.raise_steady
    | with_reducible apply State.setFld_steady | with_reducible apply State.setTf_steady
    | with_reducible apply State.useFree_steady | with_reducible apply Steady.foldl | split

theorem State.cellError_steady {s0 : State} (id : Nat) (port : Option Nat) {s : State} (h : Steady s0 s) :
    Steady s0 (State.cellError id port s) := by
  unfold State.cellError
  repeat' first
    | with_reducible assumption | intro _ | with_reducible apply Steady.ite
    | with_reducible apply State.abortCopy_steady | with_reducible apply State.endCopy_steady
    | with_reducible apply State.putSending_steady | with_reducible apply State.retireCell_steady
    | with_reducible apply Steady.foldl | split | with_reducible apply Steady.id | dsimp only

theorem State.gateEnd_steady {s0 : State} (k : Nat) (count : Nat) {s : State} (h : Steady s0 s) :
    Steady s0 (State.gateEnd k count s) := by
  unfold State.gateEnd
  repeat' first
    | with_reducible assumption | intro _ | with_reducible apply Steady.ite
    | with_reducible apply State.clkJudge_steady | with_reducible apply State.clkLose_steady
    | with_reducible apply State.putTw_steady | with_reducible apply State.setClkGood_steady
    | with_reducible apply State.setTf_steady

theorem State.noteChange_steady {s0 : State} (t : Nat) (e : Nat) (n : Nat) {s : State} (h : Steady s0 s) :
    Steady s0 (State.noteChange t e n s) := by
  unfold State.noteChange
  repeat' first | with_reducible exact h | with_reducible apply State.modSto_steady

theorem State.setStreamPolicy_steady {s0 : State} (q : Nat) (w : Word) {s : State} (h : Steady s0 s) :
    Steady s0 (State.setStreamPolicy q w s) := by
  unfold State.setStreamPolicy
  repeat' first
    | with_reducible exact h | with_reducible apply State.dropMerge_steady | with_reducible apply State.iff_steady
    | with_reducible apply State.putTw_steady | with_reducible apply State.raise_steady

theorem State.tmcSubmit_steady {s0 : State} (t : Tree) (e : Nat) (len : Nat) (cls : Nat) (addr : Nat) {s : State} (h
    : Steady s0 s) :
       Steady s0 (State.tmcSubmit t e len cls addr s) := by
  unfold State.tmcSubmit
  repeat' first
    | with_reducible assumption | intro _ | with_reducible apply Steady.ite
    | with_reducible apply State.modGrts_steady | with_reducible apply State.putEntry_steady
    | with_reducible apply State.showTmc_steady

theorem State.frontFrame_steady {s0 : State} (t : Tree) (fc : Nat) {s : State} (h : Steady s0 s) :
    Steady s0 (State.frontFrame t fc s) := by
  unfold State.frontFrame
  repeat' first
    | with_reducible assumption | intro _ | with_reducible apply Steady.ite
    | with_reducible apply State.modFront_steady | with_reducible apply State.timeApply_steady
    | with_reducible apply State.timeJudge_steady | with_reducible apply Steady.foldl | split

theorem State.endDecided_steady {s0 : State} (id : Nat) (err : Bool) {s : State} (h : Steady s0 s) :
    Steady s0 (State.endDecided id err s) := by
  unfold State.endDecided
  repeat' first
    | with_reducible assumption | intro _ | with_reducible apply Steady.ite
    | with_reducible apply State.endFrame_steady | with_reducible apply State.iff_steady
    | with_reducible apply Steady.foldl | split

theorem State.copyDecide_steady {s0 : State} (id : Nat) {s : State} (h : Steady s0 s) :
    Steady s0 (State.copyDecide id s) := by
  unfold State.copyDecide
  repeat' first
    | with_reducible assumption | intro _ | with_reducible apply Steady.ite
    | with_reducible apply State.decideNow_steady | with_reducible apply State.endDecided_steady
    | with_reducible apply State.forgetAct_steady | with_reducible apply State.iff_steady
    | with_reducible apply Steady.foldl | split

theorem State.copySent_steady {s0 : State} (c : Copy) {s : State} (h : Steady s0 s) :
    Steady s0 (State.copySent c s) := by
  unfold State.copySent
  repeat' first
    | with_reducible assumption | intro _ | with_reducible apply Steady.ite | with_reducible apply State.count_steady
    | with_reducible apply State.countBy_steady | with_reducible apply State.modFrame_steady
    | with_reducible apply State.releaseRef_steady

theorem State.showFc_steady {s0 : State} (r : Rx) (fc : Nat) {s : State} (h : Steady s0 s) :
    Steady s0 (State.showFc r fc s) := by
  unfold State.showFc
  repeat' first
    | with_reducible exact h | exact ⟨Nat.ne_of_beq_eq_false rfl, Nat.ne_of_beq_eq_false rfl⟩
    | exact Nat.le_of_ble_eq_true rfl | with_reducible apply State.setFld_steady

theorem State.counterBreak_steady {s0 : State} (r : Rx) (x2 : FrameHdr) {s : State} (h : Steady s0 s) :
    Steady s0 (State.counterBreak r x2 s) := by
  unfold State.counterBreak
  repeat' first
    | with_reducible assumption | intro _ | with_reducible apply Steady.ite | with_reducible apply State.count_steady
    | with_reducible apply State.modFrms_steady | with_reducible apply State.raise_steady
    | with_reducible apply State.showFc_steady

theorem State.tmcQueue_steady {s0 : State} (t : Tree) (cls : Nat) (bytes : Bytes) {s : State} (h : Steady s0 s) :
    Steady s0 (State.tmcQueue t cls bytes s).1 := by
  unfold State.tmcQueue
  repeat' first
    | with_reducible assumption | intro _ | with_reducible apply Steady.ite | with_reducible apply Steady.ite_fst
    | with_reducible apply State.putSram_steady | with_reducible apply State.tmcSubmit_steady
    | with_reducible apply Steady.foldl | split

theorem State.tmcRequest_steady {s0 : State} (t : Tree) (kind : Nat) (trans : Nat) (cls : Nat) (body : Bytes) {s :
    State} (h : Steady s0 s) :
       Steady s0 (State.tmcRequest t kind trans cls body s) := by
  unfold State.tmcRequest
  repeat' first
    | with_reducible exact h | with_reducible apply State.modActs_steady | with_reducible apply State.tmcQueue_steady

theorem State.sendNotice_steady {s0 : State} (t : Tree) (n : Notice) {s : State} (h : Steady s0 s) :
    Steady s0 (State.sendNotice t n s) := by
  unfold State.sendNotice
  repeat' first
    | with_reducible exact h | with_reducible apply State.modNotice_steady
    | with_reducible apply State.tmcRequest_steady

theorem State.createNotice_steady {s0 : State} (cause : Nat) {s : State} (h : Steady s0 s) :
    Steady s0 (State.createNotice cause s) := by
  unfold State.createNotice
  repeat' first
    | with_reducible assumption | exact ⟨Nat.ne_of_beq_eq_false rfl, Nat.ne_of_beq_eq_false rfl⟩
    | exact Nat.le_of_ble_eq_true rfl | intro _ | with_reducible apply Steady.ite
    | with_reducible apply State.count_steady | with_reducible apply State.iff_steady
    | with_reducible apply State.modActs_steady | with_reducible apply State.modNoticeNext_steady
    | with_reducible apply State.sendNotice_steady | with_reducible apply State.setFld_steady
    | with_reducible apply State.showNotice_steady | with_reducible apply Steady.foldl | split

theorem State.cutWindow_steady {s0 : State} (t : Tree) (w : Nat × Nat) (e : Nat) {s : State} (h : Steady s0 s) :
    Steady s0 (State.cutWindow t w e s) := by
  unfold State.cutWindow
  repeat' first | with_reducible exact h | with_reducible apply State.modTxs_steady

theorem State.holdFrame_steady {s0 : State} (id : Nat) {s : State} (h : Steady s0 s) :
    Steady s0 (State.holdFrame id s) := by
  unfold State.holdFrame
  repeat' first | with_reducible exact h | with_reducible apply State.modFrame_steady

theorem State.loseCells_steady {s0 : State} (id : Nat) {s : State} (h : Steady s0 s) :
    Steady s0 (State.loseCells id s) := by
  unfold State.loseCells
  repeat' first
    | with_reducible assumption | intro _ | with_reducible apply Steady.ite | with_reducible apply State.modSto_steady
    | with_reducible apply State.pfcFor_steady | with_reducible apply State.putFrame_steady
    | with_reducible apply Steady.foldl | split

theorem State.descError_steady {s0 : State} (d : Nat) {s : State} (h : Steady s0 s) :
    Steady s0 (State.descError d s) := by
  unfold State.descError
  repeat' first
    | with_reducible assumption | intro _ | with_reducible apply Steady.ite
    | with_reducible apply State.dropListed_steady | with_reducible apply State.dropSending_steady
    | with_reducible apply State.dropWaitingOf_steady | with_reducible apply State.holdFrame_steady
    | with_reducible apply State.loseCells_steady | with_reducible apply State.putFrame_steady
    | with_reducible apply Steady.foldl | split | with_reducible apply Steady.id | dsimp only

theorem State.halSend_steady {s0 : State} (t : Tree) (kind : Nat) (timing : Nat) (fcRef : Nat) (offset : Nat) (slots
    : Nat) (payload : Bytes) {s : State} (h : Steady s0 s) :
       Steady s0 (State.halSend t kind timing fcRef offset slots payload s) := by
  unfold State.halSend
  repeat' first
    | with_reducible assumption | intro _ | with_reducible apply Steady.ite
    | with_reducible apply State.halDone_steady | with_reducible apply State.halSubmit_steady
    | with_reducible apply State.iff_steady | with_reducible apply State.putEntry_steady
    | with_reducible apply Steady.foldl | split

theorem State.ptpEgress_steady {s0 : State} (port : Nat) (frame : Bytes) {s : State} (h : Steady s0 s) :
    Steady s0 (State.ptpEgress port frame s).1 := by
  unfold State.ptpEgress
  repeat' first
    | with_reducible assumption | intro _ | with_reducible apply Steady.ite | with_reducible apply Steady.ite_fst
    | with_reducible apply State.count_steady | with_reducible apply Steady.foldl | split

theorem State.enterGrant_steady {s0 : State} (t : Tree) (i : Nat) (a : Nat) (fc : Nat) (g : GrantEntry) (span : Nat
    × Nat) {s : State} (h : Steady s0 s) :
       Steady s0 (State.enterGrant t i a fc g span s) := by
  unfold State.enterGrant
  repeat' first
    | with_reducible exact h | with_reducible apply State.count_steady | with_reducible apply State.modGrts_steady
    | with_reducible apply State.putEntry_steady | with_reducible apply State.showPending_steady

theorem State.entryError_steady {s0 : State} (id : Nat) {s : State} (h : Steady s0 s) :
    Steady s0 (State.entryError id s) := by
  unfold State.entryError
  repeat' first
    | with_reducible assumption | intro _ | with_reducible apply Steady.ite
    | with_reducible apply State.dropFrameCopies_steady | with_reducible apply State.holdFrame_steady
    | with_reducible apply State.loseCells_steady | with_reducible apply Steady.foldl | split

theorem State.flywheelFrame_steady {s0 : State} (r : Rx) {s : State} (h : Steady s0 s) :
    Steady s0 (State.flywheelFrame r s) := by
  unfold State.flywheelFrame
  repeat' first
    | with_reducible assumption | intro _ | with_reducible apply Steady.ite | with_reducible apply State.count_steady
    | with_reducible apply State.fragHunt_steady | with_reducible apply State.fragIdle_steady
    | with_reducible apply State.modFrms_steady

theorem State.fomWindow_steady {s0 : State} (r : Rx) (fom : Nat) {s : State} (h : Steady s0 s) :
    Steady s0 (State.fomWindow r fom s) := by
  unfold State.fomWindow
  repeat' first
    | with_reducible assumption | exact ⟨Nat.ne_of_beq_eq_false rfl, Nat.ne_of_beq_eq_false rfl⟩
    | exact Nat.le_of_ble_eq_true rfl | intro _ | with_reducible apply Steady.ite
    | with_reducible apply State.iff_steady | with_reducible apply State.modRxs_steady
    | with_reducible apply State.raise_steady | with_reducible apply State.setFld_steady
    | with_reducible apply State.setSFld_steady | with_reducible apply State.useFree_steady

theorem State.fragBegin_steady {s0 : State} (r : Rx) (pos : Nat) (hdr : Bytes) {s : State} (h : Steady s0 s) :
    Steady s0 (State.fragBegin r pos hdr s) := by
  unfold State.fragBegin
  repeat' first | with_reducible exact h | with_reducible apply State.modFrms_steady

theorem State.fragReceive_steady {s0 : State} (r : Rx) (payload : Bytes) {s : State} (h : Steady s0 s) :
    Steady s0 (State.fragReceive r payload s).1 := by
  unfold State.fragReceive
  repeat' first
    | with_reducible assumption | intro _ | with_reducible apply Steady.ite | with_reducible apply Steady.ite_fst
    | with_reducible apply State.count_steady | with_reducible apply State.countBy_steady
    | with_reducible apply State.modFrms_steady | with_reducible apply Steady.foldl | split

theorem State.fragStep_steady {s0 : State} (r : Rx) (pos : Nat) (bs : Bytes) {s : State} (h : Steady s0 s) :
    Steady s0 (State.fragStep r pos bs s) := by
  unfold State.fragStep
  repeat' first
    | with_reducible assumption | exact ⟨Nat.ne_of_beq_eq_false rfl, Nat.ne_of_beq_eq_false rfl⟩
    | exact Nat.le_of_ble_eq_true rfl | intro _ | with_reducible apply Steady.ite
    | with_reducible apply State.count_steady | with_reducible apply State.fragBegin_steady
    | with_reducible apply State.fragHunt_steady | with_reducible apply State.modFrms_steady
    | with_reducible apply State.setFld_steady | with_reducible apply Steady.foldl | split

theorem State.gaspWait_steady {s0 : State} (t : Tree) {s : State} (h : Steady s0 s) :
    Steady s0 (State.gaspWait t s) := by
  unfold State.gaspWait
  repeat' first
    | with_reducible assumption | intro _ | with_reducible apply Steady.ite
    | with_reducible apply State.halSend_steady | with_reducible apply State.modNotice_steady
    | with_reducible apply Steady.foldl | split

theorem State.halGrantAccepted_steady {s0 : State} (t : Tree) (t0 : Nat) {s : State} (h : Steady s0 s) :
    Steady s0 (State.halGrantAccepted t t0 s) := by
  unfold State.halGrantAccepted
  repeat' first
    | with_reducible assumption | intro _ | with_reducible apply Steady.ite
    | with_reducible apply State.cutWindow_steady | with_reducible apply State.halAbort_steady
    | with_reducible apply State.modHalJob_steady | with_reducible apply Steady.foldl | split

theorem State.grantReceive_steady {s0 : State} (t : Tree) (g : GrantEntry) (fc : Nat) (span : Nat × Nat) {s : State}
    (h : Steady s0 s) :
       Steady s0 (State.grantReceive t g fc span s).1 := by
  unfold State.grantReceive
  repeat' first
    | with_reducible assumption | exact ⟨Nat.ne_of_beq_eq_false rfl, Nat.ne_of_beq_eq_false rfl⟩
    | exact Nat.le_of_ble_eq_true rfl | intro _ | with_reducible apply Steady.ite
    | with_reducible apply Steady.ite_fst | with_reducible apply State.count_steady
    | with_reducible apply State.enterGrant_steady | with_reducible apply State.raise_steady
    | with_reducible apply State.raiseMs_steady | with_reducible apply State.setFld_steady
    | with_reducible apply State.useFree_steady | with_reducible apply Steady.foldl | split
    | with_reducible apply Steady.id | dsimp only

theorem State.halCommit_steady {s0 : State} (t : Tree) (slot : Nat) {s : State} (h : Steady s0 s) :
    Steady s0 (State.halCommit t slot s) := by
  unfold State.halCommit
  repeat' first
    | with_reducible assumption | intro _ | with_reducible apply Steady.ite
    | with_reducible apply State.halDone_steady | with_reducible apply State.modHalJob_steady
    | with_reducible apply State.modTxs_steady | with_reducible apply Steady.foldl | split

theorem State.halDetect_steady {s0 : State} (t : Tree) (gain : Nat) {s : State} (h : Steady s0 s) :
    Steady s0 (State.halDetect t gain s) := by
  unfold State.halDetect
  repeat' first
    | with_reducible assumption | exact ⟨Nat.ne_of_beq_eq_false rfl, Nat.ne_of_beq_eq_false rfl⟩
    | exact Nat.le_of_ble_eq_true rfl | intro _ | with_reducible apply Steady.ite
    | with_reducible apply State.count_steady | with_reducible apply State.modHals_steady
    | with_reducible apply State.setFld_steady

theorem State.halEnd_steady {s0 : State} (t : Tree) (slot : Nat) {s : State} (h : Steady s0 s) :
    Steady s0 (State.halEnd t slot s) := by
  unfold State.halEnd
  repeat' first
    | with_reducible assumption | intro _ | with_reducible apply Steady.ite
    | with_reducible apply State.halAbort_steady | with_reducible apply State.halDone_steady
    | with_reducible apply Steady.foldl | split

theorem State.halStore_steady {s0 : State} (t : Tree) (kind : Nat) (plen : Nat) (level : Nat) (fc : Nat) (ofs : Nat)
    (payload : Bytes) {s : State} (h : Steady s0 s) :
       Steady s0 (State.halStore t kind plen level fc ofs payload s) := by
  unfold State.halStore
  repeat' first
    | with_reducible assumption | exact ⟨Nat.ne_of_beq_eq_false rfl, Nat.ne_of_beq_eq_false rfl⟩
    | exact Nat.le_of_ble_eq_true rfl | intro _ | with_reducible apply Steady.ite
    | with_reducible apply State.count_steady | with_reducible apply State.putEntry_steady
    | with_reducible apply State.raise_steady | with_reducible apply State.setFld_steady

theorem State.halFrameEnd_steady {s0 : State} (t : Tree) (syms : List Nat) (level : Nat) {s : State} (h : Steady s0
    s) :
       Steady s0 (State.halFrameEnd t syms level s) := by
  unfold State.halFrameEnd
  repeat' first
    | with_reducible assumption | exact ⟨Nat.ne_of_beq_eq_false rfl, Nat.ne_of_beq_eq_false rfl⟩
    | exact Nat.le_of_ble_eq_true rfl | intro _ | with_reducible apply Steady.ite
    | with_reducible apply State.count_steady | with_reducible apply State.halRelease_steady
    | with_reducible apply State.halStore_steady | with_reducible apply State.halSync_steady
    | with_reducible apply State.raiseMs_steady | with_reducible apply State.setFld_steady
    | with_reducible apply Steady.foldl | split

theorem State.releaseHeld_steady {s0 : State} (t : Tree) {s : State} (h : Steady s0 s) :
    Steady s0 (State.releaseHeld t s) := by
  unfold State.releaseHeld
  repeat' first
    | with_reducible assumption | intro _ | with_reducible apply Steady.ite
    | with_reducible apply State.sendNotice_steady | with_reducible apply Steady.foldl | split

theorem State.noticeSent_steady {s0 : State} (t : Tree) (id : Nat) {s : State} (h : Steady s0 s) :
    Steady s0 (State.noticeSent t id s) := by
  unfold State.noticeSent
  repeat' first
    | with_reducible exact h | with_reducible apply State.modNotice_steady
    | with_reducible apply State.releaseHeld_steady

theorem State.halNoticeSent_steady {s0 : State} (t : Tree) (payload : Bytes) {s : State} (h : Steady s0 s) :
    Steady s0 (State.halNoticeSent t payload s) := by
  unfold State.halNoticeSent
  repeat' first
    | with_reducible assumption | exact ⟨Nat.ne_of_beq_eq_false rfl, Nat.ne_of_beq_eq_false rfl⟩
    | exact Nat.le_of_ble_eq_true rfl | intro _ | with_reducible apply State.count_steady
    | with_reducible apply State.iff_steady | with_reducible apply State.noticeSent_steady
    | with_reducible apply State.raise_steady | with_reducible apply State.setFld_steady

theorem State.halStart_steady {s0 : State} (t : Tree) (slot : Nat) {s : State} (h : Steady s0 s) :
    Steady s0 (State.halStart t slot s) := by
  unfold State.halStart
  repeat' first
    | with_reducible assumption | exact ⟨Nat.ne_of_beq_eq_false rfl, Nat.ne_of_beq_eq_false rfl⟩
    | exact Nat.le_of_ble_eq_true rfl | (refine ⟨?_, ?_⟩ <;> simp only [halStateFld, halResultFld] <;> decide)
    | intro _ | with_reducible apply Steady.ite | with_reducible apply State.driveGate_steady
    | with_reducible apply State.drivePrep_steady | with_reducible apply State.halDone_steady
    | with_reducible apply State.modHalJob_steady | with_reducible apply State.modTxs_steady
    | with_reducible apply State.setFld_steady | with_reducible apply Steady.foldl | split

theorem State.hdrPresync_steady {s0 : State} (r : Rx) (x2 : FrameHdr) {s : State} (h : Steady s0 s) :
    Steady s0 (State.hdrPresync r x2 s) := by
  unfold State.hdrPresync
  repeat' first
    | with_reducible exact h | exact ⟨Nat.ne_of_beq_eq_false rfl, Nat.ne_of_beq_eq_false rfl⟩
    | exact Nat.le_of_ble_eq_true rfl | with_reducible apply State.beginFrame_steady
    | with_reducible apply State.modFrms_steady | with_reducible apply State.setFld_steady
    | with_reducible apply State.showFc_steady

theorem State.headerStep_steady {s0 : State} (r : Rx) (x2 : FrameHdr) {s : State} (h : Steady s0 s) :
    Steady s0 (State.headerStep r x2 s) := by
  unfold State.headerStep
  repeat' first
    | with_reducible assumption | exact ⟨Nat.ne_of_beq_eq_false rfl, Nat.ne_of_beq_eq_false rfl⟩
    | exact Nat.le_of_ble_eq_true rfl | intro _ | with_reducible apply Steady.ite
    | with_reducible apply State.beginFrame_steady | with_reducible apply State.counterBreak_steady
    | with_reducible apply State.flywheelFrame_steady | with_reducible apply State.hdrHunt_steady
    | with_reducible apply State.hdrPresync_steady | with_reducible apply State.modFrms_steady
    | with_reducible apply State.raise_steady | with_reducible apply State.setFld_steady
    | with_reducible apply State.showFc_steady | with_reducible apply Steady.foldl | split

theorem State.onBattery_steady {s0 : State} {s : State} (h : Steady s0 s) :
    Steady s0 (State.onBattery s) := by
  unfold State.onBattery
  repeat' first
    | with_reducible assumption | exact ⟨Nat.ne_of_beq_eq_false rfl, Nat.ne_of_beq_eq_false rfl⟩
    | exact Nat.le_of_ble_eq_true rfl | intro _ | with_reducible apply Steady.ite
    | with_reducible apply State.createNotice_steady | with_reducible apply State.enterDark_steady
    | with_reducible apply State.forget_steady | with_reducible apply State.iff_steady
    | with_reducible apply State.setFld_steady | with_reducible apply State.setMode_steady
    | with_reducible apply Steady.foldl | split

theorem State.judgeLaunch_steady {s0 : State} (t : Tree) (v : Int) {s : State} (h : Steady s0 s) :
    Steady s0 (State.judgeLaunch t v s) := by
  unfold State.judgeLaunch
  repeat' first
    | with_reducible exact h | exact ⟨Nat.ne_of_beq_eq_false rfl, Nat.ne_of_beq_eq_false rfl⟩
    | exact Nat.le_of_ble_eq_true rfl | with_reducible apply State.iff_steady
    | with_reducible apply State.raise_steady | with_reducible apply State.setFld_steady

theorem State.kstWrite_steady {s0 : State} (n : Nat) (gen : Nat) (tag : Bytes → Bytes) {s : State} (h : Steady s0 s) :
    Steady s0 (State.kstWrite n gen tag s) := by
  unfold State.kstWrite
  repeat' first | with_reducible exact h | with_reducible apply State.putKstSlot_steady

theorem State.kstIdle_steady {s0 : State} {s : State} (h : Steady s0 s) :
    Steady s0 (State.kstIdle s) := by
  unfold State.kstIdle
  repeat' first
    | with_reducible exact h | exact ⟨Nat.ne_of_beq_eq_false rfl, Nat.ne_of_beq_eq_false rfl⟩
    | exact Nat.le_of_ble_eq_true rfl | with_reducible apply State.modKst_steady
    | with_reducible apply State.setFld_steady

theorem State.kstAbort_steady {s0 : State} {s : State} (h : Steady s0 s) :
    Steady s0 (State.kstAbort s) := by
  unfold State.kstAbort
  repeat' first
    | with_reducible assumption | exact ⟨Nat.ne_of_beq_eq_false rfl, Nat.ne_of_beq_eq_false rfl⟩
    | exact Nat.le_of_ble_eq_true rfl | intro _ | with_reducible apply Steady.ite
    | with_reducible apply State.count_steady | with_reducible apply State.kstIdle_steady
    | with_reducible apply State.kstWrite_steady | with_reducible apply State.setFld_steady
    | with_reducible apply State.useFree_steady

theorem State.kstActivate_steady {s0 : State} (n : Nat) {s : State} (h : Steady s0 s) :
    Steady s0 (State.kstActivate n s) := by
  unfold State.kstActivate
  repeat' first
    | with_reducible exact h | exact ⟨Nat.ne_of_beq_eq_false rfl, Nat.ne_of_beq_eq_false rfl⟩
    | exact Nat.le_of_ble_eq_true rfl | with_reducible apply State.putReg_steady
    | with_reducible apply State.setFld_steady | with_reducible apply State.showKeystore_steady

theorem State.kstCommitDone_steady {s0 : State} (ok : Bool) {s : State} (h : Steady s0 s) :
    Steady s0 (State.kstCommitDone ok s) := by
  unfold State.kstCommitDone
  repeat' first
    | with_reducible assumption | exact ⟨Nat.ne_of_beq_eq_false rfl, Nat.ne_of_beq_eq_false rfl⟩
    | exact Nat.le_of_ble_eq_true rfl | intro _ | with_reducible apply Steady.ite
    | with_reducible apply State.count_steady | with_reducible apply State.kstAbort_steady
    | with_reducible apply State.kstActivate_steady | with_reducible apply State.kstIdle_steady
    | with_reducible apply State.kstWrite_steady | with_reducible apply State.modKst_steady
    | with_reducible apply State.raise_steady | with_reducible apply State.setFld_steady
    | with_reducible apply State.useFree_steady

theorem State.kstGenkeyDone_steady {s0 : State} {s : State} (h : Steady s0 s) :
    Steady s0 (State.kstGenkeyDone s) := by
  unfold State.kstGenkeyDone
  repeat' first
    | with_reducible assumption | intro _ | with_reducible apply Steady.ite
    | with_reducible apply State.kstIdle_steady | with_reducible apply State.putKeyPair_steady
    | with_reducible apply State.raise_steady | with_reducible apply State.randomBytes_steady

theorem State.kstPowerUp_steady {s0 : State} {s : State} (h : Steady s0 s) :
    Steady s0 (State.kstPowerUp s) := by
  unfold State.kstPowerUp
  repeat' first
    | with_reducible assumption | exact ⟨Nat.ne_of_beq_eq_false rfl, Nat.ne_of_beq_eq_false rfl⟩
    | exact Nat.le_of_ble_eq_true rfl | intro _ | with_reducible apply Steady.ite
    | with_reducible apply State.count_steady | with_reducible apply State.countBy_steady
    | with_reducible apply State.iff_steady | with_reducible apply State.kstActivate_steady
    | with_reducible apply State.modKst_steady | with_reducible apply State.putReg_steady
    | with_reducible apply State.raise_steady | with_reducible apply State.setFld_steady
    | with_reducible apply State.showKeystore_steady | with_reducible apply Steady.foldl | split

theorem State.onMains_steady {s0 : State} {s : State} (h : Steady s0 s) :
    Steady s0 (State.onMains s) := by
  unfold State.onMains
  repeat' first
    | with_reducible assumption | exact ⟨Nat.ne_of_beq_eq_false rfl, Nat.ne_of_beq_eq_false rfl⟩
    | exact Nat.le_of_ble_eq_true rfl | intro _ | with_reducible apply Steady.ite
    | with_reducible apply State.createNotice_steady | with_reducible apply State.iff_steady
    | with_reducible apply State.setFld_steady | with_reducible apply State.setMode_steady
    | with_reducible apply Steady.foldl | split

theorem State.memError_steady {s0 : State} (what : MemErr) {s : State} (h : Steady s0 s) :
    Steady s0 (State.memError what s) := by
  unfold State.memError
  repeat' first
    | with_reducible assumption | intro _ | with_reducible apply Steady.ite
    | with_reducible apply State.cellError_steady | with_reducible apply State.count_steady
    | with_reducible apply State.descError_steady | with_reducible apply State.entryError_steady
    | with_reducible apply State.raise_steady | with_reducible apply Steady.foldl | split

theorem State.mergeAccept_steady {s0 : State} (t : Tree) (q : Nat) (seq : Nat) {s : State} (h : Steady s0 s) :
    Steady s0 (State.mergeAccept t q seq s) := by
  unfold State.mergeAccept
  repeat' first
    | with_reducible exact h | with_reducible apply State.count_steady | with_reducible apply State.modDual_steady

theorem State.putMerge_steady {s0 : State} (q : Nat) (hi : Nat) (stale : Nat) (gaps : List Nat) {s : State} (h :
    Steady s0 s) :
       Steady s0 (State.putMerge q hi stale gaps s) := by
  unfold State.putMerge
  repeat' first
    | with_reducible exact h | with_reducible apply State.modDual_steady | with_reducible apply State.setTf_steady

theorem State.mergeDup_steady {s0 : State} (q : Nat) (seq : Nat) {s : State} (h : Steady s0 s) :
    Steady s0 (State.mergeDup q seq s) := by
  unfold State.mergeDup
  repeat' first
    | with_reducible exact h | with_reducible apply State.count_steady | with_reducible apply State.modDual_steady

theorem State.merge_steady {s0 : State} (t : Tree) (q : Nat) (seq : Nat) (last : Bool) {s : State} (h : Steady s0 s) :
    Steady s0 (State.merge t q seq last s).1 := by
  unfold State.merge
  repeat' first
    | with_reducible assumption | intro _ | with_reducible apply Steady.ite | with_reducible apply Steady.ite_fst
    | with_reducible apply State.count_steady | with_reducible apply State.countBy_steady
    | with_reducible apply State.mergeAccept_steady | with_reducible apply State.mergeDup_steady
    | with_reducible apply State.putMerge_steady | with_reducible apply State.raiseMs_steady

theorem State.noteCodeword_steady {s0 : State} (r : Rx) (corrected : Nat) (unc : Bool) (block : Bytes) {s : State}
    (h : Steady s0 s) :
       Steady s0 (State.noteCodeword r corrected unc block s) := by
  unfold State.noteCodeword
  repeat' first
    | with_reducible assumption | intro _ | with_reducible apply Steady.ite
    | with_reducible apply State.modFrms_steady

theorem State.noticeRetry_steady {s0 : State} (t : Tree) {s : State} (h : Steady s0 s) :
    Steady s0 (State.noticeRetry t s) := by
  unfold State.noticeRetry
  repeat' first
    | with_reducible assumption | intro _ | with_reducible apply Steady.ite | with_reducible apply State.count_steady
    | with_reducible apply State.modNotice_steady | with_reducible apply State.sendNotice_steady
    | with_reducible apply Steady.foldl | split

theorem State.quarantine_steady {s0 : State} (t : Tree) (cause : Nat) (reason : Nat) {s : State} (h : Steady s0 s) :
    Steady s0 (State.quarantine t cause reason s) := by
  unfold State.quarantine
  repeat' first
    | with_reducible assumption | exact ⟨Nat.ne_of_beq_eq_false rfl, Nat.ne_of_beq_eq_false rfl⟩
    | exact Nat.le_of_ble_eq_true rfl | intro _ | with_reducible apply State.iff_steady
    | with_reducible apply State.recordQuarantine_steady | with_reducible apply State.setFld_steady
    | with_reducible apply State.setMode_steady

theorem State.rogueEvent_steady {s0 : State} (t : Tree) (cause : Nat) {s : State} (h : Steady s0 s) :
    Steady s0 (State.rogueEvent t cause s) := by
  unfold State.rogueEvent
  repeat' first
    | with_reducible exact h | exact ⟨Nat.ne_of_beq_eq_false rfl, Nat.ne_of_beq_eq_false rfl⟩
    | exact Nat.le_of_ble_eq_true rfl | with_reducible apply State.count_steady
    | with_reducible apply State.enterForce_steady | with_reducible apply State.iff_steady
    | with_reducible apply State.modTxs_steady | with_reducible apply State.pinsLow_steady
    | with_reducible apply State.quarantine_steady | with_reducible apply State.raise_steady
    | with_reducible apply State.setFld_steady

theorem State.openWindow_steady {s0 : State} (r : Rx) {s : State} (h : Steady s0 s) :
    Steady s0 (State.openWindow r s) := by
  unfold State.openWindow
  repeat' first | with_reducible exact h | with_reducible apply State.modFrms_steady

theorem State.passLine_steady {s0 : State} (f : LineFrag) (accept : Bool) {s : State} (h : Steady s0 s) :
    Steady s0 (State.passLine f accept s) := by
  unfold State.passLine
  repeat' first
    | with_reducible assumption | intro _ | with_reducible apply Steady.ite
    | with_reducible apply State.freeLine_steady | with_reducible apply State.modDual_steady

theorem State.ppsFall_steady {s0 : State} {s : State} (h : Steady s0 s) :
    Steady s0 (State.ppsFall s) := by
  unfold State.ppsFall
  repeat' first
    | with_reducible exact h | with_reducible apply State.iff_steady | with_reducible apply State.ppsLow_steady

theorem State.pruneWindows_steady {s0 : State} (t : Tree) {s : State} (h : Steady s0 s) :
    Steady s0 (State.pruneWindows t s) := by
  unfold State.pruneWindows
  repeat' first | with_reducible exact h | with_reducible apply State.modTxs_steady

theorem State.ptpIngress_steady {s0 : State} (port : Nat) (frame : Bytes) {s : State} (h : Steady s0 s) :
    Steady s0 (State.ptpIngress port frame s) := by
  unfold State.ptpIngress
  repeat' first
    | with_reducible assumption | exact ⟨Nat.ne_of_beq_eq_false rfl, Nat.ne_of_beq_eq_false rfl⟩
    | exact Nat.le_of_ble_eq_true rfl | intro _ | with_reducible apply Steady.ite
    | with_reducible apply State.count_steady | with_reducible apply State.putEntry_steady
    | with_reducible apply State.raiseMs_steady | with_reducible apply State.setFld_steady
    | with_reducible apply Steady.foldl | split

theorem State.putDefect_steady {s0 : State} (r : Rx) (f : Fld) (setBit : Nat) (clrBit : Nat) (on : Bool) {s : State}
    (h : Steady s0 s) (ho : f.off / 4 % 1024 ≠ 2 ∧ f.off / 4 % 1024 ≠ 4) : Steady s0 (State.putDefect r f setBit clrBit on s) := by
  unfold State.putDefect
  dsimp only
  exact State.iff_steady _ (State.iff_steady _ (State.setFld_steady _ _ _ h ho) (fun _ hx => State.raise_steady _ _ hx))
    (fun _ hx => State.raise_steady _ _ hx)

theorem State.receiveLine_steady {s0 : State} (r : Rx) (fc : Nat) (hdr : Bytes) (payload : Bytes) {s : State} (h :
    Steady s0 s) :
       Steady s0 (State.receiveLine r fc hdr payload s) := by
  unfold State.receiveLine
  repeat' first
    | with_reducible exact h | with_reducible apply State.drawCells_steady | with_reducible apply State.modDual_steady

theorem State.selRestore_steady {s0 : State} {s : State} (h : Steady s0 s) :
    Steady s0 (State.selRestore s) := by
  unfold State.selRestore
  repeat' first
    | with_reducible assumption | intro _ | with_reducible apply Steady.ite | with_reducible apply State.setSel_steady

theorem State.selectContent.keep_steady {s0 : State} {s : State} (t : Tree) (i : Nat) (c : Content) (h : Steady s0
    s) :
       Steady s0 (State.selectContent.keep s t i c) := by
  unfold State.selectContent.keep
  repeat' first
    | with_reducible exact h | with_reducible apply State.count_steady | with_reducible apply State.modGrts_steady
    | with_reducible apply State.setTf_steady

theorem State.selectContent_steady {s0 : State} (t : Tree) (i : Nat) {s : State} (h : Steady s0 s) :
    Steady s0 (State.selectContent t i s) := by
  unfold State.selectContent
  repeat' first
    | with_reducible assumption | intro _ | with_reducible apply Steady.ite | with_reducible apply State.count_steady
    | with_reducible apply State.countBy_steady | with_reducible apply State.fillStream_steady
    | with_reducible apply State.selectContent.keep_steady | with_reducible apply State.setTmcState_steady
    | with_reducible apply Steady.foldl | split

theorem State.sendContent_steady {s0 : State} (t : Tree) (c : Content) {s : State} (h : Steady s0 s) :
    Steady s0 (State.sendContent t c s) := by
  unfold State.sendContent
  repeat' first
    | with_reducible assumption | intro _ | with_reducible apply Steady.ite
    | with_reducible apply State.copySent_steady | with_reducible apply State.countBy_steady
    | with_reducible apply State.setTmcState_steady | with_reducible apply Steady.foldl | split

theorem State.skewUpdate_steady {s0 : State} {s : State} (h : Steady s0 s) :
    Steady s0 (State.skewUpdate s) := by
  unfold State.skewUpdate
  repeat' first
    | with_reducible exact h | exact ⟨Nat.ne_of_beq_eq_false rfl, Nat.ne_of_beq_eq_false rfl⟩
    | exact Nat.le_of_ble_eq_true rfl | with_reducible apply State.iff_steady
    | with_reducible apply State.modDual_steady | with_reducible apply State.raise_steady
    | with_reducible apply State.setFld_steady

theorem State.tickTake_steady {s0 : State} {s : State} (h : Steady s0 s) :
    Steady s0 (State.tickTake s) := by
  unfold State.tickTake
  repeat' first
    | with_reducible assumption | intro _ | with_reducible apply Steady.ite
    | with_reducible apply State.modUsch_steady

theorem State.timeCalDone_steady {s0 : State} {s : State} (h : Steady s0 s) :
    Steady s0 (State.timeCalDone s) := by
  unfold State.timeCalDone
  repeat' first
    | with_reducible assumption | exact ⟨Nat.ne_of_beq_eq_false rfl, Nat.ne_of_beq_eq_false rfl⟩
    | exact Nat.le_of_ble_eq_true rfl | intro _ | with_reducible apply Steady.ite
    | with_reducible apply State.modTime_steady | with_reducible apply State.setFld_steady

theorem State.timeSetApply_steady {s0 : State} (r : Rx) {s : State} (h : Steady s0 s) :
    Steady s0 (State.timeSetApply r s) := by
  unfold State.timeSetApply
  repeat' first
    | with_reducible assumption | exact ⟨Nat.ne_of_beq_eq_false rfl, Nat.ne_of_beq_eq_false rfl⟩
    | exact Nat.le_of_ble_eq_true rfl | intro _ | with_reducible apply Steady.ite
    | with_reducible apply State.modTime_steady | with_reducible apply State.setFld_steady
    | with_reducible apply State.timeApply_steady | with_reducible apply State.timeJudge_steady

theorem State.tmcRemember_steady {s0 : State} (t : Tree) (kind : Nat) (trans : Nat) (resp : Option Bytes) {s :
    State} (h : Steady s0 s) :
       Steady s0 (State.tmcRemember t kind trans resp s) := by
  unfold State.tmcRemember
  repeat' first | with_reducible exact h | with_reducible apply State.modActs_steady

theorem State.tmcReply_steady {s0 : State} (t : Tree) (bytes : Bytes) {s : State} (h : Steady s0 s) :
    Steady s0 (State.tmcReply t bytes s) := by
  unfold State.tmcReply
  repeat' first
    | with_reducible assumption | intro _ | with_reducible apply Steady.ite | with_reducible apply State.count_steady
    | with_reducible apply State.tmcQueue_steady

theorem State.tmcAnswer_steady {s0 : State} (t : Tree) (x : TmcMsg) (auth : Bool) (code : Nat) (rest : Bytes) {s :
    State} (h : Steady s0 s) :
       Steady s0 (State.tmcAnswer t x auth code rest s) := by
  unfold State.tmcAnswer
  repeat' first
    | with_reducible exact h | with_reducible apply State.tmcRemember_steady
    | with_reducible apply State.tmcReply_steady

theorem State.tmcTake_steady {s0 : State} (t : Tree) (m : TmcIn) {s : State} (h : Steady s0 s) :
    Steady s0 (State.tmcTake t m s) := by
  unfold State.tmcTake
  repeat' first | with_reducible exact h | with_reducible apply State.modActs_steady

theorem State.tmcReceive_steady {s0 : State} (t : Tree) (m : TmcIn) {run : TmcMsg → State → State × Reply} {s :
    State} (h : Steady s0 s) (h3 : ∀ y0 y1, Steady s0 y1 → Steady s0 ((run y0 y1).1)) :
       Steady s0 (State.tmcReceive t m run s) := by
  unfold State.tmcReceive
  repeat' first
    | with_reducible assumption | intro _ | with_reducible apply Steady.ite | with_reducible apply State.count_steady
    | with_reducible apply State.iff_steady | with_reducible apply State.raiseMs_steady
    | with_reducible apply State.tmcAnswer_steady | with_reducible apply State.tmcRemember_steady
    | with_reducible apply State.tmcReply_steady | with_reducible apply State.tmcTake_steady | with_reducible apply h3
    | with_reducible apply Steady.foldl | split | with_reducible apply Steady.id | dsimp only

theorem State.tmcKind_steady {s0 : State} (t : Tree) (m : TmcIn) (kind : Nat) {run : TmcMsg → State → State × Reply}
    {s : State} (h : Steady s0 s) (h4 : ∀ y0 y1, Steady s0 y1 → Steady s0 ((run y0 y1).1)) :
       Steady s0 (State.tmcKind t m kind run s) := by
  unfold State.tmcKind
  repeat' first
    | with_reducible assumption | intro _ | with_reducible apply Steady.ite
    | with_reducible apply State.tmcReceive_steady | with_reducible apply h4

theorem State.tmcSent_steady {s0 : State} (t : Tree) (es : List Nat) {s : State} (h : Steady s0 s) :
    Steady s0 (State.tmcSent t es s) := by
  unfold State.tmcSent
  repeat' first
    | with_reducible assumption | exact ⟨Nat.ne_of_beq_eq_false rfl, Nat.ne_of_beq_eq_false rfl⟩
    | exact Nat.le_of_ble_eq_true rfl | intro _ | with_reducible apply Steady.ite
    | with_reducible apply State.count_steady | with_reducible apply State.iff_steady
    | with_reducible apply State.noticeSent_steady | with_reducible apply State.raise_steady
    | with_reducible apply State.setFld_steady | with_reducible apply Steady.foldl | split

theorem State.unprotected_steady {s0 : State} (f : LineFrag) {s : State} (h : Steady s0 s) :
    Steady s0 (State.unprotected f s) := by
  unfold State.unprotected
  repeat' first
    | with_reducible assumption | intro _ | with_reducible apply State.count_steady
    | with_reducible apply State.dropParts_steady | with_reducible apply State.iff_steady
    | with_reducible apply State.passLine_steady | with_reducible apply State.setProgress_steady

theorem State.wakeRequest_steady {s0 : State} (t : Tree) (cause : Nat) (seq : Nat) {s : State} (h : Steady s0 s) :
    Steady s0 (State.wakeRequest t cause seq s) := by
  unfold State.wakeRequest
  repeat' first | with_reducible exact h | with_reducible apply State.halSend_steady

theorem State.windowEnd_steady {s0 : State} (r : Rx) {s : State} (h : Steady s0 s) :
    Steady s0 (State.windowEnd r s) := by
  unfold State.windowEnd
  repeat' first
    | with_reducible exact h | exact ⟨Nat.ne_of_beq_eq_false rfl, Nat.ne_of_beq_eq_false rfl⟩
    | exact Nat.le_of_ble_eq_true rfl | with_reducible apply State.iff_steady
    | with_reducible apply State.modFrms_steady | with_reducible apply State.openWindow_steady
    | with_reducible apply State.putDefect_steady | with_reducible apply State.setFld_steady
    | with_reducible apply State.useFree_steady

theorem State.windowBoundary_steady {s0 : State} (r : Rx) {s : State} (h : Steady s0 s) :
    Steady s0 (State.windowBoundary r s) := by
  unfold State.windowBoundary
  repeat' first
    | with_reducible assumption | intro _ | with_reducible apply Steady.ite
    | with_reducible apply State.openWindow_steady | with_reducible apply State.windowEnd_steady

theorem State.withdrawCopies_steady {s0 : State} (t : Tree) {s : State} (h : Steady s0 s) :
    Steady s0 (State.withdrawCopies t s) := by
  unfold State.withdrawCopies
  repeat' first
    | with_reducible assumption | intro _ | with_reducible apply Steady.ite | with_reducible apply State.count_steady
    | with_reducible apply State.endProtected_steady | with_reducible apply State.unlinkCopy_steady
    | with_reducible apply Steady.foldl | split

end Sys2Proof.Machine
end

