-- ==== Sys2Proof/Laws/SteadyPart.lean ====
section
/-! SUPPORT. What leaves every PAGE_CTRL and every standing pennant bit (Laws/Steady.lean): rings, egress, the audit, control crypto, domains, UNI ports, regions. -/

namespace Sys2Proof.Machine

theorem State.modRing_steady {s0 : State} (f : Nat) (rx : Bool) (k : Nat) (g : RingSt → RingSt) {s : State} (h :
    Steady s0 s) :
       Steady s0 (State.modRing f rx k g s) := by
  unfold State.modRing
  repeat' first | with_reducible exact h | with_reducible apply State.modDma_steady

theorem State.dropJob_steady {s0 : State} (f : Nat) (k : Nat) {s : State} (h : Steady s0 s) :
    Steady s0 (State.dropJob f k s) := by
  unfold State.dropJob
  repeat' first
    | with_reducible assumption | intro _ | with_reducible apply Steady.ite
    | with_reducible apply State.freeFrame_steady | with_reducible apply State.iff_steady
    | with_reducible apply State.modRing_steady | with_reducible apply Steady.foldl | split

theorem State.abortJob_steady {s0 : State} (f : Nat) (k : Nat) {s : State} (h : Steady s0 s) :
    Steady s0 (State.abortJob f k s) := by
  unfold State.abortJob
  repeat' first
    | with_reducible assumption | intro _ | with_reducible apply Steady.ite | with_reducible apply State.count_steady
    | with_reducible apply State.dropJob_steady

theorem State.ringAdvance_steady {s0 : State} (f : Nat) (rx : Bool) (k : Nat) (n : Nat) {s : State} (h : Steady s0
    s) :
       Steady s0 (State.ringAdvance f rx k n s) := by
  unfold State.ringAdvance
  repeat' first
    | with_reducible exact h | exact ⟨Nat.ne_of_beq_eq_false rfl, Nat.ne_of_beq_eq_false rfl⟩
    | exact Nat.le_of_ble_eq_true rfl | with_reducible apply State.setRg_steady

theorem State.ringComplete_steady {s0 : State} (f : Nat) (rx : Bool) (k : Nat) (bytes : Bytes) {s : State} (h :
    Steady s0 s) :
       Steady s0 (State.ringComplete f rx k bytes s) := by
  unfold State.ringComplete
  repeat' first
    | with_reducible exact h | with_reducible apply State.count_steady | with_reducible apply State.emit_steady
    | with_reducible apply State.modRing_steady

theorem State.sendLocal_steady {s0 : State} (f : Nat) (v : Nat) {s : State} (h : Steady s0 s) :
    Steady s0 (State.sendLocal f v s) := by
  unfold State.sendLocal
  repeat' first
    | with_reducible assumption | intro _ | with_reducible apply Steady.ite
    | with_reducible apply State.sendOwned_steady | with_reducible apply State.sendVector.dropped_steady

theorem State.ringVector_steady {s0 : State} (f : Nat) (rx : Bool) (k : Nat) {s : State} (h : Steady s0 s) :
    Steady s0 (State.ringVector f rx k s) := by
  unfold State.ringVector
  repeat' first
    | with_reducible assumption | intro _ | with_reducible apply Steady.ite
    | with_reducible apply State.modRing_steady | with_reducible apply State.sendLocal_steady

theorem State.setStarved_steady {s0 : State} (q : Nat) (on : Bool) {s : State} (h : Steady s0 s) :
    Steady s0 (State.setStarved q on s) := by
  unfold State.setStarved
  repeat' first | with_reducible exact h | with_reducible apply State.modDma_steady

theorem State.ageDiscard_steady {s0 : State} (q : Nat) (c : Copy) {s : State} (h : Steady s0 s) :
    Steady s0 (State.ageDiscard q c s) := by
  unfold State.ageDiscard
  repeat' first
    | with_reducible exact h | with_reducible apply State.count_steady | with_reducible apply State.countBy_steady
    | with_reducible apply State.raiseMs_steady | with_reducible apply State.releaseRef_steady
    | with_reducible apply State.setStarved_steady | with_reducible apply State.unlinkCopy_steady

theorem State.cxlDown_steady {s0 : State} {s : State} (h : Steady s0 s) :
    Steady s0 (State.cxlDown s) := by
  unfold State.cxlDown
  repeat' first
    | with_reducible assumption | exact ⟨Nat.ne_of_beq_eq_false rfl, Nat.ne_of_beq_eq_false rfl⟩
    | exact Nat.le_of_ble_eq_true rfl | intro _ | with_reducible apply Steady.ite
    | with_reducible apply State.count_steady | with_reducible apply State.loseTier_steady
    | with_reducible apply State.raise_steady | with_reducible apply State.setFld_steady

theorem State.showJobs_steady {s0 : State} {s : State} (h : Steady s0 s) :
    Steady s0 (State.showJobs s) := by
  unfold State.showJobs
  repeat' first
    | with_reducible exact h | exact ⟨Nat.ne_of_beq_eq_false rfl, Nat.ne_of_beq_eq_false rfl⟩
    | exact Nat.le_of_ble_eq_true rfl | with_reducible apply State.setFld_steady

theorem State.setJobState_steady {s0 : State} (k : Nat) (v : Nat) {s : State} (h : Steady s0 s) :
    Steady s0 (State.setJobState k v s) := by
  unfold State.setJobState
  repeat' first
    | with_reducible exact h | with_reducible apply State.setTf_steady | with_reducible apply State.showJobs_steady

theorem State.putJob_steady {s0 : State} (k : Nat) (j : CcryJob) {s : State} (h : Steady s0 s) :
    Steady s0 (State.putJob k j s) := by
  unfold State.putJob
  repeat' first | with_reducible exact h | with_reducible apply State.modCcry_steady

theorem State.feed_steady {s0 : State} (k : Nat) (n : Nat) {s : State} (h : Steady s0 s) :
    Steady s0 (State.feed k n s) := by
  unfold State.feed
  repeat' first
    | with_reducible exact h | with_reducible apply State.countBy_steady | with_reducible apply State.putJob_steady
    | with_reducible apply State.putSram_steady | with_reducible apply State.putTw_steady

theorem State.stopJob_steady {s0 : State} (k : Nat) {s : State} (h : Steady s0 s) :
    Steady s0 (State.stopJob k s) := by
  unfold State.stopJob
  repeat' first
    | with_reducible exact h | with_reducible apply State.feed_steady | with_reducible apply State.iff_steady
    | with_reducible apply State.setJobState_steady | with_reducible apply State.useFree_steady

theorem State.ccryStop_steady {s0 : State} {s : State} (h : Steady s0 s) :
    Steady s0 (State.ccryStop s) := by
  unfold State.ccryStop
  repeat' first
    | with_reducible assumption | intro _ | with_reducible apply Steady.ite
    | with_reducible apply State.stopJob_steady | with_reducible apply Steady.foldl | split

theorem State.dropPlaced_steady {s0 : State} (t : Tree) (i : Nat) {s : State} (h : Steady s0 s) :
    Steady s0 (State.dropPlaced t i s) := by
  unfold State.dropPlaced
  repeat' first
    | with_reducible assumption | intro _ | with_reducible apply Steady.ite
    | with_reducible apply State.endCopy_steady | with_reducible apply State.modGrts_steady
    | with_reducible apply Steady.foldl | split

theorem State.dropStore_steady {s0 : State} {s : State} (h : Steady s0 s) :
    Steady s0 (State.dropStore s) := by
  unfold State.dropStore
  repeat' first
    | with_reducible assumption | intro _ | with_reducible apply Steady.ite | with_reducible apply State.count_steady
    | with_reducible apply State.dropFrameCopies_steady | with_reducible apply State.dropLine_steady
    | with_reducible apply State.dropPlaced_steady | with_reducible apply State.forgetCells_steady
    | with_reducible apply State.freeFrame_steady | with_reducible apply State.modSto_steady
    | with_reducible apply State.returnCells_steady | with_reducible apply Steady.foldl | split

theorem State.dropClassified_steady {s0 : State} (id : Nat) {s : State} (h : Steady s0 s) :
    Steady s0 (State.dropClassified id s) := by
  unfold State.dropClassified
  repeat' first
    | with_reducible assumption | intro _ | with_reducible apply Steady.ite | with_reducible apply State.count_steady
    | with_reducible apply State.forgetAct_steady | with_reducible apply State.freeFrame_steady
    | with_reducible apply State.noteAct_steady

theorem State.dropClassifier_steady {s0 : State} {s : State} (h : Steady s0 s) :
    Steady s0 (State.dropClassifier s) := by
  unfold State.dropClassifier
  repeat' first
    | with_reducible assumption | intro _ | with_reducible apply Steady.ite
    | with_reducible apply State.dropClassified_steady | with_reducible apply State.modCls_steady
    | with_reducible apply Steady.foldl | split

theorem State.clipTokens_steady {s0 : State} {s : State} (h : Steady s0 s) :
    Steady s0 (State.clipTokens s) := by
  unfold State.clipTokens
  repeat' first
    | with_reducible assumption | intro _ | with_reducible apply Steady.ite
    | with_reducible apply State.countBy_steady | with_reducible apply State.putTw_steady
    | with_reducible apply Steady.foldl | split

theorem State.dropHands_steady {s0 : State} (ok : Nat → Bool) {s : State} (h : Steady s0 s) :
    Steady s0 (State.dropHands ok s) := by
  unfold State.dropHands
  repeat' first
    | with_reducible assumption | intro _ | with_reducible apply Steady.ite
    | with_reducible apply State.endCopy_steady | with_reducible apply State.putSending_steady
    | with_reducible apply Steady.foldl | split

theorem State.modLink_steady {s0 : State} (k : Nat) (f : LinkSt → LinkSt) {s : State} (h : Steady s0 s) :
    Steady s0 (State.modLink k f s) := by
  unfold State.modLink
  repeat' first | with_reducible exact h | with_reducible apply State.modRel_steady

theorem State.grantCredits_steady {s0 : State} (l : Nat) {s : State} (h : Steady s0 s) :
    Steady s0 (State.grantCredits l s) := by
  unfold State.grantCredits
  repeat' first
    | with_reducible assumption | intro _ | with_reducible apply Steady.ite
    | with_reducible apply State.modLink_steady | with_reducible apply State.putEntry_steady
    | with_reducible apply State.useFree_steady | with_reducible apply Steady.foldl | split

theorem State.keysLost_steady {s0 : State} {s : State} (h : Steady s0 s) :
    Steady s0 (State.keysLost s) := by
  unfold State.keysLost
  repeat' first
    | with_reducible exact h | exact ⟨Nat.ne_of_beq_eq_false rfl, Nat.ne_of_beq_eq_false rfl⟩
    | exact Nat.le_of_ble_eq_true rfl | with_reducible apply State.setFld_steady

theorem State.quarAgain_steady {s0 : State} (t : Tree) {s : State} (h : Steady s0 s) :
    Steady s0 (State.quarAgain t s) := by
  unfold State.quarAgain
  repeat' first
    | with_reducible assumption | exact ⟨Nat.ne_of_beq_eq_false rfl, Nat.ne_of_beq_eq_false rfl⟩
    | exact Nat.le_of_ble_eq_true rfl | intro _ | with_reducible apply Steady.ite
    | with_reducible apply State.setFld_steady

theorem State.refuseEntry_steady {s0 : State} (d : Nat) (page : Nat) (reason : Nat) {s : State} (h : Steady s0 s) :
    Steady s0 (State.refuseEntry d page reason s) := by
  unfold State.refuseEntry
  repeat' first
    | with_reducible exact h | exact ⟨Nat.ne_of_beq_eq_false rfl, Nat.ne_of_beq_eq_false rfl⟩
    | exact Nat.le_of_ble_eq_true rfl | with_reducible apply State.count_steady
    | with_reducible apply State.raiseMs_steady | with_reducible apply State.setFld_steady

theorem State.domainWake_steady {s0 : State} (d : Nat) (src : Nat) {s : State} (h : Steady s0 s) :
    Steady s0 (State.domainWake d src s) := by
  unfold State.domainWake
  repeat' first
    | with_reducible assumption | exact ⟨Nat.ne_of_beq_eq_false rfl, Nat.ne_of_beq_eq_false rfl⟩
    | exact Nat.le_of_ble_eq_true rfl | intro _ | with_reducible apply Steady.ite
    | with_reducible apply State.count_steady | with_reducible apply State.iff_steady
    | with_reducible apply State.modKeep_steady | with_reducible apply State.raiseMs_steady
    | with_reducible apply State.refuseEntry_steady | with_reducible apply State.setDomState_steady
    | with_reducible apply State.setFld_steady | with_reducible apply State.setRegion_steady

theorem State.wakeDomain_steady {s0 : State} (d : Nat) (src : Nat) {s : State} (h : Steady s0 s) :
    Steady s0 (State.wakeDomain d src s) := by
  unfold State.wakeDomain
  repeat' first
    | with_reducible assumption | intro _ | with_reducible apply Steady.ite
    | with_reducible apply State.domainWake_steady

theorem State.genStart_steady {s0 : State} (l : Nat) {s : State} (h : Steady s0 s) :
    Steady s0 (State.genStart l s) := by
  unfold State.genStart
  repeat' first
    | with_reducible assumption | intro _ | with_reducible apply Steady.ite | with_reducible apply State.emit_steady
    | with_reducible apply State.useFree_steady

theorem State.dispatchPath_steady {s0 : State} (sym : Bool) {s : State} (h : Steady s0 s) :
    Steady s0 (State.dispatchPath sym s) := by
  unfold State.dispatchPath
  repeat' first
    | with_reducible assumption | intro _ | with_reducible apply Steady.ite | with_reducible apply State.count_steady
    | with_reducible apply State.raiseMs_steady | with_reducible apply State.setJobState_steady
    | with_reducible apply State.stopJob_steady | with_reducible apply Steady.foldl | split

theorem State.dispatchJobs_steady {s0 : State} {s : State} (h : Steady s0 s) :
    Steady s0 (State.dispatchJobs s) := by
  unfold State.dispatchJobs
  repeat' first
    | with_reducible assumption | intro _ | with_reducible apply Steady.ite
    | with_reducible apply State.dispatchPath_steady

theorem State.startFrozen_steady {s0 : State} (t : Tree) {s : State} (h : Steady s0 s) :
    Steady s0 (State.startFrozen t s) := by
  unfold State.startFrozen
  repeat' first
    | with_reducible assumption | exact ⟨Nat.ne_of_beq_eq_false rfl, Nat.ne_of_beq_eq_false rfl⟩
    | exact Nat.le_of_ble_eq_true rfl | intro _ | with_reducible apply Steady.ite
    | with_reducible apply State.iff_steady | with_reducible apply State.setFld_steady
    | with_reducible apply Steady.foldl | split

theorem State.txAgain_steady {s0 : State} (t : Tree) {s : State} (h : Steady s0 s) :
    Steady s0 (State.txAgain t s) := by
  unfold State.txAgain
  repeat' first
    | with_reducible exact h | exact ⟨Nat.ne_of_beq_eq_false rfl, Nat.ne_of_beq_eq_false rfl⟩
    | exact Nat.le_of_ble_eq_true rfl | with_reducible apply State.setFld_steady
    | with_reducible apply State.showForce_steady | with_reducible apply State.txBegin_steady

theorem State.pageRestart_steady {s0 : State} (p : Nat) {s : State} (h : Steady s0 s) :
    Steady s0 (State.pageRestart p s) := by
  unfold State.pageRestart
  repeat' first
    | with_reducible assumption | intro _ | with_reducible apply Steady.ite
    | with_reducible apply State.framersMoved_steady | with_reducible apply State.frmRestart_steady
    | with_reducible apply State.halJudge_steady | with_reducible apply State.halLevelRestored_steady
    | with_reducible apply State.iff_steady | with_reducible apply State.launchRestored_steady
    | with_reducible apply State.quarAgain_steady | with_reducible apply State.rxBegin_steady
    | with_reducible apply State.showTick_steady | with_reducible apply State.txAgain_steady
    | with_reducible apply Steady.foldl | split

theorem State.regionStart_steady {s0 : State} (r : Nat) {s : State} (h : Steady s0 s) :
    Steady s0 (State.regionStart r s) := by
  unfold State.regionStart
  repeat' first
    | with_reducible assumption | intro _ | with_reducible apply Steady.ite
    | with_reducible apply State.pageRestart_steady | with_reducible apply State.refreshPorts_steady
    | with_reducible apply State.startFrozen_steady | with_reducible apply Steady.foldl | split

theorem State.settleRegion_steady {s0 : State} (r : Nat) {s : State} (h : Steady s0 s) :
    Steady s0 (State.settleRegion r s) := by
  unfold State.settleRegion
  repeat' first
    | with_reducible exact h | with_reducible apply State.iff_steady | with_reducible apply State.regionStart_steady
    | with_reducible apply State.setRegion_steady

theorem State.emitError_steady {s0 : State} (l : Nat) (every : Nat) {s : State} (h : Steady s0 s) :
    Steady s0 (State.emitError l every s) := by
  unfold State.emitError
  repeat' first | with_reducible exact h | with_reducible apply State.emit_steady

theorem State.jobError_steady {s0 : State} (k : Nat) (code : Nat) {s : State} (h : Steady s0 s) :
    Steady s0 (State.jobError k code s) := by
  unfold State.jobError
  repeat' first
    | with_reducible exact h | with_reducible apply State.count_steady | with_reducible apply State.iff_steady
    | with_reducible apply State.raise_steady | with_reducible apply State.routeEvent_steady
    | with_reducible apply State.setJobState_steady | with_reducible apply State.setTf_steady

theorem State.takeAad_steady {s0 : State} (k : Nat) {s : State} (h : Steady s0 s) :
    Steady s0 (State.takeAad k s) := by
  unfold State.takeAad
  repeat' first
    | with_reducible assumption | intro _ | with_reducible apply Steady.ite | with_reducible apply State.putJob_steady

theorem State.ccryStart_steady {s0 : State} (k : Nat) {s : State} (h : Steady s0 s) :
    Steady s0 (State.ccryStart k s) := by
  unfold State.ccryStart
  repeat' first
    | with_reducible assumption | intro _ | with_reducible apply Steady.ite
    | with_reducible apply State.dispatchJobs_steady | with_reducible apply State.jobError_steady
    | with_reducible apply State.putJob_steady | with_reducible apply State.putTw_steady
    | with_reducible apply State.setJobState_steady | with_reducible apply State.setTf_steady
    | with_reducible apply State.takeAad_steady | with_reducible apply State.useFree_steady
    | with_reducible apply Steady.foldl | split

theorem State.ccryAbort_steady {s0 : State} (k : Nat) {s : State} (h : Steady s0 s) :
    Steady s0 (State.ccryAbort k s) := by
  unfold State.ccryAbort
  repeat' first
    | with_reducible assumption | intro _ | with_reducible apply Steady.ite
    | with_reducible apply State.dispatchJobs_steady | with_reducible apply State.jobError_steady

theorem State.exportRefused_steady {s0 : State} (k : Nat) (code : Nat) {s : State} (h : Steady s0 s) :
    Steady s0 (State.exportRefused k code s) := by
  unfold State.exportRefused
  repeat' first
    | with_reducible exact h | with_reducible apply State.raise_steady | with_reducible apply State.setTf_steady

theorem State.ccryExport_steady {s0 : State} (k : Nat) (wrapped : Bool) {s : State} (h : Steady s0 s) :
    Steady s0 (State.ccryExport k wrapped s) := by
  unfold State.ccryExport
  repeat' first
    | with_reducible assumption | intro _ | with_reducible apply Steady.ite | with_reducible apply State.count_steady
    | with_reducible apply State.exportRefused_steady | with_reducible apply State.putSram_steady

theorem State.ccryImport_steady {s0 : State} (k : Nat) {s : State} (h : Steady s0 s) :
    Steady s0 (State.ccryImport k s) := by
  unfold State.ccryImport
  repeat' first
    | with_reducible assumption | intro _ | with_reducible apply Steady.ite | with_reducible apply State.count_steady
    | with_reducible apply State.jobError_steady | with_reducible apply State.putJob_steady
    | with_reducible apply State.putTw_steady | with_reducible apply State.setJobState_steady
    | with_reducible apply State.setTf_steady | with_reducible apply Steady.foldl | split
    | with_reducible apply Steady.id | dsimp only

theorem State.auditResult_steady {s0 : State} (k : Nat) (delta : Int) {s : State} (h : Steady s0 s) :
    Steady s0 (State.auditResult k delta s) := by
  unfold State.auditResult
  repeat' first
    | with_reducible assumption | exact ⟨Nat.ne_of_beq_eq_false rfl, Nat.ne_of_beq_eq_false rfl⟩
    | exact Nat.le_of_ble_eq_true rfl | intro _ | with_reducible apply Steady.ite
    | with_reducible apply State.modSto_steady | with_reducible apply State.raise_steady
    | with_reducible apply State.setFld_steady | with_reducible apply State.setSFld_steady

theorem State.auditLink_steady {s0 : State} (l : Nat) {s : State} (h : Steady s0 s) :
    Steady s0 (State.auditLink l s) := by
  unfold State.auditLink
  repeat' first
    | with_reducible assumption | exact ⟨Nat.ne_of_beq_eq_false rfl, Nat.ne_of_beq_eq_false rfl⟩
    | exact Nat.le_of_ble_eq_true rfl | intro _ | with_reducible apply Steady.ite
    | with_reducible apply State.auditResult_steady | with_reducible apply State.count_steady
    | with_reducible apply State.grantCredits_steady | with_reducible apply State.modSto_steady
    | with_reducible apply State.raise_steady | with_reducible apply State.setFld_steady

theorem State.auditEval_steady {s0 : State} {s : State} (h : Steady s0 s) :
    Steady s0 (State.auditEval s) := by
  unfold State.auditEval
  repeat' first
    | with_reducible assumption | intro _ | with_reducible apply Steady.ite
    | with_reducible apply State.auditLink_steady | with_reducible apply State.auditResult_steady
    | with_reducible apply Steady.foldl | split

theorem State.jobDone_steady {s0 : State} (k : Nat) {s : State} (h : Steady s0 s) :
    Steady s0 (State.jobDone k s) := by
  unfold State.jobDone
  repeat' first
    | with_reducible exact h | with_reducible apply State.count_steady | with_reducible apply State.raise_steady
    | with_reducible apply State.routeEvent_steady | with_reducible apply State.setJobState_steady

theorem State.finishJob_steady {s0 : State} (k : Nat) {s : State} (h : Steady s0 s) :
    Steady s0 (State.finishJob k s) := by
  unfold State.finishJob
  repeat' first
    | with_reducible assumption | intro _ | with_reducible apply Steady.ite
    | with_reducible apply State.jobDone_steady | with_reducible apply State.jobError_steady
    | with_reducible apply State.putSram_steady | with_reducible apply Steady.foldl | split
    | with_reducible apply Steady.id | dsimp only

theorem State.finishWhole_steady {s0 : State} (k : Nat) {s : State} (h : Steady s0 s) :
    Steady s0 (State.finishWhole k s) := by
  unfold State.finishWhole
  repeat' first
    | with_reducible assumption | intro _ | with_reducible apply Steady.ite
    | with_reducible apply State.countBy_steady | with_reducible apply State.jobDone_steady
    | with_reducible apply State.jobError_steady | with_reducible apply State.putKeyPair_steady
    | with_reducible apply State.putSram_steady | with_reducible apply State.putTw_steady
    | with_reducible apply State.randomBytes_steady | with_reducible apply Steady.foldl | split
    | with_reducible apply Steady.id | dsimp only

theorem State.ccryDone_steady {s0 : State} (k : Nat) {s : State} (h : Steady s0 s) :
    Steady s0 (State.ccryDone k s) := by
  unfold State.ccryDone
  repeat' first
    | with_reducible assumption | intro _ | with_reducible apply Steady.ite
    | with_reducible apply State.dispatchJobs_steady | with_reducible apply State.feed_steady
    | with_reducible apply State.finishJob_steady | with_reducible apply State.finishWhole_steady
    | with_reducible apply State.setJobState_steady

theorem State.regionAfter_steady {s0 : State} (r : Nat) {s : State} (h : Steady s0 s) :
    Steady s0 (State.regionAfter r s) := by
  unfold State.regionAfter
  repeat' first
    | with_reducible assumption | exact ⟨Nat.ne_of_beq_eq_false rfl, Nat.ne_of_beq_eq_false rfl⟩
    | exact Nat.le_of_ble_eq_true rfl | intro _ | with_reducible apply Steady.ite
    | with_reducible apply State.clkJudge_steady | with_reducible apply State.clkLose_steady
    | with_reducible apply State.dualJudge_steady | with_reducible apply State.keysLost_steady
    | with_reducible apply State.pmMarkAll_steady | with_reducible apply State.refreshPorts_steady
    | with_reducible apply State.setFld_steady | with_reducible apply State.setTimeValid_steady
    | with_reducible apply State.showKeystore_steady | with_reducible apply State.showTier_steady
    | with_reducible apply Steady.foldl | split

theorem State.wipeStore_steady {s0 : State} {s : State} (h : Steady s0 s) :
    Steady s0 (State.wipeStore s) := by
  unfold State.wipeStore
  repeat' first
    | with_reducible exact h | exact ⟨Nat.ne_of_beq_eq_false rfl, Nat.ne_of_beq_eq_false rfl⟩
    | exact Nat.le_of_ble_eq_true rfl | with_reducible apply State.modSto_steady
    | with_reducible apply State.setFld_steady

theorem State.wipeBlk_steady {s0 : State} (b : Blk) (i : Nat) {s : State} (h : Steady s0 s) :
    Steady s0 (State.wipeBlk b i s) := by
  unfold State.wipeBlk
  repeat' first
    | with_reducible assumption | intro _ | with_reducible apply Steady.ite
    | with_reducible apply State.modActs_steady | with_reducible apply State.modCcry_steady
    | with_reducible apply State.modCls_steady | with_reducible apply State.modCore_steady
    | with_reducible apply State.modDma_steady | with_reducible apply State.modDual_steady
    | with_reducible apply State.modFlow_steady | with_reducible apply State.modFlsh_steady
    | with_reducible apply State.modFrms_steady | with_reducible apply State.modFront_steady
    | with_reducible apply State.modGrts_steady | with_reducible apply State.modHals_steady
    | with_reducible apply State.modHif_steady | with_reducible apply State.modLehr_steady
    | with_reducible apply State.modLsec_steady | with_reducible apply State.modPm_steady
    | with_reducible apply State.modPol_steady | with_reducible apply State.modRxs_steady
    | with_reducible apply State.modSnap_steady | with_reducible apply State.modSto_steady
    | with_reducible apply State.modTime_steady | with_reducible apply State.modTsk_steady
    | with_reducible apply State.modTxs_steady | with_reducible apply State.modUni_steady
    | with_reducible apply State.modUsch_steady | with_reducible apply State.modXtr_steady
    | with_reducible apply State.wipeStore_steady | with_reducible apply Steady.foldl | split

theorem State.setPrbs_steady {s0 : State} (l : Nat) (on : Bool) {s : State} (h : Steady s0 s) :
    Steady s0 (State.setPrbs l on s) := by
  unfold State.setPrbs
  repeat' first
    | with_reducible assumption | exact ⟨Nat.ne_of_beq_eq_false rfl, Nat.ne_of_beq_eq_false rfl⟩
    | exact Nat.le_of_ble_eq_true rfl | intro _ | with_reducible apply Steady.ite
    | with_reducible apply State.setFld_steady | with_reducible apply State.setTf_steady
    | with_reducible apply Steady.foldl | split | with_reducible apply Steady.id | dsimp only

theorem State.crComplete_steady {s0 : State} (k : Nat) (bytes : Bytes) {s : State} (h : Steady s0 s) :
    Steady s0 (State.crComplete k bytes s) := by
  unfold State.crComplete
  repeat' first
    | with_reducible exact h | with_reducible apply State.modCore_steady | with_reducible apply State.putSram_steady

theorem State.crAdvance_steady {s0 : State} (k : Nat) (n : Nat) {s : State} (h : Steady s0 s) :
    Steady s0 (State.crAdvance k n s) := by
  unfold State.crAdvance
  repeat' first | with_reducible exact h | with_reducible apply State.setTf_steady

theorem State.countPair_steady {s0 : State} (q : Nat) (len : Nat) {s : State} (h : Steady s0 s) :
    Steady s0 (State.countPair q len s) := by
  unfold State.countPair
  repeat' first
    | with_reducible exact h | with_reducible apply State.count_steady | with_reducible apply State.countBy_steady

theorem State.crFill_steady {s0 : State} (k : Nat) (buf : Nat) (x3 : Nat) (x4 : Nat) (x5 : Bytes) {s : State} (h :
    Steady s0 s) :
       Steady s0 (State.crFill k buf x3 x4 x5 s) := by
  induction x3 generalizing x4 x5 s with
  | zero => exact h
  | succ n ih =>
    unfold State.crFill
    repeat' first | with_reducible exact h | with_reducible apply ih | with_reducible apply State.putSram_steady

theorem State.crReceive_steady {s0 : State} (k : Nat) (bs : Bytes) (cls : Nat) (service : Nat) (sample : Bool) (hash
    : Nat) (action : Nat) {s : State} (h : Steady s0 s) :
       Steady s0 (State.crReceive k bs cls service sample hash action s) := by
  unfold State.crReceive
  repeat' first
    | with_reducible exact h | with_reducible apply State.crAdvance_steady
    | with_reducible apply State.crComplete_steady | with_reducible apply State.crFill_steady

theorem State.debitNode_steady {s0 : State} (q : Nat) (n : Nat) {s : State} (h : Steady s0 s) :
    Steady s0 (State.debitNode q n s) := by
  unfold State.debitNode
  repeat' first
    | with_reducible assumption | intro _ | with_reducible apply State.iff_steady
    | with_reducible apply State.modSto_steady

theorem State.showHeadAge_steady {s0 : State} (q : Nat) {s : State} (h : Steady s0 s) :
    Steady s0 (State.showHeadAge q s) := by
  unfold State.showHeadAge
  repeat' first | with_reducible exact h | with_reducible apply State.setTf_steady

theorem State.downAge_steady {s0 : State} (q : Nat) (x2 : Nat) {s : State} (h : Steady s0 s) :
    Steady s0 (State.downAge q x2 s) := by
  induction x2 generalizing  s with
  | zero => exact h
  | succ n ih =>
    unfold State.downAge
    repeat' first
      | with_reducible assumption | with_reducible apply ih | intro _ | with_reducible apply Steady.ite
      | with_reducible apply State.ageDiscard_steady | with_reducible apply Steady.foldl | split

theorem State.examineDown_steady {s0 : State} (q : Nat) {s : State} (h : Steady s0 s) :
    Steady s0 (State.examineDown q s) := by
  unfold State.examineDown
  repeat' first
    | with_reducible exact h | with_reducible apply State.downAge_steady
    | with_reducible apply State.showHeadAge_steady

theorem State.pauseTurn_steady {s0 : State} (p : Nat) {s : State} (h : Steady s0 s) :
    Steady s0 (State.pauseTurn p s) := by
  unfold State.pauseTurn
  repeat' first
    | with_reducible exact h | with_reducible apply State.iff_steady | with_reducible apply State.pauseSend_steady

theorem State.starveJudge_steady {s0 : State} (q : Nat) {s : State} (h : Steady s0 s) :
    Steady s0 (State.starveJudge q s) := by
  unfold State.starveJudge
  repeat' first
    | with_reducible assumption | intro _ | with_reducible apply Steady.ite | with_reducible apply State.count_steady
    | with_reducible apply State.raiseMs_steady | with_reducible apply State.setStarved_steady
    | with_reducible apply Steady.foldl | split

theorem State.pin_steady {s0 : State} (p : Nat) (qs : List Nat) {s : State} (h : Steady s0 s) :
    Steady s0 (State.pin p qs s) := by
  unfold State.pin
  repeat' first | with_reducible exact h | with_reducible apply State.modSto_steady

theorem State.takeHead_steady {s0 : State} (q : Nat) (c : Copy) {s : State} (h : Steady s0 s) :
    Steady s0 (State.takeHead q c s) := by
  unfold State.takeHead
  repeat' first
    | with_reducible exact h | with_reducible apply State.debitNode_steady
    | with_reducible apply State.unlinkCopy_steady

theorem State.launchStart_steady {s0 : State} (p : Nat) (tag : Option Nat) {s : State} (h : Steady s0 s) :
    Steady s0 (State.launchStart p tag s) := by
  unfold State.launchStart
  repeat' first
    | with_reducible assumption | intro _ | with_reducible apply Steady.ite | with_reducible apply State.count_steady
    | with_reducible apply State.modTime_steady | with_reducible apply State.raiseMs_steady
    | with_reducible apply State.setTf_steady | with_reducible apply Steady.foldl | split

theorem State.startUni_steady {s0 : State} (p : Nat) (c : Copy) {s : State} (h : Steady s0 s) :
    Steady s0 (State.startUni p c s) := by
  unfold State.startUni
  repeat' first
    | with_reducible exact h | with_reducible apply State.count_steady | with_reducible apply State.iff_steady
    | with_reducible apply State.launchStart_steady | with_reducible apply State.modSto_steady
    | with_reducible apply State.ptpEgress_steady | with_reducible apply State.putSending_steady

theorem State.pickDown_steady {s0 : State} (p : Nat) (ok : Nat → Bool) {s : State} (h : Steady s0 s) :
    Steady s0 (State.pickDown p ok s).1 := by
  unfold State.pickDown
  repeat' first
    | with_reducible assumption | intro _ | with_reducible apply Steady.ite | with_reducible apply Steady.ite_fst
    | with_reducible apply State.modSto_steady | with_reducible apply Steady.foldl | split
    | with_reducible apply Steady.id | dsimp only

theorem State.serveDown_steady {s0 : State} (p : Nat) (ok : Nat → Bool) (x3 : Nat) {s : State} (h : Steady s0 s) :
    Steady s0 (State.serveDown p ok x3 s) := by
  induction x3 generalizing  s with
  | zero => exact h
  | succ n ih =>
    unfold State.serveDown
    repeat' first
      | with_reducible assumption | with_reducible apply ih | intro _ | with_reducible apply Steady.ite
      | with_reducible apply State.endCopy_steady | with_reducible apply State.pickDown_steady
      | with_reducible apply State.pin_steady | with_reducible apply State.putSending_steady
      | with_reducible apply State.showHeadAge_steady | with_reducible apply State.startUni_steady
      | with_reducible apply State.takeHead_steady | with_reducible apply Steady.foldl | split
      | with_reducible apply Steady.id | dsimp only

theorem State.servePort_steady {s0 : State} (p : Nat) (n : Nat) {s : State} (h : Steady s0 s) :
    Steady s0 (State.servePort p n s) := by
  unfold State.servePort
  repeat' first
    | with_reducible assumption | intro _ | with_reducible apply Steady.ite | with_reducible apply State.pin_steady
    | with_reducible apply State.serveDown_steady | with_reducible apply Steady.foldl | split
    | with_reducible apply Steady.id | dsimp only

theorem State.selectPort_steady {s0 : State} (p : Nat) {s : State} (h : Steady s0 s) :
    Steady s0 (State.selectPort p s) := by
  unfold State.selectPort
  repeat' first
    | with_reducible assumption | intro _ | with_reducible apply Steady.ite
    | with_reducible apply State.examineDown_steady | with_reducible apply State.pauseTurn_steady
    | with_reducible apply State.servePort_steady | with_reducible apply State.starveJudge_steady
    | with_reducible apply Steady.foldl | split

theorem State.fillBufs_steady {s0 : State} (f : Nat) (buf : Nat) (x3 : List Nat) (x4 : Bytes) {s : State} (h :
    Steady s0 s) :
       Steady s0 (State.fillBufs f buf x3 x4 s) := by
  induction x3 generalizing x4 s with
  | nil => exact h
  | cons x l ih =>
    unfold State.fillBufs
    repeat' first
      | with_reducible assumption | with_reducible apply ih | intro _ | with_reducible apply Steady.ite
      | with_reducible apply State.emit_steady

theorem State.fetchDescs_steady {s0 : State} (f : Nat) (rx : Bool) (k : Nat) (n : Nat) {s : State} (h : Steady s0 s) :
    Steady s0 (State.fetchDescs f rx k n s) := by
  unfold State.fetchDescs
  repeat' first
    | with_reducible assumption | intro _ | with_reducible apply State.emit_steady
    | with_reducible apply State.iff_steady

theorem State.hostReceive_steady {s0 : State} (f : Nat) (hash : Nat) (bufs : List Bytes) (bs : Bytes) (cls : Nat)
    (service : Nat) (sample : Bool) (action : Nat) {s : State} (h : Steady s0 s) :
       Steady s0 (State.hostReceive f hash bufs bs cls service sample action s) := by
  unfold State.hostReceive
  repeat' first
    | with_reducible exact h | with_reducible apply State.count_steady | with_reducible apply State.countBy_steady
    | with_reducible apply State.fetchDescs_steady | with_reducible apply State.fillBufs_steady
    | with_reducible apply State.ringAdvance_steady | with_reducible apply State.ringComplete_steady
    | with_reducible apply State.ringVector_steady

theorem State.hostWritten_steady {s0 : State} (f : Nat) (cls : Nat) (bufs : List Bytes) (c : Copy) {s : State} (h :
    Steady s0 s) :
       Steady s0 (State.hostWritten f cls bufs c s) := by
  unfold State.hostWritten
  repeat' first
    | with_reducible exact h | with_reducible apply State.count_steady | with_reducible apply State.countBy_steady
    | with_reducible apply State.countPair_steady | with_reducible apply State.hostReceive_steady
    | with_reducible apply State.releaseRef_steady

theorem State.dmaRxWrite_steady {s0 : State} (f : Nat) (cls : Nat) (bufs : List Bytes) {s : State} (h : Steady s0 s) :
    Steady s0 (State.dmaRxWrite f cls bufs s) := by
  unfold State.dmaRxWrite
  repeat' first
    | with_reducible assumption | intro _ | with_reducible apply Steady.ite
    | with_reducible apply State.endCopy_steady | with_reducible apply State.examineDown_steady
    | with_reducible apply State.hostWritten_steady | with_reducible apply State.iff_steady
    | with_reducible apply State.putSending_steady | with_reducible apply State.selectPort_steady
    | with_reducible apply State.starveJudge_steady | with_reducible apply Steady.foldl | split
    | with_reducible apply Steady.id | dsimp only

theorem State.flushUnits_steady {s0 : State} (d : Nat) {s : State} (h : Steady s0 s) :
    Steady s0 (State.flushUnits d s) := by
  unfold State.flushUnits
  repeat' first
    | with_reducible assumption | intro _ | with_reducible apply Steady.ite | with_reducible apply State.modCnt_steady
    | with_reducible apply Steady.foldl | split

theorem State.wipeLanes_steady {s0 : State} (q : Nat) {s : State} (h : Steady s0 s) :
    Steady s0 (State.wipeLanes q s) := by
  unfold State.wipeLanes
  repeat' first
    | with_reducible assumption | exact ⟨Nat.ne_of_beq_eq_false rfl, Nat.ne_of_beq_eq_false rfl⟩
    | exact Nat.le_of_ble_eq_true rfl | intro _ | with_reducible apply Steady.ite
    | with_reducible apply State.modUni_steady | with_reducible apply State.putTw_steady
    | with_reducible apply State.setFld_steady | with_reducible apply Steady.foldl | split
    | with_reducible apply Steady.id | dsimp only

theorem State.reloadUnits_steady {s0 : State} (d : Nat) {s : State} (h : Steady s0 s) :
    Steady s0 (State.reloadUnits d s) := by
  unfold State.reloadUnits
  repeat' first
    | with_reducible assumption | intro _ | with_reducible apply Steady.ite | with_reducible apply State.modCnt_steady
    | with_reducible apply Steady.foldl | split

theorem State.domainRetain_steady {s0 : State} (d : Nat) {s : State} (h : Steady s0 s) :
    Steady s0 (State.domainRetain d s) := by
  unfold State.domainRetain
  repeat' first
    | with_reducible exact h | with_reducible apply State.flushUnits_steady
    | with_reducible apply State.setDomState_steady

theorem State.dropHost_steady {s0 : State} {s : State} (h : Steady s0 s) :
    Steady s0 (State.dropHost s) := by
  unfold State.dropHost
  repeat' first
    | with_reducible assumption | intro _ | with_reducible apply Steady.ite
    | with_reducible apply State.abortJob_steady | with_reducible apply State.cxlDown_steady
    | with_reducible apply State.dropHands_steady | with_reducible apply State.iff_steady
    | with_reducible apply Steady.foldl | split

theorem State.dropLineWork_steady {s0 : State} (t : Tree) {s : State} (h : Steady s0 s) :
    Steady s0 (State.dropLineWork t s) := by
  unfold State.dropLineWork
  repeat' first
    | with_reducible assumption | intro _ | with_reducible apply Steady.ite
    | with_reducible apply State.suppressLate_steady | with_reducible apply State.truncate_steady
    | with_reducible apply Steady.foldl | split

theorem State.dropUp_steady {s0 : State} (ok : Nat → Bool) {s : State} (h : Steady s0 s) :
    Steady s0 (State.dropUp ok s) := by
  unfold State.dropUp
  repeat' first
    | with_reducible assumption | intro _ | with_reducible apply Steady.ite
    | with_reducible apply State.endCopy_steady | with_reducible apply State.releaseTier_steady
    | with_reducible apply State.unlinkCopy_steady | with_reducible apply Steady.foldl | split

theorem State.flushQueues_steady {s0 : State} (ok : Nat → Bool) {s : State} (h : Steady s0 s) :
    Steady s0 (State.flushQueues ok s) := by
  unfold State.flushQueues
  repeat' first
    | with_reducible assumption | intro _ | with_reducible apply Steady.ite
    | with_reducible apply State.dropWaiting_steady | with_reducible apply State.endCopy_steady
    | with_reducible apply State.putSending_steady | with_reducible apply State.setStarved_steady
    | with_reducible apply State.showHeadAge_steady | with_reducible apply State.unlinkCopy_steady
    | with_reducible apply Steady.foldl | split

theorem State.dropSwitch_steady {s0 : State} {s : State} (h : Steady s0 s) :
    Steady s0 (State.dropSwitch s) := by
  unfold State.dropSwitch
  repeat' first
    | with_reducible assumption | intro _ | with_reducible apply Steady.ite
    | with_reducible apply State.dropClassifier_steady | with_reducible apply State.dropDual_steady
    | with_reducible apply State.dropUp_steady | with_reducible apply State.dropWaiting_steady
    | with_reducible apply State.flushQueues_steady | with_reducible apply Steady.foldl | split

theorem State.dropWork_steady {s0 : State} (r : Nat) {s : State} (h : Steady s0 s) :
    Steady s0 (State.dropWork r s) := by
  unfold State.dropWork
  repeat' first
    | with_reducible assumption | intro _ | with_reducible apply Steady.ite
    | with_reducible apply State.dropHost_steady | with_reducible apply State.dropLineWork_steady
    | with_reducible apply State.dropStore_steady | with_reducible apply State.dropSwitch_steady
    | with_reducible apply State.linkFall_steady | with_reducible apply State.loseRecords_steady
    | with_reducible apply Steady.foldl | split

theorem State.selectCores_steady {s0 : State} {s : State} (h : Steady s0 s) :
    Steady s0 (State.selectCores s) := by
  unfold State.selectCores
  repeat' first
    | with_reducible assumption | intro _ | with_reducible apply Steady.ite | with_reducible apply State.count_steady
    | with_reducible apply State.countBy_steady | with_reducible apply State.crReceive_steady
    | with_reducible apply State.endCopy_steady | with_reducible apply State.examineDown_steady
    | with_reducible apply State.releaseRef_steady | with_reducible apply State.routeEvent_steady
    | with_reducible apply State.setStarved_steady | with_reducible apply State.showHeadAge_steady
    | with_reducible apply State.unlinkCopy_steady | with_reducible apply Steady.foldl | split
    | with_reducible apply Steady.id | dsimp only

theorem State.dschSelect_steady {s0 : State} (p : Nat) {s : State} (h : Steady s0 s) :
    Steady s0 (State.dschSelect p s) := by
  unfold State.dschSelect
  repeat' first
    | with_reducible assumption | intro _ | with_reducible apply Steady.ite
    | with_reducible apply State.selectCores_steady | with_reducible apply State.selectPort_steady

theorem State.portFlush_steady {s0 : State} (port : Nat) {s : State} (h : Steady s0 s) :
    Steady s0 (State.portFlush port s) := by
  unfold State.portFlush
  repeat' first
    | with_reducible assumption | intro _ | with_reducible apply Steady.ite
    | with_reducible apply State.flushQueues_steady | with_reducible apply State.raise_steady

theorem State.laneAdapt_steady {s0 : State} (l : Nat) {s : State} (h : Steady s0 s) :
    Steady s0 (State.laneAdapt l s) := by
  unfold State.laneAdapt
  repeat' first
    | with_reducible assumption | intro _ | with_reducible apply Steady.ite | with_reducible apply State.iff_steady
    | with_reducible apply State.modUni_steady | with_reducible apply State.setAdapting_steady

theorem State.laneFom_steady {s0 : State} (l : Nat) (fom : Nat) {s : State} (h : Steady s0 s) :
    Steady s0 (State.laneFom l fom s) := by
  unfold State.laneFom
  repeat' first
    | with_reducible exact h | with_reducible apply State.iff_steady | with_reducible apply State.modUni_steady
    | with_reducible apply State.raiseMs_steady | with_reducible apply State.setTf_steady

theorem State.laneUp_steady {s0 : State} (l : Nat) (seen : Nat) (inv : Bool) (ofs : Int) {s : State} (h : Steady s0
    s) :
       Steady s0 (State.laneUp l seen inv ofs s) := by
  unfold State.laneUp
  repeat' first
    | with_reducible assumption | intro _ | with_reducible apply Steady.ite | with_reducible apply State.iff_steady
    | with_reducible apply State.modUni_steady | with_reducible apply State.raise_steady
    | with_reducible apply State.setTf_steady | with_reducible apply Steady.foldl | split
    | with_reducible apply Steady.id | dsimp only

theorem State.linkRise_steady {s0 : State} (p : Nat) (up : LinkUpInfo) {s : State} (h : Steady s0 s) :
    Steady s0 (State.linkRise p up s) := by
  unfold State.linkRise
  repeat' first
    | with_reducible assumption | exact ⟨Nat.ne_of_beq_eq_false rfl, Nat.ne_of_beq_eq_false rfl⟩
    | exact Nat.le_of_ble_eq_true rfl | intro _ | with_reducible apply Steady.ite
    | with_reducible apply State.laneUp_steady | with_reducible apply State.modUni_steady
    | with_reducible apply State.raise_steady | with_reducible apply State.setFault_steady
    | with_reducible apply State.setPf_steady | with_reducible apply Steady.foldl | split

theorem State.lpiEnter_steady {s0 : State} (p : Nat) {s : State} (h : Steady s0 s) :
    Steady s0 (State.lpiEnter p s) := by
  unfold State.lpiEnter
  repeat' first
    | with_reducible assumption | exact ⟨Nat.ne_of_beq_eq_false rfl, Nat.ne_of_beq_eq_false rfl⟩
    | exact Nat.le_of_ble_eq_true rfl | intro _ | with_reducible apply Steady.ite
    | with_reducible apply State.count_steady | with_reducible apply State.setPf_steady

theorem State.unshedRegion_steady {s0 : State} (t : Tree) {s : State} (h : Steady s0 s) :
    Steady s0 (State.unshedRegion t s) := by
  unfold State.unshedRegion
  repeat' first
    | with_reducible assumption | exact ⟨Nat.ne_of_beq_eq_false rfl, Nat.ne_of_beq_eq_false rfl⟩
    | exact Nat.le_of_ble_eq_true rfl | intro _ | with_reducible apply Steady.ite
    | with_reducible apply State.domainWake_steady | with_reducible apply State.raise_steady
    | with_reducible apply State.setFld_steady | with_reducible apply State.setRegion_steady
    | with_reducible apply Steady.foldl | split

theorem State.noteTmc_steady {s0 : State} (t : Tree) (fc : Nat) (bs : Bytes) {s : State} (h : Steady s0 s) :
    Steady s0 (State.noteTmc t fc bs s) := by
  unfold State.noteTmc
  repeat' first | with_reducible exact h | with_reducible apply State.modActs_steady

theorem State.pauseEnd_steady {s0 : State} (p : Nat) (n : Nat) {s : State} (h : Steady s0 s) :
    Steady s0 (State.pauseEnd p n s) := by
  unfold State.pauseEnd
  repeat' first
    | with_reducible assumption | exact ⟨Nat.ne_of_beq_eq_false rfl, Nat.ne_of_beq_eq_false rfl⟩
    | exact Nat.le_of_ble_eq_true rfl | intro _ | with_reducible apply Steady.ite
    | with_reducible apply State.setPaused_steady | with_reducible apply State.setPf_steady

theorem State.prbsCheck_steady {s0 : State} (l : Nat) (levels : List Int) {s : State} (h : Steady s0 s) :
    Steady s0 (State.prbsCheck l levels s) := by
  unfold State.prbsCheck
  repeat' first
    | with_reducible assumption | intro _ | with_reducible apply State.countBy_steady
    | with_reducible apply State.iff_steady | with_reducible apply State.modUni_steady
    | with_reducible apply State.putTw_steady | with_reducible apply State.raiseMs_steady
    | with_reducible apply State.setPrbs_steady

theorem State.prbsSee_steady {s0 : State} (l : Nat) (levels : List Int) {s : State} (h : Steady s0 s) :
    Steady s0 (State.prbsSee l levels s) := by
  unfold State.prbsSee
  repeat' first
    | with_reducible assumption | intro _ | with_reducible apply Steady.ite | with_reducible apply State.modUni_steady
    | with_reducible apply State.prbsCheck_steady | with_reducible apply State.raiseMs_steady
    | with_reducible apply State.setPrbs_steady | with_reducible apply Steady.foldl | split

theorem State.reclaim_steady {s0 : State} {s : State} (c : Nat) (h : Steady s0 s) :
    Steady s0 (State.reclaim s c) := by
  unfold State.reclaim
  repeat' first
    | with_reducible exact h | with_reducible apply State.modSto_steady
    | with_reducible apply State.returnCells_steady

theorem State.sampleDeliver_steady {s0 : State} (bufs : List Bytes) {s : State} (h : Steady s0 s) :
    Steady s0 (State.sampleDeliver bufs s) := by
  unfold State.sampleDeliver
  repeat' first
    | with_reducible assumption | intro _ | with_reducible apply Steady.ite | with_reducible apply State.count_steady
    | with_reducible apply State.countBy_steady | with_reducible apply State.crReceive_steady
    | with_reducible apply State.endCopy_steady | with_reducible apply State.examineDown_steady
    | with_reducible apply State.hostReceive_steady | with_reducible apply State.raiseMs_steady
    | with_reducible apply State.releaseRef_steady | with_reducible apply State.routeEvent_steady
    | with_reducible apply State.setStarved_steady | with_reducible apply State.showHeadAge_steady
    | with_reducible apply State.unlinkCopy_steady | with_reducible apply Steady.foldl | split
    | with_reducible apply Steady.id | dsimp only

theorem State.setCdr_steady {s0 : State} (l : Nat) (on : Bool) {s : State} (h : Steady s0 s) :
    Steady s0 (State.setCdr l on s) := by
  unfold State.setCdr
  repeat' first
    | with_reducible assumption | exact ⟨Nat.ne_of_beq_eq_false rfl, Nat.ne_of_beq_eq_false rfl⟩
    | exact Nat.le_of_ble_eq_true rfl | intro _ | with_reducible apply Steady.ite
    | with_reducible apply State.setAdapting_steady | with_reducible apply State.setFld_steady
    | with_reducible apply State.setTf_steady | with_reducible apply Steady.foldl | split
    | with_reducible apply Steady.id | dsimp only

theorem State.sweepDone_steady {s0 : State} {s : State} (h : Steady s0 s) :
    Steady s0 (State.sweepDone s) := by
  unfold State.sweepDone
  repeat' first
    | with_reducible assumption | exact ⟨Nat.ne_of_beq_eq_false rfl, Nat.ne_of_beq_eq_false rfl⟩
    | exact Nat.le_of_ble_eq_true rfl | intro _ | with_reducible apply Steady.ite
    | with_reducible apply State.auditResult_steady | with_reducible apply State.count_steady
    | with_reducible apply State.countBy_steady | with_reducible apply State.iff_steady
    | with_reducible apply State.modSto_steady | with_reducible apply State.raise_steady
    | with_reducible apply State.reclaim_steady | with_reducible apply State.setFld_steady
    | with_reducible apply Steady.foldl | split

theorem State.tmcRing_steady {s0 : State} (t : Tree) (bs : Bytes) {s : State} (h : Steady s0 s) :
    Steady s0 (State.tmcRing t bs s) := by
  unfold State.tmcRing
  repeat' first
    | with_reducible assumption | intro _ | with_reducible apply Steady.ite | with_reducible apply State.count_steady
    | with_reducible apply State.crReceive_steady | with_reducible apply State.raiseMs_steady
    | with_reducible apply State.routeEvent_steady

theorem State.uniComplete_steady {s0 : State} (p : Nat) {s : State} (h : Steady s0 s) :
    Steady s0 (State.uniComplete p s) := by
  unfold State.uniComplete
  repeat' first
    | with_reducible assumption | intro _ | with_reducible apply Steady.ite
    | with_reducible apply State.abortCopy_steady | with_reducible apply State.count_steady
    | with_reducible apply State.countBy_steady | with_reducible apply State.countPair_steady
    | with_reducible apply State.emit_steady | with_reducible apply State.modSto_steady
    | with_reducible apply State.pauseFlush_steady | with_reducible apply State.putSending_steady
    | with_reducible apply State.releaseRef_steady | with_reducible apply Steady.foldl | split

theorem State.uniReceive_steady {s0 : State} (p : Nat) (bs : Bytes) (fcsErr : Bool) (corrected : Nat) (uncorrectable
    : Nat) {s : State} (h : Steady s0 s) :
       Steady s0 (State.uniReceive p bs fcsErr corrected uncorrectable s) := by
  unfold State.uniReceive
  repeat' first
    | with_reducible assumption | intro _ | with_reducible apply Steady.ite | with_reducible apply State.count_steady
    | with_reducible apply State.countBy_steady | with_reducible apply State.handUni_steady
    | with_reducible apply State.macControl_steady | with_reducible apply State.ptpIngress_steady
    | with_reducible apply State.uniBadFcs_steady

end Sys2Proof.Machine
end

