-- ==== Sys2Proof/Laws/SteadyHost.lean ====
section
/-! SUPPORT. What leaves every PAGE_CTRL and every standing pennant bit (Laws/Steady.lean): the host interface, cores, flash, and their commands. -/

namespace Sys2Proof.Machine

theorem State.txComplete_steady {s0 : State} (f : Nat) (k : Nat) (es : List TxEntry) (status : Nat) (seg : Nat) (sum
    : Nat) {s : State} (h : Steady s0 s) :
       Steady s0 (State.txComplete f k es status seg sum s) := by
  unfold State.txComplete
  repeat' first
    | with_reducible exact h | with_reducible apply State.iff_steady | with_reducible apply State.ringComplete_steady
    | with_reducible apply State.ringVector_steady

theorem State.txEnd_steady {s0 : State} (f : Nat) (k : Nat) (es : List TxEntry) (status : Nat) (seg : Nat) (sum :
    Nat) (counter : Nat) {s : State} (h : Steady s0 s) :
       Steady s0 (State.txEnd f k es status seg sum counter s) := by
  unfold State.txEnd
  repeat' first
    | with_reducible exact h | with_reducible apply State.count_steady | with_reducible apply State.ringAdvance_steady
    | with_reducible apply State.txComplete_steady

theorem State.abortRingJob_steady {s0 : State} (f : Nat) (k : Nat) {s : State} (h : Steady s0 s) :
    Steady s0 (State.abortRingJob f k s) := by
  unfold State.abortRingJob
  repeat' first
    | with_reducible assumption | intro _ | with_reducible apply Steady.ite
    | with_reducible apply State.dropJob_steady | with_reducible apply State.txEnd_steady
    | with_reducible apply Steady.foldl | split

theorem State.cxlStop_steady {s0 : State} {s : State} (h : Steady s0 s) :
    Steady s0 (State.cxlStop s) := by
  unfold State.cxlStop
  repeat' first
    | with_reducible assumption | intro _ | with_reducible apply Steady.ite
    | with_reducible apply State.cxlDown_steady | with_reducible apply State.modHif_steady

theorem State.setRingState_steady {s0 : State} (f : Nat) (rx : Bool) (k : Nat) (v : Nat) {s : State} (h : Steady s0
    s) :
       Steady s0 (State.setRingState f rx k v s) := by
  unfold State.setRingState
  repeat' first
    | with_reducible assumption | exact ⟨Nat.ne_of_beq_eq_false rfl, Nat.ne_of_beq_eq_false rfl⟩
    | exact Nat.le_of_ble_eq_true rfl | intro _ | with_reducible apply Steady.ite
    | with_reducible apply State.setFld_steady | with_reducible apply State.setRg_steady
    | with_reducible apply Steady.foldl | split

theorem State.drainRing_steady {s0 : State} (f : Nat) (rx : Bool) (k : Nat) (quiet : Bool) {s : State} (h : Steady
    s0 s) :
       Steady s0 (State.drainRing f rx k quiet s) := by
  unfold State.drainRing
  repeat' first
    | with_reducible assumption | intro _ | with_reducible apply Steady.ite
    | with_reducible apply State.abortJob_steady | with_reducible apply State.abortRingJob_steady
    | with_reducible apply State.modRing_steady | with_reducible apply State.ringAdvance_steady
    | with_reducible apply State.setRingState_steady

theorem State.pcieDown_steady {s0 : State} (l2 : Bool) {s : State} (h : Steady s0 s) :
    Steady s0 (State.pcieDown l2 s) := by
  unfold State.pcieDown
  repeat' first
    | with_reducible assumption | exact ⟨Nat.ne_of_beq_eq_false rfl, Nat.ne_of_beq_eq_false rfl⟩
    | exact Nat.le_of_ble_eq_true rfl | intro _ | with_reducible apply State.count_steady
    | with_reducible apply State.iff_steady | with_reducible apply State.modHif_steady
    | with_reducible apply State.raise_steady | with_reducible apply State.setFld_steady

theorem State.flashStop_steady {s0 : State} {s : State} (h : Steady s0 s) :
    Steady s0 (State.flashStop s) := by
  unfold State.flashStop
  repeat' first | with_reducible exact h | with_reducible apply State.modFlsh_steady

theorem State.modCoreRun_steady {s0 : State} (c : Nat) (f : CoreRun → CoreRun) {s : State} (h : Steady s0 s) :
    Steady s0 (State.modCoreRun c f s) := by
  unfold State.modCoreRun
  repeat' first | with_reducible exact h | with_reducible apply State.modCore_steady

theorem State.flowTurn_steady {s0 : State} (k : Nat) {s : State} (h : Steady s0 s) :
    Steady s0 (State.flowTurn k s) := by
  unfold State.flowTurn
  repeat' first
    | with_reducible assumption | intro _ | with_reducible apply Steady.ite | with_reducible apply State.count_steady
    | with_reducible apply State.setTf_steady

theorem State.flowJudge_steady {s0 : State} {s : State} (h : Steady s0 s) :
    Steady s0 (State.flowJudge s) := by
  unfold State.flowJudge
  repeat' first
    | with_reducible assumption | intro _ | with_reducible apply Steady.ite
    | with_reducible apply State.flowTurn_steady | with_reducible apply Steady.foldl | split

theorem State.releaseFlow_steady {s0 : State} (k : Nat) {s : State} (h : Steady s0 s) :
    Steady s0 (State.releaseFlow k s) := by
  unfold State.releaseFlow
  repeat' first
    | with_reducible assumption | intro _ | with_reducible apply Steady.ite
    | with_reducible apply State.flowJudge_steady | with_reducible apply State.modCore_steady
    | with_reducible apply Steady.foldl | split | (refine (?_ : Sparse.wf _ _ = true); assumption)
    | exact Sparse.wf_filter _ _ _ (by assumption) | exact Sparse.wf_put _ _ _ _ (by assumption)
    | (refine (?_ : _ < counterMod _); apply_assumption) | with_reducible apply Steady.id | dsimp only

theorem State.setTaskState_steady {s0 : State} (k : Nat) (v : Nat) (c : Nat) {s : State} (h : Steady s0 s) :
    Steady s0 (State.setTaskState k v c s) := by
  unfold State.setTaskState
  repeat' first | with_reducible exact h | with_reducible apply State.setTf_steady

theorem State.taskWaits_steady {s0 : State} (k : Nat) {s : State} (h : Steady s0 s) :
    Steady s0 (State.taskWaits k s) := by
  unfold State.taskWaits
  repeat' first
    | with_reducible exact h | with_reducible apply State.judgeTask_steady
    | with_reducible apply State.setTaskState_steady

theorem State.endTask_steady {s0 : State} (r : TaskRun) {s : State} (h : Steady s0 s) :
    Steady s0 (State.endTask r s) := by
  unfold State.endTask
  repeat' first
    | with_reducible exact h | with_reducible apply State.putTw_steady | with_reducible apply State.releaseFlow_steady
    | with_reducible apply State.taskWaits_steady

theorem State.holdHalf_steady {s0 : State} (x1 : Nat) {s : State} (h : Steady s0 s) :
    Steady s0 (State.holdHalf x1 s) := by
  unfold State.holdHalf
  repeat' first
    | with_reducible assumption | intro _ | with_reducible apply Steady.ite
    | with_reducible apply State.endTask_steady | with_reducible apply State.modCore_steady
    | with_reducible apply State.modCoreRun_steady | with_reducible apply State.taskWaits_steady
    | with_reducible apply Steady.foldl | split

theorem State.judgeTasks_steady {s0 : State} {s : State} (h : Steady s0 s) :
    Steady s0 (State.judgeTasks s) := by
  unfold State.judgeTasks
  repeat' first
    | with_reducible assumption | intro _ | with_reducible apply Steady.ite
    | with_reducible apply State.flowJudge_steady | with_reducible apply State.judgeTask_steady
    | with_reducible apply Steady.foldl | split

theorem State.swapBanks_steady {s0 : State} {s : State} (h : Steady s0 s) :
    Steady s0 (State.swapBanks s) := by
  unfold State.swapBanks
  repeat' first
    | with_reducible assumption | intro _ | with_reducible apply Steady.ite
    | with_reducible apply State.modCore_steady | with_reducible apply State.putTw_steady
    | with_reducible apply State.resetTable_steady | with_reducible apply Steady.foldl | split

theorem State.setHalf_steady {s0 : State} (x1 : Nat) {s : State} (h : Steady s0 s) :
    Steady s0 (State.setHalf x1 s) := by
  unfold State.setHalf
  repeat' first
    | with_reducible assumption | exact ⟨Nat.ne_of_beq_eq_false rfl, Nat.ne_of_beq_eq_false rfl⟩
    | exact Nat.le_of_ble_eq_true rfl | intro _ | with_reducible apply Steady.ite
    | with_reducible apply State.judgeTasks_steady | with_reducible apply State.setFld_steady
    | with_reducible apply State.swapBanks_steady

theorem State.setPunty_steady {s0 : State} (v : Nat) {s : State} (h : Steady s0 s) :
    Steady s0 (State.setPunty v s) := by
  unfold State.setPunty
  repeat' first
    | with_reducible exact h | exact ⟨Nat.ne_of_beq_eq_false rfl, Nat.ne_of_beq_eq_false rfl⟩
    | exact Nat.le_of_ble_eq_true rfl | with_reducible apply State.setFld_steady

theorem State.cxlStart_steady {s0 : State} {s : State} (h : Steady s0 s) :
    Steady s0 (State.cxlStart s) := by
  unfold State.cxlStart
  repeat' first
    | with_reducible assumption | exact ⟨Nat.ne_of_beq_eq_false rfl, Nat.ne_of_beq_eq_false rfl⟩
    | exact Nat.le_of_ble_eq_true rfl | intro _ | with_reducible apply Steady.ite
    | with_reducible apply State.modHif_steady | with_reducible apply State.setFld_steady

theorem State.ringRun_steady {s0 : State} (f : Nat) (rx : Bool) (k : Nat) {s : State} (h : Steady s0 s) :
    Steady s0 (State.ringRun f rx k s) := by
  unfold State.ringRun
  repeat' first
    | with_reducible assumption | intro _ | with_reducible apply Steady.ite
    | with_reducible apply State.modRing_steady | with_reducible apply State.setRingState_steady

theorem State.halSubmitCmd_steady {s0 : State} (t : Tree) (k : Nat) {s : State} (h : Steady s0 s) :
    Steady s0 (State.halSubmitCmd t k s) := by
  unfold State.halSubmitCmd
  repeat' first
    | with_reducible assumption | intro _ | with_reducible apply Steady.ite
    | with_reducible apply State.halSubmit_steady | with_reducible apply State.ignored_steady

theorem State.wakeClear_steady {s0 : State} (bits : Nat) {s : State} (h : Steady s0 s) :
    Steady s0 (State.wakeClear bits s) := by
  unfold State.wakeClear
  repeat' first
    | with_reducible assumption | exact ⟨Nat.ne_of_beq_eq_false rfl, Nat.ne_of_beq_eq_false rfl⟩
    | exact Nat.le_of_ble_eq_true rfl | intro _ | with_reducible apply Steady.ite
    | with_reducible apply State.iff_steady | with_reducible apply State.modHif_steady
    | with_reducible apply State.setFld_steady | with_reducible apply Steady.foldl | split
    | with_reducible apply Steady.id | dsimp only

theorem State.coreRelease_steady {s0 : State} (mask : Nat) {s : State} (h : Steady s0 s) :
    Steady s0 (State.coreRelease mask s) := by
  unfold State.coreRelease
  repeat' first
    | with_reducible exact h | with_reducible apply State.freeLast_steady | with_reducible apply State.modRel_steady

theorem State.puntyArm_steady {s0 : State} (handover : Nat) {s : State} (h : Steady s0 s) :
    Steady s0 (State.puntyArm handover s) := by
  unfold State.puntyArm
  repeat' first
    | with_reducible assumption | exact ⟨Nat.ne_of_beq_eq_false rfl, Nat.ne_of_beq_eq_false rfl⟩
    | exact Nat.le_of_ble_eq_true rfl | intro _ | with_reducible apply Steady.ite
    | with_reducible apply State.modCore_steady | with_reducible apply State.setFld_steady
    | with_reducible apply State.setPunty_steady

theorem State.puntyReady_steady {s0 : State} {s : State} (h : Steady s0 s) :
    Steady s0 (State.puntyReady s) := by
  unfold State.puntyReady
  repeat' first
    | with_reducible assumption | intro _ | with_reducible apply Steady.ite | with_reducible apply State.raise_steady
    | with_reducible apply State.setPunty_steady

theorem State.puntyCommit_steady {s0 : State} {s : State} (h : Steady s0 s) :
    Steady s0 (State.puntyCommit s) := by
  unfold State.puntyCommit
  repeat' first
    | with_reducible assumption | intro _ | with_reducible apply Steady.ite
    | with_reducible apply State.setPunty_steady

theorem State.puntyAbort_steady {s0 : State} (cause : Nat) {s : State} (h : Steady s0 s) :
    Steady s0 (State.puntyAbort cause s) := by
  unfold State.puntyAbort
  repeat' first
    | with_reducible assumption | exact ⟨Nat.ne_of_beq_eq_false rfl, Nat.ne_of_beq_eq_false rfl⟩
    | exact Nat.le_of_ble_eq_true rfl | intro _ | with_reducible apply Steady.ite
    | with_reducible apply State.count_steady | with_reducible apply State.holdHalf_steady
    | with_reducible apply State.modCore_steady | with_reducible apply State.raise_steady
    | with_reducible apply State.setFld_steady | with_reducible apply State.setPunty_steady

theorem State.tskSet_steady {s0 : State} (task : Nat) (flag : Nat) {s : State} (h : Steady s0 s) :
    Steady s0 (State.tskSet task flag s) := by
  unfold State.tskSet
  repeat' first
    | with_reducible assumption | intro _ | with_reducible apply Steady.ite | with_reducible apply State.count_steady
    | with_reducible apply State.ignored_steady | with_reducible apply State.setTaskFlag_steady

theorem State.setFlashResult_steady {s0 : State} (w : Window) (v : Nat) {s : State} (h : Steady s0 s) :
    Steady s0 (State.setFlashResult w v s) := by
  unfold State.setFlashResult
  repeat' first | with_reducible exact h | with_reducible apply State.modFlsh_steady

theorem State.flashEnd_steady {s0 : State} (c : FlashCmd) (result : Nat) {s : State} (h : Steady s0 s) :
    Steady s0 (State.flashEnd c result s) := by
  unfold State.flashEnd
  repeat' first
    | with_reducible assumption | intro _ | with_reducible apply Steady.ite | with_reducible apply State.iff_steady
    | with_reducible apply State.raise_steady | with_reducible apply State.routeEvent_steady
    | with_reducible apply State.setFlashResult_steady

theorem State.putJournal_steady {s0 : State} (e : Nat) (w : Nat) (v : Word) {s : State} (h : Steady s0 s) :
    Steady s0 (State.putJournal e w v s) := by
  unfold State.putJournal
  repeat' first | with_reducible exact h | with_reducible apply State.modFlsh_steady

theorem State.journalWrite_steady {s0 : State} (addr : Nat) {s : State} (h : Steady s0 s) :
    ∀ out, State.journalWrite addr s = some out → Steady s0 out := by
  intro out e
  unfold State.journalWrite at e
  dsimp only at e
  repeat' split at e
  all_goals first
    | cases e; done
    | (injection e with e; subst e)
  all_goals
    repeat' first
      | with_reducible assumption | intro _ | with_reducible apply State.count_steady
      | with_reducible apply State.iff_steady | with_reducible apply State.modFlsh_steady
      | with_reducible apply State.putJournal_steady

theorem State.sectorUnknown_steady {s0 : State} (sec : Nat) {s : State} (h : Steady s0 s) :
    Steady s0 (State.sectorUnknown sec s) := by
  unfold State.sectorUnknown
  repeat' first
    | with_reducible exact h | with_reducible apply State.modFlsh_steady | with_reducible apply State.useFree_steady

theorem State.eraseStart_steady {s0 : State} (c : FlashCmd) {s : State} (h : Steady s0 s) :
    Steady s0 (State.eraseStart c s) := by
  unfold State.eraseStart
  repeat' first
    | with_reducible assumption | intro _ | with_reducible apply Steady.ite | with_reducible apply State.count_steady
    | with_reducible apply State.flashEnd_steady
    | (with_reducible refine State.journalWrite_steady _ ?_ _ (by assumption))
    | with_reducible apply State.modFlsh_steady | with_reducible apply State.sectorUnknown_steady
    | with_reducible apply Steady.foldl | split

theorem State.flashNext_steady {s0 : State} (x1 : Nat) {s : State} (h : Steady s0 s) :
    Steady s0 (State.flashNext x1 s) := by
  induction x1 generalizing  s with
  | zero => exact h
  | succ n ih =>
    unfold State.flashNext
    repeat' first
      | with_reducible assumption | with_reducible apply ih | intro _ | with_reducible apply Steady.ite
      | with_reducible apply State.count_steady | with_reducible apply State.eraseStart_steady
      | with_reducible apply State.iff_steady | with_reducible apply State.modFlsh_steady
      | with_reducible apply Steady.foldl | split

theorem State.flashCommand_steady {s0 : State} (w : Window) (op : Nat) (fromStage : Bool) {s : State} (h : Steady s0
    s) :
       Steady s0 (State.flashCommand w op fromStage s) := by
  unfold State.flashCommand
  repeat' first
    | with_reducible assumption | intro _ | with_reducible apply Steady.ite | with_reducible apply State.count_steady
    | with_reducible apply State.flashNext_steady | with_reducible apply State.iff_steady
    | with_reducible apply State.ignored_steady | with_reducible apply State.modFlsh_steady
    | with_reducible apply State.setFlashResult_steady

theorem State.putBootRec_steady {s0 : State} (trial : Nat) (count : Nat) (failed : Nat) {s : State} (h : Steady s0
    s) :
       Steady s0 (State.putBootRec trial count failed s) := by
  unfold State.putBootRec
  repeat' first
    | with_reducible assumption | intro _ | with_reducible apply Steady.ite | with_reducible apply State.putTw_steady
    | with_reducible apply Steady.foldl | split

theorem State.bootConfirm_steady {s0 : State} {s : State} (h : Steady s0 s) :
    Steady s0 (State.bootConfirm s) := by
  unfold State.bootConfirm
  repeat' first
    | with_reducible assumption | exact ⟨Nat.ne_of_beq_eq_false rfl, Nat.ne_of_beq_eq_false rfl⟩
    | exact Nat.le_of_ble_eq_true rfl | intro _ | with_reducible apply State.iff_steady
    | with_reducible apply State.putBootRec_steady | with_reducible apply State.setFld_steady

theorem State.putLocal_steady {s0 : State} (c : Nat) (a : Nat) (bs : Bytes) {s : State} (h : Steady s0 s) :
    Steady s0 (State.putLocal c a bs s) := by
  unfold State.putLocal
  repeat' first | with_reducible exact h | with_reducible apply State.modCore_steady

theorem State.placeRecord_steady {s0 : State} (half : Nat) (mask : Nat) (addr : Nat) (bs : Bytes) {s : State} (h :
    Steady s0 s) :
       ∀ out, State.placeRecord half mask addr bs s = some out → Steady s0 out := by
  intro out e
  unfold State.placeRecord at e
  dsimp only at e
  repeat' split at e
  all_goals first
    | cases e; done
    | (injection e with e; subst e)
  all_goals
    repeat' first
      | with_reducible assumption | intro _ | with_reducible apply Steady.ite | with_reducible apply State.iff_steady
      | with_reducible apply State.modCore_steady | with_reducible apply State.putLocal_steady
      | with_reducible apply State.putSram_steady | with_reducible apply Steady.foldl | split

theorem State.loadRecords_steady {s0 : State} (half : Nat) (base : Nat) (x3 : Nat) (x4 : Nat) (x5 : Bytes) {s :
    State} (h : Steady s0 s) :
       Steady s0 (State.loadRecords half base x3 x4 x5 s).1 := by
  induction x3 generalizing x4 x5 s with
  | zero => exact h
  | succ n ih =>
    unfold State.loadRecords
    repeat' first
      | with_reducible assumption | with_reducible apply ih | intro _ | with_reducible apply Steady.ite
      | with_reducible apply Steady.ite_fst
      | (with_reducible refine State.placeRecord_steady _ _ _ _ ?_ _ (by assumption))
      | with_reducible apply Steady.foldl | split

theorem State.putDir_steady {s0 : State} (half : Nat) (dir : Bytes) {s : State} (h : Steady s0 s) :
    Steady s0 (State.putDir half dir s) := by
  unfold State.putDir
  repeat' first
    | with_reducible exact h | with_reducible apply State.modCore_steady | with_reducible apply State.putSram_steady

theorem State.loadSlot_steady {s0 : State} (half : Nat) (slot : Nat) {s : State} (h : Steady s0 s) :
    Steady s0 (State.loadSlot half slot s).1 := by
  unfold State.loadSlot
  repeat' first
    | with_reducible assumption | intro _ | with_reducible apply Steady.ite | with_reducible apply Steady.ite_fst
    | with_reducible apply State.loadRecords_steady | with_reducible apply State.modCore_steady
    | with_reducible apply State.putDir_steady

theorem State.tryLoad_steady {s0 : State} (half : Nat) (slot : Nat) {s : State} (h : Steady s0 s) :
    Steady s0 (State.tryLoad half slot s).1 := by
  unfold State.tryLoad
  repeat' first
    | with_reducible assumption | exact ⟨Nat.ne_of_beq_eq_false rfl, Nat.ne_of_beq_eq_false rfl⟩
    | exact Nat.le_of_ble_eq_true rfl | intro _ | with_reducible apply Steady.ite
    | with_reducible apply Steady.ite_fst | with_reducible apply State.count_steady
    | with_reducible apply State.loadSlot_steady | with_reducible apply State.raise_steady
    | with_reducible apply State.setFld_steady

theorem State.loadFirst_steady {s0 : State} (half : Nat) (x2 : List Nat) {s : State} (h : Steady s0 s) :
    Steady s0 (State.loadFirst half x2 s).1 := by
  induction x2 generalizing  s with
  | nil => exact h
  | cons x l ih =>
    unfold State.loadFirst
    repeat' first
      | with_reducible assumption | with_reducible apply ih | intro _ | with_reducible apply Steady.ite
      | with_reducible apply Steady.ite_fst | with_reducible apply State.tryLoad_steady

theorem State.copySerial_steady {s0 : State} {s : State} (h : Steady s0 s) :
    Steady s0 (State.copySerial s) := by
  unfold State.copySerial
  repeat' first
    | with_reducible assumption | exact ⟨Nat.ne_of_beq_eq_false rfl, Nat.ne_of_beq_eq_false rfl⟩
    | exact Nat.le_of_ble_eq_true rfl | intro _ | with_reducible apply Steady.ite
    | with_reducible apply State.putReg_steady | with_reducible apply Steady.foldl | split

theorem State.releaseHalf_steady {s0 : State} (half : Nat) (slot : Nat) {s : State} (h : Steady s0 s) :
    Steady s0 (State.releaseHalf half slot s) := by
  unfold State.releaseHalf
  repeat' first
    | with_reducible assumption | intro _ | with_reducible apply Steady.ite
    | with_reducible apply State.modCoreRun_steady | with_reducible apply Steady.foldl | split

theorem State.bootEnd_steady {s0 : State} (slot : Option Nat) (trial : Bool) (count : Nat) {s : State} (h : Steady
    s0 s) :
       Steady s0 (State.bootEnd slot trial count s) := by
  unfold State.bootEnd
  repeat' first
    | with_reducible assumption | exact ⟨Nat.ne_of_beq_eq_false rfl, Nat.ne_of_beq_eq_false rfl⟩
    | exact Nat.le_of_ble_eq_true rfl | intro _ | with_reducible apply Steady.ite
    | with_reducible apply State.copySerial_steady | with_reducible apply State.iff_steady
    | with_reducible apply State.modCore_steady | with_reducible apply State.raise_steady
    | with_reducible apply State.releaseHalf_steady | with_reducible apply State.setFld_steady
    | with_reducible apply Steady.foldl | split

theorem State.bootRetry_steady {s0 : State} {s : State} (h : Steady s0 s) :
    Steady s0 (State.bootRetry s) := by
  unfold State.bootRetry
  repeat' first
    | with_reducible assumption | intro _ | with_reducible apply Steady.ite
    | with_reducible apply State.bootEnd_steady | with_reducible apply State.loadFirst_steady

theorem State.barWrite_steady {s0 : State} (n : Nat) (addr : Nat) {s : State} (h : Steady s0 s) :
    Steady s0 (State.barWrite n addr s) := by
  unfold State.barWrite
  repeat' first | with_reducible exact h | with_reducible apply State.modHif_steady

theorem State.sectorErased_steady {s0 : State} (sec : Nat) {s : State} (h : Steady s0 s) :
    Steady s0 (State.sectorErased sec s) := by
  unfold State.sectorErased
  repeat' first | with_reducible exact h | with_reducible apply State.modFlsh_steady

theorem State.recoverEntry_steady {s0 : State} (resume : Bool) (bad : Bool) (e : Nat) {s : State} (h : Steady s0 s) :
    Steady s0 (State.recoverEntry resume bad e s) := by
  unfold State.recoverEntry
  repeat' first
    | with_reducible assumption | intro _ | with_reducible apply Steady.ite | with_reducible apply State.count_steady
    | with_reducible apply State.putJournal_steady | with_reducible apply State.sectorErased_steady
    | with_reducible apply State.sectorUnknown_steady | with_reducible apply State.setFlashResult_steady

theorem State.journalRecover_steady {s0 : State} (suspended : Bool) (bad : List Nat) {s : State} (h : Steady s0 s) :
    Steady s0 (State.journalRecover suspended bad s) := by
  unfold State.journalRecover
  repeat' first
    | with_reducible assumption | intro _ | with_reducible apply Steady.ite | with_reducible apply State.iff_steady
    | with_reducible apply State.raise_steady | with_reducible apply State.recoverEntry_steady
    | with_reducible apply Steady.foldl | split

theorem State.boot_steady {s0 : State} (suspended : Bool) (bad : List Nat) {s : State} (h : Steady s0 s) :
    Steady s0 (State.boot suspended bad s) := by
  unfold State.boot
  repeat' first
    | with_reducible assumption | intro _ | with_reducible apply Steady.ite
    | with_reducible apply State.bootEnd_steady | with_reducible apply State.journalRecover_steady
    | with_reducible apply State.loadFirst_steady | with_reducible apply State.modCore_steady
    | with_reducible apply State.modFlsh_steady | with_reducible apply State.putBootRec_steady
    | with_reducible apply State.raise_steady | with_reducible apply State.setHalf_steady
    | with_reducible apply State.setPunty_steady | with_reducible apply Steady.foldl | split
    | (refine (?_ : Sparse.wf _ _ = true); assumption) | exact Sparse.wf_filter _ _ _ (by assumption)
    | exact Sparse.wf_put _ _ _ _ (by assumption) | (refine (?_ : _ < counterMod _); apply_assumption)
    | with_reducible apply Steady.id | dsimp only

theorem State.ccryCmd_steady {s0 : State} (slot : Nat) (bits : Nat) {f : Nat → State → State} {s : State} (h :
    Steady s0 s) (h3 : ∀ y0 y1, Steady s0 y1 → Steady s0 (f y0 y1)) :
       Steady s0 (State.ccryCmd slot bits f s) := by
  unfold State.ccryCmd
  repeat' first | with_reducible exact h | with_reducible apply State.guarded_steady | with_reducible apply h3

theorem State.crTxEnd_steady {s0 : State} (es : List TxEntry) (status : Nat) (sum : Nat) {s : State} (h : Steady s0
    s) :
       Steady s0 (State.crTxEnd es status sum s) := by
  unfold State.crTxEnd
  repeat' first
    | with_reducible exact h | with_reducible apply State.count_steady | with_reducible apply State.crAdvance_steady
    | with_reducible apply State.crComplete_steady | with_reducible apply State.iff_steady
    | with_reducible apply State.routeEvent_steady

theorem State.crSend_steady {s0 : State} (es : List TxEntry) {s : State} (h : Steady s0 s) :
    Steady s0 (State.crSend es s) := by
  unfold State.crSend
  repeat' first
    | with_reducible assumption | intro _ | with_reducible apply Steady.ite
    | with_reducible apply State.admitStart_steady | with_reducible apply State.count_steady
    | with_reducible apply State.crTxEnd_steady | with_reducible apply State.modCls_steady
    | with_reducible apply State.modFrame_steady | with_reducible apply State.modSto_steady

theorem State.crSendAll_steady {s0 : State} (x1 : Nat) {s : State} (h : Steady s0 s) :
    Steady s0 (State.crSendAll x1 s) := by
  induction x1 generalizing  s with
  | zero => exact h
  | succ n ih =>
    unfold State.crSendAll
    repeat' first
      | with_reducible assumption | with_reducible apply ih | intro _ | with_reducible apply Steady.ite
      | with_reducible apply State.crSend_steady | with_reducible apply State.crTxEnd_steady
      | with_reducible apply Steady.foldl | split

theorem State.coreRingTail_steady {s0 : State} (k : Nat) (tail : Nat) {s : State} (h : Steady s0 s) :
    Steady s0 (State.coreRingTail k tail s) := by
  unfold State.coreRingTail
  repeat' first
    | with_reducible assumption | intro _ | with_reducible apply Steady.ite
    | with_reducible apply State.crSendAll_steady | with_reducible apply State.darkAccess_steady
    | with_reducible apply State.iff_steady | with_reducible apply State.setStarved_steady
    | with_reducible apply State.setTf_steady | with_reducible apply Steady.foldl | split

theorem State.drainFn_steady {s0 : State} (f : Nat) {s : State} (h : Steady s0 s) :
    Steady s0 (State.drainFn f s) := by
  unfold State.drainFn
  repeat' first
    | with_reducible assumption | intro _ | with_reducible apply Steady.ite
    | with_reducible apply State.drainRing_steady | with_reducible apply Steady.foldl | split

theorem State.takeVectors_steady {s0 : State} (f : Nat) {s : State} (h : Steady s0 s) :
    Steady s0 (State.takeVectors f s) := by
  unfold State.takeVectors
  repeat' first
    | with_reducible assumption | intro _ | with_reducible apply Steady.ite | with_reducible apply State.modFn_steady
    | with_reducible apply State.raise_steady

theorem State.sendPending_steady {s0 : State} (f : Nat) {s : State} (h : Steady s0 s) :
    Steady s0 (State.sendPending f s) := by
  unfold State.sendPending
  repeat' first
    | with_reducible assumption | intro _ | with_reducible apply Steady.ite | with_reducible apply State.modHif_steady
    | with_reducible apply State.sendOwned_steady | with_reducible apply Steady.foldl | split

theorem State.msixControl_steady {s0 : State} (f : Nat) (enable : Bool) (mask : Bool) {s : State} (h : Steady s0 s) :
    Steady s0 (State.msixControl f enable mask s) := by
  unfold State.msixControl
  repeat' first
    | with_reducible exact h | with_reducible apply State.iff_steady | with_reducible apply State.modFn_steady
    | with_reducible apply State.sendPending_steady | with_reducible apply State.takeVectors_steady

theorem State.containCore_steady {s0 : State} (c : Nat) {s : State} (h : Steady s0 s) :
    Steady s0 (State.containCore c s) := by
  unfold State.containCore
  repeat' first
    | with_reducible assumption | intro _ | with_reducible apply Steady.ite
    | with_reducible apply State.endTask_steady | with_reducible apply State.modCoreRun_steady
    | with_reducible apply State.noteContain_steady | with_reducible apply State.taskWaits_steady
    | with_reducible apply Steady.foldl | split

theorem State.coreCycles_steady {s0 : State} (c : Nat) {s : State} (h : Steady s0 s) :
    Steady s0 (State.coreCycles c s) := by
  unfold State.coreCycles
  repeat' first
    | with_reducible assumption | intro _ | with_reducible apply Steady.ite
    | with_reducible apply State.countBy_steady | with_reducible apply State.useFree_steady

theorem State.coreTrap_steady {s0 : State} (c : Nat) (cause : Nat) (addr : Nat) {s : State} (h : Steady s0 s) :
    Steady s0 (State.coreTrap c cause addr s) := by
  unfold State.coreTrap
  repeat' first
    | with_reducible exact h | with_reducible apply State.count_steady | with_reducible apply State.modCoreRun_steady
    | with_reducible apply State.putTw_steady | with_reducible apply State.raiseMs_steady
    | with_reducible apply State.setTf_steady

theorem State.coreMemory_steady {s0 : State} (c : Nat) (what : CoreAccess) {s : State} (h : Steady s0 s) :
    Steady s0 (State.coreMemory c what s) := by
  unfold State.coreMemory
  repeat' first
    | with_reducible assumption | intro _ | with_reducible apply Steady.ite
    | with_reducible apply State.coreTrap_steady | with_reducible apply State.putTw_steady
    | with_reducible apply Steady.foldl | split

theorem State.cxlAgain_steady {s0 : State} {s : State} (h : Steady s0 s) :
    Steady s0 (State.cxlAgain s) := by
  unfold State.cxlAgain
  repeat' first | with_reducible exact h | with_reducible apply State.modHif_steady

theorem State.cxlEnumDone_steady {s0 : State} (res : Nat) (capacity : Nat) (speed : Nat) (width : Nat) {s : State}
    (h : Steady s0 s) :
       Steady s0 (State.cxlEnumDone res capacity speed width s) := by
  unfold State.cxlEnumDone
  repeat' first
    | with_reducible assumption | exact ⟨Nat.ne_of_beq_eq_false rfl, Nat.ne_of_beq_eq_false rfl⟩
    | exact Nat.le_of_ble_eq_true rfl | intro _ | with_reducible apply Steady.ite
    | with_reducible apply State.count_steady | with_reducible apply State.cxlAgain_steady
    | with_reducible apply State.iff_steady | with_reducible apply State.linkPmJudge_steady
    | with_reducible apply State.loseTier_steady | with_reducible apply State.modHif_steady
    | with_reducible apply State.raise_steady | with_reducible apply State.setFld_steady
    | with_reducible apply State.showTier_steady

theorem State.discover_steady {s0 : State} (t : Tree) (payload : Bytes) {s : State} (h : Steady s0 s) :
    Steady s0 (State.discover t payload s) := by
  unfold State.discover
  repeat' first
    | with_reducible exact h | exact ⟨Nat.ne_of_beq_eq_false rfl, Nat.ne_of_beq_eq_false rfl⟩
    | exact Nat.le_of_ble_eq_true rfl | with_reducible apply State.count_steady
    | with_reducible apply State.halOffsetJudge_steady | with_reducible apply State.halSend_steady
    | with_reducible apply State.iff_steady | with_reducible apply State.modActs_steady
    | with_reducible apply State.setFld_steady

theorem State.dispatchLate_steady {s0 : State} (k : Nat) {s : State} (h : Steady s0 s) :
    Steady s0 (State.dispatchLate k s) := by
  unfold State.dispatchLate
  repeat' first
    | with_reducible assumption | intro _ | with_reducible apply Steady.ite | with_reducible apply State.count_steady
    | with_reducible apply State.modTsk_steady | with_reducible apply State.raiseMs_steady

theorem State.drainFrame_steady {s0 : State} (f : Nat) (k : Nat) (entries : List TxEntry) {s : State} (h : Steady s0
    s) :
       Steady s0 (State.drainFrame f k entries s) := by
  unfold State.drainFrame
  repeat' first
    | with_reducible assumption | intro _ | with_reducible apply Steady.ite | with_reducible apply State.count_steady
    | with_reducible apply State.ringAdvance_steady | with_reducible apply State.txEnd_steady

theorem State.readChunks_steady {s0 : State} (f : Nat) (x2 : Nat) (x3 : Nat) (x4 : Nat) {s : State} (h : Steady s0
    s) :
       Steady s0 (State.readChunks f x2 x3 x4 s) := by
  induction x2 generalizing x3 x4 s with
  | zero => exact h
  | succ n ih =>
    unfold State.readChunks
    repeat' first
      | with_reducible assumption | with_reducible apply ih | intro _ | with_reducible apply Steady.ite
      | with_reducible apply State.emit_steady

theorem State.readSegment_steady {s0 : State} (f : Nat) (j : TxJob) {s : State} (h : Steady s0 s) :
    Steady s0 (State.readSegment f j s) := by
  unfold State.readSegment
  repeat' first
    | with_reducible assumption | intro _ | with_reducible apply Steady.ite
    | with_reducible apply State.readChunks_steady | with_reducible apply Steady.foldl | split

theorem State.startJob_steady {s0 : State} (f : Nat) (k : Nat) (es : List TxEntry) {s : State} (h : Steady s0 s) :
    Steady s0 (State.startJob f k es s) := by
  unfold State.startJob
  repeat' first
    | with_reducible exact h | with_reducible apply State.modRing_steady
    | with_reducible apply State.readSegment_steady

theorem State.dmaTxFrame_steady {s0 : State} (f : Nat) (k : Nat) (descs : List Bytes) {s : State} (h : Steady s0 s) :
    Steady s0 (State.dmaTxFrame f k descs s) := by
  unfold State.dmaTxFrame
  repeat' first
    | with_reducible assumption | intro _ | with_reducible apply Steady.ite
    | with_reducible apply State.drainFrame_steady | with_reducible apply State.fetchDescs_steady
    | with_reducible apply State.raiseMs_steady | with_reducible apply State.startJob_steady
    | with_reducible apply State.txEnd_steady | with_reducible apply Steady.foldl | split
    | with_reducible apply Steady.id | dsimp only

theorem State.emptySlot_steady {s0 : State} (c : Nat) (k : Nat) {s : State} (h : Steady s0 s) :
    Steady s0 (State.emptySlot c k s) := by
  unfold State.emptySlot
  repeat' first | with_reducible exact h | with_reducible apply State.modCoreRun_steady

theorem State.journalClose_steady {s0 : State} (addr : Nat) {s : State} (h : Steady s0 s) :
    Steady s0 (State.journalClose addr s) := by
  unfold State.journalClose
  repeat' first
    | with_reducible assumption | intro _ | with_reducible apply Steady.ite
    | with_reducible apply State.putJournal_steady | with_reducible apply Steady.foldl | split

theorem State.flashEraseDone_steady {s0 : State} (blank : Bool) {s : State} (h : Steady s0 s) :
    Steady s0 (State.flashEraseDone blank s) := by
  unfold State.flashEraseDone
  repeat' first
    | with_reducible assumption | intro _ | with_reducible apply Steady.ite | with_reducible apply State.count_steady
    | with_reducible apply State.flashEnd_steady | with_reducible apply State.flashNext_steady
    | with_reducible apply State.journalClose_steady | with_reducible apply State.modFlsh_steady
    | with_reducible apply State.sectorErased_steady | with_reducible apply Steady.foldl | split

theorem State.flashProgram_steady {s0 : State} (x1 : Nat) (x2 : Bytes) {s : State} (h : Steady s0 s) :
    Steady s0 (State.flashProgram x1 x2 s) := by
  induction x2 generalizing x1 s with
  | nil => exact h
  | cons x l ih =>
    unfold State.flashProgram
    repeat' first | with_reducible exact h | with_reducible apply ih | with_reducible apply State.modFlsh_steady

theorem State.pageLoaded_steady {s0 : State} (c : FlashCmd) {s : State} (h : Steady s0 s) :
    Steady s0 (State.pageLoaded c s) := by
  unfold State.pageLoaded
  repeat' first
    | with_reducible assumption | intro _ | with_reducible apply Steady.ite | with_reducible apply State.count_steady
    | with_reducible apply State.countBy_steady | with_reducible apply State.flashEnd_steady
    | with_reducible apply State.putSram_steady | with_reducible apply State.raise_steady
    | with_reducible apply Steady.foldl | split

theorem State.flashOpDone_steady {s0 : State} (ok : Bool) {s : State} (h : Steady s0 s) :
    Steady s0 (State.flashOpDone ok s) := by
  unfold State.flashOpDone
  repeat' first
    | with_reducible assumption | intro _ | with_reducible apply Steady.ite | with_reducible apply State.count_steady
    | with_reducible apply State.countBy_steady | with_reducible apply State.flashEnd_steady
    | with_reducible apply State.flashNext_steady | with_reducible apply State.flashProgram_steady
    | with_reducible apply State.modFlsh_steady | with_reducible apply State.pageLoaded_steady
    | with_reducible apply State.putSram_steady | with_reducible apply Steady.foldl | split

theorem State.flrStart_steady {s0 : State} (f : Nat) {s : State} (h : Steady s0 s) :
    Steady s0 (State.flrStart f s) := by
  unfold State.flrStart
  repeat' first
    | with_reducible exact h | with_reducible apply State.drainFn_steady | with_reducible apply State.dropHands_steady
    | with_reducible apply State.flushQueues_steady | with_reducible apply State.modFn_steady
    | with_reducible apply State.raise_steady

theorem State.flr_steady {s0 : State} (f : Nat) {s : State} (h : Steady s0 s) :
    Steady s0 (State.flr f s) := by
  unfold State.flr
  repeat' first
    | with_reducible assumption | intro _ | with_reducible apply Steady.ite | with_reducible apply State.count_steady
    | with_reducible apply State.flrStart_steady | with_reducible apply State.modHif_steady
    | with_reducible apply State.raiseMs_steady | with_reducible apply Steady.foldl | split

theorem State.gatherFault_steady {s0 : State} (f : Nat) (k : Nat) (j : TxJob) (cause : Nat) {s : State} (h : Steady
    s0 s) :
       Steady s0 (State.gatherFault f k j cause s) := by
  unfold State.gatherFault
  repeat' first
    | with_reducible assumption | exact ⟨Nat.ne_of_beq_eq_false rfl, Nat.ne_of_beq_eq_false rfl⟩
    | exact Nat.le_of_ble_eq_true rfl | intro _ | with_reducible apply Steady.ite
    | with_reducible apply State.count_steady | with_reducible apply State.dropJob_steady
    | with_reducible apply State.modFn_steady | with_reducible apply State.modRing_steady
    | with_reducible apply State.raise_steady | with_reducible apply State.raiseMs_steady
    | with_reducible apply State.ringAdvance_steady | with_reducible apply State.setFld_steady
    | with_reducible apply State.setRingState_steady | with_reducible apply State.txComplete_steady

theorem State.holdFlow_steady {s0 : State} (k : Nat) {s : State} (h : Steady s0 s) :
    Steady s0 (State.holdFlow k s) := by
  unfold State.holdFlow
  repeat' first
    | with_reducible assumption | intro _ | with_reducible apply Steady.ite
    | with_reducible apply State.flowJudge_steady | with_reducible apply State.modCore_steady
    | with_reducible apply Steady.foldl | split

theorem State.wakeLatch_steady {s0 : State} (b : Nat) (f : Nat) {s : State} (h : Steady s0 s) :
    Steady s0 (State.wakeLatch b f s) := by
  unfold State.wakeLatch
  repeat' first
    | with_reducible assumption | exact ⟨Nat.ne_of_beq_eq_false rfl, Nat.ne_of_beq_eq_false rfl⟩
    | exact Nat.le_of_ble_eq_true rfl | intro _ | with_reducible apply Steady.ite
    | with_reducible apply State.count_steady | with_reducible apply State.modFn_steady
    | with_reducible apply State.modHif_steady | with_reducible apply State.raise_steady
    | with_reducible apply State.setFld_steady | with_reducible apply Steady.foldl | split
    | with_reducible apply Steady.id | dsimp only

theorem State.kstCmd_steady {s0 : State} (bits : Nat) {f : State → State} {s : State} (h : Steady s0 s) (h2 : ∀ y0,
    Steady s0 y0 → Steady s0 (f y0)) :
       Steady s0 (State.kstCmd bits f s) := by
  unfold State.kstCmd
  repeat' first
    | with_reducible assumption | intro _ | with_reducible apply Steady.ite
    | with_reducible apply State.guarded_steady | with_reducible apply State.ignored_steady | with_reducible apply h2

theorem State.l1Entry_steady {s0 : State} (idle : Nat) {s : State} (h : Steady s0 s) :
    Steady s0 (State.l1Entry idle s) := by
  unfold State.l1Entry
  repeat' first
    | with_reducible assumption | exact ⟨Nat.ne_of_beq_eq_false rfl, Nat.ne_of_beq_eq_false rfl⟩
    | exact Nat.le_of_ble_eq_true rfl | intro _ | with_reducible apply Steady.ite
    | with_reducible apply State.emit_steady | with_reducible apply State.setFld_steady
    | with_reducible apply State.useFree_steady

theorem State.l1Exit_steady {s0 : State} {s : State} (h : Steady s0 s) :
    Steady s0 (State.l1Exit s) := by
  unfold State.l1Exit
  repeat' first
    | with_reducible assumption | exact ⟨Nat.ne_of_beq_eq_false rfl, Nat.ne_of_beq_eq_false rfl⟩
    | exact Nat.le_of_ble_eq_true rfl | intro _ | with_reducible apply Steady.ite
    | with_reducible apply State.emit_steady | with_reducible apply State.setFld_steady

theorem State.linkErrors_steady {s0 : State} (n : Nat) {s : State} (h : Steady s0 s) :
    Steady s0 (State.linkErrors n s) := by
  unfold State.linkErrors
  repeat' first
    | with_reducible assumption | intro _ | with_reducible apply State.countBy_steady
    | with_reducible apply State.iff_steady | with_reducible apply State.modFn_steady
    | with_reducible apply State.raiseMs_steady

theorem State.moderationEnd_steady {s0 : State} (f : Nat) (rx : Bool) (k : Nat) {s : State} (h : Steady s0 s) :
    Steady s0 (State.moderationEnd f rx k s) := by
  unfold State.moderationEnd
  repeat' first
    | with_reducible assumption | intro _ | with_reducible apply Steady.ite
    | with_reducible apply State.modRing_steady | with_reducible apply State.sendLocal_steady

theorem State.msixUnmask_steady {s0 : State} (f : Nat) (vec : Option Nat) {s : State} (h : Steady s0 s) :
    Steady s0 (State.msixUnmask f vec s) := by
  unfold State.msixUnmask
  repeat' first
    | with_reducible assumption | intro _ | with_reducible apply Steady.ite | with_reducible apply State.modFn_steady
    | with_reducible apply State.modHif_steady | with_reducible apply State.sendPending_steady
    | with_reducible apply Steady.foldl | split

theorem State.widthRequest_steady {s0 : State} {s : State} (h : Steady s0 s) :
    Steady s0 (State.widthRequest s) := by
  unfold State.widthRequest
  repeat' first
    | with_reducible exact h | with_reducible apply State.count_steady | with_reducible apply State.emit_steady
    | with_reducible apply State.modHif_steady

theorem State.narrowRequest_steady {s0 : State} (util : Nat) (ms : Nat) {s : State} (h : Steady s0 s) :
    Steady s0 (State.narrowRequest util ms s) := by
  unfold State.narrowRequest
  repeat' first
    | with_reducible assumption | intro _ | with_reducible apply Steady.ite
    | with_reducible apply State.widthRequest_steady

theorem State.narrowRetry_steady {s0 : State} (util : Nat) (ms : Nat) {s : State} (h : Steady s0 s) :
    Steady s0 (State.narrowRetry util ms s) := by
  unfold State.narrowRetry
  repeat' first
    | with_reducible assumption | intro _ | with_reducible apply Steady.ite
    | with_reducible apply State.widthRequest_steady

theorem State.trained_steady {s0 : State} (width : Nat) (rate : Nat) {s : State} (h : Steady s0 s) :
    Steady s0 (State.trained width rate s) := by
  unfold State.trained
  repeat' first
    | with_reducible exact h | exact ⟨Nat.ne_of_beq_eq_false rfl, Nat.ne_of_beq_eq_false rfl⟩
    | exact Nat.le_of_ble_eq_true rfl | with_reducible apply State.setFld_steady

theorem State.retrained_steady {s0 : State} (width : Nat) (rate : Nat) {s : State} (h : Steady s0 s) :
    Steady s0 (State.retrained width rate s) := by
  unfold State.retrained
  repeat' first
    | with_reducible assumption | intro _ | with_reducible apply State.count_steady
    | with_reducible apply State.iff_steady | with_reducible apply State.raiseMs_steady
    | with_reducible apply State.trained_steady

theorem State.narrowWithdraw_steady {s0 : State} (width : Nat) (rate : Nat) {s : State} (h : Steady s0 s) :
    Steady s0 (State.narrowWithdraw width rate s) := by
  unfold State.narrowWithdraw
  repeat' first
    | with_reducible assumption | intro _ | with_reducible apply Steady.ite | with_reducible apply State.count_steady
    | with_reducible apply State.modHif_steady | with_reducible apply State.raise_steady
    | with_reducible apply State.retrained_steady

theorem State.onAwake_steady {s0 : State} (c : Nat) (k : Nat) {f : State → State} {s : State} (h : Steady s0 s) (h3
    : ∀ y0, Steady s0 y0 → Steady s0 (f y0)) :
       Steady s0 (State.onAwake c k f s) := by
  unfold State.onAwake
  repeat' first
    | with_reducible assumption | intro _ | with_reducible apply Steady.ite | with_reducible apply State.count_steady
    | with_reducible apply State.wakeDomain_steady | with_reducible apply h3

theorem State.perstDeassert_steady {s0 : State} (strap : Bool) {s : State} (h : Steady s0 s) :
    Steady s0 (State.perstDeassert strap s) := by
  unfold State.perstDeassert
  repeat' first
    | with_reducible assumption | exact ⟨Nat.ne_of_beq_eq_false rfl, Nat.ne_of_beq_eq_false rfl⟩
    | exact Nat.le_of_ble_eq_true rfl | intro _ | with_reducible apply Steady.ite
    | with_reducible apply State.modHif_steady | with_reducible apply State.setFld_steady
    | with_reducible apply State.settleRegion_steady

theorem State.wakeJudge_steady {s0 : State} {s : State} (h : Steady s0 s) :
    Steady s0 (State.wakeJudge s) := by
  unfold State.wakeJudge
  repeat' first
    | with_reducible assumption | exact ⟨Nat.ne_of_beq_eq_false rfl, Nat.ne_of_beq_eq_false rfl⟩
    | exact Nat.le_of_ble_eq_true rfl | intro _ | with_reducible apply State.iff_steady
    | with_reducible apply State.setFld_steady

theorem State.pmeSend_steady {s0 : State} {s : State} (h : Steady s0 s) :
    Steady s0 (State.pmeSend s) := by
  unfold State.pmeSend
  repeat' first
    | with_reducible assumption | intro _ | with_reducible apply Steady.ite | with_reducible apply State.count_steady
    | with_reducible apply State.emit_steady | with_reducible apply State.iff_steady
    | with_reducible apply State.modFn_steady | with_reducible apply State.raise_steady
    | with_reducible apply State.wakeJudge_steady | with_reducible apply Steady.foldl | split

theorem State.puntyFlip_steady {s0 : State} {s : State} (h : Steady s0 s) :
    Steady s0 (State.puntyFlip s) := by
  unfold State.puntyFlip
  repeat' first
    | with_reducible assumption | exact ⟨Nat.ne_of_beq_eq_false rfl, Nat.ne_of_beq_eq_false rfl⟩
    | exact Nat.le_of_ble_eq_true rfl | intro _ | with_reducible apply Steady.ite
    | with_reducible apply State.count_steady | with_reducible apply State.holdHalf_steady
    | with_reducible apply State.judgeTasks_steady | with_reducible apply State.modCore_steady
    | with_reducible apply State.raise_steady | with_reducible apply State.setFld_steady
    | with_reducible apply State.setPunty_steady | with_reducible apply State.swapBanks_steady
    | with_reducible apply Steady.foldl | split

theorem State.puntyLoad_steady {s0 : State} {s : State} (h : Steady s0 s) :
    Steady s0 (State.puntyLoad s) := by
  unfold State.puntyLoad
  repeat' first
    | with_reducible assumption | intro _ | with_reducible apply Steady.ite | with_reducible apply State.iff_steady
    | with_reducible apply State.modCore_steady | with_reducible apply State.releaseHalf_steady
    | with_reducible apply State.setPunty_steady | with_reducible apply State.tryLoad_steady

theorem State.recovery_steady {s0 : State} (width : Nat) (rate : Nat) (errors : Nat) {s : State} (h : Steady s0 s) :
    Steady s0 (State.recovery width rate errors s) := by
  unfold State.recovery
  repeat' first
    | with_reducible assumption | exact ⟨Nat.ne_of_beq_eq_false rfl, Nat.ne_of_beq_eq_false rfl⟩
    | exact Nat.le_of_ble_eq_true rfl | intro _ | with_reducible apply Steady.ite
    | with_reducible apply State.count_steady | with_reducible apply State.linkErrors_steady
    | with_reducible apply State.modHif_steady | with_reducible apply State.raise_steady
    | with_reducible apply State.raiseMs_steady | with_reducible apply State.retrained_steady
    | with_reducible apply State.setFld_steady | with_reducible apply State.trained_steady

theorem State.ringTail_steady {s0 : State} (f : Nat) (rx : Bool) (k : Nat) (tail : Nat) {s : State} (h : Steady s0
    s) :
       Steady s0 (State.ringTail f rx k tail s) := by
  unfold State.ringTail
  repeat' first
    | with_reducible assumption | exact ⟨Nat.ne_of_beq_eq_false rfl, Nat.ne_of_beq_eq_false rfl⟩
    | exact Nat.le_of_ble_eq_true rfl | intro _ | with_reducible apply Steady.ite
    | with_reducible apply State.iff_steady | with_reducible apply State.setRg_steady
    | with_reducible apply State.starveJudge_steady | with_reducible apply Steady.foldl | split

theorem State.ringRestart_steady {s0 : State} (f : Nat) (k : Nat) {s : State} (h : Steady s0 s) :
    Steady s0 (State.ringRestart f k s) := by
  unfold State.ringRestart
  repeat' first
    | with_reducible assumption | intro _ | with_reducible apply Steady.ite | with_reducible apply State.iff_steady
    | with_reducible apply State.modRing_steady | with_reducible apply State.setRingState_steady
    | with_reducible apply State.startJob_steady | with_reducible apply Steady.foldl | split

theorem State.ringSkip_steady {s0 : State} (f : Nat) (k : Nat) {s : State} (h : Steady s0 s) :
    Steady s0 (State.ringSkip f k s) := by
  unfold State.ringSkip
  repeat' first
    | with_reducible assumption | intro _ | with_reducible apply Steady.ite
    | with_reducible apply State.modRing_steady | with_reducible apply State.ringAdvance_steady
    | with_reducible apply State.setRingState_steady | with_reducible apply Steady.foldl | split

theorem State.ringDisable_steady {s0 : State} (f : Nat) (rx : Bool) (k : Nat) {s : State} (h : Steady s0 s) :
    Steady s0 (State.ringDisable f rx k s) := by
  unfold State.ringDisable
  repeat' first
    | with_reducible assumption | exact ⟨Nat.ne_of_beq_eq_false rfl, Nat.ne_of_beq_eq_false rfl⟩
    | exact Nat.le_of_ble_eq_true rfl | intro _ | with_reducible apply Steady.ite
    | with_reducible apply State.drainRing_steady | with_reducible apply State.setRg_steady

theorem State.ringDrained_steady {s0 : State} (f : Nat) (rx : Bool) (k : Nat) {s : State} (h : Steady s0 s) :
    Steady s0 (State.ringDrained f rx k s) := by
  unfold State.ringDrained
  repeat' first
    | with_reducible assumption | exact ⟨Nat.ne_of_beq_eq_false rfl, Nat.ne_of_beq_eq_false rfl⟩
    | exact Nat.le_of_ble_eq_true rfl | intro _ | with_reducible apply Steady.ite
    | with_reducible apply State.ringRun_steady | with_reducible apply State.setRg_steady
    | with_reducible apply State.setRingState_steady

theorem State.segArrive_steady {s0 : State} (f : Nat) (j : TxJob) (bytes : Bytes) {s : State} (h : Steady s0 s) :
    Steady s0 (State.segArrive f j bytes s).1 := by
  unfold State.segArrive
  repeat' first
    | with_reducible assumption | intro _ | with_reducible apply Steady.ite | with_reducible apply Steady.ite_fst
    | with_reducible apply State.admitStart_steady | with_reducible apply State.drawCells_steady
    | with_reducible apply State.iff_steady | with_reducible apply State.putFrame_steady
    | with_reducible apply Steady.foldl | split

theorem State.txOffer_steady {s0 : State} (f : Nat) (k : Nat) (j : TxJob) {s : State} (h : Steady s0 s) :
    Steady s0 (State.txOffer f k j s) := by
  unfold State.txOffer
  repeat' first
    | with_reducible exact h | with_reducible apply State.count_steady | with_reducible apply State.countBy_steady
    | with_reducible apply State.modCls_steady | with_reducible apply State.modFrame_steady
    | with_reducible apply State.modRing_steady | with_reducible apply State.txEnd_steady

theorem State.segData_steady {s0 : State} (f : Nat) (k : Nat) (j : TxJob) (bs : Bytes) {s : State} (h : Steady s0 s) :
    Steady s0 (State.segData f k j bs s) := by
  unfold State.segData
  repeat' first
    | with_reducible assumption | intro _ | with_reducible apply Steady.ite | with_reducible apply State.iff_steady
    | with_reducible apply State.modRing_steady | with_reducible apply State.modSto_steady
    | with_reducible apply State.readSegment_steady | with_reducible apply State.segArrive_steady
    | with_reducible apply State.txEnd_steady | with_reducible apply State.txOffer_steady

theorem State.segComplete_steady {s0 : State} (f : Nat) (k : Nat) (c : SegCompletion) {s : State} (h : Steady s0 s) :
    Steady s0 (State.segComplete f k c s) := by
  unfold State.segComplete
  repeat' first
    | with_reducible assumption | intro _ | with_reducible apply Steady.ite
    | with_reducible apply State.gatherFault_steady | with_reducible apply State.segData_steady
    | with_reducible apply Steady.foldl | split

theorem State.unready_steady {s0 : State} (k : Nat) {s : State} (h : Steady s0 s) :
    Steady s0 (State.unready k s) := by
  unfold State.unready
  repeat' first | with_reducible exact h | with_reducible apply State.modTsk_steady

theorem State.slotPrefetch_steady {s0 : State} (c : Nat) (k : Nat) {s : State} (h : Steady s0 s) :
    Steady s0 (State.slotPrefetch c k s) := by
  unfold State.slotPrefetch
  repeat' first
    | with_reducible assumption | intro _ | with_reducible apply Steady.ite
    | with_reducible apply State.modCoreRun_steady | with_reducible apply State.onAwake_steady
    | with_reducible apply State.putLocal_steady | with_reducible apply State.setTaskState_steady
    | with_reducible apply State.unready_steady | with_reducible apply State.useFree_steady

theorem State.startTask_steady {s0 : State} (c : Nat) (k : Nat) {s : State} (h : Steady s0 s) :
    Steady s0 (State.startTask c k s) := by
  unfold State.startTask
  repeat' first
    | with_reducible exact h | with_reducible apply State.count_steady | with_reducible apply State.holdFlow_steady
    | with_reducible apply State.modCoreRun_steady | with_reducible apply State.putTw_steady
    | with_reducible apply State.setTaskState_steady | with_reducible apply State.unready_steady

theorem State.taskDispatch_steady {s0 : State} (c : Nat) (k : Nat) {s : State} (h : Steady s0 s) :
    Steady s0 (State.taskDispatch c k s) := by
  unfold State.taskDispatch
  repeat' first
    | with_reducible assumption | intro _ | with_reducible apply Steady.ite
    | with_reducible apply State.emptySlot_steady | with_reducible apply State.onAwake_steady
    | with_reducible apply State.startTask_steady | with_reducible apply State.taskWaits_steady

theorem State.taskEnd_steady {s0 : State} (c : Nat) {s : State} (h : Steady s0 s) :
    Steady s0 (State.taskEnd c s) := by
  unfold State.taskEnd
  repeat' first
    | with_reducible assumption | intro _ | with_reducible apply Steady.ite
    | with_reducible apply State.endTask_steady | with_reducible apply State.modCoreRun_steady
    | with_reducible apply State.setTaskState_steady | with_reducible apply Steady.foldl | split

theorem State.taskFlow_steady {s0 : State} (c : Nat) (flow : Nat) (held : Bool) {s : State} (h : Steady s0 s) :
    Steady s0 (State.taskFlow c flow held s) := by
  unfold State.taskFlow
  repeat' first
    | with_reducible assumption | intro _ | with_reducible apply Steady.ite
    | with_reducible apply State.coreTrap_steady | with_reducible apply State.releaseFlow_steady
    | with_reducible apply State.useFree_steady | with_reducible apply Steady.foldl | split

theorem State.taskPreempt_steady {s0 : State} (c : Nat) (k : Nat) {s : State} (h : Steady s0 s) :
    Steady s0 (State.taskPreempt c k s) := by
  unfold State.taskPreempt
  repeat' first
    | with_reducible assumption | intro _ | with_reducible apply Steady.ite | with_reducible apply State.count_steady
    | with_reducible apply State.modCoreRun_steady | with_reducible apply State.raiseMs_steady
    | with_reducible apply State.setTaskState_steady | with_reducible apply State.startTask_steady
    | with_reducible apply Steady.foldl | split | with_reducible apply Steady.id | dsimp only

theorem State.tick_steady {s0 : State} {s : State} (h : Steady s0 s) :
    Steady s0 (State.tick s) := by
  unfold State.tick
  repeat' first
    | with_reducible assumption | intro _ | with_reducible apply Steady.ite
    | with_reducible apply State.coreCycles_steady | with_reducible apply State.iff_steady
    | with_reducible apply State.modNow_steady | with_reducible apply State.snapReach_steady
    | with_reducible apply State.timeMove_steady | with_reducible apply Steady.foldl | split

theorem State.timerExpire_steady {s0 : State} (t : Nat) {s : State} (h : Steady s0 s) :
    Steady s0 (State.timerExpire t s) := by
  unfold State.timerExpire
  repeat' first
    | with_reducible assumption | intro _ | with_reducible apply Steady.ite | with_reducible apply State.count_steady
    | with_reducible apply State.iff_steady | with_reducible apply State.modTsk_steady
    | with_reducible apply State.routeEvent_steady | with_reducible apply State.setTf_steady

theorem State.wakeCause_steady {s0 : State} (cause : Nat) (f : Nat) {s : State} (h : Steady s0 s) :
    Steady s0 (State.wakeCause cause f s) := by
  unfold State.wakeCause
  repeat' first
    | with_reducible assumption | intro _ | with_reducible apply Steady.ite
    | with_reducible apply State.wakeLatch_steady

theorem State.watchdogExpire_steady {s0 : State} (c : Nat) {s : State} (h : Steady s0 s) :
    Steady s0 (State.watchdogExpire c s) := by
  unfold State.watchdogExpire
  repeat' first
    | with_reducible assumption | intro _ | with_reducible apply Steady.ite
    | with_reducible apply State.containCore_steady | with_reducible apply State.count_steady
    | with_reducible apply State.puntyAbort_steady | with_reducible apply State.raise_steady

theorem execHalPreambleDetect_steady {s0 : State} (t : Tree) (gain : Nat) {s : State} (h : Steady s0 s) :
    ∀ out, execHalPreambleDetect t gain s = .next out → Steady s0 out := by
  intro out e; cases e
  repeat' first | with_reducible exact h | with_reducible apply State.halDetect_steady

theorem execHalSyncFound_steady {s0 : State} (t : Tree) (fc : Nat) (ofs : Nat) {s : State} (h : Steady s0 s) :
    ∀ out, execHalSyncFound t fc ofs s = .next out → Steady s0 out := by
  intro out e; cases e
  repeat' first | with_reducible exact h | with_reducible apply State.modHals_steady

theorem execHalSyncMiss_steady {s0 : State} (t : Tree) {s : State} (h : Steady s0 s) :
    ∀ out, execHalSyncMiss t s = .next out → Steady s0 out := by
  intro out e; cases e
  repeat' first | with_reducible exact h | with_reducible apply State.halHeaderFail_steady

theorem execHalHeader_steady {s0 : State} (t : Tree) (syms : List Nat) {s : State} (h : Steady s0 s) :
    ∀ out, execHalHeader t syms s = .next out → Steady s0 out := by
  intro out e; cases e
  repeat' first
    | with_reducible assumption | intro _ | with_reducible apply Steady.ite
    | with_reducible apply State.halHeaderFail_steady | with_reducible apply State.modHals_steady
    | with_reducible apply Steady.foldl | split

theorem execHalFrameEnd_steady {s0 : State} (t : Tree) (syms : List Nat) (level : Nat) {s : State} (h : Steady s0 s) :
    ∀ out, execHalFrameEnd t syms level s = .next out → Steady s0 out := by
  intro out e; cases e
  repeat' first | with_reducible exact h | with_reducible apply State.halFrameEnd_steady

theorem execHalAgcTimeout_steady {s0 : State} (t : Tree) {s : State} (h : Steady s0 s) :
    ∀ out, execHalAgcTimeout t s = .next out → Steady s0 out := by
  intro out e; cases e
  repeat' first
    | with_reducible assumption | intro _ | with_reducible apply State.count_steady
    | with_reducible apply State.halRelease_steady | with_reducible apply State.iff_steady

theorem execHalRxActiveLost_steady {s0 : State} (t : Tree) {s : State} (h : Steady s0 s) :
    ∀ out, execHalRxActiveLost t s = .next out → Steady s0 out := by
  intro out e; cases e
  repeat' first | with_reducible exact h | with_reducible apply State.halJudge_steady

theorem execHalRxSyncTimeout_steady {s0 : State} (t : Tree) {s : State} (h : Steady s0 s) :
    ∀ out, execHalRxSyncTimeout t s = .next out → Steady s0 out := by
  intro out e; cases e
  repeat' first
    | with_reducible exact h | with_reducible apply State.halSync_steady | with_reducible apply State.iff_steady

theorem execBeacon_steady {s0 : State} (t : Tree) (payload : Bytes) {s : State} (h : Steady s0 s) :
    ∀ out, execBeacon t payload s = .next out → Steady s0 out := by
  intro out e; cases e
  repeat' first
    | with_reducible assumption | intro _ | with_reducible apply State.discover_steady
    | with_reducible apply State.iff_steady | with_reducible apply State.setMode_steady

theorem execRangeRequest_steady {s0 : State} (t : Tree) (payload : Bytes) {s : State} (h : Steady s0 s) :
    ∀ out, execRangeRequest t payload s = .next out → Steady s0 out := by
  intro out e; cases e
  repeat' first
    | with_reducible assumption | intro _ | with_reducible apply State.halSend_steady
    | with_reducible apply State.iff_steady | with_reducible apply State.modActs_steady

theorem execWake_steady {s0 : State} (t : Tree) (payload : Bytes) {s : State} (h : Steady s0 s) :
    ∀ out, execWake t payload s = .next out → Steady s0 out := by
  intro out e; cases e
  repeat' first
    | with_reducible assumption | intro _ | with_reducible apply State.iff_steady
    | with_reducible apply State.modActs_steady | with_reducible apply State.wakeRequest_steady

theorem execNoticeAck_steady {s0 : State} (t : Tree) (payload : Bytes) {s : State} (h : Steady s0 s) :
    ∀ out, execNoticeAck t payload s = .next out → Steady s0 out := by
  intro out e; cases e
  repeat' first
    | with_reducible exact h | with_reducible apply State.ackNotice_steady | with_reducible apply State.iff_steady

theorem execHalSubmit_steady {s0 : State} (t : Tree) (slot : Nat) {s : State} (h : Steady s0 s) :
    ∀ out, execHalSubmit t slot s = .next out → Steady s0 out := by
  intro out e; cases e
  repeat' first
    | with_reducible exact h | with_reducible apply State.guarded_steady
    | with_reducible apply State.halSubmitCmd_steady

theorem execHalCancel_steady {s0 : State} (t : Tree) (slot : Nat) {s : State} (h : Steady s0 s) :
    ∀ out, execHalCancel t slot s = .next out → Steady s0 out := by
  intro out e; cases e
  repeat' first
    | with_reducible exact h | with_reducible apply State.guarded_steady | with_reducible apply State.halCancel_steady

theorem execHalCommit_steady {s0 : State} (t : Tree) (slot : Nat) {s : State} (h : Steady s0 s) :
    ∀ out, execHalCommit t slot s = .next out → Steady s0 out := by
  intro out e; cases e
  repeat' first
    | with_reducible exact h | with_reducible apply State.halCommit_steady | with_reducible apply State.iff_steady

theorem execHalTxStart_steady {s0 : State} (t : Tree) (slot : Nat) {s : State} (h : Steady s0 s) :
    ∀ out, execHalTxStart t slot s = .next out → Steady s0 out := by
  intro out e; cases e
  repeat' first | with_reducible exact h | with_reducible apply State.halStart_steady

theorem execHalTxEnd_steady {s0 : State} (t : Tree) (slot : Nat) {s : State} (h : Steady s0 s) :
    ∀ out, execHalTxEnd t slot s = .next out → Steady s0 out := by
  intro out e; cases e
  repeat' first
    | with_reducible assumption | intro _ | with_reducible apply Steady.ite | with_reducible apply State.halEnd_steady
    | with_reducible apply State.halNoticeSent_steady | with_reducible apply State.iff_steady
    | with_reducible apply Steady.foldl | split

theorem execCcryStart_steady {s0 : State} (slot : Nat) {s : State} (h : Steady s0 s) :
    ∀ out, execCcryStart slot s = .next out → Steady s0 out := by
  intro out e; cases e
  repeat' first
    | with_reducible exact h | with_reducible apply State.ccryCmd_steady | with_reducible apply State.ccryStart_steady

theorem execCcryAbort_steady {s0 : State} (slot : Nat) {s : State} (h : Steady s0 s) :
    ∀ out, execCcryAbort slot s = .next out → Steady s0 out := by
  intro out e; cases e
  repeat' first
    | with_reducible exact h | with_reducible apply State.ccryAbort_steady | with_reducible apply State.ccryCmd_steady

theorem execCcryExport_steady {s0 : State} (slot : Nat) (wrapped : Bool) {s : State} (h : Steady s0 s) :
    ∀ out, execCcryExport slot wrapped s = .next out → Steady s0 out := by
  intro out e; cases e
  repeat' first
    | with_reducible assumption | intro _ | with_reducible apply State.ccryCmd_steady
    | with_reducible apply State.ccryExport_steady

theorem execCcryImport_steady {s0 : State} (slot : Nat) {s : State} (h : Steady s0 s) :
    ∀ out, execCcryImport slot s = .next out → Steady s0 out := by
  intro out e; cases e
  repeat' first
    | with_reducible exact h | with_reducible apply State.ccryCmd_steady
    | with_reducible apply State.ccryImport_steady

theorem execCcryJobDone_steady {s0 : State} (slot : Nat) {s : State} (h : Steady s0 s) :
    ∀ out, execCcryJobDone slot s = .next out → Steady s0 out := by
  intro out e; cases e
  repeat' first | with_reducible exact h | with_reducible apply State.ccryDone_steady

theorem execKstCommit_steady {s0 : State} {s : State} (h : Steady s0 s) :
    ∀ out, execKstCommit s = .next out → Steady s0 out := by
  intro out e; cases e
  repeat' first
    | with_reducible exact h | with_reducible apply State.kstCmd_steady | with_reducible apply State.kstCommit_steady

theorem execKstCommitDone_steady {s0 : State} (ok : Bool) {s : State} (h : Steady s0 s) :
    ∀ out, execKstCommitDone ok s = .next out → Steady s0 out := by
  intro out e; cases e
  repeat' first | with_reducible exact h | with_reducible apply State.kstCommitDone_steady

theorem execKstGenkey_steady {s0 : State} {s : State} (h : Steady s0 s) :
    ∀ out, execKstGenkey s = .next out → Steady s0 out := by
  intro out e; cases e
  repeat' first
    | with_reducible exact h | with_reducible apply State.kstCmd_steady | with_reducible apply State.kstGenkey_steady

theorem execKstGenkeyDone_steady {s0 : State} {s : State} (h : Steady s0 s) :
    ∀ out, execKstGenkeyDone s = .next out → Steady s0 out := by
  intro out e; cases e
  repeat' first | with_reducible exact h | with_reducible apply State.kstGenkeyDone_steady

theorem execPerstDeassert_steady {s0 : State} (strap : Bool) {s : State} (h : Steady s0 s) :
    ∀ out, execPerstDeassert strap s = .next out → Steady s0 out := by
  intro out e; cases e
  repeat' first
    | with_reducible exact h | with_reducible apply State.iff_steady | with_reducible apply State.perstDeassert_steady

theorem execMsixUnmask_steady {s0 : State} (fn : Nat) (vec : Option Nat) {s : State} (h : Steady s0 s) :
    ∀ out, execMsixUnmask fn vec s = .next out → Steady s0 out := by
  intro out e; cases e
  repeat' first | with_reducible exact h | with_reducible apply State.msixUnmask_steady

theorem execFunctionLevelReset_steady {s0 : State} (fn : Nat) {s : State} (h : Steady s0 s) :
    ∀ out, execFunctionLevelReset fn s = .next out → Steady s0 out := by
  intro out e; cases e
  repeat' first | with_reducible exact h | with_reducible apply State.flr_steady

theorem execRingTailWrite_steady {s0 : State} (fn : Nat) (rx : Bool) (k : Nat) (tail : Nat) {s : State} (h : Steady
    s0 s) :
       ∀ out, execRingTailWrite fn rx k tail s = .next out → Steady s0 out := by
  intro out e; cases e
  repeat' first | with_reducible exact h | with_reducible apply State.ringTail_steady

theorem execRingDisable_steady {s0 : State} (fn : Nat) (rx : Bool) (k : Nat) {s : State} (h : Steady s0 s) :
    ∀ out, execRingDisable fn rx k s = .next out → Steady s0 out := by
  intro out e; cases e
  repeat' first | with_reducible exact h | with_reducible apply State.ringDisable_steady

theorem execRingDrained_steady {s0 : State} (fn : Nat) (rx : Bool) (k : Nat) {s : State} (h : Steady s0 s) :
    ∀ out, execRingDrained fn rx k s = .next out → Steady s0 out := by
  intro out e; cases e
  repeat' first | with_reducible exact h | with_reducible apply State.ringDrained_steady

theorem execRingRestart_steady {s0 : State} (fn : Nat) (k : Nat) {s : State} (h : Steady s0 s) :
    ∀ out, execRingRestart fn k s = .next out → Steady s0 out := by
  intro out e; cases e
  repeat' first | with_reducible exact h | with_reducible apply State.ringRestart_steady

theorem execRingSkip_steady {s0 : State} (fn : Nat) (k : Nat) {s : State} (h : Steady s0 s) :
    ∀ out, execRingSkip fn k s = .next out → Steady s0 out := by
  intro out e; cases e
  repeat' first | with_reducible exact h | with_reducible apply State.ringSkip_steady

theorem execFuncStatusClear_steady {s0 : State} (fn : Nat) {s : State} (h : Steady s0 s) :
    ∀ out, execFuncStatusClear fn s = .next out → Steady s0 out := by
  intro out e; cases e
  repeat' first
    | with_reducible exact h | with_reducible apply State.iff_steady | with_reducible apply State.modFn_steady

theorem execDmaTxFrame_steady {s0 : State} (fn : Nat) (k : Nat) (entries : List Bytes) {s : State} (h : Steady s0 s) :
    ∀ out, execDmaTxFrame fn k entries s = .next out → Steady s0 out := by
  intro out e; cases e
  repeat' first | with_reducible exact h | with_reducible apply State.dmaTxFrame_steady

theorem execDmaSegComplete_steady {s0 : State} (fn : Nat) (k : Nat) (c : SegCompletion) {s : State} (h : Steady s0
    s) :
       ∀ out, execDmaSegComplete fn k c s = .next out → Steady s0 out := by
  intro out e; cases e
  repeat' first | with_reducible exact h | with_reducible apply State.segComplete_steady

theorem execDmaRxWrite_steady {s0 : State} (fn : Nat) (cls : Nat) (bufs : List Bytes) {s : State} (h : Steady s0 s) :
    ∀ out, execDmaRxWrite fn cls bufs s = .next out → Steady s0 out := by
  intro out e; cases e
  repeat' first | with_reducible exact h | with_reducible apply State.dmaRxWrite_steady

theorem execMsixModeration_steady {s0 : State} (fn : Nat) (rx : Bool) (k : Nat) {s : State} (h : Steady s0 s) :
    ∀ out, execMsixModeration fn rx k s = .next out → Steady s0 out := by
  intro out e; cases e
  repeat' first | with_reducible exact h | with_reducible apply State.moderationEnd_steady

theorem execL1Entry_steady {s0 : State} (idle : Nat) {s : State} (h : Steady s0 s) :
    ∀ out, execL1Entry idle s = .next out → Steady s0 out := by
  intro out e; cases e
  repeat' first | with_reducible exact h | with_reducible apply State.l1Entry_steady

theorem execL1Exit_steady {s0 : State} {s : State} (h : Steady s0 s) :
    ∀ out, execL1Exit s = .next out → Steady s0 out := by
  intro out e; cases e
  repeat' first | with_reducible exact h | with_reducible apply State.l1Exit_steady

theorem execWakeCauseLatch_steady {s0 : State} (cause : Nat) (fn : Nat) {s : State} (h : Steady s0 s) :
    ∀ out, execWakeCauseLatch cause fn s = .next out → Steady s0 out := by
  intro out e; cases e
  repeat' first | with_reducible exact h | with_reducible apply State.wakeCause_steady

theorem execPmeSend_steady {s0 : State} {s : State} (h : Steady s0 s) :
    ∀ out, execPmeSend s = .next out → Steady s0 out := by
  intro out e; cases e
  repeat' first | with_reducible exact h | with_reducible apply State.pmeSend_steady

theorem execWakeCauseClear_steady {s0 : State} (bits : Nat) {s : State} (h : Steady s0 s) :
    ∀ out, execWakeCauseClear bits s = .next out → Steady s0 out := by
  intro out e; cases e
  repeat' first
    | with_reducible exact h | with_reducible apply State.guarded_steady | with_reducible apply State.wakeClear_steady

theorem execNarrowRequest_steady {s0 : State} (util : Nat) (ms : Nat) {s : State} (h : Steady s0 s) :
    ∀ out, execNarrowRequest util ms s = .next out → Steady s0 out := by
  intro out e; cases e
  repeat' first | with_reducible exact h | with_reducible apply State.narrowRequest_steady

theorem execNarrowWithdraw_steady {s0 : State} (width : Nat) (rate : Nat) {s : State} (h : Steady s0 s) :
    ∀ out, execNarrowWithdraw width rate s = .next out → Steady s0 out := by
  intro out e; cases e
  repeat' first | with_reducible exact h | with_reducible apply State.narrowWithdraw_steady

theorem execNarrowRetry_steady {s0 : State} (util : Nat) (ms : Nat) {s : State} (h : Steady s0 s) :
    ∀ out, execNarrowRetry util ms s = .next out → Steady s0 out := by
  intro out e; cases e
  repeat' first | with_reducible exact h | with_reducible apply State.narrowRetry_steady

theorem execCxlEnumDone_steady {s0 : State} (res : Nat) (capacity : Nat) (speed : Nat) (width : Nat) {s : State} (h
    : Steady s0 s) :
       ∀ out, execCxlEnumDone res capacity speed width s = .next out → Steady s0 out := by
  intro out e; cases e
  repeat' first | with_reducible exact h | with_reducible apply State.cxlEnumDone_steady

theorem execCxlLinkDown_steady {s0 : State} {s : State} (h : Steady s0 s) :
    ∀ out, execCxlLinkDown s = .next out → Steady s0 out := by
  intro out e; cases e
  repeat' first
    | with_reducible assumption | intro _ | with_reducible apply State.cxlAgain_steady
    | with_reducible apply State.cxlDown_steady | with_reducible apply State.iff_steady

theorem execTaskDispatch_steady {s0 : State} (core : Nat) (task : Nat) {s : State} (h : Steady s0 s) :
    ∀ out, execTaskDispatch core task s = .next out → Steady s0 out := by
  intro out e; cases e
  repeat' first | with_reducible exact h | with_reducible apply State.taskDispatch_steady

theorem execSlotPrefetch_steady {s0 : State} (core : Nat) (task : Nat) {s : State} (h : Steady s0 s) :
    ∀ out, execSlotPrefetch core task s = .next out → Steady s0 out := by
  intro out e; cases e
  repeat' first | with_reducible exact h | with_reducible apply State.slotPrefetch_steady

theorem execTaskPreempt_steady {s0 : State} (core : Nat) (task : Nat) {s : State} (h : Steady s0 s) :
    ∀ out, execTaskPreempt core task s = .next out → Steady s0 out := by
  intro out e; cases e
  repeat' first | with_reducible exact h | with_reducible apply State.taskPreempt_steady

theorem execTaskEnd_steady {s0 : State} (core : Nat) {s : State} (h : Steady s0 s) :
    ∀ out, execTaskEnd core s = .next out → Steady s0 out := by
  intro out e; cases e
  repeat' first | with_reducible exact h | with_reducible apply State.taskEnd_steady

theorem execTaskSetflag_steady {s0 : State} (core : Nat) (task : Nat) (flag : Nat) {s : State} (h : Steady s0 s) :
    ∀ out, execTaskSetflag core task flag s = .next out → Steady s0 out := by
  intro out e; cases e
  repeat' first
    | with_reducible exact h | with_reducible apply State.iff_steady | with_reducible apply State.setTaskFlag_steady

theorem execTaskFlow_steady {s0 : State} (core : Nat) (flow : Nat) (held : Bool) {s : State} (h : Steady s0 s) :
    ∀ out, execTaskFlow core flow held s = .next out → Steady s0 out := by
  intro out e; cases e
  repeat' first | with_reducible exact h | with_reducible apply State.taskFlow_steady

theorem execTskTimerExpire_steady {s0 : State} (timer : Nat) {s : State} (h : Steady s0 s) :
    ∀ out, execTskTimerExpire timer s = .next out → Steady s0 out := by
  intro out e; cases e
  repeat' first | with_reducible exact h | with_reducible apply State.timerExpire_steady

theorem execTskSet_steady {s0 : State} (task : Nat) (flag : Nat) {s : State} (h : Steady s0 s) :
    ∀ out, execTskSet task flag s = .next out → Steady s0 out := by
  intro out e; cases e
  repeat' first
    | with_reducible exact h | with_reducible apply State.guarded_steady | with_reducible apply State.tskSet_steady

theorem execDispatchLate_steady {s0 : State} (task : Nat) {s : State} (h : Steady s0 s) :
    ∀ out, execDispatchLate task s = .next out → Steady s0 out := by
  intro out e; cases e
  repeat' first | with_reducible assumption | intro _ | with_reducible apply State.dispatchLate_steady

theorem execWdogKick_steady {s0 : State} (core : Nat) {s : State} (h : Steady s0 s) :
    ∀ out, execWdogKick core s = .next out → Steady s0 out := by
  intro out e; cases e
  repeat' first
    | with_reducible assumption | intro _ | with_reducible apply State.iff_steady
    | with_reducible apply State.modCoreRun_steady

theorem execWatchdogExpire_steady {s0 : State} (core : Nat) {s : State} (h : Steady s0 s) :
    ∀ out, execWatchdogExpire core s = .next out → Steady s0 out := by
  intro out e; cases e
  repeat' first | with_reducible exact h | with_reducible apply State.watchdogExpire_steady

theorem execCoreRelease_steady {s0 : State} (mask : Nat) {s : State} (h : Steady s0 s) :
    ∀ out, execCoreRelease mask s = .next out → Steady s0 out := by
  intro out e; cases e
  repeat' first
    | with_reducible exact h | with_reducible apply State.coreRelease_steady
    | with_reducible apply State.guarded_steady

theorem execSramUncorrectable_steady {s0 : State} (core : Nat) (what : CoreAccess) {s : State} (h : Steady s0 s) :
    ∀ out, execSramUncorrectable core what s = .next out → Steady s0 out := by
  intro out e; cases e
  repeat' first
    | with_reducible exact h | with_reducible apply State.coreMemory_steady | with_reducible apply State.iff_steady

theorem execCoreRingTail_steady {s0 : State} (ring : Nat) (tail : Nat) {s : State} (h : Steady s0 s) :
    ∀ out, execCoreRingTail ring tail s = .next out → Steady s0 out := by
  intro out e; cases e
  repeat' first | with_reducible exact h | with_reducible apply State.coreRingTail_steady

theorem execFlashRead_steady {s0 : State} (win : Window) {s : State} (h : Steady s0 s) :
    ∀ out, execFlashRead win s = .next out → Steady s0 out := by
  intro out e; cases e
  repeat' first
    | with_reducible exact h | with_reducible apply State.flashCommand_steady
    | with_reducible apply State.guarded_steady

theorem execFlashProgram_steady {s0 : State} (win : Window) (fromStage : Bool) {s : State} (h : Steady s0 s) :
    ∀ out, execFlashProgram win fromStage s = .next out → Steady s0 out := by
  intro out e; cases e
  repeat' first
    | with_reducible exact h | with_reducible apply State.flashCommand_steady
    | with_reducible apply State.guarded_steady

theorem execFlashErase_steady {s0 : State} (win : Window) {s : State} (h : Steady s0 s) :
    ∀ out, execFlashErase win s = .next out → Steady s0 out := by
  intro out e; cases e
  repeat' first
    | with_reducible exact h | with_reducible apply State.flashCommand_steady
    | with_reducible apply State.guarded_steady

theorem execPageLoad_steady {s0 : State} (win : Window) {s : State} (h : Steady s0 s) :
    ∀ out, execPageLoad win s = .next out → Steady s0 out := by
  intro out e; cases e
  repeat' first
    | with_reducible exact h | with_reducible apply State.flashCommand_steady
    | with_reducible apply State.guarded_steady

theorem execFlashOpDone_steady {s0 : State} (ok : Bool) {s : State} (h : Steady s0 s) :
    ∀ out, execFlashOpDone ok s = .next out → Steady s0 out := by
  intro out e; cases e
  repeat' first | with_reducible exact h | with_reducible apply State.flashOpDone_steady

theorem execFlashEraseDone_steady {s0 : State} (blank : Bool) {s : State} (h : Steady s0 s) :
    ∀ out, execFlashEraseDone blank s = .next out → Steady s0 out := by
  intro out e; cases e
  repeat' first | with_reducible exact h | with_reducible apply State.flashEraseDone_steady

theorem execBoot_steady {s0 : State} (suspended : Bool) (bad : List Nat) {s : State} (h : Steady s0 s) :
    ∀ out, execBoot suspended bad s = .next out → Steady s0 out := by
  intro out e; cases e
  repeat' first | with_reducible exact h | with_reducible apply State.boot_steady

theorem execBootConfirm_steady {s0 : State} {s : State} (h : Steady s0 s) :
    ∀ out, execBootConfirm s = .next out → Steady s0 out := by
  intro out e; cases e
  repeat' first
    | with_reducible exact h | with_reducible apply State.bootConfirm_steady
    | with_reducible apply State.guarded_steady

theorem execBootRetry_steady {s0 : State} {s : State} (h : Steady s0 s) :
    ∀ out, execBootRetry s = .next out → Steady s0 out := by
  intro out e; cases e
  repeat' first
    | with_reducible exact h | with_reducible apply State.bootRetry_steady | with_reducible apply State.guarded_steady

theorem execPuntyArm_steady {s0 : State} (handover : Nat) {s : State} (h : Steady s0 s) :
    ∀ out, execPuntyArm handover s = .next out → Steady s0 out := by
  intro out e; cases e
  repeat' first
    | with_reducible exact h | with_reducible apply State.guarded_steady | with_reducible apply State.puntyArm_steady

theorem execPuntyLoad_steady {s0 : State} {s : State} (h : Steady s0 s) :
    ∀ out, execPuntyLoad s = .next out → Steady s0 out := by
  intro out e; cases e
  repeat' first | with_reducible exact h | with_reducible apply State.puntyLoad_steady

theorem execPuntyReady_steady {s0 : State} {s : State} (h : Steady s0 s) :
    ∀ out, execPuntyReady s = .next out → Steady s0 out := by
  intro out e; cases e
  repeat' first
    | with_reducible exact h | with_reducible apply State.guarded_steady
    | with_reducible apply State.puntyReady_steady

theorem execPuntyCommit_steady {s0 : State} {s : State} (h : Steady s0 s) :
    ∀ out, execPuntyCommit s = .next out → Steady s0 out := by
  intro out e; cases e
  repeat' first
    | with_reducible exact h | with_reducible apply State.guarded_steady
    | with_reducible apply State.puntyCommit_steady

theorem execPuntyFlip_steady {s0 : State} {s : State} (h : Steady s0 s) :
    ∀ out, execPuntyFlip s = .next out → Steady s0 out := by
  intro out e; cases e
  repeat' first | with_reducible exact h | with_reducible apply State.puntyFlip_steady

theorem execPuntyAbort_steady {s0 : State} {s : State} (h : Steady s0 s) :
    ∀ out, execPuntyAbort s = .next out → Steady s0 out := by
  intro out e; cases e
  repeat' first
    | with_reducible exact h | with_reducible apply State.guarded_steady
    | with_reducible apply State.puntyAbort_steady

theorem execPuntyFreezeTimeout_steady {s0 : State} {s : State} (h : Steady s0 s) :
    ∀ out, execPuntyFreezeTimeout s = .next out → Steady s0 out := by
  intro out e; cases e
  repeat' first
    | with_reducible exact h | with_reducible apply State.iff_steady | with_reducible apply State.puntyAbort_steady

theorem execCompletionTimeout_steady {s0 : State} (fn : Nat) (k : Nat) {s : State} (h : Steady s0 s) :
    ∀ out, execCompletionTimeout fn k s = .next out → Steady s0 out := by
  intro out e; cases e
  repeat' first
    | with_reducible assumption | intro _ | with_reducible apply Steady.ite
    | with_reducible apply State.gatherFault_steady | with_reducible apply Steady.foldl | split

theorem execPcieLinkDown_steady {s0 : State} (l2 : Bool) {s : State} (h : Steady s0 s) :
    ∀ out, execPcieLinkDown l2 s = .next out → Steady s0 out := by
  intro out e; cases e
  repeat' first | with_reducible exact h | with_reducible apply State.pcieDown_steady

theorem execPcieRecovery_steady {s0 : State} (width : Nat) (rate : Nat) (errors : Nat) {s : State} (h : Steady s0 s) :
    ∀ out, execPcieRecovery width rate errors s = .next out → Steady s0 out := by
  intro out e; cases e
  repeat' first | with_reducible exact h | with_reducible apply State.recovery_steady

theorem execCxlDeviceError_steady {s0 : State} {s : State} (h : Steady s0 s) :
    ∀ out, execCxlDeviceError s = .next out → Steady s0 out := by
  intro out e; cases e
  repeat' first | with_reducible exact h | with_reducible apply State.count_steady

end Sys2Proof.Machine
end

