-- ==== Sys2Proof/Laws/SteadyBlocks.lean ====
section
/-! SUPPORT. What leaves every PAGE_CTRL and every standing pennant bit (Laws/Steady.lean): page enables and soft reset, power, containment, and the commands of the line and the ports. -/

namespace Sys2Proof.Machine

theorem State.acqStore_steady {s0 : State} (r : Rx) (res : AcqResult) {s : State} (h : Steady s0 s) :
    Steady s0 (State.acqStore r res s) := by
  unfold State.acqStore
  repeat' first
    | with_reducible assumption | exact ⟨Nat.ne_of_beq_eq_false rfl, Nat.ne_of_beq_eq_false rfl⟩
    | exact Nat.le_of_ble_eq_true rfl | intro _ | with_reducible apply Steady.ite
    | with_reducible apply State.laneFix_steady | with_reducible apply State.setFld_steady
    | with_reducible apply State.setSFld_steady | with_reducible apply Steady.foldl | split

theorem State.illegalMode_steady {s0 : State} (t : Tree) {s : State} (h : Steady s0 s) :
    Steady s0 (State.illegalMode t s) := by
  unfold State.illegalMode
  repeat' first
    | with_reducible exact h | with_reducible apply State.count_steady | with_reducible apply State.raise_steady

theorem State.hostMode_steady {s0 : State} (t : Tree) (m : Nat) {s : State} (h : Steady s0 s) :
    Steady s0 (State.hostMode t m s) := by
  unfold State.hostMode
  repeat' first
    | with_reducible assumption | intro _ | with_reducible apply Steady.ite
    | with_reducible apply State.illegalMode_steady | with_reducible apply State.recordQuarantine_steady
    | with_reducible apply State.setMode_steady

theorem State.releaseQuarantine_steady {s0 : State} (t : Tree) {s : State} (h : Steady s0 s) :
    Steady s0 (State.releaseQuarantine t s) := by
  unfold State.releaseQuarantine
  repeat' first
    | with_reducible assumption | intro _ | with_reducible apply Steady.ite | with_reducible apply State.count_steady
    | with_reducible apply State.iff_steady | with_reducible apply State.leaveQuarantine_steady
    | with_reducible apply State.raise_steady

theorem State.hostDeactivate_steady {s0 : State} (t : Tree) {s : State} (h : Steady s0 s) :
    Steady s0 (State.hostDeactivate t s) := by
  unfold State.hostDeactivate
  repeat' first
    | with_reducible exact h | with_reducible apply State.iff_steady | with_reducible apply State.setMode_steady

theorem State.announceRelease_steady {s0 : State} {s : State} (h : Steady s0 s) :
    Steady s0 (State.announceRelease s) := by
  unfold State.announceRelease
  repeat' first
    | with_reducible assumption | intro _ | with_reducible apply Steady.ite | with_reducible apply State.iff_steady
    | with_reducible apply State.modClk_steady | with_reducible apply State.raise_steady

theorem State.rxLeave_steady {s0 : State} (r : Rx) {s : State} (h : Steady s0 s) :
    Steady s0 (State.rxLeave r s) := by
  unfold State.rxLeave
  repeat' first
    | with_reducible assumption | intro _ | with_reducible apply State.clkLose_steady
    | with_reducible apply State.frmUnlocked_steady | with_reducible apply State.lineDo_steady

theorem State.blockStop_steady {s0 : State} (p : Nat) {s : State} (h : Steady s0 s) :
    Steady s0 (State.blockStop p s) := by
  unfold State.blockStop
  repeat' first
    | with_reducible assumption | intro _ | with_reducible apply Steady.ite
    | with_reducible apply State.ccryStop_steady | with_reducible apply State.cxlStop_steady
    | with_reducible apply State.drainRing_steady | with_reducible apply State.enterDarkKeep_steady
    | with_reducible apply State.frmStop_steady | with_reducible apply State.halStop_steady
    | with_reducible apply State.lineDo_steady | with_reducible apply State.pmMarkAll_steady
    | with_reducible apply State.ppsLow_steady | with_reducible apply State.refreshPolicy_steady
    | with_reducible apply State.refreshPorts_steady | with_reducible apply State.rxLeave_steady
    | with_reducible apply State.rxStopFigures_steady | with_reducible apply State.showTier_steady
    | with_reducible apply State.suppressWaiting_steady | with_reducible apply State.timeStop_steady
    | with_reducible apply Steady.foldl | split | with_reducible apply Steady.id | dsimp only

theorem State.linkRetrained_steady {s0 : State} (l : Nat) {s : State} (h : Steady s0 s) :
    Steady s0 (State.linkRetrained l s) := by
  unfold State.linkRetrained
  repeat' first
    | with_reducible exact h | exact ⟨Nat.ne_of_beq_eq_false rfl, Nat.ne_of_beq_eq_false rfl⟩
    | exact Nat.le_of_ble_eq_true rfl | with_reducible apply State.count_steady
    | with_reducible apply State.grantCredits_steady | with_reducible apply State.raise_steady
    | with_reducible apply State.setFld_steady

theorem State.blockDrop_steady {s0 : State} (p : Nat) {s : State} (h : Steady s0 s) :
    Steady s0 (State.blockDrop p s) := by
  unfold State.blockDrop
  repeat' first
    | with_reducible assumption | exact ⟨Nat.ne_of_beq_eq_false rfl, Nat.ne_of_beq_eq_false rfl⟩
    | exact Nat.le_of_ble_eq_true rfl | intro _ | with_reducible apply Steady.ite
    | with_reducible apply State.abortJob_steady | with_reducible apply State.clipTokens_steady
    | with_reducible apply State.dropClassifier_steady | with_reducible apply State.dropDual_steady
    | with_reducible apply State.dropHands_steady | with_reducible apply State.dropStore_steady
    | with_reducible apply State.dropWaiting_steady | with_reducible apply State.flashStop_steady
    | with_reducible apply State.holdHalf_steady | with_reducible apply State.iff_steady
    | with_reducible apply State.linkRetrained_steady | with_reducible apply State.loseRecords_steady
    | with_reducible apply State.pcieDown_steady | with_reducible apply State.setFld_steady
    | with_reducible apply Steady.foldl | split

theorem State.releaseUnits_steady {s0 : State} (p : Nat) {s : State} (h : Steady s0 s) :
    Steady s0 (State.releaseUnits p s) := by
  unfold State.releaseUnits
  repeat' first
    | with_reducible assumption | intro _ | with_reducible apply Steady.ite
    | with_reducible apply State.freeLast_steady | with_reducible apply State.modRel_steady

theorem State.blockClear_steady {s0 : State} (p : Nat) {s : State} (h : Steady s0 s) :
    Steady s0 (State.blockClear p s) := by
  unfold State.blockClear
  repeat' first
    | with_reducible assumption | exact ⟨Nat.ne_of_beq_eq_false rfl, Nat.ne_of_beq_eq_false rfl⟩
    | exact Nat.le_of_ble_eq_true rfl | intro _ | with_reducible apply Steady.ite
    | with_reducible apply State.applyMaxIter_steady | with_reducible apply State.clkJudge_steady
    | with_reducible apply State.dropSlot_steady | with_reducible apply State.flushMerge_steady
    | with_reducible apply State.iff_steady | with_reducible apply State.judgePromotion_steady
    | with_reducible apply State.keysLost_steady | with_reducible apply State.modCcry_steady
    | with_reducible apply State.modCls_steady | with_reducible apply State.modCore_steady
    | with_reducible apply State.modFlow_steady | with_reducible apply State.modHals_steady
    | with_reducible apply State.modLehr_steady | with_reducible apply State.modPol_steady
    | with_reducible apply State.modSto_steady | with_reducible apply State.modTime_steady
    | with_reducible apply State.modTsk_steady | with_reducible apply State.modTxs_steady
    | with_reducible apply State.modUsch_steady | with_reducible apply State.modXtr_steady
    | with_reducible apply State.noteHalLevel_steady | with_reducible apply State.noteLaunch_steady
    | with_reducible apply State.putTw_steady | with_reducible apply State.quarAgain_steady
    | with_reducible apply State.refreshPolicy_steady | with_reducible apply State.refreshPorts_steady
    | with_reducible apply State.setFld_steady | with_reducible apply State.setHalf_steady
    | with_reducible apply State.setPunty_steady | with_reducible apply State.setQueueBytes_steady
    | with_reducible apply State.setSelector_steady | with_reducible apply State.setTf_steady
    | with_reducible apply State.showJobs_steady | with_reducible apply State.showKeystore_steady
    | with_reducible apply State.showQueue_steady | with_reducible apply State.showTick_steady
    | with_reducible apply State.showTier_steady | with_reducible apply State.timeClearHost_steady
    | with_reducible apply State.wakeDomain_steady | with_reducible apply Steady.foldl | split
    | (refine (?_ : Sparse.wf _ _ = true); assumption) | exact Sparse.wf_filter _ _ _ (by assumption)
    | exact Sparse.wf_put _ _ _ _ (by assumption) | (refine (?_ : _ < counterMod _); apply_assumption)
    | with_reducible apply Steady.id | dsimp only

theorem State.blockStart_steady {s0 : State} (p : Nat) {s : State} (h : Steady s0 s) :
    Steady s0 (State.blockStart p s) := by
  unfold State.blockStart
  repeat' first
    | with_reducible assumption | intro _ | with_reducible apply Steady.ite
    | with_reducible apply State.cxlStart_steady | with_reducible apply State.dispatchJobs_steady
    | with_reducible apply State.firmwareBack_steady | with_reducible apply State.frmStart_steady
    | with_reducible apply State.genStart_steady | with_reducible apply State.halJudge_steady
    | with_reducible apply State.iff_steady | with_reducible apply State.lineDo_steady
    | with_reducible apply State.pmMarkAll_steady | with_reducible apply State.refreshPolicy_steady
    | with_reducible apply State.refreshPorts_steady | with_reducible apply State.ringRun_steady
    | with_reducible apply State.rxBegin_steady | with_reducible apply State.showTier_steady
    | with_reducible apply State.timeStart_steady | with_reducible apply State.txBegin_steady
    | with_reducible apply Steady.foldl | split | with_reducible apply Steady.id | dsimp only

theorem State.regionRelease_steady {s0 : State} (r : Nat) {s : State} (h : Steady s0 s) :
    Steady s0 (State.regionRelease r s) := by
  unfold State.regionRelease
  repeat' first
    | with_reducible exact h | with_reducible apply State.count_steady | with_reducible apply State.freeLast_steady
    | with_reducible apply State.modRel_steady | with_reducible apply State.settleRegion_steady

theorem State.sysRegionRelease_steady {s0 : State} (mask : Nat) {s : State} (h : Steady s0 s) :
    Steady s0 (State.sysRegionRelease mask s) := by
  unfold State.sysRegionRelease
  repeat' first
    | with_reducible assumption | intro _ | with_reducible apply Steady.ite
    | with_reducible apply State.ignored_steady | with_reducible apply State.regionRelease_steady
    | with_reducible apply Steady.foldl | split

theorem State.clkForceCmd_steady {s0 : State} (code : Nat) {s : State} (h : Steady s0 s) :
    Steady s0 (State.clkForceCmd code s) := by
  unfold State.clkForceCmd
  repeat' first
    | with_reducible assumption | exact ⟨Nat.ne_of_beq_eq_false rfl, Nat.ne_of_beq_eq_false rfl⟩
    | exact Nat.le_of_ble_eq_true rfl | intro _ | with_reducible apply Steady.ite
    | with_reducible apply State.clkJudge_steady | with_reducible apply State.count_steady
    | with_reducible apply State.raise_steady | with_reducible apply State.setFld_steady

theorem State.showSensors_steady {s0 : State} (r : LehrReadings) {s : State} (h : Steady s0 s) :
    Steady s0 (State.showSensors r s) := by
  unfold State.showSensors
  repeat' first
    | with_reducible assumption | intro _ | with_reducible apply Steady.ite
    | with_reducible apply State.putEntry_steady | with_reducible apply Steady.foldl | split

theorem State.planDone_steady {s0 : State} (r : LehrReadings) {s : State} (h : Steady s0 s) :
    Steady s0 (State.planDone r s) := by
  unfold State.planDone
  repeat' first
    | with_reducible exact h | exact ⟨Nat.ne_of_beq_eq_false rfl, Nat.ne_of_beq_eq_false rfl⟩
    | exact Nat.le_of_ble_eq_true rfl | with_reducible apply State.count_steady
    | with_reducible apply State.modLehr_steady | with_reducible apply State.putEntry_steady
    | with_reducible apply State.raise_steady | with_reducible apply State.setFld_steady

theorem State.planIter_steady {s0 : State} (x : Rx) {s : State} (h : Steady s0 s) :
    Steady s0 (State.planIter x s) := by
  unfold State.planIter
  repeat' first
    | with_reducible assumption | exact ⟨Nat.ne_of_beq_eq_false rfl, Nat.ne_of_beq_eq_false rfl⟩
    | exact Nat.le_of_ble_eq_true rfl | intro _ | with_reducible apply Steady.ite
    | with_reducible apply State.setFld_steady

theorem State.planTrim_steady {s0 : State} (t : Tree) (monitor : Int) {s : State} (h : Steady s0 s) :
    Steady s0 (State.planTrim t monitor s) := by
  unfold State.planTrim
  repeat' first
    | with_reducible assumption | intro _ | with_reducible apply Steady.ite | with_reducible apply State.modTxs_steady
    | with_reducible apply State.setTrim_steady

theorem State.planDerate_steady {s0 : State} (r : LehrReadings) {s : State} (h : Steady s0 s) :
    Steady s0 (State.planDerate r s) := by
  unfold State.planDerate
  repeat' first
    | with_reducible assumption | exact ⟨Nat.ne_of_beq_eq_false rfl, Nat.ne_of_beq_eq_false rfl⟩
    | exact Nat.le_of_ble_eq_true rfl | intro _ | with_reducible apply Steady.ite
    | with_reducible apply State.count_steady | with_reducible apply State.modLehr_steady
    | with_reducible apply State.raise_steady | with_reducible apply State.setFld_steady
    | with_reducible apply Steady.foldl | split | with_reducible apply Steady.id | dsimp only

theorem State.planLow_steady {s0 : State} (r : LehrReadings) (rail : Nat) {s : State} (h : Steady s0 s) :
    Steady s0 (State.planLow r rail s) := by
  unfold State.planLow
  repeat' first
    | with_reducible assumption | intro _ | with_reducible apply Steady.ite | with_reducible apply State.count_steady
    | with_reducible apply State.raise_steady

theorem State.planSettings_steady {s0 : State} (r : LehrReadings) {s : State} (h : Steady s0 s) :
    Steady s0 (State.planSettings r s) := by
  unfold State.planSettings
  repeat' first
    | with_reducible exact h | with_reducible apply State.modLehr_steady
    | with_reducible apply State.planDerate_steady | with_reducible apply State.planIter_steady
    | with_reducible apply State.planLow_steady | with_reducible apply State.planTrim_steady

theorem State.planGoOn_steady {s0 : State} {s : State} (h : Steady s0 s) :
    Steady s0 (State.planGoOn s) := by
  unfold State.planGoOn
  repeat' first
    | with_reducible assumption | intro _ | with_reducible apply Steady.ite | with_reducible apply State.emit_steady
    | with_reducible apply State.modLehr_steady | with_reducible apply State.planDone_steady
    | with_reducible apply State.planSettings_steady | with_reducible apply Steady.foldl | split

theorem State.replanStart_steady {s0 : State} (r : LehrReadings) {s : State} (h : Steady s0 s) :
    Steady s0 (State.replanStart r s) := by
  unfold State.replanStart
  repeat' first
    | with_reducible exact h | exact ⟨Nat.ne_of_beq_eq_false rfl, Nat.ne_of_beq_eq_false rfl⟩
    | exact Nat.le_of_ble_eq_true rfl | with_reducible apply State.modLehr_steady
    | with_reducible apply State.planGoOn_steady | with_reducible apply State.setFld_steady
    | with_reducible apply State.showSensors_steady

theorem State.replan_steady {s0 : State} (r : LehrReadings) {s : State} (h : Steady s0 s) :
    Steady s0 (State.replan r s) := by
  unfold State.replan
  repeat' first
    | with_reducible assumption | exact ⟨Nat.ne_of_beq_eq_false rfl, Nat.ne_of_beq_eq_false rfl⟩
    | exact Nat.le_of_ble_eq_true rfl | intro _ | with_reducible apply Steady.ite
    | with_reducible apply State.count_steady | with_reducible apply State.raise_steady
    | with_reducible apply State.replanStart_steady | with_reducible apply State.setFld_steady

theorem State.forceRelease_steady {s0 : State} (t : Tree) {s : State} (h : Steady s0 s) :
    Steady s0 (State.forceRelease t s) := by
  unfold State.forceRelease
  repeat' first
    | with_reducible assumption | intro _ | with_reducible apply Steady.ite
    | with_reducible apply State.ignored_steady | with_reducible apply State.modTxs_steady
    | with_reducible apply State.refreshPolicy_steady | with_reducible apply State.showForce_steady
    | with_reducible apply Steady.foldl | split | with_reducible apply Steady.id | dsimp only

theorem State.laneInject_steady {s0 : State} (l : Nat) {s : State} (h : Steady s0 s) :
    Steady s0 (State.laneInject l s) := by
  unfold State.laneInject
  repeat' first
    | with_reducible assumption | intro _ | with_reducible apply State.emitError_steady
    | with_reducible apply State.iff_steady

theorem State.snapArm_steady {s0 : State} {s : State} (h : Steady s0 s) :
    Steady s0 (State.snapArm s) := by
  unfold State.snapArm
  repeat' first
    | with_reducible assumption | exact ⟨Nat.ne_of_beq_eq_false rfl, Nat.ne_of_beq_eq_false rfl⟩
    | exact Nat.le_of_ble_eq_true rfl | intro _ | with_reducible apply Steady.ite
    | with_reducible apply State.count_steady | with_reducible apply State.modSnap_steady
    | with_reducible apply State.setFld_steady | with_reducible apply State.snapRefuse_steady

theorem State.snapCancel_steady {s0 : State} {s : State} (h : Steady s0 s) :
    Steady s0 (State.snapCancel s) := by
  unfold State.snapCancel
  repeat' first
    | with_reducible assumption | exact ⟨Nat.ne_of_beq_eq_false rfl, Nat.ne_of_beq_eq_false rfl⟩
    | exact Nat.le_of_ble_eq_true rfl | intro _ | with_reducible apply Steady.ite
    | with_reducible apply State.count_steady | with_reducible apply State.setFld_steady
    | with_reducible apply Steady.foldl | split

theorem State.snapArmNow_steady {s0 : State} {s : State} (h : Steady s0 s) :
    Steady s0 (State.snapArmNow s) := by
  unfold State.snapArmNow
  repeat' first
    | with_reducible assumption | exact ⟨Nat.ne_of_beq_eq_false rfl, Nat.ne_of_beq_eq_false rfl⟩
    | exact Nat.le_of_ble_eq_true rfl | intro _ | with_reducible apply Steady.ite
    | with_reducible apply State.count_steady | with_reducible apply State.setFld_steady
    | with_reducible apply State.snapCapture_steady | with_reducible apply State.snapRefuse_steady

theorem State.snapCtrl_steady {s0 : State} (v : Word) {s : State} (h : Steady s0 s) :
    Steady s0 (State.snapCtrl v s) := by
  unfold State.snapCtrl
  repeat' first
    | with_reducible assumption | intro _ | with_reducible apply Steady.ite
    | with_reducible apply State.ignored_steady | with_reducible apply State.snapArm_steady
    | with_reducible apply State.snapArmNow_steady | with_reducible apply State.snapCancel_steady
    | with_reducible apply Steady.foldl | split

theorem State.showPins_steady {s0 : State} {s : State} (h : Steady s0 s) :
    Steady s0 (State.showPins s) := by
  unfold State.showPins
  repeat' first
    | with_reducible exact h | exact ⟨Nat.ne_of_beq_eq_false rfl, Nat.ne_of_beq_eq_false rfl⟩
    | exact Nat.le_of_ble_eq_true rfl | with_reducible apply State.setFld_steady

theorem State.pinRelease_steady {s0 : State} (i : Nat) (still : Bool) {s : State} (h : Steady s0 s) :
    Steady s0 (State.pinRelease i still s) := by
  unfold State.pinRelease
  repeat' first
    | with_reducible assumption | intro _ | with_reducible apply Steady.ite | with_reducible apply State.count_steady
    | with_reducible apply State.raise_steady | with_reducible apply State.setTf_steady
    | with_reducible apply State.showPins_steady

theorem State.avsDone_steady {s0 : State} (rail : Nat) (ack : Bool) {s : State} (h : Steady s0 s) :
    Steady s0 (State.avsDone rail ack s) := by
  unfold State.avsDone
  repeat' first
    | with_reducible assumption | exact ⟨Nat.ne_of_beq_eq_false rfl, Nat.ne_of_beq_eq_false rfl⟩
    | exact Nat.le_of_ble_eq_true rfl | (unfold railFld; split <;> exact ⟨by decide, by decide⟩) | intro _
    | with_reducible apply Steady.ite | with_reducible apply State.count_steady
    | with_reducible apply State.emit_steady | with_reducible apply State.modLehr_steady
    | with_reducible apply State.planDone_steady | with_reducible apply State.planGoOn_steady
    | with_reducible apply State.raise_steady | with_reducible apply State.setFld_steady
    | with_reducible apply Steady.foldl | split

theorem State.burstBegin_steady {s0 : State} (t : Tree) (i : Nat) {s : State} (h : Steady s0 s) :
    Steady s0 (State.burstBegin t i s) := by
  unfold State.burstBegin
  repeat' first
    | with_reducible exact h | with_reducible apply State.applyLaunch_steady
    | with_reducible apply State.driveGate_steady | with_reducible apply State.drivePrep_steady
    | with_reducible apply State.halCutNow_steady | with_reducible apply State.modTxs_steady
    | with_reducible apply State.noticeBurst_steady | with_reducible apply State.setTf_steady

theorem State.clearCounters_steady {s0 : State} {s : State} (h : Steady s0 s) :
    Steady s0 (State.clearCounters s) := by
  unfold State.clearCounters
  repeat' first
    | with_reducible exact h | with_reducible apply State.modCnt_steady | with_reducible apply State.modSto_steady

theorem State.settleAll_steady {s0 : State} {s : State} (h : Steady s0 s) :
    Steady s0 (State.settleAll s) := by
  unfold State.settleAll
  repeat' first
    | with_reducible assumption | intro _ | with_reducible apply Steady.ite
    | with_reducible apply State.settleRegion_steady | with_reducible apply Steady.foldl | split

theorem State.clockRelease_steady {s0 : State} {s : State} (h : Steady s0 s) :
    Steady s0 (State.clockRelease s) := by
  unfold State.clockRelease
  repeat' first
    | with_reducible assumption | intro _ | with_reducible apply Steady.ite
    | with_reducible apply State.announceRelease_steady | with_reducible apply State.modClk_steady
    | with_reducible apply State.settleAll_steady

theorem State.clockGateEnd_steady {s0 : State} (k : Nat) (count : Nat) {s : State} (h : Steady s0 s) :
    Steady s0 (State.clockGateEnd k count s) := by
  unfold State.clockGateEnd
  repeat' first
    | with_reducible assumption | intro _ | with_reducible apply Steady.ite
    | with_reducible apply State.clockRelease_steady | with_reducible apply State.gateEnd_steady

theorem State.d2dLast_steady {s0 : State} (l : Nat) (event : Nat) {s : State} (h : Steady s0 s) :
    Steady s0 (State.d2dLast l event s) := by
  unfold State.d2dLast
  repeat' first
    | with_reducible exact h | exact ⟨Nat.ne_of_beq_eq_false rfl, Nat.ne_of_beq_eq_false rfl⟩
    | exact Nat.le_of_ble_eq_true rfl | with_reducible apply State.setFld_steady

theorem State.domainGone_steady {s0 : State} (d : Nat) {s : State} (h : Steady s0 s) :
    Steady s0 (State.domainGone d s) := by
  unfold State.domainGone
  repeat' first
    | with_reducible assumption | intro _ | with_reducible apply Steady.ite
    | with_reducible apply State.clkLose_steady | with_reducible apply State.refreshPorts_steady

theorem State.domainsUp_steady {s0 : State} {s : State} (h : Steady s0 s) :
    Steady s0 (State.domainsUp s) := by
  unfold State.domainsUp
  repeat' first
    | with_reducible assumption | intro _ | with_reducible apply Steady.ite
    | with_reducible apply State.modKeep_steady | with_reducible apply State.setDomState_steady
    | with_reducible apply Steady.foldl | split

theorem State.forceSafe_steady {s0 : State} {s : State} (h : Steady s0 s) :
    Steady s0 (State.forceSafe s) := by
  unfold State.forceSafe
  repeat' first
    | with_reducible assumption | intro _ | with_reducible apply Steady.ite | with_reducible apply State.count_steady
    | with_reducible apply State.modClk_steady | with_reducible apply State.modTime_steady
    | with_reducible apply State.raise_steady

theorem State.edgeMissing_steady {s0 : State} (which : Nat) {s : State} (h : Steady s0 s) :
    Steady s0 (State.edgeMissing which s) := by
  unfold State.edgeMissing
  repeat' first
    | with_reducible assumption | intro _ | with_reducible apply Steady.ite
    | with_reducible apply State.clockForce_steady | with_reducible apply State.enterDarkKeep_steady
    | with_reducible apply State.forceSafe_steady | with_reducible apply Steady.foldl | split

theorem State.emptyKeepRam_steady {s0 : State} {s : State} (h : Steady s0 s) :
    Steady s0 (State.emptyKeepRam s) := by
  unfold State.emptyKeepRam
  repeat' first
    | with_reducible exact h | with_reducible apply State.modKeep_steady
    | with_reducible apply State.resetTable_steady

theorem State.flitFail_steady {s0 : State} (l : Nat) (d : Nat) {s : State} (h : Steady s0 s) :
    Steady s0 (State.flitFail l d s) := by
  unfold State.flitFail
  repeat' first
    | with_reducible assumption | intro _ | with_reducible apply Steady.ite | with_reducible apply State.count_steady
    | with_reducible apply State.d2dLast_steady | with_reducible apply State.modLink_steady
    | with_reducible apply State.raiseMs_steady

theorem State.moveCredits_steady {s0 : State} (e : Nat) (a : Nat) (b : Nat) (n : Nat) {s : State} (h : Steady s0 s) :
    Steady s0 (State.moveCredits e a b n s) := by
  unfold State.moveCredits
  repeat' first | with_reducible exact h | with_reducible apply State.putTw_steady

theorem State.flitTake_steady {s0 : State} (l : Nat) (d : Nat) (bs : Bytes) {s : State} (h : Steady s0 s) :
    Steady s0 (State.flitTake l d bs s) := by
  unfold State.flitTake
  repeat' first
    | with_reducible exact h | with_reducible apply State.modLink_steady
    | with_reducible apply State.moveCredits_steady

theorem State.flitReceive_steady {s0 : State} (l : Nat) (d : Nat) (bs : Bytes) {s : State} (h : Steady s0 s) :
    Steady s0 (State.flitReceive l d bs s) := by
  unfold State.flitReceive
  repeat' first
    | with_reducible assumption | intro _ | with_reducible apply Steady.ite | with_reducible apply State.count_steady
    | with_reducible apply State.flitFail_steady | with_reducible apply State.flitTake_steady
    | with_reducible apply State.iff_steady

theorem State.idleExpire_steady {s0 : State} (d : Nat) (refusal : Option (Nat × Nat)) {s : State} (h : Steady s0 s) :
    Steady s0 (State.idleExpire d refusal s) := by
  unfold State.idleExpire
  repeat' first
    | with_reducible assumption | intro _ | with_reducible apply Steady.ite
    | with_reducible apply State.modKeep_steady | with_reducible apply State.refuseEntry_steady
    | with_reducible apply State.setDomState_steady | with_reducible apply Steady.foldl | split

theorem State.tenantStop_steady {s0 : State} (t : Tree) (n : Nat) {s : State} (h : Steady s0 s) :
    Steady s0 (State.tenantStop t n s) := by
  unfold State.tenantStop
  repeat' first
    | with_reducible assumption | exact ⟨Nat.ne_of_beq_eq_false rfl, Nat.ne_of_beq_eq_false rfl⟩
    | exact Nat.le_of_ble_eq_true rfl | (simp only [tenantEnFld]; omega) | intro _ | with_reducible apply Steady.ite
    | with_reducible apply State.iff_steady | with_reducible apply State.releaseList_steady
    | with_reducible apply State.releaseShared_steady | with_reducible apply State.setFld_steady
    | with_reducible apply State.showQueue_steady | with_reducible apply Steady.foldl | split

theorem State.unitStop_steady {s0 : State} (p : Nat) (u : Nat) {s : State} (h : Steady s0 s) :
    Steady s0 (State.unitStop p u s) := by
  unfold State.unitStop
  repeat' first
    | with_reducible assumption | exact ⟨Nat.ne_of_beq_eq_false rfl, Nat.ne_of_beq_eq_false rfl⟩
    | exact Nat.le_of_ble_eq_true rfl | intro _ | with_reducible apply Steady.ite
    | with_reducible apply State.blockDrop_steady | with_reducible apply State.blockStop_steady
    | with_reducible apply State.dropUp_steady | with_reducible apply State.flushQueues_steady
    | with_reducible apply State.iff_steady | with_reducible apply State.portFlush_steady
    | with_reducible apply State.raise_steady | with_reducible apply State.refreshPorts_steady
    | with_reducible apply State.setFld_steady | with_reducible apply State.setTf_steady
    | with_reducible apply State.tenantStop_steady | with_reducible apply Steady.foldl | split

theorem State.unitContain_steady {s0 : State} (p : Nat) (u : Nat) {s : State} (h : Steady s0 s) :
    Steady s0 (State.unitContain p u s) := by
  unfold State.unitContain
  repeat' first
    | with_reducible assumption | intro _ | with_reducible apply Steady.ite
    | with_reducible apply State.containCore_steady | with_reducible apply State.noteContain_steady
    | with_reducible apply State.unitStop_steady

theorem State.koscTrim_steady {s0 : State} (count : Nat) {s : State} (h : Steady s0 s) :
    Steady s0 (State.koscTrim count s) := by
  unfold State.koscTrim
  repeat' first
    | with_reducible assumption | exact ⟨Nat.ne_of_beq_eq_false rfl, Nat.ne_of_beq_eq_false rfl⟩
    | exact Nat.le_of_ble_eq_true rfl | intro _ | with_reducible apply Steady.ite
    | with_reducible apply State.count_steady | with_reducible apply State.iff_steady
    | with_reducible apply State.modClk_steady | with_reducible apply State.raiseMs_steady
    | with_reducible apply State.setFld_steady | with_reducible apply State.setSFld_steady

theorem State.linkCameUp_steady {s0 : State} (l : Nat) {s : State} (h : Steady s0 s) :
    Steady s0 (State.linkCameUp l s) := by
  unfold State.linkCameUp
  repeat' first
    | with_reducible assumption | exact ⟨Nat.ne_of_beq_eq_false rfl, Nat.ne_of_beq_eq_false rfl⟩
    | exact Nat.le_of_ble_eq_true rfl | intro _ | with_reducible apply Steady.ite
    | with_reducible apply State.grantCredits_steady | with_reducible apply State.iff_steady
    | with_reducible apply State.modRel_steady | with_reducible apply State.raise_steady
    | with_reducible apply State.regionRelease_steady | with_reducible apply State.setFld_steady
    | with_reducible apply State.showKeystore_steady | with_reducible apply Steady.foldl | split
    | with_reducible apply Steady.id | dsimp only

theorem State.linkRetry_steady {s0 : State} (l : Nat) (ok : Bool) {s : State} (h : Steady s0 s) :
    Steady s0 (State.linkRetry l ok s) := by
  unfold State.linkRetry
  repeat' first
    | with_reducible assumption | intro _ | with_reducible apply Steady.ite | with_reducible apply State.count_steady
    | with_reducible apply State.d2dLast_steady | with_reducible apply State.iff_steady
    | with_reducible apply State.linkCameUp_steady | with_reducible apply State.raise_steady

theorem State.railsBack_steady {s0 : State} {s : State} (h : Steady s0 s) :
    Steady s0 (State.railsBack s) := by
  unfold State.railsBack
  repeat' first
    | with_reducible exact h | with_reducible apply State.announceRelease_steady
    | with_reducible apply State.modClk_steady | with_reducible apply State.settleAll_steady

theorem State.mainRailRelease_steady {s0 : State} {s : State} (h : Steady s0 s) :
    Steady s0 (State.mainRailRelease s) := by
  unfold State.mainRailRelease
  repeat' first
    | with_reducible assumption | intro _ | with_reducible apply Steady.ite | with_reducible apply State.modClk_steady
    | with_reducible apply State.railsBack_steady

theorem State.showRails_steady {s0 : State} (below : Nat → Bool) (bit : Nat) {s : State} (h : Steady s0 s) :
    Steady s0 (State.showRails below bit s) := by
  unfold State.showRails
  repeat' first
    | with_reducible assumption | intro _ | with_reducible apply Steady.ite | with_reducible apply State.setTf_steady
    | with_reducible apply Steady.foldl | split

theorem State.mainsFall_steady {s0 : State} {s : State} (h : Steady s0 s) :
    Steady s0 (State.mainsFall s) := by
  unfold State.mainsFall
  repeat' first
    | with_reducible exact h | exact ⟨Nat.ne_of_beq_eq_false rfl, Nat.ne_of_beq_eq_false rfl⟩
    | exact Nat.le_of_ble_eq_true rfl | with_reducible apply State.count_steady
    | with_reducible apply State.iff_steady | with_reducible apply State.modSup_steady
    | with_reducible apply State.raise_steady | with_reducible apply State.setFld_steady
    | with_reducible apply State.wakeLatch_steady

theorem State.mainsReturn_steady {s0 : State} {s : State} (h : Steady s0 s) :
    Steady s0 (State.mainsReturn s) := by
  unfold State.mainsReturn
  repeat' first
    | with_reducible assumption | intro _ | with_reducible apply Steady.ite | with_reducible apply State.count_steady
    | with_reducible apply State.modSup_steady | with_reducible apply State.raise_steady

theorem State.mainsStable_steady {s0 : State} {s : State} (h : Steady s0 s) :
    Steady s0 (State.mainsStable s) := by
  unfold State.mainsStable
  repeat' first
    | with_reducible assumption | exact ⟨Nat.ne_of_beq_eq_false rfl, Nat.ne_of_beq_eq_false rfl⟩
    | exact Nat.le_of_ble_eq_true rfl | intro _ | with_reducible apply Steady.ite
    | with_reducible apply State.count_steady | with_reducible apply State.modSup_steady
    | with_reducible apply State.onMains_steady | with_reducible apply State.raise_steady
    | with_reducible apply State.setFld_steady | with_reducible apply State.unshedRegion_steady
    | with_reducible apply State.wakeLatch_steady

theorem State.ofeInt_steady {s0 : State} (o : Ofe) (on : Bool) {s : State} (h : Steady s0 s) :
    Steady s0 (State.ofeInt o on s) := by
  unfold State.ofeInt
  repeat' first
    | with_reducible assumption | exact ⟨Nat.ne_of_beq_eq_false rfl, Nat.ne_of_beq_eq_false rfl⟩
    | exact Nat.le_of_ble_eq_true rfl | intro _ | with_reducible apply State.iff_steady
    | with_reducible apply State.raise_steady | with_reducible apply State.setFld_steady

theorem State.rxOfe_steady {s0 : State} (r : Rx) {s : State} (h : Steady s0 s) :
    Steady s0 (State.rxOfe r s) := by
  unfold State.rxOfe
  repeat' first
    | with_reducible assumption | intro _ | with_reducible apply Steady.ite
    | with_reducible apply State.clkLose_steady | with_reducible apply State.frmUnlocked_steady
    | with_reducible apply State.iff_steady | with_reducible apply State.lineDo_steady
    | with_reducible apply State.raise_steady | with_reducible apply State.rxBegin_steady
    | with_reducible apply State.rxStopFigures_steady

theorem State.txOfe_steady {s0 : State} (t : Tree) {s : State} (h : Steady s0 s) :
    Steady s0 (State.txOfe t s) := by
  unfold State.txOfe
  repeat' first | with_reducible exact h | with_reducible apply State.txBegin_steady

theorem State.ofePresent_steady {s0 : State} (o : Ofe) (present : Bool) {s : State} (h : Steady s0 s) :
    Steady s0 (State.ofePresent o present s) := by
  unfold State.ofePresent
  repeat' first
    | with_reducible assumption | exact ⟨Nat.ne_of_beq_eq_false rfl, Nat.ne_of_beq_eq_false rfl⟩
    | exact Nat.le_of_ble_eq_true rfl | intro _ | with_reducible apply Steady.ite
    | with_reducible apply State.rxOfe_steady | with_reducible apply State.setFld_steady
    | with_reducible apply State.txOfe_steady | with_reducible apply Steady.foldl | split

theorem State.pinShort_steady {s0 : State} (i : Nat) {s : State} (h : Steady s0 s) :
    Steady s0 (State.pinShort i s) := by
  unfold State.pinShort
  repeat' first
    | with_reducible assumption | intro _ | with_reducible apply Steady.ite | with_reducible apply State.count_steady
    | with_reducible apply State.iff_steady | with_reducible apply State.raise_steady
    | with_reducible apply State.setTf_steady | with_reducible apply State.showPins_steady

theorem State.psrcDebounce_steady {s0 : State} (main : Bool) (level : Bool) {s : State} (h : Steady s0 s) :
    Steady s0 (State.psrcDebounce main level s) := by
  unfold State.psrcDebounce
  repeat' first
    | with_reducible assumption | exact ⟨Nat.ne_of_beq_eq_false rfl, Nat.ne_of_beq_eq_false rfl⟩
    | exact Nat.le_of_ble_eq_true rfl | intro _ | with_reducible apply Steady.ite
    | with_reducible apply State.mainsFall_steady | with_reducible apply State.mainsReturn_steady
    | with_reducible apply State.setFld_steady | with_reducible apply Steady.foldl | split

theorem State.replanDaily_steady {s0 : State} (r : LehrReadings) {s : State} (h : Steady s0 s) :
    Steady s0 (State.replanDaily r s) := by
  unfold State.replanDaily
  repeat' first
    | with_reducible assumption | intro _ | with_reducible apply Steady.ite
    | with_reducible apply State.modLehr_steady | with_reducible apply State.replan_steady

theorem State.replanDeferred_steady {s0 : State} (r : LehrReadings) {s : State} (h : Steady s0 s) :
    Steady s0 (State.replanDeferred r s) := by
  unfold State.replanDeferred
  repeat' first
    | with_reducible assumption | exact ⟨Nat.ne_of_beq_eq_false rfl, Nat.ne_of_beq_eq_false rfl⟩
    | exact Nat.le_of_ble_eq_true rfl | intro _ | with_reducible apply Steady.ite
    | with_reducible apply State.replanStart_steady | with_reducible apply State.setFld_steady

theorem State.supplyClear_steady {s0 : State} {s : State} (h : Steady s0 s) :
    Steady s0 (State.supplyClear s) := by
  unfold State.supplyClear
  repeat' first
    | with_reducible assumption | exact ⟨Nat.ne_of_beq_eq_false rfl, Nat.ne_of_beq_eq_false rfl⟩
    | exact Nat.le_of_ble_eq_true rfl | intro _ | with_reducible apply Steady.ite
    | with_reducible apply State.setFld_steady | with_reducible apply State.setTf_steady
    | with_reducible apply Steady.foldl | split

theorem State.supplyWarning_steady {s0 : State} (rails : Nat) {s : State} (h : Steady s0 s) :
    Steady s0 (State.supplyWarning rails s) := by
  unfold State.supplyWarning
  repeat' first
    | with_reducible assumption | exact ⟨Nat.ne_of_beq_eq_false rfl, Nat.ne_of_beq_eq_false rfl⟩
    | exact Nat.le_of_ble_eq_true rfl | intro _ | with_reducible apply Steady.ite
    | with_reducible apply State.count_steady | with_reducible apply State.createNotice_steady
    | with_reducible apply State.puntyAbort_steady | with_reducible apply State.raise_steady
    | with_reducible apply State.raiseMs_steady | with_reducible apply State.setFld_steady
    | with_reducible apply State.showRails_steady | with_reducible apply State.wakeLatch_steady

theorem State.vkeepPowerUp_steady {s0 : State} (ramOk : Bool) {s : State} (h : Steady s0 s) :
    Steady s0 (State.vkeepPowerUp ramOk s) := by
  unfold State.vkeepPowerUp
  repeat' first
    | with_reducible assumption | exact ⟨Nat.ne_of_beq_eq_false rfl, Nat.ne_of_beq_eq_false rfl⟩
    | exact Nat.le_of_ble_eq_true rfl | intro _ | with_reducible apply Steady.ite
    | with_reducible apply State.emptyKeepRam_steady | with_reducible apply State.kstPowerUp_steady
    | with_reducible apply State.quarAgain_steady | with_reducible apply State.raise_steady
    | with_reducible apply State.setFld_steady

theorem State.vkeepWarn_steady {s0 : State} {s : State} (h : Steady s0 s) :
    Steady s0 (State.vkeepWarn s) := by
  unfold State.vkeepWarn
  repeat' first
    | with_reducible assumption | exact ⟨Nat.ne_of_beq_eq_false rfl, Nat.ne_of_beq_eq_false rfl⟩
    | exact Nat.le_of_ble_eq_true rfl | intro _ | with_reducible apply Steady.ite
    | with_reducible apply State.count_steady | with_reducible apply State.kstAbort_steady
    | with_reducible apply State.puntyAbort_steady | with_reducible apply State.raise_steady
    | with_reducible apply State.routeEvent_steady | with_reducible apply State.setFld_steady
    | with_reducible apply State.setTf_steady

theorem State.warmAccept_steady {s0 : State} (t : Tree) {s : State} (h : Steady s0 s) :
    Steady s0 (State.warmAccept t s) := by
  unfold State.warmAccept
  repeat' first
    | with_reducible exact h | exact ⟨Nat.ne_of_beq_eq_false rfl, Nat.ne_of_beq_eq_false rfl⟩
    | exact Nat.le_of_ble_eq_true rfl | with_reducible apply State.count_steady
    | with_reducible apply State.modActs_steady | with_reducible apply State.raise_steady
    | with_reducible apply State.setFld_steady | with_reducible apply State.setMode_steady
    | with_reducible apply State.tmcRequest_steady

theorem State.warmRefuse_steady {s0 : State} (t : Tree) (result : Nat) {s : State} (h : Steady s0 s) :
    Steady s0 (State.warmRefuse t result s) := by
  unfold State.warmRefuse
  repeat' first
    | with_reducible exact h | exact ⟨Nat.ne_of_beq_eq_false rfl, Nat.ne_of_beq_eq_false rfl⟩
    | exact Nat.le_of_ble_eq_true rfl | with_reducible apply State.count_steady
    | with_reducible apply State.forget_steady | with_reducible apply State.raise_steady
    | with_reducible apply State.setFld_steady

theorem State.warmCheck_steady {s0 : State} (t : Tree) (r : Rx) (c : Nat) (elapsed : Nat) (serials : List (Option
    (Bytes × Bytes))) {s : State} (h : Steady s0 s) :
       Steady s0 (State.warmCheck t r c elapsed serials s) := by
  unfold State.warmCheck
  repeat' first
    | with_reducible assumption | exact ⟨Nat.ne_of_beq_eq_false rfl, Nat.ne_of_beq_eq_false rfl⟩
    | exact Nat.le_of_ble_eq_true rfl | intro _ | with_reducible apply Steady.ite
    | with_reducible apply State.setSFld_steady | with_reducible apply State.warmAccept_steady
    | with_reducible apply State.warmRefuse_steady

theorem execSnapArm_steady {s0 : State} {s : State} (h : Steady s0 s) :
    ∀ out, execSnapArm s = .next out → Steady s0 out := by
  intro out e; cases e
  repeat' first
    | with_reducible exact h | with_reducible apply State.guarded_steady | with_reducible apply State.snapArm_steady

theorem execSnapCancel_steady {s0 : State} {s : State} (h : Steady s0 s) :
    ∀ out, execSnapCancel s = .next out → Steady s0 out := by
  intro out e; cases e
  repeat' first
    | with_reducible exact h | with_reducible apply State.guarded_steady
    | with_reducible apply State.snapCancel_steady

theorem execSnapArmNow_steady {s0 : State} {s : State} (h : Steady s0 s) :
    ∀ out, execSnapArmNow s = .next out → Steady s0 out := by
  intro out e; cases e
  repeat' first
    | with_reducible exact h | with_reducible apply State.guarded_steady
    | with_reducible apply State.snapArmNow_steady

theorem execSnapCtrlMulti_steady {s0 : State} (v : Word) {s : State} (h : Steady s0 s) :
    ∀ out, execSnapCtrlMulti v s = .next out → Steady s0 out := by
  intro out e; cases e
  repeat' first
    | with_reducible assumption | intro _ | with_reducible apply Steady.ite
    | with_reducible apply State.guarded_steady | with_reducible apply State.ignored_steady

theorem execSnapCapture_steady {s0 : State} {s : State} (h : Steady s0 s) :
    ∀ out, execSnapCapture s = .next out → Steady s0 out := by
  intro out e; cases e
  repeat' first
    | with_reducible assumption | intro _ | with_reducible apply State.iff_steady
    | with_reducible apply State.snapFire_steady

theorem execSnapLateFire_steady {s0 : State} {s : State} (h : Steady s0 s) :
    ∀ out, execSnapLateFire s = .next out → Steady s0 out := by
  intro out e; cases e
  repeat' first
    | with_reducible assumption | intro _ | with_reducible apply State.iff_steady
    | with_reducible apply State.snapFire_steady | with_reducible apply State.snapReach_steady

theorem execSnapUnitMissing_steady {s0 : State} (unit : Nat) {s : State} (h : Steady s0 s) :
    ∀ out, execSnapUnitMissing unit s = .next out → Steady s0 out := by
  intro out e; cases e
  repeat' first
    | with_reducible exact h | with_reducible apply State.iff_steady | with_reducible apply State.snapMissing_steady

theorem execSnapComplete_steady {s0 : State} {s : State} (h : Steady s0 s) :
    ∀ out, execSnapComplete s = .next out → Steady s0 out := by
  intro out e; cases e
  repeat' first
    | with_reducible exact h | with_reducible apply State.iff_steady | with_reducible apply State.snapComplete_steady

theorem execSigPresent_steady {s0 : State} (r : Rx) {s : State} (h : Steady s0 s) :
    ∀ out, execSigPresent r s = .next out → Steady s0 out := by
  intro out e; cases e
  repeat' first
    | with_reducible assumption | exact ⟨Nat.ne_of_beq_eq_false rfl, Nat.ne_of_beq_eq_false rfl⟩
    | exact Nat.le_of_ble_eq_true rfl | intro _ | with_reducible apply State.iff_steady
    | with_reducible apply State.modRxs_steady | with_reducible apply State.raise_steady
    | with_reducible apply State.setFld_steady | with_reducible apply State.startAcq_steady

theorem execSigLost_steady {s0 : State} (r : Rx) {s : State} (h : Steady s0 s) :
    ∀ out, execSigLost r s = .next out → Steady s0 out := by
  intro out e; cases e
  repeat' first
    | with_reducible assumption | exact ⟨Nat.ne_of_beq_eq_false rfl, Nat.ne_of_beq_eq_false rfl⟩
    | exact Nat.le_of_ble_eq_true rfl | intro _ | with_reducible apply State.clearFom_steady
    | with_reducible apply State.iff_steady | with_reducible apply State.modRxs_steady
    | with_reducible apply State.raise_steady | with_reducible apply State.rxLeave_steady
    | with_reducible apply State.setFld_steady

theorem execAcqPhaseComplete_steady {s0 : State} (r : Rx) (res : AcqResult) {s : State} (h : Steady s0 s) :
    ∀ out, execAcqPhaseComplete r res s = .next out → Steady s0 out := by
  intro out e; cases e
  repeat' first
    | with_reducible assumption | exact ⟨Nat.ne_of_beq_eq_false rfl, Nat.ne_of_beq_eq_false rfl⟩
    | exact Nat.le_of_ble_eq_true rfl | intro _ | with_reducible apply State.acqStore_steady
    | with_reducible apply State.clearFom_steady | with_reducible apply State.iff_steady
    | with_reducible apply State.modRxs_steady | with_reducible apply State.raise_steady
    | with_reducible apply State.setFld_steady

theorem execAcqTimeout_steady {s0 : State} (r : Rx) {s : State} (h : Steady s0 s) :
    ∀ out, execAcqTimeout r s = .next out → Steady s0 out := by
  intro out e; cases e
  repeat' first
    | with_reducible assumption | intro _ | with_reducible apply State.count_steady
    | with_reducible apply State.iff_steady | with_reducible apply State.raise_steady
    | with_reducible apply State.startAcq_steady

theorem execLockLost_steady {s0 : State} (r : Rx) {s : State} (h : Steady s0 s) :
    ∀ out, execLockLost r s = .next out → Steady s0 out := by
  intro out e; cases e
  repeat' first
    | with_reducible assumption | intro _ | with_reducible apply State.iff_steady
    | with_reducible apply State.raise_steady | with_reducible apply State.rxLeave_steady
    | with_reducible apply State.startAcq_steady

theorem execPhaseSlip_steady {s0 : State} (r : Rx) {s : State} (h : Steady s0 s) :
    ∀ out, execPhaseSlip r s = .next out → Steady s0 out := by
  intro out e; cases e
  repeat' first
    | with_reducible assumption | intro _ | with_reducible apply State.count_steady
    | with_reducible apply State.iff_steady | with_reducible apply State.raise_steady

theorem execCodewordDecode_steady {s0 : State} (r : Rx) (cw : RxCodeword) {s : State} (h : Steady s0 s) :
    ∀ out, execCodewordDecode r cw s = .next out → Steady s0 out := by
  intro out e; cases e
  repeat' first
    | with_reducible assumption | intro _ | with_reducible apply Steady.ite
    | with_reducible apply State.applyMaxIter_steady | with_reducible apply State.count_steady
    | with_reducible apply State.countBy_steady | with_reducible apply State.iff_steady
    | with_reducible apply State.modRxs_steady | with_reducible apply State.noteCodeword_steady
    | with_reducible apply State.raiseMs_steady

theorem execFomWindowEnd_steady {s0 : State} (r : Rx) (fom : Nat) {s : State} (h : Steady s0 s) :
    ∀ out, execFomWindowEnd r fom s = .next out → Steady s0 out := by
  intro out e; cases e
  repeat' first
    | with_reducible assumption | intro _ | with_reducible apply State.applyMaxIter_steady
    | with_reducible apply State.fomWindow_steady | with_reducible apply State.iff_steady

theorem execRxLaneAdapt_steady {s0 : State} (r : Rx) (lane : Nat) (skew : Bool) (value : Nat) {s : State} (h :
    Steady s0 s) :
       ∀ out, execRxLaneAdapt r lane skew value s = .next out → Steady s0 out := by
  intro out e; cases e
  repeat' first
    | with_reducible assumption | intro _ | with_reducible apply State.iff_steady
    | with_reducible apply State.modRxs_steady

theorem execTxPrepAssert_steady {s0 : State} (t : Tree) {s : State} (h : Steady s0 s) :
    ∀ out, execTxPrepAssert t s = .next out → Steady s0 out := by
  intro out e; cases e
  repeat' first
    | with_reducible exact h | with_reducible apply State.drivePrep_steady | with_reducible apply State.iff_steady

theorem execTxGateAssert_steady {s0 : State} (t : Tree) {s : State} (h : Steady s0 s) :
    ∀ out, execTxGateAssert t s = .next out → Steady s0 out := by
  intro out e; cases e
  repeat' first
    | with_reducible exact h | with_reducible apply State.driveGate_steady | with_reducible apply State.iff_steady

theorem execBurstStart_steady {s0 : State} (t : Tree) {s : State} (h : Steady s0 s) :
    ∀ out, execBurstStart t s = .next out → Steady s0 out := by
  intro out e; cases e
  repeat' first
    | with_reducible assumption | intro _ | with_reducible apply Steady.ite
    | with_reducible apply State.burstBegin_steady | with_reducible apply Steady.foldl | split

theorem execTxGateDeassert_steady {s0 : State} (t : Tree) {s : State} (h : Steady s0 s) :
    ∀ out, execTxGateDeassert t s = .next out → Steady s0 out := by
  intro out e; cases e
  repeat' first
    | with_reducible exact h | with_reducible apply State.driveGate_steady | with_reducible apply State.iff_steady

theorem execBurstEnd_steady {s0 : State} (t : Tree) {s : State} (h : Steady s0 s) :
    ∀ out, execBurstEnd t s = .next out → Steady s0 out := by
  intro out e; cases e
  repeat' first
    | with_reducible assumption | intro _ | with_reducible apply Steady.ite
    | with_reducible apply State.betweenBursts_steady | with_reducible apply State.count_steady
    | with_reducible apply State.countBy_steady | with_reducible apply State.emit_steady
    | with_reducible apply State.modTxs_steady | with_reducible apply State.pruneWindows_steady
    | with_reducible apply State.removeGrant_steady | with_reducible apply State.sendContent_steady
    | with_reducible apply State.tmcSent_steady | with_reducible apply Steady.foldl | split
    | with_reducible apply Steady.id | dsimp only

theorem execTxPrepDeassert_steady {s0 : State} (t : Tree) {s : State} (h : Steady s0 s) :
    ∀ out, execTxPrepDeassert t s = .next out → Steady s0 out := by
  intro out e; cases e
  repeat' first
    | with_reducible exact h | with_reducible apply State.drivePrep_steady | with_reducible apply State.iff_steady

theorem execTxClockMissing_steady {s0 : State} (t : Tree) {s : State} (h : Steady s0 s) :
    ∀ out, execTxClockMissing t s = .next out → Steady s0 out := by
  intro out e; cases e
  repeat' first | with_reducible exact h | with_reducible apply State.clockForce_steady

theorem execForceRelease_steady {s0 : State} (t : Tree) {s : State} (h : Steady s0 s) :
    ∀ out, execForceRelease t s = .next out → Steady s0 out := by
  intro out e; cases e
  repeat' first
    | with_reducible exact h | with_reducible apply State.forceRelease_steady
    | with_reducible apply State.guarded_steady

theorem execRoguePowerPoll_steady {s0 : State} (t : Tree) (dbm10 : Int) {s : State} (h : Steady s0 s) :
    ∀ out, execRoguePowerPoll t dbm10 s = .next out → Steady s0 out := by
  intro out e; cases e
  repeat' first
    | with_reducible assumption | intro _ | with_reducible apply Steady.ite | with_reducible apply State.modTxs_steady
    | with_reducible apply State.rogueEvent_steady

theorem execRogueEvent_steady {s0 : State} (t : Tree) (sign : RogueSign) {s : State} (h : Steady s0 s) :
    ∀ out, execRogueEvent t sign s = .next out → Steady s0 out := by
  intro out e; cases e
  repeat' first
    | with_reducible assumption | exact ⟨Nat.ne_of_beq_eq_false rfl, Nat.ne_of_beq_eq_false rfl⟩
    | exact Nat.le_of_ble_eq_true rfl | intro _ | with_reducible apply Steady.ite
    | with_reducible apply State.rogueEvent_steady | with_reducible apply State.setFld_steady
    | with_reducible apply Steady.foldl | split

theorem execOfeI2cDone_steady {s0 : State} (o : Ofe) (ack : Bool) (rdata : Nat) {s : State} (h : Steady s0 s) :
    ∀ out, execOfeI2cDone o ack rdata s = .next out → Steady s0 out := by
  intro out e; cases e
  repeat' first
    | with_reducible assumption | exact ⟨Nat.ne_of_beq_eq_false rfl, Nat.ne_of_beq_eq_false rfl⟩
    | exact Nat.le_of_ble_eq_true rfl | intro _ | with_reducible apply Steady.ite
    | with_reducible apply State.iff_steady | with_reducible apply State.raise_steady
    | with_reducible apply State.setFld_steady

theorem execOfeI2cTimeout_steady {s0 : State} (o : Ofe) {s : State} (h : Steady s0 s) :
    ∀ out, execOfeI2cTimeout o s = .next out → Steady s0 out := by
  intro out e; cases e
  repeat' first
    | with_reducible assumption | exact ⟨Nat.ne_of_beq_eq_false rfl, Nat.ne_of_beq_eq_false rfl⟩
    | exact Nat.le_of_ble_eq_true rfl | intro _ | with_reducible apply State.iff_steady
    | with_reducible apply State.raise_steady | with_reducible apply State.setFld_steady

theorem execOfeInt_steady {s0 : State} (o : Ofe) (on : Bool) {s : State} (h : Steady s0 s) :
    ∀ out, execOfeInt o on s = .next out → Steady s0 out := by
  intro out e; cases e
  repeat' first
    | with_reducible assumption | intro _ | with_reducible apply State.iff_steady
    | with_reducible apply State.ofeInt_steady

theorem execOfePresentChange_steady {s0 : State} (o : Ofe) (present : Bool) {s : State} (h : Steady s0 s) :
    ∀ out, execOfePresentChange o present s = .next out → Steady s0 out := by
  intro out e; cases e
  repeat' first
    | with_reducible assumption | intro _ | with_reducible apply Steady.ite | with_reducible apply State.iff_steady
    | with_reducible apply State.ofePresent_steady | with_reducible apply Steady.foldl | split

theorem execListeningEntry_steady {s0 : State} (t : Tree) {s : State} (h : Steady s0 s) :
    ∀ out, execListeningEntry t s = .next out → Steady s0 out := by
  intro out e; cases e
  repeat' first
    | with_reducible exact h | with_reducible apply State.iff_steady | with_reducible apply State.setMode_steady

theorem execActModeWrite_steady {s0 : State} (t : Tree) (acc : Access) {s : State} (h : Steady s0 s) :
    ∀ out, execActModeWrite t acc s = .next out → Steady s0 out := by
  intro out e; cases e
  repeat' first
    | with_reducible assumption | intro _ | with_reducible apply Steady.ite
    | with_reducible apply State.guarded_steady | with_reducible apply State.hostMode_steady
    | with_reducible apply Steady.foldl | split

theorem execReleaseQuarantine_steady {s0 : State} (t : Tree) {s : State} (h : Steady s0 s) :
    ∀ out, execReleaseQuarantine t s = .next out → Steady s0 out := by
  intro out e; cases e
  repeat' first
    | with_reducible exact h | with_reducible apply State.guarded_steady
    | with_reducible apply State.releaseQuarantine_steady

theorem execActDeactivateCmd_steady {s0 : State} (t : Tree) {s : State} (h : Steady s0 s) :
    ∀ out, execActDeactivateCmd t s = .next out → Steady s0 out := by
  intro out e; cases e
  repeat' first
    | with_reducible exact h | with_reducible apply State.guarded_steady
    | with_reducible apply State.hostDeactivate_steady

theorem execHailTimeout_steady {s0 : State} (t : Tree) {s : State} (h : Steady s0 s) :
    ∀ out, execHailTimeout t s = .next out → Steady s0 out := by
  intro out e; cases e
  repeat' first
    | with_reducible exact h | with_reducible apply State.iff_steady | with_reducible apply State.setMode_steady

theorem execRangeTimeout_steady {s0 : State} (t : Tree) {s : State} (h : Steady s0 s) :
    ∀ out, execRangeTimeout t s = .next out → Steady s0 out := by
  intro out e; cases e
  repeat' first
    | with_reducible exact h | with_reducible apply State.iff_steady | with_reducible apply State.setMode_steady

theorem execWarmReturn_steady {s0 : State} (t : Tree) (counter : Nat) (elapsedFrames : Nat) (serials : List (Option
    (Bytes × Bytes))) {s : State} (h : Steady s0 s) :
       ∀ out, execWarmReturn t counter elapsedFrames serials s = .next out → Steady s0 out := by
  intro out e; cases e
  repeat' first
    | with_reducible assumption | intro _ | with_reducible apply Steady.ite | with_reducible apply State.iff_steady
    | with_reducible apply State.warmCheck_steady | with_reducible apply Steady.foldl | split

theorem execWarmWindowExpire_steady {s0 : State} (t : Tree) {s : State} (h : Steady s0 s) :
    ∀ out, execWarmWindowExpire t s = .next out → Steady s0 out := by
  intro out e; cases e
  repeat' first
    | with_reducible assumption | exact ⟨Nat.ne_of_beq_eq_false rfl, Nat.ne_of_beq_eq_false rfl⟩
    | exact Nat.le_of_ble_eq_true rfl | intro _ | with_reducible apply State.count_steady
    | with_reducible apply State.forget_steady | with_reducible apply State.iff_steady
    | with_reducible apply State.setFld_steady

theorem execEqdApply_steady {s0 : State} (t : Tree) {s : State} (h : Steady s0 s) :
    ∀ out, execEqdApply t s = .next out → Steady s0 out := by
  intro out e; cases e
  repeat' first
    | with_reducible exact h | with_reducible apply State.applyEqd_steady | with_reducible apply State.iff_steady

theorem execMaxParkExpire_steady {s0 : State} (t : Tree) {s : State} (h : Steady s0 s) :
    ∀ out, execMaxParkExpire t s = .next out → Steady s0 out := by
  intro out e; cases e
  repeat' first
    | with_reducible exact h | with_reducible apply State.iff_steady | with_reducible apply State.setMode_steady

theorem execGaspWaitExpire_steady {s0 : State} (t : Tree) {s : State} (h : Steady s0 s) :
    ∀ out, execGaspWaitExpire t s = .next out → Steady s0 out := by
  intro out e; cases e
  repeat' first | with_reducible exact h | with_reducible apply State.gaspWait_steady

theorem execNoticeRetry_steady {s0 : State} (t : Tree) {s : State} (h : Steady s0 s) :
    ∀ out, execNoticeRetry t s = .next out → Steady s0 out := by
  intro out e; cases e
  repeat' first | with_reducible exact h | with_reducible apply State.noticeRetry_steady

theorem execTmcResponseExpire_steady {s0 : State} (t : Tree) (slot : Nat) {s : State} (h : Steady s0 s) :
    ∀ out, execTmcResponseExpire t slot s = .next out → Steady s0 out := by
  intro out e; cases e
  repeat' first
    | with_reducible assumption | intro _ | with_reducible apply State.count_steady
    | with_reducible apply State.iff_steady | with_reducible apply State.setTmcState_steady

theorem execAnFailed_steady {s0 : State} (port : Nat) {s : State} (h : Steady s0 s) :
    ∀ out, execAnFailed port s = .next out → Steady s0 out := by
  intro out e; cases e
  repeat' first
    | with_reducible assumption | intro _ | with_reducible apply State.anBegin_steady
    | with_reducible apply State.iff_steady | with_reducible apply State.raise_steady

theorem execCdrLock_steady {s0 : State} (lane : Nat) {s : State} (h : Steady s0 s) :
    ∀ out, execCdrLock lane s = .next out → Steady s0 out := by
  intro out e; cases e
  repeat' first
    | with_reducible exact h | with_reducible apply State.iff_steady | with_reducible apply State.setCdr_steady

theorem execCdrLockLost_steady {s0 : State} (lane : Nat) {s : State} (h : Steady s0 s) :
    ∀ out, execCdrLockLost lane s = .next out → Steady s0 out := by
  intro out e; cases e
  repeat' first
    | with_reducible assumption | intro _ | with_reducible apply State.iff_steady
    | with_reducible apply State.raiseMs_steady | with_reducible apply State.setCdr_steady

theorem execLinkUp_steady {s0 : State} (port : Nat) (up : LinkUpInfo) {s : State} (h : Steady s0 s) :
    ∀ out, execLinkUp port up s = .next out → Steady s0 out := by
  intro out e; cases e
  repeat' first | with_reducible exact h | with_reducible apply State.linkRise_steady

theorem execLinkDown_steady {s0 : State} (port : Nat) {s : State} (h : Steady s0 s) :
    ∀ out, execLinkDown port s = .next out → Steady s0 out := by
  intro out e; cases e
  repeat' first
    | with_reducible assumption | intro _ | with_reducible apply State.iff_steady
    | with_reducible apply State.linkFall_steady | with_reducible apply State.setFault_steady

theorem execLaneFomWindow_steady {s0 : State} (lane : Nat) (fom : Nat) {s : State} (h : Steady s0 s) :
    ∀ out, execLaneFomWindow lane fom s = .next out → Steady s0 out := by
  intro out e; cases e
  repeat' first
    | with_reducible exact h | with_reducible apply State.iff_steady | with_reducible apply State.laneFom_steady

theorem execLaneAdapt_steady {s0 : State} (lane : Nat) {s : State} (h : Steady s0 s) :
    ∀ out, execLaneAdapt lane s = .next out → Steady s0 out := by
  intro out e; cases e
  repeat' first | with_reducible exact h | with_reducible apply State.laneAdapt_steady

theorem execPrbsLock_steady {s0 : State} (lane : Nat) (levels : List Int) {s : State} (h : Steady s0 s) :
    ∀ out, execPrbsLock lane levels s = .next out → Steady s0 out := by
  intro out e; cases e
  repeat' first | with_reducible assumption | intro _ | with_reducible apply State.prbsSee_steady

theorem execPrbsLockLost_steady {s0 : State} (lane : Nat) (levels : List Int) {s : State} (h : Steady s0 s) :
    ∀ out, execPrbsLockLost lane levels s = .next out → Steady s0 out := by
  intro out e; cases e
  repeat' first
    | with_reducible assumption | intro _ | with_reducible apply State.iff_steady
    | with_reducible apply State.prbsCheck_steady

theorem execPrbsInvert_steady {s0 : State} (lane : Nat) {s : State} (h : Steady s0 s) :
    ∀ out, execPrbsInvert lane s = .next out → Steady s0 out := by
  intro out e; cases e
  repeat' first
    | with_reducible assumption | intro _ | with_reducible apply State.iff_steady
    | with_reducible apply State.setTf_steady

theorem execLaneInject_steady {s0 : State} (lane : Nat) {s : State} (h : Steady s0 s) :
    ∀ out, execLaneInject lane s = .next out → Steady s0 out := by
  intro out e; cases e
  repeat' first
    | with_reducible exact h | with_reducible apply State.guarded_steady
    | with_reducible apply State.laneInject_steady

theorem execLaneInjectPeriodic_steady {s0 : State} (lane : Nat) {s : State} (h : Steady s0 s) :
    ∀ out, execLaneInjectPeriodic lane s = .next out → Steady s0 out := by
  intro out e; cases e
  repeat' first
    | with_reducible assumption | intro _ | with_reducible apply State.emitError_steady
    | with_reducible apply State.iff_steady

theorem execUniFrameReceive_steady {s0 : State} (port : Nat) (bytes : Bytes) (fcsErr : Bool) (corrected : Nat)
    (uncorrectable : Nat) {s : State} (h : Steady s0 s) :
       ∀ out, execUniFrameReceive port bytes fcsErr corrected uncorrectable s = .next out → Steady s0 out := by
  intro out e; cases e
  repeat' first
    | with_reducible exact h | with_reducible apply State.iff_steady | with_reducible apply State.uniReceive_steady

theorem execPauseReceive_steady {s0 : State} (port : Nat) (bytes : Bytes) {s : State} (h : Steady s0 s) :
    ∀ out, execPauseReceive port bytes s = .next out → Steady s0 out := by
  intro out e; cases e
  repeat' first
    | with_reducible assumption | intro _ | with_reducible apply Steady.ite | with_reducible apply State.count_steady
    | with_reducible apply State.macControl_steady

theorem execPauseExpire_steady {s0 : State} (port : Nat) (prio : Nat) {s : State} (h : Steady s0 s) :
    ∀ out, execPauseExpire port prio s = .next out → Steady s0 out := by
  intro out e; cases e
  repeat' first | with_reducible exact h | with_reducible apply State.pauseEnd_steady

theorem execPfcRefresh_steady {s0 : State} (port : Nat) (prio : Nat) {s : State} (h : Steady s0 s) :
    ∀ out, execPfcRefresh port prio s = .next out → Steady s0 out := by
  intro out e; cases e
  repeat' first | with_reducible exact h | with_reducible apply State.xoffAgain_steady

theorem execLpiEnter_steady {s0 : State} (port : Nat) {s : State} (h : Steady s0 s) :
    ∀ out, execLpiEnter port s = .next out → Steady s0 out := by
  intro out e; cases e
  repeat' first | with_reducible exact h | with_reducible apply State.lpiEnter_steady

theorem execLpiExit_steady {s0 : State} (port : Nat) {s : State} (h : Steady s0 s) :
    ∀ out, execLpiExit port s = .next out → Steady s0 out := by
  intro out e; cases e
  repeat' first
    | with_reducible exact h | exact ⟨Nat.ne_of_beq_eq_false rfl, Nat.ne_of_beq_eq_false rfl⟩
    | exact Nat.le_of_ble_eq_true rfl | with_reducible apply State.setPf_steady

theorem execRemoteFault_steady {s0 : State} (port : Nat) (on : Bool) {s : State} (h : Steady s0 s) :
    ∀ out, execRemoteFault port on s = .next out → Steady s0 out := by
  intro out e; cases e
  repeat' first
    | with_reducible exact h | exact ⟨Nat.ne_of_beq_eq_false rfl, Nat.ne_of_beq_eq_false rfl⟩
    | exact Nat.le_of_ble_eq_true rfl | with_reducible apply State.setPf_steady

theorem execLpiRx_steady {s0 : State} (port : Nat) (on : Bool) {s : State} (h : Steady s0 s) :
    ∀ out, execLpiRx port on s = .next out → Steady s0 out := by
  intro out e; cases e
  repeat' first
    | with_reducible exact h | exact ⟨Nat.ne_of_beq_eq_false rfl, Nat.ne_of_beq_eq_false rfl⟩
    | exact Nat.le_of_ble_eq_true rfl | with_reducible apply State.count_steady
    | with_reducible apply State.iff_steady | with_reducible apply State.setPf_steady

end Sys2Proof.Machine
end

