-- ==== Sys2Proof/Laws/SteadyAccess.lean ====
section
/-! SUPPORT. What leaves every PAGE_CTRL and every standing pennant bit (Laws/Steady.lean): register and window accesses and their commands. -/

namespace Sys2Proof.Machine

theorem State.eachBit_steady {s0 : State} (a1 : Word) {a2 : List (Nat × (State → State))} {s : State} (h : Steady s0 s)
    (h2 : AllSteady s0 a2) : Steady s0 (State.eachBit a1 a2 s) := by
  unfold State.eachBit
  induction a2 generalizing s with
  | nil => exact h
  | cons x l ih => exact ih (State.iff_steady _ h h2.1) h2.2

theorem State.cfgClear_steady {s0 : State} (p : Nat) {s : State} (h : Steady s0 s) :
    Steady s0 (State.cfgClear p s) := by
  unfold State.cfgClear
  repeat' first
    | with_reducible exact h | exact ⟨Nat.ne_of_beq_eq_false rfl, Nat.ne_of_beq_eq_false rfl⟩
    | exact Nat.le_of_ble_eq_true rfl | with_reducible apply State.setFld_steady

theorem State.tripleClear_steady {s0 : State} (p : Nat) {s : State} (h : Steady s0 s) :
    Steady s0 (State.tripleClear p s) := by
  unfold State.tripleClear
  repeat' first
    | with_reducible exact h | exact ⟨Nat.ne_of_beq_eq_false rfl, Nat.ne_of_beq_eq_false rfl⟩
    | exact Nat.le_of_ble_eq_true rfl | with_reducible apply State.setFld_steady

theorem State.darkClear_steady {s0 : State} {s : State} (h : Steady s0 s) :
    Steady s0 (State.darkClear s) := by
  unfold State.darkClear
  repeat' first
    | with_reducible exact h | exact ⟨Nat.ne_of_beq_eq_false rfl, Nat.ne_of_beq_eq_false rfl⟩
    | exact Nat.le_of_ble_eq_true rfl | with_reducible apply State.setFld_steady

theorem State.commitDma_steady {s0 : State} (e : Nat) (ws : List Word) {s : State} (h : Steady s0 s) :
    Steady s0 (State.commitDma e ws s) := by
  unfold State.commitDma
  repeat' first
    | with_reducible assumption | intro _ | with_reducible apply Steady.ite | with_reducible apply State.iff_steady
    | with_reducible apply State.ignored_steady | with_reducible apply State.putEntry_steady
    | with_reducible apply State.raise_steady | with_reducible apply State.setTf_steady

theorem State.putMasked_steady {s0 : State} (b : Blk) (p : Nat) (t : Nat) (e : Nat) (ws : List Word) {s : State} (h
    : Steady s0 s) :
       Steady s0 (State.putMasked b p t e ws s) := by
  unfold State.putMasked
  repeat' first | with_reducible exact h | with_reducible apply State.putEntry_steady

theorem State.commitPol_steady {s0 : State} (e : Nat) (ws : List Word) {s : State} (h : Steady s0 s) :
    Steady s0 (State.commitPol e ws s) := by
  unfold State.commitPol
  repeat' first
    | with_reducible assumption | exact ⟨Nat.ne_of_beq_eq_false rfl, Nat.ne_of_beq_eq_false rfl⟩
    | exact Nat.le_of_ble_eq_true rfl | intro _ | with_reducible apply Steady.ite
    | with_reducible apply State.countBy_steady | with_reducible apply State.iff_steady
    | with_reducible apply State.modPol_steady | with_reducible apply State.polUpdate_steady
    | with_reducible apply State.putMasked_steady | with_reducible apply State.putTw_steady
    | with_reducible apply State.setFld_steady

theorem State.commitLsec_steady {s0 : State} (t : Nat) (e : Nat) (ws : List Word) {s : State} (h : Steady s0 s) :
    Steady s0 (State.commitLsec t e ws s) := by
  unfold State.commitLsec
  repeat' first
    | with_reducible assumption | exact ⟨Nat.ne_of_beq_eq_false rfl, Nat.ne_of_beq_eq_false rfl⟩
    | exact Nat.le_of_ble_eq_true rfl | intro _ | with_reducible apply Steady.ite
    | with_reducible apply State.clearPn_steady | with_reducible apply State.freeLast_steady
    | with_reducible apply State.iff_steady | with_reducible apply State.modRel_steady
    | with_reducible apply State.putMasked_steady | with_reducible apply State.putTw_steady
    | with_reducible apply State.setCtxGcm_steady | with_reducible apply State.setFld_steady
    | with_reducible apply State.setSelector_steady | with_reducible apply State.setTf_steady
    | with_reducible apply State.showPn_steady

theorem State.commitUniq_steady {s0 : State} (p : Nat) (e : Nat) (ws : List Word) {s : State} (h : Steady s0 s) :
    Steady s0 (State.commitUniq p e ws s) := by
  unfold State.commitUniq
  repeat' first
    | with_reducible exact h | with_reducible apply State.iff_steady | with_reducible apply State.pfcEntry_steady
    | with_reducible apply State.putMasked_steady | with_reducible apply State.raise_steady

theorem State.commitLane_steady {s0 : State} (e : Nat) (ws : List Word) {s : State} (h : Steady s0 s) :
    Steady s0 (State.commitLane e ws s) := by
  unfold State.commitLane
  repeat' first
    | with_reducible assumption | intro _ | with_reducible apply Steady.ite
    | with_reducible apply State.genStart_steady | with_reducible apply State.iff_steady
    | with_reducible apply State.linkFall_steady | with_reducible apply State.modUni_steady
    | with_reducible apply State.putMasked_steady | with_reducible apply State.putTw_steady
    | with_reducible apply State.raise_steady | with_reducible apply State.setAdapting_steady
    | with_reducible apply State.setPrbs_steady | with_reducible apply State.setTf_steady
    | with_reducible apply Steady.foldl | split

theorem State.commitTsk_steady {s0 : State} (t : Nat) (e : Nat) (ws : List Word) {s : State} (h : Steady s0 s) :
    Steady s0 (State.commitTsk t e ws s) := by
  unfold State.commitTsk
  repeat' first
    | with_reducible assumption | intro _ | with_reducible apply Steady.ite
    | with_reducible apply State.flowJudge_steady | with_reducible apply State.judgeTask_steady
    | with_reducible apply State.modCore_steady | with_reducible apply State.modTsk_steady
    | with_reducible apply State.putMasked_steady | with_reducible apply Steady.foldl | split

theorem State.commitKeep_steady {s0 : State} (e : Nat) (v : Word) {s : State} (h : Steady s0 s) :
    Steady s0 (State.commitKeep e v s) := by
  unfold State.commitKeep
  repeat' first
    | with_reducible assumption | intro _ | with_reducible apply Steady.ite
    | with_reducible apply State.modKeep_steady | with_reducible apply State.putTw_steady
    | with_reducible apply Steady.foldl | split | with_reducible apply Steady.id | dsimp only

theorem State.commitEntry_steady {s0 : State} (w : Window) (p : Nat) (t : Nat) (e : Nat) (ws : List Word) {s :
    State} (h : Steady s0 s) :
       Steady s0 (State.commitEntry w p t e ws s) := by
  unfold State.commitEntry
  repeat' first
    | with_reducible assumption | intro _ | with_reducible apply Steady.ite
    | with_reducible apply State.commitDma_steady | with_reducible apply State.commitKeep_steady
    | with_reducible apply State.commitLane_steady | with_reducible apply State.commitLsec_steady
    | with_reducible apply State.commitPol_steady | with_reducible apply State.commitTsk_steady
    | with_reducible apply State.commitUniq_steady | with_reducible apply State.coreRingTail_steady
    | with_reducible apply State.iff_steady | with_reducible apply State.ignored_steady
    | with_reducible apply State.launchJudge_steady | with_reducible apply State.modSto_steady
    | with_reducible apply State.modUsch_steady | with_reducible apply State.noteChange_steady
    | with_reducible apply State.noteHalLevel_steady | with_reducible apply State.putEntry_steady
    | with_reducible apply State.putMasked_steady | with_reducible apply State.raise_steady
    | with_reducible apply State.segWrite_steady | with_reducible apply State.setStreamPolicy_steady
    | with_reducible apply State.tmcSubmit_steady | with_reducible apply Steady.foldl | split

theorem State.fnIgnored_steady {s0 : State} (f : Nat) {s : State} (h : Steady s0 s) :
    Steady s0 (State.fnIgnored f s) := by
  unfold State.fnIgnored
  repeat' first | with_reducible exact h | with_reducible apply State.modFn_steady

theorem State.modWin_steady {s0 : State} (w : Window) (p : Nat) (f : IndWin → IndWin) {s : State} (h : Steady s0 s) :
    Steady s0 (State.modWin w p f s) := by
  unfold State.modWin
  repeat' first | with_reducible exact h | with_reducible apply State.modWins_steady

theorem State.noteVote_steady {s0 : State} (p : Nat) (off : Nat) (majority : Bool) {s : State} (h : Steady s0 s) :
    Steady s0 (State.noteVote p off majority s) := by
  unfold State.noteVote
  repeat' first
    | with_reducible assumption | exact ⟨Nat.ne_of_beq_eq_false rfl, Nat.ne_of_beq_eq_false rfl⟩
    | exact Nat.le_of_ble_eq_true rfl | intro _ | with_reducible apply State.count_steady
    | with_reducible apply State.iff_steady | with_reducible apply State.raise_steady
    | with_reducible apply State.setFld_steady

theorem State.scrubSelector_steady {s0 : State} {s : State} (c : Nat) (h : Steady s0 s) :
    Steady s0 (State.scrubSelector s c) := by
  unfold State.scrubSelector
  repeat' first
    | with_reducible assumption | intro _ | with_reducible apply Steady.ite
    | with_reducible apply State.noteVote_steady | with_reducible apply State.setSelector_steady
    | with_reducible apply State.unitContain_steady | with_reducible apply State.useFree_steady

theorem State.winAdvance_steady {s0 : State} (w : Window) (p : Nat) (width : Nat) {s : State} (h : Steady s0 s) :
    Steady s0 (State.winAdvance w p width s) := by
  unfold State.winAdvance
  repeat' first
    | with_reducible assumption | exact ⟨Nat.ne_of_beq_eq_false rfl, Nat.ne_of_beq_eq_false rfl⟩
    | exact Nat.le_of_ble_eq_true rfl | intro _ | with_reducible apply Steady.ite
    | with_reducible apply State.setFld_steady

theorem State.indirectRead_steady {s0 : State} (w : Window) (p : Nat) {s : State} (h : Steady s0 s) :
    Steady s0 (State.indirectRead w p s) := by
  unfold State.indirectRead
  repeat' first
    | with_reducible assumption | intro _ | with_reducible apply Steady.ite
    | with_reducible apply State.darkAccess_steady | with_reducible apply State.iff_steady
    | with_reducible apply State.modFreeIx_steady | with_reducible apply State.modReadData_steady
    | with_reducible apply State.modWin_steady | with_reducible apply State.raise_steady
    | with_reducible apply State.scrubSelector_steady | with_reducible apply State.useFree_steady
    | with_reducible apply State.winAdvance_steady | with_reducible apply Steady.foldl | split

theorem State.indirectStage_steady {s0 : State} (w : Window) (p : Nat) (v : Word) {s : State} (h : Steady s0 s) :
    Steady s0 (State.indirectStage w p v s) := by
  unfold State.indirectStage
  repeat' first
    | with_reducible assumption | intro _ | with_reducible apply Steady.ite
    | with_reducible apply State.commitEntry_steady | with_reducible apply State.iff_steady
    | with_reducible apply State.ignored_steady | with_reducible apply State.modWin_steady
    | with_reducible apply State.raise_steady | with_reducible apply State.winAdvance_steady
    | with_reducible apply Steady.foldl | split

theorem State.indirectWrite_steady {s0 : State} (p : Nat) (acc : Access) {s : State} (h : Steady s0 s) :
    Steady s0 (State.indirectWrite p acc s) := by
  unfold State.indirectWrite
  repeat' first
    | with_reducible assumption | intro _ | with_reducible apply Steady.ite
    | with_reducible apply State.guarded_steady | with_reducible apply State.ignored_steady
    | with_reducible apply State.indirectStage_steady

theorem State.latchRead_steady {s0 : State} (value : Nat → Word) (p : Nat) (off : Nat) {s : State} (h : Steady s0 s) :
    Steady s0 (State.latchRead value p off s) := by
  unfold State.latchRead
  repeat' first
    | with_reducible assumption | exact fun _ => rfl | intro _ | with_reducible apply Steady.ite
    | with_reducible apply State.modReadData_steady | with_reducible apply State.modRf_steady
    | with_reducible apply Steady.foldl | split | (refine (?_ : Sparse.wf _ _ = true); assumption)
    | exact Sparse.wf_filter _ _ _ (by assumption) | exact Sparse.wf_put _ _ _ _ (by assumption)
    | (refine (?_ : _ < counterMod _); apply_assumption) | with_reducible apply Steady.id | dsimp only

theorem State.msixWrite_steady {s0 : State} (f : Nat) (v : Nat) (w : Nat) (x : Word) {s : State} (h : Steady s0 s) :
    Steady s0 (State.msixWrite f v w x s) := by
  unfold State.msixWrite
  repeat' first
    | with_reducible exact h | with_reducible apply State.iff_steady | with_reducible apply State.modHif_steady
    | with_reducible apply State.sendPending_steady

theorem State.windowRead_steady {s0 : State} (f : Nat) (off : Nat) {s : State} (h : Steady s0 s) :
    Steady s0 (State.windowRead f off s) := by
  unfold State.windowRead
  repeat' first
    | with_reducible assumption | intro _ | with_reducible apply Steady.ite
    | with_reducible apply State.latchRead_steady | with_reducible apply State.modReadData_steady
    | with_reducible apply State.useFree_steady

theorem execDarkPageAccess_steady {s0 : State} (page : Nat) (isWrite : Bool) {s : State} (h : Steady s0 s) :
    ∀ out, execDarkPageAccess page isWrite s = .next out → Steady s0 out := by
  intro out e; cases e
  repeat' first
    | with_reducible assumption | intro _ | with_reducible apply Steady.ite
    | with_reducible apply State.darkAccess_steady | with_reducible apply State.iff_steady
    | with_reducible apply State.modReadData_steady | with_reducible apply Steady.foldl | split

theorem execSysDarkAccessClear_steady {s0 : State} {s : State} (h : Steady s0 s) :
    ∀ out, execSysDarkAccessClear s = .next out → Steady s0 out := by
  intro out e; cases e
  repeat' first
    | with_reducible exact h | with_reducible apply State.darkClear_steady | with_reducible apply State.guarded_steady

theorem execCfgStatusClear_steady {s0 : State} (page : Nat) {s : State} (h : Steady s0 s) :
    ∀ out, execCfgStatusClear page s = .next out → Steady s0 out := by
  intro out e; cases e
  repeat' first
    | with_reducible assumption | intro _ | with_reducible apply State.cfgClear_steady
    | with_reducible apply State.guarded_steady | with_reducible apply State.iff_steady

theorem execTripleStatusClear_steady {s0 : State} (page : Nat) {s : State} (h : Steady s0 s) :
    ∀ out, execTripleStatusClear page s = .next out → Steady s0 out := by
  intro out e; cases e
  repeat' first
    | with_reducible assumption | intro _ | with_reducible apply State.guarded_steady
    | with_reducible apply State.iff_steady | with_reducible apply State.tripleClear_steady

theorem execPennantEvent_steady {s0 : State} (page : Nat) (bit : Nat) {s : State} (h : Steady s0 s) :
    ∀ out, execPennantEvent page bit s = .next out → Steady s0 out := by
  intro out e; cases e
  repeat' first
    | with_reducible exact h | with_reducible apply State.iff_steady | with_reducible apply State.raise_steady

theorem execPennantAdvance_steady {s0 : State} (page : Nat) {s : State} (h : Steady s0 s) :
    ∀ out, execPennantAdvance page s = .next out → Steady s0 out := by
  intro out e; cases e
  repeat' first
    | with_reducible exact h | with_reducible apply State.iff_steady
    | with_reducible apply State.pennantHoldEnd_steady

theorem execIndirectDataWrite_steady {s0 : State} (win : Window) (page : Nat) (v : Word) {s : State} (h : Steady s0
    s) :
       ∀ out, execIndirectDataWrite win page v s = .next out → Steady s0 out := by
  intro out e; cases e
  repeat' first
    | with_reducible exact h | with_reducible apply State.iff_steady | with_reducible apply State.indirectWrite_steady

theorem execIndirectDataRead_steady {s0 : State} (win : Window) (page : Nat) {s : State} (h : Steady s0 s) :
    ∀ out, execIndirectDataRead win page s = .next out → Steady s0 out := by
  intro out e; cases e
  repeat' first
    | with_reducible exact h | with_reducible apply State.iff_steady | with_reducible apply State.indirectRead_steady

end Sys2Proof.Machine
end

