-- ==== Sys2Proof/Laws/SteadyCommands.lean ====
section
/-! SUPPORT. What leaves every PAGE_CTRL and every standing pennant bit (Laws/Steady.lean): the commands of the remaining families. -/

namespace Sys2Proof.Machine

theorem State.acceptClaim_steady {s0 : State} (t : Tree) (x : TmcMsg) {s : State} (h : Steady s0 s) :
    Steady s0 (State.acceptClaim t x s).1 := by
  unfold State.acceptClaim
  repeat' first
    | with_reducible assumption | intro _ | with_reducible apply Steady.ite | with_reducible apply Steady.ite_fst
    | with_reducible apply State.clkJudge_steady | with_reducible apply State.count_steady
    | with_reducible apply State.dualJudge_steady | with_reducible apply State.putClaim_steady
    | with_reducible apply State.raise_steady

theorem State.adjust_steady {s0 : State} (t : Tree) (fc : Nat) (x : TmcMsg) {s : State} (h : Steady s0 s) :
    Steady s0 (State.adjust t fc x s).1 := by
  unfold State.adjust
  repeat' first
    | with_reducible assumption | exact ⟨Nat.ne_of_beq_eq_false rfl, Nat.ne_of_beq_eq_false rfl⟩
    | exact Nat.le_of_ble_eq_true rfl | intro _ | with_reducible apply Steady.ite
    | with_reducible apply Steady.ite_fst | with_reducible apply State.betweenBursts_steady
    | with_reducible apply State.iff_steady | with_reducible apply State.noteHalLevel_steady
    | with_reducible apply State.noteLaunch_steady | with_reducible apply State.reportFreq_steady
    | with_reducible apply State.setEqdPending_steady | with_reducible apply State.setSFld_steady
    | with_reducible apply Steady.foldl | split | with_reducible apply Steady.id | dsimp only

theorem State.refuseAlloc_steady {s0 : State} (t : Tree) (code : Nat) {s : State} (h : Steady s0 s) :
    Steady s0 (State.refuseAlloc t code s).1 := by
  unfold State.refuseAlloc
  repeat' first
    | with_reducible exact h | with_reducible apply State.count_steady | with_reducible apply State.raise_steady

theorem State.assignAlloc_steady {s0 : State} (a1 : Tree) (a2 : TmcMsg) {s : State} (h : Steady s0 s) :
    Steady s0 (State.assignAlloc a1 a2 s).1 := by
  unfold State.assignAlloc
  dsimp only
  split
  · exact State.refuseAlloc_steady _ _ h
  · split
    · exact Steady.ite_fst h (State.refuseAlloc_steady _ _ h)
    · split
      · exact State.refuseAlloc_steady _ _ h
      · exact Steady.ite_fst (State.refuseAlloc_steady _ _ h) (State.bindAlloc_steady _ _ _ _ _ _ h)

theorem State.controlFrame_steady {s0 : State} (r : Rx) {s : State} (h : Steady s0 s) :
    Steady s0 (State.controlFrame r s) := by
  unfold State.controlFrame
  repeat' first
    | with_reducible exact h | with_reducible apply State.frontFrame_steady | with_reducible apply State.iff_steady

theorem State.grantEntered_steady {s0 : State} (t : Tree) (i : Nat) {s : State} (h : Steady s0 s) :
    Steady s0 (State.grantEntered t i s) := by
  unfold State.grantEntered
  repeat' first
    | with_reducible exact h | with_reducible apply State.halGrantAccepted_steady
    | with_reducible apply State.modTxs_steady | with_reducible apply State.wakeDomain_steady

theorem State.handLine_steady {s0 : State} (r : Rx) (tenant : Nat) (service : Nat) (bytes : Bytes) (cells : List
    Nat) {s : State} (h : Steady s0 s) :
       Steady s0 (State.handLine r tenant service bytes cells s) := by
  unfold State.handLine
  repeat' first
    | with_reducible exact h | with_reducible apply State.modCls_steady | with_reducible apply State.modSto_steady
    | with_reducible apply State.returnCells_steady

theorem State.joinFragment_steady {s0 : State} (f : LineFrag) (pt : Option Bytes) {s : State} (h : Steady s0 s) :
    Steady s0 (State.joinFragment f pt s) := by
  unfold State.joinFragment
  repeat' first
    | with_reducible assumption | intro _ | with_reducible apply Steady.ite
    | with_reducible apply State.clearParts_steady | with_reducible apply State.dropPlain_steady
    | with_reducible apply State.freeLine_steady | with_reducible apply State.handLine_steady
    | with_reducible apply State.iff_steady | with_reducible apply State.modDual_steady
    | with_reducible apply State.returnCells_steady | with_reducible apply Steady.foldl | split

theorem State.keyConfirm_steady {s0 : State} (t : Tree) (fc : Nat) (x : TmcMsg) {s : State} (h : Steady s0 s) :
    Steady s0 (State.keyConfirm t fc x s).1 := by
  unfold State.keyConfirm
  repeat' first
    | with_reducible assumption | exact ⟨Nat.ne_of_beq_eq_false rfl, Nat.ne_of_beq_eq_false rfl⟩
    | exact Nat.le_of_ble_eq_true rfl | intro _ | with_reducible apply Steady.ite
    | with_reducible apply Steady.ite_fst | with_reducible apply State.modActs_steady
    | with_reducible apply State.putMgmtKey_steady | with_reducible apply State.setFld_steady
    | with_reducible apply Steady.foldl | split

theorem State.keyInit_steady {s0 : State} (t : Tree) (b : Bytes) {s : State} (h : Steady s0 s) :
    Steady s0 (State.keyInit t b s).1 := by
  unfold State.keyInit
  repeat' first
    | with_reducible assumption | intro _ | with_reducible apply Steady.ite | with_reducible apply Steady.ite_fst
    | with_reducible apply State.modActs_steady | with_reducible apply State.putMgmtKey_steady
    | with_reducible apply State.randomBytes_steady

theorem State.park_steady {s0 : State} (t : Tree) (x : TmcMsg) {s : State} (h : Steady s0 s) :
    Steady s0 (State.park t x s).1 := by
  unfold State.park
  repeat' first
    | with_reducible assumption | exact ⟨Nat.ne_of_beq_eq_false rfl, Nat.ne_of_beq_eq_false rfl⟩
    | exact Nat.le_of_ble_eq_true rfl | intro _ | with_reducible apply Steady.ite
    | with_reducible apply Steady.ite_fst | with_reducible apply State.setFld_steady
    | with_reducible apply State.setMode_steady

theorem State.protectTenant_steady {s0 : State} (n : Nat) (dup : Nat) (sel : Nat) {s : State} (h : Steady s0 s) :
    Steady s0 (State.protectTenant n dup sel s) := by
  unfold State.protectTenant
  repeat' first
    | with_reducible assumption | intro _ | with_reducible apply Steady.ite
    | with_reducible apply State.setStreamPolicy_steady | with_reducible apply Steady.foldl | split

theorem State.provision_steady {s0 : State} (t : Tree) (x : TmcMsg) {s : State} (h : Steady s0 s) :
    Steady s0 (State.provision t x s).1 := by
  unfold State.provision
  repeat' first
    | with_reducible assumption | intro _ | with_reducible apply Steady.ite | with_reducible apply Steady.ite_fst
    | with_reducible apply State.attachTenant_steady | with_reducible apply State.count_steady
    | with_reducible apply State.raise_steady | with_reducible apply Steady.foldl | split

theorem State.rangeConfirm_steady {s0 : State} (t : Tree) (fc : Nat) (x : TmcMsg) {s : State} (h : Steady s0 s) :
    Steady s0 (State.rangeConfirm t fc x s).1 := by
  unfold State.rangeConfirm
  repeat' first
    | with_reducible assumption | intro _ | with_reducible apply Steady.ite | with_reducible apply Steady.ite_fst
    | with_reducible apply State.betweenBursts_steady | with_reducible apply State.modActs_steady
    | with_reducible apply State.modTxs_steady | with_reducible apply State.reportFreq_steady
    | with_reducible apply State.setEqdPending_steady | with_reducible apply Steady.foldl | split
    | with_reducible apply Steady.id | dsimp only

theorem State.registerRecord_steady {s0 : State} (t : Tree) (term : Nat) (wl : Nat) (mgmt : Nat) {s : State} (h :
    Steady s0 s) :
       Steady s0 (State.registerRecord t term wl mgmt s) := by
  unfold State.registerRecord
  repeat' first | with_reducible exact h | with_reducible apply State.setRecord_steady

theorem State.register_steady {s0 : State} (t : Tree) (fc : Nat) (x : TmcMsg) {s : State} (h : Steady s0 s) :
    Steady s0 (State.register t fc x s).1 := by
  unfold State.register
  repeat' first
    | with_reducible assumption | exact ⟨Nat.ne_of_beq_eq_false rfl, Nat.ne_of_beq_eq_false rfl⟩
    | exact Nat.le_of_ble_eq_true rfl | intro _ | with_reducible apply Steady.ite
    | with_reducible apply Steady.ite_fst | with_reducible apply State.bindAlloc_steady
    | with_reducible apply State.count_steady | with_reducible apply State.raise_steady
    | with_reducible apply State.registerRecord_steady | with_reducible apply State.setEqdPending_steady
    | with_reducible apply State.setFld_steady | with_reducible apply State.setMode_steady
    | with_reducible apply Steady.foldl | split

theorem State.samplePins_steady {s0 : State} {s : State} (h : Steady s0 s) : Steady s0 (State.samplePins s).2 := by
  unfold State.samplePins
  exact Steady.foldl_snd (fun x _ hx => State.useFree_steady hx) _ h

theorem State.selectGrant_steady {s0 : State} (t : Tree) (i : Nat) {s : State} (h : Steady s0 s) :
    Steady s0 (State.selectGrant t i s) := by
  unfold State.selectGrant
  repeat' first
    | with_reducible assumption | intro _ | with_reducible apply Steady.ite | with_reducible apply State.count_steady
    | with_reducible apply State.iff_steady | with_reducible apply State.judgeLaunch_steady
    | with_reducible apply State.raiseMs_steady | with_reducible apply State.removeGrant_steady
    | with_reducible apply State.selectContent_steady | with_reducible apply State.suppressLate_steady
    | with_reducible apply Steady.foldl | split | with_reducible apply Steady.id | dsimp only

theorem State.sendConflict_steady {s0 : State} (t : Tree) {s : State} (h : Steady s0 s) :
    Steady s0 (State.sendConflict t s) := by
  unfold State.sendConflict
  repeat' first
    | with_reducible assumption | intro _ | with_reducible apply Steady.ite
    | with_reducible apply State.modActs_steady | with_reducible apply State.modDual_steady
    | with_reducible apply State.tmcRequest_steady | with_reducible apply Steady.foldl | split

theorem State.setTap_steady {s0 : State} (instr : Nat) (dr : Word) {s : State} (h : Steady s0 s) :
    Steady s0 (State.setTap instr dr s) := by
  unfold State.setTap
  repeat' first | with_reducible exact h | with_reducible apply State.modTap_steady

theorem State.tapRelease_steady {s0 : State} {s : State} (h : Steady s0 s) :
    Steady s0 (State.tapRelease s) := by
  unfold State.tapRelease
  repeat' first
    | with_reducible assumption | intro _ | with_reducible apply Steady.ite | with_reducible apply State.modClk_steady
    | with_reducible apply State.railsBack_steady

theorem State.tenantKey_steady {s0 : State} (t : Tree) (fc : Nat) (x : TmcMsg) {s : State} (h : Steady s0 s) :
    Steady s0 (State.tenantKey t fc x s).1 := by
  unfold State.tenantKey
  repeat' first
    | with_reducible assumption | intro _ | with_reducible apply Steady.ite | with_reducible apply Steady.ite_fst
    | with_reducible apply State.dropSlot_steady | with_reducible apply State.putEntry_steady
    | with_reducible apply Steady.foldl | split

theorem State.wakeFrame_steady {s0 : State} (r : Rx) {s : State} (h : Steady s0 s) :
    Steady s0 (State.wakeFrame r s) := by
  unfold State.wakeFrame
  repeat' first
    | with_reducible exact h | with_reducible apply State.iff_steady | with_reducible apply State.setMode_steady

theorem execAlignCodeword_steady {s0 : State} (r : Rx) (bits : List Bool) {s : State} (h : Steady s0 s) :
    ∀ out, execAlignCodeword r bits s = .next out → Steady s0 out := by
  intro out e; cases e
  repeat' first
    | with_reducible assumption | intro _ | with_reducible apply State.alignStep_steady
    | with_reducible apply State.iff_steady | with_reducible apply State.lineDo_steady

theorem execFrameHeader_steady {s0 : State} (r : Rx) {s : State} (h : Steady s0 s) :
    ∀ out, execFrameHeader r s = .next out → Steady s0 out := by
  intro out e; cases e
  repeat' first
    | with_reducible assumption | intro _ | with_reducible apply State.controlFrame_steady
    | with_reducible apply State.headerStep_steady | with_reducible apply State.iff_steady
    | with_reducible apply State.lineDo_steady | with_reducible apply State.wakeFrame_steady

theorem execGrantEntry_steady {s0 : State} (r : Rx) (bytes : Bytes) {s : State} (h : Steady s0 s) :
    ∀ out, execGrantEntry r bytes s = .next out → Steady s0 out := by
  intro out e; cases e
  repeat' first
    | with_reducible assumption | intro _ | with_reducible apply Steady.ite | with_reducible apply State.count_steady
    | with_reducible apply State.grantEntered_steady | with_reducible apply State.grantReceive_steady
    | with_reducible apply State.modFrms_steady | with_reducible apply State.raiseMs_steady
    | with_reducible apply Steady.foldl | split | (with_reducible refine Steady.of_fst ?_ (by assumption))
    | with_reducible apply Steady.id | dsimp only

theorem execFragmentHeader_steady {s0 : State} (r : Rx) (pos : Nat) (bytes : Bytes) {s : State} (h : Steady s0 s) :
    ∀ out, execFragmentHeader r pos bytes s = .next out → Steady s0 out := by
  intro out e; cases e
  repeat' first
    | with_reducible assumption | intro _ | with_reducible apply State.fragStep_steady
    | with_reducible apply State.iff_steady | with_reducible apply State.lineDo_steady

theorem execFragmentReceive_steady {s0 : State} (r : Rx) (payload : Bytes) {s : State} (h : Steady s0 s) :
    ∀ out, execFragmentReceive r payload s = .next out → Steady s0 out := by
  intro out e; cases e
  repeat' first
    | with_reducible assumption | intro _ | with_reducible apply Steady.ite
    | with_reducible apply State.fragReceive_steady | with_reducible apply State.noteTmc_steady
    | with_reducible apply State.receiveLine_steady | with_reducible apply State.tmcRing_steady
    | with_reducible apply Steady.foldl | split | (with_reducible refine Steady.of_fst ?_ (by assumption))
    | with_reducible apply Steady.id | dsimp only

theorem execLosClear_steady {s0 : State} (r : Rx) {s : State} (h : Steady s0 s) :
    ∀ out, execLosClear r s = .next out → Steady s0 out := by
  intro out e; cases e
  repeat' first
    | with_reducible assumption | exact ⟨Nat.ne_of_beq_eq_false rfl, Nat.ne_of_beq_eq_false rfl⟩
    | exact Nat.le_of_ble_eq_true rfl | intro _ | with_reducible apply State.iff_steady
    | with_reducible apply State.lineDo_steady | with_reducible apply State.modFrms_steady
    | with_reducible apply State.raise_steady | with_reducible apply State.setFld_steady

theorem execLofDeclare_steady {s0 : State} (r : Rx) {s : State} (h : Steady s0 s) :
    ∀ out, execLofDeclare r s = .next out → Steady s0 out := by
  intro out e; cases e
  repeat' first
    | with_reducible assumption | intro _ | with_reducible apply State.iff_steady
    | with_reducible apply State.lineDo_steady | with_reducible apply State.lofDeclare_steady

theorem execLofClear_steady {s0 : State} (r : Rx) {s : State} (h : Steady s0 s) :
    ∀ out, execLofClear r s = .next out → Steady s0 out := by
  intro out e; cases e
  repeat' first
    | with_reducible assumption | exact ⟨Nat.ne_of_beq_eq_false rfl, Nat.ne_of_beq_eq_false rfl⟩
    | exact Nat.le_of_ble_eq_true rfl | intro _ | with_reducible apply State.iff_steady
    | with_reducible apply State.lineDo_steady | with_reducible apply State.raise_steady
    | with_reducible apply State.setFld_steady

theorem execDefectWindowEnd_steady {s0 : State} (r : Rx) {s : State} (h : Steady s0 s) :
    ∀ out, execDefectWindowEnd r s = .next out → Steady s0 out := by
  intro out e; cases e
  repeat' first
    | with_reducible assumption | intro _ | with_reducible apply State.iff_steady
    | with_reducible apply State.lineDo_steady | with_reducible apply State.windowBoundary_steady

theorem execPmSecond_steady {s0 : State} (r : Rx) {s : State} (h : Steady s0 s) :
    ∀ out, execPmSecond r s = .next out → Steady s0 out := by
  intro out e; cases e
  repeat' first
    | with_reducible exact h | with_reducible apply State.iff_steady | with_reducible apply State.pmSecond_steady

theorem execPmBinEdge_steady {s0 : State} (day : Bool) {s : State} (h : Steady s0 s) :
    ∀ out, execPmBinEdge day s = .next out → Steady s0 out := by
  intro out e; cases e
  repeat' first
    | with_reducible exact h | with_reducible apply State.iff_steady | with_reducible apply State.pmBinEdge_steady

theorem execPmBinFinal_steady {s0 : State} (r : Rx) (day : Bool) (slot : Nat) {s : State} (h : Steady s0 s) :
    ∀ out, execPmBinFinal r day slot s = .next out → Steady s0 out := by
  intro out e; cases e
  repeat' first
    | with_reducible exact h | with_reducible apply State.iff_steady | with_reducible apply State.pmFinal_steady

theorem execRegister_steady {s0 : State} (t : Tree) (m : TmcIn) {s : State} (h : Steady s0 s) :
    ∀ out, execRegister t m s = .next out → Steady s0 out := by
  intro out e; cases e
  repeat' first
    | with_reducible assumption | intro _ | with_reducible apply State.register_steady
    | with_reducible apply State.tmcKind_steady

theorem execRangeConfirm_steady {s0 : State} (t : Tree) (m : TmcIn) {s : State} (h : Steady s0 s) :
    ∀ out, execRangeConfirm t m s = .next out → Steady s0 out := by
  intro out e; cases e
  repeat' first
    | with_reducible assumption | intro _ | with_reducible apply State.rangeConfirm_steady
    | with_reducible apply State.tmcKind_steady

theorem execAdjust_steady {s0 : State} (t : Tree) (m : TmcIn) {s : State} (h : Steady s0 s) :
    ∀ out, execAdjust t m s = .next out → Steady s0 out := by
  intro out e; cases e
  repeat' first
    | with_reducible assumption | intro _ | with_reducible apply State.adjust_steady
    | with_reducible apply State.tmcKind_steady

theorem execDeactivate_steady {s0 : State} (t : Tree) (m : TmcIn) {s : State} (h : Steady s0 s) :
    ∀ out, execDeactivate t m s = .next out → Steady s0 out := by
  intro out e; cases e
  repeat' first
    | with_reducible assumption | intro _ | with_reducible apply State.setMode_steady
    | with_reducible apply State.tmcKind_steady

theorem execDisable_steady {s0 : State} (t : Tree) (m : TmcIn) {s : State} (h : Steady s0 s) :
    ∀ out, execDisable t m s = .next out → Steady s0 out := by
  intro out e; cases e
  repeat' first
    | with_reducible assumption | intro _ | with_reducible apply Steady.ite
    | with_reducible apply State.quarantine_steady | with_reducible apply State.tmcKind_steady
    | with_reducible apply Steady.foldl | split

theorem execEnable_steady {s0 : State} (t : Tree) (m : TmcIn) {s : State} (h : Steady s0 s) :
    ∀ out, execEnable t m s = .next out → Steady s0 out := by
  intro out e; cases e
  repeat' first
    | with_reducible assumption | intro _ | with_reducible apply Steady.ite
    | with_reducible apply State.leaveQuarantine_steady | with_reducible apply State.tmcKind_steady
    | with_reducible apply Steady.foldl | split

theorem execPark_steady {s0 : State} (t : Tree) (m : TmcIn) {s : State} (h : Steady s0 s) :
    ∀ out, execPark t m s = .next out → Steady s0 out := by
  intro out e; cases e
  repeat' first
    | with_reducible exact h | with_reducible apply State.park_steady | with_reducible apply State.tmcKind_steady

theorem execStatusRequest_steady {s0 : State} (t : Tree) (m : TmcIn) {s : State} (h : Steady s0 s) :
    ∀ out, execStatusRequest t m s = .next out → Steady s0 out := by
  intro out e; cases e
  repeat' first | with_reducible assumption | intro _ | with_reducible apply State.tmcKind_steady

theorem execTenantProvision_steady {s0 : State} (t : Tree) (m : TmcIn) {s : State} (h : Steady s0 s) :
    ∀ out, execTenantProvision t m s = .next out → Steady s0 out := by
  intro out e; cases e
  repeat' first
    | with_reducible exact h | with_reducible apply State.provision_steady | with_reducible apply State.tmcKind_steady

theorem execTenantRemove_steady {s0 : State} (t : Tree) (m : TmcIn) {s : State} (h : Steady s0 s) :
    ∀ out, execTenantRemove t m s = .next out → Steady s0 out := by
  intro out e; cases e
  repeat' first
    | with_reducible assumption | intro _ | with_reducible apply Steady.ite
    | with_reducible apply State.detachTenant_steady | with_reducible apply State.tmcKind_steady
    | with_reducible apply Steady.foldl | split

theorem execAllocAssign_steady {s0 : State} (t : Tree) (m : TmcIn) {s : State} (h : Steady s0 s) :
    ∀ out, execAllocAssign t m s = .next out → Steady s0 out := by
  intro out e; cases e
  repeat' first
    | with_reducible exact h | with_reducible apply State.assignAlloc_steady
    | with_reducible apply State.tmcKind_steady

theorem execAllocRelease_steady {s0 : State} (t : Tree) (m : TmcIn) {s : State} (h : Steady s0 s) :
    ∀ out, execAllocRelease t m s = .next out → Steady s0 out := by
  intro out e; cases e
  repeat' first
    | with_reducible assumption | intro _ | with_reducible apply Steady.ite
    | with_reducible apply State.releaseAlloc_steady | with_reducible apply State.tmcKind_steady
    | with_reducible apply Steady.foldl | split

theorem execTmcUnknownType_steady {s0 : State} (t : Tree) (m : TmcIn) {s : State} (h : Steady s0 s) :
    ∀ out, execTmcUnknownType t m s = .next out → Steady s0 out := by
  intro out e; cases e
  repeat' first
    | with_reducible assumption | intro _ | with_reducible apply State.iff_steady
    | with_reducible apply State.tmcReceive_steady

theorem execTmcHeadEndResponse_steady {s0 : State} (t : Tree) (m : TmcIn) {s : State} (h : Steady s0 s) :
    ∀ out, execTmcHeadEndResponse t m s = .next out → Steady s0 out := by
  intro out e; cases e
  repeat' first
    | with_reducible assumption | intro _ | with_reducible apply Steady.ite
    | with_reducible apply State.ackNotice_steady | with_reducible apply State.count_steady
    | with_reducible apply State.iff_steady | with_reducible apply State.modActs_steady
    | with_reducible apply State.tmcTake_steady

theorem execPrimaryClaim_steady {s0 : State} (t : Tree) (m : TmcIn) {s : State} (h : Steady s0 s) :
    ∀ out, execPrimaryClaim t m s = .next out → Steady s0 out := by
  intro out e; cases e
  repeat' first
    | with_reducible exact h | with_reducible apply State.acceptClaim_steady
    | with_reducible apply State.tmcKind_steady

theorem execProtectSet_steady {s0 : State} (t : Tree) (m : TmcIn) {s : State} (h : Steady s0 s) :
    ∀ out, execProtectSet t m s = .next out → Steady s0 out := by
  intro out e; cases e
  repeat' first
    | with_reducible assumption | intro _ | with_reducible apply Steady.ite
    | with_reducible apply State.protectTenant_steady | with_reducible apply State.raise_steady
    | with_reducible apply State.tmcKind_steady | with_reducible apply Steady.foldl | split

theorem execKeyInit_steady {s0 : State} (t : Tree) (m : TmcIn) {s : State} (h : Steady s0 s) :
    ∀ out, execKeyInit t m s = .next out → Steady s0 out := by
  intro out e; cases e
  repeat' first
    | with_reducible assumption | intro _ | with_reducible apply State.keyInit_steady
    | with_reducible apply State.tmcKind_steady

theorem execKeyConfirm_steady {s0 : State} (t : Tree) (m : TmcIn) {s : State} (h : Steady s0 s) :
    ∀ out, execKeyConfirm t m s = .next out → Steady s0 out := by
  intro out e; cases e
  repeat' first
    | with_reducible assumption | intro _ | with_reducible apply State.keyConfirm_steady
    | with_reducible apply State.tmcKind_steady

theorem execTenantKey_steady {s0 : State} (t : Tree) (m : TmcIn) {s : State} (h : Steady s0 s) :
    ∀ out, execTenantKey t m s = .next out → Steady s0 out := by
  intro out e; cases e
  repeat' first
    | with_reducible assumption | intro _ | with_reducible apply State.tenantKey_steady
    | with_reducible apply State.tmcKind_steady

theorem execTimeBind_steady {s0 : State} (t : Tree) (m : TmcIn) {s : State} (h : Steady s0 s) :
    ∀ out, execTimeBind t m s = .next out → Steady s0 out := by
  intro out e; cases e
  repeat' first
    | with_reducible assumption | intro _ | with_reducible apply Steady.ite | with_reducible apply State.count_steady
    | with_reducible apply State.modFront_steady | with_reducible apply State.raise_steady
    | with_reducible apply State.tmcKind_steady | with_reducible apply Steady.foldl | split
    | with_reducible apply Steady.id | dsimp only

theorem execTimeQuality_steady {s0 : State} (t : Tree) (m : TmcIn) {s : State} (h : Steady s0 s) :
    ∀ out, execTimeQuality t m s = .next out → Steady s0 out := by
  intro out e; cases e
  repeat' first
    | with_reducible assumption | intro _ | with_reducible apply State.putEntry_steady
    | with_reducible apply State.tmcKind_steady

theorem execUpstreamNeed_steady {s0 : State} (t : Tree) {s : State} (h : Steady s0 s) :
    ∀ out, execUpstreamNeed t s = .next out → Steady s0 out := by
  intro out e; cases e
  repeat' first
    | with_reducible assumption | intro _ | with_reducible apply Steady.ite | with_reducible apply State.iff_steady
    | with_reducible apply State.raise_steady | with_reducible apply State.setMode_steady
    | with_reducible apply State.setNeed_steady | with_reducible apply State.wakeRequest_steady

theorem execMergeFragment_steady {s0 : State} (r : Rx) {s : State} (h : Steady s0 s) :
    ∀ out, execMergeFragment r s = .next out → Steady s0 out := by
  intro out e; cases e
  repeat' first
    | with_reducible assumption | intro _ | with_reducible apply Steady.ite | with_reducible apply State.count_steady
    | with_reducible apply State.merge_steady | with_reducible apply State.passLine_steady
    | with_reducible apply Steady.foldl | split

theorem execDualUnprotected_steady {s0 : State} (r : Rx) {s : State} (h : Steady s0 s) :
    ∀ out, execDualUnprotected r s = .next out → Steady s0 out := by
  intro out e; cases e
  repeat' first
    | with_reducible assumption | intro _ | with_reducible apply Steady.ite | with_reducible apply State.count_steady
    | with_reducible apply State.passLine_steady | with_reducible apply State.unprotected_steady
    | with_reducible apply Steady.foldl | split

theorem execDualBreakMarker_steady {s0 : State} (r : Rx) {s : State} (h : Steady s0 s) :
    ∀ out, execDualBreakMarker r s = .next out → Steady s0 out := by
  intro out e; cases e
  repeat' first
    | with_reducible assumption | intro _ | with_reducible apply Steady.ite
    | with_reducible apply State.breakMarker_steady | with_reducible apply State.modDual_steady
    | with_reducible apply Steady.foldl | split

theorem execMergeIdleReset_steady {s0 : State} (stream : Nat) {s : State} (h : Steady s0 s) :
    ∀ out, execMergeIdleReset stream s = .next out → Steady s0 out := by
  intro out e; cases e
  repeat' first
    | with_reducible exact h | with_reducible apply State.dropMerge_steady | with_reducible apply State.iff_steady

theorem execDualFlush_steady {s0 : State} {s : State} (h : Steady s0 s) :
    ∀ out, execDualFlush s = .next out → Steady s0 out := by
  intro out e; cases e
  repeat' first
    | with_reducible exact h | with_reducible apply State.flushMerge_steady
    | with_reducible apply State.guarded_steady

theorem execDualSkewUpdate_steady {s0 : State} {s : State} (h : Steady s0 s) :
    ∀ out, execDualSkewUpdate s = .next out → Steady s0 out := by
  intro out e; cases e
  repeat' first
    | with_reducible exact h | with_reducible apply State.iff_steady | with_reducible apply State.skewUpdate_steady

theorem execCopyWithdraw_steady {s0 : State} (t : Tree) {s : State} (h : Steady s0 s) :
    ∀ out, execCopyWithdraw t s = .next out → Steady s0 out := by
  intro out e; cases e
  repeat' first | with_reducible exact h | with_reducible apply State.withdrawCopies_steady

theorem execSelWtrExpire_steady {s0 : State} {s : State} (h : Steady s0 s) :
    ∀ out, execSelWtrExpire s = .next out → Steady s0 out := by
  intro out e; cases e
  repeat' first | with_reducible exact h | with_reducible apply State.selRestore_steady

theorem execClaimConflictSend_steady {s0 : State} {s : State} (h : Steady s0 s) :
    ∀ out, execClaimConflictSend s = .next out → Steady s0 out := by
  intro out e; cases e
  repeat' first | with_reducible exact h | with_reducible apply State.sendConflict_steady

theorem execGrantSelect_steady {s0 : State} (t : Tree) {s : State} (h : Steady s0 s) :
    ∀ out, execGrantSelect t s = .next out → Steady s0 out := by
  intro out e; cases e
  repeat' first
    | with_reducible assumption | intro _ | with_reducible apply Steady.ite | with_reducible apply State.iff_steady
    | with_reducible apply State.selectGrant_steady | with_reducible apply Steady.foldl | split

theorem execSchedTick_steady {s0 : State} {s : State} (h : Steady s0 s) :
    ∀ out, execSchedTick s = .next out → Steady s0 out := by
  intro out e; cases e
  repeat' first
    | with_reducible assumption | intro _ | with_reducible apply State.iff_steady
    | with_reducible apply State.schedTick_steady | with_reducible apply State.showTick_steady
    | with_reducible apply State.tickTake_steady

theorem execUschAgeSweep_steady {s0 : State} {s : State} (h : Steady s0 s) :
    ∀ out, execUschAgeSweep s = .next out → Steady s0 out := by
  intro out e; cases e
  repeat' first
    | with_reducible assumption | intro _ | with_reducible apply Steady.ite
    | with_reducible apply State.examine_steady | with_reducible apply Steady.foldl | split

theorem execTmcSendSubmit_steady {s0 : State} (t : Tree) (entry : Nat) (len : Nat) (cls : Nat) (addr : Nat) {s :
    State} (h : Steady s0 s) :
       ∀ out, execTmcSendSubmit t entry len cls addr s = .next out → Steady s0 out := by
  intro out e; cases e
  repeat' first
    | with_reducible exact h | with_reducible apply State.iff_steady | with_reducible apply State.tmcSubmit_steady

theorem execBulkDrawBack_steady {s0 : State} (q : Nat) {s : State} (h : Steady s0 s) :
    ∀ out, execBulkDrawBack q s = .next out → Steady s0 out := by
  intro out e; cases e
  repeat' first
    | with_reducible exact h | with_reducible apply State.backlogStep_steady
    | with_reducible apply State.drawBack_steady

theorem execFrameClassify_steady {s0 : State} (f : InFrame) (saturated : Bool) {s : State} (h : Steady s0 s) :
    ∀ out, execFrameClassify f saturated s = .next out → Steady s0 out := by
  intro out e; cases e
  repeat' first | with_reducible exact h | with_reducible apply State.classify_steady

theorem execFollowTimeout_steady {s0 : State} (idx : Nat) {s : State} (h : Steady s0 s) :
    ∀ out, execFollowTimeout idx s = .next out → Steady s0 out := by
  intro out e; cases e
  repeat' first
    | with_reducible assumption | intro _ | with_reducible apply State.count_steady
    | with_reducible apply State.followRemove_steady | with_reducible apply State.iff_steady

theorem execFlowAgeSweep_steady {s0 : State} {s : State} (h : Steady s0 s) :
    ∀ out, execFlowAgeSweep s = .next out → Steady s0 out := by
  intro out e; cases e
  repeat' first
    | with_reducible assumption | intro _ | with_reducible apply Steady.ite
    | with_reducible apply State.flowVisit_steady | with_reducible apply State.iff_steady
    | with_reducible apply State.modFlow_steady | with_reducible apply Steady.foldl | split

theorem execFlowInsert_steady {s0 : State} {s : State} (h : Steady s0 s) :
    ∀ out, execFlowInsert s = .next out → Steady s0 out := by
  intro out e; cases e
  repeat' first
    | with_reducible exact h | with_reducible apply State.flowCommand_steady
    | with_reducible apply State.guarded_steady

theorem execFlowDelete_steady {s0 : State} {s : State} (h : Steady s0 s) :
    ∀ out, execFlowDelete s = .next out → Steady s0 out := by
  intro out e; cases e
  repeat' first
    | with_reducible exact h | with_reducible apply State.flowCommand_steady
    | with_reducible apply State.guarded_steady

theorem execFlowFind_steady {s0 : State} {s : State} (h : Steady s0 s) :
    ∀ out, execFlowFind s = .next out → Steady s0 out := by
  intro out e; cases e
  repeat' first
    | with_reducible exact h | with_reducible apply State.flowCommand_steady
    | with_reducible apply State.guarded_steady

theorem execFlowCmdDone_steady {s0 : State} {s : State} (h : Steady s0 s) :
    ∀ out, execFlowCmdDone s = .next out → Steady s0 out := by
  intro out e; cases e
  repeat' first | with_reducible exact h | with_reducible apply State.flowDone_steady

theorem execFrameAdmitStart_steady {s0 : State} (f : AdmitReq) {s : State} (h : Steady s0 s) :
    ∀ out, execFrameAdmitStart f s = .next out → Steady s0 out := by
  intro out e; cases e
  repeat' first | with_reducible exact h | with_reducible apply State.admitStart_steady

theorem execCopyDecide_steady {s0 : State} (id : Nat) {s : State} (h : Steady s0 s) :
    ∀ out, execCopyDecide id s = .next out → Steady s0 out := by
  intro out e; cases e
  repeat' first | with_reducible exact h | with_reducible apply State.copyDecide_steady

theorem execFrameAdmitEnd_steady {s0 : State} (id : Nat) (err : Bool) (poolEmpty : Bool) {s : State} (h : Steady s0
    s) :
       ∀ out, execFrameAdmitEnd id err poolEmpty s = .next out → Steady s0 out := by
  intro out e; cases e
  repeat' first | with_reducible exact h | with_reducible apply State.admitEnd_steady

theorem execBacklogSpill_steady {s0 : State} (q : Nat) {s : State} (h : Steady s0 s) :
    ∀ out, execBacklogSpill q s = .next out → Steady s0 out := by
  intro out e; cases e
  repeat' first | with_reducible exact h | with_reducible apply State.backlogStep_steady

theorem execMemUncorrectable_steady {s0 : State} (what : MemErr) {s : State} (h : Steady s0 s) :
    ∀ out, execMemUncorrectable what s = .next out → Steady s0 out := by
  intro out e; cases e
  repeat' first | with_reducible exact h | with_reducible apply State.memError_steady

theorem execDschSelect_steady {s0 : State} (port : Nat) {s : State} (h : Steady s0 s) :
    ∀ out, execDschSelect port s = .next out → Steady s0 out := by
  intro out e; cases e
  repeat' first | with_reducible exact h | with_reducible apply State.dschSelect_steady

theorem execUniTxComplete_steady {s0 : State} (port : Nat) {s : State} (h : Steady s0 s) :
    ∀ out, execUniTxComplete port s = .next out → Steady s0 out := by
  intro out e; cases e
  repeat' first
    | with_reducible exact h | with_reducible apply State.iff_steady | with_reducible apply State.uniComplete_steady
    | with_reducible apply State.uniReceive_steady

theorem execDschAgeSweep_steady {s0 : State} {s : State} (h : Steady s0 s) :
    ∀ out, execDschAgeSweep s = .next out → Steady s0 out := by
  intro out e; cases e
  repeat' first
    | with_reducible assumption | intro _ | with_reducible apply Steady.ite
    | with_reducible apply State.examineDown_steady | with_reducible apply Steady.foldl | split

theorem execPortFlush_steady {s0 : State} (port : Nat) {s : State} (h : Steady s0 s) :
    ∀ out, execPortFlush port s = .next out → Steady s0 out := by
  intro out e; cases e
  repeat' first | with_reducible exact h | with_reducible apply State.portFlush_steady

theorem execSampleDeliver_steady {s0 : State} (bufs : List Bytes) {s : State} (h : Steady s0 s) :
    ∀ out, execSampleDeliver bufs s = .next out → Steady s0 out := by
  intro out e; cases e
  repeat' first | with_reducible exact h | with_reducible apply State.sampleDeliver_steady

theorem execXtrSegmentWrite_steady {s0 : State} (seg : Nat) (w0 : Word) (w1 : Word) (w2 : Word) (w3 : Word) {s :
    State} (h : Steady s0 s) :
       ∀ out, execXtrSegmentWrite seg w0 w1 w2 w3 s = .next out → Steady s0 out := by
  intro out e; cases e
  repeat' first
    | with_reducible exact h | with_reducible apply State.guarded_steady | with_reducible apply State.segWrite_steady

theorem execTierReadFail_steady {s0 : State} (q : Nat) (whole : Bool) {s : State} (h : Steady s0 s) :
    ∀ out, execTierReadFail q whole s = .next out → Steady s0 out := by
  intro out e; cases e
  repeat' first
    | with_reducible assumption | intro _ | with_reducible apply Steady.ite
    | with_reducible apply State.loseChain_steady | with_reducible apply State.loseRecord_steady

theorem execAuditEval_steady {s0 : State} {s : State} (h : Steady s0 s) :
    ∀ out, execAuditEval s = .next out → Steady s0 out := by
  intro out e; cases e
  repeat' first
    | with_reducible exact h | with_reducible apply State.auditEval_steady | with_reducible apply State.iff_steady

theorem execAuditSweepStart_steady {s0 : State} {s : State} (h : Steady s0 s) :
    ∀ out, execAuditSweepStart s = .next out → Steady s0 out := by
  intro out e; cases e
  repeat' first
    | with_reducible assumption | exact ⟨Nat.ne_of_beq_eq_false rfl, Nat.ne_of_beq_eq_false rfl⟩
    | exact Nat.le_of_ble_eq_true rfl | intro _ | with_reducible apply State.iff_steady
    | with_reducible apply State.setFld_steady

theorem execAuditSweepDone_steady {s0 : State} {s : State} (h : Steady s0 s) :
    ∀ out, execAuditSweepDone s = .next out → Steady s0 out := by
  intro out e; cases e
  repeat' first
    | with_reducible exact h | with_reducible apply State.iff_steady | with_reducible apply State.sweepDone_steady

theorem execAuditStatusClear_steady {s0 : State} {s : State} (h : Steady s0 s) :
    ∀ out, execAuditStatusClear s = .next out → Steady s0 out := by
  intro out e; cases e
  repeat' first
    | with_reducible assumption | exact ⟨Nat.ne_of_beq_eq_false rfl, Nat.ne_of_beq_eq_false rfl⟩
    | exact Nat.le_of_ble_eq_true rfl | intro _ | with_reducible apply State.guarded_steady
    | with_reducible apply State.setFld_steady

theorem execLsecDecrypt_steady {s0 : State} (r : Rx) {s : State} (h : Steady s0 s) :
    ∀ out, execLsecDecrypt r s = .next out → Steady s0 out := by
  intro out e; cases e
  repeat' first
    | with_reducible assumption | intro _ | with_reducible apply Steady.ite
    | with_reducible apply State.joinFragment_steady | with_reducible apply State.lsecDown_steady
    | with_reducible apply State.modDual_steady | with_reducible apply Steady.foldl | split

theorem execKeySwitch_steady {s0 : State} (ctx : Nat) {s : State} (h : Steady s0 s) :
    ∀ out, execKeySwitch ctx s = .next out → Steady s0 out := by
  intro out e; cases e
  repeat' first
    | with_reducible exact h | with_reducible apply State.iff_steady | with_reducible apply State.keySwitch_steady

theorem execTimeSetCmd_steady {s0 : State} {s : State} (h : Steady s0 s) :
    ∀ out, execTimeSetCmd s = .next out → Steady s0 out := by
  intro out e; cases e
  repeat' first
    | with_reducible exact h | with_reducible apply State.guarded_steady
    | with_reducible apply State.timeSetCmd_steady

theorem execTimeSetApply_steady {s0 : State} (r : Rx) {s : State} (h : Steady s0 s) :
    ∀ out, execTimeSetApply r s = .next out → Steady s0 out := by
  intro out e; cases e
  repeat' first | with_reducible exact h | with_reducible apply State.timeSetApply_steady

theorem execTimeClearHost_steady {s0 : State} {s : State} (h : Steady s0 s) :
    ∀ out, execTimeClearHost s = .next out → Steady s0 out := by
  intro out e; cases e
  repeat' first
    | with_reducible exact h | with_reducible apply State.guarded_steady
    | with_reducible apply State.timeClearHost_steady

theorem execTimeCalDone_steady {s0 : State} {s : State} (h : Steady s0 s) :
    ∀ out, execTimeCalDone s = .next out → Steady s0 out := by
  intro out e; cases e
  repeat' first | with_reducible exact h | with_reducible apply State.timeCalDone_steady

theorem execPpsEdge_steady {s0 : State} {s : State} (h : Steady s0 s) :
    ∀ out, execPpsEdge s = .next out → Steady s0 out := by
  intro out e; cases e
  repeat' first
    | with_reducible exact h | with_reducible apply State.iff_steady | with_reducible apply State.ppsRise_steady

theorem execPpsFall_steady {s0 : State} {s : State} (h : Steady s0 s) :
    ∀ out, execPpsFall s = .next out → Steady s0 out := by
  intro out e; cases e
  repeat' first | with_reducible exact h | with_reducible apply State.ppsFall_steady

theorem execLaunchEligible_steady {s0 : State} (port : Nat) (tag : Nat) {s : State} (h : Steady s0 s) :
    ∀ out, execLaunchEligible port tag s = .next out → Steady s0 out := by
  intro out e; cases e
  repeat' first
    | with_reducible assumption | intro _ | with_reducible apply State.iff_steady
    | with_reducible apply State.launchReach_steady

theorem execDomainIdleExpire_steady {s0 : State} (d : Nat) (refusal : Option (Nat × Nat)) {s : State} (h : Steady s0
    s) :
       ∀ out, execDomainIdleExpire d refusal s = .next out → Steady s0 out := by
  intro out e; cases e
  repeat' first | with_reducible exact h | with_reducible apply State.idleExpire_steady

theorem execDomainWake_steady {s0 : State} (d : Nat) (src : Nat) {s : State} (h : Steady s0 s) :
    ∀ out, execDomainWake d src s = .next out → Steady s0 out := by
  intro out e; cases e
  repeat' first
    | with_reducible assumption | intro _ | with_reducible apply Steady.ite
    | with_reducible apply State.guarded_steady | with_reducible apply State.iff_steady
    | with_reducible apply State.wakeDomain_steady

theorem execClockGateEnd_steady {s0 : State} (cand : Nat) (count : Nat) {s : State} (h : Steady s0 s) :
    ∀ out, execClockGateEnd cand count s = .next out → Steady s0 out := by
  intro out e; cases e
  repeat' first | with_reducible exact h | with_reducible apply State.clockGateEnd_steady

theorem execHostrefLost_steady {s0 : State} {s : State} (h : Steady s0 s) :
    ∀ out, execHostrefLost s = .next out → Steady s0 out := by
  intro out e; cases e
  repeat' first | with_reducible exact h | with_reducible apply State.clkLose_steady

theorem execClockWtrExpire_steady {s0 : State} (cand : Nat) {s : State} (h : Steady s0 s) :
    ∀ out, execClockWtrExpire cand s = .next out → Steady s0 out := by
  intro out e; cases e
  repeat' first
    | with_reducible exact h | with_reducible apply State.clkJudgeWith_steady | with_reducible apply State.iff_steady

theorem execClkForce_steady {s0 : State} (code : Nat) {s : State} (h : Steady s0 s) :
    ∀ out, execClkForce code s = .next out → Steady s0 out := by
  intro out e; cases e
  repeat' first
    | with_reducible exact h | with_reducible apply State.clkForceCmd_steady
    | with_reducible apply State.guarded_steady

theorem execClockEdgeMissing_steady {s0 : State} (which : Nat) {s : State} (h : Steady s0 s) :
    ∀ out, execClockEdgeMissing which s = .next out → Steady s0 out := by
  intro out e; cases e
  repeat' first | with_reducible exact h | with_reducible apply State.edgeMissing_steady

theorem execKoscTrim_steady {s0 : State} (count : Nat) {s : State} (h : Steady s0 s) :
    ∀ out, execKoscTrim count s = .next out → Steady s0 out := by
  intro out e; cases e
  repeat' first | with_reducible exact h | with_reducible apply State.koscTrim_steady

theorem execSupplyWarning_steady {s0 : State} (rails : Nat) {s : State} (h : Steady s0 s) :
    ∀ out, execSupplyWarning rails s = .next out → Steady s0 out := by
  intro out e; cases e
  repeat' first
    | with_reducible exact h | with_reducible apply State.iff_steady | with_reducible apply State.supplyWarning_steady

theorem execSupplyWarningClear_steady {s0 : State} {s : State} (h : Steady s0 s) :
    ∀ out, execSupplyWarningClear s = .next out → Steady s0 out := by
  intro out e; cases e
  repeat' first
    | with_reducible exact h | with_reducible apply State.iff_steady | with_reducible apply State.supplyClear_steady

theorem execVkeepWarning_steady {s0 : State} {s : State} (h : Steady s0 s) :
    ∀ out, execVkeepWarning s = .next out → Steady s0 out := by
  intro out e; cases e
  repeat' first | with_reducible exact h | with_reducible apply State.vkeepWarn_steady

theorem execMainRailRelease_steady {s0 : State} {s : State} (h : Steady s0 s) :
    ∀ out, execMainRailRelease s = .next out → Steady s0 out := by
  intro out e; cases e
  repeat' first
    | with_reducible exact h | with_reducible apply State.iff_steady
    | with_reducible apply State.mainRailRelease_steady

theorem execVkeepPowerUp_steady {s0 : State} (ramOk : Bool) {s : State} (h : Steady s0 s) :
    ∀ out, execVkeepPowerUp ramOk s = .next out → Steady s0 out := by
  intro out e; cases e
  repeat' first | with_reducible exact h | with_reducible apply State.vkeepPowerUp_steady

theorem execPsrcDebounce_steady {s0 : State} (main : Bool) (level : Bool) {s : State} (h : Steady s0 s) :
    ∀ out, execPsrcDebounce main level s = .next out → Steady s0 out := by
  intro out e; cases e
  repeat' first
    | with_reducible exact h | with_reducible apply State.iff_steady | with_reducible apply State.psrcDebounce_steady

theorem execMainsStable_steady {s0 : State} {s : State} (h : Steady s0 s) :
    ∀ out, execMainsStable s = .next out → Steady s0 out := by
  intro out e; cases e
  repeat' first | with_reducible exact h | with_reducible apply State.mainsStable_steady

theorem execUnitContain_steady {s0 : State} (page : Nat) (unit : Nat) {s : State} (h : Steady s0 s) :
    ∀ out, execUnitContain page unit s = .next out → Steady s0 out := by
  intro out e; cases e
  repeat' first | with_reducible exact h | with_reducible apply State.unitContain_steady

theorem execThermalRelease_steady {s0 : State} (region : Nat) {s : State} (h : Steady s0 s) :
    ∀ out, execThermalRelease region s = .next out → Steady s0 out := by
  intro out e; cases e
  repeat' first
    | with_reducible exact h | with_reducible apply State.iff_steady | with_reducible apply State.regionRelease_steady

theorem execSysRegionRelease_steady {s0 : State} (mask : Nat) {s : State} (h : Steady s0 s) :
    ∀ out, execSysRegionRelease mask s = .next out → Steady s0 out := by
  intro out e; cases e
  repeat' first
    | with_reducible exact h | with_reducible apply State.guarded_steady
    | with_reducible apply State.sysRegionRelease_steady

theorem execFlitCrcFail_steady {s0 : State} (link : Nat) (back : Bool) (flit : Bytes) {s : State} (h : Steady s0 s) :
    ∀ out, execFlitCrcFail link back flit s = .next out → Steady s0 out := by
  intro out e; cases e
  repeat' first | with_reducible exact h | with_reducible apply State.flitReceive_steady

theorem execD2dRetrainRetry_steady {s0 : State} (link : Nat) (ok : Bool) {s : State} (h : Steady s0 s) :
    ∀ out, execD2dRetrainRetry link ok s = .next out → Steady s0 out := by
  intro out e; cases e
  repeat' first | with_reducible exact h | with_reducible apply State.linkRetry_steady

theorem execD2dLinkUp_steady {s0 : State} (link : Nat) {s : State} (h : Steady s0 s) :
    ∀ out, execD2dLinkUp link s = .next out → Steady s0 out := by
  intro out e; cases e
  repeat' first
    | with_reducible exact h | with_reducible apply State.iff_steady | with_reducible apply State.linkCameUp_steady

theorem execPinShort_steady {s0 : State} (pin : Nat) {s : State} (h : Steady s0 s) :
    ∀ out, execPinShort pin s = .next out → Steady s0 out := by
  intro out e; cases e
  repeat' first | with_reducible exact h | with_reducible apply State.pinShort_steady

theorem execPinRelease_steady {s0 : State} (pin : Nat) (stillFaulty : Bool) {s : State} (h : Steady s0 s) :
    ∀ out, execPinRelease pin stillFaulty s = .next out → Steady s0 out := by
  intro out e; cases e
  repeat' first
    | with_reducible exact h | with_reducible apply State.guarded_steady
    | with_reducible apply State.pinRelease_steady

theorem execReplan_steady {s0 : State} (r : LehrReadings) {s : State} (h : Steady s0 s) :
    ∀ out, execReplan r s = .next out → Steady s0 out := by
  intro out e; cases e
  repeat' first | with_reducible exact h | with_reducible apply State.replanDaily_steady

theorem execLehrReplanNow_steady {s0 : State} (r : LehrReadings) {s : State} (h : Steady s0 s) :
    ∀ out, execLehrReplanNow r s = .next out → Steady s0 out := by
  intro out e; cases e
  repeat' first
    | with_reducible exact h | with_reducible apply State.guarded_steady | with_reducible apply State.replan_steady

theorem execReplanDeferredStart_steady {s0 : State} (r : LehrReadings) {s : State} (h : Steady s0 s) :
    ∀ out, execReplanDeferredStart r s = .next out → Steady s0 out := by
  intro out e; cases e
  repeat' first | with_reducible exact h | with_reducible apply State.replanDeferred_steady

theorem execAvsWriteDone_steady {s0 : State} (rail : Nat) (ack : Bool) {s : State} (h : Steady s0 s) :
    ∀ out, execAvsWriteDone rail ack s = .next out → Steady s0 out := by
  intro out e; cases e
  repeat' first | with_reducible exact h | with_reducible apply State.avsDone_steady

theorem execTapReset_steady {s0 : State} {s : State} (h : Steady s0 s) :
    ∀ out, execTapReset s = .next out → Steady s0 out := by
  intro out e; cases e
  repeat' first
    | with_reducible exact h | with_reducible apply State.setTap_steady | with_reducible apply State.tapRelease_steady

theorem execBypass_steady {s0 : State} {s : State} (h : Steady s0 s) :
    ∀ out, execBypass s = .next out → Steady s0 out := by
  intro out e; cases e
  repeat' first | with_reducible exact h | with_reducible apply State.setTap_steady

theorem execSamplePreload_steady {s0 : State} (load : Option (List Bool)) {s : State} (h : Steady s0 s) :
    ∀ out, execSamplePreload load s = .next out → Steady s0 out := by
  intro out e; cases e
  repeat' first
    | with_reducible assumption | intro _ | with_reducible apply Steady.ite | with_reducible apply State.modTap_steady
    | with_reducible apply State.samplePins_steady | with_reducible apply State.setTap_steady
    | with_reducible apply Steady.foldl | split

theorem execIdcode_steady {s0 : State} {s : State} (h : Steady s0 s) :
    ∀ out, execIdcode s = .next out → Steady s0 out := by
  intro out e; cases e
  repeat' first
    | with_reducible exact h | with_reducible apply State.modReadData_steady
    | with_reducible apply State.setTap_steady

end Sys2Proof.Machine
end

