-- ==== Sys2Proof/WellFormed.lean ====
section
/-! DEFINITION. Which commands are well formed: the pages, registers, functions, ports, lanes, cores and other numbered things
that their operands name exist (Tables 2.1 and 2.11, and the chapter of each). A meaning answers for every operand; this says
which operands a sender can name. -/

namespace Sys2Proof

/-- One of the 49 pages (R39). -/
def pageOk (p : Nat) : Bool := decide (p < 0x31)

/-- A register access: a page's aligned offset within its 4 KiB (R39, R41), or one of a function window's 64 KiB, as page
256 + f (Table 14.3). -/
def placeOk (p off : Nat) : Bool :=
  decide (off % 4 = 0) && ((pageOk p && decide (off < 0x1000)) || (decide (256 ≤ p) && decide (p < 512) && decide (off < 0x10000)))

/-- A number below a bound. -/
def below (n bound : Nat) : Bool := decide (n < bound)

/-- A candidate clock (Table 16.4). -/
def candOk (k : Nat) : Bool := decide (1 ≤ k) && decide (k ≤ 5)

/-- An acquisition result of four levels for each pilot (R114). -/
def acqOk (res : AcqResult) : Bool :=
  match res with
  | .pilot _ syms => syms.all (fun v => v.length == 4)
  | _ => true

/-- The operands name things that exist. -/
def Instr.wf (i : Instr) : Bool :=
  match i with
  | .registerWrite page off _ hi => placeOk page off && (hi.isNone || decide (off % 8 = 0))
  | .darkPageAccess page _ => pageOk page
  | .latchingRead page off wide => placeOk page off && (!wide || decide (off % 8 = 0))
  | .rwtVotedRead page off => placeOk page off
  | .sysDarkAccessClear => true
  | .cfgStatusClear page => pageOk page
  | .tripleStatusClear page => pageOk page
  | .softReset page => pageOk page
  | .softResetComplete page => pageOk page
  | .pennantEvent page bit => pageOk page && below bit 24
  | .pennantAdvance page => pageOk page
  | .pennantClear page _ => pageOk page
  | .pennantMaskWrite page _ => pageOk page
  | .tripleScrub => true
  | .indirectDataWrite _ page _ => pageOk page
  | .indirectDataRead _ page => pageOk page
  | .indirectAddrWrite _ page _ _ => pageOk page
  | .snapArm => true
  | .snapCancel => true
  | .snapArmNow => true
  | .snapCtrlMulti _ => true
  | .snapCapture => true
  | .snapLateFire => true
  | .snapUnitMissing unit => below unit 384
  | .snapComplete => true
  | .rxEnable _ => true
  | .rxDisable _ => true
  | .sigPresent _ => true
  | .sigLost _ => true
  | .acqPhaseComplete _ res => acqOk res
  | .acqTimeout _ => true
  | .lockLost _ => true
  | .phaseSlip _ => true
  | .codewordDecode _ _ => true
  | .fomWindowEnd _ _ => true
  | .rxLaneAdapt _ lane _ _ => below lane 4
  | .txDisable _ => true
  | .txPrepAssert _ => true
  | .txGateAssert _ => true
  | .burstStart _ => true
  | .txGateDeassert _ => true
  | .burstEnd _ => true
  | .txPrepDeassert _ => true
  | .txLaserPolicyWrite _ _ => true
  | .txClockMissing _ => true
  | .forceRelease _ => true
  | .roguePowerPoll _ _ => true
  | .rogueEvent _ _ => true
  | .ofeI2cGo _ _ => true
  | .ofeI2cDone _ _ _ => true
  | .ofeI2cTimeout _ => true
  | .ofeInt _ _ => true
  | .ofePresentChange _ _ => true
  | .frmEnable _ => true
  | .frmDisable _ => true
  | .alignCodeword _ _ => true
  | .frameHeader _ => true
  | .grantEntry _ _ => true
  | .fragmentHeader _ pos _ => below pos 3239968
  | .fragmentReceive _ _ => true
  | .losClear _ => true
  | .lofDeclare _ => true
  | .lofClear _ => true
  | .defectWindowEnd _ => true
  | .pmSecond _ => true
  | .pmBinEdge _ => true
  | .pmBinFinal _ _ slot => below slot 33
  | .pmDisable => true
  | .halDisable _ => true
  | .halPreambleDetect _ _ => true
  | .halSyncFound _ _ _ => true
  | .halSyncMiss _ => true
  | .halHeader _ _ => true
  | .halFrameEnd _ _ _ => true
  | .halAgcTimeout _ => true
  | .halRxActiveLost _ => true
  | .halRxSyncTimeout _ => true
  | .beacon _ _ => true
  | .rangeRequest _ _ => true
  | .wake _ _ => true
  | .noticeAck _ _ => true
  | .halSubmit _ slot => below slot 4
  | .halCancel _ slot => below slot 4
  | .halCommit _ slot => below slot 4
  | .halTxStart _ slot => below slot 4
  | .halTxEnd _ slot => below slot 4
  | .actDisable _ => true
  | .listeningEntry _ => true
  | .actModeWrite _ _ => true
  | .releaseQuarantine _ => true
  | .actDeactivateCmd _ => true
  | .hailTimeout _ => true
  | .rangeTimeout _ => true
  | .warmReturn _ _ _ _ => true
  | .warmWindowExpire _ => true
  | .eqdApply _ => true
  | .maxParkExpire _ => true
  | .gaspWaitExpire _ => true
  | .noticeRetry _ => true
  | .tmcResponseExpire _ slot => below slot 64
  | .register _ _ => true
  | .rangeConfirm _ _ => true
  | .adjust _ _ => true
  | .deactivate _ _ => true
  | .disable _ _ => true
  | .enable _ _ => true
  | .park _ _ => true
  | .statusRequest _ _ => true
  | .tenantProvision _ _ => true
  | .tenantRemove _ _ => true
  | .allocAssign _ _ => true
  | .allocRelease _ _ => true
  | .tmcUnknownType _ _ => true
  | .tmcHeadEndResponse _ _ => true
  | .primaryClaim _ _ => true
  | .protectSet _ _ => true
  | .keyInit _ _ => true
  | .keyConfirm _ _ => true
  | .tenantKey _ _ => true
  | .timeBind _ _ => true
  | .timeQuality _ _ => true
  | .upstreamNeed _ => true
  | .dualDisable => true
  | .mergeFragment _ => true
  | .dualUnprotected _ => true
  | .dualBreakMarker _ => true
  | .mergeIdleReset stream => below stream 4096
  | .dualFlush => true
  | .dualSkewUpdate => true
  | .copyWithdraw _ => true
  | .selWtrExpire => true
  | .claimConflictSend => true
  | .grtDisable _ => true
  | .grantSelect _ => true
  | .schedTick => true
  | .uschAgeSweep => true
  | .uschDisable => true
  | .tmcSendSubmit _ entry len cls _ => below entry 64 && below cls 4 && decide (1 ≤ len) && decide (len ≤ 2048)
  | .bulkDrawBack q => below q 4096
  | .polDisable => true
  | .clsDisable => true
  | .frameClassify _ _ => true
  | .followTimeout idx => below idx 16384
  | .flowAgeSweep => true
  | .flowDisable => true
  | .flowInsert => true
  | .flowDelete => true
  | .flowFind => true
  | .flowCmdDone => true
  | .frameAdmitStart _ => true
  | .copyDecide _ => true
  | .frameAdmitEnd _ _ _ => true
  | .backlogSpill q => below q 4096
  | .memUncorrectable _ => true
  | .dschSelect port => below port 18
  | .uniTxComplete port => below port 16
  | .dschAgeSweep => true
  | .portFlush port => below port 272
  | .sampleDeliver bufs => bufs.all (fun e => e.length == 16)
  | .dschDisable => true
  | .stoDisable => true
  | .swcDisable => true
  | .mirDisable => true
  | .xtrDisable => true
  | .xtrSegmentWrite seg _ _ _ _ => below seg 65536
  | .tierReadFail q _ => below q 4096
  | .auditEval => true
  | .auditSweepStart => true
  | .auditSweepDone => true
  | .auditStatusClear => true
  | .lsecDecrypt _ => true
  | .keySwitch ctx => below ctx 1024
  | .lsecDisable => true
  | .ccryStart slot => below slot 8
  | .ccryAbort slot => below slot 8
  | .ccryExport slot _ => below slot 8
  | .ccryImport slot => below slot 8
  | .ccryJobDone slot => below slot 8
  | .ccryDisable => true
  | .kstCommit => true
  | .kstCommitDone _ => true
  | .kstGenkey => true
  | .kstGenkeyDone => true
  | .kstDisable => true
  | .timeSetCmd => true
  | .timeSetApply _ => true
  | .timeClearHost => true
  | .timeEnable => true
  | .timeCalDone => true
  | .timeDisable => true
  | .ppsEdge => true
  | .ppsFall => true
  | .launchEligible port tag => below port 16 && below tag 256
  | .portCfgWrite port _ => below port 16
  | .anFailed port => below port 16
  | .cdrLock lane => below lane 16
  | .cdrLockLost lane => below lane 16
  | .linkUp port _ => below port 16
  | .linkDown port => below port 16
  | .laneFomWindow lane _ => below lane 16
  | .laneAdapt lane => below lane 16
  | .prbsLock lane levels => below lane 16 && levels.all (fun v => v == -3 || v == -1 || v == 1 || v == 3)
  | .prbsLockLost lane levels => below lane 16 && levels.all (fun v => [-3, -1, 1, 3].contains v)
  | .prbsInvert lane => below lane 16
  | .laneInject lane => below lane 16
  | .laneInjectPeriodic lane => below lane 16
  | .laneDisable => true
  | .uniFrameReceive port _ _ _ _ => below port 16
  | .pauseReceive port _ => below port 16
  | .pauseExpire port prio => below port 16 && below prio 8
  | .pfcRefresh port prio => below port 16 && below prio 8
  | .lpiEnter port => below port 16
  | .lpiExit port => below port 16
  | .uniqDisable q => below q 4
  | .perstAssert => true
  | .perstDeassert _ => true
  | .pcieConfigWrite fn _ => below fn 256
  | .msixUnmask fn _ => below fn 256
  | .functionLevelReset fn => below fn 256
  | .flrComplete fn => below fn 256
  | .ringTailWrite fn _ k _ => below fn 256 && below k 32
  | .ringDisable fn _ k => below fn 256 && below k 32
  | .ringDrained fn _ k => below fn 256 && below k 32
  | .ringRestart fn k => below fn 256 && below k 32
  | .ringSkip fn k => below fn 256 && below k 32
  | .funcStatusClear fn => below fn 256
  | .dmaTxFrame fn k entries => below fn 256 && below k 32 && entries.all (fun e => e.length == 16)
  | .dmaSegComplete fn k _ => below fn 256 && below k 32
  | .dmaRxWrite fn cls bufs => below fn 256 && below cls 16 && bufs.all (fun e => e.length == 16)
  | .msixModeration fn _ k => below fn 256 && below k 32
  | .dmaDisable => true
  | .l1Entry _ => true
  | .l1Exit => true
  | .wakeCauseLatch _ fn => below fn 256
  | .pmeSend => true
  | .wakeCauseClear _ => true
  | .narrowRequest _ _ => true
  | .narrowWithdraw _ _ => true
  | .narrowRetry _ _ => true
  | .cxlEnumerate => true
  | .cxlEnumDone _ _ _ _ => true
  | .cxlLinkDown => true
  | .hifDisable => true
  | .taskDispatch core task => below core 16 && below task 1024
  | .slotPrefetch core task => below core 16 && below task 1024
  | .taskPreempt core task => below core 16 && below task 1024
  | .taskEnd core => below core 16
  | .taskSetflag core task flag => below core 16 && below task 1024 && below flag 32
  | .taskFlow core flow _ => below core 16 && below flow 65536
  | .tskTimerExpire timer => below timer 16
  | .tskSet task flag => below task 1024 && below flag 32
  | .dispatchLate task => below task 1024
  | .wdogKick core => below core 16
  | .watchdogExpire core => below core 16
  | .coreRelease _ => true
  | .sramUncorrectable core _ => below core 16
  | .coreRingTail ring _ => below ring 4
  | .coreDisable => true
  | .tskDisable => true
  | .flashRead _ => true
  | .flashProgram _ _ => true
  | .flashErase _ => true
  | .pageLoad _ => true
  | .flashOpDone _ => true
  | .flashEraseDone _ => true
  | .flshDisable => true
  | .boot _ _ => true
  | .bootConfirm => true
  | .bootRetry => true
  | .puntyArm _ => true
  | .puntyLoad => true
  | .puntyReady => true
  | .puntyCommit => true
  | .puntyFlip => true
  | .puntyAbort => true
  | .puntyFreezeTimeout => true
  | .domainIdleExpire d _ => below d 26
  | .domainEntryDone d => below d 26
  | .domainWake d _ => below d 26
  | .keepPolicyWrite _ _ => true
  | .domainRestoreDone d => below d 26
  | .clockGateEnd cand _ => candOk cand
  | .hostrefLost => true
  | .clockWtrExpire cand => candOk cand
  | .clkForce code => below code 8
  | .clockLossReset => true
  | .clockEdgeMissing which => below which 3
  | .koscTrim _ => true
  | .supplyWarning _ => true
  | .supplyWarningClear => true
  | .vkeepWarning => true
  | .mainRailReset _ => true
  | .mainRailRelease => true
  | .vkeepReset => true
  | .vkeepPowerUp _ => true
  | .psrcDebounce _ _ => true
  | .holdoffExpire => true
  | .mainsStable => true
  | .unitContain page unit => pageOk page && below unit 65536
  | .regionContain region _ => below region 9
  | .thermalLimit region => below region 9
  | .thermalRelease region => below region 9
  | .sysRegionRelease _ => true
  | .flitCrcFail link _ flit => below link 3 && flit.length == 80
  | .linkRetrain link _ => below link 3
  | .d2dRetrainRetry link _ => below link 3
  | .d2dLinkUp link => below link 3
  | .pinShort pin => below pin 69
  | .pinOpenTest pin _ _ _ => below pin 69
  | .pinRelease pin _ => below pin 69
  | .replan _ => true
  | .lehrReplanNow _ => true
  | .replanDeferredStart _ => true
  | .avsWriteDone rail _ => below rail 2
  | .sysRst _ => true
  | .tapReset => true
  | .bypass => true
  | .samplePreload _ => true
  | .idcode => true
  | .extest => true
  | .clamp => true
  | .highz => true
  | .remoteFault port _ => below port 16
  | .lpiRx port _ => below port 16
  | .completionTimeout fn k => below fn 256 && below k 32
  | .pcieLinkDown _ => true
  | .pcieRecovery _ _ _ => true
  | .cxlDeviceError => true

end Sys2Proof
end

