-- ==== Sys2Proof/Tests/Slice0.lean ====
section
/-! SUPPORT. Small tests: for each statement, states and operands that meet its hypotheses, clause by clause; ill-formed commands,
one for each check; and values of the codes that the formats use. -/

set_option Elab.async false
set_option linter.all false

namespace Sys2Proof.Tests

open Sys2Proof Sys2Proof.Machine Sys2Proof.Safety

set_option maxRecDepth 20000

/-! Ill-formed commands. -/

theorem test_ill_formed_1 : ([.registerWrite 0 2 ⟨.host, .normal, 15#4, 0#32⟩ none, .registerWrite 0 0x1000 ⟨.host, .normal,
  15#4, 0#32⟩ none, .registerWrite 0x31 0 ⟨.host, .normal, 15#4, 0#32⟩ none, .registerWrite 512 0 ⟨.host, .normal, 15#4,
  0#32⟩ none, .darkPageAccess 0x31 false, .latchingRead 0 2 false, .latchingRead 0 0x1000 false, .latchingRead 0x31 0 false,
  .latchingRead 512 0 false, .rwtVotedRead 0 2, .rwtVotedRead 0 0x1000, .rwtVotedRead 0x31 0, .rwtVotedRead 512 0,
  .cfgStatusClear 0x31, .tripleStatusClear 0x31, .softReset 0x31, .softResetComplete 0x31, .pennantEvent 0x31 0,
  .pennantEvent 0 24, .pennantAdvance 0x31] : List Instr).all (fun i => !i.wf) = true := by decide

theorem test_ill_formed_2 : ([.pennantClear 0x31 0#32, .pennantMaskWrite 0x31 ⟨.host, .normal, 15#4, 0#32⟩,
  .indirectDataWrite .host 0x31 0#32, .indirectDataRead .host 0x31, .indirectAddrWrite .host 0x31 false ⟨.host, .normal,
  15#4, 0#32⟩, .snapUnitMissing 384, .rxLaneAdapt .a0 4 false 0, .fragmentHeader .a0 3239968 [], .pmBinFinal .a0 false 33,
  .halSubmit .a 4, .halCancel .a 4, .halCommit .a 4, .halTxStart .a 4, .halTxEnd .a 4, .tmcResponseExpire .a 64,
  .mergeIdleReset 4096, .tmcSendSubmit .a 64 1 0 0, .tmcSendSubmit .a 0 1 4 0, .bulkDrawBack 4096,
  .followTimeout 16384] : List Instr).all (fun i => !i.wf) = true := by decide

theorem test_ill_formed_3 : ([.backlogSpill 4096, .dschSelect 18, .uniTxComplete 16, .portFlush 272,
  .xtrSegmentWrite 65536 0#32 0#32 0#32 0#32, .tierReadFail 4096 false, .keySwitch 1024, .ccryStart 8, .ccryAbort 8,
  .ccryExport 8 false, .ccryImport 8, .ccryJobDone 8, .launchEligible 16 0, .launchEligible 0 256, .portCfgWrite 16 ⟨.host,
  .normal, 15#4, 0#32⟩, .anFailed 16, .cdrLock 16, .cdrLockLost 16, .linkUp 16 ⟨true, true, []⟩,
  .linkDown 16] : List Instr).all (fun i => !i.wf) = true := by decide

theorem test_ill_formed_4 : ([.laneFomWindow 16 0, .laneAdapt 16, .prbsLock 16 [], .prbsLockLost 16 [], .prbsInvert 16,
  .laneInject 16, .laneInjectPeriodic 16, .uniFrameReceive 16 [] false 0 0, .pauseReceive 16 [], .pauseExpire 16 0,
  .pauseExpire 0 8, .pfcRefresh 16 0, .pfcRefresh 0 8, .lpiEnter 16, .lpiExit 16, .uniqDisable 4,
  .pcieConfigWrite 256 (.busMaster true), .msixUnmask 256 none, .functionLevelReset 256,
  .flrComplete 256] : List Instr).all (fun i => !i.wf) = true := by decide

theorem test_ill_formed_5 : ([.ringTailWrite 256 false 0 0, .ringTailWrite 0 false 32 0, .ringDisable 256 false 0,
  .ringDisable 0 false 32, .ringDrained 256 false 0, .ringDrained 0 false 32, .ringRestart 256 0, .ringRestart 0 32,
  .ringSkip 256 0, .ringSkip 0 32, .funcStatusClear 256, .dmaTxFrame 256 0 [], .dmaTxFrame 0 32 [],
  .dmaSegComplete 256 0 (.fault 0), .dmaSegComplete 0 32 (.fault 0), .dmaRxWrite 256 0 [], .dmaRxWrite 0 16 [],
  .msixModeration 256 false 0, .msixModeration 0 false 32,
  .wakeCauseLatch 0 256] : List Instr).all (fun i => !i.wf) = true := by decide

theorem test_ill_formed_6 : ([.taskDispatch 16 0, .taskDispatch 0 1024, .slotPrefetch 16 0, .slotPrefetch 0 1024,
  .taskPreempt 16 0, .taskPreempt 0 1024, .taskEnd 16, .taskSetflag 16 0 0, .taskSetflag 0 1024 0, .taskSetflag 0 0 32,
  .taskFlow 16 0 false, .taskFlow 0 65536 false, .tskTimerExpire 16, .tskSet 1024 0, .tskSet 0 32, .dispatchLate 1024,
  .wdogKick 16, .watchdogExpire 16, .sramUncorrectable 16 .corrected,
  .coreRingTail 4 0] : List Instr).all (fun i => !i.wf) = true := by decide

theorem test_ill_formed_7 : ([.domainIdleExpire 26 none, .domainEntryDone 26, .domainWake 26 0, .domainRestoreDone 26,
  .clockGateEnd 0 0, .clockGateEnd 6 0, .clockWtrExpire 0, .clockWtrExpire 6, .clkForce 8, .clockEdgeMissing 3,
  .unitContain 0x31 0, .unitContain 0 65536, .regionContain 9 0, .thermalLimit 9, .thermalRelease 9,
  .flitCrcFail 3 false [], .linkRetrain 3 false, .d2dRetrainRetry 3 false, .d2dLinkUp 3,
  .pinShort 69] : List Instr).all (fun i => !i.wf) = true := by decide

theorem test_ill_formed_8 : ([.pinOpenTest 69 false false false, .pinRelease 69 false, .avsWriteDone 2 false,
  .remoteFault 16 false, .lpiRx 16 false, .completionTimeout 256 0, .completionTimeout 0 32, .tmcSendSubmit .a 0 0 0 0,
  .tmcSendSubmit .a 0 2049 0 0, .registerWrite 0 4 ⟨.host, .normal, 15#4, 0#32⟩ (some (15#4, 0#32)), .latchingRead 0 4 true,
  .acqPhaseComplete .a0 (.pilot 24 [[1]]), .prbsLockLost 0 [2]] : List Instr).all (fun i => !i.wf) = true := by decide

/-! States that the witnesses below start from. -/

/-- The state after reset with the die-to-die links up, the line regions running and cores 0 to 7 released. -/
def up : State :=
  (((State.reset.setFld pgD2D D2D.statusUp 7).setFld pgCLK CLK.statusFrozenA 0).setFld pgCLK CLK.statusFrozenB 0).modCore
    (fun x => { x with held0 := false })

/-- That state with some pages enabled. -/
def en (ps : List Nat) : State := ps.foldl (fun s p => s.setFld p HDR.pageCtrlEnable 1) up

/-- That state with region `r` held in reset, so that its pages are dark. -/
def held (r : Nat) : State := up.setRegion r 1

/-- A state with the CORE page enabled. -/
def fwOn (s : State) : State := s.setFld pgCORE HDR.pageCtrlEnable 1

/-- Page `p` in soft reset. -/
def softly (p : Nat) : State := up.setFld p HDR.pageCtrlSoftReset 1

/-- Tree A in mode `m`, its machine, the cores and some pages enabled. -/
def atM (m : Nat) (ps : List Nat) : State := (en (pgACT .a :: pgCORE :: ps)).setFld (pgACT .a) ACT.modeMode m

/-- Bytes 0. -/
def z (n : Nat) : Bytes := List.replicate n 0#8

/-- A TMC request of type `k` to every terminal, without authentication, with a body. -/
def msgB (k : Nat) (b : Bytes) : TmcIn :=
  ⟨[0xFF#8, 0xFF#8, BitVec.ofNat 8 k, 0#8, 0#8, 1#8] ++ natBE 2 b.length ++ b⟩

/-- The same with a body of zeros. -/
def msg (k n : Nat) : TmcIn := msgB k (z n)

/-- Tree A with a burst selected. -/
def burstReady : State :=
  (((((en [pgTX .a]).modTxs .a (fun x => { x with clockForce := false })).setFld (pgTX .a) TX.statusEffectivePolicy 1).setTf
    (pgGRT .a) 0 3 0 26 26 1).setTf (pgGRT .a) 0 3 3 22 21 1).modGrts .a (fun g => { g with spans := [(3, (100, 200, 0))] })

/-- The halyard unit of tree A enabled, and with transmit jobs. -/
def halW : State := en [pgHAL .a]
def halJobs (js : List HalJob) : State := halW.modHals .a (fun h => { h with jobs := js })

/-- Bytes and the CRC-16 over them. -/
def crcd (bs : Bytes) : Bytes := bs ++ natBE 2 (crc16 bs)

/-- Some pages enabled and something in the store. -/
def sto (f : StoSt → StoSt) (ps : List Nat) : State := (en ps).modSto f

/-- Core ring 1 enabled with buffers posted. -/
def coreRing (s : State) : State :=
  ((s.setTf pgCORE 1 1 1 0 0 1).setTf pgCORE 1 1 1 12 5 8).setTf pgCORE 1 1 2 15 0 5

/-- UNI port `p` enabled in mode 1. -/
def portM (p : Nat) (ps : List Nat) : State :=
  ((en (pgUNIQ p :: pgLANE :: ps)).setFld (pgUNIQ p) (slotFld p UNIQ.portCfgEnable) 1).setFld (pgUNIQ p)
    (slotFld p UNIQ.portCfgMode) 1

/-- Tree A Parked with a tenant's queue above its threshold. -/
def needTree : State :=
  ((((atM 5 [pgUSCH, pgDUAL]).setTf (pgACT .a) 1 0 0 16 16 1).setTf (pgACT .a) 1 0 1 31 16 1).setTf (pgACT .a) 0 0 0 0 0 1).modSto
    (fun x => { x with lists := [(0, [{ frame := 5, queue := 0, length := 640000 }])] })

/-- Task 0 ready, cores 0 to 7 permitted; and a core's run. -/
def coreW : State :=
  (((en [pgTSK, pgCORE]).putTw pgTSK 0 0 0 0xFF01#32).setTf pgTSK 1 0 1 2 0 1).modTsk (fun t => { t with ready := [0] })
def runs (r : CoreRun) : State := coreW.modCore (fun x => { x with cores := [(2, r)] })

/-- Function 0 served; a transmit ring, a receive ring in a state; a frame in progress on the transmit ring. -/
def fnOn : State :=
  ((en [pgHIF, pgDMA, pgSTO, pgSWC, pgDSCH]).modFn 0 (fun x => { x with busMaster := true })).setTf pgDMA 0 0 0 31 31 1
def txW (st : Nat) : State :=
  (fnOn.setFld (fnPage 0) (ringFld false 3 RING.ctrlState) st).setFld (fnPage 0) (ringFld false 3 RING.tailTail) 5
def rxW (st : Nat) : State :=
  (fnOn.setFld (fnPage 0) (ringFld true 0 RING.ctrlState) st).setFld (fnPage 0) (ringFld true 0 RING.tailTail) 5
def jobW (j : TxJob) : State := (txW 1).modRing 0 false 3 (fun r => { r with job := some j })

/-- A domain's state and policy. -/
def kp (d st : Nat) (s : State) : State :=
  s.setFld pgKEEP (if d < 16 then ⟨0x038, 2 * d + 1, 2 * d⟩ else ⟨0x03C, 2 * (d - 16) + 1, 2 * (d - 16)⟩) st
def kpol (d v : Nat) (s : State) : State :=
  s.setFld pgKEEP (if d < 16 then ⟨0x030, 2 * d + 1, 2 * d⟩ else ⟨0x034, 2 * (d - 16) + 1, 2 * (d - 16)⟩) v

/-- A Punty transfer in a state, a contained region, a good clock candidate. -/
def pun (v : Nat) : State := (en [pgCORE, pgFLSH]).setFld pgCORE CORE.puntyState v
def cause (r c : Nat) : State := up.modRel (fun x => { x with cause := [(r, c)] })
def clkG (k : Nat) : State := up.setFld pgCLK ⟨0x030, 16 + k - 1, 16 + k - 1⟩ 1

/-- Tree A's control receiver locked, with a good clock. -/
def ck (s : State) : State :=
  (((((((s.setFld (pgRX .a0) HDR.pageCtrlEnable 1).setFld (pgFRM .a0) HDR.pageCtrlEnable 1).setFld (pgRX .a0) RX.statusAcqState 7).setFld
    (pgFRM .a0) FRM.stateHdrState 2).setFld (pgFRM .a0) FRM.stateControl 1).setFld pgCLK ⟨0x030, 16, 16⟩ 1).setFld pgCLK
    CLK.statusTreeA 1)

/-- A downstream frame header with frame counter 0, and the headers of a data and a TMC fragment. -/
def frameHead : Bytes := crcd ((natBE 4 0x7E1DC4A9) ++ z 16 ++ [0x10#8] ++ z 9)
def dataHead : Bytes := crcd [1#8, 0#8, 1#8, 0x40#8, 4#8, 0x80#8]
def tmcHead : Bytes := crcd [0#8, 0#8, 0#8, 0x80#8, 8#8, 0xC0#8]

/-- A framer in SYNC inside the payload of a fragment with header `h`; inside a grant map; and the same for an allocation it serves. -/
def frs (h : Bytes) : State :=
  ((((en [pgRX .a0, pgFRM .a0]).setFld (pgRX .a0) RX.statusAcqState 7).setFld (pgFRM .a0) FRM.stateHdrState 2).setFld (pgFRM .a0)
    FRM.stateFragState 2).modFrms .a0 (fun x => { x with cur := some ⟨h, 5, false, 0, 10000⟩, frameOk := true })
def mapIdle : State :=
  ((((en [pgRX .a0, pgFRM .a0]).setFld (pgRX .a0) RX.statusAcqState 7).setFld (pgFRM .a0) FRM.stateHdrState 2).setFld (pgGRT .a)
    HDR.pageCtrlEnable 1).modFrms .a0 (fun x => { x with mapOk := true, entriesLeft := 1 })
def mapOpen : State := (mapIdle.setFld (pgACT .a) ACT.modeMode 4).setTf (pgACT .a) 1 5 0 16 0 0x10007

/-- A protected and an unprotected fragment's header; a fragment that waits at the dual-homing unit; one on its way to be decrypted. -/
def protHead : Bytes := crcd [0x12#8, 0#8, 3#8, 0x40#8, 4#8, 0xF0#8]
def plainHead : Bytes := crcd [0x12#8, 0#8, 3#8, 0x40#8, 4#8, 0xB0#8]
def inb (m : Bool) (h : Bytes) (ps : List Nat) : State :=
  (en ps).modDual (fun d => { d with inbox := [⟨.a0, 7, h, z 4, [], m⟩] })
def secHead (k : Nat) : Bytes := crcd [3#8, 0#8, 1#8, BitVec.ofNat 8 k, 40#8, 0xC0#8]
def lfr (k : Nat) (p : Bytes) : LineFrag := ⟨.a0, 7, secHead k, p, [], false⟩
def psd (k : Nat) (p : Bytes) (s : State) : State := s.modDual (fun d => { d with passed := [lfr k p] })

/-- A host frame handed to the classifier. -/
def hostFrame : InFrame := ⟨7, 2, 0, 0, 1, 0, z 60, 64, none⟩

/-- A die-to-die link whose flits have failed, and a flit with its CRC. -/
def lkF (n : Nat) : State := up.modLink 2 (fun l => { l with fails := n })
def flitOf (seq : Nat) : Bytes :=
  let b : Bytes := [0#8, BitVec.ofNat 8 seq] ++ z 74
  b ++ natBE 4 (crc32cBytes 0xFFFFFFFF b ^^^ 0xFFFFFFFF)

/-! A syndrome has no more than one bit for each check. -/

theorem count_le (f : Nat → Bool) (l : List Nat) (n : Nat) : l.foldl (fun n k => n + b2n (f k)) n ≤ n + l.length := by
  induction l generalizing n with
  | nil => simp
  | cons a l ih =>
    have h := ih (n + b2n (f a))
    have : b2n (f a) ≤ 1 := by unfold b2n; split <;> omega
    simp only [List.foldl_cons, List.length_cons]; omega
theorem counts_le (g : Nat → Nat → Bool) (m : List Nat) (l : List Nat) (n : Nat) :
    l.foldl (fun n i => m.foldl (fun n k => n + b2n (g i k)) n) n ≤ n + l.length * m.length := by
  induction l generalizing n with
  | nil => simp
  | cons a l ih =>
    have h := ih (m.foldl (fun n k => n + b2n (g a k)) n)
    have := count_le (g a) m n
    simp only [List.foldl_cons, List.length_cons, Nat.succ_mul] at h ⊢; omega
theorem syndromeWeight_le (bits : List Bool) : syndromeWeight bits ≤ 12 * ldpcZDown := by
  have h := counts_le (fun i k => ldpcCheck ldpcZDown i k (ldpcColumns ldpcZDown bits)) (List.range ldpcZDown) (List.range 12) 0
  simpa [syndromeWeight] using h

/-! Hypotheses that are met: one theorem for each statement, its clauses in their order. -/

theorem witness_StepRunsFront : ∃ s : State, s.pending = [] := ⟨State.reset, rfl⟩

theorem witness_StepKeepsCanonical : ∃ s t : State, Canonical s ∧ step s = .next t :=
  ⟨State.reset, _, ⟨by decide, by decide, by decide, by decide, by decide, by decide, by decide, by decide, by decide⟩, rfl⟩

theorem witness_StepKeepsCounts : ∃ s t : State, CountsFit s ∧ step s = .next t :=
  ⟨State.reset, _, fun i => by show 0 < counterMod i; unfold counterMod; split <;> decide, rfl⟩

theorem witness_HeadersKept : ∃ (c : Instr) (s t : State), touchesHeader c = false ∧ exec c s = .next t :=
  ⟨.koscTrim 0, State.reset, _, rfl, rfl⟩

theorem witness_HoldsKept : ∃ (c : Instr) (s t : State), touchesHolds c = false ∧ exec c s = .next t :=
  ⟨.schedTick, State.reset, _, rfl, rfl⟩

theorem witness_VotesCorrect_scrub : ∃ s : State,
    (∀ c, noMajority (s.tf pgLSEC 0 c 0 3 2) (Sparse.get 3 s.lsec.sel1 c) (Sparse.get 3 s.lsec.sel2 c) = false) ∧
    (∀ x ∈ rwtRegs, ∀ w safe n, rwtVote x.1 x.2 = some (w, safe, n) → ∀ f ∈ voteFields w n x.2,
      noMajority (f.get (s.copy 0 x.1 x.2)) (f.get (s.copy 1 x.1 x.2)) (f.get (s.copy 2 x.1 x.2)) = false) := by
  refine ⟨{ State.reset with rf := {} }, fun c => ?_, fun x _ w safe n _ f _ => ?_⟩
  · have h : ∀ k, Sparse.get 3 (State.reset.lsec.sel1) k = 3 := fun _ => rfl
    have h' : ∀ k, Sparse.get 3 (State.reset.lsec.sel2) k = 3 := fun _ => rfl
    show noMajority _ (Sparse.get 3 (State.reset.lsec.sel1) c) (Sparse.get 3 (State.reset.lsec.sel2) c) = false
    rw [h, h']; simp [noMajority]
  · simp [noMajority, State.copy, Sparse.get]

theorem witness_DomainsCycle_wake : ∃ s : State, Ready s pgKEEP ∧ ∀ d, 10 ≤ d → d ≤ 12 → s.domState d = 1 := by
  refine ⟨(((State.reset.setFld pgD2D D2D.statusUp 7).setFld pgKEEP ⟨0x038, 21, 20⟩ 1).setFld pgKEEP ⟨0x038, 23, 22⟩ 1).setFld pgKEEP ⟨0x038, 25, 24⟩ 1,
    by unfold Ready; decide +kernel, fun d h1 h2 => ?_⟩
  obtain rfl | rfl | rfl : d = 10 ∨ d = 11 ∨ d = 12 := by omega
  all_goals decide +kernel

theorem witness_ViewsWrite :
    ∃ (s : State) (p : Nat) (acc : Access), (pageInfo p).isSome = true ∧ Ready s p ∧ acc.be = 15#4 :=
  ⟨up, pgCLS, (⟨.host, .set, 15#4, 0x5#32⟩ : Access), by unfold Ready; decide +kernel⟩

theorem witness_RefusedAccesses :
    (∃ (s : State) (p : Nat) (off : Nat) (acc : Access), (pageInfo p).isSome = true ∧ off < 0x1000 ∧ Ready s p ∧
    acc.be ≠ 15#4) ∧
    (∃ (s : State) (p : Nat), (pageInfo p).isSome = true ∧ s.dark p = true) ∧
    (∃ (s : State) (p : Nat), (pageInfo p).isSome = true ∧ s.dark p = true) ∧
    (∃ (s : State), Ready s pgSYS) :=
  ⟨⟨up, pgCLS, 0x030, (⟨.host, .normal, 7#4, 1#32⟩ : Access), by unfold Ready; decide +kernel⟩,
    ⟨(held 3 : State), pgCLS, by decide +kernel⟩,
    ⟨(held 3 : State), pgCLS, by decide +kernel⟩,
    ⟨up, by unfold Ready; decide +kernel⟩⟩

theorem witness_HeadersCommanded :
    (∃ (s : State), s.dark pgCNT = false ∧ Sparse.get none s.rf.latches (regKey pgCNT 0x050) = none) ∧
    (∃ (s : State) (p : Nat) (off : Nat) (v : Word), (pageInfo p).isSome = true ∧ s.dark p = false ∧ off ≠ 0x020 ∧
    rwtVote p off = none ∧ Sparse.get none s.rf.latches (regKey p off) = some v) ∧
    (∃ (s : State) (p : Nat), (pageInfo p).isSome = true ∧ s.dark p = false ∧
    Sparse.get none s.rf.latches (regKey p 0x018) = none) ∧
    (∃ (s : State) (p : Nat), (pageInfo p).isSome = true ∧ Ready s p) ∧
    (∃ (s : State) (p : Nat), (pageInfo p).isSome = true ∧ p ≠ pgSYS ∧ Ready s p) ∧
    (∃ (s : State) (tr : Tree), Ready s (pgACT tr)) ∧
    (∃ (s : State) (p : Nat), (pageInfo p).isSome = true ∧ s.flag p HDR.pageCtrlSoftReset = true) :=
  ⟨⟨up, by decide +kernel⟩,
    ⟨(up.modRf (fun r => { r with latches := Sparse.put none (regKey pgCNT 0x054) (some 9#32) r.latches }) : State), pgCNT,
    0x054, (9#32 : Word), by decide +kernel⟩,
    ⟨up, pgCLS, by decide +kernel⟩,
    ⟨up, pgCLS, by unfold Ready; decide +kernel⟩,
    ⟨up, pgCLS, by unfold Ready; decide +kernel⟩,
    ⟨up, .a, by unfold Ready; decide +kernel⟩,
    ⟨(softly pgCLS : State), pgCLS, by decide +kernel⟩⟩

theorem witness_PennantsRun :
    (∃ (s : State) (p : Nat) (b : Nat), (pageInfo p).isSome = true ∧ s.alive p = true ∧ b < 24) ∧
    (∃ (s : State) (p : Nat), (pageInfo p).isSome = true ∧ (s.pennant p).hold = true) ∧
    (∃ (s : State) (p : Nat) (v : Word), (pageInfo p).isSome = true ∧ Ready s p ∧
    HDR.pennantSequence.get v = s.fld p HDR.pennantSequence ∧ (s.pennant p).pend = false) ∧
    (∃ (s : State) (p : Nat) (v : Word), (pageInfo p).isSome = true ∧ Ready s p ∧
    (HDR.pennantSequence.get v ≠ s.fld p HDR.pennantSequence ∨ (s.pennant p).pend = true)) ∧
    (∃ (s : State) (p : Nat) (acc : Access), (pageInfo p).isSome = true ∧ Ready s p ∧ acc.be = 15#4) :=
  ⟨⟨up, pgCLS, 3, by decide +kernel⟩,
    ⟨(up.putPennant pgCLS { hold := true, pend := true } : State), pgCLS, by decide +kernel⟩,
    ⟨up, pgCLS, (1#32 : Word), by unfold Ready; decide +kernel⟩,
    ⟨up, pgCLS, (0xFF000000#32 : Word), by unfold Ready; decide +kernel⟩,
    ⟨up, pgCLS, (⟨.host, .normal, 15#4, 0x5#32⟩ : Access), by unfold Ready; decide +kernel⟩⟩

theorem witness_WindowsReadWrite :
    (∃ (s : State) (w : Window) (p : Nat) (acc : Access), (pageInfo p).isSome = true ∧ Ready s p ∧ acc.be = 15#4 ∧
    acc.view = .normal ∧ (s.win w p).staged = []) ∧
    (∃ (s : State) (w : Window) (p : Nat) (i : PageInfo) (ti : TableInfo), pageInfo p = some i ∧ Ready s p ∧
    s.winTarget w p = some ti ∧ ti.writes w = true ∧ s.entryOff i.blk (s.winEntry w p) = false ∧
    roWord i.blk (s.winTable w p) (s.winEntry w p) (s.winWord w p) = false ∧ s.winWord w p + 1 < ti.width) ∧
    (∃ (s : State) (w : Window), Ready s pgCLS ∧ s.winTable w pgCLS = 2 ∧ s.winEntry w pgCLS < 256 ∧
    s.winWord w pgCLS = 1) ∧
    (∃ (s : State) (w : Window), s.dark pgCLS = false ∧ s.winTable w pgCLS = 2 ∧ s.winEntry w pgCLS < 256 ∧
    s.winWord w pgCLS = 0) ∧
    (∃ (s : State) (w : Window) (p : Nat) (ti : TableInfo), (pageInfo p).isSome = true ∧ s.dark p = false ∧
    s.winTarget w p = some ti ∧ s.winWord w p ≠ 0 ∧ (s.win w p).held = some (s.winTable w p, s.winEntry w p)) ∧
    (∃ (s : State) (w : Window) (p : Nat), (pageInfo p).isSome = true ∧ s.dark p = false ∧ s.winTarget w p = none) :=
  ⟨⟨up, .host, pgCLS, (⟨.host, .normal, 15#4, 0x5#32⟩ : Access), by unfold Ready; decide +kernel⟩,
    ⟨((((up.setFld (winPage .host pgCLS) HDR.indirectCtrlTable 2).setFld (winPage .host pgCLS) HDR.indirectAddrEntry 5).setFld (winPage .host pgCLS) HDR.indirectAddrWord 0) : State),
    .host, pgCLS, ((pageInfo pgCLS).get rfl : PageInfo), ((tableInfo pgCLS 2).get rfl : TableInfo),
    by unfold Ready; decide +kernel⟩,
    ⟨((((up.setFld (winPage .host pgCLS) HDR.indirectCtrlTable 2).setFld (winPage .host pgCLS) HDR.indirectAddrEntry 5).setFld (winPage .host pgCLS) HDR.indirectAddrWord 1) : State),
    .host, by unfold Ready; decide +kernel⟩,
    ⟨((((up.setFld (winPage .host pgCLS) HDR.indirectCtrlTable 2).setFld (winPage .host pgCLS) HDR.indirectAddrEntry 5).setFld (winPage .host pgCLS) HDR.indirectAddrWord 0) : State),
    .host, by decide +kernel⟩,
    ⟨(((((up.setFld (winPage .host pgCLS) HDR.indirectCtrlTable 2).setFld (winPage .host pgCLS) HDR.indirectAddrEntry 5).setFld (winPage .host pgCLS) HDR.indirectAddrWord 1)).modWins (fun ws => Sparse.put {} (pgCLS * 2) { holding := [3#32, 4#32], held := some (2, 5) } ws) : State),
    .host, pgCLS, ((tableInfo pgCLS 2).get rfl : TableInfo), by decide +kernel⟩,
    ⟨(up.setFld (winPage .host pgCLS) HDR.indirectCtrlTable 7 : State), .host, pgCLS, by decide +kernel⟩⟩

theorem witness_VotesCorrect :
    (∃ (s : State) (tr : Tree) (a : Nat) (b : Nat) (c : Nat), s.dark (pgTX tr) = false ∧
    Sparse.get none s.rf.latches (regKey (pgTX tr) 0x03C) = none ∧ a = Fld.get ⟨0x03C, 1, 0⟩ (s.copy 0 (pgTX tr) 0x03C) ∧
    b = Fld.get ⟨0x03C, 1, 0⟩ (s.copy 1 (pgTX tr) 0x03C) ∧ c = Fld.get ⟨0x03C, 1, 0⟩ (s.copy 2 (pgTX tr) 0x03C) ∧
    noMajority a b c = false ∧ (¬ (a = b ∧ a = c))) :=
  ⟨(up.modRf (fun r => { r with copy1 := Sparse.put 0#32 (regKey (pgTX .a) 0x03C) 2#32 r.copy1 }) : State), .a, 0, 2, 0,
  by decide +kernel⟩

theorem witness_SnapCtrlMultiIgnored :
    ∃ (s : State) (v : Word), Ready s pgCNT ∧ [3, 5, 6, 7].contains (v.toNat % 8) = true :=
  ⟨up, (3#32 : Word), by unfold Ready; decide +kernel⟩

theorem witness_SnapArms :
    (∃ (s : State), Ready s pgCNT ∧ s.snapState = 0 ∧ s.snapLocked = false ∧
    (s.timeValid = false ∨ s.time.val + 10000 * unitsPerNs ≤ s.snapTarget * unitsPerNs)) ∧
    (∃ (s : State) (k : Nat), Ready s pgCNT ∧ ((k = 1 ∧ s.snapState ≠ 0) ∨ (k = 2 ∧ s.snapState = 0 ∧ s.timeValid = true ∧
    s.snapTarget * unitsPerNs < s.time.val + 10000 * unitsPerNs) ∨ (k = 3 ∧ s.snapState = 0 ∧ s.snapLocked = true ∧
    (s.timeValid = false ∨ s.time.val + 10000 * unitsPerNs ≤ s.snapTarget * unitsPerNs)))) :=
  ⟨⟨up, by unfold Ready; decide +kernel⟩,
    ⟨((up.setFld pgCNT CNT.snapStatusState 1) : State), 1, by unfold Ready; decide +kernel⟩⟩

theorem witness_SnapshotsTaken :
    (∃ (s : State), Ready s pgCNT ∧ s.snapState = 0 ∧ s.snapLocked = false) ∧
    (∃ (s : State), s.pending = [] ∧ s.snapState = 1 ∧ s.snap.due = none ∧ s.timeValid = true ∧ s.targetReached = false) ∧
    (∃ (s : State) (d : SnapDue), s.snapState = 1 ∧ s.snap.due = some d ∧ d.late = false) ∧
    (∃ (s : State), s.snapState = 1 ∧ s.timeValid = true ∧ s.targetReached = true ∧ s.snap.due = none) ∧
    (∃ (s : State), Ready s pgCNT ∧ s.snapState = 1 ∧ s.snap.due = none) ∧
    (∃ (s : State), Ready s pgCNT ∧ (s.snapState = 2 ∨ (s.snapState = 1 ∧ s.snap.due.isSome = true))) ∧
    (∃ (s : State) (k : Nat) (u : CUnit), s.snapState = 2 ∧ counterUnits[k]? = some u) ∧
    (∃ (s : State), s.snapState = 2) :=
  ⟨⟨up, by unfold Ready; decide +kernel⟩,
    ⟨((((up.setFld pgCNT CNT.snapStatusState 1).setFld pgTIME TIME.statusValid 1).modSnap (fun x => { x with target := 5 })).modTime (fun x => { x with val := 5 * unitsPerNs - 1 }) : State),
    by decide +kernel⟩,
    ⟨(((up.setFld pgCNT CNT.snapStatusState 1).setFld pgTIME TIME.statusValid 1).modSnap (fun x => { x with due := some ⟨false, 9 * unitsPerNs, [(3, 4)], []⟩ }) : State),
    (⟨false, 9 * unitsPerNs, [(3, 4)], []⟩ : SnapDue), by decide +kernel⟩,
    ⟨(((up.setFld pgCNT CNT.snapStatusState 1).setFld pgTIME TIME.statusValid 1).modTime (fun x => { x with val := 5 * unitsPerNs }) : State),
    by decide +kernel⟩,
    ⟨((up.setFld pgCNT CNT.snapStatusState 1) : State), by unfold Ready; decide +kernel⟩,
    ⟨((up.setFld pgCNT CNT.snapStatusState 2) : State), by unfold Ready; decide +kernel⟩,
    ⟨((up.setFld pgCNT CNT.snapStatusState 2) : State), 0, (⟨0, 6, pgRX .a0⟩ : CUnit), by decide +kernel⟩,
    ⟨((up.setFld pgCNT CNT.snapStatusState 2) : State), by decide +kernel⟩⟩

theorem witness_ReceiverStartsStops :
    (∃ (s : State) (r : Rx), Ready s (pgRX r) ∧ s.enabled (pgRX r) = false ∧ s.rxHeld r = false ∧ s.rxConfigOk r = true) ∧
    (∃ (s : State) (r : Rx), Ready s (pgRX r) ∧ s.enabled (pgRX r) = false ∧ s.rxHeld r = false ∧ s.rxConfigOk r = false) ∧
    (∃ (s : State) (r : Rx), Ready s (pgRX r) ∧ s.enabled (pgRX r) = true) :=
  ⟨⟨(up.setFld (pgRX .a0) OFE.pinsPresent 1 : State), .a0, by unfold Ready; decide +kernel⟩,
    ⟨((up.setFld (pgRX .a0) ⟨0x030, 15, 0⟩ 0x7FFF) : State), .a0, by unfold Ready; decide +kernel⟩,
    ⟨(en [pgRX .a0] : State), .a0, by unfold Ready; decide +kernel⟩⟩

theorem witness_ReceiverAcquires :
    (∃ (s : State) (r : Rx), s.works (pgRX r) = true ∧ s.acq r ≠ 0 ∧ s.flag (pgRX r) RX.statusSigPresent = false) ∧
    (∃ (s : State) (r : Rx), s.works (pgRX r) = true ∧ s.flag (pgRX r) RX.statusSigPresent = true) ∧
    (∃ (s : State) (r : Rx), s.works (pgRX r) = true ∧ s.locked r = true) ∧
    (∃ (s : State) (r : Rx) (res : AcqResult), s.works (pgRX r) = true ∧ s.flag (pgRX r) RX.statusSigPresent = true ∧
    s.acq r = acqPhase res ∧ s.acqHolds r res = true) ∧
    (∃ (s : State) (r : Rx) (fc : Nat) (syms : List (List Int)), s.flag (pgRX r) RX.laneFixUseForced = false ∧
    findLanes fc syms = none) ∧
    (∃ (s : State) (r : Rx), s.works (pgRX r) = true ∧ s.fld (pgRX r) RX.acqTimeout ≠ 0 ∧ s.acq r ≠ 0 ∧
    s.locked r = false) :=
  ⟨⟨((en [pgRX .a0]).setFld (pgRX .a0) RX.statusAcqState 1 : State), .a0, by decide +kernel⟩,
    ⟨((en [pgRX .a0]).setFld (pgRX .a0) RX.statusSigPresent 1 : State), .a0, by decide +kernel⟩,
    ⟨((en [pgRX .a0]).setFld (pgRX .a0) RX.statusAcqState 7 : State), .a0, by decide +kernel⟩,
    ⟨((en [pgRX .a0]).setFld (pgRX .a0) RX.statusSigPresent 1 |>.setFld (pgRX .a0) RX.statusAcqState 6 |>.setFld (pgRX .a0) RX.laneFixUseForced 1 : State),
    .a0, (.pilot 5 [] : AcqResult), by decide +kernel⟩,
    ⟨up, .a0, 0, ([] : List (List Int)), by decide +kernel⟩,
    ⟨((en [pgRX .a0]).setFld (pgRX .a0) RX.statusAcqState 2 : State), .a0, by decide +kernel⟩⟩

theorem witness_ReceiverRuns :
    (∃ (s : State) (r : Rx), s.works (pgRX r) = true ∧ s.locked r = true) ∧
    (∃ (s : State) (r : Rx), s.works (pgRX r) = true ∧ s.locked r = true) ∧
    (∃ (s : State) (r : Rx), s.works (pgRX r) = true ∧ s.locked r = true) ∧
    (∃ (s : State) (r : Rx) (lane : Nat), s.works (pgRX r) = true ∧ s.locked r = true ∧ (∀ x,
    (s.rxs r).adaptAt = some x → x + 10 * symPerMs ≤ s.now) ∧ lane < (s.rxs r).lanes.length) :=
  ⟨⟨((en [pgRX .a0]).setFld (pgRX .a0) RX.statusAcqState 7 : State), .a0, by decide +kernel⟩,
    ⟨((en [pgRX .a0]).setFld (pgRX .a0) RX.statusAcqState 7 : State), .a0, by decide +kernel⟩,
    ⟨((en [pgRX .a0]).setFld (pgRX .a0) RX.statusAcqState 7 : State), .a0, by decide +kernel⟩,
    ⟨((en [pgRX .a0]).setFld (pgRX .a0) RX.statusAcqState 7 : State), .a0, 2, by decide +kernel⟩⟩

theorem witness_TransmitterDrives :
    (∃ (s : State) (tr : Tree), Ready s (pgTX tr) ∧ s.enabled (pgTX tr) = true) ∧
    (∃ (s : State) (tr : Tree), s.startsNext tr = true) ∧
    (∃ (s : State) (tr : Tree), s.effPolicy tr ≠ 3 ∧ s.grantFollows tr = false) ∧
    (∃ (s : State) (tr : Tree), s.effPolicy tr ≠ 3 ∧ (s.txs tr).burst = none ∧ (s.txs tr).halSlot = none ∧
    (s.txs tr).lastEnd + s.fld (pgTX tr) TX.prepHoldHold ≤ s.now) ∧
    (∃ (s : State) (tr : Tree), Ready s (pgTX tr) ∧ s.works (pgTX tr) = false ∧ s.effPolicy tr = 0 ∧
    (s.txs tr).laneDue = none) ∧
    (∃ (s : State) (tr : Tree), (s.txs tr).clockForce = false) ∧
    (∃ (s : State) (tr : Tree), Ready s (pgTX tr) ∧
    (s.flag (pgTX tr) TX.statusClockOk && decide ((s.txs tr).clockOkSince + symPerMs ≤ s.now)) = false) ∧
    (∃ (s : State) (tr : Tree), Ready s (pgTX tr) ∧ s.works (pgTX tr) = false ∧ s.effPolicy tr = 0 ∧
    s.flag (pgTX tr) TX.statusClockOk = true ∧ (s.txs tr).clockOkSince + symPerMs ≤ s.now ∧ (s.txs tr).laneDue = none) ∧
    (∃ (s : State) (tr : Tree), s.alive (pgTX tr) = true) ∧
    (∃ (s : State) (tr : Tree) (sign : RogueSign) (cause : Nat), s.alive (pgTX tr) = true ∧
    s.rogueCause tr sign = some cause) :=
  ⟨⟨(en [pgTX .a] : State), .a, by unfold Ready; decide +kernel⟩,
    ⟨burstReady, .a, by decide +kernel⟩,
    ⟨up, .a, by decide +kernel⟩,
    ⟨(up.modNow (fun _ => 1000000) : State), .a, by decide +kernel⟩,
    ⟨up, .a, by unfold Ready; decide +kernel⟩,
    ⟨(up.modTxs .a (fun x => { x with clockForce := false }) : State), .a, by decide +kernel⟩,
    ⟨up, .a, by unfold Ready; decide +kernel⟩,
    ⟨(((up.setFld (pgTX .a) TX.statusClockOk 1).modNow (fun _ => symPerMs)).modTxs .a (fun x => {x with clockForce := true}) : State),
    .a, by unfold Ready; decide +kernel⟩,
    ⟨up, .a, by decide +kernel⟩,
    ⟨up, .a, .light, 3, by decide +kernel⟩⟩

theorem witness_BurstsRun :
    (∃ (s : State) (tr : Tree) (i : Nat), s.works (pgTX tr) = true ∧ s.burstsAllowed tr = true ∧ s.forced tr = false ∧
    (s.txs tr).burst = none ∧ s.nextBurst tr = some i) ∧
    (∃ (s : State) (tr : Tree) (b : Burst), (s.txs tr).burst = some b) :=
  ⟨⟨burstReady, .a, 3, by decide +kernel⟩,
    ⟨(burstReady.modTxs .a (fun x => {x with burst := some ⟨3, 100, 200, false, 1, 0⟩}) : State), .a, (⟨3, 100, 200, false,
    1, 0⟩ : Burst), by decide +kernel⟩⟩

theorem witness_OfeManagement :
    (∃ (s : State) (o : Ofe), Ready s (pgOFE o) ∧ s.flag (pgOFE o) OFE.i2cStatusBusy = false) ∧
    (∃ (s : State) (o : Ofe), Ready s (pgOFE o) ∧ s.flag (pgOFE o) OFE.i2cStatusBusy = true) ∧
    (∃ (s : State) (o : Ofe), s.alive (pgOFE o) = true ∧ s.flag (pgOFE o) OFE.i2cStatusBusy = true) ∧
    (∃ (s : State) (o : Ofe), s.alive (pgOFE o) = true ∧ s.flag (pgOFE o) OFE.i2cStatusBusy = true) ∧
    (∃ (s : State) (o : Ofe), s.alive (pgOFE o) = true ∧ s.padOpen (6 * ofeIx o + 2) = false) ∧
    (∃ (s : State) (o : Ofe) (r : Rx), ofeRx o = some r ∧ s.padOpen (6 * ofeIx o + 3) = false ∧ s.works (pgRX r) = true ∧
    s.rxHeld r = false) ∧
    (∃ (s : State) (o : Ofe) (r : Rx), ofeRx o = some r ∧ s.padOpen (6 * ofeIx o + 3) = false ∧ s.works (pgRX r) = true ∧
    s.rxHeld r = false ∧ downChannelOk (s.sfld (pgRX r) RX.cfgChannel) = true ∧ s.acq r = 0) ∧
    (∃ (s : State) (o : Ofe) (tr : Tree), ofeRx o = none ∧ tr = ofeTree o ∧ s.padOpen (6 * ofeIx o + 3) = false ∧
    s.works (pgTX tr) = true) :=
  ⟨⟨up, .a0, by unfold Ready; decide +kernel⟩,
    ⟨(((en [pgRX .a0, pgTX .a]).setFld (pgOFE .a0) OFE.i2cStatusBusy 1) : State), .a0, by unfold Ready; decide +kernel⟩,
    ⟨(((en [pgRX .a0, pgTX .a]).setFld (pgOFE .a0) OFE.i2cStatusBusy 1) : State), .a0, by decide +kernel⟩,
    ⟨(((en [pgRX .a0, pgTX .a]).setFld (pgOFE .a0) OFE.i2cStatusBusy 1) : State), .a0, by decide +kernel⟩,
    ⟨up, .a0, by decide +kernel⟩,
    ⟨(en [pgRX .a0, pgTX .a] : State), .a0, .a0, by decide +kernel⟩,
    ⟨(en [pgRX .a0, pgTX .a] : State), .a0, .a0, by decide +kernel⟩,
    ⟨(en [pgTX .a] : State), .ta, .a, by decide +kernel⟩⟩

theorem witness_FramerRuns :
    (∃ (s : State) (r : Rx), Ready s (pgFRM r) ∧ s.enabled (pgFRM r) = false ∧ s.unitContained (pgFRM r) 0 = false ∧
    s.locked r = false ∧ s.los r = false) ∧
    (∃ (s : State) (r : Rx), Ready s (pgFRM r) ∧ s.enabled (pgFRM r) = true) ∧
    (∃ (s : State) (r : Rx) (bits : List Bool), s.works (pgFRM r) = true ∧ s.locked r = true ∧ s.alignSt r = 0 ∧
    syndromeWeight (s.rxBits r bits) ≤ (s.alignWeights r).1) ∧
    (∃ (s : State) (r : Rx) (bits : List Bool), s.works (pgFRM r) = true ∧ s.locked r = true ∧ s.alignSt r = 1 ∧
    syndromeWeight (s.rxBits r bits) ≤ (s.alignWeights r).1 ∧
    s.frmCount r FRM.huntCntAlignConfirm ≤ (s.frms r).alignRun + 1) ∧
    (∃ (s : State) (r : Rx), s.works (pgFRM r) = true ∧ s.locked r = true ∧ s.alignSt r = 2 ∧ s.hdrSt r = 0 ∧
    (frameHdr ((s.frms r).block.take 32)).valid = true) ∧
    (∃ (s : State) (r : Rx), s.works (pgFRM r) = true ∧ s.locked r = true ∧ s.alignSt r = 2 ∧ s.hdrSt r = 1 ∧
    (frameHdr ((s.frms r).block.take 32)).valid = true ∧
    (frameHdr ((s.frms r).block.take 32)).counter = (s.frms r).predicted ∧
    s.frmCount r FRM.huntCntHdrConfirm ≤ (s.frms r).hdrRun + 1) ∧
    (∃ (s : State) (r : Rx) (pos : Nat) (bs : Bytes), s.works (pgFRM r) = true ∧ s.hdrSt r ≠ 0 ∧
    s.fragHeld r (s.frms r).frameFc = false ∧ s.fragSt r = 2 ∧ pos = (s.frms r).next ∧ hcsOk bs = true) ∧
    (∃ (s : State) (r : Rx) (pos : Nat) (bs : Bytes), s.works (pgFRM r) = true ∧ s.hdrSt r ≠ 0 ∧
    s.fragHeld r (s.frms r).frameFc = false ∧ s.fragSt r = 2 ∧ pos = (s.frms r).next ∧ hcsOk bs = false ∧
    correctHdr bs = none) ∧
    (∃ (s : State) (r : Rx), s.works (pgFRM r) = true ∧ s.los r = true ∧ s.locked r = true ∧
    s.framesPassed (s.rxs r).lockedAt (s.fld (pgFRM r) FRM.defTimeLosClear) = true) ∧
    (∃ (s : State) (r : Rx), s.works (pgFRM r) = true ∧ s.los r = false ∧ s.lof r = false ∧ s.hdrSt r ≠ 2 ∧
    s.framesPassed (s.frms r).lofFrom (s.fld (pgFRM r) FRM.defTimeLofSet) = true) ∧
    (∃ (s : State) (r : Rx), s.works (pgFRM r) = true ∧ s.los r = false ∧ s.lof r = true ∧ s.hdrSt r = 2 ∧
    s.framesPassed (s.frms r).syncAt (s.fld (pgFRM r) FRM.defTimeLofClear) = true) ∧
    (∃ (s : State) (r : Rx), s.frmDelivers r = true ∧ s.mode (rxTree r) ≠ 5 ∧ (s.frms r).winOpen = true ∧
    (s.frms r).frameFc % s.windowFrames r = 0 ∧ s.flag (pgFRM r) FRM.defectSd = false ∧ (s.frms r).thr.1 = 0 ∧
    s.frmCount r FRM.defCfgSdSetWin ≤ (s.frms r).sdSetRun + 1) ∧
    (∃ (s : State) (r : Rx), s.frmDelivers r = true ∧ s.mode (rxTree r) ≠ 5 ∧ (s.frms r).winOpen = false ∧
    (s.frms r).frameFc % s.windowFrames r = 0) ∧
    (∃ (s : State) (r : Rx) (bs : Bytes), s.frmDelivers r = true ∧ (s.frms r).mapOk = true ∧ (s.frms r).entriesLeft ≠ 0 ∧
    (grantEntry bs).accepted = false) ∧
    (∃ (s : State) (r : Rx) (bs : Bytes), s.frmDelivers r = true ∧ (s.frms r).mapOk = true ∧ (s.frms r).entriesLeft ≠ 0 ∧
    (grantEntry bs).accepted = true ∧ s.works (pgGRT (rxTree r)) = true ∧
    s.localIndex (rxTree r) (grantEntry bs).alloc = none) ∧
    (∃ (s : State) (r : Rx) (bs : Bytes) (a : Nat), s.frmDelivers r = true ∧ (s.frms r).mapOk = true ∧
    (s.frms r).entriesLeft ≠ 0 ∧ (grantEntry bs).accepted = true ∧ s.works (pgGRT (rxTree r)) = true ∧
    s.localIndex (rxTree r) (grantEntry bs).alloc = some a ∧ s.grantUsed (rxTree r) a = true ∧
    s.overlapsPending (rxTree r) (grantSpan (s.frms r).tF (s.eqdFor (rxTree r) (s.frms r).frameFc) (grantEntry bs).start (grantEntry bs).length) = false ∧
    (∃ k, k < 1024 ∧ s.pendValid (rxTree r) k = false) ∧ (s.hals (rxTree r)).jobs = []) ∧
    (∃ (s : State) (r : Rx) (c : FragCur), s.frmDelivers r = true ∧ s.fragSt r = 2 ∧ (s.frms r).cur = some c ∧
    (fragHdr c.hdr).kind = 0) ∧
    (∃ (s : State) (r : Rx) (c : FragCur), s.frmDelivers r = true ∧ s.fragSt r = 2 ∧ (s.frms r).cur = some c ∧
    (fragHdr c.hdr).kind = 1 ∧ (fragHdr c.hdr).length ≠ 0 ∧ (s.frms r).payloadBad c (fragHdr c.hdr).length = true) ∧
    (∃ (s : State) (r : Rx) (c : FragCur), s.frmDelivers r = true ∧ s.fragSt r = 2 ∧ (s.frms r).cur = some c ∧
    (fragHdr c.hdr).kind = 1 ∧ (fragHdr c.hdr).length ≠ 0 ∧ (s.frms r).payloadBad c (fragHdr c.hdr).length = false) ∧
    (∃ (s : State) (r : Rx) (c : FragCur), s.frmDelivers r = true ∧ s.fragSt r = 2 ∧ (s.frms r).cur = some c ∧
    (fragHdr c.hdr).kind = 2 ∧ (fragHdr c.hdr).last = true ∧ 1 ≤ (fragHdr c.hdr).length ∧ (fragHdr c.hdr).length ≤ 2048 ∧
    s.flag (pgFRM r) FRM.stateControl = true ∧ c.wrong = false ∧ (s.frms r).payloadBad c (fragHdr c.hdr).length = false) :=
  ⟨⟨up, .a0, by unfold Ready; decide +kernel⟩,
    ⟨(en [pgFRM .a0] : State), .a0, by unfold Ready; decide +kernel⟩,
    ⟨(((en [pgRX .a0,
    pgFRM .a0]).setFld (pgRX .a0) RX.statusAcqState 7) |>.setFld (pgFRM .a0) FRM.alignAcceptWeight 4320 |>.setFld (pgFRM .a0) FRM.alignRejectWeight 8000 : State),
    .a0, ([] : List Bool), by decide +kernel, by decide +kernel, by decide +kernel,
    Nat.le_trans (syndromeWeight_le []) (by decide +kernel)⟩,
    ⟨((((en [pgRX .a0,
    pgFRM .a0]).setFld (pgRX .a0) RX.statusAcqState 7) |>.setFld (pgFRM .a0) FRM.stateAlignState 1 |>.setFld (pgFRM .a0) FRM.alignAcceptWeight 4320 |>.setFld (pgFRM .a0) FRM.alignRejectWeight 8000).modFrms .a0 (fun x => {x with alignRun := 15}) : State),
    .a0, ([] : List Bool), by decide +kernel, by decide +kernel, by decide +kernel,
    Nat.le_trans (syndromeWeight_le []) (by decide +kernel), by decide +kernel⟩,
    ⟨((((en [pgRX .a0,
    pgFRM .a0]).setFld (pgRX .a0) RX.statusAcqState 7) |>.setFld (pgFRM .a0) FRM.stateAlignState 2).modFrms .a0 (fun x => {x with block := frameHead}) : State),
    .a0, by decide +kernel⟩,
    ⟨((((en [pgRX .a0,
    pgFRM .a0]).setFld (pgRX .a0) RX.statusAcqState 7) |>.setFld (pgFRM .a0) FRM.stateAlignState 2 |>.setFld (pgFRM .a0) FRM.stateHdrState 1).modFrms .a0 (fun x => {x with hdrRun := 15, block := frameHead}) : State),
    .a0, by decide +kernel⟩,
    ⟨((((en [pgRX .a0,
    pgFRM .a0]).setFld (pgRX .a0) RX.statusAcqState 7) |>.setFld (pgFRM .a0) FRM.stateHdrState 2 |>.setFld (pgFRM .a0) FRM.stateFragState 2) : State),
    .a0, 0, (crcd [1#8, 0#8, 1#8, 0x40#8, 4#8, 0x80#8] : Bytes), by decide +kernel⟩,
    ⟨((((en [pgRX .a0,
    pgFRM .a0]).setFld (pgRX .a0) RX.statusAcqState 7) |>.setFld (pgFRM .a0) FRM.stateHdrState 2 |>.setFld (pgFRM .a0) FRM.stateFragState 2) : State),
    .a0, 0, ([1#8, 2#8, 3#8, 4#8, 5#8, 6#8, 7#8, 8#8] : Bytes), by decide +kernel⟩,
    ⟨((((en [pgRX .a0,
    pgFRM .a0]).setFld (pgRX .a0) RX.statusAcqState 7) |>.setFld (pgFRM .a0) FRM.defectLos 1).modNow (fun _ => 1000000000000) : State),
    .a0, by decide +kernel⟩,
    ⟨(((en [pgRX .a0, pgFRM .a0]).setFld (pgRX .a0) RX.statusAcqState 7).modNow (fun _ => 1000000000000) : State), .a0,
    by decide +kernel⟩,
    ⟨((((en [pgRX .a0,
    pgFRM .a0]).setFld (pgRX .a0) RX.statusAcqState 7) |>.setFld (pgFRM .a0) FRM.defectLof 1 |>.setFld (pgFRM .a0) FRM.stateHdrState 2).modNow (fun _ => 1000000000000) : State),
    .a0, by decide +kernel⟩,
    ⟨((((en [pgRX .a0,
    pgFRM .a0]).setFld (pgRX .a0) RX.statusAcqState 7) |>.setFld (pgFRM .a0) FRM.stateHdrState 2).modFrms .a0 (fun x => {x with winOpen := true, sdSetRun := 15, thr := (0, 1, 2, 3), frameOk := true}) : State),
    .a0, by decide +kernel⟩,
    ⟨((((en [pgRX .a0,
    pgFRM .a0]).setFld (pgRX .a0) RX.statusAcqState 7) |>.setFld (pgFRM .a0) FRM.stateHdrState 2).modFrms .a0 (fun x => {x with frameOk := true}) : State),
    .a0, by decide +kernel⟩,
    ⟨((((en [pgRX .a0,
    pgFRM .a0]).setFld (pgRX .a0) RX.statusAcqState 7) |>.setFld (pgFRM .a0) FRM.stateHdrState 2).modFrms .a0 (fun x => {x with mapOk := true, entriesLeft := 2}) : State),
    .a0, (z 12 : Bytes), by decide +kernel⟩,
    ⟨mapIdle, .a0, (crcd ([0#8, 7#8, 0#8, 0x10#8, 0#8, 0#8, 0x10#8, 0#8, 0#8, 0#8]) : Bytes), by decide +kernel⟩,
    ⟨mapOpen, .a0, (crcd ([0#8, 7#8, 0#8, 0x10#8, 0#8, 0#8, 0x10#8, 0#8, 0#8, 0#8]) : Bytes), 5, by decide +kernel,
    by decide +kernel, by decide +kernel, by decide +kernel, by decide +kernel, by decide +kernel, by decide +kernel,
    by decide +kernel, ⟨0, by decide +kernel⟩, by decide +kernel⟩,
    ⟨((frs (crcd (z 6))) : State), .a0, (⟨crcd (z 6), 5, false, 0, 10000⟩ : FragCur), by decide +kernel⟩,
    ⟨((frs (dataHead)).modFrms .a0 (fun x => { x with badCws := [0] }) : State), .a0, (⟨dataHead, 5, false, 0, 10000⟩ : FragCur),
    by decide +kernel⟩,
    ⟨((frs (dataHead)) : State), .a0, (⟨dataHead, 5, false, 0, 10000⟩ : FragCur), by decide +kernel⟩,
    ⟨((frs (tmcHead)).setFld (pgFRM .a0) FRM.stateControl 1 : State), .a0, (⟨tmcHead, 5, false, 0, 10000⟩ : FragCur),
    by decide +kernel⟩⟩

theorem witness_PerformanceBins :
    (∃ (s : State), s.alive pgPM = true) ∧
    (∃ (s : State) (r : Rx), s.works pgPM = true ∧ (s.pm.began.get r).1 < 33 ∧ (s.pm.began.get r).2 < 2) ∧
    (∃ (s : State) (day : Bool), s.alive pgPM = true ∧ s.timeValid = true ∧ s.pmDue day ≠ 0) ∧
    (∃ (s : State) (day : Bool) (slot : Nat), s.alive pgPM = true ∧ slot < pmSlots day ∧ slot ≠ s.pmSlot day) ∧
    (∃ (s : State), Ready s pgPM ∧ s.enabled pgPM = true) :=
  ⟨⟨up, by decide +kernel⟩,
    ⟨(en [pgPM] : State), .a0, by decide +kernel⟩,
    ⟨(((en [pgPM]).setFld pgTIME TIME.statusValid 1).modTime (fun x => {x with val := 1900 * 10 ^ 9 * unitsPerNs}) : State),
    false, by decide +kernel⟩,
    ⟨up, false, 2, by decide +kernel⟩,
    ⟨(en [pgPM] : State), by unfold Ready; decide +kernel⟩⟩

theorem witness_HalyardReceives :
    (∃ (s : State) (tr : Tree), s.halWorks tr = true ∧ s.flag (pgHAL tr) HAL.statusRxActive = true ∧
    s.flag (pgHAL tr) HAL.statusAgcFrozen = false) ∧
    (∃ (s : State) (tr : Tree) (x : HalRx), (s.hals tr).rx = some x) ∧
    (∃ (s : State) (tr : Tree) (x : HalRx), (s.hals tr).rx = some x) ∧
    (∃ (s : State) (tr : Tree) (x : HalRx), (s.hals tr).rx = some x) ∧
    (∃ (s : State) (tr : Tree) (syms : List Nat) (bs : Bytes) (fc : Nat) (ofs : Nat) (kind : Nat) (plen : Nat),
    bs = symsBytes syms ∧ (s.hals tr).rx = some { fc := fc, ofs := ofs, header := some (kind, plen) }) ∧
    (∃ (s : State) (tr : Tree), s.flag (pgHAL tr) HAL.statusAgcFrozen = true) ∧
    (∃ (s : State) (tr : Tree), s.halWorks tr = true ∧ s.flag (pgHAL tr) HAL.statusRxSync = true) :=
  ⟨⟨(halW.setFld (pgHAL .a) HAL.statusRxActive 1 : State), .a, by decide +kernel⟩,
    ⟨((halW.modHals .a (fun h => { h with rx := some {} })) : State), .a, ({} : HalRx), by decide +kernel⟩,
    ⟨((halW.modHals .a (fun h => { h with rx := some {} })) : State), .a, ({} : HalRx), by decide +kernel⟩,
    ⟨((halW.modHals .a (fun h => { h with rx := some {} })) : State), .a, ({} : HalRx), by decide +kernel⟩,
    ⟨(halW.modHals .a (fun h => { h with rx := some { fc := 3, ofs := 4, header := some (1, 4) } }) : State), .a,
    (List.replicate 44 0 : List Nat), (symsBytes (List.replicate 44 0) : Bytes), 3, 4, 1, 4, by decide +kernel⟩,
    ⟨(halW.setFld (pgHAL .a) HAL.statusAgcFrozen 1 : State), .a, by decide +kernel⟩,
    ⟨(halW.setFld (pgHAL .a) HAL.statusRxSync 1 : State), .a, by decide +kernel⟩⟩

theorem witness_HalyardMessagesRun :
    (∃ (s : State) (tr : Tree) (pl : Bytes), s.actWorks tr = true ∧ byteAt pl 12 / 128 = 1 ∧ s.mode tr = 1 ∧
    s.flag (pgACT tr) ACT.cfgAutoHail = true ∧ s.registered tr = false ∧ s.firmware = true ∧ clocked s tr = true) ∧
    (∃ (s : State) (tr : Tree) (pl : Bytes), s.actWorks tr = true ∧ s.mode tr = 2 ∧ s.halAddressed tr 2 pl = true) ∧
    (∃ (s : State) (tr : Tree) (pl : Bytes), s.actWorks tr = true ∧ s.mode tr = 5 ∧ s.halAddressed tr 3 pl = true) ∧
    (∃ (s : State) (tr : Tree) (r : Rx), s.works (pgFRM r) = true ∧ s.locked r = true ∧ s.alignSt r = 2 ∧ tr = rxTree r ∧
    s.firmware = true ∧ clocked s tr = true ∧ (s.acts tr).wakeDue = true ∧ s.mode tr = 5 ∧ s.controlRx tr = some r ∧
    s.hdrSync r = true ∧ (frameHdr ((s.frms r).block.take 32)).valid = true) ∧
    (∃ (s : State) (tr : Tree) (pl : Bytes), s.actWorks tr = true ∧ s.halAddressed tr 4 pl = true ∧
    (s.acts tr).notices.any (fun n => n.id == fieldAt pl 2 2 && !n.acked) = true) ∧
    (∃ (s : State) (tr : Tree) (k : Nat), Ready s (pgHAL tr) ∧ k < 4 ∧ s.fld (pgHAL tr) (halStateFld k) ≠ 1 ∧
    s.fld (pgHAL tr) (halStateFld k) ≠ 2) ∧
    (∃ (s : State) (tr : Tree) (k : Nat) (j : HalJob), Ready s (pgHAL tr) ∧ k < 4 ∧ s.halJob tr k = some j ∧
    j.onPins = false) ∧
    (∃ (s : State) (tr : Tree) (k : Nat) (j : HalJob), s.halWorks tr = true ∧ s.halJob tr k = some j ∧ j.start = none ∧
    j.onPins = false ∧ j.ref = none ∧ s.halClear tr k (s.halSpan tr (1000 * (s.now + 256 + s.prepLead tr)) j.plen) = true ∧
    s.halTurn tr j = true) ∧
    (∃ (s : State) (tr : Tree) (k : Nat) (p : Nat) (j : HalJob), k < 4 ∧ s.halJob tr k = some j ∧ j.start = some p ∧
    j.onPins = false ∧ s.halyardAllowed tr = true ∧ s.forced tr = false) ∧
    (∃ (s : State) (tr : Tree) (k : Nat) (j : HalJob), k < 4 ∧ s.halJob tr k = some j ∧ j.onPins = true ∧ j.cut = none ∧
    j.kind ≠ 0x23) ∧
    (∃ (s : State) (tr : Tree), Ready s (pgHAL tr) ∧ s.enabled (pgHAL tr) = true) :=
  ⟨⟨(ck (atM 1 []) : State), .a, (z 12 ++ [0x80#8] ++ z 7 : Bytes), by decide +kernel⟩,
    ⟨(atM 2 [] : State), .a, (z 20 : Bytes), by decide +kernel⟩,
    ⟨(atM 5 [] : State), .a, ([0xFF#8, 0xFF#8] ++ z 6 : Bytes), by decide +kernel⟩,
    ⟨(((ck (atM 5 [])) |>.setFld (pgFRM .a0) FRM.stateAlignState 2).modActs .a (fun x => {x with wakeDue := true}) |>.modFrms .a0 (fun x => {x with block := frameHead}) : State),
    .a, .a0, by decide +kernel⟩,
    ⟨(((atM 4 []).setFld (pgHAL .a) HAL.termIdValid 1).modActs .a (fun x => {x with notices := [{ id := 0, cause := 2, fc := 0 }]}) : State),
    .a, (z 8 : Bytes), by decide +kernel⟩,
    ⟨up, .a, 2, by unfold Ready; decide +kernel⟩,
    ⟨(halJobs [{ slot := 1, kind := 2, plen := 4, priority := 3, timing := 0, payload := z 4 }] : State), .a, 1,
    ({ slot := 1, kind := 2, plen := 4, priority := 3, timing := 0, payload := z 4 } : HalJob),
    by unfold Ready; decide +kernel⟩,
    ⟨(halJobs [{ slot := 1, kind := 2, plen := 4, priority := 3, timing := 0, payload := z 4 }] : State), .a, 1,
    ({ slot := 1, kind := 2, plen := 4, priority := 3, timing := 0, payload := z 4 } : HalJob), by decide +kernel⟩,
    ⟨((halJobs [{ slot := 1, kind := 2, plen := 4, priority := 3, timing := 0, payload := z 4, start := some 5000 }]).setFld (pgTX .a) TX.statusEffectivePolicy 1 |>.modTxs .a (fun x => { x with clockForce := false }) : State),
    .a, 1, 5000,
    ({ slot := 1, kind := 2, plen := 4, priority := 3, timing := 0, payload := z 4, start := some 5000 } : HalJob),
    by decide +kernel⟩,
    ⟨(halJobs [{ slot := 1, kind := 2, plen := 4, priority := 3, timing := 0, payload := z 4, start := some 5000, onPins := true }] : State),
    .a, 1,
    ({ slot := 1, kind := 2, plen := 4, priority := 3, timing := 0, payload := z 4, start := some 5000, onPins := true } : HalJob),
    by decide +kernel⟩,
    ⟨halW, .a, by unfold Ready; decide +kernel⟩⟩

theorem witness_TreesChangeMode :
    (∃ (s : State) (tr : Tree), Ready s (pgACT tr) ∧ s.enabled (pgACT tr) = true) ∧
    (∃ (s : State) (tr : Tree), s.actWorks tr = true ∧ s.mode tr = 0 ∧ s.controlSync tr = true ∧
    s.flag (pgHAL tr) HAL.statusRxSync = true ∧ s.flag (pgACT tr) ACT.statusShed = false ∧
    s.flag (pgACT tr) ACT.statusWarmPending = false ∧ clocked s tr = true) ∧
    (∃ (s : State) (tr : Tree) (v : Word), Ready s (pgACT tr) ∧ clocked s tr = true ∧ ACT.modeMode.get v ≠ s.mode tr) ∧
    (∃ (s : State) (tr : Tree), Ready s (pgACT tr) ∧ (s.mode tr ≠ 7 ∨ s.fld (pgACT tr) ACT.quarCause = 1)) ∧
    (∃ (s : State) (tr : Tree), Ready s (pgACT tr) ∧ s.mode tr = 7 ∧ s.fld (pgACT tr) ACT.quarCause ≠ 1 ∧
    s.registered tr = false ∧ s.works (pgTX tr) = false ∧ s.effPolicy tr = 0 ∧ s.firmware = true) ∧
    (∃ (s : State) (tr : Tree), Ready s (pgACT tr) ∧ clocked s tr = true ∧ registeredMode (s.mode tr) = true ∧
    s.firmware = true) ∧
    (∃ (s : State) (tr : Tree), s.actWorks tr = true ∧ s.mode tr = 2 ∧ s.firmware = true ∧ clocked s tr = true) ∧
    (∃ (s : State) (tr : Tree), s.actWorks tr = true ∧ s.mode tr = 3 ∧ s.firmware = true ∧ clocked s tr = true) ∧
    (∃ (s : State) (tr : Tree), s.actWorks tr = true ∧ s.mode tr = 5 ∧ s.fld (pgACT tr) ACT.parkMaxMaxPark ≠ 0 ∧
    s.firmware = true ∧ clocked s tr = true) ∧
    (∃ (s : State) (tr : Tree) (r : Rx), s.actWorks tr = true ∧ s.mode tr = 0 ∧
    s.flag (pgACT tr) ACT.statusWarmPending = true ∧ s.controlRx tr = some r ∧ s.hdrSync r = true ∧ s.firmware = true) ∧
    (∃ (s : State) (tr : Tree), s.flag (pgACT tr) ACT.statusWarmPending = true) ∧
    (∃ (s : State) (tr : Tree), s.flag (pgACT tr) ACT.eqdPendingPending = true) :=
  ⟨⟨(atM 1 [] : State), .a, by unfold Ready; decide +kernel⟩,
    ⟨(ck (((atM 0 []).setFld (pgHAL .a) HAL.statusRxSync 1 |>.setFld (pgFRM .a0) FRM.stateHdrState 2 |>.setFld (pgFRM .a0) FRM.stateControl 1)) : State),
    .a, by decide +kernel⟩,
    ⟨(ck (atM 0 []) : State), .a, (1#32 : Word), by unfold Ready; decide +kernel⟩,
    ⟨((atM 7 []).setFld (pgACT .a) ACT.quarCause 1 : State), .a, by unfold Ready; decide +kernel⟩,
    ⟨((atM 7 []).setFld (pgACT .a) ACT.quarCause 2 : State), .a, by unfold Ready; decide +kernel⟩,
    ⟨(ck (atM 4 []) : State), .a, by unfold Ready; decide +kernel⟩,
    ⟨(ck (atM 2 []) : State), .a, by decide +kernel⟩,
    ⟨(ck (atM 3 []) : State), .a, by decide +kernel⟩,
    ⟨(ck ((atM 5 []).setFld (pgACT .a) ACT.parkMaxMaxPark 9) : State), .a, by decide +kernel⟩,
    ⟨(ck (((atM 0 []).setFld (pgACT .a) ACT.statusWarmPending 1 |>.setFld (pgFRM .a0) FRM.stateHdrState 2 |>.setFld (pgFRM .a0) FRM.stateControl 1)) : State),
    .a, .a0, by decide +kernel⟩,
    ⟨((atM 0 []).setFld (pgACT .a) ACT.statusWarmPending 1 : State), .a, by decide +kernel⟩,
    ⟨((atM 4 []).setFld (pgACT .a) ACT.eqdPendingPending 1 : State), .a, by decide +kernel⟩⟩

theorem witness_NoticesAndResponses :
    (∃ (s : State) (tr : Tree) (n : Notice), s.noticeOk tr = true ∧ (s.acts tr).notices = [n] ∧ n.waiting = true ∧
    n.acked = false ∧ n.held = false) ∧
    (∃ (s : State) (tr : Tree) (n : Notice), s.noticeOk tr = true ∧ (s.acts tr).notices = [n] ∧ n.acked = false ∧
    n.held = false ∧ n.cause ≠ 1 ∧ n.retries < s.fld (pgACT tr) ACT.timerCNoticeRetries) ∧
    (∃ (s : State) (tr : Tree) (e : Nat), s.tmcState tr e = 1 ∧ s.tmcClass tr e = 2) :=
  ⟨⟨((atM 4 []).modActs .a (fun x => {x with notices := [{ id := 5, cause := 2, fc := 0 }]}) : State), .a,
  ({ id := 5, cause := 2, fc := 0 } : Notice), by decide +kernel⟩,
    ⟨(((atM 4 []).setFld (pgACT .a) ACT.timerCNoticeRetries 3).modActs .a (fun x => {x with notices := [{ id := 5, cause := 2, fc := 0, waiting := false }]}) : State),
    .a, ({ id := 5, cause := 2, fc := 0, waiting := false } : Notice), by decide +kernel⟩,
    ⟨(((atM 4 []).setTf (pgGRT .a) 1 3 0 14 13 1).setTf (pgGRT .a) 1 3 0 12 11 2 : State), .a, 3, by decide +kernel⟩⟩

theorem witness_TmcRequestsRun :
    (∃ (s : State) (tr : Tree) (m : TmcIn) (a : Nat), TmcRuns s tr m 0x01 ∧ clocked s tr = true ∧ s.localFree = some a ∧
    s.kstActive.isSome = true ∧ fieldAt (tmcMsg m.bytes).body 0 8 = s.serial tr ∧
    fieldAt (tmcMsg m.bytes).body 12 4 ≤ eqdMax) ∧
    (∃ (s : State) (tr : Tree) (m : TmcIn), TmcRuns s tr m 0x02 ∧ s.eqdBusy tr = false ∧
    fieldAt (tmcMsg m.bytes).body 0 4 ≤ eqdMax) ∧
    (∃ (s : State) (tr : Tree) (m : TmcIn), TmcRuns s tr m 0x03 ∧ s.eqdBusy tr = false ∧
    fieldAt (tmcMsg m.bytes).body 0 4 ≤ eqdMax ∧ fieldAt (tmcMsg m.bytes).body 12 2 = 0x7FFF) ∧
    (∃ (s : State) (tr : Tree) (m : TmcIn), TmcRuns s tr m 0x04 ∧ clocked s tr = true) ∧
    (∃ (s : State) (tr : Tree) (m : TmcIn), TmcRuns s tr m 0x05 ∧ fieldAt (tmcMsg m.bytes).body 0 8 = s.serial tr) ∧
    (∃ (s : State) (tr : Tree) (m : TmcIn), TmcRuns s tr m 0x06 ∧ clocked s tr = true ∧
    fieldAt (tmcMsg m.bytes).body 0 8 = s.serial tr) ∧
    (∃ (s : State) (tr : Tree) (m : TmcIn), TmcRuns s tr m 0x07 ∧ clocked s tr = true ∧
    8 ≤ fieldAt (tmcMsg m.bytes).body 0 2 ∧ fieldAt (tmcMsg m.bytes).body 0 2 ≤ 8000) ∧
    (∃ (s : State) (tr : Tree) (m : TmcIn), TmcRuns s tr m 0x08) ∧
    (∃ (s : State) (tr : Tree) (m : TmcIn), TmcRuns s tr m 0x10 ∧ fieldAt (tmcMsg m.bytes).body 0 8 ≠ 0) ∧
    (∃ (s : State) (tr : Tree) (m : TmcIn) (n : Nat), TmcRuns s tr m 0x11 ∧
    s.tenantOn tr (fieldAt (tmcMsg m.bytes).body 0 8) = some n) ∧
    (∃ (s : State) (tr : Tree) (m : TmcIn) (n : Nat), TmcRuns s tr m 0x12 ∧
    s.tenantOn tr (fieldAt (tmcMsg m.bytes).body 2 8) = some n) ∧
    (∃ (s : State) (tr : Tree) (m : TmcIn) (a : Nat), TmcRuns s tr m 0x13 ∧
    s.localIndex tr (fieldAt (tmcMsg m.bytes).body 0 2) = some a ∧ s.allocMgmt tr a = false) :=
  ⟨⟨(ck (atM 2 []) |>.setFld pgKST KST.statusState 1 : State), .a, (msg 0x01 24 : TmcIn), 0,
  by unfold TmcRuns; decide +kernel⟩,
    ⟨(atM 3 [] : State), .a, (msg 0x02 16 : TmcIn), by unfold TmcRuns; decide +kernel⟩,
    ⟨(atM 4 [] : State), .a, (msgB 3 (z 12 ++ [0x7F#8, 0xFF#8]) : TmcIn), by unfold TmcRuns; decide +kernel⟩,
    ⟨(ck (atM 4 []) : State), .a, (msg 0x04 4 : TmcIn), by unfold TmcRuns; decide +kernel⟩,
    ⟨(atM 4 [] : State), .a, (msg 0x05 12 : TmcIn), by unfold TmcRuns; decide +kernel⟩,
    ⟨(ck (atM 7 []) : State), .a, (msg 0x06 8 : TmcIn), by unfold TmcRuns; decide +kernel⟩,
    ⟨(ck (atM 4 []) : State), .a, (msgB 7 ([0#8, 8#8] ++ z 4) : TmcIn), by unfold TmcRuns; decide +kernel⟩,
    ⟨(atM 4 [] : State), .a, (msg 0x08 0 : TmcIn), by unfold TmcRuns; decide +kernel⟩,
    ⟨(atM 4 [] : State), .a, (msgB 0x10 (z 7 ++ [9#8] ++ z 4) : TmcIn), by unfold TmcRuns; decide +kernel⟩,
    ⟨(((atM 4 []).setTf (pgACT .a) 0 3 0 0 0 1) : State), .a, (msg 0x11 8 : TmcIn), 3, by unfold TmcRuns; decide +kernel⟩,
    ⟨(((atM 4 []).setTf (pgACT .a) 0 3 0 0 0 1) : State), .a, (msg 0x12 12 : TmcIn), 3, by unfold TmcRuns; decide +kernel⟩,
    ⟨((atM 4 []).setTf (pgACT .a) 1 5 0 16 0 0x10000 : State), .a, (msg 0x13 2 : TmcIn), 5,
    by unfold TmcRuns; decide +kernel⟩⟩

theorem witness_TmcMessagesRun :
    (∃ (s : State) (tr : Tree) (m : TmcIn), s.firmware = true ∧ s.actWorks tr = true ∧ (tmcMsg m.bytes).response = false ∧
    s.tmcAddressed tr (tmcMsg m.bytes) = true ∧ s.tmcAuthBad tr (s.tmcFcOf tr m) (tmcMsg m.bytes) = false ∧
    s.tmcRepeat tr (tmcMsg m.bytes) = none ∧ (tmcMsg m.bytes).lengthOk = true ∧ tmcDefined (tmcMsg m.bytes).kind = false) ∧
    (∃ (s : State) (tr : Tree) (m : TmcIn), s.firmware = true ∧ s.actWorks tr = true ∧ (tmcMsg m.bytes).response = true ∧
    s.tmcAddressed tr (tmcMsg m.bytes) = true ∧ (s.acts tr).sentReqs.contains ((tmcMsg m.bytes).kind,
    (tmcMsg m.bytes).trans) = true) ∧
    (∃ (s : State) (tr : Tree) (m : TmcIn), TmcRuns s tr m 0x40 ∧ fieldAt (tmcMsg m.bytes).body 8 6 = s.recordHe tr) ∧
    (∃ (s : State) (tr : Tree) (m : TmcIn) (n : Nat), TmcRuns s tr m 0x42 ∧
    (s.primaryNow = 0 ∨ s.primaryNow = treeIx tr + 1) ∧ s.tenantOn tr (fieldAt (tmcMsg m.bytes).body 0 8) = some n) ∧
    (∃ (s : State) (tr : Tree) (m : TmcIn), TmcRuns s tr m 0x30) ∧
    (∃ (s : State) (tr : Tree) (m : TmcIn), TmcRuns s tr m 0x31) ∧
    (∃ (s : State) (tr : Tree) (m : TmcIn) (n : Nat), TmcRuns s tr m 0x32 ∧
    s.tenantOn tr (fieldAt (tmcMsg m.bytes).body 0 8) = some n) ∧
    (∃ (s : State) (tr : Tree) (m : TmcIn), TmcRuns s tr m 0x50 ∧ s.timeBindCode tr (tmcMsg m.bytes).body = 0) ∧
    (∃ (s : State) (tr : Tree) (m : TmcIn), TmcRuns s tr m 0x51) :=
  ⟨⟨(atM 4 [] : State), .a, (msg 0x70 0 : TmcIn), by decide +kernel⟩,
    ⟨((atM 4 []).modActs .a (fun x => {x with sentReqs := [(0x20, 1)]}) : State), .a, (⟨[0xFF#8, 0xFF#8, 0x20#8, 0x40#8,
    0#8, 1#8, 0#8, 2#8, 0#8, 0#8]⟩ : TmcIn), by decide +kernel⟩,
    ⟨(atM 4 [] : State), .a, (msg 0x40 16 : TmcIn), by unfold TmcRuns; decide +kernel⟩,
    ⟨(((atM 4 []).setTf (pgACT .a) 0 3 0 0 0 1) : State), .a, (msg 0x42 12 : TmcIn), 3, by unfold TmcRuns; decide +kernel⟩,
    ⟨(atM 4 [] : State), .a, (msgB 0x30 (z 114 ++ [1#8] ++ z 97) : TmcIn), by unfold TmcRuns; decide +kernel⟩,
    ⟨(atM 4 [] : State), .a, (msg 0x31 16 : TmcIn), by unfold TmcRuns; decide +kernel⟩,
    ⟨(((atM 4 []).setTf (pgACT .a) 0 3 0 0 0 1) : State), .a, (msg 0x32 60 : TmcIn), 3, by unfold TmcRuns; decide +kernel⟩,
    ⟨((atM 4 []) : State), .a, (msgB 0x50 (z 26 ++ natBE 4 0x80000000 ++ z 6) : TmcIn), by unfold TmcRuns; decide +kernel⟩,
    ⟨(atM 4 [] : State), .a, (msg 0x51 22 : TmcIn), by unfold TmcRuns; decide +kernel⟩⟩

theorem witness_PagesStop :
    (∃ (s : State), Ready s pgDUAL ∧ s.enabled pgDUAL = true) ∧
    (∃ (s : State), Ready s pgUSCH ∧ s.enabled pgUSCH = true) ∧
    (∃ (s : State), Ready s pgPOL ∧ s.enabled pgPOL = true) ∧
    (∃ (s : State), Ready s pgCLS ∧ s.enabled pgCLS = true) ∧
    (∃ (s : State), Ready s pgFLOW ∧ s.enabled pgFLOW = true) ∧
    (∃ (s : State), Ready s pgDSCH ∧ s.enabled pgDSCH = true) ∧
    (∃ (s : State), Ready s pgSTO ∧ s.enabled pgSTO = true) ∧
    (∃ (s : State), Ready s pgSWC ∧ s.enabled pgSWC = true) ∧
    (∃ (s : State), Ready s pgMIR ∧ s.enabled pgMIR = true) ∧
    (∃ (s : State), Ready s pgLSEC ∧ s.enabled pgLSEC = true) ∧
    (∃ (s : State), Ready s pgKST ∧ s.enabled pgKST = true) ∧
    (∃ (s : State), Ready s pgCORE ∧ s.enabled pgCORE = true) ∧
    (∃ (s : State), Ready s pgTSK ∧ s.enabled pgTSK = true) ∧
    (∃ (s : State), Ready s pgFLSH ∧ s.enabled pgFLSH = true) ∧
    (∃ (s : State), Ready s pgXTR) ∧
    (∃ (s : State), Ready s pgCCRY) ∧
    (∃ (s : State), Ready s pgTIME) ∧
    (∃ (s : State), Ready s pgHIF) ∧
    (∃ (s : State), Ready s pgDMA) ∧
    (∃ (s : State), Ready s pgLANE) ∧
    (∃ (s : State) (q : Nat), Ready s (pgUNIQ (4 * (q % 4)))) ∧
    (∃ (s : State) (tr : Tree), Ready s (pgGRT tr)) :=
  ⟨⟨(en [pgDUAL] : State), by unfold Ready; decide +kernel⟩,
    ⟨(en [pgUSCH] : State), by unfold Ready; decide +kernel⟩,
    ⟨(en [pgPOL] : State), by unfold Ready; decide +kernel⟩,
    ⟨(en [pgCLS] : State), by unfold Ready; decide +kernel⟩,
    ⟨(en [pgFLOW] : State), by unfold Ready; decide +kernel⟩,
    ⟨(en [pgDSCH] : State), by unfold Ready; decide +kernel⟩,
    ⟨(en [pgSTO] : State), by unfold Ready; decide +kernel⟩,
    ⟨(en [pgSWC] : State), by unfold Ready; decide +kernel⟩,
    ⟨(en [pgMIR] : State), by unfold Ready; decide +kernel⟩,
    ⟨(en [pgLSEC] : State), by unfold Ready; decide +kernel⟩,
    ⟨(en [pgKST] : State), by unfold Ready; decide +kernel⟩,
    ⟨(en [pgCORE] : State), by unfold Ready; decide +kernel⟩,
    ⟨(en [pgTSK] : State), by unfold Ready; decide +kernel⟩,
    ⟨(en [pgFLSH] : State), by unfold Ready; decide +kernel⟩,
    ⟨up, by unfold Ready; decide +kernel⟩,
    ⟨up, by unfold Ready; decide +kernel⟩,
    ⟨up, by unfold Ready; decide +kernel⟩,
    ⟨up, by unfold Ready; decide +kernel⟩,
    ⟨up, by unfold Ready; decide +kernel⟩,
    ⟨up, by unfold Ready; decide +kernel⟩,
    ⟨up, 6, by unfold Ready; decide +kernel⟩,
    ⟨up, .a, by unfold Ready; decide +kernel⟩⟩

theorem witness_DualHomes :
    (∃ (s : State) (r : Rx) (f : LineFrag), s.lineNext r = some f ∧ f.mark = false ∧ f.head.prot = true ∧
    s.works pgDUAL = false) ∧
    (∃ (s : State) (r : Rx) (f : LineFrag), s.lineNext r = some f ∧ f.mark = false ∧ f.head.prot = true ∧
    f.head.last = true ∧ s.works pgDUAL = true ∧ s.dnSelected f.stream = false) ∧
    (∃ (s : State) (r : Rx) (f : LineFrag), s.lineNext r = some f ∧ f.mark = false ∧ f.head.prot = false ∧
    s.works pgDUAL = true ∧ (∀ p, s.progress r f.stream = some p → f.head.sequence = (p + 1) % 65536)) ∧
    (∃ (s : State) (r : Rx) (f : LineFrag) (p : Nat), s.lineNext r = some f ∧ f.mark = false ∧ f.head.prot = false ∧
    s.works pgDUAL = true ∧ s.progress r f.stream = some p ∧ f.head.sequence ≠ (p + 1) % 65536) ∧
    (∃ (s : State) (r : Rx) (f : LineFrag), s.lineNext r = some f ∧ f.mark = true) ∧
    (∃ (s : State) (q : Nat), s.works pgDUAL = true ∧ s.ctxValid q = true) ∧
    (∃ (s : State), Ready s pgDUAL) ∧
    (∃ (s : State), s.alive pgDUAL = true) ∧
    (∃ (s : State), s.flag pgDUAL DUAL.selRevertive = true ∧ s.qualifies s.homeTree = true ∧ s.selTree ≠ s.homeTree) ∧
    (∃ (s : State), (s.flag pgDUAL DUAL.selRevertive = false ∨ s.qualifies s.homeTree = false ∨ s.selTree = s.homeTree)) ∧
    (∃ (s : State) (tr : Tree), (∀ k ∈ Sparse.keys s.sto.lists, s.carriesTenant tr (k / 4 / 16) = true)) ∧
    (∃ (s : State) (tr : Tree) (k : Nat) (c : Copy), s.sto.lists = [(k, [c])] ∧ c.prot = true ∧ k % 4 = 1 + treeIx tr ∧
    k / 4 < downBase ∧ s.carriesTenant tr (k / 4 / 16) = false) ∧
    (∃ (s : State), s.dual.conflict = none) ∧
    (∃ (s : State) (tr : Tree) (win : Tree) (ea : Nat) (eb : Nat), s.dual.conflict = some (win, ea, eb) ∧
    s.dual.conflictDue.get tr = true ∧ s.dual.conflictDue.get (otherTree tr) = false ∧ s.dual.conflictSent.get tr = false ∧
    s.registered tr = true ∧ s.tmcPath tr = true) :=
  ⟨⟨(inb false protHead [] : State), .a0, (⟨.a0, 7, protHead, z 4, [], false⟩ : LineFrag), by decide +kernel⟩,
    ⟨(inb false protHead [pgDUAL] : State), .a0, (⟨.a0, 7, protHead, z 4, [], false⟩ : LineFrag), by decide +kernel⟩,
    ⟨(inb false plainHead [pgDUAL] : State), .a0, (⟨.a0, 7, plainHead, z 4, [], false⟩ : LineFrag), by decide +kernel⟩,
    ⟨((inb false plainHead [pgDUAL]).modDual (fun d => { d with progress := [(partKey .a0 ((⟨.a0, 7, plainHead, z 4, [], false⟩ : LineFrag).stream), some 9)] }) : State),
    .a0, (⟨.a0, 7, plainHead, z 4, [], false⟩ : LineFrag), 9, by decide +kernel⟩,
    ⟨(inb true [] [pgDUAL] : State), .a0, (⟨.a0, 7, [], z 4, [], true⟩ : LineFrag), by decide +kernel⟩,
    ⟨((en [pgDUAL]).setTf pgDUAL 1 7 0 16 16 1 : State), 7, by decide +kernel⟩,
    ⟨up, by unfold Ready; decide +kernel⟩,
    ⟨up, by decide +kernel⟩,
    ⟨((((((en [pgDUAL,
    pgACT .a]).setFld (pgACT .a) ACT.modeMode 4).setFld pgDUAL DUAL.selRevertive 1).setFld pgDUAL DUAL.roleSelTree 1).setFld (pgFRM .a0) FRM.stateHdrState 2).setFld (pgFRM .a0) FRM.stateControl 1 : State),
    by decide +kernel⟩,
    ⟨up, by decide +kernel⟩,
    ⟨(((atM 4 []).setTf (pgACT .a) 0 3 0 0 0 1).modSto (fun x => { x with lists := [(193, [{ frame := 5, queue := 48, length := 64, prot := true }])] }) : State),
    .a, by decide +kernel⟩,
    ⟨(up.modSto (fun x => {x with lists := [(4*3+1, [{ frame := 5, queue := 3, length := 64, prot := true }])]}) : State),
    .a, 13, ({ frame := 5, queue := 3, length := 64, prot := true } : Copy), by decide +kernel⟩,
    ⟨up, by decide +kernel⟩,
    ⟨((((atM 4 []).setFld (pgACT .a) ACT.statusRegistered 1).setFld (pgACT .a) ACT.mgmtValid 1).modDual (fun d => {d with conflict := some (.a, 1, 2), conflictDue := ⟨true, false⟩}) : State),
    .a, .a, 1, 2, by decide +kernel⟩⟩

theorem witness_UpstreamRuns :
    (∃ (s : State) (tr : Tree), Ready s (pgGRT tr) ∧ s.enabled (pgGRT tr) = true) ∧
    (∃ (s : State) (tr : Tree), s.nextWaiting tr 0 = none) ∧
    (∃ (s : State) (tr : Tree) (i : Nat), s.nextWaiting tr 0 = some i ∧ s.alive (pgGRT tr) = true ∧
    s.stillBound tr i = false) ∧
    (∃ (s : State) (tr : Tree) (i : Nat), s.nextWaiting tr 0 = some i ∧ s.alive (pgGRT tr) = true ∧
    s.stillBound tr i = true) ∧
    (∃ (s : State) (tr : Tree), s.treeNeeds tr = true ∧ s.needNoted tr = false ∧ s.firmware = true ∧ clocked s tr = true) ∧
    (∃ (s : State) (tr : Tree), s.treeNeeds tr = true ∧ s.needNoted tr = false ∧ s.firmware = false) ∧
    (∃ (s : State) (tr : Tree), s.treeNeeds tr = true ∧ s.needNoted tr = true ∧ s.firmware = false) ∧
    (∃ (s : State) (tr : Tree), s.treeNeeds tr = false) :=
  ⟨⟨((en [pgGRT .a]) : State), .a, by unfold Ready; decide +kernel⟩,
    ⟨up, .a, by decide +kernel⟩,
    ⟨(((((en [pgGRT .a]).setTf (pgGRT .a) 0 3 0 26 26 1).setTf (pgACT .a) 1 0 0 16 16 1).modGrts .a (fun g => { g with spans := [(3, (100, 200, 0))] })).setTf (pgACT .a) 1 0 0 16 16 0 : State),
    .a, 3, by decide +kernel⟩,
    ⟨((((((((en [pgGRT .a]).setTf (pgGRT .a) 0 3 0 26 26 1).setTf (pgACT .a) 1 0 0 16 16 1).modGrts .a (fun g => { g with spans := [(3, (100, 200, 0))] })).modTxs .a (fun x => { x with clockForce := false })).setFld (pgTX .a) TX.statusEffectivePolicy 1).setTf (pgTX .a) 0 0 0 31 0 0x11) : State),
    .a, 3, by decide +kernel⟩,
    ⟨(ck needTree : State), .a, by decide +kernel⟩,
    ⟨((ck needTree).setFld pgCORE HDR.pageCtrlEnable 0 : State), .a, by decide +kernel⟩,
    ⟨(((ck needTree).setFld pgCORE HDR.pageCtrlEnable 0).modUsch (fun x => { x with needA := true }) : State), .a,
    by decide +kernel⟩,
    ⟨up, .a, by decide +kernel⟩⟩

theorem witness_UpstreamQueuesMove :
    (∃ (s : State), s.tickDue = true) ∧
    (∃ (s : State), s.tickDue = false) ∧
    (∃ (s : State), (∀ q ∈ s.liveQueues, ∀ k c, s.headItem q = some (k,
    c) → s.ageLimit q = 0 ∨ s.isBulk q = true ∨ s.copyAge c < s.ageLimit q)) ∧
    (∃ (s : State) (q : Nat) (c : Copy), s.liveQueues = [q] ∧ q < 4096 ∧ s.list (listKey q 0) = [c] ∧
    s.list (listKey q 1) = [] ∧ s.list (listKey q 2) = [] ∧ c.queue = q ∧ c.prot = false ∧ s.isBulk q = false ∧
    s.ageLimit q ≠ 0 ∧ s.ageLimit q ≤ s.copyAge c) ∧
    (∃ (s : State) (tr : Tree) (e : Nat), s.alive (pgGRT tr) = true ∧ e < 64 ∧ s.tmcState tr e ≠ 1 ∧ s.tmcState tr e ≠ 2) ∧
    (∃ (s : State) (tr : Tree) (e : Nat), s.alive (pgGRT tr) = true ∧ e < 64 ∧
    (s.tmcState tr e = 1 ∨ s.tmcState tr e = 2)) ∧
    (∃ (s : State) (q : Nat) (n : Nat) (r : TierRec), s.tierUp = true ∧ s.servedBytes q < s.bulkMarks.2 ∧
    s.fld pgSTO STO.culletLowLow ≤ s.freeCells ∧ cellsOf r.bytes.length ≤ s.freeCells ∧ s.freeDescs ≠ 0 ∧
    s.extentOutside n = false ∧ s.tier q = [⟨n, [r]⟩] ∧ s.list (listKey q 3) = []) ∧
    (∃ (s : State) (q : Nat), s.tierUp = false ∧ s.tier q = []) :=
  ⟨⟨(up.modNow (fun _ => frameSym) : State), by decide +kernel⟩,
    ⟨up, by decide +kernel⟩,
    ⟨(sto (fun x => { x with lists := [(12, [{ frame := 5, queue := 3, length := 64}])] }) [] : State),
    fun q hq _ _ _ => .inl ((by decide +kernel : ∀ q ∈ ((sto (fun x => { x with lists := [(12, [{ frame := 5, queue := 3, length := 64}])] }) [] : State) : State).liveQueues,
    ((sto (fun x => { x with lists := [(12, [{ frame := 5, queue := 3, length := 64}])] }) [] : State) : State).ageLimit q = 0) q hq)⟩,
    ⟨(((sto (fun x => { x with lists := [(12, [{ frame := 5, queue := 3, length := 64}])] }) []).modUsch (fun u => { u with ticks := 100 })).modUsch (fun u => { u with activeQ := [(13, 0x50000#32)] }) : State),
    3, ({ frame := 5, queue := 3, length := 64} : Copy), by decide +kernel⟩,
    ⟨(en [pgGRT .a] : State), .a, 3, by decide +kernel⟩,
    ⟨((en [pgGRT .a]).setTf (pgGRT .a) 1 3 0 14 13 1 : State), .a, 3, by decide +kernel⟩,
    ⟨(((((en [pgXTR]).setFld pgXTR XTR.statusCxlUp 1).setTf pgXTR 0 1 0 0 0 1).setFld pgSTO STO.culletLevelLevel 100000000).modXtr (fun x => {x with tier := [(3, [⟨4, [⟨{ frame := 5, queue := 3, length := 64}, 10, z 64⟩]⟩])]}) |>.modHif (fun x => { x with cxlWindow := (0, 2 ^ 40) }) : State),
    3, 4, (⟨{ frame := 5, queue := 3, length := 64}, 10, z 64⟩ : TierRec), by decide +kernel⟩,
    ⟨((sto (fun x => { x with lists := [(15, [{ frame := 5, queue := 3, length := 64}])] }) []) : State), 3,
    by decide +kernel⟩⟩

theorem witness_ClassifierOff :
    ∃ (s : State), s.enabled pgCLS = false :=
  ⟨up, by decide +kernel⟩

theorem witness_FramesClassified :
    (∃ (g : InFrame) (f : InFrame) (s : State) (x : Parsed) (d : Nat), s.works pgCLS = true ∧ s.dueFrame g = f ∧
    f.srcKind = 2 ∧ x = parseFrame (s.fld pgCLS CLS.cfgTpidAlt) f.bytes ∧ x.err = false ∧ x.l3 = 0 ∧ x.frag = 0 ∧
    s.tblEntries pgCLS 0 = [] ∧ d = s.fld pgCLS CLS.defaultHostDefaultHost) ∧
    (∃ (s : State) (i : Nat), s.followValid (i % 16384) = true ∧ s.followStale (i % 16384) = true) ∧
    (∃ (s : State) (i : Nat), (s.followValid (i % 16384) = false ∨ s.followStale (i % 16384) = false)) :=
  ⟨⟨hostFrame, hostFrame, ((en [pgCLS]).modCls (fun x => { x with handed := [hostFrame] }) : State),
  (parseFrame (((en [pgCLS]).modCls (fun x => { x with handed := [hostFrame] }) : State).fld pgCLS CLS.cfgTpidAlt) (hostFrame : InFrame).bytes : Parsed),
  (((en [pgCLS]).modCls (fun x => { x with handed := [hostFrame] }) : State).fld pgCLS CLS.defaultHostDefaultHost : Nat),
  by decide +kernel⟩,
    ⟨(((en [pgCLS]).setTf pgCLS 4 9 0 0 0 1).modNow (fun _ => 10 ^ 15) : State), 9, by decide +kernel⟩,
    ⟨up, 0, by decide +kernel⟩⟩

theorem witness_FlowCommands :
    (∃ (s : State) (e : Nat), Ready s pgFLOW ∧ s.works pgFLOW = true ∧ s.flag pgFLOW FLOW.cmdStatusBusy = false ∧
    s.flowFind (s.flowKeyAt 1 0) = some e) ∧
    (∃ (s : State), Ready s pgFLOW ∧ s.works pgFLOW = true ∧ s.flag pgFLOW FLOW.cmdStatusBusy = false ∧
    s.flowFind (s.flowKeyAt 1 0) = none) ∧
    (∃ (s : State), s.flag pgFLOW FLOW.cmdStatusBusy = true) ∧
    (∃ (s : State) (e : Nat), s.works pgFLOW = true ∧ s.flowSweepDue = true ∧ s.flowEntries = [e] ∧
    s.tb pgFLOW 0 e 0 1 = false ∧ 0 < (s.tw pgFLOW 2 (s.tf pgFLOW 0 e 0 5 3) 0).toNat ∧
    (s.tw pgFLOW 2 (s.tf pgFLOW 0 e 0 5 3) 0).toNat ≤ s.flowIdle e) ∧
    (∃ (s : State), s.flowSweepDue = false) ∧
    (∃ (s : State), s.works pgFLOW = true ∧ s.flowSweepDue = true ∧ (∀ e ∈ s.flowEntries,
    s.tb pgFLOW 0 e 0 1 = true ∨ (s.tw pgFLOW 2 (s.tf pgFLOW 0 e 0 5 3) 0).toNat = 0 ∨ s.flowIdle e < (s.tw pgFLOW 2 (s.tf pgFLOW 0 e 0 5 3) 0).toNat)) :=
  ⟨⟨((en [pgFLOW]).setTf pgFLOW 0 4 0 0 0 1 : State), 4, by unfold Ready; decide +kernel⟩,
    ⟨((en [pgFLOW]) : State), by unfold Ready; decide +kernel⟩,
    ⟨((en [pgFLOW]).setFld pgFLOW FLOW.cmdStatusBusy 1 : State), by decide +kernel⟩,
    ⟨(((en [pgFLOW]).setTf pgFLOW 0 4 0 0 0 1 |>.setTf pgFLOW 2 0 0 31 0 1).modNow (fun _ => 10000000000) : State), 4,
    by decide +kernel⟩,
    ⟨(up.modFlow (fun x => { x with swept := 1 }) : State), by decide +kernel⟩,
    ⟨((en [pgFLOW]).setTf pgFLOW 0 4 0 0 0 1 |>.setTf pgFLOW 0 4 0 1 1 1 : State), by decide +kernel⟩⟩

theorem witness_FramesAdmitted :
    (∃ (s : State) (a : AdmitReq), s.lineCells a.id = [] ∧ s.works pgSTO = false) ∧
    (∃ (s : State) (a : AdmitReq), s.lineCells a.id = [] ∧ s.works pgSTO = true ∧ s.works pgSWC = false) ∧
    (∃ (s : State) (a : AdmitReq), s.lineCells a.id = [] ∧ s.works pgSTO = true ∧ s.works pgSWC = true ∧
    s.tf pgSTO 0 a.tenant 0 27 0 = 0 ∧ s.freeCells = 0) ∧
    (∃ (s : State) (a : AdmitReq), s.lineCells a.id = [] ∧ s.works pgSTO = true ∧ s.works pgSWC = true ∧
    s.tf pgSTO 0 a.tenant 0 27 0 = 0 ∧ 0 < s.freeCells ∧ s.freeCells < max 1 (cellsOf a.arrived)) ∧
    (∃ (s : State) (a : AdmitReq), s.lineCells a.id = [] ∧ s.works pgSTO = true ∧ s.works pgSWC = true ∧
    s.tf pgSTO 0 a.tenant 0 27 0 = 0 ∧ max 1 (cellsOf a.arrived) ≤ s.freeCells) ∧
    (∃ (s : State) (id : Nat), s.frame id = none) ∧
    (∃ (s : State) (id : Nat) (f : Frame), s.frame id = some f ∧ f.decided = false ∧ s.actOf id = none) ∧
    (∃ (s : State) (id : Nat), s.frame id = none) ∧
    (∃ (s : State) (id : Nat) (f : Frame), s.frame id = some f ∧ f.decided = false ∧ f.ended = false ∧
    s.actOf id = some none) ∧
    (∃ (s : State) (id : Nat) (f : Frame) (c : Classified) (d : CopyDest), s.frame id = some f ∧ f.decided = false ∧
    f.ended = false ∧ f.endWith = 0 ∧ s.sto.changes = [] ∧ s.actOf id = some (some c) ∧ s.copyDests f c = [d] ∧
    d.port = some 17 ∧ d.refused = false ∧ 1 ≤ s.freeDescs ∧ s.tf pgSWC 0 d.queue 0 23 0 = 0 ∧
    s.tb pgSWC 1 (3 * s.tf pgSWC 0 d.queue 0 26 24 + c.colour) 0 0 = false ∧ s.works pgMIR = false) ∧
    (∃ (s : State) (p : Nat), s.sendingOn (p % 16) = none) ∧
    (∃ (s : State) (p : Nat) (c : Copy) (f : Frame), s.sendingOn (p % 16) = some c ∧ s.frame c.frame = some f ∧
    f.ended = true ∧ f.bad = false) :=
  ⟨⟨up, (⟨7, 0, 0, 1, 10, [], 0⟩ : AdmitReq), by decide +kernel⟩,
    ⟨(en [pgSTO] : State), (⟨7, 0, 0, 1, 10, [], 0⟩ : AdmitReq), by decide +kernel⟩,
    ⟨((en [pgSTO, pgSWC]).setFld pgSTO STO.culletLevelLevel 0 : State), (⟨7, 0, 0, 1, 10, [], 0⟩ : AdmitReq),
    by decide +kernel⟩,
    ⟨((en [pgSTO, pgSWC]).setFld pgSTO STO.culletLevelLevel 1 : State), (⟨7, 0, 0, 1, 10, [], 1000⟩ : AdmitReq),
    by decide +kernel⟩,
    ⟨((en [pgSTO, pgSWC]).setFld pgSTO STO.culletLevelLevel 9 : State), (⟨7, 0, 0, 1, 10, [], 0⟩ : AdmitReq),
    by decide +kernel⟩,
    ⟨up, 7, by decide +kernel⟩,
    ⟨(sto (fun x => {x with frames := [(7, some { srcKind := 0, srcNum := 0, tenant := 1, rate := 10, bytes := z 64, cells := [1]})]}) [pgSTO,
    pgSWC] : State), 7, ({ srcKind := 0, srcNum := 0, tenant := 1, rate := 10, bytes := z 64, cells := [1]} : Frame),
    by decide +kernel⟩,
    ⟨up, 7, by decide +kernel⟩,
    ⟨((sto (fun x => {x with frames := [(7, some { srcKind := 0, srcNum := 0, tenant := 1, rate := 10, bytes := z 64, cells := [1]})]}) [pgSTO,
    pgSWC]).modCls (fun x => {x with acts := [(7, some none)]}) : State), 7,
    ({ srcKind := 0, srcNum := 0, tenant := 1, rate := 10, bytes := z 64, cells := [1]} : Frame), by decide +kernel⟩,
    ⟨(((sto (fun x => {x with frames := [(7, some { srcKind := 0, srcNum := 0, tenant := 1, rate := 10, bytes := z 64, cells := [1]})]}) [pgSTO,
    pgSWC]).setFld pgSTO STO.descFreeFree 9).modCls (fun x => {x with acts := [(7, some (some ⟨3, [0x4#32], 1, 0, 0, 5⟩))]}) : State),
    7, ({ srcKind := 0, srcNum := 0, tenant := 1, rate := 10, bytes := z 64, cells := [1]} : Frame), (⟨3, [0x4#32], 1, 0, 0,
    5⟩ : Classified), (⟨coreQueue, some 17, 0, false, 0⟩ : CopyDest), by decide +kernel⟩,
    ⟨up, 3, by decide +kernel⟩,
    ⟨(sto (fun x => {x with frames := [(5, some { srcKind := 0, srcNum := 0, tenant := 1, rate := 10, bytes := z 64, cells := [1], ended := true, refs := 1})], sending := [(3, some { frame := 5, queue := 3, length := 64})]}) [pgSTO,
    pgSWC] : State), 3, ({ frame := 5, queue := 3, length := 64} : Copy),
    ({ srcKind := 0, srcNum := 0, tenant := 1, rate := 10, bytes := z 64, cells := [1], ended := true, refs := 1} : Frame),
    by decide +kernel⟩⟩

theorem witness_StoreServes :
    (∃ (s : State) (p : Nat), (s.dequeues = false ∨ 18 ≤ p)) ∧
    (∃ (s : State) (p : Nat) (u : State) (q : Nat) (c : Copy), s.dequeues = true ∧ p < 16 ∧
    u = State.pauseTurn p ((s.queuesWith (ofPort p)).foldl (fun s q => s.examineDown q) s) ∧ u.pins p = [] ∧
    u.uniFree p = true ∧ ((u.pin p []).pickDown p (fun _ => true)).2 = some q ∧ u.downHead q = some c ∧
    u.launchWaits p c = false ∧ u.frameBad c.frame = false) ∧
    (∃ (s : State) (u : State) (q : Nat) (c : Copy), s.dequeues = true ∧
    u = (s.queuesWith (ofPort 16)).foldl (fun s q => s.starveJudge q) ((s.queuesWith (ofPort 16)).foldl (fun s q => s.examineDown q) s) ∧
    u.pins 16 = [] ∧ (u.fld pgDSCH DSCH.hostRateHostRate = 0 ∨ 0 < u.sto.hostTokens) ∧
    ((u.pin 16 []).pickDown 16 (fun _ => true)).2 = some q ∧ u.downHead q = some c ∧ u.frameBad c.frame = false) ∧
    (∃ (s : State) (c : Copy), s.dequeues = true ∧ s.downHead coreQueue = some c ∧ s.dage coreQueue = 0 ∧
    s.works pgCORE = true ∧ s.frameBad c.frame = false ∧ s.crRoom 1 c.length = true) ∧
    (∃ (s : State), s.queuesWith (fun _ => true) = []) ∧
    (∃ (s : State) (q : Nat) (c : Copy), s.queuesWith (fun _ => true) = [q] ∧ s.list (listKey q 0) = [c] ∧ s.dage q ≠ 0 ∧
    s.dage q ≤ s.copyAge c) ∧
    (∃ (s : State) (p : Nat), p < 16 ∧ s.portOn p = false) ∧
    (∃ (s : State) (f : Nat), f < 256 ∧ s.fnEnabled f = false) ∧
    (∃ (s : State) (p : Nat), p < 16 ∧ s.portOn p = true) ∧
    (∃ (s : State) (c : Copy) (f : Frame), s.dequeues = true ∧ s.downHead sampleQueue = some c ∧ s.dage sampleQueue = 0 ∧
    s.frame c.frame = some f ∧ f.bad = false ∧ s.tb pgMIR 0 c.sampler 0 20 = false ∧ s.works pgCORE = true ∧
    s.crRoom 1 (sampleHeader c f.bytes.length ++ s.copyBytes c).length = true) ∧
    (∃ (what : MemErr), what ≠ .corrected) ∧
    (∃ (id : Nat) (f : Frame) (x : Nat) (s : State), s.frame id = some f ∧ s.sto.sending = [] ∧ s.pick f.cells = some x) ∧
    (∃ (s : State) (q : Nat) (c : Copy) (e : Extent), s.tierUp = true ∧ s.list (listKey q 3) = [c] ∧ s.tier q = [e] ∧
    s.frameBad c.frame = false ∧ e.used + (s.recordOf c).size ≤ 2097152) ∧
    (∃ (s : State) (q : Nat), s.tier q = []) ∧
    (∃ (s : State) (q : Nat), s.tier q ≠ []) ∧
    (∃ (s : State) (q : Nat), takeRecord (s.tier q) ≠ none) ∧
    (∃ (s : State) (g : Nat), Ready s pgXTR ∧ g % 65536 ≠ 0 ∧ s.segInUse (g % 65536) = false) ∧
    (∃ (s : State) (g : Nat), Ready s pgXTR ∧ g % 65536 = 0) :=
  ⟨⟨up, 3, by decide +kernel⟩,
    ⟨((portM 2 [pgDSCH, pgSTO,
    pgCORE]).setFld (pgUNIQ 2) (slotFld 2 UNIQ.portStatusLinkUp) 1 |>.modSto (fun x => {x with lists := [((listKey (portBase 2) 0), [{ frame := 5, queue := portBase 2, length := 64}])]}) : State),
    2, ((((portM 2 [pgDSCH, pgSTO,
    pgCORE]).setFld (pgUNIQ 2) (slotFld 2 UNIQ.portStatusLinkUp) 1 |>.modSto (fun x => {x with lists := [((listKey (portBase 2) 0), [{ frame := 5, queue := portBase 2, length := 64}])]}) : State).queuesWith (ofPort (2 : Nat))).foldl (fun y z => y.examineDown z) ((portM 2 [pgDSCH,
    pgSTO,
    pgCORE]).setFld (pgUNIQ 2) (slotFld 2 UNIQ.portStatusLinkUp) 1 |>.modSto (fun x => {x with lists := [((listKey (portBase 2) 0), [{ frame := 5, queue := portBase 2, length := 64}])]}) : State) : State),
    (portBase 2 : Nat), ({ frame := 5, queue := portBase 2, length := 64} : Copy), by decide +kernel⟩,
    ⟨((rxW 1).modSto (fun x => { x with lists := [(listKey (portBase 16 + 2) 0, [{ frame := 5, queue := portBase 16 + 2, length := 64 }])] }) : State),
    ((((rxW 1).modSto (fun x => { x with lists := [(listKey (portBase 16 + 2) 0, [{ frame := 5, queue := portBase 16 + 2, length := 64 }])] }) : State).queuesWith (ofPort 16)).foldl (fun x y => x.starveJudge y) ((((rxW 1).modSto (fun x => { x with lists := [(listKey (portBase 16 + 2) 0, [{ frame := 5, queue := portBase 16 + 2, length := 64 }])] }) : State).queuesWith (ofPort 16)).foldl (fun x y => x.examineDown y) ((rxW 1).modSto (fun x => { x with lists := [(listKey (portBase 16 + 2) 0, [{ frame := 5, queue := portBase 16 + 2, length := 64 }])] }) : State)) : State),
    (portBase 16 + 2 : Nat), ({ frame := 5, queue := portBase 16 + 2, length := 64 } : Copy), by decide +kernel⟩,
    ⟨(sto (fun x => {x with lists := [(listKey coreQueue 0, [{ frame := 5, queue := coreQueue, length := 64}])]}) [pgDSCH,
    pgSTO, pgCORE, pgUNIQ 0, pgLANE] |> fun s => coreRing s : State),
    ({ frame := 5, queue := coreQueue, length := 64} : Copy), by decide +kernel⟩,
    ⟨up, by decide +kernel⟩,
    ⟨(((sto (fun x => {x with lists := [((listKey (portBase 2) 0), [{ frame := 5, queue := portBase 2, length := 64}])]}) [pgDSCH,
    pgSTO, pgCORE, pgUNIQ 0,
    pgLANE]).modUsch (fun u => { u with ticks := 100 })).modSto (fun u => { u with activeQueue := [((portBase 2 - downBase) * 4, 0x50000#32)] }) : State),
    (portBase 2 : Nat), ({ frame := 5, queue := portBase 2, length := 64} : Copy), by decide +kernel⟩,
    ⟨((sto (fun x => {x with lists := [((listKey (portBase 2) 0), [{ frame := 5, queue := portBase 2, length := 64}])]}) [pgDSCH,
    pgSTO, pgCORE, pgUNIQ 0, pgLANE]) : State), 2, by decide +kernel⟩,
    ⟨up, 5, by decide +kernel⟩,
    ⟨(portM 2 [] : State), 2, by decide +kernel⟩,
    ⟨(sto (fun x => {x with frames := [(5, some { srcKind := 0, srcNum := 0, tenant := 1, rate := 10, bytes := z 64, cells := [1]})], lists := [(listKey sampleQueue 0, [{ frame := 5, queue := sampleQueue, length := 64, sample := true}])]}) [pgDSCH,
    pgSTO, pgCORE, pgUNIQ 0, pgLANE] |> fun s => coreRing s : State),
    ({ frame := 5, queue := sampleQueue, length := 64, sample := true} : Copy),
    ({ srcKind := 0, srcNum := 0, tenant := 1, rate := 10, bytes := z 64, cells := [1]} : Frame), by decide +kernel⟩,
    ⟨(.entry 5 : MemErr), by decide +kernel⟩,
    ⟨5, ({ srcKind := 0, srcNum := 0, tenant := 1, rate := 10, bytes := z 64, cells := [1]} : Frame), 1,
    (sto (fun x => {x with frames := [(5, some { srcKind := 0, srcNum := 0, tenant := 1, rate := 10, bytes := z 64, cells := [1]})]}) [pgDSCH,
    pgSTO, pgCORE, pgUNIQ 0, pgLANE] : State), by decide +kernel, by decide +kernel,
    by unfold State.pick; simp [State.freeVal, Nat.mod_one]⟩,
    ⟨(((((en [pgXTR]).setFld pgXTR XTR.statusCxlUp 1).setTf pgXTR 0 1 0 0 0 1).modSto (fun x => { x with lists := [(15, [{ frame := 5, queue := 3, length := 64}])] })).modXtr (fun x => {x with tier := [(3, [⟨4, []⟩])]}) : State),
    3, ({ frame := 5, queue := 3, length := 64} : Copy), (⟨4, []⟩ : Extent), by decide +kernel⟩,
    ⟨up, 3, by decide +kernel⟩,
    ⟨(up.modXtr (fun x => {x with tier := [(3, [⟨4, [⟨{ frame := 5, queue := 3, length := 64}, 10, z 64⟩]⟩])]}) : State), 3,
    by decide +kernel⟩,
    ⟨(up.modXtr (fun x => {x with tier := [(3, [⟨4, [⟨{ frame := 5, queue := 3, length := 64}, 10, z 64⟩]⟩])]}) : State), 3,
    by decide +kernel⟩,
    ⟨up, 5, by unfold Ready; decide +kernel⟩,
    ⟨up, 0, by unfold Ready; decide +kernel⟩⟩

theorem witness_AuditsRun :
    (∃ (s : State), s.auditA1 = 0 ∧ s.auditA2 = 0 ∧ s.auditA4 = 0 ∧ s.auditA5 = 0 ∧ s.auditA6Up = 0 ∧ s.auditA6Down = 0 ∧
    (∀ l, l < 3 → s.auditA7 l 0 = 0 ∧ s.auditA7 l 1 = 0) ∧ s.auditA8 .a = 0 ∧ s.auditA8 .b = 0 ∧ s.auditA9 = 0 ∧
    s.sto.a7Failed = []) ∧
    (∃ (s : State), s.alive pgSTO = true ∧ s.auditA1 ≠ 0) ∧
    (∃ (s : State), s.alive pgSTO = true) ∧
    (∃ (s : State), s.flag pgSTO STO.sweepStatusSweeping = true) ∧
    (∃ (s : State), s.flag pgSTO STO.sweepStatusSweeping = false) ∧
    (∃ (s : State), Ready s pgSTO) :=
  ⟨⟨up, by decide +kernel⟩,
    ⟨(up.setFld pgSTO STO.culletLevelLevel 5 : State), by decide +kernel⟩,
    ⟨up, by decide +kernel⟩,
    ⟨(up.setFld pgSTO STO.sweepStatusSweeping 1 : State), by decide +kernel⟩,
    ⟨up, by decide +kernel⟩,
    ⟨up, by unfold Ready; decide +kernel⟩⟩

theorem witness_FragmentsSecured :
    (∃ (s : State) (r : Rx), s.linePassed r = none) ∧
    (∃ (s : State) (r : Rx) (f : LineFrag) (c : Nat), s.linePassed r = some f ∧ f.head.prot = true ∧ f.cells = [] ∧
    c = downCtx (rxTree r) f.head.tenant ∧ s.ctxContained c = true) ∧
    (∃ (s : State) (r : Rx) (f : LineFrag) (c : Nat), s.linePassed r = some f ∧ f.head.prot = true ∧
    c = downCtx (rxTree r) f.head.tenant ∧ s.ctxContained c = false ∧ s.ctxGcm c = false) ∧
    (∃ (s : State) (r : Rx) (f : LineFrag) (c : Nat) (k : Nat), s.linePassed r = some f ∧ f.head.prot = true ∧
    c = downCtx (rxTree r) f.head.tenant ∧ s.ctxContained c = false ∧ s.ctxGcm c = true ∧ s.works pgLSEC = true ∧
    s.slotFor c f.fc = some k ∧ 25 ≤ f.payload.length ∧ s.replayed c k (fieldAt f.payload 0 8) = false) ∧
    (∃ (s : State) (c : Nat), s.controlRx (if c % 1024 < 512 then .a else .b) = none) ∧
    (∃ (s : State) (c : Nat) (k : Nat) (tr : Tree), tr = (if c % 1024 < 512 then Tree.a else .b) ∧ s.controlRx tr ≠ none ∧
    s.slotFor (c % 1024) (s.treeFc tr) = some k ∧ s.selector (c % 1024) ≠ k) ∧
    (∃ (s : State) (c : Nat) (k : Nat) (tr : Tree), tr = (if c % 1024 < 512 then Tree.a else .b) ∧ s.controlRx tr ≠ none ∧
    s.slotFor (c % 1024) (s.treeFc tr) = some k ∧ s.selector (c % 1024) = k) ∧
    (∃ (s : State) (c : Nat) (tr : Tree), tr = (if c % 1024 < 512 then Tree.a else .b) ∧ s.controlRx tr ≠ none ∧
    s.slotFor (c % 1024) (s.treeFc tr) = none ∧ s.selector (c % 1024) ≠ 3) :=
  ⟨⟨up, .a0, by decide +kernel⟩,
    ⟨(psd 0x40 (z 40) ((en [pgLSEC]).setTf pgLSEC 0 3 0 1 1 1) : State), .a0, (lfr 0x40 (z 40) : LineFrag), 3,
    by decide +kernel⟩,
    ⟨(psd 0x40 (z 40) (en [pgLSEC]) : State), .a0, (lfr 0x40 (z 40) : LineFrag), 3, by decide +kernel⟩,
    ⟨(psd 0x40 (z 7 ++ [1#8] ++ z 32) ((en [pgLSEC]).setTf pgLSEC 0 3 0 0 0 1 |>.setTf pgLSEC 1 6 0 0 0 1) : State), .a0,
    (lfr 0x40 (z 7 ++ [1#8] ++ z 32) : LineFrag), 3, 0, by decide +kernel⟩,
    ⟨up, 3, by decide +kernel⟩,
    ⟨((en [pgLSEC]).setTf pgLSEC 0 3 0 3 2 3 |>.setTf pgLSEC 1 6 0 0 0 1 |>.setFld (pgFRM .a0) FRM.stateHdrState 2 |>.setFld (pgFRM .a0) FRM.stateControl 1 : State),
    3, 0, .a, by decide +kernel⟩,
    ⟨(((en [pgLSEC]).modLsec (fun x => {x with sel1 := [(3, 0)], sel2 := [(3, 0)]})).setTf pgLSEC 1 6 0 0 0 1 |>.setFld (pgFRM .a0) FRM.stateHdrState 2 |>.setFld (pgFRM .a0) FRM.stateControl 1 : State),
    3, 0, .a, by decide +kernel⟩,
    ⟨(((ck up).modLsec (fun x => {x with sel1 := [(3, 0)], sel2 := [(3, 0)]})).setTf pgLSEC 0 3 0 3 2 0 : State), 3, .a,
    by decide +kernel⟩⟩

theorem witness_KeysAndJobsRun :
    (∃ (s : State) (n : Nat) (k : Nat), Ready s pgCCRY ∧ k = n % 8 ∧
    (s.jobState k = 0 ∨ s.jobState k = 4 ∨ s.jobState k = 5) ∧ s.jobOp k = 7 ∧ s.jobKeystore k = false) ∧
    (∃ (s : State) (n : Nat), Ready s pgCCRY ∧ (s.jobState (n % 8) = 1 ∨ s.jobState (n % 8) = 2)) ∧
    (∃ (s : State) (n : Nat) (k : Nat), Ready s pgCCRY ∧ k = n % 8 ∧ 1 ≤ s.jobState k ∧ s.jobState k ≤ 3) ∧
    (∃ (s : State) (n : Nat) (k : Nat), Ready s pgCCRY ∧ k = n % 8 ∧ s.jobState k = 3 ∧ (s.job k).keystore = false ∧
    opKeyed (s.job k).op = false) ∧
    (∃ (s : State) (n : Nat) (k : Nat), Ready s pgCCRY ∧ k = n % 8 ∧ s.jobState k = 3 ∧ (s.job k).keystore = true) ∧
    (∃ (s : State) (n : Nat) (k : Nat), Ready s pgCCRY ∧ k = n % 8 ∧ s.jobState k = 3 ∧
    s.flag pgCCRY CCRY.statusKeystoreReady = false) ∧
    (∃ (s : State) (n : Nat), Ready s pgCCRY ∧ s.jobState (n % 8) ≠ 3) ∧
    (∃ (s : State) (n : Nat) (k : Nat), Ready s pgCCRY ∧ k = n % 8 ∧
    (s.jobState k = 0 ∨ s.jobState k = 4 ∨ s.jobState k = 5) ∧ (byteAt (s.sramBytes s.xferAddr 8) 6).testBit 0 = false) ∧
    (∃ (s : State) (n : Nat) (k : Nat), k = n % 8 ∧ s.jobState k = 2 ∧ (s.job k).op = 7) ∧
    (∃ (s : State) (n : Nat), s.jobState (n % 8) ≠ 2) ∧
    (∃ (s : State), Ready s pgKST ∧ s.enabled pgKST = true ∧ s.flag pgSUP SUP.statusVkeepWarning = false ∧ s.kst.job = 0) ∧
    (∃ (s : State), Ready s pgKST ∧ s.enabled pgKST = true ∧ s.flag pgSUP SUP.statusVkeepWarning = true) ∧
    (∃ (s : State), Ready s pgKST ∧ (s.enabled pgKST = false ∨ (s.flag pgSUP SUP.statusVkeepWarning = false ∧
    s.kst.job ≠ 0))) ∧
    (∃ (s : State), s.kst.job = 1 ∧ s.flag pgSUP SUP.statusVkeepWarning = false) ∧
    (∃ (s : State), s.kst.job ≠ 1) ∧
    (∃ (s : State), Ready s pgKST ∧ s.enabled pgKST = true ∧ s.kst.job = 0) ∧
    (∃ (s : State), s.kst.job = 2) ∧
    (∃ (s : State), s.kst.job ≠ 2) :=
  ⟨⟨(up.setTf pgCCRY 0 2 0 4 0 7 : State), 10, 2, by unfold Ready; decide +kernel⟩,
    ⟨((up.setTf pgCCRY 0 2 6 2 0 1) : State), 10, by unfold Ready; decide +kernel⟩,
    ⟨((up.setTf pgCCRY 0 2 6 2 0 3) : State), 10, 2, by unfold Ready; decide +kernel⟩,
    ⟨((up.setTf pgCCRY 0 2 6 2 0 3).modCcry (fun x => {x with jobs := [(2, {op := 7})]}) : State), 10, 2,
    by unfold Ready; decide +kernel⟩,
    ⟨((up.setTf pgCCRY 0 2 6 2 0 3).modCcry (fun x => {x with jobs := [(2, {op := 7, keystore := true})]}) : State), 10, 2,
    by unfold Ready; decide +kernel⟩,
    ⟨((up.setTf pgCCRY 0 2 6 2 0 3).modCcry (fun x => {x with jobs := [(2, {op := 7})]}) : State), 10, 2,
    by unfold Ready; decide +kernel⟩,
    ⟨up, 10, by unfold Ready; decide +kernel⟩,
    ⟨up, 10, 2, by unfold Ready; decide +kernel⟩,
    ⟨((up.setTf pgCCRY 0 2 6 2 0 2).modCcry (fun x => {x with jobs := [(2, {op := 7})]}) : State), 10, 2,
    by decide +kernel⟩,
    ⟨up, 10, by decide +kernel⟩,
    ⟨(en [pgKST] : State), by unfold Ready; decide +kernel⟩,
    ⟨((en [pgKST]).setFld pgSUP SUP.statusVkeepWarning 1 : State), by unfold Ready; decide +kernel⟩,
    ⟨up, by unfold Ready; decide +kernel⟩,
    ⟨((en [pgKST]).modKst (fun x => {x with job := 1}) : State), by decide +kernel⟩,
    ⟨up, by decide +kernel⟩,
    ⟨(en [pgKST] : State), by unfold Ready; decide +kernel⟩,
    ⟨((en [pgKST]).modKst (fun x => {x with job := 2}) : State), by decide +kernel⟩,
    ⟨up, by decide +kernel⟩⟩

theorem witness_TimeKept :
    (∃ (s : State) (r : Rx), Ready s pgTIME ∧ s.hostReceiver = some r) ∧
    (∃ (s : State), Ready s pgTIME ∧ s.hostReceiver = none) ∧
    (∃ (s : State) (r : Rx), (s.time.setPending = false ∨ s.works pgTIME = false ∨ s.hostReceiver ≠ some r)) ∧
    (∃ (s : State) (r : Rx), s.time.setPending = true ∧ s.works pgTIME = true ∧ s.hostReceiver = some r ∧
    s.frontContributes .a = false ∧ s.frontContributes .b = false ∧ s.time.acquired = false) ∧
    (∃ (s : State), Ready s pgTIME) ∧
    (∃ (s : State), Ready s pgTIME ∧ s.enabled pgTIME = false) ∧
    (∃ (s : State), s.time.calibrating = true ∧ s.works pgTIME = true) ∧
    (∃ (s : State), (s.time.calibrating = false ∨ s.works pgTIME = false)) ∧
    (∃ (s : State), Ready s pgTIME ∧ s.enabled pgTIME = true) ∧
    (∃ (s : State), s.works pgTIME = true ∧ s.timeValid = true ∧ s.ppsDue = true ∧ s.flag pgTIME TIME.cfgPpsEnable = true) ∧
    (∃ (s : State), (s.timeValid = false ∨ s.ppsDue = false)) ∧
    (∃ (s : State), s.time.pps = true ∧ s.time.ppsAt + s.ppsWidth ≤ s.now) ∧
    (∃ (s : State), (s.time.pps = false ∨ s.now < s.time.ppsAt + s.ppsWidth)) ∧
    (∃ (s : State) (p : Nat) (tag : Nat), tag < 256 ∧ s.works pgTIME = true ∧ s.timeValid = true ∧
    s.launchDue (256 * p + tag) = true ∧ (p, tag) ∉ s.time.eligible) :=
  ⟨⟨(up.setFld (pgFRM .a0) FRM.stateHdrState 2 |>.setFld (pgFRM .a0) FRM.stateControl 1 : State), .a0,
  by unfold Ready; decide +kernel⟩,
    ⟨up, by unfold Ready; decide +kernel⟩,
    ⟨up, .a0, by decide +kernel⟩,
    ⟨(((en [pgTIME]) |>.setFld (pgFRM .a0) FRM.stateHdrState 2 |>.setFld (pgFRM .a0) FRM.stateControl 1).modTime (fun x => {x with setPending := true}) : State),
    .a0, by decide +kernel⟩,
    ⟨up, by unfold Ready; decide +kernel⟩,
    ⟨up, by unfold Ready; decide +kernel⟩,
    ⟨((en [pgTIME]).modTime (fun x => {x with calibrating := true}) : State), by decide +kernel⟩,
    ⟨up, by decide +kernel⟩,
    ⟨(en [pgTIME] : State), by unfold Ready; decide +kernel⟩,
    ⟨(((en [pgTIME]).setFld pgTIME TIME.statusValid 1 |>.setFld pgTIME TIME.cfgPpsEnable 1).modTime (fun x => { x with val := 9 * 10 ^ 9 * unitsPerNs }) : State),
    by decide +kernel⟩,
    ⟨up, by decide +kernel⟩,
    ⟨((up.modTime (fun x => { x with pps := true })).modNow (fun _ => 10 ^ 12) : State), by decide +kernel⟩,
    ⟨up, by decide +kernel⟩,
    ⟨(((en [pgTIME]).setFld pgTIME TIME.statusValid 1 |>.setTf pgTIME 2 (256*2+9) 0 0 0 1).modTime (fun x => { x with val := 9 * 10 ^ 9 * unitsPerNs }) : State),
    2, 9, by decide +kernel⟩⟩

theorem witness_PortsAndLanes :
    (∃ (s : State) (p : Nat) (acc : Access) (r : RegInfo), p < 16 ∧ Ready s (pgUNIQ p) ∧ acc.be = 15#4 ∧
    regInfo (pgUNIQ p) (0x030 + 0x20 * (p % 4)) = some r ∧ (∀ k, k < 16 → s.pflag k UNIQ.portCfgEnable = false)) ∧
    (∃ (s : State) (p : Nat) (acc : Access) (r : RegInfo), p < 16 ∧ Ready s (pgUNIQ p) ∧ acc.be = 15#4 ∧
    regInfo (pgUNIQ p) (0x030 + 0x20 * (p % 4)) = some r ∧ s.pflag p UNIQ.portCfgEnable = true ∧
    (s.reg (pgUNIQ p) (0x030 + 0x20 * (p % 4)) ^^^ s.writeValue (pgUNIQ p) (0x030 + 0x20 * (p % 4)) acc r) &&& 0xFE#32 ≠ 0#32) ∧
    (∃ (s : State) (p : Nat), p < 16 ∧ s.portOn p = true ∧ s.backplane p = true ∧ s.pflag p UNIQ.portCfgAnEnable = true ∧
    s.portLink p = false) ∧
    (∃ (s : State) (l : Nat), l < 16 ∧ s.laneWorks l = true) ∧
    (∃ (s : State) (l : Nat), l < 16 ∧ s.laneWorks l = true ∧ s.cdrLock l = true) ∧
    (∃ (s : State) (p : Nat) (up : LinkUpInfo), p < 16 ∧ s.portOn p = true ∧ s.lanesWork p = true ∧
    s.laneBlocked p = false ∧ s.portLink p = false ∧
    (s.backplane p = true → s.pflag p UNIQ.portCfgAnEnable = true → up.anDone = true) ∧ (∀ l ∈ s.portLanes p,
    s.cdrLock l = true ∧ s.adapting l = false) ∧ s.ownLanes p (up.lanes.map Prod.fst) = true) ∧
    (∃ (s : State) (p : Nat) (up : LinkUpInfo), p < 16 ∧
    (s.ownLanes p (up.lanes.map Prod.fst) = false ∨ (s.backplane p = true ∧ s.pflag p UNIQ.portCfgAnEnable = true ∧
    up.anDone = false))) ∧
    (∃ (s : State) (p : Nat), p < 16 ∧ s.portLink p = true) ∧
    (∃ (s : State) (p : Nat), p < 16 ∧ s.portLink p = false) ∧
    (∃ (s : State) (l : Nat), l < 16 ∧ s.laneWorks l = true) ∧
    (∃ (s : State) (l : Nat), l < 16 ∧ s.laneWorks l = true ∧ s.cdrLock l = true ∧ s.laneCfg l 3 3 = 0 ∧
    s.laneQuiet l = false ∧ s.adapting l = false ∧ Sparse.get 0 s.uni.eqLast l = 0) ∧
    (∃ (s : State) (l : Nat), l < 16 ∧ s.laneWorks l = true ∧ s.cdrLock l = true ∧ s.laneQuiet l = false ∧
    s.adapting l = true) ∧
    (∃ (s : State) (l : Nat) (levels : List Int) (k : Checker) (x : Checker × Nat × Nat × Bool), l < 16 ∧
    s.laneWorks l = true ∧ s.prbsLock l = false ∧ checkerLock (s.laneCheck l) (s.seenLevels l levels) = some k ∧
    x = k.run (s.laneCheck l) ((s.seenLevels l levels).drop (lockLevels (s.laneCheck l)))) ∧
    (∃ (s : State) (l : Nat) (levels : List Int), l < 16 ∧ s.prbsLock l = false ∧
    checkerLock (s.laneCheck l) (s.seenLevels l levels) = none) ∧
    (∃ (s : State) (l : Nat) (levels : List Int) (x : Checker × Nat × Nat × Bool), l < 16 ∧ s.laneWorks l = true ∧
    s.prbsLock l = true ∧ x = (Sparse.get {} s.uni.checkers l).run (s.laneCheck l) (s.seenLevels l levels)) ∧
    (∃ (s : State) (l : Nat), l < 16 ∧ s.laneWorks l = true ∧ s.laneCheck l ≠ 0 ∧ s.prbsLock l = false ∧
    s.laneCfg l 1 1 = 0) ∧
    (∃ (s : State) (l : Nat), l < 16 ∧ Ready s pgLANE ∧ s.laneWorks l = true) ∧
    (∃ (s : State) (l : Nat), l < 16 ∧ s.laneWorks l = true ∧ s.laneCfg l 18 14 ≠ 0) :=
  ⟨⟨((en [pgLANE]) : State), 2, (⟨.host, .normal, 15#4, 0x5#32⟩ : Access), ((regInfo (pgUNIQ 2) 0x070).get rfl : RegInfo),
  by unfold Ready; decide +kernel⟩,
    ⟨(portM 2 [] : State), 2, (⟨.host, .normal, 15#4, 0xFF#32⟩ : Access), ((regInfo (pgUNIQ 2) 0x070).get rfl : RegInfo),
    by unfold Ready; decide +kernel⟩,
    ⟨((portM 2 []).setFld (pgUNIQ 2) (slotFld 2 UNIQ.portCfgMedium) 1 |>.setFld (pgUNIQ 2) (slotFld 2 UNIQ.portCfgAnEnable) 1 : State),
    2, by decide +kernel⟩,
    ⟨((en [pgLANE]) : State), 5, by decide +kernel⟩,
    ⟨((en [pgLANE]).setFld pgLANE ⟨0x030, 5, 5⟩ 1 : State), 5, by decide +kernel⟩,
    ⟨((portM 2 []).setFld pgLANE ⟨0x030, 2, 2⟩ 1 : State), 2, (⟨true, true, [(0, false, 0)]⟩ : LinkUpInfo),
    by decide +kernel⟩,
    ⟨(portM 2 [] : State), 2, (⟨true, true, []⟩ : LinkUpInfo), by decide +kernel⟩,
    ⟨((portM 2 []) |>.setFld (pgUNIQ 2) (slotFld 2 UNIQ.portStatusLinkUp) 1 : State), 2, by decide +kernel⟩,
    ⟨up, 2, by decide +kernel⟩,
    ⟨((en [pgLANE]) : State), 5, by decide +kernel⟩,
    ⟨((en [pgLANE]).setFld pgLANE ⟨0x030, 5, 5⟩ 1 : State), 5, by decide +kernel⟩,
    ⟨(((en [pgLANE]).setFld pgLANE ⟨0x030, 5, 5⟩ 1).modUni (fun u => { u with adaptDue := [(5, true)] }) : State), 5,
    by decide +kernel⟩,
    ⟨((en [pgLANE]).setTf pgLANE 0 5 0 11 8 10 : State), 5,
    ((List.range 520).map (fun i => if i / 8 % 2 = 0 then (3 : Int) else -3) : List Int), ({ pos := 512 } : Checker),
    (({ pos := 512 } : Checker).run (((en [pgLANE]).setTf pgLANE 0 5 0 11 8 10 : State).laneCheck (5 : Nat)) ((((en [pgLANE]).setTf pgLANE 0 5 0 11 8 10 : State).seenLevels (5 : Nat) ((List.range 520).map (fun i => if i / 8 % 2 = 0 then (3 : Int) else -3) : List Int)).drop (lockLevels (((en [pgLANE]).setTf pgLANE 0 5 0 11 8 10 : State).laneCheck (5 : Nat)))) : Checker × Nat × Nat × Bool),
    by decide +kernel⟩,
    ⟨((en [pgLANE]).setTf pgLANE 0 5 0 11 8 10 : State), 5, ([1] : List Int), by decide +kernel⟩,
    ⟨(((en [pgLANE]).setFld pgLANE ⟨0x034, 5, 5⟩ 1).setTf pgLANE 0 5 0 11 8 10 : State), 5,
    (List.replicate 160 3 : List Int), ((Sparse.get {} (((en [pgLANE]).setFld pgLANE ⟨0x034, 5,
    5⟩ 1).setTf pgLANE 0 5 0 11 8 10 : State).uni.checkers (5 : Nat)).run ((((en [pgLANE]).setFld pgLANE ⟨0x034, 5,
    5⟩ 1).setTf pgLANE 0 5 0 11 8 10 : State).laneCheck (5 : Nat)) ((((en [pgLANE]).setFld pgLANE ⟨0x034, 5,
    5⟩ 1).setTf pgLANE 0 5 0 11 8 10 : State).seenLevels (5 : Nat) (List.replicate 160 3 : List Int)) : Checker × Nat × Nat × Bool),
    by decide +kernel⟩,
    ⟨((en [pgLANE]).setTf pgLANE 0 5 0 11 8 3 : State), 5, by decide +kernel⟩,
    ⟨((en [pgLANE]) : State), 5, by unfold Ready; decide +kernel⟩,
    ⟨((en [pgLANE]).setTf pgLANE 0 5 0 18 14 3 : State), 5, by decide +kernel⟩⟩

theorem witness_MacsReceive :
    (∃ (s : State) (p : Nat), p < 16 ∧ s.portLooped p = false ∧ s.portOn p = false) ∧
    (∃ (s : State) (p : Nat) (bs : Bytes), p < 16 ∧ s.portLooped p = false ∧ s.portOn p = true ∧ bs.length + 4 < 64) ∧
    (∃ (s : State) (p : Nat) (bs : Bytes), p < 16 ∧ s.portLooped p = false ∧ s.portOn p = true ∧ 64 ≤ bs.length + 4 ∧
    bs.length + 4 ≤ s.maxLen p ∧ fieldAt bs 12 2 ≠ 0x8808) ∧
    (∃ (s : State) (p : Nat) (n : Nat) (bs : Bytes), p < 16 ∧ s.portLooped p = false ∧ s.portOn p = true ∧
    64 ≤ bs.length + 4 ∧ bs.length + 4 ≤ s.maxLen p ∧ fieldAt bs 12 2 ≠ 0x8808 ∧ 0 < n) ∧
    (∃ (s : State) (p : Nat) (bs : Bytes), p < 16 ∧ s.portLooped p = false ∧ s.portOn p = true ∧ fieldAt bs 14 2 = 1 ∧
    s.fcMode p = 1) ∧
    (∃ (s : State) (p : Nat), p < 16 ∧ s.portLooped p = false ∧ s.portOn p = false) ∧
    (∃ (s : State) (p : Nat), p < 16 ∧ s.portLooped p = false ∧ s.portOn p = true ∧ s.fcMode p = 0) ∧
    (∃ (s : State) (p : Nat), p < 16 ∧ s.portLooped p = true) ∧
    (∃ (s : State) (p : Nat) (n : Nat), p < 16 ∧ n < 8 ∧ s.now < Sparse.get 0 s.uni.pauseUntil (8 * p + n)) ∧
    (∃ (s : State) (p : Nat) (n : Nat), p < 16 ∧ n < 8 ∧ Sparse.get 0 s.uni.pauseUntil (8 * p + n) ≤ s.now) ∧
    (∃ (s : State) (p : Nat) (n : Nat), p < 16 ∧ n < 8 ∧ s.fcMode p = 2 ∧ s.pauses p n = true ∧
    (s.pf p UNIQ.portStatusXoffTx).testBit n = true ∧ s.uni.ctrl = [] ∧ 16 * s.xonMark p n ≤ s.heldCells p n ∧
    2 * Sparse.get 0 s.uni.ctrlAt (8 * p + n) + s.quantaSym p (s.pf p UNIQ.portFcQuanta) ≤ 2 * s.now) ∧
    (∃ (s : State) (p : Nat), p < 16 ∧ s.fcMode p = 0) ∧
    (∃ (s : State) (p : Nat), p < 16 ∧ s.lpiAllowed p = true ∧ s.pflag p UNIQ.portStatusLpiTx = false ∧
    s.sendingOn p = none ∧ s.uni.ctrl.any (fun x => x.1 == p) = false ∧
    (s.queuesWith (ofPort p)).any (s.downEligible p) = false) ∧
    (∃ (p : Nat), p < 16) ∧
    (∃ (p : Nat), p < 16) :=
  ⟨⟨up, 2, by decide +kernel⟩,
    ⟨((portM 2 []) : State), 2, ([] : Bytes), by decide +kernel⟩,
    ⟨((portM 2 []) : State), 2, (z 60 : Bytes), by decide +kernel⟩,
    ⟨((portM 2 []) : State), 2, 3, (z 60 : Bytes), by decide +kernel⟩,
    ⟨((portM 2 []).setFld (pgUNIQ 2) (slotFld 2 UNIQ.portFcFcMode) 1 : State), 2, (z 15 ++ [1#8, 0#8, 9#8] ++ z 42 : Bytes),
    by decide +kernel⟩,
    ⟨up, 2, by decide +kernel⟩,
    ⟨((portM 2 []) : State), 2, by decide +kernel⟩,
    ⟨((portM 2 []).setTf pgLANE 0 2 0 13 12 1 : State), 2, by decide +kernel⟩,
    ⟨(up.modUni (fun u => { u with pauseUntil := [(19, 100)] }) : State), 2, 3, by decide +kernel⟩,
    ⟨up, 2, 3, by decide +kernel⟩,
    ⟨((((portM 2 []).setFld (pgUNIQ 2) (slotFld 2 UNIQ.portFcFcMode) 2 |>.setFld (pgUNIQ 2) (slotFld 2 UNIQ.portStatusLinkUp) 1 |>.setFld (pgUNIQ 2) (slotFld 2 UNIQ.portStatusXoffTx) 8 |>.setFld (pgUNIQ 2) (slotFld 2 UNIQ.portFcPfcEnable) 8 |>.setTf (pgUNIQ 2) 0 19 0 15 0 9)).modNow (fun _ => 10 ^ 12) : State),
    2, 3, by decide +kernel⟩,
    ⟨up, 2, by decide +kernel⟩,
    ⟨((portM 2 []) |>.setFld (pgUNIQ 2) (slotFld 2 UNIQ.portStatusLinkUp) 1 |>.setFld (pgUNIQ 2) (slotFld 2 UNIQ.portLpiLpiEnable) 1 : State),
    2, by decide +kernel⟩,
    ⟨2, by decide +kernel⟩,
    ⟨2, by decide +kernel⟩⟩

theorem witness_FunctionsConfigured :
    (∃ (s : State), s.padOpen 43 = false ∧ s.hif.perst = false) ∧
    (∃ (s : State), s.hif.perst = true) ∧
    (∃ (s : State), s.padOpen 43 = false ∧ s.hif.perst = true) ∧
    (∃ (s : State) (f : Nat), f < 256 ∧ (s.fnExists f = false ∨ s.hif.perst = true)) ∧
    (∃ (s : State) (f : Nat), f < 256 ∧ s.fnExists f = true ∧ s.hif.perst = false) ∧
    (∃ (s : State) (f : Nat), f < 256 ∧ s.fnExists f = true ∧ s.hif.perst = false) ∧
    (∃ (s : State), s.hif.perst = false ∧ s.hif.vfEnable = false) ∧
    (∃ (s : State) (f : Nat), f < 256 ∧ s.windowOpen f = true) ∧
    (∃ (s : State) (f : Nat) (v : Nat), f < 256 ∧ s.windowOpen f = true ∧ v < 2048) ∧
    (∃ (s : State) (f : Nat), f < 256 ∧ s.fnExists f = true ∧ s.hif.perst = false) ∧
    (∃ (s : State) (f : Nat), f < 256 ∧ (s.fn f).flr = true) ∧
    (∃ (s : State) (f : Nat), f < 256 ∧ (s.fn f).flr = false) ∧
    (∃ (s : State) (idle : Nat), s.hif.aspmL1 = true ∧ s.inL0 = true ∧ max 1 (s.fld pgHIF HIF.aspmL1Idle) ≤ idle) ∧
    (∃ (s : State), (s.hif.aspmL1 = false ∨ s.inL0 = false)) ∧
    (∃ (s : State), 1 ≤ s.pmState ∧ s.pmState ≤ 3) ∧
    (∃ (s : State) (c : Nat) (f : Nat), c < 2 ∧ f < 256 ∧ (s.fn f).pmeEn = true ∧ (s.fn f).d3 = true) ∧
    (∃ (s : State) (c : Nat) (f : Nat), c < 2 ∧ f < 256 ∧ (s.fn f).pmeEn = false) ∧
    (∃ (s : State), s.inL0 = true) ∧
    (∃ (s : State), Ready s pgHIF) :=
  ⟨⟨up, by decide +kernel⟩,
    ⟨((up.modHif (fun h => {h with perst := true})) : State), by decide +kernel⟩,
    ⟨((up.modHif (fun h => {h with perst := true})) : State), by decide +kernel⟩,
    ⟨up, 5, by decide +kernel⟩,
    ⟨up, 0, by decide +kernel⟩,
    ⟨up, 0, by decide +kernel⟩,
    ⟨up, by decide +kernel⟩,
    ⟨up, 0, by decide +kernel⟩,
    ⟨up, 0, 7, by decide +kernel⟩,
    ⟨up, 0, by decide +kernel⟩,
    ⟨(up.modFn 3 (fun x => {x with flr := true, busMaster := true}) : State), 3, by decide +kernel⟩,
    ⟨up, 3, by decide +kernel⟩,
    ⟨((((en [pgHIF]).setFld pgHIF HIF.linkStatusDlUp 1)).modHif (fun h => {h with aspmL1 := true}) : State), 70000,
    by decide +kernel⟩,
    ⟨up, by decide +kernel⟩,
    ⟨(up.setFld pgHIF HIF.linkStatusPmState 2 : State), by decide +kernel⟩,
    ⟨(up.modFn 3 (fun x => {x with pmeEn := true, d3 := true}) : State), 1, 3, by decide +kernel⟩,
    ⟨up, 1, 3, by decide +kernel⟩,
    ⟨(((en [pgHIF]).setFld pgHIF HIF.linkStatusDlUp 1) : State), by decide +kernel⟩,
    ⟨up, by unfold Ready; decide +kernel⟩⟩

theorem witness_RingsRun :
    (∃ (s : State) (f : Nat) (k : Nat) (tail : Nat) (rx : Bool), f < 256 ∧ k < 32 ∧ tail < 65536 ∧
    s.ringOpen f rx k = true) ∧
    (∃ (s : State) (f : Nat) (k : Nat) (rx : Bool), f < 256 ∧ k < 32 ∧ s.ringOpen f rx k = true ∧
    s.rg f rx k RING.ctrlState ≠ 0) ∧
    (∃ (s : State) (f : Nat) (k : Nat) (rx : Bool), f < 256 ∧ k < 32 ∧ s.rg f rx k RING.ctrlState = 3 ∧
    s.ringBusy f rx k = false) ∧
    (∃ (s : State) (f : Nat) (k : Nat) (j : TxJob), f < 256 ∧ k < 32 ∧ s.ringOpen f false k = true ∧
    s.rg f false k RING.ctrlState = 2 ∧ (s.ring f false k).stopped = some j) ∧
    (∃ (s : State) (f : Nat) (k : Nat), f < 256 ∧ k < 32 ∧ s.txReady f k = false ∧ s.txDraining f k = false) ∧
    (∃ (s : State) (f : Nat) (k : Nat) (es : List Bytes) (fr : List TxEntry), f < 256 ∧ k < 32 ∧ s.txReady f k = true ∧
    parseTx ((es.map txEntry).take (s.rgPosted f false k)) = .frame fr ∧ 14 ≤ txLength fr ∧
    txLength fr + 4 ≤ s.fld pgSWC SWC.mtuMtu) ∧
    (∃ (s : State) (f : Nat) (k : Nat) (es : List Bytes) (fr : List TxEntry), f < 256 ∧ k < 32 ∧ s.txDraining f k = true ∧
    parseTx ((es.map txEntry).take (s.rgPosted f false k)) = .frame fr) ∧
    (∃ (f : Nat) (k : Nat) (j : TxJob) (e : TxEntry) (x : Frame) (s : State) (bs : Bytes), f < 256 ∧ k < 32 ∧
    (s.ring f false k).job = some j ∧ j.admitted = true ∧ j.seg + 1 = j.entries.length ∧ j.entries[j.seg]? = some e ∧
    s.frame j.id = some x ∧ cellsOf (j.bytes ++ bs.take e.len).length ≤ x.cells.length) ∧
    (∃ (s : State) (f : Nat) (k : Nat) (j : TxJob) (c : Nat), f < 256 ∧ k < 32 ∧ c < 8 ∧ (s.ring f false k).job = some j) ∧
    (∃ (s : State) (f : Nat) (k : Nat), f < 256 ∧ k < 32 ∧ (s.ring f false k).job = none) ∧
    (∃ (s : State) (f : Nat) (cls : Nat) (c : Copy), f < 256 ∧ cls < 16 ∧ s.sendingOn (handKey f cls) = some c ∧
    s.fnEnabled f = true ∧ s.frameBad c.frame = false ∧ s.hostRoomIn [1, 3] f c.hash c.length = true) ∧
    (∃ (s : State) (f : Nat) (k : Nat) (rx : Bool), f < 256 ∧ k < 32 ∧ (s.ring f rx k).interval = false) ∧
    (∃ (s : State) (f : Nat) (k : Nat) (rx : Bool), f < 256 ∧ k < 32 ∧ (s.ring f rx k).interval = true) :=
  ⟨⟨fnOn, 0, 3, 9, false, by decide +kernel⟩,
    ⟨(txW 1 : State), 0, 3, false, by decide +kernel⟩,
    ⟨((txW 3).setFld (fnPage 0) (ringFld false 3 RING.headHead) 5 : State), 0, 3, false, by decide +kernel⟩,
    ⟨((txW 2).modRing 0 false 3 (fun r => { r with stopped := some { entries := [⟨0x1000, 64, true, true, true, 0, 7⟩], id := 9 } }) : State),
    0, 3, ({ entries := [⟨0x1000, 64, true, true, true, 0, 7⟩], id := 9 } : TxJob), by decide +kernel⟩,
    ⟨up, 0, 3, by decide +kernel⟩,
    ⟨(txW 1 : State), 0, 3, ([[0#8, 0x10#8] ++ z 6 ++ [64#8, 0#8, 7#8, 0#8, 7#8, 0#8, 0#8, 0#8]] : List Bytes), ([⟨0x1000,
    64, true, true, true, 0, 7⟩] : List TxEntry), by decide +kernel⟩,
    ⟨(txW 3 : State), 0, 3, ([[0#8, 0x10#8] ++ z 6 ++ [64#8, 0#8, 7#8, 0#8, 7#8, 0#8, 0#8, 0#8]] : List Bytes), ([⟨0x1000,
    64, true, true, true, 0, 7⟩] : List TxEntry), by decide +kernel⟩,
    ⟨0, 3, ({ entries := [⟨0x1000, 64, true, true, true, 0, 7⟩], id := 9 , admitted := true } : TxJob), (⟨0x1000, 64, true,
    true, true, 0, 7⟩ : TxEntry),
    ({ srcKind := 2, srcNum := 0, tenant := 0, rate := 100, bytes := [], cells := [1, 2] } : Frame),
    ((jobW { entries := [⟨0x1000, 64, true, true, true, 0, 7⟩], id := 9 , admitted := true }).modSto (fun x => {x with frames := [(9, some { srcKind := 2, srcNum := 0, tenant := 0, rate := 100, bytes := [], cells := [1, 2] })]}) : State),
    (z 64 : Bytes), by decide +kernel⟩,
    ⟨(jobW { entries := [⟨0x1000, 64, true, true, true, 0, 7⟩], id := 9 } : State), 0, 3,
    ({ entries := [⟨0x1000, 64, true, true, true, 0, 7⟩], id := 9 } : TxJob), 2, by decide +kernel⟩,
    ⟨up, 0, 3, by decide +kernel⟩,
    ⟨((rxW 1).modSto (fun x => {x with sending := [(handKey 0 2, some { frame := 5, queue := 3, length := 64})]}) : State),
    0, 2, ({ frame := 5, queue := 3, length := 64} : Copy), by decide +kernel⟩,
    ⟨up, 0, 3, false, by decide +kernel⟩,
    ⟨(fnOn.modRing 0 false 3 (fun r => { r with interval := true, held := true }) : State), 0, 3, false, by decide +kernel⟩⟩

theorem witness_HostLinksTrain :
    (∃ (s : State) (u : Nat) (ms : Nat), s.mayNarrow = true ∧ s.hif.narrowing = false ∧ s.widthDue u ms = true) ∧
    (∃ (s : State) (u : Nat) (ms : Nat), (s.mayNarrow = false ∨ s.widthDue u ms = false)) ∧
    (∃ (s : State) (w : Nat) (r : Nat), s.hif.narrowing = true ∧ s.trains w r = true) ∧
    (∃ (s : State) (w : Nat) (r : Nat), (s.hif.narrowing = false ∨ s.trains w r = false)) ∧
    (∃ (s : State) (u : Nat) (ms : Nat), s.hif.retryDue = true ∧ s.mayNarrow = true ∧ s.widthDue u ms = true) ∧
    (∃ (s : State), Ready s pgHIF ∧ s.enabled pgHIF = false) ∧
    (∃ (s : State) (res : Nat) (sp : Nat) (w : Nat), s.hif.enumerating = true ∧ (res ≠ 1 ∨ cxlTrains sp w = true)) ∧
    (∃ (s : State) (res : Nat) (sp : Nat) (w : Nat), (s.hif.enumerating = false ∨ (res = 1 ∧ cxlTrains sp w = false))) ∧
    (∃ (s : State), s.flag pgHIF HIF.cxlStatusLinkUp = true) ∧
    (∃ (s : State) (w : Nat) (r : Nat), s.hif.perst = false ∧ s.trains w r = true) ∧
    (∃ (s : State) (w : Nat) (r : Nat), (s.hif.perst = true ∨ s.trains w r = false)) :=
  ⟨⟨(((en [pgHIF]).setFld pgHIF HIF.linkStatusDlUp 1).setFld pgHIF HIF.linkCfgAutoNarrow 1 : State), 0, 70000,
  by decide +kernel⟩,
    ⟨up, 0, 0, by decide +kernel⟩,
    ⟨((((en [pgHIF]).setFld pgHIF HIF.linkStatusDlUp 1).setFld pgHIF HIF.linkCfgAutoNarrow 1).modHif (fun h => {h with narrowing := true}) : State),
    4, 4, by decide +kernel⟩,
    ⟨up, 3, 4, by decide +kernel⟩,
    ⟨((((en [pgHIF]).setFld pgHIF HIF.linkStatusDlUp 1).setFld pgHIF HIF.linkCfgAutoNarrow 1).modHif (fun h => {h with retryDue := true}) : State),
    0, 70000, by decide +kernel⟩,
    ⟨up, by unfold Ready; decide +kernel⟩,
    ⟨((en [pgHIF]).modHif (fun h => {h with enumerating := true}) : State), 1, 5, 4, by decide +kernel⟩,
    ⟨up, 1, 5, 3, by decide +kernel⟩,
    ⟨((en [pgHIF]).setFld pgHIF HIF.cxlStatusLinkUp 1 : State), by decide +kernel⟩,
    ⟨up, 4, 4, by decide +kernel⟩,
    ⟨up, 3, 4, by decide +kernel⟩⟩

theorem witness_TasksScheduled :
    (∃ (s : State) (c : Nat) (k : Nat), c < 16 ∧ k < 1024 ∧ s.dispatching = true ∧ s.coreUp c = true ∧
    (s.coreRun c).run = none ∧ (s.coreRun c).slots = [] ∧ s.bestFor c s.taskPreempts = some k) ∧
    (∃ (s : State) (c : Nat) (k : Nat), c < 16 ∧ k < 1024 ∧ s.dispatching = true ∧ s.coreUp c = true ∧
    (s.coreRun c).run = none ∧ (s.coreRun c).slots.any (fun y => y.task == k) = true ∧ s.taskWaitHolds k = true ∧
    s.tb pgTSK 0 k 0 0 = true ∧ s.flowBlocked k = false) ∧
    (∃ (s : State) (c : Nat) (k : Nat), c < 16 ∧ k < 1024 ∧
    (s.dispatching = false ∨ s.coreFree c = false ∨ (s.coreRun c).run.isSome = true)) ∧
    (∃ (s : State) (c : Nat) (k : Nat), c < 16 ∧ k < 1024 ∧ s.dispatching = true ∧ s.clusterOn c = true ∧
    s.bestFor c (fun r => !s.taskPreempts r) = some k ∧ s.slotChoice k = some c) ∧
    (∃ (s : State) (c : Nat) (k : Nat) (r : TaskRun), c < 16 ∧ k < 1024 ∧ s.dispatching = true ∧ s.coreUp c = true ∧
    (s.coreRun c).run = some r ∧ (s.coreRun c).stack.length < 4 ∧ s.taskPriority k < s.taskPriority r.task ∧
    s.bestFor c s.taskPreempts = some k) ∧
    (∃ (s : State) (c : Nat) (r : TaskRun), c < 16 ∧ s.coreUp c = true ∧ (s.coreRun c).run = some r) ∧
    (∃ (s : State) (c : Nat), c < 16 ∧ (s.coreRun c).run = none) ∧
    (∃ (s : State) (c : Nat) (k : Nat) (b : Nat), c < 16 ∧ k < 1024 ∧ b < 32 ∧ s.coreUp c = true) ∧
    (∃ (s : State) (c : Nat) (fl : Nat) (g : Nat) (r : TaskRun), c < 16 ∧ fl < 65536 ∧ s.coreUp c = true ∧
    (s.coreRun c).run = some r ∧ s.heldFlow r.task = some g) ∧
    (∃ (s : State) (c : Nat) (fl : Nat) (g : Nat) (r : TaskRun), c < 16 ∧ fl < 65536 ∧ s.coreUp c = true ∧
    (s.coreRun c).run = some r ∧ s.heldFlow r.task = some g ∧ g < 65536) ∧
    (∃ (s : State) (c : Nat) (fl : Nat) (g : Nat) (r : TaskRun), c < 16 ∧ fl < 65536 ∧ s.coreUp c = true ∧
    (s.coreRun c).run = some r ∧ s.heldFlow r.task = some g ∧ fl ≠ g) ∧
    (∃ (s : State) (k : Nat), k < 16 ∧ s.alive pgTSK = true ∧ s.tb pgTSK 3 k 0 25 = true ∧ s.timerEnd k ≤ s.now) ∧
    (∃ (s : State) (k : Nat), k < 16 ∧ (s.tb pgTSK 3 k 0 25 = false ∨ s.now < s.timerEnd k)) ∧
    (∃ (s : State) (k : Nat) (b : Nat), k < 1024 ∧ b < 32 ∧ Ready s pgTSK ∧ s.tb pgTSK 0 k 0 6 = true) ∧
    (∃ (s : State) (k : Nat) (b : Nat), k < 1024 ∧ b < 32 ∧ Ready s pgTSK ∧ s.tb pgTSK 0 k 0 6 = false) ∧
    (∃ (s : State) (k : Nat), k < 1024 ∧ s.fld pgTSK TSK.cfgLateUs ≠ 0 ∧ s.tsk.ready.contains k = true ∧
    s.tsk.late.contains k = false ∧ Sparse.get 0 s.tsk.since k + s.fld pgTSK TSK.cfgLateUs * symPerUs ≤ s.now) ∧
    (∃ (s : State) (k : Nat), k < 1024 ∧
    (s.fld pgTSK TSK.cfgLateUs = 0 ∨ s.tsk.late.contains k = true ∨ s.now < Sparse.get 0 s.tsk.since k + s.fld pgTSK TSK.cfgLateUs * symPerUs)) :=
  ⟨⟨(coreW.setTf pgTSK 0 0 0 1 1 1 : State), 2, 0, by decide +kernel⟩,
    ⟨(((runs { slots := [⟨0, 0⟩] }).putTw pgTSK 1 0 0 1#32).putTw pgTSK 0 0 1 1#32 : State), 2, 0, by decide +kernel⟩,
    ⟨up, 2, 0, by decide +kernel⟩,
    ⟨(runs {run := some ⟨7, 0#32, 0⟩} : State), 0, 0, by decide +kernel⟩,
    ⟨((runs {run := some ⟨7, 0#32, 0⟩}).putTw pgTSK 0 0 0 0xFF03#32 |>.setTf pgTSK 0 7 0 4 2 5 : State), 2, 0, (⟨7, 0#32,
    0⟩ : TaskRun), by decide +kernel⟩,
    ⟨(runs {run := some ⟨7, 0#32, 0⟩} : State), 2, (⟨7, 0#32, 0⟩ : TaskRun), by decide +kernel⟩,
    ⟨up, 2, by decide +kernel⟩,
    ⟨coreW, 2, 0, 5, by decide +kernel⟩,
    ⟨((runs {run := some ⟨7, 0#32, 0⟩}).modCore (fun x => {x with flows := [(4, some 7)]}) : State), 2, 9, 4, (⟨7, 0#32,
    0⟩ : TaskRun), by decide +kernel⟩,
    ⟨((runs {run := some ⟨7, 0#32, 0⟩}).modCore (fun x => {x with flows := [(4, some 7)]}) : State), 2, 9, 4, (⟨7, 0#32,
    0⟩ : TaskRun), by decide +kernel⟩,
    ⟨((runs {run := some ⟨7, 0#32, 0⟩}).modCore (fun x => {x with flows := [(4, some 7)]}) : State), 2, 9, 4, (⟨7, 0#32,
    0⟩ : TaskRun), by decide +kernel⟩,
    ⟨(up.setTf pgTSK 3 0 0 25 25 1 : State), 0, by decide +kernel⟩,
    ⟨up, 0, by decide +kernel⟩,
    ⟨(up.setTf pgTSK 0 0 0 6 6 1 : State), 0, 5, by unfold Ready; decide +kernel⟩,
    ⟨up, 0, 5, by unfold Ready; decide +kernel⟩,
    ⟨((coreW.setFld pgTSK TSK.cfgLateUs 50).modNow (fun _ => 10 ^ 9) : State), 0, by decide +kernel⟩,
    ⟨up, 0, by decide +kernel⟩⟩

theorem witness_CoresWatched :
    (∃ (s : State) (c : Nat), c < 16 ∧ s.coreUp c = true) ∧
    (∃ (s : State) (c : Nat), c < 16 ∧ s.coreUp c = false) ∧
    (∃ (s : State) (c : Nat), c < 16 ∧ s.coreUp c = true ∧ s.fld pgCORE CORE.wdogTimeout ≠ 0 ∧
    (s.coreRun c).run.isSome = true ∧ (s.coreRun c).kick + s.fld pgCORE CORE.wdogTimeout * symPerMs ≤ s.now) ∧
    (∃ (s : State) (c : Nat), c < 16 ∧
    (s.coreUp c = false ∨ s.fld pgCORE CORE.wdogTimeout = 0 ∨ (s.coreRun c).run = none ∨ s.now < (s.coreRun c).kick + s.fld pgCORE CORE.wdogTimeout * symPerMs)) ∧
    (∃ (s : State) (mask : Nat), mask < 65536 ∧ Ready s pgCORE) ∧
    (∃ (s : State) (c : Nat), c < 16 ∧ s.coreUp c = true) ∧
    (∃ (s : State) (c : Nat) (addr : Nat) (use : CoreUse), c < 16 ∧ s.coreUp c = true ∧ s.coreMay c use addr = true) ∧
    (∃ (s : State) (c : Nat) (addr : Nat) (use : CoreUse), c < 16 ∧ s.coreUp c = true ∧ s.coreMay c use addr = false) ∧
    (∃ (s : State) (c : Nat), c < 16 ∧ s.coreUp c = false) ∧
    (∃ (s : State) (k : Nat) (tail : Nat), k < 4 ∧ tail < 65536 ∧ s.dark pgCORE = false) ∧
    (∃ (s : State), s.dark pgCORE = true) :=
  ⟨⟨(en [pgCORE] : State), 2, by decide +kernel⟩,
    ⟨up, 2, by decide +kernel⟩,
    ⟨(((runs { run := some ⟨7, 0#32, 0⟩ }).setFld pgCORE CORE.wdogTimeout 9).modNow (fun _ => 10 ^ 12) : State), 2,
    by decide +kernel⟩,
    ⟨up, 2, by decide +kernel⟩,
    ⟨up, 5, by unfold Ready; decide +kernel⟩,
    ⟨(en [pgCORE] : State), 2, by decide +kernel⟩,
    ⟨(en [pgCORE] : State), 2, 0, .load, by decide +kernel⟩,
    ⟨(en [pgCORE] : State), 2, 0xFFFFFFFF, .load, by decide +kernel⟩,
    ⟨up, 2, by decide +kernel⟩,
    ⟨up, 1, 9, by decide +kernel⟩,
    ⟨(held 6 : State), by decide +kernel⟩⟩

theorem witness_FlashRuns :
    (∃ (s : State), Ready s pgFLSH ∧ s.works pgFLSH = true ∧ s.flsh.waiting = [] ∧ s.flsh.cur = none ∧ s.flsh.erase = none ∧
    s.fld (corePage pgFLSH) FLSH.addrAddr < flashSize ∧
    s.fld (corePage pgFLSH) FLSH.addrAddr + s.fld (corePage pgFLSH) FLSH.lenLen ≤ flashSize) ∧
    (∃ (s : State), Ready s pgFLSH ∧ s.works pgFLSH = true ∧ s.flsh.waiting = [] ∧ s.flsh.cur = none ∧ s.flsh.erase = none ∧
    s.fld (corePage pgFLSH) FLSH.addrAddr < flashSize ∧
    s.fld (corePage pgFLSH) FLSH.addrAddr + s.fld (corePage pgFLSH) FLSH.lenLen ≤ flashSize) ∧
    (∃ (s : State), Ready s pgFLSH ∧ s.works pgFLSH = true ∧ s.flsh.waiting = [] ∧ s.flsh.cur = none ∧ s.flsh.erase = none ∧
    s.fld (corePage pgFLSH) FLSH.addrAddr < flashSize ∧
    s.fld (corePage pgFLSH) FLSH.addrAddr + s.fld (corePage pgFLSH) FLSH.lenLen ≤ flashSize ∧
    s.flag pgSUP SUP.statusVkeepWarning = false ∧ s.journalSlot.1 ≠ none) ∧
    (∃ (s : State), Ready s pgFLSH ∧ s.works pgFLSH = true ∧ s.flsh.waiting = [] ∧ s.flsh.cur = none ∧ s.flsh.erase = none ∧
    s.fld (corePage pgFLSH) FLSH.addrAddr < flashSize ∧
    s.fld (corePage pgFLSH) FLSH.addrAddr + s.fld (corePage pgFLSH) FLSH.lenLen ≤ flashSize ∧
    s.flag pgSUP SUP.statusVkeepWarning = true) ∧
    (∃ (s : State), Ready s pgFLSH ∧ s.works pgFLSH = true ∧ s.flashBusy .core = false ∧
    flashSize ≤ s.fld (corePage pgFLSH) FLSH.addrAddr) ∧
    (∃ (s : State) (v : Word), Ready s pgFLSH ∧ s.works pgFLSH = true ∧ v ∈ [5#32, 6#32, 7#32]) ∧
    (∃ (s : State) (c : FlashCmd), s.flsh.cur = some c ∧ s.flsh.waiting = []) ∧
    (∃ (s : State) (c : FlashCmd), s.flsh.cur = some c ∧ s.flsh.waiting = [] ∧ c.op = 1) ∧
    (∃ (s : State), s.flsh.cur = none) ∧
    (∃ (s : State) (c : FlashCmd), s.flsh.erase = some c ∧ s.flsh.suspended = false ∧ s.flsh.waiting = []) ∧
    (∃ (s : State), (s.flsh.erase = none ∨ s.flsh.suspended = true)) :=
  ⟨⟨((en [pgFLSH]) : State), by unfold Ready; decide +kernel⟩,
    ⟨((en [pgFLSH]) : State), by unfold Ready; decide +kernel⟩,
    ⟨((en [pgFLSH]) : State), by unfold Ready; decide +kernel⟩,
    ⟨((en [pgFLSH]).setFld pgSUP SUP.statusVkeepWarning 1 : State), by unfold Ready; decide +kernel⟩,
    ⟨((en [pgFLSH]).setFld (corePage pgFLSH) FLSH.addrAddr flashSize : State), by unfold Ready; decide +kernel⟩,
    ⟨(en [pgFLSH] : State), (5#32 : Word), by unfold Ready; decide +kernel⟩,
    ⟨((en [pgFLSH]).modFlsh (fun x => {x with cur := some ⟨.core, 1, false, 0, 16, 0⟩}) : State), (⟨.core, 1, false, 0, 16,
    0⟩ : FlashCmd), by decide +kernel⟩,
    ⟨((en [pgFLSH]).modFlsh (fun x => {x with cur := some ⟨.core, 1, false, 0, 16, 0⟩}) : State), (⟨.core, 1, false, 0, 16,
    0⟩ : FlashCmd), by decide +kernel⟩,
    ⟨up, by decide +kernel⟩,
    ⟨((en [pgFLSH]).modFlsh (fun x => {x with erase := some ⟨.core, 3, false, 0, 16, 0⟩}) : State), (⟨.core, 3, false, 0,
    16, 0⟩ : FlashCmd), by decide +kernel⟩,
    ⟨up, by decide +kernel⟩⟩

theorem witness_BootAndPuntyRun :
    (∃ (s : State), s.region 6 ≠ 0) ∧
    (∃ (s : State), s.region 6 = 0) ∧
    (∃ (s : State), Ready s pgFLSH) ∧
    (∃ (s : State), Ready s pgFLSH ∧ s.core.noImage = true ∧ (∀ n, n < 3 → s.manifestValid n = false)) ∧
    (∃ (s : State), Ready s pgFLSH ∧ s.core.noImage = false) ∧
    (∃ (s : State), Ready s pgCORE ∧ (s.puntyState = 0 ∨ 5 ≤ s.puntyState)) ∧
    (∃ (s : State), Ready s pgCORE ∧ 1 ≤ s.puntyState ∧ s.puntyState < 5) ∧
    (∃ (s : State), s.puntyState = 1 ∧ s.halfRuns (1 - s.activeHalf) = false ∧ s.halfSlots (1 - s.activeHalf) = false) ∧
    (∃ (s : State), s.puntyState ≠ 1) ∧
    (∃ (s : State), Ready s pgCORE ∧ s.puntyState = 2 ∧ s.core.parison.isSome = true) ∧
    (∃ (s : State), Ready s pgCORE ∧ s.puntyState = 3) ∧
    (∃ (s : State), Ready s pgCORE ∧ s.puntyState ≠ 3) ∧
    (∃ (s : State), s.puntyState = 4 ∧ s.halfRuns s.activeHalf = false) ∧
    (∃ (s : State), (s.puntyState ≠ 4 ∨ s.halfRuns s.activeHalf = true)) ∧
    (∃ (s : State), Ready s pgCORE ∧ 1 ≤ s.puntyState ∧ s.puntyState ≤ 4) ∧
    (∃ (s : State), s.puntyState = 4) ∧
    (∃ (s : State), s.puntyState ≠ 4) :=
  ⟨⟨(held 6 : State), by decide +kernel⟩,
    ⟨up, by decide +kernel⟩,
    ⟨up, by unfold Ready; decide +kernel⟩,
    ⟨(up.modCore (fun x => {x with noImage := true}) : State), by unfold Ready; decide +kernel⟩,
    ⟨up, by unfold Ready; decide +kernel⟩,
    ⟨up, by unfold Ready; decide +kernel⟩,
    ⟨(pun 2 : State), by unfold Ready; decide +kernel⟩,
    ⟨(pun 1 : State), by decide +kernel⟩,
    ⟨up, by decide +kernel⟩,
    ⟨((pun 2).modCore (fun x => {x with parison := some (1, 7)}) : State), by unfold Ready; decide +kernel⟩,
    ⟨(pun 3 : State), by unfold Ready; decide +kernel⟩,
    ⟨up, by unfold Ready; decide +kernel⟩,
    ⟨(pun 4 : State), by decide +kernel⟩,
    ⟨(pun 3 : State), by decide +kernel⟩,
    ⟨(pun 2 : State), by unfold Ready; decide +kernel⟩,
    ⟨(pun 4 : State), by decide +kernel⟩,
    ⟨up, by decide +kernel⟩⟩

theorem witness_DomainsCycle :
    (∃ (s : State) (d : Nat), d < 26 ∧ s.domState d = 0 ∧ s.policyOf d ≠ 0 ∧ s.domIdle d = true ∧
    (d ≠ 24 ∨ s.anySlotValid = false)) ∧
    (∃ (s : State) (d : Nat) (page : Nat) (reason : Nat), d < 26 ∧ s.domState d = 0 ∧ s.policyOf d ≠ 0 ∧
    s.domIdle d = true ∧ d ≠ 24 ∧ page < 64 ∧ reason < 16) ∧
    (∃ (s : State) (d : Nat), (s.domState d ≠ 0 ∨ s.policyOf d = 0 ∨ s.domIdle d = false)) ∧
    (∃ (s : State) (d : Nat) (v : Nat), d < 26 ∧ s.domState d = 3 ∧ Sparse.get 0 s.keep.entering d = v ∧ (v = 1 ∨ v = 2)) ∧
    (∃ (s : State) (d : Nat), s.domState d ≠ 3) ∧
    (∃ (s : State) (d : Nat) (src : Nat), d < 26 ∧ src < 64 ∧ s.shedDomain d = false ∧
    (if src = 0x3F then Ready s pgKEEP else hardwareWakes d = true) ∧ (d = 10 → s.domState 11 = 0 ∧ s.domState 12 = 0) ∧
    (s.domState d = 1 ∨ s.domState d = 2)) ∧
    (∃ (s : State) (d : Nat) (src : Nat), d < 26 ∧ src < 64 ∧ s.shedDomain d = false ∧
    (if src = 0x3F then Ready s pgKEEP else hardwareWakes d = true) ∧ (d = 10 → s.domState 11 = 0 ∧ s.domState 12 = 0) ∧
    s.domState d = 3 ∧ Sparse.get 0 s.keep.entering d ≠ 0) ∧
    (∃ (s : State) (d : Nat) (src : Nat), d < 26 ∧ src < 64 ∧ s.shedDomain d = false ∧
    (if src = 0x3F then Ready s pgKEEP else hardwareWakes d = true) ∧ (d = 10 → s.domState 11 = 0 ∧ s.domState 12 = 0) ∧
    s.domState d = 0) ∧
    (∃ (s : State) (d : Nat) (v : Nat), d < 26 ∧ s.domState d = 3 ∧ Sparse.get 0 s.keep.restoring d = v ∧ (v = 1 ∨ v = 2) ∧
    (d = 10 → s.domState 11 = 0 ∧ s.domState 12 = 0)) ∧
    (∃ (s : State), (s.domState 11 ≠ 0 ∨ s.domState 12 ≠ 0)) ∧
    (∃ (s : State) (acc : Access), Ready s pgKEEP ∧ acc.be = 15#4) :=
  ⟨⟨(kpol 13 1 up : State), 13, by decide +kernel⟩,
    ⟨(kpol 13 1 up : State), 13, 6, 3, by decide +kernel⟩,
    ⟨up, 13, by decide +kernel⟩,
    ⟨((kp 13 3 up).modKeep (fun x => {x with entering := [(13, 1)]}) : State), 13, 1, by decide +kernel⟩,
    ⟨up, 13, by decide +kernel⟩,
    ⟨(kp 13 1 up : State), 13, 0x3F, by unfold Ready; decide +kernel⟩,
    ⟨((kp 13 3 up).modKeep (fun x => {x with entering := [(13, 1)]}) : State), 13, 0x3F, by unfold Ready; decide +kernel⟩,
    ⟨up, 13, 0x3F, by unfold Ready; decide +kernel⟩,
    ⟨((kp 13 3 up).modKeep (fun x => {x with restoring := [(13, 2)]}) : State), 13, 2, by decide +kernel⟩,
    ⟨(kp 11 1 up : State), by decide +kernel⟩,
    ⟨up, (⟨.host, .normal, 15#4, 0xFFFFFFFF#32⟩ : Access), by unfold Ready; decide +kernel⟩⟩

theorem witness_ClocksJudged :
    (∃ (s : State) (k : Nat) (n : Nat), 1 ≤ k ∧ k ≤ 5 ∧ s.clkOffered k = true ∧ s.gateInWindow k n = true ∧
    s.clkGood k = true ∧ s.clk.lossHeld = false ∧ s.clk.clockWait = false) ∧
    (∃ (s : State) (k : Nat) (n : Nat), 1 ≤ k ∧ k ≤ 5 ∧ s.clkOffered k = true ∧ s.gateInWindow k n = true ∧
    s.clkGood k = false ∧ s.clk.lossHeld = false ∧ s.clk.clockWait = false ∧
    min 15 (s.gateRun k + 1) < max 1 (s.fld pgCLK CLK.judgeGoodCount)) ∧
    (∃ (s : State) (k : Nat), (5 < k ∨ s.clkOffered k = false)) ∧
    (∃ (s : State), s.clkGood 5 = false) ∧
    (∃ (s : State), s.clkGood 5 = true) ∧
    (∃ (s : State) (k : Nat), s.clkGood k = false) ∧
    (∃ (s : State) (k : Nat), s.clkGood k = true ∧ s.clkChoose (some k) (s.treeOrder .a) (s.treeClk .a) ≠ s.treeClk .a) ∧
    (∃ (s : State) (code : Nat), Ready s pgCLK ∧ code < 8 ∧ (5 < code ∨ (code ≠ 0 ∧ s.clkGood code = false))) ∧
    (∃ (s : State) (code : Nat), Ready s pgCLK ∧ code ≤ 5 ∧ (code = 0 ∨ s.clkGood code = true)) ∧
    (∃ (s : State), (s.anyClkGood = true ∨ s.clk.lossHeld = true)) ∧
    (∃ (s : State), s.anyClkGood = false ∧ s.clk.lossHeld = false) ∧
    (∃ (s : State), s.clk.safeOut = false) ∧
    (∃ (s : State), s.clk.safeOut = true) ∧
    (∃ (s : State) (tr : Tree), (s.txs tr).clockForce = false) ∧
    (∃ (s : State), s.clk.trimBroken = true) ∧
    (∃ (s : State), s.clk.trimBroken = false ∧ s.trimSource = false) ∧
    (∃ (s : State), s.clk.trimBroken = false ∧ s.trimSource = true) :=
  ⟨⟨(clkG 5 : State), 5, ((gateExpected 5) : Nat), by decide +kernel⟩,
    ⟨(up.setFld pgCLK CLK.judgeGoodCount 3 : State), 5, (gateExpected 5 : Nat), by decide +kernel⟩,
    ⟨up, 6, by decide +kernel⟩,
    ⟨up, by decide +kernel⟩,
    ⟨(clkG 5 : State), by decide +kernel⟩,
    ⟨up, 5, by decide +kernel⟩,
    ⟨(clkG 1 : State), 1, by decide +kernel⟩,
    ⟨up, 3, by unfold Ready; decide +kernel⟩,
    ⟨(clkG 5 : State), 5, by unfold Ready; decide +kernel⟩,
    ⟨(clkG 5 : State), by decide +kernel⟩,
    ⟨up, by decide +kernel⟩,
    ⟨(up.modClk (fun x => {x with safeOut := false}) : State), by decide +kernel⟩,
    ⟨(up.modClk (fun x => {x with safeOut := true}) : State), by decide +kernel⟩,
    ⟨(up.modTxs .a (fun x => { x with clockForce := false }) : State), .a, by decide +kernel⟩,
    ⟨(up.modClk (fun x => { x with trimBroken := true }) : State), by decide +kernel⟩,
    ⟨up, by decide +kernel⟩,
    ⟨((up.setFld pgCLK CLK.statusPartSource 1).setFld (pgFRM .a0) FRM.stateHdrState 2 : State), by decide +kernel⟩⟩

theorem witness_SuppliesJudged :
    (∃ (s : State), s.padOpen 66 = false ∧ s.flag pgSUP SUP.statusSupplyWarning = true) ∧
    (∃ (s : State), s.padOpen 66 = false ∧ s.flag pgSUP SUP.statusSupplyWarning = false) ∧
    (∃ (s : State), s.padOpen 66 = true) ∧
    (∃ (s : State), s.pfailKept = false) ∧
    (∃ (s : State), s.flag pgSUP SUP.statusVkeepWarning = true) ∧
    (∃ (s : State), s.flag pgSUP SUP.statusVkeepWarning = false) ∧
    (∃ (s : State), s.clk.railHeld = false) ∧
    (∃ (s : State), s.pfailKept = false ∧ s.clk.railHeld = true) ∧
    (∃ (s : State) (m : Bool) (l : Bool),
    (s.padOpen (if m then 64 else 65) = true ∨ s.flag pgSUP (if m then SUP.statusPsrcMain else SUP.statusPsrcBatt) = l)) ∧
    (∃ (s : State) (l : Bool), s.padOpen 65 = false ∧ s.flag pgSUP SUP.statusPsrcBatt = !l) ∧
    (∃ (s : State), s.padOpen 64 = false ∧ s.flag pgSUP SUP.statusPsrcMain = true) ∧
    (∃ (s : State), s.padOpen 64 = false ∧ s.flag pgSUP SUP.statusPsrcMain = false) ∧
    (∃ (s : State), s.sup.holdoff = true ∧ s.flag pgSUP SUP.statusPsrcMain = false) ∧
    (∃ (s : State), (s.sup.holdoff = false ∨ s.flag pgSUP SUP.statusPsrcMain = true)) ∧
    (∃ (s : State), s.sup.judging = true ∧ s.flag pgSUP SUP.statusPsrcMain = true) ∧
    (∃ (s : State), (s.sup.judging = false ∨ s.flag pgSUP SUP.statusPsrcMain = false)) :=
  ⟨⟨(up.setFld pgSUP SUP.statusSupplyWarning 1 : State), by decide +kernel⟩,
    ⟨(up.setFld pgSUP SUP.statusSupplyWarning 0 : State), by decide +kernel⟩,
    ⟨((up.setFld pgPIN PIN.cfgOpenEnable 1).setTf pgPIN 0 66 0 5 5 1 : State), by decide +kernel⟩,
    ⟨(up.setFld pgSUP SUP.statusSupplyWarning 1 : State), by decide +kernel⟩,
    ⟨(up.setFld pgSUP SUP.statusVkeepWarning 1 : State), by decide +kernel⟩,
    ⟨up, by decide +kernel⟩,
    ⟨up, by decide +kernel⟩,
    ⟨(up.modClk (fun x => {x with railHeld := true}) : State), by decide +kernel⟩,
    ⟨(up.setFld pgSUP SUP.statusPsrcMain 0 : State), true, false, by decide +kernel⟩,
    ⟨(up.setFld pgSUP SUP.statusPsrcBatt 0 : State), true, by decide +kernel⟩,
    ⟨(up.setFld pgSUP SUP.statusPsrcMain 1 : State), by decide +kernel⟩,
    ⟨(up.setFld pgSUP SUP.statusPsrcMain 0 : State), by decide +kernel⟩,
    ⟨((up.setFld pgSUP SUP.statusPsrcMain 0).modSup (fun x => {x with holdoff := true}) : State), by decide +kernel⟩,
    ⟨((up.setFld pgSUP SUP.statusPsrcMain 1).modSup (fun x => {x with judging := true}) : State), by decide +kernel⟩,
    ⟨((up.setFld pgSUP SUP.statusPsrcMain 1).modSup (fun x => {x with judging := true}) : State), by decide +kernel⟩,
    ⟨up, by decide +kernel⟩⟩

theorem witness_ContainmentRuns :
    (∃ (s : State) (p : Nat) (u : Nat), (pageInfo p).isSome = true ∧ s.alive p = true ∧ u < 65536 ∧
    s.unitContained p u = false) ∧
    (∃ (s : State) (p : Nat) (u : Nat), (s.alive p = false ∨ s.unitContained p u = true)) ∧
    (∃ (s : State) (r : Nat) (c : Nat), r < 9 ∧ 1 ≤ c ∧ c ≤ 3 ∧ s.containCause r = 0 ∧ (r = 8 → c ≠ 2)) ∧
    (∃ (s : State) (r : Nat), s.containCause r ≠ 0) ∧
    (∃ (s : State) (r : Nat), r < 8 ∧ s.containCause r = 0) ∧
    (∃ (s : State) (r : Nat), s.containCause r ≠ 2) ∧
    (∃ (s : State) (r : Nat), r < 9 ∧ s.containCause r = 2) ∧
    (∃ (s : State) (r : Nat), r < 9 ∧ Ready s pgSYS ∧ s.containCause r = 1) ∧
    (∃ (s : State) (r : Nat), r < 9 ∧ Ready s pgSYS ∧ s.containCause r ≠ 1) ∧
    (∃ (s : State) (w : Nat), (w < 1000 ∨ s.padOpen 67 = true)) ∧
    (∃ (s : State) (w : Nat), 1000 ≤ w ∧ s.padOpen 67 = false) :=
  ⟨⟨up, pgCORE, 3, by decide +kernel⟩,
    ⟨(held 3 : State), pgCLS, 0, by decide +kernel⟩,
    ⟨up, 2, 3, by decide +kernel⟩,
    ⟨(cause 2 1 : State), 2, by decide +kernel⟩,
    ⟨up, 2, by decide +kernel⟩,
    ⟨up, 2, by decide +kernel⟩,
    ⟨(cause 2 2 : State), 2, by decide +kernel⟩,
    ⟨(cause 2 1 : State), 2, by unfold Ready; decide +kernel⟩,
    ⟨(cause 2 2 : State), 2, by unfold Ready; decide +kernel⟩,
    ⟨up, 999, by decide +kernel⟩,
    ⟨up, 1000, by decide +kernel⟩⟩

theorem witness_LinksAndPinsTested :
    (∃ (s : State) (l : Nat) (bs : Bytes), l < 3 ∧ s.linkUp l = true ∧ flitCrcOk bs = false) ∧
    (∃ (s : State) (l : Nat) (back : Bool) (bs : Bytes), l < 3 ∧ s.linkUp l = true ∧ flitCrcOk bs = true ∧
    flitSequence bs = (s.link (2 * l + b2n back)).expected) ∧
    (∃ (s : State) (l : Nat) (back : Bool) (bs : Bytes), l < 3 ∧ s.linkUp l = true ∧ flitCrcOk bs = true ∧
    flitSequence bs ≠ (s.link (2 * l + b2n back)).expected) ∧
    (∃ (s : State) (l : Nat), l < 3 ∧ s.linkUp l = true ∧ s.retrainDue l = true) ∧
    (∃ (s : State) (l : Nat), l < 3 ∧ s.linkUp l = false) ∧
    (∃ (s : State) (l : Nat), l < 3 ∧ s.retrainDue l = false) ∧
    (∃ (s : State) (l : Nat), l < 3 ∧ s.linkUp l = false) ∧
    (∃ (s : State) (l : Nat), l < 3 ∧ s.linkUp l = true) ∧
    (∃ (s : State) (i : Nat), i < 69 ∧ s.pinTests = true ∧ s.pinBit i 0 = true ∧ s.pinBit i 4 = false) ∧
    (∃ (s : State) (i : Nat), (s.pinTests = false ∨ s.pinBit i 0 = false ∨ s.pinBit i 4 = true)) ∧
    (∃ (s : State) (i : Nat), i < 69 ∧ s.pinTests = true ∧ s.flag pgPIN PIN.cfgOpenEnable = true ∧ s.pinBit i 2 = true ∧
    s.pinBit i 0 = false ∧ s.pinBit i 5 = false) ∧
    (∃ (s : State) (i : Nat) (u : Bool) (d : Bool) (c : Bool), i < 69 ∧ s.pinTests = true ∧
    s.flag pgPIN PIN.cfgOpenEnable = true ∧ s.pinBit i 2 = true ∧ s.pinBit i 0 = false ∧ (u && d && !c) = false) ∧
    (∃ (s : State) (i : Nat), i < 69 ∧ Ready s pgPIN ∧ (s.pinBit i 5 = true ∨ s.pinBit i 6 = true)) ∧
    (∃ (s : State) (i : Nat), i < 69 ∧ Ready s pgPIN ∧ s.pinBit i 5 = false ∧ s.pinBit i 6 = false) :=
  ⟨⟨up, 1, (z 80 : Bytes), by decide +kernel⟩,
    ⟨up, 1, false, (flitOf 0 : Bytes), by decide +kernel⟩,
    ⟨up, 1, false, (flitOf 3 : Bytes), by decide +kernel⟩,
    ⟨(lkF 300 : State), 1, by decide +kernel⟩,
    ⟨State.reset, 1, by decide +kernel⟩,
    ⟨up, 1, by decide +kernel⟩,
    ⟨State.reset, 1, by decide +kernel⟩,
    ⟨up, 1, by decide +kernel⟩,
    ⟨(up.setTf pgPIN 0 2 0 0 0 1 : State), 2, by decide +kernel⟩,
    ⟨up, 2, by decide +kernel⟩,
    ⟨((up.setFld pgPIN PIN.cfgOpenEnable 1).setTf pgPIN 0 2 0 2 2 1 : State), 2, by decide +kernel⟩,
    ⟨((up.setFld pgPIN PIN.cfgOpenEnable 1).setTf pgPIN 0 2 0 2 2 1 : State), 2, false, false, false, by decide +kernel⟩,
    ⟨(up.setTf pgPIN 0 2 0 5 5 1 : State), 2, by unfold Ready; decide +kernel⟩,
    ⟨up, 2, by unfold Ready; decide +kernel⟩⟩

theorem witness_ReplansRun :
    (∃ (s : State), s.replanDay = false) ∧
    (∃ (s : State), s.replanDay = true ∧ (s.lehr.active = true ∨ s.flag pgLEHR LEHR.statusDeferred = true)) ∧
    (∃ (s : State), s.replanDay = true ∧ s.lehr.active = false ∧ s.flag pgLEHR LEHR.statusDeferred = false ∧
    s.replanBlocked = true) ∧
    (∃ (s : State) (r : LehrReadings), s.replanDay = true ∧ s.lehr.active = false ∧
    s.flag pgLEHR LEHR.statusDeferred = false ∧ s.replanBlocked = false ∧ s.flag pgLEHR LEHR.cfgAvsEnable = true ∧
    s.railLow r 0 = true ∧ s.railMv 0 < 850) ∧
    (∃ (s : State), s.replanDay = true ∧ s.lehr.active = false ∧ s.flag pgLEHR LEHR.statusDeferred = false ∧
    s.replanBlocked = false ∧ s.flag pgLEHR LEHR.cfgAvsEnable = false) ∧
    (∃ (s : State), Ready s pgLEHR ∧ (s.lehr.active = true ∨ s.flag pgLEHR LEHR.statusDeferred = true)) ∧
    (∃ (s : State), Ready s pgLEHR ∧ s.lehr.active = false ∧ s.flag pgLEHR LEHR.statusDeferred = false ∧
    s.replanBlocked = true) ∧
    (∃ (s : State) (r : LehrReadings), Ready s pgLEHR ∧ s.lehr.active = false ∧ s.flag pgLEHR LEHR.statusDeferred = false ∧
    s.replanBlocked = false ∧ s.flag pgLEHR LEHR.cfgAvsEnable = true ∧ s.railLow r 0 = true ∧ s.railMv 0 < 850) ∧
    (∃ (s : State), Ready s pgLEHR ∧ s.lehr.active = false ∧ s.flag pgLEHR LEHR.statusDeferred = false ∧
    s.replanBlocked = false ∧ s.flag pgLEHR LEHR.cfgAvsEnable = false) ∧
    (∃ (s : State), s.replanDay = true ∧ s.timeValid = true) ∧
    (∃ (s : State), (s.flag pgLEHR LEHR.statusDeferred = false ∨ s.replanBlocked = true ∨ s.lehr.active = true)) ∧
    (∃ (s : State), s.flag pgLEHR LEHR.statusDeferred = true ∧ s.replanBlocked = false ∧ s.lehr.active = false ∧
    s.flag pgLEHR LEHR.cfgAvsEnable = false) ∧
    (∃ (s : State) (r : LehrReadings), s.flag pgLEHR LEHR.statusDeferred = true ∧ s.replanBlocked = false ∧
    s.lehr.active = false ∧ s.flag pgLEHR LEHR.cfgAvsEnable = true ∧ s.railLow r 0 = true ∧ s.railMv 0 < 850) ∧
    (∃ (s : State) (rail : Nat) (mv : Nat) (k : Nat) (mv2 : Nat) (l : List (Nat × Nat)), rail < 2 ∧ mv < 1024 ∧
    s.lehr.active = true ∧ s.lehr.raises = (rail, mv) :: (k, mv2) :: l) ∧
    (∃ (s : State), s.lehr.active = false) :=
  ⟨⟨(up.modLehr (fun x => {x with active := true}) : State), by decide +kernel⟩,
    ⟨((up.modLehr (fun x => { x with active := true })).modNow (fun _ => 86400 * 1000 * symPerMs) : State),
    by decide +kernel⟩,
    ⟨((up.setFld pgSUP SUP.statusSupplyWarning 1).modNow (fun _ => 86400 * 1000 * symPerMs) : State), by decide +kernel⟩,
    ⟨((((up.setFld pgSUP SUP.statusSupplyWarning 0).setFld pgLEHR LEHR.cfgAvsEnable 1).setFld pgLEHR (railFld 0) 750).modNow (fun _ => 86400 * 1000 * symPerMs) : State),
    (⟨List.replicate 9 (300, 2, 5), 0, 0⟩ : LehrReadings), by decide +kernel⟩,
    ⟨((((up.setFld pgSUP SUP.statusSupplyWarning 0).setFld pgLEHR LEHR.cfgAvsEnable 0)).modNow (fun _ => 86400 * 1000 * symPerMs) : State),
    by decide +kernel⟩,
    ⟨((en [pgLEHR]).modLehr (fun x => { x with active := true }) : State), by unfold Ready; decide +kernel⟩,
    ⟨((en [pgLEHR]).setFld pgSUP SUP.statusSupplyWarning 1 : State), by unfold Ready; decide +kernel⟩,
    ⟨((((en [pgLEHR]).setFld pgSUP SUP.statusSupplyWarning 0).setFld pgLEHR LEHR.cfgAvsEnable 1).setFld pgLEHR (railFld 0) 750 : State),
    (⟨List.replicate 9 (300, 2, 5), 0, 0⟩ : LehrReadings), by unfold Ready; decide +kernel⟩,
    ⟨(((en [pgLEHR]).setFld pgSUP SUP.statusSupplyWarning 0).setFld pgLEHR LEHR.cfgAvsEnable 0 : State),
    by unfold Ready; decide +kernel⟩,
    ⟨((up.setFld pgTIME TIME.statusValid 1).setFld pgLEHR LEHR.cfgOffset 0 : State), by decide +kernel⟩,
    ⟨up, by decide +kernel⟩,
    ⟨(((up.setFld pgSUP SUP.statusSupplyWarning 0).setFld pgLEHR LEHR.cfgAvsEnable 0).setFld pgLEHR LEHR.statusDeferred 1 : State),
    by decide +kernel⟩,
    ⟨((((up.setFld pgSUP SUP.statusSupplyWarning 0).setFld pgLEHR LEHR.cfgAvsEnable 1).setFld pgLEHR (railFld 0) 750).setFld pgLEHR LEHR.statusDeferred 1 : State),
    (⟨List.replicate 9 (300, 2, 5), 0, 0⟩ : LehrReadings), by decide +kernel⟩,
    ⟨(up.modLehr (fun x => {x with active := true, raises := [(0, 800), (1, 700)]}) : State), 0, 800, 1, 700,
    ([] : List (Nat × Nat)), by decide +kernel⟩,
    ⟨up, by decide +kernel⟩⟩

theorem witness_BoundaryScans :
    (∃ (s : State), s.clk.tapHeld = false) ∧
    (∃ (s : State), s.clk.tapHeld = true) ∧
    (∃ (cells : List Bool), cells.length = 69) ∧
    (∃ (i : Nat), (i = 36 ∨ i = 37 ∨ i = 39 ∨ i = 40)) :=
  ⟨⟨up, by decide +kernel⟩,
    ⟨((up.modClk (fun x => {x with tapHeld := true})) : State), by decide +kernel⟩,
    ⟨(List.replicate 69 true : List Bool), by decide +kernel⟩,
    ⟨36, by decide +kernel⟩⟩

/-! Values that the spec states of the codes and bursts. -/

/-- R125: over the ASCII bytes 1 to 9 the CRC-16 yields 0x29B1. -/
theorem test_crc16_check_value : crc16 ((List.range 9).map (fun i => BitVec.ofNat 8 (0x31 + i))) = 0x29B1 := by decide +kernel

/-- The halyard header's CRC-8 yields 0xF4 over the same bytes (chapter 5, hcheck). -/
theorem test_crc8_check_value : crc8 ((List.range 9).map (fun i => BitVec.ofNat 8 (0x31 + i))) = 0xF4 := by decide +kernel

/-- The worked example of chapter 4: 16,192 sym in DP-QPSK hold exactly 7 codewords and no pad. -/
theorem test_burst_of_seven : burstFill 16192 false = (7, 0) := by decide

end Sys2Proof.Tests
end

/-! SUPPORT. The record of an ignored write (R50), the writes of CNT_SNAP_CTRL, and with them the statement
SnapCtrlMultiIgnored. -/

namespace Sys2Proof.Machine

open Sys2Proof.Safety

/-! What the record of an ignored write shows and what it leaves (R50). -/

/-- PAGE_CFG_STATUS shows the cause of the last ignored write, in 2 bits. -/
theorem State.fld_cause_ignored (s : State) (p off cause : Nat) :
    (s.ignored p off cause).fld p HDR.pageCfgStatusIgnoredCause = cause % 4 := by
  unfold State.ignored
  rw [State.fld_raise _ _ _ _ _ (by decide), State.fld_count, State.fld_setFld_same _ _ _ _ (by decide)]
  rfl

/-- PAGE_CFG_STATUS shows where the last ignored write went, as a word offset of 10 bits. -/
theorem State.fld_offset_ignored (s : State) (p off cause : Nat) :
    (s.ignored p off cause).fld p HDR.pageCfgStatusIgnoredOffset = off / 4 % 1024 := by
  unfold State.ignored
  rw [State.fld_raise _ _ _ _ _ (by decide), State.fld_count, State.fld_setFld_disjoint _ _ _ _ _ (by rfl) (by decide),
    State.fld_setFld_same _ _ _ _ (by decide)]
  rfl

/-- PAGE_CFG_STATUS.ignored is set. -/
theorem State.flag_ignored (s : State) (p off cause : Nat) :
    (s.ignored p off cause).flag p HDR.pageCfgStatusIgnored = true := by
  unfold State.ignored State.flag
  rw [State.fld_raise _ _ _ _ _ (by decide), State.fld_count, State.fld_setFld_disjoint _ _ _ _ _ (by rfl) (by decide),
    State.fld_setFld_disjoint _ _ _ _ _ (by rfl) (by decide), State.fld_setFld_disjoint _ _ _ _ _ (by rfl) (by decide),
    State.fld_setFld_same _ _ _ _ (by decide)]
  rfl

/-- An ignored write leaves every register but the pennants and the PAGE_CFG_STATUS of its page. -/
theorem State.reg_ignored_ne (s : State) {p off cause q o : Nat} (ho : o / 4 % 1024 ≠ 4)
    (hk : regKey q o ≠ regKey p 0x00C) : (s.ignored p off cause).reg q o = s.reg q o := by
  unfold State.ignored
  rw [State.reg_raise _ _ _ _ _ ho, State.reg_count, State.reg_setFld_ne _ _ _ _ _ _ hk, State.reg_setFld_ne _ _ _ _ _ _ hk,
    State.reg_setFld_ne _ _ _ _ _ _ hk, State.reg_setFld_ne _ _ _ _ _ _ hk]

/-- An ignored write leaves every counter but SYS index 1 and those that its event advances. -/
theorem State.counter_ignored_ne (s : State) {p off cause i : Nat} (hr : raiseCounters.contains i = false)
    (hi : i ≠ cuSYS + 1) : (s.ignored p off cause).counter i = s.counter i := by
  unfold State.ignored
  rw [State.counter_raise _ _ _ _ hr, State.counter_count_ne _ _ _ hi]
  simp only [State.counter_setFld]

/-- An ignored write leaves the snapshot engine. -/
@[simp] theorem State.ignored_snap (s : State) (p off cause : Nat) : (s.ignored p off cause).snap = s.snap := by
  unfold State.ignored
  simp only [State.raise_snap, State.count_snap, State.setFld_snap]

/-- No counter of the CNT page is one that an ignored write advances. -/
theorem State.counter_cnt_ignored (s : State) {p off cause i : Nat} (hi : i < 16) :
    (s.ignored p off cause).counter (cuCNT + i) = s.counter (cuCNT + i) := by
  apply State.counter_ignored_ne
  · simp only [raiseCounters, cuHIF, cuTSK, cuCNT, List.contains_eq_mem, List.mem_cons, List.not_mem_nil, or_false,
      decide_eq_false_iff_not]
    omega
  · unfold cuCNT cuSYS; omega

/-! Writes of CNT_SNAP_CTRL. -/

/-- Of a value with more than one of arm, cancel and arm_now only the trace is left (R603). -/
theorem State.snapCtrl_of_multi (s : State) {v : Word} (hv : [3, 5, 6, 7].contains (v.toNat % 8) = true) :
    s.snapCtrl v = s.ignored pgCNT 0x030 1 := by
  simp only [List.contains_eq_mem, List.mem_cons, List.not_mem_nil, or_false, decide_eq_true_eq] at hv
  unfold State.snapCtrl
  obtain h | h | h | h := hv <;> rw [h] <;> rfl

/-- A plain write of CNT_SNAP_CTRL commands the engine with the value written. -/
theorem State.registerWrite_snapCtrl {s : State} (hr : Ready s pgCNT) (v : Word) :
    s.registerWrite pgCNT 0x030 (cmdAccess v) = s.snapCtrl v := by
  have hw : s.registerWrite pgCNT 0x030 (cmdAccess v) = s.guarded pgCNT 0x030 (cmdAccess v) (State.snapCtrl v) := rfl
  rw [hw, State.guarded_cmd hr (by decide)]

/-- SNAP_CTRL_MULTI on a ready page is an ignored write with cause 0b01. -/
theorem exec_snapCtrlMulti_of_ready {s : State} {v : Word} (hr : Ready s pgCNT)
    (hv : [3, 5, 6, 7].contains (v.toNat % 8) = true) :
    exec (.snapCtrlMulti v) s = .next (s.ignored pgCNT 0x030 1) := by
  have he : exec (.snapCtrlMulti v) s = execSnapCtrlMulti v s := rfl
  rw [he, execSnapCtrlMulti, State.guarded_cmd hr (by decide), if_pos hv]

/-- A plain register write of the same value is that ignored write too. -/
theorem exec_registerWrite_snapCtrl_of_multi {s : State} {v : Word} (hr : Ready s pgCNT)
    (hv : [3, 5, 6, 7].contains (v.toNat % 8) = true) :
    exec (.registerWrite pgCNT 0x030 (cmdAccess v) none) s = .next (s.ignored pgCNT 0x030 1) := by
  have he : exec (.registerWrite pgCNT 0x030 (cmdAccess v) none) s =
      .next (s.registerWrite pgCNT 0x030 (cmdAccess v)) := rfl
  rw [he, State.registerWrite_snapCtrl hr, State.snapCtrl_of_multi s hv]

/-- Settles O12: on a ready page both commands are the ignored write of R50 with cause 0b01, whose frame leaves
CNT_SNAP_STATUS, the counters of CNT and the engine. -/
theorem snapCtrlMultiIgnored : Obligations.SnapCtrlMultiIgnored := by
  intro s v hr hv
  have hm := exec_snapCtrlMulti_of_ready hr hv
  refine ⟨⟨s.ignored pgCNT 0x030 1, hm, s.fld_cause_ignored _ _ _, s.fld_offset_ignored _ _ _,
    s.flag_ignored _ _ _, ?status, fun i hi => s.counter_cnt_ignored hi,
    fun q o ho hk => s.reg_ignored_ne ho hk, s.ignored_snap _ _ _⟩, ?write⟩
  case status => exact s.reg_ignored_ne (by decide) (by decide)
  case write => rw [hm, exec_registerWrite_snapCtrl_of_multi hr hv]

end Sys2Proof.Machine

/-! SUPPORT. A frame that reaches a classifier that is off (R289), and with it the statement ClassifierOff. -/

namespace Sys2Proof.Machine

/-! What noting a frame's fate shows and what it leaves. -/

/-- What was noted of a frame is what became of it. -/
@[simp] theorem State.actOf_noteAct_same (s : State) (id : Nat) (c : Option Classified) :
    (s.noteAct id c).actOf id = some c := by
  unfold State.noteAct State.actOf
  rw [State.modCls_cls, Sparse.get_put_same]

/-- Noting a frame's fate leaves the counters. -/
@[simp] theorem State.counter_noteAct (s : State) (id : Nat) (c : Option Classified) (i : Nat) :
    (s.noteAct id c).counter i = s.counter i :=
  s.counter_modCls _ i

/-! A classifier that is not enabled (R289). -/

/-- The block of a page that is not enabled is not at work. -/
theorem State.works_of_not_enabled {s : State} {p : Nat} (h : s.enabled p = false) : s.works p = false := by
  rw [State.works, h, Bool.and_false, Bool.false_and]

/-- A frame that reaches a classifier that is off waits no more, is counted at CLS index 8 and is noted as dropped. -/
theorem State.classify_of_not_enabled {s : State} (f : InFrame) (saturated : Bool) (h : s.enabled pgCLS = false) :
    s.classify f saturated =
      ((s.modCls (fun x => { x with handed := x.handed.erase f })).count (cuCLS + 8)).noteAct f.id none := by
  have off : (s.modCls (fun x => { x with handed := x.handed.erase f })).works pgCLS = false :=
    State.works_of_not_enabled ((s.enabled_modCls _ pgCLS).trans h)
  simp only [State.classify, off, Bool.not_false, if_true]

/-- Settles O33: with the page off the command is the drop of the frame that is due, which advances CLS index 8 and no
other counter, and changes the classifier and the counters alone. -/
theorem classifierOff : Obligations.ClassifierOff := by
  intro s f sat h
  have he : exec (.frameClassify f sat) s = .next (s.classify (s.dueFrame f) sat) := rfl
  rw [he, State.classify_of_not_enabled _ _ h]
  refine ⟨_, rfl, State.actOf_noteAct_same _ _ _, ?counted, fun i hi => ?others, rfl⟩
  case counted => rw [State.counter_noteAct, State.counter_count_same, State.counter_modCls]
  case others => rw [State.counter_noteAct, State.counter_count_ne _ _ _ hi, State.counter_modCls]

end Sys2Proof.Machine
